-- ==== Sys2Proof/Word.lean ====
section
/-! DEFINITION. The words of the CKM-24: bytes, 32-bit registers and 64-bit quantities, and the plainest
arithmetic on them. Bit ranges are written as the manual writes them, high first (R4). -/

namespace Sys2Proof

/-- One byte of any memory of the module. -/
abbrev Byte := BitVec 8

/-- A register, a command word, a message register, an FP32 value (R4, R7, R179, R392). -/
abbrev Word := BitVec 32

/-- A 64-bit quantity: a _LO/_HI pair, a micro-instruction, a key (R7, R129, R54). -/
abbrev Dword := BitVec 64

/-- Bits [hi:lo] of a number, as a number (the manual's [high:low]). -/
def bitsOf (x hi lo : Nat) : Nat := (x / 2 ^ lo) % 2 ^ (hi + 1 - lo)

/-- Bits [hi:lo] of a word. -/
def Word.fld (w : Word) (hi lo : Nat) : Nat := bitsOf w.toNat hi lo

/-- Bit `i` of a word. -/
def Word.bit (w : Word) (i : Nat) : Bool := w.toNat.testBit i

/-- The word with bits [hi:lo] replaced by `v` (taken modulo the field's width). -/
def Word.setFld (w : Word) (hi lo v : Nat) : Word :=
  BitVec.ofNat 32
    ((w.toNat / 2 ^ (hi + 1)) * 2 ^ (hi + 1) + (v % 2 ^ (hi + 1 - lo)) * 2 ^ lo + w.toNat % 2 ^ lo)

/-- A natural number as a word, modulo 2^32. -/
abbrev w32 (n : Nat) : Word := BitVec.ofNat 32 n

/-- 1 for true, 0 for false. -/
def b2n (b : Bool) : Nat := if b then 1 else 0

/-- Ceiling division. -/
def ceilDiv (a b : Nat) : Nat := (a + b - 1) / b

/-- The least multiple of `g` that is not below `a`. -/
def roundUp (a g : Nat) : Nat := ceilDiv a g * g

/-- A signed reading of the low `n` bits of a number. -/
def signExt (n x : Nat) : Int :=
  let y := x % 2 ^ n
  if y < 2 ^ (n - 1) then (y : Int) else (y : Int) - (2 ^ n : Nat)

/-- An integer as a word, modulo 2^32 (two's complement). -/
def wOfInt (i : Int) : Word := BitVec.ofInt 32 i

end Sys2Proof
end

