-- ==== Sys2Proof/Syntax.lean ====
section
/-! DEFINITION. The commands of the CKM-24: one constructor for each row of the table of operations and
events. An operand names the agent that acts and what the outside world supplies (an address, a value, a
measured temperature, a packet). What an agent acts on (the next command of a stream, the message that a
channel holds) is in State. -/

namespace Sys2Proof

/-- The register spaces that a function reaches by ordinary accesses: BAR0 of the PF and its own BAR2 page
(R377). The management sideband reaches the registers of BAR0 that are served on it (R520). -/
inductive Bar where
  | bar0
  | bar2
  deriving DecidableEq, Repr

/-- A mailbox channel pair: a non-secure pair of a function (R390), the secure pairs S0 and S1 (R395), or
the path of fabric messages in management packets (R370). -/
inductive Chan where
  | fn (f n : Nat)
  | s0
  | s1
  | mgmt
  deriving DecidableEq, Repr

/-- A 32-byte command, eight little-endian words (R179). -/
structure Cmd where
  w0 : Word
  w1 : Word
  w2 : Word
  w3 : Word
  w4 : Word
  w5 : Word
  w6 : Word
  w7 : Word
  deriving DecidableEq, Repr

/-- The attention routines that the manual describes: the fresh block (R219), ATTN_COMBINE (R221) and ATTN_BWD (R224). -/
inductive AttnKind where
  | fresh
  | combine
  | backward
  deriving DecidableEq, Repr

/-- A routine of the resident library: its ID, version and 40-byte entries, a command and its substitution
map (R186), and which of the attention routines it is, if one: the manual names these and gives no IDs (log entry 169). -/
structure Routine where
  id : Nat
  version : Nat
  entries : List (Cmd × Dword)
  attn : Option AttnKind
  deriving DecidableEq, Repr

/-- A component of an image set (R404): the entry's fields, the bytes that its signature covers, the
signature, and for ID 7 the routines that the image holds. -/
structure Component where
  id : Nat
  version : Word
  schema : Nat
  len : Nat
  signed : List Byte
  sig : List Byte
  routines : List Routine
  deriving DecidableEq, Repr

/-- The control content of a control flit (R349, trailer bit 21): stop, key switch, or another link control
that changes no state of the model. -/
inductive FlitCtrl where
  | none
  | stop
  | keySwitch
  | other
  deriving DecidableEq, Repr

/-- A received flit: its trailer fields, whether FEC and CRC passed, and on an encrypted port whether the
tag of the sealed group it closes passed (R349, R350, R369). -/
structure Flit where
  fseq : Nat
  ack : Nat
  nak : Bool
  ctrl : FlitCtrl
  crVc : Nat
  crN : Nat
  checkOk : Bool
  tagOk : Bool
  deriving DecidableEq, Repr

/-- A packet of the Esker links: its header fields and its payload (R357). -/
structure Packet where
  ptype : Nat
  vc : Nat
  ordered : Bool
  hops : Nat
  dst : Nat
  src : Nat
  domain : Nat
  tag : Nat
  handle : Word
  off : Nat
  op : Nat
  etype : Nat
  fetch : Bool
  poison : Nat
  status : Nat
  len : Nat
  data : List Byte
  deriving DecidableEq, Repr

/-- What a port's training finds (R351): whether the lanes lock and the spare that serves, and what the
partner sends in step 4. -/
structure Training where
  lanesOk : Bool
  failedLane : Option Nat
  node : Nat
  nodeValid : Bool
  port : Nat
  credits : List Nat
  encReq : Bool
  sendKey : Option Word
  recvKey : Option Word
  deriving DecidableEq, Repr

/-- What the converters and the units' activity counters report for a window that ends (R452 to R455, R25):
input voltage and current, the energy of Moraine and the losses, the measured input energy, each governed
unit's spend and whether work waited in it, and for each die whether its tokens ran out early, its wave
rate, supply and hottest sensor. -/
structure WindowMeasure where
  vin : Nat
  iin : Nat
  moraine : Nat
  input : Nat
  spent : List Nat
  waited : List Bool
  early : List Bool
  wave : List Nat
  vcore : List Nat
  deriving DecidableEq, Repr

/-- What a read of a sector finds (R463). -/
inductive EccResult where
  | clean
  | corrected
  | uncorrectable
  | storedPoison
  deriving DecidableEq, Repr

/-- The name of a semaphore with the job or cluster that holds it (R188). -/
inductive SemRef where
  | localSem (c idx : Nat)
  | jobSem (j idx : Nat)
  | globalSem (idx : Nat)
  deriving DecidableEq, Repr

/-- What a failed device DMA was issued for (R389). -/
inductive DmaOwner where
  | job (j : Nat)
  | request (p id : Nat)
  | swap (p pid : Nat)
  deriving DecidableEq, Repr

/-- The commands: the rows of the table of operations and events, in the table's order. The `img` of a load is what the
host has put in its own memory at the address that the message gives. -/
inductive Instr where
  -- registers and the host interface
  | registerWrite (i : Nat) (bar : Bar) (off : Nat) (v : Word)
  | loReadLatch (i : Nat) (bar : Bar) (off : Nat)
  | hiWriteStage (i : Nat) (bar : Bar) (off : Nat) (v : Word)
  | loWriteCommit (i : Nat) (bar : Bar) (off : Nat) (v : Word)
  | readClear (i : Nat) (bar : Bar) (off : Nat) (event : Nat)
  | w1cWrite (i : Nat) (bar : Bar) (off : Nat) (v hwSet : Word)
  | doorbell (f q : Nat) (v : Word)
  | jobSubmit (f q : Nat)
  | requestSubmit (f q : Nat)
  | ringHeadWrite (f r : Nat) (v : Word)
  | coalesceTimer (f r : Nat)
  | mailboxGo (ch : Chan) (v : Word) (sideband : List Word)
  | mailboxDataLastRead (ch : Chan)
  | bar4Read (f off len : Nat)
  | bar4Write (f off : Nat) (data : List Byte)
  | queueCreate (ch : Chan)
  | queueDestroy (ch : Chan)
  | ringCreate (ch : Chan)
  | ringDestroy (ch : Chan)
  | windowEnable (ch : Chan)
  | windowDisable (ch : Chan)
  | hostMapQuery (ch : Chan)
  | vfFlr (f : Nat)
  | pfFlr
  | busMasterDisable (f : Nat)
  | busMasterEnable (f : Nat)
  | hostLinkDown
  | hostDmaFault (o : DmaOwner)
  -- tensor objects and data movement
  | tensorCreate (ch : Chan)
  | tensorQuery (ch : Chan)
  | tensorDestroy (ch : Chan)
  | tensorFirnMap (ch : Chan)
  | copy (c : Nat)
  | copyStrided (c : Nat)
  | atomic (c : Nat)
  | gather (c : Nat)
  | scatter (c : Nat)
  | scatterAdd (c : Nat)
  -- stacks
  | accessCountDecay (busy : List (Nat × Nat × Nat))
  | frameMigrationSwitch (p : Nat) (h : Word) (fr : Nat)
  | stackTempPoll (n temp : Nat)
  | stackReportTimeout (n : Nat)
  -- Firn units
  | firnHostGo (u : Nat) (v : Word)
  | firnRun (u : Nat)
  | firnFence (u : Nat)
  | firnFenceComplete (u : Nat)
  | holdBroadcastApply (u : Nat)
  | row (u : Nat)
  | mac (u : Nat)
  | rstat (u : Nat)
  | exp (u : Nat)
  | scale (u : Nat)
  | commit (u : Nat)
  | csend (u : Nat)
  | crecv (u : Nat)
  | bsend (u : Nat)
  | brecv (u : Nat)
  | chainRendezvous (u : Nat)
  | chainTimeout (u : Nat)
  | loop (u : Nat)
  | endl (u : Nat)
  | yield (u : Nat)
  | fencec (u : Nat)
  | firnParkEnd (u : Nat)
  | refreshDue (u act : Nat)
  | firnCmdTimeout (u : Nat)
  | firnUnitFail (u cause : Nat)
  | firnSetStartDone (k : Nat)
  | firnSetStopped (k : Nat)
  -- command streams
  | nop (c : Nat)
  | repeatCmd (c : Nat)
  | endRepeat (c : Nat)
  | call (c : Nat)
  | returnCmd (c : Nat)
  | endCmd (c : Nat)
  | streamEnd (c : Nat)
  | cheapPoint (c : Nat)
  | semWait (c : Nat)
  | semWaitGrant (r : SemRef)
  | semSignal (c : Nat)
  | fence (c : Nat)
  | firnPush (c : Nat)
  | firnHold (c : Nat)
  | matmul (c : Nat)
  | matmulPacked (c : Nat)
  | vec (c : Nat)
  | vred (c : Nat)
  | quant (c : Nat)
  | engineCommandComplete (c q ns : Nat)
  | tileFault (t cause : Nat)
  | bundleLoad (ch : Chan) (img : List Byte)
  | bundleUnload (ch : Chan)
  | jobBreakSet (ch : Chan)
  | jobResumeRun (ch : Chan)
  | jobResumeStep (ch : Chan)
  | semCreate (ch : Chan)
  | semDestroy (ch : Chan)
  -- Snowpack
  | snwKvClass (ch : Chan)
  | snwSeqCreate (ch : Chan)
  | snwSeqFork (ch : Chan)
  | snwSeqTruncate (ch : Chan)
  | snwSeqFree (ch : Chan)
  | snwSeqQuery (ch : Chan)
  | snwSeqPark (ch : Chan)
  | snwSeqRestore (ch : Chan)
  | snwArenaAdd (ch : Chan)
  | snwArenaWithdraw (ch : Chan)
  | snwNsJoin (ch : Chan)
  | snwNsLeave (ch : Chan)
  | snwNsCreate (ch : Chan)
  | snwNsDestroy (ch : Chan)
  | pageMoveSwitch (p pid : Nat)
  -- serving
  | srvModelLoad (ch : Chan)
  | srvModelUnload (ch : Chan)
  | srvAdapterLoad (ch : Chan)
  | srvAdapterUnload (ch : Chan)
  | srvReqCancel (ch : Chan)
  | srvReqRebind (ch : Chan)
  | srvReqQuery (ch : Chan)
  | stepBoundary (p m : Nat)
  | stepRetry (p m : Nat)
  -- sharing
  | partCreate (ch : Chan)
  | partitionRunning (p : Nat)
  | partDestroy (ch : Chan)
  | partitionStopped (p : Nat)
  | clientSet (ch : Chan)
  | jobDispatch (p : Nat)
  | sliceExpiry (j : Nat)
  | preemptBoundExpiry (j : Nat)
  | preemptSaveDone (j : Nat)
  | holdBoundExpiry (r : SemRef)
  | heartbeat (v : Word)
  | heartbeatTimeout
  | drvAdoptKeep (ch : Chan)
  | drvAdoptDiscard (ch : Chan)
  | graceExpiry
  -- ledgers and the governor
  | ledgerSnapshot (i n : Nat)
  | ledgerAudit
  | governorWindow (m : WindowMeasure)
  -- Esker links
  | eskPortStart (ch : Chan)
  | eskPortStop (ch : Chan)
  | portTrainingDone (p : Nat) (t : Training)
  | retrainTimer (p : Nat)
  | lossOfSignal (p : Nat)
  | keepaliveTimeout (p : Nat)
  | flitReceive (p : Nat) (fl : Flit)
  | laneLockLoss (p lane : Nat)
  | laneErrorWindow (p : Nat) (errs : List Nat)
  | eskWritePacket (p : Nat) (k : Packet)
  | eskRedPacket (p : Nat) (k : Packet)
  | eskReadPacket (p : Nat) (k : Packet)
  | eskAtomicPacket (p : Nat) (k : Packet)
  | eskAckPacket (p : Nat) (k : Packet)
  | eskDataPacket (p : Nat) (k : Packet)
  | eskMgmtPacket (p : Nat) (k : Packet) (msg : List Word)
  | ackTimeoutExpiry (tag : Nat)
  | vc1EscapeTimeout (p : Nat)
  | timeSyncTick (t1 t2 t3 t4 : Int) (hops : Nat)
  | eskNodeSet (ch : Chan)
  | eskRouteSet (ch : Chan)
  | eskRouteGet (ch : Chan)
  | eskDomainJoin (ch : Chan)
  | eskDomainLeave (ch : Chan)
  | eskAllot (ch : Chan)
  | eskGroupSet (ch : Chan)
  | eskFarGrant (ch : Chan)
  | eskFabricSet (ch : Chan)
  -- Rime cores
  | rimeKick (n : Nat)
  | watchdogExpiry (n : Nat)
  | rimeCoreFault (n cause pc addr : Nat)
  | rimeCoreRestarted (n : Nat)
  | rootCoreFault (cause : Nat)
  | fwLoad (ch : Chan) (img : List Byte)
  | fwUpdate (ch : Chan) (img : List Byte)
  | fwRestart (ch : Chan)
  | fwStatus (ch : Chan)
  -- start
  | vinPresent (mv : Nat)
  | morResetCold (i : Nat) (v : Word)
  | morResetWarm (i : Nat) (v : Word)
  | sidebandColdReset
  | sidebandWarmReset
  | perstAssert
  | hotReset
  | perstDeassert
  | settleExpiry
  | stackTrainingDone (untrained failedUnits : List Nat)
  | fnCtrlQuery (ch : Chan)
  | fnCtrlStart (ch : Chan)
  | fnCtrlStop (ch : Chan)
  -- clocks
  | refclkLoss (cause : Nat)
  | refclkRestore (us : Nat)
  | clkSelWrite (i : Nat) (v : Word)
  | altReadyLoss
  -- power and heat
  | vinLow (mv : Nat)
  | vinHigh (mv : Nat)
  | railOutOfRegulation (rail mv : Nat)
  | pwrLimitWrite (i : Nat) (v : Word)
  | sensorConversion (n : Nat) (temp : Int) (ratioOk : Bool)
  | thermalTrip (src index : Nat) (temp : Int)
  -- errors and repair
  | patrolRead (n core bank row : Nat) (res : EccResult) (obj : Option (Nat × Word × Nat))
  | rowCountDecay
  | refetchComplete (p : Nat) (h : Word) (fr : Nat)
  | refetchRetry (p : Nat) (h : Word) (fr : Nat)
  | refetchTimeout (p : Nat) (h : Word) (fr : Nat)
  | tsvPathFail (n ch bit : Nat)
  -- trust
  | lcChallenge (ch : Chan)
  | lcAdvance (ch : Chan)
  | lcReturn (ch : Chan)
  | lcScrap (ch : Chan)
  | lcFloor (ch : Chan)
  | debugUnlock (ch : Chan)
  | attest (ch : Chan)
  | attestRead (ch : Chan)
  | eskKeyInstall (ch : Chan)
  | eskKeySwitch (ch : Chan)
  | ideKm (streams : Nat)
  | pldmRequest (sensor : Nat)
  -- the ice core
  | iceStatus (ch : Chan)
  | iceRead (ch : Chan)
  | iceClear (ch : Chan)
  | iceCommit (failures : Nat)
  | iceBudgetToken
  | iceScanDone
  | operatingHour
  | flashHoldAssert
  | flashHoldRelease
  -- completions of transitions
  | hostLinkTrained (rate width : Nat) (flit : Bool)
  | tileRemapDone (t : Nat)
  | channelGroupRunning (k : Nat)
  | channelGroupStopped (k : Nat)
  | portStoppingDone (p : Nat)
  | atsInvalidate (f addr pages : Nat)
  | pageZeroFillDone (p pid : Nat)
  | iceClearProgram
  deriving DecidableEq, Repr

end Sys2Proof
end

