-- ==== Sys2Proof/Config.lean ====
section
/-! DEFINITION. The values that the manual leaves open, as constants without a body. Nothing in Lean can
evaluate one or prove a value of it. A value used once is taken from the counter that State holds, so that
two draws are never equal by construction. -/

namespace Sys2Proof

/-- A fresh open value: the choice of a slot, a nonce, an amount of waiting, an unspecified order. Each use
applies it to the counter of State and advances the counter. DESIGN CHOICE, log entry 1. -/
opaque Config.free : Nat → Nat

/-- The choice that R48 leaves within 2 ulp: which FP32 value beside the true one the exponential (0), the
logarithm (1), the reciprocal (2) and the reciprocal square root (3) give. A function of the operand alone,
because R48 names one unit. DESIGN CHOICE, log entry 2. -/
opaque Config.ulpChoice : Nat → Word → Nat

/-- The result of a logarithm or a reciprocal square root of a negative operand, which R48 does not state.
DESIGN CHOICE, log entry 2. -/
opaque Config.outOfDomain : Nat → Word → Word

/-- Which of the 16,384 sets of a memory-side cache a 256 B unit falls in. The manual gives the number of
sets and no mapping. DESIGN CHOICE, log entry 3. -/
opaque Config.mscSet : Nat → Nat → Nat

/-- The set of a cluster read cache that a line falls in, of 256 (R280). DESIGN CHOICE, log entry 3. -/
opaque Config.crcSet : Nat → Nat → Nat

/-- SHAKE256 with 48 bytes of output (FIPS 202, R482). The manual cites the standard and the model leaves
the function uninterpreted. DESIGN CHOICE, log entry 4. -/
opaque Config.shake256 : List Byte → List Byte

/-- ML-DSA-65 verification of a signature over a message under a public key (FIPS 204, R482). -/
opaque Config.mldsaVerify : List Byte → List Byte → List Byte → Bool

/-- The ML-DSA-65 public key derived from ID_SEED (R494). -/
opaque Config.mldsaPublic : List Byte → List Byte

/-- The ML-DSA-65 signature that the key of a seed gives over a message (R496). -/
opaque Config.mldsaSign : List Byte → List Byte → List Byte

/-- The contents of the boot ROM, which the manual does not give (R495). -/
opaque Config.romContents : List Byte

/-- SB_ADDR0 and SB_ADDR1 as the baseboard straps them: bits 0 and 1 (R520). -/
opaque Config.sbStraps : Nat

/-- The unit at which the spread of a sequence and layer starts: "derived from the sequence ID and the
layer" (R214). -/
opaque Config.spreadStart : Nat → Nat → Nat

end Sys2Proof
end

