-- ==== Sys2Proof/Machine/State.lean ====
section
/-! DEFINITION. The state of the CKM-24 as plain data. A sparse table is a list of (key, value) pairs with
rising keys; what an unlisted key stands for is the default of the operation that reads the table
(Sys2Proof/Machine/Ops.lean). Registers that hold no structure of their own live in `regs`, keyed by their
address, and an unlisted register holds its reset value. -/

namespace Sys2Proof.Machine

/-- A sparse table keyed by a number. -/
abbrev Tbl (α : Type) := List (Nat × α)

/-- The four counts of a conservation ledger (R336). -/
structure Ledger where
  free : Nat
  held : Nat
  flight : Nat
  total : Nat
  deriving DecidableEq, Repr

/-- Bytes of a memory and the poison marks of its 32 B sectors (R463, R466). An unlisted byte is 0. -/
structure Store where
  cells : List Host.Cell
  poison : List Nat
  deriving DecidableEq, Repr

/-- The latches that 64-bit reads, staged writes and ledger snapshots use, one set for each initiator (R7,
R340). Initiator 0 to 63 is the function, 64 the management sideband. -/
structure Latches where
  lo : Tbl Word
  hi : Tbl Word
  ldg : Tbl Ledger
  deriving DecidableEq, Repr

/-- A submission queue (R382, R383). SQ_HEAD lies in the function's page. -/
structure HostQueue where
  request : Bool
  k : Nat
  ring : Nat
  addr : Nat
  r1 : Word
  tail : Nat
  stopped : Bool
  deriving DecidableEq, Repr

/-- A completion ring (R386 to R388): `filled` entries are written and not consumed, `slot` is the next slot
to write, `csn` the next sequence number, `unann` the entries that no message has announced, `since` the time of the first of them. -/
structure Ring where
  k : Nat
  addr : Nat
  vector : Nat
  coalUs : Nat
  coalN : Nat
  r1 : Word
  filled : Nat
  slot : Nat
  csn : Nat
  unann : Nat
  since : Nat
  deriving DecidableEq, Repr

/-- A BAR4 window (R380). BASE is a byte offset, SIZE counts 2 MiB units. -/
structure Window where
  handle : Word
  base : Nat
  size : Nat
  readOnly : Bool
  deriving DecidableEq, Repr

/-- Something the device holds back from the host, in issue order (R303, R387): a write, or an entry of a
ring with its words 0 to 6. -/
inductive HeldItem where
  | write (addr : Nat) (data : List Byte)
  | entry (ring : Nat) (words : List Word)
  deriving DecidableEq, Repr

/-- What a function holds besides its registers (R377 to R389). -/
structure Fn where
  queues : Tbl HostQueue
  rings : Tbl Ring
  held : List HeldItem
  windows : Tbl Window
  busMaster : Bool
  ats : List Nat
  deriving DecidableEq, Repr

/-- A mailbox channel beside its registers (R391, R392): the length of the message held, and on a
device-to-host channel the replies that wait, each with the message's payload; on a host-to-device channel
whether the reply to a message taken is still owed. -/
structure Mbx where
  len : Nat
  waiting : List (List Word)
  owed : Bool
  deriving DecidableEq, Repr

/-- A record of the ice core (R503). `seq` is assigned at commit. -/
structure IceRec where
  seq : Nat
  hours : Nat
  seconds : Nat
  event : Nat
  pcycles : Nat
  source : Nat
  lost : Nat
  data : List Word
  time : Nat
  deriving DecidableEq, Repr

/-- The VALID byte of a slot (R503). -/
inductive SlotValid where
  | erased
  | valid
  | cleared
  | part
  deriving DecidableEq, Repr

/-- A slot of the flash: the record and whether its CRC holds. -/
structure IceSlot where
  body : IceRec
  valid : SlotValid
  crcOk : Bool
  deriving DecidableEq, Repr

/-- A latch that a read fills (R509): the SEQ read, REC_STATE and the 64 bytes. -/
structure IceLatch where
  seq : Nat
  recState : Nat
  bytes : List Byte
  deriving DecidableEq, Repr

/-- The ice core (R502 to R513): the permanent slots and the ring slots of the flash, the write queue, the
writer's budget, the counters of the flash, the clear under way and the reading latches. -/
structure IceCore where
  perm : Tbl IceSlot
  ring : Tbl IceSlot
  nextSlot : Nat
  queue : List IceRec
  health : List IceRec
  healthLost : Nat
  lost : Nat
  budget : Nat
  last : Nat
  cleared : Nat
  clearing : Option Nat
  scanned : Bool
  hours : Nat
  pcycles : Nat
  secNs : Nat
  hold : Bool
  latches : Tbl IceLatch
  deriving DecidableEq, Repr

/-- What a Rime core holds beside its registers (R402, R406, R407): the image in force, the times of the
faults that FAULT_LIMIT counts, the time of the last fault and of the last kick, and the message that waits for the
restart under way, with its header and whether it is an update (R408). -/
structure RimeCore where
  image : Option Component
  faults : List Nat
  faultAt : Nat
  kickAt : Nat
  reply : Option (Chan × Word × Bool)
  deriving DecidableEq, Repr

/-- The firmware of the module: the seven cores, the routine library in force and the set's identifier
(R404, R405, R186). `prior` holds the SCHEMA values of the set before the start, for R424. -/
structure Firmware where
  loaded : Bool
  cores : Tbl RimeCore
  library : Option Component
  prior : List (Nat × Nat)
  deriving DecidableEq, Repr

/-- One of the bits of LC: its three fuses (R482). -/
structure LcBit where
  a : Bool
  b : Bool
  c : Bool
  deriving DecidableEq, Repr

/-- The fuses (R482): LC bits DEVELOP, FIELD, RETURN, SCRAP, the digests, the seed and the floors. -/
structure Fuses where
  develop : LcBit
  field : LcBit
  ret : LcBit
  scrap : LcBit
  vendorDigest : List Byte
  idSeed : List Byte
  ownerDigest : List Byte
  ownerValid : Bool
  floors : List Nat
  romVersion : Nat
  deriving DecidableEq, Repr

/-- An installed key: identifier, salt, 256-bit key (R493). -/
structure LinkKey where
  id : Word
  salt : Word
  key : List Word
  deriving DecidableEq, Repr

/-- The trust state of ROOT (R485 to R497): the fuses, the seed of the identity key as the start read it, nonces and
reports by pair (0 is S0, 1 is S1), measurements and update counts by index. Keys are keyed by
port × 4 + direction × 2 + slot. -/
structure Trust where
  fuses : Fuses
  seed : List Byte
  nonces : Tbl (List Byte)
  reports : Tbl (List Byte)
  reportCount : Nat
  updates : Tbl Nat
  measures : Tbl (Word × List Byte)
  keys : Tbl LinkKey
  deriving DecidableEq, Repr

/-- The start of the module (R421, R423, R424, R524): whether the always-on rail is up and the input is in range,
PERST_N, the settle time read, the events that a start's steps wait for, the conditions that R424 tests, whether
BREACH stands from before the start (R346), the bytes of the record region for the attestation, and while a warm start awaits its image set the registers and
ledger totals of the kept partitions, by address. PHASE and the cause lie in registers. -/
structure Start where
  powered : Bool
  input : Bool
  perst : Bool
  settle : Nat
  pllOn : Bool
  linkUp : Bool
  stacksDone : Bool
  keepReq : Bool
  refStopped : Bool
  mustDiscard : Bool
  oldBreach : Bool
  recordBytes : List Byte
  saved : Tbl Word
  deriving DecidableEq, Repr

/-- An uncorrectable error in a 32 B sector of a cached line, not met yet: in a cluster's read cache or a die's
memory-side cache (R463, R465). -/
structure CacheErr where
  crc : Bool
  unit : Nat
  part : Nat
  handle : Word
  sector : Nat
  deriving DecidableEq, Repr

/-- An error in a 32 B sector of a stack that the next read of it meets: where it lies, the object, or for handle 0 the
page view, and the sector there, and whether the code corrects it (R463, R464). -/
structure DramErr where
  stack : Nat
  core : Nat
  bank : Nat
  row : Nat
  part : Nat
  handle : Word
  sector : Nat
  fixable : Bool
  deriving DecidableEq, Repr

/-- The environment of the module that its own actions read or write: the host's memory, the 4 KiB pages of
it that device DMA cannot reach, the flash's record region and whether SFDP can be read, and the physical
tiles and Firn units that fail the tests of a start, the errors that stand in cached lines and in the stacks, the messages sent by MSI-X, the packets that have left
each port and the PLDM readings and events that have left the sideband, oldest first. -/
structure Env where
  hostMem : List Host.Cell
  hostUnmapped : List Nat
  flash : List Byte
  sfdpOk : Bool
  badTiles : List Nat
  cacheErrs : List CacheErr
  dramErrs : List DramErr
  msi : Tbl Nat
  sent : List (Nat × Packet)
  pldm : List (Nat × Word)
  deriving DecidableEq, Repr

/-- The clocked domains that coast (R435, R441). CLK_SEL holds the source of each switchable one. -/
structure Clocks where
  coastTb : Bool
  coastStack : Bool
  coastEsk : Bool
  coastPcie : Bool
  deriving DecidableEq, Repr

/-- The power and thermal controllers beside their registers (R451 to R460): the energy spent in the last
windows and drawn from the input in them, newest first, the grants, the spends and waits of the last window, the targets
of the governor and the thermal controller, the tokens that the Firn units of each compute stack have spent in the
window so far, the issue fractions, failed ratio checks in a row, conversions
at shutdown in a row, the supply of Moraine and its DMA issue limit (R459). -/
structure Power where
  windows : List Nat
  inputs : List Nat
  grants : List Nat
  spent : List Nat
  waited : List Bool
  early : List Bool
  govTarget : List Nat
  thmTarget : List Nat
  firnUse : List Nat
  issue : List Nat
  cut : Bool
  uJ : Nat
  ratioFails : Tbl Nat
  atTrip : Tbl Nat
  vcoreM : Nat
  pwrGood : Bool
  outLimit : Nat
  deriving DecidableEq, Repr

/-- The row table of a stack and its repairs (R464, R472, R474): correctable counts by row (the list runs
from the most to the least recently counted), spare rows used by bank, spare paths used by channel, the channel
group of each frame retired, and the groups that stay STOPPED until a cold start. -/
structure StackErr where
  rows : List (Nat × Nat)
  spares : Tbl Nat
  paths : Tbl Nat
  retired : List Nat
  groupsDown : List Nat
  deriving DecidableEq, Repr

/-- A re-fetch under way (R469, R470). -/
structure Refetch where
  part : Nat
  handle : Word
  frame : Nat
  began : Nat
  failing : Bool
  deriving DecidableEq, Repr

/-- The repair state of the module: the rows of each stack, the re-fetches, the cause of each tile's failure, the
sectors read in the patrol's current pass (R471), the errors whose rows are looked after once the access that met them
is over (R472). -/
structure Errors where
  stk : Tbl StackErr
  refetches : List Refetch
  tileCause : Tbl Nat
  patrol : Nat
  met : List DramErr
  deriving DecidableEq, Repr

/-! ### Partitions, bundles, jobs and clusters -/

/-- A partition (R307 to R310), with RUN_PAGES as its STARTING read it (R427) and the busy fractions of its stacks.
The state of its registers lies in SCH_P_CFG and SCH_P_STATE. -/
structure Part where
  dies : Nat
  die : Nat
  clusters : Nat
  groups : Nat
  runPages : Nat
  busyFrac : Tbl Nat
  deriving DecidableEq, Repr

/-- A physical frame of an object: which copy or piece it belongs to, the 2 MiB frame of the view it holds,
its stack, the channel groups over whose channels it is striped (bit g for group g, R90; a Firn frame has its unit
and page instead), its access count and the time of its last heat or count move (R69, R86, R110). -/
structure Frame where
  piece : Nat
  idx : Nat
  stack : Nat
  groups : Nat
  unit : Nat
  page : Nat
  count : Nat
  movedAt : Nat
  deriving DecidableEq, Repr

/-- Where a SPLIT_FIRN piece lies (R531): unit, first page and page count of its four sections. -/
structure FirnPiece where
  unit : Nat
  pages : List (Nat × Nat)
  deriving DecidableEq, Repr

/-- A write to a REPLICATE object that copy `copy` does not hold yet (R72): the party's cluster and access, the
queues that are bound to release it, the queues that have seen it, and what that copy still holds of the sector. -/
structure CopyLag where
  copy : Nat
  cluster : Nat
  acc : Nat
  owners : List Nat
  seen : List Nat
  off : Nat
  old : List Byte
  mark : Bool
  deriving DecidableEq, Repr

/-- A tensor object (R65 to R76; one that is `dying` goes when no job or request names it, R396): owner, bundle, descriptor, its data in the global linear view at its point of coherence, the writes that some
copy lacks, oldest first, frames, counters, golden copy (kind, address or node, handle), damage, the pieces along each
dimension, and the module's place in its module group (R366). -/
structure Obj where
  gen : Nat
  owner : Nat
  bundle : Nat
  desc : List Word
  data : Store
  lag : List CopyLag
  frames : List Frame
  pieces : Tbl FirnPiece
  migrations : Nat
  hintsMissed : Nat
  golden : Nat
  g0 : Word
  g1 : Word
  damaged : Bool
  dying : Bool
  split : List Nat
  member : Nat
  deriving DecidableEq, Repr

/-- The slots of a partition: objects by slot, and the last generation of every slot used (R65). -/
structure Objects where
  live : Tbl Obj
  gens : Tbl Nat
  deriving DecidableEq, Repr

/-- An entry of a bundle's object list: the descriptor of R67 in 13 words, and the golden copy (R205). -/
structure ObjEntry where
  desc : List Word
  golden : Nat
  g0 : Word
  g1 : Word
  deriving DecidableEq, Repr

/-- A bundle image as its loader has read it (R205): the header's fields and the sections. -/
structure BundleImage where
  version : Nat
  streams : List (List Cmd)
  scopeCheck : Bool
  bundleId : Dword
  tmRegions : Nat
  saveBudget : Nat
  numCtrl : Word
  rngKey : Dword
  minPages : Nat
  eskerCredits : Nat
  firnStore : Nat
  semLocal : Nat
  semJob : Nat
  routines : List (Nat × Nat)
  sems : List (Nat × Nat × Nat)
  objects : List ObjEntry
  firn : List Dword
  deriving DecidableEq, Repr

/-- A loaded bundle (R205, R206). `slots` are the objects it declared; `forFn` the function that loaded it; `firnBase` the first index of its
range of the Firn stores (R128). -/
structure Bundle where
  part : Nat
  forFn : Nat
  img : BundleImage
  slots : List Nat
  firnBase : Nat
  model : Bool
  deriving DecidableEq, Repr

/-- A waiter of a semaphore (R192): cluster, engine queue or 24 for the control core, the wait's own command count
(R193), amount, acquire scope or none for a plain wait, and whether it takes a hold. -/
structure Waiter where
  cluster : Nat
  queue : Nat
  cmd : Nat
  amount : Nat
  acquire : Option Nat
  hold : Bool
  deriving DecidableEq, Repr

/-- A semaphore (R189): count, the scope and cluster of the last release (0x3F for a Firn unit), the accesses that
its releases so far cover and that had not been performed, by cluster (R284, R288), the holder with its amount and
time, and the waiters in order of arrival. -/
structure Sem where
  count : Nat
  relScope : Option Nat
  relCluster : Nat
  covers : List (Nat × Nat)
  holder : Option Nat
  holdN : Nat
  holdAt : Nat
  waiters : List Waiter
  part : Nat
  deriving DecidableEq, Repr

/-- A command as issued, with the patches and substitutions applied (R184, R186), its command count, whether
a routine issued it, for a push the target entries already sent, for a remote read that reduces the bytes that have
arrived. -/
structure QEntry where
  cmd : Cmd
  count : Nat
  tag : Nat
  routine : Bool
  started : Bool
  waiting : Bool
  status : Nat
  done : Nat
  got : Store
  deriving DecidableEq, Repr

/-- An open loop (R182 to R184): the position of REPEAT, BODY, the latched count, the iteration, the patch
entries. -/
structure LoopFrame where
  pos : Nat
  body : Nat
  total : Nat
  iter : Nat
  patches : List (Word × Word)
  deriving DecidableEq, Repr

/-- A call level (R185): the routine, the position after the CALL, the loops of the caller, the arguments. -/
structure CallFrame where
  routine : Nat
  retPos : Nat
  loops : List LoopFrame
  args : List Word
  deriving DecidableEq, Repr

/-- A 32 B sector, or part of one, of a write of a cluster's queue that has left the engine and not reached its point
of coherence (R276, R279, R284): the access that it belongs to, the queues that are bound to release it, the issuing
one first, the queues that have seen it, whether it is of an unordered COPY (R278), the object, the bytes and the
mark. -/
structure PendWrite where
  acc : Nat
  owners : List Nat
  seen : List Nat
  loose : Bool
  part : Nat
  slot : Nat
  off : Nat
  data : List Byte
  mark : Bool
  deriving DecidableEq, Repr

/-- A write that a queue made after a release, which carries the release to a reader (R289): the object it went to,
none for shared memory, the bytes, the access, and the accesses that the queue's releases before it cover. -/
structure FlagWrite where
  obj : Option (Nat × Nat)
  off : Nat
  len : Nat
  acc : Nat
  covers : List Nat
  deriving DecidableEq, Repr

/-- A line of a cluster read cache (R280): partition, handle, 256 B unit, the queue whose running command asked for
its fill (R282; none once that command has completed), its bytes and marks. -/
structure CrcLine where
  part : Nat
  handle : Word
  line : Nat
  filler : Option Nat
  data : List Byte
  poison : List Bool
  deriving DecidableEq, Repr

/-- A break comparator (R202). -/
structure Brk where
  en : Bool
  tagKind : Bool
  value : Nat
  mask : Nat
  deriving DecidableEq, Repr

/-- The states of a control core (R207). -/
inductive CoreState where
  | idle
  | issuing
  | stalled
  | waiting
  | broken
  | ending
  | saving
  | outOfService
  deriving DecidableEq, Repr

/-- A cluster: its control core, its 24 engine queues, its shared memory, read cache, outbound port and LOCAL
semaphores (R14, R175 to R207, R280). `accNext` numbers its accesses, `released` keeps for each queue the accesses that
its releases cover, `flags` the writes that carry them, `learnt` for each queue those that it has read of and not yet
acquired (R289). -/
structure Cluster where
  state : CoreState
  stallQ : Nat
  job : Option Nat
  stream : Nat
  pos : Nat
  calls : List CallFrame
  loops : List LoopFrame
  count : Nat
  rootTag : Nat
  pushSeq : Nat
  queues : Tbl (List QEntry)
  shm : Store
  hwm : Nat
  lines : List CrcLine
  out : List PendWrite
  accNext : Nat
  released : Tbl (List Nat)
  flags : List FlagWrite
  learnt : Tbl (List Nat)
  sems : Tbl Sem
  brk0 : Brk
  brk1 : Brk
  stepOver : Nat
  epochs : List Nat
  preempt : Bool
  cheap : Option Cmd
  forced : Bool
  ended : Bool
  pushDone : Nat
  deriving DecidableEq, Repr

/-- The number m × 2^e. -/
structure Dy where
  m : Int
  e : Int
  deriving DecidableEq, Repr

/-- A sidecar record (R40): COUNT and its entries (value, index). -/
structure Sidecar where
  count : Nat
  entries : List (Nat × Nat)
  deriving DecidableEq, Repr

/-- A matrix operand in tile memory (R163): format, codes, row pitch, scales and sidecars when present, region scale,
codebook, whether it lies in tiles, the length of K. -/
structure MatOp where
  fmt : Nat
  codes : Nat
  pitch : Nat
  scl : Option Nat
  side : Option Nat
  region : Nat
  book : Word
  tiled : Bool
  k : Nat
  deriving DecidableEq, Repr

/-- A product (R158, R163): its operands, C, its pitch, M, N, the block length, ACC. -/
structure Product where
  a : MatOp
  b : MatOp
  c : Nat
  cPitch : Nat
  m : Nat
  n : Nat
  kblk : Nat
  acc : Bool
  deriving DecidableEq, Repr

/-- A block of B in stationary registers (R150, R151): for each output column its codes in the order of K, and the scales
and sidecars that travel with them. A position that is not listed is a cell set to zero. -/
structure StatBlock where
  codes : List (List Nat)
  scales : List (List Byte)
  sides : List (List Sidecar)
  deriving DecidableEq, Repr

/-- An exact accumulator (R44, R154): its sum, none once a special value has entered it, and whether a sidecar with COUNT
above 4 has. -/
structure Acc where
  sum : Option Dy
  bad : Bool
  deriving DecidableEq, Repr

/-- A product command under way (R157, R159): its problems, each with its region of the array, KC, whether they are
packed, the number of its next pass. -/
structure ProductRun where
  problems : List (Nat × Product)
  kc : Nat
  packed : Bool
  next : Nat
  deriving DecidableEq, Repr

/-- The matrix array of a tile (R150 to R154): both stationary registers keyed by region, region 0 for a product that is
not packed, the two halves of the accumulation buffer keyed by region, in rows and columns of the pass, the half that the
next block uses, and the product command under way. -/
structure MatArray where
  active : Tbl StatBlock
  background : Tbl StatBlock
  half0 : Tbl (List (List Acc))
  half1 : Tbl (List (List Acc))
  half : Nat
  run : Option ProductRun
  deriving DecidableEq, Repr

/-- A tile (R160 to R170): its memory, its vector registers keyed by register × 256 + lane, and its matrix array. The
state, epoch and identity lie in its registers. -/
structure Tile where
  mem : Store
  vregs : Tbl Word
  arr : MatArray
  deriving DecidableEq, Repr

/-- What a save area holds of one stream (R171, R317 to R320): the control state as the cluster had it, the regions,
region 62, vector registers and array of its tiles, and the counters of the cluster and its tiles. -/
structure SaveArea where
  cluster : Nat
  ctl : Cluster
  tiles : Tbl Tile
  regs : Tbl Word
  deriving DecidableEq, Repr

/-- The states of a job (R315, R319). -/
inductive JobState where
  | ready
  | running
  | saving
  | saved
  | ending
  deriving DecidableEq, Repr

/-- A job (R174, R312 to R323, R384, R385). `clusters` lists the cluster of each stream, `save` is keyed by
stream, `brks` holds the comparators set before a dispatch, keyed by stream × 2 + comparator. -/
structure Job where
  bundle : Nat
  part : Nat
  fn : Nat
  queue : Nat
  ring : Nat
  tag1 : Word
  tag2 : Word
  recAddr : Nat
  desc : List Word
  cls : Nat
  state : JobState
  clusters : List Nat
  since : Nat
  ran : Nat
  numSums : List Nat
  ns : List Nat
  fail : Option (Nat × Nat × Nat × Nat)
  sems : Tbl Sem
  save : Tbl SaveArea
  heldLocal : List (Nat × Nat × Nat)
  boundAt : Option Nat
  brks : Tbl Brk
  inherit : Option (Nat × Nat)
  wanted : Bool
  step : Option (Nat × Nat)
  silent : Bool
  deriving DecidableEq, Repr

/-- A line of a memory-side cache (R97 to R102). Its data and marks are those of the point of coherence, which the
object's store holds, so the line holds what else the rules act on: partition, object, unit, the stack behind it,
KEEP, the use count with the DROP_USES recorded, whether it holds writes, and the sectors that carry a mark in the
stack and none in the line (R102). Lines run from the most to the least recently used. -/
structure MscLine where
  part : Nat
  handle : Word
  line : Nat
  stack : Nat
  under : List Nat
  keep : Bool
  uses : Option (Nat × Nat)
  dirty : Bool
  deriving DecidableEq, Repr

/-! ### Firn units -/

/-- Who queued a Firn command: a cluster with its job, the count, TAG and ENGINE that a failure reports (R181), and
whether a routine pushed it (R187), or the host (R121). -/
inductive FirnSrc where
  | cluster (c job count tag engine : Nat) (routine : Bool)
  | host
  deriving DecidableEq, Repr

/-- An entry of a Firn unit's queue: a 32-byte command (R120), or a HOLD broadcast with its address, data
and marks (R125). -/
inductive FirnEntry where
  | cmd (src : FirnSrc) (words : Cmd)
  | hold (src : FirnSrc) (epoch addr : Nat) (data : List Byte) (poison : List Bool)
  deriving DecidableEq, Repr

/-- An open hardware loop of a micro-program (R135). -/
structure FirnLoop where
  first : Nat
  last : Nat
  total : Nat
  iter : Nat
  deriving DecidableEq, Repr

/-- A transfer that waits for its partner (R142, R144): link, whether it sends, set, address, length. -/
structure Rendezvous where
  bus : Bool
  dirOrPeer : Nat
  send : Bool
  kind : Nat
  acc : Bool
  addr : Nat
  len : Nat
  deriving DecidableEq, Repr

/-- A row statistic: M and L (R117, R132). -/
structure RowStat where
  m : Word
  l : Word
  deriving DecidableEq, Repr

/-- A 32 B unit readied by a ROW or waiting in the write queue: page, byte offset, bytes and mark. -/
structure BankUnit where
  page : Nat
  off : Nat
  data : List Byte
  poison : Bool
  deriving DecidableEq, Repr

/-- A Firn unit (R117, R119 to R148). STATE, EPOCH and the counters lie in its registers. `regs` are s0 to
s15, `hold` and `scale` the buffers, `acc` the two sets keyed by set × 1,024 + element, `streamed` the units that the
running command has streamed (R137), `writeQ` and `ownQ` the write queue's entries of earlier commands and of the
running one. -/
structure FirnUnit where
  queue : List FirnEntry
  running : Option FirnEntry
  pc : Nat
  base : Nat
  plist : List Word
  regs : Tbl Word
  hold : Store
  scale : Store
  acc : Tbl Word
  stats : Tbl RowStat
  loops : List FirnLoop
  stream : List BankUnit
  streamed : Nat
  writeQ : List BankUnit
  ownQ : List BankUnit
  wait : Option Rendezvous
  parked : Bool
  began : Nat
  refDebt : Nat
  act : Nat
  deriving DecidableEq, Repr

/-! ### Snowpack, serving and sampling -/

/-- A KV class (R209): heads, head dimension, format (1 for E4M3), tokens of a page, layers. -/
structure KvClass where
  heads : Nat
  dim : Nat
  fmt : Nat
  tokens : Nat
  layers : Nat
  deriving DecidableEq, Repr

/-- Where a page lies (R213, R214, R235): Firn unit and page of its bank group, a capacity stack and page of it
(131,072 to a channel group), a segment of the host arena, or the far arena of a node. -/
inductive PageLoc where
  | compute (unit page : Nat)
  | capacity (stack page : Nat)
  | host (seg idx : Nat)
  | far (node idx : Nat)
  deriving DecidableEq, Repr

/-- A copy of a page to or from a far arena (R236, R367): its number, the 256 B units requested and answered so far, what
READs have brought, the status that ended it. -/
structure FarCopy where
  id : Nat
  next : Nat
  done : Nat
  got : Store
  failed : Option Nat
  deriving DecidableEq, Repr

/-- A Snowpack page (R210, R211, R215, R226): class, layer, first position, fill, node hash, reference count,
place, the destination of a copy that has not switched, the requests of that copy when it crosses Esker, its 64 KiB (marks
alone while they lie on a peer), whether it is a RESULT or list page of a step, whether it is being zero-filled. -/
structure Page where
  cls : Nat
  layer : Nat
  firstPos : Nat
  fill : Nat
  hash : Nat
  refs : Nat
  loc : PageLoc
  dest : Option PageLoc
  far : Option FarCopy
  data : Store
  owner : Nat
  zeroing : Bool
  deriving DecidableEq, Repr

/-- A sequence (R213). One that is `dying` goes when the step that carries it ends (R396). `pages` lists the page IDs of each layer in position order, `append` the slots that the
current step has reserved as (layer, page). -/
structure Seq where
  gen : Nat
  owner : Nat
  cls : Nat
  ns : Option Nat
  kvTag : Word
  publish : Bool
  len : Nat
  pages : Tbl (List Nat)
  tokens : List Word
  damaged : Option Nat
  lost : Bool
  pendingToken : Option Word
  lastStep : Nat
  lastClass : Nat
  inStep : Bool
  target : Option Nat
  reply : Option (Chan × Word)
  dying : Bool
  deriving DecidableEq, Repr

/-- A node of the prefix tree (R230). -/
structure TreeNode where
  ns : Nat
  cls : Nat
  kvTag : Word
  parent : Nat
  hash : Nat
  tokens : List Word
  pages : List Nat
  matched : Nat
  deriving DecidableEq, Repr

/-- A segment of an arena (R235): its host address or node, its size, and the message that has asked for its
withdrawal, with its header. -/
structure Arena where
  far : Bool
  addr : Nat
  mib : Nat
  leaving : Option (Chan × Word)
  deriving DecidableEq, Repr

/-- The Snowpack of a partition. `counts` are the access counts of the frames that hold its pages (R110); `pressed` and
`swapping` say that free compute or capacity pages have fallen below their watermark and not risen above it since (R233). -/
structure Snow where
  classes : Tbl KvClass
  seqs : Tbl Seq
  gens : Tbl Nat
  pages : Tbl Page
  nodes : Tbl TreeNode
  nsKeys : Tbl Nat
  nsOf : Tbl Nat
  arenas : Tbl Arena
  counts : Tbl Nat
  pressed : Bool
  swapping : Bool
  deriving DecidableEq, Repr

/-- A draft candidate with its distribution q, over the tokens kept (R252, R261). -/
structure Candidate where
  depth : Nat
  k : Nat
  token : Nat
  q : List (Nat × Word)
  deriving DecidableEq, Repr

/-- The states of a request (R246, R270). An ended one keeps its slot's contents until the slot is used again. -/
inductive ReqState where
  | queued
  | active
  | paused
  | ended
  deriving DecidableEq, Repr

/-- A request (R245 to R249, R260 to R263). -/
structure Req where
  gen : Nat
  fn : Nat
  queue : Nat
  ring : Nat
  desc : List Word
  state : ReqState
  seq : Nat
  input : List Word
  emitted : Nat
  adapter : Option (Nat × Nat)
  version : Nat
  counts : List Nat
  skips : Nat
  since : Nat
  stateAt : Nat
  backoff : Nat
  rejects : Nat
  cands : List Candidate
  retried : Bool
  pausedSince : Bool
  started : Bool
  cancel : Option Nat
  rebind : Option Nat
  deriving DecidableEq, Repr

/-- A row set of a request in a step (R250 to R252). -/
structure StepRow where
  req : Nat
  cluster : Nat
  ctx : Nat
  real : Nat
  padded : Nat
  row : Nat
  depth : Nat
  last : Bool
  append : Tbl (List Nat)
  slot0 : Nat
  deriving DecidableEq, Repr

/-- What Graupel finds for a request in a step: a status that ends the step or the request, the tokens to emit,
the fresh positions accepted, the count table, candidates verified and accepted. -/
structure Verdict where
  stepEnd : Option Nat := none
  reqEnd : Option Nat := none
  toks : List Nat := []
  path : List Nat := []
  counts : List Nat := []
  tested : Nat := 0
  accepted : Nat := 0
  deriving DecidableEq, Repr

/-- The step's outcome for one row, as Graupel leaves it (R253 step 2): the verdict, the tokens that R249 lets stand, whether
the request ends with them, its backoff from here on, the candidates for the next step. -/
structure RowOut where
  row : StepRow
  v : Verdict
  toks : List Nat
  done : Bool
  backoff : Nat
  rejects : Nat
  gaveUp : Bool
  cands : List Candidate
  deriving DecidableEq, Repr

/-- What SERVE gives SNOW for one row (R218, R253 steps 3 and 4): sequence, positions reserved, those accepted, their tokens,
the class of the request. -/
structure RowCommit where
  seq : Nat
  real : Nat
  path : List Nat
  toks : List Word
  cls : Nat
  deriving DecidableEq, Repr

/-- A step of a model (R250 to R268): its job, its rows, the attempts that failed, its dispatch, the status of the
job that has ended and its engine time, what Graupel has found while SERVE is awaited, what is to be committed while SNOW is
(R253). A step without a job waits for its retry. -/
structure Step where
  job : Option Nat
  rows : List StepRow
  attempts : Nat
  began : Nat
  status : Option Nat
  ns : List Nat
  outs : Option (List RowOut)
  commits : Option (List RowCommit)
  deriving DecidableEq, Repr

/-- A loaded model (R244): bundle, class, record registers, step number, damage, the step under way. -/
structure Model where
  bundle : Nat
  cls : Nat
  regs : List Word
  fn : Nat
  stepNo : Nat
  damaged : Bool
  step : Option Step
  deriving DecidableEq, Repr

/-- A resident adapter version (R264 to R266). -/
structure Adapter where
  part : Nat
  id : Nat
  version : Nat
  rank : Nat
  shared : Bool
  model : Nat
  a : Word
  b : Word
  scale : Word
  fn : Nat
  current : Bool
  deriving DecidableEq, Repr

/-- The serving state of a partition. -/
structure Serve where
  models : Tbl Model
  lastChange : Nat
  calm : Nat
  deriving DecidableEq, Repr

/-! ### Esker links -/

/-- A packet that waits in a port's queue on a virtual channel, with the credits it needs (R356). -/
structure Queued where
  vc : Nat
  credits : Nat
  own : Bool
  packet : Packet
  deriving DecidableEq, Repr

/-- A port (R347 to R356, R369): the FSEQ it expects, the ACK its last replay followed, replays and tag
failures in succession, the packets that wait for credits, the key slots in use, the time of the last flit
accepted, whether it waits for RETRAIN_MS, and LANE_ERR_MAX and ENC_REQ as STARTING read them (R427). STATE, causes, lanes and counters lie in its registers. -/
structure Port where
  rxSeq : Nat
  acked : Nat
  replays : Nat
  tagFails : Nat
  queue : List Queued
  sendSlot : Nat
  recvSlot : Nat
  lastRx : Nat
  retrain : Bool
  laneMax : Nat
  encReq : Bool
  deriving DecidableEq, Repr

/-- An outstanding remote request, keyed by its tag (R362 to R364): the job, cluster and queue that issued it
with the count, TAG and ENGINE that a failure reports, the port and its epoch, the type and destination, its
class, whether and when it was sent, the command whose data a response brings, the bytes of the transfer
that it covers, its number in the order of issue, and for a page move (R236) the partition, page and copy: such a request
belongs to no job, and its unit is `off`. -/
structure Outstanding where
  job : Nat
  cluster : Nat
  queue : Nat
  count : Nat
  tag : Nat
  engine : Nat
  port : Nat
  epoch : Nat
  ptype : Nat
  dst : Nat
  ordered : Bool
  sent : Option Nat
  sink : Option Cmd
  off : Nat
  len : Nat
  no : Nat
  mover : Option (Nat × Nat × Nat)
  deriving DecidableEq, Repr

/-- A module group (R365). -/
structure EskGroup where
  domain : Nat
  nodes : List Nat
  deriving DecidableEq, Repr

/-- A far arena granted here (R367): the requester, the domain, the partition whose frames it takes and the
slot of the hidden object that holds them. -/
structure FarGrant where
  node : Nat
  domain : Nat
  part : Nat
  slot : Nat
  deriving DecidableEq, Repr

/-- The Esker state of the module: ports, routes (as the fabric manager wrote them), outstanding requests,
groups, grants, the nodes reported down, while LINK is away the ports that it last saw RUNNING (R410), and the requests
issued so far. -/
structure Esker where
  ports : Tbl Port
  routes : Tbl Word
  out : Tbl Outstanding
  groups : Tbl EskGroup
  grants : List FarGrant
  down : List Nat
  seen : Option Nat
  issued : Nat
  deriving DecidableEq, Repr

/-! ### The whole machine -/

/-- The block: everything but the queue of commands. `beatAt` is the time of the last heartbeat, `lostAt` that of the last
driver loss, `lossUntold` the
cause of a loss that SCHED has not recorded yet and `vOwed` by how much each client's V lags while SCHED is away
(R410). -/
structure Block where
  freeCtr : Nat
  regs : Tbl Word
  latches : Latches
  fns : Tbl Fn
  mbx : Tbl Mbx
  env : Env
  led : Tbl Ledger
  ice : IceCore
  fw : Firmware
  trust : Trust
  start : Start
  clk : Clocks
  pwr : Power
  err : Errors
  parts : Tbl Part
  objs : Tbl Objects
  bundles : Tbl Bundle
  jobs : Tbl Job
  nextJob : Nat
  sems : Tbl Sem
  clusters : Tbl Cluster
  tiles : Tbl Tile
  msc : Tbl (List MscLine)
  firn : Tbl FirnUnit
  snow : Tbl Snow
  serve : Tbl Serve
  reqs : Tbl Req
  reqGens : Tbl Nat
  adapters : Tbl Adapter
  esk : Esker
  beatAt : Nat
  lostAt : Nat
  lossUntold : Option Nat
  vOwed : Tbl Nat
  deriving DecidableEq, Repr

/-- The machine: the block, and the commands that wait, first in, first out. -/
structure State where
  blk : Block
  pending : List Instr
  deriving DecidableEq, Repr

/-- The reasons a step can fault. -/
inductive Fault where
  /-- Never raised: the manual gives every command of the table an effect. Safe. -/
  | none
  deriving DecidableEq, Repr

/-- The reasons a step can refuse. -/
inductive Refusal where
  /-- A command that has no meaning yet, by its mnemonic. Safe: no claim about the hardware follows. -/
  | notModelled (mnemonic : String)
  deriving DecidableEq, Repr

/-- A fuse bit that is not blown. -/
def LcBit.clear : LcBit := { a := false, b := false, c := false }

/-- An empty memory. -/
def Store.empty : Store := { cells := [], poison := [] }

/-- The fuses of a module in MAKER with nothing programmed but its ROM. DESIGN CHOICE, log entry 5. -/
def Fuses.reset : Fuses :=
  { develop := LcBit.clear, field := LcBit.clear, ret := LcBit.clear, scrap := LcBit.clear,
    vendorDigest := [], idSeed := [], ownerDigest := [], ownerValid := false,
    floors := [0, 0, 0, 0, 0, 0, 0, 0], romVersion := 0 }

/-- The state right after reset: every register at its reset value, the module before VIN is present, no
command waiting. -/
def State.reset : State :=
  { pending := [],
    blk :=
      { freeCtr := 0, regs := [],
        latches := { lo := [], hi := [], ldg := [] },
        fns := [], mbx := [],
        env := { hostMem := [], hostUnmapped := [], flash := [], sfdpOk := true, badTiles := [], cacheErrs := [], dramErrs := [], msi := [], sent := [], pldm := [] },
        led := [],
        ice := { perm := [], ring := [], nextSlot := 0, queue := [], health := [], healthLost := 0, lost := 0,
                 budget := 1000, last := 0, cleared := 0, clearing := none, scanned := false, hours := 0,
                 pcycles := 0, secNs := 0, hold := false, latches := [] },
        fw := { loaded := false, cores := [], library := none, prior := [] },
        trust := { fuses := Fuses.reset, seed := [], nonces := [], reports := [], reportCount := 0, updates := [],
                   measures := [], keys := [] },
        start := { powered := false, input := false, perst := true, settle := 0, pllOn := false, linkUp := false,
                   stacksDone := false, keepReq := false, refStopped := false, mustDiscard := false, oldBreach := false,
                   recordBytes := [], saved := [] },
        clk := { coastTb := false, coastStack := false, coastEsk := false, coastPcie := false },
        pwr := { windows := [], inputs := [], grants := [], spent := [], waited := [], early := [],
                 govTarget := [750, 750, 750, 750], thmTarget := [850, 850, 850, 850], firnUse := [],
                 issue := [64, 64, 64, 64], cut := false, uJ := 0, ratioFails := [], atTrip := [],
                 vcoreM := 750, pwrGood := false, outLimit := 16 },
        err := { stk := [], refetches := [], tileCause := [], patrol := 0, met := [] },
        parts := [], objs := [], bundles := [], jobs := [], nextJob := 1, sems := [], clusters := [],
        tiles := [], msc := [], firn := [], snow := [], serve := [], reqs := [], reqGens := [],
        adapters := [],
        esk := { ports := [], routes := [], out := [], groups := [], grants := [], down := [], seen := none, issued := 0 },
        beatAt := 0, lostAt := 0, lossUntold := none, vOwed := [] } }

end Sys2Proof.Machine
end

