-- ==== Sys2Proof/Machine/Regs.lean ====
section
/-! DEFINITION. The register map: the address of every register, its access code, its reset value and which
of its bits a warm start holds (R4 to R10, R378, R379, and the register tables of each chapter). Addresses
are offsets of BAR0. The BAR2 page of function f stands at 0x1_0000_0000 + f × 0x1_0000, and the secure pair
S1, which has no bus address, at 0x3_0000_0000. -/

namespace Sys2Proof.Machine

/-! ### Addresses -/

/-- The BAR2 page of a function (R379). -/
def fnPage (f : Nat) : Nat := 0x100000000 + f * 0x10000
/-- The place of secure pair S1, carried on the sideband (R395). -/
def s1Base : Nat := 0x300000000
/-- SQ_HEAD_q of a function (R379). -/
def SQ_HEAD (f q : Nat) : Nat := fnPage f + 0x100 + 4 * q
/-- RING_HEAD_r of a function (R379). -/
def RING_HEAD (f r : Nat) : Nat := fnPage f + 0x200 + 4 * r
/-- A counter of a function's page, 0xF000 to 0xF010 (R399). -/
def HIF_CNT (f k : Nat) : Nat := fnPage f + 0xF000 + 4 * k

def MOR_HOST_LINK : Nat := 0x00001000
def MOR_START : Nat := 0x00000100
def MOR_RESET_CAUSE : Nat := 0x00000104
def MOR_RESET : Nat := 0x00000108
def MOR_WARM_CFG : Nat := 0x0000010C
def MOR_FLASH : Nat := 0x00000110
def MOR_CNT_FN_BUSY : Nat := 0x00000114
def MOR_CNT_BADRESET : Nat := 0x00000118
def MOR_START_MS : Nat := 0x0000011C
def MOR_LC : Nat := 0x00000200
def MOR_LC_FLOOR (i : Nat) : Nat := 0x00000210 + 4 * i
def MOR_DEVICE_ID (k : Nat) : Nat := 0x00000240 + 4 * k
def MOR_ROM_VERSION : Nat := 0x00000260

def CLK_STATUS : Nat := 0x00100000
def CLK_SEL : Nat := 0x00100004
def CLK_ALT_CFG : Nat := 0x00100008
def CLK_SPREAD : Nat := 0x0010000C
def CLK_SPREAD_ACT : Nat := 0x00100010
def CLK_REF_FREQ : Nat := 0x00100014
def CLK_TB_LO : Nat := 0x00100020
def CLK_TB_ADJ : Nat := 0x00100028
def CLK_CNT_LOST : Nat := 0x00100030
def CLK_CNT_REFUSED : Nat := 0x00100034
def CLK_CNT_SWITCH : Nat := 0x00100038

def PWR_IN : Nat := 0x00200000
def PWR_AVG : Nat := 0x00200004
def PWR_STATUS : Nat := 0x00200008
def PWR_LIMIT : Nat := 0x0020000C
def PWR_GOV : Nat := 0x00200010
def PWR_VCORE (d : Nat) : Nat := 0x00200020 + 4 * d
def PWR_CNT_EXC : Nat := 0x00200040
def PWR_ENERGY_LO : Nat := 0x00200048
def PWR_STARVED (u : Nat) : Nat := 0x00200100 + 4 * u
def THM_STATE : Nat := 0x00208000
def THM_CNT_WARN : Nat := 0x00208010
def THM_THR_US (z : Nat) : Nat := 0x00208020 + 4 * z
def THM_SENSOR (n : Nat) : Nat := 0x00208100 + 4 * n

/-- The secure page: S0 host-to-device, device-to-host 0x100 above (R395). -/
def s0Base : Nat := 0x00308000

def ICE_FIRST : Nat := 0x00400000
def ICE_LAST : Nat := 0x00400004
def ICE_CLEARED : Nat := 0x00400008
def ICE_STATUS : Nat := 0x0040000C
def ICE_SEL : Nat := 0x00400010
def ICE_REC_STATE : Nat := 0x00400014
def ICE_CLEAR : Nat := 0x00400018
def ICE_DROPPED : Nat := 0x0040001C
def ICE_HOURS : Nat := 0x00400020
def ICE_PCYCLES : Nat := 0x00400024
def ICE_PROG_FAIL : Nat := 0x00400028
def ICE_REC (k : Nat) : Nat := 0x00400040 + 4 * k

def LDG_STATUS : Nat := 0x00500000
def LDG_AUDIT_CFG : Nat := 0x00500004
def LDG_AUDITS : Nat := 0x00500008
def LDG (n : Nat) : Nat := 0x00501000 + 16 * n

def RIME_STATE (n : Nat) : Nat := 0x00600000 + 0x40 * n
def RIME_VERSION (n : Nat) : Nat := 0x00600004 + 0x40 * n
def RIME_SCHEMA (n : Nat) : Nat := 0x00600008 + 0x40 * n
def RIME_RESTARTS (n : Nat) : Nat := 0x0060000C + 0x40 * n
def RIME_FAULT_ADDR (n : Nat) : Nat := 0x00600010 + 0x40 * n
def RIME_CFG : Nat := 0x00601000
def RIME_KICK : Nat := 0x00601004
def RIME_SET_ID_LO : Nat := 0x00601008
def RIME_ROOT_CAUSE : Nat := 0x00601010

def ERR_CFG : Nat := 0x00700000
def ERR_REFETCH : Nat := 0x00700004
def ERR_PATROL : Nat := 0x00700008
def ERR_LAST_UE_KIND : Nat := 0x00700010
def ERR_LAST_UE_HANDLE : Nat := 0x00700014
def ERR_LAST_UE_OFF_LO : Nat := 0x00700018
def ERR_STK_CE (n : Nat) : Nat := 0x00700100 + 4 * n
def ERR_STK_UE (n : Nat) : Nat := 0x00700180 + 4 * n
def ERR_STK_ROWS (n : Nat) : Nat := 0x00700200 + 4 * n
def ERR_SRAM_CE (d : Nat) : Nat := 0x00700300 + 4 * d
def ERR_SRAM_UE (d : Nat) : Nat := 0x00700310 + 4 * d
def ERR_MOR_CE : Nat := 0x00700320
def ERR_MOR_UE : Nat := 0x00700324
def ERR_CNT_CONSUMED : Nat := 0x00700330
def ERR_CNT_EP_SENT : Nat := 0x00700334
def ERR_CNT_REFETCH : Nat := 0x00700338
def ERR_CNT_PATROL_UE : Nat := 0x0070033C

/-- A register of Esker port p (R371). -/
def ESK (p off : Nat) : Nat := 0x00800000 + p * 0x80000 + off
def ESK_STATE (p : Nat) : Nat := ESK p 0
def ESK_CFG (p : Nat) : Nat := ESK p 4
def ESK_LANE_CFG (p : Nat) : Nat := ESK p 8
def ESK_TS_ASYM (p : Nat) : Nat := ESK p 0xC
def ESK_VC_BUF (p v : Nat) : Nat := ESK p (0x10 + 4 * v)
def ESK_EPOCH (p : Nat) : Nat := ESK p 0x30
def ESK_LANE (p n : Nat) : Nat := ESK p (0x100 + 4 * n)
def ESK_CNT_TX_LO (p : Nat) : Nat := ESK p 0x200
def ESK_CNT_RX_LO (p : Nat) : Nat := ESK p 0x208
def ESK_CNT_RETRY (p : Nat) : Nat := ESK p 0x210
def ESK_CNT_GCM_FAIL (p : Nat) : Nat := ESK p 0x214
def ESK_CNT_DOWN (p : Nat) : Nat := ESK p 0x218
def ESK_CNT_DISCARD (p : Nat) : Nat := ESK p 0x21C
def ESK_CNT_BUSY (p : Nat) : Nat := ESK p 0x220
def ESK_NODE : Nat := 0x00840000
def ESK_FABRIC : Nat := 0x00840004
def ESK_TIME : Nat := 0x00840008
def ESK_ACK : Nat := 0x0084000C
def ESK_OUTSTANDING : Nat := 0x00840010
def ESK_ALLOT (p : Nat) : Nat := 0x00840100 + 4 * p
def ESK_DOMAIN (p : Nat) : Nat := 0x00840180 + 4 * p

/-- A register of Serac die d (R25). -/
def SRC (d off : Nat) : Nat := 0x01000000 + d * 0x400000 + off
def SRC_OPPOINT (d : Nat) : Nat := SRC d 0x100
def SRC_MSC_PCFG (d p : Nat) : Nat := SRC d (0x200 + 4 * p)
def SRC_MSC_HITS_LO (d : Nat) : Nat := SRC d 0x280
def SRC_MSC_MISSES_LO (d : Nat) : Nat := SRC d 0x288
def SRC_MSC_DROPS (d : Nat) : Nat := SRC d 0x290
def SRC_SPARE (d s : Nat) : Nat := SRC d (0x300 + 4 * s)
def SRC_TILE_RETIRED_LO (d : Nat) : Nat := SRC d 0x310
def SRC_CLUSTER_OOS (d : Nat) : Nat := SRC d 0x318

/-- A register of cluster c = die × 8 + cluster (R166). -/
def CCC (c off : Nat) : Nat := SRC (c / 8) (0x100000 + (c % 8) * 0x40000 + off)
def CCC_SCOPE_EVT (c : Nat) : Nat := CCC c 0x40
def CCC_SCOPE_LAST (c : Nat) : Nat := CCC c 0x44
def CCC_STALL_NS (c : Nat) : Nat := CCC c 0x48
def CCC_CHEAP_SKIPPED (c : Nat) : Nat := CCC c 0x4C
def CRC_HITS_LO (c : Nat) : Nat := CCC c 0x100
def CRC_MISSES_LO (c : Nat) : Nat := CCC c 0x108
def CRC_INVALS (c : Nat) : Nat := CCC c 0x110
def CRC_DROPPED_FILLS (c : Nat) : Nat := CCC c 0x114

/-- A register of the tile with the tile ID t of R10 (R166). -/
def FLOE (t off : Nat) : Nat := CCC (t / 8) (0x8000 + (t % 8) * 0x4000 + off)
def FLOE_ID (t : Nat) : Nat := FLOE t 0
def FLOE_EPOCH (t : Nat) : Nat := FLOE t 4
def FLOE_STATE (t : Nat) : Nat := FLOE t 8
def FLOE_CNT_ROWW_LO (t : Nat) : Nat := FLOE t 0x20
def FLOE_CNT_SWAP (t : Nat) : Nat := FLOE t 0x28
def FLOE_LOAD_WAIT_NS (t : Nat) : Nat := FLOE t 0x2C
def FLOE_DRAIN_WAIT_NS (t : Nat) : Nat := FLOE t 0x30
def FLOE_BANK_WAIT_NS (t : Nat) : Nat := FLOE t 0x34
def FLOE_CNT_MISALIGN (t : Nat) : Nat := FLOE t 0x38
def FLOE_CNT_POISON (t : Nat) : Nat := FLOE t 0x3C
def NUM_CTRL (t : Nat) : Nat := FLOE t 0x800
def NUM_LAST (t : Nat) : Nat := FLOE t 0x804
def NUM_LAST_CLIPPED (t : Nat) : Nat := FLOE t 0x808
def NUM_LAST_ELEMS (t : Nat) : Nat := FLOE t 0x80C
/-- NUM_CNT_OVER, ESC, DENIED, POISON, BADCODE, ESC_CLIP for k from 0 to 5 (R57). -/
def NUM_CNT (t k : Nat) : Nat := FLOE t (0x810 + 4 * k)
def NUM_RNG_KEY_LO (t : Nat) : Nat := FLOE t 0x828

/-- A register of stack controller n (R114, R141, R430). -/
def STK (n off : Nat) : Nat := 0x02000000 + n * 0x10000 + off
def STK_ID (n : Nat) : Nat := STK n 0
def STK_STATE (n : Nat) : Nat := STK n 4
def STK_TEMP (n : Nat) : Nat := STK n 8
def STK_THR_CTRL (n : Nat) : Nat := STK n 0xC
def STK_ARB (n : Nat) : Nat := STK n 0x10
/-- STK_PART_CG_A for groups 0 to 3, _B for 4 to 7. -/
def STK_PART_CG (n g : Nat) : Nat := STK n (0x14 + 4 * (g / 4))
def STK_RD_BYTES_LO (n : Nat) : Nat := STK n 0x20
def STK_WR_BYTES_LO (n : Nat) : Nat := STK n 0x28
def STK_NARROW_LO (n : Nat) : Nat := STK n 0x30
def STK_ADD_LO (n : Nat) : Nat := STK n 0x38
def STK_THR_US (n : Nat) : Nat := STK n 0x40
def STK_MIG_IN (n : Nat) : Nat := STK n 0x44
def STK_MIG_OUT (n : Nat) : Nat := STK n 0x48
def STK_ADD_OVF (n : Nat) : Nat := STK n 0x4C
def STK_ADD_POISON (n : Nat) : Nat := STK n 0x50
def STK_FIRN_SET (n : Nat) : Nat := STK n 0x60
def STK_FIRN_ACT (n : Nat) : Nat := STK n 0x64
def STK_FIRN_RATE (n : Nat) : Nat := STK n 0x68
def STK_FIRN_BOUND (n : Nat) : Nat := STK n 0x6C
/-- The register that holds the epoch of group g, in [15:0] for an even g and [31:16] for an odd one. -/
def STK_CG_EPOCH (n g : Nat) : Nat := STK n (0x70 + 4 * (g / 2))

/-- A register of Firn unit u (R119). -/
def FIRN (u off : Nat) : Nat := 0x04000000 + u * 0x1000 + off
def FIRN_ID (u : Nat) : Nat := FIRN u 0
def FIRN_EPOCH (u : Nat) : Nat := FIRN u 4
def FIRN_STATE (u : Nat) : Nat := FIRN u 8
def FIRN_RATE (u : Nat) : Nat := FIRN u 0xC
def FIRN_CUR_SEQ (u : Nat) : Nat := FIRN u 0x10
def FIRN_HOST_CMD (u n : Nat) : Nat := FIRN u (0x40 + 4 * n)
def FIRN_HOST_GO (u : Nat) : Nat := FIRN u 0x60
def FIRN_HOST_STATUS (u : Nat) : Nat := FIRN u 0x64
def FIRN_HOST_LAST_SEQ (u : Nat) : Nat := FIRN u 0x68
def FIRN_HOST_FSEQ (u : Nat) : Nat := FIRN u 0x6C
def FIRN_FSEQ (u c : Nat) : Nat := FIRN u (0x100 + 4 * c)
def FIRN_CNT_CMDS (u : Nat) : Nat := FIRN u 0x200
def FIRN_CNT_STEPS_LO (u : Nat) : Nat := FIRN u 0x204
def FIRN_CNT_PARKS (u : Nat) : Nat := FIRN u 0x20C
def FIRN_CNT_EXT (u : Nat) : Nat := FIRN u 0x210
def FIRN_CNT_STALE (u : Nat) : Nat := FIRN u 0x214
def FIRN_CNT_TIMEOUT (u : Nat) : Nat := FIRN u 0x218
def FIRN_CNT_BADCODE (u : Nat) : Nat := FIRN u 0x21C

def SCH_GCFG : Nat := 0x06000000
def SCH_SLICE : Nat := 0x06000004
def SCH_HB : Nat := 0x06000010
def SCH_HB_CFG : Nat := 0x06000014
def SCH_DRV : Nat := 0x06000018
/-- A register of partition p's scheduler block (R332). -/
def SCH_P (p off : Nat) : Nat := 0x06010000 + p * 0x100 + off
def SCH_P_CFG (p : Nat) : Nat := SCH_P p 0
def SCH_P_STATE (p : Nat) : Nat := SCH_P p 4
def SCH_P_CHEAP (p : Nat) : Nat := SCH_P p 0x10
def SCH_P_FORCED (p : Nat) : Nat := SCH_P p 0x14
def SCH_P_HOLD_TO (p : Nat) : Nat := SCH_P p 0x18
def SCH_P_INHERIT_NS (p : Nat) : Nat := SCH_P p 0x1C
/-- A register of function f's client block (R333). -/
def SCH_C (f off : Nat) : Nat := 0x06020000 + f * 0x100 + off
def SCH_C_CFG (f : Nat) : Nat := SCH_C f 0
/-- A register of partition p's Snowpack block (R239). -/
def SNW (p off : Nat) : Nat := 0x06200000 + p * 0x100 + off
def SNW_GCFG : Nat := 0x06202000
def SNW_TREE_FREE : Nat := 0x06202004
/-- A register of partition p's serving block (R271). -/
def SRV (p off : Nat) : Nat := 0x06400000 + p * 0x100 + off
def GRP_CNT_ROWS_LO : Nat := 0x06600000
def GRP_CNT_NAN : Nat := 0x06600008
def GRP_CNT_NOALLOW : Nat := 0x0660000C
def GRP_CNT_TBL_FULL : Nat := 0x06600010

/-! ### The map -/

/-- A row of the register map: the base, the (count, stride) of each dimension from the widest down, the bits
that a write sets, the bits that a 1 clears, the reset value, the bits that a warm start holds. -/
structure RegRow where
  base : Nat
  dims : List (Nat × Nat)
  rw : Nat
  w1c : Nat
  reset : Nat
  held : Nat
  deriving DecidableEq, Repr

/-- A register that software only reads, and that every start resets to `reset`. -/
def roRow (base : Nat) (dims : List (Nat × Nat)) (reset : Nat := 0) : RegRow := ⟨base, dims, 0, 0, reset, 0⟩
/-- A read-only register that only a cold start clears. -/
def coldRow (base : Nat) (dims : List (Nat × Nat)) (reset : Nat := 0) : RegRow :=
  ⟨base, dims, 0, 0, reset, 0xFFFFFFFF⟩
/-- A register with writable bits. -/
def rwRow (base : Nat) (dims : List (Nat × Nat)) (rw reset : Nat) : RegRow := ⟨base, dims, rw, 0, reset, 0⟩

/-- Clusters of all dies. -/
def dimC : List (Nat × Nat) := [(4, 0x400000), (8, 0x40000)]
/-- Tiles of all dies. -/
def dimT : List (Nat × Nat) := [(4, 0x400000), (8, 0x40000), (8, 0x4000)]

/-- The global, clock, power, thermal, mailbox and ice-core blocks (R399, R431, R447, R461, R499, R513). -/
def rowsSystem : List RegRow :=
  [ roRow MOR_START [], roRow MOR_RESET_CAUSE [], roRow MOR_RESET [],
    ⟨MOR_WARM_CFG, [], 1, 0, 0, 1⟩, roRow MOR_FLASH [], roRow MOR_CNT_FN_BUSY [],
    roRow MOR_CNT_BADRESET [], roRow MOR_START_MS [], roRow MOR_LC [], roRow (MOR_LC_FLOOR 0) [(8, 4)],
    roRow (MOR_DEVICE_ID 0) [(8, 4)], roRow MOR_ROM_VERSION [], roRow MOR_HOST_LINK [],
    ⟨CLK_STATUS, [], 0, 0x34, 0, 0⟩, rwRow CLK_SEL [] 7 0, ⟨CLK_ALT_CFG, [], 0x3F, 0, 0, 0x3F⟩,
    rwRow CLK_SPREAD [] 0x1FFFFF 0x00050140, roRow CLK_SPREAD_ACT [], roRow CLK_REF_FREQ [],
    coldRow CLK_TB_LO [(2, 4)], roRow CLK_TB_ADJ [], roRow CLK_CNT_LOST [], roRow CLK_CNT_REFUSED [],
    roRow CLK_CNT_SWITCH [],
    roRow PWR_IN [], roRow PWR_AVG [], ⟨PWR_STATUS, [], 0, 0x100, 0, 0x13E⟩,
    rwRow PWR_LIMIT [] 0xFF0FFF 0x1E0E10, roRow PWR_GOV [], rwRow (PWR_VCORE 0) [(4, 4)] 0x3FF0000 0x3520000,
    roRow PWR_CNT_EXC [], coldRow PWR_ENERGY_LO [(2, 4)], roRow (PWR_STARVED 0) [(44, 4)],
    ⟨THM_STATE, [], 0, 0, 0, 0x3FFF0000⟩, roRow THM_CNT_WARN [], roRow (THM_THR_US 0) [(5, 4)],
    ⟨THM_SENSOR 0, [(560, 4)], 0, 0, 0x800, 0x800⟩,
    roRow ICE_FIRST [], roRow ICE_LAST [], roRow ICE_CLEARED [], roRow ICE_STATUS [],
    rwRow ICE_SEL [] 0xFFFFFFFF 0, roRow ICE_REC_STATE [], roRow ICE_CLEAR [], coldRow ICE_DROPPED [],
    roRow ICE_HOURS [], roRow ICE_PCYCLES [], coldRow ICE_PROG_FAIL [], roRow (ICE_REC 0) [(16, 4)] ]

/-- The BAR2 pages and the secure pairs (R379, R390, R395, R399). -/
def rowsMbx : List RegRow :=
  [ roRow (fnPage 0) [(64, 0x10000), (64, 4)], roRow (fnPage 0 + 0x100) [(64, 0x10000), (64, 4)],
    rwRow (fnPage 0 + 0x200) [(64, 0x10000), (64, 4)] 0xFFFF 0,
    rwRow (fnPage 0 + 0x1000) [(64, 0x10000), (4, 0x100), (16, 4)] 0xFFFFFFFF 0,
    roRow (fnPage 0 + 0x1040) [(64, 0x10000), (4, 0x100)],
    ⟨fnPage 0 + 0x1044, [(64, 0x10000), (4, 0x100)], 0, 6, 0, 0⟩,
    roRow (fnPage 0 + 0x1800) [(64, 0x10000), (4, 0x100), (16, 4)],
    roRow (fnPage 0 + 0x1844) [(64, 0x10000), (4, 0x100)],
    rwRow (fnPage 0 + 0x1848) [(64, 0x10000), (4, 0x100)] 0x107FF 0,
    roRow (fnPage 0 + 0xF000) [(64, 0x10000), (5, 4)],
    rwRow s0Base [(16, 4)] 0xFFFFFFFF 0, roRow (s0Base + 0x40) [], ⟨s0Base + 0x44, [], 0, 6, 0, 0⟩,
    roRow (s0Base + 0x100) [(16, 4)], roRow (s0Base + 0x144) [], rwRow (s0Base + 0x148) [] 0x107FF 0,
    rwRow s1Base [(16, 4)] 0xFFFFFFFF 0, roRow (s1Base + 0x40) [], ⟨s1Base + 0x44, [], 0, 6, 0, 0⟩,
    roRow (s1Base + 0x100) [(16, 4)], roRow (s1Base + 0x144) [], rwRow (s1Base + 0x148) [] 0x107FF 0 ]

/-- Ledgers, Rime control, errors (R340, R412, R479). -/
def rowsControl : List RegRow :=
  [ ⟨LDG_STATUS, [], 0, 0, 0, 0x3FF0001⟩, rwRow LDG_AUDIT_CFG [] 0xFF 0x0A, roRow LDG_AUDITS [],
    roRow (RIME_STATE 0) [(7, 0x40)], roRow (RIME_VERSION 0) [(7, 0x40)], roRow (RIME_SCHEMA 0) [(7, 0x40)],
    roRow (RIME_RESTARTS 0) [(7, 0x40)], roRow (RIME_FAULT_ADDR 0) [(7, 0x40)],
    rwRow RIME_CFG [] 0xFFF 0x30A, roRow RIME_KICK [], roRow RIME_SET_ID_LO [(2, 4)],
    coldRow RIME_ROOT_CAUSE [],
    rwRow ERR_CFG [] 0xFFFFFFFF 0x18404008, rwRow ERR_REFETCH [] 0xFFFF0000 0x03E80000,
    ⟨ERR_PATROL, [], 0, 0, 0, 0xFFFFFF00⟩, coldRow ERR_LAST_UE_KIND [(4, 4)], coldRow (ERR_STK_CE 0) [(24, 4)],
    coldRow (ERR_STK_UE 0) [(24, 4)], coldRow (ERR_STK_ROWS 0) [(24, 4)],
    coldRow (ERR_SRAM_CE 0) [(4, 4)], coldRow (ERR_SRAM_UE 0) [(4, 4)], coldRow ERR_MOR_CE [(2, 4)],
    coldRow ERR_CNT_CONSUMED [(4, 4)] ]

/-- Esker ports and the module-wide Esker registers (R371, R372, R430). -/
def rowsEsker : List RegRow :=
  [ roRow (ESK_STATE 0) [(16, 0x80000)], rwRow (ESK_CFG 0) [(16, 0x80000)] 0xFFFF03FF 0x00640188,
    rwRow (ESK_LANE_CFG 0) [(16, 0x80000)] 0xFFFF 0x1000, rwRow (ESK_TS_ASYM 0) [(16, 0x80000)] 0xFFFF 0,
    rwRow (ESK_VC_BUF 0 0) [(16, 0x80000)] 0x7FFF 5120, rwRow (ESK_VC_BUF 0 1) [(16, 0x80000)] 0x7FFF 4096,
    rwRow (ESK_VC_BUF 0 2) [(16, 0x80000)] 0x7FFF 3072, rwRow (ESK_VC_BUF 0 3) [(16, 0x80000)] 0x7FFF 3072,
    rwRow (ESK_VC_BUF 0 4) [(16, 0x80000)] 0x7FFF 256, rwRow (ESK_VC_BUF 0 5) [(16, 0x80000)] 0x7FFF 768,
    rwRow (ESK_VC_BUF 0 6) [(16, 0x80000), (2, 4)] 0x7FFF 0,
    ⟨ESK_EPOCH 0, [(16, 0x80000)], 0, 0, 1, 0xFFFF⟩, roRow (ESK_LANE 0 0) [(16, 0x80000), (9, 4)],
    coldRow (ESK_CNT_TX_LO 0) [(16, 0x80000), (9, 4)],
    coldRow ESK_NODE [], roRow ESK_FABRIC [], roRow ESK_TIME [], roRow ESK_ACK [] 0x03E8,
    roRow ESK_OUTSTANDING [], roRow (ESK_ALLOT 0) [(32, 4)], roRow (ESK_DOMAIN 0) [(32, 4)] ]

/-- Serac dies, clusters and tiles (R25, R57, R115, R166, R167, R207, R305, R318). -/
def rowsSerac : List RegRow :=
  [ roRow (SRC_OPPOINT 0) [(4, 0x400000)], roRow (SRC_MSC_PCFG 0 0) [(4, 0x400000), (32, 4)] 0x10000,
    coldRow (SRC_MSC_HITS_LO 0) [(4, 0x400000), (5, 4)], coldRow (SRC_SPARE 0 0) [(4, 0x400000), (7, 4)],
    roRow (CCC 0 0) (dimC ++ [(5, 4)]), roRow (CCC 0 0x20) (dimC ++ [(2, 0x10), (3, 4)]),
    roRow (CCC_SCOPE_EVT 0) (dimC ++ [(5, 4)]), roRow (CCC 0 0x80) (dimC ++ [(24, 4)]),
    roRow (CRC_HITS_LO 0) (dimC ++ [(6, 4)]),
    coldRow (FLOE_ID 0) dimT, ⟨FLOE_EPOCH 0, dimT, 0, 0, 1, 0xFFFF⟩, roRow (FLOE_STATE 0) dimT 1,
    coldRow (FLOE_CNT_ROWW_LO 0) (dimT ++ [(8, 4)]), roRow (NUM_CTRL 0) dimT 0x00080100,
    roRow (NUM_LAST 0) (dimT ++ [(11, 4)]) ]

/-- Stack controllers and Firn units (R114, R119, R141, R430). -/
def rowsStack : List RegRow :=
  [ coldRow (STK_ID 0) [(24, 0x10000)], ⟨STK_STATE 0, [(24, 0x10000)], 0, 0, 0, 0x10000⟩,
    ⟨STK_TEMP 0, [(24, 0x10000)], 0, 0, 0, 0x1000⟩, rwRow (STK_THR_CTRL 0) [(24, 0x10000)] 0xFF 0x48,
    rwRow (STK_ARB 0) [(24, 0x10000)] 0x3F0F 0x304,
    roRow (STK_PART_CG 0 0) [(24, 0x10000), (2, 4)] 0x3F3F3F3F,
    coldRow (STK_RD_BYTES_LO 0) [(24, 0x10000), (13, 4)],
    roRow (STK_FIRN_SET 0) [(24, 0x10000)], rwRow (STK_FIRN_ACT 0) [(24, 0x10000)] 0xFFFFFFFF 0x0A000C00,
    rwRow (STK_FIRN_RATE 0) [(24, 0x10000)] 0xFFFF 0x4650,
    rwRow (STK_FIRN_BOUND 0) [(24, 0x10000)] 0xFFFFFFFF 0x001403E8,
    ⟨STK_CG_EPOCH 0 0, [(24, 0x10000), (4, 4)], 0, 0, 0x00010001, 0xFFFFFFFF⟩,
    coldRow (FIRN_ID 0) [(4096, 0x1000)], ⟨FIRN_EPOCH 0, [(4096, 0x1000)], 0, 0, 1, 0xFFFF⟩,
    roRow (FIRN_STATE 0) [(4096, 0x1000)] 1, roRow (FIRN_RATE 0) [(4096, 0x1000)] 0x96,
    roRow (FIRN_CUR_SEQ 0) [(4096, 0x1000)], rwRow (FIRN_HOST_CMD 0 0) [(4096, 0x1000), (8, 4)] 0xFFFFFFFF 0,
    roRow (FIRN_HOST_GO 0) [(4096, 0x1000), (4, 4)], roRow (FIRN_FSEQ 0 0) [(4096, 0x1000), (32, 4)],
    coldRow (FIRN_CNT_CMDS 0) [(4096, 0x1000), (8, 4)] ]

/-- Scheduler, Snowpack, serving, Graupel (R239, R271, R272, R331 to R333). -/
def rowsShare : List RegRow :=
  [ rwRow SCH_GCFG [] 0xFFFFFFFF 0x03E800C8, rwRow SCH_SLICE [] 0xFFFF 0x07D0, roRow SCH_HB [],
    rwRow SCH_HB_CFG [] 0x0FFF3FFF 0x003C03E8, roRow SCH_DRV [],
    roRow (SCH_P 0 0) [(32, 0x100), (8, 4)],
    roRow (SCH_C_CFG 0) [(64, 0x100)] 0x0001007F, roRow (SCH_C 0 0x10) [(64, 0x100), (24, 4)],
    roRow (SNW 0 0) [(32, 0x100)], rwRow (SNW 0 4) [(32, 0x100)] 0x00FF037F 0x00050010,
    rwRow (SNW 0 8) [(32, 0x100)] 0xFFFFFFFF 0x00800080, roRow (SNW 0 0xC) [(32, 0x100), (3, 4)],
    rwRow (SNW 0 0x20) [(32, 0x100)] 0x1FFFF 64, rwRow (SNW 0 0x24) [(32, 0x100)] 0x1FFFF 128,
    rwRow (SNW 0 0x28) [(32, 0x100)] 0x1FFFF 256, rwRow (SNW 0 0x2C) [(32, 0x100)] 0x1FFFF 512,
    rwRow (SNW 0 0x30) [(32, 0x100)] 0x1FFFF 1024, rwRow (SNW 0 0x34) [(32, 0x100)] 0x1FFFF 2048,
    rwRow (SNW 0 0x38) [(32, 0x100)] 0x1FFFF 4096, rwRow (SNW 0 0x3C) [(32, 0x100)] 0x1FFFF 8192,
    roRow (SNW 0 0x40) [(32, 0x100), (11, 4)], rwRow SNW_GCFG [] 0xF3F 0x808,
    roRow SNW_TREE_FREE [] 0x80000,
    rwRow (SRV 0 0) [(32, 0x100)] 0xFFFFFF 0x031040, rwRow (SRV 0 4) [(32, 0x100)] 0xFFFFFF 0x4E20,
    rwRow (SRV 0 8) [(32, 0x100)] 0xFFFFFF 0x186A0, rwRow (SRV 0 0xC) [(32, 0x100)] 0xFFFFFF 0,
    rwRow (SRV 0 0x10) [(32, 0x100)] 0xFFFFFF 0x04465A, rwRow (SRV 0 0x14) [(32, 0x100)] 0xFFFFFF 0x2004,
    roRow (SRV 0 0x18) [(32, 0x100), (2, 4)], roRow (SRV 0 0x40) [(32, 0x100), (11, 4)],
    coldRow GRP_CNT_ROWS_LO [(5, 4)] ]

/-- Every register of the device. -/
def regMap : List RegRow :=
  rowsSystem ++ rowsMbx ++ rowsControl ++ rowsEsker ++ rowsSerac ++ rowsStack ++ rowsShare

/-- Is `off` the start of a cell of the dimensions? -/
def inDims : List (Nat × Nat) → Nat → Bool
  | [], off => off == 0
  | (n, st) :: rest, off => decide (off / st < n) && inDims rest (off % st)

/-- The row that describes an address. -/
def regFind (a : Nat) : Option RegRow :=
  regMap.find? fun r => decide (r.base ≤ a) && inDims r.dims (a - r.base)

/-- Cold-start values that depend on the unit: FIRN_ID.UNIT, FLOE_ID.TILE and PHYS, STK_ID (R114, R119,
R166). FIRN_ENABLED and ENABLED are set by repair analysis (R421 step 8). -/
def regUnitReset (a : Nat) : Nat :=
  if 0x04000000 ≤ a ∧ a < 0x05000000 ∧ a % 0x1000 = 0 then (a - 0x04000000) / 0x1000
  else if 0x02000000 ≤ a ∧ a < 0x02180000 ∧ a % 0x10000 = 0 then
    let n := (a - 0x02000000) / 0x10000
    n + (if 4 ≤ n % 6 then 32 else 0) + (n % 6) * 64 + (n / 6) * 512
  else if 0x01000000 ≤ a ∧ a < 0x02000000 then
    let o := a - 0x01000000
    let d := o / 0x400000
    let q := o % 0x400000
    if 0x100000 ≤ q ∧ q < 0x300000 ∧ 0x8000 ≤ (q - 0x100000) % 0x40000 ∧
        (q - 0x100000) % 0x4000 = 0 ∧ (q - 0x100000) % 0x40000 < 0x28000 then
      let c := (q - 0x100000) / 0x40000
      let t := ((q - 0x100000) % 0x40000 - 0x8000) / 0x4000
      d * 64 + c * 8 + t + (c * 8 + t) * 256
    else 0
  else 0

/-- What an unlisted register holds: its reset value (R6). -/
def regReset (a : Nat) : Word :=
  match regFind a with
  | some r => w32 (r.reset + regUnitReset a)
  | none => 0

end Sys2Proof.Machine
end

