-- ==== Sys2Proof/Machine/Ops.lean ====
section
/-! DEFINITION. The named operations that every meaning uses: sparse tables, memories with poison marks,
registers, the timebase, free values, ledgers, ice-core events. -/

namespace Sys2Proof.Machine

/-! ### Sparse tables -/

/-- The value of a key, if listed. -/
def kget {α : Type} : Tbl α → Nat → Option α
  | [], _ => none
  | (k, v) :: t, i => if i = k then some v else kget t i

/-- The table with a key set to a value. -/
def kput {α : Type} : Tbl α → Nat → α → Tbl α
  | [], i, x => [(i, x)]
  | (k, v) :: t, i, x =>
    if i = k then (i, x) :: t else if i < k then (i, x) :: (k, v) :: t else (k, v) :: kput t i x

/-- The table without a key. -/
def kdel {α : Type} (t : Tbl α) (i : Nat) : Tbl α := t.filter fun p => p.1 != i

/-- The value of a key, or the default of the table. -/
def tget {α : Type} (d : α) (t : Tbl α) (i : Nat) : α := (kget t i).getD d

/-- The table with a key set; a key that takes the default value is not listed. -/
def tset {α : Type} [DecidableEq α] (d : α) (t : Tbl α) (i : Nat) (x : α) : Tbl α :=
  if x = d then kdel t i else kput t i x

/-- The table with the value of a listed key changed. -/
def kmod {α : Type} (t : Tbl α) (i : Nat) (f : α → α) : Tbl α :=
  match kget t i with
  | some v => kput t i (f v)
  | none => t

/-- Every listed value changed. -/
def kmap {α : Type} (t : Tbl α) (f : Nat → α → α) : Tbl α := t.map fun p => (p.1, f p.1 p.2)

/-- The listed pairs that satisfy a test. -/
def kfilter {α : Type} (t : Tbl α) (f : Nat → α → Bool) : Tbl α := t.filter fun p => f p.1 p.2

/-- The keys listed. -/
def keys {α : Type} (t : Tbl α) : List Nat := t.map (·.1)

/-- The canonical form: keys rise strictly. -/
def risingFrom {α : Type} : Option Nat → Tbl α → Bool
  | _, [] => true
  | lo, (k, _) :: t => (match lo with | none => true | some l => decide (l < k)) && risingFrom (some k) t

/-- The canonical form of a table whose unlisted keys stand for a default. -/
def Tbl.wf {α : Type} [DecidableEq α] (d : Nat → α) (t : Tbl α) : Bool :=
  risingFrom none t && t.all fun p => decide (p.2 ≠ d p.1)

/-- `0, 1, …, n − 1` folded over a state. -/
def loop {α : Type} : Nat → (Nat → α → α) → α → α
  | 0, _, s => s
  | n + 1, f, s => f n (loop n f s)

/-! ### Memories -/

/-- The canonical form of a memory: rising addresses, no byte equal to what an unlisted address reads as. -/
def Memory.wf (m : List Host.Cell) : Bool := Tbl.wf (fun _ => (0 : Byte)) m

/-- The byte at an address; an unlisted address reads as 0. -/
def memByte (m : List Host.Cell) (a : Nat) : Byte := tget 0 m a

/-- The memory with one byte written. -/
def memSet (m : List Host.Cell) (a : Nat) (b : Byte) : List Host.Cell := tset 0 m a b

/-- `n` bytes from an address, lowest first. -/
def memRead (m : List Host.Cell) (a n : Nat) : List Byte := (List.range n).map fun i => memByte m (a + i)

/-- Bytes written from an address up. -/
def memWrite (m : List Host.Cell) (a : Nat) : List Byte → List Host.Cell
  | [] => m
  | b :: bs => memWrite (memSet m a b) (a + 1) bs

/-- Little-endian bytes as a number. -/
def leNat : List Byte → Nat
  | [] => 0
  | b :: bs => b.toNat + 256 * leNat bs

/-- The low `n` bytes of a number, lowest first. -/
def leBytes : Nat → Nat → List Byte
  | 0, _ => []
  | n + 1, x => BitVec.ofNat 8 x :: leBytes n (x / 256)

/-- A 32-bit little-endian word of a memory. -/
def memWord (m : List Host.Cell) (a : Nat) : Word := w32 (leNat (memRead m a 4))

/-- The little-endian bytes of words. -/
def wordsBytes (ws : List Word) : List Byte := ws.flatMap fun w => leBytes 4 w.toNat

/-- Bytes as words; a short last word is filled with zeros. -/
def bytesWords : Nat → List Byte → List Word
  | 0, _ => []
  | n + 1, bs => w32 (leNat (bs.take 4)) :: bytesWords n (bs.drop 4)

/-! A store: bytes with a poison mark on each 32 B sector (R463). -/

/-- `n` bytes of a store. -/
def Store.read (m : Store) (a n : Nat) : List Byte := memRead m.cells a n

/-- The word at an address of a store. -/
def Store.word (m : Store) (a : Nat) : Word := memWord m.cells a

/-- Does a byte range touch a sector with a mark? -/
def Store.marked (m : Store) (a n : Nat) : Bool :=
  m.poison.any fun s => decide (n ≠ 0) && decide (s * 32 < a + n) && decide (a < s * 32 + 32)

/-- The marks of the sectors of a range, one for each 32 B sector from the one that holds its first byte. -/
def Store.marks (m : Store) (a n : Nat) : List Bool :=
  (List.range (ceilDiv (a % 32 + n) 32)).map fun i => m.poison.contains (a / 32 + i)

/-- A mark set. -/
def Store.mark (m : Store) (s : Nat) : Store :=
  if m.poison.contains s then m else { m with poison := s :: m.poison }

/-- Bytes written with the marks of their sectors (R467): a whole sector without a mark clears the mark, a
part of a sector leaves it, data with a mark sets it. `ps` runs over the sectors touched. -/
def Store.write (m : Store) (a : Nat) (bs : List Byte) (ps : List Bool) : Store :=
  let n := bs.length
  let m1 : Store := { m with cells := memWrite m.cells a bs }
  if n = 0 then m else
  loop (ceilDiv (a % 32 + n) 32) (fun i m =>
    let s := a / 32 + i
    if ps.getD i false then m.mark s
    else if decide (a ≤ s * 32) && decide (s * 32 + 32 ≤ a + n) then { m with poison := m.poison.erase s }
    else m) m1

/-- Clean bytes written. -/
def Store.put (m : Store) (a : Nat) (bs : List Byte) : Store := m.write a bs []

/-- The canonical form of a store. -/
def Store.wf (m : Store) : Bool := Memory.wf m.cells

/-! ### Registers -/

/-- The value of a register. -/
def Block.rg (s : Block) (a : Nat) : Word := tget (regReset a) s.regs a

/-- A register set. -/
def Block.wr (s : Block) (a : Nat) (v : Word) : Block := { s with regs := tset (regReset a) s.regs a v }

/-- Bits [hi:lo] of a register. -/
def Block.fld (s : Block) (a hi lo : Nat) : Nat := (s.rg a).fld hi lo

/-- Bits [hi:lo] of a register set to `v`. -/
def Block.wf (s : Block) (a hi lo v : Nat) : Block := s.wr a ((s.rg a).setFld hi lo v)

/-- One bit of a register. -/
def Block.bit (s : Block) (a i : Nat) : Bool := (s.rg a).bit i

/-- One bit of a register set. -/
def Block.wb (s : Block) (a i : Nat) (v : Bool) : Block := s.wf a i i (b2n v)

/-- A 32-bit counter raised, saturating. -/
def Block.bump (s : Block) (a : Nat) (n : Nat := 1) : Block :=
  s.wr a (w32 (min 0xFFFFFFFF ((s.rg a).toNat + n)))

/-- A counter field of a register raised, saturating at its width. -/
def Block.bumpFld (s : Block) (a hi lo : Nat) (n : Nat := 1) : Block :=
  s.wf a hi lo (min (2 ^ (hi + 1 - lo) - 1) (s.fld a hi lo + n))

/-- The 64-bit value of a _LO/_HI pair (R7). -/
def Block.pair (s : Block) (lo : Nat) : Nat := (s.rg lo).toNat + 2 ^ 32 * (s.rg (lo + 4)).toNat

/-- A pair set. -/
def Block.setPair (s : Block) (lo v : Nat) : Block :=
  (s.wr lo (w32 v)).wr (lo + 4) (w32 (v / 2 ^ 32))

/-- A 64-bit counter raised, saturating. -/
def Block.bumpPair (s : Block) (lo n : Nat) : Block := s.setPair lo (min (2 ^ 64 - 1) (s.pair lo + n))

/-- A function applied for each element of a list. -/
def Block.each {α : Type} (s : Block) (l : List α) (f : Block → α → Block) : Block := l.foldl f s

/-- The timebase in nanoseconds (R440). -/
def Block.now (s : Block) : Nat := s.pair CLK_TB_LO

/-! ### Free values -/

/-- The next open value. -/
def Block.freeVal (s : Block) : Nat := Config.free s.freeCtr

/-- The state after an open value has been drawn. -/
def Block.drawn (s : Block) : Block := { s with freeCtr := s.freeCtr + 1 }

/-- An open choice below `n`, and the state after it. -/
def Block.choose (s : Block) (n : Nat) : Nat × Block := (if n = 0 then 0 else s.freeVal % n, s.drawn)

/-- An open choice from a list, or the default when the list is empty. -/
def Block.pick {α : Type} (s : Block) (l : List α) (d : α) : α × Block :=
  (l.getD (if l.length = 0 then 0 else s.freeVal % l.length) d, s.drawn)

/-! ### Status codes (R12) -/

/-- A status: code and detail. -/
def stat (code detail : Nat) : Nat := code + 256 * detail

def OK : Nat := 0
def BUSY (d : Nat) : Nat := stat 0x01 d
def NOT_READY (d : Nat) : Nat := stat 0x02 d
def REFUSED (d : Nat) : Nat := stat 0x03 d
def NO_SPACE (d : Nat) : Nat := stat 0x04 d
def STALE_EPOCH : Nat := stat 0x05 0
def POISONED (d : Nat) : Nat := stat 0x06 d
def DENIED (d : Nat) : Nat := stat 0x07 d
def TIMEOUT (d : Nat) : Nat := stat 0x08 d
def MODEL_DAMAGED : Nat := stat 0x09 0
def ABORTED (d : Nat) : Nat := stat 0x0A d
def LEDGER_BREACH : Nat := stat 0x0B 0
def UNSUPPORTED (d : Nat) : Nat := stat 0x0C d

/-! ### Ice-core events (R13, R506) -/

/-- Sources of a record (R503). -/
def srcMoraine : Nat := 0x00
def srcVaon : Nat := 0x01
def srcRom : Nat := 0x02
def srcCore (n : Nat) : Nat := 0x10 + n
def srcHealth : Nat := 0x16
/-- The Snowpack is SNOW, core 3. -/
def srcSnow : Nat := srcCore 3
/-- LINK is core 5. -/
def srcLink : Nat := srcCore 5

/-- Classes 0x03, 0x04 and 0x09 may use the eight reserved places (R506). -/
def iceSpecial (event : Nat) : Bool := event / 256 == 3 || event / 256 == 4 || event / 256 == 9

/-- Is there a place that a record of this event may take? -/
def IceCore.admits (c : IceCore) (event : Nat) : Bool :=
  let sp := (c.queue.filter fun r => iceSpecial r.event).length
  let ot := c.queue.length - sp
  decide (c.queue.length < 256) && (iceSpecial event || decide (ot + (sp - 8) < 248))

/-- A record enters the write queue, or is dropped and counted (R506). -/
def Block.iceEnter (s : Block) (r : IceRec) : Block :=
  if s.ice.admits r.event then
    let r : IceRec := { r with lost := min 0xFFFF s.ice.lost }
    { s with ice := { s.ice with queue := s.ice.queue ++ [r], lost := 0 } }
  else
    let s := s.bump ICE_DROPPED
    { s with ice := { s.ice with lost := s.ice.lost + 1 } }

/-- STATE of a Rime core (R412). -/
def Block.coreState (s : Block) (n : Nat) : Nat := s.fld (RIME_STATE n) 2 0

/-- Is a Rime core neither HALTED, RESTARTING nor given up (R410)? -/
def Block.coreUp (s : Block) (n : Nat) : Bool := decide (s.coreState n < 3)

/-- An event arises (R503, R530). While HEALTH is away its events wait in Moraine, up to 256 (R410). -/
def Block.event (s : Block) (source event : Nat) (data : List Word) : Block :=
  let r : IceRec :=
    { seq := 0, hours := s.ice.hours, seconds := min 3599 (s.ice.secNs / 1000000000), event := event,
      pcycles := s.ice.pcycles, source := source, lost := 0, data := data.take 8, time := s.now }
  if source = srcHealth ∧ !s.coreUp 6 then
    if s.ice.health.length < 256 then { s with ice := { s.ice with health := s.ice.health ++ [r] } }
    else { s with ice := { s.ice with healthLost := s.ice.healthLost + 1 } }
  else s.iceEnter r

/-! ### Ledgers (R336 to R343) -/

/-- A ledger with nothing in it. -/
def Ledger.zero : Ledger := { free := 0, held := 0, flight := 0, total := 0 }

/-- The equation of R336. -/
def Ledger.ok (l : Ledger) : Bool := l.free + l.held + l.flight == l.total

/-- What a ledger holds before anything moves: the fixed pools are wholly free (R338). -/
def ledgerReset (n : Nat) : Ledger :=
  let all (t : Nat) : Ledger := { free := t, held := 0, flight := 0, total := t }
  if 0x80 ≤ n ∧ n < 0xA0 then all 1536
  else if 0x200 ≤ n ∧ n < 0x240 then all 8
  else if n = 0x240 then all 4
  else if n = 0x250 then all 16384
  else Ledger.zero

/-- The four counts of ledger `n`. -/
def Block.ledger (s : Block) (n : Nat) : Ledger := tget (ledgerReset n) s.led n

/-- A change of the four counts. -/
structure LedgerMove where
  free : Int := 0
  held : Int := 0
  flight : Int := 0
  total : Int := 0
  deriving DecidableEq, Repr

/-- The ledger after a change, when no count falls below 0 and the equation holds (R337). -/
def Ledger.move (l : Ledger) (m : LedgerMove) : Option Ledger :=
  let f := (l.free : Int) + m.free
  let h := (l.held : Int) + m.held
  let g := (l.flight : Int) + m.flight
  let t := (l.total : Int) + m.total
  if 0 ≤ f ∧ 0 ≤ h ∧ 0 ≤ g ∧ 0 ≤ t ∧ f + h + g = t then
    some { free := f.toNat, held := h.toNat, flight := g.toNat, total := t.toNat }
  else none

/-- Is the module in breach? -/
def Block.breach (s : Block) : Bool := s.bit LDG_STATUS 0

/-- Does the device answer as in a breach: BREACH has been set since the last start (R346 steps 3 and 4)? -/
def Block.inBreach (s : Block) : Bool := s.breach && !s.start.oldBreach

/-- Event 0x0901 of a breach (R346): the ledger, its counts and the kind. -/
def Block.breachEvent (s : Block) (n kind : Nat) (extra : List Word) : Block :=
  let l := s.ledger n
  s.event srcHealth 0x0901 ([w32 n, w32 l.free, w32 l.held, w32 l.flight, w32 l.total, w32 kind] ++ extra)

/-- BREACH and FIRST set once (R346). -/
def Block.breachMark (s : Block) (n : Nat) : Block :=
  let s : Block := { s with start := { s.start with oldBreach := false } }
  if s.breach then s else (s.wf LDG_STATUS 25 16 n).wb LDG_STATUS 0 true

/-- Steps 1 and 2 of a breach (R346): BREACH and FIRST are set once, and event 0x0901 is written. -/
def Block.raiseBreach (s : Block) (n kind : Nat) (extra : List Word) : Block :=
  (s.breachEvent n kind extra).breachMark n

/-- An update of ledger `n`, refused with a breach when R337 says so. -/
def Block.led1 (s : Block) (n : Nat) (m : LedgerMove) : Block :=
  match (s.ledger n).move m with
  | some l => { s with led := tset (ledgerReset n) s.led n l }
  | none => s.raiseBreach n 0 [wOfInt m.free, wOfInt m.held]

/-- Items move from FREE to HELD. -/
def Block.ledTake (s : Block) (n k : Nat) : Block := s.led1 n { free := -k, held := k }
/-- Items move from HELD to FREE. -/
def Block.ledDrop (s : Block) (n k : Nat) : Block := s.led1 n { free := k, held := -k }
/-- Items move from HELD to FLIGHT. -/
def Block.ledSend (s : Block) (n k : Nat) : Block := s.led1 n { held := -k, flight := k }
/-- Items move from FLIGHT to FREE. -/
def Block.ledLand (s : Block) (n k : Nat) : Block := s.led1 n { free := k, flight := -k }
/-- Items move from FLIGHT to HELD. -/
def Block.ledArrive (s : Block) (n k : Nat) : Block := s.led1 n { held := k, flight := -k }
/-- Items move from FREE to FLIGHT. -/
def Block.ledFly (s : Block) (n k : Nat) : Block := s.led1 n { free := -k, flight := k }
/-- The pool grows by free items (R341). -/
def Block.ledGrow (s : Block) (n k : Nat) : Block := s.led1 n { free := k, total := k }
/-- The pool shrinks by free items (R341). -/
def Block.ledShrink (s : Block) (n k : Nat) : Block := s.led1 n { free := -k, total := -k }
/-- The ledger is created again with every item free (R345). -/
def Block.ledRenew (s : Block) (n t : Nat) : Block :=
  { s with led := tset (ledgerReset n) s.led n { free := t, held := 0, flight := 0, total := t } }
/-- The ledger is created again from the counts of a kept pool (R345): `u` of `t` items are held. -/
def Block.ledAdopt (s : Block) (n u t : Nat) : Block :=
  { s with led := tset (ledgerReset n) s.led n { free := t - u, held := min u t, flight := 0, total := t } }

/-! ### Acting on the block -/

/-- A fuse bit after a blow: what was blown stays blown. -/
def LcBit.or (x y : LcBit) : LcBit := { a := x.a || y.a, b := x.b || y.b, c := x.c || y.c }

/-- Two fuse fields of bytes, blown where either is. -/
def orBytes : List Byte → List Byte → List Byte
  | [], l => l
  | l, [] => l
  | x :: xs, y :: ys => (x ||| y) :: orBytes xs ys

/-- Two rows of thermometers, each as far as the higher. -/
def maxFloors : List Nat → List Nat → List Nat
  | [], l => l
  | l, [] => l
  | x :: xs, y :: ys => max x y :: maxFloors xs ys

/-- The fuses after a command: none is ever unblown, and those that only manufacture writes stand (R482, R484). -/
def Fuses.keep (old new : Fuses) : Fuses :=
  { develop := old.develop.or new.develop, field := old.field.or new.field, ret := old.ret.or new.ret,
    scrap := old.scrap.or new.scrap, vendorDigest := old.vendorDigest,
    idSeed := orBytes old.idSeed new.idSeed,
    ownerDigest := orBytes old.ownerDigest new.ownerDigest, ownerValid := old.ownerValid || new.ownerValid,
    floors := maxFloors old.floors new.floors, romVersion := old.romVersion }

/-- The slots of the permanent area after a command: what is programmed stays as it is (R502). -/
def keepSlots (old new : Tbl IceSlot) : Tbl IceSlot :=
  if new = old then old else
  (keys old).foldl (fun t k => match kget old k with | some r => kput t k r | none => t) new

/-- A block after a command, with what is written once and for good as it was. -/
def Block.lasting (old new : Block) : Block :=
  let f := old.trust.fuses.keep new.trust.fuses
  let p := keepSlots old.ice.perm new.ice.perm
  { new with trust := { new.trust with fuses := f }, ice := { new.ice with perm := p } }

/-- A command whose effect is total: the block changes and the queue does not. -/
def onBlk (f : Block → Block) (s : State) : Host.Outcome State Fault Refusal :=
  .next { s with blk := s.blk.lasting (f s.blk) }

end Sys2Proof.Machine
end

