-- ==== Sys2Proof/Machine/HostIo.lean ====
section
/-! DEFINITION. What passes between the device and the host: DMA, completion rings, MSI-X, the mailbox
channels and the handling of a message (R301 to R303, R382 to R395). -/

namespace Sys2Proof.Machine

/-! ### Functions -/

/-- A function right after reset. Bus-master enable is taken as set once the link is up; DESIGN CHOICE, log
entry 6. -/
def Fn.reset : Fn := { queues := [], rings := [], held := [], windows := [], busMaster := true, ats := [] }

/-- A function. -/
def Block.fn (s : Block) (f : Nat) : Fn := tget Fn.reset s.fns f

/-- A function changed. -/
def Block.modFn (s : Block) (f : Nat) (g : Fn → Fn) : Block :=
  { s with fns := tset Fn.reset s.fns f (g (s.fn f)) }

/-- Is driver loss declared (R328)? -/
def Block.lost (s : Block) : Bool := s.fld SCH_DRV 1 0 == 2

/-- Is host-bound DMA of the function stopped (R327, R328)? So it is while the host link is down; DESIGN CHOICE, log
entry 14. -/
def Block.dmaStopped (s : Block) (f : Nat) : Bool := s.lost || !(s.fn f).busMaster || !s.start.linkUp

/-- Can the device reach `n` bytes of host memory at `a` (R389)? -/
def Block.hostOk (s : Block) (a n : Nat) : Bool :=
  !(s.env.hostUnmapped.any fun p => decide (p * 4096 < a + n) && decide (a < p * 4096 + 4096))

/-- Bytes of host memory. -/
def Block.hostRead (s : Block) (a n : Nat) : List Byte := memRead s.env.hostMem a n

/-- A word of host memory. -/
def Block.hostWord (s : Block) (a : Nat) : Word := memWord s.env.hostMem a

/-- Bytes written to host memory, where it can be reached. -/
def Block.hostPut (s : Block) (a : Nat) (bs : List Byte) : Block :=
  if s.hostOk a bs.length then { s with env := { s.env with hostMem := memWrite s.env.hostMem a bs } } else s

/-- Descriptors of a held write: one for each 256 B. -/
def heldUnits (bs : List Byte) : Nat := ceilDiv bs.length 256

/-- The status with which a read of host memory for a function ends, if it fails (R327, R389). -/
def Block.hostReadStatus (s : Block) (f a n : Nat) : Option Nat :=
  if s.dmaStopped f then some (ABORTED 0xD5) else if s.hostOk a n then none else some (ABORTED 0x24)

/-- A host-bound write of a function: performed, or held in issue order while its DMA is stopped (R303). The
held write keeps its descriptors in FLIGHT of ledger 0x250 (R338). -/
def Block.hostWrite (s : Block) (f a : Nat) (bs : List Byte) : Block :=
  if s.dmaStopped f then
    (s.modFn f fun x => { x with held := x.held ++ [.write a bs] }).ledFly 0x250 (heldUnits bs)
  else s.hostPut a bs

/-- An MSI-X message of a function and vector (R388). -/
def Block.msix (s : Block) (f v : Nat) : Block :=
  let k := f * 4096 + v
  { s with env := { s.env with msi := kput s.env.msi k (tget 0 s.env.msi k + 1) } }

/-! ### Completion rings (R386 to R388) -/

/-- Does the ring have room for an entry? -/
def Ring.room (r : Ring) : Bool := decide (r.filled < 2 ^ r.k)

/-- The sequence number after another (R386). -/
def nextCsn (c : Nat) : Nat := if c = 0xFFFFFFFF then 1 else c + 1

/-- An entry is written to a ring with room: one 32-byte write with the sequence number in word 7, and the
ring's message when COAL_N entries wait for one. -/
def Block.ringPut (s : Block) (f ri : Nat) (ws : List Word) : Block :=
  match kget (s.fn f).rings ri with
  | none => s
  | some r =>
    let s := s.hostPut (r.addr + 32 * r.slot) (wordsBytes ((ws ++ List.replicate 7 0).take 7 ++ [w32 r.csn]))
    let full := decide (max 1 r.coalN ≤ r.unann + 1)
    let r' := { r with filled := r.filled + 1, slot := (r.slot + 1) % 2 ^ r.k, csn := nextCsn r.csn,
                       unann := if full then 0 else r.unann + 1, since := if r.unann = 0 then s.now else r.since }
    let s := s.modFn f fun x => { x with rings := kput x.rings ri r' }
    if full then s.msix f r.vector else s

/-- Does an entry of this ring wait in the hold? -/
def holdsRing (l : List HeldItem) (ri : Nat) : Bool :=
  l.any fun | .entry r _ => r == ri | .write _ _ => false

/-- The entries of a function's hold (R387). -/
def heldEntries (l : List HeldItem) : Nat := (l.filter fun | .entry _ _ => true | .write _ _ => false).length

/-- A completion entry for a ring: written, or held while DMA is stopped (R303) or the ring is full, which
HIF_CNT_RING_STALL counts (R387). -/
def Block.ringEntry (s : Block) (f ri : Nat) (ws : List Word) : Block :=
  match kget (s.fn f).rings ri with
  | none => s
  | some r =>
    let hold (s : Block) := s.modFn f fun x => { x with held := x.held ++ [.entry ri ws] }
    if s.dmaStopped f then hold s
    else if r.room && !holdsRing (s.fn f).held ri then s.ringPut f ri ws
    else (hold s).bump (HIF_CNT f 3)

/-- Held items delivered in order. An entry whose ring is full stays, and so do the later entries of that
ring. -/
def Block.deliver (s : Block) (f : Nat) : List HeldItem → List HeldItem → Block
  | [], kept => s.modFn f fun x => { x with held := kept }
  | .write a bs :: l, kept => ((s.hostPut a bs).ledLand 0x250 (heldUnits bs)).deliver f l kept
  | .entry ri ws :: l, kept =>
    match kget (s.fn f).rings ri with
    | none => s.deliver f l kept
    | some r =>
      if r.room && !holdsRing kept ri then (s.ringPut f ri ws).deliver f l kept
      else s.deliver f l (kept ++ [.entry ri ws])

/-- A function's hold delivered as far as its rings have room. -/
def Block.flushHeld (s : Block) (f : Nat) : Block :=
  if s.dmaStopped f then s else s.deliver f (s.fn f).held []

/-- A function's hold discarded: the descriptors of its writes return to FREE (R345). -/
def Block.dropHeld (s : Block) (f : Nat) : Block :=
  let s1 := s.each (s.fn f).held fun s h =>
    match h with
    | .write _ bs => s.ledLand 0x250 (heldUnits bs)
    | .entry _ _ => s
  s1.modFn f fun x => { x with held := [] }

/-! ### Mailbox channels (R390 to R395) -/

/-- The place of the management packets' message path, which has no bus address (R370). -/
def mgmtBase : Nat := 0x300000200

/-- The host-to-device channel of a pair. -/
def chBase : Chan → Nat
  | .fn f n => fnPage f + 0x1000 + 0x100 * n
  | .s0 => s0Base
  | .s1 => s1Base
  | .mgmt => mgmtBase

/-- The device-to-host channel of a pair. -/
def chBack : Chan → Nat
  | .fn f n => fnPage f + 0x1800 + 0x100 * n
  | .s0 => s0Base + 0x100
  | .s1 => s1Base + 0x100
  | .mgmt => mgmtBase + 0x100

/-- The function that a channel speaks for; the secure page belongs to the PF, the sideband is 64. -/
def chFn : Chan → Nat
  | .fn f _ => f
  | .s0 => 0
  | .s1 => 64
  | .mgmt => 64

/-- The code of a channel in an event (R530). -/
def chCode : Chan → Nat
  | .fn _ _ => 0
  | .s0 => 1
  | .s1 => 2
  | .mgmt => 0

/-- Is the pair secure? -/
def chSecure : Chan → Bool
  | .s0 => true
  | .s1 => true
  | _ => false

/-- Does the channel exist: functions 0 to 63, pairs 0 to 3? -/
def chOk : Chan → Bool
  | .fn f n => decide (f < 64) && decide (n < 4)
  | _ => true

/-- The ledger of a channel, if it has one (R338). -/
def chLedger : Chan → Option Nat
  | .fn f _ => some (0x200 + f)
  | .s0 => some 0x240
  | .s1 => some 0x240
  | .mgmt => none

/-- A move of the channel's ledger. -/
def Block.chLed (s : Block) (ch : Chan) (f : Block → Nat → Block) : Block :=
  match chLedger ch with
  | some n => f s n
  | none => s

/-- A channel's fields beside its registers. -/
def Mbx.reset : Mbx := { len := 0, waiting := [], owed := false }

/-- The channel whose registers start at `a`. -/
def Block.box (s : Block) (a : Nat) : Mbx := tget Mbx.reset s.mbx a

/-- A channel set. -/
def Block.setBox (s : Block) (a : Nat) (m : Mbx) : Block := { s with mbx := tset Mbx.reset s.mbx a m }

/-- Is FULL set on the channel that starts at `a`? -/
def Block.full (s : Block) (a : Nat) : Bool := s.bit (a + 0x44) 0

/-- Words written to a channel's data registers, with zeros above (R393). -/
def Block.boxData (s : Block) (a : Nat) (ws : List Word) : Block :=
  loop 16 (fun i s => s.wr (a + 4 * i) (ws.getD i 0)) s

/-- A reply written to a device-to-host channel that is free: data and LEN before FULL, at least 8 registers, and the
vector when IRQ_EN is set (R392, R393). -/
def Block.writeReply (s : Block) (ch : Chan) (ws : List Word) (rest : List (List Word)) : Block :=
  let a := chBack ch
  let len := max 8 ws.length
  let s := s.setBox a { s.box a with len := len, waiting := rest }
  let s := ((s.boxData a ws).wf (a + 0x44) 12 8 len).wb (a + 0x44) 0 true
  let s := s.chLed ch fun s n => s.ledTake n 1
  if s.bit (a + 0x48) 16 then s.msix (chFn ch) (s.fld (a + 0x48) 10 0) else s

/-- The next waiting reply of a pair is written when the device-to-host channel is free (R392). -/
def Block.pumpReply (s : Block) (ch : Chan) : Block :=
  match (s.box (chBack ch)).waiting with
  | [] => s
  | ws :: rest => if s.full (chBack ch) then s else s.writeReply ch ws rest

/-- A reply takes its place behind those before it (R392). -/
def Block.reply (s : Block) (ch : Chan) (ws : List Word) : Block :=
  let a := chBack ch
  let s := s.setBox a { s.box a with waiting := (s.box a).waiting ++ [ws] }
  s.pumpReply ch

/-- The registers of the message that a channel holds. -/
def Block.msgWords (s : Block) (ch : Chan) : List Word :=
  (List.range (s.box (chBase ch)).len).map fun i => s.rg (chBase ch + 4 * i)

/-- The receiver has read the message: FULL falls, and the channel passes through FLIGHT to FREE (R338, R391). -/
def Block.msgTaken (s : Block) (ch : Chan) : Block :=
  let a := chBase ch
  let s := (s.wb (a + 0x44) 0 false).setBox a { s.box a with len := 0 }
  s.chLed ch fun s n => (s.ledSend n 1).ledLand n 1

/-- The core that owns a message class (R392, R401). Class 0x0B has none. -/
def classCore (cls : Nat) : Option Nat :=
  if cls = 3 then some 2 else if cls = 5 then some 3 else if cls = 6 then some 4 else if cls = 8 then some 5
  else if cls = 1 ∨ cls = 2 ∨ cls = 4 ∨ cls = 7 then some 1 else if cls = 9 ∨ cls = 10 then some 0 else none

/-- Is the message's core present to act on it? Until the image set is loaded Moraine and the boot ROM answer
themselves (R405); a core that is HALTED or RESTARTING leaves the message FULL (R410). -/
def Block.coreActs (s : Block) (cls : Nat) : Bool :=
  match classCore cls with
  | none => true
  | some n => !s.fw.loaded || !(s.coreState n == 3 || s.coreState n == 4)

/-- The answer that a message receives before its own handling, if any (R346, R395, R405, R407, R498). After a warm
start in breach, PART_CREATE alone is still answered with LEDGER_BREACH. -/
def Block.msgRefused (s : Block) (ch : Chan) (type : Nat) : Option Nat :=
  let cls := type / 256
  if cls = 0x0B then none
  else if !chSecure ch && !s.fw.loaded then some (NOT_READY 0x11)
  else if !chSecure ch && (cls == 9 || cls == 10) then some (DENIED 0x10)
  else if ch = .s0 ∧ !(cls == 9 || cls == 10) then some (UNSUPPORTED 0)
  else if ch = .s1 ∧ !(cls == 9 || cls == 10 || cls == 1 || cls == 8) then some (UNSUPPORTED 0)
  else if !(cls == 9 || cls == 10) && (s.inBreach || (s.breach && type == 0x0701)) then some LEDGER_BREACH
  else match classCore cls with
    | some n =>
      if s.fw.loaded && s.coreState n == 5 then some (NOT_READY 0x19)
      else if !s.fw.loaded && !(cls == 9 || cls == 10) then some (NOT_READY 0x11) else none
    | none => none

/-- Does the channel hold a message of this type that its receiver can act on? -/
def Block.msgReady (s : Block) (ch : Chan) (type : Nat) : Bool :=
  chOk ch && s.full (chBase ch) && (s.fld (chBase ch) 15 0 == type) && s.coreActs (type / 256) &&
  !(s.box (chBase ch)).owed

/-- The outcome of a message's handling: its status, the reply's registers from 2 up, the block. -/
structure Answer where
  status : Nat
  regs : List Word
  blk : Block

/-- A message refused by its status alone. -/
def Block.no (s : Block) (st : Nat) : Answer := { status := st, regs := [], blk := s }
/-- A message completed with OK. -/
def Block.yes (s : Block) (regs : List Word := []) : Answer := { status := OK, regs := regs, blk := s }

/-- The owning core takes the message that the channel holds, handles it and replies with the request's
header and the status (R392). The handler sees the request's registers. -/
def Block.message (s : Block) (ch : Chan) (type : Nat) (h : Block → List Word → Answer) : Block :=
  if s.msgReady ch type then
    let ws := s.msgWords ch
    let s := s.msgTaken ch
    let a := match s.msgRefused ch type with
      | some st => s.no st
      | none => h s ws
    a.blk.reply ch (ws.getD 0 0 :: w32 a.status :: a.regs)
  else s

/-- As `message`, for one of the forms that a type has, told apart by a field of the request. -/
def Block.messageWhen (s : Block) (ch : Chan) (type : Nat) (p : List Word → Bool) (h : Block → List Word → Answer) : Block :=
  if p (s.msgWords ch) then s.message ch type h else s

/-- As `message`, for a message whose reply may wait: the handler answers later when it gives none. -/
def Block.messageLater (s : Block) (ch : Chan) (type : Nat) (h : Block → List Word → Option Answer × Block) : Block :=
  if s.msgReady ch type then
    let ws := s.msgWords ch
    let s := s.msgTaken ch
    match s.msgRefused ch type with
    | some st => s.reply ch [ws.getD 0 0, w32 st]
    | none =>
      match h s ws with
      | (some a, _) => a.blk.reply ch (ws.getD 0 0 :: w32 a.status :: a.regs)
      | (none, s) => s.setBox (chBase ch) { s.box (chBase ch) with owed := true }
  else s

/-- The reply that a message has waited for; a function reset may have discarded it (R396). -/
def Block.replyLate (s : Block) (ch : Chan) (ws : List Word) : Block :=
  if !(s.box (chBase ch)).owed then s else
  (s.setBox (chBase ch) { s.box (chBase ch) with owed := false }).reply ch ws

/-- Register `i` of a message. -/
def mreg (ws : List Word) (i : Nat) : Word := ws.getD i 0
/-- Registers `i`, `i + 1` as a 64-bit number. -/
def mpair (ws : List Word) (i : Nat) : Nat := (mreg ws i).toNat + 2 ^ 32 * (mreg ws (i + 1)).toNat

/-- The image that a message of `type` names, as the host put it in its own memory before it sent the message: at the
address in words `k` and `k + 1` (log entry 150). -/
def Block.hostImage (s : Block) (ch : Chan) (type k : Nat) (img : List Byte) : Block :=
  if s.msgReady ch type then { s with env := { s.env with hostMem := memWrite s.env.hostMem (mpair (s.msgWords ch) k) img } }
  else s

end Sys2Proof.Machine
end

