-- ==== Sys2Proof/Machine/Governor.lean ====
section
/-! DEFINITION. The energy governor's window (R25, R342, R451 to R455): the close of one 10 µs window, the
audit of its energy, the budget and division of the next, and the core voltage targets. Unit u of the
governor is a die for u from 0 to 3, a stack for 4 to 27, the Firn units of a compute stack for 28 to 43. -/

namespace Sys2Proof.Machine

/-- The stack of a compute stack index (R10). -/
def computeStack (i : Nat) : Nat := (i / 4) * 6 + i % 4

/-- Has the compute stack a Firn set RUNNING (R452)? -/
def Block.anySetRunning (s : Block) (i : Nat) : Bool :=
  (List.range 8).any fun g => s.fld (STK_FIRN_SET (computeStack i)) (2 * g + 1) (2 * g) == 2

/-- The floor of a unit in tokens (R452). -/
def Block.govFloor (s : Block) (u : Nat) : Nat :=
  if u < 4 then 600 else if u < 28 then 30 else if s.anySetRunning (u - 28) then 100 else 0

/-- The maximum of a unit in tokens (R452). -/
def govMax (u : Nat) : Nat := if u < 4 then 6000 else if u < 28 then 280 else 220

/-- L in W (R453). -/
def Block.limitW (s : Block) : Nat := s.fld PWR_LIMIT 11 0

/-- The budget of R453 before the excursion rule and the least budget. -/
def Block.budgetRaw (s : Block) (vin : Nat) : Nat :=
  let l := s.limitW
  min (l * 10000 - (s.pwr.windows.take 999).sum) (min (min 4200 (l + 600) * 10) vin)

/-- The reserve of a budget (R452): 1.25 times the energy that Moraine and the losses drew, and HEADROOM. -/
def Block.govReserve (s : Block) (b drew : Nat) : Nat := drew * 5 / 4 + s.fld PWR_LIMIT 23 16 * b / 1000

/-- The least budget: the floors and the reserve, of which HEADROOM is a share of the budget itself (R452, R453). -/
def Block.govLeast (s : Block) (drew : Nat) : Nat :=
  ceilDiv ((((List.range 44).map s.govFloor).sum + drew * 5 / 4) * 1000) (1000 - s.fld PWR_LIMIT 23 16)

/-- The demand of a unit above its floor in half tokens, of which an eighth of a Firn unit's maximum is 55 (R452). -/
def Block.govDemand (s : Block) (m : WindowMeasure) (u : Nat) : Nat :=
  let spent := m.spent.getD u 0
  let d := if decide (s.pwr.grants.getD u 0 ≤ spent) && m.waited.getD u false then 2 * govMax u
    else min (2 * govMax u) (2 * spent + govMax u / 4)
  d - 2 * s.govFloor u

/-- The grants of a window from what remains after the reserve and the floors (R452). -/
def Block.govGrants (s : Block) (m : WindowMeasure) (remain : Nat) : List Nat :=
  let total := ((List.range 44).map (s.govDemand m)).sum
  (List.range 44).map fun u =>
    let d := s.govDemand m u
    s.govFloor u + (if total ≤ 2 * remain then d / 2 else d * remain / total)

/-- The close of the window (R342, R452): each unit's spend and the reserve's pass into FLIGHT, and the audit
compares FLIGHT with the measured input within 3 % (R338) while HEALTH runs. -/
def Block.govClose (s : Block) (m : WindowMeasure) : Block :=
  let spent := ((List.range 44).map fun u => min (m.spent.getD u 0) (s.pwr.grants.getD u 0)).sum
  let resv := (s.ledger 0x1A0).held - s.pwr.grants.sum
  let s := s.ledSend 0x1A0 (spent + min resv m.moraine)
  let s := if resv < m.moraine then s.ledFly 0x1A0 (m.moraine - resv) else s
  let fl := (s.ledger 0x1A0).flight
  let off := (if fl ≤ m.input then m.input - fl else fl - m.input)
  if s.bit LDG_STATUS 1 && decide (3 * m.input < 100 * off) then s.raiseBreach 0x1A0 2 [] else s

/-- One die's sources ask for less than 0.62 V (R455). -/
def asksBelow (down : Bool) (target : Nat) : Bool := down && decide (target ≤ 620)

/-- A target moved 5 mV within its range (R455). -/
def moveTarget (t : Nat) (down up : Bool) : Nat :=
  if down then max 620 (t - 5) else if up then min 850 (t + 5) else t

/-- The hottest valid sensor of a die in 0.25 °C, at least 0 (R25, R458). TJ_MAX shows it in whole degrees, rounded down, and
a die below 0 °C as 0: DESIGN CHOICE, log entry 163. -/
def Block.hottest (s : Block) (lo n : Nat) : Int :=
  ((List.range n).map fun k =>
    let w := s.rg (THM_SENSOR (lo + k))
    if w.bit 11 then signExt 11 w.toNat else 0).foldl max 0

/-- The thermal level of zone z: dies 0 to 3, Moraine 4 (R461). -/
def Block.zoneLevel (s : Block) (z : Nat) : Nat := s.fld THM_STATE (2 * z + 1) (2 * z)

/-- Voltage target, issue fraction and operating point of die d for the next window (R25, R455, R459). -/
def Block.govDie (s : Block) (m : WindowMeasure) (d : Nat) : Block :=
  let grant := s.pwr.grants.getD d 0
  let gDown := m.early.getD d false
  let gUp := m.waited.getD d false && decide (m.spent.getD d 0 * 5 < grant * 4)
  let hot := s.hottest (72 * d) 72
  let thr := decide (2 ≤ s.zoneLevel d)
  let tDown := thr && decide (420 ≤ hot)
  let g0 := s.pwr.govTarget.getD d 750
  let t0 := s.pwr.thmTarget.getD d 850
  let g1 := moveTarget g0 gDown gUp
  let t1 := moveTarget t0 tDown (!thr && decide (t0 < min (s.fld (PWR_VCORE d) 25 16) g1))
  let ask := asksBelow gDown g0 || asksBelow tDown t0
  let i1 := let i := s.pwr.issue.getD d 64; if ask then max 8 (i - 1) else min 64 (i + 1)
  let want := min (s.fld (PWR_VCORE d) 25 16) (min g1 t1)
  let old := let v := s.fld (PWR_VCORE d) 9 0; if v = 0 then 750 else v
  let v := if want < old then max want (old - 5) else min want (old + 5)
  let s := { s with pwr := { s.pwr with govTarget := s.pwr.govTarget.set d g1,
                                        thmTarget := s.pwr.thmTarget.set d t1,
                                        issue := s.pwr.issue.set d i1 } }
  let s := (s.wf (PWR_VCORE d) 9 0 v).wf (PWR_VCORE d) 31 26 i1
  s.wr (SRC_OPPOINT d) (w32 (m.wave.getD d 0 % 4096 + (m.vcore.getD d 0 % 1024) * 4096 +
    ((hot / 4).toNat % 256) * 4194304 + b2n (decide (i1 < 64)) * 1073741824))

/-- The excursion rule (R453) and the budget of the next window: B, the new count of excursion windows and
whether B is cut. -/
def Block.govBudget (s : Block) (m : WindowMeasure) (spentLast : Nat) : Nat × Nat × Bool × Bool :=
  let l := s.limitW * 10
  let raw := s.budgetRaw m.vin
  let n := s.fld PWR_GOV 24 16
  let cutNow := decide (500 ≤ n) && !s.pwr.cut
  let cut := cutNow || (s.pwr.cut && decide (l < spentLast))
  let b := if cut then min raw l else raw
  let b := max b (s.govLeast m.moraine)
  (b, (if l < b then min 500 (n + 1) else 0), cut, cutNow)

/-- The opening of the next window (R342, R452, R453): the ledger is opened with TOTAL set to the budget and
the grants and the reserve are taken from FREE. -/
def Block.govOpen (s : Block) (m : WindowMeasure) (spentLast : Nat) : Block :=
  let (b, exc, cut, cutNow) := s.govBudget m spentLast
  let floors := ((List.range 44).map s.govFloor).sum
  let resv := s.govReserve b m.moraine
  let grants := s.govGrants m (b - resv - floors)
  let s := if cutNow then
      (s.bump PWR_CNT_EXC).event srcMoraine 0x0304 [w32 s.limitW, w32 (s.pwr.windows.take 500).sum]
    else s
  let s := s.ledRenew 0x1A0 b
  let s := s.ledTake 0x1A0 (grants.sum + resv)
  let s := (s.wf PWR_GOV 15 0 b).wf PWR_GOV 24 16 exc
  let s := (s.wb PWR_STATUS 6 (decide (s.limitW * 10 < b))).wb PWR_STATUS 7
    (decide (b = m.vin ∧ m.vin < s.budgetRaw (2 ^ 32)))
  { s with pwr := { s.pwr with grants := grants, cut := cut, spent := m.spent, firnUse := [],
                               waited := m.waited, early := m.early } }

/-- The meters of the power and thermal blocks at the end of a window (R25, R461). -/
def Block.govMeters (s : Block) (m : WindowMeasure) (spent : Nat) : Block :=
  let e := s.pwr.uJ + m.input
  let s := { s with pwr := { s.pwr with windows := (spent :: s.pwr.windows).take 1000,
                                        inputs := (m.input :: s.pwr.inputs).take 1000, uJ := e % 1000 } }
  let s := s.wr PWR_IN (w32 (m.vin % 65536 + (m.iin % 65536) * 65536))
  let s := s.wf PWR_AVG 12 0 (min 8191 (s.pwr.inputs.sum / 10000))
  let s := s.wf PWR_AVG 28 16 (max (s.fld PWR_AVG 28 16) (min 8191 (m.input / 10)))
  let s := s.bumpPair PWR_ENERGY_LO (e / 1000)
  let s := loop 44 (fun u s =>
    if decide (s.pwr.grants.getD u 0 ≤ m.spent.getD u 0) && (m.waited.getD u false || decide (0 < m.spent.getD u 0)) then s.bump (PWR_STARVED u)
    else s) s
  let s := loop 5 (fun z s => if 2 ≤ s.zoneLevel z then s.bump (THM_THR_US z) 10 else s) s
  loop 24 (fun n s => if s.bit (STK_TEMP n) 10 || s.bit (STK_TEMP n) 11 then s.bump (STK_THR_US n) 10 else s) s

/-- A window passes: the timebase and the operating seconds advance 10 µs (R440, R505). -/
def Block.tick (s : Block) : Block :=
  let s := if s.start.pllOn then s.bumpPair CLK_TB_LO 10000 else s
  if s.pwr.pwrGood then { s with ice := { s.ice with secNs := s.ice.secNs + 10000 } } else s

/-- The clock monitor is at work from AWAIT_FW on (R441). -/
def Block.monitorOn (s : Block) : Bool := decide (7 ≤ s.fld MOR_START 3 0 ∧ s.fld MOR_START 3 0 ≤ 9)

/-- Is the recovery of the alternate reference set up: ALT_EN, and ALT_PORT RUNNING (R443)? -/
def Block.altPossible (s : Block) : Bool := s.bit CLK_ALT_CFG 4 && s.fld (ESK_STATE (s.fld CLK_ALT_CFG 3 0)) 1 0 == 2

/-- What the clock monitor measures: CLK_REF_FREQ, and whether the recovered reference has met its bounds for 1 ms. Both
are open values of the outside; the frequency lies within the bounds of R441 while REF_OK is 1. -/
def Block.monitor (s : Block) : Block :=
  if !s.monitorOn then s else
  let (f, s) := s.choose (if s.bit CLK_STATUS 0 then 5001 else 262144)
  let s := s.wf CLK_REF_FREQ 17 0 (if s.bit CLK_STATUS 0 then 97000 + f else f)
  let (r, s) := s.choose 2
  if s.altPossible && r == 1 then s.wb CLK_STATUS 3 true else s

/-- May a window end: the rails are up? -/
def govReady (s : Block) : Bool := s.pwr.pwrGood

/-- GOVERNOR_WINDOW: the close of a window and the opening of the next. -/
def govEffect (m : WindowMeasure) (s : Block) : Block :=
  let s := s.tick.monitor
  let s := s.govClose m
  let spent := (s.ledger 0x1A0).flight
  let s := s.govMeters m spent
  let s := loop 4 (fun d s => s.govDie m d) s
  let s := { s with pwr := { s.pwr with vcoreM := if 2 ≤ s.zoneLevel 4 then 620 else 750,
                                        outLimit := if 2 ≤ s.zoneLevel 4 then 12 else 16 } }
  s.govOpen m spent

/-- GOVERNOR_WINDOW, while the rails are up. -/
def effGovernorWindow (m : WindowMeasure) (s : Block) : Block := if govReady s then govEffect m s else s

/-- L as a write stores it (R461). -/
def clampLimit (v : Nat) : Nat := min 3600 (max 1000 v)

/-- PWR_LIMIT_WRITE (R454, R461): stored within 1,000 to 3,600 W and recorded with its source. -/
def pwrLimitEffect (i : Nat) (v : Word) (s : Block) : Block :=
  let old := s.limitW
  let s := (s.wf PWR_LIMIT 11 0 (clampLimit (v.fld 11 0))).wf PWR_LIMIT 23 16 (v.fld 23 16)
  s.event srcMoraine 0x0305 [w32 old, w32 s.limitW, w32 (if i = 0 then 1 else 2)]

/-- PWR_LIMIT_WRITE from the PF or the sideband. -/
def effPwrLimitWrite (i : Nat) (v : Word) (s : Block) : Block :=
  if i = 0 ∨ i = 64 then pwrLimitEffect i v s else s

/-- The meaning of GOVERNOR_WINDOW. -/
def execGovernorWindow (m : WindowMeasure) : State → Host.Outcome State Fault Refusal := onBlk (effGovernorWindow m)
/-- The meaning of PWR_LIMIT_WRITE. -/
def execPwrLimitWrite (i : Nat) (v : Word) : State → Host.Outcome State Fault Refusal := onBlk (effPwrLimitWrite i v)

end Sys2Proof.Machine
end

