-- ==== Sys2Proof/Machine/Numeric.lean ====
section
/-! DEFINITION. Narrow arithmetic (R30 to R56): exact dyadic numbers, the element formats, rounding, FP32
operations, the four functions of the vector unit, stochastic rounding and the quantizer of one group. -/

namespace Sys2Proof.Machine

/-! ### Exact dyadic numbers -/

/-- Zero. -/
def Dy.zero : Dy := ⟨0, 0⟩

/-- The integer that a number is in units of 2^q, for q at or below its exponent. -/
def Dy.at (a : Dy) (q : Int) : Int := a.m * 2 ^ (a.e - q).toNat

/-- The exact sum. -/
def Dy.add (a b : Dy) : Dy :=
  let q := min a.e b.e
  ⟨a.at q + b.at q, q⟩

/-- The exact product. -/
def Dy.mul (a b : Dy) : Dy := ⟨a.m * b.m, a.e + b.e⟩

/-- The negated number. -/
def Dy.neg (a : Dy) : Dy := ⟨-a.m, a.e⟩

/-- The magnitude. -/
def Dy.abs (a : Dy) : Dy := ⟨a.m.natAbs, a.e⟩

/-- The number times 2^k. -/
def Dy.scale (a : Dy) (k : Int) : Dy := ⟨a.m, a.e + k⟩

/-- Is `a ≤ b`? -/
def Dy.le (a b : Dy) : Bool :=
  let q := min a.e b.e
  decide (a.at q ≤ b.at q)

/-- Is `a < b`? -/
def Dy.lt (a b : Dy) : Bool := !b.le a

/-- The floor of the number in units of 2^q. -/
def Dy.floorAt (a : Dy) (q : Int) : Int :=
  if q ≤ a.e then a.at q else a.m / 2 ^ (q - a.e).toNat

/-! ### Floating-point formats (R38) -/

/-- A binary floating-point format: mantissa bits, bias, the code of the largest finite magnitude, the code
that an overflow gives (R56), the bit that holds the sign. -/
structure FpFmt where
  mb : Nat
  bias : Nat
  maxCode : Nat
  overCode : Nat
  signAt : Nat
  deriving DecidableEq, Repr

def fpE4M3 : FpFmt := ⟨3, 7, 0x7E, 0x7F, 7⟩
def fpE5M2 : FpFmt := ⟨2, 15, 0x7B, 0x7C, 7⟩
def fpBF16 : FpFmt := ⟨7, 127, 0x7F7F, 0x7F80, 15⟩
def fpFP32 : FpFmt := ⟨23, 127, 0x7F7FFFFF, 0x7F800000, 31⟩

/-- The floating-point format of a format code. -/
def fpOf (fmt : Nat) : FpFmt :=
  if fmt = 4 then fpE4M3 else if fmt = 5 then fpE5M2 else if fmt = 6 then fpBF16 else fpFP32

/-- The magnitude of a finite code without its sign. -/
def FpFmt.value (f : FpFmt) (c : Nat) : Dy :=
  let x := c / 2 ^ f.mb
  if x = 0 then ⟨c, 1 - (f.bias : Int) - f.mb⟩
  else ⟨2 ^ f.mb + c % 2 ^ f.mb, x - (f.bias : Int) - f.mb⟩

/-- The code of the largest magnitude at or below `a ≥ 0`, as if the exponent had no end. -/
def FpFmt.floorCode (f : FpFmt) (a : Dy) : Nat :=
  if a.m ≤ 0 then 0 else
  let x := max ((Nat.log2 a.m.natAbs : Int) + a.e) (1 - (f.bias : Int))
  ((x - (1 - (f.bias : Int))) * 2 ^ f.mb + a.floorAt (x - f.mb)).toNat

/-- A magnitude between two neighbouring codes rounds to nearest, ties to the even one (R53), or
stochastically with the 16 bits `r` (R54). `val` gives the magnitude of a code. -/
def roundCode (val : Nat → Dy) (c : Nat) (a : Dy) (r : Option Nat) : Nat :=
  let lo := val c
  if a.le lo then c else
  let hi := val (c + 1)
  let q := min (min lo.e hi.e) a.e
  let up := a.at q - lo.at q
  let gap := hi.at q - lo.at q
  match r with
  | none => if 2 * up < gap then c else if gap < 2 * up then c + 1 else if c % 2 = 0 then c else c + 1
  | some r => if (r : Int) < up * 65536 / gap then c + 1 else c

/-- Half a spacing above the largest finite magnitude: from here a magnitude overflows (R56). -/
def FpFmt.overAt (f : FpFmt) : Dy :=
  let m := f.value f.maxCode
  m.add ((m.add (f.value (f.maxCode - 1)).neg).scale (-1))

/-- A magnitude as a code of a floating-point target under R56: saturated, or overflowing. -/
def FpFmt.encode (f : FpFmt) (sat : Bool) (r : Option Nat) (a : Dy) : Nat :=
  if a.le (f.value f.maxCode) then roundCode f.value (f.floorCode a) a r
  else if sat then f.maxCode
  else if f.overAt.le a then f.overCode else f.maxCode

/-- A rounded value with its sign. -/
def FpFmt.round (f : FpFmt) (neg : Bool) (a : Dy) : Nat :=
  f.encode false none a + b2n neg * 2 ^ f.signAt

/-! ### FP32 (R38, R48) -/

/-- The canonical NaN. -/
def fNaN : Word := 0x7FC00000
/-- Infinity. -/
def fInf (neg : Bool) : Word := if neg then 0xFF800000 else 0x7F800000
/-- Zero. -/
def fZero (neg : Bool) : Word := if neg then 0x80000000 else 0

/-- An FP32 value by its kind. -/
inductive Fp where
  | nan
  | inf (neg : Bool)
  | fin (neg : Bool) (mag : Dy)
  deriving DecidableEq, Repr

/-- The value of an FP32 word. -/
def fpUnpack (w : Word) : Fp :=
  let c := w.toNat % 2 ^ 31
  if 0x7F800000 < c then .nan
  else if c = 0x7F800000 then .inf (w.bit 31) else .fin (w.bit 31) (fpFP32.value c)

/-- A signed exact number. -/
def signed (neg : Bool) (a : Dy) : Dy := if neg then a.neg else a

/-- An exact number as FP32; `z` is the sign that an exact zero takes. -/
def dyFp32 (a : Dy) (z : Bool) : Word :=
  if a.m = 0 then fZero z else w32 (fpFP32.round (decide (a.m < 0)) a.abs)

/-- Fused multiply-add with one rounding (R48). -/
def fFma (a b c : Word) : Word :=
  match fpUnpack a, fpUnpack b, fpUnpack c with
  | .nan, _, _ => fNaN
  | _, .nan, _ => fNaN
  | _, _, .nan => fNaN
  | .fin n x, .fin m y, .fin k z =>
    let p := signed (n != m) (x.mul y)
    dyFp32 (p.add (signed k z)) (if x.m = 0 ∨ y.m = 0 then (n != m) && k else false)
  | .fin _ _, .fin _ _, .inf k => fInf k
  | .inf n, .inf m, z => match z with
    | .inf k => if k = (n != m) then fInf k else fNaN
    | _ => fInf (n != m)
  | .inf n, .fin m y, z => if y.m = 0 then fNaN else match z with
    | .inf k => if k = (n != m) then fInf k else fNaN
    | _ => fInf (n != m)
  | .fin n x, .inf m, z => if x.m = 0 then fNaN else match z with
    | .inf k => if k = (n != m) then fInf k else fNaN
    | _ => fInf (n != m)

/-- Addition. -/
def fAdd (a b : Word) : Word :=
  match fpUnpack a, fpUnpack b with
  | .nan, _ => fNaN
  | _, .nan => fNaN
  | .inf n, .inf m => if n = m then fInf n else fNaN
  | .inf n, _ => fInf n
  | _, .inf m => fInf m
  | .fin n x, .fin m y =>
    dyFp32 ((signed n x).add (signed m y)) (if x.m = 0 ∧ y.m = 0 then n && m else false)

/-- The negated value. -/
def fNeg (a : Word) : Word := a ^^^ 0x80000000

/-- Subtraction. -/
def fSub (a b : Word) : Word := fAdd a (fNeg b)

/-- Multiplication. -/
def fMul (a b : Word) : Word :=
  match fpUnpack a, fpUnpack b with
  | .nan, _ => fNaN
  | _, .nan => fNaN
  | .inf n, .inf m => fInf (n != m)
  | .inf n, .fin m y => if y.m = 0 then fNaN else fInf (n != m)
  | .fin n x, .inf m => if x.m = 0 then fNaN else fInf (n != m)
  | .fin n x, .fin m y => dyFp32 ((signed n x).mul (signed m y)) (n != m)

/-- Division (R257). -/
def fDiv (a b : Word) : Word :=
  match fpUnpack a, fpUnpack b with
  | .nan, _ => fNaN
  | _, .nan => fNaN
  | .inf _, .inf _ => fNaN
  | .inf n, .fin m _ => fInf (n != m)
  | .fin n _, .inf m => fZero (n != m)
  | .fin n x, .fin m y =>
    if y.m = 0 then (if x.m = 0 then fNaN else fInf (n != m)) else
    let q : Nat := x.m.natAbs * 2 ^ 60 / y.m.natAbs
    let sticky : Nat := b2n (decide (x.m.natAbs * 2 ^ 60 % y.m.natAbs ≠ 0))
    dyFp32 (signed (n != m) ⟨((2 * q + sticky : Nat) : Int), x.e - y.e - 61⟩) (n != m)

/-- Is the word a NaN? -/
def fIsNan (a : Word) : Bool := fpUnpack a == .nan

/-- Ordered comparison; false when either is a NaN. -/
def fLt (a b : Word) : Bool :=
  match fpUnpack a, fpUnpack b with
  | .nan, _ => false
  | _, .nan => false
  | .inf n, .inf m => n && !m
  | .inf n, _ => n
  | _, .inf m => !m
  | .fin n x, .fin m y => (signed n x).lt (signed m y)

/-- Equality; false when either is a NaN. -/
def fEq (a b : Word) : Bool := !fIsNan a && !fIsNan b && !fLt a b && !fLt b a

/-- The larger value. R103 gives NaN when either operand is NaN. -/
def fMax (a b : Word) : Word := if fIsNan a || fIsNan b then fNaN else if fLt a b then b else a
/-- The smaller value. -/
def fMin (a b : Word) : Word := if fIsNan a || fIsNan b then fNaN else if fLt b a then b else a

/-- An FP32 value rounded to BF16, in the upper half of a word (R164). -/
def fBf16 (a : Word) : Word :=
  match fpUnpack a with
  | .nan => fNaN
  | .inf n => fInf n
  | .fin n x => w32 (fpBF16.round n x * 65536)

/-- An FP32 value converted to BF16 under SAT (R56); an infinity stays (R51). -/
def fBf16Sat (sat : Bool) (a : Word) : Word :=
  match fpUnpack a with
  | .fin n x => w32 ((fpBF16.encode sat none x + b2n n * 2 ^ 15) * 65536)
  | _ => fBf16 a

/-- An integer as FP32. -/
def fOfInt (i : Int) : Word := dyFp32 ⟨i, 0⟩ false

/-! ### The functions of the vector unit (R48) -/

/-- The bits of the fixed-point numbers that the functions are computed in. -/
def fixP : Nat := 256

/-- ln 2 in fixed point. -/
def fixLn2 : Nat := ((List.range 300).map fun k => 2 ^ fixP / ((k + 1) * 2 ^ (k + 1))).sum

/-- e^r for 0 ≤ r < 1 in fixed point. -/
def fixExp (r : Nat) : Nat :=
  ((List.range 80).foldl (fun (a : Nat × Nat) k => (a.1 + a.2, a.2 * r / 2 ^ fixP / (k + 1))) (0, 2 ^ fixP)).1

/-- ln v for 1 ≤ v < 2 in fixed point, by the series of the inverse hyperbolic tangent. -/
def fixLn (v : Nat) : Nat :=
  let z := (v - 2 ^ fixP) * 2 ^ fixP / (v + 2 ^ fixP)
  let z2 := z * z / 2 ^ fixP
  2 * ((List.range 90).foldl (fun (a : Nat × Nat) k => (a.1 + a.2 / (2 * k + 1), a.2 * z2 / 2 ^ fixP)) (0, z)).1

/-- The FP32 value within 2 ulp of a magnitude that the unit gives: the code at or below it, moved by −1 to
+2 (R48, log entry 2). -/
def within2 (kind : Nat) (arg : Word) (neg : Bool) (a : Dy) : Word :=
  let c := fpFP32.floorCode a + Config.ulpChoice kind arg % 4
  w32 (min 0x7F800000 (c - 1)) ||| fZero neg

/-- The exponential. -/
def fExp (a : Word) : Word :=
  match fpUnpack a with
  | .nan => fNaN
  | .inf n => if n then fZero false else fInf false
  | .fin n x =>
    if x.m = 0 then 0x3F800000
    else if (Dy.mk 200 0).le x then (if n then within2 0 a false Dy.zero else fInf false)
    else
      let t := (signed n x).floorAt (-(fixP : Int))
      let k := t / (fixLn2 : Int)
      within2 0 a false ⟨fixExp (t - k * fixLn2).toNat, k - fixP⟩

/-- The natural logarithm. -/
def fLog (a : Word) : Word :=
  match fpUnpack a with
  | .nan => fNaN
  | .inf n => if n then fNaN else fInf false
  | .fin n x =>
    if x.m = 0 then fInf true
    else if n then Config.outOfDomain 1 a
    else
      let l := Nat.log2 x.m.natAbs
      let y : Int := (fixLn (x.m.natAbs * 2 ^ (fixP - l)) : Int) + ((l : Int) + x.e) * fixLn2
      within2 1 a (decide (y < 0)) ⟨y.natAbs, -(fixP : Int)⟩

/-- The reciprocal. -/
def fRcp (a : Word) : Word :=
  match fpUnpack a with
  | .nan => fNaN
  | .inf n => fZero n
  | .fin n x =>
    if x.m = 0 then fInf n else within2 2 a n ⟨(2 ^ fixP / x.m.natAbs : Nat), -x.e - fixP⟩

/-- The reciprocal square root. -/
def fRsqrt (a : Word) : Word :=
  match fpUnpack a with
  | .nan => fNaN
  | .inf n => if n then fNaN else fZero false
  | .fin n x =>
    if x.m = 0 then fInf n
    else if n then Config.outOfDomain 3 a
    else
      let (m, e) := if x.e % 2 = 0 then (x.m.natAbs, x.e) else (x.m.natAbs * 2, x.e - 1)
      within2 3 a false ⟨(Nat.sqrt (2 ^ (2 * fixP) / m) : Nat), -(e / 2) - fixP⟩

/-! ### The element formats (R30 to R38) -/

/-- Bits of an element. -/
def fmtBits (fmt : Nat) : Nat :=
  if fmt = 1 then 4 else if fmt = 2 then 3 else if fmt = 3 then 2
  else if fmt = 4 ∨ fmt = 5 ∨ fmt = 8 then 8 else if fmt = 6 then 16 else 32

/-- Is the code one of R30? -/
def fmtOk (fmt : Nat) : Bool := decide (1 ≤ fmt) && decide (fmt ≤ 9)
/-- N4, N3 or T2. -/
def fmtNarrow (fmt : Nat) : Bool := decide (1 ≤ fmt) && decide (fmt ≤ 3)
/-- E4M3 or E5M2. -/
def fmtFp8 (fmt : Nat) : Bool := fmt == 4 || fmt == 5

/-- The magnitude of a code of N4, N3 or T2, in the order of the magnitudes (R32, R35, R37). -/
def narrowMag (fmt : Nat) (book : Word) (c : Nat) : Dy :=
  if fmt = 1 then ⟨([0, 1, 2, 3, 4, 6, 8, 12].getD c 12 : Nat), -1⟩
  else if fmt = 2 then ⟨(bitsOf book.toNat (8 * (min c 3) + 7) (8 * (min c 3)) : Nat), -4⟩
  else ⟨(min c 1 : Nat), 0⟩

/-- The number of magnitudes of a narrow format. -/
def narrowCount (fmt : Nat) : Nat := if fmt = 1 then 8 else if fmt = 2 then 4 else 2

/-- Does an N3 codebook satisfy R36? -/
def bookOk (book : Word) : Bool :=
  decide (book.fld 7 0 < book.fld 15 8) && decide (book.fld 15 8 < book.fld 23 16) &&
  decide (book.fld 23 16 < book.fld 31 24)

/-- An element as the arithmetic sees it: an exact number, or none for a special value (R49). -/
abbrev Elem := Option Dy

/-- The value of a code before its scales (R32 to R38). -/
def codeValue (fmt : Nat) (book : Word) (c : Nat) : Elem :=
  if fmt = 1 then some (signed (c.testBit 3) (narrowMag 1 0 (c % 8)))
  else if fmt = 2 then some (signed (c.testBit 2) (narrowMag 2 book (c % 4)))
  else if fmt = 3 then some (if c = 1 then ⟨1, 0⟩ else if c = 3 then ⟨-1, 0⟩ else Dy.zero)
  else if fmt = 8 then some ⟨signExt 8 c, 0⟩
  else if fmt = 9 then some ⟨signExt 32 c, 0⟩
  else
    let f := fpOf fmt
    let mag := c % 2 ^ f.signAt
    if f.maxCode < mag then none else some (signed (c.testBit f.signAt) (f.value mag))

/-- Is the code a T2 0b10 (R37)? -/
def badCode (fmt c : Nat) : Bool := fmt == 3 && c == 2

/-- Element `i` of packed codes whose first byte is at `a`, lowest bits first (R33, R35, R37). -/
def codeAt (read : Nat → Byte) (fmt a i : Nat) : Nat :=
  let b := fmtBits fmt
  let o := i * b
  let n := leNat ((List.range 5).map fun k => read (a + o / 8 + k))
  (n / 2 ^ (o % 8)) % 2 ^ b

/-- A block scale applied (R31). -/
def scaled (s : Byte) (x : Elem) : Elem :=
  if s = 0xFF then none else x.map fun d => d.scale ((s.toNat : Int) - 127)

/-- A BF16 region scale as a number, when it is positive and normal (R39). -/
def regionScale (h : Nat) : Option Dy :=
  let x := h / 128
  if 1 ≤ x ∧ x ≤ 254 then some (fpBF16.value h) else none

/-- The sum of two elements; a special value makes it special (R44, R49). -/
def exactAdd (a x : Elem) : Elem :=
  match a, x with
  | some a, some x => some (a.add x)
  | _, _ => none

/-- The sum of a list of elements. -/
def exactSum (l : List Elem) : Elem := l.foldl exactAdd (some Dy.zero)

/-- The product of two elements. -/
def exactMul (a b : Elem) : Elem :=
  match a, b with
  | some a, some b => some (a.mul b)
  | _, _ => none

/-- An exact result as FP32, a special one as the canonical NaN (R45, R49). -/
def elemFp32 (a : Elem) : Word :=
  match a with
  | some d => dyFp32 d false
  | none => fNaN

/-! ### Sidecars (R40 to R42) -/

/-- The 12 bytes of a record read. -/
def sidecarOf (bs : List Byte) : Sidecar :=
  let n := leNat bs
  { count := bitsOf n 90 88,
    entries := (List.range 4).map fun i => (bitsOf n (16 * i + 15) (16 * i), bitsOf n (64 + 6 * i + 5) (64 + 6 * i)) }

/-- The bytes of a record. -/
def Sidecar.bytes (x : Sidecar) : List Byte :=
  let es := (x.entries ++ List.replicate 4 (0, 0)).take 4
  let n := (List.range 4).foldl (fun a i =>
    let e := es.getD i (0, 0)
    a + e.1 % 65536 * 2 ^ (16 * i) + e.2 % 64 * 2 ^ (64 + 6 * i)) (x.count % 8 * 2 ^ 88)
  leBytes 12 n

/-- What the valid outliers add to an element of the group (R41). -/
def Sidecar.at (x : Sidecar) (i : Nat) : Elem :=
  exactSum ((x.entries.take (min x.count 4)).filterMap fun e => if e.2 = i then some (codeValue 6 0 e.1) else none)

/-! ### Stochastic rounding (R54) -/

/-- The mixing function. -/
def mix (k c : Nat) : Nat :=
  let m := 2 ^ 64
  let x := (c ^^^ k) % m
  let x := ((x ^^^ (x / 2 ^ 29)) * 0xA3B195C42F6D8E07) % m
  let x := ((x ^^^ (x / 2 ^ 32)) * 0x5C1E6D93B8F40A29) % m
  x ^^^ (x / 2 ^ 31)

/-- The 16 bits for one element. -/
def srBits (key handle qseq idx : Nat) : Nat :=
  let k2 := mix key (handle * 2 ^ 32 + qseq)
  (mix k2 (idx / 4) / 2 ^ (16 * (idx % 4))) % 65536

/-! ### The quantizer (R51 to R56) -/

/-- What a quantize command fixes for all its blocks: target format, codebook, rounding key (none for
nearest-even), saturation, FLOOR, static scales. -/
structure QuantMode where
  fmt : Nat
  book : Word
  stoch : Bool
  sat : Bool
  floor : Bool
  static : Bool
  deriving DecidableEq, Repr

/-- The largest finite magnitude of a target (R52). -/
def quantMax (fmt : Nat) (book : Word) : Dy :=
  if fmtNarrow fmt then narrowMag fmt book (narrowCount fmt - 1) else (fpOf fmt).value (fpOf fmt).maxCode

/-- The exponent of the leading bit of a positive number. -/
def Dy.lead (a : Dy) : Int := (Nat.log2 a.m.natAbs : Int) + a.e

/-- The dynamic scale exponent of a block with largest magnitude `amax` (R52). -/
def dynExp (q : QuantMode) (amax : Dy) : Int :=
  let big := quantMax q.fmt q.book
  let e := if amax.m = 0 then -127
    else if q.floor then amax.lead - big.lead
    else
      let e := amax.lead - big.lead
      if amax.le (big.scale e) then e else e + 1
  max (-127) (min 127 e)

/-- The code of one scaled magnitude without its sign, and whether it was clipped (R53 to R56). -/
def quantMag (q : QuantMode) (r : Nat) (a : Dy) : Nat × Bool :=
  let big := quantMax q.fmt q.book
  let rr := if q.stoch then some r else none
  if fmtNarrow q.fmt then
    let n := narrowCount q.fmt
    if big.lt a then (n - 1, true)
    else
      let c := ((List.range n).filter fun k => (narrowMag q.fmt q.book k).le a).length - 1
      (if a.le (narrowMag q.fmt q.book 0) then 0 else roundCode (narrowMag q.fmt q.book) c a rr, false)
  else ((fpOf q.fmt).encode q.sat rr a, big.lt a)

/-- A code with its sign (R34, R56). -/
def quantSign (q : QuantMode) (neg : Bool) (c : Nat) : Nat :=
  if q.fmt = 1 then (if neg ∧ c ≠ 0 then 8 + c else c)
  else if q.fmt = 2 then (if neg ∧ (narrowMag 2 q.book c).m ≠ 0 then 4 + c else c)
  else if q.fmt = 3 then (if c = 0 then 0 else if neg then 3 else 1)
  else c + b2n neg * 2 ^ (fpOf q.fmt).signAt

/-- The result of a block: its scale byte, its codes, how many were clipped, whether it is a NaN block. -/
structure QuantBlock where
  scale : Byte
  codes : List Nat
  clipped : Nat
  nan : Bool
  deriving DecidableEq, Repr

/-- One block of FP32 source values (R52): `given` is the static exponent byte, `out` tells the positions
taken as outliers, `rand` the 16 bits of each element. -/
def quantBlock (q : QuantMode) (given : Byte) (out : Nat → Bool) (rand : Nat → Nat) (xs : List Word) : QuantBlock :=
  let vals := xs.map fpUnpack
  let special := vals.any fun | .fin _ _ => false | _ => true
  if special then { scale := 0xFF, codes := xs.map fun _ => 0, clipped := 0, nan := true } else
  let mags := vals.map fun | .fin n a => (n, a) | _ => (false, Dy.zero)
  let amax := (mags.zipIdx.filter fun p => !out p.2).foldl (fun m p => if m.lt p.1.2 then p.1.2 else m) Dy.zero
  let e : Int := if q.static then max (-127) (min 127 ((given.toNat : Int) - 127)) else dynExp q amax
  let rs := mags.zipIdx.map fun p =>
    if out p.2 then (0, false)
    else
      let (c, k) := quantMag q (rand p.2) (p.1.2.scale (-e))
      (quantSign q p.1.1 c, k)
  { scale := BitVec.ofInt 8 (e + 127), codes := rs.map (·.1), clipped := (rs.filter (·.2)).length, nan := false }

/-- The outliers of a 64-element group: up to `k` positions of largest magnitude among the blocks without a
special value, the lower index first (R55). A written sidecar holds them in this order, in which they are chosen: DESIGN
CHOICE, log entry 161. -/
def groupOutliers (k : Nat) (xs : List Word) : List Nat :=
  let special (b : Nat) := ((xs.drop (32 * b)).take 32).any fun w => match fpUnpack w with | .fin _ _ => false | _ => true
  let cand := (List.range xs.length).filter fun i => !special (i / 32)
  let mag (i : Nat) : Nat := (xs.getD i 0).toNat % 2 ^ 31
  (loop k (fun _ taken =>
    match (cand.filter fun i => !taken.contains i).foldl (fun (b : Option Nat) i =>
        match b with | none => some i | some j => if mag j < mag i then some i else some j) none with
    | some i => taken ++ [i]
    | none => taken) ([] : List Nat))

/-- Codes packed into bytes, lowest bits first. -/
def packCodes (bits : Nat) (cs : List Nat) : List Byte :=
  let n := cs.foldr (fun c a => a * 2 ^ bits + c % 2 ^ bits) 0
  leBytes (ceilDiv (bits * cs.length) 8) n

end Sys2Proof.Machine
end

