-- ==== Sys2Proof/Machine/Place.lean ====
section
/-! DEFINITION. Where things lie: the parts of a partition, the sections and pieces of a tensor object, frames,
bank-group pages and the free room of a stack (R67 to R76, R84 to R92, R531). -/

namespace Sys2Proof.Machine

/-- A frame, in bytes (R74). -/
def frameBytes : Nat := 2097152
/-- A page, in bytes. -/
def pageBytes : Nat := 65536

/-! ### The parts of a partition (R307) -/

/-- The bits set in a mask, below `n`. -/
def maskBits (m n : Nat) : List Nat := (List.range n).filter fun i => m.testBit i

/-- The dies of a partition, in ascending order. -/
def Part.dieList (p : Part) : List Nat := if p.dies = 0 then [p.die] else maskBits p.dies 4

/-- The clusters that the partition was given, module-wide numbers. -/
def Part.clusterList (p : Part) : List Nat :=
  if p.dies = 0 then (maskBits p.clusters 8).map (8 * p.die + ·)
  else p.dieList.flatMap fun d => (List.range 8).map (8 * d + ·)

/-- The channel group numbers. -/
def Part.groupList (p : Part) : List Nat := if p.dies = 0 then maskBits p.groups 8 else List.range 8

/-- Compute stacks in ascending order. -/
def Part.compute (p : Part) : List Nat := p.dieList.flatMap fun d => (List.range 4).map (6 * d + ·)
/-- Capacity stacks in ascending order. -/
def Part.capacity (p : Part) : List Nat := p.dieList.flatMap fun d => [6 * d + 4, 6 * d + 5]

/-- The partition with a number, if it exists. -/
def Block.part (s : Block) (p : Nat) : Option Part := kget s.parts p

/-- Is the partition RUNNING? -/
def Block.partRunning (s : Block) (p : Nat) : Bool := s.fld (SCH_P_STATE p) 1 0 == 2

/-- Is a cluster out of service (R169)? -/
def Block.clusterOos (s : Block) (c : Nat) : Bool := s.bit (SRC_CLUSTER_OOS (c / 8)) (c % 8)

/-- The clusters of a partition in service. -/
def Block.partClusters (s : Block) (p : Part) : List Nat := p.clusterList.filter fun c => !s.clusterOos c

/-- The partition of a function, 0x3F for none (R311). -/
def Block.fnPart (s : Block) (f : Nat) : Nat := s.fld (SCH_C_CFG f) 5 0

/-- The compute stack index of a stack. -/
def stackIndex (n : Nat) : Nat := (n / 6) * 4 + n % 6
/-- Is the stack a capacity stack (R10)? -/
def isCapacity (n : Nat) : Bool := decide (4 ≤ n % 6)
/-- The stack of a Firn unit. -/
def unitStack (u : Nat) : Nat := computeStack (u / 256)
/-- The channel group of a Firn unit. -/
def unitGroup (u : Nat) : Nat := u % 16 / 2
/-- Is the unit's logic in service? -/
def Block.unitOn (s : Block) (u : Nat) : Bool := s.bit (FIRN_ID u) 12

/-- The Firn units of a partition, in ascending ID. -/
def Part.units (p : Part) : List Nat :=
  p.compute.flatMap fun n =>
    ((List.range 256).map (stackIndex n * 256 + ·)).filter fun u => p.groupList.contains (unitGroup u)

/-- The state of a channel group (R114). -/
def Block.cgState (s : Block) (n g : Nat) : Nat := s.fld (STK_STATE n) (2 * g + 1) (2 * g)
/-- Does PLACE use a channel group: is it STARTING or RUNNING (R428)? -/
def Block.groupUsed (s : Block) (n g : Nat) : Bool := s.cgState n g == 1 || s.cgState n g == 2

/-- The enabled Firn units of a partition, in ascending ID (R69). -/
def Block.firnUnits (s : Block) (p : Part) : List Nat := p.units.filter s.unitOn

/-- The enabled units of a partition, in groups of PLACE's use. -/
def Block.partUnits (s : Block) (p : Part) : List Nat :=
  (s.firnUnits p).filter fun u => s.groupUsed (unitStack u) (unitGroup u)

/-- The channel groups over which PLACE stripes a frame in a stack, bit g for group g (R90, R92). -/
def Block.stripeGroups (s : Block) (p : Part) (n : Nat) : Nat :=
  ((p.groupList.filter (s.groupUsed n)).map (2 ^ ·)).sum

/-- The partition that holds a channel group, 0x3F for none. -/
def Block.cgPart (s : Block) (n g : Nat) : Nat := s.fld (STK_PART_CG n g) (8 * (g % 4) + 5) (8 * (g % 4))

/-- The partition that holds a unit. -/
def Block.unitPart (s : Block) (u : Nat) : Nat := s.cgPart (unitStack u) (unitGroup u)

/-! ### Descriptors (R67) -/

/-- FORMAT. -/
def dFmt (d : List Word) : Nat := (mreg d 0).fld 7 0
/-- NDIM. -/
def dNdim (d : List Word) : Nat := (mreg d 0).fld 11 8
/-- LAYOUT. -/
def dLayout (d : List Word) : Nat := (mreg d 0).fld 13 12
/-- REGION_SCALES. -/
def dRegion (d : List Word) : Bool := (mreg d 0).bit 14
/-- SIDECARS. -/
def dSide (d : List Word) : Bool := (mreg d 0).bit 15
/-- SHARED. -/
def dShared (d : List Word) : Bool := (mreg d 0).bit 16
/-- FP8_SCALES. -/
def dFp8s (d : List Word) : Bool := (mreg d 0).bit 17
/-- The extent of dimension `i`. -/
def dShape (d : List Word) (i : Nat) : Nat := (mreg d (2 + i)).toNat
/-- The sharding of dimension `i` (R69). -/
def dShard (d : List Word) (i : Nat) : Nat := (mreg d 10).fld (4 * i + 3) (4 * i)
/-- HINTS. -/
def dHints (d : List Word) : Word := mreg d 11
/-- The innermost extent. -/
def dInner (d : List Word) : Nat := dShape d (dNdim d - 1)
/-- Does the object carry block scales (R30, R67)? -/
def dScaled (d : List Word) : Bool := fmtNarrow (dFmt d) || (fmtFp8 (dFmt d) && dFp8s d)
/-- The dimensions that a sharding value names. -/
def dimsOf (d : List Word) (v : Nat) : List Nat := (List.range (dNdim d)).filter fun i => dShard d i == v
/-- Has the object a dimension with this sharding? -/
def dHas (d : List Word) (v : Nat) : Bool := !(dimsOf d v).isEmpty

/-! ### Sections (R73, R74) -/

/-- An axis of a section: the dimension it runs along, its count, and the ratio that turns an index of the
dimension into a position on the axis. -/
structure Axis where
  dim : Nat
  count : Nat
  num : Nat
  den : Nat
  deriving DecidableEq, Repr

/-- The padded innermost extent. -/
def dPad (d : List Word) : Nat :=
  if dScaled d then roundUp (dInner d) (if dSide d then 64 else 32) else dInner d

/-- Bytes of one row of the innermost dimension. -/
def dRowBytes (d : List Word) : Nat :=
  let r := ceilDiv (dPad d * fmtBits (dFmt d)) 8
  if dLayout d = 2 then roundUp r 256 else r

/-- The outer axes, one for each index of the first `k` dimensions. -/
def outerAxes (d : List Word) (k : Nat) : List Axis := (List.range k).map fun i => ⟨i, dShape d i, 1, 1⟩

/-- The axes of Floe tiles, and of regions. -/
def tileAxes (d : List Word) : List Axis :=
  let n := dNdim d
  outerAxes d (n - 2) ++ (if 2 ≤ n then [⟨n - 2, ceilDiv (dShape d (n - 2)) 128, 1, 128⟩] else []) ++
  [⟨n - 1, ceilDiv (dInner d) 128, 1, 128⟩]

/-- Axes and unit size of section `k`: 0 DATA, 1 SCALE, 2 SIDECAR, 3 REGION; a unit of 0 when absent. -/
def section_ (d : List Word) (k : Nat) : List Axis × Nat :=
  let n := dNdim d
  let b := fmtBits (dFmt d)
  if k = 3 then (tileAxes d, if dRegion d then 2 else 0)
  else if dLayout d = 1 then
    (tileAxes d, if k = 0 then 2048 * b else if k = 1 then (if dScaled d then 512 else 0) else if dSide d then 3072 else 0)
  else if k = 0 then (outerAxes d (n - 1) ++ [⟨n - 1, dRowBytes d, b, 8⟩], 1)
  else if k = 1 then (outerAxes d (n - 1) ++ [⟨n - 1, dPad d / 32, 1, 32⟩], if dScaled d then 1 else 0)
  else (outerAxes d (n - 1) ++ [⟨n - 1, dPad d / 64, 1, 64⟩], if dSide d then 12 else 0)

/-- The product of the counts of axes. -/
def axesCount (l : List Axis) : Nat := l.foldl (fun a x => a * x.count) 1

/-- Bytes of a section. -/
def sectSize (d : List Word) (k : Nat) : Nat := (section_ d k).2 * axesCount (section_ d k).1
/-- Frames of a section in the global linear view. -/
def sectFrames (d : List Word) (k : Nat) : Nat := ceilDiv (sectSize d k) frameBytes
/-- The offset at which a section starts. -/
def sectBase (d : List Word) (k : Nat) : Nat := ((List.range k).map (sectFrames d)).sum * frameBytes
/-- The end of the global linear view (R75). -/
def viewEnd (d : List Word) : Nat := sectBase d 4

/-! ### Pieces (R69 to R71) -/

/-- The granule of dimension `i` (R71). -/
def granule (d : List Word) (i : Nat) : Nat :=
  let n := dNdim d
  if dLayout d = 1 ∧ n ≤ i + 2 then 128
  else
    let base := if i + 1 = n ∧ dScaled d then (if dSide d then 64 else 32) else 1
    let bits := if i + 1 = n then fmtBits (dFmt d)
      else 8 * (section_ d 0).2 * axesCount ((section_ d 0).1.filter fun a => decide (i < a.dim))
    base * (2048 / Nat.gcd (base * bits) 2048)

/-- The length of a piece along dimension `i` cut into `P` (R71). -/
def pieceLen (d : List Word) (i P : Nat) : Nat := roundUp (ceilDiv (dShape d i) P) (granule d i)

/-- The pieces along dimension `i` of an object, as its creation fixed them. -/
def Obj.parts (o : Obj) (i : Nat) : Nat := max 1 (o.split.getD i 1)
/-- The piece length along dimension `i`. -/
def Obj.len (o : Obj) (i : Nat) : Nat := if o.parts i = 1 then dShape o.desc i else pieceLen o.desc i (o.parts i)
/-- The non-empty pieces along dimension `i`. -/
def Obj.live (o : Obj) (i : Nat) : Nat := ceilDiv (dShape o.desc i) (o.len i)

/-- The dimensions in the order in which pieces are numbered: the module split, the die split, the others. -/
def splitOrder (d : List Word) : List Nat := dimsOf d 5 ++ dimsOf d 2 ++ dimsOf d 3 ++ dimsOf d 4

/-- The number of a piece from its coordinate along each dimension. -/
def Obj.number (o : Obj) (coord : Nat → Nat) : Nat :=
  (splitOrder o.desc).foldl (fun a i => a * o.parts i + coord i) 0

/-- The coordinate of piece `k` along dimension `i`. -/
def Obj.coord (o : Obj) (k i : Nat) : Nat :=
  let later := (splitOrder o.desc).dropWhile (· != i) |>.drop 1
  if (splitOrder o.desc).contains i then (k / (later.foldl (fun a j => a * o.parts j) 1)) % o.parts i else 0

/-- The number of pieces, empty ones included, of one copy. -/
def Obj.pieceCount (o : Obj) : Nat := (splitOrder o.desc).foldl (fun a i => a * o.parts i) 1

/-- Is piece `k` empty (R71)? -/
def Obj.emptyPiece (o : Obj) (k : Nat) : Bool :=
  (splitOrder o.desc).any fun i => decide (dShape o.desc i ≤ o.coord k i * o.len i)

/-- Where piece `k` starts and ends on an axis. -/
def Obj.axisRange (o : Obj) (k : Nat) (a : Axis) : Nat × Nat :=
  if o.parts a.dim = 1 then (0, a.count) else
  let i0 := o.coord k a.dim * o.len a.dim
  let i1 := i0 + o.len a.dim
  let hi := if dShape o.desc a.dim ≤ i1 then a.count else ceilDiv (i1 * a.num) a.den
  (min a.count (i0 * a.num / a.den), min a.count hi)

/-- Bytes of section `k` that belong to piece `pc`. -/
def Obj.pieceSize (o : Obj) (pc k : Nat) : Nat :=
  let x := section_ o.desc k
  x.2 * x.1.foldl (fun n a => let r := o.axisRange pc a; n * (r.2 - r.1)) 1

/-- The coordinate on each axis of unit `u` of a section, first axis first. -/
def axisCoords : List Axis → Nat → List Nat
  | [], _ => []
  | a :: rest, u =>
    let inner := axesCount rest
    (u / max 1 inner) % max 1 a.count :: axisCoords rest (u % max 1 inner)

/-- The section in which a view offset lies, if it lies in one. -/
def sectOf (d : List Word) (off : Nat) : Option Nat :=
  (List.range 4).find? fun k => decide (sectBase d k ≤ off) && decide (off < sectBase d k + sectSize d k)

/-- The piece that holds a view offset, the section, and the byte within the piece's part of it. A region
scale that several pieces hold is named in the first of them. -/
def Obj.locate (o : Obj) (off : Nat) : Option (Nat × Nat × Nat) :=
  match sectOf o.desc off with
  | none => none
  | some k =>
    let (axes, unit) := section_ o.desc k
    let rel := off - sectBase o.desc k
    let cs := axes.zip (axisCoords axes (rel / unit))
    let pc := o.number fun i =>
      match cs.find? (fun p => p.1.dim == i) with
      | some (a, x) => min (o.live i - 1) (x * a.den / a.num / max 1 (o.len i))
      | none => 0
    let loc := cs.foldl (fun n p => let r := o.axisRange pc p.1; n * (r.2 - r.1) + (p.2 - r.1)) 0
    some (pc, k, loc * unit + rel % unit)

/-- The view offset of byte `b` of the part of section `k` that piece `pc` holds (R531). -/
def Obj.pieceOffset (o : Obj) (pc k b : Nat) : Option Nat :=
  if o.pieceSize pc k ≤ b then none else
  let (axes, unit) := section_ o.desc k
  let local_ := axes.map fun a => let r := o.axisRange pc a; { a with count := r.2 - r.1 }
  let cs := axes.zip (axisCoords local_ (b / unit))
  let g := cs.foldl (fun n p => n * p.1.count + ((o.axisRange pc p.1).1 + p.2)) 0
  some (sectBase o.desc k + g * unit + b % unit)

/-- Frames of section `k` in piece `pc`. -/
def Obj.pieceFrames (o : Obj) (pc k : Nat) : Nat := ceilDiv (o.pieceSize pc k) frameBytes

/-- The frame of a view offset, as an index of the object's frames. `copy` names the copy of a REPLICATE
object. -/
def Obj.frameAt (o : Obj) (copy off : Nat) : Option Nat :=
  match o.locate off with
  | none => none
  | some (pc, k, b) =>
    let idx := ((List.range k).map (o.pieceFrames pc)).sum + b / frameBytes
    o.frames.findIdx? fun f => f.piece == copy * o.pieceCount + pc && f.idx == idx

/-- Does a frame hold a view offset? -/
def Obj.frameHolds (o : Obj) (fr off : Nat) : Bool :=
  match o.frames[fr]? with
  | none => false
  | some f => o.frameAt (f.piece / max 1 o.pieceCount) off == some fr

/-- Is every frame of the object a Firn frame (R90)? -/
def Obj.firn (o : Obj) : Bool := dLayout o.desc == 2 || dHas o.desc 4

/-- The channels of a frame in ascending order: those of its groups, or that of its bank group (R88 to R90). -/
def frameChannels (firn : Bool) (f : Frame) : List Nat :=
  if firn then [f.unit % 16] else (maskBits f.groups 8).flatMap fun g => [2 * g, 2 * g + 1]

/-- The channel that holds the 256 B unit of byte `b` of a frame: the units of a striped frame go to its channels in
turn (R90). -/
def frameChannel (firn : Bool) (f : Frame) (b : Nat) : Nat :=
  let l := frameChannels firn f
  l.getD (b % frameBytes / 256 % max 1 l.length) 0

/-- The byte of a piece's frame at which a view offset lies. -/
def Obj.frameByte (o : Obj) (off : Nat) : Nat :=
  match o.locate off with
  | some (_, _, b) => b % frameBytes
  | none => 0

/-- The channel group that holds the 256 B unit of a view offset in one copy, and its stack. -/
def Obj.groupAt (o : Obj) (copy off : Nat) : Option (Nat × Nat) :=
  ((o.frameAt copy off).bind fun i => o.frames[i]?).map fun f =>
    (f.stack, frameChannel o.firn f (o.frameByte off) / 2)

/-! ### Room in a stack -/

/-- Pages of a channel group of a stack (R89). -/
def groupPages (n : Nat) : Nat := if isCapacity n then 131072 else 98304

/-- The repairs of a stack. -/
def StackErr.reset : StackErr := { rows := [], spares := [], paths := [], retired := [], groupsDown := [] }
/-- The repairs of a stack. -/
def Block.stackErr (s : Block) (n : Nat) : StackErr := tget StackErr.reset s.err.stk n

/-- Must a channel group stay STOPPED until a cold start (R474)? -/
def Block.groupDown (s : Block) (n g : Nat) : Bool := (s.stackErr n).groupsDown.contains g

/-- PLACE starts a STOPPED Firn set before it places a Firn frame there (R145). -/
def Block.wakeSet (s : Block) (u : Nat) : Block :=
  let g := unitGroup u
  if s.fld (STK_FIRN_SET (unitStack u)) (2 * g + 1) (2 * g) = 0 then s.wf (STK_FIRN_SET (unitStack u)) (2 * g + 1) (2 * g) 1 else s

/-- Pages that a partition has in a stack, in groups of PLACE's use, less the retired frames. -/
def Block.stackPages (s : Block) (p : Part) (n : Nat) : Nat :=
  if (p.compute ++ p.capacity).contains n then
    (p.groupList.filter (s.groupUsed n)).length * groupPages n -
      32 * ((s.stackErr n).retired.filter p.groupList.contains).length
  else 0

/-- Frames of the partition's objects in a stack. -/
def Block.stackFrames (s : Block) (p n : Nat) : Nat :=
  match kget s.objs p with
  | none => 0
  | some os => (os.live.map fun e => (e.2.frames.filter fun f => f.stack == n).length).sum

/-- The places a page takes: its own and the destination of an open copy. -/
def Page.places (g : Page) : List PageLoc := g.loc :: g.dest.toList

/-- The stack of a place of the module. -/
def locStack : PageLoc → Option Nat
  | .compute u _ => some (unitStack u)
  | .capacity m _ => some m
  | _ => none

/-- Is a place in the stack? -/
def locIn (n : Nat) (l : PageLoc) : Bool := locStack l == some n

/-- The channel group of a place of the module: that of its bank group, or of its page among the groups' pages. -/
def locGroup : PageLoc → Nat
  | .compute u _ => unitGroup u
  | .capacity _ k => k / 131072
  | _ => 0

/-- The 2 MiB frame of a place, for its access count (R110). -/
def locFrame : PageLoc → Option Nat
  | .compute u g => some (u * 96 + g / 32)
  | .capacity m k => some (393216 + m * 32768 + k / 32)
  | _ => none

/-- The Snowpack of a partition. -/
def Snow.empty : Snow :=
  { classes := [], seqs := [], gens := [], pages := [], nodes := [], nsKeys := [], nsOf := [], arenas := [], counts := [],
    pressed := false, swapping := false }

/-- The Snowpack of a partition. -/
def Block.snowOf (s : Block) (p : Nat) : Snow := tget Snow.empty s.snow p
/-- The Snowpack of a partition set. -/
def Block.setSnow (s : Block) (p : Nat) (w : Snow) : Block := { s with snow := tset Snow.empty s.snow p w }

/-- Pages of the Snowpack in a stack. -/
def Block.stackKv (s : Block) (p n : Nat) : Nat :=
  ((s.snowOf p).pages.map fun e => (e.2.places.filter (locIn n)).length).sum

/-- Pages free in a stack of a partition: all that no frame and no page takes. -/
def Block.stackFree (s : Block) (pn : Nat) (p : Part) (n : Nat) : Nat :=
  s.stackPages p n - 32 * s.stackFrames pn n - s.stackKv pn n

/-- Pages free in a tier: 0 compute, 1 capacity. -/
def Block.tierFree (s : Block) (pn : Nat) (p : Part) (t : Nat) : Nat :=
  ((if t = 0 then p.compute else p.capacity).map (s.stackFree pn p)).sum

/-- Is a page of a unit's bank group taken? -/
def Block.unitPageUsed (s : Block) (pn u g : Nat) : Bool :=
  ((s.snowOf pn).pages.any fun e => e.2.places.any fun | .compute v h => v == u && h == g | _ => false) ||
  (match kget s.objs pn with
   | none => false
   | some os => os.live.any fun e => e.2.frames.any fun f =>
       e.2.firn && f.unit == u && decide (f.page ≤ g) && decide (g < f.page + 32))

/-- The free pages of a capacity stack of a partition, below a bound on their number, when it has room. -/
def Block.capacityPages (s : Block) (pn : Nat) (p : Part) (n : Nat) : List Nat :=
  if s.stackFree pn p n = 0 then [] else
  let used := (s.snowOf pn).pages.flatMap fun e => e.2.places.filterMap fun | .capacity m k => if m = n then some k else none | _ => none
  (p.groupList.filter (s.groupUsed n)).flatMap fun g =>
    ((List.range (min 131072 (used.length + 32))).map (131072 * g + ·)).filter fun k => !used.contains k

/-- The free pages of a unit's bank group, when its stack has room. -/
def Block.unitFree (s : Block) (pn : Nat) (p : Part) (u : Nat) : List Nat :=
  if s.stackFree pn p (unitStack u) = 0 then [] else (List.range 3072).filter fun g => !s.unitPageUsed pn u g

/-- The frame-aligned starts at which `k` free frames follow one another in a bank group. -/
def Block.unitRuns (s : Block) (pn : Nat) (p : Part) (u k : Nat) : List Nat :=
  if s.stackFree pn p (unitStack u) < 32 * k then [] else
  ((List.range 96).map (32 * ·)).filter fun g =>
    decide (g + 32 * k ≤ 3072) && (List.range (32 * k)).all fun j => !s.unitPageUsed pn u (g + j)

/-- The ledger of Snowpack pages of a partition and tier. -/
def pageLedger (p t : Nat) : Nat := 0x100 + 4 * p + t

/-- The tier of a stack. -/
def stackTier (n : Nat) : Nat := if isCapacity n then 1 else 0

end Sys2Proof.Machine
end

