-- ==== Sys2Proof/Machine/Objects.lean ====
section
/-! DEFINITION. Tensor objects: handles, creation and destruction, the caches on the way to a stack, reads and
writes at the point of coherence, poison and re-fetches, and the TENSOR messages (R65 to R76, R87, R97 to
R102, R275 to R282, R466 to R470, R531). -/

namespace Sys2Proof.Machine

/-! ### Handles (R65, R66) -/

/-- The slot of a handle. -/
def hSlot (h : Word) : Nat := h.fld 23 0
/-- The generation of a handle. -/
def hGen (h : Word) : Nat := h.fld 31 24
/-- The handle of a slot and generation. -/
def mkHandle (slot gen : Nat) : Word := w32 (gen % 256 * 16777216 + slot % 16777216)

/-- The slots of a partition. -/
def Objects.empty : Objects := { live := [], gens := [] }
/-- The slots of a partition. -/
def Block.objects (s : Block) (p : Nat) : Objects := tget Objects.empty s.objs p
/-- The slots of a partition set. -/
def Block.setObjects (s : Block) (p : Nat) (o : Objects) : Block := { s with objs := tset Objects.empty s.objs p o }
/-- The object in a slot. -/
def Block.obj (s : Block) (p slot : Nat) : Option Obj := kget (s.objects p).live slot
/-- The object in a slot set. -/
def Block.setObj (s : Block) (p slot : Nat) (o : Obj) : Block :=
  s.setObjects p { s.objects p with live := kput (s.objects p).live slot o }
/-- The object in a slot changed. -/
def Block.modObj (s : Block) (p slot : Nat) (f : Obj → Obj) : Block :=
  s.setObjects p { s.objects p with live := kmod (s.objects p).live slot f }

/-- The object that a handle names, when the handle is current. Slots above the handle's range hold save
areas and have no handle. -/
def Block.byHandle (s : Block) (p : Nat) (h : Word) : Option Obj :=
  match s.obj p (hSlot h) with
  | some o => if o.gen = hGen h ∧ hSlot h ≠ 0 then some o else none
  | none => none

/-- May function `f`, in a job of bundle `b` (0 for none), name the object (R66)? -/
def Obj.mayName (o : Obj) (f b : Nat) : Bool :=
  o.owner == f || dShared o.desc || (decide (b ≠ 0) && o.bundle == b)

/-- The status with which naming a handle ends, if it does. -/
def Block.nameStatus (s : Block) (p f b : Nat) (h : Word) : Option Nat :=
  match s.byHandle p h with
  | none => some (REFUSED 0x40)
  | some o => if o.mayName f b then none else some (DENIED 0x4A)

/-- Can the slot be given out: free, not the page view's, its generation below 0xFF? -/
def Block.slotFree (s : Block) (p slot : Nat) : Bool :=
  decide (0 < slot) && (s.obj p slot).isNone && decide (hSlot (s.rg (SNW p 0)) ≠ slot) &&
  decide (tget 0 (s.objects p).gens slot ≤ 0xFF)

/-- A free slot, an open choice (R65), and its next generation. `gens` holds the generation that a slot takes
next, so a slot whose generation has reached 0xFF holds 0x100 there. -/
def Block.takeSlot (s : Block) (p : Nat) : Option (Nat × Nat) × Block :=
  let n := 16777215
  let start := s.freeVal % n
  let tries := min n ((s.objects p).live.length + (s.objects p).gens.length + 2)
  match (List.range tries).find? fun i => s.slotFree p ((start + i) % n + 1) with
  | none => (none, s)
  | some i =>
    let slot := (start + i) % n + 1
    (some (slot, tget 0 (s.objects p).gens slot), s.drawn)

/-! ### Placement (R84, R85) -/

/-- A preference applied to the candidates: kept when it leaves any, else counted as missed. -/
def prefer (c : List Nat × Nat) (wanted : Bool) (f : Nat → Bool) : List Nat × Nat :=
  if !wanted then c else
  let l := c.1.filter f
  if l.isEmpty then (c.1, c.2 + 1) else (l, c.2)

/-- The stacks of other objects of the same AFFINITY that hold the piece of this number (R84). -/
def Block.affine (s : Block) (p slot pc : Nat) (d : List Word) : List Nat :=
  (s.objects p).live.flatMap fun e =>
    if e.1 ≠ slot ∧ e.2.desc ≠ [] ∧ (dHints e.2.desc).fld 31 16 = (dHints d).fld 31 16 then
      (e.2.frames.filter fun f => f.piece % max 1 e.2.pieceCount == pc).map (·.stack)
    else []

/-- A stack for `k` more frames of a piece, with the hints missed: an open choice among the stacks of the piece that
have room (R84, R85). NEAR_DIE is a hint for LOCAL pieces alone. -/
def Block.pickStack (s : Block) (pn : Nat) (p : Part) (slot pc k : Nat) (d : List Word) (cands : List Nat) :
    Option (Nat × Nat) × Block :=
  let room := cands.filter fun n => decide (32 * k ≤ s.stackFree pn p n)
  if room.isEmpty then (none, s) else
  let tier := (dHints d).fld 1 0
  let c := prefer (room, 0) (tier == 1 || tier == 2) fun n => isCapacity n == (tier == 2)
  let near := (dHints d).fld 7 4
  let c := prefer c (decide (near ≠ 0) && !dHas d 1 && !dHas d 2 && !dHas d 3) fun n => near.testBit (n / 6)
  let aff := s.affine pn slot pc d
  let c := prefer c (decide ((dHints d).fld 31 16 ≠ 0) && !aff.isEmpty) fun n => aff.contains n
  let (n, s) := s.pick c.1 0
  (some (n, c.2), s)

/-- A frame that holds nothing yet. -/
def freshFrame (piece idx stack unit page : Nat) : Frame :=
  { piece := piece, idx := idx, stack := stack, groups := 0, unit := unit, page := page, count := 0, movedAt := 0 }

/-- A striped frame of a stack, over the channel groups that PLACE uses there (R90). -/
def Block.stripedFrame (s : Block) (p : Part) (piece idx stack : Nat) : Frame :=
  { freshFrame piece idx stack 0 0 with groups := s.stripeGroups p stack }

/-- The stacks where piece `pc` of a copy may lie (R69, R70). -/
def pieceStacks (p : Part) (o : Obj) (copy pc : Nat) : List Nat :=
  let all := p.compute ++ p.capacity
  let d := o.desc
  if dHas d 1 then all.filter fun n => n / 6 == p.dieList.getD copy 0
  else if dHas d 3 then
    let k := o.coord pc ((dimsOf d 3).headD 0)
    if dHas d 2 then
      let die := p.dieList.getD (o.coord pc ((dimsOf d 2).headD 0)) 0
      [(p.compute.filter fun n => n / 6 == die).getD k 0]
    else [p.compute.getD k 0]
  else if dHas d 2 then
    let die := p.dieList.getD (o.coord pc ((dimsOf d 2).headD 0)) 0
    all.filter fun n => n / 6 == die
  else all

/-- The stacks where a piece may lie when a part of its own is retired: the others of its die (R85). -/
def retireStacks (p : Part) (o : Obj) (copy pc : Nat) : List Nat :=
  let l := pieceStacks p o copy pc
  if dHas o.desc 3 then p.compute.filter fun n => l.any fun m => m / 6 == n / 6 else l

/-- Hints missed counted on an object. -/
def Obj.missed (o : Obj) (k : Nat) : Obj := { o with hintsMissed := min 0xFFFFFFFF (o.hintsMissed + k) }

/-- Frames of a piece before those of section `k`. -/
def Obj.framesBefore (o : Obj) (pc k : Nat) : Nat := ((List.range k).map (o.pieceFrames pc)).sum

/-- Must the sections of a piece lie together: has it elements and scales, sidecars or region scales (R75)? -/
def Obj.joint (o : Obj) (pc : Nat) : Bool := decide (o.pieceFrames pc 0 < o.framesBefore pc 4)

/-- One striped frame of a piece placed in a stack. -/
def Block.addFrame (s : Block) (pn : Nat) (p : Part) (slot copy pc n st miss : Nat) : Block :=
  let g (o : Obj) := s.stripedFrame p (copy * o.pieceCount + pc) n st
  s.modObj pn slot fun o => { o.missed miss with frames := o.frames ++ [g o] }

/-- The stacks that already hold frames of a piece. -/
def Obj.pieceHome (o : Obj) (copy pc : Nat) : List Nat :=
  (o.frames.filter fun f => f.piece == copy * o.pieceCount + pc).map (·.stack)

/-- The striped frames of one piece placed, one after another. The frames of its scales, sidecars and region scales go to
stacks that hold its elements (R75). -/
def Block.placeStriped (s : Block) (pn : Nat) (p : Part) (slot copy pc : Nat) : Nat → Option Block
  | 0 => some s
  | n + 1 =>
    match s.placeStriped pn p slot copy pc n with
    | none => none
    | some s =>
      match s.obj pn slot with
      | none => none
      | some o =>
        let all := pieceStacks p o copy pc
        let cands := if n < o.pieceFrames pc 0 then all else all.filter fun m => (o.pieceHome copy pc).contains m
        match s.pickStack pn p slot pc 1 o.desc cands with
        | (none, _) => none
        | (some (st, miss), s) => some (s.addFrame pn p slot copy pc n st miss)

/-- A striped piece placed: whole in one stack when its sections belong together and a stack has room for all of it, else
frame by frame. -/
def Block.placeWhole (s : Block) (pn : Nat) (p : Part) (slot copy pc : Nat) (o : Obj) : Option Block :=
  let n := o.framesBefore pc 4
  if o.joint pc then
    match s.pickStack pn p slot pc n o.desc (pieceStacks p o copy pc) with
    | (some (st, miss), s) =>
      some (loop n (fun i s => s.addFrame pn p slot copy pc i st (if i = 0 then miss else 0)) s)
    | (none, _) => s.placeStriped pn p slot copy pc n
  else s.placeStriped pn p slot copy pc n

/-- The hints that a Firn piece in a stack leaves unmet: TIER = CAPACITY, and an AFFINITY whose stacks are others (R84, R85). -/
def Block.firnMissed (s : Block) (pn slot pc n : Nat) (d : List Word) : Nat :=
  let aff := s.affine pn slot pc d
  b2n ((dHints d).fld 1 0 == 2) + b2n (decide ((dHints d).fld 31 16 ≠ 0) && !aff.isEmpty && !aff.contains n)

/-- A SPLIT_FIRN piece placed in the bank group of a unit: each section in consecutive pages (R531). -/
def Block.placeFirn (s : Block) (pn : Nat) (p : Part) (slot pc unit : Nat) : Nat → Option Block
  | 0 => some s
  | k + 1 =>
    match s.placeFirn pn p slot pc unit k with
    | none => none
    | some s =>
      match s.obj pn slot with
      | none => none
      | some o =>
        let n := o.pieceFrames pc k
        let pages := ceilDiv (o.pieceSize pc k) pageBytes
        let before := o.framesBefore pc k
        let miss := if k = 0 then s.firnMissed pn slot pc (unitStack unit) o.desc else 0
        if n = 0 then
          some (s.modObj pn slot fun o =>
            { o.missed miss with pieces := kput o.pieces pc { unit := unit, pages := (tget { unit := unit, pages := [] } o.pieces pc).pages ++ [(0, 0)] } })
        else if !s.groupUsed (unitStack unit) (unitGroup unit) then none
        else
          match s.unitRuns pn p unit n with
          | [] => none
          | runs =>
            let (g, s) := (s.wakeSet unit).pick runs 0
            some (s.modObj pn slot fun o =>
              { o.missed miss with
                frames := o.frames ++ (List.range n).map fun j =>
                  freshFrame pc (before + j) (unitStack unit) unit (g + 32 * j)
                pieces := kput o.pieces pc { unit := unit, pages := (tget { unit := unit, pages := [] } o.pieces pc).pages ++ [(g, pages)] } })

/-- The pieces of an object placed in turn; none when the partition has too few free frames. -/
def Block.placePieces (s : Block) (pn : Nat) (p : Part) (slot : Nat) (units : List Nat) : List (Nat × Nat) → Option Block
  | [] => some s
  | (copy, pc) :: rest =>
    match s.obj pn slot with
    | none => none
    | some o =>
      let r :=
        if o.emptyPiece pc ∨ (dHas o.desc 5 ∧ o.coord pc ((dimsOf o.desc 5).headD 0) ≠ o.member) then some s
        else if dHas o.desc 4 then
          s.placeFirn pn p slot pc (units.getD (o.coord pc ((dimsOf o.desc 4).headD 0)) 0) 4
        else s.placeWhole pn p slot copy pc o
      match r with
      | none => none
      | some s => s.placePieces pn p slot units rest

/-- Frames of an object in a tier. -/
def Obj.tierFrames (o : Obj) (t : Nat) : Nat := (o.frames.filter fun f => stackTier f.stack == t).length

/-- The frames of a new object leave the Snowpack's free pages (R341). -/
def Block.framesTaken (s : Block) (p : Nat) (o : Obj) : Block :=
  let mv (s : Block) (t : Nat) := if o.tierFrames t = 0 then s else s.ledShrink (pageLedger p t) (32 * o.tierFrames t)
  mv (mv s 0) 1

/-- The frames of an object return (R76, R341). -/
def Block.framesBack (s : Block) (p : Nat) (o : Obj) : Block :=
  let mv (s : Block) (t : Nat) := if o.tierFrames t = 0 then s else s.ledGrow (pageLedger p t) (32 * o.tierFrames t)
  mv (mv s 0) 1

/-! ### Creation (R67 to R73) -/

/-- The checks of R68, in its order after the format code. -/
def descStatus (d : List Word) : Option Nat :=
  let n := dNdim d
  let f := dFmt d
  if !fmtOk f then some (UNSUPPORTED 0)
  else if n < 1 ∨ 8 < n then some (REFUSED 0x41)
  else if (List.range n).any fun i => dShape d i == 0 || decide (0x7FFFFFFF < dShape d i) then some (REFUSED 0x41)
  else if dSide d && !fmtNarrow f then some (REFUSED 0x41)
  else if dRegion d && decide (6 ≤ f) then some (REFUSED 0x41)
  else if dFp8s d && !fmtFp8 f then some (REFUSED 0x41)
  else if (f = 8 ∨ f = 9) ∧ dLayout d ≠ 0 then some (REFUSED 0x41)
  else if f = 2 ∧ !bookOk (mreg d 1) then some (REFUSED 0x33)
  else none

/-- The position of this module in the group of a descriptor, when the group is known, of the partition's
domain and lists the module (R365). -/
def Block.groupPlace (s : Block) (p : Nat) (d : List Word) : Option (Nat × Nat) :=
  match kget s.esk.groups ((mreg d 12).fld 15 0) with
  | none => none
  | some g =>
    if g.domain ≠ s.fld (ESK_DOMAIN p) 15 0 then none
    else (g.nodes.findIdx? fun x => x == s.fld ESK_NODE 14 0).map fun k => (k, g.nodes.length)

/-- The pieces along dimension `i` of a new object (R69, R70). -/
def Block.splitOf (s : Block) (pn : Nat) (p : Part) (d : List Word) (i : Nat) : Nat :=
  match dShard d i with
  | 2 => p.dieList.length
  | 3 => if dHas d 2 then p.compute.length / p.dieList.length else p.compute.length
  | 4 => (s.firnUnits p).length
  | 5 => ((s.groupPlace pn d).map (·.2)).getD 0
  | _ => 1

/-- The checks of R69 and R70. -/
def Block.shardStatus (s : Block) (pn : Nat) (p : Part) (d : List Word) : Option Nat :=
  let n := dNdim d
  let twice (v : Nat) := decide (1 < (dimsOf d v).length)
  if (List.range 8).any fun i => decide (n ≤ i ∧ dShard d i ≠ 0) then some (REFUSED 0x42)
  else if (List.range n).any fun i => decide (6 ≤ dShard d i) then some (REFUSED 0x42)
  else if twice 2 || twice 3 || twice 4 || twice 5 then some (REFUSED 0x42)
  else if dHas d 4 && (dHas d 2 || dHas d 3) then some (REFUSED 0x42)
  else if dHas d 1 && (dHas d 2 || dHas d 3 || dHas d 4) then some (REFUSED 0x42)
  else if dHas d 5 && (s.groupPlace pn d).isNone then some (REFUSED 0x42)
  else if (List.range n).any fun i => decide (2 ≤ dShard d i) && s.splitOf pn p d i == 0 then some (REFUSED 0x42)
  else none

/-- The checks of R73. -/
def layoutStatus (d : List Word) : Option Nat :=
  let n := dNdim d
  if dLayout d = 3 then some (REFUSED 0x43)
  else if dLayout d = 1 ∧ n < 2 then some (REFUSED 0x43)
  else if dLayout d = 2 ∧ ((dimsOf d 4).length ≠ 1 ∨ dShard d (n - 1) = 4) then some (REFUSED 0x43)
  else none

/-- All the checks of a descriptor. -/
def Block.descChecks (s : Block) (pn : Nat) (p : Part) (d : List Word) : Option Nat :=
  match descStatus d with
  | some x => some x
  | none =>
    match s.shardStatus pn p d with
    | some x => some x
    | none => layoutStatus d

/-- A new object, without its frames. -/
def Block.newObj (s : Block) (pn : Nat) (p : Part) (gen f b : Nat) (d : List Word) (golden : Nat) (g0 g1 : Word) : Obj :=
  { gen := gen, owner := f, bundle := b, desc := d, data := Store.empty, lag := [], frames := [], pieces := [],
    migrations := 0, hintsMissed := 0, golden := golden, g0 := g0, g1 := g1, damaged := false, dying := false,
    split := (List.range (dNdim d)).map (s.splitOf pn p d),
    member := ((s.groupPlace pn d).map (·.1)).getD 0 }

/-- An object created in partition `pn`: its slot, or the status that refuses it. Nothing is allocated when it
is refused (R68). -/
def Block.create (s : Block) (pn f b : Nat) (d : List Word) (golden : Nat) (g0 g1 : Word) :
    Except Nat (Nat × Block) :=
  match s.part pn with
  | none => .error (DENIED 0xD9)
  | some p =>
    match s.descChecks pn p d with
    | some st => .error st
    | none =>
      match s.takeSlot pn with
      | (none, _) => .error (NO_SPACE 0x4B)
      | (some (slot, gen), s1) =>
        let o := s1.newObj pn p gen f b d golden g0 g1
        let copies := if dHas d 1 then p.dieList.length else 1
        let pieces := (List.range copies).flatMap fun c => (List.range o.pieceCount).map fun k => (c, k)
        let s2 := (s1.setObj pn slot o).setObjects pn
          { live := kput (s1.objects pn).live slot o, gens := kput (s1.objects pn).gens slot (gen + 1) }
        match s2.placePieces pn p slot (s.firnUnits p) pieces with
        | none => .error (NO_SPACE 0x49)
        | some s3 =>
          match s3.obj pn slot with
          | some o => .ok (slot, s3.framesTaken pn o)
          | none => .error (NO_SPACE 0x49)

/-- An object destroyed: its frames return and its slot is free for the next generation (R65, R76). Its lines leave the
caches unwritten: nothing names their data any more. The spec does not say whether they are written back; DESIGN CHOICE,
log entry 154. -/
def Block.destroy (s : Block) (p slot : Nat) : Block :=
  match s.obj p slot with
  | none => s
  | some o =>
    let s := s.setObjects p { s.objects p with live := kdel (s.objects p).live slot }
    let s := { s with msc := kmap s.msc fun _ l => l.filter fun x => !(x.part == p && hSlot x.handle == slot) }
    s.framesBack p o

/-! ### Poison and re-fetches (R466 to R470, R479 to R481) -/

/-- A consumption (R468): ERR_CNT_CONSUMED, ERR_LAST_UE and event 0x0501. -/
def Block.consumed (s : Block) (point unit : Nat) (h : Word) (off : Nat) : Block :=
  let s := s.bump ERR_CNT_CONSUMED
  let s := ((s.wr ERR_LAST_UE_KIND (w32 (point % 16 + unit % 4096 * 16))).wr ERR_LAST_UE_HANDLE h).setPair ERR_LAST_UE_OFF_LO off
  s.event srcHealth 0x0501 [w32 (point % 16), w32 (unit % 4096), h, w32 off, w32 (off / 2 ^ 32)]

/-- A re-fetch of a frame starts, or joins the one under way (R469 step 1). -/
def Block.startRefetch (s : Block) (p : Nat) (h : Word) (fr : Nat) : Block :=
  if s.err.refetches.any fun r => r.part == p && r.handle == h && r.frame == fr then s else
  let r : Refetch := { part := p, handle := h, frame := fr, began := s.now, failing := false }
  let s := { s with err := { s.err with refetches := s.err.refetches ++ [r] } }
  s.bumpFld ERR_REFETCH 15 0

/-- The first sector with a mark in a range of an object. -/
def Obj.badSector (o : Obj) (off n : Nat) : Option Nat :=
  (List.range (ceilDiv (off % 32 + n) 32)).findSome? fun i =>
    if o.data.poison.contains (off / 32 + i) then some ((off / 32 + i) * 32) else none

/-- A command consumes a poisoned sector of an object: the record, the re-fetch when it has a golden copy, and
the status (R469, R480). -/
def Block.consumedObj (s : Block) (point unit p : Nat) (h : Word) (off : Nat) : Nat × Block :=
  let s := s.consumed point unit h off
  match s.byHandle p h with
  | some o =>
    if o.golden ≠ 0 ∧ !o.damaged then
      match o.frameAt 0 off with
      | some fr => (POISONED 1, s.startRefetch p h fr)
      | none => (POISONED 1, s)
    else (POISONED 2, s)
  | none => (POISONED 2, s)

/-! ### The memory-side cache (R97 to R102, R115) -/

/-- The ways of a die that a partition holds, as a count. -/
def Block.mscWays (s : Block) (d p : Nat) : Nat := (maskBits (s.fld (SRC_MSC_PCFG d p) 15 0) 16).length
/-- DROP_USES of a partition on a die; a stored 0 acts as 1. -/
def Block.dropUses (s : Block) (d p : Nat) : Nat := max 1 (s.fld (SRC_MSC_PCFG d p) 19 16)

/-- The lines of a set. -/
def Block.mscSetLines (s : Block) (k : Nat) : List MscLine := tget [] s.msc k
/-- The lines of a set set. -/
def Block.setMscLines (s : Block) (k : Nat) (l : List MscLine) : Block := { s with msc := tset [] s.msc k l }

/-- The last element of a list that satisfies a test removed: the least recently used of a set. -/
def dropLast {α : Type} (f : α → Bool) (l : List α) : Option α × List α :=
  let r := l.reverse
  match r.findIdx? f with
  | none => (none, l)
  | some i => (r[i]?, (r.take i ++ r.drop (i + 1)).reverse)

/-- The least recently used KEEP line of a partition loses its mark (R100). -/
def unkeepLast (p : Nat) (l : List MscLine) : List MscLine :=
  let r := l.reverse
  match r.findIdx? (fun x => x.part == p && x.keep) with
  | none => l
  | some i => (r.mapIdx fun j x => if j = i then { x with keep := false } else x).reverse

/-- The bound on KEEP lines applied (R100): half of the partition's ways, at least one. -/
def keepBound (p ways : Nat) (l : List MscLine) : List MscLine :=
  if max 1 (ways / 2) < (l.filter fun x => x.part == p && x.keep).length then unkeepLast p l else l

/-- A cache line's recorded errors struck off (R465). -/
def Block.errsGone (s : Block) (f : CacheErr → Bool) : Block :=
  { s with env := { s.env with cacheErrs := s.env.cacheErrs.filter fun e => !f e } }

/-- Is an error in this line of a die's cache, in one of the sectors from `a` to before `b`? -/
def MscLine.bad (x : MscLine) (a b : Nat) (e : CacheErr) : Bool :=
  !e.crc && e.unit == x.stack / 6 && e.part == x.part && e.handle == x.handle && decide (a ≤ e.sector ∧ e.sector < b)

/-- Sectors of an object marked. -/
def Block.markSectors (s : Block) (p : Nat) (h : Word) (l : List Nat) : Block :=
  if l.isEmpty then s else s.modObj p (hSlot h) fun o => { o with data := l.foldl Store.mark o.data }

/-- The uncorrectable errors that an access finds in a line: counted; of a line that holds writes they become marks
(R465). Answers whether there were any. -/
def Block.lineErrors (s : Block) (x : MscLine) (a b : Nat) : Bool × Block :=
  let l := s.env.cacheErrs.filter (x.bad a b)
  if l.isEmpty then (false, s) else
  let s := (s.errsGone (x.bad a b)).bump (ERR_SRAM_UE (x.stack / 6)) l.length
  (true, if x.dirty then s.markSectors x.part x.handle (l.map (·.sector)) else s)

/-- Sectors of an object, or for handle 0 of the page view, marked. -/
def Block.markStored (s : Block) (p : Nat) (h : Word) (x : Nat) : Block :=
  if h ≠ 0 then s.markSectors p h [x]
  else s.setSnow p { s.snowOf p with pages := kmod (s.snowOf p).pages (x / 2048) fun g => { g with data := g.data.mark (x % 2048) } }

/-- A read of a stack meets the errors of the sectors that `hit` selects (R463, R464, R466): each is counted, what the
code cannot correct becomes a mark, and the rows are looked after once the access is over. -/
def Block.meetErrors (s : Block) (n p : Nat) (h : Word) (hit : Nat → Bool) : Block :=
  let f (e : DramErr) : Bool := e.stack == n && e.part == p && e.handle == h && hit e.sector
  let l := s.env.dramErrs.filter f
  if l.isEmpty then s else
  let s := { s with env := { s.env with dramErrs := s.env.dramErrs.filter fun e => !f e || e.fixable },
                    err := { s.err with met := s.err.met ++ l } }
  s.each l fun s e => if e.fixable then s.bump (ERR_STK_CE n) else (s.bump (ERR_STK_UE n)).markStored p h e.sector

/-- A line leaves the cache. One that holds writes is written back whole, with its marks (R99); after any other the
sectors that the stack holds marked show again (R102). -/
def Block.lineOut (s : Block) (x : MscLine) : Block :=
  if x.dirty then (s.lineErrors x (x.line * 8) (x.line * 8 + 8)).2.bumpPair (STK_WR_BYTES_LO x.stack) 256
  else (s.errsGone (x.bad (x.line * 8) (x.line * 8 + 8))).markSectors x.part x.handle x.under

/-- One access of a partition: a 256 B unit, or one 32 B sector of the narrow path. -/
structure MscAccess where
  stack : Nat
  part : Nat
  handle : Word
  sector : Nat
  hint : Nat
  wr : Bool
  alloc : Bool
  narrow : Bool

/-- The cache set of an access. -/
def MscAccess.set (a : MscAccess) : Nat := a.stack / 6 * 16384 + Config.mscSet a.handle.toNat (a.sector / 8) % 16384
/-- The bytes that an access moves over the stack's interface. -/
def MscAccess.size (a : MscAccess) : Nat := if a.narrow then 32 else 256
/-- Does the line hold what an access names? -/
def MscAccess.hits (a : MscAccess) (x : MscLine) : Bool := x.part == a.part && x.handle == a.handle && x.line == a.sector / 8

/-- An access served from a line: the line becomes the most recently used, marked and counted as its hint says, and is
dropped at its last use (R98, R100, R101). -/
def Block.mscHit (s : Block) (a : MscAccess) (x : MscLine) (rest : List MscLine) : Block :=
  let s := s.bumpPair (SRC_MSC_HITS_LO (a.stack / 6)) 1
  let uses := if a.hint = 3 ∧ !a.wr then
      match x.uses with
      | some (c, r) => some (c + 1, r)
      | none => some (1, s.dropUses (a.stack / 6) a.part)
    else x.uses
  let x := { x with keep := x.keep || a.hint == 2, uses := uses, dirty := x.dirty || a.wr }
  let kept := keepBound a.part (s.mscWays (a.stack / 6) a.part) (x :: rest)
  match uses with
  | some (c, r) =>
    if r ≤ c then ((s.lineOut x).bump (SRC_MSC_DROPS (a.stack / 6))).setMscLines a.set rest
    else s.setMscLines a.set kept
  | none => s.setMscLines a.set kept

/-- An access that no line serves: it goes to the stack, and allocates a line where it may (R98, R100). A write of part of
a unit allocates its line without reading the rest from the stack, and a streaming access moves the whole unit: DESIGN
CHOICE, log entry 153. -/
def Block.mscMiss (s : Block) (a : MscAccess) (l : List MscLine) : Block :=
  let d := a.stack / 6
  let ways := s.mscWays d a.part
  let s := s.bumpPair (SRC_MSC_MISSES_LO d) 1
  let s := if a.wr then s else (s.bumpPair (STK_RD_BYTES_LO a.stack) a.size).meetErrors a.stack a.part a.handle fun x =>
    if a.narrow then x == a.sector else x / 8 == a.sector / 8
  if !a.alloc || ways == 0 || a.hint == 1 || a.narrow then
    (if a.wr then s.bumpPair (STK_WR_BYTES_LO a.stack) a.size else s).setMscLines a.set l
  else
    let r := s.dropUses d a.part
    let x : MscLine :=
      { part := a.part, handle := a.handle, line := a.sector / 8, stack := a.stack, under := [], keep := a.hint == 2,
        uses := if a.hint = 3 then some (if a.wr then 0 else 1, r) else none, dirty := a.wr }
    let mine := (l.filter fun y => y.part == a.part).length
    let (v, l) := if mine < ways then (none, l) else
      match dropLast (fun y => y.part == a.part && !y.keep) l with
      | (some v, l) => (some v, l)
      | (none, _) => dropLast (fun y => y.part == a.part) l
    let s := match v with
      | some v => s.lineOut v
      | none => s
    if a.hint = 3 ∧ !a.wr ∧ r ≤ 1 then (s.bump (SRC_MSC_DROPS d)).setMscLines a.set l
    else s.setMscLines a.set (keepBound a.part ways (x :: l))

/-- One access through the owning die's cache. `alloc` is false for Firn frames (R97). A clean line with an uncorrectable
error is invalidated, and the access goes on to the stack (R465). -/
def Block.mscAccess (s : Block) (a : MscAccess) : Block :=
  let l := s.mscSetLines a.set
  let s := if a.narrow then s.bumpPair (STK_NARROW_LO a.stack) 1 else s
  match l.findIdx? a.hits with
  | none => s.mscMiss a l
  | some i =>
    match l[i]? with
    | none => s
    | some x =>
      let rest := l.take i ++ l.drop (i + 1)
      let (lo, n) := if a.narrow then (a.sector, 1) else (x.line * 8, 8)
      let (bad, s) := if a.wr then (false, s) else s.lineErrors x lo (lo + n)
      if bad && !x.dirty then (s.lineOut x).mscMiss a rest else s.mscHit a x rest

/-- The copy that a die reads (R72). -/
def Block.copyFor (s : Block) (p die : Nat) (o : Obj) : Nat :=
  if dHas o.desc 1 then
    match s.part p with
    | some q => (q.dieList.findIdx? (· == die)).getD 0
    | none => 0
  else 0

/-- The copies of an object: one for each die of a REPLICATE object (R72). -/
def Block.copies (s : Block) (p : Nat) (o : Obj) : List Nat :=
  if dHas o.desc 1 then List.range (((s.part p).map (·.dieList.length)).getD 1) else [0]

/-- The copies that an access of a die reaches: a read its own, a write every one, the lowest die's first (R72). -/
def Block.reached (s : Block) (p die : Nat) (o : Obj) (wr : Bool) : List Nat :=
  if wr then s.copies p o else [s.copyFor p die o]

/-- One access to one copy of an object: its frame's access count, the cache and the counters. -/
def Block.copyAccess (s : Block) (p : Nat) (h : Word) (sector hint : Nat) (wr narrow : Bool) (copy : Nat) : Block :=
  match s.byHandle p h with
  | none => s
  | some o =>
    match o.frameAt copy (sector * 32) with
    | none => s
    | some i =>
      match o.frames[i]? with
      | none => s
      | some f =>
        let s := s.modObj p (hSlot h) fun o =>
          { o with frames := o.frames.set i { f with count := min 0xFFFF (f.count + 1) } }
        s.mscAccess { stack := f.stack, part := p, handle := h, sector := sector, hint := hint, wr := wr,
                      alloc := !o.firn, narrow := narrow }

/-- The sectors at which the accesses of a byte range start: one access for each 256 B unit, or on the narrow path for
each 32 B sector (R93). -/
def accessSectors (off n : Nat) (narrow : Bool) : List Nat :=
  if n = 0 then []
  else if narrow then (List.range ((off + n - 1) / 32 + 1 - off / 32)).map (off / 32 + ·)
  else (List.range ((off + n - 1) / 256 + 1 - off / 256)).map fun i => (off / 256 + i) * 8

/-- The traffic of a byte range: a read of the die's copy, a write of every copy. -/
def Block.traffic (s : Block) (p : Nat) (h : Word) (die off n hint : Nat) (wr narrow : Bool) : Block :=
  match s.byHandle p h with
  | none => s
  | some o =>
    s.each (accessSectors off n narrow) fun s x =>
      s.each (s.reached p die o wr) fun s c => s.copyAccess p h x hint wr narrow c

/-- The traffic of a reduction: the adders read the element where it is coherent, and write it (R107). -/
def Block.reduceTraffic (s : Block) (p : Nat) (h : Word) (off n hint : Nat) (narrow : Bool) : Block :=
  match s.byHandle p h with
  | none => s
  | some o =>
    s.each (accessSectors off n narrow) fun s x =>
      (s.copyAccess p h x 1 false narrow 0).each (s.copies p o) fun s c => s.copyAccess p h x hint true narrow c

/-! ### The point of coherence -/

/-- Bytes of an object's view; padding reads as zero (R75). -/
def Obj.read (o : Obj) (off n : Nat) : List Byte := o.data.read off n

/-- Bytes written into the view, padding left out (R75). `ps` are the marks of the sectors touched. -/
def Obj.write (o : Obj) (off : Nat) (bs : List Byte) (ps : List Bool) : Obj :=
  loop 4 (fun k o =>
    let a := max off (sectBase o.desc k)
    let e := min (off + bs.length) (sectBase o.desc k + sectSize o.desc k)
    if a < e then { o with data := o.data.write a ((bs.drop (a - off)).take (e - a)) (ps.drop (a / 32 - off / 32)) }
    else o) o

/-! Copies that lag (R72). The store of an object is that of its lowest die's copy. What another copy still lacks is a list
of writes with what that copy holds in their place. -/

/-- One write taken back. -/
def CopyLag.undo (w : CopyLag) (m : Store) : Store :=
  { cells := memWrite m.cells w.off w.old,
    poison := if w.mark then (m.mark (w.off / 32)).poison else m.poison.erase (w.off / 32) }

/-- What a copy of an object holds: the writes that it lacks taken back, the newest first. -/
def Obj.copyData (o : Obj) (copy : Nat) : Store := (o.lag.filter fun w => w.copy == copy).foldr CopyLag.undo o.data

/-- The writes that a list keeps when those that satisfy a test are done, and with them every earlier one that must come
first. -/
def splitBy {α : Type} (f : α → Bool) (before : α → α → Bool) : List α → List α × List α
  | [] => ([], [])
  | w :: l =>
    let r := splitBy f before l
    if f w || r.1.any (before w) then (w :: r.1, r.2) else (r.1, w :: r.2)

/-- Are two writes of one sector of one copy? Each copy takes them in the order in which the first did. -/
def CopyLag.meets (w v : CopyLag) : Bool := w.copy == v.copy && w.off / 32 == v.off / 32

/-- Writes forwarded to their copies. -/
def Obj.forward (o : Obj) (f : CopyLag → Bool) : Obj := { o with lag := (splitBy f CopyLag.meets o.lag).2 }

/-- Does a write lie in the sectors of a range? -/
def inSectors (off n x : Nat) : Bool := decide (off / 32 ≤ x / 32 ∧ x < off + n)

/-- A write to an object performed at its point of coherence and, before it completes, in every copy (R72). -/
def Block.performWrite (s : Block) (p slot off : Nat) (bs : List Byte) (ps : List Bool) : Block :=
  s.modObj p slot fun o => (o.forward fun w => inSectors off bs.length w.off).write off bs ps

/-- A write of a cluster's queue performed in the lowest die's copy; the others follow. -/
def Block.performFirst (s : Block) (c p slot : Nat) (w : PendWrite) : Block :=
  match s.obj p slot with
  | none => s
  | some o =>
    let late := (s.copies p o).drop 1
    s.modObj p slot fun o =>
      { o.write w.off w.data [w.mark] with
        lag := o.lag ++ late.map fun k =>
          { copy := k, cluster := c, acc := w.acc, owners := w.owners, seen := w.seen, off := w.off,
            old := o.read w.off w.data.length, mark := o.data.marked w.off w.data.length } }

/-- Is the channel group RUNNING that holds a byte of one copy? A byte of padding has none (R90, R113). -/
def Block.copyUp (s : Block) (o : Obj) (copy off : Nat) : Bool :=
  match o.groupAt copy off with
  | some (n, g) => s.cgState n g == 2
  | none => true

/-- Do the 256 B units of a range lie in channel groups that are RUNNING, in each of the copies that the access reaches
(R113)? -/
def Block.rangeUp (s : Block) (o : Obj) (copies : List Nat) (off n : Nat) : Bool :=
  n == 0 || (accessSectors off n false).all fun x => copies.all fun c => s.copyUp o c (max off (x * 32))

/-- Do all bytes of a range that lie in a piece lie in the module's own piece (R366)? -/
def Obj.ownPiece (o : Obj) (off n : Nat) : Bool :=
  match dimsOf o.desc 5 with
  | [] => true
  | i :: _ => (List.range n).all fun j =>
      match o.locate (off + j) with
      | some (pc, _, _) => o.coord pc i == o.member
      | none => true

/-! ### Messages (R67, R76, R87, R531) -/

/-- The partition of a message's function, or the status when it has none (R311). -/
def Block.msgPart (s : Block) (ch : Chan) (h : Nat → Answer) : Answer :=
  let p := s.fnPart (chFn ch)
  if (s.part p).isSome then h p else s.no (DENIED 0xD9)

/-- TENSOR_CREATE: registers 1 to 13 hold the descriptor. -/
def effTensorCreate (ch : Chan) (s : Block) : Block :=
  s.message ch 0x0301 fun s ws => s.msgPart ch fun p =>
    match s.create p (chFn ch) 0 ((ws.drop 1 ++ List.replicate 13 0).take 13) 0 0 0 with
    | .error st => s.no st
    | .ok (slot, s) =>
      match s.obj p slot with
      | some o => s.yes [mkHandle slot o.gen]
      | none => s.no (NO_SPACE 0x49)

/-- The non-empty pieces of an object, copies counted (R87). -/
def Obj.pieceTotal (o : Obj) (copies : Nat) : Nat :=
  ((List.range o.pieceCount).filter fun k => !o.emptyPiece k).length * (if dHas o.desc 1 then copies else 1)

/-- TENSOR_QUERY (R87). -/
def effTensorQuery (ch : Chan) (s : Block) : Block :=
  s.message ch 0x0303 fun s ws => s.msgPart ch fun p =>
    match s.nameStatus p (chFn ch) 0 (mreg ws 1), s.byHandle p (mreg ws 1), s.part p with
    | none, some o, some q =>
      s.yes [w32 (sectFrames o.desc 0), w32 (sectFrames o.desc 1), w32 (sectFrames o.desc 2),
             w32 (sectFrames o.desc 3), w32 (o.pieceTotal q.dieList.length), w32 (o.tierFrames 0),
             w32 (o.tierFrames 1), w32 o.migrations, w32 o.hintsMissed]
    | some st, _, _ => s.no st
    | _, _, _ => s.no (REFUSED 0x40)

/-- The handles that a data-movement command names. The HANDLE in word 5 of a QUANT only says what its records report
(R54): it names no object here. DESIGN CHOICE, log entry 152. -/
def cmdHandles (c : Cmd) : List Word :=
  let op := c.w0.fld 7 0
  if op = 0x40 then
    (if c.w7.fld 19 18 = 0 ∧ !c.w7.bit 15 then [c.w1] else []) ++
    (if c.w7.fld 21 20 = 0 ∧ !c.w7.bit 16 then [c.w3] else [])
  else if op = 0x41 then [c.w1, c.w3]
  else if op = 0x48 then (if c.w7.bit 15 then [] else [c.w1])
  else if op = 0x50 ∨ op = 0x51 ∨ op = 0x52 then [c.w1, c.w2, c.w3]
  else []

/-- Does a queued or running command of any job of the partition name the object (R76)? -/
def Block.inUse (s : Block) (p : Nat) (h : Word) : Bool :=
  let names (k : Cluster) : Bool := k.queues.any fun q => q.2.any fun e => (cmdHandles e.cmd).contains h
  (s.clusters.any fun e => (match e.2.job with
    | some j => ((kget s.jobs j).map (·.part) == some p) && names e.2
    | none => false)) ||
  s.jobs.any fun e => e.2.part == p && e.2.save.any fun a => names a.2.ctl

/-- Does a BAR4 window of a function of the partition map the object (R76)? -/
def Block.mapped (s : Block) (p : Nat) (h : Word) : Bool :=
  s.fns.any fun e => s.fnPart e.1 == p && e.2.windows.any fun w => w.2.handle == h

/-- Pending writes of an object's slot dropped; they are performed before the object ends. -/
def Block.dropPending (s : Block) (p slot : Nat) : Block :=
  { s with clusters := kmap s.clusters fun _ k =>
      { k with out := k.out.filter fun w => !(w.part == p && w.slot == slot) } }

/-- Does a request that has not ended name the object as its ALLOW or BIAS (R245)? -/
def Block.reqNames (s : Block) (p : Nat) (h : Word) : Bool :=
  s.reqs.any fun e => e.2.state != .ended && s.fnPart e.2.fn == p && (e.2.desc.getD 17 0 == h || e.2.desc.getD 18 0 == h)

/-- Objects of reset functions that nothing names any more leave (R396). -/
def Block.sweepDying (s : Block) (p : Nat) : Block :=
  s.each ((s.objects p).live.filter fun e => e.2.dying) fun s e =>
    let h := mkHandle e.1 e.2.gen
    if s.inUse p h || s.reqNames p h then s else (s.dropPending p e.1).destroy p e.1

/-- TENSOR_DESTROY (R76). -/
def effTensorDestroy (ch : Chan) (s : Block) : Block :=
  s.message ch 0x0304 fun s ws => s.msgPart ch fun p =>
    let h := mreg ws 1
    match s.nameStatus p (chFn ch) 0 h with
    | some st => s.no st
    | none =>
      if s.inUse p h then s.no (BUSY 0x47)
      else if s.mapped p h then s.no (BUSY 0x48)
      else ((s.dropPending p (hSlot h)).destroy p (hSlot h)).yes

/-- TENSOR_FIRN_MAP (R531). -/
def effTensorFirnMap (ch : Chan) (s : Block) : Block :=
  s.message ch 0x0305 fun s ws => s.msgPart ch fun p =>
    match s.nameStatus p (chFn ch) 0 (mreg ws 1), s.byHandle p (mreg ws 1) with
    | none, some o =>
      match kget o.pieces (mreg ws 2).toNat with
      | some f => s.yes (w32 f.unit :: (f.pages.flatMap fun x => [w32 x.1, w32 x.2]) ++ [w32 o.migrations])
      | none => s.no (REFUSED 0x4D)
    | some st, _ => s.no st
    | _, _ => s.no (REFUSED 0x40)

/-- The meaning of TENSOR_CREATE. -/
def execTensorCreate (ch : Chan) : State → Host.Outcome State Fault Refusal := onBlk (effTensorCreate ch)
/-- The meaning of TENSOR_QUERY. -/
def execTensorQuery (ch : Chan) : State → Host.Outcome State Fault Refusal := onBlk (effTensorQuery ch)
/-- The meaning of TENSOR_DESTROY. -/
def execTensorDestroy (ch : Chan) : State → Host.Outcome State Fault Refusal := onBlk (effTensorDestroy ch)
/-- The meaning of TENSOR_FIRN_MAP. -/
def execTensorFirnMap (ch : Chan) : State → Host.Outcome State Fault Refusal := onBlk (effTensorFirnMap ch)

end Sys2Proof.Machine
end

