-- ==== Sys2Proof/Machine/Flags.lean ====
section
/-! DEFINITION. What the state of the module drives: the levels of its pins and the bus address of its sideband (R439,
R517 to R521, R528), and the fields of a record that sum several parts (R62, R385, R407). -/

namespace Sys2Proof.Machine

/-- PHASE of MOR_START (R431). -/
def Block.phase (s : Block) : Nat := s.fld MOR_START 3 0

/-- Has a Rime core given up (R407)? -/
def Block.anyGaveUp (s : Block) : Bool := (List.range 7).any fun n => s.coreState n == 5

/-- The NUM counters of a tile that a job record sums (R62, R385). -/
def Block.numCounters (s : Block) (t : Nat) : List Nat := (List.range 6).map fun k => (s.rg (NUM_CNT t k)).toNat

/-- Two lists of counters added. -/
def addLists (a b : List Nat) : List Nat :=
  (List.range (max a.length b.length)).map fun i => a.getD i 0 + b.getD i 0

/-! ### Pins (R439, R518 to R521, R525, R527, R528) -/

/-- What a pin, or a pair of pins, shows. An open-drain output is low or released. -/
inductive PinLevel
  | highZ
  | released
  | low
  | high
  | idle
  | signal
  deriving DecidableEq, Repr

/-- MODULE_ALERT_N is asserted (R521): a breach, a core given up, a stopped start, a trip or a rail fault. -/
def Block.moduleAlert (s : Block) : Bool :=
  s.breach || s.anyGaveUp || s.phase == 10 || s.bit THM_STATE 16 || s.bit PWR_STATUS 1

/-- OVERHEAT_N is asserted only while TRIP is set (R521). -/
def Block.overheat (s : Block) : Bool := s.bit THM_STATE 16

/-- MODULE_ALERT_N and OVERHEAT_N as pins: an unpowered module asserts neither. -/
def Block.moduleAlertN (s : Block) : PinLevel := if s.start.powered && s.moduleAlert then .low else .released
def Block.overheatN (s : Block) : PinLevel := if s.start.powered && s.overheat then .low else .released

/-- PWR_GOOD. -/
def Block.pwrGoodPin (s : Block) : PinLevel := if s.pwr.pwrGood then .high else .low

/-- CLKREQ_N: asserted from power-up, so that the host supplies REFCLK. -/
def Block.clkreqN (s : Block) : PinLevel := if s.pwr.pwrGood then .low else .released

/-- REFCLK_FWD: driven while FWD_ON is set, held low otherwise. -/
def Block.refclkFwd (s : Block) : PinLevel :=
  if !s.pwr.pwrGood then .highZ else if s.bit CLK_STATUS 6 then .signal else .low

/-- The lanes of an Esker port: idle while it neither trains nor runs, and while its PHY coasts (R352, R441). -/
def Block.eskerLanes (s : Block) (p : Nat) : PinLevel :=
  if !s.pwr.pwrGood then .highZ
  else if s.clk.coastEsk || s.fld (ESK_STATE p) 1 0 == 0 then .idle else .signal

/-- The PCI Express transmit lanes: idle from a reset of the host link until it trains. -/
def Block.pcieTransmit (s : Block) : PinLevel :=
  if !s.pwr.pwrGood then .highZ else if s.start.linkUp then .signal else .idle

/-- Is debug open (R487)? -/
def Block.debugOpen (s : Block) : Bool := s.bit MOR_LC 7

/-- JTAG_TDO. -/
def Block.jtagTdo (s : Block) : PinLevel := if s.pwr.pwrGood && s.debugOpen then .signal else .highZ

/-- The flash's pins: the device's unless FLASH_HOLD_N is asserted (R527). -/
def Block.flashPins (s : Block) : PinLevel := if s.start.powered && !s.ice.hold then .signal else .highZ

/-- The sideband's address on SMBus, from the two straps (R520). -/
def sidebandAddress : Nat := 0x60 + Config.sbStraps % 4

end Sys2Proof.Machine
end

