-- ==== Sys2Proof/Machine/Operands.lean ====
section
/-! DEFINITION. The operand forms of the engine and control commands: the words and fields of a command (R79,
R176, R179, R182, R184, R185, R188, R190, R195, R197 to R201), and the checks of its fields at issue. -/

namespace Sys2Proof

/-- Word `i` of a command. -/
def Cmd.word (c : Cmd) (i : Nat) : Word :=
  match i with
  | 0 => c.w0 | 1 => c.w1 | 2 => c.w2 | 3 => c.w3 | 4 => c.w4 | 5 => c.w5 | 6 => c.w6 | _ => c.w7

/-- The command with word `i` replaced. -/
def Cmd.setWord (c : Cmd) (i : Nat) (v : Word) : Cmd :=
  match i with
  | 0 => { c with w0 := v } | 1 => { c with w1 := v } | 2 => { c with w2 := v } | 3 => { c with w3 := v }
  | 4 => { c with w4 := v } | 5 => { c with w5 := v } | 6 => { c with w6 := v } | _ => { c with w7 := v }

/-- Bits [hi:lo] of word `i`. -/
def Cmd.f (c : Cmd) (i hi lo : Nat) : Nat := (c.word i).fld hi lo
/-- Bit `b` of word `i`. -/
def Cmd.b (c : Cmd) (i b : Nat) : Bool := (c.word i).bit b
/-- Word `i` as a number. -/
def Cmd.n (c : Cmd) (i : Nat) : Nat := (c.word i).toNat

/-- OPCODE (R179). -/
def Cmd.op (c : Cmd) : Nat := c.f 0 7 0
/-- ENGINE (R176). -/
def Cmd.engine (c : Cmd) : Nat := c.f 0 15 8
/-- TAG (R179). -/
def Cmd.tag (c : Cmd) : Nat := c.f 0 31 16
/-- The command as eight words. -/
def Cmd.words (c : Cmd) : List Word := [c.w0, c.w1, c.w2, c.w3, c.w4, c.w5, c.w6, c.w7]
/-- A command from a list of words. -/
def Cmd.ofWords (l : List Word) : Cmd :=
  { w0 := l.getD 0 0, w1 := l.getD 1 0, w2 := l.getD 2 0, w3 := l.getD 3 0,
    w4 := l.getD 4 0, w5 := l.getD 5 0, w6 := l.getD 6 0, w7 := l.getD 7 0 }

end Sys2Proof

namespace Sys2Proof.Machine

/-- The engine kinds: 0 matrix, 1 vector, 2 data movement, 3 control core; 4 names no target (R176). -/
def engineKind (e : Nat) : Nat := if e = 0xFF then 3 else if e < 24 then e / 8 else 4

/-- The engine kinds that may run an opcode (R179); empty for an opcode that the table lacks. -/
def opKinds (op : Nat) : List Nat :=
  if op = 0x00 ∨ op = 0x08 ∨ op = 0x09 ∨ op = 0x0A then [0, 1, 2, 3]
  else if op = 0x01 ∨ op = 0x02 ∨ op = 0x03 ∨ op = 0x04 ∨ op = 0x05 ∨ op = 0x06 then [3]
  else if op = 0x0C then [3, 2]
  else if op = 0x0D then [2]
  else if op = 0x20 ∨ op = 0x21 then [0]
  else if op = 0x30 ∨ op = 0x31 ∨ op = 0x38 then [1]
  else if op = 0x40 ∨ op = 0x41 ∨ op = 0x48 ∨ op = 0x50 ∨ op = 0x51 ∨ op = 0x52 then [2]
  else []

/-! ### Semaphore names (R188) -/

/-- SPACE of a name. -/
def semSpace (n : Nat) : Nat := bitsOf n 15 14
/-- INDEX of a name. -/
def semIndex (n : Nat) : Nat := bitsOf n 11 0

/-! ### Checks of fields at issue (R179)

The first value outside its range ends the job with REFUSED and detail 0x82, unless the rule names another. -/

/-- REFUSED, 0x82 (R208). -/
def badField : Nat := REFUSED 0x82

/-- A check that fails with a status. -/
def need (c : Bool) (st : Nat) (rest : Option Nat) : Option Nat := if c then rest else some st

/-- Every check passed. -/
def allOk : Option Nat := none

/-- The checks that the control core makes when it issues a command (R79 to R82, R179, R182, R190, R195 to
R200). `routine` says whether a routine issues it (R185). -/
def fieldStatus (c : Cmd) (routine : Bool) : Option Nat :=
  let op := c.op
  if op = 0x01 then need (decide (1 ≤ c.f 3 15 0)) badField (need (decide (c.f 5 4 0 ≤ 16)) badField allOk)
  else if op = 0x04 then need routine badField allOk
  else if op = 0x08 ∨ op = 0x09 then
    need (decide (c.f 3 3 2 ≠ 3)) badField (need (decide (1 ≤ c.f 2 23 0)) badField allOk)
  else if op = 0x0A then need (decide (c.f 1 1 0 ≠ 3)) badField (need (decide (c.f 1 3 2 ≠ 3)) badField allOk)
  else if op = 0x0C ∨ op = 0x0D then
    need (decide (1 ≤ c.f 3 12 0 ∧ c.f 3 12 0 ≤ 4096)) badField <|
    need (decide (op = 0x0D ∨ c.f 1 23 22 ≤ 1)) badField <|
    need (decide (op = 0x0C ∨ (1 ≤ c.f 4 22 12 ∧ c.f 4 22 12 ≤ 1024 ∧ c.f 4 9 0 + c.f 4 22 12 ≤ 1024))) badField allOk
  else if op = 0x20 then
    need (decide (c.f 7 29 27 ≤ 5 ∧ c.f 7 26 19 ≤ 128)) badField <|
    need (c.b 3 22 || decide (c.f 1 29 22 ≠ 2)) badField <| need (c.b 3 23 || decide (c.f 2 29 22 ≠ 2)) badField allOk
  else if op = 0x21 then need (decide (c.f 3 7 0 ≤ 128)) badField allOk
  else if op = 0x30 then
    need (fmtOk (c.f 1 15 8)) (UNSUPPORTED 0) <|
    need (decide (c.f 1 7 0 ≤ 0x09 ∨ (0x10 ≤ c.f 1 7 0 ∧ c.f 1 7 0 ≤ 0x13) ∨ c.f 1 7 0 = 0x18)) badField <|
    need (decide (c.f 1 15 8 = 6 ∨ c.f 1 15 8 = 7 ∨
      (c.f 1 15 8 = 9 ∧ [0x00, 0x01, 0x02, 0x05, 0x06, 0x07, 0x08].contains (c.f 1 7 0)))) badField <|
    need (decide (c.f 1 7 0 ≠ 0x18) || fmtOk (c.f 1 23 16)) (UNSUPPORTED 0) <|
    need (decide (c.f 1 7 0 ≠ 0x18) || [4, 5, 6, 7, 9].contains (c.f 1 23 16)) badField <|
    need (!c.b 5 23) badField allOk
  else if op = 0x31 then
    need (decide (c.f 1 1 0 ≤ 2)) badField <| need (fmtOk (c.f 1 15 8)) (UNSUPPORTED 0) <|
    need (!c.b 2 23 && !c.b 3 23) badField <| need (!c.b 3 22 || decide (c.f 4 15 0 ≤ 256)) badField <| need (decide (c.f 1 15 8 = 6 ∨ c.f 1 15 8 = 7)) badField <|
    need (decide (1 ≤ c.f 4 15 0 ∧ 1 ≤ c.f 5 23 0)) badField allOk
  else if op = 0x38 then
    need (fmtOk (c.f 1 29 23)) (UNSUPPORTED 0) <| need (decide (c.f 1 29 23 ≤ 5)) badField <|
    need (decide (c.f 1 29 23 ≤ 3 ∨ c.f 2 30 28 = 0)) badField <|
    need (decide (1 ≤ c.f 3 15 0 ∧ 1 ≤ c.f 3 31 16)) badField <|
    need (decide (c.f 2 23 22 ≤ 2 ∧ c.f 2 27 26 ≤ 2 ∧ c.f 2 30 28 ≤ 4)) badField allOk
  else if op = 0x40 then
    need (decide (c.f 7 19 18 ≠ 3 ∧ c.f 7 21 20 ≠ 3)) badField <|
    need (!(c.b 7 15 && c.b 7 16)) badField <|
    need (!(c.b 7 15 && decide (c.f 7 19 18 ≠ 0)) && !(c.b 7 16 && decide (c.f 7 21 20 ≠ 0))) badField <|
    need (decide (c.f 5 27 26 = 0 ∨ c.f 7 21 20 = 0)) badField allOk
  else if op = 0x41 then need (decide (1 ≤ c.f 6 15 0 ∧ 1 ≤ c.f 6 31 16)) badField allOk
  else if op = 0x48 then need (decide (c.f 3 13 12 ≠ 3)) badField allOk
  else if op = 0x50 ∨ op = 0x51 ∨ op = 0x52 then
    need (decide (op ≠ 0x52 ∨ c.f 6 1 0 ≠ 3)) (REFUSED 0x45) <|
    need (decide (c.f 5 31 24 = 0)) badField allOk
  else allOk

/-- The checks of opcode, engine and fields of a command that is issued. -/
def issueStatus (c : Cmd) (routine : Bool) : Option Nat :=
  let k := engineKind c.engine
  if (opKinds c.op).isEmpty then some (UNSUPPORTED 0)
  else if k = 4 then some (REFUSED 0x80)
  else if !(opKinds c.op).contains k then some (REFUSED 0x81)
  else fieldStatus c routine

end Sys2Proof.Machine
end

