-- ==== Sys2Proof/Machine/Pages.lean ====
section
/-! DEFINITION. Snowpack pages as engines and Firn units see them: the geometry of a KV class, the page view
and who may reach it (R209 to R215). -/

namespace Sys2Proof.Machine

/-! ### Geometry (R209, R210) -/

/-- Bytes of one token's codes of one head. -/
def KvClass.tokenBytes (k : KvClass) : Nat := k.dim * (if k.fmt = 1 then 8 else 4) / 8
/-- Scale bytes of one token of one head. -/
def KvClass.tokenScales (k : KvClass) : Nat := k.dim / 32
/-- KB. -/
def KvClass.kb (k : KvClass) : Nat := k.tokens * k.tokenBytes
/-- SB. -/
def KvClass.sb (k : KvClass) : Nat := k.tokens * k.tokenScales
/-- E: bytes of one token of one layer. -/
def KvClass.perToken (k : KvClass) : Nat := 2 * k.heads * (k.tokenBytes + k.tokenScales)
/-- Does the geometry fit a page? -/
def KvClass.fits (k : KvClass) : Bool := decide (256 + k.tokens * k.perToken ≤ 65536)

/-- The byte ranges (offset, length) of slot `t`. -/
def KvClass.slotRanges (k : KvClass) (t : Nat) : List (Nat × Nat) :=
  (List.range (2 * k.heads)).flatMap fun g =>
    [(256 + g * k.kb + t * k.tokenBytes, k.tokenBytes),
     (256 + 2 * k.heads * k.kb + g * k.sb + t * k.tokenScales, k.tokenScales)]

/-- The slot that holds byte `x` of a page, when it lies in one. -/
def KvClass.slotOf (k : KvClass) (x : Nat) : Option Nat :=
  let codes := 256 + 2 * k.heads * k.kb
  if x < 256 then none
  else if x < codes then some ((x - 256) % max 1 k.kb / max 1 k.tokenBytes)
  else if x < codes + 2 * k.heads * k.sb then some ((x - codes) % max 1 k.sb / max 1 k.tokenScales)
  else none

/-! ### Traffic (R17, R98, R110, R115) -/

/-- `k` accesses past the cache of the die that owns a stack, counted there and at the stack. -/
def Block.stackTraffic (s : Block) (n k : Nat) (wr narrow : Bool) : Block :=
  let s := s.bumpPair (SRC_MSC_MISSES_LO (n / 6)) k
  let s := if narrow then s.bumpPair (STK_NARROW_LO n) k else s
  s.bumpPair (if wr then STK_WR_BYTES_LO n else STK_RD_BYTES_LO n) (k * if narrow then 32 else 256)

/-- `k` accesses to a place of the module: STREAM, past the cache of the die that owns it, counted there, at its stack and
for its frame. Host and far places take none. -/
def Block.locTraffic (s : Block) (p : Nat) (l : PageLoc) (k : Nat) (wr narrow : Bool) : Block :=
  match locStack l, locFrame l with
  | some n, some fr =>
    let w := s.snowOf p
    (s.setSnow p { w with counts := tset 0 w.counts fr (min 0xFFFF (tget 0 w.counts fr + k)) }).stackTraffic n k wr narrow
  | _, _ => s

/-! ### Pages -/

/-- A page of a partition. -/
def Block.page (s : Block) (p pid : Nat) : Option Page := kget (s.snowOf p).pages pid
/-- A page changed. -/
def Block.modPage (s : Block) (p pid : Nat) (f : Page → Page) : Block :=
  s.setSnow p { s.snowOf p with pages := kmod (s.snowOf p).pages pid f }

/-- Is the handle that of the partition's page view (R215)? -/
def Block.isView (s : Block) (p : Nat) (h : Word) : Bool := h == s.rg (SNW p 0) && decide (h ≠ 0)

/-- The end of the page view: 2^25 page IDs. -/
def viewBytes : Nat := 33554432 * 65536

/-- Does the page lie in an arena? -/
def Page.inArena (g : Page) : Bool := match g.loc with | .host _ _ => true | .far _ _ => true | _ => false

/-- The tier of a place (R338). -/
def locTier : PageLoc → Nat
  | .compute _ _ => 0
  | .capacity _ _ => 1
  | .host _ _ => 2
  | .far _ _ => 3

/-- The requests of the step that a job runs. -/
def Block.stepRows (s : Block) (j : Job) : List StepRow :=
  match j.step with
  | none => []
  | some (p, m) =>
    match kget s.serve p with
    | none => []
    | some v => (((kget v.models m).bind (·.step)).map (·.rows)).getD []

/-- The functions for which a job works: its client, or the clients of its step's requests. -/
def Block.jobFns (s : Block) (j : Job) : List Nat :=
  if j.step.isNone then [j.fn] else (s.stepRows j).filterMap fun r => (kget s.reqs r.req).map (·.fn)

/-- Do two functions share a namespace (R213, R229)? -/
def Snow.shareNs (w : Snow) (f g : Nat) : Bool := (kget w.nsOf f).isSome && kget w.nsOf f == kget w.nsOf g

/-- May a function name a sequence for a read (R213)? -/
def Block.mayRead (s : Block) (p f : Nat) (q : Seq) : Bool := q.owner == f || (s.snowOf p).shareNs f q.owner

/-- Does a sequence hold a page? -/
def Seq.holds (q : Seq) (pid : Nat) : Bool := q.pages.any fun l => l.2.contains pid

/-- May a job read a page through the view (R215)? `owner` of a page of a step is the job's number plus 1. -/
def Block.mayView (s : Block) (j : Nat) (job : Job) (pid : Nat) : Bool :=
  match s.page job.part pid with
  | none => false
  | some g =>
    decide (g.owner = j + 1) ||
    (s.snowOf job.part).seqs.any fun e =>
      e.2.holds pid && (s.jobFns job).any fun f => s.mayRead job.part f e.2

/-- The page IDs that a byte range of the view touches. -/
def viewPages (off n : Nat) : List Nat :=
  if n = 0 then [] else (List.range ((off + n - 1) / 65536 + 1 - off / 65536)).map (off / 65536 + ·)

/-- Is the channel group RUNNING that holds a page of the module (R113)? -/
def Block.locUp (s : Block) (l : PageLoc) : Bool :=
  match locStack l with
  | some n => s.cgState n (locGroup l) == 2
  | none => true

/-- The status of a page in a channel group that is not RUNNING (R113). -/
def Block.pageUp (s : Block) (p pid : Nat) : Option Nat :=
  match s.page p pid with
  | some g => if s.locUp g.loc then none else some (NOT_READY 0x54)
  | none => none

/-- The traffic of a range of the view. -/
def Block.viewTraffic (s : Block) (p off n : Nat) (wr narrow : Bool) : Block :=
  s.each (viewPages off n) fun s pid =>
    let a := max off (pid * 65536)
    let e := min (off + n) (pid * 65536 + 65536)
    match s.page p pid with
    | some g =>
      let s := s.locTraffic p g.loc (accessSectors a (e - a) narrow).length wr narrow
      match locStack g.loc with
      | some n => if wr then s else s.meetErrors n p 0 fun x => decide (a / 32 ≤ x ∧ x * 32 < e)
      | none => s
    | none => s

/-- The status with which a read of the view ends, if it does. -/
def Block.viewReadStatus (s : Block) (j : Nat) (job : Job) (off n : Nat) : Option Nat :=
  if viewBytes < off + n then some (REFUSED 0x4C)
  else (viewPages off n).findSome? fun pid =>
    if !s.mayView j job pid then some (DENIED 0xA1)
    else match s.page job.part pid with
      | some g => if g.inArena then some (NOT_READY 0xA4) else s.pageUp job.part pid
      | none => some (DENIED 0xA1)

/-- Is byte `x` of a page in an append slot of the job's step (R215)? -/
def Block.appendByte (s : Block) (job : Job) (pid x : Nat) : Bool :=
  match s.page job.part pid with
  | none => false
  | some g =>
    match kget (s.snowOf job.part).classes g.cls with
    | none => false
    | some k =>
      match k.slotOf x with
      | none => false
      | some t => (s.stepRows job).any fun r => r.append.any fun l =>
          l.2.zipIdx.any fun y =>
            y.1 == pid && decide (r.slot0 ≤ y.2 * k.tokens + t) && decide (y.2 * k.tokens + t < r.slot0 + r.real)

/-- The status with which a write of the view ends, if it does. -/
def Block.viewWriteStatus (s : Block) (job : Job) (off n : Nat) : Option Nat :=
  if viewBytes < off + n then some (REFUSED 0x4C)
  else if (List.range n).all fun i => s.appendByte job ((off + i) / 65536) ((off + i) % 65536) then
    (viewPages off n).findSome? (s.pageUp job.part)
  else some (DENIED 0xA1)

/-- Bytes and marks of a range of the view. -/
def Block.viewRead (s : Block) (p off n : Nat) : List Byte × List Bool :=
  let parts := (viewPages off n).map fun pid =>
    let a := max off (pid * 65536)
    let e := min (off + n) (pid * 65536 + 65536)
    match s.page p pid with
    | some g => (g.data.read (a % 65536) (e - a), g.data.marks (a % 65536) (e - a))
    | none => (List.replicate (e - a) 0, [])
  (parts.flatMap (·.1), parts.flatMap (·.2))

/-- Bytes written through the view; they are performed at the bank group before the write completes (R215). -/
def Block.viewWrite (s : Block) (p off : Nat) (bs : List Byte) (ps : List Bool) : Block :=
  s.each (viewPages off bs.length) fun s pid =>
    let a := max off (pid * 65536)
    let e := min (off + bs.length) (pid * 65536 + 65536)
    s.modPage p pid fun g =>
      { g with data := g.data.write (a % 65536) ((bs.drop (a - off)).take (e - a)) (ps.drop (a / 32 - off / 32)) }

end Sys2Proof.Machine
end

