-- ==== Sys2Proof/Machine/Clusters.lean ====
section
/-! DEFINITION. What a cluster and its tiles hold, and how an engine queue reads and writes memory: shared
memory, tile memory, the cluster read cache, writes that have not reached their point of coherence (R160,
R161, R275 to R286, R298, R318). -/

namespace Sys2Proof.Machine

/-- A comparator that is off. -/
def Brk.off : Brk := { en := false, tagKind := false, value := 0, mask := 0 }

/-- A cluster that runs nothing. -/
def Cluster.reset : Cluster :=
  { state := .idle, stallQ := 0, job := none, stream := 0, pos := 0, calls := [], loops := [], count := 0,
    rootTag := 0, pushSeq := 0, queues := [], shm := Store.empty, hwm := 0, lines := [], out := [], accNext := 0, released := [],
    flags := [], learnt := [], sems := [],
    brk0 := Brk.off, brk1 := Brk.off, stepOver := 0, epochs := [], preempt := false, cheap := none,
    forced := false, ended := false, pushDone := 0 }

/-- A cluster. -/
def Block.cl (s : Block) (c : Nat) : Cluster := tget Cluster.reset s.clusters c
/-- A cluster set. -/
def Block.setCl (s : Block) (c : Nat) (k : Cluster) : Block :=
  { s with clusters := tset Cluster.reset s.clusters c k }
/-- A cluster changed. -/
def Block.modCl (s : Block) (c : Nat) (f : Cluster → Cluster) : Block := s.setCl c (f (s.cl c))

/-- An array that holds nothing. -/
def MatArray.reset : MatArray := { active := [], background := [], half0 := [], half1 := [], half := 0, run := none }
/-- A tile that holds nothing. -/
def Tile.reset : Tile := { mem := Store.empty, vregs := [], arr := MatArray.reset }
/-- A tile. -/
def Block.tile (s : Block) (t : Nat) : Tile := tget Tile.reset s.tiles t
/-- A tile changed. -/
def Block.modTile (s : Block) (t : Nat) (f : Tile → Tile) : Block :=
  { s with tiles := tset Tile.reset s.tiles t (f (s.tile t)) }

/-- A job. -/
def Block.jobAt (s : Block) (j : Nat) : Option Job := kget s.jobs j
/-- A job changed. -/
def Block.modJob (s : Block) (j : Nat) (f : Job → Job) : Block := { s with jobs := kmod s.jobs j f }

/-- The commands of an engine queue. -/
def Cluster.queue (k : Cluster) (q : Nat) : List QEntry := tget [] k.queues q
/-- An engine queue set. -/
def Cluster.setQueue (k : Cluster) (q : Nat) (l : List QEntry) : Cluster :=
  { k with queues := tset [] k.queues q l }

/-! ### Tile memory and shared memory -/

/-- STATE of a tile (R166). -/
def Block.tileState (s : Block) (t : Nat) : Nat := s.fld (FLOE_STATE t) 2 0
/-- The regions that the running job holds. -/
def Block.tmRegions (s : Block) (t : Nat) : Nat := s.fld (FLOE_STATE t) 9 4

/-- Does a byte range lie in the job's regions, region 62 counted for a routine's command (R160)? -/
def Block.tmOk (s : Block) (t : Nat) (routine : Bool) (a n : Nat) : Bool :=
  let r := s.tmRegions t * 65536
  decide (n = 0 ∨ a + n ≤ r) || (routine && decide ((0x3E0000 ≤ a ∨ r = 0x3E0000) ∧ a + n ≤ 0x3F0000))

/-- TM_RANGE (R173). -/
def tmRange : Nat := REFUSED 0x70
/-- CRC_RANGE (R306). -/
def crcRange : Nat := REFUSED 0xC0
/-- The end of the shared memory that commands may name (R280). -/
def shmEnd : Nat := 0x780000

/-- Bytes of tile memory. -/
def Block.tmRead (s : Block) (t a n : Nat) : List Byte := (s.tile t).mem.read a n
/-- Bytes written to tile memory. -/
def Block.tmWrite (s : Block) (t a : Nat) (bs : List Byte) (ps : List Bool := []) : Block :=
  s.modTile t fun x => { x with mem := x.mem.write a bs ps }
/-- Tile memory without what region `r` held. -/
def Store.dropRegion (m : Store) (r : Nat) : Store :=
  { cells := m.cells.filter fun x => x.1 / 65536 != r, poison := m.poison.filter fun x => x / 2048 != r }
/-- A word of tile memory. -/
def Block.tmWord (s : Block) (t a : Nat) : Word := (s.tile t).mem.word a

/-- Bytes of shared memory. -/
def Block.shmRead (s : Block) (c a n : Nat) : List Byte := (s.cl c).shm.read a n
/-- A word of shared memory. -/
def Block.shmWord (s : Block) (c a : Nat) : Word := (s.cl c).shm.word a
/-- Bytes written to shared memory by the job; the high-water mark follows (R318). -/
def Block.shmWrite (s : Block) (c a : Nat) (bs : List Byte) (ps : List Bool := []) : Block :=
  if bs.isEmpty then s else
  s.modCl c fun k =>
    { k with shm := k.shm.write a bs ps, hwm := max k.hwm (min 1920 ((a + bs.length - 1) / 4096 + 1)) }

/-- Marks of the sectors of a destination at `b` that receive bytes from marked sectors of a source at `a`
(R466). -/
def shiftMarks (a b n : Nat) (ms : List Bool) : List Bool :=
  if ms.all (!·) then [] else
  (List.range (ceilDiv (b % 32 + n) 32)).map fun i =>
    ms.zipIdx.any fun m => m.1 &&
      decide (m.2 * 32 + b % 32 < i * 32 + 32 + a % 32) && decide (i * 32 + a % 32 < m.2 * 32 + 32 + b % 32)

/-! ### Writes on their way (R276 to R279, R284)

A write of an engine queue is one access, cut into its 32 B sectors. Each sector leaves the cluster in its own time; but
those of two accesses to one 256 B unit keep the order in which the cluster issued them, unless one is of an unordered
COPY. That the order holds between queues of one cluster too is DEDUCED, log entry 44. -/

/-- Must an earlier write of the cluster reach its point of coherence before a later one (R278)? -/
def PendWrite.before (w v : PendWrite) : Bool :=
  w.part == v.part && w.slot == v.slot && w.off / 256 == v.off / 256 && w.acc != v.acc && !w.loose && !v.loose

/-- Writes of a cluster performed at their points of coherence. -/
def Block.performOut (s : Block) (c : Nat) (f : PendWrite → Bool) : Block :=
  let r := splitBy f PendWrite.before (s.cl c).out
  let s := s.each r.1 fun s w => s.performFirst c w.part w.slot w
  s.modCl c fun k => { k with out := r.2 }

/-- Writes forwarded to the copies of every object (R72). -/
def Block.forwardLag (s : Block) (f : CopyLag → Bool) : Block :=
  { s with objs := kmap s.objs fun _ os =>
      if os.live.all fun o => o.2.lag.isEmpty then os else { os with live := kmap os.live fun _ o => o.forward f } }

/-- Every write that queue `q` is bound to release, performed in every copy. -/
def Block.performOwned (s : Block) (c q : Nat) : Block :=
  (s.performOut c fun w => w.owners.contains q).forwardLag fun w => w.cluster == c && w.owners.contains q

/-- Any writes of the cluster performed: which of them is open (R279). -/
def Block.drainSome (s : Block) (c : Nat) : Block :=
  let b := s.freeVal
  let s := s.drawn.performOut c fun w => b.testBit ((w.off / 32 + w.slot) % 64)
  s.forwardLag fun w => w.cluster == c && b.testBit (64 + (w.off / 32 + w.copy) % 64)

/-- The accesses of a cluster that are not performed everywhere yet and that satisfy a test on their owners. -/
def Block.openAccs (s : Block) (c : Nat) (f : List Nat → Bool) : List Nat :=
  (((s.cl c).out.filter fun w => f w.owners).map (·.acc) ++
    s.objs.flatMap fun e => e.2.live.flatMap fun o =>
      (o.2.lag.filter fun w => w.cluster == c && f w.owners).map (·.acc)).dedup

/-- Queues become bound to release accesses of their cluster: they have synchronized with the queues that made them
(R284, R290). -/
def Block.bindAccs (s : Block) (c : Nat) (qs accs : List Nat) : Block :=
  if accs.isEmpty then s else
  let add (l : List Nat) : List Nat := l ++ qs.filter fun q => !l.contains q
  let s := s.modCl c fun k =>
    { k with out := k.out.map fun w => if accs.contains w.acc then { w with owners := add w.owners } else w }
  { s with objs := kmap s.objs fun _ os =>
      if os.live.all fun o => o.2.lag.isEmpty then os
      else { os with live := kmap os.live fun _ o =>
        { o with lag := o.lag.map fun w => if w.cluster == c && accs.contains w.acc then { w with owners := add w.owners } else w } } }

/-! ### The cluster read cache (R280 to R282) -/

/-- The line of a cluster's cache that holds a unit. -/
def Cluster.line (k : Cluster) (p : Nat) (h : Word) (u : Nat) : Option CrcLine :=
  k.lines.find? fun x => x.part == p && x.handle == h && x.line == u

/-- Is this the line of a unit? -/
def CrcLine.of (x : CrcLine) (p : Nat) (h : Word) (u : Nat) : Bool := x.part == p && x.handle == h && x.line == u

/-- A line becomes the most recently used; a set holds 8 (R280). -/
def Cluster.useLine (k : Cluster) (x : CrcLine) : Cluster :=
  let rest := k.lines.filter fun y => !y.of x.part x.handle x.line
  let set (y : CrcLine) := Config.crcSet y.handle.toNat y.line % 256
  let mine := rest.filter fun y => set y == set x
  let rest := if mine.length < 8 then rest else
    match mine.getLast? with
    | some v => rest.filter fun y => !(y == v)
    | none => rest
  { k with lines := x :: rest }

/-- The fills that a running command asked for and that may not have arrived at an invalidation: which of them had is
open (R282). -/
def Block.droppedFills (s : Block) (c : Nat) : Nat × Block :=
  (s.cl c).lines.foldl (fun a x =>
    match x.filler with
    | some _ => let r := a.2.choose 2; (a.1 + r.1, r.2)
    | none => a) (0, s)

/-- The whole cache invalidated (R285); a fill on its way is not kept, and counted (R282). -/
def Block.crcInvalidate (s : Block) (c : Nat) : Block :=
  let r := s.droppedFills c
  let s := if r.1 = 0 then r.2 else r.2.bump (CRC_DROPPED_FILLS c) r.1
  (s.modCl c fun k => { k with lines := [] }).bump (CRC_INVALS c)

/-- A queue's command has completed: its fills have arrived. -/
def Cluster.fillsDone (k : Cluster) (q : Nat) : Cluster :=
  { k with lines := k.lines.map fun x => if x.filler = some q then { x with filler := none } else x }

/-- The line of a unit, changed as a store. -/
def Block.modLine (s : Block) (c p : Nat) (h : Word) (u : Nat) (f : Store → Store) : Block :=
  s.modCl c fun k =>
    { k with lines := k.lines.map fun x =>
        if x.of p h u then
          let m := f { cells := memWrite [] 0 x.data, poison := (List.range 8).filter fun i => x.poison.getD i false }
          { x with data := m.read 0 256, poison := m.marks 0 256 }
        else x }

/-- A write of the cluster's own queues updates a line that the cache holds (R281). -/
def Block.crcUpdate (s : Block) (c p : Nat) (h : Word) (off : Nat) (bs : List Byte) (ps : List Bool) : Block :=
  match s.byHandle p h with
  | none => s
  | some o => s.modLine c p h (off / 256) fun m =>
      m.write (off % 256) (bs.zipIdx.map fun y => if (sectOf o.desc (off + y.2)).isSome then y.1 else 0) ps

/-- Bytes of a line taken from the point of coherence, where an adder has written them. -/
def Block.crcRefresh (s : Block) (c p : Nat) (h : Word) (off n : Nat) : Block :=
  match s.byHandle p h with
  | none => s
  | some o => s.modLine c p h (off / 256) fun m => m.write (off % 256) (o.read off n) (o.data.marks off n)

/-! ### Flags (R289) -/

/-- A write of queue `q` carries the releases that the queue has made before it. -/
def Cluster.addFlag (k : Cluster) (q : Nat) (obj : Option (Nat × Nat)) (off n acc : Nat) : Cluster :=
  let old := k.flags.filter fun f => !(f.obj == obj && decide (off < f.off + f.len ∧ f.off < off + n))
  let covers := tget [] k.released q
  { k with flags := if covers.isEmpty then old else old ++ [{ obj := obj, off := off, len := n, acc := acc, covers := covers }] }

/-- A read of queue `q` has returned a range: it has read the flags there whose writes it saw. -/
def Cluster.learn (k : Cluster) (q : Nat) (obj : Option (Nat × Nat)) (off n : Nat) (all : Bool) : Cluster :=
  let hit := k.flags.filter fun f => f.obj == obj && decide (off < f.off + f.len ∧ f.off < off + n) &&
    (all || !k.out.any fun w => w.acc == f.acc)
  if hit.isEmpty then k else
  { k with learnt := tset [] k.learnt q ((tget [] k.learnt q ++ hit.flatMap (·.covers)).dedup) }

/-! ### Objects read and written by an engine queue -/

/-- Who reads or writes an object: cluster, engine queue, the object, the hint and the path, whether the read may allocate
a line of the cluster's read cache (R281), and whether the write is of an unordered COPY (R278). -/
structure Mover where
  c : Nat
  q : Nat
  p : Nat
  h : Word
  hint : Nat
  narrow : Bool
  fills : Bool
  loose : Bool

/-- The parts of a byte range that lie in one block of `z` bytes each: (offset, length). -/
def blockParts (z off n : Nat) : List (Nat × Nat) :=
  if n = 0 then [] else
  (List.range ((off + n - 1) / z + 1 - off / z)).map fun i =>
    let a := max off ((off / z + i) * z)
    (a, min (off + n) ((off / z + i) * z + z) - a)

/-- The parts of a byte range that lie in one 256 B unit each. -/
def unitParts (off n : Nat) : List (Nat × Nat) := blockParts 256 off n

/-- Bytes written to an object: the traffic, the lines of the cluster's cache, and one write for each sector on its way. -/
def Block.objWrite (s : Block) (m : Mover) (off : Nat) (bs : List Byte) (ps : List Bool) : Block :=
  let s := s.traffic m.p m.h (m.c / 8) off bs.length m.hint true m.narrow
  let s := s.each (unitParts off bs.length) fun s u =>
    s.crcUpdate m.c m.p m.h u.1 ((bs.drop (u.1 - off)).take u.2) (ps.drop (u.1 / 32 - off / 32))
  let firn := ((s.byHandle m.p m.h).map (·.firn)).getD true
  s.modCl m.c fun k =>
    let new := (blockParts 32 off bs.length).map fun u =>
      ({ acc := k.accNext, owners := [m.q], seen := [], loose := m.loose, part := m.p, slot := hSlot m.h, off := u.1,
         data := (bs.drop (u.1 - off)).take u.2, mark := ps.getD (u.1 / 32 - off / 32) false } : PendWrite)
    let k := if firn then k else k.addFlag m.q (some (m.p, hSlot m.h)) off bs.length k.accNext
    { k with accNext := k.accNext + 1, out := k.out ++ new }

/-- A queue has seen every write to a unit that its cluster has under way: the line that it read holds them all. -/
def Cluster.seeUnit (k : Cluster) (q p slot u : Nat) : Cluster :=
  { k with out := k.out.map fun w =>
      if w.part == p && w.slot == slot && w.off / 256 == u then
        { w with loose := false, seen := if w.seen.contains q then w.seen else w.seen ++ [q] }
      else w }

/-- The same of the writes that a copy of the object lacks: the line holds them. -/
def Obj.seeLag (o : Obj) (c q u : Nat) : Obj :=
  if o.lag.isEmpty then o else
  { o with lag := o.lag.map fun w =>
      if w.cluster == c && w.off / 256 == u && !w.seen.contains q then { w with seen := w.seen ++ [q] } else w }

/-- Is the write one that queue `q` must find in what it reads: its own, one that it is bound to release, one that it has
seen (R277, R290)? -/
def bound (q : Nat) (owners seen : List Nat) : Bool := owners.contains q || seen.contains q

/-- A read that meets an uncorrectable error in a line: the line goes, and the error is counted (R465). -/
def Block.crcErrors (s : Block) (c p : Nat) (h : Word) (off n : Nat) : Block :=
  let bad (e : CacheErr) : Bool := e.crc && e.unit == c && e.part == p && e.handle == h && inSectors off n (e.sector * 32)
  let k := (s.env.cacheErrs.filter bad).length
  if k = 0 ∨ ((s.cl c).line p h (off / 256)).isNone then s else
  ((s.errsGone bad).bump (ERR_SRAM_UE (c / 8)) k).modCl c fun x => { x with lines := x.lines.filter fun y => !y.of p h (off / 256) }

/-- What a copy of an object holds in a range. -/
def Block.copyBytes (s : Block) (p : Nat) (h : Word) (copy off n : Nat) : List Byte × List Bool :=
  match s.byHandle p h with
  | some o => ((o.copyData copy).read off n, (o.copyData copy).marks off n)
  | none => ([], [])

/-- A read of a unit that no line serves: the writes that the queue must find are performed first, in the copy that it
reads; whether the other queues' are is open until they synchronize (R277). A read that allocates a line finds its
cluster's writes in the line. -/
def Block.objMiss (s : Block) (m : Mover) (o : Obj) (off n : Nat) : (List Byte × List Bool) × Block :=
  let u := off / 256
  let copy := s.copyFor m.p (m.c / 8) o
  let mine (w : PendWrite) := w.part == m.p && w.slot == hSlot m.h && w.off / 256 == u
  let late (w : CopyLag) := w.copy == copy && w.cluster == m.c && w.off / 256 == u
  let fwd (s : Block) (f : CopyLag → Bool) : Block :=
    if copy = 0 then s else s.modObj m.p (hSlot m.h) fun o => o.forward fun w => late w && f w
  let s := if o.firn then s else s.bumpPair (CRC_MISSES_LO m.c) 1
  let s := fwd (s.performOut m.c fun w => mine w && bound m.q w.owners w.seen) fun w => bound m.q w.owners w.seen
  let (b, s) := s.choose 2
  let s := if b = 1 then fwd (s.performOut m.c mine) fun _ => true else s
  let res := s.copyBytes m.p m.h copy off n
  let s := s.modCl m.c fun k => k.learn m.q (some (m.p, hSlot m.h)) off n false
  if m.fills && !o.firn && !m.narrow && m.hint != 1 then
    let s := fwd (s.performOut m.c mine) fun _ => true
    let all := s.copyBytes m.p m.h copy (u * 256) 256
    (res, s.modCl m.c fun k =>
      k.useLine { part := m.p, handle := m.h, line := u, filler := some m.q, data := all.1, poison := all.2 })
  else (res, s)

/-- One 256 B unit, or part of it, read by a queue of a cluster, from a line where the cluster's cache holds one. -/
def Block.objReadUnit (s : Block) (m : Mover) (off n : Nat) : (List Byte × List Bool) × Block :=
  match s.byHandle m.p m.h with
  | none => (([], []), s)
  | some o =>
    let s := if o.firn then s else s.crcErrors m.c m.p m.h off n
    match (if o.firn then none else (s.cl m.c).line m.p m.h (off / 256)) with
    | some x =>
      let s := s.modCl m.c fun k =>
        ((k.useLine { x with filler := none }).seeUnit m.q m.p (hSlot m.h) (off / 256)).learn m.q (some (m.p, hSlot m.h)) off n true
      let s := s.modObj m.p (hSlot m.h) fun o => o.seeLag m.c m.q (off / 256)
      (((x.data.drop (off % 256)).take n, (x.poison.drop (off % 256 / 32)).take (ceilDiv (off % 32 + n) 32)),
        s.bumpPair (CRC_HITS_LO m.c) 1)
    | none => (s.traffic m.p m.h (m.c / 8) off n m.hint false m.narrow).objMiss m o off n

/-- Bytes of an object read by a queue of a cluster. -/
def Block.objRead (s : Block) (m : Mover) (off n : Nat) : (List Byte × List Bool) × Block :=
  (unitParts off n).foldl (fun (a : (List Byte × List Bool) × Block) u =>
    let r := a.2.objReadUnit m u.1 u.2
    ((a.1.1 ++ r.1.1, a.1.2 ++ r.1.2), r.2)) (([], []), s)

/-- The checks of a byte range of an object that a command of cluster `c` names (R66, R75, R113, R366). -/
def Block.objStatus (s : Block) (c : Nat) (wr : Bool) (j : Job) (h : Word) (off n : Nat) : Option Nat :=
  match s.nameStatus j.part j.fn j.bundle h, s.byHandle j.part h with
  | some st, _ => some st
  | none, none => some (REFUSED 0x40)
  | none, some o =>
    if viewEnd o.desc < off + n then some (REFUSED 0x4C)
    else if !o.ownPiece off n then some (REFUSED 0xE5)
    else if !s.rangeUp o (s.reached j.part (c / 8) o wr) off n then some (NOT_READY 0x54)
    else none

end Sys2Proof.Machine
end

