-- ==== Sys2Proof/Machine/Jobs.lean ====
section
/-! DEFINITION. Jobs and semaphores: charging of engine time, releases and acquires, waits and signals, how a
job fails and ends (R180, R181, R188 to R194, R284 to R293, R312 to R315, R323, R343, R384, R385). -/

namespace Sys2Proof.Machine

/-! ### Accounting (R312 to R315, R326) -/

/-- WEIGHT of a client; a 0 is stored as 1. -/
def Block.weight (s : Block) (f : Nat) : Nat := max 1 (s.fld (SCH_C_CFG f) 31 16)

/-- V of a client. -/
def Block.vtime (s : Block) (f : Nat) : Nat := s.pair (SCH_C f 0x30)

/-- V of a client raised; while SCHED is away the rise waits for its return (R410). -/
def Block.raiseVtime (s : Block) (f d : Nat) : Block :=
  if s.coreUp 1 then s.bumpPair (SCH_C f 0x30) d else { s with vOwed := tset 0 s.vOwed f (tget 0 s.vOwed f + d) }

/-- The rises of V that SCHED has missed, on its return. -/
def Block.payVtime (s : Block) : Block := s.each s.vOwed fun s e => { s.bumpPair (SCH_C e.1 0x30) e.2 with vOwed := [] }

/-- Engine time charged to a client: the class's counter, and V at the weight in force (R313, R314). -/
def Block.chargeClient (s : Block) (f cls ns weight : Nat) : Block :=
  (s.bumpPair (SCH_C f (0x10 + 8 * cls)) ns).raiseVtime f (ns * 65536 / max 1 weight)

/-- Engine time of a job: its sums, and its client's at once unless it is a step's job, whose time SERVE
divides at the boundary (R313). Inherited time is counted too (R323). -/
def Block.charge (s : Block) (j cls ns : Nat) : Block :=
  match s.jobAt j with
  | none => s
  | some J =>
    let s := s.modJob j fun x => { x with ns := (addLists x.ns ((List.range 4).map fun i => if i = cls then ns else 0)) }
    let w := match J.inherit with
      | some (_, w) => w
      | none => s.weight J.fn
    let s := if J.inherit.isSome then s.bump (SCH_P J.part 0x1C) ns else s
    if J.step.isSome then s else s.chargeClient J.fn cls ns w

/-- The counters of a class in a client's block: waiting pair, pre-emptions, ended (R333); BATCH has the last
alone. -/
def classEnded (cls : Nat) : Nat := if cls = 0 then 0x4C else if cls = 1 then 0x5C else 0x6C

/-- A job or request of a class ends (R326). -/
def Block.countEnded (s : Block) (f cls : Nat) : Block := s.bump (SCH_C f (classEnded cls))

/-- Waiting time of a class (R326). -/
def Block.countWait (s : Block) (f cls ns : Nat) : Block :=
  if cls < 2 then s.bumpPair (SCH_C f (0x40 + 0x10 * cls)) ns else s

/-- A pre-emption or pause suffered (R326). -/
def Block.countPreempt (s : Block) (f cls : Nat) : Block :=
  if cls < 2 then s.bump (SCH_C f (0x48 + 0x10 * cls)) else s

/-- Is a job placed? -/
def Job.placed (j : Job) : Bool := j.state != .ready && j.state != .saved

/-- RUNNING_JOBS and READY_JOBS of a partition (R332). -/
def Block.countJobs (s : Block) (p : Nat) : Block :=
  let l := s.jobs.filter fun e => e.2.part == p
  let run := (l.filter fun e => e.2.placed).length
  (s.wf (SCH_P_STATE p) 9 4 (min 32 run)).wf (SCH_P_STATE p) 31 16 (min 0xFFFF (l.length - run))

/-! ### Releases and acquires (R284 to R292) -/

/-- A release of queue `q`: at chip or system scope the writes that it covers are performed, at core scope they are
remembered as covered and keep their order from now on. A release of the control core covers no engine's writes (R284,
R287). -/
def Block.release (s : Block) (c q scope : Nat) : Block :=
  if q = 24 then s
  else if 1 ≤ scope then (s.performOwned c q).modCl c fun k => { k with released := tset [] k.released q [] }
  else
    let accs := s.openAccs c fun l => l.contains q
    s.modCl c fun k =>
      { k with released := tset [] k.released q accs,
               out := k.out.map fun w => if w.owners.contains q then { w with loose := false } else w }

/-- Every write of the cluster performed in every copy (R292). -/
def Block.releaseAll (s : Block) (c : Nat) : Block :=
  (s.performOut c fun _ => true).forwardLag fun w => w.cluster == c

/-- An acquire of queue `q` at a scope: what the flags that it has read carry binds it too (R289), and the read cache is
invalidated from chip scope up. -/
def Block.acquire (s : Block) (c q scope : Nat) : Block :=
  let s := s.bindAccs c [q] (tget [] (s.cl c).learnt q)
  let s := s.modCl c fun k => { k with learnt := tset [] k.learnt q [] }
  if 1 ≤ scope then s.crcInvalidate c else s

/-- Remote writes, reduction writes and ATOMICs of a cluster's job that no acknowledgement has answered
(R284). -/
def Block.remoteOpen (s : Block) (c : Nat) : Bool :=
  s.esk.out.any fun e => e.2.cluster == c && e.2.ptype != 3 && (s.cl c).job == some e.2.job

/-- Requests of a job outstanding (R363). -/
def Block.jobOut (s : Block) (j : Nat) : Nat := (s.esk.out.filter fun e => e.2.job == j).length

/-! ### Semaphores -/

/-- A semaphore with a count. -/
def Sem.fresh (p n : Nat) : Sem :=
  { count := n, relScope := none, relCluster := 0, covers := [], holder := none, holdN := 0, holdAt := 0,
    waiters := [], part := p }

/-- The semaphore that a name means to cluster `c` of job `j`, when R188 admits it. -/
def Block.semRef (s : Block) (j c name : Nat) : Option SemRef :=
  match s.jobAt j with
  | none => none
  | some J =>
    let i := semIndex name
    match semSpace name with
    | 0 => if (kget (s.cl c).sems i).isSome then some (.localSem c i) else none
    | 1 => if (kget J.sems i).isSome then some (.jobSem j i) else none
    | 2 => match kget s.sems i with
      | some x => if x.part = J.part then some (.globalSem i) else none
      | none => none
    | _ => none

/-- May a command name the LOCAL index: below SEM_LOCAL, or 1,008 to 1,023 from a routine (R187, R188)? -/
def Block.semNameOk (s : Block) (J : Job) (routine : Bool) (name : Nat) : Bool :=
  semSpace name != 0 || (match kget s.bundles J.bundle with
    | none => false
    | some b => decide (semIndex name < b.img.semLocal) || (routine && decide (1008 ≤ semIndex name)))

/-- The semaphore. -/
def Block.sem (s : Block) (r : SemRef) : Option Sem :=
  match r with
  | .localSem c i => kget (s.cl c).sems i
  | .jobSem j i => (s.jobAt j).bind fun J => kget J.sems i
  | .globalSem i => kget s.sems i

/-- The semaphore changed. -/
def Block.modSem (s : Block) (r : SemRef) (f : Sem → Sem) : Block :=
  match r with
  | .localSem c i => s.modCl c fun k => { k with sems := kmod k.sems i f }
  | .jobSem j i => s.modJob j fun J => { J with sems := kmod J.sems i f }
  | .globalSem i => { s with sems := kmod s.sems i f }

/-- The ledger that covers a semaphore (R338). -/
def Block.semLedger (s : Block) (r : SemRef) : Nat :=
  match r with
  | .localSem c _ => match (s.cl c).job.bind s.jobAt with
    | some J => 0x1C0 + J.part
    | none => 0x1E0
  | .jobSem j _ => match s.jobAt j with
    | some J => 0x1C0 + J.part
    | none => 0x1E0
  | .globalSem _ => 0x1E0

/-- A signal of `n` (R192): the count rises, unless it would pass 0xFF_FFFF. -/
def Block.semAdd (s : Block) (r : SemRef) (n : Nat) : Option Block :=
  match s.sem r with
  | none => none
  | some x =>
    if 0xFFFFFF < x.count + n then none
    else some ((s.modSem r fun x => { x with count := x.count + n }).ledGrow (s.semLedger r) n)

/-- The amount of a wait taken from the count: out of the pool, or into the holder's hands (R323, R343). -/
def Block.semTake (s : Block) (r : SemRef) (j n : Nat) (hold : Bool) : Block :=
  let s := s.modSem r fun x => { x with count := x.count - n }
  if hold then
    (s.modSem r fun x => { x with holder := some j, holdN := x.holdN + n, holdAt := s.now }).ledTake (s.semLedger r) n
  else s.ledShrink (s.semLedger r) n

/-- A hold ends at its holder's signal (R194, R343). -/
def Block.semUnhold (s : Block) (r : SemRef) : Block :=
  match s.sem r with
  | none => s
  | some x =>
    (s.modSem r fun x => { x with holder := none, holdN := 0 }).led1 (s.semLedger r)
      { held := -(x.holdN : Int), total := -(x.holdN : Int) }

/-- Does the narrower of two scopes contain the releasing and the acquiring cluster (R193, R291)? Code 0x3F is
a Firn unit. -/
def scopeHolds (rel acq cr ca : Nat) : Bool := if min rel acq = 0 then cr == ca else true

/-- What an acquire wait of queue `q` of cluster `c` does besides the count. It synchronizes with every earlier release on
the semaphore by its own cluster; what another cluster released has been performed (R285, R288, R290). A control-core
wait binds every queue (R287). The check of R193 is against the release recorded last, and reports the wait's own
count. -/
def Block.acquireSem (s : Block) (c q scope name cmd : Nat) (x : Sem) (check : Bool) : Block :=
  let s := s.acquire c q scope
  let s := s.bindAccs c (if q = 24 then List.range 24 else [q]) ((x.covers.filter fun e => e.1 == c).map (·.2))
  match x.relScope with
  | none => s
  | some rel =>
    if check && !scopeHolds rel scope x.relCluster c then
      (s.bump (CCC_SCOPE_EVT c)).wr (CCC_SCOPE_LAST c) (w32 (name % 65536 + (cmd % 65536) * 65536))
    else s

/-- Does the job hold a semaphore? -/
def Block.holdsSem (s : Block) (j : Nat) : Bool :=
  match s.jobAt j with
  | none => false
  | some J =>
    s.sems.any (fun e => e.2.holder == some j) || J.sems.any (fun e => e.2.holder == some j) ||
    J.clusters.any fun c => (s.cl c).sems.any fun e => e.2.holder == some j

/-- The class at which a job runs: its own, or the one it inherits (R323). -/
def Job.ranks (j : Job) : Nat := match j.inherit with
  | some (c, _) => min c j.cls
  | none => j.cls

/-- A holder inherits from a job that it blocks: the highest class and the largest weight among them (R323). -/
def Block.inheritFrom (s : Block) (holder : Nat) (J : Job) : Block :=
  let w := s.weight J.fn
  s.modJob holder fun h =>
    { h with inherit := some (min J.ranks h.ranks, max w ((h.inherit.map (·.2)).getD 0)) }

/-! ### Forced saves (R319, R320) -/

/-- The waits that a cluster gives up when it is forced: they run again at resume (R320). -/
def Block.forceCluster (s : Block) (j c : Nat) : Block :=
  let k := s.cl c
  if k.ended ∨ (k.cheap.isSome ∧ k.queues.isEmpty) then s else
  let drop (x : Sem) : Sem := { x with waiters := x.waiters.filter fun w => w.cluster != c }
  let s : Block := { s with sems := kmap s.sems fun _ x => drop x }
  let s := s.modJob j fun J => { J with sems := kmap J.sems fun _ x => drop x }
  s.modCl c fun k =>
    let back := k.state == .waiting
    let queues := kmap k.queues fun _ l => l.map fun e =>
      if e.waiting && e.cmd.op == 0x08 then { e with started := false, waiting := false } else e
    { k with forced := true, cheap := none, sems := kmap k.sems fun _ x => drop x, queues := queues,
             state := if back then .issuing else k.state, pos := if back then k.pos - 1 else k.pos,
             count := if back then k.count - 1 else k.count }

/-- The slots of waits that a forced cluster takes back: from FLIGHT to HELD. -/
def Block.forceSlots (s : Block) (c : Nat) : Block :=
  let n := (((s.cl c).queues.flatMap (·.2)).filter fun e => e.started && e.waiting && e.cmd.op == 0x08).length
  if (s.cl c).ended ∨ ((s.cl c).cheap.isSome ∧ (s.cl c).queues.isEmpty) then s else s.ledArrive (0x80 + c) n

/-- A forced save begun on every cluster that has not begun its own. -/
def Block.forceJob (s : Block) (j : Nat) : Block :=
  match s.jobAt j with
  | none => s
  | some J => s.each J.clusters fun s c => (s.forceSlots c).forceCluster j c

/-- Pre-emption begins: the clusters are marked and the bound runs. A job whose core waits on a semaphore or is BROKEN is
forced at once (R319, R320). -/
def Block.beginPreempt (s : Block) (j : Nat) : Block :=
  match s.jobAt j with
  | none => s
  | some J =>
    let now := s.now
    let s := s.modJob j fun J => { J with boundAt := some now }
    let s := s.each J.clusters fun s c => s.modCl c fun k => { k with preempt := true }
    if J.clusters.any fun c => (s.cl c).state == .waiting || (s.cl c).state == .broken then s.forceJob j else s

/-- A core of a victim comes to wait on a semaphore or to a break: SCHED forces the save at once (R320). -/
def Block.forceIfAsked (s : Block) (j c : Nat) : Block := if (s.cl c).preempt then s.forceJob j else s

/-! ### How a job fails (R181) -/

/-- Entries that remain in a queue when its job fails: those that have started and do not wait on a
semaphore. -/
def keepStarted (l : List QEntry) : List QEntry := l.filter fun e => e.started && !(e.waiting && e.cmd.op == 0x08)

/-- The queue entries of a cluster discarded, with their slots returned and their waits withdrawn (step 3). -/
def Block.discardQueues (s : Block) (c : Nat) : Block :=
  let k := s.cl c
  let all := k.queues.flatMap (·.2)
  let idle := (all.filter fun e => !e.started).length
  let waits := (all.filter fun e => e.started && e.waiting && e.cmd.op == 0x08).length
  let s := s.modCl c fun k =>
    { k with queues := (k.queues.map fun e => (e.1, keepStarted e.2)).filter fun e => !e.2.isEmpty }
  let s := (s.ledDrop (0x80 + c) idle).ledLand (0x80 + c) waits
  let drop (x : Sem) : Sem := { x with waiters := x.waiters.filter fun w => w.cluster != c }
  let s := { s with sems := kmap s.sems fun _ x => drop x }
  match k.job with
  | some j => s.modJob j fun J => { J with sems := kmap J.sems fun _ x => drop x }
  | none => s

/-- A save area given up. -/
def Job.dropSave (j : Job) : Job := { j with save := [] }

/-- A job's first failure recorded and its clusters stopped (R181 steps 1 to 3). Later failures are not
recorded. -/
def Block.jobFail (s : Block) (j st count tag engine : Nat) : Block :=
  match s.jobAt j with
  | none => s
  | some J =>
    if J.fail.isSome then s else
    let placed := J.placed
    let s := s.modJob j fun J => { J with fail := some (st, count, tag, engine), state := .ending }.dropSave
    if placed then
      s.each J.clusters fun s c =>
        (s.discardQueues c).modCl c fun k =>
          { k with state := if k.ended then k.state else .ending, preempt := false, cheap := none }
    else s

/-! ### How a job ends (R180, R343, R385) -/

/-- Units of the job's LOCAL and JOB semaphores: free, held. -/
def semSums (t : Tbl Sem) : Nat × Nat := ((t.map fun e => e.2.count).sum, (t.map fun e => e.2.holdN).sum)

/-- Every unit of a table of semaphores leaves its pool (R343). -/
def Block.semsLeave (s : Block) (ledger : Nat) (t : Tbl Sem) : Block :=
  let (f, h) := semSums t
  s.led1 ledger { free := -(f : Int), held := -(h : Int), total := -((f + h : Nat) : Int) }

/-- A hold of a GLOBAL semaphore by an ended job is given back as R324 gives it back at expiry. -/
def Block.dropHolds (s : Block) (j : Nat) : Block :=
  s.each (s.sems.filter fun e => e.2.holder == some j) fun s e =>
    (s.modSem (.globalSem e.1) fun x => { x with count := x.count + x.holdN, holder := none, holdN := 0 }).ledDrop
      0x1E0 e.2.holdN

/-- The words of a completion entry or break record (R386). -/
def jobEntry (kind j : Nat) (J : Job) (st count tag engine : Nat) : List Word :=
  [w32 j, J.tag1, J.tag2, w32 count,
   w32 (count / 2 ^ 32 % 65536 + engine % 256 * 65536 + kind * 268435456), w32 st, w32 (tag % 65536)]

/-- The job record of 16 words (R385). -/
def jobRecord (J : Job) (st : Nat) : List Word :=
  ((List.range 6).map fun i => w32 (min 0xFFFFFFFF (J.numSums.getD i 0))) ++ [w32 st] ++
  ((List.range 4).flatMap fun i => [w32 (J.ns.getD i 0), w32 (J.ns.getD i 0 / 2 ^ 32)]) ++ [0]

/-- A cluster gives up its job. -/
def Block.freeCluster (s : Block) (c : Nat) : Block :=
  let s := loop 8 (fun i s =>
    let a := FLOE_STATE (c * 8 + i)
    if s.fld a 2 0 = 3 ∨ s.fld a 2 0 = 4 then (s.wf a 2 0 2).wf a 9 4 0 else s.wf a 9 4 0) s
  s.modCl c fun k =>
    { Cluster.reset with state := (if k.state == .outOfService then .outOfService else .idle), shm := k.shm,
                         lines := k.lines, accNext := k.accNext, pushSeq := k.pushSeq, count := k.count, hwm := k.hwm }

/-- The status that a step's job reports to SERVE (R253). -/
def Block.setStepStatus (s : Block) (p m st : Nat) (ns : List Nat) : Block :=
  match kget s.serve p with
  | none => s
  | some v =>
    { s with serve := kput s.serve p { v with models := kmod v.models m fun x =>
        { x with step := x.step.map fun y => { y with status := some st, ns := ns } } } }

/-- The end of a job's last stream: its record and its entry, its semaphores, its clusters (R181 step 5, R302,
R385). A record that the host cannot take ends the job with ABORTED, 0x24 (R389). -/
def Block.finishJob (s : Block) (j : Nat) : Block :=
  match s.jobAt j with
  | none => s
  | some J =>
    let (st, count, tag, engine) := J.fail.getD (OK, 0, 0, 0)
    let st := if st = OK ∧ J.step.isNone ∧ J.recAddr ≠ 0 ∧ !s.hostOk J.recAddr 64 then ABORTED 0x24 else st
    let s := s.each J.clusters fun s c => if J.placed then s.semsLeave (0x1C0 + J.part) (s.cl c).sems else s
    let s := (s.semsLeave (0x1C0 + J.part) J.sems).led1 (0x1C0 + J.part)
      { flight := -((J.heldLocal.map fun x => x.2.2).sum : Int), total := -((J.heldLocal.map fun x => x.2.2).sum : Int) }
    let s := s.dropHolds j
    let s := if J.placed then s.each J.clusters fun s c => s.freeCluster c else s
    let s := { s with jobs := kdel s.jobs j }
    let s := match J.step with
      | some (p, m) => s.setStepStatus p m st J.ns
      | none =>
        let s := s.countEnded J.fn J.cls
        if J.silent then s else
        let s := if J.recAddr = 0 then s else s.hostWrite J.fn J.recAddr (wordsBytes (jobRecord J st))
        s.ringEntry J.fn J.ring (jobEntry 1 j J st count tag engine)
    (s.countJobs J.part).sweepDying J.part

/-- The semaphore units of a saved job are those of its saved clusters. -/
def Job.savedSems (J : Job) : Tbl Sem := J.save.flatMap fun a => a.2.ctl.sems

/-- A failure of a job, placed or not: a placed job stops under R181; a job that waits gives up its save area
and ends at once (R321). -/
def Block.failJob (s : Block) (j st count tag engine : Nat) : Block :=
  match s.jobAt j with
  | none => s
  | some J =>
    if J.placed then s.jobFail j st count tag engine
    else ((s.semsLeave (0x1C0 + J.part) J.savedSems).jobFail j st count tag engine).finishJob j

/-- A job ended by SCHED with a status; no command is to blame. -/
def Block.endJob (s : Block) (j st : Nat) : Block := s.failJob j st 0 0 0xFF

end Sys2Proof.Machine
end

