-- ==== Sys2Proof/Machine/Dma.lean ====
section
/-! DEFINITION. The data-movement engine: COPY, COPY_STRIDED, ATOMIC, GATHER, SCATTER, SCATTER_ADD, and the
memory-side adders (R79 to R83, R103 to R106, R162, R200). Each effect answers the status with which the
command completes. The forms that name a peer are in Esker.lean. -/

namespace Sys2Proof.Machine

/-- A command as an engine runs it: cluster, queue, job, tile, whether a routine issued it, its words, its
count. -/
structure EngCtx where
  c : Nat
  q : Nat
  j : Nat
  job : Job
  tile : Nat
  routine : Bool
  cmd : Cmd
  count : Nat
  deriving DecidableEq, Repr

/-- A command's engine as one that reads or writes an object. -/
def EngCtx.mover (x : EngCtx) (h : Word) (hint : Nat) (narrow : Bool) (fills : Bool := true) (loose : Bool := false) : Mover :=
  { c := x.c, q := x.q, p := x.job.part, h := h, hint := hint, narrow := narrow, fills := fills, loose := loose }

/-- The check of a range of an object that a command names. -/
def Block.rangeStatus (s : Block) (x : EngCtx) (wr : Bool) (h : Word) (off n : Nat) : Option Nat :=
  s.objStatus x.c wr x.job h off n

/-- The answer of an engine: the status and the block. -/
abbrev Eng := Nat × Block

/-- A check that ends the command with a status, and nothing done. -/
def stopIf (st : Option Nat) (s : Block) (k : Block → Eng) : Eng :=
  match st with
  | some x => (x, s)
  | none => k s

/-- Operands of tile memory that run at half rate, counted (R162). -/
def Block.misaligned (s : Block) (t : Nat) (l : List Nat) : Block :=
  let n := (l.filter fun a => decide (a % 128 ≠ 0)).length
  if n = 0 then s else s.bump (FLOE_CNT_MISALIGN t) n

/-! ### Spaces -/

/-- The check of one end of a transfer (R160, R215, R280): space 0 tensor or view, 1 tile memory, 2 shared
memory. -/
def Block.endStatus (s : Block) (x : EngCtx) (space : Nat) (h : Word) (off n : Nat) (wr : Bool) : Option Nat :=
  if space = 1 then (if s.tmOk x.tile x.routine off n then none else some tmRange)
  else if space = 2 then (if n = 0 ∨ off + n ≤ shmEnd then none else some crcRange)
  else if s.isView x.job.part h then
    (if wr then s.viewWriteStatus x.job off n else s.viewReadStatus x.j x.job off n)
  else s.rangeStatus x wr h off n

/-- Bytes and marks read from one end of a transfer. -/
def Block.endRead (s : Block) (x : EngCtx) (space : Nat) (h : Word) (off n hint : Nat) : (List Byte × List Bool) × Block :=
  if space = 1 then ((s.tmRead x.tile off n, (s.tile x.tile).mem.marks off n), s)
  else if space = 2 then
    ((s.shmRead x.c off n, (s.cl x.c).shm.marks off n), s.modCl x.c fun k => k.learn x.q none off n true)
  else if s.isView x.job.part h then
    let s := s.viewTraffic x.job.part off n false (decide (n ≤ 32))
    (s.viewRead x.job.part off n, s)
  else s.objRead (x.mover h hint (decide (n ≤ 32))) off n

/-- Bytes and marks written to one end of a transfer. -/
def Block.endWrite (s : Block) (x : EngCtx) (space : Nat) (h : Word) (off hint : Nat) (bs : List Byte)
    (ps : List Bool) (loose : Bool := false) : Block :=
  if space = 1 then s.tmWrite x.tile off bs ps
  else if space = 2 then
    (s.shmWrite x.c off bs ps).modCl x.c fun k => { k.addFlag x.q none off bs.length k.accNext with accNext := k.accNext + 1 }
  else if s.isView x.job.part h then
    (s.viewTraffic x.job.part off bs.length true (decide (bs.length ≤ 32))).viewWrite x.job.part off bs ps
  else s.objWrite (x.mover h hint (decide (bs.length ≤ 32)) true loose) off bs ps

/-! ### The memory-side adders (R103 to R106) -/

/-- Bytes of an element type: 0 FP32, 1 BF16, 2 INT32, 3 INT64. -/
def typeSize (ty : Nat) : Nat := if ty = 1 then 2 else if ty = 3 then 8 else 4

/-- The type of a destination format under R82. -/
def addType (fmt : Nat) : Option Nat := if fmt = 7 then some 0 else if fmt = 6 then some 1 else if fmt = 9 then some 2 else none

/-- Minimum (`mx` false) or maximum of FP32 values with −0 below +0. -/
def fMinMax (mx : Bool) (a b : Word) : Word :=
  if fIsNan a || fIsNan b then fNaN
  else if a.toNat % 2 ^ 31 = 0 ∧ b.toNat % 2 ^ 31 = 0 then (if mx then a &&& b else a ||| b)
  else if mx then (if fLt a b then b else a) else (if fLt b a then b else a)

/-- The exact sum of two BF16 values rounded once to BF16, in the upper half of a word (R104). -/
def bfAdd (a b : Word) : Word :=
  match fpUnpack a, fpUnpack b with
  | .fin n x, .fin m y =>
    let d := (signed n x).add (signed m y)
    if d.m = 0 then fZero (if x.m = 0 ∧ y.m = 0 then n && m else false)
    else w32 (fpBF16.round (decide (d.m < 0)) d.abs * 65536)
  | _, _ => fAdd a b

/-- One adder operation (0 ADD, 1 MIN, 2 MAX): the new value, and whether an integer sum overflowed (R104). -/
def adderOp (op ty old new : Nat) : Nat × Bool :=
  if ty ≤ 1 then
    let sh := if ty = 1 then 65536 else 1
    let a := w32 (old * sh)
    let b := w32 (new * sh)
    let r := if op = 0 then (if ty = 1 then bfAdd a b else fAdd a b) else fMinMax (op == 2) a b
    (r.toNat / sh, false)
  else
    let n := 8 * typeSize ty
    let a := signExt n old
    let b := signExt n new
    if op = 0 then ((old + new) % 2 ^ n, decide (a + b < -(2 ^ (n - 1) : Int) ∨ (2 ^ (n - 1) : Int) ≤ a + b))
    else if op = 1 then (if a ≤ b then old else new, false)
    else (if a ≤ b then new else old, false)

/-- The stack that holds a byte of an object. -/
def Block.stackOf (s : Block) (p : Nat) (h : Word) (off : Nat) : Nat :=
  match s.byHandle p h with
  | none => 0
  | some o => match o.frameAt 0 off with
    | none => 0
    | some i => ((o.frames[i]?).map (·.stack)).getD 0

/-- An adder operation on one element at its point of coherence: the old value and its mark, and the block. -/
def Block.adder (s : Block) (p : Nat) (h : Word) (off op ty new : Nat) (mark : Bool) : (Nat × Bool) × Block :=
  match s.byHandle p h with
  | none => ((0, false), s)
  | some o =>
    let z := typeSize ty
    let old := leNat (o.read off z)
    let bad := o.data.marked off z
    let (r, ovf) := adderOp op ty old new
    let st := s.stackOf p h off
    let s := s.performWrite p (hSlot h) off (leBytes z r) [mark || bad]
    let s := s.bumpPair (STK_ADD_LO st) 1
    let s := if ovf then s.bump (STK_ADD_OVF st) else s
    let s := if mark || bad then s.bump (STK_ADD_POISON st) else s
    ((old, bad), s)

/-- A reduction write: the elements of a byte range combined in turn (R200). `marks` gives the mark of each
byte's sector. -/
def Block.reduce (s : Block) (p : Nat) (h : Word) (off op ty : Nat) (bs : List Byte) (mark : Nat → Bool) : Block :=
  let z := typeSize ty
  loop (bs.length / z) (fun i s =>
    (s.adder p h (off + i * z) op ty (leNat ((bs.drop (i * z)).take z)) (mark (i * z))).2) s

/-- The writes of a cluster to the units of a range reach their point of coherence, as the order of R277 asks before an
operation that is performed there at once. -/
def Block.settleOwn (s : Block) (x : EngCtx) (h : Word) (off n : Nat) : Block :=
  s.performOut x.c fun w => w.part == x.job.part && w.slot == hSlot h &&
    decide (off / 256 ≤ w.off / 256 ∧ w.off / 256 * 256 < off + n)

/-- A reduction of a queue: its cluster's earlier writes there, the adders' traffic, the elements in turn, and the lines
that the cluster's cache holds (R107, R277, R281). -/
def Block.reduceFrom (s : Block) (x : EngCtx) (h : Word) (off op ty hint : Nat) (narrow : Bool) (bs : List Byte)
    (mark : Nat → Bool) : Block :=
  let n := bs.length
  let s := (s.settleOwn x h off n).reduceTraffic x.job.part h off n hint narrow
  let s := s.reduce x.job.part h off op ty bs mark
  let s := s.each (unitParts off n) fun s u => s.crcRefresh x.c x.job.part h u.1 u.2
  s.modCl x.c fun k => { k.addFlag x.q (some (x.job.part, hSlot h)) off n k.accNext with accNext := k.accNext + 1 }

/-! ### COPY (R200) -/

/-- Source offset of a COPY. -/
def copySrc (k : Cmd) : Nat := k.n 2 + k.f 5 11 0 * 2 ^ 32
/-- Destination offset of a COPY. -/
def copyDst (k : Cmd) : Nat := k.n 4 + k.f 5 23 12 * 2 ^ 32

/-- The check of a reduction's destination (R82, R103, R200). -/
def Block.redStatus (s : Block) (x : EngCtx) (h : Word) (off n : Nat) : Option Nat :=
  match s.nameStatus x.job.part x.job.fn x.job.bundle h, s.byHandle x.job.part h with
  | some st, _ => if s.isView x.job.part h then some (UNSUPPORTED 0) else some st
  | none, none => some (REFUSED 0x40)
  | none, some o =>
    match addType (dFmt o.desc) with
    | none => some (UNSUPPORTED 0)
    | some ty => if off % typeSize ty = 0 ∧ n % typeSize ty = 0 then none else some (REFUSED 0x50)

/-- The type of a reduction into an object. -/
def Block.redType (s : Block) (x : EngCtx) (h : Word) : Nat :=
  ((s.byHandle x.job.part h).bind fun o => addType (dFmt o.desc)).getD 0

/-- A COPY inside the module. -/
def engCopy (x : EngCtx) (s : Block) : Eng :=
  let k := x.cmd
  let n := k.n 6
  let red := k.f 5 27 26
  let ss := k.f 7 19 18
  let ds := k.f 7 21 20
  if n = 0 then (OK, s) else
  stopIf (s.endStatus x ss k.w1 (copySrc k) n false) s fun s =>
  stopIf (if red = 0 then none else s.redStatus x k.w3 (copyDst k) n) s fun s =>
  stopIf (s.endStatus x ds k.w3 (copyDst k) n true) s fun s =>
  let s := s.misaligned x.tile ((if ss = 1 then [copySrc k] else []) ++ (if ds = 1 then [copyDst k] else []))
  let r := s.endRead x ss k.w1 (copySrc k) n (k.f 5 25 24)
  if red = 0 then
    (OK, r.2.endWrite x ds k.w3 (copyDst k) (k.f 5 25 24) r.1.1 (shiftMarks (copySrc k) (copyDst k) n r.1.2) (k.b 7 17))
  else
    (OK, r.2.reduceFrom x k.w3 (copyDst k) (red - 1) (s.redType x k.w3) (k.f 5 25 24) (decide (n ≤ 32)) r.1.1 fun i =>
      r.1.2.getD ((copySrc k % 32 + i) / 32) false)

/-! ### COPY_STRIDED (R83, R200) -/

/-- The check of an object of a strided copy (R83). -/
def Block.stridedStatus (s : Block) (x : EngCtx) (h : Word) : Option Nat :=
  match s.nameStatus x.job.part x.job.fn x.job.bundle h, s.byHandle x.job.part h with
  | some st, _ => some st
  | none, some o => if dScaled o.desc then some (UNSUPPORTED 0x46) else none
  | none, none => some (REFUSED 0x40)

/-- COPY_STRIDED: element (r, c) to position c × DST_PITCH + r. -/
def engCopyStrided (x : EngCtx) (s : Block) : Eng :=
  let k := x.cmd
  let z := 2 ^ k.f 5 1 0
  let rows := k.f 6 15 0
  let cols := k.f 6 31 16
  let dp := if k.f 5 31 8 = 0 then rows else k.f 5 31 8
  let sp := k.n 7
  let so := k.n 2
  let d0 := k.n 4
  let hint := k.f 5 3 2
  stopIf (s.stridedStatus x k.w1) s fun s =>
  stopIf (s.stridedStatus x k.w3) s fun s =>
  stopIf (s.rangeStatus x false k.w1 (so * z) (((rows - 1) * sp + cols) * z)) s fun s =>
  stopIf (s.rangeStatus x true k.w3 (d0 * z) (((cols - 1) * dp + rows) * z)) s fun s =>
  (OK, s.each ((List.range rows).flatMap fun r => (List.range cols).map fun c => (r, c))
    fun s e =>
      let a := (so + e.1 * sp + e.2) * z
      let b := (d0 + e.2 * dp + e.1) * z
      let r := s.objRead (x.mover k.w1 hint true) a z
      r.2.objWrite (x.mover k.w3 hint true) b r.1.1 (shiftMarks a b z r.1.2))

/-! ### ATOMIC (R103, R200) -/

/-- Does a TYPE suit a format (R103)? -/
def atomicFits (ty fmt : Nat) : Bool :=
  (ty == 0 && fmt == 7) || (ty == 1 && fmt == 6) || (decide (2 ≤ ty) && fmt == 9)

/-- What an ATOMIC leaves in a line that the cluster's cache holds: the new value. Whether a fetch does so is open: a later
plain read may return the older value (R277). The write carries the queue's releases. -/
def Block.atomicLine (s : Block) (x : EngCtx) (h : Word) (off z : Nat) (fetch : Bool) : Block :=
  let (b, s) := if fetch then s.choose 2 else (1, s)
  let s := if b = 1 then s.crcRefresh x.c x.job.part h off z else s
  s.modCl x.c fun k => { k.addFlag x.q (some (x.job.part, hSlot h)) off z k.accNext with accNext := k.accNext + 1 }

/-- ATOMIC inside the module. -/
def engAtomic (x : EngCtx) (s : Block) : Eng :=
  let k := x.cmd
  let off := k.n 2 + k.f 3 11 0 * 2 ^ 32
  let ty := k.f 3 15 14
  let z := typeSize ty
  let fetch := k.b 3 16
  let res := k.f 6 21 0
  stopIf (s.nameStatus x.job.part x.job.fn x.job.bundle k.w1) s fun s =>
  stopIf (match s.byHandle x.job.part k.w1 with
    | some o => if atomicFits ty (dFmt o.desc) then none else some (REFUSED 0x45)
    | none => some (REFUSED 0x40)) s fun s =>
  stopIf (if off % z = 0 then none else some (REFUSED 0x50)) s fun s =>
  stopIf (s.rangeStatus x true k.w1 off z) s fun s =>
  stopIf (if !fetch || s.tmOk x.tile x.routine res z then none else some tmRange) s fun s =>
  let s := (s.settleOwn x k.w1 off z).reduceTraffic x.job.part k.w1 off z 1 true
  let s := if fetch then s.modCl x.c fun k' => k'.learn x.q (some (x.job.part, hSlot k.w1)) off z true else s
  let r := s.adder x.job.part k.w1 off (k.f 3 13 12) ty ((k.n 4 + k.n 5 * 2 ^ 32) % 2 ^ (8 * z)) false
  let r := (r.1, r.2.atomicLine x k.w1 off z fetch)
  (OK, if fetch then (r.2.misaligned x.tile [res]).tmWrite x.tile res (leBytes z r.1.1)
      (List.replicate (ceilDiv (res % 32 + z) 32) r.1.2) else r.2)

/-! ### GATHER, SCATTER, SCATTER_ADD (R79 to R82) -/

/-- Rows in units (R81): units of a row, bytes of codes, of scales and of sidecars in a unit. A row of a
one-dimensional object is one element, whose block's scale and group's record go with it. -/
structure RowShape where
  units : Nat
  data : Nat
  scale : Nat
  side : Nat
  flat : Bool
  deriving DecidableEq, Repr

/-- The shape of a row of an object. -/
def rowShape (d : List Word) : RowShape :=
  let g := if dSide d then 64 else if dScaled d then 32 else 1
  if dNdim d = 1 then
    { units := 1, data := ceilDiv (fmtBits (dFmt d)) 8, scale := if dScaled d then 1 else 0,
      side := if dSide d then 12 else 0, flat := dScaled d }
  else
    let inner := ((List.range (dNdim d - 2)).foldl (fun a i => a * dShape d (i + 1)) 1) * (dPad d / g)
    { units := inner, data := g * fmtBits (dFmt d) / 8, scale := if dScaled d then g / 32 else 0,
      side := if dSide d then 12 else 0, flat := false }

/-- The byte ranges of unit `u` and the `m` after it in row `x`: codes, scales, records. -/
def rowRanges (d : List Word) (x u m : Nat) : List (Nat × Nat) :=
  let r := rowShape d
  let one (k size : Nat) : List (Nat × Nat) :=
    if size = 0 then [] else [(sectBase d k + (x * r.units + u) * size, m * size)]
  if r.flat then
    let b := fmtBits (dFmt d)
    [(sectBase d 0 + x * b / 8, (x * b % 8 + b + 7) / 8), (sectBase d 1 + x / 32, 1)] ++
    (if r.side = 0 then [] else [(sectBase d 2 + x / 64 * 12, 12)])
  else one 0 r.data ++ one 1 r.scale ++ one 2 r.side

/-- Bytes of codes in a row. -/
def rowBytes (d : List Word) : Nat := (rowShape d).units * (rowShape d).data

/-- Is a row of an object shorter than 256 B, its scales and sidecars counted (R80, R93)? -/
def rowShort (d : List Word) : Bool :=
  decide ((rowShape d).units * ((rowShape d).data + (rowShape d).scale + (rowShape d).side) < 256)

/-- The code of a one-dimensional scaled object's element put among the codes beside it. -/
def flatMerge (d : List Word) (xs xd : Nat) (src dst : List Byte) : List Byte :=
  let b := fmtBits (dFmt d)
  let v := leNat src / 2 ^ (xs * b % 8) % 2 ^ b
  let o := leNat dst
  let lo := xd * b % 8
  leBytes dst.length (o / 2 ^ (lo + b) * 2 ^ (lo + b) + v * 2 ^ lo + o % 2 ^ lo)

/-- Units of one row moved between objects; a source row of none writes zeros. Only the reads of GATHER allocate lines of
the cluster's cache (R281). -/
def Block.moveUnits (s : Block) (x : EngCtx) (hs hd : Word) (d : List Word) (src : Option Nat) (dst u m hint : Nat) : Block :=
  let nr := rowShort d
  let flat := (rowShape d).flat
  let from_ := x.mover hs hint nr (x.cmd.op == 0x50)
  let to_ := x.mover hd hint nr
  let old := x.mover hd 1 true false
  s.each ((rowRanges d dst u m).zipIdx) fun s e =>
    let n := e.1.2
    match src with
    | none =>
      if flat ∧ e.2 = 0 then
        let o := s.objRead old e.1.1 n
        o.2.objWrite to_ e.1.1 (flatMerge d 0 dst (List.replicate n 0) o.1.1) []
      else s.objWrite to_ e.1.1 (List.replicate n 0) []
    | some y =>
      let a := ((rowRanges d y u m).getD e.2 (0, 0))
      let r := s.objRead from_ a.1 a.2
      if flat ∧ e.2 = 0 then
        let o := r.2.objRead old e.1.1 n
        o.2.objWrite to_ e.1.1 (flatMerge d y dst r.1.1 o.1.1) (shiftMarks a.1 e.1.1 n r.1.2)
      else r.2.objWrite to_ e.1.1 r.1.1 (shiftMarks a.1 e.1.1 n r.1.2)

/-- The form checks of R80 and R82. -/
def Block.rowsStatus (s : Block) (x : EngCtx) : Option Nat :=
  let k := x.cmd
  let p := x.job.part
  if s.isView p k.w1 || s.isView p k.w2 || s.isView p k.w3 then some (REFUSED 0x43) else
  match s.nameStatus p x.job.fn x.job.bundle k.w1, s.nameStatus p x.job.fn x.job.bundle k.w2,
      s.nameStatus p x.job.fn x.job.bundle k.w3 with
  | some st, _, _ => some st
  | _, some st, _ => some st
  | _, _, some st => some st
  | none, none, none =>
    match s.byHandle p k.w1, s.byHandle p k.w2, s.byHandle p k.w3 with
    | some a, some b, some i =>
      let flags (o : Obj) := (mreg o.desc 0).fld 17 14
      let rest (o : Obj) := (List.range 7).map fun m => if m + 1 < dNdim o.desc then dShape o.desc (m + 1) else 0
      if dLayout a.desc ≠ 0 ∨ dLayout b.desc ≠ 0 ∨ dFmt a.desc ≠ dFmt b.desc ∨ dNdim a.desc ≠ dNdim b.desc ∨
          flags a ≠ flags b ∨ rest a ≠ rest b ∨
          dNdim i.desc ≠ 1 ∨ dFmt i.desc ≠ 9 ∨ dLayout i.desc ≠ 0 then some (REFUSED 0x43)
      else if k.op = 0x52 ∧ (addType (dFmt b.desc)).isNone then some (UNSUPPORTED 0)
      else if dShape i.desc 0 < k.n 4 + k.f 5 23 0 then badFieldOpt
      else if dShape (if k.op = 0x50 then b else a).desc 0 < k.n 7 + k.f 5 23 0 then badFieldOpt
      else s.rangeStatus x false k.w3 (k.n 4 * 4) (k.f 5 23 0 * 4)
    | _, _, _ => some (REFUSED 0x40)
where
  badFieldOpt : Option Nat := some badField

/-- A list in an open order (R82). -/
def Block.shuffle (s : Block) : List Nat → List Nat × Block
  | [] => ([], s)
  | a :: l =>
    let (l, s) := s.shuffle l
    let (k, s) := s.choose (l.length + 1)
    (l.take k ++ a :: l.drop k, s)

/-- The rows of a command: (j, index) for the indices before the first poisoned sector, and that sector. -/
def Block.readIndices (s : Block) (x : EngCtx) : (List (Nat × Nat) × Option Nat) × Block :=
  let k := x.cmd
  let n := k.f 5 23 0
  let off := k.n 4 * 4
  let r := s.objRead (x.mover k.w3 (if k.op = 0x50 then k.f 6 3 2 else 1) (decide (n * 4 ≤ 32)) (k.op == 0x50)) off (n * 4)
  let bad := r.1.2.findIdx? (· == true)
  let good := match bad with
    | none => n
    | some i => min n (((off / 32 + i) * 32 - off) / 4)
  ((((List.range good).map fun j => (j, leNat ((r.1.1.drop (j * 4)).take 4))),
    bad.map fun i => (off / 32 + i) * 32), r.2)

/-- One colliding destination row of a SCATTER: each unit takes one of the source rows, which one is open
(R81). -/
def Block.scatterRow (s : Block) (x : EngCtx) (d : List Word) (dst : Nat) (js : List Nat) : Block :=
  let k := x.cmd
  match js with
  | [] => s
  | [j] => s.moveUnits x k.w1 k.w2 d (some (k.n 7 + j)) dst 0 (rowShape d).units (k.f 6 3 2)
  | js =>
    loop (rowShape d).units (fun u s =>
      let (j, s) := s.pick js 0
      s.moveUnits x k.w1 k.w2 d (some (k.n 7 + j)) dst u 1 (k.f 6 3 2)) s

/-- The elements of one source row combined into a destination row (R82). -/
def Block.scatterAddRow (s : Block) (x : EngCtx) (d : List Word) (dst j : Nat) : Block :=
  let k := x.cmd
  let n := rowBytes d
  let a := (k.n 7 + j) * n
  let ty := (addType (dFmt d)).getD 0
  let r := s.objRead (x.mover k.w1 1 (rowShort d) false) a n
  r.2.reduceFrom x k.w2 (dst * n) (k.f 6 1 0) ty (k.f 6 3 2) (rowShort d) r.1.1 fun i => r.1.2.getD ((a % 32 + i) / 32) false

/-- GATHER, SCATTER and SCATTER_ADD. -/
def engRows (x : EngCtx) (s : Block) : Eng :=
  let k := x.cmd
  if k.f 5 23 0 = 0 then (OK, s) else
  stopIf (s.rowsStatus x) s fun s =>
  match s.byHandle x.job.part k.w2, s.byHandle x.job.part k.w1 with
  | some b, some a =>
    let d := b.desc
    let limit := dShape (if k.op = 0x50 then a else b).desc 0
    let r := s.readIndices x
    let all := r.1.1
    let s := r.2
    let ok := all.filter fun e => decide (e.2 < limit)
    let wrong := all.any fun e => decide (limit ≤ e.2 ∧ e.2 ≠ 0xFFFFFFFF)
    let reach (wr : Bool) (h : Word) (row : Nat) :=
      (rowRanges d row 0 (rowShape d).units).findSome? fun z => s.rangeStatus x wr h z.1 z.2
    stopIf (ok.findSome? fun e =>
      if k.op = 0x50 then (reach false k.w1 e.2).orElse fun _ => reach true k.w2 (k.n 7 + e.1)
      else (reach false k.w1 (k.n 7 + e.1)).orElse fun _ => reach true k.w2 e.2) s fun s =>
    let s :=
      if k.op = 0x50 then
        s.each all fun s e =>
          if e.2 < limit then s.moveUnits x k.w1 k.w2 d (some e.2) (k.n 7 + e.1) 0 (rowShape d).units (k.f 6 3 2)
          else if e.2 = 0xFFFFFFFF then s.moveUnits x k.w1 k.w2 d none (k.n 7 + e.1) 0 (rowShape d).units (k.f 6 3 2)
          else s
      else if k.op = 0x51 then
        s.each ((ok.map (·.2)).dedup) fun s y =>
          s.scatterRow x d y ((ok.filter fun e => e.2 == y).map (·.1))
      else
        let (order, s) := s.shuffle (List.range ok.length)
        s.each order fun s i => let e := ok.getD i (0, 0); s.scatterAddRow x d e.2 e.1
    match r.1.2 with
    | some off => s.consumedObj 4 (x.tile % 4096) x.job.part k.w3 off
    | none => (if wrong then REFUSED 0x44 else OK, s)
  | _, _ => (REFUSED 0x40, s)

end Sys2Proof.Machine
end

