-- ==== Sys2Proof/Machine/Stacks.lean ====
section
/-! DEFINITION. Frame access counts and frame migration (R71, R85, R86, R110 to R112). -/

namespace Sys2Proof.Machine

/-! ### ACCESS_COUNT_DECAY (R110) -/

/-- Every frame's access count halved. -/
def Obj.decay (o : Obj) : Obj := { o with frames := o.frames.map fun f => { f with count := f.count / 2 } }

/-- The part of the last millisecond, in percent, for which a partition's channels in a stack were busy. -/
def Block.busy (s : Block) (p n : Nat) : Nat := ((s.part p).map fun q => tget 0 q.busyFrac n).getD 0

/-- ACCESS_COUNT_DECAY: counts are halved and the measured use of each (partition, stack, percent) replaces
the last millisecond's. -/
def effAccessCountDecay (busy : List (Nat × Nat × Nat)) (s : Block) : Block :=
  let s := { s with objs := kmap s.objs fun _ os => { os with live := kmap os.live fun _ o => o.decay } }
  let s := { s with snow := kmap s.snow fun _ w =>
      { w with counts := (kmap w.counts fun _ n => n / 2).filter fun e => e.2 != 0 } }
  { s with parts := kmap s.parts fun p q =>
      { q with busyFrac := (busy.filter fun b => b.1 == p).foldl (fun t b => tset 0 t b.2.1 b.2.2) [] } }

/-! ### FRAME_MIGRATION_SWITCH (R86, R112) -/

/-- PIN of an object. -/
def dPin (d : List Word) : Bool := (dHints d).bit 2

/-- MIG_BUDGET of a stack. -/
def Block.migBudget (s : Block) (n : Nat) : Nat := s.fld (STK_ARB n) 13 8

/-- Is WARN set on a stack? -/
def Block.warn (s : Block) (n : Nat) : Bool := s.bit (STK_TEMP n) 9

/-- Have the compute stacks of a partition too few free pages (R233)? -/
def Block.pressed (s : Block) (pn : Nat) (p : Part) : Bool :=
  decide (s.tierFree pn p 0 < s.fld (SNW pn 8) 15 0 * 1024)

/-- May a frame move for heat or for access counts: its object not pinned, and 10 ms gone by since it last moved so
(R84, R86)? -/
def Block.rested (s : Block) (o : Obj) (f : Frame) : Bool :=
  !dPin o.desc && decide (f.movedAt = 0 ∨ f.movedAt + 10000000 ≤ s.now)

/-- Has no frame of the partition in the stack, that may move too, a higher access count (R110)? -/
def Block.topCount (s : Block) (pn : Nat) (f : Frame) : Bool :=
  (s.objects pn).live.all fun e =>
    e.2.firn || e.2.desc.isEmpty || e.2.frames.all fun g =>
      g.stack != f.stack || !s.rested e.2 g || decide (g.count ≤ f.count)

/-- Is a part of a stack that a partition holds being retired: does a channel group there stop? -/
def Block.retiring (s : Block) (p : Part) (n : Nat) : Bool := p.groupList.any fun g => s.cgState n g == 3

/-- Must a piece's frames stay in one stack: its sections belong together, and they are in one (R75)? -/
def Obj.oneHome (o : Obj) (f : Frame) : Bool :=
  let n := max 1 o.pieceCount
  o.joint (f.piece % n) && (o.pieceHome (f.piece / n) (f.piece % n)).all (· == f.stack)

/-- The frames that move with a frame: those of its piece, where they stay in one stack, or itself. -/
def Obj.movesWith (o : Obj) (fr : Nat) : List Nat :=
  match o.frames[fr]? with
  | none => []
  | some f =>
    if o.oneHome f then (List.range o.frames.length).filter fun i => ((o.frames[i]?).map (·.piece)) == some f.piece else [fr]

/-- May a striped frame, with those that move with it, go from its stack to stack `n` for one of the causes of R110? A
move within a stack is one out of a channel group that stops. -/
def Block.mayMove (s : Block) (pn : Nat) (p : Part) (o : Obj) (f : Frame) (k n : Nat) : Bool :=
  let free := s.rested o f && decide (s.migBudget f.stack ≠ 0) && decide (s.migBudget n ≠ 0) && s.topCount pn f
  let heat := free && s.warn f.stack
  let count := free && decide (90 < s.busy pn f.stack) && decide (s.busy pn n < 50)
  let pressure := s.pressed pn p && !isCapacity f.stack && isCapacity n
  decide (n ≠ f.stack) && !s.warn n && decide (32 * k ≤ s.stackFree pn p n) &&
    (heat || count || pressure || s.retiring p f.stack)

/-- The stacks to which a frame may move. -/
def Block.moveTargets (s : Block) (pn : Nat) (p : Part) (o : Obj) (fr : Nat) : List Nat :=
  match o.frames[fr]? with
  | none => []
  | some f =>
    let n := max 1 o.pieceCount
    let l := (if s.retiring p f.stack then retireStacks else pieceStacks) p o (f.piece / n) (f.piece % n)
    l.filter (s.mayMove pn p o f (o.movesWith fr).length)

/-- The frame, when it is a striped one with somewhere to go. -/
def migReady (p : Nat) (h : Word) (fr : Nat) (s : Block) : Bool :=
  match s.part p, s.byHandle p h with
  | some q, some o => s.coreUp 2 && !o.firn && !(s.moveTargets p q o fr).isEmpty
  | _, _ => false

/-- Is the line one of a frame: in the cache of the die that owns it? -/
def MscLine.ofFrame (x : MscLine) (p : Nat) (h : Word) (o : Obj) (fr : Nat) : Bool :=
  x.part == p && x.handle == h && (((o.frames[fr]?).map (·.stack / 6)) == some (x.stack / 6)) && o.frameHolds fr (x.line * 256)

/-- Lines of a frame leave the cache; those that hold writes are written into the new frame, in stack `n` (R112). The copy
took the units that the cache held from their lines, so no mark of the old frame shows. -/
def Block.flushFrame (s : Block) (p : Nat) (h : Word) (o : Obj) (fr n : Nat) : Block :=
  let gone (x : MscLine) : Bool := x.ofFrame p h o fr
  let l := s.msc.flatMap fun e => e.2.filter gone
  let s := { s with msc := (kmap s.msc fun _ l => l.filter fun x => !gone x).filter fun e => !e.2.isEmpty }
  s.each l fun s x => s.lineOut { x with stack := n, under := [] }

/-- The copy of a frame (R86, R98): its 256 B units read from one stack, from the cache's lines where it holds them, and
written to the other. -/
def Block.copyFrame (s : Block) (p : Nat) (h : Word) (o : Obj) (fr a b : Nat) : Block :=
  let held := (s.msc.map fun e => (e.2.filter fun x => x.ofFrame p h o fr).length).sum
  let units := frameBytes / 256
  let s := (s.bumpPair (SRC_MSC_HITS_LO (a / 6)) held).bumpPair (SRC_MSC_MISSES_LO (a / 6)) (units - held)
  let s := s.meetErrors a p h fun x => o.frameHolds fr (x * 32)
  let s := (s.bumpPair (STK_RD_BYTES_LO a) (256 * (units - held))).bumpPair (SRC_MSC_MISSES_LO (b / 6)) units
  s.bumpPair (STK_WR_BYTES_LO b) (256 * units)

/-- A frame moves to a fresh frame of a stack, its own or another: the copy, the cache's lines, ledgers, counters and
mapping. -/
def Block.moveFrame (s : Block) (p : Nat) (h : Word) (fr n : Nat) : Block :=
  match s.part p, s.byHandle p h with
  | some q, some o =>
    match o.frames[fr]? with
    | none => s
    | some f =>
      let s := (s.copyFrame p h o fr f.stack n).flushFrame p h o fr n
      let g := s.stripeGroups q n
      let now := s.now
      let s := s.modObj p (hSlot h) fun o =>
        { o with frames := o.frames.set fr { f with stack := n, groups := g, movedAt := now },
                 migrations := min 0xFFFFFFFF (o.migrations + 1) }
      let s := (s.bump (STK_MIG_IN n)).bump (STK_MIG_OUT f.stack)
      if stackTier f.stack = stackTier n then s
      else (s.ledGrow (pageLedger p (stackTier f.stack)) 32).ledShrink (pageLedger p (stackTier n)) 32
  | _, _ => s

/-- A frame moves with those that move with it. -/
def Block.moveFrames (s : Block) (p : Nat) (h : Word) (fr n : Nat) : Block :=
  match s.byHandle p h with
  | some o => s.each (o.movesWith fr) fun s i => s.moveFrame p h i n
  | none => s

/-- FRAME_MIGRATION_SWITCH: the mapping switches to a copy in an eligible stack, an open choice. -/
def frameMigrationEffect (p : Nat) (h : Word) (fr : Nat) (s : Block) : Block :=
  match s.part p, s.byHandle p h with
  | some q, some o =>
    let (n, s) := s.pick (s.moveTargets p q o fr) 0
    s.moveFrames p h fr n
  | _, _ => s

/-- FRAME_MIGRATION_SWITCH, when a frame may move. -/
def effFrameMigrationSwitch (p : Nat) (h : Word) (fr : Nat) (s : Block) : Block :=
  if migReady p h fr s then frameMigrationEffect p h fr s else s

/-- The meaning of ACCESS_COUNT_DECAY. -/
def execAccessCountDecay (busy : List (Nat × Nat × Nat)) : State → Host.Outcome State Fault Refusal :=
  onBlk (effAccessCountDecay busy)
/-- The meaning of FRAME_MIGRATION_SWITCH. -/
def execFrameMigrationSwitch (p : Nat) (h : Word) (fr : Nat) : State → Host.Outcome State Fault Refusal :=
  onBlk (effFrameMigrationSwitch p h fr)

end Sys2Proof.Machine
end

