-- ==== Sys2Proof/Machine/Repair.lean ====
section
/-! DEFINITION. Repair of stored data: Firn frames moved out of a bank group, row counts, spare rows and retired frames
(R71, R464, R472, R473). -/

namespace Sys2Proof.Machine

/-! ### Firn frames moved (R71, R85) -/

/-- The neighbour in a direction: bank group ±1, core die ±1. -/
def chainPeer (u dir : Nat) : Option Nat :=
  let b := u % 16
  let d := u / 16 % 16
  match dir with
  | 0 => if b < 15 then some (u + 1) else none
  | 1 => if 0 < b then some (u - 1) else none
  | 2 => if d < 15 then some (u + 16) else none
  | _ => if 0 < d then some (u - 16) else none

/-- The neighbours of a unit (R142). -/
def chainPeers (u : Nat) : List Nat := (List.range 4).filterMap (chainPeer u)

/-- Frames of a piece moved to another bank group of the stack, a neighbouring one where one has room, its sections in
consecutive pages (R71). -/
def Block.movePiece (s : Block) (pn slot pc : Nat) : Block :=
  match s.part pn, s.obj pn slot with
  | some q, some o =>
    match kget o.pieces pc with
    | none => s
    | some f =>
      let need := fun (u : Nat) => (List.range 4).all fun k =>
        o.pieceFrames pc k = 0 || !(s.unitRuns pn q u (o.pieceFrames pc k)).isEmpty
      let units := (s.partUnits q).filter fun u => unitStack u == unitStack f.unit && u != f.unit && need u
      let near := units.filter fun u => (chainPeers f.unit).contains u
      let (v, s) := s.pick (if near.isEmpty then units else near) f.unit
      if v = f.unit then s else
      let bare := s.modObj pn slot fun o =>
        { o with frames := o.frames.filter fun y => !(y.piece == pc && y.unit == f.unit), pieces := kdel o.pieces pc }
      match bare.placeFirn pn q slot pc v 4 with
      | some s => s.modObj pn slot fun y =>
          { y with migrations := min 0xFFFFFFFF (y.migrations + 1), hintsMissed := o.hintsMissed }
      | none => s
  | _, _ => s

/-- A Snowpack page of a failed unit moved to another unit of the stack. -/
def Block.moveKvPage (s : Block) (pn pid : Nat) : Block :=
  match s.part pn, s.page pn pid with
  | some q, some g =>
    match g.loc with
    | .compute u _ =>
      let spots := ((s.partUnits q).filter fun v => unitStack v == unitStack u && v != u).flatMap fun v =>
        ((s.unitFree pn q v).take 1).map fun h => (v, h)
      let (t, s) := s.pick spots (u, 0)
      if t.1 = u then s else s.modPage pn pid fun g => { g with loc := .compute t.1 t.2 }
    | _ => s
  | _, _ => s

/-! ### Rows (R464, R472, R473) -/

/-- A stack's repairs changed. -/
def Block.modStackErr (s : Block) (n : Nat) (f : StackErr → StackErr) : Block :=
  { s with err := { s.err with stk := tset StackErr.reset s.err.stk n (f (s.stackErr n)) } }

/-- The key of a bank, and of a row, in a stack. -/
def bankKey (core bank : Nat) : Nat := core + 16 * bank
def rowKey (core bank row : Nat) : Nat := bankKey core bank * 2 ^ 32 + row

/-- A row counted: it comes first in the table of 1,024 rows, whose last one it may push out. -/
def countRow (k : Nat) (l : List (Nat × Nat)) : List (Nat × Nat) :=
  let c := ((l.find? fun e => e.1 == k).map (·.2)).getD 0
  ((k, c + 1) :: l.filter fun e => e.1 != k).take 1024

/-- The count of a row. -/
def StackErr.count (x : StackErr) (k : Nat) : Nat := ((x.rows.find? fun e => e.1 == k).map (·.2)).getD 0

/-- Spare rows of a bank. -/
def spareRows : Nat := 32
/-- ROW_CE_MAX as it counts. -/
def Block.rowMax (s : Block) : Nat := max 1 (s.fld ERR_CFG 7 0)

/-- A frame is retired: its pool shrinks by its pages, and its channel group holds it no more. -/
def Block.retireFrame (s : Block) (n g p : Nat) : Block :=
  let led := pageLedger p (stackTier n)
  let s := s.modStackErr n fun x => { x with retired := x.retired ++ [g] }
  if p = 0x3F ∨ (s.ledger led).free < 32 then s else s.ledShrink led 32

/-- The data of a frame in a stack moved, so that the frame can be retired: an object's, or for handle 0 a Snowpack page's
of a Firn unit. -/
def Block.moveOut (s : Block) (n p : Nat) (h : Word) (off : Nat) : Block :=
  if h = 0 then s.moveKvPage p (off / 65536) else
  match s.byHandle p h with
  | none => s
  | some o =>
    match (List.range o.frames.length).find? fun i => o.frameHolds i off && ((o.frames[i]?).map (·.stack)) == some n with
    | none => s
    | some fr =>
      if o.firn then s.movePiece p (hSlot h) (((o.frames[fr]?).map (·.piece)).getD 0)
      else s.moveFrame p h fr n

/-- A row retired into a spare of its bank, or, with none left, its frame retired (R473). Which channel group then loses
a frame is an open value when no object names the partition. Cause 0 count, 1 error, 2 patrol. -/
def Block.retireRow (s : Block) (n core bank row cause : Nat) (obj : Option (Nat × Word × Nat)) : Block :=
  let b := bankKey core bank
  let used := tget 0 (s.stackErr n).spares b
  let s := s.modStackErr n fun x => { x with rows := x.rows.filter fun e => e.1 != rowKey core bank row }
  let s := { s with env := { s.env with dramErrs := s.env.dramErrs.filter fun e =>
    !(e.stack == n && e.core == core && e.bank == bank && e.row == row) } }
  if used < spareRows then
    let s := s.modStackErr n fun x => { x with spares := tset 0 x.spares b (used + 1) }
    let s := s.bumpFld (ERR_STK_ROWS n) 15 0
    let s := s.wf (ERR_STK_ROWS n) 31 16 (min (s.fld (ERR_STK_ROWS n) 31 16) (spareRows - used - 1))
    s.event srcHealth 0x0502 [w32 n, w32 core, w32 bank, w32 cause]
  else
    let groups := (List.range 8).filter fun g => match obj with | some x => s.cgPart n g == x.1 | none => true
    let (g, s) := s.pick groups 0
    let s := match obj with | some x => s.moveOut n x.1 x.2.1 x.2.2 | none => s
    (s.retireFrame n g (s.cgPart n g)).event srcHealth 0x0503 [w32 n, w32 core, w32 bank, 1]

/-- A correction in a row counted, and the row retired at ROW_CE_MAX (R464). -/
def Block.rowCorrected (s : Block) (n core bank row : Nat) (obj : Option (Nat × Word × Nat)) : Block :=
  let s := s.modStackErr n fun x => { x with rows := countRow (rowKey core bank row) x.rows }
  if s.rowMax ≤ (s.stackErr n).count (rowKey core bank row) then s.retireRow n core bank row 0 obj else s

/-- Do two errors lie in one row? -/
def DramErr.sameRow (a b : DramErr) : Bool := a.stack == b.stack && a.core == b.core && a.bank == b.bank && a.row == b.row

/-- The rows of the errors that an access has met: corrections are counted, a row that delivered an uncorrectable error is
retired (R464, R472). -/
def Block.repairMet (s : Block) : Block :=
  let l := s.err.met
  if l.isEmpty then s else
  let obj (e : DramErr) := some (e.part, e.handle, e.sector * 32)
  let bad := l.filter fun e => !e.fixable
  let s := { s with err := { s.err with met := [] } }
  let s := s.each (l.filter fun e => e.fixable && !bad.any e.sameRow) fun s e => s.rowCorrected e.stack e.core e.bank e.row (obj e)
  s.each ((bad.zipIdx.filter fun x => !(bad.take x.2).any x.1.sameRow).map (·.1)) fun s e =>
    s.retireRow e.stack e.core e.bank e.row 1 (obj e)

end Sys2Proof.Machine
end

