-- ==== Sys2Proof/Machine/Firn.lean ====
section
/-! DEFINITION. The Firn units: commands and their checks, HOLD broadcasts, fences, the micro-instructions, the
chain and the bus, refresh, sets and disabled units (R117 to R149, R293, R294). -/

namespace Sys2Proof.Machine

/-! ### The unit -/

/-- The statistics of an EMPTY row (R132). -/
def RowStat.empty : RowStat := { m := 0, l := fZero true }

/-- A unit that holds nothing. -/
def FirnUnit.reset : FirnUnit :=
  { queue := [], running := none, pc := 0, base := 0, plist := [], regs := [], hold := Store.empty,
    scale := Store.empty, acc := [], stats := [], loops := [], stream := [], streamed := 0, writeQ := [], ownQ := [],
    wait := none, parked := false, began := 0, refDebt := 0, act := 0 }

/-- A unit. -/
def Block.fu (s : Block) (u : Nat) : FirnUnit := tget FirnUnit.reset s.firn u
/-- A unit set. -/
def Block.setFu (s : Block) (u : Nat) (x : FirnUnit) : Block := { s with firn := tset FirnUnit.reset s.firn u x }
/-- A unit changed. -/
def Block.modFu (s : Block) (u : Nat) (f : FirnUnit → FirnUnit) : Block := s.setFu u (f (s.fu u))

/-- STATE of a unit (R119). -/
def Block.firnState (s : Block) (u : Nat) : Nat := s.fld (FIRN_STATE u) 2 0
/-- STATE of a unit set. -/
def Block.setFirnState (s : Block) (u v : Nat) : Block := s.wf (FIRN_STATE u) 2 0 v
/-- The state of a unit's Firn set (R141). -/
def Block.firnSet (s : Block) (u : Nat) : Nat := s.fld (STK_FIRN_SET (unitStack u)) (2 * unitGroup u + 1) (2 * unitGroup u)
/-- The ledger of a unit's queue entries (R338). -/
def firnLedger (u : Nat) : Nat := 0xA0 + u / 256

/-- The words of an entry: a broadcast has none. -/
def FirnEntry.words : FirnEntry → Cmd
  | .cmd _ w => w
  | .hold _ _ _ _ _ => Cmd.ofWords []
/-- Who queued an entry. -/
def FirnEntry.src : FirnEntry → FirnSrc
  | .cmd r _ => r
  | .hold r _ _ _ _ => r
/-- The EPOCH of an entry. -/
def FirnEntry.epoch : FirnEntry → Nat
  | .cmd _ w => w.f 2 15 0
  | .hold _ e _ _ _ => e
/-- OPCODE of an entry; 0 for a broadcast. -/
def FirnEntry.op : FirnEntry → Nat
  | .cmd _ w => w.op
  | .hold _ _ _ _ _ => 0

/-- A scalar register; s0 reads as 0 (R117). -/
def FirnUnit.reg (x : FirnUnit) (i : Nat) : Word := if i = 0 then 0 else tget 0 x.regs i
/-- A scalar register written; writes of s0 are ignored. -/
def FirnUnit.setReg (x : FirnUnit) (i : Nat) (v : Word) : FirnUnit :=
  if i = 0 then x else { x with regs := tset 0 x.regs i v }
/-- An accumulator element. Element numbers run modulo 1,024; log entry 9. -/
def FirnUnit.el (x : FirnUnit) (set i : Nat) : Word := tget 0 x.acc (set * 1024 + i % 1024)
/-- An accumulator element written. -/
def FirnUnit.setEl (x : FirnUnit) (set i : Nat) (v : Word) : FirnUnit :=
  { x with acc := tset 0 x.acc (set * 1024 + i % 1024) v }
/-- The statistics of a row. -/
def FirnUnit.stat (x : FirnUnit) (h : Nat) : RowStat := tget RowStat.empty x.stats h
/-- The statistics of a row written. -/
def FirnUnit.setStat (x : FirnUnit) (h : Nat) (v : RowStat) : FirnUnit :=
  { x with stats := tset RowStat.empty x.stats h v }
/-- BF16 element `i` of HOLD as FP32; addresses run modulo 16,384 elements. -/
def FirnUnit.held (x : FirnUnit) (i : Nat) : Word :=
  w32 (leNat (x.hold.read (2 * (i % 16384)) 2) * 65536)

/-! ### The bank group (R90, R124, R531) -/

/-- Where a page of a bank group lies: a Snowpack page, or a section of a piece of an object. -/
inductive BankPage where
  | kv (pid : Nat)
  | obj (slot piece sect start : Nat)
  deriving DecidableEq, Repr

/-- The Firn page `g` of the bank group of unit `u`, if it is one. -/
def Block.bankPage (s : Block) (u g : Nat) : Option BankPage :=
  let p := s.unitPart u
  match (s.snowOf p).pages.find? fun e => e.2.loc == .compute u g with
  | some e => some (.kv e.1)
  | none =>
    (s.objects p).live.findSome? fun e =>
      e.2.pieces.findSome? fun y =>
        if y.2.unit = u then
          (y.2.pages.zipIdx).findSome? fun z =>
            if z.1.1 ≤ g ∧ g < z.1.1 + roundUp z.1.2 32 then some (.obj e.1 y.1 z.2 ((g - z.1.1) * 65536)) else none
        else none

/-- Does the page lie in a Firn frame: one that holds Snowpack pages, or one of a piece (R90)? -/
def Block.firnPage (s : Block) (u g : Nat) : Bool :=
  let p := s.unitPart u
  let fr := g / 32
  ((s.snowOf p).pages.any fun e => e.2.places.any fun | .compute v h => v == u && h / 32 == fr | _ => false) ||
  (s.objects p).live.any fun e => e.2.firn && e.2.frames.any fun f => f.unit == u && f.page / 32 == fr

/-- 32 bytes of a bank group and their mark, without the write queue. -/
def Block.bankRead (s : Block) (u g off : Nat) : List Byte × Bool :=
  let p := s.unitPart u
  match s.bankPage u g with
  | none => (List.replicate 32 0, false)
  | some (.kv pid) => match s.page p pid with
    | some x => (x.data.read off 32, x.data.marked off 32)
    | none => (List.replicate 32 0, false)
  | some (.obj slot pc k st) => match s.obj p slot with
    | none => (List.replicate 32 0, false)
    | some o =>
      let at_ (i : Nat) := o.pieceOffset pc k (st + off + i)
      ((List.range 32).map fun i => match at_ i with | some v => memByte o.data.cells v | none => 0,
       (List.range 32).any fun i => match at_ i with | some v => o.data.poison.contains (v / 32) | none => false)

/-- 32 bytes written into a bank group. -/
def Block.bankWrite (s : Block) (u : Nat) (b : BankUnit) : Block :=
  let p := s.unitPart u
  match s.bankPage u b.page with
  | none => s
  | some (.kv pid) => s.modPage p pid fun x => { x with data := x.data.write b.off b.data [b.poison] }
  | some (.obj slot pc k st) => s.modObj p slot fun o =>
      match o.pieceOffset pc k (st + b.off) with
      | some v =>
        if o.pieceOffset pc k (st + b.off + 31) = some (v + 31) then
          { o with data := o.data.write v b.data (List.replicate (ceilDiv (v % 32 + 32) 32) b.poison) }
        else
          loop 32 (fun i o => match o.pieceOffset pc k (st + b.off + i) with
            | some v => { o with data := o.data.write v ((b.data.drop i).take 1) [b.poison] }
            | none => o) o
      | none => o

/-- What the unit itself reads: its own earlier COMMITs included (R130). -/
def Block.unitRead (s : Block) (u g off : Nat) : List Byte × Bool :=
  let x := s.fu u
  match (x.writeQ ++ x.ownQ).reverse.find? fun b => b.page == g && b.off == off with
  | some b => (b.data, b.poison)
  | none => s.bankRead u g off

/-- The oldest `n` entries of the write queue reach the banks. -/
def Block.firnDrain (s : Block) (u n : Nat) : Block :=
  let x := s.fu u
  let s := s.each ((x.writeQ ++ x.ownQ).take n) fun s b => s.bankWrite u b
  s.modFu u fun x => { x with writeQ := x.writeQ.drop n, ownQ := x.ownQ.drop (n - x.writeQ.length) }

/-- The write queues of the units drain as others come to read: how far is open (R126, R133). -/
def Block.firnQueues (s : Block) : List Nat := (s.firn.filter fun e => !(e.2.writeQ.isEmpty && e.2.ownQ.isEmpty)).map (·.1)

/-- How much of the write queue has drained by now is open (R133, R126); at most 8 KiB wait. -/
def Block.firnDrainSome (s : Block) (u : Nat) : Block :=
  let x := s.fu u
  let len := x.writeQ.length + x.ownQ.length
  if len = 0 then s else
  let (k, s) := s.choose (len + 1)
  s.firnDrain u (max k (len - 256))

/-- What the units' write queues have left by now. -/
def Block.firnSettle (s : Block) : Block := s.each s.firnQueues fun s u => s.firnDrainSome u

/-- What a cluster's writes and the units' write queues have left by now: open. -/
def Block.settleSome (s : Block) (c : Nat) : Block := (s.drainSome c).firnSettle

/-! ### Completions (R127, R181, R188, R293) -/

/-- An entry's failure or success reported to its source. -/
def Block.firnReport (s : Block) (u : Nat) (e : FirnEntry) (st : Nat) : Block :=
  let s := if st = STALE_EPOCH then s.bump (FIRN_CNT_STALE u) else s
  let s := match e with
    | .cmd _ _ => s.bump (FIRN_CNT_CMDS u)
    | .hold _ _ _ _ _ => s
  match e.src with
  | .host => (s.wf (FIRN_HOST_STATUS u) 15 0 st).wr (FIRN_HOST_LAST_SEQ u) e.words.w1
  | .cluster _ j count tag engine _ => if st = OK then s else s.failJob j st count tag engine

/-- The running command leaves the unit. Its write-queue entries are discarded when it ends by R131, R132,
R133, R147 or R148. That it discards them too when it ends with 0x63 at a ROW, or with 0x65, 0x66 or 0x6F (R142, R143), is
DESIGN CHOICE, log entry 155. -/
def Block.firnEnd (s : Block) (u st : Nat) (discard : Bool) : Block :=
  match (s.fu u).running with
  | none => s
  | some e =>
    let x := s.fu u
    let s := s.setFu u { x with running := none, plist := [], regs := [], acc := [], stats := [], loops := [],
                                stream := [], wait := none, parked := false,
                                writeQ := if discard then x.writeQ else x.writeQ ++ x.ownQ, ownQ := [] }
    let s := (s.setFirnState u 2).ledLand (firnLedger u) 1
    let s := match e, e.src with
      | .cmd _ w, .cluster _ j _ _ _ _ => if w.op = 1 then s.charge j 3 (s.now - x.began) else s
      | _, _ => s
    s.firnReport u e st

/-- The head of the queue refused before it starts. -/
def Block.firnRefuse (s : Block) (u st : Nat) : Block :=
  match (s.fu u).queue with
  | [] => s
  | e :: rest => ((s.modFu u fun x => { x with queue := rest }).ledDrop (firnLedger u) 1).firnReport u e st

/-- A NOTIFY (R126, R188, R293, R321): one more on the semaphore, as a release at chip scope by code 0x3F. -/
def Block.firnNotify (s : Block) (u : Nat) (e : FirnEntry) : Block :=
  let name := e.words.f 7 15 0
  let add (s : Block) (r : SemRef) (fail : Nat → Block) : Block :=
    match s.semAdd r 1 with
    | some s => s.modSem r fun x => { x with relScope := some 1, relCluster := 0x3F }
    | none => fail (REFUSED 0x85)
  match e.src with
  | .host =>
    let bad := s.wf (FIRN_HOST_STATUS u) 15 0 (REFUSED 0x83)
    if semSpace name = 2 then
      match kget s.sems (semIndex name) with
      | some x => if x.part = s.unitPart u then add s (.globalSem (semIndex name)) fun st => s.wf (FIRN_HOST_STATUS u) 15 0 st
          else bad
      | none => bad
    else bad
  | .cluster c j count tag engine rt =>
    match s.jobAt j with
    | none => s
    | some J =>
      if J.state = .saved ∧ semSpace name = 0 ∧ s.semNameOk J rt name then
        (s.modJob j fun J => { J with heldLocal := J.heldLocal ++ [(c, semIndex name, 1)] }).led1
          (0x1C0 + J.part) { flight := 1, total := 1 }
      else match (if s.semNameOk J rt name then s.semRef j c name else none) with
        | some r => add s r fun st => s.failJob j st count tag engine
        | none => s.failJob j (REFUSED 0x83) count tag engine

/-! ### Queueing (R121, R125, R195, R196) -/

/-- Is there a free entry? -/
def Block.firnRoom (s : Block) (u : Nat) : Bool := decide ((s.fu u).queue.length + b2n (s.fu u).running.isSome < 8)

/-- An entry joins a unit's queue. A disabled unit refuses it at once (R147). -/
def Block.firnPushEntry (s : Block) (u : Nat) (e : FirnEntry) : Block :=
  if !s.unitOn u then s.firnReport u e (REFUSED 0x60)
  else (s.modFu u fun x => { x with queue := x.queue ++ [e] }).ledTake (firnLedger u) 1

/-- FIRN_HOST_GO: the staged command is queued, or refused when the queue is full (R121). -/
def effFirnHostGo (u : Nat) (v : Word) (s : Block) : Block :=
  if v.bit 0 ∧ u < 4096 then
    let w := Cmd.ofWords ((List.range 8).map fun i => s.rg (FIRN_HOST_CMD u i))
    if s.unitOn u && !s.firnRoom u then
      (s.wf (FIRN_HOST_STATUS u) 15 0 (NO_SPACE 0x68)).wr (FIRN_HOST_LAST_SEQ u) w.w1
    else s.firnPushEntry u (.cmd .host w)
  else s

/-! ### Checks (R123) -/

/-- The first three checks. -/
def Block.firnGate (s : Block) (u : Nat) (e : FirnEntry) : Option Nat :=
  if !s.unitOn u then some (REFUSED 0x60)
  else if s.firnSet u = 0 then some (NOT_READY 0x6E)
  else if s.firnSet u ≠ 2 then some (BUSY 0x6D)
  else if e.epoch ≠ s.fld (FIRN_EPOCH u) 15 0 then some STALE_EPOCH
  else none

/-- Bits [hi:lo] of a micro-instruction. -/
def mf (w : Dword) (hi lo : Nat) : Nat := bitsOf w.toNat hi lo
/-- OP of a micro-instruction. -/
def mop (w : Dword) : Nat := mf w 63 58

/-- The indices of a program that lie in a loop body (R136). -/
def inLoopBody (prog : List Dword) (i : Nat) : Bool :=
  prog.zipIdx.any fun y => mop y.1 == 0x30 && decide (y.2 < i ∧ i ≤ y.2 + mf y.1 40 31)

/-- The bundles whose store range a source may enter. -/
def Block.firnBundles (s : Block) (u : Nat) (r : FirnSrc) : List (Nat × Bundle) :=
  match r with
  | .host => s.bundles.filter fun b => b.2.part == s.unitPart u
  | .cluster _ j _ _ _ _ => match s.jobAt j with
    | some J => s.bundles.filter fun b => b.1 == J.bundle
    | none => []

/-- Is an index an entry index of a store range that the source may use? -/
def Block.firnEntryOk (s : Block) (u : Nat) (r : FirnSrc) (i : Nat) : Bool :=
  (s.firnBundles u r).any fun b =>
    decide (b.2.firnBase ≤ i ∧ i < b.2.firnBase + b.2.img.firn.length) &&
    !inLoopBody b.2.img.firn (i - b.2.firnBase)

/-- The micro-instruction at a store index of a partition. -/
def Block.firnCode (s : Block) (p i : Nat) : Option Dword :=
  (s.bundles.find? fun b => b.2.part == p && decide (b.2.firnBase ≤ i ∧ i < b.2.firnBase + b.2.img.firn.length)).bind
    fun b => b.2.img.firn[i - b.2.firnBase]?

/-- Is an entry of a page list well formed, and does it name a Firn page of the bank group (R123, R124)? -/
def Block.entryOk (s : Block) (u : Nat) (y : Word) : Bool :=
  y.fld 20 19 != 3 && decide (y.fld 18 12 ≤ 64) && s.firnPage u (y.fld 11 0)

/-- The words of a page list, or none when the list does not lie in Firn pages. -/
def Block.pageList (s : Block) (u addr len : Nat) : Option (List Word) :=
  let a := addr * 64
  if (List.range ((len * 4 + 65535 + a % 65536) / 65536)).all fun i => len = 0 || s.firnPage u (a / 65536 + i) then
    some ((List.range len).map fun i =>
      let b := a + 4 * i
      w32 (leNat (((s.bankRead u (b / 65536) (b % 65536 / 32 * 32)).1.drop (b % 32)).take 4)))
  else none

/-- May a source name a page of a bank group (R124)? -/
def Block.firnMayName (s : Block) (u : Nat) (r : FirnSrc) (g : Nat) : Bool :=
  let p := s.unitPart u
  match s.bankPage u g with
  | none => false
  | some (.kv pid) => match r with
    | .host => (match s.page p pid with
        | none => false
        | some _ => (s.snowOf p).seqs.any fun e => e.2.holds pid && s.mayRead p 0 e.2)
    | .cluster _ j _ _ _ _ => (match s.jobAt j with
        | some J => s.mayView j J pid
        | none => false)
  | some (.obj slot _ _ _) => match s.obj p slot with
    | none => false
    | some o => match r with
      | .host => o.mayName 0 0
      | .cluster _ j _ _ _ _ => match s.jobAt j with
        | some J => o.mayName J.fn J.bundle
        | none => false

/-- Every check of a RUN (R123): the page list, or the status that ends the command. -/
def Block.firnRunCheck (s : Block) (u : Nat) (e : FirnEntry) : Except Nat (List Word) :=
  let w := e.words
  match s.firnGate u e with
  | some st => .error st
  | none =>
    if !s.bit (FIRN_STATE u) 3 then .error (NOT_READY 0x62)
    else if !s.firnEntryOk u e.src (w.f 2 25 16) then .error (REFUSED 0x61)
    else match s.pageList u (w.f 3 21 0) (w.f 4 11 0) with
      | none => .error (REFUSED 0x63)
      | some l =>
        if 2048 < w.f 4 11 0 ∨ !l.all (s.entryOk u) then .error (REFUSED 0x63)
        else
          let a := w.f 3 21 0 * 64
          let holds := (List.range ((l.length * 4 + 65535 + a % 65536) / 65536)).map (a / 65536 + ·)
          if (l.map fun y => y.fld 11 0).all (s.firnMayName u e.src) &&
              (l.isEmpty || holds.all (s.firnMayName u e.src)) then .ok l
          else .error (DENIED 0x64)

/-! ### Taking an entry -/

/-- The head of a unit's queue, when the unit can take it. -/
def Block.firnHead (s : Block) (u : Nat) : Option FirnEntry :=
  if (s.fu u).running.isSome then none else (s.fu u).queue.head?

/-- A unit at a yield point: in a set that stops its command ends (R145); it parks when more than three refreshes are due
(R140). -/
def Block.yieldPoint (s : Block) (u : Nat) : Block :=
  if s.firnSet u = 3 then s.firnEnd u (ABORTED 0x6C) false
  else if 3 < (s.fu u).refDebt then
    ((s.modFu u fun x => { x with parked := true }).setFirnState u 4).bump (FIRN_CNT_PARKS u)
  else s

/-- An entry starts to run. -/
def Block.firnStart (s : Block) (u : Nat) (e : FirnEntry) (l : List Word) : Block :=
  let w := e.words
  let x := s.fu u
  let s := s.setFu u { x with
    queue := x.queue.drop 1, running := some e, pc := w.f 2 25 16, plist := l,
    regs := tset 0 (tset 0 (tset 0 [] 1 w.w5) 2 w.w6) 3 (w32 (w.f 4 11 0)), acc := [], stats := [], loops := [],
    stream := [], streamed := 0, ownQ := [], wait := none, parked := false, began := s.now }
  ((s.ledSend (firnLedger u) 1).setFirnState u 3).wr (FIRN_CUR_SEQ u) w.w1

/-- FIRN_RUN: a RUN, or a command with an opcode that R120 lacks, is taken and checked. -/
def effFirnRun (u : Nat) (s : Block) : Block :=
  match s.firnHead u with
  | some (.cmd r w) =>
    let e := FirnEntry.cmd r w
    if w.op = 2 then s
    else if w.op ≠ 1 then s.firnRefuse u (UNSUPPORTED 0)
    else match s.firnRunCheck u e with
      | .error st => s.firnRefuse u st
      | .ok l => (s.firnStart u e l).yieldPoint u
  | _ => s

/-- FIRN_FENCE: a FENCE is taken and checked, and waits for the write queue. -/
def effFirnFence (u : Nat) (s : Block) : Block :=
  match s.firnHead u with
  | some (.cmd r w) =>
    let e := FirnEntry.cmd r w
    if w.op ≠ 2 then s
    else match s.firnGate u e with
      | some st => s.firnRefuse u st
      | none => s.firnStart u e []
  | _ => s

/-- FIRN_FENCE_COMPLETE: the write queue is in the banks, FSEQ is written and NOTIFY given (R126). -/
def effFirnFenceComplete (u : Nat) (s : Block) : Block :=
  match (s.fu u).running with
  | some (.cmd r w) =>
    if w.op ≠ 2 then s else
    let e := FirnEntry.cmd r w
    let s := s.firnDrain u ((s.fu u).writeQ.length + (s.fu u).ownQ.length)
    let s := match r with
      | .host => s.wr (FIRN_HOST_FSEQ u) w.w1
      | .cluster c _ _ _ _ _ => s.wr (FIRN_FSEQ u c) w.w1
    let s := s.firnEnd u OK false
    if w.b 0 8 then s.firnNotify u e else s
  | _ => s

/-- HOLD_BROADCAST_APPLY (R125). -/
def effHoldBroadcastApply (u : Nat) (s : Block) : Block :=
  match s.firnHead u with
  | some (.hold r ep addr data ps) =>
    match s.firnGate u (.hold r ep addr data ps) with
    | some st => s.firnRefuse u st
    | none =>
      ((s.modFu u fun x => { x with queue := x.queue.drop 1, hold := x.hold.write (addr * 32) data ps }).ledDrop
        (firnLedger u) 1)
  | _ => s

/-! ### Micro-instructions (R129 to R135) -/

/-- The micro-instruction that a running unit executes next, when it is of this kind. -/
def Block.microNext (s : Block) (u op : Nat) : Option Dword :=
  let x := s.fu u
  match x.running with
  | some (.cmd _ w) =>
    if w.op = 1 ∧ !x.parked ∧ x.wait.isNone then
      (s.firnCode (s.unitPart u) x.pc).bind fun i => if mop i = op then some i else none
    else none
  | _ => none

/-- Have the Firn units of a compute stack spent their grant of the window (R451)? -/
def Block.firnSpent (s : Block) (k : Nat) : Bool := decide (s.pwr.grants.getD (28 + k) 0 ≤ s.pwr.firnUse.getD k 0) && !s.pwr.grants.isEmpty

/-- Tokens spent by the Firn units of a compute stack; how many an instruction takes is open. -/
def Block.spendFirn (s : Block) (k : Nat) : Block :=
  let r := s.choose 256
  { r.2 with pwr := { r.2.pwr with firnUse := addLists r.2.pwr.firnUse ((List.range 16).map fun i => if i = k then r.1 else 0) } }

/-- A unit executes its next micro-instruction: part of the write queue may drain first, the steps are counted
and the program goes on, unless the instruction says otherwise. -/
def Block.micro (s : Block) (u op : Nat) (cost : Dword → Nat) (f : Block → Dword → Block) : Block :=
  match s.microNext u op with
  | none => s
  | some i =>
    let s := ((s.spendFirn (u / 256)).firnDrainSome u).bumpPair (FIRN_CNT_STEPS_LO u) (cost i)
    f (s.modFu u fun x => { x with pc := x.pc + 1 }) i

/-- The page and byte offset of unit `k` of a transfer, none past the last entry (R130). The shifted register is cut to
32 bits before OFF is added: DESIGN CHOICE, log entry 156. -/
def FirnUnit.target (x : FirnUnit) (lidx oreg osh off k : Nat) : Option (Word × Nat) :=
  let n := off + ((x.reg oreg).toNat * 2 ^ osh) % 2 ^ 32 + k
  (x.plist[lidx + n / 2048]?).map fun y => (y, n % 2048 * 32)

/-- The transfer's targets, none when one passes the last entry. -/
def FirnUnit.targets (x : FirnUnit) (lidx oreg osh off len : Nat) : Option (List (Word × Nat)) :=
  (List.range len).mapM fun k => x.target lidx oreg osh off k

/-- The sequences that hold a poisoned page are DAMAGED from its first position (R238). -/
def Block.damageSeqs (s : Block) (p pid : Nat) : Block :=
  match s.page p pid with
  | none => s
  | some g =>
    let mark (q : Seq) : Seq :=
      if q.holds pid then
        { q with damaged := some (match q.damaged with | some d => min d g.firstPos | none => g.firstPos) }
      else q
    s.setSnow p { s.snowOf p with seqs := kmap (s.snowOf p).seqs fun _ q => mark q }

/-- A poisoned consumption in a unit (R148, R238, R468, R480): point 2, and the first poisoned unit of the data,
none when the mark lies in a buffer. -/
def Block.firnPoisoned (s : Block) (u : Nat) (bad : Option BankUnit) : Block :=
  let p := s.unitPart u
  let r : Nat × Block := match bad.bind fun b => (s.bankPage u b.page).map fun g => (b, g) with
    | some (_, .kv pid) => (POISONED 3, (s.damageSeqs p pid).consumed 2 u 0 0)
    | some (b, .obj slot pc k st) => (match s.obj p slot with
      | some o => s.consumedObj 2 u p (mkHandle slot o.gen) ((o.pieceOffset pc k (st + b.off)).getD 0)
      | none => (POISONED 3, s.consumed 2 u 0 0))
    | none => (POISONED 3, s.consumed 2 u 0 0)
  r.2.firnEnd u r.1 true

/-- The errors that a unit's read of its banks meets (R463, R464). -/
def Block.bankErrors (s : Block) (u : Nat) (l : List (Word × Nat)) : Block :=
  if s.env.dramErrs.isEmpty then s else
  s.each l fun s t =>
    match s.bankPage u (t.1.fld 11 0) with
    | none => s
    | some (.kv pid) => s.meetErrors (unitStack u) (s.unitPart u) 0 fun x => x == (pid * 65536 + t.2) / 32
    | some (.obj slot pc k st) => match s.obj (s.unitPart u) slot with
      | none => s
      | some o => match o.pieceOffset pc k (st + t.2) with
        | some v => s.meetErrors (unitStack u) (s.unitPart u) (mkHandle slot o.gen) fun x => inSectors v 32 (x * 32)
        | none => s

/-- ROW (R130). A transfer past the end of HOLD or of the scale buffer ends the command with 0x63: DESIGN CHOICE, log entry
9. -/
def rowEffect (u : Nat) (s : Block) (i : Dword) : Block :=
  let x := s.fu u
  let dest := mf i 57 56
  let len := mf i 23 12
  let daddr := mf i 11 2
  match x.targets (mf i 55 44) (mf i 43 40) (mf i 39 36) (mf i 35 24) len with
  | none => s.firnEnd u (REFUSED 0x63) true
  | some l =>
    let s := s.bankErrors u l
    let bs := l.map fun t =>
      let r := s.unitRead u (t.1.fld 11 0) t.2
      ({ page := t.1.fld 11 0, off := t.2, data := r.1, poison := r.2 } : BankUnit)
    if dest = 0 then s.modFu u fun x => { x with stream := x.stream ++ bs }
    else if (if dest = 1 then 1024 else 128) < daddr + len then s.firnEnd u (REFUSED 0x63) true
    else if bs.any (·.poison) then s.firnPoisoned u (bs.find? (·.poison))
    else
      let data := bs.flatMap (·.data)
      s.modFu u fun x =>
        if dest = 1 then { x with hold := x.hold.put (daddr * 32) data }
        else { x with scale := x.scale.put (daddr * 32) data }

/-- A block result added into an FP32 element with one rounding (R47, R49); a finite one leaves an infinity. -/
def addBlock (acc : Word) (b : Elem) : Word :=
  match b, fpUnpack acc with
  | none, _ => fNaN
  | some d, .fin n a => dyFp32 ((signed n a).add d) (if d.m = 0 ∧ a.m = 0 then n else false)
  | some _, .inf n => fInf n
  | some _, .nan => fNaN

/-- What a MAC reads: its stream's bytes, its fields. -/
structure MacIn where
  x : FirnUnit
  fmt : Nat
  book : Word
  bytes : List Byte
  haddr : Nat
  saddr : Nat
  rlen : Nat
  oreg : Nat
  rows : Nat
  region : Option Dy
  region1 : Bool

/-- Element `e` of stream row `j` with its block scale, before the region scale (R31, R131). Scale addresses run
modulo the buffer's 4,096 bytes. -/
def MacIn.elem (m : MacIn) (j e : Nat) : Elem :=
  let k := j * m.rlen * 32 + e
  let b := memByte m.x.scale.cells ((m.saddr * 32 + k / 32) % 4096)
  scaled b (codeValue m.fmt m.book (codeAt (fun a => m.bytes.getD a 0) m.fmt 0 k))

/-- The region scale applied to a block result. -/
def MacIn.regioned (m : MacIn) (v : Elem) : Elem :=
  if m.region1 then v else match m.region with
    | some r => v.map fun d => d.mul r
    | none => none

/-- A BF16 held value as an element. -/
def heldElem (w : Word) : Elem :=
  match fpUnpack w with
  | .fin n a => some (signed n a)
  | _ => none

/-- DOT for one held vector and one row: the element after all blocks (R131). -/
def MacIn.dot (m : MacIn) (h j : Nat) (acc : Word) : Word :=
  (List.range m.rlen).foldl (fun a b =>
    addBlock a (m.regioned (exactSum ((List.range 32).map fun e =>
      exactMul (m.elem j (b * 32 + e)) (heldElem (m.x.held (m.haddr * 16 + h * m.rlen * 32 + b * 32 + e))))))) acc

/-- OUTER for one held scalar row and one column (R131). -/
def MacIn.outer (m : MacIn) (h d : Nat) (acc : Word) : Word :=
  (List.range (ceilDiv m.rows 32)).foldl (fun a g =>
    addBlock a (m.regioned (exactSum ((List.range (min 32 (m.rows - g * 32))).map fun k =>
      let j := g * 32 + k
      exactMul (heldElem (m.x.held (m.haddr * 16 + h * 128 + (m.x.reg m.oreg).toNat + j))) (m.elem j d))))) acc

/-- Does a run of BF16 elements of HOLD touch a mark? -/
def FirnUnit.heldMarked (x : FirnUnit) (i n : Nat) : Bool :=
  (List.range n).any fun k => x.hold.poison.contains (2 * ((i + k) % 16384) / 32)

/-- Does a run of bytes of the scale buffer touch a mark? -/
def FirnUnit.scaleMarked (x : FirnUnit) (a n : Nat) : Bool := (List.range n).any fun k => x.scale.poison.contains ((a + k) % 4096 / 32)

/-- Do the buffers hold a mark in what the MAC reads of them: the held vectors or scalars, one by one, and the scales? -/
def MacIn.marked (m : MacIn) (outer : Bool) (nh : Nat) : Bool :=
  m.x.scaleMarked (m.saddr * 32) (m.rows * m.rlen) ||
  (List.range nh).any fun h =>
    if outer then m.x.heldMarked (m.haddr * 16 + h * 128 + (m.x.reg m.oreg).toNat) m.rows
    else decide (0 < m.rows) && m.x.heldMarked (m.haddr * 16 + h * m.rlen * 32) (m.rlen * 32)

/-- The bad codes and bad region scales of a MAC (R37, R39). -/
def MacIn.bad (m : MacIn) : Nat :=
  ((List.range (m.rows * m.rlen * 32)).filter fun k => badCode m.fmt (codeAt (fun a => m.bytes.getD a 0) m.fmt 0 k)).length +
    (if m.region1 || m.region.isSome then 0 else m.rows * m.rlen)

/-- The stream moves on: at each row boundary that it passes the write queue drains, and up to two external accesses are
served, how many being open (R137). -/
def Block.streamOn (s : Block) (u n : Nat) : Block :=
  let x := s.fu u
  let b := (x.streamed + n) / 32 - x.streamed / 32
  let s := if b = 0 then s else s.firnDrain u (x.writeQ.length + x.ownQ.length)
  let (ext, s) := s.choose (2 * b + 1)
  let s := if ext = 0 then s else s.bump (FIRN_CNT_EXT u) ext
  s.modFu u fun x => { x with stream := x.stream.drop n, streamed := x.streamed + n }

/-- MAC (R131). A LEN that is no whole number of rows consumes the units of the last, partial one and computes nothing with
them, and an RLEN of 0 makes LEN empty rows: DESIGN CHOICE, log entry 157. -/
def macEffect (u : Nat) (s : Block) (i : Dword) : Block :=
  let x := s.fu u
  let outer := mf i 57 57 == 1
  let fmt := mf i 56 53
  let len := mf i 52 41
  let nh := mf i 30 28 + 1
  let set := mf i 27 27
  let rlen := mf i 18 9
  let rreg := mf i 4 1
  let used := x.stream.take len
  let book := match x.running with | some e => e.words.w6 | none => 0
  let perRow := max 1 (rlen * fmtBits fmt / 8)
  let m : MacIn :=
    { x := x, fmt := fmt, book := book, bytes := used.flatMap (·.data), haddr := mf i 40 31, saddr := mf i 26 20,
      rlen := rlen, oreg := mf i 8 5, rows := used.length / perRow, region := regionScale ((x.reg rreg).fld 15 0),
      region1 := rreg == 0 }
  if used.any (·.poison) || m.marked outer nh then s.firnPoisoned u (used.find? (·.poison))
  else
    let s := if m.bad = 0 then s else s.bump (FIRN_CNT_BADCODE u) m.bad
    let s := s.streamOn u used.length
    if used.length < len then s.firnEnd u (REFUSED 0x63) true else
    s.modFu u fun x =>
      let x := if mf i 19 19 = 1 then { x with acc := x.acc.filter fun e => e.1 / 1024 != set } else x
      loop nh (fun h x =>
        if outer then
          loop (rlen * 32) (fun d x => x.setEl set (h * 128 + d) (m.outer h d (x.el set (h * 128 + d)))) x
        else
          loop m.rows (fun j x =>
            let e := h * 128 + (x.reg m.oreg).toNat + j
            x.setEl set e (m.dot h j (x.el set e))) x) x

/-- The valid count of a page for RSTAT and EXP, none when the entry is past the list (R132). -/
def FirnUnit.valid (x : FirnUnit) (preg pidx nt : Nat) : Option Nat :=
  (x.plist[pidx + (x.reg preg).toNat]?).map fun e => min (e.fld 18 12) nt

/-- A row of a set changed element by element. -/
def FirnUnit.mapRow (x : FirnUnit) (set h : Nat) (f : Word → Word) : FirnUnit :=
  loop 128 (fun j x => x.setEl set (h * 128 + j) (f (x.el set (h * 128 + j)))) x

/-- Is a row EMPTY (R132)? -/
def RowStat.isEmpty (r : RowStat) : Bool := r.l == fZero true

/-- RSTAT for one row (R132). -/
def FirnUnit.rstatRow (x : FirnUnit) (set h v : Nat) (init : Bool) : FirnUnit :=
  let o := 1 - set
  let x := if init then (x.setStat h RowStat.empty).mapRow o h (fun _ => 0) else x
  if v = 0 then x else
  let mx := (List.range (v - 1)).foldl (fun a j => fMax a (x.el set (h * 128 + j + 1))) (x.el set (h * 128))
  let r := x.stat h
  if r.isEmpty then (x.setStat h { m := mx, l := 0 }).mapRow o h (fun _ => 0)
  else
    let mn := fMax r.m mx
    let a := fExp (fSub r.m mn)
    (x.mapRow o h (fMul · a)).setStat h { m := mn, l := fMul r.l a }

/-- RSTAT. -/
def rstatEffect (u : Nat) (s : Block) (i : Dword) : Block :=
  match (s.fu u).valid (mf i 46 43) (mf i 40 29) (mf i 54 47) with
  | none => s.firnEnd u (REFUSED 0x63) true
  | some v => s.modFu u fun x =>
      (List.range (mf i 57 55 + 1)).foldl (fun x h => x.rstatRow (mf i 42 42) h v (mf i 41 41 == 1)) x

/-- EXP for one row (R132). -/
def FirnUnit.expRow (x : FirnUnit) (set h v nt haddr : Nat) : FirnUnit :=
  (List.range nt).foldl (fun x j =>
    let r := x.stat h
    let p := if decide (j < v) && !r.isEmpty then fBf16 (fExp (fSub (x.el set (h * 128 + j)) r.m)) else 0
    let a := 2 * ((haddr * 16 + h * 128 + j) % 16384)
    let x := { x with hold := x.hold.put a (leBytes 2 (p.toNat / 65536)) }
    if j < v then x.setStat h { r with l := fAdd r.l p } else x) x

/-- EXP. -/
def expEffect (u : Nat) (s : Block) (i : Dword) : Block :=
  match (s.fu u).valid (mf i 46 43) (mf i 31 20) (mf i 54 47) with
  | none => s.firnEnd u (REFUSED 0x63) true
  | some v => s.modFu u fun x =>
      (List.range (mf i 57 55 + 1)).foldl (fun x h => x.expRow (mf i 42 42) h v (mf i 54 47) (mf i 41 32)) x

/-- SCALE (R133). -/
def scaleEffect (u : Nat) (s : Block) (i : Dword) : Block :=
  s.modFu u fun x =>
    let k := if mf i 56 56 = 0 then w32 (mf i 51 36 * 65536) else x.reg (mf i 55 52)
    loop 1024 (fun e x => x.setEl (mf i 57 57) e (fMul (x.el (mf i 57 57) e) k)) x

/-- The bytes that a set or the statistics give to a COMMIT or a send: unit `k` of 32 B (R133). -/
def FirnUnit.unitBytes (x : FirnUnit) (src set k : Nat) : List Byte :=
  if src = 0 then (List.range 8).flatMap fun e => leBytes 4 (x.el set (k * 8 + e)).toNat
  else if src = 1 then (List.range 16).flatMap fun e => leBytes 2 ((fBf16 (x.el set (k * 16 + e))).toNat / 65536)
  else (List.range 4).flatMap fun e =>
    if k * 4 + e < 8 then leBytes 4 (x.stat (k * 4 + e)).m.toNat ++ leBytes 4 (x.stat (k * 4 + e)).l.toNat
    else List.replicate 8 0

/-- COMMIT (R133). Units of an open stream that it writes are read as it wrote them (R130). -/
def commitEffect (u : Nat) (s : Block) (i : Dword) : Block :=
  let x := s.fu u
  let len := mf i 22 11
  match x.targets (mf i 54 43) (mf i 42 39) (mf i 38 35) (mf i 34 23) len with
  | none => s.firnEnd u (REFUSED 0x63) true
  | some l =>
    if l.any fun t => t.1.fld 20 19 != 2 then s.firnEnd u (REFUSED 0x63) true
    else
      let bs := l.zipIdx.map fun t =>
        ({ page := t.1.1.fld 11 0, off := t.1.2, data := x.unitBytes (mf i 57 56) (mf i 55 55) t.2, poison := false } : BankUnit)
      let s := s.modFu u fun x =>
        { x with ownQ := x.ownQ ++ bs,
                 stream := x.stream.map fun b => (bs.find? fun c => c.page == b.page && c.off == b.off).getD b }
      let n := (s.fu u).writeQ.length + (s.fu u).ownQ.length
      s.firnDrain u (n - 256)

/-! ### The chain and the bus (R142 to R144) -/

/-- The unit of a core die and bank group of the same stack. -/
def busPeer (u code : Nat) : Nat := u / 256 * 256 + code

/-- A side waits for its partner, which is a yield point, or ends when there is none. -/
def Block.firnWait (s : Block) (u : Nat) (r : Rendezvous) (peer : Option Nat) : Block :=
  match peer with
  | none => s.firnEnd u (REFUSED 0x65) true
  | some v =>
    if !s.unitOn v then s.firnEnd u (REFUSED 0x65) true
    else ((s.modFu u fun x => { x with wait := some r }).setFirnState u 5).yieldPoint u

/-- CSEND and CRECV. -/
def chainEffect (send : Bool) (u : Nat) (s : Block) (i : Dword) : Block :=
  s.firnWait u { bus := false, dirOrPeer := mf i 57 56, send := send, kind := mf i 55 54, acc := mf i 53 53 == 1,
                 addr := mf i 52 43, len := mf i 42 31 } (chainPeer u (mf i 57 56))

/-- BSEND and BRECV. -/
def busEffect (send : Bool) (u : Nat) (s : Block) (i : Dword) : Block :=
  s.firnWait u { bus := true, dirOrPeer := mf i 57 50, send := send, kind := mf i 49 48, acc := mf i 47 47 == 1,
                 addr := mf i 46 37, len := mf i 36 25 } (some (busPeer u (mf i 57 50)))

/-- The unit at the other end of a side. -/
def Rendezvous.peer (r : Rendezvous) (u : Nat) : Option Nat :=
  if r.bus then some (busPeer u r.dirOrPeer) else chainPeer u r.dirOrPeer

/-- Do two waiting sides meet: opposite directions, one sends and one receives (R142)? -/
def meets (u : Nat) (a : Rendezvous) (v : Nat) (b : Rendezvous) : Bool :=
  a.bus == b.bus && a.send != b.send && a.peer u == some v && b.peer v == some u &&
  (if a.bus then true else b.dirOrPeer == a.dirOrPeer ^^^ 1)

/-- The partner of a waiting unit, when it waits too and neither is parked. -/
def Block.partner (s : Block) (u : Nat) : Option (Rendezvous × Nat × Rendezvous) :=
  match (s.fu u).wait with
  | none => none
  | some a => match a.peer u with
    | none => none
    | some v => match (s.fu v).wait with
      | none => none
      | some b => if meets u a v b && !(s.fu u).parked && !(s.fu v).parked then some (a, v, b) else none

/-- The row statistics and set merged (R143). -/
def FirnUnit.merge (x y : FirnUnit) (sx sy : Nat) : FirnUnit :=
  (List.range 8).foldl (fun x h =>
    let a := x.stat h
    let b := y.stat h
    if b.isEmpty then x
    else if a.isEmpty then
      (loop 128 (fun j x => x.setEl sx (h * 128 + j) (y.el sy (h * 128 + j))) x).setStat h b
    else
      let m := fMax a.m b.m
      let ea := fExp (fSub a.m m)
      let eb := fExp (fSub b.m m)
      (loop 128 (fun j x =>
        x.setEl sx (h * 128 + j) (fAdd (fMul (x.el sx (h * 128 + j)) ea) (fMul (y.el sy (h * 128 + j)) eb))) x).setStat h
        { m := m, l := fAdd (fMul a.l ea) (fMul b.l eb) }) x

/-- What a sender gives a receiver (R142, R143). Set and HOLD addresses count 32 B units; log entry 9. -/
def transfer (x : FirnUnit) (a : Rendezvous) (y : FirnUnit) (b : Rendezvous) : FirnUnit :=
  if b.kind = 2 then y.merge x (b2n b.acc) (b2n a.acc)
  else
    let bytes := (List.range a.len).flatMap fun k =>
      if a.kind = 0 then x.unitBytes 0 (b2n a.acc) (a.addr + k) else x.hold.read ((a.addr + k) % 1024 * 32) 32
    let marks := (List.range a.len).map fun k => a.kind == 1 && x.hold.marked ((a.addr + k) % 1024 * 32) 32
    if b.kind = 0 then
      loop (a.len * 8) (fun e y =>
        let i := b.addr * 8 + e
        y.setEl (b2n b.acc) i (fAdd (y.el (b2n b.acc) i) (w32 (leNat ((bytes.drop (4 * e)).take 4))))) y
    else
      loop a.len (fun k y =>
        { y with hold := y.hold.write ((b.addr + k) % 1024 * 32) ((bytes.drop (32 * k)).take 32) [marks.getD k false] }) y

/-- A side goes on after its transfer: it enters a segment, with no more than three refreshes due (R140). -/
def Block.firnResume (s : Block) (u : Nat) : Block :=
  ((s.modFu u fun x => { x with wait := none }).setFirnState u 3).yieldPoint u

/-- CHAIN_RENDEZVOUS: two sides that wait for each other move the data, or both end on a mismatch. -/
def effChainRendezvous (u : Nat) (s : Block) : Block :=
  match s.partner u with
  | none => s
  | some (a, v, b) =>
    if a.len ≠ b.len ∨ (a.kind = 2) ≠ (b.kind = 2) then
      (s.firnEnd u (REFUSED 0x6F) true).firnEnd v (REFUSED 0x6F) true
    else
      let s := if a.send then s.setFu v (transfer (s.fu u) a (s.fu v) b) else s.setFu u (transfer (s.fu v) b (s.fu u) a)
      (s.firnResume u).firnResume v

/-- CHAIN_TIMEOUT: a side without a partner ends its command (R143). -/
def effChainTimeout (u : Nat) (s : Block) : Block :=
  if (s.fu u).wait.isSome && (s.partner u).isNone then
    (s.bump (FIRN_CNT_TIMEOUT u)).firnEnd u (TIMEOUT 0x66) true
  else s

/-! ### Loops and ends (R134, R135, R140) -/

/-- LOOP. -/
def loopEffect (u : Nat) (s : Block) (i : Dword) : Block :=
  s.modFu u fun x =>
    let n := if mf i 57 57 = 1 then (x.reg (mf i 44 41)).toNat else mf i 56 45
    let body := mf i 40 31
    if n = 0 then { x with pc := x.pc + body }
    else { x with loops := { first := x.pc, last := x.pc + body - 1, total := n, iter := 0 } :: x.loops }

/-- ENDL. -/
def endlEffect (u : Nat) (s : Block) (i : Dword) : Block :=
  s.modFu u fun x =>
    let add (x : FirnUnit) (r st : Nat) := x.setReg r (x.reg r + wOfInt (signExt 12 st))
    let x := add (add x (mf i 57 54) (mf i 53 42)) (mf i 41 38) (mf i 37 26)
    match x.loops with
    | [] => x
    | l :: rest =>
      if l.iter + 1 < l.total then { x with pc := l.first, loops := { l with iter := l.iter + 1 } :: rest }
      else { x with loops := rest }

/-- Is the unit at a yield point: about to YIELD, waiting for a partner, or parked (R136)? -/
def Block.atYield (s : Block) (u : Nat) : Bool :=
  (s.fu u).parked || (s.fu u).wait.isSome || (s.microNext u 0x38).isSome

/-- FIRN_CMD_TIMEOUT: a RUN past its bound ends at a yield point (R127). -/
def effFirnCmdTimeout (u : Nat) (s : Block) : Block :=
  if s.atYield u then (s.bump (FIRN_CNT_TIMEOUT u)).firnEnd u (TIMEOUT 0x67) false else s

/-- FIRN_PARK_END: the refreshes are done and the unit goes on (R140). -/
def effFirnParkEnd (u : Nat) (s : Block) : Block :=
  if (s.fu u).parked then
    (s.modFu u fun x => { x with parked := false, refDebt := 0 }).setFirnState u (if (s.fu u).wait.isSome then 5 else 3)
  else s

/-- Is the unit in a segment: does it run a RUN's instructions? A FENCE has none (R136). -/
def Block.inSegment (s : Block) (u : Nat) : Bool :=
  s.firnState u == 3 && (match (s.fu u).running with | some e => e.op == 1 | none => false)

/-- REFRESH_DUE: a refresh falls due in a bank group with `act` activations over the last 64 µs. Inside a
segment it is postponed (R139, R140). -/
def effRefreshDue (u act : Nat) (s : Block) : Block :=
  if 4096 ≤ u then s else
  let n := unitStack u
  let hi := s.fld (STK_FIRN_ACT n) 15 0
  let lo := min hi (s.fld (STK_FIRN_ACT n) 31 16)
  let high := if hi ≤ act then true else if act < lo then false else s.bit (FIRN_STATE u) 12
  let s := (s.modFu u fun x => { x with act := act }).wb (FIRN_STATE u) 12 high
  if s.inSegment u then s.modFu u fun x => { x with refDebt := min 8 (x.refDebt + 1) } else s

/-! ### Sets and disabled units (R145 to R147, R476) -/

/-- Every entry of a unit's queue, and its running command, ended with a status. -/
def Block.firnAbort (s : Block) (u st : Nat) (discard : Bool) : Block :=
  let s := s.firnEnd u st discard
  loop (s.fu u).queue.length (fun _ s => s.firnRefuse u st) s

/-- A unit's logic is disabled: its work is refused, its frames moved, its entries leave the pool (R147, R341). -/
def Block.firnDisable (s : Block) (u : Nat) : Block :=
  let s := s.firnAbort u (REFUSED 0x60) true
  let s := s.firnDrain u (s.fu u).writeQ.length
  let p := s.unitPart u
  let s := ((s.wb (FIRN_ID u) 12 false).setFirnState u 0).wb (FIRN_STATE u) 3 false
  let n := unitStack u
  let s := s.wf (STK_ID n) 24 16 (s.fld (STK_ID n) 24 16 - 1)
  let s := s.ledShrink (firnLedger u) 8
  let s := s.each ((s.objects p).live.flatMap fun e =>
      (e.2.pieces.filter fun y => y.2.unit == u).map fun y => (e.1, y.1)) fun s e => s.movePiece p e.1 e.2
  let s := s.each ((s.snowOf p).pages.filter fun e => match e.2.loc with | .compute v _ => v == u | _ => false) fun s e =>
    s.moveKvPage p e.1
  s.setFu u { FirnUnit.reset with act := (s.fu u).act }

/-- FIRN_UNIT_FAIL. -/
def effFirnUnitFail (u cause : Nat) (s : Block) : Block :=
  if u < 4096 ∧ s.unitOn u then (s.firnDisable u).event srcHealth 0x0505 [w32 u, w32 cause] else s

/-- The stack and group of Firn set `k`: 8 sets to a compute stack. -/
def setStack (k : Nat) : Nat := computeStack (k / 8)
/-- The units of a Firn set. -/
def setUnits (k : Nat) : List Nat := ((List.range 256).map (k / 8 * 256 + ·)).filter fun u => unitGroup u == k % 8
/-- The state of a Firn set. -/
def Block.setState (s : Block) (k : Nat) : Nat := s.fld (STK_FIRN_SET (setStack k)) (2 * (k % 8) + 1) (2 * (k % 8))
/-- The state of a Firn set changed. -/
def Block.setSetState (s : Block) (k v : Nat) : Block :=
  s.wf (STK_FIRN_SET (setStack k)) (2 * (k % 8) + 1) (2 * (k % 8)) v

/-- The number after an epoch (R146, R170). -/
def nextEpoch (e : Nat) : Nat := if e = 0xFFFF then 1 else e + 1

/-- A unit as a starting set leaves it (R146). What was queued while the set started ends with the check of R123. -/
def Block.firnFresh (s : Block) (u : Nat) : Block :=
  if !s.unitOn u then s else
  let s := loop (s.fu u).queue.length (fun _ s => s.firnRefuse u (BUSY 0x6D)) s
  let s := s.setFu u { FirnUnit.reset with act := (s.fu u).act }
  ((s.wf (FIRN_EPOCH u) 15 0 (nextEpoch (s.fld (FIRN_EPOCH u) 15 0))).setFirnState u 2).wb (FIRN_STATE u) 3 true

/-- FIRN_SET_START_DONE: a STARTING set enters RUNNING (R146). -/
def effFirnSetStartDone (k : Nat) (s : Block) : Block :=
  if k < 128 ∧ s.setState k = 1 then ((s.each (setUnits k) fun s u => s.firnFresh u).setSetState k 2) else s

/-- A Firn set stops: every queued entry ends, and every command that waits for a partner; another running command goes
on to its next yield point (R145). -/
def Block.stopFirnSet (s : Block) (k : Nat) : Block :=
  (s.setSetState k 3).each (setUnits k) fun s u =>
    let s := loop (s.fu u).queue.length (fun _ s => s.firnRefuse u (ABORTED 0x6C)) s
    if (s.fu u).wait.isSome ∨ (s.fu u).parked then s.firnEnd u (ABORTED 0x6C) false else s

/-- Has a unit of a stopping set come to a yield point: does no command run between two? -/
def Block.firnQuiet (s : Block) (u : Nat) : Bool := !s.inSegment u || s.atYield u

/-- A STOPPING set's remaining work is aborted, its write queues drain, and it is STOPPED. -/
def firnSetStoppedEffect (k : Nat) (s : Block) : Block :=
  let s := s.each (setUnits k) fun s u =>
    let s := s.firnAbort u (ABORTED 0x6C) false
    let s := s.firnDrain u (s.fu u).writeQ.length
    if s.unitOn u then (s.setFirnState u 1).wb (FIRN_STATE u) 3 false else s
  s.setSetState k 0

/-- FIRN_SET_STOPPED: a STOPPING set whose units have come to yield points reaches STOPPED (R145). -/
def effFirnSetStopped (k : Nat) (s : Block) : Block :=
  if k < 128 ∧ s.setState k = 3 ∧ (setUnits k).all s.firnQuiet then firnSetStoppedEffect k s else s

/-! ### The micro-instruction commands -/

/-- ROW: 2 steps, and LEN more into a buffer (R129). -/
def effRow (u : Nat) (s : Block) : Block :=
  (s.micro u 0x01 (fun i => 2 + (if mf i 57 56 = 0 then 0 else mf i 23 12)) (rowEffect u)).repairMet
/-- MAC. -/
def effMac (u : Nat) (s : Block) : Block := s.micro u 0x08 (fun i => mf i 52 41) (macEffect u)
/-- RSTAT. -/
def effRstat (u : Nat) (s : Block) : Block := s.micro u 0x10 (fun _ => 4) (rstatEffect u)
/-- EXP. -/
def effExp (u : Nat) (s : Block) : Block :=
  s.micro u 0x11 (fun i => 2 + ceilDiv ((mf i 57 55 + 1) * mf i 54 47) 64) (expEffect u)
/-- SCALE. -/
def effScale (u : Nat) (s : Block) : Block := s.micro u 0x18 (fun _ => 2) (scaleEffect u)
/-- COMMIT. -/
def effCommit (u : Nat) (s : Block) : Block := s.micro u 0x20 (fun i => mf i 22 11) (commitEffect u)
/-- CSEND. -/
def effCsend (u : Nat) (s : Block) : Block := s.micro u 0x28 (fun i => ceilDiv (5 * mf i 42 31) 4) (chainEffect true u)
/-- CRECV. -/
def effCrecv (u : Nat) (s : Block) : Block := s.micro u 0x29 (fun i => ceilDiv (5 * mf i 42 31) 4) (chainEffect false u)
/-- BSEND. -/
def effBsend (u : Nat) (s : Block) : Block := s.micro u 0x2C (fun i => ceilDiv (5 * mf i 36 25) 8) (busEffect true u)
/-- BRECV. -/
def effBrecv (u : Nat) (s : Block) : Block := s.micro u 0x2D (fun i => ceilDiv (5 * mf i 36 25) 8) (busEffect false u)
/-- LOOP. -/
def effLoop (u : Nat) (s : Block) : Block := s.micro u 0x30 (fun _ => 1) (loopEffect u)
/-- ENDL. -/
def effEndl (u : Nat) (s : Block) : Block := s.micro u 0x31 (fun _ => 1) (endlEffect u)
/-- YIELD. -/
def effYield (u : Nat) (s : Block) : Block := s.micro u 0x38 (fun _ => 1) fun s _ => s.yieldPoint u
/-- FENCEC: the command completes with OK (R134). -/
def effFencec (u : Nat) (s : Block) : Block := s.micro u 0x3C (fun _ => 1) fun s _ => s.firnEnd u OK false

/-! ### Meanings -/

/-- The meaning of FIRN_HOST_GO. -/
def execFirnHostGo (u : Nat) (v : Word) : State → Host.Outcome State Fault Refusal := onBlk (effFirnHostGo u v)
/-- The meaning of FIRN_RUN. -/
def execFirnRun (u : Nat) : State → Host.Outcome State Fault Refusal := onBlk (effFirnRun u)
/-- The meaning of FIRN_FENCE. -/
def execFirnFence (u : Nat) : State → Host.Outcome State Fault Refusal := onBlk (effFirnFence u)
/-- The meaning of FIRN_FENCE_COMPLETE. -/
def execFirnFenceComplete (u : Nat) : State → Host.Outcome State Fault Refusal := onBlk (effFirnFenceComplete u)
/-- The meaning of HOLD_BROADCAST_APPLY. -/
def execHoldBroadcastApply (u : Nat) : State → Host.Outcome State Fault Refusal := onBlk (effHoldBroadcastApply u)
/-- The meaning of ROW. -/
def execRow (u : Nat) : State → Host.Outcome State Fault Refusal := onBlk (effRow u)
/-- The meaning of MAC. -/
def execMac (u : Nat) : State → Host.Outcome State Fault Refusal := onBlk (effMac u)
/-- The meaning of RSTAT. -/
def execRstat (u : Nat) : State → Host.Outcome State Fault Refusal := onBlk (effRstat u)
/-- The meaning of EXP. -/
def execExp (u : Nat) : State → Host.Outcome State Fault Refusal := onBlk (effExp u)
/-- The meaning of SCALE. -/
def execScale (u : Nat) : State → Host.Outcome State Fault Refusal := onBlk (effScale u)
/-- The meaning of COMMIT. -/
def execCommit (u : Nat) : State → Host.Outcome State Fault Refusal := onBlk (effCommit u)
/-- The meaning of CSEND. -/
def execCsend (u : Nat) : State → Host.Outcome State Fault Refusal := onBlk (effCsend u)
/-- The meaning of CRECV. -/
def execCrecv (u : Nat) : State → Host.Outcome State Fault Refusal := onBlk (effCrecv u)
/-- The meaning of BSEND. -/
def execBsend (u : Nat) : State → Host.Outcome State Fault Refusal := onBlk (effBsend u)
/-- The meaning of BRECV. -/
def execBrecv (u : Nat) : State → Host.Outcome State Fault Refusal := onBlk (effBrecv u)
/-- The meaning of CHAIN_RENDEZVOUS. -/
def execChainRendezvous (u : Nat) : State → Host.Outcome State Fault Refusal := onBlk (effChainRendezvous u)
/-- The meaning of CHAIN_TIMEOUT. -/
def execChainTimeout (u : Nat) : State → Host.Outcome State Fault Refusal := onBlk (effChainTimeout u)
/-- The meaning of LOOP. -/
def execLoop (u : Nat) : State → Host.Outcome State Fault Refusal := onBlk (effLoop u)
/-- The meaning of ENDL. -/
def execEndl (u : Nat) : State → Host.Outcome State Fault Refusal := onBlk (effEndl u)
/-- The meaning of YIELD. -/
def execYield (u : Nat) : State → Host.Outcome State Fault Refusal := onBlk (effYield u)
/-- The meaning of FENCEC. -/
def execFencec (u : Nat) : State → Host.Outcome State Fault Refusal := onBlk (effFencec u)
/-- The meaning of FIRN_PARK_END. -/
def execFirnParkEnd (u : Nat) : State → Host.Outcome State Fault Refusal := onBlk (effFirnParkEnd u)
/-- The meaning of REFRESH_DUE. -/
def execRefreshDue (u : Nat) (act : Nat) : State → Host.Outcome State Fault Refusal := onBlk (effRefreshDue u act)
/-- The meaning of FIRN_CMD_TIMEOUT. -/
def execFirnCmdTimeout (u : Nat) : State → Host.Outcome State Fault Refusal := onBlk (effFirnCmdTimeout u)
/-- The meaning of FIRN_UNIT_FAIL. -/
def execFirnUnitFail (u : Nat) (cause : Nat) : State → Host.Outcome State Fault Refusal := onBlk (effFirnUnitFail u cause)
/-- The meaning of FIRN_SET_START_DONE. -/
def execFirnSetStartDone (k : Nat) : State → Host.Outcome State Fault Refusal := onBlk (effFirnSetStartDone k)
/-- The meaning of FIRN_SET_STOPPED. -/
def execFirnSetStopped (k : Nat) : State → Host.Outcome State Fault Refusal := onBlk (effFirnSetStopped k)

end Sys2Proof.Machine
end

