-- ==== Sys2Proof/Machine/Floe.lean ====
section
/-! DEFINITION. The matrix engine of a tile: MATMUL and MATMUL_PACKED (R43 to R49, R63, R150 to R163, R172,
R197, R198), and the failure and replacement of a tile (R167 to R170, R475). -/

namespace Sys2Proof.Machine

/-! ### Operands (R59, R163) -/

/-- The number of the 128 × 128 tile that holds (row, k), and the place in it. -/
def MatOp.tileOf (o : MatOp) (r k : Nat) : Nat × Nat := (r / 128 * ceilDiv o.k 128 + k / 128, r % 128 * 128 + k % 128)

/-- The byte where the codes that hold (row, k) start, and the index of the element from there. -/
def MatOp.codePlace (o : MatOp) (r k : Nat) : Nat × Nat :=
  if o.tiled then (o.codes + (o.tileOf r k).1 * 2048 * fmtBits o.fmt, (o.tileOf r k).2) else (o.codes + r * o.pitch, k)

/-- The address of the block scale of (row, k). -/
def MatOp.sclPlace (o : MatOp) (a r k : Nat) : Nat :=
  if o.tiled then a + (o.tileOf r k).1 * 512 + r % 128 * 4 + k % 128 / 32 else a + r * (o.k / 32) + k / 32

/-- The address of the sidecar record of (row, k). -/
def MatOp.sidePlace (o : MatOp) (a r k : Nat) : Nat :=
  if o.tiled then a + (o.tileOf r k).1 * 3072 + (r % 128 * 2 + k % 128 / 64) * 12
  else a + (r * ceilDiv o.k 64 + k / 64) * 12

/-- The code at (row, k). -/
def MatOp.code (o : MatOp) (m : Nat → Byte) (r k : Nat) : Nat :=
  let p := o.codePlace r k
  codeAt (fun i => m (p.1 + i)) o.fmt 0 p.2

/-- The sidecar record at (row, k). -/
def MatOp.record (o : MatOp) (m : Nat → Byte) (r k : Nat) : Option Sidecar :=
  o.side.map fun a => sidecarOf ((List.range 12).map fun i => m (o.sidePlace a r k + i))

/-- An element before the region scale, from its code, block scale and sidecar (R31, R41). -/
def elemOf (fmt : Nat) (book : Word) (scl : Option Byte) (rec : Option Sidecar) (code k : Nat) : Elem :=
  let v := codeValue fmt book code
  let v := match scl with
    | some b => scaled b v
    | none => v
  match rec with
  | some x => exactSum [v, x.at (k % 64)]
  | none => v

/-- The element at (row, k) before the region scale. -/
def MatOp.elem (o : MatOp) (m : Nat → Byte) (r k : Nat) : Elem :=
  elemOf o.fmt o.book (o.scl.map fun a => m (o.sclPlace a r k)) (o.record m r k) (o.code m r k) k

/-- Does the group of (row, k) have a COUNT above 4 (R42)? -/
def MatOp.badSide (o : MatOp) (m : Nat → Byte) (r k : Nat) : Bool := (o.record m r k).any fun x => decide (4 < x.count)

/-- The byte ranges that row `r` of an operand occupies from `k0` on, `n` elements that lie in one stretch of K: codes,
scales, sidecars (address, length). -/
def MatOp.stretch (o : MatOp) (r k0 n : Nat) : List (Nat × Nat) :=
  let p := o.codePlace r k0
  let b := fmtBits o.fmt
  (p.1 + p.2 * b / 8, ceilDiv (n * b) 8) ::
    (o.scl.toList.map fun a => (o.sclPlace a r k0, ceilDiv n 32)) ++
    (o.side.toList.map fun a => (o.sidePlace a r k0, ceilDiv n 64 * 12))

/-- The byte ranges of an operand of `n` rows: whole rows, or the 128 elements of a row that a tile holds. -/
def MatOp.areas (o : MatOp) (n : Nat) : List (Nat × Nat) :=
  (List.range n).flatMap fun r =>
    if o.tiled then (List.range (ceilDiv o.k 128)).flatMap fun q => o.stretch r (128 * q) (min 128 (o.k - 128 * q))
    else o.stretch r 0 o.k

/-! ### The product (R43 to R49) -/

/-- What one accumulation block gives: its FP32 value, whether a special value made it NaN, whether a sidecar
or region scale did. -/
structure BlockOut where
  v : Word
  special : Bool
  bad : Bool

/-- An accumulated block rounded once (R45), or NaN (R42, R49): from its exact sum and whether a sidecar was bad. -/
def Product.rounded (p : Product) (sum : Elem) (bad : Bool) : BlockOut :=
  match sum, regionScale p.a.region, regionScale p.b.region with
  | some s, some ra, some rb => if bad then ⟨fNaN, false, true⟩ else ⟨dyFp32 (s.mul (ra.mul rb)) false, false, false⟩
  | some _, _, _ => ⟨fNaN, false, true⟩
  | none, ra, rb => ⟨fNaN, true, bad || ra.isNone || rb.isNone⟩

/-- The result of the block of K that starts at `k0` for output (i, j). -/
def Product.block (p : Product) (m : Nat → Byte) (i j k0 : Nat) : BlockOut :=
  let ks := (List.range (min p.kblk (p.a.k - k0))).map (k0 + ·)
  p.rounded (exactSum (ks.map fun k => exactMul (p.a.elem m i k) (p.b.elem m j k)))
    (ks.any fun k => p.a.badSide m i k || p.b.badSide m j k)

/-- The blocks of one output in ascending K. -/
def Product.blocks (p : Product) (m : Nat → Byte) (i j : Nat) : List BlockOut :=
  (List.range (ceilDiv p.a.k p.kblk)).map fun t => p.block m i j (t * p.kblk)

/-- The address of output (i, j). -/
def Product.at_ (p : Product) (i j : Nat) : Nat := p.c + i * p.cPitch + 4 * j

/-- The combination of an output's blocks (R46). -/
def combine (old : Option Word) (l : List Word) : Word :=
  match old, l with
  | some x, l => l.foldl fAdd x
  | none, [] => 0
  | none, x :: l => l.foldl fAdd x

/-- T2 codes 0b10 in `n` rows from `r0` on, `len` elements each from `k0` on (R37). A code counts once in a product
command, where it is streamed first and where its block is loaded first: DESIGN CHOICE (log entry 158). -/
def MatOp.badCodes (o : MatOp) (m : Nat → Byte) (r0 n k0 len : Nat) : Nat :=
  ((List.range n).map fun r => ((List.range len).filter fun k => badCode o.fmt (o.code m (r0 + r) (k0 + k))).length).sum

/-- Does a row of an operand carry a mark in `len` elements from `k0` on (R172)? -/
def MatOp.marked (o : MatOp) (mem : Store) (r k0 len : Nat) : Bool :=
  (List.range (ceilDiv len 32)).any fun q => (o.stretch r (k0 + 32 * q) 32).any fun a => mem.marked a.1 a.2

/-! ### Shapes and waves (R155 to R157, R162) -/

/-- L of a format pair (R63). -/
def macRate (a b : Nat) : Nat :=
  if a = 6 ∨ b = 6 then 1
  else if a = 3 ∨ b = 3 then 8
  else if (a = 4 ∨ a = 5) ∧ (b = 4 ∨ b = 5) then 2 else 4

/-- Is the pair present in R63? -/
def pairOk (a b : Nat) : Bool := decide (1 ≤ a ∧ a ≤ 6 ∧ 1 ≤ b ∧ b ≤ 6)

/-- KC of a shape; AUTO takes the least that covers the longest block (R156). -/
def shapeKc (shape l longest : Nat) : Nat :=
  if shape = 1 then 128 else if shape = 2 then 64 else if shape = 3 then 32 else if shape = 4 then 256
  else if shape = 5 then 512
  else ([32, 64, 128, 256, 512].find? fun kc => decide (longest ≤ kc * l)).getD 512

/-- The shape of a KC. -/
def kcShape (kc : Nat) : Nat := if kc = 128 then 1 else if kc = 64 then 2 else if kc = 32 then 3 else if kc = 256 then 4 else 5

/-- A piece of K that one pass takes: where it starts, its length, whether it ends its block (R157). -/
structure Piece where
  k0 : Nat
  len : Nat
  ends : Bool
  deriving DecidableEq, Repr

/-- K cut at the block boundaries and at every multiple of `kp` in a block (R157). -/
def Product.pieces (p : Product) (kp : Nat) : List Piece :=
  (List.range (ceilDiv p.a.k p.kblk)).flatMap fun t =>
    let n := min p.kblk (p.a.k - t * p.kblk)
    (List.range (ceilDiv n kp)).map fun u =>
      { k0 := t * p.kblk + u * kp, len := min kp (n - u * kp), ends := decide (n ≤ (u + 1) * kp) }

/-- A pass: its first column and row, its piece of K, whether it loads a block, the number of its accumulation block among
those of the command. -/
structure Pass where
  n0 : Nat
  m0 : Nat
  piece : Piece
  load : Bool
  blk : Nat
  deriving DecidableEq, Repr

/-- The passes of a product in the order of R157: `kp` is K per pass, `nc` the columns and `mc` the rows of a pass. -/
def Product.passes (p : Product) (kp nc mc : Nat) : List Pass :=
  let ps := p.pieces kp
  let mh := ceilDiv p.m mc
  (List.range (ceilDiv p.n nc)).flatMap fun g => (List.range mh).flatMap fun h => ps.map fun x =>
    { n0 := g * nc, m0 := h * mc, piece := x, load := decide (ps.length ≠ 1 ∨ h = 0),
      blk := (g * mh + h) * ceilDiv p.a.k p.kblk + x.k0 / p.kblk }

/-- Time the array waited, which the manual does not fix: open amounts. -/
def Block.floeWaits (s : Block) (t : Nat) : Block :=
  let (a, s) := s.choose (2 ^ 32)
  let (b, s) := s.choose (2 ^ 32)
  let (c, s) := s.choose (2 ^ 32)
  ((s.bump (FLOE_LOAD_WAIT_NS t) a).bump (FLOE_DRAIN_WAIT_NS t) b).bump (FLOE_BANK_WAIT_NS t) c

/-- Operands that run at half rate (R162): a start, and a pitch where the operand has one. -/
def Product.slow (p : Product) : List Nat :=
  let at2 (a b : Nat) := if a % 128 = 0 ∧ b % 128 = 0 then 0 else 1
  [at2 p.a.codes p.a.pitch, at2 p.b.codes 0, at2 p.c p.cPitch] ++
  (p.a.scl.toList.map (at2 · 0)) ++ (p.b.scl.toList.map (at2 · 0))

/-! ### Passes (R150 to R157, R172) -/

/-- NC of a run: 16,384 outputs a pass, or the region of a packed problem (R155, R159). -/
def ProductRun.nc (r : ProductRun) : Nat := if r.packed then r.kc else 16384 / r.kc

/-- The passes of one problem of a run. -/
def ProductRun.passesOf (r : ProductRun) (p : Product) : List Pass :=
  p.passes (r.kc * macRate p.a.fmt p.b.fmt) r.nc r.kc

/-- The passes of a run: packed problems advance in lockstep (R159). -/
def ProductRun.total (r : ProductRun) : Nat := (r.problems.map fun e => (r.passesOf e.2).length).foldl max 0

/-- What the next pass works on: each problem that has one, with its region and its pass. -/
def ProductRun.now (r : ProductRun) : List (Nat × Product × Pass) :=
  r.problems.filterMap fun e => ((r.passesOf e.2)[r.next]?).map fun x => (e.1, e.2, x)

/-- Rows and columns of a pass. -/
def ProductRun.size (r : ProductRun) (p : Product) (x : Pass) : Nat × Nat := (min r.kc (p.m - x.m0), min r.nc (p.n - x.n0))

/-- Waves per streamed row (R155), twice as many when A runs at half rate (R162). -/
def ProductRun.rowWaves (r : ProductRun) : Nat :=
  match r.problems with
  | [] => 0
  | (_, q) :: _ =>
    let row := ceilDiv (r.kc * macRate q.a.fmt q.b.fmt * fmtBits q.a.fmt) 8
    ceilDiv ((if r.packed then (128 / r.kc) ^ 2 else 1) * row) 1024 *
      (if r.problems.all fun e => decide (e.2.a.codes % 128 = 0 ∧ e.2.a.pitch % 128 = 0) then 1 else 2)

/-- The block of B that a background load brings (R151): its codes, and what travels with them. -/
def MatOp.load (o : MatOp) (m : Nat → Byte) (n0 cols : Nat) (x : Piece) : StatBlock :=
  let col {α : Type} (f : Nat → α) : List α := (List.range cols).map fun n => f (n0 + n)
  { codes := col fun n => (List.range x.len).map fun k => o.code m n (x.k0 + k),
    scales := col fun n => o.scl.toList.flatMap fun a => (List.range (x.len / 32)).map fun q => m (o.sclPlace a n (x.k0 + 32 * q)),
    sides := col fun n => (List.range ((x.k0 + x.len - 1) / 64 - x.k0 / 64 + 1)).flatMap fun q =>
      (o.record m n (x.k0 / 64 * 64 + 64 * q)).toList }

/-- Element `k` of column `n` of a loaded block. -/
def StatBlock.elem (b : StatBlock) (o : MatOp) (x : Piece) (n k : Nat) : Elem :=
  elemOf o.fmt o.book (o.scl.map fun _ => (b.scales.getD n []).getD (k / 32) 0x7F)
    ((b.sides.getD n [])[(x.k0 + k) / 64 - x.k0 / 64]?) ((b.codes.getD n []).getD k 0) (x.k0 + k)

/-- Does the group of element `k` of column `n` have a COUNT above 4? -/
def StatBlock.badSide (b : StatBlock) (x : Piece) (n k : Nat) : Bool :=
  ((b.sides.getD n [])[(x.k0 + k) / 64 - x.k0 / 64]?).any fun y => decide (4 < y.count)

/-- The 64 bits of a cell of the array (R150, R155): shapes below 128 rows put column 128j + i in band j, shapes above it
put the parts of K in column groups. Codes lie from the low bits up (log entry 159). -/
def StatBlock.cell (b : StatBlock) (fmt l kc row col : Nat) : Nat :=
  let w := if kc ≤ 128 then 128 else 16384 / kc
  let n := if kc ≤ 128 then row / kc * 128 + col else col % w
  let k := (if kc ≤ 128 then row % kc else col / w * 128 + row) * l
  ((List.range l).map fun i => (b.codes.getD n []).getD (k + i) 0 * 2 ^ (fmtBits fmt * i)).sum

/-- An accumulator at the start of its block. -/
def Acc.zero : Acc := { sum := some Dy.zero, bad := false }

/-- A product of two elements added into an accumulator. -/
def Acc.add (a : Acc) (v : Elem) (bad : Bool) : Acc := { sum := exactAdd a.sum v, bad := a.bad || bad }

/-- The accumulators of a half. -/
def MatArray.accs (a : MatArray) (h : Nat) : Tbl (List (List Acc)) := if h % 2 = 0 then a.half0 else a.half1

/-- A half changed. -/
def MatArray.setAccs (a : MatArray) (h : Nat) (t : Tbl (List (List Acc))) : MatArray :=
  if h % 2 = 0 then { a with half0 := t } else { a with half1 := t }

/-- The rows of a pass streamed: every output of the pass gains the products of its piece of K (R154). -/
def streamed (p : Product) (m : Nat → Byte) (b : StatBlock) (x : Pass) (size : Nat × Nat) (old : List (List Acc)) : List (List Acc) :=
  (List.range size.1).map fun r => (List.range size.2).map fun c =>
    let a := if x.piece.k0 % p.kblk = 0 then Acc.zero else (old.getD r []).getD c Acc.zero
    (List.range x.piece.len).foldl (fun a k =>
      a.add (exactMul (p.a.elem m (x.m0 + r) (x.piece.k0 + k)) (b.elem p.b x.piece c k))
        (p.a.badSide m (x.m0 + r) (x.piece.k0 + k) || b.badSide x.piece c k)) a

/-- Does the next pass of a run meet a mark: in the block that it loads, or in the rows that it streams (R172)? -/
def ProductRun.meetsMark (r : ProductRun) (mem : Store) : Bool :=
  r.now.any fun e =>
    let x := e.2.2
    let z := r.size e.2.1 x
    (x.load && (List.range z.2).any fun n => e.2.1.b.marked mem (x.n0 + n) x.piece.k0 x.piece.len) ||
    (List.range z.1).any fun m => e.2.1.a.marked mem (x.m0 + m) x.piece.k0 x.piece.len

/-- The array of a tile changed. -/
def Block.modArr (s : Block) (t : Nat) (f : MatArray → MatArray) : Block := s.modTile t fun x => { x with arr := f x.arr }

/-- One output drained into C (R45, R46, R154), with the counters of R57: a bad sidecar or region scale counts once for the
block result of each output, DESIGN CHOICE (log entry 160). -/
def Block.drainOut (s : Block) (t : Nat) (p : Product) (x : Pass) (r c : Nat) (a : Acc) : Block :=
  let o := p.rounded a.sum a.bad
  let d := p.at_ (x.m0 + r) (x.n0 + c)
  let v := if p.acc ∨ p.kblk ≤ x.piece.k0 then fAdd (s.tmWord t d) o.v else o.v
  let s := s.tmWrite t d (leBytes 4 v.toNat)
  let s := if o.special then s.bump (NUM_CNT t 3) 1 else s
  if o.bad then s.bump (NUM_CNT t 4) 1 else s

/-- A half drained for one problem: the entries that its block filled, when they reach C, and the half empty. -/
def Block.drain (s : Block) (t : Nat) (write : Bool) (h i : Nat) (p : Product) (x : Pass) : Block :=
  let rows := tget [] ((s.tile t).arr.accs h) i
  let s := s.modArr t fun a => a.setAccs h (tset [] (a.accs h) i [])
  if write then
    s.each rows.zipIdx fun s row => s.each row.1.zipIdx fun s e => s.drainOut t p x row.2 e.2 e.1
  else s

/-- One problem's pass: its rows meet the active registers, and a pass that ends a block drains. -/
def Block.passOf (s : Block) (t : Nat) (write : Bool) (r : ProductRun) (e : Nat × Product × Pass) : Block :=
  let p := e.2.1
  let x := e.2.2
  let z := r.size p x
  let T := s.tile t
  let m := memByte T.mem.cells
  let h := T.arr.half + x.blk
  let b := tget { codes := [], scales := [], sides := [] } T.arr.active e.1
  let s := s.modArr t fun a => a.setAccs h (kput (a.accs h) e.1 (streamed p m b x z (tget [] (a.accs h) e.1)))
  let s := if x.n0 = 0 then s.bump (NUM_CNT t 4) (p.a.badCodes m x.m0 z.1 x.piece.k0 x.piece.len) else s
  let s := if x.load ∧ x.m0 = 0 then s.bump (NUM_CNT t 4) (p.b.badCodes m x.n0 z.2 x.piece.k0 x.piece.len) else s
  if x.piece.ends then s.drain t write h e.1 p x else s

/-- The next pass of the run of a tile: a load of the background registers and a swap when the block changes, the rows, the
drains. -/
def Block.runPass (s : Block) (t : Nat) (write : Bool) : Block :=
  match (s.tile t).arr.run with
  | none => s
  | some r =>
    let now := r.now
    let m := memByte (s.tile t).mem.cells
    let s := if now.any fun e => e.2.2.load then
        (s.modArr t fun a =>
          { a with active := now.map fun e => (e.1, e.2.1.b.load m e.2.2.n0 (r.size e.2.1 e.2.2).2 e.2.2.piece),
                   background := a.active }).bump (FLOE_CNT_SWAP t) 1
      else s
    let rows := (now.map fun e => (r.size e.2.1 e.2.2).1).foldl max 0
    let s := s.bumpPair (FLOE_CNT_ROWW_LO t) (rows * r.rowWaves)
    (s.each now fun s e => s.passOf t write r e).modArr t fun a => { a with run := some { r with next := r.next + 1 } }

/-- Up to `n` passes of the run of a tile, none from the first that meets a mark on; the drains of the first `w` of them
reach C. -/
def Block.runPasses (t : Nat) : Nat → Nat → Block → Block
  | 0, _, s => s
  | n + 1, w, s =>
    match (s.tile t).arr.run with
    | none => s
    | some r =>
      if r.total ≤ r.next ∨ r.meetsMark (s.tile t).mem then s
      else (s.runPass t (decide (0 < w))).runPasses t n (w - 1)

/-- A product command starts: as many of its passes as have run by the time anything else is seen, an open number. -/
def Block.beginRun (s : Block) (t : Nat) (r : ProductRun) : Block :=
  let (n, s) := (s.modArr t fun a => { a with run := some r }).choose (r.total + 1)
  s.runPasses t n n

/-- The end of a run: the next command's blocks go on with the other half. -/
def Block.endRun (s : Block) (t : Nat) (r : ProductRun) : Block :=
  let n := (r.problems.map fun e => ((r.passesOf e.2).getLast?.map fun x => x.blk + 1).getD 0).foldl max 0
  s.modArr t fun a => { a with run := none, half := (a.half + n) % 2 }

/-- A run that meets a mark (R172): an open number of the drains before it has reached C, the others are discarded. -/
def Block.poisonRun (s : Block) (t : Nat) (done : Nat) : Block :=
  let (w, s) := s.choose (done + 1)
  (s.runPasses t done w).modArr t fun a => { a with half0 := [], half1 := [], run := none }

/-- A product command completes: the passes that are left. -/
def engProductEnd (x : EngCtx) (s : Block) : Eng :=
  let t := x.tile
  match (s.tile t).arr.run with
  | none => (OK, s)
  | some r =>
    let left := r.total - r.next
    let u := s.runPasses t left left
    match (u.tile t).arr.run with
    | none => (OK, u)
    | some y =>
      if r.total ≤ y.next then (OK, u.endRun t r)
      else (POISONED 3, (s.poisonRun t (y.next - r.next)).consumed 0 t 0 0)

/-! ### Checks -/

/-- BAD_SHAPE (R158, R173). -/
def badShape : Nat := REFUSED 0x71

/-- The byte ranges of C, row by row. -/
def Product.outs (p : Product) : List (Nat × Nat) := (List.range p.m).map fun i => (p.at_ i 0, 4 * p.n)

/-- Every area of a product lies in the job's regions (R197 check 6). -/
def Block.productFits (s : Block) (x : EngCtx) (p : Product) : Bool :=
  (p.a.areas p.m ++ p.b.areas p.n ++ p.outs).all fun r => s.tmOk x.tile x.routine r.1 r.2

/-- Does C share a byte with A, B or their scales (R163)? -/
def Product.overlaps (p : Product) : Bool :=
  (p.a.areas p.m ++ p.b.areas p.n).any fun r => p.outs.any fun c => decide (c.1 < r.1 + r.2 ∧ r.1 < c.1 + c.2)

/-- An operand named through a header (R59). -/
def Block.headerOp (s : Block) (t h pitch k : Nat) (tiled : Bool) : MatOp :=
  let w (i : Nat) := s.tmWord t (h + 4 * i)
  let fmt := (w 0).fld 7 0
  { fmt := fmt, codes := h + 32, pitch := pitch, scl := if (w 0).bit 8 then some (h + (w 2).toNat) else none,
    side := if (w 0).bit 9 then some (h + (w 3).toNat) else none, region := (w 4).fld 15 0, book := w 5,
    tiled := tiled, k := k }

/-- An operand named by its format alone: its scales as R197 gives them. -/
def plainOp (fmt codes scl pitch k : Nat) (fp8s : Bool) (book : Word) (tiled : Bool) : MatOp :=
  { fmt := fmt, codes := codes, pitch := pitch,
    scl := if fmtNarrow fmt || (fmtFp8 fmt && fp8s) then some scl else none, side := none, region := 0x3F80,
    book := book, tiled := tiled, k := k }

/-- A row pitch field in 128 B units; 0 is the row's own length rounded up to 32 B (R197). -/
def pitchOf (field bytes : Nat) : Nat := if field = 0 then roundUp bytes 32 else field * 128

/-- Does a product consume a mark? -/
def Product.poisoned (p : Product) (mem : Store) : Bool :=
  ((List.range p.m).any fun r => p.a.marked mem r 0 p.a.k) || (List.range p.n).any fun r => p.b.marked mem r 0 p.b.k

/-- A product command accepted: its shape, its waits, its operands at half rate (R162), and its run begun. -/
def Block.startRun (s : Block) (t shape : Nat) (r : ProductRun) : Block :=
  let s := (s.wf (FLOE_STATE t) 12 10 shape).floeWaits t
  let slow := (r.problems.map fun e => e.2.slow.sum).sum
  (if slow = 0 then s else s.bump (FLOE_CNT_MISALIGN t) slow).beginRun t r

/-- MATMUL: the checks of R197 from the second on, in its order; the first is made at issue. -/
def engMatmul (x : EngCtx) (s : Block) : Eng :=
  let k := x.cmd
  let t := x.tile
  let ha := k.b 3 22
  let hb := k.b 3 23
  let shape := k.f 7 29 27
  let kblkF := k.f 7 26 19
  let aAddr := k.f 1 21 0
  let bAddr := k.f 2 21 0
  let m := k.f 6 16 0
  let n := k.f 6 29 17
  let kk := k.f 7 18 0
  if s.tileState t = 5 then (NOT_READY 0x74, s)
  else if (ha ∧ !s.tmOk t x.routine aAddr 32) ∨ (hb ∧ !s.tmOk t x.routine bAddr 32) then (tmRange, s)
  else
    let hdrBad := (ha && (s.tile t).mem.marked aAddr 32) || (hb && (s.tile t).mem.marked bAddr 32)
    let fa := if ha then (s.tmWord t aAddr).fld 7 0 else k.f 1 29 22
    let fb := if hb then (s.tmWord t bAddr).fld 7 0 else k.f 2 29 22
    let ap := pitchOf (k.f 4 31 22) (ceilDiv (kk * fmtBits fa) 8)
    let a := if ha then s.headerOp t aAddr ap kk false else plainOp fa aAddr (k.f 4 21 0) ap kk (k.b 3 24) 0 false
    let b := if hb then s.headerOp t bAddr 0 kk true else plainOp fb bAddr (k.f 5 21 0) 0 kk (k.b 3 25) 0 true
    let p : Product :=
      { a := a, b := b, c := k.f 3 21 0, cPitch := pitchOf (k.f 5 31 22) (4 * n), m := m, n := n,
        kblk := if kblkF = 0 then 4096 else kblkF * 32, acc := k.b 6 30 }
    if hdrBad then (POISONED 3, s.consumed 0 t 0 0)
    else if !pairOk fa fb then (UNSUPPORTED 0, s)
    else if 65536 < m ∨ n < 1 ∨ 4096 < n ∨ kk < 32 ∨ 262144 < kk ∨ kk % 32 ≠ 0 then (badShape, s)
    else if m = 0 then (OK, s)
    else if !s.productFits x p then (tmRange, s)
    else if p.overlaps then (REFUSED 0x75, s)
    else
      let kc := shapeKc shape (macRate fa fb) (min p.kblk kk)
      (OK, s.startRun t (kcShape kc) { problems := [(0, p)], kc := kc, packed := false, next := 0 })

/-! ### MATMUL_PACKED (R159, R198) -/

/-- A problem of a packed command, from its 32-byte descriptor. -/
def packedProblem (k : Cmd) (d : List Word) : Product :=
  let w (i : Nat) := d.getD i 0
  let fa := k.f 2 7 0
  let fb := k.f 2 15 8
  let kk := (w 6).fld 18 0
  { a := plainOp fa ((w 0).fld 21 0) ((w 3).fld 21 0) ((w 7).fld 15 0 * 32) kk (k.b 3 9) k.w4 false,
    b := plainOp fb ((w 1).fld 21 0) ((w 4).fld 21 0) 0 kk (k.b 3 10) k.w5 true,
    c := (w 2).fld 21 0, cPitch := (w 7).fld 31 16 * 32, m := (w 5).fld 16 0, n := (w 5).fld 23 17,
    kblk := if k.f 3 7 0 = 0 then 4096 else k.f 3 7 0 * 32, acc := k.b 3 8 }

/-- Is a descriptor in range (R159)? -/
def Product.packedOk (p : Product) (side : Nat) : Bool :=
  decide (p.m ≤ 65536 ∧ 1 ≤ p.n ∧ p.n ≤ side ∧ 32 ≤ p.a.k ∧ p.a.k ≤ 262144 ∧ p.a.k % 32 = 0)

/-- MATMUL_PACKED. -/
def engMatmulPacked (x : EngCtx) (s : Block) : Eng :=
  let k := x.cmd
  let t := x.tile
  let table := k.f 1 21 0
  let count := if k.b 2 16 then 16 else 4
  let side := if k.b 2 16 then 32 else 64
  if s.tileState t = 5 then (NOT_READY 0x74, s)
  else if !pairOk (k.f 2 7 0) (k.f 2 15 8) then (UNSUPPORTED 0, s)
  else if !s.tmOk t x.routine table (32 * count) then (tmRange, s)
  else
    let all := (List.range count).map fun i =>
      packedProblem k ((List.range 8).map fun w => s.tmWord t (table + 32 * i + 4 * w))
    if (s.tile t).mem.marked table (32 * count) then (POISONED 3, s.consumed 0 t 0 0)
    else if !all.all fun p => p.packedOk side then (REFUSED 0x72, s)
    else
      let ps := all.zipIdx.filter fun e => decide (e.1.m ≠ 0)
      if !ps.all fun e => s.productFits x e.1 then (tmRange, s)
      else if ps.any fun e => e.1.overlaps then (REFUSED 0x75, s)
      else (OK, s.startRun t (if side = 32 then 7 else 6)
        { problems := ps.map fun e => (e.2, e.1), kc := side, packed := true, next := 0 })

/-! ### A failed tile (R168, R169, R475) -/

/-- May a tile fail: it is there and not already being replaced? -/
def tileFaultReady (t : Nat) (s : Block) : Bool := decide (t < 256) && s.tileState t != 0 && s.tileState t != 5

/-- TILE_FAULT, steps 1 and 2 of R168: the tile is REMAPPING and the cluster's job ends. -/
def tileFaultEffect (t cause : Nat) (s : Block) : Block :=
  let s := s.wf (FLOE_STATE t) 2 0 5
  let s := { s with err := { s.err with tileCause := kput s.err.tileCause t cause } }
  match (s.cl (t / 8)).job with
  | some j => s.endJob j (ABORTED 0x73)
  | none => s

/-- TILE_FAULT. -/
def effTileFault (t cause : Nat) (s : Block) : Block := if tileFaultReady t s then tileFaultEffect t cause s else s

/-- The lowest spare of a die that is neither in use nor failed. -/
def Block.freeSpare (s : Block) (d : Nat) : Option Nat :=
  (List.range 4).find? fun k => !s.bit (SRC_SPARE d k) 8 && !s.bit (SRC_SPARE d k) 9

/-- The physical tile behind a tile ID is retired. -/
def Block.retirePhys (s : Block) (d phys : Nat) : Block :=
  if phys < 64 then
    let a := SRC_TILE_RETIRED_LO d + 4 * (phys / 32)
    s.wb a (phys % 32) true
  else (s.wb (SRC_SPARE d (phys - 64)) 8 false).wb (SRC_SPARE d (phys - 64)) 9 true

/-- A cluster leaves service (R169), once: its queue slots leave their pool, saved jobs that need it end. -/
def Block.clusterOut (s : Block) (c : Nat) : Block :=
  if s.bit (SRC_CLUSTER_OOS (c / 8)) (c % 8) then s else
  let s := s.wb (SRC_CLUSTER_OOS (c / 8)) (c % 8) true
  let s := s.modCl c fun k => { k with state := .outOfService }
  let s := s.ledShrink (0x80 + c) 1536
  s.each ((s.jobs.filter fun e => e.2.state == .saved && e.2.clusters.contains c).map (·.1)) fun s j =>
    s.endJob j (ABORTED 0xD3)

/-- Is the replacement of a tile under way and its cluster free of work? -/
def tileRemapReady (t : Nat) (s : Block) : Bool :=
  decide (t < 256) && s.tileState t == 5 && (s.cl (t / 8)).job.isNone

/-- TILE_REMAP_DONE, steps 3 to 6 of R168: a spare takes the tile's place, or the cluster leaves service. -/
def tileRemapEffect (t : Nat) (s : Block) : Block :=
  let d := t / 64
  let phys := s.fld (FLOE_ID t) 14 8
  let cause := tget 0 s.err.tileCause t
  let s := s.retirePhys d phys
  let s := { s with err := { s.err with tileCause := kdel s.err.tileCause t } }
  let s := s.modTile t fun _ => Tile.reset
  match s.freeSpare d with
  | some k =>
    let s := (s.wf (SRC_SPARE d k) 7 0 t).wb (SRC_SPARE d k) 8 true
    let s := (s.wf (FLOE_ID t) 14 8 (64 + k)).wb (FLOE_ID t) 15 true
    let s := s.wf (FLOE_EPOCH t) 15 0 (nextEpoch (s.fld (FLOE_EPOCH t) 15 0))
    (s.wf (FLOE_STATE t) 2 0 2).event srcHealth 0x0504 [w32 d, w32 phys, w32 cause, w32 (64 + k)]
  | none =>
    let s := (s.wf (FLOE_STATE t) 2 0 0).event srcHealth 0x0504 [w32 d, w32 phys, w32 cause, 0xFFFFFFFF]
    s.clusterOut (t / 8)

/-- TILE_REMAP_DONE. -/
def effTileRemapDone (t : Nat) (s : Block) : Block := if tileRemapReady t s then tileRemapEffect t s else s

/-! ### Meanings -/

/-- The meaning of TILE_FAULT. -/
def execTileFault (t : Nat) (cause : Nat) : State → Host.Outcome State Fault Refusal := onBlk (effTileFault t cause)
/-- The meaning of TILE_REMAP_DONE. -/
def execTileRemapDone (t : Nat) : State → Host.Outcome State Fault Refusal := onBlk (effTileRemapDone t)

end Sys2Proof.Machine
end

