-- ==== Sys2Proof/Machine/Vector.lean ====
section
/-! DEFINITION. The vector unit of a tile: VEC, VRED and QUANT (R48, R51 to R61, R164, R165, R199, R468). Each
effect answers the status with which the command completes. -/

namespace Sys2Proof.Machine

/-! ### Values of one lane (R48, R164) -/

/-- An exact finite result in FP32, or in BF16 rounded once. -/
def vFin (bf : Bool) (d : Dy) (z : Bool) : Word :=
  if bf then (if d.m = 0 then fZero z else w32 (fpBF16.round (decide (d.m < 0)) d.abs * 65536)) else dyFp32 d z

/-- Addition. -/
def vAdd (bf : Bool) (a b : Word) : Word := if bf then bfAdd a b else fAdd a b

/-- Multiplication. -/
def vMul (bf : Bool) (a b : Word) : Word :=
  match fpUnpack a, fpUnpack b with
  | .fin n x, .fin m y => vFin bf ((signed n x).mul (signed m y)) (n != m)
  | _, _ => fMul a b

/-- Fused multiply-add. -/
def vFma (bf : Bool) (a b c : Word) : Word :=
  match fpUnpack a, fpUnpack b, fpUnpack c with
  | .fin n x, .fin m y, .fin k z =>
    vFin bf ((signed (n != m) (x.mul y)).add (signed k z)) (if x.m = 0 ∨ y.m = 0 then (n != m) && k else false)
  | _, _, _ => fFma a b c

/-- A value in its format: a BF16 value occupies [31:16]. -/
def vIn (bf : Bool) (w : Word) : Word := if bf && decide (w.toNat % 65536 ≠ 0) then fBf16 w else w

/-- 1.0 or 0.0 (R199). -/
def vBool (b : Bool) : Word := if b then 0x3F800000 else 0

/-- An INT32 sum. The manual states none outside the range of the format: an open value `r` (log entry 11). -/
def intSum (i : Int) (r : Nat) : Word := if -(2 ^ 31 : Int) ≤ i ∧ i < 2 ^ 31 then wOfInt i else w32 r

/-- The signed reading of a word. -/
def sInt (w : Word) : Int := signExt 32 w.toNat

/-- A sub-operation of VEC on one element in FP32 or BF16. -/
def vecFloat (bf : Bool) (op : Nat) (a b c : Word) : Word :=
  if op = 0x01 then vAdd bf a b
  else if op = 0x02 then vAdd bf a (fNeg b)
  else if op = 0x03 then vMul bf a b
  else if op = 0x04 then vFma bf a b c
  else if op = 0x05 then fMinMax false a b
  else if op = 0x06 then fMinMax true a b
  else if op = 0x07 then vBool (fLt a b)
  else if op = 0x08 then vBool (fEq a b)
  else if op = 0x09 then (if fEq c 0 then b else a)
  else if op = 0x10 then vIn bf (fExp a)
  else if op = 0x11 then vIn bf (fLog a)
  else if op = 0x12 then vIn bf (fRcp a)
  else if op = 0x13 then vIn bf (fRsqrt a)
  else a

/-- A sub-operation of VEC on one element in INT32. -/
def vecInt (op : Nat) (a b : Word) (r : Nat) : Word :=
  if op = 0x01 then intSum (sInt a + sInt b) r
  else if op = 0x02 then intSum (sInt a - sInt b) r
  else if op = 0x05 then (if sInt a ≤ sInt b then a else b)
  else if op = 0x06 then (if sInt a ≤ sInt b then b else a)
  else if op = 0x07 then vBool (decide (sInt a < sInt b))
  else if op = 0x08 then vBool (a == b)
  else a

/-- A conversion to INT32. An integer in range converts to itself. The manual gives no rounding and no result
outside the range: a fraction goes to one of its neighbours and any other value is open (log entry 11). -/
def cvtInt (a : Word) (r : Nat) : Word :=
  match fpUnpack a with
  | .fin n x =>
    let d := signed n x
    let lo := d.floorAt 0
    let i := if (Dy.mk lo 0).lt d then lo + (r % 2 : Nat) else lo
    intSum i r
  | _ => w32 r

/-- A conversion to FP8 without scales: R56 under SAT, and the canonical NaN for a special value (R51). -/
def cvtFp8 (fmt : Nat) (sat : Bool) (a : Word) : Nat :=
  match fpUnpack a with
  | .fin n x => (fpOf fmt).encode sat none x + b2n n * 128
  | _ => 0x7F

/-- A conversion of one element to a format, as the lane or the low bytes that hold it. -/
def cvtTo (dfmt : Nat) (sat : Bool) (a : Word) (r : Nat) : Word :=
  if dfmt = 6 then fBf16Sat sat a
  else if dfmt = 9 then cvtInt a r
  else if dfmt = 4 ∨ dfmt = 5 then w32 (cvtFp8 dfmt sat a)
  else a

/-! ### Operands of VEC (R199) -/

/-- Bytes of an element in tile memory. -/
def vecBytes (fmt : Nat) : Nat := if fmt = 6 then 2 else if fmt = 4 ∨ fmt = 5 then 1 else 4

/-- Is an operand field an address of tile memory? -/
def vecMem (w : Word) : Bool := !w.bit 23 && !w.bit 22

/-- The register and lane of an element, as a key of the vector registers. -/
def vecLane (w : Word) (e : Nat) : Nat := w.fld 4 0 * 256 + e % 256

/-- Element `e` of a source operand. -/
def vecSrc (t : Tile) (w imm : Word) (fmt e : Nat) : Word :=
  if w.bit 23 then vIn (fmt == 6) imm
  else if w.bit 22 then
    let v := tget 0 t.vregs (vecLane w e)
    if fmt = 6 then w32 (v.toNat / 65536 * 65536) else v
  else if fmt = 6 then w32 (leNat (t.mem.read (w.fld 21 0 + 2 * e) 2) * 65536)
  else t.mem.word (w.fld 21 0 + 4 * e)

/-- Element `e` of the destination set. An FP8 code in a lane has no stated place: the lane is open. -/
def vecDst (t : Tile) (w : Word) (fmt e : Nat) (v : Word) (r : Nat) : Tile :=
  if w.bit 22 then
    { t with vregs := tset 0 t.vregs (vecLane w e) (if fmt = 4 ∨ fmt = 5 then w32 r else v) }
  else
    let z := vecBytes fmt
    let x := if fmt = 6 then v.toNat / 65536 else v.toNat
    { t with mem := t.mem.put (w.fld 21 0 + z * e) (leBytes z x) }

/-- The sources that a sub-operation reads. -/
def vecSources (k : Cmd) : List Word :=
  let op := k.f 1 7 0
  if op = 0x04 ∨ op = 0x09 then [k.w2, k.w3, k.w4]
  else if 0x01 ≤ op ∧ op ≤ 0x08 then [k.w2, k.w3] else [k.w2]

/-- The format of the destination. -/
def vecDfmt (k : Cmd) : Nat := if k.f 1 7 0 = 0x18 then k.f 1 23 16 else k.f 1 15 8

/-- The result of one element of a VEC. -/
def vecValue (k : Cmd) (sat : Bool) (r : Nat) (t : Tile) (e : Nat) : Word :=
  let op := k.f 1 7 0
  let fmt := k.f 1 15 8
  let a := vecSrc t k.w2 k.w7 fmt e
  let b := if 1 < (vecSources k).length then vecSrc t k.w3 k.w7 fmt e else 0
  let c := if 2 < (vecSources k).length then vecSrc t k.w4 k.w7 fmt e else 0
  if op = 0x18 then cvtTo (k.f 1 23 16) sat a r
  else if fmt = 9 then vecInt op a b r else vecFloat (fmt == 6) op a b c

/-- The group of `n` elements from `e0`: all its sources are read before its results are written. -/
def vecGroup (k : Cmd) (sat : Bool) (base : Nat) (t : Tile) (e0 n : Nat) : Tile :=
  loop n (fun i d =>
    let r := Config.free (base + e0 + i)
    vecDst d k.w5 (vecDfmt k) (e0 + i) (vecValue k sat r t (e0 + i)) r) t

/-- Blocks of 32 elements of a group that hold a special value and convert to a floating-point format (R51). -/
def cvtNans (k : Cmd) (t : Tile) (e0 n : Nat) : Nat :=
  if k.f 1 7 0 ≠ 0x18 ∨ k.f 1 23 16 = 9 then 0 else
  ((List.range (ceilDiv n 32)).filter fun b => (List.range (min 32 (n - 32 * b))).any fun i =>
    match fpUnpack (vecSrc t k.w2 k.w7 (k.f 1 15 8) (e0 + 32 * b + i)) with | .fin _ _ => false | _ => true).length

/-- The marks of a tile that a command's tile-memory sources touch. -/
def Block.vecPoisoned (s : Block) (t : Nat) (areas : List (Nat × Nat)) : Bool :=
  areas.any fun r => (s.tile t).mem.marked r.1 r.2

/-- A vector command that consumes a mark: nothing of it is written (R468). -/
def Block.vectorPoison (s : Block) (t : Nat) : Eng :=
  (POISONED 3, s.consumed 1 t 0 0)

/-- VEC. -/
def engVec (x : EngCtx) (s : Block) : Eng :=
  let k := x.cmd
  let t := x.tile
  let n := k.f 6 23 0
  let srcs := ((vecSources k).filter vecMem).map fun w => (w.fld 21 0, n * vecBytes (k.f 1 15 8))
  let dst := if vecMem k.w5 then [(k.w5.fld 21 0, n * vecBytes (vecDfmt k))] else []
  if s.tileState t = 5 then (NOT_READY 0x74, s)
  else if n = 0 then (OK, s)
  else if !(srcs ++ dst).all fun r => s.tmOk t x.routine r.1 r.2 then (tmRange, s)
  else if s.vecPoisoned t srcs then s.vectorPoison t
  else
    let s := s.misaligned t ((srcs ++ dst).map (·.1))
    let base := s.freeCtr
    let sat := s.bit (NUM_CTRL t) 19
    let step (g : Nat) (d : Tile × Nat) : Tile × Nat :=
      let m := min 256 (n - 256 * g)
      (vecGroup k sat base d.1 (256 * g) m, d.2 + cvtNans k d.1 (256 * g) m)
    let r := loop (ceilDiv n 256) step (s.tile t, 0)
    (OK, ({ s.modTile t fun _ => r.1 with freeCtr := base + n }).bump (NUM_CNT t 3) r.2)

/-! ### VRED (R165, R199) -/

/-- One level of the tree: adjacent pairs. -/
def treeLevel (f : Word → Word → Word) : List Word → List Word
  | a :: b :: l => f a b :: treeLevel f l
  | l => l

/-- The tree over a group of 256. -/
def treeReduce (f : Word → Word → Word) (l : List Word) : Word :=
  (loop 8 (fun _ l => treeLevel f l) l).headD 0

/-- The operation and padding of a VRED. -/
def vredOp (op : Nat) : (Word → Word → Word) × Word :=
  if op = 0 then (fAdd, 0) else if op = 1 then (fMinMax true, fInf true) else (fMinMax false, fInf false)

/-- A row reduced: each group by the tree, then the groups in ascending order. -/
def vredRow (op : Nat) (get : Nat → Word) (n : Nat) : Word :=
  let (f, pad) := vredOp op
  let groups := (List.range (ceilDiv n 256)).map fun g =>
    treeReduce f ((List.range 256).map fun i => if 256 * g + i < n then get (256 * g + i) else pad)
  match groups with
  | [] => pad
  | x :: l => l.foldl f x

/-- VRED. -/
def engVred (x : EngCtx) (s : Block) : Eng :=
  let k := x.cmd
  let t := x.tile
  let rows := k.f 4 15 0
  let len := k.f 5 23 0
  let fmt := k.f 1 15 8
  let pitch := k.f 6 21 0
  let src := k.f 2 21 0
  let areas := if vecMem k.w2 then (List.range rows).map fun r => (src + r * pitch, len * vecBytes fmt) else []
  let dst := if vecMem k.w3 then [(k.f 3 21 0, 4 * rows)] else []
  if s.tileState t = 5 then (NOT_READY 0x74, s)
  else if !(areas ++ dst).all fun r => s.tmOk t x.routine r.1 r.2 then (tmRange, s)
  else if s.vecPoisoned t areas then s.vectorPoison t
  else
    let s := s.misaligned t ((if vecMem k.w2 then [if src % 128 = 0 ∧ pitch % 128 = 0 then 0 else 1] else []) ++
      (if vecMem k.w3 then [k.f 3 21 0] else []))
    let tile := s.tile t
    let row (r : Nat) : Word := vredRow (k.f 1 1 0) (fun e =>
      if vecMem k.w2 then vecSrc tile (k.w2.setFld 21 0 (src + r * pitch)) 0 fmt e else vecSrc tile k.w2 0 fmt e) len
    let vs := (List.range rows).map row
    (OK, s.modTile t fun d => loop rows (fun r d => vecDst d k.w3 7 r (vs.getD r 0) 0) d)

/-! ### QUANT (R51 to R60, R199) -/

/-- What a QUANT names. -/
structure QuantJob where
  src : Nat
  bf : Bool
  pitch : Nat
  dst : Nat
  rows : Nat
  cols : Nat
  handle : Nat
  qseq : Nat
  idxBase : Nat
  idxPitch : Nat
  sscl : Nat
  key : Nat

/-- The result of a quantize: codes, scale bytes, sidecar bytes, clipped elements, NaN blocks. -/
structure QuantOut where
  codes : List Nat
  scales : List Byte
  sides : List Byte
  clipped : Nat
  nans : Nat

/-- Element (r, c) of the source. -/
def QuantJob.get (q : QuantJob) (m : Store) (r c : Nat) : Word :=
  let a := q.src + r * q.pitch
  if q.bf then w32 (leNat (m.read (a + 2 * c) 2) * 65536) else m.word (a + 4 * c)

/-- The 16 random bits of element (r, c) (R54). -/
def QuantJob.rand (q : QuantJob) (r c : Nat) : Nat :=
  srBits q.key q.handle q.qseq (q.idxBase + 32 * q.idxPitch * r + c)

/-- One row quantized with `k` outliers a group. -/
def QuantJob.row (q : QuantJob) (m : Store) (qm : QuantMode) (k r : Nat) : QuantOut :=
  let xs := (List.range q.cols).map (q.get m r)
  let outs (g : Nat) := groupOutliers k ((xs.drop (64 * g)).take 64)
  let blocks := (List.range (q.cols / 32)).map fun b =>
    let o := outs (b / 2)
    quantBlock qm (memByte m.cells (q.sscl + r * (q.cols / 32) + b)) (fun i => o.contains (b % 2 * 32 + i))
      (fun i => q.rand r (32 * b + i)) ((xs.drop (32 * b)).take 32)
  let side (g : Nat) : List Byte :=
    let o := outs g
    Sidecar.bytes { count := o.length, entries := o.map fun i => ((fBf16 (xs.getD (64 * g + i) 0)).toNat / 65536, i) }
  { codes := blocks.flatMap (·.codes), scales := blocks.map (·.scale),
    sides := if k = 0 then [] else (List.range (ceilDiv q.cols 64)).flatMap side,
    clipped := (blocks.map (·.clipped)).sum, nans := (blocks.filter (·.nan)).length }

/-- Every row quantized. -/
def QuantJob.all (q : QuantJob) (m : Store) (qm : QuantMode) (k : Nat) : QuantOut :=
  let rs := (List.range q.rows).map (q.row m qm k)
  { codes := rs.flatMap (·.codes), scales := rs.flatMap (·.scales), sides := rs.flatMap (·.sides),
    clipped := (rs.map (·.clipped)).sum, nans := (rs.map (·.nans)).sum }

/-- The bytes of the codes of an output. -/
def quantCodeBytes (fmt elems : Nat) : Nat := ceilDiv (elems * fmtBits fmt) 8

/-- The output written behind its header (R59, R199). Word 5 of the header stays for N3. -/
def Block.quantWrite (s : Block) (t : Nat) (q : QuantJob) (fmt : Nat) (esc : Bool) (o : QuantOut) : Block :=
  let n := o.codes.length
  let codes := packCodes (fmtBits fmt) o.codes
  let so := 32 + codes.length
  let sd := if o.sides.isEmpty then 0 else so + o.scales.length
  let w0 := fmt + 256 + (if o.sides.isEmpty then 0 else 512) + (if esc then 1024 else 0)
  let (w5, s) := if fmt = 2 then (s.tmWord t (q.dst + 20), s) else (w32 s.freeVal, s.drawn)
  let hdr := wordsBytes [w32 w0, w32 n, w32 so, w32 sd, 0x3F80, w5, 0, 0]
  s.tmWrite t q.dst (hdr ++ codes ++ o.scales ++ o.sides)

/-- Do two areas overlap? -/
def areasMeet (a b : Nat × Nat) : Bool := decide (a.1 < b.1 + b.2 ∧ b.1 < a.1 + a.2)

/-- Steps 2 to 6 of R60, after step 1 has written the narrow output. `m` is tile memory as it was. The source is not the
output where its area does not overlap the area of the FP8 copy: DESIGN CHOICE, log entry 162. -/
def Block.quantEnd (s : Block) (x : EngCtx) (q : QuantJob) (m : Store) (ctrl : Word) (room : Bool) (srcArea : Nat × Nat)
    (o : QuantOut) : Eng :=
  let t := x.tile
  let n := o.codes.length
  let policy := ctrl.fld 17 16
  if o.clipped * 65536 ≤ ctrl.fld 15 0 * n then (OK, s)
  else
    let s := (s.wb (NUM_LAST t) 0 true).bump (NUM_CNT t 0)
    if policy = 2 then
      (ABORTED 0x30, s.event srcHealth 0x0B01
        [w32 t, w32 x.job.fn, w32 x.count, w32 (x.count / 2 ^ 32), s.rg (NUM_LAST_CLIPPED t), s.rg (NUM_LAST_ELEMS t)])
    else if policy = 1 then
      let area := (q.dst, 32 + n + n / 32)
      if !room || areasMeet srcArea area then (OK, (s.wb (NUM_LAST t) 2 true).bump (NUM_CNT t 2))
      else
        let fmt := if ctrl.bit 21 then 5 else 4
        let qm : QuantMode :=
          { fmt := fmt, book := 0, stoch := ctrl.bit 18, sat := ctrl.bit 19, floor := false, static := false }
        let e := q.all m qm 0
        let s := (s.quantWrite t q fmt true e).bump (NUM_CNT t 5) e.clipped
        (OK, (s.wb (NUM_LAST t) 1 true).bump (NUM_CNT t 1))
    else (OK, s)

/-- QUANT. -/
def engQuant (x : EngCtx) (s : Block) : Eng :=
  let k := x.cmd
  let t := x.tile
  let ctrl := s.rg (NUM_CTRL t)
  let fmt := k.f 1 29 23
  let bf := k.b 1 22
  let rows := k.f 3 15 0
  let cols := 32 * k.f 3 31 16
  let pitch := pitchOf (k.f 4 31 22) (cols * (if bf then 2 else 4))
  let src := k.f 1 21 0
  let dst := k.f 2 21 0
  let outl := k.f 2 30 28
  let smode := k.f 2 25 24
  let static := smode == 3
  let book := s.tmWord t (dst + 20)
  let q : QuantJob :=
    { src := src, bf := bf, pitch := pitch, dst := dst, rows := rows, cols := cols, handle := k.n 5,
      qseq := k.f 7 15 0, idxBase := k.n 6, idxPitch := k.f 7 31 16, sscl := k.f 4 21 0,
      key := s.pair (NUM_RNG_KEY_LO t) }
  let qm : QuantMode :=
    { fmt := fmt, book := book, stoch := if k.f 2 23 22 = 0 then ctrl.bit 18 else k.f 2 23 22 == 2,
      sat := if k.f 2 27 26 = 0 then ctrl.bit 19 else k.f 2 27 26 == 1,
      floor := if smode = 0 then ctrl.bit 20 else smode == 2, static := static }
  let n := rows * cols
  let srcArea := (src, (rows - 1) * pitch + cols * (if bf then 2 else 4))
  let outLen := 32 + quantCodeBytes fmt n + n / 32 + (if outl = 0 then 0 else rows * ceilDiv cols 64 * 12)
  let reads := srcArea :: (if static then [(q.sscl, n / 32)] else []) ++ (if fmt = 2 then [(dst + 20, 4)] else [])
  if s.tileState t = 5 then (NOT_READY 0x74, s)
  else if fmt = 3 ∧ !static then (UNSUPPORTED 0, s)
  else if !(reads ++ [(dst, outLen)]).all fun r => s.tmOk t x.routine r.1 r.2 then (tmRange, s)
  else if k.b 1 30 ∧ !s.tmOk t x.routine dst (32 + n + n / 32) then (tmRange, s)
  else if s.vecPoisoned t reads then s.vectorPoison t
  else if fmt = 2 ∧ !bookOk book then (REFUSED 0x33, s)
  else
    let s := s.misaligned t ([if src % 128 = 0 ∧ pitch % 128 = 0 then 0 else 1, dst] ++ (if static then [q.sscl] else []))
    let m := (s.tile t).mem
    let o := q.all m qm outl
    let s := (s.quantWrite t q fmt false o).bump (NUM_CNT t 3) o.nans
    let s := (((s.wr (NUM_LAST t) 0).wr (NUM_LAST_CLIPPED t) (w32 (min 0xFFFFFFFF o.clipped))).wr
      (NUM_LAST_ELEMS t) (w32 (min 0xFFFFFFFF n)))
    s.quantEnd x q m ctrl (k.b 1 30) srcArea o

end Sys2Proof.Machine
end

