-- ==== Sys2Proof/Machine/Attention.lean ====
section
/-! DEFINITION. Block attention: who sees whom, the fresh block, the combination of partials, the saved log-sum-exp and
the backward pass (R219, R221 to R224). The rules give the arithmetic; what the spec does not give (how the arguments of
such a routine name its operands) is `Config.attnWork`. -/

namespace Sys2Proof.Machine

/-! ### Visibility (R219, R252) -/

/-- A fresh position as attention sees it: its sequence (none for a padding row), its position, and in a tree its node
(depth, k). -/
structure AttnPos where
  seq : Option Nat
  pos : Nat
  node : Option (Nat × Nat)
  deriving DecidableEq, Repr

/-- Is node `a` the node `v` or one of its ancestors (R252: a node's parent is node k = 0 of the depth before)? -/
def ancestorOrSelf (a v : Nat × Nat) : Bool := a == v || (decide (a.1 < v.1) && a.2 == 0)

/-- Does query row `r` see key position `q` (R219)? -/
def AttnPos.sees (r q : AttnPos) : Bool :=
  r.seq.isSome && r.seq == q.seq && decide (q.pos ≤ r.pos) &&
  (match r.node, q.node with | some v, some a => ancestorOrSelf a v | _, _ => true)

/-! ### One row (R219, R221, R223) -/

/-- A partial of a row: running maximum, running sum, unnormalized output. -/
structure AttnRow where
  m : Word
  l : Word
  o : List Word
  deriving DecidableEq, Repr

/-- A row is EMPTY while L is −0. -/
def AttnRow.isEmpty (x : AttnRow) : Bool := x.l == fZero true

/-- A row that has seen nothing: M = 0, L = −0, o = 0. -/
def AttnRow.fresh (dim : Nat) : AttnRow := ⟨0, fZero true, List.replicate dim 0⟩

/-- 1.0 in FP32. -/
def fOne : Word := 0x3F800000

/-- The probability of a visible column. -/
def attnProb (m s : Word) : Word := if fEq s m then fOne else fBf16 (fExp (fSub s m))

/-- The largest visible score. -/
def visibleMax (vis : List Bool) (ss : List Word) : Option Word :=
  (vis.zip ss).foldl (fun a e => if e.1 then some (match a with | none => e.2 | some x => fMax x e.2) else a) none

/-- One row meets one block of scores: its partial before `o += p × v`, and its row of p. A row to which no column is
visible passes the block by. -/
def AttnRow.meet (x : AttnRow) (vis : List Bool) (ss : List Word) : AttnRow × List Word :=
  match visibleMax vis ss with
  | none => (x, vis.map fun _ => 0)
  | some mx =>
    let y : AttnRow :=
      if x.isEmpty then { x with m := mx, l := 0 }
      else
        let mn := fMax x.m mx
        let a := fExp (fSub x.m mn)
        { m := mn, l := fMul x.l a, o := x.o.map fun e => fMul e a }
    let p := (vis.zip ss).map fun e => if e.1 then attnProb y.m e.2 else 0
    ({ y with l := fAdd y.l (vredRow 0 (fun i => p.getD i 0) p.length) }, p)

/-- The weight of a live partial under the maximum. -/
def partWeight (m : Word) (x : AttnRow) : Word := if fEq x.m m then fOne else fExp (fSub x.m m)

/-- ATTN_COMBINE of one row (R221, R222): M, L and the output, from the partials in the order in which they are read. -/
def attnCombine (dim : Nat) (l : List AttnRow) : AttnRow :=
  match l.filter fun x => !x.isEmpty with
  | [] => AttnRow.fresh dim
  | x :: live =>
    let m := live.foldl (fun a y => fMax a y.m) x.m
    let sum := (x :: live).foldl (fun (a : AttnRow) y =>
      let w := partWeight m y
      ⟨m, fAdd a.l (fMul w y.l), a.o.zipWith (fun p q => fAdd p (fMul w q)) y.o⟩) ⟨m, 0, List.replicate dim 0⟩
    if fEq sum.l fOne then sum else { sum with o := sum.o.map fun e => fMul e (fRcp sum.l) }

/-- The record of SAVE_LSE (R223): log-sum-exp in the low word, EMPTY in bit 32. -/
def AttnRow.lse (x : AttnRow) : List Word := if x.isEmpty then [0, 1] else [fAdd x.m (fLog x.l), 0]

/-- A list in an order that is left open (R221: the order in which units complete): each element enters at an open
place. -/
def openOrder {α : Type} (base : Nat) (l : List α) : List α :=
  l.zipIdx.foldl (fun a e => a.insertIdx (Config.free (base + e.2) % (a.length + 1)) e.1) []

/-! ### Products (R43 to R49) -/

/-- An element with its region scale; special where its group or its region scale is bad. -/
def MatOp.full (o : MatOp) (m : Nat → Byte) (r k : Nat) : Elem :=
  if o.badSide m r k then none else exactMul (o.elem m r k) (regionScale o.region)

/-- An FP32 word as an element. -/
def fElem (w : Word) : Elem := codeValue 7 0 w.toNat

/-- A sum of products in blocks of `kblk`, each rounded once and combined in ascending order (R44 to R46). -/
def attnDot (kblk : Nat) (old : Option Word) (l : List (Elem × Elem)) : Word :=
  combine old ((List.range (ceilDiv l.length kblk)).map fun t =>
    elemFp32 (exactSum (((l.drop (t * kblk)).take kblk).map fun e => exactMul e.1 e.2)))

/-! ### The work of a call -/

/-- Where a partial of the rows of a call lies: space as in COPY (0 page view or object, 1 tile memory, 2 shared memory),
handle, the statistics of row 0 (M, then L), its output, and the distance from row to row of both. -/
structure AttnPart where
  space : Nat
  handle : Word
  stat : Nat
  out : Nat
  statPitch : Nat
  outPitch : Nat
  deriving DecidableEq, Repr

/-- One block of query rows of a call, with every operand in the memory of one tile. `key` and `value` hold one row for
each key position, `valueT` one row for each column of the values, and so on: an operand of R163 lies in the direction in
which its product reads it (R83). The FP32 matrices have rows of `dim` words. -/
structure AttnWork where
  tile : Nat
  dim : Nat
  kblk : Nat
  rows : List AttnPos
  keys : List AttnPos
  first : Bool
  query : MatOp
  queryT : MatOp
  key : MatOp
  keyT : MatOp
  value : MatOp
  valueT : MatOp
  dout : MatOp
  doutT : MatOp
  stat : Nat
  out : Nat
  lse : Nat
  dq : Nat
  dk : Nat
  dv : Nat
  parts : List AttnPart
  save : Bool
  deriving DecidableEq, Repr

end Sys2Proof.Machine

/-- The work that a call of an attention routine names by its six arguments. The spec states the arithmetic of these
routines and not their arguments. DESIGN CHOICE, log entry 169. -/
opaque Sys2Proof.Config.attnWork : Sys2Proof.AttnKind → List Sys2Proof.Word → List Sys2Proof.Machine.AttnWork

namespace Sys2Proof.Machine

/-- Words of a row read from an FP32 matrix. -/
def Store.row (m : Store) (a n : Nat) : List Word := bytesWords n (m.read a (4 * n))

/-- The partial of row `r` that a call keeps in tile memory. -/
def AttnWork.stats (w : AttnWork) (m : Store) (r : Nat) : AttnRow :=
  ⟨m.word (w.stat + 8 * r), m.word (w.stat + 8 * r + 4), m.row (w.out + 4 * w.dim * r) w.dim⟩

/-- A partial written to its place. -/
def Block.putStats (s : Block) (t : Nat) (w : AttnWork) (r : Nat) (x : AttnRow) : Block :=
  (s.tmWrite t (w.stat + 8 * r) (wordsBytes [x.m, x.l])).tmWrite t (w.out + 4 * w.dim * r) (wordsBytes x.o)

/-- The score of row `r` and key `c`: q × kᵀ. -/
def AttnWork.score (w : AttnWork) (m : Nat → Byte) (r c : Nat) : Word :=
  attnDot w.kblk none ((List.range w.query.k).map fun d => (w.query.full m r d, w.key.full m c d))

/-- The columns that row `r` sees. -/
def AttnWork.visible (w : AttnWork) (x : AttnPos) : List Bool := w.keys.map x.sees

/-- The fresh block of a row (R219), then `o += p × v`. A row that sees no column keeps what it has. -/
def AttnWork.freshRow (w : AttnWork) (m : Store) (e : AttnPos × Nat) : AttnRow :=
  let vis := w.visible e.1
  let byte := memByte m.cells
  let old := if w.first then AttnRow.fresh w.dim else w.stats m e.2
  let y := old.meet vis ((List.range w.keys.length).map fun c => w.score byte e.2 c)
  if vis.contains true then
    { y.1 with o := (List.range w.dim).map fun d =>
        attnDot w.kblk (some (y.1.o.getD d 0)) ((y.2.zipIdx).map fun p => (fElem p.1, w.valueT.full byte d p.2)) }
  else y.1

/-- The fresh block of every row. -/
def Block.attnFresh (s : Block) (t : Nat) (w : AttnWork) : Block :=
  let m := (s.tile t).mem
  s.each w.rows.zipIdx fun s e => s.putStats t w e.2 (w.freshRow m e)

/-- A partial read from where it lies. -/
def Block.readPart (s : Block) (x : EngCtx) (w : AttnWork) (p : AttnPart) (r : Nat) : AttnRow × Block :=
  let st := s.endRead x p.space p.handle (p.stat + p.statPitch * r) 8 2
  let o := st.2.endRead x p.space p.handle (p.out + p.outPitch * r) (4 * w.dim) 2
  let ws := bytesWords 2 st.1.1
  (⟨ws.getD 0 0, ws.getD 1 0, bytesWords w.dim o.1.1⟩, o.2)

/-- ATTN_COMBINE of every row (R221), with the SAVE_LSE record where the call keeps one (R223). -/
def Block.attnCombineRows (s : Block) (x : EngCtx) (w : AttnWork) : Block :=
  s.each (List.range w.rows.length) fun s r =>
    let got := w.parts.foldl (fun (a : List AttnRow × Block) p =>
      let y := a.2.readPart x w p r
      (a.1 ++ [y.1], y.2)) (([] : List AttnRow), s)
    let n := got.1.length
    let y := attnCombine w.dim (openOrder got.2.freeCtr got.1)
    let s := { got.2 with freeCtr := got.2.freeCtr + n }.putStats x.tile w r y
    if w.save then s.tmWrite x.tile (w.lse + 8 * r) (wordsBytes y.lse) else s

/-! ### The backward pass (R224) -/

/-- What ATTN_BWD computes for one pair of row and key from the saved record: p and ds. An EMPTY row gives zero. -/
structure BwdCell where
  p : Word
  ds : Word

/-- Is the saved record of row `r` EMPTY? -/
def AttnWork.emptyRow (w : AttnWork) (m : Store) (r : Nat) : Bool := (m.word (w.lse + 8 * r + 4)).bit 0

/-- delta of a row: the products of dout and out, each rounded, summed by the tree of R165. -/
def AttnWork.delta (w : AttnWork) (m : Store) (r : Nat) : Word :=
  vredRow 0 (fun d => fMul (elemFp32 (w.dout.full (memByte m.cells) r d)) (m.word (w.out + 4 * (w.dim * r + d)))) w.dim

/-- One cell of the backward pass. -/
def AttnWork.cell (w : AttnWork) (m : Store) (r c : Nat) (sees : Bool) : BwdCell :=
  if w.emptyRow m r then ⟨0, 0⟩
  else
    let byte := memByte m.cells
    let p := if sees then fBf16 (fExp (fSub (w.score byte r c) (m.word (w.lse + 8 * r)))) else 0
    let dp := attnDot w.kblk none ((List.range w.dim).map fun d => (w.dout.full byte r d, w.value.full byte c d))
    ⟨p, fBf16 (fMul p (fSub dp (w.delta m r)))⟩

/-- The rows that contribute: those that are not EMPTY. -/
def AttnWork.liveRows (w : AttnWork) (m : Store) : List (AttnPos × Nat) := w.rows.zipIdx.filter fun e => !w.emptyRow m e.2

/-- An FP32 matrix with a sum added to each of its words. -/
def Block.addMatrix (s : Block) (t kblk a rows cols : Nat) (terms : Nat → Nat → List (Elem × Elem)) : Block :=
  s.each (List.range rows) fun s i =>
    s.tmWrite t (a + 4 * cols * i) (wordsBytes ((List.range cols).map fun j =>
      attnDot kblk (some (s.tmWord t (a + 4 * (cols * i + j)))) (terms i j)))

/-- The backward pass of one block of keys: dv += pᵀ × dout, dq += ds × k, dk += dsᵀ × q. The dq row of an EMPTY row is
zero. -/
def Block.attnBackward (s : Block) (t : Nat) (w : AttnWork) : Block :=
  let m := (s.tile t).mem
  let byte := memByte m.cells
  let cell (e : AttnPos × Nat) (k : AttnPos × Nat) : BwdCell := w.cell m e.2 k.2 (e.1.sees k.1)
  let keys := w.keys.zipIdx
  let table := w.rows.zipIdx.map fun e => keys.map (cell e)
  let at_ (r c : Nat) : BwdCell := (table.getD r []).getD c ⟨0, 0⟩
  let live := (w.liveRows m).map (·.2)
  let qd := w.query.k
  let s := s.addMatrix t w.kblk w.dv w.keys.length w.dim fun c d =>
    live.map fun r => (fElem (at_ r c).p, w.doutT.full byte d r)
  let s := s.addMatrix t w.kblk w.dk w.keys.length qd fun c d =>
    live.map fun r => (fElem (at_ r c).ds, w.queryT.full byte d r)
  let s := s.addMatrix t w.kblk w.dq w.rows.length qd fun r d =>
    if live.contains r then (List.range w.keys.length).map fun c => (fElem (at_ r c).ds, w.keyT.full byte d c) else []
  s.each ((List.range w.rows.length).filter fun r => !live.contains r) fun s r =>
    s.tmWrite t (w.dq + 4 * qd * r) (List.replicate (4 * qd) 0)

/-! ### The call -/

/-- The byte ranges of tile memory that a piece of work reads. -/
def AttnWork.reads (w : AttnWork) (k : AttnKind) : List (Nat × Nat) :=
  let rows := w.rows.length
  let keys := w.keys.length
  match k with
  | .fresh => w.query.areas rows ++ w.key.areas keys ++ w.valueT.areas w.dim ++
      (if w.first then [] else [(w.stat, 8 * rows), (w.out, 4 * w.dim * rows)])
  | .combine => []
  | .backward => w.query.areas rows ++ w.queryT.areas w.query.k ++ w.key.areas keys ++ w.keyT.areas w.query.k ++
      w.value.areas keys ++ w.dout.areas rows ++ w.doutT.areas w.dim ++
      [(w.out, 4 * w.dim * rows), (w.lse, 8 * rows), (w.dq, 4 * w.query.k * rows), (w.dk, 4 * w.query.k * keys),
       (w.dv, 4 * w.dim * keys)]

/-- The byte ranges of tile memory that a piece of work writes. -/
def AttnWork.writes (w : AttnWork) (k : AttnKind) : List (Nat × Nat) :=
  let rows := w.rows.length
  let keys := w.keys.length
  match k with
  | .fresh => [(w.stat, 8 * rows), (w.out, 4 * w.dim * rows)]
  | .combine => [(w.stat, 8 * rows), (w.out, 4 * w.dim * rows)] ++ (if w.save then [(w.lse, 8 * rows)] else [])
  | .backward => [(w.dq, 4 * w.query.k * rows), (w.dk, 4 * w.query.k * keys), (w.dv, 4 * w.dim * keys)]

/-- The ranges of a partial, one for each row's statistics and one for its output. -/
def AttnWork.partRanges (w : AttnWork) (p : AttnPart) : List (Nat × Nat) :=
  (List.range w.rows.length).flatMap fun r =>
    [(p.stat + p.statPitch * r, 8), (p.out + p.outPitch * r, 4 * w.dim)]

/-- The status with which a piece of work is turned away before it does anything: a range that the job may not name, or
an operand with a mark. -/
def Block.attnStatus (s : Block) (x : EngCtx) (k : AttnKind) (w : AttnWork) : Option Nat :=
  let parts := if k = .combine then w.parts.flatMap fun p => (w.partRanges p).map fun r => (p, r) else []
  if !(w.reads k ++ w.writes k).all fun r => s.tmOk x.tile true r.1 r.2 then some tmRange
  else match parts.findSome? fun e => s.endStatus x e.1.space e.1.handle e.2.1 e.2.2 false with
    | some st => some st
    | none =>
      if s.vecPoisoned x.tile (w.reads k) then some (POISONED 3)
      else if parts.any fun e => ((s.endRead x e.1.space e.1.handle e.2.1 e.2.2 2).1.2).contains true then some (POISONED 3)
      else none

/-- A piece of work of a call: nothing of it is done when it is turned away. -/
def Block.attnPiece (s : Block) (x : EngCtx) (k : AttnKind) (w : AttnWork) : Eng :=
  let x := { x with tile := x.c * 8 + w.tile % 8, routine := true }
  match s.attnStatus x k w with
  | some st => (st, if st = POISONED 3 then s.consumed 1 x.tile 0 0 else s)
  | none =>
    (OK, match k with
      | .fresh => s.attnFresh x.tile w
      | .combine => s.attnCombineRows x w
      | .backward => s.attnBackward x.tile w)

/-- The work of a call in order, up to the first piece that is turned away. -/
def Block.attnCall (s : Block) (x : EngCtx) (k : AttnKind) (args : List Word) : Eng :=
  (Config.attnWork k args).foldl (fun a w => if a.1 = OK then a.2.attnPiece x k w else a) (OK, s)

/-- Does a call of an attention routine find the queues of the tiles that it works on empty? -/
def Block.attnFree (s : Block) (c : Nat) (k : AttnKind) (args : List Word) : Bool :=
  (Config.attnWork k args).all fun w => (List.range 3).all fun e => ((s.cl c).queue (8 * e + w.tile % 8)).isEmpty

end Sys2Proof.Machine
end

