-- ==== Sys2Proof/Machine/EskerNet.lean ====
section
/-! DEFINITION. The Esker ports as packets see them: routes, credits, sending and forwarding, what a node does
with a request, responses, lost requests, ports that go down, and the remote forms of COPY and ATOMIC (R297 to
R299, R353 to R364, R429). -/

namespace Sys2Proof.Machine

/-! ### Ports -/

/-- A port that has carried nothing. -/
def Port.reset : Port :=
  { rxSeq := 0, acked := 0, replays := 0, tagFails := 0, queue := [], sendSlot := 0, recvSlot := 0, lastRx := 0,
    retrain := false, laneMax := 0x1000, encReq := false }
/-- A port. -/
def Block.port (s : Block) (p : Nat) : Port := tget Port.reset s.esk.ports p
/-- A port changed. -/
def Block.modPort (s : Block) (p : Nat) (f : Port → Port) : Block :=
  { s with esk := { s.esk with ports := tset Port.reset s.esk.ports p (f (s.port p)) } }
/-- STATE of a port (R371). -/
def Block.portState (s : Block) (p : Nat) : Nat := s.fld (ESK_STATE p) 1 0
/-- Is the port RUNNING? -/
def Block.portUp (s : Block) (p : Nat) : Bool := s.portState p == 2
/-- The module's node ID. -/
def Block.node (s : Block) : Nat := s.fld ESK_NODE 14 0
/-- Is the node ID valid (R358)? -/
def Block.nodeValid (s : Block) : Bool := s.bit ESK_NODE 15
/-- The ledger of a port's virtual channel (R356). -/
def creditLedger (p vc : Nat) : Nat := 8 * p + vc

/-! ### Routes (R360, R361) -/

/-- The routing entry of a node. -/
def Block.route (s : Block) (n : Nat) : Word := tget 0 s.esk.routes n
/-- Is a port RUNNING, as LINK sees it: while LINK is away the routes stand as they are (R410). -/
def Block.routeUp (s : Block) (p : Nat) : Bool :=
  match s.esk.seen with
  | some m => m.testBit p
  | none => s.portUp p
/-- Ports of ADAPT that are RUNNING, in ascending order. -/
def Block.adaptUp (s : Block) (n : Nat) : List Nat := (maskBits ((s.route n).fld 23 8) 16).filter s.routeUp

/-- The port of the fixed route: ORD_PORT, or after a failover the lowest ADAPT port that is RUNNING. -/
def Block.fixedPort (s : Block) (n : Nat) : Option Nat :=
  if !(s.route n).bit 4 then none
  else if s.routeUp ((s.route n).fld 3 0) then some ((s.route n).fld 3 0) else (s.adaptUp n).head?

/-- Credits' worth of packets for a destination that wait at a port. -/
def Block.waitingFor (s : Block) (p n : Nat) : Nat :=
  (((s.port p).queue.filter fun q => q.packet.dst == n).map (·.credits)).sum

/-- The port that the unordered class takes. -/
def Block.adaptPort (s : Block) (n : Nat) : Option Nat :=
  if !(s.route n).bit 4 then none
  else match (s.adaptUp n).foldl (fun (b : Option Nat) p =>
      match b with
      | none => some p
      | some q => if s.waitingFor p n < s.waitingFor q n then some p else some q) none with
    | some p => some p
    | none => s.fixedPort n

/-- The port of a packet for a node on a virtual channel. -/
def Block.routePort (s : Block) (vc n : Nat) : Option Nat := if vc = 1 then s.adaptPort n else s.fixedPort n

/-- Can a node be reached? -/
def Block.reachable (s : Block) (n : Nat) : Bool := n == s.node || (s.fixedPort n).isSome

/-! ### Sending (R299, R356, R357) -/

/-- Bytes of a packet. -/
def packetBytes (k : Packet) : Nat := 32 + k.len

/-- Is the packet a request? -/
def isRequest (k : Packet) : Bool := decide (1 ≤ k.ptype ∧ k.ptype ≤ 4)

/-- Does an earlier packet of the pair, sent or not, still await its acknowledgement on another route (R297, R299)? -/
def Block.oldRoute (s : Block) (p : Nat) (q : Queued) : Bool :=
  q.own && isRequest q.packet && q.packet.ordered &&
  s.esk.out.any fun e => e.2.dst == q.packet.dst && e.2.ordered && e.2.port != p &&
    decide (e.2.no < ((kget s.esk.out q.packet.tag).map (·.no)).getD 0)

/-- May a waiting packet be sent now? -/
def Block.mayGo (s : Block) (p : Nat) (q : Queued) : Bool :=
  s.portUp p && decide (q.credits ≤ (s.ledger (creditLedger p q.vc)).free) && !s.oldRoute p q

/-- A packet leaves the port: its credits pass from FREE through HELD to FLIGHT. -/
def Block.sendNow (s : Block) (p : Nat) (q : Queued) : Block :=
  let n := creditLedger p q.vc
  let s := ((s.ledTake n q.credits).ledSend n q.credits).bumpPair (ESK_CNT_TX_LO p) (packetBytes q.packet)
  let s := { s with env := { s.env with sent := s.env.sent ++ [(p, q.packet)] } }
  if q.own && isRequest q.packet then
    { s with esk := { s.esk with out := kmod s.esk.out q.packet.tag fun o => { o with sent := some s.now } } }
  else s

/-- The queue of a port sent as far as credits reach; packets of one virtual channel keep their order. -/
def Block.pumpFrom (s : Block) (p : Nat) : List Queued → List Queued → Block
  | [], kept => s.modPort p fun x => { x with queue := kept }
  | q :: l, kept =>
    if !(kept.any fun k => k.vc == q.vc) && s.mayGo p q then (s.sendNow p q).pumpFrom p l kept
    else s.pumpFrom p l (kept ++ [q])

/-- A port's queue sent as far as it goes. -/
def Block.pump (s : Block) (p : Nat) : Block := s.pumpFrom p (s.port p).queue []
/-- Every port's queue. -/
def Block.pumpAll (s : Block) : Block := s.each (List.range 16) fun s p => s.pump p

/-- A packet joins a port's queue. -/
def Block.enqueue (s : Block) (p : Nat) (own : Bool) (k : Packet) : Block :=
  let q : Queued := { vc := k.vc, credits := ceilDiv (packetBytes k) 32, own := own, packet := k }
  (s.modPort p fun x => { x with queue := x.queue ++ [q] }).pump p

/-- A packet discarded and counted. -/
def Block.discard (s : Block) (p : Nat) : Block := s.bump (ESK_CNT_DISCARD p)

/-! ### What a node does with a request (R359, R362, R366) -/

/-- The marks of a payload's sectors as the POISON field. -/
def markBits (l : List Bool) : Nat := (l.zipIdx.map fun e => if e.1 then 2 ^ e.2 else 0).sum
/-- The POISON field as marks of `n` payload bytes. -/
def bitMarks (n x : Nat) : List Bool := (List.range (ceilDiv n 32)).map x.testBit

/-- The partition that a domain names. -/
def Block.domainPart (s : Block) (d : Nat) : Option Nat :=
  (List.range 32).find? fun p => (s.part p).isSome && s.bit (ESK_DOMAIN p) 16 && s.fld (ESK_DOMAIN p) 15 0 == d

/-- Bytes that a READ returns: up to the end of its 256 B unit and of the view (log entry 12). -/
def readLen (o : Obj) (off : Nat) : Nat := min (256 - off % 256) (viewEnd o.desc - off)

/-- Bytes of the object that a request touches. -/
def reqLen (o : Obj) (k : Packet) : Nat :=
  if k.ptype = 3 then readLen o k.off else if k.ptype = 4 then typeSize k.etype else k.data.length

/-- The type of a reduction packet: that of the destination, or INT64 on an INT32 object (R82, R103). -/
def redPacketType (o : Obj) (k : Packet) : Option Nat :=
  match addType (dFmt o.desc) with
  | some 2 => some (if k.etype = 3 then 3 else 2)
  | x => x

/-- The destination's checks: R359, R66, the extent in its own piece, and those of the operation. -/
def Block.requestStatus (s : Block) (k : Packet) : Except Nat (Nat × Obj) :=
  match s.domainPart k.domain with
  | none => .error (REFUSED 0xE0)
  | some p =>
    match s.byHandle p k.handle with
    | none => .error (REFUSED 0x40)
    | some o =>
      let n := reqLen o k
      if !dShared o.desc then .error (DENIED 0x4A)
      else if viewEnd o.desc < k.off + max 1 n ∨ !o.ownPiece k.off n then .error (REFUSED 0xE5)
      else if k.ptype = 2 ∧ (redPacketType o k).isNone then .error (UNSUPPORTED 0)
      else if (k.ptype = 4 ∧ !atomicFits k.etype (dFmt o.desc)) ∨ ((k.ptype = 2 ∨ k.ptype = 4) ∧ k.op = 3) then
        .error (REFUSED 0x45)
      else if k.ptype = 2 ∧ (k.off % typeSize ((redPacketType o k).getD 0) ≠ 0 ∨
          n % typeSize ((redPacketType o k).getD 0) ≠ 0) then .error (REFUSED 0x50)
      else if k.ptype = 4 ∧ k.off % typeSize k.etype ≠ 0 then .error (REFUSED 0x50)
      else if !s.rangeUp o (s.reached p 0 o (k.ptype != 3)) k.off n then .error (NOT_READY 0x54)
      else .ok (p, o)

/-- What a response carries: status, data, marks of the data's sectors. -/
structure Reply where
  status : Nat
  data : List Byte
  marks : List Bool

/-- The frame of a far arena that a request of a page move names: the grant of its source and domain (R367), the offset
counted from the arena's start. The manual gives these packets no handle, and none is read: DESIGN CHOICE (log entry
168). -/
def Block.farStatus (s : Block) (k : Packet) : Except Nat (Nat × Nat × Frame) :=
  match s.domainPart k.domain with
  | none => .error (REFUSED 0xE0)
  | some p =>
    match s.esk.grants.find? fun g => g.node == k.src && g.domain == k.domain && g.part == p with
    | none => .error (REFUSED 0x40)
    | some g =>
      let n := if k.ptype = 1 then k.data.length else 256
      match ((s.obj p g.slot).map (·.frames)).bind fun l => l[k.off / frameBytes]? with
      | none => .error (REFUSED 0xE5)
      | some f =>
        if (k.ptype ≠ 1 ∧ k.ptype ≠ 3) ∨ frameBytes < k.off % frameBytes + n then .error (REFUSED 0xE5)
        else if s.cgState f.stack (frameChannel false f (k.off % frameBytes) / 2) ≠ 2 then .error (NOT_READY 0x54)
        else .ok (p, g.slot, f)

/-- A request of a page move performed in the arena that this module has granted. -/
def Block.performFar (s : Block) (k : Packet) : Reply × Block :=
  match s.farStatus k with
  | .error st => (⟨st, [], []⟩, s)
  | .ok (p, slot, f) =>
    if k.ptype = 1 then
      (⟨OK, [], []⟩, (s.modObj p slot fun o => { o with data := o.data.write k.off k.data (bitMarks k.data.length k.poison) }).stackTraffic
        f.stack 1 true false)
    else
      let m := ((s.obj p slot).map (·.data)).getD Store.empty
      (⟨OK, m.read k.off 256, m.marks k.off 256⟩, s.stackTraffic f.stack 1 false false)

/-- A request performed at the point of coherence (R362); virtual channel 3 carries page moves (R367). -/
def Block.performReq (s : Block) (k : Packet) : Reply × Block :=
  let s := s.firnSettle
  if k.vc = 3 then s.performFar k else
  match s.requestStatus k with
  | .error st => (⟨st, [], []⟩, s)
  | .ok (p, o) =>
    let n := reqLen o k
    let ms := bitMarks k.data.length k.poison
    if k.ptype = 1 then
      let s := s.traffic p k.handle 0 k.off n 1 true (decide (n ≤ 32))
      (⟨OK, [], []⟩, s.performWrite p (hSlot k.handle) k.off k.data (shiftMarks 0 k.off n ms))
    else if k.ptype = 2 then
      let s := s.reduceTraffic p k.handle k.off n 1 (decide (n ≤ 32))
      (⟨OK, [], []⟩, s.reduce p k.handle k.off k.op ((redPacketType o k).getD 0) k.data fun i => ms.getD (i / 32) false)
    else if k.ptype = 3 then
      let s := s.traffic p k.handle 0 k.off n 1 false (decide (n ≤ 32))
      let o := (s.byHandle p k.handle).getD o
      (⟨OK, o.read k.off n, shiftMarks k.off 0 n (o.data.marks k.off n)⟩, s)
    else
      let s := s.reduceTraffic p k.handle k.off n 1 true
      let z := typeSize k.etype
      let r := s.adder p k.handle k.off k.op k.etype (leNat (k.data.take z)) (ms.getD 0 false)
      let old := if k.fetch then r.1.1 else r.2.freeVal
      (⟨OK, leBytes 8 old, [k.fetch && r.1.2]⟩, if k.fetch then r.2 else r.2.drawn)

/-- A request performed, and the rows of the errors that it met looked after. -/
def Block.perform (s : Block) (k : Packet) : Reply × Block :=
  let r := s.performReq k
  (r.1, r.2.repairMet)

/-- The response to a request (R362): on VC 2 to its source, dropped and counted when it has no route. -/
def Block.respond (s : Block) (p : Nat) (k : Packet) (r : Reply) : Block :=
  let a : Packet :=
    { ptype := if k.ptype = 3 ∨ k.ptype = 4 then 9 else 8, vc := 2, ordered := true, hops := 0, dst := k.src, src := s.node,
      domain := k.domain, tag := k.tag, handle := 0, off := 0, op := 0, etype := 0, fetch := false,
      poison := markBits r.marks, status := r.status, len := r.data.length, data := r.data }
  match s.fixedPort k.src with
  | some q => s.enqueue q true a
  | none => s.discard p

/-! ### Completion of an outstanding request -/

/-- The command of an outstanding request as its engine sees it. -/
def Block.outCtx (s : Block) (o : Outstanding) (k : Cmd) : Option EngCtx :=
  (s.jobAt o.job).map fun J =>
    { c := o.cluster, q := o.queue, j := o.job, job := J, tile := o.cluster * 8 + o.queue % 8, routine := true,
      cmd := k, count := o.count }

/-- Does the command read from a peer into the adders of a local tensor (R200)? -/
def remoteReduces (k : Cmd) : Bool := k.op == 0x40 && k.b 7 15 && k.f 5 27 26 != 0

/-- Bytes that a reducing read has brought, kept with its queue's head until all have come: elements may straddle packets. -/
def Block.keepData (s : Block) (x : EngCtx) (a : Nat) (bs : List Byte) (ps : List Bool) : Block :=
  s.modCl x.c fun c =>
    match c.queue x.q with
    | e :: l => c.setQueue x.q ({ e with got := e.got.write a bs (shiftMarks 0 a bs.length ps) } :: l)
    | [] => c

/-- The reduction of what a reducing read has brought. -/
def Block.reduceKept (s : Block) (x : EngCtx) : Block :=
  let k := x.cmd
  match (s.cl x.c).queue x.q with
  | [] => s
  | e :: _ =>
    let a := copySrc k % 32
    s.reduceFrom x k.w3 (copyDst k) (k.f 5 27 26 - 1) (s.redType x k.w3) (k.f 5 25 24) (decide (k.n 6 ≤ 32)) (e.got.read a (k.n 6))
      fun i => e.got.marked (a + i) 1

/-- The data of a response placed where its command wants it (R200, R298). -/
def Block.placeData (s : Block) (o : Outstanding) (r : Reply) : Block :=
  match o.sink with
  | none => s
  | some k =>
    match s.outCtx o k with
    | none => s
    | some x =>
      let bs := r.data.take o.len
      if k.op = 0x48 then
        let z := typeSize (k.f 3 15 14)
        s.tmWrite x.tile (k.f 6 21 0) (r.data.take z) (shiftMarks 0 (k.f 6 21 0) z r.marks)
      else if remoteReduces k then s.keepData x (copySrc k % 32 + o.off) bs r.marks
      else
        s.endWrite x (k.f 7 21 20) k.w3 (copyDst k + o.off) (k.f 5 25 24) bs
          (shiftMarks 0 (copyDst k + o.off) bs.length r.marks)

/-- A request of a page move answered: the unit is done, or the copy has ended (R236, R367). -/
def Block.moverAnswered (s : Block) (p pid id unit : Nat) (r : Reply) : Block :=
  s.modPage p pid fun g =>
    match g.far with
    | none => g
    | some c =>
      if c.id ≠ id then g
      else if r.status = OK then
        { g with far := some { c with done := c.done + 1, got := c.got.write (unit * 256) r.data r.marks } }
      else { g with far := some { c with failed := some r.status } }

/-- A request answered: its data placed, or its job ended with the destination's status (R362). -/
def Block.answered (s : Block) (o : Outstanding) (r : Reply) : Block :=
  match o.mover with
  | some (p, pid, id) => s.moverAnswered p pid id o.off r
  | none => if r.status = OK then s.placeData o r else s.failJob o.job r.status o.count o.tag o.engine

/-- A request reported lost (R364). -/
def Block.requestLost (s : Block) (t : Nat) : Block :=
  match kget s.esk.out t with
  | none => s
  | some o =>
    ({ s with esk := { s.esk with out := kdel s.esk.out t } }).answered o ⟨ABORTED 0xE1, [], []⟩

/-! ### Issuing a request (R362, R363) -/

/-- A tag that no request occupies, an open choice. -/
def Block.freeTag (s : Block) : Nat × Block :=
  let start := s.freeVal
  let n := s.esk.out.length + 1
  (((List.range n).find? fun i => (kget s.esk.out ((start + i) % 65536)).isNone).elim 0 fun i => (start + i) % 65536, s.drawn)

/-- A request sent: through a port, or through the loopback when it names the module itself. With no route left it ends
before it is sent (R364). -/
def Block.request (s : Block) (o : Outstanding) (k : Packet) : Block :=
  if k.dst = s.node then
    let r := (s.performOwned o.cluster o.queue).perform k
    r.2.answered o r.1
  else
    match s.routePort k.vc k.dst with
    | none => s.answered o ⟨NOT_READY 0xE2, [], []⟩
    | some p =>
      let (t, s) := s.freeTag
      let o := { o with port := p, epoch := s.fld (ESK_EPOCH p) 15 0, no := s.esk.issued }
      let s := { s with esk := { s.esk with out := kput s.esk.out t o, issued := s.esk.issued + 1 } }
      s.enqueue p true { k with tag := t }

/-! ### Nodes and ports that go down (R299, R353, R361, R364) -/

/-- A system release that waits in a queue of a cluster. -/
def Block.waitingRelease (s : Block) (c : Nat) : Option QEntry :=
  (s.cl c).queues.findSome? fun q => q.2.find? fun e => e.started && e.waiting && (e.cmd.op == 0x09 || e.cmd.op == 0x0A)

/-- The far arena of a node is lost (R238): the sequences with a page there are LOST, and no copy to or from it
completes. -/
def Block.arenaLost (s : Block) (n : Nat) : Block :=
  s.each (s.snow.filter fun e => e.2.arenas.any fun a => a.2.far && a.2.addr == n) fun s e =>
    let w := e.2
    let at_ : PageLoc → Bool
      | .far m _ => m == n
      | _ => false
    let hit (q : Seq) : Bool := q.pages.any fun l => l.2.any fun pid => (kget w.pages pid).any fun g => at_ g.loc
    let k := (w.seqs.filter fun x => hit x.2).length
    let stop (g : Page) : Page :=
      if g.places.any at_ then { g with far := g.far.map fun c => { c with failed := some (ABORTED 0xA9) } } else g
    let s := s.setSnow e.1
      { w with seqs := kmap w.seqs fun _ q => if hit q then { q with lost := true } else q, pages := kmap w.pages fun _ g => stop g }
    s.event srcSnow 0x0A40 [w32 e.1, w32 n, w32 k]

/-- A node reported down: releases that wait for it, its requests, far arenas, event 0x0604. -/
def Block.nodeDown (s : Block) (n cause : Nat) : Block :=
  let l := s.esk.out.filter fun e => e.2.dst == n
  let s := s.each l fun s e =>
    match s.waitingRelease e.2.cluster with
    | some r => if e.2.ptype ≠ 3 ∧ (s.cl e.2.cluster).job = some e.2.job then
        s.failJob e.2.job (ABORTED 0xC1) r.count r.tag r.cmd.engine else s
    | none => s
  let s := s.each l fun s e => s.requestLost e.1
  (s.arenaLost n).event srcLink 0x0604 [w32 n, w32 cause]

/-- The nodes of a list that have become unreachable are reported; those reachable again are struck off. -/
def Block.checkNodes (s : Block) (l : List Nat) (cause : Nat) : Block :=
  s.each l fun s n =>
    if s.reachable n then { s with esk := { s.esk with down := s.esk.down.filter (· != n) } }
    else if s.esk.down.contains n then s
    else ({ s with esk := { s.esk with down := n :: s.esk.down } }).nodeDown n cause

/-- A waiting packet of this node put on its route again. -/
def Block.reroute (s : Block) (p : Nat) (q : Queued) : Block :=
  match s.routePort q.vc q.packet.dst with
  | some r =>
    let move (o : Outstanding) : Outstanding :=
      if isRequest q.packet then { o with port := r, epoch := s.fld (ESK_EPOCH r) 15 0 } else o
    let s := { s with esk := { s.esk with out := kmod s.esk.out q.packet.tag move } }
    s.enqueue r true q.packet
  | none => s.discard p

/-- The credits of a port leave their ledgers: FLIGHT to FREE, then TOTAL and FREE to 0. -/
def Block.creditsGone (s : Block) (p : Nat) : Block :=
  s.each (List.range 8) fun s v =>
    let n := creditLedger p v
    let s := s.ledLand n (s.ledger n).flight
    s.ledShrink n (s.ledger n).free

/-- Credits of a port in flight. -/
def Block.creditsFlying (s : Block) (p : Nat) : Nat :=
  ((List.range 8).map fun v => (s.ledger (creditLedger p v)).flight).sum

/-- A management packet to FM_NODE, when a route reaches it; what it carries is open (R353 step 5). -/
def Block.tellFm (s : Block) : Block :=
  let n := s.fld ESK_FABRIC 14 0
  if !s.bit ESK_FABRIC 15 || !s.nodeValid || n == s.node then s else
  match s.fixedPort n with
  | none => s
  | some p =>
    let k : Packet :=
      { ptype := 0xC, vc := 4, ordered := true, hops := 0, dst := n, src := s.node, domain := 0, tag := 0, handle := 0, off := 0,
        op := 0, etype := 0, fetch := false, poison := 0, status := 0, len := 8, data := leBytes 8 s.freeVal }
    s.drawn.enqueue p true k

/-- A PLDM event on the sideband (R353 step 5): kept beside the readings, under 2^16 plus its code. -/
def Block.tellPldm (s : Block) (code : Nat) (w : Word) : Block :=
  { s with env := { s.env with pldm := s.env.pldm ++ [(0x10000 + code, w)] } }

/-- A port goes down (R353). Cause 0 stands for a stop by ESK_PORT. -/
def Block.portDown (s : Block) (p cause : Nat) : Block :=
  let nbr := s.fld (ESK_STATE p) 26 12
  let retrain := decide (cause ≠ 0) && s.bit (ESK_CFG p) 8
  let wait := (s.port p).queue
  let s := ((s.wf (ESK_STATE p) 1 0 0).wf (ESK_STATE p) 9 7 cause).wb (ESK_STATE p) 10 false
  let s := loop 9 (fun n s => s.wf (ESK_LANE p n) 17 16 0) s
  let s := s.modPort p fun x => { x with queue := [], rxSeq := 0, acked := 0, replays := 0, tagFails := 0, retrain := retrain }
  let moved := s.creditsFlying p
  let s := s.creditsGone p
  let mine := s.esk.out.filter fun e => e.2.port == p && e.2.sent.isSome
  let s := s.each mine fun s e => s.requestLost e.1
  let s := s.each (wait.filter fun q => !q.own) fun s _ => s.discard p
  let s := s.checkNodes ((s.esk.routes.filter fun e => e.2.bit 4).map (·.1)) 1
  let s := s.each (wait.filter fun q => q.own) fun s q =>
    if isRequest q.packet && (kget s.esk.out q.packet.tag).isNone then s else s.reroute p q
  let s := s.event srcHealth 0x0601 [w32 p, w32 cause, w32 nbr, w32 moved, w32 mine.length]
  ((s.tellFm.tellPldm 0x0601 (w32 p)).bump (ESK_CNT_DOWN p)).pumpAll

/-! ### The remote forms of COPY and ATOMIC (R200, R362, R363) -/

/-- Does the command name a peer? -/
def isRemote (k : Cmd) : Bool := (k.op == 0x40 && (k.b 7 15 || k.b 7 16)) || (k.op == 0x48 && k.b 7 15)

/-- ESKER_CREDITS of a job's bundle. -/
def Block.jobCredits (s : Block) (J : Job) : Nat := ((kget s.bundles J.bundle).map (·.img.eskerCredits)).getD 0

/-- The checks of a remote command at issue (R363, R359). -/
def Block.remoteStatus (s : Block) (J : Job) (k : Cmd) : Option Nat :=
  if s.jobCredits J = 0 then some (REFUSED 0xE3)
  else if !s.nodeValid then some (NOT_READY 0xE8)
  else if !s.reachable (k.f 7 14 0) then some (NOT_READY 0xE2)
  else if !s.bit (ESK_DOMAIN J.part) 16 then some (REFUSED 0xE0)
  else none

/-- The packets of a remote command: offset and length at the peer, cut at every 256 B boundary. -/
def remoteParts (k : Cmd) : List (Nat × Nat) :=
  if k.op = 0x48 then [(k.n 2 + k.f 3 11 0 * 2 ^ 32, typeSize (k.f 3 15 14))]
  else unitParts (if k.b 7 15 then copySrc k else copyDst k) (k.n 6)

/-- The check of the near side of a remote command. -/
def Block.remoteNear (s : Block) (x : EngCtx) : Option Nat :=
  let k := x.cmd
  if k.op = 0x48 then
    (if !k.b 3 16 || s.tmOk x.tile x.routine (k.f 6 21 0) (typeSize (k.f 3 15 14)) then none else some tmRange)
  else if k.b 7 15 then
    (if remoteReduces k ∧ 0 < k.n 6 then s.redStatus x k.w3 (copyDst k) (k.n 6) else none).or
      (s.endStatus x (k.f 7 21 20) k.w3 (copyDst k) (k.n 6) true)
  else s.endStatus x (k.f 7 19 18) k.w1 (copySrc k) (k.n 6) false

/-- A remote command starts: the near side's check, and its half-rate operand. -/
def engRemoteStart (x : EngCtx) (s : Block) : Eng :=
  let k := x.cmd
  stopIf (s.remoteNear x) s fun s =>
  (OK, s.misaligned x.tile
    (if k.op = 0x48 then (if k.b 3 16 then [k.f 6 21 0] else [])
     else if k.b 7 15 then (if k.f 7 21 20 = 1 then [copyDst k] else [])
     else if k.f 7 19 18 = 1 then [copySrc k] else []))

/-- One packet of a remote command issued. ETYPE of a reduction COPY is open: the type is the destination's. -/
def Block.remotePart (s : Block) (x : EngCtx) (tag engine : Nat) (u : Nat × Nat) : Block :=
  let k := x.cmd
  let atomic := k.op == 0x48
  let ordered := atomic || !k.b 7 17
  let ptype := if atomic then 4 else if k.b 7 15 then 3 else if k.f 5 27 26 = 0 then 1 else 2
  let pos := if atomic then 0 else u.1 - (if k.b 7 15 then copySrc k else copyDst k)
  let near := copySrc k + pos
  let r := if ptype = 1 ∨ ptype = 2 then s.endRead x (k.f 7 19 18) k.w1 near u.2 (k.f 5 25 24) else (([], []), s)
  let s := r.2
  let data := if atomic then leBytes 4 (k.n 4) ++ leBytes 4 (k.n 5) else r.1.1
  let o : Outstanding :=
    { job := x.j, cluster := x.c, queue := x.q, count := x.count, tag := tag, engine := engine, port := 0, epoch := 0,
      ptype := ptype, dst := k.f 7 14 0, ordered := ordered, sent := none,
      sink := if ptype = 3 ∨ (atomic ∧ k.b 3 16) then some k else none, off := pos, len := u.2, no := 0, mover := none }
  let (e, s) := s.choose 3
  s.request o
    { ptype := ptype, vc := if ordered then 0 else 1, ordered := ordered, hops := 0, dst := k.f 7 14 0, src := s.node,
      domain := s.fld (ESK_DOMAIN x.job.part) 15 0, tag := 0, handle := if atomic then k.w1 else if k.b 7 15 then k.w1 else k.w3,
      off := u.1, op := if atomic then k.f 3 13 12 else if ptype = 2 then k.f 5 27 26 - 1 else 0,
      etype := if atomic then k.f 3 15 14 else if ptype = 2 then e else 0, fetch := atomic && k.b 3 16,
      poison := if ptype ≤ 2 then markBits (shiftMarks near 0 u.2 r.1.2) else 0, status := 0, len := data.length, data := data }

/-- Packets issued while the job's credits last: how many are out, and the block. -/
def Block.remoteIssue (s : Block) (x : EngCtx) (tag engine : Nat) : List (Nat × Nat) → Nat → Nat × Block
  | [], n => (n, s)
  | u :: l, n =>
    if s.jobOut x.j < s.jobCredits x.job then (s.remotePart x tag engine u).remoteIssue x tag engine l (n + 1)
    else (n, s)

/-- Does a queue wait for data of a peer (R298)? -/
def Block.awaitsData (s : Block) (j c q : Nat) : Bool :=
  s.esk.out.any fun e => e.2.job == j && e.2.cluster == c && e.2.queue == q && e.2.sink.isSome

end Sys2Proof.Machine
end

