-- ==== Sys2Proof/Machine/Streams.lean ====
section
/-! DEFINITION. The control core of a cluster and its engine queues: fetching, patches and substitutions, breaks,
issue, control commands, the start and completion of queued commands, pushes to Firn units, the end of a stream
(R174 to R203, R284 to R294, R298). -/

namespace Sys2Proof.Machine

/-! ### Fetching (R175, R184 to R186) -/

/-- The routine with an ID in the resident library. -/
def Block.routine (s : Block) (id : Nat) : Option Routine :=
  s.fw.library.bind fun l => l.routines.find? fun r => r.id == id

/-- A routine's entry with its arguments added. -/
def substitute (e : Cmd × Dword) (args : List Word) : Cmd :=
  (List.range 7).foldl (fun c i =>
    let n := bitsOf e.2.toNat (4 * i + 3) (4 * i)
    if n = 0 then c else c.setWord (i + 1) (c.word (i + 1) + args.getD (n - 1) 0)) e.1

/-- One patch entry applied in iteration `i`. -/
def patchWord (i : Nat) (c : Cmd) (e : Word × Word) : Cmd :=
  let w := e.1.fld 18 16
  let v := ((c.n w : Int) + i * signExt 32 e.2.toNat) % (2 ^ 64 : Int)
  let c := c.setWord w (w32 (v.toNat % 2 ^ 32))
  let k := e.1.fld 21 19
  if k = 0 then c else c.setWord k (w32 (c.n k + v.toNat / 2 ^ 32 * 2 ^ e.1.fld 26 22))

/-- The patches of one loop on the command at a position. -/
def LoopFrame.patch (f : LoopFrame) (pos : Nat) (c : Cmd) : Cmd :=
  (f.patches.filter fun e => e.1.fld 15 0 + f.pos == pos).foldl (patchWord f.iter) c

/-- The next command of a cluster, patched and substituted: outer loops first. -/
def Block.fetched (s : Block) (c : Nat) : Option Cmd :=
  let k := s.cl c
  let raw := match k.calls with
    | f :: _ => (s.routine f.routine).bind fun r => (r.entries[k.pos]?).map fun e => substitute e f.args
    | [] => (k.job.bind s.jobAt).bind fun J => (kget s.bundles J.bundle).bind fun b =>
        (b.img.streams[k.stream]?).bind fun l => l[k.pos]?
  raw.map fun x => k.loops.reverse.foldl (fun x f => f.patch k.pos x) x

/-- Does the core issue: its job runs, it is ISSUING or STALLED, no cheap point has stopped it? -/
def Block.coreReady (s : Block) (c : Nat) : Bool :=
  let k := s.cl c
  decide (c < 32) && (k.state == .issuing || k.state == .stalled) && k.cheap.isNone && !k.forced && !k.ended &&
  (match k.job.bind s.jobAt with | some J => J.state == .running | none => false)

/-! ### Breaks (R202, R203) -/

/-- Does a comparator match a command? -/
def Brk.hits (b : Brk) (count tag : Nat) : Bool :=
  b.en && (if b.tagKind then (tag &&& b.mask) == (b.value &&& b.mask) else b.value == count)

/-- A command about to be issued. -/
structure Issue where
  c : Nat
  j : Nat
  job : Job
  cmd : Cmd
  routine : Bool
  tag : Nat
  count : Nat
  deriving DecidableEq, Repr

/-- The comparator that stops a command, if one does: 2 stands for the stop of a step. -/
def Block.breakAt (s : Block) (x : Issue) : Option Nat :=
  let k := s.cl x.c
  if k.stepOver = 3 then some 2
  else if k.stepOver ≠ 0 then none
  else if k.brk0.hits x.count x.tag then some 0
  else if k.brk1.hits x.count x.tag then some 1 else none

/-- The core enters BROKEN and writes a BREAK record (R202, R386). The stop of a step reports comparator 0. -/
def Block.breakNow (s : Block) (x : Issue) (cmp : Nat) : Block :=
  let s := s.modCl x.c fun k => { k with state := .broken, stepOver := 0 }
  let s := s.forceIfAsked x.j x.c
  if x.job.step.isSome || x.job.silent then s else
  let e := jobEntry 2 x.j x.job OK x.count x.tag x.cmd.engine
  let e := (e.set 4 (w32 ((e.getD 4 0).toNat + cmp % 2 * 16777216))).set 6 (w32 (x.tag % 65536 + (s.cl x.c).stream * 65536))
  s.ringEntry x.job.fn x.job.ring e

/-! ### Issue (R175 to R179) -/

/-- The core moves on to a position: the command is counted. -/
def Block.issued (s : Block) (c pos : Nat) : Block :=
  let k := s.cl c
  let waited := k.state == .stalled
  let s := s.modCl c fun k =>
    { k with pos := pos, count := (k.count + 1) % 2 ^ 48, state := if waited then .issuing else k.state,
             stepOver := if k.stepOver = 1 then 0 else if k.stepOver = 2 then 3 else k.stepOver }
  if waited then
    let (n, s) := s.choose (2 ^ 32)
    s.bump (CCC_STALL_NS c) n
  else s

/-- The core moves on to the next command. -/
def Block.issuedNext (s : Block) (c : Nat) : Block := s.issued c ((s.cl c).pos + 1)

/-- A command refused at issue, or ended before it is issued. -/
def Block.refuseIssue (s : Block) (x : Issue) (st : Nat) : Block := s.failJob x.j st x.count x.tag x.cmd.engine

/-- The check of a semaphore name (R188). -/
def Block.semStatus (s : Block) (x : Issue) : Option Nat :=
  if x.cmd.op = 0x08 ∨ x.cmd.op = 0x09 then
    let n := x.cmd.f 1 15 0
    if s.semNameOk x.job x.routine n && (s.semRef x.j x.c n).isSome then none else some (REFUSED 0x83)
  else none

/-- Every check at issue. -/
def Block.issueChecks (s : Block) (x : Issue) : Option Nat :=
  let t := x.c * 8 + x.cmd.engine % 8
  if engineKind x.cmd.engine < 3 ∧ s.fld (FLOE_EPOCH t) 15 0 ≠ (s.cl x.c).epochs.getD (x.cmd.engine % 8) 0 then some STALE_EPOCH
  else match issueStatus x.cmd x.routine with
    | some st => some st
    | none => match s.semStatus x with
      | some st => some st
      | none => if isRemote x.cmd then s.remoteStatus x.job x.cmd else none

/-! ### Semaphores and fences (R190 to R194, R284 to R292) -/

/-- The name of a semaphore. -/
def refName : SemRef → Nat
  | .localSem _ i => i
  | .jobSem _ i => 0x4000 + i
  | .globalSem i => 0x8000 + i

/-- Does the bundle of a job ask for the check of R193? -/
def Block.scopeCheck (s : Block) (J : Job) : Bool := ((kget s.bundles J.bundle).map (·.img.scopeCheck)).getD false

/-- A holder inherits the class of a job of higher class that waits for its semaphore (R323). -/
def Block.inheritFor (s : Block) (y : Sem) (J : Job) : Block :=
  match y.holder with
  | none => s
  | some h => if (s.jobAt h).any fun H => J.ranks < H.cls then s.inheritFrom h J else s

/-- A wait of queue `q` (24 for the control core): granted at once, or queued behind the others. -/
def Block.semWaitNow (s : Block) (x : Issue) (q : Nat) : Bool × Block :=
  match s.semRef x.j x.c (x.cmd.f 1 15 0) with
  | none => (true, s)
  | some r =>
    match s.sem r with
    | none => (true, s)
    | some y =>
      let n := x.cmd.f 2 23 0
      let acq := if x.cmd.b 3 0 then some (x.cmd.f 3 3 2) else none
      if y.waiters.isEmpty ∧ n ≤ y.count then
        let s := s.semTake r x.j n (x.cmd.b 3 4)
        (true, match acq with
          | some sc => s.acquireSem x.c q sc (x.cmd.f 1 15 0) x.count y (s.scopeCheck x.job)
          | none => s)
      else
        (false, (s.inheritFor y x.job).modSem r fun y =>
          { y with waiters := y.waiters ++ [{ cluster := x.c, queue := q, cmd := x.count, amount := n, acquire := acq, hold := x.cmd.b 3 4 }] })

/-- A hold that ends lets a pending pre-emption proceed (R323). -/
def Block.holdEnded (s : Block) (j : Nat) : Block :=
  match s.jobAt j with
  | none => s
  | some J =>
    if s.holdsSem j then s else
    let s := s.modJob j fun J => { J with inherit := none, wanted := false }
    if J.wanted then s.beginPreempt j else s

/-- A signal of queue `q`: its status. -/
def Block.semSignalNow (s : Block) (x : Issue) (q : Nat) : Nat × Block :=
  match s.semRef x.j x.c (x.cmd.f 1 15 0) with
  | none => (REFUSED 0x83, s)
  | some r =>
    match s.sem r with
    | none => (REFUSED 0x83, s)
    | some y =>
      let n := x.cmd.f 2 23 0
      let hold := x.cmd.b 3 4
      if hold ∧ y.holder ≠ some x.j then (REFUSED 0x83, s)
      else
        match (if hold then s.semUnhold r else s).semAdd r n with
        | none => (REFUSED 0x85, s)
        | some s =>
          let accs := if q = 24 then [] else s.openAccs x.c fun l => l.contains q
          let s := if x.cmd.b 3 0 then
              s.modSem r fun y =>
                { y with relScope := some (x.cmd.f 3 3 2), relCluster := x.c, covers := (y.covers ++ accs.map fun a => (x.c, a)).dedup }
            else s
          (OK, if hold then s.holdEnded x.j else s)

/-- Does the command release at a scope? -/
def releaseScope (k : Cmd) : Option Nat :=
  if k.op = 0x09 then (if k.b 3 0 then some (k.f 3 3 2) else none)
  else if k.op = 0x0A then (if k.f 1 1 0 ≤ 1 then some (k.f 1 3 2) else none) else none

/-- The acquire of a FENCE. -/
def acquireScope (k : Cmd) : Option Nat := if k.op = 0x0A ∧ k.f 1 1 0 ≠ 1 then some (k.f 1 3 2) else none

/-- A signal or fence of queue `q` performed: its release, its count, its acquire. -/
def Block.syncNow (s : Block) (x : Issue) (q : Nat) : Nat × Block :=
  let s := match releaseScope x.cmd with
    | some sc => s.release x.c q sc
    | none => s
  let r := if x.cmd.op = 0x09 then s.semSignalNow x q else (OK, s)
  match acquireScope x.cmd with
  | some sc => (r.1, r.2.acquire x.c q sc)
  | none => r

/-! ### Pushes to Firn units (R195, R196, R125) -/

/-- Entry `i` of a target table. -/
def Block.target (s : Block) (c table i : Nat) : List Word :=
  (List.range 4).map fun w => s.shmWord c (table + 16 * i + 4 * w)

/-- The unit of a target entry. -/
def targetUnit (e : List Word) : Nat := (mreg e 0).fld 11 0
/-- The epoch of a target entry. -/
def targetEpoch (e : List Word) : Nat := (mreg e 0).fld 31 16

/-- The command for one target. -/
def pushCmd (tmpl : List Word) (e : List Word) (seq : Nat) : Cmd :=
  Cmd.ofWords [mreg tmpl 0, w32 seq, (mreg tmpl 2).setFld 15 0 (targetEpoch e), (mreg tmpl 3).setFld 21 0 ((mreg e 1).fld 21 0),
    (mreg tmpl 4).setFld 11 0 ((mreg e 2).fld 11 0), mreg e 3, mreg tmpl 6, mreg tmpl 7]

/-- The template of a push. -/
def Block.template (s : Block) (x : Issue) : List Word :=
  let a := x.cmd.f 1 21 0
  if x.cmd.f 1 23 22 = 0 then (List.range 8).map fun i => s.tmWord (x.c * 8) (a + 4 * i)
  else (List.range 8).map fun i => s.shmWord x.c (a + 4 * i)

/-- The checks of the table and the data of a push or a broadcast. -/
def Block.pushStatus (s : Block) (x : Issue) (t : Nat) : Option Nat :=
  let k := x.cmd
  let n := k.f 3 12 0
  let table := k.f 2 22 0
  let units := (List.range n).map fun i => targetUnit (s.target x.c table i)
  if shmEnd ≤ table then some crcRange
  else if shmEnd < table + 16 * n then some (REFUSED 0x86)
  else if k.op = 0x0C then
    (if k.f 1 23 22 = 0 then (if s.tmOk (x.c * 8) x.routine (k.f 1 21 0) 32 then none else some tmRange)
     else if k.f 1 21 0 + 32 ≤ shmEnd then none else some crcRange)
  else if !s.tmOk t x.routine (k.f 1 21 0) (32 * k.f 4 22 12) then some tmRange
  else if units.any fun u => u / 256 != (units.headD 0) / 256 then some (REFUSED 0x86)
  else none

/-- Does a push consume a mark: its table, or its template? -/
def Block.pushPoison (s : Block) (x : Issue) : Bool :=
  (s.cl x.c).shm.marked (x.cmd.f 2 22 0) (16 * x.cmd.f 3 12 0) ||
  (x.cmd.op == 0x0C && (if x.cmd.f 1 23 22 = 0 then (s.tile (x.c * 8)).mem.marked (x.cmd.f 1 21 0) 32
    else (s.cl x.c).shm.marked (x.cmd.f 1 21 0) 32))

/-- The writes that queue `q` has completed into Firn frames are performed at the bank group before what it pushes enters a
unit's queue (R294). -/
def Block.firnWritesFirst (s : Block) (c q : Nat) : Block :=
  s.performOut c fun w => w.owners.contains q && ((s.obj w.part w.slot).map (·.firn)).getD false

/-- Commands pushed from target `i` on while their units have room: how many targets are done. -/
def Block.pushFrom (s : Block) (x : Issue) : Nat → Nat → Nat × Block
  | 0, i => (i, s)
  | n + 1, i =>
    let e := s.target x.c (x.cmd.f 2 22 0) i
    let u := targetUnit e
    if s.unitOn u && !s.firnRoom u then (i, s)
    else
      let s := s.modCl x.c fun k => { k with pushSeq := (k.pushSeq + 1) % 2 ^ 32 }
      let w := pushCmd (s.template x) e (s.cl x.c).pushSeq
      (s.firnPushEntry u (.cmd (.cluster x.c x.j x.count w.tag x.cmd.engine x.routine) w)).pushFrom x n (i + 1)

/-- Bytes of broadcast data that the controller of a compute stack keeps. -/
def Block.holdSpace (s : Block) (k : Nat) : Nat :=
  let all := (s.firn.filter fun e => e.1 / 256 == k).flatMap fun e => e.2.running.toList ++ e.2.queue
  let one := (all.filterMap fun | .hold src _ _ d _ => some (src, d.length) | .cmd _ _ => none).dedup
  (one.map (·.2)).sum

/-- A broadcast: queued in every named unit once all have room and the controller has space. -/
def Block.holdNow (s : Block) (x : Issue) (t : Nat) : Bool × Block :=
  let k := x.cmd
  let es := (List.range (k.f 3 12 0)).map (s.target x.c (k.f 2 22 0))
  let n := 32 * k.f 4 22 12
  let room := es.all fun e =>
    let u := targetUnit e
    !s.unitOn u || decide ((s.fu u).queue.length + b2n (s.fu u).running.isSome + (es.filter fun y => targetUnit y == u).length ≤ 8)
  let st := ((es.headD []).headD 0).fld 11 0 / 256
  if room && decide (s.holdSpace st + n ≤ 262144) then
    let data := s.tmRead t (k.f 1 21 0) n
    let ms := shiftMarks (k.f 1 21 0) 0 n ((s.tile t).mem.marks (k.f 1 21 0) n)
    (true, s.each es fun s e => s.firnPushEntry (targetUnit e)
      (.hold (.cluster x.c x.j x.count x.tag k.engine x.routine) (targetEpoch e) (k.f 4 9 0) data ms))
  else (false, s)

/-! ### Engine queues (R177, R191, R298) -/

/-- The head of a queue changed, when it is still the same command. -/
def Block.modHead (s : Block) (c q count : Nat) (f : QEntry → QEntry) : Block :=
  s.modCl c fun k =>
    match k.queue q with
    | e :: l => if e.started && e.count == count then k.setQueue q (f e :: l) else k
    | [] => k

/-- What an engine queue knows of its head. -/
def Block.headIssue (s : Block) (c : Nat) (e : QEntry) : Option Issue :=
  ((s.cl c).job.bind fun j => (s.jobAt j).map fun J => (j, J)).map fun y =>
    { c := c, j := y.1, job := y.2, cmd := e.cmd, routine := e.routine, tag := e.tag, count := e.count }

/-- The engine's view of a command. -/
def engCtx (x : Issue) (q : Nat) : EngCtx :=
  { c := x.c, q := q, j := x.j, job := x.job, tile := x.c * 8 + q % 8, routine := x.routine, cmd := x.cmd, count := x.count }

/-- The effect of a command of an engine when it starts, local forms. A QUANT has none before it completes: a forced
pre-emption therefore finds no count and no output of it, and it runs whole after the resume (R61). -/
def engRun (x : EngCtx) (s : Block) : Eng :=
  let op := x.cmd.op
  if op = 0x20 then engMatmul x s
  else if op = 0x21 then engMatmulPacked x s
  else if op = 0x30 then engVec x s
  else if op = 0x31 then engVred x s
  else if op = 0x40 then engCopy x s
  else if op = 0x41 then engCopyStrided x s
  else if op = 0x48 then engAtomic x s
  else if op = 0x50 ∨ op = 0x51 ∨ op = 0x52 then engRows x s
  else (OK, s)

/-- What a command that started well still does when it completes: the passes of a product that are left, a QUANT. -/
def engEnd (x : EngCtx) (s : Block) : Eng :=
  let op := x.cmd.op
  if op = 0x20 ∨ op = 0x21 then engProductEnd x s else if op = 0x38 then engQuant x s else (OK, s)

/-- A command that may have to wait goes on: whether it still waits, the targets or packets done, its status. -/
def Block.goOn (s : Block) (x : Issue) (q done : Nat) : (Bool × Nat × Nat) × Block :=
  let op := x.cmd.op
  if op = 0x09 ∨ op = 0x0A then
    if releaseScope x.cmd = some 2 ∧ s.remoteOpen x.c then ((true, 0, OK), s)
    else
      let r := s.syncNow x q
      ((false, 0, r.1), r.2)
  else if op = 0x0C then
    let r := (s.firnWritesFirst x.c q).pushFrom x (x.cmd.f 3 12 0 - done) done
    ((decide (r.1 < x.cmd.f 3 12 0), r.1, OK), r.2)
  else if op = 0x0D then
    let r := (s.firnWritesFirst x.c q).holdNow x (x.c * 8 + q % 8)
    ((!r.1, 0, OK), r.2)
  else
    let parts := remoteParts x.cmd
    let r := s.remoteIssue (engCtx x q) x.tag x.cmd.engine (parts.drop done) done
    let waits := decide (r.1 < parts.length) || r.2.awaitsData x.j x.c q
    ((waits, r.1, OK), if !waits && remoteReduces x.cmd then r.2.reduceKept (engCtx x q) else r.2)

/-- The start of a queue's head: its effect, and whether it waits. -/
def Block.startEffect (s : Block) (x : Issue) (q : Nat) : (Bool × Nat × Nat) × Block :=
  let op := x.cmd.op
  let t := x.c * 8 + q % 8
  if s.tileState t = 5 then ((false, 0, NOT_READY 0x74), s)
  else if op = 0x08 then
    let r := s.semWaitNow x q
    ((!r.1, 0, OK), r.2)
  else if op = 0x09 ∨ op = 0x0A then s.goOn x q 0
  else if op = 0x0C ∨ op = 0x0D then
    match s.pushStatus x t with
    | some st => ((false, 0, st), s)
    | none => if s.pushPoison x then ((false, 0, POISONED 3), s.consumed 3 x.c 0 0) else s.goOn x q 0
  else if isRemote x.cmd then
    let r := engRemoteStart (engCtx x q) s
    if r.1 ≠ OK then ((false, 0, r.1), r.2) else r.2.goOn x q 0
  else
    let r := engRun (engCtx x q) s
    ((false, 0, r.1), r.2)

/-- The head of a queue starts, when it has not: its slot passes from HELD to FLIGHT. -/
def Block.startHead (s : Block) (c q : Nat) : Block :=
  match (s.cl c).queue q with
  | [] => s
  | e :: l =>
    if e.started then s else
    match s.headIssue c e with
    | none => s
    | some x =>
      let s := (s.modCl c fun k => k.setQueue q ({ e with started := true } :: l)).ledSend (0x80 + c) 1
      let r := (s.settleSome c).startEffect x q
      r.2.repairMet.modHead c q e.count fun e => { e with waiting := r.1.1, done := r.1.2.1, status := r.1.2.2 }

/-- A command enters its queue, or the core stalls (R175). -/
def Block.toQueue (s : Block) (x : Issue) : Block :=
  let q := x.cmd.engine
  let l := (s.cl x.c).queue q
  if 64 ≤ l.length then s.modCl x.c fun k => { k with state := .stalled, stallQ := q }
  else
    let e : QEntry := { cmd := x.cmd, count := x.count, tag := x.tag, routine := x.routine, started := false, waiting := false,
                        status := OK, done := 0, got := Store.empty }
    let s := ((s.modCl x.c fun k => k.setQueue q (l ++ [e])).ledTake (0x80 + x.c) 1).issuedNext x.c
    s.startHead x.c q

/-- The charge of a completed command (R313): engine commands of the three kinds of engine. -/
def Block.chargeCmd (s : Block) (j q : Nat) (op ns : Nat) : Block := if 0x20 ≤ op then s.charge j (q / 8) ns else s

/-- Has a queue's head started? -/
def headStarted (c q : Nat) (s : Block) : Bool :=
  decide (c < 32 ∧ q < 24) && !(s.cl c).forced && (match (s.cl c).queue q with | e :: _ => e.started | [] => false)

/-- ENGINE_COMMAND_COMPLETE: a command that waits goes on as far as it can; one that does not completes, frees its
slot, is charged `ns` and lets the next one start. -/
def engineCommandEffect (c q ns : Nat) (s : Block) : Block :=
  match (s.cl c).queue q with
  | [] => s
  | e :: l =>
    match s.headIssue c e with
    | none => s
    | some x =>
      if e.waiting then
        if e.cmd.op = 0x08 then s else
        let r := (s.settleSome c).goOn x q e.done
        r.2.repairMet.modHead c q e.count fun e => { e with waiting := r.1.1, done := r.1.2.1, status := r.1.2.2 }
      else
        let r := if e.status = OK then engEnd (engCtx x q) s else (e.status, s)
        let s := r.2.repairMet
        let s := if (List.range 4).any fun d => POISONED d == r.1 then s.bump (FLOE_CNT_POISON (c * 8 + q % 8)) else s
        let s := (s.modCl c fun k => (k.setQueue q l).fillsDone q).ledLand (0x80 + c) 1
        let s := s.chargeCmd x.j q e.cmd.op ns
        let s := if r.1 = OK then s else s.failJob x.j r.1 e.count e.tag e.cmd.engine
        s.startHead c q

/-- ENGINE_COMMAND_COMPLETE. -/
def effEngineCommandComplete (c q ns : Nat) (s : Block) : Block :=
  if headStarted c q s then engineCommandEffect c q ns s else s

/-! ### The issue of one command -/

/-- The command that the core would issue next. -/
def Block.nextIssue (s : Block) (c : Nat) : Option Issue :=
  let k := s.cl c
  match k.job with
  | none => none
  | some j =>
    match s.jobAt j, s.fetched c with
    | some J, some cmd =>
      some { c := c, j := j, job := J, cmd := cmd, routine := !k.calls.isEmpty,
             tag := if k.calls.isEmpty then cmd.tag else k.rootTag, count := k.count }
    | _, _ => none

/-- The issue of a command that has come to its turn: break, checks, then the core's own execution or the queue. -/
def Block.issueNow (s : Block) (x : Issue) (ctl : Issue → Block → Block) : Block :=
  match s.breakAt x with
  | some cmp => s.breakNow x cmp
  | none =>
    match s.issueChecks x with
    | some st => s.refuseIssue x st
    | none => if engineKind x.cmd.engine = 3 then ctl x s else s.toQueue x

/-- Is the core's next command of this opcode, and does the core issue? -/
def issueReady (c op : Nat) (s : Block) : Bool :=
  s.coreReady c && (match s.nextIssue c with | some x => x.cmd.op == op | none => false)

/-- The core of a cluster issues its next command, when it is of this opcode. -/
def Block.issue (s : Block) (c op : Nat) (ctl : Issue → Block → Block) : Block :=
  if issueReady c op s then
    match s.nextIssue c with
    | some x => s.issueNow x ctl
    | none => s
  else s

/-- A command that never runs on the control core. -/
def noCtl (x : Issue) (s : Block) : Block := s.refuseIssue x (REFUSED 0x81)

/-! ### Control commands -/

/-- NOP. -/
def ctlNop (x : Issue) (s : Block) : Block := s.issuedNext x.c

/-- A patch entry within its ranges (R184). -/
def patchOk (body : Nat) (e : Word × Word) : Bool :=
  decide (1 ≤ e.1.fld 15 0 ∧ e.1.fld 15 0 < body ∧ 1 ≤ e.1.fld 18 16)

/-- REPEAT (R182, R183): count and patch table are read here. -/
def ctlRepeat (x : Issue) (s : Block) : Block :=
  let k := x.cmd
  let ca := k.f 2 22 0
  let csrc := k.b 2 31
  let pa := k.f 4 22 0
  let pn := k.f 5 4 0
  let body := k.f 3 15 0
  let shm := (s.cl x.c).shm
  if (csrc ∧ ca % 4 ≠ 0) ∨ (pn ≠ 0 ∧ pa % 8 ≠ 0) then s.refuseIssue x badField
  else if (csrc ∧ shmEnd < ca + 4) ∨ shmEnd < pa + 8 * pn then s.refuseIssue x crcRange
  else if (csrc && shm.marked ca 4) || shm.marked pa (8 * pn) then (s.consumed 3 x.c 0 0).refuseIssue x (POISONED 3)
  else
    let count := if csrc then (shm.word ca).toNat else k.n 1
    let ps := (List.range pn).map fun i => (shm.word (pa + 8 * i), shm.word (pa + 8 * i + 4))
    let pos := (s.cl x.c).pos
    if !ps.all (patchOk body) then s.refuseIssue x badField
    else if count = 0 then s.issued x.c (pos + body + 1)
    else
      (s.modCl x.c fun k => { k with loops := { pos := pos, body := body, total := count, iter := 0, patches := ps } :: k.loops }).issuedNext x.c

/-- END_REPEAT (R183). -/
def ctlEndRepeat (x : Issue) (s : Block) : Block :=
  match (s.cl x.c).loops with
  | [] => s.issuedNext x.c
  | f :: l =>
    if f.iter + 1 < f.total then
      (s.modCl x.c fun k => { k with loops := { f with iter := f.iter + 1 } :: l }).issued x.c (f.pos + 1)
    else (s.modCl x.c fun k => { k with loops := l }).issuedNext x.c

/-- ARG0 to ARG5 of a CALL. -/
def callArgs (k : Cmd) : List Word := [k.w2, k.w3, k.w4, k.w5, k.w6, k.w7]

/-- A routine entered (R185): its first command is next, and its RETURN goes on after the CALL. -/
def Block.enterRoutine (s : Block) (x : Issue) : Block :=
  let k := s.cl x.c
  let f : CallFrame := { routine := x.cmd.f 1 15 0, retPos := k.pos + 1, loops := k.loops, args := callArgs x.cmd }
  (s.modCl x.c fun k => { k with calls := f :: k.calls, loops := [], rootTag := x.tag }).issued x.c 0

/-- CALL (R185). An attention routine does its work as a whole, once the queues of its tiles are empty: nothing is issued
before (log entry 169). Then the routine's own commands follow, as in every call. -/
def ctlCall (x : Issue) (s : Block) : Block :=
  if 4 ≤ (s.cl x.c).calls.length then s.refuseIssue x (REFUSED 0x84)
  else match s.routine (x.cmd.f 1 15 0) with
    | none => s.refuseIssue x (REFUSED 0x93)
    | some r =>
      match r.attn with
      | none => s.enterRoutine x
      | some k =>
        if s.attnFree x.c k (callArgs x.cmd) then
          let e := s.attnCall (engCtx x 0) k (callArgs x.cmd)
          if e.1 = OK then e.2.enterRoutine x else e.2.refuseIssue x e.1
        else s

/-- RETURN (R185). Region 62 holds nothing from here on (R187): it reads as memory that was never written, DEDUCED (log
entry 167). -/
def ctlReturn (x : Issue) (s : Block) : Block :=
  match (s.cl x.c).calls with
  | [] => s.refuseIssue x badField
  | f :: l =>
    let s := loop 8 (fun i s => s.modTile (x.c * 8 + i) fun t => { t with mem := t.mem.dropRegion 62 }) s
    (s.modCl x.c fun k => { k with calls := l, loops := f.loops }).issued x.c f.retPos

/-- END (R180): the core fetches nothing more. -/
def ctlEnd (x : Issue) (s : Block) : Block := (s.issuedNext x.c).modCl x.c fun k => { k with state := .ending }

/-- CHEAP_POINT (R201, R319): skipped while a hold or a remote request is out, taken when pre-emption is asked; never
taken inside a routine, where only force pre-empts (R187). -/
def ctlCheapPoint (x : Issue) (s : Block) : Block :=
  if x.routine then s.issuedNext x.c
  else if s.holdsSem x.j || decide (0 < s.jobOut x.j) then (s.bump (CCC_CHEAP_SKIPPED x.c)).issuedNext x.c
  else if (s.cl x.c).preempt then (s.issuedNext x.c).modCl x.c fun k => { k with cheap := some x.cmd }
  else s.issuedNext x.c

/-- SEM_WAIT of the control core stalls the stream until it is granted (R191). -/
def ctlSemWait (x : Issue) (s : Block) : Block :=
  let r := (s.issuedNext x.c).semWaitNow x 24
  if r.1 then r.2 else (r.2.modCl x.c fun k => { k with state := .waiting }).forceIfAsked x.j x.c

/-- SEM_SIGNAL and FENCE of the control core (R191, R287). -/
def ctlSync (x : Issue) (s : Block) : Block :=
  let r := s.syncNow x 24
  if r.1 = OK then r.2.issuedNext x.c else r.2.refuseIssue x r.1

/-- FIRN_PUSH of the control core: the stream goes on when every command has entered its unit's queue. -/
def ctlFirnPush (x : Issue) (s : Block) : Block :=
  match s.pushStatus x 0 with
  | some st => s.refuseIssue x st
  | none =>
    if s.pushPoison x then (s.consumed 3 x.c 0 0).refuseIssue x (POISONED 3)
    else
      let d := (s.cl x.c).pushDone
      let r := s.pushFrom x (x.cmd.f 3 12 0 - d) d
      if r.1 < x.cmd.f 3 12 0 then r.2.modCl x.c fun k => { k with pushDone := r.1 }
      else (r.2.modCl x.c fun k => { k with pushDone := 0 }).issuedNext x.c

/-- The next command of a routine, when no opcode of R179 is its own: its issue ends the job with UNSUPPORTED. The table of
commands has no row for it, so the NOP row stands for its issue too: DESIGN CHOICE (log entry 166). -/
def Block.issueUnknown (s : Block) (c : Nat) : Block :=
  match s.nextIssue c with
  | some x => if s.coreReady c && (opKinds x.cmd.op).isEmpty then s.issueNow x noCtl else s
  | none => s

/-- NOP. -/
def effNop (c : Nat) (s : Block) : Block := if issueReady c 0x00 s then s.issue c 0x00 ctlNop else s.issueUnknown c
def effRepeatCmd (c : Nat) (s : Block) : Block := s.issue c 0x01 ctlRepeat
def effEndRepeat (c : Nat) (s : Block) : Block := s.issue c 0x02 ctlEndRepeat
def effCall (c : Nat) (s : Block) : Block := s.issue c 0x03 ctlCall
def effReturnCmd (c : Nat) (s : Block) : Block := s.issue c 0x04 ctlReturn
def effEndCmd (c : Nat) (s : Block) : Block := s.issue c 0x05 ctlEnd
def effCheapPoint (c : Nat) (s : Block) : Block := s.issue c 0x06 ctlCheapPoint
def effSemWait (c : Nat) (s : Block) : Block := s.issue c 0x08 ctlSemWait
def effSemSignal (c : Nat) (s : Block) : Block := s.issue c 0x09 ctlSync
def effFence (c : Nat) (s : Block) : Block := s.issue c 0x0A ctlSync
def effFirnPush (c : Nat) (s : Block) : Block := s.issue c 0x0C ctlFirnPush
def effFirnHold (c : Nat) (s : Block) : Block := s.issue c 0x0D noCtl
def effMatmul (c : Nat) (s : Block) : Block := s.issue c 0x20 noCtl
def effMatmulPacked (c : Nat) (s : Block) : Block := s.issue c 0x21 noCtl
def effVec (c : Nat) (s : Block) : Block := s.issue c 0x30 noCtl
def effVred (c : Nat) (s : Block) : Block := s.issue c 0x31 noCtl
def effQuant (c : Nat) (s : Block) : Block := s.issue c 0x38 noCtl
def effCopy (c : Nat) (s : Block) : Block := s.issue c 0x40 noCtl
def effCopyStrided (c : Nat) (s : Block) : Block := s.issue c 0x41 noCtl
def effAtomic (c : Nat) (s : Block) : Block := s.issue c 0x48 noCtl
def effGather (c : Nat) (s : Block) : Block := s.issue c 0x50 noCtl
def effScatter (c : Nat) (s : Block) : Block := s.issue c 0x51 noCtl
def effScatterAdd (c : Nat) (s : Block) : Block := s.issue c 0x52 noCtl

/-! ### SEM_WAIT_GRANT (R192 to R194) -/

/-- The job for which a waiter waits. -/
def Block.waiterJob (s : Block) (w : Waiter) : Option Nat := (s.cl w.cluster).job

/-- The first waiter of a semaphore, when the count reaches its amount. -/
def Block.grantable (s : Block) (r : SemRef) : Option (Sem × Waiter × Nat) :=
  match s.sem r with
  | none => none
  | some y =>
    match y.waiters with
    | [] => none
    | w :: _ => if w.amount ≤ y.count then (s.waiterJob w).map fun j => (y, w, j) else none

/-- A waiter goes on: its queue's head completes, or its control core issues again. -/
def Block.wake (s : Block) (w : Waiter) : Block :=
  s.modCl w.cluster fun k =>
    if w.queue = 24 then { k with state := if k.state == .waiting then .issuing else k.state }
    else match k.queue w.queue with
      | e :: l => k.setQueue w.queue ({ e with waiting := false } :: l)
      | [] => k

/-- SEM_WAIT_GRANT: the first waiter takes its amount, and its acquire is done. -/
def effSemWaitGrant (r : SemRef) (s : Block) : Block :=
  match s.grantable r with
  | none => s
  | some (y, w, j) =>
    let s := s.modSem r fun y => { y with waiters := y.waiters.drop 1 }
    let s := s.semTake r j w.amount w.hold
    let check := ((s.jobAt j).map s.scopeCheck).getD false
    let s := match w.acquire with
      | some sc => s.acquireSem w.cluster w.queue sc (refName r) w.cmd y check
      | none => s
    s.wake w

/-! ### STREAM_END (R180, R181, R292) -/

/-- Does a Firn unit hold a command that cluster `c` pushed for job `j`? -/
def Block.firnBusy (s : Block) (c j : Nat) : Bool :=
  s.firn.any fun e => (e.2.running.toList ++ e.2.queue).any fun x =>
    match x.src with
    | .cluster d i _ _ _ _ => d == c && i == j
    | .host => false

/-- Has a stream ended: END issued or its job failed, its queues empty, its Firn commands complete, its remote
operations acknowledged? -/
def streamEndReady (c : Nat) (s : Block) : Bool :=
  let k := s.cl c
  decide (c < 32) && k.state == .ending && !k.ended && k.queues.isEmpty &&
  (match k.job with
   | some j => !s.firnBusy c j && !s.esk.out.any fun e => e.2.job == j && e.2.cluster == c
   | none => false)

/-- The numeric counters of a cluster's tiles, summed (R62). -/
def Block.clusterNums (s : Block) (c : Nat) : List Nat :=
  (List.range 8).foldl (fun a i => addLists a (s.numCounters (c * 8 + i))) []

/-- STREAM_END: the system release, the counters, and with the last stream the end of the job. -/
def streamEndEffect (c : Nat) (s : Block) : Block :=
  match (s.cl c).job with
  | none => s
  | some j =>
    let s := s.releaseAll c
    let s := s.modJob j fun J => { J with numSums := addLists J.numSums (s.clusterNums c) }
    let s := s.modCl c fun k => { k with ended := true, state := .idle }
    match s.jobAt j with
    | some J => if J.clusters.all fun d => (s.cl d).ended then s.finishJob j else s
    | none => s

/-- STREAM_END, when the stream has ended. -/
def effStreamEnd (c : Nat) (s : Block) : Block := if streamEndReady c s then streamEndEffect c s else s

/-! ### Meanings -/

/-- The meaning of NOP. -/
def execNop (c : Nat) : State → Host.Outcome State Fault Refusal := onBlk (effNop c)
/-- The meaning of REPEAT. -/
def execRepeatCmd (c : Nat) : State → Host.Outcome State Fault Refusal := onBlk (effRepeatCmd c)
/-- The meaning of END_REPEAT. -/
def execEndRepeat (c : Nat) : State → Host.Outcome State Fault Refusal := onBlk (effEndRepeat c)
/-- The meaning of CALL. -/
def execCall (c : Nat) : State → Host.Outcome State Fault Refusal := onBlk (effCall c)
/-- The meaning of RETURN. -/
def execReturnCmd (c : Nat) : State → Host.Outcome State Fault Refusal := onBlk (effReturnCmd c)
/-- The meaning of END. -/
def execEndCmd (c : Nat) : State → Host.Outcome State Fault Refusal := onBlk (effEndCmd c)
/-- The meaning of STREAM_END. -/
def execStreamEnd (c : Nat) : State → Host.Outcome State Fault Refusal := onBlk (effStreamEnd c)
/-- The meaning of CHEAP_POINT. -/
def execCheapPoint (c : Nat) : State → Host.Outcome State Fault Refusal := onBlk (effCheapPoint c)
/-- The meaning of SEM_WAIT. -/
def execSemWait (c : Nat) : State → Host.Outcome State Fault Refusal := onBlk (effSemWait c)
/-- The meaning of SEM_WAIT_GRANT. -/
def execSemWaitGrant (r : SemRef) : State → Host.Outcome State Fault Refusal := onBlk (effSemWaitGrant r)
/-- The meaning of SEM_SIGNAL. -/
def execSemSignal (c : Nat) : State → Host.Outcome State Fault Refusal := onBlk (effSemSignal c)
/-- The meaning of FENCE. -/
def execFence (c : Nat) : State → Host.Outcome State Fault Refusal := onBlk (effFence c)
/-- The meaning of FIRN_PUSH. -/
def execFirnPush (c : Nat) : State → Host.Outcome State Fault Refusal := onBlk (effFirnPush c)
/-- The meaning of FIRN_HOLD. -/
def execFirnHold (c : Nat) : State → Host.Outcome State Fault Refusal := onBlk (effFirnHold c)
/-- The meaning of MATMUL. -/
def execMatmul (c : Nat) : State → Host.Outcome State Fault Refusal := onBlk (effMatmul c)
/-- The meaning of MATMUL_PACKED. -/
def execMatmulPacked (c : Nat) : State → Host.Outcome State Fault Refusal := onBlk (effMatmulPacked c)
/-- The meaning of VEC. -/
def execVec (c : Nat) : State → Host.Outcome State Fault Refusal := onBlk (effVec c)
/-- The meaning of VRED. -/
def execVred (c : Nat) : State → Host.Outcome State Fault Refusal := onBlk (effVred c)
/-- The meaning of QUANT. -/
def execQuant (c : Nat) : State → Host.Outcome State Fault Refusal := onBlk (effQuant c)
/-- The meaning of COPY. -/
def execCopy (c : Nat) : State → Host.Outcome State Fault Refusal := onBlk (effCopy c)
/-- The meaning of COPY_STRIDED. -/
def execCopyStrided (c : Nat) : State → Host.Outcome State Fault Refusal := onBlk (effCopyStrided c)
/-- The meaning of ATOMIC. -/
def execAtomic (c : Nat) : State → Host.Outcome State Fault Refusal := onBlk (effAtomic c)
/-- The meaning of GATHER. -/
def execGather (c : Nat) : State → Host.Outcome State Fault Refusal := onBlk (effGather c)
/-- The meaning of SCATTER. -/
def execScatter (c : Nat) : State → Host.Outcome State Fault Refusal := onBlk (effScatter c)
/-- The meaning of SCATTER_ADD. -/
def execScatterAdd (c : Nat) : State → Host.Outcome State Fault Refusal := onBlk (effScatterAdd c)
/-- The meaning of ENGINE_COMMAND_COMPLETE. -/
def execEngineCommandComplete (c : Nat) (q : Nat) (ns : Nat) : State → Host.Outcome State Fault Refusal := onBlk (effEngineCommandComplete c q ns)

end Sys2Proof.Machine
end

