-- ==== Sys2Proof/Machine/Bundles.lean ====
section
/-! DEFINITION. Bundles and their admission, the checks of streams and Firn micro-programs, breaks and GLOBAL
semaphores by message (R128, R136, R202 to R206, R317). -/

namespace Sys2Proof.Machine

/-! ### Streams (R206 check 3) -/

/-- Loops matched and no deeper than four. `ends i` is the closing index of a loop that opens at `i`. -/
def nestOk (ends : Nat → Option Nat) (closes : Nat → Bool) (n : Nat) : Nat → List Nat → Bool
  | 0, st => st.isEmpty
  | k + 1, st =>
    let i := n - (k + 1)
    match ends i with
    | some e => decide (i < e ∧ e < n) && closes e && st.head?.all (e < ·) && decide (st.length < 4) &&
        nestOk ends closes n k (e :: st)
    | none => if closes i then (match st with | e :: r => e == i && nestOk ends closes n k r | [] => false)
      else nestOk ends closes n k st

/-- The closing index of a REPEAT. -/
def repeatEnd (l : List Cmd) (i : Nat) : Option Nat :=
  l[i]?.bind fun k => if k.op = 0x01 then some (i + k.f 3 15 0) else none

/-- One stream's checks: opcodes and engines, loops, no RETURN, listed CALLs, END at the end. -/
def streamOk (routines : List Nat) (l : List Cmd) : Bool :=
  (l.all fun k => (opKinds k.op).contains (engineKind k.engine) && k.op != 0x04 &&
    (k.op != 0x03 || routines.contains (k.f 1 15 0))) &&
  nestOk (repeatEnd l) (fun i => (l[i]?.map (·.op)) == some 0x02) l.length l.length [] &&
  (l.getLast?.map (·.op)) == some 0x05

/-! ### Firn micro-programs (R128, R129, R136) -/

/-- Is the opcode defined, are reserved fields 0, is every field in its range, does a MAC take whole units? -/
def microOk (w : Dword) : Bool :=
  let op := mop w
  let z (hi lo : Nat) := mf w hi lo == 0
  if op = 0x01 then decide (mf w 57 56 ≤ 2 ∧ 1 ≤ mf w 23 12 ∧ mf w 23 12 ≤ 2048) &&
    (mf w 57 56 != 2 || decide (mf w 11 2 ≤ 127)) && z 1 0
  else if op = 0x08 then decide (1 ≤ mf w 56 53 ∧ mf w 56 53 ≤ 5) && decide (mf w 18 9 * 32 * fmtBits (mf w 56 53) % 256 = 0) &&
    (mf w 57 57 == 0 || decide (mf w 18 9 ≤ 4)) && z 0 0
  else if op = 0x10 then decide (mf w 54 47 ≤ 128) && z 28 0
  else if op = 0x11 then decide (mf w 54 47 ≤ 128) && z 19 0
  else if op = 0x18 then z 35 0
  else if op = 0x20 then decide (mf w 57 56 ≤ 2) && z 10 0
  else if op = 0x28 ∨ op = 0x29 then decide (mf w 55 54 ≤ 2) && z 30 0
  else if op = 0x2C ∨ op = 0x2D then decide (mf w 49 48 ≤ 2) && z 24 0
  else if op = 0x30 then decide (1 ≤ mf w 40 31) && z 30 0
  else if op = 0x31 then z 25 0
  else if op = 0x38 ∨ op = 0x3C then z 57 0
  else false

/-- The cost of a micro-instruction in steps (R129). -/
def microCost (w : Dword) : Nat :=
  let op := mop w
  if op = 0x01 then (if mf w 57 56 = 0 then 2 else 2 + mf w 23 12)
  else if op = 0x08 then mf w 52 41
  else if op = 0x10 then 4
  else if op = 0x11 then 2 + ceilDiv ((mf w 57 55 + 1) * mf w 54 47) 64
  else if op = 0x18 then 2
  else if op = 0x20 then mf w 22 11
  else if op = 0x28 ∨ op = 0x29 then ceilDiv (5 * mf w 42 31) 4
  else if op = 0x2C ∨ op = 0x2D then ceilDiv (5 * mf w 36 25) 8
  else 1

/-- Is the instruction a transfer between units? -/
def isTransfer (w : Dword) : Bool := [0x28, 0x29, 0x2C, 0x2D].contains (mop w)
/-- Is the instruction a yield point? -/
def isYield (w : Dword) : Bool := mop w == 0x38 || isTransfer w

/-- What the paths through a stretch of program contain, as (instructions, steps), the worst of each: paths
without a yield point, the part before the first yield point or FENCEC, the part after the last yield point,
and whether every segment that lies within keeps the bound. -/
structure Seg where
  through : Option (Nat × Nat)
  first : Option (Nat × Nat)
  last : Option (Nat × Nat)
  ok : Bool
  deriving DecidableEq, Repr

/-- The worse of two. -/
def segMax (a b : Option (Nat × Nat)) : Option (Nat × Nat) :=
  match a, b with
  | some x, some y => some (max x.1 y.1, max x.2 y.2)
  | none, y => y
  | x, none => x

/-- One after the other. -/
def segAdd (a b : Option (Nat × Nat)) : Option (Nat × Nat) :=
  match a, b with
  | some x, some y => some (x.1 + y.1, x.2 + y.2)
  | _, _ => none

/-- The bound of R136. -/
def segFits (a : Option (Nat × Nat)) : Bool := a.all fun x => decide (x.1 ≤ 512 ∧ x.2 ≤ 1720)

/-- A stretch that holds nothing. -/
def Seg.unit : Seg := { through := some (0, 0), first := none, last := none, ok := true }
/-- Two stretches, one after the other. -/
def Seg.then (a b : Seg) : Seg :=
  { through := segAdd a.through b.through, first := segMax a.first (segAdd a.through b.first),
    last := segMax b.last (segAdd a.last b.through), ok := a.ok && b.ok && segFits (segAdd a.last b.first) }
/-- Either of two stretches. -/
def Seg.or (a b : Seg) : Seg :=
  { through := segMax a.through b.through, first := segMax a.first b.first, last := segMax a.last b.last, ok := a.ok && b.ok }
/-- A stretch `n` times. -/
def Seg.times (a : Seg) (n : Nat) : Seg := loop n (fun _ x => x.then a) Seg.unit

/-- One instruction. A YIELD counts in no segment; a transfer starts one. -/
def microSeg (w : Dword) : Seg :=
  let c := microCost w
  if mop w = 0x38 then { through := none, first := some (0, 0), last := some (0, 0), ok := true }
  else if isTransfer w then { through := none, first := some (0, 0), last := some (1, c), ok := true }
  else if mop w = 0x3C then { through := none, first := some (1, c), last := none, ok := true }
  else { through := some (1, c), first := none, last := none, ok := true }

/-- The stretch from index `lo` up to `hi`. A count in a register stands for any count: past the bound, more
iterations add nothing. -/
def progSeg (prog : List Dword) : Nat → Nat → Nat → Seg
  | 0, _, _ => Seg.unit
  | f + 1, lo, hi =>
    if hi ≤ lo then Seg.unit else
    match prog[lo]? with
    | none => Seg.unit
    | some w =>
      if mop w = 0x30 then
        let e := lo + mf w 40 31
        let body := (progSeg prog f (lo + 1) e).then (microSeg (prog.getD e 0))
        let all := if mf w 57 57 = 0 then body.times (mf w 56 45) else (body.or Seg.unit).times 513
        ((microSeg w).then all).then (progSeg prog f (e + 1) hi)
      else (microSeg w).then (progSeg prog f (lo + 1) hi)

/-- The closing index of a LOOP. -/
def loopEnd (prog : List Dword) (i : Nat) : Option Nat :=
  prog[i]?.bind fun w => if mop w = 0x30 then some (i + mf w 40 31) else none

/-- Does a loop with a count in a register lack a yield point inside? -/
def blindLoop (prog : List Dword) (i : Nat) : Bool :=
  match prog[i]? with
  | some w => mop w == 0x30 && mf w 57 57 == 1 && !((prog.drop (i + 1)).take (mf w 40 31)).any isYield
  | none => false

/-- The paths from every entry index. -/
def entrySegs (prog : List Dword) : List Seg :=
  ((List.range prog.length).filter fun i => !inLoopBody prog i).map fun i => progSeg prog (prog.length + 1) i prog.length

/-- The checks of a bundle's micro-programs. -/
def firnProgStatus (prog : List Dword) : Option Nat :=
  let n := prog.length
  if !prog.all microOk then some (REFUSED 0x6A)
  else if !nestOk (loopEnd prog) (fun i => (prog[i]?.map mop) == some 0x31) n n [] then some (REFUSED 0x6A)
  else if (List.range n).any (blindLoop prog) then some (REFUSED 0x6A)
  else if (entrySegs prog).any fun x => x.through.isSome || x.last.isSome then some (REFUSED 0x6A)
  else if (entrySegs prog).all fun x => x.ok && segFits x.first then none else some (REFUSED 0x69)

/-! ### Room for a bundle -/

/-- The loaded bundles of a partition. -/
def Block.partBundles (s : Block) (p : Nat) : Tbl Bundle := s.bundles.filter fun b => b.2.part == p

/-- The starts at which `n` instructions of store are free in a partition. -/
def Block.storeStarts (s : Block) (p n : Nat) : List Nat :=
  (List.range (1025 - n)).filter fun i =>
    (s.partBundles p).all fun b => decide (i + n ≤ b.2.firnBase ∨ b.2.firnBase + b.2.img.firnStore ≤ i)

/-- The slot of the hidden object that holds a bundle's save areas and its part of the store image. -/
def saveSlot (b : Nat) : Nat := 16777216 + b

/-- Frames, of 2,048 KiB, of the save areas of a bundle: SAVE_BUDGET and 8 MiB for each stream (R317). -/
def saveFrames (i : BundleImage) : Nat := ceilDiv (i.streams.length * (i.saveBudget + 8192)) 2048

/-- Frames of the bundle's part of the partition's store image (R128): 8 bytes for each of at most 1,024 micro-instructions
fit in one. DESIGN CHOICE, log entry 170. -/
def storeFrames (i : BundleImage) : Nat := if i.firnStore = 0 then 0 else 1

/-- An object that only holds frames. -/
def hiddenObj (b : Nat) : Obj :=
  { gen := 0, owner := 64, bundle := b, desc := [], data := Store.empty, lag := [], frames := [], pieces := [], migrations := 0,
    hintsMissed := 0, golden := 0, g0 := 0, g1 := 0, damaged := false, dying := false, split := [], member := 0 }

/-- Frames taken for a hidden object, capacity stacks preferred (R317). -/
def Block.placeHidden (s : Block) (pn : Nat) (p : Part) (slot : Nat) : Nat → Option Block
  | 0 => some s
  | n + 1 =>
    match s.placeHidden pn p slot n with
    | none => none
    | some s =>
      let room (l : List Nat) := l.filter fun k => decide (32 ≤ s.stackFree pn p k)
      let c := if (room p.capacity).isEmpty then room p.compute else room p.capacity
      if c.isEmpty then none else
      let (k, s) := s.pick c 0
      some (s.modObj pn slot fun o => { o with frames := o.frames ++ [s.stripedFrame p 0 n k] })

/-- A hidden object of `n` frames made. -/
def Block.makeHidden (s : Block) (pn : Nat) (p : Part) (slot b n : Nat) : Option Block :=
  ((s.setObj pn slot (hiddenObj b)).placeHidden pn p slot n).map fun s =>
    match s.obj pn slot with
    | some o => s.framesTaken pn o
    | none => s

/-- Pages of the compute stacks that a partition has. -/
def Block.computePages (s : Block) (p : Part) : Nat := (p.compute.map (s.stackPages p)).sum

/-- Pages that bundles have reserved. -/
def Block.reservedPages (s : Block) (p : Nat) : Nat := ((s.partBundles p).map fun b => b.2.img.minPages).sum

/-- Credits that bundles have reserved (R363). -/
def Block.reservedCredits (s : Block) (p : Nat) : Nat := ((s.partBundles p).map fun b => b.2.img.eskerCredits).sum

/-- Pages of compute stacks that frames take. -/
def Block.computeFrames (s : Block) (pn : Nat) (p : Part) : Nat := (p.compute.map (s.stackFrames pn)).sum

/-! ### Golden copies (R205) -/

/-- Can a golden copy be read: in host memory, or on a node that a route reaches? -/
def Block.goldenOk (s : Block) (f : Nat) (g : Nat) (g0 g1 : Word) (n : Nat) : Bool :=
  if g = 1 then (s.hostReadStatus f (g0.toNat + 2 ^ 32 * g1.toNat) n).isNone
  else if g = 2 then s.nodeValid && s.reachable (g0.fld 14 0) else true

/-- The bytes of a golden copy; those of a peer are open. -/
def Block.goldenRead (s : Block) (g : Nat) (g0 g1 : Word) (off n : Nat) : List Byte × Block :=
  if g = 1 then (s.hostRead (g0.toNat + 2 ^ 32 * g1.toNat + off) n, s)
  else ((List.range n).map fun i => BitVec.ofNat 8 (Config.free (s.freeCtr + i)), { s with freeCtr := s.freeCtr + n })

/-- An object filled from its golden copy. -/
def Block.fillGolden (s : Block) (p slot : Nat) : Block :=
  match s.obj p slot with
  | none => s
  | some o =>
    if o.golden = 0 then s else
    let r := s.goldenRead o.golden o.g0 o.g1 0 (viewEnd o.desc)
    r.2.modObj p slot fun o => o.write 0 r.1 []

/-! ### The image in host memory (R205) -/

/-- An image that lies in host memory: its reader of words and its length. -/
structure ImageAt where
  word : Nat → Word
  len : Nat

/-- Two words as one of 64 bits, LO first. -/
def dword (lo hi : Word) : Dword := hi ++ lo

/-- A field of a word of the image's header. -/
def ImageAt.h (i : ImageAt) (w hi lo : Nat) : Nat := (i.word (4 * w)).fld hi lo

/-- The offset of section `k`: streams 0, routine and semaphore lists 1, object list 2, Firn programs 3. -/
def ImageAt.start (i : ImageAt) (k : Nat) : Nat := (i.word (4 * (12 + k))).toNat

/-- The end of section `k`: the next section's offset, or the end of the image. DESIGN CHOICE, log entry 50. -/
def ImageAt.stop (i : ImageAt) (k : Nat) : Nat :=
  (((List.range 4).map i.start).filter fun x => decide (i.start k < x)).foldl min i.len

/-- The command at an offset. -/
def ImageAt.cmd (i : ImageAt) (a : Nat) : Cmd := Cmd.ofWords ((List.range 8).map fun k => i.word (a + 4 * k))

/-- The streams of a section that has room for `n` more commands from offset `a` on, `cur` of the open stream read so far:
each runs to its END, and what follows the last END is a stream that has none. -/
def ImageAt.streamsFrom (i : ImageAt) : Nat → Nat → List Cmd → List (List Cmd)
  | 0, _, cur => if cur.isEmpty then [] else [cur]
  | n + 1, a, cur =>
    let k := i.cmd a
    if k.op = 0x05 then (cur ++ [k]) :: i.streamsFrom n (a + 32) [] else i.streamsFrom n (a + 32) (cur ++ [k])

/-- The streams of the header's count; one that the section does not hold is empty. -/
def ImageAt.streams (i : ImageAt) : List (List Cmd) :=
  let l := i.streamsFrom ((i.stop 0 - i.start 0) / 32) (i.start 0) []
  (List.range (i.h 0 13 8)).map fun k => l.getD k []

/-- The routine list: 4 bytes for each entry. -/
def ImageAt.routines (i : ImageAt) : List (Nat × Nat) :=
  (List.range (i.h 11 15 0)).map fun k =>
    let w := i.word (i.start 1 + 4 * k)
    (w.fld 15 0, w.fld 23 16)

/-- The semaphore list: 8 bytes for each entry, from the end of the routine list to the end of the section. -/
def ImageAt.sems (i : ImageAt) : List (Nat × Nat × Nat) :=
  let a := i.start 1 + 4 * i.h 11 15 0
  (List.range ((i.stop 1 - a) / 8)).map fun k =>
    ((i.word (a + 8 * k)).fld 15 14, (i.word (a + 8 * k)).fld 11 0, (i.word (a + 8 * k + 4)).fld 23 0)

/-- The object list: 64 bytes for each entry. -/
def ImageAt.objects (i : ImageAt) : List ObjEntry :=
  (List.range (i.h 11 31 16)).map fun k =>
    let w (n : Nat) : Word := i.word (i.start 2 + 64 * k + 4 * n)
    { desc := (List.range 13).map w, golden := (w 13).fld 1 0, g0 := w 14, g1 := w 15 }

/-- The image as its loader reads it. -/
def ImageAt.image (i : ImageAt) : BundleImage :=
  { version := i.h 0 7 0, streams := i.streams, scopeCheck := (i.word 0).bit 16,
    bundleId := dword (i.word 4) (i.word 8), tmRegions := i.h 3 5 0, saveBudget := (i.word 16).toNat,
    numCtrl := i.word 20, rngKey := dword (i.word 24) (i.word 28), minPages := (i.word 32).toNat,
    eskerCredits := i.h 9 15 0, firnStore := i.h 10 10 0, semLocal := i.h 10 21 11, semJob := i.h 10 30 22,
    routines := i.routines, sems := i.sems, objects := i.objects,
    firn := (List.range (i.h 10 10 0)).map fun k => dword (i.word (i.start 3 + 8 * k)) (i.word (i.start 3 + 8 * k + 4)) }

/-- Do the header, the offsets and the counts lie within the image (check 2)? -/
def ImageAt.inside (i : ImageAt) : Bool :=
  decide (64 ≤ i.len) && (List.range 4).all fun k => decide (64 ≤ i.start k) &&
    decide (i.start k + [32 * i.h 0 13 8, 4 * i.h 11 15 0, 64 * i.h 11 31 16, 8 * i.h 10 10 0].getD k 0 ≤ i.len)

/-- The image of a BUNDLE_LOAD. -/
def Block.imageAt (s : Block) (a n : Nat) : ImageAt := { word := fun o => s.hostWord (a + o), len := n }

/-! ### Admission (R206) -/

/-- Check 2: the header's ranges. -/
def headerOk (i : BundleImage) : Bool :=
  decide (1 ≤ i.streams.length ∧ i.streams.length ≤ 32 ∧ 1 ≤ i.tmRegions ∧ i.tmRegions ≤ 62) &&
  decide (i.firnStore ≤ 1024 ∧ i.semLocal ≤ 1008 ∧ i.semJob ≤ 256) &&
  i.objects.all fun o => decide (o.golden < 3)

/-- The least SAVE_BUDGET (check 9). -/
def leastBudget (i : BundleImage) : Nat := 8 * ((i.tmRegions + (if i.routines.isEmpty then 0 else 1)) * 64 + 1664)

/-- Does an entry of the semaphore list name a LOCAL or JOB semaphore of the bundle? -/
def semEntryOk (i : BundleImage) (e : Nat × Nat × Nat) : Bool :=
  (e.1 == 0 && decide (e.2.1 < i.semLocal)) || (e.1 == 1 && decide (e.2.1 < i.semJob))

/-- Checks 1 to 11, in order, on a partition; `inside` is the part of check 2 that regards the image's bytes. -/
def Block.bundleStatus (s : Block) (f pn : Nat) (p : Part) (inside : Bool) (i : BundleImage) : Option Nat :=
  need (decide (i.version = 2)) (UNSUPPORTED 0x90) <|
  need (inside && headerOk i) (REFUSED 0x91) <|
  need (i.streams.all (streamOk (i.routines.map (·.1)))) (REFUSED 0x92) <|
  need (i.routines.all fun r => (s.routine r.1).any fun x => decide (r.2 ≤ x.version)) (REFUSED 0x93) <|
  need (decide (i.numCtrl.fld 17 16 ≠ 3)) (REFUSED 0x32) <|
  match firnProgStatus i.firn with
  | some st => some st
  | none =>
    need (!(s.storeStarts pn i.firnStore).isEmpty) (NO_SPACE 0x6B) <|
    match i.objects.findSome? fun o => s.descChecks pn p o.desc with
    | some st => some st
    | none =>
      need (decide (i.streams.length ≤ (s.partClusters p).length)) (REFUSED 0x94) <|
      need (decide (leastBudget i ≤ i.saveBudget)) (REFUSED 0x95) <|
      need (decide (i.minPages ≤ s.computePages p)) (REFUSED 0x97) <|
      need (decide (i.eskerCredits ≤ s.fld (ESK_ALLOT pn) 16 0)) (REFUSED 0x99) <|
      need (i.sems.all (semEntryOk i)) (REFUSED 0x9B) <|
      need (i.objects.all fun o => s.goldenOk f o.golden o.g0 o.g1 (viewEnd o.desc)) (NOT_READY 0x9C) allOk

/-- The objects of a bundle created in turn: their slots, or the status of the first that cannot be. -/
def Block.createAll (s : Block) (pn f b : Nat) : List ObjEntry → Except Nat (List Nat × Block)
  | [] => .ok ([], s)
  | e :: l =>
    match s.create pn f b e.desc e.golden e.g0 e.g1 with
    | .error st => .error st
    | .ok (slot, s) =>
      match s.createAll pn f b l with
      | .error st => .error st
      | .ok (slots, s) => .ok (slot :: slots, s)

/-- A bundle number that is free, an open choice. -/
def Block.bundleNumber (s : Block) : Option Nat × Block :=
  let start := s.freeVal
  (((List.range (s.bundles.length + 1)).find? fun i =>
    decide (s.bundles.length < 65535) && (kget s.bundles ((start + i) % 65535 + 1)).isNone).map fun i => (start + i) % 65535 + 1,
    s.drawn)

/-- The bundle enters the table at a store range that is free. -/
def Block.enterBundle (s : Block) (f pn b : Nat) (i : BundleImage) (slots : List Nat) : Block :=
  let q := s.pick (s.storeStarts pn i.firnStore) 0
  let s := q.2.each slots fun s k => s.fillGolden pn k
  { s with
    bundles := kput s.bundles b { part := pn, forFn := f, img := i, slots := slots, firnBase := q.1, model := false } }

/-- Is there room for a bundle beside the frames that it has taken? -/
def Block.roomStatus (s s3 : Block) (pn : Nat) (p : Part) (i : BundleImage) : Option Nat :=
  need (decide (32 * s3.computeFrames pn p + s.reservedPages pn + i.minPages ≤ s.computePages p)) (NO_SPACE 0x98) <|
  need (decide (s.reservedCredits pn + i.eskerCredits ≤ s.fld (ESK_ALLOT pn) 16 0)) (NO_SPACE 0x9A) allOk

/-- Check 12 and admission: the bundle's number, or the status; a refused bundle leaves nothing behind. -/
def Block.takeBundle (s : Block) (f pn : Nat) (p : Part) (i : BundleImage) : Except Nat (Nat × Block) :=
  match s.bundleNumber.1 with
  | none => .error (NO_SPACE 0)
  | some b =>
    match s.bundleNumber.2.createAll pn f b i.objects with
    | .error st => .error st
    | .ok (slots, s2) =>
      match s2.makeHidden pn p (saveSlot b) b (saveFrames i + storeFrames i) with
      | none => .error (NO_SPACE 0x96)
      | some s3 =>
        match s.roomStatus s3 pn p i with
        | some st => .error st
        | none => .ok (b, s3.enterBundle f pn b i slots)

/-- BUNDLE_LOAD of the image that the host holds at the message's address (R206). -/
def effBundleLoad (ch : Chan) (img : List Byte) (s : Block) : Block :=
  (s.hostImage ch 0x0401 1 img).message ch 0x0401 fun s ws => s.msgPart ch fun pn =>
    let f := chFn ch
    let at_ := s.imageAt (mpair ws 1) (mreg ws 3).toNat
    let img := at_.image
    match s.hostReadStatus f (mpair ws 1) (mreg ws 3).toNat, s.part pn with
    | some st, _ => s.no st
    | none, none => s.no (DENIED 0xD9)
    | none, some p =>
      match s.bundleStatus f pn p at_.inside img with
      | some st =>
        if st = REFUSED 0x32 then
          (s.event (srcCore 1) 0x0B02
            [w32 f, w32 img.bundleId.toNat, w32 (img.bundleId.toNat / 2 ^ 32), w32 (img.numCtrl.fld 17 16)]).no st
        else s.no st
      | none =>
        match s.takeBundle f pn p img with
        | .error st => s.no st
        | .ok (b, s) => s.yes [w32 b]

/-- The bundle that a message names, in the sender's partition. -/
def Block.namedBundle (s : Block) (pn : Nat) (w : Word) : Option (Nat × Bundle) :=
  match kget s.bundles w.toNat with
  | some b => if b.part = pn then some (w.toNat, b) else none
  | none => none

/-- A bundle leaves: its objects, its save areas, its store range (R128). -/
def Block.dropBundle (s : Block) (b : Nat) : Block :=
  match kget s.bundles b with
  | none => s
  | some x =>
    let s := s.each x.slots fun s k => (s.dropPending x.part k).destroy x.part k
    let s := s.destroy x.part (saveSlot b)
    { s with bundles := kdel s.bundles b }

/-- Does a queued or running job belong to a bundle? -/
def Block.bundleBusy (s : Block) (b : Nat) : Bool := s.jobs.any fun e => e.2.bundle == b

/-- BUNDLE_UNLOAD. A bundle that a model uses counts as in use. -/
def effBundleUnload (ch : Chan) (s : Block) : Block :=
  s.message ch 0x0402 fun s ws => s.msgPart ch fun pn =>
    match s.namedBundle pn (mreg ws 1) with
    | none => s.no (REFUSED 0x27)
    | some (b, x) =>
      let h (k : Nat) : Word := mkHandle k (((s.obj pn k).map (·.gen)).getD 0)
      if s.bundleBusy b || x.model then s.no (BUSY 0x87)
      else if x.slots.any fun k => s.inUse pn (h k) then s.no (BUSY 0x47)
      else if x.slots.any fun k => s.mapped pn (h k) then s.no (BUSY 0x48)
      else (s.dropBundle b).yes

/-! ### Breaks (R202 to R204) -/

/-- The job of a message, when the sender owns it. -/
def Block.ownJob (s : Block) (ch : Chan) (w : Word) : Option (Nat × Job) :=
  match s.jobAt w.toNat with
  | some J => if J.fn = chFn ch ∧ J.step.isNone then some (w.toNat, J) else none
  | none => none

/-- The streams of a job. -/
def Block.jobStreams (s : Block) (J : Job) : Nat := ((kget s.bundles J.bundle).map (·.img.streams.length)).getD 0

/-- A comparator of a control core set. -/
def Cluster.setBrk (k : Cluster) (i : Nat) (b : Brk) : Cluster := if i = 0 then { k with brk0 := b } else { k with brk1 := b }

/-- A comparator set, where the stream's control state is now: kept for the dispatch, in the cluster, in the
save area. -/
def Block.breakSet (s : Block) (j : Nat) (J : Job) (st i : Nat) (b : Brk) : Block :=
  match J.state with
  | .ready => s.modJob j fun J => { J with brks := kput J.brks (2 * st + i) b }
  | .saved => s.modJob j fun J => { J with save := kmod J.save st fun a => { a with ctl := a.ctl.setBrk i b } }
  | _ => s.modCl (J.clusters.getD st 32) fun k => k.setBrk i b

/-- JOB_BREAK_SET. -/
def effJobBreakSet (ch : Chan) (s : Block) : Block :=
  s.message ch 0x0403 fun s ws =>
    match s.ownJob ch (mreg ws 1) with
    | none => s.no (REFUSED 0x27)
    | some (j, J) =>
      let r := mreg ws 2
      let tag := r.bit 9
      let v := (mreg ws 3).toNat + (if tag then 0 else 2 ^ 32 * (mreg ws 4).fld 15 0)
      if s.jobStreams J ≤ r.fld 4 0 then s.no badField
      else (s.breakSet j J (r.fld 4 0) (r.fld 8 8)
        { en := r.bit 10, tagKind := tag, value := if tag then v % 65536 else v, mask := if tag then v / 65536 % 65536 else 0 }).yes

/-- A core that is BROKEN issues again; a core that is not goes on as it was. -/
def Cluster.resume (k : Cluster) (step : Bool) : Cluster :=
  if k.state = .broken then { k with state := .issuing, stepOver := if step then 2 else 1 } else k

/-- JOB_RESUME: a broken stream goes on, in its cluster or once its job is restored. -/
def Block.resumeJob (s : Block) (j : Nat) (J : Job) (st : Nat) (step : Bool) : Block :=
  match J.state with
  | .ready => s
  | .saved => s.modJob j fun J =>
      { J with save := kmod J.save st fun a => { a with ctl := a.ctl.resume step } }
  | _ => s.modCl (J.clusters.getD st 32) fun k => k.resume step

/-- JOB_RESUME with STEP as given. -/
def resumeMsg (step : Bool) (ch : Chan) (s : Block) : Block :=
  s.messageWhen ch 0x0404 (fun ws => (mreg ws 2).bit 8 == step) fun s ws =>
    match s.ownJob ch (mreg ws 1) with
    | none => s.no (REFUSED 0x27)
    | some (j, J) =>
      if s.jobStreams J ≤ (mreg ws 2).fld 4 0 then s.no badField
      else (s.resumeJob j J ((mreg ws 2).fld 4 0) step).yes

/-- JOB_RESUME with STEP = 0. -/
def effJobResumeRun (ch : Chan) (s : Block) : Block := resumeMsg false ch s
/-- JOB_RESUME with STEP = 1. -/
def effJobResumeStep (ch : Chan) (s : Block) : Block := resumeMsg true ch s

/-! ### GLOBAL semaphores (R189, R204) -/

/-- SEM_CREATE: an index of the 4,096, an open choice. -/
def effSemCreate (ch : Chan) (s : Block) : Block :=
  s.message ch 0x0405 fun s ws => s.msgPart ch fun pn =>
    let c := (mreg ws 1).fld 23 0
    match (List.range 4096).filter fun i => (kget s.sems i).isNone with
    | [] => s.no (NO_SPACE 0x88)
    | l =>
      let (i, s) := s.pick l 0
      (({ s with sems := kput s.sems i (Sem.fresh pn c) }).ledGrow 0x1E0 c).yes [w32 (0x8000 + i)]

/-- SEM_DESTROY. -/
def effSemDestroy (ch : Chan) (s : Block) : Block :=
  s.message ch 0x0406 fun s ws => s.msgPart ch fun pn =>
    let n := (mreg ws 1).fld 15 0
    match (if semSpace n = 2 then kget s.sems (semIndex n) else none) with
    | none => s.no (REFUSED 0x83)
    | some x =>
      if x.part ≠ pn then s.no (REFUSED 0x83)
      else if !x.waiters.isEmpty || x.holder.isSome then s.no (BUSY 0x87)
      else (({ s with sems := kdel s.sems (semIndex n) }).ledShrink 0x1E0 x.count).yes

/-! ### Meanings -/

/-- The meaning of BUNDLE_LOAD. -/
def execBundleLoad (ch : Chan) (img : List Byte) : State → Host.Outcome State Fault Refusal := onBlk (effBundleLoad ch img)
/-- The meaning of BUNDLE_UNLOAD. -/
def execBundleUnload (ch : Chan) : State → Host.Outcome State Fault Refusal := onBlk (effBundleUnload ch)
/-- The meaning of JOB_BREAK_SET. -/
def execJobBreakSet (ch : Chan) : State → Host.Outcome State Fault Refusal := onBlk (effJobBreakSet ch)
/-- The meaning of JOB_RESUME_RUN. -/
def execJobResumeRun (ch : Chan) : State → Host.Outcome State Fault Refusal := onBlk (effJobResumeRun ch)
/-- The meaning of JOB_RESUME_STEP. -/
def execJobResumeStep (ch : Chan) : State → Host.Outcome State Fault Refusal := onBlk (effJobResumeStep ch)
/-- The meaning of SEM_CREATE. -/
def execSemCreate (ch : Chan) : State → Host.Outcome State Fault Refusal := onBlk (effSemCreate ch)
/-- The meaning of SEM_DESTROY. -/
def execSemDestroy (ch : Chan) : State → Host.Outcome State Fault Refusal := onBlk (effSemDestroy ch)


end Sys2Proof.Machine
end

