-- ==== Sys2Proof/Machine/Snow.lean ====
section
/-! DEFINITION. Snowpack: classes, sequences, pages and their references, the prefix tree, appends and commits,
moves between tiers, what happens when pages run short, and the messages of class 0x05 (R209 to R243). -/

namespace Sys2Proof.Machine

/-! ### Classes and headers (R209 to R211) -/

/-- The KV class of a number. -/
def Snow.cls (w : Snow) (c : Nat) : KvClass := tget { heads := 1, dim := 64, fmt := 0, tokens := 16, layers := 1 } w.classes c

/-- Words 0 to 5 of a page's header. -/
def Page.header (g : Page) (k : KvClass) : List Word :=
  [w32 (2 + k.tokens / 16 * 256 + k.fmt * 2048 + (k.heads - 1) * 4096 + k.dim / 128 * 65536 + g.cls * 262144),
   w32 g.layer, w32 g.firstPos, w32 g.fill, w32 g.hash, w32 (g.hash / 2 ^ 32)]

/-- A page with its header written; pages of a step have none. -/
def Page.stamped (g : Page) (w : Snow) : Page :=
  if g.cls = 0 then g else { g with data := g.data.put 0 (wordsBytes (g.header (w.cls g.cls))) }

/-- A page's record changed and its header with it. -/
def Block.restamp (s : Block) (p pid : Nat) (f : Page → Page) : Block :=
  let w := s.snowOf p
  s.modPage p pid fun g => (f g).stamped w

/-! ### References and free pages (R226, R338) -/

/-- The ledger of the page references of a partition. -/
def refLedger (p : Nat) : Nat := 0x180 + p

/-- A page gains a reference. -/
def Block.addRef (s : Block) (p pid : Nat) : Block :=
  (s.modPage p pid fun g => { g with refs := g.refs + 1 }).led1 (refLedger p) { held := 1, total := 1 }

/-- A page without a reference is being zero-filled; an open copy of it is given up. -/
def Block.freePage (s : Block) (p pid : Nat) : Block :=
  match s.page p pid with
  | none => s
  | some g =>
    let s := s.ledSend (pageLedger p (locTier g.loc)) 1
    let s := match g.dest with
      | some d => s.ledLand (pageLedger p (locTier d)) 1
      | none => s
    s.modPage p pid fun g => { g with refs := 0, dest := none, far := none, zeroing := true, data := Store.empty, hash := 0, fill := 0 }

/-- A page loses a reference; the last one returns it. -/
def Block.dropRef (s : Block) (p pid : Nat) : Block :=
  match s.page p pid with
  | none => s
  | some g =>
    let s := s.led1 (refLedger p) { held := -1, total := -1 }
    if g.refs ≤ 1 then s.freePage p pid else s.modPage p pid fun g => { g with refs := g.refs - 1 }

/-- References of pages dropped in turn. -/
def Block.dropRefs (s : Block) (p : Nat) (l : List Nat) : Block := s.each l fun s pid => s.dropRef p pid

/-! ### Placing pages (R214) -/

/-- Unit `i` of the spread order. -/
def spreadUnit (p : Part) (i : Nat) : Nat :=
  let n := max 1 p.compute.length
  stackIndex (p.compute.getD (i % n) 0) * 256 + i / (16 * n) % 16 * 16 + i / n % 16

/-- Can the unit take a page? -/
def Block.unitTakes (s : Block) (pn : Nat) (p : Part) (u : Nat) : Bool :=
  p.groupList.contains (unitGroup u) && s.unitOn u && s.groupUsed (unitStack u) (unitGroup u) && !(s.unitFree pn p u).isEmpty

/-- RUN_PAGES, as stored. -/
def Block.runPages (s : Block) (p : Nat) : Nat := ((s.part p).map (·.runPages)).getD 1

/-- The unit of page `k` of a sequence and layer; `prev` is the unit of the page before it. -/
def Block.kvUnit (s : Block) (pn : Nat) (p : Part) (id layer k : Nat) (prev : Option Nat) : Option Nat :=
  let r := s.runPages pn
  match (if k % r = 0 then none else prev.filter (s.unitTakes pn p)) with
  | some u => some u
  | none =>
    let n := 256 * p.compute.length
    ((List.range n).map fun j => spreadUnit p ((Config.spreadStart id layer + k / r + j) % max 1 n)).find? (s.unitTakes pn p)

/-- A place in a compute stack: the page of the bank group is an open choice. -/
def Block.kvSpot (s : Block) (pn id layer k : Nat) (prev : Option Nat) : Option PageLoc × Block :=
  match s.part pn with
  | none => (none, s)
  | some p =>
    match s.kvUnit pn p id layer k prev with
    | none => (none, s)
    | some u =>
      let (g, s) := s.pick (s.unitFree pn p u) 0
      (some (.compute u g), s)

/-- The unit of a place. -/
def locUnit : PageLoc → Option Nat
  | .compute u _ => some u
  | _ => none

/-- The first index that a list of `used` ones leaves free below `n`, from an open start. -/
def Block.freeIndex (s : Block) (n : Nat) (used : List Nat) : Option Nat × Block :=
  let start := s.freeVal
  (((List.range (min n (used.length + 1))).map fun i => (start + i) % max 1 n).find? (fun i => !used.contains i), s.drawn)

/-- A free page ID, an open choice (R215). -/
def Block.freePid (s : Block) (p : Nat) : Option Nat × Block :=
  let start := s.freeVal
  let t := (s.snowOf p).pages
  (((List.range (min 33554431 (t.length + 1))).map fun i => (start + i) % 33554431 + 1).find? (fun i => (kget t i).isNone), s.drawn)

/-- A fresh page of a class and layer at a place, with one reference. -/
def Block.newPage (s : Block) (p cls layer firstPos owner : Nat) (loc : PageLoc) : Option (Nat × Block) :=
  match s.freePid p with
  | (none, _) => none
  | (some pid, s) =>
    let g : Page := { cls := cls, layer := layer, firstPos := firstPos, fill := 0, hash := 0, refs := 1, loc := loc, dest := none,
                      far := none, data := Store.empty, owner := owner, zeroing := false }
    let w := s.snowOf p
    let s := s.setSnow p { w with pages := kput w.pages pid (g.stamped w) }
    let s := s.ledTake (pageLedger p (locTier loc)) 1
    some (pid, s.led1 (refLedger p) { held := 1, total := 1 })

/-! ### Sequences (R213) -/

/-- The slot of a sequence ID. -/
def seqSlot (id : Word) : Nat := id.fld 23 0
/-- The ID of a sequence. -/
def seqId (slot : Nat) (q : Seq) : Nat := q.gen % 256 * 16777216 + slot

/-- The sequence that an ID names. -/
def Block.seqOf (s : Block) (p : Nat) (id : Word) : Option (Nat × Seq) :=
  match kget (s.snowOf p).seqs (seqSlot id) with
  | some q => if q.gen = id.fld 31 24 ∧ !q.dying then some (seqSlot id, q) else none
  | none => none

/-- A sequence changed. -/
def Block.modSeq (s : Block) (p slot : Nat) (f : Seq → Seq) : Block :=
  s.setSnow p { s.snowOf p with seqs := kmod (s.snowOf p).seqs slot f }

/-- The sequence in a slot. -/
def Block.seqAt (s : Block) (p slot : Nat) : Option Seq := kget (s.snowOf p).seqs slot

/-- The page IDs of a layer. -/
def Seq.layer (q : Seq) (l : Nat) : List Nat := tget [] q.pages l
/-- Every page ID of a sequence. -/
def Seq.all (q : Seq) : List Nat := q.pages.flatMap (·.2)

/-- Does the prefix tree hold a page? -/
def Snow.inTree (w : Snow) (pid : Nat) : Bool := w.nodes.any fun e => e.2.pages.contains pid

/-- The state of a sequence: 0 RESIDENT, 1 PARKED, 2 SWAPPED, 3 MOVING. -/
def Snow.state (w : Snow) (q : Seq) : Nat :=
  let l := q.all.filterMap fun pid => kget w.pages pid
  if l.any fun g => g.dest.isSome then 3
  else if l.any fun g => decide (2 ≤ locTier g.loc) then 2
  else if l.any fun g => locTier g.loc == 1 then 1 else 0

/-- A slot for a sequence, from 1 to 0xF_FFFF, an open choice, and its generation. -/
def Block.seqFreeSlot (s : Block) (p : Nat) : Option (Nat × Nat) × Block :=
  let w := s.snowOf p
  let start := s.freeVal
  let ok (i : Nat) := (kget w.seqs i).isNone && decide (tget 0 w.gens i ≤ 0xFF)
  (((List.range (min 1048575 (w.seqs.length + w.gens.length + 1))).map fun i => (start + i) % 1048575 + 1).find? ok |>.map
    fun i => (i, tget 0 w.gens i), s.drawn)

/-- A sequence put into a slot. -/
def Block.putSeq (s : Block) (p slot : Nat) (q : Seq) : Block :=
  let w := s.snowOf p
  s.setSnow p { w with seqs := kput w.seqs slot q, gens := kput w.gens slot (q.gen + 1) }

/-- A sequence without positions. -/
def Seq.fresh (gen owner cls : Nat) (ns : Option Nat) (tag : Word) (publish : Bool) (now : Nat) : Seq :=
  { gen := gen, owner := owner, cls := cls, ns := ns, kvTag := tag, publish := publish, len := 0, pages := [], tokens := [],
    damaged := none, lost := false, pendingToken := none, lastStep := now, lastClass := 2, inStep := false, target := none,
    reply := none, dying := false }

/-! ### Copies and sharing (R226, R227) -/

/-- A page copied to a fresh one for page index `k` of a sequence: the copy's ID. -/
def Block.copyPage (s : Block) (p id k pid : Nat) (prev : Option Nat) : Option (Nat × Block) :=
  match s.page p pid with
  | none => none
  | some g =>
    match s.kvSpot p id g.layer k prev with
    | (none, _) => none
    | (some loc, s) =>
      (s.newPage p g.cls g.layer g.firstPos 0 loc).map fun r =>
        (r.1, r.2.restamp p r.1 fun y => { y with data := g.data, fill := g.fill })

/-- A reference to a page for a new holder: the page itself, or a copy when its count is at its limit. -/
def Block.sharePage (s : Block) (p id k pid : Nat) : Option (Nat × Block) :=
  match s.page p pid with
  | none => none
  | some g =>
    if g.refs < 65535 then some (pid, s.addRef p pid)
    else (s.copyPage p id k pid none).map fun r => (r.1, r.2.bump (SNW p 0x44))

/-- The pages of a layer shared with a new holder. -/
def Block.shareList (s : Block) (p id : Nat) : List Nat → Nat → Option (List Nat × Block)
  | [], _ => some ([], s)
  | pid :: l, k =>
    match s.sharePage p id k pid with
    | none => none
    | some (n, s) => (s.shareList p id l (k + 1)).map fun r => (n :: r.1, r.2)

/-- The layers of a holder shared, as far as `n` pages of each. -/
def Block.shareLayers (s : Block) (p id n : Nat) : List (Nat × List Nat) → Option (Tbl (List Nat) × Block)
  | [] => some ([], s)
  | (l, pids) :: rest =>
    match s.shareList p id (pids.take n) 0 with
    | none => none
    | some (x, s) => (s.shareLayers p id n rest).map fun r => (tset [] r.1 l x, r.2)

/-- A slot of a page filled with zeros. -/
def Block.zeroSlot (s : Block) (p : Nat) (k : KvClass) (pid t : Nat) : Block :=
  s.each (k.slotRanges t) fun s r => s.modPage p pid fun g => { g with data := g.data.put r.1 (List.replicate r.2 0) }

/-- A page of a child's list at index `k` replaced by a copy that holds its first `n` slots: the parent goes on writing
its own page, and only a page whose count is 1 is written (R227). -/
def Block.ownCut (s : Block) (p id k n pid : Nat) : Option (Nat × Block) :=
  match s.page p pid with
  | none => none
  | some g =>
    let c := (s.snowOf p).cls g.cls
    (s.copyPage p id k pid none).map fun r =>
      let s := loop (c.tokens - n) (fun i s => s.zeroSlot p c r.1 (n + i)) r.2
      (r.1, ((s.restamp p r.1 fun y => { y with fill := n }).dropRef p pid).bump (SNW p 0x40))

/-- The pages that a fork at `len` gives the child (R226): those of the parent, and copies of the pages to which the parent's
step appends. DEDUCED, log entry 171. -/
def Block.forkPages (s : Block) (p id : Nat) (q : Seq) (len : Nat) : Option (Tbl (List Nat) × Block) :=
  let t := max 1 ((s.snowOf p).cls q.cls).tokens
  let k := q.len / t
  (s.shareLayers p id (ceilDiv len t) q.pages).bind fun r =>
    if q.inStep ∧ k < ceilDiv len t then
      r.1.foldl (fun (a : Option (Tbl (List Nat) × Block)) e => a.bind fun a =>
        match e.2[k]? with
        | none => some a
        | some pid => (a.2.ownCut p id k (q.len % t) pid).map fun y => (tset [] a.1 e.1 (e.2.set k y.1), y.2)) (some r)
    else some r

/-! ### The prefix tree (R229 to R232) -/

/-- The hash that stands for the root. -/
def rootHash (key cls : Nat) (tag : Word) : Nat := mix key (cls * 2 ^ 32 + tag.toNat)

/-- The hash of a node of even `T` tokens below a parent. -/
def nodeHash (key parent : Nat) (tok : List Word) : Nat :=
  let h := (List.range (tok.length / 2)).foldl
    (fun h i => mix h ((tok.getD (2 * i + 1) 0).toNat * 2 ^ 32 + (tok.getD (2 * i) 0).toNat)) (mix key parent)
  h ||| 1

/-- What a walk of the tree goes by: namespace with its key, class, tag, tokens of a block. -/
structure Walk where
  ns : Nat
  key : Nat
  cls : Nat
  tag : Word
  size : Nat

/-- Nodes of a walk with a hash. -/
def Snow.withHash (w : Snow) (x : Walk) (h : Nat) : Tbl TreeNode :=
  w.nodes.filter fun e => e.2.ns == x.ns && e.2.cls == x.cls && e.2.kvTag == x.tag && e.2.hash == h

/-- The child of a node (0 for the root) that holds a block. -/
def Snow.child (w : Snow) (x : Walk) (parent h : Nat) (tok : List Word) : Option (Nat × TreeNode) :=
  (w.withHash x h).find? fun e => e.2.parent == parent && e.2.tokens == tok

/-- A match from a node on: the nodes matched. The number bounds the blocks. -/
def Block.walk (s : Block) (p : Nat) (x : Walk) : Nat → Nat → Nat → List Word → List Nat × Block
  | 0, _, _, _ => ([], s)
  | n + 1, parent, hash, tok =>
    if x.size = 0 ∨ tok.length < x.size then ([], s) else
    let blk := tok.take x.size
    let h := nodeHash x.key hash blk
    let w := s.snowOf p
    let bad := ((w.withHash x h).filter fun e => e.2.tokens != blk).length
    let s := if bad = 0 then s else s.bump (SNW p 0x50) bad
    match w.child x parent h blk with
    | none => ([], s.bump (SNW p 0x4C))
    | some (k, _) =>
      let now := s.now
      let s := (s.setSnow p { s.snowOf p with nodes := kmod (s.snowOf p).nodes k fun y => { y with matched := now } }).bump (SNW p 0x48)
      let r := s.walk p x n k h (tok.drop x.size)
      (k :: r.1, r.2)

/-- What a sequence's walk goes by. -/
def Block.seqWalk (s : Block) (p : Nat) (q : Seq) : Option Walk :=
  q.ns.bind fun n => (kget (s.snowOf p).nsKeys n).map fun k =>
    { ns := n, key := k, cls := q.cls, tag := q.kvTag, size := ((s.snowOf p).cls q.cls).tokens }

/-- Nodes in the module. -/
def Block.nodeCount (s : Block) : Nat := (s.snow.map fun e => e.2.nodes.length).sum

/-- A node number that is free. -/
def Snow.nodeNumber (w : Snow) : Nat := ((w.nodes.getLast?.map (·.1)).getD 0) + 1

/-- Block `i` of a sequence offered to the tree below a parent. -/
def Block.addNode (s : Block) (p : Nat) (q : Seq) (x : Walk) (parent h i : Nat) (tok : List Word) : Nat × Block :=
  let w := s.snowOf p
  let k := w.nodeNumber
  let pids := (List.range (w.cls q.cls).layers).map fun l => (q.layer l).getD i 0
  let node : TreeNode := { ns := x.ns, cls := q.cls, kvTag := q.kvTag, parent := parent, hash := h, tokens := tok, pages := pids,
                           matched := s.now }
  let s := s.setSnow p { w with nodes := kput w.nodes k node }
  (k, s.each pids fun s pid => (s.addRef p pid).restamp p pid fun g => { g with hash := h })

/-- The blocks of a sequence offered, from block `i` below a node on; blocks before `from_` are only followed. -/
def Block.publish (s : Block) (p : Nat) (q : Seq) (x : Walk) (from_ : Nat) : Nat → Nat → Nat → Nat → Block
  | 0, _, _, _ => s
  | n + 1, i, parent, hash =>
    let tok := (q.tokens.drop (i * x.size)).take x.size
    if x.size = 0 ∨ tok.length < x.size then s else
    let h := nodeHash x.key hash tok
    match (s.snowOf p).child x parent h tok with
    | some (k, _) => s.publish p q x from_ n (i + 1) k h
    | none =>
      if i < from_ ∨ 524288 ≤ s.nodeCount then s else
      let r := s.addNode p q x parent h i tok
      r.2.publish p q x from_ n (i + 1) r.1 h

/-- Every block that a commit from `ctx` on completed, offered when the sequence publishes. -/
def Block.offer (s : Block) (p slot ctx : Nat) : Block :=
  match s.seqAt p slot with
  | none => s
  | some q =>
    match (if q.publish then s.seqWalk p q else none) with
    | none => s
    | some x => s.publish p q x (ctx / max 1 x.size) (q.tokens.length / max 1 x.size) 0 0 (rootHash x.key q.cls q.kvTag)

/-- A node removed, with the tree's references. -/
def Block.dropNode (s : Block) (p k : Nat) : Block :=
  match kget (s.snowOf p).nodes k with
  | none => s
  | some n => (s.setSnow p { s.snowOf p with nodes := kdel (s.snowOf p).nodes k }).dropRefs p n.pages

/-- The leaf that eviction takes: no child, no reference but the tree's, least recently matched. -/
def Snow.victimNode (w : Snow) : Option Nat :=
  let ok (e : Nat × TreeNode) := !(w.nodes.any fun y => y.2.parent == e.1) &&
    e.2.pages.all fun pid => ((kget w.pages pid).map (·.refs)) == some 1
  ((w.nodes.filter ok).foldl (fun (b : Option (Nat × Nat)) e =>
    match b with
    | some (_, m) => if e.2.matched < m then some (e.1, e.2.matched) else b
    | none => some (e.1, e.2.matched)) none).map (·.1)

/-! ### Moves between tiers (R234 to R238) -/

/-- Does SNOW run? While it restarts, allocation, commits and moves stall. -/
def Block.snowUp (s : Block) : Bool := s.coreUp 3

/-- Pages of an arena segment. -/
def arenaPages (a : Arena) : Nat := a.mib * 16

/-- The key of a segment: host 0 to 15, far 16 to 31. -/
def arenaKey (far : Bool) (seg : Nat) : Nat := (if far then 16 else 0) + seg

/-- The place of page `i` of a segment. -/
def arenaLoc (k : Nat) (a : Arena) (i : Nat) : PageLoc := if a.far then .far a.addr (k * 16777216 + i) else .host k i

/-- The pages of a segment that are taken. -/
def Snow.arenaUsed (w : Snow) (k : Nat) : List Nat :=
  w.pages.flatMap fun e => e.2.places.filterMap fun
    | .host j i => if j = k then some i else none
    | .far _ i => if i / 16777216 = k then some (i % 16777216) else none
    | _ => none

/-- A place in an arena of a kind. -/
def Block.arenaSpot (s : Block) (p : Nat) (far : Bool) : Option PageLoc × Block :=
  let w := s.snowOf p
  let ok (e : Nat × Arena) := e.2.far == far && e.2.leaving.isNone && decide ((w.arenaUsed e.1).length < arenaPages e.2) &&
    (!far || (s.reachable e.2.addr && s.bit (ESK_DOMAIN p) 16))
  if !far && s.lost then (none, s) else
  match w.arenas.find? ok with
  | none => (none, s)
  | some (k, a) =>
    let r := s.freeIndex (arenaPages a) (w.arenaUsed k)
    (r.1.map (arenaLoc k a), r.2)

/-- A place for a page of a sequence in a tier. -/
def Block.tierSpot (s : Block) (p id layer k tier : Nat) (prev : Option Nat) : Option PageLoc × Block :=
  match tier with
  | 0 => s.kvSpot p id layer k prev
  | 1 => (match s.part p with
    | none => (none, s)
    | some q =>
      let l := q.capacity.filter fun n => !(s.capacityPages p q n).isEmpty
      if l.isEmpty then (none, s) else
      let (n, s) := s.pick l 0
      let (g, s) := s.pick (s.capacityPages p q n) 0
      (some (.capacity n g), s))
  | 2 => s.arenaSpot p false
  | _ => s.arenaSpot p true

/-- May a page of a sequence move to a tier: a parked page belongs to the sequence alone. -/
def Snow.movable (w : Snow) (tier pid : Nat) (g : Page) : Bool :=
  locTier g.loc != tier && !g.zeroing && (tier == 0 || (g.refs == 1 && !w.inTree pid))

/-- A copy given up: its destination returns. -/
def Block.cancelMove (s : Block) (p pid : Nat) : Block :=
  match (s.page p pid).bind (·.dest) with
  | none => s
  | some d => (s.modPage p pid fun g => { g with dest := none, far := none }).ledLand (pageLedger p (locTier d)) 1

/-- The far end of a copy under way: the peer, the page of its arena, whether the copy goes there. -/
def Page.farEnd (g : Page) : Option (Nat × Nat × Bool) :=
  match g.dest, g.loc with
  | some (.far n i), _ => some (n, i % 16777216, true)
  | some _, .far n i => some (n, i % 16777216, false)
  | _, _ => none

/-- Request tags of a partition's allotment that no bundle reserves and no page move occupies (R236, R363). -/
def Block.farTags (s : Block) (p : Nat) : Nat :=
  s.fld (ESK_ALLOT p) 16 0 - s.reservedCredits p - (s.esk.out.filter fun e => e.2.mover.any fun m => m.1 == p).length

/-- One 256 B unit of a page move requested of the peer: virtual channel 3, ordered class (R235, R236, R367). It belongs to no
job: its job is one that never exists. -/
def Block.farRequest (s : Block) (p pid : Nat) (g : Page) (c : FarCopy) (e : Nat × Nat × Bool) : Block :=
  let a := c.next * 256
  let data := if e.2.2 then g.data.read a 256 else []
  let k : Packet :=
    { ptype := if e.2.2 then 1 else 3, vc := 3, ordered := true, hops := 0, dst := e.1, src := s.node,
      domain := s.fld (ESK_DOMAIN p) 15 0, tag := 0, handle := w32 s.freeVal, off := e.2.1 * 65536 + a, op := 0, etype := 0,
      fetch := false, poison := if e.2.2 then markBits (g.data.marks a 256) else 0, status := 0, len := data.length, data := data }
  s.drawn.request
    { job := 2 ^ 64, cluster := 32, queue := 0, count := 0, tag := 0, engine := 0, port := 0, epoch := 0, ptype := k.ptype,
      dst := e.1, ordered := true, sent := none, sink := none, off := c.next, len := 256, no := 0, mover := some (p, pid, c.id) } k

/-- The units of a page move requested while tags are free. -/
def Block.farSend (p pid : Nat) : Nat → Block → Block
  | 0, s => s
  | n + 1, s =>
    match (s.page p pid).bind fun g => g.far.bind fun c => g.farEnd.map fun e => (g, c, e) with
    | none => s
    | some (g, c, e) =>
      if c.failed.isSome ∨ 256 ≤ c.next ∨ s.farTags p = 0 then s
      else ((s.modPage p pid fun g => { g with far := some { c with next := c.next + 1 } }).farRequest p pid g c e).farSend p pid n

/-- Every page move of a partition over Esker taken as far as tags allow. -/
def Block.farPump (s : Block) (p : Nat) : Block := s.each (keys (s.snowOf p).pages) fun s pid => s.farSend p pid 256

/-- Does the source of a copy allow it now: the host link for a page in host memory? -/
def Block.sourceUp (s : Block) (g : Page) : Bool := match g.loc with | .host _ _ => !s.lost | _ => true

/-- A copy of one page opened. -/
def Block.openMove (s : Block) (p slot tier layer k : Nat) : Block :=
  match s.seqAt p slot with
  | none => s
  | some q =>
    let pid := (q.layer layer).getD k 0
    let prev := if k = 0 then none else ((s.page p ((q.layer layer).getD (k - 1) 0)).map fun g => g.dest.getD g.loc).bind locUnit
    match s.page p pid with
    | none => s
    | some g =>
      if g.dest.isSome || !((s.snowOf p).movable tier pid g) || !s.sourceUp g then s else
      match s.tierSpot p (seqId slot q) layer k tier prev with
      | (none, s) => s
      | (some d, s) =>
        let g := { g with dest := some d }
        let far := g.farEnd.map fun _ => ({ id := s.esk.issued, next := 0, done := 0, got := Store.empty, failed := none } : FarCopy)
        (s.modPage p pid fun _ => { g with far := far }).ledFly (pageLedger p tier) 1

/-- Every copy that a sequence's move still lacks opened, as far as room goes. -/
def Block.openSeq (s : Block) (p slot : Nat) : Block :=
  match s.seqAt p slot with
  | none => s
  | some q =>
    match q.target with
    | none => s
    | some t => s.each q.pages fun s e => s.each (List.range e.2.length) fun s k => s.openMove p slot t e.1 k

/-- Has the sequence's move nothing left to do? -/
def Block.moveDone (s : Block) (p : Nat) (q : Seq) (t : Nat) : Bool :=
  q.all.all fun pid => match s.page p pid with
    | some g => g.dest.isNone && !((s.snowOf p).movable t pid g)
    | none => true

/-- A move that has ended: its reply, if a restore asked for one. -/
def Block.settleSeq (s : Block) (p slot : Nat) : Block :=
  match s.seqAt p slot with
  | none => s
  | some q =>
    match q.target with
    | none => s
    | some t =>
      if !s.moveDone p q t then s else
      let s := s.modSeq p slot fun q => { q with target := none, reply := none }
      match q.reply with
      | some (ch, h) => s.replyLate ch [h, 0]
      | none => s

/-- A move that ends for another cause: open copies are given up and the request answered with a status. -/
def Block.stopMove (s : Block) (p slot st : Nat) : Block :=
  match s.seqAt p slot with
  | none => s
  | some q =>
    let s := s.each q.all fun s pid => s.cancelMove p pid
    let s := s.modSeq p slot fun q => { q with target := none, reply := none }
    match q.reply with
    | some (ch, h) => s.replyLate ch [h, w32 st]
    | none => s

/-- A segment whose withdrawal is asked and which holds nothing leaves (R235, R341). -/
def Block.settleArena (s : Block) (p k : Nat) : Block :=
  let w := s.snowOf p
  match kget w.arenas k with
  | none => s
  | some a =>
    match a.leaving with
    | none => s
    | some (ch, h) =>
      if (w.arenaUsed k).isEmpty then
        ((s.setSnow p { w with arenas := kdel w.arenas k }).ledShrink (pageLedger p (if a.far then 3 else 2)) (arenaPages a)).replyLate ch [h, 0]
      else s

/-- Every move of a partition taken as far as it goes. -/
def Block.openMoves (s : Block) (p : Nat) : Block :=
  let s := s.each (keys (s.snowOf p).seqs) fun s k => (s.openSeq p k).settleSeq p k
  (s.each (keys (s.snowOf p).arenas) fun s k => s.settleArena p k).farPump p

/-- A sequence set moving to a tier; copies under way to another tier are given up (R236). -/
def Block.moveSeq (s : Block) (p slot tier : Nat) : Block :=
  match s.seqAt p slot with
  | none => s
  | some q =>
    let s := s.each q.all fun s pid =>
      match (s.page p pid).bind (·.dest) with
      | some d => if locTier d = tier then s else s.cancelMove p pid
      | none => s
    (((s.modSeq p slot fun q => { q with target := some tier }).openSeq p slot).settleSeq p slot).farPump p

/-- Free pages of a tier. -/
def Block.freePages (s : Block) (p t : Nat) : Nat := (s.ledger (pageLedger p t)).free

/-- Pages of a tier that will be free: being zero-filled, or moving elsewhere. -/
def Block.comingFree (s : Block) (p t : Nat) : Nat :=
  ((s.snowOf p).pages.filter fun e => locTier e.2.loc == t && (e.2.zeroing || e.2.dest.isSome)).length

/-- Are the free pages of a tier, with those that will be free, still not above its watermark of `wm` × 1,024 pages? -/
def Block.short (s : Block) (p t wm : Nat) : Bool := decide (s.freePages p t + s.comingFree p t ≤ wm * 1024)

/-- Does the Snowpack act for a tier: have its free pages fallen below the watermark and not risen above it since (R233)? -/
def Block.acts (s : Block) (p t wm : Nat) (before : Bool) : Bool :=
  decide (s.freePages p t < wm * 1024) || (before && decide (s.freePages p t ≤ wm * 1024))

/-- Pages that the sequences of a class hold. -/
def Snow.classPages (w : Snow) (c : Nat) : Nat := ((w.seqs.filter fun e => e.2.cls == c).map fun e => e.2.all.length).sum

/-- Do the pages of a class lie within the reservation of the bundle that serves it, when another bundle than `for_` is? -/
def Block.reservedClass (s : Block) (p c : Nat) (for_ : Option Nat) : Bool :=
  match kget s.serve p with
  | none => false
  | some v => v.models.any fun m => m.2.cls == c && for_ != some m.2.bundle &&
      decide ((s.snowOf p).classPages c ≤ ((kget s.bundles m.2.bundle).map (·.img.minPages)).getD 0)

/-- The sequence that pressure takes next (R234): its latency class from BATCH up, then the longest idle. -/
def Block.victimSeq (s : Block) (p from_ : Nat) (for_ : Option Nat) : Option Nat :=
  let w := s.snowOf p
  let idle := s.fld (SNW p 4) 23 16 * 1000000
  let ok (e : Nat × Seq) := !e.2.inStep && e.2.target.isNone && !e.2.lost && w.state e.2 == from_ &&
    decide (e.2.lastStep + idle ≤ s.now) && !s.reservedClass p e.2.cls for_ &&
    e.2.all.any fun pid => (kget w.pages pid).any fun g => w.movable (from_ + 1) pid g
  ((w.seqs.filter ok).foldl (fun (b : Option (Nat × Seq)) e =>
    match b with
    | none => some e
    | some y => if y.2.lastClass < e.2.lastClass ∨ (y.2.lastClass = e.2.lastClass ∧ e.2.lastStep < y.2.lastStep) then some e else b)
    none).map (·.1)

/-- The arena tier that SWAP_PREF gives. -/
def Block.swapTier (s : Block) (p : Nat) : Option Nat :=
  let has (t : Nat) := (s.tierSpot p 0 0 0 t none).1.isSome
  let f := s.fld (SNW p 4) 9 8
  (if f = 0 then [2, 3] else if f = 1 then [3, 2] else if f = 2 then [2] else [3]).find? has

/-- R233: nodes evicted, then sequences parked, from the fall of the free compute pages below WM_PARK until they are above
it; parked sequences swapped, likewise, for WM_SWAP. `for_` is the bundle for whose benefit it acts. -/
def Block.relieve (s : Block) (p : Nat) (for_ : Option Nat) : Block :=
  if !s.snowUp then s else
  let wm := s.rg (SNW p 8)
  let act0 := s.acts p 0 (wm.fld 15 0) (s.snowOf p).pressed
  let act1 := s.acts p 1 (wm.fld 31 16) (s.snowOf p).swapping
  let s := s.setSnow p { s.snowOf p with pressed := act0, swapping := act1 }
  let s := if !act0 then s else loop (s.snowOf p).nodes.length (fun _ s =>
    if s.short p 0 (wm.fld 15 0) then
      match (s.snowOf p).victimNode with
      | some k => (s.dropNode p k).bump (SNW p 0x54)
      | none => s
    else s) s
  let s := if !act0 then s else loop (s.snowOf p).seqs.length (fun _ s =>
    if s.short p 0 (wm.fld 15 0) && decide (0 < s.freePages p 1) then
      match s.victimSeq p 0 for_ with
      | some k => s.moveSeq p k 1
      | none => s
    else s) s
  if !act1 then s else loop (s.snowOf p).seqs.length (fun _ s =>
    if s.short p 1 (wm.fld 31 16) then
      match s.victimSeq p 1 for_, s.swapTier p with
      | some k, some t => s.moveSeq p k t
      | _, _ => s
    else s) s

/-- The host address of a page of a host segment. -/
def Snow.hostAddr (w : Snow) (seg i : Nat) : Nat := ((kget w.arenas seg).map (·.addr)).getD 0 + i * 65536

/-- A swap stopped (R238, R389): the page stays where it is, and the move ends with a status. -/
def Block.swapStopped (s : Block) (p pid st : Nat) : Block :=
  let s := (s.cancelMove p pid).bump (SNW p 0x64)
  s.each ((s.snowOf p).seqs.filter fun e => e.2.holds pid && e.2.target.isSome) fun s e => s.stopMove p e.1 st

/-- A swap whose host access failed. -/
def Block.swapFailed (s : Block) (p pid : Nat) : Block := s.swapStopped p pid (ABORTED 0x24)

/-- The host pages that a switch touches: out and in. -/
def Block.switchHostOk (s : Block) (p : Nat) (g : Page) (d : PageLoc) : Bool :=
  let ok : PageLoc → Bool
    | .host k i => s.hostOk ((s.snowOf p).hostAddr k i) 65536
    | _ => true
  ok g.loc && ok d

/-- The copy of a page is whole: the mapping switches and the source returns. -/
def Block.switchPage (s : Block) (p pid : Nat) (g : Page) (d : PageLoc) : Block :=
  let w := s.snowOf p
  let ms := g.data.marks 0 65536
  let g := match g.loc with
    | .host k i => { g with data := Store.empty.write 0 (s.hostRead (w.hostAddr k i) 65536) ms }
    | .far _ _ =>
      let got := (g.far.map FarCopy.got).getD Store.empty
      { g with data := Store.empty.write 0 (got.read 0 65536) (List.zipWith (· || ·) ms (got.marks 0 65536)) }
    | _ => g
  let s := match d with
    | .host k i => (s.hostPut (w.hostAddr k i) (g.data.read 0 65536)).bump ERR_CNT_EP_SENT (ms.filter id).length
    | _ => s
  let a := locTier g.loc
  let b := locTier d
  let s := (s.locTraffic p g.loc 256 false false).locTraffic p d 256 true false
  let data : Store := match d with
    | .far _ _ => { cells := [], poison := g.data.poison }
    | _ => g.data
  let s := s.modPage p pid fun _ => { g with loc := d, dest := none, far := none, data := data }
  let s := (s.ledDrop (pageLedger p a) 1).ledArrive (pageLedger p b) 1
  if b = 1 ∧ a = 0 then s.bump (SNW p 0x58)
  else if 2 ≤ b ∧ a < 2 then s.bump (SNW p 0x5C)
  else if 2 ≤ a ∧ b < 2 then s.bump (SNW p 0x60) else s

/-- Has the page a copy that may switch, or one over Esker that has ended without? -/
def moveReady (p pid : Nat) (s : Block) : Bool :=
  s.snowUp && match s.page p pid with
    | some g => (g.far.all fun c => c.done == 256 || c.failed.isSome) && (match g.dest with
      | some (.host _ _) => !s.lost
      | some _ => s.sourceUp g
      | none => false)
    | none => false

/-- PAGE_MOVE_SWITCH. -/
def pageMoveEffect (p pid : Nat) (s : Block) : Block :=
  match s.page p pid with
  | none => s
  | some g =>
    match g.dest with
    | none => s
    | some d =>
      let s := match g.far.bind (·.failed) with
        | some st => s.swapStopped p pid st
        | none => if s.switchHostOk p g d then s.switchPage p pid g d else s.swapFailed p pid
      s.openMoves p

/-- PAGE_MOVE_SWITCH, when a copy is whole. -/
def effPageMoveSwitch (p pid : Nat) (s : Block) : Block := if moveReady p pid s then pageMoveEffect p pid s else s

/-- Is the page being zero-filled? -/
def zeroReady (p pid : Nat) (s : Block) : Bool := match s.page p pid with | some g => g.zeroing | none => false

/-- PAGE_ZERO_FILL_DONE: the page reaches the free list. -/
def pageZeroEffect (p pid : Nat) (s : Block) : Block :=
  match s.page p pid with
  | none => s
  | some g =>
    let w := s.snowOf p
    ((s.setSnow p { w with pages := kdel w.pages pid }).ledLand (pageLedger p (locTier g.loc)) 1).openMoves p

/-- PAGE_ZERO_FILL_DONE, when a page is being zero-filled. -/
def effPageZeroFillDone (p pid : Nat) (s : Block) : Block := if zeroReady p pid s then pageZeroEffect p pid s else s

/-- Driver loss (R238): host swaps stop, and event 0x0A41 for every partition that has a host arena. -/
def Block.snowLost (s : Block) : Block :=
  s.each (s.snow.filter fun e => e.2.arenas.any fun a => !a.2.far) fun s e =>
    let p := e.1
    let w := s.snowOf p
    let out (g : Page) := match g.dest, g.loc with
      | some (.host _ _), _ => true
      | some _, .host _ _ => true
      | _, _ => false
    let stopped := (w.pages.filter fun x => out x.2).map (·.1)
    let needs (q : Seq) := q.target == some 0 && q.all.any fun pid => (kget w.pages pid).any fun g => locTier g.loc == 2
    let paused := (w.seqs.filter fun x => needs x.2).length
    let s := s.each stopped fun s pid => (s.cancelMove p pid).bump (SNW p 0x64)
    s.event srcSnow 0x0A41 [w32 p, w32 stopped.length, w32 paused]

/-! ### Appends and commits (R212, R216, R218, R227) -/

/-- The unit of the last page of a list. -/
def Block.lastUnit (s : Block) (p : Nat) (l : List Nat) : Option Nat := (l.getLast?.bind (s.page p)).bind fun g => locUnit g.loc

/-- Fresh pages of `t` tokens added to a layer's list. -/
def Block.growLayer (s : Block) (p id cls layer t : Nat) : Nat → List Nat → Option (List Nat × Block)
  | 0, l => some (l, s)
  | m + 1, l =>
    match s.kvSpot p id layer l.length (s.lastUnit p l) with
    | (none, _) => none
    | (some loc, s) =>
      match s.newPage p cls layer (l.length * t) 0 loc with
      | none => none
      | some (pid, s) => s.growLayer p id cls layer t m (l ++ [pid])

/-- One layer's append pages for `n` fresh positions: the cut page copied when others hold it, fresh pages after
it. None when pages are short. -/
def Block.appendLayer (s : Block) (p slot n layer : Nat) : Option Block :=
  match s.seqAt p slot with
  | none => none
  | some q =>
    let t := max 1 ((s.snowOf p).cls q.cls).tokens
    let k0 := q.len / t
    let id := seqId slot q
    let cut : Option (List Nat × Block) :=
      match (if q.len % t = 0 then none else (q.layer layer)[k0]?) with
      | none => some (q.layer layer, s)
      | some pid =>
        match s.page p pid with
        | none => none
        | some g =>
          if g.refs ≤ 1 then some (q.layer layer, s) else
          (s.copyPage p id k0 pid (s.lastUnit p ((q.layer layer).take k0))).map fun r =>
            ((q.layer layer).set k0 r.1, (r.2.dropRef p pid).bump (SNW p 0x40))
    (cut.bind fun a => a.2.growLayer p id q.cls layer t (ceilDiv (q.len + n) t - a.1.length) a.1).map fun a =>
      a.2.modSeq p slot fun q => { q with pages := tset [] q.pages layer a.1 }

/-- Append slots reserved in every layer, or none: the sequence is then held out (R233). -/
def Block.reserveAppend (s : Block) (p slot n : Nat) : Option Block :=
  match s.seqAt p slot with
  | none => none
  | some q => (List.range ((s.snowOf p).cls q.cls).layers).foldl
      (fun (a : Option Block) l => a.bind fun s => s.appendLayer p slot n l) (some s)

/-- Slot `t` of page `pid` copied to slot `u` of page `pod`. -/
def Block.copySlot (s : Block) (p : Nat) (k : KvClass) (pid t pod u : Nat) : Block :=
  if pid = pod ∧ t = u then s else
  s.each ((k.slotRanges t).zip (k.slotRanges u)) fun s r =>
    match s.page p pid with
    | none => s
    | some g =>
      let bs := g.data.read r.1.1 r.1.2
      let ms := shiftMarks r.1.1 r.2.1 r.1.2 (g.data.marks r.1.1 r.1.2)
      s.modPage p pod fun g => { g with data := g.data.write r.2.1 bs ms }

/-- The place of fresh position `j` of a sequence in a layer: page and slot. -/
def Seq.appendAt (q : Seq) (layer t j : Nat) : Nat × Nat := ((q.layer layer).getD ((q.len + j) / t) 0, (q.len + j) % t)

/-- The append slots of a layer from fresh position `a` up to `n` filled with zeros (R212). -/
def Block.zeroAppend (s : Block) (p : Nat) (q : Seq) (layer a n : Nat) : Block :=
  let k := (s.snowOf p).cls q.cls
  loop (n - a) (fun i s => let x := q.appendAt layer (max 1 k.tokens) (a + i); s.zeroSlot p k x.1 x.2) s

/-- Every append slot of a sequence of `n` fresh positions filled with zeros. -/
def Block.zeroStep (s : Block) (p slot n : Nat) : Block :=
  match s.seqAt p slot with
  | none => s
  | some q => s.each (List.range ((s.snowOf p).cls q.cls).layers) fun s l => s.zeroAppend p q l 0 n

/-- A commit in one layer: accepted tokens moved into the first slots, FILL raised, uncommitted slots zeroed, pages
without a committed slot given back. `path` lists the fresh positions accepted, `n` counts those reserved. -/
def Block.commitLayer (s : Block) (p slot n : Nat) (path : List Nat) (layer : Nat) : Block :=
  match s.seqAt p slot with
  | none => s
  | some q =>
    let k := (s.snowOf p).cls q.cls
    let t := max 1 k.tokens
    let l := q.layer layer
    let at_ := q.appendAt layer t
    let s := s.each path.zipIdx fun s x => s.copySlot p k (at_ x.1).1 (at_ x.1).2 (at_ x.2).1 (at_ x.2).2
    let s := s.zeroAppend p q layer path.length n
    let len := q.len + path.length
    let s := s.each l.zipIdx fun s x =>
      if x.2 < q.len / t then s else s.restamp p x.1 fun g => { g with fill := max g.fill (min t (len - x.2 * t)) }
    let s := s.dropRefs p (l.drop (ceilDiv len t))
    s.modSeq p slot fun q => { q with pages := tset [] q.pages layer (l.take (ceilDiv len t)) }

/-- R218: the accepted positions of a sequence committed, with their tokens. An empty path commits nothing. -/
def Block.commitSeq (s : Block) (p slot n : Nat) (path : List Nat) (toks : List Word) : Block :=
  match s.seqAt p slot with
  | none => s
  | some q =>
    let s := s.each (List.range ((s.snowOf p).cls q.cls).layers) fun s l => s.commitLayer p slot n path l
    let now := s.now
    let s := s.modSeq p slot fun q =>
      { q with len := q.len + path.length, tokens := q.tokens ++ toks.take path.length, inStep := false, lastStep := now }
    s.offer p slot q.len

/-- A sequence's pages beyond a length given back. -/
def Block.cutSeq (s : Block) (p slot len : Nat) : Block :=
  match s.seqAt p slot with
  | none => s
  | some q =>
    let n := ceilDiv len (max 1 ((s.snowOf p).cls q.cls).tokens)
    let s := s.dropRefs p (q.pages.flatMap fun e => e.2.drop n)
    s.modSeq p slot fun q =>
      { q with len := len, tokens := q.tokens.take len, pages := (q.pages.map fun e => (e.1, e.2.take n)).filter fun e => !e.2.isEmpty,
               damaged := q.damaged.filter fun d => decide (d < len) }

/-- A sequence destroyed. -/
def Block.dropSeq (s : Block) (p slot : Nat) : Block :=
  let s := (s.stopMove p slot (REFUSED 0xA0)).cutSeq p slot 0
  s.setSnow p { s.snowOf p with seqs := kdel (s.snowOf p).seqs slot }

/-! ### Messages (R240, R241) -/

/-- A sequence named by its owner, or the status. -/
def Block.ownSeq (s : Block) (ch : Chan) (p : Nat) (id : Word) (h : Nat → Seq → Answer) : Answer :=
  match s.seqOf p id with
  | none => s.no (REFUSED 0xA0)
  | some (slot, q) => if q.owner = chFn ch then h slot q else s.no (DENIED 0xA1)

/-- The class that a declaration describes, if it fits. -/
def kvClassOf (r1 r2 : Word) : Option KvClass :=
  let base (t : Nat) : KvClass :=
    { heads := r1.fld 3 0 + 1, dim := 64 * 2 ^ r1.fld 5 4, fmt := r1.fld 6 6, tokens := t, layers := r2.toNat }
  if r1.fld 5 4 = 3 ∨ 4 < r1.fld 9 7 ∨ r2.toNat = 0 ∨ 256 < r2.toNat then none
  else if r1.fld 9 7 = 0 then [64, 48, 32, 16].findSome? fun t => if (base t).fits then some (base t) else none
  else if (base (16 * r1.fld 9 7)).fits then some (base (16 * r1.fld 9 7)) else none

/-- SNW_KV_CLASS (R209). -/
def effSnwKvClass (ch : Chan) (s : Block) : Block :=
  s.message ch 0x0501 fun s ws => s.msgPart ch fun p =>
    match kvClassOf (mreg ws 1) (mreg ws 2) with
    | none => s.no (REFUSED 0xA2)
    | some k =>
      let w := s.snowOf p
      match ((List.range 15).map (· + 1)).filter fun c => (kget w.classes c).isNone with
      | [] => s.no (NO_SPACE 0xAE)
      | l =>
        let (c, s) := s.pick l 1
        (s.setSnow p { s.snowOf p with classes := kput w.classes c k }).yes [w32 c, w32 k.tokens]

/-- The sequence's pages after a match: those of the nodes, layer by layer. -/
def Block.takeNodes (s : Block) (p slot : Nat) (nodes : List Nat) : Block :=
  match s.seqAt p slot with
  | none => s
  | some q =>
    let w := s.snowOf p
    let ns := nodes.filterMap fun k => kget w.nodes k
    let layers := (List.range (w.cls q.cls).layers).map fun l => (l, ns.map fun n => n.pages.getD l 0)
    match s.shareLayers p (seqId slot q) ns.length layers with
    | none => s
    | some (pages, s) =>
      s.modSeq p slot fun q =>
        { q with pages := pages, len := ns.length * (w.cls q.cls).tokens, tokens := ns.flatMap (·.tokens) }

/-- SNW_SEQ_CREATE (R213, R229, R231). -/
def effSnwSeqCreate (ch : Chan) (s : Block) : Block :=
  s.message ch 0x0502 fun s ws => s.msgPart ch fun p =>
    let f := chFn ch
    let w := s.snowOf p
    let r := mreg ws 2
    let n := (mreg ws 6).toNat
    let none_ := r.bit 6
    if (kget w.classes (mreg ws 1).toNat).isNone then s.no (REFUSED 0xA2)
    else if !none_ && ((kget w.nsKeys (r.fld 5 0)).isNone || kget w.nsOf f != some (r.fld 5 0)) then s.no (REFUSED 0xA7)
    else
      match (if n = 0 then none else s.hostReadStatus f (mpair ws 4) (4 * n)) with
      | some st => s.no st
      | none =>
        match s.seqFreeSlot p with
        | (none, _) => s.no (NO_SPACE 0xA5)
        | (some (slot, gen), s) =>
          let q := Seq.fresh gen f (mreg ws 1).toNat (if none_ then none else some (r.fld 5 0)) (mreg ws 3) (r.bit 9) s.now
          let tok := bytesWords n (s.hostRead (mpair ws 4) (4 * n))
          let s := s.putSeq p slot q
          let s := match (if r.bit 8 then s.seqWalk p q else none) with
            | none => s
            | some x =>
              let m := s.walk p x (n / max 1 x.size) 0 (rootHash x.key q.cls q.kvTag) tok
              m.2.takeNodes p slot m.1
          s.yes [w32 (seqId slot q), w32 (((s.seqAt p slot).map (·.len)).getD 0)]

/-- SNW_SEQ_FORK (R226). -/
def effSnwSeqFork (ch : Chan) (s : Block) : Block :=
  s.message ch 0x0503 fun s ws => s.msgPart ch fun p =>
    match s.seqOf p (mreg ws 1) with
    | none => s.no (REFUSED 0xA0)
    | some (_, q) =>
      let len := (mreg ws 2).toNat
      if !s.mayRead p (chFn ch) q then s.no (DENIED 0xA1)
      else if q.len < len then s.no (REFUSED 0xAD)
      else
        match s.seqFreeSlot p with
        | (none, _) => s.no (NO_SPACE 0xA5)
        | (some (slot, gen), s1) =>
          let c : Seq := { Seq.fresh gen (chFn ch) q.cls q.ns q.kvTag q.publish s.now with
            len := len, tokens := q.tokens.take len, damaged := q.damaged.filter fun d => decide (d < len), lost := q.lost }
          match s1.forkPages p (seqId slot c) q len with
          | none => s.no (NO_SPACE 0xA6)
          | some (pages, s) => (s.putSeq p slot { c with pages := pages }).yes [w32 (seqId slot c)]

/-- SNW_SEQ_TRUNCATE (R228, R238). -/
def effSnwSeqTruncate (ch : Chan) (s : Block) : Block :=
  s.message ch 0x0504 fun s ws => s.msgPart ch fun p => s.ownSeq ch p (mreg ws 1) fun slot q =>
    if q.inStep then s.no (BUSY 0xA3)
    else if q.len < (mreg ws 2).toNat then s.no (REFUSED 0xAD)
    else ((s.cutSeq p slot (mreg ws 2).toNat).settleSeq p slot).yes

/-- SNW_SEQ_FREE (R228). -/
def effSnwSeqFree (ch : Chan) (s : Block) : Block :=
  s.message ch 0x0505 fun s ws => s.msgPart ch fun p => s.ownSeq ch p (mreg ws 1) fun slot q =>
    if q.inStep then s.no (BUSY 0xA3) else ((s.dropSeq p slot).openMoves p).yes

/-- SNW_SEQ_QUERY. -/
def effSnwSeqQuery (ch : Chan) (s : Block) : Block :=
  s.message ch 0x0506 fun s ws => s.msgPart ch fun p => s.ownSeq ch p (mreg ws 1) fun _ q =>
    let w := s.snowOf p
    let n (f : Nat → Bool) := (q.all.filter fun pid => (kget w.pages pid).any fun g => f (locTier g.loc)).length
    s.yes [w32 (w.state q + 8 * b2n q.damaged.isSome + 16 * b2n q.lost), w32 q.len, w32 (n (· == 0)), w32 (n (· == 1)),
           w32 (n fun t => decide (2 ≤ t)), w32 (q.damaged.getD 0)]

/-- Pages of a sequence that would move to a tier. -/
def Snow.moveCount (w : Snow) (q : Seq) (t : Nat) : Nat :=
  (q.all.filter fun pid => (kget w.pages pid).any fun g => w.movable t pid g).length

/-- SNW_SEQ_PARK (R234). -/
def effSnwSeqPark (ch : Chan) (s : Block) : Block :=
  s.message ch 0x0507 fun s ws => s.msgPart ch fun p => s.ownSeq ch p (mreg ws 1) fun slot q =>
    let t := (mreg ws 2).toNat + 1
    if q.inStep then s.no (BUSY 0xA3)
    else if t = 2 ∧ s.lost then s.no (NOT_READY 0xAC)
    else if 3 < t ∨ s.freePages p t < (s.snowOf p).moveCount q t then s.no (NO_SPACE 0xA6)
    else
      let owed := q.reply
      let s := s.modSeq p slot fun q => { q with reply := none }
      let s := match owed with
        | some (c, h) => s.replyLate c [h, w32 (ABORTED 0)]
        | none => s
      (s.moveSeq p slot t).yes

/-- SNW_SEQ_RESTORE (R237): the reply waits until the sequence is RESIDENT. -/
def effSnwSeqRestore (ch : Chan) (s : Block) : Block :=
  s.messageLater ch 0x0508 fun s ws =>
    let p := s.fnPart (chFn ch)
    let a : Answer := s.msgPart ch fun p => s.ownSeq ch p (mreg ws 1) fun slot q =>
      let w := s.snowOf p
      if q.lost then s.no (ABORTED 0xA9)
      else if s.lost && q.all.any fun pid => (kget w.pages pid).any fun g => locTier g.loc == 2 then s.no (NOT_READY 0xAC)
      else { status := OK, regs := [], blk := s.moveSeq p slot 0 }
    match s.seqOf p (mreg ws 1) with
    | some (slot, q) =>
      if a.status = OK ∧ q.reply.isNone ∧ ((a.blk.seqAt p slot).bind (·.target)).isSome then
        (none, a.blk.modSeq p slot fun q => { q with reply := some (ch, mreg ws 0) })
      else (some a, a.blk)
    | none => (some a, a.blk)

/-- Do two ranges of host memory overlap? -/
def overlaps (a n b m : Nat) : Bool := decide (a < b + m) && decide (b < a + n)

/-- Is a new segment valid (R235)? -/
def Block.arenaOk (s : Block) (p : Nat) (far : Bool) (seg addr mib : Nat) : Bool :=
  decide (0 < mib) && (kget (s.snowOf p).arenas (arenaKey far seg)).isNone &&
  (if far then s.nodeValid && decide (addr ≠ s.node) && s.reachable addr &&
      !(s.snowOf p).arenas.any fun a => a.2.far && a.2.addr == addr
   else decide (mib % 2 = 0 ∧ addr % 2097152 = 0) &&
      !s.snow.any fun e => e.2.arenas.any fun a => !a.2.far && overlaps a.2.addr (a.2.mib * 1048576) addr (mib * 1048576))

/-- SNW_ARENA_SET with WITHDRAW = 0: the segment's pages join the pool. -/
def effSnwArenaAdd (ch : Chan) (s : Block) : Block :=
  s.messageWhen ch 0x0509 (fun ws => !(mreg ws 1).bit 1) fun s ws => s.msgPart ch fun p =>
    let far := (mreg ws 1).bit 0
    let seg := (mreg ws 1).fld 7 4
    let addr := if far then (mreg ws 2).fld 14 0 else mpair ws 2
    let mib := (mreg ws 4).toNat
    if !s.arenaOk p far seg addr mib then s.no (REFUSED 0xAB) else
    let a : Arena := { far := far, addr := addr, mib := mib, leaving := none }
    let w := s.snowOf p
    (((s.setSnow p { w with arenas := kput w.arenas (arenaKey far seg) a }).ledGrow (pageLedger p (if far then 3 else 2))
      (arenaPages a)).openMoves p).yes

/-- SNW_ARENA_SET with WITHDRAW = 1: the reply waits until the segment holds no page (R235, R341). -/
def effSnwArenaWithdraw (ch : Chan) (s : Block) : Block :=
  if !(mreg (s.msgWords ch) 1).bit 1 then s else
  s.messageLater ch 0x0509 fun s ws =>
    let p := s.fnPart (chFn ch)
    let k := arenaKey ((mreg ws 1).bit 0) ((mreg ws 1).fld 7 4)
    let w := s.snowOf p
    if (s.part p).isNone then (some (s.no (DENIED 0xD9)), s) else
    match kget w.arenas k with
    | none => (some (s.no (REFUSED 0xAB)), s)
    | some a =>
      if a.leaving.isSome then (some (s.no (REFUSED 0xAB)), s)
      else if (w.arenaUsed k).isEmpty then
        let s := (s.setSnow p { w with arenas := kdel w.arenas k }).ledShrink (pageLedger p (if a.far then 3 else 2)) (arenaPages a)
        (some s.yes, s)
      else (none, s.setSnow p { w with arenas := kput w.arenas k { a with leaving := some (ch, mreg ws 0) } })

/-- A message that only the PF may send (R229). -/
def Block.pfOnly (s : Block) (ch : Chan) (st : Nat) (h : Answer) : Answer := if chFn ch = 0 then h else s.no st

/-- SNW_NS_SET with LEAVE = 0. -/
def effSnwNsJoin (ch : Chan) (s : Block) : Block :=
  s.messageWhen ch 0x050A (fun ws => !(mreg ws 2).bit 6) fun s ws => s.pfOnly ch (DENIED 0xA8) <| s.msgPart ch fun p =>
    let w := s.snowOf p
    if (kget w.nsKeys ((mreg ws 2).fld 5 0)).isNone then s.no (REFUSED 0xA7)
    else (s.setSnow p { w with nsOf := kput w.nsOf (mreg ws 1).toNat ((mreg ws 2).fld 5 0) }).yes

/-- SNW_NS_SET with LEAVE = 1. -/
def effSnwNsLeave (ch : Chan) (s : Block) : Block :=
  s.messageWhen ch 0x050A (fun ws => (mreg ws 2).bit 6) fun s ws => s.pfOnly ch (DENIED 0xA8) <| s.msgPart ch fun p =>
    let w := s.snowOf p
    (s.setSnow p { w with nsOf := kdel w.nsOf (mreg ws 1).toNat }).yes

/-- SNW_NS_CTRL with OP = 0: the key is drawn and never revealed. -/
def effSnwNsCreate (ch : Chan) (s : Block) : Block :=
  s.messageWhen ch 0x050B (fun ws => !(mreg ws 1).bit 8) fun s ws => s.pfOnly ch (DENIED 0xA8) <| s.msgPart ch fun p =>
    let n := (mreg ws 1).fld 5 0
    if (kget (s.snowOf p).nsKeys n).isSome then s.yes else
    let (k, s) := s.choose (2 ^ 64)
    (s.setSnow p { s.snowOf p with nsKeys := kput (s.snowOf p).nsKeys n k }).yes

/-- SNW_NS_CTRL with OP = 1 (R241). -/
def effSnwNsDestroy (ch : Chan) (s : Block) : Block :=
  s.messageWhen ch 0x050B (fun ws => (mreg ws 1).bit 8) fun s ws => s.pfOnly ch (DENIED 0xA8) <| s.msgPart ch fun p =>
    let n := (mreg ws 1).fld 5 0
    let w := s.snowOf p
    if (kget w.nsKeys n).isNone then s.yes
    else if w.nsOf.any (fun e => e.2 == n) || w.seqs.any fun e => e.2.ns == some n then s.no (BUSY 0xAF)
    else
      let s := s.each (keys (w.nodes.filter fun e => e.2.ns == n)) fun s k => s.dropNode p k
      (s.setSnow p { s.snowOf p with nsKeys := kdel (s.snowOf p).nsKeys n }).yes

/-! ### Meanings -/

/-- The meaning of SNW_KV_CLASS. -/
def execSnwKvClass (ch : Chan) : State → Host.Outcome State Fault Refusal := onBlk (effSnwKvClass ch)
/-- The meaning of SNW_SEQ_CREATE. -/
def execSnwSeqCreate (ch : Chan) : State → Host.Outcome State Fault Refusal := onBlk (effSnwSeqCreate ch)
/-- The meaning of SNW_SEQ_FORK. -/
def execSnwSeqFork (ch : Chan) : State → Host.Outcome State Fault Refusal := onBlk (effSnwSeqFork ch)
/-- The meaning of SNW_SEQ_TRUNCATE. -/
def execSnwSeqTruncate (ch : Chan) : State → Host.Outcome State Fault Refusal := onBlk (effSnwSeqTruncate ch)
/-- The meaning of SNW_SEQ_FREE. -/
def execSnwSeqFree (ch : Chan) : State → Host.Outcome State Fault Refusal := onBlk (effSnwSeqFree ch)
/-- The meaning of SNW_SEQ_QUERY. -/
def execSnwSeqQuery (ch : Chan) : State → Host.Outcome State Fault Refusal := onBlk (effSnwSeqQuery ch)
/-- The meaning of SNW_SEQ_PARK. -/
def execSnwSeqPark (ch : Chan) : State → Host.Outcome State Fault Refusal := onBlk (effSnwSeqPark ch)
/-- The meaning of SNW_SEQ_RESTORE. -/
def execSnwSeqRestore (ch : Chan) : State → Host.Outcome State Fault Refusal := onBlk (effSnwSeqRestore ch)
/-- The meaning of SNW_ARENA_ADD. -/
def execSnwArenaAdd (ch : Chan) : State → Host.Outcome State Fault Refusal := onBlk (effSnwArenaAdd ch)
/-- The meaning of SNW_ARENA_WITHDRAW. -/
def execSnwArenaWithdraw (ch : Chan) : State → Host.Outcome State Fault Refusal := onBlk (effSnwArenaWithdraw ch)
/-- The meaning of SNW_NS_JOIN. -/
def execSnwNsJoin (ch : Chan) : State → Host.Outcome State Fault Refusal := onBlk (effSnwNsJoin ch)
/-- The meaning of SNW_NS_LEAVE. -/
def execSnwNsLeave (ch : Chan) : State → Host.Outcome State Fault Refusal := onBlk (effSnwNsLeave ch)
/-- The meaning of SNW_NS_CREATE. -/
def execSnwNsCreate (ch : Chan) : State → Host.Outcome State Fault Refusal := onBlk (effSnwNsCreate ch)
/-- The meaning of SNW_NS_DESTROY. -/
def execSnwNsDestroy (ch : Chan) : State → Host.Outcome State Fault Refusal := onBlk (effSnwNsDestroy ch)
/-- The meaning of PAGE_MOVE_SWITCH. -/
def execPageMoveSwitch (p : Nat) (pid : Nat) : State → Host.Outcome State Fault Refusal := onBlk (effPageMoveSwitch p pid)
/-- The meaning of PAGE_ZERO_FILL_DONE. -/
def execPageZeroFillDone (p : Nat) (pid : Nat) : State → Host.Outcome State Fault Refusal := onBlk (effPageZeroFillDone p pid)


end Sys2Proof.Machine
end

