-- ==== Sys2Proof/Machine/Graupel.lean ====
section
/-! DEFINITION. The Graupel sampling unit: its stages, its uniform values, the drawing of candidates and the
verification of drafts (R257 to R262). -/

namespace Sys2Proof.Machine

/-! ### Sampling parameters (R245, R259) -/

/-- What Graupel is given for a request. -/
structure Sampling where
  temp : Word
  topP : Word
  minP : Word
  topK : Nat
  rep : Word
  pres : Word
  seed : Nat
  bias : List (Nat × Word)
  allow : Option (List Byte)
  deriving DecidableEq, Repr

/-- Is TEMP 0? -/
def Sampling.greedy (a : Sampling) : Bool := fEq a.temp 0

/-- The numbers of a distribution, by rising token. -/
abbrev Dist := List (Nat × Word)

/-! ### The stages (R257) -/

/-- Is the token allowed? -/
def Sampling.allowed (a : Sampling) (i : Nat) : Bool :=
  match a.allow with
  | none => true
  | some l => (l.getD (i / 8) 0).toNat.testBit (i % 8)

/-- The bias entries added in turn; duplicates both add. -/
def addBias (bias : List (Nat × Word)) (x : List Word) : List Word :=
  bias.foldl (fun x b => if b.1 < x.length then x.set b.1 (fAdd (x.getD b.1 0) b.2) else x) x

/-- The penalties of one token. -/
def Sampling.penalize (a : Sampling) (x : Word) : Word :=
  fSub (if fLt 0 x then fDiv x a.rep else fMul x a.rep) a.pres

/-- The penalties of the tokens of a count table. -/
def Sampling.penalties (a : Sampling) (counts : List Nat) (x : List Word) : List Word :=
  counts.foldl (fun x t => if t < x.length then x.set t (a.penalize (x.getD t 0)) else x) x

/-- NAN_LOGITS. -/
def nanLogits : Nat := ABORTED 0xB7
/-- NO_ALLOWED_TOKEN. -/
def noAllowed : Nat := REFUSED 0xB6

/-- The stages before sampling, or the status that ends the request. -/
def Sampling.stages (a : Sampling) (counts : List Nat) (logits : List Word) : Except Nat (List Word) :=
  if logits.any fun x => fIsNan x || x == fInf false then .error nanLogits else
  let x := addBias a.bias logits
  let x := x.zipIdx.map fun y => if a.allowed y.2 then y.1 else fInf true
  let x := a.penalties counts x
  if x.all (· == fInf true) then .error noAllowed else .ok x

/-- The lowest token whose value is the largest. -/
def greedyOf (x : List Word) : Nat :=
  (x.zipIdx.foldl (fun (b : Option (Nat × Word)) y =>
    match b with
    | none => some (y.2, y.1)
    | some c => if fLt c.2 y.1 then some (y.2, y.1) else b) none |>.map (·.1)).getD 0

/-- The e of every token: exp(x / TEMP − m), by rising token, where it is above 0. -/
def Sampling.weights (a : Sampling) (x : List Word) : Dist :=
  let y := x.map fun v => fDiv v a.temp
  let m := y.foldl (fun m v => if fLt m v then v else m) (fInf true)
  ((y.zip x).zipIdx.map fun v => (v.2, if v.1.2 == fInf true then 0 else fExp (fSub v.1.1 m))).filter fun v => fLt 0 v.2

/-- The sum in the order given. -/
def sumOf (l : Dist) : Word := l.foldl (fun c v => fAdd c v.2) 0

/-- The shortest prefix whose running sum reaches a goal. -/
def prefixTo (goal : Word) : Word → Dist → Dist
  | _, [] => []
  | c, v :: l =>
    let c := fAdd c v.2
    if fLt c goal then v :: prefixTo goal c l else [v]

/-- The tokens kept after the filters, by rising token. -/
def Sampling.keep (a : Sampling) (e : Dist) : Dist :=
  let k := e.mergeSort fun v w => fLt w.2 v.2 || (!fLt v.2 w.2 && decide (v.1 ≤ w.1))
  let k := if a.topK = 0 then k else k.take a.topK
  let k := if fLt a.topP 0x3F800000 then prefixTo (fMul a.topP (sumOf k)) 0 k else k
  let k := if fLt 0 a.minP then k.filter fun v => !fLt v.2 a.minP else k
  k.mergeSort fun v w => decide (v.1 ≤ w.1)

/-- R258: the 24-bit uniform value. -/
def grpUniform (seed idx lane : Nat) : Word :=
  dyFp32 ⟨(mix seed (idx * 256 + lane) / 2 ^ 40 : Nat), -24⟩ false

/-- The first token whose running sum passes `t`. -/
def passes (t : Word) : Word → Dist → Option Nat
  | _, [] => none
  | c, v :: l =>
    let c := fAdd c v.2
    if fLt t c then some v.1 else passes t c l

/-- A draw from a distribution. Which token comes of a row whose scaled logits leave nothing to keep is open. -/
def Sampling.draw (a : Sampling) (k : Dist) (idx lane size : Nat) : Nat :=
  match passes (fMul (grpUniform a.seed idx lane) (sumOf k)) 0 k with
  | some i => i
  | none => match k.getLast? with
    | some v => v.1
    | none => (Config.outOfDomain 16 (w32 (idx * 256 + lane))).toNat % max 1 size

/-- e / P over the tokens kept. -/
def shares (k : Dist) : Dist := let p := sumOf k; k.map fun v => (v.1, fDiv v.2 p)

/-- The value of a token; 0 outside the distribution. -/
def Dist.at (d : Dist) (i : Nat) : Word := tget 0 d i

/-- p = normalize(max(0, p − q)); a sum of 0 keeps p (R262). -/
def residual (p q : Dist) : Dist :=
  let r := (p.map fun v => (v.1, fSub v.2 (Dist.at q v.1))).filter fun v => fLt 0 v.2
  let t := sumOf r
  if fEq t 0 then p else r.map fun v => (v.1, fDiv v.2 t)

/-! ### Rows of logits -/

/-- The offset of element (…, i, j) of an object in its DATA section; `lead` counts the rows of the dimensions
before the last two (R73). -/
def elemOffset (d : List Word) (lead i j : Nat) : Nat :=
  let b := fmtBits (dFmt d)
  let rows := dShape d (dNdim d - 2)
  if dLayout d = 1 then
    ((lead * ceilDiv rows 128 + i / 128) * ceilDiv (dInner d) 128 + j / 128) * (2048 * b) + (i % 128 * 128 + j % 128) * b / 8
  else (lead * rows + i) * dRowBytes d + j * b / 8

/-- What a row read gives. -/
inductive RowRead where
  /-- The FP32 values of the row. -/
  | row (x : List Word)
  /-- The object is missing or a logit has a mark: the step ends with this status. -/
  | ends (st : Nat)
  deriving DecidableEq, Repr

/-- The `n` logits of a row of an object. A logit with a mark is consumed here (R257, R468). -/
def Block.logits (s : Block) (p : Nat) (h : Word) (lead i n : Nat) : RowRead × Block :=
  match s.byHandle p h with
  | none => (.ends (REFUSED 0x40), s)
  | some o =>
    let w := fmtBits (dFmt o.desc) / 8
    let at_ (j : Nat) : Nat := elemOffset o.desc lead i j
    match (List.range n).find? fun j => o.data.marked (at_ j) w with
    | some j => let r := s.consumedObj 5 0 p h (at_ j / 32 * 32); (.ends r.1, r.2)
    | none =>
      (.row ((List.range n).map fun j =>
        let x := leNat (o.read (at_ j) w)
        if w = 2 then w32 (x * 65536) else w32 x), s)

/-! ### Verdicts (R261, R262) -/

/-- A token entered into a count table of 4,096 (R260). -/
def Block.countToken (s : Block) (counts : List Nat) (t : Nat) : List Nat × Block :=
  if counts.contains t then (counts, s)
  else if counts.length < 4096 then (counts ++ [t], s)
  else (counts, s.bump GRP_CNT_TBL_FULL)

/-- What a sampling is about: partition, the two logits objects, vocabulary, heads. -/
structure Heads where
  part : Nat
  logits : Word
  dlogits : Word
  vocab : Nat
  heads : Nat

/-- The stages applied to a row, with the counters of the rows they refuse (R257, R272). -/
def Block.stageRow (s : Block) (a : Sampling) (counts : List Nat) (x : List Word) : Except Nat (List Word) × Block :=
  match a.stages counts x with
  | .ok y => (.ok y, s)
  | .error st => (.error st, s.bump (if st = nanLogits then GRP_CNT_NAN else GRP_CNT_NOALLOW))

/-- The outcome at a node: a child accepted, or a token from the node itself. -/
inductive Choice where
  | child (off : Nat) (c : Candidate)
  | token (t : Nat)

/-- The children tried in order under sampling: the choice and how many were tested. -/
def Sampling.tryKids (a : Sampling) (idx size : Nat) (p : Dist) : List (Candidate × Nat) → Nat → Choice × Nat
  | [], n => (.token (a.draw p idx 3 size), n)
  | (c, off) :: l, n =>
    let r := fDiv (Dist.at p c.token) (Dist.at c.q c.token)
    let r := if fLt 0x3F800000 r then 0x3F800000 else r
    if fLt (grpUniform a.seed idx (1 + c.k)) r then (.child off c, n + 1)
    else a.tryKids idx size (residual p c.q) l (n + 1)

/-- The choice at a node from its staged logits and its children. -/
def Sampling.choose (a : Sampling) (idx : Nat) (x : List Word) (kids : List (Candidate × Nat)) : Choice × Nat :=
  if a.greedy then
    let g := greedyOf x
    match kids.findIdx? fun c => c.1.token == g, kids.find? fun c => c.1.token == g with
    | some i, some c => (.child c.2 c.1, i + 1)
    | _, _ => (.token g, kids.length)
  else
    let k := a.keep (a.weights x)
    if kids.isEmpty then (.token (a.draw k idx 0 x.length), 0)
    else a.tryKids idx x.length (shares k) kids 0

/-- Verification from the node at fresh position `off` of depth `d`; the number bounds the depth. `row` is the
row of the pending token. -/
def Block.verify (s : Block) (h : Heads) (a : Sampling) (row : Nat) (cands : List Candidate) :
    Nat → Nat → Nat → Bool → Nat → Verdict → Verdict × Block
  | 0, _, _, _, _, v => (v, s)
  | n + 1, off, d, leaf, idx, v =>
    match s.logits h.part h.logits 0 (row + off) h.vocab with
    | (.ends st, s) => ({ v with stepEnd := some st }, s)
    | (.row x, s) =>
      match (s.bumpPair GRP_CNT_ROWS_LO 1).stageRow a v.counts x with
      | (.error st, s) => ({ v with reqEnd := some st }, s)
      | (.ok y, s) =>
        let kids := if leaf then [] else
          ((cands.zipIdx.map fun c => (c.1, c.2 + 1)).filter fun c => c.1.depth == d + 1)
        let r := a.choose idx y kids
        let v := { v with path := v.path ++ [off], tested := v.tested + r.2 }
        match r.1 with
        | .token t =>
          let c := s.countToken v.counts t
          ({ v with toks := v.toks ++ [t], counts := c.1 }, c.2)
        | .child o c =>
          let k := s.countToken v.counts c.token
          k.2.verify h a row cands n o (d + 1) (c.k == 1) (idx + 1)
            { v with toks := v.toks ++ [c.token], counts := k.1, accepted := v.accepted + 1 }

/-- The candidates of depth `d` drawn from a row of draft logits (R252, R261). -/
def Sampling.candidates (a : Sampling) (idx d : Nat) (tree : Bool) (x : List Word) : List Candidate :=
  if a.greedy then [{ depth := d, k := 0, token := greedyOf x, q := [] }] else
  let k := a.keep (a.weights x)
  let q := shares k
  let t0 := a.draw k idx 8 x.length
  let t1 := a.draw k idx 9 x.length
  { depth := d, k := 0, token := t0, q := q } ::
    (if tree && t1 != t0 then [{ depth := d, k := 1, token := t1, q := q }] else [])

/-- Candidates of depths `d` to `d + n − 1` from the end node's row: heads in turn, `idx` the index of the token
that depth `d` decides. -/
def Block.drawDepths (s : Block) (h : Heads) (a : Sampling) (counts : List Nat) (row : Nat) (tree : Bool) :
    Nat → Nat → Nat → List Candidate → Except (Bool × Nat) (List Candidate) × Block
  | 0, _, _, l => (.ok l, s)
  | n + 1, d, idx, l =>
    match s.logits h.part h.dlogits row (d - 1) h.vocab with
    | (.ends st, s) => (.error (true, st), s)
    | (.row x, s) =>
      match s.stageRow a counts x with
      | (.error st, s) => (.error (false, st), s)
      | (.ok y, s) => s.drawDepths h a counts row tree n (d + 1) (idx + 1) (l ++ a.candidates idx d tree y)

end Sys2Proof.Machine
end

