-- ==== Sys2Proof/Machine/Serve.lean ====
section
/-! DEFINITION. Serving: models, requests, adapters, the filling of steps with their tables, step boundaries,
latency classes, failures and retries (R244 to R274, R216, R217, R225, R313, R314). -/

namespace Sys2Proof.Machine

/-! ### Models (R244) -/

/-- Register `i` of the SRV_MODEL_LOAD that declared the model. -/
def Model.word (m : Model) (i : Nat) : Word := m.regs.getD (i - 1) 0
/-- VOCAB. -/
def Model.vocab (m : Model) : Nat := (m.word 3).fld 18 0
/-- HEADS. -/
def Model.heads (m : Model) : Nat := (m.word 3).fld 21 19
/-- The format code of the logits. -/
def Model.lfmt (m : Model) : Nat := if (m.word 3).bit 22 then 7 else 6
/-- STEP_ADDR. -/
def Model.stepAddr (m : Model) : Nat := (m.word 6).fld 22 0
/-- MAX_ROWS. -/
def Model.maxRows (m : Model) : Nat := (m.word 7).fld 16 0
/-- TGT_SLOT. -/
def Model.tgtSlot (m : Model) : Nat := (m.word 8).fld 15 0
/-- CHUNK. -/
def Model.chunk (m : Model) : Nat := (m.word 9).fld 15 0

/-- A partition that serves nothing. -/
def Serve.empty : Serve := { models := [], lastChange := 0, calm := 0 }
/-- The serving state of a partition. -/
def Block.serveOf (s : Block) (p : Nat) : Serve := tget Serve.empty s.serve p
/-- The serving state of a partition set. -/
def Block.setServe (s : Block) (p : Nat) (v : Serve) : Block := { s with serve := tset Serve.empty s.serve p v }
/-- A model. -/
def Block.model (s : Block) (p m : Nat) : Option Model := kget (s.serveOf p).models m
/-- A model changed. -/
def Block.modModel (s : Block) (p m : Nat) (f : Model → Model) : Block :=
  s.setServe p { s.serveOf p with models := kmod (s.serveOf p).models m f }
/-- Bundle of a model. -/
def Block.modelBundle (s : Block) (m : Model) : Option Bundle := kget s.bundles m.bundle
/-- Streams of a model's bundle. -/
def Block.modelStreams (s : Block) (m : Model) : Nat := ((s.modelBundle m).map (·.img.streams.length)).getD 0

/-! ### Requests (R245 to R249) -/

/-- Word `i` of a request's descriptor. -/
def Req.word (r : Req) (i : Nat) : Word := r.desc.getD i 0
/-- MODEL. -/
def Req.model (r : Req) : Nat := (r.word 0).fld 3 0
/-- CLASS. -/
def Req.cls (r : Req) : Nat := (r.word 0).fld 5 4
/-- BUDGET. -/
def Req.budget (r : Req) : Nat := (r.word 8).fld 23 0
/-- TREE. -/
def Req.tree (r : Req) : Bool := (r.word 0).bit 7
/-- Is the token one of STOP0 to STOP7? -/
def Req.stops (r : Req) (t : Nat) : Bool := (List.range 8).any fun i => (r.word (20 + i)).fld 18 0 == t
/-- Has the request not ended? -/
def Req.live (r : Req) : Bool := r.state != .ended
/-- The ID of a request. -/
def reqId (k : Nat) (r : Req) : Word := w32 (r.gen % 256 * 16777216 + k)

/-- A request. -/
def Block.req (s : Block) (k : Nat) : Option Req := kget s.reqs k
/-- A request changed. -/
def Block.modReq (s : Block) (k : Nat) (f : Req → Req) : Block := { s with reqs := kmod s.reqs k f }
/-- The requests of a partition that have not ended. -/
def Block.partReqs (s : Block) (p : Nat) : Tbl Req := s.reqs.filter fun e => e.2.live && s.fnPart e.2.fn == p
/-- The requests of a model that have not ended. -/
def Block.modelReqs (s : Block) (p m : Nat) : Tbl Req := (s.partReqs p).filter fun e => e.2.model == m

/-- The request that a function names by ID, when it is its own. -/
def Block.ownReq (s : Block) (f : Nat) (id : Word) : Option (Nat × Req) :=
  match s.req (id.fld 23 0) with
  | some r => if r.gen = id.fld 31 24 ∧ r.fn = f then some (id.fld 23 0, r) else none
  | none => none

/-- A request's state changed, with the accounts of R326. -/
def Block.reqState (s : Block) (k : Nat) (st : ReqState) : Block :=
  match s.req k with
  | none => s
  | some r =>
    if r.state = st then s else
    let now := s.now
    let s := if r.state = .queued ∨ r.state = .paused then s.countWait r.fn r.cls (now - r.stateAt) else s
    let s := if st = .paused then s.countPreempt r.fn r.cls else s
    s.modReq k fun r => { r with state := st, stateAt := now, pausedSince := r.pausedSince || st == .paused }

/-- The words of a progress record (R248). -/
def progressWords (k : Nat) (r : Req) (n st stepNo : Nat) : List Word :=
  [reqId k r, r.word 28, r.word 29, w32 r.emitted,
   w32 (n % 256 + 256 * b2n r.retried + 512 * b2n (decide (0 < r.backoff)) + 1024 * b2n r.pausedSince), w32 st, w32 stepNo]

/-- A progress record; the flags that it has told fall. -/
def Block.progress (s : Block) (k n st stepNo : Nat) : Block :=
  match s.req k with
  | none => s
  | some r =>
    let s := s.modReq k fun r => { r with retried := false, pausedSince := false }
    s.ringEntry r.fn r.ring (progressWords k r n st stepNo)

/-- Is an adapter version bound by a request that has not ended? -/
def Block.adapterBound (s : Block) (slot : Nat) : Bool :=
  s.reqs.any fun e => e.2.live && (e.2.adapter.map (·.2)) == some slot

/-- Versions that are not current and bound by no request leave (R266). -/
def Block.sweepAdapters (s : Block) (p : Nat) : Block :=
  { s with adapters := kfilter s.adapters fun i a => a.part != p || a.current || s.adapterBound i }

/-- A request ends with its final record of `n` tokens (R248, R249). -/
def Block.endReq (s : Block) (k n st stepNo : Nat) : Block :=
  match s.req k with
  | none => s
  | some r =>
    if !r.live then s else
    let s := s.progress k n st stepNo
    (s.reqState k .ended).countEnded r.fn r.cls

/-! ### SRV_MODEL_LOAD and SRV_MODEL_UNLOAD -/

/-- Is an object of the shape and format of a logits object (R244)? -/
def Block.logitsOk (s : Block) (p f b : Nat) (h : Word) (shape : List Nat) (fmt : Nat) : Bool :=
  (s.nameStatus p f b h).isNone && (match s.byHandle p h with
    | some o => dFmt o.desc == fmt && dNdim o.desc == shape.length && ((List.range shape.length).map (dShape o.desc)) == shape
    | none => false)

/-- Do the fields of a model record hold (R244)? -/
def Block.modelOk (s : Block) (p f : Nat) (m : Model) : Bool :=
  (match s.modelBundle m with
    | some b => b.part == p && b.forFn == f
    | none => false) &&
  (kget (s.snowOf p).classes m.cls).isSome &&
  decide (1 ≤ m.vocab ∧ m.vocab ≤ 262144 ∧ m.heads ≤ 4 ∧ 1 ≤ m.maxRows ∧ m.maxRows ≤ 65536 ∧ 1 ≤ m.tgtSlot ∧ 16 ≤ m.chunk) &&
  s.logitsOk p f m.bundle (m.word 4) [m.maxRows, m.vocab] m.lfmt &&
  (m.heads == 0 || s.logitsOk p f m.bundle (m.word 5) [m.maxRows, m.heads, m.vocab] m.lfmt)

/-- BAD_MODEL. -/
def badModel : Nat := REFUSED 0xB0

/-- SRV_MODEL_LOAD. -/
def effSrvModelLoad (ch : Chan) (s : Block) : Block :=
  s.message ch 0x0601 fun s ws => s.msgPart ch fun p =>
    let f := chFn ch
    let m : Model := { bundle := (mreg ws 1).fld 15 0, cls := (mreg ws 2).fld 3 0, regs := (List.range 9).map fun i => mreg ws (i + 1),
                       fn := f, stepNo := 0, damaged := false, step := none }
    let v := s.serveOf p
    if !s.modelOk p f m then s.no badModel else
    match ((List.range 15).map (· + 1)).filter fun k => (kget v.models k).isNone with
    | [] => s.no (NO_SPACE 0xBE)
    | l =>
      let (k, s) := s.pick l 1
      let s := { s with bundles := kmod s.bundles m.bundle fun b => { b with model := true } }
      (s.setServe p { v with models := kput v.models k m }).yes [w32 k]

/-- SRV_MODEL_UNLOAD. The adapters of the model leave with it. -/
def effSrvModelUnload (ch : Chan) (s : Block) : Block :=
  s.message ch 0x0602 fun s ws => s.msgPart ch fun p =>
    let k := (mreg ws 1).toNat
    match s.model p k with
    | none => s.no badModel
    | some m =>
      if m.fn ≠ chFn ch then s.no badModel
      else if !(s.modelReqs p k).isEmpty then s.no (BUSY 0xBC)
      else
        let v := s.serveOf p
        let s := s.setServe p { v with models := kdel v.models k }
        let used := s.serve.any fun e => e.2.models.any fun x => x.2.bundle == m.bundle
        let s := { s with bundles := kmod s.bundles m.bundle fun b => { b with model := used },
                          adapters := kfilter s.adapters fun _ a => !(a.part == p && a.model == k) }
        s.yes

/-! ### Adapters (R264 to R266) -/

/-- The current version of an adapter ID, with its slot. -/
def Block.currentAdapter (s : Block) (p id : Nat) : Option (Nat × Adapter) :=
  s.adapters.find? fun e => e.2.part == p && e.2.id == id && e.2.current

/-- A free adapter slot, an open choice. -/
def Block.adapterSlot (s : Block) : Option Nat × Block :=
  s.freeIndex 4096 (keys s.adapters)

/-- SRV_ADAPTER_LOAD. -/
def effSrvAdapterLoad (ch : Chan) (s : Block) : Block :=
  s.message ch 0x0603 fun s ws => s.msgPart ch fun p =>
    let f := chFn ch
    let id := (mreg ws 1).toNat
    let v := (mreg ws 2).toNat
    let rank := (mreg ws 3).fld 8 0
    let m := (mreg ws 4).toNat
    let a : Adapter := { part := p, id := id, version := v, rank := rank, shared := (mreg ws 3).bit 16, model := m, a := mreg ws 5, b := mreg ws 6,
                         scale := mreg ws 7, fn := f, current := true }
    if (s.model p m).isNone then s.no badModel
    else if id = 0 ∨ 65535 < id ∨ v = 0 ∨ 65535 < v ∨ rank = 0 ∨ 256 < rank then s.no (REFUSED 0xB2)
    else
      match [mreg ws 5, mreg ws 6].findSome? fun h => s.nameStatus p f 0 h with
      | some st => s.no st
      | none =>
        if s.adapters.any fun e => e.2.part == p && e.2.id == id && decide (v ≤ e.2.version) then s.no (REFUSED 0xB9) else
        match s.adapterSlot with
        | (none, _) => s.no (NO_SPACE 0xBA)
        | (some k, s) =>
          let old := kmap s.adapters fun _ x => if x.part = p ∧ x.id = id then { x with current := false } else x
          (({ s with adapters := kput old k a } : Block).sweepAdapters p).yes [w32 k]

/-- SRV_ADAPTER_UNLOAD: the ID loses its current version. -/
def effSrvAdapterUnload (ch : Chan) (s : Block) : Block :=
  s.message ch 0x0604 fun s ws => s.msgPart ch fun p =>
    let id := (mreg ws 1).toNat
    match s.currentAdapter p id with
    | none => s.no (REFUSED 0xB1)
    | some (_, a) =>
      if a.fn ≠ chFn ch then s.no (DENIED 0xBD) else
      (({ s with adapters := kmap s.adapters fun _ x => if x.part = p ∧ x.id = id then { x with current := false } else x }
        : Block).sweepAdapters p).yes

/-! ### SRV_REQ_CANCEL, SRV_REQ_REBIND, SRV_REQ_QUERY -/

/-- SRV_REQ_CANCEL: it takes effect at the next step boundary. A request that has ended stays as it is. -/
def effSrvReqCancel (ch : Chan) (s : Block) : Block :=
  s.message ch 0x0605 fun s ws =>
    match s.ownReq (chFn ch) (mreg ws 1) with
    | some (k, _) => (s.modReq k fun r => { r with cancel := some (ABORTED 0) }).yes
    | none => s.yes

/-- The slot of the version of an adapter that a request names, 0 for the current one, or the status: one that is not
resident for the request's model, or that another function has loaded for itself (R264, R265). -/
def Block.rebindSlot (s : Block) (p : Nat) (r : Req) (id v : Nat) : Except Nat (Nat × Adapter) :=
  match (if v = 0 then s.currentAdapter p id
    else s.adapters.find? fun e => e.2.part == p && e.2.id == id && e.2.version == v) with
  | none => .error (REFUSED 0xB1)
  | some (k, a) =>
    if a.model ≠ r.model then .error (REFUSED 0xB1)
    else if !a.shared && a.fn ≠ r.fn then .error (DENIED 0xBD) else .ok (k, a)

/-- SRV_REQ_REBIND. -/
def effSrvReqRebind (ch : Chan) (s : Block) : Block :=
  s.message ch 0x0606 fun s ws =>
    let v := (mreg ws 2).toNat
    match s.ownReq (chFn ch) (mreg ws 1) with
    | none => s.no (REFUSED 0xB1)
    | some (k, r) =>
      match (if r.live then r.adapter else none) with
      | none => s.no (REFUSED 0xB1)
      | some (id, _) =>
        match s.rebindSlot (s.fnPart r.fn) r id v with
        | .error st => s.no st
        | .ok _ => (s.modReq k fun r => { r with rebind := some v }).yes

/-- The code of a request's state (R270). -/
def ReqState.code : ReqState → Nat
  | .queued => 0
  | .active => 1
  | .paused => 2
  | .ended => 3

/-- SRV_REQ_QUERY. An unknown request reads as ended. -/
def effSrvReqQuery (ch : Chan) (s : Block) : Block :=
  s.message ch 0x0607 fun s ws =>
    match s.ownReq (chFn ch) (mreg ws 1) with
    | none => s.yes [3, 0, 0, 0]
    | some (_, r) => s.yes [w32 r.state.code, w32 r.emitted, w32 r.version, w32 (r.backoff % 65536 + r.rejects % 256 * 65536)]

/-! ### Submission (R246, R247, R259, R260) -/

/-- SKIP_MAX. -/
def Block.skipMax (s : Block) (p : Nat) : Nat := max 1 (s.fld (SRV p 0) 15 8)
/-- RETRY_MAX. -/
def Block.retryMax (s : Block) (p : Nat) : Nat := max 1 (s.fld (SRV p 0) 23 16)
/-- LEVEL. -/
def Block.level (s : Block) (p : Nat) : Nat := s.fld (SRV p 0x18) 1 0
/-- Is a class paused at a level (R255)? -/
def pausedClass (level c : Nat) : Bool := decide (3 ≤ level + c)

/-- The words of a BIAS object that a request uses. -/
def Block.biasOf (s : Block) (p : Nat) (r : Req) : List (Nat × Word) :=
  if r.word 18 = 0 then [] else
  match s.byHandle p (r.word 18) with
  | none => []
  | some o => (List.range ((r.word 19).fld 6 0)).map fun i =>
      (leNat (o.read (8 * i) 4), w32 (leNat (o.read (8 * i + 4) 4)))

/-- The bits of an ALLOW object. -/
def Block.allowOf (s : Block) (p vocab : Nat) (r : Req) : Option (List Byte) :=
  if r.word 17 = 0 then none else (s.byHandle p (r.word 17)).map fun o => o.read 0 (ceilDiv vocab 8)

/-- What Graupel is given for a request. -/
def Block.sampling (s : Block) (p vocab : Nat) (r : Req) : Sampling :=
  { temp := r.word 10, topP := r.word 11, minP := r.word 12, topK := (r.word 13).fld 10 0,
    rep := w32 ((r.word 14).fld 15 0 * 65536), pres := w32 ((r.word 14).fld 31 16 * 65536),
    seed := (r.word 15).toNat + 2 ^ 32 * (r.word 16).toNat, bias := s.biasOf p r, allow := s.allowOf p vocab r }

/-- Is a word a positive normal FP32 value? -/
def fNormal (w : Word) : Bool := decide (1 ≤ w.fld 30 23 ∧ w.fld 30 23 ≤ 254) && !w.bit 31

/-- The ranges of R259. -/
def Sampling.ok (a : Sampling) : Bool :=
  (fEq a.temp 0 || (fNormal a.temp && !fLt 0x42C80000 a.temp)) && decide (a.topK ≤ 1024) &&
  fLt 0 a.topP && !fLt 0x3F800000 a.topP && !fLt a.minP 0 && fLt a.minP 0x3F800000 &&
  !fIsNan a.rep && !fLt a.rep 0x3F800000 && !fLt 0x41000000 a.rep &&
  !fIsNan a.pres && !fLt a.pres 0xC0000000 && !fLt 0x40000000 a.pres &&
  a.bias.all fun b => decide (b.1 < 262144 ∧ b.2.fld 30 23 ≠ 255)

/-- Is the object that a request names of format `fmt` and of at least `n` bytes of data? The status that ends the
request otherwise. -/
def Block.reqObject (s : Block) (p f : Nat) (h : Word) (fmt n : Nat) : Option Nat :=
  if h = 0 then none else
  match s.nameStatus p f 0 h, s.byHandle p h with
  | some st, _ => some st
  | none, none => some (REFUSED 0x40)
  | none, some o => if dFmt o.desc = fmt ∧ n ≤ sectSize o.desc 0 then none else some (REFUSED 0xB2)

/-- The adapter that a request binds, or the status (R246, R264). -/
def Block.reqAdapter (s : Block) (p : Nat) (r : Req) : Except Nat (Option (Nat × Adapter)) :=
  let id := (r.word 2).fld 15 0
  if id = 0 then .ok none else (s.rebindSlot p r id 0).map some

/-- The sequence that a request names, or the status. -/
def Block.reqSeq (s : Block) (p : Nat) (m : Model) (r : Req) : Except Nat (Nat × Seq) :=
  match s.seqOf p (r.word 1) with
  | none => .error (REFUSED 0xA0)
  | some (k, q) =>
    if q.owner ≠ r.fn then .error (DENIED 0xA1)
    else if q.cls ≠ m.cls then .error (REFUSED 0xA0) else .ok (k, q)

/-- A slot for a request, from 1 to 262,144, an open choice, and its generation. -/
def Block.reqFreeSlot (s : Block) : Option (Nat × Nat) × Block :=
  let start := s.freeVal
  let ok (i : Nat) := !((s.req i).any Req.live) && decide (tget 0 s.reqGens i ≤ 0xFF)
  (((List.range (min 262144 (s.reqs.length + s.reqGens.length + 1))).map fun i => (start + i) % 262144 + 1).find? ok |>.map
    fun i => (i, tget 0 s.reqGens i), s.drawn)

/-- A request as its descriptor makes it. -/
def Req.fresh (f q ring : Nat) (desc : List Word) (now : Nat) : Req :=
  { gen := 0, fn := f, queue := q, ring := ring, desc := desc, state := .queued, seq := 0, input := [], emitted := 0, adapter := none,
    version := 0, counts := [], skips := 0, since := now, stateAt := now, backoff := 0, rejects := 0, cands := [], retried := false,
    pausedSince := false, started := false, cancel := none, rebind := none }

/-- The checks of R246 and R247 in order. -/
def Block.reqStatus (s : Block) (p : Nat) (r : Req) : Except Nat (Nat × Seq × Option (Nat × Adapter)) :=
  match s.model p r.model with
  | none => .error badModel
  | some m =>
    if m.damaged then .error MODEL_DAMAGED else do
    let (k, q) ← s.reqSeq p m r
    if (s.partReqs p).any fun e => e.2.seq == k then .error (BUSY 0xB4)
    let a ← s.reqAdapter p r
    if (r.word 0).bit 6 && m.heads == 0 then .error (REFUSED 0xB8)
    if r.cls = 3 then .error (REFUSED 0xB2)
    match (s.reqObject p r.fn (r.word 17) 8 (ceilDiv m.vocab 8)).orElse fun _ =>
        s.reqObject p r.fn (r.word 18) 9 (8 * (r.word 19).fld 6 0) with
    | some st => .error st
    | none => pure ()
    if !(s.sampling p m.vocab r).ok || decide (64 < (r.word 19).fld 6 0) || r.budget == 0 ||
        (List.range 8).any fun i => decide (262144 ≤ (r.word (20 + i)).fld 18 0 ∧ (r.word (20 + i)).fld 18 0 ≠ 0x7FFFF) then
      .error (REFUSED 0xB2)
    if (r.word 9).fld 23 0 < r.budget then .error (REFUSED 0xB3)
    if s.reqFreeSlot.1.isNone then .error (NO_SPACE 0xB5)
    if q.pendingToken.isNone && (r.word 5).fld 23 0 == 0 then .error (REFUSED 0xB2)
    match (if (r.word 5).fld 23 0 = 0 then none
        else s.hostReadStatus r.fn ((r.word 3).toNat + 2 ^ 32 * (r.word 4).toNat) (4 * (r.word 5).fld 23 0)) with
    | some st => .error st
    | none => pure (k, q, a)

/-- Input tokens entered into the count table. -/
def Block.countTokens (s : Block) (l : List Word) : List Nat × Block :=
  l.foldl (fun (a : List Nat × Block) t => a.2.countToken a.1 t.toNat) ([], s)

/-- SERVE takes a request from a queue (R246, R247). One that fails a check ends at once; its record has no ID. -/
def Block.submitReq (s : Block) (f q ring : Nat) (desc : List Word) : Block :=
  let p := s.fnPart f
  let r := Req.fresh f q ring desc s.now
  match (if (s.part p).isSome then s.reqStatus p r else .error (DENIED 0xD9)) with
  | .error st => s.ringEntry f ring (progressWords 0 r 0 st 0)
  | .ok (k, sq, a) =>
    match s.reqFreeSlot with
    | (none, _) => s.ringEntry f ring (progressWords 0 r 0 (NO_SPACE 0xB5) 0)
    | (some (slot, gen), s) =>
      let n := (r.word 5).fld 23 0
      let toks := bytesWords n (s.hostRead ((r.word 3).toNat + 2 ^ 32 * (r.word 4).toNat) (4 * n))
      let c := if (r.word 0).bit 8 then s.countTokens toks else ([], s)
      let s := c.2
      let r := { r with
        gen := gen, seq := k, input := sq.pendingToken.toList ++ toks, counts := c.1,
        adapter := a.map fun x => (x.2.id, x.1), version := (a.map (·.2.version)).getD 0,
        state := if pausedClass (s.level p) r.cls then .paused else .queued, pausedSince := pausedClass (s.level p) r.cls }
      { s with reqs := kput s.reqs slot r, reqGens := kput s.reqGens slot (gen + 1) }

/-! ### Jobs made ready (R314, R315) -/

/-- The functions with a ready or placed job in a partition. -/
def Block.activeFns (s : Block) (p : Nat) : List Nat :=
  ((s.jobs.filter fun e => e.2.part == p).map fun e => e.2.fn).dedup

/-- V of a client that becomes active is raised to the smallest V among the other active clients (R314). -/
def Block.raiseV (s : Block) (p f : Nat) : Block :=
  let act := s.activeFns p
  if act.contains f then s else
  match (act.map s.vtime).min? with
  | some v => if s.vtime f < v then s.setPair (SCH_C f 0x30) v else s
  | none => s

/-- A job is made ready. -/
def Block.addJob (s : Block) (J : Job) : Nat × Block :=
  let s := s.raiseV J.part J.fn
  let j := s.nextJob
  let s := { s with jobs := kput s.jobs j { J with state := .ready, since := s.now }, nextJob := s.nextJob + 1 }
  (j, s.countJobs J.part)

/-- A job that has not run. -/
def Job.fresh (bundle part f queue ring cls : Nat) (desc : List Word) (step : Option (Nat × Nat)) : Job :=
  { bundle := bundle, part := part, fn := f, queue := queue, ring := ring, tag1 := desc.getD 1 0, tag2 := desc.getD 2 0,
    recAddr := (desc.getD 3 0).toNat + 2 ^ 32 * (desc.getD 4 0).toNat, desc := desc, cls := cls, state := .ready, clusters := [],
    since := 0, ran := 0, numSums := [], ns := [], fail := none, sems := [], save := [], heldLocal := [], boundAt := none, brks := [],
    inherit := none, wanted := false, step := step, silent := false }

/-! ### Lengths, targets and the areas of a step (R216, R217, R225, R250) -/

/-- The bounds of the buckets in use, by number. -/
def Block.buckets (s : Block) (p : Nat) : List (Nat × Nat) :=
  (List.range 8).foldl (fun (l : List (Nat × Nat)) b =>
    let x := s.fld (SNW p (0x20 + 4 * b)) 16 0
    if ((l.getLast?.map (·.2)).getD 0) < x then l ++ [(b, x)] else l) []

/-- Does SERVE bucket in the partition: one die or less, and a bucket in use? -/
def Block.bucketed (s : Block) (p : Nat) : Bool :=
  (match s.part p with
    | some q => decide (q.dieList.length ≤ 1)
    | none => false) && !(s.buckets p).isEmpty

/-- The bucket of a length: number and bound. -/
def Block.bucketOf (s : Block) (p real : Nat) : Option (Nat × Nat) := (s.buckets p).find? fun b => decide (real ≤ b.2)

/-- PADDED. -/
def Block.padded (s : Block) (p real : Nat) : Nat :=
  if s.bucketed p then ((s.bucketOf p real).map (·.2)).getD real else real

/-- The most fresh positions of a sequence in a step, if bucketing bounds them. -/
def Block.realBound (s : Block) (p : Nat) : Option Nat :=
  if s.bucketed p then (s.buckets p).getLast?.map (·.2) else none

/-- Tokens of a page of a class. -/
def Block.pageTokens (s : Block) (p c : Nat) : Nat := max 1 ((s.snowOf p).cls c).tokens

/-- The committed pages of a layer in position order: unit, page of its bank group, tokens below CTX. -/
def Block.kvPages (s : Block) (p : Nat) (q : Seq) (ctx layer : Nat) : List (Nat × Nat × Nat) :=
  let t := s.pageTokens p q.cls
  ((q.layer layer).take (ceilDiv ctx t)).zipIdx.filterMap fun x =>
    match (s.page p x.1).map fun (y : Page) => y.loc with
    | some (.compute u g) => some (u, g, min t (ctx - x.2 * t))
    | _ => none

/-- The units of a layer's committed pages. -/
def Block.kvUnits (s : Block) (p : Nat) (q : Seq) (ctx layer : Nat) : List Nat :=
  ((s.kvPages p q ctx layer).map (·.1)).dedup

/-- The areas of one owning cluster's step: the addresses of its tables, and where they end. -/
structure StepAreas where
  lens : Nat
  reqs : Nat
  adapts : Nat
  maps : Nat
  attn : Nat
  tables : Nat
  results : Nat
  stop : Nat

/-- The areas for `n` sequences, `a` adapters, `m` map bytes, `layers` layers. -/
def stepAreas (M : Model) (n a m layers : Nat) : StepAreas :=
  let lens := M.stepAddr + 64
  let reqs := lens + 32 * n
  let adapts := reqs + 16 * n
  let maps := adapts + 16 * a
  let attn := roundUp (maps + m) 16
  let tables := attn + roundUp (4 * layers) 16
  let results := tables + 16 * M.tgtSlot * layers
  { lens := lens, reqs := reqs, adapts := adapts, maps := maps, attn := attn, tables := tables, results := results,
    stop := results + 8 * M.tgtSlot * layers }

/-- Append pages per layer of a row. -/
def StepRow.nApp (r : StepRow) (t : Nat) : Nat := ceilDiv (r.slot0 + r.real) t

/-! ### Filling a step (R225, R251, R252) -/

/-- A step being filled: the rows taken, query rows, charge, target entries keyed by stream × 256 + layer. -/
structure Plan where
  blk : Block
  rows : List StepRow
  used : Nat
  cost : Nat
  tgt : Tbl Nat

/-- Target entries of each layer for a sequence with `real` fresh positions. -/
def Block.targets (s : Block) (p : Nat) (q : Seq) (real layer : Nat) : Nat :=
  (s.kvUnits p q q.len layer).length * ceilDiv real 16

/-- Do the limits of R251 hold with a sequence of `real` fresh positions added to stream `c`? The areas must lie in
shared memory too. -/
def Plan.fits (x : Plan) (p : Nat) (M : Model) (q : Seq) (c real : Nat) : Bool :=
  let s := x.blk
  let k := (s.snowOf p).cls q.cls
  let t := max 1 k.tokens
  let max_ := s.fld (SRV p 0) 7 0
  let mine := x.rows.filter fun r => r.cluster == c
  let maps := (mine.map fun r => 4 * k.layers * r.nApp t).sum + 4 * k.layers * ceilDiv (q.len % t + real) t
  decide (x.used + s.padded p real ≤ M.maxRows) &&
  ((List.range k.layers).all fun l => decide (tget 0 x.tgt (c * 256 + l) + s.targets p q real l ≤ M.tgtSlot)) &&
  (max_ == 0 || decide (x.cost + real * (q.len + real) ≤ max_ * 2 ^ 20)) &&
  decide ((stepAreas M (mine.length + 1) (mine.length + 1) maps k.layers).stop ≤ shmEnd)

/-- A sequence added with its append slots; none when its pages are short (R233). -/
def Plan.add (x : Plan) (p : Nat) (q : Seq) (k : Nat) (r : Req) (c real depth : Nat) (last : Bool) : Option Plan :=
  let s := x.blk
  let n := ((s.snowOf p).cls q.cls).layers
  let t := s.pageTokens p q.cls
  match s.reserveAppend p r.seq real with
  | none => none
  | some s' =>
    let pages (l : Nat) : List Nat := (((s'.seqAt p r.seq).map (·.layer l)).getD []).drop (q.len / t)
    let row : StepRow :=
      { req := k, cluster := c, ctx := q.len, real := real, padded := s.padded p real, row := x.used, depth := depth, last := last,
        append := (List.range n).map fun l => (l, pages l), slot0 := q.len % t }
    let cls := r.cls
    let s' := s'.modSeq p r.seq fun q => { q with inStep := true, lastClass := cls }
    let s' := (s'.modReq k fun r => { r with skips := 0, started := true, cands := if depth = 0 then [] else r.cands }).reqState k .active
    some { blk := s', rows := x.rows ++ [row], used := x.used + row.padded, cost := x.cost + real * (q.len + real),
           tgt := (List.range n).foldl (fun t l => tset 0 t (c * 256 + l) (tget 0 t (c * 256 + l) + s.targets p q real l)) x.tgt }

/-- Held out under R233. -/
def Plan.held (x : Plan) (p : Nat) : Plan := { x with blk := x.blk.bump (SNW p 0x68) }

/-- Skipped under R251. -/
def Plan.skip (x : Plan) (p k : Nat) : Plan :=
  { x with blk := (x.blk.bump (SRV p 0x58)).modReq k fun r => { r with skips := r.skips + 1 } }

/-- The depth of a request's candidates. -/
def Req.depth (r : Req) : Nat := (r.cands.map (·.depth)).foldl max 0

/-- A request tried: a prefill chunk shortened to what fits, a decode with its drafts and then without (R251). -/
def Plan.tryReq (x : Plan) (p : Nat) (M : Model) (streams k : Nat) (r : Req) (q : Seq) : Plan :=
  let (c, s) := x.blk.choose streams
  let x := { x with blk := s }
  let bound (n : Nat) : Nat := match s.realBound p with
    | some b => min n b
    | none => n
  if r.input ≠ [] then
    let n := bound (min r.input.length M.chunk)
    match ((List.range n).map (n - ·)).find? (x.fits p M q c) with
    | none => x.skip p k
    | some real => (x.add p q k r c real 0 (decide (real = r.input.length))).getD (x.held p)
  else
    let n := 1 + r.cands.length
    if bound n = n ∧ x.fits p M q c n then (x.add p q k r c n r.depth true).getD (x.held p)
    else if x.fits p M q c 1 then (x.add p q k r c 1 0 true).getD (x.held p)
    else x.skip p k

/-- A request considered: one whose sequence is gone, damaged or lost ends; one whose sequence is elsewhere is
restored, a park or swap under way being reversed (R236 to R238); the others are tried. -/
def Plan.consider (x : Plan) (p : Nat) (M : Model) (streams k : Nat) : Plan :=
  let s := x.blk
  match s.req k with
  | none => x
  | some r =>
    match s.seqAt p r.seq with
    | none => { x with blk := s.endReq k 0 (REFUSED 0xA0) M.stepNo }
    | some q =>
      if q.lost then { x with blk := s.endReq k 0 (ABORTED 0xA9) M.stepNo }
      else if q.damaged.isSome then { x with blk := s.endReq k 0 (POISONED 0xAA) M.stepNo }
      else if (s.snowOf p).state q ≠ 0 ∨ q.target.isSome then
        { x with blk := if q.target = some 0 then s else s.moveSeq p r.seq 0 }
      else if q.inStep then x else x.tryReq p M streams k r q

/-- Does `a` come before `b` in the order of R251? -/
def admitBefore (max_ : Nat) (a b : Nat × Req) : Bool :=
  let key (e : Nat × Req) : List Nat := [1 - b2n (decide (max_ ≤ e.2.skips)), e.2.cls, e.2.since, e.1]
  decide (key a ≤ key b)

/-- The requests that may be in the next step, in order. A function whose hold is full is left out (R387). -/
def Block.admissible (s : Block) (p m : Nat) : List (Nat × Req) :=
  ((s.modelReqs p m).filter fun e => e.2.state != .paused && decide (heldEntries (s.fn e.2.fn).held < 4096)).mergeSort
    (admitBefore (s.skipMax p))

/-- The highest class among the requests of rows. -/
def Block.rowsClass (s : Block) (l : List StepRow) : Nat :=
  (l.filterMap fun r => (s.req r.req).map (·.cls)).foldl min 2

/-- A step dispatched: its job is made ready. -/
def Block.stepJob (s : Block) (p m : Nat) (M : Model) (x : Step) : Block :=
  let r := s.addJob (Job.fresh M.bundle p M.fn 0 0 (s.rowsClass x.rows) [] (some (p, m)))
  r.2.modModel p m fun y => { y with step := some { x with job := some r.1, status := none, ns := [], outs := none, commits := none } }

/-- May SERVE dispatch steps: not at driver loss (R328), nor in breach (R346), nor while it restarts (R269)? -/
def Block.serveUp (s : Block) : Bool := s.coreUp 4 && !s.inBreach

/-- Steps 6 and 7 of a boundary. -/
def Block.fill (s : Block) (p m : Nat) : Block :=
  match s.model p m with
  | none => s
  | some M =>
    if s.lost || M.damaged || !s.snowUp || !s.partRunning p then s else
    let x := (s.admissible p m).foldl (fun (x : Plan) e => x.consider p M (s.modelStreams M) e.1)
      { blk := s, rows := [], used := 0, cost := 0, tgt := [] }
    let s := x.blk
    if x.rows.isEmpty then s else
    let M' := { M with stepNo := (M.stepNo + 1) % 2 ^ 32 }
    let s := s.modModel p m fun y => { y with stepNo := M'.stepNo }
    s.stepJob p m M' { job := none, rows := x.rows, attempts := 0, began := s.now, status := none, ns := [], outs := none, commits := none }

/-! ### The tables of a step, written before its dispatch (R216, R217, R250) -/

/-- Tables being written: the pages that lists fill by unit (ID, page of the bank group, bytes used), and target
entries keyed by stream × 256 + layer. -/
structure Tables where
  blk : Block
  cur : Tbl (Nat × Nat × Nat)
  counts : Tbl Nat

/-- `n` successive free page IDs. -/
def Block.pidRun (s : Block) (p n : Nat) : Option Nat × Block :=
  let t := (s.snowOf p).pages
  let ok (a : Nat) : Bool := decide (a + n ≤ 33554432) && (List.range n).all fun i => (kget t (a + i)).isNone
  match (1 :: t.map fun e => e.1 + 1).filter ok with
  | [] => (none, s)
  | l => let r := s.pick l 0; (some r.1, r.2)

/-- A page of a step with an ID at a free place of a unit (R217): its place in the bank group. -/
def Block.stepPage (s : Block) (p j u pid : Nat) : Option (Nat × Block) :=
  match s.part p with
  | none => none
  | some q =>
    match s.unitFree p q u with
    | [] => none
    | l =>
      let (g, s) := s.pick l 0
      let y : Page := { cls := 0, layer := 0, firstPos := 0, fill := 0, hash := 0, refs := 1, loc := .compute u g, dest := none,
                        far := none, data := Store.empty, owner := j + 1, zeroing := false }
      let w := s.snowOf p
      let s := s.setSnow p { w with pages := kput w.pages pid y }
      some (g, (s.ledTake (pageLedger p 0) 1).led1 (refLedger p) { held := 1, total := 1 })

/-- `n` RESULT pages with successive IDs in a unit: the first ID and their places. -/
def Block.resultPages (s : Block) (p j u n : Nat) : Option (Nat × List Nat × Block) :=
  match s.pidRun p n with
  | (none, _) => none
  | (some pid, s) =>
    (List.range n).foldl (fun (a : Option (Nat × List Nat × Block)) i => a.bind fun a =>
      (a.2.2.stepPage p j u (pid + i)).map fun r => (pid, a.2.1 ++ [r.1], r.2)) (some (pid, [], s))

/-- Room for a list of `n` bytes in a unit, at a multiple of 64 B: page ID, page of the bank group, offset. -/
def Tables.listRoom (x : Tables) (p j u n : Nat) : Option (Nat × Nat × Nat × Tables) :=
  match (kget x.cur u).filter fun c => decide (c.2.2 + n ≤ 65536) with
  | some c => some (c.1, c.2.1, c.2.2, { x with cur := kput x.cur u (c.1, c.2.1, roundUp (c.2.2 + n) 64) })
  | none =>
    match x.blk.pidRun p 1 with
    | (none, _) => none
    | (some pid, s) =>
      (s.stepPage p j u pid).map fun r =>
        (pid, r.1, 0, { x with blk := r.2, cur := kput x.cur u (pid, r.1, roundUp n 64) })

/-- A word of a page list (R124). -/
def listWord (g tokens kind : Nat) : Word := w32 (g + tokens * 4096 + kind * 524288)

/-- One target entry with its page list and its result entry. `first` is the query row of its first position. -/
def Tables.target (x : Tables) (p j c layer slot u first n : Nat) (a : StepAreas) (cluster : Nat) (kv : List (Nat × Nat)) :
    Option Tables :=
  (x.blk.resultPages p j u n).bind fun r =>
    let words := r.2.1.map (fun g => listWord g 0 2) ++ kv.map fun y => listWord y.1 y.2 0
    ({ x with blk := r.2.2 }.listRoom p j u (4 * words.length)).map fun (y : Nat × Nat × Nat × Tables) =>
      let (pid, g, off, x) := y
      let n := 4 * words.length
      let s := (x.blk.viewTraffic p (pid * 65536 + off) n true (decide (n ≤ 32))).viewWrite p (pid * 65536 + off) (wordsBytes words) []
      let k := tget 0 x.counts (c * 256 + layer)
      let s := s.shmWrite cluster (a.tables + 16 * (slot * layer + k)) (wordsBytes
        [w32 (u + s.fld (FIRN_EPOCH u) 15 0 * 65536), w32 ((g * 65536 + off) / 64), w32 words.length, w32 kv.length])
      let s := s.shmWrite cluster (a.results + 8 * (slot * layer + k)) (wordsBytes [w32 r.1, w32 (first + (n - 1) * 131072)])
      { x with blk := s, counts := tset 0 x.counts (c * 256 + layer) (k + 1) }

/-- The target entries of a row in a layer: one for each unit and each 16 fresh positions. -/
def Tables.rowLayer (x : Tables) (p j : Nat) (M : Model) (q : Seq) (r : StepRow) (a : StepAreas) (cluster layer : Nat) : Option Tables :=
  let kv := x.blk.kvPages p q r.ctx layer
  ((kv.map (·.1)).dedup.flatMap fun u => (List.range (ceilDiv r.real 16)).map fun i => (u, i)).foldl
    (fun (x : Option Tables) y => x.bind fun x =>
      x.target p j r.cluster layer M.tgtSlot y.1 (r.row + 16 * y.2) (min 16 (r.real - 16 * y.2)) a cluster
        ((kv.filter fun z => z.1 == y.1).map fun z => z.2)) (some x)

/-- The adapter slots of rows, each once. -/
def Block.rowAdapters (s : Block) (l : List StepRow) : List Nat :=
  (l.filterMap fun r => (s.req r.req).bind fun y => y.adapter.map (·.2)).dedup

/-- The words of a length table entry. -/
def Block.lengthEntry (s : Block) (p : Nat) (q : Seq) (r : StepRow) (rq : Req) (mapAt t : Nat) : List Word :=
  let b := if s.bucketed p then s.bucketOf p r.real else none
  [w32 (seqId rq.seq q), w32 r.ctx, w32 (r.real + r.padded % 65536 * 65536), w32 r.row,
   w32 ((b.map (·.1)).getD 0 + 8 * b2n b.isSome + 16 * b2n (rq.tree && decide (0 < r.depth))), w32 mapAt,
   w32 (r.slot0 + r.nApp t * 65536), 0]

/-- The words of a request table entry. -/
def requestEntry (k : Nat) (rq : Req) (r : StepRow) (adapts : List Nat) : List Word :=
  let ai := match rq.adapter with
    | none => 0xFFF
    | some a => adapts.findIdx (· == a.2)
  let decode := rq.input.isEmpty
  [reqId k rq, w32 (ai + r.depth * 4096 + 32768 * b2n (rq.tree && decide (0 < r.depth))),
   w32 (if decode then r.row else r.row + r.real - 1), w32 (if decode then r.real else if r.last then 1 else 0)]

/-- The tables of one stream's cluster. -/
def Tables.stream (x : Tables) (p j : Nat) (M : Model) (rows : List StepRow) (cluster : Nat) : Option Tables :=
  let s := x.blk
  let k := (s.snowOf p).cls M.cls
  let t := max 1 k.tokens
  let adapts := s.rowAdapters rows
  let maps := (rows.map fun r => 4 * k.layers * r.nApp t).sum
  let a := stepAreas M rows.length adapts.length maps k.layers
  let s := s.shmWrite cluster M.stepAddr (wordsBytes
    ([w32 M.stepNo, w32 rows.length, w32 (rows.map (·.padded)).sum, w32 a.lens, w32 a.attn, w32 M.tgtSlot, w32 a.reqs, w32 a.adapts,
      w32 adapts.length] ++ List.replicate 7 0))
  let s := s.each adapts.zipIdx fun s y =>
    match kget s.adapters y.1 with
    | some ad => s.shmWrite cluster (a.adapts + 16 * y.2) (wordsBytes [w32 ad.rank, ad.a, ad.b, ad.scale])
    | none => s
  let y := rows.zipIdx.foldl (fun (y : Nat × Block) e =>
    let r := e.1
    match y.2.req r.req with
    | none => y
    | some rq =>
      match y.2.seqAt p rq.seq with
      | none => y
      | some q =>
        let s := y.2.shmWrite cluster (a.lens + 32 * e.2) (wordsBytes (y.2.lengthEntry p q r rq y.1 t))
        let s := s.shmWrite cluster (a.reqs + 16 * e.2) (wordsBytes (requestEntry r.req rq r adapts))
        let ids := (List.range k.layers).flatMap fun l => (List.range (r.nApp t)).map fun i => w32 ((tget [] r.append l).getD i 0)
        (y.1 + 4 * ids.length, s.shmWrite cluster y.1 (wordsBytes ids))) (a.maps, s)
  let x := { x with blk := y.2 }
  let x := rows.foldl (fun (x : Option Tables) r => (List.range k.layers).foldl (fun (x : Option Tables) l => x.bind fun x =>
    match (x.blk.req r.req).bind fun rq => x.blk.seqAt p rq.seq with
    | some q => x.rowLayer p j M q r a cluster l
    | none => some x) x) (some x)
  let c := (rows.head?.map (·.cluster)).getD 0
  x.map fun x =>
    let s := x.blk.each (List.range k.layers) fun s l =>
      s.shmWrite cluster (a.attn + 4 * l) (wordsBytes [w32 (tget 0 x.counts (c * 256 + l))])
    { x with blk := s }

/-- The tables of a step's job in the clusters that will run its streams; none when pages for its lists are short, and
while SNOW restarts (R238). -/
def Block.stepTables (s : Block) (j : Nat) (J : Job) (clusters : List Nat) : Option Block :=
  match J.step with
  | none => some s
  | some (p, m) =>
    if !s.snowUp then none else
    match s.model p m with
    | none => some s
    | some M =>
      let rows := s.stepRows J
      (clusters.zipIdx.foldl (fun (x : Option Tables) c => x.bind fun x =>
        x.stream p j M (rows.filter fun r => r.cluster == c.2) c.1) (some { blk := s, cur := [], counts := [] })).map (·.blk)

/-- The pages of a step given back when its job has ended. -/
def Block.dropStepPages (s : Block) (p j : Nat) : Block :=
  s.dropRefs p (((s.snowOf p).pages.filter fun e => decide (e.2.owner = j + 1) && !e.2.zeroing).map (·.1))

/-! ### The end of a step (R253) -/

/-- Engine time of a step divided among its clients in proportion to their REAL rows (R313). -/
def Block.chargeStep (s : Block) (rows : List StepRow) (ns : List Nat) : Block :=
  let of (r : StepRow) : List (Nat × Nat) := ((s.req r.req).map fun q => (q.fn, r.real)).toList
  let l := rows.flatMap of
  let fns := (l.map (·.1)).dedup
  let share (f : Nat) : Nat := ((l.filter fun x => x.1 == f).map (·.2)).sum
  let total := (l.map (·.2)).sum
  let top := fns.foldl (fun (b : Option Nat) f => match b with
    | none => some f
    | some g => if share g < share f ∨ (share g = share f ∧ f < g) then some f else b) none
  s.each (List.range 4) fun s c =>
    let n := ns.getD c 0
    let part (f : Nat) : Nat := n * share f / max 1 total
    let left := n - (fns.map part).sum
    s.each fns fun s f => s.chargeClient f c (part f + (if top = some f then left else 0)) (s.weight f)

/-- How many of the tokens are emitted, and whether the request ends with them (R249). -/
def Req.cut (r : Req) (toks : List Nat) : Nat × Bool :=
  match toks.findIdx? r.stops with
  | some i => if i + 1 ≤ r.budget - r.emitted then (i + 1, true) else (r.budget - r.emitted, true)
  | none => if r.budget - r.emitted ≤ toks.length then (r.budget - r.emitted, true) else (toks.length, false)

/-- Backoff after a step (R263): steps left with D = 0, successive total rejections, whether it begins now. -/
def Block.nextBackoff (s : Block) (p : Nat) (r : Req) (depth accepted : Nat) : Nat × Nat × Bool :=
  let max_ := s.fld (SRV p 0x14) 7 0
  if depth = 0 then (r.backoff - 1, r.rejects, false)
  else if 0 < accepted then (0, 0, false)
  else if max_ ≠ 0 ∧ max_ ≤ r.rejects + 1 then (max 1 (s.fld (SRV p 0x14) 23 8), 0, true)
  else (0, r.rejects + 1, false)

/-- Graupel's work on a row (step 2): its verdict, cut under R249, and the candidates for the next step. -/
def Block.sampleRow (s : Block) (p : Nat) (M : Model) (row : StepRow) (r : Req) : RowOut × Block :=
  let none_ : RowOut :=
    { row := row, v := { counts := r.counts }, toks := [], done := false, backoff := r.backoff, rejects := r.rejects, gaveUp := false,
      cands := [] }
  if !row.last || !r.live then (none_, s) else
  let h : Heads := { part := p, logits := M.word 4, dlogits := M.word 5, vocab := M.vocab, heads := M.heads }
  let a := s.sampling p M.vocab r
  let decode := r.input.isEmpty
  let base := if decode then row.row else row.row + row.real - 1
  let cands := if row.depth = 0 then [] else r.cands
  let (v, s) := s.verify h a base cands (row.depth + 1) 0 0 false r.emitted { counts := r.counts }
  if v.stepEnd.isSome ∨ v.reqEnd.isSome then ({ none_ with v := v }, s) else
  let (n, done) := r.cut v.toks
  let b := if decode then s.nextBackoff p r row.depth v.accepted else (r.backoff, r.rejects, false)
  let out : RowOut :=
    { row := row, v := v, toks := v.toks.take n, done := done, backoff := b.1, rejects := b.2.1, gaveUp := b.2.2, cands := [] }
  let emitted := r.emitted + n
  let d := if !(r.word 0).bit 6 || decide (0 < b.1) then 0 else min M.heads (r.budget - emitted - 1)
  if done ∨ d = 0 then (out, s) else
  match s.drawDepths h a v.counts (base + (v.path.getLast?).getD 0) r.tree d 1 emitted [] with
  | (.ok l, s) => ({ out with cands := l }, s)
  | (.error (true, st), s) => ({ out with v := { v with stepEnd := some st } }, s)
  | (.error (false, st), s) => ({ out with v := { v with reqEnd := some st } }, s)

/-- Graupel's work on every row, up to one that ends the step. -/
def Block.sampleRows (s : Block) (p : Nat) (M : Model) : List StepRow → List RowOut × Option Nat × Block
  | [] => ([], none, s)
  | row :: l =>
    match s.req row.req with
    | none => s.sampleRows p M l
    | some r =>
      let (o, s) := s.sampleRow p M row r
      match o.v.stepEnd with
      | some st => ([], some st, s)
      | none =>
        let x := s.sampleRows p M l
        (o :: x.1, x.2)

/-- Pages reserved for a row given back with nothing committed. -/
def Block.dropRow (s : Block) (p : Nat) (row : StepRow) : Block :=
  match s.req row.req with
  | some r => s.commitSeq p r.seq row.real [] []
  | none => s

/-- A row's request ends with its step; nothing of the step is emitted. -/
def Block.endRow (s : Block) (p : Nat) (M : Model) (st : Nat) (row : StepRow) : Block :=
  (s.dropRow p row).endReq row.req 0 st M.stepNo

/-- What SNOW is given for a row: nothing accepted where the request has ended without emitting. -/
def RowOut.commit (o : RowOut) (r : Req) (pend : Word) : RowCommit :=
  let n := o.toks.length
  let decode := r.input.isEmpty
  if !r.live ∨ o.v.reqEnd.isSome then { seq := r.seq, real := o.row.real, path := [], toks := [], cls := r.cls }
  else
    { seq := r.seq, real := o.row.real, path := if decode then o.v.path.take n else List.range o.row.real,
      toks := if decode then pend :: (o.toks.take (n - 1)).map w32 else r.input.take o.row.real, cls := r.cls }

/-- Step 3 for a row: its request's tokens written, then its record (R248, R249). The record tells the backoff under which the
step ran (R263). -/
def Block.emitRow (s : Block) (M : Model) (p : Nat) (o : RowOut) : Block :=
  let k := o.row.req
  match s.req k with
  | none => s
  | some r =>
    if !r.live then s else
    match o.v.reqEnd with
    | some st => s.endReq k 0 st M.stepNo
    | none =>
      let now := s.now
      let s := s.modReq k fun r => { r with since := now, input := r.input.drop o.row.real }
      let s := s.modSeq p r.seq fun q => { q with pendingToken := o.toks.getLast?.map w32 }
      if !o.row.last then s else
      let n := o.toks.length
      let s := (s.bump (SRV p 0x60) o.v.tested).bump (SRV p 0x64) o.v.accepted
      let s := if o.gaveUp then s.bump (SRV p 0x68) else s
      let addr := (r.word 6).toNat + 2 ^ 32 * (r.word 7).toNat + 4 * r.emitted
      let bad := !s.dmaStopped r.fn && !s.hostOk addr (4 * n)
      let s := s.hostWrite r.fn addr (wordsBytes (o.toks.map w32))
      let s := s.modReq k fun r => { r with emitted := r.emitted + n, counts := o.v.counts, rejects := o.rejects, cands := o.cands }
      let s := if bad then s.endReq k n (ABORTED 0x24) M.stepNo
        else if o.done then s.endReq k n OK M.stepNo
        else if (r.word 0).bit 9 then s else s.progress k n OK M.stepNo
      s.modReq k fun r => { r with backoff := o.backoff }

/-- Step 3 for every row: what SNOW is to commit, and the block. -/
def Block.emitRows (s : Block) (M : Model) (p : Nat) : List RowOut → List RowCommit × Block
  | [] => ([], s)
  | o :: l =>
    match s.req o.row.req with
    | none => s.emitRows M p l
    | some r =>
      let c := o.commit r (((s.seqAt p r.seq).bind (·.pendingToken)).getD 0)
      let x := (s.emitRow M p o).emitRows M p l
      (c :: x.1, x.2)

/-! ### Goals and the pause level (R254, R255) -/

/-- The goals of a completed step's classes, and EST. -/
def Block.goals (s : Block) (p began : Nat) (classes : List Nat) : Block :=
  let us := (s.now - began) / 1000
  let s := s.each classes fun s c =>
    let g := s.fld (SRV p (4 + 4 * c)) 23 0
    if g ≠ 0 ∧ g * 1000 < s.now - began then s.bump (SRV p (0x48 + 4 * c)) else s
  if classes.contains 0 then s.wf (SRV p 0x18) 31 8 (min 0xFFFFFF ((7 * s.fld (SRV p 0x18) 31 8 + us) / 8)) else s

/-- Is an INTERACTIVE request of the partition active? -/
def Block.interactive (s : Block) (p : Nat) : Bool := (s.partReqs p).any fun e => e.2.cls == 0 && e.2.state == .active

/-- Every request paused or resumed as LEVEL has it. -/
def Block.applyLevel (s : Block) (p : Nat) : Block :=
  s.each (s.partReqs p) fun s e =>
    if pausedClass (s.level p) e.2.cls then s.reqState e.1 .paused
    else if e.2.state = .paused then s.reqState e.1 (if e.2.started then .active else .queued) else s

/-- LEVEL set to a value, with what counts from there. -/
def Block.setLevel (s : Block) (p l : Nat) : Block :=
  if s.level p = l then s else
  ((s.wf (SRV p 0x18) 1 0 l).setServe p { s.serveOf p with lastChange := 0, calm := 0 }).applyLevel p

/-- LEVEL at a boundary. -/
def Block.updateLevel (s : Block) (p : Nat) : Block :=
  let act := s.interactive p
  let s := if act then s else s.wf (SRV p 0x18) 31 8 0
  let goal := s.fld (SRV p 4) 23 0
  let est := s.fld (SRV p 0x18) 31 8
  let risk := max 1 (s.fld (SRV p 0x10) 7 0)
  let resume := min risk (s.fld (SRV p 0x10) 15 8)
  let hold := max 1 (s.fld (SRV p 0x10) 23 16)
  let v := s.serveOf p
  let calm := if est * 100 < goal * resume then v.calm + 1 else 0
  let s := s.setServe p { v with lastChange := v.lastChange + 1, calm := calm }
  if !act ∨ goal = 0 then s.setLevel p 0
  else if goal * risk < est * 100 ∧ hold ≤ v.lastChange + 1 ∧ s.level p < 2 then (s.setLevel p (s.level p + 1)).bump (SRV p 0x54)
  else if hold ≤ calm ∧ 0 < s.level p then s.setLevel p (s.level p - 1)
  else s

/-! ### Boundaries (R253, R267 to R269) -/

/-- A rebind takes effect (R265). -/
def Block.applyRebind (s : Block) (p k : Nat) (r : Req) (v : Nat) : Block :=
  let s := s.modReq k fun r => { r with rebind := none }
  match r.adapter.map fun a => (a.1, s.rebindSlot p r a.1 v) with
  | some (id, .ok (slot, ad)) => s.modReq k fun r => { r with adapter := some (id, slot), version := ad.version }
  | _ => s

/-- Sequences of a reset function whose step has ended leave (R396). -/
def Block.sweepSeqs (s : Block) (p : Nat) : Block :=
  s.each ((s.snowOf p).seqs.filter fun e => e.2.dying && !e.2.inStep) fun s e => s.dropSeq p e.1

/-- Steps 5 to 7: cancels, rebinds, adapter versions, the pause level, the next step, and what R233 asks. A request that the
filling ends has its adapter version swept too (R266). -/
def Block.boundaryTail (s : Block) (p m : Nat) : Block :=
  let no := ((s.model p m).map (·.stepNo)).getD 0
  let s := s.each (s.modelReqs p m) fun s e =>
    match e.2.cancel, e.2.rebind with
    | some st, _ => s.endReq e.1 0 st no
    | none, some v => s.applyRebind p e.1 e.2 v
    | none, none => s
  let s := s.updateLevel p
  let s := ((((s.sweepAdapters p).sweepSeqs p).sweepDying p).fill p m).sweepAdapters p
  s.relieve p ((s.model p m).map (·.bundle))

/-- The step leaves its model. -/
def Block.clearStep (s : Block) (p m : Nat) : Block := s.modModel p m fun M => { M with step := none }

/-- Step 2 of a boundary: Graupel needs neither SERVE nor SNOW (R253, R269). A row that ends the step gives it its status. -/
def Block.stepSampled (s : Block) (p m : Nat) (M : Model) (x : Step) : Block :=
  match s.sampleRows p M x.rows with
  | (_, some st, s) => s.modModel p m fun M => { M with step := some { x with status := some st } }
  | (outs, none, s) => s.modModel p m fun M => { M with step := some { x with outs := some outs } }

/-- Step 3: SERVE emits, and holds what SNOW is to commit. -/
def Block.stepEmitted (s : Block) (p m : Nat) (M : Model) (x : Step) (outs : List RowOut) : Block :=
  let r := s.emitRows M p outs
  r.2.modModel p m fun M => { M with step := some { x with outs := none, commits := some r.1 } }

/-- Step 4 and what a completed step counts (R254). -/
def Block.stepCommitted (s : Block) (p m : Nat) (x : Step) (l : List RowCommit) : Block :=
  let s := s.each l fun s c => s.commitSeq p c.seq c.real c.path c.toks
  ((s.bumpPair (SRV p 0x40) 1).goals p x.began ((l.map (·.cls)).dedup)).clearStep p m

/-- Is the status one that a retry answers (R267)? -/
def retryStatus (st : Nat) : Bool := [POISONED 1, ABORTED 0x73, STALE_EPOCH, TIMEOUT 0x66].contains st

/-- The rows packed again after some have left. -/
def packRows : Nat → List StepRow → List StepRow
  | _, [] => []
  | n, r :: l => { r with row := n } :: packRows (n + r.padded) l

/-- A failed step waits for its retry with the rows given, whose append slots are zero again (R212), or ends when the attempts
are spent (R268). -/
def Block.planRetry (s : Block) (p m : Nat) (M : Model) (x : Step) (st : Nat) (rows : List StepRow) : Block :=
  if rows.isEmpty then (s.clearStep p m).boundaryTail p m
  else if s.retryMax p ≤ x.attempts + 1 then
    ((s.each rows fun s r => s.endRow p M (POISONED 0xBB) r).clearStep p m).boundaryTail p m
  else
    let s := s.each rows fun s r =>
      match s.req r.req with
      | some q => s.zeroStep p q.seq r.real
      | none => s
    s.modModel p m fun M => { M with step := some { x with job := none, rows := packRows 0 rows, attempts := x.attempts + 1, status := some st } }

/-- The bundle's object without a golden copy whose poison a step has met: the last one consumed, if it is among
them, and never a logits object. -/
def Block.damagedObject (s : Block) (p : Nat) (M : Model) : Option Word :=
  let slots := ((s.modelBundle M).map (·.slots)).getD []
  let hs := slots.filterMap fun k => (s.obj p k).bind fun o =>
    let h := mkHandle k o.gen
    if (o.golden = 0 ∨ o.damaged) ∧ !o.data.poison.isEmpty ∧ h ≠ M.word 4 ∧ h ≠ M.word 5 then some h else none
  let last := s.rg ERR_LAST_UE_HANDLE
  if hs.contains last then some last else hs.head?

/-- A model is damaged (R269): its requests end, event 0x0A21, and the boundary goes on. -/
def Block.damageModel (s : Block) (p m : Nat) (M : Model) (h : Word) (rows : List StepRow) : Block :=
  let s := s.each rows fun s r => s.dropRow p r
  let s := s.each (s.modelReqs p m) fun s e => s.endReq e.1 0 MODEL_DAMAGED M.stepNo
  let s := s.modModel p m fun M => { M with damaged := true, step := none }
  (s.event (srcCore 4) 0x0A21 [w32 p, w32 m, h]).boundaryTail p m

/-- A step that failed (R267). -/
def Block.stepFailed (s : Block) (p m : Nat) (M : Model) (x : Step) (st : Nat) : Block :=
  let seqIs (f : Seq → Bool) (r : StepRow) : Bool := ((s.req r.req).bind fun q => s.seqAt p q.seq).any f
  let bad := x.rows.filter (seqIs fun q => q.damaged.isSome)
  let lost := x.rows.filter (seqIs (·.lost))
  let rest (l : List StepRow) : List StepRow := x.rows.filter fun r => !l.contains r
  if st % 256 = 0x06 ∧ !bad.isEmpty then
    (s.each bad fun s r => s.endRow p M (POISONED 0xAA) r).planRetry p m M x st (rest bad)
  else if st = ABORTED 0xA9 ∧ !lost.isEmpty then
    (s.each lost fun s r => s.endRow p M st r).planRetry p m M x st (rest lost)
  else if retryStatus st then s.planRetry p m M x st x.rows
  else
    match (if st = POISONED 2 then s.damagedObject p M else none) with
    | some h => s.damageModel p m M h x.rows
    | none => ((s.each x.rows fun s r => s.endRow p M st r).clearStep p m).boundaryTail p m

/-- Can a boundary of the model go on: Graupel once the job has ended with OK, SERVE and SNOW for the rest, and no job of the
step is under way or awaited (R253)? -/
def boundaryReady (p m : Nat) (s : Block) : Bool :=
  match s.model p m with
  | none => false
  | some M => match M.step with
    | none => s.serveUp
    | some x => x.job.isSome && x.status.isSome &&
        ((x.status == some OK && x.outs.isNone && x.commits.isNone) || (s.serveUp && (s.snowUp || x.outs.isSome)))

/-- What the end of a step's job settles at once: its pages return and its clients are charged. -/
def Block.stepEnded (s : Block) (p m : Nat) (x : Step) : Block :=
  let s := match x.job with
    | some j => s.dropStepPages p j
    | none => s
  (s.chargeStep x.rows x.ns).modModel p m fun M => { M with step := some { x with ns := [] } }

/-- Steps 3 to 7 of a boundary whose rows Graupel has done, as far as SERVE and SNOW run. -/
def Block.boundaryOn (s : Block) (p m : Nat) (M : Model) (x : Step) : Block :=
  let s := match x.outs with
    | some outs => if s.serveUp then s.stepEmitted p m M x outs else s
    | none => s
  match (s.model p m).bind fun M => M.step.bind (·.commits) with
  | some l => if s.serveUp && s.snowUp then (s.stepCommitted p m x l).boundaryTail p m else s
  | none => s

/-- STEP_BOUNDARY. -/
def stepBoundaryEffect (p m : Nat) (s : Block) : Block :=
  match s.model p m with
  | none => s
  | some M =>
    match M.step with
    | none => s.boundaryTail p m
    | some x =>
      let s := s.stepEnded p m x
      let x := { x with ns := [] }
      let s := if x.status = some OK ∧ x.outs = none ∧ x.commits = none then s.stepSampled p m M x else s
      match (s.model p m).bind (·.step) with
      | none => s
      | some x =>
        match x.status with
        | some 0 => s.boundaryOn p m M x
        | some st => if s.serveUp && s.snowUp then s.stepFailed p m M x st else s
        | none => s

/-- STEP_BOUNDARY, when one can go on. -/
def effStepBoundary (p m : Nat) (s : Block) : Block := if boundaryReady p m s then stepBoundaryEffect p m s else s

/-- Is a retry due: a step waits for it and no re-fetch of the partition is under way (R268)? -/
def retryReady (p m : Nat) (s : Block) : Bool :=
  s.serveUp && !s.lost && s.partRunning p && !(s.err.refetches.any fun r => r.part == p) && match s.model p m with
    | none => false
    | some M => match M.step with
      | none => false
      | some x => x.job.isNone && x.status.isSome

/-- STEP_RETRY: the step is rebuilt and dispatched again. -/
def stepRetryEffect (p m : Nat) (s : Block) : Block :=
  match s.model p m with
  | none => s
  | some M =>
    match M.step with
    | none => s
    | some x =>
      let s := (s.bump (SRV p 0x5C)).event (srcCore 4) 0x0A20 [w32 p, w32 m, w32 M.stepNo, w32 (x.status.getD OK)]
      let s := s.each x.rows fun s r => s.modReq r.req fun q => { q with retried := true }
      s.stepJob p m M x

/-- STEP_RETRY, when one is due. -/
def effStepRetry (p m : Nat) (s : Block) : Block := if retryReady p m s then stepRetryEffect p m s else s

/-! ### Meanings -/

/-- The meaning of SRV_MODEL_LOAD. -/
def execSrvModelLoad (ch : Chan) : State → Host.Outcome State Fault Refusal := onBlk (effSrvModelLoad ch)
/-- The meaning of SRV_MODEL_UNLOAD. -/
def execSrvModelUnload (ch : Chan) : State → Host.Outcome State Fault Refusal := onBlk (effSrvModelUnload ch)
/-- The meaning of SRV_ADAPTER_LOAD. -/
def execSrvAdapterLoad (ch : Chan) : State → Host.Outcome State Fault Refusal := onBlk (effSrvAdapterLoad ch)
/-- The meaning of SRV_ADAPTER_UNLOAD. -/
def execSrvAdapterUnload (ch : Chan) : State → Host.Outcome State Fault Refusal := onBlk (effSrvAdapterUnload ch)
/-- The meaning of SRV_REQ_CANCEL. -/
def execSrvReqCancel (ch : Chan) : State → Host.Outcome State Fault Refusal := onBlk (effSrvReqCancel ch)
/-- The meaning of SRV_REQ_REBIND. -/
def execSrvReqRebind (ch : Chan) : State → Host.Outcome State Fault Refusal := onBlk (effSrvReqRebind ch)
/-- The meaning of SRV_REQ_QUERY. -/
def execSrvReqQuery (ch : Chan) : State → Host.Outcome State Fault Refusal := onBlk (effSrvReqQuery ch)
/-- The meaning of STEP_BOUNDARY. -/
def execStepBoundary (p : Nat) (m : Nat) : State → Host.Outcome State Fault Refusal := onBlk (effStepBoundary p m)
/-- The meaning of STEP_RETRY. -/
def execStepRetry (p : Nat) (m : Nat) : State → Host.Outcome State Fault Refusal := onBlk (effStepRetry p m)


end Sys2Proof.Machine
end

