-- ==== Sys2Proof/Machine/Sharing.lean ====
section
/-! DEFINITION. Sharing: partitions, clients, dispatch, pre-emption with its saves and restores, holds, driver
loss and adoption (R306 to R335, R145, R171, R201, R292). -/

namespace Sys2Proof.Machine

/-! ### Ending work at once (R330, R423) -/

/-- A job ended without waiting for its engines: its queues are emptied and its writes performed. `silent` keeps its
completion unwritten. -/
def Block.killJob (s : Block) (j st : Nat) (silent : Bool) : Block :=
  let s := if silent then s.modJob j fun J => { J with silent := true } else s
  let s := s.endJob j st
  match s.jobAt j with
  | none => s
  | some J =>
    let s := s.each J.clusters fun s c =>
      let n := ((s.cl c).queues.flatMap (·.2)).length
      ((s.modCl c fun k => { k with queues := [] }).ledLand (0x80 + c) n).releaseAll c
    s.finishJob j

/-- Every job ended. -/
def Block.killJobs (s : Block) (st : Nat) (silent : Bool) : Block := s.each (keys s.jobs) fun s j => s.killJob j st silent

/-- Every request ended without a record. -/
def Block.killReqs (s : Block) : Block :=
  s.each (s.reqs.filter fun e => e.2.live) fun s e => (s.reqState e.1 .ended).countEnded e.2.fn e.2.cls

/-! ### Partitions (R307 to R310) -/

/-- The masks of whole dies that a partition may hold (R307). -/
def shapeMasks : List Nat := [1, 2, 4, 8, 3, 10, 12, 5, 15]

/-- Clusters that a partition holds, in or out of service. -/
def Block.heldClusters (s : Block) : List Nat := s.parts.flatMap fun e => e.2.clusterList

/-- Is the stack trained? -/
def Block.stackTrained (s : Block) (n : Nat) : Bool := s.bit (STK_STATE n) 16

/-- The stacks of a partition. -/
def Part.stackList (q : Part) : List Nat := q.compute ++ q.capacity

/-- The ways that a partition takes of each of its dies. -/
def partWays (q : Part) (ways : Nat) : Nat := if q.dies = 0 then ways % 65536 else 0xFFFF

/-- The ways of a die that other partitions hold. -/
def Block.takenWays (s : Block) (d p : Nat) : Nat :=
  (List.range 32).foldl (fun a i => if i = p then a else a ||| s.fld (SRC_MSC_PCFG d i) 15 0) 0

/-- Checks 2 and 3 of PART_CREATE (R309). -/
def Block.partStatus (s : Block) (p : Nat) (q : Part) (ways : Nat) : Option Nat :=
  if !shapeMasks.contains q.dies && q.dies ≠ 0 || (q.dies = 0 && q.clusters = 0) then some (REFUSED 0xD0)
  else if q.clusterList.any fun c => s.heldClusters.contains c || (q.dies = 0 && s.clusterOos c) then some (REFUSED 0xD0)
  else if q.stackList.any fun n => !s.stackTrained n then some (REFUSED 0xD0)
  else if q.groupList.isEmpty then some (REFUSED 0x53)
  else if q.stackList.any fun n => q.groupList.any fun g => s.cgPart n g != 0x3F then some (REFUSED 0x51)
  else if q.dieList.any fun d => (s.takenWays d p &&& partWays q ways) != 0 then some (REFUSED 0x52)
  else none

/-- A message that only the PF may send (R308). -/
def Block.schPf (s : Block) (ch : Chan) (h : Answer) : Answer := s.pfOnly ch (DENIED 0xD6) h

/-- The state of a partition, with its job counts as they are. -/
def Block.setPartState (s : Block) (p v : Nat) : Block := s.wf (SCH_P_STATE p) 1 0 v

/-- The channel groups of a partition set to a state and an owner. -/
def Block.setGroups (s : Block) (q : Part) (st owner : Nat) : Block :=
  s.each q.stackList fun s n => s.each q.groupList fun s g =>
    (s.wf (STK_STATE n) (2 * g + 1) (2 * g) (if s.groupDown n g then 0 else st)).wf (STK_PART_CG n g) (8 * (g % 4) + 5) (8 * (g % 4)) owner

/-- The Firn sets of a partition. -/
def Part.setList (q : Part) : List Nat := q.compute.flatMap fun n => q.groupList.map fun g => stackIndex n * 8 + g

/-- The counters that PART_CREATE clears (R239, R271, R332). -/
def Block.clearPart (s : Block) (p : Nat) : Block :=
  let s := s.each [0x10, 0x14, 0x18, 0x1C] fun s o => s.wr (SCH_P p o) 0
  let s := loop 11 (fun i s => (s.wr (SNW p (0x40 + 4 * i)) 0).wr (SRV p (0x40 + 4 * i)) 0) s
  s.wr (SRV p 0x18) 0

/-- A partition created: STARTING, its groups and ways written, its groups and Firn sets starting. -/
def Block.createPart (s : Block) (p : Nat) (q : Part) (ways drop : Nat) : Block :=
  let s := { s with parts := kput s.parts p q }
  let s := s.wr (SCH_P_CFG p) (w32 (q.dies + q.die * 16 + q.clusters * 256 + q.groups * 65536))
  let s := (s.clearPart p).setPartState p 1
  let s := s.each q.dieList fun s d => s.wr (SRC_MSC_PCFG d p) (w32 (partWays q ways + drop % 16 * 65536))
  let s := s.setGroups q 1 p
  let s := s.each q.setList fun s k => s.setSetState k 1
  let pages (l : List Nat) : Nat := (l.map (s.stackPages q)).sum
  (s.ledRenew (pageLedger p 0) (pages q.compute)).ledRenew (pageLedger p 1) (pages q.capacity)

/-- PART_CREATE. -/
def effPartCreate (ch : Chan) (s : Block) : Block :=
  s.message ch 0x0701 fun s ws => s.schPf ch <|
    let p := (mreg ws 1).toNat
    let r := mreg ws 2
    let dies := r.fld 3 0
    let q : Part :=
      { dies := dies, die := if dies = 0 then r.fld 5 4 else 0, clusters := if dies = 0 then r.fld 15 8 else 0,
        groups := if dies = 0 then (mreg ws 3).fld 7 0 else 0xFF, runPages := min 64 (max 1 (s.fld (SNW p 4) 6 0)), busyFrac := [] }
    if 31 < p then s.no (REFUSED 0xD0)
    else if s.fld (SCH_P_STATE p) 1 0 = 3 then (s.bump MOR_CNT_FN_BUSY).no (BUSY 0xD4)
    else if (s.part p).isSome then s.no (REFUSED 0xD0)
    else match s.partStatus p q (mreg ws 4).toNat with
      | some st => s.no st
      | none => (s.createPart p q (mreg ws 4).toNat ((mreg ws 4).fld 19 16)).yes

/-- Are the groups and Firn sets of a STARTING partition RUNNING? -/
def partitionStarted (p : Nat) (s : Block) : Bool :=
  s.fld (SCH_P_STATE p) 1 0 == 1 && match s.part p with
    | none => false
    | some q => q.stackList.all (fun n => q.groupList.all fun g => s.cgState n g == 2 || s.groupDown n g) && q.setList.all fun k => s.setState k == 2

/-- PARTITION_RUNNING: the page view takes a handle (R215). -/
def partitionRunEffect (p : Nat) (s : Block) : Block :=
  match s.takeSlot p with
  | (none, s) => s.setPartState p 2
  | (some (slot, gen), s) =>
    let o := s.objects p
    ((s.setObjects p { o with gens := kput o.gens slot (gen + 1) }).wr (SNW p 0) (mkHandle slot gen)).setPartState p 2

/-- PARTITION_RUNNING, when everything of it has started. -/
def effPartitionRunning (p : Nat) (s : Block) : Block := if partitionStarted p s then partitionRunEffect p s else s

/-- The functions assigned to a partition. -/
def Block.clients (s : Block) (p : Nat) : List Nat := (List.range 64).filter fun f => s.fnPart f == p

/-- A partition stops: its groups and Firn sets with it. -/
def Block.stopPart (s : Block) (p : Nat) (q : Part) : Block :=
  let s := s.setPartState p 3
  let s := s.each q.stackList fun s n => s.each q.groupList fun s g =>
    if s.cgState n g = 0 then s else s.wf (STK_STATE n) (2 * g + 1) (2 * g) 3
  s.each q.setList fun s k => if s.setState k = 0 then s else s.stopFirnSet k

/-- PART_DESTROY. -/
def effPartDestroy (ch : Chan) (s : Block) : Block :=
  s.message ch 0x0702 fun s ws => s.schPf ch <|
    let p := (mreg ws 1).toNat
    match s.part p with
    | none => if p < 32 then s.yes else s.no (REFUSED 0xD0)
    | some q =>
      if s.fld (SCH_P_STATE p) 1 0 = 3 then s.yes
      else if !(s.partBundles p).isEmpty || !(s.clients p).isEmpty then s.no (BUSY 0xD8)
      else (s.stopPart p q).yes

/-- The ledgers of a partition that has ended hold nothing (R339). -/
def Block.dropLedgers (s : Block) (p : Nat) : Block :=
  s.each ((List.range 4).map (pageLedger p) ++ [refLedger p, 0x1C0 + p]) fun s n => s.ledRenew n 0

/-- Everything of a partition destroyed and its resources returned (R310). -/
def Block.destroyPart (s : Block) (p : Nat) (q : Part) : Block :=
  let s := s.each q.setList fun s k => if s.setState k = 0 then s else firnSetStoppedEffect k (s.setSetState k 3)
  let s := s.each (s.sems.filter fun e => e.2.part == p) fun s e => s.semsLeave 0x1E0 [e]
  let s := s.each (keys (s.snowOf p).seqs) fun s k => s.stopMove p k (REFUSED 0xA0)
  let s := s.each ((s.snowOf p).arenas.filterMap fun e => e.2.leaving) fun s x => s.replyLate x.1 [x.2, 0]
  let n := (s.err.refetches.filter fun r => r.part == p).length
  let s := s.wf ERR_REFETCH 15 0 (s.fld ERR_REFETCH 15 0 - n)
  let s : Block := { s with
    sems := kfilter s.sems fun _ x => x.part != p, objs := kdel s.objs p, bundles := kfilter s.bundles fun _ b => b.part != p,
    snow := kdel s.snow p, serve := kdel s.serve p, adapters := kfilter s.adapters fun _ a => a.part != p, parts := kdel s.parts p,
    msc := (kmap s.msc fun _ l => l.filter fun x => x.part != p).filter fun e => !e.2.isEmpty,
    err := { s.err with refetches := s.err.refetches.filter fun r => r.part != p },
    esk := { s.esk with grants := s.esk.grants.filter fun g => g.part != p } }
  let s := s.setGroups q 0 0x3F
  let s := s.each q.dieList fun s d => s.wr (SRC_MSC_PCFG d p) (w32 0x10000)
  (((s.dropLedgers p).wr (SCH_P_CFG p) 0).wr (SNW p 0) 0).wr (SCH_P_STATE p) 0

/-- PARTITION_STOPPED: a STOPPING partition whose Firn sets have stopped. -/
def effPartitionStopped (p : Nat) (s : Block) : Block :=
  match s.part p with
  | some q => if s.fld (SCH_P_STATE p) 1 0 = 3 ∧ q.setList.all (fun k => s.setState k == 0) then s.destroyPart p q else s
  | none => s

/-! ### Clients (R311) -/

/-- Has a function jobs or requests that have not ended? -/
def Block.hasWork (s : Block) (f : Nat) : Bool :=
  (s.jobs.any fun e => e.2.fn == f) || s.reqs.any fun e => e.2.live && e.2.fn == f

/-- The counters of a client cleared. -/
def Block.clearClient (s : Block) (f : Nat) : Block :=
  let s : Block := { s with vOwed := kdel s.vOwed f }
  s.each [0x10, 0x14, 0x18, 0x1C, 0x20, 0x24, 0x28, 0x2C, 0x30, 0x34, 0x40, 0x44, 0x48, 0x4C, 0x50, 0x54, 0x58, 0x5C, 0x6C]
    fun s o => s.wr (SCH_C f o) 0

/-- A function that leaves a partition leaves its namespace there. -/
def Block.leaveNs (s : Block) (p f : Nat) : Block := s.setSnow p { s.snowOf p with nsOf := kdel (s.snowOf p).nsOf f }

/-- CLIENT_SET. -/
def effClientSet (ch : Chan) (s : Block) : Block :=
  s.message ch 0x0703 fun s ws => s.schPf ch <|
    let f := (mreg ws 1).toNat
    let p := (mreg ws 2).toNat
    let old := s.fnPart f
    if 63 < f ∨ (mreg ws 3).fld 17 16 = 3 ∨ (p ≠ 0x3F ∧ ((s.part p).isNone ∨ s.fld (SCH_P_STATE p) 1 0 = 3)) then s.no (REFUSED 0xD0)
    else if p ≠ old ∧ s.hasWork f then s.no (BUSY 0xD8)
    else
      let s := if p ≠ old then s.leaveNs old f else s
      let s := if p ≠ old ∧ p ≠ 0x3F then s.clearClient f else s
      (s.wr (SCH_C_CFG f) (w32 (p % 64 + (mreg ws 3).fld 17 16 * 64 + max 1 ((mreg ws 3).fld 15 0) * 65536))).yes

/-! ### Dispatch (R57, R175, R207, R292, R312, R315, R318, R384) -/

/-- Clusters of a partition that no job holds and that can take one. -/
def Block.freeClusters (s : Block) (p : Nat) : List Nat :=
  match s.part p with
  | none => []
  | some q => (s.partClusters q).filter fun c =>
      (s.cl c).job.isNone && (s.cl c).state != .outOfService && (List.range 8).all fun i => s.tileState (c * 8 + i) != 5

/-- The initial LOCAL or JOB semaphores of a bundle. -/
def semTable (i : BundleImage) (p space n : Nat) (more : List Nat) : Tbl Sem :=
  (List.range n ++ more).map fun k =>
    (k, Sem.fresh p (((i.sems.find? fun e => e.1 == space && e.2.1 == k).map (·.2.2)).getD 0))

/-- Units that a table of semaphores starts with, entered into the partition's ledger (R343). -/
def Block.semsEnter (s : Block) (p : Nat) (t : Tbl Sem) : Block := s.ledGrow (0x1C0 + p) (t.map fun e => e.2.count).sum

/-- The tile epochs of a cluster. -/
def Block.tileEpochs (s : Block) (c : Nat) : List Nat := (List.range 8).map fun i => s.fld (FLOE_EPOCH (c * 8 + i)) 15 0

/-- The numeric, core and cache counters of a cluster and its tiles. -/
def jobCounters (c : Nat) : List Nat :=
  [CCC_SCOPE_EVT c, CCC_STALL_NS c, CCC_CHEAP_SKIPPED c, CRC_HITS_LO c, CRC_HITS_LO c + 4, CRC_MISSES_LO c, CRC_MISSES_LO c + 4,
   CRC_INVALS c, CRC_DROPPED_FILLS c] ++
  (List.range 8).flatMap fun i => (List.range 9).map fun k => NUM_LAST (c * 8 + i) + 4 * k

/-- The tiles of a cluster set up for a job. -/
def Block.setTiles (s : Block) (c : Nat) (i : BundleImage) : Block :=
  loop 8 (fun k s =>
    let t := c * 8 + k
    let s := (s.wr (NUM_CTRL t) (i.numCtrl &&& 0x3FFFFF)).setPair (NUM_RNG_KEY_LO t) i.rngKey.toNat
    (s.wf (FLOE_STATE t) 2 0 3).wf (FLOE_STATE t) 9 4 i.tmRegions) s

/-- A cluster given to stream `st` of a job, before its descriptor and tables are written. -/
def Block.giveCluster (s : Block) (j : Nat) (J : Job) (i : BundleImage) (st c : Nat) : Block :=
  let s := s.each (jobCounters c) fun s a => s.wr a 0
  let sems := semTable i J.part 0 i.semLocal ((List.range 16).map (1008 + ·))
  let ep := s.tileEpochs c
  let s := s.modCl c fun k =>
    { Cluster.reset with state := .issuing, job := some j, stream := st, count := 1, pushSeq := k.pushSeq, shm := k.shm,
                         sems := sems, brk0 := (kget J.brks (2 * st)).getD Brk.off, brk1 := (kget J.brks (2 * st + 1)).getD Brk.off,
                         epochs := ep }
  let s := (s.semsEnter J.part sems).setTiles c i
  if J.desc.isEmpty then s else s.shmWrite c 0 (wordsBytes ((J.desc ++ List.replicate 16 0).take 16))

/-- A step's job begins its attempt. -/
def Block.stepBegan (s : Block) (J : Job) : Block :=
  match J.step with
  | some (p, m) =>
    let now := s.now
    s.modModel p m fun M => { M with step := M.step.map fun x => { x with began := now } }
  | none => s

/-- A new job placed on clusters; none when the tables of its step cannot be written yet. -/
def Block.placeNew (s : Block) (j : Nat) (J : Job) (cs : List Nat) : Option Block :=
  match kget s.bundles J.bundle with
  | none => none
  | some b =>
    let s := s.each cs.zipIdx fun s x => s.giveCluster j J b.img x.2 x.1
    (s.stepTables j J cs).map fun s =>
      let s := s.each cs fun s c => s.acquire c 24 1
      let sems := semTable b.img J.part 1 b.img.semJob []
      let s := s.semsEnter J.part sems
      let now := s.now
      let s := if J.step.isSome then s else s.countWait J.fn J.cls (now - J.since)
      let s := s.modJob j fun J => { J with state := .running, clusters := cs, ran := now, sems := sems, brks := [] }
      (s.stepBegan J).countJobs J.part

/-! ### Saves and restores (R171, R201, R317 to R322) -/

/-- The part of a store that lies in 64 KiB regions. -/
def Store.regions (m : Store) (l : List Nat) : Store :=
  { cells := m.cells.filter fun x => l.contains (x.1 / 65536), poison := m.poison.filter fun x => l.contains (x / 2048) }

/-- A store with regions taken from another. -/
def Store.overlay (m n : Store) (l : List Nat) : Store :=
  { cells := n.cells.foldl (fun a x => memSet a x.1 x.2) (m.cells.filter fun x => !l.contains (x.1 / 65536)),
    poison := (m.poison.filter fun x => !l.contains (x / 2048)) ++ n.poison }

/-- Does a cluster save at a cheap point? -/
def Cluster.cheapSave (k : Cluster) : Bool := k.cheap.isSome && !k.forced

/-- The regions of tile `i` that a save covers: the live ones of the mask, or all of the job's, region 62 with them
inside a routine. -/
def Cluster.saveRegions (k : Cluster) (i tm : Nat) : List Nat :=
  match (if k.forced then none else k.cheap) with
  | some c => if c.b 4 i then maskBits (c.n 1 + 2 ^ 32 * c.n 2) 62 else []
  | none => List.range tm ++ (if k.calls.isEmpty then [] else [62])

/-- Does a save cover a vector register of tile `i`? -/
def Cluster.saveReg (k : Cluster) (i r : Nat) : Bool :=
  match (if k.forced then none else k.cheap) with
  | some c => c.b 4 i && c.b 3 r
  | none => true

/-- Slots of the commands that a forced save keeps: not started, started. -/
def Cluster.slots (k : Cluster) : Nat × Nat :=
  let l := k.queues.flatMap (·.2)
  ((l.filter fun e => !e.started).length, (l.filter fun e => e.started).length)

/-- Registers read into a table. -/
def Block.copyRegs (s : Block) (l : List Nat) : Tbl Word := l.foldl (fun t a => kput t a (s.rg a)) []

/-- A cluster saved: the chip release, its state into the save area, its slots returned. -/
def Block.saveCluster (s : Block) (j c : Nat) : Block :=
  let s := s.releaseAll c
  let k := s.cl c
  let tm := s.tmRegions (c * 8)
  let tiles : Tbl Tile := (List.range 8).map fun i =>
    let t := s.tile (c * 8 + i)
    (i, { mem := t.mem.regions (k.saveRegions i tm), vregs := t.vregs.filter fun x => k.saveReg i (x.1 / 256),
          arr := if k.forced then t.arr else MatArray.reset })
  let area : SaveArea := { cluster := c, ctl := { k with out := [], lines := [] }, tiles := tiles, regs := s.copyRegs (jobCounters c) }
  let n := k.slots
  let s := (s.ledDrop (0x80 + c) n.1).ledLand (0x80 + c) n.2
  let s := loop 8 (fun i s => s.modArr (c * 8 + i) fun _ => MatArray.reset) s
  (s.modJob j fun J => { J with save := kput J.save k.stream area }).freeCluster c

/-- A cluster restored: what it saved, its slots taken again, the current tile epochs, the increments that SCHED
held, and a chip acquire. -/
def Block.restoreCluster (s : Block) (J : Job) (i : BundleImage) (a : SaveArea) : Block :=
  let c := a.cluster
  let k := a.ctl
  let s := s.setTiles c i
  let s := s.each a.tiles fun s x => s.modTile (c * 8 + x.1) fun t =>
    { mem := t.mem.overlay x.2.mem (k.saveRegions x.1 i.tmRegions),
      vregs := x.2.vregs.foldl (fun v y => tset 0 v y.1 y.2) (t.vregs.filter fun y => !k.saveReg x.1 (y.1 / 256)),
      arr := x.2.arr }
  let s := s.each a.regs fun s x => s.wr x.1 x.2
  let hw := k.hwm * 4096
  let ep := s.tileEpochs c
  let s := s.modCl c fun old =>
    let low (m : Store) (f : Nat → Bool) : Store := { cells := m.cells.filter fun x => f x.1, poison := m.poison.filter fun x => f (x * 32) }
    let hi := low old.shm fun x => decide (hw ≤ x)
    let lo := low k.shm fun x => decide (x < hw)
    { k with shm := { cells := lo.cells ++ hi.cells, poison := lo.poison ++ hi.poison }, epochs := ep, preempt := false, cheap := none,
             forced := false }
  let n := k.slots
  let s := (s.ledTake (0x80 + c) n.1).ledFly (0x80 + c) n.2
  let s := s.each (J.heldLocal.filter fun x => x.1 == c) fun s x =>
    (s.modSem (.localSem c x.2.1) fun y => { y with count := y.count + x.2.2, relScope := some 1, relCluster := 0x3F }).ledLand (0x1C0 + J.part) x.2.2
  s.acquire c 24 1

/-- A saved job placed again on the clusters it left (R315, R322). -/
def Block.placeSaved (s : Block) (j : Nat) (J : Job) : Option Block :=
  match kget s.bundles J.bundle with
  | none => none
  | some b =>
    let s := s.each J.save fun s x => s.restoreCluster J b.img x.2
    let now := s.now
    let s := if J.step.isSome then s else s.countWait J.fn J.cls (now - J.since)
    some ((s.modJob j fun J => { J with state := .running, ran := now, save := [], heldLocal := [] }).countJobs J.part)

/-! ### Choosing what runs and what gives way (R315, R316, R319, R320, R323) -/

/-- The jobs of a partition that wait, in the order of R315. -/
def Block.waitingJobs (s : Block) (p : Nat) : List (Nat × Job) :=
  let key (e : Nat × Job) : List Nat := [e.2.cls, s.vtime e.2.fn, e.2.since, e.1]
  ((s.jobs.filter fun e => e.2.part == p && !e.2.placed).mergeSort fun a b => decide (key a ≤ key b))

/-- A waiting job placed, if its clusters are free. -/
def Block.tryPlace (s : Block) (j : Nat) (J : Job) : Option Block :=
  let free := s.freeClusters J.part
  if J.state = .saved then
    if J.clusters.all free.contains then s.placeSaved j J else none
  else
    let n := s.jobStreams J
    if free.length < n ∨ (s.lost ∧ J.state = .ready) then none
    else
      let (k, s) := s.choose free.length
      s.placeNew j J ((free.drop k ++ free.take k).take n)

/-- Does a message of a job's owner that sets its comparators or resumes it wait, and is a core of the job BROKEN? -/
def Block.breakPending (s : Block) (j : Nat) (J : Job) : Bool :=
  J.clusters.any (fun c => (s.cl c).state == .broken) &&
  (List.range 8).any fun n =>
    let ch := Chan.fn J.fn n
    (s.msgReady ch 0x0403 || s.msgReady ch 0x0404) && mreg (s.msgWords ch) 1 == w32 j

/-- May a job be chosen as a victim for another (R316): running, not already asked? -/
def Block.chosable (s : Block) (j : Nat) (J : Job) : Bool := J.state == .running && J.boundAt.isNone && !s.breakPending j J

/-- The clusters that a waiting job could take from a running one. -/
def Job.serves (w J : Job) : Bool := w.state != .saved || J.clusters.any w.clusters.contains

/-- Pre-emption asked of a job. One that holds a semaphore inherits instead until it gives it back (R323); one whose
core waits on a semaphore or is BROKEN is forced at once (R320). -/
def Block.askPreempt (s : Block) (w : Job) (j : Nat) : Block :=
  if s.holdsSem j then (s.inheritFrom j w).modJob j fun J => { J with wanted := true } else s.beginPreempt j

/-- Victims taken in order until `need` clusters are covered; none when they are not enough. -/
def coverWith (need : Nat) (size : Nat × Job → Nat) : List (Nat × Job) → List Nat
  | [] => []
  | e :: l => if need = 0 then [] else e.1 :: coverWith (need - size e) size l

/-- The candidates of R316 that satisfy a test, in its order: lowest class, largest V, latest dispatch. -/
def Block.candidates (s : Block) (w : Job) (ok : Job → Bool) : List (Nat × Job) :=
  let key (e : Nat × Job) : List Nat := [2 - min 2 e.2.ranks, 2 ^ 64 - s.vtime e.2.fn, 2 ^ 64 - e.2.ran, e.1]
  (s.jobs.filter fun e => e.2.part == w.part && s.chosable e.1 e.2 && w.serves e.2 && ok e.2).mergeSort
    fun a b => decide (key a ≤ key b)

/-- Clusters that a waiting job lacks, those already asked for counted as coming, when `used` of the free and coming ones
are for jobs that stand before it. -/
def Block.lackingAfter (s : Block) (w : Job) (used : Nat) : Nat :=
  let free := s.freeClusters w.part
  let coming := (s.jobs.filter fun e => e.2.part == w.part && e.2.boundAt.isSome).flatMap fun e => e.2.clusters
  if w.state = .saved then (w.clusters.filter fun c => !free.contains c && !coming.contains c).length
  else s.jobStreams w - (free.length + coming.length - used)

/-- Clusters that a waiting job lacks when none stands before it. -/
def Block.lacking (s : Block) (w : Job) : Nat := s.lackingAfter w 0

/-- The victims taken for a waiting job (R316): none when it lacks nothing, or when the candidates do not cover it. -/
def Block.victims (s : Block) (w : Job) (ok : Job → Bool) (used : Nat) : List Nat :=
  let l := s.candidates w ok
  let size (e : Nat × Job) : Nat := if w.state = .saved then (e.2.clusters.filter w.clusters.contains).length else e.2.clusters.length
  let need := s.lackingAfter w used
  if (l.map size).sum < need then [] else coverWith need size l

/-- Pre-emption requested for a waiting job (R316). -/
def Block.preemptFor (s : Block) (w : Job) (ok : Job → Bool) (used : Nat := 0) : Block :=
  s.each (s.victims w ok used) fun s j => s.askPreempt w j

/-- Pre-emption requested for every waiting job whose class is higher than a victim's, in their order. The clusters that
come to one job are not counted for the next. -/
def Block.preemptHigher (s : Block) : List (Nat × Job) → Nat → Block
  | [], _ => s
  | e :: l, used =>
    let s := s.preemptFor e.2 (fun J => decide (e.2.cls < J.ranks)) used
    s.preemptHigher l (if s.lackingAfter e.2 used = 0 then used + s.jobStreams e.2 else used)

/-- May SCHED dispatch? -/
def Block.schedUp (s : Block) : Bool := s.coreUp 1 && !s.inBreach

/-- SCHED places the best waiting job whose clusters are free. When it places none, it requests pre-emption for
those that wait while jobs of lower class run (R315, R316); after a driver loss, for saved ones alone (R328). -/
def Block.dispatch (s : Block) (p : Nat) : Block :=
  if !s.schedUp || !s.partRunning p then s else
  let l := s.waitingJobs p
  match l.findSome? fun e => s.tryPlace e.1 e.2 with
  | some s => s
  | none => s.preemptHigher (if s.lost then l.filter fun e => e.2.state == .saved else l) 0

/-- JOB_DISPATCH. -/
def effJobDispatch (p : Nat) (s : Block) : Block := s.dispatch p

/-- SLICE in nanoseconds. -/
def Block.slice (s : Block) : Nat := max 1 (s.fld SCH_SLICE 15 0) * 1000

/-- SLICE_EXPIRY: pre-emption of a job of the same class that has run for SLICE and whose client's V is larger. -/
def effSliceExpiry (j : Nat) (s : Block) : Block :=
  match s.jobAt j with
  | none => s
  | some w =>
    if w.placed || !s.schedUp || (s.lost && w.state == .ready) || !s.partRunning w.part then s else
    s.preemptFor w fun J => J.ranks == w.cls && decide (J.ran + s.slice ≤ s.now) && decide (s.vtime w.fn < s.vtime J.fn)

/-- PREEMPT_BOUND and HOLD_BOUND in nanoseconds. -/
def Block.preemptBound (s : Block) : Nat := max 1 (s.fld SCH_GCFG 15 0) * 1000
def Block.holdBound (s : Block) : Nat := max 1 (s.fld SCH_GCFG 31 16) * 1000

/-- PREEMPT_BOUND_EXPIRY, when the bound has passed: every cluster that has not begun its save is forced. -/
def effPreemptBoundExpiry (j : Nat) (s : Block) : Block :=
  match s.jobAt j with
  | some J => match J.boundAt with
    | some t => if J.state = .running ∧ t + s.preemptBound ≤ s.now then s.forceJob j else s
    | none => s
  | none => s

/-- Has a cluster reached its save? -/
def Cluster.saveReady (k : Cluster) : Bool := k.ended || k.forced || (k.cheap.isSome && k.queues.isEmpty)

/-- Have all clusters of a victim reached their saves, and its remote operations been answered (R319, R321)? -/
def saveReady (j : Nat) (s : Block) : Bool :=
  match s.jobAt j with
  | some J => J.state == .running && J.boundAt.isSome && s.jobOut j == 0 && J.clusters.all fun c => (s.cl c).saveReady
  | none => false

/-- The pre-emption counted for its client, or for each client and class of a step (R326). -/
def Block.countPreempted (s : Block) (J : Job) : Block :=
  if J.step.isNone then s.countPreempt J.fn J.cls else
  s.each ((s.stepRows J).filterMap fun r => (kget s.reqs r.req).map fun q => (q.fn, q.cls)).dedup fun s x => s.countPreempt x.1 x.2

/-- PREEMPT_SAVE_DONE: the victim is saved and ready, and SCHED places the waiting job. -/
def preemptSaveEffect (j : Nat) (s : Block) : Block :=
  match s.jobAt j with
  | none => s
  | some J =>
    let forced := J.clusters.any fun c => (s.cl c).forced
    let s := s.each J.clusters fun s c => s.saveCluster j c
    let now := s.now
    let s := s.modJob j fun J => { J with state := .saved, since := now, boundAt := none }
    let s := s.bump (if forced then SCH_P_FORCED J.part else SCH_P_CHEAP J.part)
    ((s.countPreempted J).countJobs J.part).dispatch J.part

/-- PREEMPT_SAVE_DONE, when the saves are done. -/
def effPreemptSaveDone (j : Nat) (s : Block) : Block := if saveReady j s then preemptSaveEffect j s else s

/-! ### HOLD_BOUND_EXPIRY (R324) -/

/-- HOLD_BOUND_EXPIRY: the holder's job ends and the semaphore has its N back. -/
def effHoldBoundExpiry (r : SemRef) (s : Block) : Block :=
  match s.sem r with
  | none => s
  | some x =>
    match x.holder with
    | none => s
    | some j =>
      match (if s.schedUp ∧ x.holdAt + s.holdBound ≤ s.now then s.jobAt j else none) with
      | none => s
      | some J =>
        let s := (s.modSem r fun x => { x with count := x.count + x.holdN, holder := none, holdN := 0 }).ledDrop (s.semLedger r) x.holdN
        let s := (s.bump (SCH_P_HOLD_TO J.part)).event srcHealth 0x0A04 [w32 J.part, w32 J.fn, w32 j, w32 (refName r)]
        s.endJob j (TIMEOUT 0xD1)

/-! ### Driver loss and adoption (R327 to R330) -/

/-- DRV_STATE set. -/
def Block.setDrv (s : Block) (v : Nat) : Block := s.wf SCH_DRV 1 0 v

/-- A write to SCH_HB: it arms the heartbeat. During LOST it changes nothing. -/
def effHeartbeat (_v : Word) (s : Block) : Block :=
  let s : Block := { s with beatAt := s.now }
  if s.fld SCH_DRV 1 0 = 0 then s.setDrv 1 else s

/-- SCHED records a driver loss. -/
def Block.lossTold (s : Block) (cause : Nat) : Block :=
  s.event (srcCore 1) 0x0A01 [w32 cause, w32 (s.fld SCH_HB_CFG 13 0), w32 s.parts.length]

/-- Driver loss is declared for a cause (R328). While SCHED is away Moraine declares it, and SCHED records it later. -/
def Block.driverLost (s : Block) (cause : Nat) : Block :=
  if s.lost then s else
  let s := ((s.setDrv 2).wb SCH_DRV 2 (cause == 1)).wf SCH_DRV 15 4 (max 1 (s.fld SCH_HB_CFG 27 16))
  let s := { s with lostAt := s.now }
  (if s.coreUp 1 then s.lossTold cause else { s with lossUntold := some cause }).snowLost

/-- HB_PERIOD in nanoseconds. -/
def Block.hbPeriod (s : Block) : Nat := min 10000 (max 10 (s.fld SCH_HB_CFG 13 0)) * 1000000

/-- HEARTBEAT_TIMEOUT: the period has passed without a beat from an attached driver. -/
def effHeartbeatTimeout (s : Block) : Block :=
  if s.fld SCH_DRV 1 0 = 1 ∧ s.beatAt + s.hbPeriod ≤ s.now then s.driverLost 0 else s

/-- Held ring entries, and held host writes in 256 B units. -/
def Block.heldCounts (s : Block) : Nat × Nat :=
  let l := s.fns.flatMap fun e => e.2.held
  (heldEntries l, (l.map fun | .write _ bs => heldUnits bs | .entry _ _ => 0).sum)

/-- The driver has adopted the module. -/
def Block.adopted (s : Block) (discard : Nat) (n : Nat × Nat) : Block :=
  let s := (s.setDrv 1).wf SCH_DRV 15 4 0
  let s := s.event srcHealth 0x0A02 [w32 discard, w32 n.1, w32 n.2]
  { s with start := { s.start with mustDiscard := false }, beatAt := s.now }

/-- What is held delivered, and swaps resumed. -/
def Block.adoptKeep (s : Block) : Block :=
  let n := s.heldCounts
  let s := s.adopted 0 n
  let s := s.each (keys s.fns) fun s f => s.flushHeld f
  s.each (keys s.snow) fun s p => s.openMoves p

/-- The live requests that a function's held progress records report. -/
def Block.heldReqs (s : Block) (f : Nat) : List Nat :=
  ((s.fn f).held.filterMap fun
    | .entry _ ws => if (mreg ws 4).fld 31 28 = 0 then (s.ownReq f (mreg ws 0)).bind fun r => if r.2.live then some r.1 else none else none
    | .write _ _ => none).dedup

/-- The jobs of a function that its held break records report (R202, R386). -/
def Block.heldJobs (s : Block) (f : Nat) : List Nat :=
  ((s.fn f).held.filterMap fun
    | .entry _ ws => if (mreg ws 4).fld 31 28 = 2 ∧ (s.jobAt (mreg ws 0).toNat).any (fun J => J.fn == f) then some (mreg ws 0).toNat else none
    | .write _ _ => none).dedup

/-- What is held discarded; requests and jobs that it reports and that have not ended end. -/
def Block.adoptDiscard (s : Block) : Block :=
  let n := s.heldCounts
  let l := (keys s.fns).flatMap s.heldReqs
  let js := (keys s.fns).flatMap s.heldJobs
  let s := s.each (keys s.fns) fun s f => s.dropHeld f
  let s := s.adopted 1 n
  let s := s.each l fun s k => s.endReq k 0 (ABORTED 0xD2) 0
  let s := s.each js fun s j => s.endJob j (ABORTED 0xD2)
  s.each (keys s.snow) fun s p => s.openMoves p

/-- DRV_ADOPT of one form. After a warm start that kept state either form discards (R424). -/
def adoptMsg (discard : Bool) (ch : Chan) (s : Block) : Block :=
  s.messageWhen ch 0x0704 (fun ws => (mreg ws 1).bit 0 == discard) fun s _ => s.schPf ch <|
    if !s.lost then s.no (REFUSED 0xD7) else
    let n := s.heldCounts
    (if discard || s.start.mustDiscard then s.adoptDiscard else s.adoptKeep).yes [w32 n.1, w32 n.2]

/-- DRV_ADOPT with DISCARD = 0. -/
def effDrvAdoptKeep (ch : Chan) (s : Block) : Block := adoptMsg false ch s
/-- DRV_ADOPT with DISCARD = 1. -/
def effDrvAdoptDiscard (ch : Chan) (s : Block) : Block := adoptMsg true ch s

/-- Every partition destroyed, and every client assignment cleared (R330). -/
def Block.destroyAll (s : Block) : Block :=
  let s := s.each (keys s.fns) fun s f => s.dropHeld f
  let s := s.each s.parts fun s e => (s.stopPart e.1 e.2).destroyPart e.1 e.2
  loop 64 (fun f s => s.wf (SCH_C_CFG f) 5 0 0x3F) s

/-- Has GRACE passed since the loss? SCH_DRV holds the GRACE that it began with. -/
def Block.graceOver (s : Block) : Bool := s.lost && decide (s.lostAt + s.fld SCH_DRV 15 4 * 1000000000 ≤ s.now)

/-- GRACE_EXPIRY. -/
def effGraceExpiry (s : Block) : Block :=
  if !s.graceOver then s else
  let work := s.jobs.length + (s.reqs.filter fun e => e.2.live).length
  let parts := s.parts.length
  let s := ((s.killJobs (ABORTED 0xD2) true).killReqs).destroyAll
  (((s.setDrv 0).wf SCH_DRV 15 4 0).event srcHealth 0x0A03 [w32 parts, w32 work])

/-! ### Meanings -/

/-- The meaning of PART_CREATE. -/
def execPartCreate (ch : Chan) : State → Host.Outcome State Fault Refusal := onBlk (effPartCreate ch)
/-- The meaning of PARTITION_RUNNING. -/
def execPartitionRunning (p : Nat) : State → Host.Outcome State Fault Refusal := onBlk (effPartitionRunning p)
/-- The meaning of PART_DESTROY. -/
def execPartDestroy (ch : Chan) : State → Host.Outcome State Fault Refusal := onBlk (effPartDestroy ch)
/-- The meaning of PARTITION_STOPPED. -/
def execPartitionStopped (p : Nat) : State → Host.Outcome State Fault Refusal := onBlk (effPartitionStopped p)
/-- The meaning of CLIENT_SET. -/
def execClientSet (ch : Chan) : State → Host.Outcome State Fault Refusal := onBlk (effClientSet ch)
/-- The meaning of JOB_DISPATCH. -/
def execJobDispatch (p : Nat) : State → Host.Outcome State Fault Refusal := onBlk (effJobDispatch p)
/-- The meaning of SLICE_EXPIRY. -/
def execSliceExpiry (j : Nat) : State → Host.Outcome State Fault Refusal := onBlk (effSliceExpiry j)
/-- The meaning of PREEMPT_BOUND_EXPIRY. -/
def execPreemptBoundExpiry (j : Nat) : State → Host.Outcome State Fault Refusal := onBlk (effPreemptBoundExpiry j)
/-- The meaning of PREEMPT_SAVE_DONE. -/
def execPreemptSaveDone (j : Nat) : State → Host.Outcome State Fault Refusal := onBlk (effPreemptSaveDone j)
/-- The meaning of HOLD_BOUND_EXPIRY. -/
def execHoldBoundExpiry (r : SemRef) : State → Host.Outcome State Fault Refusal := onBlk (effHoldBoundExpiry r)
/-- The meaning of HEARTBEAT. -/
def execHeartbeat (v : Word) : State → Host.Outcome State Fault Refusal := onBlk (effHeartbeat v)
/-- The meaning of HEARTBEAT_TIMEOUT. -/
def execHeartbeatTimeout : State → Host.Outcome State Fault Refusal := onBlk effHeartbeatTimeout
/-- The meaning of DRV_ADOPT_KEEP. -/
def execDrvAdoptKeep (ch : Chan) : State → Host.Outcome State Fault Refusal := onBlk (effDrvAdoptKeep ch)
/-- The meaning of DRV_ADOPT_DISCARD. -/
def execDrvAdoptDiscard (ch : Chan) : State → Host.Outcome State Fault Refusal := onBlk (effDrvAdoptDiscard ch)
/-- The meaning of GRACE_EXPIRY. -/
def execGraceExpiry : State → Host.Outcome State Fault Refusal := onBlk effGraceExpiry


end Sys2Proof.Machine
end

