-- ==== Sys2Proof/Machine/Esker.lean ====
section
/-! DEFINITION. The Esker links: training, lanes, flits, packets received, loss of requests, time synchronization and
the messages of class 0x08 (R347 to R374). -/

namespace Sys2Proof.Machine

/-! ### Training (R351, R353, R354) -/

/-- Is `p` a port? -/
def portOk (p : Nat) : Bool := decide (p < 16)

/-- Credits that a port's ESK_VC_BUF_v add up to. -/
def Block.bufSum (s : Block) (p : Nat) : Nat := ((List.range 8).map fun v => s.fld (ESK_VC_BUF p v) 14 0).sum

/-- A port enters STARTING: it reads the settings of R427. From STOPPED its lanes and its spare are free again (R348). -/
def Block.trainPort (s : Block) (p : Nat) : Block :=
  let s := (s.wf (ESK_STATE p) 1 0 1).wb (ESK_STATE p) 11 (decide (16384 < s.bufSum p))
  let s := (s.wb (ESK_STATE p) 2 false).wf (ESK_STATE p) 6 3 0
  let s := loop 9 (fun n s => s.wf (ESK_LANE p n) 18 16 0) s
  s.modPort p fun x => { x with retrain := false, laneMax := s.fld (ESK_LANE_CFG p) 15 0, encReq := s.bit (ESK_CFG p) 9 }

/-- ESK_PORT with start, and FN_CTRL with start of a port (R354, R426). -/
def Block.startPort (s : Block) (p : Nat) : Nat × Block :=
  match s.portState p with
  | 0 => (OK, s.trainPort p)
  | 3 => (BUSY 0xE4, (s.bump (ESK_CNT_BUSY p)).bump MOR_CNT_FN_BUSY)
  | _ => (OK, s)

/-- ESK_PORT with stop, and FN_CTRL with stop of a port: STOPPING, until PORT_STOPPING_DONE. -/
def Block.stopPort (s : Block) (p : Nat) : Block :=
  if s.portState p = 0 then s.modPort p fun x => { x with retrain := false }
  else if s.portState p = 3 then s else (s.wf (ESK_STATE p) 1 0 3).modPort p fun x => { x with retrain := false }

/-- PORT_STOPPING_DONE: the wait of a STOPPING port ends (R354). -/
def effPortStoppingDone (p : Nat) (s : Block) : Block :=
  if portOk p ∧ s.portState p = 3 then s.portDown p 0 else s

/-- The identifier of the key in a slot of a port: direction 0 sends, 1 receives (R493). -/
def Block.keyId (s : Block) (p dir slot : Nat) : Option Word := (kget s.trust.keys (p * 4 + dir * 2 + slot)).map (·.id)

/-- The identifiers that differ between the two ends of a port, if any: ours and the partner's, for each direction.
An end without a key differs from any (log entry 13). -/
def Block.keysDiffer (s : Block) (p : Nat) (t : Training) : Option (Word × Word) :=
  let x := s.port p
  let pairs := [(s.keyId p 0 x.sendSlot, t.recvKey), (s.keyId p 1 x.recvSlot, t.sendKey)]
  (pairs.find? fun e => e.1.isNone || e.1 != e.2).map fun e => (e.1.getD 0, e.2.getD 0)

/-- Training fails: STOPPED with its cause, or back to step 1 after RETRAIN_MS. -/
def Block.trainFailed (s : Block) (p cause : Nat) : Block :=
  let s := s.wf (ESK_STATE p) 9 7 cause
  if s.bit (ESK_CFG p) 8 then s.modPort p fun x => { x with retrain := true } else s.wf (ESK_STATE p) 1 0 0

/-- The lanes of a trained port. -/
def Block.setLanes (s : Block) (p : Nat) (t : Training) : Block :=
  loop 9 (fun n s =>
    let used := decide (some n ≠ t.failedLane ∧ (n < 8 ∨ t.failedLane.isSome))
    (s.wf (ESK_LANE p n) 17 16 ((if some n = t.failedLane then 0 else 1) + 2 * b2n used)).wb (ESK_LANE p n) 18
      (decide (some n = t.failedLane))) s

/-- Step 6 of training: credits, RUNNING, event 0x0602, and routes through the port in use again. -/
def Block.portRuns (s : Block) (p : Nat) (t : Training) (enc : Bool) : Block :=
  let s := s.each (List.range 8) fun s v => s.ledRenew (creditLedger p v) (t.credits.getD v 0)
  let s := s.setLanes p t
  let s := (s.wf (ESK_STATE p) 26 12 t.node).wf (ESK_STATE p) 30 27 t.port
  let s := (s.wb (ESK_STATE p) 2 t.failedLane.isSome).wf (ESK_STATE p) 6 3 (t.failedLane.getD 0)
  let s := ((s.wb (ESK_STATE p) 10 enc).wb (ESK_STATE p) 31 false).wf (ESK_STATE p) 9 7 0
  let s := (s.wf (ESK_STATE p) 1 0 2).wf (ESK_EPOCH p) 15 0 (nextEpoch (s.fld (ESK_EPOCH p) 15 0))
  let s := s.modPort p fun x => { x with rxSeq := 0, acked := 0, replays := 0, tagFails := 0, lastRx := s.now }
  let s := s.event srcMoraine 0x0602 [w32 p, w32 t.node, w32 t.port, w32 (b2n t.failedLane.isSome), w32 (b2n enc)]
  (s.checkNodes s.esk.down 1).pumpAll

/-- Does a port train? -/
def training (p : Nat) (s : Block) : Bool := portOk p && (s.portState p == 1) && !(s.port p).retrain

/-- PORT_TRAINING_DONE: steps 2 to 6 of R351. -/
def portTrainingEffect (p : Nat) (t : Training) (s : Block) : Block :=
  let enc := (s.port p).encReq || t.encReq
  if !t.lanesOk then s.trainFailed p 6
  else if s.nodeValid && t.nodeValid && t.node == s.node then
    (s.trainFailed p 7).event srcMoraine 0x0605 [w32 p, w32 t.node]
  else match s.keysDiffer p t with
    | some (a, b) =>
      if enc then
        ((s.trainFailed p 5).wb (ESK_STATE p) 31 true).event srcMoraine 0x0606 [w32 p, 0, 1, a, b]
      else s.portRuns p t false
    | none => s.portRuns p t enc

/-- PORT_TRAINING_DONE, while the port trains. -/
def effPortTrainingDone (p : Nat) (t : Training) (s : Block) : Block :=
  if training p s then portTrainingEffect p t s else s

/-- RETRAIN_TIMER: a port that waits for RETRAIN_MS trains again (R351, R353), unless its PHY coasts (R442). -/
def effRetrainTimer (p : Nat) (s : Block) : Block :=
  if portOk p && (s.port p).retrain && s.coreUp 5 && !s.clk.coastEsk then s.trainPort p else s

/-! ### Loss (R348, R352) -/

/-- LOSS_OF_SIGNAL on all lanes in use. -/
def effLossOfSignal (p : Nat) (s : Block) : Block := if portOk p && s.portUp p then s.portDown p 1 else s

/-- KA_TIMEOUT in nanoseconds. -/
def Block.kaTimeout (s : Block) (p : Nat) : Nat := min 9 (max 2 (s.fld (ESK_CFG p) 3 0)) * 1000

/-- KEEPALIVE_TIMEOUT: no flit accepted for KA_TIMEOUT. -/
def effKeepaliveTimeout (p : Nat) (s : Block) : Block :=
  if portOk p && s.portUp p && decide ((s.port p).lastRx + s.kaTimeout p ≤ s.now) then s.portDown p 2 else s

/-- Can lane 8 take another lane's place? -/
def Block.spareLeft (s : Block) (p : Nat) : Bool := !s.bit (ESK_STATE p) 2 && !s.bit (ESK_LANE p 8) 18

/-- A lane fails: lane 8 takes its place, or the port goes down with cause LANE. -/
def Block.laneFails (s : Block) (p n : Nat) : Block :=
  let inUse := s.bit (ESK_LANE p n) 17
  let s := (s.wb (ESK_LANE p n) 18 true).wb (ESK_LANE p n) 17 false
  if !inUse then s
  else if s.spareLeft p then
    let s := (s.wb (ESK_LANE p 8) 17 true).wb (ESK_STATE p) 2 true
    (s.wf (ESK_STATE p) 6 3 n).event srcHealth 0x0603 [w32 p, w32 n]
  else s.portDown p 6

/-- LANE_LOCK_LOSS. -/
def effLaneLockLoss (p n : Nat) (s : Block) : Block :=
  if portOk p && decide (n < 9) && s.portUp p then (s.wb (ESK_LANE p n) 16 false).laneFails p n else s

/-- LANE_ERROR_WINDOW: the corrected symbols of each lane in a window of 1 ms. -/
def effLaneErrorWindow (p : Nat) (errs : List Nat) (s : Block) : Block :=
  if portOk p && s.portUp p then
    let s := loop 9 (fun n s => s.wf (ESK_LANE p n) 15 0 (min 0xFFFF (errs.getD n 0))) s
    let worst := (List.range 9).filter fun n => s.bit (ESK_LANE p n) 17 && decide ((s.port p).laneMax < errs.getD n 0)
    s.each worst fun s n => if s.portUp p then s.laneFails p n else s
  else s

/-! ### Flits (R349, R350, R369) -/

/-- A NAK accepted: the flit after ACK is replayed. Replays in succession are those that follow one ACK. -/
def Block.nakTaken (s : Block) (p : Nat) : Block :=
  let s := (s.bump (ESK_CNT_RETRY p)).modPort p fun x => { x with replays := x.replays + 1 }
  if max 1 (s.fld (ESK_CFG p) 7 4) ≤ (s.port p).replays then s.portDown p 4 else s

/-- The trailer of an accepted flit takes effect. -/
def Block.trailer (s : Block) (p : Nat) (fl : Flit) : Block :=
  let s := s.modPort p fun x =>
    { x with rxSeq := (x.rxSeq + 1) % 1024, lastRx := s.now, tagFails := 0,
             replays := if fl.ack = x.acked then x.replays else 0, acked := fl.ack,
             recvSlot := if fl.ctrl = .keySwitch then 1 - x.recvSlot else x.recvSlot }
  (if fl.crN = 0 then s else s.ledLand (creditLedger p fl.crVc) fl.crN).pump p

/-- A flit whose group's tag fails (R369). -/
def Block.tagFailed (s : Block) (p : Nat) : Block :=
  let s := (s.bump (ESK_CNT_GCM_FAIL p)).modPort p fun x => { x with tagFails := x.tagFails + 1 }
  let n := (s.port p).tagFails
  if max 1 (s.fld (ESK_CFG p) 7 4) ≤ n then (s.portDown p 5).event srcMoraine 0x0606 [w32 p, w32 n] else s

/-- FLIT_RECEIVE: a flit discarded, or accepted in order. -/
def flitEffect (p : Nat) (fl : Flit) (s : Block) : Block :=
  let x := s.port p
  if !fl.checkOk || fl.fseq % 1024 != x.rxSeq then s
  else if s.bit (ESK_STATE p) 10 && !fl.tagOk then s.tagFailed p
  else
    let s := s.trailer p fl
    if fl.ctrl = .stop then s.portDown p 3 else if fl.nak then s.nakTaken p else s

/-- FLIT_RECEIVE, on a port that is RUNNING. -/
def effFlitReceive (p : Nat) (fl : Flit) (s : Block) : Block := if portOk p && s.portUp p then flitEffect p fl s else s

/-! ### Packets received (R357, R360, R362, R364) -/

/-- A packet for another node goes on (R360). -/
def Block.forward (s : Block) (p : Nat) (k : Packet) : Block :=
  match s.routePort k.vc k.dst with
  | some q => s.enqueue q false { k with hops := k.hops + 1 }
  | none => s.discard p

/-- A packet of this node's is handled by `h`; another node's goes on; one that may not pass is discarded. -/
def Block.receive (s : Block) (p : Nat) (k : Packet) (h : Block → Block) : Block :=
  let s := s.bumpPair (ESK_CNT_RX_LO p) (packetBytes k)
  if k.hops = 31 then s.discard p
  else if !s.nodeValid && k.vc != 4 then s.discard p
  else if s.nodeValid && k.dst == s.node then h s
  else if !s.nodeValid then h s
  else s.forward p k

/-- Is the packet of a row's type, on a port that is RUNNING? -/
def packetReady (p ptype : Nat) (k : Packet) (s : Block) : Bool := portOk p && s.portUp p && (k.ptype == ptype)

/-- A packet of a type that R357 does not list, on a port that is RUNNING. -/
def strayPacket (p : Nat) (k : Packet) (s : Block) : Bool :=
  portOk p && s.portUp p && !([1, 2, 3, 4, 8, 9, 0xC].contains k.ptype)

/-- A packet of a row's type takes its effect; one of no type is discarded and counted (R357). -/
def Block.takesPacket (s : Block) (p ptype : Nat) (k : Packet) (f : Block → Block) : Block :=
  if packetReady p ptype k s then f s
  else if strayPacket p k s then (s.bumpPair (ESK_CNT_RX_LO p) (packetBytes k)).discard p
  else s

/-- A request packet: performed here and answered, or forwarded. -/
def requestEffect (p : Nat) (k : Packet) (s : Block) : Block :=
  s.receive p k fun s =>
    let r := s.perform k
    r.2.respond p k r.1

/-- A request packet of a type. -/
def Block.requestPacket (s : Block) (p ptype : Nat) (k : Packet) : Block :=
  s.takesPacket p ptype k (requestEffect p k)

/-- ESK_WRITE_PACKET. -/
def effEskWritePacket (p : Nat) (k : Packet) (s : Block) : Block := s.requestPacket p 1 k
/-- ESK_RED_PACKET. -/
def effEskRedPacket (p : Nat) (k : Packet) (s : Block) : Block := s.requestPacket p 2 k
/-- ESK_READ_PACKET. -/
def effEskReadPacket (p : Nat) (k : Packet) (s : Block) : Block := s.requestPacket p 3 k
/-- ESK_ATOMIC_PACKET. -/
def effEskAtomicPacket (p : Nat) (k : Packet) (s : Block) : Block := s.requestPacket p 4 k

/-- Does a response fit an outstanding request: its source, the epoch of the port and its kind? -/
def Block.responds (s : Block) (o : Outstanding) (k : Packet) : Bool :=
  (o.dst == k.src) && (s.fld (ESK_EPOCH o.port) 15 0 == o.epoch) && o.sent.isSome &&
  ((k.ptype == 9) == (o.ptype == 3 || o.ptype == 4))

/-- A response completes its request and frees the tag, or is discarded (R362, R364, R429). -/
def Block.complete (s : Block) (p : Nat) (k : Packet) : Block :=
  match kget s.esk.out k.tag with
  | none => s.discard p
  | some o =>
    if s.responds o k then
      let s := ({ s with esk := { s.esk with out := kdel s.esk.out k.tag } }).answered o
        ⟨k.status, k.data, bitMarks k.data.length k.poison⟩
      (match o.mover with
        | some m => s.farPump m.1
        | none => s).pumpAll
    else s.discard p

/-- A response packet: it completes a request of this node, or is forwarded. -/
def responseEffect (p : Nat) (k : Packet) (s : Block) : Block := s.receive p k fun s => s.complete p k

/-- ESK_ACK_PACKET. -/
def effEskAckPacket (p : Nat) (k : Packet) (s : Block) : Block := s.takesPacket p 8 k (responseEffect p k)
/-- ESK_DATA_PACKET. -/
def effEskDataPacket (p : Nat) (k : Packet) (s : Block) : Block := s.takesPacket p 9 k (responseEffect p k)

/-- May a management packet carry a fabric message (R370)? -/
def Block.fromFm (s : Block) (k : Packet) : Bool := s.bit ESK_FABRIC 15 && (k.src == s.fld ESK_FABRIC 14 0) && (k.vc == 4)

/-- The message of a management packet placed in its channel. -/
def Block.mgmtMessage (s : Block) (msg : List Word) : Block :=
  let a := chBase .mgmt
  let s := s.setBox a { s.box a with len := max 8 msg.length }
  (s.boxData a msg).wb (a + 0x44) 0 true

/-- A management packet for this node: a fabric message from FM_NODE; any other is discarded. -/
def mgmtEffect (p : Nat) (k : Packet) (msg : List Word) (s : Block) : Block :=
  s.receive p k fun s =>
    if s.fromFm k && ((mreg msg 0).fld 15 8 == 8) then s.mgmtMessage msg else s

/-- ESK_MGMT_PACKET; it waits in the receive buffer while an earlier message is held. -/
def effEskMgmtPacket (p : Nat) (k : Packet) (msg : List Word) (s : Block) : Block :=
  s.takesPacket p 0xC k fun s => if s.full (chBase .mgmt) then s else mgmtEffect p k msg s

/-! ### Timers (R360, R364, R368) -/

/-- ACK_TIMEOUT_EXPIRY: a request that was sent ACK_TIMEOUT ago and has no response is lost. -/
def effAckTimeoutExpiry (t : Nat) (s : Block) : Block :=
  match kget s.esk.out t with
  | some o =>
    match o.sent with
    | some at_ =>
      if at_ + s.fld ESK_ACK 15 0 * 1000 ≤ s.now then ((s.requestLost t).event srcLink 0x0604 [w32 o.dst, 2]).pumpAll else s
    | none => s
  | none => s

/-- The first packet of VC 1 that waits at a port, and the queue without it. -/
def firstVc1 : List Queued → Option (Queued × List Queued)
  | [] => none
  | q :: l => if q.vc = 1 then some (q, l) else (firstVc1 l).map fun r => (r.1, q :: r.2)

/-- VC1_ESCAPE_TIMEOUT: a packet that has waited 2 µs on VC 1 moves to VC 5 on the fixed route. -/
def effVc1EscapeTimeout (p : Nat) (s : Block) : Block :=
  if !(portOk p && s.portUp p) then s else
  match firstVc1 (s.port p).queue with
  | none => s
  | some (q, rest) =>
    match s.fixedPort q.packet.dst with
    | none => s
    | some r =>
      let move (o : Outstanding) : Outstanding := { o with port := r, epoch := s.fld (ESK_EPOCH r) 15 0 }
      let s := s.modPort p fun x => { x with queue := rest }
      let s := if q.own && isRequest q.packet then
          { s with esk := { s.esk with out := kmod s.esk.out q.packet.tag move } } else s
      s.enqueue r q.own { q.packet with vc := 5 }

/-- TIME_ROOT. -/
def Block.timeRoot (s : Block) : Nat := s.fld ESK_FABRIC 30 16
/-- Is a root in force? -/
def Block.rootValid (s : Block) : Bool := s.bit ESK_FABRIC 31
/-- Is this module the root? -/
def Block.isRoot (s : Block) : Bool := s.rootValid && s.nodeValid && (s.timeRoot == s.node)

/-- SYNC after the node ID or the root has changed: 2 at the root, else free-running until an offset is measured. -/
def Block.resync (s : Block) : Block :=
  if s.isRoot then s.wf ESK_TIME 7 0 2 else if s.fld ESK_TIME 1 0 = 2 then s.wf ESK_TIME 7 0 0 else s

/-- The port on which TIME_SYNC runs: ORD_PORT of the root's entry, while it is RUNNING. -/
def Block.syncPort (s : Block) : Option Nat :=
  if s.rootValid && s.nodeValid && !s.isRoot then s.fixedPort s.timeRoot else none

/-- The offset of an exchange (R368). -/
def syncOffset (t1 t2 t3 t4 asym : Int) : Int := ((t2 - t1) - (t4 - t3)) / 2 - asym

/-- TIME_SYNC_TICK: the first offset steps a timebase that is behind; later only the rate changes, by an open amount
within 1 %. -/
def effTimeSyncTick (t1 t2 t3 t4 : Int) (hops : Nat) (s : Block) : Block :=
  if s.isRoot then s.wf ESK_TIME 7 0 2 else
  match s.syncPort with
  | none => s.wf ESK_TIME 1 0 0
  | some p =>
    let off := syncOffset t1 t2 t3 t4 (signExt 16 (s.fld (ESK_TS_ASYM p) 15 0))
    let first := decide (s.fld ESK_TIME 1 0 ≠ 1)
    let s := s.wr ESK_TIME (w32 (1 + hops % 64 * 4 + (off % 2 ^ 24).toNat * 256))
    if first then (if 0 < off then s.bumpPair CLK_TB_LO off.toNat else s)
    else
      let r := s.choose 20000001
      r.2.wf CLK_TB_ADJ 24 0 (((r.1 : Int) - 10000000) % 2 ^ 25).toNat

/-! ### Fabric messages (R358, R359, R363, R365, R367, R370) -/

/-- Fabric messages come from the PF, the sideband and FM_NODE. -/
def Block.fabric (s : Block) (ch : Chan) (h : Answer) : Answer :=
  if chFn ch = 0 ∨ chFn ch = 64 then h else s.no (DENIED 0xE6)

def badFabric : Nat := REFUSED 0xEA
def fabricBusy : Nat := BUSY 0xE9

/-- ESK_PORT of one operation. -/
def portMessage (start : Bool) (ch : Chan) (s : Block) : Block :=
  s.messageWhen ch 0x0804 (fun ws => (mreg ws 2).bit 0 == start) fun s ws => s.fabric ch <|
    let p := (mreg ws 1).toNat
    if 15 < p then s.no badFabric
    else if start then
      let r := s.startPort p
      r.2.no r.1
    else (s.stopPort p).yes

/-- ESK_PORT with start. -/
def effEskPortStart (ch : Chan) (s : Block) : Block := portMessage true ch s
/-- ESK_PORT with stop. -/
def effEskPortStop (ch : Chan) (s : Block) : Block := portMessage false ch s

/-- Is a partition joined to a domain? -/
def Block.joined (s : Block) (p : Nat) : Bool := s.bit (ESK_DOMAIN p) 16

/-- ESK_NODE_SET. -/
def effEskNodeSet (ch : Chan) (s : Block) : Block :=
  s.message ch 0x0801 fun s ws => s.fabric ch <|
    if 32767 < (mreg ws 1).toNat then s.no badFabric
    else if (List.range 32).any s.joined then s.no fabricBusy
    else (((s.wf ESK_NODE 14 0 (mreg ws 1).toNat).wb ESK_NODE 15 true).resync).yes

/-- May an entry stand in the routing table: does it name no port above 15? -/
def routeOk (w : Word) : Bool := w.fld 31 24 == 0

/-- Entries written from a node up, and the nodes that this makes unreachable reported. -/
def Block.writeRoutes (s : Block) (first : Nat) (l : List Word) : Block :=
  let es := l.zipIdx
  let s := s.each es fun s e => { s with esk := { s.esk with routes := tset 0 s.esk.routes (first + e.2) e.1 } }
  (s.each es fun s e => s.checkNodes [first + e.2] (if e.1.bit 4 then 1 else 0)).pumpAll

/-- ESK_ROUTE_SET. -/
def effEskRouteSet (ch : Chan) (s : Block) : Block :=
  s.message ch 0x0802 fun s ws => s.fabric ch <|
    let first := (mreg ws 1).toNat
    let n := (mreg ws 2).toNat
    let host := (mreg ws 6).bit 0
    if 32768 < first + n then s.no badFabric
    else match (if host then s.hostReadStatus 0 (mpair ws 4) (4 * n) else none) with
      | some st => s.no st
      | none =>
        let l := if host then bytesWords n (s.hostRead (mpair ws 4) (4 * n)) else List.replicate n (mreg ws 3)
        if l.all routeOk then (s.writeRoutes first l).yes else s.no badFabric

/-- ESK_ROUTE_GET. -/
def effEskRouteGet (ch : Chan) (s : Block) : Block :=
  s.message ch 0x0803 fun s ws => s.fabric ch <|
    if 32767 < (mreg ws 1).toNat then s.no badFabric else s.yes [s.route (mreg ws 1).toNat]

/-- ESK_DOMAIN_SET of one operation. -/
def domainMessage (join : Bool) (ch : Chan) (s : Block) : Block :=
  s.messageWhen ch 0x0805 (fun ws => (mreg ws 2).bit 16 == join) fun s ws => s.fabric ch <|
    let p := (mreg ws 1).toNat
    let d := (mreg ws 2).fld 15 0
    if 31 < p ∨ (s.part p).isNone then s.no (REFUSED 0xD0)
    else if !join then (s.wf (ESK_DOMAIN p) 16 0 0).yes
    else if s.joined p ∧ s.fld (ESK_DOMAIN p) 15 0 ≠ d then s.no fabricBusy
    else if (s.domainPart d).any fun q => q != p then s.no fabricBusy
    else (s.wf (ESK_DOMAIN p) 16 0 (d + 65536)).yes

/-- ESK_DOMAIN_SET with JOIN. -/
def effEskDomainJoin (ch : Chan) (s : Block) : Block := domainMessage true ch s
/-- ESK_DOMAIN_SET without JOIN. -/
def effEskDomainLeave (ch : Chan) (s : Block) : Block := domainMessage false ch s

/-- The tags of the partitions other than `p`. -/
def Block.otherTags (s : Block) (p : Nat) : Nat :=
  (((List.range 32).filter (· != p)).map fun q => s.fld (ESK_ALLOT q) 16 0).sum

/-- ESK_ALLOT. -/
def effEskAllot (ch : Chan) (s : Block) : Block :=
  s.message ch 0x0806 fun s ws => s.fabric ch <|
    let p := (mreg ws 1).toNat
    let n := (mreg ws 2).toNat
    if 31 < p ∨ (s.part p).isNone then s.no (REFUSED 0xD0)
    else if 65536 < s.otherTags p + n ∨ n < s.reservedCredits p then s.no (REFUSED 0xE7)
    else (s.wf (ESK_ALLOT p) 16 0 n).yes

/-- Does an object name a module group? -/
def Block.groupNamed (s : Block) (g : Nat) : Bool :=
  s.objs.any fun e => e.2.live.any fun o => dHas o.2.desc 5 && ((mreg o.2.desc 12).fld 15 0 == g)

/-- 16-bit numbers of registers or memory, low half first. -/
def halves (l : List Word) : List Nat := l.flatMap fun w => [w.fld 15 0, w.fld 31 16]

/-- The node IDs of ESK_GROUP_SET, or why they cannot be read. -/
def Block.groupNodes (s : Block) (ws : List Word) (n : Nat) : Except Nat (List Nat) :=
  if n ≤ 20 then .ok ((halves ((ws.drop 6 ++ List.replicate 10 0).take 10)).take n)
  else match s.hostReadStatus 0 (mpair ws 4) (2 * n) with
    | some st => .error st
    | none => .ok ((halves (bytesWords (ceilDiv n 2) (s.hostRead (mpair ws 4) (2 * n)))).take n)

/-- List entries of the groups other than `g`. -/
def Block.groupEntries (s : Block) (g : Nat) : Nat :=
  ((s.esk.groups.filter fun e => e.1 != g).map fun e => e.2.nodes.length).sum

/-- ESK_GROUP_SET. -/
def effEskGroupSet (ch : Chan) (s : Block) : Block :=
  s.message ch 0x0807 fun s ws => s.fabric ch <|
    let g := (mreg ws 1).toNat
    let n := (mreg ws 3).toNat
    if g = 0 ∨ 255 < g ∨ n = 0 ∨ 32768 < n then s.no badFabric
    else if 131072 < s.groupEntries g + n then s.no (NO_SPACE 0xEB)
    else match s.groupNodes ws n with
      | .error st => s.no st
      | .ok l =>
        if !(l.all fun x => decide (x < 32768)) || !decide l.Nodup then s.no badFabric
        else if s.groupNamed g then s.no fabricBusy
        else
          let x : EskGroup := { domain := (mreg ws 2).fld 15 0, nodes := l }
          ({ s with esk := { s.esk with groups := kput s.esk.groups g x } }).yes

/-- The slot of the hidden object of a far grant: the first of its partition that no grant uses. -/
def Block.grantSlot (s : Block) (p : Nat) : Nat :=
  33554432 + (((List.range (s.esk.grants.length + 1)).find? fun i =>
    !(s.esk.grants.any fun g => g.part == p && g.slot == 33554432 + i)).getD 0)

/-- A grant given back: its frames are free. -/
def Block.dropGrant (s : Block) (g : FarGrant) : Block :=
  ({ s with esk := { s.esk with grants := s.esk.grants.filter (· != g) } }).destroy g.part g.slot

/-- A grant made in a partition. -/
def Block.makeGrant (s : Block) (node d p mib : Nat) : Answer :=
  match s.part p with
  | none => s.no (REFUSED 0xE0)
  | some q =>
    let slot := s.grantSlot p
    match s.makeHidden p q slot 0 (ceilDiv mib 2) with
    | none => s.no (NO_SPACE 0xEC)
    | some s =>
      let g : FarGrant := { node := node, domain := d, part := p, slot := slot }
      ({ s with esk := { s.esk with grants := s.esk.grants ++ [g] } }).yes

/-- ESK_FAR_GRANT. Whether an earlier grant holds a page is the requester's affair and open here. -/
def effEskFarGrant (ch : Chan) (s : Block) : Block :=
  s.message ch 0x0808 fun s ws => s.fabric ch <|
    let node := (mreg ws 1).toNat
    let d := (mreg ws 2).fld 15 0
    let mib := (mreg ws 3).toNat
    if 32767 < node then s.no badFabric
    else match s.domainPart d with
      | none => s.no (REFUSED 0xE0)
      | some p =>
        match s.esk.grants.find? fun g => g.node == node && g.domain == d with
        | none => if mib = 0 then s.yes else s.makeGrant node d p mib
        | some g =>
          let (holds, s) := s.choose 2
          if holds = 1 then s.no fabricBusy
          else if mib = 0 then (s.dropGrant g).yes
          else
            let a := (s.dropGrant g).makeGrant node d p mib
            if a.status = OK then a else s.no a.status

/-- ESK_FABRIC_SET. -/
def effEskFabricSet (ch : Chan) (s : Block) : Block :=
  s.message ch 0x0809 fun s ws => s.fabric ch <|
    let r1 := mreg ws 1
    let r2 := mreg ws 2
    let s := s.wr ESK_FABRIC (w32 (r1.fld 15 0 + r2.fld 15 0 * 65536))
    let s := s.wf ESK_ACK 15 0 (mreg ws 3).toNat
    s.resync.yes

/-! ### Meanings -/

/-- The meaning of PORT_STOPPING_DONE. -/
def execPortStoppingDone (p : Nat) : State → Host.Outcome State Fault Refusal := onBlk (effPortStoppingDone p)
/-- The meaning of ESK_PORT_START. -/
def execEskPortStart (ch : Chan) : State → Host.Outcome State Fault Refusal := onBlk (effEskPortStart ch)
/-- The meaning of ESK_PORT_STOP. -/
def execEskPortStop (ch : Chan) : State → Host.Outcome State Fault Refusal := onBlk (effEskPortStop ch)
/-- The meaning of PORT_TRAINING_DONE. -/
def execPortTrainingDone (p : Nat) (t : Training) : State → Host.Outcome State Fault Refusal := onBlk (effPortTrainingDone p t)
/-- The meaning of RETRAIN_TIMER. -/
def execRetrainTimer (p : Nat) : State → Host.Outcome State Fault Refusal := onBlk (effRetrainTimer p)
/-- The meaning of LOSS_OF_SIGNAL. -/
def execLossOfSignal (p : Nat) : State → Host.Outcome State Fault Refusal := onBlk (effLossOfSignal p)
/-- The meaning of KEEPALIVE_TIMEOUT. -/
def execKeepaliveTimeout (p : Nat) : State → Host.Outcome State Fault Refusal := onBlk (effKeepaliveTimeout p)
/-- The meaning of FLIT_RECEIVE. -/
def execFlitReceive (p : Nat) (fl : Flit) : State → Host.Outcome State Fault Refusal := onBlk (effFlitReceive p fl)
/-- The meaning of LANE_LOCK_LOSS. -/
def execLaneLockLoss (p : Nat) (lane : Nat) : State → Host.Outcome State Fault Refusal := onBlk (effLaneLockLoss p lane)
/-- The meaning of LANE_ERROR_WINDOW. -/
def execLaneErrorWindow (p : Nat) (errs : List Nat) : State → Host.Outcome State Fault Refusal := onBlk (effLaneErrorWindow p errs)
/-- The meaning of ESK_WRITE_PACKET. -/
def execEskWritePacket (p : Nat) (k : Packet) : State → Host.Outcome State Fault Refusal := onBlk (effEskWritePacket p k)
/-- The meaning of ESK_RED_PACKET. -/
def execEskRedPacket (p : Nat) (k : Packet) : State → Host.Outcome State Fault Refusal := onBlk (effEskRedPacket p k)
/-- The meaning of ESK_READ_PACKET. -/
def execEskReadPacket (p : Nat) (k : Packet) : State → Host.Outcome State Fault Refusal := onBlk (effEskReadPacket p k)
/-- The meaning of ESK_ATOMIC_PACKET. -/
def execEskAtomicPacket (p : Nat) (k : Packet) : State → Host.Outcome State Fault Refusal := onBlk (effEskAtomicPacket p k)
/-- The meaning of ESK_ACK_PACKET. -/
def execEskAckPacket (p : Nat) (k : Packet) : State → Host.Outcome State Fault Refusal := onBlk (effEskAckPacket p k)
/-- The meaning of ESK_DATA_PACKET. -/
def execEskDataPacket (p : Nat) (k : Packet) : State → Host.Outcome State Fault Refusal := onBlk (effEskDataPacket p k)
/-- The meaning of ESK_MGMT_PACKET. -/
def execEskMgmtPacket (p : Nat) (k : Packet) (msg : List Word) : State → Host.Outcome State Fault Refusal := onBlk (effEskMgmtPacket p k msg)
/-- The meaning of ACK_TIMEOUT_EXPIRY. -/
def execAckTimeoutExpiry (tag : Nat) : State → Host.Outcome State Fault Refusal := onBlk (effAckTimeoutExpiry tag)
/-- The meaning of VC1_ESCAPE_TIMEOUT. -/
def execVc1EscapeTimeout (p : Nat) : State → Host.Outcome State Fault Refusal := onBlk (effVc1EscapeTimeout p)
/-- The meaning of TIME_SYNC_TICK. -/
def execTimeSyncTick (t1 : Int) (t2 : Int) (t3 : Int) (t4 : Int) (hops : Nat) : State → Host.Outcome State Fault Refusal := onBlk (effTimeSyncTick t1 t2 t3 t4 hops)
/-- The meaning of ESK_NODE_SET. -/
def execEskNodeSet (ch : Chan) : State → Host.Outcome State Fault Refusal := onBlk (effEskNodeSet ch)
/-- The meaning of ESK_ROUTE_SET. -/
def execEskRouteSet (ch : Chan) : State → Host.Outcome State Fault Refusal := onBlk (effEskRouteSet ch)
/-- The meaning of ESK_ROUTE_GET. -/
def execEskRouteGet (ch : Chan) : State → Host.Outcome State Fault Refusal := onBlk (effEskRouteGet ch)
/-- The meaning of ESK_DOMAIN_JOIN. -/
def execEskDomainJoin (ch : Chan) : State → Host.Outcome State Fault Refusal := onBlk (effEskDomainJoin ch)
/-- The meaning of ESK_DOMAIN_LEAVE. -/
def execEskDomainLeave (ch : Chan) : State → Host.Outcome State Fault Refusal := onBlk (effEskDomainLeave ch)
/-- The meaning of ESK_ALLOT. -/
def execEskAllot (ch : Chan) : State → Host.Outcome State Fault Refusal := onBlk (effEskAllot ch)
/-- The meaning of ESK_GROUP_SET. -/
def execEskGroupSet (ch : Chan) : State → Host.Outcome State Fault Refusal := onBlk (effEskGroupSet ch)
/-- The meaning of ESK_FAR_GRANT. -/
def execEskFarGrant (ch : Chan) : State → Host.Outcome State Fault Refusal := onBlk (effEskFarGrant ch)
/-- The meaning of ESK_FABRIC_SET. -/
def execEskFabricSet (ch : Chan) : State → Host.Outcome State Fault Refusal := onBlk (effEskFabricSet ch)

end Sys2Proof.Machine
end

