-- ==== Sys2Proof/Machine/Start.lean ====
section
/-! DEFINITION. Power, start and functions: the power-up and its loss, the board records, the cold and the warm
start, what a warm start keeps, sensors and trips, FN_CTRL and the states of channel groups (R108, R109, R113, R415
to R433, R449, R450, R456 to R460, R522 to R528). -/

namespace Sys2Proof.Machine

/-! ### Fuses (R482, R484, R490, R499) -/

/-- A state bit reads as blown when two of its fuses are. -/
def LcBit.blown (b : LcBit) : Bool := (b.a && b.b) || (b.a && b.c) || (b.b && b.c)
/-- A bit with all fuses blown. -/
def LcBit.set : LcBit := { a := true, b := true, c := true }

/-- The state that the fuses hold: 0 MAKER, 1 DEVELOP, 2 FIELD, 3 RETURN, 4 SCRAP. -/
def Fuses.state (f : Fuses) : Nat :=
  if f.scrap.blown then 4 else if f.ret.blown then 3 else if f.field.blown then 2 else if f.develop.blown then 1 else 0

/-- The life-cycle state in force. -/
def Block.lcState (s : Block) : Nat := s.fld MOR_LC 2 0

/-- Every byte of a fuse field blown. -/
def allBlown (n : Nat) : List Byte := List.replicate n 0xFF

/-- Can OWNER_DIGEST match a key? -/
def Fuses.ownerOk (f : Fuses) : Bool := f.ownerValid && f.ownerDigest != allBlown 48

/-- DEVICE_ID: the first 32 bytes of the digest of the identity public key, which the start derived. None is derived in
SCRAP. -/
def Block.deviceId (s : Block) : List Byte := (Config.shake256 (Config.mldsaPublic s.trust.seed)).take 32

/-- MOR_LC from the fuses, with a state in force: MAKER and RETURN hold debug open, DEVELOP from its unlock on (R487). -/
def Block.setLc (s : Block) (inForce : Nat) : Block :=
  let f := s.trust.fuses
  let pend := f.state != inForce
  s.wf MOR_LC 8 0 (inForce + (if pend then f.state * 8 + 64 else 0) + b2n (s.bit MOR_LC 7 || inForce == 0 || inForce == 3) * 128 + b2n f.ownerOk * 256)

/-- The fuse registers read at step 1 of a start; `inForce` is the life-cycle state that the start takes. -/
def Block.readFuses (s : Block) (inForce : Nat) : Block :=
  let f := s.trust.fuses
  let s := { (s.wb MOR_LC 7 false).setLc inForce with trust := { s.trust with seed := if inForce = 4 then [] else f.idSeed } }
  let s := loop 8 (fun i s => s.wf (MOR_LC_FLOOR i) 6 0 (f.floors.getD i 0)) s
  let id := if inForce = 4 then [] else s.deviceId
  let s := loop 8 (fun k s => s.wr (MOR_DEVICE_ID k) (w32 (leNat ((id.drop (4 * k)).take 4)))) s
  s.wf MOR_ROM_VERSION 15 0 f.romVersion

/-! ### Board records (R415 to R417) -/

/-- One bit of CRC-32 with the IEEE 802.3 polynomial. -/
def crc32Bit (c : Nat) : Nat := if c % 2 = 1 then (c / 2) ^^^ 0xEDB88320 else c / 2
/-- One byte of CRC-32. -/
def crc32Byte (c : Nat) (b : Byte) : Nat := loop 8 (fun _ x => crc32Bit x) (c ^^^ b.toNat)
/-- CRC-32 with the IEEE 802.3 polynomial. -/
def crc32 (l : List Byte) : Nat := (l.foldl crc32Byte 0xFFFFFFFF) ^^^ 0xFFFFFFFF

/-- Word `i` of bytes. -/
def wordAt (l : List Byte) (i : Nat) : Word := w32 (leNat ((l.drop (4 * i)).take 4))

/-- What a reading of the records gives: accepted (type and body), bad (type, offset, cause), unknown. -/
structure Records where
  good : List (Nat × List Byte)
  bad : List (Nat × Nat × Nat)
  unknown : Nat
  deriving DecidableEq, Repr

/-- The records from an offset: `n` left to read, `l` the bytes from there to LENGTH. After a bad length nothing more
can be located. -/
def readRecords : Nat → Nat → List Byte → Records → Records
  | 0, _, _, r => r
  | n + 1, off, l, r =>
    let w := wordAt l 0
    let ty := w.fld 15 0
    let len := w.fld 27 16
    if len % 4 ≠ 0 ∨ l.length < len + 8 then { r with bad := r.bad ++ [(ty, off, 1)] }
    else
      let body := (l.drop 4).take len
      let ok := decide (crc32 (l.take (4 + len)) = leNat ((l.drop (4 + len)).take 4))
      let r := if !ok then { r with bad := r.bad ++ [(ty, off, 0)] }
        else if ty = 0 ∨ 6 < ty then { r with unknown := r.unknown + 1 }
        else if r.good.any fun g => g.1 == ty then { r with bad := r.bad ++ [(ty, off, 2)] }
        else { r with good := r.good ++ [(ty, body)] }
      readRecords n (off + 8 + len) (l.drop (8 + len)) r

/-- Can SFDP be read, and is the directory valid? -/
def Block.directoryOk (s : Block) : Bool :=
  let l := s.env.flash
  s.env.sfdpOk && wordAt l 0 == 0x424F4152 && (wordAt l 1).fld 7 0 == 2 && decide ((wordAt l 2).toNat ≤ 65536)

/-- The bytes in use of the region. -/
def Block.recordRegion (s : Block) : List Byte := if s.directoryOk then s.env.flash.take (wordAt s.env.flash 2).toNat else []

/-- The records of a region's bytes in use, none where it has no bytes. -/
def recordsIn (l : List Byte) : Records := readRecords ((wordAt l 1).fld 31 16) 16 (l.drop 16) ⟨[], [], 0⟩

/-- The records of the region. -/
def Block.records (s : Block) : Records := recordsIn s.recordRegion

/-- The first words of a record's body, if it was accepted. -/
def Records.body (r : Records) (ty : Nat) : Option (List Byte) := (r.good.find? fun g => g.1 == ty).map (·.2)
/-- Word 0 of a record's body. -/
def Records.word (r : Records) (ty : Nat) : Option Word := (r.body ty).map fun b => wordAt b 0

/-- SETTLE, 0 when the record is missing or out of range. -/
def Records.settle (r : Records) : Nat :=
  match r.word 2 with
  | some w => if 1 ≤ w.fld 13 0 ∧ w.fld 13 0 ≤ 10000 then w.fld 13 0 else 0
  | none => 0

/-- A depth field of SPREAD, and a rate field as CLK_SPREAD stores it. -/
def spreadDepth (x : Nat) : Nat := if x ≤ 10 then x else 0
def spreadRate (x : Nat) : Nat := if 20 ≤ x then x else 20

/-- CLK_SPREAD from the record. -/
def Records.spread (r : Records) : Nat :=
  match r.word 4 with
  | some w => spreadDepth (w.fld 3 0) + spreadRate (w.fld 9 4) * 16 + spreadDepth (w.fld 13 10) * 1024 +
      spreadRate (w.fld 19 14) * 16384 + w.fld 20 20 * 2 ^ 20
  | none => 0x50140

/-- The power limit from the record. -/
def Records.limit (r : Records) : Nat :=
  match r.word 5 with
  | some w => if 1000 ≤ w.fld 11 0 ∧ w.fld 11 0 ≤ 3600 then w.fld 11 0 else 3600
  | none => 3600

/-- CLK_SPREAD at a start: the record's (R6), but a value that software has written since it was loaded takes effect at
the start instead (R438). -/
def Block.spreadAtStart (s : Block) (cold : Bool) (r : Records) : Nat :=
  if !cold && s.fld CLK_SPREAD 20 0 != (recordsIn s.start.recordBytes).spread then s.fld CLK_SPREAD 20 0 else r.spread

/-- Registers loaded from the records. The node ID is loaded by a cold start alone (R372). -/
def Block.loadRecords (s : Block) (cold : Bool) (oldLimit : Nat) : Block :=
  let r := s.records
  let spread := s.spreadAtStart cold r
  let s := { s with start := { s.start with settle := r.settle, recordBytes := s.recordRegion } }
  let s := s.wr MOR_FLASH (w32 (min 255 r.good.length + min 255 r.bad.length * 256 + min 255 r.unknown * 65536 +
    b2n s.directoryOk * 2 ^ 24))
  let s := s.each r.bad fun s b => s.event srcMoraine 0x0103 [w32 b.1, w32 b.2.1, w32 b.2.2]
  let s := (s.wf CLK_SPREAD 20 0 spread).wf PWR_LIMIT 11 0 r.limit
  let s := if r.limit = oldLimit then s else s.event srcMoraine 0x0305 [w32 oldLimit, w32 r.limit, 0]
  let s := match r.body 6 with
    | some b => loop 16 (fun p s => s.wf (ESK_TS_ASYM p) 15 0 ((wordAt b p).fld 31 16)) s
    | none => s
  match r.word 3 with
  | some w => if cold then s.wf ESK_NODE 15 0 (w.fld 14 0 + 32768) else s
  | none => s

/-! ### Steps of a start (R421 to R423) -/

/-- PHASE set. -/
def Block.setPhase (s : Block) (v : Nat) : Block := s.wf MOR_START 3 0 v
/-- Is a trip or a rail fault latched (R419, R450)? -/
def Block.latched (s : Block) : Bool := s.bit THM_STATE 16 || s.bit PWR_STATUS 1
/-- Is the cause of the last start internal? -/
def Block.internal (s : Block) : Bool := decide (5 ≤ s.fld MOR_RESET_CAUSE 3 0)

/-- A tile that fails the SRAM test is retired to a spare, or its cluster leaves service (R167, R169, R475). -/
def Block.retireTested (s : Block) (cold : Bool) (t : Nat) : Block :=
  let s := { s with err := { s.err with tileCause := kput s.err.tileCause t 0 } }
  let s := tileRemapEffect t s
  let s := if s.tileState t = 2 then s.wf (FLOE_STATE t) 2 0 1 else s
  if cold then s.wf (FLOE_EPOCH t) 15 0 1 else s

/-- Does a physical tile fail the test? -/
def Block.badPhys (s : Block) (d phys : Nat) : Bool := s.env.badTiles.contains (d * 68 + phys)

/-- Step 4: failing spares out of use, then the tiles that failing physical tiles serve. -/
def Block.testTiles (s : Block) (cold : Bool) : Block :=
  loop 4 (fun d s =>
    let s := loop 4 (fun k s =>
      if s.badPhys d (64 + k) && !s.bit (SRC_SPARE d k) 8 then s.wb (SRC_SPARE d k) 9 true else s) s
    loop 64 (fun i s =>
      let t := d * 64 + i
      if s.tileState t ≠ 0 ∧ s.badPhys d (s.fld (FLOE_ID t) 14 8) then s.retireTested cold t else s) s) s

/-- The start proceeds to AWAIT_FW when stacks and link are trained; an internal start does not wait for the link. -/
def Block.goAwait (s : Block) : Block :=
  if s.phase = 6 ∧ s.start.stacksDone ∧ (s.start.linkUp ∨ s.internal) then s.setPhase 7 else s

/-- Steps 6 to 9: the PLLs run, and link, stacks and ports train. -/
def Block.startPlls (s : Block) : Block :=
  let s := { s with start := { s.start with pllOn := true } }
  let s := s.wr CLK_SPREAD_ACT (s.rg CLK_SPREAD)
  let s := (s.wb CLK_STATUS 6 (s.bit CLK_SPREAD 20)).setPhase 6
  let s := loop 16 (fun p s => s.trainPort p) s
  s.goAwait

/-- The start stops at step 5 (R422). -/
def Block.stopStart (s : Block) : Block :=
  let st := if s.directoryOk then NOT_READY 0xF0 else NOT_READY 0xF1
  ((s.setPhase 10).wf MOR_START 31 16 st).event srcMoraine 0x0102 [10, w32 st]

/-- Steps 2 to 5, once the flash can be read. -/
def Block.bootRecords (s : Block) (cold : Bool) (oldLimit : Nat) : Block :=
  let s := (s.loadRecords cold oldLimit).testTiles cold
  if s.internal && s.start.pllOn then
    (s.startPlls).msix 0 0
  else if s.start.settle = 0 then s.stopStart
  else s.setPhase 4

/-- The first steps of a start. It waits in RECORDS while FLASH_HOLD_N is asserted (R527). -/
def Block.boot (s : Block) (cold : Bool) (cause inForce oldLimit : Nat) : Block :=
  let s := (s.wr MOR_START (w32 (1 + b2n (!cold) * 16))).wf MOR_RESET_CAUSE 3 0 cause
  let s := (s.wb PWR_STATUS 0 true).readFuses inForce
  let s := { s with ice := { s.ice with scanned := false, last := 0, cleared := 0, clearing := none, latches := [] } }
  if s.ice.hold then s else s.bootRecords cold oldLimit

/-! ### Cold start (R418 to R421) -/

/-- The latches of the always-on rail: input faults, rail faults and trips. -/
def latchMask (a : Nat) : Nat :=
  if a = PWR_STATUS then 0x13E else if a = THM_STATE then 0x3FFF0000
  else if (List.range 24).any fun n => a == STK_TEMP n then 0x1000 else 0

/-- The bits of a register that a mask keeps; the others take their reset value. -/
def keepBits (a mask : Nat) (v : Word) : Word := (v &&& w32 mask) ||| (regReset a &&& ~~~(w32 mask))

/-- Registers after a start that keeps `mask a` of each. -/
def keepRegs (mask : Nat → Nat) (t : Tbl Word) : Tbl Word :=
  (t.map fun e => (e.1, keepBits e.1 (mask e.1) e.2)).filter fun e => e.2 != regReset e.1

/-- What no cold start keeps: all but the latches, the ice core, the fuses and the environment. -/
def Block.coldClear (s : Block) : Block :=
  let z := State.reset.blk
  { z with
    freeCtr := s.freeCtr, regs := keepRegs latchMask s.regs, env := s.env, ice := s.ice,
    trust := { z.trust with fuses := s.trust.fuses },
    start := { z.start with powered := s.start.powered, input := s.start.input, perst := s.start.perst },
    pwr := { z.pwr with pwrGood := s.pwr.pwrGood } }

/-- A cold start of a cause. INPUT_FAULT_SEEN takes its cold-start value (R6); RAIL_FAULT and the latched trip stay
until the input is removed (R419, R450). -/
def Block.coldStart (s : Block) (cause : Nat) : Block :=
  let s := s.coldClear.wb PWR_STATUS 8 false
  s.boot true cause s.trust.fuses.state 3600

/-- The always-on rail falls: its latches are cleared and queued records are lost (R524, R525). -/
def Block.vaonDown (s : Block) : Block :=
  { s with regs := keepRegs (fun a => if latchMask a = 0 then 0xFFFFFFFF else 0xFFFFFFFF - latchMask a) s.regs,
           start := { s.start with powered := false }, ice := { s.ice with queue := [], health := [], healthLost := 0, lost := 0 } }

/-- The rails other than VAON stop: PWR_GOOD falls and everything that they feed is lost. -/
def Block.railsStop (s : Block) : Block :=
  let s := s.coldClear
  let s := { s with pwr := { s.pwr with pwrGood := false } }
  if s.latched then s.setPhase 11 else s

/-- VIN_PRESENT: the rails come up and a cold start of cause 0 begins. Whether VAON fell in between is open after an
input fault. A shutdown that is still latched stays (R419). -/
def vinPresentEffect (s : Block) : Block :=
  let (fell, s) := s.choose 2
  let s := if s.start.powered && fell == 0 then s else s.vaonDown
  let s := { s with start := { s.start with input := true, powered := true },
                    ice := { s.ice with pcycles := s.ice.pcycles + 1, secNs := 0 } }
  if s.latched then s.setPhase 11 else ({ s with pwr := { s.pwr with pwrGood := true } }).coldStart 0

/-- VIN_PRESENT, with the input in range and absent before. -/
def effVinPresent (mv : Nat) (s : Block) : Block :=
  if !s.start.input && decide (36000 ≤ mv) && decide (mv ≤ 60000) then vinPresentEffect s else s

/-- The input leaves its range (R449): the rails stop, and a latched shutdown loses VAON with it. -/
def Block.inputFault (s : Block) (event : Nat) (data : List Word) : Block :=
  let s := { s with start := { s.start with input := false } }
  if s.latched then s.vaonDown
  else if s.pwr.pwrGood then ((s.wb PWR_STATUS 8 true).event srcVaon event data).railsStop
  else s

/-- VIN_LOW: below 35 V for 100 µs. -/
def effVinLow (mv : Nat) (s : Block) : Block :=
  if s.start.input && decide (mv < 35000) then
    s.inputFault 0x0301 [w32 (s.fld PWR_IN 15 0), w32 (s.fld PWR_IN 31 16)]
  else s

/-- VIN_HIGH: above 62 V for 10 µs. -/
def effVinHigh (mv : Nat) (s : Block) : Block :=
  if s.start.input && decide (62000 < mv) then s.inputFault 0x0302 [w32 mv] else s

/-- RAIL_OUT_OF_REGULATION: the fault is latched and the rails stop (R450). -/
def effRailOutOfRegulation (rail mv : Nat) (s : Block) : Block :=
  if s.pwr.pwrGood && decide (rail < 9) then
    (((s.wb PWR_STATUS 1 true).wf PWR_STATUS 5 2 rail).event srcVaon 0x0303 [w32 rail, w32 mv]).railsStop
  else s

/-! ### Warm start (R345, R420, R423, R424, R429) -/

/-- Registers of partitions and clients that a kept state needs again. -/
def savedReg (a : Nat) : Bool :=
  (List.range 32).any (fun p => a == SCH_P_CFG p || a == SNW p 0 || (List.range 4).any fun d => a == SRC_MSC_PCFG d p) ||
  (List.range 64).any (fun f => a == SCH_C_CFG f) ||
  (List.range 24).any fun n => a == STK_PART_CG n 0 || a == STK_PART_CG n 4

/-- The ledgers of a partition's Snowpack. -/
def snowLedgers (p : Nat) : List Nat := (List.range 4).map (pageLedger p) ++ [refLedger p]

/-- The place of a ledger's total among the saved registers. -/
def savedTotal (n : Nat) : Nat := LDG n + 12

/-- What a warm start sets aside until it knows whether the state is kept. -/
def Block.saveTables (s : Block) : Tbl Word :=
  (keys s.parts).foldl (fun t p => (snowLedgers p).foldl (fun t n => kput t (savedTotal n) (w32 (s.ledger n).total)) t)
    (kfilter s.regs fun a _ => savedReg a)

/-- Step 1: work ends without its entries; steps under way give back what they reserved; held items are discarded. -/
def Block.endAllWork (s : Block) : Block :=
  let s := ((s.killJobs (ABORTED 0xF4) true).killReqs)
  let s := s.each s.serve fun s e =>
    s.each (e.2.models.flatMap fun m => (m.2.step.map (·.rows)).getD []) fun s r => s.dropRow e.1 r
  s.each s.snow fun s e =>
    let p := e.1
    let s := s.dropRefs p ((e.2.pages.filter fun g => g.2.owner ≠ 0 && !g.2.zeroing).map (·.1))
    let s := s.each e.2.pages fun s g => s.cancelMove p g.1
    s.each (s.snowOf p).pages fun s g => if g.2.zeroing then pageZeroEffect p g.1 s else s

/-- Step 2: what bridges, stack controllers and write queues have accepted is performed; a write in an outbound port
is discarded. How far the ports had drained is open. -/
def Block.settleWrites (s : Block) : Block :=
  let s := s.each (keys s.clusters) fun s c => s.drainSome c
  let s := if s.start.keepReq then s.each (keys s.firn) fun s u =>
      s.firnDrain u ((s.fu u).writeQ.length + (s.fu u).ownQ.length) else s
  { s with clusters := kmap s.clusters fun _ k => { k with out := [] } }.forwardLag fun _ => true

/-- The lines that hold writes written back before a warm start that keeps the contents of DRAM (R99). -/
def Block.writeBackAll (s : Block) : Block := s.each (s.msc.flatMap (·.2)) fun s x => s.lineOut x

/-- The Snowpack of a kept partition: moves and withdrawals are abandoned, sequences leave their steps. -/
def Snow.afterStart (w : Snow) : Snow :=
  { w with seqs := kmap w.seqs fun _ q => { q with inStep := false, target := none, reply := none },
           arenas := kmap w.arenas fun _ a => { a with leaving := none } }

/-- The serving state of a kept partition. -/
def Serve.afterStart (v : Serve) : Serve :=
  { models := kmap v.models fun _ m => { m with step := none }, lastChange := 0, calm := 0 }

/-- Epochs raised by 1 (R429). -/
def Block.raiseEpochs (s : Block) : Block :=
  let up (s : Block) (a hi lo : Nat) : Block := s.wf a hi lo (nextEpoch (s.fld a hi lo))
  let s := loop 256 (fun t s => up s (FLOE_EPOCH t) 15 0) s
  let s := loop 4096 (fun u s => up s (FIRN_EPOCH u) 15 0) s
  let s := loop 24 (fun n s => loop 8 (fun g s => up s (STK_CG_EPOCH n g) (16 * (g % 2) + 15) (16 * (g % 2))) s) s
  loop 16 (fun p s => up s (ESK_EPOCH p) 15 0) s

/-- Is the physical tile that serves a tile ID retired (R167, R168)? -/
def Block.physRetired (s : Block) (t : Nat) : Bool :=
  let d := t / 64
  let phys := s.fld (FLOE_ID t) 14 8
  if phys < 64 then s.bit (SRC_TILE_RETIRED_LO d + 4 * (phys / 32)) (phys % 32) else s.bit (SRC_SPARE d (phys - 64)) 9

/-- What a start finds out of service (R169): the clusters, and the tiles that no spare serves. -/
def Block.keepOff (s : Block) : Block :=
  let s := loop 32 (fun c s => if s.clusterOos c then s.modCl c fun k => { k with state := .outOfService } else s) s
  loop 256 (fun t s =>
    if s.clusterOos (t / 8) && s.fld (FLOE_STATE t) 2 0 == 1 && s.physRetired t then s.wf (FLOE_STATE t) 2 0 0 else s) s

/-- Clusters out of service and disabled units keep their ledgers out of the pools. -/
def Block.freshLedgers (s : Block) : Block :=
  let s := loop 32 (fun c s => if s.clusterOos c then s.ledRenew (0x80 + c) 0 else s) s
  loop 16 (fun i s => s.ledRenew (0xA0 + i) (8 * s.fld (STK_ID (computeStack i)) 24 16)) s

/-- The registers that a start of the links keeps: those of the host link for an internal cause. -/
def warmMask (internal : Bool) (a : Nat) : Nat :=
  if internal && a == MOR_HOST_LINK then 0xFFFFFFFF else if a == CLK_SPREAD then 0x1FFFFF else ((regFind a).map (·.held)).getD 0

/-- A warm start's reset: registers, queues, firmware, keys, ports and volatile state; the tables of partitions
stay until R424 is decided. -/
def Block.warmClear (s : Block) (internal : Bool) : Block :=
  let z := State.reset.blk
  let keepFn (x : Fn) : Fn := { Fn.reset with busMaster := x.busMaster, ats := x.ats }
  let led : Tbl Ledger := if s.breach then s.led else []
  let s' := { s with
    regs := keepRegs (warmMask internal) s.regs, latches := z.latches, mbx := [],
    fns := if internal then (kmap s.fns fun _ x => keepFn x).filter fun e => e.2 != Fn.reset else [],
    led := led,
    fw := { z.fw with prior := if s.fw.loaded then (keys s.fw.cores).map fun n => (n, s.fld (RIME_SCHEMA n) 15 0) else s.fw.prior },
    trust := { z.trust with fuses := s.trust.fuses }, clk := z.clk,
    err := { s.err with refetches := [], tileCause := [] },
    jobs := [], vOwed := [], sems := [], clusters := [], tiles := [], msc := [], firn := [], reqs := [], esk := z.esk,
    snow := kmap s.snow fun _ w => w.afterStart, serve := kmap s.serve fun _ v => v.afterStart,
    start := { s.start with
      saved := if s.fw.loaded then s.saveTables else s.start.saved, pllOn := internal && s.start.pllOn,
      linkUp := internal && s.start.linkUp, refStopped := !s.fw.loaded && s.start.refStopped,
      mustDiscard := false, oldBreach := s.breach } }
  (if s.breach then s' else s'.freshLedgers).keepOff.raiseEpochs

/-- A warm start of a cause. One that comes before a set is loaded keeps nothing that the start before it did not. -/
def Block.warmStart (s : Block) (cause : Nat) : Block :=
  let inForce := s.lcState
  let limit := s.limitW
  let keep := s.bit MOR_WARM_CFG 0 && (s.fw.loaded || s.start.keepReq)
  let s := { s with start := { s.start with keepReq := keep } }
  let s := (s.settleWrites).endAllWork
  let s := if keep then s.writeBackAll else s
  let s := s.each s.esk.grants fun s g => s.dropGrant g
  (s.warmClear (decide (5 ≤ cause))).boot false cause inForce limit

/-- Can a start begin: are the rails up and nothing latched (R419)? -/
def startable (s : Block) : Bool := s.pwr.pwrGood && !s.latched

/-- A write of MOR_RESET that makes no start: discarded and counted (R418, R431). -/
def Block.badReset (s : Block) : Block := s.bump MOR_CNT_BADRESET

/-- Does a value carry the key of MOR_RESET? -/
def resetKey (v : Word) : Bool := v.fld 31 16 == 0x5AFE

/-- MOR_RESET with KIND = COLD, from the PF; a wrong key or another KIND is discarded and counted. -/
def effMorResetCold (i : Nat) (v : Word) (s : Block) : Block :=
  if i ≠ 0 ∨ !startable s then s
  else if resetKey v && v.fld 1 0 == 2 then s.coldStart 1
  else if resetKey v && v.fld 1 0 == 1 then s
  else s.badReset

/-- MOR_RESET with KIND = WARM, from the PF. -/
def effMorResetWarm (i : Nat) (v : Word) (s : Block) : Block :=
  if i ≠ 0 ∨ !startable s then s
  else if resetKey v && v.fld 1 0 == 1 then s.warmStart 5
  else if resetKey v && v.fld 1 0 == 2 then s
  else s.badReset

/-- A cold reset request on the sideband. -/
def effSidebandColdReset (s : Block) : Block := if startable s then s.coldStart 2 else s
/-- A warm reset request on the sideband. -/
def effSidebandWarmReset (s : Block) : Block := if startable s then s.warmStart 6 else s

/-- PERST_N asserted. -/
def effPerstAssert (s : Block) : Block :=
  if s.start.perst then s else
  let s := { s with start := { s.start with perst := true } }
  if startable s then s.warmStart 3 else s

/-- A PCIe hot reset received. -/
def effHotReset (s : Block) : Block := if startable s && !s.start.perst && s.start.linkUp then s.warmStart 4 else s

/-- PERST_N deasserted: the settle wait of a start may run. -/
def effPerstDeassert (s : Block) : Block := { s with start := { s.start with perst := false } }

/-- SETTLE_EXPIRY: the wait of step 5 has run, with PERST_N deasserted. -/
def effSettleExpiry (s : Block) : Block :=
  if startable s && (s.phase == 4) && !s.start.perst then s.startPlls else s

/-- A unit enabled or disabled by the repair analysis of its stack's training. -/
def Block.analyseUnit (s : Block) (ok : Bool) (u : Nat) : Block := if ok then s.wb (FIRN_ID u) 12 true else s.setFirnState u 0

/-- A stack's training: TRAINED, its units and the pool of its Firn queue entries. -/
def Block.stackTrains (s : Block) (failed : List Nat) (n : Nat) : Block :=
  let s := s.wb (STK_STATE n) 16 true
  let s := s.wf (ERR_STK_ROWS n) 31 16 32
  if isCapacity n then s else
  let i := stackIndex n
  let all := (List.range 256).map (256 * i + ·)
  let units := all.filter fun u => !failed.contains u
  let s := s.each all fun s u => s.analyseUnit (!failed.contains u) u
  (s.wf (STK_ID n) 24 16 units.length).ledRenew (0xA0 + i) (8 * units.length)

/-- STACK_TRAINING_DONE: step 8 of R421. -/
def stackTrainingEffect (untrained failed : List Nat) (s : Block) : Block :=
  let s := loop 24 (fun n s =>
    if untrained.contains n then s.event srcMoraine 0x0104 [w32 n] else s.stackTrains failed n) s
  ({ s with start := { s.start with stacksDone := true } }).goAwait

/-- STACK_TRAINING_DONE, while the stacks train. -/
def effStackTrainingDone (untrained failedUnits : List Nat) (s : Block) : Block :=
  if s.phase = 6 ∧ !s.start.stacksDone then stackTrainingEffect untrained failedUnits s else s

/-- HOST_LINK_TRAINED: step 7. -/
def effHostLinkTrained (rate width : Nat) (flit : Bool) (s : Block) : Block :=
  if s.start.pllOn && !s.start.linkUp && !s.start.perst then
    let s := s.wr MOR_HOST_LINK (w32 (rate % 8 + width % 32 * 8 + b2n flit * 256))
    let s := ({ s with start := { s.start with linkUp := true } }).goAwait
    s.each (keys s.fns) fun s f => s.flushHeld f
  else s

/-- FLASH_HOLD_RELEASE: the writer resumes, and a start that waits in RECORDS goes on (R527). -/
def effFlashHoldRelease (s : Block) : Block :=
  let waiting := s.ice.hold && s.pwr.pwrGood && s.phase == 1
  let s := { s with ice := { s.ice with hold := false } }
  if waiting then s.bootRecords (!s.bit MOR_START 4) (s.limitW) else s

/-! ### What a warm start keeps (R424) -/

/-- The condition of R424 that fails, if any: KEEP_DRAM, REFCLK, SCHEMA of SCHED, PLACE, SNOW and SERVE. -/
def Block.keepFails (s : Block) (schemas : List (Nat × Nat)) : Option Nat :=
  if !s.start.keepReq then some 0
  else if s.start.refStopped then some 1
  else if [1, 2, 3, 4].all fun n =>
      (kget s.fw.prior n).isSome && kget s.fw.prior n == (schemas.find? fun e => e.1 == n).map (·.2) then none
  else some 2

/-- Pages of a tier with a reference. -/
def Block.tierHeld (s : Block) (p t : Nat) : Nat :=
  ((s.snowOf p).pages.filter fun g => locTier g.2.loc == t && !g.2.zeroing).length

/-- The Snowpack ledgers of a kept partition created again (R345). -/
def Block.adoptLedgers (s : Block) (p : Nat) : Block :=
  let total (n : Nat) : Nat := (tget 0 s.start.saved (savedTotal n)).toNat
  let s' := s.each (List.range 4) fun x t => x.ledAdopt (pageLedger p t) (s.tierHeld p t) (total (pageLedger p t))
  let refs := ((s.snowOf p).pages.map fun g => g.2.refs).sum
  s'.ledAdopt (refLedger p) refs refs

/-- A Firn unit of a kept partition in service again; its epoch has risen with the start. -/
def Block.firnBack (s : Block) (u : Nat) : Block :=
  if s.unitOn u then (s.setFirnState u 2).wb (FIRN_STATE u) 3 true else s

/-- A kept partition is RUNNING again with its groups and Firn sets. -/
def Block.partBack (s : Block) (p : Nat) (q : Part) : Block :=
  let s := s.setPartState p 2
  let s := s.each q.stackList fun s n => s.each q.groupList fun s g =>
    s.wf (STK_STATE n) (2 * g + 1) (2 * g) (if s.groupDown n g then 0 else 2)
  let s := s.each q.setList fun s k => (s.each (setUnits k) fun s u => s.firnBack u).setSetState k 2
  if s.breach then s else s.adoptLedgers p

/-- The state is kept: the tables are back, driver loss stands and GRACE runs. -/
def Block.keepState (s : Block) : Block :=
  let s := s.each (kfilter s.start.saved fun a _ => savedReg a) fun s e => s.wr e.1 e.2
  let s := s.each s.parts fun s e => s.partBack e.1 e.2
  let s := (s.wb MOR_START 5 true).setDrv 2
  let s := s.wf SCH_DRV 15 4 (max 1 (s.fld SCH_HB_CFG 27 16))
  { s with start := { s.start with saved := [], mustDiscard := true }, lostAt := s.now }

/-- The state is discarded: partitions are destroyed as under R330. -/
def Block.dropState (s : Block) (cond : Nat) : Block :=
  let s := s.destroyAll
  ({ s with start := { s.start with saved := [] }, adapters := [], snow := [], serve := [] }).event srcMoraine 0x0105 [w32 cond]

/-- R424 decided once the set's components are known. -/
def Block.decideKeep (s : Block) (schemas : List (Nat × Nat)) : Block :=
  if !s.bit MOR_START 4 then s else
  match s.keepFails schemas with
  | none => s.keepState
  | some c => s.dropState c

/-! ### Sensors and trips (R108, R109, R456 to R460) -/

/-- A trip latches and the module shuts down (R460). -/
def Block.trip (s : Block) (src index : Nat) (temp : Int) : Block :=
  let s := ((s.wb THM_STATE 16 true).wf THM_STATE 19 17 src).wf THM_STATE 29 20 index
  let s := if src = 1 then s.wb (STK_TEMP index) 12 true else s
  (s.event srcVaon 0x0403 [w32 src, w32 index, wOfInt temp]).railsStop

/-- THERMAL_TRIP; a second trip changes nothing. -/
def effThermalTrip (src index : Nat) (temp : Int) (s : Block) : Block :=
  if s.pwr.pwrGood && !s.latched && decide (src < 2) then s.trip src index temp else s

/-- A level with hysteresis: entered at `hi`, left below `lo`. -/
def hyst (on : Bool) (x lo hi : Int) : Bool := decide (hi ≤ x) || (on && decide (lo ≤ x))

/-- The zone code of stacks in events. -/
def zoneStack : Nat := 5

/-- Warning and throttle entered: events 0x0401 and 0x0402, and the count of warnings. -/
def Block.levelEvents (s : Block) (zone index : Nat) (temp : Int) (warn thr : Bool) : Block :=
  let s := if warn then (s.bump THM_CNT_WARN).event srcHealth 0x0401 [w32 zone, w32 index, wOfInt temp] else s
  if thr then s.event srcHealth 0x0402 [w32 zone, w32 index, wOfInt temp] else s

/-- STACK_TEMP_POLL: a stack's report and its levels (R108). -/
def stackTempEffect (n temp : Nat) (s : Block) : Block :=
  let a := STK_TEMP n
  let warn := hyst (s.bit a 9) temp 82 85
  let thr := hyst (s.bit a 10) temp 92 95
  let newWarn := warn && !s.bit a 9
  let newThr := thr && !s.bit a 10
  let deep := hyst (s.bit a 11) temp 97 100
  let s := ((((s.wf a 7 0 (min 255 temp)).wb a 8 true).wb a 9 warn).wb a 10 thr).wb a 11 deep
  let s := s.levelEvents zoneStack n (4 * temp) newWarn newThr
  if 105 ≤ temp then s.trip 1 n (4 * temp) else s

/-- STACK_TEMP_POLL, of a powered stack. -/
def effStackTempPoll (n temp : Nat) (s : Block) : Block :=
  if n < 24 ∧ s.pwr.pwrGood ∧ s.start.stacksDone then stackTempEffect n temp s else s

/-- STACK_REPORT_TIMEOUT: reports lost (R109). -/
def effStackReportTimeout (n : Nat) (s : Block) : Block :=
  if n < 24 ∧ s.bit (STK_TEMP n) 8 then
    (s.wb (STK_TEMP n) 8 false).event srcHealth 0x0404 [w32 n, w32 (s.fld (STK_TEMP n) 7 0)]
  else s

/-- The zone of a sensor: 0 to 3 dies, 4 Moraine, 5 and up the compute stacks; its first sensor and their number. -/
def sensorZone (n : Nat) : Nat × Nat × Nat :=
  if n < 288 then (n / 72, n / 72 * 72, 72) else if n < 304 then (4, 288, 16)
  else (5 + (n - 304) / 16, 304 + (n - 304) / 16 * 16, 16)

/-- Valid sensors of a zone. -/
def Block.validSensors (s : Block) (lo n : Nat) : Nat :=
  ((List.range n).filter fun k => s.bit (THM_SENSOR (lo + k)) 11).length

/-- Is a zone left with fewer than three quarters of its sensors (R457)? -/
def Block.zoneBlind (s : Block) (lo n : Nat) : Bool := decide (4 * s.validSensors lo n < 3 * n)

/-- The shutdown threshold of a sensor. -/
def tripAt (n : Nat) : Int := if n < 304 then 480 else 420

/-- The level of a die or of Moraine after a conversion (R458). A zone held under R457 stays held. -/
def Block.zoneUpdate (s : Block) (z lo cnt n : Nat) : Block :=
  let old := s.zoneLevel z
  if s.zoneBlind lo cnt then
    (s.wf THM_STATE (2 * z + 1) (2 * z) 3).levelEvents z n (s.hottest lo cnt) false (decide (old < 2))
  else if old = 3 then s
  else
    let t := s.hottest lo cnt
    let thr := hyst (decide (old = 2)) t 400 420
    let warn := thr || hyst (decide (1 ≤ old)) t 360 380
    let s := s.wf THM_STATE (2 * z + 1) (2 * z) (if thr then 2 else if warn then 1 else 0)
    s.levelEvents z n t (warn && decide (old = 0)) (thr && decide (old < 2))

/-- The ratio check of a conversion (R457): the third failure in a row invalidates the sensor. -/
def Block.ratioCheck (s : Block) (n : Nat) (ok : Bool) : Block :=
  let k := if ok then 0 else tget 0 s.pwr.ratioFails n + 1
  let s := { s with pwr := { s.pwr with ratioFails := tset 0 s.pwr.ratioFails n (min 3 k) } }
  if k = 3 ∧ s.bit (THM_SENSOR n) 11 then (s.wb (THM_SENSOR n) 11 false).event srcHealth 0x0405 [w32 n] else s

/-- SENSOR_CONVERSION: the reading, its ratio check, its zone's level, and the comparator of its threshold. -/
def sensorEffect (n : Nat) (temp : Int) (ratioOk : Bool) (s : Block) : Block :=
  let s := (s.wf (THM_SENSOR n) 10 0 (temp % 2048).toNat).ratioCheck n ratioOk
  let (z, lo, cnt) := sensorZone n
  let s := if z < 5 then s.zoneUpdate z lo cnt n else s
  let live := s.bit (THM_SENSOR n) 11 && !(decide (5 ≤ z) && s.zoneBlind lo cnt)
  let k := if live && decide (tripAt n ≤ temp) then tget 0 s.pwr.atTrip n + 1 else 0
  let s := { s with pwr := { s.pwr with atTrip := tset 0 s.pwr.atTrip n (min 2 k) } }
  if 2 ≤ k then s.trip 0 n temp else s

/-- SENSOR_CONVERSION, while the rails are up. -/
def effSensorConversion (n : Nat) (temp : Int) (ratioOk : Bool) (s : Block) : Block :=
  if n < 560 ∧ s.pwr.pwrGood then sensorEffect n temp ratioOk s else s

/-! ### FN_CTRL and channel groups (R113, R145, R425 to R428) -/

def badFunction : Nat := REFUSED 0xF3
def noRoom : Nat := NO_SPACE 0xF5

/-- The field of a channel group's epoch. -/
def Block.groupEpoch (s : Block) (n g : Nat) : Nat := s.fld (STK_CG_EPOCH n g) (16 * (g % 2) + 15) (16 * (g % 2))

/-- The state and epoch of a function, when it exists. -/
def Block.fnState (s : Block) (kind i : Nat) : Option (Nat × Nat) :=
  if kind = 0 then (if i < 16 then some (s.portState i, s.fld (ESK_EPOCH i) 15 0) else none)
  else if kind = 1 then (if i < 32 then some (s.fld (SCH_P_STATE i) 1 0, 0) else none)
  else if kind = 2 then (if i < 128 then some (s.setState i, 0) else none)
  else if i < 192 then some (s.cgState (i / 8) (i % 8), s.groupEpoch (i / 8) (i % 8)) else none

/-- Striped frames of a partition in a stack: slot and frame. -/
def Block.stripedIn (s : Block) (p n : Nat) : List (Nat × Nat) :=
  (s.objects p).live.flatMap fun e =>
    if e.2.firn || e.2.desc.isEmpty then [] else
    (e.2.frames.zipIdx.filter fun f => f.1.stack == n).map fun f => (e.1, f.2)

/-- Does more lie in a stack than its groups in use hold? -/
def Block.overfull (s : Block) (p : Nat) (q : Part) (n : Nat) : Bool :=
  decide (s.stackPages q n < 32 * s.stackFrames p n + s.stackKv p n)

/-- Striped frames moved out of an overfull stack, one after another. -/
def Block.evict (s : Block) (p : Nat) (q : Part) (n : Nat) : Nat → Block
  | 0 => s
  | k + 1 =>
    if !s.overfull p q n then s else
    let spots := (s.stripedIn p n).flatMap fun x =>
      match s.obj p x.1 with
      | some o => match o.frames[x.2]? with
        | some _ => ((s.moveTargets p q o x.2).map fun m => (x.1, o.gen, x.2, m))
        | none => []
      | none => []
    match spots.head? with
    | none => s
    | some (slot, gen, fr, m) => (s.moveFrames p (mkHandle slot gen) fr m).evict p q n k

/-- Striped frames with a share in a channel group that stops, moved to frames over the other groups of the stack. -/
def Block.restripe (s : Block) (p n g : Nat) : Block :=
  s.each (s.stripedIn p n) fun s x =>
    match s.obj p x.1 with
    | some o =>
      match o.frames[x.2]? with
      | some f => if f.groups.testBit g && f.stack == n then s.moveFrame p (mkHandle x.1 o.gen) x.2 n else s
      | none => s
    | none => s

/-- Firn pieces of a partition in units that satisfy a test. -/
def Block.firnIn (s : Block) (p : Nat) (f : Nat → Bool) : List (Nat × Nat) :=
  (s.objects p).live.flatMap fun e => (e.2.pieces.filter fun y => f y.2.unit).map fun y => (e.1, y.1)

/-- Snowpack pages of a partition in units that satisfy a test. -/
def Block.kvIn (s : Block) (p : Nat) (f : Nat → Bool) : List Nat :=
  ((s.snowOf p).pages.filter fun e => match e.2.loc with | .compute u _ => f u | _ => false).map (·.1)

/-- A RUNNING or STARTING channel group left: STOPPING, with its frames and pages moved to other groups of its partition, or none
when they have no room (R113). -/
def Block.leaveGroup (s : Block) (n g : Nat) : Option Block :=
  let p := s.cgPart n g
  let s := s.wf (STK_STATE n) (2 * g + 1) (2 * g) 3
  match s.part p with
  | none => some s
  | some q =>
    let inG (u : Nat) : Bool := unitStack u == n && unitGroup u == g
    let s := s.each (s.firnIn p inG) fun s x => s.movePiece p x.1 x.2
    let s := s.each (s.kvIn p inG) fun s pid => s.moveKvPage p pid
    let s := (s.evict p q n (s.stackFrames p n)).restripe p n g
    let led := pageLedger p (stackTier n)
    if !(s.firnIn p inG).isEmpty || !(s.kvIn p inG).isEmpty || s.overfull p q n || decide ((s.ledger led).free < groupPages n)
    then none else some (s.ledShrink led (groupPages n))

/-- A channel group stopped, when its frames have room elsewhere. -/
def Block.stopGroup (s : Block) (n g : Nat) : Nat × Block :=
  if s.cgState n g = 1 ∨ s.cgState n g = 2 then
    match s.leaveGroup n g with
    | some s => (OK, s)
    | none => (noRoom, s)
  else (OK, s)

/-- A Firn set stopped, when its Firn frames have room in other sets of its stack. -/
def Block.stopSet (s : Block) (k : Nat) : Nat × Block :=
  let n := setStack k
  let g := k % 8
  let p := s.cgPart n g
  let inG (u : Nat) : Bool := unitStack u == n && unitGroup u == g
  match s.setState k with
  | 2 =>
    let st := s.cgState n g
    let s1 := s.wf (STK_STATE n) (2 * g + 1) (2 * g) 3
    let s1 := s1.each (s1.firnIn p inG) fun s x => s.movePiece p x.1 x.2
    if (s1.firnIn p inG).isEmpty then (OK, (s1.wf (STK_STATE n) (2 * g + 1) (2 * g) st).stopFirnSet k)
    else (noRoom, s)
  | 1 => (OK, s.stopFirnSet k)
  | _ => (OK, s)

/-- A channel group started: refused without a partition, BUSY while STOPPING. A group that cannot come up stays
STOPPED. -/
def Block.startGroup (s : Block) (n g : Nat) : Nat × Block :=
  if s.cgPart n g = 0x3F then (badFunction, s) else
  match s.cgState n g with
  | 0 =>
    if !s.stackTrained n || s.groupDown n g then (OK, s)
    else (OK, (s.wf (STK_STATE n) (2 * g + 1) (2 * g) 1).ledGrow (pageLedger (s.cgPart n g) (stackTier n)) (groupPages n))
  | 3 => (BUSY 0xF2, s.bump MOR_CNT_FN_BUSY)
  | _ => (OK, s)

/-- A Firn set started. -/
def Block.startSet (s : Block) (k : Nat) : Nat × Block :=
  match s.setState k with
  | 0 => (OK, if s.stackTrained (setStack k) then s.setSetState k 1 else s)
  | 3 => (BUSY 0x6D, s.bump MOR_CNT_FN_BUSY)
  | _ => (OK, s)

/-- FN_CTRL of some operations: the sender, the index, the epoch, then `act` on kind and index. -/
def fnCtrl (ops : List Nat) (act : Block → Nat → Nat → Nat × Block) (ch : Chan) (s : Block) : Block :=
  s.messageWhen ch 0x0101 (fun ws => ops.contains ((mreg ws 1).fld 17 16)) fun s ws =>
    let kind := (mreg ws 1).fld 1 0
    let i := (mreg ws 1).fld 15 8
    let ep := (mreg ws 2).fld 15 0
    if chFn ch ≠ 0 ∧ chFn ch ≠ 64 then s.no (DENIED 0xF7)
    else match s.fnState kind i with
      | none => s.no badFunction
      | some (_, e) =>
        if (kind = 0 ∨ kind = 3) ∧ ep ≠ 0 ∧ ep ≠ e then s.no STALE_EPOCH
        else
          let r := act s kind i
          let x := (r.2.fnState kind i).getD (0, 0)
          { status := r.1, regs := [w32 x.1, w32 x.2], blk := r.2 }

/-- FN_CTRL query; the operation that is not defined is refused. -/
def effFnCtrlQuery (ch : Chan) (s : Block) : Block :=
  s.messageWhen ch 0x0101 (fun ws => (mreg ws 1).fld 17 16 == 0 || (mreg ws 1).fld 17 16 == 3) fun s ws =>
    let kind := (mreg ws 1).fld 1 0
    let i := (mreg ws 1).fld 15 8
    let ep := (mreg ws 2).fld 15 0
    if chFn ch ≠ 0 ∧ chFn ch ≠ 64 then s.no (DENIED 0xF7)
    else if (mreg ws 1).fld 17 16 = 3 then s.no badFunction
    else match s.fnState kind i with
      | none => s.no badFunction
      | some (st, e) =>
        if (kind = 0 ∨ kind = 3) ∧ ep ≠ 0 ∧ ep ≠ e then s.no STALE_EPOCH else s.yes [w32 st, w32 e]

/-- FN_CTRL start. -/
def effFnCtrlStart (ch : Chan) (s : Block) : Block :=
  fnCtrl [1] (fun s kind i =>
    if kind = 0 then s.startPort i else if kind = 1 then (badFunction, s) else if kind = 2 then s.startSet i
    else s.startGroup (i / 8) (i % 8)) ch s

/-- FN_CTRL stop. -/
def effFnCtrlStop (ch : Chan) (s : Block) : Block :=
  fnCtrl [2] (fun s kind i =>
    if kind = 0 then (OK, s.stopPort i) else if kind = 1 then (badFunction, s) else if kind = 2 then s.stopSet i
    else s.stopGroup (i / 8) (i % 8)) ch s

/-- CHANNEL_GROUP_RUNNING: a STARTING group of a trained stack enters RUNNING and its epoch rises (R429). -/
def effChannelGroupRunning (k : Nat) (s : Block) : Block :=
  let n := k / 8
  let g := k % 8
  if k < 192 ∧ s.cgState n g = 1 ∧ s.stackTrained n then
    (s.wf (STK_STATE n) (2 * g + 1) (2 * g) 2).wf (STK_CG_EPOCH n g) (16 * (g % 2) + 15) (16 * (g % 2)) (nextEpoch (s.groupEpoch n g))
  else s

/-- CHANNEL_GROUP_STOPPED: a STOPPING group reaches STOPPED. -/
def effChannelGroupStopped (k : Nat) (s : Block) : Block :=
  if k < 192 ∧ s.cgState (k / 8) (k % 8) = 3 then s.wf (STK_STATE (k / 8)) (2 * (k % 8) + 1) (2 * (k % 8)) 0 else s

/-! ### Meanings -/

/-- The meaning of VIN_PRESENT. -/
def execVinPresent (mv : Nat) : State → Host.Outcome State Fault Refusal := onBlk (effVinPresent mv)
/-- The meaning of MOR_RESET_COLD. -/
def execMorResetCold (i : Nat) (v : Word) : State → Host.Outcome State Fault Refusal := onBlk (effMorResetCold i v)
/-- The meaning of MOR_RESET_WARM. -/
def execMorResetWarm (i : Nat) (v : Word) : State → Host.Outcome State Fault Refusal := onBlk (effMorResetWarm i v)
/-- The meaning of SIDEBAND_COLD_RESET. -/
def execSidebandColdReset : State → Host.Outcome State Fault Refusal := onBlk effSidebandColdReset
/-- The meaning of SIDEBAND_WARM_RESET. -/
def execSidebandWarmReset : State → Host.Outcome State Fault Refusal := onBlk effSidebandWarmReset
/-- The meaning of PERST_ASSERT. -/
def execPerstAssert : State → Host.Outcome State Fault Refusal := onBlk effPerstAssert
/-- The meaning of HOT_RESET. -/
def execHotReset : State → Host.Outcome State Fault Refusal := onBlk effHotReset
/-- The meaning of PERST_DEASSERT. -/
def execPerstDeassert : State → Host.Outcome State Fault Refusal := onBlk effPerstDeassert
/-- The meaning of SETTLE_EXPIRY. -/
def execSettleExpiry : State → Host.Outcome State Fault Refusal := onBlk effSettleExpiry
/-- The meaning of STACK_TRAINING_DONE. -/
def execStackTrainingDone (untrained : List Nat) (failedUnits : List Nat) : State → Host.Outcome State Fault Refusal := onBlk (effStackTrainingDone untrained failedUnits)
/-- The meaning of FN_CTRL_QUERY. -/
def execFnCtrlQuery (ch : Chan) : State → Host.Outcome State Fault Refusal := onBlk (effFnCtrlQuery ch)
/-- The meaning of FN_CTRL_START. -/
def execFnCtrlStart (ch : Chan) : State → Host.Outcome State Fault Refusal := onBlk (effFnCtrlStart ch)
/-- The meaning of FN_CTRL_STOP. -/
def execFnCtrlStop (ch : Chan) : State → Host.Outcome State Fault Refusal := onBlk (effFnCtrlStop ch)
/-- The meaning of FLASH_HOLD_RELEASE. -/
def execFlashHoldRelease : State → Host.Outcome State Fault Refusal := onBlk effFlashHoldRelease
/-- The meaning of VIN_LOW. -/
def execVinLow (mv : Nat) : State → Host.Outcome State Fault Refusal := onBlk (effVinLow mv)
/-- The meaning of VIN_HIGH. -/
def execVinHigh (mv : Nat) : State → Host.Outcome State Fault Refusal := onBlk (effVinHigh mv)
/-- The meaning of RAIL_OUT_OF_REGULATION. -/
def execRailOutOfRegulation (rail : Nat) (mv : Nat) : State → Host.Outcome State Fault Refusal := onBlk (effRailOutOfRegulation rail mv)
/-- The meaning of STACK_TEMP_POLL. -/
def execStackTempPoll (n : Nat) (temp : Nat) : State → Host.Outcome State Fault Refusal := onBlk (effStackTempPoll n temp)
/-- The meaning of STACK_REPORT_TIMEOUT. -/
def execStackReportTimeout (n : Nat) : State → Host.Outcome State Fault Refusal := onBlk (effStackReportTimeout n)
/-- The meaning of SENSOR_CONVERSION. -/
def execSensorConversion (n : Nat) (temp : Int) (ratioOk : Bool) : State → Host.Outcome State Fault Refusal := onBlk (effSensorConversion n temp ratioOk)
/-- The meaning of THERMAL_TRIP. -/
def execThermalTrip (src : Nat) (index : Nat) (temp : Int) : State → Host.Outcome State Fault Refusal := onBlk (effThermalTrip src index temp)
/-- The meaning of HOST_LINK_TRAINED. -/
def execHostLinkTrained (rate : Nat) (width : Nat) (flit : Bool) : State → Host.Outcome State Fault Refusal := onBlk (effHostLinkTrained rate width flit)
/-- The meaning of CHANNEL_GROUP_RUNNING. -/
def execChannelGroupRunning (k : Nat) : State → Host.Outcome State Fault Refusal := onBlk (effChannelGroupRunning k)
/-- The meaning of CHANNEL_GROUP_STOPPED. -/
def execChannelGroupStopped (k : Nat) : State → Host.Outcome State Fault Refusal := onBlk (effChannelGroupStopped k)

end Sys2Proof.Machine
end

