-- ==== Sys2Proof/Machine/Clocks.lean ====
section
/-! DEFINITION. The reference clock and the clocked domains: loss and return of REFCLK, the alternate reference and
CLK_SEL (R434 to R448). A set of domains is a mask: bit 0 timebase, 1 stack PHYs, 2 Esker PHYs, as CLK_SEL numbers
them, and bit 3 the PCIe PHY. -/

namespace Sys2Proof.Machine

/-- The domains that coast. -/
def Clocks.coasting (c : Clocks) : Nat := b2n c.coastTb + 2 * b2n c.coastStack + 4 * b2n c.coastEsk + 8 * b2n c.coastPcie

/-- A set of domains as an event's data show it: bit n for row n of R435 (R530). The forwarded reference follows the
timebase domain, and it stops where the others coast. -/
def domainRows (m : Nat) (coast : Bool) : Nat :=
  b2n (m.testBit 3) + 2 * b2n (m.testBit 1) + 4 * b2n (m.testBit 2) + 8 * b2n (m.testBit 0) + 16 * b2n (m.testBit 0 && !coast)

/-- The domains of a mask coast, or no longer do. -/
def Clocks.set (c : Clocks) (m : Nat) (v : Bool) : Clocks :=
  { coastTb := if m.testBit 0 then v else c.coastTb, coastStack := if m.testBit 1 then v else c.coastStack,
    coastEsk := if m.testBit 2 then v else c.coastEsk, coastPcie := if m.testBit 3 then v else c.coastPcie }

/-- The switchable domains on the alternate reference. -/
def Block.onAlt (s : Block) : Nat := s.fld CLK_SEL 2 0
/-- REF_OK. -/
def Block.refOk (s : Block) : Bool := s.bit CLK_STATUS 0
/-- ALT_READY (R443). -/
def Block.altReady (s : Block) : Bool := s.bit CLK_STATUS 3 && s.altPossible

/-- COASTING as the domains have it. -/
def Block.showCoast (s : Block) : Block := s.wb CLK_STATUS 7 (s.clk.coasting != 0)

/-- A switch of a non-empty set of domains (R445): the source of each, the count and event 0x0203. -/
def Block.switchTo (s : Block) (m : Nat) (alt auto : Bool) : Block :=
  if m = 0 then s else
  let s := s.wf CLK_SEL 2 0 (if alt then s.onAlt ||| m else s.onAlt - (s.onAlt &&& m))
  let s := ({ s with clk := s.clk.set m false }).showCoast
  (s.bump CLK_CNT_SWITCH).event srcHealth 0x0203 [w32 (domainRows m false), w32 (b2n alt), w32 (b2n auto)]

/-- The host link falls without PERST_N or hot reset; nothing starts (R418, R441). -/
def Block.hostLinkFalls (s : Block) : Block :=
  ({ s with start := { s.start with linkUp := false } }).wr MOR_HOST_LINK 0

/-- Domains coast (R441): the host link goes down with its PHY, every port with its own, and the forwarded reference
stops with the timebase. -/
def Block.coast (s : Block) (m : Nat) : Block :=
  let s := ({ s with clk := s.clk.set m true }).showCoast
  let s := if m.testBit 3 then s.hostLinkFalls else s
  let s := if m.testBit 0 then s.wb CLK_STATUS 6 false else s
  if m.testBit 2 then s.each (List.range 16) fun s p => if s.portUp p then s.portDown p 1 else s else s

/-- REFCLK is lost. -/
def refclkLossEffect (cause : Nat) (s : Block) : Block :=
  let onRef := 7 - s.onAlt
  let moved := if s.bit CLK_ALT_CFG 5 && s.altReady then onRef else 0
  let stay := onRef - moved + 8
  let s := ((s.wb CLK_STATUS 0 false).wb CLK_STATUS 1 true).wb CLK_STATUS 2 true
  let s := (s.bump CLK_CNT_LOST).event srcHealth 0x0201 [w32 cause, w32 (domainRows stay true), w32 (domainRows moved false)]
  (s.switchTo moved true true).coast stay

/-- REFCLK_LOSS. The monitor acts from AWAIT_FW on; before that a loss in a warm start has only the effect of R424. -/
def effRefclkLoss (cause : Nat) (s : Block) : Block :=
  if s.monitorOn then (if s.bit CLK_STATUS 1 then s else refclkLossEffect cause s)
  else if s.bit MOR_START 4 then { s with start := { s.start with refStopped := true } }
  else s

/-- REFCLK is back (R442): coasting PLLs relock, the forwarded reference starts again, REF_LOST clears. -/
def refclkRestoreEffect (us : Nat) (s : Block) : Block :=
  let lost := s.bit CLK_STATUS 1
  let s := { s with clk := s.clk.set 15 false }
  let s := (s.wb CLK_STATUS 0 true).showCoast
  let s := if s.onAlt.testBit 0 then s else s.wb CLK_STATUS 6 (s.bit CLK_SPREAD_ACT 20)
  let s := s.wb CLK_STATUS 1 false
  if lost then s.event srcHealth 0x0202 [w32 us] else s

/-- REFCLK_RESTORE, while REF_OK is 0 and the monitor is at work. -/
def effRefclkRestore (us : Nat) (s : Block) : Block :=
  if s.monitorOn && !s.refOk then refclkRestoreEffect us s else s

/-- Does a CLK_SEL value select only sources that are ready? -/
def Block.selReady (s : Block) (v : Nat) : Bool := (v == 0 || s.altReady) && (v == 7 || s.refOk)

/-- CLK_SEL_WRITE: applied as a whole, or refused and counted (R444). -/
def clkSelEffect (v : Nat) (s : Block) : Block :=
  if s.selReady v then (s.switchTo (v - (v &&& s.onAlt)) true false).switchTo (s.onAlt - (v &&& s.onAlt)) false false
  else (s.wb CLK_STATUS 5 true).bump CLK_CNT_REFUSED

/-- CLK_SEL_WRITE, from the PF or the sideband. -/
def effClkSelWrite (i : Nat) (v : Word) (s : Block) : Block :=
  if i = 0 ∨ i = 64 then clkSelEffect (v.fld 2 0) s else s

/-- ALT_READY clears (R446): domains that use the alternate reference return to REFCLK or coast. -/
def altLossEffect (s : Block) : Block :=
  let m := s.onAlt
  let s := s.wb CLK_STATUS 3 false
  if m = 0 then s else
  let ok := s.refOk
  let s := (s.wb CLK_STATUS 4 true).event srcHealth 0x0204
    [w32 (s.fld CLK_ALT_CFG 3 0), w32 (if ok then domainRows m false else 0), w32 (if ok then 0 else domainRows m true)]
  if ok then s.switchTo m false true else (s.wf CLK_SEL 2 0 0).coast m

/-- ALT_READY_LOSS, while ALT_READY is set. -/
def effAltReadyLoss (s : Block) : Block := if s.bit CLK_STATUS 3 then altLossEffect s else s

/-! ### Meanings -/

/-- The meaning of REFCLK_LOSS. -/
def execRefclkLoss (cause : Nat) : State → Host.Outcome State Fault Refusal := onBlk (effRefclkLoss cause)
/-- The meaning of REFCLK_RESTORE. -/
def execRefclkRestore (us : Nat) : State → Host.Outcome State Fault Refusal := onBlk (effRefclkRestore us)
/-- The meaning of CLK_SEL_WRITE. -/
def execClkSelWrite (i : Nat) (v : Word) : State → Host.Outcome State Fault Refusal := onBlk (effClkSelWrite i v)
/-- The meaning of ALT_READY_LOSS. -/
def execAltReadyLoss : State → Host.Outcome State Fault Refusal := onBlk effAltReadyLoss

end Sys2Proof.Machine
end

