-- ==== Sys2Proof/Machine/Rime.lean ====
section
/-! DEFINITION. The Rime cores and their firmware: the image set and its checks, kicks and watchdogs, faults and
restarts, and the messages of class 0x09 (R401 to R414). -/

namespace Sys2Proof.Machine

/-! ### Cores -/

/-- A core that has run nothing. -/
def RimeCore.reset : RimeCore := { image := none, faults := [], faultAt := 0, kickAt := 0, reply := none }
/-- A core. -/
def Block.core (s : Block) (n : Nat) : RimeCore := (kget s.fw.cores n).getD RimeCore.reset
/-- A core changed. -/
def Block.modCore (s : Block) (n : Nat) (f : RimeCore → RimeCore) : Block :=
  { s with fw := { s.fw with cores := kput s.fw.cores n (f (s.core n)) } }
/-- STATE of a core set. -/
def Block.setCoreState (s : Block) (n v : Nat) : Block := s.wf (RIME_STATE n) 2 0 v
/-- WDOG_MS and FAULT_LIMIT as they count (R412). -/
def Block.wdogNs (s : Block) : Nat := max 1 (s.fld RIME_CFG 7 0) * 1000000
def Block.faultLimit (s : Block) : Nat := max 1 (s.fld RIME_CFG 11 8)

/-- The ports that are RUNNING, as a mask. -/
def Block.portMask (s : Block) : Nat := ((List.range 16).map fun p => b2n (s.portUp p) * 2 ^ p).sum

/-- A core leaves: LINK's view of the ports stands as it was, and audits stop with HEALTH (R410). -/
def Block.coreLeaves (s : Block) (n : Nat) : Block :=
  if n = 5 then { s with esk := { s.esk with seen := some s.portMask } }
  else if n = 6 then s.wb LDG_STATUS 1 false else s

/-- LINK returns: failover runs over the ports as they now are. -/
def Block.linkReturns (s : Block) : Block :=
  let s := { s with esk := { s.esk with seen := none } }
  let s := s.checkNodes ((s.esk.routes.filter fun e => e.2.bit 4).map (·.1)) 1
  (s.each (List.range 16) fun s p =>
    if s.portUp p then s else
    let l := (s.port p).queue
    (s.modPort p fun x => { x with queue := [] }).each l fun s q => if q.own then s.reroute p q else s.discard p).pumpAll

/-- HEALTH returns: the events that waited for it are queued, and those that found no place are reported in one. -/
def Block.healthReturns (s : Block) : Block :=
  let l := s.ice.health
  let n := s.ice.healthLost
  let s := { s with ice := { s.ice with health := [], healthLost := 0 } }
  let s := (s.each l fun s r => s.iceEnter r).wb LDG_STATUS 1 true
  if n = 0 then s else s.event srcHealth 0x0707 [w32 n]

/-- A core is back (R410). -/
def Block.coreReturns (s : Block) (n : Nat) : Block :=
  if n = 1 then
    let s := s.payVtime
    match s.lossUntold with
    | some c => ({ s with lossUntold := none }).lossTold c
    | none => s
  else if n = 3 then s.each (keys s.snow) fun s p => s.openMoves p
  else if n = 5 then s.linkReturns
  else if n = 6 then s.healthReturns
  else s

/-- Does a core run its component? -/
def coreRuns (n : Nat) (s : Block) : Bool := decide (n < 7) && s.fw.loaded && (s.coreState n == 2)

/-- RIME_KICK (R403). -/
def effRimeKick (n : Nat) (s : Block) : Block :=
  let now := s.now
  if coreRuns n s then s.modCore n fun x => { x with kickAt := now } else s

/-- The reply that a core's restart owes. -/
def Block.answerRestart (s : Block) (n st : Nat) : Block :=
  match (s.core n).reply with
  | none => s
  | some (ch, h, upd) =>
    let s := s.modCore n fun x => { x with reply := none }
    s.replyLate ch ([h, w32 st] ++ (if upd && st == OK then [s.rg (RIME_VERSION n)] else []))

/-- A core restarts: RESTARTING, its absence begins (R406 step 3). -/
def Block.restart (s : Block) (n : Nat) : Block :=
  let now := s.now
  ((s.coreLeaves n).setCoreState n 4).modCore n fun x => { x with faultAt := now }

/-- A fault of core 1 to 6 (R406, R407): halted and recorded, then restarted, or given up at FAULT_LIMIT faults within
1 s. -/
def coreFaultEffect (n cause pc addr : Nat) (s : Block) : Block :=
  let now := s.now
  let recent := now :: (s.core n).faults.filter fun t => decide (now < t + 1000000000)
  let s := s.modCore n fun x => { x with faults := recent }
  let s := ((s.setCoreState n 3).wf (RIME_STATE n) 6 4 cause).wr (RIME_FAULT_ADDR n) (w32 addr)
  let s := s.event (srcCore 0) 0x0701 [w32 n, w32 cause, w32 pc, w32 addr]
  if s.faultLimit ≤ recent.length then
    let s := ((s.coreLeaves n).setCoreState n 5).event (srcCore 0) 0x0703 [w32 n, w32 recent.length]
    s.answerRestart n (NOT_READY 0x19)
  else s.restart n

/-- Can a core fault: loaded, and running or restarting? -/
def faultable (n : Nat) (s : Block) : Bool :=
  decide (1 ≤ n ∧ n ≤ 6) && s.fw.loaded && (s.coreState n == 2 || s.coreState n == 4)

/-- RIME_CORE_FAULT of causes 1 to 5. -/
def effRimeCoreFault (n cause pc addr : Nat) (s : Block) : Block :=
  if faultable n s && decide (1 ≤ cause ∧ cause ≤ 5) then coreFaultEffect n cause pc addr s else s

/-- RIME_CORE_RESTARTED: RUNNING, counted and recorded, with what its absence held back (R406 step 5). -/
def coreRestartedEffect (n : Nat) (s : Block) : Block :=
  let now := s.now
  let us := (now - (s.core n).faultAt) / 1000
  let s := ((s.setCoreState n 2).bumpFld (RIME_RESTARTS n) 15 0).modCore n fun x => { x with kickAt := now }
  let s := s.event (srcCore 0) 0x0702 [w32 n, s.rg (RIME_VERSION n), w32 us]
  (s.coreReturns n).answerRestart n OK

/-- RIME_CORE_RESTARTED, of a core that restarts. -/
def effRimeCoreRestarted (n : Nat) (s : Block) : Block :=
  if faultable n s && s.coreState n == 4 then coreRestartedEffect n s else s

/-- A fault of ROOT: its cause is held, and a warm start follows (R409). -/
def rootFaultEffect (cause : Nat) (s : Block) : Block := (s.wf RIME_ROOT_CAUSE 2 0 cause).warmStart 7

/-- ROOT_CORE_FAULT of causes 1 to 5. -/
def effRootCoreFault (cause : Nat) (s : Block) : Block :=
  if coreRuns 0 s && startable s && decide (1 ≤ cause ∧ cause ≤ 5) then rootFaultEffect cause s else s

/-- WATCHDOG_EXPIRY: no kick for WDOG_MS is a fault of cause WATCHDOG. Its program and fault address are open. -/
def watchdogEffect (n : Nat) (s : Block) : Block :=
  if n = 0 then (if startable s then rootFaultEffect 2 s else s)
  else
    let pc := s.freeVal
    let s := s.drawn
    coreFaultEffect n 2 pc s.freeVal s.drawn

/-- Has a running core not kicked for WDOG_MS? -/
def watchdogDue (n : Nat) (s : Block) : Bool := coreRuns n s && decide ((s.core n).kickAt + s.wdogNs ≤ s.now)

/-- WATCHDOG_EXPIRY, when it is due. -/
def effWatchdogExpiry (n : Nat) (s : Block) : Block := if watchdogDue n s then watchdogEffect n s else s

/-! ### The checks of an image set (R404, R405 step 2, R483) -/

/-- The routines that the image of the routine library holds: R186 gives an entry's 40 bytes, no place of a routine's ID,
version and first entry. Log entry 151. -/
opaque Config.libraryRoutines : List Byte → List Routine

/-- An image set in host memory at an address (R404): its header. -/
structure ImageSet where
  setVersion : Nat
  count : Nat
  setId : Dword
  length : Nat
  keyOff : Nat
  key : List Byte
  inside : Bool
  components : List Component
  deriving DecidableEq, Repr

/-- The bytes of an ML-DSA-65 signature and of the vendor's public key. -/
def sigBytes : Nat := 3309
def keyBytes : Nat := 1952

/-- Component entry `k` of a set at `a`, and whether its image and signature lie within `n` bytes. -/
def Block.componentAt (s : Block) (a n k : Nat) : Component × Bool :=
  let e := a + 64 + 32 * k
  let w (i : Nat) : Word := s.hostWord (e + 4 * i)
  let off := (w 3).toNat
  let len := (w 4).toNat
  let sig := (w 5).toNat
  let inside := decide (off + len ≤ n ∧ sig + sigBytes ≤ n)
  let image := if inside then s.hostRead (a + off) len else []
  let id := (w 0).fld 7 0
  ({ id := id, version := w 1, schema := (w 2).fld 15 0, len := len, signed := s.hostRead e 20 ++ image,
     sig := if inside then s.hostRead (a + sig) sigBytes else [], routines := if id = 7 then Config.libraryRoutines image else [] },
   inside)

/-- The set of `n` bytes at `a`, as the boot ROM reads it. -/
def Block.imageSetAt (s : Block) (a n : Nat) : ImageSet :=
  let w (i : Nat) : Word := s.hostWord (a + 4 * i)
  let cs := (List.range 8).map (s.componentAt a n)
  let keyOff := (w 4).toNat
  { setVersion := (w 0).fld 7 0, count := (w 0).fld 15 8, setId := dword (w 1) (w 2), length := (w 3).toNat, keyOff := keyOff,
    key := s.hostRead (a + keyOff) keyBytes, inside := decide (320 ≤ n ∧ keyOff + keyBytes ≤ n) && cs.all (·.2),
    components := cs.map (·.1) }

/-- The security version of a component. -/
def security (c : Component) : Nat := c.version.fld 31 24
/-- The largest image of a component: code memory, or a routine store. -/
def imageMax (id : Nat) : Nat := if id = 7 then 2097152 else 524288

/-- Is the format of a set right: its header, 8 distinct IDs, its length, and every part within it? -/
def setFormatOk (x : ImageSet) (len : Nat) : Bool :=
  (x.setVersion == 2) && (x.count == 8) && (x.length == len) && decide (len ≤ 16777216) && x.inside &&
  (List.range 8).all fun i => x.components.any fun c => c.id == i

/-- What fails in the components of a set that satisfy a test: detail and ID, signatures first, then floors, then
fit. -/
def badComponent (x : ImageSet) (fuses : Fuses) (which : Component → Bool) : Option (Nat × Nat) :=
  let l := x.components.filter which
  match l.find? fun c => !Config.mldsaVerify x.key c.signed c.sig with
  | some c => some (0x13, c.id)
  | none =>
    match l.find? fun c => decide (security c < fuses.floors.getD c.id 0) with
    | some c => some (0x18, c.id)
    | none => (l.find? fun c => decide (imageMax c.id < c.len)).map fun c => (0x14, c.id)

/-- The verdict on a set: none, or the detail with the failing ID; a failure of the set as a whole names none, and the
ID reported is then open. -/
def Block.verifySet (s : Block) (x : ImageSet) (len : Nat) (which : Component → Bool) : Option (Nat × Nat) × Block :=
  if !setFormatOk x len then (some (0x14, s.freeVal), s.drawn)
  else if Config.shake256 x.key != s.trust.fuses.vendorDigest then (some (0x13, s.freeVal), s.drawn)
  else (badComponent x s.trust.fuses which, s)

/-- A refused image: event 0x0705 and the reply. -/
def Block.imageRefused (s : Block) (source : Nat) (e : Nat × Nat) : Answer :=
  let s := s.event source 0x0705 [w32 e.2, w32 e.1]
  { status := REFUSED e.1, regs := [w32 e.2], blk := s }

/-! ### FW_LOAD (R405, R421 steps 10 and 11) -/

/-- The index of a component's measurement (R495). -/
def measureIndex (id : Nat) : Nat := id + 1

/-- A component in force: its image, its measurement, and event 0x0704. -/
def Block.install (s : Block) (c : Component) (update : Bool) : Block :=
  let s := { s with trust := { s.trust with
    measures := kput s.trust.measures (measureIndex c.id) (c.version, Config.shake256 c.signed) } }
  let s := if c.id = 7 then { s with fw := { s.fw with library := some c } } else
    ((s.modCore c.id fun x => { x with image := some c }).wr (RIME_VERSION c.id) c.version).wf (RIME_SCHEMA c.id) 15 0 c.schema
  s.event (srcCore 0) 0x0704 [w32 c.id, c.version, w32 c.schema, w32 (b2n update)]

/-- Every core runs its component. -/
def Block.startCores (s : Block) : Block :=
  let now := s.now
  loop 7 (fun n s => (s.setCoreState n 2).modCore n fun x => { x with kickAt := now }) s

/-- The set is loaded: the cores run, what a warm start keeps is decided, and the start ends at READY. The length of the
start is an open value. -/
def fwLoadEffect (x : ImageSet) (s : Block) : Block :=
  let s := s.each x.components fun s c => s.install c false
  let s := { s with fw := { s.fw with loaded := true, prior := s.fw.prior } }
  let s := (s.setPair RIME_SET_ID_LO x.setId.toNat).startCores.healthReturns
  let s := if s.fld MOR_RESET_CAUSE 3 0 = 7 then s.event srcRom 0x0706 [w32 (s.fld RIME_ROOT_CAUSE 2 0)] else s
  let s := s.decideKeep (x.components.map fun c => (c.id, c.schema))
  let (ms, s) := s.choose 65536
  let s := (s.wf MOR_START_MS 15 0 ms).setPhase 9
  s.event srcMoraine 0x0101
    [w32 (s.fld MOR_START 4 4), w32 (s.fld MOR_RESET_CAUSE 3 0), w32 (s.fld MOR_START 5 5), w32 ms]

/-- The life-cycle state SCRAP is in force (R486). -/
def Block.scrapped (s : Block) : Bool := s.lcState == 4

/-- A message of class 0x09 that only S0, or S0 and S1, may carry (R411). -/
def Block.onPair (s : Block) (ok : Bool) (h : Answer) : Answer := if ok then h else s.no (DENIED 0x10)

/-- Until step 10 a FW_LOAD stays FULL in S0 (R421). -/
def loadWaits (ch : Chan) (s : Block) : Bool := (ch == .s0) && !(s.phase == 7 || s.phase == 9)

/-- FW_LOAD of the image set that the host holds at the message's address (R405). -/
def effFwLoad (ch : Chan) (img : List Byte) (s : Block) : Block :=
  if loadWaits ch s then s else
  (s.hostImage ch 0x0901 1 img).message ch 0x0901 fun s ws => s.onPair (ch == .s0) <|
    if s.fw.loaded then s.no (REFUSED 0x12)
    else if s.scrapped then s.no (DENIED 0x0B)
    else
      let len := (mreg ws 3).toNat
      match s.hostReadStatus 0 (mpair ws 1) (min len 16777216) with
      | some st => s.no st
      | none =>
        let img := s.imageSetAt (mpair ws 1) len
        let r := s.verifySet img len fun _ => true
        match r.1 with
        | some e => r.2.imageRefused srcRom e
        | none => (fwLoadEffect img r.2).yes

/-! ### FW_UPDATE, FW_RESTART, FW_STATUS (R407, R408, R411) -/

/-- ROOT is loaded and acts; before that no image set answers. -/
def Block.rooted (s : Block) (h : Answer) : Answer := if s.fw.loaded then h else s.no (NOT_READY 0x11)

/-- Is a core away in a restart? -/
def Block.restarting (s : Block) (n : Nat) : Bool := s.coreState n == 3 || s.coreState n == 4

/-- Why FW_UPDATE of a component cannot begin, by its ID alone. -/
def Block.updateStatus (s : Block) (id : Nat) : Option Nat :=
  if id = 0 then some (REFUSED 0x16)
  else if 7 < id then some (REFUSED 0x14)
  else if id = 7 then (if s.bundles.isEmpty then none else some (BUSY 0x17))
  else if s.restarting id then some (BUSY 0x17) else none

/-- The SCHEMA of the component in force. -/
def Block.schemaOf (s : Block) (id : Nat) : Nat :=
  if id = 7 then (s.fw.library.map (·.schema)).getD 0 else s.fld (RIME_SCHEMA id) 15 0

/-- The update of a component is accepted: it is in force, measured and counted. -/
def Block.updated (s : Block) (c : Component) : Block :=
  let n := min 255 (tget 0 s.trust.updates (measureIndex c.id) + 1)
  ({ s with trust := { s.trust with updates := kput s.trust.updates (measureIndex c.id) n } }).install c true

/-- A core told to restart by a message: its fault count is cleared, and the reply follows its return. -/
def Block.restartFor (s : Block) (n : Nat) (ch : Chan) (h : Word) (upd : Bool) : Block :=
  (s.modCore n fun x => { x with faults := [], reply := some (ch, h, upd) }).restart n

/-- The handling of FW_UPDATE: an answer, or the restart whose end brings the reply. -/
def fwUpdateStep (ch : Chan) (s : Block) (ws : List Word) : Option Answer × Block :=
  let id := (mreg ws 1).toNat
  let ans (a : Answer) : Option Answer × Block := (some a, s)
  if ch ≠ .s0 then ans (s.no (DENIED 0x10))
  else if !s.fw.loaded then ans (s.no (NOT_READY 0x11))
  else match s.updateStatus id with
    | some st => ans (s.no st)
    | none =>
      match s.hostReadStatus 0 (mpair ws 2) (min (mreg ws 4).toNat 16777216) with
      | some st => ans (s.no st)
      | none =>
        let img := s.imageSetAt (mpair ws 2) (mreg ws 4).toNat
        let r := s.verifySet img (mreg ws 4).toNat fun c => c.id == id
        match r.1 with
        | some e => ans (r.2.imageRefused (srcCore 0) e)
        | none =>
          match img.components.find? fun c => c.id == id with
          | none => ans (s.imageRefused (srcCore 0) (0x14, id))
          | some c =>
            if c.schema ≠ s.schemaOf id then ans (s.imageRefused (srcCore 0) (0x15, id))
            else if id = 7 then ans ((s.updated c).yes [c.version])
            else (none, (s.updated c).restartFor id ch (mreg ws 0) true)

/-- FW_UPDATE from the image set that the host holds at the message's address (R408). -/
def effFwUpdate (ch : Chan) (img : List Byte) (s : Block) : Block :=
  (s.hostImage ch 0x0902 2 img).messageLater ch 0x0902 (fwUpdateStep ch)

/-- The handling of FW_RESTART. -/
def fwRestartStep (ch : Chan) (s : Block) (ws : List Word) : Option Answer × Block :=
  let id := (mreg ws 1).toNat
  let ans (a : Answer) : Option Answer × Block := (some a, s)
  if !chSecure ch then ans (s.no (DENIED 0x10))
  else if !s.fw.loaded then ans (s.no (NOT_READY 0x11))
  else if id = 0 ∨ 6 < id then ans (s.no (REFUSED 0x16))
  else if s.restarting id then ans (s.no (BUSY 0x17))
  else (none, s.restartFor id ch (mreg ws 0) false)

/-- FW_RESTART. -/
def effFwRestart (ch : Chan) (s : Block) : Block := s.messageLater ch 0x0903 (fwRestartStep ch)

/-- FW_STATUS. -/
def effFwStatus (ch : Chan) (s : Block) : Block :=
  s.message ch 0x0904 fun s _ => s.onPair (chSecure ch) <| s.rooted <|
    s.yes ([s.rg RIME_SET_ID_LO, s.rg (RIME_SET_ID_LO + 4)] ++ (List.range 7).map (fun n => s.rg (RIME_VERSION n)) ++
      [((s.fw.library.map (·.version)).getD 0)])

/-! ### Meanings -/

/-- The meaning of RIME_KICK. -/
def execRimeKick (n : Nat) : State → Host.Outcome State Fault Refusal := onBlk (effRimeKick n)
/-- The meaning of WATCHDOG_EXPIRY. -/
def execWatchdogExpiry (n : Nat) : State → Host.Outcome State Fault Refusal := onBlk (effWatchdogExpiry n)
/-- The meaning of RIME_CORE_FAULT. -/
def execRimeCoreFault (n : Nat) (cause : Nat) (pc : Nat) (addr : Nat) : State → Host.Outcome State Fault Refusal := onBlk (effRimeCoreFault n cause pc addr)
/-- The meaning of RIME_CORE_RESTARTED. -/
def execRimeCoreRestarted (n : Nat) : State → Host.Outcome State Fault Refusal := onBlk (effRimeCoreRestarted n)
/-- The meaning of ROOT_CORE_FAULT. -/
def execRootCoreFault (cause : Nat) : State → Host.Outcome State Fault Refusal := onBlk (effRootCoreFault cause)
/-- The meaning of FW_LOAD. -/
def execFwLoad (ch : Chan) (img : List Byte) : State → Host.Outcome State Fault Refusal := onBlk (effFwLoad ch img)
/-- The meaning of FW_UPDATE. -/
def execFwUpdate (ch : Chan) (img : List Byte) : State → Host.Outcome State Fault Refusal := onBlk (effFwUpdate ch img)
/-- The meaning of FW_RESTART. -/
def execFwRestart (ch : Chan) : State → Host.Outcome State Fault Refusal := onBlk (effFwRestart ch)
/-- The meaning of FW_STATUS. -/
def execFwStatus (ch : Chan) : State → Host.Outcome State Fault Refusal := onBlk (effFwStatus ch)

end Sys2Proof.Machine
end

