-- ==== Sys2Proof/Machine/Trust.lean ====
section
/-! DEFINITION. Trust: life-cycle transitions, debug, challenges and blobs, installed keys, measurement and attestation,
and the sideband's readings (R482 to R501, R520). -/

namespace Sys2Proof.Machine

/-! ### Messages of class 0x0A (R486, R498) -/

/-- The index of a secure pair. -/
def pairIndex : Chan → Nat
  | .s1 => 1
  | _ => 0

/-- A message that ROOT answers: on S0 only if so marked, never in SCRAP, and not before a set is loaded. -/
def Block.trustMsg (s : Block) (s0Only : Bool) (ch : Chan) (h : Answer) : Answer :=
  if s0Only && ch != .s0 then s.no (DENIED 0x10)
  else if s.scrapped then s.no (DENIED 0x0B)
  else if !s.fw.loaded then s.no (NOT_READY 0x11)
  else h

/-- A refused authorization: event 0x0803. -/
def Block.authRefused (s : Block) (type detail : Nat) : Answer :=
  (s.event (srcCore 0) 0x0803 [w32 type, w32 detail]).no (REFUSED detail)

/-- Does a transition await a cold start? -/
def Block.lcPending (s : Block) : Bool := s.bit MOR_LC 6

/-! ### Challenges and blobs (R489, R491) -/

/-- LC_CHALLENGE: a fresh nonce for the pair. The boot ROM answers it in SCRAP. -/
def effLcChallenge (ch : Chan) (s : Block) : Block :=
  s.message ch 0x0A01 fun s _ =>
    if !s.scrapped && !s.fw.loaded then s.no (NOT_READY 0x11) else
    let n := leBytes 32 s.freeVal
    let s := s.drawn
    ({ s with trust := { s.trust with nonces := kput s.trust.nonces (pairIndex ch) n } }).yes (bytesWords 8 n)

/-- A signer's public key and its signature, as they lie in a blob. -/
structure Blob where
  key : List Byte
  sig : List Byte

/-- Bytes of a blob: a public key and a signature. -/
def blobBytes : Nat := keyBytes + sigBytes

/-- A blob read from the host. -/
def Block.readBlob (s : Block) (a : Nat) : Blob := { key := s.hostRead a keyBytes, sig := s.hostRead (a + keyBytes) sigBytes }

/-- The data that a blob for a purpose signs. -/
def Block.blobData (s : Block) (nonce : List Byte) (purpose : Nat) : List Byte := nonce ++ s.deviceId ++ leBytes 4 purpose

/-- A blob judged: the detail of its refusal, if any. The nonce is used up. -/
def Block.judge (s : Block) (ch : Chan) (a : Nat) (purpose : Nat) (digest : List Byte) (ok : Bool) : Option Nat × Block :=
  match kget s.trust.nonces (pairIndex ch) with
  | none => (some 0x07, s)
  | some n =>
    let b := s.readBlob a
    let good := ok && Config.shake256 b.key == digest && Config.mldsaVerify b.key (s.blobData n purpose) b.sig
    (if good then none else some 0x06, { s with trust := { s.trust with nonces := kdel s.trust.nonces (pairIndex ch) } })

/-! ### Transitions (R484, R485, R492) -/

/-- 48 bytes of a digest field as its fuses read. -/
def digest48 (l : List Byte) : List Byte := (l ++ List.replicate 48 0).take 48

/-- Does a requested digest leave every blown fuse blown? -/
def covers (blown want : List Byte) : Bool := (List.zip (digest48 blown) (digest48 want)).all fun e => e.1 &&& ~~~e.2 == 0

/-- Fuses changed; the state in force stands, and a new one is pending. -/
def Block.blow (s : Block) (f : Fuses → Fuses) : Block :=
  ({ s with trust := { s.trust with fuses := f s.trust.fuses } }).setLc s.lcState

/-- Event 0x0801. -/
def Block.lcEvent (s : Block) (new : Nat) (ch : Chan) : Block :=
  s.event (srcCore 0) 0x0801 [w32 s.lcState, w32 new, w32 (chCode ch)]

/-- LC_ADVANCE. -/
def effLcAdvance (ch : Chan) (s : Block) : Block :=
  s.message ch 0x0A02 fun s ws => s.trustMsg false ch <|
    let target := (mreg ws 1).toNat
    let want := wordsBytes ((List.range 12).map fun i => mreg ws (2 + i))
    if s.lcPending then s.no (BUSY 0x05)
    else if s.lcState = 0 ∧ target = 1 then
      if covers s.trust.fuses.ownerDigest want then
        ((s.blow fun f => { f with ownerDigest := want, ownerValid := true, develop := LcBit.set }).lcEvent 1 ch).yes
      else s.no (REFUSED 0x04)
    else if s.lcState = 1 ∧ target = 2 then ((s.blow fun f => { f with field := LcBit.set }).lcEvent 2 ch).yes
    else s.no (REFUSED 0x04)

/-- Step 2: all work ends and every partition is destroyed (R330). -/
def Block.endEverything (s : Block) : Block :=
  let s := s.killJobs (ABORTED 0xD2) false
  let s := s.each (s.reqs.filter fun e => e.2.live) fun s e => s.endReq e.1 0 (ABORTED 0xD2) 0
  s.destroyAll

/-- The ports with ENC_ON. -/
def Block.encPorts (s : Block) : List Nat := (List.range 16).filter fun p => s.bit (ESK_STATE p) 10
/-- IDE streams active. -/
def Block.ideStreams (s : Block) : Nat := s.fld MOR_HOST_LINK 12 9

/-- Step 3: keys erased and encrypted ports stopped: how many, how many streams, and the block. -/
def Block.eraseKeys (s : Block) : (Nat × Nat) × Block :=
  let l := s.encPorts
  let n := s.ideStreams
  let s := { s with trust := { s.trust with keys := [] } }
  ((l.length, n), (s.each l fun s p => s.stopPort p).wf MOR_HOST_LINK 12 9 0)

/-- Steps 2 to 5 of a return or a scrap. -/
def Block.retire (s : Block) (ch : Chan) (new : Nat) (f : Fuses → Fuses) : Block :=
  let r := s.endEverything.eraseKeys
  ((r.2.blow f).event (srcCore 0) 0x0804 [w32 r.1.1, w32 r.1.2]).lcEvent new ch

/-- LC_RETURN. -/
def effLcReturn (ch : Chan) (s : Block) : Block :=
  s.message ch 0x0A03 fun s ws => s.trustMsg true ch <|
    if s.lcPending then s.no (BUSY 0x05)
    else if s.lcState ≠ 2 then s.authRefused 0x0A03 0x04
    else match s.hostReadStatus 0 (mpair ws 1) blobBytes with
      | some st => s.no st
      | none =>
        let r := s.judge ch (mpair ws 1) 2 s.trust.fuses.vendorDigest true
        match r.1 with
        | some d => r.2.authRefused 0x0A03 d
        | none => (r.2.retire ch 3 fun f => { f with ownerDigest := allBlown 48, ret := LcBit.set }).yes

/-- LC_SCRAP. -/
def effLcScrap (ch : Chan) (s : Block) : Block :=
  s.message ch 0x0A04 fun s ws => s.trustMsg false ch <|
    if (mreg ws 1).fld 15 0 ≠ 0x5C2A then s.no (REFUSED 0x04)
    else (s.retire ch 4 fun f => { f with ownerDigest := allBlown 48, idSeed := allBlown 32, scrap := LcBit.set }).yes

/-! ### Floors and debug (R487, R488, R497) -/

/-- VERSION of a component in force. -/
def Block.versionOf (s : Block) (id : Nat) : Word :=
  if id = 7 then (s.fw.library.map (·.version)).getD 0 else s.rg (RIME_VERSION id)

/-- LC_FLOOR. -/
def effLcFloor (ch : Chan) (s : Block) : Block :=
  s.message ch 0x0A05 fun s ws => s.trustMsg false ch <|
    let id := (mreg ws 1).toNat
    let v := (mreg ws 2).toNat
    if s.lcState ≠ 1 ∧ s.lcState ≠ 2 then s.no (DENIED 0x0A)
    else if 7 < id ∨ 64 < v ∨ (s.versionOf id).fld 31 24 < v then s.no (REFUSED 0x0C)
    else
      let old := s.trust.fuses.floors.getD id 0
      if v ≤ old then s.yes
      else
        let s := { s with trust := { s.trust with fuses := { s.trust.fuses with floors := s.trust.fuses.floors.set id v } } }
        ((s.wf (MOR_LC_FLOOR id) 6 0 v).event (srcCore 0) 0x0805 [w32 id, w32 old, w32 v]).yes

/-- DEBUG_UNLOCK. -/
def effDebugUnlock (ch : Chan) (s : Block) : Block :=
  s.message ch 0x0A06 fun s ws => s.trustMsg true ch <|
    if s.lcState = 2 then s.no (DENIED 0x08)
    else if s.lcState ≠ 1 then s.yes
    else if !s.encPorts.isEmpty || s.ideStreams != 0 then s.no (BUSY 0x09)
    else match s.hostReadStatus 0 (mpair ws 1) blobBytes with
      | some st => s.no st
      | none =>
        let f := s.trust.fuses
        let r := s.judge ch (mpair ws 1) 1 f.ownerDigest f.ownerOk
        match r.1 with
        | some d => r.2.authRefused 0x0A06 d
        | none =>
          ((r.2.wb MOR_LC 7 true).event (srcCore 0) 0x0802 (w32 (chCode ch) :: bytesWords 2 (digest48 f.ownerDigest))).yes

/-! ### Installed keys (R487, R493) -/

/-- Are keys accepted in the state in force? -/
def Block.keysAllowed (s : Block) : Bool := s.lcState == 2 || (s.lcState == 1 && !s.bit MOR_LC 7)

/-- Is a slot of a port in use for a direction: does its encrypted link run on it? -/
def Block.slotUsed (s : Block) (p dir slot : Nat) : Bool :=
  s.bit (ESK_STATE p) 10 && (if dir = 0 then (s.port p).sendSlot else (s.port p).recvSlot) == slot

/-- ESK_KEY_INSTALL. -/
def effEskKeyInstall (ch : Chan) (s : Block) : Block :=
  s.message ch 0x0A09 fun s ws => s.trustMsg false ch <|
    let p := (mreg ws 1).fld 3 0
    let dir := (mreg ws 1).fld 4 4
    let slot := (mreg ws 1).fld 5 5
    if !s.keysAllowed then s.no (DENIED 0x0A)
    else if s.slotUsed p dir slot then s.no (BUSY 0x0E)
    else
      let k : LinkKey := { id := mreg ws 2, salt := mreg ws 3, key := (List.range 8).map fun i => mreg ws (4 + i) }
      ({ s with trust := { s.trust with keys := kput s.trust.keys (p * 4 + dir * 2 + slot) k } }).yes

/-- ESK_KEY_SWITCH: the sender moves to its other slot, and the port sends KEY_SWITCH. -/
def effEskKeySwitch (ch : Chan) (s : Block) : Block :=
  s.message ch 0x0A0A fun s ws => s.trustMsg false ch <|
    let p := (mreg ws 1).fld 3 0
    let other := 1 - (s.port p).sendSlot
    if (s.keyId p 0 other).isNone then s.no (REFUSED 0x0E)
    else (s.modPort p fun x => { x with sendSlot := other }).yes

/-- IDE_KM over DOE: with its keys accepted, so many selective streams are active (R375, R399). -/
def effIdeKm (streams : Nat) (s : Block) : Block :=
  if s.start.linkUp && s.fw.loaded && s.keysAllowed && decide (streams ≤ 4) then s.wf MOR_HOST_LINK 12 9 streams else s

/-! ### Measurement and attestation (R495, R496) -/

/-- VERSION and digest of a measurement. -/
def Block.measure (s : Block) (i : Nat) : Word × List Byte :=
  if i = 0 then (w32 s.trust.fuses.romVersion, Config.shake256 Config.romContents)
  else if i = 9 then (0, Config.shake256 s.start.recordBytes)
  else if i = 10 then
    (0, Config.shake256 (wordsBytes (s.rg MOR_LC :: (List.range 8).map fun k => s.rg (MOR_LC_FLOOR k)) ++
      digest48 s.trust.fuses.ownerDigest))
  else (kget s.trust.measures i).getD (0, [])

/-- The 56 bytes of a measurement in a report. -/
def Block.measureBytes (s : Block) (i : Nat) : List Byte :=
  leBytes 1 i ++ leBytes 1 (tget 0 s.trust.updates i) ++ [0, 0] ++ leBytes 4 (s.measure i).1.toNat ++ digest48 (s.measure i).2

/-- Bytes cut or filled to a length. -/
def fitTo (n : Nat) (l : List Byte) : List Byte := (l ++ List.replicate n 0).take n

/-- Length of a report. -/
def reportBytes : Nat := 5965

/-- Bytes 0 to 2,655 of a report. -/
def Block.reportBody (s : Block) (nonce : List Byte) (count : Nat) : List Byte :=
  leBytes 4 (2 + 11 * 256) ++ leBytes 4 reportBytes ++ leBytes 4 (s.rg MOR_LC).toNat ++ leBytes 4 0 ++ fitTo 32 nonce ++
  wordsBytes ((List.range 8).map fun k => s.rg (MOR_DEVICE_ID k)) ++ leBytes 8 count ++
  (List.range 11).flatMap s.measureBytes ++ fitTo keyBytes (Config.mldsaPublic s.trust.seed)

/-- A report with its signature. -/
def Block.report (s : Block) (nonce : List Byte) (count : Nat) : List Byte :=
  let b := s.reportBody nonce count
  b ++ fitTo sigBytes (Config.mldsaSign s.trust.seed b)

/-- A report built and held for the pair. -/
def Block.attested (s : Block) (ch : Chan) (nonce : List Byte) : Block :=
  let n := s.trust.reportCount + 1
  let r := s.report nonce n
  { s with trust := { s.trust with reportCount := n, reports := kput s.trust.reports (pairIndex ch) r } }

/-- ATTEST. -/
def effAttest (ch : Chan) (s : Block) : Block :=
  s.message ch 0x0A07 fun s ws => s.trustMsg false ch <|
    let s := s.attested ch (wordsBytes ((List.range 8).map fun i => mreg ws (2 + i)))
    let dma := (mreg ws 1).bit 0 && ch == .s0
    let a := mpair ws 10
    if dma && !s.dmaStopped 0 && !s.hostOk a reportBytes then s.no (ABORTED 0x24)
    else
      let s := if dma then s.hostWrite 0 a ((kget s.trust.reports 0).getD []) else s
      s.yes [w32 reportBytes]

/-- ATTEST_READ. -/
def effAttestRead (ch : Chan) (s : Block) : Block :=
  s.message ch 0x0A08 fun s ws => s.trustMsg false ch <|
    let off := (mreg ws 1).toNat
    match kget s.trust.reports (pairIndex ch) with
    | none => s.no (REFUSED 0x0D)
    | some r =>
      if r.length ≤ off then s.no (REFUSED 0x0D) else s.yes (w32 off :: bytesWords 13 ((r.drop off).take 52))

/-! ### PLDM (R520) -/

/-- The register that a PLDM sensor reports: a temperature sensor, or a register of power and heat. -/
def pldmReg (k : Nat) : Option Nat :=
  if k < 560 then some (THM_SENSOR k) else [PWR_IN, PWR_AVG, PWR_STATUS, PWR_LIMIT, PWR_GOV, THM_STATE][k - 560]?

/-- PLDM_REQUEST, while HEALTH is present to reply. -/
def effPldmRequest (k : Nat) (s : Block) : Block :=
  match pldmReg k with
  | some a => if s.coreUp 6 then { s with env := { s.env with pldm := s.env.pldm ++ [(k, s.rg a)] } } else s
  | none => s

/-! ### Meanings -/

/-- The meaning of LC_CHALLENGE. -/
def execLcChallenge (ch : Chan) : State → Host.Outcome State Fault Refusal := onBlk (effLcChallenge ch)
/-- The meaning of LC_ADVANCE. -/
def execLcAdvance (ch : Chan) : State → Host.Outcome State Fault Refusal := onBlk (effLcAdvance ch)
/-- The meaning of LC_RETURN. -/
def execLcReturn (ch : Chan) : State → Host.Outcome State Fault Refusal := onBlk (effLcReturn ch)
/-- The meaning of LC_SCRAP. -/
def execLcScrap (ch : Chan) : State → Host.Outcome State Fault Refusal := onBlk (effLcScrap ch)
/-- The meaning of LC_FLOOR. -/
def execLcFloor (ch : Chan) : State → Host.Outcome State Fault Refusal := onBlk (effLcFloor ch)
/-- The meaning of DEBUG_UNLOCK. -/
def execDebugUnlock (ch : Chan) : State → Host.Outcome State Fault Refusal := onBlk (effDebugUnlock ch)
/-- The meaning of ATTEST. -/
def execAttest (ch : Chan) : State → Host.Outcome State Fault Refusal := onBlk (effAttest ch)
/-- The meaning of ATTEST_READ. -/
def execAttestRead (ch : Chan) : State → Host.Outcome State Fault Refusal := onBlk (effAttestRead ch)
/-- The meaning of ESK_KEY_INSTALL. -/
def execEskKeyInstall (ch : Chan) : State → Host.Outcome State Fault Refusal := onBlk (effEskKeyInstall ch)
/-- The meaning of ESK_KEY_SWITCH. -/
def execEskKeySwitch (ch : Chan) : State → Host.Outcome State Fault Refusal := onBlk (effEskKeySwitch ch)
/-- The meaning of IDE_KM. -/
def execIdeKm (streams : Nat) : State → Host.Outcome State Fault Refusal := onBlk (effIdeKm streams)
/-- The meaning of PLDM_REQUEST. -/
def execPldmRequest (sensor : Nat) : State → Host.Outcome State Fault Refusal := onBlk (effPldmRequest sensor)

end Sys2Proof.Machine
end

