-- ==== Sys2Proof/Machine/Errors.lean ====
section
/-! DEFINITION. Stored-data errors: the patrol, re-fetches from golden copies, through-silicon paths (R464 to R477). -/

namespace Sys2Proof.Machine

/-! ### PATROL_READ (R471) -/

/-- Sectors of all stacks. -/
def patrolSectors : Nat := 1280 * 2 ^ 30 / 32

/-- The patrol's progress after one more sector. -/
def Block.patrolled (s : Block) : Block :=
  let n := s.err.patrol + 1
  let s := { s with err := { s.err with patrol := n % patrolSectors } }
  let s := s.wf ERR_PATROL 7 0 (s.err.patrol * 100 / patrolSectors)
  if n = patrolSectors then s.bumpFld ERR_PATROL 31 8 else s

/-- A correction in a stack counted, and its row retired at ROW_CE_MAX (R464). -/
def Block.corrected (s : Block) (n core bank row : Nat) (obj : Option (Nat × Word × Nat)) : Block :=
  (s.bump (ERR_STK_CE n)).rowCorrected n core bank row obj

/-- The sector of an object that cannot be corrected: the row's copy holds it as stored poison. A line of a memory-side
cache keeps what it holds; the mark shows when a line without writes leaves (R102). -/
def Block.storePoison (s : Block) (p : Nat) (h : Word) (off : Nat) : Block :=
  let here (x : MscLine) : Bool := x.part == p && x.handle == h && x.line == off / 256
  if s.msc.any fun e => e.2.any here then
    { s with msc := kmap s.msc fun _ l => l.map fun x =>
        if here x && !x.under.contains (off / 32) then { x with under := off / 32 :: x.under } else x }
  else s.markStored p h (off / 32)

/-- An uncorrectable error that the patrol finds: counted, recorded, its row retired, and its frame re-fetched when it
has a golden copy. -/
def Block.patrolUe (s : Block) (n core bank row : Nat) (obj : Option (Nat × Word × Nat)) : Block :=
  let h : Word := match obj with | some x => x.2.1 | none => 0
  let off := match obj with | some x => x.2.2 | none => 0
  let s := (s.bump (ERR_STK_UE n)).bump ERR_CNT_PATROL_UE
  let s := ((s.wr ERR_LAST_UE_KIND (w32 (15 + n * 16))).wr ERR_LAST_UE_HANDLE h).setPair ERR_LAST_UE_OFF_LO off
  let s := s.event srcHealth 0x0508 [w32 n, w32 core, w32 bank, w32 row, h]
  let s := match obj with | some x => s.storePoison x.1 x.2.1 x.2.2 | none => s
  let s := s.retireRow n core bank row 2 obj
  match obj with
  | none => s
  | some (p, h, off) =>
    match s.byHandle p h with
    | some o =>
      if o.golden ≠ 0 ∧ !o.damaged then
        match o.frameAt 0 off with
        | some fr => s.startRefetch p h fr
        | none => s
      else s
    | none => s

/-- Does the patrol read: PATROL_H not 0, the stack trained? -/
def patrolOn (n : Nat) (s : Block) : Bool :=
  s.pwr.pwrGood && decide (n < 24) && s.bit (STK_STATE n) 16 && decide (s.fld ERR_CFG 31 24 ≠ 0)

/-- PATROL_READ: what the next sector holds. Stored poison is no new error. -/
def patrolEffect (n core bank row : Nat) (res : EccResult) (obj : Option (Nat × Word × Nat)) (s : Block) : Block :=
  let s := s.patrolled
  match res with
  | .clean => s
  | .storedPoison => s
  | .corrected => s.corrected n core bank row obj
  | .uncorrectable => s.patrolUe n core bank row obj

/-- PATROL_READ, while the patrol reads. -/
def effPatrolRead (n core bank row : Nat) (res : EccResult) (obj : Option (Nat × Word × Nat)) (s : Block) : Block :=
  if patrolOn n s then patrolEffect n core bank row res obj s else s

/-- ROW_COUNT_DECAY: every count is halved. -/
def effRowCountDecay (s : Block) : Block :=
  { s with err := { s.err with stk := (kmap s.err.stk fun _ x =>
      { x with rows := (x.rows.map fun e => (e.1, e.2 / 2)).filter fun e => e.2 != 0 }).filter fun e => e.2 != StackErr.reset } }

/-! ### Re-fetches (R469, R470) -/

/-- The re-fetch of a frame under way. -/
def Block.refetchOf (s : Block) (p : Nat) (h : Word) (fr : Nat) : Option Refetch :=
  s.err.refetches.find? fun r => r.part == p && r.handle == h && r.frame == fr

/-- The marked sectors of a frame. -/
def Obj.markedIn (o : Obj) (fr : Nat) : List Nat := o.data.poison.filter fun x => o.frameHolds fr (x * 32)

/-- Can these sectors of an object's golden copy be read now? -/
def Block.goldenUp (s : Block) (o : Obj) (l : List Nat) : Bool :=
  if o.golden = 1 then
    !s.dmaStopped o.owner && l.all fun x => s.hostOk (o.g0.toNat + 2 ^ 32 * o.g1.toNat + x * 32) 32
  else s.goldenOk o.owner o.golden o.g0 o.g1 0

/-- The marked sectors taken from the golden copy. -/
def Block.restore (s : Block) (p : Nat) (h : Word) (o : Obj) (l : List Nat) : Block :=
  s.each l fun s x =>
    let r := s.goldenRead o.golden o.g0 o.g1 (x * 32) 32
    r.2.modObj p (hSlot h) fun o => { o with data := o.data.put (x * 32) r.1 }

/-- A re-fetch struck off, and PENDING lowered. -/
def Block.refetchOver (s : Block) (p : Nat) (h : Word) (fr : Nat) : Block :=
  let l := s.err.refetches.filter fun r => !(r.part == p && r.handle == h && r.frame == fr)
  let s := { s with err := { s.err with refetches := l } }
  s.wf ERR_REFETCH 15 0 (s.fld ERR_REFETCH 15 0 - 1)

/-- Where a frame lies in its object's view: the lowest offset that the list of its sectors gives. -/
def frameOff (l : List Nat) : Nat := (l.map (· * 32)).foldl min (l.headD 0 * 32) / frameBytes * frameBytes

/-- REFETCH_COMPLETE: the fresh frame switches in (R469 steps 2 to 4). -/
def refetchEffect (p : Nat) (h : Word) (fr : Nat) (s : Block) : Block :=
  match s.byHandle p h with
  | none => s.refetchOver p h fr
  | some o =>
    let l := o.markedIn fr
    let s := s.restore p h o l
    let s := s.each (o.frames[fr]?).toList fun s f => (s.copyFrame p h o fr f.stack f.stack).flushFrame p h o fr f.stack
    ((s.refetchOver p h fr).bump ERR_CNT_REFETCH).event (srcCore 2) 0x0506 [h, w32 (frameOff l), w32 (frameOff l / 2 ^ 32), w32 l.length, w32 o.golden]

/-- May a re-fetch complete: PLACE acts and the golden copy can be read? -/
def refetchReady (p : Nat) (h : Word) (fr : Nat) (s : Block) : Bool :=
  (s.refetchOf p h fr).isSome && s.coreUp 2 && match s.byHandle p h with
    | none => true
    | some o => s.goldenUp o (o.markedIn fr)

/-- REFETCH_COMPLETE, when it may. -/
def effRefetchComplete (p : Nat) (h : Word) (fr : Nat) (s : Block) : Block :=
  if refetchReady p h fr s then refetchEffect p h fr s else s

/-- Does the read of a re-fetch fail? -/
def refetchFails (p : Nat) (h : Word) (fr : Nat) (s : Block) : Bool :=
  (s.refetchOf p h fr).isSome && s.coreUp 2 && match s.byHandle p h with
    | none => false
    | some o => !s.goldenUp o (o.markedIn fr)

/-- REFETCH_RETRY: a failed read is repeated, and fails. -/
def effRefetchRetry (p : Nat) (h : Word) (fr : Nat) (s : Block) : Block :=
  if refetchFails p h fr s then
    let mark (r : Refetch) : Refetch := if r.part == p && r.handle == h && r.frame == fr then { r with failing := true } else r
    { s with err := { s.err with refetches := s.err.refetches.map mark } }
  else s

/-- TIMEOUT_MS in nanoseconds. -/
def Block.refetchBound (s : Block) : Nat := max 1 (s.fld ERR_REFETCH 31 16) * 1000000

/-- Has a re-fetch failed for TIMEOUT_MS? -/
def refetchLate (p : Nat) (h : Word) (fr : Nat) (s : Block) : Bool :=
  refetchFails p h fr s && match s.refetchOf p h fr with
    | some r => r.failing && decide (r.began + s.refetchBound ≤ s.now)
    | none => false

/-- REFETCH_TIMEOUT: the re-fetch is abandoned and the object damaged. Cause 0 host, 1 peer. -/
def refetchTimeoutEffect (p : Nat) (h : Word) (fr : Nat) (s : Block) : Block :=
  match s.byHandle p h with
  | none => s
  | some o =>
    let s := (s.refetchOver p h fr).modObj p (hSlot h) fun o => { o with damaged := true }
    let off := frameOff (o.markedIn fr)
    s.event (srcCore 2) 0x0507 [h, w32 off, w32 (off / 2 ^ 32), w32 (if o.golden = 1 then 0 else 1)]

/-- REFETCH_TIMEOUT, when it is due. -/
def effRefetchTimeout (p : Nat) (h : Word) (fr : Nat) (s : Block) : Block :=
  if refetchLate p h fr s then refetchTimeoutEffect p h fr s else s

/-! ### TSV_PATH_FAIL (R474) -/

/-- Spare paths of a channel. -/
def sparePaths : Nat := 2

/-- A path fails: a spare takes its place, or the channel's group stops until a cold start. -/
def tsvEffect (n ch bit : Nat) (s : Block) : Block :=
  let used := tget 0 (s.stackErr n).paths ch
  if used < sparePaths then
    (s.modStackErr n fun x => { x with paths := tset 0 x.paths ch (used + 1) }).event srcHealth 0x0509
      [w32 n, w32 ch, w32 bit, w32 (sparePaths - used - 1)]
  else
    let g := ch / 2
    let r := s.stopGroup n g
    r.2.modStackErr n fun x => { x with groupsDown := if x.groupsDown.contains g then x.groupsDown else x.groupsDown ++ [g] }

/-- TSV_PATH_FAIL, of a trained stack. -/
def effTsvPathFail (n ch bit : Nat) (s : Block) : Block :=
  if s.pwr.pwrGood ∧ n < 24 ∧ ch < 16 ∧ bit < 128 ∧ s.bit (STK_STATE n) 16 then tsvEffect n ch bit s else s

/-! ### Meanings -/

/-- The meaning of PATROL_READ. -/
def execPatrolRead (n : Nat) (core : Nat) (bank : Nat) (row : Nat) (res : EccResult) (obj : Option (Nat × Word × Nat)) : State → Host.Outcome State Fault Refusal := onBlk (effPatrolRead n core bank row res obj)
/-- The meaning of ROW_COUNT_DECAY. -/
def execRowCountDecay : State → Host.Outcome State Fault Refusal := onBlk effRowCountDecay
/-- The meaning of REFETCH_COMPLETE. -/
def execRefetchComplete (p : Nat) (h : Word) (fr : Nat) : State → Host.Outcome State Fault Refusal := onBlk (effRefetchComplete p h fr)
/-- The meaning of REFETCH_RETRY. -/
def execRefetchRetry (p : Nat) (h : Word) (fr : Nat) : State → Host.Outcome State Fault Refusal := onBlk (effRefetchRetry p h fr)
/-- The meaning of REFETCH_TIMEOUT. -/
def execRefetchTimeout (p : Nat) (h : Word) (fr : Nat) : State → Host.Outcome State Fault Refusal := onBlk (effRefetchTimeout p h fr)
/-- The meaning of TSV_PATH_FAIL. -/
def execTsvPathFail (n : Nat) (ch : Nat) (bit : Nat) : State → Host.Outcome State Fault Refusal := onBlk (effTsvPathFail n ch bit)

end Sys2Proof.Machine
end

