-- ==== Sys2Proof/Machine/Ledgers.lean ====
section
/-! DEFINITION. The ledgers as they are read and audited (R336 to R346). -/

namespace Sys2Proof.Machine

/-! ### LEDGER_SNAPSHOT (R340) -/

/-- Has an index a ledger (R338)? -/
def ledgerOk (n : Nat) : Bool :=
  decide (n < 0xB0) || decide (0x100 ≤ n ∧ n < 0x1A1) || decide (0x1C0 ≤ n ∧ n < 0x1E1) || decide (0x200 ≤ n ∧ n < 0x241) || n == 0x250

/-- May an initiator read BAR0: the PF, or the sideband? -/
def reads0 (i : Nat) : Bool := i == 0 || i == 64

/-- The four counts of a ledger latched for the reader. -/
def snapshotEffect (i n : Nat) (s : Block) : Block :=
  { s with latches := { s.latches with ldg := kput s.latches.ldg i (s.ledger n) } }

/-- LEDGER_SNAPSHOT: a read of LDG_FREE of a ledger. -/
def effLedgerSnapshot (i n : Nat) (s : Block) : Block := if reads0 i && ledgerOk n then snapshotEffect i n s else s

/-! ### LEDGER_AUDIT (R338, R346) -/

/-- Pages of a tier that a copy or a zero-fill holds in FLIGHT (R338). What is neither held nor in FLIGHT is the tier's free
list. -/
def Block.tierFlight (s : Block) (p t : Nat) : Nat :=
  ((s.snowOf p).pages.map fun g => b2n (locTier g.2.loc == t && g.2.zeroing) + b2n (g.2.dest.any fun d => locTier d == t)).sum

/-- Does a count of a ledger agree with the hardware that its pool lives in? `none` where the audit compares nothing more.
The energy ledger is compared at the close of its window. -/
def Block.crossCheck (s : Block) (n : Nat) : Bool :=
  let l := s.ledger n
  if n < 0x80 then true
  else if n < 0xA0 then l.held + l.flight == ((s.cl (n - 0x80)).queues.map fun q => q.2.length).sum
  else if n < 0xB0 then
    l.held + l.flight == (((List.range 256).map fun k => let x := s.fu ((n - 0xA0) * 256 + k)
      x.queue.length + b2n x.running.isSome).sum)
  else if n < 0x180 then
    let p := (n - 0x100) / 4
    let t := n % 4
    l.held == s.tierHeld p t && l.flight == s.tierFlight p t
  else if n < 0x1A0 then l.free == 0
  else if n < 0x1C0 then true
  else if n < 0x1E0 then
    let p := n - 0x1C0
    let job := (s.jobs.filter fun e => e.2.part == p).flatMap fun e => e.2.sems ++ (e.2.savedSems)
    let here := (s.clusters.filter fun e => match e.2.job.bind s.jobAt with | some J => J.part == p | none => false).flatMap
      fun e => e.2.sems
    l.free == (((job ++ here).map fun e => e.2.count).sum)
  else if n = 0x1E0 then l.free == ((s.sems.map fun e => e.2.count).sum)
  else if n < 0x240 then
    l.held + l.flight == ((List.range 4).map fun k => b2n (s.full (chBase (.fn (n - 0x200) k))) + b2n (s.full (chBack (.fn (n - 0x200) k)))).sum
  else if n = 0x240 then
    l.held + l.flight == ([s0Base, s0Base + 0x100, s1Base, s1Base + 0x100].map fun a => b2n (s.full a)).sum
  else if n = 0x250 then
    l.flight == ((s.fns.flatMap fun e => e.2.held).map fun | .write _ bs => heldUnits bs | .entry _ _ => 0).sum
  else true

/-- Every ledger's index. -/
def ledgerList : List Nat := (List.range 0x251).filter ledgerOk

/-- One ledger audited: its equation, then its comparison. -/
def Block.auditOne (s : Block) (n : Nat) : Block :=
  if !(s.ledger n).ok then s.raiseBreach n 1 [] else if !s.crossCheck n then s.raiseBreach n 2 [] else s

/-- Step 3 of a breach: every job and request ends with LEDGER_BREACH (R346). -/
def Block.breachEnds (s : Block) : Block :=
  let s := s.killJobs LEDGER_BREACH false
  s.each (s.reqs.filter fun e => e.2.live) fun s e => s.endReq e.1 0 LEDGER_BREACH 0

/-- A pass of the audit over every ledger. -/
def Block.audit (s : Block) : Block :=
  if s.bit LDG_STATUS 1 then (s.each ledgerList fun s n => s.auditOne n).bump LDG_AUDITS else s

/-- LEDGER_AUDIT: a pass, and the end of all work when the module is in breach. -/
def effLedgerAudit (s : Block) : Block :=
  let s := s.audit
  if s.inBreach then s.breachEnds else s

/-! ### Meanings -/

/-- The meaning of LEDGER_SNAPSHOT. -/
def execLedgerSnapshot (i : Nat) (n : Nat) : State → Host.Outcome State Fault Refusal := onBlk (effLedgerSnapshot i n)
/-- The meaning of LEDGER_AUDIT. -/
def execLedgerAudit : State → Host.Outcome State Fault Refusal := onBlk effLedgerAudit

end Sys2Proof.Machine
end

