-- ==== Sys2Proof/Machine/Host.lean ====
section
/-! DEFINITION. The host attachment: doorbells and submission queues, completion rings and their messages, the
mailboxes, the device-memory aperture, function resets and bus-master enable (R246, R300 to R304, R327, R375 to
R400). -/

namespace Sys2Proof.Machine

/-! ### Submission queues and doorbells (R382 to R385) -/

/-- A submission queue of a function. -/
def Block.hostQueue (s : Block) (f q : Nat) : Option HostQueue := kget (s.fn f).queues q
/-- A completion ring of a function. -/
def Block.ring (s : Block) (f r : Nat) : Option Ring := kget (s.fn f).rings r
/-- A submission queue changed. -/
def Block.modQueue (s : Block) (f q : Nat) (g : HostQueue → HostQueue) : Block :=
  s.modFn f fun x => { x with queues := kmod x.queues q g }
/-- HEAD of a submission queue. -/
def Block.sqHead (s : Block) (f q : Nat) : Nat := s.fld (SQ_HEAD f q) 15 0

/-- A write to DB_q: the new tail, or a discarded doorbell (R383). -/
def doorbellEffect (f q t : Nat) (s : Block) : Block :=
  match s.hostQueue f q with
  | none => s.bump (HIF_CNT f 0)
  | some x =>
    if 2 ^ x.k ≤ t then s.bump (HIF_CNT f 0)
    else s.modQueue f q fun x => { x with tail := t, stopped := false }

/-- DOORBELL. -/
def effDoorbell (f q : Nat) (v : Word) (s : Block) : Block :=
  if f < 64 ∧ q < 64 then doorbellEffect f q (v.fld 15 0) s else s

/-- Bytes of an entry of a queue. -/
def HostQueue.size (x : HostQueue) : Nat := if x.request then 128 else 64

/-- The queue of a kind from which the device may take an entry now (R327, R383, R387, R410). -/
def Block.takeable (s : Block) (f q : Nat) (request : Bool) : Option HostQueue :=
  match s.hostQueue f q with
  | none => none
  | some x =>
    if x.request = request ∧ s.sqHead f q ≠ x.tail ∧ !x.stopped ∧ !s.dmaStopped f ∧ heldEntries (s.fn f).held < 4096 ∧
        s.coreUp (if request then 4 else 1) then some x else none

/-- The entry at the head taken, with its words; an entry that cannot be read stops the queue (R383). The
translation of its page is kept (R304). -/
def Block.takeEntry (s : Block) (f q : Nat) (x : HostQueue) : Option (List Word) × Block :=
  let h := s.sqHead f q
  let a := x.addr + x.size * h
  if s.hostOk a x.size then
    let s := s.wf (SQ_HEAD f q) 15 0 ((h + 1) % 2 ^ x.k)
    let s := s.modFn f fun y => { y with ats := if y.ats.contains (a / 4096) then y.ats else a / 4096 :: y.ats }
    (some (bytesWords (x.size / 4) (s.hostRead a x.size)), s)
  else (none, (s.modQueue f q fun y => { y with stopped := true }).bump (HIF_CNT f 4))

/-- A job refused as it is taken: its record and its completion entry (R384, R385). -/
def Block.refuseJob (s : Block) (J : Job) (st : Nat) : Block :=
  let j := s.nextJob
  let s := ({ s with nextJob := j + 1 }).countEnded J.fn J.cls
  let s := if J.recAddr = 0 then s else s.hostWrite J.fn J.recAddr (wordsBytes (jobRecord J st))
  s.ringEntry J.fn J.ring (jobEntry 1 j J st 0 0 0xFF)

/-- The status with which a job ends before it is made ready (R311, R346, R384). -/
def Block.jobStatus (s : Block) (J : Job) : Option Nat :=
  if s.inBreach then some LEDGER_BREACH
  else if (s.part J.part).isNone then some (DENIED 0xD9)
  else match kget s.bundles J.bundle with
    | some b => if b.part = J.part then none else some (REFUSED 0x27)
    | none => some (REFUSED 0x27)

/-- A job descriptor taken. -/
def jobTakenEffect (f q : Nat) (x : HostQueue) (s : Block) : Block :=
  match s.takeEntry f q x with
  | (none, s) => s
  | (some d, s) =>
    let J := Job.fresh ((mreg d 0).fld 15 0) (s.fnPart f) f q x.ring (s.fld (SCH_C_CFG f) 7 6) d none
    match s.jobStatus J with
    | some st => s.refuseJob J st
    | none => (s.addJob J).2

/-- JOB_SUBMIT. -/
def effJobSubmit (f q : Nat) (s : Block) : Block :=
  match s.takeable f q false with
  | some x => jobTakenEffect f q x s
  | none => s

/-- A request descriptor taken. -/
def requestTakenEffect (f q : Nat) (x : HostQueue) (s : Block) : Block :=
  match s.takeEntry f q x with
  | (none, s) => s
  | (some d, s) =>
    if s.inBreach then
      let r := Req.fresh f q x.ring d s.now
      s.ringEntry f x.ring (progressWords 0 r 0 LEDGER_BREACH 0)
    else s.submitReq f q x.ring d

/-- REQUEST_SUBMIT. -/
def effRequestSubmit (f q : Nat) (s : Block) : Block :=
  match s.takeable f q true with
  | some x => requestTakenEffect f q x s
  | none => s

/-! ### Completion rings (R387, R388) -/

/-- A write to RING_HEAD_r: entries consumed and held ones delivered, or a discarded write. A ring that does not
exist has no entry to consume. -/
def ringHeadEffect (f r v : Nat) (s : Block) : Block :=
  let old := s.fld (RING_HEAD f r) 15 0
  match s.ring f r with
  | none => if v = old then s else s.bump (HIF_CNT f 0)
  | some x =>
    let n := (v + (2 ^ x.k - old)) % 2 ^ x.k
    if x.filled < n then s.bump (HIF_CNT f 0)
    else
      let s := s.wf (RING_HEAD f r) 15 0 ((old + n) % 2 ^ x.k)
      (s.modFn f fun y => { y with rings := kmod y.rings r fun x => { x with filled := x.filled - n } }).flushHeld f

/-- RING_HEAD_WRITE. -/
def effRingHeadWrite (f r : Nat) (v : Word) (s : Block) : Block :=
  if f < 64 ∧ r < 64 then ringHeadEffect f r (v.fld 15 0) s else s

/-- Is a ring's message due: COAL_US have passed since the first entry not announced? -/
def coalesceDue (f r : Nat) (s : Block) : Bool :=
  match s.ring f r with
  | some x => decide (0 < x.unann ∧ x.since + x.coalUs * 1000 ≤ s.now) && !s.dmaStopped f
  | none => false

/-- The ring's message. -/
def coalesceEffect (f r : Nat) (s : Block) : Block :=
  match s.ring f r with
  | some x => (s.modFn f fun y => { y with rings := kmod y.rings r fun x => { x with unann := 0 } }).msix f x.vector
  | none => s

/-- COALESCE_TIMER. -/
def effCoalesceTimer (f r : Nat) (s : Block) : Block := if coalesceDue f r s then coalesceEffect f r s else s

/-! ### Mailboxes (R390 to R395) -/

/-- Has pair S1 a request outstanding? -/
def Block.s1Busy (s : Block) : Bool := s.full s1Base || (s.box s1Base).owed

/-- A message sent: FULL, its length and its place in the ledger. On the sideband its registers come with it. -/
def mailboxSendEffect (ch : Chan) (len : Nat) (side : List Word) (s : Block) : Block :=
  let a := chBase ch
  let s := if ch = .s1 then s.boxData a (side.take len) else s
  let s := (s.wb (a + 0x44) 0 true).setBox a { s.box a with len := len }
  s.chLed ch fun s n => s.ledTake n 1

/-- A write that meets FULL (R391); the sideband has no counter. -/
def Block.overrun (s : Block) (ch : Chan) : Block :=
  let s := s.wb (chBase ch + 0x44) 1 true
  if chFn ch < 64 then s.bump (HIF_CNT (chFn ch) 2) else s

/-- A GO. -/
def mailboxGoEffect (ch : Chan) (v : Word) (side : List Word) (s : Block) : Block :=
  if ch = .s1 ∧ s.s1Busy then s.reply ch [side.getD 0 0, w32 (BUSY 0x26)]
  else if s.full (chBase ch) then s.overrun ch
  else if 8 ≤ v.fld 4 0 ∧ v.fld 4 0 ≤ 16 then mailboxSendEffect ch (v.fld 4 0) side s
  else s.wb (chBase ch + 0x44) 2 true

/-- MAILBOX_GO. The path of fabric messages has no MBX_CTRL. -/
def effMailboxGo (ch : Chan) (v : Word) (sideband : List Word) (s : Block) : Block :=
  if chOk ch ∧ ch ≠ .mgmt ∧ v.bit 8 then mailboxGoEffect ch v sideband s else s

/-- The reader has read a reply: the channel is free, and the next reply is written. -/
def replyReadEffect (ch : Chan) (s : Block) : Block :=
  let a := chBack ch
  let s := (s.wf (a + 0x44) 12 0 0).setBox a { s.box a with len := 0 }
  let s := s.chLed ch fun s n => (s.ledSend n 1).ledLand n 1
  s.pumpReply ch

/-- MAILBOX_DATA_LAST_READ. -/
def effMailboxDataLastRead (ch : Chan) (s : Block) : Block :=
  if chOk ch && s.full (chBack ch) then replyReadEffect ch s else s

/-! ### The device-memory aperture (R300, R380, R381) -/

/-- The window of an aperture offset, when it is enabled. -/
def Block.window (s : Block) (f off : Nat) : Option Window := kget (s.fn f).windows (off / 2 ^ 32)

/-- The view offset of aperture byte `i` of an access at `off`, when the window covers it and the module holds
it: not padding, not another module's piece. -/
def apertureByte (w : Window) (o : Obj) (off i : Nat) : Option Nat :=
  let x := off % 2 ^ 32 + i
  let v := w.base + x
  if x < w.size * frameBytes ∧ (sectOf o.desc v).isSome ∧ o.ownPiece v 1 then some v else none

/-- Does an access of the host reach this byte of an object: is the channel group RUNNING that holds it in every copy that
the access reaches (R113)? -/
def Block.apertureUp (s : Block) (f : Nat) (w : Window) (o : Obj) (off : Nat) (wr : Bool) (i : Nat) : Bool :=
  (s.reached (s.fnPart f) 0 o wr).all fun c => s.copyUp o (if wr then c else 0) (w.base + off % 2 ^ 32 + i)

/-- What a host read of `n` aperture bytes returns (R381). A byte in a channel group that is not RUNNING returns an open
value. -/
def bar4Bytes (s : Block) (f off n : Nat) : List Byte :=
  match s.window f off with
  | none => List.replicate n 0
  | some w =>
    match s.byHandle (s.fnPart f) w.handle with
    | none => List.replicate n 0
    | some o => (List.range n).map fun i =>
        match apertureByte w o off i with
        | some v => if s.apertureUp f w o off false i then (o.read v 1).getD 0 0 else BitVec.ofNat 8 (Config.free (s.freeCtr + i))
        | none => 0

/-- The runs of numbers below `n` that satisfy a test, as start and length. -/
def runsBelow (f : Nat → Bool) : Nat → List (Nat × Nat)
  | 0 => []
  | n + 1 =>
    match runsBelow f n with
    | (a, k) :: rest => if f n then (if a + k = n then (a, k + 1) :: rest else (n, 1) :: (a, k) :: rest) else (a, k) :: rest
    | [] => if f n then [(n, 1)] else []

/-- The runs of an access that land in an object. -/
def apertureRuns (w : Window) (o : Obj) (off n : Nat) : List (Nat × Nat) :=
  runsBelow (fun i => (apertureByte w o off i).isSome) n

/-- The parts of runs that an access reaches. -/
def Block.runsUp (s : Block) (f : Nat) (w : Window) (o : Obj) (off n : Nat) (wr : Bool) (runs : List (Nat × Nat)) : List (Nat × Nat) :=
  runsBelow (fun i => (runs.any fun r => decide (r.1 ≤ i ∧ i < r.1 + r.2)) && s.apertureUp f w o off wr i) n

/-- An access under R381 with a byte outside what it may reach is counted. -/
def Block.winDrop (s : Block) (f n : Nat) (runs : List (Nat × Nat)) : Block :=
  if (runs.map (·.2)).sum < n then s.bump (HIF_CNT f 1) else s

/-- A host read served: its traffic, and the consumption of poison. -/
def bar4ReadEffect (f off n : Nat) (s : Block) : Block :=
  match s.window f off with
  | none => s.winDrop f n []
  | some w =>
    let p := s.fnPart f
    match s.byHandle p w.handle with
    | none => s.winDrop f n []
    | some o =>
      let runs := apertureRuns w o off n
      let at_ (i : Nat) := w.base + off % 2 ^ 32 + i
      let s := s.winDrop f n runs
      let runs := s.runsUp f w o off n false runs
      let s := s.each runs fun s r => s.traffic p w.handle 0 (at_ r.1) r.2 1 false (decide (r.2 ≤ 32))
      match (s.byHandle p w.handle).bind fun o => runs.findSome? fun r => o.badSector (at_ r.1) r.2 with
      | some b => s.consumed 6 f w.handle b
      | none => s

/-- BAR4_READ: it finds the banks as the units' write queues have left them (R126, R133). -/
def effBar4Read (f off len : Nat) (s : Block) : Block :=
  if f < 64 ∧ off < 2 ^ 36 ∧ 0 < len then (bar4ReadEffect f off len s.firnSettle).repairMet else s

/-- A host write performed at its point of coherence, every copy included. -/
def bar4WriteEffect (f off : Nat) (data : List Byte) (s : Block) : Block :=
  match s.window f off with
  | none => s.winDrop f data.length []
  | some w =>
    let p := s.fnPart f
    match s.byHandle p w.handle with
    | none => s.winDrop f data.length []
    | some o =>
      let runs := if w.readOnly then [] else apertureRuns w o off data.length
      let at_ (i : Nat) := w.base + off % 2 ^ 32 + i
      let s := s.winDrop f data.length runs
      s.each (s.runsUp f w o off data.length true runs) fun s r =>
        (s.traffic p w.handle 0 (at_ r.1) r.2 1 true (decide (r.2 ≤ 32))).performWrite p (hSlot w.handle) (at_ r.1)
          ((data.drop r.1).take r.2) []

/-- BAR4_WRITE. -/
def effBar4Write (f off : Nat) (data : List Byte) (s : Block) : Block :=
  if f < 64 ∧ off < 2 ^ 36 ∧ data ≠ [] then bar4WriteEffect f off data s else s

/-! ### Messages (R380, R382, R397, R398) -/

/-- QUEUE_CREATE. -/
def effQueueCreate (ch : Chan) (s : Block) : Block :=
  s.message ch 0x0201 fun s ws =>
    let f := chFn ch
    let r1 := mreg ws 1
    let q := r1.fld 5 0
    let k := r1.fld 12 8
    let a := mpair ws 2
    let r := r1.fld 21 16
    if (s.hostQueue f q).isSome ∨ k < 4 ∨ 16 < k ∨ a % 4096 ≠ 0 ∨ (s.ring f r).isNone then s.no (REFUSED 0x20)
    else
      let x : HostQueue := { request := r1.bit 6, k := k, ring := r, addr := a, r1 := r1, tail := 0, stopped := false }
      ((s.modFn f fun y => { y with queues := kput y.queues q x }).wr (SQ_HEAD f q) 0).yes

/-- Has a queue work that has not ended? -/
def Block.queueWork (s : Block) (f q : Nat) : Bool :=
  (s.jobs.any fun e => e.2.fn == f && e.2.queue == q && e.2.step.isNone) ||
  s.reqs.any fun e => e.2.live && e.2.fn == f && e.2.queue == q

/-- QUEUE_DESTROY. -/
def effQueueDestroy (ch : Chan) (s : Block) : Block :=
  s.message ch 0x0202 fun s ws =>
    let f := chFn ch
    let q := (mreg ws 1).toNat
    match s.hostQueue f q with
    | none => s.yes
    | some x =>
      if s.sqHead f q ≠ x.tail ∨ s.queueWork f q then s.no (BUSY 0x21)
      else (s.modFn f fun y => { y with queues := kdel y.queues q }).yes

/-- MSI-X vectors of a function (R375). -/
def vectors (f : Nat) : Nat := if f = 0 then 2048 else 64

/-- RING_CREATE. -/
def effRingCreate (ch : Chan) (s : Block) : Block :=
  s.message ch 0x0203 fun s ws =>
    let f := chFn ch
    let r1 := mreg ws 1
    let r := r1.fld 5 0
    let k := r1.fld 12 8
    let a := mpair ws 2
    let v := r1.fld 26 16
    if (s.ring f r).isSome ∨ k < 4 ∨ 16 < k ∨ a % 4096 ≠ 0 ∨ vectors f ≤ v then s.no (REFUSED 0x20)
    else
      let x : Ring :=
        { k := k, addr := a, vector := v, coalUs := (mreg ws 4).fld 15 0, coalN := (mreg ws 4).fld 31 16, r1 := r1,
          filled := 0, slot := 0, csn := 1, unann := 0, since := 0 }
      ((s.modFn f fun y => { y with rings := kput y.rings r x }).wr (RING_HEAD f r) 0).yes

/-- RING_DESTROY. -/
def effRingDestroy (ch : Chan) (s : Block) : Block :=
  s.message ch 0x0204 fun s ws =>
    let f := chFn ch
    let r := (mreg ws 1).toNat
    match s.ring f r with
    | none => s.yes
    | some _ =>
      if ((s.fn f).queues.any fun e => e.2.ring == r) ∨ holdsRing (s.fn f).held r then s.no (BUSY 0x23)
      else (s.modFn f fun y => { y with rings := kdel y.rings r }).yes

/-- WINDOW_SET with ENABLE. -/
def effWindowEnable (ch : Chan) (s : Block) : Block :=
  s.messageWhen ch 0x0205 (fun ws => (mreg ws 1).bit 4) fun s ws => s.msgPart ch fun p =>
    let f := chFn ch
    let base := mpair ws 3
    let size := (mreg ws 5).toNat
    match s.nameStatus p f 0 (mreg ws 2), s.byHandle p (mreg ws 2) with
    | none, some o =>
      if base % frameBytes ≠ 0 ∨ size = 0 ∨ 2048 < size ∨ viewEnd o.desc < base + size * frameBytes then s.no (REFUSED 0x22)
      else
        let w : Window := { handle := mreg ws 2, base := base, size := size, readOnly := (mreg ws 1).bit 5 }
        (s.modFn f fun y => { y with windows := kput y.windows ((mreg ws 1).fld 3 0) w }).yes
    | some st, _ => s.no st
    | none, none => s.no (REFUSED 0x40)

/-- WINDOW_SET without ENABLE. -/
def effWindowDisable (ch : Chan) (s : Block) : Block :=
  s.messageWhen ch 0x0205 (fun ws => !(mreg ws 1).bit 4) fun s ws =>
    (s.modFn (chFn ch) fun y => { y with windows := kdel y.windows ((mreg ws 1).fld 3 0) }).yes

/-- A 64-bit host address as two registers. -/
def addrWords (a : Nat) : List Word := [w32 a, w32 (a / 2 ^ 32)]

/-- HOST_MAP_QUERY. -/
def effHostMapQuery (ch : Chan) (s : Block) : Block :=
  s.message ch 0x0206 fun s ws =>
    let f := chFn ch
    let i := (mreg ws 1).fld 9 4
    let found : Option (List Word) := match (mreg ws 1).fld 1 0 with
      | 0 => (s.hostQueue f i).map fun x => x.r1 :: addrWords x.addr
      | 1 => (s.ring f i).map fun x => x.r1 :: addrWords x.addr
      | 2 => if i < 16 then (kget (s.snowOf (s.fnPart f)).arenas (arenaKey false i)).map fun x => w32 x.mib :: addrWords x.addr
             else none
      | _ => none
    match found with
    | some l => s.yes l
    | none => s.no (REFUSED 0x20)

/-! ### Bus-master enable and the host link (R327, R328, R376, R418) -/

/-- BUS_MASTER_DISABLE: host-bound DMA stops; of the PF, driver loss is declared. -/
def effBusMasterDisable (f : Nat) (s : Block) : Block :=
  if 63 < f then s else
  let s := s.modFn f fun x => { x with busMaster := false }
  if f = 0 then s.driverLost 1 else s

/-- BUS_MASTER_ENABLE: what was held for the function is delivered. -/
def effBusMasterEnable (f : Nat) (s : Block) : Block :=
  if 63 < f then s else (s.modFn f fun x => { x with busMaster := true }).flushHeld f

/-- HOST_LINK_DOWN: the link is lost without PERST_N or hot reset. Nothing starts; the heartbeat's silence is the
driver loss. -/
def effHostLinkDown (s : Block) : Block := if s.start.linkUp then s.hostLinkFalls else s

/-- HOST_DMA_FAULT: what issued a failed DMA ends (R389). -/
def effHostDmaFault (o : DmaOwner) (s : Block) : Block :=
  match o with
  | .job j => s.endJob j (ABORTED 0x24)
  | .request _ k => s.endReq k 0 (ABORTED 0x24) 0
  | .swap p pid =>
    match s.page p pid with
    | some g => if g.dest.isSome then s.swapFailed p pid else s
    | none => s

/-- ATS_INVALIDATE: cached translations of the pages leave (R304). -/
def effAtsInvalidate (f addr pages : Nat) (s : Block) : Block :=
  if 63 < f then s else
  s.modFn f fun x => { x with ats := x.ats.filter fun p => !(decide (addr / 4096 ≤ p) && decide (p < addr / 4096 + pages)) }

/-! ### Function reset (R396) -/

/-- A function's jobs and requests end without an entry. The job of a step is SERVE's, not the function's. -/
def Block.endFnWork (s : Block) (f : Nat) : Block :=
  let s := s.each (keys (s.jobs.filter fun e => e.2.fn == f && e.2.step.isNone)) fun s j => s.killJob j (ABORTED 0x25) true
  s.each (s.reqs.filter fun e => e.2.live && e.2.fn == f) fun s e => (s.reqState e.1 .ended).countEnded f e.2.cls

/-- A function's own objects, sequences and adapters are doomed. Those that its loaded bundles declared stay with
their bundles. -/
def Block.doomOwned (s : Block) (f p : Nat) : Block :=
  let s := s.setObjects p { s.objects p with live := kmap (s.objects p).live fun _ o =>
    if o.owner = f ∧ o.bundle = 0 ∧ o.desc ≠ [] then { o with dying := true } else o }
  let s := s.setSnow p { s.snowOf p with seqs := kmap (s.snowOf p).seqs fun _ q =>
    if q.owner = f then { q with dying := true } else q }
  { s with adapters := kmap s.adapters fun _ a => if a.fn = f then { a with current := false } else a }

/-- The ledger items of a pair's channels return. -/
def Block.freePair (s : Block) (ch : Chan) : Block :=
  let one (s : Block) (a : Nat) := if s.full a then s.chLed ch fun s n => s.ledDrop n 1 else s
  let s := one (one s (chBase ch)) (chBack ch)
  (s.setBox (chBase ch) Mbx.reset).setBox (chBack ch) Mbx.reset

/-- The registers of a function's page at their reset values. -/
def Block.clearPage (s : Block) (f : Nat) : Block :=
  { s with regs := s.regs.filter fun e => !(decide (fnPage f ≤ e.1) && decide (e.1 < fnPage f + 0x10000)) }

/-- The reset of a VF. -/
def vfFlrEffect (f : Nat) (s : Block) : Block :=
  let p := s.fnPart f
  let s := (s.endFnWork f).dropHeld f
  let s := s.each [0, 1, 2, 3] fun s n => s.freePair (.fn f n)
  let s := s.clearPage f
  let s := s.modFn f fun x => { Fn.reset with busMaster := x.busMaster, ats := x.ats }
  if (s.part p).isNone then s else (((s.doomOwned f p).sweepSeqs p).sweepAdapters p).sweepDying p

/-- VF_FLR. -/
def effVfFlr (f : Nat) (s : Block) : Block := if 1 ≤ f ∧ f < 64 then vfFlrEffect f s else s

/-- The replies pending on a pair of the PF discarded. -/
def Block.dropReplies (s : Block) (ch : Chan) : Block :=
  let a := chBack ch
  let s := if s.full a then s.chLed ch fun s n => s.ledDrop n 1 else s
  let s := loop 16 (fun i s => s.wr (a + 4 * i) 0) (s.wr (a + 0x44) 0)
  (s.setBox a Mbx.reset).setBox (chBase ch) { s.box (chBase ch) with owed := false }

/-- PF_FLR. -/
def effPfFlr (s : Block) : Block :=
  let s := effBusMasterDisable 0 s
  let s := loop 63 (fun i s => vfFlrEffect (i + 1) s) s
  let s := s.each [.fn 0 0, .fn 0 1, .fn 0 2, .fn 0 3, .s0] fun s ch => s.dropReplies ch
  loop 5 (fun k s => s.wr (HIF_CNT 0 k) 0) s

/-! ### Meanings -/

/-- The meaning of DOORBELL. -/
def execDoorbell (f : Nat) (q : Nat) (v : Word) : State → Host.Outcome State Fault Refusal := onBlk (effDoorbell f q v)
/-- The meaning of JOB_SUBMIT. -/
def execJobSubmit (f : Nat) (q : Nat) : State → Host.Outcome State Fault Refusal := onBlk (effJobSubmit f q)
/-- The meaning of REQUEST_SUBMIT. -/
def execRequestSubmit (f : Nat) (q : Nat) : State → Host.Outcome State Fault Refusal := onBlk (effRequestSubmit f q)
/-- The meaning of RING_HEAD_WRITE. -/
def execRingHeadWrite (f : Nat) (r : Nat) (v : Word) : State → Host.Outcome State Fault Refusal := onBlk (effRingHeadWrite f r v)
/-- The meaning of COALESCE_TIMER. -/
def execCoalesceTimer (f : Nat) (r : Nat) : State → Host.Outcome State Fault Refusal := onBlk (effCoalesceTimer f r)
/-- The meaning of MAILBOX_GO. -/
def execMailboxGo (ch : Chan) (v : Word) (sideband : List Word) : State → Host.Outcome State Fault Refusal := onBlk (effMailboxGo ch v sideband)
/-- The meaning of MAILBOX_DATA_LAST_READ. -/
def execMailboxDataLastRead (ch : Chan) : State → Host.Outcome State Fault Refusal := onBlk (effMailboxDataLastRead ch)
/-- The meaning of BAR4_READ. -/
def execBar4Read (f : Nat) (off : Nat) (len : Nat) : State → Host.Outcome State Fault Refusal := onBlk (effBar4Read f off len)
/-- The meaning of BAR4_WRITE. -/
def execBar4Write (f : Nat) (off : Nat) (data : List Byte) : State → Host.Outcome State Fault Refusal := onBlk (effBar4Write f off data)
/-- The meaning of QUEUE_CREATE. -/
def execQueueCreate (ch : Chan) : State → Host.Outcome State Fault Refusal := onBlk (effQueueCreate ch)
/-- The meaning of QUEUE_DESTROY. -/
def execQueueDestroy (ch : Chan) : State → Host.Outcome State Fault Refusal := onBlk (effQueueDestroy ch)
/-- The meaning of RING_CREATE. -/
def execRingCreate (ch : Chan) : State → Host.Outcome State Fault Refusal := onBlk (effRingCreate ch)
/-- The meaning of RING_DESTROY. -/
def execRingDestroy (ch : Chan) : State → Host.Outcome State Fault Refusal := onBlk (effRingDestroy ch)
/-- The meaning of WINDOW_ENABLE. -/
def execWindowEnable (ch : Chan) : State → Host.Outcome State Fault Refusal := onBlk (effWindowEnable ch)
/-- The meaning of WINDOW_DISABLE. -/
def execWindowDisable (ch : Chan) : State → Host.Outcome State Fault Refusal := onBlk (effWindowDisable ch)
/-- The meaning of HOST_MAP_QUERY. -/
def execHostMapQuery (ch : Chan) : State → Host.Outcome State Fault Refusal := onBlk (effHostMapQuery ch)
/-- The meaning of VF_FLR. -/
def execVfFlr (f : Nat) : State → Host.Outcome State Fault Refusal := onBlk (effVfFlr f)
/-- The meaning of PF_FLR. -/
def execPfFlr : State → Host.Outcome State Fault Refusal := onBlk effPfFlr
/-- The meaning of BUS_MASTER_DISABLE. -/
def execBusMasterDisable (f : Nat) : State → Host.Outcome State Fault Refusal := onBlk (effBusMasterDisable f)
/-- The meaning of BUS_MASTER_ENABLE. -/
def execBusMasterEnable (f : Nat) : State → Host.Outcome State Fault Refusal := onBlk (effBusMasterEnable f)
/-- The meaning of HOST_LINK_DOWN. -/
def execHostLinkDown : State → Host.Outcome State Fault Refusal := onBlk effHostLinkDown
/-- The meaning of HOST_DMA_FAULT. -/
def execHostDmaFault (o : DmaOwner) : State → Host.Outcome State Fault Refusal := onBlk (effHostDmaFault o)
/-- The meaning of ATS_INVALIDATE. -/
def execAtsInvalidate (f : Nat) (addr : Nat) (pages : Nat) : State → Host.Outcome State Fault Refusal := onBlk (effAtsInvalidate f addr pages)

end Sys2Proof.Machine
end

