-- ==== Sys2Proof/Machine/IceCore.lean ====
section
/-! DEFINITION. The ice-core event recorder (R502 to R513, R525, R527, R530): the record's bytes, the writer,
the scan, the clear, the reading latches and the messages of class 0x0B. -/

namespace Sys2Proof.Machine

/-- One byte into a CRC-16 with polynomial 0x1021 (R503). -/
def crc16Byte (crc : Nat) (b : Byte) : Nat :=
  loop 8 (fun _ c => if 0x8000 ≤ c then ((c * 2) % 0x10000) ^^^ 0x1021 else c * 2) (crc ^^^ (b.toNat * 256))

/-- CRC-16 from 0xFFFF over bytes (R503). -/
def crc16 (bs : List Byte) : Nat := bs.foldl crc16Byte 0xFFFF

/-- Bytes 0 to 59 of a record, little-endian (R503, R530). -/
def IceRec.head (r : IceRec) : List Byte :=
  leBytes 4 r.seq ++ leBytes 4 r.hours ++ leBytes 2 r.seconds ++ leBytes 2 r.event ++ leBytes 4 r.pcycles ++
  leBytes 1 r.source ++ [0xFF] ++ leBytes 2 r.lost ++ (wordsBytes r.data ++ List.replicate 32 0).take 32 ++
  leBytes 8 r.time

/-- The VALID byte (R503). A partial slot holds any other value; the model uses 0xF0, log entry 7. -/
def validByte : SlotValid → Byte
  | .erased => 0xFF
  | .valid => 0xA5
  | .cleared => 0x00
  | .part => 0xF0

/-- The 64 bytes of a slot. A slot whose CRC does not hold stores a complemented CRC; log entry 7. -/
def IceSlot.bytes (x : IceSlot) : List Byte :=
  let c := crc16 x.body.head
  x.body.head ++ leBytes 2 (if x.crcOk then c else c ^^^ 0xFFFF) ++ [0xFF, validByte x.valid]

/-- The slots of the ring (R502). -/
def ringSlots : Nat := 261632

/-- The distance in ring records from `seq` up to `last`, over the numbers 257 to 0xFFFF_FFFF (R504). -/
def iceDist (last seq : Nat) : Nat := (last + (2 ^ 32 - 257) - seq) % (2 ^ 32 - 257)

/-- The ring slots that hold a committed record which is neither cleared nor older than a cleared one, and is
among the newest 8,192 (R508, R509). -/
def IceCore.retained (c : IceCore) : Tbl IceSlot :=
  kfilter c.ring fun _ x =>
    (x.valid == .valid) && decide (iceDist c.last x.body.seq < 8192) &&
    (c.cleared == 0 || decide (iceDist c.last x.body.seq < iceDist c.last c.cleared))

/-- ICE_FIRST (R509). -/
def IceCore.first (c : IceCore) : Nat :=
  (c.retained.foldl (fun (a : Nat × Nat) p =>
    let d := iceDist c.last p.2.body.seq
    if a.1 ≤ d then (d, p.2.body.seq) else a) (0, 0)).2

/-- The number of permanent records (R513). -/
def IceCore.permCount (c : IceCore) : Nat := (kfilter c.perm fun _ x => x.valid == .valid).length

/-- The slot that a read of `seq` returns, when the device returns it (R509). -/
def IceCore.find (c : IceCore) (seq : Nat) : Option IceSlot :=
  match (c.perm.find? fun p => p.2.valid == .valid && p.2.body.seq == seq) with
  | some p => some p.2
  | none => (c.retained.find? fun p => p.2.body.seq == seq).map (·.2)

/-- A latch that no read has filled since the start (R512): PENDING. -/
def IceLatch.empty : IceLatch := { seq := 0, recState := 3, bytes := List.replicate 64 0 }

/-- The latch that a read of `seq` fills (R509). -/
def IceCore.read (c : IceCore) (seq : Nat) : IceLatch :=
  match c.find seq with
  | some x => { seq := seq, recState := if x.crcOk then 0 else 2, bytes := x.bytes }
  | none => { seq := seq, recState := 1, bytes := List.replicate 64 0 }

/-- The key of a reader's latch (R509): 0 the PF's register path, 1 the sideband's, from 2 up the channel
pairs. -/
def iceKey : Chan → Nat
  | .fn f n => 8 + 4 * f + n
  | .s0 => 2
  | .s1 => 3
  | .mgmt => 4

/-- A latch filled. -/
def Block.iceLatch (s : Block) (key seq : Nat) : Block :=
  let l := if s.ice.scanned then s.ice.read seq else { IceLatch.empty with seq := seq }
  { s with ice := { s.ice with latches := kput s.ice.latches key l } }

/-- A latch. -/
def IceCore.latch (c : IceCore) (key : Nat) : IceLatch := (kget c.latches key).getD IceLatch.empty

/-- A clear is accepted (R511): ICE_CLEARED becomes ICE_LAST, and programming begins or goes on. -/
def Block.iceClearNow (s : Block) : Block :=
  { s with ice := { s.ice with cleared := s.ice.last, clearing := some s.ice.last } }

/-- The ring slots that a clear has still to program, that is valid ones at or before ICE_CLEARED. -/
def IceCore.toClear (c : IceCore) : Tbl IceSlot :=
  kfilter c.ring fun _ x =>
    x.valid == .valid && decide (iceDist c.last c.cleared ≤ iceDist c.last x.body.seq)

/-- The newest of those slots. -/
def IceCore.nextClear (c : IceCore) : Option Nat :=
  (c.toClear.foldl (fun (a : Option (Nat × Nat)) p =>
    let d := iceDist c.last p.2.body.seq
    match a with
    | none => some (d, p.1)
    | some (e, k) => if d < e then some (d, p.1) else some (e, k)) none).map (·.2)

/-! ### Commands -/

/-- Messages of class 0x0B end with NOT_READY until the scan is complete (R508). -/
def iceScanned (s : Block) (a : Answer) : Answer := if s.ice.scanned then a else s.no (NOT_READY 0)

/-- ICE_STATUS (R512). -/
def effIceStatus (ch : Chan) (s : Block) : Block :=
  s.message ch 0x0B01 fun s _ => iceScanned s <|
    s.yes [w32 s.ice.first, w32 s.ice.last, w32 s.ice.permCount, w32 s.ice.cleared, s.rg ICE_DROPPED]

/-- ICE_READ (R512): half 0 fills the latch of the pair and returns its first half, half 1 returns the
second half of the latch. -/
def effIceRead (ch : Chan) (s : Block) : Block :=
  s.message ch 0x0B02 fun s ws => iceScanned s <|
    let half := (mreg ws 2).bit 0
    let s := if half then s else s.iceLatch (iceKey ch) (mreg ws 1).toNat
    let l := s.ice.latch (iceKey ch)
    s.yes (w32 l.seq :: w32 l.recState :: bytesWords 8 (if half then l.bytes.drop 32 else l.bytes.take 32))

/-- ICE_CLEAR (R511, R512). -/
def effIceClear (ch : Chan) (s : Block) : Block :=
  s.message ch 0x0B03 fun s ws => iceScanned s <|
    if (mreg ws 1).fld 15 0 = 0x1CE0 then
      let s := s.iceClearNow
      s.yes [w32 s.ice.cleared]
    else s.no (REFUSED 0)

/-- The number that follows a SEQ (R504). -/
def nextSeq (q : Nat) : Nat := if q = 0xFFFFFFFF then 0x101 else q + 1

/-- May the writer commit: VAON up, scanned, the flash not held, a record queued and a token, which the
records of a power-down do not need (R507, R508, R525, R527)? -/
def iceCommitReady (s : Block) : Bool :=
  s.start.powered && s.ice.scanned && !s.ice.hold && !s.ice.queue.isEmpty &&
  (decide (0 < s.ice.budget) || !s.pwr.pwrGood)

/-- Slots left as partial, from a slot on. -/
def IceCore.leave (c : IceCore) (r : IceRec) : Nat → IceCore
  | 0 => c
  | n + 1 =>
    let c := c.leave r n
    if c.perm.length < 256 ∧ r.seq ≤ 256 then
      { c with perm := kput c.perm c.perm.length { body := r, valid := .part, crcOk := false } }
    else
      { c with ring := kput c.ring c.nextSlot { body := r, valid := .part, crcOk := false },
               nextSlot := (c.nextSlot + 1) % ringSlots }

/-- The record takes the next slot: the permanent area for the first 256, then the ring, whose next sector is
erased ahead of the writer (R502, R504, R507). -/
def IceCore.commit (c : IceCore) (r : IceRec) : IceCore :=
  let x : IceSlot := { body := r, valid := .valid, crcOk := true }
  if c.perm.length < 256 ∧ r.seq ≤ 256 then { c with perm := kput c.perm c.perm.length x, last := r.seq }
  else
    let nx := (c.nextSlot / 64 + 1) % (ringSlots / 64)
    let ring := kput c.ring c.nextSlot x
    let ring := if c.nextSlot % 64 = 63 then kfilter ring fun k _ => !(k / 64 == nx) else ring
    { c with ring := ring, nextSlot := (c.nextSlot + 1) % ringSlots, last := r.seq }

/-- ICE_COMMIT (R504, R507): the head record takes the next SEQ and slot. Every third program failure in a
slot leaves it and counts in ICE_PROG_FAIL. -/
def iceCommitEffect (failures : Nat) (s : Block) : Block :=
  match s.ice.queue with
  | [] => s
  | r :: q =>
    let r := { r with seq := nextSeq s.ice.last }
    let spend := if s.pwr.pwrGood then 1 else 0
    let c := (s.ice.leave r (failures / 3)).commit r
    let s := if 0 < failures / 3 then s.bump ICE_PROG_FAIL (failures / 3) else s
    { s with ice := { c with queue := q, budget := c.budget - spend } }

/-- ICE_COMMIT, when the writer may commit. -/
def effIceCommit (failures : Nat) (s : Block) : Block :=
  if iceCommitReady s then iceCommitEffect failures s else s

/-- ICE_BUDGET_TOKEN (R507): one token, up to 1,000. -/
def effIceBudgetToken (s : Block) : Block :=
  { s with ice := { s.ice with budget := min 1000 (s.ice.budget + 1) } }

/-- The newest number of a list under the comparison of R122. -/
def newestSeq (l : List Nat) : Nat :=
  l.foldl (fun a q => if 0 < (q + 2 ^ 32 - a) % 2 ^ 32 ∧ (q + 2 ^ 32 - a) % 2 ^ 32 ≤ 0x7FFFFFFF then q else a) (l.headD 0)

/-- ICE_SCAN_DONE (R508): ICE_LAST and ICE_CLEARED from the slots, the ring's where it holds a record. -/
def effIceScanDone (s : Block) : Block :=
  if s.start.powered && !s.ice.scanned && !s.ice.hold then
    let seqs (t : Tbl IceSlot) (f : SlotValid → Bool) := (kfilter t fun _ x => f x.valid).map (·.2.body.seq)
    let inRing := seqs s.ice.ring fun v => v == .valid || v == .cleared
    let last := newestSeq (if inRing.isEmpty then seqs s.ice.perm (· == .valid) else inRing)
    let cl := newestSeq (seqs s.ice.ring (· == .cleared))
    { s with ice := { s.ice with last := last, cleared := cl, scanned := true,
                                 clearing := if cl = 0 then none else some cl } }
  else s

/-- OPERATING_HOUR (R505): the hour counter gains a bit and SECONDS restarts, while PWR_GOOD is high. -/
def effOperatingHour (s : Block) : Block :=
  if s.pwr.pwrGood then { s with ice := { s.ice with hours := s.ice.hours + 1, secNs := 0 } } else s

/-- FLASH_HOLD_ASSERT (R527): the writer pauses. A slot being written stays partial; whether one was is an
open value. -/
def effFlashHoldAssert (s : Block) : Block :=
  let busy := iceCommitReady s
  let (k, s) := s.choose 2
  let c := if busy && k == 1 then
      match s.ice.queue with
      | r :: _ => s.ice.leave { r with seq := nextSeq s.ice.last } 1
      | [] => s.ice
    else s.ice
  { s with ice := { c with hold := true } }

/-- ICE_CLEAR_PROGRAM (R511): VALID = 0x00 in the newest record still to be cleared; with the last one
CLEARING falls. -/
def effIceClearProgram (s : Block) : Block :=
  if s.ice.clearing.isSome && !s.ice.hold && s.start.powered then
    match s.ice.nextClear with
    | none => { s with ice := { s.ice with clearing := none } }
    | some k =>
      let c := { s.ice with ring := kmod s.ice.ring k fun x => { x with valid := .cleared } }
      { s with ice := { c with clearing := if c.nextClear.isSome then c.clearing else none } }
  else s

/-- The meaning of ICE_STATUS. -/
def execIceStatus (ch : Chan) : State → Host.Outcome State Fault Refusal := onBlk (effIceStatus ch)
/-- The meaning of ICE_READ. -/
def execIceRead (ch : Chan) : State → Host.Outcome State Fault Refusal := onBlk (effIceRead ch)
/-- The meaning of ICE_CLEAR. -/
def execIceClear (ch : Chan) : State → Host.Outcome State Fault Refusal := onBlk (effIceClear ch)
/-- The meaning of ICE_COMMIT. -/
def execIceCommit (failures : Nat) : State → Host.Outcome State Fault Refusal := onBlk (effIceCommit failures)
/-- The meaning of ICE_BUDGET_TOKEN. -/
def execIceBudgetToken : State → Host.Outcome State Fault Refusal := onBlk effIceBudgetToken
/-- The meaning of ICE_SCAN_DONE. -/
def execIceScanDone : State → Host.Outcome State Fault Refusal := onBlk effIceScanDone
/-- The meaning of OPERATING_HOUR. -/
def execOperatingHour : State → Host.Outcome State Fault Refusal := onBlk effOperatingHour
/-- The meaning of FLASH_HOLD_ASSERT. -/
def execFlashHoldAssert : State → Host.Outcome State Fault Refusal := onBlk effFlashHoldAssert
/-- The meaning of ICE_CLEAR_PROGRAM. -/
def execIceClearProgram : State → Host.Outcome State Fault Refusal := onBlk effIceClearProgram

end Sys2Proof.Machine
end

