-- ==== Sys2Proof/Machine/HostRegs.lean ====
section
/-! DEFINITION. Accesses to the registers: who reaches which, what a read returns, the halves of 64-bit pairs, the
values that a write stores, and writes that act (R4 to R9, R340, R377 to R379, and the register tables of each
chapter). -/

namespace Sys2Proof.Machine

/-! ### Who reaches which register -/

/-- Is an offset of BAR0 served on the sideband (R431, R447, R461, R479, R499, R513, and R114's counters)? -/
def onSideband (off : Nat) : Bool :=
  off == MOR_START || off == MOR_RESET_CAUSE || decide (0x200 ≤ off ∧ off < 0x264) ||
  decide (0x100000 ≤ off ∧ off < 0x300000) || decide (0x400000 ≤ off ∧ off < 0x500000) ||
  decide (0x700000 ≤ off ∧ off < 0x800000) || decide (0x2000000 ≤ off ∧ off < 0x2180000 ∧ 0x20 ≤ off % 0x10000 ∧ off % 0x10000 < 0x54)

/-- The register at an offset of BAR0: the PF's channels have a second view there (R378). -/
def bar0Addr (off : Nat) : Nat := if 0x301000 ≤ off ∧ off < 0x301C00 then fnPage 0 + (off - 0x300000) else off

/-- The register that an initiator reaches, if it reaches one: the PF and the sideband BAR0, a function its own
page. A VF has no BAR0 (R377). -/
def regAddr (i : Nat) (bar : Bar) (off : Nat) : Option Nat :=
  match bar with
  | .bar0 => if off % 4 = 0 ∧ off < 0x10000000 ∧ (i = 0 ∨ (i = 64 ∧ onSideband off)) then some (bar0Addr off) else none
  | .bar2 => if off % 4 = 0 ∧ off < 0x10000 ∧ i < 64 then some (fnPage i + off) else none

/-! ### What a read returns -/

/-- STATE of CCC_STATE (R207). -/
def CoreState.code : CoreState → Nat
  | .idle => 0
  | .issuing => 1
  | .stalled => 2
  | .waiting => 3
  | .broken => 4
  | .ending => 5
  | .saving => 6
  | .outOfService => 7

/-- The registers of a break comparator (R202, R207). -/
def Brk.words (b : Brk) : List Word :=
  [w32 (b2n b.en + 2 * b2n b.tagKind), w32 (if b.tagKind then b.value % 65536 + b.mask % 65536 * 65536 else b.value),
   w32 (if b.tagKind then 0 else b.value / 2 ^ 32 % 65536)]

/-- A register of a cluster's block that shows its control core (R207, R318). -/
def Block.cccRead (s : Block) (c off : Nat) : Word :=
  let k := s.cl c
  if off = 0 then
    w32 ((if k.saveReady && !k.ended && k.job.isSome then CoreState.saving else k.state).code + (if k.state == .stalled then k.stallQ else 0) * 8 + k.loops.length % 8 * 256 + k.calls.length % 8 * 2048)
  else if off = 4 then
    match k.job with
    | some j => w32 (j % 65536 + ((s.jobAt j).map (·.fn)).getD 0 % 64 * 65536 + k.stream % 32 * 4194304)
    | none => 0
  else if off = 8 then w32 k.count
  else if off = 0xC then w32 (k.count / 2 ^ 32 % 65536)
  else if off = 0x10 then w32 k.pushSeq
  else if 0x20 ≤ off ∧ off < 0x2C then k.brk0.words.getD ((off - 0x20) / 4) 0
  else if 0x30 ≤ off ∧ off < 0x3C then k.brk1.words.getD ((off - 0x30) / 4) 0
  else if off = 0x50 then w32 (min 1920 k.hwm)
  else w32 (min 64 (tget [] k.queues ((off - 0x80) / 4)).length)

/-- The registers of a cluster's block that `cccRead` shows. -/
def cccViewed (off : Nat) : Bool :=
  decide (off ≤ 0x10) || decide (0x20 ≤ off ∧ off < 0x2C) || decide (0x30 ≤ off ∧ off < 0x3C) || off == 0x50 || decide (0x80 ≤ off ∧ off < 0xE0)

/-- FLOE_STATE of a tile: SAVING while its cluster is being saved (R166, R171, R319). -/
def Block.floeStateRead (s : Block) (a c : Nat) : Word :=
  let k := s.cl c
  if k.saveReady && !k.ended && k.job.isSome && s.fld a 2 0 == 3 then (s.rg a).setFld 2 0 4 else s.rg a

/-- The lowest of the caps that apply to a unit, with the flags of those in force (R138). The energy governor's is the
floor, once the Firn units of the stack have spent their grant (R451). -/
def Block.firnRateRead (s : Block) (u : Nat) : Word :=
  let n := unitStack u
  let deep := s.bit (STK_TEMP n) 11 || !s.bit (STK_TEMP n) 8
  let caps : List (Bool × Nat × Nat) :=
    [(s.bit (FIRN_STATE u) 12, s.fld (STK_FIRN_RATE n) 7 0, 256), (s.bit (STK_TEMP n) 10, s.fld (STK_FIRN_RATE n) 15 8, 512),
     (deep, 56, 1024), (s.firnSpent (u / 256), 56, 2048)]
  let low := (caps.map fun c => if c.1 then max 56 c.2.1 else 0x96).foldl min 0x96
  w32 (low + (caps.map fun c => if c.1 ∧ max 56 c.2.1 = low then c.2.2 else 0).sum)

/-- A register of a Firn unit that shows its queue and rate (R119). -/
def Block.firnStateRead (s : Block) (u : Nat) : Word :=
  let x := s.fu u
  let w := (s.rg (FIRN_STATE u)).setFld 7 4 (min 8 (x.queue.length + b2n x.running.isSome))
  (w.setFld 11 8 (min 8 x.refDebt)).setFld 13 13 (b2n (s.bit (STK_TEMP (unitStack u)) 9))

/-- A register of the ice core as a reader's latch key sees it (R513). -/
def Block.iceRegRead (s : Block) (key off : Nat) : Word :=
  let c := s.ice
  let l := c.latch key
  if off = 0 then w32 c.first
  else if off = 4 then w32 c.last
  else if off = 8 then w32 c.cleared
  else if off = 0xC then
    w32 ((if c.scanned then c.permCount else 0) + c.queue.length * 512 + b2n c.scanned * 262144 + b2n c.clearing.isSome * 524288 +
      b2n (c.budget == 0) * 1048576)
  else if off = 0x14 then w32 l.recState
  else if off = 0x20 then w32 c.hours
  else if off = 0x24 then w32 c.pcycles
  else if 0x40 ≤ off ∧ off < 0x80 then wordAt l.bytes ((off - 0x40) / 4)
  else s.rg (ICE_FIRST + off)

/-- A register of a ledger for an initiator: the counts but FREE come from its latch (R340). -/
def Block.ledgerRead (s : Block) (i n k : Nat) : Word :=
  let l := tget Ledger.zero s.latches.ldg i
  w32 (if k = 0 then (s.ledger n).free else if k = 1 then l.held else if k = 2 then l.flight else l.total)

/-- Seconds left of GRACE, while the driver is lost (R331). -/
def Block.graceLeft (s : Block) : Nat :=
  ceilDiv (s.lostAt + s.fld SCH_DRV 15 4 * 1000000000 - s.now) 1000000000

/-- The value that initiator `i` reads from the register at `a`, before the latch of R7. -/
def readReg (s : Block) (i a : Nat) : Word :=
  if 0x501000 ≤ a ∧ a < 0x501000 + 16 * 0x251 then
    (if ledgerOk ((a - 0x501000) / 16) then s.ledgerRead i ((a - 0x501000) / 16) ((a - 0x501000) % 16 / 4) else 0)
  else if 0x400000 ≤ a ∧ a < 0x400080 then s.iceRegRead (if i = 64 then 1 else 0) (a - 0x400000)
  else if 0x1000000 ≤ a ∧ a < 0x2000000 ∧ 0x100000 ≤ a % 0x400000 ∧ a % 0x400000 < 0x300000 ∧ cccViewed (a % 0x40000) then
    s.cccRead ((a - 0x1000000) / 0x400000 * 8 + (a % 0x400000 - 0x100000) / 0x40000) (a % 0x40000)
  else if 0x1000000 ≤ a ∧ a < 0x2000000 ∧ 0x100000 ≤ a % 0x400000 ∧ a % 0x400000 < 0x300000 ∧
      0x8000 ≤ a % 0x40000 ∧ a % 0x40000 < 0x28000 ∧ a % 0x4000 = 8 then
    s.floeStateRead a ((a - 0x1000000) / 0x400000 * 8 + (a % 0x400000 - 0x100000) / 0x40000)
  else if 0x4000000 ≤ a ∧ a < 0x5000000 ∧ a % 0x1000 = 8 then s.firnStateRead ((a - 0x4000000) / 0x1000)
  else if 0x4000000 ≤ a ∧ a < 0x5000000 ∧ a % 0x1000 = 0xC then s.firnRateRead ((a - 0x4000000) / 0x1000)
  else if a = CLK_STATUS then (s.rg a).setFld 3 3 (b2n s.altReady)
  else if a = SCH_DRV then (if s.lost then (s.rg a).setFld 15 4 s.graceLeft else s.rg a)
  else if a = ESK_OUTSTANDING then w32 s.esk.out.length
  else if a = SNW_TREE_FREE then w32 (524288 - s.nodeCount)
  else if 0x6200000 ≤ a ∧ a < 0x6202000 then
    let p := (a - 0x6200000) / 256
    if a % 256 = 0xC then w32 (s.ledger (pageLedger p 0)).free
    else if a % 256 = 0x10 then w32 (s.ledger (pageLedger p 1)).free
    else if a % 256 = 0x14 then w32 (s.snowOf p).seqs.length
    else s.rg a
  else if 0x6400000 ≤ a ∧ a < 0x6402000 ∧ a % 256 = 0x1C then w32 (s.partReqs ((a - 0x6400000) / 256)).length
  else s.rg a

/-! ### The halves of a pair (R7) -/

/-- The _LO registers of the map: base and dimensions. -/
def loRows : List (Nat × List (Nat × Nat)) :=
  [(CLK_TB_LO, []), (PWR_ENERGY_LO, []), (RIME_SET_ID_LO, []), (ERR_LAST_UE_OFF_LO, []),
   (ESK_CNT_TX_LO 0, [(16, 0x80000), (2, 8)]), (SRC_MSC_HITS_LO 0, [(4, 0x400000), (2, 8)]), (SRC_TILE_RETIRED_LO 0, [(4, 0x400000)]),
   (CCC 0 8, dimC), (CCC 0 0x24, dimC ++ [(2, 0x10)]), (CRC_HITS_LO 0, dimC ++ [(2, 8)]),
   (FLOE_CNT_ROWW_LO 0, dimT), (NUM_RNG_KEY_LO 0, dimT), (STK_RD_BYTES_LO 0, [(24, 0x10000), (4, 8)]),
   (FIRN_CNT_STEPS_LO 0, [(4096, 0x1000)]), (SCH_C 0 0x10, [(64, 0x100), (5, 8)]), (SCH_C 0 0x40, [(64, 0x100), (2, 0x10)]),
   (SRV 0 0x40, [(32, 0x100)]), (GRP_CNT_ROWS_LO, [])]

/-- Is the register at `a` the _LO half of a pair? -/
def isLo (a : Nat) : Bool := loRows.any fun r => decide (r.1 ≤ a) && inDims r.2 (a - r.1)

/-- A read of _LO latches the upper half for the reader. -/
def loReadEffect (i a : Nat) (s : Block) : Block :=
  { s with latches := { s.latches with lo := kput s.latches.lo i (readReg s i (a + 4)) } }

/-- LO_READ_LATCH. -/
def effLoReadLatch (i : Nat) (bar : Bar) (off : Nat) (s : Block) : Block :=
  match regAddr i bar off with
  | some a => if isLo a then loReadEffect i a s else s
  | none => s

/-- What a read of _HI returns: the upper half latched at the reader's last _LO read, or 0. -/
def hiRead (s : Block) (i : Nat) : Word := tget 0 s.latches.lo i

/-- The place of a writer's staged half of a pair. -/
def stageKey (i a : Nat) : Nat := a * 65 + i

/-- HI_WRITE_STAGE: the half waits for the write of _LO. -/
def effHiWriteStage (i : Nat) (bar : Bar) (off : Nat) (v : Word) (s : Block) : Block :=
  match regAddr i bar off with
  | some a =>
    if 4 ≤ a ∧ isLo (a - 4) then { s with latches := { s.latches with hi := kput s.latches.hi (stageKey i (a - 4)) v } } else s
  | none => s

/-- The bits of a word that a mask selects taken from a new value. -/
def masked (m : Nat) (old new : Word) : Word := (new &&& w32 m) ||| (old &&& ~~~(w32 m))

/-- The bits of a register that a write sets. -/
def rwBits (a : Nat) : Nat := ((regFind a).map (·.rw)).getD 0
/-- The bits of a register that a 1 clears. -/
def w1cBits (a : Nat) : Nat := ((regFind a).map (·.w1c)).getD 0

/-- LO_WRITE_COMMIT: both halves take their values at once, in the bits that a write sets. Every pair of the map is
read-only, and a write to a read-only field is ignored (R4). -/
def effLoWriteCommit (i : Nat) (bar : Bar) (off : Nat) (v : Word) (s : Block) : Block :=
  match regAddr i bar off with
  | some a =>
    if isLo a then
      let hi := tget (s.rg (a + 4)) s.latches.hi (stageKey i a)
      (s.wr a (masked (rwBits a) (s.rg a) v)).wr (a + 4) (masked (rwBits (a + 4)) (s.rg (a + 4)) hi)
    else s
  | none => s

/-! ### READ_CLEAR and W1C_WRITE (R4, R5) -/

/-- The bits of a register that a read clears: PEAK of PWR_AVG, "cleared by the read" (R461). No other register table
gives a field that a read clears, and none gives the code RC. DEDUCED, log entry 15. -/
def rcBits (a : Nat) : Nat := if a = PWR_AVG then 0x1FFF0000 else 0

/-- What an RC field holds after a read: what the events of that cycle added. -/
def readCleared (rc : Nat) (old event : Word) : Word := masked rc old event

/-- READ_CLEAR. -/
def effReadClear (i : Nat) (bar : Bar) (off event : Nat) (s : Block) : Block :=
  match regAddr i bar off with
  | some a => s.wr a (readCleared (rcBits a) (s.rg a) (w32 event))
  | none => s

/-- A register after a write of `v` to its W1C bits in a cycle in which hardware sets the bits of `set`: the set
wins. -/
def w1cAfter (m : Nat) (old v set : Word) : Word := (old &&& ~~~(v &&& w32 m)) ||| (set &&& w32 m)

/-- W1C_WRITE. -/
def effW1cWrite (i : Nat) (bar : Bar) (off : Nat) (v hwSet : Word) (s : Block) : Block :=
  match regAddr i bar off with
  | some a => s.wr a (w1cAfter (w1cBits a) (s.rg a) v hwSet)
  | none => s

/-! ### REGISTER_WRITE (R4) -/

/-- How a field's value is stored: bits [hi:lo], the least and the greatest value. -/
structure Clamp where
  hi : Nat
  lo : Nat
  least : Nat
  most : Nat
  deriving DecidableEq, Repr

/-- The fields with a bounded value, by register: base and dimensions, and the bounds (the Effect columns of each
chapter's tables; R138 for the Firn caps). -/
def clampRows : List (Nat × List (Nat × Nat) × List Clamp) :=
  [(STK_THR_CTRL 0, [(24, 0x10000)], [⟨3, 0, 1, 15⟩, ⟨7, 4, 1, 15⟩]),
   (STK_ARB 0, [(24, 0x10000)], [⟨3, 0, 1, 15⟩]),
   (STK_FIRN_RATE 0, [(24, 0x10000)], [⟨7, 0, 56, 255⟩, ⟨15, 8, 56, 255⟩]),
   (STK_FIRN_BOUND 0, [(24, 0x10000)], [⟨15, 0, 1, 65535⟩, ⟨31, 16, 1, 65535⟩]),
   (SNW 0 4, [(32, 0x100)], [⟨6, 0, 1, 64⟩]),
   (SNW_GCFG, [], [⟨5, 0, 1, 32⟩, ⟨11, 8, 1, 15⟩]),
   (SRV 0 0, [(32, 0x100)], [⟨15, 8, 1, 255⟩, ⟨23, 16, 1, 255⟩]),
   (SRV 0 0x10, [(32, 0x100)], [⟨7, 0, 1, 255⟩, ⟨23, 16, 1, 255⟩]),
   (SRV 0 0x14, [(32, 0x100)], [⟨23, 8, 1, 65535⟩]),
   (SCH_GCFG, [], [⟨15, 0, 1, 65535⟩, ⟨31, 16, 1, 65535⟩]),
   (SCH_SLICE, [], [⟨15, 0, 1, 65535⟩]),
   (SCH_HB_CFG, [], [⟨13, 0, 10, 10000⟩, ⟨27, 16, 1, 4095⟩]),
   (LDG_AUDIT_CFG, [], [⟨7, 0, 1, 255⟩]),
   (ESK_CFG 0, [(16, 0x80000)], [⟨3, 0, 2, 9⟩, ⟨7, 4, 1, 15⟩, ⟨31, 16, 1, 65535⟩]),
   (RIME_CFG, [], [⟨7, 0, 1, 255⟩, ⟨11, 8, 1, 15⟩]),
   (CLK_SPREAD, [], [⟨3, 0, 0, 10⟩, ⟨9, 4, 20, 63⟩, ⟨13, 10, 0, 10⟩, ⟨19, 14, 20, 63⟩]),
   (PWR_VCORE 0, [(4, 4)], [⟨25, 16, 620, 850⟩]),
   (ERR_CFG, [], [⟨7, 0, 1, 255⟩, ⟨15, 8, 1, 255⟩, ⟨23, 16, 1, 255⟩]),
   (ERR_REFETCH, [], [⟨31, 16, 1, 65535⟩])]

/-- A word with its fields brought within their bounds. -/
def clampWord (l : List Clamp) (v : Word) : Word :=
  l.foldl (fun v c => v.setFld c.hi c.lo (min c.most (max c.least (v.fld c.hi c.lo)))) v

/-- The bounds of the register at `a`. -/
def clampsOf (a : Nat) : List Clamp :=
  match clampRows.find? fun r => decide (r.1 ≤ a) && inDims r.2.1 (a - r.1) with
  | some r => r.2.2
  | none => []

/-- The value that a write of `v` leaves in the register at `a`: RW fields stored, within their bounds, and W1C bits
cleared. -/
def storedWord (s : Block) (a : Nat) (v : Word) : Word :=
  w1cAfter (w1cBits a) (masked (rwBits a) (s.rg a) (clampWord (clampsOf a) v)) v 0

/-- The host-to-device pair whose data registers hold `a`, if one does: function pages and the secure page. -/
def dataChan (a : Nat) : Option Chan :=
  if s0Base ≤ a ∧ a < s0Base + 0x40 then some .s0
  else if fnPage 0 ≤ a ∧ a < fnPage 64 then
    let off := a % 0x10000
    if 0x1000 ≤ off ∧ off < 0x1400 ∧ off % 0x100 < 0x40 then some (.fn ((a - fnPage 0) / 0x10000) ((off - 0x1000) / 0x100)) else none
  else none

/-- The pair whose MBX_CTRL is at `a`. -/
def ctrlChan (a : Nat) : Option Chan := if 0x40 ≤ a then (if a % 0x100 = 0x40 then dataChan (a - 0x40) else none) else none

/-- Is the register there to be written: one of a block of a partition that exists (R239, R271), a host command word of an
enabled unit (R119), or any other? -/
def Block.takesWrite (s : Block) (a : Nat) : Bool :=
  if 0x06200000 ≤ a ∧ a < 0x06202000 then (s.part ((a - 0x06200000) / 0x100)).isSome
  else if 0x06400000 ≤ a ∧ a < 0x06402000 then (s.part ((a - 0x06400000) / 0x100)).isSome
  else if 0x4000000 ≤ a ∧ a < 0x5000000 ∧ 0x40 ≤ a % 0x1000 ∧ a % 0x1000 < 0x60 then s.unitOn ((a - 0x4000000) / 0x1000)
  else true

/-- A write that only stores; one to a register that is not there is discarded. -/
def plainWriteEffect (a : Nat) (v : Word) (s : Block) : Block := if s.takesWrite a then s.wr a (storedWord s a v) else s

/-- A write to a register of a function's page (R379). -/
def pageWrite (f off : Nat) (v : Word) (s : Block) : Block :=
  if off < 0x100 then effDoorbell f (off / 4) v s
  else if 0x200 ≤ off ∧ off < 0x300 then effRingHeadWrite f ((off - 0x200) / 4) v s
  else plainWriteEffect (fnPage f + off) v s

/-- A write by initiator `i` to the register at `a`: a register whose write has a row of its own acts by that row,
data of a channel that is FULL is discarded (R391), ICE_SEL fills the writer's latch (R509), and any other register
stores. -/
def regWriteEffect (i a : Nat) (v : Word) (s : Block) : Block :=
  match dataChan a, ctrlChan a with
  | some ch, _ => if s.full (chBase ch) then s.overrun ch else plainWriteEffect a v s
  | none, some ch => effMailboxGo ch v [] s
  | none, none =>
    if fnPage 0 ≤ a ∧ a < fnPage 64 then pageWrite ((a - fnPage 0) / 0x10000) (a % 0x10000) v s
    else if a = ICE_SEL then (plainWriteEffect a v s).iceLatch (if i = 64 then 1 else 0) v.toNat
    else if a = ICE_CLEAR then (if v.fld 15 0 = 0x1CE0 then s.iceClearNow else s)
    else if a = CLK_SEL then effClkSelWrite i v s
    else if a = PWR_LIMIT then effPwrLimitWrite i v s
    else if a = SCH_HB then effHeartbeat v s
    else if a = MOR_RESET then (if v.fld 1 0 = 2 then effMorResetCold i v s else effMorResetWarm i v s)
    else if 0x4000000 ≤ a ∧ a < 0x5000000 ∧ a % 0x1000 = 0x60 then effFirnHostGo ((a - 0x4000000) / 0x1000) v s
    else plainWriteEffect a v s

/-- REGISTER_WRITE. -/
def effRegisterWrite (i : Nat) (bar : Bar) (off : Nat) (v : Word) (s : Block) : Block :=
  match regAddr i bar off with
  | some a => regWriteEffect i a v s
  | none => s

/-! ### Meanings -/

/-- The meaning of REGISTER_WRITE. -/
def execRegisterWrite (i : Nat) (bar : Bar) (off : Nat) (v : Word) : State → Host.Outcome State Fault Refusal := onBlk (effRegisterWrite i bar off v)
/-- The meaning of LO_READ_LATCH. -/
def execLoReadLatch (i : Nat) (bar : Bar) (off : Nat) : State → Host.Outcome State Fault Refusal := onBlk (effLoReadLatch i bar off)
/-- The meaning of HI_WRITE_STAGE. -/
def execHiWriteStage (i : Nat) (bar : Bar) (off : Nat) (v : Word) : State → Host.Outcome State Fault Refusal := onBlk (effHiWriteStage i bar off v)
/-- The meaning of LO_WRITE_COMMIT. -/
def execLoWriteCommit (i : Nat) (bar : Bar) (off : Nat) (v : Word) : State → Host.Outcome State Fault Refusal := onBlk (effLoWriteCommit i bar off v)
/-- The meaning of READ_CLEAR. -/
def execReadClear (i : Nat) (bar : Bar) (off : Nat) (event : Nat) : State → Host.Outcome State Fault Refusal := onBlk (effReadClear i bar off event)
/-- The meaning of W1C_WRITE. -/
def execW1cWrite (i : Nat) (bar : Bar) (off : Nat) (v : Word) (hwSet : Word) : State → Host.Outcome State Fault Refusal := onBlk (effW1cWrite i bar off v hwSet)

end Sys2Proof.Machine
end

