-- ==== Sys2Proof/Machine/Dispatch.lean ====
section
/-! DEFINITION. The dispatch: one arm for each command, a direct call of its meaning. -/

namespace Sys2Proof.Machine

def exec (i : Instr) (s : State) : Host.Outcome State Fault Refusal :=
  match i with
  | .registerWrite who bar off v => Sys2Proof.Machine.execRegisterWrite who bar off v s
  | .loReadLatch who bar off => Sys2Proof.Machine.execLoReadLatch who bar off s
  | .hiWriteStage who bar off v => Sys2Proof.Machine.execHiWriteStage who bar off v s
  | .loWriteCommit who bar off v => Sys2Proof.Machine.execLoWriteCommit who bar off v s
  | .readClear who bar off event => Sys2Proof.Machine.execReadClear who bar off event s
  | .w1cWrite who bar off v hwSet => Sys2Proof.Machine.execW1cWrite who bar off v hwSet s
  | .doorbell f q v => Sys2Proof.Machine.execDoorbell f q v s
  | .jobSubmit f q => Sys2Proof.Machine.execJobSubmit f q s
  | .requestSubmit f q => Sys2Proof.Machine.execRequestSubmit f q s
  | .ringHeadWrite f r v => Sys2Proof.Machine.execRingHeadWrite f r v s
  | .coalesceTimer f r => Sys2Proof.Machine.execCoalesceTimer f r s
  | .mailboxGo ch v sideband => Sys2Proof.Machine.execMailboxGo ch v sideband s
  | .mailboxDataLastRead ch => Sys2Proof.Machine.execMailboxDataLastRead ch s
  | .bar4Read f off len => Sys2Proof.Machine.execBar4Read f off len s
  | .bar4Write f off data => Sys2Proof.Machine.execBar4Write f off data s
  | .queueCreate ch => Sys2Proof.Machine.execQueueCreate ch s
  | .queueDestroy ch => Sys2Proof.Machine.execQueueDestroy ch s
  | .ringCreate ch => Sys2Proof.Machine.execRingCreate ch s
  | .ringDestroy ch => Sys2Proof.Machine.execRingDestroy ch s
  | .windowEnable ch => Sys2Proof.Machine.execWindowEnable ch s
  | .windowDisable ch => Sys2Proof.Machine.execWindowDisable ch s
  | .hostMapQuery ch => Sys2Proof.Machine.execHostMapQuery ch s
  | .vfFlr f => Sys2Proof.Machine.execVfFlr f s
  | .pfFlr => Sys2Proof.Machine.execPfFlr s
  | .busMasterDisable f => Sys2Proof.Machine.execBusMasterDisable f s
  | .busMasterEnable f => Sys2Proof.Machine.execBusMasterEnable f s
  | .hostLinkDown => Sys2Proof.Machine.execHostLinkDown s
  | .hostDmaFault o => Sys2Proof.Machine.execHostDmaFault o s
  | .tensorCreate ch => Sys2Proof.Machine.execTensorCreate ch s
  | .tensorQuery ch => Sys2Proof.Machine.execTensorQuery ch s
  | .tensorDestroy ch => Sys2Proof.Machine.execTensorDestroy ch s
  | .tensorFirnMap ch => Sys2Proof.Machine.execTensorFirnMap ch s
  | .copy c => Sys2Proof.Machine.execCopy c s
  | .copyStrided c => Sys2Proof.Machine.execCopyStrided c s
  | .atomic c => Sys2Proof.Machine.execAtomic c s
  | .gather c => Sys2Proof.Machine.execGather c s
  | .scatter c => Sys2Proof.Machine.execScatter c s
  | .scatterAdd c => Sys2Proof.Machine.execScatterAdd c s
  | .accessCountDecay busy => Sys2Proof.Machine.execAccessCountDecay busy s
  | .frameMigrationSwitch p h fr => Sys2Proof.Machine.execFrameMigrationSwitch p h fr s
  | .stackTempPoll n temp => Sys2Proof.Machine.execStackTempPoll n temp s
  | .stackReportTimeout n => Sys2Proof.Machine.execStackReportTimeout n s
  | .firnHostGo u v => Sys2Proof.Machine.execFirnHostGo u v s
  | .firnRun u => Sys2Proof.Machine.execFirnRun u s
  | .firnFence u => Sys2Proof.Machine.execFirnFence u s
  | .firnFenceComplete u => Sys2Proof.Machine.execFirnFenceComplete u s
  | .holdBroadcastApply u => Sys2Proof.Machine.execHoldBroadcastApply u s
  | .row u => Sys2Proof.Machine.execRow u s
  | .mac u => Sys2Proof.Machine.execMac u s
  | .rstat u => Sys2Proof.Machine.execRstat u s
  | .exp u => Sys2Proof.Machine.execExp u s
  | .scale u => Sys2Proof.Machine.execScale u s
  | .commit u => Sys2Proof.Machine.execCommit u s
  | .csend u => Sys2Proof.Machine.execCsend u s
  | .crecv u => Sys2Proof.Machine.execCrecv u s
  | .bsend u => Sys2Proof.Machine.execBsend u s
  | .brecv u => Sys2Proof.Machine.execBrecv u s
  | .chainRendezvous u => Sys2Proof.Machine.execChainRendezvous u s
  | .chainTimeout u => Sys2Proof.Machine.execChainTimeout u s
  | .loop u => Sys2Proof.Machine.execLoop u s
  | .endl u => Sys2Proof.Machine.execEndl u s
  | .yield u => Sys2Proof.Machine.execYield u s
  | .fencec u => Sys2Proof.Machine.execFencec u s
  | .firnParkEnd u => Sys2Proof.Machine.execFirnParkEnd u s
  | .refreshDue u act => Sys2Proof.Machine.execRefreshDue u act s
  | .firnCmdTimeout u => Sys2Proof.Machine.execFirnCmdTimeout u s
  | .firnUnitFail u cause => Sys2Proof.Machine.execFirnUnitFail u cause s
  | .firnSetStartDone k => Sys2Proof.Machine.execFirnSetStartDone k s
  | .firnSetStopped k => Sys2Proof.Machine.execFirnSetStopped k s
  | .nop c => Sys2Proof.Machine.execNop c s
  | .repeatCmd c => Sys2Proof.Machine.execRepeatCmd c s
  | .endRepeat c => Sys2Proof.Machine.execEndRepeat c s
  | .call c => Sys2Proof.Machine.execCall c s
  | .returnCmd c => Sys2Proof.Machine.execReturnCmd c s
  | .endCmd c => Sys2Proof.Machine.execEndCmd c s
  | .streamEnd c => Sys2Proof.Machine.execStreamEnd c s
  | .cheapPoint c => Sys2Proof.Machine.execCheapPoint c s
  | .semWait c => Sys2Proof.Machine.execSemWait c s
  | .semWaitGrant r => Sys2Proof.Machine.execSemWaitGrant r s
  | .semSignal c => Sys2Proof.Machine.execSemSignal c s
  | .fence c => Sys2Proof.Machine.execFence c s
  | .firnPush c => Sys2Proof.Machine.execFirnPush c s
  | .firnHold c => Sys2Proof.Machine.execFirnHold c s
  | .matmul c => Sys2Proof.Machine.execMatmul c s
  | .matmulPacked c => Sys2Proof.Machine.execMatmulPacked c s
  | .vec c => Sys2Proof.Machine.execVec c s
  | .vred c => Sys2Proof.Machine.execVred c s
  | .quant c => Sys2Proof.Machine.execQuant c s
  | .engineCommandComplete c q ns => Sys2Proof.Machine.execEngineCommandComplete c q ns s
  | .tileFault t cause => Sys2Proof.Machine.execTileFault t cause s
  | .bundleLoad ch img => Sys2Proof.Machine.execBundleLoad ch img s
  | .bundleUnload ch => Sys2Proof.Machine.execBundleUnload ch s
  | .jobBreakSet ch => Sys2Proof.Machine.execJobBreakSet ch s
  | .jobResumeRun ch => Sys2Proof.Machine.execJobResumeRun ch s
  | .jobResumeStep ch => Sys2Proof.Machine.execJobResumeStep ch s
  | .semCreate ch => Sys2Proof.Machine.execSemCreate ch s
  | .semDestroy ch => Sys2Proof.Machine.execSemDestroy ch s
  | .snwKvClass ch => Sys2Proof.Machine.execSnwKvClass ch s
  | .snwSeqCreate ch => Sys2Proof.Machine.execSnwSeqCreate ch s
  | .snwSeqFork ch => Sys2Proof.Machine.execSnwSeqFork ch s
  | .snwSeqTruncate ch => Sys2Proof.Machine.execSnwSeqTruncate ch s
  | .snwSeqFree ch => Sys2Proof.Machine.execSnwSeqFree ch s
  | .snwSeqQuery ch => Sys2Proof.Machine.execSnwSeqQuery ch s
  | .snwSeqPark ch => Sys2Proof.Machine.execSnwSeqPark ch s
  | .snwSeqRestore ch => Sys2Proof.Machine.execSnwSeqRestore ch s
  | .snwArenaAdd ch => Sys2Proof.Machine.execSnwArenaAdd ch s
  | .snwArenaWithdraw ch => Sys2Proof.Machine.execSnwArenaWithdraw ch s
  | .snwNsJoin ch => Sys2Proof.Machine.execSnwNsJoin ch s
  | .snwNsLeave ch => Sys2Proof.Machine.execSnwNsLeave ch s
  | .snwNsCreate ch => Sys2Proof.Machine.execSnwNsCreate ch s
  | .snwNsDestroy ch => Sys2Proof.Machine.execSnwNsDestroy ch s
  | .pageMoveSwitch p pid => Sys2Proof.Machine.execPageMoveSwitch p pid s
  | .srvModelLoad ch => Sys2Proof.Machine.execSrvModelLoad ch s
  | .srvModelUnload ch => Sys2Proof.Machine.execSrvModelUnload ch s
  | .srvAdapterLoad ch => Sys2Proof.Machine.execSrvAdapterLoad ch s
  | .srvAdapterUnload ch => Sys2Proof.Machine.execSrvAdapterUnload ch s
  | .srvReqCancel ch => Sys2Proof.Machine.execSrvReqCancel ch s
  | .srvReqRebind ch => Sys2Proof.Machine.execSrvReqRebind ch s
  | .srvReqQuery ch => Sys2Proof.Machine.execSrvReqQuery ch s
  | .stepBoundary p m => Sys2Proof.Machine.execStepBoundary p m s
  | .stepRetry p m => Sys2Proof.Machine.execStepRetry p m s
  | .partCreate ch => Sys2Proof.Machine.execPartCreate ch s
  | .partitionRunning p => Sys2Proof.Machine.execPartitionRunning p s
  | .partDestroy ch => Sys2Proof.Machine.execPartDestroy ch s
  | .partitionStopped p => Sys2Proof.Machine.execPartitionStopped p s
  | .clientSet ch => Sys2Proof.Machine.execClientSet ch s
  | .jobDispatch p => Sys2Proof.Machine.execJobDispatch p s
  | .sliceExpiry j => Sys2Proof.Machine.execSliceExpiry j s
  | .preemptBoundExpiry j => Sys2Proof.Machine.execPreemptBoundExpiry j s
  | .preemptSaveDone j => Sys2Proof.Machine.execPreemptSaveDone j s
  | .holdBoundExpiry r => Sys2Proof.Machine.execHoldBoundExpiry r s
  | .heartbeat v => Sys2Proof.Machine.execHeartbeat v s
  | .heartbeatTimeout => Sys2Proof.Machine.execHeartbeatTimeout s
  | .drvAdoptKeep ch => Sys2Proof.Machine.execDrvAdoptKeep ch s
  | .drvAdoptDiscard ch => Sys2Proof.Machine.execDrvAdoptDiscard ch s
  | .graceExpiry => Sys2Proof.Machine.execGraceExpiry s
  | .ledgerSnapshot who n => Sys2Proof.Machine.execLedgerSnapshot who n s
  | .ledgerAudit => Sys2Proof.Machine.execLedgerAudit s
  | .governorWindow m => Sys2Proof.Machine.execGovernorWindow m s
  | .eskPortStart ch => Sys2Proof.Machine.execEskPortStart ch s
  | .eskPortStop ch => Sys2Proof.Machine.execEskPortStop ch s
  | .portTrainingDone p t => Sys2Proof.Machine.execPortTrainingDone p t s
  | .retrainTimer p => Sys2Proof.Machine.execRetrainTimer p s
  | .lossOfSignal p => Sys2Proof.Machine.execLossOfSignal p s
  | .keepaliveTimeout p => Sys2Proof.Machine.execKeepaliveTimeout p s
  | .flitReceive p fl => Sys2Proof.Machine.execFlitReceive p fl s
  | .laneLockLoss p lane => Sys2Proof.Machine.execLaneLockLoss p lane s
  | .laneErrorWindow p errs => Sys2Proof.Machine.execLaneErrorWindow p errs s
  | .eskWritePacket p k => Sys2Proof.Machine.execEskWritePacket p k s
  | .eskRedPacket p k => Sys2Proof.Machine.execEskRedPacket p k s
  | .eskReadPacket p k => Sys2Proof.Machine.execEskReadPacket p k s
  | .eskAtomicPacket p k => Sys2Proof.Machine.execEskAtomicPacket p k s
  | .eskAckPacket p k => Sys2Proof.Machine.execEskAckPacket p k s
  | .eskDataPacket p k => Sys2Proof.Machine.execEskDataPacket p k s
  | .eskMgmtPacket p k msg => Sys2Proof.Machine.execEskMgmtPacket p k msg s
  | .ackTimeoutExpiry tag => Sys2Proof.Machine.execAckTimeoutExpiry tag s
  | .vc1EscapeTimeout p => Sys2Proof.Machine.execVc1EscapeTimeout p s
  | .timeSyncTick t1 t2 t3 t4 hops => Sys2Proof.Machine.execTimeSyncTick t1 t2 t3 t4 hops s
  | .eskNodeSet ch => Sys2Proof.Machine.execEskNodeSet ch s
  | .eskRouteSet ch => Sys2Proof.Machine.execEskRouteSet ch s
  | .eskRouteGet ch => Sys2Proof.Machine.execEskRouteGet ch s
  | .eskDomainJoin ch => Sys2Proof.Machine.execEskDomainJoin ch s
  | .eskDomainLeave ch => Sys2Proof.Machine.execEskDomainLeave ch s
  | .eskAllot ch => Sys2Proof.Machine.execEskAllot ch s
  | .eskGroupSet ch => Sys2Proof.Machine.execEskGroupSet ch s
  | .eskFarGrant ch => Sys2Proof.Machine.execEskFarGrant ch s
  | .eskFabricSet ch => Sys2Proof.Machine.execEskFabricSet ch s
  | .rimeKick n => Sys2Proof.Machine.execRimeKick n s
  | .watchdogExpiry n => Sys2Proof.Machine.execWatchdogExpiry n s
  | .rimeCoreFault n cause pc addr => Sys2Proof.Machine.execRimeCoreFault n cause pc addr s
  | .rimeCoreRestarted n => Sys2Proof.Machine.execRimeCoreRestarted n s
  | .rootCoreFault cause => Sys2Proof.Machine.execRootCoreFault cause s
  | .fwLoad ch img => Sys2Proof.Machine.execFwLoad ch img s
  | .fwUpdate ch img => Sys2Proof.Machine.execFwUpdate ch img s
  | .fwRestart ch => Sys2Proof.Machine.execFwRestart ch s
  | .fwStatus ch => Sys2Proof.Machine.execFwStatus ch s
  | .vinPresent mv => Sys2Proof.Machine.execVinPresent mv s
  | .morResetCold who v => Sys2Proof.Machine.execMorResetCold who v s
  | .morResetWarm who v => Sys2Proof.Machine.execMorResetWarm who v s
  | .sidebandColdReset => Sys2Proof.Machine.execSidebandColdReset s
  | .sidebandWarmReset => Sys2Proof.Machine.execSidebandWarmReset s
  | .perstAssert => Sys2Proof.Machine.execPerstAssert s
  | .hotReset => Sys2Proof.Machine.execHotReset s
  | .perstDeassert => Sys2Proof.Machine.execPerstDeassert s
  | .settleExpiry => Sys2Proof.Machine.execSettleExpiry s
  | .stackTrainingDone untrained failedUnits => Sys2Proof.Machine.execStackTrainingDone untrained failedUnits s
  | .fnCtrlQuery ch => Sys2Proof.Machine.execFnCtrlQuery ch s
  | .fnCtrlStart ch => Sys2Proof.Machine.execFnCtrlStart ch s
  | .fnCtrlStop ch => Sys2Proof.Machine.execFnCtrlStop ch s
  | .refclkLoss cause => Sys2Proof.Machine.execRefclkLoss cause s
  | .refclkRestore us => Sys2Proof.Machine.execRefclkRestore us s
  | .clkSelWrite who v => Sys2Proof.Machine.execClkSelWrite who v s
  | .altReadyLoss => Sys2Proof.Machine.execAltReadyLoss s
  | .vinLow mv => Sys2Proof.Machine.execVinLow mv s
  | .vinHigh mv => Sys2Proof.Machine.execVinHigh mv s
  | .railOutOfRegulation rail mv => Sys2Proof.Machine.execRailOutOfRegulation rail mv s
  | .pwrLimitWrite who v => Sys2Proof.Machine.execPwrLimitWrite who v s
  | .sensorConversion n temp ratioOk => Sys2Proof.Machine.execSensorConversion n temp ratioOk s
  | .thermalTrip src index temp => Sys2Proof.Machine.execThermalTrip src index temp s
  | .patrolRead n core bank row res obj => Sys2Proof.Machine.execPatrolRead n core bank row res obj s
  | .rowCountDecay => Sys2Proof.Machine.execRowCountDecay s
  | .refetchComplete p h fr => Sys2Proof.Machine.execRefetchComplete p h fr s
  | .refetchRetry p h fr => Sys2Proof.Machine.execRefetchRetry p h fr s
  | .refetchTimeout p h fr => Sys2Proof.Machine.execRefetchTimeout p h fr s
  | .tsvPathFail n ch bit => Sys2Proof.Machine.execTsvPathFail n ch bit s
  | .lcChallenge ch => Sys2Proof.Machine.execLcChallenge ch s
  | .lcAdvance ch => Sys2Proof.Machine.execLcAdvance ch s
  | .lcReturn ch => Sys2Proof.Machine.execLcReturn ch s
  | .lcScrap ch => Sys2Proof.Machine.execLcScrap ch s
  | .lcFloor ch => Sys2Proof.Machine.execLcFloor ch s
  | .debugUnlock ch => Sys2Proof.Machine.execDebugUnlock ch s
  | .attest ch => Sys2Proof.Machine.execAttest ch s
  | .attestRead ch => Sys2Proof.Machine.execAttestRead ch s
  | .eskKeyInstall ch => Sys2Proof.Machine.execEskKeyInstall ch s
  | .eskKeySwitch ch => Sys2Proof.Machine.execEskKeySwitch ch s
  | .ideKm streams => Sys2Proof.Machine.execIdeKm streams s
  | .pldmRequest sensor => Sys2Proof.Machine.execPldmRequest sensor s
  | .iceStatus ch => Sys2Proof.Machine.execIceStatus ch s
  | .iceRead ch => Sys2Proof.Machine.execIceRead ch s
  | .iceClear ch => Sys2Proof.Machine.execIceClear ch s
  | .iceCommit failures => Sys2Proof.Machine.execIceCommit failures s
  | .iceBudgetToken => Sys2Proof.Machine.execIceBudgetToken s
  | .iceScanDone => Sys2Proof.Machine.execIceScanDone s
  | .operatingHour => Sys2Proof.Machine.execOperatingHour s
  | .flashHoldAssert => Sys2Proof.Machine.execFlashHoldAssert s
  | .flashHoldRelease => Sys2Proof.Machine.execFlashHoldRelease s
  | .hostLinkTrained rate width flit => Sys2Proof.Machine.execHostLinkTrained rate width flit s
  | .tileRemapDone t => Sys2Proof.Machine.execTileRemapDone t s
  | .channelGroupRunning k => Sys2Proof.Machine.execChannelGroupRunning k s
  | .channelGroupStopped k => Sys2Proof.Machine.execChannelGroupStopped k s
  | .portStoppingDone p => Sys2Proof.Machine.execPortStoppingDone p s
  | .atsInvalidate f addr pages => Sys2Proof.Machine.execAtsInvalidate f addr pages s
  | .pageZeroFillDone p pid => Sys2Proof.Machine.execPageZeroFillDone p pid s
  | .iceClearProgram => Sys2Proof.Machine.execIceClearProgram s

end Sys2Proof.Machine
end

