-- ==== Sys2Proof/Safety.lean ====
section
/-! DEFINITION. What counts as a safe run, in the terms that the statements use: the ledgers' equation, the canonical
form of memories, what is written once and for good, and the parts of the block that a
command leaves as they were. -/

namespace Sys2Proof.Machine

/-! ### Ledgers and memories -/

/-- The equation of R336 holds in every ledger. -/
def Block.ledgersOk (s : Block) : Prop := ∀ n, (s.ledger n).ok = true

/-- The canonical form of the memories: of the host, of every object, of every tile. -/
def Block.memoriesOk (s : Block) : Prop :=
  Memory.wf s.env.hostMem = true ∧ (∀ p k, ∀ o, kget (s.objects p).live k = some o → o.data.wf = true) ∧
  ∀ t, (s.tile t).mem.wf = true

/-! ### What is written once and for good -/

/-- Blown fuses of one bit stay blown. -/
def LcBit.le (x y : LcBit) : Prop := (x.a = true → y.a = true) ∧ (x.b = true → y.b = true) ∧ (x.c = true → y.c = true)

/-- Blown fuses of a field of bytes stay blown. -/
def bytesLe (x y : List Byte) : Prop := ∀ i, x.getD i 0 &&& ~~~ y.getD i 0 = 0

/-- No fuse of `x` is unblown in `y` (R482). -/
def Fuses.le (x y : Fuses) : Prop :=
  x.develop.le y.develop ∧ x.field.le y.field ∧ x.ret.le y.ret ∧ x.scrap.le y.scrap ∧
  (x.ownerValid = true → y.ownerValid = true) ∧ (∀ i, x.floors.getD i 0 ≤ y.floors.getD i 0) ∧
  bytesLe x.ownerDigest y.ownerDigest ∧ bytesLe x.idSeed y.idSeed ∧ x.vendorDigest = y.vendorDigest ∧ x.romVersion = y.romVersion

/-- The slots of the permanent area that are programmed in `x` hold the same in `y` (R502). -/
def IceCore.permLe (x y : IceCore) : Prop := ∀ k r, kget x.perm k = some r → kget y.perm k = some r

/-! ### Frames -/

/-- The block with what the mailbox traffic of a command may change put back: registers, channels, ledgers, the
ice core, the module's answer to a breach, host interrupts and memory. -/
def Block.mailBack (t s : Block) : Block :=
  { t with regs := s.regs, mbx := s.mbx, led := s.led, ice := s.ice, start := s.start, env := s.env }

/-- The device-to-host side of a pair is free and no reply waits. -/
abbrev Block.backFree (s : Block) (ch : Chan) : Prop :=
  s.full (chBack ch) = false ∧ (s.box (chBack ch)).waiting = []

/-- The pair holds a message of this type on which its receiver acts: the pair exists, FULL is set, the type field of
register 0 is the message's, no reply is owed, the owning core is there, and nothing answers before the message's own
handling (R346, R391, R392, R395, R405, R410). -/
abbrev Block.delivers (s : Block) (ch : Chan) (type : Nat) : Prop :=
  s.msgReady ch type = true ∧ (s.msgTaken ch).msgRefused ch type = none

/-- The pair's device-to-host side holds the reply to the message of `s`: its header and a status (R392). -/
abbrev Block.repliedTo (t s : Block) (ch : Chan) (status : Nat) : Prop :=
  t.full (chBack ch) = true ∧ t.rg (chBack ch) = mreg (s.msgWords ch) 0 ∧ t.rg (chBack ch + 4) = w32 status

/-! ### Stored data -/

/-- No stored bit is wrong: no error waits in a stack, in a cache or to be repaired, and no line of the cache hides marks
(R463 to R466). -/
abbrev Block.intact (s : Block) : Prop :=
  s.env.dramErrs = [] ∧ s.env.cacheErrs = [] ∧ s.err.met = [] ∧ ∀ e, e ∈ s.msc → ∀ x, x ∈ e.2 → x.under = []

/-! ### Firn units -/

/-- The next micro-instruction of a unit is `i`, of this kind, and no write of the unit waits (R129, R133). -/
abbrev Block.executes (s : Block) (u op : Nat) (i : Dword) : Prop :=
  s.microNext u op = some i ∧ (s.fu u).writeQ = [] ∧ (s.fu u).ownQ = []

/-- A unit past its micro-instruction. -/
def FirnUnit.next (x : FirnUnit) : FirnUnit := { x with pc := x.pc + 1 }

/-- Nothing of the block but the units and the registers differs, and of the units only `u`. -/
abbrev Block.onlyUnit (t s : Block) (u : Nat) : Prop :=
  (∀ v, v ≠ u → t.fu v = s.fu v) ∧ { t with firn := s.firn, regs := s.regs } = s

/-- As `onlyUnit`, for a micro-instruction: its energy, an open amount of the stack's grant, is spent too (R451). -/
abbrev Block.inUnit (t s : Block) (u : Nat) : Prop :=
  (∀ v, v ≠ u → t.fu v = s.fu v) ∧
  { t with firn := s.firn, regs := s.regs, pwr := { t.pwr with firnUse := s.pwr.firnUse }, freeCtr := s.freeCtr } = s

/-- As `inUnit`, and of the registers only the unit's step count, raised by the cost (R129). -/
abbrev Block.stepped (t s : Block) (u cost : Nat) : Prop :=
  t.inUnit s u ∧ t.regs = (s.bumpPair (FIRN_CNT_STEPS_LO u) cost).regs

/-- A command of the host has left the unit with a status (R121, R127). -/
abbrev Block.firnAnswered (t : Block) (u : Nat) (w : Cmd) (st : Nat) : Prop :=
  (t.fu u).running = none ∧ t.fld (FIRN_HOST_STATUS u) 15 0 = st ∧ t.rg (FIRN_HOST_LAST_SEQ u) = w.w1

/-! ### Command streams -/

/-- The cluster and the opcode of a command of a stream. -/
def Instr.streamOp : Instr → Option (Nat × Nat)
  | .nop c => some (c, 0x00)
  | .repeatCmd c => some (c, 0x01)
  | .endRepeat c => some (c, 0x02)
  | .call c => some (c, 0x03)
  | .returnCmd c => some (c, 0x04)
  | .endCmd c => some (c, 0x05)
  | .cheapPoint c => some (c, 0x06)
  | .semWait c => some (c, 0x08)
  | .semSignal c => some (c, 0x09)
  | .fence c => some (c, 0x0A)
  | .firnPush c => some (c, 0x0C)
  | .firnHold c => some (c, 0x0D)
  | .matmul c => some (c, 0x20)
  | .matmulPacked c => some (c, 0x21)
  | .vec c => some (c, 0x30)
  | .vred c => some (c, 0x31)
  | .quant c => some (c, 0x38)
  | .copy c => some (c, 0x40)
  | .copyStrided c => some (c, 0x41)
  | .atomic c => some (c, 0x48)
  | .gather c => some (c, 0x50)
  | .scatter c => some (c, 0x51)
  | .scatterAdd c => some (c, 0x52)
  | _ => none

/-- The core of a cluster comes to the command `x`, of this opcode: it issues, no step or comparator stops it, and no check
at issue refuses it (R175, R178, R202). -/
abbrev Block.issues (s : Block) (c op : Nat) (x : Issue) : Prop :=
  s.coreReady c = true ∧ (s.cl c).state = .issuing ∧ (s.cl c).stepOver = 0 ∧ s.nextIssue c = some x ∧ x.cmd.op = op ∧
  s.breakAt x = none ∧ s.issueChecks x = none

/-- As `issues`, for a command that names the control core. -/
abbrev Block.runs (s : Block) (c op : Nat) (x : Issue) : Prop := s.issues c op x ∧ engineKind x.cmd.engine = 3

/-- A cluster whose core has counted a command and stands at a position (R175). -/
def Cluster.past (k : Cluster) (pos : Nat) : Cluster := { k with pos := pos, count := (k.count + 1) % 2 ^ 48 }

/-- The entry of a command that has entered its queue and not started. -/
def Issue.entry (x : Issue) : QEntry :=
  { cmd := x.cmd, count := x.count, tag := x.tag, routine := x.routine, started := false, waiting := false, status := OK, done := 0,
    got := Store.empty }

/-- The state in which an engine finds the command `x` that starts in the empty queue `q`: the command counted, in the
queue and started, its slot in FLIGHT, and earlier writes performed that are to land before it (R175, R177, R279). -/
def Block.entered (s : Block) (x : Issue) (q : Nat) : Block :=
  ((((s.modCl x.c fun k => (k.past (k.pos + 1)).setQueue q [{ x.entry with started := true }]).ledTake (0x80 + x.c) 1).ledSend
    (0x80 + x.c) 1)).settleSome x.c

/-- The command `x` starts at once in the queue `q` of an engine: the queue is empty, a slot is free, the tile is not being
replaced, and the command names no peer (R168, R177, R298). -/
abbrev Block.starts (s : Block) (x : Issue) (q : Nat) : Prop :=
  x.cmd.engine = q ∧ q < 24 ∧ (s.cl x.c).queue q = [] ∧ (s.ledger (0x80 + x.c)).ok = true ∧
  0 < (s.ledger (0x80 + x.c)).free ∧ s.tileState (x.c * 8 + q % 8) ≠ 5 ∧ isRemote x.cmd = false

/-! ### Esker packets -/

/-- The port, the type and the packet of a packet's row. -/
def Instr.packet : Instr → Option (Nat × Nat × Packet)
  | .eskWritePacket p k => some (p, 1, k)
  | .eskRedPacket p k => some (p, 2, k)
  | .eskReadPacket p k => some (p, 3, k)
  | .eskAtomicPacket p k => some (p, 4, k)
  | .eskAckPacket p k => some (p, 8, k)
  | .eskDataPacket p k => some (p, 9, k)
  | .eskMgmtPacket p k _ => some (p, 0xC, k)
  | _ => none

/-- The command brings the packet `k` to a RUNNING port, with the type of its row, before its last hop; a management packet
finds its channel free (R357, R360, R370). -/
abbrev Block.arrives (s : Block) (i : Instr) (p ty : Nat) (k : Packet) : Prop :=
  Instr.packet i = some (p, ty, k) ∧ k.ptype = ty ∧ portOk p = true ∧ s.portUp p = true ∧ k.hops ≠ 31 ∧
  (ty = 0xC → s.full (chBase .mgmt) = false)

/-- A packet of `n` bytes goes out at once: the port is RUNNING, nothing waits there and the credits are free (R356). -/
abbrev Block.sendsNow (s : Block) (q vc n : Nat) : Prop :=
  s.portUp q = true ∧ (s.port q).queue = [] ∧ ceilDiv n 32 ≤ (s.ledger (creditLedger q vc)).free ∧
  (s.ledger (creditLedger q vc)).ok = true

/-! ### Snowpack -/

/-- No page of the partition lies in a far arena or moves to or from one, no sequence is to, and there is none: nothing is sent
to another node for it (R236). -/
abbrev Block.noFar (s : Block) (p : Nat) : Prop :=
  (∀ k g, s.page p k = some g → g.far = none ∧ g.farEnd = none ∧ locTier g.loc ≠ 3) ∧
  (∀ k q, s.seqAt p k = some q → q.target ≠ some 3) ∧ ∀ k a, kget (s.snowOf p).arenas k = some a → a.far = false

/-! ### Rest -/

/-- Nothing is at work: no job, request, step, Firn command or grant, and no Snowpack holds anything. -/
abbrev Block.atRest (s : Block) : Prop :=
  s.jobs = [] ∧ s.reqs = [] ∧ s.clusters = [] ∧ s.firn = [] ∧ s.serve = [] ∧ s.snow = [] ∧ s.esk.grants = []

/-- The return of core `n` finds nothing that waited for SNOW or LINK: no move or withdrawal, no node lost, no
packet (R410). -/
abbrev Block.returnsQuietly (s : Block) (n : Nat) : Prop :=
  (n = 3 → s.snow = []) ∧
  (n = 5 → s.esk.routes.all (fun e => !e.2.bit 4 || ({ s with esk := { s.esk with seen := none } } : Block).reachable e.1) = true ∧
    s.esk.ports.all (fun e => e.2.queue.isEmpty) = true)

/-! ### Starts -/

/-- The cause of the cold start that a command asks for (R418). -/
def Instr.coldCause : Instr → Option Nat
  | .morResetCold i v => if i = 0 ∧ resetKey v = true ∧ v.fld 1 0 = 2 then some 1 else none
  | .sidebandColdReset => some 2
  | _ => none

/-- The cause of the warm start that a command asks for (R418). -/
def Instr.warmCause : Instr → Option Nat
  | .perstAssert => some 3
  | .hotReset => some 4
  | .morResetWarm i v => if i = 0 ∧ resetKey v = true ∧ v.fld 1 0 = 1 then some 5 else none
  | .sidebandWarmReset => some 6
  | _ => none

/-- The rails are up and nothing is latched; PERST_N is high when it falls, and the host link up at a hot reset. -/
abbrev Block.canStart (s : Block) (i : Instr) : Prop :=
  startable s = true ∧ (i = .perstAssert ∨ i = .hotReset → s.start.perst = false) ∧ (i = .hotReset → s.start.linkUp = true)

/-! ### Trust -/

/-- The channel and the type of a message that ROOT answers under R498, and whether it is for S0 only. LC_CHALLENGE is apart. -/
def Instr.trust : Instr → Option (Chan × Nat × Bool)
  | .lcAdvance ch => some (ch, 0x0A02, false)
  | .lcReturn ch => some (ch, 0x0A03, true)
  | .lcScrap ch => some (ch, 0x0A04, false)
  | .lcFloor ch => some (ch, 0x0A05, false)
  | .debugUnlock ch => some (ch, 0x0A06, true)
  | .attest ch => some (ch, 0x0A07, false)
  | .attestRead ch => some (ch, 0x0A08, false)
  | .eskKeyInstall ch => some (ch, 0x0A09, false)
  | .eskKeySwitch ch => some (ch, 0x0A0A, false)
  | _ => none

/-- ROOT acts on the message: it is delivered, a set is loaded, and the module is not scrapped (R486, R498). -/
abbrev Block.trusts (s : Block) (ch : Chan) (type : Nat) : Prop :=
  s.delivers ch type ∧ s.backFree ch ∧ s.fw.loaded = true ∧ s.scrapped = false

/-! ### Runs -/

/-- The state after a list of commands, run one after another. -/
def State.after (s : State) (l : List Instr) : State :=
  l.foldl (fun a c => match exec c a with | .next b => b | _ => a) s

end Sys2Proof.Machine
end

