-- ==== Sys2Proof/WellFormed.lean ====
section
/-! DEFINITION. Which commands are well formed: the ranges that the manual gives the agents and the operands of
the rows. A command outside them names no part of the module. -/

namespace Sys2Proof

/-- A channel pair exists: functions 0 to 63, pairs 0 to 3 (R390). -/
def Chan.wf : Chan → Bool
  | .fn f n => decide (f < 64) && decide (n < 4)
  | .s0 => true
  | .s1 => true
  | .mgmt => true

/-- An initiator: functions 0 to 63, or 64, the management sideband (R7, R377, R520). -/
def initOk (i : Nat) : Bool := decide (i ≤ 64)

/-- A register offset: a multiple of 4 (R4) within the 256 MiB of BAR0 for the PF and the sideband, or within a
function's own 64 KiB page of BAR2 (R377). -/
def regOffOk (i : Nat) (bar : Bar) (off : Nat) : Bool :=
  decide (off % 4 = 0) &&
  match bar with
  | .bar0 => (i == 0 || i == 64) && decide (off < 0x10000000)
  | .bar2 => decide (i < 64) && decide (off < 0x10000)

/-- The fields of a packet fit their header places (R357), and its payload holds 256 B at most. -/
def Packet.wf (k : Packet) : Bool :=
  decide (k.ptype < 16) && decide (k.vc < 8) && decide (k.hops < 32) && decide (k.dst < 32768) && decide (k.src < 32768)
  && decide (k.domain < 65536) && decide (k.tag < 65536) && decide (k.off < 2 ^ 44) && decide (k.op < 4) && decide (k.etype < 4)
  && decide (k.poison < 256) && decide (k.status < 65536) && decide (k.len ≤ 256) && decide (k.data.length ≤ 256)

/-- The trailer fields of a flit fit their places (R349). -/
def Flit.wf (f : Flit) : Bool := decide (f.fseq < 1024) && decide (f.ack < 1024) && decide (f.crVc < 8) && decide (f.crN < 128)

/-- What a training finds fits the port: 8 lanes and a spare, node IDs of 15 bits, 16 ports, 5 virtual channels (R347, R351). -/
def Training.wf (t : Training) : Bool :=
  (match t.failedLane with | some l => decide (l < 9) | none => true)
  && decide (t.node < 32768) && decide (t.port < 16) && decide (t.credits.length ≤ 8)

/-- A window's measures name four dies (R452 to R455). -/
def WindowMeasure.wf (m : WindowMeasure) : Bool :=
  decide (m.early.length = 4) && decide (m.wave.length = 4) && decide (m.vcore.length = 4)

/-- A semaphore reference names one of a range (R188). -/
def SemRef.wf : SemRef → Bool
  | .localSem c idx => decide (c < 32) && decide (idx < 4096)
  | .jobSem j idx => decide (0 < j) && decide (idx < 4096)
  | .globalSem idx => decide (idx < 4096)

/-- Is a command well formed? -/
def Instr.wf : Instr → Bool
  | .registerWrite i bar off _ => initOk i && regOffOk i bar off
  | .loReadLatch i bar off => initOk i && regOffOk i bar off
  | .hiWriteStage i bar off _ => initOk i && regOffOk i bar off
  | .loWriteCommit i bar off _ => initOk i && regOffOk i bar off
  | .readClear i bar off event => initOk i && regOffOk i bar off && decide (event < 64)
  | .w1cWrite i bar off _ _ => initOk i && regOffOk i bar off
  | .doorbell f q _ => decide (f < 64) && decide (q < 64)
  | .jobSubmit f q => decide (f < 64) && decide (q < 64)
  | .requestSubmit f q => decide (f < 64) && decide (q < 64)
  | .ringHeadWrite f r _ => decide (f < 64) && decide (r < 64)
  | .coalesceTimer f r => decide (f < 64) && decide (r < 64)
  | .mailboxGo ch _ _ => ch.wf
  | .mailboxDataLastRead ch => ch.wf
  | .bar4Read f _ len => decide (f < 64) && decide (0 < len)
  | .bar4Write f _ data => decide (f < 64) && decide (data.length ≤ 256)
  | .queueCreate ch => ch.wf
  | .queueDestroy ch => ch.wf
  | .ringCreate ch => ch.wf
  | .ringDestroy ch => ch.wf
  | .windowEnable ch => ch.wf
  | .windowDisable ch => ch.wf
  | .hostMapQuery ch => ch.wf
  | .vfFlr f => decide (f < 64)
  | .pfFlr => true
  | .busMasterDisable f => decide (f < 64)
  | .busMasterEnable f => decide (f < 64)
  | .hostLinkDown => true
  | .hostDmaFault _ => true
  | .tensorCreate ch => ch.wf
  | .tensorQuery ch => ch.wf
  | .tensorDestroy ch => ch.wf
  | .tensorFirnMap ch => ch.wf
  | .copy c => decide (c < 32)
  | .copyStrided c => decide (c < 32)
  | .atomic c => decide (c < 32)
  | .gather c => decide (c < 32)
  | .scatter c => decide (c < 32)
  | .scatterAdd c => decide (c < 32)
  | .accessCountDecay _ => true
  | .frameMigrationSwitch p _ _ => decide (p < 32)
  | .stackTempPoll n _ => decide (n < 24)
  | .stackReportTimeout n => decide (n < 24)
  | .firnHostGo u _ => decide (u < 4096)
  | .firnRun u => decide (u < 4096)
  | .firnFence u => decide (u < 4096)
  | .firnFenceComplete u => decide (u < 4096)
  | .holdBroadcastApply u => decide (u < 4096)
  | .row u => decide (u < 4096)
  | .mac u => decide (u < 4096)
  | .rstat u => decide (u < 4096)
  | .exp u => decide (u < 4096)
  | .scale u => decide (u < 4096)
  | .commit u => decide (u < 4096)
  | .csend u => decide (u < 4096)
  | .crecv u => decide (u < 4096)
  | .bsend u => decide (u < 4096)
  | .brecv u => decide (u < 4096)
  | .chainRendezvous u => decide (u < 4096)
  | .chainTimeout u => decide (u < 4096)
  | .loop u => decide (u < 4096)
  | .endl u => decide (u < 4096)
  | .yield u => decide (u < 4096)
  | .fencec u => decide (u < 4096)
  | .firnParkEnd u => decide (u < 4096)
  | .refreshDue u _ => decide (u < 4096)
  | .firnCmdTimeout u => decide (u < 4096)
  | .firnUnitFail u _ => decide (u < 4096)
  | .firnSetStartDone k => decide (k < 128)
  | .firnSetStopped k => decide (k < 128)
  | .nop c => decide (c < 32)
  | .repeatCmd c => decide (c < 32)
  | .endRepeat c => decide (c < 32)
  | .call c => decide (c < 32)
  | .returnCmd c => decide (c < 32)
  | .endCmd c => decide (c < 32)
  | .streamEnd c => decide (c < 32)
  | .cheapPoint c => decide (c < 32)
  | .semWait c => decide (c < 32)
  | .semWaitGrant r => r.wf
  | .semSignal c => decide (c < 32)
  | .fence c => decide (c < 32)
  | .firnPush c => decide (c < 32)
  | .firnHold c => decide (c < 32)
  | .matmul c => decide (c < 32)
  | .matmulPacked c => decide (c < 32)
  | .vec c => decide (c < 32)
  | .vred c => decide (c < 32)
  | .quant c => decide (c < 32)
  | .engineCommandComplete c q _ => decide (c < 32) && decide (q < 24)
  | .tileFault t _ => decide (t < 256)
  | .bundleLoad ch _ => ch.wf
  | .bundleUnload ch => ch.wf
  | .jobBreakSet ch => ch.wf
  | .jobResumeRun ch => ch.wf
  | .jobResumeStep ch => ch.wf
  | .semCreate ch => ch.wf
  | .semDestroy ch => ch.wf
  | .snwKvClass ch => ch.wf
  | .snwSeqCreate ch => ch.wf
  | .snwSeqFork ch => ch.wf
  | .snwSeqTruncate ch => ch.wf
  | .snwSeqFree ch => ch.wf
  | .snwSeqQuery ch => ch.wf
  | .snwSeqPark ch => ch.wf
  | .snwSeqRestore ch => ch.wf
  | .snwArenaAdd ch => ch.wf
  | .snwArenaWithdraw ch => ch.wf
  | .snwNsJoin ch => ch.wf
  | .snwNsLeave ch => ch.wf
  | .snwNsCreate ch => ch.wf
  | .snwNsDestroy ch => ch.wf
  | .pageMoveSwitch p _ => decide (p < 32)
  | .srvModelLoad ch => ch.wf
  | .srvModelUnload ch => ch.wf
  | .srvAdapterLoad ch => ch.wf
  | .srvAdapterUnload ch => ch.wf
  | .srvReqCancel ch => ch.wf
  | .srvReqRebind ch => ch.wf
  | .srvReqQuery ch => ch.wf
  | .stepBoundary p m => decide (p < 32) && decide (m < 16)
  | .stepRetry p m => decide (p < 32) && decide (m < 16)
  | .partCreate ch => ch.wf
  | .partitionRunning p => decide (p < 32)
  | .partDestroy ch => ch.wf
  | .partitionStopped p => decide (p < 32)
  | .clientSet ch => ch.wf
  | .jobDispatch p => decide (p < 32)
  | .sliceExpiry j => decide (j < 4096)
  | .preemptBoundExpiry j => decide (j < 4096)
  | .preemptSaveDone j => decide (j < 4096)
  | .holdBoundExpiry r => r.wf
  | .heartbeat _ => true
  | .heartbeatTimeout => true
  | .drvAdoptKeep ch => ch.wf
  | .drvAdoptDiscard ch => ch.wf
  | .graceExpiry => true
  | .ledgerSnapshot i n => initOk i && decide (n < 0x260)
  | .ledgerAudit => true
  | .governorWindow m => m.wf
  | .eskPortStart ch => ch.wf
  | .eskPortStop ch => ch.wf
  | .portTrainingDone p t => decide (p < 16) && t.wf
  | .retrainTimer p => decide (p < 16)
  | .lossOfSignal p => decide (p < 16)
  | .keepaliveTimeout p => decide (p < 16)
  | .flitReceive p fl => decide (p < 16) && fl.wf
  | .laneLockLoss p lane => decide (p < 16) && decide (lane < 9)
  | .laneErrorWindow p errs => decide (p < 16) && decide (errs.length ≤ 9)
  | .eskWritePacket p k => decide (p < 16) && k.wf
  | .eskRedPacket p k => decide (p < 16) && k.wf
  | .eskReadPacket p k => decide (p < 16) && k.wf
  | .eskAtomicPacket p k => decide (p < 16) && k.wf
  | .eskAckPacket p k => decide (p < 16) && k.wf
  | .eskDataPacket p k => decide (p < 16) && k.wf
  | .eskMgmtPacket p k msg => decide (p < 16) && k.wf && decide (msg.length ≤ 16)
  | .ackTimeoutExpiry tag => decide (tag < 65536)
  | .vc1EscapeTimeout p => decide (p < 16)
  | .timeSyncTick _ _ _ _ _ => true
  | .eskNodeSet ch => ch.wf
  | .eskRouteSet ch => ch.wf
  | .eskRouteGet ch => ch.wf
  | .eskDomainJoin ch => ch.wf
  | .eskDomainLeave ch => ch.wf
  | .eskAllot ch => ch.wf
  | .eskGroupSet ch => ch.wf
  | .eskFarGrant ch => ch.wf
  | .eskFabricSet ch => ch.wf
  | .rimeKick n => decide (n < 7)
  | .watchdogExpiry n => decide (n < 7)
  | .rimeCoreFault n cause _ _ => decide (n < 7) && decide (1 ≤ cause ∧ cause ≤ 5)
  | .rimeCoreRestarted n => decide (n < 7)
  | .rootCoreFault cause => decide (1 ≤ cause ∧ cause ≤ 5)
  | .fwLoad ch _ => ch.wf
  | .fwUpdate ch _ => ch.wf
  | .fwRestart ch => ch.wf
  | .fwStatus ch => ch.wf
  | .vinPresent mv => decide (mv < 65536)
  | .morResetCold i _ => initOk i
  | .morResetWarm i _ => initOk i
  | .sidebandColdReset => true
  | .sidebandWarmReset => true
  | .perstAssert => true
  | .hotReset => true
  | .perstDeassert => true
  | .settleExpiry => true
  | .stackTrainingDone untrained failedUnits => untrained.all (fun n => decide (n < 24)) && failedUnits.all fun u => decide (u < 4096)
  | .fnCtrlQuery ch => ch.wf
  | .fnCtrlStart ch => ch.wf
  | .fnCtrlStop ch => ch.wf
  | .refclkLoss _ => true
  | .refclkRestore _ => true
  | .clkSelWrite i _ => initOk i
  | .altReadyLoss => true
  | .vinLow mv => decide (mv < 35000)
  | .vinHigh mv => decide (62000 < mv)
  | .railOutOfRegulation rail mv => decide (rail < 9) && decide (mv < 65536)
  | .pwrLimitWrite i _ => initOk i
  | .sensorConversion n _ _ => decide (n < 560)
  | .thermalTrip src _ _ => decide (src < 2)
  | .patrolRead n _ _ _ _ _ => decide (n < 24)
  | .rowCountDecay => true
  | .refetchComplete p _ _ => decide (p < 32)
  | .refetchRetry p _ _ => decide (p < 32)
  | .refetchTimeout p _ _ => decide (p < 32)
  | .tsvPathFail n ch bit => decide (n < 24) && decide (ch < 16) && decide (bit < 128)
  | .lcChallenge ch => ch.wf
  | .lcAdvance ch => ch.wf
  | .lcReturn ch => ch.wf
  | .lcScrap ch => ch.wf
  | .lcFloor ch => ch.wf
  | .debugUnlock ch => ch.wf
  | .attest ch => ch.wf
  | .attestRead ch => ch.wf
  | .eskKeyInstall ch => ch.wf
  | .eskKeySwitch ch => ch.wf
  | .ideKm _ => true
  | .pldmRequest sensor => decide (sensor < 566)
  | .iceStatus ch => ch.wf
  | .iceRead ch => ch.wf
  | .iceClear ch => ch.wf
  | .iceCommit _ => true
  | .iceBudgetToken => true
  | .iceScanDone => true
  | .operatingHour => true
  | .flashHoldAssert => true
  | .flashHoldRelease => true
  | .hostLinkTrained rate width _ => decide (rate < 8) && decide (width < 32)
  | .tileRemapDone t => decide (t < 256)
  | .channelGroupRunning k => decide (k < 192)
  | .channelGroupStopped k => decide (k < 192)
  | .portStoppingDone p => decide (p < 16)
  | .atsInvalidate f _ _ => decide (f < 64)
  | .pageZeroFillDone p _ => decide (p < 32)
  | .iceClearProgram => true

end Sys2Proof
end

