-- ==== Sys2Proof/Certificates/Slice0/Obligations.lean ====
section
/-! DEFINITION. The statements about the model, for the provers: what the rules of the manual say that the commands and
the machine do. A command's statement says that `exec` answers a next state, what that state holds, and what it leaves as
it was. -/

open Sys2Proof Sys2Proof.Machine

/-! ### The queue of commands -/

/-- A step takes the command at the front of the queue and is that command run with the queue's rest; no command
touches the queue; with no command waiting the block idles, which is the model's choice (log entry 8). -/
def Obligations.StepRunsFrontCommand : Prop :=
  (∀ (s : State) (c : Instr) (l : List Instr), step { s with pending := c :: l } = exec c { s with pending := l }) ∧
  (∀ (s : State) (c : Instr), ∃ t : State, exec c s = .next t ∧ t.pending = s.pending) ∧
  ∀ s : State, s.pending = [] → step s = .next s

/-! ### Registers (R4 to R7, R340, R377 to R379, R461) -/

/-- REGISTER_WRITE of a register whose write has no row of its own: a W1C bit written 1 is cleared, an RW bit takes the
value written, brought within its field's bounds, and every other bit and register is as before. A write to a register that
is not there, of a partition that does not exist or of a disabled Firn unit's command, is discarded (R119, R239, R271).
READ_CLEAR, W1C_WRITE (R5), where clears meet what hardware sets: a read of a field that a read clears leaves what the
events of that cycle added; a write of 1 to a W1C bit clears it unless hardware sets it in that cycle. Nothing else changes.
That PEAK is a field that a read clears is the model's reading (log entry 15). -/
def Obligations.RegisterWriteStores : Prop :=
  (∀ (s : State) (i : Nat) (bar : Bar) (off a : Nat) (v : Word),
    regAddr i bar off = some a → dataChan a = none → ctrlChan a = none → ¬(fnPage 0 ≤ a ∧ a < fnPage 64) →
    a ∉ [ICE_SEL, ICE_CLEAR, CLK_SEL, PWR_LIMIT, SCH_HB, MOR_RESET] →
    ¬(0x4000000 ≤ a ∧ a < 0x5000000 ∧ a % 0x1000 = 0x60) → s.blk.takesWrite a = true →
    ∃ t : State, exec (.registerWrite i bar off v) s = .next t ∧ t.pending = s.pending ∧
      { t.blk with regs := s.blk.regs } = s.blk ∧ (∀ b, b ≠ a → t.blk.rg b = s.blk.rg b) ∧
      ∀ j, j < 32 → (t.blk.rg a).bit j =
        if (w1cBits a).testBit j && v.bit j then false
        else if (rwBits a).testBit j then (clampWord (clampsOf a) v).bit j else (s.blk.rg a).bit j) ∧
  (∀ (s : State) (i : Nat) (bar : Bar) (off a : Nat) (v : Word), regAddr i bar off = some a →
    s.blk.takesWrite a = false →
    exec (.registerWrite i bar off v) s = .next s) ∧
  (∀ (s : State) (i : Nat) (bar : Bar) (off a event : Nat), regAddr i bar off = some a →
    ∃ t : State, exec (.readClear i bar off event) s = .next t ∧ t.pending = s.pending ∧
      { t.blk with regs := s.blk.regs } = s.blk ∧ (∀ b, b ≠ a → t.blk.rg b = s.blk.rg b) ∧
      ∀ j, j < 32 → (t.blk.rg a).bit j = if (rcBits a).testBit j then event.testBit j else (s.blk.rg a).bit j) ∧
  ∀ (s : State) (i : Nat) (bar : Bar) (off a : Nat) (v set : Word), regAddr i bar off = some a →
    ∃ t : State, exec (.w1cWrite i bar off v set) s = .next t ∧ t.pending = s.pending ∧
      { t.blk with regs := s.blk.regs } = s.blk ∧ (∀ b, b ≠ a → t.blk.rg b = s.blk.rg b) ∧
      ∀ j, j < 32 → (t.blk.rg a).bit j =
        if (w1cBits a).testBit j then set.bit j || ((s.blk.rg a).bit j && !v.bit j) else (s.blk.rg a).bit j

/-- REGISTER_WRITE of a register whose write has a row of its own acts by that row: the doorbells and ring heads of the
writer's page, the source of clocks, the power limit, the heartbeat and a Firn unit's GO. -/
def Obligations.RegisterWriteActsByItsRow : Prop :=
  (∀ (s : State) (i k : Nat) (v : Word), i < 64 → k < 64 →
    exec (.registerWrite i .bar2 (4 * k) v) s = exec (.doorbell i k v) s ∧
    exec (.registerWrite i .bar2 (0x200 + 4 * k) v) s = exec (.ringHeadWrite i k v) s) ∧
  (∀ (s : State) (v : Word),
    exec (.registerWrite 0 .bar0 CLK_SEL v) s = exec (.clkSelWrite 0 v) s ∧
    exec (.registerWrite 0 .bar0 PWR_LIMIT v) s = exec (.pwrLimitWrite 0 v) s ∧
    exec (.registerWrite 0 .bar0 SCH_HB v) s = exec (.heartbeat v) s) ∧
  ∀ (s : State) (u : Nat) (v : Word), u < 4096 →
    exec (.registerWrite 0 .bar0 (0x4000000 + 0x1000 * u + 0x60) v) s = exec (.firnHostGo u v) s

/-- The halves of a 64-bit pair (R7). LO_READ_LATCH: a read of _LO latches the upper half for its reader alone, which a read of
_HI then returns; a reader that has read no _LO gets 0. HI_WRITE_STAGE: a write of _HI is staged for its writer and changes no
register. LO_WRITE_COMMIT: a write of _LO stores both halves at once, the upper one as it was staged last, in the bits that a
write sets. Nothing else changes. -/
def Obligations.RegisterPairs : Prop :=
  (∀ (s : State) (i : Nat) (bar : Bar) (off a : Nat), regAddr i bar off = some a → isLo a = true →
    ∃ t : State, exec (.loReadLatch i bar off) s = .next t ∧ t.pending = s.pending ∧
      hiRead t.blk i = readReg s.blk i (a + 4) ∧ (∀ k, k ≠ i → hiRead t.blk k = hiRead s.blk k) ∧
      { t.blk with latches := { t.blk.latches with lo := s.blk.latches.lo } } = s.blk) ∧
  (∀ (s : State) (i : Nat) (bar : Bar) (off a : Nat) (v : Word), regAddr i bar off = some (a + 4) → isLo a = true →
    ∃ t : State, exec (.hiWriteStage i bar off v) s = .next t ∧ t.pending = s.pending ∧
      kget t.blk.latches.hi (stageKey i a) = some v ∧
      (∀ k, k ≠ stageKey i a → kget t.blk.latches.hi k = kget s.blk.latches.hi k) ∧
      { t.blk with latches := { t.blk.latches with hi := s.blk.latches.hi } } = s.blk) ∧
  (∀ (s : State) (i : Nat) (bar : Bar) (off a : Nat) (h v : Word), regAddr i bar off = some a → isLo a = true →
    h = (kget s.blk.latches.hi (stageKey i a)).getD (s.blk.rg (a + 4)) →
    ∃ t : State, exec (.loWriteCommit i bar off v) s = .next t ∧ t.pending = s.pending ∧
      (∀ b, b ≠ a → b ≠ a + 4 → t.blk.rg b = s.blk.rg b) ∧
      (∀ j, j < 32 → (t.blk.rg a).bit j = if (rwBits a).testBit j then v.bit j else (s.blk.rg a).bit j) ∧
      (∀ j, j < 32 → (t.blk.rg (a + 4)).bit j = if (rwBits (a + 4)).testBit j then h.bit j else (s.blk.rg (a + 4)).bit j) ∧
      { t.blk with regs := s.blk.regs } = s.blk) ∧
  (∀ (s : State) (i : Nat) (bar : Bar) (off1 off a : Nat) (h v : Word), regAddr i bar off1 = some (a + 4) →
    regAddr i bar off = some a → isLo a = true →
    ∃ t r : State, exec (.hiWriteStage i bar off1 h) s = .next r ∧ exec (.loWriteCommit i bar off v) r = .next t ∧
      t.pending = s.pending ∧ (∀ b, b ≠ a → b ≠ a + 4 → t.blk.rg b = s.blk.rg b) ∧
      (∀ j, j < 32 → (t.blk.rg a).bit j = if (rwBits a).testBit j then v.bit j else (s.blk.rg a).bit j) ∧
      (∀ j, j < 32 → (t.blk.rg (a + 4)).bit j = if (rwBits (a + 4)).testBit j then h.bit j else (s.blk.rg (a + 4)).bit j) ∧
      { t.blk with regs := s.blk.regs, latches := { t.blk.latches with hi := s.blk.latches.hi } } = s.blk) ∧
  ∀ i : Nat, hiRead State.reset.blk i = 0

/-! ### Queues, rings and channels of a function (R382 to R394, R304, R327) -/

/-- DOORBELL (R383): the tail of an existing queue becomes the value written, when it is below the queue's size, and a
queue that a failed read stopped goes on; otherwise the doorbell is discarded and counted. Other queues keep their tails.
RING_HEAD_WRITE (R387): a write that consumes entries the ring holds, counted round its end, moves HEAD there; one that would
consume more is discarded and counted.
COALESCE_TIMER (R388): a ring whose oldest unannounced entry is COAL_US old sends its message once.
QUEUE_CREATE, QUEUE_DESTROY, RING_CREATE, RING_DESTROY: with a number that is free, a size of 2^4 to 2^16, an aligned
address and an existing ring or vector, the queue or ring is made; an idle queue and an unused ring go. Each answers OK, and
nothing of the block changes but the function's queues or rings and what carries the message.
Model choices: log entries 14, 102, 103. -/
def Obligations.QueuesAndRings : Prop :=
  (∀ (s : State) (f q : Nat) (v : Word) (x : HostQueue), f < 64 → q < 64 → s.blk.hostQueue f q = some x →
    v.fld 15 0 < 2 ^ x.k →
    ∃ t : State, exec (.doorbell f q v) s = .next t ∧ t.pending = s.pending ∧
      t.blk.hostQueue f q = some { x with tail := v.fld 15 0, stopped := false } ∧
      (∀ g r, (g, r) ≠ (f, q) → t.blk.hostQueue g r = s.blk.hostQueue g r) ∧ { t.blk with fns := s.blk.fns } = s.blk) ∧
  (∀ (s : State) (f q : Nat) (v : Word), f < 64 → q < 64 →
    (s.blk.hostQueue f q = none ∨ ∃ x, s.blk.hostQueue f q = some x ∧ 2 ^ x.k ≤ v.fld 15 0) →
    exec (.doorbell f q v) s = .next { s with blk := s.blk.bump (HIF_CNT f 0) }) ∧
  (∀ (s : State) (f r n : Nat) (v : Word) (x : Ring), f < 64 → r < 64 → s.blk.ring f r = some x →
    s.blk.fld (RING_HEAD f r) 15 0 < 2 ^ x.k → v.fld 15 0 < 2 ^ x.k →
    n = (v.fld 15 0 + (2 ^ x.k - s.blk.fld (RING_HEAD f r) 15 0)) % 2 ^ x.k → n ≤ x.filled → (s.blk.fn f).held = [] →
    ∃ t : State, exec (.ringHeadWrite f r v) s = .next t ∧ t.pending = s.pending ∧
      t.blk.fld (RING_HEAD f r) 15 0 = v.fld 15 0 ∧ t.blk.ring f r = some { x with filled := x.filled - n } ∧
      (∀ g q, (g, q) ≠ (f, r) → t.blk.ring g q = s.blk.ring g q) ∧ (∀ a, a ≠ RING_HEAD f r → t.blk.rg a = s.blk.rg a) ∧
      { t.blk with fns := s.blk.fns, regs := s.blk.regs } = s.blk) ∧
  (∀ (s : State) (f r : Nat) (v : Word) (x : Ring), f < 64 → r < 64 → s.blk.ring f r = some x →
    x.filled < (v.fld 15 0 + (2 ^ x.k - s.blk.fld (RING_HEAD f r) 15 0)) % 2 ^ x.k →
    exec (.ringHeadWrite f r v) s = .next { s with blk := s.blk.bump (HIF_CNT f 0) }) ∧
  (∀ (s : State) (f r : Nat) (x : Ring), s.blk.ring f r = some x → 0 < x.unann →
    x.since + x.coalUs * 1000 ≤ s.blk.now → s.blk.dmaStopped f = false →
    ∃ t : State, exec (.coalesceTimer f r) s = .next t ∧ t.pending = s.pending ∧
      t.blk.ring f r = some { x with unann := 0 } ∧
      t.blk.env.msi = kput s.blk.env.msi (f * 4096 + x.vector) (tget 0 s.blk.env.msi (f * 4096 + x.vector) + 1) ∧
      { t.blk with fns := s.blk.fns, env := s.blk.env } = s.blk) ∧
  (∀ (s : State) (ch : Chan) (f q k r a : Nat), s.blk.delivers ch 0x0201 → s.blk.backFree ch → f = chFn ch →
    q = (mreg (s.blk.msgWords ch) 1).fld 5 0 → k = (mreg (s.blk.msgWords ch) 1).fld 12 8 →
    r = (mreg (s.blk.msgWords ch) 1).fld 21 16 → a = mpair (s.blk.msgWords ch) 2 →
    s.blk.hostQueue f q = none → 4 ≤ k → k ≤ 16 → a % 4096 = 0 → (s.blk.ring f r).isSome = true →
    ∃ t : State, exec (.queueCreate ch) s = .next t ∧ t.pending = s.pending ∧ t.blk.repliedTo s.blk ch OK ∧
      (∃ x, t.blk.hostQueue f q = some x ∧ x.k = k ∧ x.ring = r ∧ x.addr = a ∧ x.tail = 0 ∧ x.stopped = false ∧
        x.request = (mreg (s.blk.msgWords ch) 1).bit 6) ∧
      { t.blk.mailBack s.blk with fns := s.blk.fns } = s.blk) ∧
  (∀ (s : State) (ch : Chan) (f q : Nat) (x : HostQueue), s.blk.delivers ch 0x0202 → s.blk.backFree ch → f = chFn ch →
    q = (mreg (s.blk.msgWords ch) 1).toNat → s.blk.hostQueue f q = some x → q < 64 → s.blk.sqHead f q = x.tail →
    s.blk.queueWork f q = false →
    ∃ t : State, exec (.queueDestroy ch) s = .next t ∧ t.pending = s.pending ∧ t.blk.repliedTo s.blk ch OK ∧
      t.blk.hostQueue f q = none ∧ { t.blk.mailBack s.blk with fns := s.blk.fns } = s.blk) ∧
  (∀ (s : State) (ch : Chan) (f r k v a : Nat), s.blk.delivers ch 0x0203 → s.blk.backFree ch → f = chFn ch →
    r = (mreg (s.blk.msgWords ch) 1).fld 5 0 → k = (mreg (s.blk.msgWords ch) 1).fld 12 8 →
    v = (mreg (s.blk.msgWords ch) 1).fld 26 16 → a = mpair (s.blk.msgWords ch) 2 →
    s.blk.ring f r = none → 4 ≤ k → k ≤ 16 → a % 4096 = 0 → v < vectors f →
    ∃ t : State, exec (.ringCreate ch) s = .next t ∧ t.pending = s.pending ∧ t.blk.repliedTo s.blk ch OK ∧
      (∃ x, t.blk.ring f r = some x ∧ x.k = k ∧ x.addr = a ∧ x.vector = v ∧ x.filled = 0 ∧ x.csn = 1 ∧
        x.coalUs = (mreg (s.blk.msgWords ch) 4).fld 15 0 ∧ x.coalN = (mreg (s.blk.msgWords ch) 4).fld 31 16) ∧
      { t.blk.mailBack s.blk with fns := s.blk.fns } = s.blk) ∧
  ∀ (s : State) (ch : Chan) (f r : Nat), s.blk.delivers ch 0x0204 → s.blk.backFree ch → f = chFn ch →
    r = (mreg (s.blk.msgWords ch) 1).toNat → (s.blk.ring f r).isSome = true →
    ((s.blk.fn f).queues.any fun e => e.2.ring == r) = false → holdsRing (s.blk.fn f).held r = false →
    ∃ t : State, exec (.ringDestroy ch) s = .next t ∧ t.pending = s.pending ∧ t.blk.repliedTo s.blk ch OK ∧
      t.blk.ring f r = none ∧ { t.blk.mailBack s.blk with fns := s.blk.fns } = s.blk

/-- What a function's host-bound DMA and translations do when the host acts on them (R304, R327, R328, R418): a VF's
bus-master disable stops its DMA and nothing else, the PF's is also a loss of the driver; an enable, with nothing held,
starts it again; a translation invalidated is cached no more; the host link falls when it is lost. That DMA counts as
stopped while the link is down is the model's choice (log entry 14).
VF_FLR, of a function without jobs, requests or a partition, leaves it no queue, ring or window, and every register of
its page at reset; other functions keep theirs. PF_FLR, with the driver lost already and nothing running, leaves the PF's
bus-master enable off, every VF as a VF_FLR leaves it, and the PF's counters at 0.
Model choices: log entries 14, 106, 107. -/
def Obligations.FunctionEvents : Prop :=
  (∀ (s : State) (f : Nat), 0 < f → f < 64 →
    ∃ t : State, exec (.busMasterDisable f) s = .next t ∧ t.pending = s.pending ∧
      (t.blk.fn f).busMaster = false ∧ t.blk.dmaStopped f = true ∧ (∀ g, g ≠ f → t.blk.fn g = s.blk.fn g) ∧
      { t.blk with fns := s.blk.fns } = s.blk) ∧
  (∀ s : State, ∃ t : State, exec (.busMasterDisable 0) s = .next t ∧ t.pending = s.pending ∧ t.blk.lost = true) ∧
  (∀ (s : State) (f : Nat), f < 64 → (s.blk.fn f).held = [] →
    ∃ t : State, exec (.busMasterEnable f) s = .next t ∧ t.pending = s.pending ∧
      (t.blk.fn f).busMaster = true ∧ (∀ g, g ≠ f → t.blk.fn g = s.blk.fn g) ∧ { t.blk with fns := s.blk.fns } = s.blk) ∧
  (∀ (s : State) (f addr pages : Nat), f < 64 →
    ∃ t : State, exec (.atsInvalidate f addr pages) s = .next t ∧ t.pending = s.pending ∧
      (∀ p, p ∈ (t.blk.fn f).ats ↔ p ∈ (s.blk.fn f).ats ∧ ¬(addr / 4096 ≤ p ∧ p < addr / 4096 + pages)) ∧
      (∀ g, g ≠ f → t.blk.fn g = s.blk.fn g) ∧ { t.blk with fns := s.blk.fns } = s.blk) ∧
  (∀ s : State, s.blk.start.linkUp = true →
    ∃ t : State, exec .hostLinkDown s = .next t ∧ t.pending = s.pending ∧ t.blk.start.linkUp = false ∧
      ∀ f, t.blk.dmaStopped f = true) ∧
  (∀ (s : State) (f : Nat), 1 ≤ f → f < 64 → s.blk.jobs = [] → s.blk.reqs = [] → s.blk.part (s.blk.fnPart f) = none →
    (s.blk.fn f).held = [] →
    ∃ t : State, exec (.vfFlr f) s = .next t ∧ t.pending = s.pending ∧
      t.blk.fn f = { Fn.reset with busMaster := (s.blk.fn f).busMaster, ats := (s.blk.fn f).ats } ∧
      (∀ a, fnPage f ≤ a → a < fnPage f + 0x10000 → t.blk.rg a = regReset a) ∧
      (∀ g, g ≠ f → t.blk.fn g = s.blk.fn g)) ∧
  ∀ s : State, s.blk.lost = true → s.blk.jobs = [] → s.blk.reqs = [] → s.blk.parts = [] → (s.blk.fns.all fun e => e.2.held.isEmpty) = true →
    ∃ t : State, exec .pfFlr s = .next t ∧ t.pending = s.pending ∧ (t.blk.fn 0).busMaster = false ∧
      (∀ f, 1 ≤ f → f < 64 → t.blk.fn f = { Fn.reset with busMaster := (s.blk.fn f).busMaster, ats := (s.blk.fn f).ats }) ∧
      ∀ k, k < 5 → t.blk.rg (HIF_CNT 0 k) = 0

/-- The entry of a queue taken (R383). JOB_SUBMIT: with an entry before TAIL, DMA running and the core up, the device reads it,
HEAD passes it, and a job of a loaded bundle of the function's partition is ready. REQUEST_SUBMIT: likewise a request that
passes the checks of R257 is queued or paused. In either, an entry that cannot be read stops the queue with HEAD in place and
is counted.
Model choices: log entry 102. -/
def Obligations.SubmissionTakesTheEntry : Prop :=
  (∀ (s : State) (f q : Nat) (x : HostQueue), f < 64 → q < 64 → s.blk.takeable f q false = some x →
    s.blk.hostOk (x.addr + 64 * s.blk.sqHead f q) 64 = false →
    ∃ t : State, exec (.jobSubmit f q) s = .next t ∧ t.pending = s.pending ∧
      t.blk.hostQueue f q = some { x with stopped := true } ∧ t.blk.sqHead f q = s.blk.sqHead f q ∧
      (t.blk.rg (HIF_CNT f 4)).toNat = min 0xFFFFFFFF ((s.blk.rg (HIF_CNT f 4)).toNat + 1) ∧
      { t.blk with fns := s.blk.fns, regs := s.blk.regs } = s.blk) ∧
  (∀ (s : State) (f q : Nat) (x : HostQueue), f < 64 → q < 64 → s.blk.takeable f q true = some x →
    s.blk.hostOk (x.addr + 128 * s.blk.sqHead f q) 128 = false →
    ∃ t : State, exec (.requestSubmit f q) s = .next t ∧ t.pending = s.pending ∧
      t.blk.hostQueue f q = some { x with stopped := true } ∧ t.blk.sqHead f q = s.blk.sqHead f q ∧
      (t.blk.rg (HIF_CNT f 4)).toNat = min 0xFFFFFFFF ((s.blk.rg (HIF_CNT f 4)).toNat + 1) ∧
      { t.blk with fns := s.blk.fns, regs := s.blk.regs } = s.blk) ∧
  (∀ (s : State) (f q : Nat) (x : HostQueue) (b : Bundle), f < 64 → q < 64 → s.blk.takeable f q false = some x → x.k ≤ 16 →
    s.blk.hostOk (x.addr + 64 * s.blk.sqHead f q) 64 = true → s.blk.inBreach = false →
    (s.blk.part (s.blk.fnPart f)).isSome = true →
    kget s.blk.bundles ((mreg (bytesWords 16 (s.blk.hostRead (x.addr + 64 * s.blk.sqHead f q) 64)) 0).fld 15 0) = some b →
    b.part = s.blk.fnPart f →
    ∃ t : State, exec (.jobSubmit f q) s = .next t ∧ t.pending = s.pending ∧ t.blk.nextJob = s.blk.nextJob + 1 ∧
      t.blk.sqHead f q = (s.blk.sqHead f q + 1) % 2 ^ x.k ∧ t.blk.hostQueue f q = some x ∧
      (∃ J, kget t.blk.jobs s.blk.nextJob = some J ∧ J.fn = f ∧ J.queue = q ∧ J.ring = x.ring ∧ J.state = .ready ∧
        J.desc = bytesWords 16 (s.blk.hostRead (x.addr + 64 * s.blk.sqHead f q) 64)) ∧
      (∀ j, j ≠ s.blk.nextJob → kget t.blk.jobs j = kget s.blk.jobs j) ∧ (∀ g, g ≠ f → t.blk.fn g = s.blk.fn g) ∧
      { t.blk with fns := s.blk.fns, regs := s.blk.regs, jobs := s.blk.jobs, nextJob := s.blk.nextJob } = s.blk) ∧
  ∀ (s : State) (f q k slot gen : Nat) (x : HostQueue) (d : List Word) (b : Block) (sq : Seq) (a : Option (Nat × Adapter)),
    f < 64 → q < 64 → s.blk.takeable f q true = some x → x.k ≤ 16 → s.blk.inBreach = false → s.blk.takeEntry f q x = (some d, b) →
    (b.part (b.fnPart f)).isSome = true → b.reqStatus (b.fnPart f) (Req.fresh f q x.ring d b.now) = .ok (k, sq, a) →
    b.reqFreeSlot.1 = some (slot, gen) →
    ∃ t : State, exec (.requestSubmit f q) s = .next t ∧ t.pending = s.pending ∧
      t.blk.sqHead f q = (s.blk.sqHead f q + 1) % 2 ^ x.k ∧ t.blk.hostQueue f q = some x ∧
      (∃ R, kget t.blk.reqs slot = some R ∧ R.fn = f ∧ R.queue = q ∧ R.ring = x.ring ∧ R.desc = d ∧ R.gen = gen ∧
        R.seq = k ∧ R.emitted = 0 ∧ R.state = if pausedClass (b.level (b.fnPart f)) R.cls then .paused else .queued) ∧
      (∀ i, i ≠ slot → kget t.blk.reqs i = kget s.blk.reqs i) ∧ (∀ g, g ≠ f → t.blk.fn g = s.blk.fn g) ∧
      { t.blk with fns := s.blk.fns, regs := s.blk.regs, reqs := s.blk.reqs, reqGens := s.blk.reqGens,
                   freeCtr := s.blk.freeCtr } = s.blk

/-- MAILBOX_GO (R391): a GO with a length of 8 to 16 on a free channel sets FULL; one with another length sets the length
fault and sends nothing; one that meets FULL sets the overrun bit and leaves the message. MAILBOX_DATA_LAST_READ (R392):
reading the reply frees its channel when no other waits.
Model choices: log entries 103, 104. -/
def Obligations.MailboxFlags : Prop :=
  (∀ (s : State) (ch : Chan) (v : Word) (side : List Word), chOk ch = true → ch ≠ .mgmt → v.bit 8 = true →
    s.blk.full (chBase ch) = false → (ch = .s1 → (s.blk.box s1Base).owed = false) → 8 ≤ v.fld 4 0 → v.fld 4 0 ≤ 16 →
    ∃ t : State, exec (.mailboxGo ch v side) s = .next t ∧ t.pending = s.pending ∧ t.blk.full (chBase ch) = true ∧
      (t.blk.box (chBase ch)).len = v.fld 4 0 ∧ t.blk.mailBack s.blk = s.blk) ∧
  (∀ (s : State) (ch : Chan) (v : Word) (side : List Word), chOk ch = true → ch ≠ .mgmt → v.bit 8 = true →
    s.blk.full (chBase ch) = false → (ch = .s1 → (s.blk.box s1Base).owed = false) →
    ¬(8 ≤ v.fld 4 0 ∧ v.fld 4 0 ≤ 16) →
    exec (.mailboxGo ch v side) s = .next { s with blk := s.blk.wb (chBase ch + 0x44) 2 true }) ∧
  (∀ (s : State) (f n : Nat) (v : Word), f < 64 → n < 4 → v.bit 8 = true → s.blk.full (chBase (.fn f n)) = true →
    exec (.mailboxGo (.fn f n) v []) s =
      .next { s with blk := (s.blk.wb (chBase (.fn f n) + 0x44) 1 true).bump (HIF_CNT f 2) }) ∧
  ∀ (s : State) (ch : Chan), chOk ch = true → s.blk.full (chBack ch) = true → (s.blk.box (chBack ch)).waiting = [] →
    ∃ t : State, exec (.mailboxDataLastRead ch) s = .next t ∧ t.pending = s.pending ∧
      t.blk.full (chBack ch) = false ∧ (t.blk.box (chBack ch)).waiting = [] ∧ t.blk.mailBack s.blk = s.blk

/-! ### The aperture (R300, R380, R381) -/

/-- BAR4_READ and BAR4_WRITE: an access where no window is enabled reads zeros or stores nothing, and is counted; a read first
lets the units' queued writes land and repairs the rows whose errors it met. A read of bytes that its window covers, in
groups that run, of an object without poison or error, with no unit's write waiting, gives the object's bytes and changes
none. A write of bytes that a writable window covers, in groups that run, stores them in the object at the window's place,
and no other byte of that object changes.
WINDOW_SET and HOST_MAP_QUERY: a window over frames of an object that the function may name is set; one that is
disabled goes; the query of an existing queue or ring returns what its creation gave. Each answers OK, and nothing of the
block changes but the function's windows and what carries the message.
Model choices: log entries 105, 108. -/
def Obligations.WindowsAndAperture : Prop :=
  (∀ (s : State) (f off n : Nat), f < 64 → off < 2 ^ 36 → 0 < n → s.blk.firnSettle.window f off = none →
    exec (.bar4Read f off n) s = .next { s with blk := (s.blk.firnSettle.bump (HIF_CNT f 1)).repairMet } ∧
    bar4Bytes s.blk.firnSettle f off n = List.replicate n 0) ∧
  (∀ (s : State) (f off : Nat) (data : List Byte), f < 64 → off < 2 ^ 36 → data ≠ [] → s.blk.window f off = none →
    exec (.bar4Write f off data) s = .next { s with blk := s.blk.bump (HIF_CNT f 1) }) ∧
  (∀ (s : State) (f off n : Nat) (w : Window) (o : Obj), f < 64 → off < 2 ^ 36 → 0 < n → s.blk.window f off = some w →
    s.blk.byHandle (s.blk.fnPart f) w.handle = some o → o.data.poison = [] → s.blk.intact → s.blk.firnQueues = [] →
    (∀ i, i < n → (apertureByte w o off i).isSome = true ∧ s.blk.apertureUp f w o off false i = true) →
    ∃ t : State, exec (.bar4Read f off n) s = .next t ∧ t.pending = s.pending ∧
      t.blk.rg (HIF_CNT f 1) = s.blk.rg (HIF_CNT f 1) ∧
      (∀ p k, (t.blk.obj p k).map (fun x => (x.data, x.desc)) = (s.blk.obj p k).map fun x => (x.data, x.desc)) ∧
      bar4Bytes s.blk f off n = o.read (w.base + off % 2 ^ 32) n) ∧
  (∀ (s : State) (f off : Nat) (data : List Byte) (w : Window) (o : Obj), f < 64 → off < 2 ^ 36 → data ≠ [] →
    s.blk.window f off = some w → w.readOnly = false → s.blk.byHandle (s.blk.fnPart f) w.handle = some o →
    (∀ i, i < data.length → (apertureByte w o off i).isSome = true ∧ s.blk.apertureUp f w o off true i = true) →
    ∃ t : State, exec (.bar4Write f off data) s = .next t ∧ t.pending = s.pending ∧
      ∃ o', t.blk.byHandle (s.blk.fnPart f) w.handle = some o' ∧ o'.desc = o.desc ∧
        (∀ i, i < data.length → memByte o'.data.cells (w.base + off % 2 ^ 32 + i) = data.getD i 0) ∧
        ∀ v, (v < w.base + off % 2 ^ 32 ∨ w.base + off % 2 ^ 32 + data.length ≤ v) →
          memByte o'.data.cells v = memByte o.data.cells v) ∧
  (∀ (s : State) (ch : Chan) (f p base size : Nat) (h : Word) (o : Obj), s.blk.delivers ch 0x0205 → s.blk.backFree ch →
    (mreg (s.blk.msgWords ch) 1).bit 4 = true → f = chFn ch → p = s.blk.fnPart f → (s.blk.part p).isSome = true →
    (s.blk.msgTaken ch).fnPart f = p →
    h = mreg (s.blk.msgWords ch) 2 → base = mpair (s.blk.msgWords ch) 3 → size = (mreg (s.blk.msgWords ch) 5).toNat →
    s.blk.byHandle p h = some o → o.mayName f 0 = true → base % frameBytes = 0 → 0 < size → size ≤ 2048 →
    base + size * frameBytes ≤ viewEnd o.desc →
    ∃ t : State, exec (.windowEnable ch) s = .next t ∧ t.pending = s.pending ∧ t.blk.repliedTo s.blk ch OK ∧
      kget (t.blk.fn f).windows ((mreg (s.blk.msgWords ch) 1).fld 3 0) =
        some { handle := h, base := base, size := size, readOnly := (mreg (s.blk.msgWords ch) 1).bit 5 } ∧
      { t.blk.mailBack s.blk with fns := s.blk.fns } = s.blk) ∧
  (∀ (s : State) (ch : Chan), s.blk.delivers ch 0x0205 → s.blk.backFree ch → (mreg (s.blk.msgWords ch) 1).bit 4 = false →
    ∃ t : State, exec (.windowDisable ch) s = .next t ∧ t.pending = s.pending ∧ t.blk.repliedTo s.blk ch OK ∧
      kget (t.blk.fn (chFn ch)).windows ((mreg (s.blk.msgWords ch) 1).fld 3 0) = none ∧
      { t.blk.mailBack s.blk with fns := s.blk.fns } = s.blk) ∧
  (∀ (s : State) (ch : Chan) (i : Nat) (x : HostQueue), s.blk.delivers ch 0x0206 → s.blk.backFree ch → i = (mreg (s.blk.msgWords ch) 1).fld 9 4 →
    (mreg (s.blk.msgWords ch) 1).fld 1 0 = 0 → s.blk.hostQueue (chFn ch) i = some x →
    ∃ t : State, exec (.hostMapQuery ch) s = .next t ∧ t.pending = s.pending ∧ t.blk.repliedTo s.blk ch OK ∧
      t.blk.rg (chBack ch + 8) = x.r1 ∧ t.blk.rg (chBack ch + 12) = w32 x.addr ∧ t.blk.mailBack s.blk = s.blk) ∧
  ∀ (s : State) (ch : Chan) (i : Nat) (x : Ring), s.blk.delivers ch 0x0206 → s.blk.backFree ch → i = (mreg (s.blk.msgWords ch) 1).fld 9 4 →
    (mreg (s.blk.msgWords ch) 1).fld 1 0 = 1 → s.blk.ring (chFn ch) i = some x →
    ∃ t : State, exec (.hostMapQuery ch) s = .next t ∧ t.pending = s.pending ∧ t.blk.repliedTo s.blk ch OK ∧
      t.blk.rg (chBack ch + 8) = x.r1 ∧ t.blk.rg (chBack ch + 12) = w32 x.addr ∧ t.blk.mailBack s.blk = s.blk

/-! ### Messages of class 0x02 (R380, R382, R386, R397) -/

/-! ### Function resets and failed DMA (R389, R396) -/


/-! ### Tensor objects (R65 to R76, R87, R531) -/

/-- TENSOR_CREATE, TENSOR_QUERY, TENSOR_DESTROY, TENSOR_FIRN_MAP: a descriptor that the partition can place makes an object
of the sender's in a free slot, and its handle is the answer; the query answers the frame counts and the counters; an
object that nothing uses goes, and its handle names nothing; the map answers the unit and the pages of a piece.
Model choices: log entries 21, 23. -/
def Obligations.TensorMessages : Prop :=
  (∀ (s : State) (ch : Chan) (f p slot : Nat) (d : List Word) (b : Block), s.blk.delivers ch 0x0301 → s.blk.backFree ch →
    f = chFn ch → p = (s.blk.msgTaken ch).fnPart f → ((s.blk.msgTaken ch).part p).isSome = true →
    d = ((s.blk.msgWords ch).drop 1 ++ List.replicate 13 0).take 13 →
    (s.blk.msgTaken ch).create p f 0 d 0 0 0 = .ok (slot, b) → b.backFree ch →
    ∃ t : State, exec (.tensorCreate ch) s = .next t ∧ t.pending = s.pending ∧ t.blk.repliedTo s.blk ch OK ∧
      (∃ o, t.blk.obj p slot = some o ∧ o.owner = f ∧ o.desc = d ∧ o.data = Store.empty ∧
        t.blk.rg (chBack ch + 8) = mkHandle slot o.gen) ∧
      (∀ k, k ≠ slot → t.blk.obj p k = s.blk.obj p k) ∧ t.blk.tiles = s.blk.tiles ∧ t.blk.jobs = s.blk.jobs) ∧
  (∀ (s : State) (ch : Chan) (f p : Nat) (h : Word) (o : Obj) (q : Part), s.blk.delivers ch 0x0303 → s.blk.backFree ch →
    f = chFn ch → p = (s.blk.msgTaken ch).fnPart f → s.blk.part p = some q → (s.blk.msgTaken ch).part p = some q →
    h = mreg (s.blk.msgWords ch) 1 → s.blk.byHandle p h = some o → (s.blk.msgTaken ch).byHandle p h = some o →
    o.mayName f 0 = true →
    ∃ t : State, exec (.tensorQuery ch) s = .next t ∧ t.pending = s.pending ∧ t.blk.repliedTo s.blk ch OK ∧
      (∀ k, k < 4 → t.blk.rg (chBack ch + 8 + 4 * k) = w32 (sectFrames o.desc k)) ∧
      t.blk.rg (chBack ch + 36) = w32 o.migrations ∧ t.blk.rg (chBack ch + 40) = w32 o.hintsMissed ∧
      t.blk.mailBack s.blk = s.blk) ∧
  (∀ (s : State) (ch : Chan) (f p : Nat) (h : Word) (o : Obj), s.blk.delivers ch 0x0304 → s.blk.backFree ch →
    f = chFn ch → p = (s.blk.msgTaken ch).fnPart f → ((s.blk.msgTaken ch).part p).isSome = true →
    h = mreg (s.blk.msgWords ch) 1 → (s.blk.msgTaken ch).byHandle p h = some o → o.mayName f 0 = true →
    (s.blk.msgTaken ch).inUse p h = false → (s.blk.msgTaken ch).mapped p h = false →
    ∃ t : State, exec (.tensorDestroy ch) s = .next t ∧ t.pending = s.pending ∧ t.blk.byHandle p h = none ∧
      (∀ k, k ≠ hSlot h → t.blk.obj p k = s.blk.obj p k) ∧
      { t.blk.mailBack s.blk with objs := s.blk.objs, msc := s.blk.msc, clusters := s.blk.clusters } = s.blk) ∧
  ∀ (s : State) (ch : Chan) (f p : Nat) (h : Word) (o : Obj) (x : FirnPiece), s.blk.delivers ch 0x0305 → s.blk.backFree ch →
    f = chFn ch → p = (s.blk.msgTaken ch).fnPart f → ((s.blk.msgTaken ch).part p).isSome = true →
    h = mreg (s.blk.msgWords ch) 1 → (s.blk.msgTaken ch).byHandle p h = some o → o.mayName f 0 = true →
    kget o.pieces (mreg (s.blk.msgWords ch) 2).toNat = some x → x.pages.length = 4 →
    ∃ t : State, exec (.tensorFirnMap ch) s = .next t ∧ t.pending = s.pending ∧ t.blk.repliedTo s.blk ch OK ∧
      t.blk.rg (chBack ch + 8) = w32 x.unit ∧
      (∀ k, k < 4 → t.blk.rg (chBack ch + 12 + 8 * k) = w32 ((x.pages.getD k (0, 0)).1) ∧
        t.blk.rg (chBack ch + 16 + 8 * k) = w32 ((x.pages.getD k (0, 0)).2)) ∧
      t.blk.rg (chBack ch + 44) = w32 o.migrations ∧ t.blk.mailBack s.blk = s.blk

/-! ### Command streams (R174 to R203) -/

/-- NOP, REPEAT, END_REPEAT, CALL, RETURN, END, CHEAP_POINT on the control core (R180, R182 to R186, R201): where the
stream stands next, what is counted, and which loop or call opens or closes. A CALL of an attention routine does the routine's
work first, and a work that fails refuses it; RETURN leaves nothing in region 62 of the cluster's tiles (R187). Nothing else of the block changes.
Model choices: log entries 38, 167, 169. -/
def Obligations.ControlCommands : Prop :=
  (∀ (s : State) (c : Nat) (x : Issue) (k : Cluster), s.blk.runs c 0x00 x → s.blk.cl c = k →
    exec (.nop c) s = .next { s with blk := s.blk.setCl c (k.past (k.pos + 1)) }) ∧
  (∀ (s : State) (c : Nat) (x : Issue) (k : Cluster), s.blk.runs c 0x01 x → s.blk.cl c = k → x.cmd.b 2 31 = false →
    x.cmd.f 5 4 0 = 0 → x.cmd.f 4 22 0 ≤ shmEnd → x.cmd.n 1 = 0 →
    exec (.repeatCmd c) s = .next { s with blk := s.blk.setCl c (k.past (k.pos + x.cmd.f 3 15 0 + 1)) }) ∧
  (∀ (s : State) (c : Nat) (x : Issue) (k : Cluster), s.blk.runs c 0x01 x → s.blk.cl c = k → x.cmd.b 2 31 = false →
    x.cmd.f 5 4 0 = 0 → x.cmd.f 4 22 0 ≤ shmEnd → 0 < x.cmd.n 1 →
    ∃ t : State, exec (.repeatCmd c) s = .next t ∧ t.pending = s.pending ∧ (t.blk.cl c).pos = k.pos + 1 ∧
      (t.blk.cl c).count = (k.count + 1) % 2 ^ 48 ∧
      (t.blk.cl c).loops = { pos := k.pos, body := x.cmd.f 3 15 0, total := x.cmd.n 1, iter := 0, patches := [] } :: k.loops ∧
      { t.blk with clusters := s.blk.clusters } = s.blk) ∧
  (∀ (s : State) (c : Nat) (x : Issue) (k : Cluster) (f : LoopFrame) (l : List LoopFrame), s.blk.runs c 0x02 x →
    s.blk.cl c = k → k.loops = f :: l → f.iter + 1 < f.total →
    ∃ t : State, exec (.endRepeat c) s = .next t ∧ t.pending = s.pending ∧ (t.blk.cl c).pos = f.pos + 1 ∧
      (t.blk.cl c).loops = { f with iter := f.iter + 1 } :: l ∧ { t.blk with clusters := s.blk.clusters } = s.blk) ∧
  (∀ (s : State) (c : Nat) (x : Issue) (k : Cluster) (f : LoopFrame) (l : List LoopFrame), s.blk.runs c 0x02 x →
    s.blk.cl c = k → k.loops = f :: l → f.total ≤ f.iter + 1 →
    ∃ t : State, exec (.endRepeat c) s = .next t ∧ t.pending = s.pending ∧ (t.blk.cl c).pos = k.pos + 1 ∧
      (t.blk.cl c).loops = l ∧ { t.blk with clusters := s.blk.clusters } = s.blk) ∧
  (∀ (s : State) (c : Nat) (x : Issue) (k : Cluster), s.blk.runs c 0x03 x → s.blk.cl c = k → k.calls.length < 4 →
    (∃ r, s.blk.routine (x.cmd.f 1 15 0) = some r ∧ r.attn = none) →
    ∃ t : State, exec (.call c) s = .next t ∧ t.pending = s.pending ∧ (t.blk.cl c).pos = 0 ∧ (t.blk.cl c).loops = [] ∧
      (t.blk.cl c).rootTag = x.tag ∧
      (t.blk.cl c).calls =
        { routine := x.cmd.f 1 15 0, retPos := k.pos + 1, loops := k.loops,
          args := [x.cmd.w2, x.cmd.w3, x.cmd.w4, x.cmd.w5, x.cmd.w6, x.cmd.w7] } :: k.calls ∧
      { t.blk with clusters := s.blk.clusters } = s.blk) ∧
  (∀ (s : State) (c st : Nat) (x : Issue) (r : Routine) (k : AttnKind) (b : Block), s.blk.runs c 0x03 x →
    (s.blk.cl c).calls.length < 4 → s.blk.routine (x.cmd.f 1 15 0) = some r → r.attn = some k →
    s.blk.attnFree c k (callArgs x.cmd) = true → s.blk.attnCall (engCtx x 0) k (callArgs x.cmd) = (st, b) →
    exec (.call c) s = .next { s with blk := if st = OK then b.enterRoutine x else b.refuseIssue x st }) ∧
  (∀ (s : State) (c : Nat) (x : Issue) (k : Cluster) (f : CallFrame) (l : List CallFrame), s.blk.runs c 0x04 x →
    s.blk.cl c = k → k.calls = f :: l →
    ∃ t : State, exec (.returnCmd c) s = .next t ∧ t.pending = s.pending ∧ (t.blk.cl c).pos = f.retPos ∧
      (t.blk.cl c).calls = l ∧ (t.blk.cl c).loops = f.loops ∧
      (∀ u, t.blk.tile u = if u / 8 = c then { s.blk.tile u with mem := (s.blk.tile u).mem.dropRegion 62 } else s.blk.tile u) ∧
      { t.blk with clusters := s.blk.clusters, tiles := s.blk.tiles } = s.blk) ∧
  (∀ (s : State) (c : Nat) (x : Issue) (k : Cluster), s.blk.runs c 0x05 x → s.blk.cl c = k →
    ∃ t : State, exec (.endCmd c) s = .next t ∧ t.pending = s.pending ∧ (t.blk.cl c).state = .ending ∧
      (t.blk.cl c).count = (k.count + 1) % 2 ^ 48 ∧ { t.blk with clusters := s.blk.clusters } = s.blk) ∧
  (∀ (s : State) (c : Nat) (x : Issue) (k : Cluster), s.blk.runs c 0x06 x → s.blk.cl c = k →
    x.routine = false → (s.blk.holdsSem x.j = true ∨ 0 < s.blk.jobOut x.j) →
    ∃ t : State, exec (.cheapPoint c) s = .next t ∧ t.pending = s.pending ∧ t.blk.cl c = k.past (k.pos + 1) ∧
      (t.blk.rg (CCC_CHEAP_SKIPPED c)).toNat = min 0xFFFFFFFF ((s.blk.rg (CCC_CHEAP_SKIPPED c)).toNat + 1) ∧
      { t.blk with clusters := s.blk.clusters, regs := s.blk.regs } = s.blk) ∧
  (∀ (s : State) (c : Nat) (x : Issue) (k : Cluster), s.blk.runs c 0x06 x → s.blk.cl c = k → x.routine = false →
    s.blk.holdsSem x.j = false → s.blk.jobOut x.j = 0 → k.preempt = true →
    ∃ t : State, exec (.cheapPoint c) s = .next t ∧ t.pending = s.pending ∧
      t.blk.cl c = { k.past (k.pos + 1) with cheap := some x.cmd } ∧ { t.blk with clusters := s.blk.clusters } = s.blk) ∧
  ∀ (s : State) (c : Nat) (x : Issue) (k : Cluster), s.blk.runs c 0x06 x → s.blk.cl c = k →
    (x.routine = true ∨ (s.blk.holdsSem x.j = false ∧ s.blk.jobOut x.j = 0 ∧ k.preempt = false)) →
    exec (.cheapPoint c) s = .next { s with blk := s.blk.setCl c (k.past (k.pos + 1)) }

/-- SEM_WAIT, SEM_SIGNAL, FENCE on the control core, and SEM_WAIT_GRANT (R190 to R194, R285, R287): a wait that the count
allows takes its amount and the stream goes on; one that it does not allow waits behind the others; a signal raises the
count; a fence invalidates the read cache from chip scope up; the first waiter, once the count reaches its amount, takes
it and goes on. The fence is shown where no fill is under way and no flag has been read.
Model choices: log entries 42, 84. -/
def Obligations.SemaphoresAndFences : Prop :=
  (∀ (s : State) (c i : Nat) (x : Issue) (y : Sem), s.blk.runs c 0x08 x →
    s.blk.semRef x.j c (x.cmd.f 1 15 0) = some (.globalSem i) → kget s.blk.sems i = some y → y.waiters = [] →
    x.cmd.f 2 23 0 ≤ y.count → x.cmd.b 3 4 = false → x.cmd.b 3 0 = false →
    ∃ t : State, exec (.semWait c) s = .next t ∧ t.pending = s.pending ∧
      kget t.blk.sems i = some { y with count := y.count - x.cmd.f 2 23 0 } ∧
      (∀ k, k ≠ i → kget t.blk.sems k = kget s.blk.sems k) ∧ t.blk.cl c = (s.blk.cl c).past ((s.blk.cl c).pos + 1)) ∧
  (∀ (s : State) (c i : Nat) (x : Issue) (y : Sem), s.blk.runs c 0x08 x →
    s.blk.semRef x.j c (x.cmd.f 1 15 0) = some (.globalSem i) → kget s.blk.sems i = some y → y.holder = none →
    (y.waiters ≠ [] ∨ y.count < x.cmd.f 2 23 0) → x.cmd.b 3 0 = false → (s.blk.cl c).preempt = false →
    ∃ t : State, exec (.semWait c) s = .next t ∧ t.pending = s.pending ∧
      kget t.blk.sems i = some { y with waiters :=
        y.waiters ++ [{ cluster := c, queue := 24, cmd := x.count, amount := x.cmd.f 2 23 0, acquire := none, hold := x.cmd.b 3 4 }] } ∧
      t.blk.cl c = { (s.blk.cl c).past ((s.blk.cl c).pos + 1) with state := .waiting } ∧
      { t.blk with clusters := s.blk.clusters, sems := s.blk.sems } = s.blk) ∧
  (∀ (s : State) (c i : Nat) (x : Issue) (y : Sem), s.blk.runs c 0x09 x →
    s.blk.semRef x.j c (x.cmd.f 1 15 0) = some (.globalSem i) → kget s.blk.sems i = some y →
    y.count + x.cmd.f 2 23 0 ≤ 0xFFFFFF → x.cmd.b 3 4 = false → x.cmd.b 3 0 = false →
    ∃ t : State, exec (.semSignal c) s = .next t ∧ t.pending = s.pending ∧
      kget t.blk.sems i = some { y with count := y.count + x.cmd.f 2 23 0 } ∧
      (∀ k, k ≠ i → kget t.blk.sems k = kget s.blk.sems k) ∧ t.blk.cl c = (s.blk.cl c).past ((s.blk.cl c).pos + 1)) ∧
  (∀ (s : State) (c : Nat) (x : Issue), s.blk.runs c 0x0A x → x.cmd.f 1 1 0 = 2 → 1 ≤ x.cmd.f 1 3 2 →
    (s.blk.cl c).learnt = [] → (∀ l, l ∈ (s.blk.cl c).lines → l.filler = none) →
    ∃ t : State, exec (.fence c) s = .next t ∧ t.pending = s.pending ∧
      t.blk.cl c = { (s.blk.cl c).past ((s.blk.cl c).pos + 1) with lines := [] } ∧
      (t.blk.rg (CRC_INVALS c)).toNat = min 0xFFFFFFFF ((s.blk.rg (CRC_INVALS c)).toNat + 1) ∧
      { t.blk with clusters := s.blk.clusters, regs := s.blk.regs } = s.blk) ∧
  ∀ (s : State) (i j : Nat) (y : Sem) (w : Waiter) (l : List Waiter), kget s.blk.sems i = some y → y.waiters = w :: l →
    w.amount ≤ y.count → w.queue = 24 → w.hold = false → w.acquire = none → (s.blk.cl w.cluster).job = some j →
    (s.blk.cl w.cluster).state = .waiting →
    ∃ t : State, exec (.semWaitGrant (.globalSem i)) s = .next t ∧ t.pending = s.pending ∧
      kget t.blk.sems i = some { y with waiters := l, count := y.count - w.amount } ∧
      t.blk.cl w.cluster = { s.blk.cl w.cluster with state := .issuing } ∧
      (∀ k, k ≠ w.cluster → t.blk.cl k = s.blk.cl k)

/-- A command that names an engine enters that engine's queue behind those it holds, while its head runs: the core counts
it and stands at the next command, one slot passes from FREE to HELD, and nothing else changes (R175, R177, R343). With the
queue full the core stalls (R175). This holds of FIRN_PUSH, FIRN_HOLD, MATMUL, MATMUL_PACKED, VEC, VRED, QUANT, COPY,
COPY_STRIDED, ATOMIC, GATHER, SCATTER, SCATTER_ADD, and of NOP, SEM_WAIT, SEM_SIGNAL and FENCE in a queue.
A command that finds its engine's queue empty starts at once, and its effect is the engine's: MATMUL, MATMUL_PACKED,
VEC, VRED, QUANT, COPY, COPY_STRIDED, ATOMIC, GATHER, SCATTER, SCATTER_ADD; FIRN_PUSH and FIRN_HOLD, which wait while units that they name have no
room. The rows whose errors it met are repaired. Its entry then waits for the engine to report it complete. FIRN_PUSH on the
control core goes on when each of its commands has entered its unit's queue.
Model choices: log entry 42. -/
def Obligations.EngineCommands : Prop :=
  (∀ (s : State) (i : Instr) (c op q : Nat) (x : Issue) (e : QEntry) (l : List QEntry),
    i ∈ [.nop c, .semWait c, .semSignal c, .fence c, .firnPush c, .firnHold c, .matmul c, .matmulPacked c, .vec c, .vred c, .quant c,
      .copy c, .copyStrided c, .atomic c, .gather c, .scatter c, .scatterAdd c] → Instr.streamOp i = some (c, op) →
    s.blk.issues c op x → x.cmd.engine = q → q < 24 → (s.blk.cl c).queue q = e :: l → e.started = true →
    l.length < 63 → (s.blk.ledger (0x80 + c)).ok = true → 0 < (s.blk.ledger (0x80 + c)).free →
    ∃ t : State, exec i s = .next t ∧ t.pending = s.pending ∧
      t.blk.cl c = ((s.blk.cl c).past ((s.blk.cl c).pos + 1)).setQueue q (e :: l ++ [x.entry]) ∧
      (∀ d, d ≠ c → t.blk.cl d = s.blk.cl d) ∧
      t.blk.ledger (0x80 + c) = { s.blk.ledger (0x80 + c) with
        free := (s.blk.ledger (0x80 + c)).free - 1, held := (s.blk.ledger (0x80 + c)).held + 1 } ∧
      { t.blk with clusters := s.blk.clusters, led := s.blk.led } = s.blk) ∧
  (∀ (s : State) (i : Instr) (c op q : Nat) (x : Issue),
    i ∈ [.nop c, .semWait c, .semSignal c, .fence c, .firnPush c, .firnHold c, .matmul c, .matmulPacked c, .vec c, .vred c, .quant c,
      .copy c, .copyStrided c, .atomic c, .gather c, .scatter c, .scatterAdd c] → Instr.streamOp i = some (c, op) →
    s.blk.issues c op x → x.cmd.engine = q → q < 24 → 64 ≤ ((s.blk.cl c).queue q).length →
    ∃ t : State, exec i s = .next t ∧ t.pending = s.pending ∧
      t.blk.cl c = { s.blk.cl c with state := .stalled, stallQ := q } ∧ { t.blk with clusters := s.blk.clusters } = s.blk) ∧
  (∀ (s : State) (i : Instr) (c op q : Nat) (x : Issue) (b r : Block),
    i ∈ [.matmul c, .matmulPacked c, .vec c, .vred c, .quant c, .copy c, .copyStrided c, .atomic c, .gather c, .scatter c,
      .scatterAdd c] → Instr.streamOp i = some (c, op) →
    s.blk.issues c op x → s.blk.starts x q → engRun (engCtx x q) (s.blk.entered x q) = (OK, r) → b = r.repairMet →
    (b.cl c).queue q = [{ x.entry with started := true }] →
    ∃ t : State, exec i s = .next t ∧ t.pending = s.pending ∧ { t.blk with clusters := b.clusters } = b ∧
      ∀ d, t.blk.cl d = b.cl d) ∧
  (∀ (s : State) (i : Instr) (c op q n : Nat) (w : Bool) (x : Issue) (b r : Block), i ∈ [.firnPush c, .firnHold c] →
    Instr.streamOp i = some (c, op) → s.blk.issues c op x → s.blk.starts x q →
    (s.blk.entered x q).pushStatus x (c * 8 + q % 8) = none → (s.blk.entered x q).pushPoison x = false →
    (s.blk.entered x q).goOn x q 0 = ((w, n, OK), r) → b = r.repairMet →
    (b.cl c).queue q = [{ x.entry with started := true }] →
    ∃ t : State, exec i s = .next t ∧ t.pending = s.pending ∧ { t.blk with clusters := b.clusters } = b ∧
      (∀ d, d ≠ c → t.blk.cl d = b.cl d) ∧
      t.blk.cl c = (b.cl c).setQueue q [{ x.entry with started := true, waiting := w, done := n }]) ∧
  ∀ (s : State) (c : Nat) (x : Issue) (b : Block), s.blk.runs c 0x0C x → s.blk.pushStatus x 0 = none → s.blk.pushPoison x = false →
    (s.blk.cl c).pushDone = 0 → s.blk.pushFrom x (x.cmd.f 3 12 0) 0 = (x.cmd.f 3 12 0, b) →
    exec (.firnPush c) s = .next { s with blk := (b.modCl c fun k => { k with pushDone := 0 }).issuedNext c }

/-- What COPY, VEC and MATMUL leave in memory, started in an empty queue on operands without poison (R48, R151, R154, R162,
R164, R197, R199, R200): COPY from tile memory to the cluster's shared memory, its bytes, and none beside them; VEC, elements
of one group in tile memory apart from its sources, the value of its sub-operation on each; MATMUL, once complete, at (i, j) of
C the combination of the blocks of the product, whichever of its passes have run by the time it is seen.
Model choices: log entries 2, 11, 19. -/
def Obligations.EngineResults : Prop :=
  (∀ (s : State) (c q a b n u : Nat) (x : Issue) (e : Block), s.blk.issues c 0x40 x → s.blk.starts x q → u = c * 8 + q % 8 →
    e = s.blk.entered x q → e.err.met = [] → a = copySrc x.cmd →
    b = copyDst x.cmd → n = x.cmd.n 6 → x.cmd.f 5 27 26 = 0 → x.cmd.f 7 19 18 = 1 → x.cmd.f 7 21 20 = 2 →
    (e.tile u).mem.poison = [] → e.tmOk u x.routine a n = true → b + n ≤ shmEnd → 0 < n →
    ∃ t : State, exec (.copy c) s = .next t ∧ t.pending = s.pending ∧ t.blk.tiles = e.tiles ∧ t.blk.objs = e.objs ∧
      (∀ i, i < n → memByte (t.blk.cl c).shm.cells (b + i) = memByte (e.tile u).mem.cells (a + i)) ∧
      (∀ v, (v < b ∨ b + n ≤ v) → memByte (t.blk.cl c).shm.cells v = memByte (e.cl c).shm.cells v) ∧
      (∀ d, d ≠ c → t.blk.cl d = e.cl d)) ∧
  (∀ (s : State) (c q d n u : Nat) (x : Issue) (e : Block) (T : Tile), s.blk.issues c 0x30 x → s.blk.starts x q →
    u = c * 8 + q % 8 → e = s.blk.entered x q → e.err.met = [] →
    e.tile u = T → d = x.cmd.w5.fld 21 0 → n = x.cmd.f 6 23 0 → 0 < n → n ≤ 256 → x.cmd.f 1 15 8 = 7 →
    1 ≤ x.cmd.f 1 7 0 → x.cmd.f 1 7 0 ≤ 6 → vecMem x.cmd.w5 = true → T.mem.poison = [] →
    ((vecSources x.cmd).all fun w => vecMem w && e.tmOk u x.routine (w.fld 21 0) (4 * n) &&
      decide (w.fld 21 0 + 4 * n ≤ d ∨ d + 4 * n ≤ w.fld 21 0)) = true → e.tmOk u x.routine d (4 * n) = true →
    ∃ t : State, exec (.vec c) s = .next t ∧ t.pending = s.pending ∧ t.blk.objs = e.objs ∧
      (∀ i, i < n → (t.blk.tile u).mem.word (d + 4 * i) =
        vecFloat false (x.cmd.f 1 7 0) (T.mem.word (x.cmd.w2.fld 21 0 + 4 * i)) (T.mem.word (x.cmd.w3.fld 21 0 + 4 * i))
          (if x.cmd.f 1 7 0 = 4 then T.mem.word (x.cmd.w4.fld 21 0 + 4 * i) else 0)) ∧
      (∀ v, (v < d ∨ d + 4 * n ≤ v) → memByte (t.blk.tile u).mem.cells v = memByte T.mem.cells v) ∧
      (∀ v, v ≠ u → t.blk.tile v = e.tile v)) ∧
  ∀ (s : State) (c q u ns : Nat) (x : Issue) (p : Product) (e b : Block), s.blk.issues c 0x20 x → s.blk.starts x q →
    u = c * 8 + q % 8 → e = s.blk.entered x q → e.err.met = [] →
    p = { a := plainOp (x.cmd.f 1 29 22) (x.cmd.f 1 21 0) (x.cmd.f 4 21 0)
            (pitchOf (x.cmd.f 4 31 22) (ceilDiv (x.cmd.f 7 18 0 * fmtBits (x.cmd.f 1 29 22)) 8)) (x.cmd.f 7 18 0) (x.cmd.b 3 24) 0 false,
          b := plainOp (x.cmd.f 2 29 22) (x.cmd.f 2 21 0) (x.cmd.f 5 21 0) 0 (x.cmd.f 7 18 0) (x.cmd.b 3 25) 0 true,
          c := x.cmd.f 3 21 0, cPitch := pitchOf (x.cmd.f 5 31 22) (4 * x.cmd.f 6 29 17), m := x.cmd.f 6 16 0,
          n := x.cmd.f 6 29 17, kblk := if x.cmd.f 7 26 19 = 0 then 4096 else x.cmd.f 7 26 19 * 32, acc := x.cmd.b 6 30 } →
    engMatmul (engCtx x q) e = (OK, b) → x.cmd.b 3 22 = false → x.cmd.b 3 23 = false →
    p.poisoned (e.tile u).mem = false → 0 < p.m → 4 * p.n ≤ p.cPitch →
    ∃ r t : State, exec (.matmul c) s = .next r ∧ exec (.engineCommandComplete c q ns) r = .next t ∧ t.pending = s.pending ∧
      t.blk.objs = e.objs ∧ (t.blk.cl c).queue q = [] ∧ (t.blk.tile u).arr.run = none ∧
      (∀ i j, i < p.m → j < p.n → (t.blk.tile u).mem.word (p.at_ i j) =
        combine (if p.acc then some ((e.tile u).mem.word (p.at_ i j)) else none)
          ((p.blocks (memByte (e.tile u).mem.cells) i j).map (·.v))) ∧
      (∀ v, v ≠ u → t.blk.tile v = e.tile v)

/-- ENGINE_COMMAND_COMPLETE: the head of a queue that has started well does what it still has to do (the passes left of a
product, a QUANT), leaves, its slot returns to FREE, its time is charged, and the next command may start. STREAM_END (R180,
R181, R292, R313, R385): a stream that has nothing left to do performs the writes of its cluster and ends, and with the last
stream its job, whose entry is written. TILE_FAULT: the tile is REMAPPING and nothing else of a cluster without a job
changes. A failed DMA of a job that waits ends it.
Model choices: log entries 10, 37, 165. -/
def Obligations.CompletionsOfWork : Prop :=
  (∀ (s : State) (c q ns : Nat) (x : Issue) (e : QEntry) (b r : Block), c < 32 → q < 24 → (s.blk.cl c).forced = false →
    (s.blk.cl c).queue q = [e] → e.started = true → e.waiting = false → e.status = OK → s.blk.headIssue c e = some x →
    engEnd (engCtx x q) s.blk = (OK, r) → b = r.repairMet →
    (b.ledger (0x80 + c)).ok = true → 0 < (b.ledger (0x80 + c)).flight →
    ∃ t : State, exec (.engineCommandComplete c q ns) s = .next t ∧ t.pending = s.pending ∧
      t.blk.cl c = ((b.cl c).setQueue q []).fillsDone q ∧ (∀ d, d ≠ c → t.blk.cl d = b.cl d) ∧
      (t.blk.ledger (0x80 + c)).free = (b.ledger (0x80 + c)).free + 1 ∧
      (t.blk.ledger (0x80 + c)).flight = (b.ledger (0x80 + c)).flight - 1 ∧
      t.blk.objs = b.objs ∧ t.blk.tiles = b.tiles) ∧
  (∀ (s : State) (c j : Nat) (J : Job) (b : Block), streamEndReady c s.blk = true → (s.blk.cl c).job = some j →
    b = s.blk.releaseAll c → b.jobAt j = some J → (∃ d, d ∈ J.clusters ∧ d ≠ c ∧ (b.cl d).ended = false) →
    ∃ t : State, exec (.streamEnd c) s = .next t ∧ t.pending = s.pending ∧
      t.blk.cl c = { b.cl c with ended := true, state := .idle } ∧
      t.blk.jobAt j = some { J with numSums := addLists J.numSums (b.clusterNums c) } ∧
      { t.blk with clusters := b.clusters, jobs := b.jobs } = b) ∧
  (∀ (s : State) (c j : Nat) (J : Job), streamEndReady c s.blk = true → (s.blk.cl c).job = some j → s.blk.jobAt j = some J →
    J.clusters = [c] → J.placed = true →
    ∃ t : State, exec (.streamEnd c) s = .next t ∧ t.pending = s.pending ∧ t.blk.jobAt j = none ∧
      (∀ k, k ≠ j → t.blk.jobAt k = s.blk.jobAt k) ∧ (t.blk.cl c).job = none ∧ (t.blk.cl c).state = .idle ∧
      t.blk.env.hostUnmapped = s.blk.env.hostUnmapped) ∧
  (∀ (s : State) (u cause : Nat), tileFaultReady u s.blk = true → (s.blk.cl (u / 8)).job = none →
    ∃ t : State, exec (.tileFault u cause) s = .next t ∧ t.pending = s.pending ∧ t.blk.tileState u = 5 ∧
      (∀ a, a ≠ FLOE_STATE u → t.blk.rg a = s.blk.rg a) ∧ { t.blk with regs := s.blk.regs, err := s.blk.err } = s.blk) ∧
  ∀ (s : State) (j : Nat) (J : Job), s.blk.jobAt j = some J → J.state = .ready → J.fail = none →
    ∃ t : State, exec (.hostDmaFault (.job j)) s = .next t ∧ t.pending = s.pending ∧ t.blk.jobAt j = none ∧
      ∀ k, k ≠ j → t.blk.jobAt k = s.blk.jobAt k

/-! ### Stacks (R108 to R112) -/

/-- ACCESS_COUNT_DECAY halves every frame's count and takes the busy fractions of the last interval. FRAME_MIGRATION_SWITCH moves
the frame, and with it those that must share its stack, to one that R110 allows, and counts the moves; the data stay.
STACK_TEMP_POLL writes a stack's temperature and its levels, WARN from 85 to below 82 and THROTTLE from 95 to below 92,
and trips the module from 105 up. STACK_REPORT_TIMEOUT clears VALID.
Model choices: log entries 21, 26, 29. -/
def Obligations.StackCommands : Prop :=
  (∀ (s : State) (busy : List (Nat × Nat × Nat)),
    ∃ t : State, exec (.accessCountDecay busy) s = .next t ∧ t.pending = s.pending ∧
      (∀ p k, t.blk.obj p k = (s.blk.obj p k).map Obj.decay) ∧
      (∀ p, (t.blk.part p).map (fun q => { q with busyFrac := [] }) = (s.blk.part p).map fun q => { q with busyFrac := [] }) ∧
      (∀ p, { t.blk.snowOf p with counts := (s.blk.snowOf p).counts } = s.blk.snowOf p) ∧
      { t.blk with objs := s.blk.objs, parts := s.blk.parts, snow := s.blk.snow } = s.blk) ∧
  (∀ (s : State) (p fr : Nat) (h : Word) (q : Part) (o : Obj), migReady p h fr s.blk = true → s.blk.part p = some q →
    s.blk.byHandle p h = some o → fr < o.frames.length → s.blk.intact →
    ∃ t : State, exec (.frameMigrationSwitch p h fr) s = .next t ∧ t.pending = s.pending ∧
      (∃ o' n, t.blk.byHandle p h = some o' ∧ n ∈ s.blk.moveTargets p q o fr ∧ o'.data = o.data ∧
        o'.migrations = min 0xFFFFFFFF (o.migrations + (o.movesWith fr).length) ∧
        ∀ k, o'.frames[k]? = (o.frames[k]?).map fun g =>
          if k ∈ o.movesWith fr then { g with stack := n, groups := s.blk.stripeGroups q n, movedAt := s.blk.now } else g) ∧
      ∀ k, k ≠ hSlot h → t.blk.obj p k = s.blk.obj p k) ∧
  (∀ (s : State) (n temp : Nat), n < 24 → s.blk.pwr.pwrGood = true → s.blk.start.stacksDone = true → temp < 105 →
    ∃ t : State, exec (.stackTempPoll n temp) s = .next t ∧ t.pending = s.pending ∧
      t.blk.fld (STK_TEMP n) 7 0 = temp ∧ t.blk.bit (STK_TEMP n) 8 = true ∧
      t.blk.bit (STK_TEMP n) 9 = (decide (85 ≤ temp) || (s.blk.bit (STK_TEMP n) 9 && decide (82 ≤ temp))) ∧
      t.blk.bit (STK_TEMP n) 10 = (decide (95 ≤ temp) || (s.blk.bit (STK_TEMP n) 10 && decide (92 ≤ temp))) ∧
      (∀ a, a ∉ [STK_TEMP n, THM_CNT_WARN, ICE_DROPPED] → t.blk.rg a = s.blk.rg a) ∧
      { t.blk with regs := s.blk.regs, ice := s.blk.ice } = s.blk) ∧
  (∀ (s : State) (n temp : Nat), n < 24 → s.blk.pwr.pwrGood = true → s.blk.start.stacksDone = true → 105 ≤ temp →
    ∃ t : State, exec (.stackTempPoll n temp) s = .next t ∧ t.pending = s.pending ∧ t.blk.bit THM_STATE 16 = true ∧
      t.blk.pwr.pwrGood = false) ∧
  ∀ (s : State) (n : Nat), n < 24 → s.blk.bit (STK_TEMP n) 8 = true →
    ∃ t : State, exec (.stackReportTimeout n) s = .next t ∧ t.pending = s.pending ∧ t.blk.bit (STK_TEMP n) 8 = false ∧
      t.blk.fld (STK_TEMP n) 7 0 = s.blk.fld (STK_TEMP n) 7 0 ∧
      (∀ a, a ∉ [STK_TEMP n, ICE_DROPPED] → t.blk.rg a = s.blk.rg a) ∧
      { t.blk with regs := s.blk.regs, ice := s.blk.ice } = s.blk

/-! ### Firn units: commands (R117 to R127) -/

/-- FIRN_HOST_GO queues the staged command of an enabled unit with room. FIRN_RUN: a RUN that passes the checks of R123 leaves
the queue and runs from its entry, s1, s2 and s3 set. FIRN_FENCE: a FENCE that passes its checks waits as the running command;
FIRN_FENCE_COMPLETE completes it, FSEQ written. HOLD_BROADCAST_APPLY writes the data into HOLD and frees the entry.
Model choices: log entries 33, 35. -/
def Obligations.FirnCommands : Prop :=
  (∀ (s : State) (u : Nat) (v : Word), u < 4096 → v.bit 0 = true → s.blk.unitOn u = true → s.blk.firnRoom u = true →
    ∃ t : State, exec (.firnHostGo u v) s = .next t ∧ t.pending = s.pending ∧
      t.blk.fu u = { s.blk.fu u with queue :=
        (s.blk.fu u).queue ++ [.cmd .host (Cmd.ofWords ((List.range 8).map fun i => s.blk.rg (FIRN_HOST_CMD u i)))] } ∧
      (∀ w, w ≠ u → t.blk.fu w = s.blk.fu w) ∧ t.blk.firnState u = s.blk.firnState u) ∧
  (∀ (s : State) (u : Nat) (w : Cmd) (r : FirnSrc) (l : List Word), s.blk.firnHead u = some (.cmd r w) → w.op = 1 →
    s.blk.firnRunCheck u (.cmd r w) = .ok l → (s.blk.fu u).refDebt ≤ 3 →
    ∃ t : State, exec (.firnRun u) s = .next t ∧ t.pending = s.pending ∧ (t.blk.fu u).running = some (.cmd r w) ∧
      (t.blk.fu u).queue = (s.blk.fu u).queue.drop 1 ∧ (t.blk.fu u).pc = w.f 2 25 16 ∧ (t.blk.fu u).plist = l ∧
      (t.blk.fu u).reg 1 = w.w5 ∧ (t.blk.fu u).reg 2 = w.w6 ∧ (t.blk.fu u).reg 3 = w32 (w.f 4 11 0) ∧
      (t.blk.fu u).acc = [] ∧ (t.blk.fu u).stats = [] ∧ t.blk.firnState u = 3 ∧ t.blk.rg (FIRN_CUR_SEQ u) = w.w1 ∧
      (t.blk.fu u).hold = (s.blk.fu u).hold ∧ ∀ v, v ≠ u → t.blk.fu v = s.blk.fu v) ∧
  (∀ (s : State) (u : Nat) (w : Cmd) (r : FirnSrc), s.blk.firnHead u = some (.cmd r w) → w.op = 2 →
    s.blk.firnGate u (.cmd r w) = none →
    ∃ t : State, exec (.firnFence u) s = .next t ∧ t.pending = s.pending ∧ (t.blk.fu u).running = some (.cmd r w) ∧
      (t.blk.fu u).queue = (s.blk.fu u).queue.drop 1 ∧ t.blk.firnState u = 3 ∧ t.blk.rg (FIRN_CUR_SEQ u) = w.w1 ∧
      ∀ v, v ≠ u → t.blk.fu v = s.blk.fu v) ∧
  (∀ (s : State) (u : Nat) (w : Cmd), (s.blk.fu u).running = some (.cmd .host w) → w.op = 2 → w.b 0 8 = false →
    (s.blk.fu u).writeQ = [] → (s.blk.fu u).ownQ = [] →
    ∃ t : State, exec (.firnFenceComplete u) s = .next t ∧ t.pending = s.pending ∧ t.blk.firnAnswered u w OK ∧
      t.blk.rg (FIRN_HOST_FSEQ u) = w.w1 ∧ t.blk.firnState u = 2 ∧ (t.blk.fu u).queue = (s.blk.fu u).queue ∧
      ∀ v, v ≠ u → t.blk.fu v = s.blk.fu v) ∧
  ∀ (s : State) (u ep a : Nat) (r : FirnSrc) (d : List Byte), s.blk.firnHead u = some (.hold r ep a d []) →
    s.blk.firnGate u (.hold r ep a d []) = none →
    ∃ t : State, exec (.holdBroadcastApply u) s = .next t ∧ t.pending = s.pending ∧
      (t.blk.fu u).queue = (s.blk.fu u).queue.drop 1 ∧
      (∀ i, i < d.length → memByte (t.blk.fu u).hold.cells (32 * a + i) = d.getD i 0) ∧
      (∀ v, (v < 32 * a ∨ 32 * a + d.length ≤ v) →
        memByte (t.blk.fu u).hold.cells v = memByte (s.blk.fu u).hold.cells v) ∧
      (t.blk.fu u).acc = (s.blk.fu u).acc ∧ ∀ v, v ≠ u → t.blk.fu v = s.blk.fu v

/-! ### Firn units: micro-instructions (R128 to R136) -/

/-- ROW, SCALE, COMMIT and MAC (R130, R131, R133): a ROW appends to the stream the units that its targets name, or writes them
to HOLD; SCALE multiplies each element of its set; COMMIT puts its set's bytes into the write queue, which an open stream of
the unit returns from then on; a DOT of one held vector accumulates each row of its stream into the row's element. No other
unit and no memory changes.
Model choices: log entry 9. -/
def Obligations.FirnDataInstructions : Prop :=
  (∀ (s : State) (u : Nat) (i : Dword) (l : List (Word × Nat)), s.blk.executes u 0x01 i → s.blk.intact → mf i 57 56 = 0 →
    (s.blk.fu u).targets (mf i 55 44) (mf i 43 40) (mf i 39 36) (mf i 35 24) (mf i 23 12) = some l →
    ∃ t : State, exec (.row u) s = .next t ∧ t.pending = s.pending ∧ t.blk.stepped s.blk u 2 ∧
      t.blk.fu u = { (s.blk.fu u).next with stream := (s.blk.fu u).stream ++ l.map fun y =>
        { page := y.1.fld 11 0, off := y.2, data := (s.blk.bankRead u (y.1.fld 11 0) y.2).1,
          poison := (s.blk.bankRead u (y.1.fld 11 0) y.2).2 } }) ∧
  (∀ (s : State) (u : Nat) (i : Dword) (l : List (Word × Nat)), s.blk.executes u 0x01 i → s.blk.intact → mf i 57 56 = 1 →
    (s.blk.fu u).targets (mf i 55 44) (mf i 43 40) (mf i 39 36) (mf i 35 24) (mf i 23 12) = some l →
    mf i 11 2 + mf i 23 12 ≤ 1024 → (l.any fun y => (s.blk.bankRead u (y.1.fld 11 0) y.2).2) = false →
    ∃ t : State, exec (.row u) s = .next t ∧ t.pending = s.pending ∧ t.blk.stepped s.blk u (2 + mf i 23 12) ∧
      t.blk.fu u =
        { (s.blk.fu u).next with
          hold := (s.blk.fu u).hold.put (mf i 11 2 * 32) (l.flatMap fun y => (s.blk.bankRead u (y.1.fld 11 0) y.2).1) }) ∧
  (∀ (s : State) (u : Nat) (i : Dword) (k : Word), s.blk.executes u 0x18 i →
    k = (if mf i 56 56 = 0 then w32 (mf i 51 36 * 65536) else (s.blk.fu u).reg (mf i 55 52)) →
    ∃ t : State, exec (.scale u) s = .next t ∧ t.pending = s.pending ∧ t.blk.stepped s.blk u 2 ∧
      (∀ e, e < 1024 → (t.blk.fu u).el (mf i 57 57) e = fMul ((s.blk.fu u).el (mf i 57 57) e) k) ∧
      (∀ e, (t.blk.fu u).el (1 - mf i 57 57) e = (s.blk.fu u).el (1 - mf i 57 57) e) ∧
      { t.blk.fu u with acc := (s.blk.fu u).acc } = (s.blk.fu u).next) ∧
  (∀ (s : State) (u : Nat) (i : Dword) (l : List (Word × Nat)), s.blk.executes u 0x20 i →
    (s.blk.fu u).targets (mf i 54 43) (mf i 42 39) (mf i 38 35) (mf i 34 23) (mf i 22 11) = some l →
    (l.all fun y => y.1.fld 20 19 == 2) = true → l.length ≤ 256 →
    ∃ t : State, exec (.commit u) s = .next t ∧ t.pending = s.pending ∧ t.blk.stepped s.blk u (mf i 22 11) ∧
      ∃ bs : List BankUnit, t.blk.fu u = { (s.blk.fu u).next with
          ownQ := bs, stream := (s.blk.fu u).stream.map fun b => (bs.find? fun c => c.page == b.page && c.off == b.off).getD b } ∧
        bs = l.zipIdx.map fun y =>
          { page := y.1.1.fld 11 0, off := y.1.2, data := (s.blk.fu u).unitBytes (mf i 57 56) (mf i 55 55) y.2, poison := false }) ∧
  ∀ (s : State) (u o : Nat) (i : Dword) (x : FirnUnit) (m : MacIn), s.blk.executes u 0x08 i → s.blk.fu u = x → o = (x.reg (mf i 8 5)).toNat →
    mf i 57 57 = 0 → mf i 30 28 = 0 → mf i 19 19 = 0 → mf i 52 41 ≤ x.stream.length →
    m = { x := x, fmt := mf i 56 53, book := ((x.running.map FirnEntry.words).getD (Cmd.ofWords [])).w6,
          bytes := (x.stream.take (mf i 52 41)).flatMap (·.data), haddr := mf i 40 31, saddr := mf i 26 20, rlen := mf i 18 9,
          oreg := mf i 8 5, rows := mf i 52 41 / max 1 (mf i 18 9 * fmtBits (mf i 56 53) / 8),
          region := regionScale ((x.reg (mf i 4 1)).fld 15 0), region1 := mf i 4 1 == 0 } →
    ((x.stream.take (mf i 52 41)).any (·.poison)) = false → x.hold.poison = [] → x.scale.poison = [] →
    o + mf i 52 41 / max 1 (mf i 18 9 * fmtBits (mf i 56 53) / 8) ≤ 1024 →
    ∃ t : State, exec (.mac u) s = .next t ∧ t.pending = s.pending ∧ t.blk.inUnit s.blk u ∧
      (t.blk.fu u).stream = x.stream.drop (mf i 52 41) ∧
      (∀ j, j < mf i 52 41 / max 1 (mf i 18 9 * fmtBits (mf i 56 53) / 8) →
        (t.blk.fu u).el (mf i 27 27) (o + j) = m.dot 0 j (x.el (mf i 27 27) (o + j))) ∧
      (∀ e, (t.blk.fu u).el (1 - mf i 27 27) e = x.el (1 - mf i 27 27) e) ∧ (t.blk.fu u).hold = x.hold ∧ (t.blk.fu u).pc = x.pc + 1

/-- RSTAT, EXP, LOOP, ENDL, YIELD, FENCEC and what ends a park (R132, R134, R135, R140): the rows of statistics, the counter of
loops, a unit that parks once more than three refreshes are due and ends its command when its set is stopping, a command of
the host that completes.
Model choices: log entry 9. -/
def Obligations.FirnControlInstructions : Prop :=
  (∀ (s : State) (u v : Nat) (i : Dword), s.blk.executes u 0x10 i →
    (s.blk.fu u).valid (mf i 46 43) (mf i 40 29) (mf i 54 47) = some v →
    ∃ t : State, exec (.rstat u) s = .next t ∧ t.pending = s.pending ∧ t.blk.stepped s.blk u 4 ∧
      t.blk.fu u = (List.range (mf i 57 55 + 1)).foldl (fun x h => x.rstatRow (mf i 42 42) h v (mf i 41 41 == 1)) (s.blk.fu u).next) ∧
  (∀ (s : State) (u v : Nat) (i : Dword), s.blk.executes u 0x11 i →
    (s.blk.fu u).valid (mf i 46 43) (mf i 31 20) (mf i 54 47) = some v →
    ∃ t : State, exec (.exp u) s = .next t ∧ t.pending = s.pending ∧
      t.blk.stepped s.blk u (2 + ceilDiv ((mf i 57 55 + 1) * mf i 54 47) 64) ∧
      t.blk.fu u = (List.range (mf i 57 55 + 1)).foldl
        (fun x h => x.expRow (mf i 42 42) h v (mf i 54 47) (mf i 41 32)) (s.blk.fu u).next) ∧
  (∀ (s : State) (u n : Nat) (i : Dword), s.blk.executes u 0x30 i →
    n = (if mf i 57 57 = 1 then ((s.blk.fu u).reg (mf i 44 41)).toNat else mf i 56 45) →
    ∃ t : State, exec (.loop u) s = .next t ∧ t.pending = s.pending ∧ t.blk.stepped s.blk u 1 ∧
      t.blk.fu u =
        if n = 0 then { s.blk.fu u with pc := (s.blk.fu u).pc + 1 + mf i 40 31 }
        else
          { (s.blk.fu u).next with
            loops := { first := (s.blk.fu u).pc + 1, last := (s.blk.fu u).pc + mf i 40 31, total := n, iter := 0 } :: (s.blk.fu u).loops }) ∧
  (∀ (s : State) (u : Nat) (i : Dword) (l : FirnLoop) (r : List FirnLoop), s.blk.executes u 0x31 i → (s.blk.fu u).loops = l :: r →
    mf i 57 54 ≠ mf i 41 38 →
    ∃ t : State, exec (.endl u) s = .next t ∧ t.pending = s.pending ∧ t.blk.stepped s.blk u 1 ∧
      (t.blk.fu u).pc = (if l.iter + 1 < l.total then l.first else (s.blk.fu u).pc + 1) ∧
      (t.blk.fu u).loops = (if l.iter + 1 < l.total then { l with iter := l.iter + 1 } :: r else r) ∧
      ∀ k, (t.blk.fu u).reg k = (s.blk.fu u).reg k + if k = 0 then 0 else
        if k = mf i 57 54 then wOfInt (signExt 12 (mf i 53 42)) else if k = mf i 41 38 then wOfInt (signExt 12 (mf i 37 26)) else 0) ∧
  (∀ (s : State) (u : Nat) (i : Dword), s.blk.executes u 0x38 i → s.blk.firnSet u ≠ 3 →
    (s.blk.fu u).refDebt ≤ 3 →
    ∃ t : State, exec (.yield u) s = .next t ∧ t.pending = s.pending ∧ t.blk.stepped s.blk u 1 ∧ t.blk.fu u = (s.blk.fu u).next) ∧
  (∀ (s : State) (u : Nat) (i : Dword), s.blk.executes u 0x38 i → s.blk.firnSet u ≠ 3 → 3 < (s.blk.fu u).refDebt →
    ∃ t : State, exec (.yield u) s = .next t ∧ t.pending = s.pending ∧ t.blk.inUnit s.blk u ∧
      t.blk.fu u = { (s.blk.fu u).next with parked := true } ∧ t.blk.firnState u = 4) ∧
  (∀ (s : State) (u : Nat) (i : Dword) (w : Cmd), s.blk.executes u 0x38 i → s.blk.firnSet u = 3 →
    (s.blk.fu u).running = some (.cmd .host w) →
    ∃ t : State, exec (.yield u) s = .next t ∧ t.pending = s.pending ∧ t.blk.firnAnswered u w (ABORTED 0x6C) ∧
      t.blk.firnState u = 2 ∧ ∀ v, v ≠ u → t.blk.fu v = s.blk.fu v) ∧
  (∀ (s : State) (u : Nat) (i : Dword) (w : Cmd), s.blk.executes u 0x3C i → (s.blk.fu u).running = some (.cmd .host w) → w.op = 1 →
    ∃ t : State, exec (.fencec u) s = .next t ∧ t.pending = s.pending ∧ t.blk.firnAnswered u w OK ∧ t.blk.firnState u = 2 ∧
      (t.blk.fu u).queue = (s.blk.fu u).queue ∧ ∀ v, v ≠ u → t.blk.fu v = s.blk.fu v) ∧
  ∀ (s : State) (u : Nat), (s.blk.fu u).parked = true →
    ∃ t : State, exec (.firnParkEnd u) s = .next t ∧ t.pending = s.pending ∧ t.blk.onlyUnit s.blk u ∧
      t.blk.fu u = { s.blk.fu u with parked := false, refDebt := 0 } ∧
      t.blk.firnState u = (if (s.blk.fu u).wait.isSome then 5 else 3) ∧
      ∀ a, a ≠ FIRN_STATE u → t.blk.rg a = s.blk.rg a

/-! ### Firn units: the chain, time and service (R127, R139 to R147) -/

/-- CSEND, CRECV, BSEND, BRECV wait for their partner when it is in service; CHAIN_RENDEZVOUS of two sides that meet, with
equal lengths, gives the receiver what R142 and R143 say and both go on; CHAIN_TIMEOUT ends a side without a partner and is
counted. The waits are shown where no refresh is due and no set is stopping: they are yield points (R140).
Model choices: log entry 9. -/
def Obligations.FirnTransfers : Prop :=
  (∀ (s : State) (u v : Nat) (i : Dword) (send : Bool), s.blk.executes u (if send then 0x28 else 0x29) i →
    chainPeer u (mf i 57 56) = some v → s.blk.unitOn v = true → s.blk.firnSet u ≠ 3 → (s.blk.fu u).refDebt ≤ 3 →
    ∃ t : State, exec (if send then .csend u else .crecv u) s = .next t ∧ t.pending = s.pending ∧ t.blk.inUnit s.blk u ∧
      t.blk.firnState u = 5 ∧ (t.blk.fu u).wait = some
        { bus := false, dirOrPeer := mf i 57 56, send := send, kind := mf i 55 54, acc := mf i 53 53 == 1, addr := mf i 52 43,
          len := mf i 42 31 } ∧ { t.blk.fu u with wait := (s.blk.fu u).wait } = (s.blk.fu u).next) ∧
  (∀ (s : State) (u : Nat) (i : Dword) (send : Bool), s.blk.executes u (if send then 0x2C else 0x2D) i →
    s.blk.unitOn (busPeer u (mf i 57 50)) = true → s.blk.firnSet u ≠ 3 → (s.blk.fu u).refDebt ≤ 3 →
    ∃ t : State, exec (if send then .bsend u else .brecv u) s = .next t ∧ t.pending = s.pending ∧ t.blk.inUnit s.blk u ∧
      t.blk.firnState u = 5 ∧ (t.blk.fu u).wait = some
        { bus := true, dirOrPeer := mf i 57 50, send := send, kind := mf i 49 48, acc := mf i 47 47 == 1, addr := mf i 46 37,
          len := mf i 36 25 } ∧ { t.blk.fu u with wait := (s.blk.fu u).wait } = (s.blk.fu u).next) ∧
  (∀ (s : State) (u v : Nat) (a b : Rendezvous), s.blk.partner u = some (a, v, b) → v ≠ u → a.send = true → a.len = b.len →
    (a.kind = 2 ↔ b.kind = 2) → s.blk.firnSet u ≠ 3 → s.blk.firnSet v ≠ 3 → (s.blk.fu u).refDebt ≤ 3 → (s.blk.fu v).refDebt ≤ 3 →
    ∃ t : State, exec (.chainRendezvous u) s = .next t ∧ t.pending = s.pending ∧ t.blk.firnState u = 3 ∧ t.blk.firnState v = 3 ∧
      t.blk.fu u = { s.blk.fu u with wait := none } ∧
      t.blk.fu v = { transfer (s.blk.fu u) a (s.blk.fu v) b with wait := none } ∧
      (∀ w, w ≠ u → w ≠ v → t.blk.fu w = s.blk.fu w) ∧ { t.blk with firn := s.blk.firn, regs := s.blk.regs } = s.blk) ∧
  ∀ (s : State) (u : Nat) (w : Cmd), (s.blk.fu u).wait.isSome = true → s.blk.partner u = none →
    (s.blk.fu u).running = some (.cmd .host w) →
    ∃ t : State, exec (.chainTimeout u) s = .next t ∧ t.pending = s.pending ∧ t.blk.firnAnswered u w (TIMEOUT 0x66) ∧
      t.blk.firnState u = 2 ∧ (t.blk.fu u).wait = none ∧
      (t.blk.rg (FIRN_CNT_TIMEOUT u)).toNat = min 0xFFFFFFFF ((s.blk.rg (FIRN_CNT_TIMEOUT u)).toNat + 1) ∧ ∀ v, v ≠ u → t.blk.fu v = s.blk.fu v

/-- REFRESH_DUE counts a refresh postponed inside a segment, up to eight; FIRN_CMD_TIMEOUT ends a RUN at a yield point;
FIRN_UNIT_FAIL takes a unit out of service; FIRN_SET_START_DONE makes every enabled unit of a STARTING set IDLE in a new epoch, with
nothing in its buffers; FIRN_SET_STOPPED leaves the set STOPPED (R119, R127, R139, R140, R145 to R147).
Model choices: log entry 33. -/
def Obligations.FirnService : Prop :=
  (∀ (s : State) (u act : Nat), u < 4096 →
    ∃ t : State, exec (.refreshDue u act) s = .next t ∧ t.pending = s.pending ∧ t.blk.onlyUnit s.blk u ∧
      t.blk.fu u = { s.blk.fu u with
        act := act, refDebt := if s.blk.inSegment u then min 8 ((s.blk.fu u).refDebt + 1) else (s.blk.fu u).refDebt }) ∧
  (∀ (s : State) (u : Nat) (w : Cmd), s.blk.atYield u = true → (s.blk.fu u).running = some (.cmd .host w) →
    ∃ t : State, exec (.firnCmdTimeout u) s = .next t ∧ t.pending = s.pending ∧ t.blk.firnAnswered u w (TIMEOUT 0x67) ∧
      t.blk.firnState u = 2 ∧ (t.blk.rg (FIRN_CNT_TIMEOUT u)).toNat = min 0xFFFFFFFF ((s.blk.rg (FIRN_CNT_TIMEOUT u)).toNat + 1) ∧
      ∀ v, v ≠ u → t.blk.fu v = s.blk.fu v) ∧
  (∀ (s : State) (u cause : Nat), u < 4096 → s.blk.unitOn u = true → (s.blk.fu u).running = none → (s.blk.fu u).queue = [] →
    (s.blk.fu u).writeQ = [] → s.blk.objs = [] → s.blk.snow = [] →
    ∃ t : State, exec (.firnUnitFail u cause) s = .next t ∧ t.pending = s.pending ∧ t.blk.unitOn u = false ∧
      t.blk.firnState u = 0 ∧ t.blk.fu u = { FirnUnit.reset with act := (s.blk.fu u).act } ∧
      (∀ v, v ≠ u → t.blk.fu v = s.blk.fu v) ∧ ∀ v, v ≠ u → t.blk.unitOn v = s.blk.unitOn v) ∧
  (∀ (s : State) (k : Nat), k < 128 → s.blk.setState k = 1 → (∀ u, u ∈ setUnits k → (s.blk.fu u).queue = []) →
    ∃ t : State, exec (.firnSetStartDone k) s = .next t ∧ t.pending = s.pending ∧ t.blk.setState k = 2 ∧
      (∀ u, u ∈ setUnits k → s.blk.unitOn u = true → t.blk.firnState u = 2 ∧
        t.blk.fld (FIRN_EPOCH u) 15 0 = nextEpoch (s.blk.fld (FIRN_EPOCH u) 15 0) ∧
        t.blk.fu u = { FirnUnit.reset with act := (s.blk.fu u).act }) ∧
      (∀ u, u ∉ setUnits k → t.blk.fu u = s.blk.fu u) ∧ { t.blk with firn := s.blk.firn, regs := s.blk.regs } = s.blk) ∧
  ∀ (s : State) (k : Nat), k < 128 → s.blk.setState k = 3 →
    (∀ u, u ∈ setUnits k → (s.blk.fu u).running = none ∧ (s.blk.fu u).queue = [] ∧ (s.blk.fu u).writeQ = []) →
    ∃ t : State, exec (.firnSetStopped k) s = .next t ∧ t.pending = s.pending ∧ t.blk.setState k = 0 ∧
      (∀ u, u ∈ setUnits k → s.blk.unitOn u = true → t.blk.firnState u = 1) ∧
      (∀ u, t.blk.fu u = s.blk.fu u) ∧ { t.blk with firn := s.blk.firn, regs := s.blk.regs } = s.blk

/-! ### Bundles, breaks and GLOBAL semaphores (R189, R202 to R206) -/

/-- BUNDLE_LOAD: an image that the host has put in its memory, read by its header and sections (R205), that passes the checks of R206 and for which
there is room is loaded under the number answered; other bundles stay. BUNDLE_UNLOAD: one that no job, model, command or
window uses goes.
Model choices: log entries 49, 50, 51, 150. -/
def Obligations.BundleMessages : Prop :=
  (∀ (s₀ s : State) (ch : Chan) (img : List Byte) (r : Block) (a : ImageAt) (p : Part) (b pn : Nat) (B : Block),
    s = { s₀ with blk := s₀.blk.hostImage ch 0x0401 1 img } → s.blk.delivers ch 0x0401 →
    s.blk.backFree ch → r = s.blk.msgTaken ch → a = r.imageAt (mpair (s.blk.msgWords ch) 1) (mreg (s.blk.msgWords ch) 3).toNat →
    pn = r.fnPart (chFn ch) → r.part pn = some p →
    r.hostReadStatus (chFn ch) (mpair (s.blk.msgWords ch) 1) (mreg (s.blk.msgWords ch) 3).toNat = none →
    r.bundleStatus (chFn ch) pn p a.inside a.image = none → r.takeBundle (chFn ch) pn p a.image = .ok (b, B) → B.backFree ch →
    ∃ t : State, exec (.bundleLoad ch img) s₀ = .next t ∧ t.pending = s.pending ∧ t.blk.repliedTo s.blk ch OK ∧
      t.blk.rg (chBack ch + 8) = w32 b ∧
      (∃ x, kget t.blk.bundles b = some x ∧ x.part = pn ∧ x.forFn = chFn ch ∧ x.img = a.image ∧ x.model = false) ∧
      (∀ k, k ≠ b → kget t.blk.bundles k = kget s.blk.bundles k) ∧ t.blk.jobs = s.blk.jobs ∧ t.blk.tiles = s.blk.tiles) ∧
  ∀ (s : State) (ch : Chan) (r : Block) (pn b : Nat) (x : Bundle), s.blk.delivers ch 0x0402 → s.blk.backFree ch →
    r = s.blk.msgTaken ch → pn = r.fnPart (chFn ch) → (r.part pn).isSome = true → b = (mreg (s.blk.msgWords ch) 1).toNat →
    kget r.bundles b = some x → x.part = pn → r.bundleBusy b = false → x.model = false →
    (x.slots.all fun k => !r.inUse pn (mkHandle k (((r.obj pn k).map (·.gen)).getD 0)) &&
      !r.mapped pn (mkHandle k (((r.obj pn k).map (·.gen)).getD 0))) = true → (r.dropBundle b).backFree ch →
    ∃ t : State, exec (.bundleUnload ch) s = .next t ∧ t.pending = s.pending ∧ t.blk.repliedTo s.blk ch OK ∧
      kget t.blk.bundles b = none ∧ (∀ k, k ≠ b → kget t.blk.bundles k = kget s.blk.bundles k) ∧
      t.blk.jobs = s.blk.jobs ∧ t.blk.tiles = s.blk.tiles

/-- JOB_BREAK_SET and JOB_RESUME of the sender's job that runs: the comparator of the stream's cluster is the one asked for; a
stream that is BROKEN issues again past its break, to its end or for one command. SEM_CREATE makes a GLOBAL semaphore of the
partition with its initial count, in a free index; SEM_DESTROY of one that nobody waits for or holds removes it.
Model choices: log entries 39, 48. -/
def Obligations.BreakAndSemaphoreMessages : Prop :=
  (∀ (s : State) (ch : Chan) (j c st : Nat) (J : Job), s.blk.delivers ch 0x0403 → s.blk.backFree ch →
    j = (mreg (s.blk.msgWords ch) 1).toNat → s.blk.jobAt j = some J → J.fn = chFn ch → J.step = none → J.state = .running →
    st = (mreg (s.blk.msgWords ch) 2).fld 4 0 → st < s.blk.jobStreams J → J.clusters.getD st 32 = c →
    (mreg (s.blk.msgWords ch) 2).bit 9 = true → (mreg (s.blk.msgWords ch) 2).bit 8 = false →
    ∃ t : State, exec (.jobBreakSet ch) s = .next t ∧ t.pending = s.pending ∧ t.blk.repliedTo s.blk ch OK ∧
      (t.blk.cl c).brk0 = { en := (mreg (s.blk.msgWords ch) 2).bit 10, tagKind := true,
                            value := (mreg (s.blk.msgWords ch) 3).fld 15 0, mask := (mreg (s.blk.msgWords ch) 3).fld 31 16 } ∧
      (t.blk.cl c).brk1 = (s.blk.cl c).brk1 ∧ { t.blk.mailBack s.blk with clusters := s.blk.clusters } = s.blk) ∧
  (∀ (s : State) (ch : Chan) (j c st : Nat) (J : Job) (step : Bool), s.blk.delivers ch 0x0404 → s.blk.backFree ch →
    j = (mreg (s.blk.msgWords ch) 1).toNat → s.blk.jobAt j = some J → J.fn = chFn ch → J.step = none → J.state = .running →
    st = (mreg (s.blk.msgWords ch) 2).fld 4 0 → st < s.blk.jobStreams J → J.clusters.getD st 32 = c →
    (mreg (s.blk.msgWords ch) 2).bit 8 = step → (s.blk.cl c).state = .broken →
    ∃ t : State, exec (if step then .jobResumeStep ch else .jobResumeRun ch) s = .next t ∧ t.pending = s.pending ∧
      t.blk.repliedTo s.blk ch OK ∧
      t.blk.cl c = { s.blk.cl c with state := .issuing, stepOver := if step then 2 else 1 } ∧
      (∀ d, d ≠ c → t.blk.cl d = s.blk.cl d) ∧ { t.blk.mailBack s.blk with clusters := s.blk.clusters } = s.blk) ∧
  (∀ (s : State) (ch : Chan) (pn : Nat), s.blk.delivers ch 0x0405 → s.blk.backFree ch →
    pn = (s.blk.msgTaken ch).fnPart (chFn ch) → ((s.blk.msgTaken ch).part pn).isSome = true → (∃ i, i < 4096 ∧ kget s.blk.sems i = none) →
    ∃ t : State, exec (.semCreate ch) s = .next t ∧ t.pending = s.pending ∧ t.blk.repliedTo s.blk ch OK ∧
      (∃ i, i < 4096 ∧ t.blk.rg (chBack ch + 8) = w32 (0x8000 + i) ∧ kget s.blk.sems i = none ∧
        kget t.blk.sems i = some (Sem.fresh pn ((mreg (s.blk.msgWords ch) 1).fld 23 0)) ∧
        ∀ k, k ≠ i → kget t.blk.sems k = kget s.blk.sems k) ∧
      { t.blk.mailBack s.blk with sems := s.blk.sems, freeCtr := s.blk.freeCtr } = s.blk) ∧
  ∀ (s : State) (ch : Chan) (pn n : Nat) (x : Sem), s.blk.delivers ch 0x0406 → s.blk.backFree ch →
    pn = (s.blk.msgTaken ch).fnPart (chFn ch) → ((s.blk.msgTaken ch).part pn).isSome = true → n = (mreg (s.blk.msgWords ch) 1).fld 15 0 →
    semSpace n = 2 → kget s.blk.sems (semIndex n) = some x → x.part = pn → x.waiters = [] → x.holder = none →
    ∃ t : State, exec (.semDestroy ch) s = .next t ∧ t.pending = s.pending ∧ t.blk.repliedTo s.blk ch OK ∧
      kget t.blk.sems (semIndex n) = none ∧ (∀ k, k ≠ semIndex n → kget t.blk.sems k = kget s.blk.sems k) ∧
      { t.blk.mailBack s.blk with sems := s.blk.sems } = s.blk

/-! ### Snowpack (R209 to R241, R341) -/

/-- SNW_SEQ_CREATE, SNW_SEQ_FORK, SNW_SEQ_QUERY: a sequence of the sender's, with the class, tag and namespace asked for, in a
slot that was free; without MATCH it starts empty; a fork holds the first positions of its source, which stays as it was, and
shares no page that a step still writes (R227);
the query answers the state, the length and the pages by tier, and changes nothing.
Model choices: log entries 55, 58. -/
def Obligations.SequencesMadeAndRead : Prop :=
  (∀ (s : State) (ch : Chan) (p n slot gen : Nat) (r : Word), s.blk.delivers ch 0x0502 → s.blk.backFree ch →
    p = (s.blk.msgTaken ch).fnPart (chFn ch) → ((s.blk.msgTaken ch).part p).isSome = true → r = mreg (s.blk.msgWords ch) 2 →
    n = (mreg (s.blk.msgWords ch) 6).toNat → (kget (s.blk.snowOf p).classes (mreg (s.blk.msgWords ch) 1).toNat).isSome = true →
    (r.bit 6 = true ∨ (kget (s.blk.snowOf p).nsKeys (r.fld 5 0)).isSome = true ∧ kget (s.blk.snowOf p).nsOf (chFn ch) = some (r.fld 5 0)) →
    (n = 0 ∨ (s.blk.msgTaken ch).hostReadStatus (chFn ch) (mpair (s.blk.msgWords ch) 4) (4 * n) = none) →
    (s.blk.msgTaken ch).seqFreeSlot p = (some (slot, gen), (s.blk.msgTaken ch).drawn) →
    ∃ t : State, exec (.snwSeqCreate ch) s = .next t ∧ t.pending = s.pending ∧ t.blk.repliedTo s.blk ch OK ∧
      (∃ q, t.blk.seqAt p slot = some q ∧ q.owner = chFn ch ∧ q.gen = gen ∧ q.cls = (mreg (s.blk.msgWords ch) 1).toNat ∧
        q.kvTag = mreg (s.blk.msgWords ch) 3 ∧ q.ns = (if r.bit 6 then none else some (r.fld 5 0)) ∧ q.publish = r.bit 9 ∧
        (r.bit 8 = true ∨ q.len = 0 ∧ q.pages = []) ∧ t.blk.rg (chBack ch + 8) = w32 (seqId slot q) ∧
        t.blk.rg (chBack ch + 12) = w32 q.len) ∧
      (∀ k, k ≠ slot → t.blk.seqAt p k = s.blk.seqAt p k) ∧ t.blk.objs = s.blk.objs ∧ t.blk.jobs = s.blk.jobs) ∧
  (∀ (s : State) (ch : Chan) (p len slot0 slot gen : Nat) (q : Seq) (pages : Tbl (List Nat)) (B : Block), s.blk.delivers ch 0x0503 →
    s.blk.backFree ch → p = (s.blk.msgTaken ch).fnPart (chFn ch) → ((s.blk.msgTaken ch).part p).isSome = true →
    s.blk.seqOf p (mreg (s.blk.msgWords ch) 1) = some (slot0, q) → len = (mreg (s.blk.msgWords ch) 2).toNat → len ≤ q.len →
    (s.blk.msgTaken ch).mayRead p (chFn ch) q = true → slot ≠ slot0 →
    (s.blk.msgTaken ch).seqFreeSlot p = (some (slot, gen), (s.blk.msgTaken ch).drawn) →
    (s.blk.msgTaken ch).drawn.forkPages p (gen % 256 * 16777216 + slot) q len = some (pages, B) → B.backFree ch →
    ∃ t : State, exec (.snwSeqFork ch) s = .next t ∧ t.pending = s.pending ∧ t.blk.repliedTo s.blk ch OK ∧
      (∃ c, t.blk.seqAt p slot = some c ∧ c.owner = chFn ch ∧ c.len = len ∧ c.tokens = q.tokens.take len ∧ c.pages = pages ∧
        c.cls = q.cls ∧ c.ns = q.ns ∧ t.blk.rg (chBack ch + 8) = w32 (seqId slot c)) ∧
      (∀ k, k ≠ slot → t.blk.seqAt p k = s.blk.seqAt p k) ∧ t.blk.objs = s.blk.objs ∧ t.blk.jobs = s.blk.jobs) ∧
  ∀ (s : State) (ch : Chan) (p slot : Nat) (q : Seq), s.blk.delivers ch 0x0506 → s.blk.backFree ch →
    p = (s.blk.msgTaken ch).fnPart (chFn ch) → ((s.blk.msgTaken ch).part p).isSome = true →
    s.blk.seqOf p (mreg (s.blk.msgWords ch) 1) = some (slot, q) → q.owner = chFn ch →
    ∃ t : State, exec (.snwSeqQuery ch) s = .next t ∧ t.pending = s.pending ∧ t.blk.repliedTo s.blk ch OK ∧
      t.blk.rg (chBack ch + 8) = w32 ((s.blk.snowOf p).state q + 8 * b2n q.damaged.isSome + 16 * b2n q.lost) ∧
      t.blk.rg (chBack ch + 12) = w32 q.len ∧ t.blk.mailBack s.blk = s.blk

/-- SNW_SEQ_TRUNCATE, SNW_SEQ_FREE, SNW_SEQ_PARK, SNW_SEQ_RESTORE of the sender's sequence outside a step: it keeps the first
positions and their pages; it is gone; it moves towards a tier, or home, and keeps its positions and pages. The pages of
the other sequences stay theirs. Nothing else of the block changes, unless pages go to or from other nodes (R236).
Model choices: log entries 58, 59, 61. -/
def Obligations.SequencesCutAndMoved : Prop :=
  (∀ (s : State) (ch : Chan) (p slot n k : Nat) (q : Seq), s.blk.delivers ch 0x0504 → s.blk.backFree ch →
    p = (s.blk.msgTaken ch).fnPart (chFn ch) → ((s.blk.msgTaken ch).part p).isSome = true →
    s.blk.seqOf p (mreg (s.blk.msgWords ch) 1) = some (slot, q) → q.owner = chFn ch → q.inStep = false →
    n = (mreg (s.blk.msgWords ch) 2).toNat → n ≤ q.len → k = ceilDiv n (max 1 ((s.blk.snowOf p).cls q.cls).tokens) →
    ∃ t : State, exec (.snwSeqTruncate ch) s = .next t ∧ t.pending = s.pending ∧
      (∃ c, t.blk.seqAt p slot = some c ∧ c.len = n ∧ c.tokens = q.tokens.take n ∧
        c.pages = (q.pages.map fun e => (e.1, e.2.take k)).filter (fun e => !e.2.isEmpty) ∧ c.owner = q.owner ∧ c.cls = q.cls) ∧
      (∀ j, j ≠ slot → t.blk.seqAt p j = s.blk.seqAt p j) ∧
      { t.blk.mailBack s.blk with snow := s.blk.snow } = s.blk) ∧
  (∀ (s : State) (ch : Chan) (p slot : Nat) (q : Seq), s.blk.delivers ch 0x0505 → s.blk.backFree ch →
    p = (s.blk.msgTaken ch).fnPart (chFn ch) → ((s.blk.msgTaken ch).part p).isSome = true →
    s.blk.seqOf p (mreg (s.blk.msgWords ch) 1) = some (slot, q) → q.owner = chFn ch → q.inStep = false →
    ∃ t : State, exec (.snwSeqFree ch) s = .next t ∧ t.pending = s.pending ∧ t.blk.seqAt p slot = none ∧
      (∀ j, j ≠ slot → (t.blk.seqAt p j).map (·.pages) = (s.blk.seqAt p j).map (·.pages)) ∧ t.blk.jobs = s.blk.jobs ∧
      (s.blk.noFar p → { t.blk.mailBack s.blk with snow := s.blk.snow, freeCtr := s.blk.freeCtr } = s.blk)) ∧
  (∀ (s : State) (ch : Chan) (p slot tier : Nat) (q : Seq), s.blk.delivers ch 0x0507 → s.blk.backFree ch →
    p = (s.blk.msgTaken ch).fnPart (chFn ch) → ((s.blk.msgTaken ch).part p).isSome = true →
    s.blk.seqOf p (mreg (s.blk.msgWords ch) 1) = some (slot, q) → q.owner = chFn ch → q.inStep = false →
    tier = (mreg (s.blk.msgWords ch) 2).toNat + 1 → tier ≤ 3 → (tier = 2 → (s.blk.msgTaken ch).lost = false) →
    (s.blk.snowOf p).moveCount q tier ≤ (s.blk.msgTaken ch).freePages p tier →
    ∃ t : State, exec (.snwSeqPark ch) s = .next t ∧ t.pending = s.pending ∧
      (∃ c, t.blk.seqAt p slot = some c ∧ c.pages = q.pages ∧ c.len = q.len ∧ c.tokens = q.tokens ∧ c.reply = none ∧
        (c.target = some tier ∨ c.target = none ∧ t.blk.moveDone p c tier = true)) ∧
      (∀ j, j ≠ slot → t.blk.seqAt p j = s.blk.seqAt p j) ∧ t.blk.jobs = s.blk.jobs ∧
      (s.blk.noFar p → tier ≠ 3 → { t.blk.mailBack s.blk with snow := s.blk.snow, freeCtr := s.blk.freeCtr } = s.blk)) ∧
  ∀ (s : State) (ch : Chan) (p slot : Nat) (q : Seq), s.blk.delivers ch 0x0508 → s.blk.backFree ch →
    p = (s.blk.msgTaken ch).fnPart (chFn ch) → ((s.blk.msgTaken ch).part p).isSome = true →
    s.blk.seqOf p (mreg (s.blk.msgWords ch) 1) = some (slot, q) → q.owner = chFn ch → q.lost = false → q.reply = none →
    (s.blk.msgTaken ch).lost = false →
    ∃ t : State, exec (.snwSeqRestore ch) s = .next t ∧ t.pending = s.pending ∧
      (∃ c, t.blk.seqAt p slot = some c ∧ c.pages = q.pages ∧ c.len = q.len ∧
        (c.target = some 0 ∧ c.reply = some (ch, mreg (s.blk.msgWords ch) 0) ∨ c.target = none ∧ c.reply = none)) ∧
      (∀ j, j ≠ slot → t.blk.seqAt p j = s.blk.seqAt p j) ∧ t.blk.jobs = s.blk.jobs ∧
      (s.blk.noFar p → { t.blk.mailBack s.blk with snow := s.blk.snow, freeCtr := s.blk.freeCtr } = s.blk)

/-- SNW_KV_CLASS, SNW_NS_SET, SNW_NS_CTRL: a class under a number from 1 to 15 that was free; a function joins a namespace or
leaves its own; a namespace gets a key, or loses it and its nodes when no function and no sequence belongs to it.
Model choices: log entries 55, 57. -/
def Obligations.ClassesAndNamespaces : Prop :=
  (∀ (s : State) (ch : Chan) (p : Nat) (k : KvClass), s.blk.delivers ch 0x0501 → s.blk.backFree ch →
    p = (s.blk.msgTaken ch).fnPart (chFn ch) → ((s.blk.msgTaken ch).part p).isSome = true →
    kvClassOf (mreg (s.blk.msgWords ch) 1) (mreg (s.blk.msgWords ch) 2) = some k →
    (∃ c, 1 ≤ c ∧ c ≤ 15 ∧ kget (s.blk.snowOf p).classes c = none) →
    ∃ t : State, exec (.snwKvClass ch) s = .next t ∧ t.pending = s.pending ∧ t.blk.repliedTo s.blk ch OK ∧
      (∃ c, 1 ≤ c ∧ c ≤ 15 ∧ kget (s.blk.snowOf p).classes c = none ∧ t.blk.rg (chBack ch + 8) = w32 c ∧
        t.blk.rg (chBack ch + 12) = w32 k.tokens ∧
        t.blk.snowOf p = { s.blk.snowOf p with classes := kput (s.blk.snowOf p).classes c k }) ∧
      { t.blk.mailBack s.blk with snow := s.blk.snow, freeCtr := s.blk.freeCtr } = s.blk) ∧
  (∀ (s : State) (ch : Chan) (p ns : Nat), s.blk.delivers ch 0x050A → s.blk.backFree ch → chFn ch = 0 →
    p = (s.blk.msgTaken ch).fnPart 0 → ((s.blk.msgTaken ch).part p).isSome = true → ns = (mreg (s.blk.msgWords ch) 2).fld 5 0 →
    (mreg (s.blk.msgWords ch) 2).bit 6 = false → (kget (s.blk.snowOf p).nsKeys ns).isSome = true →
    ∃ t : State, exec (.snwNsJoin ch) s = .next t ∧ t.pending = s.pending ∧ t.blk.repliedTo s.blk ch OK ∧
      t.blk.snowOf p = { s.blk.snowOf p with nsOf := kput (s.blk.snowOf p).nsOf (mreg (s.blk.msgWords ch) 1).toNat ns } ∧
      { t.blk.mailBack s.blk with snow := s.blk.snow } = s.blk) ∧
  (∀ (s : State) (ch : Chan) (p : Nat), s.blk.delivers ch 0x050A → s.blk.backFree ch → chFn ch = 0 →
    p = (s.blk.msgTaken ch).fnPart 0 → ((s.blk.msgTaken ch).part p).isSome = true → (mreg (s.blk.msgWords ch) 2).bit 6 = true →
    ∃ t : State, exec (.snwNsLeave ch) s = .next t ∧ t.pending = s.pending ∧ t.blk.repliedTo s.blk ch OK ∧
      t.blk.snowOf p = { s.blk.snowOf p with nsOf := kdel (s.blk.snowOf p).nsOf (mreg (s.blk.msgWords ch) 1).toNat } ∧
      { t.blk.mailBack s.blk with snow := s.blk.snow } = s.blk) ∧
  (∀ (s : State) (ch : Chan) (p ns : Nat), s.blk.delivers ch 0x050B → s.blk.backFree ch → chFn ch = 0 →
    p = (s.blk.msgTaken ch).fnPart 0 → ((s.blk.msgTaken ch).part p).isSome = true → ns = (mreg (s.blk.msgWords ch) 1).fld 5 0 →
    (mreg (s.blk.msgWords ch) 1).bit 8 = false →
    ∃ t : State, exec (.snwNsCreate ch) s = .next t ∧ t.pending = s.pending ∧ t.blk.repliedTo s.blk ch OK ∧
      (kget (t.blk.snowOf p).nsKeys ns).isSome = true ∧ ((kget (s.blk.snowOf p).nsKeys ns).isSome = false ∨ t.blk.snow = s.blk.snow) ∧
      (∀ k, k ≠ ns → kget (t.blk.snowOf p).nsKeys k = kget (s.blk.snowOf p).nsKeys k) ∧
      { t.blk.mailBack s.blk with snow := s.blk.snow, freeCtr := s.blk.freeCtr } = s.blk) ∧
  ∀ (s : State) (ch : Chan) (p ns : Nat), s.blk.delivers ch 0x050B → s.blk.backFree ch → chFn ch = 0 →
    p = (s.blk.msgTaken ch).fnPart 0 → ((s.blk.msgTaken ch).part p).isSome = true → ns = (mreg (s.blk.msgWords ch) 1).fld 5 0 →
    (mreg (s.blk.msgWords ch) 1).bit 8 = true → (kget (s.blk.snowOf p).nsKeys ns).isSome = true →
    (s.blk.snowOf p).nsOf.all (fun e => e.2 != ns) = true → (s.blk.snowOf p).seqs.all (fun e => e.2.ns != some ns) = true →
    ∃ t : State, exec (.snwNsDestroy ch) s = .next t ∧ t.pending = s.pending ∧ kget (t.blk.snowOf p).nsKeys ns = none ∧
      (∀ k, k ≠ ns → kget (t.blk.snowOf p).nsKeys k = kget (s.blk.snowOf p).nsKeys k) ∧
      (t.blk.snowOf p).nodes.all (fun e => e.2.ns != ns) = true ∧ (t.blk.snowOf p).seqs = (s.blk.snowOf p).seqs ∧
      { t.blk.mailBack s.blk with snow := s.blk.snow } = s.blk

/-- SNW_ARENA_SET and the pages of Snowpack: a valid segment joins the pool; one that holds a page leaves once it holds none,
and only then is the message answered; a copy that is whole switches the page to its new place with its contents, which a far
place keeps at its own node; a page filled with zeros is free; without such a copy or fill the events change nothing.
Model choices: log entries 56, 60, 64. -/
def Obligations.ArenasAndPages : Prop :=
  (∀ (s : State) (ch : Chan) (p seg addr : Nat) (far : Bool), s.blk.delivers ch 0x0509 → s.blk.backFree ch →
    p = (s.blk.msgTaken ch).fnPart (chFn ch) → ((s.blk.msgTaken ch).part p).isSome = true →
    (mreg (s.blk.msgWords ch) 1).bit 1 = false → far = (mreg (s.blk.msgWords ch) 1).bit 0 →
    seg = (mreg (s.blk.msgWords ch) 1).fld 7 4 →
    addr = (if far then (mreg (s.blk.msgWords ch) 2).fld 14 0 else mpair (s.blk.msgWords ch) 2) →
    (s.blk.msgTaken ch).arenaOk p far seg addr (mreg (s.blk.msgWords ch) 4).toNat = true →
    ∃ t : State, exec (.snwArenaAdd ch) s = .next t ∧ t.pending = s.pending ∧
      kget (t.blk.snowOf p).arenas (arenaKey far seg) =
        some { far := far, addr := addr, mib := (mreg (s.blk.msgWords ch) 4).toNat, leaving := none } ∧
      t.blk.jobs = s.blk.jobs ∧
      (s.blk.noFar p → { t.blk.mailBack s.blk with snow := s.blk.snow, freeCtr := s.blk.freeCtr } = s.blk)) ∧
  (∀ (s : State) (ch : Chan) (p k : Nat) (a : Arena), s.blk.delivers ch 0x0509 → s.blk.backFree ch →
    p = (s.blk.msgTaken ch).fnPart (chFn ch) → ((s.blk.msgTaken ch).part p).isSome = true →
    (mreg (s.blk.msgWords ch) 1).bit 1 = true →
    k = arenaKey ((mreg (s.blk.msgWords ch) 1).bit 0) ((mreg (s.blk.msgWords ch) 1).fld 7 4) →
    kget (s.blk.snowOf p).arenas k = some a → a.leaving = none →
    ∃ t : State, exec (.snwArenaWithdraw ch) s = .next t ∧ t.pending = s.pending ∧
      ((s.blk.snowOf p).arenaUsed k ≠ [] ∨
        t.blk.repliedTo s.blk ch OK ∧ t.blk.snowOf p = { s.blk.snowOf p with arenas := kdel (s.blk.snowOf p).arenas k }) ∧
      ((s.blk.snowOf p).arenaUsed k = [] ∨ t.blk.full (chBack ch) = false ∧
        t.blk.snowOf p = { s.blk.snowOf p with
                           arenas := kput (s.blk.snowOf p).arenas k { a with leaving := some (ch, mreg (s.blk.msgWords ch) 0) } }) ∧
      { t.blk.mailBack s.blk with snow := s.blk.snow } = s.blk) ∧
  (∀ (s : State) (p pid : Nat) (g : Page) (d : PageLoc), moveReady p pid s.blk = true → s.blk.page p pid = some g →
    g.dest = some d → g.far.bind (·.failed) = none → s.blk.switchHostOk p g d = true →
    ∃ t : State, exec (.pageMoveSwitch p pid) s = .next t ∧ t.pending = s.pending ∧
      (∃ h, t.blk.page p pid = some h ∧ h.loc = d ∧ h.refs = g.refs ∧ h.cls = g.cls ∧ h.hash = g.hash ∧ h.zeroing = g.zeroing ∧
        (locTier g.loc < 2 → h.data = if locTier d = 3 then { cells := [], poison := g.data.poison } else g.data)) ∧
      (∀ j, (t.blk.seqAt p j).map (·.pages) = (s.blk.seqAt p j).map (·.pages)) ∧ t.blk.jobs = s.blk.jobs ∧
      (s.blk.noFar p → t.blk.objs = s.blk.objs)) ∧
  (∀ (s : State) (p pid : Nat), moveReady p pid s.blk = false → exec (.pageMoveSwitch p pid) s = .next s) ∧
  (∀ (s : State) (p pid : Nat), zeroReady p pid s.blk = true →
    ∃ t : State, exec (.pageZeroFillDone p pid) s = .next t ∧ t.pending = s.pending ∧ t.blk.page p pid = none ∧
      (∀ j, j ≠ pid → (t.blk.page p j).map (·.data) = (s.blk.page p j).map (·.data)) ∧ t.blk.jobs = s.blk.jobs ∧
      (s.blk.noFar p → t.blk.objs = s.blk.objs)) ∧
  ∀ (s : State) (p pid : Nat), zeroReady p pid s.blk = false → exec (.pageZeroFillDone p pid) s = .next s

/-! ### Partitions, dispatch, pre-emption, driver loss (R306 to R335) -/

/-- PART_CREATE, PARTITION_RUNNING, PART_DESTROY, PARTITION_STOPPED, CLIENT_SET: a valid partition is STARTING, with its groups
and ways; it is RUNNING once all of it runs; one that no bundle and no client uses is STOPPING; once its Firn sets have
stopped it is gone with its objects and bundles; a function gets its partition, class and weight.
Model choices: log entries 79, 80, 81. -/
def Obligations.PartitionsAndClients : Prop :=
  (∀ (s : State) (ch : Chan) (p : Nat) (q : Part) (T : Block) (r : Word), s.blk.delivers ch 0x0701 → s.blk.backFree ch → chFn ch = 0 →
    T = s.blk.msgTaken ch → p = (mreg (s.blk.msgWords ch) 1).toNat → p ≤ 31 → r = mreg (s.blk.msgWords ch) 2 →
    q.dies = r.fld 3 0 → q.die = (if q.dies = 0 then r.fld 5 4 else 0) → q.clusters = (if q.dies = 0 then r.fld 15 8 else 0) →
    q.groups = (if q.dies = 0 then (mreg (s.blk.msgWords ch) 3).fld 7 0 else 0xFF) →
    q.runPages = min 64 (max 1 (T.fld (SNW p 4) 6 0)) → q.busyFrac = [] → T.fld (SCH_P_STATE p) 1 0 ≠ 3 → T.part p = none →
    T.partStatus p q (mreg (s.blk.msgWords ch) 4).toNat = none →
    ∃ t : State, exec (.partCreate ch) s = .next t ∧ t.pending = s.pending ∧ t.blk.repliedTo s.blk ch OK ∧
      t.blk.parts = kput s.blk.parts p q ∧ t.blk.fld (SCH_P_STATE p) 1 0 = 1 ∧
      (∀ d, d ∈ q.dieList → t.blk.fld (SRC_MSC_PCFG d p) 15 0 = partWays q (mreg (s.blk.msgWords ch) 4).toNat) ∧
      (∀ n g, n ∈ q.stackList → g ∈ q.groupList → t.blk.cgPart n g = p) ∧ { t.blk.mailBack s.blk with parts := s.blk.parts } = s.blk) ∧
  (∀ (s : State) (p : Nat), partitionStarted p s.blk = true →
    ∃ t : State, exec (.partitionRunning p) s = .next t ∧ t.pending = s.pending ∧ t.blk.partRunning p = true ∧
      (∀ k, t.blk.obj p k = s.blk.obj p k) ∧ (∀ o, o ≠ p → t.blk.fld (SCH_P_STATE o) 1 0 = s.blk.fld (SCH_P_STATE o) 1 0) ∧
      { t.blk with regs := s.blk.regs, objs := s.blk.objs, freeCtr := s.blk.freeCtr } = s.blk) ∧
  (∀ (s : State) (p : Nat), partitionStarted p s.blk = false → exec (.partitionRunning p) s = .next s) ∧
  (∀ (s : State) (ch : Chan) (p : Nat) (q : Part) (T : Block), s.blk.delivers ch 0x0702 → s.blk.backFree ch → chFn ch = 0 →
    T = s.blk.msgTaken ch → p = (mreg (s.blk.msgWords ch) 1).toNat → T.part p = some q → T.fld (SCH_P_STATE p) 1 0 ≠ 3 →
    T.partBundles p = [] → T.clients p = [] →
    (∀ k u, k ∈ q.setList → u ∈ setUnits k → (T.fu u).queue = [] ∧ (T.fu u).wait = none ∧ (T.fu u).parked = false) →
    ∃ t : State, exec (.partDestroy ch) s = .next t ∧ t.pending = s.pending ∧ t.blk.repliedTo s.blk ch OK ∧
      t.blk.fld (SCH_P_STATE p) 1 0 = 3 ∧ (∀ k, k ∈ q.setList → t.blk.setState k = 0 ∨ t.blk.setState k = 3) ∧
      t.blk.mailBack s.blk = s.blk) ∧
  (∀ (s : State) (p : Nat) (q : Part), s.blk.part p = some q → s.blk.fld (SCH_P_STATE p) 1 0 = 3 →
    q.setList.all (fun k => s.blk.setState k == 0) = true →
    ∃ t : State, exec (.partitionStopped p) s = .next t ∧ t.pending = s.pending ∧ t.blk.part p = none ∧
      (∀ o, o ≠ p → t.blk.part o = s.blk.part o) ∧ t.blk.fld (SCH_P_STATE p) 1 0 = 0 ∧ kget t.blk.objs p = none ∧
      t.blk.partBundles p = [] ∧ (∀ n g, n ∈ q.stackList → g ∈ q.groupList → t.blk.cgPart n g = 0x3F) ∧ t.blk.jobs = s.blk.jobs) ∧
  (∀ (s : State) (p : Nat), s.blk.fld (SCH_P_STATE p) 1 0 ≠ 3 → exec (.partitionStopped p) s = .next s) ∧
  ∀ (s : State) (ch : Chan) (f p : Nat) (r : Word) (T : Block), s.blk.delivers ch 0x0703 → s.blk.backFree ch → chFn ch = 0 →
    T = s.blk.msgTaken ch → f = (mreg (s.blk.msgWords ch) 1).toNat → f ≤ 63 → p = (mreg (s.blk.msgWords ch) 2).toNat →
    r = mreg (s.blk.msgWords ch) 3 → r.fld 17 16 ≠ 3 →
    (p = 0x3F ∨ (T.part p).isSome = true ∧ T.fld (SCH_P_STATE p) 1 0 ≠ 3) → (p = T.fnPart f ∨ T.hasWork f = false) →
    ∃ t : State, exec (.clientSet ch) s = .next t ∧ t.pending = s.pending ∧ t.blk.repliedTo s.blk ch OK ∧
      t.blk.rg (SCH_C_CFG f) = w32 (p % 64 + r.fld 17 16 * 64 + max 1 (r.fld 15 0) * 65536) ∧
      (p = T.fnPart f ∨ p = 0x3F ∨ t.blk.vtime f = 0) ∧ { t.blk.mailBack s.blk with snow := s.blk.snow, vOwed := s.blk.vOwed } = s.blk

/-- JOB_DISPATCH, SLICE_EXPIRY, PREEMPT_BOUND_EXPIRY, PREEMPT_SAVE_DONE, HOLD_BOUND_EXPIRY: the best waiting job whose clusters are
free runs on them; a job whose slice has passed is asked to give way to one of its class with a smaller V; past the bound
it saves at once; saved, it waits and SCHED dispatches again; a hold past its bound ends the holder's job and is given back.
Model choices: log entries 82, 83, 84, 85. -/
def Obligations.DispatchAndPreemption : Prop :=
  (∀ (s : State) (p j n : Nat) (J : Job) (b : Bundle) (l : List (Nat × Job)), s.blk.schedUp = true → s.blk.partRunning p = true →
    s.blk.waitingJobs p = (j, J) :: l → s.blk.jobAt j = some J → J.state = .ready → J.part = p → J.step = none →
    s.blk.lost = false → kget s.blk.bundles J.bundle = some b → n = s.blk.jobStreams J → n ≤ (s.blk.freeClusters p).length →
    ∃ t : State, exec (.jobDispatch p) s = .next t ∧ t.pending = s.pending ∧
      (∃ K, t.blk.jobAt j = some K ∧ K.state = .running ∧ K.clusters.length = n ∧ K.ran = s.blk.now ∧ K.fn = J.fn ∧
        K.clusters.all (fun c => decide (c ∈ s.blk.freeClusters p ∧ (t.blk.cl c).job = some j ∧ (t.blk.cl c).state = .issuing)) = true ∧
        ∀ c, c ∉ K.clusters → t.blk.cl c = s.blk.cl c) ∧
      (∀ i, i ≠ j → t.blk.jobAt i = s.blk.jobAt i) ∧ t.blk.objs = s.blk.objs ∧ t.blk.snow = s.blk.snow) ∧
  (∀ (s : State) (p : Nat), (s.blk.schedUp && s.blk.partRunning p) = false → exec (.jobDispatch p) s = .next s) ∧
  (∀ (s : State) (j v : Nat) (w J : Job), s.blk.jobAt j = some w → w.placed = false → s.blk.schedUp = true → s.blk.lost = false →
    s.blk.partRunning w.part = true →
    s.blk.candidates w (fun J => J.ranks == w.cls && decide (J.ran + s.blk.slice ≤ s.blk.now) &&
      decide (s.blk.vtime w.fn < s.blk.vtime J.fn)) = [(v, J)] →
    s.blk.jobAt v = some J → w.state = .ready → 0 < s.blk.lacking w → s.blk.lacking w ≤ J.clusters.length → s.blk.holdsSem v = false →
    ∃ t : State, exec (.sliceExpiry j) s = .next t ∧ t.pending = s.pending ∧
      (∃ K, t.blk.jobAt v = some K ∧ K.boundAt = some s.blk.now ∧ K.state = J.state ∧ K.clusters = J.clusters) ∧
      J.clusters.all (fun c => (t.blk.cl c).preempt) = true ∧ (∀ i, i ≠ v → t.blk.jobAt i = s.blk.jobAt i) ∧
      (∀ c, c ∉ J.clusters → t.blk.cl c = s.blk.cl c) ∧ t.blk.objs = s.blk.objs) ∧
  (∀ (s : State) (j : Nat) (w : Job), s.blk.jobAt j = some w → w.placed = true → exec (.sliceExpiry j) s = .next s) ∧
  (∀ (s : State) (j at_ : Nat) (J : Job), s.blk.jobAt j = some J → J.boundAt = some at_ → J.state = .running →
    at_ + s.blk.preemptBound ≤ s.blk.now →
    ∃ t : State, exec (.preemptBoundExpiry j) s = .next t ∧ t.pending = s.pending ∧
      J.clusters.all (fun c => (t.blk.cl c).saveReady) = true ∧ (∀ c, c ∉ J.clusters → t.blk.cl c = s.blk.cl c) ∧
      (∀ i, i ≠ j → t.blk.jobAt i = s.blk.jobAt i) ∧ t.blk.objs = s.blk.objs ∧ t.blk.tiles = s.blk.tiles) ∧
  (∀ (s : State) (j at_ : Nat) (J : Job), s.blk.jobAt j = some J → J.boundAt = some at_ → s.blk.now < at_ + s.blk.preemptBound →
    exec (.preemptBoundExpiry j) s = .next s) ∧
  (∀ (s : State) (j : Nat) (J : Job), saveReady j s.blk = true → s.blk.jobAt j = some J → (s.blk.schedUp && s.blk.partRunning J.part) = false →
    ∃ t : State, exec (.preemptSaveDone j) s = .next t ∧ t.pending = s.pending ∧
      (∃ K, t.blk.jobAt j = some K ∧ K.state = .saved ∧ K.boundAt = none ∧ K.since = s.blk.now ∧ K.clusters = J.clusters) ∧
      J.clusters.all (fun c => decide ((t.blk.cl c).job = none ∧ (t.blk.cl c).queues = [])) = true ∧
      (∀ c, c ∉ J.clusters → t.blk.cl c = s.blk.cl c) ∧ (∀ i, i ≠ j → t.blk.jobAt i = s.blk.jobAt i)) ∧
  (∀ (s : State) (j : Nat), saveReady j s.blk = false → exec (.preemptSaveDone j) s = .next s) ∧
  (∀ (s : State) (r : SemRef) (x : Sem) (j : Nat) (J : Job), s.blk.sem r = some x → x.holder = some j → s.blk.jobAt j = some J →
    J.placed = true → J.fail = none → s.blk.schedUp = true → x.holdAt + s.blk.holdBound ≤ s.blk.now →
    ∃ t : State, exec (.holdBoundExpiry r) s = .next t ∧ t.pending = s.pending ∧
      (∃ y, t.blk.sem r = some y ∧ y.count = x.count + x.holdN ∧ y.holder = none ∧ y.holdN = 0) ∧
      (∃ K, t.blk.jobAt j = some K ∧ K.fail = some (TIMEOUT 0xD1, 0, 0, 0xFF) ∧ K.state = .ending) ∧
      (∀ i, i ≠ j → (t.blk.jobAt i).map (·.state) = (s.blk.jobAt i).map (·.state)) ∧ t.blk.objs = s.blk.objs ∧ t.blk.snow = s.blk.snow) ∧
  ∀ (s : State) (r : SemRef) (x : Sem), s.blk.sem r = some x → s.blk.now < x.holdAt + s.blk.holdBound →
    exec (.holdBoundExpiry r) s = .next s

/-- HEARTBEAT, HEARTBEAT_TIMEOUT, DRV_ADOPT, GRACE_EXPIRY: a beat attaches a driver; a driver whose beat is late is lost, and the
jobs go on; an adoption delivers what was held, or discards it; past GRACE every job and request has ended, no partition is
left and no function has one.
Model choices: log entries 86, 109. -/
def Obligations.DriverLossAndAdoption : Prop :=
  (∀ (s : State) (v : Word), s.blk.fld SCH_DRV 1 0 = 0 →
    exec (.heartbeat v) s = .next { s with blk := { s.blk with beatAt := s.blk.now }.wf SCH_DRV 1 0 1 }) ∧
  (∀ (s : State) (v : Word), s.blk.fld SCH_DRV 1 0 ≠ 0 →
    exec (.heartbeat v) s = .next { s with blk := { s.blk with beatAt := s.blk.now } }) ∧
  (∀ (s : State), s.blk.fld SCH_DRV 1 0 = 1 → s.blk.beatAt + s.blk.hbPeriod ≤ s.blk.now →
    ∃ t : State, exec .heartbeatTimeout s = .next t ∧ t.pending = s.pending ∧ t.blk.lost = true ∧ t.blk.bit SCH_DRV 2 = false ∧
      t.blk.fld SCH_DRV 15 4 = max 1 (s.blk.fld SCH_HB_CFG 27 16) ∧ t.blk.lostAt = s.blk.now ∧ t.blk.jobs = s.blk.jobs ∧
      t.blk.clusters = s.blk.clusters ∧ t.blk.objs = s.blk.objs ∧ t.blk.parts = s.blk.parts ∧ t.blk.reqs = s.blk.reqs) ∧
  (∀ (s : State), s.blk.now < s.blk.beatAt + s.blk.hbPeriod → exec .heartbeatTimeout s = .next s) ∧
  (∀ (s : State) (ch : Chan), s.blk.delivers ch 0x0704 → s.blk.backFree ch → chFn ch = 0 → (mreg (s.blk.msgWords ch) 1).bit 0 = false →
    s.blk.lost = true → (s.blk.msgTaken ch).lost = true → (s.blk.msgTaken ch).start.mustDiscard = false →
    ∃ t : State, exec (.drvAdoptKeep ch) s = .next t ∧ t.pending = s.pending ∧ t.blk.lost = false ∧ t.blk.fld SCH_DRV 1 0 = 1 ∧
      t.blk.fld SCH_DRV 15 4 = 0 ∧ t.blk.beatAt = s.blk.now ∧
      (∀ f, s.blk.start.linkUp = true → (s.blk.fn f).busMaster = true →
        ((s.blk.fn f).held.all fun h => match h with | .write _ _ => true | .entry _ _ => false) = true → (t.blk.fn f).held = []) ∧
      t.blk.jobs = s.blk.jobs ∧ t.blk.parts = s.blk.parts ∧ ((∀ p, s.blk.noFar p) → t.blk.objs = s.blk.objs)) ∧
  (∀ (s : State) (ch : Chan), s.blk.delivers ch 0x0704 → s.blk.backFree ch → chFn ch = 0 → (mreg (s.blk.msgWords ch) 1).bit 0 = true →
    s.blk.lost = true → (s.blk.msgTaken ch).lost = true →
    ∃ t : State, exec (.drvAdoptDiscard ch) s = .next t ∧ t.pending = s.pending ∧ t.blk.lost = false ∧ t.blk.fld SCH_DRV 1 0 = 1 ∧
      t.blk.fld SCH_DRV 15 4 = 0 ∧ t.blk.beatAt = s.blk.now ∧ t.blk.parts = s.blk.parts) ∧
  (∀ (s : State), s.blk.graceOver = true →
    ∃ t : State, exec .graceExpiry s = .next t ∧ t.pending = s.pending ∧ t.blk.jobs = [] ∧ t.blk.parts = [] ∧
      (∀ k, (t.blk.req k).all (fun q => !q.live) = true) ∧ t.blk.fld SCH_DRV 1 0 = 0 ∧ t.blk.fld SCH_DRV 15 4 = 0 ∧
      (∀ f, f < 64 → t.blk.fnPart f = 0x3F)) ∧
  ∀ (s : State), s.blk.graceOver = false → exec .graceExpiry s = .next s

/-! ### Serving (R244 to R271) -/

/-- SRV_MODEL_LOAD, SRV_MODEL_UNLOAD, SRV_ADAPTER_LOAD, SRV_ADAPTER_UNLOAD: a valid model gets a number from 1 to 15 and its bundle is
in use; one without requests leaves with its adapters; an adapter version becomes the current one of its ID; unloaded, the
ID has no current version. Other current adapters and other models stay.
Model choices: log entries 65, 74, 78. -/
def Obligations.ModelsAndAdapters : Prop :=
  (∀ (s : State) (ch : Chan) (p : Nat) (m : Model), s.blk.delivers ch 0x0601 → s.blk.backFree ch →
    p = (s.blk.msgTaken ch).fnPart (chFn ch) → ((s.blk.msgTaken ch).part p).isSome = true →
    m = { bundle := (mreg (s.blk.msgWords ch) 1).fld 15 0, cls := (mreg (s.blk.msgWords ch) 2).fld 3 0,
          regs := (List.range 9).map fun i => mreg (s.blk.msgWords ch) (i + 1), fn := chFn ch, stepNo := 0, damaged := false,
          step := none } →
    (s.blk.msgTaken ch).modelOk p (chFn ch) m = true → (∃ k, 1 ≤ k ∧ k ≤ 15 ∧ s.blk.model p k = none) →
    ∃ t : State, exec (.srvModelLoad ch) s = .next t ∧ t.pending = s.pending ∧ t.blk.repliedTo s.blk ch OK ∧
      (∃ k, 1 ≤ k ∧ k ≤ 15 ∧ s.blk.model p k = none ∧ t.blk.model p k = some m ∧ t.blk.rg (chBack ch + 8) = w32 k ∧
        ∀ i, i ≠ k → t.blk.model p i = s.blk.model p i) ∧
      t.blk.bundles = kmod s.blk.bundles m.bundle (fun b => { b with model := true }) ∧
      { t.blk.mailBack s.blk with serve := s.blk.serve, bundles := s.blk.bundles, freeCtr := s.blk.freeCtr } = s.blk) ∧
  (∀ (s : State) (ch : Chan) (p k : Nat) (m : Model), s.blk.delivers ch 0x0602 → s.blk.backFree ch →
    p = (s.blk.msgTaken ch).fnPart (chFn ch) → ((s.blk.msgTaken ch).part p).isSome = true →
    k = (mreg (s.blk.msgWords ch) 1).toNat → s.blk.model p k = some m → m.fn = chFn ch → (s.blk.msgTaken ch).modelReqs p k = [] →
    ∃ t : State, exec (.srvModelUnload ch) s = .next t ∧ t.pending = s.pending ∧ t.blk.repliedTo s.blk ch OK ∧
      t.blk.model p k = none ∧ (∀ i, i ≠ k → t.blk.model p i = s.blk.model p i) ∧
      t.blk.adapters.all (fun e => !(e.2.part == p && e.2.model == k)) = true ∧
      { t.blk.mailBack s.blk with serve := s.blk.serve, bundles := s.blk.bundles, adapters := s.blk.adapters } = s.blk) ∧
  (∀ (s : State) (ch : Chan) (p k : Nat) (a : Adapter), s.blk.delivers ch 0x0603 → s.blk.backFree ch →
    p = (s.blk.msgTaken ch).fnPart (chFn ch) → ((s.blk.msgTaken ch).part p).isSome = true →
    a = { part := p, id := (mreg (s.blk.msgWords ch) 1).toNat, version := (mreg (s.blk.msgWords ch) 2).toNat,
          rank := (mreg (s.blk.msgWords ch) 3).fld 8 0, shared := (mreg (s.blk.msgWords ch) 3).bit 16,
          model := (mreg (s.blk.msgWords ch) 4).toNat, a := mreg (s.blk.msgWords ch) 5, b := mreg (s.blk.msgWords ch) 6,
          scale := mreg (s.blk.msgWords ch) 7, fn := chFn ch, current := true } →
    (s.blk.model p a.model).isSome = true → 1 ≤ a.id → a.id ≤ 65535 → 1 ≤ a.version → a.version ≤ 65535 → 1 ≤ a.rank → a.rank ≤ 256 →
    (s.blk.msgTaken ch).nameStatus p (chFn ch) 0 a.a = none → (s.blk.msgTaken ch).nameStatus p (chFn ch) 0 a.b = none →
    s.blk.adapters.all (fun e => !(e.2.part == p && e.2.id == a.id && decide (a.version ≤ e.2.version))) = true →
    (s.blk.msgTaken ch).adapterSlot = (some k, (s.blk.msgTaken ch).drawn) →
    ∃ t : State, exec (.srvAdapterLoad ch) s = .next t ∧ t.pending = s.pending ∧ t.blk.repliedTo s.blk ch OK ∧
      kget t.blk.adapters k = some a ∧ t.blk.rg (chBack ch + 8) = w32 k ∧
      (∀ i x, i ≠ k → kget t.blk.adapters i = some x → x.part = p → x.id = a.id → x.current = false) ∧
      (∀ i x, i ≠ k → kget s.blk.adapters i = some x → x.current = true → (x.part ≠ p ∨ x.id ≠ a.id) → kget t.blk.adapters i = some x) ∧
      { t.blk.mailBack s.blk with adapters := s.blk.adapters, freeCtr := s.blk.freeCtr } = s.blk) ∧
  ∀ (s : State) (ch : Chan) (p id i : Nat) (a : Adapter), s.blk.delivers ch 0x0604 → s.blk.backFree ch →
    p = (s.blk.msgTaken ch).fnPart (chFn ch) → ((s.blk.msgTaken ch).part p).isSome = true → id = (mreg (s.blk.msgWords ch) 1).toNat →
    s.blk.currentAdapter p id = some (i, a) → a.fn = chFn ch →
    ∃ t : State, exec (.srvAdapterUnload ch) s = .next t ∧ t.pending = s.pending ∧ t.blk.repliedTo s.blk ch OK ∧
      t.blk.currentAdapter p id = none ∧
      (∀ k x, kget s.blk.adapters k = some x → x.current = true → (x.part ≠ p ∨ x.id ≠ id) → kget t.blk.adapters k = some x) ∧
      { t.blk.mailBack s.blk with adapters := s.blk.adapters } = s.blk

/-- SRV_REQ_CANCEL, SRV_REQ_REBIND, SRV_REQ_QUERY, STEP_BOUNDARY, STEP_RETRY: a cancel and a rebind are kept for the next boundary,
where a cancelled request ends; the query answers a request's state; a step that failed ends its requests; one that is due
for a retry gets a new job. A boundary touches no other model, and no other partition's sequences, unless pages go to or from
other nodes.
Model choices: log entries 69, 73, 75, 77. -/
def Obligations.RequestsAndSteps : Prop :=
  (∀ (s : State) (ch : Chan) (k : Nat) (r : Req), s.blk.delivers ch 0x0605 → s.blk.backFree ch →
    s.blk.ownReq (chFn ch) (mreg (s.blk.msgWords ch) 1) = some (k, r) →
    ∃ t : State, exec (.srvReqCancel ch) s = .next t ∧ t.pending = s.pending ∧ t.blk.repliedTo s.blk ch OK ∧
      t.blk.mailBack s.blk = { s.blk with reqs := kmod s.blk.reqs k fun r => { r with cancel := some (ABORTED 0) } }) ∧
  (∀ (s : State) (ch : Chan), s.blk.delivers ch 0x0605 → s.blk.backFree ch →
    s.blk.ownReq (chFn ch) (mreg (s.blk.msgWords ch) 1) = none →
    ∃ t : State, exec (.srvReqCancel ch) s = .next t ∧ t.pending = s.pending ∧ t.blk.repliedTo s.blk ch OK ∧
      t.blk.mailBack s.blk = s.blk) ∧
  (∀ (s : State) (ch : Chan) (k id slot : Nat) (r : Req), s.blk.delivers ch 0x0606 → s.blk.backFree ch →
    s.blk.ownReq (chFn ch) (mreg (s.blk.msgWords ch) 1) = some (k, r) → r.live = true → r.adapter = some (id, slot) →
    (∃ y, (s.blk.msgTaken ch).rebindSlot ((s.blk.msgTaken ch).fnPart r.fn) r id (mreg (s.blk.msgWords ch) 2).toNat = .ok y) →
    ∃ t : State, exec (.srvReqRebind ch) s = .next t ∧ t.pending = s.pending ∧ t.blk.repliedTo s.blk ch OK ∧
      t.blk.mailBack s.blk =
        { s.blk with reqs := kmod s.blk.reqs k fun r => { r with rebind := some (mreg (s.blk.msgWords ch) 2).toNat } }) ∧
  (∀ (s : State) (ch : Chan) (k : Nat) (r : Req), s.blk.delivers ch 0x0607 → s.blk.backFree ch →
    s.blk.ownReq (chFn ch) (mreg (s.blk.msgWords ch) 1) = some (k, r) →
    ∃ t : State, exec (.srvReqQuery ch) s = .next t ∧ t.pending = s.pending ∧ t.blk.repliedTo s.blk ch OK ∧
      t.blk.rg (chBack ch + 8) = w32 r.state.code ∧ t.blk.rg (chBack ch + 12) = w32 r.emitted ∧
      t.blk.rg (chBack ch + 16) = w32 r.version ∧ t.blk.mailBack s.blk = s.blk) ∧
  (∀ (s : State) (p m : Nat), boundaryReady p m s.blk = true →
    ∃ t : State, exec (.stepBoundary p m) s = .next t ∧ t.pending = s.pending ∧
      (∀ n, n ≠ m → t.blk.model p n = s.blk.model p n) ∧ (∀ o, o ≠ p → t.blk.serveOf o = s.blk.serveOf o) ∧
      (s.blk.noFar p → (∀ o, o ≠ p → t.blk.snowOf o = s.blk.snowOf o) ∧ t.blk.tiles = s.blk.tiles ∧ t.blk.parts = s.blk.parts)) ∧
  (∀ (s : State) (p m k st : Nat) (M : Model) (r : Req), boundaryReady p m s.blk = true → s.blk.model p m = some M →
    M.step = none → s.blk.req k = some r → s.blk.fnPart r.fn = p → r.model = m → r.cancel = some st →
    ∃ t : State, exec (.stepBoundary p m) s = .next t ∧ t.pending = s.pending ∧ (t.blk.req k).map (·.state) = some .ended) ∧
  (∀ (s : State) (p m st : Nat) (M : Model) (x : Step), boundaryReady p m s.blk = true → s.blk.model p m = some M →
    s.blk.serveUp = true → s.blk.snowUp = true → M.step = some x → x.status = some st → st ≠ OK → st % 256 ≠ 6 → retryStatus st = false → st ≠ ABORTED 0xA9 →
    ∃ t : State, exec (.stepBoundary p m) s = .next t ∧ t.pending = s.pending ∧
      x.rows.all (fun r => (t.blk.req r.req).all fun q => !q.live) = true) ∧
  (∀ (s : State) (p m : Nat), boundaryReady p m s.blk = false → exec (.stepBoundary p m) s = .next s) ∧
  (∀ (s : State) (p m : Nat) (M : Model) (x : Step), retryReady p m s.blk = true → s.blk.model p m = some M → M.step = some x →
    ∃ t : State, exec (.stepRetry p m) s = .next t ∧ t.pending = s.pending ∧
      (∃ y, t.blk.model p m = some y ∧ ∃ j, y = { M with step := some { x with job := some j, status := none, ns := [], outs := none, commits := none } } ∧
        ∃ K, t.blk.jobAt j = some K ∧ K.state = .ready ∧ K.bundle = M.bundle ∧ K.part = p ∧ K.step = some (p, m)) ∧
      (∀ n, n ≠ m → t.blk.model p n = s.blk.model p n) ∧ x.rows.all (fun r => (t.blk.req r.req).all (·.retried)) = true ∧
      t.blk.objs = s.blk.objs ∧ t.blk.snow = s.blk.snow) ∧
  ∀ (s : State) (p m : Nat), retryReady p m s.blk = false → exec (.stepRetry p m) s = .next s

/-! ### Ledgers and the energy governor (R336 to R346, R440, R451 to R455) -/

/-- R337: an update of a ledger that would take a count below 0 or break its equation is refused, and the module is in breach;
any other keeps the equation. No update changes another ledger. -/
def Obligations.LedgerUpdatesKeepTheEquation : Prop :=
  (∀ (s : Block) (n : Nat) (m : LedgerMove), (s.ledger n).ok = true →
    ((s.led1 n m).ledger n).ok = true ∧ (∀ k, k ≠ n → (s.led1 n m).ledger k = s.ledger k) ∧
    (((s.led1 n m).ledger n = s.ledger n ∧ (s.led1 n m).breach = true) ∨
      (((s.led1 n m).ledger n).free : Int) = (s.ledger n).free + m.free ∧
      (((s.led1 n m).ledger n).held : Int) = (s.ledger n).held + m.held ∧
      (((s.led1 n m).ledger n).flight : Int) = (s.ledger n).flight + m.flight ∧
      (((s.led1 n m).ledger n).total : Int) = (s.ledger n).total + m.total ∧ (s.led1 n m).breach = s.breach)) ∧
  ∀ (s : Block) (n : Nat) (m : LedgerMove),
    ((s.ledger n).free + m.free < 0 ∨ (s.ledger n).held + m.held < 0 ∨ (s.ledger n).flight + m.flight < 0) →
    (s.led1 n m).breach = true ∧ (s.led1 n m).led = s.led

/-- LEDGER_SNAPSHOT, LEDGER_AUDIT: the four counts of a ledger are latched for their reader; a pass that finds every ledger in
order is counted and changes nothing else; a ledger whose equation fails puts the module in breach, and every job and
request ends.
GOVERNOR_WINDOW while the rails are up: 10 µs pass; the energy ledger of the next window has nothing in FLIGHT and holds at
least the grants; every grant lies between the unit's floor and its maximum; a core voltage moves by at most 5 mV.
PWR_LIMIT_WRITE (R454, R461), by the PF or the sideband: the limit is stored within 1,000 to 3,600 W, with the field beside
it, and nothing changes but that register and the ice core's records and their count of losses.
Model choices: log entries 87, 88, 89, 90, 126, 127. -/
def Obligations.AuditsAndWindows : Prop :=
  (∀ (s : State) (i n : Nat), reads0 i = true → ledgerOk n = true →
    exec (.ledgerSnapshot i n) s =
      .next { s with blk := { s.blk with latches := { s.blk.latches with ldg := kput s.blk.latches.ldg i (s.blk.ledger n) } } }) ∧
  (∀ (s : State) (i n : Nat), (reads0 i && ledgerOk n) = false → exec (.ledgerSnapshot i n) s = .next s) ∧
  (∀ (s : State), s.blk.bit LDG_STATUS 1 = true → s.blk.inBreach = false →
    ledgerList.all (fun n => (s.blk.ledger n).ok && s.blk.crossCheck n) = true →
    exec .ledgerAudit s = .next { s with blk := s.blk.bump LDG_AUDITS }) ∧
  (∀ (s : State) (n : Nat), s.blk.bit LDG_STATUS 1 = true → n ∈ ledgerList → (s.blk.ledger n).ok = false →
    ∃ t : State, exec .ledgerAudit s = .next t ∧ t.pending = s.pending ∧ t.blk.breach = true ∧ t.blk.jobs = [] ∧
      (∀ k, (t.blk.req k).all (fun q => !q.live) = true) ∧ t.blk.parts = s.blk.parts) ∧
  (∀ (s : State), s.blk.bit LDG_STATUS 1 = false → s.blk.inBreach = false → exec .ledgerAudit s = .next s) ∧
  (∀ (s : State) (m : WindowMeasure), s.blk.pwr.pwrGood = true →
    ∃ t : State, exec (.governorWindow m) s = .next t ∧ t.pending = s.pending ∧
      t.blk.ice.secNs = s.blk.ice.secNs + 10000 ∧
      (s.blk.start.pllOn = false ∨ t.blk.now = min (2 ^ 64 - 1) (s.blk.now + 10000)) ∧ (s.blk.start.pllOn = true ∨ t.blk.now = s.blk.now) ∧
      (t.blk.ledger 0x1A0).ok = true ∧ (t.blk.ledger 0x1A0).flight = 0 ∧ t.blk.pwr.grants.sum ≤ (t.blk.ledger 0x1A0).held ∧
      (∀ u, u < 44 → t.blk.govFloor u ≤ t.blk.pwr.grants.getD u 0 ∧ t.blk.pwr.grants.getD u 0 ≤ govMax u) ∧
      (∀ n, n ≠ 0x1A0 → t.blk.ledger n = s.blk.ledger n) ∧ t.blk.jobs = s.blk.jobs ∧ t.blk.objs = s.blk.objs ∧
      t.blk.parts = s.blk.parts ∧ t.blk.tiles = s.blk.tiles ∧ t.blk.clusters = s.blk.clusters ∧ t.blk.fns = s.blk.fns) ∧
  (∀ (s : State) (m : WindowMeasure) (d old : Nat), s.blk.pwr.pwrGood = true → d < 4 →
    old = (if s.blk.fld (PWR_VCORE d) 9 0 = 0 then 750 else s.blk.fld (PWR_VCORE d) 9 0) →
    ∃ t : State, exec (.governorWindow m) s = .next t ∧ t.pending = s.pending ∧
      t.blk.fld (PWR_VCORE d) 9 0 ≤ old + 5 ∧ old ≤ t.blk.fld (PWR_VCORE d) 9 0 + 5) ∧
  (∀ (s : State) (m : WindowMeasure), s.blk.pwr.pwrGood = false → exec (.governorWindow m) s = .next s) ∧
  (∀ (s : State) (i : Nat) (v : Word), (i = 0 ∨ i = 64) →
    ∃ t : State, exec (.pwrLimitWrite i v) s = .next t ∧ t.pending = s.pending ∧
      t.blk.fld PWR_LIMIT 11 0 = min 3600 (max 1000 (v.fld 11 0)) ∧ t.blk.fld PWR_LIMIT 23 16 = v.fld 23 16 ∧
      (∀ a, a ≠ PWR_LIMIT → a ≠ ICE_DROPPED → t.blk.rg a = s.blk.rg a) ∧ { t.blk with regs := s.blk.regs, ice := s.blk.ice } = s.blk) ∧
  ∀ (s : State) (i : Nat) (v : Word), i ≠ 0 → i ≠ 64 → exec (.pwrLimitWrite i v) s = .next s


/-! ### Esker (R347 to R374) -/

/-- ESK_PORT, PORT_TRAINING_DONE, RETRAIN_TIMER, PORT_STOPPING_DONE: a STOPPED port starts to train with fresh lanes, a STOPPING
one is busy; training ends with the port RUNNING, its epoch raised and its credits those of the partner, or with a cause;
a port that stops is STOPPED once it has waited.
Model choices: log entries 91, 92. -/
def Obligations.PortsStartAndStop : Prop :=
  (∀ (s : State) (ch : Chan) (p : Nat), s.blk.delivers ch 0x0804 → s.blk.backFree ch → (chFn ch = 0 ∨ chFn ch = 64) →
    p = (mreg (s.blk.msgWords ch) 1).toNat → p ≤ 15 → (mreg (s.blk.msgWords ch) 2).bit 0 = true → s.blk.portState p = 0 →
    ∃ t : State, exec (.eskPortStart ch) s = .next t ∧ t.pending = s.pending ∧ t.blk.repliedTo s.blk ch OK ∧ t.blk.portState p = 1 ∧
      (∀ n, n < 9 → t.blk.fld (ESK_LANE p n) 18 16 = 0) ∧
      t.blk.port p = { s.blk.port p with retrain := false, laneMax := s.blk.fld (ESK_LANE_CFG p) 15 0, encReq := s.blk.bit (ESK_CFG p) 9 } ∧
      (∀ q, q ≠ p → t.blk.port q = s.blk.port q) ∧ { t.blk.mailBack s.blk with esk := s.blk.esk } = s.blk) ∧
  (∀ (s : State) (ch : Chan) (p : Nat), s.blk.delivers ch 0x0804 → s.blk.backFree ch → (chFn ch = 0 ∨ chFn ch = 64) →
    p = (mreg (s.blk.msgWords ch) 1).toNat → p ≤ 15 → (mreg (s.blk.msgWords ch) 2).bit 0 = true → s.blk.portState p ≠ 0 →
    ∃ t : State, exec (.eskPortStart ch) s = .next t ∧ t.pending = s.pending ∧
      t.blk.repliedTo s.blk ch (if s.blk.portState p = 3 then BUSY 0xE4 else OK) ∧ t.blk.portState p = s.blk.portState p ∧
      t.blk.mailBack s.blk = s.blk) ∧
  (∀ (s : State) (ch : Chan) (p : Nat), s.blk.delivers ch 0x0804 → s.blk.backFree ch → (chFn ch = 0 ∨ chFn ch = 64) →
    p = (mreg (s.blk.msgWords ch) 1).toNat → p ≤ 15 → (mreg (s.blk.msgWords ch) 2).bit 0 = false →
    ∃ t : State, exec (.eskPortStop ch) s = .next t ∧ t.pending = s.pending ∧ t.blk.repliedTo s.blk ch OK ∧
      t.blk.portState p = (if s.blk.portState p = 0 then 0 else 3) ∧ { t.blk.mailBack s.blk with esk := s.blk.esk } = s.blk) ∧
  (∀ (s : State) (p : Nat) (x : Training), training p s.blk = true → x.lanesOk = true →
    (s.blk.nodeValid && x.nodeValid && x.node == s.blk.node) = false → ((s.blk.port p).encReq || x.encReq) = false →
    ∃ t : State, exec (.portTrainingDone p x) s = .next t ∧ t.pending = s.pending ∧ t.blk.portState p = 2 ∧
      t.blk.fld (ESK_EPOCH p) 15 0 = nextEpoch (s.blk.fld (ESK_EPOCH p) 15 0) ∧ t.blk.bit (ESK_STATE p) 10 = false ∧
      (∀ v, v < 8 → (t.blk.ledger (creditLedger p v)).total = x.credits.getD v 0 ∧ (t.blk.ledger (creditLedger p v)).ok = true) ∧
      t.blk.objs = s.blk.objs ∧ t.blk.parts = s.blk.parts) ∧
  (∀ (s : State) (p cause : Nat) (x : Training), training p s.blk = true →
    cause = (if !x.lanesOk then 6 else if s.blk.nodeValid && x.nodeValid && x.node == s.blk.node then 7
      else if ((s.blk.port p).encReq || x.encReq) && (s.blk.keysDiffer p x).isSome then 5 else 0) → cause ≠ 0 →
    ∃ t : State, exec (.portTrainingDone p x) s = .next t ∧ t.pending = s.pending ∧ t.blk.fld (ESK_STATE p) 9 7 = cause ∧
      t.blk.portState p = (if s.blk.bit (ESK_CFG p) 8 then 1 else 0) ∧ ((t.blk.port p).retrain || !s.blk.bit (ESK_CFG p) 8) = true ∧
      (cause ≠ 5 ∨ t.blk.bit (ESK_STATE p) 31 = true) ∧ t.blk.objs = s.blk.objs ∧ t.blk.jobs = s.blk.jobs ∧ t.blk.parts = s.blk.parts) ∧
  (∀ (s : State) (p : Nat) (x : Training), training p s.blk = false → exec (.portTrainingDone p x) s = .next s) ∧
  (∀ (s : State) (p : Nat), p < 16 → (s.blk.port p).retrain = true → s.blk.coreUp 5 = true → s.blk.clk.coastEsk = false →
    ∃ t : State, exec (.retrainTimer p) s = .next t ∧ t.pending = s.pending ∧ t.blk.portState p = 1 ∧ (t.blk.port p).retrain = false ∧
      (∀ n, n < 9 → t.blk.fld (ESK_LANE p n) 18 16 = 0) ∧ { t.blk with regs := s.blk.regs, esk := s.blk.esk } = s.blk) ∧
  (∀ (s : State) (p : Nat), (s.blk.port p).retrain = false → exec (.retrainTimer p) s = .next s) ∧
  (∀ (s : State) (p : Nat), p < 16 → s.blk.portState p = 3 →
    ∃ t : State, exec (.portStoppingDone p) s = .next t ∧ t.pending = s.pending ∧ t.blk.portState p = 0 ∧
      t.blk.fld (ESK_STATE p) 9 7 = 0 ∧ (∀ n, n < 9 → t.blk.fld (ESK_LANE p n) 17 16 = 0) ∧ t.blk.parts = s.blk.parts ∧
      t.blk.bundles = s.blk.bundles) ∧
  ∀ (s : State) (p : Nat), s.blk.portState p ≠ 3 → exec (.portStoppingDone p) s = .next s

/-- LOSS_OF_SIGNAL, KEEPALIVE_TIMEOUT, LANE_LOCK_LOSS, LANE_ERROR_WINDOW: a RUNNING port goes down with its cause, and waits to train
again when it may; the spare takes the place of a lane that fails, once; a window's counts are those of its lanes.
Model choices: log entry 94. -/
def Obligations.PortsAndLanesFail : Prop :=
  (∀ (s : State) (p : Nat), p < 16 → s.blk.portUp p = true →
    ∃ t : State, exec (.lossOfSignal p) s = .next t ∧ t.pending = s.pending ∧ t.blk.portState p = 0 ∧ t.blk.fld (ESK_STATE p) 9 7 = 1 ∧
      (t.blk.port p).retrain = s.blk.bit (ESK_CFG p) 8 ∧ t.blk.parts = s.blk.parts ∧ t.blk.bundles = s.blk.bundles) ∧
  (∀ (s : State) (p : Nat), s.blk.portUp p = false → exec (.lossOfSignal p) s = .next s) ∧
  (∀ (s : State) (p : Nat), p < 16 → s.blk.portUp p = true → (s.blk.port p).lastRx + s.blk.kaTimeout p ≤ s.blk.now →
    ∃ t : State, exec (.keepaliveTimeout p) s = .next t ∧ t.pending = s.pending ∧ t.blk.portState p = 0 ∧
      t.blk.fld (ESK_STATE p) 9 7 = 2 ∧ (t.blk.port p).retrain = s.blk.bit (ESK_CFG p) 8 ∧ t.blk.parts = s.blk.parts) ∧
  (∀ (s : State) (p : Nat), s.blk.now < (s.blk.port p).lastRx + s.blk.kaTimeout p → exec (.keepaliveTimeout p) s = .next s) ∧
  (∀ (s : State) (p n : Nat), p < 16 → n < 8 → s.blk.portUp p = true → s.blk.bit (ESK_LANE p n) 17 = true → s.blk.spareLeft p = true →
    ∃ t : State, exec (.laneLockLoss p n) s = .next t ∧ t.pending = s.pending ∧ t.blk.portUp p = true ∧
      t.blk.fld (ESK_LANE p n) 18 16 = 4 ∧ t.blk.bit (ESK_LANE p 8) 17 = true ∧ t.blk.bit (ESK_STATE p) 2 = true ∧
      t.blk.fld (ESK_STATE p) 6 3 = n ∧ t.blk.esk = s.blk.esk ∧ t.blk.objs = s.blk.objs ∧ t.blk.jobs = s.blk.jobs ∧ t.blk.led = s.blk.led) ∧
  (∀ (s : State) (p n : Nat), p < 16 → n < 9 → s.blk.portUp p = true → s.blk.bit (ESK_LANE p n) 17 = true → s.blk.bit (ESK_STATE p) 2 = true →
    ∃ t : State, exec (.laneLockLoss p n) s = .next t ∧ t.pending = s.pending ∧ t.blk.portState p = 0 ∧
      t.blk.fld (ESK_STATE p) 9 7 = 6 ∧ t.blk.bit (ESK_LANE p n) 18 = true ∧ t.blk.parts = s.blk.parts) ∧
  (∀ (s : State) (p n : Nat), p < 16 → n < 9 → s.blk.portUp p = true → s.blk.bit (ESK_LANE p n) 17 = false →
    ∃ t : State, exec (.laneLockLoss p n) s = .next t ∧ t.pending = s.pending ∧ t.blk.portUp p = true ∧
      t.blk.fld (ESK_LANE p n) 18 16 = 4 ∧ { t.blk with regs := s.blk.regs } = s.blk) ∧
  (∀ (s : State) (p : Nat) (errs : List Nat), p < 16 → s.blk.portUp p = true →
    ∃ t : State, exec (.laneErrorWindow p errs) s = .next t ∧ t.pending = s.pending ∧
      (∀ n, n < 9 → t.blk.fld (ESK_LANE p n) 15 0 = min 0xFFFF (errs.getD n 0)) ∧ t.blk.parts = s.blk.parts ∧
      t.blk.bundles = s.blk.bundles) ∧
  ∀ (s : State) (p : Nat) (errs : List Nat), s.blk.portUp p = false → exec (.laneErrorWindow p errs) s = .next s

/-- FLIT_RECEIVE on a RUNNING port: a flit whose check fails or which is out of order changes nothing; one in order is accepted,
with its ACK and its credits; a tag that fails is counted and nothing of the flit acts; a stop flit takes the port down.
Model choices: log entry 93. -/
def Obligations.FlitsReceived : Prop :=
  (∀ (s : State) (p : Nat) (f : Flit), (f.checkOk = false ∨ f.fseq % 1024 ≠ (s.blk.port p).rxSeq) →
    exec (.flitReceive p f) s = .next s) ∧
  (∀ (s : State) (p : Nat) (f : Flit), p < 16 → s.blk.portUp p = true → f.checkOk = true → f.fseq % 1024 = (s.blk.port p).rxSeq →
    (s.blk.bit (ESK_STATE p) 10 = false ∨ f.tagOk = true) → f.ctrl ≠ .stop → f.nak = false →
    ∃ t : State, exec (.flitReceive p f) s = .next t ∧ t.pending = s.pending ∧ t.blk.portUp p = true ∧
      (t.blk.port p).rxSeq = ((s.blk.port p).rxSeq + 1) % 1024 ∧ (t.blk.port p).acked = f.ack ∧ (t.blk.port p).lastRx = s.blk.now ∧
      (t.blk.port p).recvSlot = (if f.ctrl = .keySwitch then 1 - (s.blk.port p).recvSlot else (s.blk.port p).recvSlot) ∧
      (∀ q, q ≠ p → t.blk.port q = s.blk.port q) ∧ t.blk.objs = s.blk.objs ∧ t.blk.jobs = s.blk.jobs) ∧
  (∀ (s : State) (p : Nat) (f : Flit), p < 16 → s.blk.portUp p = true → f.checkOk = true → f.fseq % 1024 = (s.blk.port p).rxSeq →
    s.blk.bit (ESK_STATE p) 10 = true → f.tagOk = false → (s.blk.port p).tagFails + 1 < max 1 (s.blk.fld (ESK_CFG p) 7 4) →
    ∃ t : State, exec (.flitReceive p f) s = .next t ∧ t.pending = s.pending ∧ t.blk.portUp p = true ∧
      t.blk.port p = { s.blk.port p with tagFails := (s.blk.port p).tagFails + 1 } ∧
      t.blk.regs = (s.blk.bump (ESK_CNT_GCM_FAIL p)).regs ∧ { t.blk with regs := s.blk.regs, esk := s.blk.esk } = s.blk) ∧
  (∀ (s : State) (p : Nat) (f : Flit), p < 16 → s.blk.portUp p = true → f.checkOk = true → f.fseq % 1024 = (s.blk.port p).rxSeq →
    (s.blk.bit (ESK_STATE p) 10 = false ∨ f.tagOk = true) → f.ctrl = .stop →
    ∃ t : State, exec (.flitReceive p f) s = .next t ∧ t.pending = s.pending ∧ t.blk.portState p = 0 ∧
      t.blk.fld (ESK_STATE p) 9 7 = 3 ∧ t.blk.parts = s.blk.parts) ∧
  ∀ (s : State) (p : Nat) (f : Flit), p < 16 → s.blk.portUp p = true → f.checkOk = true → f.fseq % 1024 = (s.blk.port p).rxSeq →
    (s.blk.bit (ESK_STATE p) 10 = false ∨ f.tagOk = true) → f.ctrl ≠ .stop → f.nak = true → f.ack = (s.blk.port p).acked →
    max 1 (s.blk.fld (ESK_CFG p) 7 4) ≤ (s.blk.port p).replays + 1 →
    ∃ t : State, exec (.flitReceive p f) s = .next t ∧ t.pending = s.pending ∧ t.blk.portState p = 0 ∧
      t.blk.fld (ESK_STATE p) 9 7 = 4 ∧ t.blk.parts = s.blk.parts

/-- ESK_WRITE_PACKET, ESK_RED_PACKET, ESK_READ_PACKET, ESK_ATOMIC_PACKET for this node (R362): a request that passes the
destination's checks is performed on the object, and nothing else of memory changes; the response with its status goes to
the source. A WRITE on VC 3 stores in the frames granted to its source (R367). One that does not pass is answered with the
status and changes no object.
Model choices: log entries 12, 97, 168. -/
def Obligations.RequestPackets : Prop :=
  (∀ (s : State) (p q d : Nat) (k : Packet) (o : Obj), s.blk.arrives (.eskWritePacket p k) p 1 k → s.blk.nodeValid = true →
    k.dst = s.blk.node → k.vc ≠ 3 → s.blk.intact → s.blk.firnQueues = [] → s.blk.requestStatus k = .ok (d, o) →
    s.blk.fixedPort k.src = some q → s.blk.sendsNow q 2 32 →
    ∃ t : State, exec (.eskWritePacket p k) s = .next t ∧ t.pending = s.pending ∧
      (t.blk.obj d (hSlot k.handle)).map (·.data) =
        some (o.write k.off k.data (shiftMarks 0 k.off k.data.length (bitMarks k.data.length k.poison))).data ∧
      (∀ e j, (e ≠ d ∨ j ≠ hSlot k.handle) → t.blk.obj e j = s.blk.obj e j) ∧
      (∃ a, t.blk.env.sent.getLast? = some a ∧ t.blk.env.sent = s.blk.env.sent ++ [a] ∧ a.1 = q ∧ a.2.ptype = 8 ∧ a.2.status = OK ∧
        a.2.dst = k.src ∧ a.2.tag = k.tag) ∧ t.blk.jobs = s.blk.jobs ∧ t.blk.tiles = s.blk.tiles) ∧
  (∀ (s : State) (p q d : Nat) (k : Packet) (o : Obj), s.blk.arrives (.eskRedPacket p k) p 2 k → s.blk.nodeValid = true →
    k.dst = s.blk.node → k.vc ≠ 3 → s.blk.intact → s.blk.firnQueues = [] → s.blk.requestStatus k = .ok (d, o) →
    s.blk.fixedPort k.src = some q → s.blk.sendsNow q 2 32 →
    ∃ t : State, exec (.eskRedPacket p k) s = .next t ∧ t.pending = s.pending ∧
      (∃ b, t.blk.obj d (hSlot k.handle) = some b ∧ b.desc = o.desc ∧
        ∀ v, (v < k.off ∨ k.off + k.data.length ≤ v) → memByte b.data.cells v = memByte o.data.cells v) ∧
      (∀ e j, (e ≠ d ∨ j ≠ hSlot k.handle) → t.blk.obj e j = s.blk.obj e j) ∧
      (∃ a, t.blk.env.sent.getLast? = some a ∧ t.blk.env.sent = s.blk.env.sent ++ [a] ∧ a.1 = q ∧ a.2.ptype = 8 ∧ a.2.status = OK ∧
        a.2.dst = k.src ∧ a.2.tag = k.tag) ∧ t.blk.jobs = s.blk.jobs ∧ t.blk.tiles = s.blk.tiles) ∧
  (∀ (s : State) (p q d : Nat) (k : Packet) (o : Obj), s.blk.arrives (.eskReadPacket p k) p 3 k → s.blk.nodeValid = true →
    k.dst = s.blk.node → k.vc ≠ 3 → s.blk.intact → s.blk.firnQueues = [] → s.blk.requestStatus k = .ok (d, o) →
    s.blk.fixedPort k.src = some q → s.blk.sendsNow q 2 288 →
    ∃ t : State, exec (.eskReadPacket p k) s = .next t ∧ t.pending = s.pending ∧
      (∀ e j, (t.blk.obj e j).map (·.data) = (s.blk.obj e j).map (·.data)) ∧
      (∃ a, t.blk.env.sent.getLast? = some a ∧ t.blk.env.sent = s.blk.env.sent ++ [a] ∧ a.1 = q ∧ a.2.ptype = 9 ∧ a.2.status = OK ∧
        a.2.dst = k.src ∧ a.2.tag = k.tag ∧ a.2.data = o.read k.off (readLen o k.off)) ∧
      t.blk.jobs = s.blk.jobs ∧ t.blk.tiles = s.blk.tiles) ∧
  (∀ (s : State) (p q d z : Nat) (k : Packet) (o : Obj), s.blk.arrives (.eskAtomicPacket p k) p 4 k → s.blk.nodeValid = true →
    k.dst = s.blk.node → k.vc ≠ 3 → s.blk.intact → s.blk.firnQueues = [] → s.blk.requestStatus k = .ok (d, o) →
    s.blk.fixedPort k.src = some q → s.blk.sendsNow q 2 40 → z = typeSize k.etype →
    ∃ t : State, exec (.eskAtomicPacket p k) s = .next t ∧ t.pending = s.pending ∧
      (t.blk.obj d (hSlot k.handle)).map (·.data) =
        some (o.write k.off (leBytes z (adderOp k.op k.etype (leNat (o.read k.off z)) (leNat (k.data.take z))).1)
          [(bitMarks k.data.length k.poison).getD 0 false || o.data.marked k.off z]).data ∧
      (∀ e j, (e ≠ d ∨ j ≠ hSlot k.handle) → t.blk.obj e j = s.blk.obj e j) ∧
      (∃ a, t.blk.env.sent.getLast? = some a ∧ t.blk.env.sent = s.blk.env.sent ++ [a] ∧ a.1 = q ∧ a.2.ptype = 9 ∧ a.2.status = OK ∧
        a.2.dst = k.src ∧ a.2.tag = k.tag ∧ (k.fetch = false ∨ a.2.data = leBytes 8 (leNat (o.read k.off z)))) ∧
      t.blk.jobs = s.blk.jobs ∧ t.blk.tiles = s.blk.tiles) ∧
  (∀ (s : State) (p q d z : Nat) (f : Frame) (k : Packet), s.blk.arrives (.eskWritePacket p k) p 1 k → s.blk.nodeValid = true →
    k.dst = s.blk.node → k.vc = 3 → s.blk.err.met = [] → s.blk.firnQueues = [] → s.blk.farStatus k = .ok (d, z, f) →
    s.blk.fixedPort k.src = some q → s.blk.sendsNow q 2 32 →
    ∃ t : State, exec (.eskWritePacket p k) s = .next t ∧ t.pending = s.pending ∧
      (t.blk.obj d z).map (·.data) =
        (s.blk.obj d z).map (fun o => o.data.write k.off k.data (bitMarks k.data.length k.poison)) ∧
      (∀ e j, (e ≠ d ∨ j ≠ z) → t.blk.obj e j = s.blk.obj e j) ∧ t.blk.jobs = s.blk.jobs ∧ t.blk.tiles = s.blk.tiles) ∧
  ∀ (s : State) (i : Instr) (p ty q st : Nat) (k : Packet),
    i ∈ [.eskWritePacket p k, .eskRedPacket p k, .eskReadPacket p k, .eskAtomicPacket p k] → s.blk.arrives i p ty k →
    s.blk.nodeValid = true → k.dst = s.blk.node → s.blk.err.met = [] → s.blk.firnQueues = [] →
    (k.vc ≠ 3 ∧ s.blk.requestStatus k = .error st ∨ k.vc = 3 ∧ s.blk.farStatus k = .error st) →
    s.blk.fixedPort k.src = some q → s.blk.sendsNow q 2 32 →
    ∃ t : State, exec i s = .next t ∧ t.pending = s.pending ∧
      (∃ a, t.blk.env.sent.getLast? = some a ∧ t.blk.env.sent = s.blk.env.sent ++ [a] ∧ a.1 = q ∧ a.2.status = st ∧ a.2.dst = k.src ∧
        a.2.tag = k.tag ∧ a.2.data = []) ∧
      { t.blk with regs := s.blk.regs, esk := s.blk.esk, env := s.blk.env, led := s.blk.led } = s.blk

/-- ESK_ACK_PACKET, ESK_DATA_PACKET, ESK_MGMT_PACKET and packets that pass (R357, R360, R362, R370): a packet for another node goes
on with one hop more and changes nothing here; a response completes its request or ends its job with the status, and one
that fits no request is discarded; a message of the fabric manager reaches its channel.
Model choices: log entries 95, 96, 97. -/
def Obligations.PacketsPassAndComplete : Prop :=
  (∀ (s : State) (i : Instr) (p ty q : Nat) (k : Packet) (msg : List Word),
    i ∈ [.eskWritePacket p k, .eskRedPacket p k, .eskReadPacket p k, .eskAtomicPacket p k, .eskAckPacket p k, .eskDataPacket p k,
      .eskMgmtPacket p k msg] → s.blk.arrives i p ty k → s.blk.nodeValid = true → k.dst ≠ s.blk.node →
    s.blk.routePort k.vc k.dst = some q → s.blk.sendsNow q k.vc (packetBytes k) →
    ∃ t : State, exec i s = .next t ∧ t.pending = s.pending ∧
      t.blk.env.sent = s.blk.env.sent ++ [(q, { k with hops := k.hops + 1 })] ∧
      { t.blk with regs := s.blk.regs, esk := s.blk.esk, env := s.blk.env, led := s.blk.led } = s.blk) ∧
  (∀ (s : State) (i : Instr) (p : Nat) (k : Packet) (msg : List Word),
    i ∈ [.eskWritePacket p k, .eskRedPacket p k, .eskReadPacket p k, .eskAtomicPacket p k, .eskAckPacket p k, .eskDataPacket p k,
      .eskMgmtPacket p k msg] → k.hops = 31 →
    ∃ t : State, exec i s = .next t ∧ t.pending = s.pending ∧ { t.blk with regs := s.blk.regs } = s.blk) ∧
  (∀ (s : State) (i : Instr) (p : Nat) (k : Packet) (msg : List Word),
    i ∈ [.eskWritePacket p k, .eskRedPacket p k, .eskReadPacket p k, .eskAtomicPacket p k, .eskAckPacket p k, .eskDataPacket p k,
      .eskMgmtPacket p k msg] → s.blk.portUp p = false →
    exec i s = .next s) ∧
  (∀ (s : State) (i : Instr) (p ty : Nat) (k : Packet) (o : Outstanding),
    i ∈ [.eskAckPacket p k, .eskDataPacket p k] → s.blk.arrives i p ty k → s.blk.nodeValid = true →
    k.dst = s.blk.node → kget s.blk.esk.out k.tag = some o → s.blk.responds o k = true → k.status = OK →
    o.mover = none → o.sink = none →
    ∃ t : State, exec i s = .next t ∧ t.pending = s.pending ∧ kget t.blk.esk.out k.tag = none ∧ t.blk.jobs = s.blk.jobs ∧
      t.blk.objs = s.blk.objs ∧ t.blk.tiles = s.blk.tiles) ∧
  (∀ (s : State) (i : Instr) (p ty : Nat) (k : Packet) (o : Outstanding) (J : Job),
    i ∈ [.eskAckPacket p k, .eskDataPacket p k] → s.blk.arrives i p ty k → s.blk.nodeValid = true →
    k.dst = s.blk.node → kget s.blk.esk.out k.tag = some o → s.blk.responds o k = true → k.status ≠ OK →
    o.mover = none → s.blk.jobAt o.job = some J → J.placed = true → J.fail = none →
    ∃ t : State, exec i s = .next t ∧ t.pending = s.pending ∧ kget t.blk.esk.out k.tag = none ∧
      (t.blk.jobAt o.job).map (·.fail) = some (some (k.status, o.count, o.tag, o.engine)) ∧ t.blk.objs = s.blk.objs) ∧
  (∀ (s : State) (i : Instr) (p ty : Nat) (k : Packet),
    i ∈ [.eskAckPacket p k, .eskDataPacket p k] → s.blk.arrives i p ty k → s.blk.nodeValid = true →
    k.dst = s.blk.node → kget s.blk.esk.out k.tag = none →
    ∃ t : State, exec i s = .next t ∧ t.pending = s.pending ∧ { t.blk with regs := s.blk.regs } = s.blk) ∧
  ∀ (s : State) (p : Nat) (k : Packet) (msg : List Word), s.blk.arrives (.eskMgmtPacket p k msg) p 0xC k →
    (s.blk.nodeValid = false ∨ k.dst = s.blk.node) → s.blk.fromFm k = true → (mreg msg 0).fld 15 8 = 8 →
    ∃ t : State, exec (.eskMgmtPacket p k msg) s = .next t ∧ t.pending = s.pending ∧ t.blk.full (chBase .mgmt) = true ∧
      mreg (t.blk.msgWords .mgmt) 0 = mreg msg 0 ∧ { t.blk with regs := s.blk.regs, mbx := s.blk.mbx } = s.blk

/-- ACK_TIMEOUT_EXPIRY, VC1_ESCAPE_TIMEOUT, TIME_SYNC_TICK (R360, R364, R368): a request without a response for ACK_TIMEOUT is lost and
ends its job; a packet that waits on VC 1 leaves on VC 5 of the fixed route; the root's time is the fabric's, the first
offset steps a timebase that is behind, and later ones change only its rate.
Model choices: log entry 100. -/
def Obligations.LinkTimers : Prop :=
  (∀ (s : State) (tag at_ : Nat) (o : Outstanding) (J : Job), kget s.blk.esk.out tag = some o → o.sent = some at_ →
    at_ + s.blk.fld ESK_ACK 15 0 * 1000 ≤ s.blk.now → o.mover = none → s.blk.jobAt o.job = some J → J.placed = true → J.fail = none →
    ∃ t : State, exec (.ackTimeoutExpiry tag) s = .next t ∧ t.pending = s.pending ∧ kget t.blk.esk.out tag = none ∧
      (t.blk.jobAt o.job).map (·.fail) = some (some (ABORTED 0xE1, o.count, o.tag, o.engine)) ∧ t.blk.objs = s.blk.objs) ∧
  (∀ (s : State) (tag at_ : Nat) (o : Outstanding), kget s.blk.esk.out tag = some o → o.sent = some at_ →
    s.blk.now < at_ + s.blk.fld ESK_ACK 15 0 * 1000 → exec (.ackTimeoutExpiry tag) s = .next s) ∧
  (∀ (s : State) (p r : Nat) (q : Queued) (rest : List Queued), p < 16 → s.blk.portUp p = true →
    firstVc1 (s.blk.port p).queue = some (q, rest) → s.blk.fixedPort q.packet.dst = some r → q.packet.ordered = false →
    s.blk.portUp r = true → (r = p ∧ rest = [] ∨ r ≠ p ∧ (s.blk.port r).queue = []) → (s.blk.ledger (creditLedger r 5)).ok = true →
    ceilDiv (packetBytes q.packet) 32 ≤ (s.blk.ledger (creditLedger r 5)).free →
    ∃ t : State, exec (.vc1EscapeTimeout p) s = .next t ∧ t.pending = s.pending ∧ (t.blk.port p).queue = rest ∧
      t.blk.env.sent = s.blk.env.sent ++ [(r, { q.packet with vc := 5 })] ∧ t.blk.jobs = s.blk.jobs ∧ t.blk.objs = s.blk.objs) ∧
  (∀ (s : State) (p : Nat), firstVc1 (s.blk.port p).queue = none → exec (.vc1EscapeTimeout p) s = .next s) ∧
  (∀ (s : State) (t1 t2 t3 t4 : Int) (hops : Nat), s.blk.isRoot = true →
    ∃ t : State, exec (.timeSyncTick t1 t2 t3 t4 hops) s = .next t ∧ t.pending = s.pending ∧ t.blk.fld ESK_TIME 1 0 = 2 ∧
      t.blk.now = s.blk.now ∧ { t.blk with regs := s.blk.regs } = s.blk) ∧
  (∀ (s : State) (t1 t2 t3 t4 : Int) (hops p : Nat) (off : Int), s.blk.isRoot = false → s.blk.syncPort = some p →
    off = syncOffset t1 t2 t3 t4 (signExt 16 (s.blk.fld (ESK_TS_ASYM p) 15 0)) → s.blk.fld ESK_TIME 1 0 ≠ 1 →
    ∃ t : State, exec (.timeSyncTick t1 t2 t3 t4 hops) s = .next t ∧ t.pending = s.pending ∧ t.blk.fld ESK_TIME 1 0 = 1 ∧
      t.blk.fld ESK_TIME 7 2 = hops % 64 ∧ t.blk.now = min (2 ^ 64 - 1) (s.blk.now + off.toNat) ∧
      { t.blk with regs := s.blk.regs } = s.blk) ∧
  (∀ (s : State) (t1 t2 t3 t4 : Int) (hops p : Nat), s.blk.isRoot = false → s.blk.syncPort = some p → s.blk.fld ESK_TIME 1 0 = 1 →
    ∃ t : State, exec (.timeSyncTick t1 t2 t3 t4 hops) s = .next t ∧ t.pending = s.pending ∧ t.blk.fld ESK_TIME 1 0 = 1 ∧
      t.blk.now = s.blk.now ∧ { t.blk with regs := s.blk.regs, freeCtr := s.blk.freeCtr } = s.blk) ∧
  ∀ (s : State) (t1 t2 t3 t4 : Int) (hops : Nat), s.blk.isRoot = false → s.blk.syncPort = none →
    ∃ t : State, exec (.timeSyncTick t1 t2 t3 t4 hops) s = .next t ∧ t.pending = s.pending ∧ t.blk.fld ESK_TIME 1 0 = 0 ∧
      t.blk.now = s.blk.now ∧ { t.blk with regs := s.blk.regs } = s.blk

/-- ESK_NODE_SET, ESK_ROUTE_SET, ESK_ROUTE_GET, ESK_DOMAIN_SET, ESK_ALLOT, ESK_GROUP_SET, ESK_FAR_GRANT, ESK_FABRIC_SET from the PF, the
sideband or the fabric manager (R358 to R367, R370): the node, the routes, the domain, the tags, the group, the grant and the
fabric are as the message has them.
Model choices: log entries 95, 98, 99. -/
def Obligations.FabricMessages : Prop :=
  (∀ (s : State) (ch : Chan) (n : Nat), s.blk.delivers ch 0x0801 → s.blk.backFree ch → (chFn ch = 0 ∨ chFn ch = 64) →
    n = (mreg (s.blk.msgWords ch) 1).toNat → n ≤ 32767 → (List.range 32).all (fun p => !s.blk.joined p) = true →
    ∃ t : State, exec (.eskNodeSet ch) s = .next t ∧ t.pending = s.pending ∧ t.blk.repliedTo s.blk ch OK ∧ t.blk.node = n ∧
      t.blk.nodeValid = true ∧ t.blk.mailBack s.blk = s.blk) ∧
  (∀ (s : State) (ch : Chan) (p : Nat), s.blk.delivers ch 0x0801 → s.blk.backFree ch → (chFn ch = 0 ∨ chFn ch = 64) →
    (mreg (s.blk.msgWords ch) 1).toNat ≤ 32767 → p < 32 → s.blk.joined p = true →
    ∃ t : State, exec (.eskNodeSet ch) s = .next t ∧ t.pending = s.pending ∧ t.blk.repliedTo s.blk ch (BUSY 0xE9) ∧
      t.blk.node = s.blk.node ∧ t.blk.mailBack s.blk = s.blk) ∧
  (∀ (s : State) (ch : Chan) (first n : Nat) (l : List Word), s.blk.delivers ch 0x0802 → s.blk.backFree ch →
    (chFn ch = 0 ∨ chFn ch = 64) → first = (mreg (s.blk.msgWords ch) 1).toNat → n = (mreg (s.blk.msgWords ch) 2).toNat →
    first + n ≤ 32768 →
    ((mreg (s.blk.msgWords ch) 6).bit 0 = false ∧ l = List.replicate n (mreg (s.blk.msgWords ch) 3) ∨
      (mreg (s.blk.msgWords ch) 6).bit 0 = true ∧ (s.blk.msgTaken ch).hostReadStatus 0 (mpair (s.blk.msgWords ch) 4) (4 * n) = none ∧
      l = bytesWords n (s.blk.hostRead (mpair (s.blk.msgWords ch) 4) (4 * n))) →
    l.all routeOk = true →
    ∃ t : State, exec (.eskRouteSet ch) s = .next t ∧ t.pending = s.pending ∧
      (∀ i, i < n → t.blk.route (first + i) = l.getD i 0) ∧ (∀ k, (k < first ∨ first + n ≤ k) → t.blk.route k = s.blk.route k) ∧
      t.blk.parts = s.blk.parts ∧ t.blk.bundles = s.blk.bundles) ∧
  (∀ (s : State) (ch : Chan) (n : Nat), s.blk.delivers ch 0x0803 → s.blk.backFree ch → (chFn ch = 0 ∨ chFn ch = 64) →
    n = (mreg (s.blk.msgWords ch) 1).toNat → n ≤ 32767 →
    ∃ t : State, exec (.eskRouteGet ch) s = .next t ∧ t.pending = s.pending ∧ t.blk.repliedTo s.blk ch OK ∧
      t.blk.rg (chBack ch + 8) = s.blk.route n ∧ t.blk.mailBack s.blk = s.blk) ∧
  (∀ (s : State) (ch : Chan) (p d : Nat), s.blk.delivers ch 0x0805 → s.blk.backFree ch → (chFn ch = 0 ∨ chFn ch = 64) →
    p = (mreg (s.blk.msgWords ch) 1).toNat → p ≤ 31 → (s.blk.part p).isSome = true → (mreg (s.blk.msgWords ch) 2).bit 16 = true →
    d = (mreg (s.blk.msgWords ch) 2).fld 15 0 → (s.blk.joined p = false ∨ s.blk.fld (ESK_DOMAIN p) 15 0 = d) →
    (s.blk.domainPart d = none ∨ s.blk.domainPart d = some p) →
    ∃ t : State, exec (.eskDomainJoin ch) s = .next t ∧ t.pending = s.pending ∧ t.blk.repliedTo s.blk ch OK ∧ t.blk.joined p = true ∧
      t.blk.fld (ESK_DOMAIN p) 15 0 = d ∧ (∀ q, q ≠ p → t.blk.joined q = s.blk.joined q) ∧ t.blk.mailBack s.blk = s.blk) ∧
  (∀ (s : State) (ch : Chan) (p : Nat), s.blk.delivers ch 0x0805 → s.blk.backFree ch → (chFn ch = 0 ∨ chFn ch = 64) →
    p = (mreg (s.blk.msgWords ch) 1).toNat → p ≤ 31 → (s.blk.part p).isSome = true → (mreg (s.blk.msgWords ch) 2).bit 16 = false →
    ∃ t : State, exec (.eskDomainLeave ch) s = .next t ∧ t.pending = s.pending ∧ t.blk.repliedTo s.blk ch OK ∧ t.blk.joined p = false ∧
      (∀ q, q ≠ p → t.blk.joined q = s.blk.joined q) ∧ t.blk.mailBack s.blk = s.blk) ∧
  (∀ (s : State) (ch : Chan) (p n : Nat), s.blk.delivers ch 0x0806 → s.blk.backFree ch → (chFn ch = 0 ∨ chFn ch = 64) →
    p = (mreg (s.blk.msgWords ch) 1).toNat → p ≤ 31 → (s.blk.part p).isSome = true → n = (mreg (s.blk.msgWords ch) 2).toNat →
    s.blk.otherTags p + n ≤ 65536 → s.blk.reservedCredits p ≤ n →
    ∃ t : State, exec (.eskAllot ch) s = .next t ∧ t.pending = s.pending ∧ t.blk.repliedTo s.blk ch OK ∧
      t.blk.fld (ESK_ALLOT p) 16 0 = n ∧ t.blk.otherTags p = s.blk.otherTags p ∧ t.blk.mailBack s.blk = s.blk) ∧
  (∀ (s : State) (ch : Chan) (g n : Nat) (l : List Nat), s.blk.delivers ch 0x0807 → s.blk.backFree ch → (chFn ch = 0 ∨ chFn ch = 64) →
    g = (mreg (s.blk.msgWords ch) 1).toNat → 1 ≤ g → g ≤ 255 → n = (mreg (s.blk.msgWords ch) 3).toNat → 1 ≤ n → n ≤ 32768 →
    s.blk.groupEntries g + n ≤ 131072 → (s.blk.msgTaken ch).groupNodes (s.blk.msgWords ch) n = .ok l →
    l.all (fun x => decide (x < 32768)) = true → l.Nodup → s.blk.groupNamed g = false →
    ∃ t : State, exec (.eskGroupSet ch) s = .next t ∧ t.pending = s.pending ∧ t.blk.repliedTo s.blk ch OK ∧
      t.blk.esk = { s.blk.esk with
                    groups := kput s.blk.esk.groups g { domain := (mreg (s.blk.msgWords ch) 2).fld 15 0, nodes := l } } ∧
      { t.blk.mailBack s.blk with esk := s.blk.esk } = s.blk) ∧
  (∀ (s : State) (ch : Chan) (node d p mib : Nat) (q : Part) (B : Block), s.blk.delivers ch 0x0808 → s.blk.backFree ch →
    (chFn ch = 0 ∨ chFn ch = 64) → node = (mreg (s.blk.msgWords ch) 1).toNat → node ≤ 32767 →
    d = (mreg (s.blk.msgWords ch) 2).fld 15 0 → mib = (mreg (s.blk.msgWords ch) 3).toNat → 0 < mib →
    s.blk.domainPart d = some p → s.blk.part p = some q → s.blk.esk.grants.all (fun g => !(g.node == node && g.domain == d)) = true →
    (s.blk.msgTaken ch).makeHidden p q (s.blk.grantSlot p) 0 (ceilDiv mib 2) = some B → B.backFree ch →
    ∃ t : State, exec (.eskFarGrant ch) s = .next t ∧ t.pending = s.pending ∧ t.blk.repliedTo s.blk ch OK ∧
      t.blk.esk.grants = s.blk.esk.grants ++ [{ node := node, domain := d, part := p, slot := s.blk.grantSlot p }] ∧
      ((t.blk.obj p (s.blk.grantSlot p)).map fun o => o.frames.length) = some (ceilDiv mib 2) ∧
      (∀ e k, (e ≠ p ∨ k ≠ s.blk.grantSlot p) → t.blk.obj e k = s.blk.obj e k)) ∧
  (∀ (s : State) (ch : Chan) (node d p : Nat) (g : FarGrant), s.blk.delivers ch 0x0808 → s.blk.backFree ch →
    (chFn ch = 0 ∨ chFn ch = 64) → node = (mreg (s.blk.msgWords ch) 1).toNat → node ≤ 32767 →
    d = (mreg (s.blk.msgWords ch) 2).fld 15 0 → (mreg (s.blk.msgWords ch) 3).toNat = 0 → s.blk.domainPart d = some p →
    s.blk.esk.grants.find? (fun g => g.node == node && g.domain == d) = some g →
    ∃ t : State, exec (.eskFarGrant ch) s = .next t ∧ t.pending = s.pending ∧
      (t.blk.repliedTo s.blk ch (BUSY 0xE9) ∧ t.blk.esk.grants = s.blk.esk.grants ∨
        t.blk.esk.grants = s.blk.esk.grants.filter (fun x => x != g) ∧ t.blk.obj g.part g.slot = none)) ∧
  ∀ (s : State) (ch : Chan) (a b : Word), s.blk.delivers ch 0x0809 → s.blk.backFree ch → (chFn ch = 0 ∨ chFn ch = 64) →
    a = mreg (s.blk.msgWords ch) 1 → b = mreg (s.blk.msgWords ch) 2 →
    ∃ t : State, exec (.eskFabricSet ch) s = .next t ∧ t.pending = s.pending ∧ t.blk.repliedTo s.blk ch OK ∧
      t.blk.rg ESK_FABRIC = w32 (a.fld 15 0 + b.fld 15 0 * 65536) ∧
      t.blk.fld ESK_ACK 15 0 = (mreg (s.blk.msgWords ch) 3).fld 15 0 ∧ t.blk.mailBack s.blk = s.blk

/-! ### Rime and its firmware (R401 to R414) -/

/-- RIME_CORE_FAULT, RIME_CORE_RESTARTED, WATCHDOG_EXPIRY, RIME_KICK, ROOT_CORE_FAULT (R403, R406, R407, R409, R412): a fault is recorded
with its cause and address and the core restarts, or is given up at FAULT_LIMIT faults within 1 s, and the work of the
engines stands; a core that returns is RUNNING and counted; a core that kicks does not expire; a fault of ROOT is a warm
start.
Model choices: log entries 114, 115. -/
def Obligations.RimeCores : Prop :=
  (∀ (s : State) (n cause pc addr : Nat), faultable n s.blk = true → 1 ≤ cause → cause ≤ 5 →
    ((s.blk.core n).faults.filter fun t => decide (s.blk.now < t + 1000000000)).length + 1 < s.blk.faultLimit →
    ∃ t : State, exec (.rimeCoreFault n cause pc addr) s = .next t ∧ t.pending = s.pending ∧ t.blk.coreState n = 4 ∧
      t.blk.fld (RIME_STATE n) 6 4 = cause ∧ t.blk.rg (RIME_FAULT_ADDR n) = w32 addr ∧ (t.blk.core n).faultAt = s.blk.now ∧
      (t.blk.core n).image = (s.blk.core n).image ∧ (∀ m, m < 7 → m ≠ n → t.blk.core m = s.blk.core m ∧ t.blk.coreState m = s.blk.coreState m) ∧
      { t.blk with regs := s.blk.regs, fw := s.blk.fw, ice := s.blk.ice, esk := s.blk.esk } = s.blk) ∧
  (∀ (s : State) (n cause pc addr : Nat), faultable n s.blk = true → 1 ≤ cause → cause ≤ 5 →
    s.blk.faultLimit ≤ ((s.blk.core n).faults.filter fun t => decide (s.blk.now < t + 1000000000)).length + 1 →
    (s.blk.core n).reply = none →
    ∃ t : State, exec (.rimeCoreFault n cause pc addr) s = .next t ∧ t.pending = s.pending ∧ t.blk.coreState n = 5 ∧
      t.blk.fld (RIME_STATE n) 6 4 = cause ∧ t.blk.rg (RIME_FAULT_ADDR n) = w32 addr ∧ t.blk.moduleAlert = true ∧
      { t.blk with regs := s.blk.regs, fw := s.blk.fw, ice := s.blk.ice, esk := s.blk.esk } = s.blk) ∧
  (∀ (s : State) (n cause pc addr : Nat), (faultable n s.blk = false ∨ cause = 0 ∨ 5 < cause) →
    exec (.rimeCoreFault n cause pc addr) s = .next s) ∧
  (∀ (s : State) (n : Nat), faultable n s.blk = true → s.blk.coreState n = 4 → (s.blk.core n).reply = none → s.blk.returnsQuietly n →
    ∃ t : State, exec (.rimeCoreRestarted n) s = .next t ∧ t.pending = s.pending ∧ t.blk.coreState n = 2 ∧
      t.blk.fld (RIME_RESTARTS n) 15 0 = min 0xFFFF (s.blk.fld (RIME_RESTARTS n) 15 0 + 1) ∧ (t.blk.core n).kickAt = s.blk.now ∧
      (n = 6 → t.blk.bit LDG_STATUS 1 = true ∧ t.blk.ice.health = []) ∧ (n = 5 → t.blk.esk.seen = none) ∧
      (n = 1 → t.blk.lossUntold = none ∧ t.blk.vOwed = []) ∧ (∀ m, m ≠ n → t.blk.core m = s.blk.core m) ∧
      { t.blk with regs := s.blk.regs, fw := s.blk.fw, ice := s.blk.ice, esk := s.blk.esk, lossUntold := s.blk.lossUntold,
                   vOwed := s.blk.vOwed } = s.blk) ∧
  (∀ (s : State) (n : Nat) (ch : Chan) (h : Word), faultable n s.blk = true → s.blk.coreState n = 4 →
    (s.blk.core n).reply = some (ch, h, false) → chSecure ch = true → (s.blk.box (chBase ch)).owed = true → s.blk.backFree ch →
    s.blk.returnsQuietly n →
    ∃ t : State, exec (.rimeCoreRestarted n) s = .next t ∧ t.pending = s.pending ∧ t.blk.coreState n = 2 ∧ t.blk.full (chBack ch) = true ∧
      t.blk.rg (chBack ch) = h ∧ t.blk.rg (chBack ch + 4) = w32 OK ∧ (t.blk.core n).reply = none ∧ t.blk.jobs = s.blk.jobs ∧
      t.blk.objs = s.blk.objs ∧ t.blk.parts = s.blk.parts) ∧
  (∀ (s : State) (n : Nat), (faultable n s.blk = false ∨ s.blk.coreState n ≠ 4) → exec (.rimeCoreRestarted n) s = .next s) ∧
  (∀ (s : State) (n : Nat), watchdogDue n s.blk = true → n ≠ 0 → (s.blk.core n).reply = none →
    ∃ t : State, exec (.watchdogExpiry n) s = .next t ∧ t.pending = s.pending ∧ t.blk.fld (RIME_STATE n) 6 4 = 2 ∧
      (t.blk.coreState n = 4 ∨ t.blk.coreState n = 5) ∧ t.blk.objs = s.blk.objs ∧ t.blk.jobs = s.blk.jobs ∧ t.blk.led = s.blk.led) ∧
  (∀ (s : State), watchdogDue 0 s.blk = true → startable s.blk = true →
    ∃ t : State, exec (.watchdogExpiry 0) s = .next t ∧ t.pending = s.pending ∧ t.blk.fw.loaded = false ∧
      t.blk.fld MOR_RESET_CAUSE 3 0 = 7 ∧ t.blk.jobs = [] ∧ t.blk.reqs = []) ∧
  (∀ (s : State) (n : Nat), watchdogDue n s.blk = false → exec (.watchdogExpiry n) s = .next s) ∧
  (∀ (s : State) (n : Nat), coreRuns n s.blk = true →
    ∃ t : State, exec (.rimeKick n) s = .next t ∧ t.pending = s.pending ∧ watchdogDue n t.blk = false ∧
      t.blk.core n = { s.blk.core n with kickAt := s.blk.now } ∧ (∀ m, m ≠ n → t.blk.core m = s.blk.core m) ∧
      { t.blk with fw := s.blk.fw } = s.blk) ∧
  (∀ (s : State) (n : Nat), coreRuns n s.blk = false → exec (.rimeKick n) s = .next s) ∧
  (∀ (s : State) (cause : Nat), coreRuns 0 s.blk = true → startable s.blk = true → 1 ≤ cause → cause ≤ 5 →
    ∃ t : State, exec (.rootCoreFault cause) s = .next t ∧ t.pending = s.pending ∧ t.blk.fw.loaded = false ∧
      t.blk.fld MOR_RESET_CAUSE 3 0 = 7 ∧ t.blk.bit MOR_START 4 = true ∧ t.blk.jobs = [] ∧ t.blk.reqs = [] ∧
      (s.blk.atRest → t.blk.fld RIME_ROOT_CAUSE 2 0 = cause)) ∧
  ∀ (s : State) (cause : Nat), (coreRuns 0 s.blk = false ∨ cause = 0 ∨ 5 < cause) → exec (.rootCoreFault cause) s = .next s

/-- FW_LOAD, FW_UPDATE, FW_RESTART, FW_STATUS (R404, R405, R407, R408, R411): a set that the host put in its memory and whose
checks pass is in force with every core RUNNING and the start READY; a set that fails leaves the firmware as it was and is
refused with the failing check; a core that is updated or restarted answers when it is back.
Model choices: log entries 111, 112, 113, 150, 151. -/
def Obligations.FirmwareMessages : Prop :=
  (∀ (s₀ s : State) (bs : List Byte) (img : ImageSet) (len : Nat) (v : Option (Nat × Nat) × Block),
    s = { s₀ with blk := s₀.blk.hostImage .s0 0x0901 1 bs } → s.blk.delivers .s0 0x0901 → s.blk.backFree .s0 →
    (s.blk.phase = 7 ∨ s.blk.phase = 9) → s.blk.fw.loaded = false → s.blk.scrapped = false → s.blk.bit MOR_START 4 = false →
    len = (mreg (s.blk.msgWords .s0) 3).toNat →
    (s.blk.msgTaken .s0).hostReadStatus 0 (mpair (s.blk.msgWords .s0) 1) (min len 16777216) = none →
    img = (s.blk.msgTaken .s0).imageSetAt (mpair (s.blk.msgWords .s0) 1) len →
    v = (s.blk.msgTaken .s0).verifySet img len (fun _ => true) →
    ∃ t : State, exec (.fwLoad .s0 bs) s₀ = .next t ∧ t.pending = s.pending ∧
      (∀ e, v.1 = some e → t.blk.repliedTo s.blk .s0 (REFUSED e.1) ∧
        t.blk.rg (chBack .s0 + 8) = w32 e.2 ∧ { t.blk.mailBack s.blk with freeCtr := s.blk.freeCtr } = s.blk) ∧
      (v.1 = none → t.blk.repliedTo s.blk .s0 OK ∧ t.blk.fw.loaded = true ∧ t.blk.phase = 9 ∧ (∀ n, n < 7 → t.blk.coreState n = 2) ∧
        t.blk.pair RIME_SET_ID_LO = img.setId.toNat ∧
        (∀ c, c ∈ img.components → c.id < 7 → (t.blk.core c.id).image = some c ∧ t.blk.rg (RIME_VERSION c.id) = c.version) ∧
        (∀ c, c ∈ img.components → c.id = 7 → t.blk.fw.library = some c)) ∧
      t.blk.objs = s.blk.objs ∧ t.blk.jobs = s.blk.jobs ∧ t.blk.parts = s.blk.parts) ∧
  (∀ (s₀ s : State) (bs : List Byte), s = { s₀ with blk := s₀.blk.hostImage .s0 0x0901 1 bs } → s.blk.delivers .s0 0x0901 →
    s.blk.backFree .s0 → (s.blk.phase = 7 ∨ s.blk.phase = 9) →
    s.blk.fw.loaded = true →
    ∃ t : State, exec (.fwLoad .s0 bs) s₀ = .next t ∧ t.pending = s.pending ∧ t.blk.repliedTo s.blk .s0 (REFUSED 0x12) ∧
      t.blk.mailBack s.blk = s.blk) ∧
  (∀ (s : State) (bs : List Byte), s.blk.phase ≠ 7 → s.blk.phase ≠ 9 → exec (.fwLoad .s0 bs) s = .next s) ∧
  (∀ (s₀ s : State) (ch : Chan) (bs : List Byte), s = { s₀ with blk := s₀.blk.hostImage ch 0x0901 1 bs } →
    s.blk.delivers ch 0x0901 → s.blk.backFree ch → ch ≠ .s0 →
    ∃ t : State, exec (.fwLoad ch bs) s₀ = .next t ∧ t.pending = s.pending ∧ t.blk.repliedTo s.blk ch (DENIED 0x10) ∧
      t.blk.mailBack s.blk = s.blk) ∧
  (∀ (s₀ s : State) (bs : List Byte) (img : ImageSet) (id len : Nat) (v : Option (Nat × Nat) × Block),
    s = { s₀ with blk := s₀.blk.hostImage .s0 0x0902 2 bs } → s.blk.delivers .s0 0x0902 → s.blk.backFree .s0 →
    s.blk.fw.loaded = true → id = (mreg (s.blk.msgWords .s0) 1).toNat → len = (mreg (s.blk.msgWords .s0) 4).toNat →
    (s.blk.msgTaken .s0).updateStatus id = none →
    (s.blk.msgTaken .s0).hostReadStatus 0 (mpair (s.blk.msgWords .s0) 2) (min len 16777216) = none →
    img = (s.blk.msgTaken .s0).imageSetAt (mpair (s.blk.msgWords .s0) 2) len →
    v = (s.blk.msgTaken .s0).verifySet img len (fun c => c.id == id) →
    ∃ t : State, exec (.fwUpdate .s0 bs) s₀ = .next t ∧ t.pending = s.pending ∧
      (∀ e, v.1 = some e → t.blk.repliedTo s.blk .s0 (REFUSED e.1) ∧ t.blk.rg (chBack .s0 + 8) = w32 e.2 ∧ t.blk.fw = s.blk.fw ∧
        t.blk.trust = s.blk.trust) ∧
      (∀ c, v.1 = none → (img.components.find? fun c => c.id == id) = some c → c.schema ≠ s.blk.schemaOf id →
        t.blk.repliedTo s.blk .s0 (REFUSED 0x15) ∧ t.blk.fw = s.blk.fw ∧ t.blk.trust = s.blk.trust) ∧
      (∀ c, v.1 = none → (img.components.find? fun c => c.id == id) = some c → c.schema = s.blk.schemaOf id → id ≤ 6 →
        t.blk.coreState id = 4 ∧ (t.blk.core id).image = some c ∧ t.blk.rg (RIME_VERSION id) = c.version ∧
        (t.blk.core id).reply = some (.s0, mreg (s.blk.msgWords .s0) 0, true) ∧ (t.blk.core id).faults = [] ∧
        (t.blk.box (chBase .s0)).owed = true) ∧
      (∀ c, v.1 = none → (img.components.find? fun c => c.id == id) = some c → c.schema = s.blk.schemaOf id → id = 7 →
        t.blk.repliedTo s.blk .s0 OK ∧ t.blk.rg (chBack .s0 + 8) = c.version ∧ t.blk.fw.library = some c) ∧
      t.blk.objs = s.blk.objs ∧ t.blk.jobs = s.blk.jobs ∧ t.blk.parts = s.blk.parts ∧ t.blk.bundles = s.blk.bundles) ∧
  (∀ (s₀ s : State) (bs : List Byte) (st : Nat), s = { s₀ with blk := s₀.blk.hostImage .s0 0x0902 2 bs } →
    s.blk.delivers .s0 0x0902 → s.blk.backFree .s0 → s.blk.fw.loaded = true →
    (s.blk.msgTaken .s0).updateStatus (mreg (s.blk.msgWords .s0) 1).toNat = some st →
    ∃ t : State, exec (.fwUpdate .s0 bs) s₀ = .next t ∧ t.pending = s.pending ∧ t.blk.repliedTo s.blk .s0 st ∧
      t.blk.mailBack s.blk = s.blk) ∧
  (∀ (s : State) (ch : Chan) (id : Nat), s.blk.delivers ch 0x0903 → chSecure ch = true → s.blk.fw.loaded = true →
    id = (mreg (s.blk.msgWords ch) 1).toNat → 1 ≤ id → id ≤ 6 → s.blk.restarting id = false →
    ∃ t : State, exec (.fwRestart ch) s = .next t ∧ t.pending = s.pending ∧ t.blk.coreState id = 4 ∧
      t.blk.core id = { s.blk.core id with faults := [], faultAt := s.blk.now, reply := some (ch, mreg (s.blk.msgWords ch) 0, false) } ∧
      (t.blk.box (chBase ch)).owed = true ∧ { t.blk.mailBack s.blk with fw := s.blk.fw, esk := s.blk.esk } = s.blk) ∧
  (∀ (s : State) (ch : Chan) (id : Nat), s.blk.delivers ch 0x0903 → s.blk.backFree ch → chSecure ch = true → s.blk.fw.loaded = true →
    id = (mreg (s.blk.msgWords ch) 1).toNat → (id = 0 ∨ 6 < id ∨ s.blk.restarting id = true) →
    ∃ t : State, exec (.fwRestart ch) s = .next t ∧ t.pending = s.pending ∧
      t.blk.repliedTo s.blk ch (if id = 0 ∨ 6 < id then REFUSED 0x16 else BUSY 0x17) ∧ t.blk.mailBack s.blk = s.blk) ∧
  ∀ (s : State) (ch : Chan), s.blk.delivers ch 0x0904 → s.blk.backFree ch → chSecure ch = true → s.blk.fw.loaded = true →
    ∃ t : State, exec (.fwStatus ch) s = .next t ∧ t.pending = s.pending ∧ t.blk.repliedTo s.blk ch OK ∧
      t.blk.rg (chBack ch + 8) = s.blk.rg RIME_SET_ID_LO ∧ t.blk.rg (chBack ch + 12) = s.blk.rg (RIME_SET_ID_LO + 4) ∧
      (∀ n, n < 7 → t.blk.rg (chBack ch + 16 + 4 * n) = s.blk.rg (RIME_VERSION n)) ∧
      t.blk.rg (chBack ch + 44) = (s.blk.fw.library.map (·.version)).getD 0 ∧ t.blk.mailBack s.blk = s.blk

/-! ### Start and functions (R415 to R433) -/

/-- VIN_PRESENT, MOR_RESET_COLD, SIDEBAND_COLD_RESET (R418, R420, R421): a cold start of its cause loses partitions, objects, work and
firmware, keeps fuses and the ice core's slots, and sets every epoch to 1; an input that comes while a fault is latched starts the
module only where the always-on rail has fallen, and the latch with it; a write of MOR_RESET that makes no start is counted.
Model choices: log entry 116. -/
def Obligations.ColdStarts : Prop :=
  (∀ (s : State) (mv : Nat), s.blk.start.input = false → 36000 ≤ mv → mv ≤ 60000 → s.blk.latched = false →
    ∃ t : State, exec (.vinPresent mv) s = .next t ∧ t.pending = s.pending ∧ t.blk.start.input = true ∧ t.blk.start.powered = true ∧
      t.blk.pwr.pwrGood = true ∧ t.blk.fld MOR_RESET_CAUSE 3 0 = 0 ∧ t.blk.bit MOR_START 4 = false ∧
      t.blk.phase = (if s.blk.ice.hold then 1 else if s.blk.records.settle = 0 then 10 else 4) ∧
      t.blk.ice.pcycles = s.blk.ice.pcycles + 1 ∧ t.blk.fw.loaded = false ∧ t.blk.parts = [] ∧ t.blk.objs = [] ∧ t.blk.jobs = [] ∧
      t.blk.reqs = [] ∧ t.blk.bundles = [] ∧ t.blk.mbx = [] ∧ t.blk.fns = [] ∧ (∀ u, u < 4096 → t.blk.fld (FIRN_EPOCH u) 15 0 = 1) ∧
      t.blk.trust.fuses = s.blk.trust.fuses ∧ t.blk.ice.perm = s.blk.ice.perm ∧ t.blk.ice.ring = s.blk.ice.ring ∧
      t.blk.env = s.blk.env) ∧
  (∀ (s : State) (mv : Nat), s.blk.start.input = false → 36000 ≤ mv → mv ≤ 60000 → s.blk.latched = true →
    s.blk.pwr.pwrGood = false →
    ∃ t : State, exec (.vinPresent mv) s = .next t ∧ t.pending = s.pending ∧ t.blk.start.input = true ∧ t.blk.start.powered = true ∧
      (t.blk.phase = 11 ∧ t.blk.pwr.pwrGood = false ∧ t.blk.latched = true ∨
        t.blk.phase ≠ 11 ∧ t.blk.pwr.pwrGood = true ∧ t.blk.latched = false)) ∧
  (∀ (s : State) (mv : Nat), (s.blk.start.input = true ∨ mv < 36000 ∨ 60000 < mv) → exec (.vinPresent mv) s = .next s) ∧
  (∀ (s : State) (i : Instr) (c : Nat), Instr.coldCause i = some c → startable s.blk = true →
    ∃ t : State, exec i s = .next t ∧ t.pending = s.pending ∧ t.blk.fld MOR_RESET_CAUSE 3 0 = c ∧ t.blk.bit MOR_START 4 = false ∧
      t.blk.pwr.pwrGood = true ∧ t.blk.phase = (if s.blk.ice.hold then 1 else if s.blk.records.settle = 0 then 10 else 4) ∧
      t.blk.start.linkUp = false ∧ t.blk.fw.loaded = false ∧ t.blk.parts = [] ∧ t.blk.objs = [] ∧ t.blk.jobs = [] ∧ t.blk.reqs = [] ∧
      t.blk.bundles = [] ∧ t.blk.snow = [] ∧ t.blk.mbx = [] ∧ t.blk.fns = [] ∧ t.blk.breach = false ∧
      (∀ u, u < 4096 → t.blk.fld (FIRN_EPOCH u) 15 0 = 1) ∧ t.blk.lcState = s.blk.trust.fuses.state ∧
      t.blk.trust.fuses = s.blk.trust.fuses ∧ t.blk.ice.perm = s.blk.ice.perm ∧ t.blk.ice.ring = s.blk.ice.ring ∧
      t.blk.ice.pcycles = s.blk.ice.pcycles ∧ t.blk.env = s.blk.env) ∧
  (∀ (s : State) (v : Word), startable s.blk = true → (resetKey v = false ∨ (v.fld 1 0 ≠ 1 ∧ v.fld 1 0 ≠ 2)) →
    ∃ t : State, exec (.morResetCold 0 v) s = .next t ∧ t.pending = s.pending ∧ exec (.morResetWarm 0 v) s = .next t ∧
      t.blk = s.blk.bump MOR_CNT_BADRESET) ∧
  (∀ (s : State) (i : Nat) (v : Word), (i ≠ 0 ∨ startable s.blk = false) → exec (.morResetCold i v) s = .next s) ∧
  (∀ (s : State) (i : Nat) (v : Word), (i ≠ 0 ∨ startable s.blk = false) → exec (.morResetWarm i v) s = .next s) ∧
  ∀ (s : State), startable s.blk = false → exec .sidebandColdReset s = .next s

/-- MOR_RESET_WARM, SIDEBAND_WARM_RESET, PERST_ASSERT, HOT_RESET, PERST_DEASSERT (R418, R420, R423, R429): a warm start of its cause ends
every job and request, clears the channels, loses the firmware and the keys, keeps the fuses and the ice core's slots, takes
the host link down unless its cause is internal, and raises the epochs of units by 1.
Model choices: log entries 117, 118, 119, 120. -/
def Obligations.WarmStarts : Prop :=
  (∀ (s : State) (i : Instr) (c : Nat), Instr.warmCause i = some c → s.blk.canStart i →
    ∃ t : State, exec i s = .next t ∧ t.pending = s.pending ∧ t.blk.fld MOR_RESET_CAUSE 3 0 = c ∧ t.blk.bit MOR_START 4 = true ∧
      t.blk.fw.loaded = false ∧ t.blk.jobs = [] ∧ t.blk.reqs = [] ∧ t.blk.mbx = [] ∧ t.blk.trust.keys = [] ∧
      t.blk.start.linkUp = (decide (5 ≤ c) && s.blk.start.linkUp) ∧ (c = 3 → t.blk.start.perst = true) ∧
      t.blk.trust.fuses = s.blk.trust.fuses ∧ t.blk.ice.perm = s.blk.ice.perm ∧ t.blk.ice.ring = s.blk.ice.ring) ∧
  (∀ (s : State) (i : Instr) (c : Nat), Instr.warmCause i = some c → s.blk.canStart i → s.blk.atRest →
    s.blk.intact → Tbl.wf regReset s.blk.regs = true →
    ∃ t : State, exec i s = .next t ∧ t.pending = s.pending ∧
      (∀ u, u < 4096 → t.blk.fld (FIRN_EPOCH u) 15 0 = nextEpoch (s.blk.fld (FIRN_EPOCH u) 15 0)) ∧ t.blk.breach = s.blk.breach ∧
      t.blk.bit MOR_WARM_CFG 0 = s.blk.bit MOR_WARM_CFG 0 ∧ t.blk.parts = s.blk.parts ∧
      (∀ e j, (t.blk.obj e j).map (fun o => { o with lag := [] }) = (s.blk.obj e j).map (fun o => { o with lag := [] })) ∧
      t.blk.bundles = s.blk.bundles) ∧
  (∀ (s : State), startable s.blk = false → exec .sidebandWarmReset s = .next s) ∧
  (∀ (s : State), (startable s.blk = false ∨ s.blk.start.perst = true ∨ s.blk.start.linkUp = false) → exec .hotReset s = .next s) ∧
  (∀ (s : State), (startable s.blk = false ∨ s.blk.start.perst = true) →
    exec .perstAssert s = .next { s with blk := { s.blk with start := { s.blk.start with perst := true } } }) ∧
  ∀ (s : State), exec .perstDeassert s = .next { s with blk := { s.blk with start := { s.blk.start with perst := false } } }

/-- SETTLE_EXPIRY, STACK_TRAINING_DONE, HOST_LINK_TRAINED (R421 steps 5 to 10, R422): the PLLs start and every port trains; the stacks that
train are TRAINED with their units enabled; the start comes to AWAIT_FW once stacks and link are trained.
Model choices: log entries 116, 125. -/
def Obligations.StartSteps : Prop :=
  (∀ (s : State), startable s.blk = true → s.blk.phase = 4 → s.blk.start.perst = false →
    ∃ t : State, exec .settleExpiry s = .next t ∧ t.pending = s.pending ∧ t.blk.start.pllOn = true ∧
      t.blk.phase = (if s.blk.start.stacksDone ∧ (s.blk.start.linkUp ∨ s.blk.internal) then 7 else 6) ∧
      (∀ p, p < 16 → t.blk.portState p = 1) ∧ t.blk.rg CLK_SPREAD_ACT = s.blk.rg CLK_SPREAD ∧
      { t.blk with regs := s.blk.regs, start := s.blk.start, esk := s.blk.esk } = s.blk) ∧
  (∀ (s : State), (startable s.blk = false ∨ s.blk.phase ≠ 4 ∨ s.blk.start.perst = true) → exec .settleExpiry s = .next s) ∧
  (∀ (s : State) (bad failed : List Nat), s.blk.phase = 6 → s.blk.start.stacksDone = false →
    ∃ t : State, exec (.stackTrainingDone bad failed) s = .next t ∧ t.pending = s.pending ∧ t.blk.start.stacksDone = true ∧
      t.blk.phase = (if s.blk.start.linkUp ∨ s.blk.internal then 7 else 6) ∧
      (∀ n, n < 24 → n ∉ bad → t.blk.bit (STK_STATE n) 16 = true) ∧
      (∀ n, n < 24 → n ∈ bad → t.blk.bit (STK_STATE n) 16 = s.blk.bit (STK_STATE n) 16) ∧
      (∀ u, u < 4096 → unitStack u ∉ bad → u ∉ failed → t.blk.bit (FIRN_ID u) 12 = true) ∧
      (∀ u, u < 4096 → (unitStack u ∈ bad ∨ u ∈ failed) → t.blk.bit (FIRN_ID u) 12 = s.blk.bit (FIRN_ID u) 12) ∧
      { t.blk with regs := s.blk.regs, start := s.blk.start, led := s.blk.led, ice := s.blk.ice } = s.blk) ∧
  (∀ (s : State) (bad failed : List Nat), (s.blk.phase ≠ 6 ∨ s.blk.start.stacksDone = true) →
    exec (.stackTrainingDone bad failed) s = .next s) ∧
  (∀ (s : State) (rate width : Nat) (flit : Bool), s.blk.start.pllOn = true → s.blk.start.linkUp = false → s.blk.start.perst = false →
    ∃ t : State, exec (.hostLinkTrained rate width flit) s = .next t ∧ t.pending = s.pending ∧ t.blk.start.linkUp = true ∧
      t.blk.rg MOR_HOST_LINK = w32 (rate % 8 + width % 32 * 8 + b2n flit * 256) ∧
      t.blk.phase = (if s.blk.phase = 6 ∧ s.blk.start.stacksDone = true then 7 else s.blk.phase) ∧ t.blk.objs = s.blk.objs ∧
      t.blk.jobs = s.blk.jobs ∧ t.blk.parts = s.blk.parts ∧ t.blk.mbx = s.blk.mbx ∧
      (s.blk.fns = [] → { t.blk with regs := s.blk.regs, start := s.blk.start } = s.blk)) ∧
  ∀ (s : State) (rate width : Nat) (flit : Bool),
    (s.blk.start.pllOn = false ∨ s.blk.start.linkUp = true ∨ s.blk.start.perst = true) →
    exec (.hostLinkTrained rate width flit) s = .next s

/-- FN_CTRL_QUERY, FN_CTRL_START, FN_CTRL_STOP, TILE_REMAP_DONE, CHANNEL_GROUP_RUNNING, CHANNEL_GROUP_STOPPED (R170, R425, R426, R428,
R429): a query answers the state and the epoch; a STOPPED group or Firn set starts, a STOPPING one is busy and counted, one
without room to move its frames out stays RUNNING; a group that comes up is RUNNING on a raised epoch.
Model choices: log entry 121. -/
def Obligations.FunctionControl : Prop :=
  (∀ (s : State) (ch : Chan) (k i : Nat) (x : Nat × Nat), s.blk.delivers ch 0x0101 → s.blk.backFree ch → (chFn ch = 0 ∨ chFn ch = 64) →
    (mreg (s.blk.msgWords ch) 1).fld 17 16 = 0 → k = (mreg (s.blk.msgWords ch) 1).fld 1 0 → i = (mreg (s.blk.msgWords ch) 1).fld 15 8 →
    s.blk.fnState k i = some x → ((mreg (s.blk.msgWords ch) 2).fld 15 0 = 0 ∨ (mreg (s.blk.msgWords ch) 2).fld 15 0 = x.2) →
    ∃ t : State, exec (.fnCtrlQuery ch) s = .next t ∧ t.pending = s.pending ∧ t.blk.repliedTo s.blk ch OK ∧
      t.blk.rg (chBack ch + 8) = w32 x.1 ∧ t.blk.rg (chBack ch + 12) = w32 x.2 ∧ t.blk.mailBack s.blk = s.blk) ∧
  (∀ (s : State) (ch : Chan) (c : Instr) (op : Nat), s.blk.delivers ch 0x0101 → s.blk.backFree ch → (chFn ch = 0 ∨ chFn ch = 64) →
    op = (mreg (s.blk.msgWords ch) 1).fld 17 16 →
    (op = 0 ∧ c = .fnCtrlQuery ch ∨ op = 1 ∧ c = .fnCtrlStart ch ∨ op = 2 ∧ c = .fnCtrlStop ch) →
    s.blk.fnState ((mreg (s.blk.msgWords ch) 1).fld 1 0) ((mreg (s.blk.msgWords ch) 1).fld 15 8) = none →
    ∃ t : State, exec c s = .next t ∧ t.pending = s.pending ∧ t.blk.repliedTo s.blk ch (REFUSED 0xF3) ∧ t.blk.mailBack s.blk = s.blk) ∧
  (∀ (s : State) (ch : Chan) (c : Instr) (op : Nat), s.blk.delivers ch 0x0101 → s.blk.backFree ch → chFn ch ≠ 0 → chFn ch ≠ 64 →
    op = (mreg (s.blk.msgWords ch) 1).fld 17 16 →
    (op = 0 ∧ c = .fnCtrlQuery ch ∨ op = 1 ∧ c = .fnCtrlStart ch ∨ op = 2 ∧ c = .fnCtrlStop ch) →
    ∃ t : State, exec c s = .next t ∧ t.pending = s.pending ∧ t.blk.repliedTo s.blk ch (DENIED 0xF7) ∧ t.blk.mailBack s.blk = s.blk) ∧
  (∀ (s : State) (ch : Chan) (i n g : Nat), s.blk.delivers ch 0x0101 → s.blk.backFree ch → (chFn ch = 0 ∨ chFn ch = 64) →
    (mreg (s.blk.msgWords ch) 1).fld 17 16 = 1 → (mreg (s.blk.msgWords ch) 1).fld 1 0 = 3 → i = (mreg (s.blk.msgWords ch) 1).fld 15 8 →
    i < 192 → n = i / 8 → g = i % 8 → (mreg (s.blk.msgWords ch) 2).fld 15 0 = 0 → s.blk.cgPart n g ≠ 0x3F → s.blk.cgState n g = 0 →
    s.blk.stackTrained n = true → s.blk.groupDown n g = false →
    ∃ t : State, exec (.fnCtrlStart ch) s = .next t ∧ t.pending = s.pending ∧ t.blk.repliedTo s.blk ch OK ∧ t.blk.cgState n g = 1 ∧
      (∀ h, h < 8 → h ≠ g → t.blk.cgState n h = s.blk.cgState n h) ∧ t.blk.mailBack s.blk = s.blk) ∧
  (∀ (s : State) (ch : Chan) (i n g : Nat), s.blk.delivers ch 0x0101 → s.blk.backFree ch → (chFn ch = 0 ∨ chFn ch = 64) →
    (mreg (s.blk.msgWords ch) 1).fld 17 16 = 1 → (mreg (s.blk.msgWords ch) 1).fld 1 0 = 3 → i = (mreg (s.blk.msgWords ch) 1).fld 15 8 →
    i < 192 → n = i / 8 → g = i % 8 → (mreg (s.blk.msgWords ch) 2).fld 15 0 = 0 → s.blk.cgPart n g ≠ 0x3F → s.blk.cgState n g = 3 →
    ∃ t : State, exec (.fnCtrlStart ch) s = .next t ∧ t.pending = s.pending ∧ t.blk.repliedTo s.blk ch (BUSY 0xF2) ∧
      t.blk.rg MOR_CNT_FN_BUSY = (s.blk.bump MOR_CNT_FN_BUSY).rg MOR_CNT_FN_BUSY ∧ t.blk.cgState n g = 3 ∧ t.blk.mailBack s.blk = s.blk) ∧
  (∀ (s : State) (ch : Chan) (i : Nat), s.blk.delivers ch 0x0101 → s.blk.backFree ch → (chFn ch = 0 ∨ chFn ch = 64) →
    (mreg (s.blk.msgWords ch) 1).fld 17 16 = 1 → (mreg (s.blk.msgWords ch) 1).fld 1 0 = 2 → i = (mreg (s.blk.msgWords ch) 1).fld 15 8 →
    i < 128 → s.blk.setState i = 0 → s.blk.stackTrained (setStack i) = true →
    ∃ t : State, exec (.fnCtrlStart ch) s = .next t ∧ t.pending = s.pending ∧ t.blk.repliedTo s.blk ch OK ∧ t.blk.setState i = 1 ∧
      (∀ j, j < 128 → j ≠ i → t.blk.setState j = s.blk.setState j) ∧ t.blk.mailBack s.blk = s.blk) ∧
  (∀ (s : State) (ch : Chan) (i n g : Nat) (b : Block), s.blk.delivers ch 0x0101 → s.blk.backFree ch → (chFn ch = 0 ∨ chFn ch = 64) →
    (mreg (s.blk.msgWords ch) 1).fld 17 16 = 2 → (mreg (s.blk.msgWords ch) 1).fld 1 0 = 3 → i = (mreg (s.blk.msgWords ch) 1).fld 15 8 →
    i < 192 → n = i / 8 → g = i % 8 → (mreg (s.blk.msgWords ch) 2).fld 15 0 = 0 → s.blk.cgState n g = 2 →
    (s.blk.msgTaken ch).leaveGroup n g = some b → b.backFree ch →
    ∃ t : State, exec (.fnCtrlStop ch) s = .next t ∧ t.pending = s.pending ∧ t.blk.repliedTo s.blk ch OK ∧ t.blk.objs = b.objs ∧
      t.blk.snow = b.snow ∧ t.blk.parts = b.parts ∧ t.blk.jobs = b.jobs) ∧
  (∀ (s : State) (ch : Chan) (i n g : Nat), s.blk.delivers ch 0x0101 → s.blk.backFree ch → (chFn ch = 0 ∨ chFn ch = 64) →
    (mreg (s.blk.msgWords ch) 1).fld 17 16 = 2 → (mreg (s.blk.msgWords ch) 1).fld 1 0 = 3 → i = (mreg (s.blk.msgWords ch) 1).fld 15 8 →
    i < 192 → n = i / 8 → g = i % 8 → (mreg (s.blk.msgWords ch) 2).fld 15 0 = 0 → s.blk.cgState n g = 2 →
    (s.blk.msgTaken ch).leaveGroup n g = none →
    ∃ t : State, exec (.fnCtrlStop ch) s = .next t ∧ t.pending = s.pending ∧ t.blk.repliedTo s.blk ch (NO_SPACE 0xF5) ∧ t.blk.cgState n g = 2 ∧
      t.blk.mailBack s.blk = s.blk) ∧
  (∀ (s : State) (k n g : Nat), k < 192 → n = k / 8 → g = k % 8 → s.blk.cgState n g = 1 → s.blk.stackTrained n = true →
    ∃ t : State, exec (.channelGroupRunning k) s = .next t ∧ t.pending = s.pending ∧ t.blk.cgState n g = 2 ∧
      t.blk.groupEpoch n g = nextEpoch (s.blk.groupEpoch n g) ∧
      (∀ h, h < 8 → h ≠ g → t.blk.cgState n h = s.blk.cgState n h ∧ t.blk.groupEpoch n h = s.blk.groupEpoch n h) ∧
      { t.blk with regs := s.blk.regs } = s.blk) ∧
  (∀ (s : State) (k : Nat), (192 ≤ k ∨ s.blk.cgState (k / 8) (k % 8) ≠ 1) → exec (.channelGroupRunning k) s = .next s) ∧
  (∀ (s : State) (k n g : Nat), k < 192 → n = k / 8 → g = k % 8 → s.blk.cgState n g = 3 →
    ∃ t : State, exec (.channelGroupStopped k) s = .next t ∧ t.pending = s.pending ∧ t.blk.cgState n g = 0 ∧
      (∀ h, h < 8 → h ≠ g → t.blk.cgState n h = s.blk.cgState n h) ∧ { t.blk with regs := s.blk.regs } = s.blk) ∧
  (∀ (s : State) (k : Nat), (192 ≤ k ∨ s.blk.cgState (k / 8) (k % 8) ≠ 3) → exec (.channelGroupStopped k) s = .next s) ∧
  (∀ (s : State) (n d phys k : Nat), tileRemapReady n s.blk = true → d = n / 64 → phys = s.blk.fld (FLOE_ID n) 14 8 →
    (s.blk.retirePhys d phys).freeSpare d = some k →
    ∃ t : State, exec (.tileRemapDone n) s = .next t ∧ t.pending = s.pending ∧ t.blk.tileState n = 2 ∧
      t.blk.fld (FLOE_ID n) 14 8 = 64 + k ∧ t.blk.fld (SRC_SPARE d k) 7 0 = n ∧ t.blk.bit (SRC_SPARE d k) 8 = true ∧
      t.blk.fld (FLOE_EPOCH n) 15 0 = nextEpoch (s.blk.fld (FLOE_EPOCH n) 15 0) ∧ t.blk.tile n = Tile.reset ∧
      (∀ u, u < 256 → u ≠ n → t.blk.tile u = s.blk.tile u ∧ t.blk.tileState u = s.blk.tileState u) ∧
      { t.blk with regs := s.blk.regs, ice := s.blk.ice, err := s.blk.err, tiles := s.blk.tiles } = s.blk) ∧
  (∀ (s : State) (n d phys : Nat), tileRemapReady n s.blk = true → d = n / 64 → phys = s.blk.fld (FLOE_ID n) 14 8 →
    (s.blk.retirePhys d phys).freeSpare d = none → s.blk.jobs.all (fun e => e.2.state != .saved) = true →
    ∃ t : State, exec (.tileRemapDone n) s = .next t ∧ t.pending = s.pending ∧ t.blk.tileState n = 0 ∧
      t.blk.bit (SRC_CLUSTER_OOS (n / 64)) (n / 8 % 8) = true ∧ t.blk.objs = s.blk.objs ∧ t.blk.jobs = s.blk.jobs) ∧
  ∀ (s : State) (n : Nat), tileRemapReady n s.blk = false → exec (.tileRemapDone n) s = .next s

/-! ### Clocks, power and heat (R441 to R446, R449, R450, R457 to R460) -/

/-- REFCLK_LOSS, REFCLK_RESTORE, ALT_READY_LOSS, CLK_SEL_WRITE (R441 to R446): the domains on REFCLK move to the alternate reference
when AUTO is set and it is ready, and coast otherwise; the host link falls with its clock; what coasted runs again when
REFCLK is back; domains on an alternate reference that ends return to REFCLK, or coast.
CLK_SEL_WRITE (R444, R445), by the PF or the sideband: domains go to the sources selected, where each source selected is
ready; otherwise no domain is moved, SEL_REFUSED is set and the refusal is counted.
Model choices: log entries 128, 129, 130. -/
def Obligations.ReferenceClock : Prop :=
  (∀ (s : State) (cause moved stay : Nat), s.blk.monitorOn = true → s.blk.bit CLK_STATUS 1 = false →
    moved = (if s.blk.bit CLK_ALT_CFG 5 && s.blk.altReady then 7 - s.blk.onAlt else 0) → stay = 7 - s.blk.onAlt - moved + 8 →
    (stay.testBit 2 = false ∨ (List.range 16).all (fun p => !s.blk.portUp p) = true) →
    ∃ t : State, exec (.refclkLoss cause) s = .next t ∧ t.pending = s.pending ∧ t.blk.refOk = false ∧ t.blk.bit CLK_STATUS 1 = true ∧
      t.blk.bit CLK_STATUS 2 = true ∧ t.blk.bit CLK_STATUS 7 = true ∧ t.blk.onAlt = s.blk.onAlt + moved ∧
      t.blk.clk = ((s.blk.clk.set moved false).set stay true) ∧
      t.blk.rg CLK_CNT_LOST = (s.blk.bump CLK_CNT_LOST).rg CLK_CNT_LOST ∧ t.blk.rg MOR_HOST_LINK = 0 ∧
      { t.blk with regs := s.blk.regs, clk := s.blk.clk, ice := s.blk.ice } =
        { s.blk with start := { s.blk.start with linkUp := false } }) ∧
  (∀ (s : State) (cause : Nat), s.blk.monitorOn = true → s.blk.bit CLK_STATUS 1 = false →
    ∃ t : State, exec (.refclkLoss cause) s = .next t ∧ t.pending = s.pending ∧ t.blk.start.linkUp = false ∧ t.blk.clk.coastPcie = true ∧
      t.blk.parts = s.blk.parts ∧ t.blk.bundles = s.blk.bundles) ∧
  (∀ (s : State) (cause : Nat), s.blk.monitorOn = true → s.blk.bit CLK_STATUS 1 = true → exec (.refclkLoss cause) s = .next s) ∧
  (∀ (s : State) (cause : Nat), s.blk.monitorOn = false →
    exec (.refclkLoss cause) s = .next (if s.blk.bit MOR_START 4 then
      { s with blk := { s.blk with start := { s.blk.start with refStopped := true } } } else s)) ∧
  (∀ (s : State) (us : Nat), s.blk.monitorOn = true → s.blk.refOk = false →
    ∃ t : State, exec (.refclkRestore us) s = .next t ∧ t.pending = s.pending ∧ t.blk.refOk = true ∧ t.blk.bit CLK_STATUS 1 = false ∧
      t.blk.bit CLK_STATUS 7 = false ∧ t.blk.clk.coasting = 0 ∧ t.blk.onAlt = s.blk.onAlt ∧
      (s.blk.onAlt.testBit 0 = false → t.blk.bit CLK_STATUS 6 = s.blk.bit CLK_SPREAD_ACT 20) ∧
      { t.blk with regs := s.blk.regs, clk := s.blk.clk, ice := s.blk.ice } = s.blk) ∧
  (∀ (s : State) (us : Nat), (s.blk.monitorOn = false ∨ s.blk.refOk = true) → exec (.refclkRestore us) s = .next s) ∧
  (∀ (s : State), s.blk.bit CLK_STATUS 3 = true → s.blk.onAlt = 0 →
    ∃ t : State, exec .altReadyLoss s = .next t ∧ t.pending = s.pending ∧ t.blk.bit CLK_STATUS 3 = false ∧
      t.blk.bit CLK_STATUS 4 = s.blk.bit CLK_STATUS 4 ∧ { t.blk with regs := s.blk.regs } = s.blk) ∧
  (∀ (s : State), s.blk.bit CLK_STATUS 3 = true → s.blk.onAlt ≠ 0 → s.blk.refOk = true →
    ∃ t : State, exec .altReadyLoss s = .next t ∧ t.pending = s.pending ∧ t.blk.bit CLK_STATUS 3 = false ∧ t.blk.bit CLK_STATUS 4 = true ∧
      t.blk.onAlt = 0 ∧ t.blk.clk = s.blk.clk.set s.blk.onAlt false ∧
      t.blk.rg CLK_CNT_SWITCH = (s.blk.bump CLK_CNT_SWITCH).rg CLK_CNT_SWITCH ∧
      { t.blk with regs := s.blk.regs, clk := s.blk.clk, ice := s.blk.ice } = s.blk) ∧
  (∀ (s : State), s.blk.bit CLK_STATUS 3 = true → s.blk.onAlt ≠ 0 → s.blk.refOk = false →
    (s.blk.onAlt.testBit 2 = false ∨ (List.range 16).all (fun p => !s.blk.portUp p) = true) →
    ∃ t : State, exec .altReadyLoss s = .next t ∧ t.pending = s.pending ∧ t.blk.bit CLK_STATUS 3 = false ∧ t.blk.bit CLK_STATUS 4 = true ∧
      t.blk.onAlt = 0 ∧ t.blk.clk = s.blk.clk.set s.blk.onAlt true ∧ t.blk.bit CLK_STATUS 7 = true ∧
      { t.blk with regs := s.blk.regs, clk := s.blk.clk, ice := s.blk.ice } = s.blk) ∧
  (∀ (s : State), s.blk.bit CLK_STATUS 3 = false → exec .altReadyLoss s = .next s) ∧
  (∀ (s : State) (i n : Nat) (v : Word), (i = 0 ∨ i = 64) → n = v.fld 2 0 → (n = 0 ∨ s.blk.altReady = true) →
    (n = 7 ∨ s.blk.refOk = true) →
    ∃ t : State, exec (.clkSelWrite i v) s = .next t ∧ t.pending = s.pending ∧ t.blk.onAlt = n ∧ t.blk.refOk = s.blk.refOk ∧
      t.blk.clk = s.blk.clk.set (n ^^^ s.blk.onAlt) false ∧ t.blk.rg CLK_CNT_REFUSED = s.blk.rg CLK_CNT_REFUSED ∧
      (n = s.blk.onAlt → t.blk = s.blk) ∧
      (n ≠ s.blk.onAlt → (n &&& s.blk.onAlt = n ∨ n &&& s.blk.onAlt = s.blk.onAlt) →
        t.blk.rg CLK_CNT_SWITCH = (s.blk.bump CLK_CNT_SWITCH).rg CLK_CNT_SWITCH) ∧
      { t.blk with regs := s.blk.regs, clk := s.blk.clk, ice := s.blk.ice } = s.blk) ∧
  (∀ (s : State) (i n : Nat) (v : Word), (i = 0 ∨ i = 64) → n = v.fld 2 0 →
    (n ≠ 0 ∧ s.blk.altReady = false ∨ n ≠ 7 ∧ s.blk.refOk = false) →
    exec (.clkSelWrite i v) s = .next { s with blk := (s.blk.wb CLK_STATUS 5 true).bump CLK_CNT_REFUSED }) ∧
  ∀ (s : State) (i : Nat) (v : Word), i ≠ 0 → i ≠ 64 → exec (.clkSelWrite i v) s = .next s

/-- VIN_LOW, VIN_HIGH, RAIL_OUT_OF_REGULATION (R449, R450, R524, R525): the fault is latched with its cause, the rails stop and what they
feed is lost; fuses and the ice core's slots stand. An input fault while a trip or a rail fault is latched takes the
always-on rail too, and its latches.
Model choices: log entry 124. -/
def Obligations.PowerFaults : Prop :=
  (∀ (s : State) (i : Instr) (mv : Nat), (i = .vinLow mv ∧ mv < 35000 ∨ i = .vinHigh mv ∧ 62000 < mv) → s.blk.start.input = true →
    s.blk.latched = false → s.blk.pwr.pwrGood = true →
    ∃ t : State, exec i s = .next t ∧ t.pending = s.pending ∧ t.blk.start.input = false ∧ t.blk.pwr.pwrGood = false ∧
      t.blk.bit PWR_STATUS 8 = true ∧ t.blk.start.powered = s.blk.start.powered ∧ t.blk.jobs = [] ∧ t.blk.parts = [] ∧ t.blk.objs = [] ∧
      t.blk.reqs = [] ∧ t.blk.bundles = [] ∧ t.blk.mbx = [] ∧ t.blk.fw.loaded = false ∧ t.blk.start.linkUp = false ∧
      t.blk.trust.fuses = s.blk.trust.fuses ∧ t.blk.ice.perm = s.blk.ice.perm ∧ t.blk.ice.ring = s.blk.ice.ring ∧
      t.blk.env = s.blk.env) ∧
  (∀ (s : State) (i : Instr) (mv : Nat), (i = .vinLow mv ∧ mv < 35000 ∨ i = .vinHigh mv ∧ 62000 < mv) → s.blk.start.input = true →
    s.blk.latched = true →
    ∃ t : State, exec i s = .next t ∧ t.pending = s.pending ∧ t.blk.start.input = false ∧ t.blk.start.powered = false ∧
      t.blk.ice.queue = [] ∧ t.blk.ice.health = [] ∧ t.blk.ice.ring = s.blk.ice.ring ∧ t.blk.ice.perm = s.blk.ice.perm ∧
      { t.blk with regs := s.blk.regs, start := s.blk.start, ice := s.blk.ice } = s.blk) ∧
  (∀ (s : State) (mv : Nat), (s.blk.start.input = false ∨ 35000 ≤ mv) → exec (.vinLow mv) s = .next s) ∧
  (∀ (s : State) (mv : Nat), (s.blk.start.input = false ∨ mv ≤ 62000) → exec (.vinHigh mv) s = .next s) ∧
  (∀ (s : State) (rail mv : Nat), s.blk.pwr.pwrGood = true → rail < 9 →
    ∃ t : State, exec (.railOutOfRegulation rail mv) s = .next t ∧ t.pending = s.pending ∧ t.blk.pwr.pwrGood = false ∧
      t.blk.bit PWR_STATUS 1 = true ∧ t.blk.fld PWR_STATUS 5 2 = rail ∧ t.blk.phase = 11 ∧ t.blk.moduleAlert = true ∧ t.blk.jobs = [] ∧
      t.blk.parts = [] ∧ t.blk.objs = [] ∧ t.blk.fw.loaded = false ∧ t.blk.trust.fuses = s.blk.trust.fuses ∧
      t.blk.ice.ring = s.blk.ice.ring ∧ t.blk.env = s.blk.env) ∧
  ∀ (s : State) (rail mv : Nat), (s.blk.pwr.pwrGood = false ∨ 9 ≤ rail) → exec (.railOutOfRegulation rail mv) s = .next s

/-- SENSOR_CONVERSION, THERMAL_TRIP (R456, R457, R458, R460): a conversion is the sensor's reading; the third failure of the ratio
check in a row invalidates the sensor; the second conversion in a row at the shutdown threshold trips, and a trip latches
its source and stops the rails. -/
def Obligations.SensorsAndTrips : Prop :=
  (∀ (s : State) (n : Nat) (temp : Int) (ok : Bool), n < 560 → s.blk.pwr.pwrGood = true → temp < tripAt n →
    ∃ t : State, exec (.sensorConversion n temp ok) s = .next t ∧ t.pending = s.pending ∧
      t.blk.fld (THM_SENSOR n) 10 0 = (temp % 2048).toNat ∧
      t.blk.bit (THM_SENSOR n) 11 = (s.blk.bit (THM_SENSOR n) 11 && (ok || decide (tget 0 s.blk.pwr.ratioFails n ≠ 2))) ∧
      tget 0 t.blk.pwr.ratioFails n = (if ok then 0 else min 3 (tget 0 s.blk.pwr.ratioFails n + 1)) ∧ tget 0 t.blk.pwr.atTrip n = 0 ∧
      (∀ m, m < 560 → m ≠ n → t.blk.rg (THM_SENSOR m) = s.blk.rg (THM_SENSOR m)) ∧ t.blk.bit THM_STATE 16 = s.blk.bit THM_STATE 16 ∧
      { t.blk with regs := s.blk.regs, pwr := s.blk.pwr, ice := s.blk.ice } = s.blk) ∧
  (∀ (s : State) (n : Nat) (temp : Int), n < 304 → s.blk.pwr.pwrGood = true → tripAt n ≤ temp →
    s.blk.bit (THM_SENSOR n) 11 = true → tget 0 s.blk.pwr.atTrip n = 0 →
    ∃ t : State, exec (.sensorConversion n temp true) s = .next t ∧ t.pending = s.pending ∧
      t.blk.fld (THM_SENSOR n) 10 0 = (temp % 2048).toNat ∧ tget 0 t.blk.pwr.atTrip n = 1 ∧ t.blk.pwr.pwrGood = true ∧
      { t.blk with regs := s.blk.regs, pwr := s.blk.pwr, ice := s.blk.ice } = s.blk) ∧
  (∀ (s : State) (n : Nat) (temp : Int), n < 304 → s.blk.pwr.pwrGood = true → tripAt n ≤ temp →
    s.blk.bit (THM_SENSOR n) 11 = true → 1 ≤ tget 0 s.blk.pwr.atTrip n →
    ∃ t : State, exec (.sensorConversion n temp true) s = .next t ∧ t.pending = s.pending ∧ t.blk.overheat = true ∧
      t.blk.fld THM_STATE 19 17 = 0 ∧ t.blk.fld THM_STATE 29 20 = n ∧ t.blk.pwr.pwrGood = false ∧ t.blk.phase = 11 ∧ t.blk.jobs = [] ∧
      t.blk.parts = [] ∧ t.blk.fw.loaded = false ∧ t.blk.env = s.blk.env ∧ t.blk.trust.fuses = s.blk.trust.fuses) ∧
  (∀ (s : State) (n : Nat) (temp : Int) (ok : Bool), (560 ≤ n ∨ s.blk.pwr.pwrGood = false) →
    exec (.sensorConversion n temp ok) s = .next s) ∧
  (∀ (s : State) (src index : Nat) (temp : Int), s.blk.pwr.pwrGood = true → s.blk.latched = false → src < 2 → index < 560 →
    ∃ t : State, exec (.thermalTrip src index temp) s = .next t ∧ t.pending = s.pending ∧ t.blk.overheat = true ∧ t.blk.moduleAlert = true ∧
      t.blk.fld THM_STATE 19 17 = src ∧ t.blk.fld THM_STATE 29 20 = index ∧ (src = 1 → index < 24 → t.blk.bit (STK_TEMP index) 12 = true) ∧
      t.blk.pwr.pwrGood = false ∧ t.blk.phase = 11 ∧ t.blk.jobs = [] ∧ t.blk.parts = [] ∧ t.blk.objs = [] ∧ t.blk.fw.loaded = false ∧
      t.blk.trust.fuses = s.blk.trust.fuses ∧ t.blk.ice.ring = s.blk.ice.ring ∧ t.blk.env = s.blk.env) ∧
  ∀ (s : State) (src index : Nat) (temp : Int), (s.blk.pwr.pwrGood = false ∨ s.blk.latched = true ∨ 2 ≤ src) →
    exec (.thermalTrip src index temp) s = .next s

/-! ### Errors and repair (R464 to R477) -/

/-- PATROL_READ, ROW_COUNT_DECAY, TSV_PATH_FAIL (R464, R471 to R474): a clean sector only moves the patrol on; a correction is
counted by its row, which is retired into a spare at ROW_CE_MAX; an uncorrectable sector is counted, recorded and retired, and is
marked in its object, below the line that the cache holds of it; the row counts are halved; a path takes a spare, and its group stops when none is left.
Model choices: log entries 131, 132, 133. -/
def Obligations.PatrolAndPaths : Prop :=
  (∀ (s : State) (n core bank row : Nat) (r : EccResult) (obj : Option (Nat × Word × Nat)), patrolOn n s.blk = true →
    (r = .clean ∨ r = .storedPoison) →
    ∃ t : State, exec (.patrolRead n core bank row r obj) s = .next t ∧ t.pending = s.pending ∧
      t.blk.err = { s.blk.err with patrol := (s.blk.err.patrol + 1) % patrolSectors } ∧ { t.blk with regs := s.blk.regs, err := s.blk.err } = s.blk) ∧
  (∀ (s : State) (n core bank row k : Nat) (obj : Option (Nat × Word × Nat)), patrolOn n s.blk = true → k = rowKey core bank row →
    (s.blk.stackErr n).count k + 1 < s.blk.rowMax →
    ∃ t : State, exec (.patrolRead n core bank row .corrected obj) s = .next t ∧ t.pending = s.pending ∧
      (t.blk.stackErr n).count k = (s.blk.stackErr n).count k + 1 ∧ (t.blk.stackErr n).spares = (s.blk.stackErr n).spares ∧
      t.blk.rg (ERR_STK_CE n) = (s.blk.bump (ERR_STK_CE n)).rg (ERR_STK_CE n) ∧
      (∀ m, m ≠ n → t.blk.stackErr m = s.blk.stackErr m) ∧ { t.blk with regs := s.blk.regs, err := s.blk.err } = s.blk) ∧
  (∀ (s : State) (n core bank row k u : Nat) (obj : Option (Nat × Word × Nat)), patrolOn n s.blk = true → k = rowKey core bank row →
    s.blk.rowMax ≤ (s.blk.stackErr n).count k + 1 → u = tget 0 (s.blk.stackErr n).spares (bankKey core bank) → u < spareRows →
    ∃ t : State, exec (.patrolRead n core bank row .corrected obj) s = .next t ∧ t.pending = s.pending ∧
      (t.blk.stackErr n).count k = 0 ∧ tget 0 (t.blk.stackErr n).spares (bankKey core bank) = u + 1 ∧
      t.blk.fld (ERR_STK_ROWS n) 15 0 = min 0xFFFF (s.blk.fld (ERR_STK_ROWS n) 15 0 + 1) ∧
      t.blk.fld (ERR_STK_ROWS n) 31 16 = min (s.blk.fld (ERR_STK_ROWS n) 31 16) (spareRows - u - 1) ∧
      { t.blk with regs := s.blk.regs, err := s.blk.err, ice := s.blk.ice,
                   env := { t.blk.env with dramErrs := s.blk.env.dramErrs } } = s.blk) ∧
  (∀ (s : State) (n core bank row u : Nat), patrolOn n s.blk = true →
    u = tget 0 (s.blk.stackErr n).spares (bankKey core bank) → u < spareRows →
    ∃ t : State, exec (.patrolRead n core bank row .uncorrectable none) s = .next t ∧ t.pending = s.pending ∧
      tget 0 (t.blk.stackErr n).spares (bankKey core bank) = u + 1 ∧ t.blk.rg ERR_LAST_UE_KIND = w32 (15 + n * 16) ∧
      t.blk.rg (ERR_STK_UE n) = (s.blk.bump (ERR_STK_UE n)).rg (ERR_STK_UE n) ∧
      t.blk.rg ERR_CNT_PATROL_UE = (s.blk.bump ERR_CNT_PATROL_UE).rg ERR_CNT_PATROL_UE ∧
      { t.blk with regs := s.blk.regs, err := s.blk.err, ice := s.blk.ice,
                   env := { t.blk.env with dramErrs := s.blk.env.dramErrs } } = s.blk) ∧
  (∀ (s : State) (n core bank row p off : Nat) (h : Word) (o : Obj), patrolOn n s.blk = true →
    tget 0 (s.blk.stackErr n).spares (bankKey core bank) < spareRows → s.blk.byHandle p h = some o → h ≠ 0 →
    (∀ e, e ∈ s.blk.msc → ∀ x, x ∈ e.2 → ¬(x.part = p ∧ x.handle = h ∧ x.line = off / 256)) →
    ∃ t : State, exec (.patrolRead n core bank row .uncorrectable (some (p, h, off))) s = .next t ∧ t.pending = s.pending ∧
      t.blk.obj p (hSlot h) = some { o with data := o.data.mark (off / 32) } ∧ t.blk.rg ERR_LAST_UE_HANDLE = h ∧
      t.blk.pair ERR_LAST_UE_OFF_LO = off % 2 ^ 64 ∧ (∀ e j, (e ≠ p ∨ j ≠ hSlot h) → t.blk.obj e j = s.blk.obj e j) ∧
      (∀ fr, o.golden ≠ 0 → o.damaged = false → o.frameAt 0 off = some fr → (t.blk.refetchOf p h fr).isSome = true) ∧
      ((o.golden = 0 ∨ o.damaged = true) → t.blk.err.refetches = s.blk.err.refetches) ∧
      { t.blk with regs := s.blk.regs, err := s.blk.err, ice := s.blk.ice, objs := s.blk.objs,
                   env := { t.blk.env with dramErrs := s.blk.env.dramErrs } } = s.blk) ∧
  (∀ (s : State) (n core bank row p off : Nat) (h : Word) (o : Obj), patrolOn n s.blk = true →
    tget 0 (s.blk.stackErr n).spares (bankKey core bank) < spareRows → s.blk.byHandle p h = some o → o.golden = 0 →
    (∃ e, e ∈ s.blk.msc ∧ ∃ x, x ∈ e.2 ∧ x.part = p ∧ x.handle = h ∧ x.line = off / 256) →
    ∃ t : State, exec (.patrolRead n core bank row .uncorrectable (some (p, h, off))) s = .next t ∧ t.pending = s.pending ∧
      (∀ e, e ∈ t.blk.msc → ∀ x, x ∈ e.2 → x.part = p → x.handle = h → x.line = off / 256 → off / 32 ∈ x.under) ∧
      { t.blk with regs := s.blk.regs, err := s.blk.err, ice := s.blk.ice, msc := s.blk.msc,
                   env := { t.blk.env with dramErrs := s.blk.env.dramErrs } } = s.blk) ∧
  (∀ (s : State) (n core bank row : Nat) (r : EccResult) (obj : Option (Nat × Word × Nat)), patrolOn n s.blk = false →
    exec (.patrolRead n core bank row r obj) s = .next s) ∧
  (∀ (s : State) (n : Nat), Tbl.wf (fun _ => StackErr.reset) s.blk.err.stk = true → ((s.blk.stackErr n).rows.map (·.1)).Nodup →
    ∃ t : State, exec .rowCountDecay s = .next t ∧ t.pending = s.pending ∧
      (∀ k, (t.blk.stackErr n).count k = (s.blk.stackErr n).count k / 2) ∧ (t.blk.stackErr n).spares = (s.blk.stackErr n).spares ∧
      (t.blk.stackErr n).paths = (s.blk.stackErr n).paths ∧ (t.blk.stackErr n).groupsDown = (s.blk.stackErr n).groupsDown ∧
      { t.blk with err := { t.blk.err with stk := s.blk.err.stk } } = s.blk) ∧
  (∀ (s : State) (n ch bit u : Nat), s.blk.pwr.pwrGood = true → n < 24 → ch < 16 → bit < 128 → s.blk.stackTrained n = true →
    u = tget 0 (s.blk.stackErr n).paths ch → u < sparePaths →
    ∃ t : State, exec (.tsvPathFail n ch bit) s = .next t ∧ t.pending = s.pending ∧ tget 0 (t.blk.stackErr n).paths ch = u + 1 ∧
      (t.blk.stackErr n).groupsDown = (s.blk.stackErr n).groupsDown ∧ (∀ m, m ≠ n → t.blk.stackErr m = s.blk.stackErr m) ∧
      { t.blk with regs := s.blk.regs, err := s.blk.err, ice := s.blk.ice } = s.blk) ∧
  (∀ (s : State) (n ch bit : Nat), s.blk.pwr.pwrGood = true → n < 24 → ch < 16 → bit < 128 → s.blk.stackTrained n = true →
    sparePaths ≤ tget 0 (s.blk.stackErr n).paths ch → (s.blk.cgState n (ch / 2) = 0 ∨ s.blk.cgState n (ch / 2) = 3) →
    ∃ t : State, exec (.tsvPathFail n ch bit) s = .next t ∧ t.pending = s.pending ∧ t.blk.groupDown n (ch / 2) = true ∧
      t.blk.cgState n (ch / 2) = s.blk.cgState n (ch / 2) ∧
      { t.blk with regs := s.blk.regs, err := s.blk.err } = s.blk) ∧
  (∀ (s : State) (n ch bit : Nat), s.blk.pwr.pwrGood = true → n < 24 → ch < 16 → bit < 128 → s.blk.stackTrained n = true →
    sparePaths ≤ tget 0 (s.blk.stackErr n).paths ch → (s.blk.cgState n (ch / 2) = 1 ∨ s.blk.cgState n (ch / 2) = 2) →
    ∃ t : State, exec (.tsvPathFail n ch bit) s = .next t ∧ t.pending = s.pending ∧ t.blk.groupDown n (ch / 2) = true ∧
      t.blk.objs = ((s.blk.leaveGroup n (ch / 2)).getD s.blk).objs ∧ t.blk.snow = ((s.blk.leaveGroup n (ch / 2)).getD s.blk).snow) ∧
  ∀ (s : State) (n ch bit : Nat), (24 ≤ n ∨ 16 ≤ ch ∨ 128 ≤ bit ∨ s.blk.pwr.pwrGood = false) →
    exec (.tsvPathFail n ch bit) s = .next s

/-- REFETCH_COMPLETE, REFETCH_RETRY, REFETCH_TIMEOUT (R469, R470): the marked sectors of the frame are those of the golden copy in the
host, without marks, and every other byte and object stands; a re-fetch whose golden copy cannot be read goes on failing,
and after TIMEOUT_MS the object is damaged.
Model choices: log entry 134. -/
def Obligations.Refetches : Prop :=
  (∀ (s : State) (p fr : Nat) (h : Word) (o : Obj), refetchReady p h fr s.blk = true → s.blk.byHandle p h = some o → o.golden = 1 →
    s.blk.intact →
    ∃ t : State, exec (.refetchComplete p h fr) s = .next t ∧ t.pending = s.pending ∧ t.blk.refetchOf p h fr = none ∧
      t.blk.fld ERR_REFETCH 15 0 = s.blk.fld ERR_REFETCH 15 0 - 1 ∧
      t.blk.rg ERR_CNT_REFETCH = (s.blk.bump ERR_CNT_REFETCH).rg ERR_CNT_REFETCH ∧
      (∃ b, t.blk.obj p (hSlot h) = some b ∧
        (∀ x, x ∈ o.markedIn fr → b.data.read (x * 32) 32 = s.blk.hostRead (o.g0.toNat + 2 ^ 32 * o.g1.toNat + x * 32) 32 ∧
          b.data.poison.contains x = false) ∧
        (∀ a, a / 32 ∉ o.markedIn fr → memByte b.data.cells a = memByte o.data.cells a)) ∧
      (∀ e j, (e ≠ p ∨ j ≠ hSlot h) → t.blk.obj e j = s.blk.obj e j) ∧ t.blk.env = s.blk.env ∧ t.blk.jobs = s.blk.jobs ∧
      t.blk.parts = s.blk.parts) ∧
  (∀ (s : State) (p fr : Nat) (h : Word), refetchReady p h fr s.blk = true → s.blk.byHandle p h = none →
    ∃ t : State, exec (.refetchComplete p h fr) s = .next t ∧ t.pending = s.pending ∧ t.blk.refetchOf p h fr = none ∧
      { t.blk with regs := s.blk.regs, err := s.blk.err } = s.blk) ∧
  (∀ (s : State) (p fr : Nat) (h : Word), refetchReady p h fr s.blk = false → exec (.refetchComplete p h fr) s = .next s) ∧
  (∀ (s : State) (p fr : Nat) (h : Word) (r : Refetch), refetchFails p h fr s.blk = true → s.blk.refetchOf p h fr = some r →
    ∃ t : State, exec (.refetchRetry p h fr) s = .next t ∧ t.pending = s.pending ∧
      t.blk.refetchOf p h fr = some { r with failing := true } ∧ t.blk.err.refetches.length = s.blk.err.refetches.length ∧
      { t.blk with err := { t.blk.err with refetches := s.blk.err.refetches } } = s.blk) ∧
  (∀ (s : State) (p fr : Nat) (h : Word), refetchFails p h fr s.blk = false → exec (.refetchRetry p h fr) s = .next s) ∧
  (∀ (s : State) (p fr : Nat) (h : Word) (o : Obj), refetchLate p h fr s.blk = true → s.blk.byHandle p h = some o →
    ∃ t : State, exec (.refetchTimeout p h fr) s = .next t ∧ t.pending = s.pending ∧ t.blk.refetchOf p h fr = none ∧
      t.blk.fld ERR_REFETCH 15 0 = s.blk.fld ERR_REFETCH 15 0 - 1 ∧ t.blk.obj p (hSlot h) = some { o with damaged := true } ∧
      (∀ e j, (e ≠ p ∨ j ≠ hSlot h) → t.blk.obj e j = s.blk.obj e j) ∧
      { t.blk with regs := s.blk.regs, err := s.blk.err, ice := s.blk.ice, objs := s.blk.objs } = s.blk) ∧
  ∀ (s : State) (p fr : Nat) (h : Word), refetchLate p h fr s.blk = false → exec (.refetchTimeout p h fr) s = .next s

/-! ### Trust (R482 to R501) -/

/-- LC_CHALLENGE, LC_ADVANCE, LC_FLOOR, and what every message of the chapter meets first (R483, R484, R485, R486, R489, R497, R498): a nonce
is the pair's; a transition blows its bit and awaits a cold start; a floor only rises, up to the security version in
force.
Model choices: log entries 1, 113, 139. -/
def Obligations.LifeCycle : Prop :=
  (∀ (s : State) (ch : Chan), s.blk.delivers ch 0x0A01 → s.blk.backFree ch → (s.blk.scrapped = true ∨ s.blk.fw.loaded = true) →
    ∃ t : State, exec (.lcChallenge ch) s = .next t ∧ t.pending = s.pending ∧ t.blk.repliedTo s.blk ch OK ∧
      kget t.blk.trust.nonces (pairIndex ch) = some (leBytes 32 s.blk.freeVal) ∧ t.blk.freeCtr = s.blk.freeCtr + 1 ∧
      (∀ i, i < 8 → t.blk.rg (chBack ch + 8 + 4 * i) = (bytesWords 8 (leBytes 32 s.blk.freeVal)).getD i 0) ∧
      (∀ k, k ≠ pairIndex ch → kget t.blk.trust.nonces k = kget s.blk.trust.nonces k) ∧
      { t.blk.mailBack s.blk with freeCtr := s.blk.freeCtr, trust := { t.blk.trust with nonces := s.blk.trust.nonces } } = s.blk) ∧
  (∀ (s : State) (ch : Chan), s.blk.delivers ch 0x0A01 → s.blk.backFree ch → s.blk.scrapped = false → s.blk.fw.loaded = false →
    ∃ t : State, exec (.lcChallenge ch) s = .next t ∧ t.pending = s.pending ∧ t.blk.repliedTo s.blk ch (NOT_READY 0x11) ∧
      t.blk.mailBack s.blk = s.blk) ∧
  (∀ (s : State) (i : Instr) (ch : Chan) (ty st : Nat) (only : Bool), Instr.trust i = some (ch, ty, only) → s.blk.delivers ch ty →
    s.blk.backFree ch →
    st = (if only && ch != .s0 then DENIED 0x10 else if s.blk.scrapped then DENIED 0x0B else if s.blk.fw.loaded then 0 else NOT_READY 0x11) →
    st ≠ 0 →
    ∃ t : State, exec i s = .next t ∧ t.pending = s.pending ∧ t.blk.repliedTo s.blk ch st ∧ t.blk.mailBack s.blk = s.blk) ∧
  (∀ (s : State) (ch : Chan) (want : List Byte), s.blk.trusts ch 0x0A02 → s.blk.lcPending = false → s.blk.lcState = 0 →
    (mreg (s.blk.msgWords ch) 1).toNat = 1 → want = wordsBytes ((List.range 12).map fun i => mreg (s.blk.msgWords ch) (2 + i)) →
    covers s.blk.trust.fuses.ownerDigest want = true →
    ∃ t : State, exec (.lcAdvance ch) s = .next t ∧ t.pending = s.pending ∧ t.blk.repliedTo s.blk ch OK ∧
      t.blk.trust.fuses.develop = LcBit.set ∧ t.blk.trust.fuses.ownerValid = true ∧ digest48 t.blk.trust.fuses.ownerDigest = want ∧
      t.blk.lcState = 0 ∧ (s.blk.trust.fuses.state = 0 → t.blk.lcPending = true ∧ t.blk.fld MOR_LC 5 3 = 1) ∧
      { t.blk.trust.fuses with develop := s.blk.trust.fuses.develop, ownerValid := s.blk.trust.fuses.ownerValid,
                               ownerDigest := s.blk.trust.fuses.ownerDigest } = s.blk.trust.fuses ∧
      { t.blk.mailBack s.blk with trust := s.blk.trust } = s.blk) ∧
  (∀ (s : State) (ch : Chan), s.blk.trusts ch 0x0A02 → s.blk.lcPending = false → s.blk.lcState = 1 →
    (mreg (s.blk.msgWords ch) 1).toNat = 2 →
    ∃ t : State, exec (.lcAdvance ch) s = .next t ∧ t.pending = s.pending ∧ t.blk.repliedTo s.blk ch OK ∧
      t.blk.trust.fuses.field = LcBit.set ∧ t.blk.lcState = 1 ∧
      (s.blk.trust.fuses.state = 1 → t.blk.lcPending = true ∧ t.blk.fld MOR_LC 5 3 = 2) ∧
      { t.blk.trust.fuses with field := s.blk.trust.fuses.field } = s.blk.trust.fuses ∧
      { t.blk.mailBack s.blk with trust := s.blk.trust } = s.blk) ∧
  (∀ (s : State) (ch : Chan) (st : Nat), s.blk.trusts ch 0x0A02 →
    st = (if s.blk.lcPending then BUSY 0x05 else if s.blk.lcState = 0 ∧ (mreg (s.blk.msgWords ch) 1).toNat = 1 ∨
      s.blk.lcState = 1 ∧ (mreg (s.blk.msgWords ch) 1).toNat = 2 then OK else REFUSED 0x04) → st ≠ OK →
    ∃ t : State, exec (.lcAdvance ch) s = .next t ∧ t.pending = s.pending ∧ t.blk.repliedTo s.blk ch st ∧ t.blk.mailBack s.blk = s.blk) ∧
  (∀ (s : State) (ch : Chan) (id v : Nat), s.blk.trusts ch 0x0A05 → (s.blk.lcState = 1 ∨ s.blk.lcState = 2) →
    id = (mreg (s.blk.msgWords ch) 1).toNat → v = (mreg (s.blk.msgWords ch) 2).toNat → id ≤ 7 → v ≤ 64 →
    v ≤ (s.blk.versionOf id).fld 31 24 → s.blk.trust.fuses.floors.getD id 0 < v → id < s.blk.trust.fuses.floors.length →
    ∃ t : State, exec (.lcFloor ch) s = .next t ∧ t.pending = s.pending ∧ t.blk.repliedTo s.blk ch OK ∧
      t.blk.trust.fuses.floors = s.blk.trust.fuses.floors.set id v ∧ t.blk.fld (MOR_LC_FLOOR id) 6 0 = v ∧
      { t.blk.trust.fuses with floors := s.blk.trust.fuses.floors } = s.blk.trust.fuses ∧
      { t.blk.mailBack s.blk with trust := s.blk.trust } = s.blk) ∧
  (∀ (s : State) (ch : Chan) (id v : Nat), s.blk.trusts ch 0x0A05 → (s.blk.lcState = 1 ∨ s.blk.lcState = 2) →
    id = (mreg (s.blk.msgWords ch) 1).toNat → v = (mreg (s.blk.msgWords ch) 2).toNat → id ≤ 7 → v ≤ 64 →
    v ≤ (s.blk.versionOf id).fld 31 24 → v ≤ s.blk.trust.fuses.floors.getD id 0 →
    ∃ t : State, exec (.lcFloor ch) s = .next t ∧ t.pending = s.pending ∧ t.blk.repliedTo s.blk ch OK ∧ t.blk.mailBack s.blk = s.blk) ∧
  ∀ (s : State) (ch : Chan) (id v st : Nat), s.blk.trusts ch 0x0A05 →
    id = (mreg (s.blk.msgWords ch) 1).toNat → v = (mreg (s.blk.msgWords ch) 2).toNat →
    st = (if s.blk.lcState ≠ 1 ∧ s.blk.lcState ≠ 2 then DENIED 0x0A
      else if 7 < id ∨ 64 < v ∨ (s.blk.versionOf id).fld 31 24 < v then REFUSED 0x0C else OK) → st ≠ OK →
    ∃ t : State, exec (.lcFloor ch) s = .next t ∧ t.pending = s.pending ∧ t.blk.repliedTo s.blk ch st ∧ t.blk.mailBack s.blk = s.blk

/-- LC_RETURN, LC_SCRAP, DEBUG_UNLOCK (R484, R487, R488, R489, R491, R492): a blob is judged by its nonce, its key and its signature, and uses
the nonce up; a return ends all work, erases every key, blows the owner's digest and the RETURN bit; a scrap does so without
a blob, with the identity's seed and the SCRAP bit; an unlock opens debug in DEVELOP alone.
Model choices: log entries 136, 137, 138. -/
def Obligations.ReturnScrapAndDebug : Prop :=
  (∀ (s : State) (v : Option Nat × Block), s.blk.trusts .s0 0x0A03 → s.blk.lcPending = false → s.blk.lcState = 2 →
    (s.blk.msgTaken .s0).hostReadStatus 0 (mpair (s.blk.msgWords .s0) 1) blobBytes = none →
    v = (s.blk.msgTaken .s0).judge .s0 (mpair (s.blk.msgWords .s0) 1) 2 s.blk.trust.fuses.vendorDigest true →
    ∃ t : State, exec (.lcReturn .s0) s = .next t ∧ t.pending = s.pending ∧
      (∀ d, v.1 = some d → t.blk.repliedTo s.blk .s0 (REFUSED d) ∧ t.blk.trust = v.2.trust ∧
        { t.blk.mailBack s.blk with trust := s.blk.trust } = s.blk) ∧
      (v.1 = none → t.blk.trust.fuses.ret = LcBit.set ∧ (∀ i, i < 48 → t.blk.trust.fuses.ownerDigest.getD i 0 = 0xFF) ∧
        t.blk.trust.fuses.idSeed = s.blk.trust.fuses.idSeed ∧ t.blk.trust.fuses.scrap = s.blk.trust.fuses.scrap ∧
        t.blk.trust.keys = [] ∧ t.blk.jobs = [] ∧ t.blk.parts = [] ∧ t.blk.lcState = 2)) ∧
  (∀ (s : State), s.blk.trusts .s0 0x0A03 → kget s.blk.trust.nonces 0 = none → s.blk.lcPending = false → s.blk.lcState = 2 →
    (s.blk.msgTaken .s0).hostReadStatus 0 (mpair (s.blk.msgWords .s0) 1) blobBytes = none →
    ∃ t : State, exec (.lcReturn .s0) s = .next t ∧ t.pending = s.pending ∧ t.blk.repliedTo s.blk .s0 (REFUSED 0x07) ∧
      t.blk.mailBack s.blk = s.blk) ∧
  (∀ (s : State) (st : Nat), s.blk.trusts .s0 0x0A03 →
    st = (if s.blk.lcPending then BUSY 0x05 else if s.blk.lcState ≠ 2 then REFUSED 0x04 else OK) → st ≠ OK →
    ∃ t : State, exec (.lcReturn .s0) s = .next t ∧ t.pending = s.pending ∧ t.blk.repliedTo s.blk .s0 st ∧ t.blk.mailBack s.blk = s.blk) ∧
  (∀ (s : State) (ch : Chan), s.blk.trusts ch 0x0A04 → (mreg (s.blk.msgWords ch) 1).fld 15 0 = 0x5C2A →
    ∃ t : State, exec (.lcScrap ch) s = .next t ∧ t.pending = s.pending ∧ t.blk.trust.fuses.scrap = LcBit.set ∧
      (∀ i, i < 48 → t.blk.trust.fuses.ownerDigest.getD i 0 = 0xFF) ∧ (∀ i, i < 32 → t.blk.trust.fuses.idSeed.getD i 0 = 0xFF) ∧
      t.blk.trust.fuses.state = 4 ∧ t.blk.trust.fuses.floors = s.blk.trust.fuses.floors ∧ t.blk.trust.keys = [] ∧ t.blk.jobs = [] ∧
      t.blk.parts = [] ∧ t.blk.lcState = s.blk.lcState ∧
      (s.blk.atRest → s.blk.parts.all (fun e => decide (e.1 < 32)) = true → t.blk.repliedTo s.blk ch OK)) ∧
  (∀ (s : State) (ch : Chan), s.blk.trusts ch 0x0A04 → (mreg (s.blk.msgWords ch) 1).fld 15 0 ≠ 0x5C2A →
    ∃ t : State, exec (.lcScrap ch) s = .next t ∧ t.pending = s.pending ∧ t.blk.repliedTo s.blk ch (REFUSED 0x04) ∧
      t.blk.mailBack s.blk = s.blk) ∧
  (∀ (s : State) (v : Option Nat × Block), s.blk.trusts .s0 0x0A06 → s.blk.lcState = 1 → s.blk.encPorts = [] → s.blk.ideStreams = 0 →
    (s.blk.msgTaken .s0).hostReadStatus 0 (mpair (s.blk.msgWords .s0) 1) blobBytes = none →
    v = (s.blk.msgTaken .s0).judge .s0 (mpair (s.blk.msgWords .s0) 1) 1 s.blk.trust.fuses.ownerDigest s.blk.trust.fuses.ownerOk →
    ∃ t : State, exec (.debugUnlock .s0) s = .next t ∧ t.pending = s.pending ∧
      (∀ d, v.1 = some d → t.blk.repliedTo s.blk .s0 (REFUSED d) ∧ t.blk.debugOpen = s.blk.debugOpen) ∧
      (v.1 = none → t.blk.repliedTo s.blk .s0 OK ∧ t.blk.debugOpen = true ∧ t.blk.keysAllowed = false) ∧
      t.blk.trust.fuses = s.blk.trust.fuses ∧ t.blk.trust = v.2.trust ∧ { t.blk.mailBack s.blk with trust := s.blk.trust } = s.blk) ∧
  ∀ (s : State) (st : Nat), s.blk.trusts .s0 0x0A06 →
    (s.blk.lcState = 2 ∧ st = DENIED 0x08 ∨ s.blk.lcState ≠ 1 ∧ s.blk.lcState ≠ 2 ∧ st = OK ∨
      s.blk.lcState = 1 ∧ (s.blk.encPorts ≠ [] ∨ s.blk.ideStreams ≠ 0) ∧ st = BUSY 0x09) →
    ∃ t : State, exec (.debugUnlock .s0) s = .next t ∧ t.pending = s.pending ∧ t.blk.repliedTo s.blk .s0 st ∧
      t.blk.debugOpen = s.blk.debugOpen ∧ t.blk.mailBack s.blk = s.blk

/-- ATTEST, ATTEST_READ, ESK_KEY_INSTALL, ESK_KEY_SWITCH, IDE_KM, PLDM_REQUEST (R487, R493, R495, R496, R520): the report of a nonce is
held for its pair and counted, and is read 52 bytes at a time; a key enters its slot where the state accepts keys; a
switch moves the sender to a slot that holds one.
Model choices: log entries 139, 140, 142. -/
def Obligations.AttestationAndKeys : Prop :=
  (∀ (s : State) (ch : Chan) (n : Nat) (r : List Byte), s.blk.trusts ch 0x0A07 →
    ((mreg (s.blk.msgWords ch) 1).bit 0 && ch == .s0) = false → n = s.blk.trust.reportCount + 1 →
    r = s.blk.report (wordsBytes ((List.range 8).map fun i => mreg (s.blk.msgWords ch) (2 + i))) n →
    ∃ t : State, exec (.attest ch) s = .next t ∧ t.pending = s.pending ∧ t.blk.repliedTo s.blk ch OK ∧
      t.blk.rg (chBack ch + 8) = w32 reportBytes ∧ r.length = reportBytes ∧ kget t.blk.trust.reports (pairIndex ch) = some r ∧
      t.blk.trust.reportCount = n ∧ (∀ k, k ≠ pairIndex ch → kget t.blk.trust.reports k = kget s.blk.trust.reports k) ∧
      { t.blk.trust with reports := s.blk.trust.reports, reportCount := s.blk.trust.reportCount } = s.blk.trust ∧
      t.blk.env.hostMem = s.blk.env.hostMem ∧ { t.blk.mailBack s.blk with trust := s.blk.trust } = s.blk) ∧
  (∀ (s : State) (a : Nat) (r : List Byte), s.blk.trusts .s0 0x0A07 → (mreg (s.blk.msgWords .s0) 1).bit 0 = true →
    s.blk.dmaStopped 0 = false → a = mpair (s.blk.msgWords .s0) 10 → s.blk.hostOk a reportBytes = true →
    r = s.blk.report (wordsBytes ((List.range 8).map fun i => mreg (s.blk.msgWords .s0) (2 + i))) (s.blk.trust.reportCount + 1) →
    ∃ t : State, exec (.attest .s0) s = .next t ∧ t.pending = s.pending ∧ t.blk.repliedTo s.blk .s0 OK ∧
      kget t.blk.trust.reports 0 = some r ∧ t.blk.hostRead a reportBytes = r ∧
      (∀ b, (b < a ∨ a + reportBytes ≤ b) → memByte t.blk.env.hostMem b = memByte s.blk.env.hostMem b) ∧
      { t.blk.mailBack s.blk with trust := s.blk.trust } = s.blk) ∧
  (∀ (s : State) (ch : Chan) (off : Nat) (r : List Byte), s.blk.trusts ch 0x0A08 → off = (mreg (s.blk.msgWords ch) 1).toNat →
    kget s.blk.trust.reports (pairIndex ch) = some r → off < r.length →
    ∃ t : State, exec (.attestRead ch) s = .next t ∧ t.pending = s.pending ∧ t.blk.repliedTo s.blk ch OK ∧
      t.blk.rg (chBack ch + 8) = w32 off ∧
      (∀ i, i < 13 → t.blk.rg (chBack ch + 12 + 4 * i) = (bytesWords 13 ((r.drop off).take 52)).getD i 0) ∧ t.blk.mailBack s.blk = s.blk) ∧
  (∀ (s : State) (ch : Chan), s.blk.trusts ch 0x0A08 →
    (kget s.blk.trust.reports (pairIndex ch)).all (fun r => decide (r.length ≤ (mreg (s.blk.msgWords ch) 1).toNat)) = true →
    ∃ t : State, exec (.attestRead ch) s = .next t ∧ t.pending = s.pending ∧ t.blk.repliedTo s.blk ch (REFUSED 0x0D) ∧
      t.blk.mailBack s.blk = s.blk) ∧
  (∀ (s : State) (ch : Chan) (w : Word) (k : Nat), s.blk.trusts ch 0x0A09 → w = mreg (s.blk.msgWords ch) 1 → s.blk.keysAllowed = true →
    s.blk.slotUsed (w.fld 3 0) (w.fld 4 4) (w.fld 5 5) = false → k = w.fld 3 0 * 4 + w.fld 4 4 * 2 + w.fld 5 5 →
    ∃ t : State, exec (.eskKeyInstall ch) s = .next t ∧ t.pending = s.pending ∧ t.blk.repliedTo s.blk ch OK ∧
      kget t.blk.trust.keys k = some { id := mreg (s.blk.msgWords ch) 2, salt := mreg (s.blk.msgWords ch) 3,
                                       key := (List.range 8).map fun i => mreg (s.blk.msgWords ch) (4 + i) } ∧
      (∀ j, j ≠ k → kget t.blk.trust.keys j = kget s.blk.trust.keys j) ∧
      { t.blk.mailBack s.blk with trust := { t.blk.trust with keys := s.blk.trust.keys } } = s.blk) ∧
  (∀ (s : State) (ch : Chan) (w : Word) (st : Nat), s.blk.trusts ch 0x0A09 → w = mreg (s.blk.msgWords ch) 1 →
    (s.blk.keysAllowed = false ∧ st = DENIED 0x0A ∨ s.blk.keysAllowed = true ∧
      s.blk.slotUsed (w.fld 3 0) (w.fld 4 4) (w.fld 5 5) = true ∧ st = BUSY 0x0E) →
    ∃ t : State, exec (.eskKeyInstall ch) s = .next t ∧ t.pending = s.pending ∧ t.blk.repliedTo s.blk ch st ∧ t.blk.mailBack s.blk = s.blk) ∧
  (∀ (s : State) (ch : Chan) (p : Nat), s.blk.trusts ch 0x0A0A → p = (mreg (s.blk.msgWords ch) 1).fld 3 0 →
    (s.blk.keyId p 0 (1 - (s.blk.port p).sendSlot)).isSome = true →
    ∃ t : State, exec (.eskKeySwitch ch) s = .next t ∧ t.pending = s.pending ∧ t.blk.repliedTo s.blk ch OK ∧
      t.blk.port p = { s.blk.port p with sendSlot := 1 - (s.blk.port p).sendSlot } ∧ (∀ q, q ≠ p → t.blk.port q = s.blk.port q) ∧
      { t.blk.mailBack s.blk with esk := { t.blk.esk with ports := s.blk.esk.ports } } = s.blk) ∧
  (∀ (s : State) (ch : Chan) (p : Nat), s.blk.trusts ch 0x0A0A → p = (mreg (s.blk.msgWords ch) 1).fld 3 0 →
    s.blk.keyId p 0 (1 - (s.blk.port p).sendSlot) = none →
    ∃ t : State, exec (.eskKeySwitch ch) s = .next t ∧ t.pending = s.pending ∧ t.blk.repliedTo s.blk ch (REFUSED 0x0E) ∧
      t.blk.mailBack s.blk = s.blk) ∧
  (∀ (s : State) (n : Nat), s.blk.start.linkUp = true → s.blk.fw.loaded = true → s.blk.keysAllowed = true → n ≤ 4 →
    ∃ t : State, exec (.ideKm n) s = .next t ∧ t.pending = s.pending ∧ t.blk.ideStreams = n ∧
      (∀ a, a ≠ MOR_HOST_LINK → t.blk.rg a = s.blk.rg a) ∧ { t.blk with regs := s.blk.regs } = s.blk) ∧
  (∀ (s : State) (n : Nat), (s.blk.start.linkUp = false ∨ s.blk.fw.loaded = false ∨ s.blk.keysAllowed = false ∨ 4 < n) →
    exec (.ideKm n) s = .next s) ∧
  (∀ (s : State) (k a : Nat), s.blk.coreUp 6 = true → pldmReg k = some a →
    exec (.pldmRequest k) s =
      .next { s with blk := { s.blk with env := { s.blk.env with pldm := s.blk.env.pldm ++ [(k, s.blk.rg a)] } } }) ∧
  ∀ (s : State) (k : Nat), (s.blk.coreUp 6 = false ∨ pldmReg k = none) → exec (.pldmRequest k) s = .next s

/-! ### The ice core (R502 to R513, R527) -/

/-- ICE_STATUS, ICE_READ, ICE_CLEAR, ICE_CLEAR_PROGRAM, ICE_BUDGET_TOKEN (R507 to R509, R511, R512): status and records are answered once
the scan is complete; a read fills the latch of its pair and is returned in halves; a clear with its key moves
ICE_CLEARED to ICE_LAST and programs the records one by one, the newest first.
Model choices: log entry 7. -/
def Obligations.IceMessages : Prop :=
  (∀ (s : State) (ch : Chan), s.blk.delivers ch 0x0B01 → s.blk.backFree ch → s.blk.ice.scanned = true →
    ∃ t : State, exec (.iceStatus ch) s = .next t ∧ t.pending = s.pending ∧ t.blk.repliedTo s.blk ch OK ∧
      t.blk.rg (chBack ch + 8) = w32 s.blk.ice.first ∧ t.blk.rg (chBack ch + 12) = w32 s.blk.ice.last ∧
      t.blk.rg (chBack ch + 16) = w32 s.blk.ice.permCount ∧ t.blk.rg (chBack ch + 20) = w32 s.blk.ice.cleared ∧
      t.blk.rg (chBack ch + 24) = (s.blk.msgTaken ch).rg ICE_DROPPED ∧ t.blk.mailBack s.blk = s.blk) ∧
  (∀ (s : State) (i : Instr) (ch : Chan) (ty : Nat), (i = .iceStatus ch ∧ ty = 0x0B01 ∨ i = .iceRead ch ∧ ty = 0x0B02 ∨
      i = .iceClear ch ∧ ty = 0x0B03) → s.blk.delivers ch ty → s.blk.backFree ch → s.blk.ice.scanned = false →
    ∃ t : State, exec i s = .next t ∧ t.pending = s.pending ∧ t.blk.repliedTo s.blk ch (NOT_READY 0) ∧ t.blk.ice.cleared = s.blk.ice.cleared ∧
      t.blk.ice.latches = s.blk.ice.latches ∧ t.blk.mailBack s.blk = s.blk) ∧
  (∀ (s : State) (ch : Chan) (q : Nat) (l : IceLatch), s.blk.delivers ch 0x0B02 → s.blk.backFree ch → s.blk.ice.scanned = true →
    q = (mreg (s.blk.msgWords ch) 1).toNat → (mreg (s.blk.msgWords ch) 2).bit 0 = false → l = s.blk.ice.read q →
    ∃ t : State, exec (.iceRead ch) s = .next t ∧ t.pending = s.pending ∧ t.blk.repliedTo s.blk ch OK ∧
      t.blk.rg (chBack ch + 8) = w32 q ∧ t.blk.rg (chBack ch + 12) = w32 l.recState ∧
      (∀ j, j < 8 → t.blk.rg (chBack ch + 16 + 4 * j) = (bytesWords 8 (l.bytes.take 32)).getD j 0) ∧
      t.blk.ice.latch (iceKey ch) = l ∧ (∀ k, k ≠ iceKey ch → kget t.blk.ice.latches k = kget s.blk.ice.latches k) ∧
      t.blk.ice.ring = s.blk.ice.ring ∧ t.blk.ice.perm = s.blk.ice.perm ∧ t.blk.mailBack s.blk = s.blk) ∧
  (∀ (s : State) (ch : Chan) (l : IceLatch), s.blk.delivers ch 0x0B02 → s.blk.backFree ch → s.blk.ice.scanned = true →
    (mreg (s.blk.msgWords ch) 2).bit 0 = true → l = s.blk.ice.latch (iceKey ch) →
    ∃ t : State, exec (.iceRead ch) s = .next t ∧ t.pending = s.pending ∧ t.blk.repliedTo s.blk ch OK ∧
      t.blk.rg (chBack ch + 8) = w32 l.seq ∧ t.blk.rg (chBack ch + 12) = w32 l.recState ∧
      (∀ j, j < 8 → t.blk.rg (chBack ch + 16 + 4 * j) = (bytesWords 8 (l.bytes.drop 32)).getD j 0) ∧
      t.blk.ice.latches = s.blk.ice.latches ∧ t.blk.mailBack s.blk = s.blk) ∧
  (∀ (s : State) (ch : Chan), s.blk.delivers ch 0x0B03 → s.blk.backFree ch → s.blk.ice.scanned = true →
    (mreg (s.blk.msgWords ch) 1).fld 15 0 = 0x1CE0 →
    ∃ t : State, exec (.iceClear ch) s = .next t ∧ t.pending = s.pending ∧ t.blk.repliedTo s.blk ch OK ∧
      t.blk.rg (chBack ch + 8) = w32 s.blk.ice.last ∧ t.blk.ice.cleared = s.blk.ice.last ∧ t.blk.ice.clearing = some s.blk.ice.last ∧
      t.blk.ice.ring = s.blk.ice.ring ∧ t.blk.ice.perm = s.blk.ice.perm ∧ t.blk.mailBack s.blk = s.blk) ∧
  (∀ (s : State) (ch : Chan), s.blk.delivers ch 0x0B03 → s.blk.backFree ch → s.blk.ice.scanned = true →
    (mreg (s.blk.msgWords ch) 1).fld 15 0 ≠ 0x1CE0 →
    ∃ t : State, exec (.iceClear ch) s = .next t ∧ t.pending = s.pending ∧ t.blk.repliedTo s.blk ch (REFUSED 0) ∧
      t.blk.ice.cleared = s.blk.ice.cleared ∧ t.blk.ice.clearing = s.blk.ice.clearing ∧ t.blk.mailBack s.blk = s.blk) ∧
  (∀ (s : State) (k : Nat) (x : IceSlot), s.blk.ice.clearing.isSome = true → s.blk.ice.hold = false → s.blk.start.powered = true →
    s.blk.ice.nextClear = some k → kget s.blk.ice.ring k = some x →
    ∃ t : State, exec .iceClearProgram s = .next t ∧ t.pending = s.pending ∧
      kget t.blk.ice.ring k = some { x with valid := .cleared } ∧ (∀ j, j ≠ k → kget t.blk.ice.ring j = kget s.blk.ice.ring j) ∧
      t.blk.ice.clearing = (if t.blk.ice.nextClear.isSome then s.blk.ice.clearing else none) ∧
      { t.blk with ice := { t.blk.ice with ring := s.blk.ice.ring, clearing := s.blk.ice.clearing } } = s.blk) ∧
  (∀ (s : State), s.blk.ice.clearing.isSome = true → s.blk.ice.hold = false → s.blk.start.powered = true → s.blk.ice.nextClear = none →
    exec .iceClearProgram s = .next { s with blk := { s.blk with ice := { s.blk.ice with clearing := none } } }) ∧
  (∀ (s : State), (s.blk.ice.clearing = none ∨ s.blk.ice.hold = true ∨ s.blk.start.powered = false) →
    exec .iceClearProgram s = .next s) ∧
  ∀ (s : State), exec .iceBudgetToken s =
    .next { s with blk := { s.blk with ice := { s.blk.ice with budget := min 1000 (s.blk.ice.budget + 1) } } }

/-- ICE_COMMIT, ICE_SCAN_DONE, OPERATING_HOUR, FLASH_HOLD_ASSERT, FLASH_HOLD_RELEASE (R502, R504, R505, R507, R508, R527): the head record
takes the next number and the next slot, the first 256 in the permanent area, and the sector ahead is erased; three
failures leave a slot; the scan finds the newest numbers; the hold stops the writer and changes no valid record.
Model choices: log entries 145, 150. -/
def Obligations.IceWork : Prop :=
  (∀ (s : State) (failures q : Nat) (r : IceRec) (l : List IceRec), iceCommitReady s.blk = true → s.blk.ice.queue = r :: l → failures < 3 →
    q = nextSeq s.blk.ice.last → s.blk.ice.perm.length < 256 → q ≤ 256 → kget s.blk.ice.perm s.blk.ice.perm.length = none →
    ∃ t : State, exec (.iceCommit failures) s = .next t ∧ t.pending = s.pending ∧
      kget t.blk.ice.perm s.blk.ice.perm.length = some { body := { r with seq := q }, valid := .valid, crcOk := true } ∧
      t.blk.ice.queue = l ∧ t.blk.ice.last = q ∧ t.blk.ice.ring = s.blk.ice.ring ∧
      t.blk.ice.budget = s.blk.ice.budget - (if s.blk.pwr.pwrGood then 1 else 0) ∧ { t.blk with ice := s.blk.ice } = s.blk) ∧
  (∀ (s : State) (failures q n nx : Nat) (r : IceRec) (l : List IceRec), iceCommitReady s.blk = true → s.blk.ice.queue = r :: l →
    failures < 3 → q = nextSeq s.blk.ice.last → (256 ≤ s.blk.ice.perm.length ∨ 256 < q) → n = s.blk.ice.nextSlot →
    nx = (n / 64 + 1) % (ringSlots / 64) → n < ringSlots →
    ∃ t : State, exec (.iceCommit failures) s = .next t ∧ t.pending = s.pending ∧
      kget t.blk.ice.ring n = some { body := { r with seq := q }, valid := .valid, crcOk := true } ∧
      (∀ k, k ≠ n → kget t.blk.ice.ring k = (if n % 64 = 63 ∧ k / 64 = nx then none else kget s.blk.ice.ring k)) ∧
      t.blk.ice.nextSlot = (n + 1) % ringSlots ∧ t.blk.ice.queue = l ∧ t.blk.ice.last = q ∧ t.blk.ice.perm = s.blk.ice.perm ∧
      { t.blk with ice := s.blk.ice } = s.blk) ∧
  (∀ (s : State) (failures : Nat) (r : IceRec) (l : List IceRec), iceCommitReady s.blk = true → s.blk.ice.queue = r :: l → 3 ≤ failures →
    ∃ t : State, exec (.iceCommit failures) s = .next t ∧ t.pending = s.pending ∧ t.blk.ice.queue = l ∧
      t.blk.ice.last = nextSeq s.blk.ice.last ∧ t.blk.rg ICE_PROG_FAIL = (s.blk.bump ICE_PROG_FAIL (failures / 3)).rg ICE_PROG_FAIL ∧
      { t.blk with ice := s.blk.ice, regs := s.blk.regs } = s.blk) ∧
  (∀ (s : State) (failures : Nat), iceCommitReady s.blk = false → exec (.iceCommit failures) s = .next s) ∧
  (∀ (s : State), s.blk.start.powered = true → s.blk.ice.scanned = false → s.blk.ice.hold = false →
    ∃ t : State, exec .iceScanDone s = .next t ∧ t.pending = s.pending ∧ t.blk.ice.scanned = true ∧
      ((kfilter s.blk.ice.ring fun _ x => x.valid == .valid || x.valid == .cleared) ≠ [] → t.blk.ice.last =
        newestSeq ((kfilter s.blk.ice.ring fun _ x => x.valid == .valid || x.valid == .cleared).map (·.2.body.seq))) ∧
      ((kfilter s.blk.ice.ring fun _ x => x.valid == .valid || x.valid == .cleared) = [] → t.blk.ice.last =
        newestSeq ((kfilter s.blk.ice.perm fun _ x => x.valid == .valid).map (·.2.body.seq))) ∧
      t.blk.ice.cleared = newestSeq ((kfilter s.blk.ice.ring fun _ x => x.valid == .cleared).map (·.2.body.seq)) ∧
      t.blk.ice.ring = s.blk.ice.ring ∧ t.blk.ice.perm = s.blk.ice.perm ∧ t.blk.ice.queue = s.blk.ice.queue ∧
      { t.blk with ice := s.blk.ice } = s.blk) ∧
  (∀ (s : State), (s.blk.start.powered = false ∨ s.blk.ice.scanned = true ∨ s.blk.ice.hold = true) → exec .iceScanDone s = .next s) ∧
  (∀ (s : State), s.blk.pwr.pwrGood = true →
    exec .operatingHour s = .next { s with blk := { s.blk with ice := { s.blk.ice with hours := s.blk.ice.hours + 1, secNs := 0 } } }) ∧
  (∀ (s : State), s.blk.pwr.pwrGood = false → exec .operatingHour s = .next s) ∧
  (∀ (s : State),
    ∃ t : State, exec .flashHoldAssert s = .next t ∧ t.pending = s.pending ∧ t.blk.ice.hold = true ∧ s.blk.ice.permLe t.blk.ice ∧
      (∀ k, k ≠ s.blk.ice.nextSlot → kget t.blk.ice.ring k = kget s.blk.ice.ring k) ∧ t.blk.ice.queue = s.blk.ice.queue ∧
      t.blk.ice.last = s.blk.ice.last ∧ { t.blk with ice := s.blk.ice, freeCtr := s.blk.freeCtr } = s.blk) ∧
  (∀ (s : State), (s.blk.ice.hold = false ∨ s.blk.pwr.pwrGood = false ∨ s.blk.phase ≠ 1) →
    exec .flashHoldRelease s = .next { s with blk := { s.blk with ice := { s.blk.ice with hold := false } } }) ∧
  ∀ (s : State), s.blk.ice.hold = true → s.blk.pwr.pwrGood = true → s.blk.phase = 1 → s.blk.internal = false → s.blk.jobs = [] →
    ∃ t : State, exec .flashHoldRelease s = .next t ∧ t.pending = s.pending ∧ t.blk.ice.hold = false ∧
      t.blk.phase = (if s.blk.records.settle = 0 then 10 else 4) ∧ t.blk.objs = s.blk.objs ∧ t.blk.parts = s.blk.parts ∧
      t.blk.env = s.blk.env

/-! ### The whole machine -/

/-- What is blown stays blown (R482, R484): no command, from any state, unblows a fuse, and VENDOR_DIGEST and ROM_VERSION never
change. So a life-cycle state never returns to an earlier one, and a floor never falls. -/
def Obligations.FusesStayBlown : Prop :=
  (∀ (s t : State), step s = .next t → s.blk.trust.fuses.le t.blk.trust.fuses ∧ s.blk.trust.fuses.state ≤ t.blk.trust.fuses.state) ∧
  ∀ (s : State) (l : List Instr), s.blk.trust.fuses.le (s.after l).blk.trust.fuses

/-- The permanent area of the ice core is written once (R502, R504): no command, from any state, changes or erases a slot of it
that is programmed. -/
def Obligations.PermanentRecordsStay : Prop :=
  (∀ (s t : State), step s = .next t → s.blk.ice.permLe t.blk.ice) ∧ ∀ (s : State) (l : List Instr), s.blk.ice.permLe (s.after l).blk.ice

/-- The module right after reset (R6, R338, R415, R421, R502): nothing is in it and no ledger is out of its equation, every register reads its reset value, memories
are in canonical form, and no command waits.
Model choices: log entries 5, 149, 150. -/
def Obligations.ResetState : Prop :=
  State.reset.pending = [] ∧ (∀ a, State.reset.blk.rg a = regReset a) ∧ (∀ n, State.reset.blk.ledger n = ledgerReset n) ∧
    State.reset.blk.ledgersOk ∧ State.reset.blk.memoriesOk ∧ Tbl.wf regReset State.reset.blk.regs = true ∧
    State.reset.blk.atRest ∧ State.reset.blk.parts = [] ∧ State.reset.blk.objs = [] ∧ State.reset.blk.fw.loaded = false ∧
    State.reset.blk.ice.perm = [] ∧ State.reset.blk.ice.ring = [] ∧ (∀ u, u < 4096 → State.reset.blk.fld (FIRN_EPOCH u) 15 0 = 1) ∧
    step State.reset = .next State.reset
end

