-- ==== Sys2Proof/Laws/Tables.lean ====
section
/-! SUPPORT. What the operations on sparse tables and memories do: a lookup after an update, and the canonical
form that every update keeps. -/

namespace Sys2Proof.Machine

variable {α : Type}

/-! ### Lookups -/

@[simp] theorem kget_nil (i : Nat) : kget ([] : Tbl α) i = none := rfl

theorem kget_cons (k : Nat) (v : α) (t : Tbl α) (i : Nat) :
    kget ((k, v) :: t) i = if i = k then some v else kget t i := rfl

@[simp] theorem kget_kput_same (t : Tbl α) (i : Nat) (x : α) : kget (kput t i x) i = some x := by
  induction t with
  | nil => simp [kput, kget]
  | cons p t ih =>
    obtain ⟨k, v⟩ := p
    unfold kput
    split
    · simp [kget]
    · split
      · simp [kget]
      · rename_i h _
        simp [kget, h, ih]

theorem kget_kput_other (t : Tbl α) {i j : Nat} (x : α) (h : j ≠ i) : kget (kput t i x) j = kget t j := by
  induction t with
  | nil => simp [kput, kget, h]
  | cons p t ih =>
    obtain ⟨k, v⟩ := p
    unfold kput
    split
    · rename_i e
      subst e
      simp [kget, h]
    · split
      · simp [kget, h]
      · simp [kget, ih]

theorem kget_kput (t : Tbl α) (i j : Nat) (x : α) :
    kget (kput t i x) j = if j = i then some x else kget t j := by
  split
  · rename_i h
    subst h
    exact kget_kput_same t j x
  · rename_i h
    exact kget_kput_other t x h

theorem kget_kdel (t : Tbl α) (i j : Nat) : kget (kdel t i) j = if j = i then none else kget t j := by
  induction t with
  | nil => simp [kdel, kget]
  | cons p t ih =>
    obtain ⟨k, v⟩ := p
    unfold kdel at ih ⊢
    by_cases hk : k = i
    · subst hk
      simp only [List.filter_cons, bne_self_eq_false, Bool.false_eq_true, if_false, ih, kget]
      by_cases h : j = k <;> simp [h]
    · have hb : (k != i) = true := by simpa using hk
      simp only [List.filter_cons, hb, if_true, kget, ih]
      by_cases h : j = k
      · subst h
        simp [hk]
      · simp [h]

/-- A table reads back what was set. -/
theorem tget_tset [DecidableEq α] (d e : α) (t : Tbl α) (i j : Nat) (x : α) (h : d = e ∨ j ≠ i) :
    tget d (tset e t i x) j = if j = i then x else tget d t j := by
  unfold tget tset
  split
  · rename_i hx
    rw [kget_kdel]
    split
    · rename_i hj
      obtain h | h := h
      · subst h
        simp [hx]
      · exact absurd hj h
    · rfl
  · rw [kget_kput]
    split <;> rfl

@[simp] theorem tget_tset_same [DecidableEq α] (d : α) (t : Tbl α) (i : Nat) (x : α) :
    tget d (tset d t i x) i = x := by
  rw [tget_tset d d t i i x (Or.inl rfl), if_pos rfl]

theorem tget_tset_other [DecidableEq α] (d e : α) (t : Tbl α) {i j : Nat} (x : α) (h : j ≠ i) :
    tget d (tset e t i x) j = tget d t j := by
  rw [tget_tset d e t i j x (Or.inr h), if_neg h]

theorem kget_kmod (t : Tbl α) (i j : Nat) (f : α → α) :
    kget (kmod t i f) j = if j = i then (kget t i).map f else kget t j := by
  unfold kmod
  split
  · rename_i v hv
    rw [kget_kput]
    split <;> simp [hv]
  · rename_i hv
    split
    · rename_i h
      subst h
      simp [hv]
    · rfl

/-! ### The canonical form -/

theorem risingFrom_weaken {lo lo' : Nat} {t : Tbl α} (h : lo' ≤ lo) (ht : risingFrom (some lo) t = true) :
    risingFrom (some lo') t = true := by
  cases t with
  | nil => rfl
  | cons p t =>
    obtain ⟨k, v⟩ := p
    simp only [risingFrom, Bool.and_eq_true, decide_eq_true_eq] at ht ⊢
    exact ⟨by omega, ht.2⟩

theorem risingFrom_none {lo : Nat} {t : Tbl α} (ht : risingFrom (some lo) t = true) :
    risingFrom none t = true := by
  cases t with
  | nil => rfl
  | cons p t =>
    obtain ⟨k, v⟩ := p
    simp only [risingFrom, Bool.and_eq_true, decide_eq_true_eq] at ht ⊢
    exact ⟨trivial, ht.2⟩

theorem risingFrom_kput {lo i : Nat} {t : Tbl α} (x : α) (hi : lo < i) (ht : risingFrom (some lo) t = true) :
    risingFrom (some lo) (kput t i x) = true := by
  induction t generalizing lo with
  | nil => simp [kput, risingFrom, hi]
  | cons p t ih =>
    obtain ⟨k, v⟩ := p
    simp only [risingFrom, Bool.and_eq_true, decide_eq_true_eq] at ht
    unfold kput
    split
    · rename_i h
      subst h
      simp only [risingFrom, Bool.and_eq_true, decide_eq_true_eq]
      exact ⟨hi, ht.2⟩
    · split
      · rename_i hlt
        simp only [risingFrom, Bool.and_eq_true, decide_eq_true_eq]
        exact ⟨hi, hlt, ht.2⟩
      · simp only [risingFrom, Bool.and_eq_true, decide_eq_true_eq]
        exact ⟨ht.1, ih (by omega) ht.2⟩

/-- Setting a key keeps the keys rising. -/
theorem rising_kput {i : Nat} {t : Tbl α} (x : α) (ht : risingFrom none t = true) :
    risingFrom none (kput t i x) = true := by
  cases t with
  | nil => rfl
  | cons p t =>
    obtain ⟨k, v⟩ := p
    simp only [risingFrom, Bool.and_eq_true] at ht
    unfold kput
    split
    · rename_i h
      subst h
      simp only [risingFrom, Bool.and_eq_true]
      exact ht
    · split
      · rename_i hlt
        simp only [risingFrom, Bool.and_eq_true, decide_eq_true_eq]
        exact ⟨trivial, hlt, ht.2⟩
      · simp only [risingFrom, Bool.and_eq_true]
        exact ⟨trivial, risingFrom_kput x (by omega) ht.2⟩

theorem risingFrom_filter {lo : Nat} {t : Tbl α} (f : Nat × α → Bool) (ht : risingFrom (some lo) t = true) :
    risingFrom (some lo) (t.filter f) = true := by
  induction t generalizing lo with
  | nil => rfl
  | cons p t ih =>
    obtain ⟨k, v⟩ := p
    simp only [risingFrom, Bool.and_eq_true, decide_eq_true_eq] at ht
    rw [List.filter_cons]
    split
    · simp only [risingFrom, Bool.and_eq_true, decide_eq_true_eq]
      exact ⟨ht.1, ih ht.2⟩
    · exact risingFrom_weaken (by omega) (ih ht.2)

/-- Leaving pairs out keeps the keys rising. -/
theorem rising_filter {t : Tbl α} (f : Nat × α → Bool) (ht : risingFrom none t = true) :
    risingFrom none (t.filter f) = true := by
  cases t with
  | nil => rfl
  | cons p t =>
    obtain ⟨k, v⟩ := p
    simp only [risingFrom, Bool.and_eq_true] at ht
    rw [List.filter_cons]
    split
    · simp only [risingFrom, Bool.and_eq_true]
      exact ⟨trivial, risingFrom_filter f ht.2⟩
    · exact risingFrom_none (risingFrom_filter f ht.2)

theorem mem_kput {t : Tbl α} {i : Nat} {x : α} {p : Nat × α} (h : p ∈ kput t i x) : p = (i, x) ∨ p ∈ t := by
  induction t with
  | nil => simpa [kput] using h
  | cons q t ih =>
    obtain ⟨k, v⟩ := q
    unfold kput at h
    split at h
    · obtain h | h := List.mem_cons.mp h
      · exact Or.inl h
      · exact Or.inr (List.mem_cons_of_mem _ h)
    · split at h
      · obtain h | h := List.mem_cons.mp h
        · exact Or.inl h
        · exact Or.inr h
      · obtain h | h := List.mem_cons.mp h
        · exact Or.inr (by simp [h])
        · obtain h | h := ih h
          · exact Or.inl h
          · exact Or.inr (List.mem_cons_of_mem _ h)

/-- Setting a key of a canonical table keeps its canonical form. -/
theorem wf_tset [DecidableEq α] {d : Nat → α} {t : Tbl α} (i : Nat) (x : α) (h : t.wf d = true) :
    (tset (d i) t i x).wf d = true := by
  unfold Tbl.wf at h ⊢
  simp only [Bool.and_eq_true, List.all_eq_true, decide_eq_true_eq] at h ⊢
  unfold tset
  split
  · exact ⟨rising_filter _ h.1, fun p hp => h.2 p (List.mem_filter.mp hp).1⟩
  · rename_i hx
    refine ⟨rising_kput x h.1, fun p hp => ?_⟩
    obtain rfl | hp := mem_kput hp
    · exact hx
    · exact h.2 p hp

/-! ### Memories -/

/-- A byte written keeps the canonical form of a memory. -/
theorem wf_memSet {m : List Host.Cell} (a : Nat) (b : Byte) (h : Memory.wf m = true) :
    Memory.wf (memSet m a b) = true := wf_tset (d := fun _ => (0 : Byte)) a b h

/-- Bytes written keep the canonical form of a memory. -/
theorem wf_memWrite {m : List Host.Cell} (a : Nat) (bs : List Byte) (h : Memory.wf m = true) :
    Memory.wf (memWrite m a bs) = true := by
  induction bs generalizing m a with
  | nil => exact h
  | cons b bs ih => exact ih (a + 1) (wf_memSet a b h)

/-- The byte written is read back, and every other byte reads as before. -/
theorem memByte_memSet (m : List Host.Cell) (a x : Nat) (b : Byte) :
    memByte (memSet m a b) x = if x = a then b else memByte m x :=
  tget_tset 0 0 m a x b (Or.inl rfl)

/-- A byte outside the bytes written reads as before. -/
theorem memByte_memWrite_outside (m : List Host.Cell) (a x : Nat) (bs : List Byte)
    (h : x < a ∨ a + bs.length ≤ x) : memByte (memWrite m a bs) x = memByte m x := by
  induction bs generalizing m a with
  | nil => rfl
  | cons b bs ih =>
    simp only [List.length_cons] at h
    unfold memWrite
    rw [ih (memSet m a b) (a + 1) (by omega), memByte_memSet, if_neg (by omega)]

/-- A byte inside the bytes written reads as written. -/
theorem memByte_memWrite_inside (m : List Host.Cell) (a i : Nat) (bs : List Byte) (h : i < bs.length) :
    memByte (memWrite m a bs) (a + i) = bs.getD i 0 := by
  induction bs generalizing m a i with
  | nil => simp at h
  | cons b bs ih =>
    unfold memWrite
    cases i with
    | zero =>
      rw [memByte_memWrite_outside _ _ _ _ (by omega), memByte_memSet]
      simp
    | succ j =>
      have h' : j < bs.length := by simpa using h
      have e := ih (memSet m a b) (a + 1) j h'
      rw [show a + (j + 1) = a + 1 + j by omega, e]
      simp

/-! ### Stores -/

theorem loop_keeps {β γ : Type} (g : β → γ) (f : Nat → β → β) (h : ∀ i x, g (f i x) = g x) (n : Nat) (x : β) :
    g (loop n f x) = g x := by
  induction n with
  | zero => rfl
  | succ n ih => exact (h n _).trans ih

/-- A write to a store changes its bytes as a write to a memory does. -/
@[simp] theorem Store.write_cells (m : Store) (a : Nat) (bs : List Byte) (ps : List Bool) :
    (m.write a bs ps).cells = memWrite m.cells a bs := by
  unfold Store.write
  dsimp only
  split
  · rename_i h
    have : bs = [] := List.length_eq_zero_iff.mp h
    subst this
    rfl
  · refine (loop_keeps (fun (m : Store) => m.cells) _ (fun i m => ?_) _ _).trans rfl
    split
    · unfold Store.mark
      split <;> rfl
    · split <;> rfl

/-- A write keeps the canonical form of a store. -/
theorem Store.wf_write {m : Store} (a : Nat) (bs : List Byte) (ps : List Bool) (h : m.wf = true) :
    (m.write a bs ps).wf = true := by
  unfold Store.wf at h ⊢
  rw [Store.write_cells]
  exact wf_memWrite a bs h

theorem Store.wf_mark {m : Store} (k : Nat) (h : m.wf = true) : (m.mark k).wf = true := by
  unfold Store.mark
  split <;> exact h

end Sys2Proof.Machine
end

