-- ==== Sys2Proof/Laws/State.lean ====
section
/-! SUPPORT. What the shared updates of the block leave as it was: one lemma for each field and update. -/

namespace Sys2Proof.Machine

/-! ### Updates by a record -/

@[simp] theorem Block.wr_freeCtr (s : Block) (a : Nat) (v : Word) : (s.wr a v).freeCtr = s.freeCtr := (rfl)
@[simp] theorem Block.wr_latches (s : Block) (a : Nat) (v : Word) : (s.wr a v).latches = s.latches := (rfl)
@[simp] theorem Block.wr_fns (s : Block) (a : Nat) (v : Word) : (s.wr a v).fns = s.fns := (rfl)
@[simp] theorem Block.wr_mbx (s : Block) (a : Nat) (v : Word) : (s.wr a v).mbx = s.mbx := (rfl)
@[simp] theorem Block.wr_env (s : Block) (a : Nat) (v : Word) : (s.wr a v).env = s.env := (rfl)
@[simp] theorem Block.wr_led (s : Block) (a : Nat) (v : Word) : (s.wr a v).led = s.led := (rfl)
@[simp] theorem Block.wr_ice (s : Block) (a : Nat) (v : Word) : (s.wr a v).ice = s.ice := (rfl)
@[simp] theorem Block.wr_fw (s : Block) (a : Nat) (v : Word) : (s.wr a v).fw = s.fw := (rfl)
@[simp] theorem Block.wr_trust (s : Block) (a : Nat) (v : Word) : (s.wr a v).trust = s.trust := (rfl)
@[simp] theorem Block.wr_start (s : Block) (a : Nat) (v : Word) : (s.wr a v).start = s.start := (rfl)
@[simp] theorem Block.wr_clk (s : Block) (a : Nat) (v : Word) : (s.wr a v).clk = s.clk := (rfl)
@[simp] theorem Block.wr_pwr (s : Block) (a : Nat) (v : Word) : (s.wr a v).pwr = s.pwr := (rfl)
@[simp] theorem Block.wr_err (s : Block) (a : Nat) (v : Word) : (s.wr a v).err = s.err := (rfl)
@[simp] theorem Block.wr_parts (s : Block) (a : Nat) (v : Word) : (s.wr a v).parts = s.parts := (rfl)
@[simp] theorem Block.wr_objs (s : Block) (a : Nat) (v : Word) : (s.wr a v).objs = s.objs := (rfl)
@[simp] theorem Block.wr_bundles (s : Block) (a : Nat) (v : Word) : (s.wr a v).bundles = s.bundles := (rfl)
@[simp] theorem Block.wr_jobs (s : Block) (a : Nat) (v : Word) : (s.wr a v).jobs = s.jobs := (rfl)
@[simp] theorem Block.wr_nextJob (s : Block) (a : Nat) (v : Word) : (s.wr a v).nextJob = s.nextJob := (rfl)
@[simp] theorem Block.wr_sems (s : Block) (a : Nat) (v : Word) : (s.wr a v).sems = s.sems := (rfl)
@[simp] theorem Block.wr_clusters (s : Block) (a : Nat) (v : Word) : (s.wr a v).clusters = s.clusters := (rfl)
@[simp] theorem Block.wr_tiles (s : Block) (a : Nat) (v : Word) : (s.wr a v).tiles = s.tiles := (rfl)
@[simp] theorem Block.wr_msc (s : Block) (a : Nat) (v : Word) : (s.wr a v).msc = s.msc := (rfl)
@[simp] theorem Block.wr_firn (s : Block) (a : Nat) (v : Word) : (s.wr a v).firn = s.firn := (rfl)
@[simp] theorem Block.wr_snow (s : Block) (a : Nat) (v : Word) : (s.wr a v).snow = s.snow := (rfl)
@[simp] theorem Block.wr_serve (s : Block) (a : Nat) (v : Word) : (s.wr a v).serve = s.serve := (rfl)
@[simp] theorem Block.wr_reqs (s : Block) (a : Nat) (v : Word) : (s.wr a v).reqs = s.reqs := (rfl)
@[simp] theorem Block.wr_reqGens (s : Block) (a : Nat) (v : Word) : (s.wr a v).reqGens = s.reqGens := (rfl)
@[simp] theorem Block.wr_adapters (s : Block) (a : Nat) (v : Word) : (s.wr a v).adapters = s.adapters := (rfl)
@[simp] theorem Block.wr_esk (s : Block) (a : Nat) (v : Word) : (s.wr a v).esk = s.esk := (rfl)
@[simp] theorem Block.wr_beatAt (s : Block) (a : Nat) (v : Word) : (s.wr a v).beatAt = s.beatAt := (rfl)
@[simp] theorem Block.wr_lostAt (s : Block) (a : Nat) (v : Word) : (s.wr a v).lostAt = s.lostAt := (rfl)
@[simp] theorem Block.wr_lossUntold (s : Block) (a : Nat) (v : Word) : (s.wr a v).lossUntold = s.lossUntold := (rfl)
@[simp] theorem Block.wr_vOwed (s : Block) (a : Nat) (v : Word) : (s.wr a v).vOwed = s.vOwed := (rfl)

@[simp] theorem Block.wf_freeCtr (s : Block) (a hi lo v : Nat) : (s.wf a hi lo v).freeCtr = s.freeCtr := (rfl)
@[simp] theorem Block.wf_latches (s : Block) (a hi lo v : Nat) : (s.wf a hi lo v).latches = s.latches := (rfl)
@[simp] theorem Block.wf_fns (s : Block) (a hi lo v : Nat) : (s.wf a hi lo v).fns = s.fns := (rfl)
@[simp] theorem Block.wf_mbx (s : Block) (a hi lo v : Nat) : (s.wf a hi lo v).mbx = s.mbx := (rfl)
@[simp] theorem Block.wf_env (s : Block) (a hi lo v : Nat) : (s.wf a hi lo v).env = s.env := (rfl)
@[simp] theorem Block.wf_led (s : Block) (a hi lo v : Nat) : (s.wf a hi lo v).led = s.led := (rfl)
@[simp] theorem Block.wf_ice (s : Block) (a hi lo v : Nat) : (s.wf a hi lo v).ice = s.ice := (rfl)
@[simp] theorem Block.wf_fw (s : Block) (a hi lo v : Nat) : (s.wf a hi lo v).fw = s.fw := (rfl)
@[simp] theorem Block.wf_trust (s : Block) (a hi lo v : Nat) : (s.wf a hi lo v).trust = s.trust := (rfl)
@[simp] theorem Block.wf_start (s : Block) (a hi lo v : Nat) : (s.wf a hi lo v).start = s.start := (rfl)
@[simp] theorem Block.wf_clk (s : Block) (a hi lo v : Nat) : (s.wf a hi lo v).clk = s.clk := (rfl)
@[simp] theorem Block.wf_pwr (s : Block) (a hi lo v : Nat) : (s.wf a hi lo v).pwr = s.pwr := (rfl)
@[simp] theorem Block.wf_err (s : Block) (a hi lo v : Nat) : (s.wf a hi lo v).err = s.err := (rfl)
@[simp] theorem Block.wf_parts (s : Block) (a hi lo v : Nat) : (s.wf a hi lo v).parts = s.parts := (rfl)
@[simp] theorem Block.wf_objs (s : Block) (a hi lo v : Nat) : (s.wf a hi lo v).objs = s.objs := (rfl)
@[simp] theorem Block.wf_bundles (s : Block) (a hi lo v : Nat) : (s.wf a hi lo v).bundles = s.bundles := (rfl)
@[simp] theorem Block.wf_jobs (s : Block) (a hi lo v : Nat) : (s.wf a hi lo v).jobs = s.jobs := (rfl)
@[simp] theorem Block.wf_nextJob (s : Block) (a hi lo v : Nat) : (s.wf a hi lo v).nextJob = s.nextJob := (rfl)
@[simp] theorem Block.wf_sems (s : Block) (a hi lo v : Nat) : (s.wf a hi lo v).sems = s.sems := (rfl)
@[simp] theorem Block.wf_clusters (s : Block) (a hi lo v : Nat) : (s.wf a hi lo v).clusters = s.clusters := (rfl)
@[simp] theorem Block.wf_tiles (s : Block) (a hi lo v : Nat) : (s.wf a hi lo v).tiles = s.tiles := (rfl)
@[simp] theorem Block.wf_msc (s : Block) (a hi lo v : Nat) : (s.wf a hi lo v).msc = s.msc := (rfl)
@[simp] theorem Block.wf_firn (s : Block) (a hi lo v : Nat) : (s.wf a hi lo v).firn = s.firn := (rfl)
@[simp] theorem Block.wf_snow (s : Block) (a hi lo v : Nat) : (s.wf a hi lo v).snow = s.snow := (rfl)
@[simp] theorem Block.wf_serve (s : Block) (a hi lo v : Nat) : (s.wf a hi lo v).serve = s.serve := (rfl)
@[simp] theorem Block.wf_reqs (s : Block) (a hi lo v : Nat) : (s.wf a hi lo v).reqs = s.reqs := (rfl)
@[simp] theorem Block.wf_reqGens (s : Block) (a hi lo v : Nat) : (s.wf a hi lo v).reqGens = s.reqGens := (rfl)
@[simp] theorem Block.wf_adapters (s : Block) (a hi lo v : Nat) : (s.wf a hi lo v).adapters = s.adapters := (rfl)
@[simp] theorem Block.wf_esk (s : Block) (a hi lo v : Nat) : (s.wf a hi lo v).esk = s.esk := (rfl)
@[simp] theorem Block.wf_beatAt (s : Block) (a hi lo v : Nat) : (s.wf a hi lo v).beatAt = s.beatAt := (rfl)
@[simp] theorem Block.wf_lostAt (s : Block) (a hi lo v : Nat) : (s.wf a hi lo v).lostAt = s.lostAt := (rfl)
@[simp] theorem Block.wf_lossUntold (s : Block) (a hi lo v : Nat) : (s.wf a hi lo v).lossUntold = s.lossUntold := (rfl)
@[simp] theorem Block.wf_vOwed (s : Block) (a hi lo v : Nat) : (s.wf a hi lo v).vOwed = s.vOwed := (rfl)

@[simp] theorem Block.wb_freeCtr (s : Block) (a i : Nat) (v : Bool) : (s.wb a i v).freeCtr = s.freeCtr := (rfl)
@[simp] theorem Block.wb_latches (s : Block) (a i : Nat) (v : Bool) : (s.wb a i v).latches = s.latches := (rfl)
@[simp] theorem Block.wb_fns (s : Block) (a i : Nat) (v : Bool) : (s.wb a i v).fns = s.fns := (rfl)
@[simp] theorem Block.wb_mbx (s : Block) (a i : Nat) (v : Bool) : (s.wb a i v).mbx = s.mbx := (rfl)
@[simp] theorem Block.wb_env (s : Block) (a i : Nat) (v : Bool) : (s.wb a i v).env = s.env := (rfl)
@[simp] theorem Block.wb_led (s : Block) (a i : Nat) (v : Bool) : (s.wb a i v).led = s.led := (rfl)
@[simp] theorem Block.wb_ice (s : Block) (a i : Nat) (v : Bool) : (s.wb a i v).ice = s.ice := (rfl)
@[simp] theorem Block.wb_fw (s : Block) (a i : Nat) (v : Bool) : (s.wb a i v).fw = s.fw := (rfl)
@[simp] theorem Block.wb_trust (s : Block) (a i : Nat) (v : Bool) : (s.wb a i v).trust = s.trust := (rfl)
@[simp] theorem Block.wb_start (s : Block) (a i : Nat) (v : Bool) : (s.wb a i v).start = s.start := (rfl)
@[simp] theorem Block.wb_clk (s : Block) (a i : Nat) (v : Bool) : (s.wb a i v).clk = s.clk := (rfl)
@[simp] theorem Block.wb_pwr (s : Block) (a i : Nat) (v : Bool) : (s.wb a i v).pwr = s.pwr := (rfl)
@[simp] theorem Block.wb_err (s : Block) (a i : Nat) (v : Bool) : (s.wb a i v).err = s.err := (rfl)
@[simp] theorem Block.wb_parts (s : Block) (a i : Nat) (v : Bool) : (s.wb a i v).parts = s.parts := (rfl)
@[simp] theorem Block.wb_objs (s : Block) (a i : Nat) (v : Bool) : (s.wb a i v).objs = s.objs := (rfl)
@[simp] theorem Block.wb_bundles (s : Block) (a i : Nat) (v : Bool) : (s.wb a i v).bundles = s.bundles := (rfl)
@[simp] theorem Block.wb_jobs (s : Block) (a i : Nat) (v : Bool) : (s.wb a i v).jobs = s.jobs := (rfl)
@[simp] theorem Block.wb_nextJob (s : Block) (a i : Nat) (v : Bool) : (s.wb a i v).nextJob = s.nextJob := (rfl)
@[simp] theorem Block.wb_sems (s : Block) (a i : Nat) (v : Bool) : (s.wb a i v).sems = s.sems := (rfl)
@[simp] theorem Block.wb_clusters (s : Block) (a i : Nat) (v : Bool) : (s.wb a i v).clusters = s.clusters := (rfl)
@[simp] theorem Block.wb_tiles (s : Block) (a i : Nat) (v : Bool) : (s.wb a i v).tiles = s.tiles := (rfl)
@[simp] theorem Block.wb_msc (s : Block) (a i : Nat) (v : Bool) : (s.wb a i v).msc = s.msc := (rfl)
@[simp] theorem Block.wb_firn (s : Block) (a i : Nat) (v : Bool) : (s.wb a i v).firn = s.firn := (rfl)
@[simp] theorem Block.wb_snow (s : Block) (a i : Nat) (v : Bool) : (s.wb a i v).snow = s.snow := (rfl)
@[simp] theorem Block.wb_serve (s : Block) (a i : Nat) (v : Bool) : (s.wb a i v).serve = s.serve := (rfl)
@[simp] theorem Block.wb_reqs (s : Block) (a i : Nat) (v : Bool) : (s.wb a i v).reqs = s.reqs := (rfl)
@[simp] theorem Block.wb_reqGens (s : Block) (a i : Nat) (v : Bool) : (s.wb a i v).reqGens = s.reqGens := (rfl)
@[simp] theorem Block.wb_adapters (s : Block) (a i : Nat) (v : Bool) : (s.wb a i v).adapters = s.adapters := (rfl)
@[simp] theorem Block.wb_esk (s : Block) (a i : Nat) (v : Bool) : (s.wb a i v).esk = s.esk := (rfl)
@[simp] theorem Block.wb_beatAt (s : Block) (a i : Nat) (v : Bool) : (s.wb a i v).beatAt = s.beatAt := (rfl)
@[simp] theorem Block.wb_lostAt (s : Block) (a i : Nat) (v : Bool) : (s.wb a i v).lostAt = s.lostAt := (rfl)
@[simp] theorem Block.wb_lossUntold (s : Block) (a i : Nat) (v : Bool) : (s.wb a i v).lossUntold = s.lossUntold := (rfl)
@[simp] theorem Block.wb_vOwed (s : Block) (a i : Nat) (v : Bool) : (s.wb a i v).vOwed = s.vOwed := (rfl)

@[simp] theorem Block.bump_freeCtr (s : Block) (a n : Nat) : (s.bump a n).freeCtr = s.freeCtr := (rfl)
@[simp] theorem Block.bump_latches (s : Block) (a n : Nat) : (s.bump a n).latches = s.latches := (rfl)
@[simp] theorem Block.bump_fns (s : Block) (a n : Nat) : (s.bump a n).fns = s.fns := (rfl)
@[simp] theorem Block.bump_mbx (s : Block) (a n : Nat) : (s.bump a n).mbx = s.mbx := (rfl)
@[simp] theorem Block.bump_env (s : Block) (a n : Nat) : (s.bump a n).env = s.env := (rfl)
@[simp] theorem Block.bump_led (s : Block) (a n : Nat) : (s.bump a n).led = s.led := (rfl)
@[simp] theorem Block.bump_ice (s : Block) (a n : Nat) : (s.bump a n).ice = s.ice := (rfl)
@[simp] theorem Block.bump_fw (s : Block) (a n : Nat) : (s.bump a n).fw = s.fw := (rfl)
@[simp] theorem Block.bump_trust (s : Block) (a n : Nat) : (s.bump a n).trust = s.trust := (rfl)
@[simp] theorem Block.bump_start (s : Block) (a n : Nat) : (s.bump a n).start = s.start := (rfl)
@[simp] theorem Block.bump_clk (s : Block) (a n : Nat) : (s.bump a n).clk = s.clk := (rfl)
@[simp] theorem Block.bump_pwr (s : Block) (a n : Nat) : (s.bump a n).pwr = s.pwr := (rfl)
@[simp] theorem Block.bump_err (s : Block) (a n : Nat) : (s.bump a n).err = s.err := (rfl)
@[simp] theorem Block.bump_parts (s : Block) (a n : Nat) : (s.bump a n).parts = s.parts := (rfl)
@[simp] theorem Block.bump_objs (s : Block) (a n : Nat) : (s.bump a n).objs = s.objs := (rfl)
@[simp] theorem Block.bump_bundles (s : Block) (a n : Nat) : (s.bump a n).bundles = s.bundles := (rfl)
@[simp] theorem Block.bump_jobs (s : Block) (a n : Nat) : (s.bump a n).jobs = s.jobs := (rfl)
@[simp] theorem Block.bump_nextJob (s : Block) (a n : Nat) : (s.bump a n).nextJob = s.nextJob := (rfl)
@[simp] theorem Block.bump_sems (s : Block) (a n : Nat) : (s.bump a n).sems = s.sems := (rfl)
@[simp] theorem Block.bump_clusters (s : Block) (a n : Nat) : (s.bump a n).clusters = s.clusters := (rfl)
@[simp] theorem Block.bump_tiles (s : Block) (a n : Nat) : (s.bump a n).tiles = s.tiles := (rfl)
@[simp] theorem Block.bump_msc (s : Block) (a n : Nat) : (s.bump a n).msc = s.msc := (rfl)
@[simp] theorem Block.bump_firn (s : Block) (a n : Nat) : (s.bump a n).firn = s.firn := (rfl)
@[simp] theorem Block.bump_snow (s : Block) (a n : Nat) : (s.bump a n).snow = s.snow := (rfl)
@[simp] theorem Block.bump_serve (s : Block) (a n : Nat) : (s.bump a n).serve = s.serve := (rfl)
@[simp] theorem Block.bump_reqs (s : Block) (a n : Nat) : (s.bump a n).reqs = s.reqs := (rfl)
@[simp] theorem Block.bump_reqGens (s : Block) (a n : Nat) : (s.bump a n).reqGens = s.reqGens := (rfl)
@[simp] theorem Block.bump_adapters (s : Block) (a n : Nat) : (s.bump a n).adapters = s.adapters := (rfl)
@[simp] theorem Block.bump_esk (s : Block) (a n : Nat) : (s.bump a n).esk = s.esk := (rfl)
@[simp] theorem Block.bump_beatAt (s : Block) (a n : Nat) : (s.bump a n).beatAt = s.beatAt := (rfl)
@[simp] theorem Block.bump_lostAt (s : Block) (a n : Nat) : (s.bump a n).lostAt = s.lostAt := (rfl)
@[simp] theorem Block.bump_lossUntold (s : Block) (a n : Nat) : (s.bump a n).lossUntold = s.lossUntold := (rfl)
@[simp] theorem Block.bump_vOwed (s : Block) (a n : Nat) : (s.bump a n).vOwed = s.vOwed := (rfl)

@[simp] theorem Block.bumpFld_freeCtr (s : Block) (a hi lo n : Nat) : (s.bumpFld a hi lo n).freeCtr = s.freeCtr := (rfl)
@[simp] theorem Block.bumpFld_latches (s : Block) (a hi lo n : Nat) : (s.bumpFld a hi lo n).latches = s.latches := (rfl)
@[simp] theorem Block.bumpFld_fns (s : Block) (a hi lo n : Nat) : (s.bumpFld a hi lo n).fns = s.fns := (rfl)
@[simp] theorem Block.bumpFld_mbx (s : Block) (a hi lo n : Nat) : (s.bumpFld a hi lo n).mbx = s.mbx := (rfl)
@[simp] theorem Block.bumpFld_env (s : Block) (a hi lo n : Nat) : (s.bumpFld a hi lo n).env = s.env := (rfl)
@[simp] theorem Block.bumpFld_led (s : Block) (a hi lo n : Nat) : (s.bumpFld a hi lo n).led = s.led := (rfl)
@[simp] theorem Block.bumpFld_ice (s : Block) (a hi lo n : Nat) : (s.bumpFld a hi lo n).ice = s.ice := (rfl)
@[simp] theorem Block.bumpFld_fw (s : Block) (a hi lo n : Nat) : (s.bumpFld a hi lo n).fw = s.fw := (rfl)
@[simp] theorem Block.bumpFld_trust (s : Block) (a hi lo n : Nat) : (s.bumpFld a hi lo n).trust = s.trust := (rfl)
@[simp] theorem Block.bumpFld_start (s : Block) (a hi lo n : Nat) : (s.bumpFld a hi lo n).start = s.start := (rfl)
@[simp] theorem Block.bumpFld_clk (s : Block) (a hi lo n : Nat) : (s.bumpFld a hi lo n).clk = s.clk := (rfl)
@[simp] theorem Block.bumpFld_pwr (s : Block) (a hi lo n : Nat) : (s.bumpFld a hi lo n).pwr = s.pwr := (rfl)
@[simp] theorem Block.bumpFld_err (s : Block) (a hi lo n : Nat) : (s.bumpFld a hi lo n).err = s.err := (rfl)
@[simp] theorem Block.bumpFld_parts (s : Block) (a hi lo n : Nat) : (s.bumpFld a hi lo n).parts = s.parts := (rfl)
@[simp] theorem Block.bumpFld_objs (s : Block) (a hi lo n : Nat) : (s.bumpFld a hi lo n).objs = s.objs := (rfl)
@[simp] theorem Block.bumpFld_bundles (s : Block) (a hi lo n : Nat) : (s.bumpFld a hi lo n).bundles = s.bundles := (rfl)
@[simp] theorem Block.bumpFld_jobs (s : Block) (a hi lo n : Nat) : (s.bumpFld a hi lo n).jobs = s.jobs := (rfl)
@[simp] theorem Block.bumpFld_nextJob (s : Block) (a hi lo n : Nat) : (s.bumpFld a hi lo n).nextJob = s.nextJob := (rfl)
@[simp] theorem Block.bumpFld_sems (s : Block) (a hi lo n : Nat) : (s.bumpFld a hi lo n).sems = s.sems := (rfl)
@[simp] theorem Block.bumpFld_clusters (s : Block) (a hi lo n : Nat) : (s.bumpFld a hi lo n).clusters = s.clusters := (rfl)
@[simp] theorem Block.bumpFld_tiles (s : Block) (a hi lo n : Nat) : (s.bumpFld a hi lo n).tiles = s.tiles := (rfl)
@[simp] theorem Block.bumpFld_msc (s : Block) (a hi lo n : Nat) : (s.bumpFld a hi lo n).msc = s.msc := (rfl)
@[simp] theorem Block.bumpFld_firn (s : Block) (a hi lo n : Nat) : (s.bumpFld a hi lo n).firn = s.firn := (rfl)
@[simp] theorem Block.bumpFld_snow (s : Block) (a hi lo n : Nat) : (s.bumpFld a hi lo n).snow = s.snow := (rfl)
@[simp] theorem Block.bumpFld_serve (s : Block) (a hi lo n : Nat) : (s.bumpFld a hi lo n).serve = s.serve := (rfl)
@[simp] theorem Block.bumpFld_reqs (s : Block) (a hi lo n : Nat) : (s.bumpFld a hi lo n).reqs = s.reqs := (rfl)
@[simp] theorem Block.bumpFld_reqGens (s : Block) (a hi lo n : Nat) : (s.bumpFld a hi lo n).reqGens = s.reqGens := (rfl)
@[simp] theorem Block.bumpFld_adapters (s : Block) (a hi lo n : Nat) : (s.bumpFld a hi lo n).adapters = s.adapters := (rfl)
@[simp] theorem Block.bumpFld_esk (s : Block) (a hi lo n : Nat) : (s.bumpFld a hi lo n).esk = s.esk := (rfl)
@[simp] theorem Block.bumpFld_beatAt (s : Block) (a hi lo n : Nat) : (s.bumpFld a hi lo n).beatAt = s.beatAt := (rfl)
@[simp] theorem Block.bumpFld_lostAt (s : Block) (a hi lo n : Nat) : (s.bumpFld a hi lo n).lostAt = s.lostAt := (rfl)
@[simp] theorem Block.bumpFld_lossUntold (s : Block) (a hi lo n : Nat) : (s.bumpFld a hi lo n).lossUntold = s.lossUntold := (rfl)
@[simp] theorem Block.bumpFld_vOwed (s : Block) (a hi lo n : Nat) : (s.bumpFld a hi lo n).vOwed = s.vOwed := (rfl)

@[simp] theorem Block.setPair_freeCtr (s : Block) (lo v : Nat) : (s.setPair lo v).freeCtr = s.freeCtr := (rfl)
@[simp] theorem Block.setPair_latches (s : Block) (lo v : Nat) : (s.setPair lo v).latches = s.latches := (rfl)
@[simp] theorem Block.setPair_fns (s : Block) (lo v : Nat) : (s.setPair lo v).fns = s.fns := (rfl)
@[simp] theorem Block.setPair_mbx (s : Block) (lo v : Nat) : (s.setPair lo v).mbx = s.mbx := (rfl)
@[simp] theorem Block.setPair_env (s : Block) (lo v : Nat) : (s.setPair lo v).env = s.env := (rfl)
@[simp] theorem Block.setPair_led (s : Block) (lo v : Nat) : (s.setPair lo v).led = s.led := (rfl)
@[simp] theorem Block.setPair_ice (s : Block) (lo v : Nat) : (s.setPair lo v).ice = s.ice := (rfl)
@[simp] theorem Block.setPair_fw (s : Block) (lo v : Nat) : (s.setPair lo v).fw = s.fw := (rfl)
@[simp] theorem Block.setPair_trust (s : Block) (lo v : Nat) : (s.setPair lo v).trust = s.trust := (rfl)
@[simp] theorem Block.setPair_start (s : Block) (lo v : Nat) : (s.setPair lo v).start = s.start := (rfl)
@[simp] theorem Block.setPair_clk (s : Block) (lo v : Nat) : (s.setPair lo v).clk = s.clk := (rfl)
@[simp] theorem Block.setPair_pwr (s : Block) (lo v : Nat) : (s.setPair lo v).pwr = s.pwr := (rfl)
@[simp] theorem Block.setPair_err (s : Block) (lo v : Nat) : (s.setPair lo v).err = s.err := (rfl)
@[simp] theorem Block.setPair_parts (s : Block) (lo v : Nat) : (s.setPair lo v).parts = s.parts := (rfl)
@[simp] theorem Block.setPair_objs (s : Block) (lo v : Nat) : (s.setPair lo v).objs = s.objs := (rfl)
@[simp] theorem Block.setPair_bundles (s : Block) (lo v : Nat) : (s.setPair lo v).bundles = s.bundles := (rfl)
@[simp] theorem Block.setPair_jobs (s : Block) (lo v : Nat) : (s.setPair lo v).jobs = s.jobs := (rfl)
@[simp] theorem Block.setPair_nextJob (s : Block) (lo v : Nat) : (s.setPair lo v).nextJob = s.nextJob := (rfl)
@[simp] theorem Block.setPair_sems (s : Block) (lo v : Nat) : (s.setPair lo v).sems = s.sems := (rfl)
@[simp] theorem Block.setPair_clusters (s : Block) (lo v : Nat) : (s.setPair lo v).clusters = s.clusters := (rfl)
@[simp] theorem Block.setPair_tiles (s : Block) (lo v : Nat) : (s.setPair lo v).tiles = s.tiles := (rfl)
@[simp] theorem Block.setPair_msc (s : Block) (lo v : Nat) : (s.setPair lo v).msc = s.msc := (rfl)
@[simp] theorem Block.setPair_firn (s : Block) (lo v : Nat) : (s.setPair lo v).firn = s.firn := (rfl)
@[simp] theorem Block.setPair_snow (s : Block) (lo v : Nat) : (s.setPair lo v).snow = s.snow := (rfl)
@[simp] theorem Block.setPair_serve (s : Block) (lo v : Nat) : (s.setPair lo v).serve = s.serve := (rfl)
@[simp] theorem Block.setPair_reqs (s : Block) (lo v : Nat) : (s.setPair lo v).reqs = s.reqs := (rfl)
@[simp] theorem Block.setPair_reqGens (s : Block) (lo v : Nat) : (s.setPair lo v).reqGens = s.reqGens := (rfl)
@[simp] theorem Block.setPair_adapters (s : Block) (lo v : Nat) : (s.setPair lo v).adapters = s.adapters := (rfl)
@[simp] theorem Block.setPair_esk (s : Block) (lo v : Nat) : (s.setPair lo v).esk = s.esk := (rfl)
@[simp] theorem Block.setPair_beatAt (s : Block) (lo v : Nat) : (s.setPair lo v).beatAt = s.beatAt := (rfl)
@[simp] theorem Block.setPair_lostAt (s : Block) (lo v : Nat) : (s.setPair lo v).lostAt = s.lostAt := (rfl)
@[simp] theorem Block.setPair_lossUntold (s : Block) (lo v : Nat) : (s.setPair lo v).lossUntold = s.lossUntold := (rfl)
@[simp] theorem Block.setPair_vOwed (s : Block) (lo v : Nat) : (s.setPair lo v).vOwed = s.vOwed := (rfl)

@[simp] theorem Block.bumpPair_freeCtr (s : Block) (lo n : Nat) : (s.bumpPair lo n).freeCtr = s.freeCtr := (rfl)
@[simp] theorem Block.bumpPair_latches (s : Block) (lo n : Nat) : (s.bumpPair lo n).latches = s.latches := (rfl)
@[simp] theorem Block.bumpPair_fns (s : Block) (lo n : Nat) : (s.bumpPair lo n).fns = s.fns := (rfl)
@[simp] theorem Block.bumpPair_mbx (s : Block) (lo n : Nat) : (s.bumpPair lo n).mbx = s.mbx := (rfl)
@[simp] theorem Block.bumpPair_env (s : Block) (lo n : Nat) : (s.bumpPair lo n).env = s.env := (rfl)
@[simp] theorem Block.bumpPair_led (s : Block) (lo n : Nat) : (s.bumpPair lo n).led = s.led := (rfl)
@[simp] theorem Block.bumpPair_ice (s : Block) (lo n : Nat) : (s.bumpPair lo n).ice = s.ice := (rfl)
@[simp] theorem Block.bumpPair_fw (s : Block) (lo n : Nat) : (s.bumpPair lo n).fw = s.fw := (rfl)
@[simp] theorem Block.bumpPair_trust (s : Block) (lo n : Nat) : (s.bumpPair lo n).trust = s.trust := (rfl)
@[simp] theorem Block.bumpPair_start (s : Block) (lo n : Nat) : (s.bumpPair lo n).start = s.start := (rfl)
@[simp] theorem Block.bumpPair_clk (s : Block) (lo n : Nat) : (s.bumpPair lo n).clk = s.clk := (rfl)
@[simp] theorem Block.bumpPair_pwr (s : Block) (lo n : Nat) : (s.bumpPair lo n).pwr = s.pwr := (rfl)
@[simp] theorem Block.bumpPair_err (s : Block) (lo n : Nat) : (s.bumpPair lo n).err = s.err := (rfl)
@[simp] theorem Block.bumpPair_parts (s : Block) (lo n : Nat) : (s.bumpPair lo n).parts = s.parts := (rfl)
@[simp] theorem Block.bumpPair_objs (s : Block) (lo n : Nat) : (s.bumpPair lo n).objs = s.objs := (rfl)
@[simp] theorem Block.bumpPair_bundles (s : Block) (lo n : Nat) : (s.bumpPair lo n).bundles = s.bundles := (rfl)
@[simp] theorem Block.bumpPair_jobs (s : Block) (lo n : Nat) : (s.bumpPair lo n).jobs = s.jobs := (rfl)
@[simp] theorem Block.bumpPair_nextJob (s : Block) (lo n : Nat) : (s.bumpPair lo n).nextJob = s.nextJob := (rfl)
@[simp] theorem Block.bumpPair_sems (s : Block) (lo n : Nat) : (s.bumpPair lo n).sems = s.sems := (rfl)
@[simp] theorem Block.bumpPair_clusters (s : Block) (lo n : Nat) : (s.bumpPair lo n).clusters = s.clusters := (rfl)
@[simp] theorem Block.bumpPair_tiles (s : Block) (lo n : Nat) : (s.bumpPair lo n).tiles = s.tiles := (rfl)
@[simp] theorem Block.bumpPair_msc (s : Block) (lo n : Nat) : (s.bumpPair lo n).msc = s.msc := (rfl)
@[simp] theorem Block.bumpPair_firn (s : Block) (lo n : Nat) : (s.bumpPair lo n).firn = s.firn := (rfl)
@[simp] theorem Block.bumpPair_snow (s : Block) (lo n : Nat) : (s.bumpPair lo n).snow = s.snow := (rfl)
@[simp] theorem Block.bumpPair_serve (s : Block) (lo n : Nat) : (s.bumpPair lo n).serve = s.serve := (rfl)
@[simp] theorem Block.bumpPair_reqs (s : Block) (lo n : Nat) : (s.bumpPair lo n).reqs = s.reqs := (rfl)
@[simp] theorem Block.bumpPair_reqGens (s : Block) (lo n : Nat) : (s.bumpPair lo n).reqGens = s.reqGens := (rfl)
@[simp] theorem Block.bumpPair_adapters (s : Block) (lo n : Nat) : (s.bumpPair lo n).adapters = s.adapters := (rfl)
@[simp] theorem Block.bumpPair_esk (s : Block) (lo n : Nat) : (s.bumpPair lo n).esk = s.esk := (rfl)
@[simp] theorem Block.bumpPair_beatAt (s : Block) (lo n : Nat) : (s.bumpPair lo n).beatAt = s.beatAt := (rfl)
@[simp] theorem Block.bumpPair_lostAt (s : Block) (lo n : Nat) : (s.bumpPair lo n).lostAt = s.lostAt := (rfl)
@[simp] theorem Block.bumpPair_lossUntold (s : Block) (lo n : Nat) : (s.bumpPair lo n).lossUntold = s.lossUntold := (rfl)
@[simp] theorem Block.bumpPair_vOwed (s : Block) (lo n : Nat) : (s.bumpPair lo n).vOwed = s.vOwed := (rfl)

@[simp] theorem Block.drawn_regs (s : Block)  : (s.drawn).regs = s.regs := (rfl)
@[simp] theorem Block.drawn_latches (s : Block)  : (s.drawn).latches = s.latches := (rfl)
@[simp] theorem Block.drawn_fns (s : Block)  : (s.drawn).fns = s.fns := (rfl)
@[simp] theorem Block.drawn_mbx (s : Block)  : (s.drawn).mbx = s.mbx := (rfl)
@[simp] theorem Block.drawn_env (s : Block)  : (s.drawn).env = s.env := (rfl)
@[simp] theorem Block.drawn_led (s : Block)  : (s.drawn).led = s.led := (rfl)
@[simp] theorem Block.drawn_ice (s : Block)  : (s.drawn).ice = s.ice := (rfl)
@[simp] theorem Block.drawn_fw (s : Block)  : (s.drawn).fw = s.fw := (rfl)
@[simp] theorem Block.drawn_trust (s : Block)  : (s.drawn).trust = s.trust := (rfl)
@[simp] theorem Block.drawn_start (s : Block)  : (s.drawn).start = s.start := (rfl)
@[simp] theorem Block.drawn_clk (s : Block)  : (s.drawn).clk = s.clk := (rfl)
@[simp] theorem Block.drawn_pwr (s : Block)  : (s.drawn).pwr = s.pwr := (rfl)
@[simp] theorem Block.drawn_err (s : Block)  : (s.drawn).err = s.err := (rfl)
@[simp] theorem Block.drawn_parts (s : Block)  : (s.drawn).parts = s.parts := (rfl)
@[simp] theorem Block.drawn_objs (s : Block)  : (s.drawn).objs = s.objs := (rfl)
@[simp] theorem Block.drawn_bundles (s : Block)  : (s.drawn).bundles = s.bundles := (rfl)
@[simp] theorem Block.drawn_jobs (s : Block)  : (s.drawn).jobs = s.jobs := (rfl)
@[simp] theorem Block.drawn_nextJob (s : Block)  : (s.drawn).nextJob = s.nextJob := (rfl)
@[simp] theorem Block.drawn_sems (s : Block)  : (s.drawn).sems = s.sems := (rfl)
@[simp] theorem Block.drawn_clusters (s : Block)  : (s.drawn).clusters = s.clusters := (rfl)
@[simp] theorem Block.drawn_tiles (s : Block)  : (s.drawn).tiles = s.tiles := (rfl)
@[simp] theorem Block.drawn_msc (s : Block)  : (s.drawn).msc = s.msc := (rfl)
@[simp] theorem Block.drawn_firn (s : Block)  : (s.drawn).firn = s.firn := (rfl)
@[simp] theorem Block.drawn_snow (s : Block)  : (s.drawn).snow = s.snow := (rfl)
@[simp] theorem Block.drawn_serve (s : Block)  : (s.drawn).serve = s.serve := (rfl)
@[simp] theorem Block.drawn_reqs (s : Block)  : (s.drawn).reqs = s.reqs := (rfl)
@[simp] theorem Block.drawn_reqGens (s : Block)  : (s.drawn).reqGens = s.reqGens := (rfl)
@[simp] theorem Block.drawn_adapters (s : Block)  : (s.drawn).adapters = s.adapters := (rfl)
@[simp] theorem Block.drawn_esk (s : Block)  : (s.drawn).esk = s.esk := (rfl)
@[simp] theorem Block.drawn_beatAt (s : Block)  : (s.drawn).beatAt = s.beatAt := (rfl)
@[simp] theorem Block.drawn_lostAt (s : Block)  : (s.drawn).lostAt = s.lostAt := (rfl)
@[simp] theorem Block.drawn_lossUntold (s : Block)  : (s.drawn).lossUntold = s.lossUntold := (rfl)
@[simp] theorem Block.drawn_vOwed (s : Block)  : (s.drawn).vOwed = s.vOwed := (rfl)

@[simp] theorem Block.ledRenew_freeCtr (s : Block) (n t : Nat) : (s.ledRenew n t).freeCtr = s.freeCtr := (rfl)
@[simp] theorem Block.ledRenew_regs (s : Block) (n t : Nat) : (s.ledRenew n t).regs = s.regs := (rfl)
@[simp] theorem Block.ledRenew_latches (s : Block) (n t : Nat) : (s.ledRenew n t).latches = s.latches := (rfl)
@[simp] theorem Block.ledRenew_fns (s : Block) (n t : Nat) : (s.ledRenew n t).fns = s.fns := (rfl)
@[simp] theorem Block.ledRenew_mbx (s : Block) (n t : Nat) : (s.ledRenew n t).mbx = s.mbx := (rfl)
@[simp] theorem Block.ledRenew_env (s : Block) (n t : Nat) : (s.ledRenew n t).env = s.env := (rfl)
@[simp] theorem Block.ledRenew_ice (s : Block) (n t : Nat) : (s.ledRenew n t).ice = s.ice := (rfl)
@[simp] theorem Block.ledRenew_fw (s : Block) (n t : Nat) : (s.ledRenew n t).fw = s.fw := (rfl)
@[simp] theorem Block.ledRenew_trust (s : Block) (n t : Nat) : (s.ledRenew n t).trust = s.trust := (rfl)
@[simp] theorem Block.ledRenew_start (s : Block) (n t : Nat) : (s.ledRenew n t).start = s.start := (rfl)
@[simp] theorem Block.ledRenew_clk (s : Block) (n t : Nat) : (s.ledRenew n t).clk = s.clk := (rfl)
@[simp] theorem Block.ledRenew_pwr (s : Block) (n t : Nat) : (s.ledRenew n t).pwr = s.pwr := (rfl)
@[simp] theorem Block.ledRenew_err (s : Block) (n t : Nat) : (s.ledRenew n t).err = s.err := (rfl)
@[simp] theorem Block.ledRenew_parts (s : Block) (n t : Nat) : (s.ledRenew n t).parts = s.parts := (rfl)
@[simp] theorem Block.ledRenew_objs (s : Block) (n t : Nat) : (s.ledRenew n t).objs = s.objs := (rfl)
@[simp] theorem Block.ledRenew_bundles (s : Block) (n t : Nat) : (s.ledRenew n t).bundles = s.bundles := (rfl)
@[simp] theorem Block.ledRenew_jobs (s : Block) (n t : Nat) : (s.ledRenew n t).jobs = s.jobs := (rfl)
@[simp] theorem Block.ledRenew_nextJob (s : Block) (n t : Nat) : (s.ledRenew n t).nextJob = s.nextJob := (rfl)
@[simp] theorem Block.ledRenew_sems (s : Block) (n t : Nat) : (s.ledRenew n t).sems = s.sems := (rfl)
@[simp] theorem Block.ledRenew_clusters (s : Block) (n t : Nat) : (s.ledRenew n t).clusters = s.clusters := (rfl)
@[simp] theorem Block.ledRenew_tiles (s : Block) (n t : Nat) : (s.ledRenew n t).tiles = s.tiles := (rfl)
@[simp] theorem Block.ledRenew_msc (s : Block) (n t : Nat) : (s.ledRenew n t).msc = s.msc := (rfl)
@[simp] theorem Block.ledRenew_firn (s : Block) (n t : Nat) : (s.ledRenew n t).firn = s.firn := (rfl)
@[simp] theorem Block.ledRenew_snow (s : Block) (n t : Nat) : (s.ledRenew n t).snow = s.snow := (rfl)
@[simp] theorem Block.ledRenew_serve (s : Block) (n t : Nat) : (s.ledRenew n t).serve = s.serve := (rfl)
@[simp] theorem Block.ledRenew_reqs (s : Block) (n t : Nat) : (s.ledRenew n t).reqs = s.reqs := (rfl)
@[simp] theorem Block.ledRenew_reqGens (s : Block) (n t : Nat) : (s.ledRenew n t).reqGens = s.reqGens := (rfl)
@[simp] theorem Block.ledRenew_adapters (s : Block) (n t : Nat) : (s.ledRenew n t).adapters = s.adapters := (rfl)
@[simp] theorem Block.ledRenew_esk (s : Block) (n t : Nat) : (s.ledRenew n t).esk = s.esk := (rfl)
@[simp] theorem Block.ledRenew_beatAt (s : Block) (n t : Nat) : (s.ledRenew n t).beatAt = s.beatAt := (rfl)
@[simp] theorem Block.ledRenew_lostAt (s : Block) (n t : Nat) : (s.ledRenew n t).lostAt = s.lostAt := (rfl)
@[simp] theorem Block.ledRenew_lossUntold (s : Block) (n t : Nat) : (s.ledRenew n t).lossUntold = s.lossUntold := (rfl)
@[simp] theorem Block.ledRenew_vOwed (s : Block) (n t : Nat) : (s.ledRenew n t).vOwed = s.vOwed := (rfl)

@[simp] theorem Block.ledAdopt_freeCtr (s : Block) (n u t : Nat) : (s.ledAdopt n u t).freeCtr = s.freeCtr := (rfl)
@[simp] theorem Block.ledAdopt_regs (s : Block) (n u t : Nat) : (s.ledAdopt n u t).regs = s.regs := (rfl)
@[simp] theorem Block.ledAdopt_latches (s : Block) (n u t : Nat) : (s.ledAdopt n u t).latches = s.latches := (rfl)
@[simp] theorem Block.ledAdopt_fns (s : Block) (n u t : Nat) : (s.ledAdopt n u t).fns = s.fns := (rfl)
@[simp] theorem Block.ledAdopt_mbx (s : Block) (n u t : Nat) : (s.ledAdopt n u t).mbx = s.mbx := (rfl)
@[simp] theorem Block.ledAdopt_env (s : Block) (n u t : Nat) : (s.ledAdopt n u t).env = s.env := (rfl)
@[simp] theorem Block.ledAdopt_ice (s : Block) (n u t : Nat) : (s.ledAdopt n u t).ice = s.ice := (rfl)
@[simp] theorem Block.ledAdopt_fw (s : Block) (n u t : Nat) : (s.ledAdopt n u t).fw = s.fw := (rfl)
@[simp] theorem Block.ledAdopt_trust (s : Block) (n u t : Nat) : (s.ledAdopt n u t).trust = s.trust := (rfl)
@[simp] theorem Block.ledAdopt_start (s : Block) (n u t : Nat) : (s.ledAdopt n u t).start = s.start := (rfl)
@[simp] theorem Block.ledAdopt_clk (s : Block) (n u t : Nat) : (s.ledAdopt n u t).clk = s.clk := (rfl)
@[simp] theorem Block.ledAdopt_pwr (s : Block) (n u t : Nat) : (s.ledAdopt n u t).pwr = s.pwr := (rfl)
@[simp] theorem Block.ledAdopt_err (s : Block) (n u t : Nat) : (s.ledAdopt n u t).err = s.err := (rfl)
@[simp] theorem Block.ledAdopt_parts (s : Block) (n u t : Nat) : (s.ledAdopt n u t).parts = s.parts := (rfl)
@[simp] theorem Block.ledAdopt_objs (s : Block) (n u t : Nat) : (s.ledAdopt n u t).objs = s.objs := (rfl)
@[simp] theorem Block.ledAdopt_bundles (s : Block) (n u t : Nat) : (s.ledAdopt n u t).bundles = s.bundles := (rfl)
@[simp] theorem Block.ledAdopt_jobs (s : Block) (n u t : Nat) : (s.ledAdopt n u t).jobs = s.jobs := (rfl)
@[simp] theorem Block.ledAdopt_nextJob (s : Block) (n u t : Nat) : (s.ledAdopt n u t).nextJob = s.nextJob := (rfl)
@[simp] theorem Block.ledAdopt_sems (s : Block) (n u t : Nat) : (s.ledAdopt n u t).sems = s.sems := (rfl)
@[simp] theorem Block.ledAdopt_clusters (s : Block) (n u t : Nat) : (s.ledAdopt n u t).clusters = s.clusters := (rfl)
@[simp] theorem Block.ledAdopt_tiles (s : Block) (n u t : Nat) : (s.ledAdopt n u t).tiles = s.tiles := (rfl)
@[simp] theorem Block.ledAdopt_msc (s : Block) (n u t : Nat) : (s.ledAdopt n u t).msc = s.msc := (rfl)
@[simp] theorem Block.ledAdopt_firn (s : Block) (n u t : Nat) : (s.ledAdopt n u t).firn = s.firn := (rfl)
@[simp] theorem Block.ledAdopt_snow (s : Block) (n u t : Nat) : (s.ledAdopt n u t).snow = s.snow := (rfl)
@[simp] theorem Block.ledAdopt_serve (s : Block) (n u t : Nat) : (s.ledAdopt n u t).serve = s.serve := (rfl)
@[simp] theorem Block.ledAdopt_reqs (s : Block) (n u t : Nat) : (s.ledAdopt n u t).reqs = s.reqs := (rfl)
@[simp] theorem Block.ledAdopt_reqGens (s : Block) (n u t : Nat) : (s.ledAdopt n u t).reqGens = s.reqGens := (rfl)
@[simp] theorem Block.ledAdopt_adapters (s : Block) (n u t : Nat) : (s.ledAdopt n u t).adapters = s.adapters := (rfl)
@[simp] theorem Block.ledAdopt_esk (s : Block) (n u t : Nat) : (s.ledAdopt n u t).esk = s.esk := (rfl)
@[simp] theorem Block.ledAdopt_beatAt (s : Block) (n u t : Nat) : (s.ledAdopt n u t).beatAt = s.beatAt := (rfl)
@[simp] theorem Block.ledAdopt_lostAt (s : Block) (n u t : Nat) : (s.ledAdopt n u t).lostAt = s.lostAt := (rfl)
@[simp] theorem Block.ledAdopt_lossUntold (s : Block) (n u t : Nat) : (s.ledAdopt n u t).lossUntold = s.lossUntold := (rfl)
@[simp] theorem Block.ledAdopt_vOwed (s : Block) (n u t : Nat) : (s.ledAdopt n u t).vOwed = s.vOwed := (rfl)

@[simp] theorem Block.modFn_freeCtr (s : Block) (f : Nat) (g : Fn → Fn) : (s.modFn f g).freeCtr = s.freeCtr := (rfl)
@[simp] theorem Block.modFn_regs (s : Block) (f : Nat) (g : Fn → Fn) : (s.modFn f g).regs = s.regs := (rfl)
@[simp] theorem Block.modFn_latches (s : Block) (f : Nat) (g : Fn → Fn) : (s.modFn f g).latches = s.latches := (rfl)
@[simp] theorem Block.modFn_mbx (s : Block) (f : Nat) (g : Fn → Fn) : (s.modFn f g).mbx = s.mbx := (rfl)
@[simp] theorem Block.modFn_env (s : Block) (f : Nat) (g : Fn → Fn) : (s.modFn f g).env = s.env := (rfl)
@[simp] theorem Block.modFn_led (s : Block) (f : Nat) (g : Fn → Fn) : (s.modFn f g).led = s.led := (rfl)
@[simp] theorem Block.modFn_ice (s : Block) (f : Nat) (g : Fn → Fn) : (s.modFn f g).ice = s.ice := (rfl)
@[simp] theorem Block.modFn_fw (s : Block) (f : Nat) (g : Fn → Fn) : (s.modFn f g).fw = s.fw := (rfl)
@[simp] theorem Block.modFn_trust (s : Block) (f : Nat) (g : Fn → Fn) : (s.modFn f g).trust = s.trust := (rfl)
@[simp] theorem Block.modFn_start (s : Block) (f : Nat) (g : Fn → Fn) : (s.modFn f g).start = s.start := (rfl)
@[simp] theorem Block.modFn_clk (s : Block) (f : Nat) (g : Fn → Fn) : (s.modFn f g).clk = s.clk := (rfl)
@[simp] theorem Block.modFn_pwr (s : Block) (f : Nat) (g : Fn → Fn) : (s.modFn f g).pwr = s.pwr := (rfl)
@[simp] theorem Block.modFn_err (s : Block) (f : Nat) (g : Fn → Fn) : (s.modFn f g).err = s.err := (rfl)
@[simp] theorem Block.modFn_parts (s : Block) (f : Nat) (g : Fn → Fn) : (s.modFn f g).parts = s.parts := (rfl)
@[simp] theorem Block.modFn_objs (s : Block) (f : Nat) (g : Fn → Fn) : (s.modFn f g).objs = s.objs := (rfl)
@[simp] theorem Block.modFn_bundles (s : Block) (f : Nat) (g : Fn → Fn) : (s.modFn f g).bundles = s.bundles := (rfl)
@[simp] theorem Block.modFn_jobs (s : Block) (f : Nat) (g : Fn → Fn) : (s.modFn f g).jobs = s.jobs := (rfl)
@[simp] theorem Block.modFn_nextJob (s : Block) (f : Nat) (g : Fn → Fn) : (s.modFn f g).nextJob = s.nextJob := (rfl)
@[simp] theorem Block.modFn_sems (s : Block) (f : Nat) (g : Fn → Fn) : (s.modFn f g).sems = s.sems := (rfl)
@[simp] theorem Block.modFn_clusters (s : Block) (f : Nat) (g : Fn → Fn) : (s.modFn f g).clusters = s.clusters := (rfl)
@[simp] theorem Block.modFn_tiles (s : Block) (f : Nat) (g : Fn → Fn) : (s.modFn f g).tiles = s.tiles := (rfl)
@[simp] theorem Block.modFn_msc (s : Block) (f : Nat) (g : Fn → Fn) : (s.modFn f g).msc = s.msc := (rfl)
@[simp] theorem Block.modFn_firn (s : Block) (f : Nat) (g : Fn → Fn) : (s.modFn f g).firn = s.firn := (rfl)
@[simp] theorem Block.modFn_snow (s : Block) (f : Nat) (g : Fn → Fn) : (s.modFn f g).snow = s.snow := (rfl)
@[simp] theorem Block.modFn_serve (s : Block) (f : Nat) (g : Fn → Fn) : (s.modFn f g).serve = s.serve := (rfl)
@[simp] theorem Block.modFn_reqs (s : Block) (f : Nat) (g : Fn → Fn) : (s.modFn f g).reqs = s.reqs := (rfl)
@[simp] theorem Block.modFn_reqGens (s : Block) (f : Nat) (g : Fn → Fn) : (s.modFn f g).reqGens = s.reqGens := (rfl)
@[simp] theorem Block.modFn_adapters (s : Block) (f : Nat) (g : Fn → Fn) : (s.modFn f g).adapters = s.adapters := (rfl)
@[simp] theorem Block.modFn_esk (s : Block) (f : Nat) (g : Fn → Fn) : (s.modFn f g).esk = s.esk := (rfl)
@[simp] theorem Block.modFn_beatAt (s : Block) (f : Nat) (g : Fn → Fn) : (s.modFn f g).beatAt = s.beatAt := (rfl)
@[simp] theorem Block.modFn_lostAt (s : Block) (f : Nat) (g : Fn → Fn) : (s.modFn f g).lostAt = s.lostAt := (rfl)
@[simp] theorem Block.modFn_lossUntold (s : Block) (f : Nat) (g : Fn → Fn) : (s.modFn f g).lossUntold = s.lossUntold := (rfl)
@[simp] theorem Block.modFn_vOwed (s : Block) (f : Nat) (g : Fn → Fn) : (s.modFn f g).vOwed = s.vOwed := (rfl)

@[simp] theorem Block.msix_freeCtr (s : Block) (f v : Nat) : (s.msix f v).freeCtr = s.freeCtr := (rfl)
@[simp] theorem Block.msix_regs (s : Block) (f v : Nat) : (s.msix f v).regs = s.regs := (rfl)
@[simp] theorem Block.msix_latches (s : Block) (f v : Nat) : (s.msix f v).latches = s.latches := (rfl)
@[simp] theorem Block.msix_fns (s : Block) (f v : Nat) : (s.msix f v).fns = s.fns := (rfl)
@[simp] theorem Block.msix_mbx (s : Block) (f v : Nat) : (s.msix f v).mbx = s.mbx := (rfl)
@[simp] theorem Block.msix_led (s : Block) (f v : Nat) : (s.msix f v).led = s.led := (rfl)
@[simp] theorem Block.msix_ice (s : Block) (f v : Nat) : (s.msix f v).ice = s.ice := (rfl)
@[simp] theorem Block.msix_fw (s : Block) (f v : Nat) : (s.msix f v).fw = s.fw := (rfl)
@[simp] theorem Block.msix_trust (s : Block) (f v : Nat) : (s.msix f v).trust = s.trust := (rfl)
@[simp] theorem Block.msix_start (s : Block) (f v : Nat) : (s.msix f v).start = s.start := (rfl)
@[simp] theorem Block.msix_clk (s : Block) (f v : Nat) : (s.msix f v).clk = s.clk := (rfl)
@[simp] theorem Block.msix_pwr (s : Block) (f v : Nat) : (s.msix f v).pwr = s.pwr := (rfl)
@[simp] theorem Block.msix_err (s : Block) (f v : Nat) : (s.msix f v).err = s.err := (rfl)
@[simp] theorem Block.msix_parts (s : Block) (f v : Nat) : (s.msix f v).parts = s.parts := (rfl)
@[simp] theorem Block.msix_objs (s : Block) (f v : Nat) : (s.msix f v).objs = s.objs := (rfl)
@[simp] theorem Block.msix_bundles (s : Block) (f v : Nat) : (s.msix f v).bundles = s.bundles := (rfl)
@[simp] theorem Block.msix_jobs (s : Block) (f v : Nat) : (s.msix f v).jobs = s.jobs := (rfl)
@[simp] theorem Block.msix_nextJob (s : Block) (f v : Nat) : (s.msix f v).nextJob = s.nextJob := (rfl)
@[simp] theorem Block.msix_sems (s : Block) (f v : Nat) : (s.msix f v).sems = s.sems := (rfl)
@[simp] theorem Block.msix_clusters (s : Block) (f v : Nat) : (s.msix f v).clusters = s.clusters := (rfl)
@[simp] theorem Block.msix_tiles (s : Block) (f v : Nat) : (s.msix f v).tiles = s.tiles := (rfl)
@[simp] theorem Block.msix_msc (s : Block) (f v : Nat) : (s.msix f v).msc = s.msc := (rfl)
@[simp] theorem Block.msix_firn (s : Block) (f v : Nat) : (s.msix f v).firn = s.firn := (rfl)
@[simp] theorem Block.msix_snow (s : Block) (f v : Nat) : (s.msix f v).snow = s.snow := (rfl)
@[simp] theorem Block.msix_serve (s : Block) (f v : Nat) : (s.msix f v).serve = s.serve := (rfl)
@[simp] theorem Block.msix_reqs (s : Block) (f v : Nat) : (s.msix f v).reqs = s.reqs := (rfl)
@[simp] theorem Block.msix_reqGens (s : Block) (f v : Nat) : (s.msix f v).reqGens = s.reqGens := (rfl)
@[simp] theorem Block.msix_adapters (s : Block) (f v : Nat) : (s.msix f v).adapters = s.adapters := (rfl)
@[simp] theorem Block.msix_esk (s : Block) (f v : Nat) : (s.msix f v).esk = s.esk := (rfl)
@[simp] theorem Block.msix_beatAt (s : Block) (f v : Nat) : (s.msix f v).beatAt = s.beatAt := (rfl)
@[simp] theorem Block.msix_lostAt (s : Block) (f v : Nat) : (s.msix f v).lostAt = s.lostAt := (rfl)
@[simp] theorem Block.msix_lossUntold (s : Block) (f v : Nat) : (s.msix f v).lossUntold = s.lossUntold := (rfl)
@[simp] theorem Block.msix_vOwed (s : Block) (f v : Nat) : (s.msix f v).vOwed = s.vOwed := (rfl)

@[simp] theorem Block.setBox_freeCtr (s : Block) (a : Nat) (m : Mbx) : (s.setBox a m).freeCtr = s.freeCtr := (rfl)
@[simp] theorem Block.setBox_regs (s : Block) (a : Nat) (m : Mbx) : (s.setBox a m).regs = s.regs := (rfl)
@[simp] theorem Block.setBox_latches (s : Block) (a : Nat) (m : Mbx) : (s.setBox a m).latches = s.latches := (rfl)
@[simp] theorem Block.setBox_fns (s : Block) (a : Nat) (m : Mbx) : (s.setBox a m).fns = s.fns := (rfl)
@[simp] theorem Block.setBox_env (s : Block) (a : Nat) (m : Mbx) : (s.setBox a m).env = s.env := (rfl)
@[simp] theorem Block.setBox_led (s : Block) (a : Nat) (m : Mbx) : (s.setBox a m).led = s.led := (rfl)
@[simp] theorem Block.setBox_ice (s : Block) (a : Nat) (m : Mbx) : (s.setBox a m).ice = s.ice := (rfl)
@[simp] theorem Block.setBox_fw (s : Block) (a : Nat) (m : Mbx) : (s.setBox a m).fw = s.fw := (rfl)
@[simp] theorem Block.setBox_trust (s : Block) (a : Nat) (m : Mbx) : (s.setBox a m).trust = s.trust := (rfl)
@[simp] theorem Block.setBox_start (s : Block) (a : Nat) (m : Mbx) : (s.setBox a m).start = s.start := (rfl)
@[simp] theorem Block.setBox_clk (s : Block) (a : Nat) (m : Mbx) : (s.setBox a m).clk = s.clk := (rfl)
@[simp] theorem Block.setBox_pwr (s : Block) (a : Nat) (m : Mbx) : (s.setBox a m).pwr = s.pwr := (rfl)
@[simp] theorem Block.setBox_err (s : Block) (a : Nat) (m : Mbx) : (s.setBox a m).err = s.err := (rfl)
@[simp] theorem Block.setBox_parts (s : Block) (a : Nat) (m : Mbx) : (s.setBox a m).parts = s.parts := (rfl)
@[simp] theorem Block.setBox_objs (s : Block) (a : Nat) (m : Mbx) : (s.setBox a m).objs = s.objs := (rfl)
@[simp] theorem Block.setBox_bundles (s : Block) (a : Nat) (m : Mbx) : (s.setBox a m).bundles = s.bundles := (rfl)
@[simp] theorem Block.setBox_jobs (s : Block) (a : Nat) (m : Mbx) : (s.setBox a m).jobs = s.jobs := (rfl)
@[simp] theorem Block.setBox_nextJob (s : Block) (a : Nat) (m : Mbx) : (s.setBox a m).nextJob = s.nextJob := (rfl)
@[simp] theorem Block.setBox_sems (s : Block) (a : Nat) (m : Mbx) : (s.setBox a m).sems = s.sems := (rfl)
@[simp] theorem Block.setBox_clusters (s : Block) (a : Nat) (m : Mbx) : (s.setBox a m).clusters = s.clusters := (rfl)
@[simp] theorem Block.setBox_tiles (s : Block) (a : Nat) (m : Mbx) : (s.setBox a m).tiles = s.tiles := (rfl)
@[simp] theorem Block.setBox_msc (s : Block) (a : Nat) (m : Mbx) : (s.setBox a m).msc = s.msc := (rfl)
@[simp] theorem Block.setBox_firn (s : Block) (a : Nat) (m : Mbx) : (s.setBox a m).firn = s.firn := (rfl)
@[simp] theorem Block.setBox_snow (s : Block) (a : Nat) (m : Mbx) : (s.setBox a m).snow = s.snow := (rfl)
@[simp] theorem Block.setBox_serve (s : Block) (a : Nat) (m : Mbx) : (s.setBox a m).serve = s.serve := (rfl)
@[simp] theorem Block.setBox_reqs (s : Block) (a : Nat) (m : Mbx) : (s.setBox a m).reqs = s.reqs := (rfl)
@[simp] theorem Block.setBox_reqGens (s : Block) (a : Nat) (m : Mbx) : (s.setBox a m).reqGens = s.reqGens := (rfl)
@[simp] theorem Block.setBox_adapters (s : Block) (a : Nat) (m : Mbx) : (s.setBox a m).adapters = s.adapters := (rfl)
@[simp] theorem Block.setBox_esk (s : Block) (a : Nat) (m : Mbx) : (s.setBox a m).esk = s.esk := (rfl)
@[simp] theorem Block.setBox_beatAt (s : Block) (a : Nat) (m : Mbx) : (s.setBox a m).beatAt = s.beatAt := (rfl)
@[simp] theorem Block.setBox_lostAt (s : Block) (a : Nat) (m : Mbx) : (s.setBox a m).lostAt = s.lostAt := (rfl)
@[simp] theorem Block.setBox_lossUntold (s : Block) (a : Nat) (m : Mbx) : (s.setBox a m).lossUntold = s.lossUntold := (rfl)
@[simp] theorem Block.setBox_vOwed (s : Block) (a : Nat) (m : Mbx) : (s.setBox a m).vOwed = s.vOwed := (rfl)

/-! ### Updates with cases -/

@[simp] theorem Block.iceEnter_freeCtr (s : Block) (r : IceRec) : (s.iceEnter r).freeCtr = s.freeCtr := by
  unfold Block.iceEnter; split <;> rfl
@[simp] theorem Block.iceEnter_latches (s : Block) (r : IceRec) : (s.iceEnter r).latches = s.latches := by
  unfold Block.iceEnter; split <;> rfl
@[simp] theorem Block.iceEnter_fns (s : Block) (r : IceRec) : (s.iceEnter r).fns = s.fns := by
  unfold Block.iceEnter; split <;> rfl
@[simp] theorem Block.iceEnter_mbx (s : Block) (r : IceRec) : (s.iceEnter r).mbx = s.mbx := by
  unfold Block.iceEnter; split <;> rfl
@[simp] theorem Block.iceEnter_env (s : Block) (r : IceRec) : (s.iceEnter r).env = s.env := by
  unfold Block.iceEnter; split <;> rfl
@[simp] theorem Block.iceEnter_led (s : Block) (r : IceRec) : (s.iceEnter r).led = s.led := by
  unfold Block.iceEnter; split <;> rfl
@[simp] theorem Block.iceEnter_fw (s : Block) (r : IceRec) : (s.iceEnter r).fw = s.fw := by
  unfold Block.iceEnter; split <;> rfl
@[simp] theorem Block.iceEnter_trust (s : Block) (r : IceRec) : (s.iceEnter r).trust = s.trust := by
  unfold Block.iceEnter; split <;> rfl
@[simp] theorem Block.iceEnter_start (s : Block) (r : IceRec) : (s.iceEnter r).start = s.start := by
  unfold Block.iceEnter; split <;> rfl
@[simp] theorem Block.iceEnter_clk (s : Block) (r : IceRec) : (s.iceEnter r).clk = s.clk := by
  unfold Block.iceEnter; split <;> rfl
@[simp] theorem Block.iceEnter_pwr (s : Block) (r : IceRec) : (s.iceEnter r).pwr = s.pwr := by
  unfold Block.iceEnter; split <;> rfl
@[simp] theorem Block.iceEnter_err (s : Block) (r : IceRec) : (s.iceEnter r).err = s.err := by
  unfold Block.iceEnter; split <;> rfl
@[simp] theorem Block.iceEnter_parts (s : Block) (r : IceRec) : (s.iceEnter r).parts = s.parts := by
  unfold Block.iceEnter; split <;> rfl
@[simp] theorem Block.iceEnter_objs (s : Block) (r : IceRec) : (s.iceEnter r).objs = s.objs := by
  unfold Block.iceEnter; split <;> rfl
@[simp] theorem Block.iceEnter_bundles (s : Block) (r : IceRec) : (s.iceEnter r).bundles = s.bundles := by
  unfold Block.iceEnter; split <;> rfl
@[simp] theorem Block.iceEnter_jobs (s : Block) (r : IceRec) : (s.iceEnter r).jobs = s.jobs := by
  unfold Block.iceEnter; split <;> rfl
@[simp] theorem Block.iceEnter_nextJob (s : Block) (r : IceRec) : (s.iceEnter r).nextJob = s.nextJob := by
  unfold Block.iceEnter; split <;> rfl
@[simp] theorem Block.iceEnter_sems (s : Block) (r : IceRec) : (s.iceEnter r).sems = s.sems := by
  unfold Block.iceEnter; split <;> rfl
@[simp] theorem Block.iceEnter_clusters (s : Block) (r : IceRec) : (s.iceEnter r).clusters = s.clusters := by
  unfold Block.iceEnter; split <;> rfl
@[simp] theorem Block.iceEnter_tiles (s : Block) (r : IceRec) : (s.iceEnter r).tiles = s.tiles := by
  unfold Block.iceEnter; split <;> rfl
@[simp] theorem Block.iceEnter_msc (s : Block) (r : IceRec) : (s.iceEnter r).msc = s.msc := by
  unfold Block.iceEnter; split <;> rfl
@[simp] theorem Block.iceEnter_firn (s : Block) (r : IceRec) : (s.iceEnter r).firn = s.firn := by
  unfold Block.iceEnter; split <;> rfl
@[simp] theorem Block.iceEnter_snow (s : Block) (r : IceRec) : (s.iceEnter r).snow = s.snow := by
  unfold Block.iceEnter; split <;> rfl
@[simp] theorem Block.iceEnter_serve (s : Block) (r : IceRec) : (s.iceEnter r).serve = s.serve := by
  unfold Block.iceEnter; split <;> rfl
@[simp] theorem Block.iceEnter_reqs (s : Block) (r : IceRec) : (s.iceEnter r).reqs = s.reqs := by
  unfold Block.iceEnter; split <;> rfl
@[simp] theorem Block.iceEnter_reqGens (s : Block) (r : IceRec) : (s.iceEnter r).reqGens = s.reqGens := by
  unfold Block.iceEnter; split <;> rfl
@[simp] theorem Block.iceEnter_adapters (s : Block) (r : IceRec) : (s.iceEnter r).adapters = s.adapters := by
  unfold Block.iceEnter; split <;> rfl
@[simp] theorem Block.iceEnter_esk (s : Block) (r : IceRec) : (s.iceEnter r).esk = s.esk := by
  unfold Block.iceEnter; split <;> rfl
@[simp] theorem Block.iceEnter_beatAt (s : Block) (r : IceRec) : (s.iceEnter r).beatAt = s.beatAt := by
  unfold Block.iceEnter; split <;> rfl
@[simp] theorem Block.iceEnter_lostAt (s : Block) (r : IceRec) : (s.iceEnter r).lostAt = s.lostAt := by
  unfold Block.iceEnter; split <;> rfl
@[simp] theorem Block.iceEnter_lossUntold (s : Block) (r : IceRec) : (s.iceEnter r).lossUntold = s.lossUntold := by
  unfold Block.iceEnter; split <;> rfl
@[simp] theorem Block.iceEnter_vOwed (s : Block) (r : IceRec) : (s.iceEnter r).vOwed = s.vOwed := by
  unfold Block.iceEnter; split <;> rfl

@[simp] theorem Block.event_freeCtr (s : Block) (src ev : Nat) (d : List Word) : (s.event src ev d).freeCtr = s.freeCtr := by
  unfold Block.event; dsimp only; split
  · split <;> rfl
  · exact Block.iceEnter_freeCtr s _
@[simp] theorem Block.event_latches (s : Block) (src ev : Nat) (d : List Word) : (s.event src ev d).latches = s.latches := by
  unfold Block.event; dsimp only; split
  · split <;> rfl
  · exact Block.iceEnter_latches s _
@[simp] theorem Block.event_fns (s : Block) (src ev : Nat) (d : List Word) : (s.event src ev d).fns = s.fns := by
  unfold Block.event; dsimp only; split
  · split <;> rfl
  · exact Block.iceEnter_fns s _
@[simp] theorem Block.event_mbx (s : Block) (src ev : Nat) (d : List Word) : (s.event src ev d).mbx = s.mbx := by
  unfold Block.event; dsimp only; split
  · split <;> rfl
  · exact Block.iceEnter_mbx s _
@[simp] theorem Block.event_env (s : Block) (src ev : Nat) (d : List Word) : (s.event src ev d).env = s.env := by
  unfold Block.event; dsimp only; split
  · split <;> rfl
  · exact Block.iceEnter_env s _
@[simp] theorem Block.event_led (s : Block) (src ev : Nat) (d : List Word) : (s.event src ev d).led = s.led := by
  unfold Block.event; dsimp only; split
  · split <;> rfl
  · exact Block.iceEnter_led s _
@[simp] theorem Block.event_fw (s : Block) (src ev : Nat) (d : List Word) : (s.event src ev d).fw = s.fw := by
  unfold Block.event; dsimp only; split
  · split <;> rfl
  · exact Block.iceEnter_fw s _
@[simp] theorem Block.event_trust (s : Block) (src ev : Nat) (d : List Word) : (s.event src ev d).trust = s.trust := by
  unfold Block.event; dsimp only; split
  · split <;> rfl
  · exact Block.iceEnter_trust s _
@[simp] theorem Block.event_start (s : Block) (src ev : Nat) (d : List Word) : (s.event src ev d).start = s.start := by
  unfold Block.event; dsimp only; split
  · split <;> rfl
  · exact Block.iceEnter_start s _
@[simp] theorem Block.event_clk (s : Block) (src ev : Nat) (d : List Word) : (s.event src ev d).clk = s.clk := by
  unfold Block.event; dsimp only; split
  · split <;> rfl
  · exact Block.iceEnter_clk s _
@[simp] theorem Block.event_pwr (s : Block) (src ev : Nat) (d : List Word) : (s.event src ev d).pwr = s.pwr := by
  unfold Block.event; dsimp only; split
  · split <;> rfl
  · exact Block.iceEnter_pwr s _
@[simp] theorem Block.event_err (s : Block) (src ev : Nat) (d : List Word) : (s.event src ev d).err = s.err := by
  unfold Block.event; dsimp only; split
  · split <;> rfl
  · exact Block.iceEnter_err s _
@[simp] theorem Block.event_parts (s : Block) (src ev : Nat) (d : List Word) : (s.event src ev d).parts = s.parts := by
  unfold Block.event; dsimp only; split
  · split <;> rfl
  · exact Block.iceEnter_parts s _
@[simp] theorem Block.event_objs (s : Block) (src ev : Nat) (d : List Word) : (s.event src ev d).objs = s.objs := by
  unfold Block.event; dsimp only; split
  · split <;> rfl
  · exact Block.iceEnter_objs s _
@[simp] theorem Block.event_bundles (s : Block) (src ev : Nat) (d : List Word) : (s.event src ev d).bundles = s.bundles := by
  unfold Block.event; dsimp only; split
  · split <;> rfl
  · exact Block.iceEnter_bundles s _
@[simp] theorem Block.event_jobs (s : Block) (src ev : Nat) (d : List Word) : (s.event src ev d).jobs = s.jobs := by
  unfold Block.event; dsimp only; split
  · split <;> rfl
  · exact Block.iceEnter_jobs s _
@[simp] theorem Block.event_nextJob (s : Block) (src ev : Nat) (d : List Word) : (s.event src ev d).nextJob = s.nextJob := by
  unfold Block.event; dsimp only; split
  · split <;> rfl
  · exact Block.iceEnter_nextJob s _
@[simp] theorem Block.event_sems (s : Block) (src ev : Nat) (d : List Word) : (s.event src ev d).sems = s.sems := by
  unfold Block.event; dsimp only; split
  · split <;> rfl
  · exact Block.iceEnter_sems s _
@[simp] theorem Block.event_clusters (s : Block) (src ev : Nat) (d : List Word) : (s.event src ev d).clusters = s.clusters := by
  unfold Block.event; dsimp only; split
  · split <;> rfl
  · exact Block.iceEnter_clusters s _
@[simp] theorem Block.event_tiles (s : Block) (src ev : Nat) (d : List Word) : (s.event src ev d).tiles = s.tiles := by
  unfold Block.event; dsimp only; split
  · split <;> rfl
  · exact Block.iceEnter_tiles s _
@[simp] theorem Block.event_msc (s : Block) (src ev : Nat) (d : List Word) : (s.event src ev d).msc = s.msc := by
  unfold Block.event; dsimp only; split
  · split <;> rfl
  · exact Block.iceEnter_msc s _
@[simp] theorem Block.event_firn (s : Block) (src ev : Nat) (d : List Word) : (s.event src ev d).firn = s.firn := by
  unfold Block.event; dsimp only; split
  · split <;> rfl
  · exact Block.iceEnter_firn s _
@[simp] theorem Block.event_snow (s : Block) (src ev : Nat) (d : List Word) : (s.event src ev d).snow = s.snow := by
  unfold Block.event; dsimp only; split
  · split <;> rfl
  · exact Block.iceEnter_snow s _
@[simp] theorem Block.event_serve (s : Block) (src ev : Nat) (d : List Word) : (s.event src ev d).serve = s.serve := by
  unfold Block.event; dsimp only; split
  · split <;> rfl
  · exact Block.iceEnter_serve s _
@[simp] theorem Block.event_reqs (s : Block) (src ev : Nat) (d : List Word) : (s.event src ev d).reqs = s.reqs := by
  unfold Block.event; dsimp only; split
  · split <;> rfl
  · exact Block.iceEnter_reqs s _
@[simp] theorem Block.event_reqGens (s : Block) (src ev : Nat) (d : List Word) : (s.event src ev d).reqGens = s.reqGens := by
  unfold Block.event; dsimp only; split
  · split <;> rfl
  · exact Block.iceEnter_reqGens s _
@[simp] theorem Block.event_adapters (s : Block) (src ev : Nat) (d : List Word) : (s.event src ev d).adapters = s.adapters := by
  unfold Block.event; dsimp only; split
  · split <;> rfl
  · exact Block.iceEnter_adapters s _
@[simp] theorem Block.event_esk (s : Block) (src ev : Nat) (d : List Word) : (s.event src ev d).esk = s.esk := by
  unfold Block.event; dsimp only; split
  · split <;> rfl
  · exact Block.iceEnter_esk s _
@[simp] theorem Block.event_beatAt (s : Block) (src ev : Nat) (d : List Word) : (s.event src ev d).beatAt = s.beatAt := by
  unfold Block.event; dsimp only; split
  · split <;> rfl
  · exact Block.iceEnter_beatAt s _
@[simp] theorem Block.event_lostAt (s : Block) (src ev : Nat) (d : List Word) : (s.event src ev d).lostAt = s.lostAt := by
  unfold Block.event; dsimp only; split
  · split <;> rfl
  · exact Block.iceEnter_lostAt s _
@[simp] theorem Block.event_lossUntold (s : Block) (src ev : Nat) (d : List Word) : (s.event src ev d).lossUntold = s.lossUntold := by
  unfold Block.event; dsimp only; split
  · split <;> rfl
  · exact Block.iceEnter_lossUntold s _
@[simp] theorem Block.event_vOwed (s : Block) (src ev : Nat) (d : List Word) : (s.event src ev d).vOwed = s.vOwed := by
  unfold Block.event; dsimp only; split
  · split <;> rfl
  · exact Block.iceEnter_vOwed s _

@[simp] theorem Block.iceEnter_perm (s : Block) (r : IceRec) : (s.iceEnter r).ice.perm = s.ice.perm := by
  unfold Block.iceEnter; split <;> rfl
@[simp] theorem Block.event_perm (s : Block) (src ev : Nat) (d : List Word) :
    (s.event src ev d).ice.perm = s.ice.perm := by
  unfold Block.event; dsimp only; split
  · split <;> rfl
  · exact Block.iceEnter_perm s _

@[simp] theorem Block.breachMark_freeCtr (s : Block) (n : Nat) : (s.breachMark n).freeCtr = s.freeCtr := by
  simp only [Block.breachMark, apply_ite Block.freeCtr, Block.wb_freeCtr, Block.wf_freeCtr, ite_self]
@[simp] theorem Block.breachMark_latches (s : Block) (n : Nat) : (s.breachMark n).latches = s.latches := by
  simp only [Block.breachMark, apply_ite Block.latches, Block.wb_latches, Block.wf_latches, ite_self]
@[simp] theorem Block.breachMark_fns (s : Block) (n : Nat) : (s.breachMark n).fns = s.fns := by
  simp only [Block.breachMark, apply_ite Block.fns, Block.wb_fns, Block.wf_fns, ite_self]
@[simp] theorem Block.breachMark_mbx (s : Block) (n : Nat) : (s.breachMark n).mbx = s.mbx := by
  simp only [Block.breachMark, apply_ite Block.mbx, Block.wb_mbx, Block.wf_mbx, ite_self]
@[simp] theorem Block.breachMark_env (s : Block) (n : Nat) : (s.breachMark n).env = s.env := by
  simp only [Block.breachMark, apply_ite Block.env, Block.wb_env, Block.wf_env, ite_self]
@[simp] theorem Block.breachMark_led (s : Block) (n : Nat) : (s.breachMark n).led = s.led := by
  simp only [Block.breachMark, apply_ite Block.led, Block.wb_led, Block.wf_led, ite_self]
@[simp] theorem Block.breachMark_ice (s : Block) (n : Nat) : (s.breachMark n).ice = s.ice := by
  simp only [Block.breachMark, apply_ite Block.ice, Block.wb_ice, Block.wf_ice, ite_self]
@[simp] theorem Block.breachMark_fw (s : Block) (n : Nat) : (s.breachMark n).fw = s.fw := by
  simp only [Block.breachMark, apply_ite Block.fw, Block.wb_fw, Block.wf_fw, ite_self]
@[simp] theorem Block.breachMark_trust (s : Block) (n : Nat) : (s.breachMark n).trust = s.trust := by
  simp only [Block.breachMark, apply_ite Block.trust, Block.wb_trust, Block.wf_trust, ite_self]
@[simp] theorem Block.breachMark_clk (s : Block) (n : Nat) : (s.breachMark n).clk = s.clk := by
  simp only [Block.breachMark, apply_ite Block.clk, Block.wb_clk, Block.wf_clk, ite_self]
@[simp] theorem Block.breachMark_pwr (s : Block) (n : Nat) : (s.breachMark n).pwr = s.pwr := by
  simp only [Block.breachMark, apply_ite Block.pwr, Block.wb_pwr, Block.wf_pwr, ite_self]
@[simp] theorem Block.breachMark_err (s : Block) (n : Nat) : (s.breachMark n).err = s.err := by
  simp only [Block.breachMark, apply_ite Block.err, Block.wb_err, Block.wf_err, ite_self]
@[simp] theorem Block.breachMark_parts (s : Block) (n : Nat) : (s.breachMark n).parts = s.parts := by
  simp only [Block.breachMark, apply_ite Block.parts, Block.wb_parts, Block.wf_parts, ite_self]
@[simp] theorem Block.breachMark_objs (s : Block) (n : Nat) : (s.breachMark n).objs = s.objs := by
  simp only [Block.breachMark, apply_ite Block.objs, Block.wb_objs, Block.wf_objs, ite_self]
@[simp] theorem Block.breachMark_bundles (s : Block) (n : Nat) : (s.breachMark n).bundles = s.bundles := by
  simp only [Block.breachMark, apply_ite Block.bundles, Block.wb_bundles, Block.wf_bundles, ite_self]
@[simp] theorem Block.breachMark_jobs (s : Block) (n : Nat) : (s.breachMark n).jobs = s.jobs := by
  simp only [Block.breachMark, apply_ite Block.jobs, Block.wb_jobs, Block.wf_jobs, ite_self]
@[simp] theorem Block.breachMark_nextJob (s : Block) (n : Nat) : (s.breachMark n).nextJob = s.nextJob := by
  simp only [Block.breachMark, apply_ite Block.nextJob, Block.wb_nextJob, Block.wf_nextJob, ite_self]
@[simp] theorem Block.breachMark_sems (s : Block) (n : Nat) : (s.breachMark n).sems = s.sems := by
  simp only [Block.breachMark, apply_ite Block.sems, Block.wb_sems, Block.wf_sems, ite_self]
@[simp] theorem Block.breachMark_clusters (s : Block) (n : Nat) : (s.breachMark n).clusters = s.clusters := by
  simp only [Block.breachMark, apply_ite Block.clusters, Block.wb_clusters, Block.wf_clusters, ite_self]
@[simp] theorem Block.breachMark_tiles (s : Block) (n : Nat) : (s.breachMark n).tiles = s.tiles := by
  simp only [Block.breachMark, apply_ite Block.tiles, Block.wb_tiles, Block.wf_tiles, ite_self]
@[simp] theorem Block.breachMark_msc (s : Block) (n : Nat) : (s.breachMark n).msc = s.msc := by
  simp only [Block.breachMark, apply_ite Block.msc, Block.wb_msc, Block.wf_msc, ite_self]
@[simp] theorem Block.breachMark_firn (s : Block) (n : Nat) : (s.breachMark n).firn = s.firn := by
  simp only [Block.breachMark, apply_ite Block.firn, Block.wb_firn, Block.wf_firn, ite_self]
@[simp] theorem Block.breachMark_snow (s : Block) (n : Nat) : (s.breachMark n).snow = s.snow := by
  simp only [Block.breachMark, apply_ite Block.snow, Block.wb_snow, Block.wf_snow, ite_self]
@[simp] theorem Block.breachMark_serve (s : Block) (n : Nat) : (s.breachMark n).serve = s.serve := by
  simp only [Block.breachMark, apply_ite Block.serve, Block.wb_serve, Block.wf_serve, ite_self]
@[simp] theorem Block.breachMark_reqs (s : Block) (n : Nat) : (s.breachMark n).reqs = s.reqs := by
  simp only [Block.breachMark, apply_ite Block.reqs, Block.wb_reqs, Block.wf_reqs, ite_self]
@[simp] theorem Block.breachMark_reqGens (s : Block) (n : Nat) : (s.breachMark n).reqGens = s.reqGens := by
  simp only [Block.breachMark, apply_ite Block.reqGens, Block.wb_reqGens, Block.wf_reqGens, ite_self]
@[simp] theorem Block.breachMark_adapters (s : Block) (n : Nat) : (s.breachMark n).adapters = s.adapters := by
  simp only [Block.breachMark, apply_ite Block.adapters, Block.wb_adapters, Block.wf_adapters, ite_self]
@[simp] theorem Block.breachMark_esk (s : Block) (n : Nat) : (s.breachMark n).esk = s.esk := by
  simp only [Block.breachMark, apply_ite Block.esk, Block.wb_esk, Block.wf_esk, ite_self]
@[simp] theorem Block.breachMark_beatAt (s : Block) (n : Nat) : (s.breachMark n).beatAt = s.beatAt := by
  simp only [Block.breachMark, apply_ite Block.beatAt, Block.wb_beatAt, Block.wf_beatAt, ite_self]
@[simp] theorem Block.breachMark_lostAt (s : Block) (n : Nat) : (s.breachMark n).lostAt = s.lostAt := by
  simp only [Block.breachMark, apply_ite Block.lostAt, Block.wb_lostAt, Block.wf_lostAt, ite_self]
@[simp] theorem Block.breachMark_lossUntold (s : Block) (n : Nat) : (s.breachMark n).lossUntold = s.lossUntold := by
  simp only [Block.breachMark, apply_ite Block.lossUntold, Block.wb_lossUntold, Block.wf_lossUntold, ite_self]
@[simp] theorem Block.breachMark_vOwed (s : Block) (n : Nat) : (s.breachMark n).vOwed = s.vOwed := by
  simp only [Block.breachMark, apply_ite Block.vOwed, Block.wb_vOwed, Block.wf_vOwed, ite_self]

@[simp] theorem Block.raiseBreach_freeCtr (s : Block) (n k : Nat) (x : List Word) : (s.raiseBreach n k x).freeCtr = s.freeCtr := by
  exact (Block.breachMark_freeCtr ..).trans (Block.event_freeCtr ..)
@[simp] theorem Block.raiseBreach_latches (s : Block) (n k : Nat) (x : List Word) : (s.raiseBreach n k x).latches = s.latches := by
  exact (Block.breachMark_latches ..).trans (Block.event_latches ..)
@[simp] theorem Block.raiseBreach_fns (s : Block) (n k : Nat) (x : List Word) : (s.raiseBreach n k x).fns = s.fns := by
  exact (Block.breachMark_fns ..).trans (Block.event_fns ..)
@[simp] theorem Block.raiseBreach_mbx (s : Block) (n k : Nat) (x : List Word) : (s.raiseBreach n k x).mbx = s.mbx := by
  exact (Block.breachMark_mbx ..).trans (Block.event_mbx ..)
@[simp] theorem Block.raiseBreach_env (s : Block) (n k : Nat) (x : List Word) : (s.raiseBreach n k x).env = s.env := by
  exact (Block.breachMark_env ..).trans (Block.event_env ..)
@[simp] theorem Block.raiseBreach_led (s : Block) (n k : Nat) (x : List Word) : (s.raiseBreach n k x).led = s.led := by
  exact (Block.breachMark_led ..).trans (Block.event_led ..)
@[simp] theorem Block.raiseBreach_fw (s : Block) (n k : Nat) (x : List Word) : (s.raiseBreach n k x).fw = s.fw := by
  exact (Block.breachMark_fw ..).trans (Block.event_fw ..)
@[simp] theorem Block.raiseBreach_trust (s : Block) (n k : Nat) (x : List Word) : (s.raiseBreach n k x).trust = s.trust := by
  exact (Block.breachMark_trust ..).trans (Block.event_trust ..)
@[simp] theorem Block.raiseBreach_clk (s : Block) (n k : Nat) (x : List Word) : (s.raiseBreach n k x).clk = s.clk := by
  exact (Block.breachMark_clk ..).trans (Block.event_clk ..)
@[simp] theorem Block.raiseBreach_pwr (s : Block) (n k : Nat) (x : List Word) : (s.raiseBreach n k x).pwr = s.pwr := by
  exact (Block.breachMark_pwr ..).trans (Block.event_pwr ..)
@[simp] theorem Block.raiseBreach_err (s : Block) (n k : Nat) (x : List Word) : (s.raiseBreach n k x).err = s.err := by
  exact (Block.breachMark_err ..).trans (Block.event_err ..)
@[simp] theorem Block.raiseBreach_parts (s : Block) (n k : Nat) (x : List Word) : (s.raiseBreach n k x).parts = s.parts := by
  exact (Block.breachMark_parts ..).trans (Block.event_parts ..)
@[simp] theorem Block.raiseBreach_objs (s : Block) (n k : Nat) (x : List Word) : (s.raiseBreach n k x).objs = s.objs := by
  exact (Block.breachMark_objs ..).trans (Block.event_objs ..)
@[simp] theorem Block.raiseBreach_bundles (s : Block) (n k : Nat) (x : List Word) : (s.raiseBreach n k x).bundles = s.bundles := by
  exact (Block.breachMark_bundles ..).trans (Block.event_bundles ..)
@[simp] theorem Block.raiseBreach_jobs (s : Block) (n k : Nat) (x : List Word) : (s.raiseBreach n k x).jobs = s.jobs := by
  exact (Block.breachMark_jobs ..).trans (Block.event_jobs ..)
@[simp] theorem Block.raiseBreach_nextJob (s : Block) (n k : Nat) (x : List Word) : (s.raiseBreach n k x).nextJob = s.nextJob := by
  exact (Block.breachMark_nextJob ..).trans (Block.event_nextJob ..)
@[simp] theorem Block.raiseBreach_sems (s : Block) (n k : Nat) (x : List Word) : (s.raiseBreach n k x).sems = s.sems := by
  exact (Block.breachMark_sems ..).trans (Block.event_sems ..)
@[simp] theorem Block.raiseBreach_clusters (s : Block) (n k : Nat) (x : List Word) : (s.raiseBreach n k x).clusters = s.clusters := by
  exact (Block.breachMark_clusters ..).trans (Block.event_clusters ..)
@[simp] theorem Block.raiseBreach_tiles (s : Block) (n k : Nat) (x : List Word) : (s.raiseBreach n k x).tiles = s.tiles := by
  exact (Block.breachMark_tiles ..).trans (Block.event_tiles ..)
@[simp] theorem Block.raiseBreach_msc (s : Block) (n k : Nat) (x : List Word) : (s.raiseBreach n k x).msc = s.msc := by
  exact (Block.breachMark_msc ..).trans (Block.event_msc ..)
@[simp] theorem Block.raiseBreach_firn (s : Block) (n k : Nat) (x : List Word) : (s.raiseBreach n k x).firn = s.firn := by
  exact (Block.breachMark_firn ..).trans (Block.event_firn ..)
@[simp] theorem Block.raiseBreach_snow (s : Block) (n k : Nat) (x : List Word) : (s.raiseBreach n k x).snow = s.snow := by
  exact (Block.breachMark_snow ..).trans (Block.event_snow ..)
@[simp] theorem Block.raiseBreach_serve (s : Block) (n k : Nat) (x : List Word) : (s.raiseBreach n k x).serve = s.serve := by
  exact (Block.breachMark_serve ..).trans (Block.event_serve ..)
@[simp] theorem Block.raiseBreach_reqs (s : Block) (n k : Nat) (x : List Word) : (s.raiseBreach n k x).reqs = s.reqs := by
  exact (Block.breachMark_reqs ..).trans (Block.event_reqs ..)
@[simp] theorem Block.raiseBreach_reqGens (s : Block) (n k : Nat) (x : List Word) : (s.raiseBreach n k x).reqGens = s.reqGens := by
  exact (Block.breachMark_reqGens ..).trans (Block.event_reqGens ..)
@[simp] theorem Block.raiseBreach_adapters (s : Block) (n k : Nat) (x : List Word) : (s.raiseBreach n k x).adapters = s.adapters := by
  exact (Block.breachMark_adapters ..).trans (Block.event_adapters ..)
@[simp] theorem Block.raiseBreach_esk (s : Block) (n k : Nat) (x : List Word) : (s.raiseBreach n k x).esk = s.esk := by
  exact (Block.breachMark_esk ..).trans (Block.event_esk ..)
@[simp] theorem Block.raiseBreach_beatAt (s : Block) (n k : Nat) (x : List Word) : (s.raiseBreach n k x).beatAt = s.beatAt := by
  exact (Block.breachMark_beatAt ..).trans (Block.event_beatAt ..)
@[simp] theorem Block.raiseBreach_lostAt (s : Block) (n k : Nat) (x : List Word) : (s.raiseBreach n k x).lostAt = s.lostAt := by
  exact (Block.breachMark_lostAt ..).trans (Block.event_lostAt ..)
@[simp] theorem Block.raiseBreach_lossUntold (s : Block) (n k : Nat) (x : List Word) : (s.raiseBreach n k x).lossUntold = s.lossUntold := by
  exact (Block.breachMark_lossUntold ..).trans (Block.event_lossUntold ..)
@[simp] theorem Block.raiseBreach_vOwed (s : Block) (n k : Nat) (x : List Word) : (s.raiseBreach n k x).vOwed = s.vOwed := by
  exact (Block.breachMark_vOwed ..).trans (Block.event_vOwed ..)

@[simp] theorem Block.raiseBreach_perm (s : Block) (n k : Nat) (x : List Word) :
    (s.raiseBreach n k x).ice.perm = s.ice.perm := by
  unfold Block.raiseBreach
  rw [Block.breachMark_ice]
  exact Block.event_perm ..

@[simp] theorem Block.led1_freeCtr (s : Block) (n : Nat) (m : LedgerMove) : (s.led1 n m).freeCtr = s.freeCtr := by
  unfold Block.led1; split
  · rfl
  · exact Block.raiseBreach_freeCtr ..
@[simp] theorem Block.led1_latches (s : Block) (n : Nat) (m : LedgerMove) : (s.led1 n m).latches = s.latches := by
  unfold Block.led1; split
  · rfl
  · exact Block.raiseBreach_latches ..
@[simp] theorem Block.led1_fns (s : Block) (n : Nat) (m : LedgerMove) : (s.led1 n m).fns = s.fns := by
  unfold Block.led1; split
  · rfl
  · exact Block.raiseBreach_fns ..
@[simp] theorem Block.led1_mbx (s : Block) (n : Nat) (m : LedgerMove) : (s.led1 n m).mbx = s.mbx := by
  unfold Block.led1; split
  · rfl
  · exact Block.raiseBreach_mbx ..
@[simp] theorem Block.led1_env (s : Block) (n : Nat) (m : LedgerMove) : (s.led1 n m).env = s.env := by
  unfold Block.led1; split
  · rfl
  · exact Block.raiseBreach_env ..
@[simp] theorem Block.led1_fw (s : Block) (n : Nat) (m : LedgerMove) : (s.led1 n m).fw = s.fw := by
  unfold Block.led1; split
  · rfl
  · exact Block.raiseBreach_fw ..
@[simp] theorem Block.led1_trust (s : Block) (n : Nat) (m : LedgerMove) : (s.led1 n m).trust = s.trust := by
  unfold Block.led1; split
  · rfl
  · exact Block.raiseBreach_trust ..
@[simp] theorem Block.led1_clk (s : Block) (n : Nat) (m : LedgerMove) : (s.led1 n m).clk = s.clk := by
  unfold Block.led1; split
  · rfl
  · exact Block.raiseBreach_clk ..
@[simp] theorem Block.led1_pwr (s : Block) (n : Nat) (m : LedgerMove) : (s.led1 n m).pwr = s.pwr := by
  unfold Block.led1; split
  · rfl
  · exact Block.raiseBreach_pwr ..
@[simp] theorem Block.led1_err (s : Block) (n : Nat) (m : LedgerMove) : (s.led1 n m).err = s.err := by
  unfold Block.led1; split
  · rfl
  · exact Block.raiseBreach_err ..
@[simp] theorem Block.led1_parts (s : Block) (n : Nat) (m : LedgerMove) : (s.led1 n m).parts = s.parts := by
  unfold Block.led1; split
  · rfl
  · exact Block.raiseBreach_parts ..
@[simp] theorem Block.led1_objs (s : Block) (n : Nat) (m : LedgerMove) : (s.led1 n m).objs = s.objs := by
  unfold Block.led1; split
  · rfl
  · exact Block.raiseBreach_objs ..
@[simp] theorem Block.led1_bundles (s : Block) (n : Nat) (m : LedgerMove) : (s.led1 n m).bundles = s.bundles := by
  unfold Block.led1; split
  · rfl
  · exact Block.raiseBreach_bundles ..
@[simp] theorem Block.led1_jobs (s : Block) (n : Nat) (m : LedgerMove) : (s.led1 n m).jobs = s.jobs := by
  unfold Block.led1; split
  · rfl
  · exact Block.raiseBreach_jobs ..
@[simp] theorem Block.led1_nextJob (s : Block) (n : Nat) (m : LedgerMove) : (s.led1 n m).nextJob = s.nextJob := by
  unfold Block.led1; split
  · rfl
  · exact Block.raiseBreach_nextJob ..
@[simp] theorem Block.led1_sems (s : Block) (n : Nat) (m : LedgerMove) : (s.led1 n m).sems = s.sems := by
  unfold Block.led1; split
  · rfl
  · exact Block.raiseBreach_sems ..
@[simp] theorem Block.led1_clusters (s : Block) (n : Nat) (m : LedgerMove) : (s.led1 n m).clusters = s.clusters := by
  unfold Block.led1; split
  · rfl
  · exact Block.raiseBreach_clusters ..
@[simp] theorem Block.led1_tiles (s : Block) (n : Nat) (m : LedgerMove) : (s.led1 n m).tiles = s.tiles := by
  unfold Block.led1; split
  · rfl
  · exact Block.raiseBreach_tiles ..
@[simp] theorem Block.led1_msc (s : Block) (n : Nat) (m : LedgerMove) : (s.led1 n m).msc = s.msc := by
  unfold Block.led1; split
  · rfl
  · exact Block.raiseBreach_msc ..
@[simp] theorem Block.led1_firn (s : Block) (n : Nat) (m : LedgerMove) : (s.led1 n m).firn = s.firn := by
  unfold Block.led1; split
  · rfl
  · exact Block.raiseBreach_firn ..
@[simp] theorem Block.led1_snow (s : Block) (n : Nat) (m : LedgerMove) : (s.led1 n m).snow = s.snow := by
  unfold Block.led1; split
  · rfl
  · exact Block.raiseBreach_snow ..
@[simp] theorem Block.led1_serve (s : Block) (n : Nat) (m : LedgerMove) : (s.led1 n m).serve = s.serve := by
  unfold Block.led1; split
  · rfl
  · exact Block.raiseBreach_serve ..
@[simp] theorem Block.led1_reqs (s : Block) (n : Nat) (m : LedgerMove) : (s.led1 n m).reqs = s.reqs := by
  unfold Block.led1; split
  · rfl
  · exact Block.raiseBreach_reqs ..
@[simp] theorem Block.led1_reqGens (s : Block) (n : Nat) (m : LedgerMove) : (s.led1 n m).reqGens = s.reqGens := by
  unfold Block.led1; split
  · rfl
  · exact Block.raiseBreach_reqGens ..
@[simp] theorem Block.led1_adapters (s : Block) (n : Nat) (m : LedgerMove) : (s.led1 n m).adapters = s.adapters := by
  unfold Block.led1; split
  · rfl
  · exact Block.raiseBreach_adapters ..
@[simp] theorem Block.led1_esk (s : Block) (n : Nat) (m : LedgerMove) : (s.led1 n m).esk = s.esk := by
  unfold Block.led1; split
  · rfl
  · exact Block.raiseBreach_esk ..
@[simp] theorem Block.led1_beatAt (s : Block) (n : Nat) (m : LedgerMove) : (s.led1 n m).beatAt = s.beatAt := by
  unfold Block.led1; split
  · rfl
  · exact Block.raiseBreach_beatAt ..
@[simp] theorem Block.led1_lostAt (s : Block) (n : Nat) (m : LedgerMove) : (s.led1 n m).lostAt = s.lostAt := by
  unfold Block.led1; split
  · rfl
  · exact Block.raiseBreach_lostAt ..
@[simp] theorem Block.led1_lossUntold (s : Block) (n : Nat) (m : LedgerMove) : (s.led1 n m).lossUntold = s.lossUntold := by
  unfold Block.led1; split
  · rfl
  · exact Block.raiseBreach_lossUntold ..
@[simp] theorem Block.led1_vOwed (s : Block) (n : Nat) (m : LedgerMove) : (s.led1 n m).vOwed = s.vOwed := by
  unfold Block.led1; split
  · rfl
  · exact Block.raiseBreach_vOwed ..

@[simp] theorem Block.led1_perm (s : Block) (n : Nat) (m : LedgerMove) : (s.led1 n m).ice.perm = s.ice.perm := by
  unfold Block.led1; split
  · rfl
  · exact Block.raiseBreach_perm ..

@[simp] theorem Block.ledTake_freeCtr (s : Block) (n k : Nat) : (s.ledTake n k).freeCtr = s.freeCtr := by
  exact Block.led1_freeCtr ..
@[simp] theorem Block.ledTake_latches (s : Block) (n k : Nat) : (s.ledTake n k).latches = s.latches := by
  exact Block.led1_latches ..
@[simp] theorem Block.ledTake_fns (s : Block) (n k : Nat) : (s.ledTake n k).fns = s.fns := by
  exact Block.led1_fns ..
@[simp] theorem Block.ledTake_mbx (s : Block) (n k : Nat) : (s.ledTake n k).mbx = s.mbx := by
  exact Block.led1_mbx ..
@[simp] theorem Block.ledTake_env (s : Block) (n k : Nat) : (s.ledTake n k).env = s.env := by
  exact Block.led1_env ..
@[simp] theorem Block.ledTake_fw (s : Block) (n k : Nat) : (s.ledTake n k).fw = s.fw := by
  exact Block.led1_fw ..
@[simp] theorem Block.ledTake_trust (s : Block) (n k : Nat) : (s.ledTake n k).trust = s.trust := by
  exact Block.led1_trust ..
@[simp] theorem Block.ledTake_clk (s : Block) (n k : Nat) : (s.ledTake n k).clk = s.clk := by
  exact Block.led1_clk ..
@[simp] theorem Block.ledTake_pwr (s : Block) (n k : Nat) : (s.ledTake n k).pwr = s.pwr := by
  exact Block.led1_pwr ..
@[simp] theorem Block.ledTake_err (s : Block) (n k : Nat) : (s.ledTake n k).err = s.err := by
  exact Block.led1_err ..
@[simp] theorem Block.ledTake_parts (s : Block) (n k : Nat) : (s.ledTake n k).parts = s.parts := by
  exact Block.led1_parts ..
@[simp] theorem Block.ledTake_objs (s : Block) (n k : Nat) : (s.ledTake n k).objs = s.objs := by
  exact Block.led1_objs ..
@[simp] theorem Block.ledTake_bundles (s : Block) (n k : Nat) : (s.ledTake n k).bundles = s.bundles := by
  exact Block.led1_bundles ..
@[simp] theorem Block.ledTake_jobs (s : Block) (n k : Nat) : (s.ledTake n k).jobs = s.jobs := by
  exact Block.led1_jobs ..
@[simp] theorem Block.ledTake_nextJob (s : Block) (n k : Nat) : (s.ledTake n k).nextJob = s.nextJob := by
  exact Block.led1_nextJob ..
@[simp] theorem Block.ledTake_sems (s : Block) (n k : Nat) : (s.ledTake n k).sems = s.sems := by
  exact Block.led1_sems ..
@[simp] theorem Block.ledTake_clusters (s : Block) (n k : Nat) : (s.ledTake n k).clusters = s.clusters := by
  exact Block.led1_clusters ..
@[simp] theorem Block.ledTake_tiles (s : Block) (n k : Nat) : (s.ledTake n k).tiles = s.tiles := by
  exact Block.led1_tiles ..
@[simp] theorem Block.ledTake_msc (s : Block) (n k : Nat) : (s.ledTake n k).msc = s.msc := by
  exact Block.led1_msc ..
@[simp] theorem Block.ledTake_firn (s : Block) (n k : Nat) : (s.ledTake n k).firn = s.firn := by
  exact Block.led1_firn ..
@[simp] theorem Block.ledTake_snow (s : Block) (n k : Nat) : (s.ledTake n k).snow = s.snow := by
  exact Block.led1_snow ..
@[simp] theorem Block.ledTake_serve (s : Block) (n k : Nat) : (s.ledTake n k).serve = s.serve := by
  exact Block.led1_serve ..
@[simp] theorem Block.ledTake_reqs (s : Block) (n k : Nat) : (s.ledTake n k).reqs = s.reqs := by
  exact Block.led1_reqs ..
@[simp] theorem Block.ledTake_reqGens (s : Block) (n k : Nat) : (s.ledTake n k).reqGens = s.reqGens := by
  exact Block.led1_reqGens ..
@[simp] theorem Block.ledTake_adapters (s : Block) (n k : Nat) : (s.ledTake n k).adapters = s.adapters := by
  exact Block.led1_adapters ..
@[simp] theorem Block.ledTake_esk (s : Block) (n k : Nat) : (s.ledTake n k).esk = s.esk := by
  exact Block.led1_esk ..
@[simp] theorem Block.ledTake_beatAt (s : Block) (n k : Nat) : (s.ledTake n k).beatAt = s.beatAt := by
  exact Block.led1_beatAt ..
@[simp] theorem Block.ledTake_lostAt (s : Block) (n k : Nat) : (s.ledTake n k).lostAt = s.lostAt := by
  exact Block.led1_lostAt ..
@[simp] theorem Block.ledTake_lossUntold (s : Block) (n k : Nat) : (s.ledTake n k).lossUntold = s.lossUntold := by
  exact Block.led1_lossUntold ..
@[simp] theorem Block.ledTake_vOwed (s : Block) (n k : Nat) : (s.ledTake n k).vOwed = s.vOwed := by
  exact Block.led1_vOwed ..

@[simp] theorem Block.ledTake_perm (s : Block) (n k : Nat) : (s.ledTake n k).ice.perm = s.ice.perm :=
  Block.led1_perm ..

@[simp] theorem Block.ledDrop_freeCtr (s : Block) (n k : Nat) : (s.ledDrop n k).freeCtr = s.freeCtr := by
  exact Block.led1_freeCtr ..
@[simp] theorem Block.ledDrop_latches (s : Block) (n k : Nat) : (s.ledDrop n k).latches = s.latches := by
  exact Block.led1_latches ..
@[simp] theorem Block.ledDrop_fns (s : Block) (n k : Nat) : (s.ledDrop n k).fns = s.fns := by
  exact Block.led1_fns ..
@[simp] theorem Block.ledDrop_mbx (s : Block) (n k : Nat) : (s.ledDrop n k).mbx = s.mbx := by
  exact Block.led1_mbx ..
@[simp] theorem Block.ledDrop_env (s : Block) (n k : Nat) : (s.ledDrop n k).env = s.env := by
  exact Block.led1_env ..
@[simp] theorem Block.ledDrop_fw (s : Block) (n k : Nat) : (s.ledDrop n k).fw = s.fw := by
  exact Block.led1_fw ..
@[simp] theorem Block.ledDrop_trust (s : Block) (n k : Nat) : (s.ledDrop n k).trust = s.trust := by
  exact Block.led1_trust ..
@[simp] theorem Block.ledDrop_clk (s : Block) (n k : Nat) : (s.ledDrop n k).clk = s.clk := by
  exact Block.led1_clk ..
@[simp] theorem Block.ledDrop_pwr (s : Block) (n k : Nat) : (s.ledDrop n k).pwr = s.pwr := by
  exact Block.led1_pwr ..
@[simp] theorem Block.ledDrop_err (s : Block) (n k : Nat) : (s.ledDrop n k).err = s.err := by
  exact Block.led1_err ..
@[simp] theorem Block.ledDrop_parts (s : Block) (n k : Nat) : (s.ledDrop n k).parts = s.parts := by
  exact Block.led1_parts ..
@[simp] theorem Block.ledDrop_objs (s : Block) (n k : Nat) : (s.ledDrop n k).objs = s.objs := by
  exact Block.led1_objs ..
@[simp] theorem Block.ledDrop_bundles (s : Block) (n k : Nat) : (s.ledDrop n k).bundles = s.bundles := by
  exact Block.led1_bundles ..
@[simp] theorem Block.ledDrop_jobs (s : Block) (n k : Nat) : (s.ledDrop n k).jobs = s.jobs := by
  exact Block.led1_jobs ..
@[simp] theorem Block.ledDrop_nextJob (s : Block) (n k : Nat) : (s.ledDrop n k).nextJob = s.nextJob := by
  exact Block.led1_nextJob ..
@[simp] theorem Block.ledDrop_sems (s : Block) (n k : Nat) : (s.ledDrop n k).sems = s.sems := by
  exact Block.led1_sems ..
@[simp] theorem Block.ledDrop_clusters (s : Block) (n k : Nat) : (s.ledDrop n k).clusters = s.clusters := by
  exact Block.led1_clusters ..
@[simp] theorem Block.ledDrop_tiles (s : Block) (n k : Nat) : (s.ledDrop n k).tiles = s.tiles := by
  exact Block.led1_tiles ..
@[simp] theorem Block.ledDrop_msc (s : Block) (n k : Nat) : (s.ledDrop n k).msc = s.msc := by
  exact Block.led1_msc ..
@[simp] theorem Block.ledDrop_firn (s : Block) (n k : Nat) : (s.ledDrop n k).firn = s.firn := by
  exact Block.led1_firn ..
@[simp] theorem Block.ledDrop_snow (s : Block) (n k : Nat) : (s.ledDrop n k).snow = s.snow := by
  exact Block.led1_snow ..
@[simp] theorem Block.ledDrop_serve (s : Block) (n k : Nat) : (s.ledDrop n k).serve = s.serve := by
  exact Block.led1_serve ..
@[simp] theorem Block.ledDrop_reqs (s : Block) (n k : Nat) : (s.ledDrop n k).reqs = s.reqs := by
  exact Block.led1_reqs ..
@[simp] theorem Block.ledDrop_reqGens (s : Block) (n k : Nat) : (s.ledDrop n k).reqGens = s.reqGens := by
  exact Block.led1_reqGens ..
@[simp] theorem Block.ledDrop_adapters (s : Block) (n k : Nat) : (s.ledDrop n k).adapters = s.adapters := by
  exact Block.led1_adapters ..
@[simp] theorem Block.ledDrop_esk (s : Block) (n k : Nat) : (s.ledDrop n k).esk = s.esk := by
  exact Block.led1_esk ..
@[simp] theorem Block.ledDrop_beatAt (s : Block) (n k : Nat) : (s.ledDrop n k).beatAt = s.beatAt := by
  exact Block.led1_beatAt ..
@[simp] theorem Block.ledDrop_lostAt (s : Block) (n k : Nat) : (s.ledDrop n k).lostAt = s.lostAt := by
  exact Block.led1_lostAt ..
@[simp] theorem Block.ledDrop_lossUntold (s : Block) (n k : Nat) : (s.ledDrop n k).lossUntold = s.lossUntold := by
  exact Block.led1_lossUntold ..
@[simp] theorem Block.ledDrop_vOwed (s : Block) (n k : Nat) : (s.ledDrop n k).vOwed = s.vOwed := by
  exact Block.led1_vOwed ..

@[simp] theorem Block.ledDrop_perm (s : Block) (n k : Nat) : (s.ledDrop n k).ice.perm = s.ice.perm :=
  Block.led1_perm ..

@[simp] theorem Block.ledSend_freeCtr (s : Block) (n k : Nat) : (s.ledSend n k).freeCtr = s.freeCtr := by
  exact Block.led1_freeCtr ..
@[simp] theorem Block.ledSend_latches (s : Block) (n k : Nat) : (s.ledSend n k).latches = s.latches := by
  exact Block.led1_latches ..
@[simp] theorem Block.ledSend_fns (s : Block) (n k : Nat) : (s.ledSend n k).fns = s.fns := by
  exact Block.led1_fns ..
@[simp] theorem Block.ledSend_mbx (s : Block) (n k : Nat) : (s.ledSend n k).mbx = s.mbx := by
  exact Block.led1_mbx ..
@[simp] theorem Block.ledSend_env (s : Block) (n k : Nat) : (s.ledSend n k).env = s.env := by
  exact Block.led1_env ..
@[simp] theorem Block.ledSend_fw (s : Block) (n k : Nat) : (s.ledSend n k).fw = s.fw := by
  exact Block.led1_fw ..
@[simp] theorem Block.ledSend_trust (s : Block) (n k : Nat) : (s.ledSend n k).trust = s.trust := by
  exact Block.led1_trust ..
@[simp] theorem Block.ledSend_clk (s : Block) (n k : Nat) : (s.ledSend n k).clk = s.clk := by
  exact Block.led1_clk ..
@[simp] theorem Block.ledSend_pwr (s : Block) (n k : Nat) : (s.ledSend n k).pwr = s.pwr := by
  exact Block.led1_pwr ..
@[simp] theorem Block.ledSend_err (s : Block) (n k : Nat) : (s.ledSend n k).err = s.err := by
  exact Block.led1_err ..
@[simp] theorem Block.ledSend_parts (s : Block) (n k : Nat) : (s.ledSend n k).parts = s.parts := by
  exact Block.led1_parts ..
@[simp] theorem Block.ledSend_objs (s : Block) (n k : Nat) : (s.ledSend n k).objs = s.objs := by
  exact Block.led1_objs ..
@[simp] theorem Block.ledSend_bundles (s : Block) (n k : Nat) : (s.ledSend n k).bundles = s.bundles := by
  exact Block.led1_bundles ..
@[simp] theorem Block.ledSend_jobs (s : Block) (n k : Nat) : (s.ledSend n k).jobs = s.jobs := by
  exact Block.led1_jobs ..
@[simp] theorem Block.ledSend_nextJob (s : Block) (n k : Nat) : (s.ledSend n k).nextJob = s.nextJob := by
  exact Block.led1_nextJob ..
@[simp] theorem Block.ledSend_sems (s : Block) (n k : Nat) : (s.ledSend n k).sems = s.sems := by
  exact Block.led1_sems ..
@[simp] theorem Block.ledSend_clusters (s : Block) (n k : Nat) : (s.ledSend n k).clusters = s.clusters := by
  exact Block.led1_clusters ..
@[simp] theorem Block.ledSend_tiles (s : Block) (n k : Nat) : (s.ledSend n k).tiles = s.tiles := by
  exact Block.led1_tiles ..
@[simp] theorem Block.ledSend_msc (s : Block) (n k : Nat) : (s.ledSend n k).msc = s.msc := by
  exact Block.led1_msc ..
@[simp] theorem Block.ledSend_firn (s : Block) (n k : Nat) : (s.ledSend n k).firn = s.firn := by
  exact Block.led1_firn ..
@[simp] theorem Block.ledSend_snow (s : Block) (n k : Nat) : (s.ledSend n k).snow = s.snow := by
  exact Block.led1_snow ..
@[simp] theorem Block.ledSend_serve (s : Block) (n k : Nat) : (s.ledSend n k).serve = s.serve := by
  exact Block.led1_serve ..
@[simp] theorem Block.ledSend_reqs (s : Block) (n k : Nat) : (s.ledSend n k).reqs = s.reqs := by
  exact Block.led1_reqs ..
@[simp] theorem Block.ledSend_reqGens (s : Block) (n k : Nat) : (s.ledSend n k).reqGens = s.reqGens := by
  exact Block.led1_reqGens ..
@[simp] theorem Block.ledSend_adapters (s : Block) (n k : Nat) : (s.ledSend n k).adapters = s.adapters := by
  exact Block.led1_adapters ..
@[simp] theorem Block.ledSend_esk (s : Block) (n k : Nat) : (s.ledSend n k).esk = s.esk := by
  exact Block.led1_esk ..
@[simp] theorem Block.ledSend_beatAt (s : Block) (n k : Nat) : (s.ledSend n k).beatAt = s.beatAt := by
  exact Block.led1_beatAt ..
@[simp] theorem Block.ledSend_lostAt (s : Block) (n k : Nat) : (s.ledSend n k).lostAt = s.lostAt := by
  exact Block.led1_lostAt ..
@[simp] theorem Block.ledSend_lossUntold (s : Block) (n k : Nat) : (s.ledSend n k).lossUntold = s.lossUntold := by
  exact Block.led1_lossUntold ..
@[simp] theorem Block.ledSend_vOwed (s : Block) (n k : Nat) : (s.ledSend n k).vOwed = s.vOwed := by
  exact Block.led1_vOwed ..

@[simp] theorem Block.ledSend_perm (s : Block) (n k : Nat) : (s.ledSend n k).ice.perm = s.ice.perm :=
  Block.led1_perm ..

@[simp] theorem Block.ledLand_freeCtr (s : Block) (n k : Nat) : (s.ledLand n k).freeCtr = s.freeCtr := by
  exact Block.led1_freeCtr ..
@[simp] theorem Block.ledLand_latches (s : Block) (n k : Nat) : (s.ledLand n k).latches = s.latches := by
  exact Block.led1_latches ..
@[simp] theorem Block.ledLand_fns (s : Block) (n k : Nat) : (s.ledLand n k).fns = s.fns := by
  exact Block.led1_fns ..
@[simp] theorem Block.ledLand_mbx (s : Block) (n k : Nat) : (s.ledLand n k).mbx = s.mbx := by
  exact Block.led1_mbx ..
@[simp] theorem Block.ledLand_env (s : Block) (n k : Nat) : (s.ledLand n k).env = s.env := by
  exact Block.led1_env ..
@[simp] theorem Block.ledLand_fw (s : Block) (n k : Nat) : (s.ledLand n k).fw = s.fw := by
  exact Block.led1_fw ..
@[simp] theorem Block.ledLand_trust (s : Block) (n k : Nat) : (s.ledLand n k).trust = s.trust := by
  exact Block.led1_trust ..
@[simp] theorem Block.ledLand_clk (s : Block) (n k : Nat) : (s.ledLand n k).clk = s.clk := by
  exact Block.led1_clk ..
@[simp] theorem Block.ledLand_pwr (s : Block) (n k : Nat) : (s.ledLand n k).pwr = s.pwr := by
  exact Block.led1_pwr ..
@[simp] theorem Block.ledLand_err (s : Block) (n k : Nat) : (s.ledLand n k).err = s.err := by
  exact Block.led1_err ..
@[simp] theorem Block.ledLand_parts (s : Block) (n k : Nat) : (s.ledLand n k).parts = s.parts := by
  exact Block.led1_parts ..
@[simp] theorem Block.ledLand_objs (s : Block) (n k : Nat) : (s.ledLand n k).objs = s.objs := by
  exact Block.led1_objs ..
@[simp] theorem Block.ledLand_bundles (s : Block) (n k : Nat) : (s.ledLand n k).bundles = s.bundles := by
  exact Block.led1_bundles ..
@[simp] theorem Block.ledLand_jobs (s : Block) (n k : Nat) : (s.ledLand n k).jobs = s.jobs := by
  exact Block.led1_jobs ..
@[simp] theorem Block.ledLand_nextJob (s : Block) (n k : Nat) : (s.ledLand n k).nextJob = s.nextJob := by
  exact Block.led1_nextJob ..
@[simp] theorem Block.ledLand_sems (s : Block) (n k : Nat) : (s.ledLand n k).sems = s.sems := by
  exact Block.led1_sems ..
@[simp] theorem Block.ledLand_clusters (s : Block) (n k : Nat) : (s.ledLand n k).clusters = s.clusters := by
  exact Block.led1_clusters ..
@[simp] theorem Block.ledLand_tiles (s : Block) (n k : Nat) : (s.ledLand n k).tiles = s.tiles := by
  exact Block.led1_tiles ..
@[simp] theorem Block.ledLand_msc (s : Block) (n k : Nat) : (s.ledLand n k).msc = s.msc := by
  exact Block.led1_msc ..
@[simp] theorem Block.ledLand_firn (s : Block) (n k : Nat) : (s.ledLand n k).firn = s.firn := by
  exact Block.led1_firn ..
@[simp] theorem Block.ledLand_snow (s : Block) (n k : Nat) : (s.ledLand n k).snow = s.snow := by
  exact Block.led1_snow ..
@[simp] theorem Block.ledLand_serve (s : Block) (n k : Nat) : (s.ledLand n k).serve = s.serve := by
  exact Block.led1_serve ..
@[simp] theorem Block.ledLand_reqs (s : Block) (n k : Nat) : (s.ledLand n k).reqs = s.reqs := by
  exact Block.led1_reqs ..
@[simp] theorem Block.ledLand_reqGens (s : Block) (n k : Nat) : (s.ledLand n k).reqGens = s.reqGens := by
  exact Block.led1_reqGens ..
@[simp] theorem Block.ledLand_adapters (s : Block) (n k : Nat) : (s.ledLand n k).adapters = s.adapters := by
  exact Block.led1_adapters ..
@[simp] theorem Block.ledLand_esk (s : Block) (n k : Nat) : (s.ledLand n k).esk = s.esk := by
  exact Block.led1_esk ..
@[simp] theorem Block.ledLand_beatAt (s : Block) (n k : Nat) : (s.ledLand n k).beatAt = s.beatAt := by
  exact Block.led1_beatAt ..
@[simp] theorem Block.ledLand_lostAt (s : Block) (n k : Nat) : (s.ledLand n k).lostAt = s.lostAt := by
  exact Block.led1_lostAt ..
@[simp] theorem Block.ledLand_lossUntold (s : Block) (n k : Nat) : (s.ledLand n k).lossUntold = s.lossUntold := by
  exact Block.led1_lossUntold ..
@[simp] theorem Block.ledLand_vOwed (s : Block) (n k : Nat) : (s.ledLand n k).vOwed = s.vOwed := by
  exact Block.led1_vOwed ..

@[simp] theorem Block.ledLand_perm (s : Block) (n k : Nat) : (s.ledLand n k).ice.perm = s.ice.perm :=
  Block.led1_perm ..

@[simp] theorem Block.ledArrive_freeCtr (s : Block) (n k : Nat) : (s.ledArrive n k).freeCtr = s.freeCtr := by
  exact Block.led1_freeCtr ..
@[simp] theorem Block.ledArrive_latches (s : Block) (n k : Nat) : (s.ledArrive n k).latches = s.latches := by
  exact Block.led1_latches ..
@[simp] theorem Block.ledArrive_fns (s : Block) (n k : Nat) : (s.ledArrive n k).fns = s.fns := by
  exact Block.led1_fns ..
@[simp] theorem Block.ledArrive_mbx (s : Block) (n k : Nat) : (s.ledArrive n k).mbx = s.mbx := by
  exact Block.led1_mbx ..
@[simp] theorem Block.ledArrive_env (s : Block) (n k : Nat) : (s.ledArrive n k).env = s.env := by
  exact Block.led1_env ..
@[simp] theorem Block.ledArrive_fw (s : Block) (n k : Nat) : (s.ledArrive n k).fw = s.fw := by
  exact Block.led1_fw ..
@[simp] theorem Block.ledArrive_trust (s : Block) (n k : Nat) : (s.ledArrive n k).trust = s.trust := by
  exact Block.led1_trust ..
@[simp] theorem Block.ledArrive_clk (s : Block) (n k : Nat) : (s.ledArrive n k).clk = s.clk := by
  exact Block.led1_clk ..
@[simp] theorem Block.ledArrive_pwr (s : Block) (n k : Nat) : (s.ledArrive n k).pwr = s.pwr := by
  exact Block.led1_pwr ..
@[simp] theorem Block.ledArrive_err (s : Block) (n k : Nat) : (s.ledArrive n k).err = s.err := by
  exact Block.led1_err ..
@[simp] theorem Block.ledArrive_parts (s : Block) (n k : Nat) : (s.ledArrive n k).parts = s.parts := by
  exact Block.led1_parts ..
@[simp] theorem Block.ledArrive_objs (s : Block) (n k : Nat) : (s.ledArrive n k).objs = s.objs := by
  exact Block.led1_objs ..
@[simp] theorem Block.ledArrive_bundles (s : Block) (n k : Nat) : (s.ledArrive n k).bundles = s.bundles := by
  exact Block.led1_bundles ..
@[simp] theorem Block.ledArrive_jobs (s : Block) (n k : Nat) : (s.ledArrive n k).jobs = s.jobs := by
  exact Block.led1_jobs ..
@[simp] theorem Block.ledArrive_nextJob (s : Block) (n k : Nat) : (s.ledArrive n k).nextJob = s.nextJob := by
  exact Block.led1_nextJob ..
@[simp] theorem Block.ledArrive_sems (s : Block) (n k : Nat) : (s.ledArrive n k).sems = s.sems := by
  exact Block.led1_sems ..
@[simp] theorem Block.ledArrive_clusters (s : Block) (n k : Nat) : (s.ledArrive n k).clusters = s.clusters := by
  exact Block.led1_clusters ..
@[simp] theorem Block.ledArrive_tiles (s : Block) (n k : Nat) : (s.ledArrive n k).tiles = s.tiles := by
  exact Block.led1_tiles ..
@[simp] theorem Block.ledArrive_msc (s : Block) (n k : Nat) : (s.ledArrive n k).msc = s.msc := by
  exact Block.led1_msc ..
@[simp] theorem Block.ledArrive_firn (s : Block) (n k : Nat) : (s.ledArrive n k).firn = s.firn := by
  exact Block.led1_firn ..
@[simp] theorem Block.ledArrive_snow (s : Block) (n k : Nat) : (s.ledArrive n k).snow = s.snow := by
  exact Block.led1_snow ..
@[simp] theorem Block.ledArrive_serve (s : Block) (n k : Nat) : (s.ledArrive n k).serve = s.serve := by
  exact Block.led1_serve ..
@[simp] theorem Block.ledArrive_reqs (s : Block) (n k : Nat) : (s.ledArrive n k).reqs = s.reqs := by
  exact Block.led1_reqs ..
@[simp] theorem Block.ledArrive_reqGens (s : Block) (n k : Nat) : (s.ledArrive n k).reqGens = s.reqGens := by
  exact Block.led1_reqGens ..
@[simp] theorem Block.ledArrive_adapters (s : Block) (n k : Nat) : (s.ledArrive n k).adapters = s.adapters := by
  exact Block.led1_adapters ..
@[simp] theorem Block.ledArrive_esk (s : Block) (n k : Nat) : (s.ledArrive n k).esk = s.esk := by
  exact Block.led1_esk ..
@[simp] theorem Block.ledArrive_beatAt (s : Block) (n k : Nat) : (s.ledArrive n k).beatAt = s.beatAt := by
  exact Block.led1_beatAt ..
@[simp] theorem Block.ledArrive_lostAt (s : Block) (n k : Nat) : (s.ledArrive n k).lostAt = s.lostAt := by
  exact Block.led1_lostAt ..
@[simp] theorem Block.ledArrive_lossUntold (s : Block) (n k : Nat) : (s.ledArrive n k).lossUntold = s.lossUntold := by
  exact Block.led1_lossUntold ..
@[simp] theorem Block.ledArrive_vOwed (s : Block) (n k : Nat) : (s.ledArrive n k).vOwed = s.vOwed := by
  exact Block.led1_vOwed ..

@[simp] theorem Block.ledArrive_perm (s : Block) (n k : Nat) : (s.ledArrive n k).ice.perm = s.ice.perm :=
  Block.led1_perm ..

@[simp] theorem Block.ledFly_freeCtr (s : Block) (n k : Nat) : (s.ledFly n k).freeCtr = s.freeCtr := by
  exact Block.led1_freeCtr ..
@[simp] theorem Block.ledFly_latches (s : Block) (n k : Nat) : (s.ledFly n k).latches = s.latches := by
  exact Block.led1_latches ..
@[simp] theorem Block.ledFly_fns (s : Block) (n k : Nat) : (s.ledFly n k).fns = s.fns := by
  exact Block.led1_fns ..
@[simp] theorem Block.ledFly_mbx (s : Block) (n k : Nat) : (s.ledFly n k).mbx = s.mbx := by
  exact Block.led1_mbx ..
@[simp] theorem Block.ledFly_env (s : Block) (n k : Nat) : (s.ledFly n k).env = s.env := by
  exact Block.led1_env ..
@[simp] theorem Block.ledFly_fw (s : Block) (n k : Nat) : (s.ledFly n k).fw = s.fw := by
  exact Block.led1_fw ..
@[simp] theorem Block.ledFly_trust (s : Block) (n k : Nat) : (s.ledFly n k).trust = s.trust := by
  exact Block.led1_trust ..
@[simp] theorem Block.ledFly_clk (s : Block) (n k : Nat) : (s.ledFly n k).clk = s.clk := by
  exact Block.led1_clk ..
@[simp] theorem Block.ledFly_pwr (s : Block) (n k : Nat) : (s.ledFly n k).pwr = s.pwr := by
  exact Block.led1_pwr ..
@[simp] theorem Block.ledFly_err (s : Block) (n k : Nat) : (s.ledFly n k).err = s.err := by
  exact Block.led1_err ..
@[simp] theorem Block.ledFly_parts (s : Block) (n k : Nat) : (s.ledFly n k).parts = s.parts := by
  exact Block.led1_parts ..
@[simp] theorem Block.ledFly_objs (s : Block) (n k : Nat) : (s.ledFly n k).objs = s.objs := by
  exact Block.led1_objs ..
@[simp] theorem Block.ledFly_bundles (s : Block) (n k : Nat) : (s.ledFly n k).bundles = s.bundles := by
  exact Block.led1_bundles ..
@[simp] theorem Block.ledFly_jobs (s : Block) (n k : Nat) : (s.ledFly n k).jobs = s.jobs := by
  exact Block.led1_jobs ..
@[simp] theorem Block.ledFly_nextJob (s : Block) (n k : Nat) : (s.ledFly n k).nextJob = s.nextJob := by
  exact Block.led1_nextJob ..
@[simp] theorem Block.ledFly_sems (s : Block) (n k : Nat) : (s.ledFly n k).sems = s.sems := by
  exact Block.led1_sems ..
@[simp] theorem Block.ledFly_clusters (s : Block) (n k : Nat) : (s.ledFly n k).clusters = s.clusters := by
  exact Block.led1_clusters ..
@[simp] theorem Block.ledFly_tiles (s : Block) (n k : Nat) : (s.ledFly n k).tiles = s.tiles := by
  exact Block.led1_tiles ..
@[simp] theorem Block.ledFly_msc (s : Block) (n k : Nat) : (s.ledFly n k).msc = s.msc := by
  exact Block.led1_msc ..
@[simp] theorem Block.ledFly_firn (s : Block) (n k : Nat) : (s.ledFly n k).firn = s.firn := by
  exact Block.led1_firn ..
@[simp] theorem Block.ledFly_snow (s : Block) (n k : Nat) : (s.ledFly n k).snow = s.snow := by
  exact Block.led1_snow ..
@[simp] theorem Block.ledFly_serve (s : Block) (n k : Nat) : (s.ledFly n k).serve = s.serve := by
  exact Block.led1_serve ..
@[simp] theorem Block.ledFly_reqs (s : Block) (n k : Nat) : (s.ledFly n k).reqs = s.reqs := by
  exact Block.led1_reqs ..
@[simp] theorem Block.ledFly_reqGens (s : Block) (n k : Nat) : (s.ledFly n k).reqGens = s.reqGens := by
  exact Block.led1_reqGens ..
@[simp] theorem Block.ledFly_adapters (s : Block) (n k : Nat) : (s.ledFly n k).adapters = s.adapters := by
  exact Block.led1_adapters ..
@[simp] theorem Block.ledFly_esk (s : Block) (n k : Nat) : (s.ledFly n k).esk = s.esk := by
  exact Block.led1_esk ..
@[simp] theorem Block.ledFly_beatAt (s : Block) (n k : Nat) : (s.ledFly n k).beatAt = s.beatAt := by
  exact Block.led1_beatAt ..
@[simp] theorem Block.ledFly_lostAt (s : Block) (n k : Nat) : (s.ledFly n k).lostAt = s.lostAt := by
  exact Block.led1_lostAt ..
@[simp] theorem Block.ledFly_lossUntold (s : Block) (n k : Nat) : (s.ledFly n k).lossUntold = s.lossUntold := by
  exact Block.led1_lossUntold ..
@[simp] theorem Block.ledFly_vOwed (s : Block) (n k : Nat) : (s.ledFly n k).vOwed = s.vOwed := by
  exact Block.led1_vOwed ..

@[simp] theorem Block.ledFly_perm (s : Block) (n k : Nat) : (s.ledFly n k).ice.perm = s.ice.perm :=
  Block.led1_perm ..

@[simp] theorem Block.ledGrow_freeCtr (s : Block) (n k : Nat) : (s.ledGrow n k).freeCtr = s.freeCtr := by
  exact Block.led1_freeCtr ..
@[simp] theorem Block.ledGrow_latches (s : Block) (n k : Nat) : (s.ledGrow n k).latches = s.latches := by
  exact Block.led1_latches ..
@[simp] theorem Block.ledGrow_fns (s : Block) (n k : Nat) : (s.ledGrow n k).fns = s.fns := by
  exact Block.led1_fns ..
@[simp] theorem Block.ledGrow_mbx (s : Block) (n k : Nat) : (s.ledGrow n k).mbx = s.mbx := by
  exact Block.led1_mbx ..
@[simp] theorem Block.ledGrow_env (s : Block) (n k : Nat) : (s.ledGrow n k).env = s.env := by
  exact Block.led1_env ..
@[simp] theorem Block.ledGrow_fw (s : Block) (n k : Nat) : (s.ledGrow n k).fw = s.fw := by
  exact Block.led1_fw ..
@[simp] theorem Block.ledGrow_trust (s : Block) (n k : Nat) : (s.ledGrow n k).trust = s.trust := by
  exact Block.led1_trust ..
@[simp] theorem Block.ledGrow_clk (s : Block) (n k : Nat) : (s.ledGrow n k).clk = s.clk := by
  exact Block.led1_clk ..
@[simp] theorem Block.ledGrow_pwr (s : Block) (n k : Nat) : (s.ledGrow n k).pwr = s.pwr := by
  exact Block.led1_pwr ..
@[simp] theorem Block.ledGrow_err (s : Block) (n k : Nat) : (s.ledGrow n k).err = s.err := by
  exact Block.led1_err ..
@[simp] theorem Block.ledGrow_parts (s : Block) (n k : Nat) : (s.ledGrow n k).parts = s.parts := by
  exact Block.led1_parts ..
@[simp] theorem Block.ledGrow_objs (s : Block) (n k : Nat) : (s.ledGrow n k).objs = s.objs := by
  exact Block.led1_objs ..
@[simp] theorem Block.ledGrow_bundles (s : Block) (n k : Nat) : (s.ledGrow n k).bundles = s.bundles := by
  exact Block.led1_bundles ..
@[simp] theorem Block.ledGrow_jobs (s : Block) (n k : Nat) : (s.ledGrow n k).jobs = s.jobs := by
  exact Block.led1_jobs ..
@[simp] theorem Block.ledGrow_nextJob (s : Block) (n k : Nat) : (s.ledGrow n k).nextJob = s.nextJob := by
  exact Block.led1_nextJob ..
@[simp] theorem Block.ledGrow_sems (s : Block) (n k : Nat) : (s.ledGrow n k).sems = s.sems := by
  exact Block.led1_sems ..
@[simp] theorem Block.ledGrow_clusters (s : Block) (n k : Nat) : (s.ledGrow n k).clusters = s.clusters := by
  exact Block.led1_clusters ..
@[simp] theorem Block.ledGrow_tiles (s : Block) (n k : Nat) : (s.ledGrow n k).tiles = s.tiles := by
  exact Block.led1_tiles ..
@[simp] theorem Block.ledGrow_msc (s : Block) (n k : Nat) : (s.ledGrow n k).msc = s.msc := by
  exact Block.led1_msc ..
@[simp] theorem Block.ledGrow_firn (s : Block) (n k : Nat) : (s.ledGrow n k).firn = s.firn := by
  exact Block.led1_firn ..
@[simp] theorem Block.ledGrow_snow (s : Block) (n k : Nat) : (s.ledGrow n k).snow = s.snow := by
  exact Block.led1_snow ..
@[simp] theorem Block.ledGrow_serve (s : Block) (n k : Nat) : (s.ledGrow n k).serve = s.serve := by
  exact Block.led1_serve ..
@[simp] theorem Block.ledGrow_reqs (s : Block) (n k : Nat) : (s.ledGrow n k).reqs = s.reqs := by
  exact Block.led1_reqs ..
@[simp] theorem Block.ledGrow_reqGens (s : Block) (n k : Nat) : (s.ledGrow n k).reqGens = s.reqGens := by
  exact Block.led1_reqGens ..
@[simp] theorem Block.ledGrow_adapters (s : Block) (n k : Nat) : (s.ledGrow n k).adapters = s.adapters := by
  exact Block.led1_adapters ..
@[simp] theorem Block.ledGrow_esk (s : Block) (n k : Nat) : (s.ledGrow n k).esk = s.esk := by
  exact Block.led1_esk ..
@[simp] theorem Block.ledGrow_beatAt (s : Block) (n k : Nat) : (s.ledGrow n k).beatAt = s.beatAt := by
  exact Block.led1_beatAt ..
@[simp] theorem Block.ledGrow_lostAt (s : Block) (n k : Nat) : (s.ledGrow n k).lostAt = s.lostAt := by
  exact Block.led1_lostAt ..
@[simp] theorem Block.ledGrow_lossUntold (s : Block) (n k : Nat) : (s.ledGrow n k).lossUntold = s.lossUntold := by
  exact Block.led1_lossUntold ..
@[simp] theorem Block.ledGrow_vOwed (s : Block) (n k : Nat) : (s.ledGrow n k).vOwed = s.vOwed := by
  exact Block.led1_vOwed ..

@[simp] theorem Block.ledGrow_perm (s : Block) (n k : Nat) : (s.ledGrow n k).ice.perm = s.ice.perm :=
  Block.led1_perm ..

@[simp] theorem Block.ledShrink_freeCtr (s : Block) (n k : Nat) : (s.ledShrink n k).freeCtr = s.freeCtr := by
  exact Block.led1_freeCtr ..
@[simp] theorem Block.ledShrink_latches (s : Block) (n k : Nat) : (s.ledShrink n k).latches = s.latches := by
  exact Block.led1_latches ..
@[simp] theorem Block.ledShrink_fns (s : Block) (n k : Nat) : (s.ledShrink n k).fns = s.fns := by
  exact Block.led1_fns ..
@[simp] theorem Block.ledShrink_mbx (s : Block) (n k : Nat) : (s.ledShrink n k).mbx = s.mbx := by
  exact Block.led1_mbx ..
@[simp] theorem Block.ledShrink_env (s : Block) (n k : Nat) : (s.ledShrink n k).env = s.env := by
  exact Block.led1_env ..
@[simp] theorem Block.ledShrink_fw (s : Block) (n k : Nat) : (s.ledShrink n k).fw = s.fw := by
  exact Block.led1_fw ..
@[simp] theorem Block.ledShrink_trust (s : Block) (n k : Nat) : (s.ledShrink n k).trust = s.trust := by
  exact Block.led1_trust ..
@[simp] theorem Block.ledShrink_clk (s : Block) (n k : Nat) : (s.ledShrink n k).clk = s.clk := by
  exact Block.led1_clk ..
@[simp] theorem Block.ledShrink_pwr (s : Block) (n k : Nat) : (s.ledShrink n k).pwr = s.pwr := by
  exact Block.led1_pwr ..
@[simp] theorem Block.ledShrink_err (s : Block) (n k : Nat) : (s.ledShrink n k).err = s.err := by
  exact Block.led1_err ..
@[simp] theorem Block.ledShrink_parts (s : Block) (n k : Nat) : (s.ledShrink n k).parts = s.parts := by
  exact Block.led1_parts ..
@[simp] theorem Block.ledShrink_objs (s : Block) (n k : Nat) : (s.ledShrink n k).objs = s.objs := by
  exact Block.led1_objs ..
@[simp] theorem Block.ledShrink_bundles (s : Block) (n k : Nat) : (s.ledShrink n k).bundles = s.bundles := by
  exact Block.led1_bundles ..
@[simp] theorem Block.ledShrink_jobs (s : Block) (n k : Nat) : (s.ledShrink n k).jobs = s.jobs := by
  exact Block.led1_jobs ..
@[simp] theorem Block.ledShrink_nextJob (s : Block) (n k : Nat) : (s.ledShrink n k).nextJob = s.nextJob := by
  exact Block.led1_nextJob ..
@[simp] theorem Block.ledShrink_sems (s : Block) (n k : Nat) : (s.ledShrink n k).sems = s.sems := by
  exact Block.led1_sems ..
@[simp] theorem Block.ledShrink_clusters (s : Block) (n k : Nat) : (s.ledShrink n k).clusters = s.clusters := by
  exact Block.led1_clusters ..
@[simp] theorem Block.ledShrink_tiles (s : Block) (n k : Nat) : (s.ledShrink n k).tiles = s.tiles := by
  exact Block.led1_tiles ..
@[simp] theorem Block.ledShrink_msc (s : Block) (n k : Nat) : (s.ledShrink n k).msc = s.msc := by
  exact Block.led1_msc ..
@[simp] theorem Block.ledShrink_firn (s : Block) (n k : Nat) : (s.ledShrink n k).firn = s.firn := by
  exact Block.led1_firn ..
@[simp] theorem Block.ledShrink_snow (s : Block) (n k : Nat) : (s.ledShrink n k).snow = s.snow := by
  exact Block.led1_snow ..
@[simp] theorem Block.ledShrink_serve (s : Block) (n k : Nat) : (s.ledShrink n k).serve = s.serve := by
  exact Block.led1_serve ..
@[simp] theorem Block.ledShrink_reqs (s : Block) (n k : Nat) : (s.ledShrink n k).reqs = s.reqs := by
  exact Block.led1_reqs ..
@[simp] theorem Block.ledShrink_reqGens (s : Block) (n k : Nat) : (s.ledShrink n k).reqGens = s.reqGens := by
  exact Block.led1_reqGens ..
@[simp] theorem Block.ledShrink_adapters (s : Block) (n k : Nat) : (s.ledShrink n k).adapters = s.adapters := by
  exact Block.led1_adapters ..
@[simp] theorem Block.ledShrink_esk (s : Block) (n k : Nat) : (s.ledShrink n k).esk = s.esk := by
  exact Block.led1_esk ..
@[simp] theorem Block.ledShrink_beatAt (s : Block) (n k : Nat) : (s.ledShrink n k).beatAt = s.beatAt := by
  exact Block.led1_beatAt ..
@[simp] theorem Block.ledShrink_lostAt (s : Block) (n k : Nat) : (s.ledShrink n k).lostAt = s.lostAt := by
  exact Block.led1_lostAt ..
@[simp] theorem Block.ledShrink_lossUntold (s : Block) (n k : Nat) : (s.ledShrink n k).lossUntold = s.lossUntold := by
  exact Block.led1_lossUntold ..
@[simp] theorem Block.ledShrink_vOwed (s : Block) (n k : Nat) : (s.ledShrink n k).vOwed = s.vOwed := by
  exact Block.led1_vOwed ..

@[simp] theorem Block.ledShrink_perm (s : Block) (n k : Nat) : (s.ledShrink n k).ice.perm = s.ice.perm :=
  Block.led1_perm ..

@[simp] theorem Block.hostPut_freeCtr (s : Block) (a : Nat) (bs : List Byte) : (s.hostPut a bs).freeCtr = s.freeCtr := by
  unfold Block.hostPut; split <;> rfl
@[simp] theorem Block.hostPut_regs (s : Block) (a : Nat) (bs : List Byte) : (s.hostPut a bs).regs = s.regs := by
  unfold Block.hostPut; split <;> rfl
@[simp] theorem Block.hostPut_latches (s : Block) (a : Nat) (bs : List Byte) : (s.hostPut a bs).latches = s.latches := by
  unfold Block.hostPut; split <;> rfl
@[simp] theorem Block.hostPut_fns (s : Block) (a : Nat) (bs : List Byte) : (s.hostPut a bs).fns = s.fns := by
  unfold Block.hostPut; split <;> rfl
@[simp] theorem Block.hostPut_mbx (s : Block) (a : Nat) (bs : List Byte) : (s.hostPut a bs).mbx = s.mbx := by
  unfold Block.hostPut; split <;> rfl
@[simp] theorem Block.hostPut_led (s : Block) (a : Nat) (bs : List Byte) : (s.hostPut a bs).led = s.led := by
  unfold Block.hostPut; split <;> rfl
@[simp] theorem Block.hostPut_ice (s : Block) (a : Nat) (bs : List Byte) : (s.hostPut a bs).ice = s.ice := by
  unfold Block.hostPut; split <;> rfl
@[simp] theorem Block.hostPut_fw (s : Block) (a : Nat) (bs : List Byte) : (s.hostPut a bs).fw = s.fw := by
  unfold Block.hostPut; split <;> rfl
@[simp] theorem Block.hostPut_trust (s : Block) (a : Nat) (bs : List Byte) : (s.hostPut a bs).trust = s.trust := by
  unfold Block.hostPut; split <;> rfl
@[simp] theorem Block.hostPut_start (s : Block) (a : Nat) (bs : List Byte) : (s.hostPut a bs).start = s.start := by
  unfold Block.hostPut; split <;> rfl
@[simp] theorem Block.hostPut_clk (s : Block) (a : Nat) (bs : List Byte) : (s.hostPut a bs).clk = s.clk := by
  unfold Block.hostPut; split <;> rfl
@[simp] theorem Block.hostPut_pwr (s : Block) (a : Nat) (bs : List Byte) : (s.hostPut a bs).pwr = s.pwr := by
  unfold Block.hostPut; split <;> rfl
@[simp] theorem Block.hostPut_err (s : Block) (a : Nat) (bs : List Byte) : (s.hostPut a bs).err = s.err := by
  unfold Block.hostPut; split <;> rfl
@[simp] theorem Block.hostPut_parts (s : Block) (a : Nat) (bs : List Byte) : (s.hostPut a bs).parts = s.parts := by
  unfold Block.hostPut; split <;> rfl
@[simp] theorem Block.hostPut_objs (s : Block) (a : Nat) (bs : List Byte) : (s.hostPut a bs).objs = s.objs := by
  unfold Block.hostPut; split <;> rfl
@[simp] theorem Block.hostPut_bundles (s : Block) (a : Nat) (bs : List Byte) : (s.hostPut a bs).bundles = s.bundles := by
  unfold Block.hostPut; split <;> rfl
@[simp] theorem Block.hostPut_jobs (s : Block) (a : Nat) (bs : List Byte) : (s.hostPut a bs).jobs = s.jobs := by
  unfold Block.hostPut; split <;> rfl
@[simp] theorem Block.hostPut_nextJob (s : Block) (a : Nat) (bs : List Byte) : (s.hostPut a bs).nextJob = s.nextJob := by
  unfold Block.hostPut; split <;> rfl
@[simp] theorem Block.hostPut_sems (s : Block) (a : Nat) (bs : List Byte) : (s.hostPut a bs).sems = s.sems := by
  unfold Block.hostPut; split <;> rfl
@[simp] theorem Block.hostPut_clusters (s : Block) (a : Nat) (bs : List Byte) : (s.hostPut a bs).clusters = s.clusters := by
  unfold Block.hostPut; split <;> rfl
@[simp] theorem Block.hostPut_tiles (s : Block) (a : Nat) (bs : List Byte) : (s.hostPut a bs).tiles = s.tiles := by
  unfold Block.hostPut; split <;> rfl
@[simp] theorem Block.hostPut_msc (s : Block) (a : Nat) (bs : List Byte) : (s.hostPut a bs).msc = s.msc := by
  unfold Block.hostPut; split <;> rfl
@[simp] theorem Block.hostPut_firn (s : Block) (a : Nat) (bs : List Byte) : (s.hostPut a bs).firn = s.firn := by
  unfold Block.hostPut; split <;> rfl
@[simp] theorem Block.hostPut_snow (s : Block) (a : Nat) (bs : List Byte) : (s.hostPut a bs).snow = s.snow := by
  unfold Block.hostPut; split <;> rfl
@[simp] theorem Block.hostPut_serve (s : Block) (a : Nat) (bs : List Byte) : (s.hostPut a bs).serve = s.serve := by
  unfold Block.hostPut; split <;> rfl
@[simp] theorem Block.hostPut_reqs (s : Block) (a : Nat) (bs : List Byte) : (s.hostPut a bs).reqs = s.reqs := by
  unfold Block.hostPut; split <;> rfl
@[simp] theorem Block.hostPut_reqGens (s : Block) (a : Nat) (bs : List Byte) : (s.hostPut a bs).reqGens = s.reqGens := by
  unfold Block.hostPut; split <;> rfl
@[simp] theorem Block.hostPut_adapters (s : Block) (a : Nat) (bs : List Byte) : (s.hostPut a bs).adapters = s.adapters := by
  unfold Block.hostPut; split <;> rfl
@[simp] theorem Block.hostPut_esk (s : Block) (a : Nat) (bs : List Byte) : (s.hostPut a bs).esk = s.esk := by
  unfold Block.hostPut; split <;> rfl
@[simp] theorem Block.hostPut_beatAt (s : Block) (a : Nat) (bs : List Byte) : (s.hostPut a bs).beatAt = s.beatAt := by
  unfold Block.hostPut; split <;> rfl
@[simp] theorem Block.hostPut_lostAt (s : Block) (a : Nat) (bs : List Byte) : (s.hostPut a bs).lostAt = s.lostAt := by
  unfold Block.hostPut; split <;> rfl
@[simp] theorem Block.hostPut_lossUntold (s : Block) (a : Nat) (bs : List Byte) : (s.hostPut a bs).lossUntold = s.lossUntold := by
  unfold Block.hostPut; split <;> rfl
@[simp] theorem Block.hostPut_vOwed (s : Block) (a : Nat) (bs : List Byte) : (s.hostPut a bs).vOwed = s.vOwed := by
  unfold Block.hostPut; split <;> rfl

@[simp] theorem Block.boxData_freeCtr (s : Block) (a : Nat) (ws : List Word) : (s.boxData a ws).freeCtr = s.freeCtr := by
  unfold Block.boxData; generalize 16 = n; exact loop_keeps (fun (s : Block) => s.freeCtr) _ (fun _ _ => Block.wr_freeCtr _ _ _) n s
@[simp] theorem Block.boxData_latches (s : Block) (a : Nat) (ws : List Word) : (s.boxData a ws).latches = s.latches := by
  unfold Block.boxData; generalize 16 = n; exact loop_keeps (fun (s : Block) => s.latches) _ (fun _ _ => Block.wr_latches _ _ _) n s
@[simp] theorem Block.boxData_fns (s : Block) (a : Nat) (ws : List Word) : (s.boxData a ws).fns = s.fns := by
  unfold Block.boxData; generalize 16 = n; exact loop_keeps (fun (s : Block) => s.fns) _ (fun _ _ => Block.wr_fns _ _ _) n s
@[simp] theorem Block.boxData_mbx (s : Block) (a : Nat) (ws : List Word) : (s.boxData a ws).mbx = s.mbx := by
  unfold Block.boxData; generalize 16 = n; exact loop_keeps (fun (s : Block) => s.mbx) _ (fun _ _ => Block.wr_mbx _ _ _) n s
@[simp] theorem Block.boxData_env (s : Block) (a : Nat) (ws : List Word) : (s.boxData a ws).env = s.env := by
  unfold Block.boxData; generalize 16 = n; exact loop_keeps (fun (s : Block) => s.env) _ (fun _ _ => Block.wr_env _ _ _) n s
@[simp] theorem Block.boxData_led (s : Block) (a : Nat) (ws : List Word) : (s.boxData a ws).led = s.led := by
  unfold Block.boxData; generalize 16 = n; exact loop_keeps (fun (s : Block) => s.led) _ (fun _ _ => Block.wr_led _ _ _) n s
@[simp] theorem Block.boxData_ice (s : Block) (a : Nat) (ws : List Word) : (s.boxData a ws).ice = s.ice := by
  unfold Block.boxData; generalize 16 = n; exact loop_keeps (fun (s : Block) => s.ice) _ (fun _ _ => Block.wr_ice _ _ _) n s
@[simp] theorem Block.boxData_fw (s : Block) (a : Nat) (ws : List Word) : (s.boxData a ws).fw = s.fw := by
  unfold Block.boxData; generalize 16 = n; exact loop_keeps (fun (s : Block) => s.fw) _ (fun _ _ => Block.wr_fw _ _ _) n s
@[simp] theorem Block.boxData_trust (s : Block) (a : Nat) (ws : List Word) : (s.boxData a ws).trust = s.trust := by
  unfold Block.boxData; generalize 16 = n; exact loop_keeps (fun (s : Block) => s.trust) _ (fun _ _ => Block.wr_trust _ _ _) n s
@[simp] theorem Block.boxData_start (s : Block) (a : Nat) (ws : List Word) : (s.boxData a ws).start = s.start := by
  unfold Block.boxData; generalize 16 = n; exact loop_keeps (fun (s : Block) => s.start) _ (fun _ _ => Block.wr_start _ _ _) n s
@[simp] theorem Block.boxData_clk (s : Block) (a : Nat) (ws : List Word) : (s.boxData a ws).clk = s.clk := by
  unfold Block.boxData; generalize 16 = n; exact loop_keeps (fun (s : Block) => s.clk) _ (fun _ _ => Block.wr_clk _ _ _) n s
@[simp] theorem Block.boxData_pwr (s : Block) (a : Nat) (ws : List Word) : (s.boxData a ws).pwr = s.pwr := by
  unfold Block.boxData; generalize 16 = n; exact loop_keeps (fun (s : Block) => s.pwr) _ (fun _ _ => Block.wr_pwr _ _ _) n s
@[simp] theorem Block.boxData_err (s : Block) (a : Nat) (ws : List Word) : (s.boxData a ws).err = s.err := by
  unfold Block.boxData; generalize 16 = n; exact loop_keeps (fun (s : Block) => s.err) _ (fun _ _ => Block.wr_err _ _ _) n s
@[simp] theorem Block.boxData_parts (s : Block) (a : Nat) (ws : List Word) : (s.boxData a ws).parts = s.parts := by
  unfold Block.boxData; generalize 16 = n; exact loop_keeps (fun (s : Block) => s.parts) _ (fun _ _ => Block.wr_parts _ _ _) n s
@[simp] theorem Block.boxData_objs (s : Block) (a : Nat) (ws : List Word) : (s.boxData a ws).objs = s.objs := by
  unfold Block.boxData; generalize 16 = n; exact loop_keeps (fun (s : Block) => s.objs) _ (fun _ _ => Block.wr_objs _ _ _) n s
@[simp] theorem Block.boxData_bundles (s : Block) (a : Nat) (ws : List Word) : (s.boxData a ws).bundles = s.bundles := by
  unfold Block.boxData; generalize 16 = n; exact loop_keeps (fun (s : Block) => s.bundles) _ (fun _ _ => Block.wr_bundles _ _ _) n s
@[simp] theorem Block.boxData_jobs (s : Block) (a : Nat) (ws : List Word) : (s.boxData a ws).jobs = s.jobs := by
  unfold Block.boxData; generalize 16 = n; exact loop_keeps (fun (s : Block) => s.jobs) _ (fun _ _ => Block.wr_jobs _ _ _) n s
@[simp] theorem Block.boxData_nextJob (s : Block) (a : Nat) (ws : List Word) : (s.boxData a ws).nextJob = s.nextJob := by
  unfold Block.boxData; generalize 16 = n; exact loop_keeps (fun (s : Block) => s.nextJob) _ (fun _ _ => Block.wr_nextJob _ _ _) n s
@[simp] theorem Block.boxData_sems (s : Block) (a : Nat) (ws : List Word) : (s.boxData a ws).sems = s.sems := by
  unfold Block.boxData; generalize 16 = n; exact loop_keeps (fun (s : Block) => s.sems) _ (fun _ _ => Block.wr_sems _ _ _) n s
@[simp] theorem Block.boxData_clusters (s : Block) (a : Nat) (ws : List Word) : (s.boxData a ws).clusters = s.clusters := by
  unfold Block.boxData; generalize 16 = n; exact loop_keeps (fun (s : Block) => s.clusters) _ (fun _ _ => Block.wr_clusters _ _ _) n s
@[simp] theorem Block.boxData_tiles (s : Block) (a : Nat) (ws : List Word) : (s.boxData a ws).tiles = s.tiles := by
  unfold Block.boxData; generalize 16 = n; exact loop_keeps (fun (s : Block) => s.tiles) _ (fun _ _ => Block.wr_tiles _ _ _) n s
@[simp] theorem Block.boxData_msc (s : Block) (a : Nat) (ws : List Word) : (s.boxData a ws).msc = s.msc := by
  unfold Block.boxData; generalize 16 = n; exact loop_keeps (fun (s : Block) => s.msc) _ (fun _ _ => Block.wr_msc _ _ _) n s
@[simp] theorem Block.boxData_firn (s : Block) (a : Nat) (ws : List Word) : (s.boxData a ws).firn = s.firn := by
  unfold Block.boxData; generalize 16 = n; exact loop_keeps (fun (s : Block) => s.firn) _ (fun _ _ => Block.wr_firn _ _ _) n s
@[simp] theorem Block.boxData_snow (s : Block) (a : Nat) (ws : List Word) : (s.boxData a ws).snow = s.snow := by
  unfold Block.boxData; generalize 16 = n; exact loop_keeps (fun (s : Block) => s.snow) _ (fun _ _ => Block.wr_snow _ _ _) n s
@[simp] theorem Block.boxData_serve (s : Block) (a : Nat) (ws : List Word) : (s.boxData a ws).serve = s.serve := by
  unfold Block.boxData; generalize 16 = n; exact loop_keeps (fun (s : Block) => s.serve) _ (fun _ _ => Block.wr_serve _ _ _) n s
@[simp] theorem Block.boxData_reqs (s : Block) (a : Nat) (ws : List Word) : (s.boxData a ws).reqs = s.reqs := by
  unfold Block.boxData; generalize 16 = n; exact loop_keeps (fun (s : Block) => s.reqs) _ (fun _ _ => Block.wr_reqs _ _ _) n s
@[simp] theorem Block.boxData_reqGens (s : Block) (a : Nat) (ws : List Word) : (s.boxData a ws).reqGens = s.reqGens := by
  unfold Block.boxData; generalize 16 = n; exact loop_keeps (fun (s : Block) => s.reqGens) _ (fun _ _ => Block.wr_reqGens _ _ _) n s
@[simp] theorem Block.boxData_adapters (s : Block) (a : Nat) (ws : List Word) : (s.boxData a ws).adapters = s.adapters := by
  unfold Block.boxData; generalize 16 = n; exact loop_keeps (fun (s : Block) => s.adapters) _ (fun _ _ => Block.wr_adapters _ _ _) n s
@[simp] theorem Block.boxData_esk (s : Block) (a : Nat) (ws : List Word) : (s.boxData a ws).esk = s.esk := by
  unfold Block.boxData; generalize 16 = n; exact loop_keeps (fun (s : Block) => s.esk) _ (fun _ _ => Block.wr_esk _ _ _) n s
@[simp] theorem Block.boxData_beatAt (s : Block) (a : Nat) (ws : List Word) : (s.boxData a ws).beatAt = s.beatAt := by
  unfold Block.boxData; generalize 16 = n; exact loop_keeps (fun (s : Block) => s.beatAt) _ (fun _ _ => Block.wr_beatAt _ _ _) n s
@[simp] theorem Block.boxData_lostAt (s : Block) (a : Nat) (ws : List Word) : (s.boxData a ws).lostAt = s.lostAt := by
  unfold Block.boxData; generalize 16 = n; exact loop_keeps (fun (s : Block) => s.lostAt) _ (fun _ _ => Block.wr_lostAt _ _ _) n s
@[simp] theorem Block.boxData_lossUntold (s : Block) (a : Nat) (ws : List Word) : (s.boxData a ws).lossUntold = s.lossUntold := by
  unfold Block.boxData; generalize 16 = n; exact loop_keeps (fun (s : Block) => s.lossUntold) _ (fun _ _ => Block.wr_lossUntold _ _ _) n s
@[simp] theorem Block.boxData_vOwed (s : Block) (a : Nat) (ws : List Word) : (s.boxData a ws).vOwed = s.vOwed := by
  unfold Block.boxData; generalize 16 = n; exact loop_keeps (fun (s : Block) => s.vOwed) _ (fun _ _ => Block.wr_vOwed _ _ _) n s


theorem Block.chLed_freeCtr (s : Block) (ch : Chan) (g : Block → Nat → Block) (h : ∀ (s : Block) n, (g s n).freeCtr = s.freeCtr) :
    (s.chLed ch g).freeCtr = s.freeCtr := by
  unfold Block.chLed; split
  · exact h _ _
  · rfl
theorem Block.chLed_regs (s : Block) (ch : Chan) (g : Block → Nat → Block) (h : ∀ (s : Block) n, (g s n).regs = s.regs) :
    (s.chLed ch g).regs = s.regs := by
  unfold Block.chLed; split
  · exact h _ _
  · rfl
theorem Block.chLed_latches (s : Block) (ch : Chan) (g : Block → Nat → Block) (h : ∀ (s : Block) n, (g s n).latches = s.latches) :
    (s.chLed ch g).latches = s.latches := by
  unfold Block.chLed; split
  · exact h _ _
  · rfl
theorem Block.chLed_fns (s : Block) (ch : Chan) (g : Block → Nat → Block) (h : ∀ (s : Block) n, (g s n).fns = s.fns) :
    (s.chLed ch g).fns = s.fns := by
  unfold Block.chLed; split
  · exact h _ _
  · rfl
theorem Block.chLed_mbx (s : Block) (ch : Chan) (g : Block → Nat → Block) (h : ∀ (s : Block) n, (g s n).mbx = s.mbx) :
    (s.chLed ch g).mbx = s.mbx := by
  unfold Block.chLed; split
  · exact h _ _
  · rfl
theorem Block.chLed_env (s : Block) (ch : Chan) (g : Block → Nat → Block) (h : ∀ (s : Block) n, (g s n).env = s.env) :
    (s.chLed ch g).env = s.env := by
  unfold Block.chLed; split
  · exact h _ _
  · rfl
theorem Block.chLed_led (s : Block) (ch : Chan) (g : Block → Nat → Block) (h : ∀ (s : Block) n, (g s n).led = s.led) :
    (s.chLed ch g).led = s.led := by
  unfold Block.chLed; split
  · exact h _ _
  · rfl
theorem Block.chLed_ice (s : Block) (ch : Chan) (g : Block → Nat → Block) (h : ∀ (s : Block) n, (g s n).ice = s.ice) :
    (s.chLed ch g).ice = s.ice := by
  unfold Block.chLed; split
  · exact h _ _
  · rfl
theorem Block.chLed_fw (s : Block) (ch : Chan) (g : Block → Nat → Block) (h : ∀ (s : Block) n, (g s n).fw = s.fw) :
    (s.chLed ch g).fw = s.fw := by
  unfold Block.chLed; split
  · exact h _ _
  · rfl
theorem Block.chLed_trust (s : Block) (ch : Chan) (g : Block → Nat → Block) (h : ∀ (s : Block) n, (g s n).trust = s.trust) :
    (s.chLed ch g).trust = s.trust := by
  unfold Block.chLed; split
  · exact h _ _
  · rfl
theorem Block.chLed_start (s : Block) (ch : Chan) (g : Block → Nat → Block) (h : ∀ (s : Block) n, (g s n).start = s.start) :
    (s.chLed ch g).start = s.start := by
  unfold Block.chLed; split
  · exact h _ _
  · rfl
theorem Block.chLed_clk (s : Block) (ch : Chan) (g : Block → Nat → Block) (h : ∀ (s : Block) n, (g s n).clk = s.clk) :
    (s.chLed ch g).clk = s.clk := by
  unfold Block.chLed; split
  · exact h _ _
  · rfl
theorem Block.chLed_pwr (s : Block) (ch : Chan) (g : Block → Nat → Block) (h : ∀ (s : Block) n, (g s n).pwr = s.pwr) :
    (s.chLed ch g).pwr = s.pwr := by
  unfold Block.chLed; split
  · exact h _ _
  · rfl
theorem Block.chLed_err (s : Block) (ch : Chan) (g : Block → Nat → Block) (h : ∀ (s : Block) n, (g s n).err = s.err) :
    (s.chLed ch g).err = s.err := by
  unfold Block.chLed; split
  · exact h _ _
  · rfl
theorem Block.chLed_parts (s : Block) (ch : Chan) (g : Block → Nat → Block) (h : ∀ (s : Block) n, (g s n).parts = s.parts) :
    (s.chLed ch g).parts = s.parts := by
  unfold Block.chLed; split
  · exact h _ _
  · rfl
theorem Block.chLed_objs (s : Block) (ch : Chan) (g : Block → Nat → Block) (h : ∀ (s : Block) n, (g s n).objs = s.objs) :
    (s.chLed ch g).objs = s.objs := by
  unfold Block.chLed; split
  · exact h _ _
  · rfl
theorem Block.chLed_bundles (s : Block) (ch : Chan) (g : Block → Nat → Block) (h : ∀ (s : Block) n, (g s n).bundles = s.bundles) :
    (s.chLed ch g).bundles = s.bundles := by
  unfold Block.chLed; split
  · exact h _ _
  · rfl
theorem Block.chLed_jobs (s : Block) (ch : Chan) (g : Block → Nat → Block) (h : ∀ (s : Block) n, (g s n).jobs = s.jobs) :
    (s.chLed ch g).jobs = s.jobs := by
  unfold Block.chLed; split
  · exact h _ _
  · rfl
theorem Block.chLed_nextJob (s : Block) (ch : Chan) (g : Block → Nat → Block) (h : ∀ (s : Block) n, (g s n).nextJob = s.nextJob) :
    (s.chLed ch g).nextJob = s.nextJob := by
  unfold Block.chLed; split
  · exact h _ _
  · rfl
theorem Block.chLed_sems (s : Block) (ch : Chan) (g : Block → Nat → Block) (h : ∀ (s : Block) n, (g s n).sems = s.sems) :
    (s.chLed ch g).sems = s.sems := by
  unfold Block.chLed; split
  · exact h _ _
  · rfl
theorem Block.chLed_clusters (s : Block) (ch : Chan) (g : Block → Nat → Block) (h : ∀ (s : Block) n, (g s n).clusters = s.clusters) :
    (s.chLed ch g).clusters = s.clusters := by
  unfold Block.chLed; split
  · exact h _ _
  · rfl
theorem Block.chLed_tiles (s : Block) (ch : Chan) (g : Block → Nat → Block) (h : ∀ (s : Block) n, (g s n).tiles = s.tiles) :
    (s.chLed ch g).tiles = s.tiles := by
  unfold Block.chLed; split
  · exact h _ _
  · rfl
theorem Block.chLed_msc (s : Block) (ch : Chan) (g : Block → Nat → Block) (h : ∀ (s : Block) n, (g s n).msc = s.msc) :
    (s.chLed ch g).msc = s.msc := by
  unfold Block.chLed; split
  · exact h _ _
  · rfl
theorem Block.chLed_firn (s : Block) (ch : Chan) (g : Block → Nat → Block) (h : ∀ (s : Block) n, (g s n).firn = s.firn) :
    (s.chLed ch g).firn = s.firn := by
  unfold Block.chLed; split
  · exact h _ _
  · rfl
theorem Block.chLed_snow (s : Block) (ch : Chan) (g : Block → Nat → Block) (h : ∀ (s : Block) n, (g s n).snow = s.snow) :
    (s.chLed ch g).snow = s.snow := by
  unfold Block.chLed; split
  · exact h _ _
  · rfl
theorem Block.chLed_serve (s : Block) (ch : Chan) (g : Block → Nat → Block) (h : ∀ (s : Block) n, (g s n).serve = s.serve) :
    (s.chLed ch g).serve = s.serve := by
  unfold Block.chLed; split
  · exact h _ _
  · rfl
theorem Block.chLed_reqs (s : Block) (ch : Chan) (g : Block → Nat → Block) (h : ∀ (s : Block) n, (g s n).reqs = s.reqs) :
    (s.chLed ch g).reqs = s.reqs := by
  unfold Block.chLed; split
  · exact h _ _
  · rfl
theorem Block.chLed_reqGens (s : Block) (ch : Chan) (g : Block → Nat → Block) (h : ∀ (s : Block) n, (g s n).reqGens = s.reqGens) :
    (s.chLed ch g).reqGens = s.reqGens := by
  unfold Block.chLed; split
  · exact h _ _
  · rfl
theorem Block.chLed_adapters (s : Block) (ch : Chan) (g : Block → Nat → Block) (h : ∀ (s : Block) n, (g s n).adapters = s.adapters) :
    (s.chLed ch g).adapters = s.adapters := by
  unfold Block.chLed; split
  · exact h _ _
  · rfl
theorem Block.chLed_esk (s : Block) (ch : Chan) (g : Block → Nat → Block) (h : ∀ (s : Block) n, (g s n).esk = s.esk) :
    (s.chLed ch g).esk = s.esk := by
  unfold Block.chLed; split
  · exact h _ _
  · rfl
theorem Block.chLed_beatAt (s : Block) (ch : Chan) (g : Block → Nat → Block) (h : ∀ (s : Block) n, (g s n).beatAt = s.beatAt) :
    (s.chLed ch g).beatAt = s.beatAt := by
  unfold Block.chLed; split
  · exact h _ _
  · rfl
theorem Block.chLed_lostAt (s : Block) (ch : Chan) (g : Block → Nat → Block) (h : ∀ (s : Block) n, (g s n).lostAt = s.lostAt) :
    (s.chLed ch g).lostAt = s.lostAt := by
  unfold Block.chLed; split
  · exact h _ _
  · rfl
theorem Block.chLed_lossUntold (s : Block) (ch : Chan) (g : Block → Nat → Block) (h : ∀ (s : Block) n, (g s n).lossUntold = s.lossUntold) :
    (s.chLed ch g).lossUntold = s.lossUntold := by
  unfold Block.chLed; split
  · exact h _ _
  · rfl
theorem Block.chLed_vOwed (s : Block) (ch : Chan) (g : Block → Nat → Block) (h : ∀ (s : Block) n, (g s n).vOwed = s.vOwed) :
    (s.chLed ch g).vOwed = s.vOwed := by
  unfold Block.chLed; split
  · exact h _ _
  · rfl
theorem Block.chLed_perm (s : Block) (ch : Chan) (g : Block → Nat → Block)
    (h : ∀ (s : Block) n, (g s n).ice.perm = s.ice.perm) : (s.chLed ch g).ice.perm = s.ice.perm := by
  unfold Block.chLed; split
  · exact h _ _
  · rfl

@[simp] theorem Block.msgTaken_freeCtr (s : Block) (ch : Chan) : (s.msgTaken ch).freeCtr = s.freeCtr := by
  exact Block.chLed_freeCtr _ _ _ (fun _ _ => (Block.ledLand_freeCtr ..).trans (Block.ledSend_freeCtr ..))
@[simp] theorem Block.msgTaken_latches (s : Block) (ch : Chan) : (s.msgTaken ch).latches = s.latches := by
  exact Block.chLed_latches _ _ _ (fun _ _ => (Block.ledLand_latches ..).trans (Block.ledSend_latches ..))
@[simp] theorem Block.msgTaken_fns (s : Block) (ch : Chan) : (s.msgTaken ch).fns = s.fns := by
  exact Block.chLed_fns _ _ _ (fun _ _ => (Block.ledLand_fns ..).trans (Block.ledSend_fns ..))
@[simp] theorem Block.msgTaken_env (s : Block) (ch : Chan) : (s.msgTaken ch).env = s.env := by
  exact Block.chLed_env _ _ _ (fun _ _ => (Block.ledLand_env ..).trans (Block.ledSend_env ..))
@[simp] theorem Block.msgTaken_fw (s : Block) (ch : Chan) : (s.msgTaken ch).fw = s.fw := by
  exact Block.chLed_fw _ _ _ (fun _ _ => (Block.ledLand_fw ..).trans (Block.ledSend_fw ..))
@[simp] theorem Block.msgTaken_trust (s : Block) (ch : Chan) : (s.msgTaken ch).trust = s.trust := by
  exact Block.chLed_trust _ _ _ (fun _ _ => (Block.ledLand_trust ..).trans (Block.ledSend_trust ..))
@[simp] theorem Block.msgTaken_clk (s : Block) (ch : Chan) : (s.msgTaken ch).clk = s.clk := by
  exact Block.chLed_clk _ _ _ (fun _ _ => (Block.ledLand_clk ..).trans (Block.ledSend_clk ..))
@[simp] theorem Block.msgTaken_pwr (s : Block) (ch : Chan) : (s.msgTaken ch).pwr = s.pwr := by
  exact Block.chLed_pwr _ _ _ (fun _ _ => (Block.ledLand_pwr ..).trans (Block.ledSend_pwr ..))
@[simp] theorem Block.msgTaken_err (s : Block) (ch : Chan) : (s.msgTaken ch).err = s.err := by
  exact Block.chLed_err _ _ _ (fun _ _ => (Block.ledLand_err ..).trans (Block.ledSend_err ..))
@[simp] theorem Block.msgTaken_parts (s : Block) (ch : Chan) : (s.msgTaken ch).parts = s.parts := by
  exact Block.chLed_parts _ _ _ (fun _ _ => (Block.ledLand_parts ..).trans (Block.ledSend_parts ..))
@[simp] theorem Block.msgTaken_objs (s : Block) (ch : Chan) : (s.msgTaken ch).objs = s.objs := by
  exact Block.chLed_objs _ _ _ (fun _ _ => (Block.ledLand_objs ..).trans (Block.ledSend_objs ..))
@[simp] theorem Block.msgTaken_bundles (s : Block) (ch : Chan) : (s.msgTaken ch).bundles = s.bundles := by
  exact Block.chLed_bundles _ _ _ (fun _ _ => (Block.ledLand_bundles ..).trans (Block.ledSend_bundles ..))
@[simp] theorem Block.msgTaken_jobs (s : Block) (ch : Chan) : (s.msgTaken ch).jobs = s.jobs := by
  exact Block.chLed_jobs _ _ _ (fun _ _ => (Block.ledLand_jobs ..).trans (Block.ledSend_jobs ..))
@[simp] theorem Block.msgTaken_nextJob (s : Block) (ch : Chan) : (s.msgTaken ch).nextJob = s.nextJob := by
  exact Block.chLed_nextJob _ _ _ (fun _ _ => (Block.ledLand_nextJob ..).trans (Block.ledSend_nextJob ..))
@[simp] theorem Block.msgTaken_sems (s : Block) (ch : Chan) : (s.msgTaken ch).sems = s.sems := by
  exact Block.chLed_sems _ _ _ (fun _ _ => (Block.ledLand_sems ..).trans (Block.ledSend_sems ..))
@[simp] theorem Block.msgTaken_clusters (s : Block) (ch : Chan) : (s.msgTaken ch).clusters = s.clusters := by
  exact Block.chLed_clusters _ _ _ (fun _ _ => (Block.ledLand_clusters ..).trans (Block.ledSend_clusters ..))
@[simp] theorem Block.msgTaken_tiles (s : Block) (ch : Chan) : (s.msgTaken ch).tiles = s.tiles := by
  exact Block.chLed_tiles _ _ _ (fun _ _ => (Block.ledLand_tiles ..).trans (Block.ledSend_tiles ..))
@[simp] theorem Block.msgTaken_msc (s : Block) (ch : Chan) : (s.msgTaken ch).msc = s.msc := by
  exact Block.chLed_msc _ _ _ (fun _ _ => (Block.ledLand_msc ..).trans (Block.ledSend_msc ..))
@[simp] theorem Block.msgTaken_firn (s : Block) (ch : Chan) : (s.msgTaken ch).firn = s.firn := by
  exact Block.chLed_firn _ _ _ (fun _ _ => (Block.ledLand_firn ..).trans (Block.ledSend_firn ..))
@[simp] theorem Block.msgTaken_snow (s : Block) (ch : Chan) : (s.msgTaken ch).snow = s.snow := by
  exact Block.chLed_snow _ _ _ (fun _ _ => (Block.ledLand_snow ..).trans (Block.ledSend_snow ..))
@[simp] theorem Block.msgTaken_serve (s : Block) (ch : Chan) : (s.msgTaken ch).serve = s.serve := by
  exact Block.chLed_serve _ _ _ (fun _ _ => (Block.ledLand_serve ..).trans (Block.ledSend_serve ..))
@[simp] theorem Block.msgTaken_reqs (s : Block) (ch : Chan) : (s.msgTaken ch).reqs = s.reqs := by
  exact Block.chLed_reqs _ _ _ (fun _ _ => (Block.ledLand_reqs ..).trans (Block.ledSend_reqs ..))
@[simp] theorem Block.msgTaken_reqGens (s : Block) (ch : Chan) : (s.msgTaken ch).reqGens = s.reqGens := by
  exact Block.chLed_reqGens _ _ _ (fun _ _ => (Block.ledLand_reqGens ..).trans (Block.ledSend_reqGens ..))
@[simp] theorem Block.msgTaken_adapters (s : Block) (ch : Chan) : (s.msgTaken ch).adapters = s.adapters := by
  exact Block.chLed_adapters _ _ _ (fun _ _ => (Block.ledLand_adapters ..).trans (Block.ledSend_adapters ..))
@[simp] theorem Block.msgTaken_esk (s : Block) (ch : Chan) : (s.msgTaken ch).esk = s.esk := by
  exact Block.chLed_esk _ _ _ (fun _ _ => (Block.ledLand_esk ..).trans (Block.ledSend_esk ..))
@[simp] theorem Block.msgTaken_beatAt (s : Block) (ch : Chan) : (s.msgTaken ch).beatAt = s.beatAt := by
  exact Block.chLed_beatAt _ _ _ (fun _ _ => (Block.ledLand_beatAt ..).trans (Block.ledSend_beatAt ..))
@[simp] theorem Block.msgTaken_lostAt (s : Block) (ch : Chan) : (s.msgTaken ch).lostAt = s.lostAt := by
  exact Block.chLed_lostAt _ _ _ (fun _ _ => (Block.ledLand_lostAt ..).trans (Block.ledSend_lostAt ..))
@[simp] theorem Block.msgTaken_lossUntold (s : Block) (ch : Chan) : (s.msgTaken ch).lossUntold = s.lossUntold := by
  exact Block.chLed_lossUntold _ _ _ (fun _ _ => (Block.ledLand_lossUntold ..).trans (Block.ledSend_lossUntold ..))
@[simp] theorem Block.msgTaken_vOwed (s : Block) (ch : Chan) : (s.msgTaken ch).vOwed = s.vOwed := by
  exact Block.chLed_vOwed _ _ _ (fun _ _ => (Block.ledLand_vOwed ..).trans (Block.ledSend_vOwed ..))

@[simp] theorem Block.msgTaken_perm (s : Block) (ch : Chan) : (s.msgTaken ch).ice.perm = s.ice.perm := by
  unfold Block.msgTaken; exact Block.chLed_perm _ _ _ (fun _ _ => (Block.ledLand_perm ..).trans (Block.ledSend_perm ..))

@[simp] theorem Block.writeReply_freeCtr (s : Block) (ch : Chan) (ws : List Word) (l : List (List Word)) : (s.writeReply ch ws l).freeCtr = s.freeCtr := by
  simp only [Block.writeReply, apply_ite Block.freeCtr, Block.msix_freeCtr, ite_self]
  rw [Block.chLed_freeCtr _ _ _ (fun _ _ => Block.ledTake_freeCtr ..), Block.wb_freeCtr, Block.wf_freeCtr, Block.boxData_freeCtr, Block.setBox_freeCtr]
@[simp] theorem Block.writeReply_latches (s : Block) (ch : Chan) (ws : List Word) (l : List (List Word)) : (s.writeReply ch ws l).latches = s.latches := by
  simp only [Block.writeReply, apply_ite Block.latches, Block.msix_latches, ite_self]
  rw [Block.chLed_latches _ _ _ (fun _ _ => Block.ledTake_latches ..), Block.wb_latches, Block.wf_latches, Block.boxData_latches, Block.setBox_latches]
@[simp] theorem Block.writeReply_fns (s : Block) (ch : Chan) (ws : List Word) (l : List (List Word)) : (s.writeReply ch ws l).fns = s.fns := by
  simp only [Block.writeReply, apply_ite Block.fns, Block.msix_fns, ite_self]
  rw [Block.chLed_fns _ _ _ (fun _ _ => Block.ledTake_fns ..), Block.wb_fns, Block.wf_fns, Block.boxData_fns, Block.setBox_fns]
@[simp] theorem Block.writeReply_fw (s : Block) (ch : Chan) (ws : List Word) (l : List (List Word)) : (s.writeReply ch ws l).fw = s.fw := by
  simp only [Block.writeReply, apply_ite Block.fw, Block.msix_fw, ite_self]
  rw [Block.chLed_fw _ _ _ (fun _ _ => Block.ledTake_fw ..), Block.wb_fw, Block.wf_fw, Block.boxData_fw, Block.setBox_fw]
@[simp] theorem Block.writeReply_trust (s : Block) (ch : Chan) (ws : List Word) (l : List (List Word)) : (s.writeReply ch ws l).trust = s.trust := by
  simp only [Block.writeReply, apply_ite Block.trust, Block.msix_trust, ite_self]
  rw [Block.chLed_trust _ _ _ (fun _ _ => Block.ledTake_trust ..), Block.wb_trust, Block.wf_trust, Block.boxData_trust, Block.setBox_trust]
@[simp] theorem Block.writeReply_clk (s : Block) (ch : Chan) (ws : List Word) (l : List (List Word)) : (s.writeReply ch ws l).clk = s.clk := by
  simp only [Block.writeReply, apply_ite Block.clk, Block.msix_clk, ite_self]
  rw [Block.chLed_clk _ _ _ (fun _ _ => Block.ledTake_clk ..), Block.wb_clk, Block.wf_clk, Block.boxData_clk, Block.setBox_clk]
@[simp] theorem Block.writeReply_pwr (s : Block) (ch : Chan) (ws : List Word) (l : List (List Word)) : (s.writeReply ch ws l).pwr = s.pwr := by
  simp only [Block.writeReply, apply_ite Block.pwr, Block.msix_pwr, ite_self]
  rw [Block.chLed_pwr _ _ _ (fun _ _ => Block.ledTake_pwr ..), Block.wb_pwr, Block.wf_pwr, Block.boxData_pwr, Block.setBox_pwr]
@[simp] theorem Block.writeReply_err (s : Block) (ch : Chan) (ws : List Word) (l : List (List Word)) : (s.writeReply ch ws l).err = s.err := by
  simp only [Block.writeReply, apply_ite Block.err, Block.msix_err, ite_self]
  rw [Block.chLed_err _ _ _ (fun _ _ => Block.ledTake_err ..), Block.wb_err, Block.wf_err, Block.boxData_err, Block.setBox_err]
@[simp] theorem Block.writeReply_parts (s : Block) (ch : Chan) (ws : List Word) (l : List (List Word)) : (s.writeReply ch ws l).parts = s.parts := by
  simp only [Block.writeReply, apply_ite Block.parts, Block.msix_parts, ite_self]
  rw [Block.chLed_parts _ _ _ (fun _ _ => Block.ledTake_parts ..), Block.wb_parts, Block.wf_parts, Block.boxData_parts, Block.setBox_parts]
@[simp] theorem Block.writeReply_objs (s : Block) (ch : Chan) (ws : List Word) (l : List (List Word)) : (s.writeReply ch ws l).objs = s.objs := by
  simp only [Block.writeReply, apply_ite Block.objs, Block.msix_objs, ite_self]
  rw [Block.chLed_objs _ _ _ (fun _ _ => Block.ledTake_objs ..), Block.wb_objs, Block.wf_objs, Block.boxData_objs, Block.setBox_objs]
@[simp] theorem Block.writeReply_bundles (s : Block) (ch : Chan) (ws : List Word) (l : List (List Word)) : (s.writeReply ch ws l).bundles = s.bundles := by
  simp only [Block.writeReply, apply_ite Block.bundles, Block.msix_bundles, ite_self]
  rw [Block.chLed_bundles _ _ _ (fun _ _ => Block.ledTake_bundles ..), Block.wb_bundles, Block.wf_bundles, Block.boxData_bundles, Block.setBox_bundles]
@[simp] theorem Block.writeReply_jobs (s : Block) (ch : Chan) (ws : List Word) (l : List (List Word)) : (s.writeReply ch ws l).jobs = s.jobs := by
  simp only [Block.writeReply, apply_ite Block.jobs, Block.msix_jobs, ite_self]
  rw [Block.chLed_jobs _ _ _ (fun _ _ => Block.ledTake_jobs ..), Block.wb_jobs, Block.wf_jobs, Block.boxData_jobs, Block.setBox_jobs]
@[simp] theorem Block.writeReply_nextJob (s : Block) (ch : Chan) (ws : List Word) (l : List (List Word)) : (s.writeReply ch ws l).nextJob = s.nextJob := by
  simp only [Block.writeReply, apply_ite Block.nextJob, Block.msix_nextJob, ite_self]
  rw [Block.chLed_nextJob _ _ _ (fun _ _ => Block.ledTake_nextJob ..), Block.wb_nextJob, Block.wf_nextJob, Block.boxData_nextJob, Block.setBox_nextJob]
@[simp] theorem Block.writeReply_sems (s : Block) (ch : Chan) (ws : List Word) (l : List (List Word)) : (s.writeReply ch ws l).sems = s.sems := by
  simp only [Block.writeReply, apply_ite Block.sems, Block.msix_sems, ite_self]
  rw [Block.chLed_sems _ _ _ (fun _ _ => Block.ledTake_sems ..), Block.wb_sems, Block.wf_sems, Block.boxData_sems, Block.setBox_sems]
@[simp] theorem Block.writeReply_clusters (s : Block) (ch : Chan) (ws : List Word) (l : List (List Word)) : (s.writeReply ch ws l).clusters = s.clusters := by
  simp only [Block.writeReply, apply_ite Block.clusters, Block.msix_clusters, ite_self]
  rw [Block.chLed_clusters _ _ _ (fun _ _ => Block.ledTake_clusters ..), Block.wb_clusters, Block.wf_clusters, Block.boxData_clusters, Block.setBox_clusters]
@[simp] theorem Block.writeReply_tiles (s : Block) (ch : Chan) (ws : List Word) (l : List (List Word)) : (s.writeReply ch ws l).tiles = s.tiles := by
  simp only [Block.writeReply, apply_ite Block.tiles, Block.msix_tiles, ite_self]
  rw [Block.chLed_tiles _ _ _ (fun _ _ => Block.ledTake_tiles ..), Block.wb_tiles, Block.wf_tiles, Block.boxData_tiles, Block.setBox_tiles]
@[simp] theorem Block.writeReply_msc (s : Block) (ch : Chan) (ws : List Word) (l : List (List Word)) : (s.writeReply ch ws l).msc = s.msc := by
  simp only [Block.writeReply, apply_ite Block.msc, Block.msix_msc, ite_self]
  rw [Block.chLed_msc _ _ _ (fun _ _ => Block.ledTake_msc ..), Block.wb_msc, Block.wf_msc, Block.boxData_msc, Block.setBox_msc]
@[simp] theorem Block.writeReply_firn (s : Block) (ch : Chan) (ws : List Word) (l : List (List Word)) : (s.writeReply ch ws l).firn = s.firn := by
  simp only [Block.writeReply, apply_ite Block.firn, Block.msix_firn, ite_self]
  rw [Block.chLed_firn _ _ _ (fun _ _ => Block.ledTake_firn ..), Block.wb_firn, Block.wf_firn, Block.boxData_firn, Block.setBox_firn]
@[simp] theorem Block.writeReply_snow (s : Block) (ch : Chan) (ws : List Word) (l : List (List Word)) : (s.writeReply ch ws l).snow = s.snow := by
  simp only [Block.writeReply, apply_ite Block.snow, Block.msix_snow, ite_self]
  rw [Block.chLed_snow _ _ _ (fun _ _ => Block.ledTake_snow ..), Block.wb_snow, Block.wf_snow, Block.boxData_snow, Block.setBox_snow]
@[simp] theorem Block.writeReply_serve (s : Block) (ch : Chan) (ws : List Word) (l : List (List Word)) : (s.writeReply ch ws l).serve = s.serve := by
  simp only [Block.writeReply, apply_ite Block.serve, Block.msix_serve, ite_self]
  rw [Block.chLed_serve _ _ _ (fun _ _ => Block.ledTake_serve ..), Block.wb_serve, Block.wf_serve, Block.boxData_serve, Block.setBox_serve]
@[simp] theorem Block.writeReply_reqs (s : Block) (ch : Chan) (ws : List Word) (l : List (List Word)) : (s.writeReply ch ws l).reqs = s.reqs := by
  simp only [Block.writeReply, apply_ite Block.reqs, Block.msix_reqs, ite_self]
  rw [Block.chLed_reqs _ _ _ (fun _ _ => Block.ledTake_reqs ..), Block.wb_reqs, Block.wf_reqs, Block.boxData_reqs, Block.setBox_reqs]
@[simp] theorem Block.writeReply_reqGens (s : Block) (ch : Chan) (ws : List Word) (l : List (List Word)) : (s.writeReply ch ws l).reqGens = s.reqGens := by
  simp only [Block.writeReply, apply_ite Block.reqGens, Block.msix_reqGens, ite_self]
  rw [Block.chLed_reqGens _ _ _ (fun _ _ => Block.ledTake_reqGens ..), Block.wb_reqGens, Block.wf_reqGens, Block.boxData_reqGens, Block.setBox_reqGens]
@[simp] theorem Block.writeReply_adapters (s : Block) (ch : Chan) (ws : List Word) (l : List (List Word)) : (s.writeReply ch ws l).adapters = s.adapters := by
  simp only [Block.writeReply, apply_ite Block.adapters, Block.msix_adapters, ite_self]
  rw [Block.chLed_adapters _ _ _ (fun _ _ => Block.ledTake_adapters ..), Block.wb_adapters, Block.wf_adapters, Block.boxData_adapters, Block.setBox_adapters]
@[simp] theorem Block.writeReply_esk (s : Block) (ch : Chan) (ws : List Word) (l : List (List Word)) : (s.writeReply ch ws l).esk = s.esk := by
  simp only [Block.writeReply, apply_ite Block.esk, Block.msix_esk, ite_self]
  rw [Block.chLed_esk _ _ _ (fun _ _ => Block.ledTake_esk ..), Block.wb_esk, Block.wf_esk, Block.boxData_esk, Block.setBox_esk]
@[simp] theorem Block.writeReply_beatAt (s : Block) (ch : Chan) (ws : List Word) (l : List (List Word)) : (s.writeReply ch ws l).beatAt = s.beatAt := by
  simp only [Block.writeReply, apply_ite Block.beatAt, Block.msix_beatAt, ite_self]
  rw [Block.chLed_beatAt _ _ _ (fun _ _ => Block.ledTake_beatAt ..), Block.wb_beatAt, Block.wf_beatAt, Block.boxData_beatAt, Block.setBox_beatAt]
@[simp] theorem Block.writeReply_lostAt (s : Block) (ch : Chan) (ws : List Word) (l : List (List Word)) : (s.writeReply ch ws l).lostAt = s.lostAt := by
  simp only [Block.writeReply, apply_ite Block.lostAt, Block.msix_lostAt, ite_self]
  rw [Block.chLed_lostAt _ _ _ (fun _ _ => Block.ledTake_lostAt ..), Block.wb_lostAt, Block.wf_lostAt, Block.boxData_lostAt, Block.setBox_lostAt]
@[simp] theorem Block.writeReply_lossUntold (s : Block) (ch : Chan) (ws : List Word) (l : List (List Word)) : (s.writeReply ch ws l).lossUntold = s.lossUntold := by
  simp only [Block.writeReply, apply_ite Block.lossUntold, Block.msix_lossUntold, ite_self]
  rw [Block.chLed_lossUntold _ _ _ (fun _ _ => Block.ledTake_lossUntold ..), Block.wb_lossUntold, Block.wf_lossUntold, Block.boxData_lossUntold, Block.setBox_lossUntold]
@[simp] theorem Block.writeReply_vOwed (s : Block) (ch : Chan) (ws : List Word) (l : List (List Word)) : (s.writeReply ch ws l).vOwed = s.vOwed := by
  simp only [Block.writeReply, apply_ite Block.vOwed, Block.msix_vOwed, ite_self]
  rw [Block.chLed_vOwed _ _ _ (fun _ _ => Block.ledTake_vOwed ..), Block.wb_vOwed, Block.wf_vOwed, Block.boxData_vOwed, Block.setBox_vOwed]

@[simp] theorem Block.writeReply_perm (s : Block) (ch : Chan) (ws : List Word) (l : List (List Word)) :
    (s.writeReply ch ws l).ice.perm = s.ice.perm := by
  simp only [Block.writeReply, apply_ite Block.ice, Block.msix_ice, ite_self]
  rw [Block.chLed_perm _ _ _ (fun _ _ => Block.ledTake_perm ..), Block.wb_ice, Block.wf_ice, Block.boxData_ice,
    Block.setBox_ice]

@[simp] theorem Block.pumpReply_freeCtr (s : Block) (ch : Chan) : (s.pumpReply ch).freeCtr = s.freeCtr := by
  unfold Block.pumpReply; split
  · rfl
  · split
    · rfl
    · exact Block.writeReply_freeCtr ..
@[simp] theorem Block.pumpReply_latches (s : Block) (ch : Chan) : (s.pumpReply ch).latches = s.latches := by
  unfold Block.pumpReply; split
  · rfl
  · split
    · rfl
    · exact Block.writeReply_latches ..
@[simp] theorem Block.pumpReply_fns (s : Block) (ch : Chan) : (s.pumpReply ch).fns = s.fns := by
  unfold Block.pumpReply; split
  · rfl
  · split
    · rfl
    · exact Block.writeReply_fns ..
@[simp] theorem Block.pumpReply_fw (s : Block) (ch : Chan) : (s.pumpReply ch).fw = s.fw := by
  unfold Block.pumpReply; split
  · rfl
  · split
    · rfl
    · exact Block.writeReply_fw ..
@[simp] theorem Block.pumpReply_trust (s : Block) (ch : Chan) : (s.pumpReply ch).trust = s.trust := by
  unfold Block.pumpReply; split
  · rfl
  · split
    · rfl
    · exact Block.writeReply_trust ..
@[simp] theorem Block.pumpReply_clk (s : Block) (ch : Chan) : (s.pumpReply ch).clk = s.clk := by
  unfold Block.pumpReply; split
  · rfl
  · split
    · rfl
    · exact Block.writeReply_clk ..
@[simp] theorem Block.pumpReply_pwr (s : Block) (ch : Chan) : (s.pumpReply ch).pwr = s.pwr := by
  unfold Block.pumpReply; split
  · rfl
  · split
    · rfl
    · exact Block.writeReply_pwr ..
@[simp] theorem Block.pumpReply_err (s : Block) (ch : Chan) : (s.pumpReply ch).err = s.err := by
  unfold Block.pumpReply; split
  · rfl
  · split
    · rfl
    · exact Block.writeReply_err ..
@[simp] theorem Block.pumpReply_parts (s : Block) (ch : Chan) : (s.pumpReply ch).parts = s.parts := by
  unfold Block.pumpReply; split
  · rfl
  · split
    · rfl
    · exact Block.writeReply_parts ..
@[simp] theorem Block.pumpReply_objs (s : Block) (ch : Chan) : (s.pumpReply ch).objs = s.objs := by
  unfold Block.pumpReply; split
  · rfl
  · split
    · rfl
    · exact Block.writeReply_objs ..
@[simp] theorem Block.pumpReply_bundles (s : Block) (ch : Chan) : (s.pumpReply ch).bundles = s.bundles := by
  unfold Block.pumpReply; split
  · rfl
  · split
    · rfl
    · exact Block.writeReply_bundles ..
@[simp] theorem Block.pumpReply_jobs (s : Block) (ch : Chan) : (s.pumpReply ch).jobs = s.jobs := by
  unfold Block.pumpReply; split
  · rfl
  · split
    · rfl
    · exact Block.writeReply_jobs ..
@[simp] theorem Block.pumpReply_nextJob (s : Block) (ch : Chan) : (s.pumpReply ch).nextJob = s.nextJob := by
  unfold Block.pumpReply; split
  · rfl
  · split
    · rfl
    · exact Block.writeReply_nextJob ..
@[simp] theorem Block.pumpReply_sems (s : Block) (ch : Chan) : (s.pumpReply ch).sems = s.sems := by
  unfold Block.pumpReply; split
  · rfl
  · split
    · rfl
    · exact Block.writeReply_sems ..
@[simp] theorem Block.pumpReply_clusters (s : Block) (ch : Chan) : (s.pumpReply ch).clusters = s.clusters := by
  unfold Block.pumpReply; split
  · rfl
  · split
    · rfl
    · exact Block.writeReply_clusters ..
@[simp] theorem Block.pumpReply_tiles (s : Block) (ch : Chan) : (s.pumpReply ch).tiles = s.tiles := by
  unfold Block.pumpReply; split
  · rfl
  · split
    · rfl
    · exact Block.writeReply_tiles ..
@[simp] theorem Block.pumpReply_msc (s : Block) (ch : Chan) : (s.pumpReply ch).msc = s.msc := by
  unfold Block.pumpReply; split
  · rfl
  · split
    · rfl
    · exact Block.writeReply_msc ..
@[simp] theorem Block.pumpReply_firn (s : Block) (ch : Chan) : (s.pumpReply ch).firn = s.firn := by
  unfold Block.pumpReply; split
  · rfl
  · split
    · rfl
    · exact Block.writeReply_firn ..
@[simp] theorem Block.pumpReply_snow (s : Block) (ch : Chan) : (s.pumpReply ch).snow = s.snow := by
  unfold Block.pumpReply; split
  · rfl
  · split
    · rfl
    · exact Block.writeReply_snow ..
@[simp] theorem Block.pumpReply_serve (s : Block) (ch : Chan) : (s.pumpReply ch).serve = s.serve := by
  unfold Block.pumpReply; split
  · rfl
  · split
    · rfl
    · exact Block.writeReply_serve ..
@[simp] theorem Block.pumpReply_reqs (s : Block) (ch : Chan) : (s.pumpReply ch).reqs = s.reqs := by
  unfold Block.pumpReply; split
  · rfl
  · split
    · rfl
    · exact Block.writeReply_reqs ..
@[simp] theorem Block.pumpReply_reqGens (s : Block) (ch : Chan) : (s.pumpReply ch).reqGens = s.reqGens := by
  unfold Block.pumpReply; split
  · rfl
  · split
    · rfl
    · exact Block.writeReply_reqGens ..
@[simp] theorem Block.pumpReply_adapters (s : Block) (ch : Chan) : (s.pumpReply ch).adapters = s.adapters := by
  unfold Block.pumpReply; split
  · rfl
  · split
    · rfl
    · exact Block.writeReply_adapters ..
@[simp] theorem Block.pumpReply_esk (s : Block) (ch : Chan) : (s.pumpReply ch).esk = s.esk := by
  unfold Block.pumpReply; split
  · rfl
  · split
    · rfl
    · exact Block.writeReply_esk ..
@[simp] theorem Block.pumpReply_beatAt (s : Block) (ch : Chan) : (s.pumpReply ch).beatAt = s.beatAt := by
  unfold Block.pumpReply; split
  · rfl
  · split
    · rfl
    · exact Block.writeReply_beatAt ..
@[simp] theorem Block.pumpReply_lostAt (s : Block) (ch : Chan) : (s.pumpReply ch).lostAt = s.lostAt := by
  unfold Block.pumpReply; split
  · rfl
  · split
    · rfl
    · exact Block.writeReply_lostAt ..
@[simp] theorem Block.pumpReply_lossUntold (s : Block) (ch : Chan) : (s.pumpReply ch).lossUntold = s.lossUntold := by
  unfold Block.pumpReply; split
  · rfl
  · split
    · rfl
    · exact Block.writeReply_lossUntold ..
@[simp] theorem Block.pumpReply_vOwed (s : Block) (ch : Chan) : (s.pumpReply ch).vOwed = s.vOwed := by
  unfold Block.pumpReply; split
  · rfl
  · split
    · rfl
    · exact Block.writeReply_vOwed ..

@[simp] theorem Block.pumpReply_perm (s : Block) (ch : Chan) : (s.pumpReply ch).ice.perm = s.ice.perm := by
  unfold Block.pumpReply; split
  · rfl
  · split
    · rfl
    · exact Block.writeReply_perm ..

@[simp] theorem Block.reply_freeCtr (s : Block) (ch : Chan) (ws : List Word) : (s.reply ch ws).freeCtr = s.freeCtr := by
  exact Block.pumpReply_freeCtr ..
@[simp] theorem Block.reply_latches (s : Block) (ch : Chan) (ws : List Word) : (s.reply ch ws).latches = s.latches := by
  exact Block.pumpReply_latches ..
@[simp] theorem Block.reply_fns (s : Block) (ch : Chan) (ws : List Word) : (s.reply ch ws).fns = s.fns := by
  exact Block.pumpReply_fns ..
@[simp] theorem Block.reply_fw (s : Block) (ch : Chan) (ws : List Word) : (s.reply ch ws).fw = s.fw := by
  exact Block.pumpReply_fw ..
@[simp] theorem Block.reply_trust (s : Block) (ch : Chan) (ws : List Word) : (s.reply ch ws).trust = s.trust := by
  exact Block.pumpReply_trust ..
@[simp] theorem Block.reply_clk (s : Block) (ch : Chan) (ws : List Word) : (s.reply ch ws).clk = s.clk := by
  exact Block.pumpReply_clk ..
@[simp] theorem Block.reply_pwr (s : Block) (ch : Chan) (ws : List Word) : (s.reply ch ws).pwr = s.pwr := by
  exact Block.pumpReply_pwr ..
@[simp] theorem Block.reply_err (s : Block) (ch : Chan) (ws : List Word) : (s.reply ch ws).err = s.err := by
  exact Block.pumpReply_err ..
@[simp] theorem Block.reply_parts (s : Block) (ch : Chan) (ws : List Word) : (s.reply ch ws).parts = s.parts := by
  exact Block.pumpReply_parts ..
@[simp] theorem Block.reply_objs (s : Block) (ch : Chan) (ws : List Word) : (s.reply ch ws).objs = s.objs := by
  exact Block.pumpReply_objs ..
@[simp] theorem Block.reply_bundles (s : Block) (ch : Chan) (ws : List Word) : (s.reply ch ws).bundles = s.bundles := by
  exact Block.pumpReply_bundles ..
@[simp] theorem Block.reply_jobs (s : Block) (ch : Chan) (ws : List Word) : (s.reply ch ws).jobs = s.jobs := by
  exact Block.pumpReply_jobs ..
@[simp] theorem Block.reply_nextJob (s : Block) (ch : Chan) (ws : List Word) : (s.reply ch ws).nextJob = s.nextJob := by
  exact Block.pumpReply_nextJob ..
@[simp] theorem Block.reply_sems (s : Block) (ch : Chan) (ws : List Word) : (s.reply ch ws).sems = s.sems := by
  exact Block.pumpReply_sems ..
@[simp] theorem Block.reply_clusters (s : Block) (ch : Chan) (ws : List Word) : (s.reply ch ws).clusters = s.clusters := by
  exact Block.pumpReply_clusters ..
@[simp] theorem Block.reply_tiles (s : Block) (ch : Chan) (ws : List Word) : (s.reply ch ws).tiles = s.tiles := by
  exact Block.pumpReply_tiles ..
@[simp] theorem Block.reply_msc (s : Block) (ch : Chan) (ws : List Word) : (s.reply ch ws).msc = s.msc := by
  exact Block.pumpReply_msc ..
@[simp] theorem Block.reply_firn (s : Block) (ch : Chan) (ws : List Word) : (s.reply ch ws).firn = s.firn := by
  exact Block.pumpReply_firn ..
@[simp] theorem Block.reply_snow (s : Block) (ch : Chan) (ws : List Word) : (s.reply ch ws).snow = s.snow := by
  exact Block.pumpReply_snow ..
@[simp] theorem Block.reply_serve (s : Block) (ch : Chan) (ws : List Word) : (s.reply ch ws).serve = s.serve := by
  exact Block.pumpReply_serve ..
@[simp] theorem Block.reply_reqs (s : Block) (ch : Chan) (ws : List Word) : (s.reply ch ws).reqs = s.reqs := by
  exact Block.pumpReply_reqs ..
@[simp] theorem Block.reply_reqGens (s : Block) (ch : Chan) (ws : List Word) : (s.reply ch ws).reqGens = s.reqGens := by
  exact Block.pumpReply_reqGens ..
@[simp] theorem Block.reply_adapters (s : Block) (ch : Chan) (ws : List Word) : (s.reply ch ws).adapters = s.adapters := by
  exact Block.pumpReply_adapters ..
@[simp] theorem Block.reply_esk (s : Block) (ch : Chan) (ws : List Word) : (s.reply ch ws).esk = s.esk := by
  exact Block.pumpReply_esk ..
@[simp] theorem Block.reply_beatAt (s : Block) (ch : Chan) (ws : List Word) : (s.reply ch ws).beatAt = s.beatAt := by
  exact Block.pumpReply_beatAt ..
@[simp] theorem Block.reply_lostAt (s : Block) (ch : Chan) (ws : List Word) : (s.reply ch ws).lostAt = s.lostAt := by
  exact Block.pumpReply_lostAt ..
@[simp] theorem Block.reply_lossUntold (s : Block) (ch : Chan) (ws : List Word) : (s.reply ch ws).lossUntold = s.lossUntold := by
  exact Block.pumpReply_lossUntold ..
@[simp] theorem Block.reply_vOwed (s : Block) (ch : Chan) (ws : List Word) : (s.reply ch ws).vOwed = s.vOwed := by
  exact Block.pumpReply_vOwed ..

@[simp] theorem Block.reply_perm (s : Block) (ch : Chan) (ws : List Word) : (s.reply ch ws).ice.perm = s.ice.perm := by
  exact Block.pumpReply_perm ..

end Sys2Proof.Machine
end

