-- ==== Sys2Proof/Laws/Words.lean ====
section
/-! SUPPORT. Fields of words: a field set is read back, and every other field reads as before. -/

namespace Sys2Proof

theorem Word.toNat_setFld (w : Word) {hi lo : Nat} (v : Nat) (h : lo ≤ hi) (hw : hi < 32) :
    (w.setFld hi lo v).toNat =
      (w.toNat / 2 ^ (hi + 1)) * 2 ^ (hi + 1) + (v % 2 ^ (hi + 1 - lo)) * 2 ^ lo + w.toNat % 2 ^ lo := by
  unfold Word.setFld
  rw [BitVec.toNat_ofNat]
  apply Nat.mod_eq_of_lt
  have hw32 := w.isLt
  have e : 2 ^ (hi + 1) = 2 ^ (hi + 1 - lo) * 2 ^ lo := by rw [← Nat.pow_add]; congr 1; omega
  have e2 : (2 : Nat) ^ 32 = 2 ^ (32 - (hi + 1)) * 2 ^ (hi + 1) := by rw [← Nat.pow_add]; congr 1; omega
  have h1 : v % 2 ^ (hi + 1 - lo) < 2 ^ (hi + 1 - lo) := Nat.mod_lt _ (by positivity)
  have h2 : w.toNat % 2 ^ lo < 2 ^ lo := Nat.mod_lt _ (by positivity)
  have h3 : w.toNat / 2 ^ (hi + 1) < 2 ^ (32 - (hi + 1)) := by
    apply Nat.div_lt_of_lt_mul
    rw [Nat.mul_comm, ← e2]
    exact hw32
  have h4 : (v % 2 ^ (hi + 1 - lo)) * 2 ^ lo + w.toNat % 2 ^ lo < 2 ^ (hi + 1) := by
    rw [e]
    calc (v % 2 ^ (hi + 1 - lo)) * 2 ^ lo + w.toNat % 2 ^ lo
        < (v % 2 ^ (hi + 1 - lo)) * 2 ^ lo + 2 ^ lo := by omega
      _ = (v % 2 ^ (hi + 1 - lo) + 1) * 2 ^ lo := by ring
      _ ≤ 2 ^ (hi + 1 - lo) * 2 ^ lo := Nat.mul_le_mul_right _ h1
  calc w.toNat / 2 ^ (hi + 1) * 2 ^ (hi + 1) + v % 2 ^ (hi + 1 - lo) * 2 ^ lo + w.toNat % 2 ^ lo
      < w.toNat / 2 ^ (hi + 1) * 2 ^ (hi + 1) + 2 ^ (hi + 1) := by omega
    _ = (w.toNat / 2 ^ (hi + 1) + 1) * 2 ^ (hi + 1) := by ring
    _ ≤ 2 ^ (32 - (hi + 1)) * 2 ^ (hi + 1) := Nat.mul_le_mul_right _ h3
    _ = 2 ^ 32 := e2.symm

/-- A field that has been set reads as the value, modulo its width. -/
theorem Word.fld_setFld_same (w : Word) {hi lo : Nat} (v : Nat) (h : lo ≤ hi) (hw : hi < 32) :
    (w.setFld hi lo v).fld hi lo = v % 2 ^ (hi + 1 - lo) := by
  unfold Word.fld bitsOf
  rw [Word.toNat_setFld w v h hw]
  have e : 2 ^ (hi + 1) = 2 ^ (hi + 1 - lo) * 2 ^ lo := by rw [← Nat.pow_add]; congr 1; omega
  have h2 : w.toNat % 2 ^ lo < 2 ^ lo := Nat.mod_lt _ (by positivity)
  rw [e, show w.toNat / (2 ^ (hi + 1 - lo) * 2 ^ lo) * (2 ^ (hi + 1 - lo) * 2 ^ lo)
      + v % 2 ^ (hi + 1 - lo) * 2 ^ lo + w.toNat % 2 ^ lo
      = (w.toNat % 2 ^ lo) + (w.toNat / (2 ^ (hi + 1 - lo) * 2 ^ lo) * 2 ^ (hi + 1 - lo)
        + v % 2 ^ (hi + 1 - lo)) * 2 ^ lo by ring]
  rw [Nat.add_mul_div_right _ _ (by positivity), Nat.div_eq_of_lt h2, Nat.zero_add,
    Nat.add_comm, Nat.add_mul_mod_self_right, Nat.mod_mod]

/-- A field set leaves every bit outside it as it was. -/
theorem Word.testBit_setFld (w : Word) {hi lo : Nat} (v i : Nat) (h : lo ≤ hi) (hw : hi < 32) :
    (w.setFld hi lo v).toNat.testBit i =
      if lo ≤ i ∧ i ≤ hi then v.testBit (i - lo) else w.toNat.testBit i := by
  rw [Word.toNat_setFld w v h hw]
  have h2 : w.toNat % 2 ^ lo < 2 ^ lo := Nat.mod_lt _ (by positivity)
  have e : w.toNat / 2 ^ (hi + 1) * 2 ^ (hi + 1) + v % 2 ^ (hi + 1 - lo) * 2 ^ lo + w.toNat % 2 ^ lo
      = 2 ^ lo * (2 ^ (hi + 1 - lo) * (w.toNat / 2 ^ (hi + 1)) + v % 2 ^ (hi + 1 - lo)) + w.toNat % 2 ^ lo := by
    have e1 : 2 ^ (hi + 1) = 2 ^ lo * 2 ^ (hi + 1 - lo) := by rw [← Nat.pow_add]; congr 1; omega
    rw [show w.toNat / 2 ^ (hi + 1) * 2 ^ (hi + 1) = w.toNat / 2 ^ (hi + 1) * (2 ^ lo * 2 ^ (hi + 1 - lo)) by rw [← e1]]
    ring
  rw [e, Nat.testBit_two_pow_mul_add _ h2]
  by_cases h1 : i < lo
  · rw [if_pos h1, if_neg (by omega), Nat.testBit_mod_two_pow]
    simp [h1]
  · rw [if_neg h1, Nat.testBit_two_pow_mul_add _ (Nat.mod_lt _ (by positivity))]
    by_cases h3 : i ≤ hi
    · rw [if_pos (by omega), if_pos (by omega), Nat.testBit_mod_two_pow]
      simp [show i - lo < hi + 1 - lo by omega]
    · rw [if_neg (by omega), if_neg (by omega), Nat.testBit_div_two_pow]
      congr 1
      omega

/-- Two fields that share no bit do not affect each other. -/
theorem Word.fld_setFld_other (w : Word) {hi lo : Nat} (v h' l' : Nat) (h : lo ≤ hi) (hw : hi < 32)
    (hd : h' < lo ∨ hi < l') : (w.setFld hi lo v).fld h' l' = w.fld h' l' := by
  unfold Word.fld bitsOf
  apply Nat.eq_of_testBit_eq
  intro i
  rw [Nat.testBit_mod_two_pow, Nat.testBit_mod_two_pow, Nat.testBit_div_two_pow, Nat.testBit_div_two_pow,
    Word.testBit_setFld w v _ h hw]
  by_cases hi' : i < h' + 1 - l'
  · rw [if_neg (by omega)]
  · simp [hi']

/-- One bit of a word after a field is set. -/
theorem Word.bit_setFld (w : Word) {hi lo : Nat} (v i : Nat) (h : lo ≤ hi) (hw : hi < 32) :
    (w.setFld hi lo v).bit i = if lo ≤ i ∧ i ≤ hi then v.testBit (i - lo) else w.bit i :=
  Word.testBit_setFld w v i h hw

end Sys2Proof
end

