-- ==== Sys2Proof/Laws/Ops.lean ====
section
/-! SUPPORT. What the shared operations do: registers, counters, ledgers, messages, and what a command keeps for
good. -/

namespace Sys2Proof.Machine

/-! ### Registers -/

/-- A register read after a register is written. -/
theorem Block.rg_wr (s : Block) (a b : Nat) (v : Word) : (s.wr a v).rg b = if b = a then v else s.rg b := by
  unfold Block.rg Block.wr
  by_cases h : b = a
  · subst h
    rw [tget_tset_same, if_pos rfl]
  · rw [tget_tset_other _ _ _ _ h, if_neg h]

@[simp] theorem Block.rg_wr_same (s : Block) (a : Nat) (v : Word) : (s.wr a v).rg a = v := by
  rw [Block.rg_wr, if_pos rfl]

theorem Block.rg_wr_other (s : Block) {a b : Nat} (v : Word) (h : b ≠ a) : (s.wr a v).rg b = s.rg b := by
  rw [Block.rg_wr, if_neg h]

/-- A register read after a field of a register is set. -/
theorem Block.rg_wf (s : Block) (a b hi lo v : Nat) :
    (s.wf a hi lo v).rg b = if b = a then (s.rg a).setFld hi lo v else s.rg b := Block.rg_wr ..

theorem Block.rg_wf_other (s : Block) {a b : Nat} (hi lo v : Nat) (h : b ≠ a) : (s.wf a hi lo v).rg b = s.rg b := by
  rw [Block.rg_wf, if_neg h]

theorem Block.rg_wb_other (s : Block) {a b : Nat} (i : Nat) (v : Bool) (h : b ≠ a) : (s.wb a i v).rg b = s.rg b :=
  Block.rg_wf_other _ _ _ _ h

theorem Block.rg_bump_other (s : Block) {a b : Nat} (n : Nat) (h : b ≠ a) : (s.bump a n).rg b = s.rg b :=
  Block.rg_wr_other _ _ h

/-- A counter raised saturates at its top (R4). -/
theorem Block.rg_bump_same (s : Block) (a n : Nat) :
    ((s.bump a n).rg a).toNat = min 0xFFFFFFFF ((s.rg a).toNat + n) := by
  unfold Block.bump
  rw [Block.rg_wr_same, BitVec.toNat_ofNat]
  exact Nat.mod_eq_of_lt (by omega)

/-- A field set reads back, modulo its width. -/
theorem Block.fld_wf_same (s : Block) (a : Nat) {hi lo : Nat} (v : Nat) (h : lo ≤ hi) (hw : hi < 32) :
    (s.wf a hi lo v).fld a hi lo = v % 2 ^ (hi + 1 - lo) := by
  unfold Block.fld
  rw [Block.rg_wf, if_pos rfl, Word.fld_setFld_same _ _ h hw]

/-- A field set leaves the fields beside it, and every other register. -/
theorem Block.fld_wf_other (s : Block) {a b : Nat} {hi lo : Nat} (v h' l' : Nat) (h : lo ≤ hi) (hw : hi < 32)
    (hd : b ≠ a ∨ h' < lo ∨ hi < l') : (s.wf a hi lo v).fld b h' l' = s.fld b h' l' := by
  unfold Block.fld
  rw [Block.rg_wf]
  split
  · rename_i e
    subst e
    exact Word.fld_setFld_other _ _ _ _ h hw (hd.resolve_left (fun x => x rfl))
  · rfl

/-- A bit set reads back. -/
theorem Block.bit_wb_same (s : Block) (a : Nat) {i : Nat} (v : Bool) (h : i < 32) : (s.wb a i v).bit a i = v := by
  unfold Block.bit Block.wb
  rw [Block.rg_wf, if_pos rfl, Word.bit_setFld _ _ _ (Nat.le_refl i) h, if_pos ⟨Nat.le_refl i, Nat.le_refl i⟩,
    Nat.sub_self]
  cases v <;> rfl

/-- A bit set leaves the bits beside it, and every other register. -/
theorem Block.bit_wb_other (s : Block) {a b i j : Nat} (v : Bool) (h : i < 32) (hd : b ≠ a ∨ j ≠ i) :
    (s.wb a i v).bit b j = s.bit b j := by
  unfold Block.bit Block.wb
  rw [Block.rg_wf]
  split
  · rename_i e
    subst e
    rw [Word.bit_setFld _ _ _ (Nat.le_refl i) h, if_neg (by omega)]
  · rfl

/-- A pair set reads back (R7). -/
theorem Block.pair_setPair (s : Block) (a v : Nat) (h : v < 2 ^ 64) : (s.setPair a v).pair a = v := by
  unfold Block.pair Block.setPair
  rw [Block.rg_wr_other _ _ (by omega), Block.rg_wr_same, Block.rg_wr_same, BitVec.toNat_ofNat, BitVec.toNat_ofNat]
  omega

/-! ### Ledgers -/

/-- A change of a ledger that R337 allows keeps the equation of R336. -/
theorem Ledger.move_ok {l l' : Ledger} {m : LedgerMove} (h : l.move m = some l') : l'.ok = true := by
  unfold Ledger.move at h
  dsimp only at h
  split at h
  · rename_i hc
    obtain ⟨h1, h2, h3, h4, h5⟩ := hc
    simp only [Option.some.injEq] at h
    subst h
    simp only [Ledger.ok, beq_iff_eq]
    omega
  · cases h

/-- The ledger named after an allowed change. -/
theorem Block.ledger_led1_some {s : Block} {n : Nat} {m : LedgerMove} {l : Ledger} (h : (s.ledger n).move m = some l) :
    (s.led1 n m).ledger n = l := by
  unfold Block.led1
  rw [h]
  unfold Block.ledger
  exact tget_tset_same ..

/-- The ledger named after a refused change. -/
theorem Block.ledger_led1_none {s : Block} {n : Nat} {m : LedgerMove} (h : (s.ledger n).move m = none) (k : Nat) :
    (s.led1 n m).ledger k = s.ledger k := by
  unfold Block.led1
  rw [h]
  unfold Block.ledger
  rw [Block.raiseBreach_led]

/-- A change of one ledger leaves the others. -/
theorem Block.ledger_led1_other (s : Block) {n k : Nat} (m : LedgerMove) (h : k ≠ n) :
    (s.led1 n m).ledger k = s.ledger k := by
  cases e : (s.ledger n).move m with
  | none => exact Block.ledger_led1_none e k
  | some l =>
    unfold Block.led1
    rw [e]
    unfold Block.ledger
    exact tget_tset_other _ _ _ _ h

/-! ### What is written once and for good -/

theorem orBytes_self (l : List Byte) : orBytes l l = l := by
  induction l with
  | nil => rfl
  | cons x xs ih => simp [orBytes, ih]

theorem maxFloors_self (l : List Nat) : maxFloors l l = l := by
  induction l with
  | nil => rfl
  | cons x xs ih => simp [maxFloors, ih]

@[simp] theorem LcBit.or_self (x : LcBit) : x.or x = x := by
  cases x
  simp [LcBit.or]

@[simp] theorem Fuses.keep_self (f : Fuses) : f.keep f = f := by
  cases f
  simp [Fuses.keep, orBytes_self, maxFloors_self]

@[simp] theorem keepSlots_self (t : Tbl IceSlot) : keepSlots t t = t := by
  unfold keepSlots
  rw [if_pos rfl]

/-- A command that blows no fuse and programs no permanent slot has exactly its own effect. -/
theorem Block.lasting_of_same {old new : Block} (hf : new.trust.fuses = old.trust.fuses)
    (hp : new.ice.perm = old.ice.perm) : old.lasting new = new := by
  unfold Block.lasting
  rw [hf, hp, Fuses.keep_self, keepSlots_self, ← hf, ← hp]

/-- What `onBlk` answers. -/
theorem onBlk_next {f : Block → Block} {s : State} (hf : (f s.blk).trust.fuses = s.blk.trust.fuses)
    (hp : (f s.blk).ice.perm = s.blk.ice.perm) : onBlk f s = .next { s with blk := f s.blk } := by
  unfold onBlk
  rw [Block.lasting_of_same hf hp]

@[simp] theorem Block.lasting_regs (a b : Block) : (a.lasting b).regs = b.regs := (rfl)
@[simp] theorem Block.lasting_freeCtr (a b : Block) : (a.lasting b).freeCtr = b.freeCtr := (rfl)
@[simp] theorem Block.lasting_latches (a b : Block) : (a.lasting b).latches = b.latches := (rfl)
@[simp] theorem Block.lasting_fns (a b : Block) : (a.lasting b).fns = b.fns := (rfl)
@[simp] theorem Block.lasting_mbx (a b : Block) : (a.lasting b).mbx = b.mbx := (rfl)
@[simp] theorem Block.lasting_env (a b : Block) : (a.lasting b).env = b.env := (rfl)
@[simp] theorem Block.lasting_led (a b : Block) : (a.lasting b).led = b.led := (rfl)
@[simp] theorem Block.lasting_fw (a b : Block) : (a.lasting b).fw = b.fw := (rfl)
@[simp] theorem Block.lasting_start (a b : Block) : (a.lasting b).start = b.start := (rfl)
@[simp] theorem Block.lasting_clk (a b : Block) : (a.lasting b).clk = b.clk := (rfl)
@[simp] theorem Block.lasting_pwr (a b : Block) : (a.lasting b).pwr = b.pwr := (rfl)
@[simp] theorem Block.lasting_err (a b : Block) : (a.lasting b).err = b.err := (rfl)
@[simp] theorem Block.lasting_parts (a b : Block) : (a.lasting b).parts = b.parts := (rfl)
@[simp] theorem Block.lasting_objs (a b : Block) : (a.lasting b).objs = b.objs := (rfl)
@[simp] theorem Block.lasting_bundles (a b : Block) : (a.lasting b).bundles = b.bundles := (rfl)
@[simp] theorem Block.lasting_jobs (a b : Block) : (a.lasting b).jobs = b.jobs := (rfl)
@[simp] theorem Block.lasting_nextJob (a b : Block) : (a.lasting b).nextJob = b.nextJob := (rfl)
@[simp] theorem Block.lasting_sems (a b : Block) : (a.lasting b).sems = b.sems := (rfl)
@[simp] theorem Block.lasting_clusters (a b : Block) : (a.lasting b).clusters = b.clusters := (rfl)
@[simp] theorem Block.lasting_tiles (a b : Block) : (a.lasting b).tiles = b.tiles := (rfl)
@[simp] theorem Block.lasting_msc (a b : Block) : (a.lasting b).msc = b.msc := (rfl)
@[simp] theorem Block.lasting_firn (a b : Block) : (a.lasting b).firn = b.firn := (rfl)
@[simp] theorem Block.lasting_snow (a b : Block) : (a.lasting b).snow = b.snow := (rfl)
@[simp] theorem Block.lasting_serve (a b : Block) : (a.lasting b).serve = b.serve := (rfl)
@[simp] theorem Block.lasting_reqs (a b : Block) : (a.lasting b).reqs = b.reqs := (rfl)
@[simp] theorem Block.lasting_reqGens (a b : Block) : (a.lasting b).reqGens = b.reqGens := (rfl)
@[simp] theorem Block.lasting_adapters (a b : Block) : (a.lasting b).adapters = b.adapters := (rfl)
@[simp] theorem Block.lasting_esk (a b : Block) : (a.lasting b).esk = b.esk := (rfl)
@[simp] theorem Block.lasting_beatAt (a b : Block) : (a.lasting b).beatAt = b.beatAt := (rfl)
@[simp] theorem Block.lasting_lostAt (a b : Block) : (a.lasting b).lostAt = b.lostAt := (rfl)
@[simp] theorem Block.lasting_lossUntold (a b : Block) : (a.lasting b).lossUntold = b.lossUntold := (rfl)
@[simp] theorem Block.lasting_trust_seed (a b : Block) : (a.lasting b).trust.seed = b.trust.seed := (rfl)
@[simp] theorem Block.lasting_trust_nonces (a b : Block) : (a.lasting b).trust.nonces = b.trust.nonces := (rfl)
@[simp] theorem Block.lasting_trust_reports (a b : Block) : (a.lasting b).trust.reports = b.trust.reports := (rfl)
@[simp] theorem Block.lasting_trust_reportCount (a b : Block) : (a.lasting b).trust.reportCount = b.trust.reportCount := (rfl)
@[simp] theorem Block.lasting_trust_updates (a b : Block) : (a.lasting b).trust.updates = b.trust.updates := (rfl)
@[simp] theorem Block.lasting_trust_measures (a b : Block) : (a.lasting b).trust.measures = b.trust.measures := (rfl)
@[simp] theorem Block.lasting_trust_keys (a b : Block) : (a.lasting b).trust.keys = b.trust.keys := (rfl)
@[simp] theorem Block.lasting_ice_ring (a b : Block) : (a.lasting b).ice.ring = b.ice.ring := (rfl)
@[simp] theorem Block.lasting_ice_nextSlot (a b : Block) : (a.lasting b).ice.nextSlot = b.ice.nextSlot := (rfl)
@[simp] theorem Block.lasting_ice_queue (a b : Block) : (a.lasting b).ice.queue = b.ice.queue := (rfl)
@[simp] theorem Block.lasting_ice_health (a b : Block) : (a.lasting b).ice.health = b.ice.health := (rfl)
@[simp] theorem Block.lasting_ice_healthLost (a b : Block) : (a.lasting b).ice.healthLost = b.ice.healthLost := (rfl)
@[simp] theorem Block.lasting_ice_lost (a b : Block) : (a.lasting b).ice.lost = b.ice.lost := (rfl)
@[simp] theorem Block.lasting_ice_budget (a b : Block) : (a.lasting b).ice.budget = b.ice.budget := (rfl)
@[simp] theorem Block.lasting_ice_last (a b : Block) : (a.lasting b).ice.last = b.ice.last := (rfl)
@[simp] theorem Block.lasting_ice_cleared (a b : Block) : (a.lasting b).ice.cleared = b.ice.cleared := (rfl)
@[simp] theorem Block.lasting_ice_clearing (a b : Block) : (a.lasting b).ice.clearing = b.ice.clearing := (rfl)
@[simp] theorem Block.lasting_ice_scanned (a b : Block) : (a.lasting b).ice.scanned = b.ice.scanned := (rfl)
@[simp] theorem Block.lasting_ice_hours (a b : Block) : (a.lasting b).ice.hours = b.ice.hours := (rfl)
@[simp] theorem Block.lasting_ice_pcycles (a b : Block) : (a.lasting b).ice.pcycles = b.ice.pcycles := (rfl)
@[simp] theorem Block.lasting_ice_secNs (a b : Block) : (a.lasting b).ice.secNs = b.ice.secNs := (rfl)
@[simp] theorem Block.lasting_ice_hold (a b : Block) : (a.lasting b).ice.hold = b.ice.hold := (rfl)
@[simp] theorem Block.lasting_ice_latches (a b : Block) : (a.lasting b).ice.latches = b.ice.latches := (rfl)

/-- One slot of the area kept. -/
def keepSlot (old t : Tbl IceSlot) (x : Nat) : Tbl IceSlot :=
  match kget old x with
  | some r => kput t x r
  | none => t

theorem kget_keepSlot {old t : Tbl IceSlot} {k x : Nat} {r : IceSlot} (h : kget old k = some r)
    (ht : k = x ∨ kget t k = some r) : kget (keepSlot old t x) k = some r := by
  unfold keepSlot
  by_cases hx : k = x
  · subst hx
    rw [h]
    exact kget_kput_same ..
  · have ht := ht.resolve_left hx
    split
    · rw [kget_kput_other _ _ hx]
      exact ht
    · exact ht

theorem kget_foldl_keepSlot {old : Tbl IceSlot} {k : Nat} {r : IceSlot} (h : kget old k = some r)
    (l : List Nat) (t : Tbl IceSlot) (ht : k ∈ l ∨ kget t k = some r) :
    kget (l.foldl (keepSlot old) t) k = some r := by
  induction l generalizing t with
  | nil => simpa using ht
  | cons x xs ih =>
    apply ih
    obtain ht | ht := ht
    · obtain rfl | ht := List.mem_cons.mp ht
      · exact Or.inr (kget_keepSlot h (Or.inl rfl))
      · exact Or.inl ht
    · exact Or.inr (kget_keepSlot h (Or.inr ht))

theorem mem_keys {α : Type} {t : Tbl α} {k : Nat} {r : α} (h : kget t k = some r) : k ∈ keys t := by
  induction t with
  | nil => simp at h
  | cons p t ih =>
    obtain ⟨i, v⟩ := p
    rw [kget_cons] at h
    unfold keys
    rw [List.map_cons]
    split at h
    · rename_i e
      exact e ▸ List.mem_cons_self
    · exact List.mem_cons_of_mem _ (ih h)

/-- A slot of the permanent area that is programmed stays as it is (R502). -/
theorem kget_keepSlots {old new : Tbl IceSlot} {k : Nat} {r : IceSlot} (h : kget old k = some r) :
    kget (keepSlots old new) k = some r := by
  unfold keepSlots
  split
  · exact h
  · exact kget_foldl_keepSlot h _ _ (Or.inl (mem_keys h))

/-! ### Steps -/

/-- `onBlk` changes the block to one in which what lasts is as it was, and leaves the queue. -/
theorem onBlk_lasting (f : Block → Block) (s : State) :
    onBlk f s = .next { s with blk := s.blk.lasting (f s.blk) } := rfl

end Sys2Proof.Machine
end

