-- ==== Sys2Proof/Laws/Messages.lean ====
section
/-! SUPPORT. What the handling of a message does, once for all messages: the reply it leaves and what it keeps. -/

namespace Sys2Proof.Machine

theorem Block.full_congr {s t : Block} {a : Nat} (h : t.rg (a + 0x44) = s.rg (a + 0x44)) : t.full a = s.full a := by
  unfold Block.full Block.bit
  rw [h]

theorem Block.box_congr {s t : Block} {a : Nat} (h : t.mbx = s.mbx) : t.box a = s.box a := by
  unfold Block.box
  rw [h]

@[simp] theorem Block.box_setBox_same (s : Block) (a : Nat) (m : Mbx) : (s.setBox a m).box a = m := tget_tset_same ..

theorem Block.box_setBox_other (s : Block) {a b : Nat} (m : Mbx) (h : b ≠ a) : (s.setBox a m).box b = s.box b :=
  tget_tset_other _ _ _ _ h

@[simp] theorem Block.rg_setBox (s : Block) (a b : Nat) (m : Mbx) : (s.setBox a m).rg b = s.rg b := (rfl)
@[simp] theorem Block.rg_msix (s : Block) (f v b : Nat) : (s.msix f v).rg b = s.rg b := (rfl)

theorem Block.rg_of_regs {s t : Block} (h : t.regs = s.regs) (a : Nat) : t.rg a = s.rg a := by
  unfold Block.rg
  rw [h]

/-! ### Registers under a move of a ledger -/

/-- An event of the ice core changes no register but the count of dropped records (R506). -/
theorem Block.rg_event (s : Block) (src ev : Nat) (d : List Word) {a : Nat} (h : a ≠ ICE_DROPPED) :
    (s.event src ev d).rg a = s.rg a := by
  have key : ∀ r, (s.iceEnter r).rg a = s.rg a := by
    intro r
    unfold Block.iceEnter
    split
    · rfl
    · exact (Block.rg_of_regs (by rfl) a).trans (Block.rg_bump_other s 1 h)
  unfold Block.event
  dsimp only
  split
  · split <;> rfl
  · exact key _

/-- A breach changes no register but LDG_STATUS and the count of dropped records. -/
theorem Block.rg_raiseBreach (s : Block) (n k : Nat) (x : List Word) {a : Nat} (h : a ≠ ICE_DROPPED) (h' : a ≠ LDG_STATUS) :
    (s.raiseBreach n k x).rg a = s.rg a := by
  unfold Block.raiseBreach
  refine Eq.trans ?_ (Block.rg_event s srcHealth 0x0901
    ([w32 n, w32 (s.ledger n).free, w32 (s.ledger n).held, w32 (s.ledger n).flight, w32 (s.ledger n).total, w32 k] ++ x) h)
  unfold Block.breachMark Block.breachEvent
  simp only [apply_ite (fun (s : Block) => s.rg a)]
  split
  · rfl
  · exact (Block.rg_wb_other _ _ _ h').trans (Block.rg_wf_other _ _ _ _ h')

theorem Block.rg_led1 (s : Block) (n : Nat) (m : LedgerMove) {a : Nat} (h : a ≠ ICE_DROPPED) (h' : a ≠ LDG_STATUS) :
    (s.led1 n m).rg a = s.rg a := by
  unfold Block.led1
  split
  · rfl
  · exact Block.rg_raiseBreach _ _ _ _ h h'

theorem Block.rg_ledTake (s : Block) (n k : Nat) {a : Nat} (h : a ≠ ICE_DROPPED) (h' : a ≠ LDG_STATUS) :
    (s.ledTake n k).rg a = s.rg a := Block.rg_led1 _ _ _ h h'

theorem Block.rg_chLed (s : Block) (ch : Chan) (g : Block → Nat → Block) {a : Nat}
    (h : ∀ (s : Block) n, (g s n).rg a = s.rg a) : (s.chLed ch g).rg a = s.rg a := by
  unfold Block.chLed
  split
  · exact h _ _
  · rfl

/-! ### The data registers of a channel -/

theorem rg_loop_wr (s : Block) (n a b : Nat) (f : Nat → Word) :
    (loop n (fun i s => s.wr (a + 4 * i) (f i)) s).rg b =
      if b % 4 = a % 4 ∧ a ≤ b ∧ b < a + 4 * n then f ((b - a) / 4) else s.rg b := by
  induction n with
  | zero =>
    rw [if_neg (by omega)]
    rfl
  | succ n ih =>
    show ((loop n (fun i s => s.wr (a + 4 * i) (f i)) s).wr (a + 4 * n) (f n)).rg b = _
    rw [Block.rg_wr]
    by_cases h : b = a + 4 * n
    · subst h
      rw [if_pos rfl, if_pos (by omega)]
      congr 1
      omega
    · rw [if_neg h, ih]
      by_cases h2 : b % 4 = a % 4 ∧ a ≤ b ∧ b < a + 4 * n
      · rw [if_pos h2, if_pos (by omega)]
      · rw [if_neg h2, if_neg (by omega)]

/-- Register `i` of a channel after words are written to it. -/
theorem Block.rg_boxData (s : Block) (a : Nat) (ws : List Word) {i : Nat} (h : i < 16) :
    (s.boxData a ws).rg (a + 4 * i) = ws.getD i 0 := by
  unfold Block.boxData
  rw [rg_loop_wr, if_pos (by omega)]
  congr 1
  omega

theorem Block.rg_boxData_other (s : Block) (a : Nat) (ws : List Word) {b : Nat} (h : b < a ∨ a + 64 ≤ b) :
    (s.boxData a ws).rg b = s.rg b := by
  unfold Block.boxData
  rw [rg_loop_wr, if_neg (by omega)]

/-! ### Replies -/

theorem chBack_ne_ice (ch : Chan) (k : Nat) (h : k < 0x100) : chBack ch + k ≠ ICE_DROPPED := by
  intro e
  have e : chBack ch + k = 0x0040001C := e
  cases ch with
  | fn f n =>
    have e2 : 0x100000000 + f * 0x10000 + 0x1800 + 0x100 * n = chBack (.fn f n) := rfl
    omega
  | s0 =>
    have e2 : chBack .s0 = 0x00308100 := rfl
    omega
  | s1 =>
    have e2 : chBack .s1 = 0x300000100 := rfl
    omega
  | mgmt =>
    have e2 : chBack .mgmt = 0x300000300 := rfl
    omega

theorem chBack_ne_ldg (ch : Chan) (k : Nat) (h : k < 0x100) : chBack ch + k ≠ LDG_STATUS := by
  intro e
  have e : chBack ch + k = 0x00500000 := e
  cases ch with
  | fn f n =>
    have e2 : 0x100000000 + f * 0x10000 + 0x1800 + 0x100 * n = chBack (.fn f n) := rfl
    omega
  | s0 =>
    have e2 : chBack .s0 = 0x00308100 := rfl
    omega
  | s1 =>
    have e2 : chBack .s1 = 0x300000100 := rfl
    omega
  | mgmt =>
    have e2 : chBack .mgmt = 0x300000300 := rfl
    omega

/-- A reply written leaves its words in the channel's data registers. -/
theorem Block.rg_writeReply (s : Block) (ch : Chan) (ws : List Word) (l : List (List Word)) {i : Nat} (h : i < 16) :
    (s.writeReply ch ws l).rg (chBack ch + 4 * i) = ws.getD i 0 := by
  have h1 := chBack_ne_ice ch (4 * i) (by omega)
  have h2 := chBack_ne_ldg ch (4 * i) (by omega)
  unfold Block.writeReply
  simp only [apply_ite (fun (s : Block) => s.rg (chBack ch + 4 * i)), Block.rg_msix, ite_self]
  rw [Block.rg_chLed _ _ _ (fun s n => Block.rg_ledTake s n 1 h1 h2), Block.rg_wb_other _ _ _ (by omega),
    Block.rg_wf_other _ _ _ _ (by omega), Block.rg_boxData _ _ _ h]

/-- A reply written leaves its channel FULL. -/
theorem Block.full_writeReply (s : Block) (ch : Chan) (ws : List Word) (l : List (List Word)) :
    (s.writeReply ch ws l).full (chBack ch) = true := by
  have h1 := chBack_ne_ice ch 0x44 (by omega)
  have h2 := chBack_ne_ldg ch 0x44 (by omega)
  unfold Block.full Block.writeReply
  simp only [apply_ite (fun (s : Block) => s.bit (chBack ch + 0x44) 0)]
  have key : ∀ (t : Block), t.bit (chBack ch + 0x44) 0 = true →
      (t.chLed ch fun s n => s.ledTake n 1).bit (chBack ch + 0x44) 0 = true := by
    intro t ht
    unfold Block.bit
    rw [Block.rg_chLed _ _ _ (fun s n => Block.rg_ledTake s n 1 h1 h2)]
    exact ht
  split
  · exact key _ (Block.bit_wb_same _ _ _ (by omega))
  · exact key _ (Block.bit_wb_same _ _ _ (by omega))

/-- A reply on a free pair is written at once. -/
theorem Block.reply_free {s : Block} {ch : Chan} (h : s.backFree ch) (ws : List Word) :
    (s.reply ch ws).full (chBack ch) = true ∧
    ∀ i, i < 16 → (s.reply ch ws).rg (chBack ch + 4 * i) = ws.getD i 0 := by
  obtain ⟨hf, hw⟩ := h
  have e : s.reply ch ws = (s.setBox (chBack ch)
      { s.box (chBack ch) with waiting := (s.box (chBack ch)).waiting ++ [ws] }).writeReply ch ws [] := by
    unfold Block.reply Block.pumpReply
    simp only [Block.box_setBox_same, hw, List.nil_append]
    rw [if_neg]
    rw [Block.full_congr (Block.rg_setBox ..), hf]
    simp
  rw [e]
  exact ⟨Block.full_writeReply .., fun i hi => Block.rg_writeReply _ _ _ _ hi⟩

/-! ### Messages -/

/-- A message that its core acts on is taken, handled and answered. -/
theorem Block.message_delivers {s : Block} {ch : Chan} {type : Nat} (h : s.delivers ch type)
    (f : Block → List Word → Answer) :
    s.message ch type f =
      (f (s.msgTaken ch) (s.msgWords ch)).blk.reply ch
        (mreg (s.msgWords ch) 0 :: w32 (f (s.msgTaken ch) (s.msgWords ch)).status :: (f (s.msgTaken ch) (s.msgWords ch)).regs) := by
  unfold Block.message
  rw [if_pos h.1]
  simp only [h.2]
  rfl

/-- What the host puts in its memory changes nothing of the module. -/
theorem Block.hostImage_frame (s : Block) (ch : Chan) (type k : Nat) (img : List Byte) :
    { s.hostImage ch type k img with env := { (s.hostImage ch type k img).env with hostMem := s.env.hostMem } } = s := by
  unfold Block.hostImage
  split <;> rfl

/-- The registers of channels are as they were. -/
@[simp] theorem Block.rg_hostImage (s : Block) (ch : Chan) (type k : Nat) (img : List Byte) (a : Nat) :
    (s.hostImage ch type k img).rg a = s.rg a := by
  unfold Block.hostImage
  split <;> rfl

end Sys2Proof.Machine
end

