-- ==== Sys2Proof/Laws/Step.lean ====
section
/-! SUPPORT. What a command can do: it answers a next state whose queue is as it was and in which what is written
once and for good is as it was. -/

namespace Sys2Proof.Machine

/-- Every command answers a next state. It keeps the queue, and what lasts. -/
theorem exec_lasting (c : Instr) (s : State) :
    ∃ b : Block, exec c s = .next { s with blk := s.blk.lasting b } := by
  cases c <;> exact ⟨_, rfl⟩

/-- With a command in front, a step is the command run with the queue's rest. -/
theorem step_cons {s : State} {c : Instr} {l : List Instr} (h : s.pending = c :: l) :
    step s = exec c { s with pending := l } := by
  unfold step
  rw [h]

/-- With no command, a step idles. -/
theorem step_nil {s : State} (h : s.pending = []) : step s = .next s := by
  unfold step
  rw [h]

/-- What a step can do. -/
theorem step_cases (s : State) :
    (s.pending = [] ∧ step s = .next s) ∨
    ∃ c l b, s.pending = c :: l ∧ step s = .next { pending := l, blk := s.blk.lasting b } := by
  cases h : s.pending with
  | nil => exact Or.inl ⟨rfl, step_nil h⟩
  | cons c l =>
    obtain ⟨b, hb⟩ := exec_lasting c { s with pending := l }
    exact Or.inr ⟨c, l, b, rfl, (step_cons h).trans hb⟩

end Sys2Proof.Machine
end

