-- ==== Sys2Proof/Tests/Slice0.lean ====
section
/-! SUPPORT. Tests of the model: ill-formed commands that the check refuses, small steps against the manual, and states
that meet the premises of the statements together. -/

set_option linter.unusedVariables false
set_option Elab.async false

namespace Sys2Proof.Tests

open Sys2Proof Sys2Proof.Machine

/-! ### States -/

/-- A state with no command waiting. -/
def st (b : Block) : State := { blk := b, pending := [] }

/-- The block right after reset. -/
def b0 : Block := State.reset.blk

/-- A block with its firmware loaded, its cores RUNNING and its host link up. -/
def b1 : Block :=
  { loop 7 (fun n b => b.wf (RIME_STATE n) 2 0 0) b0 with
    fw := { b0.fw with loaded := true }, start := { b0.start with linkUp := true } }

/-- A block whose channel holds a message. -/
def msg (b : Block) (ch : Chan) (ws : List Word) : Block :=
  (((b.boxData (chBase ch) ws).wb (chBase ch + 0x44) 0 true).setBox (chBase ch)
    { len := max 8 ws.length, waiting := [], owed := false }).chLed ch fun b n => b.ledTake n 1

/-- A host that has put nothing in its memory leaves the state as it was. -/
theorem image_nil (s : State) (ch : Chan) (type k : Nat) : s = { s with blk := s.blk.hostImage ch type k [] } := by
  unfold Block.hostImage
  split <;> rfl

/-! ### Premises decided together -/

/-- Two propositions decided together, and the rest. -/
theorem two {a b r : Prop} (h : a ∧ b) (hr : r) : a ∧ b ∧ r := ⟨h.1, h.2, hr⟩

/-- Four propositions decided together, and the rest. -/
theorem four {a b c d r : Prop} (h : a ∧ b ∧ c ∧ d) (hr : r) : a ∧ b ∧ c ∧ d ∧ r := two ⟨h.1, h.2.1⟩ (two h.2.2 hr)

/-- Eight propositions decided together, and the rest. -/
theorem eight {a b c d e f g h r : Prop} (x : a ∧ b ∧ c ∧ d ∧ e ∧ f ∧ g ∧ h) (hr : r) :
    a ∧ b ∧ c ∧ d ∧ e ∧ f ∧ g ∧ h ∧ r := two ⟨x.1, x.2.1⟩ (two ⟨x.2.2.1, x.2.2.2.1⟩ (four x.2.2.2.2 hr))


/-! ### Premises, part 1 -/

/-- A queue of jobs with three entries to take. -/
def q0 : HostQueue := { request := false, k := 4, ring := 0, addr := 0x1000, r1 := 0, tail := 3, stopped := false }
/-- A queue of requests with three entries to take. -/
def qr0 : HostQueue := { q0 with request := true }
/-- A ring that holds two entries. -/
def r0 : Ring := { k := 4, addr := 0x2000, vector := 1, coalUs := 0, coalN := 4, r1 := 0, filled := 2, slot := 2, csn := 3, unann := 2, since := 0 }
/-- A function with a queue and a ring. -/
def f0 : Fn := { Fn.reset with queues := [(0, q0), (1, qr0)], rings := [(0, r0)] }
/-- A block with that function. -/
def b2 : Block := { b1 with fns := [(0, f0)] }

/-- The registers of a partition in use by function 0. -/
def part0 : Part := { dies := 1, die := 0, clusters := 0xFF, groups := 0xFF, runPages := 0, busyFrac := [] }
/-- A bundle image that declares nothing. -/
def img0 : BundleImage :=
  { version := 1, streams := [], scopeCheck := false, bundleId := 1, tmRegions := 4, saveBudget := 0,
    numCtrl := 0, rngKey := 0, minPages := 0, eskerCredits := 4, firnStore := 0, semLocal := 4, semJob := 4, routines := [],
    sems := [], objects := [], firn := [] }
/-- A loaded bundle. -/
def bun0 : Bundle := { part := 0, forFn := 0, img := img0, slots := [], firnBase := 0, model := false }
/-- A block with a partition, a bundle and functions that use them. -/
def b3 : Block := { b2.wf (SCH_C_CFG 0) 5 0 0 with parts := [(0, part0)], bundles := [(0, bun0)] }

/-- A vector of 64 elements of FP32. -/
def desc0 : List Word := [0x00000100 + 7, 0, 64, 0, 0, 0, 0, 0, 0, 0, 0, 0, 0]
/-- A vector in slot 5, of generation 1, owned by function 0. -/
def obj0 : Obj :=
  { gen := 1, owner := 0, bundle := 0, desc := desc0, data := Store.empty, frames := [], pieces := [], migrations := 0,
    hintsMissed := 0, golden := 0, g0 := 0, g1 := 0, damaged := false, dying := false, split := [], member := 0, lag := [] }
/-- Its handle. -/
def h0 : Word := 0x01000005
/-- A window onto it. -/
def w0 : Window := { handle := h0, base := 0, size := 1, readOnly := false }
/-- A block that holds the vector and the window. -/
def b4 : Block :=
  { b3 with objs := [(0, { live := [(5, obj0)], gens := [(5, 2)] })], fns := [(0, { f0 with windows := [(0, w0)] })] }


/-- The premises of clause 3 of StepRunsFrontCommand hold together. -/
theorem premises_StepRunsFrontCommand_3 : ∃ (s : State),
    s.pending = [] :=
  ⟨st b0, by decide +kernel⟩

/-- The premises of clause 1 of RegisterWriteStores hold together. -/
theorem premises_RegisterWriteStores_1 : ∃ (s : State) (i : Nat) (bar : Bar) (off a : Nat) (v : Word),
    regAddr i bar off = some a ∧
    dataChan a = none ∧
    ctrlChan a = none ∧
    ¬(fnPage 0 ≤ a ∧ a < fnPage 64) ∧
    a ∉ [ICE_SEL, ICE_CLEAR, CLK_SEL, PWR_LIMIT, SCH_HB, MOR_RESET] ∧
    ¬(0x4000000 ≤ a ∧ a < 0x5000000 ∧ a % 0x1000 = 0x60) ∧
    s.blk.takesWrite a = true :=
  ⟨st b0, 0, .bar0, SCH_SLICE, SCH_SLICE, 7, by decide +kernel⟩

/-- The premises of clause 2 of RegisterWriteStores hold together. -/
theorem premises_RegisterWriteStores_2 : ∃ (s : State) (i : Nat) (bar : Bar) (off a : Nat) (v : Word),
    regAddr i bar off = some a ∧
    s.blk.takesWrite a = false :=
  ⟨st b0, 0, .bar0, SNW 5 0, SNW 5 0, 7, by decide +kernel⟩

/-- The premises of clause 3 of RegisterWriteStores hold together. -/
theorem premises_RegisterWriteStores_3 : ∃ (s : State) (i : Nat) (bar : Bar) (off a event : Nat),
    regAddr i bar off = some a :=
  ⟨st b0, 0, .bar0, PWR_AVG, PWR_AVG, 0, by decide +kernel⟩

/-- The premises of clause 4 of RegisterWriteStores hold together. -/
theorem premises_RegisterWriteStores_4 : ∃ (s : State) (i : Nat) (bar : Bar) (off a : Nat) (v set : Word),
    regAddr i bar off = some a :=
  ⟨st b0, 0, .bar0, PWR_STATUS, PWR_STATUS, 0x100, 0, by decide +kernel⟩

/-- The premises of clause 1 of RegisterWriteActsByItsRow hold together. -/
theorem premises_RegisterWriteActsByItsRow_1 : ∃ (s : State) (i k : Nat) (v : Word),
    i < 64 ∧
    k < 64 :=
  ⟨st b0, 63, 63, 0, by decide +kernel⟩

/-- The premises of clause 3 of RegisterWriteActsByItsRow hold together. -/
theorem premises_RegisterWriteActsByItsRow_3 : ∃ (s : State) (u : Nat) (v : Word),
    u < 4096 :=
  ⟨st b0, 4095, 0, by decide +kernel⟩

/-- The premises of clause 1 of RegisterPairs hold together. -/
theorem premises_RegisterPairs_1 : ∃ (s : State) (i : Nat) (bar : Bar) (off a : Nat),
    regAddr i bar off = some a ∧
    isLo a = true :=
  ⟨st b0, 64, .bar0, CLK_TB_LO, CLK_TB_LO, by decide +kernel⟩

/-- The premises of clause 2 of RegisterPairs hold together. -/
theorem premises_RegisterPairs_2 : ∃ (s : State) (i : Nat) (bar : Bar) (off a : Nat) (v : Word),
    regAddr i bar off = some (a + 4) ∧
    isLo a = true :=
  ⟨st b0, 0, .bar0, CLK_TB_LO + 4, CLK_TB_LO, 7, by decide +kernel⟩

/-- The premises of clause 3 of RegisterPairs hold together. -/
theorem premises_RegisterPairs_3 : ∃ (s : State) (i : Nat) (bar : Bar) (off a : Nat) (h v : Word),
    regAddr i bar off = some a ∧
    isLo a = true ∧
    h = (kget s.blk.latches.hi (stageKey i a)).getD (s.blk.rg (a + 4)) :=
  ⟨st b0, 0, .bar0, CLK_TB_LO, CLK_TB_LO, 0, 7, by decide +kernel⟩

/-- The premises of clause 4 of RegisterPairs hold together. -/
theorem premises_RegisterPairs_4 : ∃ (s : State) (i : Nat) (bar : Bar) (off1 off a : Nat) (h v : Word),
    regAddr i bar off1 = some (a + 4) ∧
    regAddr i bar off = some a ∧
    isLo a = true :=
  ⟨st b0, 0, .bar0, CLK_TB_LO + 4, CLK_TB_LO, CLK_TB_LO, 5, 7, by decide +kernel⟩

/-- The premises of clause 1 of QueuesAndRings hold together. -/
theorem premises_QueuesAndRings_1 : ∃ (s : State) (f q : Nat) (v : Word) (x : HostQueue),
    f < 64 ∧
    q < 64 ∧
    s.blk.hostQueue f q = some x ∧
    v.fld 15 0 < 2 ^ x.k :=
  ⟨st b2, 0, 0, 15, q0, by decide +kernel⟩

/-- The premises of clause 2 of QueuesAndRings hold together. -/
theorem premises_QueuesAndRings_2 : ∃ (s : State) (f q : Nat) (v : Word),
    f < 64 ∧
    q < 64 ∧
    (s.blk.hostQueue f q = none ∨ ∃ x, s.blk.hostQueue f q = some x ∧ 2 ^ x.k ≤ v.fld 15 0) :=
  ⟨st b2, 0, 5, 15, by decide +kernel⟩

/-- The premises of clause 3 of QueuesAndRings hold together. -/
theorem premises_QueuesAndRings_3 : ∃ (s : State) (f r n : Nat) (v : Word) (x : Ring),
    f < 64 ∧
    r < 64 ∧
    s.blk.ring f r = some x ∧
    s.blk.fld (RING_HEAD f r) 15 0 < 2 ^ x.k ∧
    v.fld 15 0 < 2 ^ x.k ∧
    n = (v.fld 15 0 + (2 ^ x.k - s.blk.fld (RING_HEAD f r) 15 0)) % 2 ^ x.k ∧
    n ≤ x.filled ∧
    (s.blk.fn f).held = [] :=
  ⟨st b2, 0, 0, 2, 2, r0, by decide +kernel⟩

/-- The premises of clause 4 of QueuesAndRings hold together. -/
theorem premises_QueuesAndRings_4 : ∃ (s : State) (f r : Nat) (v : Word) (x : Ring),
    f < 64 ∧
    r < 64 ∧
    s.blk.ring f r = some x ∧
    x.filled < (v.fld 15 0 + (2 ^ x.k - s.blk.fld (RING_HEAD f r) 15 0)) % 2 ^ x.k :=
  ⟨st b2, 0, 0, 3, r0, by decide +kernel⟩

/-- The premises of clause 5 of QueuesAndRings hold together. -/
theorem premises_QueuesAndRings_5 : ∃ (s : State) (f r : Nat) (x : Ring),
    s.blk.ring f r = some x ∧
    0 < x.unann ∧
    x.since + x.coalUs * 1000 ≤ s.blk.now ∧
    s.blk.dmaStopped f = false :=
  ⟨st b2, 0, 0, r0, by decide +kernel⟩

/-- The premises of clause 6 of QueuesAndRings hold together. -/
theorem premises_QueuesAndRings_6 : ∃ (s : State) (ch : Chan) (f q k r a : Nat),
    s.blk.delivers ch 0x0201 ∧
    s.blk.backFree ch ∧
    f = chFn ch ∧
    q = (mreg (s.blk.msgWords ch) 1).fld 5 0 ∧
    k = (mreg (s.blk.msgWords ch) 1).fld 12 8 ∧
    r = (mreg (s.blk.msgWords ch) 1).fld 21 16 ∧
    a = mpair (s.blk.msgWords ch) 2 ∧
    s.blk.hostQueue f q = none ∧
    4 ≤ k ∧
    k ≤ 16 ∧
    a % 4096 = 0 ∧
    (s.blk.ring f r).isSome = true :=
  ⟨st (msg b2 (.fn 0 0) [0x02000201, 0x1002, 0x1000]), .fn 0 0, 0, 2, 16, 0, 0x1000, by decide +kernel⟩

/-- The premises of clause 7 of QueuesAndRings hold together. -/
theorem premises_QueuesAndRings_7 : ∃ (s : State) (ch : Chan) (f q : Nat) (x : HostQueue),
    s.blk.delivers ch 0x0202 ∧
    s.blk.backFree ch ∧
    f = chFn ch ∧
    q = (mreg (s.blk.msgWords ch) 1).toNat ∧
    s.blk.hostQueue f q = some x ∧
    q < 64 ∧
    s.blk.sqHead f q = x.tail ∧
    s.blk.queueWork f q = false :=
  ⟨st (msg { b2 with fns := [(0, { f0 with queues := [(0, { q0 with tail := 0 })] })] } (.fn 0 0) [0x02000202]), .fn 0 0, 0, 0, { q0 with tail := 0 }, by decide +kernel⟩

/-- The premises of clause 8 of QueuesAndRings hold together. -/
theorem premises_QueuesAndRings_8 : ∃ (s : State) (ch : Chan) (f r k v a : Nat),
    s.blk.delivers ch 0x0203 ∧
    s.blk.backFree ch ∧
    f = chFn ch ∧
    r = (mreg (s.blk.msgWords ch) 1).fld 5 0 ∧
    k = (mreg (s.blk.msgWords ch) 1).fld 12 8 ∧
    v = (mreg (s.blk.msgWords ch) 1).fld 26 16 ∧
    a = mpair (s.blk.msgWords ch) 2 ∧
    s.blk.ring f r = none ∧
    4 ≤ k ∧
    k ≤ 16 ∧
    a % 4096 = 0 ∧
    v < vectors f :=
  ⟨st (msg b2 (.fn 0 0) [0x02000203, 0x7FF0401, 0x1000]), .fn 0 0, 0, 1, 4, 2047, 0x1000, by decide +kernel⟩

/-- The premises of clause 9 of QueuesAndRings hold together. -/
theorem premises_QueuesAndRings_9 : ∃ (s : State) (ch : Chan) (f r : Nat),
    s.blk.delivers ch 0x0204 ∧
    s.blk.backFree ch ∧
    f = chFn ch ∧
    r = (mreg (s.blk.msgWords ch) 1).toNat ∧
    (s.blk.ring f r).isSome = true ∧
    ((s.blk.fn f).queues.any fun e => e.2.ring == r) = false ∧
    holdsRing (s.blk.fn f).held r = false :=
  ⟨st (msg { b2 with fns := [(0, { f0 with queues := [] })] } (.fn 0 0) [0x02000204]), .fn 0 0, 0, 0, by decide +kernel⟩

/-- The premises of clause 1 of FunctionEvents hold together. -/
theorem premises_FunctionEvents_1 : ∃ (s : State) (f : Nat),
    0 < f ∧
    f < 64 :=
  ⟨st b2, 63, by decide +kernel⟩

/-- The premises of clause 3 of FunctionEvents hold together. -/
theorem premises_FunctionEvents_3 : ∃ (s : State) (f : Nat),
    f < 64 ∧
    (s.blk.fn f).held = [] :=
  ⟨st b2, 63, by decide +kernel⟩

/-- The premises of clause 4 of FunctionEvents hold together. -/
theorem premises_FunctionEvents_4 : ∃ (s : State) (f addr pages : Nat),
    f < 64 :=
  ⟨st b2, 63, 0, 1, by decide +kernel⟩

/-- The premises of clause 5 of FunctionEvents hold together. -/
theorem premises_FunctionEvents_5 : ∃ (s : State),
    s.blk.start.linkUp = true :=
  ⟨st b2, by decide +kernel⟩

/-- The premises of clause 6 of FunctionEvents hold together. -/
theorem premises_FunctionEvents_6 : ∃ (s : State) (f : Nat),
    1 ≤ f ∧
    f < 64 ∧
    s.blk.jobs = [] ∧
    s.blk.reqs = [] ∧
    s.blk.part (s.blk.fnPart f) = none ∧
    (s.blk.fn f).held = [] :=
  ⟨st b2, 63, by decide +kernel⟩

/-- The premises of clause 7 of FunctionEvents hold together. -/
theorem premises_FunctionEvents_7 : ∃ (s : State),
    s.blk.lost = true ∧
    s.blk.jobs = [] ∧
    s.blk.reqs = [] ∧
    s.blk.parts = [] ∧
    (s.blk.fns.all fun e => e.2.held.isEmpty) = true :=
  ⟨st (b2.setDrv 2), by decide +kernel⟩

/-- The premises of clause 1 of SubmissionTakesTheEntry hold together. -/
theorem premises_SubmissionTakesTheEntry_1 : ∃ (s : State) (f q : Nat) (x : HostQueue),
    f < 64 ∧
    q < 64 ∧
    s.blk.takeable f q false = some x ∧
    s.blk.hostOk (x.addr + 64 * s.blk.sqHead f q) 64 = false :=
  ⟨st { b2 with env := { b2.env with hostUnmapped := [1] } }, 0, 0, q0, by decide +kernel⟩

/-- The premises of clause 2 of SubmissionTakesTheEntry hold together. -/
theorem premises_SubmissionTakesTheEntry_2 : ∃ (s : State) (f q : Nat) (x : HostQueue),
    f < 64 ∧
    q < 64 ∧
    s.blk.takeable f q true = some x ∧
    s.blk.hostOk (x.addr + 128 * s.blk.sqHead f q) 128 = false :=
  ⟨st { b2 with env := { b2.env with hostUnmapped := [1] } }, 0, 1, qr0, by decide +kernel⟩

/-- The premises of clause 3 of SubmissionTakesTheEntry hold together. -/
theorem premises_SubmissionTakesTheEntry_3 : ∃ (s : State) (f q : Nat) (x : HostQueue) (b : Bundle),
    f < 64 ∧
    q < 64 ∧
    s.blk.takeable f q false = some x ∧
    x.k ≤ 16 ∧
    s.blk.hostOk (x.addr + 64 * s.blk.sqHead f q) 64 = true ∧
    s.blk.inBreach = false ∧
    (s.blk.part (s.blk.fnPart f)).isSome = true ∧
    kget s.blk.bundles ((mreg (bytesWords 16 (s.blk.hostRead (x.addr + 64 * s.blk.sqHead f q) 64)) 0).fld 15 0) = some b ∧
    b.part = s.blk.fnPart f :=
  ⟨st b3, 0, 0, q0, bun0, by decide +kernel⟩

/-- The premises of clause 1 of MailboxFlags hold together. -/
theorem premises_MailboxFlags_1 : ∃ (s : State) (ch : Chan) (v : Word) (side : List Word),
    chOk ch = true ∧
    ch ≠ .mgmt ∧
    v.bit 8 = true ∧
    s.blk.full (chBase ch) = false ∧
    (ch = .s1 → (s.blk.box s1Base).owed = false) ∧
    8 ≤ v.fld 4 0 ∧
    v.fld 4 0 ≤ 16 :=
  ⟨st b2, .s1, 0x110, [], by decide +kernel⟩

/-- The premises of clause 2 of MailboxFlags hold together. -/
theorem premises_MailboxFlags_2 : ∃ (s : State) (ch : Chan) (v : Word) (side : List Word),
    chOk ch = true ∧
    ch ≠ .mgmt ∧
    v.bit 8 = true ∧
    s.blk.full (chBase ch) = false ∧
    (ch = .s1 → (s.blk.box s1Base).owed = false) ∧
    ¬(8 ≤ v.fld 4 0 ∧ v.fld 4 0 ≤ 16) :=
  ⟨st b2, .fn 63 3, 0x111, [], by decide +kernel⟩

/-- The premises of clause 3 of MailboxFlags hold together. -/
theorem premises_MailboxFlags_3 : ∃ (s : State) (f n : Nat) (v : Word),
    f < 64 ∧
    n < 4 ∧
    v.bit 8 = true ∧
    s.blk.full (chBase (.fn f n)) = true :=
  ⟨st (msg b2 (.fn 0 0) []), 0, 0, 0x108, by decide +kernel⟩

/-- The premises of clause 4 of MailboxFlags hold together. -/
theorem premises_MailboxFlags_4 : ∃ (s : State) (ch : Chan),
    chOk ch = true ∧
    s.blk.full (chBack ch) = true ∧
    (s.blk.box (chBack ch)).waiting = [] :=
  ⟨st (b2.reply (.fn 0 0) [0, 0]), .fn 0 0, by decide +kernel⟩

/-- The premises of clause 1 of WindowsAndAperture hold together. -/
theorem premises_WindowsAndAperture_1 : ∃ (s : State) (f off n : Nat),
    f < 64 ∧
    off < 2 ^ 36 ∧
    0 < n ∧
    s.blk.firnSettle.window f off = none :=
  ⟨st b2, 0, 0, 4, by decide +kernel⟩

/-- The premises of clause 2 of WindowsAndAperture hold together. -/
theorem premises_WindowsAndAperture_2 : ∃ (s : State) (f off : Nat) (data : List Byte),
    f < 64 ∧
    off < 2 ^ 36 ∧
    data ≠ [] ∧
    s.blk.window f off = none :=
  ⟨st b2, 0, 0, [1], by decide +kernel⟩

/-- The premises of clause 3 of WindowsAndAperture hold together. -/
theorem premises_WindowsAndAperture_3 : ∃ (s : State) (f off n : Nat) (w : Window) (o : Obj),
    f < 64 ∧
    off < 2 ^ 36 ∧
    0 < n ∧
    s.blk.window f off = some w ∧
    s.blk.byHandle (s.blk.fnPart f) w.handle = some o ∧
    o.data.poison = [] ∧
    s.blk.intact ∧
    s.blk.firnQueues = [] ∧
    (∀ i, i < n → (apertureByte w o off i).isSome = true ∧ s.blk.apertureUp f w o off false i = true) :=
  ⟨st b4, 0, 0, 64, w0, obj0, by decide +kernel⟩

/-- The premises of clause 4 of WindowsAndAperture hold together. -/
theorem premises_WindowsAndAperture_4 : ∃ (s : State) (f off : Nat) (data : List Byte) (w : Window) (o : Obj),
    f < 64 ∧
    off < 2 ^ 36 ∧
    data ≠ [] ∧
    s.blk.window f off = some w ∧
    w.readOnly = false ∧
    s.blk.byHandle (s.blk.fnPart f) w.handle = some o ∧
    (∀ i, i < data.length → (apertureByte w o off i).isSome = true ∧ s.blk.apertureUp f w o off true i = true) :=
  ⟨st b4, 0, 60, [1, 2, 3, 4], w0, obj0, by decide +kernel⟩

/-- The premises of clause 5 of WindowsAndAperture hold together. -/
theorem premises_WindowsAndAperture_5 : ∃ (s : State) (ch : Chan) (f p base size : Nat) (h : Word) (o : Obj),
    s.blk.delivers ch 0x0205 ∧
    s.blk.backFree ch ∧
    (mreg (s.blk.msgWords ch) 1).bit 4 = true ∧
    f = chFn ch ∧
    p = s.blk.fnPart f ∧
    (s.blk.part p).isSome = true ∧
    (s.blk.msgTaken ch).fnPart f = p ∧
    h = mreg (s.blk.msgWords ch) 2 ∧
    base = mpair (s.blk.msgWords ch) 3 ∧
    size = (mreg (s.blk.msgWords ch) 5).toNat ∧
    s.blk.byHandle p h = some o ∧
    o.mayName f 0 = true ∧
    base % frameBytes = 0 ∧
    0 < size ∧
    size ≤ 2048 ∧
    base + size * frameBytes ≤ viewEnd o.desc :=
  ⟨st (msg b4 (.fn 0 0) [0x02000205, 0x10, h0, 0, 0, 1]), .fn 0 0, 0, 0, 0, 1, h0, obj0, by decide +kernel⟩

/-- The premises of clause 6 of WindowsAndAperture hold together. -/
theorem premises_WindowsAndAperture_6 : ∃ (s : State) (ch : Chan),
    s.blk.delivers ch 0x0205 ∧
    s.blk.backFree ch ∧
    (mreg (s.blk.msgWords ch) 1).bit 4 = false :=
  ⟨st (msg b2 (.fn 0 0) [0x02000205]), .fn 0 0, by decide +kernel⟩

/-- The premises of clause 7 of WindowsAndAperture hold together. -/
theorem premises_WindowsAndAperture_7 : ∃ (s : State) (ch : Chan) (i : Nat) (x : HostQueue),
    s.blk.delivers ch 0x0206 ∧
    s.blk.backFree ch ∧
    i = (mreg (s.blk.msgWords ch) 1).fld 9 4 ∧
    (mreg (s.blk.msgWords ch) 1).fld 1 0 = 0 ∧
    s.blk.hostQueue (chFn ch) i = some x :=
  ⟨st (msg b2 (.fn 0 0) [0x02000206]), .fn 0 0, 0, q0, by decide +kernel⟩

/-- The premises of clause 8 of WindowsAndAperture hold together. -/
theorem premises_WindowsAndAperture_8 : ∃ (s : State) (ch : Chan) (i : Nat) (x : Ring),
    s.blk.delivers ch 0x0206 ∧
    s.blk.backFree ch ∧
    i = (mreg (s.blk.msgWords ch) 1).fld 9 4 ∧
    (mreg (s.blk.msgWords ch) 1).fld 1 0 = 1 ∧
    s.blk.ring (chFn ch) i = some x :=
  ⟨st (msg b2 (.fn 0 0) [0x02000206, 1]), .fn 0 0, 0, r0, by decide +kernel⟩

/-! ### Premises, part 2 -/

/-- An engine that answers OK. -/
theorem eng_ok {x : Nat × Block} (h : x.1 = OK) : x = (OK, x.2) := Prod.ext h rfl
/-- A command that goes on well. -/
theorem goOn_ok {x : (Bool × Nat × Nat) × Block} (h : x.1.2.2 = OK) : x = ((x.1.1, x.1.2.1, OK), x.2) := by
  obtain ⟨⟨a, b, c⟩, d⟩ := x
  cases h
  rfl
/-- A push that passes all its commands on. -/
theorem push_all {x : Nat × Block} {n : Nat} (h : x.1 = n) : x = (n, x.2) := by
  cases h
  rfl
/-- A command with its opcode, engine and words 1 to 7. -/
def cmd (op eng : Nat) (l : List Word) : Cmd := Cmd.ofWords (w32 (op + 256 * eng) :: l)
/-- The bundle of a job with one stream. -/
def bunS (l : List Cmd) : Bundle := { bun0 with img := { img0 with streams := [l] } }
/-- A job that runs on cluster 0. -/
def job0 : Job :=
  { bundle := 0, part := 0, fn := 0, queue := 0, ring := 0, tag1 := 0, tag2 := 0, recAddr := 0, desc := [], cls := 1,
    state := .running, clusters := [0], since := 0, ran := 0, numSums := [], ns := [], fail := none, sems := [], save := [],
    heldLocal := [], boundAt := none, brks := [], inherit := none, wanted := false, step := none, silent := false }
/-- Cluster 0 at the first command of the job's stream. -/
def clu0 : Cluster := { Cluster.reset with state := .issuing, job := some 1, epochs := [1, 1, 1, 1, 1, 1, 1, 1] }
/-- A block with that job, a stream and a cluster; the tile of the cluster's first engines holds four regions. -/
def b5 (l : List Cmd) (k : Cluster) : Block :=
  { (b3.wf (FLOE_STATE 0) 2 0 3).wf (FLOE_STATE 0) 9 4 4 with
    bundles := [(0, bunS l)], jobs := [(1, job0)], clusters := [(0, k)], sems := [(0, Sem.fresh 0 5)] }
/-- The command that comes to its turn. -/
def iss (k : Cmd) : Issue := { c := 0, j := 1, job := job0, cmd := k, routine := false, tag := 0, count := 0 }
/-- A block with routines in force. -/
def lib (b : Block) : Block :=
  let r : Routine := { id := 9, version := 1, entries := [(cmd 0x04 0xFF [], 0)], attn := none }
  let l : Component := { id := 7, version := 1, schema := 1, len := 0, signed := [], sig := [], routines := [r] }
  { b with fw := { b.fw with library := some l } }
/-- An attention routine. -/
def rtnA : Routine := { id := 9, version := 1, entries := [], attn := some .fresh }
/-- A block with that routine in force. -/
def libA (b : Block) : Block :=
  let l : Component := { id := 7, version := 1, schema := 1, len := 0, signed := [], sig := [], routines := [rtnA] }
  { b with fw := { b.fw with library := some l } }
/-- A cluster whose queues hold nothing is free for any attention work. -/
theorem attnFree_idle {s : Block} {c : Nat} {k : AttnKind} {args : List Word} (h : (s.cl c).queues = []) :
    s.attnFree c k args = true := by
  unfold Block.attnFree Cluster.queue
  rw [h]
  simp [tget, kget]
/-- An entry that has started. -/
def ent0 : QEntry :=
  { cmd := cmd 0x40 16 [], count := 7, tag := 0, routine := false, started := true, waiting := false, status := OK, done := 0,
    got := Store.empty }

/-- An object of function 0. -/
def ob1 : Obj :=
  { gen := 1, owner := 0, bundle := 0, desc := [0x00010001, 0, 64], data := Store.empty, frames := [],
    pieces := [(0, { unit := 3, pages := [(32, 2), (0, 0), (0, 0), (0, 0)] })], migrations := 2, hintsMissed := 1, golden := 0, g0 := 0, g1 := 0, damaged := false, dying := false, split := [1], member := 0, lag := [] }
/-- A block with the object in slot 5. -/
def b6 : Block := { b3 with objs := [(0, { live := [(5, ob1)], gens := [(5, 2)] })] }

/-- A sequence of function 0 with a token that waits. -/
def seq0 : Seq :=
  { gen := 0, owner := 0, cls := 0, ns := none, kvTag := 0, publish := false, len := 0, pages := [], tokens := [], damaged := none,
    lost := false, pendingToken := some 5, lastStep := 0, lastClass := 0, inStep := false, target := none, reply := none,
    dying := false }
/-- A model of bundle 0. -/
def mod0 : Model :=
  { bundle := 0, cls := 0, regs := [0, 0, 1000], fn := 0, stepNo := 0, damaged := false, step := none }
/-- The descriptor of a request of that model and sequence. -/
def reqDesc0 : List Word := [0x11, 1, 0, 0, 0, 0, 0, 0, 1, 1, 0, 0x3F800000, 0, 0, 0x3F80] ++ List.replicate 17 0
/-- A block that serves the model, with the request in host memory. -/
def b7 : Block :=
  { b3 with
    snow := [(0, { Snow.empty with classes := [(0, { heads := 1, dim := 64, fmt := 0, tokens := 16, layers := 1 })],
                                    seqs := [(1, seq0)] })],
    serve := [(0, { models := [(1, mod0)], lastChange := 0, calm := 0 })],
    env := { b3.env with hostMem := memWrite [] 0x1000 (wordsBytes reqDesc0) } }

/-- With no request ever taken, the slot that a request takes. -/
theorem reqFreeSlot_empty {s : Block} (h : s.reqs = []) (h' : s.reqGens = []) :
    s.reqFreeSlot.1 = some (s.freeVal % 262144 + 1, 0) := by
  unfold Block.reqFreeSlot Block.req
  rw [h, h']
  simp [kget, tget]

/-- An outcome that is one of success. -/
theorem exc_ok {α : Type} [DecidableEq α] {x : Except Nat α} {a : α}
    (h : (match x with | .ok b => decide (b = a) | .error _ => false) = true) : x = .ok a := by
  cases x with
  | error e => cases h
  | ok b => exact congrArg _ (of_decide_eq_true h)

/-- A block whose partition belongs to a group of two modules, and the descriptor of an object whose own piece is empty. -/
def b8 : Block := { b3 with esk := { b3.esk with groups := [(0, { domain := 0, nodes := [9, 0] })] } }
/-- The descriptor of that object. -/
def emptyDesc : List Word := [0x108, 0, 1, 0, 0, 0, 0, 0, 0, 0, 5, 0, 0]
/-- The message that creates it. -/
def b9 : Block := msg b8 (.fn 0 0) (0x0301 :: emptyDesc)

/-- The premises of clause 2 of TensorMessages hold together. -/
theorem premises_TensorMessages_2 : ∃ (s : State) (ch : Chan) (f p : Nat) (h : Word) (o : Obj) (q : Part),
    s.blk.delivers ch 0x0303 ∧
    s.blk.backFree ch ∧
    f = chFn ch ∧
    p = (s.blk.msgTaken ch).fnPart f ∧
    s.blk.part p = some q ∧
    (s.blk.msgTaken ch).part p = some q ∧
    h = mreg (s.blk.msgWords ch) 1 ∧
    s.blk.byHandle p h = some o ∧
    (s.blk.msgTaken ch).byHandle p h = some o ∧
    o.mayName f 0 = true :=
  ⟨st (msg b6 (.fn 0 0) [0x0303, 0x1000005]), .fn 0 0, 0, 0, 0x1000005, ob1, part0, by decide +kernel⟩

/-- The premises of clause 3 of TensorMessages hold together. -/
theorem premises_TensorMessages_3 : ∃ (s : State) (ch : Chan) (f p : Nat) (h : Word) (o : Obj),
    s.blk.delivers ch 0x0304 ∧
    s.blk.backFree ch ∧
    f = chFn ch ∧
    p = (s.blk.msgTaken ch).fnPart f ∧
    ((s.blk.msgTaken ch).part p).isSome = true ∧
    h = mreg (s.blk.msgWords ch) 1 ∧
    (s.blk.msgTaken ch).byHandle p h = some o ∧
    o.mayName f 0 = true ∧
    (s.blk.msgTaken ch).inUse p h = false ∧
    (s.blk.msgTaken ch).mapped p h = false :=
  ⟨st (msg b6 (.fn 0 0) [0x0304, 0x1000005]), .fn 0 0, 0, 0, 0x1000005, ob1, by decide +kernel⟩

/-- The premises of clause 4 of TensorMessages hold together. -/
theorem premises_TensorMessages_4 : ∃ (s : State) (ch : Chan) (f p : Nat) (h : Word) (o : Obj) (x : FirnPiece),
    s.blk.delivers ch 0x0305 ∧
    s.blk.backFree ch ∧
    f = chFn ch ∧
    p = (s.blk.msgTaken ch).fnPart f ∧
    ((s.blk.msgTaken ch).part p).isSome = true ∧
    h = mreg (s.blk.msgWords ch) 1 ∧
    (s.blk.msgTaken ch).byHandle p h = some o ∧
    o.mayName f 0 = true ∧
    kget o.pieces (mreg (s.blk.msgWords ch) 2).toNat = some x ∧
    x.pages.length = 4 :=
  ⟨st (msg b6 (.fn 0 0) [0x0305, 0x1000005, 0]), .fn 0 0, 0, 0, 0x1000005, ob1, { unit := 3, pages := [(32, 2), (0, 0), (0, 0), (0, 0)] }, by decide +kernel⟩

/-- The premises of clause 1 of ControlCommands hold together. -/
theorem premises_ControlCommands_1 : ∃ (s : State) (c : Nat) (x : Issue) (k : Cluster),
    s.blk.runs c 0x00 x ∧
    s.blk.cl c = k :=
  ⟨st (b5 [cmd 0x00 0xFF []] (clu0)), 0, iss (cmd 0x00 0xFF []), clu0, by decide +kernel⟩

/-- The premises of clause 2 of ControlCommands hold together. -/
theorem premises_ControlCommands_2 : ∃ (s : State) (c : Nat) (x : Issue) (k : Cluster),
    s.blk.runs c 0x01 x ∧
    s.blk.cl c = k ∧
    x.cmd.b 2 31 = false ∧
    x.cmd.f 5 4 0 = 0 ∧
    x.cmd.f 4 22 0 ≤ shmEnd ∧
    x.cmd.n 1 = 0 :=
  ⟨st (b5 [cmd 0x01 0xFF [0, 0, 3]] (clu0)), 0, iss (cmd 0x01 0xFF [0, 0, 3]), clu0, by decide +kernel⟩

/-- The premises of clause 3 of ControlCommands hold together. -/
theorem premises_ControlCommands_3 : ∃ (s : State) (c : Nat) (x : Issue) (k : Cluster),
    s.blk.runs c 0x01 x ∧
    s.blk.cl c = k ∧
    x.cmd.b 2 31 = false ∧
    x.cmd.f 5 4 0 = 0 ∧
    x.cmd.f 4 22 0 ≤ shmEnd ∧
    0 < x.cmd.n 1 :=
  ⟨st (b5 [cmd 0x01 0xFF [2, 0, 3]] (clu0)), 0, iss (cmd 0x01 0xFF [2, 0, 3]), clu0, by decide +kernel⟩

/-- The premises of clause 4 of ControlCommands hold together. -/
theorem premises_ControlCommands_4 : ∃ (s : State) (c : Nat) (x : Issue) (k : Cluster) (f : LoopFrame) (l : List LoopFrame),
    s.blk.runs c 0x02 x ∧
    s.blk.cl c = k ∧
    k.loops = f :: l ∧
    f.iter + 1 < f.total :=
  ⟨st (b5 [cmd 0x02 0xFF []] ({ clu0 with loops := [({ pos := 0, body := 3, total := 2, iter := 0, patches := [] } : LoopFrame)] })), 0, iss (cmd 0x02 0xFF []), { clu0 with loops := [({ pos := 0, body := 3, total := 2, iter := 0, patches := [] } : LoopFrame)] }, ({ pos := 0, body := 3, total := 2, iter := 0, patches := [] } : LoopFrame), [], by decide +kernel⟩

/-- The premises of clause 5 of ControlCommands hold together. -/
theorem premises_ControlCommands_5 : ∃ (s : State) (c : Nat) (x : Issue) (k : Cluster) (f : LoopFrame) (l : List LoopFrame),
    s.blk.runs c 0x02 x ∧
    s.blk.cl c = k ∧
    k.loops = f :: l ∧
    f.total ≤ f.iter + 1 :=
  ⟨st (b5 [cmd 0x02 0xFF []] ({ clu0 with loops := [({ pos := 0, body := 3, total := 2, iter := 1, patches := [] } : LoopFrame)] })), 0, iss (cmd 0x02 0xFF []), { clu0 with loops := [({ pos := 0, body := 3, total := 2, iter := 1, patches := [] } : LoopFrame)] }, ({ pos := 0, body := 3, total := 2, iter := 1, patches := [] } : LoopFrame), [], by decide +kernel⟩

/-- The premises of clause 6 of ControlCommands hold together. -/
theorem premises_ControlCommands_6 : ∃ (s : State) (c : Nat) (x : Issue) (k : Cluster),
    s.blk.runs c 0x03 x ∧
    s.blk.cl c = k ∧
    k.calls.length < 4 ∧
    (∃ r, s.blk.routine (x.cmd.f 1 15 0) = some r ∧ r.attn = none) :=
  ⟨st (lib (b5 [cmd 0x03 0xFF [9]] (clu0))), 0, iss (cmd 0x03 0xFF [9]), clu0, by decide +kernel⟩

/-- The premises of clause 7 of ControlCommands hold together. -/
theorem premises_ControlCommands_7 : ∃ (s : State) (c st : Nat) (x : Issue) (r : Routine) (k : AttnKind) (b : Block),
    s.blk.runs c 0x03 x ∧
    (s.blk.cl c).calls.length < 4 ∧
    s.blk.routine (x.cmd.f 1 15 0) = some r ∧
    r.attn = some k ∧
    s.blk.attnFree c k (callArgs x.cmd) = true ∧
    s.blk.attnCall (engCtx x 0) k (callArgs x.cmd) = (st, b) :=
  ⟨(st (libA (b5 [cmd 0x03 0xFF [9]] clu0))), 0, ((st (libA (b5 [cmd 0x03 0xFF [9]] clu0))).blk.attnCall (engCtx (iss (cmd 0x03 0xFF [9])) 0) .fresh (callArgs (cmd 0x03 0xFF [9]))).1, iss (cmd 0x03 0xFF [9]), rtnA, .fresh, ((st (libA (b5 [cmd 0x03 0xFF [9]] clu0))).blk.attnCall (engCtx (iss (cmd 0x03 0xFF [9])) 0) .fresh (callArgs (cmd 0x03 0xFF [9]))).2, four (by decide +kernel) ⟨attnFree_idle (by decide +kernel), rfl⟩⟩

/-- The premises of clause 8 of ControlCommands hold together. -/
theorem premises_ControlCommands_8 : ∃ (s : State) (c : Nat) (x : Issue) (k : Cluster) (f : CallFrame) (l : List CallFrame),
    s.blk.runs c 0x04 x ∧
    s.blk.cl c = k ∧
    k.calls = f :: l :=
  ⟨st (lib (b5 [] ({ clu0 with calls := [({ routine := 9, retPos := 4, loops := [], args := [] } : CallFrame)] }))), 0, { iss (cmd 0x04 0xFF []) with routine := true }, { clu0 with calls := [({ routine := 9, retPos := 4, loops := [], args := [] } : CallFrame)] }, ({ routine := 9, retPos := 4, loops := [], args := [] } : CallFrame), [], by decide +kernel⟩

/-- The premises of clause 9 of ControlCommands hold together. -/
theorem premises_ControlCommands_9 : ∃ (s : State) (c : Nat) (x : Issue) (k : Cluster),
    s.blk.runs c 0x05 x ∧
    s.blk.cl c = k :=
  ⟨st (b5 [cmd 0x05 0xFF []] (clu0)), 0, iss (cmd 0x05 0xFF []), clu0, by decide +kernel⟩

/-- The premises of clause 10 of ControlCommands hold together. -/
theorem premises_ControlCommands_10 : ∃ (s : State) (c : Nat) (x : Issue) (k : Cluster),
    s.blk.runs c 0x06 x ∧
    s.blk.cl c = k ∧
    x.routine = false ∧
    (s.blk.holdsSem x.j = true ∨ 0 < s.blk.jobOut x.j) :=
  ⟨st { b5 [cmd 0x06 0xFF []] clu0 with sems := [(0, { Sem.fresh 0 5 with holder := some 1 })] }, 0, iss (cmd 0x06 0xFF []), clu0, by decide +kernel⟩

/-- The premises of clause 11 of ControlCommands hold together. -/
theorem premises_ControlCommands_11 : ∃ (s : State) (c : Nat) (x : Issue) (k : Cluster),
    s.blk.runs c 0x06 x ∧
    s.blk.cl c = k ∧
    x.routine = false ∧
    s.blk.holdsSem x.j = false ∧
    s.blk.jobOut x.j = 0 ∧
    k.preempt = true :=
  ⟨st (b5 [cmd 0x06 0xFF []] ({ clu0 with preempt := true })), 0, iss (cmd 0x06 0xFF []), { clu0 with preempt := true }, by decide +kernel⟩

/-- The premises of clause 12 of ControlCommands hold together. -/
theorem premises_ControlCommands_12 : ∃ (s : State) (c : Nat) (x : Issue) (k : Cluster),
    s.blk.runs c 0x06 x ∧
    s.blk.cl c = k ∧
    (x.routine = true ∨ (s.blk.holdsSem x.j = false ∧ s.blk.jobOut x.j = 0 ∧ k.preempt = false)) :=
  ⟨st (b5 [cmd 0x06 0xFF []] (clu0)), 0, iss (cmd 0x06 0xFF []), clu0, by decide +kernel⟩

/-- The premises of clause 1 of SemaphoresAndFences hold together. -/
theorem premises_SemaphoresAndFences_1 : ∃ (s : State) (c i : Nat) (x : Issue) (y : Sem),
    s.blk.runs c 0x08 x ∧
    s.blk.semRef x.j c (x.cmd.f 1 15 0) = some (.globalSem i) ∧
    kget s.blk.sems i = some y ∧
    y.waiters = [] ∧
    x.cmd.f 2 23 0 ≤ y.count ∧
    x.cmd.b 3 4 = false ∧
    x.cmd.b 3 0 = false :=
  ⟨st { b5 [cmd 0x08 0xFF [0x8000, 5]] clu0 with sems := [(0, Sem.fresh 0 5)] }, 0, 0, iss (cmd 0x08 0xFF [0x8000, 5]), Sem.fresh 0 5, by decide +kernel⟩

/-- The premises of clause 2 of SemaphoresAndFences hold together. -/
theorem premises_SemaphoresAndFences_2 : ∃ (s : State) (c i : Nat) (x : Issue) (y : Sem),
    s.blk.runs c 0x08 x ∧
    s.blk.semRef x.j c (x.cmd.f 1 15 0) = some (.globalSem i) ∧
    kget s.blk.sems i = some y ∧
    y.holder = none ∧
    (y.waiters ≠ [] ∨ y.count < x.cmd.f 2 23 0) ∧
    x.cmd.b 3 0 = false ∧
    (s.blk.cl c).preempt = false :=
  ⟨st { b5 [cmd 0x08 0xFF [0x8000, 6]] clu0 with sems := [(0, Sem.fresh 0 5)] }, 0, 0, iss (cmd 0x08 0xFF [0x8000, 6]), Sem.fresh 0 5, by decide +kernel⟩

/-- The premises of clause 3 of SemaphoresAndFences hold together. -/
theorem premises_SemaphoresAndFences_3 : ∃ (s : State) (c i : Nat) (x : Issue) (y : Sem),
    s.blk.runs c 0x09 x ∧
    s.blk.semRef x.j c (x.cmd.f 1 15 0) = some (.globalSem i) ∧
    kget s.blk.sems i = some y ∧
    y.count + x.cmd.f 2 23 0 ≤ 0xFFFFFF ∧
    x.cmd.b 3 4 = false ∧
    x.cmd.b 3 0 = false :=
  ⟨st { b5 [cmd 0x09 0xFF [0x8000, 6]] clu0 with sems := [(0, Sem.fresh 0 5)] }, 0, 0, iss (cmd 0x09 0xFF [0x8000, 6]), Sem.fresh 0 5, by decide +kernel⟩

/-- The premises of clause 4 of SemaphoresAndFences hold together. -/
theorem premises_SemaphoresAndFences_4 : ∃ (s : State) (c : Nat) (x : Issue),
    s.blk.runs c 0x0A x ∧
    x.cmd.f 1 1 0 = 2 ∧
    1 ≤ x.cmd.f 1 3 2 ∧
    (s.blk.cl c).learnt = [] ∧
    (∀ l, l ∈ (s.blk.cl c).lines → l.filler = none) :=
  ⟨st (b5 [cmd 0x0A 0xFF [6]] clu0), 0, iss (cmd 0x0A 0xFF [6]), by decide +kernel⟩

/-- The premises of clause 5 of SemaphoresAndFences hold together. -/
theorem premises_SemaphoresAndFences_5 : ∃ (s : State) (i j : Nat) (y : Sem) (w : Waiter) (l : List Waiter),
    kget s.blk.sems i = some y ∧
    y.waiters = w :: l ∧
    w.amount ≤ y.count ∧
    w.queue = 24 ∧
    w.hold = false ∧
    w.acquire = none ∧
    (s.blk.cl w.cluster).job = some j ∧
    (s.blk.cl w.cluster).state = .waiting :=
  ⟨st { b5 [] { clu0 with state := .waiting } with sems := [(0, { Sem.fresh 0 5 with waiters := [({ cluster := 0, queue := 24, cmd := 0, amount := 3, acquire := none, hold := false } : Waiter)] })] }, 0, 1, { Sem.fresh 0 5 with waiters := [({ cluster := 0, queue := 24, cmd := 0, amount := 3, acquire := none, hold := false } : Waiter)] }, ({ cluster := 0, queue := 24, cmd := 0, amount := 3, acquire := none, hold := false } : Waiter), [], by decide +kernel⟩

/-- The premises of clause 1 of EngineCommands hold together. -/
theorem premises_EngineCommands_1 : ∃ (s : State) (i : Instr) (c op q : Nat) (x : Issue) (e : QEntry) (l : List QEntry),
    i ∈ [.nop c, .semWait c, .semSignal c, .fence c, .firnPush c, .firnHold c, .matmul c, .matmulPacked c, .vec c, .vred c, .quant c, .copy c, .copyStrided c, .atomic c, .gather c, .scatter c, .scatterAdd c] ∧
    Instr.streamOp i = some (c, op) ∧
    s.blk.issues c op x ∧
    x.cmd.engine = q ∧
    q < 24 ∧
    (s.blk.cl c).queue q = e :: l ∧
    e.started = true ∧
    l.length < 63 ∧
    (s.blk.ledger (0x80 + c)).ok = true ∧
    0 < (s.blk.ledger (0x80 + c)).free :=
  ⟨st (b5 [cmd 0x40 16 [0, 64, 0, 128, 0, 32, 0x240000]] (clu0.setQueue 16 [ent0])), .copy 0, 0, 0x40, 16, iss (cmd 0x40 16 [0, 64, 0, 128, 0, 32, 0x240000]), ent0, [], by decide +kernel⟩

/-- The premises of clause 2 of EngineCommands hold together. -/
theorem premises_EngineCommands_2 : ∃ (s : State) (i : Instr) (c op q : Nat) (x : Issue),
    i ∈ [.nop c, .semWait c, .semSignal c, .fence c, .firnPush c, .firnHold c, .matmul c, .matmulPacked c, .vec c, .vred c, .quant c, .copy c, .copyStrided c, .atomic c, .gather c, .scatter c, .scatterAdd c] ∧
    Instr.streamOp i = some (c, op) ∧
    s.blk.issues c op x ∧
    x.cmd.engine = q ∧
    q < 24 ∧
    64 ≤ ((s.blk.cl c).queue q).length :=
  ⟨st (b5 [cmd 0x40 16 [0, 64, 0, 128, 0, 32, 0x240000]] (clu0.setQueue 16 (List.replicate 64 ent0))), .copy 0, 0, 0x40, 16, iss (cmd 0x40 16 [0, 64, 0, 128, 0, 32, 0x240000]), by decide +kernel⟩

/-- The premises of clause 3 of EngineCommands hold together. -/
theorem premises_EngineCommands_3 : ∃ (s : State) (i : Instr) (c op q : Nat) (x : Issue) (b r : Block),
    i ∈ [.matmul c, .matmulPacked c, .vec c, .vred c, .quant c, .copy c, .copyStrided c, .atomic c, .gather c, .scatter c, .scatterAdd c] ∧
    Instr.streamOp i = some (c, op) ∧
    s.blk.issues c op x ∧
    s.blk.starts x q ∧
    engRun (engCtx x q) (s.blk.entered x q) = (OK, r) ∧
    b = r.repairMet ∧
    (b.cl c).queue q = [{ x.entry with started := true }] :=
  ⟨st (b5 [cmd 0x40 16 [0, 64, 0, 128, 0, 32, 0x240000]] clu0), .copy 0, 0, 0x40, 16, iss (cmd 0x40 16 [0, 64, 0, 128, 0, 32, 0x240000]), (engRun (engCtx (iss (cmd 0x40 16 [0, 64, 0, 128, 0, 32, 0x240000])) 16) ((st (b5 [cmd 0x40 16 [0, 64, 0, 128, 0, 32, 0x240000]] clu0)).blk.entered (iss (cmd 0x40 16 [0, 64, 0, 128, 0, 32, 0x240000])) 16)).2.repairMet, (engRun (engCtx (iss (cmd 0x40 16 [0, 64, 0, 128, 0, 32, 0x240000])) 16) ((st (b5 [cmd 0x40 16 [0, 64, 0, 128, 0, 32, 0x240000]] clu0)).blk.entered (iss (cmd 0x40 16 [0, 64, 0, 128, 0, 32, 0x240000])) 16)).2, four (by decide +kernel) ⟨eng_ok (by decide +kernel), by decide +kernel⟩⟩

/-- The premises of clause 4 of EngineCommands hold together. -/
theorem premises_EngineCommands_4 : ∃ (s : State) (i : Instr) (c op q n : Nat) (w : Bool) (x : Issue) (b r : Block),
    i ∈ [.firnPush c, .firnHold c] ∧
    Instr.streamOp i = some (c, op) ∧
    s.blk.issues c op x ∧
    s.blk.starts x q ∧
    (s.blk.entered x q).pushStatus x (c * 8 + q % 8) = none ∧
    (s.blk.entered x q).pushPoison x = false ∧
    (s.blk.entered x q).goOn x q 0 = ((w, n, OK), r) ∧
    b = r.repairMet ∧
    (b.cl c).queue q = [{ x.entry with started := true }] :=
  ⟨(st (b5 [cmd 0x0C 16 [0, 0x100, 1, 0]] clu0)), .firnPush 0, 0, 0x0C, 16, (((st (b5 [cmd 0x0C 16 [0, 0x100, 1, 0]] clu0)).blk.entered (iss (cmd 0x0C 16 [0, 0x100, 1, 0])) 16).goOn (iss (cmd 0x0C 16 [0, 0x100, 1, 0])) 16 0).1.2.1, (((st (b5 [cmd 0x0C 16 [0, 0x100, 1, 0]] clu0)).blk.entered (iss (cmd 0x0C 16 [0, 0x100, 1, 0])) 16).goOn (iss (cmd 0x0C 16 [0, 0x100, 1, 0])) 16 0).1.1, iss (cmd 0x0C 16 [0, 0x100, 1, 0]), (((st (b5 [cmd 0x0C 16 [0, 0x100, 1, 0]] clu0)).blk.entered (iss (cmd 0x0C 16 [0, 0x100, 1, 0])) 16).goOn (iss (cmd 0x0C 16 [0, 0x100, 1, 0])) 16 0).2.repairMet, (((st (b5 [cmd 0x0C 16 [0, 0x100, 1, 0]] clu0)).blk.entered (iss (cmd 0x0C 16 [0, 0x100, 1, 0])) 16).goOn (iss (cmd 0x0C 16 [0, 0x100, 1, 0])) 16 0).2, four (by decide +kernel) (two (by decide +kernel) ⟨goOn_ok (by decide +kernel), by decide +kernel⟩)⟩

/-- The premises of clause 5 of EngineCommands hold together. -/
theorem premises_EngineCommands_5 : ∃ (s : State) (c : Nat) (x : Issue) (b : Block),
    s.blk.runs c 0x0C x ∧
    s.blk.pushStatus x 0 = none ∧
    s.blk.pushPoison x = false ∧
    (s.blk.cl c).pushDone = 0 ∧
    s.blk.pushFrom x (x.cmd.f 3 12 0) 0 = (x.cmd.f 3 12 0, b) :=
  ⟨(st (b5 [cmd 0x0C 0xFF [0, 0x100, 1, 0]] clu0)), 0, iss (cmd 0x0C 0xFF [0, 0x100, 1, 0]), ((st (b5 [cmd 0x0C 0xFF [0, 0x100, 1, 0]] clu0)).blk.pushFrom (iss (cmd 0x0C 0xFF [0, 0x100, 1, 0])) 1 0).2, four (by decide +kernel) (push_all (by decide +kernel))⟩

/-- The premises of clause 1 of EngineResults hold together. -/
theorem premises_EngineResults_1 : ∃ (s : State) (c q a b n u : Nat) (x : Issue) (e : Block),
    s.blk.issues c 0x40 x ∧
    s.blk.starts x q ∧
    u = c * 8 + q % 8 ∧
    e = s.blk.entered x q ∧
    e.err.met = [] ∧
    a = copySrc x.cmd ∧
    b = copyDst x.cmd ∧
    n = x.cmd.n 6 ∧
    x.cmd.f 5 27 26 = 0 ∧
    x.cmd.f 7 19 18 = 1 ∧
    x.cmd.f 7 21 20 = 2 ∧
    (e.tile u).mem.poison = [] ∧
    e.tmOk u x.routine a n = true ∧
    b + n ≤ shmEnd ∧
    0 < n :=
  ⟨st (b5 [cmd 0x40 16 [0, 64, 0, 128, 0, 32, 0x240000]] clu0), 0, 16, 64, 128, 32, 0, iss (cmd 0x40 16 [0, 64, 0, 128, 0, 32, 0x240000]), ((st (b5 [cmd 0x40 16 [0, 64, 0, 128, 0, 32, 0x240000]] clu0)).blk.entered (iss (cmd 0x40 16 [0, 64, 0, 128, 0, 32, 0x240000])) 16), by decide +kernel⟩

/-- The premises of clause 2 of EngineResults hold together. -/
theorem premises_EngineResults_2 : ∃ (s : State) (c q d n u : Nat) (x : Issue) (e : Block) (T : Tile),
    s.blk.issues c 0x30 x ∧
    s.blk.starts x q ∧
    u = c * 8 + q % 8 ∧
    e = s.blk.entered x q ∧
    e.err.met = [] ∧
    e.tile u = T ∧
    d = x.cmd.w5.fld 21 0 ∧
    n = x.cmd.f 6 23 0 ∧
    0 < n ∧
    n ≤ 256 ∧
    x.cmd.f 1 15 8 = 7 ∧
    1 ≤ x.cmd.f 1 7 0 ∧
    x.cmd.f 1 7 0 ≤ 6 ∧
    vecMem x.cmd.w5 = true ∧
    T.mem.poison = [] ∧
    ((vecSources x.cmd).all fun w => vecMem w && e.tmOk u x.routine (w.fld 21 0) (4 * n) && decide (w.fld 21 0 + 4 * n ≤ d ∨ d + 4 * n ≤ w.fld 21 0)) = true ∧
    e.tmOk u x.routine d (4 * n) = true :=
  ⟨st (b5 [cmd 0x30 8 [0x0701, 0, 64, 0, 128, 16, 0]] clu0), 0, 8, 128, 16, 0, iss (cmd 0x30 8 [0x0701, 0, 64, 0, 128, 16, 0]), ((st (b5 [cmd 0x30 8 [0x0701, 0, 64, 0, 128, 16, 0]] clu0)).blk.entered (iss (cmd 0x30 8 [0x0701, 0, 64, 0, 128, 16, 0])) 8), Tile.reset, by decide +kernel⟩

/-- The premises of clause 3 of EngineResults hold together. -/
theorem premises_EngineResults_3 : ∃ (s : State) (c q u ns : Nat) (x : Issue) (p : Product) (e b : Block),
    s.blk.issues c 0x20 x ∧
    s.blk.starts x q ∧
    u = c * 8 + q % 8 ∧
    e = s.blk.entered x q ∧
    e.err.met = [] ∧
    p = { a := plainOp (x.cmd.f 1 29 22) (x.cmd.f 1 21 0) (x.cmd.f 4 21 0) (pitchOf (x.cmd.f 4 31 22) (ceilDiv (x.cmd.f 7 18 0 * fmtBits (x.cmd.f 1 29 22)) 8)) (x.cmd.f 7 18 0) (x.cmd.b 3 24) 0 false, b := plainOp (x.cmd.f 2 29 22) (x.cmd.f 2 21 0) (x.cmd.f 5 21 0) 0 (x.cmd.f 7 18 0) (x.cmd.b 3 25) 0 true, c := x.cmd.f 3 21 0, cPitch := pitchOf (x.cmd.f 5 31 22) (4 * x.cmd.f 6 29 17), m := x.cmd.f 6 16 0, n := x.cmd.f 6 29 17, kblk := if x.cmd.f 7 26 19 = 0 then 4096 else x.cmd.f 7 26 19 * 32, acc := x.cmd.b 6 30 } ∧
    engMatmul (engCtx x q) e = (OK, b) ∧
    x.cmd.b 3 22 = false ∧
    x.cmd.b 3 23 = false ∧
    p.poisoned (e.tile u).mem = false ∧
    0 < p.m ∧
    4 * p.n ≤ p.cPitch :=
  ⟨st (b5 [cmd 0x20 0 [0x1400000, 0x1400100, 0x200, 0, 0, 0x20001, 32]] clu0), 0, 0, 0, 0, iss (cmd 0x20 0 [0x1400000, 0x1400100, 0x200, 0, 0, 0x20001, 32]), ({ a := plainOp 5 0 0 32 32 false 0 false, b := plainOp 5 0x100 0 0 32 false 0 true, c := 0x200, cPitch := 32, m := 1, n := 1, kblk := 4096, acc := false } : Product), ((st (b5 [cmd 0x20 0 [0x1400000, 0x1400100, 0x200, 0, 0, 0x20001, 32]] clu0)).blk.entered (iss (cmd 0x20 0 [0x1400000, 0x1400100, 0x200, 0, 0, 0x20001, 32])) 0), (engMatmul (engCtx (iss (cmd 0x20 0 [0x1400000, 0x1400100, 0x200, 0, 0, 0x20001, 32])) 0) ((st (b5 [cmd 0x20 0 [0x1400000, 0x1400100, 0x200, 0, 0, 0x20001, 32]] clu0)).blk.entered (iss (cmd 0x20 0 [0x1400000, 0x1400100, 0x200, 0, 0, 0x20001, 32])) 0)).2, four (by decide +kernel) (two (by decide +kernel) ⟨eng_ok (by decide +kernel), by decide +kernel⟩)⟩

/-- The premises of clause 1 of CompletionsOfWork hold together. -/
theorem premises_CompletionsOfWork_1 : ∃ (s : State) (c q ns : Nat) (x : Issue) (e : QEntry) (b r : Block),
    c < 32 ∧
    q < 24 ∧
    (s.blk.cl c).forced = false ∧
    (s.blk.cl c).queue q = [e] ∧
    e.started = true ∧
    e.waiting = false ∧
    e.status = OK ∧
    s.blk.headIssue c e = some x ∧
    engEnd (engCtx x q) s.blk = (OK, r) ∧
    b = r.repairMet ∧
    (b.ledger (0x80 + c)).ok = true ∧
    0 < (b.ledger (0x80 + c)).flight :=
  ⟨st ((b5 [] (clu0.setQueue 16 [ent0])).ledFly 0x80 1), 0, 16, 100, ({ iss ent0.cmd with count := 7 } : Issue), ent0, (engEnd (engCtx ({ iss ent0.cmd with count := 7 } : Issue) 16) (st ((b5 [] (clu0.setQueue 16 [ent0])).ledFly 0x80 1)).blk).2.repairMet, (engEnd (engCtx ({ iss ent0.cmd with count := 7 } : Issue) 16) (st ((b5 [] (clu0.setQueue 16 [ent0])).ledFly 0x80 1)).blk).2, eight (by decide +kernel) ⟨eng_ok (by decide +kernel), by decide +kernel⟩⟩

/-- The premises of clause 2 of CompletionsOfWork hold together. -/
theorem premises_CompletionsOfWork_2 : ∃ (s : State) (c j : Nat) (J : Job) (b : Block),
    streamEndReady c s.blk = true ∧
    (s.blk.cl c).job = some j ∧
    b = s.blk.releaseAll c ∧
    b.jobAt j = some J ∧
    (∃ d, d ∈ J.clusters ∧ d ≠ c ∧ (b.cl d).ended = false) :=
  ⟨(st { b5 [] { clu0 with state := .ending } with jobs := [(1, { job0 with clusters := [0, 1] })] }), 0, 1, { job0 with clusters := [0, 1] }, (st { b5 [] { clu0 with state := .ending } with jobs := [(1, { job0 with clusters := [0, 1] })] }).blk.releaseAll 0, four (by decide +kernel) (⟨1, by decide +kernel, by decide +kernel, by decide +kernel⟩)⟩

/-- The premises of clause 3 of CompletionsOfWork hold together. -/
theorem premises_CompletionsOfWork_3 : ∃ (s : State) (c j : Nat) (J : Job),
    streamEndReady c s.blk = true ∧
    (s.blk.cl c).job = some j ∧
    s.blk.jobAt j = some J ∧
    J.clusters = [c] ∧
    J.placed = true :=
  ⟨st (b5 [] { clu0 with state := .ending }), 0, 1, job0, by decide +kernel⟩

/-- The premises of clause 4 of CompletionsOfWork hold together. -/
theorem premises_CompletionsOfWork_4 : ∃ (s : State) (u cause : Nat),
    tileFaultReady u s.blk = true ∧
    (s.blk.cl (u / 8)).job = none :=
  ⟨st ({ b1 with freeCtr := 0 }.wf (FLOE_STATE 0) 2 0 2), 0, 1, by decide +kernel⟩

/-- The premises of clause 5 of CompletionsOfWork hold together. -/
theorem premises_CompletionsOfWork_5 : ∃ (s : State) (j : Nat) (J : Job),
    s.blk.jobAt j = some J ∧
    J.state = .ready ∧
    J.fail = none :=
  ⟨st { b3 with jobs := [(1, { job0 with state := .ready, clusters := [] })] }, 1, { job0 with state := .ready, clusters := [] }, by decide +kernel⟩

/-! ### Premises, part 3 -/

/-- A frame of an object in stack 0 and a hot stack for it to leave. -/
def ob2 : Obj := { ob1 with frames := [freshFrame 0 0 0 0 0] }
/-- A block in which frame 0 of the object may move. -/
def b11 : Block :=
  let b : Block := { (b6.wb (STK_TEMP 0) 9 true).ledGrow (pageLedger 0 0) 64 with
    objs := [(0, { live := [(5, ob2)], gens := [(5, 2)] })] }
  loop 6 (fun n b => (loop 8 (fun g b => b.wf (STK_STATE n) (2 * g + 1) (2 * g) 2) b).wf (STK_ARB n) 13 8 1) b
/-- A block with its rails up and its stacks trained. -/
def b12 : Block := { b1 with pwr := { b1.pwr with pwrGood := true }, start := { b1.start with stacksDone := true } }
/-- A micro-instruction. -/
def mi (op r : Nat) : Dword := BitVec.ofNat 64 (op * 2 ^ 58 + r)
/-- A RUN of the host at store index 0. -/
def run0 : Cmd := cmd 1 0 [7]
/-- A unit that runs it. -/
def unit0 : FirnUnit := { FirnUnit.reset with running := some (.cmd .host run0), plist := [0x00140005] }
/-- A block whose unit 0 is in service, its set RUNNING, with a program in the store. -/
def b13 (prog : List Dword) (x : FirnUnit) : Block :=
  { ((((((b3.wf (STK_PART_CG 0 0) 5 0 0).wb (FIRN_ID 0) 12 true).wb (FIRN_ID 1) 12 true).setSetState 0 2).wb (FIRN_STATE 0) 3 true).setFirnState 0 3) with
    bundles := [(0, { bun0 with img := { img0 with firn := prog } })], firn := [(0, x)] }

/-- What a DOT of one held vector and one row of FP8 codes reads. -/
def mac0 (x : FirnUnit) : MacIn :=
  { x := x, fmt := 5, book := ((x.running.map FirnEntry.words).getD (Cmd.ofWords [])).w6,
    bytes := (x.stream.take 1).flatMap (·.data), haddr := 0, saddr := 0, rlen := 1, oreg := 0, rows := 1,
    region := regionScale ((x.reg 0).fld 15 0), region1 := true }


/-- The premises of clause 2 of StackCommands hold together. -/
theorem premises_StackCommands_2 : ∃ (s : State) (p fr : Nat) (h : Word) (q : Part) (o : Obj),
    migReady p h fr s.blk = true ∧
    s.blk.part p = some q ∧
    s.blk.byHandle p h = some o ∧
    fr < o.frames.length ∧
    s.blk.intact :=
  ⟨st b11, 0, 0, 0x1000005, part0, ob2, by decide +kernel⟩

/-- The premises of clause 3 of StackCommands hold together. -/
theorem premises_StackCommands_3 : ∃ (s : State) (n temp : Nat),
    n < 24 ∧
    s.blk.pwr.pwrGood = true ∧
    s.blk.start.stacksDone = true ∧
    temp < 105 :=
  ⟨st b12, 0, 99, by decide +kernel⟩

/-- The premises of clause 4 of StackCommands hold together. -/
theorem premises_StackCommands_4 : ∃ (s : State) (n temp : Nat),
    n < 24 ∧
    s.blk.pwr.pwrGood = true ∧
    s.blk.start.stacksDone = true ∧
    105 ≤ temp :=
  ⟨st b12, 0, 105, by decide +kernel⟩

/-- The premises of clause 5 of StackCommands hold together. -/
theorem premises_StackCommands_5 : ∃ (s : State) (n : Nat),
    n < 24 ∧
    s.blk.bit (STK_TEMP n) 8 = true :=
  ⟨st (b12.wb (STK_TEMP 0) 8 true), 0, by decide +kernel⟩

/-- The premises of clause 1 of FirnCommands hold together. -/
theorem premises_FirnCommands_1 : ∃ (s : State) (u : Nat) (v : Word),
    u < 4096 ∧
    v.bit 0 = true ∧
    s.blk.unitOn u = true ∧
    s.blk.firnRoom u = true :=
  ⟨st (b13 [] unit0), 0, 1, by decide +kernel⟩

/-- The premises of clause 2 of FirnCommands hold together. -/
theorem premises_FirnCommands_2 : ∃ (s : State) (u : Nat) (w : Cmd) (r : FirnSrc) (l : List Word),
    s.blk.firnHead u = some (.cmd r w) ∧
    w.op = 1 ∧
    s.blk.firnRunCheck u (.cmd r w) = .ok l ∧
    (s.blk.fu u).refDebt ≤ 3 :=
  ⟨st (b13 [mi 0x3C 0] { FirnUnit.reset with queue := [.cmd .host (cmd 1 0 [7, 1])] }), 0, cmd 1 0 [7, 1], .host, [], two (by decide +kernel) ⟨exc_ok (by decide +kernel), by decide +kernel⟩⟩

/-- The premises of clause 3 of FirnCommands hold together. -/
theorem premises_FirnCommands_3 : ∃ (s : State) (u : Nat) (w : Cmd) (r : FirnSrc),
    s.blk.firnHead u = some (.cmd r w) ∧
    w.op = 2 ∧
    s.blk.firnGate u (.cmd r w) = none :=
  ⟨st (b13 [] { FirnUnit.reset with queue := [.cmd .host (cmd 2 0 [7, 1])] }), 0, cmd 2 0 [7, 1], .host, by decide +kernel⟩

/-- The premises of clause 4 of FirnCommands hold together. -/
theorem premises_FirnCommands_4 : ∃ (s : State) (u : Nat) (w : Cmd),
    (s.blk.fu u).running = some (.cmd .host w) ∧
    w.op = 2 ∧
    w.b 0 8 = false ∧
    (s.blk.fu u).writeQ = [] ∧
    (s.blk.fu u).ownQ = [] :=
  ⟨st (b13 [] { FirnUnit.reset with running := some (.cmd .host (cmd 2 0 [7])) }), 0, cmd 2 0 [7], by decide +kernel⟩

/-- The premises of clause 5 of FirnCommands hold together. -/
theorem premises_FirnCommands_5 : ∃ (s : State) (u ep a : Nat) (r : FirnSrc) (d : List Byte),
    s.blk.firnHead u = some (.hold r ep a d []) ∧
    s.blk.firnGate u (.hold r ep a d []) = none :=
  ⟨st (b13 [] { FirnUnit.reset with queue := [.hold .host 1 2 [1, 2, 3, 4] []] }), 0, 1, 2, .host, [1, 2, 3, 4], by decide +kernel⟩

/-- The premises of clause 1 of FirnDataInstructions hold together. -/
theorem premises_FirnDataInstructions_1 : ∃ (s : State) (u : Nat) (i : Dword) (l : List (Word × Nat)),
    s.blk.executes u 0x01 i ∧
    s.blk.intact ∧
    mf i 57 56 = 0 ∧
    (s.blk.fu u).targets (mf i 55 44) (mf i 43 40) (mf i 39 36) (mf i 35 24) (mf i 23 12) = some l :=
  ⟨st (b13 [mi 0x01 (1 * 2 ^ 12)] (unit0)), 0, mi 0x01 (1 * 2 ^ 12), [(0x00140005, 0)], by decide +kernel⟩

/-- The premises of clause 2 of FirnDataInstructions hold together. -/
theorem premises_FirnDataInstructions_2 : ∃ (s : State) (u : Nat) (i : Dword) (l : List (Word × Nat)),
    s.blk.executes u 0x01 i ∧
    s.blk.intact ∧
    mf i 57 56 = 1 ∧
    (s.blk.fu u).targets (mf i 55 44) (mf i 43 40) (mf i 39 36) (mf i 35 24) (mf i 23 12) = some l ∧
    mf i 11 2 + mf i 23 12 ≤ 1024 ∧
    (l.any fun y => (s.blk.bankRead u (y.1.fld 11 0) y.2).2) = false :=
  ⟨st (b13 [mi 0x01 (1 * 2 ^ 56 + 1 * 2 ^ 12)] (unit0)), 0, mi 0x01 (1 * 2 ^ 56 + 1 * 2 ^ 12), [(0x00140005, 0)], by decide +kernel⟩

/-- The premises of clause 3 of FirnDataInstructions hold together. -/
theorem premises_FirnDataInstructions_3 : ∃ (s : State) (u : Nat) (i : Dword) (k : Word),
    s.blk.executes u 0x18 i ∧
    k = (if mf i 56 56 = 0 then w32 (mf i 51 36 * 65536) else (s.blk.fu u).reg (mf i 55 52)) :=
  ⟨st (b13 [mi 0x18 (0x4000 * 2 ^ 36)] (unit0)), 0, mi 0x18 (0x4000 * 2 ^ 36), 0x40000000, by decide +kernel⟩

/-- The premises of clause 4 of FirnDataInstructions hold together. -/
theorem premises_FirnDataInstructions_4 : ∃ (s : State) (u : Nat) (i : Dword) (l : List (Word × Nat)),
    s.blk.executes u 0x20 i ∧
    (s.blk.fu u).targets (mf i 54 43) (mf i 42 39) (mf i 38 35) (mf i 34 23) (mf i 22 11) = some l ∧
    (l.all fun y => y.1.fld 20 19 == 2) = true ∧
    l.length ≤ 256 :=
  ⟨st (b13 [mi 0x20 (1 * 2 ^ 11)] (unit0)), 0, mi 0x20 (1 * 2 ^ 11), [(0x00140005, 0)], by decide +kernel⟩

/-- The premises of clause 5 of FirnDataInstructions hold together. -/
theorem premises_FirnDataInstructions_5 : ∃ (s : State) (u o : Nat) (i : Dword) (x : FirnUnit) (m : MacIn),
    s.blk.executes u 0x08 i ∧
    s.blk.fu u = x ∧
    o = (x.reg (mf i 8 5)).toNat ∧
    mf i 57 57 = 0 ∧
    mf i 30 28 = 0 ∧
    mf i 19 19 = 0 ∧
    mf i 52 41 ≤ x.stream.length ∧
    m = { x := x, fmt := mf i 56 53, book := ((x.running.map FirnEntry.words).getD (Cmd.ofWords [])).w6, bytes := (x.stream.take (mf i 52 41)).flatMap (·.data), haddr := mf i 40 31, saddr := mf i 26 20, rlen := mf i 18 9, oreg := mf i 8 5, rows := mf i 52 41 / max 1 (mf i 18 9 * fmtBits (mf i 56 53) / 8), region := regionScale ((x.reg (mf i 4 1)).fld 15 0), region1 := mf i 4 1 == 0 } ∧
    ((x.stream.take (mf i 52 41)).any (·.poison)) = false ∧
    x.hold.poison = [] ∧
    x.scale.poison = [] ∧
    o + mf i 52 41 / max 1 (mf i 18 9 * fmtBits (mf i 56 53) / 8) ≤ 1024 :=
  ⟨st (b13 [mi 0x08 (5 * 2 ^ 53 + 1 * 2 ^ 41 + 1 * 2 ^ 9)] ({ unit0 with stream := [{ page := 5, off := 0, data := List.replicate 32 0x38, poison := false }] })), 0, 0, mi 0x08 (5 * 2 ^ 53 + 1 * 2 ^ 41 + 1 * 2 ^ 9), { unit0 with stream := [{ page := 5, off := 0, data := List.replicate 32 0x38, poison := false }] }, mac0 ({ unit0 with stream := [{ page := 5, off := 0, data := List.replicate 32 0x38, poison := false }] }), four (by decide +kernel) (two (by decide +kernel) ⟨by decide +kernel, rfl, by decide +kernel⟩)⟩

/-- The premises of clause 1 of FirnControlInstructions hold together. -/
theorem premises_FirnControlInstructions_1 : ∃ (s : State) (u v : Nat) (i : Dword),
    s.blk.executes u 0x10 i ∧
    (s.blk.fu u).valid (mf i 46 43) (mf i 40 29) (mf i 54 47) = some v :=
  ⟨st (b13 [mi 0x10 (1 * 2 ^ 47)] { unit0 with plist := [0x00141005] }), 0, 1, mi 0x10 (1 * 2 ^ 47), by decide +kernel⟩

/-- The premises of clause 2 of FirnControlInstructions hold together. -/
theorem premises_FirnControlInstructions_2 : ∃ (s : State) (u v : Nat) (i : Dword),
    s.blk.executes u 0x11 i ∧
    (s.blk.fu u).valid (mf i 46 43) (mf i 31 20) (mf i 54 47) = some v :=
  ⟨st (b13 [mi 0x11 (1 * 2 ^ 47)] { unit0 with plist := [0x00141005] }), 0, 1, mi 0x11 (1 * 2 ^ 47), by decide +kernel⟩

/-- The premises of clause 3 of FirnControlInstructions hold together. -/
theorem premises_FirnControlInstructions_3 : ∃ (s : State) (u n : Nat) (i : Dword),
    s.blk.executes u 0x30 i ∧
    n = (if mf i 57 57 = 1 then ((s.blk.fu u).reg (mf i 44 41)).toNat else mf i 56 45) :=
  ⟨st (b13 [mi 0x30 (2 * 2 ^ 45 + 3 * 2 ^ 31)] unit0), 0, 2, mi 0x30 (2 * 2 ^ 45 + 3 * 2 ^ 31), by decide +kernel⟩

/-- The premises of clause 4 of FirnControlInstructions hold together. -/
theorem premises_FirnControlInstructions_4 : ∃ (s : State) (u : Nat) (i : Dword) (l : FirnLoop) (r : List FirnLoop),
    s.blk.executes u 0x31 i ∧
    (s.blk.fu u).loops = l :: r ∧
    mf i 57 54 ≠ mf i 41 38 :=
  ⟨st (b13 [mi 0x31 (4 * 2 ^ 54 + 0xFFF * 2 ^ 42)] { unit0 with loops := [({ first := 0, last := 3, total := 2, iter := 0 } : FirnLoop)] }), 0, mi 0x31 (4 * 2 ^ 54 + 0xFFF * 2 ^ 42), ({ first := 0, last := 3, total := 2, iter := 0 } : FirnLoop), [], by decide +kernel⟩

/-- The premises of clause 5 of FirnControlInstructions hold together. -/
theorem premises_FirnControlInstructions_5 : ∃ (s : State) (u : Nat) (i : Dword),
    s.blk.executes u 0x38 i ∧
    s.blk.firnSet u ≠ 3 ∧
    (s.blk.fu u).refDebt ≤ 3 :=
  ⟨st (b13 [mi 0x38 0] unit0), 0, mi 0x38 0, by decide +kernel⟩

/-- The premises of clause 6 of FirnControlInstructions hold together. -/
theorem premises_FirnControlInstructions_6 : ∃ (s : State) (u : Nat) (i : Dword),
    s.blk.executes u 0x38 i ∧
    s.blk.firnSet u ≠ 3 ∧
    3 < (s.blk.fu u).refDebt :=
  ⟨st (b13 [mi 0x38 0] { unit0 with refDebt := 4 }), 0, mi 0x38 0, by decide +kernel⟩

/-- The premises of clause 7 of FirnControlInstructions hold together. -/
theorem premises_FirnControlInstructions_7 : ∃ (s : State) (u : Nat) (i : Dword) (w : Cmd),
    s.blk.executes u 0x38 i ∧
    s.blk.firnSet u = 3 ∧
    (s.blk.fu u).running = some (.cmd .host w) :=
  ⟨st ((b13 [mi 0x38 0] unit0).setSetState 0 3), 0, mi 0x38 0, run0, by decide +kernel⟩

/-- The premises of clause 8 of FirnControlInstructions hold together. -/
theorem premises_FirnControlInstructions_8 : ∃ (s : State) (u : Nat) (i : Dword) (w : Cmd),
    s.blk.executes u 0x3C i ∧
    (s.blk.fu u).running = some (.cmd .host w) ∧
    w.op = 1 :=
  ⟨st (b13 [mi 0x3C 0] unit0), 0, mi 0x3C 0, run0, by decide +kernel⟩

/-- The premises of clause 9 of FirnControlInstructions hold together. -/
theorem premises_FirnControlInstructions_9 : ∃ (s : State) (u : Nat),
    (s.blk.fu u).parked = true :=
  ⟨st (b13 [] { unit0 with parked := true }), 0, by decide +kernel⟩

/-- The premises of clause 1 of FirnTransfers hold together. -/
theorem premises_FirnTransfers_1 : ∃ (s : State) (u v : Nat) (i : Dword) (send : Bool),
    s.blk.executes u (if send then 0x28 else 0x29) i ∧
    chainPeer u (mf i 57 56) = some v ∧
    s.blk.unitOn v = true ∧
    s.blk.firnSet u ≠ 3 ∧
    (s.blk.fu u).refDebt ≤ 3 :=
  ⟨st (b13 [mi 0x28 (1 * 2 ^ 31)] unit0), 0, 1, mi 0x28 (1 * 2 ^ 31), true, by decide +kernel⟩

/-- The premises of clause 2 of FirnTransfers hold together. -/
theorem premises_FirnTransfers_2 : ∃ (s : State) (u : Nat) (i : Dword) (send : Bool),
    s.blk.executes u (if send then 0x2C else 0x2D) i ∧
    s.blk.unitOn (busPeer u (mf i 57 50)) = true ∧
    s.blk.firnSet u ≠ 3 ∧
    (s.blk.fu u).refDebt ≤ 3 :=
  ⟨st (b13 [mi 0x2D (1 * 2 ^ 50 + 1 * 2 ^ 25)] unit0), 0, mi 0x2D (1 * 2 ^ 50 + 1 * 2 ^ 25), false, by decide +kernel⟩

/-- The premises of clause 3 of FirnTransfers hold together. -/
theorem premises_FirnTransfers_3 : ∃ (s : State) (u v : Nat) (a b : Rendezvous),
    s.blk.partner u = some (a, v, b) ∧
    v ≠ u ∧
    a.send = true ∧
    a.len = b.len ∧
    (a.kind = 2 ↔ b.kind = 2) ∧
    s.blk.firnSet u ≠ 3 ∧
    s.blk.firnSet v ≠ 3 ∧
    (s.blk.fu u).refDebt ≤ 3 ∧
    (s.blk.fu v).refDebt ≤ 3 :=
  ⟨st { b13 [] unit0 with firn := [(0, { unit0 with wait := some ({ bus := false, dirOrPeer := 0, send := true, kind := 0, acc := false, addr := 0, len := 1 } : Rendezvous) }), (1, { unit0 with wait := some ({ bus := false, dirOrPeer := 1, send := false, kind := 1, acc := false, addr := 0, len := 1 } : Rendezvous) })] }, 0, 1, ({ bus := false, dirOrPeer := 0, send := true, kind := 0, acc := false, addr := 0, len := 1 } : Rendezvous), ({ bus := false, dirOrPeer := 1, send := false, kind := 1, acc := false, addr := 0, len := 1 } : Rendezvous), by decide +kernel⟩

/-- The premises of clause 4 of FirnTransfers hold together. -/
theorem premises_FirnTransfers_4 : ∃ (s : State) (u : Nat) (w : Cmd),
    (s.blk.fu u).wait.isSome = true ∧
    s.blk.partner u = none ∧
    (s.blk.fu u).running = some (.cmd .host w) :=
  ⟨st (b13 [] { unit0 with wait := some ({ bus := false, dirOrPeer := 0, send := true, kind := 0, acc := false, addr := 0, len := 1 } : Rendezvous) }), 0, run0, by decide +kernel⟩

/-- The premises of clause 1 of FirnService hold together. -/
theorem premises_FirnService_1 : ∃ (s : State) (u act : Nat),
    u < 4096 :=
  ⟨st (b13 [] unit0), 0, 3000, by decide +kernel⟩

/-- The premises of clause 2 of FirnService hold together. -/
theorem premises_FirnService_2 : ∃ (s : State) (u : Nat) (w : Cmd),
    s.blk.atYield u = true ∧
    (s.blk.fu u).running = some (.cmd .host w) :=
  ⟨st (b13 [] { unit0 with parked := true }), 0, run0, by decide +kernel⟩

/-- The premises of clause 3 of FirnService hold together. -/
theorem premises_FirnService_3 : ∃ (s : State) (u cause : Nat),
    u < 4096 ∧
    s.blk.unitOn u = true ∧
    (s.blk.fu u).running = none ∧
    (s.blk.fu u).queue = [] ∧
    (s.blk.fu u).writeQ = [] ∧
    s.blk.objs = [] ∧
    s.blk.snow = [] :=
  ⟨st (b13 [] FirnUnit.reset), 1, 2, by decide +kernel⟩

/-- The premises of clause 4 of FirnService hold together. -/
theorem premises_FirnService_4 : ∃ (s : State) (k : Nat),
    k < 128 ∧
    s.blk.setState k = 1 ∧
    (∀ u, u ∈ setUnits k → (s.blk.fu u).queue = []) :=
  ⟨st ((b13 [] FirnUnit.reset).setSetState 0 1), 0, by decide +kernel⟩

/-- The premises of clause 5 of FirnService hold together. -/
theorem premises_FirnService_5 : ∃ (s : State) (k : Nat),
    k < 128 ∧
    s.blk.setState k = 3 ∧
    (∀ u, u ∈ setUnits k → (s.blk.fu u).running = none ∧ (s.blk.fu u).queue = [] ∧ (s.blk.fu u).writeQ = []) :=
  ⟨st ((b13 [] FirnUnit.reset).setSetState 0 3), 0, by decide +kernel⟩

/-! ### Premises, part 4 -/

/-- A bundle of one stream that ends. -/
def img1 : BundleImage :=
  { img0 with version := 2, streams := [[cmd 0x05 0xFF []]], tmRegions := 1, saveBudget := 13824, eskerCredits := 0 }
/-- The 96 bytes of its image: the header of 64 and the command. -/
def img1Words : List Word :=
  [2 + 256, 1, 0, 1, 13824, 0, 0, 0, 0, 0, w32 (4 * 2048 + 4 * 4194304), 0, 64, 96, 96, 96, 0xFF05, 0, 0, 0, 0, 0, 0, 0]
/-- A block with one capacity stack of frames for the partition, and the message of that image. -/
def b14Bare : Block :=
  let b : Block := { b3 with bundles := [], jobs := [], parts := [(0, { part0 with groups := 0xFF })] }
  msg (loop 8 (fun g b => (b.wf (STK_STATE 4) (2 * g + 1) (2 * g) 2).wf (STK_PART_CG 4 g) 5 0 0) b) (.fn 0 0) [0x02000401, 0x1000, 0, 96]
/-- The same with the image in the host's memory. -/
def b14 : Block := { b14Bare with env := { b14Bare.env with hostMem := memWrite [] 0x1000 (wordsBytes img1Words) } }


/-- The premises of clause 2 of BundleMessages hold together. -/
theorem premises_BundleMessages_2 : ∃ (s : State) (ch : Chan) (r : Block) (pn b : Nat) (x : Bundle),
    s.blk.delivers ch 0x0402 ∧
    s.blk.backFree ch ∧
    r = s.blk.msgTaken ch ∧
    pn = r.fnPart (chFn ch) ∧
    (r.part pn).isSome = true ∧
    b = (mreg (s.blk.msgWords ch) 1).toNat ∧
    kget r.bundles b = some x ∧
    x.part = pn ∧
    r.bundleBusy b = false ∧
    x.model = false ∧
    (x.slots.all fun k => !r.inUse pn (mkHandle k (((r.obj pn k).map (·.gen)).getD 0)) && !r.mapped pn (mkHandle k (((r.obj pn k).map (·.gen)).getD 0))) = true ∧
    (r.dropBundle b).backFree ch :=
  ⟨st (msg b3 (.fn 0 0) [0x02000402, 0]), .fn 0 0, (st (msg b3 (.fn 0 0) [0x02000402, 0])).blk.msgTaken (.fn 0 0), 0, 0, bun0, by decide +kernel⟩

/-- The premises of clause 1 of BreakAndSemaphoreMessages hold together. -/
theorem premises_BreakAndSemaphoreMessages_1 : ∃ (s : State) (ch : Chan) (j c st : Nat) (J : Job),
    s.blk.delivers ch 0x0403 ∧
    s.blk.backFree ch ∧
    j = (mreg (s.blk.msgWords ch) 1).toNat ∧
    s.blk.jobAt j = some J ∧
    J.fn = chFn ch ∧
    J.step = none ∧
    J.state = .running ∧
    st = (mreg (s.blk.msgWords ch) 2).fld 4 0 ∧
    st < s.blk.jobStreams J ∧
    J.clusters.getD st 32 = c ∧
    (mreg (s.blk.msgWords ch) 2).bit 9 = true ∧
    (mreg (s.blk.msgWords ch) 2).bit 8 = false :=
  ⟨st (msg (b5 [] clu0) (.fn 0 0) [0x02000403, 1, 0x600, 0xFFFF0007]), .fn 0 0, 1, 0, 0, job0, by decide +kernel⟩

/-- The premises of clause 2 of BreakAndSemaphoreMessages hold together. -/
theorem premises_BreakAndSemaphoreMessages_2 : ∃ (s : State) (ch : Chan) (j c st : Nat) (J : Job) (step : Bool),
    s.blk.delivers ch 0x0404 ∧
    s.blk.backFree ch ∧
    j = (mreg (s.blk.msgWords ch) 1).toNat ∧
    s.blk.jobAt j = some J ∧
    J.fn = chFn ch ∧
    J.step = none ∧
    J.state = .running ∧
    st = (mreg (s.blk.msgWords ch) 2).fld 4 0 ∧
    st < s.blk.jobStreams J ∧
    J.clusters.getD st 32 = c ∧
    (mreg (s.blk.msgWords ch) 2).bit 8 = step ∧
    (s.blk.cl c).state = .broken :=
  ⟨st (msg (b5 [] { clu0 with state := .broken }) (.fn 0 0) [0x02000404, 1, 0x100]), .fn 0 0, 1, 0, 0, job0, true, by decide +kernel⟩

/-- The premises of clause 3 of BreakAndSemaphoreMessages hold together. -/
theorem premises_BreakAndSemaphoreMessages_3 : ∃ (s : State) (ch : Chan) (pn : Nat),
    s.blk.delivers ch 0x0405 ∧
    s.blk.backFree ch ∧
    pn = (s.blk.msgTaken ch).fnPart (chFn ch) ∧
    ((s.blk.msgTaken ch).part pn).isSome = true ∧
    (∃ i, i < 4096 ∧ kget s.blk.sems i = none) :=
  ⟨st (msg b3 (.fn 0 0) [0x02000405, 3]), .fn 0 0, 0, four (by decide +kernel) (⟨0, by decide +kernel, by decide +kernel⟩)⟩

/-- The premises of clause 4 of BreakAndSemaphoreMessages hold together. -/
theorem premises_BreakAndSemaphoreMessages_4 : ∃ (s : State) (ch : Chan) (pn n : Nat) (x : Sem),
    s.blk.delivers ch 0x0406 ∧
    s.blk.backFree ch ∧
    pn = (s.blk.msgTaken ch).fnPart (chFn ch) ∧
    ((s.blk.msgTaken ch).part pn).isSome = true ∧
    n = (mreg (s.blk.msgWords ch) 1).fld 15 0 ∧
    semSpace n = 2 ∧
    kget s.blk.sems (semIndex n) = some x ∧
    x.part = pn ∧
    x.waiters = [] ∧
    x.holder = none :=
  ⟨st (msg { b3 with sems := [(0, Sem.fresh 0 3)] } (.fn 0 0) [0x02000406, 0x8000]), .fn 0 0, 0, 0x8000, Sem.fresh 0 3, by decide +kernel⟩

/-! ### Premises, part 5 -/

/-- A Snowpack with one class, two sequences, a namespace and a segment that holds a page. -/
def snow1 : Snow :=
  { classes := [(1, { heads := 1, dim := 64, fmt := 0, tokens := 16, layers := 1 })],
    seqs := [(1, { seq0 with cls := 1 }), (2, { seq0 with cls := 1, len := 20, pages := [(0, [7, 8])], tokens := List.replicate 20 3 })],
    gens := [(1, 1), (2, 1)],
    pages := [(7, { cls := 1, layer := 0, firstPos := 0, fill := 16, hash := 0, refs := 1, loc := .capacity 4 0, dest := none, data := Store.empty, owner := 0, zeroing := false, far := none }),
              (8, { cls := 1, layer := 0, firstPos := 16, fill := 4, hash := 0, refs := 1, loc := .far 3 0x12000000, dest := some (.capacity 4 0), data := Store.empty, owner := 0, zeroing := false, far := none }),
              (9, { cls := 1, layer := 0, firstPos := 0, fill := 0, hash := 0, refs := 0, loc := .capacity 4 0, dest := none, data := Store.empty, owner := 0, zeroing := true, far := none })],
    nodes := [], nsKeys := [(5, 77)], nsOf := [(0, 5)], arenas := [(3, { far := false, addr := 0x40000000, mib := 64, leaving := none })],
    counts := [], pressed := false, swapping := false }
/-- A block with that Snowpack. -/
def b15 : Block := { b3 with snow := [(0, snow1)] }
/-- A block whose Snowpack has that class and no sequence. -/
def b16 : Block := { b3 with snow := [(0, { snow1 with seqs := [], gens := [], pages := [] })] }

/-- With no sequence ever made in the partition, the slot that one takes. -/
theorem seqFreeSlot_empty {s : Block} {p : Nat} (h : (s.snowOf p).seqs = []) (h' : (s.snowOf p).gens = []) :
    s.seqFreeSlot p = (some (s.freeVal % 1048575 + 1, 0), s.drawn) := by
  unfold Block.seqFreeSlot
  simp only [h, h']
  simp [kget, tget]

/-- A block whose Snowpack has one sequence of sixteen positions. -/
def b17 : Block :=
  { b3 with snow := [(0, { snow1 with seqs := [(0, { seq0 with cls := 1, len := 16, pages := [(0, [7])] })], gens := [] })] }
/-- As `seqFreeSlot_empty`, beside a sequence in slot 0. -/
theorem seqFreeSlot_zero {s : Block} {p : Nat} {q : Seq} (h : (s.snowOf p).seqs = [(0, q)]) (h' : (s.snowOf p).gens = []) :
    s.seqFreeSlot p = (some (s.freeVal % 1048575 + 1, 0), s.drawn) := by
  unfold Block.seqFreeSlot
  simp only [h, h']
  simp [kget, tget]
  exact ⟨0, ⟨by omega, fun j => Nat.zero_le j⟩, rfl⟩
/-- The pages of that sequence have room for a reference. -/
theorem fork_b17 (id : Nat) : ((st (msg b17 (.fn 0 0) [0x02000503, 0, 16])).blk.msgTaken (.fn 0 0)).drawn.forkPages 0 id
    { seq0 with cls := 1, len := 16, pages := [(0, [7])] } 16 =
    some ([(0, [7])], ((st (msg b17 (.fn 0 0) [0x02000503, 0, 16])).blk.msgTaken (.fn 0 0)).drawn.addRef 0 7) := by
  have h : ((st (msg b17 (.fn 0 0) [0x02000503, 0, 16])).blk.msgTaken (.fn 0 0)).drawn.shareLayers 0 id 1 [(0, [7])] =
      some ([(0, [7])], ((st (msg b17 (.fn 0 0) [0x02000503, 0, 16])).blk.msgTaken (.fn 0 0)).drawn.addRef 0 7) := by
    simp only [Block.shareLayers, List.take, Block.shareList]
    rfl
  have ht : ceilDiv 16 (max 1 ((((st (msg b17 (.fn 0 0) [0x02000503, 0, 16])).blk.msgTaken (.fn 0 0)).drawn.snowOf 0).cls 1).tokens) = 1 := by
    decide +kernel
  unfold Block.forkPages
  simp only [ht, h, Option.bind_some]
  rfl


/-- The premises of clause 1 of SequencesMadeAndRead hold together. -/
theorem premises_SequencesMadeAndRead_1 : ∃ (s : State) (ch : Chan) (p n slot gen : Nat) (r : Word),
    s.blk.delivers ch 0x0502 ∧
    s.blk.backFree ch ∧
    p = (s.blk.msgTaken ch).fnPart (chFn ch) ∧
    ((s.blk.msgTaken ch).part p).isSome = true ∧
    r = mreg (s.blk.msgWords ch) 2 ∧
    n = (mreg (s.blk.msgWords ch) 6).toNat ∧
    (kget (s.blk.snowOf p).classes (mreg (s.blk.msgWords ch) 1).toNat).isSome = true ∧
    (r.bit 6 = true ∨ (kget (s.blk.snowOf p).nsKeys (r.fld 5 0)).isSome = true ∧ kget (s.blk.snowOf p).nsOf (chFn ch) = some (r.fld 5 0)) ∧
    (n = 0 ∨ (s.blk.msgTaken ch).hostReadStatus (chFn ch) (mpair (s.blk.msgWords ch) 4) (4 * n) = none) ∧
    (s.blk.msgTaken ch).seqFreeSlot p = (some (slot, gen), (s.blk.msgTaken ch).drawn) :=
  ⟨st (msg b16 (.fn 0 0) [0x02000502, 1, 0x40]), .fn 0 0, 0, 0, ((st (msg b16 (.fn 0 0) [0x02000502, 1, 0x40])).blk.msgTaken (.fn 0 0)).freeVal % 1048575 + 1, 0, 0x40, eight (by decide +kernel) ⟨by decide +kernel, seqFreeSlot_empty (by decide +kernel) (by decide +kernel)⟩⟩

/-- The premises of clause 2 of SequencesMadeAndRead hold together. -/
theorem premises_SequencesMadeAndRead_2 : ∃ (s : State) (ch : Chan) (p len slot0 slot gen : Nat) (q : Seq) (pages : Tbl (List Nat)) (B : Block),
    s.blk.delivers ch 0x0503 ∧
    s.blk.backFree ch ∧
    p = (s.blk.msgTaken ch).fnPart (chFn ch) ∧
    ((s.blk.msgTaken ch).part p).isSome = true ∧
    s.blk.seqOf p (mreg (s.blk.msgWords ch) 1) = some (slot0, q) ∧
    len = (mreg (s.blk.msgWords ch) 2).toNat ∧
    len ≤ q.len ∧
    (s.blk.msgTaken ch).mayRead p (chFn ch) q = true ∧
    slot ≠ slot0 ∧
    (s.blk.msgTaken ch).seqFreeSlot p = (some (slot, gen), (s.blk.msgTaken ch).drawn) ∧
    (s.blk.msgTaken ch).drawn.forkPages p (gen % 256 * 16777216 + slot) q len = some (pages, B) ∧
    B.backFree ch :=
  ⟨st (msg b17 (.fn 0 0) [0x02000503, 0, 16]), .fn 0 0, 0, 16, 0, ((st (msg b17 (.fn 0 0) [0x02000503, 0, 16])).blk.msgTaken (.fn 0 0)).freeVal % 1048575 + 1, 0, { seq0 with cls := 1, len := 16, pages := [(0, [7])] }, [(0, [7])], ((st (msg b17 (.fn 0 0) [0x02000503, 0, 16])).blk.msgTaken (.fn 0 0)).drawn.addRef 0 7, eight (by decide +kernel) ⟨Nat.succ_ne_zero (((st (msg b17 (.fn 0 0) [0x02000503, 0, 16])).blk.msgTaken (.fn 0 0)).freeVal % 1048575), seqFreeSlot_zero (q := { seq0 with cls := 1, len := 16, pages := [(0, [7])] }) (by decide +kernel) (by decide +kernel), fork_b17 _, by decide +kernel⟩⟩

/-- The premises of clause 3 of SequencesMadeAndRead hold together. -/
theorem premises_SequencesMadeAndRead_3 : ∃ (s : State) (ch : Chan) (p slot : Nat) (q : Seq),
    s.blk.delivers ch 0x0506 ∧
    s.blk.backFree ch ∧
    p = (s.blk.msgTaken ch).fnPart (chFn ch) ∧
    ((s.blk.msgTaken ch).part p).isSome = true ∧
    s.blk.seqOf p (mreg (s.blk.msgWords ch) 1) = some (slot, q) ∧
    q.owner = chFn ch :=
  ⟨st (msg b15 (.fn 0 0) [0x02000506, 2]), .fn 0 0, 0, 2, { seq0 with cls := 1, len := 20, pages := [(0, [7, 8])], tokens := List.replicate 20 3 }, by decide +kernel⟩

/-- The premises of clause 1 of SequencesCutAndMoved hold together. -/
theorem premises_SequencesCutAndMoved_1 : ∃ (s : State) (ch : Chan) (p slot n k : Nat) (q : Seq),
    s.blk.delivers ch 0x0504 ∧
    s.blk.backFree ch ∧
    p = (s.blk.msgTaken ch).fnPart (chFn ch) ∧
    ((s.blk.msgTaken ch).part p).isSome = true ∧
    s.blk.seqOf p (mreg (s.blk.msgWords ch) 1) = some (slot, q) ∧
    q.owner = chFn ch ∧
    q.inStep = false ∧
    n = (mreg (s.blk.msgWords ch) 2).toNat ∧
    n ≤ q.len ∧
    k = ceilDiv n (max 1 ((s.blk.snowOf p).cls q.cls).tokens) :=
  ⟨st (msg b15 (.fn 0 0) [0x02000504, 2, 16]), .fn 0 0, 0, 2, 16, 1, { seq0 with cls := 1, len := 20, pages := [(0, [7, 8])], tokens := List.replicate 20 3 }, by decide +kernel⟩

/-- The premises of clause 2 of SequencesCutAndMoved hold together. -/
theorem premises_SequencesCutAndMoved_2 : ∃ (s : State) (ch : Chan) (p slot : Nat) (q : Seq),
    s.blk.delivers ch 0x0505 ∧
    s.blk.backFree ch ∧
    p = (s.blk.msgTaken ch).fnPart (chFn ch) ∧
    ((s.blk.msgTaken ch).part p).isSome = true ∧
    s.blk.seqOf p (mreg (s.blk.msgWords ch) 1) = some (slot, q) ∧
    q.owner = chFn ch ∧
    q.inStep = false :=
  ⟨st (msg b15 (.fn 0 0) [0x02000505, 2]), .fn 0 0, 0, 2, { seq0 with cls := 1, len := 20, pages := [(0, [7, 8])], tokens := List.replicate 20 3 }, by decide +kernel⟩

/-- The premises of clause 3 of SequencesCutAndMoved hold together. -/
theorem premises_SequencesCutAndMoved_3 : ∃ (s : State) (ch : Chan) (p slot tier : Nat) (q : Seq),
    s.blk.delivers ch 0x0507 ∧
    s.blk.backFree ch ∧
    p = (s.blk.msgTaken ch).fnPart (chFn ch) ∧
    ((s.blk.msgTaken ch).part p).isSome = true ∧
    s.blk.seqOf p (mreg (s.blk.msgWords ch) 1) = some (slot, q) ∧
    q.owner = chFn ch ∧
    q.inStep = false ∧
    tier = (mreg (s.blk.msgWords ch) 2).toNat + 1 ∧
    tier ≤ 3 ∧
    (tier = 2 → (s.blk.msgTaken ch).lost = false) ∧
    (s.blk.snowOf p).moveCount q tier ≤ (s.blk.msgTaken ch).freePages p tier :=
  ⟨st (msg (b15.ledGrow (pageLedger 0 1) 64) (.fn 0 0) [0x02000507, 2, 0]), .fn 0 0, 0, 2, 1, { seq0 with cls := 1, len := 20, pages := [(0, [7, 8])], tokens := List.replicate 20 3 }, by decide +kernel⟩

/-- The premises of clause 4 of SequencesCutAndMoved hold together. -/
theorem premises_SequencesCutAndMoved_4 : ∃ (s : State) (ch : Chan) (p slot : Nat) (q : Seq),
    s.blk.delivers ch 0x0508 ∧
    s.blk.backFree ch ∧
    p = (s.blk.msgTaken ch).fnPart (chFn ch) ∧
    ((s.blk.msgTaken ch).part p).isSome = true ∧
    s.blk.seqOf p (mreg (s.blk.msgWords ch) 1) = some (slot, q) ∧
    q.owner = chFn ch ∧
    q.lost = false ∧
    q.reply = none ∧
    (s.blk.msgTaken ch).lost = false :=
  ⟨st (msg b15 (.fn 0 0) [0x02000508, 2]), .fn 0 0, 0, 2, { seq0 with cls := 1, len := 20, pages := [(0, [7, 8])], tokens := List.replicate 20 3 }, by decide +kernel⟩

/-- The premises of clause 1 of ClassesAndNamespaces hold together. -/
theorem premises_ClassesAndNamespaces_1 : ∃ (s : State) (ch : Chan) (p : Nat) (k : KvClass),
    s.blk.delivers ch 0x0501 ∧
    s.blk.backFree ch ∧
    p = (s.blk.msgTaken ch).fnPart (chFn ch) ∧
    ((s.blk.msgTaken ch).part p).isSome = true ∧
    kvClassOf (mreg (s.blk.msgWords ch) 1) (mreg (s.blk.msgWords ch) 2) = some k ∧
    (∃ c, 1 ≤ c ∧ c ≤ 15 ∧ kget (s.blk.snowOf p).classes c = none) :=
  ⟨st (msg b15 (.fn 0 0) [0x02000501, 0, 1]), .fn 0 0, 0, { heads := 1, dim := 64, fmt := 0, tokens := 64, layers := 1 }, four (by decide +kernel) ⟨by decide +kernel, ⟨2, by decide +kernel, by decide +kernel, by decide +kernel⟩⟩⟩

/-- The premises of clause 2 of ClassesAndNamespaces hold together. -/
theorem premises_ClassesAndNamespaces_2 : ∃ (s : State) (ch : Chan) (p ns : Nat),
    s.blk.delivers ch 0x050A ∧
    s.blk.backFree ch ∧
    chFn ch = 0 ∧
    p = (s.blk.msgTaken ch).fnPart 0 ∧
    ((s.blk.msgTaken ch).part p).isSome = true ∧
    ns = (mreg (s.blk.msgWords ch) 2).fld 5 0 ∧
    (mreg (s.blk.msgWords ch) 2).bit 6 = false ∧
    (kget (s.blk.snowOf p).nsKeys ns).isSome = true :=
  ⟨st (msg b15 (.fn 0 0) [0x0200050A, 3, 5]), .fn 0 0, 0, 5, by decide +kernel⟩

/-- The premises of clause 3 of ClassesAndNamespaces hold together. -/
theorem premises_ClassesAndNamespaces_3 : ∃ (s : State) (ch : Chan) (p : Nat),
    s.blk.delivers ch 0x050A ∧
    s.blk.backFree ch ∧
    chFn ch = 0 ∧
    p = (s.blk.msgTaken ch).fnPart 0 ∧
    ((s.blk.msgTaken ch).part p).isSome = true ∧
    (mreg (s.blk.msgWords ch) 2).bit 6 = true :=
  ⟨st (msg b15 (.fn 0 0) [0x0200050A, 0, 0x40]), .fn 0 0, 0, by decide +kernel⟩

/-- The premises of clause 4 of ClassesAndNamespaces hold together. -/
theorem premises_ClassesAndNamespaces_4 : ∃ (s : State) (ch : Chan) (p ns : Nat),
    s.blk.delivers ch 0x050B ∧
    s.blk.backFree ch ∧
    chFn ch = 0 ∧
    p = (s.blk.msgTaken ch).fnPart 0 ∧
    ((s.blk.msgTaken ch).part p).isSome = true ∧
    ns = (mreg (s.blk.msgWords ch) 1).fld 5 0 ∧
    (mreg (s.blk.msgWords ch) 1).bit 8 = false :=
  ⟨st (msg b15 (.fn 0 0) [0x0200050B, 6]), .fn 0 0, 0, 6, by decide +kernel⟩

/-- The premises of clause 5 of ClassesAndNamespaces hold together. -/
theorem premises_ClassesAndNamespaces_5 : ∃ (s : State) (ch : Chan) (p ns : Nat),
    s.blk.delivers ch 0x050B ∧
    s.blk.backFree ch ∧
    chFn ch = 0 ∧
    p = (s.blk.msgTaken ch).fnPart 0 ∧
    ((s.blk.msgTaken ch).part p).isSome = true ∧
    ns = (mreg (s.blk.msgWords ch) 1).fld 5 0 ∧
    (mreg (s.blk.msgWords ch) 1).bit 8 = true ∧
    (kget (s.blk.snowOf p).nsKeys ns).isSome = true ∧
    (s.blk.snowOf p).nsOf.all (fun e => e.2 != ns) = true ∧
    (s.blk.snowOf p).seqs.all (fun e => e.2.ns != some ns) = true :=
  ⟨st (msg { b15 with snow := [(0, { snow1 with nsOf := [] })] } (.fn 0 0) [0x0200050B, 0x105]), .fn 0 0, 0, 5, by decide +kernel⟩

/-- The premises of clause 1 of ArenasAndPages hold together. -/
theorem premises_ArenasAndPages_1 : ∃ (s : State) (ch : Chan) (p seg addr : Nat) (far : Bool),
    s.blk.delivers ch 0x0509 ∧
    s.blk.backFree ch ∧
    p = (s.blk.msgTaken ch).fnPart (chFn ch) ∧
    ((s.blk.msgTaken ch).part p).isSome = true ∧
    (mreg (s.blk.msgWords ch) 1).bit 1 = false ∧
    far = (mreg (s.blk.msgWords ch) 1).bit 0 ∧
    seg = (mreg (s.blk.msgWords ch) 1).fld 7 4 ∧
    addr = (if far then (mreg (s.blk.msgWords ch) 2).fld 14 0 else mpair (s.blk.msgWords ch) 2) ∧
    (s.blk.msgTaken ch).arenaOk p far seg addr (mreg (s.blk.msgWords ch) 4).toNat = true :=
  ⟨st (msg b15 (.fn 0 0) [0x02000509, 0x10, 0x10000000, 0, 2]), .fn 0 0, 0, 1, 0x10000000, false, by decide +kernel⟩

/-- The premises of clause 2 of ArenasAndPages hold together. -/
theorem premises_ArenasAndPages_2 : ∃ (s : State) (ch : Chan) (p k : Nat) (a : Arena),
    s.blk.delivers ch 0x0509 ∧
    s.blk.backFree ch ∧
    p = (s.blk.msgTaken ch).fnPart (chFn ch) ∧
    ((s.blk.msgTaken ch).part p).isSome = true ∧
    (mreg (s.blk.msgWords ch) 1).bit 1 = true ∧
    k = arenaKey ((mreg (s.blk.msgWords ch) 1).bit 0) ((mreg (s.blk.msgWords ch) 1).fld 7 4) ∧
    kget (s.blk.snowOf p).arenas k = some a ∧
    a.leaving = none :=
  ⟨st (msg b15 (.fn 0 0) [0x02000509, 0x32]), .fn 0 0, 0, 3, { far := false, addr := 0x40000000, mib := 64, leaving := none }, by decide +kernel⟩

/-- The premises of clause 3 of ArenasAndPages hold together. -/
theorem premises_ArenasAndPages_3 : ∃ (s : State) (p pid : Nat) (g : Page) (d : PageLoc),
    moveReady p pid s.blk = true ∧
    s.blk.page p pid = some g ∧
    g.dest = some d ∧
    g.far.bind (·.failed) = none ∧
    s.blk.switchHostOk p g d = true :=
  ⟨st b15, 0, 8, { cls := 1, layer := 0, firstPos := 16, fill := 4, hash := 0, refs := 1, loc := .far 3 0x12000000, dest := some (.capacity 4 0), data := Store.empty, owner := 0, zeroing := false, far := none }, .capacity 4 0, by decide +kernel⟩

/-- The premises of clause 4 of ArenasAndPages hold together. -/
theorem premises_ArenasAndPages_4 : ∃ (s : State) (p pid : Nat),
    moveReady p pid s.blk = false :=
  ⟨st b15, 0, 7, by decide +kernel⟩

/-- The premises of clause 5 of ArenasAndPages hold together. -/
theorem premises_ArenasAndPages_5 : ∃ (s : State) (p pid : Nat),
    zeroReady p pid s.blk = true :=
  ⟨st b15, 0, 9, by decide +kernel⟩

/-- The premises of clause 6 of ArenasAndPages hold together. -/
theorem premises_ArenasAndPages_6 : ∃ (s : State) (p pid : Nat),
    zeroReady p pid s.blk = false :=
  ⟨st b15, 0, 7, by decide +kernel⟩

/-! ### Premises, part 6 -/

/-- A block with the stacks of die 0 trained, for a partition to take. -/
def b18 : Block := loop 6 (fun n b => b.wb (STK_STATE n) 16 true) b2
/-- The partition that takes its clusters 0 and 1 and its groups 0 and 1. -/
def part1 : Part := { dies := 0, die := 0, clusters := 3, groups := 3, runPages := 1, busyFrac := [] }
/-- The registers of a block whose partition 0 is in a state of `v`, its groups and Firn sets in states `g` and `k`. -/
def regs19 (v g k : Nat) : Tbl Word :=
  ((List.range 6).flatMap fun n =>
      [(STK_STATE n, w32 (0x10000 + 5 * g)), (STK_PART_CG n 0, 0x3F3F0000)] ++
        if n < 4 then [(STK_FIRN_SET n, w32 (5 * k))] else []) ++ [(SCH_P_STATE 0, w32 v)]
/-- The block with those registers. -/
def b19 (v g k : Nat) : Block := { b18 with parts := [(0, part1)], regs := (regs19 v g k).filter fun e => e.2 != 0 }
/-- A RUNNING partition, and a job of two streams that waits. -/
def b20 (J : Job) : Block := { b19 2 2 2 with bundles := [(0, bunS [])], jobs := [(1, J)] }
/-- The job that waits. -/
def jobW : Job := { job0 with state := .ready, clusters := [] }
/-- A job that runs on both clusters of the partition and one that waits for them. -/
def b21 : Block :=
  { ((b19 2 2 2).setPair CLK_TB_LO 5000000).setPair (SCH_C 0 0x30) 9 with
    bundles := [(0, bunS [])], jobs := [(1, { job0 with clusters := [0, 1] }), (2, { jobW with fn := 1 })],
    clusters := [(0, clu0), (1, clu0)] }
/-- A job asked to give way at time 0. -/
def jobV : Job := { job0 with boundAt := some 0 }
/-- A semaphore that job 1 holds. -/
def semH : Sem := { Sem.fresh 0 3 with holder := some 1, holdN := 2 }
/-- A block without a driver since time 0, and what waits for it. -/
def b22 : Block :=
  { (b20 jobW).setDrv 2 with fns := [(0, { f0 with busMaster := true, held := [.write 0x5000 [1, 2]] })] }


/-- The premises of clause 1 of PartitionsAndClients hold together. -/
theorem premises_PartitionsAndClients_1 : ∃ (s : State) (ch : Chan) (p : Nat) (q : Part) (T : Block) (r : Word),
    s.blk.delivers ch 0x0701 ∧
    s.blk.backFree ch ∧
    chFn ch = 0 ∧
    T = s.blk.msgTaken ch ∧
    p = (mreg (s.blk.msgWords ch) 1).toNat ∧
    p ≤ 31 ∧
    r = mreg (s.blk.msgWords ch) 2 ∧
    q.dies = r.fld 3 0 ∧
    q.die = (if q.dies = 0 then r.fld 5 4 else 0) ∧
    q.clusters = (if q.dies = 0 then r.fld 15 8 else 0) ∧
    q.groups = (if q.dies = 0 then (mreg (s.blk.msgWords ch) 3).fld 7 0 else 0xFF) ∧
    q.runPages = min 64 (max 1 (T.fld (SNW p 4) 6 0)) ∧
    q.busyFrac = [] ∧
    T.fld (SCH_P_STATE p) 1 0 ≠ 3 ∧
    T.part p = none ∧
    T.partStatus p q (mreg (s.blk.msgWords ch) 4).toNat = none :=
  ⟨st (msg b18 (.fn 0 0) [0x02000701, 0, 0x300, 3, 0xFFFF]), .fn 0 0, 0, { part1 with runPages := 16 }, (st (msg b18 (.fn 0 0) [0x02000701, 0, 0x300, 3, 0xFFFF])).blk.msgTaken (.fn 0 0), 0x300, by decide +kernel⟩

/-- The premises of clause 2 of PartitionsAndClients hold together. -/
theorem premises_PartitionsAndClients_2 : ∃ (s : State) (p : Nat),
    partitionStarted p s.blk = true :=
  ⟨st (b19 1 2 2), 0, by decide +kernel⟩

/-- The premises of clause 3 of PartitionsAndClients hold together. -/
theorem premises_PartitionsAndClients_3 : ∃ (s : State) (p : Nat),
    partitionStarted p s.blk = false :=
  ⟨st (b19 1 2 1), 0, by decide +kernel⟩

/-- The premises of clause 4 of PartitionsAndClients hold together. -/
theorem premises_PartitionsAndClients_4 : ∃ (s : State) (ch : Chan) (p : Nat) (q : Part) (T : Block),
    s.blk.delivers ch 0x0702 ∧
    s.blk.backFree ch ∧
    chFn ch = 0 ∧
    T = s.blk.msgTaken ch ∧
    p = (mreg (s.blk.msgWords ch) 1).toNat ∧
    T.part p = some q ∧
    T.fld (SCH_P_STATE p) 1 0 ≠ 3 ∧
    T.partBundles p = [] ∧
    T.clients p = [] ∧
    (∀ k u, k ∈ q.setList → u ∈ setUnits k → (T.fu u).queue = [] ∧ (T.fu u).wait = none ∧ (T.fu u).parked = false) :=
  ⟨st (msg (b19 2 2 2) (.fn 0 0) [0x02000702]), .fn 0 0, 0, part1, (st (msg (b19 2 2 2) (.fn 0 0) [0x02000702])).blk.msgTaken (.fn 0 0), eight (by decide +kernel) ⟨by decide +kernel, fun _ _ _ _ => ⟨rfl, rfl, rfl⟩⟩⟩

/-- The premises of clause 5 of PartitionsAndClients hold together. -/
theorem premises_PartitionsAndClients_5 : ∃ (s : State) (p : Nat) (q : Part),
    s.blk.part p = some q ∧
    s.blk.fld (SCH_P_STATE p) 1 0 = 3 ∧
    q.setList.all (fun k => s.blk.setState k == 0) = true :=
  ⟨st (b19 3 3 0), 0, part1, by decide +kernel⟩

/-- The premises of clause 6 of PartitionsAndClients hold together. -/
theorem premises_PartitionsAndClients_6 : ∃ (s : State) (p : Nat),
    s.blk.fld (SCH_P_STATE p) 1 0 ≠ 3 :=
  ⟨st (b19 2 2 2), 0, by decide +kernel⟩

/-- The premises of clause 7 of PartitionsAndClients hold together. -/
theorem premises_PartitionsAndClients_7 : ∃ (s : State) (ch : Chan) (f p : Nat) (r : Word) (T : Block),
    s.blk.delivers ch 0x0703 ∧
    s.blk.backFree ch ∧
    chFn ch = 0 ∧
    T = s.blk.msgTaken ch ∧
    f = (mreg (s.blk.msgWords ch) 1).toNat ∧
    f ≤ 63 ∧
    p = (mreg (s.blk.msgWords ch) 2).toNat ∧
    r = mreg (s.blk.msgWords ch) 3 ∧
    r.fld 17 16 ≠ 3 ∧
    (p = 0x3F ∨ (T.part p).isSome = true ∧ T.fld (SCH_P_STATE p) 1 0 ≠ 3) ∧
    (p = T.fnPart f ∨ T.hasWork f = false) :=
  ⟨st (msg (b19 2 2 2) (.fn 0 0) [0x02000703, 5, 0, 0x10003]), .fn 0 0, 5, 0, 0x10003, (st (msg (b19 2 2 2) (.fn 0 0) [0x02000703, 5, 0, 0x10003])).blk.msgTaken (.fn 0 0), by decide +kernel⟩

/-- The premises of clause 1 of DispatchAndPreemption hold together. -/
theorem premises_DispatchAndPreemption_1 : ∃ (s : State) (p j n : Nat) (J : Job) (b : Bundle) (l : List (Nat × Job)),
    s.blk.schedUp = true ∧
    s.blk.partRunning p = true ∧
    s.blk.waitingJobs p = (j, J) :: l ∧
    s.blk.jobAt j = some J ∧
    J.state = .ready ∧
    J.part = p ∧
    J.step = none ∧
    s.blk.lost = false ∧
    kget s.blk.bundles J.bundle = some b ∧
    n = s.blk.jobStreams J ∧
    n ≤ (s.blk.freeClusters p).length :=
  ⟨st (b20 jobW), 0, 1, 1, jobW, bunS [], [], by decide +kernel⟩

/-- The premises of clause 2 of DispatchAndPreemption hold together. -/
theorem premises_DispatchAndPreemption_2 : ∃ (s : State) (p : Nat),
    (s.blk.schedUp && s.blk.partRunning p) = false :=
  ⟨st b3, 0, by decide +kernel⟩

/-- The premises of clause 3 of DispatchAndPreemption hold together. -/
theorem premises_DispatchAndPreemption_3 : ∃ (s : State) (j v : Nat) (w J : Job),
    s.blk.jobAt j = some w ∧
    w.placed = false ∧
    s.blk.schedUp = true ∧
    s.blk.lost = false ∧
    s.blk.partRunning w.part = true ∧
    s.blk.candidates w (fun J => J.ranks == w.cls && decide (J.ran + s.blk.slice ≤ s.blk.now) && decide (s.blk.vtime w.fn < s.blk.vtime J.fn)) = [(v, J)] ∧
    s.blk.jobAt v = some J ∧
    w.state = .ready ∧
    0 < s.blk.lacking w ∧
    s.blk.lacking w ≤ J.clusters.length ∧
    s.blk.holdsSem v = false :=
  ⟨st b21, 2, 1, { jobW with fn := 1 }, { job0 with clusters := [0, 1] }, by decide +kernel⟩

/-- The premises of clause 4 of DispatchAndPreemption hold together. -/
theorem premises_DispatchAndPreemption_4 : ∃ (s : State) (j : Nat) (w : Job),
    s.blk.jobAt j = some w ∧
    w.placed = true :=
  ⟨st (b20 job0), 1, job0, by decide +kernel⟩

/-- The premises of clause 5 of DispatchAndPreemption hold together. -/
theorem premises_DispatchAndPreemption_5 : ∃ (s : State) (j at_ : Nat) (J : Job),
    s.blk.jobAt j = some J ∧
    J.boundAt = some at_ ∧
    J.state = .running ∧
    at_ + s.blk.preemptBound ≤ s.blk.now :=
  ⟨st { (b20 jobV).setPair CLK_TB_LO 5000000 with clusters := [(0, { clu0 with preempt := true })] }, 1, 0, jobV, by decide +kernel⟩

/-- The premises of clause 6 of DispatchAndPreemption hold together. -/
theorem premises_DispatchAndPreemption_6 : ∃ (s : State) (j at_ : Nat) (J : Job),
    s.blk.jobAt j = some J ∧
    J.boundAt = some at_ ∧
    s.blk.now < at_ + s.blk.preemptBound :=
  ⟨st { b20 jobV with clusters := [(0, { clu0 with preempt := true })] }, 1, 0, jobV, by decide +kernel⟩

/-- The premises of clause 7 of DispatchAndPreemption hold together. -/
theorem premises_DispatchAndPreemption_7 : ∃ (s : State) (j : Nat) (J : Job),
    saveReady j s.blk = true ∧
    s.blk.jobAt j = some J ∧
    (s.blk.schedUp && s.blk.partRunning J.part) = false :=
  ⟨st { b3 with jobs := [(1, jobV)], clusters := [(0, { clu0 with preempt := true, forced := true })] }, 1, jobV, by decide +kernel⟩

/-- The premises of clause 8 of DispatchAndPreemption hold together. -/
theorem premises_DispatchAndPreemption_8 : ∃ (s : State) (j : Nat),
    saveReady j s.blk = false :=
  ⟨st (b20 job0), 1, by decide +kernel⟩

/-- The premises of clause 9 of DispatchAndPreemption hold together. -/
theorem premises_DispatchAndPreemption_9 : ∃ (s : State) (r : SemRef) (x : Sem) (j : Nat) (J : Job),
    s.blk.sem r = some x ∧
    x.holder = some j ∧
    s.blk.jobAt j = some J ∧
    J.placed = true ∧
    J.fail = none ∧
    s.blk.schedUp = true ∧
    x.holdAt + s.blk.holdBound ≤ s.blk.now :=
  ⟨st { (b20 job0).setPair CLK_TB_LO 5000000 with sems := [(0, semH)], clusters := [(0, clu0)] }, .globalSem 0, semH, 1, job0, by decide +kernel⟩

/-- The premises of clause 10 of DispatchAndPreemption hold together. -/
theorem premises_DispatchAndPreemption_10 : ∃ (s : State) (r : SemRef) (x : Sem),
    s.blk.sem r = some x ∧
    s.blk.now < x.holdAt + s.blk.holdBound :=
  ⟨st { b20 job0 with sems := [(0, semH)] }, .globalSem 0, semH, by decide +kernel⟩

/-- The premises of clause 1 of DriverLossAndAdoption hold together. -/
theorem premises_DriverLossAndAdoption_1 : ∃ (s : State) (v : Word),
    s.blk.fld SCH_DRV 1 0 = 0 :=
  ⟨st b2, 7, by decide +kernel⟩

/-- The premises of clause 2 of DriverLossAndAdoption hold together. -/
theorem premises_DriverLossAndAdoption_2 : ∃ (s : State) (v : Word),
    s.blk.fld SCH_DRV 1 0 ≠ 0 :=
  ⟨st (b2.setDrv 1), 7, by decide +kernel⟩

/-- The premises of clause 3 of DriverLossAndAdoption hold together. -/
theorem premises_DriverLossAndAdoption_3 : ∃ (s : State),
    s.blk.fld SCH_DRV 1 0 = 1 ∧
    s.blk.beatAt + s.blk.hbPeriod ≤ s.blk.now :=
  ⟨st ((b21.setDrv 1).setPair CLK_TB_LO 20000000000), by decide +kernel⟩

/-- The premises of clause 4 of DriverLossAndAdoption hold together. -/
theorem premises_DriverLossAndAdoption_4 : ∃ (s : State),
    s.blk.now < s.blk.beatAt + s.blk.hbPeriod :=
  ⟨st b2, by decide +kernel⟩

/-- The premises of clause 5 of DriverLossAndAdoption hold together. -/
theorem premises_DriverLossAndAdoption_5 : ∃ (s : State) (ch : Chan),
    s.blk.delivers ch 0x0704 ∧
    s.blk.backFree ch ∧
    chFn ch = 0 ∧
    (mreg (s.blk.msgWords ch) 1).bit 0 = false ∧
    s.blk.lost = true ∧
    (s.blk.msgTaken ch).lost = true ∧
    (s.blk.msgTaken ch).start.mustDiscard = false :=
  ⟨st (msg b22 (.fn 0 0) [0x02000704]), .fn 0 0, by decide +kernel⟩

/-- The premises of clause 6 of DriverLossAndAdoption hold together. -/
theorem premises_DriverLossAndAdoption_6 : ∃ (s : State) (ch : Chan),
    s.blk.delivers ch 0x0704 ∧
    s.blk.backFree ch ∧
    chFn ch = 0 ∧
    (mreg (s.blk.msgWords ch) 1).bit 0 = true ∧
    s.blk.lost = true ∧
    (s.blk.msgTaken ch).lost = true :=
  ⟨st (msg b22 (.fn 0 0) [0x02000704, 1]), .fn 0 0, by decide +kernel⟩

/-- The premises of clause 7 of DriverLossAndAdoption hold together. -/
theorem premises_DriverLossAndAdoption_7 : ∃ (s : State),
    s.blk.graceOver = true :=
  ⟨st (b22.setPair CLK_TB_LO 90000000000000), by decide +kernel⟩

/-- The premises of clause 8 of DriverLossAndAdoption hold together. -/
theorem premises_DriverLossAndAdoption_8 : ∃ (s : State),
    s.blk.graceOver = false :=
  ⟨st (b22.wf SCH_DRV 15 4 5), by decide +kernel⟩

/-! ### Premises, part 7 -/

/-- A logits object of one row of 1,000 BF16 elements. -/
def objL : Obj := { obj0 with desc := [0x00000206, 0, 1, 1000, 0, 0, 0, 0, 0, 0, 0, 0, 0, 0] }
/-- The record of a model that gives its logits there. -/
def modL : Model := { mod0 with regs := [0, 0, 1000, h0, 0, 0, 1, 1, 16] }
/-- A request of model 1. -/
def reqA : Req := { Req.fresh 0 0 0 reqDesc0 0 with adapter := some (3, 2), cancel := some (ABORTED 0) }
/-- An adapter version. -/
def adaA : Adapter :=
  { part := 0, id := 3, version := 1, rank := 8, shared := false, model := 1, a := h0, b := h0, scale := 0, fn := 0, current := true }
/-- A block that serves a model, with a request, an adapter and a logits object. -/
def b23 : Block :=
  { b7 with parts := [(0, part1)], objs := [(0, { live := [(5, objL)], gens := [(5, 2)] })],
            serve := [(0, { models := [(1, mod0), (2, mod0)], lastChange := 0, calm := 0 })],
            reqs := [(4, reqA)], reqGens := [(4, 1)], adapters := [(2, adaA)] }
/-- A step of the model with the request in it. -/
def stepA : Step :=
  { job := some 9, rows := [{ req := 4, cluster := 0, ctx := 0, real := 1, padded := 1, row := 0, depth := 0, last := true, append := [],
                              slot0 := 0 }],
    attempts := 0, began := 0, status := some (ABORTED 1), ns := [], outs := none, commits := none }
/-- A block in which that step has ended, or waits for a retry. -/
def b24 (x : Step) : Block :=
  ({ b23 with serve := [(0, { models := [(1, { mod0 with step := some x }), (2, mod0)], lastChange := 0, calm := 0 })] }).setPartState 0 2

/-- With no adapter loaded, the slot that one takes. -/
theorem adapterSlot_empty {s : Block} (h : s.adapters = []) :
    s.adapterSlot = (some (s.freeVal % 4096), s.drawn) := by
  unfold Block.adapterSlot Block.freeIndex
  rw [h]
  simp [keys]


/-- The premises of clause 1 of ModelsAndAdapters hold together. -/
theorem premises_ModelsAndAdapters_1 : ∃ (s : State) (ch : Chan) (p : Nat) (m : Model),
    s.blk.delivers ch 0x0601 ∧
    s.blk.backFree ch ∧
    p = (s.blk.msgTaken ch).fnPart (chFn ch) ∧
    ((s.blk.msgTaken ch).part p).isSome = true ∧
    m = { bundle := (mreg (s.blk.msgWords ch) 1).fld 15 0, cls := (mreg (s.blk.msgWords ch) 2).fld 3 0, regs := (List.range 9).map fun i => mreg (s.blk.msgWords ch) (i + 1), fn := chFn ch, stepNo := 0, damaged := false, step := none } ∧
    (s.blk.msgTaken ch).modelOk p (chFn ch) m = true ∧
    (∃ k, 1 ≤ k ∧ k ≤ 15 ∧ s.blk.model p k = none) :=
  ⟨st (msg b23 (.fn 0 0) [0x02000601, 0, 0, 1000, 0x01000005, 0, 0, 1, 1, 16]), .fn 0 0, 0, modL, four (by decide +kernel) (two (by decide +kernel) (⟨3, by decide +kernel, by decide +kernel, by decide +kernel⟩))⟩

/-- The premises of clause 2 of ModelsAndAdapters hold together. -/
theorem premises_ModelsAndAdapters_2 : ∃ (s : State) (ch : Chan) (p k : Nat) (m : Model),
    s.blk.delivers ch 0x0602 ∧
    s.blk.backFree ch ∧
    p = (s.blk.msgTaken ch).fnPart (chFn ch) ∧
    ((s.blk.msgTaken ch).part p).isSome = true ∧
    k = (mreg (s.blk.msgWords ch) 1).toNat ∧
    s.blk.model p k = some m ∧
    m.fn = chFn ch ∧
    (s.blk.msgTaken ch).modelReqs p k = [] :=
  ⟨st (msg { b23 with reqs := [] } (.fn 0 0) [0x02000602, 1]), .fn 0 0, 0, 1, mod0, by decide +kernel⟩

/-- The premises of clause 3 of ModelsAndAdapters hold together. -/
theorem premises_ModelsAndAdapters_3 : ∃ (s : State) (ch : Chan) (p k : Nat) (a : Adapter),
    s.blk.delivers ch 0x0603 ∧
    s.blk.backFree ch ∧
    p = (s.blk.msgTaken ch).fnPart (chFn ch) ∧
    ((s.blk.msgTaken ch).part p).isSome = true ∧
    a = { part := p, id := (mreg (s.blk.msgWords ch) 1).toNat, version := (mreg (s.blk.msgWords ch) 2).toNat, rank := (mreg (s.blk.msgWords ch) 3).fld 8 0, shared := (mreg (s.blk.msgWords ch) 3).bit 16, model := (mreg (s.blk.msgWords ch) 4).toNat, a := mreg (s.blk.msgWords ch) 5, b := mreg (s.blk.msgWords ch) 6, scale := mreg (s.blk.msgWords ch) 7, fn := chFn ch, current := true } ∧
    (s.blk.model p a.model).isSome = true ∧
    1 ≤ a.id ∧
    a.id ≤ 65535 ∧
    1 ≤ a.version ∧
    a.version ≤ 65535 ∧
    1 ≤ a.rank ∧
    a.rank ≤ 256 ∧
    (s.blk.msgTaken ch).nameStatus p (chFn ch) 0 a.a = none ∧
    (s.blk.msgTaken ch).nameStatus p (chFn ch) 0 a.b = none ∧
    s.blk.adapters.all (fun e => !(e.2.part == p && e.2.id == a.id && decide (a.version ≤ e.2.version))) = true ∧
    (s.blk.msgTaken ch).adapterSlot = (some k, (s.blk.msgTaken ch).drawn) :=
  ⟨st (msg { b23 with adapters := [] } (.fn 0 0) [0x02000603, 3, 2, 8, 1, 0x01000005, 0x01000005, 7]), .fn 0 0, 0, ((st (msg { b23 with adapters := [] } (.fn 0 0) [0x02000603, 3, 2, 8, 1, 0x01000005, 0x01000005, 7])).blk.msgTaken (.fn 0 0)).freeVal % 4096, { adaA with version := 2, scale := 7 }, eight (by decide +kernel) (four (by decide +kernel) (two (by decide +kernel) ⟨by decide +kernel, adapterSlot_empty (by decide +kernel)⟩))⟩

/-- The premises of clause 4 of ModelsAndAdapters hold together. -/
theorem premises_ModelsAndAdapters_4 : ∃ (s : State) (ch : Chan) (p id i : Nat) (a : Adapter),
    s.blk.delivers ch 0x0604 ∧
    s.blk.backFree ch ∧
    p = (s.blk.msgTaken ch).fnPart (chFn ch) ∧
    ((s.blk.msgTaken ch).part p).isSome = true ∧
    id = (mreg (s.blk.msgWords ch) 1).toNat ∧
    s.blk.currentAdapter p id = some (i, a) ∧
    a.fn = chFn ch :=
  ⟨st (msg b23 (.fn 0 0) [0x02000604, 3]), .fn 0 0, 0, 3, 2, adaA, by decide +kernel⟩

/-- The premises of clause 1 of RequestsAndSteps hold together. -/
theorem premises_RequestsAndSteps_1 : ∃ (s : State) (ch : Chan) (k : Nat) (r : Req),
    s.blk.delivers ch 0x0605 ∧
    s.blk.backFree ch ∧
    s.blk.ownReq (chFn ch) (mreg (s.blk.msgWords ch) 1) = some (k, r) :=
  ⟨st (msg b23 (.fn 0 0) [0x02000605, 4]), .fn 0 0, 4, reqA, by decide +kernel⟩

/-- The premises of clause 2 of RequestsAndSteps hold together. -/
theorem premises_RequestsAndSteps_2 : ∃ (s : State) (ch : Chan),
    s.blk.delivers ch 0x0605 ∧
    s.blk.backFree ch ∧
    s.blk.ownReq (chFn ch) (mreg (s.blk.msgWords ch) 1) = none :=
  ⟨st (msg b23 (.fn 0 0) [0x02000605, 5]), .fn 0 0, by decide +kernel⟩

/-- The premises of clause 3 of RequestsAndSteps hold together. -/
theorem premises_RequestsAndSteps_3 : ∃ (s : State) (ch : Chan) (k id slot : Nat) (r : Req),
    s.blk.delivers ch 0x0606 ∧
    s.blk.backFree ch ∧
    s.blk.ownReq (chFn ch) (mreg (s.blk.msgWords ch) 1) = some (k, r) ∧
    r.live = true ∧
    r.adapter = some (id, slot) ∧
    (∃ y, (s.blk.msgTaken ch).rebindSlot ((s.blk.msgTaken ch).fnPart r.fn) r id (mreg (s.blk.msgWords ch) 2).toNat = .ok y) :=
  ⟨st (msg b23 (.fn 0 0) [0x02000606, 4, 1]), .fn 0 0, 4, 3, 2, reqA, four (by decide +kernel) ⟨by decide +kernel, ⟨(2, adaA), exc_ok (by decide +kernel)⟩⟩⟩

/-- The premises of clause 4 of RequestsAndSteps hold together. -/
theorem premises_RequestsAndSteps_4 : ∃ (s : State) (ch : Chan) (k : Nat) (r : Req),
    s.blk.delivers ch 0x0607 ∧
    s.blk.backFree ch ∧
    s.blk.ownReq (chFn ch) (mreg (s.blk.msgWords ch) 1) = some (k, r) :=
  ⟨st (msg b23 (.fn 0 0) [0x02000607, 4]), .fn 0 0, 4, reqA, by decide +kernel⟩

/-- The premises of clause 5 of RequestsAndSteps hold together. -/
theorem premises_RequestsAndSteps_5 : ∃ (s : State) (p m : Nat),
    boundaryReady p m s.blk = true :=
  ⟨st b23, 0, 1, by decide +kernel⟩

/-- The premises of clause 6 of RequestsAndSteps hold together. -/
theorem premises_RequestsAndSteps_6 : ∃ (s : State) (p m k st : Nat) (M : Model) (r : Req),
    boundaryReady p m s.blk = true ∧
    s.blk.model p m = some M ∧
    M.step = none ∧
    s.blk.req k = some r ∧
    s.blk.fnPart r.fn = p ∧
    r.model = m ∧
    r.cancel = some st :=
  ⟨st b23, 0, 1, 4, ABORTED 0, mod0, reqA, by decide +kernel⟩

/-- The premises of clause 7 of RequestsAndSteps hold together. -/
theorem premises_RequestsAndSteps_7 : ∃ (s : State) (p m st : Nat) (M : Model) (x : Step),
    boundaryReady p m s.blk = true ∧
    s.blk.model p m = some M ∧
    s.blk.serveUp = true ∧
    s.blk.snowUp = true ∧
    M.step = some x ∧
    x.status = some st ∧
    st ≠ OK ∧
    st % 256 ≠ 6 ∧
    retryStatus st = false ∧
    st ≠ ABORTED 0xA9 :=
  ⟨st (b24 stepA), 0, 1, ABORTED 1, { mod0 with step := some stepA }, stepA, by decide +kernel⟩

/-- The premises of clause 8 of RequestsAndSteps hold together. -/
theorem premises_RequestsAndSteps_8 : ∃ (s : State) (p m : Nat),
    boundaryReady p m s.blk = false :=
  ⟨st b23, 0, 3, by decide +kernel⟩

/-- The premises of clause 9 of RequestsAndSteps hold together. -/
theorem premises_RequestsAndSteps_9 : ∃ (s : State) (p m : Nat) (M : Model) (x : Step),
    retryReady p m s.blk = true ∧
    s.blk.model p m = some M ∧
    M.step = some x :=
  ⟨st (b24 { stepA with job := none }), 0, 1, { mod0 with step := some { stepA with job := none } }, { stepA with job := none }, by decide +kernel⟩

/-- The premises of clause 10 of RequestsAndSteps hold together. -/
theorem premises_RequestsAndSteps_10 : ∃ (s : State) (p m : Nat),
    retryReady p m s.blk = false :=
  ⟨st b23, 0, 1, by decide +kernel⟩

/-! ### Premises, part 8 -/

/-- A block with its rails up. -/
def b25 : Block := { b19 2 2 2 with pwr := { b0.pwr with pwrGood := true }, start := { b0.start with pllOn := true } }
/-- What a window measured. -/
def meas0 : WindowMeasure :=
  { vin := 48000, iin := 10000, moraine := 300, input := 4000, spent := List.replicate 44 500, waited := List.replicate 44 true,
    early := [true, false, true, false], wave := [2000], vcore := [750] }
/-- A block with work, a request and a ledger whose equation fails. -/
def b26 : Block :=
  let b : Block := { b20 job0 with reqs := [(4, reqA)], reqGens := [(4, 1)] }
  { b.wb LDG_STATUS 1 true with led := [(0x250, { free := 1, held := 0, flight := 0, total := 16384 })] }


/-- The premises of clause 1 of LedgerUpdatesKeepTheEquation hold together. -/
theorem premises_LedgerUpdatesKeepTheEquation_1 : ∃ (s : Block) (n : Nat) (m : LedgerMove),
    (s.ledger n).ok = true :=
  ⟨b2, 0x80, { free := -1, held := 1 }, by decide +kernel⟩

/-- The premises of clause 2 of LedgerUpdatesKeepTheEquation hold together. -/
theorem premises_LedgerUpdatesKeepTheEquation_2 : ∃ (s : Block) (n : Nat) (m : LedgerMove),
    ((s.ledger n).free + m.free < 0 ∨ (s.ledger n).held + m.held < 0 ∨ (s.ledger n).flight + m.flight < 0) :=
  ⟨b2, 0x80, { free := 0, held := -1 }, by decide +kernel⟩

/-- The premises of clause 1 of AuditsAndWindows hold together. -/
theorem premises_AuditsAndWindows_1 : ∃ (s : State) (i n : Nat),
    reads0 i = true ∧
    ledgerOk n = true :=
  ⟨st b2, 0, 0x80, by decide +kernel⟩

/-- The premises of clause 2 of AuditsAndWindows hold together. -/
theorem premises_AuditsAndWindows_2 : ∃ (s : State) (i n : Nat),
    (reads0 i && ledgerOk n) = false :=
  ⟨st b2, 1, 0x80, by decide +kernel⟩

/-- The premises of clause 3 of AuditsAndWindows hold together. -/
theorem premises_AuditsAndWindows_3 : ∃ (s : State),
    s.blk.bit LDG_STATUS 1 = true ∧
    s.blk.inBreach = false ∧
    ledgerList.all (fun n => (s.blk.ledger n).ok && s.blk.crossCheck n) = true :=
  ⟨st (b2.wb LDG_STATUS 1 true), by decide +kernel⟩

/-- The premises of clause 4 of AuditsAndWindows hold together. -/
theorem premises_AuditsAndWindows_4 : ∃ (s : State) (n : Nat),
    s.blk.bit LDG_STATUS 1 = true ∧
    n ∈ ledgerList ∧
    (s.blk.ledger n).ok = false :=
  ⟨st b26, 0x250, by decide +kernel⟩

/-- The premises of clause 5 of AuditsAndWindows hold together. -/
theorem premises_AuditsAndWindows_5 : ∃ (s : State),
    s.blk.bit LDG_STATUS 1 = false ∧
    s.blk.inBreach = false :=
  ⟨st b0, by decide +kernel⟩

/-- The premises of clause 6 of AuditsAndWindows hold together. -/
theorem premises_AuditsAndWindows_6 : ∃ (s : State) (m : WindowMeasure),
    s.blk.pwr.pwrGood = true :=
  ⟨st b25, meas0, by decide +kernel⟩

/-- The premises of clause 7 of AuditsAndWindows hold together. -/
theorem premises_AuditsAndWindows_7 : ∃ (s : State) (m : WindowMeasure) (d old : Nat),
    s.blk.pwr.pwrGood = true ∧
    d < 4 ∧
    old = (if s.blk.fld (PWR_VCORE d) 9 0 = 0 then 750 else s.blk.fld (PWR_VCORE d) 9 0) :=
  ⟨st b25, meas0, 0, 750, by decide +kernel⟩

/-- The premises of clause 8 of AuditsAndWindows hold together. -/
theorem premises_AuditsAndWindows_8 : ∃ (s : State) (m : WindowMeasure),
    s.blk.pwr.pwrGood = false :=
  ⟨st b0, meas0, by decide +kernel⟩

/-- The premises of clause 9 of AuditsAndWindows hold together. -/
theorem premises_AuditsAndWindows_9 : ∃ (s : State) (i : Nat) (v : Word),
    (i = 0 ∨ i = 64) :=
  ⟨st b2, 0, 0x00050BB8, by decide +kernel⟩

/-- The premises of clause 10 of AuditsAndWindows hold together. -/
theorem premises_AuditsAndWindows_10 : ∃ (s : State) (i : Nat) (v : Word),
    i ≠ 0 ∧
    i ≠ 64 :=
  ⟨st b2, 1, 0, by decide +kernel⟩

/-! ### Premises, part 9 -/

/-- A block whose port 3 runs in the state `v`, on lanes 0 to 7, with a partner that node 9 is behind. -/
def b27 (v : Nat) : Block :=
  let ports : Tbl Word :=
    [(ESK_NODE, 0x8007), (ESK_STATE 3, w32 v)] ++ (List.range 8).map fun n => (ESK_LANE 3 n, 0x30000)
  { b19 2 2 2 with
    regs := (ports ++ regs19 2 2 2).filter fun e => e.2 != 0,
    led := (List.range 8).map fun n => (creditLedger 3 n, { free := 64, held := 0, flight := 0, total := 64 }),
    esk := { b18.esk with routes := [(9, 0x813)] } }
/-- A training that succeeds. -/
def tr0 : Training :=
  { lanesOk := true, failedLane := none, node := 9, nodeValid := true, port := 4, credits := [8, 8, 8, 8, 8, 8, 8, 8], encReq := false,
    sendKey := none, recvKey := none }
/-- A flit in order. -/
def fl0 : Flit := { fseq := 0, ack := 0, nak := false, ctrl := .none, crVc := 0, crN := 0, checkOk := true, tagOk := true }


/-- The premises of clause 1 of PortsStartAndStop hold together. -/
theorem premises_PortsStartAndStop_1 : ∃ (s : State) (ch : Chan) (p : Nat),
    s.blk.delivers ch 0x0804 ∧
    s.blk.backFree ch ∧
    (chFn ch = 0 ∨ chFn ch = 64) ∧
    p = (mreg (s.blk.msgWords ch) 1).toNat ∧
    p ≤ 15 ∧
    (mreg (s.blk.msgWords ch) 2).bit 0 = true ∧
    s.blk.portState p = 0 :=
  ⟨st (msg (b27 0) (.fn 0 0) [0x02000804, 3, 1]), .fn 0 0, 3, by decide +kernel⟩

/-- The premises of clause 2 of PortsStartAndStop hold together. -/
theorem premises_PortsStartAndStop_2 : ∃ (s : State) (ch : Chan) (p : Nat),
    s.blk.delivers ch 0x0804 ∧
    s.blk.backFree ch ∧
    (chFn ch = 0 ∨ chFn ch = 64) ∧
    p = (mreg (s.blk.msgWords ch) 1).toNat ∧
    p ≤ 15 ∧
    (mreg (s.blk.msgWords ch) 2).bit 0 = true ∧
    s.blk.portState p ≠ 0 :=
  ⟨st (msg (b27 3) (.fn 0 0) [0x02000804, 3, 1]), .fn 0 0, 3, by decide +kernel⟩

/-- The premises of clause 3 of PortsStartAndStop hold together. -/
theorem premises_PortsStartAndStop_3 : ∃ (s : State) (ch : Chan) (p : Nat),
    s.blk.delivers ch 0x0804 ∧
    s.blk.backFree ch ∧
    (chFn ch = 0 ∨ chFn ch = 64) ∧
    p = (mreg (s.blk.msgWords ch) 1).toNat ∧
    p ≤ 15 ∧
    (mreg (s.blk.msgWords ch) 2).bit 0 = false :=
  ⟨st (msg (b27 2) (.fn 0 0) [0x02000804, 3, 0]), .fn 0 0, 3, by decide +kernel⟩

/-- The premises of clause 4 of PortsStartAndStop hold together. -/
theorem premises_PortsStartAndStop_4 : ∃ (s : State) (p : Nat) (x : Training),
    training p s.blk = true ∧
    x.lanesOk = true ∧
    (s.blk.nodeValid && x.nodeValid && x.node == s.blk.node) = false ∧
    ((s.blk.port p).encReq || x.encReq) = false :=
  ⟨st (b27 1), 3, tr0, by decide +kernel⟩

/-- The premises of clause 5 of PortsStartAndStop hold together. -/
theorem premises_PortsStartAndStop_5 : ∃ (s : State) (p cause : Nat) (x : Training),
    training p s.blk = true ∧
    cause = (if !x.lanesOk then 6 else if s.blk.nodeValid && x.nodeValid && x.node == s.blk.node then 7 else if ((s.blk.port p).encReq || x.encReq) && (s.blk.keysDiffer p x).isSome then 5 else 0) ∧
    cause ≠ 0 :=
  ⟨st (b27 1), 3, 7, { tr0 with node := 7 }, by decide +kernel⟩

/-- The premises of clause 6 of PortsStartAndStop hold together. -/
theorem premises_PortsStartAndStop_6 : ∃ (s : State) (p : Nat) (x : Training),
    training p s.blk = false :=
  ⟨st (b27 2), 3, tr0, by decide +kernel⟩

/-- The premises of clause 7 of PortsStartAndStop hold together. -/
theorem premises_PortsStartAndStop_7 : ∃ (s : State) (p : Nat),
    p < 16 ∧
    (s.blk.port p).retrain = true ∧
    s.blk.coreUp 5 = true ∧
    s.blk.clk.coastEsk = false :=
  ⟨st ((b27 0).modPort 3 fun x => { x with retrain := true }), 3, by decide +kernel⟩

/-- The premises of clause 8 of PortsStartAndStop hold together. -/
theorem premises_PortsStartAndStop_8 : ∃ (s : State) (p : Nat),
    (s.blk.port p).retrain = false :=
  ⟨st (b27 0), 3, by decide +kernel⟩

/-- The premises of clause 9 of PortsStartAndStop hold together. -/
theorem premises_PortsStartAndStop_9 : ∃ (s : State) (p : Nat),
    p < 16 ∧
    s.blk.portState p = 3 :=
  ⟨st (b27 3), 3, by decide +kernel⟩

/-- The premises of clause 10 of PortsStartAndStop hold together. -/
theorem premises_PortsStartAndStop_10 : ∃ (s : State) (p : Nat),
    s.blk.portState p ≠ 3 :=
  ⟨st (b27 2), 3, by decide +kernel⟩

/-- The premises of clause 1 of PortsAndLanesFail hold together. -/
theorem premises_PortsAndLanesFail_1 : ∃ (s : State) (p : Nat),
    p < 16 ∧
    s.blk.portUp p = true :=
  ⟨st (b27 2), 3, by decide +kernel⟩

/-- The premises of clause 2 of PortsAndLanesFail hold together. -/
theorem premises_PortsAndLanesFail_2 : ∃ (s : State) (p : Nat),
    s.blk.portUp p = false :=
  ⟨st (b27 1), 3, by decide +kernel⟩

/-- The premises of clause 3 of PortsAndLanesFail hold together. -/
theorem premises_PortsAndLanesFail_3 : ∃ (s : State) (p : Nat),
    p < 16 ∧
    s.blk.portUp p = true ∧
    (s.blk.port p).lastRx + s.blk.kaTimeout p ≤ s.blk.now :=
  ⟨st ((b27 2).setPair CLK_TB_LO 9000000), 3, by decide +kernel⟩

/-- The premises of clause 4 of PortsAndLanesFail hold together. -/
theorem premises_PortsAndLanesFail_4 : ∃ (s : State) (p : Nat),
    s.blk.now < (s.blk.port p).lastRx + s.blk.kaTimeout p :=
  ⟨st (b27 2), 3, by decide +kernel⟩

/-- The premises of clause 5 of PortsAndLanesFail hold together. -/
theorem premises_PortsAndLanesFail_5 : ∃ (s : State) (p n : Nat),
    p < 16 ∧
    n < 8 ∧
    s.blk.portUp p = true ∧
    s.blk.bit (ESK_LANE p n) 17 = true ∧
    s.blk.spareLeft p = true :=
  ⟨st (b27 2), 3, 5, by decide +kernel⟩

/-- The premises of clause 6 of PortsAndLanesFail hold together. -/
theorem premises_PortsAndLanesFail_6 : ∃ (s : State) (p n : Nat),
    p < 16 ∧
    n < 9 ∧
    s.blk.portUp p = true ∧
    s.blk.bit (ESK_LANE p n) 17 = true ∧
    s.blk.bit (ESK_STATE p) 2 = true :=
  ⟨st ((b27 2).wb (ESK_STATE 3) 2 true), 3, 5, by decide +kernel⟩

/-- The premises of clause 7 of PortsAndLanesFail hold together. -/
theorem premises_PortsAndLanesFail_7 : ∃ (s : State) (p n : Nat),
    p < 16 ∧
    n < 9 ∧
    s.blk.portUp p = true ∧
    s.blk.bit (ESK_LANE p n) 17 = false :=
  ⟨st (b27 2), 3, 8, by decide +kernel⟩

/-- The premises of clause 8 of PortsAndLanesFail hold together. -/
theorem premises_PortsAndLanesFail_8 : ∃ (s : State) (p : Nat) (errs : List Nat),
    p < 16 ∧
    s.blk.portUp p = true :=
  ⟨st (b27 2), 3, [1, 70000, 3], by decide +kernel⟩

/-- The premises of clause 9 of PortsAndLanesFail hold together. -/
theorem premises_PortsAndLanesFail_9 : ∃ (s : State) (p : Nat) (errs : List Nat),
    s.blk.portUp p = false :=
  ⟨st (b27 1), 3, [1, 70000, 3], by decide +kernel⟩

/-- The premises of clause 1 of FlitsReceived hold together. -/
theorem premises_FlitsReceived_1 : ∃ (s : State) (p : Nat) (f : Flit),
    (f.checkOk = false ∨ f.fseq % 1024 ≠ (s.blk.port p).rxSeq) :=
  ⟨st (b27 2), 3, { fl0 with fseq := 1 }, by decide +kernel⟩

/-- The premises of clause 2 of FlitsReceived hold together. -/
theorem premises_FlitsReceived_2 : ∃ (s : State) (p : Nat) (f : Flit),
    p < 16 ∧
    s.blk.portUp p = true ∧
    f.checkOk = true ∧
    f.fseq % 1024 = (s.blk.port p).rxSeq ∧
    (s.blk.bit (ESK_STATE p) 10 = false ∨ f.tagOk = true) ∧
    f.ctrl ≠ .stop ∧
    f.nak = false :=
  ⟨st (b27 2), 3, fl0, by decide +kernel⟩

/-- The premises of clause 3 of FlitsReceived hold together. -/
theorem premises_FlitsReceived_3 : ∃ (s : State) (p : Nat) (f : Flit),
    p < 16 ∧
    s.blk.portUp p = true ∧
    f.checkOk = true ∧
    f.fseq % 1024 = (s.blk.port p).rxSeq ∧
    s.blk.bit (ESK_STATE p) 10 = true ∧
    f.tagOk = false ∧
    (s.blk.port p).tagFails + 1 < max 1 (s.blk.fld (ESK_CFG p) 7 4) :=
  ⟨st (((b27 2).wb (ESK_STATE 3) 10 true).wf (ESK_CFG 3) 7 4 5), 3, { fl0 with tagOk := false }, by decide +kernel⟩

/-- The premises of clause 4 of FlitsReceived hold together. -/
theorem premises_FlitsReceived_4 : ∃ (s : State) (p : Nat) (f : Flit),
    p < 16 ∧
    s.blk.portUp p = true ∧
    f.checkOk = true ∧
    f.fseq % 1024 = (s.blk.port p).rxSeq ∧
    (s.blk.bit (ESK_STATE p) 10 = false ∨ f.tagOk = true) ∧
    f.ctrl = .stop :=
  ⟨st (b27 2), 3, { fl0 with ctrl := .stop }, by decide +kernel⟩

/-- The premises of clause 5 of FlitsReceived hold together. -/
theorem premises_FlitsReceived_5 : ∃ (s : State) (p : Nat) (f : Flit),
    p < 16 ∧
    s.blk.portUp p = true ∧
    f.checkOk = true ∧
    f.fseq % 1024 = (s.blk.port p).rxSeq ∧
    (s.blk.bit (ESK_STATE p) 10 = false ∨ f.tagOk = true) ∧
    f.ctrl ≠ .stop ∧
    f.nak = true ∧
    f.ack = (s.blk.port p).acked ∧
    max 1 (s.blk.fld (ESK_CFG p) 7 4) ≤ (s.blk.port p).replays + 1 :=
  ⟨st (((b27 2).wf (ESK_CFG 3) 7 4 1)), 3, { fl0 with nak := true }, by decide +kernel⟩

/-! ### Premises, part 10 -/

/-- A shared vector of 64 elements of INT32. -/
def objS : Obj := { obj0 with desc := [0x00010109, 0, 64, 0, 0, 0, 0, 0, 0, 0, 0, 0, 0, 0] }
/-- The block of port 3, whose partition 0 is domain 0x55 and holds the vector. -/
def b28 : Block :=
  { (b27 2).wf (ESK_DOMAIN 0) 16 0 0x10055 with objs := [(0, { live := [(5, objS)], gens := [(5, 2)] })] }
/-- A WRITE of four bytes from node 9 to that vector. -/
def pk0 : Packet :=
  { ptype := 1, vc := 0, ordered := true, hops := 2, dst := 7, src := 9, domain := 0x55, tag := 77, handle := h0, off := 8, op := 0,
    etype := 2, fetch := true, poison := 0, status := 0, len := 4, data := [1, 2, 3, 4] }
/-- A request of job 1 that waits for its response. -/
def out0 : Outstanding :=
  { job := 1, cluster := 0, queue := 16, count := 5, tag := 6, engine := 16, port := 3, epoch := 1, ptype := 1, dst := 9,
    ordered := true, sent := some 0, sink := none, off := 0, len := 4, no := 0, mover := none }
/-- The block with that request and its job. -/
def b29 : Block :=
  { b28 with jobs := [(1, job0)], clusters := [(0, clu0)], bundles := [(0, bunS [])], esk := { b28.esk with out := [(77, out0)] } }
/-- The fabric manager's packet. -/
def pkM : Packet := { pk0 with ptype := 0xC, vc := 4, src := 9 }
/-- The block with node 9 as its fabric manager. -/
def b30 : Block := (b28.wf ESK_FABRIC 14 0 9).wb ESK_FABRIC 15 true
/-- The port's block with a packet that waits on VC 1. -/
def q1v : Queued := { vc := 1, credits := 2, own := false, packet := { pk0 with vc := 1, ordered := false, dst := 9 } }
/-- Node 9 as the root of time. -/
def b31 : Block := (b27 2).wf ESK_FABRIC 31 16 0x8009
/-- A block with a capacity stack of frames and its partition in domain 0x55, and the grant that node 9 asks for. -/
def b32 : Block :=
  let b : Block := { b3 with bundles := [], jobs := [], parts := [(0, { part0 with groups := 0xFF })] }
  let b : Block := b.wf (ESK_DOMAIN 0) 16 0 0x10055
  msg (loop 8 (fun g b => (b.wf (STK_STATE 4) (2 * g + 1) (2 * g) 2).wf (STK_PART_CG 4 g) 5 0 0) b) (.fn 0 0) [0x02000808, 9, 0x55, 22]
/-- A grant of node 9. -/
def gr0 : FarGrant := { node := 9, domain := 0x55, part := 0, slot := 33554432 }
/-- The block with that grant, of one frame on stack 4, whose groups run. -/
def b50 : Block :=
  let b : Block := { b28 with
    objs := [(0, { live := [(33554432, { hiddenObj 0 with frames := [freshFrame 0 0 4 0 0] })], gens := [] })],
    esk := { b28.esk with grants := [gr0] } }
  loop 8 (fun g b => b.wf (STK_STATE 4) (2 * g + 1) (2 * g) 2) b
/-- A WRITE of one unit to far memory. -/
def pkF : Packet := { pk0 with vc := 3, off := 256, len := 4 }


/-- The premises of clause 1 of RequestPackets hold together. -/
theorem premises_RequestPackets_1 : ∃ (s : State) (p q d : Nat) (k : Packet) (o : Obj),
    s.blk.arrives (.eskWritePacket p k) p 1 k ∧
    s.blk.nodeValid = true ∧
    k.dst = s.blk.node ∧
    k.vc ≠ 3 ∧
    s.blk.intact ∧
    s.blk.firnQueues = [] ∧
    s.blk.requestStatus k = .ok (d, o) ∧
    s.blk.fixedPort k.src = some q ∧
    s.blk.sendsNow q 2 32 :=
  ⟨st b28, 3, 3, 0, pk0, objS, by decide +kernel⟩

/-- The premises of clause 2 of RequestPackets hold together. -/
theorem premises_RequestPackets_2 : ∃ (s : State) (p q d : Nat) (k : Packet) (o : Obj),
    s.blk.arrives (.eskRedPacket p k) p 2 k ∧
    s.blk.nodeValid = true ∧
    k.dst = s.blk.node ∧
    k.vc ≠ 3 ∧
    s.blk.intact ∧
    s.blk.firnQueues = [] ∧
    s.blk.requestStatus k = .ok (d, o) ∧
    s.blk.fixedPort k.src = some q ∧
    s.blk.sendsNow q 2 32 :=
  ⟨st b28, 3, 3, 0, { pk0 with ptype := 2 }, objS, by decide +kernel⟩

/-- The premises of clause 3 of RequestPackets hold together. -/
theorem premises_RequestPackets_3 : ∃ (s : State) (p q d : Nat) (k : Packet) (o : Obj),
    s.blk.arrives (.eskReadPacket p k) p 3 k ∧
    s.blk.nodeValid = true ∧
    k.dst = s.blk.node ∧
    k.vc ≠ 3 ∧
    s.blk.intact ∧
    s.blk.firnQueues = [] ∧
    s.blk.requestStatus k = .ok (d, o) ∧
    s.blk.fixedPort k.src = some q ∧
    s.blk.sendsNow q 2 288 :=
  ⟨st b28, 3, 3, 0, { pk0 with ptype := 3, data := [], len := 0 }, objS, by decide +kernel⟩

/-- The premises of clause 4 of RequestPackets hold together. -/
theorem premises_RequestPackets_4 : ∃ (s : State) (p q d z : Nat) (k : Packet) (o : Obj),
    s.blk.arrives (.eskAtomicPacket p k) p 4 k ∧
    s.blk.nodeValid = true ∧
    k.dst = s.blk.node ∧
    k.vc ≠ 3 ∧
    s.blk.intact ∧
    s.blk.firnQueues = [] ∧
    s.blk.requestStatus k = .ok (d, o) ∧
    s.blk.fixedPort k.src = some q ∧
    s.blk.sendsNow q 2 40 ∧
    z = typeSize k.etype :=
  ⟨st b28, 3, 3, 0, 4, { pk0 with ptype := 4 }, objS, by decide +kernel⟩

/-- The premises of clause 5 of RequestPackets hold together. -/
theorem premises_RequestPackets_5 : ∃ (s : State) (p q d z : Nat) (f : Frame) (k : Packet),
    s.blk.arrives (.eskWritePacket p k) p 1 k ∧
    s.blk.nodeValid = true ∧
    k.dst = s.blk.node ∧
    k.vc = 3 ∧
    s.blk.err.met = [] ∧
    s.blk.firnQueues = [] ∧
    s.blk.farStatus k = .ok (d, z, f) ∧
    s.blk.fixedPort k.src = some q ∧
    s.blk.sendsNow q 2 32 :=
  ⟨st b50, 3, 3, 0, 33554432, freshFrame 0 0 4 0 0, pkF, by decide +kernel⟩

/-- The premises of clause 6 of RequestPackets hold together. -/
theorem premises_RequestPackets_6 : ∃ (s : State) (i : Instr) (p ty q st : Nat) (k : Packet),
    i ∈ [.eskWritePacket p k, .eskRedPacket p k, .eskReadPacket p k, .eskAtomicPacket p k] ∧
    s.blk.arrives i p ty k ∧
    s.blk.nodeValid = true ∧
    k.dst = s.blk.node ∧
    s.blk.err.met = [] ∧
    s.blk.firnQueues = [] ∧
    (k.vc ≠ 3 ∧ s.blk.requestStatus k = .error st ∨ k.vc = 3 ∧ s.blk.farStatus k = .error st) ∧
    s.blk.fixedPort k.src = some q ∧
    s.blk.sendsNow q 2 32 :=
  ⟨st b28, .eskWritePacket 3 { pk0 with off := 0x200000 }, 3, 1, 3, REFUSED 0xE5, { pk0 with off := 0x200000 }, by decide +kernel⟩

/-- The premises of clause 1 of PacketsPassAndComplete hold together. -/
theorem premises_PacketsPassAndComplete_1 : ∃ (s : State) (i : Instr) (p ty q : Nat) (k : Packet) (msg : List Word),
    i ∈ [.eskWritePacket p k, .eskRedPacket p k, .eskReadPacket p k, .eskAtomicPacket p k, .eskAckPacket p k, .eskDataPacket p k, .eskMgmtPacket p k msg] ∧
    s.blk.arrives i p ty k ∧
    s.blk.nodeValid = true ∧
    k.dst ≠ s.blk.node ∧
    s.blk.routePort k.vc k.dst = some q ∧
    s.blk.sendsNow q k.vc (packetBytes k) :=
  ⟨st b28, .eskWritePacket 3 { pk0 with dst := 9 }, 3, 1, 3, { pk0 with dst := 9 }, [], by decide +kernel⟩

/-- The premises of clause 2 of PacketsPassAndComplete hold together. -/
theorem premises_PacketsPassAndComplete_2 : ∃ (s : State) (i : Instr) (p : Nat) (k : Packet) (msg : List Word),
    i ∈ [.eskWritePacket p k, .eskRedPacket p k, .eskReadPacket p k, .eskAtomicPacket p k, .eskAckPacket p k, .eskDataPacket p k, .eskMgmtPacket p k msg] ∧
    k.hops = 31 :=
  ⟨st b28, .eskWritePacket 3 { pk0 with hops := 31 }, 3, { pk0 with hops := 31 }, [], by decide +kernel⟩

/-- The premises of clause 3 of PacketsPassAndComplete hold together. -/
theorem premises_PacketsPassAndComplete_3 : ∃ (s : State) (i : Instr) (p : Nat) (k : Packet) (msg : List Word),
    i ∈ [.eskWritePacket p k, .eskRedPacket p k, .eskReadPacket p k, .eskAtomicPacket p k, .eskAckPacket p k, .eskDataPacket p k, .eskMgmtPacket p k msg] ∧
    s.blk.portUp p = false :=
  ⟨st (b27 1), .eskWritePacket 3 pk0, 3, pk0, [], by decide +kernel⟩

/-- The premises of clause 4 of PacketsPassAndComplete hold together. -/
theorem premises_PacketsPassAndComplete_4 : ∃ (s : State) (i : Instr) (p ty : Nat) (k : Packet) (o : Outstanding),
    i ∈ [.eskAckPacket p k, .eskDataPacket p k] ∧
    s.blk.arrives i p ty k ∧
    s.blk.nodeValid = true ∧
    k.dst = s.blk.node ∧
    kget s.blk.esk.out k.tag = some o ∧
    s.blk.responds o k = true ∧
    k.status = OK ∧
    o.mover = none ∧
    o.sink = none :=
  ⟨st b29, .eskAckPacket 3 { pk0 with ptype := 8 }, 3, 8, { pk0 with ptype := 8 }, out0, by decide +kernel⟩

/-- The premises of clause 5 of PacketsPassAndComplete hold together. -/
theorem premises_PacketsPassAndComplete_5 : ∃ (s : State) (i : Instr) (p ty : Nat) (k : Packet) (o : Outstanding) (J : Job),
    i ∈ [.eskAckPacket p k, .eskDataPacket p k] ∧
    s.blk.arrives i p ty k ∧
    s.blk.nodeValid = true ∧
    k.dst = s.blk.node ∧
    kget s.blk.esk.out k.tag = some o ∧
    s.blk.responds o k = true ∧
    k.status ≠ OK ∧
    o.mover = none ∧
    s.blk.jobAt o.job = some J ∧
    J.placed = true ∧
    J.fail = none :=
  ⟨st b29, .eskAckPacket 3 { pk0 with ptype := 8, status := 3 }, 3, 8, { pk0 with ptype := 8, status := 3 }, out0, job0, by decide +kernel⟩

/-- The premises of clause 6 of PacketsPassAndComplete hold together. -/
theorem premises_PacketsPassAndComplete_6 : ∃ (s : State) (i : Instr) (p ty : Nat) (k : Packet),
    i ∈ [.eskAckPacket p k, .eskDataPacket p k] ∧
    s.blk.arrives i p ty k ∧
    s.blk.nodeValid = true ∧
    k.dst = s.blk.node ∧
    kget s.blk.esk.out k.tag = none :=
  ⟨st b28, .eskDataPacket 3 { pk0 with ptype := 9 }, 3, 9, { pk0 with ptype := 9 }, by decide +kernel⟩

/-- The premises of clause 7 of PacketsPassAndComplete hold together. -/
theorem premises_PacketsPassAndComplete_7 : ∃ (s : State) (p : Nat) (k : Packet) (msg : List Word),
    s.blk.arrives (.eskMgmtPacket p k msg) p 0xC k ∧
    (s.blk.nodeValid = false ∨ k.dst = s.blk.node) ∧
    s.blk.fromFm k = true ∧
    (mreg msg 0).fld 15 8 = 8 :=
  ⟨st b30, 3, pkM, [0x00000801], by decide +kernel⟩

/-- The premises of clause 1 of LinkTimers hold together. -/
theorem premises_LinkTimers_1 : ∃ (s : State) (tag at_ : Nat) (o : Outstanding) (J : Job),
    kget s.blk.esk.out tag = some o ∧
    o.sent = some at_ ∧
    at_ + s.blk.fld ESK_ACK 15 0 * 1000 ≤ s.blk.now ∧
    o.mover = none ∧
    s.blk.jobAt o.job = some J ∧
    J.placed = true ∧
    J.fail = none :=
  ⟨st (b29.setPair CLK_TB_LO 900000000), 77, 0, out0, job0, by decide +kernel⟩

/-- The premises of clause 2 of LinkTimers hold together. -/
theorem premises_LinkTimers_2 : ∃ (s : State) (tag at_ : Nat) (o : Outstanding),
    kget s.blk.esk.out tag = some o ∧
    o.sent = some at_ ∧
    s.blk.now < at_ + s.blk.fld ESK_ACK 15 0 * 1000 :=
  ⟨st (b29.wf ESK_ACK 15 0 50), 77, 0, out0, by decide +kernel⟩

/-- The premises of clause 3 of LinkTimers hold together. -/
theorem premises_LinkTimers_3 : ∃ (s : State) (p r : Nat) (q : Queued) (rest : List Queued),
    p < 16 ∧
    s.blk.portUp p = true ∧
    firstVc1 (s.blk.port p).queue = some (q, rest) ∧
    s.blk.fixedPort q.packet.dst = some r ∧
    q.packet.ordered = false ∧
    s.blk.portUp r = true ∧
    (r = p ∧ rest = [] ∨ r ≠ p ∧ (s.blk.port r).queue = []) ∧
    (s.blk.ledger (creditLedger r 5)).ok = true ∧
    ceilDiv (packetBytes q.packet) 32 ≤ (s.blk.ledger (creditLedger r 5)).free :=
  ⟨st ((b27 2).modPort 3 fun x => { x with queue := [q1v] }), 3, 3, q1v, [], by decide +kernel⟩

/-- The premises of clause 4 of LinkTimers hold together. -/
theorem premises_LinkTimers_4 : ∃ (s : State) (p : Nat),
    firstVc1 (s.blk.port p).queue = none :=
  ⟨st (b27 2), 3, by decide +kernel⟩

/-- The premises of clause 5 of LinkTimers hold together. -/
theorem premises_LinkTimers_5 : ∃ (s : State) (t1 t2 t3 t4 : Int) (hops : Nat),
    s.blk.isRoot = true :=
  ⟨st ((b27 2).wf ESK_FABRIC 31 16 0x8007), 1, 2, 3, 4, 5, by decide +kernel⟩

/-- The premises of clause 6 of LinkTimers hold together. -/
theorem premises_LinkTimers_6 : ∃ (s : State) (t1 t2 t3 t4 : Int) (hops p : Nat) (off : Int),
    s.blk.isRoot = false ∧
    s.blk.syncPort = some p ∧
    off = syncOffset t1 t2 t3 t4 (signExt 16 (s.blk.fld (ESK_TS_ASYM p) 15 0)) ∧
    s.blk.fld ESK_TIME 1 0 ≠ 1 :=
  ⟨st b31, 0, 100, 120, 20, 1, 3, 100, by decide +kernel⟩

/-- The premises of clause 7 of LinkTimers hold together. -/
theorem premises_LinkTimers_7 : ∃ (s : State) (t1 t2 t3 t4 : Int) (hops p : Nat),
    s.blk.isRoot = false ∧
    s.blk.syncPort = some p ∧
    s.blk.fld ESK_TIME 1 0 = 1 :=
  ⟨st (b31.wf ESK_TIME 1 0 1), 0, 100, 120, 20, 1, 3, by decide +kernel⟩

/-- The premises of clause 8 of LinkTimers hold together. -/
theorem premises_LinkTimers_8 : ∃ (s : State) (t1 t2 t3 t4 : Int) (hops : Nat),
    s.blk.isRoot = false ∧
    s.blk.syncPort = none :=
  ⟨st (b27 2), 1, 2, 3, 4, 5, by decide +kernel⟩

/-- The premises of clause 1 of FabricMessages hold together. -/
theorem premises_FabricMessages_1 : ∃ (s : State) (ch : Chan) (n : Nat),
    s.blk.delivers ch 0x0801 ∧
    s.blk.backFree ch ∧
    (chFn ch = 0 ∨ chFn ch = 64) ∧
    n = (mreg (s.blk.msgWords ch) 1).toNat ∧
    n ≤ 32767 ∧
    (List.range 32).all (fun p => !s.blk.joined p) = true :=
  ⟨st (msg (b27 2) (.fn 0 0) [0x02000801, 8]), .fn 0 0, 8, by decide +kernel⟩

/-- The premises of clause 2 of FabricMessages hold together. -/
theorem premises_FabricMessages_2 : ∃ (s : State) (ch : Chan) (p : Nat),
    s.blk.delivers ch 0x0801 ∧
    s.blk.backFree ch ∧
    (chFn ch = 0 ∨ chFn ch = 64) ∧
    (mreg (s.blk.msgWords ch) 1).toNat ≤ 32767 ∧
    p < 32 ∧
    s.blk.joined p = true :=
  ⟨st (msg b28 (.fn 0 0) [0x02000801, 8]), .fn 0 0, 0, by decide +kernel⟩

/-- The premises of clause 3 of FabricMessages hold together. -/
theorem premises_FabricMessages_3 : ∃ (s : State) (ch : Chan) (first n : Nat) (l : List Word),
    s.blk.delivers ch 0x0802 ∧
    s.blk.backFree ch ∧
    (chFn ch = 0 ∨ chFn ch = 64) ∧
    first = (mreg (s.blk.msgWords ch) 1).toNat ∧
    n = (mreg (s.blk.msgWords ch) 2).toNat ∧
    first + n ≤ 32768 ∧
    ((mreg (s.blk.msgWords ch) 6).bit 0 = false ∧ l = List.replicate n (mreg (s.blk.msgWords ch) 3) ∨ (mreg (s.blk.msgWords ch) 6).bit 0 = true ∧ (s.blk.msgTaken ch).hostReadStatus 0 (mpair (s.blk.msgWords ch) 4) (4 * n) = none ∧ l = bytesWords n (s.blk.hostRead (mpair (s.blk.msgWords ch) 4) (4 * n))) ∧
    l.all routeOk = true :=
  ⟨st (msg b28 (.fn 0 0) [0x02000802, 20, 2, 0x813]), .fn 0 0, 20, 2, [0x813, 0x813], by decide +kernel⟩

/-- The premises of clause 4 of FabricMessages hold together. -/
theorem premises_FabricMessages_4 : ∃ (s : State) (ch : Chan) (n : Nat),
    s.blk.delivers ch 0x0803 ∧
    s.blk.backFree ch ∧
    (chFn ch = 0 ∨ chFn ch = 64) ∧
    n = (mreg (s.blk.msgWords ch) 1).toNat ∧
    n ≤ 32767 :=
  ⟨st (msg b28 (.fn 0 0) [0x02000803, 9]), .fn 0 0, 9, by decide +kernel⟩

/-- The premises of clause 5 of FabricMessages hold together. -/
theorem premises_FabricMessages_5 : ∃ (s : State) (ch : Chan) (p d : Nat),
    s.blk.delivers ch 0x0805 ∧
    s.blk.backFree ch ∧
    (chFn ch = 0 ∨ chFn ch = 64) ∧
    p = (mreg (s.blk.msgWords ch) 1).toNat ∧
    p ≤ 31 ∧
    (s.blk.part p).isSome = true ∧
    (mreg (s.blk.msgWords ch) 2).bit 16 = true ∧
    d = (mreg (s.blk.msgWords ch) 2).fld 15 0 ∧
    (s.blk.joined p = false ∨ s.blk.fld (ESK_DOMAIN p) 15 0 = d) ∧
    (s.blk.domainPart d = none ∨ s.blk.domainPart d = some p) :=
  ⟨st (msg (b27 2) (.fn 0 0) [0x02000805, 0, 0x10055]), .fn 0 0, 0, 0x55, by decide +kernel⟩

/-- The premises of clause 6 of FabricMessages hold together. -/
theorem premises_FabricMessages_6 : ∃ (s : State) (ch : Chan) (p : Nat),
    s.blk.delivers ch 0x0805 ∧
    s.blk.backFree ch ∧
    (chFn ch = 0 ∨ chFn ch = 64) ∧
    p = (mreg (s.blk.msgWords ch) 1).toNat ∧
    p ≤ 31 ∧
    (s.blk.part p).isSome = true ∧
    (mreg (s.blk.msgWords ch) 2).bit 16 = false :=
  ⟨st (msg b28 (.fn 0 0) [0x02000805, 0, 0x55]), .fn 0 0, 0, by decide +kernel⟩

/-- The premises of clause 7 of FabricMessages hold together. -/
theorem premises_FabricMessages_7 : ∃ (s : State) (ch : Chan) (p n : Nat),
    s.blk.delivers ch 0x0806 ∧
    s.blk.backFree ch ∧
    (chFn ch = 0 ∨ chFn ch = 64) ∧
    p = (mreg (s.blk.msgWords ch) 1).toNat ∧
    p ≤ 31 ∧
    (s.blk.part p).isSome = true ∧
    n = (mreg (s.blk.msgWords ch) 2).toNat ∧
    s.blk.otherTags p + n ≤ 65536 ∧
    s.blk.reservedCredits p ≤ n :=
  ⟨st (msg b28 (.fn 0 0) [0x02000806, 0, 100]), .fn 0 0, 0, 100, by decide +kernel⟩

/-- The premises of clause 8 of FabricMessages hold together. -/
theorem premises_FabricMessages_8 : ∃ (s : State) (ch : Chan) (g n : Nat) (l : List Nat),
    s.blk.delivers ch 0x0807 ∧
    s.blk.backFree ch ∧
    (chFn ch = 0 ∨ chFn ch = 64) ∧
    g = (mreg (s.blk.msgWords ch) 1).toNat ∧
    1 ≤ g ∧
    g ≤ 255 ∧
    n = (mreg (s.blk.msgWords ch) 3).toNat ∧
    1 ≤ n ∧
    n ≤ 32768 ∧
    s.blk.groupEntries g + n ≤ 131072 ∧
    (s.blk.msgTaken ch).groupNodes (s.blk.msgWords ch) n = .ok l ∧
    l.all (fun x => decide (x < 32768)) = true ∧
    l.Nodup ∧
    s.blk.groupNamed g = false :=
  ⟨st (msg b28 (.fn 0 0) [0x02000807, 5, 0x55, 2, 0, 0, 0x90007]), .fn 0 0, 5, 2, [7, 9], by decide +kernel⟩

/-- The premises of clause 10 of FabricMessages hold together. -/
theorem premises_FabricMessages_10 : ∃ (s : State) (ch : Chan) (node d p : Nat) (g : FarGrant),
    s.blk.delivers ch 0x0808 ∧
    s.blk.backFree ch ∧
    (chFn ch = 0 ∨ chFn ch = 64) ∧
    node = (mreg (s.blk.msgWords ch) 1).toNat ∧
    node ≤ 32767 ∧
    d = (mreg (s.blk.msgWords ch) 2).fld 15 0 ∧
    (mreg (s.blk.msgWords ch) 3).toNat = 0 ∧
    s.blk.domainPart d = some p ∧
    s.blk.esk.grants.find? (fun g => g.node == node && g.domain == d) = some g :=
  ⟨st (msg { b28 with esk := { b28.esk with grants := [gr0] } } (.fn 0 0) [0x02000808, 9, 0x55, 0]), .fn 0 0, 9, 0x55, 0, gr0, by decide +kernel⟩

/-- The premises of clause 11 of FabricMessages hold together. -/
theorem premises_FabricMessages_11 : ∃ (s : State) (ch : Chan) (a b : Word),
    s.blk.delivers ch 0x0809 ∧
    s.blk.backFree ch ∧
    (chFn ch = 0 ∨ chFn ch = 64) ∧
    a = mreg (s.blk.msgWords ch) 1 ∧
    b = mreg (s.blk.msgWords ch) 2 :=
  ⟨st (msg b28 (.fn 0 0) [0x02000809, 0x8009, 0x8007, 100]), .fn 0 0, 0x8009, 0x8007, by decide +kernel⟩

/-! ### Premises, part 11 -/

/-- A block whose Rime cores are in the state `v`, all rails up. -/
def b33 (v : Nat) : Block :=
  let cores : Tbl Word := if v = 0 then [] else (List.range 7).map fun n => (RIME_STATE n, w32 v)
  let b : Block := { b27 2 with regs := cores ++ (b27 2).regs }
  { b with pwr := { b.pwr with pwrGood := true }, start := { b.start with pllOn := true, powered := true, input := true } }
/-- A module that awaits its firmware. -/
def b34 : Block := { (b33 0).wr MOR_START 7 with fw := State.reset.blk.fw }


/-- The premises of clause 1 of RimeCores hold together. -/
theorem premises_RimeCores_1 : ∃ (s : State) (n cause pc addr : Nat),
    faultable n s.blk = true ∧
    1 ≤ cause ∧
    cause ≤ 5 ∧
    ((s.blk.core n).faults.filter fun t => decide (s.blk.now < t + 1000000000)).length + 1 < s.blk.faultLimit :=
  ⟨st (b33 2), 4, 3, 0x100, 0x200, by decide +kernel⟩

/-- The premises of clause 2 of RimeCores hold together. -/
theorem premises_RimeCores_2 : ∃ (s : State) (n cause pc addr : Nat),
    faultable n s.blk = true ∧
    1 ≤ cause ∧
    cause ≤ 5 ∧
    s.blk.faultLimit ≤ ((s.blk.core n).faults.filter fun t => decide (s.blk.now < t + 1000000000)).length + 1 ∧
    (s.blk.core n).reply = none :=
  ⟨st ((b33 2).modCore 6 fun x => { x with faults := [0, 0] }), 6, 5, 0x100, 0x200, by decide +kernel⟩

/-- The premises of clause 3 of RimeCores hold together. -/
theorem premises_RimeCores_3 : ∃ (s : State) (n cause pc addr : Nat),
    (faultable n s.blk = false ∨ cause = 0 ∨ 5 < cause) :=
  ⟨st (b33 2), 0, 3, 0x100, 0x200, by decide +kernel⟩

/-- The premises of clause 4 of RimeCores hold together. -/
theorem premises_RimeCores_4 : ∃ (s : State) (n : Nat),
    faultable n s.blk = true ∧
    s.blk.coreState n = 4 ∧
    (s.blk.core n).reply = none ∧
    s.blk.returnsQuietly n :=
  ⟨st (b33 4), 5, by decide +kernel⟩

/-- The premises of clause 5 of RimeCores hold together. -/
theorem premises_RimeCores_5 : ∃ (s : State) (n : Nat) (ch : Chan) (h : Word),
    faultable n s.blk = true ∧
    s.blk.coreState n = 4 ∧
    (s.blk.core n).reply = some (ch, h, false) ∧
    chSecure ch = true ∧
    (s.blk.box (chBase ch)).owed = true ∧
    s.blk.backFree ch ∧
    s.blk.returnsQuietly n :=
  ⟨st (({ b33 4 with mbx := [(s0Base, { len := 8, waiting := [], owed := true })] } : Block).modCore 2 fun x => { x with reply := some (.s0, 0x02000903, false) }), 2, .s0, 0x02000903, by decide +kernel⟩

/-- The premises of clause 6 of RimeCores hold together. -/
theorem premises_RimeCores_6 : ∃ (s : State) (n : Nat),
    (faultable n s.blk = false ∨ s.blk.coreState n ≠ 4) :=
  ⟨st (b33 2), 5, by decide +kernel⟩

/-- The premises of clause 7 of RimeCores hold together. -/
theorem premises_RimeCores_7 : ∃ (s : State) (n : Nat),
    watchdogDue n s.blk = true ∧
    n ≠ 0 ∧
    (s.blk.core n).reply = none :=
  ⟨st ((b33 2).setPair CLK_TB_LO 90000000000), 3, by decide +kernel⟩

/-- The premises of clause 8 of RimeCores hold together. -/
theorem premises_RimeCores_8 : ∃ (s : State),
    watchdogDue 0 s.blk = true ∧
    startable s.blk = true :=
  ⟨st ((b33 2).setPair CLK_TB_LO 90000000000), by decide +kernel⟩

/-- The premises of clause 9 of RimeCores hold together. -/
theorem premises_RimeCores_9 : ∃ (s : State) (n : Nat),
    watchdogDue n s.blk = false :=
  ⟨st (b33 2), 3, by decide +kernel⟩

/-- The premises of clause 10 of RimeCores hold together. -/
theorem premises_RimeCores_10 : ∃ (s : State) (n : Nat),
    coreRuns n s.blk = true :=
  ⟨st ((b33 2).setPair CLK_TB_LO 90000000000), 3, by decide +kernel⟩

/-- The premises of clause 11 of RimeCores hold together. -/
theorem premises_RimeCores_11 : ∃ (s : State) (n : Nat),
    coreRuns n s.blk = false :=
  ⟨st (b33 3), 3, by decide +kernel⟩

/-- The premises of clause 12 of RimeCores hold together. -/
theorem premises_RimeCores_12 : ∃ (s : State) (cause : Nat),
    coreRuns 0 s.blk = true ∧
    startable s.blk = true ∧
    1 ≤ cause ∧
    cause ≤ 5 :=
  ⟨st (b33 2), 4, by decide +kernel⟩

/-- The premises of clause 13 of RimeCores hold together. -/
theorem premises_RimeCores_13 : ∃ (s : State) (cause : Nat),
    (coreRuns 0 s.blk = false ∨ cause = 0 ∨ 5 < cause) :=
  ⟨st (b33 2), 6, by decide +kernel⟩

/-- The premises of clause 1 of FirmwareMessages hold together. -/
theorem premises_FirmwareMessages_1 : ∃ (s₀ s : State) (bs : List Byte) (img : ImageSet) (len : Nat) (v : Option (Nat × Nat) × Block),
    s = { s₀ with blk := s₀.blk.hostImage .s0 0x0901 1 bs } ∧
    s.blk.delivers .s0 0x0901 ∧
    s.blk.backFree .s0 ∧
    (s.blk.phase = 7 ∨ s.blk.phase = 9) ∧
    s.blk.fw.loaded = false ∧
    s.blk.scrapped = false ∧
    s.blk.bit MOR_START 4 = false ∧
    len = (mreg (s.blk.msgWords .s0) 3).toNat ∧
    (s.blk.msgTaken .s0).hostReadStatus 0 (mpair (s.blk.msgWords .s0) 1) (min len 16777216) = none ∧
    img = (s.blk.msgTaken .s0).imageSetAt (mpair (s.blk.msgWords .s0) 1) len ∧
    v = (s.blk.msgTaken .s0).verifySet img len (fun _ => true) :=
  ⟨st (msg b34 .s0 [0x02000901, 0x10000, 0, 512]), st (msg b34 .s0 [0x02000901, 0x10000, 0, 512]), [], ((st (msg b34 .s0 [0x02000901, 0x10000, 0, 512])).blk.msgTaken .s0).imageSetAt 0x10000 512, 512, ((st (msg b34 .s0 [0x02000901, 0x10000, 0, 512])).blk.msgTaken .s0).verifySet (((st (msg b34 .s0 [0x02000901, 0x10000, 0, 512])).blk.msgTaken .s0).imageSetAt 0x10000 512) 512 (fun _ => true), image_nil _ _ _ _, eight (by decide +kernel) ⟨rfl, rfl⟩⟩

/-- The premises of clause 2 of FirmwareMessages hold together. -/
theorem premises_FirmwareMessages_2 : ∃ (s₀ s : State) (bs : List Byte),
    s = { s₀ with blk := s₀.blk.hostImage .s0 0x0901 1 bs } ∧
    s.blk.delivers .s0 0x0901 ∧
    s.blk.backFree .s0 ∧
    (s.blk.phase = 7 ∨ s.blk.phase = 9) ∧
    s.blk.fw.loaded = true :=
  ⟨st (msg ((b33 2).wr MOR_START 9) .s0 [0x02000901, 0x10000, 0, 512]), st (msg ((b33 2).wr MOR_START 9) .s0 [0x02000901, 0x10000, 0, 512]), [], image_nil _ _ _ _, by decide +kernel⟩

/-- The premises of clause 3 of FirmwareMessages hold together. -/
theorem premises_FirmwareMessages_3 : ∃ (s : State) (bs : List Byte),
    s.blk.phase ≠ 7 ∧
    s.blk.phase ≠ 9 :=
  ⟨st (msg ((b33 2).wr MOR_START 6) .s0 [0x02000901, 0x10000, 0, 512]), [1, 7], by decide +kernel⟩

/-- The premises of clause 4 of FirmwareMessages hold together. -/
theorem premises_FirmwareMessages_4 : ∃ (s₀ s : State) (ch : Chan) (bs : List Byte),
    s = { s₀ with blk := s₀.blk.hostImage ch 0x0901 1 bs } ∧
    s.blk.delivers ch 0x0901 ∧
    s.blk.backFree ch ∧
    ch ≠ .s0 :=
  ⟨st (msg (b33 2) .s1 [0x02000901, 0x10000, 0, 512]), st (msg (b33 2) .s1 [0x02000901, 0x10000, 0, 512]), .s1, [], image_nil _ _ _ _, by decide +kernel⟩

/-- The premises of clause 5 of FirmwareMessages hold together. -/
theorem premises_FirmwareMessages_5 : ∃ (s₀ s : State) (bs : List Byte) (img : ImageSet) (id len : Nat) (v : Option (Nat × Nat) × Block),
    s = { s₀ with blk := s₀.blk.hostImage .s0 0x0902 2 bs } ∧
    s.blk.delivers .s0 0x0902 ∧
    s.blk.backFree .s0 ∧
    s.blk.fw.loaded = true ∧
    id = (mreg (s.blk.msgWords .s0) 1).toNat ∧
    len = (mreg (s.blk.msgWords .s0) 4).toNat ∧
    (s.blk.msgTaken .s0).updateStatus id = none ∧
    (s.blk.msgTaken .s0).hostReadStatus 0 (mpair (s.blk.msgWords .s0) 2) (min len 16777216) = none ∧
    img = (s.blk.msgTaken .s0).imageSetAt (mpair (s.blk.msgWords .s0) 2) len ∧
    v = (s.blk.msgTaken .s0).verifySet img len (fun c => c.id == id) :=
  ⟨st (msg (b33 2) .s0 [0x02000902, 3, 0x10000, 0, 512]), st (msg (b33 2) .s0 [0x02000902, 3, 0x10000, 0, 512]), [], ((st (msg (b33 2) .s0 [0x02000902, 3, 0x10000, 0, 512])).blk.msgTaken .s0).imageSetAt 0x10000 512, 3, 512, ((st (msg (b33 2) .s0 [0x02000902, 3, 0x10000, 0, 512])).blk.msgTaken .s0).verifySet (((st (msg (b33 2) .s0 [0x02000902, 3, 0x10000, 0, 512])).blk.msgTaken .s0).imageSetAt 0x10000 512) 512 (fun c => c.id == 3), image_nil _ _ _ _, four (by decide +kernel) (two (by decide +kernel) ⟨by decide +kernel, rfl, rfl⟩)⟩

/-- The premises of clause 6 of FirmwareMessages hold together. -/
theorem premises_FirmwareMessages_6 : ∃ (s₀ s : State) (bs : List Byte) (st : Nat),
    s = { s₀ with blk := s₀.blk.hostImage .s0 0x0902 2 bs } ∧
    s.blk.delivers .s0 0x0902 ∧
    s.blk.backFree .s0 ∧
    s.blk.fw.loaded = true ∧
    (s.blk.msgTaken .s0).updateStatus (mreg (s.blk.msgWords .s0) 1).toNat = some st :=
  ⟨st (msg (b33 2) .s0 [0x02000902, 0, 0x10000, 0, 512]), st (msg (b33 2) .s0 [0x02000902, 0, 0x10000, 0, 512]), [], REFUSED 0x16, image_nil _ _ _ _, by decide +kernel⟩

/-- The premises of clause 7 of FirmwareMessages hold together. -/
theorem premises_FirmwareMessages_7 : ∃ (s : State) (ch : Chan) (id : Nat),
    s.blk.delivers ch 0x0903 ∧
    chSecure ch = true ∧
    s.blk.fw.loaded = true ∧
    id = (mreg (s.blk.msgWords ch) 1).toNat ∧
    1 ≤ id ∧
    id ≤ 6 ∧
    s.blk.restarting id = false :=
  ⟨st (msg (b33 2) .s1 [0x02000903, 3]), .s1, 3, by decide +kernel⟩

/-- The premises of clause 8 of FirmwareMessages hold together. -/
theorem premises_FirmwareMessages_8 : ∃ (s : State) (ch : Chan) (id : Nat),
    s.blk.delivers ch 0x0903 ∧
    s.blk.backFree ch ∧
    chSecure ch = true ∧
    s.blk.fw.loaded = true ∧
    id = (mreg (s.blk.msgWords ch) 1).toNat ∧
    (id = 0 ∨ 6 < id ∨ s.blk.restarting id = true) :=
  ⟨st (msg ((b33 2).setCoreState 3 4) .s1 [0x02000903, 3]), .s1, 3, by decide +kernel⟩

/-- The premises of clause 9 of FirmwareMessages hold together. -/
theorem premises_FirmwareMessages_9 : ∃ (s : State) (ch : Chan),
    s.blk.delivers ch 0x0904 ∧
    s.blk.backFree ch ∧
    chSecure ch = true ∧
    s.blk.fw.loaded = true :=
  ⟨st (msg (b33 2) .s1 [0x02000904]), .s1, by decide +kernel⟩

/-! ### Premises, part 12 -/

/-- The record region of a board that gives SETTLE = 1. -/
def flash0 : List Byte :=
  let r : List Byte := leBytes 4 (2 + 4 * 65536) ++ leBytes 4 1
  leBytes 4 0x424F4152 ++ leBytes 4 (2 + 65536) ++ leBytes 4 28 ++ leBytes 4 0 ++ r ++ leBytes 4 (crc32 r)
/-- The module right after reset, with those records. -/
def b35 : Block := { b0 with env := { b0.env with flash := flash0, sfdpOk := true } }
/-- A module at work with those records. -/
def b36 : Block :=
  { b33 2 with env := { (b33 2).env with flash := flash0, sfdpOk := true }, start := { (b33 2).start with perst := false } }
/-- The same with a latched fault and its input taken away. -/
def b51 : Block :=
  let b : Block := b36.wb PWR_STATUS 1 true
  { b with start := { b.start with input := false }, pwr := { b.pwr with pwrGood := false } }
/-- The same at rest. -/
def b37 : Block := { b36 with jobs := [], reqs := [], clusters := [], firn := [], serve := [], snow := [] }
/-- A block with a group of a trained stack in the state `g`, its Firn set in the state `k`. -/
def b38 (g k : Nat) (ws : List Word) : State := st (msg (b19 2 g k) (.fn 0 0) ws)
/-- A block whose tile 9 is to be replaced; with `full` no spare is left. -/
def b39 (full : Bool) : Block :=
  let b : Block := b2.wf (FLOE_STATE 9) 2 0 5
  if full then loop 4 (fun k b => b.wb (SRC_SPARE 0 k) 9 true) b else b


/-- The premises of clause 1 of ColdStarts hold together. -/
theorem premises_ColdStarts_1 : ∃ (s : State) (mv : Nat),
    s.blk.start.input = false ∧
    36000 ≤ mv ∧
    mv ≤ 60000 ∧
    s.blk.latched = false :=
  ⟨st b35, 48000, by decide +kernel⟩

/-- The premises of clause 2 of ColdStarts hold together. -/
theorem premises_ColdStarts_2 : ∃ (s : State) (mv : Nat),
    s.blk.start.input = false ∧
    36000 ≤ mv ∧
    mv ≤ 60000 ∧
    s.blk.latched = true ∧
    s.blk.pwr.pwrGood = false :=
  ⟨st b51, 48000, by decide +kernel⟩

/-- The premises of clause 3 of ColdStarts hold together. -/
theorem premises_ColdStarts_3 : ∃ (s : State) (mv : Nat),
    (s.blk.start.input = true ∨ mv < 36000 ∨ 60000 < mv) :=
  ⟨st b36, 48000, by decide +kernel⟩

/-- The premises of clause 4 of ColdStarts hold together. -/
theorem premises_ColdStarts_4 : ∃ (s : State) (i : Instr) (c : Nat),
    Instr.coldCause i = some c ∧
    startable s.blk = true :=
  ⟨st b36, .morResetCold 0 0x5AFE0002, 1, by decide +kernel⟩

/-- The premises of clause 5 of ColdStarts hold together. -/
theorem premises_ColdStarts_5 : ∃ (s : State) (v : Word),
    startable s.blk = true ∧
    (resetKey v = false ∨ (v.fld 1 0 ≠ 1 ∧ v.fld 1 0 ≠ 2)) :=
  ⟨st b36, 0x5AFE0003, by decide +kernel⟩

/-- The premises of clause 6 of ColdStarts hold together. -/
theorem premises_ColdStarts_6 : ∃ (s : State) (i : Nat) (v : Word),
    (i ≠ 0 ∨ startable s.blk = false) :=
  ⟨st b36, 3, 0x5AFE0002, by decide +kernel⟩

/-- The premises of clause 7 of ColdStarts hold together. -/
theorem premises_ColdStarts_7 : ∃ (s : State) (i : Nat) (v : Word),
    (i ≠ 0 ∨ startable s.blk = false) :=
  ⟨st b35, 0, 0x5AFE0001, by decide +kernel⟩

/-- The premises of clause 8 of ColdStarts hold together. -/
theorem premises_ColdStarts_8 : ∃ (s : State),
    startable s.blk = false :=
  ⟨st b35, by decide +kernel⟩

/-- The premises of clause 1 of WarmStarts hold together. -/
theorem premises_WarmStarts_1 : ∃ (s : State) (i : Instr) (c : Nat),
    Instr.warmCause i = some c ∧
    s.blk.canStart i :=
  ⟨st b36, .perstAssert, 3, by decide +kernel⟩

/-- The premises of clause 2 of WarmStarts hold together. -/
theorem premises_WarmStarts_2 : ∃ (s : State) (i : Instr) (c : Nat),
    Instr.warmCause i = some c ∧
    s.blk.canStart i ∧
    s.blk.atRest ∧
    s.blk.intact ∧
    Tbl.wf regReset s.blk.regs = true :=
  ⟨st b37, .hotReset, 4, by decide +kernel⟩

/-- The premises of clause 3 of WarmStarts hold together. -/
theorem premises_WarmStarts_3 : ∃ (s : State),
    startable s.blk = false :=
  ⟨st b35, by decide +kernel⟩

/-- The premises of clause 4 of WarmStarts hold together. -/
theorem premises_WarmStarts_4 : ∃ (s : State),
    (startable s.blk = false ∨ s.blk.start.perst = true ∨ s.blk.start.linkUp = false) :=
  ⟨st b35, by decide +kernel⟩

/-- The premises of clause 5 of WarmStarts hold together. -/
theorem premises_WarmStarts_5 : ∃ (s : State),
    (startable s.blk = false ∨ s.blk.start.perst = true) :=
  ⟨st b35, by decide +kernel⟩

/-- The premises of clause 1 of StartSteps hold together. -/
theorem premises_StartSteps_1 : ∃ (s : State),
    startable s.blk = true ∧
    s.blk.phase = 4 ∧
    s.blk.start.perst = false :=
  ⟨st (b36.wr MOR_START 4), by decide +kernel⟩

/-- The premises of clause 2 of StartSteps hold together. -/
theorem premises_StartSteps_2 : ∃ (s : State),
    (startable s.blk = false ∨ s.blk.phase ≠ 4 ∨ s.blk.start.perst = true) :=
  ⟨st (b36.wr MOR_START 5), by decide +kernel⟩

/-- The premises of clause 3 of StartSteps hold together. -/
theorem premises_StartSteps_3 : ∃ (s : State) (bad failed : List Nat),
    s.blk.phase = 6 ∧
    s.blk.start.stacksDone = false :=
  ⟨st (b36.wr MOR_START 6), [3, 4], [70], by decide +kernel⟩

/-- The premises of clause 4 of StartSteps hold together. -/
theorem premises_StartSteps_4 : ∃ (s : State) (bad failed : List Nat),
    (s.blk.phase ≠ 6 ∨ s.blk.start.stacksDone = true) :=
  ⟨st (b36.wr MOR_START 5), [3, 4], [70], by decide +kernel⟩

/-- The premises of clause 5 of StartSteps hold together. -/
theorem premises_StartSteps_5 : ∃ (s : State) (rate width : Nat) (flit : Bool),
    s.blk.start.pllOn = true ∧
    s.blk.start.linkUp = false ∧
    s.blk.start.perst = false :=
  ⟨st { b36.wr MOR_START 6 with start := { b36.start with stacksDone := true, linkUp := false } }, 5, 16, true, by decide +kernel⟩

/-- The premises of clause 6 of StartSteps hold together. -/
theorem premises_StartSteps_6 : ∃ (s : State) (rate width : Nat) (flit : Bool),
    (s.blk.start.pllOn = false ∨ s.blk.start.linkUp = true ∨ s.blk.start.perst = true) :=
  ⟨st (b36.wr MOR_START 6), 5, 16, true, by decide +kernel⟩

/-- The premises of clause 1 of FunctionControl hold together. -/
theorem premises_FunctionControl_1 : ∃ (s : State) (ch : Chan) (k i : Nat) (x : Nat × Nat),
    s.blk.delivers ch 0x0101 ∧
    s.blk.backFree ch ∧
    (chFn ch = 0 ∨ chFn ch = 64) ∧
    (mreg (s.blk.msgWords ch) 1).fld 17 16 = 0 ∧
    k = (mreg (s.blk.msgWords ch) 1).fld 1 0 ∧
    i = (mreg (s.blk.msgWords ch) 1).fld 15 8 ∧
    s.blk.fnState k i = some x ∧
    ((mreg (s.blk.msgWords ch) 2).fld 15 0 = 0 ∨ (mreg (s.blk.msgWords ch) 2).fld 15 0 = x.2) :=
  ⟨b38 2 2 [0x02000101, 259], .fn 0 0, 3, 1, (2, 1), by decide +kernel⟩

/-- The premises of clause 2 of FunctionControl hold together. -/
theorem premises_FunctionControl_2 : ∃ (s : State) (ch : Chan) (c : Instr) (op : Nat),
    s.blk.delivers ch 0x0101 ∧
    s.blk.backFree ch ∧
    (chFn ch = 0 ∨ chFn ch = 64) ∧
    op = (mreg (s.blk.msgWords ch) 1).fld 17 16 ∧
    (op = 0 ∧ c = .fnCtrlQuery ch ∨ op = 1 ∧ c = .fnCtrlStart ch ∨ op = 2 ∧ c = .fnCtrlStop ch) ∧
    s.blk.fnState ((mreg (s.blk.msgWords ch) 1).fld 1 0) ((mreg (s.blk.msgWords ch) 1).fld 15 8) = none :=
  ⟨b38 2 2 [0x02000101, 116739], .fn 0 0, .fnCtrlStart (.fn 0 0), 1, by decide +kernel⟩

/-- The premises of clause 3 of FunctionControl hold together. -/
theorem premises_FunctionControl_3 : ∃ (s : State) (ch : Chan) (c : Instr) (op : Nat),
    s.blk.delivers ch 0x0101 ∧
    s.blk.backFree ch ∧
    chFn ch ≠ 0 ∧
    chFn ch ≠ 64 ∧
    op = (mreg (s.blk.msgWords ch) 1).fld 17 16 ∧
    (op = 0 ∧ c = .fnCtrlQuery ch ∨ op = 1 ∧ c = .fnCtrlStart ch ∨ op = 2 ∧ c = .fnCtrlStop ch) :=
  ⟨st (msg (b19 2 2 2) (.fn 5 0) [0x02000101, 182275]), .fn 5 0, .fnCtrlStop (.fn 5 0), 2, by decide +kernel⟩

/-- The premises of clause 4 of FunctionControl hold together. -/
theorem premises_FunctionControl_4 : ∃ (s : State) (ch : Chan) (i n g : Nat),
    s.blk.delivers ch 0x0101 ∧
    s.blk.backFree ch ∧
    (chFn ch = 0 ∨ chFn ch = 64) ∧
    (mreg (s.blk.msgWords ch) 1).fld 17 16 = 1 ∧
    (mreg (s.blk.msgWords ch) 1).fld 1 0 = 3 ∧
    i = (mreg (s.blk.msgWords ch) 1).fld 15 8 ∧
    i < 192 ∧
    n = i / 8 ∧
    g = i % 8 ∧
    (mreg (s.blk.msgWords ch) 2).fld 15 0 = 0 ∧
    s.blk.cgPart n g ≠ 0x3F ∧
    s.blk.cgState n g = 0 ∧
    s.blk.stackTrained n = true ∧
    s.blk.groupDown n g = false :=
  ⟨b38 0 2 [0x02000101, 65795], .fn 0 0, 1, 0, 1, by decide +kernel⟩

/-- The premises of clause 5 of FunctionControl hold together. -/
theorem premises_FunctionControl_5 : ∃ (s : State) (ch : Chan) (i n g : Nat),
    s.blk.delivers ch 0x0101 ∧
    s.blk.backFree ch ∧
    (chFn ch = 0 ∨ chFn ch = 64) ∧
    (mreg (s.blk.msgWords ch) 1).fld 17 16 = 1 ∧
    (mreg (s.blk.msgWords ch) 1).fld 1 0 = 3 ∧
    i = (mreg (s.blk.msgWords ch) 1).fld 15 8 ∧
    i < 192 ∧
    n = i / 8 ∧
    g = i % 8 ∧
    (mreg (s.blk.msgWords ch) 2).fld 15 0 = 0 ∧
    s.blk.cgPart n g ≠ 0x3F ∧
    s.blk.cgState n g = 3 :=
  ⟨b38 3 2 [0x02000101, 65795], .fn 0 0, 1, 0, 1, by decide +kernel⟩

/-- The premises of clause 6 of FunctionControl hold together. -/
theorem premises_FunctionControl_6 : ∃ (s : State) (ch : Chan) (i : Nat),
    s.blk.delivers ch 0x0101 ∧
    s.blk.backFree ch ∧
    (chFn ch = 0 ∨ chFn ch = 64) ∧
    (mreg (s.blk.msgWords ch) 1).fld 17 16 = 1 ∧
    (mreg (s.blk.msgWords ch) 1).fld 1 0 = 2 ∧
    i = (mreg (s.blk.msgWords ch) 1).fld 15 8 ∧
    i < 128 ∧
    s.blk.setState i = 0 ∧
    s.blk.stackTrained (setStack i) = true :=
  ⟨b38 2 0 [0x02000101, 65794], .fn 0 0, 1, by decide +kernel⟩

/-- The premises of clause 7 of FunctionControl hold together. -/
theorem premises_FunctionControl_7 : ∃ (s : State) (ch : Chan) (i n g : Nat) (b : Block),
    s.blk.delivers ch 0x0101 ∧
    s.blk.backFree ch ∧
    (chFn ch = 0 ∨ chFn ch = 64) ∧
    (mreg (s.blk.msgWords ch) 1).fld 17 16 = 2 ∧
    (mreg (s.blk.msgWords ch) 1).fld 1 0 = 3 ∧
    i = (mreg (s.blk.msgWords ch) 1).fld 15 8 ∧
    i < 192 ∧
    n = i / 8 ∧
    g = i % 8 ∧
    (mreg (s.blk.msgWords ch) 2).fld 15 0 = 0 ∧
    s.blk.cgState n g = 2 ∧
    (s.blk.msgTaken ch).leaveGroup n g = some b ∧
    b.backFree ch :=
  ⟨(st (msg ((b19 2 2 2).ledRenew (pageLedger 0 0) 1000000) (.fn 0 0) [0x02000101, 131331])), .fn 0 0, 1, 0, 1, (((st (msg ((b19 2 2 2).ledRenew (pageLedger 0 0) 1000000) (.fn 0 0) [0x02000101, 131331])).blk.msgTaken (.fn 0 0)).leaveGroup 0 1).getD b0, by decide +kernel⟩

/-- The premises of clause 8 of FunctionControl hold together. -/
theorem premises_FunctionControl_8 : ∃ (s : State) (ch : Chan) (i n g : Nat),
    s.blk.delivers ch 0x0101 ∧
    s.blk.backFree ch ∧
    (chFn ch = 0 ∨ chFn ch = 64) ∧
    (mreg (s.blk.msgWords ch) 1).fld 17 16 = 2 ∧
    (mreg (s.blk.msgWords ch) 1).fld 1 0 = 3 ∧
    i = (mreg (s.blk.msgWords ch) 1).fld 15 8 ∧
    i < 192 ∧
    n = i / 8 ∧
    g = i % 8 ∧
    (mreg (s.blk.msgWords ch) 2).fld 15 0 = 0 ∧
    s.blk.cgState n g = 2 ∧
    (s.blk.msgTaken ch).leaveGroup n g = none :=
  ⟨(st (msg { b19 2 2 2 with led := [] } (.fn 0 0) [0x02000101, 131331])), .fn 0 0, 1, 0, 1, by decide +kernel⟩

/-- The premises of clause 9 of FunctionControl hold together. -/
theorem premises_FunctionControl_9 : ∃ (s : State) (k n g : Nat),
    k < 192 ∧
    n = k / 8 ∧
    g = k % 8 ∧
    s.blk.cgState n g = 1 ∧
    s.blk.stackTrained n = true :=
  ⟨st (b19 2 1 2), 1, 0, 1, by decide +kernel⟩

/-- The premises of clause 10 of FunctionControl hold together. -/
theorem premises_FunctionControl_10 : ∃ (s : State) (k : Nat),
    (192 ≤ k ∨ s.blk.cgState (k / 8) (k % 8) ≠ 1) :=
  ⟨st (b19 2 2 2), 1, by decide +kernel⟩

/-- The premises of clause 11 of FunctionControl hold together. -/
theorem premises_FunctionControl_11 : ∃ (s : State) (k n g : Nat),
    k < 192 ∧
    n = k / 8 ∧
    g = k % 8 ∧
    s.blk.cgState n g = 3 :=
  ⟨st (b19 2 3 2), 1, 0, 1, by decide +kernel⟩

/-- The premises of clause 12 of FunctionControl hold together. -/
theorem premises_FunctionControl_12 : ∃ (s : State) (k : Nat),
    (192 ≤ k ∨ s.blk.cgState (k / 8) (k % 8) ≠ 3) :=
  ⟨st (b19 2 2 2), 1, by decide +kernel⟩

/-- The premises of clause 13 of FunctionControl hold together. -/
theorem premises_FunctionControl_13 : ∃ (s : State) (n d phys k : Nat),
    tileRemapReady n s.blk = true ∧
    d = n / 64 ∧
    phys = s.blk.fld (FLOE_ID n) 14 8 ∧
    (s.blk.retirePhys d phys).freeSpare d = some k :=
  ⟨st (b39 false), 9, 0, 9, 0, by decide +kernel⟩

/-- The premises of clause 14 of FunctionControl hold together. -/
theorem premises_FunctionControl_14 : ∃ (s : State) (n d phys : Nat),
    tileRemapReady n s.blk = true ∧
    d = n / 64 ∧
    phys = s.blk.fld (FLOE_ID n) 14 8 ∧
    (s.blk.retirePhys d phys).freeSpare d = none ∧
    s.blk.jobs.all (fun e => e.2.state != .saved) = true :=
  ⟨st (b39 true), 9, 0, 9, by decide +kernel⟩

/-- The premises of clause 15 of FunctionControl hold together. -/
theorem premises_FunctionControl_15 : ∃ (s : State) (n : Nat),
    tileRemapReady n s.blk = false :=
  ⟨st (b39 true), 8, by decide +kernel⟩

/-! ### Premises, part 13 -/

/-- A READY module at work, with REFCLK lost or not, and its domains `m` on the alternate reference. -/
def b40 (lost : Bool) (m : Nat) : Block :=
  ((((b36.wr MOR_START 9).wb CLK_STATUS 0 (!lost)).wb CLK_STATUS 1 lost).wb CLK_STATUS 3 true).wf CLK_SEL 2 0 m


/-- The premises of clause 1 of ReferenceClock hold together. -/
theorem premises_ReferenceClock_1 : ∃ (s : State) (cause moved stay : Nat),
    s.blk.monitorOn = true ∧
    s.blk.bit CLK_STATUS 1 = false ∧
    moved = (if s.blk.bit CLK_ALT_CFG 5 && s.blk.altReady then 7 - s.blk.onAlt else 0) ∧
    stay = 7 - s.blk.onAlt - moved + 8 ∧
    (stay.testBit 2 = false ∨ (List.range 16).all (fun p => !s.blk.portUp p) = true) :=
  ⟨st (((b40 false 1).wf CLK_ALT_CFG 3 0 3).wf CLK_ALT_CFG 5 4 3), 1, 6, 8, by decide +kernel⟩

/-- The premises of clause 2 of ReferenceClock hold together. -/
theorem premises_ReferenceClock_2 : ∃ (s : State) (cause : Nat),
    s.blk.monitorOn = true ∧
    s.blk.bit CLK_STATUS 1 = false :=
  ⟨st (b40 false 1), 1, by decide +kernel⟩

/-- The premises of clause 3 of ReferenceClock hold together. -/
theorem premises_ReferenceClock_3 : ∃ (s : State) (cause : Nat),
    s.blk.monitorOn = true ∧
    s.blk.bit CLK_STATUS 1 = true :=
  ⟨st (b40 true 1), 1, by decide +kernel⟩

/-- The premises of clause 4 of ReferenceClock hold together. -/
theorem premises_ReferenceClock_4 : ∃ (s : State) (cause : Nat),
    s.blk.monitorOn = false :=
  ⟨st (b36.wr MOR_START 0x14), 1, by decide +kernel⟩

/-- The premises of clause 5 of ReferenceClock hold together. -/
theorem premises_ReferenceClock_5 : ∃ (s : State) (us : Nat),
    s.blk.monitorOn = true ∧
    s.blk.refOk = false :=
  ⟨st (b40 true 0), 50, by decide +kernel⟩

/-- The premises of clause 6 of ReferenceClock hold together. -/
theorem premises_ReferenceClock_6 : ∃ (s : State) (us : Nat),
    (s.blk.monitorOn = false ∨ s.blk.refOk = true) :=
  ⟨st (b40 false 0), 50, by decide +kernel⟩

/-- The premises of clause 7 of ReferenceClock hold together. -/
theorem premises_ReferenceClock_7 : ∃ (s : State),
    s.blk.bit CLK_STATUS 3 = true ∧
    s.blk.onAlt = 0 :=
  ⟨st (b40 false 0), by decide +kernel⟩

/-- The premises of clause 8 of ReferenceClock hold together. -/
theorem premises_ReferenceClock_8 : ∃ (s : State),
    s.blk.bit CLK_STATUS 3 = true ∧
    s.blk.onAlt ≠ 0 ∧
    s.blk.refOk = true :=
  ⟨st (b40 false 5), by decide +kernel⟩

/-- The premises of clause 9 of ReferenceClock hold together. -/
theorem premises_ReferenceClock_9 : ∃ (s : State),
    s.blk.bit CLK_STATUS 3 = true ∧
    s.blk.onAlt ≠ 0 ∧
    s.blk.refOk = false ∧
    (s.blk.onAlt.testBit 2 = false ∨ (List.range 16).all (fun p => !s.blk.portUp p) = true) :=
  ⟨st (b40 true 3), by decide +kernel⟩

/-- The premises of clause 10 of ReferenceClock hold together. -/
theorem premises_ReferenceClock_10 : ∃ (s : State),
    s.blk.bit CLK_STATUS 3 = false :=
  ⟨st b36, by decide +kernel⟩

/-- The premises of clause 11 of ReferenceClock hold together. -/
theorem premises_ReferenceClock_11 : ∃ (s : State) (i n : Nat) (v : Word),
    (i = 0 ∨ i = 64) ∧
    n = v.fld 2 0 ∧
    (n = 0 ∨ s.blk.altReady = true) ∧
    (n = 7 ∨ s.blk.refOk = true) :=
  ⟨st ((((b40 false 1).wf CLK_ALT_CFG 3 0 3).wb CLK_ALT_CFG 4 true).wf (ESK_STATE 3) 1 0 2), 0, 5, 5, by decide +kernel⟩

/-- The premises of clause 12 of ReferenceClock hold together. -/
theorem premises_ReferenceClock_12 : ∃ (s : State) (i n : Nat) (v : Word),
    (i = 0 ∨ i = 64) ∧
    n = v.fld 2 0 ∧
    (n ≠ 0 ∧ s.blk.altReady = false ∨ n ≠ 7 ∧ s.blk.refOk = false) :=
  ⟨st (b40 false 0), 0, 3, 3, by decide +kernel⟩

/-- The premises of clause 13 of ReferenceClock hold together. -/
theorem premises_ReferenceClock_13 : ∃ (s : State) (i : Nat) (v : Word),
    i ≠ 0 ∧
    i ≠ 64 :=
  ⟨st b36, 1, 3, by decide +kernel⟩

/-- The premises of clause 1 of PowerFaults hold together. -/
theorem premises_PowerFaults_1 : ∃ (s : State) (i : Instr) (mv : Nat),
    (i = .vinLow mv ∧ mv < 35000 ∨ i = .vinHigh mv ∧ 62000 < mv) ∧
    s.blk.start.input = true ∧
    s.blk.latched = false ∧
    s.blk.pwr.pwrGood = true :=
  ⟨st b36, .vinHigh 65000, 65000, by decide +kernel⟩

/-- The premises of clause 2 of PowerFaults hold together. -/
theorem premises_PowerFaults_2 : ∃ (s : State) (i : Instr) (mv : Nat),
    (i = .vinLow mv ∧ mv < 35000 ∨ i = .vinHigh mv ∧ 62000 < mv) ∧
    s.blk.start.input = true ∧
    s.blk.latched = true :=
  ⟨st (b36.wb THM_STATE 16 true), .vinLow 30000, 30000, by decide +kernel⟩

/-- The premises of clause 3 of PowerFaults hold together. -/
theorem premises_PowerFaults_3 : ∃ (s : State) (mv : Nat),
    (s.blk.start.input = false ∨ 35000 ≤ mv) :=
  ⟨st b36, 35000, by decide +kernel⟩

/-- The premises of clause 4 of PowerFaults hold together. -/
theorem premises_PowerFaults_4 : ∃ (s : State) (mv : Nat),
    (s.blk.start.input = false ∨ mv ≤ 62000) :=
  ⟨st b36, 62000, by decide +kernel⟩

/-- The premises of clause 5 of PowerFaults hold together. -/
theorem premises_PowerFaults_5 : ∃ (s : State) (rail mv : Nat),
    s.blk.pwr.pwrGood = true ∧
    rail < 9 :=
  ⟨st b36, 8, 900, by decide +kernel⟩

/-- The premises of clause 6 of PowerFaults hold together. -/
theorem premises_PowerFaults_6 : ∃ (s : State) (rail mv : Nat),
    (s.blk.pwr.pwrGood = false ∨ 9 ≤ rail) :=
  ⟨st b36, 9, 900, by decide +kernel⟩

/-- The premises of clause 1 of SensorsAndTrips hold together. -/
theorem premises_SensorsAndTrips_1 : ∃ (s : State) (n : Nat) (temp : Int) (ok : Bool),
    n < 560 ∧
    s.blk.pwr.pwrGood = true ∧
    temp < tripAt n :=
  ⟨st b36, 303, -40, false, by decide +kernel⟩

/-- The premises of clause 2 of SensorsAndTrips hold together. -/
theorem premises_SensorsAndTrips_2 : ∃ (s : State) (n : Nat) (temp : Int),
    n < 304 ∧
    s.blk.pwr.pwrGood = true ∧
    tripAt n ≤ temp ∧
    s.blk.bit (THM_SENSOR n) 11 = true ∧
    tget 0 s.blk.pwr.atTrip n = 0 :=
  ⟨st b36, 303, 480, by decide +kernel⟩

/-- The premises of clause 3 of SensorsAndTrips hold together. -/
theorem premises_SensorsAndTrips_3 : ∃ (s : State) (n : Nat) (temp : Int),
    n < 304 ∧
    s.blk.pwr.pwrGood = true ∧
    tripAt n ≤ temp ∧
    s.blk.bit (THM_SENSOR n) 11 = true ∧
    1 ≤ tget 0 s.blk.pwr.atTrip n :=
  ⟨st { b36 with pwr := { b36.pwr with atTrip := [(303, 1)] } }, 303, 500, by decide +kernel⟩

/-- The premises of clause 4 of SensorsAndTrips hold together. -/
theorem premises_SensorsAndTrips_4 : ∃ (s : State) (n : Nat) (temp : Int) (ok : Bool),
    (560 ≤ n ∨ s.blk.pwr.pwrGood = false) :=
  ⟨st b36, 560, 500, true, by decide +kernel⟩

/-- The premises of clause 5 of SensorsAndTrips hold together. -/
theorem premises_SensorsAndTrips_5 : ∃ (s : State) (src index : Nat) (temp : Int),
    s.blk.pwr.pwrGood = true ∧
    s.blk.latched = false ∧
    src < 2 ∧
    index < 560 :=
  ⟨st b36, 1, 23, 430, by decide +kernel⟩

/-- The premises of clause 6 of SensorsAndTrips hold together. -/
theorem premises_SensorsAndTrips_6 : ∃ (s : State) (src index : Nat) (temp : Int),
    (s.blk.pwr.pwrGood = false ∨ s.blk.latched = true ∨ 2 ≤ src) :=
  ⟨st b36, 2, 23, 430, by decide +kernel⟩

/-! ### Premises, part 14 -/

/-- A vector whose first sector is marked, with a golden copy in the host. -/
def objR : Obj :=
  { obj0 with golden := 1, g0 := 0x7000, data := { cells := [(0, 5), (40, 6)], poison := [0] }, frames := [freshFrame 0 0 4 0 0] }
/-- A module whose stacks are trained, with that vector. -/
def b41 : Block :=
  let b : Block := loop 24 (fun n b => b.wb (STK_STATE n) 16 true) b36
  { b with objs := [(0, { live := [(5, objR)], gens := [(5, 2)] })], env := { b.env with hostMem := [(0x7001, 9)] } }
/-- The same vector without a golden copy, a line of it held in the cache. -/
def b52 : Block :=
  { b41 with objs := [(0, { live := [(5, { objR with golden := 0 })], gens := [(5, 2)] })], 
             msc := [(0, [{ part := 0, handle := h0, line := 0, stack := 4, under := [], keep := false, uses := none, dirty := true }])] }
/-- The same with the re-fetch of its frame under way. -/
def b42 (bad : Bool) : Block :=
  let b : Block := b41.startRefetch 0 h0 0
  { b with env := { b.env with hostUnmapped := if bad then [7] else [] } }


/-- The premises of clause 1 of PatrolAndPaths hold together. -/
theorem premises_PatrolAndPaths_1 : ∃ (s : State) (n core bank row : Nat) (r : EccResult) (obj : Option (Nat × Word × Nat)),
    patrolOn n s.blk = true ∧
    (r = .clean ∨ r = .storedPoison) :=
  ⟨st b41, 4, 1, 2, 3, .clean, none, by decide +kernel⟩

/-- The premises of clause 2 of PatrolAndPaths hold together. -/
theorem premises_PatrolAndPaths_2 : ∃ (s : State) (n core bank row k : Nat) (obj : Option (Nat × Word × Nat)),
    patrolOn n s.blk = true ∧
    k = rowKey core bank row ∧
    (s.blk.stackErr n).count k + 1 < s.blk.rowMax :=
  ⟨st b41, 4, 1, 2, 3, rowKey 1 2 3, none, by decide +kernel⟩

/-- The premises of clause 3 of PatrolAndPaths hold together. -/
theorem premises_PatrolAndPaths_3 : ∃ (s : State) (n core bank row k u : Nat) (obj : Option (Nat × Word × Nat)),
    patrolOn n s.blk = true ∧
    k = rowKey core bank row ∧
    s.blk.rowMax ≤ (s.blk.stackErr n).count k + 1 ∧
    u = tget 0 (s.blk.stackErr n).spares (bankKey core bank) ∧
    u < spareRows :=
  ⟨st (b41.wf ERR_CFG 7 0 1), 4, 1, 2, 3, rowKey 1 2 3, 0, none, by decide +kernel⟩

/-- The premises of clause 4 of PatrolAndPaths hold together. -/
theorem premises_PatrolAndPaths_4 : ∃ (s : State) (n core bank row u : Nat),
    patrolOn n s.blk = true ∧
    u = tget 0 (s.blk.stackErr n).spares (bankKey core bank) ∧
    u < spareRows :=
  ⟨st b41, 4, 1, 2, 3, 0, by decide +kernel⟩

/-- The premises of clause 5 of PatrolAndPaths hold together. -/
theorem premises_PatrolAndPaths_5 : ∃ (s : State) (n core bank row p off : Nat) (h : Word) (o : Obj),
    patrolOn n s.blk = true ∧
    tget 0 (s.blk.stackErr n).spares (bankKey core bank) < spareRows ∧
    s.blk.byHandle p h = some o ∧
    h ≠ 0 ∧
    (∀ e, e ∈ s.blk.msc → ∀ x, x ∈ e.2 → ¬(x.part = p ∧ x.handle = h ∧ x.line = off / 256)) :=
  ⟨st b41, 4, 1, 2, 3, 0, 64, h0, objR, by decide +kernel⟩

/-- The premises of clause 6 of PatrolAndPaths hold together. -/
theorem premises_PatrolAndPaths_6 : ∃ (s : State) (n core bank row p off : Nat) (h : Word) (o : Obj),
    patrolOn n s.blk = true ∧
    tget 0 (s.blk.stackErr n).spares (bankKey core bank) < spareRows ∧
    s.blk.byHandle p h = some o ∧
    o.golden = 0 ∧
    (∃ e, e ∈ s.blk.msc ∧ ∃ x, x ∈ e.2 ∧ x.part = p ∧ x.handle = h ∧ x.line = off / 256) :=
  ⟨st b52, 4, 1, 2, 3, 0, 64, h0, { objR with golden := 0 }, by decide +kernel⟩

/-- The premises of clause 7 of PatrolAndPaths hold together. -/
theorem premises_PatrolAndPaths_7 : ∃ (s : State) (n core bank row : Nat) (r : EccResult) (obj : Option (Nat × Word × Nat)),
    patrolOn n s.blk = false :=
  ⟨st b41, 24, 1, 2, 3, .corrected, none, by decide +kernel⟩

/-- The premises of clause 8 of PatrolAndPaths hold together. -/
theorem premises_PatrolAndPaths_8 : ∃ (s : State) (n : Nat),
    Tbl.wf (fun _ => StackErr.reset) s.blk.err.stk = true ∧
    ((s.blk.stackErr n).rows.map (·.1)).Nodup :=
  ⟨st { b41 with err := { b41.err with stk := [(4, { StackErr.reset with rows := [(7, 5), (9, 1)] })] } }, 4, by decide +kernel⟩

/-- The premises of clause 9 of PatrolAndPaths hold together. -/
theorem premises_PatrolAndPaths_9 : ∃ (s : State) (n ch bit u : Nat),
    s.blk.pwr.pwrGood = true ∧
    n < 24 ∧
    ch < 16 ∧
    bit < 128 ∧
    s.blk.stackTrained n = true ∧
    u = tget 0 (s.blk.stackErr n).paths ch ∧
    u < sparePaths :=
  ⟨st b41, 4, 15, 127, 0, by decide +kernel⟩

/-- The premises of clause 10 of PatrolAndPaths hold together. -/
theorem premises_PatrolAndPaths_10 : ∃ (s : State) (n ch bit : Nat),
    s.blk.pwr.pwrGood = true ∧
    n < 24 ∧
    ch < 16 ∧
    bit < 128 ∧
    s.blk.stackTrained n = true ∧
    sparePaths ≤ tget 0 (s.blk.stackErr n).paths ch ∧
    (s.blk.cgState n (ch / 2) = 0 ∨ s.blk.cgState n (ch / 2) = 3) :=
  ⟨st ({ b41 with err := { b41.err with stk := [(4, { StackErr.reset with paths := [(15, 2)] })] } }.wf (STK_STATE 4) 15 14 0), 4, 15, 127, by decide +kernel⟩

/-- The premises of clause 11 of PatrolAndPaths hold together. -/
theorem premises_PatrolAndPaths_11 : ∃ (s : State) (n ch bit : Nat),
    s.blk.pwr.pwrGood = true ∧
    n < 24 ∧
    ch < 16 ∧
    bit < 128 ∧
    s.blk.stackTrained n = true ∧
    sparePaths ≤ tget 0 (s.blk.stackErr n).paths ch ∧
    (s.blk.cgState n (ch / 2) = 1 ∨ s.blk.cgState n (ch / 2) = 2) :=
  ⟨st ({ b41 with err := { b41.err with stk := [(4, { StackErr.reset with paths := [(15, 2)] })] } }.wf (STK_STATE 4) 15 14 2), 4, 15, 127, by decide +kernel⟩

/-- The premises of clause 12 of PatrolAndPaths hold together. -/
theorem premises_PatrolAndPaths_12 : ∃ (s : State) (n ch bit : Nat),
    (24 ≤ n ∨ 16 ≤ ch ∨ 128 ≤ bit ∨ s.blk.pwr.pwrGood = false) :=
  ⟨st b41, 4, 16, 127, by decide +kernel⟩

/-- The premises of clause 1 of Refetches hold together. -/
theorem premises_Refetches_1 : ∃ (s : State) (p fr : Nat) (h : Word) (o : Obj),
    refetchReady p h fr s.blk = true ∧
    s.blk.byHandle p h = some o ∧
    o.golden = 1 ∧
    s.blk.intact :=
  ⟨st (b42 false), 0, 0, h0, objR, by decide +kernel⟩

/-- The premises of clause 2 of Refetches hold together. -/
theorem premises_Refetches_2 : ∃ (s : State) (p fr : Nat) (h : Word),
    refetchReady p h fr s.blk = true ∧
    s.blk.byHandle p h = none :=
  ⟨st { b42 false with objs := [] }, 0, 0, h0, by decide +kernel⟩

/-- The premises of clause 3 of Refetches hold together. -/
theorem premises_Refetches_3 : ∃ (s : State) (p fr : Nat) (h : Word),
    refetchReady p h fr s.blk = false :=
  ⟨st b41, 0, 0, h0, by decide +kernel⟩

/-- The premises of clause 4 of Refetches hold together. -/
theorem premises_Refetches_4 : ∃ (s : State) (p fr : Nat) (h : Word) (r : Refetch),
    refetchFails p h fr s.blk = true ∧
    s.blk.refetchOf p h fr = some r :=
  ⟨st (b42 true), 0, 0, h0, { part := 0, handle := h0, frame := 0, began := 0, failing := false }, by decide +kernel⟩

/-- The premises of clause 5 of Refetches hold together. -/
theorem premises_Refetches_5 : ∃ (s : State) (p fr : Nat) (h : Word),
    refetchFails p h fr s.blk = false :=
  ⟨st (b42 false), 0, 0, h0, by decide +kernel⟩

/-- The premises of clause 6 of Refetches hold together. -/
theorem premises_Refetches_6 : ∃ (s : State) (p fr : Nat) (h : Word) (o : Obj),
    refetchLate p h fr s.blk = true ∧
    s.blk.byHandle p h = some o :=
  ⟨st { (b42 true).setPair CLK_TB_LO 2000000000 with err := { (b42 true).err with refetches := [{ part := 0, handle := h0, frame := 0, began := 0, failing := true }] } }, 0, 0, h0, objR, by decide +kernel⟩

/-- The premises of clause 7 of Refetches hold together. -/
theorem premises_Refetches_7 : ∃ (s : State) (p fr : Nat) (h : Word),
    refetchLate p h fr s.blk = false :=
  ⟨st (b42 true), 0, 0, h0, by decide +kernel⟩

/-! ### Premises, part 15 -/

/-- A loaded module whose life-cycle state in force is `v`, with its fuses. -/
def b43 (v : Nat) : Block :=
  let f : Fuses := Fuses.reset
  let f : Fuses := { f with floors := List.replicate 8 0, ownerDigest := List.replicate 48 0, idSeed := List.replicate 32 0 }
  let f : Fuses := if v = 1 then { f with develop := LcBit.set } else if v = 2 then { f with field := LcBit.set } else f
  let b : Block := (b36.wf MOR_LC 2 0 v).wr (RIME_VERSION 3) 0x05000001
  { b with trust := { b.trust with fuses := f, nonces := [(0, List.replicate 32 7)] } }
/-- The words of LC_ADVANCE to DEVELOP with a digest. -/
def adv : List Word := [0x02000A02, 1] ++ (List.range 12).map fun i => w32 (i + 1)
/-- A link key. -/
def key0 : LinkKey := { id := 5, salt := 6, key := List.replicate 8 7 }
/-- A FIELD module with an encrypted port 3 and a key in its other slot. -/
def b44 : Block := { (b43 2).wb (ESK_STATE 3) 10 true with trust := { (b43 2).trust with keys := [(13, key0)] } }


/-- The premises of clause 1 of LifeCycle hold together. -/
theorem premises_LifeCycle_1 : ∃ (s : State) (ch : Chan),
    s.blk.delivers ch 0x0A01 ∧
    s.blk.backFree ch ∧
    (s.blk.scrapped = true ∨ s.blk.fw.loaded = true) :=
  ⟨st (msg (b43 2) .s1 [0x02000A01]), .s1, by decide +kernel⟩

/-- The premises of clause 2 of LifeCycle hold together. -/
theorem premises_LifeCycle_2 : ∃ (s : State) (ch : Chan),
    s.blk.delivers ch 0x0A01 ∧
    s.blk.backFree ch ∧
    s.blk.scrapped = false ∧
    s.blk.fw.loaded = false :=
  ⟨st (msg b34 .s1 [0x02000A01]), .s1, by decide +kernel⟩

/-- The premises of clause 3 of LifeCycle hold together. -/
theorem premises_LifeCycle_3 : ∃ (s : State) (i : Instr) (ch : Chan) (ty st : Nat) (only : Bool),
    Instr.trust i = some (ch, ty, only) ∧
    s.blk.delivers ch ty ∧
    s.blk.backFree ch ∧
    st = (if only && ch != .s0 then DENIED 0x10 else if s.blk.scrapped then DENIED 0x0B else if s.blk.fw.loaded then 0 else NOT_READY 0x11) ∧
    st ≠ 0 :=
  ⟨st (msg (b43 4) .s1 [0x02000A07]), .attest .s1, .s1, 0x0A07, DENIED 0x0B, false, by decide +kernel⟩

/-- The premises of clause 4 of LifeCycle hold together. -/
theorem premises_LifeCycle_4 : ∃ (s : State) (ch : Chan) (want : List Byte),
    s.blk.trusts ch 0x0A02 ∧
    s.blk.lcPending = false ∧
    s.blk.lcState = 0 ∧
    (mreg (s.blk.msgWords ch) 1).toNat = 1 ∧
    want = wordsBytes ((List.range 12).map fun i => mreg (s.blk.msgWords ch) (2 + i)) ∧
    covers s.blk.trust.fuses.ownerDigest want = true :=
  ⟨st (msg (b43 0) .s0 adv), .s0, wordsBytes ((List.range 12).map fun i => w32 (i + 1)), by decide +kernel⟩

/-- The premises of clause 5 of LifeCycle hold together. -/
theorem premises_LifeCycle_5 : ∃ (s : State) (ch : Chan),
    s.blk.trusts ch 0x0A02 ∧
    s.blk.lcPending = false ∧
    s.blk.lcState = 1 ∧
    (mreg (s.blk.msgWords ch) 1).toNat = 2 :=
  ⟨st (msg (b43 1) .s0 [0x02000A02, 2]), .s0, by decide +kernel⟩

/-- The premises of clause 6 of LifeCycle hold together. -/
theorem premises_LifeCycle_6 : ∃ (s : State) (ch : Chan) (st : Nat),
    s.blk.trusts ch 0x0A02 ∧
    st = (if s.blk.lcPending then BUSY 0x05 else if s.blk.lcState = 0 ∧ (mreg (s.blk.msgWords ch) 1).toNat = 1 ∨ s.blk.lcState = 1 ∧ (mreg (s.blk.msgWords ch) 1).toNat = 2 then OK else REFUSED 0x04) ∧
    st ≠ OK :=
  ⟨st (msg (b43 2) .s0 [0x02000A02, 1]), .s0, REFUSED 0x04, by decide +kernel⟩

/-- The premises of clause 7 of LifeCycle hold together. -/
theorem premises_LifeCycle_7 : ∃ (s : State) (ch : Chan) (id v : Nat),
    s.blk.trusts ch 0x0A05 ∧
    (s.blk.lcState = 1 ∨ s.blk.lcState = 2) ∧
    id = (mreg (s.blk.msgWords ch) 1).toNat ∧
    v = (mreg (s.blk.msgWords ch) 2).toNat ∧
    id ≤ 7 ∧
    v ≤ 64 ∧
    v ≤ (s.blk.versionOf id).fld 31 24 ∧
    s.blk.trust.fuses.floors.getD id 0 < v ∧
    id < s.blk.trust.fuses.floors.length :=
  ⟨st (msg (b43 2) .s0 [0x02000A05, 3, 5]), .s0, 3, 5, by decide +kernel⟩

/-- The premises of clause 8 of LifeCycle hold together. -/
theorem premises_LifeCycle_8 : ∃ (s : State) (ch : Chan) (id v : Nat),
    s.blk.trusts ch 0x0A05 ∧
    (s.blk.lcState = 1 ∨ s.blk.lcState = 2) ∧
    id = (mreg (s.blk.msgWords ch) 1).toNat ∧
    v = (mreg (s.blk.msgWords ch) 2).toNat ∧
    id ≤ 7 ∧
    v ≤ 64 ∧
    v ≤ (s.blk.versionOf id).fld 31 24 ∧
    v ≤ s.blk.trust.fuses.floors.getD id 0 :=
  ⟨st (msg (b43 2) .s0 [0x02000A05, 3, 0]), .s0, 3, 0, by decide +kernel⟩

/-- The premises of clause 9 of LifeCycle hold together. -/
theorem premises_LifeCycle_9 : ∃ (s : State) (ch : Chan) (id v st : Nat),
    s.blk.trusts ch 0x0A05 ∧
    id = (mreg (s.blk.msgWords ch) 1).toNat ∧
    v = (mreg (s.blk.msgWords ch) 2).toNat ∧
    st = (if s.blk.lcState ≠ 1 ∧ s.blk.lcState ≠ 2 then DENIED 0x0A else if 7 < id ∨ 64 < v ∨ (s.blk.versionOf id).fld 31 24 < v then REFUSED 0x0C else OK) ∧
    st ≠ OK :=
  ⟨st (msg (b43 2) .s0 [0x02000A05, 3, 6]), .s0, 3, 6, REFUSED 0x0C, by decide +kernel⟩

/-- The premises of clause 1 of ReturnScrapAndDebug hold together. -/
theorem premises_ReturnScrapAndDebug_1 : ∃ (s : State) (v : Option Nat × Block),
    s.blk.trusts .s0 0x0A03 ∧
    s.blk.lcPending = false ∧
    s.blk.lcState = 2 ∧
    (s.blk.msgTaken .s0).hostReadStatus 0 (mpair (s.blk.msgWords .s0) 1) blobBytes = none ∧
    v = (s.blk.msgTaken .s0).judge .s0 (mpair (s.blk.msgWords .s0) 1) 2 s.blk.trust.fuses.vendorDigest true :=
  ⟨st (msg (b43 2) .s0 [0x02000A03, 0x10000, 0]), ((st (msg (b43 2) .s0 [0x02000A03, 0x10000, 0])).blk.msgTaken .s0).judge .s0 (mpair ((st (msg (b43 2) .s0 [0x02000A03, 0x10000, 0])).blk.msgWords .s0) 1) 2 (st (msg (b43 2) .s0 [0x02000A03, 0x10000, 0])).blk.trust.fuses.vendorDigest true, four (by decide +kernel) (rfl)⟩

/-- The premises of clause 2 of ReturnScrapAndDebug hold together. -/
theorem premises_ReturnScrapAndDebug_2 : ∃ (s : State),
    s.blk.trusts .s0 0x0A03 ∧
    kget s.blk.trust.nonces 0 = none ∧
    s.blk.lcPending = false ∧
    s.blk.lcState = 2 ∧
    (s.blk.msgTaken .s0).hostReadStatus 0 (mpair (s.blk.msgWords .s0) 1) blobBytes = none :=
  ⟨st (msg { b43 2 with trust := { (b43 2).trust with nonces := [] } } .s0 [0x02000A03, 0x10000, 0]), by decide +kernel⟩

/-- The premises of clause 3 of ReturnScrapAndDebug hold together. -/
theorem premises_ReturnScrapAndDebug_3 : ∃ (s : State) (st : Nat),
    s.blk.trusts .s0 0x0A03 ∧
    st = (if s.blk.lcPending then BUSY 0x05 else if s.blk.lcState ≠ 2 then REFUSED 0x04 else OK) ∧
    st ≠ OK :=
  ⟨st (msg (b43 1) .s0 [0x02000A03, 0x10000, 0]), REFUSED 0x04, by decide +kernel⟩

/-- The premises of clause 4 of ReturnScrapAndDebug hold together. -/
theorem premises_ReturnScrapAndDebug_4 : ∃ (s : State) (ch : Chan),
    s.blk.trusts ch 0x0A04 ∧
    (mreg (s.blk.msgWords ch) 1).fld 15 0 = 0x5C2A :=
  ⟨st (msg { b43 2 with parts := [(0, part1)] } .s1 [0x02000A04, 0x5C2A]), .s1, by decide +kernel⟩

/-- The premises of clause 5 of ReturnScrapAndDebug hold together. -/
theorem premises_ReturnScrapAndDebug_5 : ∃ (s : State) (ch : Chan),
    s.blk.trusts ch 0x0A04 ∧
    (mreg (s.blk.msgWords ch) 1).fld 15 0 ≠ 0x5C2A :=
  ⟨st (msg (b43 2) .s1 [0x02000A04, 0x5C2B]), .s1, by decide +kernel⟩

/-- The premises of clause 6 of ReturnScrapAndDebug hold together. -/
theorem premises_ReturnScrapAndDebug_6 : ∃ (s : State) (v : Option Nat × Block),
    s.blk.trusts .s0 0x0A06 ∧
    s.blk.lcState = 1 ∧
    s.blk.encPorts = [] ∧
    s.blk.ideStreams = 0 ∧
    (s.blk.msgTaken .s0).hostReadStatus 0 (mpair (s.blk.msgWords .s0) 1) blobBytes = none ∧
    v = (s.blk.msgTaken .s0).judge .s0 (mpair (s.blk.msgWords .s0) 1) 1 s.blk.trust.fuses.ownerDigest s.blk.trust.fuses.ownerOk :=
  ⟨st (msg (b43 1) .s0 [0x02000A06, 0x10000, 0]), ((st (msg (b43 1) .s0 [0x02000A06, 0x10000, 0])).blk.msgTaken .s0).judge .s0 (mpair ((st (msg (b43 1) .s0 [0x02000A06, 0x10000, 0])).blk.msgWords .s0) 1) 1 (st (msg (b43 1) .s0 [0x02000A06, 0x10000, 0])).blk.trust.fuses.ownerDigest (st (msg (b43 1) .s0 [0x02000A06, 0x10000, 0])).blk.trust.fuses.ownerOk, four (by decide +kernel) ⟨by decide +kernel, rfl⟩⟩

/-- The premises of clause 7 of ReturnScrapAndDebug hold together. -/
theorem premises_ReturnScrapAndDebug_7 : ∃ (s : State) (st : Nat),
    s.blk.trusts .s0 0x0A06 ∧
    (s.blk.lcState = 2 ∧ st = DENIED 0x08 ∨ s.blk.lcState ≠ 1 ∧ s.blk.lcState ≠ 2 ∧ st = OK ∨ s.blk.lcState = 1 ∧ (s.blk.encPorts ≠ [] ∨ s.blk.ideStreams ≠ 0) ∧ st = BUSY 0x09) :=
  ⟨st (msg (b43 2) .s0 [0x02000A06, 0x10000, 0]), DENIED 0x08, by decide +kernel⟩

/-- The premises of clause 1 of AttestationAndKeys hold together. -/
theorem premises_AttestationAndKeys_1 : ∃ (s : State) (ch : Chan) (n : Nat) (r : List Byte),
    s.blk.trusts ch 0x0A07 ∧
    ((mreg (s.blk.msgWords ch) 1).bit 0 && ch == .s0) = false ∧
    n = s.blk.trust.reportCount + 1 ∧
    r = s.blk.report (wordsBytes ((List.range 8).map fun i => mreg (s.blk.msgWords ch) (2 + i))) n :=
  ⟨st (msg (b43 2) .s1 [0x02000A07, 0, 1, 2, 3]), .s1, 1, (st (msg (b43 2) .s1 [0x02000A07, 0, 1, 2, 3])).blk.report (wordsBytes ((List.range 8).map fun i => mreg ((st (msg (b43 2) .s1 [0x02000A07, 0, 1, 2, 3])).blk.msgWords .s1) (2 + i))) 1, two (by decide +kernel) ⟨by decide +kernel, rfl⟩⟩

/-- The premises of clause 2 of AttestationAndKeys hold together. -/
theorem premises_AttestationAndKeys_2 : ∃ (s : State) (a : Nat) (r : List Byte),
    s.blk.trusts .s0 0x0A07 ∧
    (mreg (s.blk.msgWords .s0) 1).bit 0 = true ∧
    s.blk.dmaStopped 0 = false ∧
    a = mpair (s.blk.msgWords .s0) 10 ∧
    s.blk.hostOk a reportBytes = true ∧
    r = s.blk.report (wordsBytes ((List.range 8).map fun i => mreg (s.blk.msgWords .s0) (2 + i))) (s.blk.trust.reportCount + 1) :=
  ⟨st (msg { b43 2 with fns := [] } .s0 [0x02000A07, 1, 1, 2, 3, 4, 5, 6, 7, 8, 0x20000, 0]), 0x20000, (st (msg { b43 2 with fns := [] } .s0 [0x02000A07, 1, 1, 2, 3, 4, 5, 6, 7, 8, 0x20000, 0])).blk.report (wordsBytes ((List.range 8).map fun i => mreg ((st (msg { b43 2 with fns := [] } .s0 [0x02000A07, 1, 1, 2, 3, 4, 5, 6, 7, 8, 0x20000, 0])).blk.msgWords .s0) (2 + i))) 1, four (by decide +kernel) ⟨by decide +kernel, rfl⟩⟩

/-- The premises of clause 3 of AttestationAndKeys hold together. -/
theorem premises_AttestationAndKeys_3 : ∃ (s : State) (ch : Chan) (off : Nat) (r : List Byte),
    s.blk.trusts ch 0x0A08 ∧
    off = (mreg (s.blk.msgWords ch) 1).toNat ∧
    kget s.blk.trust.reports (pairIndex ch) = some r ∧
    off < r.length :=
  ⟨st (msg { b43 2 with trust := { (b43 2).trust with reports := [(1, List.replicate 60 9)] } } .s1 [0x02000A08, 52]), .s1, 52, List.replicate 60 9, by decide +kernel⟩

/-- The premises of clause 4 of AttestationAndKeys hold together. -/
theorem premises_AttestationAndKeys_4 : ∃ (s : State) (ch : Chan),
    s.blk.trusts ch 0x0A08 ∧
    (kget s.blk.trust.reports (pairIndex ch)).all (fun r => decide (r.length ≤ (mreg (s.blk.msgWords ch) 1).toNat)) = true :=
  ⟨st (msg (b43 2) .s1 [0x02000A08, 52]), .s1, by decide +kernel⟩

/-- The premises of clause 5 of AttestationAndKeys hold together. -/
theorem premises_AttestationAndKeys_5 : ∃ (s : State) (ch : Chan) (w : Word) (k : Nat),
    s.blk.trusts ch 0x0A09 ∧
    w = mreg (s.blk.msgWords ch) 1 ∧
    s.blk.keysAllowed = true ∧
    s.blk.slotUsed (w.fld 3 0) (w.fld 4 4) (w.fld 5 5) = false ∧
    k = w.fld 3 0 * 4 + w.fld 4 4 * 2 + w.fld 5 5 :=
  ⟨st (msg b44 .s0 [0x02000A09, 0x33, 5, 6]), .s0, 0x33, 15, by decide +kernel⟩

/-- The premises of clause 6 of AttestationAndKeys hold together. -/
theorem premises_AttestationAndKeys_6 : ∃ (s : State) (ch : Chan) (w : Word) (st : Nat),
    s.blk.trusts ch 0x0A09 ∧
    w = mreg (s.blk.msgWords ch) 1 ∧
    (s.blk.keysAllowed = false ∧ st = DENIED 0x0A ∨ s.blk.keysAllowed = true ∧ s.blk.slotUsed (w.fld 3 0) (w.fld 4 4) (w.fld 5 5) = true ∧ st = BUSY 0x0E) :=
  ⟨st (msg b44 .s0 [0x02000A09, 0x03, 5, 6]), .s0, 0x03, BUSY 0x0E, by decide +kernel⟩

/-- The premises of clause 7 of AttestationAndKeys hold together. -/
theorem premises_AttestationAndKeys_7 : ∃ (s : State) (ch : Chan) (p : Nat),
    s.blk.trusts ch 0x0A0A ∧
    p = (mreg (s.blk.msgWords ch) 1).fld 3 0 ∧
    (s.blk.keyId p 0 (1 - (s.blk.port p).sendSlot)).isSome = true :=
  ⟨st (msg b44 .s0 [0x02000A0A, 3]), .s0, 3, by decide +kernel⟩

/-- The premises of clause 8 of AttestationAndKeys hold together. -/
theorem premises_AttestationAndKeys_8 : ∃ (s : State) (ch : Chan) (p : Nat),
    s.blk.trusts ch 0x0A0A ∧
    p = (mreg (s.blk.msgWords ch) 1).fld 3 0 ∧
    s.blk.keyId p 0 (1 - (s.blk.port p).sendSlot) = none :=
  ⟨st (msg (b43 2) .s0 [0x02000A0A, 3]), .s0, 3, by decide +kernel⟩

/-- The premises of clause 9 of AttestationAndKeys hold together. -/
theorem premises_AttestationAndKeys_9 : ∃ (s : State) (n : Nat),
    s.blk.start.linkUp = true ∧
    s.blk.fw.loaded = true ∧
    s.blk.keysAllowed = true ∧
    n ≤ 4 :=
  ⟨st (b43 2), 4, by decide +kernel⟩

/-- The premises of clause 10 of AttestationAndKeys hold together. -/
theorem premises_AttestationAndKeys_10 : ∃ (s : State) (n : Nat),
    (s.blk.start.linkUp = false ∨ s.blk.fw.loaded = false ∨ s.blk.keysAllowed = false ∨ 4 < n) :=
  ⟨st (b43 1), 5, by decide +kernel⟩

/-- The premises of clause 11 of AttestationAndKeys hold together. -/
theorem premises_AttestationAndKeys_11 : ∃ (s : State) (k a : Nat),
    s.blk.coreUp 6 = true ∧
    pldmReg k = some a :=
  ⟨st (b43 2), 565, THM_STATE, by decide +kernel⟩

/-- The premises of clause 12 of AttestationAndKeys hold together. -/
theorem premises_AttestationAndKeys_12 : ∃ (s : State) (k : Nat),
    (s.blk.coreUp 6 = false ∨ pldmReg k = none) :=
  ⟨st (b43 2), 566, by decide +kernel⟩

/-! ### Premises, part 16 -/

/-- A record. -/
def rec0 (q : Nat) : IceRec :=
  { seq := q, hours := 1, seconds := 2, event := 0x0501, pcycles := 3, source := 0x16, lost := 0, data := [1, 2], time := 5 }
/-- A slot that holds it. -/
def slot0 (q : Nat) : IceSlot := { body := rec0 q, valid := .valid, crcOk := true }
/-- A scanned ice core with one permanent record and two in the ring. -/
def b45 : Block :=
  { b36 with ice := { b36.ice with scanned := true, perm := [(0, slot0 1)], ring := [(0, slot0 257), (1, slot0 258)], nextSlot := 2,
                                   last := 258, queue := [rec0 0, rec0 0], budget := 5 } }


/-- The premises of clause 1 of IceMessages hold together. -/
theorem premises_IceMessages_1 : ∃ (s : State) (ch : Chan),
    s.blk.delivers ch 0x0B01 ∧
    s.blk.backFree ch ∧
    s.blk.ice.scanned = true :=
  ⟨st (msg b45 .s1 [0x02000B01]), .s1, by decide +kernel⟩

/-- The premises of clause 2 of IceMessages hold together. -/
theorem premises_IceMessages_2 : ∃ (s : State) (i : Instr) (ch : Chan) (ty : Nat),
    (i = .iceStatus ch ∧ ty = 0x0B01 ∨ i = .iceRead ch ∧ ty = 0x0B02 ∨ i = .iceClear ch ∧ ty = 0x0B03) ∧
    s.blk.delivers ch ty ∧
    s.blk.backFree ch ∧
    s.blk.ice.scanned = false :=
  ⟨st (msg b36 .s1 [0x02000B02]), .iceRead .s1, .s1, 0x0B02, by decide +kernel⟩

/-- The premises of clause 3 of IceMessages hold together. -/
theorem premises_IceMessages_3 : ∃ (s : State) (ch : Chan) (q : Nat) (l : IceLatch),
    s.blk.delivers ch 0x0B02 ∧
    s.blk.backFree ch ∧
    s.blk.ice.scanned = true ∧
    q = (mreg (s.blk.msgWords ch) 1).toNat ∧
    (mreg (s.blk.msgWords ch) 2).bit 0 = false ∧
    l = s.blk.ice.read q :=
  ⟨st (msg b45 (.fn 5 3) [0x02000B02, 257]), .fn 5 3, 257, b45.ice.read 257, by decide +kernel⟩

/-- The premises of clause 4 of IceMessages hold together. -/
theorem premises_IceMessages_4 : ∃ (s : State) (ch : Chan) (l : IceLatch),
    s.blk.delivers ch 0x0B02 ∧
    s.blk.backFree ch ∧
    s.blk.ice.scanned = true ∧
    (mreg (s.blk.msgWords ch) 2).bit 0 = true ∧
    l = s.blk.ice.latch (iceKey ch) :=
  ⟨st (msg b45 (.fn 5 3) [0x02000B02, 257, 1]), .fn 5 3, b45.ice.latch 31, by decide +kernel⟩

/-- The premises of clause 5 of IceMessages hold together. -/
theorem premises_IceMessages_5 : ∃ (s : State) (ch : Chan),
    s.blk.delivers ch 0x0B03 ∧
    s.blk.backFree ch ∧
    s.blk.ice.scanned = true ∧
    (mreg (s.blk.msgWords ch) 1).fld 15 0 = 0x1CE0 :=
  ⟨st (msg b45 .s1 [0x02000B03, 0x1CE0]), .s1, by decide +kernel⟩

/-- The premises of clause 6 of IceMessages hold together. -/
theorem premises_IceMessages_6 : ∃ (s : State) (ch : Chan),
    s.blk.delivers ch 0x0B03 ∧
    s.blk.backFree ch ∧
    s.blk.ice.scanned = true ∧
    (mreg (s.blk.msgWords ch) 1).fld 15 0 ≠ 0x1CE0 :=
  ⟨st (msg b45 .s1 [0x02000B03, 0x1CE1]), .s1, by decide +kernel⟩

/-- The premises of clause 7 of IceMessages hold together. -/
theorem premises_IceMessages_7 : ∃ (s : State) (k : Nat) (x : IceSlot),
    s.blk.ice.clearing.isSome = true ∧
    s.blk.ice.hold = false ∧
    s.blk.start.powered = true ∧
    s.blk.ice.nextClear = some k ∧
    kget s.blk.ice.ring k = some x :=
  ⟨st { b45 with ice := { b45.ice with cleared := 258, clearing := some 258 } }, 1, slot0 258, by decide +kernel⟩

/-- The premises of clause 8 of IceMessages hold together. -/
theorem premises_IceMessages_8 : ∃ (s : State),
    s.blk.ice.clearing.isSome = true ∧
    s.blk.ice.hold = false ∧
    s.blk.start.powered = true ∧
    s.blk.ice.nextClear = none :=
  ⟨st { b45 with ice := { b45.ice with cleared := 258, clearing := some 258, ring := [] } }, by decide +kernel⟩

/-- The premises of clause 9 of IceMessages hold together. -/
theorem premises_IceMessages_9 : ∃ (s : State),
    (s.blk.ice.clearing = none ∨ s.blk.ice.hold = true ∨ s.blk.start.powered = false) :=
  ⟨st b45, by decide +kernel⟩

/-- The premises of clause 1 of IceWork hold together. -/
theorem premises_IceWork_1 : ∃ (s : State) (failures q : Nat) (r : IceRec) (l : List IceRec),
    iceCommitReady s.blk = true ∧
    s.blk.ice.queue = r :: l ∧
    failures < 3 ∧
    q = nextSeq s.blk.ice.last ∧
    s.blk.ice.perm.length < 256 ∧
    q ≤ 256 ∧
    kget s.blk.ice.perm s.blk.ice.perm.length = none :=
  ⟨st { b45 with ice := { b45.ice with last := 1 } }, 2, 2, rec0 0, [rec0 0], by decide +kernel⟩

/-- The premises of clause 2 of IceWork hold together. -/
theorem premises_IceWork_2 : ∃ (s : State) (failures q n nx : Nat) (r : IceRec) (l : List IceRec),
    iceCommitReady s.blk = true ∧
    s.blk.ice.queue = r :: l ∧
    failures < 3 ∧
    q = nextSeq s.blk.ice.last ∧
    (256 ≤ s.blk.ice.perm.length ∨ 256 < q) ∧
    n = s.blk.ice.nextSlot ∧
    nx = (n / 64 + 1) % (ringSlots / 64) ∧
    n < ringSlots :=
  ⟨st { b45 with ice := { b45.ice with nextSlot := 63 } }, 0, 259, 63, 1, rec0 0, [rec0 0], by decide +kernel⟩

/-- The premises of clause 3 of IceWork hold together. -/
theorem premises_IceWork_3 : ∃ (s : State) (failures : Nat) (r : IceRec) (l : List IceRec),
    iceCommitReady s.blk = true ∧
    s.blk.ice.queue = r :: l ∧
    3 ≤ failures :=
  ⟨st b45, 7, rec0 0, [rec0 0], by decide +kernel⟩

/-- The premises of clause 4 of IceWork hold together. -/
theorem premises_IceWork_4 : ∃ (s : State) (failures : Nat),
    iceCommitReady s.blk = false :=
  ⟨st b36, 0, by decide +kernel⟩

/-- The premises of clause 5 of IceWork hold together. -/
theorem premises_IceWork_5 : ∃ (s : State),
    s.blk.start.powered = true ∧
    s.blk.ice.scanned = false ∧
    s.blk.ice.hold = false :=
  ⟨st { b45 with ice := { b45.ice with scanned := false } }, by decide +kernel⟩

/-- The premises of clause 6 of IceWork hold together. -/
theorem premises_IceWork_6 : ∃ (s : State),
    (s.blk.start.powered = false ∨ s.blk.ice.scanned = true ∨ s.blk.ice.hold = true) :=
  ⟨st b45, by decide +kernel⟩

/-- The premises of clause 7 of IceWork hold together. -/
theorem premises_IceWork_7 : ∃ (s : State),
    s.blk.pwr.pwrGood = true :=
  ⟨st b45, by decide +kernel⟩

/-- The premises of clause 8 of IceWork hold together. -/
theorem premises_IceWork_8 : ∃ (s : State),
    s.blk.pwr.pwrGood = false :=
  ⟨st b35, by decide +kernel⟩

/-- The premises of clause 10 of IceWork hold together. -/
theorem premises_IceWork_10 : ∃ (s : State),
    (s.blk.ice.hold = false ∨ s.blk.pwr.pwrGood = false ∨ s.blk.phase ≠ 1) :=
  ⟨st b45, by decide +kernel⟩

/-- The premises of clause 11 of IceWork hold together. -/
theorem premises_IceWork_11 : ∃ (s : State),
    s.blk.ice.hold = true ∧
    s.blk.pwr.pwrGood = true ∧
    s.blk.phase = 1 ∧
    s.blk.internal = false ∧
    s.blk.jobs = [] :=
  ⟨st { b37.wr MOR_START 1 with ice := { b37.ice with hold := true } }, by decide +kernel⟩

/-- The premises of clause 1 of FusesStayBlown hold together. -/
theorem premises_FusesStayBlown_1 : ∃ (s t : State),
    step s = .next t :=
  ⟨st (b43 2), st (b43 2), rfl⟩

/-- The premises of clause 1 of PermanentRecordsStay hold together. -/
theorem premises_PermanentRecordsStay_1 : ∃ (s t : State),
    step s = .next t :=
  ⟨st b45, st b45, rfl⟩

/-! ### Premises that name an open choice -/

/-- The premises of clause 4 of SubmissionTakesTheEntry hold together. -/
theorem premises_SubmissionTakesTheEntry_4 :
    ∃ (s : State) (f q k slot gen : Nat) (x : HostQueue) (d : List Word) (b : Block) (sq : Seq) (a : Option (Nat × Adapter)),
      f < 64 ∧ q < 64 ∧ s.blk.takeable f q true = some x ∧ x.k ≤ 16 ∧ s.blk.inBreach = false ∧
      s.blk.takeEntry f q x = (some d, b) ∧ (b.part (b.fnPart f)).isSome = true ∧
      b.reqStatus (b.fnPart f) (Req.fresh f q x.ring d b.now) = .ok (k, sq, a) ∧ b.reqFreeSlot.1 = some (slot, gen) :=
  ⟨st b7, 0, 1, 1, _, _, qr0, reqDesc0, ((st b7).blk.takeEntry 0 1 qr0).2, seq0, none, by decide, by decide, by decide +kernel,
    by decide, by decide +kernel, Prod.ext (by decide +kernel) rfl, by decide +kernel, exc_ok (by decide +kernel),
    reqFreeSlot_empty (by decide +kernel) (by decide +kernel)⟩

/-- With no object in the partition and no page view in the slot, the slot that an object takes. -/
theorem takeSlot_empty {s : Block} {p : Nat} (h : s.objects p = Objects.empty) (hs : hSlot (s.rg (SNW p 0)) = 0) :
    s.takeSlot p = (some (s.freeVal % 16777215 + 1, 0), s.drawn) := by
  have hm : (s.freeVal % 16777215 + 0) % 16777215 = s.freeVal % 16777215 := by rw [Nat.add_zero, Nat.mod_mod]
  have hf : s.slotFree p (s.freeVal % 16777215 + 1) = true := by
    unfold Block.slotFree Block.obj
    rw [h, hs]
    simp [Objects.empty, tget]
  unfold Block.takeSlot
  rw [h]
  have e : (List.range (min 16777215 (Objects.empty.live.length + Objects.empty.gens.length + 2))).find?
      (fun i => s.slotFree p ((s.freeVal % 16777215 + i) % 16777215 + 1)) = some 0 := by
    show ([0, 1] : List Nat).find? _ = some 0
    rw [List.find?_cons_of_pos]
    rw [hm]
    exact hf
  simp only [e]
  rw [hm]
  rfl

/-- Pieces that hold no frame of this module are passed over. -/
theorem placePieces_skip (s : Block) (pn : Nat) (p : Part) (slot : Nat) (units : List Nat) (l : List (Nat × Nat)) (o : Obj)
    (h : s.obj pn slot = some o)
    (hl : (l.all fun x => o.emptyPiece x.2 || (dHas o.desc 5 && decide (o.coord x.2 ((dimsOf o.desc 5).headD 0) ≠ o.member))) = true) :
    s.placePieces pn p slot units l = some s := by
  induction l with
  | nil => rfl
  | cons x l ih =>
    obtain ⟨c, k⟩ := x
    rw [List.all_cons, Bool.and_eq_true] at hl
    unfold Block.placePieces
    simp only [h]
    rw [if_pos (by simpa using hl.1)]
    exact ih hl.2

/-- The object that the message of `b9` makes. -/
theorem create_b9 : ∃ slot b, ((st b9).blk.msgTaken (.fn 0 0)).create 0 0 0 emptyDesc 0 0 0 = .ok (slot, b) ∧
    b.backFree (.fn 0 0) := by
  obtain ⟨B, hB⟩ : ∃ B, B = (st b9).blk.msgTaken (.fn 0 0) := ⟨_, rfl⟩
  have hp : B.part 0 = some part0 := by subst hB; decide +kernel
  have hd : B.descChecks 0 part0 emptyDesc = none := by subst hB; decide +kernel
  have ho : B.objects 0 = Objects.empty := by subst hB; decide +kernel
  have hs : hSlot (B.rg (SNW 0 0)) = 0 := by subst hB; decide +kernel
  have hb : B.backFree (.fn 0 0) := by subst hB; decide +kernel
  have hl : (((List.range (if dHas emptyDesc 1 then part0.dieList.length else 1)).flatMap fun c =>
      (List.range (B.drawn.newObj 0 part0 0 0 0 emptyDesc 0 0 0).pieceCount).map fun k => (c, k)).all fun x =>
        (B.drawn.newObj 0 part0 0 0 0 emptyDesc 0 0 0).emptyPiece x.2 ||
        (dHas emptyDesc 5 && decide ((B.drawn.newObj 0 part0 0 0 0 emptyDesc 0 0 0).coord x.2 ((dimsOf emptyDesc 5).headD 0) ≠
          (B.drawn.newObj 0 part0 0 0 0 emptyDesc 0 0 0).member))) = true := by subst hB; decide +kernel
  rw [← hB]
  unfold Block.create
  simp only [hp, hd, takeSlot_empty ho hs]
  have key : ∀ (x : Block) (slot : Nat), ((x.setObj 0 slot (B.drawn.newObj 0 part0 0 0 0 emptyDesc 0 0 0)).setObjects 0
      { live := kput (B.drawn.objects 0).live slot (B.drawn.newObj 0 part0 0 0 0 emptyDesc 0 0 0),
        gens := kput (B.drawn.objects 0).gens slot (0 + 1) }).obj 0 slot =
      some (B.drawn.newObj 0 part0 0 0 0 emptyDesc 0 0 0) := by
    intro x slot
    unfold Block.obj Block.objects Block.setObjects
    rw [tget_tset_same, kget_kput_same]
  rw [placePieces_skip _ _ _ _ _ _ _ (key _ _) hl]
  simp only [key]
  refine ⟨_, _, rfl, ?_⟩
  exact hb

/-- The premises of clause 1 of TensorMessages hold together. -/
theorem premises_TensorMessages_1 : ∃ (s : State) (ch : Chan) (f p slot : Nat) (d : List Word) (b : Block),
    s.blk.delivers ch 0x0301 ∧ s.blk.backFree ch ∧ f = chFn ch ∧ p = (s.blk.msgTaken ch).fnPart f ∧
    ((s.blk.msgTaken ch).part p).isSome = true ∧ d = ((s.blk.msgWords ch).drop 1 ++ List.replicate 13 0).take 13 ∧
    (s.blk.msgTaken ch).create p f 0 d 0 0 0 = .ok (slot, b) ∧ b.backFree ch := by
  obtain ⟨slot, b, h, hb⟩ := create_b9
  exact ⟨st b9, .fn 0 0, 0, 0, slot, emptyDesc, b, by decide +kernel, by decide +kernel, rfl, by decide +kernel,
    by decide +kernel, by decide +kernel, h, hb⟩
/-- A block whose partition 0 holds one object, in a slot, with one frame for each of `n` numbers. -/
def hid (B : Block) (p : Part) (slot b n c : Nat) : Block :=
  { B with freeCtr := c,
           objs := [(0, { live := [(slot, { hiddenObj b with frames := (List.range n).map fun i => B.stripedFrame p 0 i 4 })], gens := [] })] }

/-- Only the frames count, not the slot they are in or the draws before. -/
theorem stackFree_hid (B : Block) (p : Part) (slot b n c k : Nat) :
    (hid B p slot b n c).stackFree 0 p k = B.stackPages p k - 32 * (if 4 = k then n else 0) - B.stackKv 0 k := by
  have h : (hid B p slot b n c).stackFrames 0 k = if 4 = k then n else 0 := by
    unfold Block.stackFrames hid
    simp only [kget, hiddenObj, List.map, List.sum_cons, List.sum_nil, Nat.add_zero, if_true]
    by_cases h4 : 4 = k
    · subst h4
      rw [List.filter_eq_self.mpr]
      · simp
      · intro f hf
        obtain ⟨i, -, rfl⟩ := List.mem_map.mp hf
        rfl
    · rw [List.filter_eq_nil_iff.mpr]
      · simp [h4]
      · intro f hf
        obtain ⟨i, -, rfl⟩ := List.mem_map.mp hf
        simpa [Block.stripedFrame, freshFrame] using h4
  unfold Block.stackFree
  rw [h]
  rfl

/-- The frames are found while the one capacity stack has pages. -/
theorem placeHidden_hid (B : Block) (p : Part) (slot b m c : Nat) (hc : p.capacity = [4, 5])
    (h5 : B.stackPages p 5 = 0) (h4 : 32 * m + B.stackKv 0 4 ≤ B.stackPages p 4) :
    ∀ n, n ≤ m → (hid B p slot b 0 c).placeHidden 0 p slot n = some (hid B p slot b n (c + n)) := by
  intro n
  induction n with
  | zero => intro _; rfl
  | succ n ih =>
    intro hn
    unfold Block.placeHidden
    rw [ih (by omega)]
    have hr : (p.capacity.filter fun k => decide (32 ≤ (hid B p slot b n (c + n)).stackFree 0 p k)) = [4] := by
      rw [hc]
      have a4 : 32 ≤ (hid B p slot b n (c + n)).stackFree 0 p 4 := by rw [stackFree_hid]; simp; omega
      have a5 : ¬ 32 ≤ (hid B p slot b n (c + n)).stackFree 0 p 5 := by rw [stackFree_hid, h5]; simp
      simp [List.filter, a4, a5]
    simp only [hr, List.isEmpty_cons, Bool.false_eq_true, if_false, Block.pick, List.length_cons, List.length_nil, Nat.zero_add,
      Nat.mod_one, ite_self]
    congr 1
    unfold Block.modObj Block.setObjects Block.objects Block.drawn hid
    simp [tget, tset, kget, kput, kmod, Objects.empty, List.range_succ, Nat.add_assoc]
    rfl

/-- What the frames of an object take is no object, no mailbox and no register but those of a breach. -/
theorem framesTaken_keeps (s : Block) (p : Nat) (o : Obj) :
    (s.framesTaken p o).objs = s.objs ∧ (s.framesTaken p o).mbx = s.mbx ∧
    (∀ a, a ≠ ICE_DROPPED → a ≠ LDG_STATUS → (s.framesTaken p o).rg a = s.rg a) := by
  have h : ∀ (s : Block) (n k a : Nat), a ≠ ICE_DROPPED → a ≠ LDG_STATUS → (s.ledShrink n k).rg a = s.rg a :=
    fun _ _ _ _ h h' => Block.rg_led1 _ _ _ h h'
  unfold Block.framesTaken
  dsimp only
  split <;> split <;> refine ⟨by simp, by simp, fun a h1 h2 => ?_⟩ <;> simp only [h _ _ _ a h1 h2]

/-- What admission comes to when every step of it succeeds. -/
theorem admit_ok {s s2 s3 : Block} {f pn b : Nat} {p : Part} {i : BundleImage} {slots : List Nat}
    (h1 : s.bundleNumber.1 = some b) (h2 : s.bundleNumber.2.createAll pn f b i.objects = .ok (slots, s2))
    (h3 : s2.makeHidden pn p (saveSlot b) b (saveFrames i + storeFrames i) = some s3)
    (h4 : s.roomStatus s3 pn p i = none) :
    s.takeBundle f pn p i = .ok (b, s3.enterBundle f pn b i slots) := by
  unfold Block.takeBundle
  generalize saveFrames i + storeFrames i = n at h3 ⊢
  simp only [h1, h2, h3, h4]

/-- The bundle that the message of `b14` loads. -/
theorem admit_b14 : ∃ b B, ((st b14).blk.msgTaken (.fn 0 0)).takeBundle 0 0 part0 img1 = .ok (b, B) ∧ B.backFree (.fn 0 0) := by
  obtain ⟨T, hT⟩ : ∃ T, T = (st b14).blk.msgTaken (.fn 0 0) := ⟨_, rfl⟩
  have hb : T.bundles = [] := by subst hT; decide +kernel
  have ho : T.objs = [] := by subst hT; decide +kernel
  have hf : T.backFree (.fn 0 0) := by subst hT; decide +kernel
  have h5 : T.stackPages part0 5 = 0 := by subst hT; decide +kernel
  have h4 : 32 * 11 + T.stackKv 0 4 ≤ T.stackPages part0 4 := by subst hT; decide +kernel
  have hs : saveFrames img1 + storeFrames img1 = 11 := by decide +kernel
  have hn : T.bundleNumber = (some (T.freeVal % 65535 + 1), T.drawn) := by
    unfold Block.bundleNumber
    rw [hb]
    simp [kget]
  have hset : ∀ slot b : Nat, T.drawn.setObj 0 slot (hiddenObj b) = hid T part0 slot b 0 (T.freeCtr + 1) := by
    intro slot b
    unfold Block.setObj Block.setObjects Block.objects Block.drawn hid
    simp [ho, tget, tset, kput, Objects.empty, hiddenObj]
  have hc : ∀ (slot b c : Nat) (o : Obj), ((hid T part0 slot b 11 c).framesTaken 0 o).computeFrames 0 part0 = 0 := by
    intro slot b c o
    have h : ∀ k, k < 4 → ((hid T part0 slot b 11 c).framesTaken 0 o).stackFrames 0 k = 0 := by
      intro k hk
      unfold Block.stackFrames
      rw [(framesTaken_keeps _ _ _).1]
      simp only [hid, kget, hiddenObj, List.map, List.sum_cons, List.sum_nil, Nat.add_zero, if_true]
      rw [List.filter_eq_nil_iff.mpr]
      · rfl
      · intro f hf
        obtain ⟨i, -, rfl⟩ := List.mem_map.mp hf
        simp [Block.stripedFrame, freshFrame]; omega
    have hp : part0.compute = [0, 1, 2, 3] := by decide
    unfold Block.computeFrames
    simp [hp, h]
  have hk : ∀ slot b c : Nat, (hid T part0 slot b 11 c).obj 0 slot =
      some { hiddenObj b with frames := (List.range 11).map fun i => T.stripedFrame part0 0 i 4 } := by
    intro slot b c
    simp [Block.obj, Block.objects, hid, tget, kget]
  obtain ⟨o, ho'⟩ : ∃ o : Nat → Obj, o = fun b => { hiddenObj b with frames := (List.range 11).map fun i => T.stripedFrame part0 0 i 4 } :=
    ⟨_, rfl⟩
  have hm : ∀ slot b : Nat, T.drawn.makeHidden 0 part0 slot b (saveFrames img1 + storeFrames img1) =
      some ((hid T part0 slot b 11 (T.freeCtr + 1 + 11)).framesTaken 0 (o b)) := by
    intro slot b
    unfold Block.makeHidden
    rw [hset, hs, placeHidden_hid T part0 _ _ 11 _ (by decide) h5 h4 11 (Nat.le_refl _), Option.map, hk, ho']
  have hr : T.reservedPages 0 = 0 := by simp [Block.reservedPages, Block.partBundles, hb]
  have hcr : T.reservedCredits 0 = 0 := by simp [Block.reservedCredits, Block.partBundles, hb]
  have hmin : img1.minPages = 0 := rfl
  have hec : img1.eskerCredits = 0 := rfl
  have hio : img1.objects = [] := rfl
  have hn1 : T.bundleNumber.1 = some (T.freeVal % 65535 + 1) := by rw [hn]
  have hn2 : T.bundleNumber.2.createAll 0 0 (T.freeVal % 65535 + 1) img1.objects = .ok ([], T.drawn) := by rw [hn]; rfl
  have hroom : ∀ s3 : Block, s3.computeFrames 0 part0 = 0 → T.roomStatus s3 0 part0 img1 = none := by
    intro s3 h
    unfold Block.roomStatus need
    rw [h, hr, hcr, hmin, hec]
    simp [allOk]
  rw [← hT, admit_ok hn1 hn2 (hm _ _) (hroom _ (hc _ _ _ _))]
  refine ⟨_, _, rfl, ?_⟩
  obtain ⟨h1, h2⟩ := hf
  have kk := framesTaken_keeps (hid T part0 (saveSlot (T.freeVal % 65535 + 1)) (T.freeVal % 65535 + 1) 11 (T.freeCtr + 1 + 11)) 0
    (o (T.freeVal % 65535 + 1))
  refine ⟨?_, ?_⟩
  · have := kk.2.2 (chBack (.fn 0 0) + 0x44) (by decide) (by decide)
    unfold Block.full Block.bit at h1 ⊢
    rw [← h1]
    exact congrArg (fun w : Word => w.bit 0) this
  · have := kk.2.1
    unfold Block.box at h2 ⊢
    rw [← h2]
    exact congrArg (fun m => (tget Mbx.reset m (chBack (.fn 0 0))).waiting) this

/-- The host puts the image of `b14` in its memory. -/
theorem image_b14 : st b14 = { st b14Bare with blk := (st b14Bare).blk.hostImage (.fn 0 0) 0x0401 1 (wordsBytes img1Words) } := by
  decide +kernel

/-- The premises of clause 1 of BundleMessages hold together. -/
theorem premises_BundleMessages_1 : ∃ (s₀ s : State) (ch : Chan) (img : List Byte) (r : Block) (a : ImageAt) (p : Part) (b pn : Nat)
    (B : Block), s = { s₀ with blk := s₀.blk.hostImage ch 0x0401 1 img } ∧ s.blk.delivers ch 0x0401 ∧ s.blk.backFree ch ∧ r = s.blk.msgTaken ch ∧
    a = r.imageAt (mpair (s.blk.msgWords ch) 1) (mreg (s.blk.msgWords ch) 3).toNat ∧ pn = r.fnPart (chFn ch) ∧ r.part pn = some p ∧
    r.hostReadStatus (chFn ch) (mpair (s.blk.msgWords ch) 1) (mreg (s.blk.msgWords ch) 3).toNat = none ∧
    r.bundleStatus (chFn ch) pn p a.inside a.image = none ∧ r.takeBundle (chFn ch) pn p a.image = .ok (b, B) ∧ B.backFree ch := by
  obtain ⟨b, B, h, hb⟩ := admit_b14
  have hi : (((st b14).blk.msgTaken (.fn 0 0)).imageAt (mpair ((st b14).blk.msgWords (.fn 0 0)) 1)
      (mreg ((st b14).blk.msgWords (.fn 0 0)) 3).toNat).image = img1 := by decide +kernel
  refine ⟨st b14Bare, st b14, .fn 0 0, wordsBytes img1Words, _, _, part0, b, 0, B, image_b14, by decide +kernel, by decide +kernel, rfl, rfl, by decide +kernel, by decide +kernel,
    by decide +kernel, by decide +kernel, ?_, hb⟩
  rw [hi]
  exact h

/-- A hidden object of `m` frames in a partition whose one stack of room is 4. -/
theorem makeHidden_hid (T : Block) (p : Part) (slot m : Nat) (ho : T.objs = []) (hc : p.capacity = [4, 5])
    (h5 : T.stackPages p 5 = 0) (h4 : 32 * m + T.stackKv 0 4 ≤ T.stackPages p 4) :
    ∃ o : Obj, T.makeHidden 0 p slot 0 m = some ((hid T p slot 0 m (T.freeCtr + m)).framesTaken 0 o) := by
  have hset : T.setObj 0 slot (hiddenObj 0) = hid T p slot 0 0 T.freeCtr := by
    unfold Block.setObj Block.setObjects Block.objects hid
    simp [ho, tget, tset, kput, Objects.empty, hiddenObj]
  have hk : (hid T p slot 0 m (T.freeCtr + m)).obj 0 slot =
      some { hiddenObj 0 with frames := (List.range m).map fun i => T.stripedFrame p 0 i 4 } := by
    simp [Block.obj, Block.objects, hid, tget, kget]
  refine ⟨{ hiddenObj 0 with frames := (List.range m).map fun i => T.stripedFrame p 0 i 4 }, ?_⟩
  unfold Block.makeHidden
  rw [hset, placeHidden_hid T p _ _ m _ hc h5 h4 m (Nat.le_refl _), Option.map, hk]

/-- The grant that the message of `b32` asks for. -/
theorem grant_b32 : ∃ B, ((st b32).blk.msgTaken (.fn 0 0)).makeHidden 0 { part0 with groups := 0xFF } 33554432 0 11 = some B ∧
    B.backFree (.fn 0 0) := by
  obtain ⟨T, hT⟩ : ∃ T, T = (st b32).blk.msgTaken (.fn 0 0) := ⟨_, rfl⟩
  have ho : T.objs = [] := by subst hT; decide +kernel
  have hf : T.backFree (.fn 0 0) := by subst hT; decide +kernel
  have h5 : T.stackPages { part0 with groups := 0xFF } 5 = 0 := by subst hT; decide +kernel
  have h4 : 32 * 11 + T.stackKv 0 4 ≤ T.stackPages { part0 with groups := 0xFF } 4 := by subst hT; decide +kernel
  obtain ⟨o, h⟩ := makeHidden_hid T { part0 with groups := 0xFF } 33554432 11 ho (by decide) h5 h4
  rw [← hT]
  refine ⟨_, h, ?_⟩
  obtain ⟨h1, h2⟩ := hf
  have kk := framesTaken_keeps (hid T { part0 with groups := 0xFF } 33554432 0 11 (T.freeCtr + 11)) 0 o
  refine ⟨?_, ?_⟩
  · have := kk.2.2 (chBack (.fn 0 0) + 0x44) (by decide) (by decide)
    unfold Block.full Block.bit at h1 ⊢
    rw [← h1]
    exact congrArg (fun w : Word => w.bit 0) this
  · have := kk.2.1
    unfold Block.box at h2 ⊢
    rw [← h2]
    exact congrArg (fun m => (tget Mbx.reset m (chBack (.fn 0 0))).waiting) this

/-- The premises of clause 9 of FabricMessages hold together. -/
theorem premises_FabricMessages_9 : ∃ (s : State) (ch : Chan) (node d p mib : Nat) (q : Part) (B : Block), s.blk.delivers ch 0x0808 ∧
    s.blk.backFree ch ∧ (chFn ch = 0 ∨ chFn ch = 64) ∧ node = (mreg (s.blk.msgWords ch) 1).toNat ∧ node ≤ 32767 ∧
    d = (mreg (s.blk.msgWords ch) 2).fld 15 0 ∧ mib = (mreg (s.blk.msgWords ch) 3).toNat ∧ 0 < mib ∧
    s.blk.domainPart d = some p ∧ s.blk.part p = some q ∧ s.blk.esk.grants.all (fun g => !(g.node == node && g.domain == d)) = true ∧
    (s.blk.msgTaken ch).makeHidden p q (s.blk.grantSlot p) 0 (ceilDiv mib 2) = some B ∧ B.backFree ch := by
  obtain ⟨B, h, hb⟩ := grant_b32
  exact ⟨st b32, .fn 0 0, 9, 0x55, 0, 22, { part0 with groups := 0xFF }, B,
    eight (by decide +kernel) (two (by decide +kernel) ⟨by decide +kernel, h, hb⟩)⟩

/-! ### Well-formedness: for each check a term that it refuses -/

/-- The sideband is the last initiator. -/
theorem test_wf_initiator : Instr.wf (.registerWrite 65 .bar0 0 0) = false := by decide
/-- A register offset is a multiple of 4. -/
theorem test_wf_offset : Instr.wf (.registerWrite 0 .bar0 2 0) = false := by decide
/-- A VF has no BAR0. -/
theorem test_wf_bar : Instr.wf (.loReadLatch 1 .bar0 0) = false := by decide
/-- A read clears with an event below 64. -/
theorem test_wf_event : Instr.wf (.readClear 0 .bar0 0 64) = false := by decide
/-- A function has four pairs. -/
theorem test_wf_channel : Instr.wf (.partCreate (.fn 3 4)) = false := by decide
/-- There are 64 queues. -/
theorem test_wf_queue : Instr.wf (.doorbell 0 64 0) = false := by decide
/-- A write through the aperture has 256 bytes at most. -/
theorem test_wf_aperture : Instr.wf (.bar4Write 0 0 (List.replicate 257 0)) = false := by decide +kernel
/-- There are 32 clusters of 24 queues. -/
theorem test_wf_cluster : Instr.wf (.engineCommandComplete 31 24 0) = false := by decide
/-- There are 4,096 Firn units. -/
theorem test_wf_unit : Instr.wf (.mac 4096) = false := by decide
/-- There are 24 stacks. -/
theorem test_wf_stack : Instr.wf (.tsvPathFail 24 0 0) = false := by decide
/-- A semaphore of a job names a job. -/
theorem test_wf_semaphore : Instr.wf (.semWaitGrant (.jobSem 0 3)) = false := by decide
/-- A packet travels on virtual channels 0 to 7. -/
theorem test_wf_packet : Instr.wf (.eskReadPacket 3 { pk0 with vc := 8 }) = false := by decide
/-- A flit number has 10 bits. -/
theorem test_wf_flit : Instr.wf (.flitReceive 3 { fl0 with fseq := 1024 }) = false := by decide
/-- A port has 8 lanes and a spare. -/
theorem test_wf_training : Instr.wf (.portTrainingDone 3 { tr0 with failedLane := some 9 }) = false := by decide
/-- A window measures four dies. -/
theorem test_wf_window : Instr.wf (.governorWindow { meas0 with wave := [] }) = false := by decide
/-- A core faults with causes 1 to 5. -/
theorem test_wf_cause : Instr.wf (.rimeCoreFault 3 6 0 0) = false := by decide

/-! ### The manual's examples, and published check values -/

/-- The block of the worked example of R52 to R56: FIT scaling into N4. -/
def example4 : QuantBlock :=
  quantBlock { fmt := 1, book := 0, stoch := false, sat := true, floor := false, static := false } 0 (fun _ => false) (fun _ => 0)
    ([0x415B3333, 0xC0A33333, 0x3F666666, 0x3F800000, 0xBE4CCCCD, 0x40E00000, 0xC11E6666, 0x40266666] ++ List.replicate 24 0)
/-- Its scale byte and codes are the manual's, and nothing is clipped. -/
theorem test_quant_fit : example4.scale = 0x81 ∧ example4.codes.take 8 = [5, 0xB, 0, 0, 0, 4, 0xC, 1] ∧ example4.clipped = 0 := by
  decide +kernel

/-- The window of the worked example of R452: 23,950 tokens above the floors. -/
theorem test_grants :
    let b : Block := loop 16 (fun i b => b.wf (STK_FIRN_SET (computeStack i)) 1 0 2) b0
    let m : WindowMeasure := { meas0 with spent := List.replicate 4 6000 ++ List.replicate 24 280 ++ List.replicate 16 0,
                                          waited := List.replicate 28 true }
    ((b.govGrants m 23950).getD 0 0, (b.govGrants m 23950).getD 4 0, (b.govGrants m 23950).getD 28 0, (b.govGrants m 23950).sum) =
      (5285, 246, 100, 28644) := by decide +kernel

/-- 248 events of a class without reserved places enter the queue of the worked example of R506, and no more. -/
theorem test_ice_places :
    ({ b0.ice with queue := List.replicate 247 { rec0 0 with event := 0x0601 } } : IceCore).admits 0x0601 = true ∧
    ({ b0.ice with queue := List.replicate 248 { rec0 0 with event := 0x0601 } } : IceCore).admits 0x0601 = false ∧
    ({ b0.ice with queue := List.replicate 248 { rec0 0 with event := 0x0601 } } : IceCore).admits 0x0401 = true := by decide +kernel

/-- The ASCII digits 1 to 9. -/
def digits : List Byte := [0x31, 0x32, 0x33, 0x34, 0x35, 0x36, 0x37, 0x38, 0x39]
/-- The published check value of CRC-32 of IEEE 802.3. -/
theorem test_crc32 : crc32 digits = 0xCBF43926 := by decide +kernel
/-- The published check value of CRC-16 with polynomial 0x1021 from 0xFFFF. -/
theorem test_crc16 : crc16 digits = 0x29B1 := by decide +kernel

/-- An epoch never takes the value 0 (R429). -/
theorem test_epoch : nextEpoch 0xFFFF = 1 := by decide
/-- A sequence number of a ring never takes the value 0 (R386). -/
theorem test_csn : nextCsn 0xFFFFFFFF = 1 := by decide
/-- The record after 0xFFFF_FFFF has the number 257 (R504). -/
theorem test_seq : nextSeq 0xFFFFFFFF = 257 := by decide
/-- A ledger that would fall below 0 refuses the update (R337). -/
theorem test_ledger : Ledger.move { free := 1, held := 0, flight := 0, total := 1 } { free := -2, held := 2 } = none := by decide
/-- A spare takes a tile's place, with the epoch raised (R168, R429). -/
theorem test_remap : ((tileRemapEffect 9 (b39 false)).tileState 9, (tileRemapEffect 9 (b39 false)).fld (FLOE_EPOCH 9) 15 0) = (2, 2) := by
  decide +kernel
/-- Two tiles of one cluster without a spare take it out of service once: no ledger breaks (R169). -/
theorem test_cluster_out_once : (tileRemapEffect 10 (tileRemapEffect 9 (b39 true))).breach = false := by decide +kernel
/-- Fuses only add bits: a seed of ones blows every bit of an old one (R482, R492). -/
theorem test_scrap : (Fuses.keep (b43 2).trust.fuses { (b43 2).trust.fuses with idSeed := List.replicate 32 0xFF }).idSeed =
    List.replicate 32 0xFF := by decide +kernel


end Sys2Proof.Tests
end

section
/-! The halves of a 64-bit pair (R7): what a read of _LO latches, what a write of _HI stages and what a write of _LO
commits, and the obligation on them. -/

namespace Sys2Proof.Machine

/-! ### Bits of a masked word -/

/-- A masked word takes the bits that the mask selects from the new value. -/
theorem bit_masked (m : Nat) (old new : Word) {j : Nat} (hj : j < 32) :
    (masked m old new).bit j = if m.testBit j then new.bit j else old.bit j := by
  have hm : (w32 m).getLsbD j = m.testBit j := by
    rw [BitVec.getLsbD_ofNat, decide_eq_true hj, Bool.true_and]
  change (masked m old new).getLsbD j = if m.testBit j then new.getLsbD j else old.getLsbD j
  rw [masked, BitVec.getLsbD_or, BitVec.getLsbD_and, BitVec.getLsbD_and, BitVec.getLsbD_not, hm]
  cases m.testBit j <;> simp [hj]

/-! ### Commands of a known effect -/

/-- A command whose effect on the block is known, and blows no fuse and programs no permanent slot, has exactly that
effect. -/
theorem onBlk_next_of_eq {f : Block → Block} {s : State} {b : Block} (he : f s.blk = b)
    (hf : b.trust.fuses = s.blk.trust.fuses) (hp : b.ice.perm = s.blk.ice.perm) :
    onBlk f s = .next { s with blk := b } := by
  subst he
  exact onBlk_next hf hp

/-! ### A read of _LO latches -/

/-- A reader's latch after a read of _LO: the upper half for the reader, and as before for everyone else. -/
theorem hiRead_loReadEffect (s : Block) (i a k : Nat) :
    hiRead (loReadEffect i a s) k = if k = i then readReg s i (a + 4) else hiRead s k := by
  unfold hiRead loReadEffect tget
  rw [kget_kput]
  split <;> rfl

/-- LO_READ_LATCH of a _LO register latches its upper half. -/
theorem exec_loReadLatch {i off a : Nat} {bar : Bar} (s : State) (ha : regAddr i bar off = some a)
    (hl : isLo a = true) :
    exec (.loReadLatch i bar off) s = .next { s with blk := loReadEffect i a s.blk } := by
  have he : effLoReadLatch i bar off s.blk = loReadEffect i a s.blk := by
    simp only [effLoReadLatch, ha, hl, if_true]
  exact onBlk_next_of_eq he rfl rfl

/-! ### A write of _HI is staged -/

/-- The block with `v` staged by writer `i` for the upper half of the pair at `a`. -/
def Block.stageHi (s : Block) (i a : Nat) (v : Word) : Block :=
  { s with latches := { s.latches with hi := kput s.latches.hi (stageKey i a) v } }

/-- The half staged under each key after a write of _HI. -/
theorem Block.kget_stageHi (s : Block) (i a k : Nat) (v : Word) :
    kget (s.stageHi i a v).latches.hi k = if k = stageKey i a then some v else kget s.latches.hi k :=
  kget_kput ..

@[simp] theorem Block.rg_stageHi (s : Block) (i a b : Nat) (v : Word) : (s.stageHi i a v).rg b = s.rg b := rfl

/-- HI_WRITE_STAGE of the upper half of a pair stages it. -/
theorem exec_hiWriteStage {i off a : Nat} {bar : Bar} (s : State) (v : Word)
    (ha : regAddr i bar off = some (a + 4)) (hl : isLo a = true) :
    exec (.hiWriteStage i bar off v) s = .next { s with blk := s.blk.stageHi i a v } := by
  have he : effHiWriteStage i bar off v s.blk = s.blk.stageHi i a v := by
    simp only [effHiWriteStage, ha, Nat.le_add_left, Nat.add_sub_cancel, hl, and_self, if_true, Block.stageHi]
  exact onBlk_next_of_eq he rfl rfl

/-! ### A write of _LO commits both halves -/

/-- The block with `v` and `h` written to the lower and the upper half of the pair at `a`. -/
def Block.commitPair (s : Block) (a : Nat) (h v : Word) : Block :=
  (s.wr a (masked (rwBits a) (s.rg a) v)).wr (a + 4) (masked (rwBits (a + 4)) (s.rg (a + 4)) h)

theorem Block.rg_commitPair_other (s : Block) {a b : Nat} (h v : Word) (hlo : b ≠ a) (hhi : b ≠ a + 4) :
    (s.commitPair a h v).rg b = s.rg b :=
  (Block.rg_wr_other _ _ hhi).trans (Block.rg_wr_other _ _ hlo)

theorem Block.bit_commitPair_lo (s : Block) (a : Nat) (h v : Word) {j : Nat} (hj : j < 32) :
    ((s.commitPair a h v).rg a).bit j = if (rwBits a).testBit j then v.bit j else (s.rg a).bit j := by
  rw [Block.commitPair, Block.rg_wr_other _ _ (by omega), Block.rg_wr_same, bit_masked _ _ _ hj]

theorem Block.bit_commitPair_hi (s : Block) (a : Nat) (h v : Word) {j : Nat} (hj : j < 32) :
    ((s.commitPair a h v).rg (a + 4)).bit j =
      if (rwBits (a + 4)).testBit j then h.bit j else (s.rg (a + 4)).bit j := by
  rw [Block.commitPair, Block.rg_wr_same, bit_masked _ _ _ hj]

/-- LO_WRITE_COMMIT of a _LO register stores both halves, the upper one as staged or, with nothing staged, as it was. -/
theorem exec_loWriteCommit {i off a : Nat} {bar : Bar} (s : State) (v : Word) (ha : regAddr i bar off = some a)
    (hl : isLo a = true) :
    exec (.loWriteCommit i bar off v) s = .next { s with
      blk := s.blk.commitPair a ((kget s.blk.latches.hi (stageKey i a)).getD (s.blk.rg (a + 4))) v } := by
  have he : effLoWriteCommit i bar off v s.blk =
      s.blk.commitPair a ((kget s.blk.latches.hi (stageKey i a)).getD (s.blk.rg (a + 4))) v := by
    simp only [effLoWriteCommit, ha, hl, if_true, Block.commitPair, tget]
  exact onBlk_next_of_eq he rfl rfl

/-- A write of _LO after a write of _HI by the same writer commits the half just staged. -/
theorem exec_loWriteCommit_stageHi {i off a : Nat} {bar : Bar} (s : State) (h v : Word)
    (ha : regAddr i bar off = some a) (hl : isLo a = true) :
    exec (.loWriteCommit i bar off v) { s with blk := s.blk.stageHi i a h } =
      .next { s with blk := (s.blk.stageHi i a h).commitPair a h v } := by
  rw [exec_loWriteCommit _ v ha hl, Block.kget_stageHi, if_pos rfl, Option.getD_some]

/-! ### The obligation -/

/-- Settles O4: each clause runs its commands by their rules above and reads off what the latch, the stage and the two
registers hold then; what else the block holds is as it was by definition. That a half is staged per writer and
register is log entry 109. -/
theorem registerPairs : Obligations.RegisterPairs := by
  unfold Obligations.RegisterPairs
  refine ⟨?latch, ?stage, ?commit, ?stageThenCommit, fun _ => rfl⟩
  case latch =>
    intro s i bar off a ha hl
    refine ⟨_, exec_loReadLatch s ha hl, rfl, ?_, fun k hk => ?_, rfl⟩
    · rw [hiRead_loReadEffect, if_pos rfl]
    · rw [hiRead_loReadEffect, if_neg hk]
  case stage =>
    intro s i bar off a v ha hl
    refine ⟨_, exec_hiWriteStage s v ha hl, rfl, ?_, fun k hk => ?_, rfl⟩
    · rw [Block.kget_stageHi, if_pos rfl]
    · rw [Block.kget_stageHi, if_neg hk]
  case commit =>
    intro s i bar off a h v ha hl hh
    subst hh
    exact ⟨_, exec_loWriteCommit s v ha hl, rfl, fun b hlo hhi => Block.rg_commitPair_other _ _ _ hlo hhi,
      fun j hj => Block.bit_commitPair_lo _ _ _ _ hj, fun j hj => Block.bit_commitPair_hi _ _ _ _ hj, rfl⟩
  case stageThenCommit =>
    intro s i bar off1 off a h v ha1 ha hl
    refine ⟨_, _, exec_hiWriteStage s h ha1 hl, exec_loWriteCommit_stageHi s h v ha hl, rfl,
      fun b hlo hhi => ?_, fun j hj => ?_, fun j hj => ?_, rfl⟩
    · rw [Block.rg_commitPair_other _ _ _ hlo hhi, Block.rg_stageHi]
    · rw [Block.bit_commitPair_lo _ _ _ _ hj, Block.rg_stageHi]
    · rw [Block.bit_commitPair_hi _ _ _ _ hj, Block.rg_stageHi]

end Sys2Proof.Machine
end

section
/-! What lasts and what a step does: the fuses, the permanent area of the ice core, the queue of commands, and the
module right after reset. -/

namespace Sys2Proof.Machine

/-! ### Fuses only blow (R482, R484) -/

theorem LcBit.le_or (x y : LcBit) : x.le (x.or y) :=
  ⟨fun h => by simp [LcBit.or, h], fun h => by simp [LcBit.or, h], fun h => by simp [LcBit.or, h]⟩

theorem LcBit.le_refl (x : LcBit) : x.le x := ⟨id, id, id⟩

theorem LcBit.le_trans {x y z : LcBit} (h : x.le y) (k : y.le z) : x.le z := by
  obtain ⟨ha, hb, hc⟩ := h
  obtain ⟨ka, kb, kc⟩ := k
  exact ⟨ka ∘ ha, kb ∘ hb, kc ∘ hc⟩

/-- A bit that reads as blown still does when more of its fuses are. -/
theorem LcBit.blown_of_le {x y : LcBit} (h : x.le y) (hx : x.blown = true) : y.blown = true := by
  obtain ⟨xa, xb, xc⟩ := x
  obtain ⟨ya, yb, yc⟩ := y
  obtain ⟨ha, hb, hc⟩ := h
  revert xa xb xc ya yb yc
  decide

/-- Byte fields are compared bit by bit. -/
theorem bytesLe_iff {x y : List Byte} :
    bytesLe x y ↔ ∀ i j, (x.getD i 0).getLsbD j = true → (y.getD i 0).getLsbD j = true := by
  refine forall_congr' fun i => ⟨fun h j hx => ?_, fun h => ?_⟩
  · have hj : j < 8 := by
      by_contra hn
      rw [BitVec.getLsbD_of_ge _ _ (Nat.le_of_not_lt hn)] at hx
      cases hx
    have hb := congrArg (fun b : Byte => b.getLsbD j) h
    rw [show (0 : Byte).getLsbD j = false from BitVec.getLsbD_zero, BitVec.getLsbD_and, BitVec.getLsbD_not, hx] at hb
    simpa only [hj, decide_true, Bool.true_and, Bool.not_eq_false'] using hb
  · refine BitVec.eq_of_getLsbD_eq fun j hj => ?_
    cases hx : (x.getD i 0).getLsbD j with
    | false => rw [BitVec.getLsbD_and, hx]; simp
    | true => rw [BitVec.getLsbD_and, BitVec.getLsbD_not, h j hx]; simp

theorem bytesLe_refl (x : List Byte) : bytesLe x x := bytesLe_iff.mpr fun _ _ => id

theorem bytesLe_trans {x y z : List Byte} (h : bytesLe x y) (k : bytesLe y z) : bytesLe x z :=
  bytesLe_iff.mpr fun i j => bytesLe_iff.mp k i j ∘ bytesLe_iff.mp h i j

theorem getD_orBytes (l m : List Byte) (i : Nat) : (orBytes l m).getD i 0 = l.getD i 0 ||| m.getD i 0 := by
  induction l generalizing m i with
  | nil => simp [orBytes]
  | cons x xs ih =>
    cases m with
    | nil => simp [orBytes]
    | cons y ys =>
      cases i with
      | zero => simp [orBytes]
      | succ i => simpa [orBytes] using ih ys i

theorem bytesLe_orBytes (l m : List Byte) : bytesLe l (orBytes l m) :=
  bytesLe_iff.mpr fun i j h => by rw [getD_orBytes, BitVec.getLsbD_or, h, Bool.true_or]

theorem getD_maxFloors (l m : List Nat) (i : Nat) : (maxFloors l m).getD i 0 = max (l.getD i 0) (m.getD i 0) := by
  induction l generalizing m i with
  | nil => simp [maxFloors]
  | cons x xs ih =>
    cases m with
    | nil => simp [maxFloors]
    | cons y ys =>
      cases i with
      | zero => simp [maxFloors]
      | succ i => simpa [maxFloors] using ih ys i

theorem Fuses.le_refl (x : Fuses) : x.le x :=
  ⟨x.develop.le_refl, x.field.le_refl, x.ret.le_refl, x.scrap.le_refl, id, fun _ => Nat.le_refl _, bytesLe_refl _,
    bytesLe_refl _, rfl, rfl⟩

theorem Fuses.le_trans {x y z : Fuses} (h : x.le y) (k : y.le z) : x.le z := by
  obtain ⟨hd, hf, hr, hs, hv, hl, ho, hi, hg, hm⟩ := h
  obtain ⟨kd, kf, kr, ks, kv, kl, ko, ki, kg, km⟩ := k
  exact ⟨LcBit.le_trans hd kd, LcBit.le_trans hf kf, LcBit.le_trans hr kr, LcBit.le_trans hs ks, kv ∘ hv, fun i => (hl i).trans (kl i),
    bytesLe_trans ho ko, bytesLe_trans hi ki, hg.trans kg, hm.trans km⟩

/-- What a command leaves of the fuses has every fuse blown that was. -/
theorem Fuses.le_keep (x y : Fuses) : x.le (x.keep y) :=
  ⟨LcBit.le_or .., LcBit.le_or .., LcBit.le_or .., LcBit.le_or .., fun h => by simp [Fuses.keep, h],
    fun i => by rw [Fuses.keep, getD_maxFloors]; exact Nat.le_max_left ..,
    bytesLe_orBytes x.ownerDigest y.ownerDigest, bytesLe_orBytes x.idSeed y.idSeed, rfl, rfl⟩

/-- With more fuses blown the life-cycle state is the same or a later one (R484). -/
theorem Fuses.state_le {x y : Fuses} (h : x.le y) : x.state ≤ y.state := by
  obtain ⟨hd, hf, hr, hs, -⟩ := h
  have hd := LcBit.blown_of_le hd
  have hf := LcBit.blown_of_le hf
  have hr := LcBit.blown_of_le hr
  have hs := LcBit.blown_of_le hs
  unfold Fuses.state
  split_ifs <;> simp_all

/-! ### Invariants of every step -/

/-- A relation that every command keeps, since it holds between a block and what lasts of it, is kept by a step. -/
theorem step_of_lasting {R : Block → Block → Prop} (hr : ∀ a, R a a) (hl : ∀ a b, R a (a.lasting b)) {s t : State}
    (h : step s = .next t) : R s.blk t.blk := by
  obtain ⟨-, he⟩ | ⟨c, l, b, -, he⟩ := step_cases s
  · obtain rfl : s = t := Host.Outcome.next.inj (he.symm.trans h)
    exact hr _
  · obtain rfl := Host.Outcome.next.inj (he.symm.trans h)
    exact hl _ _

/-- Such a relation is kept by a list of commands, when it is transitive. -/
theorem after_of_lasting {R : Block → Block → Prop} (hr : ∀ a, R a a) (ht : ∀ a b c, R a b → R b c → R a c)
    (hl : ∀ a b, R a (a.lasting b)) (s : State) (l : List Instr) : R s.blk (s.after l).blk := by
  induction l generalizing s with
  | nil => exact hr _
  | cons c l ih =>
    obtain ⟨b, hb⟩ := exec_lasting c s
    have hc : s.after (c :: l) = State.after { s with blk := s.blk.lasting b } l := by
      simp only [State.after, List.foldl_cons, hb]
    rw [hc]
    exact ht _ _ _ (hl s.blk b) (ih { s with blk := s.blk.lasting b })

/-- Settles O58: what a command leaves of the fuses is `Fuses.keep` of the fuses before it, which are below it. -/
theorem fusesStayBlown : Obligations.FusesStayBlown := by
  unfold Obligations.FusesStayBlown
  have hl : ∀ a b : Block, a.trust.fuses.le (a.lasting b).trust.fuses := fun a b => Fuses.le_keep _ _
  refine ⟨fun s t h => ?_, fun s l => ?_⟩
  · have hle := step_of_lasting (R := fun a b => a.trust.fuses.le b.trust.fuses) (fun a => Fuses.le_refl _) hl h
    exact ⟨hle, Fuses.state_le hle⟩
  · exact after_of_lasting (R := fun a b => a.trust.fuses.le b.trust.fuses) (fun a => Fuses.le_refl _)
      (fun a b c => Fuses.le_trans) hl s l

/-- Settles O59: a slot that is programmed is put back after every command. -/
theorem permanentRecordsStay : Obligations.PermanentRecordsStay := by
  unfold Obligations.PermanentRecordsStay
  have hl : ∀ a b : Block, a.ice.permLe (a.lasting b).ice := fun a b k r h => kget_keepSlots h
  refine ⟨fun s t h => ?_, fun s l => ?_⟩
  · exact step_of_lasting (R := fun a b => a.ice.permLe b.ice) (fun a k r => id) hl h
  · exact after_of_lasting (R := fun a b => a.ice.permLe b.ice) (fun a k r => id)
      (fun a b c h h' k r => h' k r ∘ h k r) hl s l

/-! ### The queue of commands, and reset -/

/-- Settles O1: `step_cons`, `step_nil`, and that a command changes the block alone. -/
theorem stepRunsFrontCommand : Obligations.StepRunsFrontCommand := by
  unfold Obligations.StepRunsFrontCommand
  refine ⟨fun s c l => step_cons rfl, fun s c => ?_, fun s h => step_nil h⟩
  obtain ⟨b, hb⟩ := exec_lasting c s
  exact ⟨_, hb, rfl⟩

/-- The pools that hold something at reset hold it free (R338). -/
theorem ledgerReset_ok (n : Nat) : (ledgerReset n).ok = true := by
  unfold ledgerReset
  split_ifs <;> rfl

/-- The addresses that a register of these dimensions can span. -/
def dimsReach : List (Nat × Nat) → Nat
  | [] => 1
  | (n, st) :: _ => n * st

theorem lt_dimsReach {ds : List (Nat × Nat)} {off : Nat} (h : inDims ds off = true) (hs : ∀ d ∈ ds, 0 < d.2) :
    off < dimsReach ds := by
  cases ds with
  | nil => simp [inDims] at h; simp [dimsReach, h]
  | cons d ds =>
    simp only [inDims, Bool.and_eq_true, decide_eq_true_eq] at h
    exact (Nat.div_lt_iff_lt_mul (hs d List.mem_cons_self)).mp h.1

/-- A part of the map lies outside a range of addresses. -/
def rowsOutside (lo hi : Nat) (l : List RegRow) : Bool :=
  l.all fun r => (r.dims.all fun d => decide (0 < d.2)) && (decide (r.base + dimsReach r.dims ≤ lo) || decide (hi ≤ r.base))

/-- The search of the map for an address passes over the rows that lie outside a range around it. -/
theorem find_rowsOutside {lo hi a : Nat} {l : List RegRow} (h : rowsOutside lo hi l = true) (hlo : lo ≤ a) (hhi : a < hi) :
    l.find? (fun r => decide (r.base ≤ a) && inDims r.dims (a - r.base)) = none := by
  rw [List.find?_eq_none]
  intro r hr hm
  simp only [Bool.and_eq_true, decide_eq_true_eq] at hm
  obtain ⟨hb, hd⟩ := hm
  have hr' := List.all_eq_true.mp h r hr
  simp only [Bool.and_eq_true, Bool.or_eq_true, List.all_eq_true, decide_eq_true_eq] at hr'
  obtain ⟨hs, ho⟩ := hr'
  have := lt_dimsReach hd hs
  omega

/-- The row of the epochs of Firn units. -/
theorem regFind_FIRN_EPOCH {u : Nat} (hu : u < 4096) :
    regFind (FIRN_EPOCH u) = some ⟨FIRN_EPOCH 0, [(4096, 0x1000)], 0, 0, 1, 0xFFFF⟩ := by
  have he : FIRN_EPOCH u = 0x4000000 + 0x1000 * u + 4 := by unfold FIRN_EPOCH FIRN; omega
  have hm : regMap = (regMap.take 142) ++ (coldRow (FIRN_ID 0) [(4096, 0x1000)] ::
      ⟨FIRN_EPOCH 0, [(4096, 0x1000)], 0, 0, 1, 0xFFFF⟩ :: regMap.drop 144) := rfl
  unfold regFind
  rw [hm, List.find?_append, find_rowsOutside (lo := 0x4000000) (hi := 0x5000000) (by decide) (by omega) (by omega),
    Option.none_or, List.find?_cons_of_neg, List.find?_cons_of_pos]
  · simp only [Bool.and_eq_true, decide_eq_true_eq, inDims, beq_iff_eq, show FIRN_EPOCH 0 = 0x4000004 from rfl]
    omega
  · simp only [coldRow, Bool.and_eq_true, decide_eq_true_eq, inDims, beq_iff_eq, show FIRN_ID 0 = 0x4000000 from rfl]
    omega

/-- Firn units start in epoch 1 (R415). -/
theorem fld_FIRN_EPOCH_reset {u : Nat} (hu : u < 4096) : State.reset.blk.fld (FIRN_EPOCH u) 15 0 = 1 := by
  have hr : regUnitReset (FIRN_EPOCH u) = 0 := by
    have he : FIRN_EPOCH u = 0x4000000 + 0x1000 * u + 4 := by unfold FIRN_EPOCH FIRN; omega
    rw [he, regUnitReset, if_neg (by omega), if_neg (by omega), if_neg (by omega)]
  have h : State.reset.blk.rg (FIRN_EPOCH u) = 1 := by
    change regReset (FIRN_EPOCH u) = 1
    rw [regReset, regFind_FIRN_EPOCH hu, hr]
    rfl
  rw [Block.fld, h]
  rfl

/-- Settles O60: nothing is listed in the tables of the reset state, so each entry is its default. -/
theorem resetState : Obligations.ResetState := by
  unfold Obligations.ResetState
  refine ⟨rfl, fun a => rfl, fun n => rfl, fun n => ledgerReset_ok n, ⟨rfl, fun p k o h => ?_, fun t => rfl⟩, rfl,
    ⟨rfl, rfl, rfl, rfl, rfl, rfl, rfl⟩, rfl, rfl, rfl, rfl, rfl, fun u hu => ?_, step_nil rfl⟩
  · cases h
  · exact fld_FIRN_EPOCH_reset hu

end Sys2Proof.Machine
end

section
/-! Writes of registers: a register whose write has a row of its own acts by that row, any other register stores, and
clears meet what hardware sets (R4, R5, R377 to R379). -/

namespace Sys2Proof.Machine

/-! ### Which registers belong to channels -/

/-- A register below the function pages and outside the secure page's data is no channel's data. -/
theorem dataChan_none {a : Nat} (h : a < s0Base ∨ s0Base + 0x40 ≤ a) (hp : a < fnPage 0 ∨ fnPage 64 ≤ a) : dataChan a = none := by
  unfold dataChan
  rw [if_neg (by omega), if_neg (by omega)]

theorem ctrlChan_none_of_low {a : Nat} (h : a % 0x100 = 0x40 → dataChan (a - 0x40) = none) : ctrlChan a = none := by
  unfold ctrlChan
  split_ifs with h1 h2
  · exact h h2
  all_goals rfl

/-- The doorbells and ring heads of a page are no channel's. -/
theorem dataChan_page {f off : Nat} (hf : f < 64) (ho : off < 0x1000) : dataChan (fnPage f + off) = none := by
  have h0 : fnPage f = 0x100000000 + f * 0x10000 := rfl
  have h1 : fnPage 64 = 0x100400000 := rfl
  have h2 : s0Base = 0x00308000 := rfl
  have h3 : fnPage 0 = 0x100000000 := rfl
  unfold dataChan
  rw [if_neg (by omega), if_pos (by omega), if_neg (by omega)]

theorem ctrlChan_page {f off : Nat} (hf : f < 64) (ho : off < 0x1000) : ctrlChan (fnPage f + off) = none := by
  refine ctrlChan_none_of_low fun h => ?_
  have h0 : fnPage f = 0x100000000 + f * 0x10000 := rfl
  rw [show fnPage f + off - 0x40 = fnPage f + (off - 0x40) by omega]
  exact dataChan_page hf (by omega)

/-- A register of BAR0 below the function pages, of no channel. -/
theorem regWriteEffect_bar0 {i a : Nat} (v : Word) (s : Block) (hd : dataChan a = none) (hc : ctrlChan a = none)
    (hp : ¬(fnPage 0 ≤ a ∧ a < fnPage 64)) (h1 : a ≠ ICE_SEL) (h2 : a ≠ ICE_CLEAR) :
    regWriteEffect i a v s =
      if a = CLK_SEL then effClkSelWrite i v s
      else if a = PWR_LIMIT then effPwrLimitWrite i v s
      else if a = SCH_HB then effHeartbeat v s
      else if a = MOR_RESET then (if v.fld 1 0 = 2 then effMorResetCold i v s else effMorResetWarm i v s)
      else if 0x4000000 ≤ a ∧ a < 0x5000000 ∧ a % 0x1000 = 0x60 then effFirnHostGo ((a - 0x4000000) / 0x1000) v s
      else plainWriteEffect a v s := by
  unfold regWriteEffect
  simp only [hd, hc, if_neg hp, if_neg h1, if_neg h2]

theorem effRegisterWrite_at {i off a : Nat} {bar : Bar} (h : regAddr i bar off = some a) (v : Word) (s : Block) :
    effRegisterWrite i bar off v s = regWriteEffect i a v s := by
  unfold effRegisterWrite
  rw [h]

/-- Two commands with the same effect on every block are one. -/
theorem onBlk_congr {f g : Block → Block} (s : State) (h : f s.blk = g s.blk) : onBlk f s = onBlk g s := by
  unfold onBlk
  rw [h]

/-! ### Registers of a page -/

theorem regAddr_bar2 {i off : Nat} (hi : i < 64) (h4 : off % 4 = 0) (ho : off < 0x10000) :
    regAddr i .bar2 off = some (fnPage i + off) := by
  unfold regAddr
  exact if_pos ⟨h4, ho, hi⟩

theorem regAddr_bar0_pf {off : Nat} (h4 : off % 4 = 0) (ho : off < 0x10000000) (h : off < 0x301000 ∨ 0x301C00 ≤ off) :
    regAddr 0 .bar0 off = some off := by
  unfold regAddr bar0Addr
  rw [if_pos ⟨h4, ho, Or.inl rfl⟩, if_neg (by omega)]

theorem regWriteEffect_page {i off : Nat} (hi : i < 64) (ho : off < 0x1000) (v : Word) (s : Block) :
    regWriteEffect i (fnPage i + off) v s = pageWrite i off v s := by
  have h0 : fnPage i = 0x100000000 + i * 0x10000 := rfl
  have h1 : fnPage 64 = 0x100400000 := rfl
  have h3 : fnPage 0 = 0x100000000 := rfl
  unfold regWriteEffect
  simp only [dataChan_page hi ho, ctrlChan_page hi ho]
  rw [if_pos (by omega), show (fnPage i + off - fnPage 0) / 0x10000 = i by omega, show (fnPage i + off) % 0x10000 = off by omega]

theorem effRegisterWrite_doorbell {i k : Nat} (hi : i < 64) (hk : k < 64) (v : Word) (s : Block) :
    effRegisterWrite i .bar2 (4 * k) v s = effDoorbell i k v s := by
  rw [effRegisterWrite_at (regAddr_bar2 hi (by omega) (by omega)), regWriteEffect_page hi (by omega), pageWrite,
    if_pos (by omega), Nat.mul_div_cancel_left _ (by omega)]

theorem effRegisterWrite_ringHead {i k : Nat} (hi : i < 64) (hk : k < 64) (v : Word) (s : Block) :
    effRegisterWrite i .bar2 (0x200 + 4 * k) v s = effRingHeadWrite i k v s := by
  rw [effRegisterWrite_at (regAddr_bar2 hi (by omega) (by omega)), regWriteEffect_page hi (by omega), pageWrite,
    if_neg (by omega), if_pos (by omega), show (0x200 + 4 * k - 0x200) / 4 = k by omega]

/-- A register of BAR0 above the secure page and below the function pages, written by the PF. -/
theorem effRegisterWrite_pf {a : Nat} (h4 : a % 4 = 0) (ho : a < 0x10000000) (h : a < 0x300000 ∨ 0x500000 ≤ a) (v : Word)
    (s : Block) :
    effRegisterWrite 0 .bar0 a v s =
      if a = CLK_SEL then effClkSelWrite 0 v s
      else if a = PWR_LIMIT then effPwrLimitWrite 0 v s
      else if a = SCH_HB then effHeartbeat v s
      else if a = MOR_RESET then (if v.fld 1 0 = 2 then effMorResetCold 0 v s else effMorResetWarm 0 v s)
      else if 0x4000000 ≤ a ∧ a < 0x5000000 ∧ a % 0x1000 = 0x60 then effFirnHostGo ((a - 0x4000000) / 0x1000) v s
      else plainWriteEffect a v s := by
  have h1 : fnPage 64 = 0x100400000 := rfl
  have h2 : s0Base = 0x00308000 := rfl
  have h3 : fnPage 0 = 0x100000000 := rfl
  have h5 : ICE_SEL = 0x00400010 := rfl
  have h6 : ICE_CLEAR = 0x00400018 := rfl
  rw [effRegisterWrite_at (regAddr_bar0_pf h4 ho (by omega)),
    regWriteEffect_bar0 v s (dataChan_none (by omega) (by omega))
      (ctrlChan_none_of_low fun _ => dataChan_none (by omega) (by omega)) (by omega) (by omega) (by omega)]

/-- Settles O3: the address picks the row, and the two commands have the same effect. -/
theorem registerWriteActsByItsRow : Obligations.RegisterWriteActsByItsRow := by
  unfold Obligations.RegisterWriteActsByItsRow
  refine ⟨fun s i k v hi hk => ⟨?_, ?_⟩, fun s v => ⟨?_, ?_, ?_⟩, fun s u v hu => ?_⟩
  · exact onBlk_congr s (effRegisterWrite_doorbell hi hk v s.blk)
  · exact onBlk_congr s (effRegisterWrite_ringHead hi hk v s.blk)
  · refine onBlk_congr s ?_
    rw [effRegisterWrite_pf (by decide) (by decide) (by decide), if_pos rfl]
  · refine onBlk_congr s ?_
    rw [effRegisterWrite_pf (by decide) (by decide) (by decide), if_neg (by decide), if_pos rfl]
  · refine onBlk_congr s ?_
    rw [effRegisterWrite_pf (by decide) (by decide) (by decide), if_neg (by decide), if_neg (by decide), if_pos rfl]
  · have h1 : CLK_SEL = 0x00100004 := rfl
    have h2 : PWR_LIMIT = 0x0020000C := rfl
    have h3 : SCH_HB = 0x06000010 := rfl
    have h4 : MOR_RESET = 0x00000108 := rfl
    refine onBlk_congr s ?_
    rw [effRegisterWrite_pf (by omega) (by omega) (by omega), if_neg (by omega), if_neg (by omega), if_neg (by omega),
      if_neg (by omega), if_pos (by omega), show (0x4000000 + 0x1000 * u + 0x60 - 0x4000000) / 0x1000 = u by omega]

/-! ### Bits of what is stored -/

theorem bit_readCleared (m : Nat) (old : Word) (event : Nat) {j : Nat} (hj : j < 32) :
    (readCleared m old (w32 event)).bit j = if m.testBit j then event.testBit j else old.bit j := by
  rw [readCleared, bit_masked _ _ _ hj]
  congr 1
  change (w32 event).getLsbD j = _
  rw [BitVec.getLsbD_ofNat, decide_eq_true hj, Bool.true_and]

theorem bit_w1cAfter (m : Nat) (old v set : Word) {j : Nat} (hj : j < 32) :
    (w1cAfter m old v set).bit j = if m.testBit j then set.bit j || (old.bit j && !v.bit j) else old.bit j := by
  have hm : (w32 m).getLsbD j = m.testBit j := by
    rw [BitVec.getLsbD_ofNat, decide_eq_true hj, Bool.true_and]
  change (w1cAfter m old v set).getLsbD j =
    if m.testBit j then set.getLsbD j || (old.getLsbD j && !v.getLsbD j) else old.getLsbD j
  rw [w1cAfter, BitVec.getLsbD_or, BitVec.getLsbD_and, BitVec.getLsbD_and, BitVec.getLsbD_not, BitVec.getLsbD_and, hm]
  cases m.testBit j <;> simp [hj, Bool.or_comm]

/-- No register of the map has a bit that both a write sets and a 1 clears. -/
theorem rwBits_w1cBits (a j : Nat) : ((rwBits a).testBit j && (w1cBits a).testBit j) = false := by
  have key : ∀ r ∈ regMap, r.rw &&& r.w1c = 0 := by decide +kernel
  unfold rwBits w1cBits
  cases h : regFind a with
  | none => simp
  | some r =>
    have hr := key r (List.mem_of_find?_eq_some h)
    simpa [Nat.testBit_and] using congrArg (fun n => Nat.testBit n j) hr

theorem bit_storedWord (s : Block) (a : Nat) (v : Word) {j : Nat} (hj : j < 32) :
    (storedWord s a v).bit j =
      if (w1cBits a).testBit j && v.bit j then false
      else if (rwBits a).testBit j then (clampWord (clampsOf a) v).bit j else (s.rg a).bit j := by
  have h0 : (0 : Word).bit j = false := Nat.zero_testBit j
  have hx := rwBits_w1cBits a j
  rw [storedWord, bit_w1cAfter _ _ _ _ hj, bit_masked _ _ _ hj, h0]
  cases hw : (w1cBits a).testBit j <;> cases hr : (rwBits a).testBit j <;> cases v.bit j <;> simp_all

/-! ### A command that writes one register -/

/-- What a command that writes one register leaves. -/
theorem exec_wr {f : Block → Block} {s : State} {a : Nat} {w : Word} (h : f s.blk = s.blk.wr a w) :
    ∃ t : State, onBlk f s = .next t ∧ t.pending = s.pending ∧ { t.blk with regs := s.blk.regs } = s.blk ∧
      (∀ b, b ≠ a → t.blk.rg b = s.blk.rg b) ∧ t.blk.rg a = w :=
  ⟨_, onBlk_next_of_eq h rfl rfl, rfl, rfl, fun _ hb => Block.rg_wr_other _ _ hb, Block.rg_wr_same ..⟩

/-- A register that a write may find absent has no row of its own. -/
theorem regWriteEffect_discarded {i a : Nat} (v : Word) {s : Block} (h : s.takesWrite a = false) : regWriteEffect i a v s = s := by
  have h1 : fnPage 64 = 0x100400000 := rfl
  have h2 : s0Base = 0x00308000 := rfl
  have h3 : fnPage 0 = 0x100000000 := rfl
  have h5 : ICE_SEL = 0x00400010 := rfl
  have h6 : ICE_CLEAR = 0x00400018 := rfl
  have h7 : CLK_SEL = 0x00100004 := rfl
  have h8 : PWR_LIMIT = 0x0020000C := rfl
  have h9 : SCH_HB = 0x06000010 := rfl
  have h10 : MOR_RESET = 0x00000108 := rfl
  have hr : (0x06200000 ≤ a ∧ a < 0x06402000) ∨ (0x4000000 ≤ a ∧ a < 0x5000000 ∧ a % 0x1000 < 0x60) := by
    unfold Block.takesWrite at h
    split_ifs at h <;> omega
  rw [regWriteEffect_bar0 v s (dataChan_none (by omega) (by omega))
      (ctrlChan_none_of_low fun _ => dataChan_none (by omega) (by omega)) (by omega) (by omega) (by omega),
    if_neg (by omega), if_neg (by omega), if_neg (by omega), if_neg (by omega), if_neg (by omega), plainWriteEffect, h]
  rfl

/-- Settles O2: each command writes one register, whose bits are those of `storedWord`, `readCleared` and `w1cAfter`; a
discarded write leaves the block. -/
theorem registerWriteStores : Obligations.RegisterWriteStores := by
  unfold Obligations.RegisterWriteStores
  refine ⟨?store, ?discard, ?readClear, ?w1c⟩
  case store =>
    intro s i bar off a v ha hd hc hp hn hg ht
    simp only [List.mem_cons, List.not_mem_nil, not_or, or_false] at hn
    obtain ⟨h1, h2, h3, h4, h5, h6⟩ := hn
    have he : effRegisterWrite i bar off v s.blk = s.blk.wr a (storedWord s.blk a v) := by
      rw [effRegisterWrite_at ha, regWriteEffect_bar0 v s.blk hd hc hp h1 h2, if_neg h3, if_neg h4, if_neg h5, if_neg h6,
        if_neg hg, plainWriteEffect, if_pos ht]
    obtain ⟨t, hx, hq, hf, ho, hw⟩ := exec_wr he
    exact ⟨t, hx, hq, hf, ho, fun j hj => by rw [hw, bit_storedWord _ _ _ hj]⟩
  case discard =>
    intro s i bar off a v ha ht
    exact onBlk_next_of_eq ((effRegisterWrite_at ha v s.blk).trans (regWriteEffect_discarded v ht)) rfl rfl
  case readClear =>
    intro s i bar off a event ha
    have he : effReadClear i bar off event s.blk = s.blk.wr a (readCleared (rcBits a) (s.blk.rg a) (w32 event)) := by
      simp only [effReadClear, ha]
    obtain ⟨t, hx, hq, hf, ho, hw⟩ := exec_wr he
    exact ⟨t, hx, hq, hf, ho, fun j hj => by rw [hw, bit_readCleared _ _ _ hj]⟩
  case w1c =>
    intro s i bar off a v set ha
    have he : effW1cWrite i bar off v set s.blk = s.blk.wr a (w1cAfter (w1cBits a) (s.blk.rg a) v set) := by
      simp only [effW1cWrite, ha]
    obtain ⟨t, hx, hq, hf, ho, hw⟩ := exec_wr he
    exact ⟨t, hx, hq, hf, ho, fun j hj => by rw [hw, bit_w1cAfter _ _ _ _ hj]⟩

end Sys2Proof.Machine
end

section
/-! Messages that are delivered and answered at once: the reply on the pair's device-to-host side, and what carries the
message put back. -/

namespace Sys2Proof.Machine

/-! ### Places of channels -/

/-- The two sides of a pair share no register. -/
theorem chBase_lt_chBack (ch : Chan) : chBase ch + 0x100 ≤ chBack ch := by
  cases ch with
  | fn f n =>
    have h1 : chBase (.fn f n) = 0x100000000 + f * 0x10000 + 0x1000 + 0x100 * n := rfl
    have h2 : chBack (.fn f n) = 0x100000000 + f * 0x10000 + 0x1800 + 0x100 * n := rfl
    omega
  | s0 => decide
  | s1 => decide
  | mgmt => decide

theorem chBase_ne_ice (ch : Chan) (k : Nat) (h : k < 0x100) : chBase ch + k ≠ ICE_DROPPED := by
  intro e
  have e : chBase ch + k = 0x0040001C := e
  cases ch with
  | fn f n =>
    have e2 : 0x100000000 + f * 0x10000 + 0x1000 + 0x100 * n = chBase (.fn f n) := rfl
    omega
  | s0 =>
    have e2 : chBase .s0 = 0x00308000 := rfl
    omega
  | s1 =>
    have e2 : chBase .s1 = 0x300000000 := rfl
    omega
  | mgmt =>
    have e2 : chBase .mgmt = 0x300000200 := rfl
    omega

theorem chBase_ne_ldg (ch : Chan) (k : Nat) (h : k < 0x100) : chBase ch + k ≠ LDG_STATUS := by
  intro e
  have e : chBase ch + k = 0x00500000 := e
  cases ch with
  | fn f n =>
    have e2 : 0x100000000 + f * 0x10000 + 0x1000 + 0x100 * n = chBase (.fn f n) := rfl
    omega
  | s0 =>
    have e2 : chBase .s0 = 0x00308000 := rfl
    omega
  | s1 =>
    have e2 : chBase .s1 = 0x300000000 := rfl
    omega
  | mgmt =>
    have e2 : chBase .mgmt = 0x300000200 := rfl
    omega

/-! ### Blocks that agree on what a reply finds -/

/-- Whether a reply is written at once rests on the channel and its status register. -/
theorem Block.backFree_congr {s t : Block} {ch : Chan} (hr : t.rg (chBack ch + 0x44) = s.rg (chBack ch + 0x44))
    (hb : t.box (chBack ch) = s.box (chBack ch)) (h : s.backFree ch) : t.backFree ch := by
  obtain ⟨hf, hw⟩ := h
  exact ⟨(Block.full_congr hr).trans hf, hb ▸ hw⟩

/-! ### A message taken -/

theorem Block.rg_msgTaken (s : Block) (ch : Chan) {a : Nat} (h : a ≠ chBase ch + 0x44) (h1 : a ≠ ICE_DROPPED)
    (h2 : a ≠ LDG_STATUS) : (s.msgTaken ch).rg a = s.rg a := by
  unfold Block.msgTaken
  refine (Block.rg_chLed _ ch _ fun s n => ?_).trans ?_
  · exact (Block.rg_led1 _ _ _ h1 h2).trans (Block.rg_led1 _ _ _ h1 h2)
  · rw [Block.rg_setBox, Block.rg_wb_other _ _ _ h]

theorem Block.box_msgTaken_other (s : Block) (ch : Chan) {a : Nat} (h : a ≠ chBase ch) :
    (s.msgTaken ch).box a = s.box a := by
  unfold Block.msgTaken
  rw [Block.box_congr (Block.chLed_mbx _ _ _ fun s n => by rw [Block.ledLand_mbx, Block.ledSend_mbx]),
    Block.box_setBox_other _ _ h]
  exact Block.box_congr (Block.wb_mbx ..)

/-- A pair whose device-to-host side is free still is when its message is taken. -/
theorem Block.backFree_msgTaken {s : Block} {ch : Chan} (h : s.backFree ch) : (s.msgTaken ch).backFree ch :=
  have hlt := chBase_lt_chBack ch
  Block.backFree_congr (Block.rg_msgTaken _ _ (by omega) (chBack_ne_ice _ _ (by omega)) (chBack_ne_ldg _ _ (by omega)))
    (Block.box_msgTaken_other _ _ (by omega)) h

/-! ### What carries a message, put back -/

/-- Taking a message changes only what carries it. -/
@[simp] theorem Block.mailBack_msgTaken (s t : Block) (ch : Chan) : (s.msgTaken ch).mailBack t = s.mailBack t := by
  simp [Block.mailBack]

/-- A reply changes only what carries it. -/
@[simp] theorem Block.mailBack_reply (s t : Block) (ch : Chan) (ws : List Word) : (s.reply ch ws).mailBack t = s.mailBack t := by
  simp [Block.mailBack]

@[simp] theorem Block.mailBack_self (s : Block) : s.mailBack s = s := rfl

@[simp] theorem Block.mailBack_wr (s t : Block) (a : Nat) (v : Word) : (s.wr a v).mailBack t = s.mailBack t := rfl

/-! ### A message delivered, handled and answered -/

/-- What a delivered message leaves: the reply to it, on top of what its handling did. -/
theorem exec_message {s : State} {ch : Chan} {type : Nat} {h : Block → List Word → Answer} {a : Answer}
    (hd : s.blk.delivers ch type) (ha : h (s.blk.msgTaken ch) (s.blk.msgWords ch) = a) (hb : a.blk.backFree ch)
    (hf : a.blk.trust.fuses = s.blk.trust.fuses) (hp : a.blk.ice.perm = s.blk.ice.perm) :
    ∃ t : State, onBlk (fun b => b.message ch type h) s = .next t ∧ t.pending = s.pending ∧
      t.blk.repliedTo s.blk ch a.status ∧ (∀ i, i + 2 < 16 → t.blk.rg (chBack ch + 4 * (i + 2)) = a.regs.getD i 0) ∧
      t.blk = a.blk.reply ch (mreg (s.blk.msgWords ch) 0 :: w32 a.status :: a.regs) := by
  subst ha
  have he := Block.message_delivers hd h
  obtain ⟨hfull, hregs⟩ := Block.reply_free hb (mreg (s.blk.msgWords ch) 0 ::
    w32 (h (s.blk.msgTaken ch) (s.blk.msgWords ch)).status :: (h (s.blk.msgTaken ch) (s.blk.msgWords ch)).regs)
  refine ⟨_, onBlk_next_of_eq (f := fun b => b.message ch type h) he (by rw [Block.reply_trust, hf]) (by rw [Block.reply_perm, hp]),
    rfl, ⟨hfull, hregs 0 (by omega), hregs 1 (by omega)⟩, fun i hi => hregs (i + 2) hi, rfl⟩

end Sys2Proof.Machine
end

section
/-! Queues, rings and doorbells of a function (R382 to R394, R304, R327). -/

namespace Sys2Proof.Machine

/-! ### A function changed -/

theorem Block.fn_modFn (s : Block) (f g : Nat) (h : Fn → Fn) : (s.modFn f h).fn g = if g = f then h (s.fn f) else s.fn g := by
  unfold Block.fn Block.modFn
  split_ifs with e
  · subst e
    exact tget_tset_same ..
  · exact tget_tset_other _ _ _ _ e

@[simp] theorem Block.fn_modFn_same (s : Block) (f : Nat) (h : Fn → Fn) : (s.modFn f h).fn f = h (s.fn f) := by
  rw [Block.fn_modFn, if_pos rfl]

theorem Block.fn_modFn_other (s : Block) {f g : Nat} (h : Fn → Fn) (hg : g ≠ f) : (s.modFn f h).fn g = s.fn g := by
  rw [Block.fn_modFn, if_neg hg]

@[simp] theorem Block.rg_modFn (s : Block) (f : Nat) (h : Fn → Fn) (a : Nat) : (s.modFn f h).rg a = s.rg a := rfl

theorem Block.fn_congr {s t : Block} (h : t.fns = s.fns) (f : Nat) : t.fn f = s.fn f := by
  unfold Block.fn
  rw [h]

theorem Block.hostQueue_congr {s t : Block} {f q : Nat} (h : t.fn f = s.fn f) : t.hostQueue f q = s.hostQueue f q := by
  unfold Block.hostQueue
  rw [h]

theorem Block.ring_congr {s t : Block} {f r : Nat} (h : t.fn f = s.fn f) : t.ring f r = s.ring f r := by
  unfold Block.ring
  rw [h]

theorem Block.hostQueue_modQueue (s : Block) (f q g r : Nat) (h : HostQueue → HostQueue) :
    (s.modQueue f q h).hostQueue g r = if (g, r) = (f, q) then (s.hostQueue f q).map h else s.hostQueue g r := by
  unfold Block.hostQueue Block.modQueue
  rw [Block.fn_modFn]
  by_cases hg : g = f
  · subst hg
    rw [if_pos rfl]
    by_cases hr : r = q
    · subst hr
      simp [kget_kmod]
    · simp [kget_kmod, hr]
  · simp [hg]

/-- A ring changed. -/
def Block.modRing (s : Block) (f r : Nat) (h : Ring → Ring) : Block := s.modFn f fun y => { y with rings := kmod y.rings r h }

theorem Block.ring_modRing (s : Block) (f r g q : Nat) (h : Ring → Ring) :
    (s.modRing f r h).ring g q = if (g, q) = (f, r) then (s.ring f r).map h else s.ring g q := by
  unfold Block.ring Block.modRing
  rw [Block.fn_modFn]
  by_cases hg : g = f
  · subst hg
    rw [if_pos rfl]
    by_cases hr : q = r
    · subst hr
      simp [kget_kmod]
    · simp [kget_kmod, hr]
  · simp [hg]

/-- A hold that is empty delivers nothing. -/
theorem Block.flushHeld_of_empty {s : Block} {f : Nat} (h : (s.fn f).held = []) :
    s.flushHeld f = s ∨ s.flushHeld f = s.modFn f fun x => { x with held := [] } := by
  unfold Block.flushHeld
  split_ifs
  · exact Or.inl rfl
  · rw [h]
    exact Or.inr rfl

/-! ### Fields and places -/

theorem Word.fld_lt (w : Word) (hi lo : Nat) : w.fld hi lo < 2 ^ (hi + 1 - lo) := Nat.mod_lt _ (by positivity)

/-- HEAD of a queue lies outside the pair's channels. -/
theorem chBack_ne_SQ_HEAD (ch : Chan) {q k : Nat} (hq : q < 64) (hk : k < 0x100) : chBack ch + k ≠ SQ_HEAD (chFn ch) q := by
  have h0 : SQ_HEAD (chFn ch) q = 0x100000000 + chFn ch * 0x10000 + 0x100 + 4 * q := rfl
  cases ch with
  | fn f n =>
    have e1 : chBack (.fn f n) = 0x100000000 + f * 0x10000 + 0x1800 + 0x100 * n := rfl
    have e2 : chFn (.fn f n) = f := rfl
    omega
  | s0 =>
    have e1 : chBack .s0 = 0x00308100 := rfl
    omega
  | s1 =>
    have e1 : chBack .s1 = 0x300000100 := rfl
    have e2 : chFn .s1 = 64 := rfl
    omega
  | mgmt =>
    have e1 : chBack .mgmt = 0x300000300 := rfl
    have e2 : chFn .mgmt = 64 := rfl
    omega

theorem chBase_ne_SQ_HEAD (ch : Chan) {q k : Nat} (hq : q < 64) (hk : k < 0x100) : chBase ch + k ≠ SQ_HEAD (chFn ch) q := by
  have h0 : SQ_HEAD (chFn ch) q = 0x100000000 + chFn ch * 0x10000 + 0x100 + 4 * q := rfl
  cases ch with
  | fn f n =>
    have e1 : chBase (.fn f n) = 0x100000000 + f * 0x10000 + 0x1000 + 0x100 * n := rfl
    have e2 : chFn (.fn f n) = f := rfl
    omega
  | s0 =>
    have e1 : chBase .s0 = 0x00308000 := rfl
    omega
  | s1 =>
    have e1 : chBase .s1 = 0x300000000 := rfl
    have e2 : chFn .s1 = 64 := rfl
    omega
  | mgmt =>
    have e1 : chBase .mgmt = 0x300000200 := rfl
    have e2 : chFn .mgmt = 64 := rfl
    omega

/-- HEAD of a ring lies outside the pair's channels. -/
theorem chBack_ne_RING_HEAD (ch : Chan) {r k : Nat} (hr : r < 64) (hk : k < 0x100) :
    chBack ch + k ≠ RING_HEAD (chFn ch) r := by
  have h0 : RING_HEAD (chFn ch) r = 0x100000000 + chFn ch * 0x10000 + 0x200 + 4 * r := rfl
  cases ch with
  | fn f n =>
    have e1 : chBack (.fn f n) = 0x100000000 + f * 0x10000 + 0x1800 + 0x100 * n := rfl
    have e2 : chFn (.fn f n) = f := rfl
    omega
  | s0 =>
    have e1 : chBack .s0 = 0x00308100 := rfl
    omega
  | s1 =>
    have e1 : chBack .s1 = 0x300000100 := rfl
    have e2 : chFn .s1 = 64 := rfl
    omega
  | mgmt =>
    have e1 : chBack .mgmt = 0x300000300 := rfl
    have e2 : chFn .mgmt = 64 := rfl
    omega

/-- The position reached by counting on from `old` to `v` round a ring of `m` places. -/
theorem ring_advance {m old v : Nat} (ho : old < m) (hv : v < m) : (old + (v + (m - old)) % m) % m = v := by
  rw [Nat.add_mod_mod, show old + (v + (m - old)) = v + m by omega, Nat.add_mod_right, Nat.mod_eq_of_lt hv]

/-! ### Doorbells, ring heads and coalescing -/

theorem exec_doorbell_taken {s : State} {f q : Nat} {v : Word} {x : HostQueue} (hf : f < 64) (hq : q < 64)
    (hx : s.blk.hostQueue f q = some x) (hv : v.fld 15 0 < 2 ^ x.k) :
    exec (.doorbell f q v) s =
      .next { s with blk := s.blk.modQueue f q fun x => { x with tail := v.fld 15 0, stopped := false } } := by
  refine onBlk_next_of_eq (f := effDoorbell f q v) ?_ rfl rfl
  simp only [effDoorbell, if_pos (And.intro hf hq), doorbellEffect, hx, if_neg (Nat.not_le.mpr hv)]

theorem exec_doorbell_discarded {s : State} {f q : Nat} {v : Word} (hf : f < 64) (hq : q < 64)
    (h : s.blk.hostQueue f q = none ∨ ∃ x, s.blk.hostQueue f q = some x ∧ 2 ^ x.k ≤ v.fld 15 0) :
    exec (.doorbell f q v) s = .next { s with blk := s.blk.bump (HIF_CNT f 0) } := by
  refine onBlk_next_of_eq (f := effDoorbell f q v) ?_ (by rw [Block.bump_trust]) (by rw [Block.bump_ice])
  obtain hn | ⟨x, hx, hv⟩ := h
  · simp only [effDoorbell, if_pos (And.intro hf hq), doorbellEffect, hn]
  · simp only [effDoorbell, if_pos (And.intro hf hq), doorbellEffect, hx, if_pos hv]

/-- The block after a write that consumes `n` entries of a ring. -/
def Block.ringConsumed (s : Block) (f r v n : Nat) : Block :=
  (s.wf (RING_HEAD f r) 15 0 v).modRing f r fun x => { x with filled := x.filled - n }

@[simp] theorem Block.rg_modRing (s : Block) (f r : Nat) (h : Ring → Ring) (a : Nat) : (s.modRing f r h).rg a = s.rg a := rfl

theorem Block.rg_ringConsumed (s : Block) (f r v n a : Nat) :
    (s.ringConsumed f r v n).rg a = (s.wf (RING_HEAD f r) 15 0 v).rg a := by
  rw [Block.ringConsumed, Block.rg_modRing]

theorem exec_ringHead_taken {s : State} {f r n : Nat} {v : Word} {x : Ring} (hf : f < 64) (hr : r < 64)
    (hx : s.blk.ring f r = some x) (ho : s.blk.fld (RING_HEAD f r) 15 0 < 2 ^ x.k) (hv : v.fld 15 0 < 2 ^ x.k)
    (hn : n = (v.fld 15 0 + (2 ^ x.k - s.blk.fld (RING_HEAD f r) 15 0)) % 2 ^ x.k) (hc : n ≤ x.filled)
    (hh : (s.blk.fn f).held = []) :
    ∃ b : Block, exec (.ringHeadWrite f r v) s = .next { s with blk := b } ∧
      (b = s.blk.ringConsumed f r (v.fld 15 0) n ∨
       b = (s.blk.ringConsumed f r (v.fld 15 0) n).modFn f fun x => { x with held := [] }) := by
  have he : effRingHeadWrite f r v s.blk = (s.blk.ringConsumed f r (v.fld 15 0) n).flushHeld f := by
    simp only [effRingHeadWrite, if_pos (And.intro hf hr), ringHeadEffect, hx, ← hn, if_neg (Nat.not_lt.mpr hc)]
    rw [hn, ring_advance ho hv, Block.ringConsumed, Block.modRing]
  have hh' : ((s.blk.ringConsumed f r (v.fld 15 0) n).fn f).held = [] := by
    rw [Block.ringConsumed, Block.modRing, Block.fn_modFn_same, Block.fn_congr (Block.wf_fns ..)]
    exact hh
  have ht : (s.blk.ringConsumed f r (v.fld 15 0) n).trust = s.blk.trust := by
    simp [Block.ringConsumed, Block.modRing]
  have hi : (s.blk.ringConsumed f r (v.fld 15 0) n).ice = s.blk.ice := by
    simp [Block.ringConsumed, Block.modRing]
  obtain h | h := Block.flushHeld_of_empty hh'
  · exact ⟨_, onBlk_next_of_eq (he.trans h) (by rw [ht]) (by rw [hi]), Or.inl rfl⟩
  · exact ⟨_, onBlk_next_of_eq (he.trans h) (by rw [Block.modFn_trust, ht]) (by rw [Block.modFn_ice, hi]), Or.inr rfl⟩

theorem exec_ringHead_discarded {s : State} {f r : Nat} {v : Word} {x : Ring} (hf : f < 64) (hr : r < 64)
    (hx : s.blk.ring f r = some x)
    (hc : x.filled < (v.fld 15 0 + (2 ^ x.k - s.blk.fld (RING_HEAD f r) 15 0)) % 2 ^ x.k) :
    exec (.ringHeadWrite f r v) s = .next { s with blk := s.blk.bump (HIF_CNT f 0) } := by
  refine onBlk_next_of_eq (f := effRingHeadWrite f r v) ?_ (by rw [Block.bump_trust]) (by rw [Block.bump_ice])
  simp only [effRingHeadWrite, if_pos (And.intro hf hr), ringHeadEffect, hx, if_pos hc]

theorem Block.ring_ringConsumed (s : Block) (f r v n g q : Nat) :
    (s.ringConsumed f r v n).ring g q =
      if (g, q) = (f, r) then (s.ring f r).map fun x => { x with filled := x.filled - n } else s.ring g q := by
  unfold Block.ringConsumed
  rw [Block.ring_modRing, Block.ring_congr (Block.fn_congr (Block.wf_fns ..) _),
    Block.ring_congr (Block.fn_congr (Block.wf_fns ..) _)]

/-- Emptying an empty hold changes no ring. -/
theorem Block.ring_modFn_held (s : Block) (f g q : Nat) (l : List HeldItem) :
    (s.modFn f fun x => { x with held := l }).ring g q = s.ring g q := by
  unfold Block.ring
  rw [Block.fn_modFn]
  split_ifs with h
  · rw [h]
  · rfl

theorem Block.msi_msix (s : Block) (f v : Nat) :
    (s.msix f v).env.msi = kput s.env.msi (f * 4096 + v) (tget 0 s.env.msi (f * 4096 + v) + 1) := rfl

theorem exec_coalesceTimer_due {s : State} {f r : Nat} {x : Ring} (hx : s.blk.ring f r = some x) (hu : 0 < x.unann)
    (ht : x.since + x.coalUs * 1000 ≤ s.blk.now) (hd : s.blk.dmaStopped f = false) :
    exec (.coalesceTimer f r) s =
      .next { s with blk := (s.blk.modRing f r fun x => { x with unann := 0 }).msix f x.vector } := by
  refine onBlk_next_of_eq (f := effCoalesceTimer f r) ?_ rfl rfl
  have hdue : coalesceDue f r s.blk = true := by
    simp only [coalesceDue, hx, hd, decide_eq_true (And.intro hu ht)]
    rfl
  simp only [effCoalesceTimer, if_pos hdue, coalesceEffect, hx, Block.modRing]

/-! ### Queues and rings by message -/

/-- The handling of a message that changes one function and what carries the message answers on a free pair, and puts the
block back. -/
theorem exec_message_fn {s : State} {ch : Chan} {type : Nat} {h : Block → List Word → Answer} {b : Block} {g : Fn → Fn}
    {regs : List Word} (hd : s.blk.delivers ch type) (hb : s.blk.backFree ch)
    (ha : h (s.blk.msgTaken ch) (s.blk.msgWords ch) = b.yes regs)
    (hbk : b = (s.blk.msgTaken ch).modFn (chFn ch) g ∨
      ∃ a, (∀ k, k < 0x100 → chBack ch + k ≠ a) ∧ b = ((s.blk.msgTaken ch).modFn (chFn ch) g).wr a 0) :
    ∃ t : State, onBlk (fun b => b.message ch type h) s = .next t ∧ t.pending = s.pending ∧ t.blk.repliedTo s.blk ch OK ∧
      t.blk.fn (chFn ch) = g (s.blk.fn (chFn ch)) ∧ { t.blk.mailBack s.blk with fns := s.blk.fns } = s.blk := by
  have hfree := Block.backFree_msgTaken hb
  have hfn : b.fn (chFn ch) = g (s.blk.fn (chFn ch)) := by
    rw [← Block.fn_congr (Block.msgTaken_fns s.blk ch) (chFn ch)]
    obtain rfl | ⟨a, -, rfl⟩ := hbk
    · exact Block.fn_modFn_same ..
    · rw [Block.fn_congr (Block.wr_fns ..)]
      exact Block.fn_modFn_same ..
  have hback : b.backFree ch := by
    obtain rfl | ⟨a, hne, rfl⟩ := hbk
    · exact Block.backFree_congr (Block.rg_modFn ..) (Block.box_congr (Block.modFn_mbx ..)) hfree
    · exact Block.backFree_congr ((Block.rg_wr_other _ _ (hne _ (by omega))).trans (Block.rg_modFn ..)) (Block.box_congr rfl) hfree
  have hmail : { b.mailBack s.blk with fns := s.blk.fns } = s.blk := by
    have hm := Block.mailBack_msgTaken s.blk s.blk ch
    obtain rfl | ⟨a, -, rfl⟩ := hbk
    · exact congrArg (fun b : Block => { b with fns := s.blk.fns }) hm
    · exact congrArg (fun b : Block => { b with fns := s.blk.fns }) hm
  have hf : b.trust.fuses = s.blk.trust.fuses := by
    obtain rfl | ⟨a, -, rfl⟩ := hbk <;> simp
  have hp : b.ice.perm = s.blk.ice.perm := by
    obtain rfl | ⟨a, -, rfl⟩ := hbk <;> simp
  obtain ⟨t, hx, hq, hr, -, ht⟩ := exec_message hd ha hback hf hp
  refine ⟨t, hx, hq, hr, ?_, ?_⟩
  · rw [ht, Block.fn_congr (Block.reply_fns ..)]
    exact hfn
  · rw [ht, Block.mailBack_reply]
    exact hmail

/-- The queue that QUEUE_CREATE asks for. -/
def msgQueue (ws : List Word) : HostQueue :=
  { request := (mreg ws 1).bit 6, k := (mreg ws 1).fld 12 8, ring := (mreg ws 1).fld 21 16, addr := mpair ws 2, r1 := mreg ws 1,
    tail := 0, stopped := false }

/-- The ring that RING_CREATE asks for. -/
def msgRing (ws : List Word) : Ring :=
  { k := (mreg ws 1).fld 12 8, addr := mpair ws 2, vector := (mreg ws 1).fld 26 16, coalUs := (mreg ws 4).fld 15 0,
    coalN := (mreg ws 4).fld 31 16, r1 := mreg ws 1, filled := 0, slot := 0, csn := 1, unann := 0, since := 0 }

/-- What QUEUE_CREATE does with its message. -/
def queueCreateAnswer (f : Nat) (b : Block) (ws : List Word) : Answer :=
  if (b.hostQueue f ((mreg ws 1).fld 5 0)).isSome ∨ (mreg ws 1).fld 12 8 < 4 ∨ 16 < (mreg ws 1).fld 12 8 ∨
      mpair ws 2 % 4096 ≠ 0 ∨ (b.ring f ((mreg ws 1).fld 21 16)).isNone then b.no (REFUSED 0x20)
  else ((b.modFn f fun y => { y with queues := kput y.queues ((mreg ws 1).fld 5 0) (msgQueue ws) }).wr
    (SQ_HEAD f ((mreg ws 1).fld 5 0)) 0).yes

theorem queueCreate_made {b : Block} {f : Nat} {ws : List Word} (hno : b.hostQueue f ((mreg ws 1).fld 5 0) = none)
    (hk4 : 4 ≤ (mreg ws 1).fld 12 8) (hk16 : (mreg ws 1).fld 12 8 ≤ 16) (hal : mpair ws 2 % 4096 = 0)
    (hr : (b.ring f ((mreg ws 1).fld 21 16)).isSome = true) :
    queueCreateAnswer f b ws = ((b.modFn f fun y => { y with queues := kput y.queues ((mreg ws 1).fld 5 0) (msgQueue ws) }).wr
      (SQ_HEAD f ((mreg ws 1).fld 5 0)) 0).yes := by
  refine if_neg ?_
  rw [hno, hal, Option.isNone_eq_false_iff.mpr hr]
  simp
  omega

/-- What QUEUE_DESTROY does with its message. -/
def queueDestroyAnswer (f : Nat) (b : Block) (ws : List Word) : Answer :=
  match b.hostQueue f (mreg ws 1).toNat with
  | none => b.yes
  | some x =>
    if b.sqHead f (mreg ws 1).toNat ≠ x.tail ∨ b.queueWork f (mreg ws 1).toNat then b.no (BUSY 0x21)
    else (b.modFn f fun y => { y with queues := kdel y.queues (mreg ws 1).toNat }).yes

theorem queueDestroy_gone {b : Block} {f : Nat} {ws : List Word} {x : HostQueue} (hx : b.hostQueue f (mreg ws 1).toNat = some x)
    (hh : b.sqHead f (mreg ws 1).toNat = x.tail) (hw : b.queueWork f (mreg ws 1).toNat = false) :
    queueDestroyAnswer f b ws = (b.modFn f fun y => { y with queues := kdel y.queues (mreg ws 1).toNat }).yes := by
  unfold queueDestroyAnswer
  rw [hx]
  simp only [hh, hw]
  simp

/-- What RING_CREATE does with its message. -/
def ringCreateAnswer (f : Nat) (b : Block) (ws : List Word) : Answer :=
  if (b.ring f ((mreg ws 1).fld 5 0)).isSome ∨ (mreg ws 1).fld 12 8 < 4 ∨ 16 < (mreg ws 1).fld 12 8 ∨
      mpair ws 2 % 4096 ≠ 0 ∨ vectors f ≤ (mreg ws 1).fld 26 16 then b.no (REFUSED 0x20)
  else ((b.modFn f fun y => { y with rings := kput y.rings ((mreg ws 1).fld 5 0) (msgRing ws) }).wr
    (RING_HEAD f ((mreg ws 1).fld 5 0)) 0).yes

theorem ringCreate_made {b : Block} {f : Nat} {ws : List Word} (hno : b.ring f ((mreg ws 1).fld 5 0) = none)
    (hk4 : 4 ≤ (mreg ws 1).fld 12 8) (hk16 : (mreg ws 1).fld 12 8 ≤ 16) (hal : mpair ws 2 % 4096 = 0)
    (hv : (mreg ws 1).fld 26 16 < vectors f) :
    ringCreateAnswer f b ws = ((b.modFn f fun y => { y with rings := kput y.rings ((mreg ws 1).fld 5 0) (msgRing ws) }).wr
      (RING_HEAD f ((mreg ws 1).fld 5 0)) 0).yes := by
  refine if_neg ?_
  rw [hno, hal]
  simp
  omega

/-- What RING_DESTROY does with its message. -/
def ringDestroyAnswer (f : Nat) (b : Block) (ws : List Word) : Answer :=
  match b.ring f (mreg ws 1).toNat with
  | none => b.yes
  | some _ =>
    if ((b.fn f).queues.any fun e => e.2.ring == (mreg ws 1).toNat) ∨ holdsRing (b.fn f).held (mreg ws 1).toNat then b.no (BUSY 0x23)
    else (b.modFn f fun y => { y with rings := kdel y.rings (mreg ws 1).toNat }).yes

theorem ringDestroy_gone {b : Block} {f : Nat} {ws : List Word} (hx : (b.ring f (mreg ws 1).toNat).isSome = true)
    (hq : ((b.fn f).queues.any fun e => e.2.ring == (mreg ws 1).toNat) = false)
    (hh : holdsRing (b.fn f).held (mreg ws 1).toNat = false) :
    ringDestroyAnswer f b ws = (b.modFn f fun y => { y with rings := kdel y.rings (mreg ws 1).toNat }).yes := by
  obtain ⟨x, hx⟩ := Option.isSome_iff_exists.mp hx
  unfold ringDestroyAnswer
  rw [hx]
  simp only [hq, hh]
  simp

theorem Block.sqHead_msgTaken (s : Block) (ch : Chan) {q : Nat} (hq : q < 64) :
    (s.msgTaken ch).sqHead (chFn ch) q = s.sqHead (chFn ch) q := by
  unfold Block.sqHead Block.fld
  have h0 : SQ_HEAD (chFn ch) q = 0x100000000 + chFn ch * 0x10000 + 0x100 + 4 * q := rfl
  have h1 : ICE_DROPPED = 0x0040001C := rfl
  have h2 : LDG_STATUS = 0x00500000 := rfl
  rw [Block.rg_msgTaken _ _ (chBase_ne_SQ_HEAD ch hq (by omega)).symm (by omega) (by omega)]

theorem Block.queueWork_msgTaken (s : Block) (ch : Chan) (f q : Nat) : (s.msgTaken ch).queueWork f q = s.queueWork f q := by
  unfold Block.queueWork
  rw [Block.msgTaken_jobs, Block.msgTaken_reqs]

/-- Settles O5: a doorbell and a write of HEAD change one queue or ring or raise a counter, and each message changes one
function beside what carries it. -/
theorem queuesAndRings : Obligations.QueuesAndRings := by
  unfold Obligations.QueuesAndRings
  refine ⟨?doorbell, ?discarded, ?ringHead, ?ringDiscarded, ?coalesce, ?queueCreate, ?queueDestroy, ?ringCreate, ?ringDestroy⟩
  case doorbell =>
    intro s f q v x hf hq hx hv
    refine ⟨_, exec_doorbell_taken hf hq hx hv, rfl, ?_, fun g r hn => ?_, rfl⟩
    · rw [Block.hostQueue_modQueue, if_pos rfl, hx]
      rfl
    · rw [Block.hostQueue_modQueue, if_neg hn]
  case discarded =>
    intro s f q v hf hq h
    exact exec_doorbell_discarded hf hq h
  case ringHead =>
    intro s f r n v x hf hr hx ho hv hn hc hh
    obtain ⟨b, he, hb⟩ := exec_ringHead_taken hf hr hx ho hv hn hc hh
    have hregs : b.regs = (s.blk.ringConsumed f r (v.fld 15 0) n).regs := by obtain rfl | rfl := hb <;> rfl
    have hring : ∀ g q, b.ring g q = (s.blk.ringConsumed f r (v.fld 15 0) n).ring g q := by
      intro g q
      obtain rfl | rfl := hb
      · rfl
      · exact Block.ring_modFn_held ..
    have hframe : { b with fns := s.blk.fns, regs := s.blk.regs } = s.blk := by obtain rfl | rfl := hb <;> rfl
    refine ⟨_, he, rfl, ?_, ?_, fun g q hne => ?_, fun a ha => ?_, hframe⟩
    · rw [Block.fld, Block.rg_of_regs hregs, Block.rg_ringConsumed]
      refine (Block.fld_wf_same s.blk (RING_HEAD f r) (v.fld 15 0) (by omega) (by omega)).trans (Nat.mod_eq_of_lt ?_)
      exact Word.fld_lt v 15 0
    · rw [hring, Block.ring_ringConsumed, if_pos rfl, hx]
      rfl
    · rw [hring, Block.ring_ringConsumed, if_neg hne]
    · rw [Block.rg_of_regs hregs, Block.rg_ringConsumed, Block.rg_wf_other _ _ _ _ ha]
  case ringDiscarded =>
    intro s f r v x hf hr hx hc
    exact exec_ringHead_discarded hf hr hx hc
  case coalesce =>
    intro s f r x hx hu ht hd
    refine ⟨_, exec_coalesceTimer_due hx hu ht hd, rfl, ?_, Block.msi_msix _ _ _, rfl⟩
    refine (Block.ring_congr (Block.fn_congr (Block.msix_fns ..) f)).trans ?_
    rw [Block.ring_modRing, if_pos rfl, hx]
    rfl
  case queueCreate =>
    intro s ch f q k r a hd hb hf hq hk hr ha hno hk4 hk16 hal hring
    subst hf hq hk hr ha
    have hfn0 := Block.fn_congr (Block.msgTaken_fns s.blk ch) (chFn ch)
    obtain ⟨t, hx, hp, hrep, hfn, hfr⟩ := exec_message_fn hd hb
      (queueCreate_made ((Block.hostQueue_congr hfn0).trans hno) hk4 hk16 hal (by rw [Block.ring_congr hfn0]; exact hring))
      (Or.inr ⟨_, fun k hk => chBack_ne_SQ_HEAD ch (Word.fld_lt _ 5 0) hk, rfl⟩)
    refine ⟨t, hx, hp, hrep, ⟨msgQueue (s.blk.msgWords ch), ?_, rfl, rfl, rfl, rfl, rfl, rfl⟩, hfr⟩
    rw [Block.hostQueue, hfn]
    exact kget_kput_same ..
  case queueDestroy =>
    intro s ch f q x hd hb hf hq hxq hlt hhead hwork
    subst hf hq
    have hfn0 := Block.fn_congr (Block.msgTaken_fns s.blk ch) (chFn ch)
    obtain ⟨t, hx, hp, hrep, hfn, hfr⟩ := exec_message_fn hd hb
      (queueDestroy_gone ((Block.hostQueue_congr hfn0).trans hxq)
        (Block.sqHead_msgTaken s.blk ch hlt ▸ hhead) (Block.queueWork_msgTaken s.blk ch .. ▸ hwork)) (Or.inl rfl)
    refine ⟨t, hx, hp, hrep, ?_, hfr⟩
    rw [Block.hostQueue, hfn, kget_kdel, if_pos rfl]
  case ringCreate =>
    intro s ch f r k v a hd hb hf hr hk hv ha hno hk4 hk16 hal hvec
    subst hf hr hk hv ha
    have hfn0 := Block.fn_congr (Block.msgTaken_fns s.blk ch) (chFn ch)
    obtain ⟨t, hx, hp, hrep, hfn, hfr⟩ := exec_message_fn hd hb
      (ringCreate_made ((Block.ring_congr hfn0).trans hno) hk4 hk16 hal hvec)
      (Or.inr ⟨_, fun k hk => chBack_ne_RING_HEAD ch (Word.fld_lt _ 5 0) hk, rfl⟩)
    refine ⟨t, hx, hp, hrep, ⟨msgRing (s.blk.msgWords ch), ?_, rfl, rfl, rfl, rfl, rfl, rfl, rfl⟩, hfr⟩
    rw [Block.ring, hfn]
    exact kget_kput_same ..
  case ringDestroy =>
    intro s ch f r hd hb hf hr hring hq hh
    subst hf hr
    have hfn0 := Block.fn_congr (Block.msgTaken_fns s.blk ch) (chFn ch)
    obtain ⟨t, hx, hp, hrep, hfn, hfr⟩ := exec_message_fn hd hb
      (ringDestroy_gone (Block.ring_congr hfn0 ▸ hring) (hfn0 ▸ hq) (hfn0 ▸ hh)) (Or.inl rfl)
    refine ⟨t, hx, hp, hrep, ?_, hfr⟩
    rw [Block.ring, hfn, kget_kdel, if_pos rfl]

end Sys2Proof.Machine
end

section
/-! The flags of the mailboxes: FULL, the overrun bit and the length fault (R391, R392). -/

namespace Sys2Proof.Machine

/-! ### What carries a message, put back -/

@[simp] theorem Block.mailBack_led1 (s t : Block) (n : Nat) (m : LedgerMove) : (s.led1 n m).mailBack t = s.mailBack t := by
  simp [Block.mailBack]

theorem Block.mailBack_chLed (s t : Block) (ch : Chan) (g : Block → Nat → Block)
    (h : ∀ (s : Block) n, (g s n).mailBack t = s.mailBack t) : (s.chLed ch g).mailBack t = s.mailBack t := by
  unfold Block.chLed
  split
  · exact h _ _
  · rfl

@[simp] theorem Block.mailBack_wf (s t : Block) (a hi lo v : Nat) : (s.wf a hi lo v).mailBack t = s.mailBack t := rfl
@[simp] theorem Block.mailBack_wb (s t : Block) (a i : Nat) (v : Bool) : (s.wb a i v).mailBack t = s.mailBack t := rfl
@[simp] theorem Block.mailBack_setBox (s t : Block) (a : Nat) (m : Mbx) : (s.setBox a m).mailBack t = s.mailBack t := rfl
@[simp] theorem Block.mailBack_boxData (s t : Block) (a : Nat) (ws : List Word) : (s.boxData a ws).mailBack t = s.mailBack t := by
  simp [Block.mailBack]

/-- A block that differs only in what carries messages has the same fuses. -/
theorem Block.trust_of_mailBack {s t : Block} (h : t.mailBack s = s) : t.trust = s.trust :=
  (show t.trust = (t.mailBack s).trust from rfl).trans (congrArg Block.trust h)

/-! ### Moves of a channel's ledger -/

theorem Block.rg_chTake (s : Block) (ch : Chan) {a : Nat} (h : a ≠ ICE_DROPPED) (h' : a ≠ LDG_STATUS) :
    (s.chLed ch fun s n => s.ledTake n 1).rg a = s.rg a :=
  Block.rg_chLed _ _ _ fun _ _ => Block.rg_ledTake _ _ _ h h'

theorem Block.box_chTake (s : Block) (ch : Chan) (a : Nat) : (s.chLed ch fun s n => s.ledTake n 1).box a = s.box a :=
  Block.box_congr (Block.chLed_mbx _ _ _ fun _ _ => Block.ledTake_mbx ..)

theorem Block.mailBack_chTake (s t : Block) (ch : Chan) : (s.chLed ch fun s n => s.ledTake n 1).mailBack t = s.mailBack t :=
  Block.mailBack_chLed _ _ _ _ fun _ _ => Block.mailBack_led1 ..

theorem Block.perm_chTake (s : Block) (ch : Chan) : (s.chLed ch fun s n => s.ledTake n 1).ice.perm = s.ice.perm :=
  Block.chLed_perm _ _ _ fun _ _ => Block.ledTake_perm ..

theorem Block.rg_chLand (s : Block) (ch : Chan) {a : Nat} (h : a ≠ ICE_DROPPED) (h' : a ≠ LDG_STATUS) :
    (s.chLed ch fun s n => (s.ledSend n 1).ledLand n 1).rg a = s.rg a :=
  Block.rg_chLed _ _ _ fun _ _ => (Block.rg_led1 _ _ _ h h').trans (Block.rg_led1 _ _ _ h h')

theorem Block.box_chLand (s : Block) (ch : Chan) (a : Nat) :
    (s.chLed ch fun s n => (s.ledSend n 1).ledLand n 1).box a = s.box a :=
  Block.box_congr (Block.chLed_mbx _ _ _ fun _ _ => (Block.ledLand_mbx ..).trans (Block.ledSend_mbx ..))

theorem Block.mailBack_chLand (s t : Block) (ch : Chan) :
    (s.chLed ch fun s n => (s.ledSend n 1).ledLand n 1).mailBack t = s.mailBack t :=
  Block.mailBack_chLed _ _ _ _ fun _ _ => (Block.mailBack_led1 ..).trans (Block.mailBack_led1 ..)

theorem Block.perm_chLand (s : Block) (ch : Chan) :
    (s.chLed ch fun s n => (s.ledSend n 1).ledLand n 1).ice.perm = s.ice.perm :=
  Block.chLed_perm _ _ _ fun _ _ => (Block.ledLand_perm ..).trans (Block.ledSend_perm ..)

/-! ### GO -/

theorem effMailboxGo_eq {ch : Chan} {v : Word} {side : List Word} {s : Block} (hok : chOk ch = true) (hm : ch ≠ .mgmt)
    (hv : v.bit 8 = true) : effMailboxGo ch v side s = mailboxGoEffect ch v side s := if_pos ⟨hok, hm, hv⟩

/-- A free channel is not S1 with a request outstanding. -/
theorem not_s1Busy {ch : Chan} {s : Block} (hf : s.full (chBase ch) = false)
    (ho : ch = .s1 → (s.box s1Base).owed = false) : ¬(ch = .s1 ∧ s.s1Busy = true) := by
  rintro ⟨rfl, hb⟩
  rw [Block.s1Busy, ho rfl, show s.full s1Base = false from hf] at hb
  cases hb

theorem mailboxGoEffect_sent {ch : Chan} {v : Word} {side : List Word} {s : Block} (hf : s.full (chBase ch) = false)
    (ho : ch = .s1 → (s.box s1Base).owed = false) (h8 : 8 ≤ v.fld 4 0) (h16 : v.fld 4 0 ≤ 16) :
    mailboxGoEffect ch v side s = mailboxSendEffect ch (v.fld 4 0) side s := by
  rw [mailboxGoEffect, if_neg (not_s1Busy hf ho), if_neg (by rw [hf]; decide), if_pos ⟨h8, h16⟩]

theorem mailboxGoEffect_badLen {ch : Chan} {v : Word} {side : List Word} {s : Block} (hf : s.full (chBase ch) = false)
    (ho : ch = .s1 → (s.box s1Base).owed = false) (hl : ¬(8 ≤ v.fld 4 0 ∧ v.fld 4 0 ≤ 16)) :
    mailboxGoEffect ch v side s = s.wb (chBase ch + 0x44) 2 true := by
  rw [mailboxGoEffect, if_neg (not_s1Busy hf ho), if_neg (by rw [hf]; decide), if_neg hl]

/-- What a message sent leaves: FULL, its length, and nothing changed but what carries it. -/
theorem mailboxSendEffect_spec (ch : Chan) (len : Nat) (side : List Word) (s : Block) :
    (mailboxSendEffect ch len side s).full (chBase ch) = true ∧ ((mailboxSendEffect ch len side s).box (chBase ch)).len = len ∧
    (mailboxSendEffect ch len side s).mailBack s = s ∧ (mailboxSendEffect ch len side s).ice.perm = s.ice.perm := by
  unfold mailboxSendEffect
  obtain ⟨b, hb⟩ : ∃ b, b = if ch = .s1 then s.boxData (chBase ch) (side.take len) else s := ⟨_, rfl⟩
  have hm : b.mailBack s = s := by subst hb; split <;> simp
  have hp : b.ice.perm = s.ice.perm := by subst hb; split <;> simp
  simp only [← hb]
  refine ⟨?_, ?_, ?_, ?_⟩
  · rw [Block.full_congr (Block.rg_chTake _ _ (chBase_ne_ice ch _ (by omega)) (chBase_ne_ldg ch _ (by omega))),
      Block.full_congr (Block.rg_setBox ..)]
    exact Block.bit_wb_same _ _ _ (by omega)
  · rw [Block.box_chTake, Block.box_setBox_same]
  · rw [Block.mailBack_chTake, Block.mailBack_setBox, Block.mailBack_wb, hm]
  · rw [Block.perm_chTake, Block.setBox_ice, Block.wb_ice, hp]

/-! ### The last read of a reply -/

/-- What the last read of a reply leaves when no other waits. -/
theorem replyReadEffect_spec {ch : Chan} {s : Block} (hw : (s.box (chBack ch)).waiting = []) :
    (replyReadEffect ch s).full (chBack ch) = false ∧ ((replyReadEffect ch s).box (chBack ch)).waiting = [] ∧
    (replyReadEffect ch s).mailBack s = s ∧ (replyReadEffect ch s).ice.perm = s.ice.perm := by
  obtain ⟨b, hb⟩ : ∃ b, b = (s.wf (chBack ch + 0x44) 12 0 0).setBox (chBack ch) { s.box (chBack ch) with len := 0 } := ⟨_, rfl⟩
  have hbox : ((b.chLed ch fun s n => (s.ledSend n 1).ledLand n 1).box (chBack ch)).waiting = [] := by
    rw [Block.box_chLand, hb, Block.box_setBox_same]
    exact hw
  have he : replyReadEffect ch s = b.chLed ch fun s n => (s.ledSend n 1).ledLand n 1 := by
    unfold replyReadEffect
    simp only [← hb]
    rw [Block.pumpReply, hbox]
  rw [he]
  refine ⟨?_, hbox, ?_, ?_⟩
  · rw [Block.full_congr (Block.rg_chLand _ _ (chBack_ne_ice ch _ (by omega)) (chBack_ne_ldg ch _ (by omega))), hb,
      Block.full_congr (Block.rg_setBox ..), Block.full, Block.bit, Block.rg_wf, if_pos rfl,
      Word.bit_setFld _ _ _ (by omega) (by omega)]
    rfl
  · rw [Block.mailBack_chLand, hb, Block.mailBack_setBox, Block.mailBack_wf, Block.mailBack_self]
  · rw [Block.perm_chLand, hb, Block.setBox_ice, Block.wf_ice]

/-- Settles O8: a GO on a free channel sends or sets the length fault, one on a full channel sets the overrun bit, and the last
read of a reply clears FULL. -/
theorem mailboxFlags : Obligations.MailboxFlags := by
  unfold Obligations.MailboxFlags
  refine ⟨?sent, ?badLen, ?overrun, ?lastRead⟩
  case sent =>
    intro s ch v side hok hm hv hf ho h8 h16
    obtain ⟨hfull, hlen, hback, hperm⟩ := mailboxSendEffect_spec ch (v.fld 4 0) side s.blk
    exact ⟨_, onBlk_next_of_eq (f := effMailboxGo ch v side)
      ((effMailboxGo_eq hok hm hv).trans (mailboxGoEffect_sent hf ho h8 h16))
      (by rw [Block.trust_of_mailBack hback]) hperm, rfl, hfull, hlen, hback⟩
  case badLen =>
    intro s ch v side hok hm hv hf ho hl
    exact onBlk_next_of_eq (f := effMailboxGo ch v side) ((effMailboxGo_eq hok hm hv).trans (mailboxGoEffect_badLen hf ho hl))
      (by rw [Block.wb_trust]) (by rw [Block.wb_ice])
  case overrun =>
    intro s f n v hf hn hv hfull
    refine onBlk_next_of_eq (f := effMailboxGo (.fn f n) v []) ?_ (by rw [Block.bump_trust, Block.wb_trust])
      (by rw [Block.bump_ice, Block.wb_ice])
    have hok : chOk (.fn f n) = true := by simp [chOk, hf, hn]
    rw [effMailboxGo_eq hok (by simp) hv, mailboxGoEffect, if_neg (by simp), if_pos hfull, Block.overrun]
    exact if_pos hf
  case lastRead =>
    intro s ch hok hfull hw
    obtain ⟨hfree, hwait, hback, hperm⟩ := replyReadEffect_spec hw
    refine ⟨_, onBlk_next_of_eq (f := effMailboxDataLastRead ch) (b := replyReadEffect ch s.blk) ?_
      (by rw [Block.trust_of_mailBack hback]) hperm, rfl, hfree, hwait, hback⟩
    rw [effMailboxDataLastRead, hok, hfull]
    rfl

end Sys2Proof.Machine
end

section
/-! The entry of a submission queue taken: a job made ready, a request queued or paused, or a failed read (R383). -/

namespace Sys2Proof.Machine

/-! ### Blocks that differ in registers alone -/

/-- Nothing of the block but registers differs. -/
def Block.regsOnly (t s : Block) : Prop := t = { s with regs := t.regs }

theorem Block.regsOnly_refl (s : Block) : s.regsOnly s := rfl

theorem Block.regsOnly.trans {t u s : Block} (h : t.regsOnly u) (k : u.regsOnly s) : t.regsOnly s := by
  unfold Block.regsOnly at *
  rw [h, k]

theorem Block.regsOnly_wr (s : Block) (a : Nat) (v : Word) : (s.wr a v).regsOnly s := rfl
theorem Block.regsOnly_wf (s : Block) (a hi lo v : Nat) : (s.wf a hi lo v).regsOnly s := Block.regsOnly_wr ..
theorem Block.regsOnly_wb (s : Block) (a i : Nat) (v : Bool) : (s.wb a i v).regsOnly s := Block.regsOnly_wr ..
theorem Block.regsOnly_bump (s : Block) (a n : Nat) : (s.bump a n).regsOnly s := Block.regsOnly_wr ..
theorem Block.regsOnly_bumpFld (s : Block) (a hi lo n : Nat) : (s.bumpFld a hi lo n).regsOnly s := Block.regsOnly_wr ..
theorem Block.regsOnly_setPair (s : Block) (a v : Nat) : (s.setPair a v).regsOnly s :=
  (Block.regsOnly_wr ..).trans (Block.regsOnly_wr ..)
theorem Block.regsOnly_bumpPair (s : Block) (a n : Nat) : (s.bumpPair a n).regsOnly s := Block.regsOnly_setPair ..

theorem Block.regsOnly.put {t s : Block} (h : t.regsOnly s) : { t with regs := s.regs } = s := by rw [h]

/-- A function of the block that does not look at registers. -/
theorem Block.regsOnly.apply {α : Type} {t s : Block} (h : t.regsOnly s) (g : Block → α)
    (hg : ∀ (b : Block) (r : Tbl Word), g { b with regs := r } = g b) : g t = g s := by
  rw [h, hg]

theorem Block.rg_setPair_other (s : Block) {a b : Nat} (v : Nat) (h : b ≠ a) (h' : b ≠ a + 4) : (s.setPair a v).rg b = s.rg b := by
  rw [Block.setPair, Block.rg_wr_other _ _ h', Block.rg_wr_other _ _ h]

/-! ### Taking an entry -/

/-- Only a queue of the kind is taken from. -/
theorem takeable_request {s : Block} {f q : Nat} {k : Bool} {x : HostQueue} (h : s.takeable f q k = some x) :
    s.hostQueue f q = some x ∧ x.request = k := by
  unfold Block.takeable at h
  cases hy : s.hostQueue f q with
  | none =>
    rw [hy] at h
    cases h
  | some y =>
    rw [hy] at h
    dsimp only at h
    by_cases hc : y.request = k ∧ s.sqHead f q ≠ y.tail ∧ !y.stopped ∧ !s.dmaStopped f ∧ heldEntries (s.fn f).held < 4096 ∧
        s.coreUp (if k then 4 else 1)
    · rw [if_pos hc] at h
      obtain rfl := Option.some.inj h
      exact ⟨rfl, hc.1⟩
    · rw [if_neg hc] at h
      cases h

theorem takeEntry_failed {s : Block} {f q : Nat} {x : HostQueue} (h : s.hostOk (x.addr + x.size * s.sqHead f q) x.size = false) :
    s.takeEntry f q x = (none, (s.modQueue f q fun y => { y with stopped := true }).bump (HIF_CNT f 4)) := by
  unfold Block.takeEntry
  simp only [h]
  rfl

/-- The block with an entry taken: HEAD passes it, and the translation of its page is kept. -/
def Block.entryTaken (s : Block) (f q : Nat) (x : HostQueue) : Block :=
  (s.wf (SQ_HEAD f q) 15 0 ((s.sqHead f q + 1) % 2 ^ x.k)).modFn f fun y =>
    { y with ats := if y.ats.contains ((x.addr + x.size * s.sqHead f q) / 4096) then y.ats
                    else (x.addr + x.size * s.sqHead f q) / 4096 :: y.ats }

theorem takeEntry_ok {s : Block} {f q : Nat} {x : HostQueue} (h : s.hostOk (x.addr + x.size * s.sqHead f q) x.size = true) :
    s.takeEntry f q x =
      (some (bytesWords (x.size / 4) (s.hostRead (x.addr + x.size * s.sqHead f q) x.size)), s.entryTaken f q x) := by
  unfold Block.takeEntry
  simp only [h, if_true, Block.hostRead, Block.modFn_env, Block.wf_env, Block.entryTaken]

/-- An entry that gives words has been taken. -/
theorem takeEntry_some {s b : Block} {f q : Nat} {x : HostQueue} {d : List Word} (h : s.takeEntry f q x = (some d, b)) :
    b = s.entryTaken f q x := by
  cases hok : s.hostOk (x.addr + x.size * s.sqHead f q) x.size with
  | false =>
    rw [takeEntry_failed hok] at h
    cases h
  | true =>
    rw [takeEntry_ok hok] at h
    cases h
    rfl

/-! ### What an entry taken leaves -/

theorem Block.rg_entryTaken {s : Block} {f q a : Nat} {x : HostQueue} (h : a ≠ SQ_HEAD f q) :
    (s.entryTaken f q x).rg a = s.rg a := by
  rw [Block.entryTaken, Block.rg_modFn, Block.rg_wf_other _ _ _ _ h]

theorem Block.sqHead_entryTaken {s : Block} {f q : Nat} {x : HostQueue} (hk : x.k ≤ 16) :
    (s.entryTaken f q x).sqHead f q = (s.sqHead f q + 1) % 2 ^ x.k := by
  rw [Block.entryTaken, Block.sqHead, Block.fld, Block.rg_modFn]
  refine (Block.fld_wf_same s (SQ_HEAD f q) _ (by omega) (by omega)).trans (Nat.mod_eq_of_lt ?_)
  calc (s.sqHead f q + 1) % 2 ^ x.k < 2 ^ x.k := Nat.mod_lt _ (by positivity)
    _ ≤ 2 ^ 16 := Nat.pow_le_pow_right (by omega) hk

theorem Block.fn_entryTaken_other {s : Block} {f q g : Nat} {x : HostQueue} (h : g ≠ f) :
    (s.entryTaken f q x).fn g = s.fn g := by
  rw [Block.entryTaken, Block.fn_modFn_other _ _ h, Block.fn_congr (Block.wf_fns ..)]

theorem Block.hostQueue_entryTaken (s : Block) (f q g r : Nat) (x : HostQueue) :
    (s.entryTaken f q x).hostQueue g r = s.hostQueue g r := by
  unfold Block.hostQueue Block.entryTaken
  rw [Block.fn_modFn]
  by_cases h : g = f
  · rw [if_pos h, Block.fn_congr (Block.wf_fns ..), h]
  · rw [if_neg h, Block.fn_congr (Block.wf_fns ..)]

/-- An entry taken changes functions and registers alone. -/
theorem Block.entryTaken_frame (s : Block) (f q : Nat) (x : HostQueue) :
    { s.entryTaken f q x with fns := s.fns, regs := s.regs } = s := by
  simp [Block.entryTaken]

theorem SQ_HEAD_ge (f q : Nat) : 0x100000000 ≤ SQ_HEAD f q := by
  have h0 : SQ_HEAD f q = 0x100000000 + f * 0x10000 + 0x100 + 4 * q := rfl
  omega

/-- Registers below the function pages are as they were. -/
theorem Block.rg_entryTaken_low {s : Block} {f q a : Nat} {x : HostQueue} (h : a < 0x100000000) :
    (s.entryTaken f q x).rg a = s.rg a :=
  Block.rg_entryTaken (by have := SQ_HEAD_ge f q; omega)

theorem Block.fnPart_entryTaken {s : Block} {f q g : Nat} {x : HostQueue} (hg : g < 64) :
    (s.entryTaken f q x).fnPart g = s.fnPart g := by
  have h0 : SCH_C_CFG g = 0x06020000 + g * 0x100 + 0 := rfl
  rw [Block.fnPart, Block.fld, Block.rg_entryTaken_low (by omega)]
  rfl

theorem Block.inBreach_entryTaken (s : Block) (f q : Nat) (x : HostQueue) : (s.entryTaken f q x).inBreach = s.inBreach := by
  have hs : (s.entryTaken f q x).start = s.start := by simp [Block.entryTaken]
  rw [Block.inBreach, Block.inBreach, Block.breach, Block.breach, Block.bit, Block.bit, hs,
    Block.rg_entryTaken_low (by decide)]

/-! ### A failed read -/

/-- The block after an entry that cannot be read: the queue stops, and the failure is counted. -/
def Block.readFailed (s : Block) (f q : Nat) : Block :=
  (s.modQueue f q fun y => { y with stopped := true }).bump (HIF_CNT f 4)

theorem Block.rg_modQueue (s : Block) (f q : Nat) (g : HostQueue → HostQueue) (a : Nat) : (s.modQueue f q g).rg a = s.rg a := by
  rw [Block.modQueue, Block.rg_modFn]

/-- The counters of a page lie above its queues. -/
theorem HIF_CNT_ne_SQ_HEAD {f q k : Nat} (hq : q < 64) : SQ_HEAD f q ≠ HIF_CNT f k := by
  have h0 : SQ_HEAD f q = 0x100000000 + f * 0x10000 + 0x100 + 4 * q := rfl
  have h1 : HIF_CNT f k = 0x100000000 + f * 0x10000 + 0xF000 + 4 * k := rfl
  omega

/-- What an entry that cannot be read leaves. -/
theorem Block.readFailed_spec (s : Block) {f q : Nat} {x : HostQueue} (hq : q < 64) (hx : s.hostQueue f q = some x) :
    (s.readFailed f q).hostQueue f q = some { x with stopped := true } ∧ (s.readFailed f q).sqHead f q = s.sqHead f q ∧
      ((s.readFailed f q).rg (HIF_CNT f 4)).toNat = min 0xFFFFFFFF ((s.rg (HIF_CNT f 4)).toNat + 1) ∧
      { s.readFailed f q with fns := s.fns, regs := s.regs } = s := by
  refine ⟨?_, ?_, ?_, ?_⟩
  · rw [Block.readFailed, Block.hostQueue_congr (Block.fn_congr (Block.bump_fns ..) f), Block.hostQueue_modQueue, if_pos rfl, hx]
    rfl
  · rw [Block.sqHead, Block.fld, Block.readFailed, Block.rg_bump_other _ _ (HIF_CNT_ne_SQ_HEAD hq), Block.rg_modQueue,
      Block.sqHead, Block.fld]
  · rw [Block.readFailed, Block.rg_bump_same, Block.rg_modQueue]
  · simp [Block.readFailed, Block.modQueue]

theorem exec_jobSubmit_failed {s : State} {f q : Nat} {x : HostQueue} (hx : s.blk.takeable f q false = some x)
    (hr : s.blk.hostOk (x.addr + 64 * s.blk.sqHead f q) 64 = false) :
    exec (.jobSubmit f q) s = .next { s with blk := s.blk.readFailed f q } := by
  have hsize : x.size = 64 := by rw [HostQueue.size, (takeable_request hx).2]; rfl
  refine onBlk_next_of_eq (f := effJobSubmit f q) ?_ (by simp [Block.readFailed, Block.modQueue])
    (by simp [Block.readFailed, Block.modQueue])
  simp only [effJobSubmit, hx, jobTakenEffect, takeEntry_failed (x := x) (hsize ▸ hr), Block.readFailed]

theorem exec_requestSubmit_failed {s : State} {f q : Nat} {x : HostQueue} (hx : s.blk.takeable f q true = some x)
    (hr : s.blk.hostOk (x.addr + 128 * s.blk.sqHead f q) 128 = false) :
    exec (.requestSubmit f q) s = .next { s with blk := s.blk.readFailed f q } := by
  have hsize : x.size = 128 := by rw [HostQueue.size, (takeable_request hx).2]; rfl
  refine onBlk_next_of_eq (f := effRequestSubmit f q) ?_ (by simp [Block.readFailed, Block.modQueue])
    (by simp [Block.readFailed, Block.modQueue])
  simp only [effRequestSubmit, hx, requestTakenEffect, takeEntry_failed (x := x) (hsize ▸ hr), Block.readFailed]

/-! ### A job made ready -/

/-- Raising a client's V changes registers of its block alone. -/
theorem Block.raiseV_cases (s : Block) (p f : Nat) : s.raiseV p f = s ∨ ∃ v, s.raiseV p f = s.setPair (SCH_C f 0x30) v := by
  unfold Block.raiseV
  dsimp only
  split
  · exact Or.inl rfl
  · split
    · split
      · exact Or.inr ⟨_, rfl⟩
      · exact Or.inl rfl
    · exact Or.inl rfl

theorem Block.regsOnly_raiseV (s : Block) (p f : Nat) : (s.raiseV p f).regsOnly s := by
  obtain he | ⟨v, he⟩ := s.raiseV_cases p f
  · rw [he]
    exact s.regsOnly_refl
  · rw [he]
    exact Block.regsOnly_setPair ..

theorem Block.rg_raiseV {s : Block} {p f a : Nat} (h : 0x100000000 ≤ a) (hf : f < 64) : (s.raiseV p f).rg a = s.rg a := by
  have h0 : SCH_C f 0x30 = 0x06020000 + f * 0x100 + 0x30 := rfl
  obtain he | ⟨v, he⟩ := s.raiseV_cases p f
  · rw [he]
  · rw [he, Block.rg_setPair_other _ _ (by omega) (by omega)]

theorem Block.rg_countJobs (s : Block) {p a : Nat} (h : a ≠ SCH_P_STATE p) : (s.countJobs p).rg a = s.rg a := by
  unfold Block.countJobs
  rw [Block.rg_wf_other _ _ _ _ h, Block.rg_wf_other _ _ _ _ h]

theorem Block.regsOnly_countJobs (s : Block) (p : Nat) : (s.countJobs p).regsOnly s :=
  (Block.regsOnly_wf ..).trans (Block.regsOnly_wf ..)

/-- The job that a ready one becomes. -/
def Block.readied (s : Block) (J : Job) : Job := { J with state := .ready, since := (s.raiseV J.part J.fn).now }

/-- A job made ready changes the jobs, their next number and registers. -/
theorem Block.addJob_eq (s : Block) (J : Job) : (s.addJob J).2 =
    { s with regs := (s.addJob J).2.regs, jobs := kput s.jobs s.nextJob (s.readied J), nextJob := s.nextJob + 1 } := by
  have h := s.regsOnly_raiseV J.part J.fn
  have hc := Block.regsOnly_countJobs { s.raiseV J.part J.fn with
    jobs := kput (s.raiseV J.part J.fn).jobs (s.raiseV J.part J.fn).nextJob (s.readied J),
    nextJob := (s.raiseV J.part J.fn).nextJob + 1 } J.part
  have he : (s.addJob J).2 = Block.countJobs { s.raiseV J.part J.fn with
    jobs := kput (s.raiseV J.part J.fn).jobs (s.raiseV J.part J.fn).nextJob (s.readied J),
    nextJob := (s.raiseV J.part J.fn).nextJob + 1 } J.part := rfl
  rw [he]
  generalize s.raiseV J.part J.fn = u at *
  rw [hc]
  rw [h]

/-- A job made ready changes no register of a page. -/
theorem Block.rg_addJob {s : Block} {J : Job} {a : Nat} (ha : 0x100000000 ≤ a) (hf : J.fn < 64) (hp : J.part < 64) :
    (s.addJob J).2.rg a = s.rg a := by
  have h0 : SCH_P_STATE J.part = 0x06010000 + J.part * 0x100 + 4 := rfl
  have h1 : (s.addJob J).2.rg a = (s.raiseV J.part J.fn).rg a := by
    unfold Block.addJob
    dsimp only
    rw [Block.rg_countJobs _ (by omega)]
    exact Block.rg_of_regs (by rfl) a
  rw [h1, Block.rg_raiseV ha hf]

/-- A job descriptor that passes makes a job ready. -/
theorem effJobSubmit_taken {s : Block} {f q : Nat} {x : HostQueue} {b : Bundle} (hf : f < 64)
    (hx : s.takeable f q false = some x) (hr : s.hostOk (x.addr + 64 * s.sqHead f q) 64 = true) (hb : s.inBreach = false)
    (hp : (s.part (s.fnPart f)).isSome = true)
    (hbun : kget s.bundles ((mreg (bytesWords 16 (s.hostRead (x.addr + 64 * s.sqHead f q) 64)) 0).fld 15 0) = some b)
    (hbp : b.part = s.fnPart f) :
    ∃ cls, effJobSubmit f q s = ((s.entryTaken f q x).addJob
      (Job.fresh ((mreg (bytesWords 16 (s.hostRead (x.addr + 64 * s.sqHead f q) 64)) 0).fld 15 0) (s.fnPart f) f q x.ring cls
        (bytesWords 16 (s.hostRead (x.addr + 64 * s.sqHead f q) 64)) none)).2 := by
  have hsize : x.size = 64 := by rw [HostQueue.size, (takeable_request hx).2]; rfl
  have he := takeEntry_ok (s := s) (f := f) (q := q) (x := x) (by rw [hsize]; exact hr)
  rw [hsize, show 64 / 4 = 16 from rfl] at he
  refine ⟨(s.entryTaken f q x).fld (SCH_C_CFG f) 7 6, ?_⟩
  have hparts : (s.entryTaken f q x).parts = s.parts := by simp [Block.entryTaken]
  have hbund : (s.entryTaken f q x).bundles = s.bundles := by simp [Block.entryTaken]
  have hst : ∀ cls, (s.entryTaken f q x).jobStatus
      (Job.fresh ((mreg (bytesWords 16 (s.hostRead (x.addr + 64 * s.sqHead f q) 64)) 0).fld 15 0) (s.fnPart f) f q x.ring cls
        (bytesWords 16 (s.hostRead (x.addr + 64 * s.sqHead f q) 64)) none) = none := by
    intro cls
    have hp' : ((s.entryTaken f q x).part (s.fnPart f)).isNone = false := by
      rw [Block.part, hparts]
      exact Option.isNone_eq_false_iff.mpr hp
    simp only [Block.jobStatus, Job.fresh, Block.inBreach_entryTaken, hb, hp', hbund, hbun, hbp, if_true, Bool.false_eq_true,
      if_false]
  simp only [effJobSubmit, hx, jobTakenEffect, he, Block.fnPart_entryTaken hf, hst]

/-- JOB_SUBMIT of a job that passes: HEAD passes the entry and the job is ready. -/
theorem jobSubmit_taken {s : State} {f q : Nat} {x : HostQueue} {b : Bundle} (hf : f < 64)
    (hx : s.blk.takeable f q false = some x) (hk : x.k ≤ 16) (hr : s.blk.hostOk (x.addr + 64 * s.blk.sqHead f q) 64 = true)
    (hb : s.blk.inBreach = false) (hp : (s.blk.part (s.blk.fnPart f)).isSome = true)
    (hbun : kget s.blk.bundles ((mreg (bytesWords 16 (s.blk.hostRead (x.addr + 64 * s.blk.sqHead f q) 64)) 0).fld 15 0) = some b)
    (hbp : b.part = s.blk.fnPart f) :
    ∃ t : State, exec (.jobSubmit f q) s = .next t ∧ t.pending = s.pending ∧ t.blk.nextJob = s.blk.nextJob + 1 ∧
      t.blk.sqHead f q = (s.blk.sqHead f q + 1) % 2 ^ x.k ∧ t.blk.hostQueue f q = some x ∧
      (∃ J, kget t.blk.jobs s.blk.nextJob = some J ∧ J.fn = f ∧ J.queue = q ∧ J.ring = x.ring ∧ J.state = .ready ∧
        J.desc = bytesWords 16 (s.blk.hostRead (x.addr + 64 * s.blk.sqHead f q) 64)) ∧
      (∀ j, j ≠ s.blk.nextJob → kget t.blk.jobs j = kget s.blk.jobs j) ∧ (∀ g, g ≠ f → t.blk.fn g = s.blk.fn g) ∧
      { t.blk with fns := s.blk.fns, regs := s.blk.regs, jobs := s.blk.jobs, nextJob := s.blk.nextJob } = s.blk := by
  obtain ⟨cls, he⟩ := effJobSubmit_taken hf hx hr hb hp hbun hbp
  obtain ⟨J, hJ⟩ : ∃ J, J = Job.fresh ((mreg (bytesWords 16 (s.blk.hostRead (x.addr + 64 * s.blk.sqHead f q) 64)) 0).fld 15 0)
    (s.blk.fnPart f) f q x.ring cls (bytesWords 16 (s.blk.hostRead (x.addr + 64 * s.blk.sqHead f q) 64)) none := ⟨_, rfl⟩
  rw [← hJ] at he
  have hfr := s.blk.entryTaken_frame f q x
  obtain ⟨e, hE⟩ : ∃ e, e = s.blk.entryTaken f q x := ⟨_, rfl⟩
  rw [← hE] at he hfr
  have ha := e.addJob_eq J
  have hrg : ∀ a, 0x100000000 ≤ a → (e.addJob J).2.rg a = e.rg a := fun a h0 =>
    Block.rg_addJob h0 (by rw [hJ]; exact hf) (by rw [hJ]; exact Word.fld_lt _ 5 0)
  obtain ⟨t, ht⟩ : ∃ t, t = (e.addJob J).2 := ⟨_, rfl⟩
  rw [← ht] at he ha hrg
  have htr : t.trust = s.blk.trust := by rw [ha, ← hfr]
  have hic : t.ice = s.blk.ice := by rw [ha, ← hfr]
  have hjobs : t.jobs = kput s.blk.jobs s.blk.nextJob (e.readied J) := by rw [ha, ← hfr]
  have hfns : t.fns = e.fns := by rw [ha]
  refine ⟨_, onBlk_next_of_eq (f := effJobSubmit f q) he (by rw [htr]) (by rw [hic]), rfl, ?_, ?_, ?_, ⟨e.readied J, ?_, ?_⟩, ?_, ?_, ?_⟩
  · change t.nextJob = _
    rw [ha, ← hfr]
  · change t.sqHead f q = _
    rw [← Block.sqHead_entryTaken (s := s.blk) (f := f) (q := q) hk, ← hE, Block.sqHead, Block.fld, hrg _ (SQ_HEAD_ge f q)]
    rfl
  · rw [Block.hostQueue_congr (s := e) (Block.fn_congr hfns f), hE, Block.hostQueue_entryTaken]
    exact (takeable_request hx).1
  · rw [hjobs]
    exact kget_kput_same ..
  · rw [hJ]
    exact ⟨rfl, rfl, rfl, rfl, rfl⟩
  · intro j hj
    rw [hjobs]
    exact kget_kput_other _ _ hj
  · intro g hg
    rw [Block.fn_congr (s := e) hfns, hE, Block.fn_entryTaken_other hg]
  · change { t with fns := s.blk.fns, regs := s.blk.regs, jobs := s.blk.jobs, nextJob := s.blk.nextJob } = s.blk
    rw [ha, ← hfr]

/-! ### A request queued -/

/-- Counting tokens changes registers alone, and none of a page or of a partition's serving block. -/
theorem Block.countTokens_spec (s : Block) (l : List Word) (c : List Nat) :
    (l.foldl (fun (a : List Nat × Block) t => a.2.countToken a.1 t.toNat) (c, s)).2.regsOnly s ∧
    ∀ a, a ≠ GRP_CNT_TBL_FULL →
      (l.foldl (fun (a : List Nat × Block) t => a.2.countToken a.1 t.toNat) (c, s)).2.rg a = s.rg a := by
  induction l generalizing s c with
  | nil => exact ⟨s.regsOnly_refl, fun _ _ => rfl⟩
  | cons t l ih =>
    rw [List.foldl_cons]
    have hstep : (s.countToken c t.toNat).2.regsOnly s ∧ ∀ a, a ≠ GRP_CNT_TBL_FULL → (s.countToken c t.toNat).2.rg a = s.rg a := by
      unfold Block.countToken
      split
      · exact ⟨s.regsOnly_refl, fun _ _ => rfl⟩
      · split
        · exact ⟨s.regsOnly_refl, fun _ _ => rfl⟩
        · exact ⟨Block.regsOnly_bump .., fun a ha => Block.rg_bump_other _ _ ha⟩
    obtain ⟨h1, h2⟩ := hstep
    obtain ⟨k1, k2⟩ := ih (s.countToken c t.toNat).2 (s.countToken c t.toNat).1
    exact ⟨k1.trans h1, fun a ha => (k2 a ha).trans (h2 a ha)⟩

/-- The request that a descriptor makes in a slot. -/
def submitted (f q ring : Nat) (d : List Word) (now gen k : Nat) (sq : Seq) (a : Option (Nat × Adapter)) (bytes : List Byte)
    (counts : List Nat) (level : Nat) : Req :=
  { Req.fresh f q ring d now with
    gen := gen, seq := k, input := sq.pendingToken.toList ++ bytesWords (((Req.fresh f q ring d now).word 5).fld 23 0) bytes,
    counts := counts, adapter := a.map fun x => (x.2.id, x.1), version := (a.map (·.2.version)).getD 0,
    state := if pausedClass level (Req.fresh f q ring d now).cls then .paused else .queued,
    pausedSince := pausedClass level (Req.fresh f q ring d now).cls }

/-- A request taken into a slot: its fields, and what else the block holds as it was. -/
theorem Block.submitReq_spec {s : Block} {f q ring k slot gen : Nat} {d : List Word} {sq : Seq} {a : Option (Nat × Adapter)}
    (hp : (s.part (s.fnPart f)).isSome = true) (hst : s.reqStatus (s.fnPart f) (Req.fresh f q ring d s.now) = .ok (k, sq, a))
    (hslot : s.reqFreeSlot.1 = some (slot, gen)) :
    ∃ R, (R.fn = f ∧ R.queue = q ∧ R.ring = ring ∧ R.desc = d ∧ R.gen = gen ∧ R.seq = k ∧ R.emitted = 0 ∧
        R.state = if pausedClass (s.level (s.fnPart f)) R.cls then .paused else .queued) ∧
      (s.submitReq f q ring d).reqs = kput s.reqs slot R ∧ (∀ a, 0x100000000 ≤ a → (s.submitReq f q ring d).rg a = s.rg a) ∧
      s.submitReq f q ring d = { s with regs := (s.submitReq f q ring d).regs, reqs := (s.submitReq f q ring d).reqs,
                                        reqGens := (s.submitReq f q ring d).reqGens, freeCtr := s.freeCtr + 1 } := by
  have hfree : s.reqFreeSlot = (some (slot, gen), s.drawn) := Prod.ext hslot rfl
  obtain ⟨c, hc⟩ : ∃ c, c = (if ((Req.fresh f q ring d s.now).word 0).bit 8 then
      s.drawn.countTokens (bytesWords (((Req.fresh f q ring d s.now).word 5).fld 23 0)
        (s.drawn.hostRead (((Req.fresh f q ring d s.now).word 3).toNat + 2 ^ 32 * ((Req.fresh f q ring d s.now).word 4).toNat)
          (4 * ((Req.fresh f q ring d s.now).word 5).fld 23 0)))
      else ([], s.drawn)) := ⟨_, rfl⟩
  have hcnt : c.2.regsOnly s.drawn ∧ ∀ a, a ≠ GRP_CNT_TBL_FULL → c.2.rg a = s.drawn.rg a := by
    rw [hc]
    split
    · exact Block.countTokens_spec _ _ _
    · exact ⟨Block.regsOnly_refl _, fun _ _ => rfl⟩
  obtain ⟨hro, hrg⟩ := hcnt
  obtain ⟨R, hRd⟩ : ∃ R, R = submitted f q ring d s.now gen k sq a (s.hostRead
      (((Req.fresh f q ring d s.now).word 3).toNat + 2 ^ 32 * ((Req.fresh f q ring d s.now).word 4).toNat)
      (4 * ((Req.fresh f q ring d s.now).word 5).fld 23 0)) c.1 (c.2.level (s.fnPart f)) := ⟨_, rfl⟩
  have hR : R.fn = f ∧ R.queue = q ∧ R.ring = ring ∧ R.desc = d ∧ R.gen = gen ∧ R.seq = k ∧ R.emitted = 0 ∧
      R.state = if pausedClass (c.2.level (s.fnPart f)) R.cls then .paused else .queued := by
    rw [hRd]
    exact ⟨rfl, rfl, rfl, rfl, rfl, rfl, rfl, rfl⟩
  have he : s.submitReq f q ring d = { c.2 with reqs := kput c.2.reqs slot R, reqGens := kput c.2.reqGens slot (gen + 1) } := by
    unfold Block.submitReq
    simp only [hp, if_true, hst, hfree, ← hc]
    rw [hRd]
    rfl
  have hreqs : c.2.reqs = s.reqs := hro.apply Block.reqs fun _ _ => rfl
  have hlev : c.2.level (s.fnPart f) = s.level (s.fnPart f) := by
    have h0 : SRV (s.fnPart f) 0x18 = 0x06400000 + s.fnPart f * 0x100 + 0x18 := rfl
    have h1 : GRP_CNT_TBL_FULL = 0x06600010 := rfl
    have hlt : s.fnPart f < 64 := Word.fld_lt _ 5 0
    rw [Block.level, Block.fld, hrg _ (by omega)]
    rfl
  refine ⟨R, hlev ▸ hR, ?_, fun a ha => ?_, ?_⟩
  · rw [he, ← hreqs]
  · have h1 : GRP_CNT_TBL_FULL = 0x06600010 := rfl
    rw [he]
    exact (Block.rg_of_regs (by rfl) a).trans ((hrg _ (by omega)).trans (Block.rg_of_regs (Block.drawn_regs s) a))
  · rw [he, hro]
    rfl

/-- REQUEST_SUBMIT of a request that passes: HEAD passes the entry and the request is queued or paused. -/
theorem requestSubmit_taken {s : State} {f q k slot gen : Nat} {x : HostQueue} {d : List Word} {b : Block} {sq : Seq}
    {a : Option (Nat × Adapter)} (hx : s.blk.takeable f q true = some x) (hk : x.k ≤ 16)
    (hb : s.blk.inBreach = false) (he : s.blk.takeEntry f q x = (some d, b)) (hp : (b.part (b.fnPart f)).isSome = true)
    (hst : b.reqStatus (b.fnPart f) (Req.fresh f q x.ring d b.now) = .ok (k, sq, a)) (hslot : b.reqFreeSlot.1 = some (slot, gen)) :
    ∃ t : State, exec (.requestSubmit f q) s = .next t ∧ t.pending = s.pending ∧
      t.blk.sqHead f q = (s.blk.sqHead f q + 1) % 2 ^ x.k ∧ t.blk.hostQueue f q = some x ∧
      (∃ R, kget t.blk.reqs slot = some R ∧ R.fn = f ∧ R.queue = q ∧ R.ring = x.ring ∧ R.desc = d ∧ R.gen = gen ∧
        R.seq = k ∧ R.emitted = 0 ∧ R.state = if pausedClass (b.level (b.fnPart f)) R.cls then .paused else .queued) ∧
      (∀ i, i ≠ slot → kget t.blk.reqs i = kget s.blk.reqs i) ∧ (∀ g, g ≠ f → t.blk.fn g = s.blk.fn g) ∧
      { t.blk with fns := s.blk.fns, regs := s.blk.regs, reqs := s.blk.reqs, reqGens := s.blk.reqGens,
                   freeCtr := s.blk.freeCtr } = s.blk := by
  have hB := takeEntry_some he
  have hbr : b.inBreach = false := by rw [hB, Block.inBreach_entryTaken, hb]
  have hfr := s.blk.entryTaken_frame f q x
  rw [← hB] at hfr
  have heff : effRequestSubmit f q s.blk = b.submitReq f q x.ring d := by
    simp only [effRequestSubmit, hx, requestTakenEffect, he, hbr, Bool.false_eq_true, if_false]
  obtain ⟨R, hR, hreqs, hrg, heq⟩ := Block.submitReq_spec hp hst hslot
  obtain ⟨t, ht⟩ : ∃ t, t = b.submitReq f q x.ring d := ⟨_, rfl⟩
  rw [← ht] at heff hreqs hrg heq
  have htr : t.trust = s.blk.trust := by rw [heq, ← hfr]
  have hic : t.ice = s.blk.ice := by rw [heq, ← hfr]
  have hfns : t.fns = b.fns := by rw [heq]
  have hreqs' : t.reqs = kput s.blk.reqs slot R := by rw [hreqs, ← hfr]
  refine ⟨_, onBlk_next_of_eq (f := effRequestSubmit f q) heff (by rw [htr]) (by rw [hic]), rfl, ?_, ?_, ⟨R, ?_, hR⟩, ?_, ?_, ?_⟩
  · change t.sqHead f q = _
    rw [← Block.sqHead_entryTaken (s := s.blk) (f := f) (q := q) hk, ← hB, Block.sqHead, Block.fld, hrg _ (SQ_HEAD_ge f q)]
    rfl
  · rw [Block.hostQueue_congr (s := b) (Block.fn_congr hfns f), hB, Block.hostQueue_entryTaken]
    exact (takeable_request hx).1
  · rw [hreqs']
    exact kget_kput_same ..
  · intro i hi
    rw [hreqs']
    exact kget_kput_other _ _ hi
  · intro g hg
    rw [Block.fn_congr (s := b) hfns, hB, Block.fn_entryTaken_other hg]
  · change { t with fns := s.blk.fns, regs := s.blk.regs, reqs := s.blk.reqs, reqGens := s.blk.reqGens,
                    freeCtr := s.blk.freeCtr } = s.blk
    rw [heq, ← hfr]

/-- Settles O7: `readFailed` stops the queue, and an entry taken leaves HEAD past it with the job or the request listed. -/
theorem submissionTakesTheEntry : Obligations.SubmissionTakesTheEntry := by
  unfold Obligations.SubmissionTakesTheEntry
  refine ⟨?jobFailed, ?requestFailed, ?jobTaken, ?requestTaken⟩
  case jobFailed =>
    intro s f q x hf hq hx hr
    exact ⟨_, exec_jobSubmit_failed hx hr, rfl, s.blk.readFailed_spec hq (takeable_request hx).1⟩
  case requestFailed =>
    intro s f q x hf hq hx hr
    exact ⟨_, exec_requestSubmit_failed hx hr, rfl, s.blk.readFailed_spec hq (takeable_request hx).1⟩
  case jobTaken =>
    intro s f q x b hf hq hx hk hr hb hp hbun hbp
    exact jobSubmit_taken hf hx hk hr hb hp hbun hbp
  case requestTaken =>
    intro s f q k slot gen x d b sq a hf hq hx hk hb he hp hst hslot
    exact requestSubmit_taken hx hk hb he hp hst hslot

end Sys2Proof.Machine
end

section
/-! What a function's host-bound DMA and translations do when the host acts on them, and function resets (R304, R327, R328,
R396, R418). -/

namespace Sys2Proof.Machine

/-! ### Commands of any effect -/

/-- What a command leaves, but for the fuses and the permanent area that last. -/
theorem onBlk_lasting_next (f : Block → Block) (s : State) :
    ∃ t : State, onBlk f s = .next t ∧ t.pending = s.pending ∧ t.blk = s.blk.lasting (f s.blk) := ⟨_, rfl, rfl, rfl⟩

theorem Block.rg_lasting (old new : Block) (a : Nat) : (old.lasting new).rg a = new.rg a :=
  Block.rg_of_regs (Block.lasting_regs ..) a

theorem Block.fn_lasting (old new : Block) (f : Nat) : (old.lasting new).fn f = new.fn f := Block.fn_congr (Block.lasting_fns ..) f

/-! ### Bus-master enable, translations and the link -/

theorem Block.dmaStopped_of_busMaster {s : Block} {f : Nat} (h : (s.fn f).busMaster = false) : s.dmaStopped f = true := by
  simp [Block.dmaStopped, h]

theorem Block.dmaStopped_of_linkDown {s : Block} (h : s.start.linkUp = false) (f : Nat) : s.dmaStopped f = true := by
  simp [Block.dmaStopped, h]

/-- A command that changes one function. -/
theorem exec_modFn {s : State} {f : Nat} {eff : Block → Block} {g : Fn → Fn} (h : eff s.blk = s.blk.modFn f g) :
    ∃ t : State, onBlk eff s = .next t ∧ t.pending = s.pending ∧ t.blk.fn f = g (s.blk.fn f) ∧
      (∀ k, k ≠ f → t.blk.fn k = s.blk.fn k) ∧ { t.blk with fns := s.blk.fns } = s.blk :=
  ⟨_, onBlk_next_of_eq h (by rw [Block.modFn_trust]) (by rw [Block.modFn_ice]), rfl, Block.fn_modFn_same ..,
    fun _ hk => Block.fn_modFn_other _ _ hk, by simp⟩

/-- A change of a function's whole record twice is one change. -/
theorem Block.modFn_modFn (s : Block) (f : Nat) (g h : Fn → Fn) :
    (∀ k, ((s.modFn f g).modFn f h).fn k = (s.modFn f (h ∘ g)).fn k) ∧
    { (s.modFn f g).modFn f h with fns := s.fns } = s := by
  refine ⟨fun k => ?_, by simp⟩
  by_cases hk : k = f
  · subst hk
    rw [Block.fn_modFn_same, Block.fn_modFn_same, Block.fn_modFn_same]
    rfl
  · rw [Block.fn_modFn_other _ _ hk, Block.fn_modFn_other _ _ hk, Block.fn_modFn_other _ _ hk]

/-- Bus-master enable of a function with nothing held. -/
theorem effBusMasterEnable_spec {s : Block} {f : Nat} (hf : f < 64) (hh : (s.fn f).held = []) :
    (((effBusMasterEnable f s).fn f).busMaster = true ∧ ∀ g, g ≠ f → (effBusMasterEnable f s).fn g = s.fn g) ∧
      { effBusMasterEnable f s with fns := s.fns } = s := by
  have he : effBusMasterEnable f s = (s.modFn f fun x => { x with busMaster := true }).flushHeld f := if_neg (by omega)
  have hh' : ((s.modFn f fun x => { x with busMaster := true }).fn f).held = [] := by
    rw [Block.fn_modFn_same]
    exact hh
  rw [he]
  obtain h | h := Block.flushHeld_of_empty hh'
  · rw [h]
    refine ⟨⟨?_, fun g hg => Block.fn_modFn_other _ _ hg⟩, by simp⟩
    rw [Block.fn_modFn_same]
  · rw [h]
    refine ⟨⟨?_, fun g hg => ?_⟩, by simp⟩
    · rw [Block.fn_modFn_same, Block.fn_modFn_same]
    · rw [Block.fn_modFn_other _ _ hg, Block.fn_modFn_other _ _ hg]

/-! ### Loss of the driver -/

theorem Block.rg_ledLand (s : Block) (n k : Nat) {a : Nat} (h : a ≠ ICE_DROPPED) (h' : a ≠ LDG_STATUS) :
    (s.ledLand n k).rg a = s.rg a := Block.rg_led1 _ _ _ h h'

/-- A property of blocks that every item of a list keeps is kept by the whole list. -/
theorem Block.each_keeps {α β : Type} (g : Block → β) (s : Block) (l : List α) (f : Block → α → Block)
    (h : ∀ (s : Block) x, x ∈ l → g (f s x) = g s) : g (s.each l f) = g s := by
  unfold Block.each
  induction l generalizing s with
  | nil => rfl
  | cons x l ih =>
    rw [List.foldl_cons, ih (f s x) fun s y hy => h s y (List.mem_cons_of_mem _ hy), h s x List.mem_cons_self]

@[simp] theorem Block.rg_setSnow (s : Block) (p : Nat) (w : Snow) (a : Nat) : (s.setSnow p w).rg a = s.rg a := rfl

theorem Block.rg_cancelMove (s : Block) (p pid : Nat) {a : Nat} (h : a ≠ ICE_DROPPED) (h' : a ≠ LDG_STATUS) :
    (s.cancelMove p pid).rg a = s.rg a := by
  unfold Block.cancelMove
  split
  · rfl
  · rw [Block.rg_ledLand _ _ _ h h', Block.modPage, Block.rg_setSnow]

/-- The pages of host arenas that a loss stops are counted by partition. -/
theorem Block.rg_snowLost (s : Block) {a : Nat} (h : a ≠ ICE_DROPPED) (h' : a ≠ LDG_STATUS) (hl : a < 0x06200000) :
    s.snowLost.rg a = s.rg a := by
  unfold Block.snowLost
  refine Block.each_keeps (fun b => b.rg a) _ _ _ fun b e _ => ?_
  dsimp only
  rw [Block.rg_event _ _ _ _ h]
  refine Block.each_keeps (fun b => b.rg a) _ _ _ fun b pid _ => ?_
  have h0 : SNW e.1 0x64 = 0x06200000 + e.1 * 0x100 + 0x64 := rfl
  rw [Block.rg_bump_other _ _ (by omega), Block.rg_cancelMove _ _ _ h h']

theorem Block.lost_of_fld {s : Block} (h : s.fld SCH_DRV 1 0 = 2) : s.lost = true := by
  rw [Block.lost, h]
  rfl

/-- A loss that is declared stands. -/
theorem Block.lost_driverLost (s : Block) (cause : Nat) : (s.driverLost cause).lost = true := by
  unfold Block.driverLost
  split
  · assumption
  · refine Block.lost_of_fld ?_
    obtain ⟨b, hb⟩ : ∃ b, b = ((s.setDrv 2).wb SCH_DRV 2 (cause == 1)).wf SCH_DRV 15 4 (max 1 (s.fld SCH_HB_CFG 27 16)) :=
      ⟨_, rfl⟩
    have hf : b.fld SCH_DRV 1 0 = 2 := by
      rw [hb, Block.fld_wf_other _ _ _ _ (by omega) (by omega) (by omega), Block.wb,
        Block.fld_wf_other _ _ _ _ (by omega) (by omega) (by omega), Block.setDrv, Block.fld_wf_same _ _ _ (by omega) (by omega)]
      rfl
    simp only [← hb]
    obtain ⟨c, hc⟩ : ∃ c, c = ({ b with lostAt := b.now } : Block) := ⟨_, rfl⟩
    have hcr : c.rg SCH_DRV = b.rg SCH_DRV := by rw [hc]; rfl
    simp only [← hc]
    rw [Block.fld, Block.rg_snowLost _ (by decide) (by decide) (by decide)]
    split
    · rw [Block.lossTold, Block.rg_event _ _ _ _ (by decide), hcr]
      exact hf
    · exact (congrArg (fun w => Word.fld w 1 0) ((Block.rg_of_regs (s := b) (by rfl) SCH_DRV))).trans hf

/-! ### Function resets -/

theorem kget_filter_key {α : Type} (t : Tbl α) (P : Nat → Bool) (i : Nat) :
    kget (t.filter fun e => P e.1) i = if P i then kget t i else none := by
  induction t with
  | nil => simp
  | cons e t ih =>
    obtain ⟨k, v⟩ := e
    rw [List.filter_cons]
    by_cases hk : P k = true
    · rw [if_pos hk, kget_cons, kget_cons, ih]
      by_cases hi : i = k
      · rw [if_pos hi, if_pos hi, hi, if_pos hk]
      · rw [if_neg hi, if_neg hi]
    · rw [if_neg hk, ih, kget_cons]
      by_cases hi : i = k
      · rw [hi, if_neg hk, if_neg hk]
      · rw [if_neg hi]

/-- The registers of a page cleared read their reset values. -/
theorem Block.rg_clearPage (s : Block) {f a : Nat} (h : fnPage f ≤ a) (h' : a < fnPage f + 0x10000) :
    (s.clearPage f).rg a = regReset a := by
  unfold Block.rg Block.clearPage tget
  rw [kget_filter_key s.regs (fun a => !(decide (fnPage f ≤ a) && decide (a < fnPage f + 0x10000))), if_neg (by simp [h, h'])]
  rfl

/-- What a function's reset keeps of the rest: other functions, jobs, requests and partitions. -/
def Block.sameWork (t s : Block) : Prop := t.jobs = s.jobs ∧ t.reqs = s.reqs ∧ t.parts = s.parts

theorem Block.sameWork.trans {t u s : Block} (h : t.sameWork u) (k : u.sameWork s) : t.sameWork s :=
  ⟨h.1.trans k.1, h.2.1.trans k.2.1, h.2.2.trans k.2.2⟩

theorem Block.endFnWork_idle {s : Block} (f : Nat) (hj : s.jobs = []) (hr : s.reqs = []) : s.endFnWork f = s := by
  unfold Block.endFnWork
  simp only [hj, List.filter_nil, Block.each]
  change List.foldl _ s (List.filter _ s.reqs) = s
  rw [hr]
  rfl

theorem Block.dropHeld_empty {s : Block} {f : Nat} (h : (s.fn f).held = []) :
    s.dropHeld f = s.modFn f fun x => { x with held := [] } := by
  unfold Block.dropHeld
  rw [h]
  rfl

theorem Block.fns_chDrop (s : Block) (ch : Chan) : (s.chLed ch fun s n => s.ledDrop n 1).fns = s.fns :=
  Block.chLed_fns _ _ _ fun _ _ => Block.ledDrop_fns ..

theorem Block.sameWork_chDrop (s : Block) (ch : Chan) : (s.chLed ch fun s n => s.ledDrop n 1).sameWork s :=
  ⟨Block.chLed_jobs _ _ _ fun _ _ => Block.ledDrop_jobs .., Block.chLed_reqs _ _ _ fun _ _ => Block.ledDrop_reqs ..,
    Block.chLed_parts _ _ _ fun _ _ => Block.ledDrop_parts ..⟩

/-- The items of a pair go back to its ledger, and nothing of functions or work changes. -/
theorem Block.freePair_spec (s : Block) (ch : Chan) : (s.freePair ch).fns = s.fns ∧ (s.freePair ch).sameWork s := by
  have one : ∀ (s : Block) (a : Nat), ((if s.full a then s.chLed ch fun s n => s.ledDrop n 1 else s).fns = s.fns) ∧
      (if s.full a then s.chLed ch fun s n => s.ledDrop n 1 else s).sameWork s := by
    intro s a
    split
    · exact ⟨s.fns_chDrop ch, s.sameWork_chDrop ch⟩
    · exact ⟨rfl, rfl, rfl, rfl⟩
  obtain ⟨b, hb⟩ : ∃ b, b = (if s.full (chBase ch) then s.chLed ch fun s n => s.ledDrop n 1 else s) := ⟨_, rfl⟩
  obtain ⟨c, hc⟩ : ∃ c, c = (if b.full (chBack ch) then b.chLed ch fun s n => s.ledDrop n 1 else b) := ⟨_, rfl⟩
  obtain ⟨h1, h2⟩ := one s (chBase ch)
  obtain ⟨k1, k2⟩ := one b (chBack ch)
  rw [← hb] at h1 h2
  rw [← hc] at k1 k2
  have he : s.freePair ch = (c.setBox (chBase ch) Mbx.reset).setBox (chBack ch) Mbx.reset := by
    unfold Block.freePair
    simp only [← hb, ← hc]
  rw [he, Block.setBox_fns, Block.setBox_fns]
  obtain ⟨g1, g2, g3⟩ := k2.trans h2
  exact ⟨k1.trans h1, by rw [Block.setBox_jobs, Block.setBox_jobs, g1], by rw [Block.setBox_reqs, Block.setBox_reqs, g2],
    by rw [Block.setBox_parts, Block.setBox_parts, g3]⟩

/-- What a reset leaves of a function. -/
def Fn.afterReset (x : Fn) : Fn := { Fn.reset with busMaster := x.busMaster, ats := x.ats }

/-- The reset of a VF without jobs, requests, held items or a partition. -/
theorem vfFlrEffect_spec {f : Nat} {s : Block} (hj : s.jobs = []) (hr : s.reqs = []) (hp : s.part (s.fnPart f) = none)
    (hh : (s.fn f).held = []) :
    (vfFlrEffect f s).fn f = (s.fn f).afterReset ∧
      (∀ a, fnPage f ≤ a → a < fnPage f + 0x10000 → (vfFlrEffect f s).rg a = regReset a) ∧
      (∀ g, g ≠ f → (vfFlrEffect f s).fn g = s.fn g) ∧ (vfFlrEffect f s).sameWork s := by
  obtain ⟨b, hb⟩ : ∃ b, b = (s.modFn f fun x => { x with held := [] }).each [0, 1, 2, 3] fun s n => s.freePair (.fn f n) :=
    ⟨_, rfl⟩
  have hfns : b.fns = (s.modFn f fun x => { x with held := [] }).fns := by
    rw [hb]
    exact Block.each_keeps Block.fns _ _ _ fun b n _ => (b.freePair_spec _).1
  have hwork : b.sameWork s := by
    have hk : ∀ {β : Type} (g : Block → β), (∀ b n, g (Block.freePair b (.fn f n)) = g b) → g b = g (s.modFn f fun x => { x with held := [] }) :=
      fun g hg => by rw [hb]; exact Block.each_keeps g _ _ _ fun b n _ => hg b n
    exact ⟨(hk Block.jobs fun b n => (b.freePair_spec _).2.1).trans (Block.modFn_jobs ..),
      (hk Block.reqs fun b n => (b.freePair_spec _).2.2.1).trans (Block.modFn_reqs ..),
      (hk Block.parts fun b n => (b.freePair_spec _).2.2.2).trans (Block.modFn_parts ..)⟩
  have hpart : ((b.clearPage f).modFn f Fn.afterReset).part (s.fnPart f) = none := by
    rw [Block.part, Block.modFn_parts, show (b.clearPage f).parts = b.parts from rfl, hwork.2.2]
    exact hp
  have he : vfFlrEffect f s = (b.clearPage f).modFn f Fn.afterReset := by
    unfold vfFlrEffect
    simp only [Block.endFnWork_idle f hj hr, Block.dropHeld_empty hh, ← hb]
    change (if (((b.clearPage f).modFn f Fn.afterReset).part (s.fnPart f)).isNone = true then _ else _) = _
    rw [hpart]
    rfl
  have hfn : ∀ g, (b.clearPage f).fn g = (s.modFn f fun x => { x with held := [] }).fn g := fun g =>
    (Block.fn_congr (s := b) rfl g).trans (Block.fn_congr hfns g)
  rw [he]
  refine ⟨?_, fun a h1 h2 => ?_, fun g hg => ?_, ?_⟩
  · rw [Block.fn_modFn_same, hfn, Block.fn_modFn_same]
    rfl
  · rw [Block.rg_modFn, Block.rg_clearPage _ h1 h2]
  · rw [Block.fn_modFn_other _ _ hg, hfn, Block.fn_modFn_other _ _ hg]
  · refine Block.sameWork.trans ?_ hwork
    exact ⟨Block.modFn_jobs .., Block.modFn_reqs .., Block.modFn_parts ..⟩

/-- VFs 1 to `n` reset one after another: each is as a reset leaves it, and the others are as they were. -/
theorem loop_vfFlrEffect (n : Nat) {s : Block} (hj : s.jobs = []) (hr : s.reqs = []) (hp : s.parts = [])
    (hh : ∀ f, (s.fn f).held = []) :
    (∀ f, (loop n (fun i s => vfFlrEffect (i + 1) s) s).fn f = if 1 ≤ f ∧ f ≤ n then (s.fn f).afterReset else s.fn f) ∧
      (loop n (fun i s => vfFlrEffect (i + 1) s) s).sameWork s := by
  induction n with
  | zero =>
    refine ⟨fun f => ?_, rfl, rfl, rfl⟩
    rw [if_neg (by omega)]
    rfl
  | succ n ih =>
    obtain ⟨hfn, hw⟩ := ih
    obtain ⟨b, hb⟩ : ∃ b, b = loop n (fun i s => vfFlrEffect (i + 1) s) s := ⟨_, rfl⟩
    rw [← hb] at hfn hw
    have hbfn : b.fn (n + 1) = s.fn (n + 1) := by rw [hfn, if_neg (by omega)]
    obtain ⟨h1, -, h3, h4⟩ := vfFlrEffect_spec (f := n + 1) (s := b) (hw.1.trans hj) (hw.2.1.trans hr)
      (by rw [Block.part, hw.2.2, hp]; rfl) (by rw [hbfn]; exact hh _)
    have hl : loop (n + 1) (fun i s => vfFlrEffect (i + 1) s) s = vfFlrEffect (n + 1) b := by rw [hb]; rfl
    rw [hl]
    refine ⟨fun f => ?_, h4.trans hw⟩
    by_cases hf : f = n + 1
    · subst hf
      rw [h1, hbfn, if_pos (by omega)]
    · rw [h3 f hf, hfn]
      by_cases hc : 1 ≤ f ∧ f ≤ n
      · rw [if_pos hc, if_pos (by omega)]
      · rw [if_neg hc, if_neg (by omega)]

theorem Block.dropReplies_fns (s : Block) (ch : Chan) : (s.dropReplies ch).fns = s.fns := by
  obtain ⟨b, hb⟩ : ∃ b, b = (if s.full (chBack ch) then s.chLed ch fun s n => s.ledDrop n 1 else s) := ⟨_, rfl⟩
  have hbf : b.fns = s.fns := by
    rw [hb]
    split
    · exact s.fns_chDrop ch
    · rfl
  unfold Block.dropReplies
  simp only [← hb]
  rw [Block.setBox_fns, Block.setBox_fns, loop_keeps Block.fns _ (fun i x => Block.wr_fns ..), Block.wr_fns, hbf]

/-- A table whose values all satisfy a test, and whose default does, gives values that satisfy it. -/
theorem tget_of_all {α : Type} {d : α} {t : Tbl α} {P : α → Bool} (h : (t.all fun e => P e.2) = true) (hd : P d = true)
    (i : Nat) : P (tget d t i) = true := by
  rw [List.all_eq_true] at h
  unfold tget
  cases hk : kget t i with
  | none => exact hd
  | some x =>
    have hm : (i, x) ∈ t := by
      induction t with
      | nil => cases hk
      | cons e t ih =>
        rw [kget_cons] at hk
        split at hk
        · rename_i hi
          cases hk
          exact hi ▸ List.mem_cons_self
        · exact List.mem_cons_of_mem _ (ih (fun e he => h e (List.mem_cons_of_mem _ he)) hk)
    exact h _ hm

/-- PF_FLR with the driver lost already and nothing running. -/
theorem effPfFlr_spec {s : Block} (hl : s.lost = true) (hj : s.jobs = []) (hr : s.reqs = []) (hp : s.parts = [])
    (hh : ∀ f, (s.fn f).held = []) :
    ((effPfFlr s).fn 0).busMaster = false ∧ (∀ f, 1 ≤ f → f < 64 → (effPfFlr s).fn f = (s.fn f).afterReset) ∧
      ∀ k, k < 5 → (effPfFlr s).rg (HIF_CNT 0 k) = 0 := by
  obtain ⟨b, hb⟩ : ∃ b, b = s.modFn 0 fun x => { x with busMaster := false } := ⟨_, rfl⟩
  have hlost : b.lost = true := by
    rw [← hl, hb, Block.lost, Block.lost, Block.fld, Block.fld, Block.rg_modFn]
  have hdis : effBusMasterDisable 0 s = b := by
    have : effBusMasterDisable 0 s = b.driverLost 1 := by rw [hb]; rfl
    rw [this, Block.driverLost, if_pos hlost]
  have hbh : ∀ f, (b.fn f).held = [] := by
    intro f
    rw [hb, Block.fn_modFn]
    split
    · exact hh 0
    · exact hh f
  obtain ⟨hfn, -⟩ := loop_vfFlrEffect 63 (s := b) (by rw [hb, Block.modFn_jobs, hj]) (by rw [hb, Block.modFn_reqs, hr])
    (by rw [hb, Block.modFn_parts, hp]) hbh
  obtain ⟨c, hc⟩ : ∃ c, c = loop 63 (fun i s => vfFlrEffect (i + 1) s) b := ⟨_, rfl⟩
  rw [← hc] at hfn
  obtain ⟨e, he⟩ : ∃ e, e = c.each [.fn 0 0, .fn 0 1, .fn 0 2, .fn 0 3, .s0] fun s ch => s.dropReplies ch := ⟨_, rfl⟩
  have hef : e.fns = c.fns := by
    rw [he]
    exact Block.each_keeps Block.fns _ _ _ fun b ch _ => b.dropReplies_fns ch
  have heff : effPfFlr s = loop 5 (fun k s => s.wr (HIF_CNT 0 k) 0) e := by
    unfold effPfFlr
    simp only [hdis, ← hc, ← he]
  have hfns : ∀ f, (effPfFlr s).fn f = c.fn f := by
    intro f
    rw [heff]
    exact Block.fn_congr ((loop_keeps Block.fns _ (fun i x => Block.wr_fns ..) 5 e).trans hef) f
  refine ⟨?_, fun f h1 h2 => ?_, fun k hk => ?_⟩
  · rw [hfns, hfn, if_neg (by omega), hb, Block.fn_modFn_same]
  · rw [hfns, hfn, if_pos (by omega), hb, Block.fn_modFn_other _ _ (by omega)]
  · rw [heff]
    have h0 : HIF_CNT 0 k = HIF_CNT 0 0 + 4 * k := by unfold HIF_CNT; omega
    have hl := rg_loop_wr e 5 (HIF_CNT 0 0) (HIF_CNT 0 k) fun _ => 0
    rw [if_pos (by omega)] at hl
    exact hl

/-- Settles O6: each event changes one function, the link or the driver's state; a reset leaves `Fn.afterReset`. -/
theorem functionEvents : Obligations.FunctionEvents := by
  unfold Obligations.FunctionEvents
  refine ⟨?disable, ?disablePf, ?enable, ?ats, ?linkDown, ?vfFlr, ?pfFlr⟩
  case disable =>
    intro s f h0 hf
    have he : effBusMasterDisable f s.blk = s.blk.modFn f fun x => { x with busMaster := false } := by
      unfold effBusMasterDisable
      rw [if_neg (by omega)]
      exact if_neg (by omega)
    obtain ⟨t, hx, hp, hfn, ho, hfr⟩ := exec_modFn he
    have hbm : (t.blk.fn f).busMaster = false := by rw [hfn]
    exact ⟨t, hx, hp, hbm, Block.dmaStopped_of_busMaster hbm, ho, hfr⟩
  case disablePf =>
    intro s
    obtain ⟨t, hx, hp, ht⟩ := onBlk_lasting_next (effBusMasterDisable 0) s
    refine ⟨t, hx, hp, ?_⟩
    have he : effBusMasterDisable 0 s.blk = (s.blk.modFn 0 fun x => { x with busMaster := false }).driverLost 1 := rfl
    rw [ht, Block.lost, Block.fld, Block.rg_lasting, he]
    exact Block.lost_driverLost _ _
  case enable =>
    intro s f hf hh
    obtain ⟨⟨hbm, ho⟩, hfr⟩ := effBusMasterEnable_spec hf hh
    refine ⟨_, onBlk_next_of_eq (f := effBusMasterEnable f) rfl ?_ ?_, rfl, hbm, ho, hfr⟩
    · exact congrArg Trust.fuses ((show _ = ({ effBusMasterEnable f s.blk with fns := s.blk.fns } : Block).trust from rfl).trans (by rw [hfr]))
    · exact congrArg IceCore.perm ((show _ = ({ effBusMasterEnable f s.blk with fns := s.blk.fns } : Block).ice from rfl).trans (by rw [hfr]))
  case ats =>
    intro s f addr pages hf
    have he : effAtsInvalidate f addr pages s.blk = s.blk.modFn f fun x =>
        { x with ats := x.ats.filter fun p => !(decide (addr / 4096 ≤ p) && decide (p < addr / 4096 + pages)) } := if_neg (by omega)
    obtain ⟨t, hx, hp, hfn, ho, hfr⟩ := exec_modFn he
    refine ⟨t, hx, hp, fun p => ?_, ho, hfr⟩
    rw [hfn, List.mem_filter, Bool.not_eq_true', ← Bool.decide_and, decide_eq_false_iff_not]
  case linkDown =>
    intro s hl
    obtain ⟨t, hx, hp, ht⟩ := onBlk_lasting_next effHostLinkDown s
    have hd : t.blk.start.linkUp = false := by
      rw [ht, Block.lasting_start, effHostLinkDown, if_pos hl, Block.hostLinkFalls, Block.wr_start]
    exact ⟨t, hx, hp, hd, Block.dmaStopped_of_linkDown hd⟩
  case vfFlr =>
    intro s f h1 h64 hj hr hp hh
    obtain ⟨t, hx, hq, ht⟩ := onBlk_lasting_next (effVfFlr f) s
    obtain ⟨hf, hrg, ho, -⟩ := vfFlrEffect_spec hj hr hp hh
    have he : effVfFlr f s.blk = vfFlrEffect f s.blk := if_pos ⟨h1, h64⟩
    rw [he] at ht
    refine ⟨t, hx, hq, ?_, fun a ha hb => ?_, fun g hg => ?_⟩
    · rw [ht, Block.fn_lasting, hf]
      rfl
    · rw [ht, Block.rg_lasting, hrg a ha hb]
    · rw [ht, Block.fn_lasting, ho g hg]
  case pfFlr =>
    intro s hl hj hr hp hh
    obtain ⟨t, hx, hq, ht⟩ := onBlk_lasting_next effPfFlr s
    have hheld : ∀ f, (s.blk.fn f).held = [] := fun f =>
      List.isEmpty_iff.mp (tget_of_all (P := fun x : Fn => x.held.isEmpty) hh rfl f)
    obtain ⟨h1, h2, h3⟩ := effPfFlr_spec hl hj hr hp hheld
    refine ⟨t, hx, hq, ?_, fun f hf hf' => ?_, fun k hk => ?_⟩
    · rw [ht, Block.fn_lasting, h1]
    · rw [ht, Block.fn_lasting, h2 f hf hf']
      rfl
    · rw [ht, Block.rg_lasting, h3 k hk]

end Sys2Proof.Machine
end

section
/-! What the running module never touches: the trust state and the permanent area of the ice core stay through traffic,
repairs, Firn writes, engine work and the ends of jobs (R482, R502). -/

namespace Sys2Proof.Machine

/-- The block holds the trust state and the permanent records of another. -/
@[simp] abbrev Block.sameLasting (t s : Block) : Prop := t.trust = s.trust ∧ t.ice.perm = s.ice.perm

theorem Block.sameLasting.exec {t s : Block} (h : t.sameLasting s) : s.lasting t = t :=
  Block.lasting_of_same (by rw [h.1]) h.2

/-! ### Choices, lists and loops -/

@[simp] theorem Block.trust_ite (c : Prop) [Decidable c] (a b : Block) :
    (if c then a else b).trust = if c then a.trust else b.trust := apply_ite ..

@[simp] theorem Block.ice_ite (c : Prop) [Decidable c] (a b : Block) :
    (if c then a else b).ice = if c then a.ice else b.ice := apply_ite ..

@[simp] theorem IceCore.perm_ite (c : Prop) [Decidable c] (a b : IceCore) :
    (if c then a else b).perm = if c then a.perm else b.perm := apply_ite ..

@[simp] theorem Block.each_lasting {α : Type} (s : Block) (l : List α) (f : Block → α → Block)
    (h : ∀ s x, (f s x).sameLasting s) : (s.each l f).sameLasting s := by
  unfold Block.each
  induction l generalizing s with
  | nil => exact ⟨rfl, rfl⟩
  | cons x xs ih => exact ⟨(ih _).1.trans (h s x).1, (ih _).2.trans (h s x).2⟩

/-- A fold that carries the block beside other values. -/
theorem foldl_lasting {α β : Type} (g : β → Block) (f : β → α → β) (h : ∀ a x, (g (f a x)).sameLasting (g a)) (l : List α)
    (a : β) : (g (l.foldl f a)).sameLasting (g a) := by
  induction l generalizing a with
  | nil => exact ⟨rfl, rfl⟩
  | cons x xs ih => exact ⟨(ih _).1.trans (h a x).1, (ih _).2.trans (h a x).2⟩

@[simp] theorem loop_lasting (n : Nat) (f : Nat → Block → Block) (s : Block) (h : ∀ i s, (f i s).sameLasting s) :
    (loop n f s).sameLasting s := by
  induction n with
  | zero => exact ⟨rfl, rfl⟩
  | succ n ih => exact ⟨(h n _).1.trans ih.1, (h n _).2.trans ih.2⟩

@[simp] theorem Block.setCl_lasting (s : Block) (c : Nat) (k : Cluster) : (s.setCl c k).sameLasting s := by
  simp [Block.setCl]

@[simp] theorem Block.modCl_lasting (s : Block) (c : Nat) (f : Cluster → Cluster) : (s.modCl c f).sameLasting s := by
  simp [Block.modCl]

@[simp] theorem Block.stackTraffic_lasting (s : Block) (n k : Nat) (wr narrow : Bool) :
    (s.stackTraffic n k wr narrow).sameLasting s := by
  simp [Block.stackTraffic]

@[simp] theorem Block.setSnow_lasting (s : Block) (p : Nat) (w : Snow) : (s.setSnow p w).sameLasting s := by
  simp [Block.setSnow]

@[simp] theorem Block.locTraffic_lasting (s : Block) (p : Nat) (l : PageLoc) (k : Nat) (wr narrow : Bool) :
    (s.locTraffic p l k wr narrow).sameLasting s := by
  unfold Block.locTraffic
  split <;> simp

@[simp] theorem Block.setObjects_lasting (s : Block) (p : Nat) (o : Objects) : (s.setObjects p o).sameLasting s := by
  simp [Block.setObjects]

@[simp] theorem Block.modObj_lasting (s : Block) (p slot : Nat) (f : Obj → Obj) : (s.modObj p slot f).sameLasting s := by
  simp [Block.modObj]

@[simp] theorem Block.markSectors_lasting (s : Block) (p : Nat) (h : Word) (l : List Nat) :
    (s.markSectors p h l).sameLasting s := by
  simp [Block.markSectors]

@[simp] theorem Block.markStored_lasting (s : Block) (p : Nat) (h : Word) (x : Nat) :
    (s.markStored p h x).sameLasting s := by
  simp [Block.markStored]

@[simp] theorem Block.meetErrors_lasting (s : Block) (n p : Nat) (h : Word) (hit : Nat → Bool) :
    (s.meetErrors n p h hit).sameLasting s := by
  simp [Block.meetErrors]

@[simp] theorem Block.viewTraffic_lasting (s : Block) (p off n : Nat) (wr narrow : Bool) :
    (s.viewTraffic p off n wr narrow).sameLasting s := by
  unfold Block.viewTraffic
  refine Block.each_lasting _ _ _ fun s pid => ?_
  dsimp only
  split
  · split <;> simp
  · simp

@[simp] theorem Block.errsGone_lasting (s : Block) (f : CacheErr → Bool) : (s.errsGone f).sameLasting s := by
  simp [Block.errsGone]

@[simp] theorem Block.crcErrors_lasting (s : Block) (c p : Nat) (h : Word) (off n : Nat) :
    (s.crcErrors c p h off n).sameLasting s := by
  simp [Block.crcErrors]

@[simp] theorem Block.performFirst_lasting (s : Block) (c p slot : Nat) (w : PendWrite) :
    (s.performFirst c p slot w).sameLasting s := by
  unfold Block.performFirst
  split <;> simp

@[simp] theorem Block.performOut_lasting (s : Block) (c : Nat) (f : PendWrite → Bool) :
    (s.performOut c f).sameLasting s := by
  simp [Block.performOut]

@[simp] theorem Block.choose_lasting (s : Block) (n : Nat) : (s.choose n).2.sameLasting s := by
  simp [Block.choose]

@[simp] theorem Block.objMiss_lasting (s : Block) (m : Mover) (o : Obj) (off n : Nat) :
    (s.objMiss m o off n).2.sameLasting s := by
  unfold Block.objMiss
  (repeat' split) <;> simp

@[simp] theorem Block.setMscLines_lasting (s : Block) (k : Nat) (l : List MscLine) :
    (s.setMscLines k l).sameLasting s := by
  simp [Block.setMscLines]

@[simp] theorem Block.lineErrors_lasting (s : Block) (x : MscLine) (a b : Nat) :
    (s.lineErrors x a b).2.sameLasting s := by
  simp [Block.lineErrors, apply_ite Prod.snd]

@[simp] theorem Block.lineOut_lasting (s : Block) (x : MscLine) : (s.lineOut x).sameLasting s := by
  simp [Block.lineOut]

@[simp] theorem Block.mscMiss_lasting (s : Block) (a : MscAccess) (l : List MscLine) :
    (s.mscMiss a l).sameLasting s := by
  unfold Block.mscMiss
  extract_lets d ways s1 s2
  have h : s2.sameLasting s := by simp [s2, s1]
  clear_value s2
  split
  · simp [h.1, h.2]
  · split
    next v _ _ => cases v <;> simp [h.1, h.2]

@[simp] theorem Block.mscHit_lasting (s : Block) (a : MscAccess) (x : MscLine) (rest : List MscLine) :
    (s.mscHit a x rest).sameLasting s := by
  unfold Block.mscHit
  extract_lets s1 uses y kept
  have h : s1.sameLasting s := by simp [s1]
  clear_value s1 uses y kept
  rcases uses with _ | ⟨c, r⟩
  · simpa using h
  · dsimp only
    split <;> simpa using h

@[simp] theorem Block.mscAccess_lasting (s : Block) (a : MscAccess) : (s.mscAccess a).sameLasting s := by
  unfold Block.mscAccess
  extract_lets l s1
  have h : s1.sameLasting s := by simp [s1]
  clear_value s1
  split
  · simpa using h
  · split
    · exact h
    · dsimp only
      (repeat' split) <;> simp [h.1, h.2]

@[simp] theorem Block.copyAccess_lasting (s : Block) (p : Nat) (h : Word) (sector hint : Nat) (wr narrow : Bool) (copy : Nat) :
    (s.copyAccess p h sector hint wr narrow copy).sameLasting s := by
  unfold Block.copyAccess
  (repeat' split) <;> simp

@[simp] theorem Block.traffic_lasting (s : Block) (p : Nat) (h : Word) (die off n hint : Nat) (wr narrow : Bool) :
    (s.traffic p h die off n hint wr narrow).sameLasting s := by
  unfold Block.traffic
  split <;> simp

@[simp] theorem Block.objReadUnit_lasting (s : Block) (m : Mover) (off n : Nat) :
    (s.objReadUnit m off n).2.sameLasting s := by
  unfold Block.objReadUnit
  split
  · exact ⟨rfl, rfl⟩
  · dsimp only
    split <;> simp

@[simp] theorem Block.objRead_lasting (s : Block) (m : Mover) (off n : Nat) : (s.objRead m off n).2.sameLasting s := by
  unfold Block.objRead
  exact foldl_lasting (g := Prod.snd) _ (fun a u => by simp) _ _

@[simp] theorem Block.endRead_lasting (s : Block) (x : EngCtx) (space : Nat) (h : Word) (off n hint : Nat) :
    (s.endRead x space h off n hint).2.sameLasting s := by
  unfold Block.endRead
  (repeat' split) <;> simp

@[simp] theorem Block.consumed_lasting (s : Block) (point unit : Nat) (h : Word) (off : Nat) :
    (s.consumed point unit h off).sameLasting s := by
  simp [Block.consumed]

@[simp] theorem Block.modTile_lasting (s : Block) (t : Nat) (f : Tile → Tile) : (s.modTile t f).sameLasting s := by
  simp [Block.modTile]

@[simp] theorem Block.tmWrite_lasting (s : Block) (t a : Nat) (bs : List Byte) (ps : List Bool) :
    (s.tmWrite t a bs ps).sameLasting s := by
  simp [Block.tmWrite]

@[simp] theorem Block.putStats_lasting (s : Block) (t : Nat) (w : AttnWork) (r : Nat) (x : AttnRow) :
    (s.putStats t w r x).sameLasting s := by
  simp [Block.putStats]

@[simp] theorem Block.attnFresh_lasting (s : Block) (t : Nat) (w : AttnWork) : (s.attnFresh t w).sameLasting s := by
  simp [Block.attnFresh]

@[simp] theorem Block.readPart_lasting (s : Block) (x : EngCtx) (w : AttnWork) (p : AttnPart) (r : Nat) :
    (s.readPart x w p r).2.sameLasting s := by
  simp [Block.readPart]

@[simp] theorem Block.attnCombineRows_lasting (s : Block) (x : EngCtx) (w : AttnWork) :
    (s.attnCombineRows x w).sameLasting s := by
  unfold Block.attnCombineRows
  refine Block.each_lasting _ _ _ fun s r => ?_
  extract_lets got n y t1 t2
  have h : got.2.sameLasting s := foldl_lasting (g := Prod.snd) _ (fun a p => by simp) _ _
  simp [t2, t1, h.1, h.2]

@[simp] theorem Block.addMatrix_lasting (s : Block) (t kblk a rows cols : Nat) (terms : Nat → Nat → List (Elem × Elem)) :
    (s.addMatrix t kblk a rows cols terms).sameLasting s := by
  simp [Block.addMatrix]

@[simp] theorem Block.attnBackward_lasting (s : Block) (t : Nat) (w : AttnWork) :
    (s.attnBackward t w).sameLasting s := by
  simp [Block.attnBackward]

@[simp] theorem Block.attnPiece_lasting (s : Block) (x : EngCtx) (k : AttnKind) (w : AttnWork) :
    (s.attnPiece x k w).2.sameLasting s := by
  unfold Block.attnPiece
  dsimp only
  split
  · simp
  · cases k <;> simp

@[simp] theorem Block.attnCall_lasting (s : Block) (x : EngCtx) (k : AttnKind) (args : List Word) :
    (s.attnCall x k args).2.sameLasting s := by
  unfold Block.attnCall
  exact foldl_lasting (g := Prod.snd) _ (fun a w => by simp [apply_ite Prod.snd]) _ _

@[simp] theorem Block.modJob_lasting (s : Block) (j : Nat) (f : Job → Job) : (s.modJob j f).sameLasting s := by
  simp [Block.modJob]

@[simp] theorem Block.breachEvent_lasting (s : Block) (n kind : Nat) (extra : List Word) :
    (s.breachEvent n kind extra).sameLasting s := by
  simp [Block.breachEvent]

@[simp] theorem Block.modSem_lasting (s : Block) (r : SemRef) (f : Sem → Sem) : (s.modSem r f).sameLasting s := by
  unfold Block.modSem
  split <;> simp

@[simp] theorem Block.discardQueues_lasting (s : Block) (c : Nat) : (s.discardQueues c).sameLasting s := by
  unfold Block.discardQueues
  extract_lets k all idle waits s1 s2 drop s3
  have h : s3.sameLasting s := by simp [s3, s2, s1]
  split
  · simpa using h
  · exact h

@[simp] theorem Block.jobFail_lasting (s : Block) (j st count tag engine : Nat) :
    (s.jobFail j st count tag engine).sameLasting s := by
  unfold Block.jobFail
  split <;> simp

@[simp] theorem Block.semsLeave_lasting (s : Block) (ledger : Nat) (t : Tbl Sem) :
    (s.semsLeave ledger t).sameLasting s := by
  simp [Block.semsLeave]

@[simp] theorem Block.dropHolds_lasting (s : Block) (j : Nat) : (s.dropHolds j).sameLasting s := by
  simp [Block.dropHolds]

@[simp] theorem Block.freeCluster_lasting (s : Block) (c : Nat) : (s.freeCluster c).sameLasting s := by
  simp [Block.freeCluster]

@[simp] theorem Block.setStepStatus_lasting (s : Block) (p m st : Nat) (ns : List Nat) :
    (s.setStepStatus p m st ns).sameLasting s := by
  unfold Block.setStepStatus
  split <;> simp

@[simp] theorem Block.countEnded_lasting (s : Block) (f cls : Nat) : (s.countEnded f cls).sameLasting s := by
  simp [Block.countEnded]

@[simp] theorem Block.hostWrite_lasting (s : Block) (f a : Nat) (bs : List Byte) :
    (s.hostWrite f a bs).sameLasting s := by
  simp [Block.hostWrite]

@[simp] theorem Block.ringPut_lasting (s : Block) (f ri : Nat) (ws : List Word) : (s.ringPut f ri ws).sameLasting s := by
  unfold Block.ringPut
  split <;> simp

@[simp] theorem Block.ringEntry_lasting (s : Block) (f ri : Nat) (ws : List Word) :
    (s.ringEntry f ri ws).sameLasting s := by
  unfold Block.ringEntry
  split <;> simp

@[simp] theorem Block.framesBack_lasting (s : Block) (p : Nat) (o : Obj) : (s.framesBack p o).sameLasting s := by
  simp [Block.framesBack]

@[simp] theorem Block.destroy_lasting (s : Block) (p slot : Nat) : (s.destroy p slot).sameLasting s := by
  unfold Block.destroy
  split <;> simp

@[simp] theorem Block.dropPending_lasting (s : Block) (p slot : Nat) : (s.dropPending p slot).sameLasting s := by
  simp [Block.dropPending]

@[simp] theorem Block.sweepDying_lasting (s : Block) (p : Nat) : (s.sweepDying p).sameLasting s := by
  simp [Block.sweepDying]

@[simp] theorem Block.countJobs_lasting (s : Block) (p : Nat) : (s.countJobs p).sameLasting s := by
  simp [Block.countJobs]

@[simp] theorem Block.finishJob_lasting (s : Block) (j : Nat) : (s.finishJob j).sameLasting s := by
  unfold Block.finishJob
  (repeat' split) <;> simp

@[simp] theorem Block.failJob_lasting (s : Block) (j st count tag engine : Nat) :
    (s.failJob j st count tag engine).sameLasting s := by
  unfold Block.failJob
  split <;> simp

@[simp] theorem Block.refuseIssue_lasting (s : Block) (x : Issue) (st : Nat) : (s.refuseIssue x st).sameLasting s := by
  simp [Block.refuseIssue]

@[simp] theorem Block.issued_lasting (s : Block) (c pos : Nat) : (s.issued c pos).sameLasting s := by
  simp [Block.issued]

@[simp] theorem Block.enterRoutine_lasting (s : Block) (x : Issue) : (s.enterRoutine x).sameLasting s := by
  simp [Block.enterRoutine]

@[simp] theorem Block.modPage_lasting (s : Block) (p pid : Nat) (f : Page → Page) :
    (s.modPage p pid f).sameLasting s := by
  simp [Block.modPage]

@[simp] theorem Block.bankWrite_lasting (s : Block) (u : Nat) (b : BankUnit) : (s.bankWrite u b).sameLasting s := by
  unfold Block.bankWrite
  split <;> simp

@[simp] theorem Block.setFu_lasting (s : Block) (u : Nat) (x : FirnUnit) : (s.setFu u x).sameLasting s := by
  simp [Block.setFu]

@[simp] theorem Block.modFu_lasting (s : Block) (u : Nat) (f : FirnUnit → FirnUnit) : (s.modFu u f).sameLasting s := by
  simp [Block.modFu]

@[simp] theorem Block.firnDrain_lasting (s : Block) (u n : Nat) : (s.firnDrain u n).sameLasting s := by
  simp [Block.firnDrain]

@[simp] theorem Block.firnDrainSome_lasting (s : Block) (u : Nat) : (s.firnDrainSome u).sameLasting s := by
  simp [Block.firnDrainSome]

@[simp] theorem Block.firnSettle_lasting (s : Block) : (s.firnSettle).sameLasting s := by
  simp [Block.firnSettle]

@[simp] theorem Block.modStackErr_lasting (s : Block) (n : Nat) (f : StackErr → StackErr) :
    (s.modStackErr n f).sameLasting s := by
  simp [Block.modStackErr]

@[simp] theorem Block.pick_lasting {α : Type} (s : Block) (l : List α) (d : α) : (s.pick l d).2.sameLasting s := by
  simp [Block.pick]

theorem Block.pick_some_lasting {α : Type} {s t : Block} {l : List α} {d x : α} (h : s.pick l d = (x, t)) :
    t.sameLasting s := by
  have e : t = (s.pick l d).2 := by rw [h]
  rw [e]
  exact s.pick_lasting l d

@[simp] theorem Block.moveKvPage_lasting (s : Block) (pn pid : Nat) : (s.moveKvPage pn pid).sameLasting s := by
  unfold Block.moveKvPage
  (repeat' split) <;> simp

@[simp] theorem Block.wakeSet_lasting (s : Block) (u : Nat) : (s.wakeSet u).sameLasting s := by
  simp [Block.wakeSet]

/-! The kernel cannot check the equation that Lean makes for `placeFirn` (it recurses too deep): its recursion is unfolded by
hand, one frame of a piece at a time. -/

theorem Block.placeFirn_succ (s : Block) (pn : Nat) (p : Part) (slot pc unit k : Nat) :
    ∃ u, s.placeFirn pn p slot pc unit (k + 1) =
      Block.placeFirn._f s pn p slot pc unit (k + 1) ⟨s.placeFirn pn p slot pc unit k, u⟩ := by
  refine ⟨(Nat.brecOn.go (motive := fun _ => Option Block) (k + 1) (Block.placeFirn._f s pn p slot pc unit)).2.2, ?_⟩
  delta Block.placeFirn
  exact Nat.brecOn.eq (motive := fun _ => Option Block) (k + 1) (Block.placeFirn._f s pn p slot pc unit)

theorem Block.placeFirn_frame_lasting {s b t : Block} {pn : Nat} {p : Part} {slot pc unit k : Nat}
    {u : Nat.below (motive := fun _ => Option Block) k}
    (h : Block.placeFirn._f s pn p slot pc unit (k + 1) ⟨some b, u⟩ = some t) : t.sameLasting b := by
  delta Block.placeFirn._f at h
  conv at h => lhs; whnf
  split at h
  · cases h
  · extract_lets n pages before miss at h
    clear_value n pages before miss
    split at h
    · cases h
      exact Block.modObj_lasting ..
    · split at h
      · cases h
      · split at h
        · cases h
        · split at h
          next hg =>
          cases h
          simpa using Block.pick_some_lasting hg

theorem Block.placeFirn_lasting {s : Block} {pn : Nat} {p : Part} {slot pc unit n : Nat} {t : Block}
    (h : s.placeFirn pn p slot pc unit n = some t) : t.sameLasting s := by
  induction n generalizing t with
  | zero => cases h; exact ⟨rfl, rfl⟩
  | succ k ih =>
    obtain ⟨u, e⟩ := s.placeFirn_succ pn p slot pc unit k
    cases hb : s.placeFirn pn p slot pc unit k with
    | none => simp [e, hb] at h
    | some b =>
      rw [e, hb] at h
      obtain ⟨h1, h2⟩ := Block.placeFirn_frame_lasting h
      obtain ⟨h3, h4⟩ := ih hb
      exact ⟨h1.trans h3, h2.trans h4⟩

@[simp] theorem Block.movePiece_lasting (s : Block) (pn slot pc : Nat) : (s.movePiece pn slot pc).sameLasting s := by
  unfold Block.movePiece
  split
  · split
    · exact ⟨rfl, rfl⟩
    · extract_lets need units near
      split
      next v t hv =>
      have ht := Block.pick_some_lasting hv
      split
      · exact ht
      · extract_lets bare
        cases hp : bare.placeFirn _ _ slot pc v 4 with
        | none => exact ht
        | some b =>
          obtain ⟨h1, h2⟩ := Block.placeFirn_lasting hp
          simp [h1, h2, bare, ht.1, ht.2]
  · exact ⟨rfl, rfl⟩

@[simp] theorem Block.flushFrame_lasting (s : Block) (p : Nat) (h : Word) (o : Obj) (fr n : Nat) :
    (s.flushFrame p h o fr n).sameLasting s := by
  simp [Block.flushFrame]

@[simp] theorem Block.copyFrame_lasting (s : Block) (p : Nat) (h : Word) (o : Obj) (fr a b : Nat) :
    (s.copyFrame p h o fr a b).sameLasting s := by
  simp [Block.copyFrame]

@[simp] theorem Block.moveFrame_lasting (s : Block) (p : Nat) (h : Word) (fr n : Nat) :
    (s.moveFrame p h fr n).sameLasting s := by
  unfold Block.moveFrame
  (repeat' split) <;> simp

@[simp] theorem Block.moveOut_lasting (s : Block) (n p : Nat) (h : Word) (off : Nat) :
    (s.moveOut n p h off).sameLasting s := by
  unfold Block.moveOut
  (repeat' split) <;> simp

@[simp] theorem Block.retireFrame_lasting (s : Block) (n g p : Nat) : (s.retireFrame n g p).sameLasting s := by
  simp [Block.retireFrame]

@[simp] theorem Block.retireRow_lasting (s : Block) (n core bank row cause : Nat) (obj : Option (Nat × Word × Nat)) :
    (s.retireRow n core bank row cause obj).sameLasting s := by
  unfold Block.retireRow
  split <;> simp

@[simp] theorem Block.rowCorrected_lasting (s : Block) (n core bank row : Nat) (obj : Option (Nat × Word × Nat)) :
    (s.rowCorrected n core bank row obj).sameLasting s := by
  simp [Block.rowCorrected]

@[simp] theorem Block.repairMet_lasting (s : Block) : (s.repairMet).sameLasting s := by
  simp [Block.repairMet]

end Sys2Proof.Machine
end

section
/-! Control commands of a command stream (R180, R182 to R187, R201). -/

namespace Sys2Proof.Machine

/-! ### Clusters and tiles -/

@[simp] theorem Block.cl_setCl_same (s : Block) (c : Nat) (k : Cluster) : (s.setCl c k).cl c = k := tget_tset_same ..

theorem Block.cl_setCl_other (s : Block) {c d : Nat} (k : Cluster) (h : d ≠ c) : (s.setCl c k).cl d = s.cl d :=
  tget_tset_other _ _ _ _ h

@[simp] theorem Block.cl_modCl_same (s : Block) (c : Nat) (f : Cluster → Cluster) : (s.modCl c f).cl c = f (s.cl c) :=
  tget_tset_same ..

theorem Block.cl_congr {s t : Block} (h : t.clusters = s.clusters) (c : Nat) : t.cl c = s.cl c := by
  unfold Block.cl
  rw [h]

theorem Block.tile_modTile (s : Block) (t u : Nat) (f : Tile → Tile) :
    (s.modTile t f).tile u = if u = t then f (s.tile t) else s.tile u := by
  unfold Block.tile Block.modTile
  split_ifs with h
  · subst h
    exact tget_tset_same ..
  · exact tget_tset_other _ _ _ _ h

/-- A tile changed in a run of neighbours. -/
theorem Block.tile_loop_modTile (s : Block) (a n u : Nat) (f : Tile → Tile) :
    (loop n (fun i s => s.modTile (a + i) f) s).tile u = if a ≤ u ∧ u < a + n then f (s.tile u) else s.tile u := by
  induction n with
  | zero =>
    rw [if_neg (by omega)]
    rfl
  | succ n ih =>
    have e : loop (n + 1) (fun i s => s.modTile (a + i) f) s = (loop n (fun i s => s.modTile (a + i) f) s).modTile (a + n) f :=
      rfl
    rw [e, Block.tile_modTile]
    by_cases h : u = a + n
    · subst h
      have hn : (loop n (fun i s => s.modTile (a + i) f) s).tile (a + n) = s.tile (a + n) := by
        rw [ih, if_neg (by omega)]
      rw [if_pos rfl, if_pos (by omega), hn]
    · rw [if_neg h, ih]
      exact if_congr (by omega) rfl rfl

/-! ### A command that comes to its turn -/

theorem Block.nextIssue_c {s : Block} {c : Nat} {x : Issue} (h : s.nextIssue c = some x) : x.c = c := by
  unfold Block.nextIssue at h
  dsimp only at h
  split at h
  · cases h
  · split at h
    · cases h
      rfl
    · cases h

section
variable {s : Block} {c op : Nat} {x : Issue}

theorem Block.issues.cluster (h : s.issues c op x) : x.c = c := by
  obtain ⟨-, -, -, hx, -⟩ := h
  exact Block.nextIssue_c hx

theorem Block.issues.ready (h : s.issues c op x) : issueReady c op s = true := by
  obtain ⟨hr, -, -, hx, hop, -⟩ := h
  simp [issueReady, hr, hx, hop]

theorem Block.issues.issue (h : s.issues c op x) (ctl : Issue → Block → Block) :
    s.issue c op ctl = if engineKind x.cmd.engine = 3 then ctl x s else s.toQueue x := by
  have hr := h.ready
  obtain ⟨-, -, -, hx, -, hb, hc⟩ := h
  simp only [Block.issue, hr, if_true, hx, Block.issueNow, hb, hc]

/-- The core executes its own commands. -/
theorem Block.runs.issue (h : s.runs c op x) (ctl : Issue → Block → Block) : s.issue c op ctl = ctl x s := by
  obtain ⟨h, hk⟩ := h
  rw [h.issue, if_pos hk]

theorem Block.runs.state (h : s.runs c op x) : (s.cl c).state = .issuing := by
  obtain ⟨⟨-, hs, -⟩, -⟩ := h
  exact hs

theorem Block.runs.stepOver (h : s.runs c op x) : (s.cl c).stepOver = 0 := by
  obtain ⟨⟨-, -, hs, -⟩, -⟩ := h
  exact hs

end

/-- A core that issues counts the command and moves on. -/
theorem Block.issued_eq {s : Block} {c : Nat} (pos : Nat) (hs : (s.cl c).state = .issuing) (ho : (s.cl c).stepOver = 0) :
    s.issued c pos = s.setCl c ((s.cl c).past pos) := by
  have hw : ((s.cl c).state == CoreState.stalled) = false := by
    rw [hs]
    rfl
  simp only [Block.issued, hw, Block.modCl, ho]
  simp [Cluster.past, ho]

/-- As `issued_eq`, of a core in whose cluster something else has changed before. -/
theorem Block.issued_setCl {s : Block} {c : Nat} (k : Cluster) (pos : Nat) (hs : k.state = .issuing) (ho : k.stepOver = 0) :
    (s.setCl c k).issued c pos = (s.setCl c k).setCl c (k.past pos) := by
  rw [Block.issued_eq] <;> rw [Block.cl_setCl_same]
  · exact hs
  · exact ho

/-- A command of the control core whose effect touches neither fuses nor permanent records. -/
theorem exec_control {s : State} {c op : Nat} {x : Issue} {f : Block → Block} {ctl : Issue → Block → Block} {b : Block}
    (h : s.blk.runs c op x) (hf : f s.blk = s.blk.issue c op ctl) (hb : ctl x s.blk = b) (hl : b.sameLasting s.blk) :
    onBlk f s = .next { s with blk := b } :=
  onBlk_next_of_eq (by rw [hf, h.issue, hb]) (by rw [hl.1]) hl.2

/-! ### The commands -/

section
variable {s : State} {c : Nat} {x : Issue}

theorem exec_nop_control (h : s.blk.runs c 0x00 x) :
    exec (.nop c) s = .next { s with blk := s.blk.setCl c ((s.blk.cl c).past ((s.blk.cl c).pos + 1)) } := by
  refine exec_control (f := effNop c) (ctl := ctlNop) h ?_ ?_ (by simp)
  · rw [effNop, if_pos h.1.ready]
  · rw [ctlNop, h.1.cluster]
    exact Block.issued_eq _ h.state h.stepOver

/-- A REPEAT without patches whose count stands in the command. -/
theorem ctlRepeat_plain {b : Block} (h : b.runs c 0x01 x) (hs : x.cmd.b 2 31 = false) (hp : x.cmd.f 5 4 0 = 0)
    (ha : x.cmd.f 4 22 0 ≤ shmEnd) :
    ctlRepeat x b = if x.cmd.n 1 = 0 then b.issued c ((b.cl c).pos + x.cmd.f 3 15 0 + 1)
      else (b.modCl c fun k => { k with loops := { pos := (b.cl c).pos, body := x.cmd.f 3 15 0, total := x.cmd.n 1, iter := 0,
                                                   patches := [] } :: k.loops }).issuedNext c := by
  have hm : (b.cl c).shm.marked (x.cmd.f 4 22 0) 0 = false := by simp [Store.marked]
  simp only [ctlRepeat, h.1.cluster, hs, hp]
  simp [hm, Nat.not_lt.mpr ha]

theorem exec_repeat_none (h : s.blk.runs c 0x01 x) (hs : x.cmd.b 2 31 = false) (hp : x.cmd.f 5 4 0 = 0)
    (ha : x.cmd.f 4 22 0 ≤ shmEnd) (hn : x.cmd.n 1 = 0) :
    exec (.repeatCmd c) s =
      .next { s with blk := s.blk.setCl c ((s.blk.cl c).past ((s.blk.cl c).pos + x.cmd.f 3 15 0 + 1)) } := by
  refine exec_control (f := effRepeatCmd c) h rfl ?_ (by simp)
  rw [ctlRepeat_plain h hs hp ha, if_pos hn]
  exact Block.issued_eq _ h.state h.stepOver

/-- A command that changes its cluster and moves its core on. -/
theorem exec_control_past {op : Nat} {f : Block → Block} {ctl : Issue → Block → Block} {k : Cluster} {pos : Nat}
    (h : s.blk.runs c op x) (hf : f s.blk = s.blk.issue c op ctl) (he : ctl x s.blk = (s.blk.setCl c k).issued c pos)
    (hs : k.state = (s.blk.cl c).state) (ho : k.stepOver = (s.blk.cl c).stepOver) :
    ∃ t : State, onBlk f s = .next t ∧ t.pending = s.pending ∧ t.blk.cl c = k.past pos ∧
      { t.blk with clusters := s.blk.clusters } = s.blk := by
  refine ⟨_, exec_control h hf (he.trans (Block.issued_setCl k pos (hs.trans h.state) (ho.trans h.stepOver))) (by simp), rfl, ?_, rfl⟩
  exact Block.cl_setCl_same ..

/-- A cluster whose loop is opened by REPEAT. -/
def Cluster.looped (k : Cluster) (x : Issue) : Cluster :=
  { k with loops := { pos := k.pos, body := x.cmd.f 3 15 0, total := x.cmd.n 1, iter := 0, patches := [] } :: k.loops }

theorem exec_repeat_some (h : s.blk.runs c 0x01 x) (hs : x.cmd.b 2 31 = false) (hp : x.cmd.f 5 4 0 = 0)
    (ha : x.cmd.f 4 22 0 ≤ shmEnd) (hn : 0 < x.cmd.n 1) :
    ∃ t : State, exec (.repeatCmd c) s = .next t ∧ t.pending = s.pending ∧
      t.blk.cl c = ((s.blk.cl c).looped x).past ((s.blk.cl c).pos + 1) ∧
      { t.blk with clusters := s.blk.clusters } = s.blk := by
  refine exec_control_past (f := effRepeatCmd c) h rfl ?_ rfl rfl
  rw [ctlRepeat_plain h hs hp ha, if_neg (by omega), Block.issuedNext, Block.cl_modCl_same, Block.modCl, Cluster.looped]

theorem exec_endRepeat_again {f : LoopFrame} {l : List LoopFrame} (h : s.blk.runs c 0x02 x)
    (hl : (s.blk.cl c).loops = f :: l) (hf : f.iter + 1 < f.total) :
    ∃ t : State, exec (.endRepeat c) s = .next t ∧ t.pending = s.pending ∧
      t.blk.cl c = { s.blk.cl c with loops := { f with iter := f.iter + 1 } :: l }.past (f.pos + 1) ∧
      { t.blk with clusters := s.blk.clusters } = s.blk := by
  refine exec_control_past (f := effEndRepeat c) h rfl ?_ rfl rfl
  simp only [ctlEndRepeat, h.1.cluster, hl, if_pos hf, Block.modCl]

theorem exec_endRepeat_last {f : LoopFrame} {l : List LoopFrame} (h : s.blk.runs c 0x02 x)
    (hl : (s.blk.cl c).loops = f :: l) (hf : f.total ≤ f.iter + 1) :
    ∃ t : State, exec (.endRepeat c) s = .next t ∧ t.pending = s.pending ∧
      t.blk.cl c = { s.blk.cl c with loops := l }.past ((s.blk.cl c).pos + 1) ∧
      { t.blk with clusters := s.blk.clusters } = s.blk := by
  refine exec_control_past (f := effEndRepeat c) h rfl ?_ rfl rfl
  simp only [ctlEndRepeat, h.1.cluster, hl, if_neg (Nat.not_lt.mpr hf), Block.issuedNext]
  rw [Block.cl_modCl_same, Block.modCl]

/-- A cluster whose next command is a routine's first. -/
def Cluster.called (k : Cluster) (x : Issue) : Cluster :=
  { k with
    calls := { routine := x.cmd.f 1 15 0, retPos := k.pos + 1, loops := k.loops, args := callArgs x.cmd } :: k.calls
    loops := []
    rootTag := x.tag }

theorem exec_call_plain {r : Routine} (h : s.blk.runs c 0x03 x) (hc : (s.blk.cl c).calls.length < 4)
    (hr : s.blk.routine (x.cmd.f 1 15 0) = some r) (ha : r.attn = none) :
    ∃ t : State, exec (.call c) s = .next t ∧ t.pending = s.pending ∧ t.blk.cl c = ((s.blk.cl c).called x).past 0 ∧
      { t.blk with clusters := s.blk.clusters } = s.blk := by
  refine exec_control_past (f := effCall c) h rfl ?_ rfl rfl
  simp only [ctlCall, h.1.cluster, if_neg (Nat.not_le.mpr hc), hr, ha, Block.enterRoutine, Block.modCl, Cluster.called]

theorem exec_call_attention {st : Nat} {r : Routine} {k : AttnKind} {b : Block} (h : s.blk.runs c 0x03 x)
    (hc : (s.blk.cl c).calls.length < 4) (hr : s.blk.routine (x.cmd.f 1 15 0) = some r) (ha : r.attn = some k)
    (hf : s.blk.attnFree c k (callArgs x.cmd) = true) (he : s.blk.attnCall (engCtx x 0) k (callArgs x.cmd) = (st, b)) :
    exec (.call c) s = .next { s with blk := if st = OK then b.enterRoutine x else b.refuseIssue x st } := by
  have hb : b.sameLasting s.blk := by
    have h := s.blk.attnCall_lasting (engCtx x 0) k (callArgs x.cmd)
    rwa [he] at h
  refine exec_control (f := effCall c) (ctl := ctlCall) h rfl ?_ (by simp [hb.1, hb.2])
  simp only [ctlCall, h.1.cluster, if_neg (Nat.not_le.mpr hc), hr, ha, if_pos hf, he]

/-- Region 62 of a cluster's tiles emptied (R187). -/
def Block.drop62 (s : Block) (c : Nat) : Block :=
  loop 8 (fun i s => s.modTile (c * 8 + i) fun t => { t with mem := t.mem.dropRegion 62 }) s

theorem Block.drop62_frame (s : Block) (c : Nat) : { s.drop62 c with tiles := s.tiles } = s := by
  have h := loop_keeps (fun b : Block => { b with tiles := s.tiles })
    (fun i s => s.modTile (c * 8 + i) fun t => { t with mem := t.mem.dropRegion 62 }) (fun _ _ => rfl) 8 s
  exact h

theorem Block.tile_drop62 (s : Block) (c u : Nat) :
    (s.drop62 c).tile u = if u / 8 = c then { s.tile u with mem := (s.tile u).mem.dropRegion 62 } else s.tile u := by
  unfold Block.drop62
  rw [Block.tile_loop_modTile]
  exact if_congr (by omega) rfl rfl

theorem exec_return {f : CallFrame} {l : List CallFrame} (h : s.blk.runs c 0x04 x) (hl : (s.blk.cl c).calls = f :: l) :
    ∃ t : State, exec (.returnCmd c) s = .next t ∧ t.pending = s.pending ∧
      t.blk.cl c = { s.blk.cl c with calls := l, loops := f.loops }.past f.retPos ∧
      (∀ u, t.blk.tile u = if u / 8 = c then { s.blk.tile u with mem := (s.blk.tile u).mem.dropRegion 62 } else s.blk.tile u) ∧
      { t.blk with clusters := s.blk.clusters, tiles := s.blk.tiles } = s.blk := by
  obtain ⟨b, hb⟩ : ∃ b, b = s.blk.drop62 c := ⟨_, rfl⟩
  have hfr : { b with tiles := s.blk.tiles } = s.blk := by rw [hb, Block.drop62_frame]
  have hcl : b.cl c = s.blk.cl c := Block.cl_congr (congrArg Block.clusters hfr) c
  have hlast : b.sameLasting s.blk := ⟨(congrArg Block.trust hfr :), (congrArg (fun b : Block => b.ice.perm) hfr :)⟩
  have he : ctlReturn x s.blk = (b.setCl c { s.blk.cl c with calls := l, loops := f.loops }).issued c f.retPos := by
    simp only [ctlReturn, h.1.cluster, hl]
    rw [← Block.drop62, ← hb, Block.modCl, hcl]
  have hi := Block.issued_setCl (s := b) (c := c) { s.blk.cl c with calls := l, loops := f.loops } f.retPos h.state h.stepOver
  refine ⟨_, exec_control (f := effReturnCmd c) h rfl (he.trans hi)
    (by simp [hlast.1, hlast.2]), rfl, Block.cl_setCl_same .., fun u => ?_, ?_⟩
  · exact (congrArg (fun b : Block => b.tile u) hb).trans (s.blk.tile_drop62 c u)
  · have hc : b.clusters = s.blk.clusters := (congrArg Block.clusters hfr :)
    show { b with clusters := s.blk.clusters, tiles := s.blk.tiles } = s.blk
    rw [← hc]
    exact hfr

theorem exec_end (h : s.blk.runs c 0x05 x) :
    ∃ t : State, exec (.endCmd c) s = .next t ∧ t.pending = s.pending ∧
      t.blk.cl c = { (s.blk.cl c).past ((s.blk.cl c).pos + 1) with state := .ending } ∧
      { t.blk with clusters := s.blk.clusters } = s.blk := by
  have he : ctlEnd x s.blk =
      (s.blk.setCl c ((s.blk.cl c).past ((s.blk.cl c).pos + 1))).modCl c fun k => { k with state := .ending } := by
    rw [ctlEnd, h.1.cluster, Block.issuedNext, Block.issued_eq _ h.state h.stepOver]
  refine ⟨_, exec_control (f := effEndCmd c) h rfl he (by simp), rfl, ?_, rfl⟩
  dsimp only
  rw [Block.cl_modCl_same, Block.cl_setCl_same]

theorem exec_cheapPoint_skipped (h : s.blk.runs c 0x06 x) (hr : x.routine = false)
    (ho : s.blk.holdsSem x.j = true ∨ 0 < s.blk.jobOut x.j) :
    ∃ t : State, exec (.cheapPoint c) s = .next t ∧ t.pending = s.pending ∧
      t.blk.cl c = (s.blk.cl c).past ((s.blk.cl c).pos + 1) ∧
      (t.blk.rg (CCC_CHEAP_SKIPPED c)).toNat = min 0xFFFFFFFF ((s.blk.rg (CCC_CHEAP_SKIPPED c)).toNat + 1) ∧
      { t.blk with clusters := s.blk.clusters, regs := s.blk.regs } = s.blk := by
  obtain ⟨b, hb⟩ : ∃ b, b = s.blk.bump (CCC_CHEAP_SKIPPED c) := ⟨_, rfl⟩
  have hcl : b.cl c = s.blk.cl c := Block.cl_congr (by rw [hb, Block.bump_clusters]) c
  have he : ctlCheapPoint x s.blk = b.setCl c ((s.blk.cl c).past ((s.blk.cl c).pos + 1)) := by
    have ho' : (s.blk.holdsSem x.j || decide (0 < s.blk.jobOut x.j)) = true := by simpa using ho
    simp only [ctlCheapPoint, hr, Bool.false_eq_true, if_false, ho', if_true, h.1.cluster]
    rw [← hb, Block.issuedNext, Block.issued_eq _ (by rw [hcl, h.state]) (by rw [hcl, h.stepOver]), hcl]
  refine ⟨_, exec_control (f := effCheapPoint c) h rfl he (by simp [hb]), rfl, Block.cl_setCl_same .., ?_, ?_⟩
  · have hr : ∀ k a, (b.setCl c k).rg a = b.rg a := fun _ _ => rfl
    rw [hr, hb]
    exact Block.rg_bump_same ..
  · simp [hb, Block.setCl]

theorem exec_cheapPoint_taken (h : s.blk.runs c 0x06 x) (hr : x.routine = false) (hh : s.blk.holdsSem x.j = false)
    (ho : s.blk.jobOut x.j = 0) (hp : (s.blk.cl c).preempt = true) :
    ∃ t : State, exec (.cheapPoint c) s = .next t ∧ t.pending = s.pending ∧
      t.blk.cl c = { (s.blk.cl c).past ((s.blk.cl c).pos + 1) with cheap := some x.cmd } ∧
      { t.blk with clusters := s.blk.clusters } = s.blk := by
  have he : ctlCheapPoint x s.blk =
      (s.blk.setCl c ((s.blk.cl c).past ((s.blk.cl c).pos + 1))).modCl c fun k => { k with cheap := some x.cmd } := by
    simp only [ctlCheapPoint, hr, hh, ho, h.1.cluster, hp]
    simp only [Bool.false_eq_true, if_false, Nat.lt_irrefl, decide_false, Bool.or_self, if_true, Block.issuedNext]
    rw [Block.issued_eq _ h.state h.stepOver]
  refine ⟨_, exec_control (f := effCheapPoint c) h rfl he (by simp), rfl, ?_, rfl⟩
  dsimp only
  rw [Block.cl_modCl_same, Block.cl_setCl_same]

theorem exec_cheapPoint_passed (h : s.blk.runs c 0x06 x)
    (hp : x.routine = true ∨ (s.blk.holdsSem x.j = false ∧ s.blk.jobOut x.j = 0 ∧ (s.blk.cl c).preempt = false)) :
    exec (.cheapPoint c) s = .next { s with blk := s.blk.setCl c ((s.blk.cl c).past ((s.blk.cl c).pos + 1)) } := by
  refine exec_control (f := effCheapPoint c) h rfl ?_ (by simp)
  have he : ctlCheapPoint x s.blk = s.blk.issuedNext c := by
    obtain hr | ⟨hh, ho, hp⟩ := hp
    · rw [ctlCheapPoint, if_pos hr, h.1.cluster]
    · simp only [ctlCheapPoint, hh, ho, h.1.cluster, hp]
      simp
  rw [he, Block.issuedNext, Block.issued_eq _ h.state h.stepOver]

end

/-- Settles O11: every control command of a core that issues is its own effect (`exec_control`), and `Cluster.past` says what
the core counts. -/
theorem controlCommands : Obligations.ControlCommands := by
  refine ⟨?nop, ?repeatNone, ?repeatSome, ?again, ?last, ?call, ?attention, ?ret, ?ending, ?skipped, ?taken, ?passed⟩
  case nop =>
    rintro s c x k h rfl
    exact exec_nop_control h
  case repeatNone =>
    rintro s c x k h rfl hs hp ha hn
    exact exec_repeat_none h hs hp ha hn
  case repeatSome =>
    rintro s c x k h rfl hs hp ha hn
    obtain ⟨t, he, hq, hc, hf⟩ := exec_repeat_some h hs hp ha hn
    exact ⟨t, he, hq, by rw [hc]; rfl, by rw [hc]; rfl, by rw [hc]; rfl, hf⟩
  case again =>
    rintro s c x k f l h rfl hl hi
    obtain ⟨t, he, hq, hc, hf⟩ := exec_endRepeat_again h hl hi
    exact ⟨t, he, hq, by rw [hc]; rfl, by rw [hc]; rfl, hf⟩
  case last =>
    rintro s c x k f l h rfl hl hi
    obtain ⟨t, he, hq, hc, hf⟩ := exec_endRepeat_last h hl hi
    exact ⟨t, he, hq, by rw [hc]; rfl, by rw [hc]; rfl, hf⟩
  case call =>
    rintro s c x k h rfl hl ⟨r, hr, ha⟩
    obtain ⟨t, he, hq, hc, hf⟩ := exec_call_plain h hl hr ha
    exact ⟨t, he, hq, by rw [hc]; rfl, by rw [hc]; rfl, by rw [hc]; rfl, by rw [hc]; rfl, hf⟩
  case attention =>
    intro s c st x r k b h hl hr ha hfree he
    exact exec_call_attention h hl hr ha hfree he
  case ret =>
    rintro s c x k f l h rfl hl
    obtain ⟨t, he, hq, hc, ht, hf⟩ := exec_return h hl
    exact ⟨t, he, hq, by rw [hc]; rfl, by rw [hc]; rfl, by rw [hc]; rfl, ht, hf⟩
  case ending =>
    rintro s c x k h rfl
    obtain ⟨t, he, hq, hc, hf⟩ := exec_end h
    exact ⟨t, he, hq, by rw [hc], by rw [hc]; rfl, hf⟩
  case skipped =>
    rintro s c x k h rfl hr ho
    exact exec_cheapPoint_skipped h hr ho
  case taken =>
    rintro s c x k h rfl hr hh ho hp
    exact exec_cheapPoint_taken h hr hh ho hp
  case passed =>
    rintro s c x k h rfl hp
    exact exec_cheapPoint_passed h hp

end Sys2Proof.Machine
end

section
/-! Semaphores and fences of a command stream (R190 to R194, R285, R287). -/

namespace Sys2Proof.Machine

/-! ### A GLOBAL semaphore -/

theorem Block.sems_modSem_global (s : Block) (i : Nat) (f : Sem → Sem) :
    (s.modSem (.globalSem i) f).sems = kmod s.sems i f := rfl

theorem Block.kget_modSem_same {s : Block} {i : Nat} {y : Sem} (f : Sem → Sem) (h : kget s.sems i = some y) :
    kget (s.modSem (.globalSem i) f).sems i = some (f y) := by
  rw [Block.sems_modSem_global, kget_kmod, if_pos rfl, h]
  rfl

theorem Block.kget_modSem_other (s : Block) {i k : Nat} (f : Sem → Sem) (h : k ≠ i) :
    kget (s.modSem (.globalSem i) f).sems k = kget s.sems k := by
  rw [Block.sems_modSem_global, kget_kmod, if_neg h]

@[simp] theorem Block.modSem_global_clusters (s : Block) (i : Nat) (f : Sem → Sem) :
    (s.modSem (.globalSem i) f).clusters = s.clusters := rfl

/-- A name stands for the same semaphore while jobs, GLOBAL semaphores and the cluster's own stay. -/
theorem Block.semRef_congr {s t : Block} {j c n : Nat} (hj : t.jobs = s.jobs) (hs : t.sems = s.sems)
    (hc : (t.cl c).sems = (s.cl c).sems) : t.semRef j c n = s.semRef j c n := by
  unfold Block.semRef Block.jobAt
  rw [hj, hs, hc]

/-- A core that moves on changes no semaphore. -/
theorem Block.semRef_past (s : Block) (j c n pos : Nat) :
    (s.setCl c ((s.cl c).past pos)).semRef j c n = s.semRef j c n :=
  Block.semRef_congr rfl rfl (by rw [Block.cl_setCl_same]; rfl)

/-- An amount taken from a GLOBAL semaphore, not held. -/
theorem Block.semTake_global (s : Block) (i j n : Nat) :
    s.semTake (.globalSem i) j n false =
      (s.modSem (.globalSem i) fun y => { y with count := y.count - n }).ledShrink (s.semLedger (.globalSem i)) n := by
  simp [Block.semTake, Block.semLedger]

/-! ### Waits -/

section
variable {s : State} {c i : Nat} {x : Issue} {y : Sem}

theorem exec_semWait_granted (h : s.blk.runs c 0x08 x)
    (hr : s.blk.semRef x.j c (x.cmd.f 1 15 0) = some (.globalSem i)) (hy : kget s.blk.sems i = some y) (hw : y.waiters = [])
    (hn : x.cmd.f 2 23 0 ≤ y.count) (hh : x.cmd.b 3 4 = false) (ha : x.cmd.b 3 0 = false) :
    ∃ t : State, exec (.semWait c) s = .next t ∧ t.pending = s.pending ∧
      kget t.blk.sems i = some { y with count := y.count - x.cmd.f 2 23 0 } ∧
      (∀ k, k ≠ i → kget t.blk.sems k = kget s.blk.sems k) ∧ t.blk.cl c = (s.blk.cl c).past ((s.blk.cl c).pos + 1) := by
  obtain ⟨b, hb⟩ : ∃ b, b = s.blk.setCl c ((s.blk.cl c).past ((s.blk.cl c).pos + 1)) := ⟨_, rfl⟩
  have hi : s.blk.issuedNext c = b := by rw [hb, Block.issuedNext, Block.issued_eq _ h.state h.stepOver]
  have hrb : b.semRef x.j c (x.cmd.f 1 15 0) = some (.globalSem i) := by rw [hb, Block.semRef_past, hr]
  have hsb : b.sems = s.blk.sems := by rw [hb]; rfl
  have hyb : b.sem (.globalSem i) = some y := by rw [Block.sem, hsb, hy]
  have hl : b.sameLasting s.blk := by simp [hb]
  have he : ctlSemWait x s.blk = b.semTake (.globalSem i) x.j (x.cmd.f 2 23 0) false := by
    simp [ctlSemWait, h.1.cluster, hi, Block.semWaitNow, hrb, hyb, hw, hn, ha, hh]
  rw [Block.semTake_global] at he
  refine ⟨_, exec_control (f := effSemWait c) h rfl he (by simp [hl.1, hl.2]), rfl, ?_, fun k hk => ?_, ?_⟩ <;> dsimp only
  · rw [Block.ledShrink_sems, Block.kget_modSem_same _ (hsb ▸ hy)]
  · rw [Block.ledShrink_sems, Block.kget_modSem_other _ _ hk, hsb]
  · rw [Block.cl_congr (Block.ledShrink_clusters ..), Block.cl_congr (Block.modSem_global_clusters ..), hb,
      Block.cl_setCl_same]

/-- What a wait of the control core leaves behind the other waiters. -/
def Issue.waiter (x : Issue) : Waiter :=
  { cluster := x.c, queue := 24, cmd := x.count, amount := x.cmd.f 2 23 0, acquire := none, hold := x.cmd.b 3 4 }

theorem exec_semWait_waits (h : s.blk.runs c 0x08 x)
    (hr : s.blk.semRef x.j c (x.cmd.f 1 15 0) = some (.globalSem i)) (hy : kget s.blk.sems i = some y) (hh : y.holder = none)
    (hw : y.waiters ≠ [] ∨ y.count < x.cmd.f 2 23 0) (ha : x.cmd.b 3 0 = false) (hp : (s.blk.cl c).preempt = false) :
    ∃ t : State, exec (.semWait c) s = .next t ∧ t.pending = s.pending ∧
      kget t.blk.sems i = some { y with waiters := y.waiters ++ [x.waiter] } ∧
      t.blk.cl c = { (s.blk.cl c).past ((s.blk.cl c).pos + 1) with state := .waiting } ∧
      { t.blk with clusters := s.blk.clusters, sems := s.blk.sems } = s.blk := by
  obtain ⟨b, hb⟩ : ∃ b, b = s.blk.setCl c ((s.blk.cl c).past ((s.blk.cl c).pos + 1)) := ⟨_, rfl⟩
  have hi : s.blk.issuedNext c = b := by rw [hb, Block.issuedNext, Block.issued_eq _ h.state h.stepOver]
  have hrb : b.semRef x.j c (x.cmd.f 1 15 0) = some (.globalSem i) := by rw [hb, Block.semRef_past, hr]
  have hsb : b.sems = s.blk.sems := by rw [hb]; rfl
  have hyb : b.sem (.globalSem i) = some y := by rw [Block.sem, hsb, hy]
  have hcb : b.cl c = (s.blk.cl c).past ((s.blk.cl c).pos + 1) := by rw [hb, Block.cl_setCl_same]
  have hno : ¬ (y.waiters.isEmpty = true ∧ x.cmd.f 2 23 0 ≤ y.count) := by
    rintro ⟨he, hn⟩
    obtain hw | hw := hw
    · exact hw (List.isEmpty_iff.mp he)
    · omega
  obtain ⟨d, hd⟩ : ∃ d, d = (b.modSem (.globalSem i) fun y => { y with waiters := y.waiters ++ [x.waiter] }).modCl c
      fun k => { k with state := .waiting } := ⟨_, rfl⟩
  have hdc : d.cl c = { b.cl c with state := .waiting } := by
    rw [hd, Block.cl_modCl_same, Block.cl_congr (Block.modSem_global_clusters ..)]
  have he : ctlSemWait x s.blk = d := by
    simp only [ctlSemWait, h.1.cluster, hi, Block.semWaitNow, hrb, hyb, if_neg hno, ha, Block.inheritFor, hh]
    have hf : d.forceIfAsked x.j c = d := by
      have hpd : (d.cl c).preempt = false := by rw [hdc, hcb]; exact hp
      rw [Block.forceIfAsked, hpd]
      rfl
    rw [← hf, hd]
    simp [Issue.waiter, h.1.cluster]
  refine ⟨_, exec_control (f := effSemWait c) h rfl he (by simp [hd, hb]), rfl, ?_, ?_, ?_⟩
  · have hsd : d.sems = (b.modSem (.globalSem i) fun y => { y with waiters := y.waiters ++ [x.waiter] }).sems := by
      rw [hd]
      rfl
    dsimp only
    rw [hsd, Block.kget_modSem_same _ (hsb ▸ hy)]
  · dsimp only
    rw [hdc, hcb]
  · simp [hd, hb, Block.modCl, Block.setCl, Block.modSem]

/-! ### Signals -/

theorem exec_semSignal (h : s.blk.runs c 0x09 x)
    (hr : s.blk.semRef x.j c (x.cmd.f 1 15 0) = some (.globalSem i)) (hy : kget s.blk.sems i = some y)
    (hn : y.count + x.cmd.f 2 23 0 ≤ 0xFFFFFF) (hh : x.cmd.b 3 4 = false) (ha : x.cmd.b 3 0 = false) :
    ∃ t : State, exec (.semSignal c) s = .next t ∧ t.pending = s.pending ∧
      kget t.blk.sems i = some { y with count := y.count + x.cmd.f 2 23 0 } ∧
      (∀ k, k ≠ i → kget t.blk.sems k = kget s.blk.sems k) ∧ t.blk.cl c = (s.blk.cl c).past ((s.blk.cl c).pos + 1) := by
  have hop : x.cmd.op = 0x09 := by
    obtain ⟨⟨-, -, -, -, hop, -⟩, -⟩ := h
    exact hop
  obtain ⟨b, hb⟩ : ∃ b, b = (s.blk.modSem (.globalSem i) fun y => { y with count := y.count + x.cmd.f 2 23 0 }).ledGrow
      (s.blk.semLedger (.globalSem i)) (x.cmd.f 2 23 0) := ⟨_, rfl⟩
  have hcb : b.cl c = s.blk.cl c := by
    rw [hb, Block.cl_congr (Block.ledGrow_clusters ..), Block.cl_congr (Block.modSem_global_clusters ..)]
  have hadd : s.blk.semAdd (.globalSem i) (x.cmd.f 2 23 0) = some b := by
    simp only [Block.semAdd, Block.sem, hy, if_neg (Nat.not_lt.mpr hn), hb]
  have he : ctlSync x s.blk = b.setCl c ((s.blk.cl c).past ((s.blk.cl c).pos + 1)) := by
    have hs : s.blk.syncNow x 24 = (OK, b) := by
      have hsem : s.blk.sem (.globalSem i) = some y := by rw [Block.sem, hy]
      simp [Block.syncNow, releaseScope, acquireScope, hop, ha, hh, Block.semSignalNow, h.1.cluster, hr, hsem, hadd]
    simp only [ctlSync, hs, if_true, h.1.cluster, Block.issuedNext]
    rw [Block.issued_eq _ (by rw [hcb, h.state]) (by rw [hcb, h.stepOver]), hcb]
  have hsb : b.sems = kmod s.blk.sems i fun y => { y with count := y.count + x.cmd.f 2 23 0 } := by
    rw [hb, Block.ledGrow_sems, Block.sems_modSem_global]
  refine ⟨_, exec_control (f := effSemSignal c) h rfl he (by simp [hb]), rfl, ?_, fun k hk => ?_, Block.cl_setCl_same ..⟩
  · show kget b.sems i = _
    rw [hsb, kget_kmod, if_pos rfl, hy]
    rfl
  · show kget b.sems k = _
    rw [hsb, kget_kmod, if_neg hk]

/-! ### Fences -/

/-- No fill is on its way where no line waits for one. -/
theorem Block.droppedFills_none {b : Block} (h : ∀ l, l ∈ (b.cl c).lines → l.filler = none) : b.droppedFills c = (0, b) := by
  unfold Block.droppedFills
  generalize (b.cl c).lines = l at h
  induction l with
  | nil => rfl
  | cons a l ih =>
    rw [List.foldl_cons, h a (List.mem_cons_self ..)]
    exact ih fun z hz => h z (List.mem_cons_of_mem _ hz)

/-- An acquire of a queue that has read no flag, from chip scope up, empties the cluster's read cache. -/
theorem Block.acquire_fresh {b : Block} {q scope : Nat} (hs : 1 ≤ scope) (hl : (b.cl c).learnt = [])
    (hf : ∀ l, l ∈ (b.cl c).lines → l.filler = none) :
    b.acquire c q scope = ((b.setCl c (b.cl c)).setCl c { b.cl c with lines := [] }).bump (CRC_INVALS c) := by
  have hbind : b.bindAccs c [q] (tget [] (b.cl c).learnt q) = b := by
    rw [hl]
    rfl
  have hmod : (b.modCl c fun k => { k with learnt := tset [] k.learnt q [] }) = b.setCl c (b.cl c) := by
    have hk : ∀ k : Cluster, k.learnt = [] → { k with learnt := tset [] k.learnt q [] } = k := by
      rintro k hk
      cases k
      cases hk
      rfl
    rw [Block.modCl, hk _ hl]
  have hdrop : (b.setCl c (b.cl c)).droppedFills c = (0, b.setCl c (b.cl c)) :=
    Block.droppedFills_none (by rwa [Block.cl_setCl_same])
  simp only [Block.acquire, hbind, hmod, if_pos hs, Block.crcInvalidate, hdrop, if_true]
  rw [Block.modCl, Block.cl_setCl_same]

theorem exec_fence (h : s.blk.runs c 0x0A x) (hk : x.cmd.f 1 1 0 = 2) (hs : 1 ≤ x.cmd.f 1 3 2)
    (hl : (s.blk.cl c).learnt = []) (hf : ∀ l, l ∈ (s.blk.cl c).lines → l.filler = none) :
    ∃ t : State, exec (.fence c) s = .next t ∧ t.pending = s.pending ∧
      t.blk.cl c = { (s.blk.cl c).past ((s.blk.cl c).pos + 1) with lines := [] } ∧
      (t.blk.rg (CRC_INVALS c)).toNat = min 0xFFFFFFFF ((s.blk.rg (CRC_INVALS c)).toNat + 1) ∧
      { t.blk with clusters := s.blk.clusters, regs := s.blk.regs } = s.blk := by
  have hop : x.cmd.op = 0x0A := by
    obtain ⟨⟨-, -, -, -, hop, -⟩, -⟩ := h
    exact hop
  obtain ⟨d, hd⟩ : ∃ d, d = (s.blk.setCl c (s.blk.cl c)).setCl c { s.blk.cl c with lines := [] } := ⟨_, rfl⟩
  obtain ⟨b, hb⟩ : ∃ b, b = d.bump (CRC_INVALS c) := ⟨_, rfl⟩
  have hcb : b.cl c = { s.blk.cl c with lines := [] } := by
    rw [hb, Block.cl_congr (Block.bump_clusters ..), hd, Block.cl_setCl_same]
  have he : ctlSync x s.blk = b.setCl c ((b.cl c).past ((b.cl c).pos + 1)) := by
    have hsync : s.blk.syncNow x 24 = (OK, b) := by
      have ha := Block.acquire_fresh (q := 24) hs hl hf
      rw [← hd, ← hb] at ha
      simp [Block.syncNow, releaseScope, acquireScope, hop, hk, h.1.cluster, ha]
    simp only [ctlSync, hsync, if_true, h.1.cluster, Block.issuedNext]
    exact Block.issued_eq _ (by rw [hcb]; exact h.state) (by rw [hcb]; exact h.stepOver)
  refine ⟨_, exec_control (f := effFence c) h rfl he (by simp [hb, hd]), rfl, ?_, ?_, ?_⟩
  · dsimp only
    rw [Block.cl_setCl_same, hcb]
    rfl
  · have hr : ∀ k a, (b.setCl c k).rg a = b.rg a := fun _ _ => rfl
    have hrd : ∀ a, d.rg a = s.blk.rg a := fun a => by rw [hd]; rfl
    dsimp only
    rw [hr, hb, Block.rg_bump_same, hrd]
  · simp [hb, hd, Block.setCl]

/-! ### Grants -/

theorem exec_semWaitGrant {j : Nat} {w : Waiter} {l : List Waiter} (hy : kget s.blk.sems i = some y) (hw : y.waiters = w :: l)
    (hn : w.amount ≤ y.count) (hq : w.queue = 24) (hh : w.hold = false) (ha : w.acquire = none)
    (hj : (s.blk.cl w.cluster).job = some j) (hs : (s.blk.cl w.cluster).state = .waiting) :
    ∃ t : State, exec (.semWaitGrant (.globalSem i)) s = .next t ∧ t.pending = s.pending ∧
      kget t.blk.sems i = some { y with waiters := l, count := y.count - w.amount } ∧
      t.blk.cl w.cluster = { s.blk.cl w.cluster with state := .issuing } ∧
      (∀ k, k ≠ w.cluster → t.blk.cl k = s.blk.cl k) := by
  obtain ⟨b, hb⟩ : ∃ b, b = s.blk.modSem (.globalSem i) fun y => { y with waiters := y.waiters.drop 1 } := ⟨_, rfl⟩
  have hyb : kget b.sems i = some { y with waiters := l } := by
    rw [hb, Block.kget_modSem_same _ hy, hw]
    rfl
  obtain ⟨d, hd⟩ : ∃ d, d = b.semTake (.globalSem i) j w.amount false := ⟨_, rfl⟩
  have hcd : d.clusters = s.blk.clusters := by
    rw [hd, Block.semTake_global, Block.ledShrink_clusters, Block.modSem_global_clusters, hb, Block.modSem_global_clusters]
  have he : effSemWaitGrant (.globalSem i) s.blk = d.wake w := by
    have hg : s.blk.grantable (.globalSem i) = some (y, w, j) := by
      simp [Block.grantable, Block.sem, hy, hw, hn, Block.waiterJob, hj]
    simp only [effSemWaitGrant, hg, hh, ha, ← hb, ← hd]
  have hl : d.sameLasting s.blk := by simp [hd, hb, Block.semTake_global]
  have hwake : d.wake w = d.setCl w.cluster { s.blk.cl w.cluster with state := .issuing } := by
    simp [Block.wake, Block.modCl, hq, Block.cl_congr hcd, hs]
  rw [hwake] at he
  refine ⟨_, onBlk_next_of_eq (f := effSemWaitGrant _) he (by simp [hl.1]) (by simp [hl.2]), rfl, ?_, Block.cl_setCl_same ..,
    fun k hk => ?_⟩
  · show kget d.sems i = _
    rw [hd, Block.semTake_global, Block.ledShrink_sems, Block.kget_modSem_same _ hyb]
  · exact (Block.cl_setCl_other _ _ hk).trans (Block.cl_congr hcd k)

end

/-- Settles O12: each wait, signal and fence of a core that issues, and each grant, by what it does to its GLOBAL semaphore and
to the cluster's read cache. -/
theorem semaphoresAndFences : Obligations.SemaphoresAndFences := by
  refine ⟨?granted, ?waits, ?signal, ?fence, ?grant⟩
  case granted =>
    intro s c i x y h hr hy hw hn hh ha
    exact exec_semWait_granted h hr hy hw hn hh ha
  case waits =>
    intro s c i x y h hr hy hh hw ha hp
    have ht := exec_semWait_waits h hr hy hh hw ha hp
    rwa [Issue.waiter, h.1.cluster] at ht
  case signal =>
    intro s c i x y h hr hy hn hh ha
    exact exec_semSignal h hr hy hn hh ha
  case fence =>
    intro s c x h hk hs hl hf
    exact exec_fence h hk hs hl hf
  case grant =>
    intro s i j y w l hy hw hn hq hh ha hj hs
    exact exec_semWaitGrant hy hw hn hq hh ha hj hs

end Sys2Proof.Machine
end

section
/-! What engine work touches: fuses and permanent records stay through every engine, and no engine changes the entries of
its cluster's queues (R177, R482, R502). -/

namespace Sys2Proof.Machine

@[simp] theorem Block.clusters_ite (c : Prop) [Decidable c] (a b : Block) :
    (if c then a else b).clusters = if c then a.clusters else b.clusters := apply_ite ..

@[simp] theorem Block.each_clusters {α : Type} (s : Block) (l : List α) (f : Block → α → Block)
    (h : ∀ s x, (f s x).clusters = s.clusters) : (s.each l f).clusters = s.clusters :=
  Block.each_keeps Block.clusters s l f fun s x _ => h s x

@[simp] theorem loop_clusters (n : Nat) (f : Nat → Block → Block) (s : Block) (h : ∀ i s, (f i s).clusters = s.clusters) :
    (loop n f s).clusters = s.clusters :=
  loop_keeps Block.clusters f h n s

/-! ### The entries of a cluster's queues -/

@[simp] theorem Cluster.queues_ite (c : Prop) [Decidable c] (a b : Cluster) :
    (if c then a else b).queues = if c then a.queues else b.queues := apply_ite ..

@[simp] theorem queues_of_ite (c : Prop) [Decidable c] (a b : Tbl Cluster) (i : Nat) :
    (tget Cluster.reset (if c then a else b) i).queues =
      if c then (tget Cluster.reset a i).queues else (tget Cluster.reset b i).queues :=
  apply_ite (fun t => (tget Cluster.reset t i).queues) ..

@[simp] theorem Cluster.useLine_queues (k : Cluster) (x : CrcLine) : (k.useLine x).queues = k.queues := rfl

@[simp] theorem Cluster.seeUnit_queues (k : Cluster) (q p slot u : Nat) : (k.seeUnit q p slot u).queues = k.queues := rfl

@[simp] theorem Cluster.learn_queues (k : Cluster) (q : Nat) (o : Option (Nat × Nat)) (off n : Nat) (all : Bool) :
    (k.learn q o off n all).queues = k.queues := by
  simp [Cluster.learn]

@[simp] theorem Cluster.addFlag_queues (k : Cluster) (q : Nat) (o : Option (Nat × Nat)) (off n acc : Nat) :
    (k.addFlag q o off n acc).queues = k.queues := rfl

@[simp] theorem Block.modCl_queues (s : Block) (c : Nat) (f : Cluster → Cluster) (d : Nat)
    (h : ∀ k, (f k).queues = k.queues) :
    (tget Cluster.reset (s.modCl c f).clusters d).queues = (tget Cluster.reset s.clusters d).queues := by
  by_cases hd : d = c
  · subst hd
    exact (congrArg Cluster.queues (tget_tset_same ..)).trans (h _)
  · exact congrArg Cluster.queues (tget_tset_other _ _ _ _ hd)

@[simp] theorem Block.each_queues {α : Type} (s : Block) (l : List α) (f : Block → α → Block) (d : Nat)
    (h : ∀ s x, (tget Cluster.reset (f s x).clusters d).queues = (tget Cluster.reset s.clusters d).queues) :
    (tget Cluster.reset (s.each l f).clusters d).queues = (tget Cluster.reset s.clusters d).queues :=
  Block.each_keeps (fun b : Block => (tget Cluster.reset b.clusters d).queues) s l f fun s x _ => h s x

/-- What each turn of a fold keeps, the fold keeps. -/
theorem foldl_keeps {α β γ : Type} (g : β → γ) (f : β → α → β) (h : ∀ a x, g (f a x) = g a) (l : List α) (a : β) :
    g (l.foldl f a) = g a := by
  induction l generalizing a with
  | nil => rfl
  | cons x l ih => exact (ih _).trans (h a x)

@[simp] theorem loop_queues (n : Nat) (f : Nat → Block → Block) (s : Block) (d : Nat)
    (h : ∀ i s, (tget Cluster.reset (f i s).clusters d).queues = (tget Cluster.reset s.clusters d).queues) :
    (tget Cluster.reset (loop n f s).clusters d).queues = (tget Cluster.reset s.clusters d).queues :=
  loop_keeps (fun b : Block => (tget Cluster.reset b.clusters d).queues) f h n s

/-! ### Operations -/

@[simp] theorem Block.consumed_clusters (s : Block) (point unit : Nat) (h : Word) (off : Nat) :
    (s.consumed point unit h off).clusters = s.clusters := by
  simp [Block.consumed]

@[simp] theorem Block.choose_clusters (s : Block) (n : Nat) : (s.choose n).2.clusters = s.clusters := by
  simp [Block.choose]

@[simp] theorem Block.floeWaits_lasting (s : Block) (t : Nat) : (s.floeWaits t).sameLasting s := by
  simp [Block.floeWaits]

@[simp] theorem Block.floeWaits_clusters (s : Block) (t : Nat) : (s.floeWaits t).clusters = s.clusters := by
  simp [Block.floeWaits]

@[simp] theorem Block.modTile_clusters (s : Block) (t : Nat) (f : Tile → Tile) :
    (s.modTile t f).clusters = s.clusters := by
  simp [Block.modTile]

@[simp] theorem Block.modArr_lasting (s : Block) (t : Nat) (f : MatArray → MatArray) : (s.modArr t f).sameLasting s := by
  simp [Block.modArr]

@[simp] theorem Block.modArr_clusters (s : Block) (t : Nat) (f : MatArray → MatArray) :
    (s.modArr t f).clusters = s.clusters := by
  simp [Block.modArr]

@[simp] theorem Block.tmWrite_clusters (s : Block) (t a : Nat) (bs : List Byte) (ps : List Bool) :
    (s.tmWrite t a bs ps).clusters = s.clusters := by
  simp [Block.tmWrite]

@[simp] theorem Block.drainOut_lasting (s : Block) (t : Nat) (p : Product) (x : Pass) (r c : Nat) (a : Acc) :
    (s.drainOut t p x r c a).sameLasting s := by
  simp [Block.drainOut]

@[simp] theorem Block.drainOut_clusters (s : Block) (t : Nat) (p : Product) (x : Pass) (r c : Nat) (a : Acc) :
    (s.drainOut t p x r c a).clusters = s.clusters := by
  simp [Block.drainOut]

@[simp] theorem Block.drain_lasting (s : Block) (t : Nat) (write : Bool) (h i : Nat) (p : Product) (x : Pass) :
    (s.drain t write h i p x).sameLasting s := by
  simp [Block.drain]

@[simp] theorem Block.drain_clusters (s : Block) (t : Nat) (write : Bool) (h i : Nat) (p : Product) (x : Pass) :
    (s.drain t write h i p x).clusters = s.clusters := by
  simp [Block.drain]

@[simp] theorem Block.passOf_lasting (s : Block) (t : Nat) (write : Bool) (r : ProductRun) (e : Nat × Product × Pass) :
    (s.passOf t write r e).sameLasting s := by
  simp [Block.passOf]

@[simp] theorem Block.passOf_clusters (s : Block) (t : Nat) (write : Bool) (r : ProductRun) (e : Nat × Product × Pass) :
    (s.passOf t write r e).clusters = s.clusters := by
  simp [Block.passOf]

@[simp] theorem Block.runPass_lasting (s : Block) (t : Nat) (write : Bool) : (s.runPass t write).sameLasting s := by
  unfold Block.runPass
  split <;> simp

@[simp] theorem Block.runPass_clusters (s : Block) (t : Nat) (write : Bool) :
    (s.runPass t write).clusters = s.clusters := by
  unfold Block.runPass
  split <;> simp

@[simp] theorem Block.runPasses_lasting (t n w : Nat) (s : Block) : (Block.runPasses t n w s).sameLasting s := by
  induction n generalizing w s with
  | zero => exact ⟨rfl, rfl⟩
  | succ n ih =>
    unfold Block.runPasses
    split
    · exact ⟨rfl, rfl⟩
    · split
      · exact ⟨rfl, rfl⟩
      · simp [ih]

@[simp] theorem Block.runPasses_clusters (t n w : Nat) (s : Block) : (Block.runPasses t n w s).clusters = s.clusters := by
  induction n generalizing w s with
  | zero => rfl
  | succ n ih =>
    unfold Block.runPasses
    split
    · rfl
    · split
      · rfl
      · simp [ih]

@[simp] theorem Block.beginRun_lasting (s : Block) (t : Nat) (r : ProductRun) : (s.beginRun t r).sameLasting s := by
  simp [Block.beginRun]

@[simp] theorem Block.beginRun_clusters (s : Block) (t : Nat) (r : ProductRun) : (s.beginRun t r).clusters = s.clusters := by
  simp [Block.beginRun]

@[simp] theorem Block.startRun_lasting (s : Block) (t shape : Nat) (r : ProductRun) :
    (s.startRun t shape r).sameLasting s := by
  simp [Block.startRun]

@[simp] theorem Block.startRun_clusters (s : Block) (t shape : Nat) (r : ProductRun) :
    (s.startRun t shape r).clusters = s.clusters := by
  simp [Block.startRun]

@[simp] theorem engMatmul_lasting (x : EngCtx) (s : Block) : (engMatmul x s).2.sameLasting s := by
  simp [engMatmul, apply_ite Prod.snd]

@[simp] theorem engMatmul_clusters (x : EngCtx) (s : Block) : (engMatmul x s).2.clusters = s.clusters := by
  simp [engMatmul, apply_ite Prod.snd]

@[simp] theorem engMatmulPacked_lasting (x : EngCtx) (s : Block) : (engMatmulPacked x s).2.sameLasting s := by
  simp [engMatmulPacked, apply_ite Prod.snd]

@[simp] theorem engMatmulPacked_clusters (x : EngCtx) (s : Block) : (engMatmulPacked x s).2.clusters = s.clusters := by
  simp [engMatmulPacked, apply_ite Prod.snd]

@[simp] theorem Block.vectorPoison_lasting (s : Block) (t : Nat) : (s.vectorPoison t).2.sameLasting s := by
  simp [Block.vectorPoison]

@[simp] theorem Block.vectorPoison_clusters (s : Block) (t : Nat) : (s.vectorPoison t).2.clusters = s.clusters := by
  simp [Block.vectorPoison]

@[simp] theorem Block.misaligned_lasting (s : Block) (t : Nat) (l : List Nat) : (s.misaligned t l).sameLasting s := by
  simp [Block.misaligned]

@[simp] theorem Block.misaligned_clusters (s : Block) (t : Nat) (l : List Nat) :
    (s.misaligned t l).clusters = s.clusters := by
  simp [Block.misaligned]

@[simp] theorem engVec_lasting (x : EngCtx) (s : Block) : (engVec x s).2.sameLasting s := by
  simp [engVec, apply_ite Prod.snd]

@[simp] theorem engVec_clusters (x : EngCtx) (s : Block) : (engVec x s).2.clusters = s.clusters := by
  simp [engVec, apply_ite Prod.snd]

@[simp] theorem engVred_lasting (x : EngCtx) (s : Block) : (engVred x s).2.sameLasting s := by
  simp [engVred, apply_ite Prod.snd]

@[simp] theorem engVred_clusters (x : EngCtx) (s : Block) : (engVred x s).2.clusters = s.clusters := by
  simp [engVred, apply_ite Prod.snd]

@[simp] theorem Block.stackTraffic_clusters (s : Block) (n k : Nat) (wr narrow : Bool) :
    (s.stackTraffic n k wr narrow).clusters = s.clusters := by
  simp [Block.stackTraffic]

@[simp] theorem Block.setSnow_clusters (s : Block) (p : Nat) (w : Snow) : (s.setSnow p w).clusters = s.clusters := by
  simp [Block.setSnow]

@[simp] theorem Block.locTraffic_clusters (s : Block) (p : Nat) (l : PageLoc) (k : Nat) (wr narrow : Bool) :
    (s.locTraffic p l k wr narrow).clusters = s.clusters := by
  unfold Block.locTraffic
  split <;> simp

@[simp] theorem Block.setObjects_clusters (s : Block) (p : Nat) (o : Objects) :
    (s.setObjects p o).clusters = s.clusters := by
  simp [Block.setObjects]

@[simp] theorem Block.modObj_clusters (s : Block) (p slot : Nat) (f : Obj → Obj) :
    (s.modObj p slot f).clusters = s.clusters := by
  simp [Block.modObj]

@[simp] theorem Block.markSectors_clusters (s : Block) (p : Nat) (h : Word) (l : List Nat) :
    (s.markSectors p h l).clusters = s.clusters := by
  simp [Block.markSectors]

@[simp] theorem Block.markStored_clusters (s : Block) (p : Nat) (h : Word) (x : Nat) :
    (s.markStored p h x).clusters = s.clusters := by
  simp [Block.markStored]

@[simp] theorem Block.meetErrors_clusters (s : Block) (n p : Nat) (h : Word) (hit : Nat → Bool) :
    (s.meetErrors n p h hit).clusters = s.clusters := by
  simp [Block.meetErrors]

@[simp] theorem Block.viewTraffic_clusters (s : Block) (p off n : Nat) (wr narrow : Bool) :
    (s.viewTraffic p off n wr narrow).clusters = s.clusters := by
  unfold Block.viewTraffic
  refine Block.each_clusters _ _ _ fun s pid => ?_
  dsimp only
  split
  · split <;> simp
  · simp

@[simp] theorem Block.errsGone_clusters (s : Block) (f : CacheErr → Bool) : (s.errsGone f).clusters = s.clusters := by
  simp [Block.errsGone]

@[simp] theorem Block.crcErrors_queues (s : Block) (c p : Nat) (h : Word) (off n : Nat) (i : Nat) :
    (tget Cluster.reset (s.crcErrors c p h off n).clusters i).queues = (tget Cluster.reset s.clusters i).queues := by
  unfold Block.crcErrors
  dsimp only
  split
  · rfl
  · rw [Block.modCl_queues]
    · simp
    · intro k
      rfl

@[simp] theorem Block.performFirst_clusters (s : Block) (c p slot : Nat) (w : PendWrite) :
    (s.performFirst c p slot w).clusters = s.clusters := by
  unfold Block.performFirst
  split <;> simp

@[simp] theorem Block.performOut_queues (s : Block) (c : Nat) (f : PendWrite → Bool) (i : Nat) :
    (tget Cluster.reset (s.performOut c f).clusters i).queues = (tget Cluster.reset s.clusters i).queues := by
  simp [Block.performOut]

@[simp] theorem Block.objMiss_queues (s : Block) (m : Mover) (o : Obj) (off n : Nat) (i : Nat) :
    (tget Cluster.reset (s.objMiss m o off n).2.clusters i).queues = (tget Cluster.reset s.clusters i).queues := by
  unfold Block.objMiss
  extract_lets u copy mine late fwd s1 s2
  have hf : ∀ s f, (fwd s f).clusters = s.clusters := fun s f => by simp [fwd]
  clear_value fwd
  split
  next b s3 h3 =>
  have e3 : s3.clusters = s2.clusters := by
    have h := s2.choose_clusters 2
    rwa [h3] at h
  dsimp only
  split
  · dsimp only
    rw [Block.modCl_queues]
    · simp [hf, e3, s2, s1]
    · exact fun k => k.useLine_queues _
  · simp [hf, e3, s2, s1]

@[simp] theorem Block.setMscLines_clusters (s : Block) (k : Nat) (l : List MscLine) :
    (s.setMscLines k l).clusters = s.clusters := by
  simp [Block.setMscLines]

@[simp] theorem Block.lineErrors_clusters (s : Block) (x : MscLine) (a b : Nat) :
    (s.lineErrors x a b).2.clusters = s.clusters := by
  simp [Block.lineErrors, apply_ite Prod.snd]

@[simp] theorem Block.lineOut_clusters (s : Block) (x : MscLine) : (s.lineOut x).clusters = s.clusters := by
  simp [Block.lineOut]

@[simp] theorem Block.mscMiss_clusters (s : Block) (a : MscAccess) (l : List MscLine) :
    (s.mscMiss a l).clusters = s.clusters := by
  unfold Block.mscMiss
  extract_lets d ways s1 s2
  have h : s2.clusters = s.clusters := by simp [s2, s1]
  clear_value s2
  split
  · simp [h]
  · split
    next v _ _ => cases v <;> simp [h]

@[simp] theorem Block.mscHit_clusters (s : Block) (a : MscAccess) (x : MscLine) (rest : List MscLine) :
    (s.mscHit a x rest).clusters = s.clusters := by
  unfold Block.mscHit
  extract_lets s1 uses y kept
  have h : s1.clusters = s.clusters := by simp [s1]
  clear_value s1 uses y kept
  rcases uses with _ | ⟨c, r⟩
  · simpa using h
  · dsimp only
    split <;> simpa using h

@[simp] theorem Block.mscAccess_clusters (s : Block) (a : MscAccess) : (s.mscAccess a).clusters = s.clusters := by
  unfold Block.mscAccess
  extract_lets l s1
  have h : s1.clusters = s.clusters := by simp [s1]
  clear_value s1
  split
  · simpa using h
  · split
    · exact h
    · dsimp only
      (repeat' split) <;> simp [h]

@[simp] theorem Block.copyAccess_clusters (s : Block) (p : Nat) (h : Word) (sector hint : Nat) (wr narrow : Bool) (copy : Nat) :
    (s.copyAccess p h sector hint wr narrow copy).clusters =
      s.clusters := by
  unfold Block.copyAccess
  (repeat' split) <;> simp

@[simp] theorem Block.traffic_clusters (s : Block) (p : Nat) (h : Word) (die off n hint : Nat) (wr narrow : Bool) :
    (s.traffic p h die off n hint wr narrow).clusters = s.clusters := by
  unfold Block.traffic
  split <;> simp

@[simp] theorem Block.objReadUnit_queues (s : Block) (m : Mover) (off n : Nat) (i : Nat) :
    (tget Cluster.reset (s.objReadUnit m off n).2.clusters i).queues = (tget Cluster.reset s.clusters i).queues := by
  unfold Block.objReadUnit
  split
  · rfl
  · dsimp only
    split <;> simp

@[simp] theorem Block.objRead_queues (s : Block) (m : Mover) (off n : Nat) (i : Nat) :
    (tget Cluster.reset (s.objRead m off n).2.clusters i).queues = (tget Cluster.reset s.clusters i).queues := by
  unfold Block.objRead
  exact foldl_keeps (fun b : (List Byte × List Bool) × Block => (tget Cluster.reset b.2.clusters i).queues) _
    (fun a u => by simp) _ _

@[simp] theorem Block.endRead_queues (s : Block) (x : EngCtx) (space : Nat) (h : Word) (off n hint : Nat) (i : Nat) :
    (tget Cluster.reset (s.endRead x space h off n hint).2.clusters i).queues =
      (tget Cluster.reset s.clusters i).queues := by
  unfold Block.endRead
  (repeat' split) <;> simp

@[simp] theorem Block.shmWrite_lasting (s : Block) (c a : Nat) (bs : List Byte) (ps : List Bool) :
    (s.shmWrite c a bs ps).sameLasting s := by
  simp [Block.shmWrite]

@[simp] theorem Block.shmWrite_queues (s : Block) (c a : Nat) (bs : List Byte) (ps : List Bool) (i : Nat) :
    (tget Cluster.reset (s.shmWrite c a bs ps).clusters i).queues = (tget Cluster.reset s.clusters i).queues := by
  simp [Block.shmWrite]

@[simp] theorem Block.modPage_clusters (s : Block) (p pid : Nat) (f : Page → Page) :
    (s.modPage p pid f).clusters = s.clusters := by
  simp [Block.modPage]

@[simp] theorem Block.viewWrite_lasting (s : Block) (p off : Nat) (bs : List Byte) (ps : List Bool) :
    (s.viewWrite p off bs ps).sameLasting s := by
  simp [Block.viewWrite]

@[simp] theorem Block.viewWrite_clusters (s : Block) (p off : Nat) (bs : List Byte) (ps : List Bool) :
    (s.viewWrite p off bs ps).clusters = s.clusters := by
  simp [Block.viewWrite]

@[simp] theorem Block.modLine_lasting (s : Block) (c p : Nat) (h : Word) (u : Nat) (f : Store → Store) :
    (s.modLine c p h u f).sameLasting s := by
  simp [Block.modLine]

@[simp] theorem Block.modLine_queues (s : Block) (c p : Nat) (h : Word) (u : Nat) (f : Store → Store) (i : Nat) :
    (tget Cluster.reset (s.modLine c p h u f).clusters i).queues = (tget Cluster.reset s.clusters i).queues := by
  simp [Block.modLine]

@[simp] theorem Block.crcUpdate_lasting (s : Block) (c p : Nat) (h : Word) (off : Nat) (bs : List Byte) (ps : List Bool) :
    (s.crcUpdate c p h off bs ps).sameLasting s := by
  unfold Block.crcUpdate
  split <;> simp

@[simp] theorem Block.crcUpdate_queues (s : Block) (c p : Nat) (h : Word) (off : Nat) (bs : List Byte) (ps : List Bool) (i : Nat) :
    (tget Cluster.reset (s.crcUpdate c p h off bs ps).clusters i).queues =
      (tget Cluster.reset s.clusters i).queues := by
  unfold Block.crcUpdate
  split <;> simp

@[simp] theorem Block.objWrite_lasting (s : Block) (m : Mover) (off : Nat) (bs : List Byte) (ps : List Bool) :
    (s.objWrite m off bs ps).sameLasting s := by
  simp [Block.objWrite]

@[simp] theorem Block.objWrite_queues (s : Block) (m : Mover) (off : Nat) (bs : List Byte) (ps : List Bool) (i : Nat) :
    (tget Cluster.reset (s.objWrite m off bs ps).clusters i).queues = (tget Cluster.reset s.clusters i).queues := by
  simp [Block.objWrite]

@[simp] theorem Block.endWrite_lasting (s : Block) (x : EngCtx) (space : Nat) (h : Word) (off hint : Nat)
    (bs : List Byte) (ps : List Bool) (loose : Bool) : (s.endWrite x space h off hint bs ps loose).sameLasting s := by
  simp [Block.endWrite]

@[simp] theorem Block.endWrite_queues (s : Block) (x : EngCtx) (space : Nat) (h : Word) (off hint : Nat)
    (bs : List Byte) (ps : List Bool) (loose : Bool) (i : Nat) :
    (tget Cluster.reset (s.endWrite x space h off hint bs ps loose).clusters i).queues =
      (tget Cluster.reset s.clusters i).queues := by
  simp [Block.endWrite]

@[simp] theorem Block.reduceTraffic_lasting (s : Block) (p : Nat) (h : Word) (off n hint : Nat) (narrow : Bool) :
    (s.reduceTraffic p h off n hint narrow).sameLasting s := by
  unfold Block.reduceTraffic
  split <;> simp

@[simp] theorem Block.reduceTraffic_clusters (s : Block) (p : Nat) (h : Word) (off n hint : Nat) (narrow : Bool) :
    (s.reduceTraffic p h off n hint narrow).clusters = s.clusters := by
  unfold Block.reduceTraffic
  split <;> simp

@[simp] theorem Block.settleOwn_lasting (s : Block) (x : EngCtx) (h : Word) (off n : Nat) :
    (s.settleOwn x h off n).sameLasting s := by
  simp [Block.settleOwn]

@[simp] theorem Block.settleOwn_queues (s : Block) (x : EngCtx) (h : Word) (off n : Nat) (i : Nat) :
    (tget Cluster.reset (s.settleOwn x h off n).clusters i).queues = (tget Cluster.reset s.clusters i).queues := by
  simp [Block.settleOwn]

@[simp] theorem Block.performWrite_lasting (s : Block) (p slot off : Nat) (bs : List Byte) (ps : List Bool) :
    (s.performWrite p slot off bs ps).sameLasting s := by
  simp [Block.performWrite]

@[simp] theorem Block.performWrite_clusters (s : Block) (p slot off : Nat) (bs : List Byte) (ps : List Bool) :
    (s.performWrite p slot off bs ps).clusters = s.clusters := by
  simp [Block.performWrite]

@[simp] theorem Block.adder_lasting (s : Block) (p : Nat) (h : Word) (off op ty new : Nat) (mark : Bool) :
    (s.adder p h off op ty new mark).2.sameLasting s := by
  unfold Block.adder
  split <;> simp

@[simp] theorem Block.adder_clusters (s : Block) (p : Nat) (h : Word) (off op ty new : Nat) (mark : Bool) :
    (s.adder p h off op ty new mark).2.clusters = s.clusters := by
  unfold Block.adder
  split <;> simp

@[simp] theorem Block.reduce_lasting (s : Block) (p : Nat) (h : Word) (off op ty : Nat) (bs : List Byte) (mark : Nat → Bool) :
    (s.reduce p h off op ty bs mark).sameLasting s := by
  simp [Block.reduce]

@[simp] theorem Block.reduce_clusters (s : Block) (p : Nat) (h : Word) (off op ty : Nat) (bs : List Byte) (mark : Nat → Bool) :
    (s.reduce p h off op ty bs mark).clusters =
      s.clusters := by
  simp [Block.reduce]

@[simp] theorem Block.crcRefresh_lasting (s : Block) (c p : Nat) (h : Word) (off n : Nat) :
    (s.crcRefresh c p h off n).sameLasting s := by
  unfold Block.crcRefresh
  split <;> simp

@[simp] theorem Block.crcRefresh_queues (s : Block) (c p : Nat) (h : Word) (off n : Nat) (i : Nat) :
    (tget Cluster.reset (s.crcRefresh c p h off n).clusters i).queues = (tget Cluster.reset s.clusters i).queues := by
  unfold Block.crcRefresh
  split <;> simp

@[simp] theorem Block.reduceFrom_lasting (s : Block) (x : EngCtx) (h : Word) (off op ty hint : Nat) (narrow : Bool) (bs : List Byte) (mark : Nat → Bool) :
    (s.reduceFrom x h off op ty hint narrow bs mark).sameLasting s := by
  simp [Block.reduceFrom]

@[simp] theorem Block.reduceFrom_queues (s : Block) (x : EngCtx) (h : Word) (off op ty hint : Nat) (narrow : Bool) (bs : List Byte) (mark : Nat → Bool) (i : Nat) :
    (tget Cluster.reset (s.reduceFrom x h off op ty hint narrow bs mark).clusters i).queues =
      (tget Cluster.reset s.clusters i).queues := by
  simp [Block.reduceFrom]

/-! ### Engines

The two frames, said of what an engine answers. -/

/-- What an engine answers holds the trust state and the permanent records of a block. -/
def Eng.lasts (s : Block) (e : Eng) : Prop := e.2.sameLasting s

/-- What an engine answers holds the queues of a cluster of a block. -/
def Eng.queued (s : Block) (i : Nat) (e : Eng) : Prop :=
  (tget Cluster.reset e.2.clusters i).queues = (tget Cluster.reset s.clusters i).queues

theorem stopIf_lasts {st : Option Nat} {b s : Block} {k : Block → Eng} (h0 : Eng.lasts b (OK, s)) (h : Eng.lasts b (k s)) :
    Eng.lasts b (stopIf st s k) := by
  cases st with
  | none => exact h
  | some x => exact h0

theorem stopIf_queued {st : Option Nat} {b s : Block} {k : Block → Eng} {i : Nat} (h0 : Eng.queued b i (OK, s))
    (h : Eng.queued b i (k s)) : Eng.queued b i (stopIf st s k) := by
  cases st with
  | none => exact h
  | some x => exact h0

theorem engCopy_lasts (x : EngCtx) (s : Block) : Eng.lasts s (engCopy x s) := by
  unfold engCopy
  dsimp only
  split
  · exact ⟨rfl, rfl⟩
  · iterate 3 refine stopIf_lasts ⟨rfl, rfl⟩ ?_
    unfold Eng.lasts
    split <;> simp

@[simp] theorem engCopy_lasting (x : EngCtx) (s : Block) :
    (engCopy x s).2.sameLasting s :=
  engCopy_lasts x s

theorem engCopy_queued (x : EngCtx) (s : Block) (i : Nat) : Eng.queued s i (engCopy x s) := by
  unfold engCopy
  dsimp only
  split
  · exact rfl
  · iterate 3 refine stopIf_queued rfl ?_
    unfold Eng.queued
    split <;> simp

@[simp] theorem engCopy_queues (x : EngCtx) (s : Block) (i : Nat) :
    (tget Cluster.reset (engCopy x s).2.clusters i).queues = (tget Cluster.reset s.clusters i).queues :=
  engCopy_queued x s i

theorem engCopyStrided_lasts (x : EngCtx) (s : Block) : Eng.lasts s (engCopyStrided x s) := by
  unfold engCopyStrided
  dsimp only
  iterate 4 refine stopIf_lasts ⟨rfl, rfl⟩ ?_
  unfold Eng.lasts
  simp

@[simp] theorem engCopyStrided_lasting (x : EngCtx) (s : Block) :
    (engCopyStrided x s).2.sameLasting s :=
  engCopyStrided_lasts x s

theorem engCopyStrided_queued (x : EngCtx) (s : Block) (i : Nat) : Eng.queued s i (engCopyStrided x s) := by
  unfold engCopyStrided
  dsimp only
  iterate 4 refine stopIf_queued rfl ?_
  unfold Eng.queued
  simp

@[simp] theorem engCopyStrided_queues (x : EngCtx) (s : Block) (i : Nat) :
    (tget Cluster.reset (engCopyStrided x s).2.clusters i).queues = (tget Cluster.reset s.clusters i).queues :=
  engCopyStrided_queued x s i

@[simp] theorem Block.atomicLine_lasting (s : Block) (x : EngCtx) (h : Word) (off z : Nat) (fetch : Bool) :
    (s.atomicLine x h off z fetch).sameLasting s := by
  simp [Block.atomicLine, apply_ite Prod.snd]

@[simp] theorem Block.atomicLine_queues (s : Block) (x : EngCtx) (h : Word) (off z : Nat) (fetch : Bool) (i : Nat) :
    (tget Cluster.reset (s.atomicLine x h off z fetch).clusters i).queues = (tget Cluster.reset s.clusters i).queues := by
  simp [Block.atomicLine, apply_ite Prod.snd]

theorem engAtomic_lasts (x : EngCtx) (s : Block) : Eng.lasts s (engAtomic x s) := by
  unfold engAtomic
  extract_lets k off ty z fetch res
  iterate 5 refine stopIf_lasts ⟨rfl, rfl⟩ ?_
  generalize (k.n 4 + k.n 5 * 2 ^ 32) % 2 ^ (8 * z) = new
  unfold Eng.lasts
  dsimp only
  split <;> simp

@[simp] theorem engAtomic_lasting (x : EngCtx) (s : Block) :
    (engAtomic x s).2.sameLasting s :=
  engAtomic_lasts x s

theorem engAtomic_queued (x : EngCtx) (s : Block) (i : Nat) : Eng.queued s i (engAtomic x s) := by
  unfold engAtomic
  extract_lets k off ty z fetch res
  iterate 5 refine stopIf_queued rfl ?_
  generalize (k.n 4 + k.n 5 * 2 ^ 32) % 2 ^ (8 * z) = new
  unfold Eng.queued
  dsimp only
  split <;> simp

@[simp] theorem engAtomic_queues (x : EngCtx) (s : Block) (i : Nat) :
    (tget Cluster.reset (engAtomic x s).2.clusters i).queues = (tget Cluster.reset s.clusters i).queues :=
  engAtomic_queued x s i

@[simp] theorem Block.readIndices_lasting (s : Block) (x : EngCtx) : (s.readIndices x).2.sameLasting s := by
  simp [Block.readIndices]

@[simp] theorem Block.readIndices_queues (s : Block) (x : EngCtx) (i : Nat) :
    (tget Cluster.reset (s.readIndices x).2.clusters i).queues = (tget Cluster.reset s.clusters i).queues := by
  simp [Block.readIndices]

@[simp] theorem Block.moveUnits_lasting (s : Block) (x : EngCtx) (hs hd : Word) (d : List Word) (src : Option Nat) (dst u m hint : Nat) :
    (s.moveUnits x hs hd d src dst u m hint).sameLasting s := by
  unfold Block.moveUnits
  split <;> simp

@[simp] theorem Block.moveUnits_queues (s : Block) (x : EngCtx) (hs hd : Word) (d : List Word) (src : Option Nat) (dst u m hint : Nat) (i : Nat) :
    (tget Cluster.reset (s.moveUnits x hs hd d src dst u m hint).clusters i).queues =
      (tget Cluster.reset s.clusters i).queues := by
  unfold Block.moveUnits
  split <;> simp

@[simp] theorem Block.pick_clusters {α : Type} (s : Block) (l : List α) (d : α) :
    (s.pick l d).2.clusters = s.clusters := by
  simp [Block.pick]

theorem Block.pick_some_clusters {α : Type} {s t : Block} {l : List α} {d x : α} (h : s.pick l d = (x, t)) :
    t.clusters = s.clusters := by
  have e : t = (s.pick l d).2 := by rw [h]
  rw [e]
  exact s.pick_clusters l d

@[simp] theorem Block.scatterRow_lasting (s : Block) (x : EngCtx) (d : List Word) (dst : Nat) (js : List Nat) :
    (s.scatterRow x d dst js).sameLasting s := by
  unfold Block.scatterRow
  split <;> simp

@[simp] theorem Block.scatterRow_queues (s : Block) (x : EngCtx) (d : List Word) (dst : Nat) (js : List Nat) (i : Nat) :
    (tget Cluster.reset (s.scatterRow x d dst js).clusters i).queues = (tget Cluster.reset s.clusters i).queues := by
  unfold Block.scatterRow
  split <;> simp

@[simp] theorem Block.shuffle_lasting (s : Block) (l : List Nat) : (s.shuffle l).2.sameLasting s := by
  induction l with
  | nil => exact ⟨rfl, rfl⟩
  | cons a l ih => simpa [Block.shuffle] using ih

@[simp] theorem Block.shuffle_clusters (s : Block) (l : List Nat) : (s.shuffle l).2.clusters = s.clusters := by
  induction l with
  | nil => rfl
  | cons a l ih => simpa [Block.shuffle] using ih

@[simp] theorem Block.scatterAddRow_lasting (s : Block) (x : EngCtx) (d : List Word) (dst j : Nat) :
    (s.scatterAddRow x d dst j).sameLasting s := by
  simp [Block.scatterAddRow]

@[simp] theorem Block.scatterAddRow_queues (s : Block) (x : EngCtx) (d : List Word) (dst j : Nat) (i : Nat) :
    (tget Cluster.reset (s.scatterAddRow x d dst j).clusters i).queues = (tget Cluster.reset s.clusters i).queues := by
  simp [Block.scatterAddRow]

@[simp] theorem Block.startRefetch_lasting (s : Block) (p : Nat) (h : Word) (fr : Nat) :
    (s.startRefetch p h fr).sameLasting s := by
  simp [Block.startRefetch]

@[simp] theorem Block.startRefetch_clusters (s : Block) (p : Nat) (h : Word) (fr : Nat) :
    (s.startRefetch p h fr).clusters = s.clusters := by
  simp [Block.startRefetch]

@[simp] theorem Block.consumedObj_lasting (s : Block) (point unit p : Nat) (h : Word) (off : Nat) :
    (s.consumedObj point unit p h off).2.sameLasting s := by
  unfold Block.consumedObj
  dsimp only
  split
  · split
    · split <;> simp
    · simp
  · simp

@[simp] theorem Block.consumedObj_clusters (s : Block) (point unit p : Nat) (h : Word) (off : Nat) :
    (s.consumedObj point unit p h off).2.clusters = s.clusters := by
  unfold Block.consumedObj
  dsimp only
  split
  · split
    · split <;> simp
    · simp
  · simp

theorem engRows_lasts (x : EngCtx) (s : Block) : Eng.lasts s (engRows x s) := by
  unfold engRows
  extract_lets k
  split
  · exact ⟨rfl, rfl⟩
  · refine stopIf_lasts ⟨rfl, rfl⟩ ?_
    split
    · extract_lets d limit r all s1 ok wrong reach
      have h1 : Eng.lasts s (OK, s1) := by
        unfold Eng.lasts
        simp [s1, r]
      refine stopIf_lasts h1 ?_
      unfold Eng.lasts at h1 ⊢
      dsimp only at h1 ⊢
      clear_value s1
      split
      · split
        · simp [h1.1, h1.2]
        · split <;> simp [h1.1, h1.2]
      · split
        · simp [h1.1, h1.2]
        · split <;> simp [h1.1, h1.2]
    · exact ⟨rfl, rfl⟩

@[simp] theorem engRows_lasting (x : EngCtx) (s : Block) :
    (engRows x s).2.sameLasting s :=
  engRows_lasts x s

theorem engRows_queued (x : EngCtx) (s : Block) (i : Nat) : Eng.queued s i (engRows x s) := by
  unfold engRows
  extract_lets k
  split
  · exact rfl
  · refine stopIf_queued rfl ?_
    split
    · extract_lets d limit r all s1 ok wrong reach
      have h1 : Eng.queued s i (OK, s1) := by
        unfold Eng.queued
        simp [s1, r]
      refine stopIf_queued h1 ?_
      unfold Eng.queued at h1 ⊢
      dsimp only at h1 ⊢
      clear_value s1
      split
      · split
        · simp [h1]
        · split <;> simp [h1]
      · split
        · simp [h1]
        · split <;> simp [h1]
    · exact rfl

@[simp] theorem engRows_queues (x : EngCtx) (s : Block) (i : Nat) :
    (tget Cluster.reset (engRows x s).2.clusters i).queues = (tget Cluster.reset s.clusters i).queues :=
  engRows_queued x s i

@[simp] theorem engRun_lasting (x : EngCtx) (s : Block) : (engRun x s).2.sameLasting s := by
  simp [engRun, apply_ite Prod.snd]

@[simp] theorem engRun_queues (x : EngCtx) (s : Block) (i : Nat) :
    (tget Cluster.reset (engRun x s).2.clusters i).queues = (tget Cluster.reset s.clusters i).queues := by
  simp [engRun, apply_ite Prod.snd]

@[simp] theorem Block.modStackErr_clusters (s : Block) (n : Nat) (f : StackErr → StackErr) :
    (s.modStackErr n f).clusters = s.clusters := by
  simp [Block.modStackErr]

@[simp] theorem Block.moveKvPage_clusters (s : Block) (pn pid : Nat) : (s.moveKvPage pn pid).clusters = s.clusters := by
  unfold Block.moveKvPage
  (repeat' split) <;> simp

@[simp] theorem Block.wakeSet_clusters (s : Block) (u : Nat) : (s.wakeSet u).clusters = s.clusters := by
  simp [Block.wakeSet]

theorem Block.placeFirn_frame_clusters {s b t : Block} {pn : Nat} {p : Part} {slot pc unit k : Nat}
    {u : Nat.below (motive := fun _ => Option Block) k}
    (h : Block.placeFirn._f s pn p slot pc unit (k + 1) ⟨some b, u⟩ = some t) : t.clusters = b.clusters := by
  delta Block.placeFirn._f at h
  conv at h => lhs; whnf
  split at h
  · cases h
  · extract_lets n pages before miss at h
    clear_value n pages before miss
    split at h
    · cases h
      exact Block.modObj_clusters ..
    · split at h
      · cases h
      · split at h
        · cases h
        · split at h
          next hg =>
          cases h
          simpa using Block.pick_some_clusters hg

theorem Block.placeFirn_clusters {s : Block} {pn : Nat} {p : Part} {slot pc unit n : Nat} {t : Block}
    (h : s.placeFirn pn p slot pc unit n = some t) : t.clusters = s.clusters := by
  induction n generalizing t with
  | zero => cases h; rfl
  | succ k ih =>
    obtain ⟨u, e⟩ := s.placeFirn_succ pn p slot pc unit k
    cases hb : s.placeFirn pn p slot pc unit k with
    | none => simp [e, hb] at h
    | some b =>
      rw [e, hb] at h
      exact (Block.placeFirn_frame_clusters h).trans (ih hb)

@[simp] theorem Block.movePiece_clusters (s : Block) (pn slot pc : Nat) : (s.movePiece pn slot pc).clusters = s.clusters := by
  unfold Block.movePiece
  split
  · split
    · rfl
    · extract_lets need units near
      split
      next v t hv =>
      have ht := Block.pick_some_clusters hv
      split
      · exact ht
      · extract_lets bare
        cases hp : bare.placeFirn _ _ slot pc v 4 with
        | none => exact ht
        | some b =>
          have hb := Block.placeFirn_clusters hp
          simp [hb, bare, ht]
  · rfl

@[simp] theorem Block.flushFrame_clusters (s : Block) (p : Nat) (h : Word) (o : Obj) (fr n : Nat) :
    (s.flushFrame p h o fr n).clusters = s.clusters := by
  simp [Block.flushFrame]

@[simp] theorem Block.copyFrame_clusters (s : Block) (p : Nat) (h : Word) (o : Obj) (fr a b : Nat) :
    (s.copyFrame p h o fr a b).clusters = s.clusters := by
  simp [Block.copyFrame]

@[simp] theorem Block.moveFrame_clusters (s : Block) (p : Nat) (h : Word) (fr n : Nat) :
    (s.moveFrame p h fr n).clusters = s.clusters := by
  unfold Block.moveFrame
  (repeat' split) <;> simp

@[simp] theorem Block.moveOut_clusters (s : Block) (n p : Nat) (h : Word) (off : Nat) :
    (s.moveOut n p h off).clusters = s.clusters := by
  unfold Block.moveOut
  (repeat' split) <;> simp

@[simp] theorem Block.retireFrame_clusters (s : Block) (n g p : Nat) : (s.retireFrame n g p).clusters = s.clusters := by
  simp [Block.retireFrame]

@[simp] theorem Block.retireRow_clusters (s : Block) (n core bank row cause : Nat) (obj : Option (Nat × Word × Nat)) :
    (s.retireRow n core bank row cause obj).clusters = s.clusters := by
  unfold Block.retireRow
  split <;> simp

@[simp] theorem Block.rowCorrected_clusters (s : Block) (n core bank row : Nat) (obj : Option (Nat × Word × Nat)) :
    (s.rowCorrected n core bank row obj).clusters = s.clusters := by
  simp [Block.rowCorrected]

@[simp] theorem Block.repairMet_clusters (s : Block) : (s.repairMet).clusters = s.clusters := by
  simp [Block.repairMet]

@[simp] theorem Block.bankWrite_clusters (s : Block) (u : Nat) (b : BankUnit) :
    (s.bankWrite u b).clusters = s.clusters := by
  unfold Block.bankWrite
  split <;> simp

@[simp] theorem Block.setFu_clusters (s : Block) (u : Nat) (x : FirnUnit) : (s.setFu u x).clusters = s.clusters := by
  simp [Block.setFu]

@[simp] theorem Block.modFu_clusters (s : Block) (u : Nat) (f : FirnUnit → FirnUnit) :
    (s.modFu u f).clusters = s.clusters := by
  simp [Block.modFu]

@[simp] theorem Block.firnDrain_clusters (s : Block) (u n : Nat) : (s.firnDrain u n).clusters = s.clusters := by
  simp [Block.firnDrain]

@[simp] theorem Block.firnDrainSome_clusters (s : Block) (u : Nat) : (s.firnDrainSome u).clusters = s.clusters := by
  simp [Block.firnDrainSome]

@[simp] theorem Block.firnSettle_clusters (s : Block) : (s.firnSettle).clusters = s.clusters := by
  simp [Block.firnSettle]

@[simp] theorem Block.forwardLag_lasting (s : Block) (f : CopyLag → Bool) : (s.forwardLag f).sameLasting s := by
  simp [Block.forwardLag]

@[simp] theorem Block.forwardLag_clusters (s : Block) (f : CopyLag → Bool) : (s.forwardLag f).clusters = s.clusters := by
  simp [Block.forwardLag]

@[simp] theorem Block.drainSome_lasting (s : Block) (c : Nat) : (s.drainSome c).sameLasting s := by
  simp [Block.drainSome]

@[simp] theorem Block.drainSome_queues (s : Block) (c : Nat) (i : Nat) :
    (tget Cluster.reset (s.drainSome c).clusters i).queues = (tget Cluster.reset s.clusters i).queues := by
  simp [Block.drainSome]

@[simp] theorem Block.settleSome_lasting (s : Block) (c : Nat) : (s.settleSome c).sameLasting s := by
  simp [Block.settleSome]

@[simp] theorem Block.settleSome_queues (s : Block) (c : Nat) (i : Nat) :
    (tget Cluster.reset (s.settleSome c).clusters i).queues = (tget Cluster.reset s.clusters i).queues := by
  simp [Block.settleSome]

@[simp] theorem Block.endRun_lasting (s : Block) (t : Nat) (r : ProductRun) : (s.endRun t r).sameLasting s := by
  simp [Block.endRun]

@[simp] theorem Block.endRun_clusters (s : Block) (t : Nat) (r : ProductRun) : (s.endRun t r).clusters = s.clusters := by
  simp [Block.endRun]

@[simp] theorem Block.poisonRun_lasting (s : Block) (t done : Nat) : (s.poisonRun t done).sameLasting s := by
  simp [Block.poisonRun]

@[simp] theorem Block.poisonRun_clusters (s : Block) (t done : Nat) : (s.poisonRun t done).clusters = s.clusters := by
  simp [Block.poisonRun]

@[simp] theorem engProductEnd_lasting (x : EngCtx) (s : Block) : (engProductEnd x s).2.sameLasting s := by
  unfold engProductEnd
  dsimp only
  split
  · exact ⟨rfl, rfl⟩
  · split
    · simp
    · split <;> simp

@[simp] theorem engProductEnd_clusters (x : EngCtx) (s : Block) : (engProductEnd x s).2.clusters = s.clusters := by
  unfold engProductEnd
  dsimp only
  split
  · rfl
  · split
    · simp
    · split <;> simp

@[simp] theorem Block.quantWrite_lasting (s : Block) (t : Nat) (q : QuantJob) (fmt : Nat) (esc : Bool) (o : QuantOut) :
    (s.quantWrite t q fmt esc o).sameLasting s := by
  simp [Block.quantWrite, apply_ite Prod.snd]

@[simp] theorem Block.quantWrite_clusters (s : Block) (t : Nat) (q : QuantJob) (fmt : Nat) (esc : Bool) (o : QuantOut) :
    (s.quantWrite t q fmt esc o).clusters = s.clusters := by
  simp [Block.quantWrite, apply_ite Prod.snd]

@[simp] theorem Block.quantEnd_lasting (s : Block) (x : EngCtx) (q : QuantJob) (m : Store) (ctrl : Word) (room : Bool) (srcArea : Nat × Nat) (o : QuantOut) :
    (s.quantEnd x q m ctrl room srcArea o).2.sameLasting s := by
  simp [Block.quantEnd, apply_ite Prod.snd]

@[simp] theorem Block.quantEnd_clusters (s : Block) (x : EngCtx) (q : QuantJob) (m : Store) (ctrl : Word) (room : Bool) (srcArea : Nat × Nat) (o : QuantOut) :
    (s.quantEnd x q m ctrl room srcArea o).2.clusters =
      s.clusters := by
  simp [Block.quantEnd, apply_ite Prod.snd]

@[simp] theorem engQuant_lasting (x : EngCtx) (s : Block) : (engQuant x s).2.sameLasting s := by
  simp [engQuant, apply_ite Prod.snd]

@[simp] theorem engQuant_clusters (x : EngCtx) (s : Block) : (engQuant x s).2.clusters = s.clusters := by
  simp [engQuant, apply_ite Prod.snd]

@[simp] theorem engEnd_lasting (x : EngCtx) (s : Block) : (engEnd x s).2.sameLasting s := by
  simp [engEnd, apply_ite Prod.snd]

@[simp] theorem engEnd_clusters (x : EngCtx) (s : Block) : (engEnd x s).2.clusters = s.clusters := by
  simp [engEnd, apply_ite Prod.snd]

end Sys2Proof.Machine
end

section
/-! Commands that enter an engine's queue, and what starts of them (R175, R177, R195, R196). -/

namespace Sys2Proof.Machine

/-! ### Pushes leave fuses and permanent records -/

@[simp] theorem Block.firnReport_lasting (s : Block) (u : Nat) (e : FirnEntry) (st : Nat) :
    (s.firnReport u e st).sameLasting s := by
  unfold Block.firnReport
  (repeat' split) <;> simp

@[simp] theorem Block.firnPushEntry_lasting (s : Block) (u : Nat) (e : FirnEntry) :
    (s.firnPushEntry u e).sameLasting s := by
  simp [Block.firnPushEntry]

@[simp] theorem Block.pushFrom_lasting (s : Block) (x : Issue) (n i : Nat) : (s.pushFrom x n i).2.sameLasting s := by
  induction n generalizing s i with
  | zero => exact ⟨rfl, rfl⟩
  | succ n ih =>
    unfold Block.pushFrom
    dsimp only
    split
    · exact ⟨rfl, rfl⟩
    · simp [ih]

@[simp] theorem Block.firnWritesFirst_lasting (s : Block) (c q : Nat) : (s.firnWritesFirst c q).sameLasting s := by
  simp [Block.firnWritesFirst]

@[simp] theorem Block.holdNow_lasting (s : Block) (x : Issue) (t : Nat) : (s.holdNow x t).2.sameLasting s := by
  simp [Block.holdNow, apply_ite Prod.snd]

/-! ### Writes on their way leave every register -/

@[simp] theorem Block.regs_ite (c : Prop) [Decidable c] (a b : Block) :
    (if c then a else b).regs = if c then a.regs else b.regs := apply_ite ..

@[simp] theorem Block.each_regs {α : Type} (s : Block) (l : List α) (f : Block → α → Block)
    (h : ∀ s x, (f s x).regs = s.regs) : (s.each l f).regs = s.regs :=
  Block.each_keeps Block.regs s l f fun s x _ => h s x

@[simp] theorem Block.setCl_regs (s : Block) (c : Nat) (k : Cluster) : (s.setCl c k).regs = s.regs := by
  simp [Block.setCl]

@[simp] theorem Block.modCl_regs (s : Block) (c : Nat) (f : Cluster → Cluster) : (s.modCl c f).regs = s.regs := by
  simp [Block.modCl]

@[simp] theorem Block.setObjects_regs (s : Block) (p : Nat) (o : Objects) : (s.setObjects p o).regs = s.regs := by
  simp [Block.setObjects]

@[simp] theorem Block.modObj_regs (s : Block) (p slot : Nat) (f : Obj → Obj) : (s.modObj p slot f).regs = s.regs := by
  simp [Block.modObj]

@[simp] theorem Block.setSnow_regs (s : Block) (p : Nat) (w : Snow) : (s.setSnow p w).regs = s.regs := by
  simp [Block.setSnow]

@[simp] theorem Block.modPage_regs (s : Block) (p pid : Nat) (f : Page → Page) : (s.modPage p pid f).regs = s.regs := by
  simp [Block.modPage]

@[simp] theorem Block.performFirst_regs (s : Block) (c p slot : Nat) (w : PendWrite) :
    (s.performFirst c p slot w).regs = s.regs := by
  unfold Block.performFirst
  split <;> simp

@[simp] theorem Block.performOut_regs (s : Block) (c : Nat) (f : PendWrite → Bool) :
    (s.performOut c f).regs = s.regs := by
  simp [Block.performOut]

@[simp] theorem Block.forwardLag_regs (s : Block) (f : CopyLag → Bool) : (s.forwardLag f).regs = s.regs := by
  simp [Block.forwardLag]

@[simp] theorem Block.drainSome_regs (s : Block) (c : Nat) : (s.drainSome c).regs = s.regs := by
  simp [Block.drainSome]

@[simp] theorem Block.setFu_regs (s : Block) (u : Nat) (x : FirnUnit) : (s.setFu u x).regs = s.regs := by
  simp [Block.setFu]

@[simp] theorem Block.modFu_regs (s : Block) (u : Nat) (f : FirnUnit → FirnUnit) : (s.modFu u f).regs = s.regs := by
  simp [Block.modFu]

@[simp] theorem Block.bankWrite_regs (s : Block) (u : Nat) (b : BankUnit) : (s.bankWrite u b).regs = s.regs := by
  unfold Block.bankWrite
  split <;> simp

@[simp] theorem Block.firnDrain_regs (s : Block) (u n : Nat) : (s.firnDrain u n).regs = s.regs := by
  simp [Block.firnDrain]

@[simp] theorem Block.choose_regs (s : Block) (n : Nat) : (s.choose n).2.regs = s.regs := by
  simp [Block.choose]

@[simp] theorem Block.firnDrainSome_regs (s : Block) (u : Nat) : (s.firnDrainSome u).regs = s.regs := by
  simp [Block.firnDrainSome]

@[simp] theorem Block.firnSettle_regs (s : Block) : (s.firnSettle).regs = s.regs := by
  simp [Block.firnSettle]

@[simp] theorem Block.settleSome_regs (s : Block) (c : Nat) : (s.settleSome c).regs = s.regs := by
  simp [Block.settleSome]

@[simp] theorem Block.goOn_push_lasting (s : Block) (x : Issue) (q done : Nat) (h : x.cmd.op = 0x0C ∨ x.cmd.op = 0x0D) :
    (s.goOn x q done).2.sameLasting s := by
  obtain h | h := h <;> simp [Block.goOn, h]

/-! ### Tables and ledgers -/

theorem kput_kput {α : Type} (t : Tbl α) (i : Nat) (x y : α) : kput (kput t i x) i y = kput t i y := by
  induction t with
  | nil => simp [kput]
  | cons p t ih =>
    obtain ⟨k, v⟩ := p
    by_cases h : i = k
    · simp [kput, h]
    · by_cases hl : i < k
      · simp [kput, h, hl]
      · simp [kput, h, hl, ih]

/-- What is set last in a place stands there. -/
theorem tset_tset {α : Type} [DecidableEq α] (d : α) (t : Tbl α) (i : Nat) {x y : α} (hx : x ≠ d) (hy : y ≠ d) :
    tset d (tset d t i x) i y = tset d t i y := by
  simp only [tset, if_neg hx, if_neg hy, kput_kput]

/-- A ledger set. -/
def Block.setLedger (s : Block) (n : Nat) (l : Ledger) : Block := { s with led := tset (ledgerReset n) s.led n l }

@[simp] theorem Block.ledger_setLedger_same (s : Block) (n : Nat) (l : Ledger) : (s.setLedger n l).ledger n = l :=
  tget_tset_same ..

theorem Block.led1_eq {s : Block} {n : Nat} {m : LedgerMove} {l : Ledger} (h : (s.ledger n).move m = some l) :
    s.led1 n m = s.setLedger n l := by
  unfold Block.led1
  rw [h]
  rfl

/-- A ledger with one amount taken. -/
def Ledger.taken (l : Ledger) : Ledger := { l with free := l.free - 1, held := l.held + 1 }

/-- A ledger with one amount sent. -/
def Ledger.sent (l : Ledger) : Ledger := { l with held := l.held - 1, flight := l.flight + 1 }

theorem Ledger.ok_taken {l : Ledger} (h : l.ok = true) (hf : 0 < l.free) : l.taken.ok = true := by
  simp only [Ledger.ok, beq_iff_eq, Ledger.taken] at h ⊢
  omega

theorem Block.ledTake_eq {s : Block} {n : Nat} (h : (s.ledger n).ok = true) (hf : 0 < (s.ledger n).free) :
    s.ledTake n 1 = s.setLedger n (s.ledger n).taken := by
  refine Block.led1_eq ?_
  simp only [Ledger.ok, beq_iff_eq] at h
  simp only [Ledger.move]
  rw [if_pos (by omega)]
  simp only [Ledger.taken, Option.some.injEq, Ledger.mk.injEq]
  omega

theorem Block.ledSend_eq {s : Block} {n : Nat} (h : (s.ledger n).ok = true) (hf : 0 < (s.ledger n).held) :
    s.ledSend n 1 = s.setLedger n (s.ledger n).sent := by
  refine Block.led1_eq ?_
  simp only [Ledger.ok, beq_iff_eq] at h
  simp only [Ledger.move]
  rw [if_pos (by omega)]
  simp only [Ledger.sent, Option.some.injEq, Ledger.mk.injEq]
  omega

/-! ### Engine queues -/

@[simp] theorem Cluster.queue_setQueue (k : Cluster) (q : Nat) (l : List QEntry) : (k.setQueue q l).queue q = l :=
  tget_tset_same ..

/-- An entry put over another in its queue. -/
theorem Cluster.setQueue_setQueue (k : Cluster) (q : Nat) {l m : List QEntry} (hl : l ≠ []) (hm : m ≠ []) :
    (k.setQueue q l).setQueue q m = k.setQueue q m := by
  simp only [Cluster.setQueue, tset_tset _ _ _ hl hm]

/-- A cluster whose queue was set holds that entry already. -/
theorem Cluster.setQueue_self {k m : Cluster} {q : Nat} {l : List QEntry} (hq : k.queues = (m.setQueue q l).queues)
    (hl : l ≠ []) : k.setQueue q l = k := by
  have h : tset [] k.queues q l = k.queues := by
    rw [hq]
    exact tset_tset _ _ _ hl hl
  rw [Cluster.setQueue, h]

theorem Cluster.past_setQueue (k : Cluster) (q pos : Nat) (l : List QEntry) :
    (k.setQueue q l).past pos = (k.past pos).setQueue q l := rfl

/-- What the core issues is of the job that its cluster runs. -/
theorem Block.nextIssue_job {s : Block} {c : Nat} {x : Issue} (h : s.nextIssue c = some x) :
    (s.cl c).job = some x.j ∧ s.jobAt x.j = some x.job := by
  unfold Block.nextIssue at h
  dsimp only at h
  split at h
  · cases h
  next j hj =>
    split at h
    next J _ hJ _ =>
      cases h
      exact ⟨hj, hJ⟩
    · cases h

/-- The head of a queue is the command that was issued, while its job runs. -/
theorem Block.headIssue_entry {s t : Block} {c : Nat} {x : Issue} {b : Bool} (h : s.nextIssue c = some x)
    (hj : (t.cl c).job = (s.cl c).job) (hJ : t.jobs = s.jobs) :
    t.headIssue c { x.entry with started := b } = some x := by
  obtain ⟨h1, h2⟩ := Block.nextIssue_job h
  have h3 : t.jobAt x.j = some x.job := by rw [← h2, Block.jobAt, Block.jobAt, hJ]
  have hc := Block.nextIssue_c h
  subst hc
  simp [Block.headIssue, hj, h1, h3, Issue.entry]

/-- Entering a full queue stalls the core. -/
theorem Block.toQueue_full {s : Block} {x : Issue} (h : 64 ≤ ((s.cl x.c).queue x.cmd.engine).length) :
    s.toQueue x = s.setCl x.c { s.cl x.c with state := .stalled, stallQ := x.cmd.engine } := by
  rw [Block.toQueue]
  simp only [if_pos h, Block.modCl]

section
variable {s : Block} {c op q : Nat} {x : Issue}

/-- The state right after a command has entered its queue behind `l`, its slot HELD and the core past it. -/
def Block.behind (s : Block) (x : Issue) (l : List QEntry) : Block :=
  ((s.setCl x.c ((s.cl x.c).setQueue x.cmd.engine (l ++ [x.entry]))).setLedger (0x80 + x.c) (s.ledger (0x80 + x.c)).taken).setCl
    x.c (((s.cl x.c).past ((s.cl x.c).pos + 1)).setQueue x.cmd.engine (l ++ [x.entry]))

theorem Block.toQueue_enters {l : List QEntry} (h : s.issues c op x) (hl : (s.cl c).queue x.cmd.engine = l) (hn : l.length < 64)
    (ho : (s.ledger (0x80 + c)).ok = true) (hf : 0 < (s.ledger (0x80 + c)).free) :
    s.toQueue x = (s.behind x l).startHead c x.cmd.engine := by
  have hc := h.cluster
  obtain ⟨-, hs, ho', -⟩ := h
  subst hc
  have ht : ∀ k, (s.setCl x.c k).ledTake (0x80 + x.c) 1 = (s.setCl x.c k).setLedger (0x80 + x.c) (s.ledger (0x80 + x.c)).taken :=
    fun k => Block.ledTake_eq (s := s.setCl x.c k) ho hf
  have hcl : ∀ k n l, ((s.setCl x.c k).setLedger n l).cl x.c = k := fun k n l =>
    (Block.cl_congr (s := s.setCl x.c k) rfl _).trans (Block.cl_setCl_same ..)
  rw [Block.toQueue]
  simp only [hl, if_neg (Nat.not_le.mpr hn), Block.modCl, ht, Block.issuedNext, hcl]
  rw [Block.issued_eq _ (by rw [hcl]; exact hs) (by rw [hcl]; exact ho'), hcl]
  rfl

@[simp] theorem Block.cl_behind (s : Block) (x : Issue) (l : List QEntry) :
    (s.behind x l).cl x.c = ((s.cl x.c).past ((s.cl x.c).pos + 1)).setQueue x.cmd.engine (l ++ [x.entry]) :=
  Block.cl_setCl_same ..

theorem Block.cl_behind_other (s : Block) {x : Issue} (l : List QEntry) {d : Nat} (h : d ≠ x.c) :
    (s.behind x l).cl d = s.cl d :=
  (Block.cl_setCl_other _ _ h).trans (Block.cl_setCl_other s _ h)

theorem Block.ledger_behind (s : Block) (x : Issue) (l : List QEntry) :
    (s.behind x l).ledger (0x80 + x.c) = (s.ledger (0x80 + x.c)).taken := tget_tset_same ..

theorem Block.behind_frame (s : Block) (x : Issue) (l : List QEntry) :
    { s.behind x l with clusters := s.clusters, led := s.led } = s := by
  simp [Block.behind, Block.setLedger, Block.setCl]

/-- Behind a head that runs, the command waits. -/
theorem Block.toQueue_waits {e : QEntry} {l : List QEntry} (h : s.issues c op x) (hq : x.cmd.engine = q)
    (hl : (s.cl c).queue q = e :: l) (he : e.started = true) (hn : l.length < 63)
    (ho : (s.ledger (0x80 + c)).ok = true) (hf : 0 < (s.ledger (0x80 + c)).free) : s.toQueue x = s.behind x (e :: l) := by
  subst hq
  have hc := h.cluster
  rw [Block.toQueue_enters h hl (by simp only [List.length_cons]; omega) ho hf]
  subst hc
  simp [Block.startHead, he]

/-- The state in which an engine finds its command, before the earlier writes that are to land first. -/
def Block.begun (s : Block) (x : Issue) : Block :=
  ((s.setCl x.c (((s.cl x.c).past ((s.cl x.c).pos + 1)).setQueue x.cmd.engine [{ x.entry with started := true }])).setLedger
    (0x80 + x.c) (s.ledger (0x80 + x.c)).taken).setLedger (0x80 + x.c) (s.ledger (0x80 + x.c)).taken.sent

theorem Block.entered_eq (hq : x.cmd.engine = q) (ho : (s.ledger (0x80 + x.c)).ok = true)
    (hf : 0 < (s.ledger (0x80 + x.c)).free) : s.entered x q = (s.begun x).settleSome x.c := by
  subst hq
  have ht : ∀ k, (s.setCl x.c k).ledTake (0x80 + x.c) 1 = (s.setCl x.c k).setLedger (0x80 + x.c) (s.ledger (0x80 + x.c)).taken :=
    fun k => Block.ledTake_eq (s := s.setCl x.c k) ho hf
  rw [Block.entered, Block.modCl, ht, Block.ledSend_eq, Block.ledger_setLedger_same]
  · rfl
  · rw [Block.ledger_setLedger_same]
    exact Ledger.ok_taken ho hf
  · rw [Block.ledger_setLedger_same]
    exact Nat.succ_pos _

/-- A command that finds its queue empty starts at once. -/
theorem Block.toQueue_starts (h : s.issues c op x) (hs : s.starts x q) :
    s.toQueue x =
      ((s.entered x q).startEffect x q).2.repairMet.modHead c q x.count fun e =>
        { e with waiting := ((s.entered x q).startEffect x q).1.1, done := ((s.entered x q).startEffect x q).1.2.1,
                 status := ((s.entered x q).startEffect x q).1.2.2 } := by
  have hc := h.cluster
  subst hc
  obtain ⟨hq, -, hl, ho, hf, -⟩ := hs
  rw [Block.entered_eq hq ho hf]
  subst hq
  rw [Block.toQueue_enters h hl (by simp) ho hf]
  have hx : s.nextIssue x.c = some x := by
    obtain ⟨-, -, -, hx, -⟩ := h
    exact hx
  have hstate : (s.cl x.c).state = .issuing := by
    obtain ⟨-, hs, -⟩ := h
    exact hs
  have hidle : ∀ k : Cluster, k.state = .issuing → k ≠ Cluster.reset := by
    rintro k hk rfl
    cases hk
  have hhead : (s.behind x []).headIssue x.c x.entry = some x :=
    Block.headIssue_entry (b := false) hx (by rw [Block.cl_behind]; rfl) rfl
  have hsent : ∀ k, ((s.behind x []).setCl x.c k).ledSend (0x80 + x.c) 1 =
      ((s.behind x []).setCl x.c k).setLedger (0x80 + x.c) (s.ledger (0x80 + x.c)).taken.sent := fun k => by
    have hled : ((s.behind x []).setCl x.c k).ledger (0x80 + x.c) = (s.ledger (0x80 + x.c)).taken := s.ledger_behind x []
    rw [Block.ledSend_eq (by rw [hled]; exact Ledger.ok_taken ho hf) (by rw [hled]; exact Nat.succ_pos _), hled]
  have hbegun : (((s.behind x []).modCl x.c fun k => k.setQueue x.cmd.engine [{ x.entry with started := true }]).ledSend
      (0x80 + x.c) 1) = s.begun x := by
    rw [Block.modCl, hsent, Block.cl_behind, List.nil_append, Cluster.setQueue_setQueue _ _ (by simp) (by simp)]
    unfold Block.behind Block.begun Block.setLedger Block.setCl
    dsimp only
    rw [tset_tset _ _ _ (hidle _ ?_) (hidle _ ?_), tset_tset _ _ _ (hidle _ ?_) (hidle _ ?_)] <;> exact hstate
  have hstart : x.entry.started = false := rfl
  rw [Block.startHead, Block.cl_behind, Cluster.queue_setQueue]
  simp only [List.nil_append, hstart, hhead, hbegun]
  rfl

/-! ### The commands of a stream -/

/-- The commands that may name an engine (R178, R179). -/
def queuedInstrs (c : Nat) : List Instr :=
  [.nop c, .semWait c, .semSignal c, .fence c, .firnPush c, .firnHold c, .matmul c, .matmulPacked c, .vec c, .vred c, .quant c,
    .copy c, .copyStrided c, .atomic c, .gather c, .scatter c, .scatterAdd c]

/-- Those whose effect is the engine's. -/
def engineInstrs (c : Nat) : List Instr :=
  [.matmul c, .matmulPacked c, .vec c, .vred c, .quant c, .copy c, .copyStrided c, .atomic c, .gather c, .scatter c, .scatterAdd c]

theorem Block.issues.toQueue (h : s.issues c op x) (he : x.cmd.engine < 24) (ctl : Issue → Block → Block) :
    s.issue c op ctl = s.toQueue x := by
  rw [h.issue, if_neg]
  unfold engineKind
  split_ifs <;> omega

end

/-- A command that names an engine enters that engine's queue. -/
theorem exec_toQueue {s : State} {i : Instr} {c op : Nat} {x : Issue} (hi : i ∈ queuedInstrs c)
    (hop : Instr.streamOp i = some (c, op)) (h : s.blk.issues c op x) (he : x.cmd.engine < 24) :
    ∃ f, exec i s = onBlk f s ∧ f s.blk = s.blk.toQueue x := by
  simp only [queuedInstrs, List.mem_cons, List.not_mem_nil, or_false] at hi
  rcases hi with rfl | rfl | rfl | rfl | rfl | rfl | rfl | rfl | rfl | rfl | rfl | rfl | rfl | rfl | rfl | rfl | rfl <;>
    cases hop
  case inl => exact ⟨effNop c, rfl, (if_pos h.ready).trans (h.toQueue he _)⟩
  all_goals exact ⟨_, rfl, h.toQueue he _⟩

theorem engineInstrs_queued {c : Nat} {i : Instr} (h : i ∈ engineInstrs c) : i ∈ queuedInstrs c := by
  simp only [engineInstrs, queuedInstrs, List.mem_cons, List.not_mem_nil, or_false] at h ⊢
  tauto

/-- The opcode of a command whose effect is the engine's is not one that waits. -/
theorem engineInstrs_op {c op : Nat} {i : Instr} (h : i ∈ engineInstrs c) (hop : Instr.streamOp i = some (c, op)) :
    op ≠ 0x08 ∧ op ≠ 0x09 ∧ op ≠ 0x0A ∧ op ≠ 0x0C ∧ op ≠ 0x0D := by
  simp only [engineInstrs, List.mem_cons, List.not_mem_nil, or_false] at h
  rcases h with rfl | rfl | rfl | rfl | rfl | rfl | rfl | rfl | rfl | rfl | rfl <;> cases hop <;> decide

section
variable {s : State} {i : Instr} {c op q : Nat} {x : Issue}

theorem exec_queued {e : QEntry} {l : List QEntry} (hi : i ∈ queuedInstrs c) (hop : Instr.streamOp i = some (c, op))
    (h : s.blk.issues c op x) (hq : x.cmd.engine = q) (h24 : q < 24) (hl : (s.blk.cl c).queue q = e :: l) (he : e.started = true)
    (hn : l.length < 63) (ho : (s.blk.ledger (0x80 + c)).ok = true) (hf : 0 < (s.blk.ledger (0x80 + c)).free) :
    exec i s = .next { s with blk := s.blk.behind x (e :: l) } := by
  obtain ⟨f, hx, hb⟩ := exec_toQueue hi hop h (hq ▸ h24)
  rw [hx]
  exact onBlk_next_of_eq (hb.trans (Block.toQueue_waits h hq hl he hn ho hf)) rfl rfl

theorem exec_stalled (hi : i ∈ queuedInstrs c) (hop : Instr.streamOp i = some (c, op)) (h : s.blk.issues c op x)
    (hq : x.cmd.engine = q) (h24 : q < 24) (hl : 64 ≤ ((s.blk.cl c).queue q).length) :
    exec i s = .next { s with blk := s.blk.setCl c { s.blk.cl c with state := .stalled, stallQ := q } } := by
  obtain ⟨f, hx, hb⟩ := exec_toQueue hi hop h (hq ▸ h24)
  have hc := h.cluster
  subst hq hc
  rw [hx]
  exact onBlk_next_of_eq (hb.trans (Block.toQueue_full hl)) rfl rfl

/-- The tile's state survives what lands before a start. -/
theorem Block.tileState_entered {b : Block} (hs : b.starts x q) : (b.entered x q).tileState (x.c * 8 + q % 8) ≠ 5 := by
  obtain ⟨hq, -, -, ho, hf, ht, -⟩ := hs
  have hr : (b.entered x q).rg (FLOE_STATE (x.c * 8 + q % 8)) = b.rg (FLOE_STATE (x.c * 8 + q % 8)) :=
    Block.rg_of_regs (by rw [Block.entered_eq hq ho hf, Block.settleSome_regs]; rfl) _
  rwa [Block.tileState, Block.fld, hr]

/-- A command that starts at once and does not fail leaves its entry at the head of its queue. -/
theorem exec_starts {w : Bool} {n st : Nat} {r b : Block} (hi : i ∈ queuedInstrs c)
    (hop : Instr.streamOp i = some (c, op)) (h : s.blk.issues c op x) (hs : s.blk.starts x q)
    (he : (s.blk.entered x q).startEffect x q = ((w, n, st), r)) (hb : b = r.repairMet) (hl : r.sameLasting s.blk)
    (hq : (b.cl c).queue q = [{ x.entry with started := true }]) :
    exec i s = .next { s with blk := b.setCl c ((b.cl c).setQueue q
      [{ x.entry with started := true, waiting := w, done := n, status := st }]) } := by
  have hc := h.cluster
  subst hc hb
  have h24 : x.cmd.engine < 24 := by
    obtain ⟨hq, h24, -⟩ := hs
    rwa [hq]
  obtain ⟨f, hx, hf⟩ := exec_toQueue hi hop h h24
  rw [hx]
  refine onBlk_next_of_eq (hf.trans ((Block.toQueue_starts h hs).trans ?_)) (by simp [hl.1]) (by simp [hl.2])
  rw [he, Block.modHead, Block.modCl, hq]
  simp [Issue.entry]

theorem Block.sameLasting_entered (b : Block) : (b.entered x q).sameLasting b := by
  simp [Block.entered]

/-- An engine's effect leaves its cluster's queues as it found them. -/
theorem engRun_setQueue {b r : Block} {st : Nat} (hs : b.starts x q) (he : engRun (engCtx x q) (b.entered x q) = (st, r)) :
    (r.repairMet.cl x.c).setQueue q [{ x.entry with started := true }] = r.repairMet.cl x.c := by
  obtain ⟨hq, -, -, ho, hf, -⟩ := hs
  subst hq
  have hr : ((engRun (engCtx x x.cmd.engine) (b.entered x x.cmd.engine)).2.cl x.c).queues = ((b.begun x).cl x.c).queues := by
    unfold Block.cl
    rw [engRun_queues, Block.entered_eq rfl ho hf, Block.settleSome_queues]
  rw [he] at hr
  have hb : (b.begun x).cl x.c =
      ((b.cl x.c).past ((b.cl x.c).pos + 1)).setQueue x.cmd.engine [{ x.entry with started := true }] := by
    unfold Block.begun
    exact (Block.cl_congr (s := b.setCl x.c _) rfl _).trans (Block.cl_setCl_same ..)
  rw [hb] at hr
  rw [Block.cl_congr (Block.repairMet_clusters r)]
  exact Cluster.setQueue_self hr (by simp)

theorem exec_engine {r b : Block} (hi : i ∈ engineInstrs c) (hop : Instr.streamOp i = some (c, op)) (h : s.blk.issues c op x)
    (hs : s.blk.starts x q) (he : engRun (engCtx x q) (s.blk.entered x q) = (OK, r)) (hb : b = r.repairMet)
    (hq : (b.cl c).queue q = [{ x.entry with started := true }]) : exec i s = .next { s with blk := b.setCl c (b.cl c) } := by
  have hop' : x.cmd.op = op := by
    obtain ⟨-, -, -, -, hop', -⟩ := h
    exact hop'
  obtain ⟨h8, h9, hA, hC, hD⟩ := engineInstrs_op hi hop
  have hrem : isRemote x.cmd = false := by
    obtain ⟨-, -, -, -, -, -, hrem⟩ := hs
    exact hrem
  have hstart : (s.blk.entered x q).startEffect x q = ((false, 0, OK), r) := by
    simp only [Block.startEffect, if_neg (Block.tileState_entered hs), hop', h8, h9, hA, hC, hD, hrem, he]
    simp
  have hl : r.sameLasting s.blk := by
    have h1 := engRun_lasting (engCtx x q) (s.blk.entered x q)
    have h2 := s.blk.sameLasting_entered (x := x) (q := q)
    rw [he] at h1
    exact ⟨h1.1.trans h2.1, h1.2.trans h2.2⟩
  have ht := exec_starts (engineInstrs_queued hi) hop h hs hstart hb hl hq
  have hset := engRun_setQueue hs he
  rw [h.cluster, ← hb] at hset
  have hent : ({ x.entry with started := true, waiting := false, done := 0, status := OK } : QEntry) =
    { x.entry with started := true } := rfl
  rw [hent, hset] at ht
  exact ht

theorem exec_push {w : Bool} {n : Nat} {r b : Block} (hi : i ∈ [Instr.firnPush c, Instr.firnHold c])
    (hop : Instr.streamOp i = some (c, op)) (h : s.blk.issues c op x) (hs : s.blk.starts x q)
    (hst : (s.blk.entered x q).pushStatus x (c * 8 + q % 8) = none) (hp : (s.blk.entered x q).pushPoison x = false)
    (hg : (s.blk.entered x q).goOn x q 0 = ((w, n, OK), r)) (hb : b = r.repairMet)
    (hq : (b.cl c).queue q = [{ x.entry with started := true }]) :
    exec i s = .next { s with blk := b.setCl c ((b.cl c).setQueue q
      [{ x.entry with started := true, waiting := w, done := n }]) } := by
  have hop' : x.cmd.op = op := by
    obtain ⟨-, -, -, -, hop', -⟩ := h
    exact hop'
  have hCD : (op = 0x0C ∨ op = 0x0D) ∧ i ∈ queuedInstrs c := by
    simp only [List.mem_cons, List.not_mem_nil, or_false] at hi
    rcases hi with rfl | rfl <;> cases hop <;> simp [queuedInstrs]
  obtain ⟨hCD, hmem⟩ := hCD
  have hstart : (s.blk.entered x q).startEffect x q = ((w, n, OK), r) := by
    have h8 : ¬ op = 0x08 := by omega
    have h9 : ¬ (op = 0x09 ∨ op = 0x0A) := by omega
    have ht := Block.tileState_entered hs
    rw [h.cluster] at ht
    simp only [Block.startEffect, if_neg ht, hop', if_neg h8, if_neg h9, if_pos hCD, h.cluster, hst, hp, hg]
    simp
  have hl : r.sameLasting s.blk := by
    have h1 := Block.goOn_push_lasting (s.blk.entered x q) x q 0 (hop' ▸ hCD)
    have h2 := s.blk.sameLasting_entered (x := x) (q := q)
    rw [hg] at h1
    exact ⟨h1.1.trans h2.1, h1.2.trans h2.2⟩
  exact exec_starts hmem hop h hs hstart hb hl hq

theorem exec_firnPush_control {b : Block} (h : s.blk.runs c 0x0C x) (hst : s.blk.pushStatus x 0 = none)
    (hp : s.blk.pushPoison x = false) (hd : (s.blk.cl c).pushDone = 0)
    (he : s.blk.pushFrom x (x.cmd.f 3 12 0) 0 = (x.cmd.f 3 12 0, b)) :
    exec (.firnPush c) s = .next { s with blk := (b.modCl c fun k => { k with pushDone := 0 }).issuedNext c } := by
  have hl : b.sameLasting s.blk := by
    have h1 := s.blk.pushFrom_lasting x (x.cmd.f 3 12 0) 0
    rwa [he] at h1
  refine exec_control (f := effFirnPush c) h rfl ?_ (by simp [Block.issuedNext, hl.1, hl.2])
  simp [ctlFirnPush, hst, hp, h.1.cluster, hd, he]

end

/-- Settles O13: a command waits behind a head that runs (`exec_queued`), stalls the core at a full queue (`exec_stalled`), or
starts in an empty one with the engine's own effect (`exec_engine`, `exec_push`). -/
theorem engineCommands : Obligations.EngineCommands := by
  refine ⟨?queued, ?stalled, ?engine, ?push, ?control⟩
  case queued =>
    intro s i c op q x e l hi hop h hq h24 hl he hn ho hf
    refine ⟨_, exec_queued hi hop h hq h24 hl he hn ho hf, rfl, ?_, ?_, ?_, Block.behind_frame ..⟩ <;> dsimp only <;>
      have hc := h.cluster <;> subst hc hq
    · exact Block.cl_behind ..
    · exact fun d hd => Block.cl_behind_other _ _ hd
    · exact Block.ledger_behind ..
  case stalled =>
    intro s i c op q x hi hop h hq h24 hl
    exact ⟨_, exec_stalled hi hop h hq h24 hl, rfl, Block.cl_setCl_same .., rfl⟩
  case engine =>
    intro s i c op q x b r hi hop h hs he hb hq
    refine ⟨_, exec_engine hi hop h hs he hb hq, rfl, rfl, fun d => ?_⟩
    by_cases hd : d = c
    · subst hd
      exact Block.cl_setCl_same ..
    · exact Block.cl_setCl_other _ _ hd
  case push =>
    intro s i c op q n w x b r hi hop h hs hst hp hg hb hq
    exact ⟨_, exec_push hi hop h hs hst hp hg hb hq, rfl, rfl, fun d hd => Block.cl_setCl_other _ _ hd, Block.cl_setCl_same ..⟩
  case control =>
    intro s c x b h hst hp hd he
    exact exec_firnPush_control h hst hp hd he

end Sys2Proof.Machine
end

section
/-! What messages and events leave of the ice core's records, and the ice core's own messages (R507 to R512). -/

namespace Sys2Proof.Machine

/-! ### Registers apart from the channels -/

/-- An address below the pages of functions and beside the channel of the sideband's first pair. -/
abbrev offMail (a : Nat) : Prop := a < 0x00308000 ∨ 0x00308200 ≤ a ∧ a < 0x100000000

theorem chBase_ne_of_offMail (ch : Chan) {a k : Nat} (h : offMail a) (hk : k < 0x100) : a ≠ chBase ch + k := by
  cases ch with
  | fn f n =>
    have e : chBase (.fn f n) = 0x100000000 + f * 0x10000 + 0x1000 + 0x100 * n := rfl
    omega
  | s0 =>
    have e : chBase .s0 = 0x00308000 := rfl
    omega
  | s1 =>
    have e : chBase .s1 = 0x300000000 := rfl
    omega
  | mgmt =>
    have e : chBase .mgmt = 0x300000200 := rfl
    omega

theorem chBack_ne_of_offMail (ch : Chan) {a k : Nat} (h : offMail a) (hk : k < 0x100) : a ≠ chBack ch + k := by
  cases ch with
  | fn f n =>
    have e : chBack (.fn f n) = 0x100000000 + f * 0x10000 + 0x1800 + 0x100 * n := rfl
    omega
  | s0 =>
    have e : chBack .s0 = 0x00308000 + 0x100 := rfl
    omega
  | s1 =>
    have e : chBack .s1 = 0x300000000 + 0x100 := rfl
    omega
  | mgmt =>
    have e : chBack .mgmt = 0x300000200 + 0x100 := rfl
    omega

theorem Block.rg_msgTaken_offMail (s : Block) (ch : Chan) {a : Nat} (h : offMail a) (h1 : a ≠ ICE_DROPPED)
    (h2 : a ≠ LDG_STATUS) : (s.msgTaken ch).rg a = s.rg a :=
  Block.rg_msgTaken s ch (chBase_ne_of_offMail ch h (by omega)) h1 h2

theorem Block.rg_writeReply_offMail (s : Block) (ch : Chan) (ws : List Word) (l : List (List Word)) {a : Nat} (h : offMail a)
    (h1 : a ≠ ICE_DROPPED) (h2 : a ≠ LDG_STATUS) : (s.writeReply ch ws l).rg a = s.rg a := by
  have h44 := chBack_ne_of_offMail ch h (k := 0x44) (by omega)
  have hlo := chBack_ne_of_offMail ch h (k := 0) (by omega)
  have hout : a < chBack ch ∨ chBack ch + 64 ≤ a := by
    by_contra hc
    exact chBack_ne_of_offMail ch h (k := a - chBack ch) (by omega) (by omega)
  unfold Block.writeReply
  simp only [apply_ite (fun (s : Block) => s.rg a), Block.rg_msix, ite_self]
  rw [Block.rg_chLed _ _ _ (fun s n => Block.rg_ledTake s n 1 h1 h2), Block.rg_wb_other _ _ _ h44, Block.rg_wf_other _ _ _ _ h44,
    Block.rg_boxData_other _ _ _ hout, Block.rg_setBox]

theorem Block.rg_reply_offMail (s : Block) (ch : Chan) (ws : List Word) {a : Nat} (h : offMail a) (h1 : a ≠ ICE_DROPPED)
    (h2 : a ≠ LDG_STATUS) : (s.reply ch ws).rg a = s.rg a := by
  unfold Block.reply Block.pumpReply
  dsimp only
  split
  · exact Block.rg_setBox ..
  · split
    · exact Block.rg_setBox ..
    · exact (Block.rg_writeReply_offMail _ _ _ _ h h1 h2).trans (Block.rg_setBox ..)

/-! ### The records that events leave alone -/

/-- The ice core without its queues of records to write and their counts of losses. -/
def IceCore.stored (c : IceCore) : IceCore := { c with queue := [], health := [], healthLost := 0, lost := 0 }

@[simp] theorem Block.iceEnter_stored (s : Block) (r : IceRec) : (s.iceEnter r).ice.stored = s.ice.stored := by
  unfold Block.iceEnter
  split
  · rfl
  · simp [IceCore.stored]

@[simp] theorem Block.event_stored (s : Block) (src ev : Nat) (d : List Word) : (s.event src ev d).ice.stored = s.ice.stored := by
  unfold Block.event
  extract_lets r
  split
  · split <;> rfl
  · exact Block.iceEnter_stored s r

@[simp] theorem Block.breachMark_stored (s : Block) (n : Nat) : (s.breachMark n).ice.stored = s.ice.stored := by
  simp [IceCore.stored]

@[simp] theorem Block.raiseBreach_stored (s : Block) (n k : Nat) (x : List Word) :
    (s.raiseBreach n k x).ice.stored = s.ice.stored :=
  (Block.breachMark_stored ..).trans (Block.event_stored ..)

@[simp] theorem Block.led1_stored (s : Block) (n : Nat) (m : LedgerMove) : (s.led1 n m).ice.stored = s.ice.stored := by
  unfold Block.led1
  split
  · rfl
  · exact Block.raiseBreach_stored ..

theorem Block.chLed_stored (s : Block) (ch : Chan) (g : Block → Nat → Block)
    (h : ∀ (s : Block) n, (g s n).ice.stored = s.ice.stored) : (s.chLed ch g).ice.stored = s.ice.stored := by
  unfold Block.chLed
  split
  · exact h _ _
  · rfl

@[simp] theorem Block.msgTaken_stored (s : Block) (ch : Chan) : (s.msgTaken ch).ice.stored = s.ice.stored := by
  unfold Block.msgTaken
  exact (Block.chLed_stored _ _ _ fun s n => (Block.led1_stored _ _ _).trans (Block.led1_stored _ _ _)).trans (by simp)

@[simp] theorem Block.writeReply_stored (s : Block) (ch : Chan) (ws : List Word) (l : List (List Word)) :
    (s.writeReply ch ws l).ice.stored = s.ice.stored := by
  unfold Block.writeReply
  simp only [apply_ite (fun (s : Block) => s.ice.stored), Block.msix_ice, ite_self]
  exact (Block.chLed_stored _ _ _ fun s n => Block.led1_stored s n _).trans (by simp)

@[simp] theorem Block.reply_stored (s : Block) (ch : Chan) (ws : List Word) : (s.reply ch ws).ice.stored = s.ice.stored := by
  unfold Block.reply Block.pumpReply
  dsimp only
  split
  · simp
  · split <;> simp

/-! ### A message that only its channel feels -/

/-- What a delivered message leaves when its handling touches no channel. -/
theorem exec_answer {s : State} {ch : Chan} {type : Nat} {h : Block → List Word → Answer} {a : Answer}
    (hd : s.blk.delivers ch type) (hb : s.blk.backFree ch) (ha : h (s.blk.msgTaken ch) (s.blk.msgWords ch) = a)
    (hr : a.blk.rg (chBack ch + 0x44) = (s.blk.msgTaken ch).rg (chBack ch + 0x44)) (hm : a.blk.mbx = (s.blk.msgTaken ch).mbx)
    (hf : a.blk.trust.fuses = s.blk.trust.fuses) (hp : a.blk.ice.perm = s.blk.ice.perm) :
    ∃ t : State, onBlk (fun b => b.message ch type h) s = .next t ∧ t.pending = s.pending ∧
      t.blk.repliedTo s.blk ch a.status ∧ (∀ i, i + 2 < 16 → t.blk.rg (chBack ch + 4 * (i + 2)) = a.regs.getD i 0) ∧
      t.blk = a.blk.reply ch (mreg (s.blk.msgWords ch) 0 :: w32 a.status :: a.regs) :=
  exec_message hd ha (Block.backFree_congr hr (Block.box_congr hm) (Block.backFree_msgTaken hb)) hf hp

/-- A message whose handling changes nothing: the answer is all it leaves. -/
theorem exec_told {s : State} {ch : Chan} {type : Nat} {h : Block → List Word → Answer} {st : Nat} {regs : List Word}
    (hd : s.blk.delivers ch type) (hb : s.blk.backFree ch)
    (ha : h (s.blk.msgTaken ch) (s.blk.msgWords ch) = { status := st, regs := regs, blk := s.blk.msgTaken ch }) :
    ∃ t : State, onBlk (fun b => b.message ch type h) s = .next t ∧ t.pending = s.pending ∧ t.blk.repliedTo s.blk ch st ∧
      (∀ i, i + 2 < 16 → t.blk.rg (chBack ch + 4 * (i + 2)) = regs.getD i 0) ∧ t.blk.mailBack s.blk = s.blk ∧
      t.blk.ice.stored = s.blk.ice.stored := by
  obtain ⟨t, hx, hp, hr, hregs, ht⟩ := exec_answer hd hb ha rfl rfl (by simp) (by simp)
  refine ⟨t, hx, hp, hr, hregs, ?_, ?_⟩
  · rw [ht]
    simp
  · rw [ht]
    simp

/-! ### The ice core's messages -/

/-- What the core tells of its records does not rest on its queues. -/
theorem IceCore.told_of_stored {c d : IceCore} (h : c.stored = d.stored) :
    c.first = d.first ∧ c.last = d.last ∧ c.permCount = d.permCount ∧ c.cleared = d.cleared ∧ c.scanned = d.scanned ∧
    c.read = d.read ∧ c.latch = d.latch :=
  ⟨(congrArg IceCore.first h :), (congrArg IceCore.last h :), (congrArg IceCore.permCount h :), (congrArg IceCore.cleared h :),
    (congrArg IceCore.scanned h :), (congrArg IceCore.read h :), (congrArg IceCore.latch h :)⟩

theorem IceCore.kept_of_stored {c d : IceCore} (h : c.stored = d.stored) :
    c.ring = d.ring ∧ c.perm = d.perm ∧ c.cleared = d.cleared ∧ c.clearing = d.clearing ∧ c.latches = d.latches ∧ c.last = d.last :=
  ⟨(congrArg IceCore.ring h :), (congrArg IceCore.perm h :), (congrArg IceCore.cleared h :), (congrArg IceCore.clearing h :),
    (congrArg IceCore.latches h :), (congrArg IceCore.last h :)⟩

/-- A read tells the number it was asked for (R509). -/
theorem IceCore.read_seq (c : IceCore) (q : Nat) : (c.read q).seq = q := by
  unfold IceCore.read
  split <;> rfl

theorem iceScanned_pos {s : Block} (a : Answer) (h : s.ice.scanned = true) : iceScanned s a = a := if_pos h

theorem iceScanned_neg {s : Block} (a : Answer) (h : s.ice.scanned = false) : iceScanned s a = s.no (NOT_READY 0) :=
  if_neg (by rw [h]; decide)

/-- A message of the ice core whose handling changes the ice core alone, and no permanent record. -/
theorem exec_iceAnswer {s : State} {ch : Chan} {type : Nat} {h : Block → List Word → Answer} {regs : List Word} {c : IceCore}
    (hd : s.blk.delivers ch type) (hb : s.blk.backFree ch)
    (ha : h (s.blk.msgTaken ch) (s.blk.msgWords ch) = ({ s.blk.msgTaken ch with ice := c } : Block).yes regs)
    (hp : c.perm = s.blk.ice.perm) :
    ∃ t : State, onBlk (fun b => b.message ch type h) s = .next t ∧ t.pending = s.pending ∧ t.blk.repliedTo s.blk ch OK ∧
      (∀ i, i + 2 < 16 → t.blk.rg (chBack ch + 4 * (i + 2)) = regs.getD i 0) ∧ t.blk.mailBack s.blk = s.blk ∧
      t.blk.ice.stored = c.stored := by
  obtain ⟨t, hx, hp, hr, hregs, ht⟩ := exec_answer hd hb ha rfl rfl (by simp [Block.yes]) hp
  refine ⟨t, hx, hp, hr, hregs, ?_, ?_⟩
  · rw [ht, Block.mailBack_reply]
    exact Block.mailBack_msgTaken ..
  · rw [ht, Block.reply_stored]
    rfl

/-- What ICE_STATUS tells. -/
def iceStatusRegs (s : Block) : List Word :=
  [w32 s.ice.first, w32 s.ice.last, w32 s.ice.permCount, w32 s.ice.cleared, s.rg ICE_DROPPED]

/-- What ICE_READ tells of a latch. -/
def iceReadRegs (half : Bool) (l : IceLatch) : List Word :=
  w32 l.seq :: w32 l.recState :: bytesWords 8 (if half then l.bytes.drop 32 else l.bytes.take 32)

theorem exec_iceStatus {s : State} {ch : Chan} (hd : s.blk.delivers ch 0x0B01) (hb : s.blk.backFree ch)
    (hs : s.blk.ice.scanned = true) :
    ∃ t : State, exec (.iceStatus ch) s = .next t ∧ t.pending = s.pending ∧ t.blk.repliedTo s.blk ch OK ∧
      (∀ i, i + 2 < 16 → t.blk.rg (chBack ch + 4 * (i + 2)) = (iceStatusRegs (s.blk.msgTaken ch)).getD i 0) ∧
      t.blk.mailBack s.blk = s.blk ∧ t.blk.ice.stored = s.blk.ice.stored :=
  exec_told hd hb (iceScanned_pos _ ((congrArg IceCore.scanned (s.blk.msgTaken_stored ch) :).trans hs))

/-- Before the scan is complete every message of the ice core ends with NOT_READY (R508). -/
theorem exec_iceUnscanned {s : State} {ch : Chan} {type : Nat} {h : Block → List Word → Answer} (hd : s.blk.delivers ch type)
    (hb : s.blk.backFree ch) (hs : s.blk.ice.scanned = false) :
    ∃ t : State, onBlk (fun b => b.message ch type fun b ws => iceScanned b (h b ws)) s = .next t ∧ t.pending = s.pending ∧
      t.blk.repliedTo s.blk ch (NOT_READY 0) ∧ t.blk.mailBack s.blk = s.blk ∧ t.blk.ice.stored = s.blk.ice.stored := by
  obtain ⟨t, hx, hp, hr, -, hm, hk⟩ := exec_told (h := fun b ws => iceScanned b (h b ws)) hd hb
    (iceScanned_neg (h (s.blk.msgTaken ch) (s.blk.msgWords ch)) ((congrArg IceCore.scanned (s.blk.msgTaken_stored ch) :).trans hs))
  exact ⟨t, hx, hp, hr, hm, hk⟩

theorem Block.iceLatch_eq {s : Block} (key seq : Nat) (h : s.ice.scanned = true) :
    s.iceLatch key seq = { s with ice := { s.ice with latches := kput s.ice.latches key (s.ice.read seq) } } := by
  unfold Block.iceLatch
  rw [if_pos h]

theorem IceCore.latch_kput (c : IceCore) (key : Nat) (l : IceLatch) :
    IceCore.latch { c with latches := kput c.latches key l } key = l := by
  simp [IceCore.latch, kget_kput_same]

/-- Half 0 of a read fills the pair's latch and tells its first half (R512). -/
theorem exec_iceRead_first {s : State} {ch : Chan} {q : Nat} {l : IceLatch} (hd : s.blk.delivers ch 0x0B02)
    (hb : s.blk.backFree ch) (hs : s.blk.ice.scanned = true) (hq : q = (mreg (s.blk.msgWords ch) 1).toNat)
    (hh : (mreg (s.blk.msgWords ch) 2).bit 0 = false) (hl : l = s.blk.ice.read q) :
    ∃ t : State, exec (.iceRead ch) s = .next t ∧ t.pending = s.pending ∧ t.blk.repliedTo s.blk ch OK ∧
      (∀ i, i + 2 < 16 → t.blk.rg (chBack ch + 4 * (i + 2)) = (iceReadRegs false l).getD i 0) ∧ t.blk.mailBack s.blk = s.blk ∧
      t.blk.ice.stored = IceCore.stored { s.blk.ice with latches := kput s.blk.ice.latches (iceKey ch) l } := by
  have hk := s.blk.msgTaken_stored ch
  obtain ⟨-, -, -, -, hsc, hrd, -⟩ := IceCore.told_of_stored hk
  obtain ⟨t, hx, hp, hr, hregs, hm, hst⟩ := exec_iceAnswer (type := 0x0B02) (regs := iceReadRegs false l)
    (h := fun s ws => iceScanned s <|
      let half := (mreg ws 2).bit 0
      let s := if half then s else s.iceLatch (iceKey ch) (mreg ws 1).toNat
      let l := s.ice.latch (iceKey ch)
      s.yes (w32 l.seq :: w32 l.recState :: bytesWords 8 (if half then l.bytes.drop 32 else l.bytes.take 32)))
    (c := { (s.blk.msgTaken ch).ice with latches := kput (s.blk.msgTaken ch).ice.latches (iceKey ch) l }) hd hb
    (by
      simp only [iceScanned_pos _ (hsc.trans hs), hh, Block.iceLatch_eq _ _ (hsc.trans hs), hrd, ← hq, ← hl, IceCore.latch_kput,
        Bool.false_eq_true, if_false, iceReadRegs]) (by simp)
  refine ⟨t, hx, hp, hr, hregs, hm, hst.trans ?_⟩
  exact (congrArg (fun c : IceCore => { c with latches := kput c.latches (iceKey ch) l }) hk :)

/-- Half 1 of a read tells the second half of the pair's latch (R512). -/
theorem exec_iceRead_second {s : State} {ch : Chan} {l : IceLatch} (hd : s.blk.delivers ch 0x0B02) (hb : s.blk.backFree ch)
    (hs : s.blk.ice.scanned = true) (hh : (mreg (s.blk.msgWords ch) 2).bit 0 = true) (hl : l = s.blk.ice.latch (iceKey ch)) :
    ∃ t : State, exec (.iceRead ch) s = .next t ∧ t.pending = s.pending ∧ t.blk.repliedTo s.blk ch OK ∧
      (∀ i, i + 2 < 16 → t.blk.rg (chBack ch + 4 * (i + 2)) = (iceReadRegs true l).getD i 0) ∧ t.blk.mailBack s.blk = s.blk ∧
      t.blk.ice.stored = s.blk.ice.stored := by
  obtain ⟨-, -, -, -, hsc, -, hla⟩ := IceCore.told_of_stored (s.blk.msgTaken_stored ch)
  refine exec_told hd hb ?_
  simp only [iceScanned_pos _ (hsc.trans hs), hh, hla, ← hl, if_true, iceReadRegs, Block.yes]

theorem exec_iceClear {s : State} {ch : Chan} (hd : s.blk.delivers ch 0x0B03) (hb : s.blk.backFree ch)
    (hs : s.blk.ice.scanned = true) (hk : (mreg (s.blk.msgWords ch) 1).fld 15 0 = 0x1CE0) :
    ∃ t : State, exec (.iceClear ch) s = .next t ∧ t.pending = s.pending ∧ t.blk.repliedTo s.blk ch OK ∧
      (∀ i, i + 2 < 16 → t.blk.rg (chBack ch + 4 * (i + 2)) = [w32 s.blk.ice.last].getD i 0) ∧ t.blk.mailBack s.blk = s.blk ∧
      t.blk.ice.stored = IceCore.stored { s.blk.ice with cleared := s.blk.ice.last, clearing := some s.blk.ice.last } := by
  have hkept := s.blk.msgTaken_stored ch
  obtain ⟨-, hla, -, -, hsc, -, -⟩ := IceCore.told_of_stored hkept
  obtain ⟨t, hx, hp, hr, hregs, hm, hst⟩ := exec_iceAnswer (type := 0x0B03) (regs := [w32 s.blk.ice.last])
    (h := fun s ws => iceScanned s <|
      if (mreg ws 1).fld 15 0 = 0x1CE0 then
        let s := s.iceClearNow
        s.yes [w32 s.ice.cleared]
      else s.no (REFUSED 0))
    (c := { (s.blk.msgTaken ch).ice with
      cleared := (s.blk.msgTaken ch).ice.last, clearing := some (s.blk.msgTaken ch).ice.last }) hd hb
    (by simp only [iceScanned_pos _ (hsc.trans hs), if_pos hk, Block.iceClearNow, hla]) (by simp)
  refine ⟨t, hx, hp, hr, hregs, hm, hst.trans ?_⟩
  exact (congrArg (fun c : IceCore => { c with cleared := c.last, clearing := some c.last }) hkept :)

theorem exec_iceClear_refused {s : State} {ch : Chan} (hd : s.blk.delivers ch 0x0B03) (hb : s.blk.backFree ch)
    (hs : s.blk.ice.scanned = true) (hk : (mreg (s.blk.msgWords ch) 1).fld 15 0 ≠ 0x1CE0) :
    ∃ t : State, exec (.iceClear ch) s = .next t ∧ t.pending = s.pending ∧ t.blk.repliedTo s.blk ch (REFUSED 0) ∧
      t.blk.mailBack s.blk = s.blk ∧ t.blk.ice.stored = s.blk.ice.stored := by
  have hsc : (s.blk.msgTaken ch).ice.scanned = true := (congrArg IceCore.scanned (s.blk.msgTaken_stored ch) :).trans hs
  obtain ⟨t, hx, hp, hr, -, hm, hst⟩ := exec_told (type := 0x0B03) (st := REFUSED 0) (regs := [])
    (h := fun s ws => iceScanned s <|
      if (mreg ws 1).fld 15 0 = 0x1CE0 then
        let s := s.iceClearNow
        s.yes [w32 s.ice.cleared]
      else s.no (REFUSED 0)) hd hb (by simp only [iceScanned_pos _ hsc, if_neg hk, Block.no])
  exact ⟨t, hx, hp, hr, hm, hst⟩

/-- A clear programs a slot of the ring, and CLEARING falls with the last (R511). -/
theorem iceClearProgram_slot {s : Block} {k : Nat} (hc : s.ice.clearing.isSome = true) (hh : s.ice.hold = false)
    (hp : s.start.powered = true) (hk : s.ice.nextClear = some k) :
    ∃ c, effIceClearProgram s = { s with ice := { s.ice with
        ring := kmod s.ice.ring k fun x => { x with valid := .cleared }, clearing := c } } ∧
      c = if (effIceClearProgram s).ice.nextClear.isSome then s.ice.clearing else none := by
  have he : effIceClearProgram s = _ := if_pos (by simp [hc, hh, hp])
  simp only [hk] at he
  rw [he]
  exact ⟨_, rfl, rfl⟩

/-- Settles O56: each message of the ice core is one answer (`exec_iceAnswer`, `exec_told`), and a clear one slot of the ring. -/
theorem iceMessages : Obligations.IceMessages := by
  refine ⟨?status, ?unscanned, ?first, ?second, ?clear, ?refused, ?program, ?done, ?idle, ?token⟩
  case status =>
    intro s ch hd hb hs
    obtain ⟨t, hx, hp, hr, hregs, hm, -⟩ := exec_iceStatus hd hb hs
    obtain ⟨hf, hl, hpc, hc, -⟩ := IceCore.told_of_stored (s.blk.msgTaken_stored ch)
    rw [iceStatusRegs, hf, hl, hpc, hc] at hregs
    exact ⟨t, hx, hp, hr, hregs 0 (by omega), hregs 1 (by omega), hregs 2 (by omega), hregs 3 (by omega), hregs 4 (by omega), hm⟩
  case unscanned =>
    intro s i ch ty hi hd hb hs
    have key : ∃ h : Block → List Word → Answer, exec i s = onBlk (fun b => b.message ch ty fun b ws => iceScanned b (h b ws)) s := by
      obtain ⟨rfl, rfl⟩ | ⟨rfl, rfl⟩ | ⟨rfl, rfl⟩ := hi <;> exact ⟨_, rfl⟩
    obtain ⟨h, hi⟩ := key
    obtain ⟨t, hx, hp, hr, hm, hst⟩ := exec_iceUnscanned (h := h) hd hb hs
    obtain ⟨-, -, hc, -, hl, -⟩ := IceCore.kept_of_stored hst
    exact ⟨t, hi.trans hx, hp, hr, hc, hl, hm⟩
  case first =>
    intro s ch q l hd hb hs hq hh hl
    obtain ⟨t, hx, hp, hr, hregs, hm, hst⟩ := exec_iceRead_first hd hb hs hq hh hl
    obtain ⟨hring, hperm, -, -, hlat, -⟩ := IceCore.kept_of_stored hst
    refine ⟨t, hx, hp, hr, ?_, hregs 1 (by omega), fun j hj => ?_, ?_, fun k hk => ?_, hring, hperm, hm⟩
    · rw [hregs 0 (by omega), hl]
      exact congrArg w32 (IceCore.read_seq ..)
    · rw [show chBack ch + 16 + 4 * j = chBack ch + 4 * ((j + 2) + 2) by omega, hregs (j + 2) (by omega)]
      rfl
    · rw [IceCore.latch, hlat, kget_kput_same]
      rfl
    · rw [hlat, kget_kput_other _ _ hk]
  case second =>
    intro s ch l hd hb hs hh hl
    obtain ⟨t, hx, hp, hr, hregs, hm, hst⟩ := exec_iceRead_second hd hb hs hh hl
    obtain ⟨-, -, -, -, hlat, -⟩ := IceCore.kept_of_stored hst
    refine ⟨t, hx, hp, hr, hregs 0 (by omega), hregs 1 (by omega), fun j hj => ?_, hlat, hm⟩
    rw [show chBack ch + 16 + 4 * j = chBack ch + 4 * ((j + 2) + 2) by omega, hregs (j + 2) (by omega)]
    rfl
  case clear =>
    intro s ch hd hb hs hk
    obtain ⟨t, hx, hp, hr, hregs, hm, hst⟩ := exec_iceClear hd hb hs hk
    obtain ⟨hring, hperm, hc, hcl, -, -⟩ := IceCore.kept_of_stored hst
    exact ⟨t, hx, hp, hr, hregs 0 (by omega), hc, hcl, hring, hperm, hm⟩
  case refused =>
    intro s ch hd hb hs hk
    obtain ⟨t, hx, hp, hr, hm, hst⟩ := exec_iceClear_refused hd hb hs hk
    obtain ⟨-, -, hc, hcl, -, -⟩ := IceCore.kept_of_stored hst
    exact ⟨t, hx, hp, hr, hc, hcl, hm⟩
  case program =>
    intro s k x hc hh hp hk hx
    obtain ⟨c, he, hcl⟩ := iceClearProgram_slot hc hh hp hk
    refine ⟨_, onBlk_next_of_eq (f := effIceClearProgram) he rfl rfl, rfl, ?_, fun j hj => ?_, ?_, rfl⟩
    · exact (kget_kmod ..).trans (by rw [if_pos rfl, hx]; rfl)
    · exact (kget_kmod ..).trans (if_neg hj)
    · rw [he] at hcl
      exact hcl
  case done =>
    intro s hc hh hp hk
    exact onBlk_next_of_eq (f := effIceClearProgram) (by simp [effIceClearProgram, hc, hh, hp, hk]) rfl rfl
  case idle =>
    intro s h
    refine onBlk_next_of_eq (f := effIceClearProgram) (b := s.blk) (if_neg ?_) rfl rfl
    obtain h | h | h := h <;> simp [h]
  case token =>
    intro s
    exact onBlk_next_of_eq (f := effIceBudgetToken) rfl rfl rfl

end Sys2Proof.Machine
end

section
/-! The life cycle: fuses blown by a message, the state in force and the one that is pending, and floors (R484 to R498). -/

namespace Sys2Proof.Machine

/-! ### Answers that blow fuses -/

theorem Block.repliedTo_congr {s t u : Block} {ch : Chan} {st : Nat} (h : ∀ a, t.rg a = u.rg a) (hr : u.repliedTo s ch st) :
    t.repliedTo s ch st := by
  obtain ⟨hf, h0, h1⟩ := hr
  exact ⟨(Block.full_congr (h _)).trans hf, (h _).trans h0, (h _).trans h1⟩

/-- What a delivered message leaves when its handling touches no channel: its answer, with what lasts kept. -/
theorem exec_answer_lasting {s : State} {ch : Chan} {type : Nat} {h : Block → List Word → Answer} {a : Answer}
    (hd : s.blk.delivers ch type) (hb : s.blk.backFree ch) (ha : h (s.blk.msgTaken ch) (s.blk.msgWords ch) = a)
    (hr : a.blk.rg (chBack ch + 0x44) = (s.blk.msgTaken ch).rg (chBack ch + 0x44)) (hm : a.blk.mbx = (s.blk.msgTaken ch).mbx) :
    ∃ t : State, onBlk (fun b => b.message ch type h) s = .next t ∧ t.pending = s.pending ∧
      t.blk.repliedTo s.blk ch a.status ∧ (∀ i, i + 2 < 16 → t.blk.rg (chBack ch + 4 * (i + 2)) = a.regs.getD i 0) ∧
      t.blk = s.blk.lasting (a.blk.reply ch (mreg (s.blk.msgWords ch) 0 :: w32 a.status :: a.regs)) := by
  subst ha
  have hfree := Block.backFree_congr hr (Block.box_congr hm) (Block.backFree_msgTaken hb)
  obtain ⟨hfull, hregs⟩ := Block.reply_free hfree (mreg (s.blk.msgWords ch) 0 ::
    w32 (h (s.blk.msgTaken ch) (s.blk.msgWords ch)).status :: (h (s.blk.msgTaken ch) (s.blk.msgWords ch)).regs)
  obtain ⟨t, hx, hp, ht⟩ := onBlk_lasting_next (fun b => b.message ch type h) s
  rw [Block.message_delivers hd h] at ht
  have hrg : ∀ a, t.blk.rg a = _ := fun a => ht ▸ Block.rg_lasting s.blk _ a
  exact ⟨t, hx, hp, Block.repliedTo_congr hrg ⟨hfull, hregs 0 (by omega), hregs 1 (by omega)⟩,
    fun i hi => (hrg _).trans (hregs (i + 2) hi), ht⟩

@[simp] theorem Block.lasting_fuses (a b : Block) : (a.lasting b).trust.fuses = a.trust.fuses.keep b.trust.fuses := (rfl)
@[simp] theorem Block.lasting_vOwed (a b : Block) : (a.lasting b).vOwed = b.vOwed := (rfl)

/-! ### The gate of ROOT's messages (R486, R498) -/

theorem Block.lcState_msgTaken (s : Block) (ch : Chan) : (s.msgTaken ch).lcState = s.lcState :=
  congrArg (fun w : Word => w.fld 2 0) (s.rg_msgTaken_offMail ch (a := MOR_LC) (by decide) (by decide) (by decide))

theorem Block.lcPending_msgTaken (s : Block) (ch : Chan) : (s.msgTaken ch).lcPending = s.lcPending :=
  congrArg (fun w : Word => w.bit 6) (s.rg_msgTaken_offMail ch (a := MOR_LC) (by decide) (by decide) (by decide))

theorem Block.scrapped_msgTaken (s : Block) (ch : Chan) : (s.msgTaken ch).scrapped = s.scrapped := by
  rw [Block.scrapped, Block.lcState_msgTaken, Block.scrapped]

/-- The detail with which a message is turned away before its own handling, 0 where it is not. -/
def Block.trustGate (s : Block) (s0Only : Bool) (ch : Chan) : Nat :=
  if s0Only && ch != .s0 then DENIED 0x10 else if s.scrapped then DENIED 0x0B else if s.fw.loaded then 0 else NOT_READY 0x11

theorem Block.trustGate_msgTaken (s : Block) (s0Only : Bool) (ch : Chan) :
    (s.msgTaken ch).trustGate s0Only ch = s.trustGate s0Only ch := by
  rw [Block.trustGate, Block.scrapped_msgTaken, Block.msgTaken_fw, Block.trustGate]

theorem Block.trustMsg_eq (s : Block) (s0Only : Bool) (ch : Chan) (h : Answer) :
    s.trustMsg s0Only ch h = if s.trustGate s0Only ch = 0 then h else s.no (s.trustGate s0Only ch) := by
  unfold Block.trustMsg Block.trustGate
  cases (s0Only && ch != .s0) <;> cases s.scrapped <;> cases s.fw.loaded <;> rfl

theorem Block.trustMsg_shut {s : Block} {s0Only : Bool} {ch : Chan} (h : Answer) (hg : s.trustGate s0Only ch ≠ 0) :
    s.trustMsg s0Only ch h = s.no (s.trustGate s0Only ch) := (Block.trustMsg_eq ..).trans (if_neg hg)

theorem Block.trustMsg_open {s : Block} {s0Only : Bool} {ch : Chan} (h : Answer) (hg : s.trustGate s0Only ch = 0) :
    s.trustMsg s0Only ch h = h := (Block.trustMsg_eq ..).trans (if_pos hg)

/-- A message on which ROOT acts, on a pair that it is for, passes the gate. -/
theorem Block.trusts.gate {s : Block} {ch : Chan} {type : Nat} {s0Only : Bool} (h : s.trusts ch type)
    (ho : (s0Only && ch != .s0) = false) : (s.msgTaken ch).trustGate s0Only ch = 0 := by
  obtain ⟨-, -, hl, hs⟩ := h
  rw [Block.trustGate_msgTaken, Block.trustGate, ho, hs, hl]
  rfl

/-! ### Refusals -/

/-- A message turned away before its own handling. -/
theorem exec_trust_shut {s : State} {i : Instr} {ch : Chan} {ty st : Nat} {only : Bool} (hi : Instr.trust i = some (ch, ty, only))
    (hd : s.blk.delivers ch ty) (hb : s.blk.backFree ch) (hst : st = s.blk.trustGate only ch) (h0 : st ≠ 0) :
    ∃ t : State, exec i s = .next t ∧ t.pending = s.pending ∧ t.blk.repliedTo s.blk ch st ∧ t.blk.mailBack s.blk = s.blk := by
  have key : ∃ h : Block → List Word → Answer,
      exec i s = onBlk (fun b => b.message ch ty fun b ws => b.trustMsg only ch (h b ws)) s := by
    cases i <;> cases hi <;> exact ⟨_, rfl⟩
  obtain ⟨h, hi⟩ := key
  rw [hi]
  have hg := s.blk.trustGate_msgTaken only ch
  rw [hst] at h0 ⊢
  obtain ⟨t, hx, hp, hr, -, hm, -⟩ := exec_told (h := fun b ws => b.trustMsg only ch (h b ws)) (st := s.blk.trustGate only ch)
    (regs := []) hd hb (by rw [Block.trustMsg_shut _ (hg.symm ▸ h0), hg]; rfl)
  exact ⟨t, hx, hp, hr, hm⟩

/-- A message on which ROOT acts and that it refuses without an effect. -/
theorem exec_trust_no {s : State} {i : Instr} {ch : Chan} {ty st : Nat} {only : Bool} {h : Block → List Word → Answer}
    (ht : s.blk.trusts ch ty) (ho : (only && ch != .s0) = false)
    (ha : h (s.blk.msgTaken ch) (s.blk.msgWords ch) = (s.blk.msgTaken ch).no st)
    (hi : exec i s = onBlk (fun b => b.message ch ty fun b ws => b.trustMsg only ch (h b ws)) s) :
    ∃ t : State, exec i s = .next t ∧ t.pending = s.pending ∧ t.blk.repliedTo s.blk ch st ∧ t.blk.mailBack s.blk = s.blk := by
  have hg := ht.gate ho
  obtain ⟨hd, hb, -, -⟩ := ht
  obtain ⟨t, hx, hp, hr, -, hm, -⟩ := exec_told (h := fun b ws => b.trustMsg only ch (h b ws)) (st := st) (regs := []) hd hb
    ((Block.trustMsg_open _ hg).trans ha)
  exact ⟨t, hi.trans hx, hp, hr, hm⟩

/-! ### The register of the life cycle -/

theorem Fuses.state_le_four (f : Fuses) : f.state ≤ 4 := by
  unfold Fuses.state
  split_ifs <;> omega

theorem b2n_le_one (b : Bool) : b2n b ≤ 1 := by cases b <;> decide

/-- A word from the fields that MOR_LC holds in its low nine bits. -/
theorem Word.lifeCycle_fields {w : Word} {n p a b : Nat} (h : w.fld 8 0 = n + p * 8 + a * 128 + b * 256) (hn : n < 8)
    (hp : p < 16) : w.fld 2 0 = n ∧ w.fld 5 3 = p % 8 ∧ (w.bit 6 = true ↔ 8 ≤ p) := by
  have h : w.toNat / 1 % 512 = n + p * 8 + a * 128 + b * 256 := h
  refine ⟨?_, ?_, ?_⟩
  · show w.toNat / 1 % 8 = n
    omega
  · show w.toNat / 8 % 8 = p % 8
    omega
  · rw [Word.bit, Nat.testBit_eq_decide_div_mod_eq, decide_eq_true_iff]
    omega

theorem Block.setLc_fields {s : Block} {n : Nat} (hn : n < 8) :
    (s.setLc n).lcState = n ∧
    (s.trust.fuses.state ≠ n → (s.setLc n).lcPending = true ∧ (s.setLc n).fld MOR_LC 5 3 = s.trust.fuses.state) := by
  have h4 := s.trust.fuses.state_le_four
  obtain ⟨a, ha⟩ : ∃ a, a = b2n (s.bit MOR_LC 7 || n == 0 || n == 3) := ⟨_, rfl⟩
  obtain ⟨b, hb⟩ : ∃ b, b = b2n s.trust.fuses.ownerOk := ⟨_, rfl⟩
  have ha1 : a ≤ 1 := ha ▸ b2n_le_one _
  have hb1 : b ≤ 1 := hb ▸ b2n_le_one _
  obtain ⟨p, hp⟩ : ∃ p, p = if s.trust.fuses.state = n then 0 else s.trust.fuses.state + 8 := ⟨_, rfl⟩
  have hp16 : p < 16 := by
    rw [hp]
    split <;> omega
  have hw : ((s.setLc n).rg MOR_LC).fld 8 0 = n + p * 8 + a * 128 + b * 256 := by
    have he : (if s.trust.fuses.state != n then s.trust.fuses.state * 8 + 64 else 0) = p * 8 := by
      rw [hp]
      by_cases he : s.trust.fuses.state = n
      · simp [he]
      · simp only [bne_iff_ne, ne_eq, he, not_false_eq_true, if_true, if_false]
        omega
    refine (Block.fld_wf_same s MOR_LC _ (by omega) (by omega)).trans ?_
    rw [he, ← ha, ← hb]
    omega
  obtain ⟨h2, h5, h6⟩ := Word.lifeCycle_fields hw hn hp16
  refine ⟨h2, fun hne => ⟨h6.mpr ?_, h5.trans ?_⟩⟩
  · rw [hp, if_neg hne]
    omega
  · rw [hp, if_neg hne]
    omega

/-! ### Fuses blown by a message -/

theorem Block.rg_blow (s : Block) (f : Fuses → Fuses) {a : Nat} (h : a ≠ MOR_LC) : (s.blow f).rg a = s.rg a :=
  Block.rg_wf_other _ _ _ _ h

/-- A transition: its fuses are blown, the state in force stands, and the one that the fuses hold is pending (R484, R485). -/
theorem exec_blown {s : State} {ch : Chan} {type new : Nat} {h : Block → List Word → Answer} {f : Fuses → Fuses}
    (hd : s.blk.delivers ch type) (hb : s.blk.backFree ch)
    (ha : h (s.blk.msgTaken ch) (s.blk.msgWords ch) = (((s.blk.msgTaken ch).blow f).lcEvent new ch).yes) :
    ∃ t : State, onBlk (fun b => b.message ch type h) s = .next t ∧ t.pending = s.pending ∧ t.blk.repliedTo s.blk ch OK ∧
      t.blk.trust.fuses = s.blk.trust.fuses.keep (f s.blk.trust.fuses) ∧ t.blk.lcState = s.blk.lcState ∧
      ((f s.blk.trust.fuses).state ≠ s.blk.lcState →
        t.blk.lcPending = true ∧ t.blk.fld MOR_LC 5 3 = (f s.blk.trust.fuses).state) ∧
      { t.blk.mailBack s.blk with trust := s.blk.trust } = s.blk := by
  have hback : ∀ k, k < 0x100 → chBack ch + k ≠ MOR_LC := fun k hk => (chBack_ne_of_offMail ch (a := MOR_LC) (by decide) hk).symm
  obtain ⟨t, hx, hp, hr, -, ht⟩ := exec_answer_lasting hd hb ha
    ((Block.rg_event _ _ _ _ (chBack_ne_ice ch _ (by omega))).trans (Block.rg_blow _ _ (hback _ (by omega))))
    ((Block.event_mbx ..).trans (by simp [Block.blow, Block.setLc]))
  have hreg : t.blk.rg MOR_LC = ((s.blk.msgTaken ch).blow f).rg MOR_LC := by
    rw [ht, Block.rg_lasting, Block.rg_reply_offMail _ _ _ (by decide) (by decide) (by decide)]
    exact Block.rg_event _ _ _ _ (by decide)
  obtain ⟨b, hb⟩ : ∃ b : Block, b = { s.blk.msgTaken ch with
      trust := { (s.blk.msgTaken ch).trust with fuses := f (s.blk.msgTaken ch).trust.fuses } } := ⟨_, rfl⟩
  have hblow : (s.blk.msgTaken ch).blow f = b.setLc s.blk.lcState := by
    rw [Block.blow, s.blk.lcState_msgTaken ch, ← hb]
  obtain ⟨hst, hpend⟩ := Block.setLc_fields (s := b) (n := s.blk.lcState) (Word.fld_lt _ 2 0)
  have hfuses : b.trust.fuses = f s.blk.trust.fuses := by
    rw [hb]
    exact congrArg f (by rw [Block.msgTaken_trust])
  rw [hblow] at hreg
  rw [hfuses] at hpend
  refine ⟨t, hx, hp, hr, ?_, ?_, fun hne => ?_, ?_⟩
  · rw [ht]
    show s.blk.trust.fuses.keep _ = _
    rw [Block.reply_trust]
    show s.blk.trust.fuses.keep (((s.blk.msgTaken ch).blow f).lcEvent new ch).trust.fuses = _
    rw [Block.lcEvent, Block.event_trust, hblow]
    exact congrArg _ ((congrArg Trust.fuses (Block.wf_trust ..)).trans hfuses)
  · exact (congrArg (fun w : Word => w.fld 2 0) hreg).trans hst
  · obtain ⟨h6, h5⟩ := hpend hne
    exact ⟨(congrArg (fun w : Word => w.bit 6) hreg).trans h6, (congrArg (fun w : Word => w.fld 5 3) hreg).trans h5⟩
  · rw [ht]
    simp [Block.mailBack, Block.yes, Block.lcEvent, Block.blow, Block.setLc]

theorem LcBit.or_set (x : LcBit) : x.or LcBit.set = LcBit.set := by simp [LcBit.or, LcBit.set]

theorem wordsBytes_length (l : List Word) : (wordsBytes l).length = 4 * l.length := by
  have hle : ∀ n x, (leBytes n x).length = n := by
    intro n
    induction n with
    | zero => exact fun _ => rfl
    | succ n ih => exact fun x => congrArg (· + 1) (ih _)
  induction l with
  | nil => rfl
  | cons w l ih =>
    rw [wordsBytes, List.flatMap_cons, List.length_append, hle, List.length_cons]
    exact (congrArg (4 + ·) ih).trans (by omega)

/-- A byte that leaves what is blown blown takes its whole value. -/
theorem Byte.or_of_covers {x y : Byte} (h : x &&& ~~~y = 0) : x ||| y = y := by
  refine BitVec.eq_of_getLsbD_eq fun j hj => ?_
  have hb := congrArg (fun b : Byte => b.getLsbD j) h
  simp only [BitVec.getLsbD_and, BitVec.getLsbD_not, hj, decide_true, Bool.true_and] at hb
  rw [BitVec.getLsbD_or]
  cases hx : x.getLsbD j
  · rfl
  · rw [hx] at hb
    simpa using hb

theorem digest48_length (l : List Byte) : (digest48 l).length = 48 := by simp [digest48]

theorem getD_digest48 (l : List Byte) {i : Nat} (h : i < 48) : (digest48 l).getD i 0 = l.getD i 0 := by
  simp only [digest48, List.getD_eq_getElem?_getD, List.getElem?_take_of_lt h, List.getElem?_append, List.getElem?_replicate]
  split
  · rfl
  · rename_i hl
    rw [List.getElem?_eq_none (by omega)]
    split <;> rfl

/-- The owner's digest, blown over what is blown already, is the one asked for. -/
theorem digest48_orBytes {blown want : List Byte} (hc : covers blown want = true) (hw : want.length = 48) :
    digest48 (orBytes blown want) = want := by
  refine List.ext_getElem ((digest48_length _).trans hw.symm) fun i hi hi' => ?_
  have h48 : i < 48 := hw ▸ hi'
  have hz : ∀ j, j < 48 → blown.getD j 0 &&& ~~~want.getD j 0 = 0 := by
    intro j hj
    have hm := List.all_eq_true.mp hc (((digest48 blown).zip (digest48 want))[j]'(by simp [digest48_length, hj]))
      (List.getElem_mem _)
    rw [List.getElem_zip] at hm
    have hm := eq_of_beq hm
    rwa [← List.getD_eq_getElem _ 0, ← List.getD_eq_getElem _ 0, getD_digest48 _ hj, getD_digest48 _ hj] at hm
  rw [← List.getD_eq_getElem _ 0, ← List.getD_eq_getElem _ 0, getD_digest48 _ h48, getD_orBytes]
  exact Byte.or_of_covers (hz i h48)

/-! ### Challenges -/

/-- The block with the next nonce drawn for a pair. -/
def Block.challenged (s : Block) (ch : Chan) : Block :=
  { s.drawn with trust := { s.trust with nonces := kput s.trust.nonces (pairIndex ch) (leBytes 32 s.freeVal) } }

theorem exec_lcChallenge {s : State} {ch : Chan} (hd : s.blk.delivers ch 0x0A01) (hb : s.blk.backFree ch)
    (hl : s.blk.scrapped = true ∨ s.blk.fw.loaded = true) :
    ∃ t : State, exec (.lcChallenge ch) s = .next t ∧ t.pending = s.pending ∧ t.blk.repliedTo s.blk ch OK ∧
      (∀ i, i + 2 < 16 → t.blk.rg (chBack ch + 4 * (i + 2)) = (bytesWords 8 (leBytes 32 s.blk.freeVal)).getD i 0) ∧
      t.blk.mailBack s.blk = s.blk.challenged ch := by
  have hg : (!(s.blk.msgTaken ch).scrapped && !(s.blk.msgTaken ch).fw.loaded) = false := by
    rw [Block.scrapped_msgTaken, Block.msgTaken_fw]
    obtain h | h := hl <;> simp [h]
  have hv : (s.blk.msgTaken ch).freeVal = s.blk.freeVal := congrArg Config.free (Block.msgTaken_freeCtr ..)
  obtain ⟨t, hx, hp, hr, hregs, ht⟩ := exec_answer (type := 0x0A01)
    (h := fun s _ =>
      if !s.scrapped && !s.fw.loaded then s.no (NOT_READY 0x11) else
      let n := leBytes 32 s.freeVal
      let s := s.drawn
      ({ s with trust := { s.trust with nonces := kput s.trust.nonces (pairIndex ch) n } }).yes (bytesWords 8 n))
    (a := ((s.blk.msgTaken ch).challenged ch).yes (bytesWords 8 (leBytes 32 s.blk.freeVal))) hd hb
    (by simp only [hg, Bool.false_eq_true, if_false, hv, Block.challenged, Block.drawn_trust]) rfl rfl
    (by simp [Block.challenged, Block.yes]) (by simp [Block.challenged, Block.yes])
  refine ⟨t, hx, hp, hr, hregs, ?_⟩
  rw [ht]
  simp [Block.challenged, Block.yes, Block.mailBack, hv, Block.drawn]

theorem exec_lcChallenge_early {s : State} {ch : Chan} (hd : s.blk.delivers ch 0x0A01) (hb : s.blk.backFree ch)
    (hs : s.blk.scrapped = false) (hl : s.blk.fw.loaded = false) :
    ∃ t : State, exec (.lcChallenge ch) s = .next t ∧ t.pending = s.pending ∧ t.blk.repliedTo s.blk ch (NOT_READY 0x11) ∧
      t.blk.mailBack s.blk = s.blk := by
  obtain ⟨t, hx, hp, hr, -, hm, -⟩ := exec_told (type := 0x0A01) (st := NOT_READY 0x11) (regs := [])
    (h := fun s _ =>
      if !s.scrapped && !s.fw.loaded then s.no (NOT_READY 0x11) else
      let n := leBytes 32 s.freeVal
      let s := s.drawn
      ({ s with trust := { s.trust with nonces := kput s.trust.nonces (pairIndex ch) n } }).yes (bytesWords 8 n)) hd hb
    (if_pos (by rw [Block.scrapped_msgTaken, Block.msgTaken_fw, hs, hl]; rfl))
  exact ⟨t, hx, hp, hr, hm⟩

/-! ### Transitions of the owner -/

/-- What LC_ADVANCE does past the gate. -/
def lcAdvanceAnswer (ch : Chan) (s : Block) (ws : List Word) : Answer :=
  let target := (mreg ws 1).toNat
  let want := wordsBytes ((List.range 12).map fun i => mreg ws (2 + i))
  if s.lcPending then s.no (BUSY 0x05)
  else if s.lcState = 0 ∧ target = 1 then
    if covers s.trust.fuses.ownerDigest want then
      ((s.blow fun f => { f with ownerDigest := want, ownerValid := true, develop := LcBit.set }).lcEvent 1 ch).yes
    else s.no (REFUSED 0x04)
  else if s.lcState = 1 ∧ target = 2 then ((s.blow fun f => { f with field := LcBit.set }).lcEvent 2 ch).yes
  else s.no (REFUSED 0x04)

theorem exec_lcAdvance (ch : Chan) (s : State) :
    exec (.lcAdvance ch) s = onBlk (fun b => b.message ch 0x0A02 fun b ws => b.trustMsg false ch (lcAdvanceAnswer ch b ws)) s := rfl

theorem lcAdvanceAnswer_refused {s : State} {ch : Chan} {st : Nat} (hst : st ≠ OK)
    (h : st = (if s.blk.lcPending then BUSY 0x05 else if s.blk.lcState = 0 ∧ (mreg (s.blk.msgWords ch) 1).toNat = 1 ∨
      s.blk.lcState = 1 ∧ (mreg (s.blk.msgWords ch) 1).toNat = 2 then OK else REFUSED 0x04)) :
    lcAdvanceAnswer ch (s.blk.msgTaken ch) (s.blk.msgWords ch) = (s.blk.msgTaken ch).no st := by
  subst h
  unfold lcAdvanceAnswer
  simp only [Block.lcPending_msgTaken, Block.lcState_msgTaken]
  by_cases hp : s.blk.lcPending = true
  · rw [if_pos hp, if_pos hp]
  · rw [if_neg hp] at hst ⊢
    rw [if_neg hp]
    by_cases ht : s.blk.lcState = 0 ∧ (mreg (s.blk.msgWords ch) 1).toNat = 1 ∨
      s.blk.lcState = 1 ∧ (mreg (s.blk.msgWords ch) 1).toNat = 2
    · exact absurd (if_pos ht) hst
    · obtain ⟨h0, h1⟩ := not_or.mp ht
      rw [if_neg ht, if_neg h0, if_neg h1]

/-- Fuses after DEVELOP is blown with the owner's digest. -/
def Fuses.owned (want : List Byte) (f : Fuses) : Fuses := { f with ownerDigest := want, ownerValid := true, develop := LcBit.set }
/-- Fuses after FIELD is blown. -/
def Fuses.fielded (f : Fuses) : Fuses := { f with field := LcBit.set }

theorem Fuses.state_owned {f : Fuses} (want : List Byte) (h : f.state = 0) : (f.owned want).state = 1 := by
  unfold Fuses.state at h
  unfold Fuses.owned Fuses.state
  split_ifs at h with h4 h3 h2
  rw [if_neg h4, if_neg h3, if_neg h2]
  rfl

theorem Fuses.state_fielded {f : Fuses} (h : f.state = 1) : f.fielded.state = 2 := by
  unfold Fuses.state at h
  unfold Fuses.fielded Fuses.state
  split_ifs at h with h4 h3 h2 h1 <;> cases h
  rw [if_neg h4, if_neg h3]
  rfl

theorem lcAdvanceAnswer_develop {s : State} {ch : Chan} {want : List Byte} (hp : s.blk.lcPending = false)
    (h0 : s.blk.lcState = 0) (ht : (mreg (s.blk.msgWords ch) 1).toNat = 1)
    (hw : want = wordsBytes ((List.range 12).map fun i => mreg (s.blk.msgWords ch) (2 + i)))
    (hc : covers s.blk.trust.fuses.ownerDigest want = true) :
    lcAdvanceAnswer ch (s.blk.msgTaken ch) (s.blk.msgWords ch) =
      (((s.blk.msgTaken ch).blow (Fuses.owned want)).lcEvent 1 ch).yes := by
  subst hw
  unfold lcAdvanceAnswer
  simp only [Block.lcPending_msgTaken, Block.lcState_msgTaken, Block.msgTaken_trust]
  rw [if_neg (by rw [hp]; decide), if_pos ⟨h0, ht⟩, if_pos hc]
  rfl

theorem lcAdvanceAnswer_field {s : State} {ch : Chan} (hp : s.blk.lcPending = false) (h1 : s.blk.lcState = 1)
    (ht : (mreg (s.blk.msgWords ch) 1).toNat = 2) :
    lcAdvanceAnswer ch (s.blk.msgTaken ch) (s.blk.msgWords ch) =
      (((s.blk.msgTaken ch).blow Fuses.fielded).lcEvent 2 ch).yes := by
  unfold lcAdvanceAnswer
  simp only [Block.lcPending_msgTaken, Block.lcState_msgTaken]
  rw [if_neg (by rw [hp]; decide), if_neg (by omega), if_pos ⟨h1, ht⟩]
  rfl

/-! ### Floors -/

theorem Block.versionOf_msgTaken (s : Block) (ch : Chan) {id : Nat} (h : id ≤ 7) : (s.msgTaken ch).versionOf id = s.versionOf id := by
  have ha : RIME_VERSION id = 0x00600004 + 0x40 * id := rfl
  have h1 : ICE_DROPPED = 0x0040001C := rfl
  have h2 : LDG_STATUS = 0x00500000 := rfl
  unfold Block.versionOf
  rw [Block.msgTaken_fw, Block.rg_msgTaken_offMail s ch (by rw [ha]; right; omega) (by omega) (by omega)]

/-- What LC_FLOOR does past the gate. -/
def lcFloorAnswer (s : Block) (ws : List Word) : Answer :=
  let id := (mreg ws 1).toNat
  let v := (mreg ws 2).toNat
  if s.lcState ≠ 1 ∧ s.lcState ≠ 2 then s.no (DENIED 0x0A)
  else if 7 < id ∨ 64 < v ∨ (s.versionOf id).fld 31 24 < v then s.no (REFUSED 0x0C)
  else
    let old := s.trust.fuses.floors.getD id 0
    if v ≤ old then s.yes
    else
      let s := { s with trust := { s.trust with fuses := { s.trust.fuses with floors := s.trust.fuses.floors.set id v } } }
      ((s.wf (MOR_LC_FLOOR id) 6 0 v).event (srcCore 0) 0x0805 [w32 id, w32 old, w32 v]).yes

theorem exec_lcFloor (ch : Chan) (s : State) :
    exec (.lcFloor ch) s = onBlk (fun b => b.message ch 0x0A05 fun b ws => b.trustMsg false ch (lcFloorAnswer b ws)) s := rfl

theorem lcFloorAnswer_refused {s : State} {ch : Chan} {st id v : Nat} (hst : st ≠ OK) (hid : id = (mreg (s.blk.msgWords ch) 1).toNat)
    (hv : v = (mreg (s.blk.msgWords ch) 2).toNat)
    (h : st = (if s.blk.lcState ≠ 1 ∧ s.blk.lcState ≠ 2 then DENIED 0x0A
      else if 7 < id ∨ 64 < v ∨ (s.blk.versionOf id).fld 31 24 < v then REFUSED 0x0C else OK)) :
    lcFloorAnswer (s.blk.msgTaken ch) (s.blk.msgWords ch) = (s.blk.msgTaken ch).no st := by
  subst hid hv h
  unfold lcFloorAnswer
  simp only [Block.lcState_msgTaken]
  by_cases hl : s.blk.lcState ≠ 1 ∧ s.blk.lcState ≠ 2
  · rw [if_pos hl, if_pos hl]
  · rw [if_neg hl] at hst ⊢
    rw [if_neg hl]
    by_cases h7 : 7 < (mreg (s.blk.msgWords ch) 1).toNat
    · rw [if_pos (Or.inl h7), if_pos (Or.inl h7)]
    · rw [Block.versionOf_msgTaken _ _ (Nat.le_of_not_lt h7)]
      by_cases hv : 7 < (mreg (s.blk.msgWords ch) 1).toNat ∨ 64 < (mreg (s.blk.msgWords ch) 2).toNat ∨
          (s.blk.versionOf (mreg (s.blk.msgWords ch) 1).toNat).fld 31 24 < (mreg (s.blk.msgWords ch) 2).toNat
      · rw [if_pos hv, if_pos hv]
      · exact absurd (if_neg hv) hst

/-- The block with a floor raised. -/
def Block.floored (s : Block) (id v : Nat) : Block :=
  (({ s with trust := { s.trust with fuses := { s.trust.fuses with floors := s.trust.fuses.floors.set id v } } } : Block).wf
    (MOR_LC_FLOOR id) 6 0 v).event (srcCore 0) 0x0805 [w32 id, w32 (s.trust.fuses.floors.getD id 0), w32 v]

theorem lcFloorAnswer_valid {s : State} {ch : Chan} {id v : Nat} (hl : s.blk.lcState = 1 ∨ s.blk.lcState = 2)
    (hid : id = (mreg (s.blk.msgWords ch) 1).toNat) (hv : v = (mreg (s.blk.msgWords ch) 2).toNat) (h7 : id ≤ 7) (h64 : v ≤ 64)
    (hver : v ≤ (s.blk.versionOf id).fld 31 24) :
    lcFloorAnswer (s.blk.msgTaken ch) (s.blk.msgWords ch) =
      if v ≤ s.blk.trust.fuses.floors.getD id 0 then (s.blk.msgTaken ch).yes else ((s.blk.msgTaken ch).floored id v).yes := by
  subst hid hv
  unfold lcFloorAnswer
  simp only [Block.lcState_msgTaken, Block.versionOf_msgTaken _ _ h7, Block.msgTaken_trust]
  rw [if_neg (by omega), if_neg (by omega)]
  split
  · rfl
  · simp only [Block.floored, Block.msgTaken_trust]

theorem maxFloors_set (l : List Nat) (i v : Nat) (h : l.getD i 0 ≤ v) : maxFloors l (l.set i v) = l.set i v := by
  induction l generalizing i with
  | nil => rfl
  | cons x xs ih =>
    cases i with
    | zero => simpa [maxFloors, maxFloors_self] using h
    | succ i => simpa [maxFloors] using ih i h

theorem MOR_LC_FLOOR_offMail {id : Nat} (h : id ≤ 7) :
    offMail (MOR_LC_FLOOR id) ∧ MOR_LC_FLOOR id ≠ ICE_DROPPED ∧ MOR_LC_FLOOR id ≠ LDG_STATUS := by
  have e : MOR_LC_FLOOR id = 0x00000210 + 4 * id := rfl
  have h1 : ICE_DROPPED = 0x0040001C := rfl
  have h2 : LDG_STATUS = 0x00500000 := rfl
  exact ⟨Or.inl (by omega), by omega, by omega⟩

theorem exec_lcFloor_raised {s : State} {ch : Chan} {id v : Nat} (ht : s.blk.trusts ch 0x0A05)
    (hl : s.blk.lcState = 1 ∨ s.blk.lcState = 2) (hid : id = (mreg (s.blk.msgWords ch) 1).toNat)
    (hv : v = (mreg (s.blk.msgWords ch) 2).toNat) (h7 : id ≤ 7) (h64 : v ≤ 64) (hver : v ≤ (s.blk.versionOf id).fld 31 24)
    (hold : s.blk.trust.fuses.floors.getD id 0 < v) :
    ∃ t : State, exec (.lcFloor ch) s = .next t ∧ t.pending = s.pending ∧ t.blk.repliedTo s.blk ch OK ∧
      t.blk.trust.fuses = { s.blk.trust.fuses with floors := s.blk.trust.fuses.floors.set id v } ∧
      t.blk.fld (MOR_LC_FLOOR id) 6 0 = v ∧ { t.blk.mailBack s.blk with trust := s.blk.trust } = s.blk := by
  obtain ⟨hoff, hice, hldg⟩ := MOR_LC_FLOOR_offMail h7
  have hg := ht.gate (s0Only := false) rfl
  obtain ⟨hd, hb, -, -⟩ := ht
  have ha := lcFloorAnswer_valid hl hid hv h7 h64 hver
  rw [if_neg (Nat.not_le.mpr hold)] at ha
  obtain ⟨t, hx, hp, hr, -, ht⟩ := exec_answer_lasting (h := fun b ws => b.trustMsg false ch (lcFloorAnswer b ws)) hd hb
    ((Block.trustMsg_open _ hg).trans ha)
    ((Block.rg_event _ _ _ _ (chBack_ne_ice ch _ (by omega))).trans
      (Block.rg_wf_other _ _ _ _ (chBack_ne_of_offMail ch hoff (by omega)).symm))
    ((Block.event_mbx ..).trans (Block.wf_mbx ..))
  refine ⟨t, (exec_lcFloor ch s).trans hx, hp, hr, ?_, ?_, ?_⟩
  · have hk : t.blk.trust.fuses = s.blk.trust.fuses.keep
        { s.blk.trust.fuses with floors := s.blk.trust.fuses.floors.set id v } := by
      rw [ht]
      simp [Block.yes, Block.floored]
    rw [hk]
    simp [Fuses.keep, orBytes_self, maxFloors_set _ _ _ hold.le]
  · have hrg : t.blk.rg (MOR_LC_FLOOR id) = ((s.blk.msgTaken ch).floored id v).rg (MOR_LC_FLOOR id) := by
      rw [ht, Block.rg_lasting, Block.rg_reply_offMail _ _ _ hoff hice hldg]
      rfl
    refine (congrArg (fun w : Word => w.fld 6 0) (hrg.trans (Block.rg_event _ _ _ _ hice))).trans ?_
    exact (Block.fld_wf_same _ _ v (by omega) (by omega)).trans (Nat.mod_eq_of_lt (by omega))
  · rw [ht]
    simp [Block.mailBack, Block.yes, Block.floored]

/-- Settles O53: a challenge draws a nonce, the gate of ROOT's messages comes first, a transition is `exec_blown`, and a floor is
raised or stands. -/
theorem lifeCycle : Obligations.LifeCycle := by
  refine ⟨?challenge, ?early, ?gate, ?develop, ?field, ?noAdvance, ?raised, ?stands, ?noFloor⟩
  case challenge =>
    intro s ch hd hb hl
    obtain ⟨t, hx, hp, hr, hregs, hm⟩ := exec_lcChallenge hd hb hl
    have hn : t.blk.trust.nonces = kput s.blk.trust.nonces (pairIndex ch) (leBytes 32 s.blk.freeVal) :=
      (congrArg (fun b : Block => b.trust.nonces) hm :)
    refine ⟨t, hx, hp, hr, ?_, (congrArg Block.freeCtr hm :), fun i hi => ?_, fun k hk => ?_, ?_⟩
    · rw [hn]
      exact kget_kput_same ..
    · rw [show chBack ch + 8 + 4 * i = chBack ch + 4 * (i + 2) by omega]
      exact hregs i (by omega)
    · rw [hn]
      exact kget_kput_other _ _ hk
    · exact (congrArg (fun b : Block =>
        { b with freeCtr := s.blk.freeCtr, trust := { b.trust with nonces := s.blk.trust.nonces } }) hm :)
  case early => exact fun s ch hd hb hs hl => exec_lcChallenge_early hd hb hs hl
  case gate => exact fun s i ch ty st only hi hd hb hst h0 => exec_trust_shut hi hd hb hst h0
  case develop =>
    intro s ch want ht hp h0 htar hw hc
    have hg := ht.gate (s0Only := false) rfl
    obtain ⟨hd, hb, -, -⟩ := ht
    obtain ⟨t, hx, hpend, hr, hf, hst, hnew, hm⟩ := exec_blown (h := fun b ws => b.trustMsg false ch (lcAdvanceAnswer ch b ws)) hd hb
      ((Block.trustMsg_open _ hg).trans (lcAdvanceAnswer_develop hp h0 htar hw hc))
    refine ⟨t, hx, hpend, hr, ?_, ?_, ?_, hst.trans h0, fun hf0 => ?_, ?_, hm⟩
    · rw [hf]
      exact LcBit.or_set _
    · rw [hf]
      exact Bool.or_true _
    · rw [hf]
      have hlen : want.length = 48 := by rw [hw, wordsBytes_length, List.length_map, List.length_range]
      exact digest48_orBytes hc hlen
    · rw [Fuses.state_owned want hf0, h0] at hnew
      exact hnew (by omega)
    · rw [hf]
      simp [Fuses.keep, Fuses.owned, orBytes_self, maxFloors_self]
  case field =>
    intro s ch ht hp h1 htar
    have hg := ht.gate (s0Only := false) rfl
    obtain ⟨hd, hb, -, -⟩ := ht
    obtain ⟨t, hx, hpend, hr, hf, hst, hnew, hm⟩ := exec_blown (h := fun b ws => b.trustMsg false ch (lcAdvanceAnswer ch b ws)) hd hb
      ((Block.trustMsg_open _ hg).trans (lcAdvanceAnswer_field hp h1 htar))
    refine ⟨t, hx, hpend, hr, ?_, hst.trans h1, fun hf1 => ?_, ?_, hm⟩
    · rw [hf]
      exact LcBit.or_set _
    · rw [Fuses.state_fielded hf1, h1] at hnew
      exact hnew (by omega)
    · rw [hf]
      simp [Fuses.keep, Fuses.fielded, orBytes_self, maxFloors_self]
  case noAdvance =>
    intro s ch st ht hst h0
    exact exec_trust_no ht rfl (lcAdvanceAnswer_refused h0 hst) (exec_lcAdvance ch s)
  case raised =>
    intro s ch id v ht hl hid hv h7 h64 hver hold _
    obtain ⟨t, hx, hp, hr, hf, hfl, hm⟩ := exec_lcFloor_raised ht hl hid hv h7 h64 hver hold
    exact ⟨t, hx, hp, hr, by rw [hf], hfl, by rw [hf], hm⟩
  case stands =>
    intro s ch id v ht hl hid hv h7 h64 hver hold
    refine exec_trust_no ht rfl ?_ (exec_lcFloor ch s)
    rw [lcFloorAnswer_valid hl hid hv h7 h64 hver, if_pos hold]
    rfl
  case noFloor =>
    intro s ch id v st ht hid hv hst h0
    exact exec_trust_no ht rfl (lcFloorAnswer_refused h0 hid hv hst) (exec_lcFloor ch s)

end Sys2Proof.Machine
end

section
/-! Attestation reports, link keys, and the sideband's readings (R487, R493 to R496, R520). -/

namespace Sys2Proof.Machine

/-! ### What a message leaves of the start's record -/

/-- The start's record without the answer to a breach. -/
def Start.steady (s : Start) : Start := { s with oldBreach := false }

@[simp] theorem Block.led1_steady (s : Block) (n : Nat) (m : LedgerMove) : (s.led1 n m).start.steady = s.start.steady := by
  unfold Block.led1
  split
  · rfl
  · unfold Block.raiseBreach Block.breachMark Block.breachEvent
    simp only [apply_ite (fun (s : Block) => s.start.steady), Block.wb_start, Block.wf_start, ite_self]
    simp [Start.steady]

theorem Block.msgTaken_steady (s : Block) (ch : Chan) : (s.msgTaken ch).start.steady = s.start.steady := by
  unfold Block.msgTaken Block.chLed
  split
  · exact (Block.led1_steady ..).trans (Block.led1_steady ..)
  · rfl

/-! ### Reports -/

/-- A report rests on the registers of the first page, on what ROOT holds, and on the board records read. -/
theorem Block.report_congr {s t : Block} (ht : t.trust = s.trust) (hr : ∀ a, a < 0x1000 → t.rg a = s.rg a)
    (hb : t.start.recordBytes = s.start.recordBytes) : t.report = s.report := by
  have hlc : t.rg MOR_LC = s.rg MOR_LC := hr _ (by decide)
  have hid : ((List.range 8).map fun k => t.rg (MOR_DEVICE_ID k)) = (List.range 8).map fun k => s.rg (MOR_DEVICE_ID k) :=
    List.map_congr_left fun k hk => hr _ (by
      have h8 := List.mem_range.mp hk
      have e : MOR_DEVICE_ID k = 0x00000240 + 4 * k := rfl
      omega)
  have hfl : ((List.range 8).map fun k => t.rg (MOR_LC_FLOOR k)) = (List.range 8).map fun k => s.rg (MOR_LC_FLOOR k) :=
    List.map_congr_left fun k hk => hr _ (by
      have h8 := List.mem_range.mp hk
      have e : MOR_LC_FLOOR k = 0x00000210 + 4 * k := rfl
      omega)
  have hm : t.measure = s.measure := by
    funext i
    simp only [Block.measure, ht, hb, hlc, hfl]
  have hmb : t.measureBytes = s.measureBytes := by
    funext i
    simp only [Block.measureBytes, ht, hm]
  have hbody : t.reportBody = s.reportBody := by
    funext nonce count
    simp only [Block.reportBody, hlc, hid, hmb, ht]
  funext nonce count
  simp only [Block.report, hbody, ht]

theorem Block.report_msgTaken (s : Block) (ch : Chan) : (s.msgTaken ch).report = s.report :=
  Block.report_congr (Block.msgTaken_trust ..)
    (fun a ha => Block.rg_msgTaken_offMail s ch (Or.inl (by omega))
      (by rw [show ICE_DROPPED = 0x0040001C from rfl]; omega) (by rw [show LDG_STATUS = 0x00500000 from rfl]; omega))
    (congrArg Start.recordBytes (s.msgTaken_steady ch) :)

theorem leBytes_length (n x : Nat) : (leBytes n x).length = n := by
  induction n generalizing x with
  | zero => rfl
  | succ n ih => exact congrArg (· + 1) (ih _)

theorem fitTo_length (n : Nat) (l : List Byte) : (fitTo n l).length = n := by simp [fitTo]

theorem Block.measureBytes_length (s : Block) (i : Nat) : (s.measureBytes i).length = 56 := by
  simp [Block.measureBytes, leBytes_length, digest48_length]

/-- A report is 5,965 bytes long (R495). -/
theorem Block.report_length (s : Block) (nonce : List Byte) (count : Nat) : (s.report nonce count).length = reportBytes := by
  have hm : ((List.range 11).flatMap s.measureBytes).length = 616 := by
    simp [List.length_flatMap, Block.measureBytes_length]
  simp only [Block.report, Block.reportBody, List.length_append, leBytes_length, fitTo_length, wordsBytes_length, List.length_map,
    List.length_range, hm]
  rfl

/-! ### ATTEST and ATTEST_READ -/

theorem Block.writeReply_hostMem (s : Block) (ch : Chan) (ws : List Word) (l : List (List Word)) :
    (s.writeReply ch ws l).env.hostMem = s.env.hostMem := by
  have he : ∀ b : Block, (b.chLed ch fun s n => s.ledTake n 1).env = b.env :=
    fun b => Block.chLed_env _ _ _ fun s n => Block.ledTake_env s n 1
  have hm : ∀ (b : Block) f v, (b.msix f v).env.hostMem = b.env.hostMem := fun b f v => rfl
  unfold Block.writeReply
  simp only [apply_ite (fun (s : Block) => s.env.hostMem)]
  rw [hm, ite_self, he]
  simp

/-- A reply leaves the host's memory. -/
theorem Block.reply_hostMem (s : Block) (ch : Chan) (ws : List Word) : (s.reply ch ws).env.hostMem = s.env.hostMem := by
  unfold Block.reply Block.pumpReply
  dsimp only
  split
  · rw [Block.setBox_env]
  · split
    · rw [Block.setBox_env]
    · rw [Block.writeReply_hostMem, Block.setBox_env]

/-- The nonce that ATTEST names. -/
def attestNonce (ws : List Word) : List Byte := wordsBytes ((List.range 8).map fun i => mreg ws (2 + i))

/-- What ATTEST does past the gate. -/
def attestAnswer (ch : Chan) (s : Block) (ws : List Word) : Answer :=
  let s := s.attested ch (attestNonce ws)
  let dma := (mreg ws 1).bit 0 && ch == .s0
  let a := mpair ws 10
  if dma && !s.dmaStopped 0 && !s.hostOk a reportBytes then s.no (ABORTED 0x24)
  else
    let s := if dma then s.hostWrite 0 a ((kget s.trust.reports 0).getD []) else s
    s.yes [w32 reportBytes]

theorem exec_attest (ch : Chan) (s : State) :
    exec (.attest ch) s = onBlk (fun b => b.message ch 0x0A07 fun b ws => b.trustMsg false ch (attestAnswer ch b ws)) s := rfl

theorem attestAnswer_held {ch : Chan} {s : Block} {ws : List Word} (h : ((mreg ws 1).bit 0 && ch == .s0) = false) :
    attestAnswer ch s ws = (s.attested ch (attestNonce ws)).yes [w32 reportBytes] := by
  simp [attestAnswer, h]

/-- What ROOT holds once a report is built for a pair. -/
def Trust.attested (x : Trust) (ch : Chan) (r : List Byte) : Trust :=
  { x with reportCount := x.reportCount + 1, reports := kput x.reports (pairIndex ch) r }

theorem Block.attested_eq (s : Block) (ch : Chan) (nonce : List Byte) :
    s.attested ch nonce = { s with trust := s.trust.attested ch (s.report nonce (s.trust.reportCount + 1)) } := rfl

/-- A report held for its pair and not sent (R495). -/
theorem exec_attest_held {s : State} {ch : Chan} {r : List Byte} (ht : s.blk.trusts ch 0x0A07)
    (hdma : ((mreg (s.blk.msgWords ch) 1).bit 0 && ch == .s0) = false)
    (hr : r = s.blk.report (attestNonce (s.blk.msgWords ch)) (s.blk.trust.reportCount + 1)) :
    ∃ t : State, exec (.attest ch) s = .next t ∧ t.pending = s.pending ∧ t.blk.repliedTo s.blk ch OK ∧
      t.blk.rg (chBack ch + 8) = w32 reportBytes ∧ t.blk.env.hostMem = s.blk.env.hostMem ∧
      t.blk.mailBack s.blk = { s.blk with trust := s.blk.trust.attested ch r } := by
  have hg := ht.gate (s0Only := false) rfl
  obtain ⟨hd, hb, -, -⟩ := ht
  obtain ⟨t, hx, hp, hrep, hregs, ht⟩ := exec_answer (h := fun b ws => b.trustMsg false ch (attestAnswer ch b ws)) hd hb
    ((Block.trustMsg_open _ hg).trans (attestAnswer_held hdma)) rfl rfl (by simp [Block.yes, Block.attested])
    (by simp [Block.yes, Block.attested])
  refine ⟨t, (exec_attest ch s).trans hx, hp, hrep, hregs 0 (by omega), ?_, ?_⟩
  · rw [ht, Block.reply_hostMem]
    exact congrArg Env.hostMem (Block.msgTaken_env ..)
  · rw [ht, Block.mailBack_reply, Block.yes, Block.attested_eq, Block.msgTaken_trust, Block.report_msgTaken, ← hr]
    exact (congrArg (fun b : Block => { b with trust := s.blk.trust.attested ch r }) (Block.mailBack_msgTaken s.blk s.blk ch) :)

theorem Block.dmaStopped_congr {s t : Block} {f : Nat} (hl : t.rg SCH_DRV = s.rg SCH_DRV) (hf : t.fns = s.fns)
    (hs : t.start.linkUp = s.start.linkUp) : t.dmaStopped f = s.dmaStopped f := by
  simp only [Block.dmaStopped, Block.lost, Block.fld, Block.fn_congr hf, hl, hs]

/-- The host's memory with a report in it. -/
def Block.reportSent (s : Block) (a : Nat) (r : List Byte) : Block :=
  { s with env := { s.env with hostMem := memWrite s.env.hostMem a r } }

theorem attestAnswer_sent {s : Block} {ws : List Word} {r : List Byte} (hw : (mreg ws 1).bit 0 = true)
    (hd : s.dmaStopped 0 = false) (ho : s.hostOk (mpair ws 10) reportBytes = true)
    (hr : r = s.report (attestNonce ws) (s.trust.reportCount + 1)) :
    attestAnswer .s0 s ws = (({ s with trust := s.trust.attested .s0 r } : Block).reportSent (mpair ws 10) r).yes [w32 reportBytes] := by
  have hlen : r.length = reportBytes := hr ▸ Block.report_length ..
  have hk0 : kget (s.trust.attested .s0 r).reports 0 = some r := kget_kput_same ..
  have hk : (kget (s.trust.attested .s0 r).reports 0).getD [] = r := by rw [hk0, Option.getD_some]
  have hd' : ({ s with trust := s.trust.attested .s0 r } : Block).dmaStopped 0 = false := hd
  have ho' : ({ s with trust := s.trust.attested .s0 r } : Block).hostOk (mpair ws 10) reportBytes = true := ho
  have hs : (Chan.s0 == Chan.s0) = true := rfl
  unfold attestAnswer
  simp only [Block.attested_eq, ← hr, hw, hs, hd', ho', hk, Block.hostWrite, Block.hostPut, hlen, Block.reportSent]
  rfl

/-- A report written to the host as well (R495). -/
theorem exec_attest_sent {s : State} {a : Nat} {r : List Byte} (ht : s.blk.trusts .s0 0x0A07)
    (hw : (mreg (s.blk.msgWords .s0) 1).bit 0 = true) (hd : s.blk.dmaStopped 0 = false) (ha : a = mpair (s.blk.msgWords .s0) 10)
    (ho : s.blk.hostOk a reportBytes = true)
    (hr : r = s.blk.report (attestNonce (s.blk.msgWords .s0)) (s.blk.trust.reportCount + 1)) :
    ∃ t : State, exec (.attest .s0) s = .next t ∧ t.pending = s.pending ∧ t.blk.repliedTo s.blk .s0 OK ∧
      t.blk.env.hostMem = memWrite s.blk.env.hostMem a r ∧
      t.blk.mailBack s.blk = { s.blk with trust := s.blk.trust.attested .s0 r } := by
  subst ha
  have hg := ht.gate (s0Only := false) rfl
  obtain ⟨hdel, hb, -, -⟩ := ht
  have hd' : (s.blk.msgTaken .s0).dmaStopped 0 = false := by
    rw [Block.dmaStopped_congr (Block.rg_msgTaken_offMail _ _ (by decide) (by decide) (by decide)) (Block.msgTaken_fns ..)
      (congrArg Start.linkUp (s.blk.msgTaken_steady .s0) :)]
    exact hd
  have ho' : (s.blk.msgTaken .s0).hostOk (mpair (s.blk.msgWords .s0) 10) reportBytes = true := by
    rw [Block.hostOk, Block.msgTaken_env]
    exact ho
  have hr' : r = (s.blk.msgTaken .s0).report (attestNonce (s.blk.msgWords .s0)) ((s.blk.msgTaken .s0).trust.reportCount + 1) := by
    rw [Block.report_msgTaken, Block.msgTaken_trust]
    exact hr
  obtain ⟨t, hx, hp, hrep, -, ht⟩ := exec_answer (h := fun b ws => b.trustMsg false .s0 (attestAnswer .s0 b ws)) hdel hb
    ((Block.trustMsg_open _ hg).trans (attestAnswer_sent hw hd' ho' hr')) rfl rfl
    (by simp [Block.yes, Block.reportSent, Trust.attested]) (by simp [Block.yes, Block.reportSent])
  refine ⟨t, (exec_attest .s0 s).trans hx, hp, hrep, ?_, ?_⟩
  · rw [ht, Block.reply_hostMem]
    simp [Block.yes, Block.reportSent]
  · rw [ht, Block.mailBack_reply, Block.msgTaken_trust]
    exact (congrArg (fun b : Block => { b with trust := s.blk.trust.attested .s0 r }) (Block.mailBack_msgTaken s.blk s.blk .s0) :)

/-- Bytes written are read back. -/
theorem memRead_memWrite (m : List Host.Cell) (a : Nat) (bs : List Byte) : memRead (memWrite m a bs) a bs.length = bs := by
  refine List.ext_getElem (by simp [memRead]) fun i hi hi' => ?_
  simp only [memRead, List.getElem_map, List.getElem_range]
  rw [memByte_memWrite_inside _ _ _ _ hi', List.getD_eq_getElem _ 0 hi']

/-- What ATTEST_READ does past the gate. -/
def attestReadAnswer (ch : Chan) (s : Block) (ws : List Word) : Answer :=
  let off := (mreg ws 1).toNat
  match kget s.trust.reports (pairIndex ch) with
  | none => s.no (REFUSED 0x0D)
  | some r =>
    if r.length ≤ off then s.no (REFUSED 0x0D) else s.yes (w32 off :: bytesWords 13 ((r.drop off).take 52))

theorem exec_attestRead (ch : Chan) (s : State) :
    exec (.attestRead ch) s = onBlk (fun b => b.message ch 0x0A08 fun b ws => b.trustMsg false ch (attestReadAnswer ch b ws)) s := rfl

/-! ### Installed keys -/

/-- The key that a message brings. -/
def msgKey (ws : List Word) : LinkKey := { id := mreg ws 2, salt := mreg ws 3, key := (List.range 8).map fun i => mreg ws (4 + i) }

/-- What ESK_KEY_INSTALL does past the gate. -/
def keyInstallAnswer (s : Block) (ws : List Word) : Answer :=
  let p := (mreg ws 1).fld 3 0
  let dir := (mreg ws 1).fld 4 4
  let slot := (mreg ws 1).fld 5 5
  if !s.keysAllowed then s.no (DENIED 0x0A)
  else if s.slotUsed p dir slot then s.no (BUSY 0x0E)
  else
    ({ s with trust := { s.trust with keys := kput s.trust.keys (p * 4 + dir * 2 + slot) (msgKey ws) } }).yes

theorem exec_keyInstall (ch : Chan) (s : State) :
    exec (.eskKeyInstall ch) s = onBlk (fun b => b.message ch 0x0A09 fun b ws => b.trustMsg false ch (keyInstallAnswer b ws)) s := rfl

theorem Block.keysAllowed_msgTaken (s : Block) (ch : Chan) : (s.msgTaken ch).keysAllowed = s.keysAllowed := by
  have h := s.rg_msgTaken_offMail ch (a := MOR_LC) (by decide) (by decide) (by decide)
  simp only [Block.keysAllowed, Block.lcState_msgTaken, Block.bit, h]

theorem Block.slotUsed_msgTaken (s : Block) (ch : Chan) {p : Nat} (hp : p < 16) (dir slot : Nat) :
    (s.msgTaken ch).slotUsed p dir slot = s.slotUsed p dir slot := by
  have e : ESK_STATE p = 0x00800000 + p * 0x80000 + 0 := rfl
  have e1 : ICE_DROPPED = 0x0040001C := rfl
  have e2 : LDG_STATUS = 0x00500000 := rfl
  have h := s.rg_msgTaken_offMail ch (a := ESK_STATE p) (Or.inr (by omega)) (by omega) (by omega)
  simp only [Block.slotUsed, Block.port, Block.msgTaken_esk, Block.bit, h]

/-! ### Keys in use -/

/-- What ESK_KEY_SWITCH does past the gate. -/
def keySwitchAnswer (s : Block) (ws : List Word) : Answer :=
  let p := (mreg ws 1).fld 3 0
  let other := 1 - (s.port p).sendSlot
  if (s.keyId p 0 other).isNone then s.no (REFUSED 0x0E)
  else (s.modPort p fun x => { x with sendSlot := other }).yes

theorem exec_keySwitch (ch : Chan) (s : State) :
    exec (.eskKeySwitch ch) s = onBlk (fun b => b.message ch 0x0A0A fun b ws => b.trustMsg false ch (keySwitchAnswer b ws)) s := rfl

theorem Block.port_congr {s t : Block} (h : t.esk = s.esk) (p : Nat) : t.port p = s.port p := by
  unfold Block.port
  rw [h]

theorem Block.keyId_congr {s t : Block} (h : t.trust = s.trust) (p dir slot : Nat) : t.keyId p dir slot = s.keyId p dir slot := by
  unfold Block.keyId
  rw [h]

@[simp] theorem Block.port_modPort_same (s : Block) (p : Nat) (f : Port → Port) : (s.modPort p f).port p = f (s.port p) :=
  tget_tset_same ..

theorem Block.port_modPort_other (s : Block) {p q : Nat} (f : Port → Port) (h : q ≠ p) : (s.modPort p f).port q = s.port q :=
  tget_tset_other _ _ _ _ h

theorem keyInstallAnswer_installed {s : State} {ch : Chan} {w : Word} {k : Nat} (hw : w = mreg (s.blk.msgWords ch) 1)
    (ha : s.blk.keysAllowed = true) (hu : s.blk.slotUsed (w.fld 3 0) (w.fld 4 4) (w.fld 5 5) = false)
    (hk : k = w.fld 3 0 * 4 + w.fld 4 4 * 2 + w.fld 5 5) :
    keyInstallAnswer (s.blk.msgTaken ch) (s.blk.msgWords ch) =
      ({ s.blk.msgTaken ch with
        trust := { s.blk.trust with keys := kput s.blk.trust.keys k (msgKey (s.blk.msgWords ch)) } } : Block).yes := by
  subst hk hw
  simp only [keyInstallAnswer, Block.keysAllowed_msgTaken, ha, Block.slotUsed_msgTaken _ _ (Word.fld_lt _ 3 0), hu,
    Block.msgTaken_trust]
  rfl

theorem keyInstallAnswer_refused {s : State} {ch : Chan} {w : Word} {st : Nat} (hw : w = mreg (s.blk.msgWords ch) 1)
    (h : s.blk.keysAllowed = false ∧ st = DENIED 0x0A ∨ s.blk.keysAllowed = true ∧
      s.blk.slotUsed (w.fld 3 0) (w.fld 4 4) (w.fld 5 5) = true ∧ st = BUSY 0x0E) :
    keyInstallAnswer (s.blk.msgTaken ch) (s.blk.msgWords ch) = (s.blk.msgTaken ch).no st := by
  subst hw
  simp only [keyInstallAnswer, Block.keysAllowed_msgTaken, Block.slotUsed_msgTaken _ _ (Word.fld_lt _ 3 0)]
  obtain ⟨ha, rfl⟩ | ⟨ha, hu, rfl⟩ := h
  · rw [ha]
    rfl
  · rw [ha, hu]
    rfl

/-- Settles O55: a report is held, sent or read (`exec_attest_held`, `exec_attest_sent`), and keys enter and change slots. -/
theorem attestationAndKeys : Obligations.AttestationAndKeys := by
  refine ⟨?held, ?sent, ?read, ?unread, ?install, ?noInstall, ?switch, ?noSwitch, ?ide, ?noIde, ?pldm, ?noPldm⟩
  case held =>
    intro s ch n r ht hdma hn hr
    subst hn
    obtain ⟨t, hx, hp, hrep, hreg, hmem, hm⟩ := exec_attest_held ht hdma hr
    have htr : t.blk.trust = s.blk.trust.attested ch r := (congrArg Block.trust hm :)
    refine ⟨t, hx, hp, hrep, hreg, hr ▸ Block.report_length .., ?_, ?_, fun k hk => ?_, ?_, hmem, ?_⟩
    · rw [htr]
      exact kget_kput_same ..
    · rw [htr]
      rfl
    · rw [htr]
      exact kget_kput_other _ _ hk
    · rw [htr]
      rfl
    · exact (congrArg (fun b : Block => { b with trust := s.blk.trust }) hm :)
  case sent =>
    intro s a r ht hw hd ha ho hr
    obtain ⟨t, hx, hp, hrep, hmem, hm⟩ := exec_attest_sent ht hw hd ha ho hr
    have hlen : r.length = reportBytes := hr ▸ Block.report_length ..
    have htr : t.blk.trust = s.blk.trust.attested .s0 r := (congrArg Block.trust hm :)
    refine ⟨t, hx, hp, hrep, ?_, ?_, fun b hb => ?_, ?_⟩
    · rw [htr]
      exact kget_kput_same ..
    · rw [Block.hostRead, hmem, ← hlen]
      exact memRead_memWrite ..
    · rw [hmem]
      exact memByte_memWrite_outside _ _ _ _ (hlen ▸ hb)
    · exact (congrArg (fun b : Block => { b with trust := s.blk.trust }) hm :)
  case read =>
    intro s ch off r ht hoff hk hlt
    have hg := ht.gate (s0Only := false) rfl
    obtain ⟨hd, hb, -, -⟩ := ht
    have ha : attestReadAnswer ch (s.blk.msgTaken ch) (s.blk.msgWords ch) =
        { status := OK, regs := w32 off :: bytesWords 13 ((r.drop off).take 52), blk := s.blk.msgTaken ch } := by
      subst hoff
      simp only [attestReadAnswer, Block.msgTaken_trust, hk, if_neg (Nat.not_le.mpr hlt)]
      rfl
    obtain ⟨t, hx, hp, hrep, hregs, hm, -⟩ := exec_told (h := fun b ws => b.trustMsg false ch (attestReadAnswer ch b ws)) hd hb
      ((Block.trustMsg_open _ hg).trans ha)
    refine ⟨t, (exec_attestRead ch s).trans hx, hp, hrep, hregs 0 (by omega), fun i hi => ?_, hm⟩
    rw [show chBack ch + 12 + 4 * i = chBack ch + 4 * ((i + 1) + 2) by omega, hregs (i + 1) (by omega)]
    rfl
  case unread =>
    intro s ch ht hall
    refine exec_trust_no ht rfl ?_ (exec_attestRead ch s)
    simp only [attestReadAnswer, Block.msgTaken_trust]
    cases hk : kget s.blk.trust.reports (pairIndex ch) with
    | none => rfl
    | some r =>
      rw [hk] at hall
      exact if_pos (of_decide_eq_true hall)
  case install =>
    intro s ch w k ht hw ha hu hk
    have hg := ht.gate (s0Only := false) rfl
    obtain ⟨hd, hb, -, -⟩ := ht
    obtain ⟨t, hx, hp, hrep, -, ht⟩ := exec_answer (h := fun b ws => b.trustMsg false ch (keyInstallAnswer b ws)) hd hb
      ((Block.trustMsg_open _ hg).trans (keyInstallAnswer_installed hw ha hu hk)) rfl rfl rfl (by simp [Block.yes])
    have htr : t.blk.trust = _ := (congrArg Block.trust ht).trans (Block.reply_trust ..)
    refine ⟨t, (exec_keyInstall ch s).trans hx, hp, hrep, ?_, fun j hj => ?_, ?_⟩
    · rw [htr]
      exact kget_kput_same ..
    · rw [htr]
      exact kget_kput_other _ _ hj
    · rw [ht]
      simp [Block.mailBack, Block.yes]
  case noInstall =>
    intro s ch w st ht hw h
    exact exec_trust_no ht rfl (keyInstallAnswer_refused hw h) (exec_keyInstall ch s)
  case switch =>
    intro s ch p ht hp hk
    have hg := ht.gate (s0Only := false) rfl
    obtain ⟨hd, hb, -, -⟩ := ht
    have hport := Block.port_congr (Block.msgTaken_esk s.blk ch)
    have ha : keySwitchAnswer (s.blk.msgTaken ch) (s.blk.msgWords ch) =
        ((s.blk.msgTaken ch).modPort p fun x => { x with sendSlot := 1 - (s.blk.port p).sendSlot }).yes := by
      subst hp
      obtain ⟨k, hk⟩ := Option.isSome_iff_exists.mp hk
      simp only [keySwitchAnswer, hport, Block.keyId_congr (Block.msgTaken_trust s.blk ch), hk]
      rfl
    obtain ⟨t, hx, hpend, hrep, -, ht⟩ := exec_answer (h := fun b ws => b.trustMsg false ch (keySwitchAnswer b ws)) hd hb
      ((Block.trustMsg_open _ hg).trans ha) rfl rfl (congrArg Trust.fuses (Block.msgTaken_trust ..)) (Block.msgTaken_perm ..)
    have hesk : t.blk.esk = _ := (congrArg Block.esk ht).trans (Block.reply_esk ..)
    refine ⟨t, (exec_keySwitch ch s).trans hx, hpend, hrep, ?_, fun q hq => ?_, ?_⟩
    · rw [Block.port_congr hesk, Block.yes, Block.port_modPort_same, hport]
    · rw [Block.port_congr hesk, Block.yes, Block.port_modPort_other _ _ hq, hport]
    · rw [ht]
      simp [Block.mailBack, Block.yes, Block.modPort]
  case noSwitch =>
    intro s ch p ht hp hk
    subst hp
    refine exec_trust_no ht rfl ?_ (exec_keySwitch ch s)
    simp only [keySwitchAnswer, Block.port_congr (Block.msgTaken_esk s.blk ch), Block.keyId_congr (Block.msgTaken_trust s.blk ch), hk]
    rfl
  case ide =>
    intro s n hl hf hk hn
    have he : effIdeKm n s.blk = s.blk.wf MOR_HOST_LINK 12 9 n := if_pos (by simp [hl, hf, hk, hn])
    refine ⟨_, onBlk_next_of_eq (f := effIdeKm n) he rfl rfl, rfl, ?_, fun a ha => Block.rg_wf_other _ _ _ _ ha, rfl⟩
    exact (Block.fld_wf_same _ _ n (by omega) (by omega)).trans (Nat.mod_eq_of_lt (by omega))
  case noIde =>
    intro s n h
    refine onBlk_next_of_eq (f := effIdeKm n) (b := s.blk) (if_neg ?_) rfl rfl
    obtain h | h | h | h := h
    · simp [h]
    · simp [h]
    · simp [h]
    · simp [Nat.not_le.mpr h]
  case pldm =>
    intro s k a hc ha
    refine onBlk_next_of_eq (f := effPldmRequest k) ?_ rfl rfl
    simp only [effPldmRequest, ha, hc, if_true]
  case noPldm =>
    intro s k h
    refine onBlk_next_of_eq (f := effPldmRequest k) (b := s.blk) ?_ rfl rfl
    unfold effPldmRequest
    split
    · rename_i a ha
      obtain h | h := h
      · simp [h]
      · rw [ha] at h
        cases h
    · rfl

end Sys2Proof.Machine
end

section
/-! The writer of the ice core, its scan, and the flash hold (R502 to R508, R527). -/

namespace Sys2Proof.Machine

/-! ### Registers of the module, the clocks and the power -/

/-- The registers below those of the mailboxes, the ice core and the units. -/
def lowOf (t : Tbl Word) (a : Nat) : Word := if a < 0x300000 then tget (regReset a) t a else 0

theorem Block.rg_of_low {s t : Block} (h : lowOf t.regs = lowOf s.regs) {a : Nat} (ha : a < 0x300000) : t.rg a = s.rg a := by
  have h := congrFun h a
  unfold lowOf at h
  rwa [if_pos ha, if_pos ha] at h

theorem lowOf_of_rg {s t : Block} (h : ∀ a, a < 0x300000 → t.rg a = s.rg a) : lowOf t.regs = lowOf s.regs := by
  funext a
  unfold lowOf
  split
  · exact h a ‹_›
  · rfl

theorem Block.low_wr (s : Block) {a : Nat} (v : Word) (h : 0x300000 ≤ a) : lowOf (s.wr a v).regs = lowOf s.regs :=
  lowOf_of_rg fun _ hb => Block.rg_wr_other _ _ (by omega)

theorem Block.low_wf (s : Block) {a : Nat} (hi lo v : Nat) (h : 0x300000 ≤ a) : lowOf (s.wf a hi lo v).regs = lowOf s.regs :=
  Block.low_wr _ _ h

theorem Block.low_wb (s : Block) {a : Nat} (i : Nat) (v : Bool) (h : 0x300000 ≤ a) : lowOf (s.wb a i v).regs = lowOf s.regs :=
  Block.low_wr _ _ h

theorem Block.low_event (s : Block) (src ev : Nat) (d : List Word) : lowOf (s.event src ev d).regs = lowOf s.regs :=
  lowOf_of_rg fun a ha => Block.rg_event _ _ _ _ (by rw [show ICE_DROPPED = 0x0040001C from rfl]; omega)

theorem Block.low_led1 (s : Block) (n : Nat) (m : LedgerMove) : lowOf (s.led1 n m).regs = lowOf s.regs :=
  lowOf_of_rg fun a ha => Block.rg_led1 _ _ _ (by rw [show ICE_DROPPED = 0x0040001C from rfl]; omega)
    (by rw [show LDG_STATUS = 0x00500000 from rfl]; omega)

/-! ### Slots of the permanent area -/

theorem kget_foldl_keepSlot_none {old : Tbl IceSlot} {k : Nat} (h : kget old k = none) (l : List Nat) (t : Tbl IceSlot) :
    kget (l.foldl (keepSlot old) t) k = kget t k := by
  induction l generalizing t with
  | nil => rfl
  | cons x xs ih =>
    refine (ih _).trans ?_
    unfold keepSlot
    split
    · rename_i r hr
      refine kget_kput_other _ _ fun e => ?_
      rw [e, hr] at h
      cases h
    · rfl

/-- A slot that was not programmed is as the command leaves it. -/
theorem kget_keepSlots_none {old new : Tbl IceSlot} {k : Nat} (h : kget old k = none) : kget (keepSlots old new) k = kget new k := by
  unfold keepSlots
  split
  · rename_i e
    rw [e]
  · exact kget_foldl_keepSlot_none h _ _

/-! ### The writer -/

theorem effIceCommit_ready {s : Block} {f : Nat} {r : IceRec} {l : List IceRec} (h : iceCommitReady s = true)
    (hq : s.ice.queue = r :: l) :
    effIceCommit f s =
      { (if 0 < f / 3 then s.bump ICE_PROG_FAIL (f / 3) else s) with
        ice := { (s.ice.leave { r with seq := nextSeq s.ice.last } (f / 3)).commit { r with seq := nextSeq s.ice.last } with
          queue := l,
          budget := ((s.ice.leave { r with seq := nextSeq s.ice.last } (f / 3)).commit
            { r with seq := nextSeq s.ice.last }).budget - (if s.pwr.pwrGood then 1 else 0) } } := by
  refine (if_pos h).trans ?_
  unfold iceCommitEffect
  rw [hq]

/-- Slots left as partial change only the slots and the place of the next one. -/
theorem IceCore.leave_frame (c : IceCore) (r : IceRec) (n : Nat) :
    { c.leave r n with perm := c.perm, ring := c.ring, nextSlot := c.nextSlot } = c := by
  induction n with
  | zero => rfl
  | succ n ih =>
    refine Eq.trans ?_ ih
    rw [IceCore.leave]
    dsimp only
    split <;> rfl

theorem IceCore.kget_leave_ring (c : IceCore) (r : IceRec) {k : Nat} (h : k ≠ c.nextSlot) :
    kget (c.leave r 1).ring k = kget c.ring k := by
  rw [IceCore.leave, IceCore.leave]
  by_cases hp : c.perm.length < 256 ∧ r.seq ≤ 256
  · rw [if_pos hp]
  · rw [if_neg hp]
    exact kget_kput_other _ _ h

theorem IceCore.commit_last (c : IceCore) (r : IceRec) : (c.commit r).last = r.seq := by
  unfold IceCore.commit
  dsimp only
  split <;> rfl

/-- A record committed to the permanent area. -/
theorem exec_iceCommit_perm {s : State} {f q : Nat} {r : IceRec} {l : List IceRec} (h : iceCommitReady s.blk = true)
    (hq : s.blk.ice.queue = r :: l) (hf : f < 3) (hs : q = nextSeq s.blk.ice.last) (hp : s.blk.ice.perm.length < 256) (h256 : q ≤ 256) :
    ∃ t : State, exec (.iceCommit f) s = .next t ∧ t.pending = s.pending ∧
      t.blk = s.blk.lasting { s.blk with ice := { s.blk.ice with
        perm := kput s.blk.ice.perm s.blk.ice.perm.length { body := { r with seq := q }, valid := .valid, crcOk := true },
        last := q, queue := l, budget := s.blk.ice.budget - (if s.blk.pwr.pwrGood then 1 else 0) } } := by
  obtain ⟨t, hx, hpend, ht⟩ := onBlk_lasting_next (effIceCommit f) s
  rw [effIceCommit_ready h hq, Nat.div_eq_of_lt hf, ← hs] at ht
  refine ⟨t, hx, hpend, ht.trans ?_⟩
  simp [IceCore.leave, IceCore.commit, hp, h256]

/-- The ring after a record in slot `n`, with the sector ahead erased at a sector's end. -/
def IceCore.ringAfter (c : IceCore) (n : Nat) (x : IceSlot) : Tbl IceSlot :=
  if n % 64 = 63 then kfilter (kput c.ring n x) fun k _ => !(k / 64 == (n / 64 + 1) % (ringSlots / 64)) else kput c.ring n x

theorem IceCore.commit_ring (c : IceCore) (r : IceRec) (h : ¬(c.perm.length < 256 ∧ r.seq ≤ 256)) :
    c.commit r = { c with ring := c.ringAfter c.nextSlot { body := r, valid := .valid, crcOk := true },
                          nextSlot := (c.nextSlot + 1) % ringSlots, last := r.seq } := if_neg h

/-- A record committed to the ring. -/
theorem exec_iceCommit_ring {s : State} {f q : Nat} {r : IceRec} {l : List IceRec} (h : iceCommitReady s.blk = true)
    (hq : s.blk.ice.queue = r :: l) (hf : f < 3) (hs : q = nextSeq s.blk.ice.last) (hp : 256 ≤ s.blk.ice.perm.length ∨ 256 < q) :
    exec (.iceCommit f) s = .next { s with blk := { s.blk with ice := { s.blk.ice with
        ring := s.blk.ice.ringAfter s.blk.ice.nextSlot { body := { r with seq := q }, valid := .valid, crcOk := true },
        nextSlot := (s.blk.ice.nextSlot + 1) % ringSlots, last := q, queue := l,
        budget := s.blk.ice.budget - (if s.blk.pwr.pwrGood then 1 else 0) } } } := by
  refine onBlk_next_of_eq (f := effIceCommit f) ?_ rfl rfl
  rw [effIceCommit_ready h hq, Nat.div_eq_of_lt hf, ← hs]
  rw [IceCore.leave, IceCore.commit_ring _ _ (show ¬(s.blk.ice.perm.length < 256 ∧ q ≤ 256) by omega)]
  simp

theorem kget_kfilter_key {α : Type} (t : Tbl α) (f : Nat → Bool) (k : Nat) :
    kget (kfilter t fun k _ => f k) k = if f k then kget t k else none := kget_filter_key t f k

theorem IceCore.kget_ringAfter_same (c : IceCore) {n : Nat} (x : IceSlot) : kget (c.ringAfter n x) n = some x := by
  have e : ringSlots / 64 = 4088 := rfl
  have e' : ringSlots = 261632 := rfl
  unfold IceCore.ringAfter
  split
  · rw [kget_kfilter_key, if_pos, kget_kput_same]
    rw [e, Bool.not_eq_true', beq_eq_false_iff_ne]
    omega
  · exact kget_kput_same ..

theorem IceCore.kget_ringAfter_other (c : IceCore) {n k : Nat} (x : IceSlot) (h : k ≠ n) :
    kget (c.ringAfter n x) k =
      if n % 64 = 63 ∧ k / 64 = (n / 64 + 1) % (ringSlots / 64) then none else kget c.ring k := by
  unfold IceCore.ringAfter
  split
  · rename_i h63
    rw [kget_kfilter_key, kget_kput_other _ _ h]
    by_cases hk : k / 64 = (n / 64 + 1) % (ringSlots / 64)
    · simp [h63, hk]
    · simp [hk]
  · rename_i h63
    rw [if_neg (fun e => h63 e.1), kget_kput_other _ _ h]

/-- After three failures a slot is left, and the record takes the next (R507). -/
theorem exec_iceCommit_failed {s : State} {f : Nat} {r : IceRec} {l : List IceRec} (h : iceCommitReady s.blk = true)
    (hq : s.blk.ice.queue = r :: l) (hf : 3 ≤ f) :
    ∃ t : State, exec (.iceCommit f) s = .next t ∧ t.pending = s.pending ∧ t.blk.ice.queue = l ∧
      t.blk.ice.last = nextSeq s.blk.ice.last ∧ t.blk.rg ICE_PROG_FAIL = (s.blk.bump ICE_PROG_FAIL (f / 3)).rg ICE_PROG_FAIL ∧
      { t.blk with ice := s.blk.ice, regs := s.blk.regs } = s.blk := by
  obtain ⟨t, hx, hpend, ht⟩ := onBlk_lasting_next (effIceCommit f) s
  rw [effIceCommit_ready h hq, if_pos (by omega)] at ht
  refine ⟨t, hx, hpend, ?_, ?_, ?_, ?_⟩
  · rw [ht]
    rfl
  · rw [ht]
    exact IceCore.commit_last ..
  · rw [ht, Block.rg_lasting]
    rfl
  · rw [ht]
    simp [Block.lasting]

/-! ### The flash hold -/

/-- The ice core when the flash is held: a slot being written may stay partial. -/
def IceCore.held (c : IceCore) (busy : Bool) : IceCore :=
  { (if busy then (match c.queue with | r :: _ => c.leave { r with seq := nextSeq c.last } 1 | [] => c) else c) with hold := true }

theorem effFlashHoldAssert_eq (s : Block) :
    ∃ busy, effFlashHoldAssert s = { s.drawn with ice := s.ice.held busy } :=
  ⟨iceCommitReady s && (s.choose 2).1 == 1, rfl⟩

theorem IceCore.held_frame (c : IceCore) (busy : Bool) :
    { c.held busy with perm := c.perm, ring := c.ring, nextSlot := c.nextSlot, hold := c.hold } = c ∧ (c.held busy).hold = true := by
  unfold IceCore.held
  refine ⟨?_, rfl⟩
  cases busy
  · rfl
  · rw [if_pos rfl]
    split
    · exact (congrArg (fun d : IceCore => { d with hold := c.hold }) (IceCore.leave_frame c _ 1) :)
    · rfl

theorem IceCore.kget_held_ring (c : IceCore) (busy : Bool) {k : Nat} (h : k ≠ c.nextSlot) :
    kget (c.held busy).ring k = kget c.ring k := by
  unfold IceCore.held
  dsimp only
  cases busy
  · rfl
  · rw [if_pos rfl]
    split
    · exact IceCore.kget_leave_ring _ _ h
    · rfl

/-! ### The scan -/

theorem effIceScanDone_ready {s : Block} (hp : s.start.powered = true) (hs : s.ice.scanned = false) (hh : s.ice.hold = false) :
    ∃ last cl c, effIceScanDone s = { s with ice := { s.ice with last := last, cleared := cl, scanned := true, clearing := c } } ∧
      cl = newestSeq ((kfilter s.ice.ring fun _ x => x.valid == .cleared).map (·.2.body.seq)) ∧
      last = newestSeq (if ((kfilter s.ice.ring fun _ x => x.valid == .valid || x.valid == .cleared).map (·.2.body.seq)).isEmpty
        then (kfilter s.ice.perm fun _ x => x.valid == .valid).map (·.2.body.seq)
        else (kfilter s.ice.ring fun _ x => x.valid == .valid || x.valid == .cleared).map (·.2.body.seq)) := by
  have he : effIceScanDone s = _ := if_pos (by simp [hp, hs, hh])
  exact ⟨_, _, _, he, rfl, rfl⟩

/-! ### A start that waited for the flash (R421, R527) -/

/-- What the first steps of a start leave of the work and its surroundings, while there is no work. -/
structure Block.idleKept (t s : Block) : Prop where
  jobs : t.jobs = []
  objs : t.objs = s.objs
  parts : t.parts = s.parts
  env : t.env = s.env
  start : t.start.steady = s.start.steady
  ice : t.ice.stored = s.ice.stored
  cause : t.rg MOR_RESET_CAUSE = s.rg MOR_RESET_CAUSE

theorem Block.idleKept.trans {a b c : Block} (h : a.idleKept b) (k : b.idleKept c) : a.idleKept c := by
  exact ⟨h.jobs, h.objs.trans k.objs, h.parts.trans k.parts, h.env.trans k.env, h.start.trans k.start, h.ice.trans k.ice,
    h.cause.trans k.cause⟩

theorem Block.idleKept_refl {s : Block} (hj : s.jobs = []) : s.idleKept s := ⟨hj, rfl, rfl, rfl, rfl, rfl, rfl⟩

/-- A loop keeps what each of its rounds keeps. -/
theorem loop_idleKept {s : Block} (n : Nat) (f : Nat → Block → Block) (hj : s.jobs = [])
    (h : ∀ i b, b.jobs = [] → (f i b).idleKept b) : (loop n f s).idleKept s := by
  induction n with
  | zero => exact Block.idleKept_refl hj
  | succ n ih =>
    have hjobs := ih.jobs
    exact (h n _ hjobs).trans ih

theorem each_idleKept {α : Type} {s : Block} (l : List α) (f : Block → α → Block) (hj : s.jobs = [])
    (h : ∀ b x, b.jobs = [] → (f b x).idleKept b) : (s.each l f).idleKept s := by
  unfold Block.each
  induction l generalizing s with
  | nil => exact Block.idleKept_refl hj
  | cons x xs ih =>
    have hx := h s x hj
    have hjobs := hx.jobs
    exact (ih hjobs).trans hx

theorem Block.wr_idleKept {s : Block} (hj : s.jobs = []) {a : Nat} (v : Word) (h : MOR_RESET_CAUSE ≠ a) :
    (s.wr a v).idleKept s := ⟨hj, rfl, rfl, rfl, rfl, rfl, Block.rg_wr_other _ _ h⟩

theorem Block.event_idleKept {s : Block} (hj : s.jobs = []) (src ev : Nat) (d : List Word) : (s.event src ev d).idleKept s :=
  ⟨by rw [Block.event_jobs, hj], by simp, by simp, by simp, by simp, by simp, Block.rg_event _ _ _ _ (by decide)⟩

theorem Block.led1_idleKept {s : Block} (hj : s.jobs = []) (n : Nat) (m : LedgerMove) : (s.led1 n m).idleKept s :=
  ⟨by rw [Block.led1_jobs, hj], by simp, by simp, by simp, Block.led1_steady .., Block.led1_stored .., Block.rg_led1 _ _ _ (by decide) (by decide)⟩

theorem Block.modCl_idleKept {s : Block} (hj : s.jobs = []) (c : Nat) (f : Cluster → Cluster) : (s.modCl c f).idleKept s :=
  ⟨hj, rfl, rfl, rfl, rfl, rfl, rfl⟩

theorem Block.modTile_idleKept_trans {b s : Block} (h : b.idleKept s) (t : Nat) (f : Tile → Tile) : (b.modTile t f).idleKept s :=
  ⟨h.jobs, h.objs, h.parts, h.env, h.start, h.ice, h.cause⟩

theorem Block.setErr_idleKept {b s : Block} (h : b.idleKept s) (e : Errors) : ({ b with err := e } : Block).idleKept s :=
  ⟨h.jobs, h.objs, h.parts, h.env, h.start, h.ice, h.cause⟩

theorem MOR_RESET_CAUSE_ne_SRC (d k : Nat) : MOR_RESET_CAUSE ≠ SRC d k := by
  have ha : SRC d k = 0x01000000 + d * 0x400000 + k := rfl
  have hm : MOR_RESET_CAUSE = 0x00000104 := rfl
  omega

theorem Block.clusterOut_idleKept {s : Block} (hj : s.jobs = []) (c : Nat) : (s.clusterOut c).idleKept s := by
  unfold Block.clusterOut
  split
  · exact Block.idleKept_refl hj
  · dsimp only
    have h1 := Block.wr_idleKept hj (a := SRC_CLUSTER_OOS (c / 8))
      ((s.rg (SRC_CLUSTER_OOS (c / 8))).setFld (c % 8) (c % 8) (b2n true)) (MOR_RESET_CAUSE_ne_SRC _ _)
    have h2 := Block.modCl_idleKept h1.jobs c fun k => { k with state := .outOfService }
    have h3 := Block.led1_idleKept h2.jobs (0x80 + c) { free := -1536, total := -1536 }
    obtain ⟨b, hb⟩ : ∃ b, b = ((s.wb (SRC_CLUSTER_OOS (c / 8)) (c % 8) true).modCl c fun k =>
      { k with state := .outOfService }).ledShrink (0x80 + c) 1536 := ⟨_, rfl⟩
    have hk : b.idleKept s := hb ▸ (h3.trans (h2.trans h1))
    rw [← hb, hk.jobs, List.filter_nil, List.map_nil]
    exact hk

theorem Block.wf_idleKept {b s : Block} (h : b.idleKept s) {a : Nat} (hi lo v : Nat) (ha : MOR_RESET_CAUSE ≠ a) :
    (b.wf a hi lo v).idleKept s := (Block.wr_idleKept h.jobs _ ha).trans h

theorem MOR_RESET_CAUSE_ne_FLOE (t k : Nat) : MOR_RESET_CAUSE ≠ FLOE t k := MOR_RESET_CAUSE_ne_SRC _ _

theorem Block.retirePhys_idleKept {s : Block} (hj : s.jobs = []) (d phys : Nat) : (s.retirePhys d phys).idleKept s := by
  have h := Block.idleKept_refl hj
  unfold Block.retirePhys
  split
  · have ha : SRC_TILE_RETIRED_LO d + 4 * (phys / 32) = 0x01000000 + d * 0x400000 + 0x310 + 4 * (phys / 32) := rfl
    have hm : MOR_RESET_CAUSE = 0x00000104 := rfl
    exact Block.wf_idleKept h _ _ _ (by omega)
  · exact Block.wf_idleKept (Block.wf_idleKept h _ _ _ (MOR_RESET_CAUSE_ne_SRC _ _)) _ _ _ (MOR_RESET_CAUSE_ne_SRC _ _)

/-- The tile's unit of a failing physical tile is replaced or its cluster leaves service, without any work to end. -/
theorem tileRemapEffect_idleKept {s : Block} (hj : s.jobs = []) (t : Nat) : (tileRemapEffect t s).idleKept s := by
  have hs : ∀ d k, MOR_RESET_CAUSE ≠ SRC_SPARE d k := fun _ _ => MOR_RESET_CAUSE_ne_SRC _ _
  have hid : MOR_RESET_CAUSE ≠ FLOE_ID t := MOR_RESET_CAUSE_ne_FLOE _ _
  have hep : MOR_RESET_CAUSE ≠ FLOE_EPOCH t := MOR_RESET_CAUSE_ne_FLOE _ _
  have hst : MOR_RESET_CAUSE ≠ FLOE_STATE t := MOR_RESET_CAUSE_ne_FLOE _ _
  have hev : ∀ {b : Block} (_ : b.idleKept s) src ev d, (b.event src ev d).idleKept s :=
    fun h src ev d => (Block.event_idleKept h.jobs src ev d).trans h
  have hret : ∀ d phys, (s.retirePhys d phys).idleKept s := Block.retirePhys_idleKept hj
  unfold tileRemapEffect
  dsimp only
  obtain ⟨b, hb⟩ : ∃ b, b = ({ s.retirePhys (t / 64) (s.fld (FLOE_ID t) 14 8) with
      err := { (s.retirePhys (t / 64) (s.fld (FLOE_ID t) 14 8)).err with
        tileCause := kdel (s.retirePhys (t / 64) (s.fld (FLOE_ID t) 14 8)).err.tileCause t } } : Block).modTile t
      fun _ => Tile.reset := ⟨_, rfl⟩
  have h : b.idleKept s := by
    have h1 := hret (t / 64) (s.fld (FLOE_ID t) 14 8)
    rw [hb]
    exact Block.modTile_idleKept_trans (Block.setErr_idleKept h1 _) _ _
  rw [← hb]
  split
  · exact hev (Block.wf_idleKept (Block.wf_idleKept (Block.wf_idleKept (Block.wf_idleKept (Block.wf_idleKept
      (Block.wf_idleKept h _ _ _ (hs _ _)) _ _ _ (hs _ _)) _ _ _ hid) _ _ _ hid) _ _ _ hep) _ _ _ hst) _ _ _
  · have h' := hev (Block.wf_idleKept h 2 0 0 hst) srcHealth 0x0504
      [w32 (t / 64), w32 (s.fld (FLOE_ID t) 14 8), w32 (tget 0 s.err.tileCause t), 0xFFFFFFFF]
    exact (Block.clusterOut_idleKept h'.jobs _).trans h'

theorem Block.retireTested_idleKept {s : Block} (hj : s.jobs = []) (cold : Bool) (t : Nat) :
    (s.retireTested cold t).idleKept s := by
  have hep : MOR_RESET_CAUSE ≠ FLOE_EPOCH t := MOR_RESET_CAUSE_ne_FLOE _ _
  have hst : MOR_RESET_CAUSE ≠ FLOE_STATE t := MOR_RESET_CAUSE_ne_FLOE _ _
  unfold Block.retireTested
  dsimp only
  obtain ⟨b, hb⟩ : ∃ b, b = tileRemapEffect t { s with err := { s.err with tileCause := kput s.err.tileCause t 0 } } := ⟨_, rfl⟩
  have h : b.idleKept s := by
    have h0 := Block.setErr_idleKept (Block.idleKept_refl hj) { s.err with tileCause := kput s.err.tileCause t 0 }
    rw [hb]
    exact (tileRemapEffect_idleKept h0.jobs t).trans h0
  have h' : (if b.tileState t = 2 then b.wf (FLOE_STATE t) 2 0 1 else b).idleKept s := by
    split
    · exact Block.wf_idleKept h _ _ _ hst
    · exact h
  rw [← hb]
  split
  · exact Block.wf_idleKept h' _ _ _ hep
  · exact h'

theorem Block.testTiles_idleKept {s : Block} (hj : s.jobs = []) (cold : Bool) : (s.testTiles cold).idleKept s := by
  unfold Block.testTiles
  refine loop_idleKept _ _ hj fun d b hb => ?_
  dsimp only
  obtain ⟨b1, hb1⟩ : ∃ b1, b1 = loop 4 (fun k s =>
      if s.badPhys d (64 + k) && !s.bit (SRC_SPARE d k) 8 then s.wb (SRC_SPARE d k) 9 true else s) b := ⟨_, rfl⟩
  have h1 : b1.idleKept b := by
    rw [hb1]
    refine loop_idleKept _ _ hb fun k x hx => ?_
    split
    · exact Block.wr_idleKept hx _ (MOR_RESET_CAUSE_ne_SRC _ _)
    · exact Block.idleKept_refl hx
  rw [← hb1]
  refine (loop_idleKept _ _ h1.jobs fun i x hx => ?_).trans h1
  split
  · exact Block.retireTested_idleKept hx _ _
  · exact Block.idleKept_refl hx

/-- The block whose start has taken its settle time from the board records. -/
def Block.recordsRead (s : Block) : Block :=
  { s with start := { s.start with settle := s.records.settle, recordBytes := s.recordRegion } }

theorem Block.loadRecords_idleKept {s : Block} (hj : s.jobs = []) (cold : Bool) (old : Nat) :
    (s.loadRecords cold old).idleKept s.recordsRead := by
  have hesk : ∀ p k, MOR_RESET_CAUSE ≠ ESK p k := by
    intro p k
    have ha : ESK p k = 0x00800000 + p * 0x80000 + k := rfl
    have hm : MOR_RESET_CAUSE = 0x00000104 := rfl
    omega
  have h0 : s.recordsRead.idleKept s.recordsRead := Block.idleKept_refl hj
  have hev : ∀ {b : Block} (_ : b.idleKept s.recordsRead) src ev d, (b.event src ev d).idleKept s.recordsRead :=
    fun h src ev d => (Block.event_idleKept h.jobs src ev d).trans h
  unfold Block.loadRecords
  extract_lets r spread src s1 s2 s3 s4 s5 s6
  have h2 : s2.idleKept s.recordsRead := Block.wr_idleKept h0.jobs _ (by decide)
  have h3 : s3.idleKept s.recordsRead := (each_idleKept _ _ h2.jobs fun b x hb => Block.event_idleKept hb ..).trans h2
  have h4 : s4.idleKept s.recordsRead := Block.wf_idleKept (Block.wf_idleKept h3 _ _ _ (by decide)) _ _ _ (by decide)
  have h5 : s5.idleKept s.recordsRead := by
    show (if _ then s4 else _ : Block).idleKept _
    split
    · exact h4
    · exact hev h4 _ _ _
  have h6 : s6.idleKept s.recordsRead := by
    show (match r.body 6 with | some b => _ | none => s5 : Block).idleKept _
    split
    · exact (loop_idleKept _ _ h5.jobs fun p b hb => Block.wf_idleKept (Block.idleKept_refl hb) _ _ _ (hesk p 0xC)).trans h5
    · exact h5
  split
  · split
    · exact Block.wf_idleKept h6 _ _ _ (by decide)
    · exact h6
  · exact h6

/-- A start that waited in RECORDS for the flash goes on to its settle time, or stops without one (R421, R422). -/
theorem Block.bootRecords_idle {s : Block} (hj : s.jobs = []) (hi : s.internal = false) (cold : Bool) (old : Nat) :
    (s.bootRecords cold old).phase = (if s.records.settle = 0 then 10 else 4) ∧ (s.bootRecords cold old).objs = s.objs ∧
    (s.bootRecords cold old).parts = s.parts ∧ (s.bootRecords cold old).env = s.env ∧ (s.bootRecords cold old).ice.hold = s.ice.hold := by
  have hk := (Block.testTiles_idleKept (Block.loadRecords_idleKept hj cold old).jobs cold).trans
    (Block.loadRecords_idleKept hj cold old)
  obtain ⟨b, hb⟩ : ∃ b, b = (s.loadRecords cold old).testTiles cold := ⟨_, rfl⟩
  rw [← hb] at hk
  have hint : b.internal = false := by
    rw [Block.internal, Block.fld, hk.cause, Block.rg_of_regs (show s.recordsRead.regs = s.regs from rfl)]
    exact hi
  have hset : b.start.settle = s.records.settle := (congrArg Start.settle hk.start :)
  unfold Block.bootRecords
  simp only [← hb, hint, Bool.false_and, Bool.false_eq_true, if_false, hset]
  have hphase : ∀ (x : Block) v, v < 16 → (x.setPhase v).phase = v := fun x v hv =>
    (Block.fld_wf_same _ _ v (by omega) (by omega)).trans (Nat.mod_eq_of_lt hv)
  have hhold : b.ice.hold = s.ice.hold := (congrArg IceCore.hold hk.ice :)
  split
  · refine ⟨?_, ?_, ?_, ?_, ?_⟩
    · refine Eq.trans ?_ (hphase b 10 (by omega))
      refine (congrArg (fun w : Word => w.fld 3 0) (Block.rg_event _ _ _ _ (by decide))).trans ?_
      exact Block.fld_wf_other _ _ _ _ (by omega) (by omega) (Or.inr (Or.inl (by omega)))
    · simpa [Block.stopStart, Block.setPhase, Block.recordsRead] using hk.objs
    · simpa [Block.stopStart, Block.setPhase, Block.recordsRead] using hk.parts
    · simpa [Block.stopStart, Block.setPhase, Block.recordsRead] using hk.env
    · have hst : b.stopStart.ice.stored = b.ice.stored := by simp [Block.stopStart, Block.setPhase]
      exact (congrArg IceCore.hold hst :).trans hhold
  · exact ⟨hphase b 4 (by omega), hk.objs, hk.parts, hk.env, hhold⟩

/-- Settles O57: a commit takes the next slot of its area (`exec_iceCommit_perm`, `exec_iceCommit_ring`), the scan finds the newest
numbers, and the hold leaves every record but the one being written. -/
theorem iceWork : Obligations.IceWork := by
  refine ⟨?perm, ?ring, ?failed, ?idle, ?scan, ?noScan, ?hour, ?noHour, ?assert, ?release, ?start⟩
  case perm =>
    intro s f q r l h hq hf hs hp h256 hn
    obtain ⟨t, hx, hpend, ht⟩ := exec_iceCommit_perm h hq hf hs hp h256
    refine ⟨t, hx, hpend, ?_, ?_, ?_, ?_, ?_, ?_⟩
    · rw [ht]
      exact (kget_keepSlots_none hn).trans (kget_kput_same ..)
    · rw [ht]; rfl
    · rw [ht]; rfl
    · rw [ht]; rfl
    · rw [ht]; rfl
    · rw [ht]
      simp [Block.lasting]
  case ring =>
    intro s f q n nx r l h hq hf hs hp hn hnx _
    subst hn hnx
    refine ⟨_, exec_iceCommit_ring h hq hf hs hp, rfl, IceCore.kget_ringAfter_same .., fun k hk => IceCore.kget_ringAfter_other _ _ hk,
      rfl, rfl, rfl, rfl, rfl⟩
  case failed => exact fun s f r l h hq hf => exec_iceCommit_failed h hq hf
  case idle =>
    intro s f h
    exact onBlk_next_of_eq (f := effIceCommit f) (b := s.blk) (if_neg (by rw [h]; decide)) rfl rfl
  case scan =>
    intro s hp hs hh
    obtain ⟨last, cl, c, he, hcl, hlast⟩ := effIceScanDone_ready hp hs hh
    refine ⟨_, onBlk_next_of_eq (f := effIceScanDone) he rfl rfl, rfl, rfl, fun hne => hlast.trans ?_, fun hnil => hlast.trans ?_,
      hcl, rfl, rfl, rfl, rfl⟩
    · rw [if_neg (by rwa [List.isEmpty_iff, List.map_eq_nil_iff])]
    · rw [hnil]
      rfl
  case noScan =>
    intro s h
    refine onBlk_next_of_eq (f := effIceScanDone) (b := s.blk) (if_neg ?_) rfl rfl
    obtain h | h | h := h <;> simp [h]
  case hour => exact fun s h => onBlk_next_of_eq (f := effOperatingHour) (if_pos h) rfl rfl
  case noHour =>
    intro s h
    exact onBlk_next_of_eq (f := effOperatingHour) (b := s.blk) (if_neg (by rw [h]; decide)) rfl rfl
  case assert =>
    intro s
    obtain ⟨t, hx, hp, ht⟩ := onBlk_lasting_next effFlashHoldAssert s
    obtain ⟨busy, he⟩ := effFlashHoldAssert_eq s.blk
    obtain ⟨hfr, hhold⟩ := IceCore.held_frame s.blk.ice busy
    rw [he] at ht
    refine ⟨t, hx, hp, ?_, ?_, fun k hk => ?_, ?_, ?_, ?_⟩
    · rw [ht]
      exact hhold
    · rw [ht]
      exact fun k r hk => kget_keepSlots hk
    · rw [ht]
      exact IceCore.kget_held_ring _ _ hk
    · rw [ht]
      exact (congrArg IceCore.queue hfr :)
    · rw [ht]
      exact (congrArg IceCore.last hfr :)
    · rw [ht]
      simp [Block.lasting, Block.drawn]
  case release =>
    intro s h
    refine onBlk_next_of_eq (f := effFlashHoldRelease) (if_neg ?_) rfl rfl
    obtain h | h | h := h <;> simp [h]
  case start =>
    intro s hh hp hph hi hj
    obtain ⟨t, hx, hpend, ht⟩ := onBlk_lasting_next effFlashHoldRelease s
    have he : effFlashHoldRelease s.blk = _ := if_pos (by simp [hh, hp, hph])
    rw [he] at ht
    obtain ⟨h1, h2, h3, h4, h5⟩ := Block.bootRecords_idle (s := { s.blk with ice := { s.blk.ice with hold := false } }) hj hi
      (!s.blk.bit MOR_START 4) s.blk.limitW
    refine ⟨t, hx, hpend, ?_⟩
    rw [ht]
    exact ⟨h5, h1, h2, h3, h4⟩

end Sys2Proof.Machine
end

section
/-! Messages about Snowpack's classes and namespaces, and about breaks and GLOBAL semaphores (R189, R204, R209, R229, R240). -/

namespace Sys2Proof.Machine

/-! ### Messages of a partition -/

theorem Block.msgPart_eq {s : Block} {ch : Chan} {p : Nat} (h : Nat → Answer) (hp : p = s.fnPart (chFn ch))
    (hs : (s.part p).isSome = true) : s.msgPart ch h = h p := by
  subst hp
  exact if_pos hs

theorem Block.pfOnly_pf {s : Block} {ch : Chan} (st : Nat) (h : Answer) (h0 : chFn ch = 0) : s.pfOnly ch st h = h := if_pos h0

theorem Block.messageWhen_pos {s : Block} {ch : Chan} {p : List Word → Bool} (type : Nat) (h : Block → List Word → Answer)
    (hp : p (s.msgWords ch) = true) : s.messageWhen ch type p h = s.message ch type h := if_pos hp

/-- A message that acts under a condition of its words, where they meet it. -/
theorem onBlk_messageWhen {s : State} {ch : Chan} {p : List Word → Bool} (type : Nat) (h : Block → List Word → Answer)
    (hp : p (s.blk.msgWords ch) = true) :
    onBlk (fun b => b.messageWhen ch type p h) s = onBlk (fun b => b.message ch type h) s := by
  unfold onBlk
  beta_reduce
  rw [Block.messageWhen_pos type h hp]

@[simp] theorem Block.snowOf_setSnow (s : Block) (p : Nat) (w : Snow) : (s.setSnow p w).snowOf p = w := tget_tset_same ..

theorem Block.snowOf_congr {s t : Block} (h : t.snow = s.snow) (p : Nat) : t.snowOf p = s.snowOf p := by
  unfold Block.snowOf
  rw [h]

@[simp] theorem Block.snowOf_reply (s : Block) (ch : Chan) (ws : List Word) (p : Nat) : (s.reply ch ws).snowOf p = s.snowOf p :=
  Block.snowOf_congr (by simp) p

@[simp] theorem Block.snowOf_msgTaken (s : Block) (ch : Chan) (p : Nat) : (s.msgTaken ch).snowOf p = s.snowOf p :=
  Block.snowOf_congr (by simp) p

@[simp] theorem Block.snowOf_drawn (s : Block) (p : Nat) : s.drawn.snowOf p = s.snowOf p := rfl

@[simp] theorem Block.setSnow_stored (s : Block) (p : Nat) (w : Snow) : (s.setSnow p w).ice.stored = s.ice.stored := rfl

/-- A value picked from a list that is not empty is one of the list. -/
theorem Block.pick_mem {α : Type} (s : Block) {l : List α} (d : α) (h : l ≠ []) : (s.pick l d).1 ∈ l := by
  have hl : 0 < l.length := List.length_pos_of_ne_nil h
  show l.getD (if l.length = 0 then 0 else s.freeVal % l.length) d ∈ l
  rw [if_neg (by omega), List.getD_eq_getElem _ _ (Nat.mod_lt _ hl)]
  exact List.getElem_mem _

/-! ### Classes -/

/-- The numbers of classes that are free in a pool. -/
def freeClasses (w : Snow) : List Nat := ((List.range 15).map (· + 1)).filter fun c => (kget w.classes c).isNone

theorem mem_freeClasses {w : Snow} {c : Nat} : c ∈ freeClasses w ↔ 1 ≤ c ∧ c ≤ 15 ∧ kget w.classes c = none := by
  simp only [freeClasses, List.mem_filter, List.mem_map, List.mem_range, Option.isNone_iff_eq_none]
  constructor
  · rintro ⟨⟨i, hi, rfl⟩, h⟩
    exact ⟨by omega, by omega, h⟩
  · rintro ⟨h1, h15, h⟩
    exact ⟨⟨c - 1, by omega, by omega⟩, h⟩

/-- The answer of SNW_KV_CLASS. -/
def kvClassAnswer (ch : Chan) (s : Block) (ws : List Word) : Answer :=
  s.msgPart ch fun p =>
    match kvClassOf (mreg ws 1) (mreg ws 2) with
    | none => s.no (REFUSED 0xA2)
    | some k =>
      let w := s.snowOf p
      match ((List.range 15).map (· + 1)).filter fun c => (kget w.classes c).isNone with
      | [] => s.no (NO_SPACE 0xAE)
      | l =>
        let (c, s) := s.pick l 1
        (s.setSnow p { s.snowOf p with classes := kput w.classes c k }).yes [w32 c, w32 k.tokens]

theorem kvClassAnswer_eq {s : Block} {ch : Chan} {ws : List Word} {p : Nat} {k : KvClass} (hp : p = s.fnPart (chFn ch))
    (hs : (s.part p).isSome = true) (hk : kvClassOf (mreg ws 1) (mreg ws 2) = some k) (hf : freeClasses (s.snowOf p) ≠ []) :
    kvClassAnswer ch s ws =
      (s.drawn.setSnow p { s.snowOf p with
        classes := kput (s.snowOf p).classes (s.pick (freeClasses (s.snowOf p)) 1).1 k }).yes
        [w32 (s.pick (freeClasses (s.snowOf p)) 1).1, w32 k.tokens] := by
  unfold kvClassAnswer
  rw [Block.msgPart_eq _ hp hs]
  simp only [hk]
  split
  · next h => exact absurd h hf
  · rfl

theorem snwKvClass_spec (s : State) (ch : Chan) (p : Nat) (k : KvClass) (hd : s.blk.delivers ch 0x0501) (hb : s.blk.backFree ch)
    (hp : p = (s.blk.msgTaken ch).fnPart (chFn ch)) (hs : ((s.blk.msgTaken ch).part p).isSome = true)
    (hk : kvClassOf (mreg (s.blk.msgWords ch) 1) (mreg (s.blk.msgWords ch) 2) = some k)
    (hf : ∃ c, 1 ≤ c ∧ c ≤ 15 ∧ kget (s.blk.snowOf p).classes c = none) :
    ∃ t : State, exec (.snwKvClass ch) s = .next t ∧ t.pending = s.pending ∧ t.blk.repliedTo s.blk ch OK ∧
      (∃ c, 1 ≤ c ∧ c ≤ 15 ∧ kget (s.blk.snowOf p).classes c = none ∧ t.blk.rg (chBack ch + 8) = w32 c ∧
        t.blk.rg (chBack ch + 12) = w32 k.tokens ∧
        t.blk.snowOf p = { s.blk.snowOf p with classes := kput (s.blk.snowOf p).classes c k }) ∧
      { t.blk.mailBack s.blk with snow := s.blk.snow, freeCtr := s.blk.freeCtr } = s.blk := by
  have hi : exec (.snwKvClass ch) s = onBlk (fun b => b.message ch 0x0501 (kvClassAnswer ch)) s := rfl
  have hne : freeClasses ((s.blk.msgTaken ch).snowOf p) ≠ [] := by
    obtain ⟨c, hc⟩ := hf
    rw [Block.snowOf_msgTaken]
    exact List.ne_nil_of_mem (mem_freeClasses.mpr hc)
  obtain ⟨t, hx, hpend, hr, hregs, ht⟩ := exec_answer hd hb (kvClassAnswer_eq hp hs hk hne) rfl rfl
    (by simp [Block.yes, Block.setSnow, Block.drawn]) (by simp [Block.yes, Block.setSnow, Block.drawn])
  have hmem := mem_freeClasses.mp ((s.blk.msgTaken ch).pick_mem 1 hne)
  obtain ⟨c, hc⟩ : ∃ c, c = ((s.blk.msgTaken ch).pick (freeClasses ((s.blk.msgTaken ch).snowOf p)) 1).1 := ⟨_, rfl⟩
  rw [← hc] at hmem hregs ht
  rw [Block.snowOf_msgTaken] at hmem ht
  obtain ⟨h1, h15, hfree⟩ := hmem
  refine ⟨t, hi.trans hx, hpend, hr, ⟨c, h1, h15, hfree, hregs 0 (by omega), hregs 1 (by omega), ?_⟩, ?_⟩
  · rw [ht]
    simp [Block.yes]
  · rw [ht]
    simp [Block.yes, Block.setSnow, Block.drawn, Block.mailBack]

/-! ### Namespaces -/

/-- What a message of the PF that changes the pool of its partition leaves. -/
theorem exec_snowAnswer {s : State} {ch : Chan} {type p : Nat} {w : Snow} {h : Block → List Word → Answer}
    (hd : s.blk.delivers ch type) (hb : s.blk.backFree ch)
    (ha : h (s.blk.msgTaken ch) (s.blk.msgWords ch) = ((s.blk.msgTaken ch).setSnow p w).yes) :
    ∃ t : State, onBlk (fun b => b.message ch type h) s = .next t ∧ t.pending = s.pending ∧ t.blk.repliedTo s.blk ch OK ∧
      t.blk.snowOf p = w ∧ { t.blk.mailBack s.blk with snow := s.blk.snow } = s.blk := by
  obtain ⟨t, hx, hp, hr, -, ht⟩ := exec_answer hd hb ha rfl rfl (by simp [Block.yes, Block.setSnow])
    (by simp [Block.yes, Block.setSnow])
  refine ⟨t, hx, hp, hr, ?_, ?_⟩
  · rw [ht]
    simp [Block.yes]
  · rw [ht]
    simp [Block.yes, Block.setSnow, Block.mailBack]

/-- The answer of SNW_NS_SET with LEAVE = 0. -/
def nsJoinAnswer (ch : Chan) (s : Block) (ws : List Word) : Answer :=
  s.pfOnly ch (DENIED 0xA8) <| s.msgPart ch fun p =>
    let w := s.snowOf p
    if (kget w.nsKeys ((mreg ws 2).fld 5 0)).isNone then s.no (REFUSED 0xA7)
    else (s.setSnow p { w with nsOf := kput w.nsOf (mreg ws 1).toNat ((mreg ws 2).fld 5 0) }).yes

theorem snwNsJoin_spec (s : State) (ch : Chan) (p ns : Nat) (hd : s.blk.delivers ch 0x050A) (hb : s.blk.backFree ch)
    (h0 : chFn ch = 0) (hp : p = (s.blk.msgTaken ch).fnPart 0) (hs : ((s.blk.msgTaken ch).part p).isSome = true)
    (hns : ns = (mreg (s.blk.msgWords ch) 2).fld 5 0) (hl : (mreg (s.blk.msgWords ch) 2).bit 6 = false)
    (hk : (kget (s.blk.snowOf p).nsKeys ns).isSome = true) :
    ∃ t : State, exec (.snwNsJoin ch) s = .next t ∧ t.pending = s.pending ∧ t.blk.repliedTo s.blk ch OK ∧
      t.blk.snowOf p = { s.blk.snowOf p with nsOf := kput (s.blk.snowOf p).nsOf (mreg (s.blk.msgWords ch) 1).toNat ns } ∧
      { t.blk.mailBack s.blk with snow := s.blk.snow } = s.blk := by
  have hi : exec (.snwNsJoin ch) s =
    onBlk (fun b => b.messageWhen ch 0x050A (fun ws => !(mreg ws 2).bit 6) (nsJoinAnswer ch)) s := rfl
  rw [hi, onBlk_messageWhen _ _ (by simp [hl])]
  refine exec_snowAnswer hd hb ?_
  unfold nsJoinAnswer
  rw [Block.pfOnly_pf _ _ h0, Block.msgPart_eq _ (h0.symm ▸ hp) hs]
  have hk' : (kget (s.blk.snowOf p).nsKeys ns).isNone = false := by simpa using hk
  simp [← hns, hk']

/-- The answer of SNW_NS_SET with LEAVE = 1. -/
def nsLeaveAnswer (ch : Chan) (s : Block) (ws : List Word) : Answer :=
  s.pfOnly ch (DENIED 0xA8) <| s.msgPart ch fun p =>
    let w := s.snowOf p
    (s.setSnow p { w with nsOf := kdel w.nsOf (mreg ws 1).toNat }).yes

theorem snwNsLeave_spec (s : State) (ch : Chan) (p : Nat) (hd : s.blk.delivers ch 0x050A) (hb : s.blk.backFree ch)
    (h0 : chFn ch = 0) (hp : p = (s.blk.msgTaken ch).fnPart 0) (hs : ((s.blk.msgTaken ch).part p).isSome = true)
    (hl : (mreg (s.blk.msgWords ch) 2).bit 6 = true) :
    ∃ t : State, exec (.snwNsLeave ch) s = .next t ∧ t.pending = s.pending ∧ t.blk.repliedTo s.blk ch OK ∧
      t.blk.snowOf p = { s.blk.snowOf p with nsOf := kdel (s.blk.snowOf p).nsOf (mreg (s.blk.msgWords ch) 1).toNat } ∧
      { t.blk.mailBack s.blk with snow := s.blk.snow } = s.blk := by
  have hi : exec (.snwNsLeave ch) s =
    onBlk (fun b => b.messageWhen ch 0x050A (fun ws => (mreg ws 2).bit 6) (nsLeaveAnswer ch)) s := rfl
  rw [hi, onBlk_messageWhen _ _ hl]
  refine exec_snowAnswer hd hb ?_
  unfold nsLeaveAnswer
  rw [Block.pfOnly_pf _ _ h0, Block.msgPart_eq _ (h0.symm ▸ hp) hs]
  simp

/-- The answer of SNW_NS_CTRL with OP = 0. -/
def nsCreateAnswer (ch : Chan) (s : Block) (ws : List Word) : Answer :=
  s.pfOnly ch (DENIED 0xA8) <| s.msgPart ch fun p =>
    let n := (mreg ws 1).fld 5 0
    if (kget (s.snowOf p).nsKeys n).isSome then s.yes else
    let (k, s) := s.choose (2 ^ 64)
    (s.setSnow p { s.snowOf p with nsKeys := kput (s.snowOf p).nsKeys n k }).yes

theorem nsCreateAnswer_eq {s : Block} {ch : Chan} {ws : List Word} {p n : Nat} (h0 : chFn ch = 0) (hp : p = s.fnPart 0)
    (hs : (s.part p).isSome = true) (hn : n = (mreg ws 1).fld 5 0) :
    nsCreateAnswer ch s ws = if (kget (s.snowOf p).nsKeys n).isSome then s.yes else
      (s.drawn.setSnow p { s.snowOf p with nsKeys := kput (s.snowOf p).nsKeys n (s.choose (2 ^ 64)).1 }).yes := by
  unfold nsCreateAnswer
  rw [Block.pfOnly_pf _ _ h0, Block.msgPart_eq _ (h0.symm ▸ hp) hs, hn]
  rfl

theorem snwNsCreate_spec (s : State) (ch : Chan) (p ns : Nat) (hd : s.blk.delivers ch 0x050B) (hb : s.blk.backFree ch)
    (h0 : chFn ch = 0) (hp : p = (s.blk.msgTaken ch).fnPart 0) (hs : ((s.blk.msgTaken ch).part p).isSome = true)
    (hns : ns = (mreg (s.blk.msgWords ch) 1).fld 5 0) (hop : (mreg (s.blk.msgWords ch) 1).bit 8 = false) :
    ∃ t : State, exec (.snwNsCreate ch) s = .next t ∧ t.pending = s.pending ∧ t.blk.repliedTo s.blk ch OK ∧
      (kget (t.blk.snowOf p).nsKeys ns).isSome = true ∧ ((kget (s.blk.snowOf p).nsKeys ns).isSome = false ∨ t.blk.snow = s.blk.snow) ∧
      (∀ k, k ≠ ns → kget (t.blk.snowOf p).nsKeys k = kget (s.blk.snowOf p).nsKeys k) ∧
      { t.blk.mailBack s.blk with snow := s.blk.snow, freeCtr := s.blk.freeCtr } = s.blk := by
  have hi : exec (.snwNsCreate ch) s =
    onBlk (fun b => b.messageWhen ch 0x050B (fun ws => !(mreg ws 1).bit 8) (nsCreateAnswer ch)) s := rfl
  rw [hi, onBlk_messageWhen _ _ (by simp [hop])]
  have ha := nsCreateAnswer_eq (ws := s.blk.msgWords ch) h0 hp hs hns
  rw [Block.snowOf_msgTaken] at ha
  by_cases hk : (kget (s.blk.snowOf p).nsKeys ns).isSome = true
  case pos =>
    rw [if_pos hk] at ha
    obtain ⟨t, hx, hpend, hr, -, ht⟩ := exec_answer hd hb ha rfl rfl (by simp [Block.yes]) (by simp [Block.yes])
    have hsnow : t.blk.snow = s.blk.snow := by
      rw [ht]
      simp [Block.yes]
    refine ⟨t, hx, hpend, hr, ?_, Or.inr hsnow, ?_, ?_⟩
    · rw [Block.snowOf_congr hsnow]
      exact hk
    · intro k _
      rw [Block.snowOf_congr hsnow]
    · rw [ht]
      simp [Block.yes]
  case neg =>
    rw [if_neg hk] at ha
    obtain ⟨t, hx, hpend, hr, -, ht⟩ := exec_answer hd hb ha rfl rfl (by simp [Block.yes, Block.setSnow, Block.drawn])
      (by simp [Block.yes, Block.setSnow, Block.drawn])
    have hsnow : t.blk.snowOf p = { s.blk.snowOf p with
        nsKeys := kput (s.blk.snowOf p).nsKeys ns ((s.blk.msgTaken ch).choose (2 ^ 64)).1 } := by
      rw [ht]
      simp [Block.yes]
    refine ⟨t, hx, hpend, hr, ?_, Or.inl (Bool.eq_false_iff.mpr hk), ?_, ?_⟩
    · rw [hsnow]
      simp
    · intro k h
      rw [hsnow]
      exact kget_kput_other _ _ h
    · rw [ht]
      simp [Block.yes, Block.setSnow, Block.drawn, Block.mailBack]

/-! ### Pages let go -/

/-- What a change of a pool's pages and of their ledgers keeps: the rest of the pool, every register but those of the ice core's
losses and of breach, and everything that is not the mail's. -/
structure Block.pagesOnly (t s : Block) (p : Nat) : Prop where
  snow : { t.snowOf p with pages := (s.snowOf p).pages } = s.snowOf p
  rest : { t.mailBack s with snow := s.snow } = s
  regs : ∀ a, a ≠ ICE_DROPPED → a ≠ LDG_STATUS → t.rg a = s.rg a
  mbx : t.mbx = s.mbx
  stored : t.ice.stored = s.ice.stored

theorem Block.pagesOnly.refl (s : Block) (p : Nat) : s.pagesOnly s p := ⟨rfl, rfl, fun _ _ _ => rfl, rfl, rfl⟩

theorem Block.pagesOnly.trans {s t u : Block} {p : Nat} (h : u.pagesOnly t p) (h' : t.pagesOnly s p) : u.pagesOnly s p := by
  obtain ⟨hs, hr, hg, hm, hi⟩ := h
  obtain ⟨hs', hr', hg', hm', hi'⟩ := h'
  refine ⟨?_, ?_, fun a h h' => (hg a h h').trans (hg' a h h'), hm.trans hm', hi.trans hi'⟩
  · have h1 : { u.snowOf p with pages := (s.snowOf p).pages } = { t.snowOf p with pages := (s.snowOf p).pages } :=
      (congrArg (fun w : Snow => { w with pages := (s.snowOf p).pages }) hs :)
    exact h1.trans hs'
  · have h1 : { u.mailBack s with snow := s.snow } = { t.mailBack s with snow := s.snow } :=
      (congrArg (fun b : Block => { b.mailBack s with snow := s.snow }) hr :)
    exact h1.trans hr'

theorem Block.led1_pagesOnly (s : Block) (n p : Nat) (m : LedgerMove) : (s.led1 n m).pagesOnly s p := by
  refine ⟨?_, ?_, fun a h h' => s.rg_led1 n m h h', by simp, by simp⟩
  · rw [Block.snowOf_congr (show (s.led1 n m).snow = s.snow by simp)]
  · simp

theorem Block.modPage_pagesOnly (s : Block) (p pid : Nat) (f : Page → Page) : (s.modPage p pid f).pagesOnly s p := by
  refine ⟨?_, rfl, fun _ _ _ => rfl, rfl, rfl⟩
  unfold Block.modPage
  rw [Block.snowOf_setSnow]

theorem Block.freePage_pagesOnly (s : Block) (p pid : Nat) : (s.freePage p pid).pagesOnly s p := by
  unfold Block.freePage
  split
  · exact .refl s p
  next g _ =>
    refine (Block.modPage_pagesOnly ..).trans
      (Block.pagesOnly.trans (t := s.ledSend (pageLedger p (locTier g.loc)) 1) ?_ (s.led1_pagesOnly _ p _))
    split
    · exact Block.led1_pagesOnly ..
    · exact .refl _ p

theorem Block.dropRef_pagesOnly (s : Block) (p pid : Nat) : (s.dropRef p pid).pagesOnly s p := by
  unfold Block.dropRef
  split
  · exact .refl s p
  · dsimp only
    split
    · exact (Block.freePage_pagesOnly ..).trans (Block.led1_pagesOnly ..)
    · exact (Block.modPage_pagesOnly ..).trans (Block.led1_pagesOnly ..)

theorem Block.each_pagesOnly {α : Type} {p : Nat} (l : List α) {f : Block → α → Block} (h : ∀ s x, (f s x).pagesOnly s p) (s : Block) :
    (s.each l f).pagesOnly s p := by
  induction l generalizing s with
  | nil => exact .refl s p
  | cons x l ih => exact (ih (f s x)).trans (h s x)

theorem Block.dropRefs_pagesOnly (s : Block) (p : Nat) (l : List Nat) : (s.dropRefs p l).pagesOnly s p :=
  Block.each_pagesOnly l (fun s x => s.dropRef_pagesOnly p x) s

/-! ### Nodes let go -/

/-- What letting nodes go leaves: the nodes that stay, and otherwise what a change of pages leaves. -/
structure Block.nodesLeft (t s : Block) (p : Nat) (keep : Nat → Bool) : Prop where
  nodes : (t.snowOf p).nodes = (s.snowOf p).nodes.filter fun e => keep e.1
  snow : { t.snowOf p with pages := (s.snowOf p).pages, nodes := (s.snowOf p).nodes } = s.snowOf p
  rest : { t.mailBack s with snow := s.snow } = s
  regs : ∀ a, a ≠ ICE_DROPPED → a ≠ LDG_STATUS → t.rg a = s.rg a
  mbx : t.mbx = s.mbx
  stored : t.ice.stored = s.ice.stored

theorem kdel_of_none {α : Type} {t : Tbl α} {i : Nat} (h : kget t i = none) : kdel t i = t := by
  induction t with
  | nil => rfl
  | cons e t ih =>
    obtain ⟨k, v⟩ := e
    rw [kget_cons] at h
    split at h
    · cases h
    · next hk =>
      rw [kdel, List.filter_cons, if_pos (by simpa using fun h => hk h.symm)]
      exact congrArg _ (ih h)

theorem Block.dropNode_left (s : Block) (p k : Nat) : (s.dropNode p k).nodesLeft s p fun i => i != k := by
  unfold Block.dropNode
  split
  case h_1 h => exact ⟨(kdel_of_none h).symm, rfl, rfl, fun _ _ _ => rfl, rfl, rfl⟩
  case h_2 n _ =>
    obtain ⟨hs, hr, hg, hm, hi⟩ :=
      (s.setSnow p { s.snowOf p with nodes := kdel (s.snowOf p).nodes k }).dropRefs_pagesOnly p n.pages
    rw [Block.snowOf_setSnow] at hs
    exact ⟨(congrArg Snow.nodes hs :), (congrArg (fun w : Snow => { w with nodes := (s.snowOf p).nodes }) hs :),
      (congrArg (fun b : Block => { b.mailBack s with snow := s.snow }) hr :), hg, hm, hi⟩

theorem Block.nodesLeft.trans {s t u : Block} {p : Nat} {f g : Nat → Bool} (h : u.nodesLeft t p g) (h' : t.nodesLeft s p f) :
    u.nodesLeft s p fun i => f i && g i := by
  obtain ⟨hn, hs, hr, hg, hm, hi⟩ := h
  obtain ⟨hn', hs', hr', hg', hm', hi'⟩ := h'
  refine ⟨?_, ?_, ?_, fun a h h' => (hg a h h').trans (hg' a h h'), hm.trans hm', hi.trans hi'⟩
  · rw [hn, hn', List.filter_filter]
    congr 1
    funext e
    exact Bool.and_comm ..
  · exact (congrArg (fun w : Snow => { w with pages := (s.snowOf p).pages, nodes := (s.snowOf p).nodes }) hs :).trans hs'
  · exact (congrArg (fun b : Block => { b.mailBack s with snow := s.snow }) hr :).trans hr'

theorem Block.dropNodes_left (l : List Nat) (s : Block) (p : Nat) :
    (s.each l fun s k => s.dropNode p k).nodesLeft s p fun i => !l.contains i := by
  induction l generalizing s with
  | nil => exact ⟨by simp [Block.each], rfl, rfl, fun _ _ _ => rfl, rfl, rfl⟩
  | cons k l ih =>
    have h := (ih (s.dropNode p k)).trans (s.dropNode_left p k)
    have he : (fun i => (i != k) && !l.contains i) = fun i => !(k :: l).contains i := by
      funext i
      by_cases hi : i = k <;> simp [hi]
    exact he ▸ h

/-- The answer of SNW_NS_CTRL with OP = 1. -/
def nsDestroyAnswer (ch : Chan) (s : Block) (ws : List Word) : Answer :=
  s.pfOnly ch (DENIED 0xA8) <| s.msgPart ch fun p =>
    let n := (mreg ws 1).fld 5 0
    let w := s.snowOf p
    if (kget w.nsKeys n).isNone then s.yes
    else if w.nsOf.any (fun e => e.2 == n) || w.seqs.any fun e => e.2.ns == some n then s.no (BUSY 0xAF)
    else
      let s := s.each (keys (w.nodes.filter fun e => e.2.ns == n)) fun s k => s.dropNode p k
      (s.setSnow p { s.snowOf p with nsKeys := kdel (s.snowOf p).nsKeys n }).yes

/-- A block without the nodes of a namespace. -/
def Block.nsDropped (s : Block) (p n : Nat) : Block :=
  s.each (keys ((s.snowOf p).nodes.filter fun e => e.2.ns == n)) fun s k => s.dropNode p k

theorem nsDestroyAnswer_eq {s : Block} {ch : Chan} {ws : List Word} {p n : Nat} (h0 : chFn ch = 0) (hp : p = s.fnPart 0)
    (hs : (s.part p).isSome = true) (hn : n = (mreg ws 1).fld 5 0) (hk : (kget (s.snowOf p).nsKeys n).isSome = true)
    (hof : (s.snowOf p).nsOf.all (fun e => e.2 != n) = true) (hq : (s.snowOf p).seqs.all (fun e => e.2.ns != some n) = true) :
    nsDestroyAnswer ch s ws = ((s.nsDropped p n).setSnow p { (s.nsDropped p n).snowOf p with
      nsKeys := kdel ((s.nsDropped p n).snowOf p).nsKeys n }).yes := by
  unfold nsDestroyAnswer
  rw [Block.pfOnly_pf _ _ h0, Block.msgPart_eq _ (h0.symm ▸ hp) hs, ← hn]
  dsimp only
  have hany : ((s.snowOf p).nsOf.any (fun e => e.2 == n) || (s.snowOf p).seqs.any fun e => e.2.ns == some n) = false := by
    rw [Bool.or_eq_false_iff, List.any_eq_false, List.any_eq_false]
    rw [List.all_eq_true] at hof hq
    exact ⟨fun e he => by simpa using hof e he, fun e he => by simpa using hq e he⟩
  rw [if_neg (by simpa [Option.ne_none_iff_isSome] using hk), if_neg (by simp [hany])]
  rfl

theorem Block.nsDropped_nodes (s : Block) (p n : Nat) : ((s.nsDropped p n).snowOf p).nodes.all (fun e => e.2.ns != n) = true := by
  rw [Block.nsDropped, (s.dropNodes_left _ p).nodes, List.all_eq_true]
  intro e he
  obtain ⟨hm, hk⟩ := List.mem_filter.mp he
  by_contra h
  have : e.1 ∈ keys ((s.snowOf p).nodes.filter fun e => e.2.ns == n) :=
    List.mem_map_of_mem (List.mem_filter.mpr ⟨hm, by simpa using h⟩)
  simp [this] at hk

theorem snwNsDestroy_spec (s : State) (ch : Chan) (p ns : Nat) (hd : s.blk.delivers ch 0x050B) (hb : s.blk.backFree ch)
    (h0 : chFn ch = 0) (hp : p = (s.blk.msgTaken ch).fnPart 0) (hs : ((s.blk.msgTaken ch).part p).isSome = true)
    (hns : ns = (mreg (s.blk.msgWords ch) 1).fld 5 0) (hop : (mreg (s.blk.msgWords ch) 1).bit 8 = true)
    (hk : (kget (s.blk.snowOf p).nsKeys ns).isSome = true) (hof : (s.blk.snowOf p).nsOf.all (fun e => e.2 != ns) = true)
    (hq : (s.blk.snowOf p).seqs.all (fun e => e.2.ns != some ns) = true) :
    ∃ t : State, exec (.snwNsDestroy ch) s = .next t ∧ t.pending = s.pending ∧ kget (t.blk.snowOf p).nsKeys ns = none ∧
      (∀ k, k ≠ ns → kget (t.blk.snowOf p).nsKeys k = kget (s.blk.snowOf p).nsKeys k) ∧
      (t.blk.snowOf p).nodes.all (fun e => e.2.ns != ns) = true ∧ (t.blk.snowOf p).seqs = (s.blk.snowOf p).seqs ∧
      { t.blk.mailBack s.blk with snow := s.blk.snow } = s.blk := by
  have hi : exec (.snwNsDestroy ch) s =
    onBlk (fun b => b.messageWhen ch 0x050B (fun ws => (mreg ws 1).bit 8) (nsDestroyAnswer ch)) s := rfl
  rw [hi, onBlk_messageWhen _ _ hop]
  have hw := s.blk.snowOf_msgTaken ch p
  have ha := nsDestroyAnswer_eq (ws := s.blk.msgWords ch) h0 hp hs hns (hw ▸ hk) (hw ▸ hof) (hw ▸ hq)
  have hall := (s.blk.msgTaken ch).nsDropped_nodes p ns
  have hleft := (s.blk.msgTaken ch).dropNodes_left
    (keys (((s.blk.msgTaken ch).snowOf p).nodes.filter fun e => e.2.ns == ns)) p
  rw [show ((s.blk.msgTaken ch).each (keys (((s.blk.msgTaken ch).snowOf p).nodes.filter fun e => e.2.ns == ns))
    fun s k => s.dropNode p k) = (s.blk.msgTaken ch).nsDropped p ns from rfl] at hleft
  obtain ⟨b, hbdef⟩ : ∃ b, b = (s.blk.msgTaken ch).nsDropped p ns := ⟨_, rfl⟩
  rw [← hbdef] at ha hall hleft
  obtain ⟨-, hsn, hrest, hg, hm, hst⟩ := hleft
  rw [hw] at hsn
  have hrest' : { b.mailBack s.blk with snow := s.blk.snow } = s.blk := by
    have h1 := (congrArg (fun b : Block => { b.mailBack s.blk with snow := s.blk.snow }) hrest :)
    exact h1.trans (by simp [Block.mailBack])
  have hkeys : (b.snowOf p).nsKeys = (s.blk.snowOf p).nsKeys := (congrArg Snow.nsKeys hsn :)
  obtain ⟨t, hx, hpend, -, -, ht⟩ := exec_answer hd hb ha
    (hg _ (chBack_ne_of_offMail ch (by decide) (by omega)).symm (chBack_ne_of_offMail ch (by decide) (by omega)).symm) hm
    (congrArg (fun b : Block => b.trust.fuses) hrest' :) ((congrArg IceCore.perm (hst.trans (s.blk.msgTaken_stored ch)) :))
  have ht' : t.blk.snowOf p = { b.snowOf p with nsKeys := kdel (b.snowOf p).nsKeys ns } := by
    rw [ht]
    simp [Block.yes]
  refine ⟨t, hx, hpend, ?_, ?_, ?_, ?_, ?_⟩
  · rw [ht']
    simp [kget_kdel]
  · intro k h
    rw [ht', ← hkeys]
    simp [kget_kdel, h]
  · rw [ht']
    exact hall
  · rw [ht']
    exact (congrArg Snow.seqs hsn :)
  · rw [ht, Block.mailBack_reply]
    exact hrest'

/-- Settles O26: each message's answer, one by one; SNW_NS_CTRL by what the removal of the namespace's nodes leaves. -/
theorem classesAndNamespaces : Obligations.ClassesAndNamespaces := by
  unfold Obligations.ClassesAndNamespaces
  exact ⟨snwKvClass_spec, snwNsJoin_spec, snwNsLeave_spec, snwNsCreate_spec, snwNsDestroy_spec⟩

end Sys2Proof.Machine
end

section
/-! Breakpoints, resumption, and GLOBAL semaphores by message (R189, R204). -/

namespace Sys2Proof.Machine

theorem Block.ownJob_eq {s : Block} {ch : Chan} {w : Word} {J : Job} (hj : s.jobAt w.toNat = some J) (hf : J.fn = chFn ch)
    (hs : J.step = none) : s.ownJob ch w = some (w.toNat, J) := by
  simp [Block.ownJob, hj, hf, hs]

theorem Block.ownJob_msgTaken (s : Block) (ch c : Chan) (w : Word) : (s.msgTaken ch).ownJob c w = s.ownJob c w := by
  simp [Block.ownJob, Block.jobAt]

theorem Block.jobStreams_msgTaken (s : Block) (ch : Chan) (J : Job) : (s.msgTaken ch).jobStreams J = s.jobStreams J := by
  simp [Block.jobStreams]

/-- A message whose handling changes one cluster only. -/
theorem exec_clusterAnswer {s : State} {ch : Chan} {type c : Nat} {h : Block → List Word → Answer} {f : Cluster → Cluster}
    (hd : s.blk.delivers ch type) (hb : s.blk.backFree ch)
    (ha : h (s.blk.msgTaken ch) (s.blk.msgWords ch) = ((s.blk.msgTaken ch).modCl c f).yes) :
    ∃ t : State, onBlk (fun b => b.message ch type h) s = .next t ∧ t.pending = s.pending ∧ t.blk.repliedTo s.blk ch OK ∧
      t.blk.cl c = f (s.blk.cl c) ∧ (∀ d, d ≠ c → t.blk.cl d = s.blk.cl d) ∧
      { t.blk.mailBack s.blk with clusters := s.blk.clusters } = s.blk := by
  obtain ⟨t, hx, hp, hr, -, ht⟩ := exec_answer hd hb ha rfl rfl (by simp [Block.yes, Block.modCl, Block.setCl])
    (by simp [Block.yes, Block.modCl, Block.setCl])
  have hk : ∀ d, (s.blk.msgTaken ch).cl d = s.blk.cl d := Block.cl_congr (by simp)
  have hcl : ∀ d, t.blk.cl d = ((s.blk.msgTaken ch).modCl c f).cl d := Block.cl_congr (by
    rw [ht]
    simp [Block.yes])
  refine ⟨t, hx, hp, hr, ?_, ?_, ?_⟩
  · rw [hcl, Block.cl_modCl_same, hk]
  · intro d h
    rw [hcl]
    exact (Block.cl_setCl_other _ _ h).trans (hk d)
  · rw [ht]
    simp [Block.yes, Block.modCl, Block.setCl, Block.mailBack]

/-! ### Breaks -/

/-- The comparator that JOB_BREAK_SET describes. -/
def breakOf (ws : List Word) : Brk :=
  let r := mreg ws 2
  let v := (mreg ws 3).toNat + (if r.bit 9 then 0 else 2 ^ 32 * (mreg ws 4).fld 15 0)
  { en := r.bit 10, tagKind := r.bit 9, value := if r.bit 9 then v % 65536 else v,
    mask := if r.bit 9 then v / 65536 % 65536 else 0 }

/-- The answer of JOB_BREAK_SET. -/
def breakSetAnswer (ch : Chan) (s : Block) (ws : List Word) : Answer :=
  match s.ownJob ch (mreg ws 1) with
  | none => s.no (REFUSED 0x27)
  | some (j, J) =>
    if s.jobStreams J ≤ (mreg ws 2).fld 4 0 then s.no badField
    else (s.breakSet j J ((mreg ws 2).fld 4 0) ((mreg ws 2).fld 8 8) (breakOf ws)).yes

theorem exec_jobBreakSet (s : State) (ch : Chan) :
    exec (.jobBreakSet ch) s = onBlk (fun b => b.message ch 0x0403 (breakSetAnswer ch)) s := rfl

/-- A comparator of a tag holds the tag in its low half and the mask in its high half. -/
theorem breakOf_tag {ws : List Word} (h : (mreg ws 2).bit 9 = true) :
    breakOf ws = { en := (mreg ws 2).bit 10, tagKind := true, value := (mreg ws 3).fld 15 0, mask := (mreg ws 3).fld 31 16 } := by
  have hv : (mreg ws 3).toNat % 65536 = (mreg ws 3).fld 15 0 := by
    show _ = (mreg ws 3).toNat / 1 % 65536
    rw [Nat.div_one]
  simp only [breakOf, h, if_true, Nat.add_zero, hv]
  rfl

theorem Word.fld_eight_eq_zero {w : Word} (h : w.bit 8 = false) : w.fld 8 8 = 0 := by
  rw [Word.bit, Nat.testBit_eq_decide_div_mod_eq, decide_eq_false_iff_not] at h
  show w.toNat / 256 % 2 = 0
  omega

theorem jobBreakSet_spec (s : State) (ch : Chan) (j c st : Nat) (J : Job) (hd : s.blk.delivers ch 0x0403) (hb : s.blk.backFree ch)
    (hj : j = (mreg (s.blk.msgWords ch) 1).toNat) (hJ : s.blk.jobAt j = some J) (hf : J.fn = chFn ch) (hn : J.step = none)
    (hrun : J.state = .running) (hst : st = (mreg (s.blk.msgWords ch) 2).fld 4 0) (hlt : st < s.blk.jobStreams J)
    (hc : J.clusters.getD st 32 = c) (htag : (mreg (s.blk.msgWords ch) 2).bit 9 = true)
    (hi : (mreg (s.blk.msgWords ch) 2).bit 8 = false) :
    ∃ t : State, exec (.jobBreakSet ch) s = .next t ∧ t.pending = s.pending ∧ t.blk.repliedTo s.blk ch OK ∧
      (t.blk.cl c).brk0 = { en := (mreg (s.blk.msgWords ch) 2).bit 10, tagKind := true,
                            value := (mreg (s.blk.msgWords ch) 3).fld 15 0, mask := (mreg (s.blk.msgWords ch) 3).fld 31 16 } ∧
      (t.blk.cl c).brk1 = (s.blk.cl c).brk1 ∧ { t.blk.mailBack s.blk with clusters := s.blk.clusters } = s.blk := by
  subst hj hst hc
  have ha : breakSetAnswer ch (s.blk.msgTaken ch) (s.blk.msgWords ch) =
      ((s.blk.msgTaken ch).modCl (J.clusters.getD ((mreg (s.blk.msgWords ch) 2).fld 4 0) 32) fun k =>
        k.setBrk ((mreg (s.blk.msgWords ch) 2).fld 8 8) (breakOf (s.blk.msgWords ch))).yes := by
    simp only [breakSetAnswer, Block.ownJob_msgTaken, Block.ownJob_eq hJ hf hn, Block.jobStreams_msgTaken,
      if_neg (Nat.not_le.mpr hlt), Block.breakSet, hrun]
  obtain ⟨t, hx, hp, hr, hcl, -, hm⟩ := exec_clusterAnswer hd hb ha
  rw [Word.fld_eight_eq_zero hi, breakOf_tag htag] at hcl
  refine ⟨t, (exec_jobBreakSet s ch).trans hx, hp, hr, ?_, ?_, hm⟩
  · rw [hcl]
    rfl
  · rw [hcl]
    rfl

/-! ### Resumption -/

/-- The answer of JOB_RESUME. -/
def resumeAnswer (step : Bool) (ch : Chan) (s : Block) (ws : List Word) : Answer :=
  match s.ownJob ch (mreg ws 1) with
  | none => s.no (REFUSED 0x27)
  | some (j, J) =>
    if s.jobStreams J ≤ (mreg ws 2).fld 4 0 then s.no badField
    else (s.resumeJob j J ((mreg ws 2).fld 4 0) step).yes

theorem exec_jobResume (s : State) (ch : Chan) (step : Bool) :
    exec (if step then .jobResumeStep ch else .jobResumeRun ch) s =
      onBlk (fun b => b.messageWhen ch 0x0404 (fun ws => (mreg ws 2).bit 8 == step) (resumeAnswer step ch)) s := by
  cases step <;> rfl

theorem jobResume_spec (s : State) (ch : Chan) (j c st : Nat) (J : Job) (step : Bool) (hd : s.blk.delivers ch 0x0404)
    (hb : s.blk.backFree ch) (hj : j = (mreg (s.blk.msgWords ch) 1).toNat) (hJ : s.blk.jobAt j = some J) (hf : J.fn = chFn ch)
    (hn : J.step = none) (hrun : J.state = .running) (hst : st = (mreg (s.blk.msgWords ch) 2).fld 4 0)
    (hlt : st < s.blk.jobStreams J) (hc : J.clusters.getD st 32 = c) (hstep : (mreg (s.blk.msgWords ch) 2).bit 8 = step)
    (hbrk : (s.blk.cl c).state = .broken) :
    ∃ t : State, exec (if step then .jobResumeStep ch else .jobResumeRun ch) s = .next t ∧ t.pending = s.pending ∧
      t.blk.repliedTo s.blk ch OK ∧
      t.blk.cl c = { s.blk.cl c with state := .issuing, stepOver := if step then 2 else 1 } ∧
      (∀ d, d ≠ c → t.blk.cl d = s.blk.cl d) ∧ { t.blk.mailBack s.blk with clusters := s.blk.clusters } = s.blk := by
  subst hj hst hc
  have ha : resumeAnswer step ch (s.blk.msgTaken ch) (s.blk.msgWords ch) =
      ((s.blk.msgTaken ch).modCl (J.clusters.getD ((mreg (s.blk.msgWords ch) 2).fld 4 0) 32) fun k => k.resume step).yes := by
    simp only [resumeAnswer, Block.ownJob_msgTaken, Block.ownJob_eq hJ hf hn, Block.jobStreams_msgTaken,
      if_neg (Nat.not_le.mpr hlt), Block.resumeJob, hrun]
  obtain ⟨t, hx, hp, hr, hcl, ho, hm⟩ := exec_clusterAnswer hd hb ha
  refine ⟨t, ?_, hp, hr, hcl.trans (if_pos hbrk), ho, hm⟩
  rw [exec_jobResume, onBlk_messageWhen _ _ (by simp [hstep])]
  exact hx

/-! ### Semaphores -/

/-- The indexes of GLOBAL semaphores that are free. -/
def freeSems (s : Block) : List Nat := (List.range 4096).filter fun i => (kget s.sems i).isNone

theorem mem_freeSems {s : Block} {i : Nat} : i ∈ freeSems s ↔ i < 4096 ∧ kget s.sems i = none := by
  simp [freeSems]

/-- A GLOBAL semaphore made at an index. -/
def Block.semMade (s : Block) (i pn c : Nat) : Block :=
  ({ s.drawn with sems := kput s.sems i (Sem.fresh pn c) }).ledGrow 0x1E0 c

/-- How SEM_CREATE is handled: the semaphore is made at one of the free indexes. -/
theorem effSemCreate_eq (ch : Chan) : ∃ h : Block → List Word → Answer,
    (∀ s, effSemCreate ch s = s.message ch 0x0405 h) ∧
    ∀ (s : Block) (ws : List Word) (pn : Nat), pn = s.fnPart (chFn ch) → (s.part pn).isSome = true → freeSems s ≠ [] →
      h s ws = (s.semMade (s.pick (freeSems s) 0).1 pn ((mreg ws 1).fld 23 0)).yes [w32 (0x8000 + (s.pick (freeSems s) 0).1)] := by
  refine ⟨_, fun s => by unfold effSemCreate; rfl, ?_⟩
  intro s ws pn hp hs hf
  rw [Block.msgPart_eq _ hp hs]
  dsimp only
  split
  case h_1 h => exact absurd h hf
  case h_2 => rfl

theorem Block.rg_chBack_led1 (s : Block) (ch : Chan) (n : Nat) (m : LedgerMove) :
    (s.led1 n m).rg (chBack ch + 0x44) = s.rg (chBack ch + 0x44) := by
  have hi := (chBack_ne_of_offMail ch (a := ICE_DROPPED) (k := 0x44) (by decide) (by omega)).symm
  have hl := (chBack_ne_of_offMail ch (a := LDG_STATUS) (k := 0x44) (by decide) (by omega)).symm
  exact s.rg_led1 n m hi hl

theorem semCreate_spec (s : State) (ch : Chan) (pn : Nat) (hd : s.blk.delivers ch 0x0405) (hb : s.blk.backFree ch)
    (hp : pn = (s.blk.msgTaken ch).fnPart (chFn ch)) (hs : ((s.blk.msgTaken ch).part pn).isSome = true)
    (hf : ∃ i, i < 4096 ∧ kget s.blk.sems i = none) :
    ∃ t : State, exec (.semCreate ch) s = .next t ∧ t.pending = s.pending ∧ t.blk.repliedTo s.blk ch OK ∧
      (∃ i, i < 4096 ∧ t.blk.rg (chBack ch + 8) = w32 (0x8000 + i) ∧ kget s.blk.sems i = none ∧
        kget t.blk.sems i = some (Sem.fresh pn ((mreg (s.blk.msgWords ch) 1).fld 23 0)) ∧
        ∀ k, k ≠ i → kget t.blk.sems k = kget s.blk.sems k) ∧
      { t.blk.mailBack s.blk with sems := s.blk.sems, freeCtr := s.blk.freeCtr } = s.blk := by
  obtain ⟨h, hh, hans⟩ := effSemCreate_eq ch
  have hi : exec (.semCreate ch) s = onBlk (fun b => b.message ch 0x0405 h) s := congrArg (onBlk · s) (funext hh)
  have hne : freeSems (s.blk.msgTaken ch) ≠ [] := by
    obtain ⟨i, hi⟩ := hf
    exact List.ne_nil_of_mem (mem_freeSems.mpr (by simpa using hi))
  obtain ⟨hlt, hfree⟩ := mem_freeSems.mp ((s.blk.msgTaken ch).pick_mem 0 hne)
  have ha := hans _ (s.blk.msgWords ch) pn hp hs hne
  obtain ⟨i, hidef⟩ : ∃ i, i = ((s.blk.msgTaken ch).pick (freeSems (s.blk.msgTaken ch)) 0).1 := ⟨_, rfl⟩
  rw [← hidef] at hlt hfree ha
  obtain ⟨t, hx, hpend, hr, hregs, ht⟩ := exec_answer hd hb ha (Block.rg_chBack_led1 ..)
    (by simp [Block.yes, Block.semMade, Block.drawn]) (by simp [Block.yes, Block.semMade, Block.drawn])
    (by simp [Block.yes, Block.semMade, Block.drawn])
  have hsems : t.blk.sems = kput s.blk.sems i (Sem.fresh pn ((mreg (s.blk.msgWords ch) 1).fld 23 0)) := by
    rw [ht]
    simp [Block.yes, Block.semMade]
  rw [show (s.blk.msgTaken ch).sems = s.blk.sems by simp] at hfree
  refine ⟨t, hi.trans hx, hpend, hr, ⟨i, hlt, hregs 0 (by omega), hfree, ?_, ?_⟩, ?_⟩
  · rw [hsems, kget_kput_same]
  · intro k h
    rw [hsems, kget_kput_other _ _ h]
  · rw [ht]
    simp [Block.yes, Block.semMade, Block.ledGrow, Block.drawn, Block.mailBack]

/-- The answer of SEM_DESTROY. -/
def semDestroyAnswer (ch : Chan) (s : Block) (ws : List Word) : Answer :=
  s.msgPart ch fun pn =>
    let n := (mreg ws 1).fld 15 0
    match (if semSpace n = 2 then kget s.sems (semIndex n) else none) with
    | none => s.no (REFUSED 0x83)
    | some x =>
      if x.part ≠ pn then s.no (REFUSED 0x83)
      else if !x.waiters.isEmpty || x.holder.isSome then s.no (BUSY 0x87)
      else (({ s with sems := kdel s.sems (semIndex n) }).ledShrink 0x1E0 x.count).yes

/-- A GLOBAL semaphore removed from its index. -/
def Block.semGone (s : Block) (i c : Nat) : Block := ({ s with sems := kdel s.sems i }).ledShrink 0x1E0 c

theorem semDestroyAnswer_eq {s : Block} {ch : Chan} {ws : List Word} {pn n : Nat} {x : Sem} (hp : pn = s.fnPart (chFn ch))
    (hs : (s.part pn).isSome = true) (hn : n = (mreg ws 1).fld 15 0) (h2 : semSpace n = 2)
    (hx : kget s.sems (semIndex n) = some x) (hxp : x.part = pn) (hw : x.waiters = []) (hh : x.holder = none) :
    semDestroyAnswer ch s ws = (s.semGone (semIndex n) x.count).yes := by
  unfold semDestroyAnswer
  rw [Block.msgPart_eq _ hp hs]
  simp only [← hn, h2, if_true, hx, hxp, hw, hh]
  simp [Block.semGone]

theorem semDestroy_spec (s : State) (ch : Chan) (pn n : Nat) (x : Sem) (hd : s.blk.delivers ch 0x0406) (hb : s.blk.backFree ch)
    (hp : pn = (s.blk.msgTaken ch).fnPart (chFn ch)) (hs : ((s.blk.msgTaken ch).part pn).isSome = true)
    (hn : n = (mreg (s.blk.msgWords ch) 1).fld 15 0) (h2 : semSpace n = 2) (hx : kget s.blk.sems (semIndex n) = some x)
    (hxp : x.part = pn) (hw : x.waiters = []) (hh : x.holder = none) :
    ∃ t : State, exec (.semDestroy ch) s = .next t ∧ t.pending = s.pending ∧ t.blk.repliedTo s.blk ch OK ∧
      kget t.blk.sems (semIndex n) = none ∧ (∀ k, k ≠ semIndex n → kget t.blk.sems k = kget s.blk.sems k) ∧
      { t.blk.mailBack s.blk with sems := s.blk.sems } = s.blk := by
  have hi : exec (.semDestroy ch) s = onBlk (fun b => b.message ch 0x0406 (semDestroyAnswer ch)) s := rfl
  have ha := semDestroyAnswer_eq (ws := s.blk.msgWords ch) hp hs hn h2 (by simpa using hx) hxp hw hh
  obtain ⟨t, hxx, hpend, hr, -, ht⟩ := exec_answer hd hb ha (Block.rg_chBack_led1 ..)
    (by simp [Block.yes, Block.semGone]) (by simp [Block.yes, Block.semGone]) (by simp [Block.yes, Block.semGone])
  have hsems : t.blk.sems = kdel s.blk.sems (semIndex n) := by
    rw [ht]
    simp [Block.yes, Block.semGone]
  refine ⟨t, hi.trans hxx, hpend, hr, ?_, ?_, ?_⟩
  · rw [hsems, kget_kdel, if_pos rfl]
  · intro k h
    rw [hsems, kget_kdel, if_neg h]
  · rw [ht]
    simp [Block.yes, Block.semGone, Block.ledShrink, Block.mailBack]

/-- Settles O23: a break and a resumption change one cluster; a semaphore is made at a free index or removed from its own. -/
theorem breakAndSemaphoreMessages : Obligations.BreakAndSemaphoreMessages := by
  unfold Obligations.BreakAndSemaphoreMessages
  exact ⟨jobBreakSet_spec, jobResume_spec, semCreate_spec, semDestroy_spec⟩

end Sys2Proof.Machine
end

section
/-! What a stop of the rails loses and what the always-on rail keeps (R419, R449, R450, R524, R525). -/

namespace Sys2Proof.Machine

/-! ### Registers that a start keeps in part -/

theorem Word.bit_w32 (n i : Nat) (h : i < 32) : (w32 n).bit i = n.testBit i := by
  show (BitVec.ofNat 32 n).toNat.testBit i = n.testBit i
  rw [BitVec.toNat_ofNat, Nat.testBit_mod_two_pow]
  simp [h]

theorem keepBits_bit (a m : Nat) (v : Word) {i : Nat} (h : i < 32) :
    (keepBits a m v).bit i = if m.testBit i then v.bit i else (regReset a).bit i := by
  have key : (keepBits a m v).getLsbD i = ((v.getLsbD i && (w32 m).getLsbD i) || ((regReset a).getLsbD i && !(w32 m).getLsbD i)) := by
    simp [keepBits, h]
  have hm : (w32 m).getLsbD i = m.testBit i := Word.bit_w32 m i h
  show (keepBits a m v).getLsbD i = if m.testBit i then v.getLsbD i else (regReset a).getLsbD i
  rw [key, hm]
  cases m.testBit i <;> simp

/-- A field that a mask keeps whole. -/
theorem keepBits_fld (a m : Nat) (v : Word) {hi lo : Nat} (hl : lo ≤ hi) (hh : hi < 32)
    (hm : ∀ i, lo ≤ i → i ≤ hi → m.testBit i = true) : (keepBits a m v).fld hi lo = v.fld hi lo := by
  refine Nat.eq_of_testBit_eq fun i => ?_
  unfold Word.fld bitsOf
  rw [Nat.testBit_mod_two_pow, Nat.testBit_mod_two_pow, Nat.testBit_div_two_pow, Nat.testBit_div_two_pow]
  by_cases hi' : i < hi + 1 - lo
  · have := keepBits_bit a m v (i := lo + i) (by omega)
    rw [hm _ (by omega) (by omega), if_pos rfl] at this
    rw [Nat.add_comm i lo]
    exact congrArg _ this
  · simp [hi']

theorem keepBits_reset (a m : Nat) : keepBits a m (regReset a) = regReset a := by
  refine BitVec.eq_of_getLsbD_eq fun i hi => ?_
  refine (keepBits_bit a m (regReset a) hi).trans ?_
  split <;> rfl

theorem keepRegs_cons (m : Nat → Nat) (k : Nat) (v : Word) (t : Tbl Word) :
    keepRegs m ((k, v) :: t) =
      if keepBits k (m k) v = regReset k then keepRegs m t else (k, keepBits k (m k) v) :: keepRegs m t := by
  simp only [keepRegs, List.map_cons, List.filter_cons, bne_iff_ne, ne_eq, ite_not]

/-- Every register that is kept is kept by its mask. -/
theorem kget_keepRegs_some {m : Nat → Nat} {t : Tbl Word} {a : Nat} {w : Word} (h : kget (keepRegs m t) a = some w) :
    ∃ v, w = keepBits a (m a) v := by
  induction t with
  | nil => cases h
  | cons e t ih =>
    obtain ⟨k, v⟩ := e
    rw [keepRegs_cons] at h
    split at h
    · exact ih h
    · rw [kget_cons] at h
      split at h
      next hk =>
        subst hk
        exact ⟨v, (Option.some.inj h).symm⟩
      next => exact ih h

theorem kget_keepRegs_none {m : Nat → Nat} {t : Tbl Word} {a : Nat} (h : kget t a = none) : kget (keepRegs m t) a = none := by
  induction t with
  | nil => rfl
  | cons e t ih =>
    obtain ⟨k, v⟩ := e
    rw [kget_cons] at h
    split at h
    · cases h
    next hk =>
      rw [keepRegs_cons]
      split
      · exact ih h
      · rw [kget_cons, if_neg hk]
        exact ih h

theorem kget_keepRegs {m : Nat → Nat} {t : Tbl Word} {a : Nat} {v : Word} (h : kget t a = some v)
    (hn : keepBits a (m a) v ≠ regReset a) : kget (keepRegs m t) a = some (keepBits a (m a) v) := by
  induction t with
  | nil => cases h
  | cons e t ih =>
    obtain ⟨k, u⟩ := e
    rw [kget_cons] at h
    rw [keepRegs_cons]
    split at h
    next hk =>
      subst hk
      cases h
      rw [if_neg hn, kget_cons, if_pos rfl]
    next hk =>
      split
      · exact ih h
      · rw [kget_cons, if_neg hk]
        exact ih h

/-- A bit that a mask does not keep has its reset value. -/
theorem Block.bit_keepRegs_off {s t : Block} {m : Nat → Nat} (ht : t.regs = keepRegs m s.regs) {a i : Nat} (hi : i < 32)
    (hm : (m a).testBit i = false) : (t.rg a).bit i = (regReset a).bit i := by
  unfold Block.rg tget
  rw [ht]
  cases h : kget (keepRegs m s.regs) a with
  | none => rfl
  | some w =>
    obtain ⟨v, hv⟩ := kget_keepRegs_some h
    rw [Option.getD_some, hv, keepBits_bit a (m a) v hi, hm]
    rfl

/-- A register of which a mask keeps something that is not at reset is kept by the mask. -/
theorem Block.rg_keepRegs {s t : Block} {m : Nat → Nat} (ht : t.regs = keepRegs m s.regs) {a : Nat}
    (hn : keepBits a (m a) (s.rg a) ≠ regReset a) : t.rg a = keepBits a (m a) (s.rg a) := by
  unfold Block.rg tget at hn ⊢
  rw [ht]
  cases h : kget s.regs a with
  | none => exact absurd (by rw [h]; exact keepBits_reset ..) hn
  | some v =>
    rw [h] at hn
    rw [kget_keepRegs h hn]
    rfl

/-- A bit set, kept, and 0 at reset shows that its register is kept. -/
theorem Block.rg_keepRegs_of_bit {s t : Block} {m : Nat → Nat} (ht : t.regs = keepRegs m s.regs) {a i : Nat} (hi : i < 32)
    (hm : (m a).testBit i = true) (hr : (regReset a).bit i = false) (hb : s.bit a i = true) :
    t.rg a = keepBits a (m a) (s.rg a) := by
  refine Block.rg_keepRegs ht fun h => ?_
  have hk := keepBits_bit a (m a) (s.rg a) hi
  rw [h, hm, if_pos rfl, hr] at hk
  exact absurd (hk.trans hb) (by decide)

/-- A register of which a mask keeps nothing is at reset. -/
theorem Block.rg_keepRegs_zero {s t : Block} {m : Nat → Nat} (ht : t.regs = keepRegs m s.regs) {a : Nat} (hm : m a = 0) :
    t.rg a = regReset a := by
  refine BitVec.eq_of_getLsbD_eq fun i hi => ?_
  exact Block.bit_keepRegs_off ht hi (by rw [hm, Nat.zero_testBit])

/-! ### What a cold start and a stop of the rails lose -/

/-- What nothing but the always-on rail, the fuses and the surroundings survives. -/
structure Block.lostAll (t s : Block) : Prop where
  jobs : t.jobs = []
  parts : t.parts = []
  objs : t.objs = []
  reqs : t.reqs = []
  bundles : t.bundles = []
  snow : t.snow = []
  mbx : t.mbx = []
  fns : t.fns = []
  fw : t.fw.loaded = false
  link : t.start.linkUp = false
  input : t.start.input = s.start.input
  powered : t.start.powered = s.start.powered
  fuses : t.trust.fuses = s.trust.fuses
  ice : t.ice = s.ice
  env : t.env = s.env

theorem Block.coldClear_lostAll (s : Block) : s.coldClear.lostAll s :=
  ⟨rfl, rfl, rfl, rfl, rfl, rfl, rfl, rfl, rfl, rfl, rfl, rfl, rfl, rfl, rfl⟩

theorem Block.railsStop_lostAll (s : Block) : s.railsStop.lostAll s := by
  unfold Block.railsStop
  dsimp only
  split
  · exact ⟨rfl, rfl, rfl, rfl, rfl, rfl, rfl, rfl, rfl, rfl, rfl, rfl, rfl, rfl, rfl⟩
  · exact ⟨rfl, rfl, rfl, rfl, rfl, rfl, rfl, rfl, rfl, rfl, rfl, rfl, rfl, rfl, rfl⟩

theorem Block.coldClear_regs (s : Block) : s.coldClear.regs = keepRegs latchMask s.regs := rfl

theorem Block.railsStop_pwrGood (s : Block) : s.railsStop.pwr.pwrGood = false := by
  unfold Block.railsStop
  dsimp only
  split <;> rfl

theorem Block.rg_railsStop (s : Block) {a : Nat} (h : a ≠ MOR_START) : s.railsStop.rg a = s.coldClear.rg a := by
  unfold Block.railsStop
  dsimp only
  split
  · exact Block.rg_wr_other _ _ h
  · rfl

theorem Block.phase_setPhase (s : Block) {v : Nat} (h : v < 16) : (s.setPhase v).phase = v :=
  (Block.fld_wf_same _ _ v (by omega) (by omega)).trans (Nat.mod_eq_of_lt h)

theorem Block.railsStop_phase {s : Block} (h : s.coldClear.latched = true) : s.railsStop.phase = 11 := by
  unfold Block.railsStop
  dsimp only
  split
  · exact Block.phase_setPhase _ (by omega)
  · next h' => exact absurd h h'

theorem latchMask_PWR_STATUS : latchMask PWR_STATUS = 0x13E := by decide
theorem latchMask_THM_STATE : latchMask THM_STATE = 0x3FFF0000 := by decide
theorem regReset_PWR_STATUS_bit_one : (regReset PWR_STATUS).bit 1 = false := by decide
theorem regReset_PWR_STATUS_bit_eight : (regReset PWR_STATUS).bit 8 = false := by decide
theorem regReset_THM_STATE_bit : (regReset THM_STATE).bit 16 = false := by decide

/-- A rail fault is kept with its rail. -/
theorem Block.coldClear_railFault {s : Block} (h : s.bit PWR_STATUS 1 = true) :
    s.coldClear.bit PWR_STATUS 1 = true ∧ s.coldClear.fld PWR_STATUS 5 2 = s.fld PWR_STATUS 5 2 := by
  have hk := Block.rg_keepRegs_of_bit s.coldClear_regs (a := PWR_STATUS) (i := 1) (by omega)
    (by rw [latchMask_PWR_STATUS]; decide) regReset_PWR_STATUS_bit_one h
  rw [latchMask_PWR_STATUS] at hk
  constructor
  · refine (congrArg (fun w : Word => w.bit 1) hk).trans ((keepBits_bit _ _ _ (by omega)).trans ?_)
    rw [if_pos (by decide)]
    exact h
  · refine (congrArg (fun w : Word => w.fld 5 2) hk).trans (keepBits_fld _ _ _ (by omega) (by omega) ?_)
    decide

/-- An input fault is kept. -/
theorem Block.coldClear_inputFault {s : Block} (h : s.bit PWR_STATUS 8 = true) : s.coldClear.bit PWR_STATUS 8 = true := by
  have hk := Block.rg_keepRegs_of_bit s.coldClear_regs (a := PWR_STATUS) (i := 8) (by omega)
    (by rw [latchMask_PWR_STATUS]; decide) regReset_PWR_STATUS_bit_eight h
  rw [latchMask_PWR_STATUS] at hk
  refine (congrArg (fun w : Word => w.bit 8) hk).trans ((keepBits_bit _ _ _ (by omega)).trans ?_)
  rw [if_pos (by decide)]
  exact h

/-- A trip is kept with its source. -/
theorem Block.coldClear_trip {s : Block} (h : s.bit THM_STATE 16 = true) :
    s.coldClear.bit THM_STATE 16 = true ∧ s.coldClear.fld THM_STATE 19 17 = s.fld THM_STATE 19 17 ∧
    s.coldClear.fld THM_STATE 29 20 = s.fld THM_STATE 29 20 := by
  have hk := Block.rg_keepRegs_of_bit s.coldClear_regs (a := THM_STATE) (i := 16) (by omega)
    (by rw [latchMask_THM_STATE]; decide) regReset_THM_STATE_bit h
  rw [latchMask_THM_STATE] at hk
  refine ⟨?_, ?_, ?_⟩
  · refine (congrArg (fun w : Word => w.bit 16) hk).trans ((keepBits_bit _ _ _ (by omega)).trans ?_)
    rw [if_pos (by decide)]
    exact h
  · refine (congrArg (fun w : Word => w.fld 19 17) hk).trans (keepBits_fld _ _ _ (by omega) (by omega) ?_)
    decide
  · refine (congrArg (fun w : Word => w.fld 29 20) hk).trans (keepBits_fld _ _ _ (by omega) (by omega) ?_)
    decide

/-! ### Faults of the input and of rails -/

theorem Block.bit_wf_other (s : Block) {a b : Nat} {hi lo i : Nat} (v : Nat) (h : lo ≤ hi) (hw : hi < 32)
    (hd : b ≠ a ∨ i < lo ∨ hi < i) : (s.wf a hi lo v).bit b i = s.bit b i := by
  unfold Block.bit
  rw [Block.rg_wf]
  split
  next e =>
    subst e
    rw [Word.bit_setFld _ _ _ h hw, if_neg (by omega)]
  next => rfl

/-- The block right before an input fault stops its rails. -/
def Block.inputFaulted (s : Block) (event : Nat) (data : List Word) : Block :=
  (({ s with start := { s.start with input := false } } : Block).wb PWR_STATUS 8 true).event srcVaon event data

theorem Block.inputFault_powered {s : Block} (e : Nat) (d : List Word) (hl : s.latched = false) (hp : s.pwr.pwrGood = true) :
    s.inputFault e d = (s.inputFaulted e d).railsStop := by
  unfold Block.inputFault Block.inputFaulted
  exact (if_neg (Bool.eq_false_iff.mp hl)).trans (if_pos hp)

/-- The latch of an input fault, in a module that no trip and no rail fault stopped before. -/
theorem inputFault_stops {s : State} {f : Block → Block} {e : Nat} {d : List Word} (hf : f s.blk = s.blk.inputFault e d)
    (hl : s.blk.latched = false) (hp : s.blk.pwr.pwrGood = true) :
    ∃ t : State, onBlk f s = .next t ∧ t.pending = s.pending ∧ t.blk.start.input = false ∧ t.blk.pwr.pwrGood = false ∧
      t.blk.bit PWR_STATUS 8 = true ∧ t.blk.start.powered = s.blk.start.powered ∧ t.blk.jobs = [] ∧ t.blk.parts = [] ∧
      t.blk.objs = [] ∧ t.blk.reqs = [] ∧ t.blk.bundles = [] ∧ t.blk.mbx = [] ∧ t.blk.fw.loaded = false ∧
      t.blk.start.linkUp = false ∧ t.blk.trust.fuses = s.blk.trust.fuses ∧ t.blk.ice.perm = s.blk.ice.perm ∧
      t.blk.ice.ring = s.blk.ice.ring ∧ t.blk.env = s.blk.env := by
  rw [Block.inputFault_powered e d hl hp] at hf
  have hlost := (s.blk.inputFaulted e d).railsStop_lostAll
  have hgood := (s.blk.inputFaulted e d).railsStop_pwrGood
  have hb : (s.blk.inputFaulted e d).bit PWR_STATUS 8 = true := by
    refine (congrArg (fun w : Word => w.bit 8) (Block.rg_event _ _ _ _ (by decide))).trans ?_
    exact Block.bit_wb_same _ _ _ (by omega)
  have hbit : (s.blk.inputFaulted e d).railsStop.bit PWR_STATUS 8 = true :=
    (congrArg (fun w : Word => w.bit 8) (Block.rg_railsStop _ (by decide))).trans (Block.coldClear_inputFault hb)
  have hice : (s.blk.inputFaulted e d).ice.stored = s.blk.ice.stored := by simp [Block.inputFaulted]
  have hfuse : (s.blk.inputFaulted e d).trust.fuses = s.blk.trust.fuses := by simp [Block.inputFaulted]
  have hinput : (s.blk.inputFaulted e d).start.input = false := by simp [Block.inputFaulted]
  have hpow : (s.blk.inputFaulted e d).start.powered = s.blk.start.powered := by simp [Block.inputFaulted]
  have henv : (s.blk.inputFaulted e d).env = s.blk.env := by simp [Block.inputFaulted]
  obtain ⟨b, hbd⟩ : ∃ b, b = (s.blk.inputFaulted e d).railsStop := ⟨_, rfl⟩
  rw [← hbd] at hf hlost hgood hbit
  have hperm : b.ice.perm = s.blk.ice.perm := (congrArg IceCore.perm hlost.ice).trans (congrArg IceCore.perm hice :)
  refine ⟨_, onBlk_next_of_eq hf (hlost.fuses.trans hfuse) hperm, rfl, hlost.input.trans hinput, hgood, hbit,
    hlost.powered.trans hpow, hlost.jobs, hlost.parts, hlost.objs, hlost.reqs, hlost.bundles, hlost.mbx, hlost.fw, hlost.link,
    hlost.fuses.trans hfuse, hperm, (congrArg IceCore.ring hlost.ice).trans (congrArg IceCore.ring hice :), hlost.env.trans henv⟩

/-- An input fault while a trip or a rail fault is latched. -/
theorem inputFault_latched {s : State} {f : Block → Block} {e : Nat} {d : List Word} (hf : f s.blk = s.blk.inputFault e d)
    (hl : s.blk.latched = true) :
    ∃ t : State, onBlk f s = .next t ∧ t.pending = s.pending ∧ t.blk.start.input = false ∧ t.blk.start.powered = false ∧
      t.blk.ice.queue = [] ∧ t.blk.ice.health = [] ∧ t.blk.ice.ring = s.blk.ice.ring ∧ t.blk.ice.perm = s.blk.ice.perm ∧
      { t.blk with regs := s.blk.regs, start := s.blk.start, ice := s.blk.ice } = s.blk := by
  have he : s.blk.inputFault e d = ({ s.blk with start := { s.blk.start with input := false } } : Block).vaonDown := if_pos hl
  exact ⟨_, onBlk_next_of_eq (hf.trans he) rfl rfl, rfl, rfl, rfl, rfl, rfl, rfl, rfl, rfl⟩

/-- A fault of the input, whichever side it leaves its range on. -/
theorem exec_inputFault {s : State} {i : Instr} {mv : Nat} (hi : i = .vinLow mv ∧ mv < 35000 ∨ i = .vinHigh mv ∧ 62000 < mv)
    (hin : s.blk.start.input = true) : ∃ f e d, exec i s = onBlk f s ∧ f s.blk = s.blk.inputFault e d := by
  rcases hi with ⟨rfl, h⟩ | ⟨rfl, h⟩
  · exact ⟨effVinLow mv, _, _, rfl, if_pos (by simp [hin, h])⟩
  · exact ⟨effVinHigh mv, _, _, rfl, if_pos (by simp [hin, h])⟩

theorem onBlk_idle {f : Block → Block} {s : State} (h : f s.blk = s.blk) : onBlk f s = .next s :=
  onBlk_next_of_eq h rfl rfl

/-- The block right before a rail fault stops its rails. -/
def Block.railFaulted (s : Block) (rail mv : Nat) : Block :=
  ((s.wb PWR_STATUS 1 true).wf PWR_STATUS 5 2 rail).event srcVaon 0x0303 [w32 rail, w32 mv]

theorem Block.railFaulted_latch (s : Block) {rail : Nat} (mv : Nat) (hr : rail < 9) :
    (s.railFaulted rail mv).bit PWR_STATUS 1 = true ∧ (s.railFaulted rail mv).fld PWR_STATUS 5 2 = rail := by
  have hg : (s.railFaulted rail mv).rg PWR_STATUS = ((s.wb PWR_STATUS 1 true).wf PWR_STATUS 5 2 rail).rg PWR_STATUS :=
    Block.rg_event _ _ _ _ (by decide)
  constructor
  · refine (congrArg (fun w : Word => w.bit 1) hg).trans ((Block.bit_wf_other _ _ (by omega) (by omega) ?_).trans ?_)
    · exact Or.inr (Or.inl (by omega))
    · exact Block.bit_wb_same _ _ _ (by omega)
  · refine (congrArg (fun w : Word => w.fld 5 2) hg).trans ((Block.fld_wf_same _ _ _ (by omega) (by omega)).trans ?_)
    exact Nat.mod_eq_of_lt (by omega)

theorem railOutOfRegulation_spec (s : State) (rail mv : Nat) (hp : s.blk.pwr.pwrGood = true) (hr : rail < 9) :
    ∃ t : State, exec (.railOutOfRegulation rail mv) s = .next t ∧ t.pending = s.pending ∧ t.blk.pwr.pwrGood = false ∧
      t.blk.bit PWR_STATUS 1 = true ∧ t.blk.fld PWR_STATUS 5 2 = rail ∧ t.blk.phase = 11 ∧ t.blk.moduleAlert = true ∧ t.blk.jobs = [] ∧
      t.blk.parts = [] ∧ t.blk.objs = [] ∧ t.blk.fw.loaded = false ∧ t.blk.trust.fuses = s.blk.trust.fuses ∧
      t.blk.ice.ring = s.blk.ice.ring ∧ t.blk.env = s.blk.env := by
  have hi : exec (.railOutOfRegulation rail mv) s = onBlk (effRailOutOfRegulation rail mv) s := rfl
  have hf : effRailOutOfRegulation rail mv s.blk = (s.blk.railFaulted rail mv).railsStop := if_pos (by simp [hp, hr])
  obtain ⟨h1, h2⟩ := s.blk.railFaulted_latch mv hr
  obtain ⟨hc1, hc2⟩ := Block.coldClear_railFault h1
  have hlost := (s.blk.railFaulted rail mv).railsStop_lostAll
  have hgood := (s.blk.railFaulted rail mv).railsStop_pwrGood
  have hphase : (s.blk.railFaulted rail mv).railsStop.phase = 11 :=
    Block.railsStop_phase (by rw [Block.latched, hc1, Bool.or_true])
  have hrg : (s.blk.railFaulted rail mv).railsStop.rg PWR_STATUS = (s.blk.railFaulted rail mv).coldClear.rg PWR_STATUS :=
    Block.rg_railsStop _ (by decide)
  have hice : (s.blk.railFaulted rail mv).ice.stored = s.blk.ice.stored := by simp [Block.railFaulted]
  have hfuse : (s.blk.railFaulted rail mv).trust.fuses = s.blk.trust.fuses := by simp [Block.railFaulted]
  have henv : (s.blk.railFaulted rail mv).env = s.blk.env := by simp [Block.railFaulted]
  obtain ⟨b, hbd⟩ : ∃ b, b = (s.blk.railFaulted rail mv).railsStop := ⟨_, rfl⟩
  rw [← hbd] at hf hlost hgood hphase hrg
  have hbit : b.bit PWR_STATUS 1 = true := (congrArg (fun w : Word => w.bit 1) hrg).trans hc1
  refine ⟨_, hi.trans (onBlk_next_of_eq hf (hlost.fuses.trans hfuse) ((congrArg IceCore.perm hlost.ice).trans
    (congrArg IceCore.perm hice :))), rfl, hgood, hbit, (congrArg (fun w : Word => w.fld 5 2) hrg).trans (hc2.trans h2), hphase,
    ?_, hlost.jobs, hlost.parts, hlost.objs, hlost.fw, hlost.fuses.trans hfuse,
    (congrArg IceCore.ring hlost.ice).trans (congrArg IceCore.ring hice :), hlost.env.trans henv⟩
  show b.moduleAlert = true
  rw [Block.moduleAlert, hbit, Bool.or_true]

/-- Settles O49: each fault latches its bits, which a stop of the rails keeps (`coldClear_railFault`), and loses the rest
(`railsStop_lostAll`). -/
theorem powerFaults : Obligations.PowerFaults := by
  refine ⟨?stops, ?latched, ?low, ?high, railOutOfRegulation_spec, ?noRail⟩
  case stops =>
    intro s i mv hi hin hl hp
    obtain ⟨f, e, d, hx, hf⟩ := exec_inputFault hi hin
    rw [hx]
    exact inputFault_stops hf hl hp
  case latched =>
    intro s i mv hi hin hl
    obtain ⟨f, e, d, hx, hf⟩ := exec_inputFault hi hin
    rw [hx]
    exact inputFault_latched hf hl
  case low =>
    intro s mv h
    refine onBlk_idle (f := effVinLow mv) (if_neg ?_)
    rw [Bool.and_eq_true, decide_eq_true_iff]
    rintro ⟨h1, h2⟩
    rcases h with h | h
    · rw [h] at h1
      cases h1
    · omega
  case high =>
    intro s mv h
    refine onBlk_idle (f := effVinHigh mv) (if_neg ?_)
    rw [Bool.and_eq_true, decide_eq_true_iff]
    rintro ⟨h1, h2⟩
    rcases h with h | h
    · rw [h] at h1
      cases h1
    · omega
  case noRail =>
    intro s rail mv h
    refine onBlk_idle (f := effRailOutOfRegulation rail mv) (if_neg ?_)
    rw [Bool.and_eq_true, decide_eq_true_iff]
    rintro ⟨h1, h2⟩
    rcases h with h | h
    · rw [h] at h1
      cases h1
    · omega

end Sys2Proof.Machine
end

section
/-! Sensors and trips (R456 to R460). -/

namespace Sys2Proof.Machine

/-! ### Levels of zones -/

/-- What an update of a zone's level keeps: every register but the levels, the count of warnings and of records lost, the latched
trip, and everything but registers and the ice core's queues. -/
structure Block.levelKept (t s : Block) : Prop where
  regs : ∀ a, a ≠ THM_STATE → a ≠ THM_CNT_WARN → a ≠ ICE_DROPPED → t.rg a = s.rg a
  trip : ∀ i, 10 ≤ i → t.bit THM_STATE i = s.bit THM_STATE i
  rest : { t with regs := s.regs, ice := s.ice } = s
  stored : t.ice.stored = s.ice.stored

theorem Block.levelKept.refl (s : Block) : s.levelKept s := ⟨fun _ _ _ _ => rfl, fun _ _ => rfl, rfl, rfl⟩

theorem Block.levelKept.trans {s t u : Block} (h : u.levelKept t) (h' : t.levelKept s) : u.levelKept s := by
  obtain ⟨hg, ht, hr, hs⟩ := h
  obtain ⟨hg', ht', hr', hs'⟩ := h'
  refine ⟨fun a h1 h2 h3 => (hg a h1 h2 h3).trans (hg' a h1 h2 h3), fun i h => (ht i h).trans (ht' i h), ?_, hs.trans hs'⟩
  exact (congrArg (fun b : Block => { b with regs := s.regs, ice := s.ice }) hr :).trans hr'

theorem Block.event_levelKept (s : Block) (src ev : Nat) (d : List Word) : (s.event src ev d).levelKept s := by
  refine ⟨fun a _ _ h => Block.rg_event _ _ _ _ h, fun i _ => ?_, by simp, by simp⟩
  exact congrArg (fun w : Word => w.bit i) (Block.rg_event _ _ _ _ (by decide))

theorem Block.bump_warn_levelKept (s : Block) : (s.bump THM_CNT_WARN).levelKept s := by
  have h : THM_STATE ≠ THM_CNT_WARN := by decide
  exact ⟨fun a _ h _ => Block.rg_bump_other _ _ h, fun i _ => congrArg (fun w : Word => w.bit i) (Block.rg_bump_other _ _ h), rfl, rfl⟩

theorem Block.level_levelKept (s : Block) {z : Nat} (v : Nat) (hz : z < 5) :
    (s.wf THM_STATE (2 * z + 1) (2 * z) v).levelKept s :=
  ⟨fun a h _ _ => Block.rg_wf_other _ _ _ _ h,
    fun i hi => Block.bit_wf_other _ _ (by omega) (by omega) (Or.inr (Or.inr (by omega))), rfl, rfl⟩

theorem Block.levelEvents_levelKept (s : Block) (zone index : Nat) (temp : Int) (warn thr : Bool) :
    (s.levelEvents zone index temp warn thr).levelKept s := by
  unfold Block.levelEvents
  have h1 : (if warn then (s.bump THM_CNT_WARN).event srcHealth 0x0401 [w32 zone, w32 index, wOfInt temp] else s).levelKept s := by
    split
    · exact (Block.event_levelKept ..).trans (Block.bump_warn_levelKept s)
    · exact .refl s
  dsimp only
  split
  · exact (Block.event_levelKept ..).trans h1
  · exact h1

theorem Block.zoneUpdate_levelKept (s : Block) {z : Nat} (lo cnt n : Nat) (hz : z < 5) : (s.zoneUpdate z lo cnt n).levelKept s := by
  unfold Block.zoneUpdate
  dsimp only
  split
  · exact (Block.levelEvents_levelKept ..).trans (Block.level_levelKept s _ hz)
  · split
    · exact .refl s
    · exact (Block.levelEvents_levelKept ..).trans (Block.level_levelKept s _ hz)

/-! ### The reading and its ratio check -/

theorem THM_SENSOR_ne {n : Nat} (h : n < 560) :
    THM_SENSOR n ≠ THM_STATE ∧ THM_SENSOR n ≠ THM_CNT_WARN ∧ THM_SENSOR n ≠ ICE_DROPPED := by
  have e : THM_SENSOR n = 0x00208100 + 4 * n := rfl
  have e1 : THM_STATE = 0x00208000 := rfl
  have e2 : THM_CNT_WARN = 0x00208010 := rfl
  have e3 : ICE_DROPPED = 0x0040001C := rfl
  omega

theorem THM_SENSOR_inj {m n : Nat} (h : m ≠ n) : THM_SENSOR m ≠ THM_SENSOR n := by
  have e : ∀ k, THM_SENSOR k = 0x00208100 + 4 * k := fun _ => rfl
  rw [e, e]
  omega

/-- The failures of the ratio check in a row, after one conversion. -/
def ratioFailsAfter (s : Block) (n : Nat) (ok : Bool) : Nat := if ok then 0 else tget 0 s.pwr.ratioFails n + 1

/-- A conversion read and its ratio checked. -/
structure Block.converted (t s : Block) (n : Nat) (temp : Int) (ok : Bool) : Prop where
  reading : t.fld (THM_SENSOR n) 10 0 = (temp % 2048).toNat
  valid : t.bit (THM_SENSOR n) 11 = (s.bit (THM_SENSOR n) 11 && decide (ratioFailsAfter s n ok ≠ 3))
  others : ∀ a, a ≠ THM_SENSOR n → a ≠ THM_STATE → a ≠ THM_CNT_WARN → a ≠ ICE_DROPPED → t.rg a = s.rg a
  trip : ∀ i, 10 ≤ i → t.bit THM_STATE i = s.bit THM_STATE i
  pwr : t.pwr = { s.pwr with ratioFails := tset 0 s.pwr.ratioFails n (min 3 (ratioFailsAfter s n ok)) }
  rest : { t with regs := s.regs, pwr := s.pwr, ice := s.ice } = s
  stored : t.ice.stored = s.ice.stored

theorem Block.levelKept.converted {s t u : Block} {n : Nat} {temp : Int} {ok : Bool} (h : u.levelKept t)
    (h' : t.converted s n temp ok) (hn : n < 560) : u.converted s n temp ok := by
  obtain ⟨hg, ht, hr, hs⟩ := h
  obtain ⟨hread, hval, hoth, htrip, hpwr, hrest, hst⟩ := h'
  obtain ⟨n1, n2, n3⟩ := THM_SENSOR_ne hn
  have hsens := hg _ n1 n2 n3
  have hup : u.pwr = t.pwr := (congrArg Block.pwr hr :)
  refine ⟨(congrArg (fun w : Word => w.fld 10 0) hsens).trans hread, (congrArg (fun w : Word => w.bit 11) hsens).trans hval,
    fun a h0 h1 h2 h3 => (hg a h1 h2 h3).trans (hoth a h0 h1 h2 h3), fun i hi => (ht i hi).trans (htrip i hi), hup.trans hpwr, ?_,
    hs.trans hst⟩
  exact (congrArg (fun b : Block => { b with regs := s.regs, pwr := s.pwr, ice := s.ice }) hr :).trans hrest

/-- The reading of a sensor and the count of its ratio failures, before a third failure invalidates it. -/
def Block.sensorRead (s : Block) (n : Nat) (temp : Int) (ok : Bool) : Block :=
  { s.wf (THM_SENSOR n) 10 0 (temp % 2048).toNat with
    pwr := { s.pwr with ratioFails := tset 0 s.pwr.ratioFails n (min 3 (ratioFailsAfter s n ok)) } }

theorem Block.sensorRead_bit (s : Block) (n : Nat) (temp : Int) (ok : Bool) :
    (s.sensorRead n temp ok).bit (THM_SENSOR n) 11 = s.bit (THM_SENSOR n) 11 :=
  Block.bit_wf_other s _ (by omega) (by omega) (Or.inr (Or.inr (by omega)))

theorem Block.sensorRead_fld (s : Block) (n : Nat) (temp : Int) (ok : Bool) :
    (s.sensorRead n temp ok).fld (THM_SENSOR n) 10 0 = (temp % 2048).toNat :=
  (Block.fld_wf_same s _ _ (by omega) (by omega)).trans (Nat.mod_eq_of_lt (by omega))

theorem Block.rg_sensorRead (s : Block) {a n : Nat} (h : a ≠ THM_SENSOR n) (temp : Int) (ok : Bool) :
    (s.sensorRead n temp ok).rg a = s.rg a := Block.rg_wf_other s _ _ _ h

theorem Block.ratioCheck_eq (s : Block) (n : Nat) (temp : Int) (ok : Bool) :
    (s.wf (THM_SENSOR n) 10 0 (temp % 2048).toNat).ratioCheck n ok =
      if ratioFailsAfter s n ok = 3 ∧ s.bit (THM_SENSOR n) 11 = true
      then ((s.sensorRead n temp ok).wb (THM_SENSOR n) 11 false).event srcHealth 0x0405 [w32 n] else s.sensorRead n temp ok := by
  have h := s.sensorRead_bit n temp ok
  unfold Block.ratioCheck
  rw [← h]
  rfl

theorem Block.ratioCheck_converted (s : Block) {n : Nat} (temp : Int) (ok : Bool) (hn : n < 560) :
    ((s.wf (THM_SENSOR n) 10 0 (temp % 2048).toNat).ratioCheck n ok).converted s n temp ok := by
  obtain ⟨n1, n2, n3⟩ := THM_SENSOR_ne hn
  rw [Block.ratioCheck_eq]
  split
  next h =>
    obtain ⟨h3, hb⟩ := h
    refine ⟨?_, ?_, ?_, ?_, by simp [Block.sensorRead], by simp [Block.sensorRead], by simp [Block.sensorRead]⟩
    · refine (congrArg (fun w : Word => w.fld 10 0) (Block.rg_event _ _ _ _ n3)).trans ?_
      exact (Block.fld_wf_other _ _ _ _ (by omega) (by omega) (Or.inr (Or.inl (by omega)))).trans (s.sensorRead_fld ..)
    · refine (congrArg (fun w : Word => w.bit 11) (Block.rg_event _ _ _ _ n3)).trans ?_
      refine (Block.bit_wb_same _ _ _ (by omega)).trans ?_
      simp [h3]
    · intro a h0 _ _ hd
      exact (Block.rg_event _ _ _ _ hd).trans ((Block.rg_wb_other _ _ _ h0).trans (s.rg_sensorRead h0 ..))
    · intro i _
      refine congrArg (fun w : Word => w.bit i) ((Block.rg_event _ _ _ _ (by decide)).trans ?_)
      exact (Block.rg_wb_other _ _ _ n1.symm).trans (s.rg_sensorRead n1.symm ..)
  next h =>
    refine ⟨s.sensorRead_fld .., (s.sensorRead_bit ..).trans ?_, fun a h0 _ _ _ => s.rg_sensorRead h0 .., ?_, rfl, rfl, rfl⟩
    · by_cases h3 : ratioFailsAfter s n ok = 3
      · have hb : s.bit (THM_SENSOR n) 11 = false := Bool.eq_false_iff.mpr fun hb => h ⟨h3, hb⟩
        simp [hb]
      · simp [h3]
    · intro i _
      exact congrArg (fun w : Word => w.bit i) (s.rg_sensorRead n1.symm ..)

/-! ### The comparator of the shutdown threshold -/

/-- A conversion up to the level of its zone. -/
def Block.sensed (s : Block) (n : Nat) (temp : Int) (ok : Bool) : Block :=
  let b := (s.wf (THM_SENSOR n) 10 0 (temp % 2048).toNat).ratioCheck n ok
  if (sensorZone n).1 < 5 then b.zoneUpdate (sensorZone n).1 (sensorZone n).2.1 (sensorZone n).2.2 n else b

/-- The conversions in a row at the shutdown threshold, with this one. -/
def Block.atTripAfter (s : Block) (n : Nat) (temp : Int) : Nat :=
  if (s.bit (THM_SENSOR n) 11 && !(decide (5 ≤ (sensorZone n).1) && s.zoneBlind (sensorZone n).2.1 (sensorZone n).2.2)) &&
    decide (tripAt n ≤ temp) then tget 0 s.pwr.atTrip n + 1 else 0

/-- A block with the comparator's count. -/
def Block.compared (s : Block) (n k : Nat) : Block := { s with pwr := { s.pwr with atTrip := tset 0 s.pwr.atTrip n (min 2 k) } }

theorem sensorEffect_eq (s : Block) (n : Nat) (temp : Int) (ok : Bool) :
    sensorEffect n temp ok s =
      if 2 ≤ (s.sensed n temp ok).atTripAfter n temp
      then ((s.sensed n temp ok).compared n ((s.sensed n temp ok).atTripAfter n temp)).trip 0 n temp
      else (s.sensed n temp ok).compared n ((s.sensed n temp ok).atTripAfter n temp) := rfl

theorem Block.sensed_converted (s : Block) {n : Nat} (temp : Int) (ok : Bool) (hn : n < 560) :
    (s.sensed n temp ok).converted s n temp ok := by
  have h := s.ratioCheck_converted temp ok hn
  unfold Block.sensed
  dsimp only
  split
  next hz => exact (Block.zoneUpdate_levelKept _ _ _ _ hz).converted h hn
  next => exact h

theorem Block.compared_atTrip (s : Block) (n k : Nat) : tget 0 (s.compared n k).pwr.atTrip n = min 2 k := tget_tset_same ..

/-! ### Trips -/

/-- The latch of a trip, before the rails stop. -/
def Block.tripLatched (s : Block) (src index : Nat) (temp : Int) : Block :=
  (if src = 1 then (((s.wb THM_STATE 16 true).wf THM_STATE 19 17 src).wf THM_STATE 29 20 index).wb (STK_TEMP index) 12 true
    else ((s.wb THM_STATE 16 true).wf THM_STATE 19 17 src).wf THM_STATE 29 20 index).event srcVaon 0x0403
      [w32 src, w32 index, wOfInt temp]

theorem Block.trip_eq (s : Block) (src index : Nat) (temp : Int) : s.trip src index temp = (s.tripLatched src index temp).railsStop := rfl

theorem STK_TEMP_ne_THM_STATE (n : Nat) : STK_TEMP n ≠ THM_STATE := by
  have e : STK_TEMP n = 0x02000000 + n * 0x10000 + 8 := rfl
  have e1 : THM_STATE = 0x00208000 := rfl
  omega

theorem Block.tripLatched_latch (s : Block) {src index : Nat} (temp : Int) (hs : src < 2) (hi : index < 1024) :
    (s.tripLatched src index temp).bit THM_STATE 16 = true ∧ (s.tripLatched src index temp).fld THM_STATE 19 17 = src ∧
    (s.tripLatched src index temp).fld THM_STATE 29 20 = index ∧
    (src = 1 → (s.tripLatched src index temp).bit (STK_TEMP index) 12 = true) := by
  have hst : (s.tripLatched src index temp).rg THM_STATE =
      (((s.wb THM_STATE 16 true).wf THM_STATE 19 17 src).wf THM_STATE 29 20 index).rg THM_STATE := by
    refine (Block.rg_event _ _ _ _ (by decide)).trans ?_
    split
    · exact Block.rg_wb_other _ _ _ (STK_TEMP_ne_THM_STATE index).symm
    · rfl
  refine ⟨?_, ?_, ?_, ?_⟩
  · refine (congrArg (fun w : Word => w.bit 16) hst).trans ?_
    refine (Block.bit_wf_other _ _ (by omega) (by omega) (Or.inr (Or.inl (by omega)))).trans ?_
    exact (Block.bit_wf_other _ _ (by omega) (by omega) (Or.inr (Or.inl (by omega)))).trans (Block.bit_wb_same _ _ _ (by omega))
  · refine (congrArg (fun w : Word => w.fld 19 17) hst).trans ?_
    refine (Block.fld_wf_other _ _ _ _ (by omega) (by omega) (Or.inr (Or.inl (by omega)))).trans ?_
    exact (Block.fld_wf_same _ _ _ (by omega) (by omega)).trans (Nat.mod_eq_of_lt (by omega))
  · refine (congrArg (fun w : Word => w.fld 29 20) hst).trans ?_
    exact (Block.fld_wf_same _ _ _ (by omega) (by omega)).trans (Nat.mod_eq_of_lt (by omega))
  · intro h1
    unfold Block.tripLatched
    rw [if_pos h1]
    have hne : STK_TEMP index ≠ ICE_DROPPED := by
      have e : STK_TEMP index = 0x02000000 + index * 0x10000 + 8 := rfl
      have e1 : ICE_DROPPED = 0x0040001C := rfl
      omega
    exact (congrArg (fun w : Word => w.bit 12) (Block.rg_event _ _ _ _ hne)).trans (Block.bit_wb_same _ _ _ (by omega))

theorem latchMask_STK_TEMP {n : Nat} (h : n < 24) : latchMask (STK_TEMP n) = 0x1000 := by
  have e : STK_TEMP n = 0x02000000 + n * 0x10000 + 8 := rfl
  have e1 : THM_STATE = 0x00208000 := rfl
  have e2 : PWR_STATUS = 0x00200008 := rfl
  have hany : ((List.range 24).any fun m => STK_TEMP n == STK_TEMP m) = true :=
    List.any_eq_true.mpr ⟨n, List.mem_range.mpr h, beq_self_eq_true _⟩
  unfold latchMask
  rw [if_neg (by omega), if_neg (by omega), if_pos hany]

theorem regReset_STK_TEMP_bit : ∀ n < 24, (regReset (STK_TEMP n)).bit 12 = false := by decide

/-- What a trip leaves. -/
structure Block.tripped (t s : Block) (src index : Nat) : Prop where
  lost : t.lostAll s
  good : t.pwr.pwrGood = false
  phase : t.phase = 11
  heat : t.overheat = true
  source : t.fld THM_STATE 19 17 = src
  spot : t.fld THM_STATE 29 20 = index
  stack : src = 1 → index < 24 → t.bit (STK_TEMP index) 12 = true

theorem Block.trip_tripped (s : Block) {src index : Nat} (temp : Int) (hs : src < 2) (hi : index < 1024) :
    (s.trip src index temp).tripped (s.tripLatched src index temp) src index := by
  rw [Block.trip_eq]
  obtain ⟨h16, hsrc, hidx, hstk⟩ := s.tripLatched_latch temp hs hi
  obtain ⟨hc16, hcs, hci⟩ := Block.coldClear_trip h16
  obtain ⟨b, hb⟩ : ∃ b, b = s.tripLatched src index temp := ⟨_, rfl⟩
  rw [← hb] at hc16 hcs hci hsrc hidx hstk ⊢
  have hrg : b.railsStop.rg THM_STATE = b.coldClear.rg THM_STATE := Block.rg_railsStop _ (by decide)
  refine ⟨b.railsStop_lostAll, b.railsStop_pwrGood, Block.railsStop_phase (by rw [Block.latched, hc16, Bool.true_or]),
    (congrArg (fun w : Word => w.bit 16) hrg).trans hc16, (congrArg (fun w : Word => w.fld 19 17) hrg).trans (hcs.trans hsrc),
    (congrArg (fun w : Word => w.fld 29 20) hrg).trans (hci.trans hidx), ?_⟩
  intro h1 h24
  have hm := latchMask_STK_TEMP h24
  have hne : STK_TEMP index ≠ MOR_START := by
    have e : STK_TEMP index = 0x02000000 + index * 0x10000 + 8 := rfl
    have e1 : MOR_START = 0x00000100 := rfl
    omega
  have hk := Block.rg_keepRegs_of_bit b.coldClear_regs (a := STK_TEMP index) (i := 12) (by omega) (by rw [hm]; decide)
    (regReset_STK_TEMP_bit index h24) (hstk h1)
  rw [hm] at hk
  refine (congrArg (fun w : Word => w.bit 12) ((Block.rg_railsStop _ hne).trans hk)).trans ?_
  rw [keepBits_bit _ _ _ (by omega), if_pos (by decide)]
  exact hstk h1

theorem Block.tripLatched_frame (s : Block) (src index : Nat) (temp : Int) :
    { s.tripLatched src index temp with regs := s.regs, ice := s.ice } = s ∧
    (s.tripLatched src index temp).ice.stored = s.ice.stored := by
  unfold Block.tripLatched
  split <;> simp

/-- A command that trips, from a block whose lasting parts are those of its state. -/
theorem onBlk_trip {s : State} {f : Block → Block} {b : Block} {src index : Nat} {temp : Int} (hf : f s.blk = b.trip src index temp)
    (hs : src < 2) (hi : index < 1024) (hb : { b with regs := s.blk.regs, pwr := s.blk.pwr, ice := s.blk.ice } = s.blk)
    (hst : b.ice.stored = s.blk.ice.stored) :
    ∃ t : State, onBlk f s = .next t ∧ t.pending = s.pending ∧ t.blk.tripped (b.tripLatched src index temp) src index ∧
      t.blk.trust.fuses = s.blk.trust.fuses ∧ t.blk.ice.ring = s.blk.ice.ring ∧ t.blk.env = s.blk.env := by
  have h := b.trip_tripped temp hs hi
  obtain ⟨hfr, hst'⟩ := b.tripLatched_frame src index temp
  have hl := h.lost
  have hfuse : (b.trip src index temp).trust.fuses = s.blk.trust.fuses :=
    hl.fuses.trans ((congrArg (fun b : Block => b.trust.fuses) hfr :).trans (congrArg (fun b : Block => b.trust.fuses) hb :))
  have hice : (b.trip src index temp).ice = (b.tripLatched src index temp).ice := hl.ice
  refine ⟨_, onBlk_next_of_eq hf hfuse ((congrArg IceCore.perm hice).trans (congrArg IceCore.perm (hst'.trans hst) :)), rfl, h, hfuse,
    (congrArg IceCore.ring hice).trans (congrArg IceCore.ring (hst'.trans hst) :), ?_⟩
  exact hl.env.trans ((congrArg Block.env hfr :).trans (congrArg Block.env hb :))

/-! ### Conversions -/

theorem exec_sensorConversion {s : State} {n : Nat} (temp : Int) (ok : Bool) (hn : n < 560) (hp : s.blk.pwr.pwrGood = true) :
    exec (.sensorConversion n temp ok) s = onBlk (effSensorConversion n temp ok) s ∧
    effSensorConversion n temp ok s.blk = sensorEffect n temp ok s.blk :=
  ⟨rfl, if_pos ⟨hn, hp⟩⟩

/-- A conversion that does not trip. -/
theorem sensorConversion_steady {s : State} {n : Nat} {temp : Int} {ok : Bool} {k : Nat} (hn : n < 560)
    (hp : s.blk.pwr.pwrGood = true) (hk : (s.blk.sensed n temp ok).atTripAfter n temp = k) (h2 : k < 2) :
    ∃ t : State, exec (.sensorConversion n temp ok) s = .next t ∧ t.pending = s.pending ∧
      (s.blk.sensed n temp ok).converted s.blk n temp ok ∧ t.blk = (s.blk.sensed n temp ok).compared n k := by
  obtain ⟨hx, he⟩ := exec_sensorConversion temp ok hn hp
  rw [sensorEffect_eq, hk, if_neg (by omega)] at he
  have h := s.blk.sensed_converted temp ok hn
  obtain ⟨-, -, -, -, -, hrest, hst⟩ := h
  exact ⟨_, hx.trans (onBlk_next_of_eq he (congrArg (fun b : Block => b.trust.fuses) hrest :) (congrArg IceCore.perm hst :)), rfl,
    s.blk.sensed_converted temp ok hn, rfl⟩

theorem ratioFailsAfter_min (s : Block) (n : Nat) (ok : Bool) :
    min 3 (ratioFailsAfter s n ok) = if ok then 0 else min 3 (tget 0 s.pwr.ratioFails n + 1) := by
  unfold ratioFailsAfter
  split <;> rfl

theorem ratioFailsAfter_ne_three (s : Block) (n : Nat) (ok : Bool) :
    decide (ratioFailsAfter s n ok ≠ 3) = (ok || decide (tget 0 s.pwr.ratioFails n ≠ 2)) := by
  unfold ratioFailsAfter
  cases ok <;> simp

theorem sensorConversion_spec (s : State) (n : Nat) (temp : Int) (ok : Bool) (hn : n < 560) (hp : s.blk.pwr.pwrGood = true)
    (ht : temp < tripAt n) :
    ∃ t : State, exec (.sensorConversion n temp ok) s = .next t ∧ t.pending = s.pending ∧
      t.blk.fld (THM_SENSOR n) 10 0 = (temp % 2048).toNat ∧
      t.blk.bit (THM_SENSOR n) 11 = (s.blk.bit (THM_SENSOR n) 11 && (ok || decide (tget 0 s.blk.pwr.ratioFails n ≠ 2))) ∧
      tget 0 t.blk.pwr.ratioFails n = (if ok then 0 else min 3 (tget 0 s.blk.pwr.ratioFails n + 1)) ∧ tget 0 t.blk.pwr.atTrip n = 0 ∧
      (∀ m, m < 560 → m ≠ n → t.blk.rg (THM_SENSOR m) = s.blk.rg (THM_SENSOR m)) ∧ t.blk.bit THM_STATE 16 = s.blk.bit THM_STATE 16 ∧
      { t.blk with regs := s.blk.regs, pwr := s.blk.pwr, ice := s.blk.ice } = s.blk := by
  have hk : (s.blk.sensed n temp ok).atTripAfter n temp = 0 := by
    unfold Block.atTripAfter
    rw [decide_eq_false (by omega : ¬tripAt n ≤ temp), Bool.and_false]
    rfl
  obtain ⟨t, hx, hpend, hc, htb⟩ := sensorConversion_steady hn hp hk (by omega)
  obtain ⟨b, hb⟩ : ∃ b, b = s.blk.sensed n temp ok := ⟨_, rfl⟩
  rw [← hb] at hc htb
  obtain ⟨hread, hval, hoth, htrip, hpwr, hrest, -⟩ := hc
  refine ⟨t, hx, hpend, ?_, ?_, ?_, ?_, ?_, ?_, ?_⟩
  · rw [htb]
    exact hread
  · rw [htb, ← ratioFailsAfter_ne_three]
    exact hval
  · rw [htb, ← ratioFailsAfter_min]
    refine (congrArg (fun p : Power => tget 0 p.ratioFails n) hpwr).trans ?_
    exact tget_tset_same ..
  · rw [htb, Block.compared_atTrip]
    rfl
  · intro m hm hne
    obtain ⟨n1, n2, n3⟩ := THM_SENSOR_ne hm
    rw [htb]
    exact hoth _ (THM_SENSOR_inj hne) n1 n2 n3
  · rw [htb]
    exact htrip 16 (by omega)
  · rw [htb]
    exact hrest

theorem sensorZone_lt {n : Nat} (h : n < 304) : (sensorZone n).1 < 5 := by
  unfold sensorZone
  split_ifs <;> dsimp only <;> omega

/-- The comparator's count after a valid conversion at the threshold, of a sensor that no zone of a compute stack holds. -/
theorem atTripAfter_at {s : Block} {n : Nat} {temp : Int} (hn : n < 304) (ht : tripAt n ≤ temp)
    (hb : s.bit (THM_SENSOR n) 11 = true) : (s.sensed n temp true).atTripAfter n temp = tget 0 s.pwr.atTrip n + 1 := by
  obtain ⟨-, hval, -, -, hpwr, -, -⟩ := s.sensed_converted temp true (n := n) (by omega)
  have hv : (s.sensed n temp true).bit (THM_SENSOR n) 11 = true := by
    rw [hval, hb]
    rfl
  have hz := sensorZone_lt hn
  have hat : (s.sensed n temp true).pwr.atTrip = s.pwr.atTrip := (congrArg Power.atTrip hpwr :)
  unfold Block.atTripAfter
  rw [hv, hat, decide_eq_true ht, decide_eq_false (by omega : ¬5 ≤ (sensorZone n).1)]
  rfl

/-- Settles O50: a conversion is its sensor's reading (`sensed_converted`), and a trip latches its source and stops the rails
(`trip_tripped`). -/
theorem sensorsAndTrips : Obligations.SensorsAndTrips := by
  refine ⟨sensorConversion_spec, ?first, ?second, ?noConversion, ?trip, ?noTrip⟩
  case first =>
    intro s n temp hn hp ht hb h0
    have hk := atTripAfter_at hn ht hb
    rw [h0] at hk
    obtain ⟨t, hx, hpend, hc, htb⟩ := sensorConversion_steady (by omega) hp hk (by omega)
    obtain ⟨b, hbd⟩ : ∃ b, b = s.blk.sensed n temp true := ⟨_, rfl⟩
    rw [← hbd] at hc htb
    obtain ⟨hread, -, -, -, hpwr, hrest, -⟩ := hc
    refine ⟨t, hx, hpend, ?_, ?_, ?_, ?_⟩
    · rw [htb]
      exact hread
    · rw [htb, Block.compared_atTrip]
      rfl
    · rw [htb]
      exact (congrArg Power.pwrGood hpwr :).trans hp
    · rw [htb]
      exact hrest
  case second =>
    intro s n temp hn hp ht hb h1
    have hk := atTripAfter_at hn ht hb
    obtain ⟨hx, he⟩ := exec_sensorConversion (n := n) temp true (by omega) hp
    rw [sensorEffect_eq, hk, if_pos (by omega)] at he
    obtain ⟨-, -, -, -, -, hrest, hst⟩ := s.blk.sensed_converted temp true (n := n) (by omega)
    obtain ⟨t, hx', hpend, htrip, hfuse, -, henv⟩ := onBlk_trip he (by omega) (by omega) hrest hst
    exact ⟨t, hx.trans hx', hpend, htrip.heat, htrip.source, htrip.spot, htrip.good, htrip.phase, htrip.lost.jobs, htrip.lost.parts,
      htrip.lost.fw, henv, hfuse⟩
  case noConversion =>
    intro s n temp ok h
    refine onBlk_idle (f := effSensorConversion n temp ok) (if_neg ?_)
    rintro ⟨hn, hp⟩
    rcases h with h | h
    · omega
    · rw [h] at hp
      cases hp
  case trip =>
    intro s src index temp hp hl hs hi
    have hx : exec (.thermalTrip src index temp) s = onBlk (effThermalTrip src index temp) s := rfl
    have he : effThermalTrip src index temp s.blk = s.blk.trip src index temp := if_pos (by simp [hp, hl, hs])
    obtain ⟨t, hx', hpend, htrip, hfuse, hring, henv⟩ := onBlk_trip he hs (by omega) rfl rfl
    have hheat : t.blk.bit THM_STATE 16 = true := htrip.heat
    refine ⟨t, hx.trans hx', hpend, hheat, ?_, htrip.source, htrip.spot, htrip.stack, htrip.good, htrip.phase, htrip.lost.jobs,
      htrip.lost.parts, htrip.lost.objs, htrip.lost.fw, hfuse, hring, henv⟩
    rw [Block.moduleAlert, hheat, Bool.or_true, Bool.true_or]
  case noTrip =>
    intro s src index temp h
    refine onBlk_idle (f := effThermalTrip src index temp) (if_neg ?_)
    rw [Bool.and_eq_true, Bool.and_eq_true, Bool.not_eq_true', decide_eq_true_iff]
    rintro ⟨⟨hp, hl⟩, hs⟩
    rcases h with h | h | h
    · rw [h] at hp
      cases hp
    · rw [h] at hl
      cases hl
    · omega

end Sys2Proof.Machine
end

section
/-! Cold starts (R415 to R422). -/

namespace Sys2Proof.Machine

/-! ### What the steps of a start keep where there is no work -/

/-- Registers that the first steps of a start leave: the start's own, the state in force, latched faults, breach, and those of Firn
units. -/
def bootKeeps (a : Nat) : Prop :=
  a = 0x100 ∨ a = 0x104 ∨ a = 0x200 ∨ a = 0x00200008 ∨ a = 0x00208000 ∨ a = 0x00500000 ∨ 0x04000000 ≤ a

/-- A block without work in which the ledger of every cluster in service is at its reset. -/
structure Block.coldIdle (s : Block) : Prop where
  jobs : s.jobs = []
  sound : ∀ c, c < 32 → s.bit (SRC_CLUSTER_OOS (c / 8)) (c % 8) = false → s.ledger (0x80 + c) = ledgerReset (0x80 + c)

/-- What the steps of a start keep in a block without work. -/
structure Block.coldKept (t s : Block) : Prop where
  idle : t.coldIdle
  regs : ∀ a, bootKeeps a → t.rg a = s.rg a
  rest : { t with regs := s.regs, led := s.led, ice := s.ice, clusters := s.clusters, tiles := s.tiles, err := s.err } = s
  stored : t.ice.stored = s.ice.stored

theorem Block.coldIdle.refl {s : Block} (h : s.coldIdle) : s.coldKept s := ⟨h, fun _ _ => rfl, rfl, rfl⟩

theorem Block.coldKept.trans {s t u : Block} (h : u.coldKept t) (h' : t.coldKept s) : u.coldKept s := by
  obtain ⟨hi, hg, hr, hs⟩ := h
  obtain ⟨-, hg', hr', hs'⟩ := h'
  refine ⟨hi, fun a ha => (hg a ha).trans (hg' a ha), ?_, hs.trans hs'⟩
  exact (congrArg (fun b : Block => { b with
    regs := s.regs, led := s.led, ice := s.ice, clusters := s.clusters, tiles := s.tiles, err := s.err }) hr :).trans hr'

theorem loop_coldKept {s : Block} (n : Nat) (f : Nat → Block → Block) (hs : s.coldIdle)
    (h : ∀ i b, i < n → b.coldIdle → (f i b).coldKept b) : (loop n f s).coldKept s := by
  induction n with
  | zero => exact hs.refl
  | succ n ih =>
    have hn := ih fun i b hi => h i b (by omega)
    exact (h n _ (by omega) hn.idle).trans hn

theorem each_coldKept {α : Type} {s : Block} (l : List α) (f : Block → α → Block) (hs : s.coldIdle)
    (h : ∀ b x, b.coldIdle → (f b x).coldKept b) : (s.each l f).coldKept s := by
  unfold Block.each
  induction l generalizing s with
  | nil => exact hs.refl
  | cons x xs ih =>
    have hx := h s x hs
    exact (ih hx.idle).trans hx

/-- A register that no such step keeps and that says nothing of clusters in service. -/
def bootFree (a : Nat) : Prop := ¬bootKeeps a ∧ ∀ d, a ≠ SRC_CLUSTER_OOS d

theorem Block.wr_coldKept {s : Block} (hs : s.coldIdle) {a : Nat} (v : Word) (ha : bootFree a) : (s.wr a v).coldKept s := by
  obtain ⟨hk, ho⟩ := ha
  refine ⟨⟨hs.jobs, fun c hc hb => hs.sound c hc ?_⟩, fun b hb => Block.rg_wr_other _ _ fun e => hk (e ▸ hb), rfl, rfl⟩
  exact (congrArg (fun w : Word => w.bit (c % 8)) (Block.rg_wr_other s v (ho (c / 8)).symm)).symm.trans hb

theorem Block.wf_coldKept {s : Block} (hs : s.coldIdle) {a : Nat} (hi lo v : Nat) (ha : bootFree a) : (s.wf a hi lo v).coldKept s :=
  Block.wr_coldKept hs _ ha

/-- A bit above the clusters' is of no cluster. -/
theorem Block.wb_coldKept {s : Block} (hs : s.coldIdle) {a i : Nat} (v : Bool) (ha : ¬bootKeeps a) (h8 : 8 ≤ i) (h32 : i < 32) :
    (s.wb a i v).coldKept s := by
  refine ⟨⟨hs.jobs, fun c hc hb => hs.sound c hc ?_⟩, fun b hb => Block.rg_wb_other _ _ _ fun e => ha (e ▸ hb), rfl, rfl⟩
  exact (Block.bit_wb_other s v h32 (Or.inr (by omega))).symm.trans hb

theorem Block.ledger_congr {s t : Block} (h : t.led = s.led) (n : Nat) : t.ledger n = s.ledger n := by
  unfold Block.ledger
  rw [h]

theorem Block.event_coldKept {s : Block} (hs : s.coldIdle) (src ev : Nat) (d : List Word) : (s.event src ev d).coldKept s := by
  have hd : ∀ d', ICE_DROPPED ≠ SRC_CLUSTER_OOS d' := by
    intro d'
    have e : SRC_CLUSTER_OOS d' = 0x01000000 + d' * 0x400000 + 0x318 := rfl
    have e1 : ICE_DROPPED = 0x0040001C := rfl
    omega
  refine ⟨⟨by rw [Block.event_jobs, hs.jobs], fun c hc hb => ?_⟩, fun a ha => Block.rg_event _ _ _ _ ?_, by simp, by simp⟩
  · rw [Block.ledger_congr (by simp : (s.event src ev d).led = s.led)]
    exact hs.sound c hc ((congrArg (fun w : Word => w.bit (c % 8)) (Block.rg_event s _ _ _ (hd _).symm)).symm.trans hb)
  · have e1 : ICE_DROPPED = 0x0040001C := rfl
    unfold bootKeeps at ha
    omega

/-! ### Tiles that fail their test -/

theorem bootFree_SRC {d k : Nat} (hd : d < 4) (hk : k < 0x318) : bootFree (SRC d k) := by
  have e : SRC d k = 0x01000000 + d * 0x400000 + k := rfl
  have e' : ∀ x, SRC_CLUSTER_OOS x = 0x01000000 + x * 0x400000 + 0x318 := fun _ => rfl
  refine ⟨?_, fun x => ?_⟩
  · unfold bootKeeps
    omega
  · rw [e']
    omega

theorem bootFree_FLOE {t k : Nat} (ht : t < 256) (hk : k < 0x4000) : bootFree (FLOE t k) := by
  have e : FLOE t k = 0x01000000 + t / 8 / 8 * 0x400000 + (0x100000 + t / 8 % 8 * 0x40000 + (0x8000 + t % 8 * 0x4000 + k)) := rfl
  have e' : ∀ x, SRC_CLUSTER_OOS x = 0x01000000 + x * 0x400000 + 0x318 := fun _ => rfl
  refine ⟨?_, fun x => ?_⟩
  · unfold bootKeeps
    omega
  · rw [e']
    omega

theorem not_bootKeeps_SRC_SPARE {d k : Nat} (hd : d < 4) (hk : k < 0x1000) : ¬bootKeeps (SRC_SPARE d k) := by
  have e : SRC_SPARE d k = 0x01000000 + d * 0x400000 + (0x300 + 4 * k) := rfl
  unfold bootKeeps
  omega

theorem Block.retirePhys_coldKept {s : Block} (hs : s.coldIdle) {d phys : Nat} (hd : d < 4) (hp : phys < 128) :
    (s.retirePhys d phys).coldKept s := by
  unfold Block.retirePhys
  split
  next h =>
    have he : SRC_TILE_RETIRED_LO d + 4 * (phys / 32) = SRC d (0x310 + 4 * (phys / 32)) := by
      show 0x01000000 + d * 0x400000 + 0x310 + 4 * (phys / 32) = 0x01000000 + d * 0x400000 + (0x310 + 4 * (phys / 32))
      omega
    rw [he]
    exact Block.wf_coldKept hs _ _ _ (bootFree_SRC hd (by omega))
  next =>
    have hn : ¬bootKeeps (SRC_SPARE d (phys - 64)) := not_bootKeeps_SRC_SPARE hd (by omega)
    have h1 := Block.wb_coldKept (i := 8) hs false hn (by omega) (by omega)
    exact (Block.wb_coldKept (i := 9) h1.idle true hn (by omega) (by omega)).trans h1

theorem Ledger.reset_shrinks {c : Nat} (h : c < 32) :
    (ledgerReset (0x80 + c)).move { free := -(1536 : Nat), total := -(1536 : Nat) } = some Ledger.zero := by
  have e : ledgerReset (0x80 + c) = { free := 1536, held := 0, flight := 0, total := 1536 } := if_pos ⟨by omega, by omega⟩
  rw [e]
  decide

theorem Block.clusterOut_coldKept {s : Block} (hs : s.coldIdle) {c : Nat} (hc : c < 32) : (s.clusterOut c).coldKept s := by
  unfold Block.clusterOut
  split
  next => exact hs.refl
  next hbit =>
    have hb : s.bit (SRC_CLUSTER_OOS (c / 8)) (c % 8) = false := Bool.eq_false_iff.mpr hbit
    dsimp only
    obtain ⟨b, hbd⟩ : ∃ b, b = (s.wb (SRC_CLUSTER_OOS (c / 8)) (c % 8) true).modCl c fun k => { k with state := .outOfService } :=
      ⟨_, rfl⟩
    have hled : b.led = s.led := by simp [hbd, Block.modCl, Block.setCl]
    have hregs : b.regs = (s.wb (SRC_CLUSTER_OOS (c / 8)) (c % 8) true).regs := by simp [hbd, Block.modCl, Block.setCl]
    have hjobs : b.jobs = [] := by simp [hbd, hs.jobs, Block.modCl, Block.setCl]
    have hice : b.ice = s.ice := by simp [hbd, Block.modCl, Block.setCl]
    have hshrink : b.ledShrink (0x80 + c) 1536 = { b with led := tset (ledgerReset (0x80 + c)) b.led (0x80 + c) Ledger.zero } := by
      unfold Block.ledShrink Block.led1
      rw [Block.ledger_congr hled, hs.sound c hc hb, Ledger.reset_shrinks hc]
    have hlast : (b.ledShrink (0x80 + c) 1536).jobs = [] := by
      rw [hshrink]
      exact hjobs
    rw [← hbd, hlast, List.filter_nil, List.map_nil]
    show (b.ledShrink (0x80 + c) 1536).coldKept s
    rw [hshrink]
    refine ⟨⟨hjobs, fun c' hc' hb' => ?_⟩, fun a ha => ?_, ?_, ?_⟩
    · have hb' : (s.wb (SRC_CLUSTER_OOS (c / 8)) (c % 8) true).bit (SRC_CLUSTER_OOS (c' / 8)) (c' % 8) = false :=
        (congrArg (fun w : Word => w.bit (c' % 8)) (Block.rg_of_regs hregs _)).symm.trans hb'
      by_cases he : c' = c
      · subst he
        rw [Block.bit_wb_same _ _ _ (by omega)] at hb'
        cases hb'
      · have hd : SRC_CLUSTER_OOS (c' / 8) ≠ SRC_CLUSTER_OOS (c / 8) ∨ c' % 8 ≠ c % 8 := by
          have e : ∀ x, SRC_CLUSTER_OOS x = 0x01000000 + x * 0x400000 + 0x318 := fun _ => rfl
          rw [e, e]
          omega
        have hg : s.ledger (0x80 + c') = ledgerReset (0x80 + c') :=
          hs.sound c' hc' ((Block.bit_wb_other s true (by omega) hd).symm.trans hb')
        refine Eq.trans ?_ hg
        unfold Block.ledger
        exact (tget_tset_other _ _ _ _ (by omega)).trans (by rw [hled])
    · refine (Block.rg_of_regs (show _ = _ from hregs) a).trans (Block.rg_wb_other _ _ _ ?_)
      have e : SRC_CLUSTER_OOS (c / 8) = 0x01000000 + c / 8 * 0x400000 + 0x318 := rfl
      unfold bootKeeps at ha
      omega
    · rw [hbd]
      simp [Block.modCl, Block.setCl]
    · exact congrArg IceCore.stored hice

theorem Block.modTile_coldKept {s : Block} (hs : s.coldIdle) (t : Nat) (f : Tile → Tile) : (s.modTile t f).coldKept s :=
  ⟨⟨hs.jobs, hs.sound⟩, fun _ _ => rfl, rfl, rfl⟩

theorem Block.setErr_coldKept {s : Block} (hs : s.coldIdle) (e : Errors) : ({ s with err := e } : Block).coldKept s :=
  ⟨⟨hs.jobs, hs.sound⟩, fun _ _ => rfl, rfl, rfl⟩

/-- One step after others. -/
theorem Block.coldKept.then {s t u : Block} (h : t.coldKept s) (f : t.coldIdle → u.coldKept t) : u.coldKept s := (f h.idle).trans h

theorem Block.fld_FLOE_ID_lt (s : Block) (t : Nat) : s.fld (FLOE_ID t) 14 8 < 128 := Word.fld_lt _ _ _

theorem tileRemapEffect_coldKept {s : Block} (hs : s.coldIdle) {t : Nat} (ht : t < 256) : (tileRemapEffect t s).coldKept s := by
  have hd : t / 64 < 4 := by omega
  have hid : bootFree (FLOE_ID t) := bootFree_FLOE ht (by omega)
  have hep : bootFree (FLOE_EPOCH t) := bootFree_FLOE ht (by omega)
  have hst : bootFree (FLOE_STATE t) := bootFree_FLOE ht (by omega)
  unfold tileRemapEffect
  dsimp only
  have h1 := Block.retirePhys_coldKept hs hd (s.fld_FLOE_ID_lt t)
  obtain ⟨p, hp⟩ : ∃ p, p = s.retirePhys (t / 64) (s.fld (FLOE_ID t) 14 8) := ⟨_, rfl⟩
  rw [← hp] at h1 ⊢
  have h2 : (({ p with err := { p.err with tileCause := kdel p.err.tileCause t } } : Block).modTile t fun _ => Tile.reset).coldKept s :=
    (h1.then fun h => Block.setErr_coldKept h { p.err with tileCause := kdel p.err.tileCause t }).then
      fun h => Block.modTile_coldKept h _ _
  obtain ⟨b, hb⟩ : ∃ b, b = ({ p with err := { p.err with tileCause := kdel p.err.tileCause t } } : Block).modTile t
    fun _ => Tile.reset := ⟨_, rfl⟩
  rw [← hb] at h2 ⊢
  split
  next k hk =>
    have hk4 : k < 4 := List.mem_range.mp (List.mem_of_find?_eq_some hk)
    have hsp : bootFree (SRC_SPARE (t / 64) k) := bootFree_SRC hd (by omega)
    have h3 := h2.then fun h => Block.wf_coldKept h 7 0 t hsp
    have h4 := h3.then fun h => Block.wf_coldKept h 8 8 (b2n true) hsp
    have h5 := h4.then fun h => Block.wf_coldKept h 14 8 (64 + k) hid
    have h6 := h5.then fun h => Block.wf_coldKept h 15 15 (b2n true) hid
    have h7 := fun v : Nat => h6.then fun h => Block.wf_coldKept h 15 0 v hep
    exact ((h7 _).then fun h => Block.wf_coldKept h 2 0 2 hst).then fun h => Block.event_coldKept h _ _ _
  next =>
    have h3 := h2.then fun h => Block.wf_coldKept h 2 0 0 hst
    exact (h3.then fun h => Block.event_coldKept h _ _ _).then fun h => Block.clusterOut_coldKept h (by omega)

theorem Block.retireTested_coldKept {s : Block} (hs : s.coldIdle) (cold : Bool) {t : Nat} (ht : t < 256) :
    (s.retireTested cold t).coldKept s := by
  have hep : bootFree (FLOE_EPOCH t) := bootFree_FLOE ht (by omega)
  have hst : bootFree (FLOE_STATE t) := bootFree_FLOE ht (by omega)
  unfold Block.retireTested
  dsimp only
  have h1 := (Block.setErr_coldKept hs { s.err with tileCause := kput s.err.tileCause t 0 }).then
    fun h => tileRemapEffect_coldKept h ht
  obtain ⟨b, hb⟩ : ∃ b, b = tileRemapEffect t { s with err := { s.err with tileCause := kput s.err.tileCause t 0 } } := ⟨_, rfl⟩
  rw [← hb] at h1 ⊢
  have h2 : (if b.tileState t = 2 then b.wf (FLOE_STATE t) 2 0 1 else b).coldKept s := by
    split
    · exact h1.then fun h => Block.wf_coldKept h 2 0 1 hst
    · exact h1
  split
  · exact h2.then fun h => Block.wf_coldKept h 15 0 1 hep
  · exact h2

theorem Block.testTiles_coldKept {s : Block} (hs : s.coldIdle) (cold : Bool) : (s.testTiles cold).coldKept s := by
  unfold Block.testTiles
  refine loop_coldKept _ _ hs fun d b hd hb => ?_
  dsimp only
  have h1 : (loop 4 (fun k s => if s.badPhys d (64 + k) && !s.bit (SRC_SPARE d k) 8 then s.wb (SRC_SPARE d k) 9 true else s) b).coldKept
      b := by
    refine loop_coldKept _ _ hb fun k x hk hx => ?_
    split
    · exact Block.wb_coldKept hx true (not_bootKeeps_SRC_SPARE hd (by omega)) (by omega) (by omega)
    · exact hx.refl
  refine h1.then fun h => loop_coldKept _ _ h fun i x hi hx => ?_
  split
  · exact Block.retireTested_coldKept hx _ (by omega)
  · exact hx.refl

/-! ### The records read -/

theorem bootFree_ESK (p k : Nat) (hp : p < 16) (hk : k < 0x80000) : bootFree (ESK p k) := by
  have e : ESK p k = 0x00800000 + p * 0x80000 + k := rfl
  have e' : ∀ x, SRC_CLUSTER_OOS x = 0x01000000 + x * 0x400000 + 0x318 := fun _ => rfl
  refine ⟨?_, fun x => ?_⟩
  · unfold bootKeeps
    omega
  · rw [e']
    omega

/-- Registers below those of the source of clusters that no start keeps. -/
theorem bootFree_of_lt {a : Nat} (h : a < 0x01000000) (hk : ¬bootKeeps a) : bootFree a := by
  have e' : ∀ x, SRC_CLUSTER_OOS x = 0x01000000 + x * 0x400000 + 0x318 := fun _ => rfl
  refine ⟨hk, fun x => ?_⟩
  rw [e']
  omega

theorem Block.loadRecords_coldKept {s : Block} (hs : s.coldIdle) (cold : Bool) (old : Nat) :
    (s.loadRecords cold old).coldKept s.recordsRead := by
  have hflash : bootFree MOR_FLASH := bootFree_of_lt (by decide) (by unfold bootKeeps; decide)
  have hspread : bootFree CLK_SPREAD := bootFree_of_lt (by decide) (by unfold bootKeeps; decide)
  have hlimit : bootFree PWR_LIMIT := bootFree_of_lt (by decide) (by unfold bootKeeps; decide)
  have hnode : bootFree ESK_NODE := bootFree_of_lt (by decide) (by unfold bootKeeps; decide)
  have h0 : s.recordsRead.coldIdle := ⟨hs.jobs, hs.sound⟩
  unfold Block.loadRecords
  extract_lets r spread src s1 s2 s3 s4 s5 s6
  have h2 : s2.coldKept s.recordsRead := Block.wr_coldKept h0 _ hflash
  have h3 : s3.coldKept s.recordsRead := h2.then fun h => each_coldKept _ _ h fun b x hb => Block.event_coldKept hb ..
  have h4 : s4.coldKept s.recordsRead :=
    (h3.then fun h => Block.wf_coldKept h 20 0 spread hspread).then fun h => Block.wf_coldKept h 11 0 r.limit hlimit
  have h5 : s5.coldKept s.recordsRead := by
    show (if _ then s4 else _ : Block).coldKept _
    split
    · exact h4
    · exact h4.then fun h => Block.event_coldKept h _ _ _
  have h6 : s6.coldKept s.recordsRead := by
    show (match r.body 6 with | some b => _ | none => s5 : Block).coldKept _
    split
    · exact h5.then fun h => loop_coldKept _ _ h fun p b hp hb => Block.wf_coldKept hb _ _ _ (bootFree_ESK p 0xC hp (by omega))
    · exact h5
  split
  · split
    · exact h6.then fun h => Block.wf_coldKept h _ _ _ hnode
    · exact h6
  · exact h6

/-- A block with the registers and the tables that the steps of a start change as they are in another. -/
def Block.bootBack (t s : Block) : Block :=
  { t with regs := s.regs, led := s.led, ice := s.ice, clusters := s.clusters, tiles := s.tiles, err := s.err, start := s.start }

/-- What the steps of a cold start leave, once the flash can be read. -/
structure Block.booted (t s : Block) : Prop where
  phase : t.phase = if s.records.settle = 0 then 10 else 4
  warm : t.bit MOR_START 4 = s.bit MOR_START 4
  regs : ∀ a, bootKeeps a → a ≠ MOR_START → t.rg a = s.rg a
  rest : t.bootBack s = s
  start : { t.start with settle := s.start.settle, recordBytes := s.start.recordBytes } = s.start
  stored : t.ice.stored = s.ice.stored

theorem Block.phase_stopStart (s : Block) : s.stopStart.phase = 10 := by
  refine (congrArg (fun w : Word => w.fld 3 0) (Block.rg_event _ _ _ _ (by decide))).trans ?_
  refine (Block.fld_wf_other _ _ _ _ (by omega) (by omega) (Or.inr (Or.inl (by omega)))).trans ?_
  exact Block.phase_setPhase s (by omega)

theorem Block.bit_setPhase (s : Block) (v : Nat) : (s.setPhase v).bit MOR_START 4 = s.bit MOR_START 4 :=
  Block.bit_wf_other _ _ (by omega) (by omega) (Or.inr (Or.inr (by omega)))

theorem Block.bit_stopStart (s : Block) : s.stopStart.bit MOR_START 4 = s.bit MOR_START 4 := by
  refine (congrArg (fun w : Word => w.bit 4) (Block.rg_event _ _ _ _ (by decide))).trans ?_
  exact (Block.bit_wf_other _ _ (by omega) (by omega) (Or.inr (Or.inl (by omega)))).trans (s.bit_setPhase 10)

theorem Block.rg_stopStart (s : Block) {a : Nat} (h : a ≠ MOR_START) (hd : a ≠ ICE_DROPPED) : s.stopStart.rg a = s.rg a :=
  (Block.rg_event _ _ _ _ hd).trans ((Block.rg_wf_other _ _ _ _ h).trans (Block.rg_wf_other _ _ _ _ h))

theorem Block.stopStart_frame (s : Block) :
    { s.stopStart with regs := s.regs, ice := s.ice } = s ∧ s.stopStart.ice.stored = s.ice.stored := by
  simp [Block.stopStart, Block.setPhase]

theorem Block.bootRecords_booted {s : Block} (hs : s.coldIdle) (hp : s.start.pllOn = false) (cold : Bool) (old : Nat) :
    (s.bootRecords cold old).booted s := by
  have hk := (Block.loadRecords_coldKept hs cold old).then fun h => Block.testTiles_coldKept h cold
  obtain ⟨b, hb⟩ : ∃ b, b = (s.loadRecords cold old).testTiles cold := ⟨_, rfl⟩
  rw [← hb] at hk
  obtain ⟨-, hg, hr, hst⟩ := hk
  have hstart : b.start = { s.start with settle := s.records.settle, recordBytes := s.recordRegion } :=
    (congrArg Block.start hr :)
  have hpll : b.start.pllOn = false := (congrArg Start.pllOn hstart :).trans hp
  have hset : b.start.settle = s.records.settle := (congrArg Start.settle hstart :)
  have hback : { b.start with settle := s.start.settle, recordBytes := s.start.recordBytes } = s.start :=
    (congrArg (fun x : Start => { x with settle := s.start.settle, recordBytes := s.start.recordBytes }) hstart :)
  have hrest : b.bootBack s = s := (congrArg (fun x : Block => x.bootBack s) hr :)
  have hg' : ∀ a, bootKeeps a → b.rg a = s.rg a := hg
  have hwarm : b.bit MOR_START 4 = s.bit MOR_START 4 := congrArg (fun w : Word => w.bit 4) (hg' MOR_START (Or.inl rfl))
  have hbs : b.ice.stored = s.ice.stored := hst
  unfold Block.bootRecords
  simp only [← hb, hpll, Bool.and_false, Bool.false_eq_true, if_false, hset]
  split
  next h0 =>
    obtain ⟨hf, hfs⟩ := b.stopStart_frame
    refine ⟨b.phase_stopStart.trans (if_pos h0).symm, b.bit_stopStart.trans hwarm, fun a ha hm => ?_, ?_, ?_, hfs.trans hbs⟩
    · refine (b.rg_stopStart hm ?_).trans (hg' a ha)
      have e1 : ICE_DROPPED = 0x0040001C := rfl
      unfold bootKeeps at ha
      omega
    · exact (congrArg (fun x : Block => x.bootBack s) hf :).trans hrest
    · exact (congrArg (fun x : Block => { x.start with settle := s.start.settle, recordBytes := s.start.recordBytes }) hf :).trans
        hback
  next h0 =>
    exact ⟨(Block.phase_setPhase b (by omega)).trans (if_neg h0).symm, (b.bit_setPhase 4).trans hwarm,
      fun a ha hm => (Block.rg_wf_other _ _ _ _ hm).trans (hg' a ha), hrest, hback, hbs⟩

/-! ### The fuses read -/

theorem loop_keeps_below {β γ : Type} (g : β → γ) (f : Nat → β → β) (n : Nat) (h : ∀ i x, i < n → g (f i x) = g x) (x : β) :
    g (loop n f x) = g x := by
  induction n with
  | zero => rfl
  | succ n ih => exact (h n _ (by omega)).trans (ih fun i y hi => h i y (by omega))

/-- The registers that a start takes from the fuses, beside that of the state. -/
theorem Block.rg_readFuses_setLc (s : Block) (n : Nat) {a : Nat} (ha : a < 0x210 ∨ 0x264 ≤ a) :
    (s.readFuses n).rg a = ((s.wb MOR_LC 7 false).setLc n).rg a := by
  have e : MOR_ROM_VERSION = 0x00000260 := rfl
  unfold Block.readFuses
  extract_lets f b1 tr b2 b3 id b4
  refine (Block.rg_wf_other _ _ _ _ (by omega)).trans ?_
  refine (loop_keeps_below (fun b : Block => b.rg a) _ 8 (fun k b hk => Block.rg_wr_other _ _ ?_) b3).trans ?_
  · have e : MOR_DEVICE_ID k = 0x00000240 + 4 * k := rfl
    omega
  · refine (loop_keeps_below (fun b : Block => b.rg a) _ 8 (fun k b hk => Block.rg_wf_other _ _ _ _ ?_) b2).trans ?_
    · have e : MOR_LC_FLOOR k = 0x00000210 + 4 * k := rfl
      omega
    · exact Block.rg_of_regs (show b2.regs = b1.regs from rfl) a

theorem Block.rg_readFuses (s : Block) (n : Nat) {a : Nat} (ha : a < 0x200 ∨ 0x300 ≤ a) : (s.readFuses n).rg a = s.rg a := by
  have e : MOR_LC = 0x00000200 := rfl
  refine (s.rg_readFuses_setLc n (by omega)).trans ?_
  exact (Block.rg_wf_other _ _ _ _ (by omega)).trans (Block.rg_wb_other _ _ _ (by omega))

theorem Block.lcState_readFuses (s : Block) {n : Nat} (hn : n < 8) : (s.readFuses n).lcState = n := by
  refine (congrArg (fun w : Word => w.fld 2 0) (s.rg_readFuses_setLc n (a := MOR_LC) (by decide))).trans ?_
  obtain ⟨h, -⟩ := Block.setLc_fields (s := s.wb MOR_LC 7 false) hn
  exact h

theorem Block.readFuses_frame (s : Block) (n : Nat) :
    { s.readFuses n with regs := s.regs, trust := s.trust } = s ∧ (s.readFuses n).trust.fuses = s.trust.fuses := by
  unfold Block.readFuses
  extract_lets f b1 tr b2 b3 id b4
  have h4 : { b4 with regs := s.regs } = { b3 with regs := s.regs } :=
    loop_keeps (fun b : Block => { b with regs := s.regs }) _ (fun k b => by simp) 8 b3
  have h3 : { b3 with regs := s.regs } = { b2 with regs := s.regs } :=
    loop_keeps (fun b : Block => { b with regs := s.regs }) _ (fun k b => by simp) 8 b2
  have h43 := h4.trans h3
  constructor
  · have h2 : { b2 with regs := s.regs, trust := s.trust } = s := by simp [b2, b1, Block.setLc]
    clear_value b4 b3 b2
    refine Eq.trans ?_ h2
    have hw : { b4.wf MOR_ROM_VERSION 15 0 f.romVersion with regs := s.regs, trust := s.trust } =
        { b4 with regs := s.regs, trust := s.trust } := by simp
    exact hw.trans (congrArg (fun b : Block => { b with trust := s.trust }) h43 :)
  · have h2 : b2.trust.fuses = s.trust.fuses := by simp [b2, tr]
    clear_value b4 b3 b2
    have hw : (b4.wf MOR_ROM_VERSION 15 0 f.romVersion).trust = b4.trust := by simp
    exact (congrArg Trust.fuses hw :).trans ((congrArg (fun b : Block => b.trust.fuses) h43 :).trans h2)

/-! ### From the cause to the records -/

/-- A block with the cause of a start. -/
def Block.startCause (s : Block) (cold : Bool) (cause : Nat) : Block :=
  ((s.wr MOR_START (w32 (1 + b2n (!cold) * 16))).wf MOR_RESET_CAUSE 3 0 cause).wb PWR_STATUS 0 true

theorem Block.startCause_frame (s : Block) (cold : Bool) (cause : Nat) : { s.startCause cold cause with regs := s.regs } = s := by
  simp [Block.startCause]

theorem Block.rg_startCause (s : Block) (cold : Bool) (cause : Nat) {a : Nat} (h1 : a ≠ MOR_START) (h2 : a ≠ MOR_RESET_CAUSE)
    (h3 : a ≠ PWR_STATUS) : (s.startCause cold cause).rg a = s.rg a :=
  (Block.rg_wb_other _ _ _ h3).trans ((Block.rg_wf_other _ _ _ _ h2).trans (Block.rg_wr_other _ _ h1))

theorem Block.startCause_regs (s : Block) (cold : Bool) {cause : Nat} (hc : cause < 16) :
    (s.startCause cold cause).rg MOR_START = w32 (1 + b2n (!cold) * 16) ∧
    (s.startCause cold cause).fld MOR_RESET_CAUSE 3 0 = cause ∧
    (s.startCause cold cause).bit PWR_STATUS 1 = s.bit PWR_STATUS 1 := by
  refine ⟨?_, ?_, ?_⟩
  · exact (Block.rg_wb_other _ _ _ (by decide)).trans ((Block.rg_wf_other _ _ _ _ (by decide)).trans (Block.rg_wr_same ..))
  · refine (congrArg (fun w : Word => w.fld 3 0) (Block.rg_wb_other _ _ _ (by decide))).trans ?_
    exact (Block.fld_wf_same _ _ _ (by omega) (by omega)).trans (Nat.mod_eq_of_lt hc)
  · refine (Block.bit_wb_other _ true (by omega) (Or.inr (by omega))).trans (congrArg (fun w : Word => w.bit 1) ?_)
    exact (Block.rg_wf_other _ _ _ _ (by decide)).trans (Block.rg_wr_other _ _ (by decide))

/-- The ice core as a start finds it, before its scan. -/
def IceCore.unscanned (c : IceCore) : IceCore := { c with scanned := false, last := 0, cleared := 0, clearing := none, latches := [] }

/-- A block with the ice core before its scan. -/
def Block.iceUnscanned (s : Block) : Block := { s with ice := s.ice.unscanned }

theorem Block.rg_iceUnscanned (s : Block) (a : Nat) : s.iceUnscanned.rg a = s.rg a := rfl

/-- A block after the first steps of a start, before it reads the flash. -/
def Block.bootHead (s : Block) (cold : Bool) (cause n : Nat) : Block := ((s.startCause cold cause).readFuses n).iceUnscanned

theorem Block.boot_eq (s : Block) (cold : Bool) (cause n old : Nat) :
    s.boot cold cause n old =
      if (s.bootHead cold cause n).ice.hold then s.bootHead cold cause n else (s.bootHead cold cause n).bootRecords cold old := rfl

theorem Block.bootHead_frame (s : Block) (cold : Bool) (cause n : Nat) :
    { s.bootHead cold cause n with regs := s.regs, trust := s.trust, ice := s.ice } = s ∧
    (s.bootHead cold cause n).trust.fuses = s.trust.fuses ∧ (s.bootHead cold cause n).ice = s.ice.unscanned := by
  have hbs := s.startCause_frame cold cause
  unfold Block.bootHead
  obtain ⟨b, hb⟩ : ∃ b, b = s.startCause cold cause := ⟨_, rfl⟩
  rw [← hb] at hbs ⊢
  obtain ⟨hf, hfuse⟩ := b.readFuses_frame n
  obtain ⟨c, hc⟩ : ∃ c, c = b.readFuses n := ⟨_, rfl⟩
  rw [← hc] at hf hfuse ⊢
  refine ⟨?_, hfuse.trans (congrArg (fun b : Block => b.trust.fuses) hbs :), ?_⟩
  · exact (congrArg (fun b : Block => { b with regs := s.regs, trust := s.trust, ice := s.ice }) hf :).trans
      (congrArg (fun b : Block => { b with trust := s.trust, ice := s.ice }) hbs :)
  · exact congrArg IceCore.unscanned ((congrArg Block.ice hf :).trans (congrArg Block.ice hbs :))

theorem Block.rg_bootHead_startCause (s : Block) (cold : Bool) (cause n : Nat) {a : Nat} (ha : a < 0x200 ∨ 0x300 ≤ a) :
    (s.bootHead cold cause n).rg a = (s.startCause cold cause).rg a := by
  unfold Block.bootHead
  rw [Block.rg_iceUnscanned]
  exact Block.rg_readFuses (s.startCause cold cause) n ha

/-- Registers that the first steps of a start leave. -/
theorem Block.rg_bootHead (s : Block) (cold : Bool) (cause n : Nat) {a : Nat} (ha : 0x300 ≤ a) (hp : a ≠ PWR_STATUS) :
    (s.bootHead cold cause n).rg a = s.rg a := by
  have e1 : MOR_START = 0x00000100 := rfl
  have e2 : MOR_RESET_CAUSE = 0x00000104 := rfl
  exact (s.rg_bootHead_startCause cold cause n (by omega)).trans (s.rg_startCause cold cause (by omega) (by omega) hp)

theorem Block.bootHead_start (s : Block) (cold : Bool) {cause : Nat} (n : Nat) (hc : cause < 16) (hn : n < 8) :
    (s.bootHead cold cause n).phase = 1 ∧ (s.bootHead cold cause n).bit MOR_START 4 = !cold ∧
    (s.bootHead cold cause n).fld MOR_RESET_CAUSE 3 0 = cause ∧ (s.bootHead cold cause n).lcState = n ∧
    (s.bootHead cold cause n).bit PWR_STATUS 1 = s.bit PWR_STATUS 1 := by
  obtain ⟨hms, hrc, hps⟩ := s.startCause_regs cold hc
  have key : ∀ a, (a < 0x200 ∨ 0x300 ≤ a) → (s.bootHead cold cause n).rg a = (s.startCause cold cause).rg a :=
    fun a ha => s.rg_bootHead_startCause cold cause n ha
  have hms' := (key MOR_START (by decide)).trans hms
  refine ⟨?_, ?_, (congrArg (fun w : Word => w.fld 3 0) (key MOR_RESET_CAUSE (by decide))).trans hrc, ?_,
    (congrArg (fun w : Word => w.bit 1) (key PWR_STATUS (by decide))).trans hps⟩
  · rw [Block.phase, Block.fld, hms']
    cases cold <;> decide
  · rw [Block.bit, hms']
    cases cold <;> decide
  · refine (congrArg (fun w : Word => w.fld 2 0) (Block.rg_iceUnscanned ((s.startCause cold cause).readFuses n) MOR_LC)).trans ?_
    exact Block.lcState_readFuses (s.startCause cold cause) hn

/-! ### The whole of a cold start -/

/-- What a cold start of a cause leaves, beside the step that it has come to. -/
structure Block.coldStarted (t s : Block) (cause : Nat) : Prop where
  lost : t.jobs = [] ∧ t.parts = [] ∧ t.objs = [] ∧ t.reqs = [] ∧ t.bundles = [] ∧ t.snow = [] ∧ t.mbx = [] ∧ t.fns = [] ∧
    t.fw.loaded = false
  start : t.start.input = s.start.input ∧ t.start.powered = s.start.powered ∧ t.start.linkUp = false ∧
    t.pwr.pwrGood = s.pwr.pwrGood
  cause : t.fld MOR_RESET_CAUSE 3 0 = cause
  cold : t.bit MOR_START 4 = false
  epochs : ∀ u, u < 4096 → t.fld (FIRN_EPOCH u) 15 0 = 1
  whole : t.breach = false
  state : t.lcState = s.trust.fuses.state
  latch : t.latched = s.coldClear.latched
  fuses : t.trust.fuses = s.trust.fuses
  stored : t.ice.stored = s.ice.unscanned.stored
  env : t.env = s.env

theorem latchMask_eq_zero {a : Nat} (hp : a ≠ PWR_STATUS) (ht : a ≠ THM_STATE) (hs : ∀ n < 24, a ≠ STK_TEMP n) :
    latchMask a = 0 := by
  have hany : ((List.range 24).any fun n => a == STK_TEMP n) = false := by
    rw [List.any_eq_false]
    intro n hn
    simpa using hs n (List.mem_range.mp hn)
  unfold latchMask
  rw [if_neg hp, if_neg ht, hany]
  rfl

/-- A block just cleared for a cold start. -/
def Block.clearedCold (s : Block) : Block := s.coldClear.wb PWR_STATUS 8 false

theorem Block.coldStart_eq (s : Block) (cause : Nat) :
    s.coldStart cause = s.clearedCold.boot true cause s.trust.fuses.state 3600 := rfl

theorem Block.rg_clearedCold (s : Block) {a : Nat} (h : a ≠ PWR_STATUS) : s.clearedCold.rg a = s.coldClear.rg a :=
  Block.rg_wb_other _ _ _ h

theorem Block.clearedCold_frame (s : Block) : { s.clearedCold with regs := s.coldClear.regs } = s.coldClear := by
  simp [Block.clearedCold]

/-- The registers of Firn units and of breach are at reset. -/
theorem Block.rg_coldClear_reset (s : Block) {a : Nat} (h : 0x04000000 ≤ a ∨ a = LDG_STATUS) : s.coldClear.rg a = regReset a := by
  have e1 : LDG_STATUS = 0x00500000 := rfl
  have e2 : THM_STATE = 0x00208000 := rfl
  have e3 : PWR_STATUS = 0x00200008 := rfl
  refine Block.rg_keepRegs_zero s.coldClear_regs (latchMask_eq_zero (by omega) (by omega) fun n hn => ?_)
  have e : STK_TEMP n = 0x02000000 + n * 0x10000 + 8 := rfl
  omega

/-- Right before the flash is read, no work is left and every cluster's ledger is at its reset. -/
theorem Block.bootHead_coldIdle (s : Block) (cause n : Nat) : (s.clearedCold.bootHead true cause n).coldIdle := by
  obtain ⟨hframe, -, -⟩ := s.clearedCold.bootHead_frame true cause n
  have hcl := s.clearedCold_frame
  have hz : s.coldClear.jobs = [] ∧ s.coldClear.led = [] := ⟨rfl, rfl⟩
  obtain ⟨b, hb⟩ : ∃ b, b = s.clearedCold := ⟨_, rfl⟩
  rw [← hb] at hframe hcl ⊢
  obtain ⟨c, hc⟩ : ∃ c, c = b.bootHead true cause n := ⟨_, rfl⟩
  rw [← hc] at hframe ⊢
  have hj : c.jobs = [] := (congrArg Block.jobs hframe :).trans ((congrArg Block.jobs hcl :).trans hz.1)
  have hl : c.led = [] := (congrArg Block.led hframe :).trans ((congrArg Block.led hcl :).trans hz.2)
  refine ⟨hj, fun c _ _ => ?_⟩
  unfold Block.ledger
  rw [hl]
  rfl

/-- The block right before the flash is read, with what a clearing for a cold start lost. -/
theorem Block.bootHead_clearedCold (s : Block) (cause n : Nat) :
    { s.clearedCold.bootHead true cause n with regs := s.coldClear.regs, trust := s.coldClear.trust, ice := s.coldClear.ice } =
      s.coldClear ∧
    (s.clearedCold.bootHead true cause n).trust.fuses = s.trust.fuses ∧
    (s.clearedCold.bootHead true cause n).ice = s.ice.unscanned := by
  obtain ⟨hframe, hfuse, hice⟩ := s.clearedCold.bootHead_frame true cause n
  have hcl := s.clearedCold_frame
  have hz : s.coldClear.trust.fuses = s.trust.fuses ∧ s.coldClear.ice = s.ice := ⟨rfl, rfl⟩
  obtain ⟨z, hzd⟩ : ∃ z, z = s.coldClear := ⟨_, rfl⟩
  obtain ⟨b, hb⟩ : ∃ b, b = s.clearedCold := ⟨_, rfl⟩
  rw [← hzd] at hcl hz ⊢
  rw [← hb] at hframe hfuse hice hcl ⊢
  obtain ⟨c, hc⟩ : ∃ c, c = b.bootHead true cause n := ⟨_, rfl⟩
  rw [← hc] at hframe hfuse hice ⊢
  refine ⟨?_, hfuse.trans ((congrArg (fun b : Block => b.trust.fuses) hcl :).trans hz.1),
    hice.trans (congrArg IceCore.unscanned ((congrArg Block.ice hcl :).trans hz.2))⟩
  exact (congrArg (fun b : Block => { b with regs := z.regs, trust := z.trust, ice := z.ice }) hframe :).trans
    (congrArg (fun b : Block => { b with trust := z.trust, ice := z.ice }) hcl :)

theorem Block.bootHead_coldStarted (s : Block) {cause : Nat} (hc : cause < 16) :
    (s.clearedCold.bootHead true cause s.trust.fuses.state).coldStarted s cause := by
  have hn : s.trust.fuses.state < 8 := Nat.lt_of_le_of_lt s.trust.fuses.state_le_four (by omega)
  obtain ⟨-, hbit, hcause, hlc, hpwr⟩ := s.clearedCold.bootHead_start true s.trust.fuses.state hc hn
  obtain ⟨hframe, hfuse, hice⟩ := s.bootHead_clearedCold cause s.trust.fuses.state
  have hpc : s.clearedCold.bit PWR_STATUS 1 = s.coldClear.bit PWR_STATUS 1 :=
    Block.bit_wb_other _ false (by omega) (Or.inr (by omega))
  have hreset : ∀ a, 0x04000000 ≤ a ∨ a = LDG_STATUS →
      (s.clearedCold.bootHead true cause s.trust.fuses.state).rg a = regReset a := by
    intro a ha
    have e1 : LDG_STATUS = 0x00500000 := rfl
    have e3 : PWR_STATUS = 0x00200008 := rfl
    refine (s.clearedCold.rg_bootHead true cause _ (by omega) (by omega)).trans ?_
    exact (s.rg_clearedCold (by omega)).trans (s.rg_coldClear_reset ha)
  have hthm : (s.clearedCold.bootHead true cause s.trust.fuses.state).rg THM_STATE = s.coldClear.rg THM_STATE :=
    (s.clearedCold.rg_bootHead true cause _ (by decide) (by decide)).trans (s.rg_clearedCold (by decide))
  have hz : s.coldClear.lostAll s := s.coldClear_lostAll
  have hgood : s.coldClear.pwr.pwrGood = s.pwr.pwrGood := rfl
  obtain ⟨z, hzd⟩ : ∃ z, z = s.coldClear := ⟨_, rfl⟩
  rw [← hzd] at hframe hpc hthm hz hgood
  obtain ⟨c, hcd⟩ : ∃ c, c = s.clearedCold.bootHead true cause s.trust.fuses.state := ⟨_, rfl⟩
  rw [← hcd] at hbit hcause hlc hpwr hframe hfuse hice hreset hthm ⊢
  have hstart : c.start = z.start := (congrArg Block.start hframe :)
  refine ⟨⟨?_, ?_, ?_, ?_, ?_, ?_, ?_, ?_, ?_⟩, ⟨?_, ?_, ?_, ?_⟩, hcause, hbit, ?_, ?_, hlc, ?_, hfuse, congrArg IceCore.stored hice, ?_⟩
  · exact (congrArg Block.jobs hframe :).trans hz.jobs
  · exact (congrArg Block.parts hframe :).trans hz.parts
  · exact (congrArg Block.objs hframe :).trans hz.objs
  · exact (congrArg Block.reqs hframe :).trans hz.reqs
  · exact (congrArg Block.bundles hframe :).trans hz.bundles
  · exact (congrArg Block.snow hframe :).trans hz.snow
  · exact (congrArg Block.mbx hframe :).trans hz.mbx
  · exact (congrArg Block.fns hframe :).trans hz.fns
  · exact (congrArg (fun b : Block => b.fw.loaded) hframe :).trans hz.fw
  · rw [hstart, hz.input]
  · rw [hstart, hz.powered]
  · rw [hstart, hz.link]
  · exact (congrArg (fun b : Block => b.pwr.pwrGood) hframe :).trans hgood
  · intro u hu
    have e : FIRN_EPOCH u = 0x04000000 + u * 0x1000 + 4 := rfl
    rw [Block.fld, hreset _ (by omega)]
    exact fld_FIRN_EPOCH_reset hu
  · rw [Block.breach, Block.bit, hreset _ (Or.inr rfl)]
    decide
  · rw [Block.latched, Block.bit, hthm, hpwr, hpc, ← hzd]
    rfl
  · exact (congrArg Block.env hframe :).trans hz.env

/-- The steps that read the flash keep what a cold start has left. -/
theorem Block.coldStarted.booted {s t u : Block} {cause : Nat} (h : t.coldStarted s cause) (hb : u.booted t) : u.coldStarted s cause := by
  obtain ⟨⟨h1, h2, h3, h4, h5, h6, h7, h8, h9⟩, ⟨hin, hpow, hlink, hgood⟩, hcause, hcold, hep, hwhole, hlc, hlatch, hfuse, hst, henv⟩ := h
  obtain ⟨-, hwarm, hg, hr, hs, hst'⟩ := hb
  have hkeep : ∀ a, bootKeeps a → a ≠ MOR_START → u.rg a = t.rg a := hg
  refine ⟨⟨?_, ?_, ?_, ?_, ?_, ?_, ?_, ?_, ?_⟩, ⟨?_, ?_, ?_, ?_⟩, ?_, hwarm.trans hcold, ?_, ?_, ?_, ?_, ?_, hst'.trans hst, ?_⟩
  · exact (congrArg Block.jobs hr :).trans h1
  · exact (congrArg Block.parts hr :).trans h2
  · exact (congrArg Block.objs hr :).trans h3
  · exact (congrArg Block.reqs hr :).trans h4
  · exact (congrArg Block.bundles hr :).trans h5
  · exact (congrArg Block.snow hr :).trans h6
  · exact (congrArg Block.mbx hr :).trans h7
  · exact (congrArg Block.fns hr :).trans h8
  · exact (congrArg (fun b : Block => b.fw.loaded) hr :).trans h9
  · exact (congrArg Start.input hs :).trans hin
  · exact (congrArg Start.powered hs :).trans hpow
  · exact (congrArg Start.linkUp hs :).trans hlink
  · exact (congrArg (fun b : Block => b.pwr.pwrGood) hr :).trans hgood
  · exact (congrArg (fun w : Word => w.fld 3 0) (hkeep MOR_RESET_CAUSE (by unfold bootKeeps; decide) (by decide))).trans hcause
  · intro k hk
    have e : FIRN_EPOCH k = 0x04000000 + k * 0x1000 + 4 := rfl
    have e1 : MOR_START = 0x00000100 := rfl
    exact (congrArg (fun w : Word => w.fld 15 0) (hkeep _ (by unfold bootKeeps; omega) (by omega))).trans (hep k hk)
  · exact (congrArg (fun w : Word => w.bit 0) (hkeep LDG_STATUS (by unfold bootKeeps; decide) (by decide))).trans hwhole
  · exact (congrArg (fun w : Word => w.fld 2 0) (hkeep MOR_LC (by unfold bootKeeps; decide) (by decide))).trans hlc
  · rw [Block.latched, Block.bit, Block.bit, hkeep THM_STATE (by unfold bootKeeps; decide) (by decide),
      hkeep PWR_STATUS (by unfold bootKeeps; decide) (by decide)]
    exact hlatch
  · exact (congrArg (fun b : Block => b.trust.fuses) hr :).trans hfuse
  · exact (congrArg Block.env hr :).trans henv

theorem Block.records_congr {s t : Block} (h : t.env = s.env) : t.records = s.records := by
  unfold Block.records Block.recordRegion Block.directoryOk
  rw [h]

theorem Block.coldStart_coldStarted (s : Block) {cause : Nat} (hc : cause < 16) :
    (s.coldStart cause).coldStarted s cause ∧
    (s.coldStart cause).phase = if s.ice.hold then 1 else if s.records.settle = 0 then 10 else 4 := by
  have hn : s.trust.fuses.state < 8 := Nat.lt_of_le_of_lt s.trust.fuses.state_le_four (by omega)
  obtain ⟨hphase, -, -, -, -⟩ := s.clearedCold.bootHead_start true s.trust.fuses.state hc hn
  obtain ⟨hframe, -, hice⟩ := s.bootHead_clearedCold cause s.trust.fuses.state
  have hst := s.bootHead_coldStarted hc
  have hidle := s.bootHead_coldIdle cause s.trust.fuses.state
  have hzpll : s.coldClear.start.pllOn = false := rfl
  rw [Block.coldStart_eq, Block.boot_eq]
  obtain ⟨z, hzd⟩ : ∃ z, z = s.coldClear := ⟨_, rfl⟩
  rw [← hzd] at hframe hzpll
  obtain ⟨c, hcd⟩ : ∃ c, c = s.clearedCold.bootHead true cause s.trust.fuses.state := ⟨_, rfl⟩
  rw [← hcd] at hphase hframe hice hst hidle ⊢
  have hhold : c.ice.hold = s.ice.hold := (congrArg IceCore.hold hice :)
  rw [hhold]
  split
  · exact ⟨hst, hphase⟩
  · have hpll : c.start.pllOn = false := (congrArg (fun b : Block => b.start.pllOn) hframe :).trans hzpll
    have hb := Block.bootRecords_booted hidle hpll true 3600
    refine ⟨hst.booted hb, hb.phase.trans ?_⟩
    rw [Block.records_congr hst.env]

/-! ### The latches of a rail that has fallen -/

theorem mem_keepRegs {m : Nat → Nat} {t : Tbl Word} {e : Nat × Word} (h : e ∈ keepRegs m t) :
    ∃ v, (e.1, v) ∈ t ∧ e.2 = keepBits e.1 (m e.1) v := by
  obtain ⟨hm, -⟩ := List.mem_filter.mp h
  obtain ⟨x, hx, rfl⟩ := List.mem_map.mp hm
  exact ⟨x.2, hx, rfl⟩

theorem mem_of_kget {α : Type} {t : Tbl α} {a : Nat} {v : α} (h : kget t a = some v) : (a, v) ∈ t := by
  induction t with
  | nil => cases h
  | cons e t ih =>
    obtain ⟨k, u⟩ := e
    rw [kget_cons] at h
    split at h
    next hk =>
      cases h
      rw [hk]
      exact List.mem_cons_self
    next => exact List.mem_cons_of_mem _ (ih h)

/-- A bit that one start resets is at its reset after another. -/
theorem Block.bit_keepRegs_twice {s t u : Block} {m m' : Nat → Nat} (ht : t.regs = keepRegs m s.regs)
    (hu : u.regs = keepRegs m' t.regs) {a i : Nat} (hi : i < 32) (hm : (m a).testBit i = false) :
    (u.rg a).bit i = (regReset a).bit i := by
  unfold Block.rg tget
  rw [hu]
  cases h : kget (keepRegs m' t.regs) a with
  | none => rfl
  | some w =>
    obtain ⟨v, hv, hw⟩ := mem_keepRegs (mem_of_kget h)
    rw [ht] at hv
    obtain ⟨x, -, hx⟩ := mem_keepRegs hv
    have hx : v = keepBits a (m a) x := hx
    have hw : w = keepBits a (m' a) v := hw
    rw [Option.getD_some, hw, keepBits_bit _ _ _ hi, hx, keepBits_bit _ _ _ hi, hm]
    split <;> rfl

/-- What of a register a fall of the always-on rail keeps. -/
def vaonMask (a : Nat) : Nat := if latchMask a = 0 then 0xFFFFFFFF else 0xFFFFFFFF - latchMask a

theorem Block.vaonDown_regs (s : Block) : s.vaonDown.regs = keepRegs vaonMask s.regs := rfl

theorem vaonMask_PWR_STATUS : (vaonMask PWR_STATUS).testBit 1 = false := by
  unfold vaonMask
  rw [latchMask_PWR_STATUS]
  decide

theorem vaonMask_THM_STATE : (vaonMask THM_STATE).testBit 16 = false := by
  unfold vaonMask
  rw [latchMask_THM_STATE]
  decide

theorem Block.latched_of_vaonDown {s t : Block} (ht : t.regs = s.vaonDown.regs) : t.latched = false ∧ t.coldClear.latched = false := by
  have hr : t.regs = keepRegs vaonMask s.regs := ht
  have hp := Block.bit_keepRegs_off hr (a := PWR_STATUS) (by omega) vaonMask_PWR_STATUS
  have hm := Block.bit_keepRegs_off hr (a := THM_STATE) (by omega) vaonMask_THM_STATE
  have hp' := Block.bit_keepRegs_twice hr t.coldClear_regs (a := PWR_STATUS) (by omega) vaonMask_PWR_STATUS
  have hm' := Block.bit_keepRegs_twice hr t.coldClear_regs (a := THM_STATE) (by omega) vaonMask_THM_STATE
  constructor
  · rw [Block.latched, Block.bit, Block.bit, hp, hm, regReset_PWR_STATUS_bit_one, regReset_THM_STATE_bit]
    rfl
  · rw [Block.latched, Block.bit, Block.bit, hp', hm', regReset_PWR_STATUS_bit_one, regReset_THM_STATE_bit]
    rfl

/-! ### The input comes -/

/-- A block whose input has come. -/
def Block.inputUp (s : Block) : Block :=
  { s with start := { s.start with input := true, powered := true }, ice := { s.ice with pcycles := s.ice.pcycles + 1, secNs := 0 } }

/-- A block whose rails are up. -/
def Block.railsUp (s : Block) : Block := { s with pwr := { s.pwr with pwrGood := true } }

/-- The input starts a module whose always-on rail has fallen, or stood. -/
theorem vinPresentEffect_eq (s : Block) :
    ∃ b, (b = s.drawn ∨ b = s.drawn.vaonDown) ∧ vinPresentEffect s =
      if b.inputUp.latched then b.inputUp.setPhase 11 else b.inputUp.railsUp.coldStart 0 := by
  refine ⟨if s.start.powered && (s.choose 2).1 == 0 then s.drawn else s.drawn.vaonDown, ?_, rfl⟩
  split
  · exact Or.inl rfl
  · exact Or.inr rfl

/-- What the coming of the input finds of what lasts. -/
theorem Block.inputUp_of_drawn {s b : Block} (h : b = s.drawn ∨ b = s.drawn.vaonDown) :
    b.trust.fuses = s.trust.fuses ∧ b.ice.perm = s.ice.perm ∧ b.ice.ring = s.ice.ring ∧ b.ice.hold = s.ice.hold ∧
    b.ice.pcycles = s.ice.pcycles ∧ b.env = s.env ∧ b.pwr = s.pwr := by
  rcases h with rfl | rfl
  · exact ⟨rfl, rfl, rfl, rfl, rfl, rfl, rfl⟩
  · exact ⟨rfl, rfl, rfl, rfl, rfl, rfl, rfl⟩

theorem Block.latched_congr {s t : Block} (h : t.regs = s.regs) : t.latched = s.latched := by
  rw [Block.latched, Block.bit, Block.bit, Block.rg_of_regs h, Block.rg_of_regs h]
  rfl

theorem exec_vinPresent {s : State} {mv : Nat} (hi : s.blk.start.input = false) (hlo : 36000 ≤ mv) (hhi : mv ≤ 60000) :
    exec (.vinPresent mv) s = onBlk (effVinPresent mv) s ∧ effVinPresent mv s.blk = vinPresentEffect s.blk :=
  ⟨rfl, if_pos (by simp [hi, hlo, hhi])⟩

theorem vinPresent_start (s : State) (mv : Nat) (hi : s.blk.start.input = false) (hlo : 36000 ≤ mv) (hhi : mv ≤ 60000)
    (hl : s.blk.latched = false) :
    ∃ t : State, exec (.vinPresent mv) s = .next t ∧ t.pending = s.pending ∧ t.blk.start.input = true ∧ t.blk.start.powered = true ∧
      t.blk.pwr.pwrGood = true ∧ t.blk.fld MOR_RESET_CAUSE 3 0 = 0 ∧ t.blk.bit MOR_START 4 = false ∧
      t.blk.phase = (if s.blk.ice.hold then 1 else if s.blk.records.settle = 0 then 10 else 4) ∧
      t.blk.ice.pcycles = s.blk.ice.pcycles + 1 ∧ t.blk.fw.loaded = false ∧ t.blk.parts = [] ∧ t.blk.objs = [] ∧ t.blk.jobs = [] ∧
      t.blk.reqs = [] ∧ t.blk.bundles = [] ∧ t.blk.mbx = [] ∧ t.blk.fns = [] ∧ (∀ u, u < 4096 → t.blk.fld (FIRN_EPOCH u) 15 0 = 1) ∧
      t.blk.trust.fuses = s.blk.trust.fuses ∧ t.blk.ice.perm = s.blk.ice.perm ∧ t.blk.ice.ring = s.blk.ice.ring ∧
      t.blk.env = s.blk.env := by
  obtain ⟨hx, he⟩ := exec_vinPresent hi hlo hhi
  obtain ⟨b, hb, heff⟩ := vinPresentEffect_eq s.blk
  have hlat : b.inputUp.latched = false := by
    rcases hb with rfl | rfl
    · exact hl
    · exact (Block.latched_of_vaonDown rfl).1
  rw [hlat] at heff
  obtain ⟨hfuse, hperm, hring, hhold, hpc, henv, -⟩ := Block.inputUp_of_drawn hb
  obtain ⟨hc, hphase⟩ := b.inputUp.railsUp.coldStart_coldStarted (cause := 0) (by omega)
  have hrec : b.inputUp.railsUp.records = s.blk.records := Block.records_congr henv
  obtain ⟨c, hcd⟩ : ∃ c, c = b.inputUp.railsUp.coldStart 0 := ⟨_, rfl⟩
  rw [← hcd] at heff hc hphase
  have hh : b.inputUp.railsUp.ice.hold = s.blk.ice.hold := hhold
  rw [hrec, hh] at hphase
  obtain ⟨⟨h1, h2, h3, h4, h5, -, h7, h8, h9⟩, ⟨hin, hpow, -, hgood⟩, hcause, hcold, hep, -, -, -, hf, hst, hen⟩ := hc
  have hpp : c.ice.perm = s.blk.ice.perm := (congrArg IceCore.perm hst :).trans hperm
  refine ⟨_, hx.trans (onBlk_next_of_eq (he.trans heff) (hf.trans hfuse) hpp), rfl, hin, hpow, hgood, hcause, hcold, hphase,
    (congrArg IceCore.pcycles hst :).trans (congrArg (· + 1) hpc), h9, h2, h3, h1, h4, h5, h7, h8, hep, hf.trans hfuse, hpp,
    (congrArg IceCore.ring hst :).trans hring, hen.trans henv⟩

theorem vinPresent_latched (s : State) (mv : Nat) (hi : s.blk.start.input = false) (hlo : 36000 ≤ mv) (hhi : mv ≤ 60000)
    (hl : s.blk.latched = true) (hp : s.blk.pwr.pwrGood = false) :
    ∃ t : State, exec (.vinPresent mv) s = .next t ∧ t.pending = s.pending ∧ t.blk.start.input = true ∧ t.blk.start.powered = true ∧
      (t.blk.phase = 11 ∧ t.blk.pwr.pwrGood = false ∧ t.blk.latched = true ∨
        t.blk.phase ≠ 11 ∧ t.blk.pwr.pwrGood = true ∧ t.blk.latched = false) := by
  obtain ⟨hx, he⟩ := exec_vinPresent hi hlo hhi
  obtain ⟨b, hb, heff⟩ := vinPresentEffect_eq s.blk
  obtain ⟨hfuse, hperm, -, -, -, -, hpwr⟩ := Block.inputUp_of_drawn hb
  rcases hb with rfl | rfl
  case inl =>
    have hlat : s.blk.drawn.inputUp.latched = true := hl
    rw [hlat, if_pos rfl] at heff
    refine ⟨_, hx.trans (onBlk_next_of_eq (he.trans heff) rfl rfl), rfl, rfl, rfl, Or.inl ⟨Block.phase_setPhase _ (by omega), hp, ?_⟩⟩
    have h1 : (s.blk.drawn.inputUp.setPhase 11).rg THM_STATE = s.blk.drawn.inputUp.rg THM_STATE :=
      Block.rg_wf_other _ _ _ _ (by decide)
    have h2 : (s.blk.drawn.inputUp.setPhase 11).rg PWR_STATUS = s.blk.drawn.inputUp.rg PWR_STATUS :=
      Block.rg_wf_other _ _ _ _ (by decide)
    show (s.blk.drawn.inputUp.setPhase 11).latched = true
    rw [Block.latched, Block.bit, Block.bit, h1, h2]
    exact hlat
  case inr =>
    have hlat : s.blk.drawn.vaonDown.inputUp.latched = false := (Block.latched_of_vaonDown rfl).1
    rw [hlat] at heff
    obtain ⟨hc, hphase⟩ := s.blk.drawn.vaonDown.inputUp.railsUp.coldStart_coldStarted (cause := 0) (by omega)
    have hclear : s.blk.drawn.vaonDown.inputUp.railsUp.coldClear.latched = false :=
      (Block.latched_of_vaonDown (s := s.blk.drawn) rfl).2
    obtain ⟨c, hcd⟩ : ∃ c, c = s.blk.drawn.vaonDown.inputUp.railsUp.coldStart 0 := ⟨_, rfl⟩
    rw [← hcd] at heff hc hphase
    obtain ⟨-, ⟨hin, hpow, -, hgood⟩, -, -, -, -, -, hlatch, hf, hst, -⟩ := hc
    refine ⟨_, hx.trans (onBlk_next_of_eq (he.trans heff) (hf.trans hfuse) ((congrArg IceCore.perm hst :).trans hperm)), rfl, hin,
      hpow, Or.inr ⟨?_, hgood, hlatch.trans hclear⟩⟩
    show c.phase ≠ 11
    rw [hphase]
    split_ifs <;> decide

/-! ### Starts by command -/

/-- A command that makes a cold start. -/
theorem exec_coldCause {s : State} {i : Instr} {c : Nat} (hi : Instr.coldCause i = some c) (hs : startable s.blk = true) :
    c < 16 ∧ ∃ f, exec i s = onBlk f s ∧ f s.blk = s.blk.coldStart c := by
  cases i <;> try cases hi
  case morResetCold j v =>
    simp only [Instr.coldCause, Option.ite_none_right_eq_some, Option.some.injEq] at hi
    obtain ⟨⟨h0, hk, h2⟩, rfl⟩ := hi
    refine ⟨by omega, effMorResetCold j v, rfl, ?_⟩
    unfold effMorResetCold
    rw [if_neg (by simp [h0, hs]), if_pos (by simp [hk, h2])]
  case sidebandColdReset => exact ⟨by omega, effSidebandColdReset, rfl, if_pos hs⟩

theorem coldCause_spec (s : State) (i : Instr) (c : Nat) (hi : Instr.coldCause i = some c) (hs : startable s.blk = true) :
    ∃ t : State, exec i s = .next t ∧ t.pending = s.pending ∧ t.blk.fld MOR_RESET_CAUSE 3 0 = c ∧ t.blk.bit MOR_START 4 = false ∧
      t.blk.pwr.pwrGood = true ∧ t.blk.phase = (if s.blk.ice.hold then 1 else if s.blk.records.settle = 0 then 10 else 4) ∧
      t.blk.start.linkUp = false ∧ t.blk.fw.loaded = false ∧ t.blk.parts = [] ∧ t.blk.objs = [] ∧ t.blk.jobs = [] ∧ t.blk.reqs = [] ∧
      t.blk.bundles = [] ∧ t.blk.snow = [] ∧ t.blk.mbx = [] ∧ t.blk.fns = [] ∧ t.blk.breach = false ∧
      (∀ u, u < 4096 → t.blk.fld (FIRN_EPOCH u) 15 0 = 1) ∧ t.blk.lcState = s.blk.trust.fuses.state ∧
      t.blk.trust.fuses = s.blk.trust.fuses ∧ t.blk.ice.perm = s.blk.ice.perm ∧ t.blk.ice.ring = s.blk.ice.ring ∧
      t.blk.ice.pcycles = s.blk.ice.pcycles ∧ t.blk.env = s.blk.env := by
  obtain ⟨hc16, f, hx, he⟩ := exec_coldCause hi hs
  obtain ⟨hc, hphase⟩ := s.blk.coldStart_coldStarted hc16
  obtain ⟨b, hbd⟩ : ∃ b, b = s.blk.coldStart c := ⟨_, rfl⟩
  rw [← hbd] at he hc hphase
  obtain ⟨⟨h1, h2, h3, h4, h5, h6, h7, h8, h9⟩, ⟨-, -, hlink, hgood⟩, hcause, hcold, hep, hwhole, hlc, -, hf, hst, hen⟩ := hc
  have hp : s.blk.pwr.pwrGood = true := by
    unfold startable at hs
    rw [Bool.and_eq_true] at hs
    exact hs.1
  have hperm : b.ice.perm = s.blk.ice.perm := (congrArg IceCore.perm hst :)
  exact ⟨_, hx.trans (onBlk_next_of_eq he hf hperm), rfl, hcause, hcold, hgood.trans hp, hphase, hlink, h9, h2, h3, h1, h4, h5, h6, h7,
    h8, hwhole, hep, hlc, hf, hperm, (congrArg IceCore.ring hst :), (congrArg IceCore.pcycles hst :), hen⟩

theorem badReset_spec (s : State) (v : Word) (hs : startable s.blk = true)
    (h : resetKey v = false ∨ (v.fld 1 0 ≠ 1 ∧ v.fld 1 0 ≠ 2)) :
    ∃ t : State, exec (.morResetCold 0 v) s = .next t ∧ t.pending = s.pending ∧ exec (.morResetWarm 0 v) s = .next t ∧
      t.blk = s.blk.bump MOR_CNT_BADRESET := by
  have h1 : (resetKey v && v.fld 1 0 == 1) = false := by
    rcases h with h | ⟨h, -⟩ <;> simp [h]
  have h2 : (resetKey v && v.fld 1 0 == 2) = false := by
    rcases h with h | ⟨-, h⟩ <;> simp [h]
  have hc : effMorResetCold 0 v s.blk = s.blk.badReset := by
    unfold effMorResetCold
    rw [if_neg (by simp [hs]), h1, h2]
    rfl
  have hw : effMorResetWarm 0 v s.blk = s.blk.badReset := by
    unfold effMorResetWarm
    rw [if_neg (by simp [hs]), h1, h2]
    rfl
  exact ⟨_, onBlk_next_of_eq (f := effMorResetCold 0 v) hc rfl rfl, rfl, onBlk_next_of_eq (f := effMorResetWarm 0 v) hw rfl rfl, rfl⟩

/-- Settles O44: a cold start is `coldClear`, its cause and its fuses (`bootHead_coldStarted`), and the records
(`bootRecords_booted`). -/
theorem coldStarts : Obligations.ColdStarts := by
  refine ⟨vinPresent_start, vinPresent_latched, ?noInput, coldCause_spec, badReset_spec, ?noCold, ?noWarm, ?noSideband⟩
  case noInput =>
    intro s mv h
    refine onBlk_idle (f := effVinPresent mv) (if_neg ?_)
    rw [Bool.and_eq_true, Bool.and_eq_true, Bool.not_eq_true', decide_eq_true_iff, decide_eq_true_iff]
    rintro ⟨⟨hi, hlo⟩, hhi⟩
    rcases h with h | h | h
    · rw [h] at hi
      cases hi
    · omega
    · omega
  case noCold =>
    intro s i v h
    exact onBlk_idle (f := effMorResetCold i v) (if_pos (by simpa using h))
  case noWarm =>
    intro s i v h
    exact onBlk_idle (f := effMorResetWarm i v) (if_pos (by simpa using h))
  case noSideband =>
    intro s h
    exact onBlk_idle (f := effSidebandColdReset) (if_neg (by simp [h]))

end Sys2Proof.Machine
end

section
/-! The steps of a start from its settle time to AWAIT_FW (R421, R422). -/

namespace Sys2Proof.Machine

/-! ### Ports train -/

/-- What training a port changes: the port's registers and its record. -/
structure Block.trained (t s : Block) (p : Nat) : Prop where
  state : t.portState p = 1
  regs : ∀ a, a < ESK p 0 ∨ ESK p 0x80000 ≤ a → t.rg a = s.rg a
  rest : { t with regs := s.regs, esk := s.esk } = s

/-- The state of a port that starts to train. -/
def Block.portResets (s : Block) (p : Nat) (v : Bool) : Block :=
  (((s.wf (ESK_STATE p) 1 0 1).wb (ESK_STATE p) 11 v).wb (ESK_STATE p) 2 false).wf (ESK_STATE p) 6 3 0

/-- The lanes of a port that starts to train. -/
def Block.lanesReset (s : Block) (p : Nat) : Block := loop 9 (fun n s => s.wf (ESK_LANE p n) 18 16 0) s

theorem Block.trainPort_eq (s : Block) (p : Nat) : ∃ v f, s.trainPort p = ((s.portResets p v).lanesReset p).modPort p f  := by
  unfold Block.trainPort Block.portResets Block.lanesReset
  exact ⟨_, fun x => { x with retrain := false, laneMax := _, encReq := _ }, rfl⟩

theorem Block.portResets_spec (s : Block) (p : Nat) (v : Bool) :
    (s.portResets p v).portState p = 1 ∧ (∀ a, a ≠ ESK_STATE p → (s.portResets p v).rg a = s.rg a) ∧
    { s.portResets p v with regs := s.regs } = s := by
  refine ⟨?_, fun a h => ?_, by simp [Block.portResets]⟩
  · refine (Block.fld_wf_other _ _ _ _ (by omega) (by omega) (Or.inr (Or.inl (by omega)))).trans ?_
    refine (Block.fld_wf_other _ _ _ _ (by omega) (by omega) (Or.inr (Or.inl (by omega)))).trans ?_
    refine (Block.fld_wf_other _ _ _ _ (by omega) (by omega) (Or.inr (Or.inl (by omega)))).trans ?_
    exact Block.fld_wf_same _ _ _ (by omega) (by omega)
  · exact (Block.rg_wf_other _ _ _ _ h).trans ((Block.rg_wb_other _ _ _ h).trans
      ((Block.rg_wb_other _ _ _ h).trans (Block.rg_wf_other _ _ _ _ h)))

theorem Block.lanesReset_spec (s : Block) (p : Nat) :
    (∀ a, (∀ n < 9, a ≠ ESK_LANE p n) → (s.lanesReset p).rg a = s.rg a) ∧ { s.lanesReset p with regs := s.regs } = s :=
  ⟨fun a ha => loop_keeps_below (fun b : Block => b.rg a) _ 9 (fun n b hn => Block.rg_wf_other b _ _ _ (ha n hn)) s,
    loop_keeps (fun b : Block => { b with regs := s.regs }) _ (fun n b => by simp) 9 s⟩

theorem Block.trainPort_trained (s : Block) (p : Nat) : (s.trainPort p).trained s p := by
  have e : ∀ k, ESK p k = 0x00800000 + p * 0x80000 + k := fun _ => rfl
  have es : ESK_STATE p = 0x00800000 + p * 0x80000 + 0 := rfl
  have el : ∀ n, ESK_LANE p n = 0x00800000 + p * 0x80000 + (0x100 + 4 * n) := fun _ => rfl
  obtain ⟨v, f, he⟩ := s.trainPort_eq p
  obtain ⟨h1, h2, h3⟩ := s.portResets_spec p v
  obtain ⟨l2, l3⟩ := (s.portResets p v).lanesReset_spec p
  rw [he]
  obtain ⟨b, hb⟩ : ∃ b, b = s.portResets p v := ⟨_, rfl⟩
  rw [← hb] at h1 h2 h3 l2 l3 ⊢
  obtain ⟨c, hc⟩ : ∃ c, c = b.lanesReset p := ⟨_, rfl⟩
  rw [← hc] at l2 l3 ⊢
  have hm : ∀ a, (c.modPort p f).rg a = c.rg a := fun _ => rfl
  have hs : (c.modPort p f).rg (ESK_STATE p) = b.rg (ESK_STATE p) := (hm _).trans (l2 _ fun n _ => by rw [el, es]; omega)
  refine ⟨?_, fun a ha => ?_, ?_⟩
  · rw [Block.portState, Block.fld, hs]
    exact h1
  · rw [e, e] at ha
    exact (hm a).trans ((l2 a fun n _ => by rw [el]; omega).trans (h2 a (by rw [es]; omega)))
  · exact (congrArg (fun b : Block => { b with regs := s.regs, esk := s.esk }) l3 :).trans
      (congrArg (fun b : Block => { b with esk := s.esk }) h3 :)

/-- All ports, trained one after another. -/
def Block.trainPorts (s : Block) (n : Nat) : Block := loop n (fun p s => s.trainPort p) s

theorem Block.trainPorts_trained (s : Block) (n : Nat) :
    (∀ p, p < n → (s.trainPorts n).portState p = 1) ∧
    (∀ a, a < 0x00800000 ∨ ESK n 0 ≤ a → (s.trainPorts n).rg a = s.rg a) ∧
    { s.trainPorts n with regs := s.regs, esk := s.esk } = s := by
  have e : ∀ p k, ESK p k = 0x00800000 + p * 0x80000 + k := fun _ _ => rfl
  induction n with
  | zero => exact ⟨fun p h => absurd h (Nat.not_lt_zero p), fun _ _ => rfl, rfl⟩
  | succ n ih =>
    obtain ⟨h1, h2, h3⟩ := ih
    have hbound : ∀ a, a < 0x00800000 ∨ ESK (n + 1) 0 ≤ a → (a < ESK n 0 ∨ ESK n 0x80000 ≤ a) ∧ (a < 0x00800000 ∨ ESK n 0 ≤ a) := by
      intro a ha
      rw [e] at ha
      rw [e, e]
      omega
    have hlow : ∀ p, p < n → ESK_STATE p < ESK n 0 := by
      intro p hp
      have es : ESK_STATE p = 0x00800000 + p * 0x80000 + 0 := rfl
      rw [es, e]
      omega
    have hstep : s.trainPorts (n + 1) = (s.trainPorts n).trainPort n := rfl
    obtain ⟨hst, hg, hr⟩ := (s.trainPorts n).trainPort_trained n
    rw [hstep]
    obtain ⟨b, hb⟩ : ∃ b, b = s.trainPorts n := ⟨_, rfl⟩
    rw [← hb] at h1 h2 h3 hst hg hr ⊢
    obtain ⟨c, hc⟩ : ∃ c, c = b.trainPort n := ⟨_, rfl⟩
    rw [← hc] at hst hg hr ⊢
    refine ⟨fun p hp => ?_, fun a ha => ?_, ?_⟩
    · rcases Nat.lt_succ_iff_lt_or_eq.mp hp with h | rfl
      · have hk : c.rg (ESK_STATE p) = b.rg (ESK_STATE p) := hg _ (Or.inl (hlow p h))
        exact (congrArg (fun w : Word => w.fld 1 0) hk).trans (h1 p h)
      · exact hst
    · obtain ⟨ha1, ha2⟩ := hbound a ha
      exact (hg a ha1).trans (h2 a ha2)
    · exact (congrArg (fun b : Block => { b with regs := s.regs, esk := s.esk }) hr :).trans h3

/-! ### Going on to AWAIT_FW -/

theorem Block.goAwait_phase (s : Block) :
    s.goAwait.phase = if s.phase = 6 ∧ s.start.stacksDone = true ∧ (s.start.linkUp = true ∨ s.internal = true) then 7 else s.phase := by
  unfold Block.goAwait
  split
  · exact s.phase_setPhase (by omega)
  · rfl

theorem Block.rg_goAwait (s : Block) {a : Nat} (h : a ≠ MOR_START) : s.goAwait.rg a = s.rg a := by
  unfold Block.goAwait
  split
  · exact Block.rg_wf_other _ _ _ _ h
  · rfl

theorem Block.goAwait_frame (s : Block) : { s.goAwait with regs := s.regs } = s := by
  unfold Block.goAwait
  split
  · simp [Block.setPhase]
  · rfl

theorem Block.internal_congr {s t : Block} (h : t.rg MOR_RESET_CAUSE = s.rg MOR_RESET_CAUSE) : t.internal = s.internal := by
  rw [Block.internal, Block.fld, h]
  rfl

/-! ### SETTLE_EXPIRY -/

/-- A block whose PLLs run. -/
def Block.pllsRun (s : Block) : Block :=
  ((({ s with start := { s.start with pllOn := true } } : Block).wr CLK_SPREAD_ACT (s.rg CLK_SPREAD)).wb CLK_STATUS 6
    (s.bit CLK_SPREAD 20)).setPhase 6

theorem Block.startPlls_eq (s : Block) : s.startPlls = (s.pllsRun.trainPorts 16).goAwait := by
  have h : ∀ v, ((({ s with start := { s.start with pllOn := true } } : Block).wr CLK_SPREAD_ACT v).bit CLK_SPREAD 20) =
      s.bit CLK_SPREAD 20 := fun v => congrArg (fun w : Word => w.bit 20) (Block.rg_wr_other _ _ (by decide))
  unfold Block.startPlls Block.pllsRun Block.trainPorts
  dsimp only
  rw [h]
  rfl

theorem Block.pllsRun_spec (s : Block) :
    s.pllsRun.phase = 6 ∧ s.pllsRun.rg CLK_SPREAD_ACT = s.rg CLK_SPREAD ∧
    s.pllsRun.rg MOR_RESET_CAUSE = s.rg MOR_RESET_CAUSE ∧ s.pllsRun.start = { s.start with pllOn := true } ∧
    { s.pllsRun with regs := s.regs, start := s.start } = s := by
  refine ⟨Block.phase_setPhase _ (by omega), ?_, ?_, ?_, ?_⟩
  · exact (Block.rg_wf_other _ _ _ _ (by decide)).trans ((Block.rg_wb_other _ _ _ (by decide)).trans (Block.rg_wr_same ..))
  · exact (Block.rg_wf_other _ _ _ _ (by decide)).trans ((Block.rg_wb_other _ _ _ (by decide)).trans (Block.rg_wr_other _ _ (by decide)))
  · simp [Block.pllsRun, Block.setPhase]
  · simp [Block.pllsRun, Block.setPhase]

theorem settleExpiry_spec (s : State) (hs : startable s.blk = true) (h4 : s.blk.phase = 4) (hp : s.blk.start.perst = false) :
    ∃ t : State, exec .settleExpiry s = .next t ∧ t.pending = s.pending ∧ t.blk.start.pllOn = true ∧
      t.blk.phase = (if s.blk.start.stacksDone ∧ (s.blk.start.linkUp ∨ s.blk.internal) then 7 else 6) ∧
      (∀ p, p < 16 → t.blk.portState p = 1) ∧ t.blk.rg CLK_SPREAD_ACT = s.blk.rg CLK_SPREAD ∧
      { t.blk with regs := s.blk.regs, start := s.blk.start, esk := s.blk.esk } = s.blk := by
  have hx : exec .settleExpiry s = onBlk effSettleExpiry s := rfl
  have he : effSettleExpiry s.blk = (s.blk.pllsRun.trainPorts 16).goAwait :=
    (if_pos (by simp [hs, h4, hp])).trans s.blk.startPlls_eq
  obtain ⟨h6, hact, hcause, hstart, hrest⟩ := s.blk.pllsRun_spec
  obtain ⟨hports, hg, hr⟩ := s.blk.pllsRun.trainPorts_trained 16
  obtain ⟨b, hb⟩ : ∃ b, b = s.blk.pllsRun := ⟨_, rfl⟩
  rw [← hb] at he h6 hact hcause hstart hrest hports hg hr
  obtain ⟨c, hc⟩ : ∃ c, c = b.trainPorts 16 := ⟨_, rfl⟩
  rw [← hc] at he hports hg hr
  have hga := c.goAwait_phase
  have hgf := c.goAwait_frame
  have hgr := fun a => c.rg_goAwait (a := a)
  obtain ⟨d, hd⟩ : ∃ d, d = c.goAwait := ⟨_, rfl⟩
  rw [← hd] at he hga hgf hgr
  have hcs : c.start = { s.blk.start with pllOn := true } := (congrArg Block.start hr :).trans hstart
  have hds : d.start = { s.blk.start with pllOn := true } := (congrArg Block.start hgf :).trans hcs
  have hcp : c.phase = 6 := (congrArg (fun w : Word => w.fld 3 0) (hg MOR_START (by decide))).trans h6
  have hci : c.internal = s.blk.internal := Block.internal_congr ((hg MOR_RESET_CAUSE (by decide)).trans hcause)
  have hdf : { d with regs := s.blk.regs, start := s.blk.start, esk := s.blk.esk } = s.blk := by
    refine (congrArg (fun x : Block => { x with regs := s.blk.regs, start := s.blk.start, esk := s.blk.esk }) hgf :).trans ?_
    refine (congrArg (fun x : Block => { x with regs := s.blk.regs, start := s.blk.start, esk := s.blk.esk }) hr :).trans ?_
    exact (congrArg (fun x : Block => { x with esk := s.blk.esk }) hrest :)
  refine ⟨_, hx.trans (onBlk_next_of_eq he (congrArg (fun x : Block => x.trust.fuses) hdf :) (congrArg (fun x : Block => x.ice.perm) hdf :)),
    rfl, ?_, ?_, ?_, ?_, hdf⟩
  · exact congrArg Start.pllOn hds
  · rw [hga, hcp, hci, hcs]
    simp
  · intro p hp
    have e : ESK_STATE p = 0x00800000 + p * 0x80000 + 0 := rfl
    have e1 : MOR_START = 0x100 := rfl
    exact (congrArg (fun w : Word => w.fld 1 0) (hgr (ESK_STATE p) (by omega))).trans (hports p hp)
  · exact (hgr _ (by decide)).trans ((hg _ (by decide)).trans hact)

/-! ### Stacks train -/

/-- Registers that the training of stacks may change. -/
def stackReg (a : Nat) : Prop := a = ICE_DROPPED ∨ 0x00700000 ≤ a

theorem Block.analyseUnits_spec (s : Block) (failed l : List Nat) (hl : ∀ u ∈ l, u < 4096) :
    (∀ u, u < 4096 → (s.each l fun s u => s.analyseUnit (!failed.contains u) u).bit (FIRN_ID u) 12 =
      (decide (u ∈ l ∧ u ∉ failed) || s.bit (FIRN_ID u) 12)) ∧
    (∀ a, a < 0x04000000 → (s.each l fun s u => s.analyseUnit (!failed.contains u) u).rg a = s.rg a) ∧
    { (s.each l fun s u => s.analyseUnit (!failed.contains u) u) with regs := s.regs } = s := by
  have e : ∀ u, FIRN_ID u = 0x04000000 + u * 0x1000 := fun _ => rfl
  have e8 : ∀ u, FIRN_STATE u = 0x04000000 + u * 0x1000 + 8 := fun _ => rfl
  induction l generalizing s with
  | nil => exact ⟨fun u _ => by simp [Block.each], fun _ _ => rfl, rfl⟩
  | cons x l ih =>
    obtain ⟨h1, h2, h3⟩ := ih (s.analyseUnit (!failed.contains x) x) fun u hu => hl u (List.mem_cons_of_mem _ hu)
    have hx := hl x List.mem_cons_self
    have hone : (∀ u, (s.analyseUnit (!failed.contains x) x).bit (FIRN_ID u) 12 =
        (decide (u = x ∧ u ∉ failed) || s.bit (FIRN_ID u) 12)) ∧
        (∀ a, a < 0x04000000 → (s.analyseUnit (!failed.contains x) x).rg a = s.rg a) ∧
        { s.analyseUnit (!failed.contains x) x with regs := s.regs } = s := by
      unfold Block.analyseUnit
      by_cases hf : x ∈ failed
      · rw [if_neg (by simp [hf])]
        refine ⟨fun u => ?_, fun a ha => ?_, by simp [Block.setFirnState]⟩
        · have hne : ¬(u = x ∧ u ∉ failed) := fun h => h.2 (h.1 ▸ hf)
          rw [decide_eq_false hne, Bool.false_or]
          refine Block.bit_wf_other _ _ (by omega) (by omega) (Or.inl ?_)
          rw [e, e8]
          omega
        · refine Block.rg_wf_other _ _ _ _ ?_
          rw [e8]
          omega
      · rw [if_pos (by simp [hf])]
        refine ⟨fun u => ?_, fun a ha => ?_, by simp⟩
        · by_cases hu : u = x
          · subst hu
            rw [Block.bit_wb_same _ _ _ (by omega), decide_eq_true ⟨rfl, hf⟩]
            rfl
          · rw [decide_eq_false fun h => hu h.1, Bool.false_or]
            refine Block.bit_wb_other _ _ (by omega) (Or.inl ?_)
            rw [e, e]
            omega
        · refine Block.rg_wb_other _ _ _ ?_
          rw [e]
          omega
    obtain ⟨g1, g2, g3⟩ := hone
    have hstep : (s.each (x :: l) fun s u => s.analyseUnit (!failed.contains u) u) =
      (s.analyseUnit (!failed.contains x) x).each l fun s u => s.analyseUnit (!failed.contains u) u := rfl
    rw [hstep]
    refine ⟨fun u hu => ?_, fun a ha => (h2 a ha).trans (g2 a ha), ?_⟩
    · rw [h1 u hu, g1 u, ← Bool.or_assoc]
      congr 1
      rw [Bool.eq_iff_iff]
      simp only [Bool.or_eq_true, decide_eq_true_eq, List.mem_cons]
      tauto
    · exact (congrArg (fun b : Block => { b with regs := s.regs }) h3 :).trans g3

/-- The numbers of a compute stack's units. -/
def stackUnits (n : Nat) : List Nat := (List.range 256).map (256 * stackIndex n + ·)

theorem mem_stackUnits {n u : Nat} (hn : n < 24) (hc : n % 6 < 4) : u ∈ stackUnits n ↔ u < 4096 ∧ unitStack u = n := by
  have e : unitStack u = u / 256 / 4 * 6 + u / 256 % 4 := rfl
  have e' : stackIndex n = n / 6 * 4 + n % 6 := rfl
  simp only [stackUnits, List.mem_map, List.mem_range]
  rw [e, e']
  constructor
  · rintro ⟨k, hk, rfl⟩
    omega
  · rintro ⟨hu, h⟩
    exact ⟨u % 256, by omega, by omega⟩

/-- What the training of one stack leaves. -/
structure Block.stackReady (t s : Block) (failed : List Nat) (n : Nat) : Prop where
  stack : ∀ m, m < 24 → t.bit (STK_STATE m) 16 = (decide (m = n) || s.bit (STK_STATE m) 16)
  units : ∀ u, u < 4096 → t.bit (FIRN_ID u) 12 = (decide (unitStack u = n ∧ u ∉ failed) || s.bit (FIRN_ID u) 12)
  regs : ∀ a, ¬stackReg a → t.rg a = s.rg a
  rest : { t with regs := s.regs, led := s.led, ice := s.ice } = s
  stored : t.ice.stored = s.ice.stored

/-- A stack marked as trained. -/
def Block.stackMarked (s : Block) (n : Nat) : Block := (s.wb (STK_STATE n) 16 true).wf (ERR_STK_ROWS n) 31 16 32

theorem Block.stackMarked_spec (s : Block) {n : Nat} (hn : n < 24) :
    (∀ m, m < 24 → (s.stackMarked n).bit (STK_STATE m) 16 = (decide (m = n) || s.bit (STK_STATE m) 16)) ∧
    (∀ a, 0x04000000 ≤ a ∨ ¬stackReg a → (s.stackMarked n).rg a = s.rg a) ∧ { s.stackMarked n with regs := s.regs } = s := by
  have e : ∀ m, STK_STATE m = 0x02000000 + m * 0x10000 + 4 := fun _ => rfl
  have er : ERR_STK_ROWS n = 0x00700200 + 4 * n := rfl
  refine ⟨fun m hm => ?_, fun a ha => ?_, by simp [Block.stackMarked]⟩
  · refine (Block.bit_wf_other _ _ (by omega) (by omega) (Or.inl (by rw [e, er]; omega))).trans ?_
    by_cases h : m = n
    · subst h
      rw [Block.bit_wb_same _ _ _ (by omega), decide_eq_true rfl]
      rfl
    · rw [decide_eq_false h, Bool.false_or]
      refine Block.bit_wb_other _ _ (by omega) (Or.inl ?_)
      rw [e, e]
      omega
  · unfold stackReg at ha
    have h1 : a ≠ ERR_STK_ROWS n := by omega
    have h2 : a ≠ STK_STATE n := by
      rw [e]
      omega
    exact (Block.rg_wf_other _ _ _ _ h1).trans (Block.rg_wb_other _ _ _ h2)

theorem unitStack_compute (u : Nat) : unitStack u % 6 < 4 := by
  have e : unitStack u = u / 256 / 4 * 6 + u / 256 % 4 := rfl
  omega

theorem Block.stackTrains_eq (s : Block) (failed : List Nat) (n : Nat) :
    s.stackTrains failed n = if isCapacity n then s.stackMarked n else
      (((s.stackMarked n).each (stackUnits n) fun s u => s.analyseUnit (!failed.contains u) u).wf (STK_ID n) 24 16
        ((stackUnits n).filter fun u => !failed.contains u).length).ledRenew (0xA0 + stackIndex n)
        (8 * ((stackUnits n).filter fun u => !failed.contains u).length) := rfl

theorem Block.rg_ledRenew (s : Block) (n t a : Nat) : (s.ledRenew n t).rg a = s.rg a := rfl

theorem Block.stackTrains_trained (s : Block) (failed : List Nat) {n : Nat} (hn : n < 24) :
    (s.stackTrains failed n).stackReady s failed n := by
  have ef : ∀ u, FIRN_ID u = 0x04000000 + u * 0x1000 := fun _ => rfl
  have es : ∀ m, STK_STATE m = 0x02000000 + m * 0x10000 + 4 := fun _ => rfl
  have ei : STK_ID n = 0x02000000 + n * 0x10000 + 0 := rfl
  rw [Block.stackTrains_eq]
  obtain ⟨m1, m2, m3⟩ := s.stackMarked_spec hn
  obtain ⟨b, hb⟩ : ∃ b, b = s.stackMarked n := ⟨_, rfl⟩
  rw [← hb] at m1 m2 m3 ⊢
  have hfirn : ∀ u, b.bit (FIRN_ID u) 12 = s.bit (FIRN_ID u) 12 := fun u =>
    congrArg (fun w : Word => w.bit 12) (m2 (FIRN_ID u) (Or.inl (by rw [ef]; omega)))
  split
  next hcap =>
    have hn4 : 4 ≤ n % 6 := of_decide_eq_true hcap
    refine ⟨m1, fun u _ => ?_, fun a ha => m2 a (Or.inr ha), (congrArg (fun b : Block => { b with led := s.led, ice := s.ice }) m3 :),
      (congrArg (fun b : Block => b.ice.stored) m3 :)⟩
    have := unitStack_compute u
    rw [hfirn, decide_eq_false fun h => by omega]
    rfl
  next hcap =>
    have hn4 : n % 6 < 4 := by
      have : ¬4 ≤ n % 6 := fun h => hcap (decide_eq_true h)
      omega
    obtain ⟨a1, a2, a3⟩ := b.analyseUnits_spec failed (stackUnits n) fun u hu => ((mem_stackUnits hn hn4).mp hu).1
    obtain ⟨c, hc⟩ : ∃ c, c = b.each (stackUnits n) fun s u => s.analyseUnit (!failed.contains u) u := ⟨_, rfl⟩
    rw [← hc] at a1 a2 a3 ⊢
    obtain ⟨k, hk⟩ : ∃ k, k = ((stackUnits n).filter fun u => !failed.contains u).length := ⟨_, rfl⟩
    rw [← hk]
    have hg : ∀ a, a ≠ STK_ID n → ((c.wf (STK_ID n) 24 16 k).ledRenew (0xA0 + stackIndex n) (8 * k)).rg a = c.rg a :=
      fun a ha => (Block.rg_ledRenew ..).trans (Block.rg_wf_other c _ _ _ ha)
    refine ⟨fun m hm => ?_, fun u hu => ?_, fun a ha => ?_, ?_, ?_⟩
    · refine (congrArg (fun w : Word => w.bit 16) ((hg (STK_STATE m) (by rw [es, ei]; omega)).trans (a2 _ (by rw [es]; omega)))).trans ?_
      exact m1 m hm
    · refine (congrArg (fun w : Word => w.bit 12) (hg (FIRN_ID u) (by rw [ef, ei]; omega))).trans ?_
      refine (a1 u hu).trans ?_
      rw [hfirn]
      congr 2
      exact propext ⟨fun h => ⟨((mem_stackUnits hn hn4).mp h.1).2, h.2⟩, fun h => ⟨(mem_stackUnits hn hn4).mpr ⟨hu, h.1⟩, h.2⟩⟩
    · have hlt : a < 0x00700000 := by
        unfold stackReg at ha
        omega
      exact (hg a (by omega)).trans ((a2 a (by omega)).trans (m2 a (Or.inr ha)))
    · have h1 : { (c.wf (STK_ID n) 24 16 k).ledRenew (0xA0 + stackIndex n) (8 * k) with regs := s.regs, led := s.led, ice := s.ice } =
          { c with regs := s.regs, led := s.led, ice := s.ice } := by simp [Block.ledRenew]
      refine h1.trans ((congrArg (fun b : Block => { b with regs := s.regs, led := s.led, ice := s.ice }) a3 :).trans ?_)
      exact (congrArg (fun b : Block => { b with led := s.led, ice := s.ice }) m3 :)
    · have h1 : ((c.wf (STK_ID n) 24 16 k).ledRenew (0xA0 + stackIndex n) (8 * k)).ice = c.ice := by simp [Block.ledRenew]
      rw [h1]
      exact (congrArg (fun b : Block => b.ice.stored) a3 :).trans (congrArg (fun b : Block => b.ice.stored) m3 :)

/-- What the training of the first stacks leaves. -/
structure Block.stacksReady (t s : Block) (bad failed : List Nat) (k : Nat) : Prop where
  stack : ∀ n, n < 24 → t.bit (STK_STATE n) 16 = (decide (n < k ∧ n ∉ bad) || s.bit (STK_STATE n) 16)
  units : ∀ u, u < 4096 → t.bit (FIRN_ID u) 12 =
    (decide (unitStack u < k ∧ unitStack u ∉ bad ∧ u ∉ failed) || s.bit (FIRN_ID u) 12)
  regs : ∀ a, ¬stackReg a → t.rg a = s.rg a
  rest : { t with regs := s.regs, led := s.led, ice := s.ice } = s
  stored : t.ice.stored = s.ice.stored

/-- One stack trains, or is reported. -/
def Block.stackTurn (bad failed : List Nat) (n : Nat) (s : Block) : Block :=
  if bad.contains n then s.event srcMoraine 0x0104 [w32 n] else s.stackTrains failed n

theorem Block.stackTurn_ready (s : Block) (bad failed : List Nat) {n : Nat} (hn : n < 24) :
    (∀ m, m < 24 → (s.stackTurn bad failed n).bit (STK_STATE m) 16 = (decide (m = n ∧ n ∉ bad) || s.bit (STK_STATE m) 16)) ∧
    (∀ u, u < 4096 → (s.stackTurn bad failed n).bit (FIRN_ID u) 12 =
      (decide (unitStack u = n ∧ n ∉ bad ∧ u ∉ failed) || s.bit (FIRN_ID u) 12)) ∧
    (∀ a, ¬stackReg a → (s.stackTurn bad failed n).rg a = s.rg a) ∧
    { s.stackTurn bad failed n with regs := s.regs, led := s.led, ice := s.ice } = s ∧
    (s.stackTurn bad failed n).ice.stored = s.ice.stored := by
  unfold Block.stackTurn
  by_cases hb : n ∈ bad
  · rw [if_pos (by simpa using hb)]
    refine ⟨fun m _ => ?_, fun u _ => ?_, fun a ha => Block.rg_event _ _ _ _ fun h => ha (Or.inl h), by simp, by simp⟩
    · rw [decide_eq_false fun h => h.2 hb, Bool.false_or]
      refine congrArg (fun w : Word => w.bit 16) (Block.rg_event _ _ _ _ ?_)
      have e : STK_STATE m = 0x02000000 + m * 0x10000 + 4 := rfl
      have e1 : ICE_DROPPED = 0x0040001C := rfl
      omega
    · rw [decide_eq_false fun h => h.2.1 hb, Bool.false_or]
      refine congrArg (fun w : Word => w.bit 12) (Block.rg_event _ _ _ _ ?_)
      have e : FIRN_ID u = 0x04000000 + u * 0x1000 := rfl
      have e1 : ICE_DROPPED = 0x0040001C := rfl
      omega
  · rw [if_neg (by simpa using hb)]
    obtain ⟨h1, h2, h3, h4, h5⟩ := s.stackTrains_trained failed hn
    refine ⟨fun m hm => ?_, fun u hu => ?_, h3, h4, h5⟩
    · simpa [hb] using h1 m hm
    · simpa [hb] using h2 u hu

/-- The stacks, one after another. -/
def Block.stackTurns (s : Block) (bad failed : List Nat) (k : Nat) : Block := loop k (Block.stackTurn bad failed) s

theorem Block.stackTurns_ready (s : Block) (bad failed : List Nat) {k : Nat} (hk : k ≤ 24) :
    (s.stackTurns bad failed k).stacksReady s bad failed k := by
  induction k with
  | zero => exact ⟨fun n _ => by simp [Block.stackTurns, loop], fun u _ => by simp [Block.stackTurns, loop], fun _ _ => rfl, rfl, rfl⟩
  | succ k ih =>
    obtain ⟨h1, h2, h3, h4, h5⟩ := ih (by omega)
    obtain ⟨g1, g2, g3, g4, g5⟩ := (s.stackTurns bad failed k).stackTurn_ready bad failed (n := k) (by omega)
    have hstep : s.stackTurns bad failed (k + 1) = (s.stackTurns bad failed k).stackTurn bad failed k := rfl
    rw [hstep]
    refine ⟨fun n hn => ?_, fun u hu => ?_, fun a ha => (g3 a ha).trans (h3 a ha), ?_, g5.trans h5⟩
    · rw [g1 n hn, h1 n hn, ← Bool.or_assoc]
      congr 1
      rw [Bool.eq_iff_iff]
      simp only [Bool.or_eq_true, decide_eq_true_eq, Nat.lt_succ_iff_lt_or_eq]
      constructor
      · rintro (⟨rfl, h⟩ | ⟨h, h'⟩)
        · exact ⟨Or.inr rfl, h⟩
        · exact ⟨Or.inl h, h'⟩
      · rintro ⟨h | rfl, h'⟩
        · exact Or.inr ⟨h, h'⟩
        · exact Or.inl ⟨rfl, h'⟩
    · rw [g2 u hu, h2 u hu, ← Bool.or_assoc]
      congr 1
      rw [Bool.eq_iff_iff]
      simp only [Bool.or_eq_true, decide_eq_true_eq, Nat.lt_succ_iff_lt_or_eq]
      constructor
      · rintro (⟨rfl, h⟩ | ⟨h, h'⟩)
        · exact ⟨Or.inr rfl, h⟩
        · exact ⟨Or.inl h, h'⟩
      · rintro ⟨h | h, h'⟩
        · exact Or.inr ⟨h, h'⟩
        · exact Or.inl ⟨h, h ▸ h'⟩
    · exact (congrArg (fun b : Block => { b with regs := s.regs, led := s.led, ice := s.ice }) g4 :).trans h4

theorem unitStack_lt {u : Nat} (h : u < 4096) : unitStack u < 24 := by
  have e : unitStack u = u / 256 / 4 * 6 + u / 256 % 4 := rfl
  omega

/-- A block whose stacks have trained. -/
def Block.stacksOn (s : Block) : Block := { s with start := { s.start with stacksDone := true } }

theorem stackTrainingEffect_eq (bad failed : List Nat) (s : Block) :
    stackTrainingEffect bad failed s = (s.stackTurns bad failed 24).stacksOn.goAwait := rfl

theorem stackTrainingDone_spec (s : State) (bad failed : List Nat) (h6 : s.blk.phase = 6) (hd : s.blk.start.stacksDone = false) :
    ∃ t : State, exec (.stackTrainingDone bad failed) s = .next t ∧ t.pending = s.pending ∧ t.blk.start.stacksDone = true ∧
      t.blk.phase = (if s.blk.start.linkUp ∨ s.blk.internal then 7 else 6) ∧
      (∀ n, n < 24 → n ∉ bad → t.blk.bit (STK_STATE n) 16 = true) ∧
      (∀ n, n < 24 → n ∈ bad → t.blk.bit (STK_STATE n) 16 = s.blk.bit (STK_STATE n) 16) ∧
      (∀ u, u < 4096 → unitStack u ∉ bad → u ∉ failed → t.blk.bit (FIRN_ID u) 12 = true) ∧
      (∀ u, u < 4096 → (unitStack u ∈ bad ∨ u ∈ failed) → t.blk.bit (FIRN_ID u) 12 = s.blk.bit (FIRN_ID u) 12) ∧
      { t.blk with regs := s.blk.regs, start := s.blk.start, led := s.blk.led, ice := s.blk.ice } = s.blk := by
  have hx : exec (.stackTrainingDone bad failed) s = onBlk (effStackTrainingDone bad failed) s := rfl
  have he : effStackTrainingDone bad failed s.blk = (s.blk.stackTurns bad failed 24).stacksOn.goAwait :=
    (if_pos ⟨h6, by simp [hd]⟩).trans (stackTrainingEffect_eq ..)
  obtain ⟨h1, h2, h3, h4, h5⟩ := s.blk.stackTurns_ready bad failed (k := 24) (Nat.le_refl _)
  obtain ⟨b, hb⟩ : ∃ b, b = s.blk.stackTurns bad failed 24 := ⟨_, rfl⟩
  rw [← hb] at he h1 h2 h3 h4 h5
  have hga := b.stacksOn.goAwait_phase
  have hgf := b.stacksOn.goAwait_frame
  have hgr := fun a => b.stacksOn.rg_goAwait (a := a)
  have hon : ∀ a, b.stacksOn.rg a = b.rg a := fun _ => rfl
  have hbs : b.start = s.blk.start := (congrArg Block.start h4 :)
  have hcs : b.stacksOn.start = { s.blk.start with stacksDone := true } := (congrArg (fun x : Start => { x with stacksDone := true }) hbs :)
  obtain ⟨c, hc⟩ : ∃ c, c = b.stacksOn := ⟨_, rfl⟩
  have hcb : { c with start := b.start } = b := by
    rw [hc]
    rfl
  rw [← hc] at he hga hgf hgr hon hcs
  obtain ⟨d, hdd⟩ : ∃ d, d = c.goAwait := ⟨_, rfl⟩
  rw [← hdd] at he hga hgf hgr
  have hlow : ∀ a, a < 0x1000 → ¬stackReg a := by
    intro a ha
    have e1 : ICE_DROPPED = 0x0040001C := rfl
    unfold stackReg
    omega
  have hcp : c.phase = 6 := (congrArg (fun w : Word => w.fld 3 0) ((hon MOR_START).trans (h3 _ (hlow _ (by decide))))).trans h6
  have hci : c.internal = s.blk.internal := Block.internal_congr ((hon _).trans (h3 _ (hlow _ (by decide))))
  have hdf : { d with regs := s.blk.regs, start := s.blk.start, led := s.blk.led, ice := s.blk.ice } = s.blk := by
    refine (congrArg (fun x : Block => { x with regs := s.blk.regs, start := s.blk.start, led := s.blk.led, ice := s.blk.ice }) hgf :).trans ?_
    refine (congrArg (fun x : Block => { x with regs := s.blk.regs, start := s.blk.start, led := s.blk.led, ice := s.blk.ice }) hcb :).trans ?_
    exact (congrArg (fun x : Block => { x with start := s.blk.start }) h4 :)
  have hdi : d.ice.perm = s.blk.ice.perm := by
    have h0 : d.ice = b.ice := (congrArg Block.ice hgf :).trans (congrArg Block.ice hcb :)
    exact (congrArg IceCore.perm h0).trans (congrArg IceCore.perm h5 :)
  have hbig : ∀ a, 0x02000000 ≤ a → d.rg a = b.rg a := by
    intro a ha
    have e1 : MOR_START = 0x100 := rfl
    exact (hgr a (by omega)).trans (hon a)
  have hstk : ∀ n, d.bit (STK_STATE n) 16 = b.bit (STK_STATE n) 16 := fun n =>
    congrArg (fun w : Word => w.bit 16) (hbig _ (by rw [show STK_STATE n = 0x02000000 + n * 0x10000 + 4 from rfl]; omega))
  have hfirn : ∀ u, d.bit (FIRN_ID u) 12 = b.bit (FIRN_ID u) 12 := fun u =>
    congrArg (fun w : Word => w.bit 12) (hbig _ (by rw [show FIRN_ID u = 0x04000000 + u * 0x1000 from rfl]; omega))
  refine ⟨_, hx.trans (onBlk_next_of_eq he (congrArg (fun x : Block => x.trust.fuses) hdf :) hdi), rfl, ?_, ?_, ?_, ?_, ?_, ?_, hdf⟩
  · have h0 : d.start = c.start := (congrArg Block.start hgf :)
    exact (congrArg Start.stacksDone h0).trans (congrArg Start.stacksDone hcs)
  · rw [hga, hcp, hci, hcs]
    simp
  · intro n hn hnb
    rw [hstk, h1 n hn, decide_eq_true ⟨hn, hnb⟩]
    rfl
  · intro n hn hnb
    rw [hstk, h1 n hn, decide_eq_false fun h => h.2 hnb]
    rfl
  · intro u hu hub huf
    rw [hfirn, h2 u hu, decide_eq_true ⟨unitStack_lt hu, hub, huf⟩]
    rfl
  · intro u hu hub
    rw [hfirn, h2 u hu, decide_eq_false fun h => hub.elim h.2.1 h.2.2]
    rfl

/-! ### What is held for the host -/

/-- What delivering to the host changes: its memory, the functions and their ledgers. -/
structure Block.hostKept (t s : Block) : Prop where
  regs : ∀ a, a ≠ ICE_DROPPED → a ≠ LDG_STATUS → t.rg a = s.rg a
  rest : { t with regs := s.regs, fns := s.fns, env := s.env, led := s.led, ice := s.ice, start := s.start } = s
  start : t.start.steady = s.start.steady
  stored : t.ice.stored = s.ice.stored

theorem Block.hostKept.refl (s : Block) : s.hostKept s := ⟨fun _ _ _ => rfl, rfl, rfl, rfl⟩

theorem Block.hostKept.trans {s t u : Block} (h : u.hostKept t) (h' : t.hostKept s) : u.hostKept s := by
  obtain ⟨hg, hr, hs, hi⟩ := h
  obtain ⟨hg', hr', hs', hi'⟩ := h'
  refine ⟨fun a h1 h2 => (hg a h1 h2).trans (hg' a h1 h2), ?_, hs.trans hs', hi.trans hi'⟩
  exact (congrArg (fun b : Block => { b with
    regs := s.regs, fns := s.fns, env := s.env, led := s.led, ice := s.ice, start := s.start }) hr :).trans hr'

theorem Block.hostPut_hostKept (s : Block) (a : Nat) (bs : List Byte) : (s.hostPut a bs).hostKept s := by
  unfold Block.hostPut
  split
  · exact ⟨fun _ _ _ => rfl, rfl, rfl, rfl⟩
  · exact .refl s

theorem Block.modFn_hostKept (s : Block) (f : Nat) (g : Fn → Fn) : (s.modFn f g).hostKept s := ⟨fun _ _ _ => rfl, rfl, rfl, rfl⟩

theorem Block.msix_hostKept (s : Block) (f v : Nat) : (s.msix f v).hostKept s := ⟨fun _ _ _ => rfl, rfl, rfl, rfl⟩

theorem Block.led1_hostKept (s : Block) (n : Nat) (m : LedgerMove) : (s.led1 n m).hostKept s :=
  ⟨fun _ h h' => Block.rg_led1 _ _ _ h h', by simp, by simp, by simp⟩

theorem Block.ringPut_hostKept (s : Block) (f ri : Nat) (ws : List Word) : (s.ringPut f ri ws).hostKept s := by
  unfold Block.ringPut
  split
  · exact .refl s
  · dsimp only
    split
    · exact (Block.msix_hostKept ..).trans ((Block.modFn_hostKept ..).trans (Block.hostPut_hostKept ..))
    · exact (Block.modFn_hostKept ..).trans (Block.hostPut_hostKept ..)

theorem Block.deliver_hostKept (l : List HeldItem) (s : Block) (f : Nat) (kept : List HeldItem) : (s.deliver f l kept).hostKept s := by
  induction l generalizing s kept with
  | nil => exact Block.modFn_hostKept ..
  | cons x l ih =>
    cases x with
    | write a bs => exact (ih ..).trans ((Block.led1_hostKept ..).trans (Block.hostPut_hostKept ..))
    | entry ri ws =>
      unfold Block.deliver
      split
      · exact ih ..
      · split
        · exact (ih ..).trans (Block.ringPut_hostKept ..)
        · exact ih ..

theorem Block.flushHeld_hostKept (s : Block) (f : Nat) : (s.flushHeld f).hostKept s := by
  unfold Block.flushHeld
  split
  · exact .refl s
  · exact Block.deliver_hostKept ..

theorem Block.flushAll_hostKept (l : List Nat) (s : Block) : (s.each l fun s f => s.flushHeld f).hostKept s := by
  induction l generalizing s with
  | nil => exact .refl s
  | cons f l ih => exact (ih (s.flushHeld f)).trans (s.flushHeld_hostKept f)

/-! ### HOST_LINK_TRAINED -/

/-- A block whose host link is up at a rate and width. -/
def Block.linkTrained (s : Block) (rate width : Nat) (flit : Bool) : Block :=
  { s.wr MOR_HOST_LINK (w32 (rate % 8 + width % 32 * 8 + b2n flit * 256)) with start := { s.start with linkUp := true } }

theorem Block.linkTrained_spec (s : Block) (rate width : Nat) (flit : Bool) :
    (s.linkTrained rate width flit).rg MOR_HOST_LINK = w32 (rate % 8 + width % 32 * 8 + b2n flit * 256) ∧
    (s.linkTrained rate width flit).phase = s.phase ∧ (s.linkTrained rate width flit).start = { s.start with linkUp := true } ∧
    { s.linkTrained rate width flit with regs := s.regs, start := s.start } = s := by
  refine ⟨Block.rg_wr_same .., ?_, rfl, rfl⟩
  exact congrArg (fun w : Word => w.fld 3 0) (Block.rg_wr_other s _ (by decide))

theorem hostLinkTrained_spec (s : State) (rate width : Nat) (flit : Bool) (hp : s.blk.start.pllOn = true)
    (hl : s.blk.start.linkUp = false) (hr : s.blk.start.perst = false) :
    ∃ t : State, exec (.hostLinkTrained rate width flit) s = .next t ∧ t.pending = s.pending ∧ t.blk.start.linkUp = true ∧
      t.blk.rg MOR_HOST_LINK = w32 (rate % 8 + width % 32 * 8 + b2n flit * 256) ∧
      t.blk.phase = (if s.blk.phase = 6 ∧ s.blk.start.stacksDone = true then 7 else s.blk.phase) ∧ t.blk.objs = s.blk.objs ∧
      t.blk.jobs = s.blk.jobs ∧ t.blk.parts = s.blk.parts ∧ t.blk.mbx = s.blk.mbx ∧
      (s.blk.fns = [] → { t.blk with regs := s.blk.regs, start := s.blk.start } = s.blk) := by
  have hx : exec (.hostLinkTrained rate width flit) s = onBlk (effHostLinkTrained rate width flit) s := rfl
  have he : effHostLinkTrained rate width flit s.blk =
      (s.blk.linkTrained rate width flit).goAwait.each (keys (s.blk.linkTrained rate width flit).goAwait.fns) fun s f => s.flushHeld f :=
    if_pos (by simp [hp, hl, hr])
  obtain ⟨h1, h2, h3, h4⟩ := s.blk.linkTrained_spec rate width flit
  obtain ⟨b, hb⟩ : ∃ b, b = s.blk.linkTrained rate width flit := ⟨_, rfl⟩
  rw [← hb] at he h1 h2 h3 h4
  have hga := b.goAwait_phase
  have hgf := b.goAwait_frame
  have hgr := b.rg_goAwait (a := MOR_HOST_LINK) (by decide)
  obtain ⟨c, hc⟩ : ∃ c, c = b.goAwait := ⟨_, rfl⟩
  rw [← hc] at he hga hgf hgr
  have hk := Block.flushAll_hostKept (keys c.fns) c
  have hnil : c.fns = [] → c.each (keys c.fns) (fun s f => s.flushHeld f) = c := by
    intro h
    rw [h]
    rfl
  obtain ⟨d, hd⟩ : ∃ d, d = c.each (keys c.fns) fun s f => s.flushHeld f := ⟨_, rfl⟩
  rw [← hd] at he hk hnil
  obtain ⟨kg, kr, ks, ki⟩ := hk
  have hcf : { c with regs := s.blk.regs, start := s.blk.start } = s.blk :=
    (congrArg (fun x : Block => { x with regs := s.blk.regs, start := s.blk.start }) hgf :).trans h4
  have hcs : c.start = { s.blk.start with linkUp := true } := (congrArg Block.start hgf :).trans h3
  refine ⟨_, hx.trans (onBlk_next_of_eq he ?_ ?_), rfl, ?_, ?_, ?_, ?_, ?_, ?_, ?_, ?_⟩
  · exact (congrArg (fun x : Block => x.trust.fuses) kr :).trans (congrArg (fun x : Block => x.trust.fuses) hcf :)
  · exact (congrArg IceCore.perm ki :).trans (congrArg (fun x : Block => x.ice.perm) hcf :)
  · exact (congrArg Start.linkUp ks :).trans (congrArg Start.linkUp hcs)
  · exact (kg _ (by decide) (by decide)).trans (hgr.trans h1)
  · refine (congrArg (fun w : Word => w.fld 3 0) (kg MOR_START (by decide) (by decide))).trans (hga.trans ?_)
    rw [h2, h3]
    simp
  · exact (congrArg Block.objs kr :).trans (congrArg Block.objs hcf :)
  · exact (congrArg Block.jobs kr :).trans (congrArg Block.jobs hcf :)
  · exact (congrArg Block.parts kr :).trans (congrArg Block.parts hcf :)
  · exact (congrArg Block.mbx kr :).trans (congrArg Block.mbx hcf :)
  · intro hf
    have h0 : c.fns = [] := (congrArg Block.fns hcf :).trans hf
    show ({ d with regs := s.blk.regs, start := s.blk.start } : Block) = s.blk
    rw [hnil h0]
    exact hcf

/-- Settles O46: the ports train one after another (`trainPorts_trained`), then the stacks (`stackTurns_ready`), and the link's coming
up delivers what is held for the host (`flushAll_hostKept`). -/
theorem startSteps : Obligations.StartSteps := by
  refine ⟨settleExpiry_spec, ?noSettle, stackTrainingDone_spec, ?noStacks, hostLinkTrained_spec, ?noLink⟩
  case noSettle =>
    intro s h
    refine onBlk_idle (f := effSettleExpiry) (if_neg ?_)
    rw [Bool.and_eq_true, Bool.and_eq_true, beq_iff_eq, Bool.not_eq_true']
    rintro ⟨⟨h1, h2⟩, h3⟩
    rcases h with h | h | h
    · rw [h] at h1
      cases h1
    · exact h h2
    · rw [h] at h3
      cases h3
  case noStacks =>
    intro s bad failed h
    refine onBlk_idle (f := effStackTrainingDone bad failed) (if_neg ?_)
    rintro ⟨h1, h2⟩
    rcases h with h | h
    · exact h h1
    · rw [h] at h2
      cases h2
  case noLink =>
    intro s rate width flit h
    refine onBlk_idle (f := effHostLinkTrained rate width flit) (if_neg ?_)
    rw [Bool.and_eq_true, Bool.and_eq_true, Bool.not_eq_true', Bool.not_eq_true']
    rintro ⟨⟨h1, h2⟩, h3⟩
    rcases h with h | h | h
    · rw [h] at h1
      cases h1
    · rw [h] at h2
      cases h2
    · rw [h] at h3
      cases h3

end Sys2Proof.Machine
end

section
/-! Channel groups, Firn sets and tiles started, stopped and remapped (R145, R167 to R170, R425 to R429). -/

namespace Sys2Proof.Machine

/-! ### Answers that change registers -/

/-- A message whose handling changes registers apart from the mailboxes, and what carries a message. -/
theorem exec_mailAnswer {s : State} {ch : Chan} {type : Nat} {h : Block → List Word → Answer} {a : Answer}
    (hd : s.blk.delivers ch type) (hb : s.blk.backFree ch) (ha : h (s.blk.msgTaken ch) (s.blk.msgWords ch) = a)
    (hr : a.blk.rg (chBack ch + 0x44) = (s.blk.msgTaken ch).rg (chBack ch + 0x44)) (hm : a.blk.mbx = (s.blk.msgTaken ch).mbx)
    (hk : a.blk.mailBack s.blk = s.blk) (hp : a.blk.ice.perm = s.blk.ice.perm) :
    ∃ t : State, onBlk (fun b => b.message ch type h) s = .next t ∧ t.pending = s.pending ∧ t.blk.repliedTo s.blk ch a.status ∧
      (∀ i, i + 2 < 16 → t.blk.rg (chBack ch + 4 * (i + 2)) = a.regs.getD i 0) ∧ t.blk.mailBack s.blk = s.blk ∧
      ∀ r, offMail r → r ≠ ICE_DROPPED → r ≠ LDG_STATUS → t.blk.rg r = a.blk.rg r := by
  obtain ⟨t, hx, hpend, hrep, hregs, ht⟩ := exec_answer hd hb ha hr hm (congrArg (fun b : Block => b.trust.fuses) hk :) hp
  refine ⟨t, hx, hpend, hrep, hregs, ?_, fun r h0 h1 h2 => ?_⟩
  · rw [ht, Block.mailBack_reply]
    exact hk
  · rw [ht]
    exact Block.rg_reply_offMail _ _ _ h0 h1 h2

/-- What a change of registers, of ledgers and of the ice core's queues keeps. -/
structure Block.regKept (t s : Block) : Prop where
  rest : { t with regs := s.regs, led := s.led, ice := s.ice, start := s.start } = s
  stored : t.ice.stored = s.ice.stored

theorem Block.regKept.refl (s : Block) : s.regKept s := ⟨rfl, rfl⟩

theorem Block.regKept.trans {s t u : Block} (h : u.regKept t) (h' : t.regKept s) : u.regKept s :=
  ⟨(congrArg (fun b : Block => { b with regs := s.regs, led := s.led, ice := s.ice, start := s.start }) h.rest :).trans h'.rest,
    h.stored.trans h'.stored⟩

theorem Block.wr_regKept (s : Block) (a : Nat) (v : Word) : (s.wr a v).regKept s := ⟨rfl, rfl⟩
theorem Block.wf_regKept (s : Block) (a hi lo v : Nat) : (s.wf a hi lo v).regKept s := ⟨rfl, rfl⟩
theorem Block.bump_regKept (s : Block) (a n : Nat) : (s.bump a n).regKept s := ⟨rfl, rfl⟩
theorem Block.led1_regKept (s : Block) (n : Nat) (m : LedgerMove) : (s.led1 n m).regKept s := ⟨by simp, by simp⟩
theorem Block.event_regKept (s : Block) (src ev : Nat) (d : List Word) : (s.event src ev d).regKept s := ⟨by simp, by simp⟩

/-- An answer from a block of which handling changed registers and ledgers only. -/
theorem exec_regAnswer {s : State} {ch : Chan} {type st : Nat} {h : Block → List Word → Answer} {regs : List Word} {b : Block}
    (hd : s.blk.delivers ch type) (hb : s.blk.backFree ch)
    (ha : h (s.blk.msgTaken ch) (s.blk.msgWords ch) = { status := st, regs := regs, blk := b })
    (hr : b.rg (chBack ch + 0x44) = (s.blk.msgTaken ch).rg (chBack ch + 0x44))
    (hk : b.regKept (s.blk.msgTaken ch)) :
    ∃ t : State, onBlk (fun b => b.message ch type h) s = .next t ∧ t.pending = s.pending ∧ t.blk.repliedTo s.blk ch st ∧
      (∀ i, i + 2 < 16 → t.blk.rg (chBack ch + 4 * (i + 2)) = regs.getD i 0) ∧ t.blk.mailBack s.blk = s.blk ∧
      ∀ r, offMail r → r ≠ ICE_DROPPED → r ≠ LDG_STATUS → t.blk.rg r = b.rg r := by
  refine exec_mailAnswer hd hb ha hr (congrArg Block.mbx hk.rest :) ?_
    ((congrArg IceCore.perm hk.stored :).trans (congrArg IceCore.perm (s.blk.msgTaken_stored ch) :))
  exact (congrArg (fun b : Block => b.mailBack s.blk) hk.rest :).trans (Block.mailBack_msgTaken ..)

/-! ### The state of a function -/

theorem Block.fnState_congr {s t : Block} (h : ∀ a, offMail a → a ≠ ICE_DROPPED → a ≠ LDG_STATUS → t.rg a = s.rg a) (k i : Nat) :
    t.fnState k i = s.fnState k i := by
  have e1 : ICE_DROPPED = 0x0040001C := rfl
  have e2 : LDG_STATUS = 0x00500000 := rfl
  have hst : ∀ n a, n < 24 → a < 0x10000 → t.rg (STK n a) = s.rg (STK n a) := by
    intro n a hn ha
    have e : STK n a = 0x02000000 + n * 0x10000 + a := rfl
    refine h _ ?_ ?_ ?_ <;> omega
  have hesk : ∀ p a, p < 16 → a < 0x80000 → t.rg (ESK p a) = s.rg (ESK p a) := by
    intro p a hp ha
    have e : ESK p a = 0x00800000 + p * 0x80000 + a := rfl
    refine h _ ?_ ?_ ?_ <;> omega
  have hport : i < 16 → t.portState i = s.portState i := fun hi => congrArg (fun w : Word => w.fld 1 0) (hesk i 0 hi (by omega))
  have hpe : i < 16 → t.fld (ESK_EPOCH i) 15 0 = s.fld (ESK_EPOCH i) 15 0 := fun hi =>
    congrArg (fun w : Word => w.fld 15 0) (hesk i 0x30 hi (by omega))
  have hpart : i < 32 → t.fld (SCH_P_STATE i) 1 0 = s.fld (SCH_P_STATE i) 1 0 := by
    intro hi
    have e : SCH_P_STATE i = 0x06010000 + i * 0x100 + 4 := rfl
    refine congrArg (fun w : Word => w.fld 1 0) (h _ ?_ ?_ ?_) <;> omega
  have hset : i < 128 → t.setState i = s.setState i := fun hi =>
    congrArg (fun w : Word => w.fld (2 * (i % 8) + 1) (2 * (i % 8))) (hst (setStack i) 0x60
      (by show i / 8 / 4 * 6 + i / 8 % 4 < 24; omega) (by omega))
  have hcg : i < 192 → t.cgState (i / 8) (i % 8) = s.cgState (i / 8) (i % 8) := fun hi =>
    congrArg (fun w : Word => w.fld (2 * (i % 8) + 1) (2 * (i % 8))) (hst (i / 8) 4 (by omega) (by omega))
  have hep : i < 192 → t.groupEpoch (i / 8) (i % 8) = s.groupEpoch (i / 8) (i % 8) := fun hi =>
    congrArg (fun w : Word => w.fld (16 * (i % 8 % 2) + 15) (16 * (i % 8 % 2)))
      (hst (i / 8) (0x70 + 4 * (i % 8 / 2)) (by omega) (by omega))
  unfold Block.fnState
  by_cases k0 : k = 0
  · rw [if_pos k0, if_pos k0]
    split
    next hi => rw [hport hi, hpe hi]
    next => rfl
  · rw [if_neg k0, if_neg k0]
    by_cases k1 : k = 1
    · rw [if_pos k1, if_pos k1]
      split
      next hi => rw [hpart hi]
      next => rfl
    · rw [if_neg k1, if_neg k1]
      by_cases k2 : k = 2
      · rw [if_pos k2, if_pos k2]
        split
        next hi => rw [hset hi]
        next => rfl
      · rw [if_neg k2, if_neg k2]
        split
        next hi => rw [hcg hi, hep hi]
        next => rfl

theorem Block.fnState_msgTaken (s : Block) (ch : Chan) (k i : Nat) : (s.msgTaken ch).fnState k i = s.fnState k i :=
  Block.fnState_congr (fun _ h h1 h2 => s.rg_msgTaken_offMail ch h h1 h2) k i

/-! ### The gate of FN_CTRL -/

/-- The answer of FN_CTRL whose operation is `act`. -/
def fnCtrlAnswer (act : Block → Nat → Nat → Nat × Block) (ch : Chan) (s : Block) (ws : List Word) : Answer :=
  let kind := (mreg ws 1).fld 1 0
  let i := (mreg ws 1).fld 15 8
  let ep := (mreg ws 2).fld 15 0
  if chFn ch ≠ 0 ∧ chFn ch ≠ 64 then s.no (DENIED 0xF7)
  else match s.fnState kind i with
    | none => s.no badFunction
    | some (_, e) =>
      if (kind = 0 ∨ kind = 3) ∧ ep ≠ 0 ∧ ep ≠ e then s.no STALE_EPOCH
      else
        let r := act s kind i
        let x := (r.2.fnState kind i).getD (0, 0)
        { status := r.1, regs := [w32 x.1, w32 x.2], blk := r.2 }

/-- The answer of a query. -/
def fnQueryAnswer (ch : Chan) (s : Block) (ws : List Word) : Answer :=
  let kind := (mreg ws 1).fld 1 0
  let i := (mreg ws 1).fld 15 8
  let ep := (mreg ws 2).fld 15 0
  if chFn ch ≠ 0 ∧ chFn ch ≠ 64 then s.no (DENIED 0xF7)
  else if (mreg ws 1).fld 17 16 = 3 then s.no badFunction
  else match s.fnState kind i with
    | none => s.no badFunction
    | some (st, e) =>
      if (kind = 0 ∨ kind = 3) ∧ ep ≠ 0 ∧ ep ≠ e then s.no STALE_EPOCH else s.yes [w32 st, w32 e]

/-- What a start does to a function of a kind. -/
def startAct (s : Block) (kind i : Nat) : Nat × Block :=
  if kind = 0 then s.startPort i else if kind = 1 then (badFunction, s) else if kind = 2 then s.startSet i
  else s.startGroup (i / 8) (i % 8)

/-- What a stop does to a function of a kind. -/
def stopAct (s : Block) (kind i : Nat) : Nat × Block :=
  if kind = 0 then (OK, s.stopPort i) else if kind = 1 then (badFunction, s) else if kind = 2 then s.stopSet i
  else s.stopGroup (i / 8) (i % 8)

/-- Each operation of FN_CTRL is a message of its own. -/
theorem exec_fnCtrl {s : State} {ch : Chan} {c : Instr} {op : Nat} (hop : op = (mreg (s.blk.msgWords ch) 1).fld 17 16)
    (hc : op = 0 ∧ c = .fnCtrlQuery ch ∨ op = 1 ∧ c = .fnCtrlStart ch ∨ op = 2 ∧ c = .fnCtrlStop ch) :
    ∃ h, exec c s = onBlk (fun b => b.message ch 0x0101 h) s ∧
      (op = 0 ∧ h = fnQueryAnswer ch ∨ op = 1 ∧ h = fnCtrlAnswer startAct ch ∨ op = 2 ∧ h = fnCtrlAnswer stopAct ch) := by
  rcases hc with ⟨h0, rfl⟩ | ⟨h1, rfl⟩ | ⟨h2, rfl⟩
  · refine ⟨fnQueryAnswer ch, ?_, Or.inl ⟨h0, rfl⟩⟩
    have hi : exec (.fnCtrlQuery ch) s = onBlk (fun b => b.messageWhen ch 0x0101
      (fun ws => (mreg ws 1).fld 17 16 == 0 || (mreg ws 1).fld 17 16 == 3) (fnQueryAnswer ch)) s := rfl
    exact hi.trans (onBlk_messageWhen _ _ (by simp [← hop, h0]))
  · refine ⟨fnCtrlAnswer startAct ch, ?_, Or.inr (Or.inl ⟨h1, rfl⟩)⟩
    have hi : exec (.fnCtrlStart ch) s = onBlk (fun b => b.messageWhen ch 0x0101
      (fun ws => [1].contains ((mreg ws 1).fld 17 16)) (fnCtrlAnswer startAct ch)) s := rfl
    exact hi.trans (onBlk_messageWhen _ _ (by simp [← hop, h1]))
  · refine ⟨fnCtrlAnswer stopAct ch, ?_, Or.inr (Or.inr ⟨h2, rfl⟩)⟩
    have hi : exec (.fnCtrlStop ch) s = onBlk (fun b => b.messageWhen ch 0x0101
      (fun ws => [2].contains ((mreg ws 1).fld 17 16)) (fnCtrlAnswer stopAct ch)) s := rfl
    exact hi.trans (onBlk_messageWhen _ _ (by simp [← hop, h2]))

theorem fnCtrl_denied (s : State) (ch : Chan) (c : Instr) (op : Nat) (hd : s.blk.delivers ch 0x0101) (hb : s.blk.backFree ch)
    (h0 : chFn ch ≠ 0) (h64 : chFn ch ≠ 64) (hop : op = (mreg (s.blk.msgWords ch) 1).fld 17 16)
    (hc : op = 0 ∧ c = .fnCtrlQuery ch ∨ op = 1 ∧ c = .fnCtrlStart ch ∨ op = 2 ∧ c = .fnCtrlStop ch) :
    ∃ t : State, exec c s = .next t ∧ t.pending = s.pending ∧ t.blk.repliedTo s.blk ch (DENIED 0xF7) ∧ t.blk.mailBack s.blk = s.blk := by
  obtain ⟨h, hx, hh⟩ := exec_fnCtrl hop hc
  have ha : h (s.blk.msgTaken ch) (s.blk.msgWords ch) = (s.blk.msgTaken ch).no (DENIED 0xF7) := by
    rcases hh with ⟨-, rfl⟩ | ⟨-, rfl⟩ | ⟨-, rfl⟩
    · exact if_pos ⟨h0, h64⟩
    · exact if_pos ⟨h0, h64⟩
    · exact if_pos ⟨h0, h64⟩
  obtain ⟨t, hx', hp, hr, -, hm, -⟩ := exec_told hd hb ha
  exact ⟨t, hx.trans hx', hp, hr, hm⟩

theorem fnCtrl_none (s : State) (ch : Chan) (c : Instr) (op : Nat) (hd : s.blk.delivers ch 0x0101) (hb : s.blk.backFree ch)
    (hf : chFn ch = 0 ∨ chFn ch = 64) (hop : op = (mreg (s.blk.msgWords ch) 1).fld 17 16)
    (hc : op = 0 ∧ c = .fnCtrlQuery ch ∨ op = 1 ∧ c = .fnCtrlStart ch ∨ op = 2 ∧ c = .fnCtrlStop ch)
    (hn : s.blk.fnState ((mreg (s.blk.msgWords ch) 1).fld 1 0) ((mreg (s.blk.msgWords ch) 1).fld 15 8) = none) :
    ∃ t : State, exec c s = .next t ∧ t.pending = s.pending ∧ t.blk.repliedTo s.blk ch (REFUSED 0xF3) ∧ t.blk.mailBack s.blk = s.blk := by
  obtain ⟨h, hx, hh⟩ := exec_fnCtrl hop hc
  have hf' : ¬(chFn ch ≠ 0 ∧ chFn ch ≠ 64) := fun h => hf.elim h.1 h.2
  have ha : h (s.blk.msgTaken ch) (s.blk.msgWords ch) = (s.blk.msgTaken ch).no badFunction := by
    rcases hh with ⟨h0, rfl⟩ | ⟨-, rfl⟩ | ⟨-, rfl⟩
    · simp [fnQueryAnswer, hf', ← hop, h0, Block.fnState_msgTaken, hn]
    · simp [fnCtrlAnswer, hf', Block.fnState_msgTaken, hn]
    · simp [fnCtrlAnswer, hf', Block.fnState_msgTaken, hn]
  obtain ⟨t, hx', hp, hr, -, hm, -⟩ := exec_told hd hb ha
  exact ⟨t, hx.trans hx', hp, hr, hm⟩

theorem fnCtrlQuery_spec (s : State) (ch : Chan) (k i : Nat) (x : Nat × Nat) (hd : s.blk.delivers ch 0x0101) (hb : s.blk.backFree ch)
    (hf : chFn ch = 0 ∨ chFn ch = 64) (hop : (mreg (s.blk.msgWords ch) 1).fld 17 16 = 0)
    (hk : k = (mreg (s.blk.msgWords ch) 1).fld 1 0) (hi : i = (mreg (s.blk.msgWords ch) 1).fld 15 8) (hx : s.blk.fnState k i = some x)
    (he : (mreg (s.blk.msgWords ch) 2).fld 15 0 = 0 ∨ (mreg (s.blk.msgWords ch) 2).fld 15 0 = x.2) :
    ∃ t : State, exec (.fnCtrlQuery ch) s = .next t ∧ t.pending = s.pending ∧ t.blk.repliedTo s.blk ch OK ∧
      t.blk.rg (chBack ch + 8) = w32 x.1 ∧ t.blk.rg (chBack ch + 12) = w32 x.2 ∧ t.blk.mailBack s.blk = s.blk := by
  obtain ⟨h, hxx, hh⟩ := exec_fnCtrl (c := .fnCtrlQuery ch) hop.symm (Or.inl ⟨rfl, rfl⟩)
  have hf' : ¬(chFn ch ≠ 0 ∧ chFn ch ≠ 64) := fun h => hf.elim h.1 h.2
  have he' : ¬((k = 0 ∨ k = 3) ∧ (mreg (s.blk.msgWords ch) 2).fld 15 0 ≠ 0 ∧ (mreg (s.blk.msgWords ch) 2).fld 15 0 ≠ x.2) :=
    fun h => he.elim h.2.1 h.2.2
  have ha : h (s.blk.msgTaken ch) (s.blk.msgWords ch) = (s.blk.msgTaken ch).yes [w32 x.1, w32 x.2] := by
    rcases hh with ⟨-, rfl⟩ | ⟨h1, -⟩ | ⟨h2, -⟩
    · simp only [fnQueryAnswer, ← hk, ← hi, Block.fnState_msgTaken, hx, hop]
      rw [if_neg hf', if_neg (by decide), if_neg he']
    · cases h1
    · cases h2
  obtain ⟨t, hx', hp, hr, hregs, hm, -⟩ := exec_told hd hb ha
  exact ⟨t, hxx.trans hx', hp, hr, hregs 0 (by omega), hregs 1 (by omega), hm⟩

/-- The answer of a start or a stop that passes the gate. -/
theorem fnCtrlAnswer_eq {act : Block → Nat → Nat → Nat × Block} {s : Block} {ch : Chan} {ws : List Word} {k i : Nat} {x : Nat × Nat}
    (hf : chFn ch = 0 ∨ chFn ch = 64) (hk : k = (mreg ws 1).fld 1 0) (hi : i = (mreg ws 1).fld 15 8) (hx : s.fnState k i = some x)
    (he : k = 2 ∨ (mreg ws 2).fld 15 0 = 0) :
    ∃ regs, fnCtrlAnswer act ch s ws = { status := (act s k i).1, regs := regs, blk := (act s k i).2 } := by
  have hf' : ¬(chFn ch ≠ 0 ∧ chFn ch ≠ 64) := fun h => hf.elim h.1 h.2
  have he' : ¬((k = 0 ∨ k = 3) ∧ (mreg ws 2).fld 15 0 ≠ 0 ∧ (mreg ws 2).fld 15 0 ≠ x.2) := by
    rintro ⟨h, h0, -⟩
    rcases he with h2 | h2
    · omega
    · exact h0 h2
  obtain ⟨x1, x2⟩ := x
  refine ⟨[w32 (((act s k i).2.fnState k i).getD (0, 0)).1, w32 (((act s k i).2.fnState k i).getD (0, 0)).2], ?_⟩
  simp only [fnCtrlAnswer, ← hk, ← hi, hx]
  rw [if_neg hf', if_neg he']

theorem Block.fnState_group {s : Block} {i : Nat} (hi : i < 192) :
    s.fnState 3 i = some (s.cgState (i / 8) (i % 8), s.groupEpoch (i / 8) (i % 8)) := by
  unfold Block.fnState
  rw [if_neg (by omega), if_neg (by omega), if_neg (by omega), if_pos hi]

theorem Block.fnState_set {s : Block} {i : Nat} (hi : i < 128) : s.fnState 2 i = some (s.setState i, 0) := by
  unfold Block.fnState
  rw [if_neg (by omega), if_neg (by omega), if_pos rfl, if_pos hi]

/-! ### Registers of stacks -/

/-- The registers of stacks are none of the mail's and none of the losses'. -/
theorem STK_offMail {n a : Nat} (hn : n < 24) (ha : a < 0x10000) :
    offMail (STK n a) ∧ STK n a ≠ ICE_DROPPED ∧ STK n a ≠ LDG_STATUS := by
  have e : STK n a = 0x02000000 + n * 0x10000 + a := rfl
  have e1 : ICE_DROPPED = 0x0040001C := rfl
  have e2 : LDG_STATUS = 0x00500000 := rfl
  omega

theorem STK_ne_chBack {n a k : Nat} (ch : Chan) (hn : n < 24) (ha : a < 0x10000) (hk : k < 0x100) : chBack ch + k ≠ STK n a :=
  (chBack_ne_of_offMail ch (STK_offMail hn ha).1 hk).symm

theorem Block.rg_STK_msgTaken (s : Block) (ch : Chan) {n a : Nat} (hn : n < 24) (ha : a < 0x10000) :
    (s.msgTaken ch).rg (STK n a) = s.rg (STK n a) := by
  obtain ⟨h0, h1, h2⟩ := STK_offMail hn ha
  exact s.rg_msgTaken_offMail ch h0 h1 h2

theorem Block.cgState_congr {s t : Block} {n : Nat} (h : t.rg (STK_STATE n) = s.rg (STK_STATE n)) (g : Nat) :
    t.cgState n g = s.cgState n g := congrArg (fun w : Word => w.fld (2 * g + 1) (2 * g)) h

/-- The state of a group set, and those of the groups beside it. -/
theorem Block.cgState_wf (s : Block) {n g v : Nat} (hg : g < 8) (hv : v < 4) :
    (s.wf (STK_STATE n) (2 * g + 1) (2 * g) v).cgState n g = v ∧
    ∀ h, h < 8 → h ≠ g → (s.wf (STK_STATE n) (2 * g + 1) (2 * g) v).cgState n h = s.cgState n h := by
  refine ⟨?_, fun h hh hne => ?_⟩
  · refine (Block.fld_wf_same _ _ _ (by omega) (by omega)).trans (Nat.mod_eq_of_lt ?_)
    rw [show 2 * g + 1 + 1 - 2 * g = 2 by omega]
    exact hv
  · refine Block.fld_wf_other _ _ _ _ (by omega) (by omega) ?_
    omega

/-! ### Groups started -/

theorem fnCtrlStart_group (s : State) (ch : Chan) (i n g : Nat) (hd : s.blk.delivers ch 0x0101) (hb : s.blk.backFree ch)
    (hf : chFn ch = 0 ∨ chFn ch = 64) (hop : (mreg (s.blk.msgWords ch) 1).fld 17 16 = 1)
    (hk : (mreg (s.blk.msgWords ch) 1).fld 1 0 = 3) (hi : i = (mreg (s.blk.msgWords ch) 1).fld 15 8) (hlt : i < 192) (hn : n = i / 8)
    (hg : g = i % 8) (he : (mreg (s.blk.msgWords ch) 2).fld 15 0 = 0) (hp : s.blk.cgPart n g ≠ 0x3F) (hst : s.blk.cgState n g = 0)
    (htr : s.blk.stackTrained n = true) (hdown : s.blk.groupDown n g = false) :
    ∃ t : State, exec (.fnCtrlStart ch) s = .next t ∧ t.pending = s.pending ∧ t.blk.repliedTo s.blk ch OK ∧ t.blk.cgState n g = 1 ∧
      (∀ h, h < 8 → h ≠ g → t.blk.cgState n h = s.blk.cgState n h) ∧ t.blk.mailBack s.blk = s.blk := by
  obtain ⟨h, hxx, hh⟩ := exec_fnCtrl (c := .fnCtrlStart ch) hop.symm (Or.inr (Or.inl ⟨rfl, rfl⟩))
  have hn24 : n < 24 := by omega
  have hg8 : g < 8 := by omega
  have hreg : ∀ a, a < 0x10000 → (s.blk.msgTaken ch).rg (STK n a) = s.blk.rg (STK n a) := fun a ha => s.blk.rg_STK_msgTaken ch hn24 ha
  have hact : startAct (s.blk.msgTaken ch) 3 i = (OK, ((s.blk.msgTaken ch).wf (STK_STATE n) (2 * g + 1) (2 * g) 1).ledGrow
      (pageLedger ((s.blk.msgTaken ch).cgPart n g) (stackTier n)) (groupPages n)) := by
    have hp' : (s.blk.msgTaken ch).cgPart n g ≠ 0x3F := by
      rw [Block.cgPart, Block.fld, show STK_PART_CG n g = STK n (0x14 + 4 * (g / 4)) from rfl, hreg _ (by omega)]
      exact hp
    have hst' : (s.blk.msgTaken ch).cgState n g = 0 := (Block.cgState_congr (hreg 4 (by omega)) g).trans hst
    have htr' : (s.blk.msgTaken ch).stackTrained n = true := (congrArg (fun w : Word => w.bit 16) (hreg 4 (by omega))).trans htr
    have hd' : (s.blk.msgTaken ch).groupDown n g = false := by
      simpa [Block.groupDown, Block.stackErr] using hdown
    unfold startAct
    rw [if_neg (by omega), if_neg (by omega), if_neg (by omega), ← hn, ← hg]
    unfold Block.startGroup
    rw [if_neg hp', hst']
    exact if_neg (by simp [htr', hd'])
  rcases hh with ⟨h0, -⟩ | ⟨-, rfl⟩ | ⟨h2, -⟩
  · cases h0
  · obtain ⟨regs, ha⟩ := fnCtrlAnswer_eq (act := startAct) (s := s.blk.msgTaken ch) hf hk.symm hi (Block.fnState_group hlt) (Or.inr he)
    rw [hact] at ha
    obtain ⟨h1, h2⟩ := (s.blk.msgTaken ch).cgState_wf (n := n) (v := 1) hg8 (by omega)
    have hrg : ∀ a, a ≠ ICE_DROPPED → a ≠ LDG_STATUS → (((s.blk.msgTaken ch).wf (STK_STATE n) (2 * g + 1) (2 * g) 1).ledGrow
        (pageLedger ((s.blk.msgTaken ch).cgPart n g) (stackTier n)) (groupPages n)).rg a =
        ((s.blk.msgTaken ch).wf (STK_STATE n) (2 * g + 1) (2 * g) 1).rg a := fun a h h' => Block.rg_led1 _ _ _ h h'
    obtain ⟨t, hx', hpend, hr, -, hm, htr⟩ := exec_regAnswer hd hb ha
      ((hrg _ (chBack_ne_ice _ _ (by omega)) (chBack_ne_ldg _ _ (by omega))).trans
        (Block.rg_wf_other _ _ _ _ (STK_ne_chBack ch hn24 (by omega) (by omega))))
      ((Block.led1_regKept ..).trans (Block.wf_regKept ..))
    obtain ⟨o0, o1, o2⟩ := STK_offMail (a := 4) hn24 (by omega)
    have hts : t.blk.rg (STK_STATE n) = ((s.blk.msgTaken ch).wf (STK_STATE n) (2 * g + 1) (2 * g) 1).rg (STK_STATE n) :=
      (htr _ o0 o1 o2).trans (hrg _ o1 o2)
    refine ⟨t, hxx.trans hx', hpend, hr, (Block.cgState_congr hts g).trans h1, fun k hk8 hne => ?_, hm⟩
    exact (Block.cgState_congr hts k).trans ((h2 k hk8 hne).trans (Block.cgState_congr (hreg 4 (by omega)) k))
  · cases h2

theorem fnCtrlStart_busy (s : State) (ch : Chan) (i n g : Nat) (hd : s.blk.delivers ch 0x0101) (hb : s.blk.backFree ch)
    (hf : chFn ch = 0 ∨ chFn ch = 64) (hop : (mreg (s.blk.msgWords ch) 1).fld 17 16 = 1)
    (hk : (mreg (s.blk.msgWords ch) 1).fld 1 0 = 3) (hi : i = (mreg (s.blk.msgWords ch) 1).fld 15 8) (hlt : i < 192) (hn : n = i / 8)
    (hg : g = i % 8) (he : (mreg (s.blk.msgWords ch) 2).fld 15 0 = 0) (hp : s.blk.cgPart n g ≠ 0x3F) (hst : s.blk.cgState n g = 3) :
    ∃ t : State, exec (.fnCtrlStart ch) s = .next t ∧ t.pending = s.pending ∧ t.blk.repliedTo s.blk ch (BUSY 0xF2) ∧
      t.blk.rg MOR_CNT_FN_BUSY = (s.blk.bump MOR_CNT_FN_BUSY).rg MOR_CNT_FN_BUSY ∧ t.blk.cgState n g = 3 ∧ t.blk.mailBack s.blk = s.blk := by
  obtain ⟨h, hxx, hh⟩ := exec_fnCtrl (c := .fnCtrlStart ch) hop.symm (Or.inr (Or.inl ⟨rfl, rfl⟩))
  have hn24 : n < 24 := by omega
  have hreg : ∀ a, a < 0x10000 → (s.blk.msgTaken ch).rg (STK n a) = s.blk.rg (STK n a) := fun a ha => s.blk.rg_STK_msgTaken ch hn24 ha
  have hcnt : (s.blk.msgTaken ch).rg MOR_CNT_FN_BUSY = s.blk.rg MOR_CNT_FN_BUSY :=
    s.blk.rg_msgTaken_offMail ch (by decide) (by decide) (by decide)
  have hact : startAct (s.blk.msgTaken ch) 3 i = (BUSY 0xF2, (s.blk.msgTaken ch).bump MOR_CNT_FN_BUSY) := by
    have hp' : (s.blk.msgTaken ch).cgPart n g ≠ 0x3F := by
      rw [Block.cgPart, Block.fld, show STK_PART_CG n g = STK n (0x14 + 4 * (g / 4)) from rfl, hreg _ (by omega)]
      exact hp
    have hst' : (s.blk.msgTaken ch).cgState n g = 3 := (Block.cgState_congr (hreg 4 (by omega)) g).trans hst
    unfold startAct
    rw [if_neg (by omega), if_neg (by omega), if_neg (by omega), ← hn, ← hg]
    unfold Block.startGroup
    rw [if_neg hp', hst']
    rfl
  rcases hh with ⟨h0, -⟩ | ⟨-, rfl⟩ | ⟨h2, -⟩
  · cases h0
  · obtain ⟨regs, ha⟩ := fnCtrlAnswer_eq (act := startAct) (s := s.blk.msgTaken ch) hf hk.symm hi (Block.fnState_group hlt) (Or.inr he)
    rw [hact] at ha
    obtain ⟨t, hx', hpend, hr, -, hm, htr⟩ := exec_regAnswer hd hb ha
      (Block.rg_bump_other _ _ (chBack_ne_of_offMail ch (a := MOR_CNT_FN_BUSY) (by decide) (by omega)).symm) (Block.bump_regKept ..)
    obtain ⟨o0, o1, o2⟩ := STK_offMail (a := 4) hn24 (by omega)
    have e : STK_STATE n = 0x02000000 + n * 0x10000 + 4 := rfl
    have e1 : MOR_CNT_FN_BUSY = 0x00000114 := rfl
    refine ⟨t, hxx.trans hx', hpend, hr, ?_, ?_, hm⟩
    · refine (htr _ (by decide) (by decide) (by decide)).trans ?_
      unfold Block.bump
      rw [Block.rg_wr_same, Block.rg_wr_same, hcnt]
    · refine (Block.cgState_congr ((htr _ o0 o1 o2).trans (Block.rg_bump_other _ _ ?_)) g).trans
        ((Block.cgState_congr (hreg 4 (by omega)) g).trans hst)
      show STK_STATE n ≠ MOR_CNT_FN_BUSY
      omega
  · cases h2

/-! ### Firn sets started -/

theorem fnCtrlStart_set (s : State) (ch : Chan) (i : Nat) (hd : s.blk.delivers ch 0x0101) (hb : s.blk.backFree ch)
    (hf : chFn ch = 0 ∨ chFn ch = 64) (hop : (mreg (s.blk.msgWords ch) 1).fld 17 16 = 1)
    (hk : (mreg (s.blk.msgWords ch) 1).fld 1 0 = 2) (hi : i = (mreg (s.blk.msgWords ch) 1).fld 15 8) (hlt : i < 128)
    (hst : s.blk.setState i = 0) (htr : s.blk.stackTrained (setStack i) = true) :
    ∃ t : State, exec (.fnCtrlStart ch) s = .next t ∧ t.pending = s.pending ∧ t.blk.repliedTo s.blk ch OK ∧ t.blk.setState i = 1 ∧
      (∀ j, j < 128 → j ≠ i → t.blk.setState j = s.blk.setState j) ∧ t.blk.mailBack s.blk = s.blk := by
  obtain ⟨h, hxx, hh⟩ := exec_fnCtrl (c := .fnCtrlStart ch) hop.symm (Or.inr (Or.inl ⟨rfl, rfl⟩))
  have e : ∀ k, setStack k = k / 8 / 4 * 6 + k / 8 % 4 := fun _ => rfl
  have es : ∀ k, STK_FIRN_SET k = 0x02000000 + k * 0x10000 + 0x60 := fun _ => rfl
  have h24 : ∀ k, k < 128 → setStack k < 24 := by
    intro k hk
    rw [e]
    omega
  have hreg : ∀ k, k < 128 → (s.blk.msgTaken ch).rg (STK_FIRN_SET (setStack k)) = s.blk.rg (STK_FIRN_SET (setStack k)) :=
    fun k hk => s.blk.rg_STK_msgTaken ch (h24 k hk) (by omega)
  have hact : startAct (s.blk.msgTaken ch) 2 i = (OK, (s.blk.msgTaken ch).setSetState i 1) := by
    have hst' : (s.blk.msgTaken ch).setState i = 0 :=
      (congrArg (fun w : Word => w.fld (2 * (i % 8) + 1) (2 * (i % 8))) (hreg i hlt)).trans hst
    have htr' : (s.blk.msgTaken ch).stackTrained (setStack i) = true :=
      (congrArg (fun w : Word => w.bit 16) (s.blk.rg_STK_msgTaken ch (a := 4) (h24 i hlt) (by omega))).trans htr
    unfold startAct
    rw [if_neg (by omega), if_neg (by omega), if_pos rfl]
    unfold Block.startSet
    rw [hst']
    exact congrArg (OK, ·) (if_pos htr')
  rcases hh with ⟨h0, -⟩ | ⟨-, rfl⟩ | ⟨h2, -⟩
  · cases h0
  · obtain ⟨regs, ha⟩ := fnCtrlAnswer_eq (act := startAct) (s := s.blk.msgTaken ch) hf hk.symm hi (Block.fnState_set hlt) (Or.inl rfl)
    rw [hact] at ha
    obtain ⟨t, hx', hpend, hr, -, hm, htr⟩ := exec_regAnswer hd hb ha
      (Block.rg_wf_other _ _ _ _ (STK_ne_chBack ch (h24 i hlt) (by omega) (by omega))) (Block.wf_regKept ..)
    have hts : ∀ k, k < 128 → t.blk.rg (STK_FIRN_SET (setStack k)) =
        ((s.blk.msgTaken ch).setSetState i 1).rg (STK_FIRN_SET (setStack k)) := by
      intro k hk
      obtain ⟨o0, o1, o2⟩ := STK_offMail (a := 0x60) (h24 k hk) (by omega)
      exact htr _ o0 o1 o2
    refine ⟨t, hxx.trans hx', hpend, hr, ?_, fun j hj hne => ?_, hm⟩
    · refine (congrArg (fun w : Word => w.fld (2 * (i % 8) + 1) (2 * (i % 8))) (hts i hlt)).trans ?_
      refine (Block.fld_wf_same _ _ _ (by omega) (by omega)).trans (Nat.mod_eq_of_lt ?_)
      rw [show 2 * (i % 8) + 1 + 1 - 2 * (i % 8) = 2 by omega]
      omega
    · refine (congrArg (fun w : Word => w.fld (2 * (j % 8) + 1) (2 * (j % 8))) (hts j hj)).trans ?_
      refine (Block.fld_wf_other _ _ _ _ (by omega) (by omega) ?_).trans
        (congrArg (fun w : Word => w.fld (2 * (j % 8) + 1) (2 * (j % 8))) (hreg j hj))
      rw [es, es, e, e]
      omega
  · cases h2

/-! ### Groups stopped -/

/-- A delivered message whose handling leaves its channel free to answer. -/
theorem exec_message_lasting {s : State} {ch : Chan} {type : Nat} {h : Block → List Word → Answer} {a : Answer}
    (hd : s.blk.delivers ch type) (ha : h (s.blk.msgTaken ch) (s.blk.msgWords ch) = a) (hfree : a.blk.backFree ch) :
    ∃ t : State, onBlk (fun b => b.message ch type h) s = .next t ∧ t.pending = s.pending ∧ t.blk.repliedTo s.blk ch a.status ∧
      t.blk = s.blk.lasting (a.blk.reply ch (mreg (s.blk.msgWords ch) 0 :: w32 a.status :: a.regs)) := by
  subst ha
  obtain ⟨hfull, hregs⟩ := Block.reply_free hfree (mreg (s.blk.msgWords ch) 0 ::
    w32 (h (s.blk.msgTaken ch) (s.blk.msgWords ch)).status :: (h (s.blk.msgTaken ch) (s.blk.msgWords ch)).regs)
  obtain ⟨t, hx, hp, ht⟩ := onBlk_lasting_next (fun b => b.message ch type h) s
  rw [Block.message_delivers hd h] at ht
  have hrg : ∀ a, t.blk.rg a = _ := fun a => ht ▸ Block.rg_lasting s.blk _ a
  exact ⟨t, hx, hp, Block.repliedTo_congr hrg ⟨hfull, hregs 0 (by omega), hregs 1 (by omega)⟩, ht⟩

theorem stopAct_group {s : Block} {i n g : Nat} (hn : n = i / 8) (hg : g = i % 8) (hst : s.cgState n g = 2) :
    stopAct s 3 i = match s.leaveGroup n g with | some b => (OK, b) | none => (noRoom, s) := by
  subst hn hg
  unfold stopAct
  rw [if_neg (by omega), if_neg (by omega), if_neg (by omega)]
  exact if_pos (Or.inr hst)

theorem fnCtrlStop_moves (s : State) (ch : Chan) (i n g : Nat) (b : Block) (hd : s.blk.delivers ch 0x0101)
    (hf : chFn ch = 0 ∨ chFn ch = 64) (hop : (mreg (s.blk.msgWords ch) 1).fld 17 16 = 2)
    (hk : (mreg (s.blk.msgWords ch) 1).fld 1 0 = 3) (hi : i = (mreg (s.blk.msgWords ch) 1).fld 15 8) (hlt : i < 192) (hn : n = i / 8)
    (hg : g = i % 8) (he : (mreg (s.blk.msgWords ch) 2).fld 15 0 = 0) (hst : s.blk.cgState n g = 2)
    (hl : (s.blk.msgTaken ch).leaveGroup n g = some b) (hbf : b.backFree ch) :
    ∃ t : State, exec (.fnCtrlStop ch) s = .next t ∧ t.pending = s.pending ∧ t.blk.repliedTo s.blk ch OK ∧ t.blk.objs = b.objs ∧
      t.blk.snow = b.snow ∧ t.blk.parts = b.parts ∧ t.blk.jobs = b.jobs := by
  obtain ⟨h, hxx, hh⟩ := exec_fnCtrl (c := .fnCtrlStop ch) hop.symm (Or.inr (Or.inr ⟨rfl, rfl⟩))
  have hst' : (s.blk.msgTaken ch).cgState n g = 2 :=
    (Block.cgState_congr (s.blk.rg_STK_msgTaken ch (n := n) (a := 4) (by omega) (by omega)) g).trans hst
  have hact : stopAct (s.blk.msgTaken ch) 3 i = (OK, b) := by
    rw [stopAct_group hn hg hst', hl]
  rcases hh with ⟨h0, -⟩ | ⟨h1, -⟩ | ⟨-, rfl⟩
  · cases h0
  · cases h1
  · obtain ⟨regs, ha⟩ := fnCtrlAnswer_eq (act := stopAct) (s := s.blk.msgTaken ch) hf hk.symm hi (Block.fnState_group hlt) (Or.inr he)
    rw [hact] at ha
    obtain ⟨t, hx', hpend, hr, ht⟩ := exec_message_lasting hd ha hbf
    refine ⟨t, hxx.trans hx', hpend, hr, ?_, ?_, ?_, ?_⟩
    · rw [ht]
      simp [Block.lasting]
    · rw [ht]
      simp [Block.lasting]
    · rw [ht]
      simp [Block.lasting]
    · rw [ht]
      simp [Block.lasting]

theorem fnCtrlStop_full (s : State) (ch : Chan) (i n g : Nat) (hd : s.blk.delivers ch 0x0101) (hb : s.blk.backFree ch)
    (hf : chFn ch = 0 ∨ chFn ch = 64) (hop : (mreg (s.blk.msgWords ch) 1).fld 17 16 = 2)
    (hk : (mreg (s.blk.msgWords ch) 1).fld 1 0 = 3) (hi : i = (mreg (s.blk.msgWords ch) 1).fld 15 8) (hlt : i < 192) (hn : n = i / 8)
    (hg : g = i % 8) (he : (mreg (s.blk.msgWords ch) 2).fld 15 0 = 0) (hst : s.blk.cgState n g = 2)
    (hl : (s.blk.msgTaken ch).leaveGroup n g = none) :
    ∃ t : State, exec (.fnCtrlStop ch) s = .next t ∧ t.pending = s.pending ∧ t.blk.repliedTo s.blk ch (NO_SPACE 0xF5) ∧
      t.blk.cgState n g = 2 ∧ t.blk.mailBack s.blk = s.blk := by
  obtain ⟨h, hxx, hh⟩ := exec_fnCtrl (c := .fnCtrlStop ch) hop.symm (Or.inr (Or.inr ⟨rfl, rfl⟩))
  have hreg := s.blk.rg_STK_msgTaken ch (n := n) (a := 4) (by omega) (by omega)
  have hst' : (s.blk.msgTaken ch).cgState n g = 2 := (Block.cgState_congr hreg g).trans hst
  have hact : stopAct (s.blk.msgTaken ch) 3 i = (noRoom, s.blk.msgTaken ch) := by
    rw [stopAct_group hn hg hst', hl]
  rcases hh with ⟨h0, -⟩ | ⟨h1, -⟩ | ⟨-, rfl⟩
  · cases h0
  · cases h1
  · obtain ⟨regs, ha⟩ := fnCtrlAnswer_eq (act := stopAct) (s := s.blk.msgTaken ch) hf hk.symm hi (Block.fnState_group hlt) (Or.inr he)
    rw [hact] at ha
    obtain ⟨t, hx', hpend, hr, -, hm, htr⟩ := exec_regAnswer hd hb ha rfl (Block.regKept.refl _)
    obtain ⟨o0, o1, o2⟩ := STK_offMail (n := n) (a := 4) (by omega) (by omega)
    exact ⟨t, hxx.trans hx', hpend, hr, (Block.cgState_congr (htr _ o0 o1 o2) g).trans hst', hm⟩

/-! ### Groups come up and stop -/

theorem channelGroupRunning_spec (s : State) (k n g : Nat) (hk : k < 192) (hn : n = k / 8) (hg : g = k % 8)
    (hst : s.blk.cgState n g = 1) (htr : s.blk.stackTrained n = true) :
    ∃ t : State, exec (.channelGroupRunning k) s = .next t ∧ t.pending = s.pending ∧ t.blk.cgState n g = 2 ∧
      t.blk.groupEpoch n g = nextEpoch (s.blk.groupEpoch n g) ∧
      (∀ h, h < 8 → h ≠ g → t.blk.cgState n h = s.blk.cgState n h ∧ t.blk.groupEpoch n h = s.blk.groupEpoch n h) ∧
      { t.blk with regs := s.blk.regs } = s.blk := by
  have hg8 : g < 8 := by omega
  have he : effChannelGroupRunning k s.blk = (s.blk.wf (STK_STATE n) (2 * g + 1) (2 * g) 2).wf (STK_CG_EPOCH n g) (16 * (g % 2) + 15)
      (16 * (g % 2)) (nextEpoch (s.blk.groupEpoch n g)) := by
    subst hn hg
    exact if_pos ⟨hk, hst, htr⟩
  have e1 : STK_STATE n = 0x02000000 + n * 0x10000 + 4 := rfl
  have e2 : ∀ h, STK_CG_EPOCH n h = 0x02000000 + n * 0x10000 + (0x70 + 4 * (h / 2)) := fun _ => rfl
  obtain ⟨h1, h2⟩ := s.blk.cgState_wf (n := n) (v := 2) hg8 (by omega)
  have hne : STK_STATE n ≠ STK_CG_EPOCH n g := by
    rw [e1, e2]
    omega
  have hep : nextEpoch (s.blk.groupEpoch n g) < 2 ^ 16 := by
    have hlt : s.blk.groupEpoch n g < 2 ^ (16 * (g % 2) + 15 + 1 - 16 * (g % 2)) := Word.fld_lt _ _ _
    rw [show 16 * (g % 2) + 15 + 1 - 16 * (g % 2) = 16 by omega] at hlt
    unfold nextEpoch
    split <;> omega
  refine ⟨_, onBlk_next_of_eq (f := effChannelGroupRunning k) he rfl rfl, rfl, ?_, ?_, fun h hh hhg => ⟨?_, ?_⟩, rfl⟩
  · exact (Block.cgState_congr (Block.rg_wf_other _ _ _ _ hne) g).trans h1
  · refine (Block.fld_wf_same _ _ _ (by omega) (by omega)).trans (Nat.mod_eq_of_lt ?_)
    rw [show 16 * (g % 2) + 15 + 1 - 16 * (g % 2) = 16 by omega]
    exact hep
  · exact (Block.cgState_congr (Block.rg_wf_other _ _ _ _ hne) h).trans (h2 h hh hhg)
  · refine (Block.fld_wf_other _ _ _ _ (by omega) (by omega) ?_).trans ?_
    · rw [e2, e2]
      omega
    · refine Block.fld_wf_other _ _ _ _ (by omega) (by omega) (Or.inl ?_)
      rw [e1, e2]
      omega

theorem channelGroupStopped_spec (s : State) (k n g : Nat) (hk : k < 192) (hn : n = k / 8) (hg : g = k % 8)
    (hst : s.blk.cgState n g = 3) :
    ∃ t : State, exec (.channelGroupStopped k) s = .next t ∧ t.pending = s.pending ∧ t.blk.cgState n g = 0 ∧
      (∀ h, h < 8 → h ≠ g → t.blk.cgState n h = s.blk.cgState n h) ∧ { t.blk with regs := s.blk.regs } = s.blk := by
  have he : effChannelGroupStopped k s.blk = s.blk.wf (STK_STATE n) (2 * g + 1) (2 * g) 0 := by
    subst hn hg
    exact if_pos ⟨hk, hst⟩
  obtain ⟨h1, h2⟩ := s.blk.cgState_wf (n := n) (g := g) (v := 0) (by omega) (by omega)
  exact ⟨_, onBlk_next_of_eq (f := effChannelGroupStopped k) he rfl rfl, rfl, h1, h2, rfl⟩

/-! ### Tiles return remapped -/

theorem FLOE_ne_SRC {t k d j : Nat} (hk : k < 0x4000) (hj : j < 0x100000) : FLOE t k ≠ SRC d j := by
  have e : FLOE t k = 0x01000000 + t / 8 / 8 * 0x400000 + (0x100000 + t / 8 % 8 * 0x40000 + (0x8000 + t % 8 * 0x4000 + k)) := rfl
  have e' : SRC d j = 0x01000000 + d * 0x400000 + j := rfl
  omega

theorem FLOE_ne_low {t k a : Nat} (ha : a < 0x01000000) : FLOE t k ≠ a := by
  have e : FLOE t k = 0x01000000 + t / 8 / 8 * 0x400000 + (0x100000 + t / 8 % 8 * 0x40000 + (0x8000 + t % 8 * 0x4000 + k)) := rfl
  omega

theorem FLOE_inj {t u k j : Nat} (hk : k < 0x4000) (hj : j < 0x4000) (h : t ≠ u ∨ k ≠ j) : FLOE t k ≠ FLOE u j := by
  have e : ∀ t k, FLOE t k = 0x01000000 + t / 8 / 8 * 0x400000 + (0x100000 + t / 8 % 8 * 0x40000 + (0x8000 + t % 8 * 0x4000 + k)) :=
    fun _ _ => rfl
  rw [e, e]
  omega

theorem Block.rg_FLOE_retirePhys (s : Block) {d phys t k : Nat} (hp : phys < 128) (hk : k < 0x4000) :
    (s.retirePhys d phys).rg (FLOE t k) = s.rg (FLOE t k) := by
  unfold Block.retirePhys
  split
  next h =>
    have he : SRC_TILE_RETIRED_LO d + 4 * (phys / 32) = SRC d (0x310 + 4 * (phys / 32)) := by
      show 0x01000000 + d * 0x400000 + 0x310 + 4 * (phys / 32) = 0x01000000 + d * 0x400000 + (0x310 + 4 * (phys / 32))
      omega
    exact Block.rg_wb_other _ _ _ (he ▸ FLOE_ne_SRC hk (by omega))
  next =>
    have hne : FLOE t k ≠ SRC_SPARE d (phys - 64) := FLOE_ne_SRC hk (by omega)
    exact (Block.rg_wb_other _ _ _ hne).trans (Block.rg_wb_other _ _ _ hne)

theorem Block.retirePhys_frame (s : Block) (d phys : Nat) : { s.retirePhys d phys with regs := s.regs } = s := by
  unfold Block.retirePhys
  split <;> simp

/-- A tile's contents reset, and its cause forgotten. -/
def Block.tileCleared (s : Block) (t : Nat) : Block :=
  ({ s with err := { s.err with tileCause := kdel s.err.tileCause t } } : Block).modTile t fun _ => Tile.reset

theorem Block.tileCleared_tile (s : Block) (t : Nat) :
    (s.tileCleared t).tile t = Tile.reset ∧ ∀ u, u ≠ t → (s.tileCleared t).tile u = s.tile u := by
  unfold Block.tileCleared
  constructor
  · rw [Block.tile_modTile, if_pos rfl]
  · intro u h
    rw [Block.tile_modTile, if_neg h]
    rfl

/-- A spare in the place of a tile's physical tile. -/
def Block.spareTaken (s : Block) (t d k : Nat) : Block :=
  let s := (s.wf (SRC_SPARE d k) 7 0 t).wb (SRC_SPARE d k) 8 true
  let s := (s.wf (FLOE_ID t) 14 8 (64 + k)).wb (FLOE_ID t) 15 true
  let s := s.wf (FLOE_EPOCH t) 15 0 (nextEpoch (s.fld (FLOE_EPOCH t) 15 0))
  s.wf (FLOE_STATE t) 2 0 2

theorem tileRemapEffect_spare {s : Block} {t k : Nat}
    (hf : ((s.retirePhys (t / 64) (s.fld (FLOE_ID t) 14 8)).tileCleared t).freeSpare (t / 64) = some k) :
    ∃ d, tileRemapEffect t s = (((s.retirePhys (t / 64) (s.fld (FLOE_ID t) 14 8)).tileCleared t).spareTaken t (t / 64) k).event
      srcHealth 0x0504 d := by
  refine ⟨[w32 (t / 64), w32 (s.fld (FLOE_ID t) 14 8), w32 (tget 0 s.err.tileCause t), w32 (64 + k)], ?_⟩
  obtain ⟨b, hb⟩ : ∃ b, b = (s.retirePhys (t / 64) (s.fld (FLOE_ID t) 14 8)).tileCleared t := ⟨_, rfl⟩
  have he : tileRemapEffect t s = (match b.freeSpare (t / 64) with
    | some k => (b.spareTaken t (t / 64) k).event srcHealth 0x0504
        [w32 (t / 64), w32 (s.fld (FLOE_ID t) 14 8), w32 (tget 0 s.err.tileCause t), w32 (64 + k)]
    | none => ((b.wf (FLOE_STATE t) 2 0 0).event srcHealth 0x0504
        [w32 (t / 64), w32 (s.fld (FLOE_ID t) 14 8), w32 (tget 0 s.err.tileCause t), 0xFFFFFFFF]).clusterOut (t / 8)) := by
    rw [hb]
    rfl
  rw [← hb] at hf ⊢
  rw [he, hf]

theorem tileRemapEffect_out {s : Block} {t : Nat}
    (hf : ((s.retirePhys (t / 64) (s.fld (FLOE_ID t) 14 8)).tileCleared t).freeSpare (t / 64) = none) :
    ∃ d, tileRemapEffect t s = ((((s.retirePhys (t / 64) (s.fld (FLOE_ID t) 14 8)).tileCleared t).wf (FLOE_STATE t) 2 0 0).event
      srcHealth 0x0504 d).clusterOut (t / 8) := by
  refine ⟨[w32 (t / 64), w32 (s.fld (FLOE_ID t) 14 8), w32 (tget 0 s.err.tileCause t), 0xFFFFFFFF], ?_⟩
  obtain ⟨b, hb⟩ : ∃ b, b = (s.retirePhys (t / 64) (s.fld (FLOE_ID t) 14 8)).tileCleared t := ⟨_, rfl⟩
  have he : tileRemapEffect t s = (match b.freeSpare (t / 64) with
    | some k => (b.spareTaken t (t / 64) k).event srcHealth 0x0504
        [w32 (t / 64), w32 (s.fld (FLOE_ID t) 14 8), w32 (tget 0 s.err.tileCause t), w32 (64 + k)]
    | none => ((b.wf (FLOE_STATE t) 2 0 0).event srcHealth 0x0504
        [w32 (t / 64), w32 (s.fld (FLOE_ID t) 14 8), w32 (tget 0 s.err.tileCause t), 0xFFFFFFFF]).clusterOut (t / 8)) := by
    rw [hb]
    rfl
  rw [← hb] at hf ⊢
  rw [he, hf]

theorem Block.freeSpare_congr {s t : Block} (h : t.regs = s.regs) (d : Nat) : t.freeSpare d = s.freeSpare d := by
  unfold Block.freeSpare Block.bit
  simp only [Block.rg_of_regs h]

theorem nextEpoch_lt {e : Nat} (h : e < 65536) : nextEpoch e < 65536 := by
  unfold nextEpoch
  split <;> omega

/-- What a spare in a tile's place leaves. -/
theorem Block.spareTaken_spec (s : Block) {t d k : Nat} (ht : t < 256) (hk : k < 4) :
    (s.spareTaken t d k).tileState t = 2 ∧ (s.spareTaken t d k).fld (FLOE_ID t) 14 8 = 64 + k ∧
    (s.spareTaken t d k).fld (SRC_SPARE d k) 7 0 = t ∧ (s.spareTaken t d k).bit (SRC_SPARE d k) 8 = true ∧
    (s.spareTaken t d k).fld (FLOE_EPOCH t) 15 0 = nextEpoch (s.fld (FLOE_EPOCH t) 15 0) ∧
    (∀ u, u < 256 → u ≠ t → (s.spareTaken t d k).tileState u = s.tileState u) ∧
    { s.spareTaken t d k with regs := s.regs } = s := by
  have hi : ∀ j, j < 0x4000 → FLOE t j ≠ SRC_SPARE d k := fun j hj => FLOE_ne_SRC hj (by omega)
  have i0 : FLOE_ID t = FLOE t 0 := rfl
  have i4 : FLOE_EPOCH t = FLOE t 4 := rfl
  have i8 : FLOE_STATE t = FLOE t 8 := rfl
  obtain ⟨a, ha⟩ : ∃ a, a = (s.wf (SRC_SPARE d k) 7 0 t).wb (SRC_SPARE d k) 8 true := ⟨_, rfl⟩
  obtain ⟨b, hb⟩ : ∃ b, b = (a.wf (FLOE_ID t) 14 8 (64 + k)).wb (FLOE_ID t) 15 true := ⟨_, rfl⟩
  obtain ⟨c, hc⟩ : ∃ c, c = b.wf (FLOE_EPOCH t) 15 0 (nextEpoch (b.fld (FLOE_EPOCH t) 15 0)) := ⟨_, rfl⟩
  have he : s.spareTaken t d k = c.wf (FLOE_STATE t) 2 0 2 := by
    rw [hc, hb, ha]
    rfl
  have hbr : ∀ x, x ≠ FLOE_ID t → b.rg x = a.rg x := fun x hx => by
    rw [hb]
    exact (Block.rg_wb_other _ _ _ hx).trans (Block.rg_wf_other _ _ _ _ hx)
  have har : ∀ x, x ≠ SRC_SPARE d k → a.rg x = s.rg x := fun x hx => by
    rw [ha]
    exact (Block.rg_wb_other _ _ _ hx).trans (Block.rg_wf_other _ _ _ _ hx)
  have hcr : ∀ x, x ≠ FLOE_EPOCH t → c.rg x = b.rg x := fun x hx => by
    rw [hc]
    exact Block.rg_wf_other _ _ _ _ hx
  have hsr : ∀ x, x ≠ FLOE_STATE t → (c.wf (FLOE_STATE t) 2 0 2).rg x = c.rg x := fun x hx => Block.rg_wf_other _ _ _ _ hx
  have n04 : FLOE_ID t ≠ FLOE_EPOCH t := FLOE_inj (by omega) (by omega) (Or.inr (by omega))
  have n08 : FLOE_ID t ≠ FLOE_STATE t := FLOE_inj (by omega) (by omega) (Or.inr (by omega))
  have n48 : FLOE_EPOCH t ≠ FLOE_STATE t := FLOE_inj (by omega) (by omega) (Or.inr (by omega))
  have s0 : SRC_SPARE d k ≠ FLOE_ID t := (hi 0 (by omega)).symm
  have s4 : SRC_SPARE d k ≠ FLOE_EPOCH t := (hi 4 (by omega)).symm
  have s8 : SRC_SPARE d k ≠ FLOE_STATE t := (hi 8 (by omega)).symm
  have hspare : (c.wf (FLOE_STATE t) 2 0 2).rg (SRC_SPARE d k) = a.rg (SRC_SPARE d k) :=
    (hsr _ s8).trans ((hcr _ s4).trans (hbr _ s0))
  have hepoch : b.rg (FLOE_EPOCH t) = s.rg (FLOE_EPOCH t) := (hbr _ n04.symm).trans (har _ (hi 4 (by omega)))
  rw [he]
  refine ⟨?_, ?_, ?_, ?_, ?_, ?_, ?_⟩
  · exact (Block.fld_wf_same _ _ _ (by omega) (by omega)).trans (Nat.mod_eq_of_lt (by omega))
  · refine (congrArg (fun w : Word => w.fld 14 8) ((hsr _ n08).trans (hcr _ n04))).trans ?_
    rw [hb]
    refine (Block.fld_wf_other _ _ _ _ (by omega) (by omega) (Or.inr (Or.inl (by omega)))).trans ?_
    exact (Block.fld_wf_same _ _ _ (by omega) (by omega)).trans (Nat.mod_eq_of_lt (by omega))
  · refine (congrArg (fun w : Word => w.fld 7 0) hspare).trans ?_
    rw [ha]
    refine (Block.fld_wf_other _ _ _ _ (by omega) (by omega) (Or.inr (Or.inl (by omega)))).trans ?_
    exact (Block.fld_wf_same _ _ _ (by omega) (by omega)).trans (Nat.mod_eq_of_lt (by omega))
  · refine (congrArg (fun w : Word => w.bit 8) hspare).trans ?_
    rw [ha]
    exact Block.bit_wb_same _ _ _ (by omega)
  · refine (congrArg (fun w : Word => w.fld 15 0) (hsr _ n48)).trans ?_
    have hlt : b.fld (FLOE_EPOCH t) 15 0 < 65536 := Word.fld_lt _ _ _
    have hcf : c.fld (FLOE_EPOCH t) 15 0 = nextEpoch (b.fld (FLOE_EPOCH t) 15 0) := by
      rw [hc]
      exact (Block.fld_wf_same _ _ _ (by omega) (by omega)).trans (Nat.mod_eq_of_lt (nextEpoch_lt hlt))
    refine hcf.trans (congrArg nextEpoch ?_)
    exact congrArg (fun w : Word => w.fld 15 0) hepoch
  · intro u hu hne
    have hu8 : ∀ j, j < 0x4000 → FLOE_STATE u ≠ FLOE t j := fun j hj => FLOE_inj (by omega) hj (Or.inl hne)
    refine congrArg (fun w : Word => w.fld 2 0) ((hsr _ (hu8 8 (by omega))).trans ((hcr _ (hu8 4 (by omega))).trans
      ((hbr _ (hu8 0 (by omega))).trans (har _ (FLOE_ne_SRC (by omega) (by omega))))))
  · rw [hc, hb, ha]
    simp

theorem tileRemapReady_lt {t : Nat} {s : Block} (h : tileRemapReady t s = true) : t < 256 := by
  unfold tileRemapReady at h
  simp only [Bool.and_eq_true, decide_eq_true_eq] at h
  exact h.1.1

/-- A tile cleared after its physical tile was retired. -/
theorem Block.tileRetired_spec (s : Block) {t d phys : Nat} (hp : phys < 128) :
    (∀ u j, u < 256 → j < 0x4000 → ((s.retirePhys d phys).tileCleared t).rg (FLOE u j) = s.rg (FLOE u j)) ∧
    ((s.retirePhys d phys).tileCleared t).tile t = Tile.reset ∧
    (∀ u, u ≠ t → ((s.retirePhys d phys).tileCleared t).tile u = s.tile u) ∧
    { (s.retirePhys d phys).tileCleared t with regs := s.regs, err := s.err, tiles := s.tiles } = s ∧
    (∀ e, ((s.retirePhys d phys).tileCleared t).freeSpare e = (s.retirePhys d phys).freeSpare e) := by
  have hg := fun (u j : Nat) (hj : j < 0x4000) => s.rg_FLOE_retirePhys (d := d) (t := u) hp hj
  have hf := s.retirePhys_frame d phys
  obtain ⟨b, hb⟩ : ∃ b, b = s.retirePhys d phys := ⟨_, rfl⟩
  rw [← hb] at hf ⊢
  obtain ⟨h1, h2⟩ := b.tileCleared_tile t
  have htiles : b.tiles = s.tiles := (congrArg Block.tiles hf :)
  have hregs : (b.tileCleared t).regs = b.regs := rfl
  refine ⟨fun u j _ hj => (Block.rg_of_regs hregs _).trans (hb ▸ hg u j hj), h1, fun u hu => (h2 u hu).trans ?_, ?_,
    fun e => Block.freeSpare_congr hregs e⟩
  · unfold Block.tile
    rw [htiles]
  · exact (congrArg (fun b : Block => { b with err := s.err, tiles := s.tiles }) hf :)

theorem tileRemapDone_spare (s : State) (n d phys k : Nat) (hr : tileRemapReady n s.blk = true) (hd : d = n / 64)
    (hp : phys = s.blk.fld (FLOE_ID n) 14 8) (hk : (s.blk.retirePhys d phys).freeSpare d = some k) :
    ∃ t : State, exec (.tileRemapDone n) s = .next t ∧ t.pending = s.pending ∧ t.blk.tileState n = 2 ∧
      t.blk.fld (FLOE_ID n) 14 8 = 64 + k ∧ t.blk.fld (SRC_SPARE d k) 7 0 = n ∧ t.blk.bit (SRC_SPARE d k) 8 = true ∧
      t.blk.fld (FLOE_EPOCH n) 15 0 = nextEpoch (s.blk.fld (FLOE_EPOCH n) 15 0) ∧ t.blk.tile n = Tile.reset ∧
      (∀ u, u < 256 → u ≠ n → t.blk.tile u = s.blk.tile u ∧ t.blk.tileState u = s.blk.tileState u) ∧
      { t.blk with regs := s.blk.regs, ice := s.blk.ice, err := s.blk.err, tiles := s.blk.tiles } = s.blk := by
  subst hd hp
  have hn := tileRemapReady_lt hr
  have hk4 : k < 4 := List.mem_range.mp (List.mem_of_find?_eq_some hk)
  obtain ⟨h1, h2, h3, h4, h5⟩ := s.blk.tileRetired_spec (t := n) (d := n / 64) (s.blk.fld_FLOE_ID_lt n)
  obtain ⟨dat, he⟩ := tileRemapEffect_spare ((h5 _).trans hk)
  have he' : effTileRemapDone n s.blk = _ := (if_pos hr).trans he
  obtain ⟨b, hb⟩ : ∃ b, b = (s.blk.retirePhys (n / 64) (s.blk.fld (FLOE_ID n) 14 8)).tileCleared n := ⟨_, rfl⟩
  rw [← hb] at he' h1 h2 h3 h4
  obtain ⟨g1, g2, g3, g4, g5, g6, g7⟩ := b.spareTaken_spec (d := n / 64) hn hk4
  obtain ⟨c, hc⟩ : ∃ c, c = b.spareTaken n (n / 64) k := ⟨_, rfl⟩
  rw [← hc] at he' g1 g2 g3 g4 g5 g6 g7
  have hev : ∀ a, a ≠ ICE_DROPPED → (c.event srcHealth 0x0504 dat).rg a = c.rg a := fun a h => Block.rg_event _ _ _ _ h
  have hfloe : ∀ u j, FLOE u j ≠ ICE_DROPPED := fun u j => FLOE_ne_low (by decide)
  have hspare : SRC_SPARE (n / 64) k ≠ ICE_DROPPED := by
    have e : SRC_SPARE (n / 64) k = 0x01000000 + n / 64 * 0x400000 + (0x300 + 4 * k) := rfl
    have e1 : ICE_DROPPED = 0x0040001C := rfl
    omega
  have hctiles : (c.event srcHealth 0x0504 dat).tiles = b.tiles := by
    rw [Block.event_tiles]
    exact (congrArg Block.tiles g7 :)
  have hframe : { c.event srcHealth 0x0504 dat with regs := s.blk.regs, ice := s.blk.ice, err := s.blk.err, tiles := s.blk.tiles } =
      s.blk := by
    have hev' : { c.event srcHealth 0x0504 dat with regs := s.blk.regs, ice := s.blk.ice, err := s.blk.err, tiles := s.blk.tiles } =
        { c with regs := s.blk.regs, ice := s.blk.ice, err := s.blk.err, tiles := s.blk.tiles } := by simp
    refine hev'.trans ((congrArg (fun x : Block => { x with
      regs := s.blk.regs, ice := s.blk.ice, err := s.blk.err, tiles := s.blk.tiles }) g7 :).trans ?_)
    exact (congrArg (fun x : Block => { x with ice := s.blk.ice }) h4 :)
  have hperm : (c.event srcHealth 0x0504 dat).ice.perm = s.blk.ice.perm := by
    have hst : (c.event srcHealth 0x0504 dat).ice.stored = c.ice.stored := Block.event_stored ..
    refine (congrArg IceCore.perm hst :).trans ?_
    exact (congrArg (fun x : Block => x.ice.perm) g7 :).trans (congrArg (fun x : Block => x.ice.perm) h4 :)
  have htile : ∀ u, (c.event srcHealth 0x0504 dat).tile u = b.tile u := fun u => by
    unfold Block.tile
    rw [hctiles]
  refine ⟨_, onBlk_next_of_eq (f := effTileRemapDone n) he' (congrArg (fun x : Block => x.trust.fuses) hframe :) hperm, rfl, ?_, ?_, ?_, ?_,
    ?_, (htile n).trans h2, fun u hu hne => ⟨(htile u).trans (h3 u hne), ?_⟩, hframe⟩
  · exact (congrArg (fun w : Word => w.fld 2 0) (hev _ (hfloe n 8))).trans g1
  · exact (congrArg (fun w : Word => w.fld 14 8) (hev _ (hfloe n 0))).trans g2
  · exact (congrArg (fun w : Word => w.fld 7 0) (hev _ hspare)).trans g3
  · exact (congrArg (fun w : Word => w.bit 8) (hev _ hspare)).trans g4
  · refine (congrArg (fun w : Word => w.fld 15 0) (hev _ (hfloe n 4))).trans (g5.trans (congrArg nextEpoch ?_))
    exact congrArg (fun w : Word => w.fld 15 0) (h1 n 4 hn (by omega))
  · refine (congrArg (fun w : Word => w.fld 2 0) (hev _ (hfloe u 8))).trans ((g6 u hu hne).trans ?_)
    exact congrArg (fun w : Word => w.fld 2 0) (h1 u 8 hu (by omega))

/-- A cluster put out of service while no saved job waits for it. -/
theorem Block.clusterOut_spec (s : Block) {c : Nat} (hs : s.jobs.all (fun e => e.2.state != .saved) = true) :
    (s.clusterOut c).bit (SRC_CLUSTER_OOS (c / 8)) (c % 8) = true ∧ (s.clusterOut c).objs = s.objs ∧
    (s.clusterOut c).jobs = s.jobs ∧
    (∀ a, a ≠ SRC_CLUSTER_OOS (c / 8) → a ≠ ICE_DROPPED → a ≠ LDG_STATUS → (s.clusterOut c).rg a = s.rg a) ∧
    (s.clusterOut c).trust = s.trust ∧ (s.clusterOut c).ice.stored = s.ice.stored := by
  unfold Block.clusterOut
  split
  next h => exact ⟨h, rfl, rfl, fun _ _ _ _ => rfl, rfl, rfl⟩
  next =>
    dsimp only
    obtain ⟨b, hb⟩ : ∃ b, b = (s.wb (SRC_CLUSTER_OOS (c / 8)) (c % 8) true).modCl c fun k => { k with state := .outOfService } :=
      ⟨_, rfl⟩
    have hbr : b.regs = (s.wb (SRC_CLUSTER_OOS (c / 8)) (c % 8) true).regs := by simp [hb, Block.modCl, Block.setCl]
    have hbj : b.jobs = s.jobs := by simp [hb, Block.modCl, Block.setCl]
    have hbo : b.objs = s.objs := by simp [hb, Block.modCl, Block.setCl]
    have hbt : b.trust = s.trust := by simp [hb, Block.modCl, Block.setCl]
    have hbi : b.ice = s.ice := by simp [hb, Block.modCl, Block.setCl]
    rw [← hb]
    have hled : ∀ a, a ≠ ICE_DROPPED → a ≠ LDG_STATUS → (b.ledShrink (0x80 + c) 1536).rg a = b.rg a :=
      fun a h h' => Block.rg_led1 _ _ _ h h'
    have hlj : (b.ledShrink (0x80 + c) 1536).jobs = s.jobs := (Block.led1_jobs ..).trans hbj
    have hlo : (b.ledShrink (0x80 + c) 1536).objs = s.objs := (Block.led1_objs ..).trans hbo
    have hlt : (b.ledShrink (0x80 + c) 1536).trust = s.trust := (Block.led1_trust ..).trans hbt
    have hli : (b.ledShrink (0x80 + c) 1536).ice.stored = s.ice.stored := (Block.led1_stored ..).trans (congrArg IceCore.stored hbi)
    obtain ⟨x, hx⟩ : ∃ x, x = b.ledShrink (0x80 + c) 1536 := ⟨_, rfl⟩
    rw [← hx] at hled hlj hlo hlt hli ⊢
    have hnil : (x.jobs.filter fun e => e.2.state == .saved && e.2.clusters.contains c) = [] := by
      rw [hlj, List.filter_eq_nil_iff]
      intro e he
      have := List.all_eq_true.mp hs e he
      simp only [bne_iff_ne, ne_eq] at this
      simp [this]
    rw [hnil]
    have e : SRC_CLUSTER_OOS (c / 8) = 0x01000000 + c / 8 * 0x400000 + 0x318 := rfl
    have e1 : ICE_DROPPED = 0x0040001C := rfl
    have e2 : LDG_STATUS = 0x00500000 := rfl
    refine ⟨?_, hlo, hlj, fun a h0 h1 h2 => ?_, hlt, hli⟩
    · refine (congrArg (fun w : Word => w.bit (c % 8)) ((hled _ (by omega) (by omega)).trans (Block.rg_of_regs hbr _))).trans ?_
      exact Block.bit_wb_same _ _ _ (by omega)
    · exact (hled a h1 h2).trans ((Block.rg_of_regs hbr a).trans (Block.rg_wb_other _ _ _ h0))

theorem tileRemapDone_out (s : State) (n d phys : Nat) (hr : tileRemapReady n s.blk = true) (hd : d = n / 64)
    (hp : phys = s.blk.fld (FLOE_ID n) 14 8) (hk : (s.blk.retirePhys d phys).freeSpare d = none)
    (hs : s.blk.jobs.all (fun e => e.2.state != .saved) = true) :
    ∃ t : State, exec (.tileRemapDone n) s = .next t ∧ t.pending = s.pending ∧ t.blk.tileState n = 0 ∧
      t.blk.bit (SRC_CLUSTER_OOS (n / 64)) (n / 8 % 8) = true ∧ t.blk.objs = s.blk.objs ∧ t.blk.jobs = s.blk.jobs := by
  subst hd hp
  have hn := tileRemapReady_lt hr
  obtain ⟨-, -, -, h4, h5⟩ := s.blk.tileRetired_spec (t := n) (d := n / 64) (s.blk.fld_FLOE_ID_lt n)
  obtain ⟨dat, he⟩ := tileRemapEffect_out ((h5 _).trans hk)
  have he' : effTileRemapDone n s.blk = _ := (if_pos hr).trans he
  obtain ⟨b, hb⟩ : ∃ b, b = (s.blk.retirePhys (n / 64) (s.blk.fld (FLOE_ID n) 14 8)).tileCleared n := ⟨_, rfl⟩
  rw [← hb] at he' h4
  have hev : ((b.wf (FLOE_STATE n) 2 0 0).event srcHealth 0x0504 dat).rg (FLOE_STATE n) = (b.wf (FLOE_STATE n) 2 0 0).rg (FLOE_STATE n) :=
    Block.rg_event _ _ _ _ (FLOE_ne_low (by decide))
  obtain ⟨c, hc⟩ : ∃ c, c = (b.wf (FLOE_STATE n) 2 0 0).event srcHealth 0x0504 dat := ⟨_, rfl⟩
  have hcj : c.jobs = s.blk.jobs := by
    rw [hc, Block.event_jobs]
    exact (congrArg Block.jobs h4 :)
  have hco : c.objs = s.blk.objs := by
    rw [hc, Block.event_objs]
    exact (congrArg Block.objs h4 :)
  have hct : c.trust = s.blk.trust := by
    rw [hc, Block.event_trust]
    exact (congrArg Block.trust h4 :)
  have hci : c.ice.stored = s.blk.ice.stored := by
    rw [hc, Block.event_stored]
    exact (congrArg (fun x : Block => x.ice.stored) h4 :)
  rw [← hc] at he' hev
  obtain ⟨o1, o2, o3, o4, o5, o6⟩ := c.clusterOut_spec (c := n / 8) (hcj ▸ hs)
  refine ⟨_, onBlk_next_of_eq (f := effTileRemapDone n) he' (congrArg Trust.fuses (o5.trans hct))
    (congrArg IceCore.perm (o6.trans hci) :), rfl, ?_, ?_, o2.trans hco, o3.trans hcj⟩
  · refine (congrArg (fun w : Word => w.fld 2 0) ((o4 (FLOE_STATE n) (FLOE_ne_SRC (by omega) (by omega))
      (FLOE_ne_low (by decide)) (FLOE_ne_low (by decide))).trans hev)).trans ?_
    exact Block.fld_wf_same _ _ _ (by omega) (by omega)
  · rw [show n / 64 = n / 8 / 8 by omega]
    exact o1

/-- Settles O47: what FN_CTRL does past its gate (`fnCtrlAnswer_eq`), groups that come up and stop, and tiles that return. -/
theorem functionControl : Obligations.FunctionControl := by
  refine ⟨fnCtrlQuery_spec, fnCtrl_none, fnCtrl_denied, fnCtrlStart_group, fnCtrlStart_busy, fnCtrlStart_set, ?moves,
    fnCtrlStop_full, channelGroupRunning_spec, ?noRun, channelGroupStopped_spec, ?noStop, tileRemapDone_spare, tileRemapDone_out, ?noTile⟩
  case moves =>
    intro s ch i n g b hd _ hf hop hk hi hlt hn hg he hst hl hbf
    exact fnCtrlStop_moves s ch i n g b hd hf hop hk hi hlt hn hg he hst hl hbf
  case noRun =>
    intro s k h
    refine onBlk_idle (f := effChannelGroupRunning k) (if_neg ?_)
    rintro ⟨h1, h2, -⟩
    rcases h with h | h
    · omega
    · exact h h2
  case noStop =>
    intro s k h
    refine onBlk_idle (f := effChannelGroupStopped k) (if_neg ?_)
    rintro ⟨h1, h2⟩
    rcases h with h | h
    · omega
    · exact h h2
  case noTile =>
    intro s n h
    exact onBlk_idle (f := effTileRemapDone n) (if_neg (by simp [h]))

end Sys2Proof.Machine
end

section
/-! What the ends of work never touch: firmware, trust, clocks, power, partitions and the registers of the module stay
while jobs, requests, pages, writes and packets come to their ends (R409, R420, R484). -/

namespace Sys2Proof.Machine

/-! ### The part of the module that work leaves as it is -/

/-- The registers that no work writes: those of the module, the clocks, the power, the ice core's reading and the cores.
Where no access meets an error of memory (`links`), also the states, lanes and epochs of ports: the registers that count such
errors go by the number of a stack, which the state does not bound. -/
def stillReg (links : Bool) (a : Nat) : Bool :=
  decide (a < 0x308000 ∨ 0x308200 ≤ a ∧ a < 0x700000 ∧ a ≠ 0x40001C ∧ a ≠ 0x500000 ∨
    links = true ∧ 0x800000 ≤ a ∧ a < 0x1000000 ∧ (a % 0x80000 < 0x200 ∨ 0x240 ≤ a % 0x80000))

/-- What work leaves as it is. -/
structure Still where
  latches : Latches
  fw : Firmware
  trust : Trust
  clk : Clocks
  pwr : Power
  parts : Tbl Part
  bundles : Tbl Bundle
  beatAt : Nat
  lostAt : Nat
  lossUntold : Option Nat
  start : Start
  ice : IceCore
  port : Nat → Port
  routes : Tbl Word
  reg : Nat → Word

/-- The part of a block that work leaves as it is. -/
def Block.still (s : Block) (b : Bool) : Still :=
  { latches := s.latches, fw := s.fw, trust := s.trust, clk := s.clk, pwr := s.pwr, parts := s.parts, bundles := s.bundles,
    beatAt := s.beatAt, lostAt := s.lostAt, lossUntold := s.lossUntold, start := s.start.steady, ice := s.ice.stored,
    port := fun p => { s.port p with queue := [] },
    routes := s.esk.routes, reg := fun a => if stillReg b a then s.rg a else 0 }

/-- Blocks that differ outside that part alone. -/
theorem Block.still_congr {s t : Block} {b : Bool} (h1 : t.latches = s.latches) (h2 : t.fw = s.fw) (h3 : t.trust = s.trust)
    (h4 : t.clk = s.clk) (h5 : t.pwr = s.pwr) (h6 : t.parts = s.parts) (h7 : t.bundles = s.bundles) (h8 : t.beatAt = s.beatAt)
    (h9 : t.lostAt = s.lostAt) (h10 : t.lossUntold = s.lossUntold) (h11 : t.start.steady = s.start.steady)
    (h12 : t.ice.stored = s.ice.stored) (h13 : t.esk.ports = s.esk.ports) (h15 : t.esk.routes = s.esk.routes)
    (h14 : ∀ a, stillReg b a = true → t.rg a = s.rg a) :
    t.still b = s.still b := by
  have hr : (fun a => if stillReg b a then t.rg a else 0) = fun a => if stillReg b a then s.rg a else 0 := by
    funext a
    split
    · exact h14 a ‹_›
    · rfl
  have hp : (fun p => { t.port p with queue := [] }) = fun p => { s.port p with queue := [] } := by
    funext p
    unfold Block.port
    rw [h13]
  unfold Block.still
  rw [h1, h2, h3, h4, h5, h6, h7, h8, h9, h10, h11, h12, h15, hr, hp]

theorem Block.rg_of_still {s t : Block} {b : Bool} (h : t.still b = s.still b) {a : Nat} (ha : stillReg b a = true) : t.rg a = s.rg a := by
  have e : (if stillReg b a then t.rg a else 0) = if stillReg b a then s.rg a else 0 := congrFun (congrArg Still.reg h :) a
  rwa [if_pos ha, if_pos ha] at e

theorem Block.port_of_still {s t : Block} {b : Bool} (h : t.still b = s.still b) (p : Nat) :
    { t.port p with queue := [] } = { s.port p with queue := [] } := congrFun (congrArg Still.port h :) p

/-! ### Choices, lists and loops -/

@[simp] theorem Block.still_ite (c : Prop) [Decidable c] (x y : Block) (b : Bool) :
    (if c then x else y).still b = if c then x.still b else y.still b := apply_ite (Block.still · b) ..

@[simp] theorem Block.each_still {α : Type} (s : Block) (l : List α) (f : Block → α → Block) {b : Bool}
    (h : ∀ s x, (f s x).still b = s.still b) : (s.each l f).still b = s.still b :=
  Block.each_keeps (Block.still · b) s l f fun s x _ => h s x

@[simp] theorem loop_still (n : Nat) (f : Nat → Block → Block) (s : Block) {b : Bool}
    (h : ∀ i s, (f i s).still b = s.still b) : (loop n f s).still b = s.still b :=
  loop_keeps (Block.still · b) f h n s

/-! ### Registers that work writes -/

theorem stillReg_of_le {b : Bool} {a : Nat} (h : 0x1000000 ≤ a) : stillReg b a = false := by
  unfold stillReg
  exact decide_eq_false (by omega)

theorem le_SRC (d k : Nat) : 0x1000000 ≤ SRC d k := by
  have e : SRC d k = 0x01000000 + d * 0x400000 + k := rfl
  omega

theorem le_CCC (c k : Nat) : 0x1000000 ≤ CCC c k := le_SRC ..

theorem le_STK (n k : Nat) : 0x1000000 ≤ STK n k := by
  have e : STK n k = 0x02000000 + n * 0x10000 + k := rfl
  omega

theorem le_FIRN (u k : Nat) : 0x1000000 ≤ FIRN u k := by
  have e : FIRN u k = 0x04000000 + u * 0x1000 + k := rfl
  omega

theorem le_SCH_C (f k : Nat) : 0x1000000 ≤ SCH_C f k := by
  have e : SCH_C f k = 0x06020000 + f * 0x100 + k := rfl
  omega

theorem le_SCH_P (p k : Nat) : 0x1000000 ≤ SCH_P p k := by
  have e : SCH_P p k = 0x06010000 + p * 0x100 + k := rfl
  omega

theorem le_SNW (p k : Nat) : 0x1000000 ≤ SNW p k := by
  have e : SNW p k = 0x06200000 + p * 0x100 + k := rfl
  omega

theorem le_fnPage (f k : Nat) : 0x1000000 ≤ fnPage f + k := by
  have e : fnPage f = 0x100000000 + f * 0x10000 := rfl
  omega

/-- The counters of a port. -/
theorem stillReg_ESK {b : Bool} {p k : Nat} (h : k < 0x40) : stillReg b (ESK p (0x200 + k)) = false := by
  have e : ESK p (0x200 + k) = 0x00800000 + p * 0x80000 + (0x200 + k) := rfl
  have hm : ESK p (0x200 + k) % 0x80000 = 0x200 + k := by omega
  unfold stillReg
  exact decide_eq_false (by omega)

/-- The counters of errors, where ports do not count. -/
theorem stillReg_ERR {a : Nat} (h : 0x00700000 ≤ a) : stillReg false a = false := by
  unfold stillReg
  exact decide_eq_false (by simp; omega)

@[simp] theorem stillReg_error (n : Nat) : stillReg false (ERR_STK_CE n) = false ∧ stillReg false (ERR_STK_UE n) = false ∧
    stillReg false (ERR_STK_ROWS n) = false ∧ stillReg false (ERR_SRAM_UE n) = false := by
  refine ⟨stillReg_ERR ?_, stillReg_ERR ?_, stillReg_ERR ?_, stillReg_ERR ?_⟩
  all_goals exact Nat.le_add_right_of_le (by decide)

@[simp] theorem stillReg_ERR_REFETCH {b : Bool} : stillReg b ERR_REFETCH = false := by cases b <;> decide

@[simp] theorem stillReg_ICE_DROPPED {b : Bool} : stillReg b ICE_DROPPED = false := by cases b <;> decide
@[simp] theorem stillReg_LDG_STATUS {b : Bool} : stillReg b LDG_STATUS = false := by cases b <;> decide
@[simp] theorem stillReg_SCH_C {b : Bool} (f k : Nat) : stillReg b (SCH_C f k) = false := stillReg_of_le (le_SCH_C ..)
@[simp] theorem stillReg_SCH_C4 {b : Bool} (f k : Nat) : stillReg b (SCH_C f k + 4) = false :=
  stillReg_of_le (Nat.le_add_right_of_le (le_SCH_C ..))
@[simp] theorem stillReg_SCH_P {b : Bool} (p k : Nat) : stillReg b (SCH_P p k) = false := stillReg_of_le (le_SCH_P ..)
@[simp] theorem stillReg_HIF_CNT {b : Bool} (f k : Nat) : stillReg b (HIF_CNT f k) = false := by
  have e : HIF_CNT f k = fnPage f + (0xF000 + 4 * k) := by unfold HIF_CNT; omega
  exact e ▸ stillReg_of_le (le_fnPage ..)

@[simp] theorem stillReg_stack {b : Bool} (n : Nat) : stillReg b (STK_STATE n) = false ∧
    stillReg b (STK_RD_BYTES_LO n) = false ∧ stillReg b (STK_WR_BYTES_LO n) = false ∧ stillReg b (STK_NARROW_LO n) = false ∧
    stillReg b (STK_ADD_LO n) = false ∧ stillReg b (STK_ADD_OVF n) = false ∧ stillReg b (STK_ADD_POISON n) = false ∧
    stillReg b (STK_MIG_IN n) = false ∧ stillReg b (STK_MIG_OUT n) = false ∧ stillReg b (STK_FIRN_SET n) = false :=
  have h (k : Nat) := stillReg_of_le (le_STK n k)
  ⟨h _, h _, h _, h _, h _, h _, h _, h _, h _, h _⟩

@[simp] theorem stillReg_STK_PART_CG {b : Bool} (n g : Nat) : stillReg b (STK_PART_CG n g) = false := stillReg_of_le (le_STK ..)

/-- The second words of counters of two words. -/
@[simp] theorem stillReg_stack4 {b : Bool} (n : Nat) :
    stillReg b (STK_RD_BYTES_LO n + 4) = false ∧ stillReg b (STK_WR_BYTES_LO n + 4) = false ∧
    stillReg b (STK_NARROW_LO n + 4) = false ∧ stillReg b (STK_ADD_LO n + 4) = false :=
  have h (k : Nat) := stillReg_of_le (Nat.le_add_right_of_le (le_STK n k))
  ⟨h _, h _, h _, h _⟩

@[simp] theorem stillReg_die {b : Bool} (d : Nat) :
    stillReg b (SRC_MSC_HITS_LO d) = false ∧ stillReg b (SRC_MSC_HITS_LO d + 4) = false ∧
    stillReg b (SRC_MSC_MISSES_LO d) = false ∧ stillReg b (SRC_MSC_MISSES_LO d + 4) = false ∧
    stillReg b (SRC_MSC_DROPS d) = false :=
  have h (k : Nat) := stillReg_of_le (le_SRC d k)
  have h4 (k : Nat) := stillReg_of_le (Nat.le_add_right_of_le (le_SRC d k))
  ⟨h _, h4 _, h _, h4 _, h _⟩

@[simp] theorem stillReg_SRC_MSC_PCFG {b : Bool} (d p : Nat) : stillReg b (SRC_MSC_PCFG d p) = false := stillReg_of_le (le_SRC ..)

@[simp] theorem stillReg_cluster {b : Bool} (c : Nat) : stillReg b (CCC_STALL_NS c) = false ∧ stillReg b (FLOE_STATE c) = false :=
  ⟨stillReg_of_le (le_CCC ..), stillReg_of_le (le_CCC ..)⟩

@[simp] theorem stillReg_unit {b : Bool} (u : Nat) :
    stillReg b (FIRN_STATE u) = false ∧ stillReg b (FIRN_CNT_STALE u) = false ∧
    stillReg b (FIRN_CNT_CMDS u) = false ∧ stillReg b (FIRN_HOST_STATUS u) = false ∧ stillReg b (FIRN_HOST_LAST_SEQ u) = false :=
  have h (k : Nat) := stillReg_of_le (le_FIRN u k)
  ⟨h _, h _, h _, h _, h _⟩

@[simp] theorem stillReg_part {b : Bool} (p : Nat) : stillReg b (SCH_P_STATE p) = false ∧ stillReg b (SCH_P_CFG p) = false ∧
    stillReg b (SCH_C_CFG p) = false :=
  ⟨stillReg_of_le (le_SCH_P ..), stillReg_of_le (le_SCH_P ..), stillReg_of_le (le_SCH_C ..)⟩

@[simp] theorem stillReg_SNW {b : Bool} (p k : Nat) : stillReg b (SNW p k) = false := stillReg_of_le (le_SNW ..)

@[simp] theorem stillReg_port {b : Bool} (p : Nat) :
    stillReg b (ESK_CNT_TX_LO p) = false ∧ stillReg b (ESK_CNT_TX_LO p + 4) = false ∧
    stillReg b (ESK_CNT_DISCARD p) = false ∧ stillReg b (ESK_CNT_DOWN p) = false :=
  ⟨stillReg_ESK (k := 0) (by omega), stillReg_ESK (k := 4) (by omega), stillReg_ESK (k := 0x1C) (by omega),
    stillReg_ESK (k := 0x18) (by omega)⟩

/-! ### Registers, events, ledgers -/

@[simp] theorem Block.wr_still (s : Block) {b : Bool} {a : Nat} (v : Word) (h : stillReg b a = false) :
    (s.wr a v).still b = s.still b := by
  refine Block.still_congr rfl rfl rfl rfl rfl rfl rfl rfl rfl rfl rfl rfl rfl rfl fun c hc => Block.rg_wr_other _ _ ?_
  rintro rfl
  simp [h] at hc

@[simp] theorem Block.wf_still (s : Block) {b : Bool} {a : Nat} (hi lo v : Nat) (h : stillReg b a = false) :
    (s.wf a hi lo v).still b = s.still b := Block.wr_still _ _ h

@[simp] theorem Block.wb_still (s : Block) {b : Bool} {a : Nat} (i : Nat) (v : Bool) (h : stillReg b a = false) :
    (s.wb a i v).still b = s.still b := Block.wr_still _ _ h

@[simp] theorem Block.bump_still (s : Block) {b : Bool} {a : Nat} (n : Nat) (h : stillReg b a = false) :
    (s.bump a n).still b = s.still b := Block.wr_still _ _ h

@[simp] theorem Block.bumpFld_still (s : Block) {b : Bool} {a : Nat} (hi lo n : Nat) (h : stillReg b a = false) :
    (s.bumpFld a hi lo n).still b = s.still b := Block.wr_still _ _ h

@[simp] theorem Block.setPair_still (s : Block) {b : Bool} {a : Nat} (v : Nat) (h : stillReg b a = false)
    (h4 : stillReg b (a + 4) = false) : (s.setPair a v).still b = s.still b :=
  (Block.wr_still _ _ h4).trans (Block.wr_still _ _ h)

@[simp] theorem Block.bumpPair_still (s : Block) {b : Bool} {a : Nat} (n : Nat) (h : stillReg b a = false)
    (h4 : stillReg b (a + 4) = false) : (s.bumpPair a n).still b = s.still b :=
  Block.setPair_still _ _ h h4

@[simp] theorem Block.iceEnter_still (s : Block) (r : IceRec) {b : Bool} : (s.iceEnter r).still b = s.still b := by
  unfold Block.iceEnter
  split
  · rfl
  · exact Eq.trans (b := (s.bump ICE_DROPPED).still b) rfl (Block.bump_still _ _ stillReg_ICE_DROPPED)

@[simp] theorem Block.event_still (s : Block) (src ev : Nat) (d : List Word) {b : Bool} :
    (s.event src ev d).still b = s.still b := by
  unfold Block.event
  split
  · split <;> rfl
  · exact Block.iceEnter_still ..

@[simp] theorem Block.breachMark_still (s : Block) (n : Nat) {b : Bool} : (s.breachMark n).still b = s.still b := by
  unfold Block.breachMark
  extract_lets t
  split
  · rfl
  · simp only [Block.wb_still _ _ _ stillReg_LDG_STATUS, Block.wf_still _ _ _ _ stillReg_LDG_STATUS]
    rfl

@[simp] theorem Block.led1_still (s : Block) (n : Nat) (m : LedgerMove) {b : Bool} : (s.led1 n m).still b = s.still b := by
  unfold Block.led1
  split
  · rfl
  · simp [Block.raiseBreach, Block.breachEvent]

@[simp] theorem Block.ledgerOps_still (s : Block) (n k : Nat) {b : Bool} :
    (s.ledTake n k).still b = s.still b ∧ (s.ledDrop n k).still b = s.still b ∧ (s.ledSend n k).still b = s.still b ∧
    (s.ledLand n k).still b = s.still b ∧ (s.ledFly n k).still b = s.still b ∧ (s.ledGrow n k).still b = s.still b ∧
    (s.ledShrink n k).still b = s.still b ∧ (s.ledRenew n k).still b = s.still b :=
  ⟨led1_still .., led1_still .., led1_still .., led1_still .., led1_still .., led1_still .., led1_still .., rfl⟩

@[simp] theorem Block.modPort_still (s : Block) (p : Nat) (f : Port → Port) {b : Bool}
    (h : ∀ x, { f x with queue := [] } = { x with queue := [] }) : (s.modPort p f).still b = s.still b := by
  have hp : (fun q => { (s.modPort p f).port q with queue := [] }) = fun q => { s.port q with queue := [] } := by
    funext q
    show { tget Port.reset (tset Port.reset s.esk.ports p (f (s.port p))) q with queue := [] } = { s.port q with queue := [] }
    by_cases hq : q = p
    · subst hq
      rw [tget_tset_same]
      exact h _
    · rw [tget_tset_other _ _ _ _ hq]
      rfl
  exact (congrArg (fun x => { s.still b with port := x }) hp :)

/-! ### Tables of work -/

@[simp] theorem Block.still_jobs (s : Block) (x : Tbl Job) {b : Bool} : ({ s with jobs := x } : Block).still b = s.still b := rfl
@[simp] theorem Block.still_sems (s : Block) (x : Tbl Sem) {b : Bool} : ({ s with sems := x } : Block).still b = s.still b := rfl
@[simp] theorem Block.still_clusters (s : Block) (x : Tbl Cluster) {b : Bool} :
    ({ s with clusters := x } : Block).still b = s.still b := rfl
@[simp] theorem Block.still_env (s : Block) (x : Env) {b : Bool} : ({ s with env := x } : Block).still b = s.still b := rfl
@[simp] theorem Block.still_err (s : Block) (x : Errors) {b : Bool} : ({ s with err := x } : Block).still b = s.still b := rfl
@[simp] theorem Block.still_env_err (s : Block) (x : Env) (y : Errors) {b : Bool} :
    ({ s with env := x, err := y } : Block).still b = s.still b := rfl
@[simp] theorem Block.still_msc (s : Block) (x : Tbl (List MscLine)) {b : Bool} :
    ({ s with msc := x } : Block).still b = s.still b := rfl
theorem Block.still_esk (s : Block) (x : Esker) {b : Bool} (h : x.ports = s.esk.ports)
    (hr : x.routes = s.esk.routes) : ({ s with esk := x } : Block).still b = s.still b :=
  Block.still_congr rfl rfl rfl rfl rfl rfl rfl rfl rfl rfl rfl rfl h hr fun _ _ => rfl

/-! ### Channels back to the host -/

theorem stillReg_chBack {b : Bool} (ch : Chan) {k : Nat} (h : k < 0x100) : stillReg b (chBack ch + k) = false := by
  cases hs : stillReg b (chBack ch + k) with
  | false => rfl
  | true =>
    unfold stillReg at hs
    have hs := of_decide_eq_true hs
    exact absurd rfl (chBack_ne_of_offMail ch (by unfold offMail; omega) h)

/-! ### Jobs, clusters and what they hold -/

@[simp] theorem Block.countEnded_still (s : Block) (f cls : Nat) {b : Bool} : (s.countEnded f cls).still b = s.still b := by
  simp [Block.countEnded]

@[simp] theorem Block.countJobs_still (s : Block) (p : Nat) {b : Bool} : (s.countJobs p).still b = s.still b := by
  simp [Block.countJobs]

@[simp] theorem Block.setCl_still (s : Block) (c : Nat) (k : Cluster) {b : Bool} : (s.setCl c k).still b = s.still b := by
  rfl

@[simp] theorem Block.modCl_still (s : Block) (c : Nat) (f : Cluster → Cluster) {b : Bool} :
    (s.modCl c f).still b = s.still b := by
  simp [Block.modCl]

@[simp] theorem Block.modJob_still (s : Block) (j : Nat) (f : Job → Job) {b : Bool} :
    (s.modJob j f).still b = s.still b := by
  rfl

@[simp] theorem Block.modSem_still (s : Block) (r : SemRef) (f : Sem → Sem) {b : Bool} :
    (s.modSem r f).still b = s.still b := by
  unfold Block.modSem
  split
  · simp
  · simp
  · rfl

@[simp] theorem Block.dropHolds_still (s : Block) (j : Nat) {b : Bool} : (s.dropHolds j).still b = s.still b := by
  simp [Block.dropHolds]

@[simp] theorem Block.freeCluster_still (s : Block) (c : Nat) {b : Bool} : (s.freeCluster c).still b = s.still b := by
  simp [Block.freeCluster]

@[simp] theorem Block.hostPut_still (s : Block) (a : Nat) (bs : List Byte) {b : Bool} :
    (s.hostPut a bs).still b = s.still b := by
  unfold Block.hostPut
  extract_lets
  (repeat' split) <;> rfl

@[simp] theorem Block.modFn_still (s : Block) (f : Nat) (g : Fn → Fn) {b : Bool} : (s.modFn f g).still b = s.still b := by
  rfl

@[simp] theorem Block.hostWrite_still (s : Block) (f a : Nat) (bs : List Byte) {b : Bool} :
    (s.hostWrite f a bs).still b = s.still b := by
  simp [Block.hostWrite]

@[simp] theorem Block.msix_still (s : Block) (f v : Nat) {b : Bool} : (s.msix f v).still b = s.still b := by
  rfl

@[simp] theorem Block.ringPut_still (s : Block) (f ri : Nat) (ws : List Word) {b : Bool} :
    (s.ringPut f ri ws).still b = s.still b := by
  unfold Block.ringPut
  split <;> simp

@[simp] theorem Block.ringEntry_still (s : Block) (f ri : Nat) (ws : List Word) {b : Bool} :
    (s.ringEntry f ri ws).still b = s.still b := by
  unfold Block.ringEntry
  split <;> simp

@[simp] theorem Block.semsLeave_still (s : Block) (ledger : Nat) (t : Tbl Sem) {b : Bool} :
    (s.semsLeave ledger t).still b = s.still b := by
  simp [Block.semsLeave]

@[simp] theorem Block.setStepStatus_still (s : Block) (p m st : Nat) (ns : List Nat) {b : Bool} :
    (s.setStepStatus p m st ns).still b = s.still b := by
  unfold Block.setStepStatus
  split <;> rfl

@[simp] theorem Block.framesBack_still (s : Block) (p : Nat) (o : Obj) {b : Bool} :
    (s.framesBack p o).still b = s.still b := by
  simp [Block.framesBack]

@[simp] theorem Block.setObjects_still (s : Block) (p : Nat) (o : Objects) {b : Bool} :
    (s.setObjects p o).still b = s.still b := by
  rfl

@[simp] theorem Block.destroy_still (s : Block) (p slot : Nat) {b : Bool} : (s.destroy p slot).still b = s.still b := by
  unfold Block.destroy
  split
  · rfl
  · exact (Block.framesBack_still ..).trans rfl

@[simp] theorem Block.dropPending_still (s : Block) (p slot : Nat) {b : Bool} :
    (s.dropPending p slot).still b = s.still b := by
  rfl

@[simp] theorem Block.sweepDying_still (s : Block) (p : Nat) {b : Bool} : (s.sweepDying p).still b = s.still b := by
  simp [Block.sweepDying]

@[simp] theorem Block.finishJob_still (s : Block) (j : Nat) {b : Bool} : (s.finishJob j).still b = s.still b := by
  unfold Block.finishJob
  split
  · rfl
  next J _ =>
    split
    extract_lets st' s1 s2 s3 s4 s5 s6 s7 s8
    have h1 : s1.still b = s.still b := by
      refine Block.each_still _ _ _ fun s c => ?_
      split <;> simp
    have h4 : s4.still b = s1.still b := by simp [s4, s3, s2]
    have h5 : s5.still b = s.still b := Eq.trans (b := s4.still b) rfl (h4.trans h1)
    have h7 : s7.still b = s5.still b := by simp [s7, s6]
    have h8 : s8.still b = s5.still b := by
      unfold s8
      split
      · simp
      · split
        · simp [s6]
        · simp [h7]
    simp [h8, h5]

@[simp] theorem Block.discardQueues_still (s : Block) (c : Nat) {b : Bool} : (s.discardQueues c).still b = s.still b := by
  unfold Block.discardQueues
  extract_lets k all idle waits s1 s2 drop s3
  have h : s3.still b = s.still b := Eq.trans (b := s2.still b) rfl (by simp [s2, s1])
  split
  · simpa using h
  · exact h

@[simp] theorem Block.jobFail_still (s : Block) (j st count tag engine : Nat) {b : Bool} :
    (s.jobFail j st count tag engine).still b = s.still b := by
  unfold Block.jobFail
  split <;> simp

@[simp] theorem Block.failJob_still (s : Block) (j st count tag engine : Nat) {b : Bool} :
    (s.failJob j st count tag engine).still b = s.still b := by
  unfold Block.failJob
  split <;> simp

@[simp] theorem Block.endJob_still (s : Block) (j st : Nat) {b : Bool} : (s.endJob j st).still b = s.still b := by
  simp [Block.endJob]

/-! ### Packets and requests of links -/

@[simp] theorem Block.discard_still (s : Block) (p : Nat) {b : Bool} : (s.discard p).still b = s.still b := by
  simp [Block.discard]

@[simp] theorem Block.sendNow_still (s : Block) (p : Nat) (q : Queued) {b : Bool} :
    (s.sendNow p q).still b = s.still b := by
  unfold Block.sendNow
  extract_lets n s1 e s2
  have h1 : s1.still b = s.still b := by simp [s1]
  have h2 : s2.still b = s1.still b := Block.still_env s1 _
  split
  · exact (Block.still_esk _ _ rfl rfl).trans (h2.trans h1)
  · exact h2.trans h1

@[simp] theorem Block.pumpFrom_still (s : Block) (p : Nat) (l kept : List Queued) {b : Bool} :
    (s.pumpFrom p l kept).still b = s.still b := by
  induction l generalizing s kept with
  | nil => simp [Block.pumpFrom]
  | cons q l ih =>
    unfold Block.pumpFrom
    split
    · exact (ih ..).trans (Block.sendNow_still ..)
    · exact ih ..

@[simp] theorem Block.pump_still (s : Block) (p : Nat) {b : Bool} : (s.pump p).still b = s.still b := by
  simp [Block.pump]

@[simp] theorem Block.enqueue_still (s : Block) (p : Nat) (own : Bool) (k : Packet) {b : Bool} :
    (s.enqueue p own k).still b = s.still b := by
  unfold Block.enqueue
  simp

@[simp] theorem Block.forward_still (s : Block) (p : Nat) (k : Packet) {b : Bool} :
    (s.forward p k).still b = s.still b := by
  unfold Block.forward
  split <;> simp

@[simp] theorem Block.forwardLag_still (s : Block) (f : CopyLag → Bool) {b : Bool} :
    (s.forwardLag f).still b = s.still b := by
  rfl

@[simp] theorem Block.modObj_still (s : Block) (p slot : Nat) (f : Obj → Obj) {b : Bool} :
    (s.modObj p slot f).still b = s.still b := by
  simp [Block.modObj]

@[simp] theorem Block.performFirst_still (s : Block) (c p slot : Nat) (w : PendWrite) {b : Bool} :
    (s.performFirst c p slot w).still b = s.still b := by
  unfold Block.performFirst
  split <;> simp

@[simp] theorem Block.performOut_still (s : Block) (c : Nat) (f : PendWrite → Bool) {b : Bool} :
    (s.performOut c f).still b = s.still b := by
  simp [Block.performOut]

@[simp] theorem Block.releaseAll_still (s : Block) (c : Nat) {b : Bool} : (s.releaseAll c).still b = s.still b := by
  simp [Block.releaseAll]

@[simp] theorem Block.killJob_still (s : Block) (j st : Nat) (silent : Bool) {b : Bool} :
    (s.killJob j st silent).still b = s.still b := by
  unfold Block.killJob
  dsimp only
  (repeat' split) <;> simp

@[simp] theorem Block.killJobs_still (s : Block) (st : Nat) (silent : Bool) {b : Bool} :
    (s.killJobs st silent).still b = s.still b := by
  simp [Block.killJobs]

@[simp] theorem Block.countPreempt_still (s : Block) (f cls : Nat) {b : Bool} :
    (s.countPreempt f cls).still b = s.still b := by
  simp [Block.countPreempt]

@[simp] theorem Block.countWait_still (s : Block) (f cls ns : Nat) {b : Bool} :
    (s.countWait f cls ns).still b = s.still b := by
  simp [Block.countWait]

/-! ### Requests -/

@[simp] theorem Block.modReq_still (s : Block) (k : Nat) (f : Req → Req) {b : Bool} :
    (s.modReq k f).still b = s.still b := by
  rfl

@[simp] theorem Block.reqState_still (s : Block) (k : Nat) (st : ReqState) {b : Bool} :
    (s.reqState k st).still b = s.still b := by
  unfold Block.reqState
  split <;> simp

@[simp] theorem Block.killReqs_still (s : Block) {b : Bool} : (s.killReqs).still b = s.still b := by
  simp [Block.killReqs]

/-! ### Pages and sequences -/

@[simp] theorem Block.setSnow_still (s : Block) (p : Nat) (w : Snow) {b : Bool} : (s.setSnow p w).still b = s.still b := by
  rfl

@[simp] theorem Block.modPage_still (s : Block) (p pid : Nat) (f : Page → Page) {b : Bool} :
    (s.modPage p pid f).still b = s.still b := by
  simp [Block.modPage]

@[simp] theorem Block.copySlot_still (s : Block) (p : Nat) (k : KvClass) (pid t pod u : Nat) {b : Bool} :
    (s.copySlot p k pid t pod u).still b = s.still b := by
  unfold Block.copySlot
  split
  · rfl
  · refine Block.each_still _ _ _ fun s r => ?_
    split
    · rfl
    · simp

@[simp] theorem Block.freePage_still (s : Block) (p pid : Nat) {b : Bool} : (s.freePage p pid).still b = s.still b := by
  unfold Block.freePage
  (repeat' split) <;> simp

@[simp] theorem Block.dropRef_still (s : Block) (p pid : Nat) {b : Bool} : (s.dropRef p pid).still b = s.still b := by
  unfold Block.dropRef
  split <;> simp

@[simp] theorem Block.dropRefs_still (s : Block) (p : Nat) (l : List Nat) {b : Bool} :
    (s.dropRefs p l).still b = s.still b := by
  simp [Block.dropRefs]

@[simp] theorem Block.modSeq_still (s : Block) (p slot : Nat) (f : Seq → Seq) {b : Bool} :
    (s.modSeq p slot f).still b = s.still b := by
  rfl

@[simp] theorem Block.restamp_still (s : Block) (p pid : Nat) (f : Page → Page) {b : Bool} :
    (s.restamp p pid f).still b = s.still b := by
  rfl

@[simp] theorem Block.zeroSlot_still (s : Block) (p : Nat) (k : KvClass) (pid t : Nat) {b : Bool} :
    (s.zeroSlot p k pid t).still b = s.still b := by
  simp [Block.zeroSlot]

@[simp] theorem Block.zeroAppend_still (s : Block) (p : Nat) (q : Seq) (layer a n : Nat) {b : Bool} :
    (s.zeroAppend p q layer a n).still b = s.still b := by
  simp [Block.zeroAppend]

@[simp] theorem Block.commitLayer_still (s : Block) (p slot n : Nat) (path : List Nat) (layer : Nat) {b : Bool} :
    (s.commitLayer p slot n path layer).still b = s.still b := by
  unfold Block.commitLayer
  split <;> simp

@[simp] theorem Block.addRef_still (s : Block) (p pid : Nat) {b : Bool} : (s.addRef p pid).still b = s.still b := by
  simp [Block.addRef]

@[simp] theorem Block.addNode_still (s : Block) (p : Nat) (q : Seq) (x : Walk) (parent h i : Nat) (tok : List Word) {b : Bool} :
    (s.addNode p q x parent h i tok).2.still b = s.still b := by
  simp [Block.addNode]

@[simp] theorem Block.publish_still (s : Block) (p : Nat) (q : Seq) (x : Walk) (from_ n i parent hash : Nat) {b : Bool} :
    (s.publish p q x from_ n i parent hash).still b = s.still b := by
  induction n generalizing s i parent hash with
  | zero => rfl
  | succ n ih =>
    unfold Block.publish
    extract_lets tok h r
    split
    · rfl
    · split
      · exact ih ..
      · split
        · rfl
        · exact (ih ..).trans (Block.addNode_still ..)

@[simp] theorem Block.offer_still (s : Block) (p slot ctx : Nat) {b : Bool} : (s.offer p slot ctx).still b = s.still b := by
  unfold Block.offer
  (repeat' split) <;> simp

@[simp] theorem Block.commitSeq_still (s : Block) (p slot n : Nat) (path : List Nat) (toks : List Word) {b : Bool} :
    (s.commitSeq p slot n path toks).still b = s.still b := by
  unfold Block.commitSeq
  split <;> simp

@[simp] theorem Block.dropRow_still (s : Block) (p : Nat) (row : StepRow) {b : Bool} :
    (s.dropRow p row).still b = s.still b := by
  unfold Block.dropRow
  split <;> simp

@[simp] theorem Block.cancelMove_still (s : Block) (p pid : Nat) {b : Bool} : (s.cancelMove p pid).still b = s.still b := by
  unfold Block.cancelMove
  split <;> simp

@[simp] theorem Block.drawn_still (s : Block) {b : Bool} : (s.drawn).still b = s.still b := by
  rfl

@[simp] theorem Block.moverAnswered_still (s : Block) (p pid id unit : Nat) (r : Reply) {b : Bool} :
    (s.moverAnswered p pid id unit r).still b = s.still b := by
  rfl

@[simp] theorem Block.modLine_still (s : Block) (c p : Nat) (h : Word) (u : Nat) (f : Store → Store) {b : Bool} :
    (s.modLine c p h u f).still b = s.still b := by
  simp [Block.modLine]

@[simp] theorem Block.crcUpdate_still (s : Block) (c p : Nat) (h : Word) (off : Nat) (bs : List Byte) (ps : List Bool) {b : Bool} :
    (s.crcUpdate c p h off bs ps).still b = s.still b := by
  unfold Block.crcUpdate
  split <;> simp

/-! ### Lines, errors and accesses of memory -/

@[simp] theorem Block.errsGone_still (s : Block) (f : CacheErr → Bool) {b : Bool} : (s.errsGone f).still b = s.still b := by
  rfl

@[simp] theorem Block.markSectors_still (s : Block) (p : Nat) (h : Word) (l : List Nat) {b : Bool} :
    (s.markSectors p h l).still b = s.still b := by
  simp [Block.markSectors]

@[simp] theorem Block.lineErrors_still (s : Block) (x : MscLine) (a b : Nat) :
    (s.lineErrors x a b).2.still false = s.still false := by
  simp [Block.lineErrors, apply_ite Prod.snd]

@[simp] theorem Block.lineOut_still (s : Block) (x : MscLine) : (s.lineOut x).still false = s.still false := by
  simp [Block.lineOut]

@[simp] theorem Block.setMscLines_still (s : Block) (k : Nat) (l : List MscLine) {b : Bool} :
    (s.setMscLines k l).still b = s.still b := by
  rfl

@[simp] theorem Block.mscHit_still (s : Block) (a : MscAccess) (x : MscLine) (rest : List MscLine) :
    (s.mscHit a x rest).still false = s.still false := by
  unfold Block.mscHit
  extract_lets s1 uses y kept
  have h : s1.still false = s.still false := by simp [s1]
  clear_value s1 uses y kept
  rcases uses with _ | ⟨c, r⟩
  · simpa using h
  · dsimp only
    split <;> simpa using h

@[simp] theorem Block.markStored_still (s : Block) (p : Nat) (h : Word) (x : Nat) {b : Bool} :
    (s.markStored p h x).still b = s.still b := by
  simp [Block.markStored]

@[simp] theorem Block.meetErrors_still (s : Block) (n p : Nat) (h : Word) (hit : Nat → Bool) :
    (s.meetErrors n p h hit).still false = s.still false := by
  simp [Block.meetErrors]

@[simp] theorem Block.mscMiss_still (s : Block) (a : MscAccess) (l : List MscLine) :
    (s.mscMiss a l).still false = s.still false := by
  unfold Block.mscMiss
  extract_lets d ways s1 s2
  have h : s2.still false = s.still false := by simp [s2, s1]
  clear_value s2
  split
  · simp [h]
  · split
    next v _ _ => cases v <;> simp [h]

@[simp] theorem Block.mscAccess_still (s : Block) (a : MscAccess) : (s.mscAccess a).still false = s.still false := by
  unfold Block.mscAccess
  extract_lets l s1
  have h : s1.still false = s.still false := by simp [s1]
  clear_value s1
  split
  · simpa using h
  · split
    · exact h
    · dsimp only
      (repeat' split) <;> simp [h]

@[simp] theorem Block.copyAccess_still (s : Block) (p : Nat) (h : Word) (sector hint : Nat) (wr narrow : Bool) (copy : Nat) :
    (s.copyAccess p h sector hint wr narrow copy).still false = s.still false := by
  unfold Block.copyAccess
  (repeat' split) <;> simp

@[simp] theorem Block.traffic_still (s : Block) (p : Nat) (h : Word) (die off n hint : Nat) (wr narrow : Bool) :
    (s.traffic p h die off n hint wr narrow).still false = s.still false := by
  unfold Block.traffic
  split <;> simp

@[simp] theorem Block.objWrite_still (s : Block) (m : Mover) (off : Nat) (bs : List Byte) (ps : List Bool) :
    (s.objWrite m off bs ps).still false = s.still false := by
  simp [Block.objWrite]

@[simp] theorem Block.modTile_still (s : Block) (t : Nat) (f : Tile → Tile) {b : Bool} :
    (s.modTile t f).still b = s.still b := by
  rfl

@[simp] theorem Block.stackTraffic_still (s : Block) (n k : Nat) (wr narrow : Bool) {b : Bool} :
    (s.stackTraffic n k wr narrow).still b = s.still b := by
  unfold Block.stackTraffic
  (repeat' split) <;> simp

@[simp] theorem Block.locTraffic_still (s : Block) (p : Nat) (l : PageLoc) (k : Nat) (wr narrow : Bool) {b : Bool} :
    (s.locTraffic p l k wr narrow).still b = s.still b := by
  unfold Block.locTraffic
  split <;> simp

@[simp] theorem Block.viewTraffic_still (s : Block) (p off n : Nat) (wr narrow : Bool) :
    (s.viewTraffic p off n wr narrow).still false = s.still false := by
  unfold Block.viewTraffic
  refine Block.each_still _ _ _ fun s pid => ?_
  dsimp only
  split
  · split <;> simp
  · simp

@[simp] theorem Block.viewWrite_still (s : Block) (p off : Nat) (bs : List Byte) (ps : List Bool) {b : Bool} :
    (s.viewWrite p off bs ps).still b = s.still b := by
  simp [Block.viewWrite]

/-! ### What engines write -/

@[simp] theorem Block.tmWrite_still (s : Block) (t a : Nat) (bs : List Byte) (ps : List Bool) {b : Bool} :
    (s.tmWrite t a bs ps).still b = s.still b := by
  simp [Block.tmWrite]

@[simp] theorem Block.shmWrite_still (s : Block) (c a : Nat) (bs : List Byte) (ps : List Bool) {b : Bool} :
    (s.shmWrite c a bs ps).still b = s.still b := by
  simp [Block.shmWrite]

@[simp] theorem Block.endWrite_still (s : Block) (x : EngCtx) (space : Nat) (h : Word) (off hint : Nat)
    (bs : List Byte) (ps : List Bool) (loose : Bool) :
    (s.endWrite x space h off hint bs ps loose).still false = s.still false := by
  simp [Block.endWrite]

@[simp] theorem Block.keepData_still (s : Block) (x : EngCtx) (a : Nat) (bs : List Byte) (ps : List Bool) {b : Bool} :
    (s.keepData x a bs ps).still b = s.still b := by
  rfl

@[simp] theorem Block.placeData_still (s : Block) (o : Outstanding) (r : Reply) :
    (s.placeData o r).still false = s.still false := by
  unfold Block.placeData
  split
  · rfl
  · split
    · rfl
    · extract_lets bs z
      split
      · simp
      · split <;> simp

@[simp] theorem Block.answered_still (s : Block) (o : Outstanding) (r : Reply) :
    (s.answered o r).still false = s.still false := by
  unfold Block.answered
  split <;> simp

@[simp] theorem Block.freeTag_still (s : Block) {b : Bool} : (s.freeTag).2.still b = s.still b := by
  rfl

@[simp] theorem Block.choose_still (s : Block) (n : Nat) {b : Bool} : (s.choose n).2.still b = s.still b := by
  simp [Block.choose]

@[simp] theorem Block.issued_still (s : Block) (c pos : Nat) {b : Bool} : (s.issued c pos).still b = s.still b := by
  simp [Block.issued]

@[simp] theorem Block.performWrite_still (s : Block) (p slot off : Nat) (bs : List Byte) (ps : List Bool) {b : Bool} :
    (s.performWrite p slot off bs ps).still b = s.still b := by
  simp [Block.performWrite]

@[simp] theorem Block.adder_still (s : Block) (p : Nat) (h : Word) (off op ty new : Nat) (mark : Bool) {b : Bool} :
    (s.adder p h off op ty new mark).2.still b = s.still b := by
  unfold Block.adder
  split <;> simp

@[simp] theorem Block.bankWrite_still (s : Block) (u : Nat) (x : BankUnit) {b : Bool} :
    (s.bankWrite u x).still b = s.still b := by
  unfold Block.bankWrite
  extract_lets p
  split
  · rfl
  · simp
  · simp

/-! ### Firn units and their banks -/

@[simp] theorem Block.setFu_still (s : Block) (u : Nat) (x : FirnUnit) {b : Bool} : (s.setFu u x).still b = s.still b := by
  rfl

@[simp] theorem Block.modFu_still (s : Block) (u : Nat) (f : FirnUnit → FirnUnit) {b : Bool} :
    (s.modFu u f).still b = s.still b := by
  simp [Block.modFu]

@[simp] theorem Block.firnDrain_still (s : Block) (u n : Nat) {b : Bool} : (s.firnDrain u n).still b = s.still b := by
  simp [Block.firnDrain]

@[simp] theorem Block.firnDrainSome_still (s : Block) (u : Nat) {b : Bool} : (s.firnDrainSome u).still b = s.still b := by
  simp [Block.firnDrainSome]

@[simp] theorem Block.firnSettle_still (s : Block) {b : Bool} : (s.firnSettle).still b = s.still b := by
  simp [Block.firnSettle]

@[simp] theorem Block.performFar_still (s : Block) (k : Packet) {b : Bool} : (s.performFar k).2.still b = s.still b := by
  unfold Block.performFar
  (repeat' split) <;> simp

@[simp] theorem Block.reduce_still (s : Block) (p : Nat) (h : Word) (off op ty : Nat) (bs : List Byte) (mark : Nat → Bool) {b : Bool} :
    (s.reduce p h off op ty bs mark).still b = s.still b := by
  simp [Block.reduce]

@[simp] theorem Block.reduceTraffic_still (s : Block) (p : Nat) (h : Word) (off n hint : Nat) (narrow : Bool) :
    (s.reduceTraffic p h off n hint narrow).still false = s.still false := by
  unfold Block.reduceTraffic
  split <;> simp

@[simp] theorem Block.performReq_still (s : Block) (k : Packet) : (s.performReq k).2.still false = s.still false := by
  unfold Block.performReq
  dsimp only
  (repeat' split) <;> simp

/-! ### Repairs -/

@[simp] theorem Block.modStackErr_still (s : Block) (n : Nat) (f : StackErr → StackErr) {b : Bool} :
    (s.modStackErr n f).still b = s.still b := by
  rfl

@[simp] theorem Block.copyFrame_still (s : Block) (p : Nat) (h : Word) (o : Obj) (fr a b : Nat) :
    (s.copyFrame p h o fr a b).still false = s.still false := by
  simp [Block.copyFrame]

@[simp] theorem Block.flushFrame_still (s : Block) (p : Nat) (h : Word) (o : Obj) (fr n : Nat) :
    (s.flushFrame p h o fr n).still false = s.still false := by
  unfold Block.flushFrame
  exact (Block.each_still _ _ _ fun s x => Block.lineOut_still ..).trans rfl

@[simp] theorem Block.moveFrame_still (s : Block) (p : Nat) (h : Word) (fr n : Nat) :
    (s.moveFrame p h fr n).still false = s.still false := by
  unfold Block.moveFrame
  (repeat' split) <;> simp

@[simp] theorem Block.pick_still {α : Type} (s : Block) (l : List α) (d : α) {b : Bool} :
    (s.pick l d).2.still b = s.still b := by
  simp [Block.pick]

theorem Block.pick_some_still {α : Type} {s t : Block} {l : List α} {d x : α} {b : Bool} (h : s.pick l d = (x, t)) :
    t.still b = s.still b := by
  have e : t = (s.pick l d).2 := by rw [h]
  rw [e]
  exact s.pick_still l d

@[simp] theorem Block.moveKvPage_still (s : Block) (pn pid : Nat) {b : Bool} : (s.moveKvPage pn pid).still b = s.still b := by
  unfold Block.moveKvPage
  (repeat' split) <;> simp

@[simp] theorem Block.wakeSet_still (s : Block) (u : Nat) {b : Bool} : (s.wakeSet u).still b = s.still b := by
  simp [Block.wakeSet]

theorem Block.placeFirn_frame_still {s b t : Block} {pn : Nat} {p : Part} {slot pc unit k : Nat} {i : Bool}
    {u : Nat.below (motive := fun _ => Option Block) k}
    (h : Block.placeFirn._f s pn p slot pc unit (k + 1) ⟨some b, u⟩ = some t) : t.still i = b.still i := by
  delta Block.placeFirn._f at h
  conv at h => lhs; whnf
  split at h
  · cases h
  · extract_lets n pages before miss at h
    clear_value n pages before miss
    split at h
    · cases h
      exact Block.modObj_still ..
    · split at h
      · cases h
      · split at h
        · cases h
        · split at h
          next hg =>
          cases h
          simpa using Block.pick_some_still hg

theorem Block.placeFirn_still {s : Block} {pn : Nat} {p : Part} {slot pc unit n : Nat} {t : Block} {i : Bool}
    (h : s.placeFirn pn p slot pc unit n = some t) : t.still i = s.still i := by
  induction n generalizing t with
  | zero => cases h; rfl
  | succ k ih =>
    obtain ⟨u, e⟩ := s.placeFirn_succ pn p slot pc unit k
    cases hb : s.placeFirn pn p slot pc unit k with
    | none => simp [e, hb] at h
    | some b =>
      rw [e, hb] at h
      exact (Block.placeFirn_frame_still h).trans (ih hb)

@[simp] theorem Block.movePiece_still (s : Block) (pn slot pc : Nat) {b : Bool} :
    (s.movePiece pn slot pc).still b = s.still b := by
  unfold Block.movePiece
  split
  · split
    · rfl
    · extract_lets need units near
      split
      next v t hv =>
      have ht := Block.pick_some_still (b := b) hv
      split
      · exact ht
      · extract_lets bare
        cases hp : bare.placeFirn _ _ slot pc v 4 with
        | none => exact ht
        | some c =>
          have hc := Block.placeFirn_still (i := b) hp
          simp [hc, bare, ht]
  · rfl

@[simp] theorem Block.moveOut_still (s : Block) (n p : Nat) (h : Word) (off : Nat) :
    (s.moveOut n p h off).still false = s.still false := by
  unfold Block.moveOut
  (repeat' split) <;> simp

@[simp] theorem Block.retireFrame_still (s : Block) (n g p : Nat) {b : Bool} :
    (s.retireFrame n g p).still b = s.still b := by
  simp [Block.retireFrame]

@[simp] theorem Block.retireRow_still (s : Block) (n core bank row cause : Nat) (obj : Option (Nat × Word × Nat)) :
    (s.retireRow n core bank row cause obj).still false = s.still false := by
  unfold Block.retireRow
  extract_lets k used s1 e s2 s3 s4 s5 groups
  have h1 : s1.still false = s.still false := by simp [s1]
  have h2 : s2.still false = s1.still false := Block.still_env s1 _
  split
  · simp [s5, s4, s3, h2, h1]
  · have h := s2.pick_still groups 0 (b := false)
    generalize s2.pick groups 0 = r at h ⊢
    obtain ⟨g, t⟩ := r
    have ht : t.still false = s.still false := h.trans (h2.trans h1)
    cases obj <;> simp [ht]

@[simp] theorem Block.rowCorrected_still (s : Block) (n core bank row : Nat) (obj : Option (Nat × Word × Nat)) :
    (s.rowCorrected n core bank row obj).still false = s.still false := by
  simp [Block.rowCorrected]

@[simp] theorem Block.repairMet_still (s : Block) : (s.repairMet).still false = s.still false := by
  simp [Block.repairMet]

@[simp] theorem Block.perform_still (s : Block) (k : Packet) : (s.perform k).2.still false = s.still false := by
  simp [Block.perform]

/-! ### Requests that are performed -/

@[simp] theorem Block.performOwned_still (s : Block) (c q : Nat) {b : Bool} : (s.performOwned c q).still b = s.still b := by
  simp [Block.performOwned]

@[simp] theorem Block.request_still (s : Block) (o : Outstanding) (k : Packet) :
    (s.request o k).still false = s.still false := by
  unfold Block.request
  split
  · simp
  · split
    · simp
    · refine (Block.enqueue_still ..).trans ?_
      exact (Block.still_esk _ _ rfl rfl).trans (Block.freeTag_still ..)

@[simp] theorem Block.farRequest_still (s : Block) (p pid : Nat) (g : Page) (c : FarCopy) (e : Nat × Nat × Bool) :
    (s.farRequest p pid g c e).still false = s.still false := by
  simp [Block.farRequest]

@[simp] theorem Block.farSend_still (p pid n : Nat) (s : Block) :
    (s.farSend p pid n).still false = s.still false := by
  induction n generalizing s with
  | zero => rfl
  | succ n ih =>
    unfold Block.farSend
    split
    · rfl
    · split
      · rfl
      · rw [ih]
        simp

@[simp] theorem Block.farPump_still (s : Block) (p : Nat) : (s.farPump p).still false = s.still false := by
  simp [Block.farPump]

/-! ### Moves of pages -/

@[simp] theorem Block.freeIndex_still (s : Block) (n : Nat) (used : List Nat) {b : Bool} :
    (s.freeIndex n used).2.still b = s.still b := by
  rfl

@[simp] theorem Block.arenaSpot_still (s : Block) (p : Nat) (far : Bool) {b : Bool} :
    (s.arenaSpot p far).2.still b = s.still b := by
  unfold Block.arenaSpot
  dsimp only
  (repeat' split) <;> simp

@[simp] theorem Block.kvSpot_still (s : Block) (pn id layer k : Nat) (prev : Option Nat) {b : Bool} :
    (s.kvSpot pn id layer k prev).2.still b = s.still b := by
  unfold Block.kvSpot
  dsimp only
  (repeat' split) <;> simp

@[simp] theorem Block.tierSpot_still (s : Block) (p id layer k tier : Nat) (prev : Option Nat) {b : Bool} :
    (s.tierSpot p id layer k tier prev).2.still b = s.still b := by
  unfold Block.tierSpot
  (repeat' split) <;> simp [apply_ite Prod.snd]

@[simp] theorem Block.openMove_still (s : Block) (p slot tier layer k : Nat) {b : Bool} :
    (s.openMove p slot tier layer k).still b = s.still b := by
  unfold Block.openMove
  split
  · rfl
  next q _ =>
    extract_lets pid prev
    split
    · rfl
    next g _ =>
      split
      · rfl
      · have h := s.tierSpot_still p (seqId slot q) layer k tier prev (b := b)
        generalize s.tierSpot p (seqId slot q) layer k tier prev = r at h ⊢
        obtain ⟨_ | d, t⟩ := r
        · exact h
        · refine Eq.trans ?_ h
          simp

@[simp] theorem Block.openSeq_still (s : Block) (p slot : Nat) {b : Bool} : (s.openSeq p slot).still b = s.still b := by
  unfold Block.openSeq
  (repeat' split) <;> simp

/-! ### Replies -/

@[simp] theorem Block.boxData_still (s : Block) (ch : Chan) (ws : List Word) {b : Bool} :
    (s.boxData (chBack ch) ws).still b = s.still b :=
  loop_keeps_below (Block.still · b) (fun i s => s.wr (chBack ch + 4 * i) (ws.getD i 0)) 16
    (fun i s hi => Block.wr_still s _ (stillReg_chBack ch (by omega))) s

@[simp] theorem Block.chLed_still (s : Block) (ch : Chan) (f : Block → Nat → Block) {b : Bool}
    (h : ∀ s n, (f s n).still b = s.still b) : (s.chLed ch f).still b = s.still b := by
  unfold Block.chLed
  split
  · exact h _ _
  · rfl

@[simp] theorem Block.setBox_still (s : Block) (a : Nat) (m : Mbx) {b : Bool} : (s.setBox a m).still b = s.still b := by
  rfl

@[simp] theorem Block.writeReply_still (s : Block) (ch : Chan) (ws : List Word) (rest : List (List Word)) {b : Bool} :
    (s.writeReply ch ws rest).still b = s.still b := by
  unfold Block.writeReply
  simp [stillReg_chBack]

@[simp] theorem Block.pumpReply_still (s : Block) (ch : Chan) {b : Bool} : (s.pumpReply ch).still b = s.still b := by
  unfold Block.pumpReply
  split <;> simp

@[simp] theorem Block.reply_still (s : Block) (ch : Chan) (ws : List Word) {b : Bool} :
    (s.reply ch ws).still b = s.still b := by
  simp [Block.reply]

@[simp] theorem Block.replyLate_still (s : Block) (ch : Chan) (ws : List Word) {b : Bool} :
    (s.replyLate ch ws).still b = s.still b := by
  simp [Block.replyLate]

@[simp] theorem Block.settleArena_still (s : Block) (p k : Nat) {b : Bool} : (s.settleArena p k).still b = s.still b := by
  unfold Block.settleArena
  dsimp only
  (repeat' split) <;> simp

@[simp] theorem Block.settleSeq_still (s : Block) (p slot : Nat) {b : Bool} : (s.settleSeq p slot).still b = s.still b := by
  unfold Block.settleSeq
  (repeat' split) <;> simp

@[simp] theorem Block.openMoves_still (s : Block) (p : Nat) : (s.openMoves p).still false = s.still false := by
  simp [Block.openMoves]

@[simp] theorem pageZeroEffect_still (p pid : Nat) (s : Block) : (pageZeroEffect p pid s).still false = s.still false := by
  unfold pageZeroEffect
  split <;> simp

@[simp] theorem Block.drainSome_still (s : Block) (c : Nat) {b : Bool} : (s.drainSome c).still b = s.still b := by
  simp [Block.drainSome]

/-! ### Ends of all work -/

@[simp] theorem Block.writeBackAll_still (s : Block) : (s.writeBackAll).still false = s.still false := by
  simp [Block.writeBackAll]

@[simp] theorem Block.dropGrant_still (s : Block) (g : FarGrant) {b : Bool} : (s.dropGrant g).still b = s.still b := by
  unfold Block.dropGrant
  exact (Block.destroy_still ..).trans rfl

@[simp] theorem Block.progress_still (s : Block) (k n st stepNo : Nat) {b : Bool} :
    (s.progress k n st stepNo).still b = s.still b := by
  unfold Block.progress
  split <;> simp

@[simp] theorem Block.endReq_still (s : Block) (k n st stepNo : Nat) {b : Bool} :
    (s.endReq k n st stepNo).still b = s.still b := by
  unfold Block.endReq
  split <;> simp

/-! ### Nodes and routes -/

@[simp] theorem Block.arenaLost_still (s : Block) (n : Nat) {b : Bool} : (s.arenaLost n).still b = s.still b := by
  simp [Block.arenaLost]

@[simp] theorem Block.requestLost_still (s : Block) (t : Nat) {b : Bool} : (s.requestLost t).still b = s.still b := by
  unfold Block.requestLost
  split
  · rfl
  · unfold Block.answered
    split
    · exact (Block.moverAnswered_still ..).trans rfl
    · rw [if_neg (by decide)]
      exact (Block.failJob_still ..).trans rfl

@[simp] theorem Block.nodeDown_still (s : Block) (n cause : Nat) {b : Bool} : (s.nodeDown n cause).still b = s.still b := by
  unfold Block.nodeDown
  extract_lets l t1 t2
  have h1 : t1.still b = s.still b := by
    refine Block.each_still _ _ _ fun s e => ?_
    split
    · split <;> simp
    · rfl
  simpa [t2] using h1

@[simp] theorem Block.checkNodes_still (s : Block) (l : List Nat) (cause : Nat) {b : Bool} :
    (s.checkNodes l cause).still b = s.still b := by
  unfold Block.checkNodes
  refine Block.each_still _ _ _ fun s n => ?_
  split
  · rfl
  · split
    · rfl
    · exact (Block.nodeDown_still ..).trans rfl

@[simp] theorem Block.pumpAll_still (s : Block) {b : Bool} : (s.pumpAll).still b = s.still b := by
  simp [Block.pumpAll]

@[simp] theorem Block.tellFm_still (s : Block) {b : Bool} : (s.tellFm).still b = s.still b := by
  unfold Block.tellFm
  dsimp only
  (repeat' split) <;> simp

@[simp] theorem Block.tellPldm_still (s : Block) (code : Nat) (w : Word) {b : Bool} :
    (s.tellPldm code w).still b = s.still b := by
  rfl

@[simp] theorem Block.reroute_still (s : Block) (p : Nat) (q : Queued) {b : Bool} :
    (s.reroute p q).still b = s.still b := by
  unfold Block.reroute
  split
  · exact (Block.enqueue_still ..).trans rfl
  · simp

@[simp] theorem Block.creditsGone_still (s : Block) (p : Nat) {b : Bool} : (s.creditsGone p).still b = s.still b := by
  simp [Block.creditsGone]

/-! ### Partitions and Firn sets -/

@[simp] theorem Block.dropLedgers_still (s : Block) (p : Nat) {b : Bool} : (s.dropLedgers p).still b = s.still b := by
  simp [Block.dropLedgers]

@[simp] theorem Block.setGroups_still (s : Block) (q : Part) (st owner : Nat) {b : Bool} :
    (s.setGroups q st owner).still b = s.still b := by
  unfold Block.setGroups
  refine Block.each_still _ _ _ fun s n => Block.each_still _ _ _ fun s g => ?_
  simp

@[simp] theorem Block.setSetState_still (s : Block) (k v : Nat) {b : Bool} : (s.setSetState k v).still b = s.still b := by
  exact Block.wf_still _ _ _ _ (by simp)

@[simp] theorem Block.stopMove_still (s : Block) (p slot st : Nat) {b : Bool} :
    (s.stopMove p slot st).still b = s.still b := by
  unfold Block.stopMove
  (repeat' split) <;> simp

@[simp] theorem Block.raiseVtime_still (s : Block) (f d : Nat) {b : Bool} : (s.raiseVtime f d).still b = s.still b := by
  unfold Block.raiseVtime
  split
  · simp
  · rfl

@[simp] theorem Block.chargeClient_still (s : Block) (f cls ns weight : Nat) {b : Bool} :
    (s.chargeClient f cls ns weight).still b = s.still b := by
  simp [Block.chargeClient]

@[simp] theorem Block.charge_still (s : Block) (j cls ns : Nat) {b : Bool} : (s.charge j cls ns).still b = s.still b := by
  unfold Block.charge
  split <;> simp

@[simp] theorem Block.firnReport_still (s : Block) (u : Nat) (e : FirnEntry) (st : Nat) {b : Bool} :
    (s.firnReport u e st).still b = s.still b := by
  unfold Block.firnReport
  extract_lets s1 s2
  have h1 : s1.still b = s.still b := by simp [s1]
  have h2 : s2.still b = s.still b := by
    refine Eq.trans ?_ h1
    cases e <;> simp [s2]
  split
  · simp [h2]
  · split
    · exact h2
    · simp [h2]

@[simp] theorem Block.setFirnState_still (s : Block) (u v : Nat) {b : Bool} : (s.setFirnState u v).still b = s.still b := by
  simp [Block.setFirnState]

@[simp] theorem Block.firnEnd_still (s : Block) (u st : Nat) (discard : Bool) {b : Bool} :
    (s.firnEnd u st discard).still b = s.still b := by
  unfold Block.firnEnd
  (repeat' split) <;> simp

@[simp] theorem Block.firnRefuse_still (s : Block) (u st : Nat) {b : Bool} : (s.firnRefuse u st).still b = s.still b := by
  unfold Block.firnRefuse
  split <;> simp

@[simp] theorem Block.firnAbort_still (s : Block) (u st : Nat) (discard : Bool) {b : Bool} :
    (s.firnAbort u st discard).still b = s.still b := by
  simp [Block.firnAbort]

@[simp] theorem firnSetStoppedEffect_still (k : Nat) (s : Block) {b : Bool} :
    (firnSetStoppedEffect k s).still b = s.still b := by
  simp [firnSetStoppedEffect]

@[simp] theorem Block.dropHeld_still (s : Block) (f : Nat) {b : Bool} : (s.dropHeld f).still b = s.still b := by
  unfold Block.dropHeld
  refine Block.each_still _ _ _ fun s x => ?_
  (repeat' split) <;> simp

@[simp] theorem Block.setPartState_still (s : Block) (p v : Nat) {b : Bool} : (s.setPartState p v).still b = s.still b := by
  exact Block.wf_still _ _ _ _ (by simp)

@[simp] theorem Block.stopFirnSet_still (s : Block) (k : Nat) {b : Bool} : (s.stopFirnSet k).still b = s.still b := by
  simp [Block.stopFirnSet]

@[simp] theorem Block.stopPart_still (s : Block) (p : Nat) (q : Part) {b : Bool} :
    (s.stopPart p q).still b = s.still b := by
  unfold Block.stopPart
  refine (Block.each_still _ _ _ fun s k => ?_).trans ((Block.each_still _ _ _ fun s n => Block.each_still _ _ _ fun s g => ?_).trans ?_)
  · split <;> simp
  · split <;> simp
  · simp

@[simp] theorem Block.settleWrites_still (s : Block) {b : Bool} : (s.settleWrites).still b = s.still b := by
  unfold Block.settleWrites
  extract_lets s1 s2
  have h1 : s1.still b = s.still b := by simp [s1]
  have h2 : s2.still b = s1.still b := by simp [s2]
  exact (Block.forwardLag_still ..).trans ((Block.still_clusters ..).trans (h2.trans h1))

@[simp] theorem Block.endAllWork_still (s : Block) : (s.endAllWork).still false = s.still false := by
  simp [Block.endAllWork]

end Sys2Proof.Machine
end

section
/-! Warm starts (R409, R418, R420, R423, R429). -/

namespace Sys2Proof.Machine

/-! ### What the steps of a warm start keep -/

/-- Registers that the steps of a warm start leave after its cause is set: the cause, the request to keep, the state in force, the
cause of ROOT's fault, and those of Firn units. -/
def warmKeeps (a : Nat) : Prop := a = 0x104 ∨ a = 0x10C ∨ a = 0x200 ∨ a = 0x00601010 ∨ 0x04000000 ≤ a

/-- A start without what its steps read and raise. -/
def Start.lasts (s : Start) : Start := { s with settle := 0, recordBytes := [], pllOn := false, oldBreach := false }

/-- A block with what the steps of a warm start change as it is in another. -/
def Block.warmBack (t s : Block) : Block :=
  { t with regs := s.regs, led := s.led, ice := s.ice, clusters := s.clusters, tiles := s.tiles, err := s.err, start := s.start,
           env := s.env, esk := s.esk }

/-- What the steps of a warm start keep. -/
structure Block.warmKept (t s : Block) : Prop where
  rest : t.warmBack s = s
  start : t.start.lasts = s.start.lasts
  stored : t.ice.stored = s.ice.stored
  regs : ∀ a, warmKeeps a → t.rg a = s.rg a
  warm : t.bit MOR_START 4 = s.bit MOR_START 4
  breach : s.breach = true → t.breach = true

theorem Block.warmKept.refl (s : Block) : s.warmKept s := ⟨rfl, rfl, rfl, fun _ _ => rfl, rfl, id⟩

theorem Block.warmKept.trans {s t u : Block} (h : u.warmKept t) (h' : t.warmKept s) : u.warmKept s := by
  obtain ⟨hr, hs, hi, hg, hw, hb⟩ := h
  obtain ⟨hr', hs', hi', hg', hw', hb'⟩ := h'
  exact ⟨(congrArg (fun b : Block => b.warmBack s) hr :).trans hr', hs.trans hs', hi.trans hi',
    fun a ha => (hg a ha).trans (hg' a ha), hw.trans hw', fun h => hb (hb' h)⟩

theorem Block.warmKept.jobs {s t : Block} (h : t.warmKept s) : t.jobs = s.jobs := (congrArg Block.jobs h.rest :)

theorem loop_warmKept {s : Block} (n : Nat) (f : Nat → Block → Block)
    (h : ∀ i b, i < n → b.jobs = s.jobs → (f i b).warmKept b) : (loop n f s).warmKept s := by
  induction n with
  | zero => exact .refl s
  | succ n ih =>
    have hn := ih fun i b hi => h i b (by omega)
    exact (h n _ (by omega) hn.jobs).trans hn

theorem each_warmKept {α : Type} {s : Block} (l : List α) (f : Block → α → Block) (h : ∀ b x, (f b x).warmKept b) :
    (s.each l f).warmKept s := by
  unfold Block.each
  induction l generalizing s with
  | nil => exact .refl s
  | cons x xs ih => exact ih.trans (h s x)

/-- A register that is none of those that a warm start speaks of. -/
def warmFree (a : Nat) : Prop := ¬warmKeeps a ∧ a ≠ 0x100 ∧ a ≠ 0x500000

theorem Block.wr_warmKept (s : Block) {a : Nat} (v : Word) (ha : warmFree a) : (s.wr a v).warmKept s := by
  obtain ⟨hk, hm, hl⟩ := ha
  exact ⟨rfl, rfl, rfl, fun b hb => Block.rg_wr_other _ _ fun e => hk (e ▸ hb),
    congrArg (fun w : Word => w.bit 4) (Block.rg_wr_other s v (Ne.symm hm)),
    (congrArg (fun w : Word => w.bit 0) (Block.rg_wr_other s v (Ne.symm hl))).trans⟩

theorem Block.wf_warmKept (s : Block) {a : Nat} (hi lo v : Nat) (ha : warmFree a) : (s.wf a hi lo v).warmKept s :=
  s.wr_warmKept _ ha

theorem Block.wb_warmKept (s : Block) {a : Nat} (i : Nat) (v : Bool) (ha : warmFree a) : (s.wb a i v).warmKept s :=
  s.wr_warmKept _ ha

theorem warmFree_of_mem {a : Nat} (h : 0x110 ≤ a) (h' : a < 0x04000000) (h2 : a ≠ 0x200) (h3 : a ≠ 0x00601010) (h4 : a ≠ 0x500000) :
    warmFree a := by
  unfold warmFree warmKeeps
  omega

theorem Block.event_warmKept (s : Block) (src ev : Nat) (d : List Word) : (s.event src ev d).warmKept s := by
  have hd : ∀ a, a ≠ ICE_DROPPED → (s.event src ev d).rg a = s.rg a := fun a ha => Block.rg_event _ _ _ _ ha
  have e : ICE_DROPPED = 0x0040001C := rfl
  refine ⟨by simp [Block.warmBack], by simp, by simp, fun a ha => hd a ?_, congrArg (fun w : Word => w.bit 4) (hd _ (by decide)),
    (congrArg (fun w : Word => w.bit 0) (hd LDG_STATUS (by decide))).trans⟩
  unfold warmKeeps at ha
  omega

theorem Block.breach_led1 (s : Block) (n : Nat) (m : LedgerMove) (h : s.breach = true) : (s.led1 n m).breach = true := by
  unfold Block.led1
  split
  · exact h
  · have he : (s.breachEvent n 0 [wOfInt m.free, wOfInt m.held]).breach = true :=
      (congrArg (fun w : Word => w.bit 0) (Block.rg_event _ _ _ _ (by decide))).trans h
    unfold Block.raiseBreach Block.breachMark
    obtain ⟨b, hb⟩ : ∃ b, b = s.breachEvent n 0 [wOfInt m.free, wOfInt m.held] := ⟨_, rfl⟩
    rw [← hb] at he ⊢
    exact (congrArg Block.breach (if_pos he)).trans he

theorem Block.led1_warmKept (s : Block) (n : Nat) (m : LedgerMove) : (s.led1 n m).warmKept s := by
  have hd : ∀ a, a ≠ ICE_DROPPED → a ≠ LDG_STATUS → (s.led1 n m).rg a = s.rg a := fun a h h' => Block.rg_led1 _ _ _ h h'
  have e : ICE_DROPPED = 0x0040001C := rfl
  have e' : LDG_STATUS = 0x00500000 := rfl
  refine ⟨by simp [Block.warmBack], ?_, by simp, fun a ha => hd a ?_ ?_,
    congrArg (fun w : Word => w.bit 4) (hd _ (by decide) (by decide)), s.breach_led1 n m⟩
  · exact (congrArg Start.lasts (s.led1_steady n m) :)
  all_goals
    unfold warmKeeps at ha
    omega

/-! ### Tiles that fail their test -/

theorem warmFree_SRC {d k : Nat} (hd : d < 4) (hk : k < 0x400000) : warmFree (SRC d k) := by
  have e : SRC d k = 0x01000000 + d * 0x400000 + k := rfl
  exact warmFree_of_mem (by omega) (by omega) (by omega) (by omega) (by omega)

theorem warmFree_FLOE {t k : Nat} (ht : t < 256) (hk : k < 0x4000) : warmFree (FLOE t k) := by
  have e : FLOE t k = 0x01000000 + t / 8 / 8 * 0x400000 + (0x100000 + t / 8 % 8 * 0x40000 + (0x8000 + t % 8 * 0x4000 + k)) := rfl
  exact warmFree_of_mem (by omega) (by omega) (by omega) (by omega) (by omega)

theorem Block.retirePhys_warmKept (s : Block) {d phys : Nat} (hd : d < 4) (hp : phys < 128) : (s.retirePhys d phys).warmKept s := by
  unfold Block.retirePhys
  split
  next h =>
    have he : SRC_TILE_RETIRED_LO d + 4 * (phys / 32) = SRC d (0x310 + 4 * (phys / 32)) := by
      show 0x01000000 + d * 0x400000 + 0x310 + 4 * (phys / 32) = 0x01000000 + d * 0x400000 + (0x310 + 4 * (phys / 32))
      omega
    rw [he]
    exact s.wf_warmKept _ _ _ (warmFree_SRC hd (by omega))
  next =>
    have hn : warmFree (SRC_SPARE d (phys - 64)) := warmFree_SRC hd (by omega)
    exact (Block.wf_warmKept _ _ _ _ hn).trans (s.wf_warmKept _ _ _ hn)

theorem Block.modCl_warmKept (s : Block) (c : Nat) (f : Cluster → Cluster) : (s.modCl c f).warmKept s :=
  ⟨rfl, rfl, rfl, fun _ _ => rfl, rfl, id⟩

theorem Block.clusterOut_warmKept {s : Block} (hs : s.jobs = []) {c : Nat} (hc : c < 32) : (s.clusterOut c).warmKept s := by
  unfold Block.clusterOut
  split
  · exact .refl s
  · dsimp only
    have ho : warmFree (SRC_CLUSTER_OOS (c / 8)) := warmFree_SRC (by omega) (by omega)
    have h1 := (Block.modCl_warmKept _ c fun k => { k with state := .outOfService }).trans
      (s.wb_warmKept (c % 8) true ho)
    obtain ⟨b, hb⟩ : ∃ b, b = (s.wb (SRC_CLUSTER_OOS (c / 8)) (c % 8) true).modCl c fun k => { k with state := .outOfService } :=
      ⟨_, rfl⟩
    rw [← hb] at h1 ⊢
    have h2 : (b.ledShrink (0x80 + c) 1536).warmKept s := (b.led1_warmKept _ _).trans h1
    rw [h2.jobs.trans hs]
    exact h2

theorem Block.modTile_warmKept (s : Block) (t : Nat) (f : Tile → Tile) : (s.modTile t f).warmKept s :=
  ⟨rfl, rfl, rfl, fun _ _ => rfl, rfl, id⟩

theorem Block.setErr_warmKept (s : Block) (e : Errors) : ({ s with err := e } : Block).warmKept s :=
  ⟨rfl, rfl, rfl, fun _ _ => rfl, rfl, id⟩

theorem tileRemapEffect_warmKept {s : Block} (hs : s.jobs = []) {t : Nat} (ht : t < 256) : (tileRemapEffect t s).warmKept s := by
  have hd : t / 64 < 4 := by omega
  have hid : warmFree (FLOE_ID t) := warmFree_FLOE ht (by omega)
  have hep : warmFree (FLOE_EPOCH t) := warmFree_FLOE ht (by omega)
  have hst : warmFree (FLOE_STATE t) := warmFree_FLOE ht (by omega)
  unfold tileRemapEffect
  dsimp only
  have h1 := s.retirePhys_warmKept hd (s.fld_FLOE_ID_lt t)
  obtain ⟨p, hp⟩ : ∃ p, p = s.retirePhys (t / 64) (s.fld (FLOE_ID t) 14 8) := ⟨_, rfl⟩
  rw [← hp] at h1 ⊢
  have h2 : (p.tileCleared t).warmKept s := ((Block.modTile_warmKept _ _ _).trans (p.setErr_warmKept _)).trans h1
  obtain ⟨b, hb⟩ : ∃ b, b = p.tileCleared t := ⟨_, rfl⟩
  rw [show ({ p with err := { p.err with tileCause := kdel p.err.tileCause t } } : Block).modTile t (fun _ => Tile.reset) = b from
    hb.symm]
  rw [← hb] at h2
  split
  next k hk =>
    have hk4 : k < 4 := List.mem_range.mp (List.mem_of_find?_eq_some hk)
    have hsp : warmFree (SRC_SPARE (t / 64) k) := warmFree_SRC hd (by omega)
    exact (Block.event_warmKept _ _ _ _).trans <| (Block.wf_warmKept _ _ _ _ hst).trans <| (Block.wf_warmKept _ _ _ _ hep).trans <|
      (Block.wf_warmKept _ _ _ _ hid).trans <| (Block.wf_warmKept _ _ _ _ hid).trans <| (Block.wf_warmKept _ _ _ _ hsp).trans <|
      (Block.wf_warmKept _ _ _ _ hsp).trans h2
  next =>
    have h3 := (b.wf_warmKept 2 0 0 hst).trans h2
    have h4 := fun src ev d => (Block.event_warmKept _ src ev d).trans h3
    exact (Block.clusterOut_warmKept ((h4 _ _ _).jobs.trans hs) (by omega)).trans (h4 _ _ _)

theorem Block.retireTested_warmKept {s : Block} (hs : s.jobs = []) (cold : Bool) {t : Nat} (ht : t < 256) :
    (s.retireTested cold t).warmKept s := by
  have hep : warmFree (FLOE_EPOCH t) := warmFree_FLOE ht (by omega)
  have hst : warmFree (FLOE_STATE t) := warmFree_FLOE ht (by omega)
  unfold Block.retireTested
  dsimp only
  have h0 := s.setErr_warmKept { s.err with tileCause := kput s.err.tileCause t 0 }
  have h1 := (tileRemapEffect_warmKept (h0.jobs.trans hs) ht).trans h0
  obtain ⟨b, hb⟩ : ∃ b, b = tileRemapEffect t { s with err := { s.err with tileCause := kput s.err.tileCause t 0 } } := ⟨_, rfl⟩
  rw [← hb] at h1 ⊢
  have h2 : (if b.tileState t = 2 then b.wf (FLOE_STATE t) 2 0 1 else b).warmKept s := by
    split
    · exact (b.wf_warmKept 2 0 1 hst).trans h1
    · exact h1
  split
  · exact (Block.wf_warmKept _ 15 0 1 hep).trans h2
  · exact h2

theorem Block.testTiles_warmKept {s : Block} (hs : s.jobs = []) (cold : Bool) : (s.testTiles cold).warmKept s := by
  unfold Block.testTiles
  refine loop_warmKept _ _ fun d b hd hb => ?_
  dsimp only
  have h1 : (loop 4 (fun k s => if s.badPhys d (64 + k) && !s.bit (SRC_SPARE d k) 8 then s.wb (SRC_SPARE d k) 9 true else s)
      b).warmKept b := by
    refine loop_warmKept _ _ fun k x hk _ => ?_
    split
    · exact x.wf_warmKept _ _ _ (warmFree_SRC hd (by omega))
    · exact .refl x
  refine .trans (loop_warmKept _ _ fun i x hi hx => ?_) h1
  split
  · exact Block.retireTested_warmKept (hx.trans (h1.jobs.trans (hb.trans hs))) _ (by omega)
  · exact .refl x

/-! ### The records read, and the phases that follow -/

theorem warmFree_ESK {p k : Nat} (hp : p < 16) (hk : k < 0x80000) : warmFree (ESK p k) := by
  have e : ESK p k = 0x00800000 + p * 0x80000 + k := rfl
  exact warmFree_of_mem (by omega) (by omega) (by omega) (by omega) (by omega)

theorem warmFree_of_decide {a : Nat} (h : 0x110 ≤ a ∧ a < 0x04000000 ∧ a ≠ 0x200 ∧ a ≠ 0x00601010 ∧ a ≠ 0x500000) : warmFree a :=
  warmFree_of_mem h.1 h.2.1 h.2.2.1 h.2.2.2.1 h.2.2.2.2

theorem Block.loadRecords_warmKept (s : Block) (cold : Bool) (old : Nat) : (s.loadRecords cold old).warmKept s := by
  unfold Block.loadRecords
  extract_lets r spread src s1 s2 s3 s4 s5 s6
  have h1 : s1.warmKept s := ⟨rfl, rfl, rfl, fun _ _ => rfl, rfl, id⟩
  have h2 : s2.warmKept s := (s1.wr_warmKept _ (warmFree_of_decide (by decide))).trans h1
  have h3 : s3.warmKept s := (each_warmKept _ _ fun b x => b.event_warmKept ..).trans h2
  have h4 : s4.warmKept s := (Block.wf_warmKept _ _ _ _ (warmFree_of_decide (by decide))).trans <|
    (s3.wf_warmKept _ _ _ (warmFree_of_decide (by decide))).trans h3
  have h5 : s5.warmKept s := by
    show (if _ then s4 else _ : Block).warmKept _
    split
    · exact h4
    · exact (s4.event_warmKept ..).trans h4
  have h6 : s6.warmKept s := by
    show (match r.body 6 with | some b => _ | none => s5 : Block).warmKept _
    split
    · exact (loop_warmKept _ _ fun p b hp _ => b.wf_warmKept _ _ _ (warmFree_ESK hp (by omega))).trans h5
    · exact h5
  split
  · split
    · exact (s6.wf_warmKept _ _ _ (warmFree_of_decide (by decide))).trans h6
    · exact h6
  · exact h6

theorem Block.setPhase_warmKept (s : Block) (v : Nat) : (s.setPhase v).warmKept s := by
  have hg : ∀ a, a ≠ MOR_START → (s.setPhase v).rg a = s.rg a := fun a h => Block.rg_wf_other _ _ _ _ h
  have e : MOR_START = 0x100 := rfl
  refine ⟨rfl, rfl, rfl, fun a ha => hg a ?_, s.bit_setPhase v, (congrArg (fun w : Word => w.bit 0) (hg LDG_STATUS (by decide))).trans⟩
  unfold warmKeeps at ha
  omega

theorem Block.stopStart_warmKept (s : Block) : s.stopStart.warmKept s := by
  obtain ⟨hf, hi⟩ := s.stopStart_frame
  have e : MOR_START = 0x100 := rfl
  have e' : ICE_DROPPED = 0x0040001C := rfl
  refine ⟨(congrArg (fun b : Block => b.warmBack s) hf :), (congrArg (fun b : Block => b.start.lasts) hf :), hi,
    fun a ha => s.rg_stopStart ?_ ?_, s.bit_stopStart,
    (congrArg (fun w : Word => w.bit 0) (s.rg_stopStart (a := LDG_STATUS) (by decide) (by decide))).trans⟩
  all_goals
    unfold warmKeeps at ha
    omega

theorem Block.startPlls_warmKept (s : Block) : s.startPlls.warmKept s := by
  obtain ⟨-, hg, hr⟩ := s.pllsRun.trainPorts_trained 16
  have hp : s.pllsRun.warmKept s := by
    refine .trans (Block.setPhase_warmKept _ _) (.trans (Block.wb_warmKept _ _ _ (warmFree_of_decide (by decide))) ?_)
    exact .trans (Block.wr_warmKept _ _ (warmFree_of_decide (by decide))) ⟨rfl, rfl, rfl, fun _ _ => rfl, rfl, id⟩
  rw [s.startPlls_eq]
  obtain ⟨b, hb⟩ : ∃ b, b = s.pllsRun := ⟨_, rfl⟩
  rw [← hb] at hg hr hp ⊢
  obtain ⟨c, hc⟩ : ∃ c, c = b.trainPorts 16 := ⟨_, rfl⟩
  rw [← hc] at hg hr ⊢
  have e : ESK 16 0 = 0x01000000 := rfl
  have hcb : c.warmKept b := by
    refine ⟨(congrArg (fun b' : Block => b'.warmBack b) hr :), (congrArg (fun b : Block => b.start.lasts) hr :),
      (congrArg (fun b : Block => b.ice.stored) hr :), fun a ha => hg a ?_, congrArg (fun w : Word => w.bit 4) (hg MOR_START (by decide)),
      (congrArg (fun w : Word => w.bit 0) (hg LDG_STATUS (by decide))).trans⟩
    unfold warmKeeps at ha
    omega
  have hga : c.goAwait.warmKept c := by
    unfold Block.goAwait
    split
    · exact c.setPhase_warmKept 7
    · exact .refl c
  exact hga.trans (hcb.trans hp)

theorem Block.msix_warmKept (s : Block) (f v : Nat) : (s.msix f v).warmKept s := ⟨rfl, rfl, rfl, fun _ _ => rfl, rfl, id⟩

theorem Block.bootRecords_warmKept {s : Block} (hs : s.jobs = []) (cold : Bool) (old : Nat) : (s.bootRecords cold old).warmKept s := by
  have h1 := s.loadRecords_warmKept cold old
  have h2 := (Block.testTiles_warmKept (h1.jobs.trans hs) cold).trans h1
  unfold Block.bootRecords
  dsimp only
  split
  · exact (Block.msix_warmKept _ _ _).trans ((Block.startPlls_warmKept _).trans h2)
  · split
    · exact (Block.stopStart_warmKept _).trans h2
    · exact (Block.setPhase_warmKept _ _).trans h2

/-! ### A warm start from its cause on -/

theorem Block.readFuses_trust (s : Block) (n : Nat) : ∃ x, (s.readFuses n).trust = { s.trust with seed := x } := by
  unfold Block.readFuses
  extract_lets f b1 tr b2 b3 id b4
  have h4 : b4.trust = b3.trust := loop_keeps Block.trust _ (fun k b => by simp) 8 b3
  have h3 : b3.trust = b2.trust := loop_keeps Block.trust _ (fun k b => by simp) 8 b2
  have h2 : b2.trust = { s.trust with seed := if n = 4 then [] else f.idSeed } := by simp [b2, tr]
  have h5 : (b4.wf MOR_ROM_VERSION 15 0 f.romVersion).trust = b4.trust := by simp
  exact ⟨_, h5.trans (h4.trans (h3.trans h2))⟩

theorem Block.bootHead_keys (s : Block) (cold : Bool) (cause n : Nat) : (s.bootHead cold cause n).trust.keys = s.trust.keys := by
  have hbs := s.startCause_frame cold cause
  unfold Block.bootHead
  obtain ⟨b, hb⟩ : ∃ b, b = s.startCause cold cause := ⟨_, rfl⟩
  rw [← hb] at hbs ⊢
  obtain ⟨x, hx⟩ := b.readFuses_trust n
  obtain ⟨c, hc⟩ : ∃ c, c = b.readFuses n := ⟨_, rfl⟩
  rw [← hc] at hx ⊢
  have h1 : c.iceUnscanned.trust.keys = c.trust.keys := rfl
  have h2 : c.trust.keys = b.trust.keys := (congrArg Trust.keys hx :)
  have h3 : b.trust.keys = s.trust.keys := (congrArg (fun b : Block => b.trust.keys) hbs :)
  exact h1.trans (h2.trans h3)

/-- The registers that a start of a cause leaves, but the cause and the state in force. -/
def causeKeeps (a : Nat) : Prop := a = 0x10C ∨ a = 0x00601010 ∨ 0x04000000 ≤ a

/-- What a warm start from its cause on leaves. -/
structure Block.warmBooted (t s : Block) (cause : Nat) : Prop where
  cause : t.fld MOR_RESET_CAUSE 3 0 = cause
  warm : t.bit MOR_START 4 = true
  rest : { t.warmBack s with trust := s.trust } = s
  fuses : t.trust.fuses = s.trust.fuses
  keys : t.trust.keys = s.trust.keys
  start : t.start.lasts = s.start.lasts
  perm : t.ice.perm = s.ice.perm
  ring : t.ice.ring = s.ice.ring
  regs : ∀ a, causeKeeps a → t.rg a = s.rg a
  breach : s.breach = true → t.breach = true

theorem Block.boot_warmBooted {s : Block} (hs : s.jobs = []) {cause n : Nat} (hc : cause < 16) (hn : n < 8) (old : Nat) :
    (s.boot false cause n old).warmBooted s cause := by
  obtain ⟨hf, hfuse, hice⟩ := s.bootHead_frame false cause n
  obtain ⟨-, hwarm, hcause, -, -⟩ := s.bootHead_start false n hc hn
  have hkeys := s.bootHead_keys false cause n
  have hg : ∀ a, 0x300 ≤ a → a ≠ PWR_STATUS → (s.bootHead false cause n).rg a = s.rg a := fun a => s.rg_bootHead false cause n
  have hcfg : (s.bootHead false cause n).rg MOR_WARM_CFG = s.rg MOR_WARM_CFG :=
    (s.rg_bootHead_startCause false cause n (by decide)).trans (s.rg_startCause false cause (by decide) (by decide) (by decide))
  rw [s.boot_eq]
  obtain ⟨b, hb⟩ : ∃ b, b = s.bootHead false cause n := ⟨_, rfl⟩
  rw [← hb] at hf hfuse hice hwarm hcause hkeys hg hcfg ⊢
  have hjobs : b.jobs = [] := (congrArg Block.jobs hf :).trans hs
  have hk : ∃ t, t = (if b.ice.hold then b else b.bootRecords false old) ∧ t.warmKept b := by
    refine ⟨_, rfl, ?_⟩
    split
    · exact .refl b
    · exact Block.bootRecords_warmKept hjobs false old
  obtain ⟨t, ht, hrest, hstart, hstored, hregs, hw, hbr⟩ := hk
  rw [← ht]
  have hbr' : b.breach = s.breach := congrArg (fun w : Word => w.bit 0) (hg LDG_STATUS (by decide) (by decide))
  have hcause' := hregs MOR_RESET_CAUSE (Or.inl rfl)
  have htrust : t.trust = b.trust := (congrArg Block.trust hrest :)
  refine ⟨(congrArg (fun w : Word => w.fld 3 0) hcause').trans hcause, hw.trans hwarm, ?_, (congrArg Trust.fuses htrust :).trans hfuse,
    (congrArg Trust.keys htrust :).trans hkeys, hstart.trans (congrArg (fun x : Block => x.start.lasts) hf :), ?_, ?_, fun a ha => ?_,
    fun h => hbr (hbr'.trans h)⟩
  · exact (congrArg (fun x : Block => { x.warmBack s with trust := s.trust }) hrest :).trans
      (congrArg (fun x : Block => x.warmBack s) hf :)
  · exact (congrArg IceCore.perm hstored :).trans (congrArg IceCore.perm hice :)
  · exact (congrArg IceCore.ring hstored :).trans (congrArg IceCore.ring hice :)
  · have e : PWR_STATUS = 0x00200008 := rfl
    have e' : MOR_WARM_CFG = 0x10C := rfl
    refine (hregs a ?_).trans ?_
    · unfold causeKeeps at ha
      unfold warmKeeps
      omega
    · obtain rfl | ha := ha
      · exact hcfg
      · exact hg a (by omega) (by omega)

end Sys2Proof.Machine
end

section
/-! What a warm start clears, and the warm starts themselves (R409, R418, R420, R423, R429). -/

namespace Sys2Proof.Machine

/-! ### What work does before a warm start -/

/-- A block that asks a warm start to keep what is in memory, or not. -/
def Block.keeping (s : Block) (k : Bool) : Block := { s with start := { s.start with keepReq := k } }

/-- A block whose work has ended and whose lines are written back, as a warm start does first. -/
def Block.warmWork (s : Block) : Block :=
  let keep := s.bit MOR_WARM_CFG 0 && (s.fw.loaded || s.start.keepReq)
  let s := s.keeping keep
  let s := (s.settleWrites).endAllWork
  let s := if keep then s.writeBackAll else s
  s.each s.esk.grants fun s g => s.dropGrant g

theorem Block.warmStart_eq (s : Block) (c : Nat) :
    s.warmStart c = (s.warmWork.warmClear (decide (5 ≤ c))).boot false c s.lcState s.limitW := rfl

theorem Block.warmWork_still (s : Block) : ∃ k, s.warmWork.still false = (s.keeping k).still false := by
  refine ⟨s.bit MOR_WARM_CFG 0 && (s.fw.loaded || s.start.keepReq), ?_⟩
  unfold Block.warmWork
  extract_lets k s1 s2 s3
  have h2 : s2.still false = s1.still false := by simp [s2]
  have h3 : s3.still false = s2.still false := by
    show (if k then s2.writeBackAll else s2 : Block).still false = _
    split
    · exact Block.writeBackAll_still s2
    · rfl
  exact (Block.each_still _ _ _ fun s g => Block.dropGrant_still ..).trans (h3.trans h2)

/-! ### What a warm start clears -/

/-- A block after the fields that no warm start keeps. -/
def Block.warmReset (s : Block) (internal : Bool) : Block :=
  let z := State.reset.blk
  let keepFn (x : Fn) : Fn := { Fn.reset with busMaster := x.busMaster, ats := x.ats }
  let led : Tbl Ledger := if s.breach then s.led else []
  { s with
    regs := keepRegs (warmMask internal) s.regs, latches := z.latches, mbx := [],
    fns := if internal then (kmap s.fns fun _ x => keepFn x).filter fun e => e.2 != Fn.reset else [],
    led := led,
    fw := { z.fw with prior := if s.fw.loaded then (keys s.fw.cores).map fun n => (n, s.fld (RIME_SCHEMA n) 15 0) else s.fw.prior },
    trust := { z.trust with fuses := s.trust.fuses }, clk := z.clk,
    err := { s.err with refetches := [], tileCause := [] },
    jobs := [], vOwed := [], sems := [], clusters := [], tiles := [], msc := [], firn := [], reqs := [], esk := z.esk,
    snow := kmap s.snow fun _ w => w.afterStart, serve := kmap s.serve fun _ v => v.afterStart,
    start := { s.start with
      saved := if s.fw.loaded then s.saveTables else s.start.saved, pllOn := internal && s.start.pllOn,
      linkUp := internal && s.start.linkUp, refStopped := !s.fw.loaded && s.start.refStopped,
      mustDiscard := false, oldBreach := s.breach } }

/-- A block with fresh ledgers, but in breach. -/
def Block.warmLedgers (s : Block) (internal : Bool) : Block :=
  if s.breach then s.warmReset internal else (s.warmReset internal).freshLedgers

theorem Block.warmClear_eq (s : Block) (internal : Bool) :
    s.warmClear internal = (s.warmLedgers internal).keepOff.raiseEpochs := rfl

theorem Block.ledRenew_frame (s : Block) (n k : Nat) (x : Tbl Ledger) : { s.ledRenew n k with led := x } = { s with led := x } := rfl

theorem Block.freshLedgers_frame (s : Block) : { s.freshLedgers with led := s.led } = s := by
  unfold Block.freshLedgers
  extract_lets s1
  have h1 : { s1 with led := s.led } = s :=
    loop_keeps (fun b : Block => { b with led := s.led }) _ (fun c b => by split <;> rfl) 32 s
  clear_value s1
  refine Eq.trans ?_ h1
  exact loop_keeps (fun b : Block => { b with led := s.led }) _ (fun i b => Block.ledRenew_frame ..) 16 s1

theorem Block.warmLedgers_frame (s : Block) (i : Bool) : { s.warmLedgers i with led := (s.warmReset i).led } = s.warmReset i := by
  unfold Block.warmLedgers
  split
  · rfl
  · exact Block.freshLedgers_frame _

/-- Registers beside the states of tiles. -/
theorem Block.keepOff_spec (s : Block) :
    (∀ a, (∀ t < 256, a ≠ FLOE_STATE t) → s.keepOff.rg a = s.rg a) ∧ { s.keepOff with regs := s.regs, clusters := s.clusters } = s := by
  unfold Block.keepOff
  extract_lets s1
  have h1 : s1.regs = s.regs := loop_keeps Block.regs _ (fun c b => by split <;> rfl) 32 s
  have f1 : { s1 with regs := s.regs, clusters := s.clusters } = s :=
    loop_keeps (fun b : Block => { b with regs := s.regs, clusters := s.clusters }) _ (fun c b => by split <;> rfl) 32 s
  clear_value s1
  refine ⟨fun a ha => ?_, ?_⟩
  · refine (loop_keeps_below (fun b : Block => b.rg a) _ 256 (fun t b ht => ?_) s1).trans (Block.rg_of_regs h1 a)
    split
    · exact Block.rg_wf_other _ _ _ _ (ha t ht)
    · rfl
  · refine (loop_keeps (fun b : Block => { b with regs := s.regs, clusters := s.clusters }) _ (fun t b => ?_) 256 s1).trans f1
    split <;> simp

/-! ### Epochs -/

/-- A field of a register raised as an epoch. -/
def Block.raised (s : Block) (a hi lo : Nat) : Block := s.wf a hi lo (nextEpoch (s.fld a hi lo))

/-- The epochs of Firn units raised, up to a number. -/
def Block.unitsRaised (s : Block) (n : Nat) : Block := loop n (fun u s => s.raised (FIRN_EPOCH u) 15 0) s

theorem FIRN_EPOCH_inj {u v : Nat} (h : u ≠ v) : FIRN_EPOCH u ≠ FIRN_EPOCH v := by
  have e : ∀ u, FIRN_EPOCH u = 0x04000000 + u * 0x1000 + 4 := fun _ => rfl
  rw [e, e]
  omega

theorem Block.unitsRaised_spec (s : Block) (n : Nat) :
    (∀ u, (s.unitsRaised n).fld (FIRN_EPOCH u) 15 0 =
      if u < n then nextEpoch (s.fld (FIRN_EPOCH u) 15 0) else s.fld (FIRN_EPOCH u) 15 0) ∧
    (∀ a, (∀ u, a ≠ FIRN_EPOCH u) → (s.unitsRaised n).rg a = s.rg a) := by
  induction n with
  | zero => exact ⟨fun u => rfl, fun _ _ => rfl⟩
  | succ n ih =>
    obtain ⟨h1, h2⟩ := ih
    have hstep : s.unitsRaised (n + 1) = (s.unitsRaised n).raised (FIRN_EPOCH n) 15 0 := rfl
    obtain ⟨b, hb⟩ : ∃ b, b = s.unitsRaised n := ⟨_, rfl⟩
    rw [hstep]
    rw [← hb] at h1 h2 ⊢
    refine ⟨fun u => ?_, fun a ha => (Block.rg_wf_other _ _ _ _ (ha n)).trans (h2 a ha)⟩
    by_cases hu : u = n
    · subst hu
      have hv := h1 u
      rw [if_neg (by omega)] at hv
      rw [if_pos (by omega)]
      have hlt : b.fld (FIRN_EPOCH u) 15 0 < 65536 := Word.fld_lt _ _ _
      refine (Block.fld_wf_same _ _ _ (by omega) (by omega)).trans ?_
      exact (Nat.mod_eq_of_lt (nextEpoch_lt hlt)).trans (congrArg nextEpoch hv)
    · refine (congrArg (fun w : Word => w.fld 15 0) (Block.rg_wf_other b 15 0 _ (FIRN_EPOCH_inj hu))).trans ((h1 u).trans ?_)
      exact if_congr (by omega) rfl rfl

/-- The epochs of tiles, raised before those of units. -/
def Block.tilesRaised (s : Block) : Block := loop 256 (fun t s => s.raised (FLOE_EPOCH t) 15 0) s

/-- The epochs of groups and ports, raised after those of units. -/
def Block.groupsRaised (s : Block) : Block :=
  loop 16 (fun p s => s.raised (ESK_EPOCH p) 15 0)
    (loop 24 (fun n s => loop 8 (fun g s => s.raised (STK_CG_EPOCH n g) (16 * (g % 2) + 15) (16 * (g % 2))) s) s)

theorem Block.raiseEpochs_eq (s : Block) : s.raiseEpochs = (s.tilesRaised.unitsRaised 4096).groupsRaised := rfl

/-- Registers that hold no epoch of a tile, group or port. -/
def epochFree (a : Nat) : Prop := a < 0x00800000 ∨ 0x04000000 ≤ a ∨ ∃ d < 4, a = SRC_CLUSTER_OOS d

theorem epochFree.ne_FLOE {a : Nat} (h : epochFree a) {t k : Nat} (ht : t < 256) (hk : k < 0x4000) : a ≠ FLOE t k := by
  have e : FLOE t k = 0x01000000 + t / 8 / 8 * 0x400000 + (0x100000 + t / 8 % 8 * 0x40000 + (0x8000 + t % 8 * 0x4000 + k)) := rfl
  obtain h | h | ⟨d, hd, rfl⟩ := h
  · omega
  · omega
  · have e' : SRC_CLUSTER_OOS d = 0x01000000 + d * 0x400000 + 0x318 := rfl
    omega

theorem Block.rg_tilesRaised (s : Block) {a : Nat} (ha : epochFree a) : s.tilesRaised.rg a = s.rg a :=
  loop_keeps_below (fun b : Block => b.rg a) _ 256 (fun t b ht => Block.rg_wf_other _ _ _ _ (ha.ne_FLOE ht (by omega))) s

theorem Block.rg_groupsRaised (s : Block) {a : Nat} (ha : epochFree a) : s.groupsRaised.rg a = s.rg a := by
  refine (loop_keeps_below (fun b : Block => b.rg a) _ 16 (fun p b hp => Block.rg_wf_other _ _ _ _ ?_) _).trans ?_
  · have e : ESK_EPOCH p = 0x00800000 + p * 0x80000 + 0x30 := rfl
    have e' : ∀ d, SRC_CLUSTER_OOS d = 0x01000000 + d * 0x400000 + 0x318 := fun _ => rfl
    obtain h | h | ⟨d, hd, rfl⟩ := ha <;> [omega; omega; (rw [e']; omega)]
  · refine loop_keeps_below (fun b : Block => b.rg a) _ 24 (fun n b hn => ?_) s
    refine loop_keeps_below (fun b : Block => b.rg a) _ 8 (fun g b hg => Block.rg_wf_other _ _ _ _ ?_) b
    have e : STK_CG_EPOCH n g = 0x02000000 + n * 0x10000 + (0x70 + 4 * (g / 2)) := rfl
    have e' : ∀ d, SRC_CLUSTER_OOS d = 0x01000000 + d * 0x400000 + 0x318 := fun _ => rfl
    obtain h | h | ⟨d, hd, rfl⟩ := ha <;> [omega; omega; (rw [e']; omega)]

theorem Block.raiseEpochs_spec (s : Block) :
    (∀ u, u < 4096 → s.raiseEpochs.fld (FIRN_EPOCH u) 15 0 = nextEpoch (s.fld (FIRN_EPOCH u) 15 0)) ∧
    (∀ a, epochFree a → (∀ u, a ≠ FIRN_EPOCH u) → s.raiseEpochs.rg a = s.rg a) := by
  obtain ⟨h1, h2⟩ := s.tilesRaised.unitsRaised_spec 4096
  rw [s.raiseEpochs_eq]
  have hf : ∀ u, epochFree (FIRN_EPOCH u) := fun u => by
    have e : FIRN_EPOCH u = 0x04000000 + u * 0x1000 + 4 := rfl
    exact Or.inr (Or.inl (by omega))
  have hg : ∀ a, epochFree a → ((s.tilesRaised.unitsRaised 4096).groupsRaised).rg a = (s.tilesRaised.unitsRaised 4096).rg a :=
    fun a ha => Block.rg_groupsRaised _ ha
  have ht : ∀ a, epochFree a → s.tilesRaised.rg a = s.rg a := fun a ha => s.rg_tilesRaised ha
  refine ⟨fun u hu => ?_, fun a ha hn => (hg a ha).trans ((h2 a hn).trans (ht a ha))⟩
  refine (congrArg (fun w : Word => w.fld 15 0) (hg _ (hf u))).trans ((h1 u).trans ?_)
  rw [if_pos hu]
  exact congrArg (fun w : Word => nextEpoch (w.fld 15 0)) (ht _ (hf u))

theorem Block.raiseEpochs_frame (s : Block) : { s.raiseEpochs with regs := s.regs } = s := by
  have hr : ∀ (b : Block) a hi lo, { b.raised a hi lo with regs := s.regs } = { b with regs := s.regs } := fun b a hi lo => by
    simp [Block.raised]
  have hl : ∀ n (f : Nat → Block → Block), (∀ i b, { f i b with regs := s.regs } = { b with regs := s.regs }) → ∀ b,
      { loop n f b with regs := s.regs } = { b with regs := s.regs } := fun n f h b =>
    loop_keeps (fun b : Block => { b with regs := s.regs }) f h n b
  rw [s.raiseEpochs_eq]
  unfold Block.groupsRaised Block.unitsRaised Block.tilesRaised
  rw [hl 16 _ fun p b => hr ..]
  rw [hl 24 _ fun n b => hl 8 _ (fun g b => hr ..) b]
  rw [hl 4096 _ fun u b => hr ..]
  exact hl 256 _ (fun t b => hr ..) s

/-! ### A block after the clearing -/

theorem Block.warmClear_frame (s : Block) (i : Bool) :
    { s.warmClear i with regs := (s.warmReset i).regs, led := (s.warmReset i).led, clusters := (s.warmReset i).clusters } =
      s.warmReset i := by
  rw [s.warmClear_eq]
  have h1 := s.warmLedgers_frame i
  obtain ⟨z, hz⟩ : ∃ z, z = s.warmReset i := ⟨_, rfl⟩
  obtain ⟨b, hb⟩ : ∃ b, b = s.warmLedgers i := ⟨_, rfl⟩
  rw [← hz, ← hb] at h1
  rw [← hz, ← hb]
  obtain ⟨-, h2⟩ := b.keepOff_spec
  have h3 := b.keepOff.raiseEpochs_frame
  obtain ⟨c, hc⟩ : ∃ c, c = b.keepOff := ⟨_, rfl⟩
  rw [← hc] at h2 h3 ⊢
  obtain ⟨d, hd⟩ : ∃ d, d = c.raiseEpochs := ⟨_, rfl⟩
  rw [← hd] at h3 ⊢
  refine (congrArg (fun x : Block => { x with regs := z.regs, led := z.led, clusters := z.clusters }) h3 :).trans ?_
  refine (congrArg (fun x : Block => { x with regs := z.regs, led := z.led, clusters := z.clusters }) h2 :).trans ?_
  exact (congrArg (fun x : Block => { x with regs := z.regs, clusters := z.clusters }) h1 :)

/-- What a warm start has cleared, and what it keeps of the rest. -/
structure Block.warmCleared (t s : Block) (internal : Bool) : Prop where
  jobs : t.jobs = []
  reqs : t.reqs = []
  mbx : t.mbx = []
  loaded : t.fw.loaded = false
  keys : t.trust.keys = []
  fuses : t.trust.fuses = s.trust.fuses
  ice : t.ice = s.ice
  linkUp : t.start.linkUp = (internal && s.start.linkUp)
  perst : t.start.perst = s.start.perst
  parts : t.parts = s.parts
  objs : t.objs = s.objs
  bundles : t.bundles = s.bundles

theorem Block.warmReset_cleared (s : Block) (i : Bool) : (s.warmReset i).warmCleared s i :=
  ⟨rfl, rfl, rfl, rfl, rfl, rfl, rfl, rfl, rfl, rfl, rfl, rfl⟩

theorem Block.warmClear_cleared (s : Block) (i : Bool) : (s.warmClear i).warmCleared s i := by
  have hf := s.warmClear_frame i
  obtain ⟨h1, h2, h3, h4, h5, h6, h7, h8, h9, h10, h11, h12⟩ := s.warmReset_cleared i
  obtain ⟨z, hz⟩ : ∃ z, z = s.warmReset i := ⟨_, rfl⟩
  obtain ⟨t, ht⟩ : ∃ t, t = s.warmClear i := ⟨_, rfl⟩
  rw [← hz, ← ht] at hf
  rw [← hz] at h1 h2 h3 h4 h5 h6 h7 h8 h9 h10 h11 h12
  rw [← ht]
  have htr : t.trust = z.trust := (congrArg Block.trust hf :)
  have hst : t.start = z.start := (congrArg Block.start hf :)
  exact ⟨(congrArg Block.jobs hf :).trans h1, (congrArg Block.reqs hf :).trans h2, (congrArg Block.mbx hf :).trans h3,
    (congrArg (fun x : Block => x.fw.loaded) hf :).trans h4, (congrArg Trust.keys htr).trans h5, (congrArg Trust.fuses htr).trans h6,
    (congrArg Block.ice hf :).trans h7, (congrArg Start.linkUp hst).trans h8, (congrArg Start.perst hst).trans h9,
    (congrArg Block.parts hf :).trans h10, (congrArg Block.objs hf :).trans h11, (congrArg Block.bundles hf :).trans h12⟩

/-! ### A warm start -/

/-- A warm start: nothing runs, the keys are gone, fuses and records stay. -/
structure Block.warmStarted (t s : Block) (cause : Nat) : Prop where
  mark : t.fld MOR_RESET_CAUSE 3 0 = cause
  warm : t.bit MOR_START 4 = true
  loaded : t.fw.loaded = false
  jobs : t.jobs = []
  reqs : t.reqs = []
  mbx : t.mbx = []
  keys : t.trust.keys = []
  linkUp : t.start.linkUp = (decide (5 ≤ cause) && s.start.linkUp)
  perst : t.start.perst = s.start.perst
  fuses : t.trust.fuses = s.trust.fuses
  perm : t.ice.perm = s.ice.perm
  ring : t.ice.ring = s.ice.ring

theorem Block.lcState_lt (s : Block) : s.lcState < 8 := Word.fld_lt _ _ _

theorem Block.warmStart_warmStarted (s : Block) {cause : Nat} (hc : cause < 16) : (s.warmStart cause).warmStarted s cause := by
  obtain ⟨k, hk⟩ := s.warmWork_still
  have hw := s.warmWork.warmClear_cleared (decide (5 ≤ cause))
  rw [s.warmStart_eq]
  obtain ⟨w, hwd⟩ : ∃ w, w = s.warmWork := ⟨_, rfl⟩
  rw [← hwd] at hk hw ⊢
  obtain ⟨h1, h2, h3, h4, h5, h6, h7, h8, h9, -, -, -⟩ := hw
  obtain ⟨v, hvd⟩ : ∃ v, v = w.warmClear (decide (5 ≤ cause)) := ⟨_, rfl⟩
  rw [← hvd] at h1 h2 h3 h4 h5 h6 h7 h8 h9 ⊢
  have hb := Block.boot_warmBooted h1 hc s.lcState_lt s.limitW
  obtain ⟨t, ht⟩ : ∃ t, t = v.boot false cause s.lcState s.limitW := ⟨_, rfl⟩
  rw [← ht] at hb ⊢
  obtain ⟨bc, bw, br, bf, bk, bs, bp, bg, -, -⟩ := hb
  have htr : w.trust = s.trust := (congrArg Still.trust hk :)
  have hst : w.start.steady = (s.keeping k).start.steady := (congrArg Still.start hk :)
  have hic : w.ice.stored = s.ice.stored := (congrArg Still.ice hk :)
  have hlink : w.start.linkUp = s.start.linkUp := (congrArg Start.linkUp hst :)
  have hper : w.start.perst = s.start.perst := (congrArg Start.perst hst :)
  refine ⟨bc, bw, (congrArg (fun x : Block => x.fw.loaded) br :).trans h4, (congrArg Block.jobs br :).trans h1,
    (congrArg Block.reqs br :).trans h2, (congrArg Block.mbx br :).trans h3, bk.trans h5,
    (congrArg Start.linkUp bs :).trans (h8.trans (congrArg _ hlink)), (congrArg Start.perst bs :).trans (h9.trans hper),
    bf.trans (h6.trans (congrArg Trust.fuses htr)), ?_, ?_⟩
  · exact bp.trans ((congrArg IceCore.perm h7).trans (congrArg IceCore.perm hic :))
  · exact bg.trans ((congrArg IceCore.ring h7).trans (congrArg IceCore.ring hic :))

/-- A command that makes a warm start, of the block with its reset wire as it asks. -/
theorem exec_warmCause {s : State} {i : Instr} {c : Nat} (hi : Instr.warmCause i = some c) (hs : s.blk.canStart i) :
    c < 16 ∧ ∃ f p, exec i s = onBlk f s ∧
      f s.blk = ({ s.blk with start := { s.blk.start with perst := p } } : Block).warmStart c ∧
      (c = 3 → p = true) ∧ (c ≠ 3 → p = s.blk.start.perst) := by
  obtain ⟨hst, hper, hlink⟩ := hs
  cases i <;> try cases hi
  case morResetWarm j v =>
    simp only [Instr.warmCause, Option.ite_none_right_eq_some, Option.some.injEq] at hi
    obtain ⟨⟨h0, hk, h2⟩, rfl⟩ := hi
    refine ⟨by omega, effMorResetWarm j v, s.blk.start.perst, rfl, ?_, fun h => by omega, fun _ => rfl⟩
    unfold effMorResetWarm
    rw [if_neg (by simp [h0, hst]), if_pos (by simp [hk, h2])]
  case sidebandWarmReset =>
    exact ⟨by omega, effSidebandWarmReset, s.blk.start.perst, rfl, if_pos hst, fun h => by omega, fun _ => rfl⟩
  case perstAssert =>
    have hp := hper (Or.inl rfl)
    refine ⟨by omega, effPerstAssert, true, rfl, ?_, fun _ => rfl, fun h => absurd rfl h⟩
    unfold effPerstAssert
    rw [if_neg (by simp [hp])]
    exact if_pos hst
  case hotReset =>
    have hp := hper (Or.inr rfl)
    refine ⟨by omega, effHotReset, s.blk.start.perst, rfl, ?_, fun h => by omega, fun _ => rfl⟩
    exact if_pos (by simp [hst, hp, hlink rfl])

theorem warmCause_spec (s : State) (i : Instr) (c : Nat) (hi : Instr.warmCause i = some c) (hs : s.blk.canStart i) :
    ∃ t : State, exec i s = .next t ∧ t.pending = s.pending ∧ t.blk.fld MOR_RESET_CAUSE 3 0 = c ∧ t.blk.bit MOR_START 4 = true ∧
      t.blk.fw.loaded = false ∧ t.blk.jobs = [] ∧ t.blk.reqs = [] ∧ t.blk.mbx = [] ∧ t.blk.trust.keys = [] ∧
      t.blk.start.linkUp = (decide (5 ≤ c) && s.blk.start.linkUp) ∧ (c = 3 → t.blk.start.perst = true) ∧
      t.blk.trust.fuses = s.blk.trust.fuses ∧ t.blk.ice.perm = s.blk.ice.perm ∧ t.blk.ice.ring = s.blk.ice.ring := by
  obtain ⟨hc, f, p, hx, he, hp, -⟩ := exec_warmCause hi hs
  obtain ⟨b, hb⟩ : ∃ b : Block, b = { s.blk with start := { s.blk.start with perst := p } } := ⟨_, rfl⟩
  have hlink : b.start.linkUp = s.blk.start.linkUp := by rw [hb]
  have hper : b.start.perst = p := by rw [hb]
  have htr : b.trust = s.blk.trust := by rw [hb]
  have hice : b.ice = s.blk.ice := by rw [hb]
  rw [← hb] at he
  have hw := b.warmStart_warmStarted hc
  obtain ⟨t, ht⟩ : ∃ t, t = b.warmStart c := ⟨_, rfl⟩
  rw [← ht] at he hw
  obtain ⟨h1, h2, h3, h4, h5, h6, h7, h8, h9, h10, h11, h12⟩ := hw
  rw [hlink] at h8
  rw [hper] at h9
  rw [htr] at h10
  rw [hice] at h11 h12
  exact ⟨_, hx.trans (onBlk_next_of_eq he h10 h11), rfl, h1, h2, h3, h4, h5, h6, h7, h8, fun h => h9.trans (hp h), h10, h11, h12⟩

end Sys2Proof.Machine
end

section
/-! Warm starts of a block at rest: its memory and its tables stay, and the epochs of its units go up (R420, R429). -/

namespace Sys2Proof.Machine

/-! ### Lines written back -/

/-- What the writing back of lines without errors leaves: all but counters of bytes written. -/
structure Block.linesOut (t s : Block) : Prop where
  rest : { t with regs := s.regs } = s
  regs : ∀ a, (∀ n, a ≠ STK_WR_BYTES_LO n ∧ a ≠ STK_WR_BYTES_LO n + 4) → t.rg a = s.rg a
  table : Tbl.wf regReset s.regs = true → Tbl.wf regReset t.regs = true

theorem Block.linesOut.refl (s : Block) : s.linesOut s := ⟨rfl, fun _ _ => rfl, id⟩

theorem Block.linesOut.trans {s t u : Block} (h : u.linesOut t) (h' : t.linesOut s) : u.linesOut s := by
  obtain ⟨hr, hg, hw⟩ := h
  obtain ⟨hr', hg', hw'⟩ := h'
  exact ⟨(congrArg (fun b : Block => { b with regs := s.regs }) hr :).trans hr', fun a ha => (hg a ha).trans (hg' a ha),
    fun h => hw (hw' h)⟩

theorem Block.wr_table (s : Block) (a : Nat) (v : Word) (h : Tbl.wf regReset s.regs = true) : Tbl.wf regReset (s.wr a v).regs = true :=
  wf_tset a v h

theorem Block.lineOut_linesOut (s : Block) {x : MscLine} (hs : s.env.cacheErrs = []) (hx : x.under = []) : (s.lineOut x).linesOut s := by
  unfold Block.lineOut
  split
  · have he : (s.lineErrors x (x.line * 8) (x.line * 8 + 8)).2 = s := by simp [Block.lineErrors, hs]
    rw [he]
    refine ⟨by simp, fun a ha => ?_, fun h => Block.wr_table _ _ _ (Block.wr_table _ _ _ h)⟩
    exact (Block.rg_wr_other _ _ (ha _).2).trans (Block.rg_wr_other _ _ (ha _).1)
  · have he : s.errsGone (x.bad (x.line * 8) (x.line * 8 + 8)) = s := by
      have hc : s.env.cacheErrs.filter (fun e => !x.bad (x.line * 8) (x.line * 8 + 8) e) = s.env.cacheErrs := by rw [hs]; rfl
      unfold Block.errsGone
      rw [hc]
    rw [he, hx]
    exact .refl s

theorem Block.lines_linesOut (l : List MscLine) (s : Block) (hs : s.env.cacheErrs = []) (hl : ∀ x ∈ l, x.under = []) :
    (s.each l fun s x => s.lineOut x).linesOut s := by
  unfold Block.each
  induction l generalizing s with
  | nil => exact .refl s
  | cons x l ih =>
    have hx := s.lineOut_linesOut hs (hl x List.mem_cons_self)
    have hc : (s.lineOut x).env.cacheErrs = [] := (congrArg (fun b : Block => b.env.cacheErrs) hx.rest :).trans hs
    exact (ih _ hc fun y hy => hl y (List.mem_cons_of_mem _ hy)).trans hx

theorem Block.writeBackAll_linesOut (s : Block) (h : s.intact) : s.writeBackAll.linesOut s := by
  obtain ⟨-, hc, -, hm⟩ := h
  refine Block.lines_linesOut _ s hc fun x hx => ?_
  obtain ⟨e, he, hxe⟩ := List.mem_flatMap.mp hx
  exact hm e he x hxe

/-! ### Work at rest -/

theorem kget_kmap {α : Type} (f : Nat → α → α) (t : Tbl α) (i : Nat) : kget (kmap t f) i = (kget t i).map (f i) := by
  induction t with
  | nil => rfl
  | cons e t ih =>
    obtain ⟨k, v⟩ := e
    show kget ((k, f k v) :: kmap t f) i = _
    rw [kget_cons, kget_cons]
    split
    next h => rw [h]; rfl
    next => exact ih

theorem Block.forwardLag_obj (s : Block) (f : CopyLag → Bool) (e j : Nat) :
    ((s.forwardLag f).obj e j).map (fun o => { o with lag := [] }) = (s.obj e j).map (fun o => { o with lag := [] }) := by
  unfold Block.obj Block.objects Block.forwardLag tget
  rw [kget_kmap]
  cases h : kget s.objs e with
  | none => rfl
  | some os =>
    simp only [Option.map_some, Option.getD_some]
    split
    · rfl
    · show (kget (kmap os.live fun _ o => o.forward f) j).map _ = _
      rw [kget_kmap, Option.map_map]
      rfl

theorem Block.settleWrites_rest (s : Block) (h : s.atRest) : s.settleWrites = s.forwardLag fun _ => true := by
  obtain ⟨-, -, hc, hf, -, -, -⟩ := h
  have hk : kmap s.clusters (fun _ k => { k with out := [] }) = s.clusters := by rw [hc]; rfl
  have h1 : (s.each (keys s.clusters) fun s c => s.drainSome c) = s := by rw [hc]; rfl
  have h2 : (s.each (keys s.firn) fun s u => s.firnDrain u ((s.fu u).writeQ.length + (s.fu u).ownQ.length)) = s := by rw [hf]; rfl
  unfold Block.settleWrites
  simp only [h1, h2, ite_self, hk]

theorem Block.endAllWork_rest (s : Block) (h : s.atRest) : s.endAllWork = s := by
  obtain ⟨hj, hq, -, -, hv, hn, -⟩ := h
  simp [Block.endAllWork, Block.killJobs, Block.killReqs, Block.each, keys, hj, hq, hv, hn]

/-- A block at rest whose work a warm start has ended. -/
structure Block.workRested (t s : Block) : Prop where
  regs : ∀ a, (∀ n, a ≠ STK_WR_BYTES_LO n ∧ a ≠ STK_WR_BYTES_LO n + 4) → t.rg a = s.rg a
  table : Tbl.wf regReset s.regs = true → Tbl.wf regReset t.regs = true
  obj : ∀ e j, (t.obj e j).map (fun o => { o with lag := [] }) = (s.obj e j).map (fun o => { o with lag := [] })
  parts : t.parts = s.parts
  bundles : t.bundles = s.bundles

theorem Block.obj_congr {s t : Block} (h : t.objs = s.objs) (e j : Nat) : t.obj e j = s.obj e j := by
  unfold Block.obj Block.objects
  rw [h]

theorem Block.warmWork_rested (s : Block) (h : s.atRest) (hi : s.intact) : s.warmWork.workRested s := by
  obtain ⟨k, hk⟩ : ∃ k, k = (s.bit MOR_WARM_CFG 0 && (s.fw.loaded || s.start.keepReq)) := ⟨_, rfl⟩
  have hr : (s.keeping k).atRest := h
  have hw : (s.keeping k).settleWrites.endAllWork = (s.keeping k).forwardLag fun _ => true := by
    rw [Block.settleWrites_rest _ hr]
    exact Block.endAllWork_rest ((s.keeping k).forwardLag fun _ => true) h
  have hobj := (s.keeping k).forwardLag_obj fun _ => true
  obtain ⟨b, hb⟩ : ∃ b, b = (s.keeping k).forwardLag fun _ => true := ⟨_, rfl⟩
  have hrg : b.regs = s.regs := by rw [hb]; rfl
  have hint : b.intact := by rw [hb]; exact hi
  have hgr : b.esk.grants = [] := by rw [hb]; exact h.2.2.2.2.2.2
  have hparts : b.parts = s.parts := by rw [hb]; rfl
  have hbun : b.bundles = s.bundles := by rw [hb]; rfl
  rw [← hb] at hobj
  have hout : (if k then b.writeBackAll else b : Block).linesOut b := by
    split
    · exact b.writeBackAll_linesOut hint
    · exact .refl b
  have he : s.warmWork = if k then b.writeBackAll else b := by
    have hg : (if k then b.writeBackAll else b : Block).esk.grants = [] :=
      (congrArg (fun x : Block => x.esk.grants) hout.rest :).trans hgr
    unfold Block.warmWork
    simp only [← hk, hw, ← hb, hg]
    rfl
  rw [he]
  obtain ⟨c, hc⟩ : ∃ c : Block, c = if k then b.writeBackAll else b := ⟨_, rfl⟩
  rw [← hc] at hout ⊢
  obtain ⟨h1, h2, h3⟩ := hout
  refine ⟨fun a ha => (h2 a ha).trans (Block.rg_of_regs hrg a), fun hs => h3 (by rw [hrg]; exact hs), fun e j => ?_,
    (congrArg Block.parts h1 :).trans hparts, (congrArg Block.bundles h1 :).trans hbun⟩
  have ho : c.objs = b.objs := (congrArg Block.objs h1 :)
  rw [Block.obj_congr ho e j]
  exact hobj e j

/-! ### Registers that a start keeps by a mask -/

theorem lt_of_mem_rising {α : Type} {lo : Nat} {t : Tbl α} (h : risingFrom (some lo) t = true) {e : Nat × α} (he : e ∈ t) :
    lo < e.1 := by
  induction t generalizing lo with
  | nil => cases he
  | cons p t ih =>
    obtain ⟨k, v⟩ := p
    simp only [risingFrom, Bool.and_eq_true, decide_eq_true_eq] at h
    obtain rfl | he := List.mem_cons.mp he
    · exact h.1
    · exact Nat.lt_trans h.1 (ih h.2 he)

theorem kget_of_mem {α : Type} {t : Tbl α} (h : risingFrom none t = true) {a : Nat} {v : α} (he : (a, v) ∈ t) :
    kget t a = some v := by
  induction t with
  | nil => cases he
  | cons p t ih =>
    obtain ⟨k, u⟩ := p
    simp only [risingFrom, Bool.and_eq_true] at h
    rw [kget_cons]
    obtain he | he := List.mem_cons.mp he
    · cases he
      exact if_pos rfl
    · rw [if_neg (by have := lt_of_mem_rising h.2 he; exact Nat.ne_of_gt this)]
      exact ih (risingFrom_none h.2) he

/-- A register of a table in canonical form is kept by its mask. -/
theorem Block.rg_keepRegs_table {s t : Block} {m : Nat → Nat} (ht : t.regs = keepRegs m s.regs) (hs : Tbl.wf regReset s.regs = true)
    (a : Nat) : t.rg a = keepBits a (m a) (s.rg a) := by
  by_cases hn : keepBits a (m a) (s.rg a) = regReset a
  · rw [hn]
    unfold Block.rg tget
    rw [ht]
    cases h : kget (keepRegs m s.regs) a with
    | none => rfl
    | some w =>
      obtain ⟨v, hv, hw⟩ := mem_keepRegs (mem_of_kget h)
      simp only [Tbl.wf, Bool.and_eq_true] at hs
      have hg : s.rg a = v := by
        unfold Block.rg tget
        rw [kget_of_mem hs.1 hv]
        rfl
      rw [Option.getD_some]
      exact hw.trans (hg ▸ hn)
  · exact Block.rg_keepRegs ht hn

theorem warmMask_FIRN_EPOCH (i : Bool) {u : Nat} (hu : u < 4096) : warmMask i (FIRN_EPOCH u) = 0xFFFF := by
  have e : FIRN_EPOCH u = 0x04000000 + u * 0x1000 + 4 := rfl
  have e1 : MOR_HOST_LINK = 0x1000 := rfl
  have e2 : CLK_SPREAD = 0x0010000C := rfl
  have h1 : (FIRN_EPOCH u == MOR_HOST_LINK) = false := beq_false_of_ne (by omega)
  have h2 : (FIRN_EPOCH u == CLK_SPREAD) = false := beq_false_of_ne (by omega)
  unfold warmMask
  simp only [h1, h2, Bool.and_false, Bool.false_eq_true, if_false, regFind_FIRN_EPOCH hu]
  rfl

theorem warmMask_concrete (i : Bool) :
    warmMask i MOR_WARM_CFG = 1 ∧ warmMask i RIME_ROOT_CAUSE = 0xFFFFFFFF ∧ warmMask i LDG_STATUS = 0x3FF0001 := by
  cases i <;> exact ⟨by decide, by decide, by decide⟩

/-! ### Ledgers and breach -/

theorem Block.ledRenew_ledger_other (s : Block) {n m : Nat} (k : Nat) (h : m ≠ n) : (s.ledRenew n k).ledger m = s.ledger m :=
  tget_tset_other _ _ _ _ h

theorem Block.freshLedgers_ledger (s : Block) {c : Nat} (hc : c < 32) (ho : s.clusterOos c = false) :
    s.freshLedgers.ledger (0x80 + c) = s.ledger (0x80 + c) := by
  unfold Block.freshLedgers
  extract_lets s1
  have h1 : ∀ n, (loop n (fun c s => if s.clusterOos c then s.ledRenew (0x80 + c) 0 else s) s).ledger (0x80 + c) = s.ledger (0x80 + c) ∧
      (loop n (fun c s => if s.clusterOos c then s.ledRenew (0x80 + c) 0 else s) s).regs = s.regs := by
    intro n
    induction n with
    | zero => exact ⟨rfl, rfl⟩
    | succ n ih =>
      obtain ⟨i1, i2⟩ := ih
      rw [loop]
      obtain ⟨b, hb⟩ : ∃ b, b = loop n (fun c s => if s.clusterOos c then s.ledRenew (0x80 + c) 0 else s) s := ⟨_, rfl⟩
      rw [← hb] at i1 i2 ⊢
      split
      next hn =>
        have hne : c ≠ n := by
          rintro rfl
          have hbc : b.clusterOos c = s.clusterOos c := congrArg (fun w : Word => w.bit (c % 8)) (Block.rg_of_regs i2 _)
          rw [hbc, ho] at hn
          cases hn
        exact ⟨(Block.ledRenew_ledger_other _ _ (by omega)).trans i1, i2⟩
      next => exact ⟨i1, i2⟩
  have h2 : s1.ledger (0x80 + c) = s.ledger (0x80 + c) := (h1 32).1
  clear_value s1
  refine Eq.trans ?_ h2
  exact loop_keeps_below (fun b : Block => b.ledger (0x80 + c)) _ 16 (fun i b hi => Block.ledRenew_ledger_other _ _ (by omega)) s1

theorem Block.warmClear_rg (s : Block) (i : Bool) :
    (∀ u, u < 4096 → (s.warmClear i).fld (FIRN_EPOCH u) 15 0 = nextEpoch ((s.warmReset i).fld (FIRN_EPOCH u) 15 0)) ∧
    (∀ a, epochFree a → (∀ u, a ≠ FIRN_EPOCH u) → (s.warmClear i).rg a = (s.warmReset i).rg a) := by
  rw [s.warmClear_eq]
  have hl : (s.warmLedgers i).regs = (s.warmReset i).regs := (congrArg Block.regs (s.warmLedgers_frame i) :)
  obtain ⟨z, hz⟩ : ∃ z, z = s.warmReset i := ⟨_, rfl⟩
  obtain ⟨b, hb⟩ : ∃ b, b = s.warmLedgers i := ⟨_, rfl⟩
  rw [← hz, ← hb] at hl
  rw [← hz, ← hb]
  obtain ⟨hk, -⟩ := b.keepOff_spec
  obtain ⟨h1, h2⟩ := b.keepOff.raiseEpochs_spec
  have hkb : ∀ a, epochFree a → b.keepOff.rg a = z.rg a := fun a ha =>
    (hk a fun t ht => ha.ne_FLOE ht (by omega)).trans (Block.rg_of_regs hl a)
  refine ⟨fun u hu => (h1 u hu).trans (congrArg (fun w : Word => nextEpoch (w.fld 15 0)) (hkb _ ?_)), fun a ha hn =>
    (h2 a ha hn).trans (hkb a ha)⟩
  have e : FIRN_EPOCH u = 0x04000000 + u * 0x1000 + 4 := rfl
  exact Or.inr (Or.inl (by omega))

theorem epochFree.ne_FIRN_EPOCH {a : Nat} (h : a < 0x04000000) (u : Nat) : a ≠ FIRN_EPOCH u := by
  have e : FIRN_EPOCH u = 0x04000000 + u * 0x1000 + 4 := rfl
  omega

theorem Block.warmReset_regs (s : Block) (i : Bool) : (s.warmReset i).regs = keepRegs (warmMask i) s.regs := rfl

theorem Block.warmClear_coldIdle (s : Block) (i : Bool) (hb : s.breach = false) : (s.warmClear i).coldIdle := by
  obtain ⟨-, hg⟩ := s.warmClear_rg i
  refine ⟨(s.warmClear_cleared i).jobs, fun c hc ho => ?_⟩
  have hoos : (s.warmReset i).clusterOos c = false := by
    refine (congrArg (fun w : Word => w.bit (c % 8)) (hg _ (Or.inr (Or.inr ⟨c / 8, by omega, rfl⟩)) ?_)).symm.trans ho
    refine epochFree.ne_FIRN_EPOCH ?_
    have e : SRC_CLUSTER_OOS (c / 8) = 0x01000000 + c / 8 * 0x400000 + 0x318 := rfl
    omega
  have hled : (s.warmReset i).led = [] := by
    show (if s.breach then s.led else []) = []
    rw [hb]
    rfl
  have hl : s.warmLedgers i = (s.warmReset i).freshLedgers := by
    unfold Block.warmLedgers
    rw [hb]
    rfl
  have hfresh := (s.warmReset i).freshLedgers_ledger hc hoos
  rw [s.warmClear_eq, hl]
  obtain ⟨z, hz⟩ : ∃ z, z = s.warmReset i := ⟨_, rfl⟩
  rw [← hz] at hled hfresh ⊢
  obtain ⟨b, hbd⟩ : ∃ b, b = z.freshLedgers := ⟨_, rfl⟩
  rw [← hbd] at hfresh ⊢
  obtain ⟨-, h1⟩ := b.keepOff_spec
  have h2 := b.keepOff.raiseEpochs_frame
  obtain ⟨k, hk⟩ : ∃ k, k = b.keepOff := ⟨_, rfl⟩
  rw [← hk] at h1 h2 ⊢
  obtain ⟨r, hr⟩ : ∃ r, r = k.raiseEpochs := ⟨_, rfl⟩
  rw [← hr] at h2 ⊢
  have hrb : r.led = b.led := (congrArg Block.led h2 :).trans (congrArg Block.led h1 :)
  have hz0 : z.ledger (0x80 + c) = ledgerReset (0x80 + c) := by
    unfold Block.ledger
    rw [hled]
    rfl
  exact (Block.ledger_congr hrb _).trans (hfresh.trans hz0)

theorem Block.bootHead_coldIdle_of {s : Block} (hs : s.coldIdle) (cause n : Nat) : (s.bootHead false cause n).coldIdle := by
  obtain ⟨hf, -, -⟩ := s.bootHead_frame false cause n
  have hg : ∀ c, c < 32 → (s.bootHead false cause n).rg (SRC_CLUSTER_OOS (c / 8)) = s.rg (SRC_CLUSTER_OOS (c / 8)) := fun c hc => by
    have e : SRC_CLUSTER_OOS (c / 8) = 0x01000000 + c / 8 * 0x400000 + 0x318 := rfl
    have e' : PWR_STATUS = 0x00200008 := rfl
    exact s.rg_bootHead false cause n (by omega) (by omega)
  obtain ⟨b, hb⟩ : ∃ b, b = s.bootHead false cause n := ⟨_, rfl⟩
  rw [← hb] at hf hg ⊢
  have hled : b.led = s.led := (congrArg Block.led hf :)
  refine ⟨(congrArg Block.jobs hf :).trans hs.jobs, fun c hc ho => (Block.ledger_congr hled _).trans (hs.sound c hc ?_)⟩
  exact (congrArg (fun w : Word => w.bit (c % 8)) (hg c hc)).symm.trans ho

theorem Block.breach_congr {s t : Block} (h : t.rg LDG_STATUS = s.rg LDG_STATUS) : t.breach = s.breach :=
  congrArg (fun w : Word => w.bit 0) h

theorem Block.startPlls_breach (s : Block) : s.startPlls.breach = s.breach := by
  obtain ⟨-, hg, -⟩ := s.pllsRun.trainPorts_trained 16
  have h1 : s.pllsRun.rg LDG_STATUS = s.rg LDG_STATUS :=
    (Block.rg_wf_other _ _ _ _ (by decide)).trans ((Block.rg_wb_other _ _ _ (by decide)).trans (Block.rg_wr_other _ _ (by decide)))
  refine Block.breach_congr ?_
  rw [s.startPlls_eq]
  exact (Block.rg_goAwait _ (by decide)).trans ((hg _ (by decide)).trans h1)

theorem Block.msix_breach (s : Block) (f v : Nat) : (s.msix f v).breach = s.breach := rfl

theorem Block.stopStart_breach (s : Block) : s.stopStart.breach = s.breach :=
  Block.breach_congr (s.rg_stopStart (a := LDG_STATUS) (by decide) (by decide))

theorem Block.setPhase_breach (s : Block) (p : Nat) : (s.setPhase p).breach = s.breach :=
  Block.breach_congr (Block.rg_wf_other _ _ _ _ (by decide))

theorem Block.bootRecords_breach {s : Block} (hs : s.coldIdle) (cold : Bool) (old : Nat) : (s.bootRecords cold old).breach = s.breach := by
  have hk := (Block.loadRecords_coldKept hs cold old).then fun h => Block.testTiles_coldKept h cold
  obtain ⟨b, hb⟩ : ∃ b, b = (s.loadRecords cold old).testTiles cold := ⟨_, rfl⟩
  rw [← hb] at hk
  have hbs : b.breach = s.breach := Block.breach_congr (hk.regs LDG_STATUS (by unfold bootKeeps; decide))
  unfold Block.bootRecords
  simp only [← hb]
  split
  · exact (Block.msix_breach _ _ _).trans ((b.startPlls_breach).trans hbs)
  · split
    · exact (b.stopStart_breach).trans hbs
    · exact (b.setPhase_breach 4).trans hbs

theorem Block.boot_breach {s : Block} (hs : s.coldIdle) (cause n old : Nat) : (s.boot false cause n old).breach = s.breach := by
  have h1 : (s.bootHead false cause n).breach = s.breach :=
    Block.breach_congr (s.rg_bootHead false cause n (by decide) (by decide))
  have h2 := Block.bootRecords_breach (Block.bootHead_coldIdle_of hs cause n) false old
  rw [s.boot_eq]
  split
  · exact h1
  · exact h2.trans h1

/-! ### The whole of a warm start at rest -/

/-- A warm start at rest keeps the memory, the tables and the breach, and raises the epochs of units. -/
structure Block.warmRested (t s : Block) : Prop where
  epochs : ∀ u, u < 4096 → t.fld (FIRN_EPOCH u) 15 0 = nextEpoch (s.fld (FIRN_EPOCH u) 15 0)
  breach : t.breach = s.breach
  config : t.bit MOR_WARM_CFG 0 = s.bit MOR_WARM_CFG 0
  parts : t.parts = s.parts
  obj : ∀ e j, (t.obj e j).map (fun o => { o with lag := [] }) = (s.obj e j).map (fun o => { o with lag := [] })
  bundles : t.bundles = s.bundles

theorem STK_WR_ne_of_low {a : Nat} (h : a < 0x02000000 ∨ ∃ u, a = FIRN_EPOCH u) (n : Nat) :
    a ≠ STK_WR_BYTES_LO n ∧ a ≠ STK_WR_BYTES_LO n + 4 := by
  have e : STK_WR_BYTES_LO n = 0x02000000 + n * 0x10000 + 0x28 := rfl
  have e' : ∀ u, FIRN_EPOCH u = 0x04000000 + u * 0x1000 + 4 := fun _ => rfl
  obtain h | ⟨u, rfl⟩ := h
  · omega
  · rw [e']
    omega

theorem Block.warmStart_warmRested (s : Block) {cause : Nat} (hc : cause < 16) (hr : s.atRest) (hi : s.intact)
    (hw : Tbl.wf regReset s.regs = true) : (s.warmStart cause).warmRested s := by
  obtain ⟨w1, w2, w3, w4, w5⟩ := s.warmWork_rested hr hi
  rw [s.warmStart_eq]
  obtain ⟨w, hwd⟩ : ∃ w, w = s.warmWork := ⟨_, rfl⟩
  rw [← hwd] at w1 w2 w3 w4 w5 ⊢
  have hwr : ∀ a, w.rg a = s.rg a → (w.warmReset (decide (5 ≤ cause))).rg a = keepBits a (warmMask (decide (5 ≤ cause)) a) (s.rg a) :=
    fun a ha => (Block.rg_keepRegs_table (w.warmReset_regs _) (w2 hw) a).trans (by rw [ha])
  obtain ⟨v1, v2⟩ := w.warmClear_rg (decide (5 ≤ cause))
  have hcl := w.warmClear_cleared (decide (5 ≤ cause))
  have hidle := w.warmClear_coldIdle (decide (5 ≤ cause))
  obtain ⟨i, hid⟩ : ∃ i, i = decide (5 ≤ cause) := ⟨_, rfl⟩
  rw [← hid] at hwr v1 v2 hcl hidle ⊢
  obtain ⟨z, hz⟩ : ∃ z, z = w.warmReset i := ⟨_, rfl⟩
  rw [← hz] at hwr v1 v2
  obtain ⟨v, hv⟩ : ∃ v, v = w.warmClear i := ⟨_, rfl⟩
  rw [← hv] at v1 v2 hcl hidle ⊢
  have hlow : ∀ a, a < 0x00800000 → v.rg a = keepBits a (warmMask i a) (s.rg a) := fun a ha =>
    (v2 a (Or.inl ha) (epochFree.ne_FIRN_EPOCH (by omega))).trans (hwr a (w1 a (STK_WR_ne_of_low (Or.inl (by omega)))))
  obtain ⟨m1, -, m3⟩ := warmMask_concrete i
  have hvb : v.breach = s.breach := by
    unfold Block.breach Block.bit
    rw [hlow LDG_STATUS (by decide), m3, keepBits_bit _ _ _ (by omega)]
    rfl
  have hwb : w.breach = s.breach := Block.breach_congr (w1 _ (STK_WR_ne_of_low (Or.inl (by decide))))
  have hb := Block.boot_warmBooted hcl.jobs hc s.lcState_lt s.limitW
  have hbb := fun h => Block.boot_breach (s := v) (hidle h) cause s.lcState s.limitW
  obtain ⟨t, ht⟩ : ∃ t, t = v.boot false cause s.lcState s.limitW := ⟨_, rfl⟩
  rw [← ht] at hb hbb ⊢
  have hobj : t.objs = w.objs := (congrArg Block.objs hb.rest :).trans hcl.objs
  refine ⟨fun u hu => ?_, ?_, ?_, (congrArg Block.parts hb.rest :).trans (hcl.parts.trans w4), fun e j => ?_,
    (congrArg Block.bundles hb.rest :).trans (hcl.bundles.trans w5)⟩
  · have e : FIRN_EPOCH u = 0x04000000 + u * 0x1000 + 4 := rfl
    have ht : t.rg (FIRN_EPOCH u) = v.rg (FIRN_EPOCH u) := hb.regs _ (Or.inr (Or.inr (by omega)))
    refine (congrArg (fun w : Word => w.fld 15 0) ht).trans ((v1 u hu).trans (congrArg nextEpoch ?_))
    unfold Block.fld
    rw [hwr _ (w1 _ (STK_WR_ne_of_low (Or.inr ⟨u, rfl⟩))), warmMask_FIRN_EPOCH i hu]
    exact keepBits_fld _ _ _ (by omega) (by omega) (by decide)
  · cases hs : s.breach with
    | false => exact (hbb (hwb.trans hs)).trans (hvb.trans hs)
    | true => exact hb.breach (hvb.trans hs)
  · refine (congrArg (fun w : Word => w.bit 0) (hb.regs MOR_WARM_CFG (Or.inl rfl))).trans ?_
    show (v.rg MOR_WARM_CFG).bit 0 = _
    rw [hlow MOR_WARM_CFG (by decide), m1, keepBits_bit _ _ _ (by omega)]
    rfl
  · rw [Block.obj_congr hobj]
    exact w3 e j

theorem warmCause_rest (s : State) (i : Instr) (c : Nat) (hi : Instr.warmCause i = some c) (hs : s.blk.canStart i)
    (hr : s.blk.atRest) (hn : s.blk.intact) (hw : Tbl.wf regReset s.blk.regs = true) :
    ∃ t : State, exec i s = .next t ∧ t.pending = s.pending ∧
      (∀ u, u < 4096 → t.blk.fld (FIRN_EPOCH u) 15 0 = nextEpoch (s.blk.fld (FIRN_EPOCH u) 15 0)) ∧ t.blk.breach = s.blk.breach ∧
      t.blk.bit MOR_WARM_CFG 0 = s.blk.bit MOR_WARM_CFG 0 ∧ t.blk.parts = s.blk.parts ∧
      (∀ e j, (t.blk.obj e j).map (fun o => { o with lag := [] }) = (s.blk.obj e j).map (fun o => { o with lag := [] })) ∧
      t.blk.bundles = s.blk.bundles := by
  obtain ⟨hc, f, p, hx, he, -, -⟩ := exec_warmCause hi hs
  obtain ⟨b, hb⟩ : ∃ b : Block, b = { s.blk with start := { s.blk.start with perst := p } } := ⟨_, rfl⟩
  have hbr : b.atRest := by rw [hb]; exact hr
  have hbi : b.intact := by rw [hb]; exact hn
  have hbw : Tbl.wf regReset b.regs = true := by rw [hb]; exact hw
  have hregs : b.regs = s.blk.regs := by rw [hb]
  have hobj : b.objs = s.blk.objs := by rw [hb]
  have hparts : b.parts = s.blk.parts := by rw [hb]
  have hbun : b.bundles = s.blk.bundles := by rw [hb]
  have htr : b.trust = s.blk.trust := by rw [hb]
  have hice : b.ice = s.blk.ice := by rw [hb]
  rw [← hb] at he
  have h := b.warmStart_warmRested hc hbr hbi hbw
  have h' := b.warmStart_warmStarted hc
  obtain ⟨t, ht⟩ : ∃ t, t = b.warmStart c := ⟨_, rfl⟩
  rw [← ht] at he h h'
  obtain ⟨h1, h2, h3, h4, h5, h6⟩ := h
  have hf : t.trust.fuses = s.blk.trust.fuses := h'.fuses.trans (congrArg Trust.fuses htr)
  have hp : t.ice.perm = s.blk.ice.perm := h'.perm.trans (congrArg IceCore.perm hice)
  refine ⟨_, hx.trans (onBlk_next_of_eq he hf hp), rfl, fun u hu => (h1 u hu).trans ?_, h2.trans (Block.breach_congr (Block.rg_of_regs hregs _)),
    h3.trans (congrArg (fun w : Word => w.bit 0) (Block.rg_of_regs hregs _)), h4.trans hparts, fun e j => (h5 e j).trans ?_, h6.trans hbun⟩
  · exact congrArg (fun w : Word => nextEpoch (w.fld 15 0)) (Block.rg_of_regs hregs _)
  · rw [Block.obj_congr hobj]

/-! ### No start -/

theorem sidebandWarmReset_idle (s : State) (h : startable s.blk = false) : exec .sidebandWarmReset s = .next s := by
  have hx : exec .sidebandWarmReset s = onBlk effSidebandWarmReset s := rfl
  exact hx.trans (onBlk_idle (if_neg (by simp [h])))

theorem hotReset_idle (s : State) (h : startable s.blk = false ∨ s.blk.start.perst = true ∨ s.blk.start.linkUp = false) :
    exec .hotReset s = .next s := by
  have hx : exec .hotReset s = onBlk effHotReset s := rfl
  refine hx.trans (onBlk_idle (if_neg ?_))
  obtain h | h | h := h <;> simp [h]

theorem perstAssert_idle (s : State) (h : startable s.blk = false ∨ s.blk.start.perst = true) :
    exec .perstAssert s = .next { s with blk := { s.blk with start := { s.blk.start with perst := true } } } := by
  have hx : exec .perstAssert s = onBlk effPerstAssert s := rfl
  have he : effPerstAssert s.blk = { s.blk with start := { s.blk.start with perst := true } } := by
    unfold effPerstAssert
    split
    next hp => rw [← hp]
    next hp =>
      have hn : startable s.blk = false := h.resolve_right hp
      exact if_neg (by rw [show startable { s.blk with start := { s.blk.start with perst := true } } = startable s.blk from rfl, hn]; simp)
  exact hx.trans (onBlk_next_of_eq he rfl rfl)

theorem perstDeassert_spec (s : State) :
    exec .perstDeassert s = .next { s with blk := { s.blk with start := { s.blk.start with perst := false } } } := by
  have hx : exec .perstDeassert s = onBlk effPerstDeassert s := rfl
  exact hx.trans (onBlk_next_of_eq (f := effPerstDeassert) rfl rfl rfl)

/-- Settles O45: the ends of work leave fuses, records and the start as they are; the clearing empties the tables of work and raises
the epochs; and the steps from the cause on leave both. -/
theorem warmStarts : Obligations.WarmStarts := by
  unfold Obligations.WarmStarts
  exact ⟨warmCause_spec, warmCause_rest, sidebandWarmReset_idle, hotReset_idle, perstAssert_idle, perstDeassert_spec⟩

end Sys2Proof.Machine
end

section
/-! The Rime cores: faults, returns, watchdogs, and the faults of ROOT (R402 to R410). -/

namespace Sys2Proof.Machine

/-! ### Cores -/

theorem Block.core_modCore_same (s : Block) (n : Nat) (f : RimeCore → RimeCore) : (s.modCore n f).core n = f (s.core n) := by
  unfold Block.modCore Block.core
  rw [kget_kput_same]
  rfl

theorem Block.core_modCore_other (s : Block) {n m : Nat} (f : RimeCore → RimeCore) (h : m ≠ n) : (s.modCore n f).core m = s.core m := by
  unfold Block.modCore Block.core
  exact congrArg (fun o => o.getD RimeCore.reset) (kget_kput_other _ _ h)

theorem Block.core_congr {s t : Block} (h : t.fw = s.fw) (n : Nat) : t.core n = s.core n := by
  unfold Block.core
  rw [h]

theorem Block.coreState_congr {s t : Block} {n : Nat} (h : t.rg (RIME_STATE n) = s.rg (RIME_STATE n)) : t.coreState n = s.coreState n :=
  congrArg (fun w : Word => w.fld 2 0) h

theorem Block.coreState_setCoreState (s : Block) (n : Nat) {v : Nat} (h : v < 8) : (s.setCoreState n v).coreState n = v :=
  (Block.fld_wf_same _ _ _ (by omega) (by omega)).trans (Nat.mod_eq_of_lt h)

theorem faultable_iff {n : Nat} {s : Block} :
    faultable n s = true ↔ 1 ≤ n ∧ n ≤ 6 ∧ s.fw.loaded = true ∧ (s.coreState n = 2 ∨ s.coreState n = 4) := by
  simp [faultable, and_assoc]

/-! ### What the return of a core changes -/

/-- A block after its core has come back: registers of clients, of ledgers and of the ice core, its queue of records, the links and
what SCHED owed. -/
def Block.returnBack (t s : Block) : Block :=
  { t with regs := s.regs, ice := s.ice, esk := s.esk, lossUntold := s.lossUntold, vOwed := s.vOwed }

/-- The registers that no core's return changes. -/
def returnKeeps (a : Nat) : Prop := a % 0x100 ≠ 0x30 ∧ a % 0x100 ≠ 0x34 ∧ a ≠ ICE_DROPPED ∧ a ≠ LDG_STATUS

structure Block.returned (t s : Block) : Prop where
  rest : t.returnBack s = s
  regs : ∀ a, returnKeeps a → t.rg a = s.rg a
  perm : t.ice.perm = s.ice.perm

theorem Block.returned.refl (s : Block) : s.returned s := ⟨rfl, fun _ _ => rfl, rfl⟩

theorem Block.returned.trans {s t u : Block} (h : u.returned t) (h' : t.returned s) : u.returned s :=
  ⟨(congrArg (fun b : Block => b.returnBack s) h.rest :).trans h'.rest, fun a ha => (h.regs a ha).trans (h'.regs a ha),
    h.perm.trans h'.perm⟩

theorem Block.each_returned {α : Type} (l : List α) (f : Block → α → Block) (h : ∀ s x, (f s x).returned s) (s : Block) :
    (s.each l f).returned s := by
  unfold Block.each
  induction l generalizing s with
  | nil => exact .refl s
  | cons x l ih => exact (ih (f s x)).trans (h s x)

theorem Block.event_returned (s : Block) (src ev : Nat) (d : List Word) : (s.event src ev d).returned s :=
  ⟨by simp [Block.returnBack], fun a ha => Block.rg_event _ _ _ _ ha.2.2.1, Block.event_perm ..⟩

theorem Block.bump_returned (s : Block) : (s.bump ICE_DROPPED).returned s ∧ (s.bump ICE_DROPPED).ice = s.ice :=
  ⟨⟨by simp [Block.returnBack], fun _ ha => Block.rg_bump_other _ _ ha.2.2.1, by simp⟩, by simp⟩

theorem Block.iceEnter_returned (s : Block) (r : IceRec) : (s.iceEnter r).returned s ∧ (s.iceEnter r).ice.health = s.ice.health := by
  unfold Block.iceEnter
  split
  · exact ⟨⟨rfl, fun _ _ => rfl, rfl⟩, rfl⟩
  · obtain ⟨h1, h2⟩ := s.bump_returned
    obtain ⟨b, hb⟩ : ∃ b, b = s.bump ICE_DROPPED := ⟨_, rfl⟩
    rw [← hb] at h1 h2
    rw [← hb, ← h2]
    exact ⟨Block.returned.trans (t := b) ⟨rfl, fun _ _ => rfl, rfl⟩ h1, rfl⟩

theorem Block.wb_returned (s : Block) (i : Nat) (v : Bool) : (s.wb LDG_STATUS i v).returned s := by
  refine ⟨by simp [Block.returnBack], fun a ha => Block.rg_wb_other _ _ _ ha.2.2.2, ?_⟩
  simp

/-- One payment of what SCHED owed while it was away. -/
def Block.vPaid (s : Block) (e : Nat × Nat) : Block := { s.bumpPair (SCH_C e.1 0x30) e.2 with vOwed := [] }

theorem Block.payVtime_eq (s : Block) : s.payVtime = s.each s.vOwed Block.vPaid := rfl

theorem Block.vPaid_returned (s : Block) (e : Nat × Nat) : (s.vPaid e).returned s := by
  refine ⟨by simp [Block.returnBack, Block.vPaid], fun a ha => ?_, rfl⟩
  have e1 : SCH_C e.1 0x30 = 0x06020000 + e.1 * 0x100 + 0x30 := rfl
  obtain ⟨h1, h2, -, -⟩ := ha
  exact (Block.rg_wr_other _ _ (by omega)).trans (Block.rg_wr_other _ _ (by omega))

theorem Block.payVtime_returned (s : Block) : s.payVtime.returned s := by
  rw [s.payVtime_eq]
  exact Block.each_returned _ _ Block.vPaid_returned s

theorem Block.each_vPaid_vOwed (l : List (Nat × Nat)) (s : Block) (h : l = [] → s.vOwed = []) : (s.each l Block.vPaid).vOwed = [] := by
  unfold Block.each
  induction l generalizing s with
  | nil => exact h rfl
  | cons e l ih => exact ih (s.vPaid e) fun _ => rfl

theorem Block.payVtime_vOwed (s : Block) : s.payVtime.vOwed = [] := by
  rw [s.payVtime_eq]
  exact Block.each_vPaid_vOwed _ s id

theorem Block.schedReturns_returned (s : Block) : (s.coreReturns 1).returned s ∧ (s.coreReturns 1).lossUntold = none ∧ (s.coreReturns 1).vOwed = [] := by
  have h1 := s.payVtime_returned
  have h2 := s.payVtime_vOwed
  unfold Block.coreReturns
  rw [if_pos rfl]
  dsimp only
  obtain ⟨b, hb⟩ : ∃ b, b = s.payVtime := ⟨_, rfl⟩
  rw [← hb] at h1 h2 ⊢
  split
  next c hc =>
    obtain ⟨d, hd⟩ : ∃ d : Block, d = { b with lossUntold := none } := ⟨_, rfl⟩
    have h3 : d.returned b := by
      rw [hd]
      exact ⟨rfl, fun _ _ => rfl, rfl⟩
    have h4 : d.lossUntold = none ∧ d.vOwed = [] := by
      rw [hd]
      exact ⟨rfl, h2⟩
    rw [← hd]
    exact ⟨(Block.event_returned ..).trans (h3.trans h1), (Block.event_lossUntold ..).trans h4.1, (Block.event_vOwed ..).trans h4.2⟩
  next hc => exact ⟨h1, hc, h2⟩

theorem Block.healthReturns_returned (s : Block) (h : s.coreUp 6 = true) :
    s.healthReturns.returned s ∧ s.healthReturns.bit LDG_STATUS 1 = true ∧ s.healthReturns.ice.health = [] := by
  unfold Block.healthReturns
  extract_lets l n _ s1 s2
  have h1 : s1.returned s := ⟨rfl, fun _ _ => rfl, rfl⟩
  have h1' : s1.ice.health = [] := rfl
  have h2 : s2 = (s1.each l fun s r => s.iceEnter r).wb LDG_STATUS 1 true := rfl
  clear_value s1 s2
  have h3 := Block.each_returned l (fun s r => s.iceEnter r) (fun b r => (b.iceEnter_returned r).1) s1
  have h4 : (s1.each l fun s r => s.iceEnter r).ice.health = [] :=
    (Block.each_keeps (fun b => b.ice.health) s1 l _ fun b r _ => (b.iceEnter_returned r).2).trans h1'
  obtain ⟨b, hb⟩ : ∃ b, b = s1.each l fun s r => s.iceEnter r := ⟨_, rfl⟩
  rw [← hb] at h2 h3 h4
  have h5 : s2.returned s := by
    rw [h2]
    exact (b.wb_returned 1 true).trans (h3.trans h1)
  have h6 : s2.bit LDG_STATUS 1 = true := by
    rw [h2]
    exact Block.bit_wb_same _ _ _ (by omega)
  have h7 : s2.ice.health = [] := by
    rw [h2, Block.wb_ice]
    exact h4
  split
  · exact ⟨h5, h6, h7⟩
  · have hup : s2.coreUp 6 = true := by
      rw [← h]
      unfold Block.coreUp
      rw [Block.coreState_congr (h5.regs _ ⟨by decide, by decide, by decide, by decide⟩)]
    refine ⟨(Block.event_returned ..).trans h5, (congrArg (fun w : Word => w.bit 1) (Block.rg_event _ _ _ _ (by decide))).trans h6, ?_⟩
    unfold Block.event
    dsimp only
    rw [if_neg (by simp [hup])]
    exact (Block.iceEnter_returned _ _).2.trans h7

/-! ### LINK returns -/

/-- A block with its links changed, and no packet waiting at any port. -/
def Block.linkQuiet (t s : Block) : Prop := (∃ e : Esker, t = { s with esk := e } ∧ e.seen = none) ∧ ∀ p, (t.port p).queue = []

theorem Block.linkQuiet_modPort {s t : Block} (h : t.linkQuiet s) (p : Nat) : (t.modPort p fun x => { x with queue := [] }).linkQuiet s := by
  obtain ⟨⟨e, rfl, he⟩, hq⟩ := h
  refine ⟨⟨_, rfl, he⟩, fun r => ?_⟩
  unfold Block.modPort
  by_cases hr : r = p
  · subst hr
    exact congrArg Port.queue (tget_tset_same _ _ _ _)
  · exact (congrArg Port.queue (tget_tset_other _ _ _ _ hr)).trans (hq r)

theorem Block.linkQuiet_each {α : Type} (l : List α) (f : Block → α → Block) {s : Block}
    (h : ∀ t x, Block.linkQuiet t s → Block.linkQuiet (f t x) s) (t : Block) (ht : t.linkQuiet s) : (t.each l f).linkQuiet s := by
  unfold Block.each
  induction l generalizing t with
  | nil => exact ht
  | cons x l ih => exact ih (f t x) (h t x ht)

theorem Block.pump_linkQuiet {s t : Block} (h : t.linkQuiet s) (p : Nat) : (t.pump p).linkQuiet s := by
  unfold Block.pump
  rw [h.2 p]
  exact Block.linkQuiet_modPort h p

/-- A block whose ports are seen as they are, with the nodes that it takes as down. -/
def Block.seenNow (s : Block) (d : List Nat) : Block := { s with esk := { s.esk with seen := none, down := d } }

theorem Block.reachable_seenNow (s : Block) (d : List Nat) (n : Nat) :
    (s.seenNow d).reachable n = ({ s with esk := { s.esk with seen := none } } : Block).reachable n := rfl

theorem Block.checkNodes_seenNow (s : Block) (l : List Nat) (c : Nat)
    (h : ∀ n ∈ l, ({ s with esk := { s.esk with seen := none } } : Block).reachable n = true) (d : List Nat) :
    ∃ d', (s.seenNow d).checkNodes l c = s.seenNow d' := by
  unfold Block.checkNodes Block.each
  induction l generalizing d with
  | nil => exact ⟨d, rfl⟩
  | cons n l ih =>
    rw [List.foldl_cons, if_pos ((s.reachable_seenNow d n).trans (h n List.mem_cons_self))]
    exact ih (fun m hm => h m (List.mem_cons_of_mem _ hm)) (d.filter (· != n))

theorem tget_all {α : Type} {d : α} {t : Tbl α} {P : α → Bool} (h : t.all (fun e => P e.2) = true) (k : Nat)
    (hd : P d = true) : P (tget d t k) = true := by
  unfold tget
  cases hk : kget t k with
  | none => exact hd
  | some x => exact List.all_eq_true.mp h _ (mem_of_kget hk)

theorem Block.linkReturns_linkQuiet (s : Block) (h : s.returnsQuietly 5) : s.linkReturns.linkQuiet s := by
  obtain ⟨hr, hq⟩ := h.2 rfl
  unfold Block.linkReturns
  extract_lets _ s0 s1
  have hs0 : s0 = s.seenNow s.esk.down := rfl
  obtain ⟨d, hd⟩ := s.checkNodes_seenNow ((s0.esk.routes.filter fun e => e.2.bit 4).map (·.1)) 1 (fun n hn => by
    obtain ⟨e, he, rfl⟩ := List.mem_map.mp hn
    obtain ⟨he, hb⟩ := List.mem_filter.mp he
    have h1 := List.all_eq_true.mp hr e he
    rw [hb] at h1
    exact h1) s.esk.down
  have hs1 : s1 = s.seenNow d := hd
  have h1 : s1.linkQuiet s := by
    rw [hs1]
    refine ⟨⟨_, rfl, rfl⟩, fun p => ?_⟩
    exact List.isEmpty_iff.mp (tget_all (P := fun x : Port => x.queue.isEmpty) hq p rfl)
  clear_value s1
  have h2 := Block.linkQuiet_each (List.range 16) (fun s p =>
    if s.portUp p then s else
    let l := (s.port p).queue
    (s.modPort p fun x => { x with queue := [] }).each l fun s q => if q.own then s.reroute p q else s.discard p) (s := s)
    (fun b p hb => by
      dsimp only
      split
      · exact hb
      · rw [hb.2 p]
        exact Block.linkQuiet_modPort hb p) s1 h1
  exact Block.linkQuiet_each _ _ (fun b p hb => Block.pump_linkQuiet hb p) _ h2

/-! ### A core is back -/

/-- What the return of each core leaves. -/
structure Block.coreBack (t s : Block) (n : Nat) : Prop where
  kept : t.returned s
  sched : n = 1 → t.lossUntold = none ∧ t.vOwed = []
  link : n = 5 → t.esk.seen = none
  health : n = 6 → t.bit LDG_STATUS 1 = true ∧ t.ice.health = []

theorem Block.coreReturns_coreBack (s : Block) {n : Nat} (hn : 1 ≤ n ∧ n ≤ 6) (hq : s.returnsQuietly n) (hu : s.coreUp n = true) :
    (s.coreReturns n).coreBack s n := by
  obtain ⟨h1, h6⟩ := hn
  have hc : n = 1 ∨ n = 2 ∨ n = 3 ∨ n = 4 ∨ n = 5 ∨ n = 6 := by omega
  obtain rfl | rfl | rfl | rfl | rfl | rfl := hc
  · obtain ⟨h2, h3⟩ := s.schedReturns_returned
    exact ⟨h2, fun _ => h3, (absurd · (by decide)), (absurd · (by decide))⟩
  · exact ⟨.refl s, (absurd · (by decide)), (absurd · (by decide)), (absurd · (by decide))⟩
  · have e : s.coreReturns 3 = s := by
      unfold Block.coreReturns
      rw [if_neg (by decide), if_pos rfl, hq.1 rfl]
      rfl
    rw [e]
    exact ⟨.refl s, (absurd · (by decide)), (absurd · (by decide)), (absurd · (by decide))⟩
  · exact ⟨.refl s, (absurd · (by decide)), (absurd · (by decide)), (absurd · (by decide))⟩
  · have h := s.linkReturns_linkQuiet hq
    have e : s.coreReturns 5 = s.linkReturns := rfl
    rw [← e] at h
    obtain ⟨⟨x, hx, hs⟩, -⟩ := h
    rw [hx]
    exact ⟨⟨rfl, fun _ _ => rfl, rfl⟩, (absurd · (by decide)), fun _ => hs, (absurd · (by decide))⟩
  · obtain ⟨h2, h3⟩ := s.healthReturns_returned hu
    have e : s.coreReturns 6 = s.healthReturns := rfl
    rw [e]
    exact ⟨h2, (absurd · (by decide)), (absurd · (by decide)), fun _ => h3⟩

/-! ### Core returns: RIME_CORE_RESTARTED -/

/-- A core that has come back, before what its absence held back. -/
def Block.coreHead (s : Block) (n : Nat) : Block :=
  (((s.setCoreState n 2).bumpFld (RIME_RESTARTS n) 15 0).modCore n fun x => { x with kickAt := s.now }).event (srcCore 0) 0x0702
    [w32 n, (((s.setCoreState n 2).bumpFld (RIME_RESTARTS n) 15 0).modCore n fun x => { x with kickAt := s.now }).rg (RIME_VERSION n),
      w32 ((s.now - (s.core n).faultAt) / 1000)]

theorem coreRestartedEffect_eq (n : Nat) (s : Block) : coreRestartedEffect n s = ((s.coreHead n).coreReturns n).answerRestart n OK := rfl

/-- The registers of core `n` that a fault or a return of it changes. -/
def coreRegs (n a : Nat) : Prop := a = RIME_STATE n ∨ a = RIME_RESTARTS n ∨ a = RIME_FAULT_ADDR n

/-- What a change of core `n` leaves of the block: all but its firmware's table, its registers and the ice core's queue. -/
structure Block.coreChanged (t s : Block) (n : Nat) (c : RimeCore) : Prop where
  rest : { t with regs := s.regs, ice := s.ice, fw := s.fw } = s
  regs : ∀ a, ¬ coreRegs n a → a ≠ ICE_DROPPED → t.rg a = s.rg a
  loaded : t.fw.loaded = s.fw.loaded
  core : t.core n = c
  others : ∀ m, m ≠ n → t.core m = s.core m
  perm : t.ice.perm = s.ice.perm

theorem Block.coreHead_changed (s : Block) (n : Nat) : (s.coreHead n).coreChanged s n { s.core n with kickAt := s.now } ∧
    (s.coreHead n).coreState n = 2 ∧
    (s.coreHead n).fld (RIME_RESTARTS n) 15 0 = min 0xFFFF (s.fld (RIME_RESTARTS n) 15 0 + 1) := by
  have eS : RIME_STATE n = 0x00600000 + 0x40 * n := rfl
  have eR : RIME_RESTARTS n = 0x0060000C + 0x40 * n := rfl
  have eI : ICE_DROPPED = 0x0040001C := rfl
  obtain ⟨b, hb⟩ : ∃ b, b = (s.setCoreState n 2).bumpFld (RIME_RESTARTS n) 15 0 := ⟨_, rfl⟩
  have h1 : b.rg (RIME_STATE n) = (s.setCoreState n 2).rg (RIME_STATE n) := by
    rw [hb]
    exact Block.rg_wf_other _ _ _ _ (by omega)
  have h2 : b.fld (RIME_RESTARTS n) 15 0 = min 0xFFFF (s.fld (RIME_RESTARTS n) 15 0 + 1) := by
    have e : (s.setCoreState n 2).fld (RIME_RESTARTS n) 15 0 = s.fld (RIME_RESTARTS n) 15 0 :=
      congrArg (fun w : Word => w.fld 15 0) (Block.rg_wf_other _ _ _ _ (by omega))
    rw [hb, ← e]
    refine (Block.fld_wf_same _ _ _ (by omega) (by omega)).trans (Nat.mod_eq_of_lt ?_)
    show _ < 65536
    have : (2 : Nat) ^ (15 + 1 - 0) - 1 = 65535 := by decide
    omega
  have h3 : ∀ a, ¬ coreRegs n a → b.rg a = s.rg a := fun a ha => by
    rw [hb]
    exact (Block.rg_wf_other _ _ _ _ fun h => ha (Or.inr (Or.inl h))).trans (Block.rg_wf_other _ _ _ _ fun h => ha (Or.inl h))
  have h4 : { b with regs := s.regs } = s := by
    rw [hb]
    simp [Block.bumpFld, Block.setCoreState]
  unfold Block.coreHead
  rw [← hb]
  have h5 := b.core_modCore_same n fun x => { x with kickAt := s.now }
  have h6 := fun m (h : m ≠ n) => b.core_modCore_other (fun x => { x with kickAt := s.now }) h
  have hbf : b.fw = s.fw := (congrArg Block.fw h4 :)
  have hbi : b.ice = s.ice := (congrArg Block.ice h4 :)
  have h7 : { b.modCore n fun x => { x with kickAt := s.now } with regs := s.regs, fw := s.fw } = s :=
    (congrArg (fun x : Block => { x with fw := s.fw }) h4 :)
  have h8 : (b.modCore n fun x => { x with kickAt := s.now }).fw.loaded = b.fw.loaded := rfl
  have h9 : (b.modCore n fun x => { x with kickAt := s.now }).regs = b.regs := rfl
  obtain ⟨c, hc⟩ : ∃ c, c = b.modCore n fun x => { x with kickAt := s.now } := ⟨_, rfl⟩
  rw [← hc] at h5 h7 h8 h9 ⊢
  rw [Block.core_congr hbf] at h5
  have hice : c.ice = s.ice := (congrArg Block.ice h7 :)
  obtain ⟨d, hd⟩ : ∃ d, d = [w32 n, c.rg (RIME_VERSION n), w32 ((s.now - (s.core n).faultAt) / 1000)] := ⟨_, rfl⟩
  rw [← hd]
  have hev : ∀ a, a ≠ ICE_DROPPED → (c.event (srcCore 0) 0x0702 d).rg a = b.rg a := fun a ha =>
    (Block.rg_event _ _ _ _ ha).trans (Block.rg_of_regs h9 a)
  have hfw := Block.event_fw c (srcCore 0) 0x0702 d
  refine ⟨⟨?_, fun a ha hi => (hev a hi).trans (h3 a ha), (congrArg Firmware.loaded hfw).trans (h8.trans (congrArg Firmware.loaded hbf)),
    (Block.core_congr hfw n).trans h5, fun m hm => (Block.core_congr hfw m).trans ?_, (Block.event_perm ..).trans (congrArg IceCore.perm hice)⟩,
    ?_, ?_⟩
  · have e : { c.event (srcCore 0) 0x0702 d with regs := c.regs, ice := c.ice } = c := by simp
    exact (congrArg (fun x : Block => { x with regs := s.regs, ice := s.ice, fw := s.fw }) e :).trans
      ((congrArg (fun x : Block => { x with ice := s.ice }) h7 :))
  · rw [hc]
    exact (h6 m hm).trans (Block.core_congr hbf m)
  · exact (Block.coreState_congr ((hev _ (by omega)).trans h1)).trans (s.coreState_setCoreState n (by decide))
  · exact (congrArg (fun w : Word => w.fld 15 0) (hev _ (by omega))).trans h2

theorem Block.answerRestart_none {s : Block} {n : Nat} (st : Nat) (h : (s.core n).reply = none) : s.answerRestart n st = s := by
  unfold Block.answerRestart
  rw [h]

theorem exec_rimeCoreRestarted {s : State} {n : Nat} (h : faultable n s.blk = true) (hc : s.blk.coreState n = 4) :
    exec (.rimeCoreRestarted n) s = onBlk (fun b => if faultable n b && b.coreState n == 4 then coreRestartedEffect n b else b) s ∧
      (if faultable n s.blk && s.blk.coreState n == 4 then coreRestartedEffect n s.blk else s.blk) =
        ((s.blk.coreHead n).coreReturns n).answerRestart n OK :=
  ⟨rfl, if_pos (by simp [h, hc])⟩

/-- A core that has come back, with what its absence held back. -/
structure Block.coreRestored (t s : Block) (n : Nat) : Prop where
  state : t.coreState n = 2
  count : t.fld (RIME_RESTARTS n) 15 0 = min 0xFFFF (s.fld (RIME_RESTARTS n) 15 0 + 1)
  back : n = 6 → t.bit LDG_STATUS 1 = true ∧ t.ice.health = []
  link : n = 5 → t.esk.seen = none
  sched : n = 1 → t.lossUntold = none ∧ t.vOwed = []
  core : t.core n = { s.core n with kickAt := s.now }
  others : ∀ m, m ≠ n → t.core m = s.core m
  rest : { t with regs := s.regs, fw := s.fw, ice := s.ice, esk := s.esk, lossUntold := s.lossUntold, vOwed := s.vOwed } = s
  regs : ∀ a, returnKeeps a → ¬ coreRegs n a → t.rg a = s.rg a
  perm : t.ice.perm = s.ice.perm

theorem Block.reachable_congr {s t : Block} (hg : ∀ a, 0x700000 ≤ a → t.rg a = s.rg a) (he : t.esk = s.esk) (m : Nat) :
    t.reachable m = s.reachable m := by
  have hn : t.node = s.node := congrArg (fun w : Word => w.fld 14 0) (hg ESK_NODE (by decide))
  have hp : t.portUp = s.portUp := funext fun p => by
    have e : ESK_STATE p = 0x00800000 + p * 0x80000 + 0 := rfl
    exact congrArg (fun w : Word => w.fld 1 0 == 2) (hg (ESK_STATE p) (by omega))
  have hr : t.route m = s.route m := by
    unfold Block.route
    rw [he]
  have hu : t.routeUp = s.routeUp := funext fun p => by
    unfold Block.routeUp
    rw [he, hp]
  unfold Block.reachable Block.fixedPort Block.adaptUp
  rw [hn, hr, hu]

theorem Block.coreReturns_coreRestored (s : Block) {n : Nat} (hn : 1 ≤ n ∧ n ≤ 6) (hq : s.returnsQuietly n) :
    ((s.coreHead n).coreReturns n).coreRestored s n := by
  obtain ⟨⟨h1, h2, h3, h4, h5, h6⟩, h7, h8⟩ := s.coreHead_changed n
  have hesk : (s.coreHead n).esk = s.esk := (congrArg Block.esk h1 :)
  have hsnow : (s.coreHead n).snow = s.snow := (congrArg Block.snow h1 :)
  obtain ⟨b, hb⟩ : ∃ b, b = s.coreHead n := ⟨_, rfl⟩
  rw [← hb] at h1 h2 h3 h4 h5 h6 h7 h8 hesk hsnow ⊢
  have hreach : ∀ m, ({ b with esk := { b.esk with seen := none } } : Block).reachable m =
      ({ s with esk := { s.esk with seen := none } } : Block).reachable m := by
    refine Block.reachable_congr (fun a ha => ?_) (congrArg (fun e : Esker => { e with seen := none }) hesk)
    have eS : RIME_STATE n = 0x00600000 + 0x40 * n := rfl
    have eR : RIME_RESTARTS n = 0x0060000C + 0x40 * n := rfl
    have eF : RIME_FAULT_ADDR n = 0x00600010 + 0x40 * n := rfl
    have eI : ICE_DROPPED = 0x0040001C := rfl
    exact h2 a (by unfold coreRegs; omega) (by omega)
  have hqb : b.returnsQuietly n := by
    refine ⟨fun h => hsnow.trans (hq.1 h), fun h => ?_⟩
    rw [hesk]
    obtain ⟨q1, q2⟩ := hq.2 h
    refine ⟨?_, q2⟩
    rw [← q1]
    refine congrArg _ (funext fun e => ?_)
    rw [← hreach, hesk]
  have hk := b.coreReturns_coreBack hn hqb (by unfold Block.coreUp; rw [h7]; decide)
  obtain ⟨c, hc⟩ : ∃ c, c = b.coreReturns n := ⟨_, rfl⟩
  rw [← hc] at hk ⊢
  obtain ⟨⟨k1, k2, k3⟩, k4, k5, k6⟩ := hk
  have hfw : c.fw = b.fw := (congrArg Block.fw k1 :)
  have eS : RIME_STATE n = 0x00600000 + 0x40 * n := rfl
  have eR : RIME_RESTARTS n = 0x0060000C + 0x40 * n := rfl
  have eI : ICE_DROPPED = 0x0040001C := rfl
  have eL : LDG_STATUS = 0x00500000 := rfl
  refine ⟨(Block.coreState_congr (k2 _ ?_)).trans h7, (congrArg (fun w : Word => w.fld 15 0) (k2 _ ?_)).trans h8, k6, k5, k4,
    (Block.core_congr hfw n).trans h4, fun m hm => (Block.core_congr hfw m).trans (h5 m hm), ?_,
    fun a ha hr => (k2 a ha).trans (h2 a hr ha.2.2.1), k3.trans h6⟩
  · unfold returnKeeps
    omega
  · unfold returnKeeps
    omega
  · exact (congrArg (fun x : Block => { x with regs := s.regs, fw := s.fw, ice := s.ice, esk := s.esk, lossUntold := s.lossUntold, vOwed := s.vOwed }) k1 :).trans
      (congrArg (fun x : Block => { x with esk := s.esk, lossUntold := s.lossUntold, vOwed := s.vOwed }) h1 :)

theorem rimeCoreRestarted_quiet (s : State) (n : Nat) (h : faultable n s.blk = true) (hc : s.blk.coreState n = 4)
    (hr : (s.blk.core n).reply = none) (hq : s.blk.returnsQuietly n) :
    ∃ t : State, exec (.rimeCoreRestarted n) s = .next t ∧ t.pending = s.pending ∧ t.blk.coreState n = 2 ∧
      t.blk.fld (RIME_RESTARTS n) 15 0 = min 0xFFFF (s.blk.fld (RIME_RESTARTS n) 15 0 + 1) ∧ (t.blk.core n).kickAt = s.blk.now ∧
      (n = 6 → t.blk.bit LDG_STATUS 1 = true ∧ t.blk.ice.health = []) ∧ (n = 5 → t.blk.esk.seen = none) ∧
      (n = 1 → t.blk.lossUntold = none ∧ t.blk.vOwed = []) ∧ (∀ m, m ≠ n → t.blk.core m = s.blk.core m) ∧
      { t.blk with regs := s.blk.regs, fw := s.blk.fw, ice := s.blk.ice, esk := s.blk.esk, lossUntold := s.blk.lossUntold,
                   vOwed := s.blk.vOwed } = s.blk := by
  obtain ⟨hx, he⟩ := exec_rimeCoreRestarted h hc
  obtain ⟨h1, h6, -, -⟩ := faultable_iff.mp h
  have hk := s.blk.coreReturns_coreRestored ⟨h1, h6⟩ hq
  obtain ⟨t, ht⟩ : ∃ t, t = (s.blk.coreHead n).coreReturns n := ⟨_, rfl⟩
  rw [← ht] at he hk
  obtain ⟨k1, k2, k3, k4, k5, k6, k7, k8, -, k10⟩ := hk
  rw [Block.answerRestart_none _ ((congrArg RimeCore.reply k6).trans hr)] at he
  exact ⟨_, hx.trans (onBlk_next_of_eq he (congrArg (fun b : Block => b.trust.fuses) k8 :) k10), rfl, k1, k2,
    congrArg RimeCore.kickAt k6, k3, k4, k5, k7, k8⟩

theorem rimeCoreRestarted_replies (s : State) (n : Nat) (ch : Chan) (h : Word) (hf : faultable n s.blk = true) (hc : s.blk.coreState n = 4)
    (hr : (s.blk.core n).reply = some (ch, h, false)) (hs : chSecure ch = true) (ho : (s.blk.box (chBase ch)).owed = true)
    (hb : s.blk.backFree ch) (hq : s.blk.returnsQuietly n) :
    ∃ t : State, exec (.rimeCoreRestarted n) s = .next t ∧ t.pending = s.pending ∧ t.blk.coreState n = 2 ∧ t.blk.full (chBack ch) = true ∧
      t.blk.rg (chBack ch) = h ∧ t.blk.rg (chBack ch + 4) = w32 OK ∧ (t.blk.core n).reply = none ∧ t.blk.jobs = s.blk.jobs ∧
      t.blk.objs = s.blk.objs ∧ t.blk.parts = s.blk.parts := by
  obtain ⟨hx, he⟩ := exec_rimeCoreRestarted hf hc
  obtain ⟨h1, h6, -, -⟩ := faultable_iff.mp hf
  have hk := s.blk.coreReturns_coreRestored ⟨h1, h6⟩ hq
  obtain ⟨c, hcd⟩ : ∃ c, c = (s.blk.coreHead n).coreReturns n := ⟨_, rfl⟩
  rw [← hcd] at he hk
  obtain ⟨k1, -, -, -, -, k6, -, k8, k9, k10⟩ := hk
  have hrep : (c.core n).reply = some (ch, h, false) := (congrArg RimeCore.reply k6).trans hr
  obtain ⟨d, hd⟩ : ∃ d, d = c.modCore n fun x => { x with reply := none } := ⟨_, rfl⟩
  have hans : c.answerRestart n OK = d.replyLate ch [h, w32 OK] := by
    unfold Block.answerRestart
    rw [hrep, hd]
    rfl
  have hdr : d.regs = c.regs := by rw [hd]; rfl
  have hdm : d.mbx = c.mbx := by rw [hd]; rfl
  have hdi : d.ice = c.ice := by rw [hd]; rfl
  have hdt : d.trust = c.trust := by rw [hd]; rfl
  have hdj : d.jobs = c.jobs := by rw [hd]; rfl
  have hdo : d.objs = c.objs := by rw [hd]; rfl
  have hdp : d.parts = c.parts := by rw [hd]; rfl
  have hdc : (d.core n).reply = none := by rw [hd, Block.core_modCore_same]
  have hmbx : d.mbx = s.blk.mbx := hdm.trans (congrArg Block.mbx k8 :)
  obtain ⟨e, hed⟩ : ∃ e, e = d.setBox (chBase ch) { d.box (chBase ch) with owed := false } := ⟨_, rfl⟩
  have hlate : d.replyLate ch [h, w32 OK] = e.reply ch [h, w32 OK] := by
    unfold Block.replyLate
    rw [Block.box_congr hmbx, ho, hed, Block.box_congr hmbx]
    rfl
  have hback : chBack ch + 0x44 = 0x308144 ∨ chBack ch + 0x44 = 0x300000144 := by
    cases ch with
    | fn f k => cases hs
    | s0 => exact Or.inl rfl
    | s1 => exact Or.inr rfl
    | mgmt => cases hs
  have eS : RIME_STATE n = 0x00600000 + 0x40 * n := rfl
  have eR : RIME_RESTARTS n = 0x0060000C + 0x40 * n := rfl
  have eF : RIME_FAULT_ADDR n = 0x00600010 + 0x40 * n := rfl
  have eI : ICE_DROPPED = 0x0040001C := rfl
  have eL : LDG_STATUS = 0x00500000 := rfl
  have hrg : e.rg (chBack ch + 0x44) = s.blk.rg (chBack ch + 0x44) := by
    rw [hed]
    refine (Block.rg_setBox ..).trans ((Block.rg_of_regs hdr _).trans (k9 _ ?_ ?_))
    · unfold returnKeeps
      omega
    · unfold coreRegs
      omega
  have hfree : e.backFree ch := by
    refine ⟨(congrArg (fun w : Word => w.bit 0) hrg).trans hb.1, ?_⟩
    rw [hed, Block.box_setBox_other _ _ (by have := chBase_lt_chBack ch; omega), Block.box_congr hmbx]
    exact hb.2
  obtain ⟨hfull, hregs⟩ := Block.reply_free hfree [h, w32 OK]
  have hst := e.reply_still ch [h, w32 OK] (b := false)
  have hsame : e.fw = d.fw ∧ e.trust = d.trust ∧ e.ice = d.ice ∧ e.jobs = d.jobs ∧ e.objs = d.objs ∧ e.parts = d.parts ∧ e.regs = d.regs := by
    rw [hed]
    exact ⟨rfl, rfl, rfl, rfl, rfl, rfl, rfl⟩
  obtain ⟨e1, e2, e3, e4, e5, e6, e7⟩ := hsame
  rw [hans, hlate] at he
  refine ⟨_, hx.trans (onBlk_next_of_eq he ?_ ?_), rfl, ?_, hfull, hregs 0 (by decide), hregs 1 (by decide), ?_, ?_, ?_, ?_⟩
  · rw [Block.reply_trust, e2, hdt]
    exact (congrArg (fun b : Block => b.trust.fuses) k8 :)
  · rw [Block.reply_perm, e3, hdi]
    exact k10
  · refine (Block.coreState_congr ((Block.rg_of_still hst ?_).trans ((Block.rg_of_regs e7 _).trans (Block.rg_of_regs hdr _)))).trans k1
    unfold stillReg
    exact decide_eq_true (by omega)
  · rw [Block.core_congr (Block.reply_fw ..), Block.core_congr e1]
    exact hdc
  · rw [Block.reply_jobs, e4, hdj]
    exact (congrArg Block.jobs k8 :)
  · rw [Block.reply_objs, e5, hdo]
    exact (congrArg Block.objs k8 :)
  · rw [Block.reply_parts, e6, hdp]
    exact (congrArg Block.parts k8 :)

theorem rimeCoreRestarted_idle (s : State) (n : Nat) (h : faultable n s.blk = false ∨ s.blk.coreState n ≠ 4) :
    exec (.rimeCoreRestarted n) s = .next s := by
  have hx : exec (.rimeCoreRestarted n) s = onBlk (effRimeCoreRestarted n) s := rfl
  refine hx.trans (onBlk_idle (if_neg ?_))
  obtain h | h := h <;> simp [h]

/-! ### Faults: RIME_CORE_FAULT -/

/-- The faults of a core within 1 s, with one of now. -/
def Block.recentFaults (s : Block) (n : Nat) : List Nat := s.now :: (s.core n).faults.filter fun t => decide (s.now < t + 1000000000)

/-- A core halted by a fault, its fault in its registers. -/
def Block.coreStopped (s : Block) (n cause addr : Nat) : Block :=
  (((s.modCore n fun x => { x with faults := s.recentFaults n }).setCoreState n 3).wf (RIME_STATE n) 6 4 cause).wr
    (RIME_FAULT_ADDR n) (w32 addr)

/-- A core halted by a fault, its fault recorded. -/
def Block.coreHalted (s : Block) (n cause pc addr : Nat) : Block :=
  (s.coreStopped n cause addr).event (srcCore 0) 0x0701 [w32 n, w32 cause, w32 pc, w32 addr]

/-- A halted core that is given up. -/
def Block.coreGivenUp (s : Block) (n k : Nat) : Block :=
  ((s.coreLeaves n).setCoreState n 5).event (srcCore 0) 0x0703 [w32 n, w32 k]

theorem coreFaultEffect_eq (n cause pc addr : Nat) (s : Block) : coreFaultEffect n cause pc addr s =
    if (s.coreHalted n cause pc addr).faultLimit ≤ (s.recentFaults n).length then
      ((s.coreHalted n cause pc addr).coreGivenUp n (s.recentFaults n).length).answerRestart n (NOT_READY 0x19)
    else (s.coreHalted n cause pc addr).restart n := rfl

/-- The fault of core `n` as its registers show it. -/
structure Block.faultShown (t : Block) (n cause addr : Nat) : Prop where
  cause : t.fld (RIME_STATE n) 6 4 = cause
  addr : t.rg (RIME_FAULT_ADDR n) = w32 addr

theorem Block.coreStopped_changed (s : Block) {n cause : Nat} (addr : Nat) (hc : cause < 8) :
    (s.coreStopped n cause addr).coreChanged s n { s.core n with faults := s.recentFaults n } ∧
    (s.coreStopped n cause addr).faultShown n cause addr := by
  have eS : RIME_STATE n = 0x00600000 + 0x40 * n := rfl
  have eF : RIME_FAULT_ADDR n = 0x00600010 + 0x40 * n := rfl
  obtain ⟨f, hf⟩ : ∃ f : RimeCore → RimeCore, f = fun x => { x with faults := s.recentFaults n } := ⟨_, rfl⟩
  have hfc : { s.core n with faults := s.recentFaults n } = f (s.core n) := by rw [hf]
  unfold Block.coreStopped
  rw [← hf, hfc]
  have h1 := s.core_modCore_same n f
  have h2 := fun m (h : m ≠ n) => s.core_modCore_other f h
  have h3 : { s.modCore n f with fw := s.fw } = s := rfl
  have h4 : (s.modCore n f).fw.loaded = s.fw.loaded := rfl
  obtain ⟨b, hb⟩ : ∃ b, b = s.modCore n f := ⟨_, rfl⟩
  rw [← hb] at h1 h3 h4 ⊢
  have hr : b.regs = s.regs := (congrArg Block.regs h3 :)
  obtain ⟨c, hcd⟩ : ∃ c, c = (b.setCoreState n 3).wf (RIME_STATE n) 6 4 cause := ⟨_, rfl⟩
  have k1 : { c with regs := b.regs } = b := by
    rw [hcd]
    simp [Block.setCoreState]
  have k2 : ∀ a, a ≠ RIME_STATE n → c.rg a = b.rg a := fun a ha => by
    rw [hcd]
    exact (Block.rg_wf_other _ _ _ _ ha).trans (Block.rg_wf_other _ _ _ _ ha)
  have k3 : c.fld (RIME_STATE n) 6 4 = cause := by
    rw [hcd]
    exact (Block.fld_wf_same _ _ _ (by omega) (by omega)).trans (Nat.mod_eq_of_lt hc)
  rw [← hcd]
  have k4 : { c.wr (RIME_FAULT_ADDR n) (w32 addr) with regs := c.regs } = c := by simp
  have k5 : ∀ a, a ≠ RIME_FAULT_ADDR n → (c.wr (RIME_FAULT_ADDR n) (w32 addr)).rg a = c.rg a := fun a ha => Block.rg_wr_other _ _ ha
  have k6 : (c.wr (RIME_FAULT_ADDR n) (w32 addr)).rg (RIME_FAULT_ADDR n) = w32 addr := Block.rg_wr_same ..
  obtain ⟨d, hd⟩ : ∃ d, d = c.wr (RIME_FAULT_ADDR n) (w32 addr) := ⟨_, rfl⟩
  rw [← hd] at k4 k5 k6 ⊢
  have hdb : { d with regs := b.regs } = b := (congrArg (fun x : Block => { x with regs := b.regs }) k4 :).trans k1
  have hfw : d.fw = b.fw := (congrArg Block.fw hdb :)
  refine ⟨⟨(congrArg (fun x : Block => { x with regs := s.regs, ice := s.ice, fw := s.fw }) hdb :).trans
    (congrArg (fun x : Block => { x with regs := s.regs, ice := s.ice }) h3 :), fun a ha _ => ?_, (congrArg Firmware.loaded hfw).trans h4,
    (Block.core_congr hfw n).trans h1, fun m hm => (Block.core_congr hfw m).trans ?_, ?_⟩, ?_, k6⟩
  · exact (k5 a fun h => ha (Or.inr (Or.inr h))).trans ((k2 a fun h => ha (Or.inl h)).trans (Block.rg_of_regs hr a))
  · rw [hb]
    exact h2 m hm
  · exact (congrArg (fun x : Block => x.ice.perm) hdb :).trans (congrArg (fun x : Block => x.ice.perm) h3 :)
  · exact (congrArg (fun w : Word => w.fld 6 4) (k5 _ (by omega))).trans k3

theorem Block.coreChanged.now {s t : Block} {n : Nat} {c : RimeCore} (h : t.coreChanged s n c) : t.now = s.now := by
  have e0 : CLK_TB_LO = 0x00100020 := rfl
  have eS : RIME_STATE n = 0x00600000 + 0x40 * n := rfl
  have eF : RIME_FAULT_ADDR n = 0x00600010 + 0x40 * n := rfl
  have eR : RIME_RESTARTS n = 0x0060000C + 0x40 * n := rfl
  have eI : ICE_DROPPED = 0x0040001C := rfl
  have h0 := h.regs CLK_TB_LO (by unfold coreRegs; omega) (by omega)
  have h4 := h.regs (CLK_TB_LO + 4) (by unfold coreRegs; omega) (by omega)
  unfold Block.now Block.pair
  rw [h0, h4]

/-- An event changes the ice core's queue and its count of losses alone. -/
theorem Block.event_changed {s t : Block} {n : Nat} {c : RimeCore} (h : t.coreChanged s n c) (src ev : Nat) (d : List Word) :
    (t.event src ev d).coreChanged s n c := by
  obtain ⟨h1, h2, h3, h4, h5, h6⟩ := h
  have hfw := Block.event_fw t src ev d
  have e : { t.event src ev d with regs := t.regs, ice := t.ice } = t := by simp
  exact ⟨(congrArg (fun x : Block => { x with regs := s.regs, ice := s.ice, fw := s.fw }) e :).trans h1,
    fun a ha hi => (Block.rg_event _ _ _ _ hi).trans (h2 a ha hi), (congrArg Firmware.loaded hfw).trans h3,
    (Block.core_congr hfw n).trans h4, fun m hm => (Block.core_congr hfw m).trans (h5 m hm), (Block.event_perm ..).trans h6⟩

theorem Block.faultShown_congr {s t : Block} {n cause addr : Nat} (h : s.faultShown n cause addr)
    (h1 : t.fld (RIME_STATE n) 6 4 = s.fld (RIME_STATE n) 6 4) (h2 : t.rg (RIME_FAULT_ADDR n) = s.rg (RIME_FAULT_ADDR n)) :
    t.faultShown n cause addr := ⟨h1.trans h.cause, h2.trans h.addr⟩

theorem Block.coreHalted_changed (s : Block) {n cause : Nat} (pc addr : Nat) (hc : cause < 8) :
    (s.coreHalted n cause pc addr).coreChanged s n { s.core n with faults := s.recentFaults n } ∧
    (s.coreHalted n cause pc addr).faultShown n cause addr := by
  obtain ⟨h1, h2⟩ := s.coreStopped_changed (n := n) addr hc
  have eS : RIME_STATE n = 0x00600000 + 0x40 * n := rfl
  have eF : RIME_FAULT_ADDR n = 0x00600010 + 0x40 * n := rfl
  have eI : ICE_DROPPED = 0x0040001C := rfl
  exact ⟨Block.event_changed h1 _ _ _, Block.faultShown_congr h2
    (congrArg (fun w : Word => w.fld 6 4) (Block.rg_event _ _ _ _ (by omega))) (Block.rg_event _ _ _ _ (by omega))⟩

/-- A core that leaves changes the view of the ports, or the bit of the audits. -/
structure Block.coreLeft (t s : Block) : Prop where
  rest : { t with regs := s.regs, esk := s.esk } = s
  regs : ∀ a, a ≠ LDG_STATUS → t.rg a = s.rg a

theorem Block.coreLeaves_left (s : Block) (n : Nat) : (s.coreLeaves n).coreLeft s := by
  unfold Block.coreLeaves
  split
  · exact ⟨rfl, fun _ _ => rfl⟩
  · split
    · exact ⟨by simp, fun a ha => Block.rg_wb_other _ _ _ ha⟩
    · exact ⟨rfl, fun _ _ => rfl⟩

/-- A core that has faulted. -/
structure Block.coreFaulted (t s : Block) (n cause addr st : Nat) : Prop where
  state : t.coreState n = st
  shown : t.faultShown n cause addr
  image : (t.core n).image = (s.core n).image
  owed : (t.core n).reply = (s.core n).reply
  cores : ∀ m, m ≠ n → t.core m = s.core m
  states : ∀ m, m ≠ n → t.coreState m = s.coreState m
  rest : { t with regs := s.regs, fw := s.fw, ice := s.ice, esk := s.esk } = s
  perm : t.ice.perm = s.ice.perm

/-- A halted core that leaves, in the state `st`. -/
def Block.coreGone (s : Block) (n st : Nat) : Block := (s.coreLeaves n).setCoreState n st

theorem Block.coreGone_faulted {s h : Block} {n cause addr : Nat} {c : RimeCore} {st : Nat} (hn : n < 7) (hst : st < 8)
    (hc : h.coreChanged s n c) (hs : h.faultShown n cause addr) (hi : c.image = (s.core n).image) (hr : c.reply = (s.core n).reply) :
    (h.coreGone n st).coreFaulted s n cause addr st := by
  have hl := h.coreLeaves_left n
  unfold Block.coreGone
  obtain ⟨b, hb⟩ : ∃ b, b = h.coreLeaves n := ⟨_, rfl⟩
  rw [← hb] at hl ⊢
  obtain ⟨l1, l2⟩ := hl
  have k0 := b.coreState_setCoreState n hst
  have k1 : ∀ a, a ≠ RIME_STATE n → (b.setCoreState n st).rg a = b.rg a := fun a ha => Block.rg_wf_other _ _ _ _ ha
  have k2 : (b.setCoreState n st).fld (RIME_STATE n) 6 4 = b.fld (RIME_STATE n) 6 4 :=
    Block.fld_wf_other _ _ _ _ (by omega) (by omega) (Or.inr (Or.inr (by omega)))
  have k3 : { b.setCoreState n st with regs := b.regs } = b := by simp [Block.setCoreState]
  obtain ⟨d, hd⟩ : ∃ d, d = b.setCoreState n st := ⟨_, rfl⟩
  rw [← hd] at k0 k1 k2 k3 ⊢
  have eS : ∀ n, RIME_STATE n = 0x00600000 + 0x40 * n := fun _ => rfl
  have eF : ∀ n, RIME_FAULT_ADDR n = 0x00600010 + 0x40 * n := fun _ => rfl
  have eR : ∀ n, RIME_RESTARTS n = 0x0060000C + 0x40 * n := fun _ => rfl
  have eI : ICE_DROPPED = 0x0040001C := rfl
  have eL : LDG_STATUS = 0x00500000 := rfl
  have hfw : d.fw = h.fw := (congrArg Block.fw k3 :).trans (congrArg Block.fw l1 :)
  obtain ⟨c1, c2, c3, c4, c5, c6⟩ := hc
  have hcore : d.core n = c := (Block.core_congr hfw n).trans c4
  refine ⟨k0, Block.faultShown_congr hs (k2.trans (congrArg (fun w : Word => w.fld 6 4) (l2 _ (by simp only [eS]; omega))))
    ((k1 _ (by simp only [eS, eF]; omega)).trans (l2 _ (by simp only [eF]; omega))), (congrArg RimeCore.image hcore).trans hi,
    (congrArg RimeCore.reply hcore).trans hr, fun m hm => (Block.core_congr hfw m).trans (c5 m hm), fun m hm => ?_, ?_, ?_⟩
  · refine Block.coreState_congr ((k1 _ ?_).trans ((l2 _ ?_).trans (c2 _ ?_ ?_)))
    · simp only [eS]
      omega
    · simp only [eS]
      omega
    · unfold coreRegs
      simp only [eS, eF, eR]
      omega
    · simp only [eS]
      omega
  · exact (congrArg (fun x : Block => { x with regs := s.regs, fw := s.fw, ice := s.ice, esk := s.esk }) k3 :).trans
      ((congrArg (fun x : Block => { x with regs := s.regs, fw := s.fw, ice := s.ice, esk := s.esk }) l1 :).trans
        (congrArg (fun x : Block => { x with esk := s.esk }) c1 :))
  · exact (congrArg (fun x : Block => x.ice.perm) k3 :).trans ((congrArg (fun x : Block => x.ice.perm) l1 :).trans c6)

theorem Block.event_faulted {s t : Block} {n cause addr st : Nat} (h : t.coreFaulted s n cause addr st) (src ev : Nat)
    (d : List Word) : (t.event src ev d).coreFaulted s n cause addr st := by
  obtain ⟨h1, h2, h3, h4, h5, h6, h7, h8⟩ := h
  have hfw := Block.event_fw t src ev d
  have e : { t.event src ev d with regs := t.regs, ice := t.ice } = t := by simp
  have hg : ∀ m, (t.event src ev d).rg (RIME_STATE m) = t.rg (RIME_STATE m) := fun m => Block.rg_event _ _ _ _ (by
    have e1 : RIME_STATE m = 0x00600000 + 0x40 * m := rfl
    have e2 : ICE_DROPPED = 0x0040001C := rfl
    omega)
  refine ⟨(Block.coreState_congr (hg n)).trans h1,
    Block.faultShown_congr h2 (congrArg (fun w : Word => w.fld 6 4) (hg n)) (Block.rg_event _ _ _ _ ?_),
    (congrArg RimeCore.image (Block.core_congr hfw n)).trans h3, (congrArg RimeCore.reply (Block.core_congr hfw n)).trans h4,
    fun m hm => (Block.core_congr hfw m).trans (h5 m hm), fun m hm => (Block.coreState_congr (hg m)).trans (h6 m hm),
    (congrArg (fun x : Block => { x with regs := s.regs, fw := s.fw, ice := s.ice, esk := s.esk }) e :).trans h7,
    (Block.event_perm ..).trans h8⟩
  have e1 : RIME_FAULT_ADDR n = 0x00600010 + 0x40 * n := rfl
  have e2 : ICE_DROPPED = 0x0040001C := rfl
  omega

theorem Block.modCore_faulted {s t : Block} {n cause addr st : Nat} (h : t.coreFaulted s n cause addr st) (f : RimeCore → RimeCore)
    (hi : ∀ c, (f c).image = c.image) (hr : ∀ c, (f c).reply = c.reply) : (t.modCore n f).coreFaulted s n cause addr st := by
  obtain ⟨h1, h2, h3, h4, h5, h6, h7, h8⟩ := h
  have hc := t.core_modCore_same n f
  have ho := fun m (hm : m ≠ n) => t.core_modCore_other f hm
  have hg : ∀ a, (t.modCore n f).rg a = t.rg a := fun _ => rfl
  have hi' : (t.modCore n f).ice = t.ice := rfl
  have e : { t.modCore n f with fw := s.fw } = { t with fw := s.fw } := rfl
  obtain ⟨u, hu⟩ : ∃ u, u = t.modCore n f := ⟨_, rfl⟩
  rw [← hu] at hc hg hi' e ⊢
  refine ⟨(Block.coreState_congr (hg _)).trans h1, Block.faultShown_congr h2 (congrArg (fun w : Word => w.fld 6 4) (hg _)) (hg _),
    (congrArg RimeCore.image hc).trans ((hi _).trans h3), (congrArg RimeCore.reply hc).trans ((hr _).trans h4),
    fun m hm => ?_, fun m hm => (Block.coreState_congr (hg _)).trans (h6 m hm),
    (congrArg (fun x : Block => { x with regs := s.regs, ice := s.ice, esk := s.esk }) e :).trans h7,
    (congrArg IceCore.perm hi').trans h8⟩
  rw [hu]
  exact (ho m hm).trans (h5 m hm)

theorem Block.coreHalted_limit (s : Block) {n cause : Nat} (pc addr : Nat) (hn : n < 7) (hc : cause < 8) :
    (s.coreHalted n cause pc addr).faultLimit = s.faultLimit := by
  obtain ⟨⟨-, h2, -⟩, -⟩ := s.coreHalted_changed (n := n) pc addr hc
  have hr := h2 RIME_CFG (by
    have e1 : RIME_CFG = 0x00601000 := rfl
    have eS : RIME_STATE n = 0x00600000 + 0x40 * n := rfl
    have eF : RIME_FAULT_ADDR n = 0x00600010 + 0x40 * n := rfl
    have eR : RIME_RESTARTS n = 0x0060000C + 0x40 * n := rfl
    unfold coreRegs
    omega) (by decide)
  unfold Block.faultLimit Block.fld
  rw [hr]

theorem Block.restart_eq (s : Block) (n : Nat) : s.restart n = (s.coreGone n 4).modCore n fun x => { x with faultAt := s.now } := rfl

theorem Block.coreFault_restarts (s : Block) {n cause : Nat} (pc addr : Nat) (hn : n < 7) (hc : cause < 8)
    (hl : (s.recentFaults n).length < s.faultLimit) :
    (coreFaultEffect n cause pc addr s).coreFaulted s n cause addr 4 ∧ ((coreFaultEffect n cause pc addr s).core n).faultAt = s.now := by
  obtain ⟨h1, h2⟩ := s.coreHalted_changed pc addr hc
  rw [coreFaultEffect_eq, s.coreHalted_limit pc addr hn hc, if_neg (by omega), Block.restart_eq]
  obtain ⟨b, hb⟩ : ∃ b, b = s.coreHalted n cause pc addr := ⟨_, rfl⟩
  rw [← hb] at h1 h2 ⊢
  have hnow : b.now = s.now := h1.now
  rw [hnow]
  have h3 := Block.coreGone_faulted (st := 4) hn (by decide) h1 h2 rfl rfl
  obtain ⟨d, hd⟩ : ∃ d, d = b.coreGone n 4 := ⟨_, rfl⟩
  rw [← hd] at h3 ⊢
  exact ⟨Block.modCore_faulted h3 _ (fun _ => rfl) fun _ => rfl, congrArg RimeCore.faultAt (d.core_modCore_same n _)⟩

theorem Block.coreFault_givesUp (s : Block) {n cause : Nat} (pc addr : Nat) (hn : n < 7) (hc : cause < 8)
    (hl : s.faultLimit ≤ (s.recentFaults n).length) (hr : (s.core n).reply = none) :
    (coreFaultEffect n cause pc addr s).coreFaulted s n cause addr 5 := by
  obtain ⟨h1, h2⟩ := s.coreHalted_changed pc addr hc
  rw [coreFaultEffect_eq, s.coreHalted_limit pc addr hn hc, if_pos hl]
  obtain ⟨b, hb⟩ : ∃ b, b = s.coreHalted n cause pc addr := ⟨_, rfl⟩
  rw [← hb] at h1 h2 ⊢
  have h3 := Block.event_faulted (Block.coreGone_faulted (st := 5) hn (by decide) h1 h2 rfl rfl) (srcCore 0) 0x0703
    [w32 n, w32 (s.recentFaults n).length]
  have e : b.coreGivenUp n (s.recentFaults n).length = (b.coreGone n 5).event (srcCore 0) 0x0703 [w32 n, w32 (s.recentFaults n).length] := rfl
  rw [e]
  obtain ⟨d, hd⟩ : ∃ d, d = (b.coreGone n 5).event (srcCore 0) 0x0703 [w32 n, w32 (s.recentFaults n).length] := ⟨_, rfl⟩
  rw [← hd] at h3 ⊢
  rw [Block.answerRestart_none _ (h3.owed.trans hr)]
  exact h3

theorem Block.moduleAlert_of_givenUp {s : Block} {n : Nat} (hn : n < 7) (h : s.coreState n = 5) : s.moduleAlert = true := by
  have hg : s.anyGaveUp = true := List.any_eq_true.mpr ⟨n, List.mem_range.mpr hn, by rw [h]; rfl⟩
  simp [Block.moduleAlert, hg]

theorem exec_rimeCoreFault {s : State} {n cause : Nat} (pc addr : Nat) (h : faultable n s.blk = true) (h1 : 1 ≤ cause) (h5 : cause ≤ 5) :
    ∃ f, exec (.rimeCoreFault n cause pc addr) s = onBlk f s ∧ f s.blk = coreFaultEffect n cause pc addr s.blk :=
  ⟨effRimeCoreFault n cause pc addr, rfl, if_pos (by simp [h, h1, h5])⟩

theorem rimeCoreFault_restarts (s : State) (n cause pc addr : Nat) (h : faultable n s.blk = true) (h1 : 1 ≤ cause) (h5 : cause ≤ 5)
    (hl : ((s.blk.core n).faults.filter fun t => decide (s.blk.now < t + 1000000000)).length + 1 < s.blk.faultLimit) :
    ∃ t : State, exec (.rimeCoreFault n cause pc addr) s = .next t ∧ t.pending = s.pending ∧ t.blk.coreState n = 4 ∧
      t.blk.fld (RIME_STATE n) 6 4 = cause ∧ t.blk.rg (RIME_FAULT_ADDR n) = w32 addr ∧ (t.blk.core n).faultAt = s.blk.now ∧
      (t.blk.core n).image = (s.blk.core n).image ∧ (∀ m, m < 7 → m ≠ n → t.blk.core m = s.blk.core m ∧ t.blk.coreState m = s.blk.coreState m) ∧
      { t.blk with regs := s.blk.regs, fw := s.blk.fw, ice := s.blk.ice, esk := s.blk.esk } = s.blk := by
  obtain ⟨f, hx, he⟩ := exec_rimeCoreFault pc addr h h1 h5
  obtain ⟨-, h6, -, -⟩ := faultable_iff.mp h
  obtain ⟨⟨k1, ⟨k2, k3⟩, k4, -, k6, k7, k8, k9⟩, k10⟩ := s.blk.coreFault_restarts pc addr (by omega : n < 7) (by omega : cause < 8) hl
  exact ⟨_, hx.trans (onBlk_next_of_eq he (congrArg (fun b : Block => b.trust.fuses) k8 :) k9), rfl, k1, k2, k3, k10, k4,
    fun m _ hm => ⟨k6 m hm, k7 m hm⟩, k8⟩

theorem rimeCoreFault_givesUp (s : State) (n cause pc addr : Nat) (h : faultable n s.blk = true) (h1 : 1 ≤ cause) (h5 : cause ≤ 5)
    (hl : s.blk.faultLimit ≤ ((s.blk.core n).faults.filter fun t => decide (s.blk.now < t + 1000000000)).length + 1)
    (hr : (s.blk.core n).reply = none) :
    ∃ t : State, exec (.rimeCoreFault n cause pc addr) s = .next t ∧ t.pending = s.pending ∧ t.blk.coreState n = 5 ∧
      t.blk.fld (RIME_STATE n) 6 4 = cause ∧ t.blk.rg (RIME_FAULT_ADDR n) = w32 addr ∧ t.blk.moduleAlert = true ∧
      { t.blk with regs := s.blk.regs, fw := s.blk.fw, ice := s.blk.ice, esk := s.blk.esk } = s.blk := by
  obtain ⟨f, hx, he⟩ := exec_rimeCoreFault pc addr h h1 h5
  obtain ⟨-, h6, -, -⟩ := faultable_iff.mp h
  obtain ⟨k1, ⟨k2, k3⟩, -, -, -, -, k8, k9⟩ := s.blk.coreFault_givesUp pc addr (by omega : n < 7) (by omega : cause < 8) hl hr
  exact ⟨_, hx.trans (onBlk_next_of_eq he (congrArg (fun b : Block => b.trust.fuses) k8 :) k9), rfl, k1, k2, k3,
    Block.moduleAlert_of_givenUp (by omega : n < 7) k1, k8⟩

theorem rimeCoreFault_idle (s : State) (n cause pc addr : Nat) (h : faultable n s.blk = false ∨ cause = 0 ∨ 5 < cause) :
    exec (.rimeCoreFault n cause pc addr) s = .next s := by
  have hx : exec (.rimeCoreFault n cause pc addr) s = onBlk (effRimeCoreFault n cause pc addr) s := rfl
  refine hx.trans (onBlk_idle (if_neg ?_))
  obtain h | h | h := h
  · simp [h]
  · simp [h]
  · simp only [Bool.and_eq_true, decide_eq_true_eq]
    omega

/-! ### Watchdogs and kicks -/

theorem watchdogDue_iff {n : Nat} {s : Block} :
    watchdogDue n s = true ↔ n < 7 ∧ s.fw.loaded = true ∧ s.coreState n = 2 ∧ (s.core n).kickAt + s.wdogNs ≤ s.now := by
  simp [watchdogDue, coreRuns, and_assoc]

theorem watchdogExpiry_faults (s : State) (n : Nat) (h : watchdogDue n s.blk = true) (h0 : n ≠ 0) (hr : (s.blk.core n).reply = none) :
    ∃ t : State, exec (.watchdogExpiry n) s = .next t ∧ t.pending = s.pending ∧ t.blk.fld (RIME_STATE n) 6 4 = 2 ∧
      (t.blk.coreState n = 4 ∨ t.blk.coreState n = 5) ∧ t.blk.objs = s.blk.objs ∧ t.blk.jobs = s.blk.jobs ∧ t.blk.led = s.blk.led := by
  obtain ⟨hn, -, -, -⟩ := watchdogDue_iff.mp h
  have hx : exec (.watchdogExpiry n) s = onBlk (effWatchdogExpiry n) s := rfl
  obtain ⟨b, hb⟩ : ∃ b, b = s.blk.drawn.drawn := ⟨_, rfl⟩
  have he : effWatchdogExpiry n s.blk = coreFaultEffect n 2 s.blk.freeVal s.blk.drawn.freeVal b := by
    unfold effWatchdogExpiry watchdogEffect
    rw [if_pos h, if_neg h0, hb]
  have hfix : b.trust = s.blk.trust ∧ b.ice = s.blk.ice ∧ b.objs = s.blk.objs ∧ b.jobs = s.blk.jobs ∧ b.led = s.blk.led ∧ b.fw = s.blk.fw := by
    rw [hb]
    exact ⟨rfl, rfl, rfl, rfl, rfl, rfl⟩
  obtain ⟨b1, b2, b3, b4, b5, b6⟩ := hfix
  have hk : ∃ st, (st = 4 ∨ st = 5) ∧ (coreFaultEffect n 2 s.blk.freeVal s.blk.drawn.freeVal b).coreFaulted b n 2 s.blk.drawn.freeVal st := by
    by_cases hl : (b.recentFaults n).length < b.faultLimit
    · exact ⟨4, Or.inl rfl, (b.coreFault_restarts _ _ hn (by decide) hl).1⟩
    · exact ⟨5, Or.inr rfl, b.coreFault_givesUp _ _ hn (by decide) (by omega) (by rw [Block.core_congr b6]; exact hr)⟩
  obtain ⟨st, hst, k1, ⟨k2, -⟩, -, -, -, -, k8, k9⟩ := hk
  refine ⟨_, hx.trans (onBlk_next_of_eq he ?_ ?_), rfl, k2, ?_, (congrArg Block.objs k8 :).trans b3, (congrArg Block.jobs k8 :).trans b4,
    (congrArg Block.led k8 :).trans b5⟩
  · exact (congrArg (fun x : Block => x.trust.fuses) k8 :).trans (congrArg Trust.fuses b1)
  · exact k9.trans (congrArg IceCore.perm b2)
  · obtain rfl | rfl := hst
    · exact Or.inl k1
    · exact Or.inr k1

theorem watchdogExpiry_idle (s : State) (n : Nat) (h : watchdogDue n s.blk = false) : exec (.watchdogExpiry n) s = .next s := by
  have hx : exec (.watchdogExpiry n) s = onBlk (effWatchdogExpiry n) s := rfl
  exact hx.trans (onBlk_idle (if_neg (by simp [h])))

theorem Block.wdogNs_pos (s : Block) : 0 < s.wdogNs := by
  unfold Block.wdogNs
  omega

theorem rimeKick_runs (s : State) (n : Nat) (h : coreRuns n s.blk = true) :
    ∃ t : State, exec (.rimeKick n) s = .next t ∧ t.pending = s.pending ∧ watchdogDue n t.blk = false ∧
      t.blk.core n = { s.blk.core n with kickAt := s.blk.now } ∧ (∀ m, m ≠ n → t.blk.core m = s.blk.core m) ∧
      { t.blk with fw := s.blk.fw } = s.blk := by
  have hx : exec (.rimeKick n) s = onBlk (effRimeKick n) s := rfl
  have he : effRimeKick n s.blk = s.blk.modCore n fun x => { x with kickAt := s.blk.now } := if_pos h
  have hc := s.blk.core_modCore_same n fun x => { x with kickAt := s.blk.now }
  refine ⟨_, hx.trans (onBlk_next_of_eq he rfl rfl), rfl, ?_, hc, fun m hm => s.blk.core_modCore_other _ hm, rfl⟩
  rw [Bool.eq_false_iff]
  intro hd
  obtain ⟨-, -, -, hd⟩ := watchdogDue_iff.mp hd
  dsimp only at hd
  rw [hc] at hd
  have hp := s.blk.wdogNs_pos
  have hw : (s.blk.modCore n fun x => { x with kickAt := s.blk.now }).wdogNs = s.blk.wdogNs := rfl
  have hnow : (s.blk.modCore n fun x => { x with kickAt := s.blk.now }).now = s.blk.now := rfl
  rw [hw, hnow] at hd
  dsimp only at hd
  omega

theorem rimeKick_idle (s : State) (n : Nat) (h : coreRuns n s.blk = false) : exec (.rimeKick n) s = .next s := by
  have hx : exec (.rimeKick n) s = onBlk (effRimeKick n) s := rfl
  exact hx.trans (onBlk_idle (if_neg (by simp [h])))

/-! ### The faults of ROOT -/

/-- A fault of ROOT on the way to its warm start: its cause held. -/
def Block.rootCaused (s : Block) (cause : Nat) : Block := s.wf RIME_ROOT_CAUSE 2 0 cause

theorem rootFaultEffect_eq (cause : Nat) (s : Block) : rootFaultEffect cause s = (s.rootCaused cause).warmStart 7 := rfl

theorem Block.rootCaused_frame (s : Block) (cause : Nat) :
    (s.rootCaused cause).trust = s.trust ∧ (s.rootCaused cause).ice = s.ice :=
  ⟨by simp [Block.rootCaused], by simp [Block.rootCaused]⟩

theorem Block.warmStart_rootCause (s : Block) {c : Nat} (hc : c < 16) (h : s.fld RIME_ROOT_CAUSE 2 0 ≠ 0) :
    (s.warmStart c).fld RIME_ROOT_CAUSE 2 0 = s.fld RIME_ROOT_CAUSE 2 0 := by
  obtain ⟨k, hk⟩ := s.warmWork_still
  have hw := s.warmWork.warmClear_cleared (decide (5 ≤ c))
  obtain ⟨-, hg⟩ := s.warmWork.warmClear_rg (decide (5 ≤ c))
  rw [s.warmStart_eq]
  obtain ⟨w, hwd⟩ : ∃ w, w = s.warmWork := ⟨_, rfl⟩
  rw [← hwd] at hk hw hg ⊢
  have h1 : w.rg RIME_ROOT_CAUSE = s.rg RIME_ROOT_CAUSE := Block.rg_of_still hk (by decide)
  have h2 := w.warmReset_regs (decide (5 ≤ c))
  obtain ⟨-, m, -⟩ := warmMask_concrete (decide (5 ≤ c))
  obtain ⟨i, hi⟩ : ∃ i, i = decide (5 ≤ c) := ⟨_, rfl⟩
  rw [← hi] at hw hg h2 m ⊢
  obtain ⟨z, hz⟩ : ∃ z, z = w.warmReset i := ⟨_, rfl⟩
  rw [← hz] at h2 hg
  have hkept : (keepBits RIME_ROOT_CAUSE (warmMask i RIME_ROOT_CAUSE) (w.rg RIME_ROOT_CAUSE)).fld 2 0 = s.fld RIME_ROOT_CAUSE 2 0 := by
    rw [h1, m]
    exact keepBits_fld _ _ _ (by omega) (by omega) (by decide)
  have h3 : z.rg RIME_ROOT_CAUSE = keepBits RIME_ROOT_CAUSE (warmMask i RIME_ROOT_CAUSE) (w.rg RIME_ROOT_CAUSE) := by
    refine Block.rg_keepRegs h2 fun he => h ?_
    rw [← hkept, he]
    decide
  have h4 := hg RIME_ROOT_CAUSE (Or.inl (by decide)) (epochFree.ne_FIRN_EPOCH (by decide))
  obtain ⟨v, hv⟩ : ∃ v, v = w.warmClear i := ⟨_, rfl⟩
  rw [← hv] at hw h4 ⊢
  have h5 := (Block.boot_warmBooted hw.jobs hc s.lcState_lt s.limitW).regs RIME_ROOT_CAUSE (Or.inr (Or.inl rfl))
  exact (congrArg (fun w : Word => w.fld 2 0) (h5.trans (h4.trans h3))).trans hkept

/-- What a fault of ROOT leaves. -/
structure Block.rootFaulted (t s : Block) (cause : Nat) : Prop where
  loaded : t.fw.loaded = false
  mark : t.fld MOR_RESET_CAUSE 3 0 = 7
  warm : t.bit MOR_START 4 = true
  jobs : t.jobs = []
  reqs : t.reqs = []
  cause : t.fld RIME_ROOT_CAUSE 2 0 = cause
  fuses : t.trust.fuses = s.trust.fuses
  perm : t.ice.perm = s.ice.perm

theorem rootFault_faulted (s : Block) {cause : Nat} (h0 : cause ≠ 0) (h8 : cause < 8) : (rootFaultEffect cause s).rootFaulted s cause := by
  rw [rootFaultEffect_eq]
  obtain ⟨f1, f2⟩ := s.rootCaused_frame cause
  have hc : (s.rootCaused cause).fld RIME_ROOT_CAUSE 2 0 = cause :=
    (Block.fld_wf_same _ _ _ (by omega) (by omega)).trans (Nat.mod_eq_of_lt h8)
  obtain ⟨b, hb⟩ : ∃ b, b = s.rootCaused cause := ⟨_, rfl⟩
  rw [← hb] at f1 f2 hc ⊢
  have hw := b.warmStart_warmStarted (show 7 < 16 by decide)
  have hr := b.warmStart_rootCause (show 7 < 16 by decide) (by rw [hc]; exact h0)
  obtain ⟨t, ht⟩ : ∃ t, t = b.warmStart 7 := ⟨_, rfl⟩
  rw [← ht] at hw hr ⊢
  exact ⟨hw.loaded, hw.mark, hw.warm, hw.jobs, hw.reqs, hr.trans hc, hw.fuses.trans (congrArg Trust.fuses f1),
    hw.perm.trans (congrArg IceCore.perm f2)⟩

theorem watchdogExpiry_root (s : State) (h : watchdogDue 0 s.blk = true) (hs : startable s.blk = true) :
    ∃ t : State, exec (.watchdogExpiry 0) s = .next t ∧ t.pending = s.pending ∧ t.blk.fw.loaded = false ∧
      t.blk.fld MOR_RESET_CAUSE 3 0 = 7 ∧ t.blk.jobs = [] ∧ t.blk.reqs = [] := by
  have hx : exec (.watchdogExpiry 0) s = onBlk (effWatchdogExpiry 0) s := rfl
  have he : effWatchdogExpiry 0 s.blk = rootFaultEffect 2 s.blk := by
    unfold effWatchdogExpiry watchdogEffect
    rw [if_pos h, if_pos rfl, if_pos hs]
  obtain ⟨h1, h2, -, h4, h5, -, h7, h8⟩ := rootFault_faulted s.blk (cause := 2) (by decide) (by decide)
  obtain ⟨t, ht⟩ : ∃ t, t = rootFaultEffect 2 s.blk := ⟨_, rfl⟩
  rw [← ht] at he h1 h2 h4 h5 h7 h8
  exact ⟨_, hx.trans (onBlk_next_of_eq he h7 h8), rfl, h1, h2, h4, h5⟩

theorem rootCoreFault_faults (s : State) (cause : Nat) (h : coreRuns 0 s.blk = true) (hs : startable s.blk = true) (h1 : 1 ≤ cause)
    (h5 : cause ≤ 5) :
    ∃ t : State, exec (.rootCoreFault cause) s = .next t ∧ t.pending = s.pending ∧ t.blk.fw.loaded = false ∧
      t.blk.fld MOR_RESET_CAUSE 3 0 = 7 ∧ t.blk.bit MOR_START 4 = true ∧ t.blk.jobs = [] ∧ t.blk.reqs = [] ∧
      (s.blk.atRest → t.blk.fld RIME_ROOT_CAUSE 2 0 = cause) := by
  have hx : exec (.rootCoreFault cause) s = onBlk (effRootCoreFault cause) s := rfl
  have he : effRootCoreFault cause s.blk = rootFaultEffect cause s.blk := if_pos (by simp [h, hs, h1, h5])
  obtain ⟨k1, k2, k3, k4, k5, k6, k7, k8⟩ := rootFault_faulted s.blk (by omega : cause ≠ 0) (by omega)
  obtain ⟨t, ht⟩ : ∃ t, t = rootFaultEffect cause s.blk := ⟨_, rfl⟩
  rw [← ht] at he k1 k2 k3 k4 k5 k6 k7 k8
  exact ⟨_, hx.trans (onBlk_next_of_eq he k7 k8), rfl, k1, k2, k3, k4, k5, fun _ => k6⟩

theorem rootCoreFault_idle (s : State) (cause : Nat) (h : coreRuns 0 s.blk = false ∨ cause = 0 ∨ 5 < cause) :
    exec (.rootCoreFault cause) s = .next s := by
  have hx : exec (.rootCoreFault cause) s = onBlk (effRootCoreFault cause) s := rfl
  refine hx.trans (onBlk_idle (if_neg ?_))
  obtain h | h := h
  · simp [h]
  · simp only [Bool.and_eq_true, decide_eq_true_eq]
    omega

/-- Settles O42: a fault or a return of a core changes its own registers and its entry of the firmware's table; what its absence held
back touches neither; and a fault of ROOT is a warm start that keeps its cause. -/
theorem rimeCores : Obligations.RimeCores := by
  unfold Obligations.RimeCores
  exact ⟨rimeCoreFault_restarts, rimeCoreFault_givesUp, rimeCoreFault_idle, rimeCoreRestarted_quiet, rimeCoreRestarted_replies,
    rimeCoreRestarted_idle, watchdogExpiry_faults, watchdogExpiry_root, watchdogExpiry_idle, rimeKick_runs, rimeKick_idle,
    rootCoreFault_faults, rootCoreFault_idle⟩

end Sys2Proof.Machine
end

section
/-! Firmware: image sets loaded, components updated, cores restarted by message (R404, R405, R407, R408, R411). -/

namespace Sys2Proof.Machine

/-! ### Messages whose answer may come later, and messages with an image -/

theorem Block.messageLater_answers {s : Block} {ch : Chan} {type : Nat} (hd : s.delivers ch type)
    {f : Block → List Word → Option Answer × Block} {a : Answer} (h : (f (s.msgTaken ch) (s.msgWords ch)).1 = some a) :
    s.messageLater ch type f = s.message ch type fun _ _ => a := by
  rw [Block.message_delivers hd]
  unfold Block.messageLater
  rw [if_pos hd.1]
  simp only [hd.2]
  obtain ⟨x, hx⟩ : ∃ x, x = f (s.msgTaken ch) (s.msgWords ch) := ⟨_, rfl⟩
  rw [← hx] at h ⊢
  obtain ⟨o, b⟩ := x
  cases h
  rfl

/-- A block that owes the reply to a message of a channel. -/
def Block.owing (s : Block) (ch : Chan) : Block := s.setBox (chBase ch) { s.box (chBase ch) with owed := true }

theorem Block.messageLater_waits {s : Block} {ch : Chan} {type : Nat} (hd : s.delivers ch type)
    {f : Block → List Word → Option Answer × Block} {b : Block} (h : f (s.msgTaken ch) (s.msgWords ch) = (none, b)) :
    s.messageLater ch type f = b.owing ch := by
  unfold Block.messageLater
  rw [if_pos hd.1]
  simp only [hd.2, h]
  rfl

/-- A command whose image the host has put in its memory is the command on the block with it there. -/
theorem onBlk_image {f F : Block → Block} {s₀ s : State} {b : Block} (hs : s = { s₀ with blk := b }) (he : f s₀.blk = F s.blk)
    (ht : b.trust = s₀.blk.trust) (hi : b.ice = s₀.blk.ice) : onBlk f s₀ = onBlk F s := by
  subst hs
  unfold onBlk Block.lasting
  rw [he]
  simp only [ht, hi]

theorem Block.hostImage_same (s : Block) (ch : Chan) (type k : Nat) (img : List Byte) :
    (s.hostImage ch type k img).trust = s.trust ∧ (s.hostImage ch type k img).ice = s.ice := by
  have h := s.hostImage_frame ch type k img
  obtain ⟨b, hb⟩ : ∃ b, b = s.hostImage ch type k img := ⟨_, rfl⟩
  rw [← hb] at h ⊢
  exact ⟨(congrArg Block.trust h :), (congrArg Block.ice h :)⟩

/-! ### The verdict on an image set -/

theorem Block.verifySet_block (s : Block) (x : ImageSet) (len : Nat) (which : Component → Bool) :
    (s.verifySet x len which).2 = s ∨ (s.verifySet x len which).2 = s.drawn := by
  unfold Block.verifySet
  split
  · exact Or.inr rfl
  · split
    · exact Or.inr rfl
    · exact Or.inl rfl

theorem Block.verifySet_passes {s : Block} {x : ImageSet} {len : Nat} {which : Component → Bool} (h : (s.verifySet x len which).1 = none) :
    setFormatOk x len = true ∧ (s.verifySet x len which).2 = s := by
  unfold Block.verifySet at h ⊢
  split at h
  next => cases h
  next hf =>
    split at h
    next => cases h
    next hk =>
      rw [if_neg hf, if_neg hk]
      exact ⟨by simpa using hf, rfl⟩

/-- The set that the boot ROM reads holds 8 components, and one of each ID when its format is right. -/
theorem Block.imageSetAt_ids {s : Block} {a n len : Nat} (h : setFormatOk (s.imageSetAt a n) len = true) :
    ((s.imageSetAt a n).components.map (·.id)).Nodup := by
  have hl : ((s.imageSetAt a n).components.map (·.id)).length = 8 := by simp [Block.imageSetAt]
  unfold setFormatOk at h
  simp only [Bool.and_eq_true, List.all_eq_true, List.any_eq_true] at h
  obtain ⟨-, h⟩ := h
  have hsub : (List.range 8) ⊆ (s.imageSetAt a n).components.map (·.id) := fun i hi => by
    obtain ⟨c, hc, he⟩ := h i hi
    exact List.mem_map.mpr ⟨c, hc, by simpa using he⟩
  generalize (s.imageSetAt a n).components.map (·.id) = l at hl hsub
  have hp : (List.range 8).Subperm l := List.nodup_range.subperm hsub
  exact (hp.perm_of_length_le (by simp [hl])).nodup_iff.mp List.nodup_range

/-! ### Components in force -/

/-- A component entered among the measurements. -/
def Block.measured (s : Block) (c : Component) : Block :=
  { s with trust := { s.trust with measures := kput s.trust.measures (measureIndex c.id) (c.version, Config.shake256 c.signed) } }

/-- A component of a core in its place. -/
def Block.placed (s : Block) (c : Component) : Block :=
  ((s.modCore c.id fun x => { x with image := some c }).wr (RIME_VERSION c.id) c.version).wf (RIME_SCHEMA c.id) 15 0 c.schema

/-- The routine library in its place. -/
def Block.libraried (s : Block) (c : Component) : Block := { s with fw := { s.fw with library := some c } }

theorem Block.install_eq (s : Block) (c : Component) (u : Bool) :
    s.install c u = (if c.id = 7 then (s.measured c).libraried c else (s.measured c).placed c).event (srcCore 0) 0x0704
      [w32 c.id, c.version, w32 c.schema, w32 (b2n u)] := rfl

/-- A block with what a load of firmware changes as it is in another. -/
def Block.loadBack (t s : Block) : Block :=
  { t with regs := s.regs, ice := s.ice, fw := s.fw, trust := s.trust, freeCtr := s.freeCtr, esk := s.esk,
           lossUntold := s.lossUntold, vOwed := s.vOwed }

/-- Registers that a load of firmware keeps until the start ends. -/
def loadKeeps (a : Nat) : Prop := a < 0x00400000 ∧ a % 0x100 ≠ 0x30 ∧ a % 0x100 ≠ 0x34

/-- What a load of firmware keeps. -/
structure Block.loadKept (t s : Block) : Prop where
  rest : t.loadBack s = s
  regs : ∀ a, loadKeeps a → t.rg a = s.rg a
  fuses : t.trust.fuses = s.trust.fuses
  perm : t.ice.perm = s.ice.perm

theorem Block.loadKept.refl (s : Block) : s.loadKept s := ⟨rfl, fun _ _ => rfl, rfl, rfl⟩

theorem Block.loadKept.trans {s t u : Block} (h : u.loadKept t) (h' : t.loadKept s) : u.loadKept s :=
  ⟨(congrArg (fun b : Block => b.loadBack s) h.rest :).trans h'.rest, fun a ha => (h.regs a ha).trans (h'.regs a ha),
    h.fuses.trans h'.fuses, h.perm.trans h'.perm⟩

theorem Block.event_loadKept (s : Block) (src ev : Nat) (d : List Word) : (s.event src ev d).loadKept s := by
  refine ⟨by simp [Block.loadBack], fun a ha => Block.rg_event _ _ _ _ ?_, by simp, Block.event_perm ..⟩
  have e : ICE_DROPPED = 0x0040001C := rfl
  unfold loadKeeps at ha
  omega

theorem Block.measured_loadKept (s : Block) (c : Component) : (s.measured c).loadKept s := ⟨rfl, fun _ _ => rfl, rfl, rfl⟩

theorem Block.libraried_loadKept (s : Block) (c : Component) : (s.libraried c).loadKept s := ⟨rfl, fun _ _ => rfl, rfl, rfl⟩

theorem Block.modCore_loadKept (s : Block) (n : Nat) (f : RimeCore → RimeCore) : (s.modCore n f).loadKept s :=
  ⟨rfl, fun _ _ => rfl, rfl, rfl⟩

theorem Block.wr_loadKept (s : Block) {a : Nat} (v : Word) (h : 0x00400000 ≤ a) : (s.wr a v).loadKept s :=
  ⟨by simp [Block.loadBack], fun _ hb => Block.rg_wr_other _ _ (by unfold loadKeeps at hb; omega), by simp, by simp⟩

theorem Block.wf_loadKept (s : Block) {a : Nat} (hi lo v : Nat) (h : 0x00400000 ≤ a) : (s.wf a hi lo v).loadKept s :=
  s.wr_loadKept _ h

theorem Block.placed_loadKept (s : Block) (c : Component) : (s.placed c).loadKept s := by
  have e1 : RIME_VERSION c.id = 0x00600004 + 0x40 * c.id := rfl
  have e2 : RIME_SCHEMA c.id = 0x00600008 + 0x40 * c.id := rfl
  exact (Block.wf_loadKept _ _ _ _ (by omega)).trans ((Block.wr_loadKept _ _ (by omega)).trans (s.modCore_loadKept _ _))

theorem Block.install_loadKept (s : Block) (c : Component) (u : Bool) : (s.install c u).loadKept s := by
  rw [s.install_eq]
  refine (Block.event_loadKept _ _ _ _).trans (.trans ?_ (s.measured_loadKept c))
  split
  · exact Block.libraried_loadKept _ c
  · exact Block.placed_loadKept _ c

/-- A component is in force: the image and the version of its core, or the routine library. -/
def Block.holds (s : Block) (c : Component) : Prop :=
  (c.id < 7 → (s.core c.id).image = some c ∧ s.rg (RIME_VERSION c.id) = c.version) ∧ (c.id = 7 → s.fw.library = some c)

/-- The component of an ID stays in force. -/
structure Block.compKept (t s : Block) (i : Nat) : Prop where
  image : i < 7 → (t.core i).image = (s.core i).image
  version : i < 7 → t.rg (RIME_VERSION i) = s.rg (RIME_VERSION i)
  library : i = 7 → t.fw.library = s.fw.library

theorem Block.compKept.refl (s : Block) (i : Nat) : s.compKept s i := ⟨fun _ => rfl, fun _ => rfl, fun _ => rfl⟩

theorem Block.compKept.trans {s t u : Block} {i : Nat} (h : u.compKept t i) (h' : t.compKept s i) : u.compKept s i :=
  ⟨fun hi => (h.image hi).trans (h'.image hi), fun hi => (h.version hi).trans (h'.version hi),
    fun hi => (h.library hi).trans (h'.library hi)⟩

theorem Block.compKept.holds {s t : Block} {c : Component} (h : t.compKept s c.id) (hc : s.holds c) : t.holds c :=
  ⟨fun hi => ⟨(h.image hi).trans (hc.1 hi).1, (h.version hi).trans (hc.1 hi).2⟩, fun hi => (h.library hi).trans (hc.2 hi)⟩

theorem Block.compKept_of_fw {s t : Block} (i : Nat) (h : t.fw = s.fw) (hr : i < 7 → t.rg (RIME_VERSION i) = s.rg (RIME_VERSION i)) :
    t.compKept s i := ⟨fun _ => congrArg RimeCore.image (Block.core_congr h i), hr, fun _ => congrArg Firmware.library h⟩

theorem Block.event_compKept (s : Block) (src ev : Nat) (d : List Word) (i : Nat) : (s.event src ev d).compKept s i :=
  Block.compKept_of_fw i (Block.event_fw ..) fun _ => Block.rg_event _ _ _ _ (by
    have e1 : RIME_VERSION i = 0x00600004 + 0x40 * i := rfl
    have e2 : ICE_DROPPED = 0x0040001C := rfl
    omega)

theorem Block.modCore_compKept (s : Block) (n : Nat) (f : RimeCore → RimeCore) (hf : ∀ c, (f c).image = c.image) (i : Nat) :
    (s.modCore n f).compKept s i := by
  refine ⟨fun _ => ?_, fun _ => rfl, fun _ => rfl⟩
  by_cases h : i = n
  · rw [h, s.core_modCore_same]
    exact hf _
  · rw [s.core_modCore_other f h]

theorem Block.wf_compKept (s : Block) {a : Nat} (hi lo v : Nat) (i : Nat) (h : i < 7 → RIME_VERSION i ≠ a) : (s.wf a hi lo v).compKept s i :=
  Block.compKept_of_fw i (Block.wf_fw ..) fun hi => Block.rg_wf_other _ _ _ _ (h hi)

theorem Block.measured_compKept (s : Block) (c : Component) (i : Nat) : (s.measured c).compKept s i :=
  ⟨fun _ => rfl, fun _ => rfl, fun _ => rfl⟩

theorem Block.placed_holds (s : Block) (c : Component) (h : c.id ≠ 7) : (s.placed c).holds c := by
  refine ⟨fun hi => ?_, fun h' => absurd h' h⟩
  have hc := s.core_modCore_same c.id fun x => { x with image := some c }
  have e1 : RIME_VERSION c.id = 0x00600004 + 0x40 * c.id := rfl
  have e2 : RIME_SCHEMA c.id = 0x00600008 + 0x40 * c.id := rfl
  unfold Block.placed
  obtain ⟨b, hb⟩ : ∃ b, b = s.modCore c.id fun x => { x with image := some c } := ⟨_, rfl⟩
  rw [← hb] at hc ⊢
  refine ⟨?_, (Block.rg_wf_other _ _ _ _ (by omega)).trans (Block.rg_wr_same ..)⟩
  rw [Block.core_congr (s := b) ((Block.wf_fw ..).trans (Block.wr_fw ..)), hc]

theorem Block.placed_compKept (s : Block) (c : Component) {i : Nat} (h : i ≠ c.id) : (s.placed c).compKept s i := by
  have hc := s.core_modCore_other (fun x => { x with image := some c }) h
  have hr : (s.modCore c.id fun x => { x with image := some c }).rg (RIME_VERSION i) = s.rg (RIME_VERSION i) := rfl
  have hl : (s.modCore c.id fun x => { x with image := some c }).fw.library = s.fw.library := rfl
  have e0 : RIME_VERSION i = 0x00600004 + 0x40 * i := rfl
  have e1 : RIME_VERSION c.id = 0x00600004 + 0x40 * c.id := rfl
  have e2 : RIME_SCHEMA c.id = 0x00600008 + 0x40 * c.id := rfl
  unfold Block.placed
  obtain ⟨b, hb⟩ : ∃ b, b = s.modCore c.id fun x => { x with image := some c } := ⟨_, rfl⟩
  rw [← hb] at hc hr hl ⊢
  have hf : ((b.wr (RIME_VERSION c.id) c.version).wf (RIME_SCHEMA c.id) 15 0 c.schema).fw = b.fw := (Block.wf_fw ..).trans (Block.wr_fw ..)
  refine ⟨fun _ => ?_, fun _ => ?_, fun _ => (congrArg Firmware.library hf).trans hl⟩
  · rw [Block.core_congr hf, hc]
  · exact (Block.rg_wf_other _ _ _ _ (by omega)).trans ((Block.rg_wr_other _ _ (by omega)).trans hr)

theorem Block.libraried_compKept (s : Block) (c : Component) {i : Nat} (h : i ≠ 7) : (s.libraried c).compKept s i :=
  ⟨fun _ => rfl, fun _ => rfl, fun h' => absurd h' h⟩

theorem Block.install_holds (s : Block) (c : Component) (u : Bool) : (s.install c u).holds c := by
  rw [s.install_eq]
  refine (Block.event_compKept _ _ _ _ _).holds ?_
  split
  next h => exact ⟨fun h' => by omega, fun _ => rfl⟩
  next h => exact Block.placed_holds _ c h

theorem Block.install_compKept (s : Block) (c : Component) (u : Bool) {i : Nat} (h : i ≠ c.id) : (s.install c u).compKept s i := by
  rw [s.install_eq]
  refine (Block.event_compKept _ _ _ _ _).trans (.trans ?_ (s.measured_compKept c i))
  split
  next h7 => exact Block.libraried_compKept _ c (by omega)
  next => exact Block.placed_compKept _ c h

/-- The installing of a list of components. -/
def Block.installAll (s : Block) (l : List Component) : Block := s.each l fun s c => s.install c false

theorem Block.installAll_cons (s : Block) (c : Component) (l : List Component) :
    s.installAll (c :: l) = (s.install c false).installAll l := rfl

theorem Block.installAll_loadKept (l : List Component) (s : Block) : (s.installAll l).loadKept s := by
  induction l generalizing s with
  | nil => exact .refl s
  | cons c l ih => exact (ih _).trans (s.install_loadKept c false)

theorem Block.installAll_compKept (l : List Component) (s : Block) {i : Nat} (h : i ∉ l.map (·.id)) : (s.installAll l).compKept s i := by
  induction l generalizing s with
  | nil => exact .refl s i
  | cons c l ih =>
    rw [List.map_cons, List.mem_cons, not_or] at h
    exact (ih _ h.2).trans (s.install_compKept c false h.1)

theorem Block.installAll_holds (l : List Component) (s : Block) (h : (l.map (·.id)).Nodup) {c : Component} (hc : c ∈ l) :
    (s.installAll l).holds c := by
  induction l generalizing s with
  | nil => cases hc
  | cons x l ih =>
    rw [List.map_cons, List.nodup_cons] at h
    rw [s.installAll_cons]
    obtain rfl | hc := List.mem_cons.mp hc
    · exact (Block.installAll_compKept l _ h.1).holds (s.install_holds c false)
    · exact ih _ h.2 hc

/-! ### Every core runs -/

theorem RIME_STATE_ne_VERSION (n i : Nat) : RIME_VERSION i ≠ RIME_STATE n := by
  have e0 : RIME_VERSION i = 0x00600004 + 0x40 * i := rfl
  have e1 : RIME_STATE n = 0x00600000 + 0x40 * n := rfl
  omega

/-- A core that runs from a time on. -/
def Block.coreStarted (s : Block) (now n : Nat) : Block := (s.setCoreState n 2).modCore n fun x => { x with kickAt := now }

theorem Block.coreStarted_spec (s : Block) (now n : Nat) :
    (s.coreStarted now n).loadKept s ∧ (∀ i, (s.coreStarted now n).compKept s i) ∧ (s.coreStarted now n).coreState n = 2 ∧
      (∀ m, m ≠ n → (s.coreStarted now n).coreState m = s.coreState m) ∧ (s.coreStarted now n).fw.loaded = s.fw.loaded ∧
      (∀ a, (∀ m, a ≠ RIME_STATE m) → (s.coreStarted now n).rg a = s.rg a) := by
  have e : ∀ n, RIME_STATE n = 0x00600000 + 0x40 * n := fun _ => rfl
  have h1 := s.coreState_setCoreState n (v := 2) (by decide)
  have h2 : ∀ a, a ≠ RIME_STATE n → (s.setCoreState n 2).rg a = s.rg a := fun a ha => Block.rg_wf_other _ _ _ _ ha
  have h3 : (s.setCoreState n 2).loadKept s := Block.wf_loadKept _ _ _ _ (by rw [e]; omega)
  have h4 : ∀ i, (s.setCoreState n 2).compKept s i := fun i => Block.wf_compKept _ _ _ _ i fun _ => RIME_STATE_ne_VERSION n i
  have h5 : (s.setCoreState n 2).fw = s.fw := Block.wf_fw ..
  unfold Block.coreStarted
  obtain ⟨b, hb⟩ : ∃ b, b = s.setCoreState n 2 := ⟨_, rfl⟩
  rw [← hb] at h1 h2 h3 h4 h5 ⊢
  have hg : ∀ a, (b.modCore n fun x => { x with kickAt := now }).rg a = b.rg a := fun _ => rfl
  have hl : (b.modCore n fun x => { x with kickAt := now }).fw.loaded = b.fw.loaded := rfl
  refine ⟨(b.modCore_loadKept _ _).trans h3, fun i => (b.modCore_compKept n (fun x => { x with kickAt := now }) (fun _ => rfl) i).trans (h4 i),
    (Block.coreState_congr (hg _)).trans h1, fun m hm => Block.coreState_congr ((hg _).trans (h2 _ ?_)), hl.trans (congrArg Firmware.loaded h5),
    fun a ha => (hg a).trans (h2 a (ha n))⟩
  rw [e, e]
  omega

theorem Block.startCores_spec (s : Block) :
    s.startCores.loadKept s ∧ (∀ i, s.startCores.compKept s i) ∧ (∀ n, n < 7 → s.startCores.coreState n = 2) ∧
      s.startCores.fw.loaded = s.fw.loaded ∧ (∀ a, (∀ m, a ≠ RIME_STATE m) → s.startCores.rg a = s.rg a) := by
  have h : ∀ k, (loop k (fun n b => b.coreStarted s.now n) s).loadKept s ∧ (∀ i, (loop k (fun n b => b.coreStarted s.now n) s).compKept s i) ∧
      (∀ n, n < k → (loop k (fun n b => b.coreStarted s.now n) s).coreState n = 2) ∧
      (loop k (fun n b => b.coreStarted s.now n) s).fw.loaded = s.fw.loaded ∧
      (∀ a, (∀ m, a ≠ RIME_STATE m) → (loop k (fun n b => b.coreStarted s.now n) s).rg a = s.rg a) := by
    intro k
    induction k with
    | zero => exact ⟨.refl s, .refl s, fun _ h => absurd h (by omega), rfl, fun _ _ => rfl⟩
    | succ k ih =>
      obtain ⟨i1, i2, i3, i4, i5⟩ := ih
      rw [loop]
      obtain ⟨b, hb⟩ : ∃ b, b = loop k (fun n b => b.coreStarted s.now n) s := ⟨_, rfl⟩
      rw [← hb] at i1 i2 i3 i4 i5 ⊢
      obtain ⟨j1, j2, j3, j4, j5, j6⟩ := b.coreStarted_spec s.now k
      refine ⟨j1.trans i1, fun i => (j2 i).trans (i2 i), fun n hn => ?_, j5.trans i4, fun a ha => (j6 a ha).trans (i5 a ha)⟩
      by_cases hk : n = k
      · rw [hk]
        exact j3
      · exact (j4 n hk).trans (i3 n (by omega))
  exact h 7

/-! ### FW_LOAD -/

/-- The set in its place, and loaded. -/
def Block.setLoaded (s : Block) (x : ImageSet) : Block :=
  { s.installAll x.components with fw := { (s.installAll x.components).fw with loaded := true, prior := (s.installAll x.components).fw.prior } }

/-- The set loaded, its ID shown, and every core running. -/
def Block.setRuns (s : Block) (x : ImageSet) : Block := (((s.setLoaded x).setPair RIME_SET_ID_LO x.setId.toNat).startCores).healthReturns

/-- The record of the fault of ROOT that made the start. -/
def Block.rootTold (s : Block) : Block :=
  if s.fld MOR_RESET_CAUSE 3 0 = 7 then s.event srcRom 0x0706 [w32 (s.fld RIME_ROOT_CAUSE 2 0)] else s

/-- The start ended at READY, after `ms`. -/
def Block.startReady (s : Block) (ms : Nat) : Block := (s.wf MOR_START_MS 15 0 ms).setPhase 9

/-- The record of the end of a start. -/
def Block.startTold (s : Block) (ms : Nat) : Block :=
  s.event srcMoraine 0x0101 [w32 (s.fld MOR_START 4 4), w32 (s.fld MOR_RESET_CAUSE 3 0), w32 (s.fld MOR_START 5 5), w32 ms]

theorem fwLoadEffect_eq {x : ImageSet} {s : Block} (h : (s.setRuns x).rootTold.bit MOR_START 4 = false) :
    ∃ ms, fwLoadEffect x s = ((s.setRuns x).rootTold.drawn.startReady ms).startTold ms := by
  have hd : ∀ l, (s.setRuns x).rootTold.decideKeep l = (s.setRuns x).rootTold := fun l => by
    unfold Block.decideKeep
    rw [h]
    rfl
  have e : fwLoadEffect x s =
      ((((s.setRuns x).rootTold.decideKeep (x.components.map fun c => (c.id, c.schema))).choose 65536).2.startReady
        (((s.setRuns x).rootTold.decideKeep (x.components.map fun c => (c.id, c.schema))).choose 65536).1).startTold
        (((s.setRuns x).rootTold.decideKeep (x.components.map fun c => (c.id, c.schema))).choose 65536).1 := rfl
  rw [e, hd]
  exact ⟨_, rfl⟩

theorem Block.setLoaded_spec (s : Block) (x : ImageSet) (h : (x.components.map (·.id)).Nodup) :
    (s.setLoaded x).loadKept s ∧ (∀ c, c ∈ x.components → (s.setLoaded x).holds c) ∧ (s.setLoaded x).fw.loaded = true := by
  have h1 := Block.installAll_loadKept x.components s
  have h2 := fun c => Block.installAll_holds x.components s h (c := c)
  unfold Block.setLoaded
  obtain ⟨b, hb⟩ : ∃ b, b = s.installAll x.components := ⟨_, rfl⟩
  rw [← hb] at h1 ⊢
  refine ⟨Block.loadKept.trans (t := b) ⟨rfl, fun _ _ => rfl, rfl, rfl⟩ h1, fun c hc => ?_, rfl⟩
  have h3 := h2 c hc
  rw [← hb] at h3
  exact h3

theorem Block.returned.loadKept {s t : Block} (h : t.returned s) : t.loadKept s := by
  obtain ⟨h1, h2, h3⟩ := h
  refine ⟨(congrArg (fun b : Block => b.loadBack s) h1 :), fun a ha => h2 a ?_, (congrArg (fun b : Block => b.trust.fuses) h1 :), h3⟩
  have e1 : ICE_DROPPED = 0x0040001C := rfl
  have e2 : LDG_STATUS = 0x00500000 := rfl
  unfold loadKeeps at ha
  unfold returnKeeps
  omega

/-- The set in force, with its ID, and every core RUNNING. -/
structure Block.setInForce (t : Block) (x : ImageSet) : Prop where
  comps : ∀ c, c ∈ x.components → t.holds c
  loaded : t.fw.loaded = true
  states : ∀ n, n < 7 → t.coreState n = 2
  id : t.pair RIME_SET_ID_LO = x.setId.toNat

theorem Block.setInForce_of {s t : Block} {x : ImageSet} (h : s.setInForce x) (hf : t.fw = s.fw)
    (hg : ∀ a, 0x00600000 ≤ a → a < 0x00602000 → returnKeeps a → t.rg a = s.rg a) : t.setInForce x := by
  have e1 : ∀ n, RIME_VERSION n = 0x00600004 + 0x40 * n := fun _ => rfl
  have e2 : ∀ n, RIME_STATE n = 0x00600000 + 0x40 * n := fun _ => rfl
  have e3 : ICE_DROPPED = 0x0040001C := rfl
  have e4 : LDG_STATUS = 0x00500000 := rfl
  obtain ⟨h1, h2, h3, h4⟩ := h
  refine ⟨fun c hc => Block.compKept.holds ?_ (h1 c hc), (congrArg Firmware.loaded hf).trans h2, fun n hn => ?_, ?_⟩
  · refine Block.compKept_of_fw _ hf fun hi => hg _ ?_ ?_ ?_
    · rw [e1]
      omega
    · rw [e1]
      omega
    · rw [e1]
      unfold returnKeeps
      omega
  · refine (Block.coreState_congr (hg _ ?_ ?_ ?_)).trans (h3 n hn)
    · rw [e2]
      omega
    · rw [e2]
      omega
    · rw [e2]
      unfold returnKeeps
      omega
  · unfold Block.pair
    rw [hg RIME_SET_ID_LO (by decide) (by decide) (by unfold returnKeeps; decide),
      hg (RIME_SET_ID_LO + 4) (by decide) (by decide) (by unfold returnKeeps; decide)]
    exact h4

theorem Block.setPair_loadKept (s : Block) {a : Nat} (v : Nat) (h : 0x00400000 ≤ a) : (s.setPair a v).loadKept s :=
  (Block.wr_loadKept _ _ (by omega)).trans (Block.wr_loadKept _ _ h)

theorem Block.setRuns_spec (s : Block) (x : ImageSet) (h : (x.components.map (·.id)).Nodup) :
    (s.setRuns x).setInForce x ∧ (s.setRuns x).loadKept s := by
  obtain ⟨a1, a2, a3⟩ := s.setLoaded_spec x h
  unfold Block.setRuns
  obtain ⟨a, ha⟩ : ∃ a, a = s.setLoaded x := ⟨_, rfl⟩
  rw [← ha] at a1 a2 a3 ⊢
  have b1 := a.setPair_loadKept (a := RIME_SET_ID_LO) x.setId.toNat (by decide)
  have b2 : (a.setPair RIME_SET_ID_LO x.setId.toNat).fw = a.fw := by simp
  have b3 := a.pair_setPair RIME_SET_ID_LO x.setId.toNat x.setId.isLt
  have b4 : ∀ i, i < 7 → (a.setPair RIME_SET_ID_LO x.setId.toNat).rg (RIME_VERSION i) = a.rg (RIME_VERSION i) := fun i hi => by
    have e0 : RIME_VERSION i = 0x00600004 + 0x40 * i := rfl
    have e1 : RIME_SET_ID_LO = 0x00601008 := rfl
    exact (Block.rg_wr_other _ _ (by omega)).trans (Block.rg_wr_other _ _ (by omega))
  obtain ⟨b, hb⟩ : ∃ b, b = a.setPair RIME_SET_ID_LO x.setId.toNat := ⟨_, rfl⟩
  rw [← hb] at b1 b2 b3 b4 ⊢
  obtain ⟨c1, c2, c3, c4, c5⟩ := b.startCores_spec
  obtain ⟨c, hc⟩ : ∃ c, c = b.startCores := ⟨_, rfl⟩
  rw [← hc] at c1 c2 c3 c4 c5 ⊢
  have hin : c.setInForce x := by
    have e2 : ∀ n, RIME_STATE n = 0x00600000 + 0x40 * n := fun _ => rfl
    have e1 : RIME_SET_ID_LO = 0x00601008 := rfl
    refine ⟨fun y hy => ((c2 y.id).trans (Block.compKept_of_fw _ b2 (b4 y.id))).holds (a2 y hy), c4.trans ((congrArg Firmware.loaded b2).trans a3),
      c3, ?_⟩
    unfold Block.pair at b3 ⊢
    rw [c5 _ fun m => ?_, c5 _ fun m => ?_]
    · exact b3
    · rw [e2]
      omega
    · rw [e2]
      omega
  obtain ⟨d1, -, -⟩ := c.healthReturns_returned (by unfold Block.coreUp; rw [c3 6 (by decide)]; decide)
  exact ⟨Block.setInForce_of hin (congrArg Block.fw d1.rest :) fun a _ _ hk => d1.regs a hk, d1.loadKept.trans (c1.trans (b1.trans a1))⟩

theorem Block.rootTold_spec (s : Block) : s.rootTold.loadKept s ∧ s.rootTold.fw = s.fw ∧ ∀ a, a ≠ ICE_DROPPED → s.rootTold.rg a = s.rg a := by
  unfold Block.rootTold
  split
  · exact ⟨s.event_loadKept _ _ _, by simp, fun a ha => Block.rg_event _ _ _ _ ha⟩
  · exact ⟨.refl s, rfl, fun _ _ => rfl⟩

/-- A block after FW_LOAD. -/
structure Block.fwLoaded (t s : Block) (x : ImageSet) : Prop where
  force : t.setInForce x
  phase : t.phase = 9
  rest : t.loadBack s = s
  regs : ∀ a, loadKeeps a → a ≠ MOR_START → a ≠ MOR_START_MS → t.rg a = s.rg a
  fuses : t.trust.fuses = s.trust.fuses
  perm : t.ice.perm = s.ice.perm

theorem fwLoadEffect_loaded {s : Block} {x : ImageSet} (h : (x.components.map (·.id)).Nodup) (hw : s.bit MOR_START 4 = false) :
    (fwLoadEffect x s).fwLoaded s x := by
  obtain ⟨a1, a2⟩ := s.setRuns_spec x h
  have he := fwLoadEffect_eq (x := x) (s := s)
  obtain ⟨a, ha⟩ : ∃ a, a = s.setRuns x := ⟨_, rfl⟩
  rw [← ha] at a1 a2 he
  obtain ⟨b1, b2, b3⟩ := a.rootTold_spec
  obtain ⟨b, hb⟩ : ∃ b, b = a.rootTold := ⟨_, rfl⟩
  rw [← hb] at b1 b2 b3 he
  have hbs := b1.trans a2
  have hbin : b.setInForce x := Block.setInForce_of a1 b2 fun a _ _ hk => b3 a hk.2.2.1
  obtain ⟨ms, he⟩ := he ((congrArg (fun w : Word => w.bit 4) (hbs.regs MOR_START (by unfold loadKeeps; decide))).trans hw)
  rw [he]
  have c1 : { b.drawn.startReady ms with regs := b.regs, freeCtr := b.freeCtr } = b := by
    simp [Block.startReady, Block.setPhase, Block.drawn]
  have c2 : ∀ a, a ≠ MOR_START → a ≠ MOR_START_MS → (b.drawn.startReady ms).rg a = b.rg a := fun a h1 h2 =>
    (Block.rg_wf_other _ _ _ _ h1).trans (Block.rg_wf_other _ _ _ _ h2)
  have c3 : (b.drawn.startReady ms).phase = 9 := (Block.fld_wf_same _ _ _ (by omega) (by omega)).trans (by decide)
  obtain ⟨c, hc⟩ : ∃ c, c = b.drawn.startReady ms := ⟨_, rfl⟩
  rw [← hc] at c1 c2 c3 ⊢
  unfold Block.startTold
  obtain ⟨d, hd⟩ : ∃ d, d = [w32 (c.fld MOR_START 4 4), w32 (c.fld MOR_RESET_CAUSE 3 0), w32 (c.fld MOR_START 5 5), w32 ms] := ⟨_, rfl⟩
  rw [← hd]
  have k := c.event_loadKept srcMoraine 0x0101 d
  have hev : ∀ a, a ≠ ICE_DROPPED → (c.event srcMoraine 0x0101 d).rg a = c.rg a := fun a ha => Block.rg_event _ _ _ _ ha
  have hfw : (c.event srcMoraine 0x0101 d).fw = b.fw := (Block.event_fw ..).trans (congrArg Block.fw c1 :)
  have hcs : c.loadBack s = s := (congrArg (fun x : Block => x.loadBack s) c1 :).trans hbs.rest
  refine ⟨Block.setInForce_of hbin hfw fun a h1 _ hk => ?_, ?_, (congrArg (fun x : Block => x.loadBack s) k.rest :).trans hcs,
    fun a ha h1 h2 => (k.regs a ha).trans ((c2 a h1 h2).trans (hbs.regs a ha)),
    k.fuses.trans ((congrArg (fun x : Block => x.trust.fuses) c1 :).trans hbs.fuses),
    k.perm.trans ((congrArg (fun x : Block => x.ice.perm) c1 :).trans hbs.perm)⟩
  · have e1 : MOR_START = 0x00000100 := rfl
    have e2 : MOR_START_MS = 0x0000011C := rfl
    exact (hev a hk.2.2.1).trans (c2 a (by omega) (by omega))
  · exact (congrArg (fun w : Word => w.fld 3 0) (hev MOR_START (by decide))).trans c3

/-- The handling of FW_LOAD. -/
def fwLoadAnswer (ch : Chan) (s : Block) (ws : List Word) : Answer :=
  s.onPair (ch == .s0) <|
    if s.fw.loaded then s.no (REFUSED 0x12)
    else if s.scrapped then s.no (DENIED 0x0B)
    else
      match s.hostReadStatus 0 (mpair ws 1) (min (mreg ws 3).toNat 16777216) with
      | some st => s.no st
      | none =>
        match (s.verifySet (s.imageSetAt (mpair ws 1) (mreg ws 3).toNat) (mreg ws 3).toNat fun _ => true).1 with
        | some e => (s.verifySet (s.imageSetAt (mpair ws 1) (mreg ws 3).toNat) (mreg ws 3).toNat fun _ => true).2.imageRefused srcRom e
        | none => (fwLoadEffect (s.imageSetAt (mpair ws 1) (mreg ws 3).toNat)
            (s.verifySet (s.imageSetAt (mpair ws 1) (mreg ws 3).toNat) (mreg ws 3).toNat fun _ => true).2).yes

theorem effFwLoad_eq {ch : Chan} {s : Block} (img : List Byte) (h : loadWaits ch s = false) :
    effFwLoad ch img s = (s.hostImage ch 0x0901 1 img).message ch 0x0901 (fwLoadAnswer ch) :=
  if_neg (by rw [h]; decide)

theorem Block.phase_hostImage (s : Block) (ch : Chan) (type k : Nat) (img : List Byte) : (s.hostImage ch type k img).phase = s.phase :=
  congrArg (fun w : Word => w.fld 3 0) (s.rg_hostImage ch type k img _)

theorem exec_fwLoad {s₀ s : State} {ch : Chan} {bs : List Byte} (hs : s = { s₀ with blk := s₀.blk.hostImage ch 0x0901 1 bs })
    (h : loadWaits ch s.blk = false) : exec (.fwLoad ch bs) s₀ = onBlk (fun b => b.message ch 0x0901 (fwLoadAnswer ch)) s := by
  have hx : exec (.fwLoad ch bs) s₀ = onBlk (effFwLoad ch bs) s₀ := rfl
  obtain ⟨h1, h2⟩ := s₀.blk.hostImage_same ch 0x0901 1 bs
  have hw : loadWaits ch s₀.blk = false := by
    rw [hs] at h
    unfold loadWaits at h ⊢
    rwa [Block.phase_hostImage] at h
  refine hx.trans (onBlk_image hs ?_ h1 h2)
  rw [effFwLoad_eq bs hw, hs]

theorem loadWaits_of_phase {s : Block} (h : s.phase = 7 ∨ s.phase = 9) (ch : Chan) : loadWaits ch s = false := by
  unfold loadWaits
  obtain h | h := h <;> simp [h]

theorem fwLoad_waits (s : State) (bs : List Byte) (h7 : s.blk.phase ≠ 7) (h9 : s.blk.phase ≠ 9) : exec (.fwLoad .s0 bs) s = .next s := by
  have hx : exec (.fwLoad .s0 bs) s = onBlk (effFwLoad .s0 bs) s := rfl
  refine hx.trans (onBlk_idle (if_pos ?_))
  simp [loadWaits, h7, h9]

theorem fwLoad_elsewhere (s₀ s : State) (ch : Chan) (bs : List Byte) (hs : s = { s₀ with blk := s₀.blk.hostImage ch 0x0901 1 bs })
    (hd : s.blk.delivers ch 0x0901) (hb : s.blk.backFree ch) (hc : ch ≠ .s0) :
    ∃ t : State, exec (.fwLoad ch bs) s₀ = .next t ∧ t.pending = s.pending ∧ t.blk.repliedTo s.blk ch (DENIED 0x10) ∧
      t.blk.mailBack s.blk = s.blk := by
  have hne : (ch == Chan.s0) = false := beq_false_of_ne hc
  obtain ⟨t, hx, hp, hr, -, hm, -⟩ := exec_told (h := fwLoadAnswer ch) hd hb (st := DENIED 0x10) (regs := []) (by
    unfold fwLoadAnswer Block.onPair
    rw [hne]
    rfl)
  exact ⟨t, (exec_fwLoad hs (by unfold loadWaits; rw [hne]; rfl)).trans hx, hp, hr, hm⟩

theorem fwLoad_again (s₀ s : State) (bs : List Byte) (hs : s = { s₀ with blk := s₀.blk.hostImage .s0 0x0901 1 bs })
    (hd : s.blk.delivers .s0 0x0901) (hb : s.blk.backFree .s0) (hph : s.blk.phase = 7 ∨ s.blk.phase = 9) (hl : s.blk.fw.loaded = true) :
    ∃ t : State, exec (.fwLoad .s0 bs) s₀ = .next t ∧ t.pending = s.pending ∧ t.blk.repliedTo s.blk .s0 (REFUSED 0x12) ∧
      t.blk.mailBack s.blk = s.blk := by
  obtain ⟨t, hx, hp, hr, -, hm, -⟩ := exec_told (h := fwLoadAnswer .s0) hd hb (st := REFUSED 0x12) (regs := []) (by
    unfold fwLoadAnswer Block.onPair
    rw [Block.msgTaken_fw, hl]
    rfl)
  exact ⟨t, (exec_fwLoad hs (loadWaits_of_phase hph _)).trans hx, hp, hr, hm⟩

theorem fwLoadAnswer_eq {s : Block} {ws : List Word} {img : ImageSet} {len : Nat} {v : Option (Nat × Nat) × Block} (hl : s.fw.loaded = false)
    (hc : s.scrapped = false) (hlen : len = (mreg ws 3).toNat) (hr : s.hostReadStatus 0 (mpair ws 1) (min len 16777216) = none)
    (hi : img = s.imageSetAt (mpair ws 1) len) (hv : v = s.verifySet img len fun _ => true) :
    (∀ e, v.1 = some e → fwLoadAnswer .s0 s ws = v.2.imageRefused srcRom e) ∧
    (v.1 = none → fwLoadAnswer .s0 s ws = (fwLoadEffect img v.2).yes) := by
  subst hlen hi hv
  constructor <;> intros
  all_goals
    rename_i h
    unfold fwLoadAnswer Block.onPair
    simp only [hl, hc, hr, h]
    rfl

@[simp] theorem Block.mailBack_event (s t : Block) (src ev : Nat) (d : List Word) : (s.event src ev d).mailBack t = s.mailBack t := by
  simp [Block.mailBack]

/-- A set that fails is refused with the failing check, and changes nothing but the draw of an open value. -/
theorem exec_imageRefused {s : State} {ch : Chan} {type : Nat} {h : Block → List Word → Answer} {b : Block} {src : Nat} {e : Nat × Nat}
    (hd : s.blk.delivers ch type) (hb : s.blk.backFree ch) (ha : h (s.blk.msgTaken ch) (s.blk.msgWords ch) = b.imageRefused src e)
    (hv : b = s.blk.msgTaken ch ∨ b = (s.blk.msgTaken ch).drawn) :
    ∃ t : State, onBlk (fun b => b.message ch type h) s = .next t ∧ t.pending = s.pending ∧ t.blk.repliedTo s.blk ch (REFUSED e.1) ∧
      t.blk.rg (chBack ch + 8) = w32 e.2 ∧ { t.blk.mailBack s.blk with freeCtr := s.blk.freeCtr } = s.blk := by
  have hrg : b.regs = (s.blk.msgTaken ch).regs ∧ b.mbx = (s.blk.msgTaken ch).mbx ∧ b.trust = s.blk.trust ∧
      b.ice.perm = s.blk.ice.perm ∧ { b.mailBack s.blk with freeCtr := s.blk.freeCtr } = s.blk := by
    have hm := Block.mailBack_msgTaken s.blk s.blk ch
    have htr := s.blk.msgTaken_trust ch
    have hpm := s.blk.msgTaken_perm ch
    obtain ⟨m, hmd⟩ : ∃ m, m = s.blk.msgTaken ch := ⟨_, rfl⟩
    rw [← hmd] at hv hm htr hpm ⊢
    have hm' : { m.mailBack s.blk with freeCtr := s.blk.freeCtr } = s.blk := (congrArg (fun x : Block => { x with freeCtr := s.blk.freeCtr }) hm :)
    obtain h | h := hv
    · rw [h]
      exact ⟨rfl, rfl, htr, hpm, hm'⟩
    · rw [h]
      exact ⟨rfl, rfl, htr, hpm, hm'⟩
  obtain ⟨g1, g2, g3, g4, g5⟩ := hrg
  obtain ⟨t, hx', hp, hrep, hregs, ht⟩ := exec_answer hd hb ha
    ((Block.rg_event _ _ _ _ (chBack_ne_of_offMail ch (a := ICE_DROPPED) (by decide) (by omega)).symm).trans (Block.rg_of_regs g1 _))
    ((Block.event_mbx ..).trans g2)
    ((congrArg Trust.fuses (Block.event_trust ..)).trans (congrArg Trust.fuses g3)) ((Block.event_perm ..).trans g4)
  have hm : t.blk.mailBack s.blk = b.mailBack s.blk := by
    rw [ht]
    simp [Block.imageRefused]
  exact ⟨t, hx', hp, hrep, hregs 0 (by omega), (congrArg (fun x : Block => { x with freeCtr := s.blk.freeCtr }) hm :).trans g5⟩

theorem Block.reply_setInForce {s : Block} {x : ImageSet} (h : s.setInForce x) (ch : Chan) (ws : List Word) :
    (s.reply ch ws).setInForce x :=
  Block.setInForce_of h (Block.reply_fw ..) fun a _ _ hk => Block.rg_reply_offMail _ _ _ (by unfold offMail; omega) hk.2.2.1 hk.2.2.2

theorem fwLoad_verdict (s₀ s : State) (bs : List Byte) (img : ImageSet) (len : Nat) (v : Option (Nat × Nat) × Block)
    (hs : s = { s₀ with blk := s₀.blk.hostImage .s0 0x0901 1 bs }) (hd : s.blk.delivers .s0 0x0901) (hb : s.blk.backFree .s0)
    (hph : s.blk.phase = 7 ∨ s.blk.phase = 9) (hl : s.blk.fw.loaded = false) (hc : s.blk.scrapped = false)
    (hw : s.blk.bit MOR_START 4 = false) (hlen : len = (mreg (s.blk.msgWords .s0) 3).toNat)
    (hr : (s.blk.msgTaken .s0).hostReadStatus 0 (mpair (s.blk.msgWords .s0) 1) (min len 16777216) = none)
    (hi : img = (s.blk.msgTaken .s0).imageSetAt (mpair (s.blk.msgWords .s0) 1) len)
    (hv : v = (s.blk.msgTaken .s0).verifySet img len (fun _ => true)) :
    ∃ t : State, exec (.fwLoad .s0 bs) s₀ = .next t ∧ t.pending = s.pending ∧
      (∀ e, v.1 = some e → t.blk.repliedTo s.blk .s0 (REFUSED e.1) ∧
        t.blk.rg (chBack .s0 + 8) = w32 e.2 ∧ { t.blk.mailBack s.blk with freeCtr := s.blk.freeCtr } = s.blk) ∧
      (v.1 = none → t.blk.repliedTo s.blk .s0 OK ∧ t.blk.fw.loaded = true ∧ t.blk.phase = 9 ∧ (∀ n, n < 7 → t.blk.coreState n = 2) ∧
        t.blk.pair RIME_SET_ID_LO = img.setId.toNat ∧
        (∀ c, c ∈ img.components → c.id < 7 → (t.blk.core c.id).image = some c ∧ t.blk.rg (RIME_VERSION c.id) = c.version) ∧
        (∀ c, c ∈ img.components → c.id = 7 → t.blk.fw.library = some c)) ∧
      t.blk.objs = s.blk.objs ∧ t.blk.jobs = s.blk.jobs ∧ t.blk.parts = s.blk.parts := by
  have hx := exec_fwLoad hs (loadWaits_of_phase hph _)
  obtain ⟨h1, h2⟩ := fwLoadAnswer_eq (s := s.blk.msgTaken .s0) (ws := s.blk.msgWords .s0) ((congrArg Firmware.loaded (Block.msgTaken_fw ..)).trans hl)
    ((congrArg (· == 4) (s.blk.lcState_msgTaken .s0)).trans hc) hlen hr hi hv
  cases hv1 : v.1 with
  | some e =>
    have hv2 := (s.blk.msgTaken .s0).verifySet_block img len fun _ => true
    rw [← hv] at hv2
    obtain ⟨t, hx', hp, hrep, hr8, hm⟩ := exec_imageRefused hd hb (h1 e hv1) hv2
    refine ⟨t, hx.trans hx', hp, fun e' he' => ?_, fun hn => by simp at hn, (congrArg Block.objs hm :), (congrArg Block.jobs hm :),
      (congrArg Block.parts hm :)⟩
    cases he'
    exact ⟨hrep, hr8, hm⟩
  | none =>
    subst hv hi
    obtain ⟨hfmt, hv2⟩ := Block.verifySet_passes hv1
    have ha := h2 hv1
    rw [hv2] at ha
    have hk := fwLoadEffect_loaded (Block.imageSetAt_ids hfmt)
      ((congrArg (fun w : Word => w.bit 4) (s.blk.rg_msgTaken_offMail .s0 (a := MOR_START) (by decide) (by decide) (by decide))).trans hw)
    obtain ⟨x, hxd⟩ : ∃ x, x = (s.blk.msgTaken .s0).imageSetAt (mpair (s.blk.msgWords .s0) 1) len := ⟨_, rfl⟩
    rw [← hxd] at ha hk ⊢
    obtain ⟨b, hbd⟩ : ∃ b, b = fwLoadEffect x (s.blk.msgTaken .s0) := ⟨_, rfl⟩
    rw [← hbd] at ha hk
    obtain ⟨k1, k2, k3, k4, k5, k6⟩ := hk
    obtain ⟨t, hx', hp, hrep, -, ht⟩ := exec_answer hd hb ha (k4 _ (by unfold loadKeeps; decide) (by decide) (by decide))
      (congrArg Block.mbx k3 :) (k5.trans (congrArg Trust.fuses (Block.msgTaken_trust ..))) (k6.trans (Block.msgTaken_perm ..))
    have hin := Block.reply_setInForce k1 .s0 (mreg (s.blk.msgWords .s0) 0 :: w32 b.yes.status :: b.yes.regs)
    have hph' : t.blk.phase = 9 := by
      rw [ht]
      exact (congrArg (fun w : Word => w.fld 3 0) (Block.rg_reply_offMail _ _ _ (by decide) (by decide) (by decide))).trans k2
    have ht' : t.blk.objs = b.objs ∧ t.blk.jobs = b.jobs ∧ t.blk.parts = b.parts := by
      rw [ht]
      exact ⟨Block.reply_objs .., Block.reply_jobs .., Block.reply_parts ..⟩
    rw [show b.yes.blk = b from rfl] at ht
    rw [← ht] at hin
    obtain ⟨o1, o2, o3⟩ := ht'
    refine ⟨t, hx.trans hx', hp, fun e' he' => (by simp at he'), fun _ => ⟨hrep, hin.loaded, hph', hin.states, hin.id,
      fun c hc => (hin.comps c hc).1, fun c hc => (hin.comps c hc).2⟩, o1.trans ?_, o2.trans ?_, o3.trans ?_⟩
    · exact (congrArg Block.objs k3 :).trans (Block.msgTaken_objs ..)
    · exact (congrArg Block.jobs k3 :).trans (Block.msgTaken_jobs ..)
    · exact (congrArg Block.parts k3 :).trans (Block.msgTaken_parts ..)

/-! ### A component restarts -/

/-- A core told to restart: its faults forgotten, and the reply that its return owes. -/
def RimeCore.told (x : RimeCore) (r : Chan × Word × Bool) : RimeCore := { x with faults := [], reply := some r }

theorem Block.restartFor_eq (s : Block) (n : Nat) (ch : Chan) (h : Word) (u : Bool) : s.restartFor n ch h u =
    ((s.modCore n fun x => x.told (ch, h, u)).coreGone n 4).modCore n fun x => { x with faultAt := s.now } := rfl

/-- A core told to restart. -/
structure Block.coreTold (t s : Block) (n : Nat) (r : Chan × Word × Bool) : Prop where
  rest : { t with regs := s.regs, fw := s.fw, esk := s.esk } = s
  regs : ∀ a, a ≠ RIME_STATE n → a ≠ LDG_STATUS → t.rg a = s.rg a
  state : t.coreState n = 4
  core : t.core n = { (s.core n).told r with faultAt := s.now }

theorem Block.restartFor_told (s : Block) (n : Nat) (ch : Chan) (h : Word) (u : Bool) : (s.restartFor n ch h u).coreTold s n (ch, h, u) := by
  rw [s.restartFor_eq]
  have h1 := s.core_modCore_same n fun x => x.told (ch, h, u)
  have h2 : { s.modCore n fun x => x.told (ch, h, u) with fw := s.fw } = s := rfl
  obtain ⟨a, ha⟩ : ∃ a, a = s.modCore n fun x => x.told (ch, h, u) := ⟨_, rfl⟩
  rw [← ha] at h1 h2 ⊢
  have hreg : a.regs = s.regs := (congrArg Block.regs h2 :)
  obtain ⟨l1, l2⟩ := a.coreLeaves_left n
  unfold Block.coreGone
  obtain ⟨b, hb⟩ : ∃ b, b = a.coreLeaves n := ⟨_, rfl⟩
  rw [← hb] at l1 l2 ⊢
  have k0 := b.coreState_setCoreState n (v := 4) (by decide)
  have k1 : ∀ a, a ≠ RIME_STATE n → (b.setCoreState n 4).rg a = b.rg a := fun a ha => Block.rg_wf_other _ _ _ _ ha
  have k3 : { b.setCoreState n 4 with regs := b.regs } = b := by simp [Block.setCoreState]
  obtain ⟨d, hd⟩ : ∃ d, d = b.setCoreState n 4 := ⟨_, rfl⟩
  rw [← hd] at k0 k1 k3 ⊢
  have hfw : d.fw = a.fw := (congrArg Block.fw k3 :).trans (congrArg Block.fw l1 :)
  have m1 := d.core_modCore_same n fun x => { x with faultAt := s.now }
  have m2 : { d.modCore n fun x => { x with faultAt := s.now } with fw := d.fw } = d := rfl
  have m3 : (d.modCore n fun x => { x with faultAt := s.now }).regs = d.regs := rfl
  obtain ⟨t, ht⟩ : ∃ t, t = d.modCore n fun x => { x with faultAt := s.now } := ⟨_, rfl⟩
  rw [← ht] at m1 m2 m3 ⊢
  refine ⟨?_, fun x hx hl => (Block.rg_of_regs m3 x).trans ((k1 x hx).trans ((l2 x hl).trans (Block.rg_of_regs hreg x))),
    (Block.coreState_congr (Block.rg_of_regs m3 _)).trans k0, m1.trans ?_⟩
  · exact (congrArg (fun x : Block => { x with regs := s.regs, fw := s.fw, esk := s.esk }) m2 :).trans
      ((congrArg (fun x : Block => { x with regs := s.regs, fw := s.fw, esk := s.esk }) k3 :).trans
        ((congrArg (fun x : Block => { x with regs := s.regs, fw := s.fw, esk := s.esk }) l1 :).trans
          (congrArg (fun x : Block => { x with regs := s.regs, esk := s.esk }) h2 :)))
  · rw [Block.core_congr hfw, h1]

theorem Block.owing_spec (s : Block) (ch : Chan) : { s.owing ch with mbx := s.mbx } = s ∧ ((s.owing ch).box (chBase ch)).owed = true ∧
    (s.owing ch).fw = s.fw ∧ ∀ a, (s.owing ch).rg a = s.rg a :=
  ⟨rfl, by unfold Block.owing; rw [Block.box_setBox_same], rfl, fun _ => rfl⟩

theorem fwRestart_restarts (s : State) (ch : Chan) (id : Nat) (hd : s.blk.delivers ch 0x0903) (hc : chSecure ch = true)
    (hl : s.blk.fw.loaded = true) (hid : id = (mreg (s.blk.msgWords ch) 1).toNat) (h1 : 1 ≤ id) (h6 : id ≤ 6)
    (hr : s.blk.restarting id = false) :
    ∃ t : State, exec (.fwRestart ch) s = .next t ∧ t.pending = s.pending ∧ t.blk.coreState id = 4 ∧
      t.blk.core id = { s.blk.core id with faults := [], faultAt := s.blk.now, reply := some (ch, mreg (s.blk.msgWords ch) 0, false) } ∧
      (t.blk.box (chBase ch)).owed = true ∧ { t.blk.mailBack s.blk with fw := s.blk.fw, esk := s.blk.esk } = s.blk := by
  have hx : exec (.fwRestart ch) s = onBlk (effFwRestart ch) s := rfl
  have hfw := s.blk.msgTaken_fw ch
  have hrg := fun a (ha : offMail a) => s.blk.rg_msgTaken_offMail ch ha
  have eS : ∀ n, RIME_STATE n = 0x00600000 + 0x40 * n := fun _ => rfl
  have hst : (s.blk.msgTaken ch).coreState id = s.blk.coreState id := Block.coreState_congr
    (hrg _ (by rw [eS]; omega) (by rw [eS, show ICE_DROPPED = 0x0040001C from rfl]; omega) (by rw [eS, show LDG_STATUS = 0x00500000 from rfl]; omega))
  have hnow : (s.blk.msgTaken ch).now = s.blk.now := by
    unfold Block.now Block.pair
    rw [hrg CLK_TB_LO (by decide) (by decide) (by decide), hrg (CLK_TB_LO + 4) (by decide) (by decide) (by decide)]
  have hm := Block.mailBack_msgTaken s.blk s.blk ch
  have hstep : fwRestartStep ch (s.blk.msgTaken ch) (s.blk.msgWords ch) =
      (none, (s.blk.msgTaken ch).restartFor id ch (mreg (s.blk.msgWords ch) 0) false) := by
    unfold fwRestartStep
    simp only [← hid]
    rw [if_neg (by simp [hc]), if_neg (by simp [hl]), if_neg (by omega), if_neg]
    unfold Block.restarting at hr ⊢
    simp [hst, hr]
  have he := Block.messageLater_waits hd hstep
  have htr := s.blk.msgTaken_trust ch
  have hpm := s.blk.msgTaken_perm ch
  obtain ⟨m, hmd⟩ : ∃ m, m = s.blk.msgTaken ch := ⟨_, rfl⟩
  rw [← hmd] at hfw hnow hm he htr hpm
  obtain ⟨k1, -, k3, k4⟩ := m.restartFor_told id ch (mreg (s.blk.msgWords ch) 0) false
  obtain ⟨b, hb⟩ : ∃ b, b = m.restartFor id ch (mreg (s.blk.msgWords ch) 0) false := ⟨_, rfl⟩
  rw [← hb] at k1 k3 k4 he
  obtain ⟨o1, o2, o3, o4⟩ := b.owing_spec ch
  obtain ⟨t, ht⟩ : ∃ t, t = b.owing ch := ⟨_, rfl⟩
  rw [← ht] at o1 o2 o3 o4 he
  refine ⟨_, hx.trans (onBlk_next_of_eq (f := effFwRestart ch) he ?_ ?_), rfl, (Block.coreState_congr (o4 _)).trans k3, ?_, o2, ?_⟩
  · exact (congrArg (fun x : Block => x.trust.fuses) o1 :).trans ((congrArg (fun x : Block => x.trust.fuses) k1 :).trans (congrArg Trust.fuses htr))
  · exact (congrArg (fun x : Block => x.ice.perm) o1 :).trans ((congrArg (fun x : Block => x.ice.perm) k1 :).trans hpm)
  · rw [Block.core_congr o3, k4, Block.core_congr hfw, hnow]
    rfl
  · exact (congrArg (fun x : Block => { x.mailBack s.blk with fw := s.blk.fw, esk := s.blk.esk }) o1 :).trans
      ((congrArg (fun x : Block => { x.mailBack s.blk with fw := s.blk.fw, esk := s.blk.esk }) k1 :).trans
        (congrArg (fun x : Block => { x with fw := s.blk.fw, esk := s.blk.esk }) hm :))

theorem fwRestart_refuses (s : State) (ch : Chan) (id : Nat) (hd : s.blk.delivers ch 0x0903) (hb : s.blk.backFree ch) (hc : chSecure ch = true)
    (hl : s.blk.fw.loaded = true) (hid : id = (mreg (s.blk.msgWords ch) 1).toNat) (h : id = 0 ∨ 6 < id ∨ s.blk.restarting id = true) :
    ∃ t : State, exec (.fwRestart ch) s = .next t ∧ t.pending = s.pending ∧
      t.blk.repliedTo s.blk ch (if id = 0 ∨ 6 < id then REFUSED 0x16 else BUSY 0x17) ∧ t.blk.mailBack s.blk = s.blk := by
  have hx : exec (.fwRestart ch) s = onBlk (effFwRestart ch) s := rfl
  have eS : ∀ n, RIME_STATE n = 0x00600000 + 0x40 * n := fun _ => rfl
  obtain ⟨m, hmd⟩ : ∃ m, m = s.blk.msgTaken ch := ⟨_, rfl⟩
  have hstep : (fwRestartStep ch m (s.blk.msgWords ch)).1 = some (m.no (if id = 0 ∨ 6 < id then REFUSED 0x16 else BUSY 0x17)) := by
    unfold fwRestartStep
    simp only [← hid]
    rw [if_neg (by simp [hc]), if_neg (by simp [hmd, hl])]
    split
    next hn => rfl
    next hn =>
      have hst : m.coreState id = s.blk.coreState id := by
        rw [hmd]
        exact Block.coreState_congr (s.blk.rg_msgTaken_offMail ch (by rw [eS]; omega) (by rw [eS, show ICE_DROPPED = 0x0040001C from rfl]; omega)
          (by rw [eS, show LDG_STATUS = 0x00500000 from rfl]; omega))
      have hr : s.blk.restarting id = true := (h.resolve_left fun h0 => hn (Or.inl h0)).resolve_left fun h6 => hn (Or.inr h6)
      have hr' : m.restarting id = true := by
        unfold Block.restarting at hr ⊢
        rw [hst]
        exact hr
      rw [if_pos hr']
  rw [hmd] at hstep
  obtain ⟨t, hx', hp, hrep, -, hm, -⟩ := exec_told hd hb (h := fun _ _ => _) (st := if id = 0 ∨ 6 < id then REFUSED 0x16 else BUSY 0x17) rfl
  exact ⟨t, hx.trans ((onBlk_congr s (f := effFwRestart ch) (Block.messageLater_answers hd hstep)).trans hx'), hp, hrep, hm⟩

/-! ### FW_STATUS -/

theorem fwStatus_answers (s : State) (ch : Chan) (hd : s.blk.delivers ch 0x0904) (hb : s.blk.backFree ch) (hc : chSecure ch = true)
    (hl : s.blk.fw.loaded = true) :
    ∃ t : State, exec (.fwStatus ch) s = .next t ∧ t.pending = s.pending ∧ t.blk.repliedTo s.blk ch OK ∧
      t.blk.rg (chBack ch + 8) = s.blk.rg RIME_SET_ID_LO ∧ t.blk.rg (chBack ch + 12) = s.blk.rg (RIME_SET_ID_LO + 4) ∧
      (∀ n, n < 7 → t.blk.rg (chBack ch + 16 + 4 * n) = s.blk.rg (RIME_VERSION n)) ∧
      t.blk.rg (chBack ch + 44) = (s.blk.fw.library.map (·.version)).getD 0 ∧ t.blk.mailBack s.blk = s.blk := by
  have hx : exec (.fwStatus ch) s = onBlk (effFwStatus ch) s := rfl
  have hfw := s.blk.msgTaken_fw ch
  have hrg := fun a (ha : offMail a) => s.blk.rg_msgTaken_offMail ch ha
  have eV : ∀ n, RIME_VERSION n = 0x00600004 + 0x40 * n := fun _ => rfl
  obtain ⟨m, hmd⟩ : ∃ m, m = s.blk.msgTaken ch := ⟨_, rfl⟩
  obtain ⟨l, hld⟩ : ∃ l, l = [m.rg RIME_SET_ID_LO, m.rg (RIME_SET_ID_LO + 4)] ++ (List.range 7).map (fun n => m.rg (RIME_VERSION n)) ++
      [((m.fw.library.map (·.version)).getD 0)] := ⟨_, rfl⟩
  have hl7 : ∀ n, n < 7 → l.getD (n + 2) 0 = m.rg (RIME_VERSION n) := fun n hn => by
    rw [hld]
    have h7 : n = 0 ∨ n = 1 ∨ n = 2 ∨ n = 3 ∨ n = 4 ∨ n = 5 ∨ n = 6 := by omega
    obtain rfl | rfl | rfl | rfl | rfl | rfl | rfl := h7 <;> rfl
  have hlast : l.getD 9 0 = (m.fw.library.map (·.version)).getD 0 := by rw [hld]; rfl
  obtain ⟨t, hx', hp, hrep, hregs, hm, -⟩ := exec_told hd hb (st := OK) (regs := l)
    (h := fun s _ => s.onPair (chSecure ch) <| s.rooted <|
      s.yes ([s.rg RIME_SET_ID_LO, s.rg (RIME_SET_ID_LO + 4)] ++ (List.range 7).map (fun n => s.rg (RIME_VERSION n)) ++
        [((s.fw.library.map (·.version)).getD 0)])) (by
      rw [← hmd] at hfw ⊢
      rw [hld]
      unfold Block.onPair Block.rooted
      rw [if_pos hc, if_pos (by rw [hfw]; exact hl)]
      rfl)
  rw [← hmd] at hfw hrg
  refine ⟨t, hx.trans hx', hp, hrep, ?_, ?_, fun n hn => ?_, ?_, hm⟩
  · refine (hregs 0 (by omega)).trans ?_
    rw [hld]
    exact hrg _ (by decide) (by decide) (by decide)
  · refine (hregs 1 (by omega)).trans ?_
    rw [hld]
    exact hrg _ (by decide) (by decide) (by decide)
  · have e : chBack ch + 16 + 4 * n = chBack ch + 4 * (n + 2 + 2) := by omega
    rw [e]
    refine (hregs (n + 2) (by omega)).trans ((hl7 n hn).trans (hrg _ ?_ ?_ ?_))
    · rw [eV]
      omega
    · rw [eV, show ICE_DROPPED = 0x0040001C from rfl]
      omega
    · rw [eV, show LDG_STATUS = 0x00500000 from rfl]
      omega
  · refine (hregs 9 (by omega)).trans (hlast.trans ?_)
    rw [hfw]

/-! ### FW_UPDATE -/

theorem exec_fwUpdate {s₀ s : State} {ch : Chan} {bs : List Byte} (hs : s = { s₀ with blk := s₀.blk.hostImage ch 0x0902 2 bs }) :
    exec (.fwUpdate ch bs) s₀ = onBlk (fun b => b.messageLater ch 0x0902 (fwUpdateStep ch)) s := by
  have hx : exec (.fwUpdate ch bs) s₀ = onBlk (effFwUpdate ch bs) s₀ := rfl
  obtain ⟨h1, h2⟩ := s₀.blk.hostImage_same ch 0x0902 2 bs
  refine hx.trans (onBlk_image hs ?_ h1 h2)
  rw [hs]
  rfl

/-- What an update of a component does, by the verdict on its set and by the component found. -/
def updateVerdict (ch : Chan) (s : Block) (id : Nat) (h : Word) (v : Option (Nat × Nat) × Block) (f : Option Component) : Option Answer × Block :=
  match v.1 with
  | some e => (some (v.2.imageRefused (srcCore 0) e), s)
  | none =>
    match f with
    | none => (some (s.imageRefused (srcCore 0) (0x14, id)), s)
    | some c =>
      if c.schema ≠ s.schemaOf id then (some (s.imageRefused (srcCore 0) (0x15, id)), s)
      else if id = 7 then (some ((s.updated c).yes [c.version]), s)
      else (none, (s.updated c).restartFor id ch h true)

theorem fwUpdateStep_eq {s : Block} {ws : List Word} {id len : Nat} {img : ImageSet} {v : Option (Nat × Nat) × Block}
    (hl : s.fw.loaded = true) (hid : id = (mreg ws 1).toNat) (hlen : len = (mreg ws 4).toNat) (hu : s.updateStatus id = none)
    (hr : s.hostReadStatus 0 (mpair ws 2) (min len 16777216) = none) (hi : img = s.imageSetAt (mpair ws 2) len)
    (hv : v = s.verifySet img len fun c => c.id == id) :
    fwUpdateStep .s0 s ws = updateVerdict .s0 s id (mreg ws 0) v (img.components.find? fun c => c.id == id) := by
  subst hid hlen hi hv
  unfold fwUpdateStep
  simp only [hl, hu, hr]
  rfl

theorem Block.schemaOf_msgTaken (s : Block) (ch : Chan) {id : Nat} (h : id ≤ 7) : (s.msgTaken ch).schemaOf id = s.schemaOf id := by
  have e : RIME_SCHEMA id = 0x00600008 + 0x40 * id := rfl
  have e1 : ICE_DROPPED = 0x0040001C := rfl
  have e2 : LDG_STATUS = 0x00500000 := rfl
  unfold Block.schemaOf
  rw [Block.msgTaken_fw]
  exact if_congr Iff.rfl rfl (congrArg (fun w : Word => w.fld 15 0) (s.rg_msgTaken_offMail ch (by omega) (by omega) (by omega)))

theorem updateStatus_id {s : Block} {id : Nat} (h : s.updateStatus id = none) : 1 ≤ id ∧ id ≤ 7 := by
  unfold Block.updateStatus at h
  split at h
  next => cases h
  next =>
    split at h
    next => cases h
    next => omega

/-- An update counted. -/
def Block.counted (s : Block) (c : Component) : Block :=
  { s with trust := { s.trust with updates := kput s.trust.updates (measureIndex c.id) (min 255 (tget 0 s.trust.updates (measureIndex c.id) + 1)) } }

theorem Block.updated_eq (s : Block) (c : Component) : s.updated c = (s.counted c).install c true := rfl

theorem Block.updated_spec (s : Block) (c : Component) : (s.updated c).holds c ∧ (s.updated c).loadKept s := by
  rw [s.updated_eq]
  have h1 := (s.counted c).install_holds c true
  have h2 := (s.counted c).install_loadKept c true
  exact ⟨h1, h2.trans (Block.loadKept.trans (t := s) ⟨rfl, fun _ _ => rfl, rfl, rfl⟩ (.refl s))⟩

/-- What an update of a component leaves, whatever its verdict. -/
def Block.updateKept (t s : Block) : Prop := t.objs = s.objs ∧ t.jobs = s.jobs ∧ t.parts = s.parts ∧ t.bundles = s.bundles

theorem fwUpdate_imageRefused {s : State} {b : Block} {e : Nat × Nat} (hd : s.blk.delivers .s0 0x0902) (hb : s.blk.backFree .s0)
    (hv : b = s.blk.msgTaken .s0 ∨ b = (s.blk.msgTaken .s0).drawn)
    (h : (fwUpdateStep .s0 (s.blk.msgTaken .s0) (s.blk.msgWords .s0)).1 = some (b.imageRefused (srcCore 0) e)) :
    ∃ t : State, onBlk (fun b => b.messageLater .s0 0x0902 (fwUpdateStep .s0)) s = .next t ∧ t.pending = s.pending ∧
      t.blk.repliedTo s.blk .s0 (REFUSED e.1) ∧ t.blk.rg (chBack .s0 + 8) = w32 e.2 ∧ t.blk.fw = s.blk.fw ∧ t.blk.trust = s.blk.trust ∧
      t.blk.updateKept s.blk := by
  obtain ⟨t, hx, hp, hr, h8, hm⟩ := exec_imageRefused (h := fun _ _ => b.imageRefused (srcCore 0) e) hd hb rfl hv
  refine ⟨t, (onBlk_congr s (Block.messageLater_answers hd h)).trans hx, hp, hr, h8, ?_⟩
  exact ⟨(congrArg Block.fw hm :), (congrArg Block.trust hm :), (congrArg Block.objs hm :), (congrArg Block.jobs hm :),
    (congrArg Block.parts hm :), (congrArg Block.bundles hm :)⟩

theorem fwUpdate_library {s : State} {c : Component} (hd : s.blk.delivers .s0 0x0902) (hb : s.blk.backFree .s0) (hc : c.id = 7)
    (h : (fwUpdateStep .s0 (s.blk.msgTaken .s0) (s.blk.msgWords .s0)).1 = some (((s.blk.msgTaken .s0).updated c).yes [c.version])) :
    ∃ t : State, onBlk (fun b => b.messageLater .s0 0x0902 (fwUpdateStep .s0)) s = .next t ∧ t.pending = s.pending ∧
      t.blk.repliedTo s.blk .s0 OK ∧ t.blk.rg (chBack .s0 + 8) = c.version ∧ t.blk.fw.library = some c ∧ t.blk.updateKept s.blk := by
  obtain ⟨h1, h2⟩ := (s.blk.msgTaken .s0).updated_spec c
  obtain ⟨b, hbd⟩ : ∃ b, b = (s.blk.msgTaken .s0).updated c := ⟨_, rfl⟩
  rw [← hbd] at h h1 h2
  obtain ⟨k1, k2, k3, k4⟩ := h2
  obtain ⟨t, hx, hp, hr, h8, ht⟩ := exec_answer (h := fun _ _ => b.yes [c.version]) hd hb rfl (k2 _ (by unfold loadKeeps; decide))
    (congrArg Block.mbx k1 :) (k3.trans (congrArg Trust.fuses (Block.msgTaken_trust ..))) (k4.trans (Block.msgTaken_perm ..))
  have hb' : (b.yes [c.version]).blk = b := rfl
  rw [hb'] at ht
  refine ⟨t, (onBlk_congr s (Block.messageLater_answers hd h)).trans hx, hp, hr, h8 0 (by omega), ?_, ?_⟩
  · rw [ht, Block.reply_fw]
    exact h1.2 hc
  · rw [ht]
    exact ⟨(Block.reply_objs ..).trans ((congrArg Block.objs k1 :).trans (Block.msgTaken_objs ..)),
      (Block.reply_jobs ..).trans ((congrArg Block.jobs k1 :).trans (Block.msgTaken_jobs ..)),
      (Block.reply_parts ..).trans ((congrArg Block.parts k1 :).trans (Block.msgTaken_parts ..)),
      (Block.reply_bundles ..).trans ((congrArg Block.bundles k1 :).trans (Block.msgTaken_bundles ..))⟩

theorem fwUpdate_core {s : State} {c : Component} {h : Word} (hd : s.blk.delivers .s0 0x0902) (hc : c.id < 7)
    (hs : fwUpdateStep .s0 (s.blk.msgTaken .s0) (s.blk.msgWords .s0) = (none, ((s.blk.msgTaken .s0).updated c).restartFor c.id .s0 h true)) :
    ∃ t : State, onBlk (fun b => b.messageLater .s0 0x0902 (fwUpdateStep .s0)) s = .next t ∧ t.pending = s.pending ∧
      (t.blk.coreState c.id = 4 ∧ (t.blk.core c.id).image = some c ∧ t.blk.rg (RIME_VERSION c.id) = c.version ∧
        (t.blk.core c.id).reply = some (.s0, h, true) ∧ (t.blk.core c.id).faults = [] ∧ (t.blk.box (chBase .s0)).owed = true) ∧
      t.blk.updateKept s.blk := by
  have he := Block.messageLater_waits hd hs
  obtain ⟨h1, k1, k2, k3, k4⟩ := (s.blk.msgTaken .s0).updated_spec c
  obtain ⟨hi, hver⟩ := h1.1 hc
  obtain ⟨a, had⟩ : ∃ a, a = (s.blk.msgTaken .s0).updated c := ⟨_, rfl⟩
  rw [← had] at he hi hver k1 k2 k3 k4
  obtain ⟨r1, r2, r3, r4⟩ := a.restartFor_told c.id .s0 h true
  obtain ⟨b, hb⟩ : ∃ b, b = a.restartFor c.id .s0 h true := ⟨_, rfl⟩
  rw [← hb] at r1 r2 r3 r4 he
  obtain ⟨o1, o2, o3, o4⟩ := b.owing_spec .s0
  obtain ⟨t, ht⟩ : ∃ t, t = b.owing .s0 := ⟨_, rfl⟩
  rw [← ht] at o1 o2 o3 o4 he
  have hcore : t.core c.id = { (a.core c.id).told (.s0, h, true) with faultAt := a.now } := (Block.core_congr o3 _).trans r4
  have hfix : ∀ {β : Type} (g : Block → β), (∀ x : Block, ∀ m, g { x with mbx := m } = g x) →
      (∀ x : Block, ∀ r f e, g { x with regs := r, fw := f, esk := e } = g x) → g t = g a := fun g g1 g2 => by
    have e1 := congrArg g o1
    have e2 := congrArg g r1
    rw [g1] at e1
    rw [g2] at e2
    exact e1.trans e2
  have eV : RIME_VERSION c.id = 0x00600004 + 0x40 * c.id := rfl
  have eS : RIME_STATE c.id = 0x00600000 + 0x40 * c.id := rfl
  have eL : LDG_STATUS = 0x00500000 := rfl
  refine ⟨_, onBlk_next_of_eq (f := fun b => b.messageLater .s0 0x0902 (fwUpdateStep .s0)) he ?_ ?_, rfl,
    ⟨(Block.coreState_congr (o4 _)).trans r3, ?_, (o4 _).trans ((r2 _ (by omega) (by omega)).trans hver), ?_, ?_, o2⟩, ?_⟩
  · exact (hfix (fun x => x.trust.fuses) (fun _ _ => rfl) fun _ _ _ _ => rfl).trans (k3.trans (congrArg Trust.fuses (Block.msgTaken_trust ..)))
  · exact (hfix (fun x => x.ice.perm) (fun _ _ => rfl) fun _ _ _ _ => rfl).trans (k4.trans (Block.msgTaken_perm ..))
  · rw [hcore]
    exact hi
  · rw [hcore]
    rfl
  · rw [hcore]
    rfl
  · exact ⟨(hfix Block.objs (fun _ _ => rfl) fun _ _ _ _ => rfl).trans ((congrArg Block.objs k1 :).trans (Block.msgTaken_objs ..)),
      (hfix Block.jobs (fun _ _ => rfl) fun _ _ _ _ => rfl).trans ((congrArg Block.jobs k1 :).trans (Block.msgTaken_jobs ..)),
      (hfix Block.parts (fun _ _ => rfl) fun _ _ _ _ => rfl).trans ((congrArg Block.parts k1 :).trans (Block.msgTaken_parts ..)),
      (hfix Block.bundles (fun _ _ => rfl) fun _ _ _ _ => rfl).trans ((congrArg Block.bundles k1 :).trans (Block.msgTaken_bundles ..))⟩

theorem fwUpdate_refused (s₀ s : State) (bs : List Byte) (st : Nat) (hs : s = { s₀ with blk := s₀.blk.hostImage .s0 0x0902 2 bs })
    (hd : s.blk.delivers .s0 0x0902) (hb : s.blk.backFree .s0) (hl : s.blk.fw.loaded = true)
    (hu : (s.blk.msgTaken .s0).updateStatus (mreg (s.blk.msgWords .s0) 1).toNat = some st) :
    ∃ t : State, exec (.fwUpdate .s0 bs) s₀ = .next t ∧ t.pending = s.pending ∧ t.blk.repliedTo s.blk .s0 st ∧
      t.blk.mailBack s.blk = s.blk := by
  have hfw := s.blk.msgTaken_fw .s0
  obtain ⟨m, hmd⟩ : ∃ m, m = s.blk.msgTaken .s0 := ⟨_, rfl⟩
  have hstep : (fwUpdateStep .s0 m (s.blk.msgWords .s0)).1 = some (m.no st) := by
    rw [← hmd] at hu hfw
    unfold fwUpdateStep
    simp only [hfw, hl, hu]
    rfl
  rw [hmd] at hstep
  obtain ⟨t, hx, hp, hr, -, hm, -⟩ := exec_told hd hb (h := fun _ _ => (s.blk.msgTaken .s0).no st) (st := st) (regs := []) rfl
  exact ⟨t, (exec_fwUpdate hs).trans ((onBlk_congr s (Block.messageLater_answers hd hstep)).trans hx), hp, hr, hm⟩

theorem fwUpdate_verdict (s₀ s : State) (bs : List Byte) (img : ImageSet) (id len : Nat) (v : Option (Nat × Nat) × Block)
    (hs : s = { s₀ with blk := s₀.blk.hostImage .s0 0x0902 2 bs }) (hd : s.blk.delivers .s0 0x0902) (hb : s.blk.backFree .s0)
    (hl : s.blk.fw.loaded = true) (hid : id = (mreg (s.blk.msgWords .s0) 1).toNat) (hlen : len = (mreg (s.blk.msgWords .s0) 4).toNat)
    (hu : (s.blk.msgTaken .s0).updateStatus id = none)
    (hr : (s.blk.msgTaken .s0).hostReadStatus 0 (mpair (s.blk.msgWords .s0) 2) (min len 16777216) = none)
    (hi : img = (s.blk.msgTaken .s0).imageSetAt (mpair (s.blk.msgWords .s0) 2) len)
    (hv : v = (s.blk.msgTaken .s0).verifySet img len (fun c => c.id == id)) :
    ∃ t : State, exec (.fwUpdate .s0 bs) s₀ = .next t ∧ t.pending = s.pending ∧
      (∀ e, v.1 = some e → t.blk.repliedTo s.blk .s0 (REFUSED e.1) ∧ t.blk.rg (chBack .s0 + 8) = w32 e.2 ∧ t.blk.fw = s.blk.fw ∧
        t.blk.trust = s.blk.trust) ∧
      (∀ c, v.1 = none → (img.components.find? fun c => c.id == id) = some c → c.schema ≠ s.blk.schemaOf id →
        t.blk.repliedTo s.blk .s0 (REFUSED 0x15) ∧ t.blk.fw = s.blk.fw ∧ t.blk.trust = s.blk.trust) ∧
      (∀ c, v.1 = none → (img.components.find? fun c => c.id == id) = some c → c.schema = s.blk.schemaOf id → id ≤ 6 →
        t.blk.coreState id = 4 ∧ (t.blk.core id).image = some c ∧ t.blk.rg (RIME_VERSION id) = c.version ∧
        (t.blk.core id).reply = some (.s0, mreg (s.blk.msgWords .s0) 0, true) ∧ (t.blk.core id).faults = [] ∧
        (t.blk.box (chBase .s0)).owed = true) ∧
      (∀ c, v.1 = none → (img.components.find? fun c => c.id == id) = some c → c.schema = s.blk.schemaOf id → id = 7 →
        t.blk.repliedTo s.blk .s0 OK ∧ t.blk.rg (chBack .s0 + 8) = c.version ∧ t.blk.fw.library = some c) ∧
      t.blk.objs = s.blk.objs ∧ t.blk.jobs = s.blk.jobs ∧ t.blk.parts = s.blk.parts ∧ t.blk.bundles = s.blk.bundles := by
  have hx := exec_fwUpdate hs
  have hstep := fwUpdateStep_eq ((congrArg Firmware.loaded (Block.msgTaken_fw s.blk .s0)).trans hl) hid hlen hu hr hi hv
  obtain ⟨-, h7⟩ := updateStatus_id hu
  have hv2 := (s.blk.msgTaken .s0).verifySet_block img len fun c => c.id == id
  rw [← hv] at hv2
  have hsch := s.blk.schemaOf_msgTaken .s0 h7
  obtain ⟨f, hf⟩ : ∃ f, f = img.components.find? fun c => c.id == id := ⟨_, rfl⟩
  rw [← hf] at hstep ⊢
  clear hv hi
  obtain ⟨r, w⟩ := v
  cases r with
  | some e =>
    obtain ⟨t, hx', hp, h1, h2, h3, h4, h5⟩ := fwUpdate_imageRefused hd hb hv2 (congrArg Prod.fst hstep)
    refine ⟨t, hx.trans hx', hp, fun e' he' => ?_, fun c h => (by cases h), fun c h => (by cases h), fun c h => (by cases h), h5⟩
    cases he'
    exact ⟨h1, h2, h3, h4⟩
  | none =>
    cases f with
    | none =>
      obtain ⟨t, hx', hp, h1, h2, h3, h4, h5⟩ := fwUpdate_imageRefused hd hb (Or.inl rfl) (congrArg Prod.fst hstep)
      exact ⟨t, hx.trans hx', hp, fun e h => (by cases h), fun c _ h => (by cases h), fun c _ h => (by cases h), fun c _ h => (by cases h), h5⟩
    | some c =>
      have hcid : c.id = id := by
        have := List.find?_some hf.symm
        simpa using this
      by_cases hsc : c.schema = s.blk.schemaOf id
      · by_cases hid7 : id = 7
        · have hans := hstep.trans (if_neg (by rw [hsch]; exact fun h => h hsc))
          rw [if_pos hid7] at hans
          obtain ⟨t, hx', hp, h1, h2, h3, h4⟩ := fwUpdate_library hd hb (hcid.trans hid7) (congrArg Prod.fst hans)
          refine ⟨t, hx.trans hx', hp, fun e h => (by cases h), fun c' _ h hne => ?_, fun c' _ h _ h6 => by omega, fun c' _ h _ _ => ?_, h4⟩
          · cases h
            exact absurd hsc hne
          · cases h
            exact ⟨h1, h2, h3⟩
        · have hans := hstep.trans (if_neg (by rw [hsch]; exact fun h => h hsc))
          rw [if_neg hid7] at hans
          subst hcid
          obtain ⟨t, hx', hp, h1, h2⟩ := fwUpdate_core hd (by omega) hans
          refine ⟨t, hx.trans hx', hp, fun e h => (by cases h), fun c' _ h hne => ?_, fun c' _ h _ h6 => ?_, fun c' _ h _ h' => absurd h' hid7, h2⟩
          · cases h
            exact absurd hsc hne
          · cases h
            exact h1
      · have hans := hstep.trans (if_pos (by rw [hsch]; exact hsc))
        obtain ⟨t, hx', hp, h1, h2, h3, h4, h5⟩ := fwUpdate_imageRefused hd hb (Or.inl rfl) (congrArg Prod.fst hans)
        refine ⟨t, hx.trans hx', hp, fun e h => (by cases h), fun c' _ h _ => ⟨h1, h3, h4⟩, fun c' _ h he => ?_, fun c' _ h he => ?_, h5⟩
        · cases h
          exact absurd he hsc
        · cases h
          exact absurd he hsc

/-- Settles O43: a set is judged once; a load installs one component of each ID, so what is installed last stands; and an update is
installed before its core is told to restart. -/
theorem firmwareMessages : Obligations.FirmwareMessages := by
  unfold Obligations.FirmwareMessages
  exact ⟨fwLoad_verdict, fwLoad_again, fwLoad_waits, fwLoad_elsewhere, fwUpdate_verdict, fwUpdate_refused, fwRestart_restarts,
    fwRestart_refuses, fwStatus_answers⟩

end Sys2Proof.Machine
end

section
/-! The destruction of partitions, once no job is left (R330, R484). -/

namespace Sys2Proof.Machine

/-! ### Without a job -/

/-- A block without jobs and with the requests of another. -/
structure Block.workKept (t s : Block) : Prop where
  jobs : t.jobs = []
  reqs : t.reqs = s.reqs

theorem Block.workKept.refl {s : Block} (h : s.jobs = []) : s.workKept s := ⟨h, rfl⟩

theorem Block.workKept.trans {s t u : Block} (h : u.workKept t) (h' : t.workKept s) : u.workKept s := ⟨h.jobs, h.reqs.trans h'.reqs⟩

theorem Block.workKept_of {s t : Block} (h : s.jobs = []) (hj : t.jobs = s.jobs) (hr : t.reqs = s.reqs) : t.workKept s := ⟨hj.trans h, hr⟩

/-- A step after one that left no job. -/
theorem Block.workKept.then {s t : Block} (h : t.workKept s) {f : Block → Block} (hf : ∀ b, b.jobs = [] → (f b).workKept b) :
    (f t).workKept s := (hf t h.jobs).trans h

theorem Block.each_workKept {α : Type} (l : List α) (f : Block → α → Block) (hf : ∀ b x, b.jobs = [] → (f b x).workKept b) {s : Block}
    (h : s.jobs = []) : (s.each l f).workKept s := by
  unfold Block.each
  induction l generalizing s with
  | nil => exact .refl h
  | cons x l ih => exact (ih (hf s x h).jobs).trans (hf s x h)

theorem loop_workKept (n : Nat) (f : Nat → Block → Block) (hf : ∀ i b, b.jobs = [] → (f i b).workKept b) {s : Block} (h : s.jobs = []) :
    (loop n f s).workKept s := by
  induction n with
  | zero => exact .refl h
  | succ n ih => exact (hf n _ ih.jobs).trans ih

section
variable {s : Block} (h : s.jobs = [])
include h

theorem Block.wr_workKept (a : Nat) (v : Word) : (s.wr a v).workKept s := Block.workKept_of h rfl rfl

theorem Block.wf_workKept (a hi lo v : Nat) : (s.wf a hi lo v).workKept s := Block.wr_workKept h _ _

theorem Block.wb_workKept (a i : Nat) (v : Bool) : (s.wb a i v).workKept s := Block.wr_workKept h _ _

theorem Block.bump_workKept (a n : Nat) : (s.bump a n).workKept s := Block.wr_workKept h _ _

theorem Block.led1_workKept (n : Nat) (m : LedgerMove) : (s.led1 n m).workKept s :=
  Block.workKept_of h (Block.led1_jobs ..) (Block.led1_reqs ..)

theorem Block.ledLand_workKept (n k : Nat) : (s.ledLand n k).workKept s := Block.workKept_of h (Block.ledLand_jobs ..) (Block.ledLand_reqs ..)

theorem Block.ledDrop_workKept (n k : Nat) : (s.ledDrop n k).workKept s := Block.workKept_of h (Block.ledDrop_jobs ..) (Block.ledDrop_reqs ..)

theorem Block.event_workKept (src ev : Nat) (d : List Word) : (s.event src ev d).workKept s :=
  Block.workKept_of h (Block.event_jobs ..) (Block.event_reqs ..)

theorem Block.jobAt_of_idle (j : Nat) : s.jobAt j = none := by
  unfold Block.jobAt
  rw [h]
  rfl

theorem Block.failJob_of_idle (j st count tag engine : Nat) : s.failJob j st count tag engine = s := by
  unfold Block.failJob
  rw [Block.jobAt_of_idle h]

theorem Block.charge_of_idle (j cls ns : Nat) : s.charge j cls ns = s := by
  unfold Block.charge
  rw [Block.jobAt_of_idle h]

/-! ### Firn units -/

theorem Block.setFu_workKept (u : Nat) (x : FirnUnit) : (s.setFu u x).workKept s := Block.workKept_of h rfl rfl

theorem Block.modFu_workKept (u : Nat) (f : FirnUnit → FirnUnit) : (s.modFu u f).workKept s := Block.setFu_workKept h _ _

theorem Block.firnReport_workKept (u : Nat) (e : FirnEntry) (st : Nat) : (s.firnReport u e st).workKept s := by
  unfold Block.firnReport
  extract_lets s1 s2
  have h1 : s1.workKept s := by
    unfold s1
    split
    · exact Block.bump_workKept h _ _
    · exact .refl h
  have h2 : s2.workKept s := by
    unfold s2
    split
    · exact (Block.bump_workKept h1.jobs _ _).trans h1
    · exact h1
  split
  · exact (Block.wr_workKept (Block.wf_workKept h2.jobs _ _ _ _).jobs _ _).trans ((Block.wf_workKept h2.jobs _ _ _ _).trans h2)
  · split
    · exact h2
    · rw [Block.failJob_of_idle h2.jobs]
      exact h2

theorem Block.firnEnd_workKept (u st : Nat) (d : Bool) : (s.firnEnd u st d).workKept s := by
  unfold Block.firnEnd
  split
  · exact .refl h
  · extract_lets x s1 s2 s3
    have h1 : s1.workKept s := Block.setFu_workKept h _ _
    have h2 : s2.workKept s := (Block.ledLand_workKept (Block.wf_workKept h1.jobs _ _ _ _).jobs _ _).trans
      ((Block.wf_workKept h1.jobs _ _ _ _).trans h1)
    have h3 : s3.workKept s := by
      unfold s3
      split
      · split
        · rw [Block.charge_of_idle h2.jobs]
          exact h2
        · exact h2
      · exact h2
    exact (Block.firnReport_workKept h3.jobs _ _ _).trans h3

theorem Block.firnRefuse_workKept (u st : Nat) : (s.firnRefuse u st).workKept s := by
  unfold Block.firnRefuse
  split
  next => exact .refl h
  next e rest _ =>
    have h1 := Block.modFu_workKept h u fun x => { x with queue := rest }
    have h2 := (Block.ledDrop_workKept h1.jobs (firnLedger u) 1).trans h1
    exact (Block.firnReport_workKept h2.jobs _ _ _).trans h2

theorem Block.firnAbort_workKept (u st : Nat) (d : Bool) : (s.firnAbort u st d).workKept s :=
  (Block.firnEnd_workKept h u st d).then fun _ hb => loop_workKept _ _ (fun _ _ hc => Block.firnRefuse_workKept hc _ _) hb

theorem Block.bankWrite_workKept (u : Nat) (b : BankUnit) : (s.bankWrite u b).workKept s := by
  unfold Block.bankWrite
  extract_lets p
  split
  · exact .refl h
  · exact Block.workKept_of h rfl rfl
  · exact Block.workKept_of h rfl rfl

theorem Block.firnDrain_workKept (u n : Nat) : (s.firnDrain u n).workKept s := by
  unfold Block.firnDrain
  extract_lets x s1
  have h1 : s1.workKept s := Block.each_workKept _ _ (fun _ _ hc => Block.bankWrite_workKept hc _ _) h
  exact (Block.modFu_workKept h1.jobs _ _).trans h1

theorem firnSetStopped_workKept (k : Nat) : (firnSetStoppedEffect k s).workKept s := by
  refine (Block.each_workKept (setUnits k) _ (fun b u hb => ?_) h).then fun _ hb => Block.wf_workKept hb _ _ _ _
  have h1 := Block.firnAbort_workKept hb u (ABORTED 0x6C) false
  have h2 := (Block.firnDrain_workKept h1.jobs u ((b.firnAbort u (ABORTED 0x6C) false).fu u).writeQ.length).trans h1
  dsimp only
  split
  · exact (h2.then fun _ hc => Block.wf_workKept hc _ _ _ _).then fun _ hc => Block.wb_workKept hc _ _ _
  · exact h2

theorem Block.stopFirnSet_workKept (k : Nat) : (s.stopFirnSet k).workKept s := by
  refine (Block.wf_workKept h _ _ _ _).then fun _ hb => Block.each_workKept _ _ (fun c u hc => ?_) hb
  have h1 := loop_workKept (c.fu u).queue.length (fun _ s => s.firnRefuse u (ABORTED 0x6C))
    (fun _ _ hd => Block.firnRefuse_workKept hd _ _) hc
  dsimp only
  split
  · exact (Block.firnEnd_workKept h1.jobs _ _ _).trans h1
  · exact h1

/-! ### Partitions -/

theorem Block.stopPart_workKept (p : Nat) (q : Part) : (s.stopPart p q).workKept s := by
  unfold Block.stopPart
  extract_lets s1 s2
  have h1 : s1.workKept s := Block.wf_workKept h _ _ _ _
  have h2 : s2.workKept s := by
    refine (Block.each_workKept _ _ (fun c n hc => Block.each_workKept _ _ (fun d g hd => ?_) hc) h1.jobs).trans h1
    split
    · exact .refl hd
    · exact Block.wf_workKept hd _ _ _ _
  refine (Block.each_workKept _ _ (fun c k hc => ?_) h2.jobs).trans h2
  split
  · exact .refl hc
  · exact Block.stopFirnSet_workKept hc _

theorem Block.replyLate_workKept (ch : Chan) (ws : List Word) : (s.replyLate ch ws).workKept s := by
  unfold Block.replyLate
  split
  · exact .refl h
  · exact Block.workKept_of h (Block.reply_jobs ..) (Block.reply_reqs ..)

theorem Block.semsLeave_workKept (l : Nat) (t : Tbl Sem) : (s.semsLeave l t).workKept s := Block.led1_workKept h _ _

theorem Block.cancelMove_workKept (p pid : Nat) : (s.cancelMove p pid).workKept s := by
  unfold Block.cancelMove
  split
  · exact .refl h
  · exact Block.workKept_of h (Block.ledLand_jobs ..) (Block.ledLand_reqs ..)

theorem Block.stopMove_workKept (p slot st : Nat) : (s.stopMove p slot st).workKept s := by
  unfold Block.stopMove
  split
  · exact .refl h
  · extract_lets s1 s2
    have h1 : s1.workKept s := Block.each_workKept _ _ (fun _ _ hb => Block.cancelMove_workKept hb _ _) h
    have h2 : s2.workKept s := Block.workKept.trans (t := s1) (Block.workKept_of h1.jobs rfl rfl) h1
    split
    · exact (Block.replyLate_workKept h2.jobs _ _).trans h2
    · exact h2

theorem Block.setGroups_workKept (q : Part) (st o : Nat) : (s.setGroups q st o).workKept s :=
  Block.each_workKept _ _ (fun _ _ hb => Block.each_workKept _ _ (fun _ _ hc =>
    (Block.wf_workKept hc _ _ _ _).then fun _ hd => Block.wf_workKept hd _ _ _ _) hb) h

theorem Block.dropLedgers_workKept (p : Nat) : (s.dropLedgers p).workKept s :=
  Block.each_workKept _ _ (fun _ _ hb => Block.workKept_of hb (Block.ledRenew_jobs ..) (Block.ledRenew_reqs ..)) h

theorem Block.dropHeld_workKept (f : Nat) : (s.dropHeld f).workKept s := by
  unfold Block.dropHeld
  extract_lets s1
  have h1 : s1.workKept s := by
    refine Block.each_workKept _ _ (fun b x hb => ?_) h
    split
    · exact Block.ledLand_workKept hb _ _
    · exact .refl hb
  exact (Block.workKept_of h1.jobs (Block.modFn_jobs ..) (Block.modFn_reqs ..)).trans h1

end

/-! ### A partition destroyed -/

/-- What of a partition ends before it goes. -/
def Block.partEnded (s : Block) (p : Nat) (q : Part) : Block :=
  let s := s.each q.setList fun s k => if s.setState k = 0 then s else firnSetStoppedEffect k (s.setSetState k 3)
  let s := s.each (s.sems.filter fun e => e.2.part == p) fun s e => s.semsLeave 0x1E0 [e]
  let s := s.each (keys (s.snowOf p).seqs) fun s k => s.stopMove p k (REFUSED 0xA0)
  let s := s.each ((s.snowOf p).arenas.filterMap fun e => e.2.leaving) fun s x => s.replyLate x.1 [x.2, 0]
  s.wf ERR_REFETCH 15 0 (s.fld ERR_REFETCH 15 0 - (s.err.refetches.filter fun r => r.part == p).length)

/-- The tables without what belongs to a partition. -/
def Block.partGone (s : Block) (p : Nat) : Block :=
  { s with
    sems := kfilter s.sems fun _ x => x.part != p, objs := kdel s.objs p, bundles := kfilter s.bundles fun _ b => b.part != p,
    snow := kdel s.snow p, serve := kdel s.serve p, adapters := kfilter s.adapters fun _ a => a.part != p, parts := kdel s.parts p,
    msc := (kmap s.msc fun _ l => l.filter fun x => x.part != p).filter fun e => !e.2.isEmpty,
    err := { s.err with refetches := s.err.refetches.filter fun r => r.part != p },
    esk := { s.esk with grants := s.esk.grants.filter fun g => g.part != p } }

/-- The registers and ledgers of a partition that is gone. -/
def Block.partCleared (s : Block) (p : Nat) (q : Part) : Block :=
  (((((s.setGroups q 0 0x3F).each q.dieList fun s d => s.wr (SRC_MSC_PCFG d p) (w32 0x10000)).dropLedgers p).wr (SCH_P_CFG p) 0).wr
    (SNW p 0) 0).wr (SCH_P_STATE p) 0

theorem Block.destroyPart_eq (s : Block) (p : Nat) (q : Part) : s.destroyPart p q = ((s.partEnded p q).partGone p).partCleared p q := rfl

theorem Block.partGone_same (s : Block) (p : Nat) : (s.partGone p).jobs = s.jobs ∧ (s.partGone p).reqs = s.reqs := ⟨rfl, rfl⟩

theorem Block.partEnded_workKept {s : Block} (h : s.jobs = []) (p : Nat) (q : Part) : (s.partEnded p q).workKept s := by
  unfold Block.partEnded
  extract_lets s1 s2 s3 s4
  have h1 : s1.workKept s := by
    refine Block.each_workKept _ _ (fun b k hb => ?_) h
    split
    · exact .refl hb
    · exact (firnSetStopped_workKept (Block.wf_workKept hb _ _ _ _).jobs k).trans (Block.wf_workKept hb _ _ _ _)
  have h2 : s2.workKept s := (Block.each_workKept _ _ (fun _ _ hb => Block.semsLeave_workKept hb _ _) h1.jobs).trans h1
  have h3 : s3.workKept s := (Block.each_workKept _ _ (fun _ _ hb => Block.stopMove_workKept hb _ _ _) h2.jobs).trans h2
  have h4 : s4.workKept s := (Block.each_workKept _ _ (fun _ _ hb => Block.replyLate_workKept hb _ _) h3.jobs).trans h3
  exact (Block.wf_workKept h4.jobs _ _ _ _).trans h4

theorem Block.partCleared_workKept {s : Block} (h : s.jobs = []) (p : Nat) (q : Part) : (s.partCleared p q).workKept s := by
  unfold Block.partCleared
  have h1 := Block.setGroups_workKept h q 0 0x3F
  have h2 := (Block.each_workKept q.dieList (fun s d => s.wr (SRC_MSC_PCFG d p) (w32 0x10000)) (fun _ _ hb => Block.wr_workKept hb _ _) h1.jobs).trans h1
  have h3 := (Block.dropLedgers_workKept h2.jobs p).trans h2
  have h4 := (Block.wr_workKept h3.jobs (SCH_P_CFG p) 0).trans h3
  have h5 := (Block.wr_workKept h4.jobs (SNW p 0) 0).trans h4
  exact (Block.wr_workKept h5.jobs (SCH_P_STATE p) 0).trans h5

theorem Block.destroyPart_workKept {s : Block} (h : s.jobs = []) (p : Nat) (q : Part) : (s.destroyPart p q).workKept s := by
  rw [s.destroyPart_eq]
  have h1 := Block.partEnded_workKept h p q
  obtain ⟨g1, g2⟩ := (s.partEnded p q).partGone_same p
  have h2 : ((s.partEnded p q).partGone p).workKept s := Block.workKept.trans (Block.workKept_of h1.jobs g1 g2) h1
  exact (Block.partCleared_workKept h2.jobs p q).trans h2

theorem Block.destroyAll_workKept {s : Block} (h : s.jobs = []) : s.destroyAll.workKept s := by
  unfold Block.destroyAll
  extract_lets s1 s2
  have h1 : s1.workKept s := Block.each_workKept _ _ (fun _ _ hb => Block.dropHeld_workKept hb _) h
  have h2 : s2.workKept s := (Block.each_workKept _ _ (fun b e hb =>
    (Block.destroyPart_workKept (Block.stopPart_workKept hb _ _).jobs _ _).trans (Block.stopPart_workKept hb _ _)) h1.jobs).trans h1
  exact (loop_workKept _ _ (fun _ _ hb => Block.wf_workKept hb _ _ _ _) h2.jobs).trans h2

/-! ### What a destruction leaves -/

/-- What work leaves as it is, without the tables of partitions and bundles. -/
def Still.apart (x : Still) : Still := { x with parts := [], bundles := [] }

theorem Block.partEnded_still (s : Block) (p : Nat) (q : Part) {b : Bool} : (s.partEnded p q).still b = s.still b := by
  unfold Block.partEnded
  extract_lets s1 s2 s3 s4
  have h1 : s1.still b = s.still b := by
    refine Block.each_still _ _ _ fun c k => ?_
    split <;> simp
  have h2 : s2.still b = s.still b := by simp [s2, h1]
  have h3 : s3.still b = s.still b := by simp [s3, h2]
  have h4 : s4.still b = s.still b := by simp [s4, h3]
  simp [h4]

theorem Block.partCleared_still (s : Block) (p : Nat) (q : Part) {b : Bool} : (s.partCleared p q).still b = s.still b := by
  simp [Block.partCleared]

theorem Block.partGone_still (s : Block) (p : Nat) {b : Bool} : ((s.partGone p).still b).apart = (s.still b).apart := by
  unfold Block.still Still.apart Block.partGone
  rfl

theorem Block.destroyPart_still (s : Block) (p : Nat) (q : Part) {b : Bool} : ((s.destroyPart p q).still b).apart = (s.still b).apart := by
  rw [s.destroyPart_eq, Block.partCleared_still, Block.partGone_still, Block.partEnded_still]

theorem Block.partGone_parts (s : Block) (p : Nat) : (s.partGone p).parts = kdel s.parts p := rfl

theorem Block.parts_of_still {s t : Block} {b : Bool} (h : t.still b = s.still b) : t.parts = s.parts := (congrArg Still.parts h :)

theorem Block.destroyPart_parts (s : Block) (p : Nat) (q : Part) : (s.destroyPart p q).parts = kdel s.parts p := by
  rw [s.destroyPart_eq, Block.parts_of_still (Block.partCleared_still _ p q (b := false)), Block.partGone_parts,
    Block.parts_of_still (s.partEnded_still p q (b := false))]

theorem Block.stopPart_parts (s : Block) (p : Nat) (q : Part) : (s.stopPart p q).parts = s.parts :=
  Block.parts_of_still (s.stopPart_still p q (b := false))

/-- A partition stopped and destroyed. -/
def Block.partOut (s : Block) (e : Nat × Part) : Block := (s.stopPart e.1 e.2).destroyPart e.1 e.2

theorem Block.partOut_still (s : Block) (e : Nat × Part) {b : Bool} : ((s.partOut e).still b).apart = (s.still b).apart :=
  (Block.destroyPart_still _ _ _).trans (congrArg Still.apart (s.stopPart_still e.1 e.2))

theorem Block.partOut_parts (s : Block) (e : Nat × Part) : (s.partOut e).parts = kdel s.parts e.1 :=
  (Block.destroyPart_parts _ _ _).trans (congrArg (kdel · e.1) (s.stopPart_parts e.1 e.2))

theorem Block.each_partOut_parts (l : List (Nat × Part)) (s : Block) (h : ∀ e ∈ s.parts, e.1 ∈ l.map (·.1)) :
    (s.each l Block.partOut).parts = [] := by
  unfold Block.each
  induction l generalizing s with
  | nil => exact List.eq_nil_iff_forall_not_mem.mpr fun e he => by simpa using h e he
  | cons x l ih =>
    refine ih (s.partOut x) fun e he => ?_
    rw [s.partOut_parts] at he
    obtain ⟨hm, hne⟩ := List.mem_filter.mp he
    exact (List.mem_cons.mp (h e hm)).resolve_left (by simpa using hne)

theorem Block.destroyAll_eq (s : Block) : s.destroyAll =
    loop 64 (fun f s => s.wf (SCH_C_CFG f) 5 0 0x3F) ((s.each (keys s.fns) fun s f => s.dropHeld f).each
      (s.each (keys s.fns) fun s f => s.dropHeld f).parts Block.partOut) := rfl

/-- Every partition is gone, and what no destruction touches stands. -/
theorem Block.destroyAll_destroyed (s : Block) : s.destroyAll.parts = [] ∧ ∀ b, (s.destroyAll.still b).apart = (s.still b).apart := by
  have h1 : ∀ b, (s.each (keys s.fns) fun s f => s.dropHeld f).still b = s.still b := fun b => by simp
  rw [s.destroyAll_eq]
  obtain ⟨t, ht⟩ : ∃ t, t = s.each (keys s.fns) fun s f => s.dropHeld f := ⟨_, rfl⟩
  rw [← ht] at h1 ⊢
  have h2 := Block.each_partOut_parts t.parts t fun e he => List.mem_map.mpr ⟨e, he, rfl⟩
  have h3 := fun b => Block.each_keeps (fun c : Block => (c.still b).apart) t t.parts Block.partOut fun c e _ => c.partOut_still e
  obtain ⟨u, hu⟩ : ∃ u, u = t.each t.parts Block.partOut := ⟨_, rfl⟩
  rw [← hu] at h2 h3 ⊢
  have h4 : ∀ b, (loop 64 (fun f s => s.wf (SCH_C_CFG f) 5 0 0x3F) u).still b = u.still b := fun b => by simp
  obtain ⟨v, hv⟩ : ∃ v, v = loop 64 (fun f s => s.wf (SCH_C_CFG f) 5 0 0x3F) u := ⟨_, rfl⟩
  rw [← hv] at h4 ⊢
  exact ⟨(Block.parts_of_still (h4 false)).trans h2, fun b => (congrArg Still.apart (h4 b)).trans ((h3 b).trans (congrArg Still.apart (h1 b)))⟩

end Sys2Proof.Machine
end

section
/-! Every job and every request ended (R330, R347, R484). -/

namespace Sys2Proof.Machine

/-! ### What leaves the table of jobs -/

theorem Block.each_jobs {α : Type} (s : Block) (l : List α) (f : Block → α → Block) (h : ∀ s x, (f s x).jobs = s.jobs) :
    (s.each l f).jobs = s.jobs := Block.each_keeps Block.jobs s l f fun s x _ => h s x

@[simp] theorem Block.modCl_jobs (s : Block) (c : Nat) (f : Cluster → Cluster) : (s.modCl c f).jobs = s.jobs := rfl

@[simp] theorem Block.modObj_jobs (s : Block) (p k : Nat) (f : Obj → Obj) : (s.modObj p k f).jobs = s.jobs := rfl

@[simp] theorem Block.setObjects_jobs (s : Block) (p : Nat) (x : Objects) : (s.setObjects p x).jobs = s.jobs := rfl

@[simp] theorem Block.countEnded_jobs (s : Block) (f cls : Nat) : (s.countEnded f cls).jobs = s.jobs := Block.bump_jobs ..

@[simp] theorem Block.countJobs_jobs (s : Block) (p : Nat) : (s.countJobs p).jobs = s.jobs := by
  simp [Block.countJobs]

@[simp] theorem Block.semsLeave_jobs (s : Block) (l : Nat) (t : Tbl Sem) : (s.semsLeave l t).jobs = s.jobs := Block.led1_jobs ..

@[simp] theorem Block.freeCluster_jobs (s : Block) (c : Nat) : (s.freeCluster c).jobs = s.jobs := by
  unfold Block.freeCluster
  extract_lets t
  refine (Block.modCl_jobs ..).trans (loop_keeps Block.jobs _ (fun i b => ?_) 8 s)
  dsimp only
  split <;> simp

@[simp] theorem Block.setStepStatus_jobs (s : Block) (p m st : Nat) (ns : List Nat) : (s.setStepStatus p m st ns).jobs = s.jobs := by
  unfold Block.setStepStatus
  split <;> rfl

@[simp] theorem Block.hostPut_jobs' (s : Block) (a : Nat) (bs : List Byte) : (s.hostPut a bs).jobs = s.jobs := by
  unfold Block.hostPut
  split <;> rfl

@[simp] theorem Block.hostWrite_jobs (s : Block) (f a : Nat) (bs : List Byte) : (s.hostWrite f a bs).jobs = s.jobs := by
  unfold Block.hostWrite
  split <;> simp

@[simp] theorem Block.ringPut_jobs (s : Block) (f r : Nat) (ws : List Word) : (s.ringPut f r ws).jobs = s.jobs := by
  unfold Block.ringPut
  split
  · rfl
  · extract_lets s1 x y s2
    have h2 : s2.jobs = s.jobs := by simp [s2, s1]
    split
    · exact (Block.msix_jobs ..).trans h2
    · exact h2

@[simp] theorem Block.ringEntry_jobs (s : Block) (f r : Nat) (ws : List Word) : (s.ringEntry f r ws).jobs = s.jobs := by
  unfold Block.ringEntry
  (repeat' split) <;> simp

@[simp] theorem Block.framesBack_jobs (s : Block) (p : Nat) (o : Obj) : (s.framesBack p o).jobs = s.jobs := by
  unfold Block.framesBack
  extract_lets mv
  have h : ∀ b t, (mv b t).jobs = b.jobs := fun b t => by
    unfold mv
    split <;> simp
  rw [h, h]

@[simp] theorem Block.destroy_jobs (s : Block) (p k : Nat) : (s.destroy p k).jobs = s.jobs := by
  unfold Block.destroy
  split
  · rfl
  · exact Block.framesBack_jobs ..

@[simp] theorem Block.dropPending_jobs (s : Block) (p k : Nat) : (s.dropPending p k).jobs = s.jobs := rfl

@[simp] theorem Block.sweepDying_jobs (s : Block) (p : Nat) : (s.sweepDying p).jobs = s.jobs := by
  refine Block.each_jobs _ _ _ fun b e => ?_
  dsimp only
  split <;> simp

@[simp] theorem Block.performFirst_jobs (s : Block) (c p k : Nat) (w : PendWrite) : (s.performFirst c p k w).jobs = s.jobs := by
  unfold Block.performFirst
  split <;> simp

@[simp] theorem Block.releaseAll_jobs (s : Block) (c : Nat) : (s.releaseAll c).jobs = s.jobs :=
  Block.each_jobs _ _ _ fun _ _ => Block.performFirst_jobs ..

/-! ### The numbers of jobs -/

/-- The numbers of the jobs. -/
def Block.jobSet (s : Block) : Nat → Prop := fun j => j ∈ keys s.jobs

theorem Block.jobSet_of_jobs {s t : Block} (h : t.jobs = s.jobs) : t.jobSet = s.jobSet := by
  unfold Block.jobSet
  rw [h]

theorem mem_keys_kput {α : Type} (t : Tbl α) (i j : Nat) (x : α) : j ∈ keys (kput t i x) ↔ j = i ∨ j ∈ keys t := by
  induction t with
  | nil => simp [kput, keys]
  | cons e t ih =>
    obtain ⟨k, v⟩ := e
    unfold kput
    split
    next h =>
      subst h
      simp [keys]
    next h =>
      split
      · simp [keys]
      · have h1 : j ∈ keys ((k, v) :: kput t i x) ↔ j = k ∨ j ∈ keys (kput t i x) := by simp [keys]
        have h2 : j ∈ keys ((k, v) :: t) ↔ j = k ∨ j ∈ keys t := by simp [keys]
        rw [h1, h2, ih]
        tauto

theorem mem_keys_iff {α : Type} (t : Tbl α) (i : Nat) : i ∈ keys t ↔ kget t i ≠ none := by
  induction t with
  | nil => simp [keys, kget]
  | cons e t ih =>
    obtain ⟨k, v⟩ := e
    have h1 : i ∈ keys ((k, v) :: t) ↔ i = k ∨ i ∈ keys t := by simp [keys]
    rw [h1, ih, kget_cons]
    split
    next h => simp [h]
    next h => simp [h]

theorem mem_keys_kmod {α : Type} (t : Tbl α) (i j : Nat) (f : α → α) : j ∈ keys (kmod t i f) ↔ j ∈ keys t := by
  unfold kmod
  split
  next v h =>
    rw [mem_keys_kput]
    refine ⟨fun hj => hj.elim (fun hi => ?_) id, Or.inr⟩
    rw [hi, mem_keys_iff, h]
    exact Option.some_ne_none v
  next => rfl

theorem mem_keys_kdel {α : Type} (t : Tbl α) (i j : Nat) : j ∈ keys (kdel t i) ↔ j ∈ keys t ∧ j ≠ i := by
  unfold kdel keys
  simp only [List.mem_map, List.mem_filter, bne_iff_ne]
  constructor
  · rintro ⟨e, ⟨he, hne⟩, rfl⟩
    exact ⟨⟨e, he, rfl⟩, hne⟩
  · rintro ⟨⟨e, he, rfl⟩, hne⟩
    exact ⟨e, ⟨he, hne⟩, rfl⟩

theorem Block.modJob_jobSet (s : Block) (j : Nat) (f : Job → Job) : (s.modJob j f).jobSet = s.jobSet :=
  funext fun i => propext (mem_keys_kmod s.jobs j i f)

theorem Block.each_jobSet {α : Type} (s : Block) (l : List α) (f : Block → α → Block) (h : ∀ s x, (f s x).jobSet = s.jobSet) :
    (s.each l f).jobSet = s.jobSet := Block.each_keeps Block.jobSet s l f fun s x _ => h s x

theorem Block.modSem_jobSet (s : Block) (r : SemRef) (f : Sem → Sem) : (s.modSem r f).jobSet = s.jobSet := by
  unfold Block.modSem
  split
  · rfl
  · exact Block.modJob_jobSet ..
  · rfl

theorem Block.discardQueues_jobSet (s : Block) (c : Nat) : (s.discardQueues c).jobSet = s.jobSet := by
  unfold Block.discardQueues
  extract_lets k all idle waits s1 s2 drop s3
  have h3 : s3.jobSet = s.jobSet := Block.jobSet_of_jobs (by
    have h1 : s1.jobs = s.jobs := rfl
    have h2 : s2.jobs = s1.jobs := (Block.ledLand_jobs ..).trans (Block.ledDrop_jobs ..)
    have h' : s3.jobs = s2.jobs := rfl
    exact h'.trans (h2.trans h1))
  split
  · exact (Block.modJob_jobSet ..).trans h3
  · exact h3

theorem Block.dropHolds_jobSet (s : Block) (j : Nat) : (s.dropHolds j).jobSet = s.jobSet :=
  Block.each_jobSet _ _ _ fun _ _ => (Block.jobSet_of_jobs (Block.ledDrop_jobs ..)).trans (Block.modSem_jobSet ..)

theorem Block.jobFail_jobSet (s : Block) (j st count tag engine : Nat) : (s.jobFail j st count tag engine).jobSet = s.jobSet := by
  unfold Block.jobFail
  split
  · rfl
  · split
    · rfl
    · extract_lets placed s1
      have h1 : s1.jobSet = s.jobSet := Block.modJob_jobSet ..
      split
      · exact (Block.each_jobSet _ _ _ fun b c => (Block.jobSet_of_jobs (Block.modCl_jobs ..)).trans (Block.discardQueues_jobSet ..)).trans h1
      · exact h1

/-- The numbers of jobs without one. -/
def without (p : Nat → Prop) (j : Nat) : Nat → Prop := fun i => p i ∧ i ≠ j

theorem without_of_not {p : Nat → Prop} {j : Nat} (h : ¬ p j) : without p j = p :=
  funext fun _ => propext ⟨And.left, fun hi => ⟨hi, fun he => h (he ▸ hi)⟩⟩

theorem Block.jobAt_none_iff (s : Block) (j : Nat) : s.jobAt j = none ↔ ¬ s.jobSet j := by
  unfold Block.jobAt Block.jobSet
  rw [mem_keys_iff, not_not]

theorem Block.finishJob_jobSet (s : Block) (j : Nat) : (s.finishJob j).jobSet = without s.jobSet j := by
  unfold Block.finishJob
  split
  next h => exact (without_of_not ((s.jobAt_none_iff j).mp h)).symm
  next J _ =>
    split
    extract_lets st' s1 s2 s3 s4 s5 s6 s7 s8
    have h1 : s1.jobSet = s.jobSet := Block.each_jobSet _ _ _ fun b c => by
      split
      · exact Block.jobSet_of_jobs (Block.semsLeave_jobs ..)
      · rfl
    have h2 : s2.jobSet = s1.jobSet := Block.jobSet_of_jobs ((Block.led1_jobs ..).trans (Block.semsLeave_jobs ..))
    have h3 : s3.jobSet = s2.jobSet := Block.dropHolds_jobSet ..
    have h4 : s4.jobSet = s3.jobSet := by
      unfold s4
      split
      · exact Block.each_jobSet _ _ _ fun b c => Block.jobSet_of_jobs (Block.freeCluster_jobs ..)
      · rfl
    have h5 : s5.jobSet = without s4.jobSet j := funext fun i => propext (mem_keys_kdel s4.jobs j i)
    have h6 : s6.jobs = s5.jobs := Block.countEnded_jobs ..
    have h7 : s7.jobs = s6.jobs := by
      unfold s7
      split
      · rfl
      · exact Block.hostWrite_jobs ..
    have h8 : s8.jobs = s5.jobs := by
      unfold s8
      split
      · exact Block.setStepStatus_jobs ..
      · split
        · exact h6
        · exact (Block.ringEntry_jobs ..).trans (h7.trans h6)
    have h9 : s4.jobSet = s.jobSet := h4.trans (h3.trans (h2.trans h1))
    refine (Block.jobSet_of_jobs ((Block.sweepDying_jobs ..).trans ((Block.countJobs_jobs ..).trans h8))).trans (h5.trans ?_)
    rw [h9]

theorem Block.failJob_jobSet (s : Block) (j st count tag engine : Nat) :
    (s.failJob j st count tag engine).jobSet = s.jobSet ∨ (s.failJob j st count tag engine).jobSet = without s.jobSet j := by
  unfold Block.failJob
  split
  · exact Or.inl rfl
  · split
    · exact Or.inl (Block.jobFail_jobSet ..)
    · refine Or.inr ((Block.finishJob_jobSet ..).trans ?_)
      rw [Block.jobFail_jobSet, Block.jobSet_of_jobs (Block.semsLeave_jobs ..)]

theorem Block.killJob_jobSet (s : Block) (j st : Nat) (silent : Bool) : (s.killJob j st silent).jobSet = without s.jobSet j := by
  unfold Block.killJob
  extract_lets s1 s2
  have h1 : s1.jobSet = s.jobSet := by
    unfold s1
    split
    · exact Block.modJob_jobSet ..
    · rfl
  have h2 : s2.jobSet = s.jobSet ∨ s2.jobSet = without s.jobSet j := by
    rw [← h1]
    exact Block.failJob_jobSet ..
  have h3 : without s2.jobSet j = without s.jobSet j := by
    obtain h | h := h2
    · rw [h]
    · rw [h]
      exact without_of_not fun hj => hj.2 rfl
  split
  next h =>
    rw [← h3]
    exact (without_of_not ((s2.jobAt_none_iff j).mp h)).symm
  next J _ =>
    refine (Block.finishJob_jobSet ..).trans (Eq.trans ?_ h3)
    rw [Block.each_jobSet _ _ _ fun b c => Block.jobSet_of_jobs ((Block.releaseAll_jobs ..).trans ((Block.ledLand_jobs ..).trans (Block.modCl_jobs ..)))]

theorem Block.jobs_of_jobSet {s : Block} (h : ∀ j, ¬ s.jobSet j) : s.jobs = [] :=
  List.eq_nil_iff_forall_not_mem.mpr fun e he => h e.1 (List.mem_map.mpr ⟨e, he, rfl⟩)

theorem Block.each_killJob (l : List Nat) (st : Nat) (silent : Bool) (s : Block) (h : ∀ j, s.jobSet j → j ∈ l) :
    (s.each l fun s j => s.killJob j st silent).jobs = [] := by
  unfold Block.each
  induction l generalizing s with
  | nil => exact Block.jobs_of_jobSet fun j hj => by simpa using h j hj
  | cons x l ih =>
    refine ih (s.killJob x st silent) fun j hj => ?_
    rw [s.killJob_jobSet] at hj
    exact (List.mem_cons.mp (h j hj.1)).resolve_left hj.2

theorem Block.killJobs_jobs (s : Block) (st : Nat) (silent : Bool) : (s.killJobs st silent).jobs = [] :=
  Block.each_killJob (keys s.jobs) st silent s fun _ hj => hj

/-! ### Requests -/

/-- The requests that live. -/
def Block.liveSet (s : Block) : Nat → Prop := fun k => (s.req k).any (·.live) = true

theorem Block.liveSet_of_reqs {s t : Block} (h : t.reqs = s.reqs) : t.liveSet = s.liveSet := by
  unfold Block.liveSet Block.req
  rw [h]

theorem Block.countWait_reqs (s : Block) (f c n : Nat) : (s.countWait f c n).reqs = s.reqs := by
  unfold Block.countWait
  split
  · exact Block.bumpPair_reqs ..
  · rfl

theorem Block.reqState_ended_liveSet (s : Block) (k : Nat) : (s.reqState k .ended).liveSet = without s.liveSet k := by
  unfold Block.reqState
  split
  next h => exact (without_of_not fun hk => by simp [Block.liveSet, h] at hk).symm
  next r h =>
    split
    next he =>
      refine (without_of_not fun hk => ?_).symm
      simp [Block.liveSet, h, Req.live, he] at hk
    next he =>
      extract_lets now s1 s2
      have h2 : s2.reqs = s.reqs := by
        unfold s2 s1
        rw [if_neg (by decide)]
        split
        · exact Block.countWait_reqs ..
        · rfl
      funext j
      unfold Block.liveSet Block.req Block.modReq without
      rw [h2]
      dsimp only
      rw [kget_kmod]
      split
      next hj =>
        subst hj
        rw [show kget s.reqs j = some r from h]
        simp [Req.live]
      next hj => simp [hj]

theorem Block.each_endReqs (l : List (Nat × Req)) (s : Block) (h : ∀ k, s.liveSet k → k ∈ l.map (·.1)) :
    ∀ k, ¬ (s.each l fun s e => (s.reqState e.1 .ended).countEnded e.2.fn e.2.cls).liveSet k := by
  unfold Block.each
  induction l generalizing s with
  | nil => exact fun k hk => by simpa using h k hk
  | cons x l ih =>
    refine ih _ fun k hk => ?_
    rw [Block.liveSet_of_reqs (show ((s.reqState x.1 .ended).countEnded x.2.fn x.2.cls).reqs = _ from Block.bump_reqs ..),
      s.reqState_ended_liveSet] at hk
    exact (List.mem_cons.mp (h k hk.1)).resolve_left hk.2

theorem Block.killReqs_liveSet (s : Block) (k : Nat) : ¬ s.killReqs.liveSet k := by
  refine Block.each_endReqs _ s (fun k hk => ?_) k
  unfold Block.liveSet at hk
  cases hr : s.req k with
  | none => simp [hr] at hk
  | some r =>
    rw [hr] at hk
    exact List.mem_map.mpr ⟨(k, r), List.mem_filter.mpr ⟨mem_of_kget hr, hk⟩, rfl⟩

theorem Block.all_not_live {s : Block} {k : Nat} (h : ¬ s.liveSet k) : (s.req k).all (fun q => !q.live) = true := by
  unfold Block.liveSet at h
  cases hr : s.req k with
  | none => rfl
  | some r =>
    rw [hr] at h
    simpa using h

theorem Block.reqState_jobs (s : Block) (k : Nat) (st : ReqState) : (s.reqState k st).jobs = s.jobs := by
  unfold Block.reqState
  split
  · rfl
  · split
    · rfl
    · extract_lets now s1 s2
      have h1 : s1.jobs = s.jobs := by
        unfold s1 Block.countWait
        split
        · split
          · exact Block.bumpPair_jobs ..
          · rfl
        · rfl
      have h2 : s2.jobs = s1.jobs := by
        unfold s2 Block.countPreempt
        split
        · split
          · exact Block.bump_jobs ..
          · rfl
        · rfl
      exact h2.trans h1

theorem Block.killReqs_jobs (s : Block) : s.killReqs.jobs = s.jobs :=
  Block.each_jobs _ _ _ fun _ _ => (Block.countEnded_jobs ..).trans (Block.reqState_jobs ..)

theorem Block.progress_jobs (s : Block) (k n st m : Nat) : (s.progress k n st m).jobs = s.jobs := by
  unfold Block.progress
  split
  · rfl
  · exact Block.ringEntry_jobs ..

theorem Block.endReq_jobs (s : Block) (k n st m : Nat) : (s.endReq k n st m).jobs = s.jobs := by
  unfold Block.endReq
  split
  · rfl
  · split
    · rfl
    · exact (Block.countEnded_jobs ..).trans ((Block.reqState_jobs ..).trans (Block.progress_jobs ..))

end Sys2Proof.Machine
end

section
/-! Return to the maker, scrapping and debug (R484, R487 to R492). -/

namespace Sys2Proof.Machine

/-! ### Blobs judged -/

/-- A block with other nonces. -/
def Block.withNonces (s : Block) (x : Tbl (List Byte)) : Block := { s with trust := { s.trust with nonces := x } }

theorem Block.withNonces_same (s : Block) (x : Tbl (List Byte)) :
    (s.withNonces x).trust.fuses = s.trust.fuses ∧ (s.withNonces x).lcState = s.lcState := ⟨rfl, rfl⟩

theorem Block.judge_withNonces (s : Block) (ch : Chan) (a p : Nat) (d : List Byte) (ok : Bool) : ∃ x, (s.judge ch a p d ok).2 = s.withNonces x := by
  unfold Block.judge
  split
  · exact ⟨s.trust.nonces, rfl⟩
  · exact ⟨_, rfl⟩

theorem Block.judge_without {s : Block} {ch : Chan} (h : kget s.trust.nonces (pairIndex ch) = none) (a p : Nat) (d : List Byte) (ok : Bool) :
    s.judge ch a p d ok = (some 0x07, s) := by
  unfold Block.judge
  rw [h]

/-- An authorization refused, of a block on which a nonce may be used up. -/
theorem exec_authRefused {s : State} {ch : Chan} {type ty d : Nat} {h : Block → List Word → Answer} {x : Tbl (List Byte)}
    (hd : s.blk.delivers ch type) (hb : s.blk.backFree ch)
    (ha : h (s.blk.msgTaken ch) (s.blk.msgWords ch) = ((s.blk.msgTaken ch).withNonces x).authRefused ty d) :
    ∃ t : State, onBlk (fun b => b.message ch type h) s = .next t ∧ t.pending = s.pending ∧ t.blk.repliedTo s.blk ch (REFUSED d) ∧
      t.blk.trust = ((s.blk.msgTaken ch).withNonces x).trust ∧ t.blk.rg MOR_LC = s.blk.rg MOR_LC ∧
      { t.blk.mailBack s.blk with trust := s.blk.trust } = s.blk := by
  have hm := Block.mailBack_msgTaken s.blk s.blk ch
  have htr := s.blk.msgTaken_trust ch
  have hpm := s.blk.msgTaken_perm ch
  have hlc := s.blk.rg_msgTaken_offMail ch (a := MOR_LC) (by decide) (by decide) (by decide)
  obtain ⟨m, hmd⟩ : ∃ m, m = s.blk.msgTaken ch := ⟨_, rfl⟩
  rw [← hmd] at hm htr hpm hlc ha ⊢
  have hw : (m.withNonces x).regs = m.regs ∧ (m.withNonces x).mbx = m.mbx ∧ (m.withNonces x).trust.fuses = m.trust.fuses ∧
      (m.withNonces x).ice.perm = m.ice.perm ∧ { (m.withNonces x).mailBack s.blk with trust := s.blk.trust } =
        { m.mailBack s.blk with trust := s.blk.trust } := ⟨rfl, rfl, rfl, rfl, rfl⟩
  obtain ⟨b, hbd⟩ : ∃ b, b = m.withNonces x := ⟨_, rfl⟩
  rw [← hbd] at hw ha ⊢
  obtain ⟨w1, w2, w3, w4, w5⟩ := hw
  rw [hmd] at ha w1 w2
  obtain ⟨t, hx, hp, hr, -, ht⟩ := exec_answer hd hb ha
    ((Block.rg_event _ _ _ _ (chBack_ne_ice ch _ (by omega))).trans (Block.rg_of_regs w1 _)) ((Block.event_mbx ..).trans w2)
    ((congrArg Trust.fuses (Block.event_trust ..)).trans (w3.trans (congrArg Trust.fuses htr))) ((Block.event_perm ..).trans (w4.trans hpm))
  have ht' : t.blk = (b.event (srcCore 0) 0x0803 [w32 ty, w32 d]).reply ch
      (mreg (s.blk.msgWords ch) 0 :: w32 (REFUSED d) :: []) := ht
  refine ⟨t, hx, hp, hr, ?_, ?_, ?_⟩
  · rw [ht', Block.reply_trust, Block.event_trust]
  · rw [ht', Block.rg_reply_offMail _ _ _ (by decide) (by decide) (by decide), Block.rg_event _ _ _ _ (by decide)]
    exact (Block.rg_of_regs (w1.trans (congrArg Block.regs hmd.symm)) _).trans hlc
  · have hmb : t.blk.mailBack s.blk = b.mailBack s.blk := by
      rw [ht']
      simp
    exact (congrArg (fun y : Block => { y with trust := s.blk.trust }) hmb :).trans (w5.trans
      (congrArg (fun y : Block => { y with trust := s.blk.trust }) hm :))

/-! ### All work ends -/

theorem Block.endReqs_still (s : Block) (l : List (Nat × Req)) {b : Bool} :
    (s.each l fun s e => s.endReq e.1 0 (ABORTED 0xD2) 0).still b = s.still b := by simp

theorem Block.endReqs_jobs (s : Block) (l : List (Nat × Req)) :
    (s.each l fun s e => s.endReq e.1 0 (ABORTED 0xD2) 0).jobs = s.jobs := Block.each_jobs _ _ _ fun _ _ => Block.endReq_jobs ..

/-- The ends of jobs and requests that precede a destruction of every partition. -/
def Block.workEnded (s : Block) : Block :=
  (s.killJobs (ABORTED 0xD2) false).each ((s.killJobs (ABORTED 0xD2) false).reqs.filter fun e => e.2.live) fun s e =>
    s.endReq e.1 0 (ABORTED 0xD2) 0

theorem Block.endEverything_eq (s : Block) : s.endEverything = s.workEnded.destroyAll := rfl

theorem Block.endEverything_ended (s : Block) : s.endEverything.jobs = [] ∧ s.endEverything.parts = [] ∧
    ∀ b, (s.endEverything.still b).apart = (s.still b).apart := by
  rw [s.endEverything_eq]
  have h1 : s.workEnded.jobs = [] := (Block.endReqs_jobs ..).trans (s.killJobs_jobs _ _)
  have h2 : ∀ b, s.workEnded.still b = s.still b := fun b => (Block.endReqs_still ..).trans (Block.killJobs_still ..)
  obtain ⟨w, hw⟩ : ∃ w, w = s.workEnded := ⟨_, rfl⟩
  rw [← hw] at h1 h2 ⊢
  obtain ⟨h3, h4⟩ := w.destroyAll_destroyed
  exact ⟨(Block.destroyAll_workKept h1).jobs, h3, fun b => (h4 b).trans (congrArg Still.apart (h2 b))⟩

/-! ### Keys erased -/

theorem Block.stopPort_frame (s : Block) (p : Nat) : { s.stopPort p with regs := s.regs, esk := s.esk } = s ∧
    ∀ a, a ≠ ESK_STATE p → (s.stopPort p).rg a = s.rg a := by
  unfold Block.stopPort
  split
  · exact ⟨rfl, fun _ _ => rfl⟩
  · split
    · exact ⟨rfl, fun _ _ => rfl⟩
    · have h1 : { s.wf (ESK_STATE p) 1 0 3 with regs := s.regs } = s := by simp
      have h2 : ∀ a, a ≠ ESK_STATE p → (s.wf (ESK_STATE p) 1 0 3).rg a = s.rg a := fun a ha => Block.rg_wf_other _ _ _ _ ha
      obtain ⟨b, hb⟩ : ∃ b, b = s.wf (ESK_STATE p) 1 0 3 := ⟨_, rfl⟩
      rw [← hb] at h1 h2 ⊢
      exact ⟨(congrArg (fun x : Block => { x with esk := s.esk }) h1 :), h2⟩

/-- Every key of a channel forgotten. -/
def Block.keyless (s : Block) : Block := { s with trust := { s.trust with keys := [] } }

/-- The encrypted ports stopped, and no stream left. -/
def Block.portsStopped (s : Block) (l : List Nat) : Block := (s.each l fun s p => s.stopPort p).wf MOR_HOST_LINK 12 9 0

theorem Block.eraseKeys_eq (s : Block) : s.eraseKeys = ((s.encPorts.length, s.ideStreams), s.keyless.portsStopped s.encPorts) := rfl

theorem Block.portsStopped_frame (l : List Nat) (s : Block) : { s.portsStopped l with regs := s.regs, esk := s.esk } = s ∧
    ∀ a, a ≠ MOR_HOST_LINK → (∀ p ∈ l, a ≠ ESK_STATE p) → (s.portsStopped l).rg a = s.rg a := by
  have h : ∀ l (s : Block), { s.each l (fun s p => s.stopPort p) with regs := s.regs, esk := s.esk } = s ∧
      ∀ a, (∀ p ∈ l, a ≠ ESK_STATE p) → (s.each l fun s p => s.stopPort p).rg a = s.rg a := by
    intro l
    unfold Block.each
    induction l with
    | nil => exact fun s => ⟨rfl, fun _ _ => rfl⟩
    | cons p l ih =>
      intro s
      obtain ⟨i1, i2⟩ := ih (s.stopPort p)
      obtain ⟨j1, j2⟩ := s.stopPort_frame p
      exact ⟨(congrArg (fun b : Block => { b with regs := s.regs, esk := s.esk }) i1 :).trans j1, fun a ha =>
        (i2 a fun q hq => ha q (List.mem_cons_of_mem _ hq)).trans (j2 a (ha p List.mem_cons_self))⟩
  obtain ⟨h1, h2⟩ := h l s
  unfold Block.portsStopped
  obtain ⟨b, hb⟩ : ∃ b, b = s.each l fun s p => s.stopPort p := ⟨_, rfl⟩
  rw [← hb] at h1 h2 ⊢
  have e : { b.wf MOR_HOST_LINK 12 9 0 with regs := b.regs } = b := by simp
  exact ⟨(congrArg (fun x : Block => { x with regs := s.regs, esk := s.esk }) e :).trans h1, fun a ha hl =>
    (Block.rg_wf_other _ _ _ _ ha).trans (h2 a hl)⟩

/-! ### Retirement -/

/-- The fuses of a return or a scrap blown, and its records made. -/
def Block.retired (s : Block) (ch : Chan) (new : Nat) (f : Fuses → Fuses) (k n : Nat) : Block :=
  ((s.blow f).event (srcCore 0) 0x0804 [w32 k, w32 n]).lcEvent new ch

theorem Block.retire_eq (s : Block) (ch : Chan) (new : Nat) (f : Fuses → Fuses) : s.retire ch new f =
    (s.endEverything.keyless.portsStopped s.endEverything.encPorts).retired ch new f s.endEverything.encPorts.length
      s.endEverything.ideStreams := rfl

/-- What a retirement leaves. -/
structure Block.afterRetire (t s : Block) (f : Fuses → Fuses) : Prop where
  fuses : t.trust.fuses = f s.trust.fuses
  keys : t.trust.keys = []
  jobs : t.jobs = []
  parts : t.parts = []
  state : t.lcState = s.lcState

theorem Block.blow_spec (s : Block) (f : Fuses → Fuses) : (s.blow f).trust = { s.trust with fuses := f s.trust.fuses } ∧
    { s.blow f with regs := s.regs, trust := s.trust } = s ∧ (s.blow f).lcState = s.lcState := by
  refine ⟨by simp [Block.blow, Block.setLc], by simp [Block.blow, Block.setLc], ?_⟩
  exact (Block.setLc_fields s.lcState_lt).1

theorem Block.retired_frame (s : Block) (ch : Chan) (new : Nat) (f : Fuses → Fuses) (k n : Nat) :
    (s.retired ch new f k n).trust = { s.trust with fuses := f s.trust.fuses } ∧ (s.retired ch new f k n).jobs = s.jobs ∧
      (s.retired ch new f k n).parts = s.parts ∧ (s.retired ch new f k n).mbx = s.mbx ∧ (s.retired ch new f k n).lcState = s.lcState ∧
      ∀ a, a ≠ MOR_LC → a ≠ ICE_DROPPED → (s.retired ch new f k n).rg a = s.rg a := by
  obtain ⟨b1, b2, b3⟩ := s.blow_spec f
  have hg : ∀ a, a ≠ MOR_LC → (s.blow f).rg a = s.rg a := fun a ha => s.rg_blow f ha
  unfold Block.retired Block.lcEvent
  obtain ⟨b, hb⟩ : ∃ b, b = s.blow f := ⟨_, rfl⟩
  rw [← hb] at b1 b2 b3 hg ⊢
  obtain ⟨c, hc⟩ : ∃ c, c = b.event (srcCore 0) 0x0804 [w32 k, w32 n] := ⟨_, rfl⟩
  have hcr : ∀ a, a ≠ ICE_DROPPED → c.rg a = b.rg a := fun a ha => by
    rw [hc]
    exact Block.rg_event _ _ _ _ ha
  have hcf : { c with regs := b.regs, ice := b.ice } = b := by
    rw [hc]
    simp
  rw [← hc]
  obtain ⟨d, hd⟩ : ∃ d, d = [w32 c.lcState, w32 new, w32 (chCode ch)] := ⟨_, rfl⟩
  rw [← hd]
  refine ⟨(Block.event_trust ..).trans ((congrArg Block.trust hcf :).trans b1), (Block.event_jobs ..).trans ((congrArg Block.jobs hcf :).trans (congrArg Block.jobs b2 :)),
    (Block.event_parts ..).trans ((congrArg Block.parts hcf :).trans (congrArg Block.parts b2 :)),
    (Block.event_mbx ..).trans ((congrArg Block.mbx hcf :).trans (congrArg Block.mbx b2 :)), ?_, fun a ha hi =>
      (Block.rg_event _ _ _ _ hi).trans ((hcr a hi).trans (hg a ha))⟩
  exact (congrArg (fun w : Word => w.fld 2 0) ((Block.rg_event _ _ _ _ (by decide)).trans (hcr MOR_LC (by decide)))).trans b3

theorem Block.retire_after (s : Block) (ch : Chan) (new : Nat) (f : Fuses → Fuses) : (s.retire ch new f).afterRetire s f := by
  rw [s.retire_eq]
  obtain ⟨e1, e2, e3⟩ := s.endEverything_ended
  obtain ⟨e, he⟩ : ∃ e, e = s.endEverything := ⟨_, rfl⟩
  rw [← he] at e1 e2 e3 ⊢
  have htr : e.trust = s.trust := (congrArg Still.trust (e3 false) :)
  have hlc : e.rg MOR_LC = s.rg MOR_LC := by
    have h := congrFun (congrArg Still.reg (e3 false) :) MOR_LC
    have hs : stillReg false MOR_LC = true := by decide
    have h' : (if stillReg false MOR_LC then e.rg MOR_LC else 0) = if stillReg false MOR_LC then s.rg MOR_LC else 0 := h
    rwa [if_pos hs, if_pos hs] at h'
  have k1 : e.keyless.trust = { e.trust with keys := [] } := rfl
  have k2 : e.keyless.jobs = e.jobs := rfl
  have k3 : e.keyless.parts = e.parts := rfl
  have k4 : e.keyless.regs = e.regs := rfl
  obtain ⟨p1, p2⟩ := Block.portsStopped_frame e.encPorts e.keyless
  obtain ⟨q, hq⟩ : ∃ q, q = e.keyless.portsStopped e.encPorts := ⟨_, rfl⟩
  rw [← hq] at p1 p2 ⊢
  obtain ⟨r1, r2, r3, -, r5, -⟩ := q.retired_frame ch new f e.encPorts.length e.ideStreams
  have hqt : q.trust = { s.trust with keys := [] } := (congrArg Block.trust p1 :).trans (k1.trans (congrArg (fun x : Trust => { x with keys := [] }) htr))
  refine ⟨?_, ?_, r2.trans ((congrArg Block.jobs p1 :).trans (k2.trans e1)), r3.trans ((congrArg Block.parts p1 :).trans (k3.trans e2)), r5.trans ?_⟩
  · rw [r1, hqt]
  · rw [r1, hqt]
  · refine congrArg (fun w : Word => w.fld 2 0) ((p2 MOR_LC (by decide) fun x _ => ?_).trans ((Block.rg_of_regs k4 _).trans hlc))
    have e1 : ESK_STATE x = 0x00800000 + x * 0x80000 + 0 := rfl
    have e2 : MOR_LC = 0x200 := rfl
    omega

/-- A return or a scrap carried out. -/
theorem exec_retired {s : State} {ch : Chan} {type new : Nat} {h : Block → List Word → Answer} {x : Tbl (List Byte)} {f : Fuses → Fuses}
    (hd : s.blk.delivers ch type)
    (ha : h (s.blk.msgTaken ch) (s.blk.msgWords ch) = (((s.blk.msgTaken ch).withNonces x).retire ch new f).yes) :
    ∃ t : State, onBlk (fun b => b.message ch type h) s = .next t ∧ t.pending = s.pending ∧
      t.blk.trust.fuses = s.blk.trust.fuses.keep (f s.blk.trust.fuses) ∧ t.blk.trust.keys = [] ∧ t.blk.jobs = [] ∧ t.blk.parts = [] ∧
      t.blk.lcState = s.blk.lcState ∧
      t.blk = s.blk.lasting ((((s.blk.msgTaken ch).withNonces x).retire ch new f).reply ch [mreg (s.blk.msgWords ch) 0, w32 OK]) := by
  obtain ⟨t, hx, hp, ht⟩ := onBlk_lasting_next (fun b => b.message ch type h) s
  rw [Block.message_delivers hd h, ha] at ht
  have hr := ((s.blk.msgTaken ch).withNonces x).retire_after ch new f
  have hf : ((s.blk.msgTaken ch).withNonces x).trust.fuses = s.blk.trust.fuses :=
    (Block.withNonces_same _ x).1.trans (congrArg Trust.fuses (s.blk.msgTaken_trust ch))
  have hl : ((s.blk.msgTaken ch).withNonces x).lcState = s.blk.lcState := (Block.withNonces_same _ x).2.trans (s.blk.lcState_msgTaken ch)
  obtain ⟨r, hrd⟩ : ∃ r, r = ((s.blk.msgTaken ch).withNonces x).retire ch new f := ⟨_, rfl⟩
  rw [← hrd] at hr ht ⊢
  obtain ⟨r1, r2, r3, r4, r5⟩ := hr
  rw [hf] at r1
  rw [hl] at r5
  have hrep := r.reply_trust ch [mreg (s.blk.msgWords ch) 0, w32 OK]
  have hj := r.reply_jobs ch [mreg (s.blk.msgWords ch) 0, w32 OK]
  have hpt := r.reply_parts ch [mreg (s.blk.msgWords ch) 0, w32 OK]
  have hlc := r.rg_reply_offMail ch [mreg (s.blk.msgWords ch) 0, w32 OK] (a := MOR_LC) (by decide) (by decide) (by decide)
  have ht' : t.blk = s.blk.lasting (r.reply ch [mreg (s.blk.msgWords ch) 0, w32 OK]) := ht
  obtain ⟨u, hu⟩ : ∃ u, u = r.reply ch [mreg (s.blk.msgWords ch) 0, w32 OK] := ⟨_, rfl⟩
  rw [← hu] at hrep hj hpt hlc ht' ⊢
  refine ⟨t, hx, hp, ?_, ?_, ?_, ?_, ?_, ht'⟩
  · rw [ht', Block.lasting_fuses, hrep, r1]
  · rw [ht']
    exact (congrArg Trust.keys hrep).trans r2
  · rw [ht']
    exact hj.trans r3
  · rw [ht']
    exact hpt.trans r4
  · rw [ht']
    exact (congrArg (fun w : Word => w.fld 2 0) ((Block.rg_lasting s.blk u MOR_LC).trans hlc)).trans r5

/-! ### LC_RETURN -/

/-- The fuses of a part returned to its maker. -/
def Fuses.returned (f : Fuses) : Fuses := { f with ownerDigest := allBlown 48, ret := LcBit.set }

/-- The handling of LC_RETURN. -/
def lcReturnAnswer (ch : Chan) (s : Block) (ws : List Word) : Answer :=
  if s.lcPending then s.no (BUSY 0x05)
  else if s.lcState ≠ 2 then s.authRefused 0x0A03 0x04
  else match s.hostReadStatus 0 (mpair ws 1) blobBytes with
    | some st => s.no st
    | none =>
      match (s.judge ch (mpair ws 1) 2 s.trust.fuses.vendorDigest true).1 with
      | some d => (s.judge ch (mpair ws 1) 2 s.trust.fuses.vendorDigest true).2.authRefused 0x0A03 d
      | none => ((s.judge ch (mpair ws 1) 2 s.trust.fuses.vendorDigest true).2.retire ch 3 Fuses.returned).yes

theorem exec_lcReturn (ch : Chan) (s : State) :
    exec (.lcReturn ch) s = onBlk (fun b => b.message ch 0x0A03 fun b ws => b.trustMsg true ch (lcReturnAnswer ch b ws)) s := rfl

theorem getD_allBlown {n i : Nat} (h : i < n) : (allBlown n).getD i 0 = 0xFF := by
  simp [allBlown, List.getD, h]

theorem orBytes_allBlown (l : List Byte) {n i : Nat} (h : i < n) : (orBytes l (allBlown n)).getD i 0 = 0xFF := by
  rw [getD_orBytes, getD_allBlown h]
  exact BitVec.or_allOnes

theorem lcReturn_verdict (s : State) (v : Option Nat × Block) (ht : s.blk.trusts .s0 0x0A03) (hp : s.blk.lcPending = false)
    (hs : s.blk.lcState = 2) (hr : (s.blk.msgTaken .s0).hostReadStatus 0 (mpair (s.blk.msgWords .s0) 1) blobBytes = none)
    (hv : v = (s.blk.msgTaken .s0).judge .s0 (mpair (s.blk.msgWords .s0) 1) 2 s.blk.trust.fuses.vendorDigest true) :
    ∃ t : State, exec (.lcReturn .s0) s = .next t ∧ t.pending = s.pending ∧
      (∀ d, v.1 = some d → t.blk.repliedTo s.blk .s0 (REFUSED d) ∧ t.blk.trust = v.2.trust ∧
        { t.blk.mailBack s.blk with trust := s.blk.trust } = s.blk) ∧
      (v.1 = none → t.blk.trust.fuses.ret = LcBit.set ∧ (∀ i, i < 48 → t.blk.trust.fuses.ownerDigest.getD i 0 = 0xFF) ∧
        t.blk.trust.fuses.idSeed = s.blk.trust.fuses.idSeed ∧ t.blk.trust.fuses.scrap = s.blk.trust.fuses.scrap ∧
        t.blk.trust.keys = [] ∧ t.blk.jobs = [] ∧ t.blk.parts = [] ∧ t.blk.lcState = 2) := by
  have hg := ht.gate (s0Only := true) rfl
  obtain ⟨hd, hb, -, -⟩ := ht
  have hp' := (s.blk.lcPending_msgTaken .s0).trans hp
  have hs' := (s.blk.lcState_msgTaken .s0).trans hs
  have hvd : (s.blk.msgTaken .s0).trust.fuses.vendorDigest = s.blk.trust.fuses.vendorDigest :=
    congrArg (fun x : Trust => x.fuses.vendorDigest) (s.blk.msgTaken_trust .s0)
  obtain ⟨x, hx⟩ := (s.blk.msgTaken .s0).judge_withNonces .s0 (mpair (s.blk.msgWords .s0) 1) 2 s.blk.trust.fuses.vendorDigest true
  rw [← hv] at hx
  have ha : lcReturnAnswer .s0 (s.blk.msgTaken .s0) (s.blk.msgWords .s0) = match v.1 with
      | some d => v.2.authRefused 0x0A03 d
      | none => (v.2.retire .s0 3 Fuses.returned).yes := by
    unfold lcReturnAnswer
    simp only [hp', hs', hr, hvd, ← hv]
    rfl
  have ha' := (Block.trustMsg_open (lcReturnAnswer .s0 (s.blk.msgTaken .s0) (s.blk.msgWords .s0)) hg).trans ha
  cases hv1 : v.1 with
  | some d =>
    rw [hv1] at ha'
    simp only [hx] at ha'
    obtain ⟨t, h1, h2, h3, h4, -, h5⟩ := exec_authRefused (h := fun b ws => b.trustMsg true .s0 (lcReturnAnswer .s0 b ws)) hd hb ha'
    refine ⟨t, (exec_lcReturn .s0 s).trans h1, h2, fun d' hd' => ?_, fun hn => by simp at hn⟩
    cases hd'
    exact ⟨h3, h4.trans (congrArg Block.trust hx.symm), h5⟩
  | none =>
    rw [hv1] at ha'
    simp only [hx] at ha'
    obtain ⟨t, h1, h2, h3, h4, h5, h6, h7, -⟩ := exec_retired (h := fun b ws => b.trustMsg true .s0 (lcReturnAnswer .s0 b ws)) hd ha'
    refine ⟨t, (exec_lcReturn .s0 s).trans h1, h2, fun d' hd' => by simp at hd', fun _ => ⟨?_, fun i hi => ?_, ?_, ?_, h4, h5, h6, h7.trans hs⟩⟩
    · rw [h3]
      exact LcBit.or_set _
    · rw [h3]
      exact orBytes_allBlown _ hi
    · rw [h3]
      exact orBytes_self _
    · rw [h3]
      simp [Fuses.keep, Fuses.returned]

theorem lcReturn_without (s : State) (ht : s.blk.trusts .s0 0x0A03) (hn : kget s.blk.trust.nonces 0 = none) (hp : s.blk.lcPending = false)
    (hs : s.blk.lcState = 2) (hr : (s.blk.msgTaken .s0).hostReadStatus 0 (mpair (s.blk.msgWords .s0) 1) blobBytes = none) :
    ∃ t : State, exec (.lcReturn .s0) s = .next t ∧ t.pending = s.pending ∧ t.blk.repliedTo s.blk .s0 (REFUSED 0x07) ∧
      t.blk.mailBack s.blk = s.blk := by
  have hn' : kget (s.blk.msgTaken .s0).trust.nonces (pairIndex .s0) = none := by
    rw [Block.msgTaken_trust]
    exact hn
  have hj := Block.judge_without hn' (mpair (s.blk.msgWords .s0) 1) 2 s.blk.trust.fuses.vendorDigest true
  obtain ⟨t, h1, h2, h3, -⟩ := lcReturn_verdict s _ ht hp hs hr hj.symm
  obtain ⟨h4, h5, h6⟩ := h3 _ rfl
  refine ⟨t, h1, h2, h4, ?_⟩
  have h5' : t.blk.trust = s.blk.trust := h5.trans (Block.msgTaken_trust ..)
  calc t.blk.mailBack s.blk = { t.blk.mailBack s.blk with trust := t.blk.trust } := rfl
    _ = { t.blk.mailBack s.blk with trust := s.blk.trust } := by rw [h5']
    _ = s.blk := h6

theorem lcReturn_refuses (s : State) (st : Nat) (ht : s.blk.trusts .s0 0x0A03)
    (hst : st = (if s.blk.lcPending then BUSY 0x05 else if s.blk.lcState ≠ 2 then REFUSED 0x04 else OK)) (h0 : st ≠ OK) :
    ∃ t : State, exec (.lcReturn .s0) s = .next t ∧ t.pending = s.pending ∧ t.blk.repliedTo s.blk .s0 st ∧ t.blk.mailBack s.blk = s.blk := by
  have hp' := s.blk.lcPending_msgTaken .s0
  have hs' := s.blk.lcState_msgTaken .s0
  by_cases hp : s.blk.lcPending = true
  · refine exec_trust_no (only := true) ht rfl (h := lcReturnAnswer .s0) ?_ rfl
    rw [hst, if_pos hp]
    exact if_pos (hp'.trans hp)
  · rw [if_neg hp] at hst
    by_cases hs : s.blk.lcState ≠ 2
    · rw [if_pos hs] at hst
      have hg := ht.gate (s0Only := true) rfl
      obtain ⟨hd, hb, -, -⟩ := ht
      have ha : lcReturnAnswer .s0 (s.blk.msgTaken .s0) (s.blk.msgWords .s0) =
          ((s.blk.msgTaken .s0).withNonces (s.blk.msgTaken .s0).trust.nonces).authRefused 0x0A03 0x04 :=
        (if_neg (by rw [hp']; exact hp)).trans (if_pos (by rw [hs']; exact hs))
      obtain ⟨t, h1, h2, h3, h4, -, h5⟩ := exec_authRefused (h := fun b ws => b.trustMsg true .s0 (lcReturnAnswer .s0 b ws)) hd hb
        ((Block.trustMsg_open _ hg).trans ha)
      refine ⟨t, (exec_lcReturn .s0 s).trans h1, h2, hst ▸ h3, ?_⟩
      have h4' : t.blk.trust = s.blk.trust := h4.trans (Block.msgTaken_trust ..)
      calc t.blk.mailBack s.blk = { t.blk.mailBack s.blk with trust := t.blk.trust } := rfl
        _ = { t.blk.mailBack s.blk with trust := s.blk.trust } := by rw [h4']
        _ = s.blk := h5
    · exact absurd (hst.trans (if_neg hs)) h0

/-! ### DEBUG_UNLOCK -/

/-- Debug opened, with the owner's digest on record. -/
def Block.unlocked (s : Block) (ch : Chan) (d : List Byte) : Block :=
  (s.wb MOR_LC 7 true).event (srcCore 0) 0x0802 (w32 (chCode ch) :: bytesWords 2 (digest48 d))

/-- The handling of DEBUG_UNLOCK. -/
def debugUnlockAnswer (ch : Chan) (s : Block) (ws : List Word) : Answer :=
  if s.lcState = 2 then s.no (DENIED 0x08)
  else if s.lcState ≠ 1 then s.yes
  else if !s.encPorts.isEmpty || s.ideStreams != 0 then s.no (BUSY 0x09)
  else match s.hostReadStatus 0 (mpair ws 1) blobBytes with
    | some st => s.no st
    | none =>
      match (s.judge ch (mpair ws 1) 1 s.trust.fuses.ownerDigest s.trust.fuses.ownerOk).1 with
      | some d => (s.judge ch (mpair ws 1) 1 s.trust.fuses.ownerDigest s.trust.fuses.ownerOk).2.authRefused 0x0A06 d
      | none => ((s.judge ch (mpair ws 1) 1 s.trust.fuses.ownerDigest s.trust.fuses.ownerOk).2.unlocked ch s.trust.fuses.ownerDigest).yes

theorem exec_debugUnlock (ch : Chan) (s : State) :
    exec (.debugUnlock ch) s = onBlk (fun b => b.message ch 0x0A06 fun b ws => b.trustMsg true ch (debugUnlockAnswer ch b ws)) s := rfl

theorem Block.encPorts_msgTaken (s : Block) (ch : Chan) : (s.msgTaken ch).encPorts = s.encPorts := by
  unfold Block.encPorts
  refine List.filter_congr fun p hp => ?_
  have e : ESK_STATE p = 0x00800000 + p * 0x80000 + 0 := rfl
  have e1 : ICE_DROPPED = 0x0040001C := rfl
  have e2 : LDG_STATUS = 0x00500000 := rfl
  have hp16 := List.mem_range.mp hp
  exact congrArg (fun w : Word => w.bit 10) (s.rg_msgTaken_offMail ch (by omega) (by omega) (by omega))

theorem Block.ideStreams_msgTaken (s : Block) (ch : Chan) : (s.msgTaken ch).ideStreams = s.ideStreams :=
  congrArg (fun w : Word => w.fld 12 9) (s.rg_msgTaken_offMail ch (by decide) (by decide) (by decide))

theorem Block.unlocked_frame (s : Block) (ch : Chan) (d : List Byte) : (s.unlocked ch d).trust = s.trust ∧ (s.unlocked ch d).mbx = s.mbx ∧
    (s.unlocked ch d).ice.perm = s.ice.perm ∧ (s.unlocked ch d).debugOpen = true ∧ (s.unlocked ch d).lcState = s.lcState ∧
    (∀ u, (s.unlocked ch d).mailBack u = s.mailBack u) ∧ ∀ a, a ≠ MOR_LC → a ≠ ICE_DROPPED → (s.unlocked ch d).rg a = s.rg a := by
  have h1 : (s.wb MOR_LC 7 true).bit MOR_LC 7 = true := Block.bit_wb_same _ _ _ (by omega)
  have h2 : (s.wb MOR_LC 7 true).lcState = s.lcState := Block.fld_wf_other _ _ _ _ (by omega) (by omega) (Or.inr (Or.inl (by omega)))
  have h3 : ∀ a, a ≠ MOR_LC → (s.wb MOR_LC 7 true).rg a = s.rg a := fun a ha => Block.rg_wb_other _ _ _ ha
  have h4 : { s.wb MOR_LC 7 true with regs := s.regs } = s := by simp
  unfold Block.unlocked
  obtain ⟨b, hb⟩ : ∃ b, b = s.wb MOR_LC 7 true := ⟨_, rfl⟩
  rw [← hb] at h1 h2 h3 h4 ⊢
  obtain ⟨l, hl⟩ : ∃ l, l = w32 (chCode ch) :: bytesWords 2 (digest48 d) := ⟨_, rfl⟩
  rw [← hl]
  have hlc : (b.event (srcCore 0) 0x0802 l).rg MOR_LC = b.rg MOR_LC := Block.rg_event _ _ _ _ (by decide)
  refine ⟨(Block.event_trust ..).trans (congrArg Block.trust h4 :), (Block.event_mbx ..).trans (congrArg Block.mbx h4 :),
    (Block.event_perm ..).trans (congrArg (fun x : Block => x.ice.perm) h4 :), (congrArg (fun w : Word => w.bit 7) hlc).trans h1,
    (congrArg (fun w : Word => w.fld 2 0) hlc).trans h2, fun u => (Block.mailBack_event ..).trans (congrArg (fun x : Block => x.mailBack u) h4 :),
    fun a ha hi => (Block.rg_event _ _ _ _ hi).trans (h3 a ha)⟩

theorem debugUnlock_verdict (s : State) (v : Option Nat × Block) (ht : s.blk.trusts .s0 0x0A06) (hs : s.blk.lcState = 1)
    (he : s.blk.encPorts = []) (hi : s.blk.ideStreams = 0)
    (hr : (s.blk.msgTaken .s0).hostReadStatus 0 (mpair (s.blk.msgWords .s0) 1) blobBytes = none)
    (hv : v = (s.blk.msgTaken .s0).judge .s0 (mpair (s.blk.msgWords .s0) 1) 1 s.blk.trust.fuses.ownerDigest s.blk.trust.fuses.ownerOk) :
    ∃ t : State, exec (.debugUnlock .s0) s = .next t ∧ t.pending = s.pending ∧
      (∀ d, v.1 = some d → t.blk.repliedTo s.blk .s0 (REFUSED d) ∧ t.blk.debugOpen = s.blk.debugOpen) ∧
      (v.1 = none → t.blk.repliedTo s.blk .s0 OK ∧ t.blk.debugOpen = true ∧ t.blk.keysAllowed = false) ∧
      t.blk.trust.fuses = s.blk.trust.fuses ∧ t.blk.trust = v.2.trust ∧ { t.blk.mailBack s.blk with trust := s.blk.trust } = s.blk := by
  have hg := ht.gate (s0Only := true) rfl
  obtain ⟨hd, hb, -, -⟩ := ht
  have hs' := (s.blk.lcState_msgTaken .s0).trans hs
  have he' := (s.blk.encPorts_msgTaken .s0).trans he
  have hi' := (s.blk.ideStreams_msgTaken .s0).trans hi
  have htr := s.blk.msgTaken_trust .s0
  obtain ⟨x, hx⟩ := (s.blk.msgTaken .s0).judge_withNonces .s0 (mpair (s.blk.msgWords .s0) 1) 1 s.blk.trust.fuses.ownerDigest s.blk.trust.fuses.ownerOk
  rw [← hv] at hx
  have ha : debugUnlockAnswer .s0 (s.blk.msgTaken .s0) (s.blk.msgWords .s0) = match v.1 with
      | some d => v.2.authRefused 0x0A06 d
      | none => (v.2.unlocked .s0 s.blk.trust.fuses.ownerDigest).yes := by
    unfold debugUnlockAnswer
    simp only [hs', he', hi', hr, htr, ← hv]
    rfl
  have ha' := (Block.trustMsg_open (debugUnlockAnswer .s0 (s.blk.msgTaken .s0) (s.blk.msgWords .s0)) hg).trans ha
  have hfu : v.2.trust.fuses = s.blk.trust.fuses := by
    rw [hx]
    exact (Block.withNonces_same _ x).1.trans (congrArg Trust.fuses htr)
  cases hv1 : v.1 with
  | some d =>
    rw [hv1] at ha'
    simp only [hx] at ha'
    obtain ⟨t, h1, h2, h3, h4, h5, h6⟩ := exec_authRefused (h := fun b ws => b.trustMsg true .s0 (debugUnlockAnswer .s0 b ws)) hd hb ha'
    have h4' : t.blk.trust = v.2.trust := h4.trans (congrArg Block.trust hx.symm)
    refine ⟨t, (exec_debugUnlock .s0 s).trans h1, h2, fun d' hd' => ?_, fun hn => by simp at hn, (congrArg Trust.fuses h4').trans hfu, h4', h6⟩
    cases hd'
    exact ⟨h3, congrArg (fun w : Word => w.bit 7) h5⟩
  | none =>
    rw [hv1] at ha'
    simp only [] at ha'
    obtain ⟨u1, u2, u3, u4, u5, u6, u7⟩ := v.2.unlocked_frame .s0 s.blk.trust.fuses.ownerDigest
    obtain ⟨b, hbd⟩ : ∃ b, b = v.2.unlocked .s0 s.blk.trust.fuses.ownerDigest := ⟨_, rfl⟩
    rw [← hbd] at u1 u2 u3 u4 u5 u6 u7 ha'
    have hw : v.2.regs = (s.blk.msgTaken .s0).regs ∧ v.2.mbx = (s.blk.msgTaken .s0).mbx ∧ v.2.ice = (s.blk.msgTaken .s0).ice ∧
        v.2.lcState = (s.blk.msgTaken .s0).lcState ∧ { v.2.mailBack s.blk with trust := s.blk.trust } =
          { (s.blk.msgTaken .s0).mailBack s.blk with trust := s.blk.trust } := by
      rw [hx]
      exact ⟨rfl, rfl, rfl, rfl, rfl⟩
    obtain ⟨w1, w2, w3, w4, w5⟩ := hw
    obtain ⟨t, h1, h2, h3, -, h4⟩ := exec_answer (h := fun b ws => b.trustMsg true .s0 (debugUnlockAnswer .s0 b ws)) hd hb ha'
      ((u7 _ (by decide) (by decide)).trans (Block.rg_of_regs w1 _)) (u2.trans w2) ((congrArg Trust.fuses u1).trans hfu)
      (u3.trans ((congrArg IceCore.perm w3).trans (Block.msgTaken_perm ..)))
    have h4' : t.blk = b.reply .s0 [mreg (s.blk.msgWords .s0) 0, w32 OK] := h4
    have hlc : t.blk.rg MOR_LC = b.rg MOR_LC := by
      rw [h4']
      exact Block.rg_reply_offMail _ _ _ (by decide) (by decide) (by decide)
    have hopen : t.blk.debugOpen = true := (congrArg (fun w : Word => w.bit 7) hlc).trans u4
    have hst : t.blk.lcState = 1 := (congrArg (fun w : Word => w.fld 2 0) hlc).trans (u5.trans (w4.trans hs'))
    have htv : t.blk.trust = v.2.trust := by
      rw [h4', Block.reply_trust, u1]
    refine ⟨t, (exec_debugUnlock .s0 s).trans h1, h2, fun d' hd' => by simp at hd', fun _ => ⟨h3, hopen, ?_⟩,
      (congrArg Trust.fuses htv).trans hfu, htv, ?_⟩
    · have hb7 : t.blk.bit MOR_LC 7 = true := hopen
      unfold Block.keysAllowed
      rw [hst, hb7]
      rfl
    · have hmb : t.blk.mailBack s.blk = v.2.mailBack s.blk := by
        rw [h4', Block.mailBack_reply, u6]
      exact (congrArg (fun y : Block => { y with trust := s.blk.trust }) hmb :).trans (w5.trans
        (congrArg (fun y : Block => { y with trust := s.blk.trust }) (Block.mailBack_msgTaken s.blk s.blk .s0) :))

theorem debugUnlock_unopened (s : State) (st : Nat) (ht : s.blk.trusts .s0 0x0A06)
    (h : s.blk.lcState = 2 ∧ st = DENIED 0x08 ∨ s.blk.lcState ≠ 1 ∧ s.blk.lcState ≠ 2 ∧ st = OK ∨
      s.blk.lcState = 1 ∧ (s.blk.encPorts ≠ [] ∨ s.blk.ideStreams ≠ 0) ∧ st = BUSY 0x09) :
    ∃ t : State, exec (.debugUnlock .s0) s = .next t ∧ t.pending = s.pending ∧ t.blk.repliedTo s.blk .s0 st ∧
      t.blk.debugOpen = s.blk.debugOpen ∧ t.blk.mailBack s.blk = s.blk := by
  have hs := s.blk.lcState_msgTaken .s0
  have he := s.blk.encPorts_msgTaken .s0
  have hi := s.blk.ideStreams_msgTaken .s0
  have ha : debugUnlockAnswer .s0 (s.blk.msgTaken .s0) (s.blk.msgWords .s0) = { status := st, regs := [], blk := s.blk.msgTaken .s0 } := by
    unfold debugUnlockAnswer
    rw [hs, he, hi]
    obtain ⟨h2, rfl⟩ | ⟨h1, h2, rfl⟩ | ⟨h1, h2, rfl⟩ := h
    · exact if_pos h2
    · rw [if_neg h2, if_pos h1]
      rfl
    · rw [if_neg (by omega), if_neg (fun hn => hn h1), if_pos]
      · rfl
      · obtain h2 | h2 := h2 <;> simp [h2]
  have hg := ht.gate (s0Only := true) rfl
  obtain ⟨hd, hb, -, -⟩ := ht
  obtain ⟨t, h1, h2, h3, -, h5⟩ := exec_answer (h := fun b ws => b.trustMsg true .s0 (debugUnlockAnswer .s0 b ws)) hd hb
    ((Block.trustMsg_open _ hg).trans ha) rfl rfl (congrArg Trust.fuses (Block.msgTaken_trust ..)) (Block.msgTaken_perm ..)
  refine ⟨t, (exec_debugUnlock .s0 s).trans h1, h2, h3, ?_, ?_⟩
  · rw [h5]
    exact congrArg (fun w : Word => w.bit 7) ((Block.rg_reply_offMail _ _ _ (by decide) (by decide) (by decide)).trans
      (s.blk.rg_msgTaken_offMail .s0 (by decide) (by decide) (by decide)))
  · rw [h5]
    simp

end Sys2Proof.Machine
end

section
/-! Scrapping, and the destruction of partitions of a block at rest (R330, R492). -/

namespace Sys2Proof.Machine

/-! ### Registers of replies -/

/-- The control word of the reply of a channel. -/
def replyWay (a : Nat) : Prop :=
  (a = 0x308144 ∨ 0x100000000 ≤ a) ∧ (a % 0x10000 = 0x8144 ∨ a % 0x10000 = 0x144 ∨ a % 0x10000 = 0x344 ∨ a % 0x10000 = 0x1844 ∨
    a % 0x10000 = 0x1944 ∨ a % 0x10000 = 0x1A44 ∨ a % 0x10000 = 0x1B44)

theorem replyWay_chBack {ch : Chan} (h : chOk ch = true) : replyWay (chBack ch + 0x44) := by
  cases ch with
  | fn f n =>
    simp only [chOk, Bool.and_eq_true, decide_eq_true_eq] at h
    have e : chBack (.fn f n) = 0x100000000 + f * 0x10000 + 0x1800 + 0x100 * n := rfl
    rw [e]
    unfold replyWay
    omega
  | s0 => exact ⟨Or.inl rfl, Or.inl rfl⟩
  | s1 => exact ⟨Or.inr (by decide), Or.inr (Or.inl rfl)⟩
  | mgmt => exact ⟨Or.inr (by decide), Or.inr (Or.inr (Or.inl rfl))⟩

/-! ### What a destruction at rest keeps -/

/-- A block without Firn units and Snowpack, with the mailboxes and the replies of another. -/
structure Block.restKept (t s : Block) : Prop where
  firn : t.firn = []
  snow : t.snow = []
  mbx : t.mbx = s.mbx
  regs : ∀ a, replyWay a → t.rg a = s.rg a

/-- Nothing of Firn units and of Snowpack. -/
structure Block.bare (s : Block) : Prop where
  firn : s.firn = []
  snow : s.snow = []

theorem Block.restKept.bare {s t : Block} (h : t.restKept s) : t.bare := ⟨h.firn, h.snow⟩

theorem Block.restKept.refl {s : Block} (h : s.bare) : s.restKept s := ⟨h.firn, h.snow, rfl, fun _ _ => rfl⟩

theorem Block.restKept.trans {s t u : Block} (h : u.restKept t) (h' : t.restKept s) : u.restKept s :=
  ⟨h.firn, h.snow, h.mbx.trans h'.mbx, fun a ha => (h.regs a ha).trans (h'.regs a ha)⟩

theorem Block.each_restKept {α : Type} (l : List α) (f : Block → α → Block) {s : Block} (h : s.bare)
    (hf : ∀ b x, x ∈ l → b.bare → (f b x).restKept b) : (s.each l f).restKept s := by
  unfold Block.each
  induction l generalizing s with
  | nil => exact .refl h
  | cons x l ih =>
    have h1 := hf s x List.mem_cons_self h
    exact (ih h1.bare fun b y hy => hf b y (List.mem_cons_of_mem _ hy)).trans h1

section
variable {s : Block} (h : s.bare)
include h

theorem Block.wr_restKept {a : Nat} (v : Word) (ha : ¬ replyWay a) : (s.wr a v).restKept s :=
  ⟨(Block.wr_firn ..).trans h.firn, (Block.wr_snow ..).trans h.snow, Block.wr_mbx .., fun _ hb =>
    Block.rg_wr_other _ _ fun e => ha (e ▸ hb)⟩

theorem Block.wf_restKept {a : Nat} (hi lo v : Nat) (ha : ¬ replyWay a) : (s.wf a hi lo v).restKept s := Block.wr_restKept h _ ha

theorem Block.led1_restKept (n : Nat) (m : LedgerMove) : (s.led1 n m).restKept s := by
  refine ⟨(Block.led1_firn ..).trans h.firn, (Block.led1_snow ..).trans h.snow, Block.led1_mbx .., fun a ha => Block.rg_led1 _ _ _ ?_ ?_⟩
  · have e : ICE_DROPPED = 0x0040001C := rfl
    unfold replyWay at ha
    omega
  · have e : LDG_STATUS = 0x00500000 := rfl
    unfold replyWay at ha
    omega

theorem Block.ledRenew_restKept (n k : Nat) : (s.ledRenew n k).restKept s := ⟨h.firn, h.snow, rfl, fun _ _ => rfl⟩

theorem Block.fu_bare (u : Nat) : s.fu u = FirnUnit.reset := by
  unfold Block.fu tget
  rw [h.firn]
  rfl

theorem Block.firnEnd_bare (u st : Nat) (d : Bool) : s.firnEnd u st d = s := by
  unfold Block.firnEnd
  rw [Block.fu_bare h]
  rfl

theorem Block.firnAbort_bare (u st : Nat) (d : Bool) : s.firnAbort u st d = s := by
  unfold Block.firnAbort
  rw [Block.firnEnd_bare h]
  dsimp only
  rw [Block.fu_bare h]
  rfl

theorem Block.firnDrain_bare (u n : Nat) : s.firnDrain u n = s := by
  have hm : s.modFu u (fun x => { x with writeQ := x.writeQ.drop n, ownQ := x.ownQ.drop (n - x.writeQ.length) }) = s := by
    unfold Block.modFu Block.setFu
    rw [Block.fu_bare h, h.firn]
    simp only [FirnUnit.reset, List.drop_nil]
    have e : tset FirnUnit.reset ([] : Tbl FirnUnit) u FirnUnit.reset = s.firn := by
      rw [h.firn]
      exact if_pos rfl
    exact congrArg (fun x : Tbl FirnUnit => { s with firn := x }) e
  unfold Block.firnDrain
  rw [Block.fu_bare h]
  have hn : ((FirnUnit.reset.writeQ ++ FirnUnit.reset.ownQ).take n) = [] := by simp [FirnUnit.reset]
  simp only [hn]
  exact hm

theorem Block.stopFirnSet_restKept (k : Nat) : (s.stopFirnSet k).restKept s := by
  have h1 : (s.setSetState k 3).restKept s := Block.wf_restKept h _ _ _ (by
    have e : STK_FIRN_SET (setStack k) = 0x02000000 + setStack k * 0x10000 + 0x60 := rfl
    unfold replyWay
    omega)
  refine (Block.each_restKept (setUnits k) _ h1.bare fun b u _ hb => ?_).trans h1
  dsimp only
  rw [Block.fu_bare hb, show FirnUnit.reset.queue.length = 0 from rfl]
  have hu : (loop 0 (fun _ s => s.firnRefuse u (ABORTED 0x6C)) b).fu u = FirnUnit.reset := Block.fu_bare hb u
  rw [hu, if_neg (by simp [FirnUnit.reset])]
  exact .refl hb

theorem firnSetStopped_restKept (k : Nat) : (firnSetStoppedEffect k s).restKept s := by
  have h1 : (s.each (setUnits k) fun s u =>
      let s := s.firnAbort u (ABORTED 0x6C) false
      let s := s.firnDrain u (s.fu u).writeQ.length
      if s.unitOn u then (s.setFirnState u 1).wb (FIRN_STATE u) 3 false else s).restKept s := by
    refine Block.each_restKept _ _ h fun b u _ hb => ?_
    dsimp only
    rw [Block.firnAbort_bare hb, Block.firnDrain_bare hb]
    have e : FIRN_STATE u = 0x04000000 + u * 0x1000 + 8 := rfl
    have ha : ¬ replyWay (FIRN_STATE u) := by
      unfold replyWay
      omega
    split
    · have h1 := Block.wf_restKept hb 2 0 1 ha
      exact (Block.wf_restKept h1.bare 3 3 (b2n false) ha).trans h1
    · exact .refl hb
  refine Block.restKept.trans (Block.wf_restKept h1.bare _ _ _ ?_) h1
  have e : STK_FIRN_SET (setStack k) = 0x02000000 + setStack k * 0x10000 + 0x60 := rfl
  unfold replyWay
  omega

theorem Block.dropHeld_restKept (f : Nat) : (s.dropHeld f).restKept s := by
  unfold Block.dropHeld
  extract_lets s1
  have h1 : s1.restKept s := by
    refine Block.each_restKept _ _ h fun b x _ hb => ?_
    split
    · exact Block.led1_restKept hb _ _
    · exact .refl hb
  exact Block.restKept.trans (t := s1) ⟨h1.firn, h1.snow, rfl, fun _ _ => rfl⟩ h1

theorem Block.stopPart_restKept {p : Nat} (hp : p < 32) (q : Part) : (s.stopPart p q).restKept s := by
  unfold Block.stopPart
  extract_lets s1 s2
  have h1 : s1.restKept s := Block.wf_restKept h _ _ _ (by
    have e : SCH_P_STATE p = 0x06010000 + p * 0x100 + 4 := rfl
    unfold replyWay
    omega)
  have h2 : s2.restKept s := by
    refine (Block.each_restKept _ _ h1.bare fun c n _ hc => Block.each_restKept _ _ hc fun d g _ hd => ?_).trans h1
    split
    · exact .refl hd
    · refine Block.wf_restKept hd _ _ _ ?_
      have e : STK_STATE n = 0x02000000 + n * 0x10000 + 4 := rfl
      unfold replyWay
      omega
  refine (Block.each_restKept _ _ h2.bare fun c k _ hc => ?_).trans h2
  split
  · exact .refl hc
  · exact Block.stopFirnSet_restKept hc _

theorem Block.partEnded_restKept (p : Nat) (q : Part) : (s.partEnded p q).restKept s := by
  unfold Block.partEnded
  extract_lets s1 s2 s3 s4
  have h1 : s1.restKept s := by
    refine Block.each_restKept _ _ h fun b k _ hb => ?_
    split
    · exact .refl hb
    · have h1 : (b.setSetState k 3).restKept b := Block.wf_restKept hb _ _ _ (by
        have e : STK_FIRN_SET (setStack k) = 0x02000000 + setStack k * 0x10000 + 0x60 := rfl
        unfold replyWay
        omega)
      exact (firnSetStopped_restKept h1.bare k).trans h1
  have h2 : s2.restKept s := (Block.each_restKept _ _ h1.bare fun b e _ hb => Block.led1_restKept hb _ _).trans h1
  have hs2 : s2.snowOf p = Snow.empty := by
    unfold Block.snowOf tget
    rw [h2.snow]
    rfl
  have h3 : s3.restKept s := by
    have e : s3 = s2 := by
      unfold s3
      rw [hs2]
      rfl
    rw [e]
    exact h2
  have hs3 : s3.snowOf p = Snow.empty := by
    unfold Block.snowOf tget
    rw [h3.snow]
    rfl
  have h4 : s4.restKept s := by
    have e : s4 = s3 := by
      unfold s4
      rw [hs3]
      rfl
    rw [e]
    exact h3
  refine (Block.wf_restKept h4.bare _ _ _ ?_).trans h4
  have e : ERR_REFETCH = 0x00700004 := rfl
  unfold replyWay
  omega

theorem Block.partGone_restKept (p : Nat) : (s.partGone p).restKept s := by
  refine ⟨h.firn, ?_, rfl, fun _ _ => rfl⟩
  show kdel s.snow p = []
  rw [h.snow]
  rfl

theorem Block.partCleared_restKept {p : Nat} (hp : p < 32) (q : Part) : (s.partCleared p q).restKept s := by
  unfold Block.partCleared
  have h1 : (s.setGroups q 0 0x3F).restKept s := by
    refine Block.each_restKept _ _ h fun b n _ hb => Block.each_restKept _ _ hb fun c g hg hc => ?_
    have hn : ¬ replyWay (STK_STATE n) := by
      have e : STK_STATE n = 0x02000000 + n * 0x10000 + 4 := rfl
      unfold replyWay
      omega
    have k1 := Block.wf_restKept hc (2 * g + 1) (2 * g) (if c.groupDown n g then 0 else 0) hn
    refine (Block.wf_restKept k1.bare _ _ _ ?_).trans k1
    have hg8 : g < 8 := by
      unfold Part.groupList maskBits at hg
      split at hg
      · exact List.mem_range.mp (List.mem_filter.mp hg).1
      · exact List.mem_range.mp hg
    have e : STK_PART_CG n g = 0x02000000 + n * 0x10000 + (0x14 + 4 * (g / 4)) := rfl
    unfold replyWay
    omega
  have h2 : ((s.setGroups q 0 0x3F).each q.dieList fun s d => s.wr (SRC_MSC_PCFG d p) (w32 0x10000)).restKept s := by
    refine (Block.each_restKept _ _ h1.bare fun b d _ hb => Block.wr_restKept hb _ ?_).trans h1
    have e : SRC_MSC_PCFG d p = 0x01000000 + d * 0x400000 + (0x200 + 4 * p) := rfl
    unfold replyWay
    omega
  obtain ⟨b, hb⟩ : ∃ b, b = (s.setGroups q 0 0x3F).each q.dieList fun s d => s.wr (SRC_MSC_PCFG d p) (w32 0x10000) := ⟨_, rfl⟩
  rw [← hb] at h2 ⊢
  have h3 : (b.dropLedgers p).restKept s :=
    (Block.each_restKept _ _ h2.bare fun c n _ hc => Block.ledRenew_restKept hc n 0).trans h2
  have h4 := (Block.wr_restKept h3.bare (a := SCH_P_CFG p) 0 (by
    have e : SCH_P_CFG p = 0x06010000 + p * 0x100 + 0 := rfl
    unfold replyWay
    omega)).trans h3
  have h5 := (Block.wr_restKept h4.bare (a := SNW p 0) 0 (by
    have e : SNW p 0 = 0x06200000 + p * 0x100 + 0 := rfl
    unfold replyWay
    omega)).trans h4
  exact (Block.wr_restKept h5.bare (a := SCH_P_STATE p) 0 (by
    have e : SCH_P_STATE p = 0x06010000 + p * 0x100 + 4 := rfl
    unfold replyWay
    omega)).trans h5

theorem Block.partOut_restKept {e : Nat × Part} (he : e.1 < 32) : (s.partOut e).restKept s := by
  have h1 := Block.stopPart_restKept h he e.2
  unfold Block.partOut
  rw [Block.destroyPart_eq]
  have h2 := (Block.partEnded_restKept h1.bare e.1 e.2).trans h1
  have h3 := (Block.partGone_restKept h2.bare e.1).trans h2
  exact (Block.partCleared_restKept h3.bare he e.2).trans h3

theorem Block.destroyAll_restKept (hp : s.parts.all (fun e => decide (e.1 < 32)) = true) : s.destroyAll.restKept s := by
  rw [s.destroyAll_eq]
  have h1 : (s.each (keys s.fns) fun s f => s.dropHeld f).restKept s :=
    Block.each_restKept _ _ h fun b f _ hb => Block.dropHeld_restKept hb f
  have hpt : (s.each (keys s.fns) fun s f => s.dropHeld f).parts = s.parts := Block.parts_of_still (b := false) (by simp)
  obtain ⟨t, ht⟩ : ∃ t, t = s.each (keys s.fns) fun s f => s.dropHeld f := ⟨_, rfl⟩
  rw [← ht] at h1 hpt ⊢
  have h2 : (t.each t.parts Block.partOut).restKept s := by
    refine (Block.each_restKept _ _ h1.bare fun b e he hb => Block.partOut_restKept hb ?_).trans h1
    rw [hpt] at he
    simpa using List.all_eq_true.mp hp e he
  obtain ⟨u, hu⟩ : ∃ u, u = t.each t.parts Block.partOut := ⟨_, rfl⟩
  rw [← hu] at h2 ⊢
  have h3 : ∀ n, n ≤ 64 → (loop n (fun f s => s.wf (SCH_C_CFG f) 5 0 0x3F) u).restKept s := by
    intro n
    induction n with
    | zero => exact fun _ => h2
    | succ n ih =>
      intro hn
      have k := ih (by omega)
      refine (Block.wf_restKept k.bare _ _ _ ?_).trans k
      have e : SCH_C_CFG n = 0x06020000 + n * 0x100 + 0 := rfl
      unfold replyWay
      omega
  exact h3 64 (Nat.le_refl _)

end

/-! ### LC_SCRAP -/

/-- The fuses of a part that is scrapped. -/
def Fuses.scrapped (f : Fuses) : Fuses := { f with ownerDigest := allBlown 48, idSeed := allBlown 32, scrap := LcBit.set }

/-- The handling of LC_SCRAP. -/
def lcScrapAnswer (ch : Chan) (s : Block) (ws : List Word) : Answer :=
  if (mreg ws 1).fld 15 0 ≠ 0x5C2A then s.no (REFUSED 0x04) else (s.retire ch 4 Fuses.scrapped).yes

theorem exec_lcScrap (ch : Chan) (s : State) :
    exec (.lcScrap ch) s = onBlk (fun b => b.message ch 0x0A04 fun b ws => b.trustMsg false ch (lcScrapAnswer ch b ws)) s := rfl

theorem Block.workEnded_of_idle {s : Block} (hj : s.jobs = []) (hq : s.reqs = []) : s.workEnded = s := by
  have h1 : s.killJobs (ABORTED 0xD2) false = s := by
    unfold Block.killJobs
    rw [hj]
    rfl
  unfold Block.workEnded
  rw [h1, hq]
  rfl

theorem Block.retire_replyWay {s : Block} (h : s.bare) (hj : s.jobs = []) (hq : s.reqs = [])
    (hp : s.parts.all (fun e => decide (e.1 < 32)) = true) (ch : Chan) (new : Nat) (f : Fuses → Fuses) :
    (s.retire ch new f).mbx = s.mbx ∧ ∀ a, replyWay a → (s.retire ch new f).rg a = s.rg a := by
  have h1 := Block.destroyAll_restKept h hp
  rw [s.retire_eq, s.endEverything_eq, Block.workEnded_of_idle hj hq]
  obtain ⟨e, he⟩ : ∃ e, e = s.destroyAll := ⟨_, rfl⟩
  rw [← he] at h1 ⊢
  have k1 : e.keyless.mbx = e.mbx := rfl
  have k2 : e.keyless.regs = e.regs := rfl
  obtain ⟨p1, p2⟩ := Block.portsStopped_frame e.encPorts e.keyless
  have hports : ∀ p ∈ e.encPorts, p < 16 := fun p hp => List.mem_range.mp (List.mem_filter.mp hp).1
  obtain ⟨q, hqd⟩ : ∃ q, q = e.keyless.portsStopped e.encPorts := ⟨_, rfl⟩
  rw [← hqd] at p1 p2 ⊢
  obtain ⟨-, -, -, r4, -, r6⟩ := q.retired_frame ch new f e.encPorts.length e.ideStreams
  refine ⟨r4.trans ((congrArg Block.mbx p1 :).trans (k1.trans h1.mbx)), fun a ha => ?_⟩
  have e1 : MOR_LC = 0x200 := rfl
  have e2 : ICE_DROPPED = 0x0040001C := rfl
  have e3 : MOR_HOST_LINK = 0x1000 := rfl
  have ha' := ha
  unfold replyWay at ha'
  refine (r6 a (by omega) (by omega)).trans ((p2 a (by omega) fun p hp => ?_).trans ((Block.rg_of_regs k2 a).trans (h1.regs a ha)))
  have e4 : ESK_STATE p = 0x00800000 + p * 0x80000 + 0 := rfl
  have := hports p hp
  omega

theorem lcScrap_scraps (s : State) (ch : Chan) (ht : s.blk.trusts ch 0x0A04) (hk : (mreg (s.blk.msgWords ch) 1).fld 15 0 = 0x5C2A) :
    ∃ t : State, exec (.lcScrap ch) s = .next t ∧ t.pending = s.pending ∧ t.blk.trust.fuses.scrap = LcBit.set ∧
      (∀ i, i < 48 → t.blk.trust.fuses.ownerDigest.getD i 0 = 0xFF) ∧ (∀ i, i < 32 → t.blk.trust.fuses.idSeed.getD i 0 = 0xFF) ∧
      t.blk.trust.fuses.state = 4 ∧ t.blk.trust.fuses.floors = s.blk.trust.fuses.floors ∧ t.blk.trust.keys = [] ∧ t.blk.jobs = [] ∧
      t.blk.parts = [] ∧ t.blk.lcState = s.blk.lcState ∧
      (s.blk.atRest → s.blk.parts.all (fun e => decide (e.1 < 32)) = true → t.blk.repliedTo s.blk ch OK) := by
  have hg := ht.gate (s0Only := false) rfl
  obtain ⟨hd, hb, -, -⟩ := ht
  have ha : lcScrapAnswer ch (s.blk.msgTaken ch) (s.blk.msgWords ch) =
      (((s.blk.msgTaken ch).withNonces (s.blk.msgTaken ch).trust.nonces).retire ch 4 Fuses.scrapped).yes := if_neg (fun hn => hn hk)
  obtain ⟨t, h1, h2, h3, h4, h5, h6, h7, h8⟩ := exec_retired (h := fun b ws => b.trustMsg false ch (lcScrapAnswer ch b ws)) hd
    ((Block.trustMsg_open _ hg).trans ha)
  have hscrap : t.blk.trust.fuses.scrap = LcBit.set := by
    rw [h3]
    exact LcBit.or_set _
  refine ⟨t, (exec_lcScrap ch s).trans h1, h2, hscrap, fun i hi => ?_, fun i hi => ?_, ?_, ?_, h4, h5, h6, h7, fun hr hp => ?_⟩
  · rw [h3]
    exact orBytes_allBlown _ hi
  · rw [h3]
    exact orBytes_allBlown _ hi
  · unfold Fuses.state
    rw [hscrap]
    rfl
  · rw [h3]
    exact maxFloors_self _
  · obtain ⟨m, hm⟩ : ∃ m, m = (s.blk.msgTaken ch).withNonces (s.blk.msgTaken ch).trust.nonces := ⟨_, rfl⟩
    have hmm : m = s.blk.msgTaken ch := hm
    obtain ⟨hj, hq, -, hf, -, hs, -⟩ := hr
    have hready := hd.1
    have hch : chOk ch = true := by
      unfold Block.msgReady at hready
      simp only [Bool.and_eq_true] at hready
      exact hready.1.1.1.1
    have hfree := Block.backFree_msgTaken hb
    rw [← hm] at h8
    have hk := Block.retire_replyWay (s := m) ⟨by rw [hmm, Block.msgTaken_firn]; exact hf, by rw [hmm, Block.msgTaken_snow]; exact hs⟩
      (by rw [hmm, Block.msgTaken_jobs]; exact hj) (by rw [hmm, Block.msgTaken_reqs]; exact hq)
      (by rw [hmm, Block.msgTaken_parts]; exact hp) ch 4 Fuses.scrapped
    obtain ⟨r, hrd⟩ : ∃ r, r = m.retire ch 4 Fuses.scrapped := ⟨_, rfl⟩
    rw [← hrd] at h8 hk
    obtain ⟨k1, k2⟩ := hk
    rw [← hmm] at hfree
    obtain ⟨g1, g2⟩ := Block.reply_free (Block.backFree_congr (k2 _ (replyWay_chBack hch)) (Block.box_congr k1) hfree)
      [mreg (s.blk.msgWords ch) 0, w32 OK]
    have hrg : ∀ a, t.blk.rg a = _ := fun a => h8 ▸ Block.rg_lasting s.blk _ a
    exact Block.repliedTo_congr hrg ⟨g1, g2 0 (by omega), g2 1 (by omega)⟩

theorem lcScrap_refuses (s : State) (ch : Chan) (ht : s.blk.trusts ch 0x0A04) (hk : (mreg (s.blk.msgWords ch) 1).fld 15 0 ≠ 0x5C2A) :
    ∃ t : State, exec (.lcScrap ch) s = .next t ∧ t.pending = s.pending ∧ t.blk.repliedTo s.blk ch (REFUSED 0x04) ∧
      t.blk.mailBack s.blk = s.blk :=
  exec_trust_no (only := false) ht rfl (h := lcScrapAnswer ch) (if_pos hk) rfl

/-- Settles O54: a judgement changes the nonces alone; a retirement ends every job, destroys every partition and forgets every key, and
what it blows is kept with the fuses before it. -/
theorem returnScrapAndDebug : Obligations.ReturnScrapAndDebug := by
  unfold Obligations.ReturnScrapAndDebug
  exact ⟨lcReturn_verdict, lcReturn_without, lcReturn_refuses, lcScrap_scraps, lcScrap_refuses, debugUnlock_verdict, debugUnlock_unopened⟩

end Sys2Proof.Machine
end

section
/-! The Esker ports: they train, run, fail and stop, and take flits (R348 to R354, R369). -/

namespace Sys2Proof.Machine

/-! ### The registers of a port -/

theorem stillReg_ESK_low {p k : Nat} (hp : p < 16) (hk : k < 0x200) : stillReg true (ESK p k) = true := by
  have e : ESK p k = 0x00800000 + p * 0x80000 + k := rfl
  have hm : ESK p k % 0x80000 = k := by omega
  unfold stillReg
  exact decide_eq_true (Or.inr (Or.inr ⟨rfl, by omega, by omega, Or.inl (by omega)⟩))

theorem stillReg_lane {p n : Nat} (hp : p < 16) (hn : n < 9) : stillReg true (ESK_LANE p n) = true :=
  stillReg_ESK_low (k := 0x100 + 4 * n) hp (by omega)

theorem ESK_offMail {p k : Nat} (hp : p < 16) (hk : k < 0x80000) : offMail (ESK p k) ∧ ESK p k ≠ ICE_DROPPED ∧ ESK p k ≠ LDG_STATUS := by
  have e : ESK p k = 0x00800000 + p * 0x80000 + k := rfl
  have e1 : ICE_DROPPED = 0x0040001C := rfl
  have e2 : LDG_STATUS = 0x00500000 := rfl
  exact ⟨Or.inr (by omega), by omega, by omega⟩

theorem lane_ne_ESK (p n : Nat) {k : Nat} (hk : k < 0x100) : ESK_LANE p n ≠ ESK p k := by
  have e : ESK_LANE p n = 0x00800000 + p * 0x80000 + (0x100 + 4 * n) := rfl
  have e' : ESK p k = 0x00800000 + p * 0x80000 + k := rfl
  omega

theorem lane_ne_lane (p : Nat) {n m : Nat} (h : m ≠ n) : ESK_LANE p m ≠ ESK_LANE p n := by
  have e : ∀ n, ESK_LANE p n = 0x00800000 + p * 0x80000 + (0x100 + 4 * n) := fun _ => rfl
  rw [e, e]
  omega

/-- A loop whose turns each change one thing of their own. -/
theorem loop_each {β γ : Type} (r : Nat → β → γ) (g : Nat → γ → γ) (f : Nat → β → β) (hs : ∀ n x, r n (f n x) = g n (r n x))
    (ho : ∀ n m x, m ≠ n → r m (f n x) = r m x) (k : Nat) (x : β) {n : Nat} (hn : n < k) : r n (loop k f x) = g n (r n x) := by
  induction k with
  | zero => omega
  | succ k ih =>
    refine Eq.trans (b := r n (f k (loop k f x))) rfl ?_
    by_cases h : n = k
    · subst h
      rw [hs, loop_keeps_below (r n) f n fun i y hi => ho i n y (by omega)]
    · rw [ho k n _ h]
      exact ih (by omega)

/-- A loop that writes one field of each lane. -/
theorem rg_laneLoop (s : Block) (p hi lo : Nat) (v : Nat → Nat) {n : Nat} (hn : n < 9) :
    (loop 9 (fun n s => s.wf (ESK_LANE p n) hi lo (v n)) s).rg (ESK_LANE p n) = (s.rg (ESK_LANE p n)).setFld hi lo (v n) :=
  loop_each (fun n b => Block.rg b (ESK_LANE p n)) (fun n w => w.setFld hi lo (v n)) _
    (fun _ _ => (Block.rg_wf ..).trans (if_pos rfl)) (fun _ _ _ h => Block.rg_wf_other _ _ _ _ (lane_ne_lane p h)) 9 s hn

theorem rg_laneLoop_other (s : Block) (p hi lo : Nat) (v : Nat → Nat) {k : Nat} (hk : k < 0x100) :
    (loop 9 (fun n s => s.wf (ESK_LANE p n) hi lo (v n)) s).rg (ESK p k) = s.rg (ESK p k) :=
  loop_keeps (fun b : Block => b.rg (ESK p k)) _ (fun n _ => Block.rg_wf_other _ _ _ _ (lane_ne_ESK p n hk).symm) 9 s

theorem laneLoop_frame (s : Block) (p hi lo : Nat) (v : Nat → Nat) :
    { loop 9 (fun n s => s.wf (ESK_LANE p n) hi lo (v n)) s with regs := s.regs } = s :=
  loop_keeps (fun b : Block => { b with regs := s.regs }) _ (fun n b => by simp) 9 s

/-! ### A port starts to train -/

/-- The settings that a port reads as it starts to train. -/
def Block.portSettings (s : Block) (p : Nat) (x : Port) : Port :=
  { x with retrain := false, laneMax := s.fld (ESK_LANE_CFG p) 15 0, encReq := s.bit (ESK_CFG p) 9 }

theorem Block.trainPort_fresh (s : Block) (p : Nat) : ∃ v, s.trainPort p =
    ((s.portResets p v).lanesReset p).modPort p (((s.portResets p v).lanesReset p).portSettings p) := by
  unfold Block.trainPort Block.portResets Block.lanesReset Block.portSettings
  exact ⟨_, rfl⟩

theorem Block.lanesReset_lanes (s : Block) (p : Nat) {n : Nat} (hn : n < 9) : (s.lanesReset p).fld (ESK_LANE p n) 18 16 = 0 := by
  unfold Block.fld Block.lanesReset
  rw [rg_laneLoop s p 18 16 (fun _ => 0) hn, Word.fld_setFld_same _ _ (by omega) (by omega), Nat.zero_mod]

theorem ESK_ne_STATE (p : Nat) {k : Nat} (h : k ≠ 0) : ESK p k ≠ ESK_STATE p := by
  have e : ESK p k = 0x00800000 + p * 0x80000 + k := rfl
  have e' : ESK_STATE p = 0x00800000 + p * 0x80000 + 0 := rfl
  omega

theorem Block.trainPort_port (s : Block) (p : Nat) : (s.trainPort p).port p =
      { s.port p with retrain := false, laneMax := s.fld (ESK_LANE_CFG p) 15 0, encReq := s.bit (ESK_CFG p) 9 } ∧
    (∀ q, q ≠ p → (s.trainPort p).port q = s.port q) ∧ ∀ n < 9, (s.trainPort p).fld (ESK_LANE p n) 18 16 = 0 := by
  obtain ⟨v, he⟩ := s.trainPort_fresh p
  obtain ⟨-, h2, h3⟩ := s.portResets_spec p v
  rw [he]
  obtain ⟨b, hb⟩ : ∃ b, b = s.portResets p v := ⟨_, rfl⟩
  rw [← hb] at h2 h3 ⊢
  have hl := fun n hn => b.lanesReset_lanes p (n := n) hn
  have hf := (b.lanesReset_spec p).2
  have hk : ∀ k, k ≠ 0 → k < 0x100 → (b.lanesReset p).rg (ESK p k) = s.rg (ESK p k) := fun k h0 hk =>
    (rg_laneLoop_other b p 18 16 (fun _ => 0) hk).trans (h2 _ (ESK_ne_STATE p h0))
  obtain ⟨c, hc⟩ : ∃ c, c = b.lanesReset p := ⟨_, rfl⟩
  rw [← hc] at hl hf hk ⊢
  have hport : ∀ q, c.port q = s.port q := fun q =>
    (Block.port_congr (congrArg Block.esk hf :) q).trans (Block.port_congr (congrArg Block.esk h3 :) q)
  refine ⟨?_, fun q hq => (Block.port_modPort_other _ _ hq).trans (hport q), hl⟩
  rw [Block.port_modPort_same, hport, Block.portSettings, Block.fld, Block.bit, show ESK_LANE_CFG p = ESK p 8 from rfl,
    show ESK_CFG p = ESK p 4 from rfl, hk 8 (by omega) (by omega), hk 4 (by omega) (by omega)]
  rfl

/-! ### A port goes down -/

/-- The state and the lanes of a port that goes down. -/
def Block.portLeft (s : Block) (p cause : Nat) : Block :=
  loop 9 (fun n s => s.wf (ESK_LANE p n) 17 16 0) (((s.wf (ESK_STATE p) 1 0 0).wf (ESK_STATE p) 9 7 cause).wb (ESK_STATE p) 10 false)

/-- A port that goes down, before what goes with it. -/
def Block.portCut (s : Block) (p cause : Nat) : Block :=
  (s.portLeft p cause).modPort p fun x =>
    { x with queue := [], rxSeq := 0, acked := 0, replays := 0, tagFails := 0, retrain := decide (cause ≠ 0) && s.bit (ESK_CFG p) 8 }

/-- What goes with a port that goes down: its credits, its requests and its queue. -/
def Block.portSwept (s : Block) (p cause nbr : Nat) (wait : List Queued) : Block :=
  let moved := s.creditsFlying p
  let s := s.creditsGone p
  let mine := s.esk.out.filter fun e => e.2.port == p && e.2.sent.isSome
  let s := s.each mine fun s e => s.requestLost e.1
  let s := s.each (wait.filter fun q => !q.own) fun s _ => s.discard p
  let s := s.checkNodes ((s.esk.routes.filter fun e => e.2.bit 4).map (·.1)) 1
  let s := s.each (wait.filter fun q => q.own) fun s q =>
    if isRequest q.packet && (kget s.esk.out q.packet.tag).isNone then s else s.reroute p q
  let s := s.event srcHealth 0x0601 [w32 p, w32 cause, w32 nbr, w32 moved, w32 mine.length]
  ((s.tellFm.tellPldm 0x0601 (w32 p)).bump (ESK_CNT_DOWN p)).pumpAll

theorem Block.portDown_eq (s : Block) (p cause : Nat) :
    s.portDown p cause = (s.portCut p cause).portSwept p cause (s.fld (ESK_STATE p) 26 12) (s.port p).queue := by
  unfold Block.portDown Block.portCut Block.portLeft Block.portSwept
  rfl

theorem Block.portSwept_still (s : Block) (p cause nbr : Nat) (wait : List Queued) {b : Bool} :
    (s.portSwept p cause nbr wait).still b = s.still b := by
  unfold Block.portSwept
  extract_lets moved s1 mine s2 s3 s4 s5 s6
  have h1 : s1.still b = s.still b := by simp [s1]
  have h2 : s2.still b = s1.still b := Block.each_still _ _ _ fun s e => Block.requestLost_still ..
  have h3 : s3.still b = s2.still b := Block.each_still _ _ _ fun s e => Block.discard_still ..
  have h4 : s4.still b = s3.still b := Block.checkNodes_still ..
  have h5 : s5.still b = s4.still b := Block.each_still _ _ _ fun s q => by
    split
    · rfl
    · exact Block.reroute_still ..
  have h6 : s6.still b = s5.still b := Block.event_still ..
  simp [h1, h2, h3, h4, h5, h6]

/-- A port that went down with its cause. -/
structure Block.portFell (t s : Block) (p cause : Nat) : Prop where
  state : t.portState p = 0
  why : t.fld (ESK_STATE p) 9 7 = cause
  lanes : ∀ n < 9, t.rg (ESK_LANE p n) = (s.rg (ESK_LANE p n)).setFld 17 16 0
  retrain : (t.port p).retrain = (decide (cause ≠ 0) && s.bit (ESK_CFG p) 8)
  parts : t.parts = s.parts
  bundles : t.bundles = s.bundles

theorem Block.portFell_of_still {t u s : Block} {p cause : Nat} (hp : p < 16) (h : t.still true = u.still true) (hu : u.portFell s p cause) :
    t.portFell s p cause := by
  have hst : t.rg (ESK_STATE p) = u.rg (ESK_STATE p) := Block.rg_of_still h (stillReg_ESK_low (k := 0) hp (by omega))
  have hport : (t.port p).retrain = (u.port p).retrain := (congrArg Port.retrain (Block.port_of_still h p) :)
  obtain ⟨h1, h2, h3, h4, h5, h6⟩ := hu
  refine ⟨?_, ?_, fun n hn => (Block.rg_of_still h (stillReg_lane hp hn)).trans (h3 n hn), hport.trans h4,
    (Block.parts_of_still h).trans h5, (congrArg Still.bundles h :).trans h6⟩
  · rw [Block.portState, Block.fld, hst]
    exact h1
  · rw [Block.fld, hst]
    exact h2

theorem Block.portLeft_spec (s : Block) (p : Nat) {cause : Nat} (hc : cause < 8) : { s.portLeft p cause with regs := s.regs } = s ∧
    (s.portLeft p cause).portState p = 0 ∧ (s.portLeft p cause).fld (ESK_STATE p) 9 7 = cause ∧
    ∀ n < 9, (s.portLeft p cause).rg (ESK_LANE p n) = (s.rg (ESK_LANE p n)).setFld 17 16 0 := by
  unfold Block.portLeft
  obtain ⟨b, hb⟩ : ∃ b, b = ((s.wf (ESK_STATE p) 1 0 0).wf (ESK_STATE p) 9 7 cause).wb (ESK_STATE p) 10 false := ⟨_, rfl⟩
  have hr : { b with regs := s.regs } = s := by simp [hb]
  have h1 : b.portState p = 0 := by
    rw [hb]
    refine (Block.fld_wf_other _ _ _ _ (by omega) (by omega) (Or.inr (Or.inl (by omega)))).trans ?_
    refine (Block.fld_wf_other _ _ _ _ (by omega) (by omega) (Or.inr (Or.inl (by omega)))).trans ?_
    exact Block.fld_wf_same _ _ _ (by omega) (by omega)
  have h2 : b.fld (ESK_STATE p) 9 7 = cause := by
    rw [hb]
    refine (Block.fld_wf_other _ _ _ _ (by omega) (by omega) (Or.inr (Or.inl (by omega)))).trans ?_
    exact (Block.fld_wf_same _ _ _ (by omega) (by omega)).trans (Nat.mod_eq_of_lt hc)
  have h3 : ∀ n, b.rg (ESK_LANE p n) = s.rg (ESK_LANE p n) := by
    intro n
    have hne : ESK_LANE p n ≠ ESK_STATE p := lane_ne_ESK p n (k := 0) (by omega)
    rw [hb, Block.rg_wb_other _ _ _ hne, Block.rg_wf_other _ _ _ _ hne, Block.rg_wf_other _ _ _ _ hne]
  rw [← hb]
  have hs : (loop 9 (fun n s => s.wf (ESK_LANE p n) 17 16 0) b).rg (ESK_STATE p) = b.rg (ESK_STATE p) :=
    rg_laneLoop_other b p 17 16 (fun _ => 0) (k := 0) (by omega)
  have hf := laneLoop_frame b p 17 16 fun _ => 0
  have hl := fun n hn => rg_laneLoop b p 17 16 (fun _ => 0) (n := n) hn
  obtain ⟨c, hc⟩ : ∃ c, c = loop 9 (fun n s => s.wf (ESK_LANE p n) 17 16 0) b := ⟨_, rfl⟩
  rw [← hc] at hs hf hl ⊢
  refine ⟨(congrArg (fun x : Block => { x with regs := s.regs }) hf :).trans hr, ?_, ?_, fun n hn => ?_⟩
  · rw [Block.portState, Block.fld, hs]
    exact h1
  · rw [Block.fld, hs]
    exact h2
  · rw [hl n hn, h3]

theorem Block.portCut_fell (s : Block) (p : Nat) {cause : Nat} (hc : cause < 8) : (s.portCut p cause).portFell s p cause := by
  obtain ⟨h1, h2, h3, h4⟩ := s.portLeft_spec p hc
  unfold Block.portCut
  obtain ⟨b, hb⟩ : ∃ b, b = s.portLeft p cause := ⟨_, rfl⟩
  rw [← hb] at h1 h2 h3 h4 ⊢
  exact ⟨h2, h3, h4, by rw [Block.port_modPort_same], (congrArg Block.parts h1 :), (congrArg Block.bundles h1 :)⟩

theorem Block.portDown_fell (s : Block) {p cause : Nat} (hp : p < 16) (hc : cause < 8) : (s.portDown p cause).portFell s p cause := by
  rw [Block.portDown_eq]
  exact Block.portFell_of_still hp (Block.portSwept_still ..) (s.portCut_fell p hc)

theorem Block.portFell.lane {t s : Block} {p cause n : Nat} (h : t.portFell s p cause) (hn : n < 9) :
    t.fld (ESK_LANE p n) 17 16 = 0 ∧ t.bit (ESK_LANE p n) 18 = s.bit (ESK_LANE p n) 18 ∧
    t.fld (ESK_LANE p n) 15 0 = s.fld (ESK_LANE p n) 15 0 := by
  unfold Block.fld Block.bit
  rw [h.lanes n hn]
  refine ⟨?_, ?_, ?_⟩
  · rw [Word.fld_setFld_same _ _ (by omega) (by omega), Nat.zero_mod]
  · rw [Word.bit_setFld _ _ _ (by omega) (by omega), if_neg (by omega)]
  · exact Word.fld_setFld_other _ _ _ _ (by omega) (by omega) (Or.inl (by omega))

end Sys2Proof.Machine
end

section
/-! Ports and lanes fail (R348, R352). -/

namespace Sys2Proof

/-- A lane's bits that say failed, not in use and not locked. -/
theorem Word.fld_failedLane {w : Word} (h16 : w.bit 16 = false) (h17 : w.bit 17 = false) (h18 : w.bit 18 = true) : w.fld 18 16 = 4 := by
  have hb : ∀ i, (w.fld 18 16).testBit i = (decide (i < 3) && w.bit (16 + i)) := by
    intro i
    unfold Word.fld bitsOf
    rw [Nat.testBit_mod_two_pow, Nat.testBit_div_two_pow]
    exact congrArg (fun k => decide (i < 3) && w.toNat.testBit k) (Nat.add_comm i 16)
  apply Nat.eq_of_testBit_eq
  intro i
  rw [hb]
  match i with
  | 0 => exact h16
  | 1 => exact h17
  | 2 => exact h18
  | i + 3 =>
    rw [decide_eq_false (by omega), Bool.false_and]
    exact (Nat.testBit_lt_two_pow (Nat.lt_of_lt_of_le (by decide : 4 < 2 ^ 3) (Nat.pow_le_pow_right (by omega) (by omega)))).symm

namespace Machine

/-! ### A port falls -/

theorem Block.portFell_lasting {t s old : Block} {p cause : Nat} (h : t.portFell s p cause) : (old.lasting t).portFell s p cause := by
  obtain ⟨h1, h2, h3, h4, h5, h6⟩ := h
  have hr : ∀ a, (old.lasting t).rg a = t.rg a := Block.rg_lasting old t
  refine ⟨?_, ?_, fun n hn => (hr _).trans (h3 n hn), (congrArg Port.retrain (Block.port_congr (Block.lasting_esk ..) p) :).trans h4,
    (Block.lasting_parts ..).trans h5, (Block.lasting_bundles ..).trans h6⟩
  · rw [Block.portState, Block.fld, hr]
    exact h1
  · rw [Block.fld, hr]
    exact h2

theorem onBlk_portFell {f : Block → Block} {s : State} {b : Block} {p cause : Nat} (h : (f s.blk).portFell b p cause) :
    ∃ t : State, onBlk f s = .next t ∧ t.pending = s.pending ∧ t.blk.portFell b p cause := by
  obtain ⟨t, hx, hp, ht⟩ := onBlk_lasting_next f s
  exact ⟨t, hx, hp, ht ▸ Block.portFell_lasting h⟩

theorem portOk_of_lt {p : Nat} (hp : p < 16) : portOk p = true := decide_eq_true hp

theorem effLossOfSignal_up {p : Nat} {s : Block} (hp : p < 16) (hu : s.portUp p = true) : effLossOfSignal p s = s.portDown p 1 := by
  rw [effLossOfSignal, portOk_of_lt hp, hu]
  rfl

theorem lossOfSignal_falls (s : State) (p : Nat) (hp : p < 16) (hu : s.blk.portUp p = true) :
    ∃ t : State, exec (.lossOfSignal p) s = .next t ∧ t.pending = s.pending ∧ t.blk.portState p = 0 ∧ t.blk.fld (ESK_STATE p) 9 7 = 1 ∧
      (t.blk.port p).retrain = s.blk.bit (ESK_CFG p) 8 ∧ t.blk.parts = s.blk.parts ∧ t.blk.bundles = s.blk.bundles := by
  have hx : exec (.lossOfSignal p) s = onBlk (effLossOfSignal p) s := rfl
  have hf : (effLossOfSignal p s.blk).portFell s.blk p 1 := effLossOfSignal_up hp hu ▸ s.blk.portDown_fell hp (by omega)
  obtain ⟨t, ht, hpend, h⟩ := onBlk_portFell hf
  exact ⟨t, hx.trans ht, hpend, h.state, h.why, h.retrain, h.parts, h.bundles⟩

theorem lossOfSignal_idle (s : State) (p : Nat) (hu : s.blk.portUp p = false) : exec (.lossOfSignal p) s = .next s := by
  have hx : exec (.lossOfSignal p) s = onBlk (effLossOfSignal p) s := rfl
  refine hx.trans (onBlk_idle ?_)
  rw [effLossOfSignal, hu, Bool.and_false]
  rfl

theorem keepaliveTimeout_falls (s : State) (p : Nat) (hp : p < 16) (hu : s.blk.portUp p = true)
    (hk : (s.blk.port p).lastRx + s.blk.kaTimeout p ≤ s.blk.now) :
    ∃ t : State, exec (.keepaliveTimeout p) s = .next t ∧ t.pending = s.pending ∧ t.blk.portState p = 0 ∧
      t.blk.fld (ESK_STATE p) 9 7 = 2 ∧ (t.blk.port p).retrain = s.blk.bit (ESK_CFG p) 8 ∧ t.blk.parts = s.blk.parts := by
  have hx : exec (.keepaliveTimeout p) s = onBlk (effKeepaliveTimeout p) s := rfl
  have he : effKeepaliveTimeout p s.blk = s.blk.portDown p 2 := by
    rw [effKeepaliveTimeout, portOk_of_lt hp, hu, decide_eq_true hk]
    rfl
  have hf : (effKeepaliveTimeout p s.blk).portFell s.blk p 2 := he ▸ s.blk.portDown_fell hp (by omega)
  obtain ⟨t, ht, hpend, h⟩ := onBlk_portFell hf
  exact ⟨t, hx.trans ht, hpend, h.state, h.why, h.retrain, h.parts⟩

theorem keepaliveTimeout_idle (s : State) (p : Nat) (hk : s.blk.now < (s.blk.port p).lastRx + s.blk.kaTimeout p) :
    exec (.keepaliveTimeout p) s = .next s := by
  have hx : exec (.keepaliveTimeout p) s = onBlk (effKeepaliveTimeout p) s := rfl
  refine hx.trans (onBlk_idle ?_)
  rw [effKeepaliveTimeout, decide_eq_false (by omega), Bool.and_false]
  rfl

/-! ### A lane fails -/

/-- A lane that failed. -/
def Block.laneMarked (s : Block) (p n : Nat) : Block := (s.wb (ESK_LANE p n) 18 true).wb (ESK_LANE p n) 17 false

/-- The spare in the place of a lane. -/
def Block.spareUsed (s : Block) (p n : Nat) : Block :=
  ((s.wb (ESK_LANE p 8) 17 true).wb (ESK_STATE p) 2 true).wf (ESK_STATE p) 6 3 n

theorem Block.laneFails_eq (s : Block) (p n : Nat) : s.laneFails p n =
    if !s.bit (ESK_LANE p n) 17 then s.laneMarked p n
    else if (s.laneMarked p n).spareLeft p then ((s.laneMarked p n).spareUsed p n).event srcHealth 0x0603 [w32 p, w32 n]
    else (s.laneMarked p n).portDown p 6 := rfl

theorem Block.laneMarked_spec (s : Block) (p n : Nat) : { s.laneMarked p n with regs := s.regs } = s ∧
    (∀ a, a ≠ ESK_LANE p n → (s.laneMarked p n).rg a = s.rg a) ∧ (s.laneMarked p n).bit (ESK_LANE p n) 18 = true ∧
    (s.laneMarked p n).bit (ESK_LANE p n) 17 = false ∧ (s.laneMarked p n).bit (ESK_LANE p n) 16 = s.bit (ESK_LANE p n) 16 ∧
    (s.laneMarked p n).fld (ESK_LANE p n) 15 0 = s.fld (ESK_LANE p n) 15 0 := by
  unfold Block.laneMarked
  refine ⟨by simp, fun a ha => (Block.rg_wb_other _ _ _ ha).trans (Block.rg_wb_other _ _ _ ha), ?_, ?_, ?_, ?_⟩
  · exact (Block.bit_wb_other _ _ (by omega) (Or.inr (by omega))).trans (Block.bit_wb_same _ _ _ (by omega))
  · exact Block.bit_wb_same _ _ _ (by omega)
  · exact (Block.bit_wb_other _ _ (by omega) (Or.inr (by omega))).trans (Block.bit_wb_other _ _ (by omega) (Or.inr (by omega)))
  · exact (Block.fld_wf_other _ _ _ _ (by omega) (by omega) (Or.inr (Or.inl (by omega)))).trans
      (Block.fld_wf_other _ _ _ _ (by omega) (by omega) (Or.inr (Or.inl (by omega))))

theorem Block.spareUsed_spec (s : Block) (p : Nat) {n : Nat} (hn : n < 16) : { s.spareUsed p n with regs := s.regs } = s ∧
    (∀ a, a ≠ ESK_LANE p 8 → a ≠ ESK_STATE p → (s.spareUsed p n).rg a = s.rg a) ∧ (s.spareUsed p n).bit (ESK_LANE p 8) 17 = true ∧
    (s.spareUsed p n).bit (ESK_STATE p) 2 = true ∧ (s.spareUsed p n).fld (ESK_STATE p) 6 3 = n ∧
    (s.spareUsed p n).portState p = s.portState p ∧ (s.spareUsed p n).fld (ESK_LANE p 8) 15 0 = s.fld (ESK_LANE p 8) 15 0 := by
  have hne : ESK_LANE p 8 ≠ ESK_STATE p := lane_ne_ESK p 8 (k := 0) (by omega)
  unfold Block.spareUsed
  refine ⟨by simp, fun a h1 h2 => ?_, ?_, ?_, ?_, ?_, ?_⟩
  · exact (Block.rg_wf_other _ _ _ _ h2).trans ((Block.rg_wb_other _ _ _ h2).trans (Block.rg_wb_other _ _ _ h1))
  · exact (Block.bit_wf_other _ _ (by omega) (by omega) (Or.inl hne)).trans
      ((Block.bit_wb_other _ _ (by omega) (Or.inl hne)).trans (Block.bit_wb_same _ _ _ (by omega)))
  · exact (Block.bit_wf_other _ _ (by omega) (by omega) (Or.inr (Or.inl (by omega)))).trans (Block.bit_wb_same _ _ _ (by omega))
  · exact (Block.fld_wf_same _ _ _ (by omega) (by omega)).trans (Nat.mod_eq_of_lt hn)
  · refine (Block.fld_wf_other _ _ _ _ (by omega) (by omega) (Or.inr (Or.inl (by omega)))).trans ?_
    refine (Block.fld_wf_other _ _ _ _ (by omega) (by omega) (Or.inr (Or.inl (by omega)))).trans ?_
    exact Block.fld_wf_other _ _ _ _ (by omega) (by omega) (Or.inl hne.symm)
  · refine (Block.fld_wf_other _ _ _ _ (by omega) (by omega) (Or.inl hne)).trans ?_
    refine (Block.fld_wf_other _ _ _ _ (by omega) (by omega) (Or.inl hne)).trans ?_
    exact Block.fld_wf_other _ _ _ _ (by omega) (by omega) (Or.inr (Or.inl (by omega)))

/-- A lane that lost its lock. -/
def Block.laneUnlocked (s : Block) (p n : Nat) : Block := s.wb (ESK_LANE p n) 16 false

theorem Block.laneUnlocked_spec (s : Block) (p n : Nat) : { s.laneUnlocked p n with regs := s.regs } = s ∧
    (∀ a, a ≠ ESK_LANE p n → (s.laneUnlocked p n).rg a = s.rg a) ∧ (s.laneUnlocked p n).bit (ESK_LANE p n) 16 = false ∧
    (s.laneUnlocked p n).bit (ESK_LANE p n) 17 = s.bit (ESK_LANE p n) 17 := by
  unfold Block.laneUnlocked
  exact ⟨by simp, fun a ha => Block.rg_wb_other _ _ _ ha, Block.bit_wb_same _ _ _ (by omega),
    Block.bit_wb_other _ _ (by omega) (Or.inr (by omega))⟩

/-- A lane without lock that failed. -/
theorem Block.laneLost_spec (s : Block) (p n : Nat) : { (s.laneUnlocked p n).laneMarked p n with regs := s.regs } = s ∧
    (∀ a, a ≠ ESK_LANE p n → ((s.laneUnlocked p n).laneMarked p n).rg a = s.rg a) ∧
    ((s.laneUnlocked p n).laneMarked p n).fld (ESK_LANE p n) 18 16 = 4 ∧ ((s.laneUnlocked p n).laneMarked p n).bit (ESK_LANE p n) 18 = true := by
  obtain ⟨h1, h2, h3, -⟩ := s.laneUnlocked_spec p n
  obtain ⟨b, hb⟩ : ∃ b, b = s.laneUnlocked p n := ⟨_, rfl⟩
  rw [← hb] at h1 h2 h3 ⊢
  obtain ⟨k1, k2, k3, k4, k5, -⟩ := b.laneMarked_spec p n
  obtain ⟨c, hc⟩ : ∃ c, c = b.laneMarked p n := ⟨_, rfl⟩
  rw [← hc] at k1 k2 k3 k4 k5 ⊢
  exact ⟨(congrArg (fun x : Block => { x with regs := s.regs }) k1 :).trans h1, fun a ha => (k2 a ha).trans (h2 a ha),
    Word.fld_failedLane (k5.trans h3) k4 k3, k3⟩

theorem effLaneLockLoss_up {p n : Nat} {s : Block} (hp : p < 16) (hn : n < 9) (hu : s.portUp p = true) :
    effLaneLockLoss p n s = (s.laneUnlocked p n).laneFails p n := by
  rw [effLaneLockLoss, portOk_of_lt hp, decide_eq_true hn, hu, Block.laneUnlocked]
  exact if_pos rfl

theorem Block.portUp_congr {s t : Block} {p : Nat} (h : t.rg (ESK_STATE p) = s.rg (ESK_STATE p)) : t.portUp p = s.portUp p := by
  rw [Block.portUp, Block.portUp, Block.portState, Block.portState, Block.fld, Block.fld, h]

theorem laneLockLoss_spared (s : State) (p n : Nat) (hp : p < 16) (hn : n < 8) (hu : s.blk.portUp p = true)
    (h17 : s.blk.bit (ESK_LANE p n) 17 = true) (hsp : s.blk.spareLeft p = true) :
    ∃ t : State, exec (.laneLockLoss p n) s = .next t ∧ t.pending = s.pending ∧ t.blk.portUp p = true ∧
      t.blk.fld (ESK_LANE p n) 18 16 = 4 ∧ t.blk.bit (ESK_LANE p 8) 17 = true ∧ t.blk.bit (ESK_STATE p) 2 = true ∧
      t.blk.fld (ESK_STATE p) 6 3 = n ∧ t.blk.esk = s.blk.esk ∧ t.blk.objs = s.blk.objs ∧ t.blk.jobs = s.blk.jobs ∧
      t.blk.led = s.blk.led := by
  have hx : exec (.laneLockLoss p n) s = onBlk (effLaneLockLoss p n) s := rfl
  have he := effLaneLockLoss_up hp (by omega : n < 9) hu
  obtain ⟨-, -, -, u4⟩ := s.blk.laneUnlocked_spec p n
  obtain ⟨m1, m2, m3, -⟩ := s.blk.laneLost_spec p n
  rw [Block.laneFails_eq, u4, h17] at he
  obtain ⟨b, hb⟩ : ∃ b, b = (s.blk.laneUnlocked p n).laneMarked p n := ⟨_, rfl⟩
  rw [← hb] at he m1 m2 m3
  have hst : ESK_STATE p ≠ ESK_LANE p n := (lane_ne_ESK p n (k := 0) (by omega)).symm
  have hl8 : ESK_LANE p 8 ≠ ESK_LANE p n := lane_ne_lane p (by omega)
  have hsb : b.spareLeft p = true := by
    rw [← hsp, Block.spareLeft, Block.spareLeft, Block.bit, Block.bit, Block.bit, Block.bit, m2 _ hst, m2 _ hl8]
  obtain ⟨k1, k2, k3, k4, k5, k6, -⟩ := b.spareUsed_spec p (n := n) (by omega)
  obtain ⟨c, hc⟩ : ∃ c, c = b.spareUsed p n := ⟨_, rfl⟩
  rw [← hc] at k1 k2 k3 k4 k5 k6
  have he' : effLaneLockLoss p n s.blk = c.event srcHealth 0x0603 [w32 p, w32 n] := by
    rw [he, hsb, ← hc]
    rfl
  have hr : ∀ k, k < 0x80000 → (c.event srcHealth 0x0603 [w32 p, w32 n]).rg (ESK p k) = c.rg (ESK p k) := fun k hk =>
    Block.rg_event _ _ _ _ (ESK_offMail hp hk).2.1
  have hf : { c with regs := s.blk.regs } = s.blk := (congrArg (fun x : Block => { x with regs := s.blk.regs }) k1 :).trans m1
  have hrs := hr 0 (by omega)
  have hrn := hr (0x100 + 4 * n) (by omega)
  have hr8 := hr (0x100 + 4 * 8) (by omega)
  obtain ⟨d, hd⟩ : ∃ d, d = c.event srcHealth 0x0603 [w32 p, w32 n] := ⟨_, rfl⟩
  have hesk : d.esk = s.blk.esk := hd ▸ (Block.event_esk ..).trans (congrArg Block.esk hf :)
  have hobjs : d.objs = s.blk.objs := hd ▸ (Block.event_objs ..).trans (congrArg Block.objs hf :)
  have hjobs : d.jobs = s.blk.jobs := hd ▸ (Block.event_jobs ..).trans (congrArg Block.jobs hf :)
  have hled : d.led = s.blk.led := hd ▸ (Block.event_led ..).trans (congrArg Block.led hf :)
  rw [← hd] at he' hrs hrn hr8
  obtain ⟨t, ht, hpend, htb⟩ := onBlk_lasting_next (effLaneLockLoss p n) s
  rw [he'] at htb
  have hrt : ∀ a, t.blk.rg a = d.rg a := fun a => htb ▸ Block.rg_lasting s.blk d a
  refine ⟨t, hx.trans ht, hpend, ?_, ?_, ?_, ?_, ?_, ?_, ?_, ?_, ?_⟩
  · rw [← hu, Block.portUp, Block.portUp, Block.portState, Block.fld, hrt]
    refine congrArg (· == 2) (Eq.trans (congrArg (fun w : Word => w.fld 1 0) hrs :) (k6.trans ?_))
    rw [Block.portState, Block.fld, m2 _ hst]
    rfl
  · rw [Block.fld, hrt]
    refine (congrArg (fun w : Word => w.fld 18 16) (hrn.trans (k2 _ hl8.symm hst.symm)) :).trans m3
  · rw [Block.bit, hrt]
    exact (congrArg (fun w : Word => w.bit 17) hr8 :).trans k3
  · rw [Block.bit, hrt]
    exact (congrArg (fun w : Word => w.bit 2) hrs :).trans k4
  · rw [Block.fld, hrt]
    exact (congrArg (fun w : Word => w.fld 6 3) hrs :).trans k5
  · rw [htb, Block.lasting_esk, hesk]
  · rw [htb, Block.lasting_objs, hobjs]
  · rw [htb, Block.lasting_jobs, hjobs]
  · rw [htb, Block.lasting_led, hled]

theorem laneLockLoss_falls (s : State) (p n : Nat) (hp : p < 16) (hn : n < 9) (hu : s.blk.portUp p = true)
    (h17 : s.blk.bit (ESK_LANE p n) 17 = true) (h2 : s.blk.bit (ESK_STATE p) 2 = true) :
    ∃ t : State, exec (.laneLockLoss p n) s = .next t ∧ t.pending = s.pending ∧ t.blk.portState p = 0 ∧
      t.blk.fld (ESK_STATE p) 9 7 = 6 ∧ t.blk.bit (ESK_LANE p n) 18 = true ∧ t.blk.parts = s.blk.parts := by
  have hx : exec (.laneLockLoss p n) s = onBlk (effLaneLockLoss p n) s := rfl
  have he := effLaneLockLoss_up hp hn hu
  obtain ⟨-, -, -, u4⟩ := s.blk.laneUnlocked_spec p n
  obtain ⟨m1, m2, -, m4⟩ := s.blk.laneLost_spec p n
  rw [Block.laneFails_eq, u4, h17] at he
  obtain ⟨b, hb⟩ : ∃ b, b = (s.blk.laneUnlocked p n).laneMarked p n := ⟨_, rfl⟩
  rw [← hb] at he m1 m2 m4
  have hst : ESK_STATE p ≠ ESK_LANE p n := (lane_ne_ESK p n (k := 0) (by omega)).symm
  have hsb : b.spareLeft p = false := by
    rw [Block.spareLeft, Block.bit, m2 _ hst]
    exact congrArg (fun x => !x && !b.bit (ESK_LANE p 8) 18) h2
  have he' : effLaneLockLoss p n s.blk = b.portDown p 6 := by
    rw [he, hsb]
    rfl
  have hf : (effLaneLockLoss p n s.blk).portFell b p 6 := he' ▸ b.portDown_fell hp (by omega)
  obtain ⟨t, ht, hpend, h⟩ := onBlk_portFell hf
  exact ⟨t, hx.trans ht, hpend, h.state, h.why, (h.lane hn).2.1.trans m4, h.parts.trans (congrArg Block.parts m1 :)⟩

theorem laneLockLoss_unused (s : State) (p n : Nat) (hp : p < 16) (hn : n < 9) (hu : s.blk.portUp p = true)
    (h17 : s.blk.bit (ESK_LANE p n) 17 = false) :
    ∃ t : State, exec (.laneLockLoss p n) s = .next t ∧ t.pending = s.pending ∧ t.blk.portUp p = true ∧
      t.blk.fld (ESK_LANE p n) 18 16 = 4 ∧ { t.blk with regs := s.blk.regs } = s.blk := by
  have hx : exec (.laneLockLoss p n) s = onBlk (effLaneLockLoss p n) s := rfl
  have he := effLaneLockLoss_up hp hn hu
  obtain ⟨-, -, -, u4⟩ := s.blk.laneUnlocked_spec p n
  obtain ⟨m1, m2, m3, -⟩ := s.blk.laneLost_spec p n
  rw [Block.laneFails_eq, u4, h17] at he
  obtain ⟨b, hb⟩ : ∃ b, b = (s.blk.laneUnlocked p n).laneMarked p n := ⟨_, rfl⟩
  rw [← hb] at he m1 m2 m3
  have hst : ESK_STATE p ≠ ESK_LANE p n := (lane_ne_ESK p n (k := 0) (by omega)).symm
  exact ⟨{ s with blk := b }, hx.trans (onBlk_next_of_eq he (congrArg (fun x : Block => x.trust.fuses) m1 :)
    (congrArg (fun x : Block => x.ice.perm) m1 :)), rfl, (Block.portUp_congr (m2 _ hst)).trans hu, m3, m1⟩

/-! ### A window of errors -/

/-- What the failures of lanes leave as it is: the counts of the window, partitions and bundles. -/
structure Block.countsKept (t s : Block) (p : Nat) : Prop where
  counts : ∀ n < 9, t.fld (ESK_LANE p n) 15 0 = s.fld (ESK_LANE p n) 15 0
  parts : t.parts = s.parts
  bundles : t.bundles = s.bundles

theorem Block.countsKept.trans {s t u : Block} {p : Nat} (h : u.countsKept t p) (h' : t.countsKept s p) : u.countsKept s p :=
  ⟨fun n hn => (h.counts n hn).trans (h'.counts n hn), h.parts.trans h'.parts, h.bundles.trans h'.bundles⟩

theorem Block.laneMarked_countsKept (s : Block) (p n : Nat) : (s.laneMarked p n).countsKept s p := by
  obtain ⟨h1, h2, -, -, -, h6⟩ := s.laneMarked_spec p n
  refine ⟨fun m _ => ?_, (congrArg Block.parts h1 :), (congrArg Block.bundles h1 :)⟩
  by_cases hm : m = n
  · rw [hm]
    exact h6
  · rw [Block.fld, h2 _ (lane_ne_lane p hm)]
    rfl

theorem Block.spareUsed_countsKept (s : Block) (p : Nat) {n : Nat} (hn : n < 16) : (s.spareUsed p n).countsKept s p := by
  obtain ⟨h1, h2, -, -, -, -, h7⟩ := s.spareUsed_spec p hn
  obtain ⟨b, hb⟩ : ∃ b, b = s.spareUsed p n := ⟨_, rfl⟩
  rw [← hb] at h1 h2 h7 ⊢
  refine ⟨fun m _ => ?_, (congrArg Block.parts h1 :), (congrArg Block.bundles h1 :)⟩
  by_cases hm : m = 8
  · rw [hm]
    exact h7
  · rw [Block.fld, h2 _ (lane_ne_lane p hm) (lane_ne_ESK p m (k := 0) (by omega))]
    rfl

theorem Block.laneFails_countsKept (s : Block) {p n : Nat} (hp : p < 16) (hn : n < 9) : (s.laneFails p n).countsKept s p := by
  rw [Block.laneFails_eq]
  have hm := s.laneMarked_countsKept p n
  obtain ⟨b, hb⟩ : ∃ b, b = s.laneMarked p n := ⟨_, rfl⟩
  rw [← hb] at hm ⊢
  split
  · exact hm
  · split
    · have hs := b.spareUsed_countsKept p (n := n) (by omega)
      refine Block.countsKept.trans ⟨fun m h => ?_, Block.event_parts .., Block.event_bundles ..⟩ (hs.trans hm)
      exact congrArg (fun w : Word => w.fld 15 0) (Block.rg_event _ _ _ _ (ESK_offMail (k := 0x100 + 4 * m) hp (by omega)).2.1)
    · have hf := b.portDown_fell hp (cause := 6) (by omega)
      exact Block.countsKept.trans ⟨fun m h => (hf.lane h).2.2, hf.parts, hf.bundles⟩ hm

/-- The lanes of a window that fail, one after another. -/
def Block.lanesFail (s : Block) (p : Nat) (l : List Nat) : Block := s.each l fun s n => if s.portUp p then s.laneFails p n else s

theorem Block.lanesFail_countsKept {p : Nat} (hp : p < 16) (l : List Nat) (hl : ∀ n ∈ l, n < 9) (s : Block) :
    (s.lanesFail p l).countsKept s p := by
  induction l generalizing s with
  | nil => exact ⟨fun _ _ => rfl, rfl, rfl⟩
  | cons n l ih =>
    have h1 : (if s.portUp p then s.laneFails p n else s).countsKept s p := by
      split
      · exact s.laneFails_countsKept hp (hl n List.mem_cons_self)
      · exact ⟨fun _ _ => rfl, rfl, rfl⟩
    exact (ih (fun m hm => hl m (List.mem_cons_of_mem _ hm)) _).trans h1

/-- What a window counts of a lane. -/
def laneCount (errs : List Nat) (n : Nat) : Nat := min 0xFFFF (errs.getD n 0)

/-- The counts of a window. -/
def Block.windowCounted (s : Block) (p : Nat) (errs : List Nat) : Block := loop 9 (fun n s => s.wf (ESK_LANE p n) 15 0 (laneCount errs n)) s

theorem Block.windowCounted_spec (s : Block) (p : Nat) (errs : List Nat) : { s.windowCounted p errs with regs := s.regs } = s ∧
    ∀ n < 9, (s.windowCounted p errs).fld (ESK_LANE p n) 15 0 = laneCount errs n := by
  unfold Block.windowCounted Block.fld
  refine ⟨laneLoop_frame s p 15 0 (laneCount errs), fun n hn => ?_⟩
  rw [rg_laneLoop s p 15 0 (laneCount errs) hn, Word.fld_setFld_same _ _ (by omega) (by omega)]
  have h : laneCount errs n ≤ 0xFFFF := Nat.min_le_left ..
  exact Nat.mod_eq_of_lt (Nat.lt_of_le_of_lt h (by decide))

/-- The lanes that a window finds failed. -/
def Block.worstLanes (s : Block) (p : Nat) (errs : List Nat) : List Nat :=
  (List.range 9).filter fun n => s.bit (ESK_LANE p n) 17 && decide ((s.port p).laneMax < errs.getD n 0)

theorem effLaneErrorWindow_up {p : Nat} {s : Block} (errs : List Nat) (hp : p < 16) (hu : s.portUp p = true) :
    effLaneErrorWindow p errs s = (s.windowCounted p errs).lanesFail p ((s.windowCounted p errs).worstLanes p errs) := by
  unfold effLaneErrorWindow
  rw [portOk_of_lt hp, hu]
  rfl

theorem laneErrorWindow_counts (s : State) (p : Nat) (errs : List Nat) (hp : p < 16) (hu : s.blk.portUp p = true) :
    ∃ t : State, exec (.laneErrorWindow p errs) s = .next t ∧ t.pending = s.pending ∧
      (∀ n, n < 9 → t.blk.fld (ESK_LANE p n) 15 0 = min 0xFFFF (errs.getD n 0)) ∧ t.blk.parts = s.blk.parts ∧
      t.blk.bundles = s.blk.bundles := by
  have hx : exec (.laneErrorWindow p errs) s = onBlk (effLaneErrorWindow p errs) s := rfl
  have he := effLaneErrorWindow_up errs hp hu
  obtain ⟨hf, hl⟩ := s.blk.windowCounted_spec p errs
  obtain ⟨b, hb⟩ : ∃ b, b = s.blk.windowCounted p errs := ⟨_, rfl⟩
  rw [← hb] at he hf hl
  have hk := b.lanesFail_countsKept hp (b.worstLanes p errs) fun n hn => List.mem_range.1 (List.mem_filter.1 hn).1
  obtain ⟨t, ht, hpend, htb⟩ := onBlk_lasting_next (effLaneErrorWindow p errs) s
  rw [he] at htb
  have hrt : ∀ a, t.blk.rg a = (b.lanesFail p (b.worstLanes p errs)).rg a := fun a => htb ▸ Block.rg_lasting s.blk _ a
  refine ⟨t, hx.trans ht, hpend, fun n hn => ?_, ?_, ?_⟩
  · rw [Block.fld, hrt]
    exact (hk.counts n hn).trans (hl n hn)
  · rw [htb, Block.lasting_parts, hk.parts]
    exact (congrArg Block.parts hf :)
  · rw [htb, Block.lasting_bundles, hk.bundles]
    exact (congrArg Block.bundles hf :)

theorem laneErrorWindow_idle (s : State) (p : Nat) (errs : List Nat) (hu : s.blk.portUp p = false) :
    exec (.laneErrorWindow p errs) s = .next s := by
  have hx : exec (.laneErrorWindow p errs) s = onBlk (effLaneErrorWindow p errs) s := rfl
  refine hx.trans (onBlk_idle ?_)
  unfold effLaneErrorWindow
  rw [hu, Bool.and_false]
  rfl

/-- Settles O36: a port that falls keeps its head through what goes with it (`portDown_fell`); a lane that fails takes the spare,
or the port with it. -/
theorem portsAndLanesFail : Obligations.PortsAndLanesFail := by
  unfold Obligations.PortsAndLanesFail
  exact ⟨lossOfSignal_falls, lossOfSignal_idle, keepaliveTimeout_falls, keepaliveTimeout_idle, laneLockLoss_spared, laneLockLoss_falls,
    laneLockLoss_unused, laneErrorWindow_counts, laneErrorWindow_idle⟩

end Machine
end Sys2Proof
end

section
/-! Flits received by a running port (R349, R350, R369). -/

namespace Sys2Proof.Machine

/-! ### What the sending of packets leaves as it is -/

/-- What the sending of packets leaves as it is: objects, jobs, and every ledger's total and equation. -/
structure Block.pumped (t s : Block) : Prop where
  objs : t.objs = s.objs
  jobs : t.jobs = s.jobs
  total : ∀ n, (t.ledger n).total = (s.ledger n).total
  ok : ∀ n, (s.ledger n).ok = true → (t.ledger n).ok = true

theorem Block.pumped.refl (s : Block) : s.pumped s := ⟨rfl, rfl, fun _ => rfl, fun _ h => h⟩

theorem Block.pumped.trans {s t u : Block} (h : u.pumped t) (h' : t.pumped s) : u.pumped s :=
  ⟨h.objs.trans h'.objs, h.jobs.trans h'.jobs, fun n => (h.total n).trans (h'.total n), fun n hn => h.ok n (h'.ok n hn)⟩

theorem Block.pumped_of {s t : Block} (h1 : t.objs = s.objs) (h2 : t.jobs = s.jobs) (h3 : t.led = s.led) : t.pumped s := by
  have h : ∀ n, t.ledger n = s.ledger n := fun n => congrArg (fun x => tget (ledgerReset n) x n) h3
  exact ⟨h1, h2, fun n => by rw [h], fun n hn => by rw [h]; exact hn⟩

theorem Ledger.move_total {l x : Ledger} {m : LedgerMove} (h : l.move m = some x) (hm : m.total = 0) : x.total = l.total ∧ x.ok = true := by
  unfold Ledger.move at h
  simp only [] at h
  split at h
  · rename_i hc
    obtain ⟨h1, h2, h3, h4, h5⟩ := hc
    obtain rfl := Option.some.inj h
    rw [hm] at h4 h5
    refine ⟨by simp [hm], ?_⟩
    unfold Ledger.ok
    rw [hm]
    simp only [beq_iff_eq]
    omega
  · cases h

theorem Block.led1_pumped (s : Block) (n : Nat) {m : LedgerMove} (hm : m.total = 0) : (s.led1 n m).pumped s := by
  cases h : (s.ledger n).move m with
  | none =>
    have he : s.led1 n m = s.raiseBreach n 0 [wOfInt m.free, wOfInt m.held] := by
      unfold Block.led1
      rw [h]
    exact Block.pumped_of (Block.led1_objs ..) (Block.led1_jobs ..) (he ▸ Block.raiseBreach_led ..)
  | some x =>
    obtain ⟨ht, hk⟩ := Ledger.move_total h hm
    refine ⟨Block.led1_objs .., Block.led1_jobs .., fun k => ?_, fun k hk' => ?_⟩
    · by_cases hkn : k = n
      · rw [hkn, Block.ledger_led1_some h, ht]
      · rw [Block.ledger_led1_other s m hkn]
    · by_cases hkn : k = n
      · rw [hkn, Block.ledger_led1_some h, hk]
      · rwa [Block.ledger_led1_other s m hkn]

theorem Block.modPort_pumped (s : Block) (p : Nat) (f : Port → Port) : (s.modPort p f).pumped s := Block.pumped_of rfl rfl rfl

theorem Block.bumpPair_pumped (s : Block) (a n : Nat) : (s.bumpPair a n).pumped s := Block.pumped_of rfl rfl rfl

theorem Block.sendNow_pumped (s : Block) (p : Nat) (q : Queued) : (s.sendNow p q).pumped s ∧ (s.sendNow p q).esk.ports = s.esk.ports := by
  unfold Block.sendNow
  extract_lets n s1 e s2
  have h1 : s1.pumped s := (Block.bumpPair_pumped ..).trans ((Block.led1_pumped _ _ rfl).trans (Block.led1_pumped _ _ rfl))
  have h2 : s1.esk = s.esk := by simp [s1]
  clear_value s1
  have h3 : s2.pumped s := Block.pumped.trans (t := s1) (Block.pumped_of rfl rfl rfl) h1
  split
  · exact ⟨Block.pumped.trans (t := s2) (Block.pumped_of rfl rfl rfl) h3, (congrArg Esker.ports h2 :)⟩
  · exact ⟨h3, (congrArg Esker.ports h2 :)⟩

theorem Block.port_of_ports {s t : Block} (h : t.esk.ports = s.esk.ports) (p : Nat) : t.port p = s.port p := by
  unfold Block.port
  rw [h]

theorem Block.pumpFrom_pumped (p : Nat) (l kept : List Queued) (s : Block) : (s.pumpFrom p l kept).pumped s ∧
    ∀ q, q ≠ p → (s.pumpFrom p l kept).port q = s.port q := by
  induction l generalizing s kept with
  | nil => exact ⟨s.modPort_pumped p _, fun q hq => Block.port_modPort_other _ _ hq⟩
  | cons x l ih =>
    unfold Block.pumpFrom
    split
    · obtain ⟨h1, h2⟩ := s.sendNow_pumped p x
      obtain ⟨i1, i2⟩ := ih kept (s.sendNow p x)
      exact ⟨i1.trans h1, fun q hq => (i2 q hq).trans (Block.port_of_ports h2 q)⟩
    · exact ih _ s

theorem Block.pump_pumped (s : Block) (p : Nat) : (s.pump p).pumped s ∧ ∀ q, q ≠ p → (s.pump p).port q = s.port q :=
  Block.pumpFrom_pumped ..

theorem Block.pumpAll_pumped (s : Block) : s.pumpAll.pumped s := by
  unfold Block.pumpAll Block.each
  induction List.range 16 generalizing s with
  | nil => exact Block.pumped.refl s
  | cons p l ih => exact (ih _).trans (s.pump_pumped p).1

/-! ### The trailer of a flit -/

/-- The port after an accepted flit. -/
def Block.flitTaken (s : Block) (fl : Flit) (x : Port) : Port :=
  { x with rxSeq := (x.rxSeq + 1) % 1024, lastRx := s.now, tagFails := 0,
           replays := if fl.ack = x.acked then x.replays else 0, acked := fl.ack,
           recvSlot := if fl.ctrl = .keySwitch then 1 - x.recvSlot else x.recvSlot }

theorem Block.trailer_eq (s : Block) (p : Nat) (fl : Flit) : s.trailer p fl =
    (if fl.crN = 0 then s.modPort p (s.flitTaken fl) else (s.modPort p (s.flitTaken fl)).ledLand (creditLedger p fl.crVc) fl.crN).pump p := rfl

theorem Block.trailer_spec (s : Block) (p : Nat) (fl : Flit) :
    (s.trailer p fl).still true = (s.modPort p (s.flitTaken fl)).still true ∧ (s.trailer p fl).pumped s ∧
    ∀ q, q ≠ p → (s.trailer p fl).port q = s.port q := by
  rw [Block.trailer_eq]
  have h0 := s.modPort_pumped p (s.flitTaken fl)
  have h1 : ∀ q, q ≠ p → (s.modPort p (s.flitTaken fl)).port q = s.port q := fun q hq => Block.port_modPort_other _ _ hq
  obtain ⟨b, hb⟩ : ∃ b, b = s.modPort p (s.flitTaken fl) := ⟨_, rfl⟩
  rw [← hb] at h0 h1 ⊢
  split
  · exact ⟨Block.pump_still .., (b.pump_pumped p).1.trans h0, fun q hq => ((b.pump_pumped p).2 q hq).trans (h1 q hq)⟩
  · have hl : (b.ledLand (creditLedger p fl.crVc) fl.crN).pumped b := Block.led1_pumped _ _ rfl
    have hp : (b.ledLand (creditLedger p fl.crVc) fl.crN).esk = b.esk := Block.ledLand_esk ..
    have hs : (b.ledLand (creditLedger p fl.crVc) fl.crN).still true = b.still true := Block.led1_still ..
    obtain ⟨c, hc⟩ : ∃ c, c = b.ledLand (creditLedger p fl.crVc) fl.crN := ⟨_, rfl⟩
    rw [← hc] at hl hp hs ⊢
    exact ⟨(Block.pump_still ..).trans hs, ((c.pump_pumped p).1.trans hl).trans h0,
      fun q hq => ((c.pump_pumped p).2 q hq).trans ((Block.port_congr hp q).trans (h1 q hq))⟩

/-- The port that a trailer leaves, beside its queue. -/
theorem Block.trailer_port (s : Block) (p : Nat) (fl : Flit) :
    { (s.trailer p fl).port p with queue := [] } = { s.flitTaken fl (s.port p) with queue := [] } := by
  have h := Block.port_of_still (s.trailer_spec p fl).1 p
  rwa [Block.port_modPort_same] at h

theorem Block.rg_trailer (s : Block) {p k : Nat} (fl : Flit) (hp : p < 16) (hk : k < 0x200) :
    (s.trailer p fl).rg (ESK p k) = s.rg (ESK p k) :=
  (Block.rg_of_still (s.trailer_spec p fl).1 (stillReg_ESK_low hp hk)).trans rfl

theorem Block.trailer_parts (s : Block) (p : Nat) (fl : Flit) : (s.trailer p fl).parts = s.parts :=
  (Block.parts_of_still (s.trailer_spec p fl).1).trans rfl

/-! ### The cases of a flit -/

theorem effFlitReceive_up {p : Nat} {fl : Flit} {s : Block} (hp : p < 16) (hu : s.portUp p = true) :
    effFlitReceive p fl s = flitEffect p fl s := by
  rw [effFlitReceive, portOk_of_lt hp, hu]
  rfl

/-- A flit in order whose tag holds. -/
theorem flitEffect_taken {p : Nat} {fl : Flit} {s : Block} (hc : fl.checkOk = true) (hq : fl.fseq % 1024 = (s.port p).rxSeq)
    (ht : s.bit (ESK_STATE p) 10 = false ∨ fl.tagOk = true) : flitEffect p fl s =
      if fl.ctrl = .stop then (s.trailer p fl).portDown p 3 else if fl.nak then (s.trailer p fl).nakTaken p else s.trailer p fl := by
  have h1 : (!fl.checkOk || fl.fseq % 1024 != (s.port p).rxSeq) = false := by simp [hc, hq]
  have h2 : (s.bit (ESK_STATE p) 10 && !fl.tagOk) = false := by
    obtain h | h := ht <;> simp [h]
  unfold flitEffect
  simp only [h1, h2]
  rfl

theorem flitReceive_discards (s : State) (p : Nat) (f : Flit) (h : f.checkOk = false ∨ f.fseq % 1024 ≠ (s.blk.port p).rxSeq) :
    exec (.flitReceive p f) s = .next s := by
  have hx : exec (.flitReceive p f) s = onBlk (effFlitReceive p f) s := rfl
  refine hx.trans (onBlk_idle ?_)
  have h1 : (!f.checkOk || f.fseq % 1024 != (s.blk.port p).rxSeq) = true := by
    obtain h | h := h <;> simp [h]
  unfold effFlitReceive flitEffect
  simp only [h1, if_true, ite_self]

theorem flitReceive_accepts (s : State) (p : Nat) (f : Flit) (hp : p < 16) (hu : s.blk.portUp p = true) (hc : f.checkOk = true)
    (hq : f.fseq % 1024 = (s.blk.port p).rxSeq) (ht : s.blk.bit (ESK_STATE p) 10 = false ∨ f.tagOk = true) (hs : f.ctrl ≠ .stop)
    (hn : f.nak = false) :
    ∃ t : State, exec (.flitReceive p f) s = .next t ∧ t.pending = s.pending ∧ t.blk.portUp p = true ∧
      (t.blk.port p).rxSeq = ((s.blk.port p).rxSeq + 1) % 1024 ∧ (t.blk.port p).acked = f.ack ∧ (t.blk.port p).lastRx = s.blk.now ∧
      (t.blk.port p).recvSlot = (if f.ctrl = .keySwitch then 1 - (s.blk.port p).recvSlot else (s.blk.port p).recvSlot) ∧
      (∀ q, q ≠ p → t.blk.port q = s.blk.port q) ∧ t.blk.objs = s.blk.objs ∧ t.blk.jobs = s.blk.jobs := by
  have hx : exec (.flitReceive p f) s = onBlk (effFlitReceive p f) s := rfl
  have he : effFlitReceive p f s.blk = s.blk.trailer p f := by
    rw [effFlitReceive_up hp hu, flitEffect_taken hc hq ht, if_neg hs, hn]
    rfl
  obtain ⟨-, h2, h3⟩ := s.blk.trailer_spec p f
  have h4 := s.blk.trailer_port p f
  have h5 := s.blk.rg_trailer f (k := 0) hp (by omega)
  obtain ⟨b, hb⟩ : ∃ b, b = s.blk.trailer p f := ⟨_, rfl⟩
  rw [← hb] at he h2 h3 h4 h5
  obtain ⟨t, ht', hpend, htb⟩ := onBlk_lasting_next (effFlitReceive p f) s
  rw [he] at htb
  have hport : ∀ q, t.blk.port q = b.port q := fun q => Block.port_congr (htb ▸ Block.lasting_esk ..) q
  rw [← hport] at h4
  refine ⟨t, hx.trans ht', hpend, ?_, (congrArg Port.rxSeq h4 :), (congrArg Port.acked h4 :), (congrArg Port.lastRx h4 :),
    (congrArg Port.recvSlot h4 :), fun q hq => (hport q).trans (h3 q hq), ?_, ?_⟩
  · refine (Block.portUp_congr ?_).trans hu
    rw [htb, Block.rg_lasting]
    exact h5
  · rw [htb, Block.lasting_objs, h2.objs]
  · rw [htb, Block.lasting_jobs, h2.jobs]

theorem flitReceive_tagFails (s : State) (p : Nat) (f : Flit) (hp : p < 16) (hu : s.blk.portUp p = true) (hc : f.checkOk = true)
    (hq : f.fseq % 1024 = (s.blk.port p).rxSeq) (he : s.blk.bit (ESK_STATE p) 10 = true) (ht : f.tagOk = false)
    (hm : (s.blk.port p).tagFails + 1 < max 1 (s.blk.fld (ESK_CFG p) 7 4)) :
    ∃ t : State, exec (.flitReceive p f) s = .next t ∧ t.pending = s.pending ∧ t.blk.portUp p = true ∧
      t.blk.port p = { s.blk.port p with tagFails := (s.blk.port p).tagFails + 1 } ∧
      t.blk.regs = (s.blk.bump (ESK_CNT_GCM_FAIL p)).regs ∧ { t.blk with regs := s.blk.regs, esk := s.blk.esk } = s.blk := by
  have hx : exec (.flitReceive p f) s = onBlk (effFlitReceive p f) s := rfl
  have hne : ∀ k, k < 0x200 → ESK p k ≠ ESK_CNT_GCM_FAIL p := by
    intro k hk
    have e : ESK p k = 0x00800000 + p * 0x80000 + k := rfl
    have e' : ESK_CNT_GCM_FAIL p = 0x00800000 + p * 0x80000 + 0x214 := rfl
    omega
  have hb1 : ∀ k, k < 0x200 → (s.blk.bump (ESK_CNT_GCM_FAIL p)).rg (ESK p k) = s.blk.rg (ESK p k) := fun k hk =>
    Block.rg_bump_other _ _ (hne k hk)
  have hb2 : { s.blk.bump (ESK_CNT_GCM_FAIL p) with regs := s.blk.regs } = s.blk := by simp [Block.bump]
  obtain ⟨b, hb⟩ : ∃ b, b = s.blk.bump (ESK_CNT_GCM_FAIL p) := ⟨_, rfl⟩
  rw [← hb] at hb1 hb2 ⊢
  have hport : b.port p = s.blk.port p := Block.port_congr (congrArg Block.esk hb2 :) p
  have hfld : b.fld (ESK_CFG p) 7 4 = s.blk.fld (ESK_CFG p) 7 4 := (congrArg (fun w : Word => w.fld 7 4) (hb1 4 (by omega)) :)
  have hup : b.portUp p = s.blk.portUp p := Block.portUp_congr (hb1 0 (by omega))
  have hlim : ¬ max 1 ((b.modPort p fun x => { x with tagFails := x.tagFails + 1 }).fld (ESK_CFG p) 7 4) ≤
      ((b.modPort p fun x => { x with tagFails := x.tagFails + 1 }).port p).tagFails := by
    rw [Block.port_modPort_same, hport, show (b.modPort p fun x => { x with tagFails := x.tagFails + 1 }).fld (ESK_CFG p) 7 4
      = b.fld (ESK_CFG p) 7 4 from rfl, hfld]
    exact Nat.not_le.2 hm
  have he' : effFlitReceive p f s.blk = b.modPort p fun x => { x with tagFails := x.tagFails + 1 } := by
    have h1 : (!f.checkOk || f.fseq % 1024 != (s.blk.port p).rxSeq) = false := by simp [hc, hq]
    have h2 : (s.blk.bit (ESK_STATE p) 10 && !f.tagOk) = true := by simp [he, ht]
    rw [effFlitReceive_up hp hu]
    unfold flitEffect
    simp only [h1, h2]
    unfold Block.tagFailed
    rw [← hb]
    exact if_neg hlim
  refine ⟨{ s with blk := b.modPort p fun x => { x with tagFails := x.tagFails + 1 } }, hx.trans (onBlk_next_of_eq he' ?_ ?_), rfl,
    hup.trans hu, ?_, rfl, ?_⟩
  · exact (congrArg (fun x : Block => x.trust.fuses) hb2 :)
  · exact (congrArg (fun x : Block => x.ice.perm) hb2 :)
  · exact (Block.port_modPort_same ..).trans (by rw [hport])
  · exact (congrArg (fun x : Block => { x with esk := s.blk.esk }) hb2 :)

theorem flitReceive_stops (s : State) (p : Nat) (f : Flit) (hp : p < 16) (hu : s.blk.portUp p = true) (hc : f.checkOk = true)
    (hq : f.fseq % 1024 = (s.blk.port p).rxSeq) (ht : s.blk.bit (ESK_STATE p) 10 = false ∨ f.tagOk = true) (hs : f.ctrl = .stop) :
    ∃ t : State, exec (.flitReceive p f) s = .next t ∧ t.pending = s.pending ∧ t.blk.portState p = 0 ∧
      t.blk.fld (ESK_STATE p) 9 7 = 3 ∧ t.blk.parts = s.blk.parts := by
  have hx : exec (.flitReceive p f) s = onBlk (effFlitReceive p f) s := rfl
  have he : effFlitReceive p f s.blk = (s.blk.trailer p f).portDown p 3 := by
    rw [effFlitReceive_up hp hu, flitEffect_taken hc hq ht, if_pos hs]
  have h2 := s.blk.trailer_parts p f
  obtain ⟨b, hb⟩ : ∃ b, b = s.blk.trailer p f := ⟨_, rfl⟩
  rw [← hb] at he h2
  have hf : (effFlitReceive p f s.blk).portFell b p 3 := he ▸ b.portDown_fell hp (by omega)
  obtain ⟨t, ht', hpend, h⟩ := onBlk_portFell hf
  exact ⟨t, hx.trans ht', hpend, h.state, h.why, h.parts.trans h2⟩

/-- A port that counted a replay. -/
def Block.replayed (s : Block) (p : Nat) : Block := (s.bump (ESK_CNT_RETRY p)).modPort p fun x => { x with replays := x.replays + 1 }

theorem Block.nakTaken_eq (s : Block) (p : Nat) : s.nakTaken p =
    if max 1 ((s.replayed p).fld (ESK_CFG p) 7 4) ≤ ((s.replayed p).port p).replays then (s.replayed p).portDown p 4 else s.replayed p := rfl

theorem Block.replayed_spec (s : Block) (p : Nat) : (s.replayed p).fld (ESK_CFG p) 7 4 = s.fld (ESK_CFG p) 7 4 ∧
    ((s.replayed p).port p).replays = (s.port p).replays + 1 ∧ (s.replayed p).parts = s.parts := by
  have hne : ESK_CFG p ≠ ESK_CNT_RETRY p := by
    have e : ESK_CFG p = 0x00800000 + p * 0x80000 + 4 := rfl
    have e' : ESK_CNT_RETRY p = 0x00800000 + p * 0x80000 + 0x210 := rfl
    omega
  unfold Block.replayed
  have h1 : (s.bump (ESK_CNT_RETRY p)).rg (ESK_CFG p) = s.rg (ESK_CFG p) := Block.rg_bump_other _ _ hne
  have h2 : { s.bump (ESK_CNT_RETRY p) with regs := s.regs } = s := by simp [Block.bump]
  obtain ⟨b, hb⟩ : ∃ b, b = s.bump (ESK_CNT_RETRY p) := ⟨_, rfl⟩
  rw [← hb] at h1 h2 ⊢
  have hport : b.port p = s.port p := Block.port_congr (congrArg Block.esk h2 :) p
  refine ⟨(congrArg (fun w : Word => w.fld 7 4) h1 :), ?_, (congrArg Block.parts h2 :)⟩
  rw [Block.port_modPort_same, hport]

theorem flitReceive_nak (s : State) (p : Nat) (f : Flit) (hp : p < 16) (hu : s.blk.portUp p = true) (hc : f.checkOk = true)
    (hq : f.fseq % 1024 = (s.blk.port p).rxSeq) (ht : s.blk.bit (ESK_STATE p) 10 = false ∨ f.tagOk = true) (hs : f.ctrl ≠ .stop)
    (hn : f.nak = true) (ha : f.ack = (s.blk.port p).acked) (hm : max 1 (s.blk.fld (ESK_CFG p) 7 4) ≤ (s.blk.port p).replays + 1) :
    ∃ t : State, exec (.flitReceive p f) s = .next t ∧ t.pending = s.pending ∧ t.blk.portState p = 0 ∧
      t.blk.fld (ESK_STATE p) 9 7 = 4 ∧ t.blk.parts = s.blk.parts := by
  have hx : exec (.flitReceive p f) s = onBlk (effFlitReceive p f) s := rfl
  have he : effFlitReceive p f s.blk = (s.blk.trailer p f).nakTaken p := by
    rw [effFlitReceive_up hp hu, flitEffect_taken hc hq ht, if_neg hs, hn, if_pos rfl]
  have h2 := s.blk.trailer_parts p f
  have h3 : ((s.blk.trailer p f).port p).replays = (s.blk.port p).replays :=
    (congrArg Port.replays (s.blk.trailer_port p f) :).trans (if_pos ha)
  have h4 : (s.blk.trailer p f).fld (ESK_CFG p) 7 4 = s.blk.fld (ESK_CFG p) 7 4 :=
    (congrArg (fun w : Word => w.fld 7 4) (s.blk.rg_trailer f (k := 4) hp (by omega)) :)
  obtain ⟨b, hb⟩ : ∃ b, b = s.blk.trailer p f := ⟨_, rfl⟩
  rw [← hb] at he h2 h3 h4
  obtain ⟨r1, r2, r3⟩ := b.replayed_spec p
  rw [Block.nakTaken_eq, r1, r2, h3, h4, if_pos hm] at he
  obtain ⟨c, hcc⟩ : ∃ c, c = b.replayed p := ⟨_, rfl⟩
  rw [← hcc] at he r3
  have hf : (effFlitReceive p f s.blk).portFell c p 4 := he ▸ c.portDown_fell hp (by omega)
  obtain ⟨t, ht', hpend, h⟩ := onBlk_portFell hf
  exact ⟨t, hx.trans ht', hpend, h.state, h.why, h.parts.trans (r3.trans h2)⟩

/-- Settles O37: an accepted flit acts by its trailer alone (`trailer_spec`), and the port falls by a stop or by too many replays. -/
theorem flitsReceived : Obligations.FlitsReceived := by
  unfold Obligations.FlitsReceived
  exact ⟨flitReceive_discards, flitReceive_accepts, flitReceive_tagFails, flitReceive_stops, flitReceive_nak⟩

end Sys2Proof.Machine
end

section
/-! Esker ports start, train, wait to train again, and stop (R351, R353, R354). -/

namespace Sys2Proof.Machine

/-! ### The messages -/

/-- The answer to ESK_PORT. -/
def portAnswer (start : Bool) (ch : Chan) (s : Block) (ws : List Word) : Answer :=
  s.fabric ch <|
    let p := (mreg ws 1).toNat
    if 15 < p then s.no badFabric
    else if start then
      let r := s.startPort p
      r.2.no r.1
    else (s.stopPort p).yes

theorem portAnswer_start {s : Block} {ch : Chan} {ws : List Word} (hc : chFn ch = 0 ∨ chFn ch = 64) (hp : (mreg ws 1).toNat ≤ 15) :
    portAnswer true ch s ws = (s.startPort (mreg ws 1).toNat).2.no (s.startPort (mreg ws 1).toNat).1 := by
  unfold portAnswer Block.fabric
  rw [if_pos hc]
  exact if_neg (by omega)

theorem portAnswer_stop {s : Block} {ch : Chan} {ws : List Word} (hc : chFn ch = 0 ∨ chFn ch = 64) (hp : (mreg ws 1).toNat ≤ 15) :
    portAnswer false ch s ws = (s.stopPort (mreg ws 1).toNat).yes := by
  unfold portAnswer Block.fabric
  rw [if_pos hc]
  exact if_neg (by omega)

theorem exec_eskPortStart {s : State} {ch : Chan} (h : (mreg (s.blk.msgWords ch) 2).bit 0 = true) :
    exec (.eskPortStart ch) s = onBlk (fun b => b.message ch 0x0804 (portAnswer true ch)) s := by
  have hx : exec (.eskPortStart ch) s =
    onBlk (fun b => b.messageWhen ch 0x0804 (fun ws => (mreg ws 2).bit 0 == true) (portAnswer true ch)) s := rfl
  exact hx.trans (onBlk_messageWhen _ _ (by simp [h]))

theorem exec_eskPortStop {s : State} {ch : Chan} (h : (mreg (s.blk.msgWords ch) 2).bit 0 = false) :
    exec (.eskPortStop ch) s = onBlk (fun b => b.message ch 0x0804 (portAnswer false ch)) s := by
  have hx : exec (.eskPortStop ch) s =
    onBlk (fun b => b.messageWhen ch 0x0804 (fun ws => (mreg ws 2).bit 0 == false) (portAnswer false ch)) s := rfl
  exact hx.trans (onBlk_messageWhen _ _ (by simp [h]))

theorem Block.rg_msgTaken_ESK (s : Block) (ch : Chan) {p k : Nat} (hp : p < 16) (hk : k < 0x80000) :
    (s.msgTaken ch).rg (ESK p k) = s.rg (ESK p k) := by
  obtain ⟨h1, h2, h3⟩ := ESK_offMail hp hk
  exact Block.rg_msgTaken_offMail _ _ h1 h2 h3

theorem Block.rg_reply_ESK (s : Block) (ch : Chan) (ws : List Word) {p k : Nat} (hp : p < 16) (hk : k < 0x80000) :
    (s.reply ch ws).rg (ESK p k) = s.rg (ESK p k) := by
  obtain ⟨h1, h2, h3⟩ := ESK_offMail hp hk
  exact Block.rg_reply_offMail _ _ _ h1 h2 h3

theorem Block.portState_congr {s t : Block} {p : Nat} (h : t.rg (ESK_STATE p) = s.rg (ESK_STATE p)) : t.portState p = s.portState p :=
  (congrArg (fun w : Word => w.fld 1 0) h :)

theorem chBack_outside_port (ch : Chan) {p k : Nat} (hp : p < 16) (hk : k < 0x100) :
    chBack ch + k < ESK p 0 ∨ ESK p 0x80000 ≤ chBack ch + k := by
  by_contra h
  have e : ESK p 0 = 0x00800000 + p * 0x80000 + 0 := rfl
  have e' : ESK p 0x80000 = 0x00800000 + p * 0x80000 + 0x80000 := rfl
  have ho : offMail (chBack ch + k) := Or.inr (by omega)
  exact chBack_ne_of_offMail ch ho hk rfl

/-- A message that changes one port. -/
theorem exec_portAnswer {s : State} {ch : Chan} {type st : Nat} {h : Block → List Word → Answer} {b : Block}
    (hd : s.blk.delivers ch type) (hb : s.blk.backFree ch)
    (ha : h (s.blk.msgTaken ch) (s.blk.msgWords ch) = { status := st, regs := [], blk := b })
    (hr : b.rg (chBack ch + 0x44) = (s.blk.msgTaken ch).rg (chBack ch + 0x44))
    (hk : { b with regs := s.blk.regs, esk := s.blk.esk } = { s.blk.msgTaken ch with regs := s.blk.regs, esk := s.blk.esk }) :
    ∃ t : State, onBlk (fun b => b.message ch type h) s = .next t ∧ t.pending = s.pending ∧ t.blk.repliedTo s.blk ch st ∧
      { t.blk.mailBack s.blk with esk := s.blk.esk } = s.blk ∧ t.blk.esk = b.esk ∧
      ∀ p k, p < 16 → k < 0x80000 → t.blk.rg (ESK p k) = b.rg (ESK p k) := by
  have hf : (s.blk.msgTaken ch).trust.fuses = s.blk.trust.fuses := by simp
  have hi : (s.blk.msgTaken ch).ice.perm = s.blk.ice.perm := by simp
  obtain ⟨t, hx, hp, hrep, -, ht⟩ := exec_answer hd hb ha hr (congrArg Block.mbx hk :)
    ((congrArg (fun x : Block => x.trust.fuses) hk :).trans hf) ((congrArg (fun x : Block => x.ice.perm) hk :).trans hi)
  refine ⟨t, hx, hp, hrep, ?_, ht ▸ Block.reply_esk .., fun p k h1 h2 => ht ▸ Block.rg_reply_ESK _ _ _ h1 h2⟩
  rw [ht, Block.mailBack_reply]
  have h1 : { b.mailBack s.blk with esk := s.blk.esk } = { (s.blk.msgTaken ch).mailBack s.blk with esk := s.blk.esk } :=
    (congrArg (fun x : Block => x.mailBack s.blk) hk :)
  rw [h1, Block.mailBack_msgTaken]
  rfl

theorem eskPortStart_trains (s : State) (ch : Chan) (p : Nat) (hd : s.blk.delivers ch 0x0804) (hb : s.blk.backFree ch)
    (hc : chFn ch = 0 ∨ chFn ch = 64) (hp : p = (mreg (s.blk.msgWords ch) 1).toNat) (h15 : p ≤ 15)
    (h0 : (mreg (s.blk.msgWords ch) 2).bit 0 = true) (hst : s.blk.portState p = 0) :
    ∃ t : State, exec (.eskPortStart ch) s = .next t ∧ t.pending = s.pending ∧ t.blk.repliedTo s.blk ch OK ∧ t.blk.portState p = 1 ∧
      (∀ n, n < 9 → t.blk.fld (ESK_LANE p n) 18 16 = 0) ∧
      t.blk.port p = { s.blk.port p with retrain := false, laneMax := s.blk.fld (ESK_LANE_CFG p) 15 0, encReq := s.blk.bit (ESK_CFG p) 9 } ∧
      (∀ q, q ≠ p → t.blk.port q = s.blk.port q) ∧ { t.blk.mailBack s.blk with esk := s.blk.esk } = s.blk := by
  have hp16 : p < 16 := by omega
  have hrg := fun k hk => s.blk.rg_msgTaken_ESK ch (k := k) hp16 hk
  have hst' : (s.blk.msgTaken ch).portState p = 0 := (Block.portState_congr (hrg 0 (by omega))).trans hst
  have ha := portAnswer_start (s := s.blk.msgTaken ch) hc (hp ▸ h15)
  rw [← hp, Block.startPort, hst'] at ha
  obtain ⟨t1, t2, t3⟩ := (s.blk.msgTaken ch).trainPort_trained p
  obtain ⟨p1, p2, p3⟩ := (s.blk.msgTaken ch).trainPort_port p
  have hesk := Block.port_congr (Block.msgTaken_esk s.blk ch)
  have hcfg : (s.blk.msgTaken ch).fld (ESK_LANE_CFG p) 15 0 = s.blk.fld (ESK_LANE_CFG p) 15 0 :=
    (congrArg (fun w : Word => w.fld 15 0) (hrg 8 (by omega)) :)
  have hcf : (s.blk.msgTaken ch).bit (ESK_CFG p) 9 = s.blk.bit (ESK_CFG p) 9 := (congrArg (fun w : Word => w.bit 9) (hrg 4 (by omega)) :)
  rw [hesk, hcfg, hcf] at p1
  obtain ⟨b, hbb⟩ : ∃ b, b = (s.blk.msgTaken ch).trainPort p := ⟨_, rfl⟩
  rw [← hbb] at t1 t2 t3 p1 p2 p3
  have ha' : portAnswer true ch (s.blk.msgTaken ch) (s.blk.msgWords ch) = { status := OK, regs := [], blk := b } := by
    rw [ha, hbb]
    rfl
  obtain ⟨t, hx, hpend, hrep, hm, he, hregs⟩ := exec_portAnswer hd hb ha' (t2 _ (chBack_outside_port ch hp16 (k := 0x44) (by omega)))
    (congrArg (fun x : Block => { x with regs := s.blk.regs, esk := s.blk.esk }) t3 :)
  refine ⟨t, (exec_eskPortStart h0).trans hx, hpend, hrep, (Block.portState_congr (hregs p 0 hp16 (by omega))).trans t1, fun n hn => ?_,
    (Block.port_congr he p).trans p1, fun q hq => (Block.port_congr he q).trans ((p2 q hq).trans (hesk q)), hm⟩
  exact (congrArg (fun w : Word => w.fld 18 16) (hregs p (0x100 + 4 * n) hp16 (by omega)) :).trans (p3 n hn)

theorem eskPortStart_other (s : State) (ch : Chan) (p : Nat) (hd : s.blk.delivers ch 0x0804) (hb : s.blk.backFree ch)
    (hc : chFn ch = 0 ∨ chFn ch = 64) (hp : p = (mreg (s.blk.msgWords ch) 1).toNat) (h15 : p ≤ 15)
    (h0 : (mreg (s.blk.msgWords ch) 2).bit 0 = true) (hst : s.blk.portState p ≠ 0) :
    ∃ t : State, exec (.eskPortStart ch) s = .next t ∧ t.pending = s.pending ∧
      t.blk.repliedTo s.blk ch (if s.blk.portState p = 3 then BUSY 0xE4 else OK) ∧ t.blk.portState p = s.blk.portState p ∧
      t.blk.mailBack s.blk = s.blk := by
  have hp16 : p < 16 := by omega
  obtain ⟨o1, o2, o3⟩ := ESK_offMail (k := 0) hp16 (by omega)
  have hrg : (s.blk.msgTaken ch).rg (ESK_STATE p) = s.blk.rg (ESK_STATE p) := s.blk.rg_msgTaken_ESK ch (k := 0) hp16 (by omega)
  have hst' : (s.blk.msgTaken ch).portState p = s.blk.portState p := Block.portState_congr hrg
  have ha := portAnswer_start (s := s.blk.msgTaken ch) hc (hp ▸ h15)
  rw [← hp, Block.startPort, hst'] at ha
  by_cases h3 : s.blk.portState p = 3
  · rw [h3] at ha
    have e0 : ESK_STATE p = 0x00800000 + p * 0x80000 + 0 := rfl
    have e1 : ESK_CNT_BUSY p = ESK p 0x220 := rfl
    have e2 : MOR_CNT_FN_BUSY = 0x00000114 := rfl
    have n1 : ESK_STATE p ≠ ESK_CNT_BUSY p := (ESK_ne_STATE p (k := 0x220) (by omega)).symm
    have n2 : ESK_STATE p ≠ MOR_CNT_FN_BUSY := by omega
    have hk : ((s.blk.msgTaken ch).bump (ESK_CNT_BUSY p)).rg (chBack ch + 0x44) = (s.blk.msgTaken ch).rg (chBack ch + 0x44) :=
      Block.rg_bump_other _ _ (chBack_ne_of_offMail ch (a := ESK_CNT_BUSY p) (ESK_offMail (k := 0x220) hp16 (by omega)).1 (by omega)).symm
    have hk2 : (((s.blk.msgTaken ch).bump (ESK_CNT_BUSY p)).bump MOR_CNT_FN_BUSY).rg (chBack ch + 0x44) =
        (s.blk.msgTaken ch).rg (chBack ch + 0x44) :=
      (Block.rg_bump_other _ _ (chBack_ne_of_offMail ch (a := MOR_CNT_FN_BUSY) (by decide) (by omega)).symm).trans hk
    have hrs : (((s.blk.msgTaken ch).bump (ESK_CNT_BUSY p)).bump MOR_CNT_FN_BUSY).rg (ESK_STATE p) = (s.blk.msgTaken ch).rg (ESK_STATE p) :=
      (Block.rg_bump_other _ _ n2).trans (Block.rg_bump_other _ _ n1)
    obtain ⟨t, hx, hpend, hrep, -, hm, hregs⟩ := exec_regAnswer hd hb ha hk2 ((Block.bump_regKept ..).trans (Block.bump_regKept ..))
    refine ⟨t, (exec_eskPortStart h0).trans hx, hpend, ?_, ?_, hm⟩
    · rw [if_pos h3]
      exact hrep
    · exact Block.portState_congr ((hregs _ o1 o2 o3).trans (hrs.trans hrg))
  · have ha' : portAnswer true ch (s.blk.msgTaken ch) (s.blk.msgWords ch) = { status := OK, regs := [], blk := s.blk.msgTaken ch } := by
      rw [ha]
      split
      · exact absurd ‹_› hst
      · exact absurd ‹_› h3
      · rfl
    obtain ⟨t, hx, hpend, hrep, -, hm, hregs⟩ := exec_regAnswer hd hb ha' rfl (Block.regKept.refl _)
    refine ⟨t, (exec_eskPortStart h0).trans hx, hpend, ?_, Block.portState_congr ((hregs _ o1 o2 o3).trans hrg), hm⟩
    rw [if_neg h3]
    exact hrep

theorem Block.portState_modPort (s : Block) (p q : Nat) (f : Port → Port) : (s.modPort p f).portState q = s.portState q := rfl

theorem Block.stopPort_state (s : Block) (p : Nat) : (s.stopPort p).portState p = if s.portState p = 0 then 0 else 3 := by
  unfold Block.stopPort
  by_cases h0 : s.portState p = 0
  · rw [if_pos h0, if_pos h0, Block.portState_modPort, h0]
  · rw [if_neg h0, if_neg h0]
    by_cases h3 : s.portState p = 3
    · rw [if_pos h3]
      exact h3
    · rw [if_neg h3, Block.portState_modPort]
      exact Block.fld_wf_same s (ESK_STATE p) 3 (by omega) (by omega)

theorem eskPortStop_spec (s : State) (ch : Chan) (p : Nat) (hd : s.blk.delivers ch 0x0804) (hb : s.blk.backFree ch)
    (hc : chFn ch = 0 ∨ chFn ch = 64) (hp : p = (mreg (s.blk.msgWords ch) 1).toNat) (h15 : p ≤ 15)
    (h0 : (mreg (s.blk.msgWords ch) 2).bit 0 = false) :
    ∃ t : State, exec (.eskPortStop ch) s = .next t ∧ t.pending = s.pending ∧ t.blk.repliedTo s.blk ch OK ∧
      t.blk.portState p = (if s.blk.portState p = 0 then 0 else 3) ∧ { t.blk.mailBack s.blk with esk := s.blk.esk } = s.blk := by
  have hp16 : p < 16 := by omega
  have hst : (s.blk.msgTaken ch).portState p = s.blk.portState p :=
    Block.portState_congr (s.blk.rg_msgTaken_ESK ch (k := 0) hp16 (by omega))
  have ha := portAnswer_stop (s := s.blk.msgTaken ch) hc (hp ▸ h15)
  rw [← hp] at ha
  obtain ⟨f1, f2⟩ := (s.blk.msgTaken ch).stopPort_frame p
  have f3 := (s.blk.msgTaken ch).stopPort_state p
  rw [hst] at f3
  obtain ⟨b, hbb⟩ : ∃ b, b = (s.blk.msgTaken ch).stopPort p := ⟨_, rfl⟩
  rw [← hbb] at f1 f2 f3 ha
  have hne : chBack ch + 0x44 ≠ ESK_STATE p := (chBack_ne_of_offMail ch (a := ESK_STATE p) (ESK_offMail (k := 0) hp16 (by omega)).1 (by omega)).symm
  obtain ⟨t, hx, hpend, hrep, hm, -, hregs⟩ := exec_portAnswer hd hb ha (f2 _ hne)
    (congrArg (fun x : Block => { x with regs := s.blk.regs, esk := s.blk.esk }) f1 :)
  exact ⟨t, (exec_eskPortStop h0).trans hx, hpend, hrep, (Block.portState_congr (hregs p 0 hp16 (by omega))).trans f3, hm⟩

/-! ### Timers -/

theorem retrainTimer_trains (s : State) (p : Nat) (hp : p < 16) (hr : (s.blk.port p).retrain = true) (hc : s.blk.coreUp 5 = true)
    (hk : s.blk.clk.coastEsk = false) :
    ∃ t : State, exec (.retrainTimer p) s = .next t ∧ t.pending = s.pending ∧ t.blk.portState p = 1 ∧ (t.blk.port p).retrain = false ∧
      (∀ n, n < 9 → t.blk.fld (ESK_LANE p n) 18 16 = 0) ∧ { t.blk with regs := s.blk.regs, esk := s.blk.esk } = s.blk := by
  have hx : exec (.retrainTimer p) s = onBlk (effRetrainTimer p) s := rfl
  have he : effRetrainTimer p s.blk = s.blk.trainPort p := by
    rw [effRetrainTimer, portOk_of_lt hp, hr, hc, hk]
    rfl
  obtain ⟨t1, -, t3⟩ := s.blk.trainPort_trained p
  obtain ⟨p1, -, p3⟩ := s.blk.trainPort_port p
  obtain ⟨b, hb⟩ : ∃ b, b = s.blk.trainPort p := ⟨_, rfl⟩
  rw [← hb] at he t1 t3 p1 p3
  exact ⟨{ s with blk := b }, hx.trans (onBlk_next_of_eq he (congrArg (fun x : Block => x.trust.fuses) t3 :)
    (congrArg (fun x : Block => x.ice.perm) t3 :)), rfl, t1, (congrArg Port.retrain p1 :), p3, t3⟩

theorem retrainTimer_idle (s : State) (p : Nat) (hr : (s.blk.port p).retrain = false) : exec (.retrainTimer p) s = .next s := by
  have hx : exec (.retrainTimer p) s = onBlk (effRetrainTimer p) s := rfl
  refine hx.trans (onBlk_idle ?_)
  rw [effRetrainTimer, hr, Bool.and_false]
  rfl

theorem portStoppingDone_stops (s : State) (p : Nat) (hp : p < 16) (h3 : s.blk.portState p = 3) :
    ∃ t : State, exec (.portStoppingDone p) s = .next t ∧ t.pending = s.pending ∧ t.blk.portState p = 0 ∧
      t.blk.fld (ESK_STATE p) 9 7 = 0 ∧ (∀ n, n < 9 → t.blk.fld (ESK_LANE p n) 17 16 = 0) ∧ t.blk.parts = s.blk.parts ∧
      t.blk.bundles = s.blk.bundles := by
  have hx : exec (.portStoppingDone p) s = onBlk (effPortStoppingDone p) s := rfl
  have he : effPortStoppingDone p s.blk = s.blk.portDown p 0 := if_pos ⟨portOk_of_lt hp, h3⟩
  have hf : (effPortStoppingDone p s.blk).portFell s.blk p 0 := he ▸ s.blk.portDown_fell hp (by omega)
  obtain ⟨t, ht, hpend, h⟩ := onBlk_portFell hf
  exact ⟨t, hx.trans ht, hpend, h.state, h.why, fun n hn => (h.lane hn).1, h.parts, h.bundles⟩

theorem portStoppingDone_idle (s : State) (p : Nat) (h3 : s.blk.portState p ≠ 3) : exec (.portStoppingDone p) s = .next s := by
  have hx : exec (.portStoppingDone p) s = onBlk (effPortStoppingDone p) s := rfl
  exact hx.trans (onBlk_idle (if_neg fun h => h3 h.2))

/-! ### Training ends -/

theorem portTrainingDone_idle (s : State) (p : Nat) (x : Training) (h : training p s.blk = false) :
    exec (.portTrainingDone p x) s = .next s := by
  have hx : exec (.portTrainingDone p x) s = onBlk (effPortTrainingDone p x) s := rfl
  refine hx.trans (onBlk_idle ?_)
  rw [effPortTrainingDone, h]
  rfl

/-- The credits that the partner grants. -/
def Block.creditsSet (s : Block) (p : Nat) (credits : List Nat) (l : List Nat) : Block :=
  s.each l fun s v => s.ledRenew (creditLedger p v) (credits.getD v 0)

theorem Block.ledger_ledRenew (s : Block) (n t k : Nat) :
    (s.ledRenew n t).ledger k = if k = n then { free := t, held := 0, flight := 0, total := t } else s.ledger k := by
  split
  · subst k
    exact tget_tset_same ..
  · rename_i h
    exact tget_tset_other _ _ _ _ h

theorem Block.creditsSet_led (p : Nat) (credits l : List Nat) (s : Block) : { s.creditsSet p credits l with led := s.led } = s ∧
    ∀ v, (v ∈ l ∨ (s.ledger (creditLedger p v)).total = credits.getD v 0 ∧ (s.ledger (creditLedger p v)).ok = true) →
      ((s.creditsSet p credits l).ledger (creditLedger p v)).total = credits.getD v 0 ∧
      ((s.creditsSet p credits l).ledger (creditLedger p v)).ok = true := by
  induction l generalizing s with
  | nil => exact ⟨rfl, fun v h => h.elim (fun h => by cases h) id⟩
  | cons x l ih =>
    obtain ⟨i1, i2⟩ := ih (s.ledRenew (creditLedger p x) (credits.getD x 0))
    refine ⟨(congrArg (fun b : Block => { b with led := s.led }) i1 :), fun v h => i2 v ?_⟩
    rw [Block.ledger_ledRenew]
    by_cases hv : v = x
    · subst v
      rw [if_pos rfl]
      exact Or.inr ⟨rfl, by simp [Ledger.ok]⟩
    · rw [if_neg (by unfold creditLedger; omega)]
      obtain h | h := h
      · exact Or.inl ((List.mem_cons.1 h).resolve_left hv)
      · exact Or.inr h

/-- The registers of a port that trained. -/
def Block.portSet (s : Block) (p : Nat) (t : Training) (enc : Bool) : Block :=
  let s := s.setLanes p t
  let s := (s.wf (ESK_STATE p) 26 12 t.node).wf (ESK_STATE p) 30 27 t.port
  let s := (s.wb (ESK_STATE p) 2 t.failedLane.isSome).wf (ESK_STATE p) 6 3 (t.failedLane.getD 0)
  let s := ((s.wb (ESK_STATE p) 10 enc).wb (ESK_STATE p) 31 false).wf (ESK_STATE p) 9 7 0
  (s.wf (ESK_STATE p) 1 0 2).wf (ESK_EPOCH p) 15 0 (nextEpoch (s.fld (ESK_EPOCH p) 15 0))

/-- A port that runs, before what its return brings. -/
def Block.portOn (s : Block) (p : Nat) : Block :=
  s.modPort p fun x => { x with rxSeq := 0, acked := 0, replays := 0, tagFails := 0, lastRx := s.now }

theorem Block.portRuns_eq (s : Block) (p : Nat) (t : Training) (enc : Bool) : ∃ d, s.portRuns p t enc =
    (Block.checkNodes (((((s.creditsSet p t.credits (List.range 8)).portSet p t enc).portOn p).event srcMoraine 0x0602 d))
      ((((s.creditsSet p t.credits (List.range 8)).portSet p t enc).portOn p).event srcMoraine 0x0602 d).esk.down 1).pumpAll := by
  unfold Block.portRuns Block.creditsSet Block.portSet Block.portOn
  exact ⟨_, rfl⟩

/-- The lane of a trained port. -/
def laneSet (t : Training) (n : Nat) (w : Word) : Word :=
  (w.setFld 17 16 ((if some n = t.failedLane then 0 else 1) + 2 * b2n (decide (some n ≠ t.failedLane ∧ (n < 8 ∨ t.failedLane.isSome))))).setFld
    18 18 (b2n (decide (some n = t.failedLane)))

theorem Block.setLanes_frame (s : Block) (p : Nat) (t : Training) : { s.setLanes p t with regs := s.regs } = s ∧
    ∀ k, k < 0x100 → (s.setLanes p t).rg (ESK p k) = s.rg (ESK p k) := by
  unfold Block.setLanes
  refine ⟨loop_keeps (fun b : Block => { b with regs := s.regs }) _ (fun n b => by simp) 9 s, fun k hk => ?_⟩
  exact loop_keeps (fun b : Block => b.rg (ESK p k)) _ (fun n b => (Block.rg_wb_other _ _ _ (lane_ne_ESK p n hk).symm).trans
    (Block.rg_wf_other _ _ _ _ (lane_ne_ESK p n hk).symm)) 9 s

theorem Block.portSet_spec (s : Block) (p : Nat) (t : Training) (enc : Bool) : { s.portSet p t enc with regs := s.regs } = s ∧
    (s.portSet p t enc).portState p = 2 ∧ (s.portSet p t enc).bit (ESK_STATE p) 10 = enc ∧
    (s.portSet p t enc).fld (ESK_EPOCH p) 15 0 = nextEpoch (s.fld (ESK_EPOCH p) 15 0) := by
  have hep : ESK_EPOCH p ≠ ESK_STATE p := ESK_ne_STATE p (k := 0x30) (by omega)
  unfold Block.portSet
  obtain ⟨f1, f2⟩ := s.setLanes_frame p t
  obtain ⟨b, hb⟩ : ∃ b, b = s.setLanes p t := ⟨_, rfl⟩
  have f3 : b.fld (ESK_EPOCH p) 15 0 = s.fld (ESK_EPOCH p) 15 0 := (congrArg (fun w : Word => w.fld 15 0) (hb ▸ f2 0x30 (by omega)) :)
  rw [← hb] at f1 ⊢
  obtain ⟨c, hc⟩ : ∃ c, c = ((b.wf (ESK_STATE p) 26 12 t.node).wf (ESK_STATE p) 30 27 t.port) := ⟨_, rfl⟩
  have c1 : { c with regs := s.regs } = s := by
    rw [hc]
    exact (by simp : _ = { b with regs := s.regs }).trans f1
  have c3 : c.fld (ESK_EPOCH p) 15 0 = s.fld (ESK_EPOCH p) 15 0 := by
    rw [hc, Block.fld_wf_other _ _ _ _ (by omega) (by omega) (Or.inl hep), Block.fld_wf_other _ _ _ _ (by omega) (by omega) (Or.inl hep), f3]
  obtain ⟨d, hd⟩ : ∃ d, d = (c.wb (ESK_STATE p) 2 t.failedLane.isSome).wf (ESK_STATE p) 6 3 (t.failedLane.getD 0) := ⟨_, rfl⟩
  have d1 : { d with regs := s.regs } = s := by
    rw [hd]
    exact (by simp : _ = { c with regs := s.regs }).trans c1
  have d3 : d.fld (ESK_EPOCH p) 15 0 = s.fld (ESK_EPOCH p) 15 0 := by
    rw [hd, Block.fld_wf_other _ _ _ _ (by omega) (by omega) (Or.inl hep)]
    exact (Block.fld_wf_other _ _ _ _ (by omega) (by omega) (Or.inl hep)).trans c3
  dsimp only
  rw [← hc, ← hd]
  obtain ⟨e, he⟩ : ∃ e, e = ((d.wb (ESK_STATE p) 10 enc).wb (ESK_STATE p) 31 false).wf (ESK_STATE p) 9 7 0 := ⟨_, rfl⟩
  have e1 : { e with regs := s.regs } = s := by
    rw [he]
    exact (by simp : _ = { d with regs := s.regs }).trans d1
  have e2 : e.bit (ESK_STATE p) 10 = enc := by
    rw [he, Block.bit_wf_other _ _ (by omega) (by omega) (Or.inr (Or.inr (by omega))), Block.bit_wb_other _ _ (by omega) (Or.inr (by omega)),
      Block.bit_wb_same _ _ _ (by omega)]
  have e3 : e.fld (ESK_EPOCH p) 15 0 = s.fld (ESK_EPOCH p) 15 0 := by
    rw [he, Block.fld_wf_other _ _ _ _ (by omega) (by omega) (Or.inl hep)]
    exact (Block.fld_wf_other _ _ _ _ (by omega) (by omega) (Or.inl hep)).trans
      ((Block.fld_wf_other _ _ _ _ (by omega) (by omega) (Or.inl hep)).trans d3)
  rw [← he, e3]
  refine ⟨(by simp : _ = { e with regs := s.regs }).trans e1, ?_, ?_, ?_⟩
  · exact (Block.fld_wf_other _ _ _ _ (by omega) (by omega) (Or.inl hep.symm)).trans (Block.fld_wf_same _ _ _ (by omega) (by omega))
  · exact (Block.bit_wf_other _ _ (by omega) (by omega) (Or.inl hep.symm)).trans
      ((Block.bit_wf_other _ _ (by omega) (by omega) (Or.inr (Or.inr (by omega)))).trans e2)
  · refine (Block.fld_wf_same _ _ _ (by omega) (by omega)).trans (Nat.mod_eq_of_lt (nextEpoch_lt ?_))
    exact Word.fld_lt (s.rg (ESK_EPOCH p)) 15 0

/-- Nodes already known to be down are taken as reachable again, or stay down. -/
theorem Block.checkNodes_known (s : Block) (c : Nat) (l : List Nat) (d : List Nat)
    (h : ∀ n ∈ l, s.reachable n = true ∨ n ∈ d) :
    ∃ d', ({ s with esk := { s.esk with down := d } } : Block).checkNodes l c = { s with esk := { s.esk with down := d' } } := by
  unfold Block.checkNodes Block.each
  induction l generalizing d with
  | nil => exact ⟨d, rfl⟩
  | cons n l ih =>
    have hre : ∀ n, ({ s with esk := { s.esk with down := d } } : Block).reachable n = s.reachable n := fun _ => rfl
    rw [List.foldl_cons, hre]
    by_cases hn : s.reachable n = true
    · rw [if_pos hn]
      refine ih (d.filter (· != n)) fun m hm => ?_
      obtain hr | hd := h m (List.mem_cons_of_mem _ hm)
      · exact Or.inl hr
      · by_cases hmn : m = n
        · exact Or.inl (hmn ▸ hn)
        · exact Or.inr (List.mem_filter.2 ⟨hd, by simp [hmn]⟩)
    · have hd : n ∈ d := (h n List.mem_cons_self).resolve_left hn
      rw [if_neg hn]
      refine Eq.mp ?_ (ih d fun m hm => h m (List.mem_cons_of_mem _ hm))
      rw [if_pos (by simpa using hd)]

/-- A port that trained. -/
structure Block.portRan (t s : Block) (p : Nat) (x : Training) (enc : Bool) : Prop where
  state : t.portState p = 2
  epoch : t.fld (ESK_EPOCH p) 15 0 = nextEpoch (s.fld (ESK_EPOCH p) 15 0)
  enc : t.bit (ESK_STATE p) 10 = enc
  credits : ∀ v, v < 8 → (t.ledger (creditLedger p v)).total = x.credits.getD v 0 ∧ (t.ledger (creditLedger p v)).ok = true
  objs : t.objs = s.objs
  parts : t.parts = s.parts

theorem Block.portRuns_ran (s : Block) {p : Nat} (x : Training) (enc : Bool) (hp : p < 16) : (s.portRuns p x enc).portRan s p x enc := by
  obtain ⟨d, he⟩ := s.portRuns_eq p x enc
  rw [he]
  obtain ⟨l1, l2⟩ := Block.creditsSet_led p x.credits (List.range 8) s
  obtain ⟨a, ha⟩ : ∃ a, a = s.creditsSet p x.credits (List.range 8) := ⟨_, rfl⟩
  rw [← ha] at l1 l2 ⊢
  have l3 : a.fld (ESK_EPOCH p) 15 0 = s.fld (ESK_EPOCH p) 15 0 := (congrArg (fun b : Block => b.fld (ESK_EPOCH p) 15 0) l1 :)
  obtain ⟨p1, p2, p3, p4⟩ := a.portSet_spec p x enc
  rw [l3] at p4
  obtain ⟨b, hb⟩ : ∃ b, b = a.portSet p x enc := ⟨_, rfl⟩
  rw [← hb] at p1 p2 p3 p4 ⊢
  have hled : b.led = a.led := (congrArg Block.led p1 :)
  have hobj : b.objs = s.objs := (congrArg Block.objs p1 :).trans (congrArg Block.objs l1 :)
  have hpar : b.parts = s.parts := (congrArg Block.parts p1 :).trans (congrArg Block.parts l1 :)
  have o1 : (b.portOn p).pumped b := b.modPort_pumped p _
  have o2 : ∀ a, (b.portOn p).rg a = b.rg a := fun _ => rfl
  have o3 : (b.portOn p).parts = b.parts := rfl
  obtain ⟨c, hc⟩ : ∃ c, c = b.portOn p := ⟨_, rfl⟩
  rw [← hc] at o1 o2 o3 ⊢
  have v1 : (c.event srcMoraine 0x0602 d).pumped c := Block.pumped_of (Block.event_objs ..) (Block.event_jobs ..) (Block.event_led ..)
  have v2 : (c.event srcMoraine 0x0602 d).still true = c.still true := Block.event_still ..
  obtain ⟨e, hev⟩ : ∃ e, e = c.event srcMoraine 0x0602 d := ⟨_, rfl⟩
  rw [← hev] at v1 v2 ⊢
  obtain ⟨dn, hdn⟩ := e.checkNodes_known 1 e.esk.down e.esk.down fun n hn => Or.inr hn
  have hdn' : e.checkNodes e.esk.down 1 = { e with esk := { e.esk with down := dn } } := hdn
  rw [hdn']
  have k1 : ({ e with esk := { e.esk with down := dn } } : Block).pumped e := Block.pumped_of rfl rfl rfl
  have k2 : ({ e with esk := { e.esk with down := dn } } : Block).still true = e.still true := Block.still_esk _ _ rfl rfl
  obtain ⟨f, hf⟩ : ∃ f, f = ({ e with esk := { e.esk with down := dn } } : Block) := ⟨_, rfl⟩
  rw [← hf] at k1 k2 ⊢
  have hpm := (f.pumpAll_pumped.trans k1).trans (v1.trans o1)
  have hst : f.pumpAll.still true = c.still true := ((Block.pumpAll_still f).trans k2).trans v2
  obtain ⟨g, hg⟩ : ∃ g, g = f.pumpAll := ⟨_, rfl⟩
  rw [← hg] at hpm hst ⊢
  have hr : ∀ k, k < 0x200 → g.rg (ESK p k) = b.rg (ESK p k) := fun k hk => (Block.rg_of_still hst (stillReg_ESK_low hp hk)).trans (o2 _)
  refine ⟨(Block.portState_congr (hr 0 (by omega))).trans p2, ?_, ?_, fun v hv => ?_, hpm.objs.trans hobj,
    ((Block.parts_of_still hst).trans o3).trans hpar⟩
  · exact (congrArg (fun w : Word => w.fld 15 0) (hr 0x30 (by omega)) :).trans p4
  · exact (congrArg (fun w : Word => w.bit 10) (hr 0 (by omega)) :).trans p3
  · obtain ⟨t1, t2⟩ := l2 v (Or.inl (List.mem_range.2 hv))
    have hbl : b.ledger (creditLedger p v) = a.ledger (creditLedger p v) := (congrArg (fun x => tget (ledgerReset _) x (creditLedger p v)) hled :)
    exact ⟨(hpm.total _).trans (hbl ▸ t1), hpm.ok _ (hbl ▸ t2)⟩

theorem training_iff {p : Nat} {s : Block} : training p s = true ↔ p < 16 ∧ s.portState p = 1 ∧ (s.port p).retrain = false := by
  unfold training portOk
  simp only [Bool.and_eq_true, decide_eq_true_eq, beq_iff_eq, Bool.not_eq_true', and_assoc]

theorem effPortTrainingDone_due {p : Nat} {x : Training} {s : Block} (h : training p s = true) :
    effPortTrainingDone p x s = portTrainingEffect p x s := if_pos h

theorem portTrainingEffect_runs {p : Nat} {x : Training} {s : Block} (hl : x.lanesOk = true)
    (hn : (s.nodeValid && x.nodeValid && x.node == s.node) = false) (he : ((s.port p).encReq || x.encReq) = false) :
    portTrainingEffect p x s = s.portRuns p x false := by
  unfold portTrainingEffect
  simp only [hl, hn, he]
  simp only [Bool.not_true, Bool.false_eq_true, if_false]
  split <;> rfl

theorem portTrainingDone_runs (s : State) (p : Nat) (x : Training) (ht : training p s.blk = true) (hl : x.lanesOk = true)
    (hn : (s.blk.nodeValid && x.nodeValid && x.node == s.blk.node) = false) (he : ((s.blk.port p).encReq || x.encReq) = false) :
    ∃ t : State, exec (.portTrainingDone p x) s = .next t ∧ t.pending = s.pending ∧ t.blk.portState p = 2 ∧
      t.blk.fld (ESK_EPOCH p) 15 0 = nextEpoch (s.blk.fld (ESK_EPOCH p) 15 0) ∧ t.blk.bit (ESK_STATE p) 10 = false ∧
      (∀ v, v < 8 → (t.blk.ledger (creditLedger p v)).total = x.credits.getD v 0 ∧ (t.blk.ledger (creditLedger p v)).ok = true) ∧
      t.blk.objs = s.blk.objs ∧ t.blk.parts = s.blk.parts := by
  have hx : exec (.portTrainingDone p x) s = onBlk (effPortTrainingDone p x) s := rfl
  have hb := (effPortTrainingDone_due ht).trans (portTrainingEffect_runs hl hn he)
  obtain ⟨h1, h2, h3, h4, h5, h6⟩ := s.blk.portRuns_ran x false (training_iff.1 ht).1
  obtain ⟨b, hbb⟩ : ∃ b, b = s.blk.portRuns p x false := ⟨_, rfl⟩
  rw [← hbb] at hb h1 h2 h3 h4 h5 h6
  obtain ⟨t, ht', hpend, htb⟩ := onBlk_lasting_next (effPortTrainingDone p x) s
  rw [hb] at htb
  have hr : ∀ a, t.blk.rg a = b.rg a := fun a => htb ▸ Block.rg_lasting ..
  have hl : ∀ n, t.blk.ledger n = b.ledger n := fun n => htb ▸ (congrArg (fun x => tget (ledgerReset n) x n) (Block.lasting_led ..) :)
  refine ⟨t, hx.trans ht', hpend, (Block.portState_congr (hr _)).trans h1, (congrArg (fun w : Word => w.fld 15 0) (hr _) :).trans h2,
    (congrArg (fun w : Word => w.bit 10) (hr _) :).trans h3, fun v hv => by rw [hl]; exact h4 v hv, ?_, ?_⟩
  · rw [htb, Block.lasting_objs, h5]
  · rw [htb, Block.lasting_parts, h6]

/-- A port whose training failed. -/
structure Block.trainStopped (t s : Block) (p cause : Nat) : Prop where
  why : t.fld (ESK_STATE p) 9 7 = cause
  state : t.portState p = if s.bit (ESK_CFG p) 8 then s.portState p else 0
  again : ((t.port p).retrain || !s.bit (ESK_CFG p) 8) = true
  objs : t.objs = s.objs
  jobs : t.jobs = s.jobs
  parts : t.parts = s.parts

/-- A change that spares the cause and the state of the port, its record, objects, jobs and partitions. -/
theorem Block.trainStopped_congr {s t u : Block} {p cause : Nat} (h : t.trainStopped s p cause)
    (h1 : u.fld (ESK_STATE p) 9 7 = t.fld (ESK_STATE p) 9 7) (h2 : u.portState p = t.portState p) (h3 : u.esk = t.esk)
    (h4 : u.objs = t.objs) (h5 : u.jobs = t.jobs) (h6 : u.parts = t.parts) : u.trainStopped s p cause :=
  ⟨h1.trans h.why, h2.trans h.state, Block.port_congr h3 p ▸ h.again, h4.trans h.objs, h5.trans h.jobs, h6.trans h.parts⟩

theorem Block.trainFailed_stopped (s : Block) (p : Nat) {cause : Nat} (hc : cause < 8) : (s.trainFailed p cause).trainStopped s p cause := by
  unfold Block.trainFailed
  have hcfg : ESK_CFG p ≠ ESK_STATE p := ESK_ne_STATE p (k := 4) (by omega)
  have h1 : (s.wf (ESK_STATE p) 9 7 cause).fld (ESK_STATE p) 9 7 = cause :=
    (Block.fld_wf_same _ _ _ (by omega) (by omega)).trans (Nat.mod_eq_of_lt hc)
  have h2 : (s.wf (ESK_STATE p) 9 7 cause).portState p = s.portState p :=
    Block.fld_wf_other _ _ _ _ (by omega) (by omega) (Or.inr (Or.inl (by omega)))
  have h3 : (s.wf (ESK_STATE p) 9 7 cause).bit (ESK_CFG p) 8 = s.bit (ESK_CFG p) 8 :=
    Block.bit_wf_other _ _ (by omega) (by omega) (Or.inl hcfg)
  have h4 : { s.wf (ESK_STATE p) 9 7 cause with regs := s.regs } = s := by simp
  dsimp only
  obtain ⟨b, hb⟩ : ∃ b, b = s.wf (ESK_STATE p) 9 7 cause := ⟨_, rfl⟩
  rw [← hb] at h1 h2 h3 h4 ⊢
  rw [h3]
  split
  · rename_i hr
    refine ⟨h1, ?_, ?_, (congrArg Block.objs h4 :), (congrArg Block.jobs h4 :), (congrArg Block.parts h4 :)⟩
    · rw [if_pos hr]
      exact h2
    · rw [Block.port_modPort_same, Bool.true_or]
  · rename_i hr
    refine ⟨?_, ?_, ?_, (congrArg Block.objs h4 :), (congrArg Block.jobs h4 :), (congrArg Block.parts h4 :)⟩
    · exact (Block.fld_wf_other _ _ _ _ (by omega) (by omega) (Or.inr (Or.inr (by omega)))).trans h1
    · rw [if_neg hr]
      exact Block.fld_wf_same _ _ _ (by omega) (by omega)
    · rw [Bool.not_eq_true] at hr
      rw [hr, Bool.not_false, Bool.or_true]

theorem Block.event_stopped {s t : Block} {p cause : Nat} (hp : p < 16) (h : t.trainStopped s p cause) (src ev : Nat) (d : List Word) :
    (t.event src ev d).trainStopped s p cause := by
  have hr : (t.event src ev d).rg (ESK_STATE p) = t.rg (ESK_STATE p) := Block.rg_event _ _ _ _ (ESK_offMail (k := 0) hp (by omega)).2.1
  exact Block.trainStopped_congr h (congrArg (fun w : Word => w.fld 9 7) hr :) (Block.portState_congr hr) (Block.event_esk ..)
    (Block.event_objs ..) (Block.event_jobs ..) (Block.event_parts ..)

theorem Block.wb_stopped {s t : Block} {p cause i : Nat} (h : t.trainStopped s p cause) (hi : 9 < i) (h32 : i < 32) :
    (t.wb (ESK_STATE p) i true).trainStopped s p cause := by
  have hf : { t.wb (ESK_STATE p) i true with regs := t.regs } = t := by simp
  have h1 : (t.wb (ESK_STATE p) i true).fld (ESK_STATE p) 9 7 = t.fld (ESK_STATE p) 9 7 :=
    Block.fld_wf_other _ _ _ _ (by omega) (by omega) (Or.inr (Or.inl (by omega)))
  have h2 : (t.wb (ESK_STATE p) i true).portState p = t.portState p :=
    Block.fld_wf_other _ _ _ _ (by omega) (by omega) (Or.inr (Or.inl (by omega)))
  obtain ⟨b, hb⟩ : ∃ b, b = t.wb (ESK_STATE p) i true := ⟨_, rfl⟩
  rw [← hb] at hf h1 h2 ⊢
  exact Block.trainStopped_congr h h1 h2 (congrArg Block.esk hf :) (congrArg Block.objs hf :) (congrArg Block.jobs hf :)
    (congrArg Block.parts hf :)

/-- A training that fails, by its cause. -/
theorem portTrainingEffect_fails {p cause : Nat} {x : Training} {s : Block} (hp : p < 16)
    (hc : cause = (if !x.lanesOk then 6 else if s.nodeValid && x.nodeValid && x.node == s.node then 7
      else if ((s.port p).encReq || x.encReq) && (s.keysDiffer p x).isSome then 5 else 0)) (h0 : cause ≠ 0) :
    (portTrainingEffect p x s).trainStopped s p cause ∧ (cause ≠ 5 ∨ (portTrainingEffect p x s).bit (ESK_STATE p) 31 = true) := by
  unfold portTrainingEffect
  dsimp only
  by_cases hl : (!x.lanesOk) = true
  · rw [if_pos hl] at hc ⊢
    subst hc
    exact ⟨s.trainFailed_stopped p (by omega), Or.inl (by omega)⟩
  · rw [if_neg hl] at hc ⊢
    by_cases hn : (s.nodeValid && x.nodeValid && x.node == s.node) = true
    · rw [if_pos hn] at hc ⊢
      subst hc
      exact ⟨Block.event_stopped hp (s.trainFailed_stopped p (by omega)) .., Or.inl (by omega)⟩
    · rw [if_neg hn] at hc ⊢
      by_cases he : (((s.port p).encReq || x.encReq) && (s.keysDiffer p x).isSome) = true
      · rw [if_pos he] at hc
        subst hc
        obtain ⟨he, hk⟩ := (Bool.and_eq_true_iff.1 he)
        obtain ⟨⟨a, b⟩, hab⟩ := Option.isSome_iff_exists.1 hk
        rw [hab]
        dsimp only
        rw [if_pos he]
        have hs := Block.wb_stopped (s.trainFailed_stopped p (cause := 5) (by omega)) (i := 31) (by omega) (by omega)
        have hb : ((s.trainFailed p 5).wb (ESK_STATE p) 31 true).bit (ESK_STATE p) 31 = true := Block.bit_wb_same _ _ _ (by omega)
        obtain ⟨c, hc⟩ : ∃ c, c = (s.trainFailed p 5).wb (ESK_STATE p) 31 true := ⟨_, rfl⟩
        rw [← hc] at hs hb ⊢
        have hr : (c.event srcMoraine 0x0606 [w32 p, 0, 1, a, b]).rg (ESK_STATE p) = c.rg (ESK_STATE p) :=
          Block.rg_event _ _ _ _ (ESK_offMail (k := 0) hp (by omega)).2.1
        exact ⟨Block.event_stopped hp hs .., Or.inr ((congrArg (fun w : Word => w.bit 31) hr :).trans hb)⟩
      · rw [if_neg he] at hc
        exact absurd hc h0

theorem portTrainingDone_fails (s : State) (p cause : Nat) (x : Training) (ht : training p s.blk = true)
    (hc : cause = (if !x.lanesOk then 6 else if s.blk.nodeValid && x.nodeValid && x.node == s.blk.node then 7
      else if ((s.blk.port p).encReq || x.encReq) && (s.blk.keysDiffer p x).isSome then 5 else 0)) (h0 : cause ≠ 0) :
    ∃ t : State, exec (.portTrainingDone p x) s = .next t ∧ t.pending = s.pending ∧ t.blk.fld (ESK_STATE p) 9 7 = cause ∧
      t.blk.portState p = (if s.blk.bit (ESK_CFG p) 8 then 1 else 0) ∧ ((t.blk.port p).retrain || !s.blk.bit (ESK_CFG p) 8) = true ∧
      (cause ≠ 5 ∨ t.blk.bit (ESK_STATE p) 31 = true) ∧ t.blk.objs = s.blk.objs ∧ t.blk.jobs = s.blk.jobs ∧ t.blk.parts = s.blk.parts := by
  have hx : exec (.portTrainingDone p x) s = onBlk (effPortTrainingDone p x) s := rfl
  obtain ⟨hp, h1, -⟩ := training_iff.1 ht
  have hb := effPortTrainingDone_due (x := x) ht
  obtain ⟨hs, h31⟩ := portTrainingEffect_fails hp hc h0
  obtain ⟨b, hbb⟩ : ∃ b, b = portTrainingEffect p x s.blk := ⟨_, rfl⟩
  rw [← hbb] at hb hs h31
  obtain ⟨t, ht', hpend, htb⟩ := onBlk_lasting_next (effPortTrainingDone p x) s
  rw [hb] at htb
  have hr : ∀ a, t.blk.rg a = b.rg a := fun a => htb ▸ Block.rg_lasting ..
  have hport : t.blk.port p = b.port p := Block.port_congr (htb ▸ Block.lasting_esk ..) p
  refine ⟨t, hx.trans ht', hpend, (congrArg (fun w : Word => w.fld 9 7) (hr _) :).trans hs.why, ?_, hport ▸ hs.again,
    h31.imp_right (congrArg (fun w : Word => w.bit 31) (hr _) :).trans, ?_, ?_, ?_⟩
  · rw [Block.portState_congr (hr _), hs.state, h1]
  · rw [htb, Block.lasting_objs, hs.objs]
  · rw [htb, Block.lasting_jobs, hs.jobs]
  · rw [htb, Block.lasting_parts, hs.parts]

/-- Settles O35: a port trains afresh (`trainPort_port`), runs on what its training found (`portRuns_ran`) or fails with its cause, and goes
down once it has waited. -/
theorem portsStartAndStop : Obligations.PortsStartAndStop := by
  unfold Obligations.PortsStartAndStop
  exact ⟨eskPortStart_trains, eskPortStart_other, eskPortStop_spec, portTrainingDone_runs, portTrainingDone_fails, portTrainingDone_idle,
    retrainTimer_trains, retrainTimer_idle, portStoppingDone_stops, portStoppingDone_idle⟩

end Sys2Proof.Machine
end

section
/-! The reference clock: its loss and return, the alternate reference, and the choice of sources (R441 to R446). -/

namespace Sys2Proof.Machine

theorem Block.rg_bump_congr {s t : Block} {a : Nat} (h : t.rg a = s.rg a) (n : Nat) : (t.bump a n).rg a = (s.bump a n).rg a :=
  BitVec.eq_of_toNat_eq (by rw [Block.rg_bump_same, Block.rg_bump_same, h])

/-! ### Switches of sources -/

theorem Block.onAlt_lt (s : Block) : s.onAlt < 8 := Word.fld_lt (s.rg CLK_SEL) 2 0

theorem Block.showCoast_spec (s : Block) : { s.showCoast with regs := s.regs } = s ∧
    s.showCoast.bit CLK_STATUS 7 = (s.clk.coasting != 0) ∧ (∀ i, i ≠ 7 → s.showCoast.bit CLK_STATUS i = s.bit CLK_STATUS i) ∧
    ∀ a, a ≠ CLK_STATUS → s.showCoast.rg a = s.rg a := by
  unfold Block.showCoast
  exact ⟨by simp, Block.bit_wb_same _ _ _ (by omega), fun i hi => Block.bit_wb_other _ _ (by omega) (Or.inr hi),
    fun a ha => Block.rg_wb_other _ _ _ ha⟩

/-- The sources that a switch leaves. -/
def altAfter (o m : Nat) (alt : Bool) : Nat := if alt then o ||| m else o - (o &&& m)

/-- A switch of sources. -/
structure Block.switched (t s : Block) (m : Nat) (alt : Bool) : Prop where
  onAlt : t.onAlt = altAfter s.onAlt m alt
  clk : t.clk = s.clk.set m false
  coasts : t.bit CLK_STATUS 7 = ((s.clk.set m false).coasting != 0)
  status : ∀ i, i ≠ 7 → t.bit CLK_STATUS i = s.bit CLK_STATUS i
  count : t.rg CLK_CNT_SWITCH = (s.bump CLK_CNT_SWITCH).rg CLK_CNT_SWITCH
  regs : ∀ a, a ≠ CLK_SEL → a ≠ CLK_STATUS → a ≠ CLK_CNT_SWITCH → a ≠ ICE_DROPPED → t.rg a = s.rg a
  rest : { t with regs := s.regs, clk := s.clk, ice := s.ice } = s
  perm : t.ice.perm = s.ice.perm

/-- The switch itself, before its count and its event. -/
def Block.switchSet (s : Block) (m : Nat) (alt : Bool) : Block :=
  { s.wf CLK_SEL 2 0 (altAfter s.onAlt m alt) with clk := s.clk.set m false }

theorem Block.switchTo_eq (s : Block) {m : Nat} (alt auto : Bool) (hm : m ≠ 0) : s.switchTo m alt auto =
    ((s.switchSet m alt).showCoast.bump CLK_CNT_SWITCH).event srcHealth 0x0203 [w32 (domainRows m false), w32 (b2n alt), w32 (b2n auto)] :=
  if_neg hm

theorem altAfter_lt {o m : Nat} (alt : Bool) (ho : o < 8) (hm : m < 8) : altAfter o m alt < 8 := by
  unfold altAfter
  split
  · exact Nat.or_lt_two_pow (n := 3) ho hm
  · omega

theorem Block.switchTo_switched (s : Block) {m : Nat} (alt auto : Bool) (hm : m ≠ 0) (h8 : m < 8) :
    (s.switchTo m alt auto).switched s m alt := by
  rw [Block.switchTo_eq s alt auto hm]
  have a1 : (s.switchSet m alt).onAlt = altAfter s.onAlt m alt :=
    (Block.fld_wf_same s CLK_SEL _ (by omega) (by omega)).trans (Nat.mod_eq_of_lt (altAfter_lt alt s.onAlt_lt h8))
  have a2 : (s.switchSet m alt).clk = s.clk.set m false := rfl
  have a3 : ∀ a, a ≠ CLK_SEL → (s.switchSet m alt).rg a = s.rg a := fun a ha => Block.rg_wf_other s _ _ _ ha
  have a4 : { s.switchSet m alt with regs := s.regs, clk := s.clk } = s := by simp [Block.switchSet]
  obtain ⟨a, ha⟩ : ∃ a, a = s.switchSet m alt := ⟨_, rfl⟩
  rw [← ha] at a1 a2 a3 a4 ⊢
  obtain ⟨b1, b2, b3, b4⟩ := a.showCoast_spec
  obtain ⟨b, hb⟩ : ∃ b, b = a.showCoast := ⟨_, rfl⟩
  rw [← hb] at b1 b2 b3 b4 ⊢
  have n1 : CLK_SEL ≠ CLK_STATUS := by decide
  have n2 : CLK_CNT_SWITCH ≠ CLK_STATUS ∧ CLK_CNT_SWITCH ≠ CLK_SEL := by decide
  have c1 : ∀ a, a ≠ CLK_CNT_SWITCH → (b.bump CLK_CNT_SWITCH).rg a = b.rg a := fun a h => Block.rg_bump_other _ _ h
  have c2 : (b.bump CLK_CNT_SWITCH).rg CLK_CNT_SWITCH = (s.bump CLK_CNT_SWITCH).rg CLK_CNT_SWITCH :=
    Block.rg_bump_congr ((b4 _ n2.1).trans (a3 _ n2.2)) 1
  have c3 : { b.bump CLK_CNT_SWITCH with regs := s.regs } = { b with regs := s.regs } := by simp [Block.bump]
  obtain ⟨c, hc⟩ : ∃ c, c = b.bump CLK_CNT_SWITCH := ⟨_, rfl⟩
  rw [← hc] at c1 c2 c3 ⊢
  obtain ⟨d, hd⟩ : ∃ d : List Word, d = [w32 (domainRows m false), w32 (b2n alt), w32 (b2n auto)] := ⟨_, rfl⟩
  rw [← hd]
  have v1 : ∀ a, a ≠ ICE_DROPPED → (c.event srcHealth 0x0203 d).rg a = c.rg a := fun a h => Block.rg_event _ _ _ _ h
  have v2 : { c.event srcHealth 0x0203 d with regs := s.regs, ice := s.ice } = { c with regs := s.regs, ice := s.ice } := by simp
  have v3 : (c.event srcHealth 0x0203 d).ice.perm = c.ice.perm := by simp
  have v4 : (c.event srcHealth 0x0203 d).clk = c.clk := by simp
  obtain ⟨t, ht⟩ : ∃ t, t = c.event srcHealth 0x0203 d := ⟨_, rfl⟩
  rw [← ht] at v1 v2 v3 v4 ⊢
  have hst : t.rg CLK_STATUS = b.rg CLK_STATUS := (v1 _ (by decide)).trans (c1 _ (by decide))
  have hclk : b.clk = s.clk.set m false := (congrArg Block.clk b1 :).trans a2
  have hbit : ∀ i, t.bit CLK_STATUS i = b.bit CLK_STATUS i := fun i => (congrArg (fun w : Word => w.bit i) hst :)
  refine ⟨?_, ?_, (hbit 7).trans (b2.trans (by rw [a2])), fun i hi => ?_, (v1 _ (by decide)).trans c2, fun r h1 h2 h3 h4 => ?_, ?_, ?_⟩
  · refine Eq.trans (congrArg (fun w : Word => w.fld 2 0) ?_ :) a1
    exact (v1 _ (by decide)).trans ((c1 _ (by decide)).trans (b4 _ n1))
  · exact v4.trans ((congrArg Block.clk c3 :).trans hclk)
  · exact (hbit i).trans ((b3 i hi).trans (congrArg (fun w : Word => w.bit i) (a3 _ n1.symm) :))
  · exact (v1 _ h4).trans ((c1 _ h3).trans ((b4 _ h2).trans (a3 _ h1)))
  · have k1 := (congrArg (fun x : Block => { x with clk := s.clk }) v2 :)
    have k2 := (congrArg (fun x : Block => { x with clk := s.clk, ice := s.ice }) c3 :)
    have k3 := (congrArg (fun x : Block => { x with regs := s.regs, clk := s.clk, ice := s.ice }) b1 :)
    exact k1.trans (k2.trans (k3.trans (congrArg (fun x : Block => { x with ice := s.ice }) a4 :)))
  · exact v3.trans ((congrArg (fun x : Block => x.ice.perm) c3 :).trans ((congrArg (fun x : Block => x.ice.perm) b1 :).trans
      (congrArg (fun x : Block => x.ice.perm) a4 :)))

/-! ### Domains that coast -/

/-- Domains that coast, and the links that fall with them. -/
def Block.coastHead (s : Block) (m : Nat) : Block :=
  let s := ({ s with clk := s.clk.set m true }).showCoast
  let s := if m.testBit 3 then s.hostLinkFalls else s
  if m.testBit 0 then s.wb CLK_STATUS 6 false else s

/-- The ports that run fall. -/
def Block.portsFall (s : Block) : Block := s.each (List.range 16) fun s p => if s.portUp p then s.portDown p 1 else s

theorem Block.coast_eq (s : Block) (m : Nat) : s.coast m = if m.testBit 2 then (s.coastHead m).portsFall else s.coastHead m := rfl

/-- Domains that coast. -/
structure Block.coasted (t s : Block) (m : Nat) : Prop where
  clk : t.clk = s.clk.set m true
  start : t.start = if m.testBit 3 then { s.start with linkUp := false } else s.start
  link : t.rg MOR_HOST_LINK = if m.testBit 3 then 0 else s.rg MOR_HOST_LINK
  coasts : t.bit CLK_STATUS 7 = ((s.clk.set m true).coasting != 0)
  status : ∀ i, i ≠ 6 → i ≠ 7 → t.bit CLK_STATUS i = s.bit CLK_STATUS i
  regs : ∀ a, a ≠ CLK_STATUS → a ≠ MOR_HOST_LINK → t.rg a = s.rg a
  rest : { t with regs := s.regs, clk := s.clk, start := s.start } = s

theorem Block.linkFallsIf_spec (s : Block) (c : Bool) :
    (if c then s.hostLinkFalls else s).rg MOR_HOST_LINK = (if c then 0 else s.rg MOR_HOST_LINK) ∧
    (if c then s.hostLinkFalls else s).start = (if c then { s.start with linkUp := false } else s.start) ∧
    (∀ a, a ≠ MOR_HOST_LINK → (if c then s.hostLinkFalls else s).rg a = s.rg a) ∧
    { (if c then s.hostLinkFalls else s) with regs := s.regs, start := s.start } = s := by
  cases c with
  | false => exact ⟨rfl, rfl, fun _ _ => rfl, rfl⟩
  | true =>
    exact ⟨Block.rg_wr_same .., rfl, fun a ha => Block.rg_wr_other _ _ ha, by simp [Block.hostLinkFalls]⟩

theorem Block.spreadOffIf_spec (s : Block) (c : Bool) :
    (∀ i, i ≠ 6 → (if c then s.wb CLK_STATUS 6 false else s).bit CLK_STATUS i = s.bit CLK_STATUS i) ∧
    (∀ a, a ≠ CLK_STATUS → (if c then s.wb CLK_STATUS 6 false else s).rg a = s.rg a) ∧
    { (if c then s.wb CLK_STATUS 6 false else s) with regs := s.regs } = s := by
  cases c with
  | false => exact ⟨fun _ _ => rfl, fun _ _ => rfl, rfl⟩
  | true => exact ⟨fun i hi => Block.bit_wb_other _ _ (by omega) (Or.inr hi), fun a ha => Block.rg_wb_other _ _ _ ha, by simp⟩

theorem Block.coastHead_coasted (s : Block) (m : Nat) : (s.coastHead m).coasted s m := by
  unfold Block.coastHead
  obtain ⟨a, ha⟩ : ∃ a, a = ({ s with clk := s.clk.set m true } : Block) := ⟨_, rfl⟩
  have a1 : { a with clk := s.clk } = s := ha ▸ rfl
  have a2 : a.clk = s.clk.set m true := ha ▸ rfl
  dsimp only
  rw [← ha]
  obtain ⟨b1, b2, b3, b4⟩ := a.showCoast_spec
  obtain ⟨b, hb⟩ : ∃ b, b = a.showCoast := ⟨_, rfl⟩
  rw [← hb] at b1 b2 b3 b4 ⊢
  obtain ⟨c1, c2, c3, c4⟩ := b.linkFallsIf_spec (m.testBit 3)
  obtain ⟨c, hc⟩ : ∃ c, c = if m.testBit 3 then b.hostLinkFalls else b := ⟨_, rfl⟩
  rw [← hc] at c1 c2 c3 c4 ⊢
  obtain ⟨d1, d2, d3⟩ := c.spreadOffIf_spec (m.testBit 0)
  obtain ⟨d, hd⟩ : ∃ d, d = if m.testBit 0 then c.wb CLK_STATUS 6 false else c := ⟨_, rfl⟩
  rw [← hd] at d1 d2 d3 ⊢
  have hn : MOR_HOST_LINK ≠ CLK_STATUS := by decide
  have ha0 : ∀ r, a.rg r = s.rg r := fun r => (congrArg (fun x : Block => x.rg r) a1 :)
  have hab : b.rg MOR_HOST_LINK = s.rg MOR_HOST_LINK := (b4 _ hn).trans (ha0 _)
  have hbs : b.start = s.start := (congrArg Block.start b1 :).trans (congrArg Block.start a1 :)
  have hcb : ∀ i, c.bit CLK_STATUS i = b.bit CLK_STATUS i := fun i => (congrArg (fun w : Word => w.bit i) (c3 _ hn.symm) :)
  refine ⟨?_, ?_, ?_, ?_, fun i h6 h7 => ?_, fun r h1 h2 => ?_, ?_⟩
  · exact (congrArg Block.clk d3 :).trans ((congrArg Block.clk c4 :).trans ((congrArg Block.clk b1 :).trans a2))
  · rw [← hbs]
    exact (congrArg Block.start d3 :).trans c2
  · rw [← hab]
    exact (d2 _ hn).trans c1
  · rw [← a2]
    exact (d1 7 (by omega)).trans ((hcb 7).trans b2)
  · exact (d1 i h6).trans ((hcb i).trans ((b3 i h7).trans (congrArg (fun w : Word => w.bit i) (ha0 _) :)))
  · exact (d2 r h1).trans ((c3 r h2).trans ((b4 r h1).trans (ha0 r)))
  · have k1 := (congrArg (fun x : Block => { x with regs := s.regs, clk := s.clk, start := s.start }) d3 :)
    have k2 := (congrArg (fun x : Block => { x with regs := s.regs, clk := s.clk, start := s.start }) c4 :)
    have k3 := (congrArg (fun x : Block => { x with regs := s.regs, clk := s.clk, start := s.start }) b1 :)
    exact k1.trans (k2.trans (k3.trans (congrArg (fun x : Block => { x with regs := s.regs, start := s.start }) a1 :)))

/-- Where no port runs, none falls. -/
theorem Block.portsFall_none {s : Block} (h : (List.range 16).all (fun p => !s.portUp p) = true) : s.portsFall = s := by
  have hall : ∀ l : List Nat, (∀ p ∈ l, s.portUp p = false) → (s.each l fun s p => if s.portUp p then s.portDown p 1 else s) = s := by
    intro l
    induction l with
    | nil => exact fun _ => rfl
    | cons p l ih =>
      intro hl
      have hp : (if s.portUp p then s.portDown p 1 else s) = s := if_neg (by rw [hl p List.mem_cons_self]; decide)
      refine Eq.trans ?_ (ih fun q hq => hl q (List.mem_cons_of_mem _ hq))
      exact congrArg (fun b : Block => b.each l fun s p => if s.portUp p then s.portDown p 1 else s) hp
  exact hall _ fun p hp => by simpa using List.all_eq_true.1 h p hp

theorem Block.coast_quiet {s : Block} {m : Nat} (h : m.testBit 2 = false ∨ (List.range 16).all (fun p => !s.portUp p) = true) :
    (s.coast m).coasted s m := by
  rw [Block.coast_eq]
  have hc := s.coastHead_coasted m
  split
  · rename_i hm
    have hall : (List.range 16).all (fun p => !(s.coastHead m).portUp p) = true := by
      refine Eq.trans (congrArg (List.all (List.range 16)) (funext fun p => congrArg (!·) (Block.portUp_congr (hc.regs _ ?_ ?_)))) (h.resolve_left (by simp [hm]))
      · have e : ESK_STATE p = 0x00800000 + p * 0x80000 + 0 := rfl
        have e' : CLK_STATUS = 0x00100000 := rfl
        omega
      · have e : ESK_STATE p = 0x00800000 + p * 0x80000 + 0 := rfl
        have e' : MOR_HOST_LINK = 0x00001000 := rfl
        omega
    rw [Block.portsFall_none hall]
    exact hc
  · exact hc

/-! ### The reference is lost -/

/-- What the falls of ports leave as it is, beside more: the start, the clocks, partitions and bundles. -/
structure Block.linksFell (t s : Block) : Prop where
  start : t.start.steady = s.start.steady
  clk : t.clk = s.clk
  parts : t.parts = s.parts
  bundles : t.bundles = s.bundles

theorem Block.linksFell_of_still {s t : Block} {b : Bool} (h : t.still b = s.still b) : t.linksFell s :=
  ⟨(congrArg Still.start h :), (congrArg Still.clk h :), Block.parts_of_still h, (congrArg Still.bundles h :)⟩

theorem Block.linksFell.trans {s t u : Block} (h : u.linksFell t) (h' : t.linksFell s) : u.linksFell s :=
  ⟨h.start.trans h'.start, h.clk.trans h'.clk, h.parts.trans h'.parts, h.bundles.trans h'.bundles⟩

theorem Block.portCut_linksFell (s : Block) (p : Nat) {cause : Nat} (hc : cause < 8) : (s.portCut p cause).linksFell s := by
  obtain ⟨h, -⟩ := s.portLeft_spec p hc
  unfold Block.portCut
  obtain ⟨b, hb⟩ : ∃ b, b = s.portLeft p cause := ⟨_, rfl⟩
  rw [← hb] at h ⊢
  exact ⟨(congrArg (fun x : Block => x.start.steady) h :), (congrArg Block.clk h :), (congrArg Block.parts h :), (congrArg Block.bundles h :)⟩

theorem Block.portDown_linksFell (s : Block) (p : Nat) {cause : Nat} (hc : cause < 8) : (s.portDown p cause).linksFell s := by
  rw [Block.portDown_eq]
  exact (Block.linksFell_of_still (Block.portSwept_still (b := true) ..)).trans (s.portCut_linksFell p hc)

theorem Block.portsFall_linksFell (s : Block) : s.portsFall.linksFell s := by
  unfold Block.portsFall Block.each
  induction List.range 16 generalizing s with
  | nil => exact ⟨rfl, rfl, rfl, rfl⟩
  | cons p l ih =>
    have h1 : (if s.portUp p then s.portDown p 1 else s).linksFell s := by
      split
      · exact s.portDown_linksFell p (by omega)
      · exact ⟨rfl, rfl, rfl, rfl⟩
    exact (ih _).trans h1

theorem Block.coast_linksFell (s : Block) (m : Nat) : (s.coast m).linksFell (s.coastHead m) := by
  rw [Block.coast_eq]
  split
  · exact Block.portsFall_linksFell _
  · exact ⟨rfl, rfl, rfl, rfl⟩

/-- The registers of a reference that is lost, and its event. -/
def Block.refLost (s : Block) (d : List Word) : Block :=
  ((((s.wb CLK_STATUS 0 false).wb CLK_STATUS 1 true).wb CLK_STATUS 2 true).bump CLK_CNT_LOST).event srcHealth 0x0201 d

/-- The domains that move to the alternate reference. -/
def Block.movedOf (s : Block) : Nat := if s.bit CLK_ALT_CFG 5 && s.altReady then 7 - s.onAlt else 0

theorem refclkLossEffect_eq (cause : Nat) (s : Block) : ∃ d, refclkLossEffect cause s =
    ((s.refLost d).switchTo s.movedOf true true).coast (7 - s.onAlt - s.movedOf + 8) := by
  unfold refclkLossEffect Block.refLost Block.movedOf
  exact ⟨_, rfl⟩

theorem Block.refLost_spec (s : Block) (d : List Word) : { s.refLost d with regs := s.regs, ice := s.ice } = s ∧
    (s.refLost d).ice.perm = s.ice.perm ∧ (s.refLost d).bit CLK_STATUS 0 = false ∧ (s.refLost d).bit CLK_STATUS 1 = true ∧
    (s.refLost d).bit CLK_STATUS 2 = true ∧ (s.refLost d).rg CLK_CNT_LOST = (s.bump CLK_CNT_LOST).rg CLK_CNT_LOST ∧
    ∀ a, a ≠ CLK_STATUS → a ≠ CLK_CNT_LOST → a ≠ ICE_DROPPED → (s.refLost d).rg a = s.rg a := by
  unfold Block.refLost
  have hn : CLK_CNT_LOST ≠ CLK_STATUS := by decide
  obtain ⟨a, ha⟩ : ∃ a, a = ((s.wb CLK_STATUS 0 false).wb CLK_STATUS 1 true).wb CLK_STATUS 2 true := ⟨_, rfl⟩
  have a1 : { a with regs := s.regs } = s := by simp [ha]
  have a2 : ∀ r, r ≠ CLK_STATUS → a.rg r = s.rg r := fun r hr => by
    rw [ha, Block.rg_wb_other _ _ _ hr, Block.rg_wb_other _ _ _ hr, Block.rg_wb_other _ _ _ hr]
  have b0 : a.bit CLK_STATUS 0 = false := by
    rw [ha, Block.bit_wb_other _ _ (by omega) (Or.inr (by omega)), Block.bit_wb_other _ _ (by omega) (Or.inr (by omega)),
      Block.bit_wb_same _ _ _ (by omega)]
  have b1 : a.bit CLK_STATUS 1 = true := by
    rw [ha, Block.bit_wb_other _ _ (by omega) (Or.inr (by omega)), Block.bit_wb_same _ _ _ (by omega)]
  have b2 : a.bit CLK_STATUS 2 = true := by rw [ha, Block.bit_wb_same _ _ _ (by omega)]
  rw [← ha]
  have c1 : { a.bump CLK_CNT_LOST with regs := s.regs } = { a with regs := s.regs } := by simp [Block.bump]
  have c2 : ∀ r, r ≠ CLK_CNT_LOST → (a.bump CLK_CNT_LOST).rg r = a.rg r := fun r hr => Block.rg_bump_other _ _ hr
  have c3 : (a.bump CLK_CNT_LOST).rg CLK_CNT_LOST = (s.bump CLK_CNT_LOST).rg CLK_CNT_LOST := Block.rg_bump_congr (a2 _ hn) 1
  obtain ⟨c, hc⟩ : ∃ c, c = a.bump CLK_CNT_LOST := ⟨_, rfl⟩
  rw [← hc] at c1 c2 c3 ⊢
  have v1 : ∀ r, r ≠ ICE_DROPPED → (c.event srcHealth 0x0201 d).rg r = c.rg r := fun r h => Block.rg_event _ _ _ _ h
  have v2 : { c.event srcHealth 0x0201 d with regs := s.regs, ice := s.ice } = { c with regs := s.regs, ice := s.ice } := by simp
  have v3 : (c.event srcHealth 0x0201 d).ice.perm = c.ice.perm := by simp
  obtain ⟨t, ht⟩ : ∃ t, t = c.event srcHealth 0x0201 d := ⟨_, rfl⟩
  rw [← ht] at v1 v2 v3 ⊢
  have hbit : ∀ i, t.bit CLK_STATUS i = a.bit CLK_STATUS i := fun i =>
    (congrArg (fun w : Word => w.bit i) ((v1 _ (by decide)).trans (c2 _ hn.symm)) :)
  refine ⟨?_, ?_, (hbit 0).trans b0, (hbit 1).trans b1, (hbit 2).trans b2, (v1 _ (by decide)).trans c3, fun r h1 h2 h3 => ?_⟩
  · exact v2.trans ((congrArg (fun x : Block => { x with ice := s.ice }) c1 :).trans (congrArg (fun x : Block => { x with ice := s.ice }) a1 :))
  · exact v3.trans ((congrArg (fun x : Block => x.ice.perm) c1 :).trans (congrArg (fun x : Block => x.ice.perm) a1 :))
  · exact (v1 r h3).trans ((c2 r h2).trans (a2 r h1))

/-- A switch of a set that may be empty: what it keeps, and what it leaves. -/
structure Block.mayswitched (t s : Block) (m : Nat) (alt : Bool) : Prop where
  onAlt : t.onAlt = altAfter s.onAlt m alt
  clk : t.clk = s.clk.set m false
  status : ∀ i, i ≠ 7 → t.bit CLK_STATUS i = s.bit CLK_STATUS i
  regs : ∀ a, a ≠ CLK_SEL → a ≠ CLK_STATUS → a ≠ CLK_CNT_SWITCH → a ≠ ICE_DROPPED → t.rg a = s.rg a
  rest : { t with regs := s.regs, clk := s.clk, ice := s.ice } = s
  perm : t.ice.perm = s.ice.perm

theorem Clocks.set_zero (c : Clocks) (v : Bool) : c.set 0 v = c := by simp [Clocks.set]

theorem altAfter_zero (o : Nat) (alt : Bool) : altAfter o 0 alt = o := by cases alt <;> simp [altAfter]

theorem Block.switchTo_mayswitched (s : Block) {m : Nat} (alt auto : Bool) (h8 : m < 8) : (s.switchTo m alt auto).mayswitched s m alt := by
  by_cases hm : m = 0
  · have he : s.switchTo m alt auto = s := if_pos hm
    rw [he, hm]
    exact ⟨(altAfter_zero ..).symm, (Clocks.set_zero ..).symm, fun _ _ => rfl, fun _ _ _ _ _ => rfl, rfl, rfl⟩
  · have h := s.switchTo_switched alt auto hm h8
    exact ⟨h.onAlt, h.clk, h.status, h.regs, h.rest, h.perm⟩

theorem altAfter_moved {o m : Nat} (ho : o < 8) (hm : m = 0 ∨ m = 7 - o) : altAfter o m true = o + m := by
  obtain rfl | rfl := hm
  · exact altAfter_zero ..
  · have h : ∀ o, o < 8 → altAfter o (7 - o) true = o + (7 - o) := by decide
    exact h o ho

theorem Block.movedOf_cases (s : Block) : s.movedOf = 0 ∨ s.movedOf = 7 - s.onAlt := by
  unfold Block.movedOf
  split
  · exact Or.inr rfl
  · exact Or.inl rfl

theorem testBit3_stay {n : Nat} (h : n < 8) : (n + 8).testBit 3 = true := by
  have hall : ∀ n, n < 8 → (n + 8).testBit 3 = true := by decide
  exact hall n h

theorem Clocks.coasting_pcie {c : Clocks} (h : c.coastPcie = true) : (c.coasting != 0) = true := by
  unfold Clocks.coasting
  rw [h]
  simp [b2n]

/-- The block in which a loss of the reference finds the domains that coast. -/
theorem Block.lossSwitched (s : Block) (d : List Word) :
    (((s.refLost d).switchTo s.movedOf true true)).onAlt = s.onAlt + s.movedOf ∧
    ((s.refLost d).switchTo s.movedOf true true).mayswitched (s.refLost d) s.movedOf true := by
  have h8 : s.movedOf < 8 := by
    have := s.movedOf_cases
    omega
  have h := (s.refLost d).switchTo_mayswitched true true h8
  obtain ⟨-, -, -, -, -, -, hr⟩ := s.refLost_spec d
  have hsel : (s.refLost d).onAlt = s.onAlt := (congrArg (fun w : Word => w.fld 2 0) (hr CLK_SEL (by decide) (by decide) (by decide)) :)
  refine ⟨?_, h⟩
  rw [h.onAlt, hsel]
  exact altAfter_moved s.onAlt_lt s.movedOf_cases

theorem effRefclkLoss_lost {cause : Nat} {s : Block} (hm : s.monitorOn = true) (h1 : s.bit CLK_STATUS 1 = false) :
    effRefclkLoss cause s = refclkLossEffect cause s := by
  unfold effRefclkLoss
  rw [if_pos hm, h1]
  rfl

theorem refclkLoss_coasts (s : State) (cause moved stay : Nat) (hm : s.blk.monitorOn = true) (h1 : s.blk.bit CLK_STATUS 1 = false)
    (hmoved : moved = (if s.blk.bit CLK_ALT_CFG 5 && s.blk.altReady then 7 - s.blk.onAlt else 0))
    (hstay : stay = 7 - s.blk.onAlt - moved + 8)
    (hq : stay.testBit 2 = false ∨ (List.range 16).all (fun p => !s.blk.portUp p) = true) :
    ∃ t : State, exec (.refclkLoss cause) s = .next t ∧ t.pending = s.pending ∧ t.blk.refOk = false ∧ t.blk.bit CLK_STATUS 1 = true ∧
      t.blk.bit CLK_STATUS 2 = true ∧ t.blk.bit CLK_STATUS 7 = true ∧ t.blk.onAlt = s.blk.onAlt + moved ∧
      t.blk.clk = ((s.blk.clk.set moved false).set stay true) ∧
      t.blk.rg CLK_CNT_LOST = (s.blk.bump CLK_CNT_LOST).rg CLK_CNT_LOST ∧ t.blk.rg MOR_HOST_LINK = 0 ∧
      { t.blk with regs := s.blk.regs, clk := s.blk.clk, ice := s.blk.ice } =
        { s.blk with start := { s.blk.start with linkUp := false } } := by
  have hx : exec (.refclkLoss cause) s = onBlk (effRefclkLoss cause) s := rfl
  obtain ⟨d, he⟩ := refclkLossEffect_eq cause s.blk
  have hmv : moved = s.blk.movedOf := hmoved
  rw [← hmv, ← hstay] at he
  obtain ⟨l1, l2, l3, l4, l5, l6, l7⟩ := s.blk.refLost_spec d
  obtain ⟨w0, w⟩ := s.blk.lossSwitched d
  rw [← hmv] at w0 w
  obtain ⟨a, ha⟩ : ∃ a, a = s.blk.refLost d := ⟨_, rfl⟩
  rw [← ha] at he l1 l2 l3 l4 l5 l6 l7 w0 w
  obtain ⟨b, hb⟩ : ∃ b, b = a.switchTo moved true true := ⟨_, rfl⟩
  rw [← hb] at he w0 w
  have hports : ∀ p, b.portUp p = s.blk.portUp p := by
    intro p
    have e : ESK_STATE p = 0x00800000 + p * 0x80000 + 0 := rfl
    have e1 : CLK_SEL = 0x00100004 := rfl
    have e2 : CLK_STATUS = 0x00100000 := rfl
    have e3 : CLK_CNT_SWITCH = 0x00100038 := rfl
    have e4 : CLK_CNT_LOST = 0x00100030 := rfl
    have e5 : ICE_DROPPED = 0x0040001C := rfl
    exact Block.portUp_congr ((w.regs _ (by omega) (by omega) (by omega) (by omega)).trans (l7 _ (by omega) (by omega) (by omega)))
  have hc := Block.coast_quiet (s := b) (m := stay) (hq.imp_right fun h => by simpa only [hports] using h)
  have h3 : stay.testBit 3 = true := by
    rw [hstay]
    exact testBit3_stay (by omega)
  obtain ⟨c, hcc⟩ : ∃ c, c = b.coast stay := ⟨_, rfl⟩
  rw [← hcc] at he hc
  have hperm : c.ice.perm = s.blk.ice.perm :=
    (congrArg (fun x : Block => x.ice.perm) hc.rest :).trans (w.perm.trans l2)
  have hfuse : c.trust.fuses = s.blk.trust.fuses := (congrArg (fun x : Block => x.trust.fuses) hc.rest :).trans
    ((congrArg (fun x : Block => x.trust.fuses) w.rest :).trans (congrArg (fun x : Block => x.trust.fuses) l1 :))
  have hst : ∀ i, i ≠ 6 → i ≠ 7 → c.bit CLK_STATUS i = a.bit CLK_STATUS i := fun i h6 h7 => (hc.status i h6 h7).trans (w.status i h7)
  have hclk : b.clk = s.blk.clk.set moved false := w.clk.trans (congrArg (fun x : Block => x.clk.set moved false) l1 :)
  have hstart : b.start = s.blk.start := (congrArg Block.start w.rest :).trans (congrArg Block.start l1 :)
  refine ⟨{ s with blk := c }, hx.trans (onBlk_next_of_eq ((effRefclkLoss_lost hm h1).trans he) hfuse hperm), rfl,
    (hst 0 (by omega) (by omega)).trans l3, (hst 1 (by omega) (by omega)).trans l4, (hst 2 (by omega) (by omega)).trans l5, ?_, ?_, ?_, ?_, ?_, ?_⟩
  · refine hc.coasts.trans (Clocks.coasting_pcie ?_)
    exact if_pos h3
  · exact (congrArg (fun w : Word => w.fld 2 0) (hc.regs CLK_SEL (by decide) (by decide)) :).trans w0
  · rw [hc.clk, hclk]
  · exact (hc.regs _ (by decide) (by decide)).trans ((w.regs _ (by decide) (by decide) (by decide) (by decide)).trans l6)
  · rw [hc.link, if_pos h3]
  · have k0 : c.start = { s.blk.start with linkUp := false } := by rw [hc.start, if_pos h3, hstart]
    have k1 := (congrArg (fun x : Block => { x with regs := s.blk.regs, clk := s.blk.clk, ice := s.blk.ice, start := c.start }) hc.rest :)
    have k2 := (congrArg (fun x : Block => { x with regs := s.blk.regs, clk := s.blk.clk, ice := s.blk.ice, start := c.start }) w.rest :)
    have k3 := (congrArg (fun x : Block => { x with clk := s.blk.clk, start := c.start }) l1 :)
    exact (k1.trans (k2.trans k3)).trans (congrArg (fun x => { s.blk with start := x }) k0 :)

theorem refclkLoss_links (s : State) (cause : Nat) (hm : s.blk.monitorOn = true) (h1 : s.blk.bit CLK_STATUS 1 = false) :
    ∃ t : State, exec (.refclkLoss cause) s = .next t ∧ t.pending = s.pending ∧ t.blk.start.linkUp = false ∧ t.blk.clk.coastPcie = true ∧
      t.blk.parts = s.blk.parts ∧ t.blk.bundles = s.blk.bundles := by
  have hx : exec (.refclkLoss cause) s = onBlk (effRefclkLoss cause) s := rfl
  obtain ⟨d, he⟩ := refclkLossEffect_eq cause s.blk
  obtain ⟨l1, -⟩ := s.blk.refLost_spec d
  obtain ⟨-, w⟩ := s.blk.lossSwitched d
  have hst3 : (7 - s.blk.onAlt - s.blk.movedOf + 8).testBit 3 = true := testBit3_stay (by omega)
  obtain ⟨n, hn⟩ : ∃ n, n = 7 - s.blk.onAlt - s.blk.movedOf + 8 := ⟨_, rfl⟩
  rw [← hn] at he hst3
  obtain ⟨a, ha⟩ : ∃ a, a = s.blk.refLost d := ⟨_, rfl⟩
  rw [← ha] at he l1 w
  obtain ⟨b, hb⟩ : ∃ b, b = a.switchTo s.blk.movedOf true true := ⟨_, rfl⟩
  rw [← hb] at he w
  have hc := b.coastHead_coasted n
  have hf := b.coast_linksFell n
  obtain ⟨c, hcc⟩ : ∃ c, c = b.coast n := ⟨_, rfl⟩
  rw [← hcc] at he hf
  obtain ⟨t, ht, hpend, htb⟩ := onBlk_lasting_next (effRefclkLoss cause) s
  rw [effRefclkLoss_lost hm h1, he] at htb
  have hlink : c.start.steady.linkUp = false := by
    rw [hf.start, hc.start, if_pos hst3]
    rfl
  refine ⟨t, hx.trans ht, hpend, ?_, ?_, ?_, ?_⟩
  · rw [htb, Block.lasting_start]
    exact hlink
  · rw [htb, Block.lasting_clk, hf.clk, hc.clk]
    exact if_pos hst3
  · rw [htb, Block.lasting_parts, hf.parts]
    exact (congrArg Block.parts hc.rest :).trans ((congrArg Block.parts w.rest :).trans (congrArg Block.parts l1 :))
  · rw [htb, Block.lasting_bundles, hf.bundles]
    exact (congrArg Block.bundles hc.rest :).trans ((congrArg Block.bundles w.rest :).trans (congrArg Block.bundles l1 :))

theorem refclkLoss_known (s : State) (cause : Nat) (hm : s.blk.monitorOn = true) (h1 : s.blk.bit CLK_STATUS 1 = true) :
    exec (.refclkLoss cause) s = .next s := by
  have hx : exec (.refclkLoss cause) s = onBlk (effRefclkLoss cause) s := rfl
  refine hx.trans (onBlk_idle ?_)
  unfold effRefclkLoss
  rw [if_pos hm, if_pos h1]

theorem refclkLoss_early (s : State) (cause : Nat) (hm : s.blk.monitorOn = false) :
    exec (.refclkLoss cause) s = .next (if s.blk.bit MOR_START 4 then
      { s with blk := { s.blk with start := { s.blk.start with refStopped := true } } } else s) := by
  have hx : exec (.refclkLoss cause) s = onBlk (effRefclkLoss cause) s := rfl
  have he : effRefclkLoss cause s.blk =
      if s.blk.bit MOR_START 4 then { s.blk with start := { s.blk.start with refStopped := true } } else s.blk := by
    unfold effRefclkLoss
    rw [hm]
    rfl
  by_cases h4 : s.blk.bit MOR_START 4 = true
  · rw [if_pos h4] at he ⊢
    exact hx.trans (onBlk_next_of_eq he rfl rfl)
  · rw [if_neg h4] at he ⊢
    exact hx.trans (onBlk_idle he)

/-! ### The reference is back -/

/-- What coasted runs again. -/
def Block.relocked (s : Block) : Block := (({ s with clk := s.clk.set 15 false } : Block).wb CLK_STATUS 0 true).showCoast

/-- The forwarded reference with its spread, where the timebase is on REFCLK. -/
def Block.spreadBack (s : Block) : Block := if s.onAlt.testBit 0 then s else s.wb CLK_STATUS 6 (s.bit CLK_SPREAD_ACT 20)

/-- REF_LOST clears. -/
def Block.refBack (s : Block) : Block := s.wb CLK_STATUS 1 false

theorem refclkRestoreEffect_eq (us : Nat) (s : Block) : refclkRestoreEffect us s =
    if s.bit CLK_STATUS 1 then (s.relocked.spreadBack.refBack).event srcHealth 0x0202 [w32 us] else s.relocked.spreadBack.refBack := rfl

theorem Block.relocked_spec (s : Block) : { s.relocked with regs := s.regs, clk := s.clk } = s ∧ s.relocked.clk.coasting = 0 ∧
    s.relocked.bit CLK_STATUS 0 = true ∧ s.relocked.bit CLK_STATUS 7 = false ∧ ∀ a, a ≠ CLK_STATUS → s.relocked.rg a = s.rg a := by
  unfold Block.relocked
  obtain ⟨a, ha⟩ : ∃ a, a = ({ s with clk := s.clk.set 15 false } : Block) := ⟨_, rfl⟩
  have a1 : { a with clk := s.clk } = s := ha ▸ rfl
  have a2 : a.clk.coasting = 0 := ha ▸ rfl
  rw [← ha]
  have b1 : { a.wb CLK_STATUS 0 true with regs := s.regs } = { a with regs := s.regs } := by simp
  have b2 : ∀ r, r ≠ CLK_STATUS → (a.wb CLK_STATUS 0 true).rg r = a.rg r := fun r hr => Block.rg_wb_other _ _ _ hr
  have b3 : (a.wb CLK_STATUS 0 true).bit CLK_STATUS 0 = true := Block.bit_wb_same _ _ _ (by omega)
  obtain ⟨b, hb⟩ : ∃ b, b = a.wb CLK_STATUS 0 true := ⟨_, rfl⟩
  rw [← hb] at b1 b2 b3 ⊢
  obtain ⟨c1, c2, c3, c4⟩ := b.showCoast_spec
  obtain ⟨c, hc⟩ : ∃ c, c = b.showCoast := ⟨_, rfl⟩
  rw [← hc] at c1 c2 c3 c4 ⊢
  have hbc : b.clk = a.clk := (congrArg Block.clk b1 :)
  have hcb : c.clk = b.clk := (congrArg Block.clk c1 :)
  refine ⟨?_, ?_, (c3 0 (by omega)).trans b3, ?_, fun r hr => (c4 r hr).trans ((b2 r hr).trans (congrArg (fun x : Block => x.rg r) a1 :))⟩
  · exact (congrArg (fun x : Block => { x with regs := s.regs, clk := s.clk }) c1 :).trans
      ((congrArg (fun x : Block => { x with clk := s.clk }) b1 :).trans (congrArg (fun x : Block => { x with regs := s.regs }) a1 :))
  · rw [hcb, hbc, a2]
  · rw [c2, hbc, a2]
    rfl

theorem Block.spreadBack_spec (s : Block) : { s.spreadBack with regs := s.regs } = s ∧
    (∀ i, i ≠ 6 → s.spreadBack.bit CLK_STATUS i = s.bit CLK_STATUS i) ∧
    (s.onAlt.testBit 0 = false → s.spreadBack.bit CLK_STATUS 6 = s.bit CLK_SPREAD_ACT 20) ∧
    ∀ a, a ≠ CLK_STATUS → s.spreadBack.rg a = s.rg a := by
  unfold Block.spreadBack
  split
  · rename_i h
    exact ⟨rfl, fun _ _ => rfl, fun h' => absurd h (by rw [h']; decide), fun _ _ => rfl⟩
  · exact ⟨by simp, fun i hi => Block.bit_wb_other _ _ (by omega) (Or.inr hi), fun _ => Block.bit_wb_same _ _ _ (by omega),
      fun a ha => Block.rg_wb_other _ _ _ ha⟩

theorem Block.refBack_spec (s : Block) : { s.refBack with regs := s.regs } = s ∧ s.refBack.bit CLK_STATUS 1 = false ∧
    (∀ i, i ≠ 1 → s.refBack.bit CLK_STATUS i = s.bit CLK_STATUS i) ∧ ∀ a, a ≠ CLK_STATUS → s.refBack.rg a = s.rg a := by
  unfold Block.refBack
  exact ⟨by simp, Block.bit_wb_same _ _ _ (by omega), fun i hi => Block.bit_wb_other _ _ (by omega) (Or.inr hi),
    fun a ha => Block.rg_wb_other _ _ _ ha⟩

/-- An event changes the ice core, and what it drops. -/
structure Block.reported (t s : Block) : Prop where
  rest : { t with regs := s.regs, ice := s.ice } = s
  perm : t.ice.perm = s.ice.perm
  regs : ∀ a, a ≠ ICE_DROPPED → t.rg a = s.rg a

theorem Block.event_reported (s : Block) (src ev : Nat) (d : List Word) : (s.event src ev d).reported s :=
  ⟨by simp, by simp, fun _ h => Block.rg_event _ _ _ _ h⟩

theorem refclkRestore_runs (s : State) (us : Nat) (hm : s.blk.monitorOn = true) (hr : s.blk.refOk = false) :
    ∃ t : State, exec (.refclkRestore us) s = .next t ∧ t.pending = s.pending ∧ t.blk.refOk = true ∧ t.blk.bit CLK_STATUS 1 = false ∧
      t.blk.bit CLK_STATUS 7 = false ∧ t.blk.clk.coasting = 0 ∧ t.blk.onAlt = s.blk.onAlt ∧
      (s.blk.onAlt.testBit 0 = false → t.blk.bit CLK_STATUS 6 = s.blk.bit CLK_SPREAD_ACT 20) ∧
      { t.blk with regs := s.blk.regs, clk := s.blk.clk, ice := s.blk.ice } = s.blk := by
  have hx : exec (.refclkRestore us) s = onBlk (effRefclkRestore us) s := rfl
  have he : effRefclkRestore us s.blk = refclkRestoreEffect us s.blk := if_pos (by rw [hm, hr]; rfl)
  rw [refclkRestoreEffect_eq] at he
  obtain ⟨a1, a2, a3, a4, a5⟩ := s.blk.relocked_spec
  obtain ⟨a, ha⟩ : ∃ a, a = s.blk.relocked := ⟨_, rfl⟩
  rw [← ha] at he a1 a2 a3 a4 a5
  obtain ⟨b1, b2, b3, b4⟩ := a.spreadBack_spec
  obtain ⟨b, hb⟩ : ∃ b, b = a.spreadBack := ⟨_, rfl⟩
  rw [← hb] at he b1 b2 b3 b4
  obtain ⟨c1, c2, c3, c4⟩ := b.refBack_spec
  obtain ⟨c, hc⟩ : ∃ c, c = b.refBack := ⟨_, rfl⟩
  rw [← hc] at he c1 c2 c3 c4
  obtain ⟨d, hd, hrep⟩ : ∃ d, effRefclkRestore us s.blk = d ∧ d.reported c := by
    refine ⟨_, he, ?_⟩
    split
    · exact Block.event_reported ..
    · exact ⟨rfl, rfl, fun _ _ => rfl⟩
  have hsel : a.onAlt = s.blk.onAlt := (congrArg (fun w : Word => w.fld 2 0) (a5 CLK_SEL (by decide)) :)
  have hspr : a.bit CLK_SPREAD_ACT 20 = s.blk.bit CLK_SPREAD_ACT 20 :=
    (congrArg (fun w : Word => w.bit 20) (a5 CLK_SPREAD_ACT (by decide)) :)
  have hbit : ∀ i, d.bit CLK_STATUS i = c.bit CLK_STATUS i := fun i => (congrArg (fun w : Word => w.bit i) (hrep.regs CLK_STATUS (by decide)) :)
  have hrest : { d with regs := s.blk.regs, clk := s.blk.clk, ice := s.blk.ice } = s.blk := by
    have k1 := (congrArg (fun x : Block => { x with regs := s.blk.regs, clk := s.blk.clk, ice := s.blk.ice }) hrep.rest :)
    have k2 := (congrArg (fun x : Block => { x with regs := s.blk.regs, clk := s.blk.clk, ice := s.blk.ice }) c1 :)
    have k3 := (congrArg (fun x : Block => { x with regs := s.blk.regs, clk := s.blk.clk, ice := s.blk.ice }) b1 :)
    exact k1.trans (k2.trans (k3.trans (congrArg (fun x : Block => { x with ice := s.blk.ice }) a1 :)))
  have hperm : d.ice.perm = s.blk.ice.perm := hrep.perm.trans ((congrArg (fun x : Block => x.ice.perm) c1 :).trans
    ((congrArg (fun x : Block => x.ice.perm) b1 :).trans (congrArg (fun x : Block => x.ice.perm) a1 :)))
  have hclk : d.clk = a.clk := (congrArg Block.clk hrep.rest :).trans ((congrArg Block.clk c1 :).trans (congrArg Block.clk b1 :))
  refine ⟨{ s with blk := d }, hx.trans (onBlk_next_of_eq hd (congrArg (fun x : Block => x.trust.fuses) hrest :) hperm), rfl,
    (hbit 0).trans ((c3 0 (by omega)).trans ((b2 0 (by omega)).trans a3)), (hbit 1).trans c2,
    (hbit 7).trans ((c3 7 (by omega)).trans ((b2 7 (by omega)).trans a4)), ?_, ?_, fun h0 => ?_, hrest⟩
  · rw [hclk, a2]
  · refine Eq.trans (congrArg (fun w : Word => w.fld 2 0) ?_ :) hsel
    exact (hrep.regs _ (by decide)).trans ((c4 _ (by decide)).trans (b4 _ (by decide)))
  · exact (hbit 6).trans ((c3 6 (by omega)).trans ((b3 (hsel ▸ h0)).trans hspr))

theorem refclkRestore_idle (s : State) (us : Nat) (h : s.blk.monitorOn = false ∨ s.blk.refOk = true) :
    exec (.refclkRestore us) s = .next s := by
  have hx : exec (.refclkRestore us) s = onBlk (effRefclkRestore us) s := rfl
  refine hx.trans (onBlk_idle (if_neg ?_))
  obtain h | h := h <;> simp [h]

/-! ### The alternate reference ends -/

/-- ALT_READY clears. -/
def Block.altGone (s : Block) : Block := s.wb CLK_STATUS 3 false

/-- The loss of an alternate reference in use, and its event. -/
def Block.altLost (s : Block) (d : List Word) : Block := (s.altGone.wb CLK_STATUS 4 true).event srcHealth 0x0204 d

theorem altLossEffect_eq (s : Block) : ∃ d, altLossEffect s = if s.onAlt = 0 then s.altGone else
    if s.altGone.refOk then (s.altLost d).switchTo s.onAlt false true else ((s.altLost d).wf CLK_SEL 2 0 0).coast s.onAlt := by
  unfold altLossEffect Block.altLost Block.altGone
  exact ⟨_, rfl⟩

theorem Block.altGone_spec (s : Block) : { s.altGone with regs := s.regs } = s ∧ s.altGone.bit CLK_STATUS 3 = false ∧
    (∀ i, i ≠ 3 → s.altGone.bit CLK_STATUS i = s.bit CLK_STATUS i) ∧ ∀ a, a ≠ CLK_STATUS → s.altGone.rg a = s.rg a := by
  unfold Block.altGone
  exact ⟨by simp, Block.bit_wb_same _ _ _ (by omega), fun i hi => Block.bit_wb_other _ _ (by omega) (Or.inr hi),
    fun a ha => Block.rg_wb_other _ _ _ ha⟩

theorem Block.altLost_spec (s : Block) (d : List Word) : { s.altLost d with regs := s.regs, ice := s.ice } = s ∧
    (s.altLost d).ice.perm = s.ice.perm ∧ (s.altLost d).bit CLK_STATUS 3 = false ∧ (s.altLost d).bit CLK_STATUS 4 = true ∧
    ∀ a, a ≠ CLK_STATUS → a ≠ ICE_DROPPED → (s.altLost d).rg a = s.rg a := by
  unfold Block.altLost
  obtain ⟨a1, a2, -, a4⟩ := s.altGone_spec
  obtain ⟨a, ha⟩ : ∃ a, a = s.altGone := ⟨_, rfl⟩
  rw [← ha] at a1 a2 a4 ⊢
  have b1 : { a.wb CLK_STATUS 4 true with regs := s.regs } = { a with regs := s.regs } := by simp
  have b2 : ∀ r, r ≠ CLK_STATUS → (a.wb CLK_STATUS 4 true).rg r = a.rg r := fun r hr => Block.rg_wb_other _ _ _ hr
  have b3 : (a.wb CLK_STATUS 4 true).bit CLK_STATUS 4 = true := Block.bit_wb_same _ _ _ (by omega)
  have b4 : (a.wb CLK_STATUS 4 true).bit CLK_STATUS 3 = false := (Block.bit_wb_other _ _ (by omega) (Or.inr (by omega))).trans a2
  obtain ⟨b, hb⟩ : ∃ b, b = a.wb CLK_STATUS 4 true := ⟨_, rfl⟩
  rw [← hb] at b1 b2 b3 b4 ⊢
  have hv := b.event_reported srcHealth 0x0204 d
  obtain ⟨c, hc⟩ : ∃ c, c = b.event srcHealth 0x0204 d := ⟨_, rfl⟩
  rw [← hc] at hv ⊢
  have hbit : ∀ i, c.bit CLK_STATUS i = b.bit CLK_STATUS i := fun i => (congrArg (fun w : Word => w.bit i) (hv.regs CLK_STATUS (by decide)) :)
  refine ⟨?_, ?_, (hbit 3).trans b4, (hbit 4).trans b3, fun r h1 h2 => (hv.regs r h2).trans ((b2 r h1).trans (a4 r h1))⟩
  · exact (congrArg (fun x : Block => { x with regs := s.regs, ice := s.ice }) hv.rest :).trans
      ((congrArg (fun x : Block => { x with ice := s.ice }) b1 :).trans (congrArg (fun x : Block => { x with ice := s.ice }) a1 :))
  · exact hv.perm.trans ((congrArg (fun x : Block => x.ice.perm) b1 :).trans (congrArg (fun x : Block => x.ice.perm) a1 :))

theorem effAltReadyLoss_due {s : Block} (h : s.bit CLK_STATUS 3 = true) : effAltReadyLoss s = altLossEffect s := if_pos h

theorem Block.refOk_altGone (s : Block) : s.altGone.refOk = s.refOk := s.altGone_spec.2.2.1 0 (by omega)

theorem altReadyLoss_unused (s : State) (h3 : s.blk.bit CLK_STATUS 3 = true) (h0 : s.blk.onAlt = 0) :
    ∃ t : State, exec .altReadyLoss s = .next t ∧ t.pending = s.pending ∧ t.blk.bit CLK_STATUS 3 = false ∧
      t.blk.bit CLK_STATUS 4 = s.blk.bit CLK_STATUS 4 ∧ { t.blk with regs := s.blk.regs } = s.blk := by
  have hx : exec .altReadyLoss s = onBlk effAltReadyLoss s := rfl
  obtain ⟨d, he⟩ := altLossEffect_eq s.blk
  rw [if_pos h0] at he
  obtain ⟨a1, a2, a3, -⟩ := s.blk.altGone_spec
  obtain ⟨a, ha⟩ : ∃ a, a = s.blk.altGone := ⟨_, rfl⟩
  rw [← ha] at he a1 a2 a3
  exact ⟨{ s with blk := a }, hx.trans (onBlk_next_of_eq ((effAltReadyLoss_due h3).trans he) (congrArg (fun x : Block => x.trust.fuses) a1 :)
    (congrArg (fun x : Block => x.ice.perm) a1 :)), rfl, a2, a3 4 (by omega), a1⟩

theorem altAfter_all (o : Nat) : altAfter o o false = 0 := by simp [altAfter]

theorem altReadyLoss_returns (s : State) (h3 : s.blk.bit CLK_STATUS 3 = true) (h0 : s.blk.onAlt ≠ 0) (hr : s.blk.refOk = true) :
    ∃ t : State, exec .altReadyLoss s = .next t ∧ t.pending = s.pending ∧ t.blk.bit CLK_STATUS 3 = false ∧ t.blk.bit CLK_STATUS 4 = true ∧
      t.blk.onAlt = 0 ∧ t.blk.clk = s.blk.clk.set s.blk.onAlt false ∧
      t.blk.rg CLK_CNT_SWITCH = (s.blk.bump CLK_CNT_SWITCH).rg CLK_CNT_SWITCH ∧
      { t.blk with regs := s.blk.regs, clk := s.blk.clk, ice := s.blk.ice } = s.blk := by
  have hx : exec .altReadyLoss s = onBlk effAltReadyLoss s := rfl
  obtain ⟨d, he⟩ := altLossEffect_eq s.blk
  rw [if_neg h0, if_pos (s.blk.refOk_altGone.trans hr)] at he
  obtain ⟨a1, a2, a3, a4, a5⟩ := s.blk.altLost_spec d
  have w := (s.blk.altLost d).switchTo_switched false true h0 s.blk.onAlt_lt
  obtain ⟨a, ha⟩ : ∃ a, a = s.blk.altLost d := ⟨_, rfl⟩
  rw [← ha] at he a1 a2 a3 a4 a5 w
  obtain ⟨b, hb⟩ : ∃ b, b = a.switchTo s.blk.onAlt false true := ⟨_, rfl⟩
  rw [← hb] at he w
  have hsel : a.onAlt = s.blk.onAlt := (congrArg (fun w : Word => w.fld 2 0) (a5 CLK_SEL (by decide) (by decide)) :)
  have hrest : { b with regs := s.blk.regs, clk := s.blk.clk, ice := s.blk.ice } = s.blk :=
    (congrArg (fun x : Block => { x with regs := s.blk.regs, clk := s.blk.clk, ice := s.blk.ice }) w.rest :).trans
      (congrArg (fun x : Block => { x with clk := s.blk.clk }) a1 :)
  refine ⟨{ s with blk := b }, hx.trans (onBlk_next_of_eq ((effAltReadyLoss_due h3).trans he)
    (congrArg (fun x : Block => x.trust.fuses) hrest :) (w.perm.trans a2)), rfl, (w.status 3 (by omega)).trans a3,
    (w.status 4 (by omega)).trans a4, ?_, ?_, ?_, hrest⟩
  · rw [w.onAlt, hsel, altAfter_all]
  · exact w.clk.trans (congrArg (fun x : Block => x.clk.set s.blk.onAlt false) a1 :)
  · exact w.count.trans (Block.rg_bump_congr (a5 _ (by decide) (by decide)) 1)

theorem altReadyLoss_coasts (s : State) (h3 : s.blk.bit CLK_STATUS 3 = true) (h0 : s.blk.onAlt ≠ 0) (hr : s.blk.refOk = false)
    (hq : s.blk.onAlt.testBit 2 = false ∨ (List.range 16).all (fun p => !s.blk.portUp p) = true) :
    ∃ t : State, exec .altReadyLoss s = .next t ∧ t.pending = s.pending ∧ t.blk.bit CLK_STATUS 3 = false ∧ t.blk.bit CLK_STATUS 4 = true ∧
      t.blk.onAlt = 0 ∧ t.blk.clk = s.blk.clk.set s.blk.onAlt true ∧ t.blk.bit CLK_STATUS 7 = true ∧
      { t.blk with regs := s.blk.regs, clk := s.blk.clk, ice := s.blk.ice } = s.blk := by
  have hx : exec .altReadyLoss s = onBlk effAltReadyLoss s := rfl
  obtain ⟨d, he⟩ := altLossEffect_eq s.blk
  rw [if_neg h0, if_neg (by rw [s.blk.refOk_altGone, hr]; decide)] at he
  obtain ⟨a1, a2, a3, a4, a5⟩ := s.blk.altLost_spec d
  obtain ⟨a, ha⟩ : ∃ a, a = s.blk.altLost d := ⟨_, rfl⟩
  rw [← ha] at he a1 a2 a3 a4 a5
  have b1 : { a.wf CLK_SEL 2 0 0 with regs := s.blk.regs } = { a with regs := s.blk.regs } := by simp
  have b2 : ∀ r, r ≠ CLK_SEL → (a.wf CLK_SEL 2 0 0).rg r = a.rg r := fun r hr => Block.rg_wf_other _ _ _ _ hr
  have b3 : (a.wf CLK_SEL 2 0 0).onAlt = 0 := Block.fld_wf_same _ _ _ (by omega) (by omega)
  obtain ⟨b, hb⟩ : ∃ b, b = a.wf CLK_SEL 2 0 0 := ⟨_, rfl⟩
  rw [← hb] at he b1 b2 b3
  have hports : ∀ p, b.portUp p = s.blk.portUp p := by
    intro p
    have e : ESK_STATE p = 0x00800000 + p * 0x80000 + 0 := rfl
    have e1 : CLK_SEL = 0x00100004 := rfl
    have e2 : CLK_STATUS = 0x00100000 := rfl
    have e5 : ICE_DROPPED = 0x0040001C := rfl
    exact Block.portUp_congr ((b2 _ (by omega)).trans (a5 _ (by omega) (by omega)))
  have hc := Block.coast_quiet (s := b) (m := s.blk.onAlt) (hq.imp_right fun h => by simpa only [hports] using h)
  have hpc : s.blk.onAlt.testBit 3 = false := Nat.testBit_lt_two_pow (by have := s.blk.onAlt_lt; omega)
  obtain ⟨c, hcc⟩ : ∃ c, c = b.coast s.blk.onAlt := ⟨_, rfl⟩
  rw [← hcc] at he hc
  have hbs : ∀ i, b.bit CLK_STATUS i = a.bit CLK_STATUS i := fun i => (congrArg (fun w : Word => w.bit i) (b2 CLK_STATUS (by decide)) :)
  have hbclk : b.clk = s.blk.clk := (congrArg Block.clk b1 :).trans (congrArg Block.clk a1 :)
  have hbst : b.start = s.blk.start := (congrArg Block.start b1 :).trans (congrArg Block.start a1 :)
  have hstart : c.start = s.blk.start := by rw [hc.start, hpc, hbst]; rfl
  have hrest : { c with regs := s.blk.regs, clk := s.blk.clk, ice := s.blk.ice } = s.blk := by
    have k1 := (congrArg (fun x : Block => { x with regs := s.blk.regs, clk := s.blk.clk, ice := s.blk.ice, start := c.start }) hc.rest :)
    have k2 := (congrArg (fun x : Block => { x with clk := s.blk.clk, ice := s.blk.ice, start := c.start }) b1 :)
    have k3 := (congrArg (fun x : Block => { x with clk := s.blk.clk, start := c.start }) a1 :)
    exact (k1.trans (k2.trans k3)).trans (congrArg (fun x => { s.blk with start := x }) hstart :)
  have hperm : c.ice.perm = s.blk.ice.perm := (congrArg (fun x : Block => x.ice.perm) hc.rest :).trans
    ((congrArg (fun x : Block => x.ice.perm) b1 :).trans a2)
  refine ⟨{ s with blk := c }, hx.trans (onBlk_next_of_eq ((effAltReadyLoss_due h3).trans he)
    (congrArg (fun x : Block => x.trust.fuses) hrest :) hperm), rfl, (hc.status 3 (by omega) (by omega)).trans ((hbs 3).trans a3),
    (hc.status 4 (by omega) (by omega)).trans ((hbs 4).trans a4), ?_, ?_, ?_, hrest⟩
  · exact (congrArg (fun w : Word => w.fld 2 0) (hc.regs CLK_SEL (by decide) (by decide)) :).trans b3
  · rw [hc.clk, hbclk]
  · rw [hc.coasts]
    have hne : ∀ o, o < 8 → o ≠ 0 → ∀ c : Clocks, ((c.set o true).coasting != 0) = true := by
      intro o ho h0 c
      have hbits : o.testBit 0 = true ∨ o.testBit 1 = true ∨ o.testBit 2 = true := by
        have hall : ∀ o, o < 8 → o ≠ 0 → o.testBit 0 = true ∨ o.testBit 1 = true ∨ o.testBit 2 = true := by decide
        exact hall o ho h0
      unfold Clocks.set Clocks.coasting
      obtain h | h | h := hbits <;> simp [h, b2n]
    exact hne _ s.blk.onAlt_lt h0 _

theorem altReadyLoss_idle (s : State) (h3 : s.blk.bit CLK_STATUS 3 = false) : exec .altReadyLoss s = .next s := by
  have hx : exec .altReadyLoss s = onBlk effAltReadyLoss s := rfl
  exact hx.trans (onBlk_idle (if_neg (by rw [h3]; decide)))

/-! ### The choice of sources -/

theorem effClkSelWrite_of {i n : Nat} {v : Word} {s : Block} (hi : i = 0 ∨ i = 64) (hn : n = v.fld 2 0) :
    effClkSelWrite i v s = clkSelEffect n s := hn ▸ if_pos hi

/-- The domains that a choice adds to the alternate reference, and those that it takes from it. -/
theorem clkSel_sets {n o : Nat} (hn : n < 8) (ho : o < 8) :
    altAfter (altAfter o (n - (n &&& o)) true) (o - (n &&& o)) false = n ∧ n - (n &&& o) < 8 ∧ o - (n &&& o) < 8 ∧
    (∀ i, i < 4 → (n ^^^ o).testBit i = ((n - (n &&& o)).testBit i || (o - (n &&& o)).testBit i)) ∧
    (n = o ↔ n - (n &&& o) = 0 ∧ o - (n &&& o) = 0) ∧
    (n &&& o = n → n - (n &&& o) = 0) ∧ (n &&& o = o → o - (n &&& o) = 0) := by
  have h : ∀ n, n < 8 → ∀ o, o < 8 →
      altAfter (altAfter o (n - (n &&& o)) true) (o - (n &&& o)) false = n ∧ n - (n &&& o) < 8 ∧ o - (n &&& o) < 8 ∧
      (∀ i, i < 4 → (n ^^^ o).testBit i = ((n - (n &&& o)).testBit i || (o - (n &&& o)).testBit i)) ∧
      (n = o ↔ n - (n &&& o) = 0 ∧ o - (n &&& o) = 0) ∧
      (n &&& o = n → n - (n &&& o) = 0) ∧ (n &&& o = o → o - (n &&& o) = 0) := by decide
  exact h n hn o ho

theorem Clocks.set_set (c : Clocks) (v : Bool) {a b x : Nat} (h : ∀ i, i < 4 → x.testBit i = (a.testBit i || b.testBit i)) :
    (c.set a v).set b v = c.set x v := by
  unfold Clocks.set
  rw [h 0 (by omega), h 1 (by omega), h 2 (by omega), h 3 (by omega)]
  cases a.testBit 0 <;> cases a.testBit 1 <;> cases a.testBit 2 <;> cases a.testBit 3 <;> simp

theorem clkSelWrite_selects (s : State) (i n : Nat) (v : Word) (hi : i = 0 ∨ i = 64) (hn : n = v.fld 2 0)
    (ha : n = 0 ∨ s.blk.altReady = true) (hr : n = 7 ∨ s.blk.refOk = true) :
    ∃ t : State, exec (.clkSelWrite i v) s = .next t ∧ t.pending = s.pending ∧ t.blk.onAlt = n ∧ t.blk.refOk = s.blk.refOk ∧
      t.blk.clk = s.blk.clk.set (n ^^^ s.blk.onAlt) false ∧ t.blk.rg CLK_CNT_REFUSED = s.blk.rg CLK_CNT_REFUSED ∧
      (n = s.blk.onAlt → t.blk = s.blk) ∧
      (n ≠ s.blk.onAlt → (n &&& s.blk.onAlt = n ∨ n &&& s.blk.onAlt = s.blk.onAlt) →
        t.blk.rg CLK_CNT_SWITCH = (s.blk.bump CLK_CNT_SWITCH).rg CLK_CNT_SWITCH) ∧
      { t.blk with regs := s.blk.regs, clk := s.blk.clk, ice := s.blk.ice } = s.blk := by
  have hx : exec (.clkSelWrite i v) s = onBlk (effClkSelWrite i v) s := rfl
  have hsel : s.blk.selReady n = true := by
    unfold Block.selReady
    simp only [Bool.and_eq_true, Bool.or_eq_true, beq_iff_eq]
    exact ⟨ha, hr⟩
  have he : effClkSelWrite i v s.blk = (s.blk.switchTo (n - (n &&& s.blk.onAlt)) true false).switchTo
      (s.blk.onAlt - (n &&& s.blk.onAlt)) false false := (effClkSelWrite_of hi hn).trans (if_pos hsel)
  have hn8 : n < 8 := hn ▸ Word.fld_lt v 2 0
  obtain ⟨q1, q2, q3, q4, q5, q6, q7⟩ := clkSel_sets hn8 s.blk.onAlt_lt
  obtain ⟨x, hxx⟩ : ∃ x, x = n - (n &&& s.blk.onAlt) := ⟨_, rfl⟩
  obtain ⟨y, hy⟩ : ∃ y, y = s.blk.onAlt - (n &&& s.blk.onAlt) := ⟨_, rfl⟩
  rw [← hxx, ← hy] at he q1 q4 q5
  rw [← hxx] at q2 q6
  rw [← hy] at q3 q7
  have w := s.blk.switchTo_mayswitched true false q2
  have wc : x ≠ 0 → (s.blk.switchTo x true false).rg CLK_CNT_SWITCH = (s.blk.bump CLK_CNT_SWITCH).rg CLK_CNT_SWITCH := fun h =>
    (s.blk.switchTo_switched true false h q2).count
  have wz : x = 0 → s.blk.switchTo x true false = s.blk := fun h => if_pos h
  obtain ⟨a, haa⟩ : ∃ a, a = s.blk.switchTo x true false := ⟨_, rfl⟩
  rw [← haa] at he w wc wz
  have z := a.switchTo_mayswitched false false q3
  have zc : y ≠ 0 → (a.switchTo y false false).rg CLK_CNT_SWITCH = (a.bump CLK_CNT_SWITCH).rg CLK_CNT_SWITCH := fun h =>
    (a.switchTo_switched false false h q3).count
  have zz : y = 0 → a.switchTo y false false = a := fun h => if_pos h
  obtain ⟨b, hb⟩ : ∃ b, b = a.switchTo y false false := ⟨_, rfl⟩
  rw [← hb] at he z zc zz
  have hrest : { b with regs := s.blk.regs, clk := s.blk.clk, ice := s.blk.ice } = s.blk :=
    (congrArg (fun x : Block => { x with regs := s.blk.regs, clk := s.blk.clk, ice := s.blk.ice }) z.rest :).trans w.rest
  refine ⟨{ s with blk := b }, hx.trans (onBlk_next_of_eq he (congrArg (fun x : Block => x.trust.fuses) hrest :)
    (z.perm.trans w.perm)), rfl, ?_, (z.status 0 (by omega)).trans (w.status 0 (by omega)), ?_, ?_, fun h => ?_, fun hne hsub => ?_, hrest⟩
  · rw [z.onAlt, w.onAlt, q1]
  · rw [z.clk, w.clk, Clocks.set_set _ _ q4]
  · exact (z.regs _ (by decide) (by decide) (by decide) (by decide)).trans (w.regs _ (by decide) (by decide) (by decide) (by decide))
  · obtain ⟨h1, h2⟩ := q5.1 h
    exact (zz h2).trans (wz h1)
  · obtain h | h := hsub
    · have hx0 := q6 h
      have hy0 : y ≠ 0 := fun hy0 => hne (q5.2 ⟨hx0, hy0⟩)
      rw [zc hy0, wz hx0]
    · have hy0 := q7 h
      have hx0 : x ≠ 0 := fun hx0 => hne (q5.2 ⟨hx0, hy0⟩)
      rw [zz hy0, wc hx0]

theorem clkSelWrite_refuses (s : State) (i n : Nat) (v : Word) (hi : i = 0 ∨ i = 64) (hn : n = v.fld 2 0)
    (h : n ≠ 0 ∧ s.blk.altReady = false ∨ n ≠ 7 ∧ s.blk.refOk = false) :
    exec (.clkSelWrite i v) s = .next { s with blk := (s.blk.wb CLK_STATUS 5 true).bump CLK_CNT_REFUSED } := by
  have hx : exec (.clkSelWrite i v) s = onBlk (effClkSelWrite i v) s := rfl
  have hsel : ¬ s.blk.selReady n = true := by
    unfold Block.selReady
    obtain ⟨h1, h2⟩ | ⟨h1, h2⟩ := h <;> simp [h1, h2]
  have he : effClkSelWrite i v s.blk = (s.blk.wb CLK_STATUS 5 true).bump CLK_CNT_REFUSED := (effClkSelWrite_of hi hn).trans (if_neg hsel)
  exact hx.trans (onBlk_next_of_eq he (by simp [Block.bump]) (by simp [Block.bump]))

theorem clkSelWrite_denied (s : State) (i : Nat) (v : Word) (h0 : i ≠ 0) (h64 : i ≠ 64) : exec (.clkSelWrite i v) s = .next s := by
  have hx : exec (.clkSelWrite i v) s = onBlk (effClkSelWrite i v) s := rfl
  exact hx.trans (onBlk_idle (if_neg fun h => h.elim h0 h64))

/-- Settles O48: a switch of sources and the coasting of domains act on the registers of the clocks alone (`switchTo_switched`,
`coastHead_coasted`), and a choice is two switches (`clkSel_sets`). -/
theorem referenceClock : Obligations.ReferenceClock := by
  unfold Obligations.ReferenceClock
  exact ⟨refclkLoss_coasts, refclkLoss_links, refclkLoss_known, refclkLoss_early, refclkRestore_runs, refclkRestore_idle,
    altReadyLoss_unused, altReadyLoss_returns, altReadyLoss_coasts, altReadyLoss_idle, clkSelWrite_selects, clkSelWrite_refuses,
    clkSelWrite_denied⟩

end Sys2Proof.Machine
end

section
/-! DRV_ADOPT with DISCARD leaves SCH_DRV as an error of an ill-numbered stack has it (R327 to R330): the statement on driver loss and
adoption fails. -/

namespace Sys2Proof.Machine

/-! ### The state -/

/-- A page that moves to this very node, so that its requests take the loopback. -/
def loopPage : Page :=
  { cls := 0, layer := 0, firstPos := 0, fill := 0, hash := 0, refs := 1, loc := .compute 0 0, dest := some (.far 0 0),
    far := some { id := 0, next := 0, done := 0, got := Store.empty, failed := none }, data := Store.empty, owner := 0, zeroing := false }

/-- An error met in a stack whose row register is SCH_DRV: no stack has this number, and no premise of the statement bounds it. -/
def farError : DramErr :=
  { stack := 0x163FF86, core := 0, bank := 0, row := 0, part := 0, handle := 0, sector := 0, fixable := false }

theorem farError_register : ERR_STK_ROWS farError.stack = SCH_DRV := rfl

/-- A module whose driver is lost, with that page and that error. -/
def lostModule : Block :=
  let b := State.reset.blk
  let b : Block := { b with fw := { b.fw with loaded := true }, start := { b.start with linkUp := true },
                            snow := [(0, { Snow.empty with pages := [(0, loopPage)] })], err := { b.err with met := [farError] } }
  ((b.wf (RIME_STATE 1) 2 0 0).setDrv 2).wf (ESK_ALLOT 0) 16 0 1

/-- DRV_ADOPT with DISCARD in the mailbox of the PF. -/
def lostAdopting : Block :=
  (((lostModule.boxData (chBase (.fn 0 0)) [0x02000704, 1]).wb (chBase (.fn 0 0) + 0x44) 0 true).setBox (chBase (.fn 0 0))
    { len := 8, waiting := [], owed := false }).chLed (.fn 0 0) fun b n => b.ledTake n 1

theorem lostAdopting_premises : lostAdopting.delivers (.fn 0 0) 0x0704 ∧ lostAdopting.backFree (.fn 0 0) ∧
    (mreg (lostAdopting.msgWords (.fn 0 0)) 1).bit 0 = true ∧ lostAdopting.lost = true ∧ (lostAdopting.msgTaken (.fn 0 0)).lost = true := by
  decide +kernel

/-- The row register of the error's stack is counted up after the adoption: DRV_STATE reads LOST. -/
theorem lostAdopting_drv : (effDrvAdoptDiscard (.fn 0 0) lostAdopting).fld SCH_DRV 1 0 = 2 := by
  decide +kernel

/-- Refutes O30, in its clause on DRV_ADOPT with DISCARD: openMoves takes a page move of this node's own through the loopback, which looks
after the errors met; the row register of an error with stack number 0x163FF86 is SCH_DRV (`farError_register`), so that DRV_STATE is
counted from 1 to 2. -/
theorem not_driverLossAndAdoption : ¬ Obligations.DriverLossAndAdoption := by
  unfold Obligations.DriverLossAndAdoption
  intro h
  obtain ⟨-, -, -, -, -, hdiscard, -⟩ := h
  obtain ⟨h1, h2, h3, h4, h5⟩ := lostAdopting_premises
  obtain ⟨t, hx, -, -, hdrv, -⟩ := hdiscard { blk := lostAdopting, pending := [] } (.fn 0 0) h1 h2 rfl h3 h4 h5
  obtain ⟨u, hu, -, hub⟩ := onBlk_lasting_next (effDrvAdoptDiscard (.fn 0 0)) { blk := lostAdopting, pending := [] }
  have hx' : onBlk (effDrvAdoptDiscard (.fn 0 0)) { blk := lostAdopting, pending := [] } = .next t := hx
  obtain rfl : u = t := Host.Outcome.next.inj (hu.symm.trans hx')
  have hr : u.blk.fld SCH_DRV 1 0 = (effDrvAdoptDiscard (.fn 0 0) lostAdopting).fld SCH_DRV 1 0 := by
    rw [hub, Block.fld, Block.rg_lasting]
    rfl
  rw [hr, lostAdopting_drv] at hdrv
  exact absurd hdrv (by decide)

end Sys2Proof.Machine
end

section
/-! Packets leave a port: what sending leaves as it is, and a packet that goes at once (R299, R356, R357). -/

namespace Sys2Proof.Machine

/-! ### What the queues of ports leave as it is -/

/-- A block with the registers, the ports, the ledgers, the ice core, the start and the outside world of another. -/
def Block.linkBack (t s : Block) : Block := { t.mailBack s with esk := s.esk }

theorem Block.linkBack_self (s : Block) : s.linkBack s = s := rfl

theorem Block.linkBack_modPort (s t : Block) (p : Nat) (f : Port → Port) : (s.modPort p f).linkBack t = s.linkBack t := rfl

theorem Block.linkBack_of_mailBack {s t u : Block} (h : t.mailBack u = s.mailBack u) : t.linkBack u = s.linkBack u :=
  (congrArg (fun x : Block => { x with esk := u.esk }) h :)

theorem Block.linkBack_bumpPair (s t : Block) (a n : Nat) : (s.bumpPair a n).linkBack t = s.linkBack t := rfl

theorem Block.linkBack_led1 (s t : Block) (n : Nat) (m : LedgerMove) : (s.led1 n m).linkBack t = s.linkBack t :=
  Block.linkBack_of_mailBack (Block.mailBack_led1 ..)

theorem Block.linkBack_event (s t : Block) (src ev : Nat) (d : List Word) : (s.event src ev d).linkBack t = s.linkBack t :=
  Block.linkBack_of_mailBack (Block.mailBack_event ..)

/-- The credits and the count of a packet that goes. -/
def Block.packetPaid (s : Block) (p : Nat) (q : Queued) : Block :=
  ((s.ledTake (creditLedger p q.vc) q.credits).ledSend (creditLedger p q.vc) q.credits).bumpPair (ESK_CNT_TX_LO p) (packetBytes q.packet)

/-- A packet whose credits are paid goes, and its request is marked as sent. -/
def Block.packetGone (s : Block) (p : Nat) (q : Queued) : Block :=
  let s := { s with env := { s.env with sent := s.env.sent ++ [(p, q.packet)] } }
  if q.own && isRequest q.packet then
    { s with esk := { s.esk with out := kmod s.esk.out q.packet.tag fun o => { o with sent := some s.now } } }
  else s

theorem Block.sendNow_eq (s : Block) (p : Nat) (q : Queued) : s.sendNow p q = (s.packetPaid p q).packetGone p q := rfl

theorem Block.linkBack_packetGone (s t : Block) (p : Nat) (q : Queued) : (s.packetGone p q).linkBack t = s.linkBack t := by
  unfold Block.packetGone
  extract_lets s1
  split
  · rfl
  · rfl

theorem Block.linkBack_sendNow (s t : Block) (p : Nat) (q : Queued) : (s.sendNow p q).linkBack t = s.linkBack t := by
  rw [Block.sendNow_eq, Block.linkBack_packetGone]
  exact (Block.linkBack_bumpPair ..).trans ((Block.linkBack_led1 ..).trans (Block.linkBack_led1 ..))

theorem Block.linkBack_pumpFrom (t : Block) (p : Nat) (l kept : List Queued) (s : Block) : (s.pumpFrom p l kept).linkBack t = s.linkBack t := by
  induction l generalizing s kept with
  | nil => exact Block.linkBack_modPort ..
  | cons x l ih =>
    unfold Block.pumpFrom
    split
    · exact (ih _ _).trans (Block.linkBack_sendNow ..)
    · exact ih _ _

theorem Block.linkBack_pump (s t : Block) (p : Nat) : (s.pump p).linkBack t = s.linkBack t := Block.linkBack_pumpFrom ..

theorem Block.linkBack_pumpAll (s t : Block) : s.pumpAll.linkBack t = s.linkBack t :=
  Block.each_keeps (Block.linkBack · t) s _ _ fun s p _ => s.linkBack_pump t p

theorem Block.linkBack_enqueue (s t : Block) (p : Nat) (own : Bool) (k : Packet) : (s.enqueue p own k).linkBack t = s.linkBack t :=
  (Block.linkBack_pump ..).trans (Block.linkBack_modPort ..)

/-! ### Requests without a tag stay without one -/

theorem Block.sendNow_out (s : Block) (p : Nat) (q : Queued) {tag : Nat} (h : kget s.esk.out tag = none) :
    kget (s.sendNow p q).esk.out tag = none := by
  unfold Block.sendNow
  extract_lets n s1 e s2
  have h1 : s1.esk = s.esk := by simp [s1]
  clear_value s1
  have h2 : kget s2.esk.out tag = none := (congrArg (fun x : Esker => kget x.out tag) h1 :).trans h
  clear_value s2
  split
  · refine (kget_kmod ..).trans ?_
    split
    · rename_i ht
      rw [← ht, h2]
      rfl
    · exact h2
  · exact h2

theorem Block.pumpFrom_out (p : Nat) {tag : Nat} (l kept : List Queued) (s : Block) (h : kget s.esk.out tag = none) :
    kget (s.pumpFrom p l kept).esk.out tag = none := by
  induction l generalizing s kept with
  | nil => exact h
  | cons x l ih =>
    unfold Block.pumpFrom
    split
    · exact ih _ _ (Block.sendNow_out _ _ _ h)
    · exact ih _ _ h

theorem Block.pumpAll_out (s : Block) {tag : Nat} (h : kget s.esk.out tag = none) : kget s.pumpAll.esk.out tag = none := by
  unfold Block.pumpAll Block.each
  induction List.range 16 generalizing s with
  | nil => exact h
  | cons p l ih => exact ih _ (Block.pumpFrom_out _ _ _ _ h)

/-! ### A packet that goes at once -/

theorem Ledger.move_some {l : Ledger} {m : LedgerMove} (hf : 0 ≤ (l.free : Int) + m.free) (hh : 0 ≤ (l.held : Int) + m.held)
    (hg : 0 ≤ (l.flight : Int) + m.flight) (ht : m.total = 0) (hs : m.free + m.held + m.flight = 0) (hok : l.ok = true) :
    ∃ x, l.move m = some x ∧ (x.free : Int) = l.free + m.free ∧ (x.held : Int) = l.held + m.held ∧ (x.flight : Int) = l.flight + m.flight ∧
      x.ok = true := by
  unfold Ledger.ok at hok
  rw [beq_iff_eq] at hok
  have hc : 0 ≤ (l.free : Int) + m.free ∧ 0 ≤ (l.held : Int) + m.held ∧ 0 ≤ (l.flight : Int) + m.flight ∧ 0 ≤ (l.total : Int) + m.total ∧
      ((l.free : Int) + m.free) + ((l.held : Int) + m.held) + ((l.flight : Int) + m.flight) = (l.total : Int) + m.total := by omega
  have he : l.move m = some { free := ((l.free : Int) + m.free).toNat, held := ((l.held : Int) + m.held).toNat,
                              flight := ((l.flight : Int) + m.flight).toNat, total := ((l.total : Int) + m.total).toNat } := by
    unfold Ledger.move
    simp only []
    exact if_pos hc
  exact ⟨_, he, Int.toNat_of_nonneg hf, Int.toNat_of_nonneg hh, Int.toNat_of_nonneg hg, (Ledger.move_total he ht).2⟩

/-- The change of a ledger that its equation allows. -/
theorem Block.led1_allowed {s : Block} {n : Nat} {m : LedgerMove} {x : Ledger} (h : (s.ledger n).move m = some x) :
    { s.led1 n m with led := s.led } = s := by
  unfold Block.led1
  rw [h]

/-- The credits of a packet that leave FREE for HELD, and HELD for FLIGHT. -/
theorem Block.credits_sent (s : Block) {n k : Nat} (hf : k ≤ (s.ledger n).free) (hok : (s.ledger n).ok = true) :
    { (s.ledTake n k).ledSend n k with led := s.led } = s := by
  obtain ⟨x, hx, -, hh, -, hxo⟩ := Ledger.move_some (l := s.ledger n) (m := { free := -k, held := k }) (by simp only; omega)
    (by simp only; omega) (by simp only; omega) rfl (by simp only; omega) hok
  have h1 : (s.ledTake n k).ledger n = x := Block.ledger_led1_some hx
  have h2 : { s.ledTake n k with led := s.led } = s := Block.led1_allowed hx
  obtain ⟨b, hb⟩ : ∃ b, b = s.ledTake n k := ⟨_, rfl⟩
  rw [← hb] at h1 h2 ⊢
  obtain ⟨y, hy, -⟩ := Ledger.move_some (l := b.ledger n) (m := { held := -k, flight := k }) (by simp only; omega)
    (by rw [h1, hh]; simp only; omega) (by simp only; omega) rfl (by simp only; omega) (h1 ▸ hxo)
  exact (congrArg (fun z : Block => { z with led := s.led }) (Block.led1_allowed hy) :).trans h2

/-- What a packet that goes leaves: the outside world has it, and beside it the registers, the ports and the ledgers differ. -/
structure Block.wentOut (t s : Block) (p : Nat) (k : Packet) : Prop where
  sent : t.env.sent = s.env.sent ++ [(p, k)]
  rest : { t with regs := s.regs, esk := s.esk, env := s.env, led := s.led } = s
  regs : ∀ a, a ≠ ESK_CNT_TX_LO p → a ≠ ESK_CNT_TX_LO p + 4 → t.rg a = s.rg a

theorem Block.bumpPair_frame (s t : Block) (a n : Nat) : { s.bumpPair a n with regs := t.regs } = { s with regs := t.regs } := rfl

theorem Block.packetPaid_spec (s : Block) (p : Nat) (q : Queued) (hf : q.credits ≤ (s.ledger (creditLedger p q.vc)).free)
    (hok : (s.ledger (creditLedger p q.vc)).ok = true) : { s.packetPaid p q with regs := s.regs, led := s.led } = s ∧
    ∀ r, r ≠ ESK_CNT_TX_LO p → r ≠ ESK_CNT_TX_LO p + 4 → (s.packetPaid p q).rg r = s.rg r := by
  have hl := s.credits_sent hf hok
  unfold Block.packetPaid
  obtain ⟨a, ha⟩ : ∃ a, a = (s.ledTake (creditLedger p q.vc) q.credits).ledSend (creditLedger p q.vc) q.credits := ⟨_, rfl⟩
  rw [← ha] at hl ⊢
  have h1 := a.bumpPair_frame s (ESK_CNT_TX_LO p) (packetBytes q.packet)
  have h2 : ∀ r, r ≠ ESK_CNT_TX_LO p → r ≠ ESK_CNT_TX_LO p + 4 → (a.bumpPair (ESK_CNT_TX_LO p) (packetBytes q.packet)).rg r = a.rg r :=
    fun r h h4 => Block.rg_setPair_other _ _ h h4
  obtain ⟨c, hc⟩ : ∃ c, c = a.bumpPair (ESK_CNT_TX_LO p) (packetBytes q.packet) := ⟨_, rfl⟩
  rw [← hc] at h1 h2 ⊢
  exact ⟨(congrArg (fun z : Block => { z with led := s.led }) h1 :).trans (congrArg (fun z : Block => { z with regs := s.regs }) hl :),
    fun r h h4 => (h2 r h h4).trans (congrArg (fun z : Block => z.rg r) hl :)⟩

theorem Block.packetGone_eq (s : Block) (p : Nat) (q : Queued) :
    ∃ e, s.packetGone p q = { s with env := { s.env with sent := s.env.sent ++ [(p, q.packet)] }, esk := e } := by
  unfold Block.packetGone
  extract_lets s1
  split
  · exact ⟨_, rfl⟩
  · exact ⟨s.esk, rfl⟩

theorem Block.sendNow_wentOut (s : Block) (p : Nat) (q : Queued) (hf : q.credits ≤ (s.ledger (creditLedger p q.vc)).free)
    (hok : (s.ledger (creditLedger p q.vc)).ok = true) : (s.sendNow p q).wentOut s p q.packet := by
  obtain ⟨h1, h3⟩ := s.packetPaid_spec p q hf hok
  rw [Block.sendNow_eq]
  obtain ⟨b, hb⟩ : ∃ b, b = s.packetPaid p q := ⟨_, rfl⟩
  rw [← hb] at h1 h3 ⊢
  obtain ⟨e, he⟩ := b.packetGone_eq p q
  rw [he]
  have henv : b.env = s.env := (congrArg Block.env h1 :)
  exact ⟨(congrArg (fun x : Env => x.sent ++ [(p, q.packet)]) henv :),
    (congrArg (fun z : Block => { z with esk := s.esk, env := s.env }) h1 :), h3⟩

theorem Block.mayGo_now {s : Block} {p : Nat} {q : Queued} (hu : s.portUp p = true) (hf : q.credits ≤ (s.ledger (creditLedger p q.vc)).free)
    (ho : (q.own && isRequest q.packet && q.packet.ordered) = false) : s.mayGo p q = true := by
  unfold Block.mayGo Block.oldRoute
  rw [hu, decide_eq_true hf, ho]
  rfl

/-- The entry of a packet in a queue. -/
def queuedOf (own : Bool) (k : Packet) : Queued := { vc := k.vc, credits := ceilDiv (packetBytes k) 32, own := own, packet := k }

theorem Block.pumpFrom_one {s : Block} {p : Nat} {q : Queued} (h : s.mayGo p q = true) :
    s.pumpFrom p [q] [] = (s.sendNow p q).modPort p fun x => { x with queue := [] } := if_pos h

/-- A packet that joins an empty queue and goes at once. -/
theorem Block.enqueue_wentOut {s : Block} {p : Nat} {own : Bool} {k : Packet} (h : s.sendsNow p k.vc (packetBytes k))
    (ho : (own && isRequest k && k.ordered) = false) : (s.enqueue p own k).wentOut s p k ∧ ((s.enqueue p own k).port p).queue = [] ∧
    ∀ q, q ≠ p → (s.enqueue p own k).port q = s.port q := by
  obtain ⟨hu, hq, hf, hok⟩ := h
  have he : s.enqueue p own k = (s.modPort p fun x => { x with queue := x.queue ++ [queuedOf own k] }).pump p := rfl
  have a1 : (s.modPort p fun x => { x with queue := x.queue ++ [queuedOf own k] }).port p = { s.port p with queue := [queuedOf own k] } := by
    rw [Block.port_modPort_same, hq]
    rfl
  have a2 : ∀ q, q ≠ p → (s.modPort p fun x => { x with queue := x.queue ++ [queuedOf own k] }).port q = s.port q := fun q h =>
    Block.port_modPort_other _ _ h
  have a3 : { (s.modPort p fun x => { x with queue := x.queue ++ [queuedOf own k] }) with esk := s.esk } = s := rfl
  obtain ⟨a, ha⟩ : ∃ a, a = s.modPort p fun x => { x with queue := x.queue ++ [queuedOf own k] } := ⟨_, rfl⟩
  rw [← ha] at he a1 a2 a3
  have hled : a.ledger (creditLedger p k.vc) = s.ledger (creditLedger p k.vc) := (congrArg (fun z : Block => z.ledger (creditLedger p k.vc)) a3 :)
  have hup : a.portUp p = true := (congrArg (fun z : Block => z.portUp p) a3 :).trans hu
  have hf' : (queuedOf own k).credits ≤ (a.ledger (creditLedger p (queuedOf own k).vc)).free := hled ▸ hf
  have hw := a.sendNow_wentOut p (queuedOf own k) hf' (hled ▸ hok)
  have hpt := (a.sendNow_pumped p (queuedOf own k)).2
  have he2 : s.enqueue p own k = (a.sendNow p (queuedOf own k)).modPort p fun x => { x with queue := [] } := by
    rw [he, Block.pump, a1]
    exact Block.pumpFrom_one (Block.mayGo_now hup hf' ho)
  rw [he2]
  obtain ⟨b, hb⟩ : ∃ b, b = a.sendNow p (queuedOf own k) := ⟨_, rfl⟩
  rw [← hb] at hw hpt ⊢
  have henv : a.env = s.env := (congrArg Block.env a3 :)
  refine ⟨⟨?_, ?_, fun r h h4 => ?_⟩, by rw [Block.port_modPort_same], fun q h => ?_⟩
  · exact hw.sent.trans (congrArg (fun x : Env => x.sent ++ [(p, k)]) henv :)
  · have h1 := (congrArg (fun z : Block => { z with regs := s.regs, esk := s.esk, env := s.env, led := s.led }) hw.rest :)
    exact Eq.trans (b := { b with regs := s.regs, esk := s.esk, env := s.env, led := s.led }) rfl
      (h1.trans (congrArg (fun z : Block => { z with regs := s.regs, env := s.env, led := s.led }) a3 :))
  · exact (hw.regs r h h4).trans (congrArg (fun z : Block => z.rg r) a3 :)
  · exact (Block.port_modPort_other _ _ h).trans ((Block.port_of_ports hpt q).trans (a2 q h))

end Sys2Proof.Machine
end

section
/-! A job whose work failed, acknowledge time-outs, the escape of VC 1 and time synchronization (R203, R360, R364, R368). -/

namespace Sys2Proof.Machine

/-! ### A job that fails -/

/-- How each job has failed. -/
def Block.failOf (s : Block) (j : Nat) : Option (Option (Nat × Nat × Nat × Nat)) := (s.jobAt j).map (·.fail)

theorem Block.failOf_congr {s t : Block} (h : t.jobs = s.jobs) (j : Nat) : t.failOf j = s.failOf j := by
  unfold Block.failOf Block.jobAt
  rw [h]

theorem Block.failOf_modJob (s : Block) (j i : Nat) {f : Job → Job} (h : ∀ J, (f J).fail = J.fail) : (s.modJob i f).failOf j = s.failOf j := by
  unfold Block.failOf Block.jobAt Block.modJob
  simp only [kget_kmod]
  split
  · rename_i hji
    rw [hji]
    cases kget s.jobs i with
    | none => rfl
    | some J => exact congrArg some (h J)
  · rfl

/-- What the failure of a job leaves as it is, beside its own record: objects, requests under way, and how other jobs failed. -/
structure Block.queuesCut (t s : Block) : Prop where
  fail : ∀ j, t.failOf j = s.failOf j
  objs : t.objs = s.objs
  esk : t.esk = s.esk

theorem Block.queuesCut.trans {s t u : Block} (h : u.queuesCut t) (h' : t.queuesCut s) : u.queuesCut s :=
  ⟨fun j => (h.fail j).trans (h'.fail j), h.objs.trans h'.objs, h.esk.trans h'.esk⟩

theorem Block.queuesCut_of {s t : Block} (hj : t.jobs = s.jobs) (ho : t.objs = s.objs) (he : t.esk = s.esk) : t.queuesCut s :=
  ⟨Block.failOf_congr hj, ho, he⟩

theorem Block.discardQueues_cut (s : Block) (c : Nat) : (s.discardQueues c).queuesCut s := by
  unfold Block.discardQueues
  extract_lets k all idle waits s1 s2 drop s3
  have h2 : s2.queuesCut s := Block.queuesCut_of (by simp [s2, s1]) (by simp [s2, s1, Block.modCl, Block.setCl]) (by simp [s2, s1, Block.modCl, Block.setCl])
  clear_value s2
  have h3 : s3.queuesCut s := Block.queuesCut.trans (t := s2) (Block.queuesCut_of rfl rfl rfl) h2
  clear_value s3
  split
  · exact Block.queuesCut.trans ⟨fun j => Block.failOf_modJob _ _ _ fun _ => rfl, rfl, rfl⟩ h3
  · exact h3

theorem Block.each_cut {α : Type} (l : List α) (f : Block → α → Block) (h : ∀ b x, (f b x).queuesCut b) (s : Block) : (s.each l f).queuesCut s := by
  induction l generalizing s with
  | nil => exact Block.queuesCut_of rfl rfl rfl
  | cons x l ih => exact (ih _).trans (h s x)

theorem Block.modCl_cut (s : Block) (c : Nat) (f : Cluster → Cluster) : (s.modCl c f).queuesCut s := Block.queuesCut_of rfl rfl rfl

/-- A placed job that fails keeps its place until its streams have ended. -/
theorem Block.failJob_placed {s : Block} {j : Nat} {J : Job} (hJ : s.jobAt j = some J) (hp : J.placed = true) (hf : J.fail = none)
    (st count tag engine : Nat) : (s.failJob j st count tag engine).failOf j = some (some (st, count, tag, engine)) ∧
    (s.failJob j st count tag engine).objs = s.objs ∧ (s.failJob j st count tag engine).esk = s.esk := by
  have he : s.failJob j st count tag engine = s.jobFail j st count tag engine := by
    unfold Block.failJob
    rw [hJ]
    exact if_pos hp
  rw [he]
  unfold Block.jobFail
  rw [hJ]
  simp only [hf, hp, Option.isSome_none, Bool.false_eq_true, if_false, if_true]
  obtain ⟨b, hb⟩ : ∃ b, b = s.modJob j fun J => { J with fail := some (st, count, tag, engine), state := .ending }.dropSave := ⟨_, rfl⟩
  have hbf : b.failOf j = some (some (st, count, tag, engine)) := by
    rw [hb]
    unfold Block.failOf Block.jobAt Block.modJob
    rw [kget_kmod, if_pos rfl, show kget s.jobs j = some J from hJ]
    rfl
  have hbo : b.objs = s.objs := hb ▸ rfl
  have hbe : b.esk = s.esk := hb ▸ rfl
  rw [← hb]
  obtain ⟨h1, h2, h3⟩ := Block.each_cut J.clusters (fun s c => (s.discardQueues c).modCl c fun k =>
    { k with state := if k.ended then k.state else .ending, preempt := false, cheap := none })
    (fun b c => (Block.modCl_cut ..).trans (b.discardQueues_cut c)) b
  exact ⟨(h1 j).trans hbf, h2.trans hbo, h3.trans hbe⟩

/-! ### Acknowledge time-outs -/

theorem Block.failOf_lasting (old new : Block) (j : Nat) : (old.lasting new).failOf j = new.failOf j := Block.failOf_congr (Block.lasting_jobs ..) j

theorem Block.objs_of_linkBack {s t u : Block} (h : t.linkBack u = s.linkBack u) : t.objs = s.objs ∧ t.jobs = s.jobs ∧ t.tiles = s.tiles :=
  ⟨(congrArg Block.objs h :), (congrArg Block.jobs h :), (congrArg Block.tiles h :)⟩

theorem ackTimeoutExpiry_ends (s : State) (tag at_ : Nat) (o : Outstanding) (J : Job) (ho : kget s.blk.esk.out tag = some o)
    (hs : o.sent = some at_) (hn : at_ + s.blk.fld ESK_ACK 15 0 * 1000 ≤ s.blk.now) (hm : o.mover = none) (hJ : s.blk.jobAt o.job = some J)
    (hp : J.placed = true) (hf : J.fail = none) :
    ∃ t : State, exec (.ackTimeoutExpiry tag) s = .next t ∧ t.pending = s.pending ∧ kget t.blk.esk.out tag = none ∧
      (t.blk.jobAt o.job).map (·.fail) = some (some (ABORTED 0xE1, o.count, o.tag, o.engine)) ∧ t.blk.objs = s.blk.objs := by
  have hx : exec (.ackTimeoutExpiry tag) s = onBlk (effAckTimeoutExpiry tag) s := rfl
  have he : effAckTimeoutExpiry tag s.blk = ((s.blk.requestLost tag).event srcLink 0x0604 [w32 o.dst, 2]).pumpAll := by
    unfold effAckTimeoutExpiry
    rw [ho]
    dsimp only
    rw [hs]
    exact if_pos hn
  obtain ⟨a, ha⟩ : ∃ a, a = ({ s.blk with esk := { s.blk.esk with out := kdel s.blk.esk.out tag } } : Block) := ⟨_, rfl⟩
  have hl : s.blk.requestLost tag = a.failJob o.job (ABORTED 0xE1) o.count o.tag o.engine := by
    unfold Block.requestLost
    rw [ho, ha]
    unfold Block.answered
    dsimp only
    rw [hm]
    rfl
  have haJ : a.jobAt o.job = some J := ha ▸ hJ
  have hao : kget a.esk.out tag = none := by
    rw [ha]
    exact (kget_kdel ..).trans (if_pos rfl)
  have haob : a.objs = s.blk.objs := ha ▸ rfl
  obtain ⟨f1, f2, f3⟩ := Block.failJob_placed haJ hp hf (ABORTED 0xE1) o.count o.tag o.engine
  rw [← hl] at f1 f2 f3
  obtain ⟨b, hb⟩ : ∃ b, b = s.blk.requestLost tag := ⟨_, rfl⟩
  rw [← hb] at he f1 f2 f3
  have v1 := Block.failOf_congr (b.event_jobs srcLink 0x0604 [w32 o.dst, 2]) o.job
  have v2 := b.event_objs srcLink 0x0604 [w32 o.dst, 2]
  have v3 := b.event_esk srcLink 0x0604 [w32 o.dst, 2]
  obtain ⟨c, hc⟩ : ∃ c, c = b.event srcLink 0x0604 [w32 o.dst, 2] := ⟨_, rfl⟩
  rw [← hc] at he v1 v2 v3
  have hout : kget c.pumpAll.esk.out tag = none := Block.pumpAll_out _ (by rw [v3, f3]; exact hao)
  obtain ⟨p1, p2, -⟩ := Block.objs_of_linkBack (c.linkBack_pumpAll c)
  obtain ⟨t, ht, hpend, htb⟩ := onBlk_lasting_next (effAckTimeoutExpiry tag) s
  rw [he] at htb
  refine ⟨t, hx.trans ht, hpend, ?_, ?_, ?_⟩
  · rw [htb, Block.lasting_esk]
    exact hout
  · rw [htb]
    exact (Block.failOf_lasting ..).trans ((Block.failOf_congr p2 _).trans (v1.trans f1))
  · rw [htb, Block.lasting_objs, p1, v2, f2, haob]

theorem ackTimeoutExpiry_early (s : State) (tag at_ : Nat) (o : Outstanding) (ho : kget s.blk.esk.out tag = some o) (hs : o.sent = some at_)
    (hn : s.blk.now < at_ + s.blk.fld ESK_ACK 15 0 * 1000) : exec (.ackTimeoutExpiry tag) s = .next s := by
  have hx : exec (.ackTimeoutExpiry tag) s = onBlk (effAckTimeoutExpiry tag) s := rfl
  refine hx.trans (onBlk_idle ?_)
  unfold effAckTimeoutExpiry
  rw [ho]
  dsimp only
  rw [hs]
  exact if_neg (by omega)

/-! ### The escape of VC 1 -/

/-- The record of a request whose packet takes another port. -/
def Block.rerouted (s : Block) (q : Queued) (r : Nat) : Block :=
  if q.own && isRequest q.packet then
    { s with esk := { s.esk with out := kmod s.esk.out q.packet.tag fun o => { o with port := r, epoch := s.fld (ESK_EPOCH r) 15 0 } } }
  else s

theorem Block.rerouted_spec (s : Block) (q : Queued) (r : Nat) : { s.rerouted q r with esk := s.esk } = s ∧
    (s.rerouted q r).esk.ports = s.esk.ports := by
  unfold Block.rerouted
  split <;> exact ⟨rfl, rfl⟩

theorem effVc1EscapeTimeout_some {s : Block} {p r : Nat} {q : Queued} {rest : List Queued} (hp : p < 16) (hu : s.portUp p = true)
    (hq : firstVc1 (s.port p).queue = some (q, rest)) (hr : s.fixedPort q.packet.dst = some r) : effVc1EscapeTimeout p s =
      ((s.modPort p fun x => { x with queue := rest }).rerouted q r).enqueue r q.own { q.packet with vc := 5 } := by
  unfold effVc1EscapeTimeout
  rw [portOk_of_lt hp, hu, hq]
  dsimp only
  rw [hr]
  rfl

theorem vc1EscapeTimeout_leaves (s : State) (p r : Nat) (q : Queued) (rest : List Queued) (hp : p < 16) (hu : s.blk.portUp p = true)
    (hq : firstVc1 (s.blk.port p).queue = some (q, rest)) (hr : s.blk.fixedPort q.packet.dst = some r) (ho : q.packet.ordered = false)
    (hru : s.blk.portUp r = true) (hqr : r = p ∧ rest = [] ∨ r ≠ p ∧ (s.blk.port r).queue = [])
    (hok : (s.blk.ledger (creditLedger r 5)).ok = true) (hf : ceilDiv (packetBytes q.packet) 32 ≤ (s.blk.ledger (creditLedger r 5)).free) :
    ∃ t : State, exec (.vc1EscapeTimeout p) s = .next t ∧ t.pending = s.pending ∧ (t.blk.port p).queue = rest ∧
      t.blk.env.sent = s.blk.env.sent ++ [(r, { q.packet with vc := 5 })] ∧ t.blk.jobs = s.blk.jobs ∧ t.blk.objs = s.blk.objs := by
  have hx : exec (.vc1EscapeTimeout p) s = onBlk (effVc1EscapeTimeout p) s := rfl
  have he := effVc1EscapeTimeout_some hp hu hq hr
  have a1 : ((s.blk.modPort p fun x => { x with queue := rest }).port p).queue = rest := by rw [Block.port_modPort_same]
  have a2 : ∀ n, n ≠ p → (s.blk.modPort p fun x => { x with queue := rest }).port n = s.blk.port n := fun n h => Block.port_modPort_other _ _ h
  have a3 : { (s.blk.modPort p fun x => { x with queue := rest }) with esk := s.blk.esk } = s.blk := rfl
  obtain ⟨a, ha⟩ : ∃ a, a = s.blk.modPort p fun x => { x with queue := rest } := ⟨_, rfl⟩
  rw [← ha] at he a1 a2 a3
  obtain ⟨b1, b2⟩ := a.rerouted_spec q r
  obtain ⟨b, hb⟩ : ∃ b, b = a.rerouted q r := ⟨_, rfl⟩
  rw [← hb] at he b1 b2
  have hport : ∀ n, b.port n = a.port n := fun n => Block.port_of_ports b2 n
  have hfr : { b with esk := s.blk.esk } = s.blk := (congrArg (fun x : Block => { x with esk := s.blk.esk }) b1 :).trans a3
  have hrq : (b.port r).queue = [] := by
    rw [hport]
    obtain ⟨h1, h2⟩ | ⟨h1, h2⟩ := hqr
    · rw [h1, a1, h2]
    · rw [a2 r h1, h2]
  have hled : b.ledger (creditLedger r 5) = s.blk.ledger (creditLedger r 5) := (congrArg (fun z : Block => z.ledger (creditLedger r 5)) hfr :)
  have hsend : b.sendsNow r 5 (packetBytes { q.packet with vc := 5 }) :=
    ⟨(congrArg (fun z : Block => z.portUp r) hfr :).trans hru, hrq, hled ▸ hf, hled ▸ hok⟩
  obtain ⟨w, hwq, hwo⟩ := Block.enqueue_wentOut (k := { q.packet with vc := 5 }) (own := q.own) hsend (by simp [ho])
  obtain ⟨c, hc⟩ : ∃ c, c = b.enqueue r q.own { q.packet with vc := 5 } := ⟨_, rfl⟩
  rw [← hc] at he w hwq hwo
  obtain ⟨t, ht, hpend, htb⟩ := onBlk_lasting_next (effVc1EscapeTimeout p) s
  rw [he] at htb
  refine ⟨t, hx.trans ht, hpend, ?_, ?_, ?_, ?_⟩
  · rw [Block.port_congr (htb ▸ Block.lasting_esk ..) p]
    obtain ⟨h1, h2⟩ | ⟨h1, h2⟩ := hqr
    · rw [← h1, hwq, h2]
    · rw [hwo p (Ne.symm h1), hport, a1]
  · rw [htb, Block.lasting_env, w.sent]
    exact (congrArg (fun z : Block => z.env.sent ++ [(r, { q.packet with vc := 5 })]) hfr :)
  · rw [htb, Block.lasting_jobs]
    exact (congrArg Block.jobs w.rest :).trans (congrArg Block.jobs hfr :)
  · rw [htb, Block.lasting_objs]
    exact (congrArg Block.objs w.rest :).trans (congrArg Block.objs hfr :)

theorem vc1EscapeTimeout_idle (s : State) (p : Nat) (hq : firstVc1 (s.blk.port p).queue = none) : exec (.vc1EscapeTimeout p) s = .next s := by
  have hx : exec (.vc1EscapeTimeout p) s = onBlk (effVc1EscapeTimeout p) s := rfl
  refine hx.trans (onBlk_idle ?_)
  unfold effVc1EscapeTimeout
  rw [hq]
  simp

/-! ### Time synchronization -/

theorem Block.now_congr {s t : Block} (h : ∀ a, a < 0x700000 → t.rg a = s.rg a) : t.now = s.now := by
  unfold Block.now Block.pair
  rw [h CLK_TB_LO (by decide), h (CLK_TB_LO + 4) (by decide)]

theorem timeSyncTick_root (s : State) (t1 t2 t3 t4 : Int) (hops : Nat) (hr : s.blk.isRoot = true) :
    ∃ t : State, exec (.timeSyncTick t1 t2 t3 t4 hops) s = .next t ∧ t.pending = s.pending ∧ t.blk.fld ESK_TIME 1 0 = 2 ∧
      t.blk.now = s.blk.now ∧ { t.blk with regs := s.blk.regs } = s.blk := by
  have hx : exec (.timeSyncTick t1 t2 t3 t4 hops) s = onBlk (effTimeSyncTick t1 t2 t3 t4 hops) s := rfl
  have he : effTimeSyncTick t1 t2 t3 t4 hops s.blk = s.blk.wf ESK_TIME 7 0 2 := if_pos hr
  have h1 : (s.blk.wf ESK_TIME 7 0 2).fld ESK_TIME 7 0 = 2 := Block.fld_wf_same _ _ _ (by omega) (by omega)
  have h2 : (s.blk.wf ESK_TIME 7 0 2).fld ESK_TIME 1 0 = 2 := by
    have e : (s.blk.wf ESK_TIME 7 0 2).fld ESK_TIME 1 0 = (s.blk.wf ESK_TIME 7 0 2).fld ESK_TIME 7 0 % 4 := by
      unfold Block.fld Word.fld bitsOf
      omega
    rw [e, h1]
  have h3 : (s.blk.wf ESK_TIME 7 0 2).now = s.blk.now := Block.now_congr fun a ha => Block.rg_wf_other _ _ _ _ (by
    have e : ESK_TIME = 0x00840008 := rfl
    omega)
  have h4 : { s.blk.wf ESK_TIME 7 0 2 with regs := s.blk.regs } = s.blk := by simp
  obtain ⟨b, hb⟩ : ∃ b, b = s.blk.wf ESK_TIME 7 0 2 := ⟨_, rfl⟩
  rw [← hb] at he h2 h3 h4
  exact ⟨{ s with blk := b }, hx.trans (onBlk_next_of_eq he (congrArg (fun x : Block => x.trust.fuses) h4 :)
    (congrArg (fun x : Block => x.ice.perm) h4 :)), rfl, h2, h3, h4⟩

theorem timeSyncTick_free (s : State) (t1 t2 t3 t4 : Int) (hops : Nat) (hr : s.blk.isRoot = false) (hp : s.blk.syncPort = none) :
    ∃ t : State, exec (.timeSyncTick t1 t2 t3 t4 hops) s = .next t ∧ t.pending = s.pending ∧ t.blk.fld ESK_TIME 1 0 = 0 ∧
      t.blk.now = s.blk.now ∧ { t.blk with regs := s.blk.regs } = s.blk := by
  have hx : exec (.timeSyncTick t1 t2 t3 t4 hops) s = onBlk (effTimeSyncTick t1 t2 t3 t4 hops) s := rfl
  have he : effTimeSyncTick t1 t2 t3 t4 hops s.blk = s.blk.wf ESK_TIME 1 0 0 := by
    unfold effTimeSyncTick
    rw [hr, hp]
    rfl
  have h2 : (s.blk.wf ESK_TIME 1 0 0).fld ESK_TIME 1 0 = 0 := Block.fld_wf_same _ _ _ (by omega) (by omega)
  have h3 : (s.blk.wf ESK_TIME 1 0 0).now = s.blk.now := Block.now_congr fun a ha => Block.rg_wf_other _ _ _ _ (by
    have e : ESK_TIME = 0x00840008 := rfl
    omega)
  have h4 : { s.blk.wf ESK_TIME 1 0 0 with regs := s.blk.regs } = s.blk := by simp
  obtain ⟨b, hb⟩ : ∃ b, b = s.blk.wf ESK_TIME 1 0 0 := ⟨_, rfl⟩
  rw [← hb] at he h2 h3 h4
  exact ⟨{ s with blk := b }, hx.trans (onBlk_next_of_eq he (congrArg (fun x : Block => x.trust.fuses) h4 :)
    (congrArg (fun x : Block => x.ice.perm) h4 :)), rfl, h2, h3, h4⟩

/-- ESK_TIME after an exchange. -/
def Block.timeShown (s : Block) (hops : Nat) (off : Int) : Block := s.wr ESK_TIME (w32 (1 + hops % 64 * 4 + (off % 2 ^ 24).toNat * 256))

theorem Block.timeShown_spec (s : Block) (hops : Nat) (off : Int) : (s.timeShown hops off).fld ESK_TIME 1 0 = 1 ∧
    (s.timeShown hops off).fld ESK_TIME 7 2 = hops % 64 ∧ (∀ a, a ≠ ESK_TIME → (s.timeShown hops off).rg a = s.rg a) ∧
    { s.timeShown hops off with regs := s.regs } = s := by
  unfold Block.timeShown
  obtain ⟨n, hn⟩ : ∃ n, n = (off % 2 ^ 24).toNat := ⟨_, rfl⟩
  have hlt : n < 2 ^ 24 := by omega
  rw [← hn]
  have hw : (w32 (1 + hops % 64 * 4 + n * 256)).toNat = 1 + hops % 64 * 4 + n * 256 := by
    unfold w32
    rw [BitVec.toNat_ofNat]
    exact Nat.mod_eq_of_lt (by omega)
  refine ⟨?_, ?_, fun a ha => Block.rg_wr_other _ _ ha, by simp⟩
  · unfold Block.fld
    rw [Block.rg_wr_same]
    unfold Word.fld bitsOf
    rw [hw]
    omega
  · unfold Block.fld
    rw [Block.rg_wr_same]
    unfold Word.fld bitsOf
    rw [hw]
    omega

theorem effTimeSyncTick_port {s : Block} {p : Nat} (t1 t2 t3 t4 : Int) (hops : Nat) (hr : s.isRoot = false) (hp : s.syncPort = some p) :
    effTimeSyncTick t1 t2 t3 t4 hops s =
      if s.fld ESK_TIME 1 0 ≠ 1 then
        if 0 < syncOffset t1 t2 t3 t4 (signExt 16 (s.fld (ESK_TS_ASYM p) 15 0)) then
          (s.timeShown hops (syncOffset t1 t2 t3 t4 (signExt 16 (s.fld (ESK_TS_ASYM p) 15 0)))).bumpPair CLK_TB_LO
            (syncOffset t1 t2 t3 t4 (signExt 16 (s.fld (ESK_TS_ASYM p) 15 0))).toNat
        else s.timeShown hops (syncOffset t1 t2 t3 t4 (signExt 16 (s.fld (ESK_TS_ASYM p) 15 0)))
      else
        let r := (s.timeShown hops (syncOffset t1 t2 t3 t4 (signExt 16 (s.fld (ESK_TS_ASYM p) 15 0)))).choose 20000001
        r.2.wf CLK_TB_ADJ 24 0 (((r.1 : Int) - 10000000) % 2 ^ 25).toNat := by
  unfold effTimeSyncTick
  rw [hr, hp]
  by_cases h1 : s.fld ESK_TIME 1 0 ≠ 1
  · rw [if_pos h1]
    simp only [Bool.false_eq_true, if_false, decide_eq_true h1, if_true]
    rfl
  · rw [if_neg h1]
    simp only [Bool.false_eq_true, if_false, decide_eq_false h1]
    rfl

theorem Block.now_bumpPair (s : Block) (n : Nat) : (s.bumpPair CLK_TB_LO n).now = min (2 ^ 64 - 1) (s.now + n) :=
  Block.pair_setPair s CLK_TB_LO _ (Nat.lt_of_le_of_lt (Nat.min_le_left ..) (by decide))

theorem Block.now_lt (s : Block) : s.now < 2 ^ 64 := by
  unfold Block.now Block.pair
  have h1 := (s.rg CLK_TB_LO).isLt
  have h2 := (s.rg (CLK_TB_LO + 4)).isLt
  omega

theorem timeSyncTick_first (s : State) (t1 t2 t3 t4 : Int) (hops p : Nat) (off : Int) (hr : s.blk.isRoot = false) (hp : s.blk.syncPort = some p)
    (hoff : off = syncOffset t1 t2 t3 t4 (signExt 16 (s.blk.fld (ESK_TS_ASYM p) 15 0))) (h1 : s.blk.fld ESK_TIME 1 0 ≠ 1) :
    ∃ t : State, exec (.timeSyncTick t1 t2 t3 t4 hops) s = .next t ∧ t.pending = s.pending ∧ t.blk.fld ESK_TIME 1 0 = 1 ∧
      t.blk.fld ESK_TIME 7 2 = hops % 64 ∧ t.blk.now = min (2 ^ 64 - 1) (s.blk.now + off.toNat) ∧
      { t.blk with regs := s.blk.regs } = s.blk := by
  have hx : exec (.timeSyncTick t1 t2 t3 t4 hops) s = onBlk (effTimeSyncTick t1 t2 t3 t4 hops) s := rfl
  have he := effTimeSyncTick_port t1 t2 t3 t4 hops hr hp
  rw [← hoff, if_pos h1] at he
  obtain ⟨a1, a2, a3, a4⟩ := s.blk.timeShown_spec hops off
  obtain ⟨a, ha⟩ : ∃ a, a = s.blk.timeShown hops off := ⟨_, rfl⟩
  rw [← ha] at he a1 a2 a3 a4
  have hnow : a.now = s.blk.now := Block.now_congr fun r hr => a3 r (by
    have e : ESK_TIME = 0x00840008 := rfl
    omega)
  have hlt := s.blk.now_lt
  obtain ⟨b, hb, b1, b2, b3⟩ : ∃ b, effTimeSyncTick t1 t2 t3 t4 hops s.blk = b ∧ b.rg ESK_TIME = a.rg ESK_TIME ∧
      b.now = min (2 ^ 64 - 1) (s.blk.now + off.toNat) ∧ { b with regs := s.blk.regs } = s.blk := by
    refine ⟨_, he, ?_⟩
    split
    · refine ⟨Block.rg_setPair_other _ _ (by decide) (by decide), by rw [Block.now_bumpPair, hnow], ?_⟩
      exact (Block.bumpPair_frame ..).trans a4
    · refine ⟨rfl, ?_, a4⟩
      rw [hnow]
      omega
  exact ⟨{ s with blk := b }, hx.trans (onBlk_next_of_eq hb (congrArg (fun x : Block => x.trust.fuses) b3 :)
    (congrArg (fun x : Block => x.ice.perm) b3 :)), rfl, (congrArg (fun w : Word => w.fld 1 0) b1 :).trans a1,
    (congrArg (fun w : Word => w.fld 7 2) b1 :).trans a2, b2, b3⟩

theorem timeSyncTick_later (s : State) (t1 t2 t3 t4 : Int) (hops p : Nat) (hr : s.blk.isRoot = false) (hp : s.blk.syncPort = some p)
    (h1 : s.blk.fld ESK_TIME 1 0 = 1) :
    ∃ t : State, exec (.timeSyncTick t1 t2 t3 t4 hops) s = .next t ∧ t.pending = s.pending ∧ t.blk.fld ESK_TIME 1 0 = 1 ∧
      t.blk.now = s.blk.now ∧ { t.blk with regs := s.blk.regs, freeCtr := s.blk.freeCtr } = s.blk := by
  have hx : exec (.timeSyncTick t1 t2 t3 t4 hops) s = onBlk (effTimeSyncTick t1 t2 t3 t4 hops) s := rfl
  have he := effTimeSyncTick_port t1 t2 t3 t4 hops hr hp
  rw [if_neg (by simp [h1])] at he
  obtain ⟨off, hoff⟩ : ∃ off, off = syncOffset t1 t2 t3 t4 (signExt 16 (s.blk.fld (ESK_TS_ASYM p) 15 0)) := ⟨_, rfl⟩
  rw [← hoff] at he
  obtain ⟨a1, -, a3, a4⟩ := s.blk.timeShown_spec hops off
  obtain ⟨a, ha⟩ : ∃ a, a = s.blk.timeShown hops off := ⟨_, rfl⟩
  rw [← ha] at he a1 a3 a4
  dsimp only at he
  obtain ⟨v, hv⟩ : ∃ v : Nat, v = ((((a.choose 20000001).1 : Int) - 10000000) % 2 ^ 25).toNat := ⟨_, rfl⟩
  rw [← hv] at he
  have c1 : ∀ r, (a.choose 20000001).2.rg r = a.rg r := fun _ => rfl
  have c2 : { (a.choose 20000001).2 with freeCtr := a.freeCtr } = a := rfl
  obtain ⟨c, hc⟩ : ∃ c, c = (a.choose 20000001).2 := ⟨_, rfl⟩
  rw [← hc] at he c1 c2
  have d1 : ∀ r, r ≠ CLK_TB_ADJ → (c.wf CLK_TB_ADJ 24 0 v).rg r = c.rg r := fun r h => Block.rg_wf_other _ _ _ _ h
  have d2 : { c.wf CLK_TB_ADJ 24 0 v with regs := s.blk.regs } = { c with regs := s.blk.regs } := by simp
  obtain ⟨d, hd⟩ : ∃ d, d = c.wf CLK_TB_ADJ 24 0 v := ⟨_, rfl⟩
  rw [← hd] at he d1 d2
  have hrest : { d with regs := s.blk.regs, freeCtr := s.blk.freeCtr } = s.blk :=
    (congrArg (fun x : Block => { x with freeCtr := s.blk.freeCtr }) d2 :).trans
      ((congrArg (fun x : Block => { x with regs := s.blk.regs, freeCtr := s.blk.freeCtr }) c2 :).trans
        (congrArg (fun x : Block => { x with freeCtr := s.blk.freeCtr }) a4 :))
  refine ⟨{ s with blk := d }, hx.trans (onBlk_next_of_eq he (congrArg (fun x : Block => x.trust.fuses) hrest :)
    (congrArg (fun x : Block => x.ice.perm) hrest :)), rfl, ?_, ?_, hrest⟩
  · exact (congrArg (fun w : Word => w.fld 1 0) ((d1 ESK_TIME (by decide)).trans (c1 _)) :).trans a1
  · have hlo := (d1 CLK_TB_LO (by decide)).trans ((c1 _).trans (a3 _ (by decide)))
    have hhi := (d1 (CLK_TB_LO + 4) (by decide)).trans ((c1 _).trans (a3 _ (by decide)))
    show (d.rg CLK_TB_LO).toNat + 2 ^ 32 * (d.rg (CLK_TB_LO + 4)).toNat = s.blk.now
    rw [hlo, hhi]
    rfl

/-- Settles O40: a request that is lost fails its placed job (`failJob_placed`), a packet of VC 1 goes at once on the fixed route
(`enqueue_wentOut`), and an exchange acts on the registers of time. -/
theorem linkTimers : Obligations.LinkTimers := by
  unfold Obligations.LinkTimers
  exact ⟨ackTimeoutExpiry_ends, ackTimeoutExpiry_early, vc1EscapeTimeout_leaves, vc1EscapeTimeout_idle, timeSyncTick_root, timeSyncTick_first,
    timeSyncTick_later, timeSyncTick_free⟩

end Sys2Proof.Machine
end

section
/-! Packets that arrive: passed on, completed, or taken for the fabric manager's channel (R357, R360, R362, R370). -/

namespace Sys2Proof.Machine

/-! ### A packet counted -/

/-- A packet counted by its port. -/
def Block.rxCounted (s : Block) (p : Nat) (k : Packet) : Block := s.bumpPair (ESK_CNT_RX_LO p) (packetBytes k)

theorem Block.rxCounted_frame (s : Block) (p : Nat) (k : Packet) : { s.rxCounted p k with regs := s.regs } = s := s.bumpPair_frame s _ _

theorem Block.rg_rxCounted (s : Block) (p : Nat) (k : Packet) {a : Nat} (h : a % 0x80000 < 0x208 ∨ 0x210 ≤ a % 0x80000) :
    (s.rxCounted p k).rg a = s.rg a := by
  have e : ESK_CNT_RX_LO p = 0x00800000 + p * 0x80000 + 0x208 := rfl
  exact Block.rg_setPair_other _ _ (by omega) (by omega)

theorem Block.portUp_rxCounted (s : Block) (p : Nat) (k : Packet) (q : Nat) : (s.rxCounted p k).portUp q = s.portUp q := by
  have e : ESK_STATE q = 0x00800000 + q * 0x80000 + 0 := rfl
  exact Block.portUp_congr (s.rg_rxCounted p k (by omega))

theorem Block.fixedPort_congr {s t : Block} (he : t.esk = s.esk) (hu : ∀ p, t.portUp p = s.portUp p) (n : Nat) : t.fixedPort n = s.fixedPort n := by
  have hup : t.portUp = s.portUp := funext hu
  unfold Block.fixedPort Block.adaptUp Block.route Block.routeUp
  rw [he, hup]

theorem Block.routePort_congr {s t : Block} (he : t.esk = s.esk) (hu : ∀ p, t.portUp p = s.portUp p) (vc n : Nat) :
    t.routePort vc n = s.routePort vc n := by
  have hup : t.portUp = s.portUp := funext hu
  unfold Block.routePort Block.adaptPort Block.fixedPort Block.adaptUp Block.route Block.routeUp Block.waitingFor Block.port
  rw [he, hup]

/-- What a packet's count leaves as it is. -/
theorem Block.rxCounted_same (s : Block) (p : Nat) (k : Packet) : (s.rxCounted p k).nodeValid = s.nodeValid ∧ (s.rxCounted p k).node = s.node ∧
    (∀ vc n, (s.rxCounted p k).routePort vc n = s.routePort vc n) ∧ (∀ n, (s.rxCounted p k).fixedPort n = s.fixedPort n) ∧
    (∀ q vc n, (s.rxCounted p k).sendsNow q vc n ↔ s.sendsNow q vc n) := by
  have hf := s.rxCounted_frame p k
  have hu := s.portUp_rxCounted p k
  have hn : (s.rxCounted p k).rg ESK_NODE = s.rg ESK_NODE := s.rg_rxCounted p k (by decide)
  obtain ⟨b, hb⟩ : ∃ b, b = s.rxCounted p k := ⟨_, rfl⟩
  rw [← hb] at hf hu hn ⊢
  have he : b.esk = s.esk := (congrArg Block.esk hf :)
  refine ⟨(congrArg (fun w : Word => w.bit 15) hn :), (congrArg (fun w : Word => w.fld 14 0) hn :), Block.routePort_congr he hu,
    Block.fixedPort_congr he hu, fun q vc n => ?_⟩
  have hl : b.ledger (creditLedger q vc) = s.ledger (creditLedger q vc) := (congrArg (fun z : Block => z.ledger (creditLedger q vc)) hf :)
  unfold Block.sendsNow
  rw [hu, Block.port_congr he q, hl]

theorem Block.receive_here {s : Block} {p : Nat} {k : Packet} (h : Block → Block) (h31 : k.hops ≠ 31) (hv : s.nodeValid = true)
    (hd : k.dst = s.node) : s.receive p k h = h (s.rxCounted p k) := by
  obtain ⟨h1, h2, -⟩ := s.rxCounted_same p k
  have he : s.receive p k h = if k.hops = 31 then (s.rxCounted p k).discard p
    else if !(s.rxCounted p k).nodeValid && k.vc != 4 then (s.rxCounted p k).discard p
    else if (s.rxCounted p k).nodeValid && k.dst == (s.rxCounted p k).node then h (s.rxCounted p k)
    else if !(s.rxCounted p k).nodeValid then h (s.rxCounted p k)
    else (s.rxCounted p k).forward p k := rfl
  rw [he, if_neg h31, h1, h2, hv, hd]
  simp

theorem Block.receive_passes {s : Block} {p : Nat} {k : Packet} (h : Block → Block) (h31 : k.hops ≠ 31) (hv : s.nodeValid = true)
    (hd : k.dst ≠ s.node) : s.receive p k h = (s.rxCounted p k).forward p k := by
  obtain ⟨h1, h2, -⟩ := s.rxCounted_same p k
  have he : s.receive p k h = if k.hops = 31 then (s.rxCounted p k).discard p
    else if !(s.rxCounted p k).nodeValid && k.vc != 4 then (s.rxCounted p k).discard p
    else if (s.rxCounted p k).nodeValid && k.dst == (s.rxCounted p k).node then h (s.rxCounted p k)
    else if !(s.rxCounted p k).nodeValid then h (s.rxCounted p k)
    else (s.rxCounted p k).forward p k := rfl
  rw [he, if_neg h31, h1, h2, hv]
  simp [hd]

theorem Block.receive_early {s : Block} {p : Nat} {k : Packet} (h : Block → Block) (h31 : k.hops ≠ 31) (hv : s.nodeValid = false)
    (h4 : k.vc = 4) : s.receive p k h = h (s.rxCounted p k) := by
  obtain ⟨h1, -⟩ := s.rxCounted_same p k
  have he : s.receive p k h = if k.hops = 31 then (s.rxCounted p k).discard p
    else if !(s.rxCounted p k).nodeValid && k.vc != 4 then (s.rxCounted p k).discard p
    else if (s.rxCounted p k).nodeValid && k.dst == (s.rxCounted p k).node then h (s.rxCounted p k)
    else if !(s.rxCounted p k).nodeValid then h (s.rxCounted p k)
    else (s.rxCounted p k).forward p k := rfl
  rw [he, if_neg h31, h1, hv, h4]
  simp

theorem Block.receive_spent {s : Block} {p : Nat} {k : Packet} (h : Block → Block) (h31 : k.hops = 31) :
    s.receive p k h = (s.rxCounted p k).discard p := if_pos h31

/-! ### The commands of packets -/

theorem packetReady_of {p ty : Nat} {k : Packet} {s : Block} (ht : k.ptype = ty) (hp : portOk p = true) (hu : s.portUp p = true) :
    packetReady p ty k s = true := by
  rw [packetReady, hp, hu, ht]
  simp

theorem Block.takesPacket_ready {s : Block} {p ty : Nat} {k : Packet} (f : Block → Block) (ht : k.ptype = ty) (hp : portOk p = true)
    (hu : s.portUp p = true) : s.takesPacket p ty k f = f s := if_pos (packetReady_of ht hp hu)

/-- The commands of packets, with what each does once its packet is of its type. -/
theorem exec_packet {s : State} {i : Instr} {p : Nat} {k : Packet} {msg : List Word}
    (hi : i ∈ [.eskWritePacket p k, .eskRedPacket p k, .eskReadPacket p k, .eskAtomicPacket p k, .eskAckPacket p k, .eskDataPacket p k,
      .eskMgmtPacket p k msg]) : ∃ ty f, Instr.packet i = some (p, ty, k) ∧ exec i s = onBlk (fun b => b.takesPacket p ty k f) s ∧
      ∃ h, f s.blk = s.blk.receive p k h ∨ f s.blk = s.blk ∧ ty = 0xC ∧ s.blk.full (chBase .mgmt) = true := by
  simp only [List.mem_cons, List.not_mem_nil, or_false] at hi
  obtain rfl | rfl | rfl | rfl | rfl | rfl | rfl := hi
  · exact ⟨1, requestEffect p k, rfl, rfl, _, Or.inl rfl⟩
  · exact ⟨2, requestEffect p k, rfl, rfl, _, Or.inl rfl⟩
  · exact ⟨3, requestEffect p k, rfl, rfl, _, Or.inl rfl⟩
  · exact ⟨4, requestEffect p k, rfl, rfl, _, Or.inl rfl⟩
  · exact ⟨8, responseEffect p k, rfl, rfl, _, Or.inl rfl⟩
  · exact ⟨9, responseEffect p k, rfl, rfl, _, Or.inl rfl⟩
  · refine ⟨0xC, fun s => if s.full (chBase .mgmt) then s else mgmtEffect p k msg s, rfl, rfl,
      fun s => if s.fromFm k && ((mreg msg 0).fld 15 8 == 8) then s.mgmtMessage msg else s, ?_⟩
    by_cases hf : s.blk.full (chBase .mgmt) = true
    · exact Or.inr ⟨if_pos hf, rfl, hf⟩
    · exact Or.inl (if_neg hf)

theorem packet_passes (s : State) (i : Instr) (p ty q : Nat) (k : Packet) (msg : List Word)
    (hi : i ∈ [.eskWritePacket p k, .eskRedPacket p k, .eskReadPacket p k, .eskAtomicPacket p k, .eskAckPacket p k, .eskDataPacket p k,
      .eskMgmtPacket p k msg]) (ha : s.blk.arrives i p ty k) (hv : s.blk.nodeValid = true) (hd : k.dst ≠ s.blk.node)
    (hr : s.blk.routePort k.vc k.dst = some q) (hs : s.blk.sendsNow q k.vc (packetBytes k)) :
    ∃ t : State, exec i s = .next t ∧ t.pending = s.pending ∧
      t.blk.env.sent = s.blk.env.sent ++ [(q, { k with hops := k.hops + 1 })] ∧
      { t.blk with regs := s.blk.regs, esk := s.blk.esk, env := s.blk.env, led := s.blk.led } = s.blk := by
  obtain ⟨hp1, hp2, hp3, hp4, hp5, hp6⟩ := ha
  obtain ⟨ty', f, hty, hx, h, hf⟩ := exec_packet (s := s) hi
  obtain rfl : ty' = ty := by
    have := hty.symm.trans hp1
    simp only [Option.some.injEq, Prod.mk.injEq] at this
    exact this.2.1
  have hf' : f s.blk = s.blk.receive p k h := by
    obtain hf | ⟨-, hc, hfull⟩ := hf
    · exact hf
    · rw [hp6 hc] at hfull
      cases hfull
  have he : (fun b : Block => b.takesPacket p ty' k f) s.blk = (s.blk.rxCounted p k).forward p k :=
    (Block.takesPacket_ready f hp2 hp3 hp4).trans (hf'.trans (Block.receive_passes h hp5 hv hd))
  obtain ⟨-, -, c3, -, c5⟩ := s.blk.rxCounted_same p k
  have cf := s.blk.rxCounted_frame p k
  obtain ⟨c, hc⟩ : ∃ c, c = s.blk.rxCounted p k := ⟨_, rfl⟩
  rw [← hc] at he c3 c5 cf
  have hfw : c.forward p k = c.enqueue q false { k with hops := k.hops + 1 } := by
    unfold Block.forward
    rw [c3, hr]
  rw [hfw] at he
  obtain ⟨w, -, -⟩ := Block.enqueue_wentOut (own := false) (k := { k with hops := k.hops + 1 }) ((c5 q k.vc (packetBytes k)).2 hs) rfl
  obtain ⟨d, hd'⟩ : ∃ d, d = c.enqueue q false { k with hops := k.hops + 1 } := ⟨_, rfl⟩
  rw [← hd'] at he w
  have hrest : { d with regs := s.blk.regs, esk := s.blk.esk, env := s.blk.env, led := s.blk.led } = s.blk :=
    (congrArg (fun x : Block => { x with regs := s.blk.regs, esk := s.blk.esk, env := s.blk.env, led := s.blk.led }) w.rest :).trans
      (congrArg (fun x : Block => { x with esk := s.blk.esk, env := s.blk.env, led := s.blk.led }) cf :)
  refine ⟨{ s with blk := d }, hx.trans (onBlk_next_of_eq he (congrArg (fun x : Block => x.trust.fuses) hrest :)
    (congrArg (fun x : Block => x.ice.perm) hrest :)), rfl, ?_, hrest⟩
  exact w.sent.trans (congrArg (fun x : Block => x.env.sent ++ [(q, { k with hops := k.hops + 1 })]) cf :)

theorem Block.discarded_frame (s : Block) (p : Nat) (k : Packet) : { (s.rxCounted p k).discard p with regs := s.regs } = s := by
  have h := s.rxCounted_frame p k
  obtain ⟨b, hb⟩ : ∃ b, b = s.rxCounted p k := ⟨_, rfl⟩
  rw [← hb] at h ⊢
  have h2 : { b.discard p with regs := s.regs } = { b with regs := s.regs } := by simp [Block.discard, Block.bump]
  exact h2.trans h

theorem packet_spent (s : State) (i : Instr) (p : Nat) (k : Packet) (msg : List Word)
    (hi : i ∈ [.eskWritePacket p k, .eskRedPacket p k, .eskReadPacket p k, .eskAtomicPacket p k, .eskAckPacket p k, .eskDataPacket p k,
      .eskMgmtPacket p k msg]) (h31 : k.hops = 31) :
    ∃ t : State, exec i s = .next t ∧ t.pending = s.pending ∧ { t.blk with regs := s.blk.regs } = s.blk := by
  obtain ⟨ty, f, -, hx, h, hf⟩ := exec_packet (s := s) hi
  obtain ⟨b, hb, hfr⟩ : ∃ b, (fun b : Block => b.takesPacket p ty k f) s.blk = b ∧ { b with regs := s.blk.regs } = s.blk := by
    have hd := s.blk.discarded_frame p k
    refine ⟨_, rfl, ?_⟩
    show { s.blk.takesPacket p ty k f with regs := s.blk.regs } = s.blk
    unfold Block.takesPacket
    split
    · obtain hf | ⟨hf, -⟩ := hf
      · rw [hf, Block.receive_spent h h31]
        exact hd
      · rw [hf]
    · split
      · exact hd
      · rfl
  exact ⟨{ s with blk := b }, hx.trans (onBlk_next_of_eq hb (congrArg (fun x : Block => x.trust.fuses) hfr :)
    (congrArg (fun x : Block => x.ice.perm) hfr :)), rfl, hfr⟩

theorem packet_portDown (s : State) (i : Instr) (p : Nat) (k : Packet) (msg : List Word)
    (hi : i ∈ [.eskWritePacket p k, .eskRedPacket p k, .eskReadPacket p k, .eskAtomicPacket p k, .eskAckPacket p k, .eskDataPacket p k,
      .eskMgmtPacket p k msg]) (hu : s.blk.portUp p = false) : exec i s = .next s := by
  obtain ⟨ty, f, -, hx, -⟩ := exec_packet (s := s) hi
  refine hx.trans (onBlk_idle ?_)
  show s.blk.takesPacket p ty k f = s.blk
  unfold Block.takesPacket packetReady strayPacket
  simp [hu]

/-! ### Responses -/

theorem exec_response {s : State} {i : Instr} {p ty : Nat} {k : Packet} (hi : i ∈ [.eskAckPacket p k, .eskDataPacket p k])
    (ha : s.blk.arrives i p ty k) (hv : s.blk.nodeValid = true) (hd : k.dst = s.blk.node) :
    ∃ f, exec i s = onBlk f s ∧ f s.blk = (s.blk.rxCounted p k).complete p k := by
  obtain ⟨hp1, hp2, hp3, hp4, hp5, -⟩ := ha
  simp only [List.mem_cons, List.not_mem_nil, or_false] at hi
  obtain rfl | rfl := hi
  · have ht : 8 = ty := by
      simp only [Instr.packet, Option.some.injEq, Prod.mk.injEq] at hp1
      exact hp1.2.1
    exact ⟨effEskAckPacket p k, rfl, (Block.takesPacket_ready (responseEffect p k) (hp2.trans ht.symm) hp3 hp4).trans
      (Block.receive_here _ hp5 hv hd)⟩
  · have ht : 9 = ty := by
      simp only [Instr.packet, Option.some.injEq, Prod.mk.injEq] at hp1
      exact hp1.2.1
    exact ⟨effEskDataPacket p k, rfl, (Block.takesPacket_ready (responseEffect p k) (hp2.trans ht.symm) hp3 hp4).trans
      (Block.receive_here _ hp5 hv hd)⟩

theorem Block.responds_rxCounted (s : Block) (p : Nat) (k : Packet) (o : Outstanding) : (s.rxCounted p k).responds o k = s.responds o k := by
  have e : ESK_EPOCH o.port = 0x00800000 + o.port * 0x80000 + 0x30 := rfl
  have h : (s.rxCounted p k).fld (ESK_EPOCH o.port) 15 0 = s.fld (ESK_EPOCH o.port) 15 0 :=
    (congrArg (fun w : Word => w.fld 15 0) (s.rg_rxCounted p k (a := ESK_EPOCH o.port) (by omega)) :)
  unfold Block.responds
  rw [h]

/-- A block without a request. -/
def Block.tagFreed (s : Block) (tag : Nat) : Block := { s with esk := { s.esk with out := kdel s.esk.out tag } }

theorem Block.tagFreed_out (s : Block) (tag : Nat) : kget (s.tagFreed tag).esk.out tag = none := (kget_kdel ..).trans (if_pos rfl)

theorem Block.complete_fits {s : Block} {p : Nat} {k : Packet} {o : Outstanding} (ho : kget s.esk.out k.tag = some o)
    (hr : s.responds o k = true) (hm : o.mover = none) :
    s.complete p k = ((s.tagFreed k.tag).answered o ⟨k.status, k.data, bitMarks k.data.length k.poison⟩).pumpAll := by
  unfold Block.complete
  rw [ho]
  dsimp only
  rw [if_pos hr, hm]
  rfl

theorem response_completes (s : State) (i : Instr) (p ty : Nat) (k : Packet) (o : Outstanding)
    (hi : i ∈ [.eskAckPacket p k, .eskDataPacket p k]) (ha : s.blk.arrives i p ty k) (hv : s.blk.nodeValid = true) (hd : k.dst = s.blk.node)
    (ho : kget s.blk.esk.out k.tag = some o) (hr : s.blk.responds o k = true) (hk : k.status = OK) (hm : o.mover = none)
    (hsk : o.sink = none) :
    ∃ t : State, exec i s = .next t ∧ t.pending = s.pending ∧ kget t.blk.esk.out k.tag = none ∧ t.blk.jobs = s.blk.jobs ∧
      t.blk.objs = s.blk.objs ∧ t.blk.tiles = s.blk.tiles := by
  obtain ⟨f, hx, hf⟩ := exec_response hi ha hv hd
  have cf := s.blk.rxCounted_frame p k
  have hr' := (s.blk.responds_rxCounted p k o).trans hr
  obtain ⟨c, hc⟩ : ∃ c, c = s.blk.rxCounted p k := ⟨_, rfl⟩
  rw [← hc] at hf cf hr'
  have ho' : kget c.esk.out k.tag = some o := (congrArg (fun x : Block => kget x.esk.out k.tag) cf :).trans ho
  have hans : (c.tagFreed k.tag).answered o ⟨k.status, k.data, bitMarks k.data.length k.poison⟩ = c.tagFreed k.tag := by
    unfold Block.answered
    rw [hm]
    dsimp only
    rw [if_pos hk]
    unfold Block.placeData
    rw [hsk]
  rw [Block.complete_fits ho' hr' hm, hans] at hf
  have hout := Block.pumpAll_out _ (c.tagFreed_out k.tag)
  obtain ⟨p1, p2, p3⟩ := Block.objs_of_linkBack ((c.tagFreed k.tag).linkBack_pumpAll c)
  obtain ⟨t, ht, hpend, htb⟩ := onBlk_lasting_next f s
  rw [hf] at htb
  refine ⟨t, hx.trans ht, hpend, ?_, ?_, ?_, ?_⟩
  · rw [htb, Block.lasting_esk]
    exact hout
  · rw [htb, Block.lasting_jobs, p2]
    exact (congrArg Block.jobs cf :)
  · rw [htb, Block.lasting_objs, p1]
    exact (congrArg Block.objs cf :)
  · rw [htb, Block.lasting_tiles, p3]
    exact (congrArg Block.tiles cf :)

theorem response_fails (s : State) (i : Instr) (p ty : Nat) (k : Packet) (o : Outstanding) (J : Job)
    (hi : i ∈ [.eskAckPacket p k, .eskDataPacket p k]) (ha : s.blk.arrives i p ty k) (hv : s.blk.nodeValid = true) (hd : k.dst = s.blk.node)
    (ho : kget s.blk.esk.out k.tag = some o) (hr : s.blk.responds o k = true) (hk : k.status ≠ OK) (hm : o.mover = none)
    (hJ : s.blk.jobAt o.job = some J) (hp : J.placed = true) (hfl : J.fail = none) :
    ∃ t : State, exec i s = .next t ∧ t.pending = s.pending ∧ kget t.blk.esk.out k.tag = none ∧
      (t.blk.jobAt o.job).map (·.fail) = some (some (k.status, o.count, o.tag, o.engine)) ∧ t.blk.objs = s.blk.objs := by
  obtain ⟨f, hx, hf⟩ := exec_response hi ha hv hd
  have cf := s.blk.rxCounted_frame p k
  have hr' := (s.blk.responds_rxCounted p k o).trans hr
  obtain ⟨c, hc⟩ : ∃ c, c = s.blk.rxCounted p k := ⟨_, rfl⟩
  rw [← hc] at hf cf hr'
  have ho' : kget c.esk.out k.tag = some o := (congrArg (fun x : Block => kget x.esk.out k.tag) cf :).trans ho
  have hJ' : (c.tagFreed k.tag).jobAt o.job = some J := (congrArg (fun x : Block => x.jobAt o.job) cf :).trans hJ
  have hans : (c.tagFreed k.tag).answered o ⟨k.status, k.data, bitMarks k.data.length k.poison⟩ =
      (c.tagFreed k.tag).failJob o.job k.status o.count o.tag o.engine := by
    unfold Block.answered
    rw [hm]
    exact if_neg hk
  rw [Block.complete_fits ho' hr' hm, hans] at hf
  obtain ⟨f1, f2, f3⟩ := Block.failJob_placed hJ' hp hfl k.status o.count o.tag o.engine
  have hout0 : kget ((c.tagFreed k.tag).failJob o.job k.status o.count o.tag o.engine).esk.out k.tag = none := by
    rw [f3]
    exact c.tagFreed_out k.tag
  obtain ⟨d, hd'⟩ : ∃ d, d = (c.tagFreed k.tag).failJob o.job k.status o.count o.tag o.engine := ⟨_, rfl⟩
  rw [← hd'] at hf f1 f2 hout0
  obtain ⟨p1, p2, -⟩ := Block.objs_of_linkBack (d.linkBack_pumpAll d)
  obtain ⟨t, ht, hpend, htb⟩ := onBlk_lasting_next f s
  rw [hf] at htb
  refine ⟨t, hx.trans ht, hpend, ?_, ?_, ?_⟩
  · rw [htb, Block.lasting_esk]
    exact Block.pumpAll_out _ hout0
  · rw [htb]
    exact (Block.failOf_lasting ..).trans ((Block.failOf_congr p2 _).trans f1)
  · rw [htb, Block.lasting_objs, p1, f2]
    exact (congrArg Block.objs cf :)

theorem response_unfit (s : State) (i : Instr) (p ty : Nat) (k : Packet) (hi : i ∈ [.eskAckPacket p k, .eskDataPacket p k])
    (ha : s.blk.arrives i p ty k) (hv : s.blk.nodeValid = true) (hd : k.dst = s.blk.node) (ho : kget s.blk.esk.out k.tag = none) :
    ∃ t : State, exec i s = .next t ∧ t.pending = s.pending ∧ { t.blk with regs := s.blk.regs } = s.blk := by
  obtain ⟨f, hx, hf⟩ := exec_response hi ha hv hd
  have hd' := s.blk.discarded_frame p k
  have ho' : kget (s.blk.rxCounted p k).esk.out k.tag = none := (congrArg (fun x : Block => kget x.esk.out k.tag) (s.blk.rxCounted_frame p k) :).trans ho
  have he : f s.blk = (s.blk.rxCounted p k).discard p := by
    rw [hf]
    unfold Block.complete
    rw [ho']
  obtain ⟨b, hb⟩ : ∃ b, b = (s.blk.rxCounted p k).discard p := ⟨_, rfl⟩
  rw [← hb] at he hd'
  exact ⟨{ s with blk := b }, hx.trans (onBlk_next_of_eq he (congrArg (fun x : Block => x.trust.fuses) hd' :)
    (congrArg (fun x : Block => x.ice.perm) hd' :)), rfl, hd'⟩

/-! ### The fabric manager's messages -/

/-- A message placed: its length, its words and FULL. -/
theorem Block.mgmtMessage_spec (s : Block) (msg : List Word) : (s.mgmtMessage msg).full (chBase .mgmt) = true ∧
    mreg ((s.mgmtMessage msg).msgWords .mgmt) 0 = mreg msg 0 ∧ { s.mgmtMessage msg with regs := s.regs, mbx := s.mbx } = s := by
  unfold Block.mgmtMessage
  dsimp only
  obtain ⟨a, ha⟩ : ∃ a, a = chBase .mgmt := ⟨_, rfl⟩
  rw [← ha]
  obtain ⟨m, hm, h8⟩ : ∃ m : Mbx, { s.box a with len := max 8 msg.length } = m ∧ 8 ≤ m.len := ⟨_, rfl, Nat.le_max_left ..⟩
  rw [hm]
  have hbox : (((s.setBox a m).boxData a msg).wb (a + 0x44) 0 true).box a = m :=
    (Block.box_congr (((Block.wb_mbx ..).trans (Block.boxData_mbx ..)))).trans (Block.box_setBox_same ..)
  refine ⟨Block.bit_wb_same _ _ _ (by omega), ?_, by simp⟩
  unfold Block.msgWords mreg
  rw [← ha, hbox]
  rw [List.getD_eq_getElem?_getD, List.getElem?_map, List.getElem?_range (by omega)]
  have h1 : (((s.setBox a m).boxData a msg).wb (a + 0x44) 0 true).rg (a + 4 * 0) = ((s.setBox a m).boxData a msg).rg (a + 4 * 0) :=
    Block.rg_wb_other _ _ _ (by omega)
  exact h1.trans (Block.rg_boxData _ _ _ (by omega))

theorem Block.fromFm_rxCounted (s : Block) (p : Nat) (k : Packet) : (s.rxCounted p k).fromFm k = s.fromFm k := by
  have h : (s.rxCounted p k).rg ESK_FABRIC = s.rg ESK_FABRIC := s.rg_rxCounted p k (by decide)
  unfold Block.fromFm Block.bit Block.fld
  rw [h]

theorem mgmtPacket_reaches (s : State) (p : Nat) (k : Packet) (msg : List Word) (ha : s.blk.arrives (.eskMgmtPacket p k msg) p 0xC k)
    (hn : s.blk.nodeValid = false ∨ k.dst = s.blk.node) (hfm : s.blk.fromFm k = true) (h8 : (mreg msg 0).fld 15 8 = 8) :
    ∃ t : State, exec (.eskMgmtPacket p k msg) s = .next t ∧ t.pending = s.pending ∧ t.blk.full (chBase .mgmt) = true ∧
      mreg (t.blk.msgWords .mgmt) 0 = mreg msg 0 ∧ { t.blk with regs := s.blk.regs, mbx := s.blk.mbx } = s.blk := by
  obtain ⟨-, hp2, hp3, hp4, hp5, hp6⟩ := ha
  have hx : exec (.eskMgmtPacket p k msg) s = onBlk (effEskMgmtPacket p k msg) s := rfl
  have h4 : k.vc = 4 := by
    unfold Block.fromFm at hfm
    simp only [Bool.and_eq_true, beq_iff_eq] at hfm
    exact hfm.2
  have hrec : effEskMgmtPacket p k msg s.blk = mgmtEffect p k msg s.blk :=
    (Block.takesPacket_ready _ hp2 hp3 hp4).trans (if_neg (by rw [hp6 rfl]; decide))
  have hh : ∀ h, s.blk.receive p k h = h (s.blk.rxCounted p k) := by
    intro h
    by_cases hv : s.blk.nodeValid = true
    · exact Block.receive_here h hp5 hv (hn.resolve_left (by rw [hv]; decide))
    · exact Block.receive_early h hp5 (by simpa using hv) h4
  have he : effEskMgmtPacket p k msg s.blk = (s.blk.rxCounted p k).mgmtMessage msg := by
    rw [hrec]
    refine (hh _).trans (if_pos ?_)
    rw [Block.fromFm_rxCounted, hfm, h8]
    rfl
  have cf := s.blk.rxCounted_frame p k
  obtain ⟨c, hc⟩ : ∃ c, c = s.blk.rxCounted p k := ⟨_, rfl⟩
  rw [← hc] at he cf
  obtain ⟨m1, m2, m3⟩ := c.mgmtMessage_spec msg
  obtain ⟨d, hd⟩ : ∃ d, d = c.mgmtMessage msg := ⟨_, rfl⟩
  rw [← hd] at he m1 m2 m3
  have hrest : { d with regs := s.blk.regs, mbx := s.blk.mbx } = s.blk :=
    (congrArg (fun x : Block => { x with regs := s.blk.regs, mbx := s.blk.mbx }) m3 :).trans
      (congrArg (fun x : Block => { x with mbx := s.blk.mbx }) cf :)
  exact ⟨{ s with blk := d }, hx.trans (onBlk_next_of_eq he (congrArg (fun x : Block => x.trust.fuses) hrest :)
    (congrArg (fun x : Block => x.ice.perm) hrest :)), rfl, m1, m2, hrest⟩

/-- Settles O39: a packet of another node goes on at once (`enqueue_wentOut`), a response frees its tag and completes its request or fails its
job (`complete_fits`, `failJob_placed`), and a fabric message is placed in its channel. -/
theorem packetsPassAndComplete : Obligations.PacketsPassAndComplete := by
  unfold Obligations.PacketsPassAndComplete
  exact ⟨packet_passes, packet_spent, packet_portDown, response_completes, response_fails, response_unfit, mgmtPacket_reaches⟩

end Sys2Proof.Machine
end

section
/-! ESK_DOMAIN_SET and the numbers of partitions (R363): the statement on fabric messages fails, as its frame has no bound on them. -/

namespace Sys2Proof.Machine

/-! ### The state -/

/-- A partition number whose ESK_DOMAIN address is that of the PF's reply: no partition has it, and no premise of the statement bounds
the partitions whose domains stay. -/
def repliedPart : Nat := 1071580576

theorem repliedPart_register : ESK_DOMAIN repliedPart = chBack (.fn 0 0) := rfl

/-- A module with partition 0, where the first word of the last reply to the PF has bit 16 set. -/
def joinedModule : Block :=
  let b := State.reset.blk
  let b : Block := { b with fw := { b.fw with loaded := true }, start := { b.start with linkUp := true },
                            parts := [(0, { dies := 1, die := 0, clusters := 0, groups := 0, runPages := 0, busyFrac := [] })] }
  (b.wf (RIME_STATE 1) 2 0 0).wr (chBack (.fn 0 0)) 0x10000

/-- ESK_DOMAIN_SET without JOIN for partition 0 in the mailbox of the PF. -/
def leavingDomain : Block :=
  (((joinedModule.boxData (chBase (.fn 0 0)) [0x02000805, 0, 0]).wb (chBase (.fn 0 0) + 0x44) 0 true).setBox (chBase (.fn 0 0))
    { len := 8, waiting := [], owed := false }).chLed (.fn 0 0) fun b n => b.ledTake n 1

theorem leavingDomain_premises : leavingDomain.delivers (.fn 0 0) 0x0805 ∧ leavingDomain.backFree (.fn 0 0) ∧
    (mreg (leavingDomain.msgWords (.fn 0 0)) 1).toNat = 0 ∧ (leavingDomain.part 0).isSome = true ∧
    (mreg (leavingDomain.msgWords (.fn 0 0)) 2).bit 16 = false := by
  decide +kernel

/-- The reply's first word, the message's own, has bit 16 clear; that of the last reply had it set. -/
theorem leavingDomain_joined : leavingDomain.joined repliedPart = true ∧ (mreg (leavingDomain.msgWords (.fn 0 0)) 0).bit 16 = false := by
  decide +kernel

/-- Refutes O41, in its clause on ESK_DOMAIN_SET without JOIN: every partition number but the message's is to keep its domain, and that of
the number whose ESK_DOMAIN address is the reply's (`repliedPart_register`) is overwritten by the reply. -/
theorem not_fabricMessages : ¬ Obligations.FabricMessages := by
  unfold Obligations.FabricMessages
  intro h
  obtain ⟨-, -, -, -, -, hleave, -⟩ := h
  obtain ⟨h1, h2, h3, h4, h5⟩ := leavingDomain_premises
  obtain ⟨j1, j2⟩ := leavingDomain_joined
  obtain ⟨t, -, -, ⟨-, hreply, -⟩, -, hq, -⟩ := hleave { blk := leavingDomain, pending := [] } (.fn 0 0) 0 h1 h2 (Or.inl rfl) h3.symm (by decide)
    h4 h5
  have ht : t.blk.joined repliedPart = true := (hq repliedPart (by decide)).trans j1
  rw [Block.joined, Block.bit, repliedPart_register, hreply] at ht
  exact absurd (ht.symm.trans j2) (by decide)

end Sys2Proof.Machine
end

section
/-! Firn units and their commands: what queueing, taking and ending a command does to one unit (R117 to R127). -/

namespace Sys2Proof.Machine

/-! ### Addresses of the units -/

theorem FIRN_ne {u k j : Nat} (h : k ≠ j) : FIRN u k ≠ FIRN u j := by
  have e : ∀ k, FIRN u k = 0x04000000 + u * 0x1000 + k := fun _ => rfl
  rw [e, e]
  omega

theorem FIRN_ne_unit {u v k j : Nat} (h : u ≠ v) (hk : k < 0x1000) (hj : j < 0x1000) : FIRN u k ≠ FIRN v j := by
  have e : ∀ u k, FIRN u k = 0x04000000 + u * 0x1000 + k := fun _ _ => rfl
  rw [e, e]
  omega

theorem FIRN_ne_drops (u k : Nat) : FIRN u k ≠ ICE_DROPPED ∧ FIRN u k ≠ LDG_STATUS := by
  have e : FIRN u k = 0x04000000 + u * 0x1000 + k := rfl
  have e1 : ICE_DROPPED = 0x40001C := rfl
  have e2 : LDG_STATUS = 0x500000 := rfl
  omega

/-- The registers of the stack of a unit lie below those of the units beside it. -/
theorem FIRN_ne_STK {u v k j : Nat} (h : v < u + 0x1000) (hj : j < 0x10000) : STK (unitStack v) j ≠ FIRN u k := by
  have e : FIRN u k = 0x04000000 + u * 0x1000 + k := rfl
  have e' : STK (unitStack v) j = 0x02000000 + ((v / 256) / 4 * 6 + (v / 256) % 4) * 0x10000 + j := rfl
  omega

/-! ### The table of units -/

theorem Block.fu_congr {s t : Block} (h : t.firn = s.firn) (u : Nat) : t.fu u = s.fu u := congrArg (tget FirnUnit.reset · u) h

theorem Block.fu_setFu_same (s : Block) (u : Nat) (x : FirnUnit) : (s.setFu u x).fu u = x := tget_tset_same ..

theorem Block.fu_setFu_other (s : Block) {u v : Nat} (x : FirnUnit) (h : v ≠ u) : (s.setFu u x).fu v = s.fu v := tget_tset_other _ _ _ _ h

theorem Block.fu_modFu_same (s : Block) (u : Nat) (f : FirnUnit → FirnUnit) : (s.modFu u f).fu u = f (s.fu u) := Block.fu_setFu_same ..

theorem Block.fu_modFu_other (s : Block) {u v : Nat} (f : FirnUnit → FirnUnit) (h : v ≠ u) : (s.modFu u f).fu v = s.fu v :=
  Block.fu_setFu_other _ _ h

theorem Block.rg_setFu (s : Block) (u a : Nat) (x : FirnUnit) : (s.setFu u x).rg a = s.rg a := rfl

theorem Block.rg_modFu (s : Block) (u a : Nat) (f : FirnUnit → FirnUnit) : (s.modFu u f).rg a = s.rg a := rfl

theorem Block.firnState_congr {s t : Block} {u : Nat} (h : t.rg (FIRN_STATE u) = s.rg (FIRN_STATE u)) : t.firnState u = s.firnState u :=
  congrArg (Word.fld · 2 0) h

theorem Block.firnState_setFirnState (s : Block) (u : Nat) {v : Nat} (h : v < 8) : (s.setFirnState u v).firnState u = v :=
  (Block.fld_wf_same s (FIRN_STATE u) v (by omega) (by omega)).trans (Nat.mod_eq_of_lt h)

theorem Block.rg_setFirnState (s : Block) {u a : Nat} (v : Nat) (h : a ≠ FIRN_STATE u) : (s.setFirnState u v).rg a = s.rg a :=
  Block.rg_wf_other _ _ _ _ h

theorem Block.rg_led1_FIRN (s : Block) (n : Nat) (m : LedgerMove) (u k : Nat) : (s.led1 n m).rg (FIRN u k) = s.rg (FIRN u k) :=
  Block.rg_led1 _ _ _ (FIRN_ne_drops u k).1 (FIRN_ne_drops u k).2

/-! ### A command changes one unit -/

/-- What a command of a unit may change: the unit itself, and of its registers those at the offsets `l`. -/
structure Block.unitTold (t s : Block) (u : Nat) (l : List Nat) : Prop where
  others : ∀ v, v ≠ u → t.fu v = s.fu v
  regs : ∀ k, k ∉ l → t.rg (FIRN u k) = s.rg (FIRN u k)

theorem Block.unitTold.refl (s : Block) (u : Nat) (l : List Nat) : s.unitTold s u l := ⟨fun _ _ => rfl, fun _ _ => rfl⟩

theorem Block.unitTold.trans {s t x : Block} {u : Nat} {l : List Nat} (h : x.unitTold t u l) (h' : t.unitTold s u l) : x.unitTold s u l :=
  ⟨fun v hv => (h.others v hv).trans (h'.others v hv), fun k hk => (h.regs k hk).trans (h'.regs k hk)⟩

theorem Block.unitTold_setFu (s : Block) (u : Nat) (x : FirnUnit) (l : List Nat) : (s.setFu u x).unitTold s u l :=
  ⟨fun _ hv => Block.fu_setFu_other _ _ hv, fun _ _ => rfl⟩

theorem Block.unitTold_led1 (s : Block) (n : Nat) (m : LedgerMove) (u : Nat) (l : List Nat) : (s.led1 n m).unitTold s u l :=
  ⟨fun _ _ => Block.fu_congr (Block.led1_firn ..) _, fun _ _ => Block.rg_led1_FIRN ..⟩

theorem Block.unitTold_wr (s : Block) {u k : Nat} (v : Word) {l : List Nat} (h : k ∈ l) : (s.wr (FIRN u k) v).unitTold s u l :=
  ⟨fun _ _ => rfl, fun _ hj => Block.rg_wr_other _ _ (FIRN_ne fun e => hj (e ▸ h))⟩

theorem Block.unitTold_wf (s : Block) {u k : Nat} (hi lo v : Nat) {l : List Nat} (h : k ∈ l) :
    (s.wf (FIRN u k) hi lo v).unitTold s u l := Block.unitTold_wr _ _ h

theorem Block.unitTold_bump (s : Block) {u k : Nat} (n : Nat) {l : List Nat} (h : k ∈ l) : (s.bump (FIRN u k) n).unitTold s u l :=
  Block.unitTold_wr _ _ h

/-- What a report to the host leaves: its registers, and the counts of commands and stale epochs. -/
theorem Block.firnReport_host {s : Block} {u st : Nat} {w : Cmd} (hst : st < 65536) :
    (s.firnReport u (.cmd .host w) st).unitTold s u [0x200, 0x214, 0x64, 0x68] ∧ (s.firnReport u (.cmd .host w) st).firn = s.firn ∧
    (s.firnReport u (.cmd .host w) st).fld (FIRN_HOST_STATUS u) 15 0 = st ∧
    (s.firnReport u (.cmd .host w) st).rg (FIRN_HOST_LAST_SEQ u) = w.w1 := by
  obtain ⟨a, ha⟩ : ∃ a, a = if st = STALE_EPOCH then s.bump (FIRN_CNT_STALE u) else s := ⟨_, rfl⟩
  have he : s.firnReport u (.cmd .host w) st = ((a.bump (FIRN_CNT_CMDS u)).wf (FIRN_HOST_STATUS u) 15 0 st).wr (FIRN_HOST_LAST_SEQ u) w.w1 :=
    ha ▸ rfl
  have h1 : a.unitTold s u [0x200, 0x214, 0x64, 0x68] ∧ a.firn = s.firn := by
    rw [ha]
    split
    · exact ⟨Block.unitTold_bump _ _ (k := 0x214) (by decide), Block.bump_firn ..⟩
    · exact ⟨Block.unitTold.refl .., rfl⟩
  rw [he]
  have h2 : (a.bump (FIRN_CNT_CMDS u)).unitTold a u [0x200, 0x214, 0x64, 0x68] := Block.unitTold_bump _ _ (k := 0x200) (by decide)
  have h2' : (a.bump (FIRN_CNT_CMDS u)).firn = a.firn := Block.bump_firn ..
  obtain ⟨b, hb⟩ : ∃ b, b = a.bump (FIRN_CNT_CMDS u) := ⟨_, rfl⟩
  rw [← hb] at h2 h2' ⊢
  have h3 : (b.wf (FIRN_HOST_STATUS u) 15 0 st).unitTold b u [0x200, 0x214, 0x64, 0x68] := Block.unitTold_wf _ _ _ _ (k := 0x64) (by decide)
  have h3' : (b.wf (FIRN_HOST_STATUS u) 15 0 st).firn = b.firn := rfl
  have h4 := (Block.fld_wf_same b (FIRN_HOST_STATUS u) (lo := 0) (hi := 15) st (by omega) (by omega)).trans (Nat.mod_eq_of_lt hst)
  obtain ⟨c, hc⟩ : ∃ c, c = b.wf (FIRN_HOST_STATUS u) 15 0 st := ⟨_, rfl⟩
  rw [← hc] at h3 h3' h4 ⊢
  refine ⟨(Block.unitTold_wr _ _ (k := 0x68) (by decide)).trans (h3.trans (h2.trans h1.1)), h3'.trans (h2'.trans h1.2), ?_, Block.rg_wr_same ..⟩
  have hne : FIRN_HOST_STATUS u ≠ FIRN_HOST_LAST_SEQ u := FIRN_ne (by omega)
  rw [Block.fld, Block.rg_wr_other _ _ hne]
  exact h4

/-! ### The end of a command of the host -/

/-- A unit whose command has left it. -/
def FirnUnit.ended (x : FirnUnit) (discard : Bool) : FirnUnit :=
  { x with running := none, plist := [], regs := [], acc := [], stats := [], loops := [], stream := [], wait := none, parked := false,
           writeQ := if discard then x.writeQ else x.writeQ ++ x.ownQ, ownQ := [] }

/-- A command of the host that ends is answered, and its unit is IDLE. -/
theorem Block.firnEnd_host {s : Block} {u st : Nat} {d : Bool} {w : Cmd} (hr : (s.fu u).running = some (.cmd .host w)) (hst : st < 65536) :
    (s.firnEnd u st d).unitTold s u [8, 0x200, 0x214, 0x64, 0x68] ∧ (s.firnEnd u st d).firnAnswered u w st ∧
    (s.firnEnd u st d).firnState u = 2 ∧ (s.firnEnd u st d).fu u = (s.fu u).ended d := by
  have he : s.firnEnd u st d = (((s.setFu u ((s.fu u).ended d)).setFirnState u 2).ledLand (firnLedger u) 1).firnReport u (.cmd .host w) st := by
    unfold Block.firnEnd
    rw [hr]
    rfl
  rw [he]
  have a1 := s.fu_setFu_same u ((s.fu u).ended d)
  have a2 := s.unitTold_setFu u ((s.fu u).ended d) [8, 0x200, 0x214, 0x64, 0x68]
  obtain ⟨a, ha⟩ : ∃ a, a = s.setFu u ((s.fu u).ended d) := ⟨_, rfl⟩
  rw [← ha] at a1 a2 ⊢
  have b1 := a.firnState_setFirnState u (v := 2) (by omega)
  have b2 : (a.setFirnState u 2).unitTold a u [8, 0x200, 0x214, 0x64, 0x68] := Block.unitTold_wf _ _ _ _ (k := 8) (by decide)
  have b3 : (a.setFirnState u 2).firn = a.firn := rfl
  obtain ⟨b, hb⟩ : ∃ b, b = a.setFirnState u 2 := ⟨_, rfl⟩
  rw [← hb] at b1 b2 b3 ⊢
  have c1 : (b.ledLand (firnLedger u) 1).firn = b.firn := Block.led1_firn ..
  have c2 : (b.ledLand (firnLedger u) 1).unitTold b u [8, 0x200, 0x214, 0x64, 0x68] := Block.unitTold_led1 ..
  have c3 : (b.ledLand (firnLedger u) 1).firnState u = b.firnState u := Block.firnState_congr (Block.rg_led1_FIRN _ _ _ u 8)
  obtain ⟨c, hc⟩ : ∃ c, c = b.ledLand (firnLedger u) 1 := ⟨_, rfl⟩
  rw [← hc] at c1 c2 c3 ⊢
  obtain ⟨d1, d2, d3, d4⟩ := Block.firnReport_host (s := c) (u := u) (w := w) hst
  have hfu : (c.firnReport u (.cmd .host w) st).fu u = (s.fu u).ended d :=
    (Block.fu_congr d2 u).trans ((Block.fu_congr c1 u).trans ((Block.fu_congr b3 u).trans a1))
  refine ⟨?_, ⟨congrArg FirnUnit.running hfu, d3, d4⟩, ?_, hfu⟩
  · refine Block.unitTold.trans ⟨d1.others, fun k hk => d1.regs k fun h => hk ?_⟩ (c2.trans (b2.trans a2))
    exact List.mem_cons_of_mem _ h
  · exact (Block.firnState_congr (d1.regs 8 (by decide))).trans (c3.trans b1)

/-! ### Commands that change units alone -/

/-- A command leaves the units and the registers that its effect leaves. -/
theorem onBlk_units (f : Block → Block) (s : State) : ∃ t : State, onBlk f s = .next t ∧ t.pending = s.pending ∧
    (∀ v, t.blk.fu v = (f s.blk).fu v) ∧ ∀ a, t.blk.rg a = (f s.blk).rg a := by
  obtain ⟨t, hx, hp, ht⟩ := onBlk_lasting_next f s
  exact ⟨t, hx, hp, fun v => ht ▸ Block.fu_congr (Block.lasting_firn ..) v, fun a => ht ▸ Block.rg_lasting ..⟩

theorem firnHostGo_spec (s : State) (u : Nat) (v : Word) (hu : u < 4096) (hv : v.bit 0 = true) (hon : s.blk.unitOn u = true)
    (hroom : s.blk.firnRoom u = true) :
    ∃ t : State, exec (.firnHostGo u v) s = .next t ∧ t.pending = s.pending ∧
      t.blk.fu u = { s.blk.fu u with queue :=
        (s.blk.fu u).queue ++ [.cmd .host (Cmd.ofWords ((List.range 8).map fun i => s.blk.rg (FIRN_HOST_CMD u i)))] } ∧
      (∀ w, w ≠ u → t.blk.fu w = s.blk.fu w) ∧ t.blk.firnState u = s.blk.firnState u := by
  have hx : exec (.firnHostGo u v) s = onBlk (effFirnHostGo u v) s := rfl
  obtain ⟨w, hw⟩ : ∃ w, w = Cmd.ofWords ((List.range 8).map fun i => s.blk.rg (FIRN_HOST_CMD u i)) := ⟨_, rfl⟩
  have he : effFirnHostGo u v s.blk =
      (s.blk.modFu u fun x => { x with queue := x.queue ++ [.cmd .host w] }).ledTake (firnLedger u) 1 := by
    unfold effFirnHostGo
    rw [if_pos ⟨hv, hu⟩]
    simp only [hon, hroom, Bool.not_true, Bool.and_false, Bool.false_eq_true, if_false, ← hw]
    rw [Block.firnPushEntry, hon]
    rfl
  obtain ⟨t, ht, hp, hfu, hrg⟩ := onBlk_units (effFirnHostGo u v) s
  rw [he] at hfu hrg
  rw [← hw]
  have h1 := s.blk.fu_modFu_same u fun x => { x with queue := x.queue ++ [.cmd .host w] }
  have h2 := fun {v} (h : v ≠ u) => s.blk.fu_modFu_other (fun x => { x with queue := x.queue ++ [.cmd .host w] }) h
  have h3 : (s.blk.modFu u fun x => { x with queue := x.queue ++ [.cmd .host w] }).firnState u = s.blk.firnState u := rfl
  obtain ⟨b, hb⟩ : ∃ b, b = s.blk.modFu u fun x => { x with queue := x.queue ++ [.cmd .host w] } := ⟨_, rfl⟩
  rw [← hb] at hfu hrg h1 h2 h3
  have h4 : (b.ledTake (firnLedger u) 1).firn = b.firn := Block.led1_firn ..
  exact ⟨t, hx.trans ht, hp, (hfu u).trans ((Block.fu_congr h4 u).trans h1),
    fun v hv => (hfu v).trans ((Block.fu_congr h4 v).trans (h2 hv)),
    (Block.firnState_congr ((hrg _).trans (Block.rg_led1_FIRN _ _ _ u 8))).trans h3⟩

/-- A unit that takes a command to run. -/
def FirnUnit.started (x : FirnUnit) (e : FirnEntry) (l : List Word) (now : Nat) : FirnUnit :=
  { x with queue := x.queue.drop 1, running := some e, pc := e.words.f 2 25 16, plist := l,
           regs := tset 0 (tset 0 (tset 0 [] 1 e.words.w5) 2 e.words.w6) 3 (w32 (e.words.f 4 11 0)), acc := [], stats := [], loops := [],
           stream := [], streamed := 0, ownQ := [], wait := none, parked := false, began := now }

theorem FirnUnit.started_reg (x : FirnUnit) (e : FirnEntry) (l : List Word) (now : Nat) : (x.started e l now).reg 1 = e.words.w5 ∧
    (x.started e l now).reg 2 = e.words.w6 ∧ (x.started e l now).reg 3 = w32 (e.words.f 4 11 0) := by
  unfold FirnUnit.reg FirnUnit.started
  refine ⟨?_, ?_, ?_⟩
  · rw [if_neg (by omega), tget_tset_other _ _ _ _ (by omega), tget_tset_other _ _ _ _ (by omega), tget_tset_same]
  · rw [if_neg (by omega), tget_tset_other _ _ _ _ (by omega), tget_tset_same]
  · rw [if_neg (by omega), tget_tset_same]

theorem Block.firnStart_spec (s : Block) (u : Nat) (e : FirnEntry) (l : List Word) :
    (s.firnStart u e l).unitTold s u [8, 0x10] ∧ (s.firnStart u e l).fu u = (s.fu u).started e l s.now ∧
    (s.firnStart u e l).firnState u = 3 ∧ (s.firnStart u e l).rg (FIRN_CUR_SEQ u) = e.words.w1 ∧
    (s.firnStart u e l).firnSet u = s.firnSet u := by
  have he : s.firnStart u e l =
    (((s.setFu u ((s.fu u).started e l s.now)).ledSend (firnLedger u) 1).setFirnState u 3).wr (FIRN_CUR_SEQ u) e.words.w1 := rfl
  rw [he]
  have a1 := s.fu_setFu_same u ((s.fu u).started e l s.now)
  have a2 := s.unitTold_setFu u ((s.fu u).started e l s.now) [8, 0x10]
  have a3 : (s.setFu u ((s.fu u).started e l s.now)).firnSet u = s.firnSet u := rfl
  obtain ⟨a, ha⟩ : ∃ a, a = s.setFu u ((s.fu u).started e l s.now) := ⟨_, rfl⟩
  rw [← ha] at a1 a2 a3 ⊢
  have n1 : STK_FIRN_SET (unitStack u) ≠ ICE_DROPPED ∧ STK_FIRN_SET (unitStack u) ≠ LDG_STATUS := by
    have e0 : STK_FIRN_SET (unitStack u) = 0x02000000 + unitStack u * 0x10000 + 0x60 := rfl
    have e1 : ICE_DROPPED = 0x40001C := rfl
    have e2 : LDG_STATUS = 0x500000 := rfl
    omega
  have hset : ∀ {x y : Block}, x.rg (STK_FIRN_SET (unitStack u)) = y.rg (STK_FIRN_SET (unitStack u)) → x.firnSet u = y.firnSet u :=
    fun h => congrArg (Word.fld · (2 * unitGroup u + 1) (2 * unitGroup u)) h
  have b1 : (a.ledSend (firnLedger u) 1).firn = a.firn := Block.led1_firn ..
  have b2 : (a.ledSend (firnLedger u) 1).unitTold a u [8, 0x10] := Block.unitTold_led1 ..
  have b3 : (a.ledSend (firnLedger u) 1).firnSet u = a.firnSet u := hset (Block.rg_led1 _ _ _ n1.1 n1.2)
  obtain ⟨b, hb⟩ : ∃ b, b = a.ledSend (firnLedger u) 1 := ⟨_, rfl⟩
  rw [← hb] at b1 b2 b3 ⊢
  have c1 : (b.setFirnState u 3).firn = b.firn := rfl
  have c2 : (b.setFirnState u 3).unitTold b u [8, 0x10] := Block.unitTold_wf _ _ _ _ (k := 8) (by decide)
  have c3 : (b.setFirnState u 3).firnSet u = b.firnSet u := hset (Block.rg_setFirnState _ _ (FIRN_ne_STK (by omega) (by omega)))
  have c4 := b.firnState_setFirnState u (v := 3) (by omega)
  obtain ⟨c, hc⟩ : ∃ c, c = b.setFirnState u 3 := ⟨_, rfl⟩
  rw [← hc] at c1 c2 c3 c4 ⊢
  have d1 : (c.wr (FIRN_CUR_SEQ u) e.words.w1).firn = c.firn := rfl
  have d2 : (c.wr (FIRN_CUR_SEQ u) e.words.w1).unitTold c u [8, 0x10] := Block.unitTold_wr _ _ (k := 0x10) (by decide)
  have d3 : (c.wr (FIRN_CUR_SEQ u) e.words.w1).firnSet u = c.firnSet u := hset (Block.rg_wr_other _ _ (FIRN_ne_STK (by omega) (by omega)))
  have d4 : (c.wr (FIRN_CUR_SEQ u) e.words.w1).firnState u = c.firnState u :=
    Block.firnState_congr (Block.rg_wr_other _ _ (FIRN_ne (k := 8) (j := 0x10) (by omega)))
  refine ⟨d2.trans (c2.trans (b2.trans a2)), ?_, d4.trans c4, Block.rg_wr_same .., d3.trans (c3.trans (b3.trans a3))⟩
  exact (Block.fu_congr d1 u).trans ((Block.fu_congr c1 u).trans ((Block.fu_congr b1 u).trans a1))

theorem firnGate_set {s : Block} {u : Nat} {e : FirnEntry} (h : s.firnGate u e = none) : s.firnSet u = 2 := by
  unfold Block.firnGate at h
  by_contra h2
  split at h
  · cases h
  · split at h
    · cases h
    · cases h

theorem firnRunCheck_gate {s : Block} {u : Nat} {e : FirnEntry} {l : List Word} (h : s.firnRunCheck u e = .ok l) : s.firnGate u e = none := by
  unfold Block.firnRunCheck at h
  simp only at h
  split at h
  · cases h
  · assumption

/-- A unit that no yield ends or parks goes on. -/
theorem Block.yieldPoint_goes {s : Block} {u : Nat} (h : s.firnSet u ≠ 3) (hd : (s.fu u).refDebt ≤ 3) : s.yieldPoint u = s := by
  rw [Block.yieldPoint, if_neg h, if_neg (by omega)]

theorem firnRun_spec (s : State) (u : Nat) (w : Cmd) (r : FirnSrc) (l : List Word) (hh : s.blk.firnHead u = some (.cmd r w)) (hop : w.op = 1)
    (hc : s.blk.firnRunCheck u (.cmd r w) = .ok l) (hd : (s.blk.fu u).refDebt ≤ 3) :
    ∃ t : State, exec (.firnRun u) s = .next t ∧ t.pending = s.pending ∧ (t.blk.fu u).running = some (.cmd r w) ∧
      (t.blk.fu u).queue = (s.blk.fu u).queue.drop 1 ∧ (t.blk.fu u).pc = w.f 2 25 16 ∧ (t.blk.fu u).plist = l ∧
      (t.blk.fu u).reg 1 = w.w5 ∧ (t.blk.fu u).reg 2 = w.w6 ∧ (t.blk.fu u).reg 3 = w32 (w.f 4 11 0) ∧
      (t.blk.fu u).acc = [] ∧ (t.blk.fu u).stats = [] ∧ t.blk.firnState u = 3 ∧ t.blk.rg (FIRN_CUR_SEQ u) = w.w1 ∧
      (t.blk.fu u).hold = (s.blk.fu u).hold ∧ ∀ v, v ≠ u → t.blk.fu v = s.blk.fu v := by
  have hx : exec (.firnRun u) s = onBlk (effFirnRun u) s := rfl
  obtain ⟨h1, h2, h3, h4, h5⟩ := s.blk.firnStart_spec u (.cmd r w) l
  have hset : (s.blk.firnStart u (.cmd r w) l).firnSet u ≠ 3 := by
    rw [h5, firnGate_set (firnRunCheck_gate hc)]
    omega
  have he : effFirnRun u s.blk = s.blk.firnStart u (.cmd r w) l := by
    have hy : effFirnRun u s.blk = (s.blk.firnStart u (.cmd r w) l).yieldPoint u := by
      simp [effFirnRun, hh, hop, hc]
    exact hy.trans (Block.yieldPoint_goes hset (by rw [h2]; exact hd))
  obtain ⟨t, ht, hp, hfu, hrg⟩ := onBlk_units (effFirnRun u) s
  rw [he] at hfu hrg
  have hu := (hfu u).trans h2
  obtain ⟨r1, r2, r3⟩ := (s.blk.fu u).started_reg (.cmd r w) l s.blk.now
  refine ⟨t, hx.trans ht, hp, ?_⟩
  rw [hu]
  exact ⟨rfl, rfl, rfl, rfl, r1, r2, r3, rfl, rfl, (Block.firnState_congr (hrg _)).trans h3, (hrg _).trans h4, rfl,
    fun v hv => (hfu v).trans (h1.others v hv)⟩

theorem firnFence_spec (s : State) (u : Nat) (w : Cmd) (r : FirnSrc) (hh : s.blk.firnHead u = some (.cmd r w)) (hop : w.op = 2)
    (hg : s.blk.firnGate u (.cmd r w) = none) :
    ∃ t : State, exec (.firnFence u) s = .next t ∧ t.pending = s.pending ∧ (t.blk.fu u).running = some (.cmd r w) ∧
      (t.blk.fu u).queue = (s.blk.fu u).queue.drop 1 ∧ t.blk.firnState u = 3 ∧ t.blk.rg (FIRN_CUR_SEQ u) = w.w1 ∧
      ∀ v, v ≠ u → t.blk.fu v = s.blk.fu v := by
  have hx : exec (.firnFence u) s = onBlk (effFirnFence u) s := rfl
  obtain ⟨h1, h2, h3, h4, -⟩ := s.blk.firnStart_spec u (.cmd r w) []
  have he : effFirnFence u s.blk = s.blk.firnStart u (.cmd r w) [] := by
    simp [effFirnFence, hh, hop, hg]
  obtain ⟨t, ht, hp, hfu, hrg⟩ := onBlk_units (effFirnFence u) s
  rw [he] at hfu hrg
  refine ⟨t, hx.trans ht, hp, ?_⟩
  rw [(hfu u).trans h2]
  exact ⟨rfl, rfl, (Block.firnState_congr (hrg _)).trans h3, (hrg _).trans h4, fun v hv => (hfu v).trans (h1.others v hv)⟩

/-- A write queue that is empty drains nothing. -/
theorem Block.firnDrain_empty {s : Block} {u : Nat} (n : Nat) (h1 : (s.fu u).writeQ = []) (h2 : (s.fu u).ownQ = []) :
    (s.firnDrain u n).regs = s.regs ∧ ∀ v, (s.firnDrain u n).fu v = s.fu v := by
  have he : s.firnDrain u n = s.modFu u fun x => { x with writeQ := x.writeQ.drop n, ownQ := x.ownQ.drop (n - x.writeQ.length) } := by
    unfold Block.firnDrain
    simp [h1, h2, Block.each]
  rw [he]
  refine ⟨rfl, fun v => ?_⟩
  by_cases hv : v = u
  · subst hv
    rw [Block.fu_modFu_same]
    simp only [h1, h2, List.drop_nil]
    exact congrArg₂ (fun a b => { s.fu v with writeQ := a, ownQ := b }) h1.symm h2.symm
  · exact Block.fu_modFu_other _ _ hv

theorem firnFenceComplete_spec (s : State) (u : Nat) (w : Cmd) (hr : (s.blk.fu u).running = some (.cmd .host w)) (hop : w.op = 2)
    (hn : w.b 0 8 = false) (hq : (s.blk.fu u).writeQ = []) (ho : (s.blk.fu u).ownQ = []) :
    ∃ t : State, exec (.firnFenceComplete u) s = .next t ∧ t.pending = s.pending ∧ t.blk.firnAnswered u w OK ∧
      t.blk.rg (FIRN_HOST_FSEQ u) = w.w1 ∧ t.blk.firnState u = 2 ∧ (t.blk.fu u).queue = (s.blk.fu u).queue ∧
      ∀ v, v ≠ u → t.blk.fu v = s.blk.fu v := by
  have hx : exec (.firnFenceComplete u) s = onBlk (effFirnFenceComplete u) s := rfl
  obtain ⟨b, hb⟩ : ∃ b, b = s.blk.firnDrain u ((s.blk.fu u).writeQ.length + (s.blk.fu u).ownQ.length) := ⟨_, rfl⟩
  have he : effFirnFenceComplete u s.blk = (b.wr (FIRN_HOST_FSEQ u) w.w1).firnEnd u OK false := by
    unfold effFirnFenceComplete
    rw [hr]
    simp [hop, hn, ← hb]
  have hbf : ∀ v, b.fu v = s.blk.fu v := hb ▸ (Block.firnDrain_empty _ hq ho).2
  have c1 : ∀ v, (b.wr (FIRN_HOST_FSEQ u) w.w1).fu v = b.fu v := fun _ => rfl
  have c2 := b.rg_wr_same (FIRN_HOST_FSEQ u) w.w1
  obtain ⟨c, hc⟩ : ∃ c, c = b.wr (FIRN_HOST_FSEQ u) w.w1 := ⟨_, rfl⟩
  rw [← hc] at he c1 c2
  have hcr : (c.fu u).running = some (.cmd .host w) := (congrArg FirnUnit.running ((c1 u).trans (hbf u))).trans hr
  obtain ⟨h1, ⟨a1, a2, a3⟩, h3, h4⟩ := Block.firnEnd_host (st := OK) (d := false) hcr (by decide)
  obtain ⟨t, ht, hp, hfu, hrg⟩ := onBlk_units (effFirnFenceComplete u) s
  rw [he] at hfu hrg
  refine ⟨t, hx.trans ht, hp, ⟨?_, ?_, (hrg _).trans a3⟩, ?_, (Block.firnState_congr (hrg _)).trans h3, ?_, fun v hv => ?_⟩
  · rw [hfu]
    exact a1
  · exact (congrArg (Word.fld · 15 0) (hrg _)).trans a2
  · exact (hrg _).trans ((h1.regs 0x6C (by decide)).trans c2)
  · rw [hfu, h4]
    exact (congrArg FirnUnit.queue ((c1 u).trans (hbf u)) :)
  · exact (hfu v).trans ((h1.others v hv).trans ((c1 v).trans (hbf v)))

/-! ### Broadcasts into HOLD -/

theorem memByte_store_write (m : Store) (a : Nat) (bs : List Byte) (ps : List Bool) :
    (∀ i, i < bs.length → memByte (m.write a bs ps).cells (a + i) = bs.getD i 0) ∧
    ∀ v, (v < a ∨ a + bs.length ≤ v) → memByte (m.write a bs ps).cells v = memByte m.cells v := by
  rw [Store.write_cells]
  exact ⟨fun i hi => memByte_memWrite_inside _ _ _ _ hi, fun v hv => memByte_memWrite_outside _ _ _ _ hv⟩

theorem holdBroadcastApply_spec (s : State) (u ep a : Nat) (r : FirnSrc) (d : List Byte) (hh : s.blk.firnHead u = some (.hold r ep a d []))
    (hg : s.blk.firnGate u (.hold r ep a d []) = none) :
    ∃ t : State, exec (.holdBroadcastApply u) s = .next t ∧ t.pending = s.pending ∧
      (t.blk.fu u).queue = (s.blk.fu u).queue.drop 1 ∧
      (∀ i, i < d.length → memByte (t.blk.fu u).hold.cells (32 * a + i) = d.getD i 0) ∧
      (∀ v, (v < 32 * a ∨ 32 * a + d.length ≤ v) →
        memByte (t.blk.fu u).hold.cells v = memByte (s.blk.fu u).hold.cells v) ∧
      (t.blk.fu u).acc = (s.blk.fu u).acc ∧ ∀ v, v ≠ u → t.blk.fu v = s.blk.fu v := by
  have hx : exec (.holdBroadcastApply u) s = onBlk (effHoldBroadcastApply u) s := rfl
  have he : effHoldBroadcastApply u s.blk =
      (s.blk.modFu u fun x => { x with queue := x.queue.drop 1, hold := x.hold.write (a * 32) d [] }).ledDrop (firnLedger u) 1 := by
    simp [effHoldBroadcastApply, hh, hg]
  obtain ⟨t, ht, hp, hfu, -⟩ := onBlk_units (effHoldBroadcastApply u) s
  rw [he] at hfu
  have h1 := s.blk.fu_modFu_same u fun x => { x with queue := x.queue.drop 1, hold := x.hold.write (a * 32) d [] }
  have h2 := fun {v} (h : v ≠ u) => s.blk.fu_modFu_other (fun x => { x with queue := x.queue.drop 1, hold := x.hold.write (a * 32) d [] }) h
  obtain ⟨b, hb⟩ : ∃ b, b = s.blk.modFu u fun x => { x with queue := x.queue.drop 1, hold := x.hold.write (a * 32) d [] } := ⟨_, rfl⟩
  rw [← hb] at hfu h1 h2
  have h4 : (b.ledDrop (firnLedger u) 1).firn = b.firn := Block.led1_firn ..
  obtain ⟨w1, w2⟩ := memByte_store_write (s.blk.fu u).hold (a * 32) d []
  refine ⟨t, hx.trans ht, hp, ?_⟩
  rw [(hfu u).trans ((Block.fu_congr h4 u).trans h1), Nat.mul_comm 32 a]
  exact ⟨rfl, w1, w2, rfl, fun v hv => (hfu v).trans ((Block.fu_congr h4 v).trans (h2 hv))⟩

/-- Settles O17: queueing, a RUN, a FENCE and its completion, and a broadcast, each of its one unit. -/
theorem firnCommands : Obligations.FirnCommands := by
  unfold Obligations.FirnCommands
  exact ⟨firnHostGo_spec, firnRun_spec, firnFence_spec, firnFenceComplete_spec, holdBroadcastApply_spec⟩

end Sys2Proof.Machine
end

section
/-! The micro-instructions on data: ROW, SCALE, COMMIT and MAC (R130, R131, R133). -/

namespace Sys2Proof.Machine

/-! ### What a micro-instruction leaves beside its unit -/

theorem Block.inUnit.refl (s : Block) (u : Nat) : s.inUnit s u := ⟨fun _ _ => rfl, rfl⟩

theorem Block.inUnit.trans {s t x : Block} {u : Nat} (h : x.inUnit t u) (h' : t.inUnit s u) : x.inUnit s u :=
  ⟨fun v hv => (h.1 v hv).trans (h'.1 v hv),
    (congrArg (fun z : Block => { z with firn := s.firn, regs := s.regs, pwr := { z.pwr with firnUse := s.pwr.firnUse },
                                         freeCtr := s.freeCtr }) h.2 :).trans h'.2⟩

theorem Block.inUnit_setFu (s : Block) (u : Nat) (x : FirnUnit) : (s.setFu u x).inUnit s u := ⟨fun _ hv => Block.fu_setFu_other _ _ hv, rfl⟩

theorem Block.inUnit_modFu (s : Block) (u : Nat) (f : FirnUnit → FirnUnit) : (s.modFu u f).inUnit s u := Block.inUnit_setFu ..

theorem Block.inUnit_wr (s : Block) (u a : Nat) (v : Word) : (s.wr a v).inUnit s u := ⟨fun _ _ => rfl, rfl⟩

theorem Block.inUnit_bumpPair (s : Block) (u a n : Nat) : (s.bumpPair a n).inUnit s u :=
  ⟨fun _ _ => Block.fu_congr (Block.bumpPair_firn ..) _, (s.bumpPair_frame s a n :)⟩

theorem Block.inUnit_spendFirn (s : Block) (u k : Nat) : (s.spendFirn k).inUnit s u := ⟨fun _ _ => rfl, rfl⟩

/-- A command whose effect stays in its unit. -/
theorem onBlk_inUnit {f : Block → Block} {s : State} {b : Block} {u : Nat} (he : f s.blk = b) (h : b.inUnit s.blk u) :
    onBlk f s = .next { s with blk := b } :=
  onBlk_next_of_eq he (congrArg (fun x : Block => x.trust.fuses) h.2 :) (congrArg (fun x : Block => x.ice.perm) h.2 :)

/-! ### A step of a micro-program -/

/-- A unit that takes its next micro-instruction: its tokens are spent, its steps counted, and its program goes on. -/
def Block.stepTaken (s : Block) (u n : Nat) : Block :=
  ((s.spendFirn (u / 256)).bumpPair (FIRN_CNT_STEPS_LO u) n).modFu u FirnUnit.next

theorem Block.stepTaken_stepped (s : Block) (u n : Nat) : (s.stepTaken u n).stepped s u n ∧ (s.stepTaken u n).fu u = (s.fu u).next := by
  unfold Block.stepTaken
  have h1 := s.inUnit_spendFirn u (u / 256)
  have h2 : (s.spendFirn (u / 256)).regs = s.regs := rfl
  have h3 : (s.spendFirn (u / 256)).fu u = s.fu u := rfl
  obtain ⟨a, ha⟩ : ∃ a, a = s.spendFirn (u / 256) := ⟨_, rfl⟩
  rw [← ha] at h1 h2 h3 ⊢
  have h4 := a.inUnit_bumpPair u (FIRN_CNT_STEPS_LO u) n
  have h5 : (a.bumpPair (FIRN_CNT_STEPS_LO u) n).regs = (s.bumpPair (FIRN_CNT_STEPS_LO u) n).regs := by
    simp only [Block.bumpPair, Block.setPair, Block.pair, Block.wr, Block.rg, h2]
  have h6 : (a.bumpPair (FIRN_CNT_STEPS_LO u) n).fu u = a.fu u := Block.fu_congr (Block.bumpPair_firn ..) _
  obtain ⟨b, hb⟩ : ∃ b, b = a.bumpPair (FIRN_CNT_STEPS_LO u) n := ⟨_, rfl⟩
  rw [← hb] at h4 h5 h6 ⊢
  refine ⟨⟨(b.inUnit_modFu u _).trans (h4.trans h1), h5⟩, ?_⟩
  rw [Block.fu_modFu_same, h6, h3]

/-- What an instruction does in a unit without waiting writes. -/
theorem Block.micro_eq {s : Block} {u op : Nat} {i : Dword} (cost : Dword → Nat) (f : Block → Dword → Block) (h : s.executes u op i) :
    s.micro u op cost f = f (s.stepTaken u (cost i)) i := by
  obtain ⟨h1, h2, h3⟩ := h
  have hd : (s.spendFirn (u / 256)).firnDrainSome u = s.spendFirn (u / 256) := by
    have hf : (s.spendFirn (u / 256)).fu u = s.fu u := rfl
    unfold Block.firnDrainSome
    simp [hf, h2, h3]
  unfold Block.micro
  rw [h1]
  simp only [hd]
  rfl

theorem Block.stepped_modFu {s t : Block} {u n : Nat} (f : FirnUnit → FirnUnit) (h : t.stepped s u n) : (t.modFu u f).stepped s u n :=
  ⟨(t.inUnit_modFu u f).trans h.1, h.2⟩

/-- An instruction whose effect stays in its unit and writes no register. -/
theorem exec_stepped {s : State} {u op : Nat} {i : Dword} {cost : Dword → Nat} {f : Block → Dword → Block} {b : Block}
    (h : s.blk.executes u op i) (hf : f (s.blk.stepTaken u (cost i)) i = b) (hb : b.stepped s.blk u (cost i)) :
    ∃ t : State, onBlk (fun b => b.micro u op cost f) s = .next t ∧ t.pending = s.pending ∧ t.blk.stepped s.blk u (cost i) ∧
      t.blk.fu u = b.fu u :=
  ⟨_, onBlk_inUnit (u := u) ((s.blk.micro_eq cost f h).trans hf) hb.1, rfl, hb, rfl⟩

/-- An instruction that changes its unit alone. -/
theorem exec_modFu {s : State} {u op : Nat} {i : Dword} {cost : Dword → Nat} {f : Block → Dword → Block} {g : FirnUnit → FirnUnit}
    (h : s.blk.executes u op i) (hf : f (s.blk.stepTaken u (cost i)) i = (s.blk.stepTaken u (cost i)).modFu u g) :
    ∃ t : State, onBlk (fun b => b.micro u op cost f) s = .next t ∧ t.pending = s.pending ∧ t.blk.stepped s.blk u (cost i) ∧
      t.blk.fu u = g (s.blk.fu u).next := by
  obtain ⟨h1, h2⟩ := s.blk.stepTaken_stepped u (cost i)
  obtain ⟨t, hx, hp, hs, hfu⟩ := exec_stepped h hf (Block.stepped_modFu g h1)
  exact ⟨t, hx, hp, hs, hfu.trans ((Block.fu_modFu_same ..).trans (congrArg g h2))⟩

/-! ### Reading the banks -/

theorem Block.bankRead_congr {s t : Block} {u : Nat} (hp : t.unitPart u = s.unitPart u) (ho : t.objs = s.objs) (hs : t.snow = s.snow)
    (g off : Nat) : t.bankRead u g off = s.bankRead u g off := by
  simp only [Block.bankRead, Block.bankPage, Block.snowOf, Block.objects, Block.page, Block.obj, hp, ho, hs]

theorem Block.stepTaken_rg_STK (s : Block) (u n : Nat) {j : Nat} (hj : j < 0x10000) :
    (s.stepTaken u n).rg (STK (unitStack u) j) = s.rg (STK (unitStack u) j) := by
  have h := (s.stepTaken_stepped u n).1.2
  have h4 : FIRN_CNT_STEPS_LO u + 4 = FIRN u 0x208 := rfl
  refine (Block.rg_of_regs h _).trans (Block.rg_setPair_other _ _ (FIRN_ne_STK (by omega) hj) ?_)
  rw [h4]
  exact FIRN_ne_STK (by omega) hj

/-- What a unit reads of its banks, when it has no writes waiting and no read meets an error. -/
theorem Block.stepTaken_unitRead {s : Block} {u op n : Nat} {i : Dword} (h : s.executes u op i) (g off : Nat) :
    (s.stepTaken u n).unitRead u g off = s.bankRead u g off := by
  obtain ⟨-, h2, h3⟩ := h
  obtain ⟨⟨⟨-, hfr⟩, -⟩, hf⟩ := s.stepTaken_stepped u n
  have hp : (s.stepTaken u n).unitPart u = s.unitPart u := by
    have hg : unitGroup u = u % 16 / 2 := rfl
    have hr : (s.stepTaken u n).rg (STK_PART_CG (unitStack u) (unitGroup u)) = s.rg (STK_PART_CG (unitStack u) (unitGroup u)) :=
      s.stepTaken_rg_STK u n (by omega)
    unfold Block.unitPart Block.cgPart Block.fld
    rw [hr]
  have hn : ((s.stepTaken u n).fu u).writeQ = [] ∧ ((s.stepTaken u n).fu u).ownQ = [] := by
    rw [hf]
    exact ⟨h2, h3⟩
  obtain ⟨b, hb⟩ : ∃ b, b = s.stepTaken u n := ⟨_, rfl⟩
  rw [← hb] at hfr hp hn ⊢
  unfold Block.unitRead
  simp only [hn.1, hn.2, List.append_nil, List.reverse_nil, List.find?_nil]
  exact Block.bankRead_congr hp (congrArg Block.objs hfr :) (congrArg Block.snow hfr :) g off

/-! ### ROW -/

theorem row_eq {s : Block} {u : Nat} {i : Dword} {l : List (Word × Nat)} (h : s.executes u 0x01 i) (hn : s.intact)
    (ht : (s.fu u).targets (mf i 55 44) (mf i 43 40) (mf i 39 36) (mf i 35 24) (mf i 23 12) = some l) (cost : Nat) :
    rowEffect u (s.stepTaken u cost) i =
      (let bs := l.map fun y => ({ page := y.1.fld 11 0, off := y.2, data := (s.bankRead u (y.1.fld 11 0) y.2).1,
                                   poison := (s.bankRead u (y.1.fld 11 0) y.2).2 } : BankUnit)
       if mf i 57 56 = 0 then (s.stepTaken u cost).modFu u fun x => { x with stream := x.stream ++ bs }
       else if (if mf i 57 56 = 1 then 1024 else 128) < mf i 11 2 + mf i 23 12 then (s.stepTaken u cost).firnEnd u (REFUSED 0x63) true
       else if bs.any (·.poison) then (s.stepTaken u cost).firnPoisoned u (bs.find? (·.poison))
       else (s.stepTaken u cost).modFu u fun x =>
         if mf i 57 56 = 1 then { x with hold := x.hold.put (mf i 11 2 * 32) (bs.flatMap (·.data)) }
         else { x with scale := x.scale.put (mf i 11 2 * 32) (bs.flatMap (·.data)) }) := by
  obtain ⟨⟨⟨-, hfr⟩, -⟩, hf⟩ := s.stepTaken_stepped u cost
  have hread := fun g off => Block.stepTaken_unitRead (n := cost) h g off
  obtain ⟨b, hb⟩ : ∃ b, b = s.stepTaken u cost := ⟨_, rfl⟩
  rw [← hb] at hfr hf hread ⊢
  have herr : b.env.dramErrs = [] := (congrArg (fun x : Block => x.env.dramErrs) hfr :).trans hn.1
  have he : b.bankErrors u l = b := by
    unfold Block.bankErrors
    rw [herr]
    rfl
  have ht' : (b.fu u).targets (mf i 55 44) (mf i 43 40) (mf i 39 36) (mf i 35 24) (mf i 23 12) = some l := by
    rw [hf]
    exact ht
  unfold rowEffect
  simp only [ht', he, hread]

theorem Block.repairMet_none {s : Block} (h : s.err.met = []) : s.repairMet = s := by
  unfold Block.repairMet
  rw [h]
  rfl

/-- A ROW after which no error waits for repair. -/
theorem exec_row {s : State} {u : Nat} {i : Dword} {c : Nat} {g : FirnUnit → FirnUnit} (h : s.blk.executes u 0x01 i) (hn : s.blk.intact)
    (hc : 2 + (if mf i 57 56 = 0 then 0 else mf i 23 12) = c)
    (hg : rowEffect u (s.blk.stepTaken u c) i = (s.blk.stepTaken u c).modFu u g) :
    ∃ t : State, exec (.row u) s = .next t ∧ t.pending = s.pending ∧ t.blk.stepped s.blk u c ∧ t.blk.fu u = g (s.blk.fu u).next := by
  obtain ⟨h1, h2⟩ := s.blk.stepTaken_stepped u c
  have hs := Block.stepped_modFu g h1
  have hfu : ((s.blk.stepTaken u c).modFu u g).fu u = g (s.blk.fu u).next := (Block.fu_modFu_same ..).trans (congrArg g h2)
  have hm : (s.blk.micro u 0x01 (fun i => 2 + (if mf i 57 56 = 0 then 0 else mf i 23 12)) (rowEffect u)) =
      (s.blk.stepTaken u c).modFu u g := by
    rw [Block.micro_eq _ _ h, hc, hg]
  have he : effRow u s.blk = ((s.blk.stepTaken u c).modFu u g).repairMet := congrArg Block.repairMet hm
  obtain ⟨b, hb⟩ : ∃ b, b = (s.blk.stepTaken u c).modFu u g := ⟨_, rfl⟩
  rw [← hb] at hs hfu he
  have hmet : b.err.met = [] := (congrArg (fun x : Block => x.err.met) hs.1.2 :).trans hn.2.2.1
  have he := he.trans (Block.repairMet_none hmet)
  exact ⟨_, onBlk_inUnit he hs.1, rfl, hs, hfu⟩

theorem row_stream (s : State) (u : Nat) (i : Dword) (l : List (Word × Nat)) (h : s.blk.executes u 0x01 i) (hn : s.blk.intact)
    (hd : mf i 57 56 = 0) (ht : (s.blk.fu u).targets (mf i 55 44) (mf i 43 40) (mf i 39 36) (mf i 35 24) (mf i 23 12) = some l) :
    ∃ t : State, exec (.row u) s = .next t ∧ t.pending = s.pending ∧ t.blk.stepped s.blk u 2 ∧
      t.blk.fu u = { (s.blk.fu u).next with stream := (s.blk.fu u).stream ++ l.map fun y =>
        { page := y.1.fld 11 0, off := y.2, data := (s.blk.bankRead u (y.1.fld 11 0) y.2).1,
          poison := (s.blk.bankRead u (y.1.fld 11 0) y.2).2 } } := by
  refine exec_row h hn (by rw [if_pos hd]) (g := fun x => { x with stream := x.stream ++ l.map fun y =>
        { page := y.1.fld 11 0, off := y.2, data := (s.blk.bankRead u (y.1.fld 11 0) y.2).1,
          poison := (s.blk.bankRead u (y.1.fld 11 0) y.2).2 } }) ?_
  rw [row_eq h hn ht]
  exact if_pos hd

theorem row_hold (s : State) (u : Nat) (i : Dword) (l : List (Word × Nat)) (h : s.blk.executes u 0x01 i) (hn : s.blk.intact)
    (hd : mf i 57 56 = 1) (ht : (s.blk.fu u).targets (mf i 55 44) (mf i 43 40) (mf i 39 36) (mf i 35 24) (mf i 23 12) = some l)
    (hl : mf i 11 2 + mf i 23 12 ≤ 1024) (hp : (l.any fun y => (s.blk.bankRead u (y.1.fld 11 0) y.2).2) = false) :
    ∃ t : State, exec (.row u) s = .next t ∧ t.pending = s.pending ∧ t.blk.stepped s.blk u (2 + mf i 23 12) ∧
      t.blk.fu u =
        { (s.blk.fu u).next with
          hold := (s.blk.fu u).hold.put (mf i 11 2 * 32) (l.flatMap fun y => (s.blk.bankRead u (y.1.fld 11 0) y.2).1) } := by
  refine exec_row h hn (by rw [hd, if_neg (by omega)])
    (g := fun x => { x with hold := x.hold.put (mf i 11 2 * 32) (l.flatMap fun y => (s.blk.bankRead u (y.1.fld 11 0) y.2).1) }) ?_
  rw [row_eq h hn ht]
  simp [hd, List.any_map, Function.comp_def, hp, List.flatMap_map, Nat.not_lt.mpr hl]

/-! ### Elements of an accumulator set -/

theorem FirnUnit.el_setEl (x : FirnUnit) (a i b j : Nat) (v : Word) :
    (x.setEl a i v).el b j = if b = a ∧ j % 1024 = i % 1024 then v else x.el b j := by
  unfold FirnUnit.el FirnUnit.setEl
  rw [tget_tset _ _ _ _ _ _ (Or.inl rfl)]
  have h1 : i % 1024 < 1024 := Nat.mod_lt _ (by omega)
  have h2 : j % 1024 < 1024 := Nat.mod_lt _ (by omega)
  by_cases h : b = a ∧ j % 1024 = i % 1024
  · rw [if_pos h, if_pos (by rw [h.1, h.2])]
  · rw [if_neg h, if_neg (by omega)]

/-- Elements of a set, from one on, each changed on its own. -/
theorem loop_setEl (x : FirnUnit) (a o n : Nat) (g : Nat → Word → Word) (h : o + n ≤ 1024) :
    (∀ j, j < n → (loop n (fun j x => x.setEl a (o + j) (g j (x.el a (o + j)))) x).el a (o + j) = g j (x.el a (o + j))) ∧
    (∀ b j, (b ≠ a ∨ j % 1024 < o ∨ o + n ≤ j % 1024) → (loop n (fun j x => x.setEl a (o + j) (g j (x.el a (o + j)))) x).el b j = x.el b j) ∧
    { loop n (fun j x => x.setEl a (o + j) (g j (x.el a (o + j)))) x with acc := x.acc } = x := by
  induction n with
  | zero => exact ⟨fun j hj => absurd hj (by omega), fun _ _ _ => rfl, rfl⟩
  | succ n ih =>
    obtain ⟨i1, i2, i3⟩ := ih (by omega)
    have hl : loop (n + 1) (fun j x => x.setEl a (o + j) (g j (x.el a (o + j)))) x =
      (loop n (fun j x => x.setEl a (o + j) (g j (x.el a (o + j)))) x).setEl a (o + n)
        (g n ((loop n (fun j x => x.setEl a (o + j) (g j (x.el a (o + j)))) x).el a (o + n))) := rfl
    rw [hl, i2 a (o + n) (Or.inr (Or.inr (by omega)))]
    refine ⟨fun j hj => ?_, fun b j hb => ?_, i3⟩
    · rw [FirnUnit.el_setEl]
      by_cases hjn : j = n
      · rw [if_pos (by rw [hjn]; exact ⟨rfl, rfl⟩), hjn]
      · rw [if_neg (by omega)]
        exact i1 j (by omega)
    · rw [FirnUnit.el_setEl, if_neg (by omega)]
      exact i2 b j (by omega)

theorem mf_lt (w : Dword) (hi lo : Nat) : mf w hi lo < 2 ^ (hi + 1 - lo) := Nat.mod_lt _ (Nat.two_pow_pos _)

/-! ### SCALE -/

theorem scale_spec (s : State) (u : Nat) (i : Dword) (k : Word) (h : s.blk.executes u 0x18 i)
    (hk : k = (if mf i 56 56 = 0 then w32 (mf i 51 36 * 65536) else (s.blk.fu u).reg (mf i 55 52))) :
    ∃ t : State, exec (.scale u) s = .next t ∧ t.pending = s.pending ∧ t.blk.stepped s.blk u 2 ∧
      (∀ e, e < 1024 → (t.blk.fu u).el (mf i 57 57) e = fMul ((s.blk.fu u).el (mf i 57 57) e) k) ∧
      (∀ e, (t.blk.fu u).el (1 - mf i 57 57) e = (s.blk.fu u).el (1 - mf i 57 57) e) ∧
      { t.blk.fu u with acc := (s.blk.fu u).acc } = (s.blk.fu u).next := by
  have hx : exec (.scale u) s = onBlk (fun b => b.micro u 0x18 (fun _ => 2) (scaleEffect u)) s := rfl
  obtain ⟨t, ht, hp, hs, hfu⟩ := exec_modFu (cost := fun _ => 2) (f := scaleEffect u) h rfl
  have hm : mf i 57 57 < 2 := mf_lt i 57 57
  obtain ⟨a, ha⟩ : ∃ a, a = mf i 57 57 := ⟨_, rfl⟩
  obtain ⟨l1, l2, l3⟩ := loop_setEl (s.blk.fu u).next a 0 1024 (fun _ v => fMul v k) (by omega)
  have hloop : t.blk.fu u = loop 1024 (fun j x => x.setEl a (0 + j) (fMul (x.el a (0 + j)) k)) (s.blk.fu u).next := by
    rw [hfu, hk, ← ha]
    simp only [Nat.zero_add]
    rfl
  rw [← ha] at hm ⊢
  refine ⟨t, hx.trans ht, hp, hs, ?_⟩
  rw [hloop]
  refine ⟨fun e he => ?_, fun e => l2 _ _ (Or.inl (by omega)), l3⟩
  have := l1 e he
  rw [Nat.zero_add] at this
  exact this

/-! ### COMMIT -/

theorem Block.firnDrain_zero (s : Block) (u : Nat) : s.firnDrain u 0 = s.modFu u id := by
  unfold Block.firnDrain
  simp only [List.take_zero, Block.each, List.foldl_nil, List.drop_zero, Nat.zero_sub]
  rfl

theorem commit_spec (s : State) (u : Nat) (i : Dword) (l : List (Word × Nat)) (h : s.blk.executes u 0x20 i)
    (ht : (s.blk.fu u).targets (mf i 54 43) (mf i 42 39) (mf i 38 35) (mf i 34 23) (mf i 22 11) = some l)
    (hw : (l.all fun y => y.1.fld 20 19 == 2) = true) (hl : l.length ≤ 256) :
    ∃ t : State, exec (.commit u) s = .next t ∧ t.pending = s.pending ∧ t.blk.stepped s.blk u (mf i 22 11) ∧
      ∃ bs : List BankUnit, t.blk.fu u = { (s.blk.fu u).next with
          ownQ := bs, stream := (s.blk.fu u).stream.map fun b => (bs.find? fun c => c.page == b.page && c.off == b.off).getD b } ∧
        bs = l.zipIdx.map fun y =>
          { page := y.1.1.fld 11 0, off := y.1.2, data := (s.blk.fu u).unitBytes (mf i 57 56) (mf i 55 55) y.2, poison := false } := by
  have hx : exec (.commit u) s = onBlk (fun b => b.micro u 0x20 (fun i => mf i 22 11) (commitEffect u)) s := rfl
  obtain ⟨bs, hbs⟩ : ∃ bs : List BankUnit, bs = l.zipIdx.map fun y =>
    { page := y.1.1.fld 11 0, off := y.1.2, data := (s.blk.fu u).unitBytes (mf i 57 56) (mf i 55 55) y.2, poison := false } := ⟨_, rfl⟩
  have hlen : bs.length = l.length := by simp [hbs]
  obtain ⟨hne, hq1, hq2⟩ := h
  obtain ⟨-, hf⟩ := s.blk.stepTaken_stepped u (mf i 22 11)
  obtain ⟨hst, -⟩ := s.blk.stepTaken_stepped u (mf i 22 11)
  have heff : commitEffect u (s.blk.stepTaken u (mf i 22 11)) i = ((s.blk.stepTaken u (mf i 22 11)).modFu u fun x =>
      { x with ownQ := x.ownQ ++ bs,
               stream := x.stream.map fun b => (bs.find? fun c => c.page == b.page && c.off == b.off).getD b }).modFu u id := by
    obtain ⟨b, hb⟩ : ∃ b, b = s.blk.stepTaken u (mf i 22 11) := ⟨_, rfl⟩
    rw [← hb] at hf ⊢
    have ht' : (b.fu u).targets (mf i 54 43) (mf i 42 39) (mf i 38 35) (mf i 34 23) (mf i 22 11) = some l := by
      rw [hf]
      exact ht
    have hu' : ∀ k, (b.fu u).unitBytes (mf i 57 56) (mf i 55 55) k = (s.blk.fu u).unitBytes (mf i 57 56) (mf i 55 55) k := by
      rw [hf]
      exact fun _ => rfl
    have hbad : (l.any fun t => t.1.fld 20 19 != 2) = false := by
      rw [List.any_eq_false]
      intro y hy
      have := List.all_eq_true.mp hw y hy
      simp only [beq_iff_eq] at this
      simp [this]
    have hown : (b.fu u).ownQ = [] := by
      rw [hf]
      exact hq2
    have hwr : (b.fu u).writeQ = [] := by
      rw [hf]
      exact hq1
    unfold commitEffect
    simp only [ht', hbad, hu', ← hbs, Bool.false_eq_true, if_false, Block.fu_modFu_same, hown, hwr, List.nil_append, List.length_nil,
      Nat.zero_add, hlen, Nat.sub_eq_zero_of_le hl]
    exact Block.firnDrain_zero ..
  obtain ⟨t, hxt, hp, hs, hfu⟩ := exec_stepped (cost := fun i => mf i 22 11) (f := commitEffect u) ⟨hne, hq1, hq2⟩ heff
    (Block.stepped_modFu _ (Block.stepped_modFu _ hst))
  refine ⟨t, hx.trans hxt, hp, hs, bs, hfu.trans ?_, hbs⟩
  rw [Block.fu_modFu_same, Block.fu_modFu_same, hf]
  have ho : (s.blk.fu u).next.ownQ = [] := hq2
  simp only [id, ho, List.nil_append]
  rfl

/-! ### MAC -/

theorem Store.read_unmarked {m : Store} (h : m.poison = []) (a : Nat) : m.poison.contains a = false := by
  rw [h]
  rfl

theorem MacIn.marked_none {m : MacIn} (h1 : m.x.hold.poison = []) (h2 : m.x.scale.poison = []) (n : Nat) : m.marked false n = false := by
  have hh : ∀ a k, m.x.heldMarked a k = false := by
    intro a k
    unfold FirnUnit.heldMarked
    rw [h1]
    exact List.any_eq_false.mpr fun _ _ => by simp
  have hs : ∀ a k, m.x.scaleMarked a k = false := by
    intro a k
    unfold FirnUnit.scaleMarked
    rw [h2]
    exact List.any_eq_false.mpr fun _ _ => by simp
  unfold MacIn.marked
  simp [hh, hs]

theorem Block.firnDrain_inUnit {s : Block} {u : Nat} (n : Nat) (h1 : (s.fu u).writeQ = []) (h2 : (s.fu u).ownQ = []) :
    (s.firnDrain u n).inUnit s u := by
  have he : s.firnDrain u n = s.modFu u fun x => { x with writeQ := x.writeQ.drop n, ownQ := x.ownQ.drop (n - x.writeQ.length) } := by
    unfold Block.firnDrain
    simp [h1, h2, Block.each]
  rw [he]
  exact Block.inUnit_modFu ..

/-- The stream of a unit without waiting writes moves on. -/
theorem Block.streamOn_spec {s : Block} {u : Nat} (n : Nat) (h1 : (s.fu u).writeQ = []) (h2 : (s.fu u).ownQ = []) :
    (s.streamOn u n).inUnit s u ∧ (s.streamOn u n).fu u = { s.fu u with stream := (s.fu u).stream.drop n, streamed := (s.fu u).streamed + n } := by
  obtain ⟨k, hk⟩ : ∃ k, k = ((s.fu u).streamed + n) / 32 - (s.fu u).streamed / 32 := ⟨_, rfl⟩
  obtain ⟨a, ha⟩ : ∃ a, a = if k = 0 then s else s.firnDrain u ((s.fu u).writeQ.length + (s.fu u).ownQ.length) := ⟨_, rfl⟩
  obtain ⟨b, hb⟩ : ∃ b, b = if (a.choose (2 * k + 1)).1 = 0 then a.drawn else a.drawn.bump (FIRN_CNT_EXT u) (a.choose (2 * k + 1)).1 := ⟨_, rfl⟩
  have he : s.streamOn u n = b.modFu u fun x => { x with stream := x.stream.drop n, streamed := x.streamed + n } := by
    rw [hb, ha, hk]
    rfl
  have h3 : a.inUnit s u ∧ a.fu u = s.fu u := by
    rw [ha]
    split
    · exact ⟨Block.inUnit.refl .., rfl⟩
    · exact ⟨Block.firnDrain_inUnit _ h1 h2, (Block.firnDrain_empty _ h1 h2).2 u⟩
  have hdr : a.drawn.inUnit a u ∧ a.drawn.fu u = a.fu u := ⟨⟨fun _ _ => rfl, rfl⟩, rfl⟩
  have h4 : b.inUnit a u ∧ b.fu u = a.fu u := by
    rw [hb]
    split
    · exact hdr
    · exact ⟨(Block.inUnit_wr _ u _ _).trans hdr.1, (Block.fu_congr (Block.bump_firn ..) u).trans hdr.2⟩
  rw [he]
  refine ⟨(b.inUnit_modFu u _).trans (h4.1.trans h3.1), ?_⟩
  rw [Block.fu_modFu_same, h4.2, h3.2]

/-- What a DOT of one held vector does once its operands are known to be good. -/
def macRow (m : MacIn) (set : Nat) (x : FirnUnit) : FirnUnit :=
  loop m.rows (fun j x => x.setEl set (0 * 128 + (x.reg m.oreg).toNat + j) (m.dot 0 j (x.el set (0 * 128 + (x.reg m.oreg).toNat + j)))) x

theorem loop_congr_kept {α : Type} (p : α → Prop) (f g : Nat → α → α) (hfg : ∀ j x, p x → f j x = g j x) (hp : ∀ j x, p x → p (g j x))
    (n : Nat) {x : α} (hx : p x) : loop n f x = loop n g x ∧ p (loop n g x) := by
  induction n with
  | zero => exact ⟨rfl, hx⟩
  | succ n ih =>
    obtain ⟨h1, h2⟩ := ih
    have hf : loop (n + 1) f x = f n (loop n f x) := rfl
    have hg : loop (n + 1) g x = g n (loop n g x) := rfl
    rw [hf, hg, h1]
    exact ⟨hfg _ _ h2, hp _ _ h2⟩

theorem macRow_spec (m : MacIn) (set : Nat) (x : FirnUnit) (h : (x.reg m.oreg).toNat + m.rows ≤ 1024) :
    (∀ j, j < m.rows → (macRow m set x).el set ((x.reg m.oreg).toNat + j) = m.dot 0 j (x.el set ((x.reg m.oreg).toNat + j))) ∧
    (∀ b e, b ≠ set → (macRow m set x).el b e = x.el b e) ∧ { macRow m set x with acc := x.acc } = x := by
  obtain ⟨o, ho⟩ : ∃ o, o = (x.reg m.oreg).toNat := ⟨_, rfl⟩
  obtain ⟨l1, l2, l3⟩ := loop_setEl x set o m.rows (fun j v => m.dot 0 j v) (ho ▸ h)
  have he : macRow m set x = loop m.rows (fun j x => x.setEl set (o + j) (m.dot 0 j (x.el set (o + j)))) x := by
    refine (loop_congr_kept (fun y => (y.reg m.oreg).toNat = o) _ _ (fun j y hy => ?_) (fun j y hy => ?_) _ ho.symm).1
    · simp only [hy, Nat.zero_mul, Nat.zero_add]
    · exact hy
  rw [← ho, he]
  exact ⟨l1, fun b e hb => l2 b e (Or.inl hb), l3⟩

/-- What a MAC of one held vector reads. -/
def macIn (x : FirnUnit) (i : Dword) : MacIn :=
  { x := x, fmt := mf i 56 53, book := (match x.running with | some e => e.words.w6 | none => 0),
    bytes := (x.stream.take (mf i 52 41)).flatMap (·.data), haddr := mf i 40 31, saddr := mf i 26 20, rlen := mf i 18 9,
    oreg := mf i 8 5, rows := (x.stream.take (mf i 52 41)).length / max 1 (mf i 18 9 * fmtBits (mf i 56 53) / 8),
    region := regionScale ((x.reg (mf i 4 1)).fld 15 0), region1 := mf i 4 1 == 0 }

/-- The unit after its bad codes are counted. -/
def Block.badCounted (s : Block) (u n : Nat) : Block := if n = 0 then s else s.bump (FIRN_CNT_BADCODE u) n

theorem Block.badCounted_spec (s : Block) (u n : Nat) : (s.badCounted u n).inUnit s u ∧ (s.badCounted u n).fu u = s.fu u := by
  unfold Block.badCounted
  split
  · exact ⟨Block.inUnit.refl .., rfl⟩
  · exact ⟨Block.inUnit_wr .., Block.fu_congr (Block.bump_firn ..) u⟩

theorem macEffect_dot {u : Nat} {b : Block} {i : Dword} (ho : mf i 57 57 = 0) (hn : mf i 30 28 = 0) (hc : mf i 19 19 = 0)
    (hl : mf i 52 41 ≤ (b.fu u).stream.length) (hp : (((b.fu u).stream.take (mf i 52 41)).any (·.poison)) = false)
    (hh : (b.fu u).hold.poison = []) (hs : (b.fu u).scale.poison = []) :
    macEffect u b i = ((b.badCounted u (macIn (b.fu u) i).bad).streamOn u (mf i 52 41)).modFu u (macRow (macIn (b.fu u) i) (mf i 27 27)) := by
  have hlen : ((b.fu u).stream.take (mf i 52 41)).length = mf i 52 41 := by rw [List.length_take, Nat.min_eq_left hl]
  have hmk : (macIn (b.fu u) i).marked false 1 = false := MacIn.marked_none hh hs 1
  have hout : (mf i 57 57 == 1) = false := by rw [ho]; rfl
  have hm : ∀ f : FirnUnit → FirnUnit, (∀ x, f x = macRow (macIn (b.fu u) i) (mf i 27 27) x) →
      ((b.badCounted u (macIn (b.fu u) i).bad).streamOn u (mf i 52 41)).modFu u f =
        ((b.badCounted u (macIn (b.fu u) i).bad).streamOn u (mf i 52 41)).modFu u (macRow (macIn (b.fu u) i) (mf i 27 27)) :=
    fun f hf => congrArg _ (funext hf)
  have he : macEffect u b i =
      if ((b.fu u).stream.take (mf i 52 41)).any (·.poison) || (macIn (b.fu u) i).marked (mf i 57 57 == 1) (mf i 30 28 + 1)
      then b.firnPoisoned u (((b.fu u).stream.take (mf i 52 41)).find? (·.poison))
      else if ((b.fu u).stream.take (mf i 52 41)).length < mf i 52 41
        then ((b.badCounted u (macIn (b.fu u) i).bad).streamOn u ((b.fu u).stream.take (mf i 52 41)).length).firnEnd u (REFUSED 0x63) true
      else ((b.badCounted u (macIn (b.fu u) i).bad).streamOn u ((b.fu u).stream.take (mf i 52 41)).length).modFu u fun x =>
        let x := if mf i 19 19 = 1 then { x with acc := x.acc.filter (fun e => e.1 / 1024 != mf i 27 27) } else x
        loop (mf i 30 28 + 1) (fun h x =>
          if mf i 57 57 == 1 then
            loop (mf i 18 9 * 32) (fun d x => x.setEl (mf i 27 27) (h * 128 + d)
              ((macIn (b.fu u) i).outer h d (x.el (mf i 27 27) (h * 128 + d)))) x
          else
            loop (macIn (b.fu u) i).rows (fun j x =>
              let e := h * 128 + (x.reg (macIn (b.fu u) i).oreg).toNat + j
              x.setEl (mf i 27 27) e ((macIn (b.fu u) i).dot h j (x.el (mf i 27 27) e))) x) x := rfl
  rw [he, hp, hout, hn, hmk, hlen, if_neg (by simp), if_neg (by omega)]
  refine hm _ fun x => ?_
  rw [hc]
  rfl

theorem mac_spec (s : State) (u o : Nat) (i : Dword) (x : FirnUnit) (m : MacIn) (h : s.blk.executes u 0x08 i) (hx : s.blk.fu u = x)
    (ho : o = (x.reg (mf i 8 5)).toNat) (hd : mf i 57 57 = 0) (hn : mf i 30 28 = 0) (hc : mf i 19 19 = 0)
    (hl : mf i 52 41 ≤ x.stream.length)
    (hm : m =
        { x := x, fmt := mf i 56 53, book := ((x.running.map FirnEntry.words).getD (Cmd.ofWords [])).w6,
          bytes := (x.stream.take (mf i 52 41)).flatMap (·.data), haddr := mf i 40 31, saddr := mf i 26 20, rlen := mf i 18 9,
          oreg := mf i 8 5, rows := mf i 52 41 / max 1 (mf i 18 9 * fmtBits (mf i 56 53) / 8),
          region := regionScale ((x.reg (mf i 4 1)).fld 15 0), region1 := mf i 4 1 == 0 })
    (hp : ((x.stream.take (mf i 52 41)).any (·.poison)) = false) (hh : x.hold.poison = []) (hs : x.scale.poison = [])
    (hr : o + mf i 52 41 / max 1 (mf i 18 9 * fmtBits (mf i 56 53) / 8) ≤ 1024) :
    ∃ t : State, exec (.mac u) s = .next t ∧ t.pending = s.pending ∧ t.blk.inUnit s.blk u ∧
      (t.blk.fu u).stream = x.stream.drop (mf i 52 41) ∧
      (∀ j, j < mf i 52 41 / max 1 (mf i 18 9 * fmtBits (mf i 56 53) / 8) →
        (t.blk.fu u).el (mf i 27 27) (o + j) = m.dot 0 j (x.el (mf i 27 27) (o + j))) ∧
      (∀ e, (t.blk.fu u).el (1 - mf i 27 27) e = x.el (1 - mf i 27 27) e) ∧ (t.blk.fu u).hold = x.hold ∧ (t.blk.fu u).pc = x.pc + 1 := by
  have hex : exec (.mac u) s = onBlk (fun b => b.micro u 0x08 (fun i => mf i 52 41) (macEffect u)) s := rfl
  obtain ⟨⟨h1, -⟩, h2⟩ := s.blk.stepTaken_stepped u (mf i 52 41)
  have heq := s.blk.micro_eq (fun i => mf i 52 41) (macEffect u) h
  obtain ⟨-, hq1, hq2⟩ := h
  rw [hx] at h2 hq1 hq2
  obtain ⟨b, hb⟩ : ∃ b, b = s.blk.stepTaken u (mf i 52 41) := ⟨_, rfl⟩
  rw [← hb] at h1 h2 heq
  rw [macEffect_dot hd hn hc (by rw [h2]; exact hl) (by rw [h2]; exact hp) (by rw [h2]; exact hh) (by rw [h2]; exact hs)] at heq
  obtain ⟨c1, c2⟩ := b.badCounted_spec u (macIn (b.fu u) i).bad
  obtain ⟨c, hcc⟩ : ∃ c, c = b.badCounted u (macIn (b.fu u) i).bad := ⟨_, rfl⟩
  rw [← hcc] at c1 c2 heq
  obtain ⟨d1, d2⟩ := Block.streamOn_spec (s := c) (u := u) (mf i 52 41) (by rw [c2, h2]; exact hq1) (by rw [c2, h2]; exact hq2)
  obtain ⟨d, hdd⟩ : ∃ d, d = c.streamOn u (mf i 52 41) := ⟨_, rfl⟩
  rw [← hdd] at d1 d2 heq
  have hu := (d.inUnit_modFu u (macRow (macIn (b.fu u) i) (mf i 27 27))).trans (d1.trans (c1.trans h1))
  have hrows : (macIn (b.fu u) i).rows = mf i 52 41 / max 1 (mf i 18 9 * fmtBits (mf i 56 53) / 8) := by
    have e : (macIn (b.fu u) i).rows = ((b.fu u).stream.take (mf i 52 41)).length / max 1 (mf i 18 9 * fmtBits (mf i 56 53) / 8) := rfl
    have e' : x.next.stream = x.stream := rfl
    rw [e, h2, e', List.length_take, Nat.min_eq_left hl]
  have hdot : ∀ j a, (macIn (b.fu u) i).dot 0 j a = m.dot 0 j a := by
    intro j a
    have hbook : (macIn (b.fu u) i).book = m.book := by
      rw [h2, hm]
      have e : (macIn x.next i).book = match x.running with | some e => e.words.w6 | none => 0 := rfl
      rw [e]
      cases x.running
      · rfl
      · rfl
    have hmi : macIn (b.fu u) i = { m with x := b.fu u } := by
      have e : ∀ y : MacIn, y.book = m.book → y.rows = m.rows → { y with book := m.book, rows := m.rows } = y := by
        intro y e1 e2
        rw [← e1, ← e2]
      rw [← e _ hbook (hrows.trans (by rw [hm])), h2, hm]
      rfl
    rw [hmi, h2, ← hx]
    have : m.x = s.blk.fu u := by rw [hm, hx]
    have e2 : ∀ (y : FirnUnit) (m : MacIn), m.x = y → ({ m with x := y.next } : MacIn).dot 0 j a = m.dot 0 j a := by
      intro y m e
      subst e
      rfl
    exact e2 _ m this
  have hreg : (d.fu u).reg (macIn (b.fu u) i).oreg = x.reg (mf i 8 5) := by
    rw [d2, c2, h2]
    rfl
  have hel : ∀ set e, (d.fu u).el set e = x.el set e := by
    intro set e
    rw [d2, c2, h2]
    rfl
  obtain ⟨r1, r2, r3⟩ := macRow_spec (macIn (b.fu u) i) (mf i 27 27) (d.fu u) (by rw [hreg, hrows, ← ho]; exact hr)
  rw [hreg, hrows, ← ho] at r1
  have hm2 : mf i 27 27 < 2 := mf_lt i 27 27
  have hfu : (d.modFu u (macRow (macIn (b.fu u) i) (mf i 27 27))).fu u = macRow (macIn (b.fu u) i) (mf i 27 27) (d.fu u) := Block.fu_modFu_same ..
  have hd2 : d.fu u = { x.next with stream := x.stream.drop (mf i 52 41), streamed := x.streamed + mf i 52 41 } := by
    rw [d2, c2, h2]
    rfl
  refine ⟨_, hex.trans (onBlk_inUnit (u := u) heq hu), rfl, hu, ?_⟩
  simp only [hfu]
  refine ⟨?_, fun j hj => ?_, fun e => (r2 _ _ (by omega)).trans (hel _ _), ?_, ?_⟩
  · exact (congrArg FirnUnit.stream r3 :).trans (congrArg FirnUnit.stream hd2 :)
  · rw [r1 j hj, hdot, hel]
  · exact (congrArg FirnUnit.hold r3 :).trans (congrArg FirnUnit.hold hd2 :)
  · exact (congrArg FirnUnit.pc r3 :).trans (congrArg FirnUnit.pc hd2 :)

/-- Settles O18: each instruction takes its step, and then changes its unit's buffers, statistics or elements alone. -/
theorem firnDataInstructions : Obligations.FirnDataInstructions := by
  unfold Obligations.FirnDataInstructions
  exact ⟨row_stream, row_hold, scale_spec, commit_spec, mac_spec⟩

end Sys2Proof.Machine
end

section
/-! The micro-instructions of control, and what ends a park (R132, R134, R135, R140). -/

namespace Sys2Proof.Machine

/-! ### Statistics and loops -/

theorem rstat_spec (s : State) (u v : Nat) (i : Dword) (h : s.blk.executes u 0x10 i)
    (hv : (s.blk.fu u).valid (mf i 46 43) (mf i 40 29) (mf i 54 47) = some v) :
    ∃ t : State, exec (.rstat u) s = .next t ∧ t.pending = s.pending ∧ t.blk.stepped s.blk u 4 ∧
      t.blk.fu u = (List.range (mf i 57 55 + 1)).foldl (fun x h => x.rstatRow (mf i 42 42) h v (mf i 41 41 == 1)) (s.blk.fu u).next := by
  have hx : exec (.rstat u) s = onBlk (fun b => b.micro u 0x10 (fun _ => 4) (rstatEffect u)) s := rfl
  have hv' : ((s.blk.stepTaken u 4).fu u).valid (mf i 46 43) (mf i 40 29) (mf i 54 47) = some v := by
    rw [(s.blk.stepTaken_stepped u 4).2]
    exact hv
  obtain ⟨t, ht, h'⟩ := exec_modFu (cost := fun _ => 4) (f := rstatEffect u)
    (g := fun x => (List.range (mf i 57 55 + 1)).foldl (fun x h => x.rstatRow (mf i 42 42) h v (mf i 41 41 == 1)) x) h (by
      unfold rstatEffect
      rw [hv'])
  exact ⟨t, hx.trans ht, h'⟩

theorem exp_spec (s : State) (u v : Nat) (i : Dword) (h : s.blk.executes u 0x11 i)
    (hv : (s.blk.fu u).valid (mf i 46 43) (mf i 31 20) (mf i 54 47) = some v) :
    ∃ t : State, exec (.exp u) s = .next t ∧ t.pending = s.pending ∧
      t.blk.stepped s.blk u (2 + ceilDiv ((mf i 57 55 + 1) * mf i 54 47) 64) ∧
      t.blk.fu u = (List.range (mf i 57 55 + 1)).foldl
        (fun x h => x.expRow (mf i 42 42) h v (mf i 54 47) (mf i 41 32)) (s.blk.fu u).next := by
  obtain ⟨cost, hcost⟩ : ∃ cost : Dword → Nat, cost = fun i => 2 + ceilDiv ((mf i 57 55 + 1) * mf i 54 47) 64 := ⟨_, rfl⟩
  have hx : exec (.exp u) s = onBlk (fun b => b.micro u 0x11 cost (expEffect u)) s := by
    rw [hcost]
    rfl
  have hc : 2 + ceilDiv ((mf i 57 55 + 1) * mf i 54 47) 64 = cost i := by rw [hcost]
  have hv' : ((s.blk.stepTaken u (cost i)).fu u).valid (mf i 46 43) (mf i 31 20) (mf i 54 47) = some v := by
    rw [(s.blk.stepTaken_stepped u _).2]
    exact hv
  rw [hc]
  obtain ⟨t, ht, h'⟩ := exec_modFu (cost := cost) (f := expEffect u)
    (g := fun x => (List.range (mf i 57 55 + 1)).foldl (fun x h => x.expRow (mf i 42 42) h v (mf i 54 47) (mf i 41 32)) x) h (by
      unfold expEffect
      rw [hv'])
  exact ⟨t, hx.trans ht, h'⟩

theorem loop_spec (s : State) (u n : Nat) (i : Dword) (h : s.blk.executes u 0x30 i)
    (hn : n = (if mf i 57 57 = 1 then ((s.blk.fu u).reg (mf i 44 41)).toNat else mf i 56 45)) :
    ∃ t : State, exec (.loop u) s = .next t ∧ t.pending = s.pending ∧ t.blk.stepped s.blk u 1 ∧
      t.blk.fu u =
        if n = 0 then { s.blk.fu u with pc := (s.blk.fu u).pc + 1 + mf i 40 31 }
        else
          { (s.blk.fu u).next with
            loops := { first := (s.blk.fu u).pc + 1, last := (s.blk.fu u).pc + mf i 40 31, total := n, iter := 0 } :: (s.blk.fu u).loops } := by
  have hx : exec (.loop u) s = onBlk (fun b => b.micro u 0x30 (fun _ => 1) (loopEffect u)) s := rfl
  obtain ⟨t, ht, hp, hs, hfu⟩ := exec_modFu (cost := fun _ => 1) (f := loopEffect u) h rfl
  refine ⟨t, hx.trans ht, hp, hs, hfu.trans ?_⟩
  have hr : ((s.blk.fu u).next.reg (mf i 44 41)).toNat = ((s.blk.fu u).reg (mf i 44 41)).toNat := rfl
  have hpc : (s.blk.fu u).next.pc + mf i 40 31 - 1 = (s.blk.fu u).pc + mf i 40 31 := by
    have e : (s.blk.fu u).next.pc = (s.blk.fu u).pc + 1 := rfl
    omega
  simp only [hr, ← hn, hpc]
  split
  · rfl
  · rfl

theorem FirnUnit.reg_setReg (x : FirnUnit) (r k : Nat) (v : Word) : (x.setReg r v).reg k = if k = r ∧ r ≠ 0 then v else x.reg k := by
  unfold FirnUnit.setReg
  by_cases hr : r = 0
  · rw [if_pos hr, if_neg (fun h => h.2 hr)]
  · rw [if_neg hr]
    unfold FirnUnit.reg
    dsimp only
    by_cases hk : k = r
    · subst hk
      rw [if_neg hr, if_pos (c := k = k ∧ k ≠ 0) ⟨rfl, hr⟩]
      exact tget_tset_same ..
    · rw [if_neg (c := k = r ∧ r ≠ 0) (fun h => hk h.1), tget_tset_other _ _ _ _ hk]

/-- The two registers that ENDL raises. -/
def FirnUnit.raised (x : FirnUnit) (i : Dword) : FirnUnit :=
  let y := x.setReg (mf i 57 54) (x.reg (mf i 57 54) + wOfInt (signExt 12 (mf i 53 42)))
  y.setReg (mf i 41 38) (y.reg (mf i 41 38) + wOfInt (signExt 12 (mf i 37 26)))

theorem FirnUnit.raised_reg (x : FirnUnit) (i : Dword) (hne : mf i 57 54 ≠ mf i 41 38) (k : Nat) : (x.raised i).reg k = x.reg k +
    if k = 0 then 0 else if k = mf i 57 54 then wOfInt (signExt 12 (mf i 53 42))
    else if k = mf i 41 38 then wOfInt (signExt 12 (mf i 37 26)) else 0 := by
  unfold FirnUnit.raised
  generalize mf i 57 54 = a at hne ⊢
  generalize mf i 41 38 = b at hne ⊢
  simp only [FirnUnit.reg_setReg]
  by_cases h0 : k = 0
  · subst h0
    rw [if_neg (fun h => h.2 h.1.symm), if_neg (fun h => h.2 h.1.symm), if_pos rfl, add_zero]
  · rw [if_neg h0]
    by_cases hb : k = b
    · subst hb
      rw [if_pos ⟨rfl, h0⟩, if_neg (fun h => hne h.1.symm), if_neg (Ne.symm hne), if_pos rfl]
    · rw [if_neg (fun h => hb h.1)]
      by_cases ha : k = a
      · subst ha
        rw [if_pos ⟨rfl, h0⟩, if_pos rfl]
      · rw [if_neg (fun h => ha h.1), if_neg ha, if_neg hb, add_zero]

theorem FirnUnit.setReg_loops (x : FirnUnit) (r : Nat) (v : Word) : (x.setReg r v).loops = x.loops ∧ (x.setReg r v).pc = x.pc := by
  unfold FirnUnit.setReg
  split
  · exact ⟨rfl, rfl⟩
  · exact ⟨rfl, rfl⟩

theorem endl_spec (s : State) (u : Nat) (i : Dword) (l : FirnLoop) (r : List FirnLoop) (h : s.blk.executes u 0x31 i)
    (hl : (s.blk.fu u).loops = l :: r) (hne : mf i 57 54 ≠ mf i 41 38) :
    ∃ t : State, exec (.endl u) s = .next t ∧ t.pending = s.pending ∧ t.blk.stepped s.blk u 1 ∧
      (t.blk.fu u).pc = (if l.iter + 1 < l.total then l.first else (s.blk.fu u).pc + 1) ∧
      (t.blk.fu u).loops = (if l.iter + 1 < l.total then { l with iter := l.iter + 1 } :: r else r) ∧
      ∀ k, (t.blk.fu u).reg k = (s.blk.fu u).reg k + if k = 0 then 0 else
        if k = mf i 57 54 then wOfInt (signExt 12 (mf i 53 42)) else if k = mf i 41 38 then wOfInt (signExt 12 (mf i 37 26)) else 0 := by
  have hx : exec (.endl u) s = onBlk (fun b => b.micro u 0x31 (fun _ => 1) (endlEffect u)) s := rfl
  obtain ⟨t, ht, hp, hs, hfu⟩ := exec_modFu (cost := fun _ => 1) (f := endlEffect u)
    (g := fun x => match (x.raised i).loops with
      | [] => x.raised i
      | l :: rest =>
        if l.iter + 1 < l.total then { x.raised i with pc := l.first, loops := { l with iter := l.iter + 1 } :: rest }
        else { x.raised i with loops := rest }) h rfl
  have hr := (s.blk.fu u).next.raised_reg i hne
  have hlo : ((s.blk.fu u).next.raised i).loops = l :: r ∧ ((s.blk.fu u).next.raised i).pc = (s.blk.fu u).pc + 1 := by
    unfold FirnUnit.raised
    refine ⟨?_, ?_⟩
    · exact ((FirnUnit.setReg_loops _ _ _).1.trans (FirnUnit.setReg_loops _ _ _).1).trans hl
    · exact (FirnUnit.setReg_loops _ _ _).2.trans (FirnUnit.setReg_loops _ _ _).2
  obtain ⟨y, hy⟩ : ∃ y, y = (s.blk.fu u).next.raised i := ⟨_, rfl⟩
  rw [← hy] at hr hlo
  simp only [← hy, hlo.1] at hfu
  refine ⟨t, hx.trans ht, hp, hs, ?_⟩
  rw [hfu]
  split
  · exact ⟨rfl, rfl, hr⟩
  · exact ⟨hlo.2, rfl, hr⟩

/-! ### Yield points and ends -/

theorem Block.stepTaken_firnSet (s : Block) (u n : Nat) : (s.stepTaken u n).firnSet u = s.firnSet u :=
  congrArg (Word.fld · (2 * unitGroup u + 1) (2 * unitGroup u)) (s.stepTaken_rg_STK u n (j := 0x60) (by omega))

theorem yield_goes (s : State) (u : Nat) (i : Dword) (h : s.blk.executes u 0x38 i) (hs : s.blk.firnSet u ≠ 3)
    (hd : (s.blk.fu u).refDebt ≤ 3) :
    ∃ t : State, exec (.yield u) s = .next t ∧ t.pending = s.pending ∧ t.blk.stepped s.blk u 1 ∧ t.blk.fu u = (s.blk.fu u).next := by
  have hx : exec (.yield u) s = onBlk (fun b => b.micro u 0x38 (fun _ => 1) fun s _ => s.yieldPoint u) s := rfl
  obtain ⟨h1, h2⟩ := s.blk.stepTaken_stepped u 1
  have hy : (s.blk.stepTaken u 1).yieldPoint u = s.blk.stepTaken u 1 :=
    Block.yieldPoint_goes (by rw [Block.stepTaken_firnSet]; exact hs) (by rw [h2]; exact hd)
  obtain ⟨t, ht, hp, hst, hfu⟩ := exec_stepped (cost := fun _ => 1) (f := fun s _ => s.yieldPoint u) h hy h1
  exact ⟨t, hx.trans ht, hp, hst, hfu.trans h2⟩

theorem yield_parks (s : State) (u : Nat) (i : Dword) (h : s.blk.executes u 0x38 i) (hs : s.blk.firnSet u ≠ 3)
    (hd : 3 < (s.blk.fu u).refDebt) :
    ∃ t : State, exec (.yield u) s = .next t ∧ t.pending = s.pending ∧ t.blk.inUnit s.blk u ∧
      t.blk.fu u = { (s.blk.fu u).next with parked := true } ∧ t.blk.firnState u = 4 := by
  have hx : exec (.yield u) s = onBlk (fun b => b.micro u 0x38 (fun _ => 1) fun s _ => s.yieldPoint u) s := rfl
  obtain ⟨⟨h1, -⟩, h2⟩ := s.blk.stepTaken_stepped u 1
  have he := s.blk.micro_eq (fun _ => 1) (fun s _ => s.yieldPoint u) h
  have hset := s.blk.stepTaken_firnSet u 1
  obtain ⟨b, hb⟩ : ∃ b, b = s.blk.stepTaken u 1 := ⟨_, rfl⟩
  rw [← hb] at h1 h2 he hset
  have hy : b.yieldPoint u = ((b.modFu u fun x => { x with parked := true }).setFirnState u 4).bump (FIRN_CNT_PARKS u) := by
    have hd' : 3 < (b.fu u).refDebt := by rw [h2]; exact hd
    rw [Block.yieldPoint, if_neg (by rw [hset]; exact hs), if_pos hd']
  have c1 := b.fu_modFu_same u fun x => { x with parked := true }
  have c2 := b.inUnit_modFu u fun x => { x with parked := true }
  obtain ⟨c, hc⟩ : ∃ c, c = b.modFu u fun x => { x with parked := true } := ⟨_, rfl⟩
  rw [← hc] at hy c1 c2
  have d1 := c.firnState_setFirnState u (v := 4) (by omega)
  have d2 : (c.setFirnState u 4).inUnit c u := Block.inUnit_wr ..
  have d3 : (c.setFirnState u 4).firn = c.firn := rfl
  obtain ⟨d, hd'⟩ : ∃ d, d = c.setFirnState u 4 := ⟨_, rfl⟩
  rw [← hd'] at hy d1 d2 d3
  have e1 : (d.bump (FIRN_CNT_PARKS u)).inUnit d u := Block.inUnit_wr ..
  have e2 : (d.bump (FIRN_CNT_PARKS u)).firn = d.firn := Block.bump_firn ..
  have e3 : (d.bump (FIRN_CNT_PARKS u)).firnState u = d.firnState u :=
    Block.firnState_congr (Block.rg_bump_other _ _ (FIRN_ne (k := 8) (j := 0x20C) (by omega)))
  have hu := e1.trans (d2.trans (c2.trans h1))
  refine ⟨_, hx.trans (onBlk_inUnit (he.trans hy) hu), rfl, hu, ?_, e3.trans d1⟩
  rw [show (d.bump (FIRN_CNT_PARKS u)).fu u = c.fu u from (Block.fu_congr e2 u).trans (Block.fu_congr d3 u), c1, h2]

/-- The end of a host's command by its own instruction. -/
theorem exec_micro_ends {s : State} {u op st c : Nat} {i : Dword} {d : Bool} {w : Cmd} {f : Block → Dword → Block}
    (h : s.blk.executes u op i) (hr : (s.blk.fu u).running = some (.cmd .host w)) (hst : st < 65536)
    (hf : f (s.blk.stepTaken u c) i = (s.blk.stepTaken u c).firnEnd u st d) :
    ∃ t : State, onBlk (fun b => b.micro u op (fun _ => c) f) s = .next t ∧ t.pending = s.pending ∧ t.blk.firnAnswered u w st ∧
      t.blk.firnState u = 2 ∧ (t.blk.fu u).queue = (s.blk.fu u).queue ∧ ∀ v, v ≠ u → t.blk.fu v = s.blk.fu v := by
  have he := (s.blk.micro_eq (fun _ => c) f h).trans hf
  obtain ⟨⟨⟨h1, -⟩, -⟩, h2⟩ := s.blk.stepTaken_stepped u c
  obtain ⟨b, hb⟩ : ∃ b, b = s.blk.stepTaken u c := ⟨_, rfl⟩
  rw [← hb] at he h1 h2
  have hr' : (b.fu u).running = some (.cmd .host w) := by rw [h2]; exact hr
  obtain ⟨e1, ⟨a1, a2, a3⟩, e3, e4⟩ := Block.firnEnd_host (st := st) (d := d) hr' hst
  obtain ⟨t, ht, hp, hfu, hrg⟩ := onBlk_units (fun b => b.micro u op (fun _ => c) f) s
  rw [he] at hfu hrg
  refine ⟨t, ht, hp, ⟨?_, (congrArg (Word.fld · 15 0) (hrg _)).trans a2, (hrg _).trans a3⟩, (Block.firnState_congr (hrg _)).trans e3, ?_,
    fun v hv => (hfu v).trans ((e1.others v hv).trans (h1 v hv))⟩
  · rw [hfu]
    exact a1
  · rw [hfu, e4, h2]
    rfl

theorem yield_stops (s : State) (u : Nat) (i : Dword) (w : Cmd) (h : s.blk.executes u 0x38 i) (hs : s.blk.firnSet u = 3)
    (hr : (s.blk.fu u).running = some (.cmd .host w)) :
    ∃ t : State, exec (.yield u) s = .next t ∧ t.pending = s.pending ∧ t.blk.firnAnswered u w (ABORTED 0x6C) ∧
      t.blk.firnState u = 2 ∧ ∀ v, v ≠ u → t.blk.fu v = s.blk.fu v := by
  have hx : exec (.yield u) s = onBlk (fun b => b.micro u 0x38 (fun _ => 1) fun s _ => s.yieldPoint u) s := rfl
  have hy : (s.blk.stepTaken u 1).yieldPoint u = (s.blk.stepTaken u 1).firnEnd u (ABORTED 0x6C) false :=
    if_pos ((s.blk.stepTaken_firnSet u 1).trans hs)
  obtain ⟨t, ht, hp, ha, hst, -, ho⟩ := exec_micro_ends (f := fun s _ => s.yieldPoint u) h hr (by decide) hy
  exact ⟨t, hx.trans ht, hp, ha, hst, ho⟩

theorem fencec_spec (s : State) (u : Nat) (i : Dword) (w : Cmd) (h : s.blk.executes u 0x3C i)
    (hr : (s.blk.fu u).running = some (.cmd .host w)) :
    ∃ t : State, exec (.fencec u) s = .next t ∧ t.pending = s.pending ∧ t.blk.firnAnswered u w OK ∧ t.blk.firnState u = 2 ∧
      (t.blk.fu u).queue = (s.blk.fu u).queue ∧ ∀ v, v ≠ u → t.blk.fu v = s.blk.fu v := by
  have hx : exec (.fencec u) s = onBlk (fun b => b.micro u 0x3C (fun _ => 1) fun s _ => s.firnEnd u OK false) s := rfl
  obtain ⟨t, ht, h'⟩ := exec_micro_ends (c := 1) (f := fun s _ => s.firnEnd u OK false) h hr (by decide) rfl
  exact ⟨t, hx.trans ht, h'⟩

theorem firnParkEnd_spec (s : State) (u : Nat) (h : (s.blk.fu u).parked = true) :
    ∃ t : State, exec (.firnParkEnd u) s = .next t ∧ t.pending = s.pending ∧ t.blk.onlyUnit s.blk u ∧
      t.blk.fu u = { s.blk.fu u with parked := false, refDebt := 0 } ∧
      t.blk.firnState u = (if (s.blk.fu u).wait.isSome then 5 else 3) ∧
      ∀ a, a ≠ FIRN_STATE u → t.blk.rg a = s.blk.rg a := by
  have hx : exec (.firnParkEnd u) s = onBlk (effFirnParkEnd u) s := rfl
  obtain ⟨v, hv⟩ : ∃ v, v = if (s.blk.fu u).wait.isSome then 5 else 3 := ⟨_, rfl⟩
  have hv8 : v < 8 := by rw [hv]; split <;> omega
  have he : effFirnParkEnd u s.blk = (s.blk.modFu u fun x => { x with parked := false, refDebt := 0 }).setFirnState u v :=
    hv ▸ if_pos h
  have c1 := s.blk.fu_modFu_same u fun x => { x with parked := false, refDebt := 0 }
  have c2 := s.blk.inUnit_modFu u fun x => { x with parked := false, refDebt := 0 }
  have c3 : { s.blk.modFu u fun x => { x with parked := false, refDebt := 0 } with firn := s.blk.firn, regs := s.blk.regs } = s.blk := rfl
  have c4 : ∀ a, (s.blk.modFu u fun x => { x with parked := false, refDebt := 0 }).rg a = s.blk.rg a := fun _ => rfl
  obtain ⟨c, hc⟩ : ∃ c, c = s.blk.modFu u fun x => { x with parked := false, refDebt := 0 } := ⟨_, rfl⟩
  rw [← hc] at he c1 c2 c3 c4
  have d1 := c.firnState_setFirnState u hv8
  have d2 : (c.setFirnState u v).inUnit c u := Block.inUnit_wr ..
  have d3 : ∀ a, a ≠ FIRN_STATE u → (c.setFirnState u v).rg a = c.rg a := fun a ha => Block.rg_setFirnState _ _ ha
  have d4 : { c.setFirnState u v with regs := s.blk.regs } = { c with regs := s.blk.regs } := rfl
  have d5 : (c.setFirnState u v).firn = c.firn := rfl
  have hu := d2.trans c2
  refine ⟨_, hx.trans (onBlk_inUnit he hu), rfl, ⟨hu.1, ?_⟩, (Block.fu_congr d5 u).trans c1, d1.trans hv,
    fun a ha => (d3 a ha).trans (c4 a)⟩
  exact (congrArg (fun x : Block => { x with firn := s.blk.firn }) d4 :).trans c3

/-- Settles O19: statistics, loops, yields, the end of a program and the end of a park. -/
theorem firnControlInstructions : Obligations.FirnControlInstructions := by
  unfold Obligations.FirnControlInstructions
  exact ⟨rstat_spec, exp_spec, loop_spec, endl_spec, yield_goes, yield_parks, yield_stops, fun s u i w h hr _ => fencec_spec s u i w h hr,
    firnParkEnd_spec⟩

end Sys2Proof.Machine
end

section
/-! The chain and the bus: sides that wait, meet and time out (R142, R143). -/

namespace Sys2Proof.Machine

/-! ### A side that waits -/

theorem Block.firnWait_spec {s : Block} {u v : Nat} (r : Rendezvous) (hv : s.unitOn v = true) (hs : s.firnSet u ≠ 3)
    (hd : (s.fu u).refDebt ≤ 3) :
    (s.firnWait u r (some v)).inUnit s u ∧ (s.firnWait u r (some v)).firnState u = 5 ∧
    (s.firnWait u r (some v)).fu u = { s.fu u with wait := some r } := by
  have he : s.firnWait u r (some v) = ((s.modFu u fun x => { x with wait := some r }).setFirnState u 5).yieldPoint u := by
    unfold Block.firnWait
    simp [hv]
  have c1 := s.fu_modFu_same u fun x => { x with wait := some r }
  have c2 := s.inUnit_modFu u fun x => { x with wait := some r }
  have c3 : (s.modFu u fun x => { x with wait := some r }).firnSet u = s.firnSet u := rfl
  obtain ⟨c, hc⟩ : ∃ c, c = s.modFu u fun x => { x with wait := some r } := ⟨_, rfl⟩
  rw [← hc] at he c1 c2 c3
  have d1 := c.firnState_setFirnState u (v := 5) (by omega)
  have d2 : (c.setFirnState u 5).inUnit c u := Block.inUnit_wr ..
  have d3 : (c.setFirnState u 5).fu u = c.fu u := rfl
  have d4 : (c.setFirnState u 5).firnSet u = c.firnSet u := congrArg (Word.fld · (2 * unitGroup u + 1) (2 * unitGroup u))
    (Block.rg_setFirnState _ _ (FIRN_ne_STK (by omega) (by omega)))
  obtain ⟨d, hdd⟩ : ∃ d, d = c.setFirnState u 5 := ⟨_, rfl⟩
  rw [← hdd] at he d1 d2 d3 d4
  have hy : d.yieldPoint u = d := Block.yieldPoint_goes (by rw [d4, c3]; exact hs) (by rw [d3, c1]; exact hd)
  rw [he, hy]
  exact ⟨d2.trans c2, d1, d3.trans c1⟩

theorem Block.stepTaken_unitOn (s : Block) (u n v : Nat) : (s.stepTaken u n).unitOn v = s.unitOn v := by
  have h := (s.stepTaken_stepped u n).1.2
  have e : ∀ u k, FIRN u k = 0x04000000 + u * 0x1000 + k := fun _ _ => rfl
  have e0 : FIRN_ID v = FIRN v 0 := rfl
  have e1 : FIRN_CNT_STEPS_LO u = FIRN u 0x204 := rfl
  have hr : (s.stepTaken u n).rg (FIRN_ID v) = s.rg (FIRN_ID v) := by
    refine (Block.rg_of_regs h _).trans (Block.rg_setPair_other _ _ ?_ ?_)
    · rw [e0, e1, e, e]
      omega
    · rw [e0, e1, e, e]
      omega
  exact congrArg (Word.bit · 12) hr

/-- An instruction by which a unit waits for a partner in service. -/
theorem exec_waits {s : State} {u v op : Nat} {i : Dword} {cost : Dword → Nat} {f : Block → Dword → Block} (r : Rendezvous)
    (h : s.blk.executes u op i) (hf : ∀ b : Block, f b i = b.firnWait u r (some v)) (hv : s.blk.unitOn v = true)
    (hs : s.blk.firnSet u ≠ 3) (hd : (s.blk.fu u).refDebt ≤ 3) :
    ∃ t : State, onBlk (fun b => b.micro u op cost f) s = .next t ∧ t.pending = s.pending ∧ t.blk.inUnit s.blk u ∧
      t.blk.firnState u = 5 ∧ (t.blk.fu u).wait = some r ∧ { t.blk.fu u with wait := (s.blk.fu u).wait } = (s.blk.fu u).next := by
  have he := (s.blk.micro_eq cost f h).trans (hf _)
  obtain ⟨⟨h1, -⟩, h2⟩ := s.blk.stepTaken_stepped u (cost i)
  have hset := s.blk.stepTaken_firnSet u (cost i)
  have hon := s.blk.stepTaken_unitOn u (cost i) v
  obtain ⟨b, hb⟩ : ∃ b, b = s.blk.stepTaken u (cost i) := ⟨_, rfl⟩
  rw [← hb] at he h1 h2 hset hon
  obtain ⟨w1, w2, w3⟩ := Block.firnWait_spec (s := b) (u := u) r (hon.trans hv) (by rw [hset]; exact hs) (by rw [h2]; exact hd)
  refine ⟨_, onBlk_inUnit (u := u) he (w1.trans h1), rfl, w1.trans h1, w2, congrArg FirnUnit.wait w3, ?_⟩
  refine (congrArg (fun x : FirnUnit => { x with wait := (s.blk.fu u).wait }) (w3.trans (by rw [h2])) :).trans ?_
  rfl

theorem chain_waits (s : State) (u v : Nat) (i : Dword) (send : Bool) (h : s.blk.executes u (if send then 0x28 else 0x29) i)
    (hp : chainPeer u (mf i 57 56) = some v) (hv : s.blk.unitOn v = true) (hs : s.blk.firnSet u ≠ 3) (hd : (s.blk.fu u).refDebt ≤ 3) :
    ∃ t : State, exec (if send then .csend u else .crecv u) s = .next t ∧ t.pending = s.pending ∧ t.blk.inUnit s.blk u ∧
      t.blk.firnState u = 5 ∧ (t.blk.fu u).wait = some
        { bus := false, dirOrPeer := mf i 57 56, send := send, kind := mf i 55 54, acc := mf i 53 53 == 1, addr := mf i 52 43,
          len := mf i 42 31 } ∧ { t.blk.fu u with wait := (s.blk.fu u).wait } = (s.blk.fu u).next := by
  obtain ⟨cost, hcost⟩ : ∃ cost : Dword → Nat, cost = fun i => ceilDiv (5 * mf i 42 31) 4 := ⟨_, rfl⟩
  have hx : exec (if send then .csend u else .crecv u) s =
      onBlk (fun b => b.micro u (if send then 0x28 else 0x29) cost (chainEffect send u)) s := by
    rw [hcost]
    cases send
    · rfl
    · rfl
  obtain ⟨t, ht, h'⟩ := exec_waits (cost := cost) _ h (f := chainEffect send u) (fun b => by rw [chainEffect, hp]) hv hs hd
  exact ⟨t, hx.trans ht, h'⟩

theorem bus_waits (s : State) (u : Nat) (i : Dword) (send : Bool) (h : s.blk.executes u (if send then 0x2C else 0x2D) i)
    (hv : s.blk.unitOn (busPeer u (mf i 57 50)) = true) (hs : s.blk.firnSet u ≠ 3) (hd : (s.blk.fu u).refDebt ≤ 3) :
    ∃ t : State, exec (if send then .bsend u else .brecv u) s = .next t ∧ t.pending = s.pending ∧ t.blk.inUnit s.blk u ∧
      t.blk.firnState u = 5 ∧ (t.blk.fu u).wait = some
        { bus := true, dirOrPeer := mf i 57 50, send := send, kind := mf i 49 48, acc := mf i 47 47 == 1, addr := mf i 46 37,
          len := mf i 36 25 } ∧ { t.blk.fu u with wait := (s.blk.fu u).wait } = (s.blk.fu u).next := by
  obtain ⟨cost, hcost⟩ : ∃ cost : Dword → Nat, cost = fun i => ceilDiv (5 * mf i 36 25) 8 := ⟨_, rfl⟩
  have hx : exec (if send then .bsend u else .brecv u) s =
      onBlk (fun b => b.micro u (if send then 0x2C else 0x2D) cost (busEffect send u)) s := by
    rw [hcost]
    cases send
    · rfl
    · rfl
  obtain ⟨t, ht, h'⟩ := exec_waits (cost := cost) _ h (f := busEffect send u) (fun b => by rw [busEffect]) hv hs hd
  exact ⟨t, hx.trans ht, h'⟩

/-! ### Two sides that meet -/

theorem chainPeer_near {u v dir : Nat} (h : chainPeer u dir = some v) : u < v + 0x1000 ∧ v < u + 0x1000 := by
  unfold chainPeer at h
  simp only at h
  split at h
  all_goals
    simp only [Option.ite_none_right_eq_some, Option.some.injEq] at h
    omega

theorem busPeer_near {u v a b : Nat} (h : busPeer u a = v) (h' : busPeer v b = u) : u < v + 0x1000 ∧ v < u + 0x1000 := by
  have e : u / 256 * 256 + a = v := h
  have e' : v / 256 * 256 + b = u := h'
  omega

/-- Units that wait for each other lie in one stack, near each other. -/
theorem Block.partner_near {s : Block} {u v : Nat} {a b : Rendezvous} (h : s.partner u = some (a, v, b)) : u < v + 0x1000 ∧ v < u + 0x1000 := by
  unfold Block.partner at h
  split at h
  · cases h
  rename_i a' _
  split at h
  · cases h
  rename_i v' hv
  split at h
  · cases h
  rename_i b' _
  split at h
  swap
  · cases h
  rename_i hm
  simp only [Option.some.injEq, Prod.mk.injEq] at h
  obtain ⟨rfl, rfl, rfl⟩ := h
  simp only [meets, Bool.and_eq_true, beq_iff_eq, bne_iff_ne] at hm
  obtain ⟨⟨⟨⟨⟨⟨hb, -⟩, -⟩, hp⟩, -⟩, -⟩, -⟩ := hm
  unfold Rendezvous.peer at hv hp
  by_cases hbus : a'.bus = true
  · rw [if_pos hbus] at hv
    rw [if_pos (hb ▸ hbus)] at hp
    exact busPeer_near (Option.some.inj hv) (Option.some.inj hp)
  · rw [if_neg hbus] at hv
    exact chainPeer_near hv

/-! ### What a transfer keeps -/

theorem FirnUnit.setEl_refDebt (x : FirnUnit) (a i : Nat) (v : Word) : (x.setEl a i v).refDebt = x.refDebt := rfl

/-- One row of a merge, of sets of `n` columns. -/
def mergeRow (n : Nat) (y : FirnUnit) (sx sy : Nat) (x : FirnUnit) (h : Nat) : FirnUnit :=
  let a := x.stat h
  let b := y.stat h
  if b.isEmpty then x
  else if a.isEmpty then
    (loop n (fun j x => x.setEl sx (h * 128 + j) (y.el sy (h * 128 + j))) x).setStat h b
  else
    let m := fMax a.m b.m
    let ea := fExp (fSub a.m m)
    let eb := fExp (fSub b.m m)
    (loop n (fun j x =>
      x.setEl sx (h * 128 + j) (fAdd (fMul (x.el sx (h * 128 + j)) ea) (fMul (y.el sy (h * 128 + j)) eb))) x).setStat h
      { m := m, l := fAdd (fMul a.l ea) (fMul b.l eb) }

theorem FirnUnit.merge_eq (x y : FirnUnit) (sx sy : Nat) : x.merge y sx sy = (List.range 8).foldl (mergeRow 128 y sx sy) x := rfl

theorem FirnUnit.setStat_refDebt (x : FirnUnit) (h : Nat) (v : RowStat) : (x.setStat h v).refDebt = x.refDebt := rfl

theorem loop_refDebt (n : Nat) (f : Nat → FirnUnit → FirnUnit) (h : ∀ i x, (f i x).refDebt = x.refDebt) (x : FirnUnit) :
    (loop n f x).refDebt = x.refDebt := loop_keeps FirnUnit.refDebt f h n x

theorem mergeRow_refDebt (n : Nat) (y : FirnUnit) (sx sy : Nat) (x : FirnUnit) (h : Nat) : (mergeRow n y sx sy x h).refDebt = x.refDebt := by
  unfold mergeRow
  extract_lets a b m ea eb
  split
  · rfl
  · split
    · refine (FirnUnit.setStat_refDebt ..).trans (loop_refDebt _ _ (fun _ _ => ?_) _)
      rfl
    · refine (FirnUnit.setStat_refDebt ..).trans (loop_refDebt _ _ (fun _ _ => ?_) _)
      rfl

theorem FirnUnit.merge_refDebt (x y : FirnUnit) (a b : Nat) : (x.merge y a b).refDebt = x.refDebt := by
  rw [FirnUnit.merge_eq]
  exact foldl_keeps FirnUnit.refDebt _ (fun x h => mergeRow_refDebt 128 y a b x h) _ _

theorem transfer_refDebt (x y : FirnUnit) (a b : Rendezvous) : (transfer x a y b).refDebt = y.refDebt := by
  unfold transfer
  split
  · exact FirnUnit.merge_refDebt ..
  · extract_lets bytes marks
    split
    · refine loop_keeps FirnUnit.refDebt _ (fun _ _ => ?_) _ _
      rfl
    · refine loop_keeps FirnUnit.refDebt _ (fun _ _ => ?_) _ _
      rfl

/-- A side that goes on after its transfer. -/
theorem Block.firnResume_spec {s : Block} {u : Nat} (hs : s.firnSet u ≠ 3) (hd : (s.fu u).refDebt ≤ 3) :
    (s.firnResume u).fu u = { s.fu u with wait := none } ∧ (∀ w, w ≠ u → (s.firnResume u).fu w = s.fu w) ∧
    (s.firnResume u).firnState u = 3 ∧ (∀ a, a ≠ FIRN_STATE u → (s.firnResume u).rg a = s.rg a) ∧
    ∀ t : Block, { s.firnResume u with firn := t.firn, regs := t.regs } = { s with firn := t.firn, regs := t.regs } := by
  have he : s.firnResume u = ((s.modFu u fun x => { x with wait := none }).setFirnState u 3).yieldPoint u := rfl
  have c1 := s.fu_modFu_same u fun x => { x with wait := none }
  have c2 : ∀ w, w ≠ u → (s.modFu u fun x => { x with wait := none }).fu w = s.fu w := fun w hw => Block.fu_modFu_other _ _ hw
  have c3 : ∀ a, (s.modFu u fun x => { x with wait := none }).rg a = s.rg a := fun _ => rfl
  have c4 : ∀ t : Block, { s.modFu u (fun x => { x with wait := none }) with firn := t.firn, regs := t.regs } =
      { s with firn := t.firn, regs := t.regs } := fun _ => rfl
  obtain ⟨c, hc⟩ : ∃ c, c = s.modFu u fun x => { x with wait := none } := ⟨_, rfl⟩
  rw [← hc] at he c1 c2 c3 c4
  have d1 := c.firnState_setFirnState u (v := 3) (by omega)
  have d2 : ∀ w, (c.setFirnState u 3).fu w = c.fu w := fun _ => rfl
  have d3 : ∀ a, a ≠ FIRN_STATE u → (c.setFirnState u 3).rg a = c.rg a := fun a ha => Block.rg_setFirnState _ _ ha
  have d4 : ∀ t : Block, { c.setFirnState u 3 with firn := t.firn, regs := t.regs } = { c with firn := t.firn, regs := t.regs } := fun _ => rfl
  obtain ⟨d, hdd⟩ : ∃ d, d = c.setFirnState u 3 := ⟨_, rfl⟩
  rw [← hdd] at he d1 d2 d3 d4
  have hset : d.firnSet u = s.firnSet u := congrArg (Word.fld · (2 * unitGroup u + 1) (2 * unitGroup u))
    ((d3 (STK_FIRN_SET (unitStack u)) (FIRN_ne_STK (by omega) (by omega))).trans (c3 _))
  have hy : d.yieldPoint u = d := Block.yieldPoint_goes (by rw [hset]; exact hs) (by rw [d2, c1]; exact hd)
  rw [he, hy]
  exact ⟨(d2 u).trans c1, fun w hw => (d2 w).trans (c2 w hw), d1, fun a ha => (d3 a ha).trans (c3 a), fun t => (d4 t).trans (c4 t)⟩

theorem FIRN_STATE_ne {u v : Nat} (h : u ≠ v) : FIRN_STATE u ≠ FIRN_STATE v := FIRN_ne_unit h (by omega) (by omega)

theorem chainRendezvous_spec (s : State) (u v : Nat) (a b : Rendezvous) (h : s.blk.partner u = some (a, v, b)) (hne : v ≠ u)
    (hsend : a.send = true) (hlen : a.len = b.len) (hkind : a.kind = 2 ↔ b.kind = 2) (hs : s.blk.firnSet u ≠ 3) (hs' : s.blk.firnSet v ≠ 3)
    (hd : (s.blk.fu u).refDebt ≤ 3) (hd' : (s.blk.fu v).refDebt ≤ 3) :
    ∃ t : State, exec (.chainRendezvous u) s = .next t ∧ t.pending = s.pending ∧ t.blk.firnState u = 3 ∧ t.blk.firnState v = 3 ∧
      t.blk.fu u = { s.blk.fu u with wait := none } ∧
      t.blk.fu v = { transfer (s.blk.fu u) a (s.blk.fu v) b with wait := none } ∧
      (∀ w, w ≠ u → w ≠ v → t.blk.fu w = s.blk.fu w) ∧ { t.blk with firn := s.blk.firn, regs := s.blk.regs } = s.blk := by
  have hx : exec (.chainRendezvous u) s = onBlk (effChainRendezvous u) s := rfl
  obtain ⟨hn1, hn2⟩ := Block.partner_near h
  have he : effChainRendezvous u s.blk = ((s.blk.setFu v (transfer (s.blk.fu u) a (s.blk.fu v) b)).firnResume u).firnResume v := by
    have hk : ¬(a.len ≠ b.len ∨ (a.kind = 2) ≠ (b.kind = 2)) := by
      rintro (h1 | h1)
      · exact h1 hlen
      · exact h1 (propext hkind)
    unfold effChainRendezvous
    rw [h]
    simp only [if_neg hk, hsend, if_true]
  have c1 := s.blk.fu_setFu_same v (transfer (s.blk.fu u) a (s.blk.fu v) b)
  have c2 : ∀ w, w ≠ v → (s.blk.setFu v (transfer (s.blk.fu u) a (s.blk.fu v) b)).fu w = s.blk.fu w := fun w hw => Block.fu_setFu_other _ _ hw
  have c3 : ∀ r, (s.blk.setFu v (transfer (s.blk.fu u) a (s.blk.fu v) b)).rg r = s.blk.rg r := fun _ => rfl
  have c4 : { s.blk.setFu v (transfer (s.blk.fu u) a (s.blk.fu v) b) with firn := s.blk.firn, regs := s.blk.regs } = s.blk := rfl
  obtain ⟨c, hc⟩ : ∃ c, c = s.blk.setFu v (transfer (s.blk.fu u) a (s.blk.fu v) b) := ⟨_, rfl⟩
  rw [← hc] at he c1 c2 c3 c4
  have hcs : ∀ w, c.firnSet w = s.blk.firnSet w := fun w => congrArg (Word.fld · (2 * unitGroup w + 1) (2 * unitGroup w)) (c3 _)
  obtain ⟨d1, d2, d3, d4, d5⟩ := Block.firnResume_spec (s := c) (u := u) (by rw [hcs]; exact hs) (by rw [c2 u hne.symm]; exact hd)
  obtain ⟨d, hdd⟩ : ∃ d, d = c.firnResume u := ⟨_, rfl⟩
  rw [← hdd] at he d1 d2 d3 d4 d5
  have hds : d.firnSet v = s.blk.firnSet v := congrArg (Word.fld · (2 * unitGroup v + 1) (2 * unitGroup v))
    ((d4 (STK_FIRN_SET (unitStack v)) (FIRN_ne_STK hn2 (by omega))).trans (c3 _))
  have hdd' : (d.fu v).refDebt ≤ 3 := by
    rw [d2 v hne, c1, transfer_refDebt]
    exact hd'
  obtain ⟨e1, e2, e3, e4, e5⟩ := Block.firnResume_spec (s := d) (u := v) (by rw [hds]; exact hs') hdd'
  obtain ⟨e, hee⟩ : ∃ e, e = d.firnResume v := ⟨_, rfl⟩
  rw [← hee] at he e1 e2 e3 e4 e5
  have hfr : { e with firn := s.blk.firn, regs := s.blk.regs } = s.blk := (e5 s.blk).trans ((d5 s.blk).trans c4)
  refine ⟨_, hx.trans (onBlk_next_of_eq he (congrArg (fun x : Block => x.trust.fuses) hfr :) (congrArg (fun x : Block => x.ice.perm) hfr :)),
    rfl, (Block.firnState_congr (e4 _ (FIRN_STATE_ne hne.symm))).trans d3, e3, ?_, ?_, fun w hu hv => ?_, hfr⟩
  · rw [show e.fu u = d.fu u from e2 u hne.symm, d1, c2 u hne.symm]
  · rw [show e.fu v = { d.fu v with wait := none } from e1, d2 v hne, c1]
  · exact (e2 w hv).trans ((d2 w hu).trans (c2 w hv))

/-! ### A side without a partner -/

/-- A command of the host that ends and is counted as timed out. -/
theorem exec_timesOut {f : Block → Block} {s : State} {u st : Nat} {d : Bool} {w : Cmd} (hr : (s.blk.fu u).running = some (.cmd .host w))
    (hst : st < 65536) (hf : f s.blk = (s.blk.bump (FIRN_CNT_TIMEOUT u)).firnEnd u st d) :
    ∃ t : State, onBlk f s = .next t ∧ t.pending = s.pending ∧ t.blk.firnAnswered u w st ∧ t.blk.firnState u = 2 ∧ (t.blk.fu u).wait = none ∧
      (t.blk.rg (FIRN_CNT_TIMEOUT u)).toNat = min 0xFFFFFFFF ((s.blk.rg (FIRN_CNT_TIMEOUT u)).toNat + 1) ∧
      ∀ v, v ≠ u → t.blk.fu v = s.blk.fu v := by
  have b1 := s.blk.rg_bump_same (FIRN_CNT_TIMEOUT u) 1
  have b2 : ∀ v, (s.blk.bump (FIRN_CNT_TIMEOUT u)).fu v = s.blk.fu v := Block.fu_congr (Block.bump_firn ..)
  obtain ⟨b, hb⟩ : ∃ b, b = s.blk.bump (FIRN_CNT_TIMEOUT u) := ⟨_, rfl⟩
  rw [← hb] at hf b1 b2
  obtain ⟨e1, ⟨a1, a2, a3⟩, e3, e4⟩ := Block.firnEnd_host (s := b) (st := st) (d := d) (by rw [b2]; exact hr) hst
  obtain ⟨t, ht, hp, hfu, hrg⟩ := onBlk_units f s
  rw [hf] at hfu hrg
  refine ⟨t, ht, hp, ⟨?_, (congrArg (Word.fld · 15 0) (hrg _)).trans a2, (hrg _).trans a3⟩, (Block.firnState_congr (hrg _)).trans e3, ?_, ?_,
    fun v hv => (hfu v).trans ((e1.others v hv).trans (b2 v))⟩
  · rw [hfu]
    exact a1
  · rw [hfu, e4]
    rfl
  · rw [show t.blk.rg (FIRN_CNT_TIMEOUT u) = b.rg (FIRN_CNT_TIMEOUT u) from (hrg _).trans (e1.regs 0x218 (by decide))]
    exact b1

theorem chainTimeout_spec (s : State) (u : Nat) (w : Cmd) (hw : (s.blk.fu u).wait.isSome = true) (hn : s.blk.partner u = none)
    (hr : (s.blk.fu u).running = some (.cmd .host w)) :
    ∃ t : State, exec (.chainTimeout u) s = .next t ∧ t.pending = s.pending ∧ t.blk.firnAnswered u w (TIMEOUT 0x66) ∧
      t.blk.firnState u = 2 ∧ (t.blk.fu u).wait = none ∧
      (t.blk.rg (FIRN_CNT_TIMEOUT u)).toNat = min 0xFFFFFFFF ((s.blk.rg (FIRN_CNT_TIMEOUT u)).toNat + 1) ∧
      ∀ v, v ≠ u → t.blk.fu v = s.blk.fu v := by
  have hx : exec (.chainTimeout u) s = onBlk (effChainTimeout u) s := rfl
  have he : effChainTimeout u s.blk = (s.blk.bump (FIRN_CNT_TIMEOUT u)).firnEnd u (TIMEOUT 0x66) true :=
    if_pos (by rw [hw, hn]; rfl)
  obtain ⟨t, ht, h⟩ := exec_timesOut hr (by decide) he
  exact ⟨t, hx.trans ht, h⟩

/-- Settles O20: sides wait, two that meet go on with the data moved, and one without a partner ends. -/
theorem firnTransfers : Obligations.FirnTransfers := by
  unfold Obligations.FirnTransfers
  exact ⟨chain_waits, bus_waits, chainRendezvous_spec, chainTimeout_spec⟩

end Sys2Proof.Machine
end

section
/-! Refreshes, time bounds, units out of service, and Firn sets that start and stop (R127, R139 to R147). -/

namespace Sys2Proof.Machine

/-! ### Refreshes and time bounds -/

theorem Block.inSegment_congr {s t : Block} {u : Nat} (hs : t.firnState u = s.firnState u) (hr : (t.fu u).running = (s.fu u).running) :
    t.inSegment u = s.inSegment u := by
  unfold Block.inSegment
  rw [hs, hr]

/-- The unit whose activations are counted and whose rate is marked. -/
def Block.actCounted (s : Block) (u act : Nat) (high : Bool) : Block :=
  (s.modFu u fun x => { x with act := act }).wb (FIRN_STATE u) 12 high

theorem Block.actCounted_spec (s : Block) (u act : Nat) (high : Bool) : (s.actCounted u act high).onlyUnit s u ∧
    (s.actCounted u act high).fu u = { s.fu u with act := act } ∧ (s.actCounted u act high).inSegment u = s.inSegment u := by
  unfold Block.actCounted
  have c1 := s.fu_modFu_same u fun x => { x with act := act }
  have c2 : (s.modFu u fun x => { x with act := act }).onlyUnit s u := ⟨fun v hv => Block.fu_modFu_other _ _ hv, rfl⟩
  have c3 : (s.modFu u fun x => { x with act := act }).firnState u = s.firnState u := rfl
  obtain ⟨c, hc⟩ : ∃ c, c = s.modFu u fun x => { x with act := act } := ⟨_, rfl⟩
  rw [← hc] at c1 c2 c3 ⊢
  have d1 : ∀ v, (c.wb (FIRN_STATE u) 12 high).fu v = c.fu v := fun _ => rfl
  have d2 : { c.wb (FIRN_STATE u) 12 high with firn := s.firn, regs := s.regs } = { c with firn := s.firn, regs := s.regs } := rfl
  have d3 : (c.wb (FIRN_STATE u) 12 high).firnState u = c.firnState u := Block.fld_wf_other _ _ _ _ (by omega) (by omega) (Or.inr (by omega))
  obtain ⟨d, hd⟩ : ∃ d, d = c.wb (FIRN_STATE u) 12 high := ⟨_, rfl⟩
  rw [← hd] at d1 d2 d3 ⊢
  refine ⟨⟨fun v hv => (d1 v).trans (c2.1 v hv), d2.trans c2.2⟩, (d1 u).trans c1, Block.inSegment_congr (d3.trans c3) ?_⟩
  rw [d1, c1]

theorem refreshDue_spec (s : State) (u act : Nat) (hu : u < 4096) :
    ∃ t : State, exec (.refreshDue u act) s = .next t ∧ t.pending = s.pending ∧ t.blk.onlyUnit s.blk u ∧
      t.blk.fu u = { s.blk.fu u with
        act := act, refDebt := if s.blk.inSegment u then min 8 ((s.blk.fu u).refDebt + 1) else (s.blk.fu u).refDebt } := by
  have hx : exec (.refreshDue u act) s = onBlk (effRefreshDue u act) s := rfl
  obtain ⟨high, he⟩ : ∃ high, effRefreshDue u act s.blk = if (s.blk.actCounted u act high).inSegment u
      then (s.blk.actCounted u act high).modFu u fun x => { x with refDebt := min 8 (x.refDebt + 1) } else s.blk.actCounted u act high :=
    ⟨_, if_neg (by omega)⟩
  obtain ⟨c1, c2, c3⟩ := s.blk.actCounted_spec u act high
  obtain ⟨c, hc⟩ : ∃ c, c = s.blk.actCounted u act high := ⟨_, rfl⟩
  rw [← hc] at he c1 c2 c3
  rw [c3] at he
  have hof : ∀ b : Block, b.onlyUnit s.blk u → effRefreshDue u act s.blk = b → onBlk (effRefreshDue u act) s = .next { s with blk := b } :=
    fun b hb h => onBlk_next_of_eq h (congrArg (fun x : Block => x.trust.fuses) hb.2 :) (congrArg (fun x : Block => x.ice.perm) hb.2 :)
  by_cases hi : s.blk.inSegment u = true
  · rw [if_pos hi] at he
    have hb : (c.modFu u fun x => { x with refDebt := min 8 (x.refDebt + 1) }).onlyUnit s.blk u :=
      ⟨fun v hv => (Block.fu_modFu_other _ _ hv).trans (c1.1 v hv), c1.2⟩
    refine ⟨_, hx.trans (hof _ hb he), rfl, hb, ?_⟩
    rw [show (c.modFu u fun x => { x with refDebt := min 8 (x.refDebt + 1) }).fu u = _ from Block.fu_modFu_same .., c2, if_pos hi]
  · rw [if_neg hi] at he
    refine ⟨_, hx.trans (hof _ c1 he), rfl, c1, ?_⟩
    rw [show c.fu u = _ from c2, if_neg hi]

theorem firnCmdTimeout_spec (s : State) (u : Nat) (w : Cmd) (hy : s.blk.atYield u = true) (hr : (s.blk.fu u).running = some (.cmd .host w)) :
    ∃ t : State, exec (.firnCmdTimeout u) s = .next t ∧ t.pending = s.pending ∧ t.blk.firnAnswered u w (TIMEOUT 0x67) ∧
      t.blk.firnState u = 2 ∧ (t.blk.rg (FIRN_CNT_TIMEOUT u)).toNat = min 0xFFFFFFFF ((s.blk.rg (FIRN_CNT_TIMEOUT u)).toNat + 1) ∧
      ∀ v, v ≠ u → t.blk.fu v = s.blk.fu v := by
  have hx : exec (.firnCmdTimeout u) s = onBlk (effFirnCmdTimeout u) s := rfl
  have he : effFirnCmdTimeout u s.blk = (s.blk.bump (FIRN_CNT_TIMEOUT u)).firnEnd u (TIMEOUT 0x67) false := if_pos hy
  obtain ⟨t, ht, hp, h1, h2, -, h3⟩ := exec_timesOut hr (by decide) he
  exact ⟨t, hx.trans ht, hp, h1, h2, h3⟩

/-! ### What a unit holds, with its registers -/

/-- A unit and its registers. -/
structure UnitView where
  unit : FirnUnit
  reg : Nat → Word

/-- What a block holds of a unit. -/
def Block.unitView (s : Block) (u : Nat) : UnitView := { unit := s.fu u, reg := fun k => if k < 0x1000 then s.rg (FIRN u k) else 0 }

theorem Block.unitView_reg (s : Block) (u : Nat) {k : Nat} (h : k < 0x1000) : (s.unitView u).reg k = s.rg (FIRN u k) := if_pos h

/-- A block that differs in one unit and its registers. -/
structure Block.unitOnly (t s : Block) (u : Nat) : Prop where
  others : ∀ v, v ≠ u → t.fu v = s.fu v
  regs : ∀ a, (∀ k, k < 0x1000 → a ≠ FIRN u k) → t.rg a = s.rg a
  rest : { t with firn := s.firn, regs := s.regs } = s

theorem Block.unitOnly.refl (s : Block) (u : Nat) : s.unitOnly s u := ⟨fun _ _ => rfl, fun _ _ => rfl, rfl⟩

theorem Block.unitOnly.trans {s t x : Block} {u : Nat} (h : x.unitOnly t u) (h' : t.unitOnly s u) : x.unitOnly s u :=
  ⟨fun v hv => (h.others v hv).trans (h'.others v hv), fun a ha => (h.regs a ha).trans (h'.regs a ha),
    (congrArg (fun z : Block => { z with firn := s.firn, regs := s.regs }) h.rest :).trans h'.rest⟩

theorem Block.unitOnly_setFu (s : Block) (u : Nat) (x : FirnUnit) : (s.setFu u x).unitOnly s u :=
  ⟨fun _ hv => Block.fu_setFu_other _ _ hv, fun _ _ => rfl, rfl⟩

theorem Block.unitOnly_wf (s : Block) {u k : Nat} (hk : k < 0x1000) (hi lo v : Nat) : (s.wf (FIRN u k) hi lo v).unitOnly s u :=
  ⟨fun _ _ => rfl, fun _ ha => Block.rg_wf_other _ _ _ _ (ha k hk), rfl⟩

theorem Block.unitOnly.view {s t : Block} {u v : Nat} (h : t.unitOnly s u) (hv : v ≠ u) : t.unitView v = s.unitView v := by
  have hr : (fun k => if k < 0x1000 then t.rg (FIRN v k) else 0) = fun k => if k < 0x1000 then s.rg (FIRN v k) else 0 := by
    funext k
    split
    · exact h.regs _ fun j hj => FIRN_ne_unit hv ‹_› hj
    · rfl
  unfold Block.unitView
  rw [h.others v hv, hr]

/-- One command of each of several units. -/
theorem Block.each_units {f : Block → Nat → Block} {p : UnitView → Prop} {r : UnitView → UnitView → Prop}
    (hf : ∀ s u, p (s.unitView u) → r (s.unitView u) ((f s u).unitView u) ∧ (f s u).unitOnly s u) (l : List Nat) (hl : l.Nodup)
    (s : Block) (hp : ∀ u, u ∈ l → p (s.unitView u)) :
    (∀ u, u ∈ l → r (s.unitView u) ((s.each l f).unitView u)) ∧ (∀ u, u ∉ l → (s.each l f).unitView u = s.unitView u) ∧
    (∀ a, (∀ u k, k < 0x1000 → a ≠ FIRN u k) → (s.each l f).rg a = s.rg a) ∧ { s.each l f with firn := s.firn, regs := s.regs } = s := by
  induction l generalizing s with
  | nil => exact ⟨fun u hu => absurd hu List.not_mem_nil, fun _ _ => rfl, fun _ _ => rfl, rfl⟩
  | cons x l ih =>
    obtain ⟨hx, hl'⟩ := List.nodup_cons.mp hl
    obtain ⟨h1, h2⟩ := hf s x (hp x List.mem_cons_self)
    have hne : ∀ u, u ∈ l → u ≠ x := fun u hu e => hx (e ▸ hu)
    obtain ⟨i1, i2, i3, i4⟩ := ih hl' (f s x) fun u hu => by
      rw [h2.view (hne u hu)]
      exact hp u (List.mem_cons_of_mem _ hu)
    have he : s.each (x :: l) f = (f s x).each l f := rfl
    rw [he]
    refine ⟨fun u hu => ?_, fun u hu => ?_, fun a ha => (i3 a ha).trans (h2.regs a fun k hk => ha x k hk), ?_⟩
    · rcases List.mem_cons.mp hu with rfl | hu
      · rw [i2 u hx]
        exact h1
      · rw [← h2.view (hne u hu)]
        exact i1 u hu
    · rw [List.mem_cons, not_or] at hu
      exact (i2 u hu.2).trans (h2.view hu.1)
    · exact (congrArg (fun z : Block => { z with firn := s.firn, regs := s.regs }) i4 :).trans h2.rest

theorem setUnits_nodup (k : Nat) : (setUnits k).Nodup :=
  List.Nodup.filter _ (List.Nodup.map (fun _ _ h => Nat.add_left_cancel h) List.nodup_range)

/-- The register of a Firn set lies below those of the units. -/
theorem STK_ne_FIRN {n j u k : Nat} (hn : n < 0x200) (hj : j < 0x10000) : STK n j ≠ FIRN u k := by
  have e : FIRN u k = 0x04000000 + u * 0x1000 + k := rfl
  have e' : STK n j = 0x02000000 + n * 0x10000 + j := rfl
  omega

theorem setStack_lt {k : Nat} (h : k < 128) : setStack k < 0x200 := by
  have e : setStack k = k / 8 / 4 * 6 + k / 8 % 4 := rfl
  omega

/-- The state of a Firn set written. -/
theorem Block.setSetState_spec (s : Block) {k v : Nat} (hk : k < 128) (hv : v < 4) : (s.setSetState k v).setState k = v ∧
    (∀ u, (s.setSetState k v).unitView u = s.unitView u) ∧
    ∀ t : Block, { s.setSetState k v with firn := t.firn, regs := t.regs } = { s with firn := t.firn, regs := t.regs } := by
  refine ⟨?_, fun u => ?_, fun _ => rfl⟩
  · have h := Block.fld_wf_same s (STK_FIRN_SET (setStack k)) (lo := 2 * (k % 8)) (hi := 2 * (k % 8) + 1) v (by omega) (by omega)
    refine h.trans ?_
    rw [show 2 * (k % 8) + 1 + 1 - 2 * (k % 8) = 2 by omega]
    exact Nat.mod_eq_of_lt hv
  · have hr : ∀ a, a ≠ STK_FIRN_SET (setStack k) → (s.setSetState k v).rg a = s.rg a := fun a ha => Block.rg_wf_other _ _ _ _ ha
    have hr' : (fun j => if j < 0x1000 then (s.setSetState k v).rg (FIRN u j) else 0) = fun j => if j < 0x1000 then s.rg (FIRN u j) else 0 := by
      funext j
      rw [hr _ (STK_ne_FIRN (setStack_lt hk) (by omega)).symm]
    have hf : (s.setSetState k v).fu u = s.fu u := rfl
    unfold Block.unitView
    rw [hf, hr']

/-! ### A set that starts -/

/-- What a unit in service is once its set has started. -/
def freshAfter (x y : UnitView) : Prop :=
  ((x.reg 0).bit 12 = true → (y.reg 8).fld 2 0 = 2 ∧ (y.reg 4).fld 15 0 = nextEpoch ((x.reg 4).fld 15 0) ∧
    y.unit = { FirnUnit.reset with act := x.unit.act })

theorem Block.firnFresh_spec (s : Block) (u : Nat) (hq : (s.unitView u).unit.queue = []) :
    freshAfter (s.unitView u) ((s.firnFresh u).unitView u) ∧ (s.firnFresh u).unitOnly s u := by
  by_cases hon : s.unitOn u = true
  · have he : s.firnFresh u = (((s.setFu u { FirnUnit.reset with act := (s.fu u).act }).wf (FIRN_EPOCH u) 15 0
        (nextEpoch (s.fld (FIRN_EPOCH u) 15 0))).setFirnState u 2).wb (FIRN_STATE u) 3 true := by
      have hq' : (s.fu u).queue.length = 0 := by
        rw [show (s.fu u).queue = [] from hq]
        rfl
      unfold Block.firnFresh
      rw [hon, hq']
      rfl
    rw [he]
    have b1 := s.fu_setFu_same u { FirnUnit.reset with act := (s.fu u).act }
    have b2 := s.unitOnly_setFu u { FirnUnit.reset with act := (s.fu u).act }
    obtain ⟨b, hb⟩ : ∃ b, b = s.setFu u { FirnUnit.reset with act := (s.fu u).act } := ⟨_, rfl⟩
    rw [← hb] at b1 b2 ⊢
    obtain ⟨e, hee⟩ : ∃ e, e = nextEpoch (s.fld (FIRN_EPOCH u) 15 0) := ⟨_, rfl⟩
    have hlt : e < 65536 := hee ▸ nextEpoch_lt (Word.fld_lt _ 15 0)
    rw [← hee]
    have c1 := Block.fld_wf_same b (FIRN_EPOCH u) (lo := 0) (hi := 15) e (by omega) (by omega)
    have c2 : (b.wf (FIRN_EPOCH u) 15 0 e).unitOnly b u := Block.unitOnly_wf _ (by omega) _ _ _
    have c3 : (b.wf (FIRN_EPOCH u) 15 0 e).fu u = b.fu u := rfl
    obtain ⟨c, hc⟩ : ∃ c, c = b.wf (FIRN_EPOCH u) 15 0 e := ⟨_, rfl⟩
    rw [← hc] at c1 c2 c3 ⊢
    have d1 := c.firnState_setFirnState u (v := 2) (by omega)
    have d2 : (c.setFirnState u 2).unitOnly c u := Block.unitOnly_wf _ (by omega) _ _ _
    have d3 : (c.setFirnState u 2).fu u = c.fu u := rfl
    have d4 : (c.setFirnState u 2).rg (FIRN u 4) = c.rg (FIRN u 4) := Block.rg_setFirnState _ _ (FIRN_ne (k := 4) (j := 8) (by omega))
    obtain ⟨d, hd⟩ : ∃ d, d = c.setFirnState u 2 := ⟨_, rfl⟩
    rw [← hd] at d1 d2 d3 d4 ⊢
    have e1 : (d.wb (FIRN_STATE u) 3 true).fld (FIRN_STATE u) 2 0 = d.fld (FIRN_STATE u) 2 0 :=
      Block.fld_wf_other _ _ _ _ (by omega) (by omega) (Or.inr (by omega))
    have e2 : (d.wb (FIRN_STATE u) 3 true).unitOnly d u := Block.unitOnly_wf _ (by omega) _ _ _
    have e3 : (d.wb (FIRN_STATE u) 3 true).fu u = d.fu u := rfl
    have e4 : (d.wb (FIRN_STATE u) 3 true).rg (FIRN u 4) = d.rg (FIRN u 4) := Block.rg_wb_other _ _ _ (FIRN_ne (k := 4) (j := 8) (by omega))
    refine ⟨fun _ => ⟨?_, ?_, e3.trans (d3.trans (c3.trans b1))⟩, e2.trans (d2.trans (c2.trans b2))⟩
    · rw [Block.unitView_reg _ _ (by omega)]
      exact e1.trans d1
    · rw [Block.unitView_reg _ _ (by omega), Block.unitView_reg _ _ (by omega), e4, d4]
      refine c1.trans ((Nat.mod_eq_of_lt hlt).trans hee)
  · have he : s.firnFresh u = s := if_pos (by simp [hon])
    rw [he]
    refine ⟨fun h => absurd ?_ hon, Block.unitOnly.refl ..⟩
    rw [Block.unitView_reg _ _ (by omega)] at h
    exact h

theorem firnSetStartDone_spec (s : State) (k : Nat) (hk : k < 128) (h1 : s.blk.setState k = 1)
    (hq : ∀ u, u ∈ setUnits k → (s.blk.fu u).queue = []) :
    ∃ t : State, exec (.firnSetStartDone k) s = .next t ∧ t.pending = s.pending ∧ t.blk.setState k = 2 ∧
      (∀ u, u ∈ setUnits k → s.blk.unitOn u = true → t.blk.firnState u = 2 ∧
        t.blk.fld (FIRN_EPOCH u) 15 0 = nextEpoch (s.blk.fld (FIRN_EPOCH u) 15 0) ∧
        t.blk.fu u = { FirnUnit.reset with act := (s.blk.fu u).act }) ∧
      (∀ u, u ∉ setUnits k → t.blk.fu u = s.blk.fu u) ∧ { t.blk with firn := s.blk.firn, regs := s.blk.regs } = s.blk := by
  have hx : exec (.firnSetStartDone k) s = onBlk (effFirnSetStartDone k) s := rfl
  have he : effFirnSetStartDone k s.blk = (s.blk.each (setUnits k) fun s u => s.firnFresh u).setSetState k 2 := if_pos ⟨hk, h1⟩
  obtain ⟨e1, e2, -, e4⟩ := Block.each_units (f := fun s u => s.firnFresh u) (p := fun x => x.unit.queue = []) (r := freshAfter)
    (fun s u h => s.firnFresh_spec u h) (setUnits k) (setUnits_nodup k) s.blk hq
  obtain ⟨b, hb⟩ : ∃ b, b = s.blk.each (setUnits k) fun s u => s.firnFresh u := ⟨_, rfl⟩
  rw [← hb] at he e1 e2 e4
  obtain ⟨f1, f2, f3⟩ := b.setSetState_spec hk (v := 2) (by omega)
  obtain ⟨c, hc⟩ : ∃ c, c = b.setSetState k 2 := ⟨_, rfl⟩
  rw [← hc] at he f1 f2 f3
  have hfr : { c with firn := s.blk.firn, regs := s.blk.regs } = s.blk := (f3 s.blk).trans e4
  refine ⟨_, hx.trans (onBlk_next_of_eq he (congrArg (fun x : Block => x.trust.fuses) hfr :) (congrArg (fun x : Block => x.ice.perm) hfr :)),
    rfl, f1, fun u hu hon => ?_, fun u hu => ?_, hfr⟩
  · have hr := e1 u hu
    rw [← f2 u] at hr
    unfold freshAfter at hr
    rw [Block.unitView_reg _ _ (by omega), Block.unitView_reg _ _ (by omega), Block.unitView_reg _ _ (by omega),
      Block.unitView_reg _ _ (by omega)] at hr
    exact hr hon
  · exact congrArg UnitView.unit ((f2 u).trans (e2 u hu))

/-! ### A set that stops -/

/-- A unit at rest. -/
def UnitView.atRest (x : UnitView) : Prop := x.unit.running = none ∧ x.unit.queue = [] ∧ x.unit.writeQ = []

/-- What a unit at rest is once its set has stopped. -/
def stoppedAfter (x y : UnitView) : Prop := y.unit = x.unit ∧ ((x.reg 0).bit 12 = true → (y.reg 8).fld 2 0 = 1)

theorem Block.firnEnd_idle {s : Block} {u : Nat} (st : Nat) (d : Bool) (h : (s.fu u).running = none) : s.firnEnd u st d = s := by
  unfold Block.firnEnd
  rw [h]

theorem Block.firnAbort_idle {s : Block} {u : Nat} (st : Nat) (d : Bool) (h : (s.fu u).running = none) (hq : (s.fu u).queue = []) :
    s.firnAbort u st d = s := by
  unfold Block.firnAbort
  simp only [Block.firnEnd_idle st d h, hq]
  rfl

/-- What becomes of a unit of a set that has stopped. -/
def Block.unitStopped (s : Block) (u : Nat) : Block :=
  let s := s.firnAbort u (ABORTED 0x6C) false
  let s := s.firnDrain u (s.fu u).writeQ.length
  if s.unitOn u then (s.setFirnState u 1).wb (FIRN_STATE u) 3 false else s

theorem Block.unitStopped_spec (s : Block) (u : Nat) (h : (s.unitView u).atRest) :
    stoppedAfter (s.unitView u) ((s.unitStopped u).unitView u) ∧ (s.unitStopped u).unitOnly s u := by
  obtain ⟨h1, h2, h3⟩ := h
  have he : s.unitStopped u = if (s.modFu u id).unitOn u then ((s.modFu u id).setFirnState u 1).wb (FIRN_STATE u) 3 false else s.modFu u id := by
    have e : (s.fu u).writeQ.length = 0 := by
      rw [show (s.fu u).writeQ = [] from h3]
      rfl
    unfold Block.unitStopped
    simp only [Block.firnAbort_idle (ABORTED 0x6C) false h1 h2, e, Block.firnDrain_zero]
  have b1 : (s.modFu u id).fu u = s.fu u := Block.fu_modFu_same ..
  have b2 : (s.modFu u id).unitOnly s u := s.unitOnly_setFu u _
  have b3 : (s.modFu u id).unitOn u = s.unitOn u := rfl
  obtain ⟨b, hb⟩ : ∃ b, b = s.modFu u id := ⟨_, rfl⟩
  rw [← hb] at he b1 b2 b3
  rw [he, b3]
  by_cases hon : s.unitOn u = true
  · rw [if_pos hon]
    have c1 := b.firnState_setFirnState u (v := 1) (by omega)
    have c2 : (b.setFirnState u 1).unitOnly b u := Block.unitOnly_wf _ (by omega) _ _ _
    have c3 : (b.setFirnState u 1).fu u = b.fu u := rfl
    obtain ⟨c, hc⟩ : ∃ c, c = b.setFirnState u 1 := ⟨_, rfl⟩
    rw [← hc] at c1 c2 c3 ⊢
    have d1 : (c.wb (FIRN_STATE u) 3 false).fld (FIRN_STATE u) 2 0 = c.fld (FIRN_STATE u) 2 0 :=
      Block.fld_wf_other _ _ _ _ (by omega) (by omega) (Or.inr (by omega))
    have d2 : (c.wb (FIRN_STATE u) 3 false).unitOnly c u := Block.unitOnly_wf _ (by omega) _ _ _
    have d3 : (c.wb (FIRN_STATE u) 3 false).fu u = c.fu u := rfl
    refine ⟨⟨d3.trans (c3.trans b1), fun _ => ?_⟩, d2.trans (c2.trans b2)⟩
    rw [Block.unitView_reg _ _ (by omega)]
    exact d1.trans c1
  · rw [if_neg hon]
    refine ⟨⟨b1, fun h => absurd ?_ hon⟩, b2⟩
    rw [Block.unitView_reg _ _ (by omega)] at h
    exact h

theorem firnSetStopped_spec (s : State) (k : Nat) (hk : k < 128) (h3 : s.blk.setState k = 3)
    (hr : ∀ u, u ∈ setUnits k → (s.blk.fu u).running = none ∧ (s.blk.fu u).queue = [] ∧ (s.blk.fu u).writeQ = []) :
    ∃ t : State, exec (.firnSetStopped k) s = .next t ∧ t.pending = s.pending ∧ t.blk.setState k = 0 ∧
      (∀ u, u ∈ setUnits k → s.blk.unitOn u = true → t.blk.firnState u = 1) ∧
      (∀ u, t.blk.fu u = s.blk.fu u) ∧ { t.blk with firn := s.blk.firn, regs := s.blk.regs } = s.blk := by
  have hx : exec (.firnSetStopped k) s = onBlk (effFirnSetStopped k) s := rfl
  have hquiet : (setUnits k).all s.blk.firnQuiet = true := by
    rw [List.all_eq_true]
    intro u hu
    obtain ⟨hrun, -⟩ := hr u hu
    unfold Block.firnQuiet Block.inSegment
    rw [hrun]
    simp
  have he : effFirnSetStopped k s.blk = (s.blk.each (setUnits k) fun s u => s.unitStopped u).setSetState k 0 := if_pos ⟨hk, h3, hquiet⟩
  obtain ⟨e1, e2, -, e4⟩ := Block.each_units (f := fun s u => s.unitStopped u) (p := UnitView.atRest) (r := stoppedAfter)
    (fun s u h => s.unitStopped_spec u h) (setUnits k) (setUnits_nodup k) s.blk hr
  obtain ⟨b, hb⟩ : ∃ b, b = s.blk.each (setUnits k) fun s u => s.unitStopped u := ⟨_, rfl⟩
  rw [← hb] at he e1 e2 e4
  obtain ⟨f1, f2, f3⟩ := b.setSetState_spec hk (v := 0) (by omega)
  obtain ⟨c, hc⟩ : ∃ c, c = b.setSetState k 0 := ⟨_, rfl⟩
  rw [← hc] at he f1 f2 f3
  have hfr : { c with firn := s.blk.firn, regs := s.blk.regs } = s.blk := (f3 s.blk).trans e4
  refine ⟨_, hx.trans (onBlk_next_of_eq he (congrArg (fun x : Block => x.trust.fuses) hfr :) (congrArg (fun x : Block => x.ice.perm) hfr :)),
    rfl, f1, fun u hu hon => ?_, fun u => ?_, hfr⟩
  · obtain ⟨-, h⟩ := e1 u hu
    rw [← f2 u, Block.unitView_reg _ _ (by omega), Block.unitView_reg _ _ (by omega)] at h
    exact h hon
  · have hu2 : c.fu u = b.fu u := congrArg UnitView.unit (f2 u)
    by_cases hu : u ∈ setUnits k
    · exact hu2.trans (e1 u hu).1
    · exact hu2.trans (congrArg UnitView.unit (e2 u hu))

/-! ### A unit out of service -/

/-- A unit whose logic is marked as disabled. -/
def Block.unitOut (s : Block) (u : Nat) : Block := ((s.wb (FIRN_ID u) 12 false).setFirnState u 0).wb (FIRN_STATE u) 3 false

theorem Block.unitOut_spec (s : Block) (u : Nat) : (s.unitOut u).firn = s.firn ∧ (s.unitOut u).unitOn u = false ∧ (s.unitOut u).firnState u = 0 ∧
    (∀ v, v ≠ u → (s.unitOut u).unitOn v = s.unitOn v) ∧ (s.unitOut u).objs = s.objs ∧ (s.unitOut u).snow = s.snow := by
  unfold Block.unitOut
  have b2 : (s.wb (FIRN_ID u) 12 false).bit (FIRN_ID u) 12 = false := Block.bit_wb_same _ _ _ (by omega)
  have b3 : ∀ v, v ≠ u → (s.wb (FIRN_ID u) 12 false).rg (FIRN_ID v) = s.rg (FIRN_ID v) := fun v hv =>
    Block.rg_wb_other _ _ _ (FIRN_ne_unit hv (by omega) (by omega))
  have b4 : (s.wb (FIRN_ID u) 12 false).firn = s.firn ∧ (s.wb (FIRN_ID u) 12 false).objs = s.objs ∧
    (s.wb (FIRN_ID u) 12 false).snow = s.snow := ⟨rfl, rfl, rfl⟩
  obtain ⟨b, hb⟩ : ∃ b, b = s.wb (FIRN_ID u) 12 false := ⟨_, rfl⟩
  rw [← hb] at b2 b3 b4 ⊢
  have hid : ∀ v, FIRN_ID v ≠ FIRN_STATE u := by
    intro v
    have e1 : FIRN_ID v = 0x04000000 + v * 0x1000 + 0 := rfl
    have e2 : FIRN_STATE u = 0x04000000 + u * 0x1000 + 8 := rfl
    omega
  have c2 := b.firnState_setFirnState u (v := 0) (by omega)
  have c3 : ∀ v, (b.setFirnState u 0).rg (FIRN_ID v) = b.rg (FIRN_ID v) := fun v => Block.rg_setFirnState _ _ (hid v)
  have c4 : (b.setFirnState u 0).firn = b.firn ∧ (b.setFirnState u 0).objs = b.objs ∧ (b.setFirnState u 0).snow = b.snow := ⟨rfl, rfl, rfl⟩
  obtain ⟨c, hc⟩ : ∃ c, c = b.setFirnState u 0 := ⟨_, rfl⟩
  rw [← hc] at c2 c3 c4 ⊢
  have d2 : (c.wb (FIRN_STATE u) 3 false).firnState u = c.firnState u :=
    Block.fld_wf_other _ _ _ _ (by omega) (by omega) (Or.inr (by omega))
  have d3 : ∀ v, (c.wb (FIRN_STATE u) 3 false).rg (FIRN_ID v) = c.rg (FIRN_ID v) := fun v => Block.rg_wb_other _ _ _ (hid v)
  have d4 : (c.wb (FIRN_STATE u) 3 false).firn = c.firn ∧ (c.wb (FIRN_STATE u) 3 false).objs = c.objs ∧
    (c.wb (FIRN_STATE u) 3 false).snow = c.snow := ⟨rfl, rfl, rfl⟩
  obtain ⟨d, hd⟩ : ∃ d, d = c.wb (FIRN_STATE u) 3 false := ⟨_, rfl⟩
  rw [← hd] at d2 d3 d4 ⊢
  refine ⟨d4.1.trans (c4.1.trans b4.1), (congrArg (Word.bit · 12) ((d3 u).trans (c3 u))).trans b2, d2.trans c2, fun v hv => ?_,
    d4.2.1.trans (c4.2.1.trans b4.2.1), d4.2.2.trans (c4.2.2.trans b4.2.2)⟩
  exact congrArg (Word.bit · 12) ((d3 v).trans ((c3 v).trans (b3 v hv)))

/-- The count of a stack's units, and the entries of their pool, without those of a unit. -/
def Block.unitUncounted (s : Block) (u : Nat) : Block :=
  (s.wf (STK_ID (unitStack u)) 24 16 (s.fld (STK_ID (unitStack u)) 24 16 - 1)).ledShrink (firnLedger u) 8

theorem Block.wf_apart (s : Block) (a hi lo n : Nat) : (s.wf a hi lo n).firn = s.firn ∧ (s.wf a hi lo n).objs = s.objs ∧
    (s.wf a hi lo n).snow = s.snow := ⟨rfl, rfl, rfl⟩

theorem Block.unitUncounted_spec (s : Block) {u : Nat} (hu : u < 4096) : (s.unitUncounted u).firn = s.firn ∧
    (∀ v k, (s.unitUncounted u).rg (FIRN v k) = s.rg (FIRN v k)) ∧ (s.unitUncounted u).objs = s.objs ∧ (s.unitUncounted u).snow = s.snow := by
  have hn : unitStack u < 0x200 := by
    have e : unitStack u = u / 256 / 4 * 6 + u / 256 % 4 := rfl
    omega
  unfold Block.unitUncounted
  generalize s.fld (STK_ID (unitStack u)) 24 16 - 1 = n
  have e3 : ∀ v k, (s.wf (STK_ID (unitStack u)) 24 16 n).rg (FIRN v k) = s.rg (FIRN v k) := fun v k =>
    Block.rg_wf_other _ _ _ _ (STK_ne_FIRN hn (by omega)).symm
  have e4 := s.wf_apart (STK_ID (unitStack u)) 24 16 n
  obtain ⟨e, he⟩ : ∃ e, e = s.wf (STK_ID (unitStack u)) 24 16 n := ⟨_, rfl⟩
  rw [← he] at e3 e4 ⊢
  have f3 : ∀ v k, (e.ledShrink (firnLedger u) 8).rg (FIRN v k) = e.rg (FIRN v k) := fun v k => Block.rg_led1_FIRN e _ _ v k
  exact ⟨(Block.ledShrink_firn ..).trans e4.1, fun v k => (f3 v k).trans (e3 v k), (Block.ledShrink_objs ..).trans e4.2.1,
    (Block.ledShrink_snow ..).trans e4.2.2⟩

/-- A unit at rest, with nothing stored, is disabled. -/
theorem Block.firnDisable_bare {s : Block} {u : Nat} (hu : u < 4096) (hr : (s.fu u).running = none)
    (hq : (s.fu u).queue = []) (hw : (s.fu u).writeQ = []) (ho : s.objs = []) (hs : s.snow = []) :
    s.firnDisable u = (((s.modFu u id).unitOut u).unitUncounted u).setFu u { FirnUnit.reset with act := (s.fu u).act } := by
  have h1 : s.firnAbort u (REFUSED 0x60) true = s := Block.firnAbort_idle _ _ hr hq
  have h2 : s.firnDrain u (s.fu u).writeQ.length = s.modFu u id := by
    rw [hw]
    exact Block.firnDrain_zero ..
  have a1 : (s.modFu u id).fu u = s.fu u := Block.fu_modFu_same ..
  have a2 : (s.modFu u id).objs = s.objs ∧ (s.modFu u id).snow = s.snow := ⟨rfl, rfl⟩
  have he : s.firnDisable u =
      (let f := ((s.modFu u id).unitOut u).unitUncounted u
       let p := (s.modFu u id).unitPart u
       let f := f.each ((f.objects p).live.flatMap fun e => (e.2.pieces.filter fun y => y.2.unit == u).map fun y => (e.1, y.1)) fun s e =>
         s.movePiece p e.1 e.2
       let f := f.each ((f.snowOf p).pages.filter fun e => match e.2.loc with | .compute v _ => v == u | _ => false) fun s e =>
         s.moveKvPage p e.1
       f.setFu u { FirnUnit.reset with act := (f.fu u).act }) := by
    unfold Block.firnDisable
    simp only [h1, h2]
    rfl
  obtain ⟨a, ha⟩ : ∃ a, a = s.modFu u id := ⟨_, rfl⟩
  rw [← ha] at a1 a2 he ⊢
  obtain ⟨b1, -, -, -, b5, b6⟩ := a.unitOut_spec u
  obtain ⟨b, hb⟩ : ∃ b, b = a.unitOut u := ⟨_, rfl⟩
  rw [← hb] at b1 b5 b6 he ⊢
  obtain ⟨c1, -, c3, c4⟩ := b.unitUncounted_spec hu
  obtain ⟨c, hc⟩ : ∃ c, c = b.unitUncounted u := ⟨_, rfl⟩
  rw [← hc] at c1 c3 c4 he ⊢
  have h3 : c.objects (a.unitPart u) = Objects.empty := by
    rw [Block.objects, c3, b5, a2.1, ho]
    rfl
  have h4 : c.snowOf (a.unitPart u) = Snow.empty := by
    rw [Block.snowOf, c4, b6, a2.2, hs]
    rfl
  have h5 : (c.fu u).act = (s.fu u).act := by
    rw [Block.fu_congr c1, Block.fu_congr b1, a1]
  have e1 : Objects.empty.live = [] := rfl
  have e2 : Snow.empty.pages = [] := rfl
  rw [he]
  simp only [h3, e1, List.flatMap_nil, Block.each, List.foldl_nil, h4, e2, List.filter_nil, h5]

theorem firnUnitFail_spec (s : State) (u cause : Nat) (hu : u < 4096) (hon : s.blk.unitOn u = true) (hr : (s.blk.fu u).running = none)
    (hq : (s.blk.fu u).queue = []) (hw : (s.blk.fu u).writeQ = []) (ho : s.blk.objs = []) (hs : s.blk.snow = []) :
    ∃ t : State, exec (.firnUnitFail u cause) s = .next t ∧ t.pending = s.pending ∧ t.blk.unitOn u = false ∧
      t.blk.firnState u = 0 ∧ t.blk.fu u = { FirnUnit.reset with act := (s.blk.fu u).act } ∧
      (∀ v, v ≠ u → t.blk.fu v = s.blk.fu v) ∧ ∀ v, v ≠ u → t.blk.unitOn v = s.blk.unitOn v := by
  have hx : exec (.firnUnitFail u cause) s = onBlk (effFirnUnitFail u cause) s := rfl
  have heff : effFirnUnitFail u cause s.blk = (s.blk.firnDisable u).event srcHealth 0x0505 [w32 u, w32 cause] := if_pos ⟨hu, hon⟩
  rw [Block.firnDisable_bare hu hr hq hw ho hs] at heff
  have a1 : ∀ v, v ≠ u → (s.blk.modFu u id).fu v = s.blk.fu v := fun v hv => Block.fu_modFu_other _ _ hv
  have a2 : ∀ v, (s.blk.modFu u id).unitOn v = s.blk.unitOn v := fun _ => rfl
  obtain ⟨a, ha⟩ : ∃ a, a = s.blk.modFu u id := ⟨_, rfl⟩
  rw [← ha] at a1 a2 heff
  obtain ⟨b1, b2, b3, b4, -, -⟩ := a.unitOut_spec u
  obtain ⟨b, hb⟩ : ∃ b, b = a.unitOut u := ⟨_, rfl⟩
  rw [← hb] at b1 b2 b3 b4 heff
  obtain ⟨c1, c2, -, -⟩ := b.unitUncounted_spec hu
  obtain ⟨c, hc⟩ : ∃ c, c = b.unitUncounted u := ⟨_, rfl⟩
  rw [← hc] at c1 c2 heff
  obtain ⟨x, hxx⟩ : ∃ x : FirnUnit, x = { FirnUnit.reset with act := (s.blk.fu u).act } := ⟨_, rfl⟩
  rw [← hxx] at heff ⊢
  have g1 := c.fu_setFu_same u x
  have g2 : ∀ v, v ≠ u → (c.setFu u x).fu v = c.fu v := fun v hv => Block.fu_setFu_other _ _ hv
  have g3 : ∀ r, (c.setFu u x).rg r = c.rg r := fun _ => rfl
  obtain ⟨g, hg⟩ : ∃ g, g = c.setFu u x := ⟨_, rfl⟩
  rw [← hg] at heff g1 g2 g3
  have h1 : ∀ v, (g.event srcHealth 0x0505 [w32 u, w32 cause]).fu v = g.fu v := Block.fu_congr (Block.event_firn ..)
  have h3 : ∀ v k, (g.event srcHealth 0x0505 [w32 u, w32 cause]).rg (FIRN v k) = g.rg (FIRN v k) := fun v k =>
    Block.rg_event _ _ _ _ (FIRN_ne_drops v k).1
  obtain ⟨t, ht, hp, hfu, hrg⟩ := onBlk_units (effFirnUnitFail u cause) s
  rw [heff] at hfu hrg
  have hte : ∀ v k, t.blk.rg (FIRN v k) = b.rg (FIRN v k) := fun v k => (hrg _).trans ((h3 v k).trans ((g3 _).trans (c2 v k)))
  have hon' : ∀ v, t.blk.unitOn v = b.unitOn v := fun v => congrArg (Word.bit · 12) (hte v 0)
  refine ⟨t, hx.trans ht, hp, (hon' u).trans b2, (Block.firnState_congr (hte u 8)).trans b3, (hfu u).trans ((h1 u).trans g1), fun v hv => ?_,
    fun v hv => (hon' v).trans ((b4 v hv).trans (a2 v))⟩
  exact (hfu v).trans ((h1 v).trans ((g2 v hv).trans ((Block.fu_congr c1 v).trans ((Block.fu_congr b1 v).trans (a1 v hv)))))

/-- Settles O21: refreshes and time bounds, units that fail, and sets that start and stop, unit by unit. -/
theorem firnService : Obligations.FirnService := by
  unfold Obligations.FirnService
  exact ⟨refreshDue_spec, firnCmdTimeout_spec, firnUnitFail_spec, firnSetStartDone_spec, firnSetStopped_spec⟩

end Sys2Proof.Machine
end

section
/-! PART_DESTROY and the numbers of partitions (R310): the statement on partitions and clients fails, as its premises leave the number
of the partition without a bound. -/

namespace Sys2Proof.Machine

/-! ### The state -/

/-- A partition number whose SCH_P_STATE address is that of the status in the PF's reply: 31 is the last number that PART_CREATE gives
(R308), and the statement's clause on PART_DESTROY does not bound the number. -/
def statusPart : Nat := 16383768

theorem statusPart_register : SCH_P_STATE statusPart = chBack (.fn 0 0) + 4 := rfl

/-- The partition: one die, no group. -/
def barePart : Part := { dies := 0, die := 0, clusters := 0, groups := 0, runPages := 0, busyFrac := [] }

/-- A module that has the partition under that number. -/
def oddModule : Block :=
  let b := State.reset.blk
  let b : Block := { b with fw := { b.fw with loaded := true }, start := { b.start with linkUp := true },
                            parts := [(statusPart, barePart)] }
  b.wf (RIME_STATE 1) 2 0 0

/-- PART_DESTROY of the partition in the mailbox of the PF. -/
def destroyingPart : Block :=
  (((oddModule.boxData (chBase (.fn 0 0)) [0x02000702, BitVec.ofNat 32 statusPart]).wb (chBase (.fn 0 0) + 0x44) 0 true).setBox
    (chBase (.fn 0 0)) { len := 8, waiting := [], owed := false }).chLed (.fn 0 0) fun b n => b.ledTake n 1

theorem destroyingPart_delivers : destroyingPart.delivers (.fn 0 0) 0x0702 ∧ destroyingPart.backFree (.fn 0 0) ∧
    (mreg (destroyingPart.msgWords (.fn 0 0)) 1).toNat = statusPart := by
  decide +kernel

theorem destroyingPart_unused : (destroyingPart.msgTaken (.fn 0 0)).part statusPart = some barePart ∧
    (destroyingPart.msgTaken (.fn 0 0)).fld (SCH_P_STATE statusPart) 1 0 ≠ 3 ∧
    (destroyingPart.msgTaken (.fn 0 0)).partBundles statusPart = [] ∧ (destroyingPart.msgTaken (.fn 0 0)).clients statusPart = [] := by
  decide +kernel

/-- It has no group, so no Firn set. -/
theorem barePart_setList : barePart.setList = [] := by
  decide +kernel

/-- Refutes O28, in its clause on PART_DESTROY: the partition's state is to be STOPPING after the answer, and the status OK of the
answer stands where the state of this partition would (`statusPart_register`). -/
theorem not_partitionsAndClients : ¬ Obligations.PartitionsAndClients := by
  unfold Obligations.PartitionsAndClients
  intro h
  obtain ⟨-, -, -, hdestroy, -⟩ := h
  obtain ⟨h1, h2, h3⟩ := destroyingPart_delivers
  obtain ⟨u1, u2, u3, u4⟩ := destroyingPart_unused
  obtain ⟨t, -, -, ⟨-, -, hstatus⟩, hstopping, -⟩ := hdestroy { blk := destroyingPart, pending := [] } (.fn 0 0) statusPart barePart _
    h1 h2 rfl rfl h3.symm u1 u2 u3 u4 (fun k u hk => absurd hk (by simp [barePart_setList]))
  rw [Block.fld, statusPart_register, hstatus] at hstopping
  exact absurd hstopping (by decide)

end Sys2Proof.Machine
end

section
/-! Models and adapters (R244, R245, R264 to R266). -/

namespace Sys2Proof.Machine

/-! ### Tables -/

theorem kget_kfilter {α : Type} {t : Tbl α} {f : Nat → α → Bool} {i : Nat} {x : α} (h : kget t i = some x) (hf : f i x = true) :
    kget (kfilter t f) i = some x := by
  induction t with
  | nil => cases h
  | cons e t ih =>
    obtain ⟨k, v⟩ := e
    rw [kget_cons] at h
    by_cases hk : i = k
    case pos =>
      rw [if_pos hk] at h
      cases h
      subst hk
      rw [kfilter, List.filter_cons_of_pos (by exact hf), kget_cons, if_pos rfl]
    case neg =>
      rw [if_neg hk] at h
      by_cases hv : f k v = true
      · rw [kfilter, List.filter_cons_of_pos (by exact hv), kget_cons, if_neg hk]
        exact ih h
      · rw [kfilter, List.filter_cons_of_neg (by exact hv)]
        exact ih h

theorem mem_of_kget_kfilter {α : Type} {t : Tbl α} {f : Nat → α → Bool} {i : Nat} {x : α} (h : kget (kfilter t f) i = some x) :
    (i, x) ∈ t :=
  (List.mem_filter.mp (mem_of_kget h)).1

/-! ### Models -/

@[simp] theorem Block.serveOf_setServe (s : Block) (p : Nat) (v : Serve) : (s.setServe p v).serveOf p = v := tget_tset_same ..

theorem Block.serveOf_congr {s t : Block} (h : t.serve = s.serve) (p : Nat) : t.serveOf p = s.serveOf p := by
  unfold Block.serveOf
  rw [h]

theorem Block.model_congr {s t : Block} (h : t.serve = s.serve) (p k : Nat) : t.model p k = s.model p k := by
  unfold Block.model
  rw [Block.serveOf_congr h]

/-- The numbers of models that are free in a partition. -/
def freeModels (v : Serve) : List Nat := ((List.range 15).map (· + 1)).filter fun k => (kget v.models k).isNone

theorem mem_freeModels {v : Serve} {k : Nat} : k ∈ freeModels v ↔ 1 ≤ k ∧ k ≤ 15 ∧ kget v.models k = none := by
  simp only [freeModels, List.mem_filter, List.mem_map, List.mem_range, Option.isNone_iff_eq_none]
  constructor
  · rintro ⟨⟨i, hi, rfl⟩, h⟩
    exact ⟨by omega, by omega, h⟩
  · rintro ⟨h1, h15, h⟩
    exact ⟨⟨k - 1, by omega, by omega⟩, h⟩

/-- The model that SRV_MODEL_LOAD describes. -/
def modelOf (ws : List Word) (f : Nat) : Model :=
  { bundle := (mreg ws 1).fld 15 0, cls := (mreg ws 2).fld 3 0, regs := (List.range 9).map fun i => mreg ws (i + 1),
    fn := f, stepNo := 0, damaged := false, step := none }

/-- The answer of SRV_MODEL_LOAD. -/
def modelLoadAnswer (ch : Chan) (s : Block) (ws : List Word) : Answer :=
  s.msgPart ch fun p =>
    let f := chFn ch
    let m : Model := { bundle := (mreg ws 1).fld 15 0, cls := (mreg ws 2).fld 3 0, regs := (List.range 9).map fun i => mreg ws (i + 1),
                       fn := f, stepNo := 0, damaged := false, step := none }
    let v := s.serveOf p
    if !s.modelOk p f m then s.no badModel else
    match ((List.range 15).map (· + 1)).filter fun k => (kget v.models k).isNone with
    | [] => s.no (NO_SPACE 0xBE)
    | l =>
      let (k, s) := s.pick l 1
      let s := { s with bundles := kmod s.bundles m.bundle fun b => { b with model := true } }
      (s.setServe p { v with models := kput v.models k m }).yes [w32 k]

/-- A block with a model loaded under a number. -/
def Block.modelLoaded (s : Block) (p k : Nat) (m : Model) : Block :=
  ({ s.drawn with bundles := kmod s.bundles m.bundle fun b => { b with model := true } } : Block).setServe p
    { s.serveOf p with models := kput (s.serveOf p).models k m }

theorem modelLoadAnswer_eq {s : Block} {ch : Chan} {ws : List Word} {p : Nat} {m : Model} (hp : p = s.fnPart (chFn ch))
    (hs : (s.part p).isSome = true) (hm : m = modelOf ws (chFn ch)) (hok : s.modelOk p (chFn ch) m = true)
    (hf : freeModels (s.serveOf p) ≠ []) :
    modelLoadAnswer ch s ws =
      (s.modelLoaded p (s.pick (freeModels (s.serveOf p)) 1).1 m).yes [w32 (s.pick (freeModels (s.serveOf p)) 1).1] := by
  subst hm
  unfold modelLoadAnswer
  rw [Block.msgPart_eq _ hp hs]
  unfold modelOf at hok
  dsimp only
  rw [if_neg (by simp [hok])]
  split
  · next h => exact absurd h hf
  · rfl

theorem srvModelLoad_spec (s : State) (ch : Chan) (p : Nat) (m : Model) (hd : s.blk.delivers ch 0x0601) (hb : s.blk.backFree ch)
    (hp : p = (s.blk.msgTaken ch).fnPart (chFn ch)) (hs : ((s.blk.msgTaken ch).part p).isSome = true)
    (hm : m = modelOf (s.blk.msgWords ch) (chFn ch)) (hok : (s.blk.msgTaken ch).modelOk p (chFn ch) m = true)
    (hf : ∃ k, 1 ≤ k ∧ k ≤ 15 ∧ s.blk.model p k = none) :
    ∃ t : State, exec (.srvModelLoad ch) s = .next t ∧ t.pending = s.pending ∧ t.blk.repliedTo s.blk ch OK ∧
      (∃ k, 1 ≤ k ∧ k ≤ 15 ∧ s.blk.model p k = none ∧ t.blk.model p k = some m ∧ t.blk.rg (chBack ch + 8) = w32 k ∧
        ∀ i, i ≠ k → t.blk.model p i = s.blk.model p i) ∧
      t.blk.bundles = kmod s.blk.bundles m.bundle (fun b => { b with model := true }) ∧
      { t.blk.mailBack s.blk with serve := s.blk.serve, bundles := s.blk.bundles, freeCtr := s.blk.freeCtr } = s.blk := by
  have hi : exec (.srvModelLoad ch) s = onBlk (fun b => b.message ch 0x0601 (modelLoadAnswer ch)) s := rfl
  have hsv : (s.blk.msgTaken ch).serveOf p = s.blk.serveOf p := Block.serveOf_congr (by simp) p
  have hne : freeModels ((s.blk.msgTaken ch).serveOf p) ≠ [] := by
    obtain ⟨k, hk⟩ := hf
    rw [hsv]
    exact List.ne_nil_of_mem (mem_freeModels.mpr hk)
  have ha := modelLoadAnswer_eq hp hs hm hok hne
  obtain ⟨h1, h15, hfree⟩ := mem_freeModels.mp ((s.blk.msgTaken ch).pick_mem 1 hne)
  obtain ⟨k, hk⟩ : ∃ k, k = ((s.blk.msgTaken ch).pick (freeModels ((s.blk.msgTaken ch).serveOf p)) 1).1 := ⟨_, rfl⟩
  rw [← hk] at ha h1 h15 hfree
  rw [hsv] at hfree
  obtain ⟨t, hx, hpend, hr, hregs, ht⟩ := exec_answer hd hb ha rfl rfl
    (by simp [Block.yes, Block.modelLoaded, Block.setServe, Block.drawn])
    (by simp [Block.yes, Block.modelLoaded, Block.setServe, Block.drawn])
  have hserve : t.blk.serveOf p = { s.blk.serveOf p with models := kput (s.blk.serveOf p).models k m } := by
    rw [ht, Block.serveOf_congr (Block.reply_serve ..) p]
    simp [Block.yes, Block.modelLoaded, hsv]
  refine ⟨t, hi.trans hx, hpend, hr, ⟨k, h1, h15, hfree, ?_, hregs 0 (by omega), fun i hik => ?_⟩, ?_, ?_⟩
  · rw [Block.model, hserve]
    exact kget_kput_same ..
  · rw [Block.model, hserve]
    exact kget_kput_other _ _ hik
  · rw [ht]
    simp [Block.yes, Block.modelLoaded, Block.setServe]
  · rw [ht]
    simp [Block.yes, Block.modelLoaded, Block.setServe, Block.drawn, Block.mailBack]

/-- The answer of SRV_MODEL_UNLOAD. -/
def modelUnloadAnswer (ch : Chan) (s : Block) (ws : List Word) : Answer :=
  s.msgPart ch fun p =>
    let k := (mreg ws 1).toNat
    match s.model p k with
    | none => s.no badModel
    | some m =>
      if m.fn ≠ chFn ch then s.no badModel
      else if !(s.modelReqs p k).isEmpty then s.no (BUSY 0xBC)
      else
        let v := s.serveOf p
        let s := s.setServe p { v with models := kdel v.models k }
        let used := s.serve.any fun e => e.2.models.any fun x => x.2.bundle == m.bundle
        let s := { s with bundles := kmod s.bundles m.bundle fun b => { b with model := used },
                          adapters := kfilter s.adapters fun _ a => !(a.part == p && a.model == k) }
        s.yes

/-- A block without a model and its adapters; `used` says whether its bundle has another model. -/
def Block.modelGone (s : Block) (p k : Nat) (m : Model) (used : Bool) : Block :=
  { s.setServe p { s.serveOf p with models := kdel (s.serveOf p).models k } with
      bundles := kmod s.bundles m.bundle fun b => { b with model := used },
      adapters := kfilter s.adapters fun _ a => !(a.part == p && a.model == k) }

theorem modelUnloadAnswer_eq {s : Block} {ch : Chan} {ws : List Word} {p k : Nat} {m : Model} (hp : p = s.fnPart (chFn ch))
    (hs : (s.part p).isSome = true) (hk : k = (mreg ws 1).toNat) (hm : s.model p k = some m) (hf : m.fn = chFn ch)
    (hr : s.modelReqs p k = []) :
    ∃ used, modelUnloadAnswer ch s ws = (s.modelGone p k m used).yes := by
  subst hk
  unfold modelUnloadAnswer
  rw [Block.msgPart_eq _ hp hs]
  simp only [hm]
  rw [if_neg (by simp [hf]), if_neg (by simp [hr])]
  exact ⟨_, rfl⟩

theorem srvModelUnload_spec (s : State) (ch : Chan) (p k : Nat) (m : Model) (hd : s.blk.delivers ch 0x0602) (hb : s.blk.backFree ch)
    (hp : p = (s.blk.msgTaken ch).fnPart (chFn ch)) (hs : ((s.blk.msgTaken ch).part p).isSome = true)
    (hk : k = (mreg (s.blk.msgWords ch) 1).toNat) (hm : s.blk.model p k = some m) (hf : m.fn = chFn ch)
    (hq : (s.blk.msgTaken ch).modelReqs p k = []) :
    ∃ t : State, exec (.srvModelUnload ch) s = .next t ∧ t.pending = s.pending ∧ t.blk.repliedTo s.blk ch OK ∧
      t.blk.model p k = none ∧ (∀ i, i ≠ k → t.blk.model p i = s.blk.model p i) ∧
      t.blk.adapters.all (fun e => !(e.2.part == p && e.2.model == k)) = true ∧
      { t.blk.mailBack s.blk with serve := s.blk.serve, bundles := s.blk.bundles, adapters := s.blk.adapters } = s.blk := by
  have hi : exec (.srvModelUnload ch) s = onBlk (fun b => b.message ch 0x0602 (modelUnloadAnswer ch)) s := rfl
  have hserve : (s.blk.msgTaken ch).serve = s.blk.serve := by simp
  obtain ⟨used, ha⟩ := modelUnloadAnswer_eq hp hs hk ((Block.model_congr hserve p k).trans hm) hf hq
  obtain ⟨t, hx, hpend, hr, -, ht⟩ := exec_answer hd hb ha rfl rfl
    (by simp [Block.yes, Block.modelGone, Block.setServe]) (by simp [Block.yes, Block.modelGone, Block.setServe])
  have hv : t.blk.serveOf p = { s.blk.serveOf p with models := kdel (s.blk.serveOf p).models k } := by
    rw [ht, Block.serveOf_congr (Block.reply_serve ..) p, ← Block.serveOf_congr hserve p]
    exact Block.serveOf_setServe ..
  refine ⟨t, hi.trans hx, hpend, hr, ?_, fun i hik => ?_, ?_, ?_⟩
  · rw [Block.model, hv, kget_kdel, if_pos rfl]
  · rw [Block.model, hv, kget_kdel, if_neg hik]
    rfl
  · rw [ht, Block.reply_adapters]
    exact List.all_eq_true.mpr fun e he => (List.mem_filter.mp he).2
  · rw [ht]
    simp [Block.yes, Block.modelGone, Block.setServe, Block.mailBack]

/-! ### Adapters -/

/-- A table of adapters in which no version of an ID of a partition is current. -/
def uncurrent (t : Tbl Adapter) (p id : Nat) : Tbl Adapter :=
  kmap t fun _ x => if x.part = p ∧ x.id = id then { x with current := false } else x

theorem uncurrent_mem {t : Tbl Adapter} {p id i : Nat} {x : Adapter} (h : (i, x) ∈ uncurrent t p id) (hp : x.part = p) (hid : x.id = id) :
    x.current = false := by
  obtain ⟨⟨j, y⟩, -, he⟩ := List.mem_map.mp h
  cases he
  dsimp only at hp hid ⊢
  split at hp
  case isTrue h => rw [if_pos h]
  case isFalse h =>
    rw [if_neg h] at hid
    exact absurd ⟨hp, hid⟩ h

theorem kget_uncurrent {t : Tbl Adapter} {p id i : Nat} {x : Adapter} (h : kget t i = some x) (hx : x.part ≠ p ∨ x.id ≠ id) :
    kget (uncurrent t p id) i = some x := by
  rw [uncurrent, kget_kmap, h, Option.map_some, if_neg fun h => hx.elim (absurd h.1) (absurd h.2)]

theorem Block.sweepAdapters_adapters (s : Block) (p : Nat) :
    (s.sweepAdapters p).adapters = kfilter s.adapters fun i a => a.part != p || a.current || s.adapterBound i := rfl

/-- An adapter that is current survives the removal of those that nothing uses. -/
theorem Block.kget_sweepAdapters {s : Block} {p i : Nat} {x : Adapter} (h : kget s.adapters i = some x) (hx : x.current = true) :
    kget (s.sweepAdapters p).adapters i = some x := by
  rw [Block.sweepAdapters_adapters]
  exact kget_kfilter h (by simp [hx])

theorem Block.mem_of_sweepAdapters {s : Block} {p i : Nat} {x : Adapter} (h : kget (s.sweepAdapters p).adapters i = some x) :
    (i, x) ∈ s.adapters := by
  rw [Block.sweepAdapters_adapters] at h
  exact mem_of_kget_kfilter h

/-- The answer of SRV_ADAPTER_LOAD. -/
def adapterLoadAnswer (ch : Chan) (s : Block) (ws : List Word) : Answer :=
  s.msgPart ch fun p =>
    let f := chFn ch
    let id := (mreg ws 1).toNat
    let v := (mreg ws 2).toNat
    let rank := (mreg ws 3).fld 8 0
    let m := (mreg ws 4).toNat
    let a : Adapter := { part := p, id := id, version := v, rank := rank, shared := (mreg ws 3).bit 16, model := m, a := mreg ws 5, b := mreg ws 6,
                         scale := mreg ws 7, fn := f, current := true }
    if (s.model p m).isNone then s.no badModel
    else if id = 0 ∨ 65535 < id ∨ v = 0 ∨ 65535 < v ∨ rank = 0 ∨ 256 < rank then s.no (REFUSED 0xB2)
    else
      match [mreg ws 5, mreg ws 6].findSome? fun h => s.nameStatus p f 0 h with
      | some st => s.no st
      | none =>
        if s.adapters.any fun e => e.2.part == p && e.2.id == id && decide (v ≤ e.2.version) then s.no (REFUSED 0xB9) else
        match s.adapterSlot with
        | (none, _) => s.no (NO_SPACE 0xBA)
        | (some k, s) =>
          let old := kmap s.adapters fun _ x => if x.part = p ∧ x.id = id then { x with current := false } else x
          (({ s with adapters := kput old k a } : Block).sweepAdapters p).yes [w32 k]

/-- The adapter that SRV_ADAPTER_LOAD describes. -/
def adapterOf (ws : List Word) (p f : Nat) : Adapter :=
  { part := p, id := (mreg ws 1).toNat, version := (mreg ws 2).toNat, rank := (mreg ws 3).fld 8 0, shared := (mreg ws 3).bit 16,
    model := (mreg ws 4).toNat, a := mreg ws 5, b := mreg ws 6, scale := mreg ws 7, fn := f, current := true }

/-- A block with a version of an adapter made current. -/
def Block.adapterLoaded (s : Block) (p k : Nat) (a : Adapter) : Block :=
  ({ s with adapters := kput (uncurrent s.adapters p a.id) k a } : Block).sweepAdapters p

/-- A block with no current version of an adapter. -/
def Block.adapterRetired (s : Block) (p id : Nat) : Block :=
  ({ s with adapters := uncurrent s.adapters p id } : Block).sweepAdapters p

theorem adapterLoadAnswer_eq {s : Block} {ch : Chan} {ws : List Word} {p k : Nat} {a : Adapter} (hp : p = s.fnPart (chFn ch))
    (hs : (s.part p).isSome = true) (ha : a = adapterOf ws p (chFn ch)) (hm : (s.model p a.model).isSome = true)
    (hid : 1 ≤ a.id ∧ a.id ≤ 65535) (hv : 1 ≤ a.version ∧ a.version ≤ 65535) (hr : 1 ≤ a.rank ∧ a.rank ≤ 256)
    (hna : s.nameStatus p (chFn ch) 0 a.a = none) (hnb : s.nameStatus p (chFn ch) 0 a.b = none)
    (hold : s.adapters.all (fun e => !(e.2.part == p && e.2.id == a.id && decide (a.version ≤ e.2.version))) = true)
    (hk : s.adapterSlot = (some k, s.drawn)) :
    adapterLoadAnswer ch s ws = (s.drawn.adapterLoaded p k a).yes [w32 k] := by
  subst ha
  unfold adapterLoadAnswer
  rw [Block.msgPart_eq _ hp hs]
  dsimp only [adapterOf] at hm hid hv hr hna hnb hold ⊢
  have hold' : ¬ s.adapters.any (fun e => e.2.part == p && e.2.id == (mreg ws 1).toNat &&
      decide ((mreg ws 2).toNat ≤ e.2.version)) = true := by
    rw [List.any_eq_true]
    rintro ⟨e, he, hx⟩
    exact absurd hx (Bool.eq_false_iff.mp ((Bool.not_eq_true' _).mp (List.all_eq_true.mp hold e he)))
  rw [if_neg (by simpa [Option.ne_none_iff_isSome] using hm), if_neg (by omega)]
  simp only [List.findSome?_cons, hna, hnb, List.findSome?_nil]
  rw [if_neg hold', hk]
  rfl

theorem srvAdapterLoad_spec (s : State) (ch : Chan) (p k : Nat) (a : Adapter) (hd : s.blk.delivers ch 0x0603) (hb : s.blk.backFree ch)
    (hp : p = (s.blk.msgTaken ch).fnPart (chFn ch)) (hs : ((s.blk.msgTaken ch).part p).isSome = true)
    (ha : a = adapterOf (s.blk.msgWords ch) p (chFn ch)) (hm : (s.blk.model p a.model).isSome = true)
    (hid : 1 ≤ a.id) (hid' : a.id ≤ 65535) (hv : 1 ≤ a.version) (hv' : a.version ≤ 65535) (hr : 1 ≤ a.rank) (hr' : a.rank ≤ 256)
    (hna : (s.blk.msgTaken ch).nameStatus p (chFn ch) 0 a.a = none) (hnb : (s.blk.msgTaken ch).nameStatus p (chFn ch) 0 a.b = none)
    (hold : s.blk.adapters.all (fun e => !(e.2.part == p && e.2.id == a.id && decide (a.version ≤ e.2.version))) = true)
    (hk : (s.blk.msgTaken ch).adapterSlot = (some k, (s.blk.msgTaken ch).drawn)) :
    ∃ t : State, exec (.srvAdapterLoad ch) s = .next t ∧ t.pending = s.pending ∧ t.blk.repliedTo s.blk ch OK ∧
      kget t.blk.adapters k = some a ∧ t.blk.rg (chBack ch + 8) = w32 k ∧
      (∀ i x, i ≠ k → kget t.blk.adapters i = some x → x.part = p → x.id = a.id → x.current = false) ∧
      (∀ i x, i ≠ k → kget s.blk.adapters i = some x → x.current = true → (x.part ≠ p ∨ x.id ≠ a.id) → kget t.blk.adapters i = some x) ∧
      { t.blk.mailBack s.blk with adapters := s.blk.adapters, freeCtr := s.blk.freeCtr } = s.blk := by
  have hi : exec (.srvAdapterLoad ch) s = onBlk (fun b => b.message ch 0x0603 (adapterLoadAnswer ch)) s := rfl
  have hserve : (s.blk.msgTaken ch).serve = s.blk.serve := by simp
  have htab : (s.blk.msgTaken ch).adapters = s.blk.adapters := by simp
  have hans := adapterLoadAnswer_eq hp hs ha ((Block.model_congr hserve p a.model).symm ▸ hm) ⟨hid, hid'⟩ ⟨hv, hv'⟩ ⟨hr, hr'⟩ hna hnb
    (htab.symm ▸ hold) hk
  obtain ⟨t, hx, hpend, hrep, hregs, ht⟩ := exec_answer hd hb hans rfl rfl
    (by simp [Block.yes, Block.adapterLoaded, Block.sweepAdapters, Block.drawn])
    (by simp [Block.yes, Block.adapterLoaded, Block.sweepAdapters, Block.drawn])
  have hcur : a.current = true := congrArg Adapter.current ha
  have hnew : t.blk.adapters = (({ (s.blk.msgTaken ch).drawn with
      adapters := kput (uncurrent s.blk.adapters p a.id) k a } : Block).sweepAdapters p).adapters := by
    rw [ht, Block.reply_adapters, ← htab]
    rfl
  refine ⟨t, hi.trans hx, hpend, hrep, ?_, hregs 0 (by omega), fun i x hik hx hxp hxi => ?_, fun i x hik hx hc hne => ?_, ?_⟩
  · rw [hnew]
    exact Block.kget_sweepAdapters (kget_kput_same ..) hcur
  · rw [hnew] at hx
    obtain he | hmem := mem_kput (Block.mem_of_sweepAdapters hx)
    · exact absurd (congrArg Prod.fst he) hik
    · exact uncurrent_mem hmem hxp hxi
  · rw [hnew]
    exact Block.kget_sweepAdapters ((kget_kput_other _ _ hik).trans (kget_uncurrent hx hne)) hc
  · rw [ht]
    simp [Block.yes, Block.adapterLoaded, Block.sweepAdapters, Block.drawn, Block.mailBack]

/-- The answer of SRV_ADAPTER_UNLOAD. -/
def adapterUnloadAnswer (ch : Chan) (s : Block) (ws : List Word) : Answer :=
  s.msgPart ch fun p =>
    let id := (mreg ws 1).toNat
    match s.currentAdapter p id with
    | none => s.no (REFUSED 0xB1)
    | some (_, a) =>
      if a.fn ≠ chFn ch then s.no (DENIED 0xBD) else
      (({ s with adapters := kmap s.adapters fun _ x => if x.part = p ∧ x.id = id then { x with current := false } else x }
        : Block).sweepAdapters p).yes

theorem adapterUnloadAnswer_eq {s : Block} {ch : Chan} {ws : List Word} {p id i : Nat} {a : Adapter} (hp : p = s.fnPart (chFn ch))
    (hs : (s.part p).isSome = true) (hid : id = (mreg ws 1).toNat) (ha : s.currentAdapter p id = some (i, a)) (hf : a.fn = chFn ch) :
    adapterUnloadAnswer ch s ws = (s.adapterRetired p id).yes := by
  subst hid
  unfold adapterUnloadAnswer
  rw [Block.msgPart_eq _ hp hs]
  simp only [ha]
  rw [if_neg (by simp [hf])]
  rfl

theorem srvAdapterUnload_spec (s : State) (ch : Chan) (p id i : Nat) (a : Adapter) (hd : s.blk.delivers ch 0x0604)
    (hb : s.blk.backFree ch) (hp : p = (s.blk.msgTaken ch).fnPart (chFn ch)) (hs : ((s.blk.msgTaken ch).part p).isSome = true)
    (hid : id = (mreg (s.blk.msgWords ch) 1).toNat) (ha : s.blk.currentAdapter p id = some (i, a)) (hf : a.fn = chFn ch) :
    ∃ t : State, exec (.srvAdapterUnload ch) s = .next t ∧ t.pending = s.pending ∧ t.blk.repliedTo s.blk ch OK ∧
      t.blk.currentAdapter p id = none ∧
      (∀ k x, kget s.blk.adapters k = some x → x.current = true → (x.part ≠ p ∨ x.id ≠ id) → kget t.blk.adapters k = some x) ∧
      { t.blk.mailBack s.blk with adapters := s.blk.adapters } = s.blk := by
  have hi : exec (.srvAdapterUnload ch) s = onBlk (fun b => b.message ch 0x0604 (adapterUnloadAnswer ch)) s := rfl
  have htab : (s.blk.msgTaken ch).adapters = s.blk.adapters := by simp
  have ha' : (s.blk.msgTaken ch).currentAdapter p id = some (i, a) := by
    rw [Block.currentAdapter, htab]
    exact ha
  obtain ⟨t, hx, hpend, hr, -, ht⟩ := exec_answer hd hb (adapterUnloadAnswer_eq hp hs hid ha' hf) rfl rfl
    (by simp [Block.yes, Block.adapterRetired, Block.sweepAdapters]) (by simp [Block.yes, Block.adapterRetired, Block.sweepAdapters])
  have hnew : t.blk.adapters = (({ s.blk.msgTaken ch with adapters := uncurrent s.blk.adapters p id } : Block).sweepAdapters p).adapters := by
    rw [ht, Block.reply_adapters, ← htab]
    rfl
  refine ⟨t, hi.trans hx, hpend, hr, ?_, fun k x hx hc hne => ?_, ?_⟩
  · rw [Block.currentAdapter, List.find?_eq_none, hnew]
    rintro ⟨j, y⟩ hmem hy
    simp only [Bool.and_eq_true, beq_iff_eq] at hy
    obtain ⟨⟨hyp, hyid⟩, hyc⟩ := hy
    have := uncurrent_mem (List.mem_filter.mp hmem).1 hyp hyid
    rw [hyc] at this
    cases this
  · rw [hnew]
    exact Block.kget_sweepAdapters (kget_uncurrent hx hne) hc
  · rw [ht]
    simp [Block.yes, Block.adapterRetired, Block.sweepAdapters, Block.mailBack]

/-- Settles O31: each message's answer, the tables of models and adapters by what the removals keep. -/
theorem modelsAndAdapters : Obligations.ModelsAndAdapters := by
  unfold Obligations.ModelsAndAdapters
  exact ⟨srvModelLoad_spec, srvModelUnload_spec, srvAdapterLoad_spec, srvAdapterUnload_spec⟩

end Sys2Proof.Machine
end

section
/-! PAGE_ZERO_FILL_DONE and the data of other pages (R215, R236): the statement on arenas and pages fails. A page move that goes on with
the event has a unit of a page requested of this node itself; a request performed here lets the writes of Firn units land first, and one
that waits for a KV page changes its data. -/

namespace Sys2Proof.Machine

/-! ### Pages -/

theorem Block.page_modPage_same (s : Block) (p pid : Nat) (f : Page → Page) : (s.modPage p pid f).page p pid = (s.page p pid).map f := by
  rw [Block.page, Block.modPage, Block.snowOf_setSnow, kget_kmod, if_pos rfl, Block.page]

theorem Block.page_modPage_other (s : Block) (p : Nat) {pid j : Nat} (f : Page → Page) (h : j ≠ pid) :
    (s.modPage p pid f).page p j = s.page p j := by
  rw [Block.page, Block.modPage, Block.snowOf_setSnow, kget_kmod, if_neg h, Block.page]

theorem Block.page_congr {s t : Block} (h : t.snow = s.snow) (p pid : Nat) : t.page p pid = s.page p pid := by
  rw [Block.page, Block.page, Block.snowOf_congr h]

/-! ### A unit of a page move requested of this node -/

/-- What a far request of a page move to this node does: it is performed here, and the copy is told. -/
theorem Block.farRequest_here {s : Block} {p pid : Nat} {g : Page} {c : FarCopy} {e : Nat × Nat × Bool} (h : e.1 = s.node) :
    ∃ k : Packet, k.vc = 3 ∧ s.farRequest p pid g c e =
      (((s.drawn.performOwned 32 0).perform k).2).moverAnswered p pid c.id c.next ((s.drawn.performOwned 32 0).perform k).1 := by
  unfold Block.farRequest Block.request
  refine ⟨_, ?_, if_pos h⟩
  rfl

theorem Block.performFar_snow (s : Block) (k : Packet) : (s.performFar k).2.snow = s.snow := by
  unfold Block.performFar
  split
  · rfl
  · dsimp only
    split <;> simp [Block.stackTraffic, Block.modObj, Block.setObjects]

theorem Block.performFar_met (s : Block) (k : Packet) : (s.performFar k).2.err = s.err := by
  unfold Block.performFar
  split
  · rfl
  · dsimp only
    split <;> simp [Block.stackTraffic, Block.modObj, Block.setObjects]

/-- What a request on virtual channel 3 performed here leaves of the pools, with no error met: what the units' writes do. -/
theorem Block.perform_far_snow {s : Block} {k : Packet} (hv : k.vc = 3) (hm : s.firnSettle.err.met = []) :
    (s.perform k).2.snow = s.firnSettle.snow := by
  unfold Block.perform Block.performReq
  dsimp only
  rw [if_pos hv, Block.repairMet_none (by rw [Block.performFar_met, hm]), Block.performFar_snow]

theorem Block.moverAnswered_next (s : Block) (p pid id unit : Nat) (r : Reply) :
    ((s.moverAnswered p pid id unit r).page p pid).bind (fun g => g.far.map (·.next)) =
      (s.page p pid).bind fun g => g.far.map (·.next) := by
  unfold Block.moverAnswered
  rw [Block.page_modPage_same]
  cases s.page p pid with
  | none => rfl
  | some g =>
    rw [Option.map_some, Option.bind_some, Option.bind_some]
    cases hf : g.far with
    | none => simp [hf]
    | some c =>
      dsimp only
      split
      · simp [hf]
      · split <;> rfl

/-! ### Writes that land -/

/-- A unit that holds more than 256 writes lands one at least. -/
theorem Block.firnDrainSome_long {s : Block} {u : Nat} (h : 256 < (s.fu u).writeQ.length + (s.fu u).ownQ.length) :
    ∃ k, s.firnDrainSome u = s.drawn.firnDrain u (k + 1) := by
  obtain ⟨n, hn⟩ : ∃ n, n = (s.fu u).writeQ.length + (s.fu u).ownQ.length := ⟨_, rfl⟩
  rw [← hn] at h
  refine ⟨max (s.choose (n + 1)).1 (n - 256) - 1, ?_⟩
  rw [Nat.sub_add_cancel (by omega)]
  unfold Block.firnDrainSome
  dsimp only
  rw [← hn]
  exact if_neg (by omega)

/-- Where the writes after the first change nothing, that one is all that lands. -/
theorem Block.firnDrain_first {s : Block} {u : Nat} {w : BankUnit} {l : List BankUnit} (hw : (s.fu u).writeQ = w :: l)
    (ho : (s.fu u).ownQ = []) (hl : ∀ b ∈ l, (s.bankWrite u w).bankWrite u b = s.bankWrite u w) (k : Nat) :
    (s.firnDrain u (k + 1)).snow = (s.bankWrite u w).snow ∧ (s.firnDrain u (k + 1)).err = (s.bankWrite u w).err := by
  have hfix : ∀ l' : List BankUnit, (∀ b ∈ l', b ∈ l) → ((s.bankWrite u w).each l' fun s b => s.bankWrite u b) = s.bankWrite u w := by
    intro l' hl'
    induction l' with
    | nil => rfl
    | cons b l' ih =>
      rw [Block.each, List.foldl_cons, hl b (hl' b (by simp))]
      exact ih fun b hb => hl' b (by simp [hb])
  have hall : (s.each (((s.fu u).writeQ ++ (s.fu u).ownQ).take (k + 1)) fun s b => s.bankWrite u b) = s.bankWrite u w := by
    rw [hw, ho, List.append_nil, List.take_succ_cons]
    exact hfix (l.take k) fun b hb => List.mem_of_mem_take hb
  have : s.firnDrain u (k + 1) = (s.bankWrite u w).modFu u fun x =>
      { x with writeQ := x.writeQ.drop (k + 1), ownQ := x.ownQ.drop (k + 1 - x.writeQ.length) } := by
    unfold Block.firnDrain
    dsimp only
    rw [hall]
  rw [this]
  exact ⟨rfl, rfl⟩

theorem Block.firnSettle_one {s : Block} {u : Nat} (h : s.firnQueues = [u]) : s.firnSettle = s.firnDrainSome u := by
  rw [Block.firnSettle, h]
  rfl

/-- The copies of a pool of two pages, taken in turn. -/
theorem Block.farPump_pair {s : Block} {p a b : Nat} (h : keys (s.snowOf p).pages = [a, b]) :
    s.farPump p = (s.farSend p a 256).farSend p b 256 := by
  unfold Block.farPump
  rw [h]
  rfl

/-- A pool without sequences and arenas: its moves are those under way. -/
theorem Block.openMoves_bare {s : Block} {p : Nat} (hs : (s.snowOf p).seqs = []) (ha : (s.snowOf p).arenas = []) :
    s.openMoves p = s.farPump p := by
  unfold Block.openMoves
  rw [hs]
  show (s.each (keys (s.snowOf p).arenas) _).farPump p = _
  rw [ha]
  rfl

/-! ### The state -/

/-- The page that waits for a Firn unit's write. -/
def writtenPage : Page :=
  { cls := 1, layer := 0, firstPos := 0, fill := 0, hash := 0, refs := 1, loc := .compute 0 0, dest := none, far := none,
    data := Store.empty, owner := 0, zeroing := false }

/-- The page of which one unit is still to be sent, to this node. -/
def sentPage : Page :=
  { writtenPage with loc := .compute 1 0, dest := some (.far 0 0),
                     far := some { id := 0, next := 255, done := 0, got := Store.empty, failed := none } }

/-- The page that is filled with zeros. -/
def zeroedPage : Page := { writtenPage with loc := .compute 2 0, refs := 0, zeroing := true }

/-- Firn unit 0's writes: one of the written page, and as many more, of a page that is not there, as make the oldest land. -/
def waitingWrites : List BankUnit :=
  { page := 0, off := 0, data := [1], poison := false } :: List.replicate 256 { page := 99, off := 0, data := [], poison := false }

theorem waitingWrites_length : waitingWrites.length = 257 := by
  rw [waitingWrites, List.length_cons, List.length_replicate]

/-- A module with the three pages. -/
def movingModule : Block :=
  let b := State.reset.blk
  let b : Block := { b with
    fw := { b.fw with loaded := true },
    snow := [(0, { Snow.empty with pages := [(1, writtenPage), (2, sentPage), (3, zeroedPage)] })],
    firn := [(0, { FirnUnit.reset with writeQ := waitingWrites })] }
  ((b.wf (RIME_STATE 3) 2 0 0).wf (STK_PART_CG 0 0) 5 0 0).wf (ESK_ALLOT 0) 16 0 1

/-- The module once the page of zeros has left the pool. -/
def zeroFilled : Block :=
  (movingModule.setSnow 0 { movingModule.snowOf 0 with pages := kdel (movingModule.snowOf 0).pages 3 }).ledLand (pageLedger 0 0) 1

/-- The module once the last unit of the sent page is counted as requested. -/
def unitCounted : Block :=
  zeroFilled.modPage 0 2 fun g => { g with far := some { id := 0, next := 256, done := 0, got := Store.empty, failed := none } }

/-- The module as the request meets it. -/
def requestMet : Block := unitCounted.drawn.performOwned 32 0

/-- The module once the first write of the unit has landed. -/
def pageWritten : Block := requestMet.drawn.bankWrite 0 { page := 0, off := 0, data := [1], poison := false }

theorem movingModule_zeroReady : zeroReady 0 3 movingModule = true := by
  decide +kernel

theorem zeroFilled_pool : (zeroFilled.snowOf 0).seqs = [] ∧ (zeroFilled.snowOf 0).arenas = [] ∧ keys (zeroFilled.snowOf 0).pages = [1, 2] ∧
    zeroFilled.page 0 1 = some writtenPage ∧ zeroFilled.page 0 2 = some sentPage ∧ zeroFilled.farTags 0 = 1 := by
  decide +kernel

theorem requestMet_waiting : requestMet.firnQueues = [0] ∧ (requestMet.fu 0).writeQ = waitingWrites ∧ (requestMet.fu 0).ownQ = [] ∧
    unitCounted.node = 0 := by
  decide +kernel

theorem pageWritten_pool : pageWritten.bankPage 0 99 = none ∧ pageWritten.err.met = [] ∧
    (pageWritten.page 0 1).map (·.data.cells) = some [(0, 1)] ∧
    ((pageWritten.page 0 2).bind fun g => g.far.map (·.next)) = some 256 := by
  decide +kernel

/-! ### The run -/

/-- The oldest write lands, whatever number of the writes does. -/
theorem requestMet_firnSettle : requestMet.firnSettle.snow = pageWritten.snow ∧ requestMet.firnSettle.err = pageWritten.err := by
  obtain ⟨hq, hw, ho, -⟩ := requestMet_waiting
  obtain ⟨hnone, -⟩ := pageWritten_pool
  have hw' : (requestMet.drawn.fu 0).writeQ = _ := hw
  obtain ⟨k, hk⟩ := Block.firnDrainSome_long (s := requestMet) (u := 0) (by rw [hw, ho, waitingWrites_length]; decide)
  have hfirst := Block.firnDrain_first hw' ho (fun b hb => ?_) k
  · rw [Block.firnSettle_one hq, hk]
    exact hfirst
  · rw [List.eq_of_mem_replicate hb]
    show pageWritten.bankWrite 0 _ = pageWritten
    unfold Block.bankWrite
    rw [hnone]

/-- The pages once the request has been answered. -/
theorem unitCounted_farRequest (g : Page) (c : FarCopy) (i : Nat × Bool) :
    ((unitCounted.farRequest 0 2 g c (0, i)).page 0 1).map (·.data.cells) = some [(0, 1)] ∧
    ((unitCounted.farRequest 0 2 g c (0, i)).page 0 2).bind (fun g => g.far.map (·.next)) = some 256 := by
  obtain ⟨-, -, -, hnode⟩ := requestMet_waiting
  obtain ⟨-, hmet, hdata, hnext⟩ := pageWritten_pool
  obtain ⟨hsnow, herr⟩ := requestMet_firnSettle
  obtain ⟨k, hv, hk⟩ := Block.farRequest_here (s := unitCounted) (p := 0) (pid := 2) (g := g) (c := c) (e := (0, i)) hnode.symm
  have hp : ((requestMet.perform k).2).snow = pageWritten.snow := (Block.perform_far_snow hv (by rw [herr, hmet])).trans hsnow
  rw [hk]
  constructor
  · rw [show unitCounted.drawn.performOwned 32 0 = requestMet from rfl, Block.moverAnswered,
      Block.page_modPage_other _ _ _ (by decide), Block.page_congr hp]
    exact hdata
  · rw [Block.moverAnswered_next, show unitCounted.drawn.performOwned 32 0 = requestMet from rfl, Block.page_congr hp]
    exact hnext

/-- A page with no copy under way sends nothing. -/
theorem farSend_still {s : Block} {p pid : Nat} (n : Nat) (h : (s.page p pid).bind (fun g => g.far.map (·.next)) = none) :
    s.farSend p pid n = s := by
  cases n with
  | zero => rfl
  | succ n =>
    unfold Block.farSend
    cases hp : s.page p pid with
    | none => rfl
    | some g =>
      rw [hp] at h
      have : g.far = none := by simpa using h
      simp [this]

/-- A copy whose units are all requested sends nothing. -/
theorem farSend_sent {s : Block} {p pid m : Nat} (n : Nat) (h : (s.page p pid).bind (fun g => g.far.map (·.next)) = some m)
    (hm : 256 ≤ m) : s.farSend p pid n = s := by
  cases n with
  | zero => rfl
  | succ n =>
    unfold Block.farSend
    split
    · rfl
    next g c e he =>
      have : c.next = m := by
        obtain ⟨g', hg, he⟩ := Option.bind_eq_some_iff.mp he
        obtain ⟨c', hc, he⟩ := Option.bind_eq_some_iff.mp he
        obtain ⟨e', -, he⟩ := Option.map_eq_some_iff.mp he
        cases he
        rw [hg, Option.bind_some, hc] at h
        exact Option.some.inj h
      rw [if_pos (Or.inr (Or.inl (by omega)))]

theorem zeroFilled_farSend : ∃ (g : Page) (c : FarCopy) (i : Nat × Bool),
    zeroFilled.farSend 0 2 256 = unitCounted.farRequest 0 2 g c (0, i) := by
  obtain ⟨-, -, -, -, hp, ht⟩ := zeroFilled_pool
  refine ⟨sentPage, { id := 0, next := 255, done := 0, got := Store.empty, failed := none }, (0, true), ?_⟩
  have h1 : zeroFilled.farSend 0 2 256 = (unitCounted.farRequest 0 2 sentPage
      { id := 0, next := 255, done := 0, got := Store.empty, failed := none } (0, 0, true)).farSend 0 2 255 := by
    rw [show (256 : Nat) = 255 + 1 from rfl, Block.farSend, hp]
    exact if_neg (by rw [ht]; decide)
  rw [h1]
  exact farSend_sent _ (unitCounted_farRequest ..).2 (le_refl _)

/-- The data of page 1 once the page of zeros has left: what the unit's write left. -/
theorem movingModule_zeroFill : ((effPageZeroFillDone 0 3 movingModule).page 0 1).map (·.data.cells) = some [(0, 1)] := by
  obtain ⟨hseqs, harenas, hkeys, hp, -⟩ := zeroFilled_pool
  obtain ⟨g, c, i, hsend⟩ := zeroFilled_farSend
  have h0 : effPageZeroFillDone 0 3 movingModule = zeroFilled.openMoves 0 := if_pos movingModule_zeroReady
  rw [h0, Block.openMoves_bare hseqs harenas, Block.farPump_pair hkeys, farSend_still (s := zeroFilled) (pid := 1) 256 (by rw [hp]; rfl),
    hsend]
  exact (unitCounted_farRequest ..).1

theorem exec_zeroFill_snow {s t : State} {p pid : Nat} (hx : exec (.pageZeroFillDone p pid) s = .next t) :
    t.blk.snow = (effPageZeroFillDone p pid s.blk).snow := by
  obtain ⟨u, hu, -, hub⟩ := onBlk_lasting_next (effPageZeroFillDone p pid) s
  obtain rfl : t = u := Host.Outcome.next.inj (hx.symm.trans hu)
  rw [hub]
  rfl

/-- Refutes O27, in its clause on PAGE_ZERO_FILL_DONE: every other page is to keep its data, and page 1 does not
(`movingModule_zeroFill`). -/
theorem not_arenasAndPages : ¬ Obligations.ArenasAndPages := by
  unfold Obligations.ArenasAndPages
  intro h
  obtain ⟨-, -, -, -, hzero, -⟩ := h
  obtain ⟨t, hx, -, -, hdata, -⟩ := hzero { blk := movingModule, pending := [] } 0 3 movingModule_zeroReady
  have hsnow := exec_zeroFill_snow hx
  have h1 := hdata 1 (by decide)
  have h2 : (t.blk.page 0 1).map (·.data.cells) = some [(0, 1)] := (congrArg _ (Block.page_congr hsnow 0 1)).trans movingModule_zeroFill
  have h3 : (movingModule.page 0 1).map (·.data.cells) = some [] := by decide +kernel
  have h4 := congrArg (Option.map Store.cells) h1
  rw [Option.map_map, Option.map_map] at h4
  cases h2.symm.trans (h4.trans h3)

end Sys2Proof.Machine
end

section
/-! STEP_BOUNDARY and cancelled requests (R249, R255): the statement on requests and steps fails, as its premises leave open whether the
table of requests names each number once. -/

namespace Sys2Proof.Machine

/-! ### The state -/

/-- A request of function 0 to model 1. -/
def queuedReq : Req := Req.fresh 0 0 0 [1] 0

/-- The request, cancelled. -/
def cancelledReq : Req := { queuedReq with cancel := some (ABORTED 0) }

/-- A model that takes no step: it is damaged. -/
def damagedModel : Model := { bundle := 0, cls := 1, regs := [], fn := 0, stepNo := 0, damaged := true, step := none }

/-- A module that serves the model at pause level 1; its table of requests, not in canonical form, names number 1 twice: the cancelled
request, and behind it one that is paused. -/
def pausedModule : Block :=
  let b := State.reset.blk
  let b : Block := { b with
    fw := { b.fw with loaded := true },
    serve := [(0, { Serve.empty with models := [(1, damagedModel)] })],
    reqs := [(1, cancelledReq), (1, { queuedReq with state := .paused })] }
  ((b.wf (RIME_STATE 4) 2 0 0).wf (SCH_C_CFG 0) 5 0 0).wf (SRV 0 0x18) 1 0 1

theorem pausedModule_premises : boundaryReady 0 1 pausedModule = true ∧ pausedModule.model 0 1 = some damagedModel ∧
    pausedModule.req 1 = some cancelledReq ∧ pausedModule.fnPart 0 = 0 ∧ cancelledReq.model = 1 := by
  decide +kernel

/-- The boundary ends the request, and then resumes it for the second entry of its number. -/
theorem pausedModule_boundary : ((effStepBoundary 0 1 pausedModule).req 1).map (·.state) = some .queued := by
  decide +kernel

theorem Block.req_lasting (old new : Block) (k : Nat) : (old.lasting new).req k = new.req k := by
  rw [Block.req, Block.lasting_reqs, Block.req]

/-- Refutes O32, in its clause on a cancelled request at a boundary: the request is to have ended, and is queued
(`pausedModule_boundary`). -/
theorem not_requestsAndSteps : ¬ Obligations.RequestsAndSteps := by
  unfold Obligations.RequestsAndSteps
  intro h
  obtain ⟨-, -, -, -, -, hcancel, -⟩ := h
  obtain ⟨h1, h2, h3, h4, h5⟩ := pausedModule_premises
  obtain ⟨t, hx, -, hended⟩ := hcancel { blk := pausedModule, pending := [] } 0 1 1 (ABORTED 0) damagedModel cancelledReq h1 h2 rfl h3 h4 h5
    rfl
  obtain ⟨u, hu, -, hub⟩ := onBlk_lasting_next (effStepBoundary 0 1) { blk := pausedModule, pending := [] }
  obtain rfl : t = u := Host.Outcome.next.inj (hx.symm.trans hu)
  have hq : (t.blk.req 1).map (·.state) = some .queued := by
    rw [hub, Block.req_lasting]
    exact pausedModule_boundary
  cases hended.symm.trans hq

end Sys2Proof.Machine
end
